-- ==== Sys2Proof/Word.lean ====
section
/-! DEFINITION. The word types of the XJT8400 hub. A bit vector stands only for what the manual treats as bits: bytes of
messages, words of a register window, masks, wrapping counters. Counts, sizes, indices and times are natural numbers. -/

namespace Sys2Proof

/-- A byte of a message, a frame, a record or a memory. -/
abbrev Byte := BitVec 8

/-- A 16-bit field (R5). -/
abbrev Half := BitVec 16

/-- A 32-bit word (R5). -/
abbrev Word := BitVec 32

/-- The 48-bit tick counter (Table 2.1). -/
abbrev Tick := BitVec 48

end Sys2Proof
end

