-- ==== Sys2Proof/Syntax.lean ====
section
/-! DEFINITION. The commands of the block: `Instr` has one constructor per row of spec/opcode_table.json. A mailbox command
carries its request (the transport it came by, the header fields of Table 3.2 and the payload); an event of a pin, a
cable, a timer or an engine carries what the hub reads from outside at that event. -/

namespace Sys2Proof

/-- The mailbox channels of Table 3.1, and the command gate (R391), whose number in signed data is 4 (R58). -/
inductive Chan where
  | loc | tun | peer | dbg | gate
  deriving DecidableEq, Repr

/-- The transport that carried a request, and on which its reply returns (R47, R48, R391). -/
inductive Via where
  /-- LOCAL, SPI or I3C as the strap chooses. -/
  | spi
  /-- TUNNEL by function 7. -/
  | pcie
  /-- TUNNEL by the USB vendor interface. -/
  | usb
  /-- PEER through a cable port. -/
  | peer (port : Nat)
  /-- DEBUG by DBG_MBX. -/
  | jtag
  /-- The command gate, for an instance. -/
  | gate (inst : Nat)
  deriving DecidableEq, Repr

/-- A request without its opcode and length (Table 3.2): the constructor of `Instr` is the opcode, the payload its own
length. -/
structure Req where
  via     : Via
  tag     : Half
  flags   : Half
  cred    : Word
  rsv     : Word
  payload : List Byte
  deriving DecidableEq, Repr

/-- What a lane's receiver holds at one rate (R114, Table 5.8): CDR phase and frequency, CTLE peaking and VGA gain in 0.5 dB units, the
24 taps of the DSP FFE, and the first DFE tap in 0.01 units. -/
structure RxState where
  phase : Int
  freq  : Int
  ctle  : Nat
  vga   : Nat
  taps  : List Int
  dfe   : Int
  deriving DecidableEq, Repr

def RxState.init : RxState := ⟨0, 0, 0, 0, List.replicate 24 0, 0⟩

/-- What an equalisation settles for one lane at one rate: the transmit FFE c(−3) to c(1) in 0.01 units and the precoding that the peer's
receiver has asked of this end's transmitter, and what this end's receiver has adapted. -/
structure EqRes where
  ffe    : List Int
  precTx : Bool
  rx     : RxState
  deriving DecidableEq, Repr

/-- The result that a training or re-calibration step gives for one lane: each direction's outcome, the flight time in ps and whether a
slip was seen (Tables 5.6 and 5.9). -/
structure LaneRes where
  fwd     : Bool
  rev     : Bool
  flight  : Nat
  slip    : Bool
  /-- The settings after an equalisation step. -/
  eq      : Option EqRes
  /-- The settings for H that the re-calibration of a lane at F adapts too (R133). -/
  eqH     : Option EqRes
  /-- Microseconds that the step took. -/
  micros  : Nat
  deriving DecidableEq, Repr

/-- The peer's settings that this end learns at T_LOCK (Table 5.6, step 2) and that R99 or R124 compares: lane mask, MAX_RATE H,
PRECODE_POLICY, L0S_ENABLE, L1D_ENABLE, LINK_ENCRYPT, KEY_ROTATE_S. -/
structure PeerLane where
  mask    : Nat
  maxH    : Bool
  prec    : Nat
  l0s     : Bool
  l1d     : Bool
  encrypt : Bool
  rotateS : Nat
  /-- The peer is in BLANK, MANUFACTURE or RETURNED (R160, R162). -/
  openLc  : Bool
  deriving DecidableEq, Repr

/-- What a HELLO carries (Table 6.10): generation, role, offered depth, NEVER_MASTER, random value, identity key
identifier, device ID and the sender's PCIE, USB and NET ends. -/
structure PeerHello where
  gen    : Nat
  role   : Nat
  depth  : Nat
  never  : Bool
  rand   : Nat
  keyid  : Nat
  devid  : Nat
  pcie   : Nat
  usb    : Nat
  net    : Nat
  deriving DecidableEq, Repr

/-- A cell: the header of Table 6.1 and its payload; `hcrc` its HCRC, as it stands in the header. -/
structure Cell where
  path   : Nat
  tc     : Nat
  kind   : Nat
  len    : Nat
  seq    : Nat
  cidx   : Nat
  first  : Bool
  last   : Bool
  poison : Bool
  ecn    : Bool
  hcrc   : Nat
  payload : List Byte
  deriving DecidableEq, Repr

/-- One segment of a lane plan (R166): START, MODE 0 FWD to 7 OUT, RATE 0 F or 1 H, and the T bit. -/
structure Seg where
  start : Nat
  mode  : Nat
  rate  : Nat
  t     : Bool
  deriving DecidableEq, Repr

/-- A lane plan (Table 6.5): the segments of lanes 0 to 3 in the tick `target`. -/
structure Plan where
  target : Nat
  fixed  : Bool
  repeated : Bool
  depth  : Nat
  lanes  : List (List Seg)
  deriving DecidableEq, Repr

/-- A demand report (Table 6.7): ALIGN, MISSED, LANE_REQ per lane, RESV and BACKLOG per class. -/
structure Demand where
  target  : Nat
  align   : Nat
  missed  : Bool
  laneReq : List Nat
  resv    : List Nat
  backlog : List Nat
  deriving DecidableEq, Repr

/-- One entry of a CREDIT cell (Table 6.4). -/
structure CreditEntry where
  label : Nat
  nak   : Bool
  ack   : Nat
  limit : Nat
  deriving DecidableEq, Repr

/-- A chain notice (Table 6.10): depth, event (0 link up, 1 closed), role and ends. -/
structure Notice where
  depth : Nat
  event : Nat
  role  : Nat
  pcie  : Nat
  usb   : Nat
  net   : Nat
  deriving DecidableEq, Repr

/-- A frame descriptor (Table 9.3). -/
structure FrameDesc where
  frame   : Nat
  htotal  : Nat
  hactive : Nat
  hstart  : Nat
  hsync   : Nat
  vtotal  : Nat
  vactive : Nat
  vstart  : Nat
  vsync   : Nat
  misc    : Nat
  dsc     : Bool
  adaptive : Bool
  /-- Nominal stream clock in mHz. -/
  clock   : Nat
  bpp     : Nat
  deriving DecidableEq, Repr

/-- A chunk: its header (Table 9.2) and data. -/
structure Chunk where
  typ   : Nat
  line  : Nat
  chunk : Nat
  /-- Capture time in 1/64 ns, as the 16-bit tick count times 2,000,000 plus the time within the tick. -/
  stamp : Nat
  data  : List Byte
  deriving DecidableEq, Repr

/-- A TLP as the hub reads it: flow-control type 0 P, 1 NP, 2 CPL; how it is routed (0 by address, 1 by ID, 2 to the root,
3 from the root to all) and where to; requester ID and tag; data bytes carried, and the bytes a read asks for; `ends` on the
completion that ends its request; `bad` when it is malformed; `bytes` the TLP header, the data and any ECRC. -/
structure Tlp where
  fc     : Nat
  route  : Nat
  target : Nat
  rid    : Nat
  tag    : Nat
  data   : Nat
  len    : Nat
  ends   : Bool
  bad    : Bool
  /-- A PME_Turn_Off broadcast, or a PME_TO_Ack (Table 10.2). -/
  pmeOff : Bool
  pmeAck : Bool
  bytes  : List Byte
  deriving DecidableEq, Repr

/-- A configuration register of a function of the virtual switch (R270, Table 10.3), by its PCI Express name. -/
inductive CfgReg where
  | vendorId | deviceId | revision | classCode | headerType
  | busNumbers | memBase | memLimit | command | bridgeControl
  | linkCap | linkControl | linkStatus | slotCap | slotControl | slotStatus | deviceControl
  | acsControl | aerUncStatus | aerCorStatus | aerUncSeverity | vsec
  | deviceCap | deviceCap2 | l1ssCap | l1ssControl | powerCap | powerState | bar0
  deriving DecidableEq, Repr

/-- What a host's control request asks of a hub port or a device, where a rule of spec/11 acts on it. -/
inductive UsbReq where
  | other | clearHalt (ep : Nat) (dirIn : Bool) | setHalt (ep : Nat) (dirIn : Bool) | setConfiguration (value : Nat) | setInterface
  | setAddress (addr : Nat) | getDescriptor (type : Nat) | portReset | portPower (on : Bool) | remoteWakeEnable (on : Bool)
  | portSuspend (on : Bool) | portStatus | clearPortChange (bits : Nat)
  /-- A reset of a port of an external hub, with the addresses of the devices behind it (R308). -/
  | extPortReset (addrs : List Nat)
  deriving DecidableEq, Repr

/-- A host transaction at the HOSTSIDE USA: the root port it goes to (0 the root hub itself, 1 the own functions), the remote port (0
the remote hub itself; a root hub's port where root is 0), device address, endpoint, direction (true IN), kind 0 control, 1 bulk, 2 interrupt, 3 isochronous; SuperSpeed;
whether it is a SETUP, the packets asked (NumP), the endpoint's MaxBurst, the stream, the data, and what a control request asks. -/
structure UsbTx where
  root   : Nat
  port   : Nat
  addr   : Nat
  ep     : Nat
  dirIn  : Bool
  kind   : Nat
  ss     : Bool
  setup  : Bool
  /-- Through a transaction translator: 0 no, 1 start-split, 2 complete-split. -/
  split  : Nat
  nump   : Nat
  burst  : Nat
  stream : Nat
  req    : UsbReq
  data   : List Byte
  deriving DecidableEq, Repr

/-- A USB tunnel frame (Table 11.4). -/
structure UsbFrame where
  typ    : Nat
  port   : Nat
  addr   : Nat
  ep     : Nat
  dirIn  : Bool
  seq    : Nat
  epoch  : Nat
  count  : Nat
  stream : Nat
  data   : List Byte
  deriving DecidableEq, Repr

/-- A receive or transmit descriptor of the network function's rings (Table 12.4), as the function reads it. -/
structure NetDesc where
  addr  : Nat
  len   : Nat
  eop   : Bool
  deriving DecidableEq, Repr

/-- A resolved routing entry (Table 13.2). -/
structure SbRoute where
  srcKind : Nat
  srcIf   : Nat
  srcId   : Nat
  hops    : Nat
  up      : Bool
  chain   : Nat
  dstKind : Nat
  dstIf   : Nat
  dstId   : Nat
  hold    : Bool
  writeOk : Bool
  readOk  : Bool
  deriving DecidableEq, Repr

/-- A sideband transaction (the `sb.xfer` payload from offset 2): bytes to read, repeated START, lock handle, write data. -/
structure SbXfer where
  reads  : Nat
  repeatedStart : Bool
  lock   : Nat
  data   : List Byte
  deriving DecidableEq, Repr

/-- The holder of a lock (R353): its hub (as depth and chain), channel and credential handle, and its age. -/
structure SbHolder where
  depth  : Nat
  chain  : Nat
  chan   : Nat
  cred   : Nat
  tick   : Nat
  slot   : Nat
  deriving DecidableEq, Repr

/-- A USB PD message by its name, as the PD PHY reads it. -/
inductive PdKind where
  | goodCrc | accept | reject | wait | notSupported | softReset | psRdy | getSourceCap | getSinkCap | sourceCaps | sinkCaps
  | request | prSwap | drSwap | vconnSwap | frSwap | eprModeEnter | eprModeAck | eprModeFail | eprModeExit
  | eprKeepAlive | eprKeepAliveAck
  /-- A structured VDM: SVID, command (1 Discover Identity, 2 SVIDs, 3 Modes, 4 Enter, 5 Exit, 6 Attention, 16 DisplayPort
  Status, 17 Configure), and 0 request, 1 ACK, 2 NAK, 3 BUSY. -/
  | vdm (svid cmd typ : Nat)
  | other
  deriving DecidableEq, Repr

/-- A received PD message: packet type 0 SOP, 1 SOP', 2 SOP''; its kind; header; data objects; and whether a message that
goes to the queue requires a response (R413). -/
structure PdMsg where
  sop    : Nat
  kind   : PdKind
  header : Half
  objs   : List Word
  needs  : Bool
  deriving DecidableEq, Repr

/-- The commands of the block, one constructor per row of the opcode table, in its order. -/
inductive Instr where
  /-- POWER_ON_RESET (R534). PORST_N rising or VDD_AON brown-out release resets every domain, samples straps and starts the power-up sequence. -/
  | powerOnReset (mbxSel : Bool) (i3cAddr : Nat)
  /-- PORST_FALL (R573). PORST_N falling or a VDD_AON brown-out drops all rail enables within 1 µs and releases REFCLK_REQ_N. -/
  | porstFall
  /-- RAIL_DEADLINE_MISS (R572). A rail not in range by its power-up deadline makes the hub drop all enables for 10 ms. -/
  | railDeadlineMiss
  /-- RAIL_RESTART (R572). After the 10 ms off time the hub retries from the CORE_EN step, giving up after the third failure. -/
  | railRestart
  /-- SYSTEM_RESET (R534). SYSRST_N low or any other system-reset source resets every domain except AON and PWR and starts Fiddlehead. -/
  | systemReset
  /-- MGMT_FIRMWARE_READY (R535). The management image starts after boot, acts on the journal, applies the STORE layer and the role, and starts the other engines. -/
  | mgmtFirmwareReady
  /-- LPDDR_TRAINING_DONE (R369). Full LPDDR training completes or fails; on failure the hub runs without LPDDR. -/
  | lpddrTrainingDone (ok : Bool) (rate gib mask : Nat)
  /-- MANAGEMENT_CORE_RESET (R536). The lockstep pair is reset, its code half re-verified or reloaded, and pending requests answered RETRY_LATER. -/
  | managementCoreReset (cause : Nat)
  /-- DEFERRED_RESET (R551). The reset requested by sys.reset 1 ms earlier, or by a life-cycle change 10 ms earlier, is performed. -/
  | deferredReset
  /-- LOCKSTEP_FAULT (R540). Differing outputs of the management pair record a fault and reset the management core. -/
  | lockstepFault
  /-- MGT_WATCHDOG_TIMEOUT (R540). The firmware has not written its watchdog register for 32 ticks; the management core is reset. -/
  | mgtWatchdogTimeout
  /-- MGT_TRAP (R540). A trap the firmware declares fatal resets the management core. -/
  | mgtTrap
  /-- PWRSEQ_FAULT (R540). A power sequencer trap or missing heartbeat restarts it, or puts it in ROM mode on the third in 32,000 ticks. -/
  | pwrseqFault
  /-- PHYSEQ_FAULT (R540). A PHY sequencer trap or missing heartbeat restarts it and fails the step in progress, or stops it on the third. -/
  | physeqFault (port : Nat)
  /-- CORE_BROWNOUT (R540). VDD_CORE below 0.50 V for 1 µs causes a system reset. -/
  | coreBrownout
  /-- THERMAL_TRIP (R543). A sensor above the grade maximum + 10 °C in 2 consecutive ticks shuts down every domain except AON and PWR. -/
  | thermalTrip
  /-- THERMAL_RECOVERY (R543). After every sensor has read below maximum − 5 °C for 1 s the hub performs a system reset. -/
  | thermalRecovery
  /-- SPI_WRITE_REQUEST_FRAME (R72). A LOCAL write-request frame is checked, counted for attention and its request queued for execution. -/
  | spiWriteRequestFrame (mosi : List Byte)
  /-- SPI_READ_REPLY_FRAME (R74). A read-reply frame returns the held reply, L = 0 or L = 0xFFFF. -/
  | spiReadReplyFrame
  /-- SPI_WINDOW_READ_FRAME (R76). A window-read frame returns the applied count of window words and a CRC. -/
  | spiWindowReadFrame (offset count : Nat)
  /-- RESET_CTL_SYSTEM_RESET (R79). A window write of RESET_CTL KIND 1 with key 0xC0A7 at window level P3 causes a system reset. -/
  | resetCtlSystemReset (via : Via)
  /-- RESET_CTL_MGMT_CORE_RESET (R79). A window write of RESET_CTL KIND 2 with key 0xC0A7 at window level P3 resets the management core. -/
  | resetCtlMgmtCoreReset (via : Via)
  /-- REGISTER_WRITE (R79). A write to a register without behaviour of its own sets it or is ignored as its map gives. -/
  | registerWrite (map off value : Nat)
  /-- I3C_PRIVATE_WRITE (R75). An I3C private write carries a frame or selects what following private reads return. -/
  | i3cPrivateWrite (bs : List Byte)
  /-- I3C_PRIVATE_READ (R75). An I3C private read returns the MISO content of the selected frame. -/
  | i3cPrivateRead
  /-- SUBMIT (R77). A write of MBX_DOORBELL hands the function 7 request buffer to the hub. -/
  | submit
  /-- RELEASE (R77). A write of MBX_REPLY_DONE returns the reply buffer and clears REPLY_READY. -/
  | release
  /-- USB_MBX_BULK_OUT (R78). A bulk OUT transfer on the vendor interface carries one TUNNEL request. -/
  | usbMbxBulkOut (ep : Nat) (bs : List Byte)
  /-- USB_MBX_BULK_IN (R78). A bulk IN transfer returns the TUNNEL reply. -/
  | usbMbxBulkIn (ep : Nat)
  /-- USB_VENDOR_STATUS (R78). Vendor control request 0x01 returns the status word. -/
  | usbVendorStatus
  /-- USB_VENDOR_WINDOW_READ (R76). Vendor control request 0x02 reads the hardware window. -/
  | usbVendorWindowRead (index len : Nat)
  /-- USB_VENDOR_WINDOW_WRITE (R309). Vendor control request 0x03 writes one window word at its status stage. -/
  | usbVendorWindowWrite (index value : Nat)
  /-- JTAG_DBG_MBX (R47). A DEBUG mailbox message carried by the DBG_MBX JTAG instruction. -/
  | jtagDbgMbx (frame : List Byte)
  /-- PEER_MESSAGE (R70). A mailbox request received on PEER is executed or, with HOPS above 0, forwarded down the chain. -/
  | peerMessage (port : Nat) (bs : List Byte)
  /-- FORWARDED_REPLY (R71). A reply coming back up completes the first hub's handle. -/
  | forwardedReply (port : Nat) (bs : List Byte)
  /-- FORWARD_TIMEOUT (R71). No forwarded reply within FORWARD_TIMEOUT_MS completes the handle with RETRY_LATER. -/
  | forwardTimeout (port : Nat) (tag : Half)
  /-- MBX_REPLY_BACKSTOP (R65). No firmware reply 0.9 ms after completion makes the hardware reply ACCEPTED with a handle. -/
  | mbxReplyBackstop (index : Nat)
  /-- LONG_COMMAND_FINISH (R67). A long command finishes, its result is stored and CMD_COMPLETE queued. -/
  | longCommandFinish (via : Via) (handle : Nat) (ok : Bool)
  /-- COMPLETION_HANDLE_LAPSE (R68). A completion handle lapses CRED_IDLE_S seconds after its result without being read. -/
  | completionHandleLapse (chan : Chan) (handle : Nat)
  /-- CRED_IDLE_LAPSE (R59). A credential handle lapses after CRED_IDLE_S seconds without use. -/
  | credIdleLapse (chan : Chan) (handle : Nat)
  /-- WATCHDOG_EXPIRY (R61). WATCHDOG_MULT attention intervals without a counted LOCAL request set UNATT and withdraw overrides. -/
  | watchdogExpiry
  /-- FUNCTION7_RESET (R91). Reset of function 7 or deconfiguration of the USB vendor interface withdraws the TUNNEL layer. -/
  | function7Reset (usb : Bool)
  /-- ADAPTER_END_DEFERRED_APPLY (R14). A deferred adapter end is applied within one tick after its last path closes. -/
  | adapterEndDeferredApply (adapter : Nat)
  /-- SYS_PING (R81). Command sys.ping replies with the status word. -/
  | sysPing (rq : Req)
  /-- SYS_EVENT_READ (R56). Command sys.event.read removes entries and takes the status word in one step. -/
  | sysEventRead (rq : Req)
  /-- SYS_EVENT_MASK (R564). Command sys.event.mask sets the channel's event mask. -/
  | sysEventMask (rq : Req)
  /-- SYS_CMD_RESULT (R81). Command sys.cmd.result returns a completion's result and frees its handle. -/
  | sysCmdResult (rq : Req)
  /-- SYS_CRED_CHALLENGE (R58). Command sys.cred.challenge returns a one-use 32-byte nonce valid for 1 s. -/
  | sysCredChallenge (rq : Req)
  /-- SYS_CRED_OPEN (R58). Command sys.cred.open verifies a signed challenge and opens a credential handle. -/
  | sysCredOpen (rq : Req)
  /-- SYS_CRED_CLOSE (R59). Command sys.cred.close lapses a credential handle. -/
  | sysCredClose (rq : Req)
  /-- SYS_TOPO_SHOW (R555). Command sys.topo.show returns role, depth, port roles and multiplexer states. -/
  | sysTopoShow (rq : Req)
  /-- SYS_TIME_SHOW (R556). Command sys.time.show returns tick, slot, alignment and holdover state. -/
  | sysTimeShow (rq : Req)
  /-- SYS_FAULT_SHOW (R551). Command sys.fault.show returns the fault record and units out. -/
  | sysFaultShow (rq : Req)
  /-- SYS_FAULT_CLEAR (R551). Command sys.fault.clear clears LOG, COUNTS and FLOOR. -/
  | sysFaultClear (rq : Req)
  /-- SYS_RESET (R551). Command sys.reset replies and schedules a system or management-core reset 1 ms later. -/
  | sysReset (rq : Req)
  /-- CFG_RECORD_STAGE (R104). Command cfg.record.stage appends a chunk to the channel's staging buffer. -/
  | cfgRecordStage (rq : Req)
  /-- CFG_RECORD_APPLY (R95). Command cfg.record.apply frames, verifies, checks and applies the staged record set. -/
  | cfgRecordApply (rq : Req)
  /-- CFG_RECORD_SHOW (R103). Command cfg.record.show returns a view of a record type. -/
  | cfgRecordShow (rq : Req)
  /-- CFG_REPORT_SHOW (R103). Command cfg.report.show returns clamp report entries. -/
  | cfgReportShow (rq : Req)
  /-- CFG_OVERRIDE_CLEAR (R103). Command cfg.override.clear clears the channel's override layer. -/
  | cfgOverrideClear (rq : Req)
  /-- CFG_STORE_COMMIT (R94). Command cfg.store.commit starts writing the STORE layer to the invalid or older flash copy. -/
  | cfgStoreCommit (rq : Req)
  /-- CFG_STORE_COMMIT_DONE (R94). The flash copy is programmed and read back and the commit completes OK or HW_FAULT. -/
  | cfgStoreCommitDone (ok : Bool)
  /-- CFG_STORE_SHOW (R103). Command cfg.store.show returns GENs and validity of the store copies. -/
  | cfgStoreShow (rq : Req)
  /-- TICK_BOUNDARY (R206). At slot 0 the plans for the tick take effect, inputs are latched and servo measurements taken. -/
  | tickBoundary (readings : List Int) (pOut margin steps : Nat) (lanes : List (List Nat))
  /-- DEMAND_FREEZE (R169). By slot 31 local adapter demand is frozen and the peer sends its DEMAND cells. -/
  | demandFreeze
  /-- LANE_PLAN_START (R209). At slot 40 the tick master builds the lane plan for tick n+2. -/
  | lanePlanStart
  /-- LOCAL_PLAN_START (R215). At slot 120 the planner builds the local plan for n+1 with fill and energy steps. -/
  | localPlanStart
  /-- TICK_CELL_SEND (R167). At slot 200 the tick master sends the TICK cell for n+2, repeating n+1 if the plan is late. -/
  | tickCellSend
  /-- TICK_CELL_DEADLINE (R34). At slot 240 an UP port without a TICK cell for n+2 chooses the fixed plan. -/
  | tickCellDeadline
  /-- LOCAL_PLAN_DEADLINE (R33). A local plan not complete by slot 249 makes the next tick rerun the current one. -/
  | localPlanDeadline
  /-- TIME_SYNC_TIMEOUT (R37). No time-sync cell for SYNC_TIMEOUT_TICKS makes the UP port LOST. -/
  | timeSyncTimeout (port : Nat)
  /-- TIMEBASE_PHASE_STEP (R37). A LOST UP port steps phase and counter at its next own tick boundary and DOWN ports go LOST. -/
  | timebasePhaseStep
  /-- REFCLK_LOSS_DETECT (R41). REFCLK absent or off by more than 1,000 ppm puts PLLs into holdover. -/
  | refclkLossDetect
  /-- HOLDOVER_EXPIRY (R41). HOLDOVER_TICKS pass without REFCLK; lanes go idle and links close. -/
  | holdoverExpiry
  /-- REFCLK_RESTORED (R42). REFCLK within tolerance for 1 ms ends holdover and restarts closed links. -/
  | refclkRestored
  /-- LANE_TRAINING_START (R125). The multiplexer connecting CPX starts training at DETECT. -/
  | laneTrainingStart (port : Nat)
  /-- TRAINING_STEP_END (R125). A training step ends or reaches its limit and the next step, handover or failure follows. -/
  | trainingStepEnd (port : Nat) (res : List LaneRes) (peer : PeerLane)
  /-- TRAINING_RESTART_DELAY (R125). After 100 ms without lock in a direction the port restarts step 1. -/
  | trainingRestartDelay (port : Nat)
  /-- FLOOR_RETRAIN (R136). A port in FLOOR retrains from step 1 once every 1 s. -/
  | floorRetrain (port : Nat)
  /-- TURNAROUND (R114). A lane changes direction at a planned slot boundary with EOS, preamble and SOS. -/
  | turnaround (port lane : Nat) (adapted : RxState)
  /-- SOS_WINDOW_MISS (R116). A receiver that did not accept SOS in its window records a slip and discards the lane's data. -/
  | sosWindowMiss (port lane cause : Nat)
  /-- L1X_COMPLETE (R121). The six-tick L1X sequence ends; the lane enters L0, or CAL if it did not re-acquire. -/
  | l1xComplete (port lane : Nat) (ok : Bool)
  /-- RECAL_TRIGGER (R129). A symbol-error, temperature or uncorrectable-codeword trigger requests re-calibration of a lane. -/
  | recalTrigger (port lane trig : Nat)
  /-- RECAL_DEFER_EXPIRY (R132). RECAL_DEFER_MS passes and the held-back re-calibration proceeds. -/
  | recalDeferExpiry (port lane : Nat)
  /-- RECAL_STEP_END (R133). A re-calibration step ends; the lane proceeds, falls to H, retires or passes. -/
  | recalStepEnd (port lane : Nat) (res : LaneRes)
  /-- LANE_RESTORE_RETRY (R138). Every LANE_RETRY_S the hub attempts to restore retired lanes. -/
  | laneRestoreRetry (port : Nat)
  /-- SIGNAL_LOSS (R139). Four ticks without SOS or energy take the port's lanes OFF and close the link. -/
  | signalLoss (port : Nat)
  /-- PRBS_TEST_END (R140). A PRBS test reaches its tick count and completes with both ends' counts. -/
  | prbsTestEnd (port lane : Nat) (counts : List Nat)
  /-- LINK_LANE_SHOW (R143). Command link.lane.show returns a lane's state and counters. -/
  | linkLaneShow (rq : Req)
  /-- LINK_LANE_PRBS (R140). Command link.lane.prbs starts or stops a PRBS test. -/
  | linkLanePrbs (rq : Req)
  /-- LINK_LANE_INJECT (R141). Command link.lane.inject starts or stops error injection. -/
  | linkLaneInject (rq : Req)
  /-- LINK_LANE_RECAL (R131). Command link.lane.recal requests re-calibration of a lane. -/
  | linkLaneRecal (rq : Req)
  /-- LINK_LANE_RETIRE (R136). Command link.lane.retire retires a lane or one direction. -/
  | linkLaneRetire (rq : Req)
  /-- LINK_LANE_RESTORE (R138). Command link.lane.restore restores a retired lane. -/
  | linkLaneRestore (rq : Req)
  /-- LINK_LANE_CLEAR (R143). Command link.lane.clear zeroes lane counters. -/
  | linkLaneClear (rq : Req)
  /-- CELL_RECEIVE (R147). A received cell is checked, looked up and admitted or discarded. -/
  | cellReceive (port lane : Nat) (c : Cell) (errs : List Nat) (ctr : Nat) (old : Bool) (tag : List Byte)
  /-- COACH_RECEIVE (R158). A coach's tag is verified; its cells are released, or discarded and poisoned onward. -/
  | coachReceive (port lane : Nat) (tag : List Byte)
  /-- CREDIT_CELL (R154). A CREDIT cell updates acknowledgements and credit limits or triggers a NAK replay. -/
  | creditCell (port : Nat) (es : List CreditEntry)
  /-- TICK_CELL (R167). The peer checks a TICK cell and stores the lane plan for its target tick. -/
  | tickCell (port : Nat) (plan : Plan)
  /-- DEMAND_CELL (R169). The tick master takes a DEMAND cell for the plan of its target tick. -/
  | demandCell (port : Nat) (d : Demand)
  /-- TIME_SYNC_CELL (R170). A SYNC or RESP cell exchanges timestamps for the offset computation. -/
  | timeSyncCell (port typ lane : Nat) (a b c arrived sent : Int)
  /-- HELLO (R171). A HELLO received at LINK_T drives the election. -/
  | hello (port : Nat) (h : PeerHello)
  /-- ELECT (R171). ELECT makes the receiving port UP at depth one more than the master. -/
  | elect (port master own : Nat)
  /-- KEY_INIT (R160). The peer receives KEY_INIT and answers KEY_RESP. -/
  | keyInit (port : Nat) (bytes : List Byte)
  /-- KEY_RESP (R160). The tick master receives KEY_RESP and sends KEY_FINISH. -/
  | keyResp (port : Nat) (bytes : List Byte)
  /-- KEY_FINISH (R160). Verifying the other end's KEY_FINISH installs key index 0 or fails agreement. -/
  | keyFinish (port : Nat) (bytes : List Byte)
  /-- KEY_AGREEMENT_TIMEOUT (R160). No key agreement message within 10 ms fails the attempt. -/
  | keyAgreementTimeout (port : Nat)
  /-- KEY_ROTATION_START (R161). KEY_ROTATE_S or the counter limit makes the sender send KEY_NEXT. -/
  | keyRotationStart (port : Nat)
  /-- KEY_NEXT (R161). The receiver of KEY_NEXT answers KEY_NEXT_ACK. -/
  | keyNext (port dir index : Nat) (tick : Tick)
  /-- KEY_NEXT_ACK (R161). KEY_NEXT_ACK confirms the rotation to the sender. -/
  | keyNextAck (port dir index : Nat)
  /-- KEY_EFFECTIVE_TICK (R161). At tick K the new key index takes effect, or KEY_NEXT is repeated if unacknowledged. -/
  | keyEffectiveTick (port : Nat)
  /-- KEY_INDEX_RETIRE (R161). At tick K+2 the receiver drops the old key index. -/
  | keyIndexRetire (port : Nat)
  /-- PATH_SETUP (R151). A PATH_SETUP installs an entry, forwards it, or is answered PATH_ACK or PATH_NACK. -/
  | pathSetup (port id label tc hops dst : Nat) (cut : Bool) (contract credit : Nat)
  /-- PATH_ACK (R151). PATH_ACK installs reverse entries and completes path.open at the starting hub. -/
  | pathAck (port id label credit : Nat)
  /-- PATH_NACK (R151). PATH_NACK removes installed entries and fails path.open. -/
  | pathNack (port id reason : Nat)
  /-- PATH_TEARDOWN (R175). PATH_TEARDOWN removes an entry and tears the path down hop by hop. -/
  | pathTeardown (port label : Nat)
  /-- LANE_NOTICE (R136). LANE_NOTICE applies a peer's retirement or restoration to the lane set. -/
  | laneNotice (port lane event use : Nat)
  /-- MASTER_QUERY (R172). MASTER_QUERY asks the tick master to resume TICK cells. -/
  | masterQuery (port : Nat)
  /-- LINK_CLOSE (R175). LINK_CLOSE from the peer closes the link. -/
  | linkClose (port cause : Nat)
  /-- CHAIN_NOTICE (R174). A chain link change is relayed upward or acted on as a chain link-up at the HOSTSIDE hub. -/
  | chainNotice (port : Nat) (n : Notice)
  /-- LINK_CTRL_UNKNOWN (R173). A link-control message of unknown type is acknowledged and ignored. -/
  | linkCtrlUnknown (port : Nat)
  /-- GAP_TIMEOUT (R152). A lossless gap not filled within REORDER_NS causes a NAK. -/
  | gapTimeout (port label : Nat)
  /-- REPLAY_TIMEOUT (R153). No acknowledgement progress for REPLAY_TIMEOUT_TICKS replays from the oldest cell. -/
  | replayTimeout (port label : Nat)
  /-- LINK_T_TIMEOUT (R176). Election beyond 5 ms or step 3 beyond 50 ms fails LINK_T. -/
  | linkTTimeout (port : Nat)
  /-- BRINGUP_RESTART (R176). 100 ms after a step 3 failure the port restarts from step 1, or gives up after three. -/
  | bringupRestart (port : Nat)
  /-- MASTER_LOSS_TIMEOUT (R172). MASTER_LOSS_TICKS without a valid TICK cell raises MASTER_LOST and starts MASTER_QUERY. -/
  | masterLossTimeout (port : Nat)
  /-- MASTER_QUERY_TIMEOUT (R172). No TICK cell within 64 further ticks closes the link. -/
  | masterQueryTimeout (port : Nat)
  /-- PATH_HOLD_EXPIRY (R175). PATH_HOLD_MS passes without the same peer and suspended paths are torn down. -/
  | pathHoldExpiry (port : Nat)
  /-- PATH_SETUP_TIMEOUT (R151). No PATH_ACK within FORWARD_TIMEOUT_MS completes path.open RETRY_LATER. -/
  | pathSetupTimeout (port label : Nat)
  /-- LINK_SHOW (R179). Command link.show returns link state and counters. -/
  | linkShow (rq : Req)
  /-- LINK_PLAN_SHOW (R179). Command link.plan.show returns a port's lane plan for a tick. -/
  | linkPlanShow (rq : Req)
  /-- LINK_REKEY (R179). Command link.rekey starts key rotation in both directions. -/
  | linkRekey (rq : Req)
  /-- LINK_RESET (R179). Command link.reset closes and retrains the link. -/
  | linkReset (rq : Req)
  /-- PATH_OPEN (R151). Command path.open checks and starts setup of a path. -/
  | pathOpen (rq : Req)
  /-- PATH_CLOSE (R585). Command path.close tears a path down hop by hop. -/
  | pathClose (rq : Req)
  /-- PATH_SHOW (R179). Command path.show returns a path table entry and its counts. -/
  | pathShow (rq : Req)
  /-- LOCAL_CELL_OFFER (R190). A local port offers a cell of a ready class, which is policed and admitted. -/
  | localCellOffer (port cable : Nat) (c : Cell)
  /-- CELL_TIME_MATCH (R195). Each cell time the scheduler connects express cells and matches VOQs to outputs. -/
  | cellTimeMatch (slot : Nat) (room : List Nat) (cut bank : Nat) (bad : List (Nat × Bool))
  /-- VOQ_STARVE (R196). A VOQ's age reaching STARVE_CELLS makes it URGENT. -/
  | voqStarve (inp outp tc : Nat)
  /-- PLAN_SWITCH_SHOW (R203). Command plan.switch.show returns pool and switch counters. -/
  | planSwitchShow (rq : Req)
  /-- PLAN_SWITCH_PORT_SHOW (R203). Command plan.switch.port.show returns per-class port counters. -/
  | planSwitchPortShow (rq : Req)
  /-- PLAN_SWITCH_VOQ_SHOW (R203). Command plan.switch.voq.show returns VOQ state. -/
  | planSwitchVoqShow (rq : Req)
  /-- PLAN_SWITCH_CLEAR (R203). Command plan.switch.clear zeroes switch counters. -/
  | planSwitchClear (rq : Req)
  /-- PLANNER_REFRESH (R233). The management firmware refreshes the planner and clears its count. -/
  | plannerRefresh
  /-- PLANNER_REFRESH_LAPSE (R233). Eight ticks without refresh raise PLAN_AUTONOMOUS. -/
  | plannerRefreshLapse
  /-- PLANNER_HOLD_EXPIRY (R233). 64 ticks without refresh raise PLAN_HOLD_EXPIRED and lower P_pd to P_feed. -/
  | plannerHoldExpiry
  /-- PLAN_SHOW (R237). Command plan.show returns an output's local plan. -/
  | planShow (rq : Req)
  /-- PLAN_BUDGET_SHOW (R237). Command plan.budget.show returns the budget inputs. -/
  | planBudgetShow (rq : Req)
  /-- PLAN_BUDGET_SET (R237). Command plan.budget.set sets P_ceiling in the LOCAL layer. -/
  | planBudgetSet (rq : Req)
  /-- PLAN_CONTRACT_SET (R225). Command plan.contract.set admits or redefines a reserved contract. -/
  | planContractSet (rq : Req)
  /-- PLAN_CONTRACT_CLEAR (R586). Command plan.contract.clear removes contracts. -/
  | planContractClear (rq : Req)
  /-- PLAN_CONTRACT_SHOW (R586). Command plan.contract.show returns a contract and its state. -/
  | planContractShow (rq : Req)
  /-- PLAN_SHAPER_SET (R222). Command plan.shaper.set sets or removes a shaper. -/
  | planShaperSet (rq : Req)
  /-- PLAN_SAMPLE_SHOW (R232). Command plan.sample.show returns sampled depth and delay records. -/
  | planSampleShow (rq : Req)
  /-- PLAN_COST_SHOW (R237). Command plan.cost.show returns the energy cost table. -/
  | planCostShow (rq : Req)
  /-- SINK_LINK_TRAINING (R240). A GPU trains the link to a SINK end within its advertisement. -/
  | sinkLinkTraining (dpx rate lanes : Nat)
  /-- CAPTURE_LINE (R243). A SINK end captures a line and sends its chunks, descriptor and SDPs. -/
  | captureLine (dpx index : Nat) (desc : Option (FrameDesc × Nat)) (line stamp : Nat) (pixels : List Byte) (sdps audio : List (List Byte))
  /-- PANEL_HPD_CHANGE (R253). A panel's HPD rises, falls or pulses; the SOURCE end trains and mirrors its capabilities. -/
  | panelHpdChange (dpx level panelMax lo hi lttprs : Nat) (blocks : List (Nat × List Byte)) (works : List (Nat × Nat))
  /-- PANEL_HPD_LOSS_TIMEOUT (R242). HPD low longer than 2 ms closes the stream and drops HPD toward the source. -/
  | panelHpdLossTimeout (dpx : Nat)
  /-- CHUNK_RECEIVE (R250). A SOURCE end stores an arriving chunk or discards it as late. -/
  | chunkReceive (stream : Nat) (audio : Bool) (bytes : List Byte)
  /-- FRAME_START (R244). At a frame start the SOURCE end applies descriptors, enters or leaves hold and handles skipping. -/
  | frameStart (stream : Nat)
  /-- LINE_DUE (R250). A line's start falls due; its bytes are sent or concealed and the clock servo corrects. -/
  | lineDue (stream line : Nat) (err need : Int) (audio : Nat)
  /-- AUX_TRANSACTION (R251). A SINK end answers an AUX transaction locally or forwards it. -/
  | auxTransaction (dpx cmd addr len vstream : Nat) (data : List Byte)
  /-- AUX_REQ (R251). A forwarded AUX request is performed on the panel's AUX channel. -/
  | auxReq (dpx cseq cmd addr vstream : Nat) (data : List Byte)
  /-- AUX_REP (R251). An AUX reply ends the deferral of the GPU's transaction. -/
  | auxRep (dpx cseq reply : Nat) (rdata : List Byte)
  /-- MIRROR (R253). A MIRROR message updates the SINK end's mirror of the panel. -/
  | mirror (dpx cseq addr : Nat) (data : List Byte)
  /-- HPD (R254). An HPD control message drives HPD or an IRQ_HPD pulse toward the source. -/
  | hpd (dpx cseq : Nat) (level irq : Bool)
  /-- SKIP_REQ (R256). SKIP_REQ sets the capture end's frame-skip factor k. -/
  | skipReq (dpx cseq vstream k : Nat)
  /-- CONTROL_ACK (R252). An ACK stops resending of a CONTROL message. -/
  | controlAck (dpx cseq : Nat)
  /-- CONTROL_RESEND_TIMEOUT (R252). An unacknowledged CONTROL message is resent every 2 ticks, and dropped after 8. -/
  | controlResendTimeout (dpx cseq : Nat)
  /-- AUX_FWD_TIMEOUT (R251). A deferred AUX transaction is NACKed after AUX_FWD_TIMEOUT_US. -/
  | auxFwdTimeout (dpx : Nat)
  /-- HOLD_GAP_EXPIRY (R258). HOLD_GAP_US without a chunk makes the stream enter hold at the next frame start. -/
  | holdGapExpiry (stream : Nat)
  /-- HOLD_MAX_EXPIRY (R260). HOLD_MAX_S ends a hold with SET_POWER D3 to the panel. -/
  | holdMaxExpiry (stream : Nat)
  /-- DISP_SHOW (R264). Command disp.show returns a DPX's state. -/
  | dispShow (rq : Req)
  /-- DISP_STREAM_OPEN (R241). Command disp.stream.open defines contracts, opens paths and binds a stream. -/
  | dispStreamOpen (rq : Req)
  /-- DISP_STREAM_CLOSE (R264). Command disp.stream.close closes a stream's paths and contracts. -/
  | dispStreamClose (rq : Req)
  /-- DISP_STREAM_SHOW (R264). Command disp.stream.show returns a stream's state. -/
  | dispStreamShow (rq : Req)
  /-- DISP_HOLD_OVERLAY (R259). Command disp.hold.overlay sets or enables the hold overlay. -/
  | dispHoldOverlay (rq : Req)
  /-- DISP_HOLD_ENTER (R260). Command disp.hold.enter enters or exits hold. -/
  | dispHoldEnter (rq : Req)
  /-- DISP_PAIR_SET (R251). Command disp.pair.set names the AUX destination of a SINK end. -/
  | dispPairSet (rq : Req)
  /-- DISP_AUX_XFER (R264). Command disp.aux.xfer performs an AUX transaction on a SOURCE DPX. -/
  | dispAuxXfer (rq : Req)
  /-- DISP_CLEAR (R264). Command disp.clear zeroes stream counters. -/
  | dispClear (rq : Req)
  /-- CONFIG_REQUEST (R270). A configuration request to the virtual switch is answered from hardware registers. -/
  | configRequest (fn : Nat) (reg : CfgReg) (write : Option Nat) (rid tag : Nat)
  /-- TLP_INGRESS (R275). A TLP from a link partner is sent into its bridge's path under end-to-end credit. -/
  | tlpIngress (link : Nat) (t : Tlp) (errs replays cor : Nat)
  /-- PCIE_TLP_FRAME (R276). A TLP frame at egress is forwarded to the link in order. -/
  | pcieTlpFrame (pciEnd bridge : Nat) (t : Tlp)
  /-- PCIE_CREDIT_FRAME (R274). A CREDIT frame updates end-to-end credit limits. -/
  | pcieCreditFrame (pciEnd bridge : Nat) (limits : List Nat)
  /-- PCIE_PORT_STATE_FRAME (R272). A PORT_STATE frame updates the bridge's mirrored registers. -/
  | pciePortStateFrame (pciEnd bridge lnkCap lnkSta sltSta aerUnc aerCor : Nat)
  /-- PCIE_PORT_CTRL_FRAME (R270). A PORT_CTRL frame applies control register writes to the bound port. -/
  | pciePortCtrlFrame (dp bridge lnkCtl sltCtl devCtl brCtl routing : Nat)
  /-- PCIE_RESUME_FRAME (R281). A RESUME frame restarts credits and held TLPs, or leads to Surprise Down. -/
  | pcieResumeFrame (pciEnd bridge flag : Nat)
  /-- PCIE_HOLD_EXPIRY (R282). The quiet hold passes with the path suspended and the bridge takes Surprise Down. -/
  | pcieHoldExpiry (pciEnd : Nat)
  /-- HOT_RESET_END (R282). The 2 ms hot reset on a target link ends and the link retrains. -/
  | hotResetEnd (link : Nat)
  /-- PCIE_PHYS_LINK_TRAINED (R282). A physical link reaches L0; a Surprise-Down bridge sets Link Active again. -/
  | pciePhysLinkTrained (link rate width : Nat)
  /-- PCIE_PHYS_LINK_DOWN (R285). A physical link goes down and outstanding requests are handled by policy. -/
  | pciePhysLinkDown (link : Nat) (present : Bool)
  /-- UPSTREAM_PERST (R283). Upstream link down or PERST# clears tables and hot-resets every bound port. -/
  | upstreamPerst
  /-- CPL_AGE_CHECK (R279). A non-posted request older than CPL_AGE_MS raises an age alert. -/
  | cplAgeCheck (pciEnd : Nat)
  /-- PCIE_SHOW (R288). Command pcie.show returns a physical link's state. -/
  | pcieShow (rq : Req)
  /-- PCIE_PORT_BIND (R271). Command pcie.port.bind binds a bridge to a downstream port. -/
  | pciePortBind (rq : Req)
  /-- PCIE_PORT_UNBIND (R288). Command pcie.port.unbind unbinds a bridge through Surprise Down. -/
  | pciePortUnbind (rq : Req)
  /-- PCIE_BRIDGE_SHOW (R288). Command pcie.bridge.show returns a bridge's state. -/
  | pcieBridgeShow (rq : Req)
  /-- PCIE_SLOT_POWER (R285). Command pcie.slot.power switches a mapped bay. -/
  | pcieSlotPower (rq : Req)
  /-- PCIE_CLEAR (R288). Command pcie.clear zeroes PCIe counters. -/
  | pcieClear (rq : Req)
  /-- HOST_USB_TRANSACTION (R296). A host transaction is answered locally or from the endpoint stage, deferring and forwarding as needed. -/
  | hostUsbTransaction (tx : UsbTx)
  /-- USB_XFER_REQ (R297). An XFER_REQ makes the remote perform IN transactions on the device. -/
  | usbXferReq (f : UsbFrame) (periodic : Bool) (pkts : List (List Byte)) (outcome : Option Nat)
  /-- USB_XFER_DATA (R296). XFER_DATA carries packet data across to be staged or sent to the device. -/
  | usbXferData (root : Nat) (f : UsbFrame) (outcome : Option Nat)
  /-- USB_XFER_DONE (R296). XFER_DONE gives a forwarded transaction's outcome to the stage. -/
  | usbXferDone (root : Nat) (f : UsbFrame)
  /-- USB_PORT_CTRL_FRAME (R308). A PORT_CTRL frame makes the remote drive a port action such as reset. -/
  | usbPortCtrlFrame (f : UsbFrame)
  /-- REMOTE_PORT_RESET_END (R308). The remote's port reset ends and completes toward the host with C_PORT_RESET. -/
  | remotePortResetEnd (port speed : Nat)
  /-- USB_PORT_STATE_FRAME (R296). A PORT_STATE frame updates a remote port's state at the HOSTSIDE. -/
  | usbPortStateFrame (root : Nat) (f : UsbFrame)
  /-- USB_BUS_STATE_FRAME (R312). BUS_STATE makes a remote hub suspend, resume, run or treat the host as absent. -/
  | usbBusStateFrame (state : Nat)
  /-- USB_WAKE_FRAME (R313). WAKE at the HOSTSIDE signals wake upstream unless a host resume has begun. -/
  | usbWakeFrame (root port : Nat)
  /-- USB_ISO_DATA (R300). ISO_DATA carries isochronous data across after the periodic lag. -/
  | usbIsoData (root : Nat) (f : UsbFrame) (interval : Nat)
  /-- USB_PERIODIC_POLL (R300). The remote polls an interrupt or isochronous endpoint at its interval. -/
  | usbPeriodicPoll (port addr ep : Nat) (dirIn iso hidClass : Bool) (data : Option (List Byte))
  /-- DEVICE_REMOTE_WAKE (R313). A device's remote wake makes the remote hub resume its ports and send WAKE. -/
  | deviceRemoteWake (port : Nat)
  /-- REMOTE_RESUME_END (R312). A remote port ends resume at the later of 20 ms and RUN and resumes SOF. -/
  | remoteResumeEnd (port : Nat)
  /-- USB_UPSTREAM_LINK_CHANGE (R310). The upstream link goes down, resets, suspends or resumes and BUS_STATE is sent. -/
  | usbUpstreamLinkChange (ev speed : Nat)
  /-- DEVICE_FUNCTION_BUS_RESET (R309). A bus reset of the device functions returns buffers and discards content. -/
  | deviceFunctionBusReset
  /-- KEEPALIVE_IDLE_SUSPEND (R315). A non-HID port idle for KEEPALIVE_IDLE_SUSPEND_MS is selectively suspended. -/
  | keepaliveIdleSuspend (port : Nat)
  /-- KEEPALIVE_TIMEOUT (R318). KEEPALIVE_S without the host discards the buffer and resets every port. -/
  | keepaliveTimeout
  /-- USB_SHOW (R320). Command usb.show returns the USA state. -/
  | usbShow (rq : Req)
  /-- USB_PORT_SHOW (R320). Command usb.port.show returns a remote port's state. -/
  | usbPortShow (rq : Req)
  /-- USB_PORT_POWER (R303). Command usb.port.power switches a port's VBUS. -/
  | usbPortPower (rq : Req)
  /-- USB_KEEPALIVE_SHOW (R320). Command usb.keepalive.show returns keepalive state. -/
  | usbKeepaliveShow (rq : Req)
  /-- USB_CLEAR (R320). Command usb.clear zeroes USB counters. -/
  | usbClear (rq : Req)
  /-- MAC_FRAME_RECEIVE (R334). A frame received on a MAC is checked, classified and forwarded, proxied, woken on or dropped. -/
  | macFrameReceive (mac : Nat) (frame : List Byte)
  /-- MAC_LINK_CHANGE (R329). A MAC link going up or down sends LINK_STATE. -/
  | macLinkChange (mac : Nat) (up : Bool) (speed : Nat)
  /-- NET_TX_FETCH (R334). The network function fetches a host transmit frame when TC2 is ready and classifies it. -/
  | netTxFetch (queue descs : Nat) (frame : List Byte)
  /-- NET_TAIL_WRITE (R331). A driver write of TX_TAIL or RX_TAIL hands descriptors to the function. -/
  | netTailWrite (off value : Nat)
  /-- NET_ENABLE_WRITE (R340). A change of CTRL ENABLE or D3hot sends PRESENCE. -/
  | netEnableWrite (ctrl : Nat) (d3hot pmeEn : Bool)
  /-- NET_WRITE_BACK (R331). Changed TX_HEAD and RX_HEAD are written to the write-back area. -/
  | netWriteBack
  /-- NET_TUNNEL_FRAME (R327). A FRAME message at the other end is delivered to a MAC or host ring, with ECN marking. -/
  | netTunnelFrame (label mac group : Nat) (held ecn : Bool) (hash : Nat) (bufs : List NetDesc) (frame : List Byte)
  /-- PRESENCE (R340). A PRESENCE message reports the host present or absent. -/
  | presence (present : Bool) (mac : Nat) (addr : Nat)
  /-- WAKE (R343). A WAKE message at the FUNCTION end sets PME_Status and sends PM_PME. -/
  | wake (source : Nat)
  /-- LINK_STATE (R329). A LINK_STATE message updates LINK and SPEED at the FUNCTION end. -/
  | linkState (mac : Nat) (up : Bool) (speed maxFrame : Nat)
  /-- FLOW_AGE_SWEEP (R337). A bucket visit removes dynamic entries idle for FLOW_AGE_S. -/
  | flowAgeSweep (bucket : Nat)
  /-- WAKE_BUFFER_TIMEOUT (R344). NET_WAKE_BUFFER_MS without the host returning ends the pending wake and empties the buffer. -/
  | wakeBufferTimeout
  /-- NET_SHOW (R346). Command net.show returns MAC and binding state. -/
  | netShow (rq : Req)
  /-- NET_BIND (R325). Command net.bind binds or unbinds the FUNCTION end. -/
  | netBind (rq : Req)
  /-- NET_GROUP_SET (R326). Command net.group.set opens or closes a flow group. -/
  | netGroupSet (rq : Req)
  /-- NET_RULE_SET (R338). Command net.rule.set changes a rule and its generation. -/
  | netRuleSet (rq : Req)
  /-- NET_FLOW_SET (R336). Command net.flow.set installs or removes a static entry. -/
  | netFlowSet (rq : Req)
  /-- NET_FLOW_SHOW (R346). Command net.flow.show returns a flow entry. -/
  | netFlowShow (rq : Req)
  /-- NET_METER_SET (R339). Command net.meter.set sets a meter. -/
  | netMeterSet (rq : Req)
  /-- NET_PRESENCE_SET (R341). Command net.presence.set gives addresses, records and wake patterns. -/
  | netPresenceSet (rq : Req)
  /-- NET_PRESENCE_SHOW (R346). Command net.presence.show returns presence state. -/
  | netPresenceShow (rq : Req)
  /-- NET_CLEAR (R346). Command net.clear zeroes network counters. -/
  | netClear (rq : Req)
  /-- SB_XFER_FRAME (R351). An SB_XFER frame is forwarded or run on the destination bus. -/
  | sbXferFrame (port num : Nat) (route : SbRoute) (xfer : SbXfer)
  /-- SB_XFER_REP (R351). An SB_XFER_REP returns a transaction's result toward its origin. -/
  | sbXferRep (port num : Nat) (reply : List Byte)
  /-- SB_LOCK_FRAME (R354). An SB_LOCK request takes, waits for or wounds the holder of a bus semaphore. -/
  | sbLockFrame (port num : Nat) (route : SbRoute) (holder : SbHolder)
  /-- SB_LOCK_REP (R354). An SB_LOCK_REP returns a lock outcome and handle. -/
  | sbLockRep (port num outcome handle : Nat)
  /-- SB_UNLOCK_FRAME (R353). An SB_UNLOCK releases a lock at the destination. -/
  | sbUnlockFrame (port handle : Nat) (lapsed : Bool)
  /-- SB_WOUND (R354). SB_WOUND releases the wounded holder's locks and fails its waits. -/
  | sbWound (port : Nat) (holder : SbHolder)
  /-- SB_IRQ (R357). SB_IRQ on a generation-1 link sets or clears an interrupt line bit. -/
  | sbIrq (port line level : Nat)
  /-- I2C_TARGET_TRANSACTION (R352). A transaction on a target interface is sent as SB_XFER, held or not acknowledged. -/
  | i2cTargetTransaction (intf addr reads : Nat) (write : List Byte)
  /-- SB_HOLD_EXPIRY (R352). A held read exceeding SB_HOLD_US returns 0xFF bytes. -/
  | sbHoldExpiry (intf addr : Nat)
  /-- SB_ARBITRATION_LOST (R349). A lost arbitration is retried up to 3 times, then reported. -/
  | sbArbitrationLost (kind intf : Nat)
  /-- SB_SDA_STUCK (R349). SDA low for 35 ms sends 9 clocks and STOP and reports STUCK. -/
  | sbSdaStuck (kind intf : Nat)
  /-- SB_LOCK_LEASE_EXPIRY (R353). A lock lapses at the end of SB_LOCK_MS. -/
  | sbLockLeaseExpiry (handle : Nat)
  /-- SB_LOCK_WAIT_EXPIRY (R354). A waiting lock request fails WAIT_EXPIRED after SB_LOCK_WAIT_MS. -/
  | sbLockWaitExpiry (waiter : Nat)
  /-- SB_IRQ_SOURCE_EDGE (R355). An interrupt source edge sets a bit of the pending word. -/
  | sbIrqSourceEdge (source : Nat)
  /-- FAN_TACH_FAULT (R358). A tachometer below 10 % of expected speed for 2 s is a fan fault. -/
  | fanTachFault (fan pulses : Nat)
  /-- UART_RECEIVE (R355). Received UART data enters the FIFO and latches its interrupt bit. -/
  | uartReceive (idx : Nat) (bytes : List Byte)
  /-- SB_SHOW (R360). Command sb.show returns sideband state. -/
  | sbShow (rq : Req)
  /-- SB_ROUTE_SET (R350). Command sb.route.set writes a routing entry. -/
  | sbRouteSet (rq : Req)
  /-- SB_ROUTE_SHOW (R360). Command sb.route.show returns a routing entry. -/
  | sbRouteShow (rq : Req)
  /-- SB_XFER (R351). Command sb.xfer resolves a route and runs or sends a transaction. -/
  | sbXfer (rq : Req)
  /-- SB_LOCK (R353). Command sb.lock requests a bus semaphore. -/
  | sbLock (rq : Req)
  /-- SB_UNLOCK (R353). Command sb.unlock releases a lock. -/
  | sbUnlock (rq : Req)
  /-- SB_IRQ_READ (R356). Command sb.irq.read returns and clears the pending word. -/
  | sbIrqRead (rq : Req)
  /-- SB_IRQ_MASK (R355). Command sb.irq.mask sets the channel's IRQ mask. -/
  | sbIrqMask (rq : Req)
  /-- SB_FAN_SET (R358). Command sb.fan.set sets a fan's duty. -/
  | sbFanSet (rq : Req) (pulses : Nat)
  /-- MEMORY_ACCESS (R496). A master's access is checked by its ACU and performed, with ECC correction, or denied. -/
  | memoryAccess (master kind addr len : Nat) (data : List Byte) (debug : Bool) (waits ecc drains : Nat) (collides user : Bool)
  /-- FENCE (R499). A FENCE completes after the store buffer has drained. -/
  | fence (master : Nat)
  /-- LPDDR_PATROL_SCRUB (R371). The patrol scrub reads LPDDR and corrects or reports errors. -/
  | lpddrPatrolScrub (addr ecc : Nat)
  /-- DQS_DRIFT_CHECK (R369). Every 2 ms DQS drift is measured and one channel retrained. -/
  | dqsDriftCheck (channel : Nat)
  /-- LPDDR_REFRESH (R370). Per-bank refresh is issued at the rate the device requires. -/
  | lpddrRefresh (bank : Nat)
  /-- MEM_SHOW (R376). Command mem.show returns memory state and counters. -/
  | memShow (rq : Req)
  /-- MEM_MASTER_SHOW (R376). Command mem.master.show returns bank conflict counters. -/
  | memMasterShow (rq : Req)
  /-- MEM_MAP_SHOW (R376). Command mem.map.show returns the LPDDR address plan. -/
  | memMapShow (rq : Req)
  /-- MEM_CLEAR (R376). Command mem.clear zeroes memory counters. -/
  | memClear (rq : Req)
  /-- MEM_INJECT (R376). Command mem.inject arms faulty check bits on the next write of a word. -/
  | memInject (rq : Req)
  /-- SERVICE_SLICE (R379). A core's slice begins and Woeri runs instances in class order. -/
  | serviceSlice (core : Nat) (uses : List (Nat × Nat))
  /-- WOERI_YIELD (R390). An instance yields its quantum. -/
  | woeriYield (inst : Nat)
  /-- WOERI_WAIT (R388). An instance waits for an event or a timer. -/
  | woeriWait (inst : Nat) (timer : Option Nat) (events : Option (BitVec 192))
  /-- WOERI_HEARTBEAT (R398). An instance signals its heartbeat. -/
  | woeriHeartbeat (inst : Nat)
  /-- WOERI_DMA_COPY (R382). An instance asks the cluster DMA to copy within its capabilities. -/
  | woeriDmaCopy (inst srcArea srcOff dstArea dstOff len : Nat)
  /-- WOERI_FRAME_SEND (R390). An instance sends a frame on a permitted local or peer path. -/
  | woeriFrameSend (inst path : Nat) (frame : List Byte)
  /-- WOERI_FRAME_RECEIVE (R390). An instance receives a frame from its path. -/
  | woeriFrameReceive (inst path : Nat) (frame : List Byte)
  /-- GATE_SUBMIT (R391). An instance submits a mailbox request through the command gate. -/
  | gateSubmit (inst : Nat) (request : List Byte)
  /-- GATE_RESULT (R391). An instance reads the reply to its gate request. -/
  | gateResult (inst : Nat)
  /-- WOERI_WAKE_REQUEST (R390). An instance with WAKE raises a wake request. -/
  | woeriWakeRequest (inst reason : Nat)
  /-- WOERI_TIME_READ (R378). An instance reads the time. -/
  | woeriTimeRead (inst core : Nat)
  /-- INSTANCE_WATCHDOG (R398). An instance ready for SVC_WDT_MS without heartbeat or wait faults. -/
  | instanceWatchdog (inst : Nat)
  /-- INSTANCE_RESTART (R398). One tick after a fault Woeri restarts the instance, or stops it at the restart limit. -/
  | instanceRestart (inst : Nat)
  /-- CORE_HEARTBEAT_LOSS (R396). A core without Woeri heartbeat for 8 slice ticks is lost and its instances restarted elsewhere. -/
  | coreHeartbeatLoss (core : Nat)
  /-- DISPLAY_HOLD_OVERLAY_ON (R400). DISPLAY_HOLD copies and enables the overlay on hold entry, or disables it on exit. -/
  | displayHoldOverlayOn (dpx : Nat) (on : Bool) (src x y w h : Nat) (repl : Option (Nat × Nat × Nat × List Byte))
  /-- DH_STATUS_REDRAW (R400). Once per second DISPLAY_HOLD redraws the overlay status line. -/
  | dhStatusRedraw (dpx : Nat) (pixels : List Byte)
  /-- NET_PRESENCE_RULES (R401). NET_PRESENCE sets or removes rules 254 and 255 on absence or presence. -/
  | netPresenceRules (absent : Bool)
  /-- DHCP_RENEWAL (R401). At T1 NET_PRESENCE renews a proxied address lease, removing lost addresses. -/
  | dhcpRenewal (index : Nat) (renewal : List Byte) (v4lost v6lost : List Nat)
  /-- KEEPALIVE_HID_WAKE (R402). KEEPALIVE raises a wake request on HID input or overflow. -/
  | keepaliveHidWake (overflow : Bool)
  /-- FLEET_REPORT (R403). Every FLEET_PERIOD_S FLEET_AGENT reports, detecting loss and return of contact. -/
  | fleetReport (answered : Option Nat)
  /-- SVC_SHOW (R406). Command svc.show returns core and instance counts. -/
  | svcShow (rq : Req)
  /-- SVC_STAGE (R406). Command svc.stage stages package bytes. -/
  | svcStage (rq : Req)
  /-- SVC_INSTALL (R386). Command svc.install verifies and stores a staged package. -/
  | svcInstall (rq : Req)
  /-- SVC_REMOVE (R406). Command svc.remove removes a stopped package. -/
  | svcRemove (rq : Req)
  /-- SVC_START (R387). Command svc.start places and starts an instance. -/
  | svcStart (rq : Req)
  /-- SVC_STOP (R406). Command svc.stop stops an instance. -/
  | svcStop (rq : Req)
  /-- SVC_INSTANCE_SHOW (R406). Command svc.instance.show returns an instance's state. -/
  | svcInstanceShow (rq : Req)
  /-- SVC_CORE_DRAIN (R395). Command svc.core.drain migrates every instance off a core. -/
  | svcCoreDrain (rq : Req)
  /-- SVC_CORE_ADMIT (R395). Command svc.core.admit returns a core to placement. -/
  | svcCoreAdmit (rq : Req)
  /-- SVC_DATA_PUT (R406). Command svc.data.put writes into an instance's data region. -/
  | svcDataPut (rq : Req)
  /-- CC_ATTACH (R410). Debounced CC voltages declare attachment and VBUS is switched on as source. -/
  | ccAttach (chan a5 b5 heldMs : Nat) (vbus : Bool)
  /-- CC_DETACH (R410). Loss of Rd or VBUS declares detachment, VBUS off and the multiplexer QUIET. -/
  | ccDetach (chan heldMs : Nat) (vbusGone : Bool)
  /-- DRP_TOGGLE (R410). The DRP toggle switches between Rp and Rd each period, with Try waits. -/
  | drpToggle (chan : Nat) (trying : Bool)
  /-- PD_MESSAGE_RECEIVE (R413). A PD message is acknowledged and answered by the hub or queued for the local controller. -/
  | pdMessageReceive (chan : Nat) (m : PdMsg)
  /-- GOODCRC_TIMEOUT (R413). A message without GoodCRC after 1.0 ms is resent, and reported NO_GOODCRC after 2 resends. -/
  | goodcrcTimeout (chan : Nat)
  /-- QUEUED_RESPONSE_TIMEOUT (R413). A queued message needing a response gets Not_Supported after 10 ms. -/
  | queuedResponseTimeout (chan : Nat)
  /-- SINK_TX_EXPIRY (R414). After SINK_TX_MS at SinkTxNG the source starts its own AMS. -/
  | sinkTxExpiry (chan : Nat)
  /-- ASK_TIMEOUT (R416). No cpwr.answer within 10 ms applies AUTO or the default answer. -/
  | askTimeout (chan : Nat)
  /-- SRC_TRANSITION_EXPIRY (R416). SRC_TRANSITION_MS after an Accept the power path moves or switches off VBUS. -/
  | srcTransitionExpiry (chan : Nat)
  /-- SNK_REQUEST_WAIT_EXPIRY (R417). No cpwr.request within SNK_REQUEST_WAIT_MS requests position 1 by default. -/
  | snkRequestWaitExpiry (chan : Nat)
  /-- PD_TRANSITION_TIMEOUT (R417). A missing PS_RDY within PS_TRANSITION, PS_SOURCE_OFF or PS_SOURCE_ON sends Hard Reset. -/
  | pdTransitionTimeout (chan which : Nat)
  /-- HARD_RESET_RECEIVED (R418). A hard reset ends modes, resets roles and cycles VBUS, or enters ErrorRecovery mid-swap. -/
  | hardResetReceived (chan : Nat)
  /-- SRC_RECOVER_EXPIRY (R418). SRC_RECOVER_MS after vSafe0V the source restores vSafe5V. -/
  | srcRecoverExpiry (chan : Nat)
  /-- EPR_KEEPALIVE_TIMER (R419). In EPR mode a sink sends EPR_KeepAlive every EPR_KEEPALIVE_MS. -/
  | eprKeepaliveTimer (chan : Nat)
  /-- EPR_KEEPALIVE_TIMEOUT (R419). A source without EPR_KeepAlive for 875 ms sends Hard Reset. -/
  | eprKeepaliveTimeout (chan : Nat)
  /-- ERROR_RECOVERY_END (R424). ErrorRecovery ends after ERROR_RECOVERY_MS with the configured role, unattached. -/
  | errorRecoveryEnd (chan : Nat)
  /-- VCONN_OVERCURRENT (R425). VCONN above its limit for 1 ms is switched off. -/
  | vconnOvercurrent (chan : Nat)
  /-- ENTER_MODE_RETRY (R427). After BUSY the DFP sends Enter Mode again every 50 ms, giving up after 2 s. -/
  | enterModeRetry (chan : Nat)
  /-- CPWR_SHOW (R433). Command cpwr.show returns a channel's state. -/
  | cpwrShow (rq : Req)
  /-- CPWR_CAPS_SET (R415). Command cpwr.caps.set loads source or sink capabilities. -/
  | cpwrCapsSet (rq : Req)
  /-- CPWR_REQUEST (R417). Command cpwr.request sends a Request as sink. -/
  | cpwrRequest (rq : Req)
  /-- CPWR_ANSWER (R416). Command cpwr.answer answers an asked Request or swap. -/
  | cpwrAnswer (rq : Req)
  /-- CPWR_SWAP (R423). Command cpwr.swap starts a PR, DR or VCONN swap. -/
  | cpwrSwap (rq : Req)
  /-- CPWR_HARDRESET (R418). Command cpwr.hardreset signals Hard Reset or Cable Reset. -/
  | cpwrHardreset (rq : Req)
  /-- CPWR_MODE_ENTER (R427). Command cpwr.mode.enter enters, arms or exits a mode. -/
  | cpwrModeEnter (rq : Req)
  /-- CPWR_MUX_SET (R428). Command cpwr.mux.set sets the multiplexer position and ends QUIET. -/
  | cpwrMuxSet (rq : Req)
  /-- CPWR_DISCOVER_SHOW (R433). Command cpwr.discover.show returns discovery results. -/
  | cpwrDiscoverShow (rq : Req)
  /-- CPWR_MSG_SEND (R413). Command cpwr.msg.send sends a PD message. -/
  | cpwrMsgSend (rq : Req)
  /-- CPWR_MSG_RECV (R433). Command cpwr.msg.recv takes a message from the receive queue. -/
  | cpwrMsgRecv (rq : Req)
  /-- FEED_PRESENT (R437). A feed above threshold for 10 ms becomes present. -/
  | feedPresent (feed mv ma heldMs : Nat)
  /-- FEED_ABSENT (R437). A feed below threshold for 10 µs or with reverse current becomes absent and its ORing opens. -/
  | feedAbsent (feed mv heldUs : Nat) (reverse : Bool)
  /-- FEED_SHARE_UPDATE (R438). Every 10 µs the ORing gates are driven to share current. -/
  | feedShareUpdate (mv0 ma0 mv1 ma1 : Nat)
  /-- FEED_OVERLOAD (R440). A feed above 1.1 × its limit for FEED_OC_MS sheds the next output. -/
  | feedOverload (feed ma heldMs : Nat)
  /-- VBUS_SETTLED (R442). VBUS settles at its target and PS_RDY is sent. -/
  | vbusSettled (switch mv ma heldMs : Nat)
  /-- VBUS_SWITCH_FAULT (R443). A VBUS switch at its limit for VBUS_FAULT_MS or tripping opens. -/
  | vbusSwitchFault (switch heldMs : Nat) (trip : Bool)
  /-- VBUS_RETRY_EXPIRY (R443). The VBUS retry timer expires and a pending switch-on takes effect. -/
  | vbusRetryExpiry (switch : Nat)
  /-- BAY_SHORT_PIN_CLOSE (R444). A bay's short pin closes and the channel enters SEATING. -/
  | bayShortPinClose (bay : Nat)
  /-- BAY_SHORT_PIN_OPEN (R444). A bay's short pin opens, the gate is pulled down and the channel goes UNSEATED. -/
  | bayShortPinOpen (bay : Nat)
  /-- BAY_SEAT_DEBOUNCE (R451). The short pin closed for SEAT_DEBOUNCE_MS makes the channel OFF, restoring retries after a real removal. -/
  | baySeatDebounce (bay : Nat)
  /-- BAY_CURRENT_LIMIT (R444). Bay current reaching its limit enters LIMIT, and falling below returns. -/
  | bayCurrentLimit (bay : Nat) (reached : Bool) (samples mv ma : Nat)
  /-- BAY_FAULT_TIMER (R446). The fault count reaching BAYn_FAULT_MS faults the channel with cause TIMER. -/
  | bayFaultTimer (bay samples : Nat)
  /-- BAY_BREAKER (R447). Current above twice the limit faults the channel at once with cause BREAKER. -/
  | bayBreaker (bay ma : Nat)
  /-- BAY_RAMP_TIMEOUT (R444). A ramp not complete by its time-out faults the channel. -/
  | bayRampTimeout (bay vin : Nat)
  /-- BAY_PG_RISE (R448). PG rises after PG_DEBOUNCE_US of samples meeting its condition. -/
  | bayPgRise (bay vin mv ma heldUs : Nat) (enhanced : Bool)
  /-- BAY_PG_FALL (R448). The output dropping below PG_PCT drops PG and asserts PERST#. -/
  | bayPgFall (bay vin mv : Nat)
  /-- BAY_RETRY_EXPIRY (R450). The bay retry timer expires and the channel ramps again or enters LOCKOUT. -/
  | bayRetryExpiry (bay : Nat)
  /-- BAY_RETRIES_RESTORE (R450). PG held for 1 s restores the bay's retries. -/
  | bayRetriesRestore (bay : Nat)
  /-- BAY_PERST_RELEASE (R452). PERST# of a mapped port is released 100 ms after PG rises. -/
  | bayPerstRelease (bay : Nat)
  /-- FET_TEMP_UPDATE (R453). Every 1 ms the FET temperature is read or modelled and compared with its limits. -/
  | fetTempUpdate (bay : Nat) (diode tref : Int) (vin mv ma : Nat)
  /-- PPATH_SHOW (R455). Command ppath.show returns feed and budget state. -/
  | ppathShow (rq : Req)
  /-- PPATH_BAY_SHOW (R455). Command ppath.bay.show returns a bay's state. -/
  | ppathBayShow (rq : Req)
  /-- PPATH_BAY_POWER (R445). Command ppath.bay.power sets ON, OFF, INHIBIT or RELEASE. -/
  | ppathBayPower (rq : Req)
  /-- PPATH_VBUS_SHOW (R455). Command ppath.vbus.show returns a VBUS switch's state. -/
  | ppathVbusShow (rq : Req)
  /-- PPATH_CLEAR (R455). Command ppath.clear zeroes power path counters. -/
  | ppathClear (rq : Req)
  /-- PSTATE_SET (R461). Command pstate.set sets the target state and accepts or refuses RETAIN or HIBERNATE. -/
  | pstateSet (rq : Req)
  /-- PSTATE_SHOW (R477). Command pstate.show returns power state. -/
  | pstateShow (rq : Req)
  /-- IDLE_ENTRY (R462). IDLE_ENTRY_TICKS consecutive qualifying ticks enter IDLE. -/
  | idleEntry
  /-- PHASE_S_START (R465). The firmware writes RESUME and halts and the register lists are saved. -/
  | phaseSStart
  /-- PHASE_P_START (R465). The first domain switch opens and domains are powered down in save order. -/
  | phasePStart
  /-- ENTRY_TIMEOUT (R466). Phase Q not complete within ENTRY_TIMEOUT_MS aborts the entry. -/
  | entryTimeout
  /-- WAKE_SOURCE (R475). An enabled wake source aborts an entry or starts the exit from RETAIN or HIBERNATE. -/
  | wakeSource (source cycles : Nat) (latched : Bool) (bad : List Nat)
  /-- RETAIN_EXIT_COMPLETE (R470). At the tick boundary after restore STATE becomes ACTIVE and firmware replies resume. -/
  | retainExitComplete
  /-- TRUST_SHOW (R506). Command trust.show returns life cycle, counter and slot states. -/
  | trustShow (rq : Req)
  /-- TRUST_KEY_SHOW (R506). Command trust.key.show returns a slot. -/
  | trustKeyShow (rq : Req)
  /-- TRUST_KEY_INSTALL (R485). Command trust.key.install blows a key into an EMPTY slot. -/
  | trustKeyInstall (rq : Req)
  /-- TRUST_KEY_REVOKE (R486). Command trust.key.revoke destroys a slot. -/
  | trustKeyRevoke (rq : Req)
  /-- TRUST_LIFECYCLE_ADVANCE (R481). Command trust.lifecycle.advance blows life-cycle fuses, destroys slots and schedules a reset. -/
  | trustLifecycleAdvance (rq : Req)
  /-- TRUST_ROLLBACK_ADVANCE (R490). Command trust.rollback.advance blows anti-rollback fuses to a target. -/
  | trustRollbackAdvance (rq : Req)
  /-- TRUST_ID_SHOW (R506). Command trust.id.show returns device and link identity. -/
  | trustIdShow (rq : Req)
  /-- TRUST_ACU_SHOW (R506). Command trust.acu.show returns an ACU's regions. -/
  | trustAcuShow (rq : Req)
  /-- TRUST_ACU_SET (R501). Command trust.acu.set changes one region through shadow, flush, swap and drain. -/
  | trustAcuSet (rq : Req)
  /-- TRUST_ACU_LOG_SHOW (R506). Command trust.acu.log.show returns the denial log. -/
  | trustAcuLogShow (rq : Req)
  /-- UPD_SHOW (R532). Command upd.show returns image copies and directory state. -/
  | updShow (rq : Req)
  /-- UPD_STAGE (R515). Command upd.stage writes image bytes into an unused copy. -/
  | updStage (rq : Req)
  /-- UPD_VERIFY (R516). Command upd.verify checks a staged copy's signatures, SVN, epochs and tested pairs. -/
  | updVerify (rq : Req)
  /-- UPD_ACTIVATE (R517). Command upd.activate starts running a verified copy on an instance. -/
  | updActivate (rq : Req)
  /-- ACTIVATION_QUIET (R517). The instance becomes quiet and the activation proceeds as its engine gives. -/
  | activationQuiet
  /-- ACTIVATION_WAIT_EXPIRY (R517). No quiet within UPD_WAIT_MS completes the activation BUSY. -/
  | activationWaitExpiry
  /-- MGT_HANDOVER_READY (R518). The new management firmware adopts the handover record and posts READY. -/
  | mgtHandoverReady
  /-- HANDOVER_TIMEOUT (R519). No READY within HANDOVER_LIMIT_TICKS resets the core into the old half. -/
  | handoverTimeout
  /-- UPD_REVERT (R522). Command upd.revert activates the directory's ACTIVE copy. -/
  | updRevert (rq : Req)
  /-- UPD_COMMIT (R523). Command upd.commit journals and writes a new boot directory. -/
  | updCommit (rq : Req)
  /-- UPD_KEYMAN_PUT (R524). Command upd.keyman.put writes a key manifest entry. -/
  | updKeymanPut (rq : Req)
  /-- AUTOCOMMIT (R522). After UPD_AUTOCOMMIT_S of clean running the hub commits by itself. -/
  | autocommit
  /-- CHECKPOINT (R526). Every CHECKPOINT_MS the recorder takes a snapshot and writes a CHECKPOINT spore. -/
  | checkpoint
  /-- SPORE_BUFFER_ROOM (R527). Room returning after dropped spores writes a GAP spore. -/
  | sporeBufferRoom
  /-- REC_POST_TRIGGER_EXPIRY (R528). REC_POST_TICKS after a trigger the ring freezes and a MARK is written. -/
  | recPostTriggerExpiry
  /-- REPLAY_FINISH (R530). An on-chip replay completes with its first divergence or none. -/
  | replayFinish (diverged : Bool) (slot tick : Nat)
  /-- REC_SHOW (R532). Command rec.show returns recorder state. -/
  | recShow (rq : Req)
  /-- REC_FREEZE (R528). Command rec.freeze freezes or releases the ring. -/
  | recFreeze (rq : Req)
  /-- REC_READ (R532). Command rec.read returns spores or snapshot bytes. -/
  | recRead (rq : Req)
  /-- REC_REPLAY (R530). Command rec.replay starts an on-chip replay from a snapshot. -/
  | recReplay (rq : Req)
  /-- DBG_SHOW (R557). Command dbg.show returns debug permission and error state. -/
  | dbgShow (rq : Req)
  /-- DBG_MEM_READ (R557). Command dbg.mem.read reads memory as M14 with the debug flag. -/
  | dbgMemRead (rq : Req)
  /-- DBG_MEM_WRITE (R557). Command dbg.mem.write writes memory as M14 with the debug flag. -/
  | dbgMemWrite (rq : Req)
  /-- JTAG_IDCODE (R578). JTAG instruction IDCODE selects the identification register. -/
  | jtagIdcode
  /-- JTAG_EXTEST (R578). JTAG instruction EXTEST drives the boundary-scan cells. -/
  | jtagExtest (sampled update : List Bool)
  /-- JTAG_SAMPLE_PRELOAD (R578). JTAG instruction SAMPLE/PRELOAD samples or loads boundary-scan cells. -/
  | jtagSamplePreload (sampled preload : List Bool)
  /-- JTAG_DBG_AP (R503). JTAG instruction DBG_AP performs debug accesses as M14 or halts a core where permitted. -/
  | jtagDbgAp (op addr len : Nat) (data : List Byte) (core : Nat)
  /-- JTAG_BYPASS (R578). JTAG instruction BYPASS selects the bypass register. -/
  | jtagBypass
  /-- PME_TO_ACK_TIMEOUT (R268). 10 ms after a PME_Turn_Off broadcast the hub returns one PME_TO_Ack even if not every bound bridge has answered. -/
  | pmeToAckTimeout
  /-- IN_BAND_PRESENCE_CHANGE (R284). The in-band presence of an unmapped downstream PCI Express port changes and the bound bridge's Presence Detect State follows within 2 ticks. -/
  | inBandPresenceChange (port : Nat) (present : Bool)
  /-- BUS_TRANSACTION_COMPLETE (R351). An I2C, I3C, SPI or UART transaction run by the SBB on a destination bus finishes, and its result goes back as SB_XFER_REP or a failed posted write raises SB_BUS_ERROR. -/
  | busTransactionComplete (kind intf result : Nat) (data : List Byte)
  /-- PANEL_AUX_REPLY (R251). A panel answers an AUX transaction that a SOURCE end made, letting the SOURCE end send AUX_REP, advance link training or complete disp.aux.xfer. -/
  | panelAuxReply (dpx reply : Nat) (rdata : List Byte)
  /-- SELF_REFRESH_EXIT_CHECK_DONE (R369). The LPDDR self-refresh exit and DQS check after RETAIN ends, so LPDDR is ready or full training starts, and Woeri resumes its instances. -/
  | selfRefreshExitCheckDone (ok : Bool)
  /-- SENDER_RESPONSE_TIMEOUT (R432). tSenderResponse or tVDMSenderResponse of 27 ms expires without the partner's response to a PD request or structured VDM. -/
  | senderResponseTimeout (chan : Nat)
  /-- CLUSTER_DMA_COMPLETE (R393). A cluster DMA copy ends, completing a migration's scratch copy so the instance resumes on its new core and SVC_MIGRATED is raised, or completing an instance's DMA call. -/
  | clusterDmaComplete (inst : Nat)
  deriving DecidableEq, Repr

end Sys2Proof
end

