-- ==== Sys2Proof/Machine/State.lean ====
section
/-! DEFINITION. The state of the hub as plain data: every register, queue, buffer, counter, mode and pin that the spec
names, unit by unit, the queue of waiting commands, and the state right after reset. -/

namespace Sys2Proof.Machine

/-- Why the block stops. No command of the table ends in a fault: the spec gives every one of them an effect. -/
inductive Fault where
  /-- Raised by nothing: the type must not be empty for a reader to see that no meaning faults. Safe. -/
  | none
  deriving DecidableEq, Repr

/-- Why a command has no meaning. -/
inductive Refusal where
  /-- Raised by an arm of `exec` whose command has no meaning yet. Safe. -/
  | notModelled (mnemonic : String)
  deriving DecidableEq, Repr

/-! ### Timebase (spec/02) -/

/-- Alignment of a cable port (Table 2.4, and ALIGN of Table 22.4). -/
inductive Align where
  | locked | drift | lost | notUp
  deriving DecidableEq, Repr

/-- What the hub keeps per cable port for alignment (R37, Table 22.4). -/
structure AlignSt where
  /-- LOCKED, DRIFT, LOST, or not an UP port. -/
  align    : Align
  /-- Consecutive in-limit measurements. -/
  relock   : Nat
  /-- Last measured offset in 1/64 ns. -/
  offset   : Int
  /-- The offset measured for the next slot 0 (R170). -/
  meas     : Option Int
  /-- A step of phase and counter is due at the next own tick boundary (Table 2.4, LOST). -/
  stepDue  : Bool
  /-- Ticks since the last time-sync cell. -/
  sinceSync : Nat
  deriving DecidableEq, Repr

def AlignSt.init : AlignSt := ⟨.notUp, 0, 0, none, false, 0⟩

/-- The timebase (R27 to R43). -/
structure TimeSt where
  tick      : Tick
  /-- Slot 0 to 249. -/
  slot      : Nat
  /-- 0 free-running on REFCLK, 1 following CP0, 2 following CP1. -/
  reference : Nat
  /-- 0 none, 1 in holdover, 2 holdover expired. -/
  holdover  : Nat
  hoTicks   : Nat
  /-- Rate steering in 2^-32 of nominal. -/
  steer     : Int
  refLosses : Nat
  /-- Cable ports 0 and 1. -/
  ports     : List AlignSt
  /-- The tick master's count received on the UP port, taken at the step (R43). -/
  masterTick : Tick
  /-- A SYNC has come since the election, so that `masterTick` is this master's. -/
  masterKnown : Bool
  deriving DecidableEq, Repr

def TimeSt.init : TimeSt := ⟨0, 0, 0, 0, 0, 0, 0, [.init, .init], 0, false⟩

/-! ### Roles and topology (spec/01) -/

/-- Device role (Table 0.1); `none` reads 0b11 until applied (R53, R93). -/
inductive Role where
  | hostside | dockside | relay | none
  deriving DecidableEq, Repr

/-- Port role as `sys.topo.show` gives it (Table 22.3). -/
inductive PortRole where
  | up | down | none
  /-- Bring-up ended under R16 or R17. -/
  | ended
  /-- Bring-up ended at rate T for another reason (R19, R177). -/
  | held
  deriving DecidableEq, Repr

/-- Adapter ends in effect (R13, R14) and per-port roles (R15 to R19). -/
structure TopoSt where
  role      : Role
  /-- 0 for HOSTSIDE, 15 while no UP link. -/
  depth     : Nat
  portRole  : List PortRole
  /-- Port held at rate T under R19. -/
  heldT     : List Bool
  /-- Ends in effect: DPA0 to DPA3, PCIE, USB, NET (0 OFF). -/
  ends      : List Nat
  /-- Ends deferred under R14, in the same order. -/
  deferred  : List (Option Nat)
  deriving DecidableEq, Repr

def TopoSt.init : TopoSt :=
  ⟨.none, 15, [.none, .none], [false, false], [0, 0, 0, 0, 0, 0, 0], [none, none, none, none, none, none, none]⟩

/-! ### Mailboxes (spec/03) -/

/-- An event entry (Table 3.13). -/
structure EventEntry where
  num  : Nat
  bit  : Nat
  tick : Tick
  slot : Nat
  arg  : Word
  deriving DecidableEq, Repr

/-- A reply (Table 3.4). -/
structure Reply where
  status : Word
  tag    : Half
  result : Nat
  handle : Nat
  data   : List Byte
  deriving DecidableEq, Repr

/-- A request message as it was sent: its opcode, the rest of it, and its LENGTH field. -/
structure Msg where
  opcode : Nat
  rq     : Req
  len    : Nat
  deriving DecidableEq, Repr

/-- A request that is complete and not yet answered by the firmware (R49): the instant of its last byte, and the completion handle with
which the backstop has already answered it (R65). -/
structure Wait where
  msg  : Msg
  tick : Tick
  slot : Nat
  late : Option Nat
  deriving DecidableEq, Repr

/-- An open credential handle (R58, R59). -/
structure Cred where
  handle : Nat
  level  : Nat
  /-- Instance, for the gate's channel; the cable port, for PEER. -/
  owner  : Nat
  /-- When it was opened (R59). -/
  opened : Tick
  deriving DecidableEq, Repr

/-- A completion handle (R67, R68): its result once the command has finished, and the result that the command's own
rules have already settled (`plan`), which the completion reports. -/
structure Job where
  handle : Nat
  via    : Via
  opcode : Nat
  result : Option (Nat × List Byte)
  plan   : Option (Nat × List Byte)
  /-- When its result was made available, or until then when the handle was given (R68). -/
  since  : Tick
  deriving DecidableEq, Repr

/-- A nonce issued by `sys.cred.challenge` (R58). -/
structure Nonce where
  bytes : List Byte
  owner : Nat
  tick  : Tick
  deriving DecidableEq, Repr

/-- One clamp report entry (Table 4.7). -/
structure RepEntry where
  ty      : Nat
  field   : Nat
  given   : Nat
  applied : Nat
  reason  : Nat
  layer   : Nat
  index   : Nat
  deriving DecidableEq, Repr

/-- One mailbox channel (R47). -/
structure ChanSt where
  queue    : List EventEntry
  lost     : Nat
  attn     : Bool
  mask     : BitVec 192
  seq      : BitVec 8
  /-- The previous request (R52) and its stored reply. -/
  last     : Option Msg
  stored   : Option Reply
  creds    : List Cred
  /-- The last use of a credential handle (R59). -/
  credUse  : List (Nat × Tick)
  nextCred : Nat
  jobs     : List Job
  nextJob  : Nat
  nonces   : List Nonce
  staged   : List Byte
  report   : List RepEntry
  repOver  : Nat
  deriving DecidableEq, Repr

/-- A channel as a system reset leaves it (Table 21.2): all masks ones but DEBUG's (R81). -/
def ChanSt.init (mask : BitVec 192) : ChanSt :=
  ⟨[], 0, false, mask, 0, none, none, [], [], 1, [], 1, [], [], [], 0⟩

/-- Whose reply a forwarded request waits for (R69, R70). -/
inductive FwdOrigin where
  /-- This hub's own completion handle. -/
  | own (chan : Chan) (handle : Nat)
  /-- A request passed on for the hub above, on that cable port. -/
  | relay (upPort : Nat)
  /-- A `plan.contract.set` that an adapter's binding sends ahead of its path: 0 a display stream, 1 a PCI Express bridge, 2 a USB
  hub, 3 a flow group; and which. -/
  | contract (kind which : Nat)
  /-- A `plan.contract.clear` that an adapter sends: its reply changes nothing here. -/
  | clear
  deriving DecidableEq, Repr

/-- A request forwarded on PEER and not yet answered. -/
structure Fwd where
  origin : FwdOrigin
  port   : Nat
  msg    : Msg
  /-- Sent, or held because four are outstanding toward the peer (Table 3.1). -/
  sent   : Bool
  /-- When it was sent, or until then when it was held (R71). -/
  since  : Tick
  deriving DecidableEq, Repr

/-- The mailbox hardware and the transports (R47 to R80). -/
structure MbxSt where
  loc  : ChanSt
  tun  : ChanSt
  peer : ChanSt
  dbg  : ChanSt
  gate : ChanSt
  /-- Requests complete and not yet executed, in the order in which they execute (R48, R49): the first is the one in execution. -/
  waiting  : List Wait
  forwards : List Fwd
  unatt    : Bool
  /-- Ticks since the last counted LOCAL request (R60, R61). -/
  sinceAttn : Nat
  /-- LOCAL's window arm (R80). -/
  arm      : Bool
  /-- Held reply of the SPI or I3C transport and whether a rejection answers L = 0xFFFF (R73, R74). -/
  spiHeld  : Option Reply
  spiReject : Bool
  /-- What I3C private reads return: none read-reply, else a window read of OFFSET and COUNT (R75). -/
  i3cSel   : Option (Nat × Nat)
  /-- Function 7 BAR 0 (Table 3.10). -/
  bar0Req  : List Byte
  bar0Busy : Bool
  bar0Reply : Option Reply
  /-- Reply waiting on the USB bulk IN endpoint (R78). -/
  usbReply : Option Reply
  /-- Buffers of the device functions that answered NRDY and owe an ERDY (R306), and requests whose replies a bus reset has discarded
  beforehand (R309). -/
  usbWait  : List Nat
  usbMute  : Nat
  /-- Reply waiting on DBG_MBX, and its rejection indication. -/
  dbgHeld  : Option Reply
  dbgReject : Bool
  /-- TICK_HI latched by the last read of TICK_LO (Table 3.11). -/
  tickHi   : BitVec 16
  /-- The first counted LOCAL request since the last reset has arrived (R431). -/
  firstLocal : Bool
  deriving DecidableEq, Repr

def MbxSt.init : MbxSt where
  loc := .init (BitVec.allOnes 192)
  tun := .init (BitVec.allOnes 192)
  peer := .init (BitVec.allOnes 192)
  dbg := .init 0
  gate := .init 0
  waiting := []
  forwards := []
  unatt := false
  sinceAttn := 0
  arm := false
  spiHeld := none
  spiReject := false
  i3cSel := none
  bar0Req := []
  bar0Busy := false
  bar0Reply := none
  usbReply := none
  usbWait := []
  usbMute := 0
  dbgHeld := none
  dbgReject := false
  tickHi := 0
  firstLocal := false

/-! ### Configuration (spec/04) -/

/-- A field held by an override layer (Table 4.5): 0 LOCAL, 1 TUNNEL, 2 PEER, with the port of R91 for PEER. -/
structure OverVal where
  layer : Nat
  ty    : Nat
  id    : Nat
  val   : Nat
  port  : Nat
  deriving DecidableEq, Repr

/-- A value of one field. -/
structure FldVal where
  ty  : Nat
  id  : Nat
  val : Nat
  deriving DecidableEq, Repr

/-- A record of the STORE layer (R92): as received, and the values it holds after the checks. -/
structure StoreRec where
  ty    : Nat
  bytes : List Byte
  vals  : List FldVal
  deriving DecidableEq, Repr

/-- `cfg.store.commit` in progress (R94). -/
structure StoreCommit where
  via    : Via
  handle : Nat
  /-- The copy written: 0 CFG_A, 1 CFG_B. -/
  copy   : Nat
  gen    : Nat
  set    : List Byte
  deriving DecidableEq, Repr

structure CfgSt where
  ovr    : List OverVal
  store  : List StoreRec
  /-- Values in force of the fields whose changes wait for a tick boundary or a reset; a field not listed is at its
  default. -/
  force  : List FldVal
  commit : Option StoreCommit
  /-- DEVICE_ROLE as the STORE layer gave it when the role was last applied (R12). -/
  roleApplied : Nat
  deriving DecidableEq, Repr

def CfgSt.init : CfgSt := ⟨[], [], [], none, 1⟩

/-! ### Boot, faults and resets (spec/21), pins (spec/23) -/

/-- Boot progress as the hardware window shows it (Table 3.11, Table 21.6). -/
structure BootSt where
  /-- 0 Fiddlehead, 1 image loading, 2 management firmware running, 3 handover, 4 halted. -/
  stage : Nat
  error : Nat
  /-- Ticks since the firmware last wrote its watchdog register (R540). -/
  sinceWdt : Nat
  /-- Firmware stopped by a MANAGEMENT_CORE reset that is not yet over. -/
  mgtReset : Bool
  deriving DecidableEq, Repr

def BootSt.init : BootSt := ⟨0, 0, 0, false⟩

/-- One LOG entry (Table 21.4). -/
structure FaultEntry where
  code   : Nat
  action : Nat
  tick   : Tick
  slot   : Nat
  arg    : Nat
  /-- The unit of its kind that failed (the cable port of a PHY sequencer), which the argument names in a form that the spec does not give
  (log entry 42). -/
  unit   : Nat
  deriving DecidableEq, Repr

/-- The fault record (Table 21.4) and the units that faults have taken out (Table 21.9). -/
structure FaultSt where
  resetKind  : Nat
  resetCause : Nat
  resetTick  : Tick
  floor      : Nat
  counts     : List Nat
  log        : List FaultEntry
  /-- Reset asked for by `sys.reset` or a life-cycle change and not yet performed: kind, cause and when it is due (R551, R482). -/
  deferred   : Option (Nat × Nat × Tick)
  romMode    : Bool
  phyStopped : List Bool
  /-- Thermal shutdown in force (R543); consecutive ticks in which a sensor read above the limit of a trip, and in which every one read
  below that of the recovery (R540, R543). -/
  thermal    : Bool
  hotFor     : Nat
  coolFor    : Nat
  /-- A PLAN_HOLD latched while a reset or a handover was in progress (R540). -/
  planHold   : Bool
  /-- System-reset faults not yet reported as SYS_FAULT (R545): code and action. -/
  unreported : List (Nat × Nat)
  deriving DecidableEq, Repr

def FaultSt.init : FaultSt :=
  ⟨0, 0x30, 0, 0, List.replicate 64 0, [], none, false, [false, false], false, 0, 0, false, []⟩

/-- Rails, straps and the power-up sequence (R566 to R573), and the JTAG port (R578). -/
structure PinSt where
  coreEn   : Bool
  anaEn    : Bool
  memEn    : Bool
  coreVid  : Nat
  /-- REFCLK_REQ_N: true is high, REFCLK not requested. -/
  refReqN  : Bool
  mbxSel   : Bool
  i3cAddr  : Nat
  /-- 0 held in reset, 1 powering up, 2 Fiddlehead started, 3 rails off for 10 ms, 4 gave up. -/
  phase    : Nat
  attempts : Nat
  /-- The JTAG instruction register, the boundary-scan update cells and the port's sticky error bit (R503). -/
  ir       : BitVec 8
  bscan    : List Bool
  extest   : Bool
  sticky   : Bool
  /-- Service cores halted in debug mode, bit k for core k (R503). -/
  halted   : BitVec 8
  mgtHalted : Bool
  deriving DecidableEq, Repr

/-- The pins at the instant Fiddlehead starts (Table 23.5, T + 2.2 ms): every rail enabled, CORE_VID at code 50, REFCLK
requested. -/
def PinSt.init : PinSt :=
  ⟨true, true, true, 50, false, false, 0, 2, 0, 0x01, [], false, false, 0, false⟩

/-! ### Recorder (spec/20) -/

/-- A spore (Table 20.9) without its CHECK, which is computed when it is read. -/
structure Spore where
  seq     : Word
  tick    : Tick
  slot    : Nat
  kind    : Nat
  src     : Nat
  flags   : Nat
  payload : List Byte
  deriving DecidableEq, Repr

/-- A snapshot slot (R526): the tick it was taken at, the number of its CHECKPOINT spore, and the bytes of MB0 to MB7 and of the
planner tables as they stood. -/
structure Snapshot where
  tick  : Tick
  seq   : Word
  cells : List Host.Cell
  deriving DecidableEq, Repr

structure RecSt where
  /-- 0 off, 1 recording, 2 post-trigger, 3 frozen (Table 20.13). -/
  mode     : Nat
  trigger  : Nat
  /-- Newest first. -/
  ring     : List Spore
  buffer   : List Spore
  nextSeq  : Word
  dropped  : Nat
  gaps     : Nat
  gapTick  : Option Tick
  snaps    : List (Option Snapshot)
  nextSnap : Nat
  /-- When the next snapshot is due, none before the first; a READY of R518 asks for one at the next tick boundary (R526). -/
  nextCp   : Option Tick
  snapDue  : Bool
  /-- The tick of the trigger of R528. -/
  trigAt   : Tick
  moreTriggers : Nat
  /-- An on-chip replay in progress: channel, handle, snapshot slot, ticks. -/
  replay   : Option (Via × Nat × Nat × Nat)
  /-- Bytes that `rec.read` has left for EP2 IN. -/
  ep2      : List Byte
  deriving DecidableEq, Repr

def RecSt.init : RecSt :=
  ⟨1, 0, [], [], 0, 0, 0, none, List.replicate 8 none, 0, none, false, 0, 0, none, []⟩

/-! ### Trust and protection (spec/19) -/

/-- One OTP key slot: 256 content fuses and the integrity word (R483, R484). A 1 is a blown fuse. -/
structure SlotSt where
  content : BitVec 256
  word    : Word
  deriving DecidableEq, Repr

def SlotSt.init : SlotSt := ⟨0, 0⟩

/-- One ACU region (Table 19.8a); `cache` 0 UNCACHED, 1 WRITE_THROUGH, 2 WRITE_BACK; `relaxed` is ORDER. -/
structure Region where
  base    : BitVec 28
  limit   : BitVec 28
  valid   : Bool
  lock    : Bool
  nodebug : Bool
  read    : Bool
  write   : Bool
  exec    : Bool
  cache   : BitVec 2
  relaxed : Bool
  deriving DecidableEq, Repr

def Region.init : Region := ⟨0, 0, false, false, false, false, false, false, 0, false⟩

/-- One denial (Table 19.8b). -/
structure AcuLog where
  addr   : Nat
  tick   : Word
  slot   : Nat
  kind   : Nat
  region : Nat
  deriving DecidableEq, Repr

/-- A store retired into a core's store buffer and not yet drained (R498). -/
structure BufStore where
  addr  : Nat
  bytes : List Byte
  /-- The instance that issued it, for M1 to M8; 0 for M0. -/
  inst  : Nat
  tick  : Tick
  slot  : Nat
  deriving DecidableEq, Repr

/-- A line of a core's data cache (R380, R497): its address in lines of 64 bytes, the WRITE permission it was filled with, whether
it is dirty, and its bytes. -/
structure CacheLine where
  line     : Nat
  writable : Bool
  dirty    : Bool
  bytes    : List Byte
  deriving DecidableEq, Repr

/-- One access control unit (R495, R500, R501), with its master's store buffer and data cache. -/
structure AcuSt where
  /-- The copy in force and the shadow. -/
  regions : List Region
  shadow  : List Region
  epoch   : Bool
  denials : Nat
  /-- Newest first, 16 at most. -/
  log     : List AcuLog
  /-- Denials of this tick, and KIND of the first (EV179). -/
  now     : Nat
  first   : Nat
  buffer  : List BufStore
  /-- Imprecise notices posted and not yet taken by Woeri (R498): the instance that ran at the issue tick and slot. -/
  notices : List Nat
  /-- The data cache, oldest line first. -/
  cache   : List CacheLine
  deriving DecidableEq, Repr

def AcuSt.init : AcuSt :=
  ⟨List.replicate 16 .init, List.replicate 16 .init, false, 0, [], 0, 0, [], [], []⟩

/-- Work on the fuses in progress: a slot whose content is blown and whose integrity word is not, with its class; one of which only the
integrity word has been destroyed, with its class; the life-cycle state or the anti-rollback count that is the target. -/
inductive FuseWork where
  | install (slot cls : Nat)
  | destroy (slot cls : Nat)
  | lifecycle (target : Nat)
  | rollback (target : Nat)
  deriving DecidableEq, Repr

structure TrustSt where
  /-- Positions LC0 to LC4, three fuses each (R479). -/
  lc       : List (BitVec 3)
  slots    : List SlotSt
  /-- Slots whose fuses no longer blow, a defect of the part (R548, DESTROY_FAIL). -/
  dead     : BitVec 32
  rollback : BitVec 64
  /-- Life-cycle state of the last boot (EV176, Table 19.12). -/
  bootLc   : Nat
  acus     : List AcuSt
  /-- The work on the fuses that a command has begun (R482, R485, R486, R490). -/
  work     : Option FuseWork
  deriving DecidableEq, Repr

/-- OTP as the part leaves the maker: no fuse blown (BLANK, every slot EMPTY). -/
def TrustSt.init : TrustSt :=
  ⟨[0, 0, 0, 0, 0], List.replicate 32 .init, 0, 0, 0, List.replicate 16 .init, none⟩

/-! ### Flash and live update (spec/20) -/

/-- A boot directory copy (Table 20.4), field by field as the flash holds it; erased bytes read ones. -/
structure Dir where
  magic    : Nat
  gen      : Nat
  /-- Per instance: copy booted, BOOTABLE, DIGEST_TAG. -/
  active   : List Nat
  bootable : List (BitVec 2)
  tags     : List (List Byte)
  crc      : Nat
  deriving DecidableEq, Repr

def Dir.erased : Dir :=
  ⟨0xFFFFFFFF, 0xFFFFFFFF, List.replicate 5 255, List.replicate 5 3, List.replicate 5 (List.replicate 4 255), 0xFFFFFFFF⟩

/-- A journal entry whose CRC holds (R523). -/
structure JrnEntry where
  number : Nat
  phase  : Nat
  gen    : Nat
  hash   : List Byte
  deriving DecidableEq, Repr

/-- A configuration store copy (Table 4.6), field by field as the flash holds it; erased bytes read ones. -/
structure CfgCopy where
  magic : Nat
  gen   : Nat
  size  : Nat
  crc   : Nat
  set   : List Byte
  deriving DecidableEq, Repr

def CfgCopy.init : CfgCopy := ⟨0xFFFFFFFF, 0xFFFFFFFF, 0xFFFFFFFF, 0xFFFFFFFF, []⟩

/-- A stored service package (Table 20.1, R386): its bytes. -/
structure StoredPkg where
  id    : Nat
  bytes : List Byte
  deriving DecidableEq, Repr

/-- The flash of Table 20.1 by what its regions hold. -/
structure FlashSt where
  present : Bool
  dirs    : List Dir
  journal : List JrnEntry
  /-- Pages written in the journal sector in use; 16 fill a sector (R523). -/
  jrnFill : Nat
  /-- The sector not in use is blank. -/
  jrnBlank : Bool
  keyman  : List (List Byte)
  cfg     : List CfgCopy
  /-- Image copies: MGT_A, MGT_B, WOERI_A, WOERI_B, PHY_A, PHY_B, PWR_A, PWR_B. -/
  images  : List (List Byte)
  pkgs    : List StoredPkg
  deriving DecidableEq, Repr

def FlashSt.init : FlashSt :=
  ⟨true, [.erased, .erased], [], 0, true, List.replicate 32 [], [.init, .init], List.replicate 8 [], []⟩

/-- An activation that waits or runs (R517). -/
structure Activation where
  inst   : Nat
  copy   : Nat
  revert : Bool
  via    : Via
  handle : Nat
  /-- 0 waiting for quiet, 1 running (handover of R518, or the drain of the first core under R520), 2 with some cores restarted (R520). -/
  phase  : Nat
  /-- WOERI: the core drained now, 8 before the first (R520). -/
  core   : Nat
  /-- The tick at which the wait for quiet began (R517, R521), then that of H3 (R518). -/
  since  : Tick
  deriving DecidableEq, Repr

/-- A commit in progress (R523): the handle that asked for it, the new directory and the copy that takes it. -/
structure Commit where
  via    : Via
  handle : Nat
  dir    : Dir
  copy   : Nat
  deriving DecidableEq, Repr

structure UpdSt where
  flash    : FlashSt
  /-- Copy that each instance runs: MGT, WOERI, PHY0, PHY1, PWRSEQ. -/
  running  : List Nat
  stopped  : List Bool
  /-- Code half of MGT that runs (Table 20.3). -/
  mgtHalf  : Nat
  /-- Halves that Woeri and the power sequencer run in (Table 20.3). -/
  woeriHalf : Nat
  pwrHalf  : Nat
  /-- The flash is read in 8D-8D-8D mode, its parameters known; in 1S-1S-1S mode otherwise (R508, R579). -/
  octal    : Bool
  /-- Verdict of each image copy once verified (R516). -/
  verdicts : List (Option Nat)
  act      : Option Activation
  commit   : Option Commit
  /-- `upd.verify` in progress: its channel and handle, the engine and the copy. -/
  verify   : Option (Via × Nat × Nat × Nat)
  /-- `upd.stage` that takes its bytes from the next EP2 OUT transfer: the engine and the copy (R515). -/
  stageIn  : Option (Nat × Nat)
  untested : Bool
  pairs    : Nat
  /-- Tick since which every instance has run the same copies without a fault of R522. -/
  cleanSince : Tick
  deriving DecidableEq, Repr

def UpdSt.init : UpdSt :=
  ⟨.init, [0, 0, 0, 0, 0], [false, false, false, false, false], 0, 0, 0, false, List.replicate 8 none, none, none, none, none, false, 0, 0⟩

/-! ### Cable lanes (spec/05) -/

/-- Lane states (Table 5.4). -/
inductive LaneState where
  | off | train | l0 | l0s | l1d | l1x | cal | test | floor | retired
  deriving DecidableEq, Repr

/-- Lane rates; `none` where the lane holds none (Table 5.12). -/
inductive Rate where
  | f | h | g1 | t | none
  deriving DecidableEq, Repr

/-- A re-calibration or restoration of one lane (R131 to R134). Step 0 queued, 1 EQ forward, 2 EQ reverse, 3 VERIFY,
4 TURN_CAL. -/
structure Recal where
  trig    : Nat
  force   : Bool
  restore : Bool
  /-- Commands whose completion reports it. -/
  jobs    : List (Via × Nat)
  step    : Nat
  /-- Second attempt, at H (R134). -/
  atH     : Bool
  fwdOk   : Bool
  revOk   : Bool
  /-- The cause for which a direction failed at H, and the tick of the trigger. -/
  why     : Nat
  since   : Tick
  /-- The hold-back of R132 has run out. -/
  expired : Bool
  micros  : Nat
  deriving DecidableEq, Repr

/-- A PRBS test (R140). -/
structure LaneTest where
  pattern : Nat
  dir     : Nat
  ticks   : Nat
  force   : Bool
  job     : Option (Via × Nat)
  /-- The command that ends it early. -/
  stop    : Option (Via × Nat)
  started : Bool
  /-- Ticks that the test has run; the tick of the command, and whether the hold-back of R132 has run out. -/
  ran     : Nat
  since   : Tick
  expired : Bool
  deriving DecidableEq, Repr

/-- Error injection (R141): mode 1 PRBS, 2 LIVE, 3 SLIP. -/
structure Inject where
  mode     : Nat
  symbols  : Nat
  interval : Nat
  count    : Nat
  /-- Units passed since it started, and units struck. -/
  seen     : Nat
  done     : Nat
  deriving DecidableEq, Repr

/-- Counters of a lane's receiver (Table 5.12). -/
structure LaneCnt where
  rxSym  : Nat
  corSym : Nat
  corCw  : Nat
  uncCw  : Nat
  turns  : Nat
  slips  : Nat
  l0s    : Nat
  l1d    : Nat
  recals : Nat
  fails  : Nat
  deriving DecidableEq, Repr

def LaneCnt.init : LaneCnt := ⟨0, 0, 0, 0, 0, 0, 0, 0, 0, 0⟩

/-- What a lane keeps for one rate (R111, R114): the receive state, the transmit FFE, and precoding on the transmitter and on the
receiver. -/
structure LaneEq where
  rx     : RxState
  ffe    : List Int
  precTx : Bool
  precRx : Bool
  deriving DecidableEq, Repr

def LaneEq.init : LaneEq := ⟨.init, [0, 0, 0, 100, 0], false, false⟩

/-- The coach that a lane is sending (R156): its class, its key and counter, the cells sent as they went out, the bytes of plaintext so
far, the cell that waits to know whether it closes the coach, and the port and lane of a coach that is cut through (R164). -/
structure TxCoach where
  tc      : Nat
  key     : List Byte
  counter : Nat
  sent    : List Cell
  off     : Nat
  held    : Cell
  source  : Option (Nat × Nat)
  deriving DecidableEq, Repr

/-- What a lane sends in its run (R112, R146): the data slots of the run so far and the bytes of its stream that are taken. -/
structure LaneTx where
  run   : Bool
  slots : Nat
  pos   : Nat
  coach : Option TxCoach
  deriving DecidableEq, Repr

def LaneTx.init : LaneTx := ⟨false, 0, 0, none⟩

/-- One lane (Table 5.12, R114, R118, R135). -/
structure LaneSt where
  state    : LaneState
  rate     : Rate
  /-- 0 both directions, 1 FWD_ONLY, 2 REV_ONLY, 3 none. -/
  use      : Nat
  hTrained : Bool
  /-- The directions that passed EQ_F, for R126. -/
  fFwd     : Bool
  fRev     : Bool
  turnHold : Bool
  /-- TURN_HOLD stood when the last lane plan was started: the hold is not new (R209). -/
  heldSeen : Bool
  cause    : Nat
  flight   : Nat
  cnt      : LaneCnt
  /-- Sensor reading at the last calibration, 0.1 °C. -/
  calTemp  : Int
  /-- What the lane keeps for F, H and G1, the receiver's working values, and the transmit swing in mV (R114, R128, Table 5.8). -/
  eqs      : List LaneEq
  rx       : RxState
  swing    : Nat
  /-- MAX_RATE H applied to the lane since its last training (R142). -/
  capH     : Bool
  /-- FEC symbols received and corrected and uncorrectable codewords of the last 64 ticks, the newest first (R129). -/
  hist     : List (Nat × Nat × Nat)
  tx       : LaneTx
  /-- Direction of the run now on the lane: true forward. -/
  forward  : Bool
  /-- The receiver discards data until the next run into it (R116). -/
  discard  : Bool
  slipTicks : List Tick
  slipEv   : Option Tick
  recal    : Option Recal
  test     : Option LaneTest
  inject   : Option Inject
  /-- First tick that may plan the lane after training, calibration or test (R135). -/
  ready    : Option Tick
  /-- A retirement or restoration that this end asks of the tick master in its next demand report (Table 6.7). -/
  ask      : Nat
  /-- Energy dispatch holds the lane at H until this tick (spec/08). -/
  hUntil   : Tick
  /-- Ticks for which the lane has been planned in L0S whole (spec/08). -/
  idleTicks : Nat
  deriving DecidableEq, Repr

def LaneSt.init : LaneSt where
  state := .off
  rate := .none
  use := 0
  hTrained := false
  fFwd := false
  fRev := false
  turnHold := false
  heldSeen := false
  cause := 0
  flight := 0
  cnt := .init
  calTemp := 0
  eqs := [.init, .init, .init]
  rx := .init
  swing := 1000
  capH := false
  hist := []
  tx := .init
  forward := true
  discard := false
  slipTicks := []
  slipEv := none
  recal := none
  test := none
  inject := none
  ready := none
  ask := 0
  hUntil := 0
  idleTicks := 0

/-- A cable port's lanes and its microsequencer (R125): the training step in progress, 0 none, 1 to 7 of Table 5.6,
8 waiting 100 ms for a restart, 14 and 15 the steps G4 and G5 of Table 5.6a. -/
structure CpxSt where
  lanes    : List LaneSt
  step     : Nat
  /-- Restarts of step 2 (Table 5.6). -/
  restarts : Nat
  /-- Lanes in the order of their triggers (R131). -/
  queue    : List Nat
  /-- What the peer told at T_LOCK. -/
  peer     : PeerLane
  /-- A lane in L1D is to be brought back by the next lane plan (R211, R131). -/
  exitWant : Bool
  /-- Holdover has closed the port's link or stopped its bring-up: it starts at step 1 when holdover ends (R42). -/
  heldOff  : Bool
  /-- The tick since which the port waits for a restart, and that in which its lanes entered FLOOR. -/
  since    : Tick
  floorAt  : Tick
  /-- The tick of the last attempt to restore retired lanes (R138). -/
  retryAt  : Tick
  /-- An automatic re-calibration or restoration has not met R130: the link closes with cause RETRAIN. -/
  retrain  : Bool
  deriving DecidableEq, Repr

def CpxSt.init : CpxSt := ⟨[.init, .init, .init, .init], 0, 0, [], ⟨15, false, 1, true, true, true, 600, false⟩, false, false, 0, 0, 0, false⟩

/-! ### The Latre link (spec/06) -/

/-- A path table entry (Table 6.3). -/
structure PathEntry where
  label      : Nat
  suspended  : Bool
  tc         : Nat
  egress     : Nat
  outLabel   : Nat
  cut        : Bool
  contract   : Nat
  /-- The path is bound to its contract at this hub (R226). -/
  bound      : Bool
  initCredit : Nat
  deriving DecidableEq, Repr

/-- A cell kept until it is acknowledged (R153): how often it has been sent, and the tick of its last sending. -/
structure Unacked where
  cell  : Cell
  sends : Nat
  tick  : Tick
  deriving DecidableEq, Repr

/-- Order, replay and credit of one path on one cable (R152 to R155, `path.show`). -/
structure FlowSt where
  label    : Nat
  tc       : Nat
  /-- Next SEQ to send, and the highest SEQ acknowledged. -/
  nextSeq  : Nat
  ackSeq   : Nat
  consumed : Nat
  limit    : Nat
  unacked  : List Unacked
  /-- Next SEQ expected, cells received out of order, and the credit granted to the sender. -/
  rxNext   : Nat
  rxHeld   : List Cell
  granted  : Nat
  /-- Cells received since the path's last CREDIT entry. -/
  sinceCredit : Nat
  /-- Cells received in order, modulo 65,536, and cells forwarded out of the input buffer (R154, R187). -/
  rxCount  : Nat
  rxOut    : Nat
  lost     : Nat
  /-- The CREDIT_LIMIT that the other end gave at setup. -/
  first    : Nat
  /-- The payload of the last acknowledged cell that had FIRST. -/
  ackHead  : List Byte
  /-- SEQs to be sent again before any new cell (R153), and the slot, counted from tick 0, since which a later cell waits for a gap. -/
  again    : List Nat
  heldAt   : Nat
  deriving DecidableEq, Repr

def FlowSt.fresh (label tc granted limit : Nat) : FlowSt :=
  { label := label, tc := tc, nextSeq := 0, ackSeq := 0, consumed := 0, limit := limit, unacked := [], rxNext := 0,
    rxHeld := [], granted := granted, sinceCredit := 0, rxCount := 0, rxOut := 0, lost := 0, first := limit, ackHead := [], again := [], heldAt := 0 }

/-- The flows of label 1, link control, and of label 2, the PEER mailbox (Table 6.2): they start with each bring-up. -/
def FlowSt.own : List FlowSt := [.fresh 1 7 0 0, .fresh 2 7 32 32]

/-- What one direction of a link keeps of its keys (R157, R161): the index, the 64-bit counter, the key and the salt, and the tick of its
installation. -/
structure KeySt where
  index   : Nat
  counter : Nat
  key     : List Byte
  since   : Tick
  /-- Announced next index, its effective tick and whether it has been acknowledged (sender), or accepted (receiver). -/
  next    : Option (Nat × Tick × Bool)
  /-- The receiver's old key, kept until tick K + 2. -/
  old     : Option (List Byte × Tick)
  deriving DecidableEq, Repr

def KeySt.init : KeySt := ⟨0, 0, [], 0, none, none⟩

/-- A cell of a coach that is being received: its lane, the counter of its coach and the cell as it arrived (R157, R158). -/
structure RxCell where
  lane : Nat
  ctr  : Nat
  /-- Under the index before the rotation (R161). -/
  old  : Bool
  cell : Cell
  deriving DecidableEq, Repr

/-- A cable port's Latre link. -/
structure LinkSt where
  /-- 0 DOWN, 1 BRINGUP, 2 UP, 3 GEN1 (Table 6.12). -/
  state     : Nat
  cause     : Nat
  peer      : Option PeerHello
  /-- Device ID of the peer before the last closure (R175). -/
  lastDev   : Nat
  ownRand   : Nat
  elected   : Bool
  /-- The tick in which the election ended (R16). -/
  electTick : Tick
  gen1      : Bool
  /-- Messages of the key agreement in progress, and whether KEY_FINISH has been verified (R160). -/
  keyInit   : List Byte
  keyResp   : List Byte
  /-- This end's ephemeral ECDH scalar and ML-KEM seed, and PRK. -/
  ecdhKey   : Nat
  kemSeed   : List Byte
  prk       : List Byte
  /-- The tick of the last message of the agreement, and that in which LINK_T began. -/
  keySince  : Tick
  stepSince : Tick
  keysIn    : Bool
  keyFails  : Nat
  /-- Failures of step 3 in a row (R176), and whether the last was by key agreement. -/
  restarts  : Nat
  keyCause  : Bool
  encrypt   : Bool
  tx        : KeySt
  rx        : KeySt
  /-- The last segment of each lane in the tick before, and the plans of ticks n, n + 1 and n + 2. -/
  prevs     : List (Nat × Nat)
  plan0     : Option Plan
  plan1     : Option Plan
  plan2     : Option Plan
  /-- The last DEMAND cell received, and the demand this end last sent. -/
  demand    : Option Demand
  missed    : Bool
  /-- Ticks since the last valid TICK cell, MASTER_LOST, and the target ticks of fixed plans under R169. -/
  sinceTick : Nat
  masterLost : Bool
  lostAt    : Nat
  burst     : List Tick
  table     : List PathEntry
  flows     : List FlowSt
  /-- Cells of the coaches being received; the lanes that hunt for a cell boundary, with the header that has passed once (R147). -/
  coach     : List RxCell
  hunt      : List (Nat × Option (RxCell × List Byte))
  /-- PEER messages that wait for a coach on label 2 (R78), and coaches sent. -/
  peerOut   : List (List Byte)
  coaches   : Nat
  tagFails  : Nat
  poisoned  : Nat
  replayed  : Nat
  lost      : Nat
  missedCnt : Nat
  hdrErrs   : Nat
  noEntry   : Nat
  /-- Failures and poisoned coaches in the tick given, for the events' ARG (R158). -/
  authTick  : Option (Tick × Nat)
  poisTick  : Option (Tick × Nat)
  /-- Times of the exchange in progress: t1, t2, t3 and, at the master, t4 (R170), in 1/64 ns; the lanes of its legs. -/
  sync      : Int × Int × Int × Int
  syncLanes : Nat × Nat
  /-- Suspended paths wait for the same peer, since the tick of the closure. -/
  holding   : Bool
  closedAt  : Tick
  /-- The labels of the suspended paths with the first CREDIT_LIMIT that the other end gave each (R175). -/
  firsts    : List (Nat × Nat)
  /-- What R178 takes at bring-up: GEN1_ALLOW, MASTER_LOSS_TICKS and PATH_HOLD_MS. -/
  gen1Allow : Bool
  masterLossTicks : Nat
  pathHoldMs : Nat
  resetJob  : Option (Via × Nat)
  deriving DecidableEq, Repr

def LinkSt.init : LinkSt where
  state := 0
  cause := 0
  peer := none
  lastDev := 0
  ownRand := 0
  elected := false
  electTick := 0
  gen1 := false
  keyInit := []
  keyResp := []
  ecdhKey := 0
  kemSeed := []
  prk := []
  keySince := 0
  stepSince := 0
  keysIn := false
  keyFails := 0
  restarts := 0
  keyCause := false
  encrypt := true
  tx := .init
  rx := .init
  prevs := [(2, 0), (2, 0), (2, 0), (2, 0)]
  plan0 := none
  plan1 := none
  plan2 := none
  demand := none
  missed := false
  sinceTick := 0
  masterLost := false
  lostAt := 0
  burst := []
  table := []
  flows := FlowSt.own
  coach := []
  hunt := []
  peerOut := []
  coaches := 0
  tagFails := 0
  poisoned := 0
  replayed := 0
  lost := 0
  missedCnt := 0
  hdrErrs := 0
  noEntry := 0
  authTick := none
  poisTick := none
  sync := (0, 0, 0, 0)
  syncLanes := (0, 0)
  holding := false
  closedAt := 0
  firsts := []
  gen1Allow := true
  masterLossTicks := 16
  pathHoldMs := 1000
  resetJob := none

/-- Who asked for a path (R585): a command, or an adapter's binding with its index. -/
inductive PathOwner where
  | command | disp (stream : Nat) | dispAudio (stream : Nat) | pcie (bridge : Nat) | usb (hub : Nat) | usbIso (hub : Nat)
  | net (group : Nat) | svc (inst : Nat)
  deriving DecidableEq, Repr

/-- A path that starts at this hub (R151, R585). Phase 0 setup in progress, 1 open, 2 teardown under way. -/
structure PathRec where
  id     : Nat
  src    : Nat
  /-- Cable port of the first hop; none for a local path. -/
  port   : Option Nat
  label  : Nat
  hops   : Nat
  chain  : Nat
  dst    : Nat
  tc     : Nat
  cut    : Bool
  contract : Nat
  /-- A local path is bound to its contract (R226). -/
  bound  : Bool
  phase  : Nat
  owner  : PathOwner
  job    : Option (Via × Nat)
  deriving DecidableEq, Repr

/-- A path setup in progress at this hub (R151): the cable port and label it was sent out with; the entry it will put into
that port's table when PATH_ACK passes; for a relay, the port and label it came from and the INIT_CREDIT to answer. -/
structure Setup where
  port   : Nat
  label  : Nat
  id     : Nat
  entry  : PathEntry
  up     : Option (Nat × Nat)
  credit : Nat
  since  : Tick
  deriving DecidableEq, Repr

/-- Both cables' lanes and links, the paths that start here, and the chain below (R174). -/
structure CableSt where
  cpx     : List CpxSt
  links   : List LinkSt
  paths   : List PathRec
  setups  : List Setup
  notices : List (Nat × Notice)
  deriving DecidableEq, Repr

def CableSt.init : CableSt := ⟨[.init, .init], [.init, .init], [], [], []⟩

/-! ### Switch core (spec/07) -/

/-- A stored cell with its descriptor (Table 7.1). `shared` SHARED, `held` HELD; when neither, the cell is charged to its
input's minimum or credit pool. -/
structure QCell where
  buf     : Nat
  len     : Nat
  label   : Nat
  tc      : Nat
  inp     : Nat
  outp    : Nat
  pending : Bool
  shared  : Bool
  first   : Bool
  last    : Bool
  ecn     : Bool
  cut     : Bool
  held    : Bool
  coach   : Nat
  payload : List Byte
  deriving DecidableEq, Repr

/-- A virtual output queue that is not in its reset state (R184, R196, `plan.switch.voq.show`). -/
structure Voq where
  inp     : Nat
  outp    : Nat
  tc      : Nat
  cells   : List QCell
  age     : Nat
  urgent  : Bool
  urgents : Nat
  conns   : Nat
  deriving DecidableEq, Repr

/-- Per-port, per-class counters (Table 7.4). -/
structure SwCnt where
  cin    : Nat
  cout   : Nat
  cap    : Nat
  full   : Nat
  pushed : Nat
  ecn    : Nat
  deriving DecidableEq, Repr

def SwCnt.init : SwCnt := ⟨0, 0, 0, 0, 0, 0⟩

structure SwitchSt where
  voqs    : List Voq
  /-- Express queues of CP0 and CP1 toward the other cable port (R199). -/
  express : List (List QCell)
  /-- GP[j][c] at 8j + c and AP[i] (R195). -/
  gp      : List Nat
  ap      : List Nat
  /-- Buffers charged to the minimum or credit pool of input i and class c, at 8i + c, and to the shared pool by input. -/
  minUsed : List Nat
  shrUsed : List Nat
  /-- HELD buffers of each cable output. -/
  replay  : List Nat
  cnts    : List SwCnt
  lowWater : Nat
  cutCells : Nat
  /-- Cells that cut through in this tick and in the last, by cable output and class at 8j + c (R214). -/
  cutNow  : List Nat
  cutLast : List Nat
  pieces  : Nat
  bankWait : Nat
  matched : Nat
  maxCut  : Nat
  /-- Coaches pending per cable input (R185). -/
  pendCoach : List Nat
  nextBuf : Nat
  /-- Tick of the last EV048 and EV051; the drops of the tick, the port and class of the first, and the push-outs (R204). -/
  evTicks : List (Option Tick)
  drops   : Nat
  dropAt  : Nat
  pushes  : Nat
  deriving DecidableEq, Repr

def SwitchSt.init : SwitchSt where
  voqs := []
  express := [[], []]
  gp := List.replicate 96 0
  ap := List.replicate 12 0
  minUsed := List.replicate 96 0
  shrUsed := List.replicate 12 0
  replay := [0, 0]
  cnts := List.replicate 96 .init
  lowWater := 32768
  cutCells := 0
  cutNow := List.replicate 16 0
  cutLast := List.replicate 16 0
  pieces := 0
  bankWait := 0
  matched := 0
  maxCut := 0
  pendCoach := [0, 0]
  nextBuf := 0
  evTicks := [none, none, none, none]
  drops := 0
  dropAt := 0
  pushes := 0

/-! ### The tick planner (spec/08) -/

/-- A reserved contract (Table 8.7), PRIORITY and MIN_PCT as resolved (R224, R236). -/
structure Contract where
  id     : Nat
  cls    : Nat
  prio   : Nat
  inPort : Nat
  outPort : Nat
  minPct : Nat
  frame  : Nat
  along  : Nat
  back   : Nat
  burst  : Nat
  police : Bool
  /-- State of `plan.contract.show`: 0 idle, 1 full, 2 cut for capacity, 3 cut for energy. -/
  state  : Nat
  gAlong : Nat
  gBack  : Nat
  above  : Nat
  /-- Policer tokens, in 1/250 cell, of the directions IN_PORT to OUT_PORT and back (R223). -/
  tokA   : Nat
  tokB   : Nat
  deriving DecidableEq, Repr

/-- A shaper (R222); tokens in 1/256 cell. -/
structure Shaper where
  outp   : Nat
  tc     : Nat
  mbps   : Nat
  burst  : Nat
  tokens : Nat
  deriving DecidableEq, Repr

/-- A gate entry (Table 8.2); `order` holds the classes before 0xF. -/
structure GateEntry where
  start  : Nat
  drrPos : Nat
  hold   : Bool
  order  : List Nat
  deriving DecidableEq, Repr

/-- The reset values of Table 8.2. -/
def GateEntry.reset : GateEntry := ⟨0, 3, false, [7, 6, 5, 4, 3, 2, 1, 0]⟩

/-- One output of a local plan: gate list, quanta and allowances of classes 0 to 7, its capacity step. -/
structure OutPlan where
  gates : List GateEntry
  q     : List Nat
  allow : List (Option Nat)
  step  : Nat
  deriving DecidableEq, Repr

/-- The reset plan of one output (Table 8.1): one entry, Q 1, no ALLOW limit. -/
def OutPlan.reset : OutPlan :=
  ⟨[.reset], [1, 1, 1, 1, 1, 1, 1, 1], [none, none, none, none, none, none, none, none], 8⟩

/-- A local plan (R206): the outputs, the service slices (slots, operating point 0 to 3 for 0.5 to 2.0 GHz), the steps
reached, the contracts cut, its energy and the excess of R217, and what each contract was granted. -/
structure LocalPlan where
  target : Nat
  outs   : List OutPlan
  slices : List (Nat × Nat)
  capStep : Nat
  enStep : Nat
  cut    : List Nat
  cutEn  : List Nat
  energy : Nat
  excess : Nat
  grants : List (Nat × Nat × Nat)
  /-- Admitted cells of each output in percent of its capacity (R462). -/
  loads  : List Nat
  deriving DecidableEq, Repr

/-- The reset plan (Table 8.1). -/
def LocalPlan.reset : LocalPlan :=
  ⟨0, List.replicate 12 .reset, List.replicate 8 (0, 1), 8, 0, [], [], 0, 0, [], List.replicate 12 0⟩

/-- What the capacity fill and the energy steps of a lane plan came to, kept for the tick it governs. -/
structure LaneInfo where
  target : Nat
  capStep : Nat
  enStep : Nat
  cut    : List Nat
  cutEn  : List Nat
  excess : Nat
  deriving DecidableEq, Repr

/-- The sample of one output and class in one tick (R232): depth at slot 0, largest depth, the marked cell's buffer and
admission slot while it waits, and its delay in ns. -/
structure Sample where
  outp  : Nat
  tc    : Nat
  tick  : Tick
  depth : Nat
  most  : Nat
  mark  : Option (Nat × Nat)
  delay : Option Nat
  deriving DecidableEq, Repr

/-- Demand of a tick as frozen (R205, Table 2.2): cells queued toward an output in each class. -/
structure Frozen where
  target : Nat
  cells  : List Nat
  deriving DecidableEq, Repr

structure PlanSt where
  contracts : List Contract
  /-- The contract table as latched at slot 0 of the tick (R205). -/
  latched   : List Contract
  shapers   : List Shaper
  /-- The shaper table as `plan.shaper.set` leaves it: it governs from the next slot 0 (R205). -/
  shaperSet : List Shaper
  inForce   : LocalPlan
  shadow    : Option LocalPlan
  /-- A local plan was due by slot 249 of this tick. -/
  due       : Bool
  /-- DRR pointers P[j], and DC[c] of output j at 8j + c (R220). -/
  drrPtr    : List Nat
  drrDc     : List Int
  /-- Cells of class c sent by output j in this tick, at 8j + c (R221). -/
  sent      : List Nat
  /-- Classes 5 and 6 of each output with a frame begun and not ended, with the path label of the frame (R219). -/
  frames    : List (Nat × Nat × Nat)
  /-- Latched sensors TS0 to TS7 and FET temperatures BAY0 to BAY3, and FET limits, in 0.01 °C (R205). -/
  sensors   : List Int
  fets      : List Int
  fetLims   : List Int
  /-- FET temperatures and limits as they now are, to be latched at the next slot 0. -/
  fetNow    : List Int
  fetLimNow : List Int
  /-- Readings of each sensor, newest first (R231). -/
  readings  : List (List Int)
  /-- The power limits in mW: from the PD contract (none: no contract supplies the hub), and from the feeds. -/
  pPd       : Option Nat
  pFeed     : Option Nat
  latchPd   : Option Nat
  latchFeed : Option Nat
  latchCeil : Nat
  /-- Service demand latched: slots and operating point of each core. -/
  svcWant   : List (Nat × Nat)
  deficit   : Nat
  /-- Ticks since the last refresh, and AUTONOMY (R233). -/
  silent    : Nat
  autonomy  : Nat
  /-- Ticks without refresh that an event has told since the last refresh: 0, 8 or 64 (R233). -/
  lapse     : Nat
  /-- Steps last reported by EV053. -/
  shed      : Nat × Nat
  /-- Tick of the last EV057. -/
  thermTick : Option Tick
  /-- Ticks in a row with a sensor above its limit of R543. -/
  hot       : Nat
  alertTick : Option Tick
  frozen    : List Frozen
  infos     : List (List LaneInfo)
  samples   : List Sample
  deriving DecidableEq, Repr

/-- The planner at a reset of the SWC domain (R206, R231). -/
def PlanSt.init : PlanSt where
  contracts := []
  latched := []
  shapers := []
  shaperSet := []
  inForce := .reset
  shadow := none
  due := false
  drrPtr := List.replicate 12 4
  drrDc := List.replicate 96 0
  sent := List.replicate 96 0
  frames := []
  sensors := List.replicate 8 0
  fets := List.replicate 4 0
  fetLims := List.replicate 4 12500
  fetNow := List.replicate 4 0
  fetLimNow := List.replicate 4 12500
  readings := List.replicate 8 []
  pPd := none
  pFeed := none
  latchPd := none
  latchFeed := none
  latchCeil := 14500
  svcWant := List.replicate 8 (0, 1)
  deficit := 0
  silent := 0
  autonomy := 0
  lapse := 0
  shed := (8, 0)
  thermTick := none
  hot := 0
  alertTick := none
  frozen := []
  infos := [[], []]
  samples := []

/-! ### Display tunnels (spec/09) -/

/-- A CONTROL message sent and not yet acknowledged (R252): its fields of Table 9.4, the tick of the last sending and the
resends made. -/
structure CtrlOut where
  cseq    : Nat
  code    : Nat
  addr    : Nat
  ctlArg  : Nat
  vstream : Nat
  data    : List Byte
  tick    : Tick
  resends : Nat
  deriving DecidableEq, Repr

/-- A mirrored or read block of the panel: DPCD address, or 0xFFF00 + block for EDID and DisplayID (Table 9.4). -/
structure MirrorBlk where
  addr : Nat
  data : List Byte
  deriving DecidableEq, Repr

/-- An AUX transaction out on a panel (R251, R264): forwarded by the SINK end, with its address and virtual sink, to be answered unless it
was a posted write; or of `disp.aux.xfer`, with its handle. -/
structure PanelAux where
  addr    : Nat
  vstream : Nat
  posted  : Bool
  job     : Option (Via × Nat)
  deriving DecidableEq, Repr

/-- A transaction of the GPU that was answered DEFER (Table 9.5): its command and address, the tick of the DEFER, and the answer once
there is one. -/
structure AuxWait where
  cmd    : Nat
  addr   : Nat
  tick   : Tick
  answer : Option (Nat × List Byte)
  deriving DecidableEq, Repr

/-- One display transceiver. -/
structure DpxSt where
  /-- HPD of the panel (SOURCE), or HPD driven toward the GPU (SINK). -/
  hpd      : Bool
  /-- The tick in which HPD fell, until streams have been closed for it (R242). -/
  hpdFell  : Option Tick
  /-- The level (0, 1) or pulse (2) that a partner's message presents as the panel's HPD (R430). -/
  presented : Option Nat
  /-- Link rate code of `disp.show` and lanes; 0 when not trained. -/
  rate     : Nat
  lanes    : Nat
  lttprs   : Nat
  /-- The panel's own highest rate code, refresh bounds in mHz and Adaptive-Sync (SOURCE). -/
  panelMax : Nat
  panelLo  : Nat
  panelHi  : Nat
  /-- The configurations at which the panel's training succeeds, as last found (R240). -/
  works    : List (Nat × Nat)
  /-- The AUX destination named before any stream exists: hops, chain, DPX. -/
  pair     : Option (Nat × Nat × Nat)
  /-- The panel's blocks: as read at a SOURCE end, as mirrored at a SINK end. -/
  mirror   : List MirrorBlk
  /-- The destination panel's HPD as the SINK end last heard it (R254). -/
  farHpd   : Bool
  txCseq   : Nat
  /-- Control sequence numbers acted on, the newest first (R252). -/
  rxSeen   : List Nat
  unacked  : List CtrlOut
  deferred : Option AuxWait
  /-- The MSA of each capture stream as last received (R255), and the I2C pointer and segment of the EDID that the GPU reads. -/
  msa      : List (Option FrameDesc)
  i2cOff   : Nat
  i2cSeg   : Nat
  /-- The panel has been written SET_POWER D3 (R260, R261). -/
  d3       : Bool
  /-- Overlay: enable, x, y, width, height, offset (R259). -/
  overlay  : Bool × Nat × Nat × Nat × Nat × Nat
  /-- AUX transactions out on the panel, oldest first. -/
  auxOut   : List PanelAux
  deriving DecidableEq, Repr

def DpxSt.init : DpxSt :=
  ⟨false, none, none, 0, 0, 0, 0, 0, 0, [], none, [], false, 0, [], [], none,
    [none, none, none, none], 0, 0, false, (false, 0, 0, 0, 0, 0), []⟩

/-- A stream captured or regenerated here. -/
structure StreamSt where
  id       : Nat
  dpx      : Nat
  index    : Nat
  /-- Captured here (a SINK end), or regenerated here. -/
  capture  : Bool
  /-- 0 opening, 1 idle pattern, 2 live, 3 hold. -/
  state    : Nat
  /-- Capture end: hops, chain, destination DPX and stream index. -/
  dest     : Nat × Nat × Nat × Nat
  audio    : Bool
  cut      : Bool
  /-- Path identifiers at the capture end; at the far end the cable port and label (2,048 local paths by identifier). -/
  video    : Option Nat
  audioPath : Option Nat
  inPort   : Nat
  inLabel  : Nat
  contract : Nat
  along    : Nat
  /-- Presentation delay in ns. -/
  delay    : Nat
  share    : Nat
  desc     : Option FrameDesc
  locked   : Bool
  lockLines : Nat
  /-- Lines in a row with an error above 50 ns. -/
  badLines : Nat
  /-- DCO offset in 2^-32 of CLOCK. -/
  dco      : Int
  /-- Frame-skip factor and frames without a concealed chunk (R256). -/
  k        : Nat
  cleanFrames : Nat
  /-- Chunks received and not yet due. -/
  chunks   : List Chunk
  late     : Nat
  concealed : Nat
  skipped  : Nat
  highWater : Nat
  /-- This frame: chunks due and chunks concealed, and frames in a row above 5 %. -/
  frameChunks : Nat
  frameConc : Nat
  badFrames : Nat
  /-- A complete frame is in the store, complete frames in a row on an open path, and the buffer that holds the last complete frame. -/
  stored   : Bool
  goodFrames : Nat
  storeBuf : Nat
  /-- Cause for which hold is entered at the next frame start. -/
  holdNext : Option Nat
  lastChunk : Tick
  /-- Chunks concealed since the last EV071, and the ticks of the last EV071 and EV074. -/
  concEv   : Nat
  concTick : Option Tick
  skipTick : Option Tick
  /-- The tick in which hold was entered (R260). -/
  holdAt   : Tick
  /-- A timebase step, in 1/64 ns, to be absorbed at the next vertical blank (R249). -/
  step     : Int
  /-- The frame-start stamp of the last frame and its distance from the one before, in 1/64 ns, 0 unknown (R244). -/
  origin   : Option Nat
  interval : Nat
  /-- Where the last frame started at the panel, and by how much that was moved from its stamp + D (R248). -/
  start    : Option Nat
  shift    : Int
  /-- The frame's number, and that the capture end has not sent it (R256). -/
  frameNo  : Nat
  away     : Bool
  /-- The bytes of the last line sent, and of the last line 0 (R250); audio SDPs received and not yet due. -/
  above    : List Byte
  firstLine : List Byte
  audioIn  : List (List Byte)
  job      : Option (Via × Nat)
  deriving DecidableEq, Repr

structure DispSt where
  dpx     : List DpxSt
  streams : List StreamSt
  deriving DecidableEq, Repr

def DispSt.init : DispSt := ⟨[.init, .init, .init, .init], []⟩


/-! ### PCI Express tunnels (spec/10) -/

/-- One physical link: UP or DP0 to DP3 (Tables 10.1, 10.8). -/
structure PciLink where
  /-- 0 down, 1 training, 2 L0, 3 L1, 4 hot reset. -/
  state   : Nat
  rate    : Nat
  width   : Nat
  rcvErrs : Nat
  replays : Nat
  malformed : Nat
  tlpsIn  : Nat
  tlpsOut : Nat
  /-- In-band presence of a downstream port. -/
  present : Bool
  /-- PERST# asserted to the device (R452). -/
  perst   : Bool
  /-- Errors of a downstream link, logged since its last PORT_STATE. -/
  aerUnc  : Word
  aerCor  : Word
  /-- PCIE_MAX_SPEED as taken at the last training (R287), and the tick at which hot reset began. -/
  maxSpeed : Nat
  resetAt : Tick
  deriving DecidableEq, Repr

def PciLink.init : PciLink := ⟨0, 0, 0, 0, 0, 0, 0, 0, false, true, 0, 0, 0, 0⟩

/-- A non-posted request sent into a path (R279). -/
structure PciReq where
  rid  : Nat
  tag  : Nat
  tick : Tick
  deriving DecidableEq, Repr

/-- A TLP that waits to enter a path; `origin` the bridge whose path it crossed, for peer-to-peer traffic (R276). -/
structure PciHeld where
  tlp    : Tlp
  origin : Option Nat
  deriving DecidableEq, Repr

/-- One end of a bridge's path: bridge 1 to 15 at the HOSTSIDE hub, a downstream port DP0 to DP3 at the other. -/
structure PciEnd where
  /-- 0 unbound, 1 up, 2 suspended, 3 surprise down. -/
  state    : Nat
  /-- At the HOSTSIDE hub the path and its target; at a port, the cable port and label of its path. -/
  path     : Option Nat
  hops     : Nat
  chain    : Nat
  dport    : Nat
  contract : Nat
  label    : Nat
  inPort   : Nat
  bridge   : Nat
  /-- Requests sent into the path (R279), and requests delivered to the link here and not completed. -/
  table    : List PciReq
  served   : List PciReq
  orphans  : List PciReq
  /-- Credit limits received and consumed, PH PD NPH NPD CPLH CPLD (R274, R275). -/
  limits   : List Nat
  used     : List Nat
  /-- Credits used by what has arrived, credits granted to the far end, and freed since the last CREDIT frame. -/
  got      : List Nat
  granted  : List Nat
  freed    : List Nat
  /-- The initial limits that the far end gave and that this end gave (R274, R281). -/
  first    : List Nat
  gave     : List Nat
  /-- TLPs from the link waiting for credit or for the path, and TLPs from the path waiting for the link. -/
  held     : List PciHeld
  egress   : List Tlp
  lostP    : Bool
  lostNp   : Bool
  /-- The far end's RESUME: its flag byte; the tick at which the path was suspended. -/
  resume   : Option Nat
  suspAt   : Tick
  synth    : Nat
  orphaned : Nat
  postedLost : Nat
  agedTick : Option Tick
  /-- Bridge registers (R270, R272): bus numbers, memory window, Command, Bridge, Link, Slot and Device Control, Slot Status
  change bits, ACS, AER status and severity, Data Link Layer Link Active, State Changed, Link Training, Presence Detect, L1 PM
  Substates Control, and the power state: 0 D0, 3 D3hot. -/
  bus      : Nat × Nat × Nat
  memBase  : Nat
  memLimit : Nat
  cmd      : Half
  brCtl    : Half
  lnkCtl   : Half
  sltCtl   : Half
  devCtl   : Half
  acs      : Half
  aerUnc   : Word
  aerCor   : Word
  aerSev   : Word
  lnkCap   : Word
  lnkSta   : Half
  active   : Bool
  changed  : Bool
  training : Bool
  presence : Bool
  presChg  : Bool
  l1ss     : Word
  dstate   : Nat
  /-- PME_TO_Ack seen since the last PME_Turn_Off. -/
  pmeAck   : Bool
  job      : Option (Via × Nat)
  deriving DecidableEq, Repr

def PciEnd.init : PciEnd where
  state := 0
  path := none
  hops := 0
  chain := 0
  dport := 0
  contract := 0
  label := 0
  inPort := 0
  bridge := 0
  table := []
  served := []
  orphans := []
  limits := [0, 0, 0, 0, 0, 0]
  used := [0, 0, 0, 0, 0, 0]
  got := [0, 0, 0, 0, 0, 0]
  granted := [0, 0, 0, 0, 0, 0]
  freed := [0, 0, 0, 0, 0, 0]
  first := [0, 0, 0, 0, 0, 0]
  gave := [0, 0, 0, 0, 0, 0]
  held := []
  egress := []
  lostP := false
  lostNp := false
  resume := none
  suspAt := 0
  synth := 0
  orphaned := 0
  postedLost := 0
  agedTick := none
  bus := (0, 0, 0)
  memBase := 0
  memLimit := 0
  cmd := 0
  brCtl := 0
  lnkCtl := 0
  sltCtl := 0
  devCtl := 0
  acs := 0
  aerUnc := 0
  aerCor := 0
  aerSev := 0x62030
  lnkCap := 0
  lnkSta := 0
  active := false
  changed := false
  training := false
  presence := false
  presChg := false
  l1ss := 0
  dstate := 0
  pmeAck := false
  job := none

/-- What an endpoint function of the hub takes memory requests by: Command and BAR 0. -/
structure PciFn where
  cmd : Half
  bar : Nat
  deriving DecidableEq, Repr

def PciFn.init : PciFn := ⟨0, 0⟩

structure PcieSt where
  /-- UP, DP0 to DP3. -/
  links   : List PciLink
  /-- Bridges 0 to 15 of a HOSTSIDE hub; index 0 leads to the network function. -/
  bridges : List PciEnd
  /-- Registers of the upstream port. -/
  up      : PciEnd
  /-- DP0 to DP3. -/
  ports   : List PciEnd
  /-- The tick of the PME_Turn_Off that is being answered. -/
  pmeWait : Option Tick
  /-- PCIE_BIFURCATION and PCIE_UP_WIDTH as taken at the last training (R287). -/
  bifur   : Nat
  upWidth : Nat
  /-- Function 7 and the network function. -/
  f7      : PciFn
  netFn   : PciFn
  deriving DecidableEq, Repr

def PcieSt.init : PcieSt :=
  ⟨List.replicate 5 .init, List.replicate 16 .init, .init, List.replicate 4 .init, none, 1, 0, .init, .init⟩


/-! ### USB hub (spec/11) -/

/-- The stage of one endpoint direction and stream at the HOSTSIDE USA (R296 to R301). -/
structure UsbStage where
  root    : Nat
  port    : Nat
  addr    : Nat
  ep      : Nat
  dirIn   : Bool
  stream  : Nat
  kind    : Nat
  ss      : Bool
  /-- MaxBurst of the endpoint (R297), and the tick of its first transaction (R300). -/
  burst   : Nat
  started : Tick
  /-- The service interval, as its tick, of each isochronous IN packet staged; a SETUP that waits for a suspended path (R311). -/
  inTicks : List Nat
  setups  : List (List Byte)
  /-- IN packets staged, and whether the last is short or an outcome ended the transfer: XFER_DONE's COUNT. -/
  inPkts  : List (List Byte)
  done    : Option Nat
  /-- Bytes of the OUT packets sent to the remote whose outcome has not come. -/
  outPkts : List Nat
  /-- Packets asked by XFER_REQ and not yet come. -/
  asked   : Nat
  /-- The host was answered NRDY or NAK and waits. -/
  deferred : Bool
  /-- The next transaction is answered STALL (R299, R311). -/
  stall   : Bool
  /-- Reading ahead is allowed until the end of the transfer (R298). -/
  ahead   : Bool
  /-- Sequence number or toggle toward the host. -/
  seq     : Nat
  deriving DecidableEq, Repr

/-- A remote hub as the HOSTSIDE USA holds it, at root ports 2 to 13. -/
structure UsbRemote where
  /-- 0 absent, 1 opening, 2 present, 3 suspended path. -/
  state   : Nat
  tc3     : Option Nat
  tc5     : Option Nat
  tc3Up   : Bool
  tc5Up   : Bool
  /-- Frames discarded for an older EPOCH. -/
  oldFrames : Nat
  /-- The remote's ports 1 to 4 as its PORT_STATE frames give them: state, changes not yet cleared by the host, speed. -/
  ports   : List (Nat × Nat × Nat)
  /-- The root port's connection has changed since the host last cleared it. -/
  changed : Bool
  /-- Epochs of devices: remote port, address and EPOCH (R308). -/
  epochs  : List (Nat × Nat × Nat)
  deriving DecidableEq, Repr

def UsbRemote.init : UsbRemote := ⟨0, none, none, false, false, 0, List.replicate 4 (0, 0, 0), false, []⟩

/-- A downstream port of a remote hub, ports 1 to 4. -/
structure UsbPort where
  power   : Bool
  connected : Bool
  enabled : Bool
  suspended : Bool
  overCur : Bool
  cOverCur : Bool
  cSuspend : Bool
  /-- A PORT_POWER that waits for the switch's retry timer (R304). -/
  powerWait : Bool
  speed   : Nat
  hid     : Bool
  /-- Address and configuration kept (R315), the host's address for it (R316), and whether its first reset was absorbed. -/
  kept    : Bool
  keptAddr : Nat
  hostAddr : Nat
  config  : Nat
  absorb  : Bool
  resuming : Option Tick
  resetting : Bool
  /-- The tick of the last traffic (R315). -/
  trafficAt : Tick
  txs     : Nat
  deferrals : Nat
  discards : Nat
  trips   : Nat
  deriving DecidableEq, Repr

def UsbPort.init : UsbPort :=
  ⟨false, false, false, false, false, false, false, false, 0, false, false, 0, 0, 0, false, none, false, 0, 0, 0, 0, 0⟩

/-- A HID report kept while the host is absent (R315). -/
structure HidReport where
  port  : Nat
  addr  : Nat
  ep    : Nat
  tick  : Tick
  bytes : List Byte
  deriving DecidableEq, Repr

structure UsbSt where
  /-- 0 absent, 1 USB 2.0 only, 2 Gen 1x1, 3 Gen 2x1, 4 suspended. -/
  upstream : Nat
  /-- The host has started resume, and this hub signals wake (R313, R314). -/
  hostResume : Bool
  waking  : Bool
  /-- Root ports 2 to 13 at index 0 to 11. -/
  remotes : List UsbRemote
  stages  : List UsbStage
  aborted : Nat
  underruns : Nat
  isoTick : Option Tick
  /-- Remote hub: ports 1 to 4, whether the host is absent (and since when), the path's port and labels. -/
  ports   : List UsbPort
  ganged  : Bool
  hubOverCur : Bool
  /-- USB_OC_MODE and USB_PORT_MASK as taken at the host's last reset of the hub (R319). -/
  ocMode  : Nat
  portMask : Nat
  inPort  : Nat
  inLabel : Option Nat
  isoLabel : Option Nat
  busState : Nat
  wakeOn  : Bool
  running : Bool
  absent  : Bool
  absentAt : Tick
  /-- KEEPALIVE_S has passed and the host has not returned since (R318). -/
  expired : Bool
  /-- XFER_REQs queued for the devices, and epochs held per port and address. -/
  queue   : List UsbFrame
  epochs  : List (Nat × Nat × Nat)
  /-- Interrupt reports at the far stage, per endpoint: port, endpoint, count (16 at most, R300). -/
  polls   : List (Nat × Nat × Nat)
  /-- Isochronous OUT data that waits for its lag, with the tick of its service interval. -/
  isoOut  : List (UsbFrame × Nat)
  /-- The SETUP packet last received by the own device functions. -/
  fnSetup : List Byte
  hid     : List HidReport
  replayed : Nat
  aged    : Nat
  deriving DecidableEq, Repr

def UsbSt.init : UsbSt where
  upstream := 0
  hostResume := false
  waking := false
  remotes := List.replicate 12 .init
  stages := []
  aborted := 0
  underruns := 0
  isoTick := none
  ports := List.replicate 4 .init
  ganged := false
  hubOverCur := false
  ocMode := 0
  portMask := 15
  inPort := 0
  inLabel := none
  isoLabel := none
  busState := 3
  wakeOn := false
  running := false
  absent := false
  absentAt := 0
  expired := false
  queue := []
  epochs := []
  polls := []
  isoOut := []
  fnSetup := []
  hid := []
  replayed := 0
  aged := 0


/-! ### Network adapter (spec/12) -/

/-- An action word (Table 12.6). -/
structure NetAct where
  action : Nat
  group  : Nat
  away   : Nat
  meter  : Nat
  learn  : Bool
  deriving DecidableEq, Repr

/-- A flow table entry (Table 12.5) in its bucket and way. -/
structure Flow where
  bucket : Nat
  way    : Nat
  key    : List Byte
  rule   : Nat
  gen    : Nat
  static : Bool
  act    : NetAct
  last   : Word
  hits   : Nat
  deriving DecidableEq, Repr

/-- A classification rule, its generation, and whether it is set (R334, R338). -/
structure NetRule where
  index : Nat
  gen   : Nat
  isSet : Bool
  value : List Byte
  mask  : List Byte
  act   : NetAct
  deriving DecidableEq, Repr

/-- A meter (R339): tokens in 1/64 byte, and the slot, counted from tick 0, at which they were last filled. -/
structure Meter where
  id    : Nat
  mbps  : Nat
  burst : Nat
  tokens : Nat
  filled : Nat
  drops : Nat
  deriving DecidableEq, Repr

/-- One MAC. -/
structure MacSt where
  up      : Bool
  /-- SPEED code of Table 12.3, and NET_MAX_FRAME as taken when the link came up. -/
  speed   : Nat
  mode    : Nat
  maxFrame : Nat
  /-- Receive buffer: frames waiting for TC2, oldest first; PAUSE sent. -/
  rxBuf   : List (List Byte)
  paused  : Bool
  /-- A received PAUSE holds transmission until this tick; frames that wait to be sent (R322). -/
  pauseEnd : Option Tick
  txBuf   : List (List Byte)
  framesIn : Nat
  framesOut : Nat
  short   : Nat
  long    : Nat
  fcs     : Nat
  overflow : Nat
  txDrops : Nat
  deriving DecidableEq, Repr

def MacSt.init : MacSt := ⟨false, 0, 0, 1522, [], false, none, [], 0, 0, 0, 0, 0, 0, 0⟩

/-- A ring of the network function (Table 12.3). -/
structure NetRing where
  base : Nat
  size : Nat
  tail : Nat
  head : Nat
  /-- The head last written back. -/
  back : Nat
  deriving DecidableEq, Repr

def NetRing.init : NetRing := ⟨0, 0, 0, 0, 0⟩

/-- A flow group of a bound pair (R325, R326): its path at the FUNCTION end, or label at the PORT end. -/
structure NetGroup where
  group    : Nat
  path     : Option Nat
  isOpen   : Bool
  contract : Nat
  job      : Option (Via × Nat)
  deriving DecidableEq, Repr

/-- A stored mDNS record: question name, type and class as given, the response, and when it was last multicast. -/
structure MdnsRec where
  index    : Nat
  question : List Byte
  response : List Byte
  sent     : Option Tick
  deriving DecidableEq, Repr

structure NetSt where
  macs    : List MacSt
  /-- The MAC that the binding uses. -/
  boundMac : Nat
  /-- The FUNCTION end knows the MAC: `net.bind` gave it, or LINK_STATE has told the PORT end's NET_BIND_MAC (R325). -/
  macKnown : Bool
  bound   : Bool
  hops    : Nat
  chain   : Nat
  binding : Bool
  groups  : List NetGroup
  /-- PORT end: cable port of the binding's paths and labels of the groups. -/
  inPort  : Nat
  labels  : List (Nat × Nat)
  suspended : Bool
  /-- The network function. -/
  enable  : Bool
  promisc : Bool
  queues  : Nat
  d3hot   : Bool
  pmeStatus : Bool
  pmeEn   : Bool
  macAddr : Nat
  wb      : Nat
  tx      : List NetRing
  rx      : List NetRing
  farLink : Bool
  farSpeed : Nat
  farMax  : Nat
  /-- Slots, counted from tick 0, at the last write-back (R331). -/
  wbAt    : Nat
  fetchDrops : Nat
  rxDrops : Nat
  /-- Flow table, rules, rule changes waiting for the tick boundary, meters. -/
  flows   : List Flow
  rules   : List NetRule
  ruleNext : List NetRule
  meters  : List Meter
  learnFails : Nat
  svcDrops : Nat
  flowTick : Option Tick
  ovfTick : Option Tick
  ovfCount : Nat
  /-- Presence: 1 present, 2 absent; the PRESENCE message last received; a change due at the next boundary. -/
  absent  : Bool
  saidAbsent : Bool
  hostMac : Nat
  v4      : List (Nat × Nat × Bool)
  v6      : List (Nat × List Byte × Bool)
  mdns    : List MdnsRec
  patterns : List (Nat × List Byte × List Byte)
  magic   : Bool
  wakePending : Bool
  wakeAt  : Tick
  wakeBuf : List (Tick × List Byte)
  arp     : Nat
  nd      : Nat
  mdnsCnt : Nat
  wakes   : Nat
  bufCnt  : Nat
  bufDrops : Nat
  deriving DecidableEq, Repr

def NetSt.init : NetSt where
  macs := [.init, .init]
  boundMac := 0
  macKnown := false
  bound := false
  hops := 0
  chain := 0
  binding := false
  groups := []
  inPort := 0
  labels := []
  suspended := false
  enable := false
  promisc := false
  queues := 1
  d3hot := false
  pmeStatus := false
  pmeEn := false
  macAddr := 0
  wb := 0
  tx := List.replicate 8 .init
  rx := List.replicate 8 .init
  farLink := false
  farSpeed := 0
  farMax := 1522
  wbAt := 0
  fetchDrops := 0
  rxDrops := 0
  flows := []
  rules := []
  ruleNext := []
  meters := []
  learnFails := 0
  svcDrops := 0
  flowTick := none
  ovfTick := none
  ovfCount := 0
  absent := false
  saidAbsent := false
  hostMac := 0
  v4 := []
  v6 := []
  mdns := []
  patterns := []
  magic := false
  wakePending := false
  wakeAt := 0
  wakeBuf := []
  arp := 0
  nd := 0
  mdnsCnt := 0
  wakes := 0
  bufCnt := 0
  bufDrops := 0


/-! ### Sideband bridge (spec/13) -/

/-- Who waits for a sideband transaction or a lock. -/
inductive SbOrigin where
  /-- A command of this hub: transport and completion handle. -/
  | cmd (via : Via) (handle : Nat)
  /-- A frame from a cable port, with its sender's number of the transaction. -/
  | frame (port num : Nat)
  /-- A local device whose read a target interface holds. -/
  | target (intf : Nat)
  /-- A write posted from a target interface. -/
  | posted (intf : Nat)
  deriving DecidableEq, Repr

/-- A transaction running or queued on a destination interface of this hub, or sent on and not answered. -/
structure SbTx where
  num    : Nat
  origin : SbOrigin
  route  : SbRoute
  xfer   : SbXfer
  /-- Sent on a cable port, running on the interface here, or queued behind a lock or another transaction. -/
  sentOn : Option Nat
  running : Bool
  tries  : Nat
  deriving DecidableEq, Repr

/-- A lock held on a destination interface (R353). -/
structure SbLock where
  handle : Nat
  kind   : Nat
  intf   : Nat
  holder : SbHolder
  origin : SbOrigin
  /-- Wounded: released when its transaction in progress completes (R354). -/
  wounded : Bool
  /-- When its lease began (SB_LOCK_MS). -/
  since  : Tick
  deriving DecidableEq, Repr

/-- A lock request that waits (here, or at the hub it was sent to). -/
structure SbWait where
  num    : Nat
  origin : SbOrigin
  route  : SbRoute
  holder : SbHolder
  sentOn : Option Nat
  /-- Sent on a cable port, and no longer held back by the eight outstanding (R351). -/
  sent   : Bool
  /-- When it began to wait (SB_LOCK_WAIT_MS). -/
  since  : Tick
  deriving DecidableEq, Repr

/-- A lock that a party of this hub holds: handle, the cable port its destination lies on, and when it obtained it. -/
structure SbHeld where
  handle : Nat
  port   : Option Nat
  tick   : Tick
  slot   : Nat
  deriving DecidableEq, Repr

/-- A held read of a target interface (R352): interface, address, bytes asked, the transaction's number, slots since tick 0 when SCL was
held. -/
structure SbHold where
  intf   : Nat
  addr   : Nat
  reads  : Nat
  num    : Nat
  since  : Nat
  deriving DecidableEq, Repr

/-- A party's age record (R353, R354): when it first asked, or the age it kept; when it was wounded; the locks it holds in the order it
obtained them. -/
structure SbAge where
  chan   : Nat
  cred   : Nat
  tick   : Tick
  slot   : Nat
  wounded : Option Tick
  held   : List SbHeld
  deriving DecidableEq, Repr

structure SbSt where
  routes  : List (Option SbRoute)
  txs     : List SbTx
  locks   : List SbLock
  waits   : List SbWait
  ages    : List SbAge
  nextNum : Nat
  nextLock : Nat
  pending : Word
  /-- IRQ mask of LOCAL, TUNNEL, PEER and DEBUG. -/
  irqMask : List Word
  irqTick : Option Tick
  holdTimeouts : Nat
  busErrs : Nat
  /-- Interface modes in force (I2C0 to I2C3), taken when idle and without a lock (R359). -/
  modes   : List Nat
  gpioOut : BitVec 16
  gpioDir : BitVec 16
  holds   : List SbHold
  /-- Locks whose grant this hub passed on: handle, cable port toward the holder, cable port toward the bus. -/
  passed  : List (Nat × Nat × Nat)
  /-- Duty and last tachometer speed of FAN0 to FAN3. -/
  duty    : List Nat
  rpm     : List Nat
  /-- Fans whose tachometer fell below 10 % of the expected speed, the interrupt latched, and EV125 not yet due (R355, R358). -/
  fanLow  : List Bool
  /-- Receive and transmit FIFOs of UART0 and UART1, and the part of a byte time that has passed, in 1/320,000 (Table 13.1). -/
  uartRx  : List (List Byte)
  uartTx  : List (List Byte)
  uartAcc : List Nat
  deriving DecidableEq, Repr

def SbSt.init : SbSt where
  routes := List.replicate 64 none
  txs := []
  locks := []
  waits := []
  ages := []
  nextNum := 1
  nextLock := 1
  pending := 0
  irqMask := [0, 0, 0, 0]
  irqTick := none
  holdTimeouts := 0
  busErrs := 0
  modes := [2, 2, 2, 2]
  gpioOut := 0
  gpioDir := 0
  holds := []
  passed := []
  duty := [0, 0, 0, 0]
  rpm := [0, 0, 0, 0]
  fanLow := [false, false, false, false]
  uartRx := [[], []]
  uartTx := [[], []]
  uartAcc := [0, 0]


/-! ### Memory system (spec/14) -/

/-- State of the LPDDR interface (`mem.show`). -/
inductive Lpddr where
  | absent | training | active | selfRefresh | failed
  deriving DecidableEq, Repr

def Lpddr.code : Lpddr → Nat
  | .absent => 0
  | .training => 1
  | .active => 2
  | .selfRefresh => 3
  | .failed => 4

/-- Faulty check bits armed for the next write of a word, or held by a word already written (R376, R363): the address of
the word (8 bytes) and whether the error cannot be corrected. -/
structure EccFault where
  word  : Nat
  hard  : Bool
  armed : Bool
  deriving DecidableEq, Repr

/-- The memory that masters reach (Table 19.7), its controller and counters. -/
structure MemSt where
  /-- Bytes of MB, SB, Lichen store, USB endpoint memory, planner tables and LPDDR at interconnect addresses, in one
  canonical form: addresses strictly rising, no byte 0 listed (an unlisted byte reads 0, log entry 6). -/
  cells    : List Host.Cell
  lpddr    : Lpddr
  /-- Rate code trained, installed GiB, and that trained values are stored. -/
  rate     : Nat
  gib      : Nat
  trained  : Bool
  faults   : List EccFault
  /-- LPDDR ECC counts and the word address of the last uncorrectable error; internal SRAM counts; collisions of masters (Table 14.7). -/
  corrected : Nat
  uncorrected : Nat
  lastUnc  : Nat
  sramCor  : Nat
  sramUnc  : Nat
  collisions : Nat
  collNow  : Nat
  corTick  : Option Tick
  corSince : Nat
  /-- Words that this pass of the patrol scrub has read, and when the pass began (R371). -/
  scrubDone : Nat
  scrubFrom : Tick
  /-- When DQS drift was last measured, or training passed (R369). -/
  dqsAt    : Tick
  conflicts : List Nat
  /-- Frame stores: stream identifier, offset in the frame-store part of HOLD and size, in 2 MiB units. -/
  stores   : List (Nat × Nat × Nat)
  deriving DecidableEq, Repr

def MemSt.init : MemSt where
  cells := []
  lpddr := .training
  rate := 0
  gib := 4
  trained := false
  faults := []
  corrected := 0
  uncorrected := 0
  lastUnc := 0
  sramCor := 0
  sramUnc := 0
  collisions := 0
  collNow := 0
  corTick := none
  corSince := 0
  scrubDone := 0
  scrubFrom := 0
  dqsAt := 0
  conflicts := List.replicate 16 0
  stores := []


/-! ### Service cluster (spec/15) -/

/-- A DMA copy in progress for an instance: source and destination offsets and length. -/
structure SvcDma where
  src : Nat
  dst : Nat
  len : Nat
  deriving DecidableEq, Repr

/-- A service with a package in the store or among the shipped ones, and its instance (R381, R391, R398). -/
structure InstSt where
  id      : Nat
  shipped : Bool
  /-- 0 stopped, 1 running, 2 suspended, 3 migrating. -/
  state   : Nat
  core    : Nat
  /-- Core it left under R394, to go back to. -/
  home    : Nat
  /-- Class as run: 0 FLOOR, 1 NORMAL, 2 BACKGROUND. -/
  cls     : Nat
  opp     : Nat
  slots   : Nat
  caps    : Nat
  memKib  : Nat
  scratch : Nat
  codeBytes : Nat
  persist : Bool
  /-- Ready to run; the tick at which a timer it waits for falls due; waiting for an event. -/
  ready   : Bool
  timer   : Option Tick
  waitsEv : Bool
  /-- Slots run in the last tick and in this one, and ticks ready without heartbeat or wait. -/
  ran     : Nat
  runNow  : Nat
  silent  : Nat
  restarts : List Tick
  faults  : Nat
  lastFault : Nat
  /-- When it faulted, while its restart is due (R398). -/
  restartDue : Option Tick
  /-- Events it waits for, as its last wait call gave them (R392). -/
  mask    : BitVec 192
  events  : List EventEntry
  lostEvents : Nat
  gateReply : Option Reply
  gateBusy : Bool
  frames  : List (List Byte)
  dma     : Option SvcDma
  /-- `svc.data.put` bytes: offset and content, and the notice. -/
  notice  : Bool
  deriving DecidableEq, Repr

/-- A placement change that waits or runs (R393): instance, from core, to core, whether its copy has begun, and whether a change of
chip state asked for it. -/
structure Migration where
  id   : Nat
  src  : Nat
  dst  : Nat
  copy : Bool
  chip : Bool
  deriving DecidableEq, Repr

/-- A service core. -/
structure CoreSt where
  /-- 0 disabled, 1 active, 2 draining, 3 drained, 4 lost. -/
  state   : Nat
  /-- The instance it ran last, and the slots left of its quantum (R389). -/
  cur     : Nat
  left    : Nat
  job     : Option (Via × Nat)
  /-- Its Woeri has run in this tick; ticks with a slice in which it has not (R396). -/
  beat    : Bool
  mute    : Nat
  deriving DecidableEq, Repr

def CoreSt.fresh (state : Nat) : CoreSt := ⟨state, 0, 0, none, false, 0⟩

structure SvcSt where
  /-- The cluster runs (Woeri started). -/
  on      : Bool
  cores   : List CoreSt
  insts   : List InstSt
  moves   : List Migration
  /-- Package bytes staged, by channel number (R406, R104). -/
  staged  : List (List Byte)
  /-- KEEPALIVE has raised its wake in this absence (R402). -/
  hidWoke : Bool
  /-- Fleet periods without an answer; contact is lost from 3 on. -/
  fleetMiss : Nat
  /-- The last fleet report, and the last redraw of each DPX's status line. -/
  fleetAt : Option Tick
  redrawAt : List (Option Tick)
  /-- Instances off cores 2 to 7 in REDUCED (R394). -/
  reduced : Bool
  deriving DecidableEq, Repr

def SvcSt.init : SvcSt :=
  ⟨false, List.replicate 8 (.fresh 1), [], [], [[], [], [], [], []], false, 0, none, List.replicate 4 none, false⟩


/-! ### Cable power (spec/16) -/

/-- Why the hub sent a PD message that waits for GoodCRC or for the partner's response. -/
inductive PdFor where
  | none
  /-- `cpwr.msg.send`, with its completion handle if it was given one. -/
  | msg (job : Option (Via × Nat))
  /-- The Request of a sink; the DR_Swap, PR_Swap or VCONN_Swap; discovery; mode entry or exit. -/
  | request | swap | discover | mode
  deriving DecidableEq, Repr

/-- A message sent and not yet acknowledged by GoodCRC (R413). -/
structure PdOut where
  sop    : Nat
  kind   : PdKind
  objs   : List Word
  resends : Nat
  what   : PdFor
  deriving DecidableEq, Repr

/-- A message in the receive queue (R413). -/
structure PdQueued where
  sop    : Nat
  header : Half
  tick   : Tick
  objs   : List Word
  needs  : Bool
  deriving DecidableEq, Repr

/-- A swap (R421 to R424): kind 0 PR, 1 DR, 2 VCONN; asked by this hub; phase 0 queued, 1 request sent or received, 2 Accept
acknowledged, 3 old source's PS_RDY acknowledged, 4 complete; and the command's handle. -/
structure PdSwap where
  kind  : Nat
  own   : Bool
  phase : Nat
  job   : Option (Via × Nat)
  deriving DecidableEq, Repr

/-- The timers of a channel (R413 to R432, Table 16.7). -/
inductive CcTimer where
  | goodCrc | sinkTx | ask | srcTransition | snkRequestWait | psTransition | psSourceOff | psSourceOn | srcRecover
  | eprKeepalive | eprTimeout | errorRecovery | enterRetry | senderResponse | drp
  deriving DecidableEq, Repr

/-- One configuration channel. -/
structure CcSt where
  /-- STATE of Table 16.9. -/
  state  : Nat
  src    : Bool
  dfp    : Bool
  vconnSrc : Bool
  vconnOn : Bool
  vconnFault : Bool
  pinB5  : Bool
  ra     : Bool
  pd     : Bool
  rev    : Nat
  /-- CC role in use (Table 16.7), Rp shown now (0 to 2), the configured Rp taken at attach, the partner's Rp seen as a sink, DRP side
  (true Rp). -/
  role   : Nat
  rp     : Nat
  rpBase : Nat
  farRp  : Nat
  drpSrc : Bool
  /-- CONTRACT, its voltage and current, and the contribution to P_pd. -/
  contract : Nat
  mv     : Nat
  ma     : Nat
  contrib : Nat
  position : Nat
  quiet  : Bool
  mode   : Nat
  armed  : Nat
  /-- Receive queue and messages dropped; hard resets; messages without GoodCRC. -/
  queue  : List PdQueued
  dropped : Nat
  hardResets : Nat
  msgFails : Nat
  /-- Loaded capabilities, and the partner's source capabilities. -/
  srcCaps : List Word
  snkCaps : List Word
  farCaps : List Word
  /-- A queued own message not yet begun (R414), and the message that waits for GoodCRC. -/
  queued : Option PdOut
  sent   : Option PdOut
  /-- Messages that follow the one that waits for GoodCRC; the MessageID next sent and the one last received, by packet type. -/
  outq   : List PdOut
  txIds  : List Nat
  rxIds  : List (Option Nat)
  /-- The timers that run, each with the tick at which it ends. -/
  timers : List (CcTimer × Tick)
  /-- What the hub waits the partner's response for. -/
  waiting : PdFor
  /-- What is asked of the local controller: 0 Request, 1 PR, 2 DR, 3 VCONN; and the RDO asked about. -/
  asked  : Option Nat
  rdo    : Word
  /-- Source: the voltage and current that follow an Accept. Sink: those requested. -/
  nextMv : Nat
  nextMa : Nat
  moving : Bool
  reqJob : Option (Via × Nat)
  swap   : Option PdSwap
  /-- A hard reset is in progress: until the source has restored vSafe5V (R410, R418). -/
  recovering : Bool
  epr    : Bool
  /-- Discovery (R426): 0 none, 1 to 3 its first steps, 4 and 5 Discover Modes for 0x1E9B and 0xFF01, 6 done; identities of SOP and SOP', SVIDs, mode VDOs. -/
  discStep : Nat
  idSop  : List Word
  idCable : List Word
  svids  : List Nat
  vendorVdo : Word
  dpVdo  : Word
  /-- Mode entry in progress: mode, when it began, handle. -/
  entering : Option (Nat × Tick × Option (Via × Nat))
  autoDr : Bool
  hadContract : Bool
  deriving DecidableEq, Repr

def CcSt.init : CcSt where
  state := 1
  src := false
  dfp := false
  vconnSrc := false
  vconnOn := false
  vconnFault := false
  pinB5 := false
  ra := false
  pd := false
  rev := 1
  role := 0
  rp := 0
  rpBase := 0
  farRp := 0
  drpSrc := true
  contract := 0
  mv := 0
  ma := 0
  contrib := 0
  position := 0
  quiet := false
  mode := 0
  armed := 0
  queue := []
  dropped := 0
  hardResets := 0
  msgFails := 0
  srcCaps := []
  snkCaps := []
  farCaps := []
  queued := none
  sent := none
  outq := []
  txIds := [0, 0, 0]
  rxIds := [none, none, none]
  timers := []
  waiting := .none
  asked := none
  rdo := 0
  nextMv := 0
  nextMa := 0
  moving := false
  reqJob := none
  swap := none
  recovering := false
  epr := false
  discStep := 0
  idSop := []
  idCable := []
  svids := []
  vendorVdo := 0
  dpVdo := 0
  entering := none
  autoDr := false
  hadContract := false


/-! ### Power path (spec/17) -/

/-- A feed input (R437, R438): present, its ORing gate, measured voltage and current. -/
structure FeedSt where
  present : Bool
  gate    : Bool
  mv      : Nat
  ma      : Nat
  deriving DecidableEq, Repr

def FeedSt.init : FeedSt := ⟨false, false, 0, 0⟩

/-- A VBUS switch (R441 to R443). -/
structure VbusSt where
  /-- 0 off, 1 source, 2 sink, 3 retry wait (`ppath.vbus.show`). -/
  state   : Nat
  rail    : Nat
  mv      : Nat
  ma      : Nat
  /-- Voltage asked for, and that VBUS has settled there. -/
  target  : Nat
  settled : Bool
  faults  : Nat
  /-- A switch-on asked for while the retry timer runs: its voltage. -/
  wants   : Option Nat
  /-- The discharge path is enabled (R442), and the tick of the last fault, from which the retry timer runs (R443). -/
  bleed   : Bool
  faultAt : Tick
  deriving DecidableEq, Repr

def VbusSt.init : VbusSt := ⟨0, 0, 0, 0, 0, true, 0, none, false, 0⟩

/-- States of a bay channel (Table 17.2), in its order. -/
inductive BayState where
  | unseated | seating | off | ramp | on | limit | faultWait | lockout
  deriving DecidableEq, Repr

/-- A bay channel (R444 to R453). -/
structure BaySt where
  state   : BayState
  /-- The state to which LIMIT returns. -/
  back    : BayState
  request : Bool
  inhibit : Bool
  cause   : Nat
  pg      : Bool
  mv      : Nat
  ma      : Nat
  /-- Requests made before a shed do not switch the bay on again (log entry 25). -/
  shed    : Bool
  /-- FET temperature in 10^-6 °C, none until first read; a diode failure has put the bay on MODEL. -/
  temp    : Option Int
  diodeBad : Bool
  retries : Nat
  /-- Fault count in µs (R446), retry timer running, faults counted, tick of the last EV166. -/
  count   : Nat
  retry   : Bool
  faults  : Nat
  hotTick : Option Tick
  retryTick : Tick
  /-- FAULT_WAIT or LOCKOUT in which the short pin opened (R451), and when it opened. -/
  before  : BayState
  openTick : Tick
  /-- Since it was last seated the bay has been open for at least SEAT_DEBOUNCE_MS. -/
  removed : Bool
  /-- When the short pin closed (SEAT_DEBOUNCE_MS runs from it), when the ramp began and when PG rose. -/
  closeTick : Tick
  rampTick : Tick
  pgTick  : Tick
  /-- The bay's fields as taken at its last entry to OFF (R454): ILIM, RAMP, FAULT, RETRY, RETRIES, TSENSE, TLIM, RDSON, RTH, TAU,
  AUTO. -/
  par     : List Nat
  deriving DecidableEq, Repr

/-- A bay at power-on reset: its retries are at the default of BAYn_RETRIES, and the first board in it is new. -/
def BaySt.init : BaySt :=
  ⟨.unseated, .ramp, false, false, 0, false, 0, 0, false, none, false, 3, 0, false, 0, none, 0, .off, 0, true, 0, 0, 0,
    [3000, 1000, 20, 1000, 3, 1, 125, 5, 400, 2000, 0]⟩

structure PpathSt where
  feeds : List FeedSt
  vbus  : List VbusSt
  bays  : List BaySt
  pIn   : Nat
  pOut  : Nat
  pFeed : Nat
  sheds : Nat
  /-- A feed has been present since power-on. -/
  fed   : Bool
  /-- The tick of the last shed (R440). -/
  shedTick : Option Tick
  deriving DecidableEq, Repr

def PpathSt.init : PpathSt :=
  ⟨[.init, .init], List.replicate 6 .init, List.replicate 4 .init, 0, 0, 0, 0, false, none⟩


/-! ### Power states (spec/18) -/

/-- The power state manager and the HEADER of the Lichen store (R457 to R475). -/
structure PwrSt where
  /-- STATE (Table 3.5): 0 ACTIVE, 1 REDUCED, 2 IDLE, 3 RETAIN, 4 HIBERNATE. -/
  state   : Nat
  target  : Nat
  /-- The state that the next local plan started enters (R234). -/
  next    : Option Nat
  /-- The state that the local plan in the shadow buffer enters. -/
  planned : Option Nat
  /-- Entry phase: 0 none, 1 Q, 2 S, 3 P, 4 exit; the goal 3 or 4 of the entry, and the state it left from. -/
  phase   : Nat
  /-- The tick at which phase Q or the exit began. -/
  since   : Tick
  goal    : Nat
  left    : Nat
  /-- WAKE_MASK, NEX_IN_RETAIN and WAKE_TIMER_S as taken at entry (R476). -/
  mask    : Nat
  nex     : Bool
  timer   : Nat
  /-- The wake source last recorded, and the one that began the exit (R475). -/
  wake    : Nat
  woke    : Nat
  /-- A wake latched in phase P (R465). -/
  latched : Bool
  entryTick : Tick
  job     : Option (Via × Nat)
  /-- CORE_VID floor in mV, smallest margin in ps, ticks with margin to spare (R473). -/
  floor   : Nat
  margin  : Nat
  spare   : Nat
  idleCount : Nat
  entries : Nat
  aborts  : Nat
  /-- Forward bias of SVC0 to SVC7, SRAM write assist, and the gating of the switch datapath in IDLE (R459, R474). -/
  fwd     : List Bool
  /-- Domains SVC0 to SVC7 that their core has powered (R380). -/
  lit     : List Bool
  assist  : Bool
  gated   : Bool
  /-- HEADER: valid flag, entry state, role, the 32.768 kHz count and the channel that asked for the entry; lists saved, by order 0 to 8
  of Table 18.4; RESUME written. -/
  valid   : Bool
  count32 : Nat
  cause   : Nat
  entryState : Nat
  hdrRole : Nat
  saved   : List Bool
  resume  : Bool
  deriving DecidableEq, Repr

def PwrSt.init : PwrSt where
  state := 4
  target := 0
  next := none
  planned := none
  phase := 0
  since := 0
  goal := 0
  left := 0
  mask := 0x1FF
  nex := false
  timer := 0
  wake := 0
  woke := 0
  latched := false
  entryTick := 0
  job := none
  floor := 600
  margin := 0
  spare := 0
  idleCount := 0
  entries := 0
  aborts := 0
  fwd := List.replicate 8 false
  lit := List.replicate 8 false
  assist := false
  gated := false
  valid := false
  count32 := 0
  cause := 0
  entryState := 0
  hdrRole := 1
  saved := List.replicate 9 false
  resume := false


/-! ### What the block puts out

`out` is the model's own field (log entry 2): what the last command sent on pins, cables, buses and links, in order. -/

inductive Emit where
  /-- A mailbox reply made available on its transport. -/
  | reply (via : Via) (r : Reply)
  /-- Bytes driven back on a transport: MISO, an I3C read, a USB data stage, DBG_MBX. -/
  | bytes (via : Via) (bs : List Byte)
  /-- The byte driven on MISO for the rest of chip select (R72, R76). -/
  | rest (b : Byte)
  /-- XSPI_RST_N driven low for 10 µs at least and released, the flash in 1S-1S-1S mode; then its mode changed to 8D-8D-8D (R508, R579). -/
  | xspiReset
  | xspiOctal
  /-- A cell sent on a cable port with what follows it: the tag of its coach or its own, or the trailer of R159. A cell of a coach names its
  lane; a cell of KIND 2 to 6 goes between coaches on a lane that is in a run. -/
  | cell (port : Nat) (lane : Option Nat) (c : Cell) (trailer : List Byte)
  /-- Units that error injection has struck on a lane (R141): mode, SYMBOLS, and how many. -/
  | inject (port lane mode symbols n : Nat)
  /-- A cell delivered by the switch to a local port's adapter. -/
  | toAdapter (port : Nat) (c : Cell)
  /-- A chunk offered on a stream's path, as its cells (R243). -/
  | chunk (stream : Nat) (cells : List Cell)
  /-- An audio SDP offered on a stream's audio path (R242). -/
  | audioSdp (stream : Nat) (cells : List Cell)
  /-- A CONTROL chunk of the DPX pair (Tables 9.2 and 9.4). -/
  | control (dpx : Nat) (bytes : List Byte)
  /-- HPD driven toward the GPU: level, or a low pulse of 0.75 ms. -/
  | hpd (dpx : Nat) (level pulse : Bool)
  /-- An answer on a SINK end's AUX channel: 0 ACK, 1 NACK, 2 I2C NACK, 3 DEFER. -/
  | auxAnswer (dpx reply : Nat) (data : List Byte)
  /-- An AUX transaction on a panel. -/
  | panelAux (dpx cmd addr : Nat) (data : List Byte)
  /-- A line sent to a panel: 0 live, 1 live with concealed spans, 2 from the frame store, 3 idle pattern; and the overlay blended in. -/
  | panelLine (dpx stream line kind : Nat) (data : List Byte) (overlay : Bool)
  /-- A frame started at a panel: its start in 1/64 ns on the 16-bit tick count, and the lines and pixel clocks of the frame before it. -/
  | panelFrame (dpx stream start lines : Nat) (clocks : Int)
  /-- A new MSA (R244), an SDP and an audio SDP, which is empty for silence (R250), sent to a panel. -/
  | panelMsa (dpx stream : Nat) (d : FrameDesc)
  | panelSdp (dpx stream : Nat) (data : List Byte)
  | panelAudio (dpx stream : Nat) (data : List Byte)
  /-- Training of a panel's link at a rate code and lane count; with no lanes the link goes off, and the panel sees loss of signal. -/
  | panelTrain (dpx rate lanes : Nat)
  /-- PME_TO_Ack returned to the root complex (Table 10.2). -/
  | pmeAck
  /-- A frame of a bridge's path (Table 10.5) as its cells: the end (bridge, or 16 + DP), type and FC. -/
  | pcieFrame (pciEnd typ fc : Nat) (cells : List Cell)
  /-- A TLP sent on a physical link. -/
  | tlp (link : Nat) (t : Tlp)
  /-- A completion made by the hub on a link, with its Completer ID: status 0 successful, 1 UR, 4 CA. -/
  | cpl (link completer rid tag status : Nat) (data : List Byte)
  /-- An error message to the root complex, of a bridge or of the upstream port (0): severity 0 ERR_COR, 1 ERR_NONFATAL, 2 ERR_FATAL. -/
  | errMsg (bridge sev : Nat)
  /-- Hot reset, training, or PERST# (level) driven on a physical link. -/
  | hotReset (link : Nat)
  | pcieTrain (link : Nat)
  /-- The upstream PCI Express (0) or USB (1) link goes down with a reset of the hub (R539). -/
  | upstreamOff (usb : Nat)
  | perst (port : Nat) (level : Bool)
  /-- PCI Express flow-control credits returned to the link partner. -/
  | linkCredits (link fc data : Nat)
  /-- A USB tunnel frame sent, as its cells, on the path of a root port (HOSTSIDE) or up (0). -/
  | usbFrame (root : Nat) (cells : List Cell)
  /-- A handshake to the host: 0 ACK, 1 NRDY or NAK, 2 STALL, 3 ERDY, 4 NYET, 5 zero-length data; data for an IN. -/
  | usbAnswer (root addr ep : Nat) (answer : Nat) (data : List Byte)
  /-- A transaction performed on a remote port's device. -/
  | usbDevice (port addr ep : Nat) (dirIn setup : Bool) (data : List Byte)
  /-- Bus signalling: 0 suspend, 1 resume, 2 SOF, 3 reset on a remote port (0 all), or upstream wake with port 255. -/
  | usbBus (port signal : Nat)
  /-- A message on a flow group's path (Table 12.2) as its cells. -/
  | netMsg (group : Nat) (cells : List Cell)
  /-- A frame sent by a MAC, padded and with its FCS. -/
  | ethFrame (mac : Nat) (bs : List Byte)
  /-- A PAUSE frame with the given quanta. -/
  | pause (mac quanta : Nat)
  /-- Bytes written to host memory: a receive buffer, a descriptor (Table 12.4) or a write-back. -/
  | hostWrite (addr : Nat) (bs : List Byte)
  /-- A frame given to SVC over the local path (TC1). -/
  | toService (bs : List Byte)
  /-- PM_PME of the network function. -/
  | pmPme
  /-- A transaction started on a bus of this hub: kind, interface, device, reads, repeated START, data. -/
  | sbBus (kind intf dev reads : Nat) (rs : Bool) (data : List Byte)
  /-- Nine clocks and a STOP on an I2C interface (R349). -/
  | sbClocks (intf : Nat)
  /-- An answer on a target interface: 0 not acknowledged, 1 acknowledged and held, 2 data. -/
  | sbTarget (intf answer : Nat) (data : List Byte)
  /-- Bytes sent on a UART in a tick. -/
  | uart (idx : Nat) (data : List Byte)
  /-- A fan's duty. -/
  | fan (idx duty : Nat)
  /-- What a master's access got: data read, or a denial. -/
  | memData (master : Nat) (bs : List Byte)
  | memDenied (master : Nat)
  /-- A FENCE has completed (R499). -/
  | fenced (master : Nat)
  /-- A channel's delays retrained (R369), and a bank refreshed (R370). -/
  | dqsRetrain (channel : Nat)
  | refresh (bank : Nat)
  /-- What a Woeri call returned to an instance: 0 done, 1 DENIED, 2 busy, 3 nothing; and data. -/
  | woeri (inst result : Nat) (bs : List Byte)
  /-- A frame an instance sent on a TC1 or TC0 path from port 10. -/
  | svcFrame (inst path : Nat) (cells : List Cell)
  /-- A fleet report (R403) to a server and port from a MAC: status words and the events since the last one. -/
  | fleetReport (server port mac : Nat) (words : List Word) (events : List EventEntry)
  /-- HPD of the DisplayPort alternate mode presented to the fallback DPX as its panel's (R430): level and IRQ. -/
  | panelHpd (dpx : Nat) (level irq : Bool)
  /-- A PD message sent on a channel: packet type, kind, MessageID, data objects. -/
  | pd (chan sop : Nat) (kind : PdKind) (id : Nat) (objs : List Word)
  /-- Hard Reset (0) or Cable Reset (1) signalled. -/
  | hardReset (chan kind : Nat)
  /-- What a channel presents: 0 Rp, 1 Rd, 2 neither; the Rp current; VCONN on. -/
  | ccPins (chan what rp : Nat) (vconn : Bool)
  /-- The multiplexer of a cable port: position and QUIET. -/
  | mux (port position : Nat) (quiet : Bool)
  /-- The share of the ORing gates in 1/1000 for FEED0, the rest for FEED1. -/
  | orGates (share : Nat)
  /-- A VBUS switch: rail and voltage in mV (0 off), the slew of a rise in mV per ms, and its discharge path. With the discharge path the
  rail's pair closes once VBUS is within 5 % above the voltage (R442). -/
  | vbus (sw rail mv slew : Nat) (bleed : Bool)
  /-- A bay's gate: 0 off, 1 ramp, 2 enhanced, 3 regulated; and its PG ball. -/
  | bayGate (bay gate : Nat) (pg : Bool)
  /-- Boundary-scan cells shifted out by JTAG, and cells driven by EXTEST (R578). -/
  | scan (cells : List Bool)
  | boundary (cells : List Bool)
  /-- RETRY_LATER of the hardware for a request that found no firmware is an ordinary `reply`; this is a switch of a power
  domain (Table 18.1 order): on or off. -/
  | domain (idx : Nat) (on : Bool)
  /-- Body bias in mV of SVC0 to SVC7 (1 to 8), and of the AON logic (0); SRAM write assist (R474). -/
  | bias (unit : Nat) (mv : Int)
  | assist (on : Bool)
  /-- The domain SVCk powered up or down by its core (R380). -/
  | svcDomain (core : Nat) (on : Bool)
  /-- The switch datapath is clocked only in the slots of R459, with −150 mV of bias while it is not. -/
  | swGate (on : Bool)
  deriving DecidableEq, Repr

/-! ### The state -/

structure State where
  /-- Commands waiting to be executed, first in, first out. -/
  pending : List Instr
  out   : List Emit
  /-- Free values drawn so far (log entry 3). -/
  free  : Nat
  /-- Industrial grade (R1). -/
  grade : Bool
  time  : TimeSt
  topo  : TopoSt
  mbx   : MbxSt
  cfg   : CfgSt
  boot  : BootSt
  fault : FaultSt
  pins  : PinSt
  rcd   : RecSt
  trust : TrustSt
  upd   : UpdSt
  cable : CableSt
  sw    : SwitchSt
  plan  : PlanSt
  disp  : DispSt
  pcie  : PcieSt
  usb   : UsbSt
  net   : NetSt
  sb    : SbSt
  mem   : MemSt
  svc   : SvcSt
  /-- CC0 to CC5. -/
  cc    : List CcSt
  ppath : PpathSt
  pwr   : PwrSt
  deriving DecidableEq, Repr

/-- A Latre link is up on a cable port (R47, Table 6.12). -/
def State.linkUp (s : State) (port : Nat) : Bool := 2 ≤ (s.cable.links.getD port .init).state

/-- The machine right after a power-on reset, when the rails are up and Fiddlehead starts (Table 23.5, R534, Table 21.2):
BOOT_STAGE 0, no role applied, every queue empty. -/
def State.reset : State where
  pending := []
  out := []
  free := 0
  grade := true
  time := .init
  topo := .init
  mbx := .init
  cfg := .init
  boot := .init
  fault := .init
  pins := .init
  rcd := .init
  trust := .init
  upd := .init
  cable := .init
  sw := .init
  plan := .init
  disp := .init
  pcie := .init
  usb := .init
  net := .init
  sb := .init
  mem := .init
  svc := .init
  cc := List.replicate 6 .init
  ppath := .init
  pwr := .init

end Sys2Proof.Machine
end

