-- ==== Sys2Proof/Machine/Bits.lean ====
section
/-! DEFINITION. Bit fields, byte order, checks and small list helpers shared by every meaning (R4, R5, R72). -/

namespace Sys2Proof.Machine

/-! ### Fields of numbers -/

/-- The `n` bits of `w` from bit `lo` up (R4). -/
def fieldAt (w lo n : Nat) : Nat := w / 2 ^ lo % 2 ^ n

/-- Bit `k` of `w`. -/
def bitAt (w k : Nat) : Bool := w / 2 ^ k % 2 == 1

def b2n (b : Bool) : Nat := if b then 1 else 0

/-- The number whose bit k is entry k of the list. -/
def packBits : List Bool → Nat
  | [] => 0
  | b :: bs => b2n b + 2 * packBits bs

/-- Addition that saturates at an n-bit counter's largest value. -/
def satAdd (n a b : Nat) : Nat := min (a + b) (2 ^ n - 1)

/-- Subtraction of ticks on the 48-bit counter. -/
def tickDiff (a b : Tick) : Nat := (a - b).toNat

/-- A value clamped to two bounds. -/
def clampTo (lo hi v : Nat) : Nat := if v < lo then lo else if hi < v then hi else v

/-- Division rounded up. -/
def ceilDiv (a b : Nat) : Nat := (a + b - 1) / b

/-! ### Little-endian messages (R5) -/

/-- `n` bytes of `w`, least significant first. -/
def leBytes : Nat → Nat → List Byte
  | 0, _ => []
  | n + 1, w => BitVec.ofNat 8 w :: leBytes n (w / 256)

/-- The number that bytes spell, least significant first. -/
def leNat : List Byte → Nat
  | [] => 0
  | b :: bs => b.toNat + 256 * leNat bs

/-- `n` bytes of `w`, most significant first (cells, R5). -/
def beBytes (n w : Nat) : List Byte := (leBytes n w).reverse

/-- The number that bytes spell, most significant first. -/
def beNat (bs : List Byte) : Nat := leNat bs.reverse

/-- `n` bytes of a two's complement number, least significant first. -/
def leInt (n : Nat) (v : Int) : List Byte := leBytes n (v % (2 ^ (8 * n) : Nat)).toNat

/-- The bytes of a list from `off`, `n` of them at most. -/
def slice (off n : Nat) (bs : List Byte) : List Byte := (bs.drop off).take n

/-- The little-endian number of `n` bytes at `off`; bytes that are not there read 0. -/
def leAt (off n : Nat) (bs : List Byte) : Nat := leNat (slice off n bs)

/-- `n` zero bytes: reserved fields of a reply (R8). -/
def zeros (n : Nat) : List Byte := List.replicate n 0

/-- A list of bytes cut or padded with zeros to exactly `n`. -/
def fitBytes (n : Nat) (bs : List Byte) : List Byte := bs.take n ++ zeros (n - bs.length)

/-! ### Checks -/

/-- One bit of a CRC with the most significant bit first. -/
def crcStep (width poly : Nat) (inBit : Bool) (crc : Nat) : Nat :=
  let top := bitAt crc (width - 1)
  let sh := crc * 2 % 2 ^ width
  if xor top inBit then Nat.xor sh poly else sh

/-- Eight bits of a CRC, most significant first. -/
def crcByte (width poly crc : Nat) (b : Byte) : Nat :=
  [7, 6, 5, 4, 3, 2, 1, 0].foldl (fun c k => crcStep width poly (bitAt b.toNat k) c) crc

/-- The CRC-16 of the mailbox frames: polynomial 0x1021, initial value 0xFFFF, no reflection, no final XOR (R72). -/
def crc16 (bs : List Byte) : Nat := bs.foldl (crcByte 16 0x1021) 0xFFFF

/-- One bit of a reflected CRC. -/
def crcStepR (poly crc : Nat) : Nat := if bitAt crc 0 then Nat.xor (crc / 2) poly else crc / 2

def crcByteR (poly crc : Nat) (b : Byte) : Nat :=
  let c := Nat.xor crc b.toNat
  (List.range 8).foldl (fun c _ => crcStepR poly c) c

/-- CRC-32 with the IEEE 802.3 polynomial (Tables 4.6 and 20.4). The manual names the polynomial; initial value, reflection
and final XOR are those of IEEE 802.3 (PRESUMED, log entry 11). Unsafe. -/
def crc32 (bs : List Byte) : Nat := Nat.xor (bs.foldl (crcByteR 0xEDB88320) 0xFFFFFFFF) 0xFFFFFFFF

/-- CRC-32C of a spore (Table 20.9), in its usual reflected form (PRESUMED, log entry 11). Unsafe. -/
def crc32c (bs : List Byte) : Nat := Nat.xor (bs.foldl (crcByteR 0x82F63B78) 0xFFFFFFFF) 0xFFFFFFFF

/-! ### Lists of like units -/

/-- Entry `i`, or `d` where there is none. -/
def nth {α : Type} (l : List α) (i : Nat) (d : α) : α := l.getD i d

/-- The list with entry `i` replaced. -/
def put {α : Type} (l : List α) (i : Nat) (a : α) : List α := l.set i a

/-- Lists over 0 to n − 1. -/
def upTo (n : Nat) : List Nat := List.range n

/-- The first value from `start` that is not in `used`, wrapping from `hi` to 1; `fuel` tries. -/
def nextFree (used : List Nat) (hi : Nat) : Nat → Nat → Nat
  | 0, start => start
  | fuel + 1, start =>
    if used.contains start then nextFree used hi fuel (if hi ≤ start then 1 else start + 1) else start

/-- The sum of a list. -/
def total (l : List Nat) : Nat := l.foldl (· + ·) 0

end Sys2Proof.Machine
end

