-- ==== Sys2Proof/Machine/Coding.lean ====
section
/-! DEFINITION. What is on the lanes of a cable (spec/05, spec/06): cells as bytes, their checks, the codewords of RS(544,514), PAM4
symbols and precoding. -/

namespace Sys2Proof.Machine

/-! ### Cells (R145, R146, R159) -/

/-- Header bits [63:16] of Table 6.1. -/
def headerTop (c : Cell) : Nat :=
  c.path % 4096 * 2 ^ 36 + c.tc % 8 * 2 ^ 33 + c.kind % 8 * 2 ^ 30 + c.len % 1024 * 2 ^ 20 + c.seq % 4096 * 2 ^ 8 + c.cidx % 16 * 2 ^ 4
    + b2n c.first * 8 + b2n c.last * 4 + b2n c.poison * 2 + b2n c.ecn

/-- The first six bytes of a header, which HCRC, tags and trailers cover. -/
def headerBytes (c : Cell) : List Byte := beBytes 6 (headerTop c)

/-- The HCRC of a cell (Table 6.1). -/
def hcrcOf (c : Cell) : Nat := crc16 (headerBytes c)

/-- A cell with the HCRC of its header. -/
def withHcrc (c : Cell) : Cell := { c with hcrc := hcrcOf c }

/-- A header with a valid HCRC and a LEN that is not reserved (R147). -/
def headerOk (c : Cell) : Bool := c.hcrc == hcrcOf c && c.len ≤ 256

/-- A cell in the byte stream of a run: the header, the payload, and zero bytes up to a multiple of 8 (R146). -/
def cellBytes (c : Cell) : List Byte :=
  headerBytes c ++ beBytes 2 c.hcrc ++ fitBytes c.len c.payload ++ zeros ((8 - c.len % 8) % 8)

/-- Bytes that a cell takes of a run. -/
def cellRoom (c : Cell) : Nat := 8 + ceilDiv c.len 8 * 8

/-- The header that 8 bytes spell, its payload not yet read (R145, R147). -/
def parseHeader (bs : List Byte) : Cell :=
  let w := beNat (bs.take 6)
  { path := fieldAt w 36 12, tc := fieldAt w 33 3, kind := fieldAt w 30 3, len := fieldAt w 20 10, seq := fieldAt w 8 12,
    cidx := fieldAt w 4 4, first := bitAt w 3, last := bitAt w 2, poison := bitAt w 1, ecn := bitAt w 0,
    hcrc := beNat (slice 6 2 bs), payload := [] }

/-- A header that stands at an offset of a run and is followed, at the offset that its LEN gives, by another (R147). -/
def boundaryAt (run : List Byte) (off : Nat) : Bool :=
  let c := parseHeader (slice off 8 run)
  headerOk c && headerOk (parseHeader (slice (off + cellRoom c) 8 run))

/-- The hunt for the cell boundary from an offset on, at every 8 bytes (R147). -/
def huntFrom (run : List Byte) (off : Nat) : Option Nat :=
  ((upTo (run.length / 8)).map fun k => ceilDiv off 8 * 8 + 8 * k).find? (boundaryAt run)

/-- An IDLE cell (Table 6.2), which fills what the sender has nothing for. -/
def idleCell : Cell := withHcrc
  { path := 0, tc := 0, kind := 7, len := 0, seq := 0, cidx := 0, first := false, last := false, poison := false, ecn := false, hcrc := 0,
    payload := [] }

/-- The trailer of a cell of KIND 2 to 6 without keys or encryption: CRC-32 over header bits [63:16] and the payload, then 4 zero bytes
(R159). -/
def plainTrailer (c : Cell) : List Byte := beBytes 4 (crc32 (headerBytes c ++ c.payload)) ++ zeros 4

/-- A message of the link as the cells that carry it: payloads of at most 256 bytes, FIRST and LAST marked (R173). -/
def messageCells (path kind seq : Nat) (bs : List Byte) : List Cell :=
  let n := max 1 (ceilDiv bs.length 256)
  (upTo n).map fun k =>
    let part := slice (256 * k) 256 bs
    { path := path, tc := 7, kind := kind, len := part.length, seq := (seq + k) % 4096, cidx := 0, first := k == 0, last := k + 1 == n,
      poison := false, ecn := false, hcrc := 0, payload := part }

/-! ### Codewords: RS(544,514) over GF(2^10) (R112) -/

/-- Multiplication by the generator of GF(2^10), whose polynomial is that of IEEE 802.3 clause 91, x^10 + x^3 + 1 (PRESUMED, log entry
11). -/
def gf10Step (a : Nat) : Nat := if 512 ≤ a then Nat.xor (2 * a % 1024) 9 else 2 * a

def gf10Mul (a b : Nat) : Nat :=
  ((upTo 10).foldl (fun (x : Nat × Nat) k => (if bitAt b k then Nat.xor x.1 x.2 else x.1, gf10Step x.2)) (0, a)).1

/-- The generator to a power. -/
def gf10Exp (n : Nat) : Nat := (upTo (n % 1023)).foldl (fun a _ => gf10Step a) 1

/-- The inverse, a^1022; 0 for 0. -/
def gf10Inv (a : Nat) : Nat :=
  ((upTo 9).foldl (fun (x : Nat × Nat) _ => let q := gf10Mul x.2 x.2; (gf10Mul x.1 q, q)) (1, a)).1

/-- A polynomial, the constant first, at a point. -/
def polyAt (p : List Nat) (x : Nat) : Nat := p.foldr (fun c acc => Nat.xor c (gf10Mul acc x)) 0

def polyScale (k : Nat) (p : List Nat) : List Nat := p.map (gf10Mul k)

def polyAdd (p q : List Nat) : List Nat := (upTo (max p.length q.length)).map fun i => Nat.xor (nth p i 0) (nth q i 0)

def polyMul (p q : List Nat) : List Nat := p.foldr (fun c acc => polyAdd (polyScale c q) (0 :: acc)) []

/-- The generator polynomial, with the roots α^0 to α^29, the constant first. -/
def rsGen : List Nat := (upTo 30).foldl (fun g i => polyMul g [gf10Exp i, 1]) [1]

/-- The 30 parity symbols of 514 data symbols, the first sent first: the remainder of the division by the generator polynomial. -/
def rsParity (data : List Nat) : List Nat :=
  let g := (rsGen.take 30).reverse
  data.foldl (fun (r : List Nat) d =>
    let f := Nat.xor d (nth r 0 0)
    polyAdd (r.drop 1 ++ [0]) (polyScale f g)) (List.replicate 30 0)

/-- A codeword of 544 symbols. -/
def rsEncode (data : List Nat) : List Nat := data ++ rsParity data

/-- The syndromes of a received word. -/
def rsSyndromes (word : List Nat) : List Nat := (upTo 30).map fun i => polyAt word.reverse (gf10Exp i)

/-- The error locator of the syndromes, by the steps of Berlekamp and Massey. -/
structure Locator where
  now  : List Nat
  old  : List Nat
  len  : Nat
  gap  : Nat
  last : Nat

def locatorStep (syn : List Nat) (l : Locator) (n : Nat) : Locator :=
  let d := (upTo (l.len + 1)).foldl (fun acc i => Nat.xor acc (gf10Mul (nth l.now i 0) (nth syn (n - i) 0))) 0
  let next := polyAdd l.now (polyScale (gf10Mul d (gf10Inv l.last)) (List.replicate l.gap 0 ++ l.old))
  if d == 0 then { l with gap := l.gap + 1 }
  else if 2 * l.len ≤ n then ⟨next, l.now, n + 1 - l.len, 1, d⟩
  else { l with now := next, gap := l.gap + 1 }

/-- The value of the error at a position, from the locator and the evaluator. -/
def rsError (loc eval : List Nat) (pos : Nat) : Nat :=
  let x := gf10Exp pos
  let xi := gf10Inv x
  let slope := (loc.zipIdx).map fun (c, i) => if i % 2 == 1 then c else 0
  gf10Mul (gf10Mul x (polyAt eval xi)) (gf10Inv (polyAt (slope.drop 1) xi))

/-- The decoder (R112): the data and the number of symbols corrected, at most 15; none marks the codeword uncorrectable. -/
def rsDecode (word : List Nat) : Option (List Nat × Nat) :=
  let syn := rsSyndromes word
  if syn.all (· == 0) then some (word.take 514, 0)
  else
    let l := (upTo 30).foldl (locatorStep syn) ⟨[1], [1], 0, 1, 1⟩
    let eval := (polyMul syn l.now).take 30
    let bad := (upTo 544).filter fun j => polyAt l.now (gf10Inv (gf10Exp j)) == 0
    if 15 < l.len || bad.length != l.len then none
    else
      let fixed := (word.zipIdx).map fun (c, i) => if bad.contains (543 - i) then Nat.xor c (rsError l.now eval (543 - i)) else c
      if (rsSyndromes fixed).all (· == 0) then some (fixed.take 514, l.len) else none

/-- The most significant bit of each byte first. -/
def bitsOf (bs : List Byte) : List Bool := bs.flatMap fun b => [7, 6, 5, 4, 3, 2, 1, 0].map fun k => bitAt b.toNat k

def bitsNat (bs : List Bool) : Nat := bs.foldl (fun n b => 2 * n + b2n b) 0

/-- The data symbols of the codewords of a run's byte stream: 10 bits each, most significant first; 514 to a codeword (R112, R146). -/
def runSymbols (run : List Byte) : List Nat :=
  let bits := bitsOf run
  (upTo (bits.length / 10)).map fun k => bitsNat ((bits.drop (10 * k)).take 10)

/-- The codewords of a run. -/
def runCodewords (run : List Byte) : List (List Nat) :=
  let syms := runSymbols run
  (upTo (syms.length / 514)).map fun k => rsEncode ((syms.drop (514 * k)).take 514)

/-- LIVE injection: the first `n` FEC symbols of a codeword replaced with their bitwise inverse (R141). -/
def invertSymbols (n : Nat) (word : List Nat) : List Nat := (word.take n).map (fun x => 1023 - x) ++ word.drop n

/-! ### Symbols (R109, R110, R113) -/

/-- The Gray value of a pair of bits, the more significant one first (R109). -/
def grayOf (b1 b0 : Bool) : Nat :=
  match b1, b0 with
  | false, false => 0
  | false, true => 1
  | true, true => 2
  | true, false => 3

/-- The pair of bits of a Gray value. -/
def pairOf (g : Nat) : Bool × Bool :=
  match g with
  | 0 => (false, false)
  | 1 => (false, true)
  | 2 => (true, true)
  | _ => (true, false)

/-- The level of a value 0 to 3. -/
def levelOf (v : Nat) : Int := 2 * (v : Int) - 3

/-- The value of a detected level. -/
def valueOf (level : Int) : Nat := ((level + 3) / 2).toNat

/-- The five Gray values of a 10-bit FEC symbol, most significant bits first (R109). -/
def symbolGrays (sym : Nat) : List Nat := [8, 6, 4, 2, 0].map fun k => grayOf (bitAt sym (k + 1)) (bitAt sym k)

/-- Precoding of the Gray values of a run: `prev` is p_prev, 0 before the first codeword symbol of the run (R110). -/
def precode (prev : Nat) : List Nat → List Nat
  | [] => []
  | g :: rest => let p := (g + 4 - prev % 4) % 4; p :: precode p rest

/-- The inverse at the receiver (R110). -/
def unprecode (prev : Nat) : List Nat → List Nat
  | [] => []
  | p :: rest => (p + prev) % 4 :: unprecode p rest

/-- The levels of a run's codewords and of the idle symbols after its last whole codeword, Gray value 0 before precoding (R109, R110,
R113). -/
def runLevels (precoded : Bool) (words : List (List Nat)) (idle : Nat) : List Int :=
  let grays := words.flatten.flatMap symbolGrays ++ List.replicate idle 0
  (if precoded then precode 0 grays else grays).map levelOf

/-- The FEC symbols that detected levels spell (R109, R110). -/
def symbolsOf (precoded : Bool) (levels : List Int) : List Nat :=
  let vals := levels.map valueOf
  let grays := if precoded then unprecode 0 vals else vals
  (upTo (grays.length / 5)).map fun k =>
    ((grays.drop (5 * k)).take 5).foldl (fun n g => 4 * n + 2 * b2n (pairOf g).1 + b2n (pairOf g).2) 0

/-- PRBS injection: a symbol moved to an adjacent level (R141); from an end the only one. -/
def adjacentLevel (v : Int) : Int := if v == -3 then -1 else v - 2

/-- The level group of EOS and of SOS, whose symbols are not precoded (R110, Table 5.3). -/
def eosGroup : List Int := [3, -3]
def sosGroup : List Int := [3, 3, -3, -3]

end Sys2Proof.Machine
end

