-- ==== Sys2Proof/Config.lean ====
section
/-! DEFINITION. What the spec leaves open or names without giving it: constants without a body, so that nothing can be
proved of their values. Each is named in a log entry (notes/assumptions). -/

namespace Sys2Proof

/-- The value of an instruction or a field that the spec leaves open, one for each draw; State holds the count of draws
(log entry 3). -/
opaque Config.freeValue : Nat → Nat

/-- ML-DSA-65 verification (FIPS 204, Table 0.4): public key, message, signature (log entry 4). -/
opaque Config.mldsaVerify : List Byte → List Byte → List Byte → Bool

/-- The ML-DSA-65 public key of a seed, 1,952 bytes (log entry 4). -/
opaque Config.mldsaPublic : List Byte → List Byte

/-- The ML-DSA-65 signature by a seed's key over a message, 3,309 bytes (log entry 4). -/
opaque Config.mldsaSign : List Byte → List Byte → List Byte

/-- ML-KEM-768 (FIPS 203, Table 0.4): the encapsulation key of a seed, 1,184 bytes (log entry 4). -/
opaque Config.mlkemKey : List Byte → List Byte

/-- The ciphertext, 1,088 bytes, and the shared secret, 32 bytes, of an encapsulation key and a random value (log entry 4). -/
opaque Config.mlkemCipher : List Byte → List Byte → List Byte
opaque Config.mlkemShared : List Byte → List Byte → List Byte

/-- The shared secret that a seed's key draws from a ciphertext (log entry 4). -/
opaque Config.mlkemDecaps : List Byte → List Byte → List Byte

/-- The ROM key of Fiddlehead: its ECDSA public key, then its ML-DSA-65 public key (R487; log entry 4). -/
opaque Config.romKey : List Byte

/-- The hub's entropy source: the bytes of the n-th draw (R58, R488; log entry 4). -/
opaque Config.random : Nat → List Byte

/-- The registers of the units at interconnect addresses 0x00_1000_0000 up, whose map the spec does not give: what a read
of a byte returns (R494; log entry 5). -/
opaque Config.unitRegister : Nat → Byte

/-- The power-domain unit registers that M15's baseline grants, as first and last interconnect address, which the spec does not
give (Table 19.8c; log entry 36). -/
opaque Config.powerUnits : Nat × Nat

/-- The interconnect address of the ACU registers, within the unit registers, which the spec does not give (R502; log entry 36). -/
opaque Config.acuRegisters : Nat

/-- The payload of the completion of a RETAIN entry: the ticks of entry and of exit and the wake source, in a layout that the spec does
not give (R464; log entry 39). -/
opaque Config.retainPayload : Nat → Nat → Nat → List Byte

/-- Instructions that the management core has retired since the last checkpoint, at the delivery of a spore by its number (R525; log
entry 40). -/
opaque Config.icount : Nat → Nat

/-- The steering that the servo sets from the offset shifted right by SERVO_GAIN and from the steering in force; Table 2.5 gives the
shift and the spec gives no more of the law (log entry 3). -/
opaque Config.servoRate : Int → Int → Int

/-- The energy per tick of a lane of a generation-1 link, for which Table 8.8 has no row (log entry 3). -/
opaque Config.laneG1Nj : Nat

end Sys2Proof
end

