-- ==== Sys2Proof/Machine/Crypto.lean ====
section
/-! DEFINITION. The algorithms that Table 0.4 names by their standards: SHA-384, HMAC and HKDF, AES-256 and GCM, and the arithmetic of
P-384 with ECDSA and ECDH. ML-DSA-65 and ML-KEM-768 stand in Config (log entry 4). -/

namespace Sys2Proof.Machine

/-! ### SHA-384 (FIPS 180-4) -/

def w64 (n : Nat) : Nat := n % 2 ^ 64

/-- Rotation of a 64-bit word to the right. -/
def rotr64 (n x : Nat) : Nat := Nat.lor (x / 2 ^ n) (x % 2 ^ n * 2 ^ (64 - n))

def xor3 (a b c : Nat) : Nat := Nat.xor (Nat.xor a b) c

/-- The 80 round constants of FIPS 180-4. -/
def shaK : List Nat :=
  [0x428A2F98D728AE22, 0x7137449123EF65CD, 0xB5C0FBCFEC4D3B2F, 0xE9B5DBA58189DBBC] ++
  [0x3956C25BF348B538, 0x59F111F1B605D019, 0x923F82A4AF194F9B, 0xAB1C5ED5DA6D8118] ++
  [0xD807AA98A3030242, 0x12835B0145706FBE, 0x243185BE4EE4B28C, 0x550C7DC3D5FFB4E2] ++
  [0x72BE5D74F27B896F, 0x80DEB1FE3B1696B1, 0x9BDC06A725C71235, 0xC19BF174CF692694] ++
  [0xE49B69C19EF14AD2, 0xEFBE4786384F25E3, 0x0FC19DC68B8CD5B5, 0x240CA1CC77AC9C65] ++
  [0x2DE92C6F592B0275, 0x4A7484AA6EA6E483, 0x5CB0A9DCBD41FBD4, 0x76F988DA831153B5] ++
  [0x983E5152EE66DFAB, 0xA831C66D2DB43210, 0xB00327C898FB213F, 0xBF597FC7BEEF0EE4] ++
  [0xC6E00BF33DA88FC2, 0xD5A79147930AA725, 0x06CA6351E003826F, 0x142929670A0E6E70] ++
  [0x27B70A8546D22FFC, 0x2E1B21385C26C926, 0x4D2C6DFC5AC42AED, 0x53380D139D95B3DF] ++
  [0x650A73548BAF63DE, 0x766A0ABB3C77B2A8, 0x81C2C92E47EDAEE6, 0x92722C851482353B] ++
  [0xA2BFE8A14CF10364, 0xA81A664BBC423001, 0xC24B8B70D0F89791, 0xC76C51A30654BE30] ++
  [0xD192E819D6EF5218, 0xD69906245565A910, 0xF40E35855771202A, 0x106AA07032BBD1B8] ++
  [0x19A4C116B8D2D0C8, 0x1E376C085141AB53, 0x2748774CDF8EEB99, 0x34B0BCB5E19B48A8] ++
  [0x391C0CB3C5C95A63, 0x4ED8AA4AE3418ACB, 0x5B9CCA4F7763E373, 0x682E6FF3D6B2B8A3] ++
  [0x748F82EE5DEFB2FC, 0x78A5636F43172F60, 0x84C87814A1F0AB72, 0x8CC702081A6439EC] ++
  [0x90BEFFFA23631E28, 0xA4506CEBDE82BDE9, 0xBEF9A3F7B2C67915, 0xC67178F2E372532B] ++
  [0xCA273ECEEA26619C, 0xD186B8C721C0C207, 0xEADA7DD6CDE0EB1E, 0xF57D4F7FEE6ED178] ++
  [0x06F067AA72176FBA, 0x0A637DC5A2C898A6, 0x113F9804BEF90DAE, 0x1B710B35131C471B] ++
  [0x28DB77F523047D84, 0x32CAAB7B40C72493, 0x3C9EBE0A15C9BEBC, 0x431D67C49C100D4C] ++
  [0x4CC5D4BECB3E42B6, 0x597F299CFC657E2A, 0x5FCB6FAB3AD6FAEC, 0x6C44198C4A475817]

/-- The initial hash value of SHA-384. -/
def shaInit : List Nat :=
  [0xCBBB9D5DC1059ED8, 0x629A292A367CD507, 0x9159015A3070DD17, 0x152FECD8F70E5939] ++
  [0x67332667FFC00B31, 0x8EB44A8768581511, 0xDB0C2E0D64F98FA7, 0x47B5481DBEFA4FA4]

/-- The padding of a message: a 1 bit, zeros, and its length in bits in 16 bytes, to a multiple of 128 bytes. -/
def shaPad (m : List Byte) : List Byte :=
  m ++ [0x80] ++ zeros ((239 - m.length % 128) % 128) ++ beBytes 16 (8 * m.length)

/-- Bytes taken as words of `n` bytes, most significant byte first. -/
def beWords (n : Nat) (bs : List Byte) : List Nat :=
  (upTo (bs.length / n)).map fun k => beNat (slice (n * k) n bs)

/-- The message schedule, newest word first. -/
def shaSchedule : Nat → List Nat → List Nat
  | 0, w => w
  | n + 1, w =>
    let s0 := fun (x : Nat) => xor3 (rotr64 1 x) (rotr64 8 x) (x / 2 ^ 7)
    let s1 := fun (x : Nat) => xor3 (rotr64 19 x) (rotr64 61 x) (x / 2 ^ 6)
    shaSchedule n (w64 (s1 (nth w 1 0) + nth w 6 0 + s0 (nth w 14 0) + nth w 15 0) :: w)

/-- One round over the eight working variables. -/
def shaRound (v : List Nat) (kw : Nat) : List Nat :=
  match v with
  | [a, b, c, d, e, f, g, h] =>
    let t1 := h + xor3 (rotr64 14 e) (rotr64 18 e) (rotr64 41 e) + Nat.xor (Nat.land e f) (Nat.land (2 ^ 64 - 1 - e) g) + kw
    let t2 := xor3 (rotr64 28 a) (rotr64 34 a) (rotr64 39 a) + xor3 (Nat.land a b) (Nat.land a c) (Nat.land b c)
    [w64 (t1 + t2), a, b, c, w64 (d + t1), e, f, g]
  | _ => v

/-- One block of 16 words. -/
def shaBlock (h : List Nat) (block : List Nat) : List Nat :=
  let w := (shaSchedule 64 block.reverse).reverse
  let v := ((shaK.zip w).map fun (k, x) => k + x).foldl shaRound h
  (h.zip v).map fun (a, b) => w64 (a + b)

/-- SHA-384 of a message: 48 bytes. -/
def sha384 (m : List Byte) : List Byte :=
  let p := shaPad m
  let h := (upTo (p.length / 128)).foldl (fun h k => shaBlock h (beWords 8 (slice (128 * k) 128 p))) shaInit
  (h.take 6).flatMap fun x => beBytes 8 x

/-! ### HMAC and HKDF with SHA-384 (RFC 5869) -/

def xorBytes (a b : List Byte) : List Byte := (a.zip b).map fun (x, y) => x ^^^ y

def hmac384 (key m : List Byte) : List Byte :=
  let k := fitBytes 128 (if 128 < key.length then sha384 key else key)
  sha384 (xorBytes k (List.replicate 128 0x5C) ++ sha384 (xorBytes k (List.replicate 128 0x36) ++ m))

def hkdfExtract (salt ikm : List Byte) : List Byte := hmac384 salt ikm

/-- Blocks T(i) of HKDF-Expand from the block before. -/
def hkdfBlocks (prk info : List Byte) : Nat → Nat → List Byte → List Byte
  | 0, _, _ => []
  | n + 1, i, t =>
    let t := hmac384 prk (t ++ info ++ [BitVec.ofNat 8 i])
    t ++ hkdfBlocks prk info n (i + 1) t

def hkdfExpand (prk info : List Byte) (len : Nat) : List Byte := (hkdfBlocks prk info (ceilDiv len 48) 1 []).take len

/-! ### AES-256 (FIPS 197) -/

/-- Multiplication by x in GF(2^8). -/
def xtime (a : Nat) : Nat := if 128 ≤ a then Nat.xor (2 * a % 256) 0x1B else 2 * a

/-- Multiplication in GF(2^8), over the 8 bits of `b`. -/
def gf8Mul (a b : Nat) : Nat :=
  ((upTo 8).foldl (fun (x : Nat × Nat) k => (if bitAt b k then Nat.xor x.1 x.2 else x.1, xtime x.2)) (0, a)).1

/-- The inverse in GF(2^8), a^254; 0 for 0. -/
def gf8Inv (a : Nat) : Nat := ((upTo 6).foldl (fun (x : Nat × Nat) _ => let q := gf8Mul x.2 x.2; (gf8Mul x.1 q, q)) (1, gf8Mul a a)).1
  |> fun hi => gf8Mul hi (gf8Mul a a)

def rotl8 (n x : Nat) : Nat := x * 2 ^ n % 256 + x / 2 ^ (8 - n)

/-- SubBytes of one byte. -/
def aesSub (a : Nat) : Nat :=
  let b := gf8Inv a
  Nat.xor (Nat.xor (Nat.xor b (rotl8 1 b)) (Nat.xor (rotl8 2 b) (rotl8 3 b))) (Nat.xor (rotl8 4 b) 0x63)

def xorNats (a b : List Nat) : List Nat := (a.zip b).map fun (x, y) => Nat.xor x y

/-- Words of the key schedule, four bytes each, newest first: `i` the number of the next word, `rc` the round constant. -/
def aesExpand : Nat → Nat → Nat → List (List Nat) → List (List Nat)
  | 0, _, _, ws => ws
  | n + 1, i, rc, ws =>
    let last := nth ws 0 []
    let t :=
      if i % 8 == 0 then xorNats (((last.drop 1) ++ last.take 1).map aesSub) [rc, 0, 0, 0]
      else if i % 8 == 4 then last.map aesSub else last
    aesExpand n (i + 1) (if i % 8 == 0 then xtime rc else rc) (xorNats (nth ws 7 []) t :: ws)

/-- The 15 round keys of a 32-byte key. -/
def aesKeys (key : List Byte) : List (List Nat) :=
  let k := (fitBytes 32 key).map (·.toNat)
  let ws := (aesExpand 52 8 1 ((upTo 8).map fun i => (k.drop (4 * i)).take 4).reverse).reverse
  (upTo 15).map fun r => ((ws.drop (4 * r)).take 4).flatten

/-- ShiftRows on the 16 bytes of the state, column by column. -/
def aesShift (st : List Nat) : List Nat := (upTo 16).map fun i => nth st ((i + 4 * (i % 4)) % 16) 0

/-- MixColumns on one column. -/
def aesMix (c : List Nat) : List Nat :=
  (upTo 4).map fun i =>
    let at' := fun k => nth c ((i + k) % 4) 0
    Nat.xor (Nat.xor (gf8Mul 2 (at' 0)) (gf8Mul 3 (at' 1))) (Nat.xor (at' 2) (at' 3))

/-- AES-256 of one block of 16 bytes. -/
def aesBlock (key block : List Byte) : List Byte :=
  let ks := aesKeys key
  let st := xorNats ((fitBytes 16 block).map (·.toNat)) (nth ks 0 [])
  let mixed := fun (st : List Nat) => (upTo 4).flatMap fun c => aesMix ((st.drop (4 * c)).take 4)
  let st := (upTo 13).foldl (fun st r => xorNats (mixed (aesShift (st.map aesSub))) (nth ks (r + 1) [])) st
  (xorNats (aesShift (st.map aesSub)) (nth ks 14 [])).map fun x => BitVec.ofNat 8 x

/-! ### GCM (SP 800-38D) -/

/-- Multiplication in GF(2^128) with GCM's bit order: the most significant bit of a block is the coefficient of 1. -/
def ghashMul (x y : Nat) : Nat :=
  ((upTo 128).foldl (fun (zv : Nat × Nat) k =>
    let v := zv.2
    (if bitAt x (127 - k) then Nat.xor zv.1 v else zv.1,
     if bitAt v 0 then Nat.xor (v / 2) (0xE1 * 2 ^ 120) else v / 2)) (0, y)).1

def padTo (n : Nat) (bs : List Byte) : List Byte := bs ++ zeros ((n - bs.length % n) % n)

/-- GHASH of a text whose length is a multiple of 16. -/
def ghash (h : Nat) (bs : List Byte) : Nat := (beWords 16 bs).foldl (fun y x => ghashMul (Nat.xor y x) h) 0

/-- The key stream of a 96-bit nonce from a byte offset on: `n` bytes. -/
def gcmStream (key nonce : List Byte) (off n : Nat) : List Byte :=
  let first := off / 16
  let blocks := (upTo (ceilDiv (off % 16 + n) 16)).flatMap fun i => aesBlock key (nonce ++ beBytes 4 (first + i + 2))
  slice (off % 16) n blocks

/-- Encryption or decryption of a part of a text that starts at an offset. -/
def gcmCrypt (key nonce : List Byte) (off : Nat) (bs : List Byte) : List Byte := xorBytes bs (gcmStream key nonce off bs.length)

/-- The 16-byte tag over additional data and the encrypted text. -/
def gcmTag (key nonce aad text : List Byte) : List Byte :=
  let h := beNat (aesBlock key (zeros 16))
  let s := ghash h (padTo 16 aad ++ padTo 16 text ++ beBytes 8 (8 * aad.length) ++ beBytes 8 (8 * text.length))
  xorBytes (aesBlock key (nonce ++ beBytes 4 1)) (beBytes 16 s)

/-! ### P-384 (FIPS 186-5, SP 800-56A) -/

def p384P : Nat := 2 ^ 384 - 2 ^ 128 - 2 ^ 96 + 2 ^ 32 - 1
def p384N : Nat := 0xFFFFFFFFFFFFFFFFFFFFFFFFFFFFFFFFFFFFFFFFFFFFFFFFC7634D81F4372DDF581A0DB248B0A77AECEC196ACCC52973
def p384B : Nat := 0xB3312FA7E23EE7E4988E056BE3F82D19181D9C6EFE8141120314088F5013875AC656398D8A2ED19D2A85C8EDD3EC2AEF
def p384G : Nat × Nat :=
  (0xAA87CA22BE8B05378EB1C71EF320AD746E1D3B628BA79B9859F741E082542A385502F25DBF55296C3A545E3872760AB7,
   0x3617DE4A96262C6F5D9E98BF9292DC29F8F41DBD289A147CE9DA3113B5F0B8C00A60B1CE1D7E819D7A431D7C90EA0E5F)

/-- a^e modulo m, over the low `bits` bits of e. -/
def powMod (m a e bits : Nat) : Nat :=
  ((upTo bits).foldl (fun (x : Nat × Nat) k => (if bitAt e k then x.1 * x.2 % m else x.1, x.2 * x.2 % m)) (1, a % m)).1

/-- The inverse modulo a prime of 384 bits. -/
def invMod (m a : Nat) : Nat := powMod m a (m - 2) 384

def subMod (m a b : Nat) : Nat := (a % m + (m - b % m)) % m

/-- A point of the curve in Jacobian coordinates; Z 0 is the point at infinity. -/
abbrev JPoint := Nat × Nat × Nat

def jDouble (q : JPoint) : JPoint :=
  let p := p384P
  let (x, y, z) := q
  let zz := z * z % p
  let m := 3 * (subMod p x zz) * (x + zz) % p
  let s := 4 * x * (y * y % p) % p
  let x' := subMod p (m * m) (2 * s)
  (x', subMod p (m * subMod p s x') (8 * (y * y % p) * (y * y % p)), 2 * y * z % p)

def jAdd (a b : JPoint) : JPoint :=
  let p := p384P
  let (x1, y1, z1) := a
  let (x2, y2, z2) := b
  if z1 == 0 then b
  else if z2 == 0 then a
  else
    let z1z1 := z1 * z1 % p
    let z2z2 := z2 * z2 % p
    let u1 := x1 * z2z2 % p
    let u2 := x2 * z1z1 % p
    let s1 := y1 * z2 * z2z2 % p
    let s2 := y2 * z1 * z1z1 % p
    if u1 == u2 then (if s1 == s2 then jDouble a else (1, 1, 0))
    else
      let h := subMod p u2 u1
      let r := subMod p s2 s1
      let hh := h * h % p
      let hhh := h * hh % p
      let v := u1 * hh % p
      let x := subMod p (subMod p (r * r) hhh) (2 * v)
      (x, subMod p (r * subMod p v x) (s1 * hhh), h * z1 * z2 % p)

def jMul (k : Nat) (q : JPoint) : JPoint :=
  ((upTo 384).foldl (fun (x : JPoint × JPoint) i => (if bitAt k i then jAdd x.1 x.2 else x.1, jDouble x.2)) ((1, 1, 0), q)).1

/-- The affine coordinates of a point; none at infinity. -/
def jAffine (q : JPoint) : Option (Nat × Nat) :=
  let (x, y, z) := q
  if z == 0 then none
  else
    let i := invMod p384P z
    some (x * i * i % p384P, y * i % p384P * i % p384P * i % p384P)

def jBase : JPoint := (p384G.1, p384G.2, 1)

/-- An uncompressed public key of 97 bytes that lies on the curve. -/
def parsePoint (bs : List Byte) : Option (Nat × Nat) :=
  let x := beNat (slice 1 48 bs)
  let y := beNat (slice 49 48 bs)
  if bs.length == 97 && bs.head? == some 4 && x < p384P && y < p384P
      && y * y % p384P == (x * x % p384P * x + (p384P - 3) * x + p384B) % p384P then some (x, y) else none

/-- The public key of a private scalar, uncompressed. -/
def p384Public (d : Nat) : List Byte :=
  match jAffine (jMul d jBase) with
  | some (x, y) => [4] ++ beBytes 48 x ++ beBytes 48 y
  | none => [0]

/-- The ECDH shared secret of a private scalar and a public key: the x coordinate. -/
def ecdh (d : Nat) (pub : List Byte) : Option (List Byte) :=
  (parsePoint pub).bind fun (x, y) => (jAffine (jMul d (x, y, 1))).map fun q => beBytes 48 q.1

/-- ECDSA verification of a signature r then s over a digest of 48 bytes. -/
def ecdsaVerify (pub digest sig : List Byte) : Bool :=
  let r := beNat (slice 0 48 sig)
  let s := beNat (slice 48 48 sig)
  match parsePoint pub with
  | none => false
  | some (x, y) =>
    let w := invMod p384N s
    let q := jAdd (jMul (beNat (digest.take 48) * w % p384N) jBase) (jMul (r * w % p384N) (x, y, 1))
    1 ≤ r && r < p384N && 1 ≤ s && s < p384N
      && (match jAffine q with
        | some (v, _) => v % p384N == r
        | none => false)

/-- An ECDSA signature by a private scalar with a per-message secret k, r then s. -/
def ecdsaSign (d k : Nat) (digest : List Byte) : List Byte :=
  match jAffine (jMul k jBase) with
  | none => zeros 96
  | some (x, _) =>
    let r := x % p384N
    beBytes 48 r ++ beBytes 48 (invMod p384N k * (beNat (digest.take 48) + r * d) % p384N)

/-! ### Key pairs derived from a secret and a label (R492) -/

def labelBytes (t : String) : List Byte := t.toList.map fun c => BitVec.ofNat 8 c.toNat

/-- The ECDSA private key of a secret and a label. -/
def deriveScalar (secret label : List Byte) : Nat :=
  beNat (hkdfExpand (hkdfExtract label secret) (labelBytes "ECDSA") 48) % (p384N - 1) + 1

/-- The ECDSA public key of the pair, 97 bytes. -/
def derivePublic (secret label : List Byte) : List Byte := p384Public (deriveScalar secret label)

/-- The seed of the ML-DSA-65 pair. -/
def deriveSeed (secret label : List Byte) : List Byte := hkdfExpand (hkdfExtract label secret) (labelBytes "MLDSA") 32

end Sys2Proof.Machine
end

