-- ==== Sys2Proof/Machine/Flags.lean ====
section
/-! DEFINITION. The status word (Table 3.5) and the status bit of every event (Table 22.8). -/

namespace Sys2Proof.Machine

/-- Events that map to FAULT (Table 22.8), CP1's as CP0's. -/
def faultEvents : List Nat :=
  [0, 5, 12, 14, 20, 30, 36, 46, 49, 52, 59, 75, 84, 85, 87, 100, 101, 121, 122, 125, 129, 131, 133, 138, 149, 150,
   154, 156, 164, 165, 167, 172, 173, 178, 187, 191]

/-- Events that map to CFG (Table 22.8). -/
def cfgEvents : List Nat := [1, 2, 6, 8, 60, 76, 127, 132, 183, 184, 185, 186]

/-- Events that map to PWR (Table 22.8). -/
def pwrEvents : List Nat :=
  [54, 56, 57, 103, 118, 142, 145, 146, 147, 148, 155, 158, 160, 161, 166, 168, 169, 170, 171]

/-- Events that map to LINK (Table 22.8), CP1's as CP0's. -/
def linkEvents : List Nat :=
  [9, 10, 13, 15, 17, 21, 22, 23, 25, 26, 27, 33, 37, 38, 39, 41, 42, 43, 55]

/-- Events that map to PORT (Table 22.8). -/
def portEvents : List Nat :=
  [11, 64, 66, 68, 70, 72, 81, 83, 88, 96, 98, 99, 112, 113, 120, 123, 124, 144, 152, 153, 162, 163]

/-- Events that map to SVC (Table 22.8). -/
def svcEvents : List Nat := [104, 105, 116, 117, 119, 137, 140, 141, 143]

/-- Events that map to SEC (Table 22.8), CP1's as CP0's. -/
def secEvents : List Nat := [7, 28, 31, 44, 47, 176, 177, 179, 181]

/-- The status-word bit of an event, or 0 for none (R54, BIT of Table 3.13). -/
def eventBit (n : Nat) : Nat :=
  if faultEvents.contains n then 30
  else if cfgEvents.contains n then 29
  else if pwrEvents.contains n then 28
  else if linkEvents.contains n then 27
  else if portEvents.contains n then 26
  else if svcEvents.contains n then 25
  else if secEvents.contains n then 24
  else 0

/-- Whether a queue holds an unread event mapping to a bit (Table 3.5). -/
def hasBit (q : List EventEntry) (bit : Nat) : Bool := q.any fun e => e.bit == bit

/-- ROLE of the status word (Table 3.5). -/
def Role.code : Role → Nat
  | .hostside => 0
  | .dockside => 1
  | .relay => 2
  | .none => 3

/-- The status word of a channel (Table 3.5), from its queue, its SEQ and the chip's state. -/
def statusWord (c : ChanSt) (pstate : Nat) (role : Role) (unatt untested : Bool) : Word :=
  BitVec.ofNat 32
    (b2n c.attn * 2 ^ 31 + b2n (hasBit c.queue 30) * 2 ^ 30 + b2n (hasBit c.queue 29) * 2 ^ 29
      + b2n (hasBit c.queue 28) * 2 ^ 28 + b2n (hasBit c.queue 27) * 2 ^ 27 + b2n (hasBit c.queue 26) * 2 ^ 26
      + b2n (hasBit c.queue 25) * 2 ^ 25 + b2n (hasBit c.queue 24) * 2 ^ 24 + c.queue.length % 256 * 2 ^ 16
      + pstate % 16 * 2 ^ 12 + role.code * 2 ^ 10 + b2n unatt * 2 ^ 9 + b2n untested * 2 ^ 8 + c.seq.toNat)

end Sys2Proof.Machine
end

