-- ==== Sys2Proof/Machine/Operands.lean ====
section
/-! DEFINITION. The parts of a request: result codes (Table 22.6), the command index (Table 22.2) and the request header's
flags (Table 3.3). -/

namespace Sys2Proof.Machine

/-- Result codes (Table 22.6). -/
inductive Rc where
  | ok | okClamped | okPartial | accepted
  | busy | retryLater
  | badOpcode | badLength | badState | badHandle
  | denied | authFail | locked
  | hwFault | versionConflict | budget
  deriving DecidableEq, Repr

/-- The code of a result (Table 22.6). -/
def Rc.code : Rc → Nat
  | .ok => 0x0000
  | .okClamped => 0x0001
  | .okPartial => 0x0002
  | .accepted => 0x0003
  | .busy => 0x0100
  | .retryLater => 0x0101
  | .badOpcode => 0x0200
  | .badLength => 0x0201
  | .badState => 0x0202
  | .badHandle => 0x0203
  | .denied => 0x0300
  | .authFail => 0x0301
  | .locked => 0x0302
  | .hwFault => 0x0400
  | .versionConflict => 0x0500
  | .budget => 0x0600

/-- Every result (Table 22.6). -/
def allRcs : List Rc :=
  [.ok, .okClamped, .okPartial, .accepted, .busy, .retryLater, .badOpcode, .badLength, .badState, .badHandle, .denied, .authFail, .locked,
    .hwFault, .versionConflict, .budget]

/-- The result with a code; OK for a code that is none. -/
def Rc.of (n : Nat) : Rc := (allRcs.find? fun r => r.code == n).getD .ok

/-- A result of 0x0100 or above: the command changed nothing (R559). -/
def Rc.bad (r : Rc) : Bool := 0x0100 ≤ r.code

/-- One row of the command index (Table 22.2): opcode, level, the channels it is accepted on (none: every channel), and
whether its table replies ACCEPTED in every case (R67). -/
structure CmdRow where
  opcode : Nat
  level  : Nat
  chans  : List Chan
  long   : Bool
  deriving DecidableEq, Repr

/-- `sys.ping` (R554). -/
def Cmd.sysPing : CmdRow := ⟨0x0101, 0, [], false⟩

/-- `sys.event.read` (R554). -/
def Cmd.sysEventRead : CmdRow := ⟨0x0102, 0, [], false⟩

/-- `sys.event.mask` (R554). -/
def Cmd.sysEventMask : CmdRow := ⟨0x0103, 1, [], false⟩

/-- `sys.cmd.result` (R554). -/
def Cmd.sysCmdResult : CmdRow := ⟨0x0104, 0, [], false⟩

/-- `sys.cred.challenge` (R554). -/
def Cmd.sysCredChallenge : CmdRow := ⟨0x0105, 0, [], false⟩

/-- `sys.cred.open` (R554). -/
def Cmd.sysCredOpen : CmdRow := ⟨0x0106, 0, [], false⟩

/-- `sys.cred.close` (R554). -/
def Cmd.sysCredClose : CmdRow := ⟨0x0107, 0, [], false⟩

/-- `sys.topo.show` (R554). -/
def Cmd.sysTopoShow : CmdRow := ⟨0x0110, 0, [], false⟩

/-- `sys.time.show` (R554). -/
def Cmd.sysTimeShow : CmdRow := ⟨0x0111, 0, [], false⟩

/-- `sys.fault.show` (R554). -/
def Cmd.sysFaultShow : CmdRow := ⟨0x0120, 0, [], false⟩

/-- `sys.fault.clear` (R554). -/
def Cmd.sysFaultClear : CmdRow := ⟨0x0121, 2, [], false⟩

/-- `sys.reset` (R554). -/
def Cmd.sysReset : CmdRow := ⟨0x0122, 3, [.loc, .dbg], false⟩

/-- `cfg.record.stage` (R554). -/
def Cmd.cfgRecordStage : CmdRow := ⟨0x0201, 2, [], false⟩

/-- `cfg.record.apply` (R554). -/
def Cmd.cfgRecordApply : CmdRow := ⟨0x0202, 2, [], false⟩

/-- `cfg.record.show` (R554). -/
def Cmd.cfgRecordShow : CmdRow := ⟨0x0203, 0, [], false⟩

/-- `cfg.report.show` (R554). -/
def Cmd.cfgReportShow : CmdRow := ⟨0x0204, 0, [], false⟩

/-- `cfg.override.clear` (R554). -/
def Cmd.cfgOverrideClear : CmdRow := ⟨0x0205, 2, [], false⟩

/-- `cfg.store.commit` (R554). -/
def Cmd.cfgStoreCommit : CmdRow := ⟨0x0206, 2, [], true⟩

/-- `cfg.store.show` (R554). -/
def Cmd.cfgStoreShow : CmdRow := ⟨0x0207, 0, [], false⟩

/-- `link.lane.show` (R554). -/
def Cmd.linkLaneShow : CmdRow := ⟨0x0301, 0, [], false⟩

/-- `link.lane.prbs` (R554). -/
def Cmd.linkLanePrbs : CmdRow := ⟨0x0302, 2, [], true⟩

/-- `link.lane.inject` (R554). -/
def Cmd.linkLaneInject : CmdRow := ⟨0x0303, 3, [], false⟩

/-- `link.lane.recal` (R554). -/
def Cmd.linkLaneRecal : CmdRow := ⟨0x0304, 2, [], true⟩

/-- `link.lane.retire` (R554). -/
def Cmd.linkLaneRetire : CmdRow := ⟨0x0305, 2, [], false⟩

/-- `link.lane.restore` (R554). -/
def Cmd.linkLaneRestore : CmdRow := ⟨0x0306, 2, [], true⟩

/-- `link.lane.clear` (R554). -/
def Cmd.linkLaneClear : CmdRow := ⟨0x0307, 2, [], false⟩

/-- `link.show` (R554). -/
def Cmd.linkShow : CmdRow := ⟨0x0310, 0, [], false⟩

/-- `link.plan.show` (R554). -/
def Cmd.linkPlanShow : CmdRow := ⟨0x0311, 0, [], false⟩

/-- `link.rekey` (R554). -/
def Cmd.linkRekey : CmdRow := ⟨0x0312, 2, [], false⟩

/-- `link.reset` (R554). -/
def Cmd.linkReset : CmdRow := ⟨0x0313, 2, [], true⟩

/-- `path.open` (R554). -/
def Cmd.pathOpen : CmdRow := ⟨0x0401, 1, [], false⟩

/-- `path.close` (R554). -/
def Cmd.pathClose : CmdRow := ⟨0x0402, 1, [], false⟩

/-- `path.show` (R554). -/
def Cmd.pathShow : CmdRow := ⟨0x0403, 0, [], false⟩

/-- `plan.show` (R554). -/
def Cmd.planShow : CmdRow := ⟨0x0501, 0, [], false⟩

/-- `plan.budget.show` (R554). -/
def Cmd.planBudgetShow : CmdRow := ⟨0x0502, 0, [], false⟩

/-- `plan.budget.set` (R554). -/
def Cmd.planBudgetSet : CmdRow := ⟨0x0503, 1, [.loc], false⟩

/-- `plan.contract.set` (R554). -/
def Cmd.planContractSet : CmdRow := ⟨0x0504, 1, [], false⟩

/-- `plan.contract.clear` (R554). -/
def Cmd.planContractClear : CmdRow := ⟨0x0505, 1, [], false⟩

/-- `plan.contract.show` (R554). -/
def Cmd.planContractShow : CmdRow := ⟨0x0506, 0, [], false⟩

/-- `plan.shaper.set` (R554). -/
def Cmd.planShaperSet : CmdRow := ⟨0x0507, 1, [], false⟩

/-- `plan.sample.show` (R554). -/
def Cmd.planSampleShow : CmdRow := ⟨0x0508, 0, [], false⟩

/-- `plan.cost.show` (R554). -/
def Cmd.planCostShow : CmdRow := ⟨0x0509, 0, [], false⟩

/-- `plan.switch.show` (R554). -/
def Cmd.planSwitchShow : CmdRow := ⟨0x0580, 0, [], false⟩

/-- `plan.switch.port.show` (R554). -/
def Cmd.planSwitchPortShow : CmdRow := ⟨0x0581, 0, [], false⟩

/-- `plan.switch.voq.show` (R554). -/
def Cmd.planSwitchVoqShow : CmdRow := ⟨0x0582, 0, [], false⟩

/-- `plan.switch.clear` (R554). -/
def Cmd.planSwitchClear : CmdRow := ⟨0x0583, 1, [], false⟩

/-- `disp.show` (R554). -/
def Cmd.dispShow : CmdRow := ⟨0x0601, 0, [], false⟩

/-- `disp.stream.open` (R554). -/
def Cmd.dispStreamOpen : CmdRow := ⟨0x0602, 1, [], true⟩

/-- `disp.stream.close` (R554). -/
def Cmd.dispStreamClose : CmdRow := ⟨0x0603, 1, [], false⟩

/-- `disp.stream.show` (R554). -/
def Cmd.dispStreamShow : CmdRow := ⟨0x0604, 0, [], false⟩

/-- `disp.hold.overlay` (R554). -/
def Cmd.dispHoldOverlay : CmdRow := ⟨0x0605, 1, [], false⟩

/-- `disp.hold.enter` (R554). -/
def Cmd.dispHoldEnter : CmdRow := ⟨0x0606, 1, [], false⟩

/-- `disp.pair.set` (R554). -/
def Cmd.dispPairSet : CmdRow := ⟨0x0607, 1, [], false⟩

/-- `disp.aux.xfer` (R554). -/
def Cmd.dispAuxXfer : CmdRow := ⟨0x0608, 1, [], false⟩

/-- `disp.clear` (R554). -/
def Cmd.dispClear : CmdRow := ⟨0x0609, 1, [], false⟩

/-- `pcie.show` (R554). -/
def Cmd.pcieShow : CmdRow := ⟨0x0701, 0, [], false⟩

/-- `pcie.port.bind` (R554). -/
def Cmd.pciePortBind : CmdRow := ⟨0x0702, 1, [], true⟩

/-- `pcie.port.unbind` (R554). -/
def Cmd.pciePortUnbind : CmdRow := ⟨0x0703, 1, [], false⟩

/-- `pcie.bridge.show` (R554). -/
def Cmd.pcieBridgeShow : CmdRow := ⟨0x0704, 0, [], false⟩

/-- `pcie.slot.power` (R554). -/
def Cmd.pcieSlotPower : CmdRow := ⟨0x0705, 1, [], false⟩

/-- `pcie.clear` (R554). -/
def Cmd.pcieClear : CmdRow := ⟨0x0706, 1, [], false⟩

/-- `usb.show` (R554). -/
def Cmd.usbShow : CmdRow := ⟨0x0801, 0, [], false⟩

/-- `usb.port.show` (R554). -/
def Cmd.usbPortShow : CmdRow := ⟨0x0802, 0, [], false⟩

/-- `usb.port.power` (R554). -/
def Cmd.usbPortPower : CmdRow := ⟨0x0803, 1, [], false⟩

/-- `usb.keepalive.show` (R554). -/
def Cmd.usbKeepaliveShow : CmdRow := ⟨0x0804, 0, [], false⟩

/-- `usb.clear` (R554). -/
def Cmd.usbClear : CmdRow := ⟨0x0805, 1, [], false⟩

/-- `net.show` (R554). -/
def Cmd.netShow : CmdRow := ⟨0x0901, 0, [], false⟩

/-- `net.bind` (R554). -/
def Cmd.netBind : CmdRow := ⟨0x0902, 1, [], true⟩

/-- `net.group.set` (R554). -/
def Cmd.netGroupSet : CmdRow := ⟨0x0903, 1, [], true⟩

/-- `net.rule.set` (R554). -/
def Cmd.netRuleSet : CmdRow := ⟨0x0904, 1, [], false⟩

/-- `net.flow.set` (R554). -/
def Cmd.netFlowSet : CmdRow := ⟨0x0905, 1, [], false⟩

/-- `net.flow.show` (R554). -/
def Cmd.netFlowShow : CmdRow := ⟨0x0906, 0, [], false⟩

/-- `net.meter.set` (R554). -/
def Cmd.netMeterSet : CmdRow := ⟨0x0907, 1, [], false⟩

/-- `net.presence.set` (R554). -/
def Cmd.netPresenceSet : CmdRow := ⟨0x0908, 1, [], false⟩

/-- `net.presence.show` (R554). -/
def Cmd.netPresenceShow : CmdRow := ⟨0x0909, 0, [], false⟩

/-- `net.clear` (R554). -/
def Cmd.netClear : CmdRow := ⟨0x090A, 1, [], false⟩

/-- `sb.show` (R554). -/
def Cmd.sbShow : CmdRow := ⟨0x0A01, 0, [], false⟩

/-- `sb.route.set` (R554). -/
def Cmd.sbRouteSet : CmdRow := ⟨0x0A02, 2, [], false⟩

/-- `sb.route.show` (R554). -/
def Cmd.sbRouteShow : CmdRow := ⟨0x0A03, 0, [], false⟩

/-- `sb.xfer` (R554). -/
def Cmd.sbXfer : CmdRow := ⟨0x0A04, 1, [], false⟩

/-- `sb.lock` (R554). -/
def Cmd.sbLock : CmdRow := ⟨0x0A05, 1, [], false⟩

/-- `sb.unlock` (R554). -/
def Cmd.sbUnlock : CmdRow := ⟨0x0A06, 1, [], false⟩

/-- `sb.irq.read` (R554). -/
def Cmd.sbIrqRead : CmdRow := ⟨0x0A07, 1, [], false⟩

/-- `sb.irq.mask` (R554). -/
def Cmd.sbIrqMask : CmdRow := ⟨0x0A08, 1, [], false⟩

/-- `sb.fan.set` (R554). -/
def Cmd.sbFanSet : CmdRow := ⟨0x0A09, 1, [], false⟩

/-- `mem.show` (R554). -/
def Cmd.memShow : CmdRow := ⟨0x0B01, 0, [], false⟩

/-- `mem.master.show` (R554). -/
def Cmd.memMasterShow : CmdRow := ⟨0x0B02, 0, [], false⟩

/-- `mem.map.show` (R554). -/
def Cmd.memMapShow : CmdRow := ⟨0x0B03, 0, [], false⟩

/-- `mem.clear` (R554). -/
def Cmd.memClear : CmdRow := ⟨0x0B04, 2, [], false⟩

/-- `mem.inject` (R554). -/
def Cmd.memInject : CmdRow := ⟨0x0B05, 3, [], false⟩

/-- `svc.show` (R554). -/
def Cmd.svcShow : CmdRow := ⟨0x0C01, 0, [], false⟩

/-- `svc.stage` (R554). -/
def Cmd.svcStage : CmdRow := ⟨0x0C02, 3, [], false⟩

/-- `svc.install` (R554). -/
def Cmd.svcInstall : CmdRow := ⟨0x0C03, 3, [], true⟩

/-- `svc.remove` (R554). -/
def Cmd.svcRemove : CmdRow := ⟨0x0C04, 3, [], false⟩

/-- `svc.start` (R554). -/
def Cmd.svcStart : CmdRow := ⟨0x0C05, 1, [], false⟩

/-- `svc.stop` (R554). -/
def Cmd.svcStop : CmdRow := ⟨0x0C06, 1, [], false⟩

/-- `svc.instance.show` (R554). -/
def Cmd.svcInstanceShow : CmdRow := ⟨0x0C07, 0, [], false⟩

/-- `svc.core.drain` (R554). -/
def Cmd.svcCoreDrain : CmdRow := ⟨0x0C08, 1, [], true⟩

/-- `svc.core.admission` (R554). -/
def Cmd.svcCoreAdmit : CmdRow := ⟨0x0C09, 1, [], false⟩

/-- `svc.data.put` (R554). -/
def Cmd.svcDataPut : CmdRow := ⟨0x0C0A, 1, [], false⟩

/-- `cpwr.show` (R554). -/
def Cmd.cpwrShow : CmdRow := ⟨0x0D01, 0, [], false⟩

/-- `cpwr.caps.set` (R554). -/
def Cmd.cpwrCapsSet : CmdRow := ⟨0x0D02, 2, [.loc], false⟩

/-- `cpwr.request` (R554). -/
def Cmd.cpwrRequest : CmdRow := ⟨0x0D03, 2, [.loc], true⟩

/-- `cpwr.answer` (R554). -/
def Cmd.cpwrAnswer : CmdRow := ⟨0x0D04, 2, [.loc], false⟩

/-- `cpwr.swap` (R554). -/
def Cmd.cpwrSwap : CmdRow := ⟨0x0D05, 2, [.loc], true⟩

/-- `cpwr.hardreset` (R554). -/
def Cmd.cpwrHardreset : CmdRow := ⟨0x0D06, 2, [.loc], false⟩

/-- `cpwr.mode.enter` (R554). -/
def Cmd.cpwrModeEnter : CmdRow := ⟨0x0D07, 2, [.loc], false⟩

/-- `cpwr.mux.set` (R554). -/
def Cmd.cpwrMuxSet : CmdRow := ⟨0x0D08, 2, [.loc], false⟩

/-- `cpwr.discover.show` (R554). -/
def Cmd.cpwrDiscoverShow : CmdRow := ⟨0x0D09, 0, [], false⟩

/-- `cpwr.msg.send` (R554). -/
def Cmd.cpwrMsgSend : CmdRow := ⟨0x0D0A, 2, [.loc], false⟩

/-- `cpwr.msg.recv` (R554). -/
def Cmd.cpwrMsgRecv : CmdRow := ⟨0x0D0B, 2, [.loc], false⟩

/-- `ppath.show` (R554). -/
def Cmd.ppathShow : CmdRow := ⟨0x0E01, 0, [], false⟩

/-- `ppath.bay.show` (R554). -/
def Cmd.ppathBayShow : CmdRow := ⟨0x0E02, 0, [], false⟩

/-- `ppath.bay.power` (R554). -/
def Cmd.ppathBayPower : CmdRow := ⟨0x0E03, 2, [], false⟩

/-- `ppath.vbus.show` (R554). -/
def Cmd.ppathVbusShow : CmdRow := ⟨0x0E04, 0, [], false⟩

/-- `ppath.clear` (R554). -/
def Cmd.ppathClear : CmdRow := ⟨0x0E05, 2, [], false⟩

/-- `pstate.show` (R554). -/
def Cmd.pstateShow : CmdRow := ⟨0x0F01, 0, [], false⟩

/-- `pstate.set` (R554). -/
def Cmd.pstateSet : CmdRow := ⟨0x0F02, 2, [.loc, .dbg], false⟩

/-- `trust.show` (R554). -/
def Cmd.trustShow : CmdRow := ⟨0x1001, 0, [], false⟩

/-- `trust.key.show` (R554). -/
def Cmd.trustKeyShow : CmdRow := ⟨0x1002, 0, [], false⟩

/-- `trust.key.install` (R554). -/
def Cmd.trustKeyInstall : CmdRow := ⟨0x1003, 3, [], true⟩

/-- `trust.key.revoke` (R554). -/
def Cmd.trustKeyRevoke : CmdRow := ⟨0x1004, 3, [], true⟩

/-- `trust.lifecycle.advance` (R554). -/
def Cmd.trustLifecycleAdvance : CmdRow := ⟨0x1005, 3, [.loc, .dbg], true⟩

/-- `trust.rollback.advance` (R554). -/
def Cmd.trustRollbackAdvance : CmdRow := ⟨0x1006, 3, [], true⟩

/-- `trust.id.show` (R554). -/
def Cmd.trustIdShow : CmdRow := ⟨0x1007, 0, [], false⟩

/-- `trust.acu.show` (R554). -/
def Cmd.trustAcuShow : CmdRow := ⟨0x1008, 0, [], false⟩

/-- `trust.acu.set` (R554). -/
def Cmd.trustAcuSet : CmdRow := ⟨0x1009, 3, [], false⟩

/-- `trust.acu.log.show` (R554). -/
def Cmd.trustAcuLogShow : CmdRow := ⟨0x100A, 0, [], false⟩

/-- `upd.show` (R554). -/
def Cmd.updShow : CmdRow := ⟨0x1101, 0, [], false⟩

/-- `upd.stage` (R554). -/
def Cmd.updStage : CmdRow := ⟨0x1102, 3, [], false⟩

/-- `upd.verify` (R554). -/
def Cmd.updVerify : CmdRow := ⟨0x1103, 3, [], true⟩

/-- `upd.activate` (R554). -/
def Cmd.updActivate : CmdRow := ⟨0x1104, 3, [], true⟩

/-- `upd.revert` (R554). -/
def Cmd.updRevert : CmdRow := ⟨0x1105, 3, [], true⟩

/-- `upd.commit` (R554). -/
def Cmd.updCommit : CmdRow := ⟨0x1106, 3, [], true⟩

/-- `upd.keyman.put` (R554). -/
def Cmd.updKeymanPut : CmdRow := ⟨0x1107, 3, [], false⟩

/-- `rec.show` (R554). -/
def Cmd.recShow : CmdRow := ⟨0x1201, 0, [], false⟩

/-- `rec.freeze` (R554). -/
def Cmd.recFreeze : CmdRow := ⟨0x1202, 2, [], false⟩

/-- `rec.read` (R554). -/
def Cmd.recRead : CmdRow := ⟨0x1203, 2, [], false⟩

/-- `rec.replay` (R554). -/
def Cmd.recReplay : CmdRow := ⟨0x1204, 2, [], true⟩

/-- `dbg.show` (R554). -/
def Cmd.dbgShow : CmdRow := ⟨0x1301, 0, [], false⟩

/-- `dbg.mem.read` (R554). -/
def Cmd.dbgMemRead : CmdRow := ⟨0x1302, 3, [], false⟩

/-- `dbg.mem.write` (R554). -/
def Cmd.dbgMemWrite : CmdRow := ⟨0x1303, 3, [], false⟩

/-- The command index, first part (Table 22.2). -/
def cmdIndexA : List CmdRow :=
  [Cmd.sysPing, Cmd.sysEventRead, Cmd.sysEventMask, Cmd.sysCmdResult, Cmd.sysCredChallenge,
   Cmd.sysCredOpen, Cmd.sysCredClose, Cmd.sysTopoShow, Cmd.sysTimeShow, Cmd.sysFaultShow,
   Cmd.sysFaultClear, Cmd.sysReset, Cmd.cfgRecordStage, Cmd.cfgRecordApply, Cmd.cfgRecordShow,
   Cmd.cfgReportShow, Cmd.cfgOverrideClear, Cmd.cfgStoreCommit, Cmd.cfgStoreShow, Cmd.linkLaneShow,
   Cmd.linkLanePrbs, Cmd.linkLaneInject, Cmd.linkLaneRecal, Cmd.linkLaneRetire, Cmd.linkLaneRestore,
   Cmd.linkLaneClear, Cmd.linkShow, Cmd.linkPlanShow, Cmd.linkRekey, Cmd.linkReset,
   Cmd.pathOpen, Cmd.pathClose, Cmd.pathShow, Cmd.planShow, Cmd.planBudgetShow,
   Cmd.planBudgetSet, Cmd.planContractSet, Cmd.planContractClear, Cmd.planContractShow, Cmd.planShaperSet,
   Cmd.planSampleShow, Cmd.planCostShow, Cmd.planSwitchShow, Cmd.planSwitchPortShow, Cmd.planSwitchVoqShow,
   Cmd.planSwitchClear, Cmd.dispShow, Cmd.dispStreamOpen, Cmd.dispStreamClose, Cmd.dispStreamShow,
   Cmd.dispHoldOverlay, Cmd.dispHoldEnter, Cmd.dispPairSet, Cmd.dispAuxXfer, Cmd.dispClear,
   Cmd.pcieShow, Cmd.pciePortBind, Cmd.pciePortUnbind, Cmd.pcieBridgeShow, Cmd.pcieSlotPower,
   Cmd.pcieClear, Cmd.usbShow, Cmd.usbPortShow, Cmd.usbPortPower, Cmd.usbKeepaliveShow,
   Cmd.usbClear, Cmd.netShow, Cmd.netBind, Cmd.netGroupSet, Cmd.netRuleSet]

/-- The command index, second part (Table 22.2). -/
def cmdIndexB : List CmdRow :=
  [Cmd.netFlowSet, Cmd.netFlowShow, Cmd.netMeterSet, Cmd.netPresenceSet, Cmd.netPresenceShow,
   Cmd.netClear, Cmd.sbShow, Cmd.sbRouteSet, Cmd.sbRouteShow, Cmd.sbXfer,
   Cmd.sbLock, Cmd.sbUnlock, Cmd.sbIrqRead, Cmd.sbIrqMask, Cmd.sbFanSet,
   Cmd.memShow, Cmd.memMasterShow, Cmd.memMapShow, Cmd.memClear, Cmd.memInject,
   Cmd.svcShow, Cmd.svcStage, Cmd.svcInstall, Cmd.svcRemove, Cmd.svcStart,
   Cmd.svcStop, Cmd.svcInstanceShow, Cmd.svcCoreDrain, Cmd.svcCoreAdmit, Cmd.svcDataPut,
   Cmd.cpwrShow, Cmd.cpwrCapsSet, Cmd.cpwrRequest, Cmd.cpwrAnswer, Cmd.cpwrSwap,
   Cmd.cpwrHardreset, Cmd.cpwrModeEnter, Cmd.cpwrMuxSet, Cmd.cpwrDiscoverShow, Cmd.cpwrMsgSend,
   Cmd.cpwrMsgRecv, Cmd.ppathShow, Cmd.ppathBayShow, Cmd.ppathBayPower, Cmd.ppathVbusShow,
   Cmd.ppathClear, Cmd.pstateShow, Cmd.pstateSet, Cmd.trustShow, Cmd.trustKeyShow,
   Cmd.trustKeyInstall, Cmd.trustKeyRevoke, Cmd.trustLifecycleAdvance, Cmd.trustRollbackAdvance, Cmd.trustIdShow,
   Cmd.trustAcuShow, Cmd.trustAcuSet, Cmd.trustAcuLogShow, Cmd.updShow, Cmd.updStage,
   Cmd.updVerify, Cmd.updActivate, Cmd.updRevert, Cmd.updCommit, Cmd.updKeymanPut,
   Cmd.recShow, Cmd.recFreeze, Cmd.recRead, Cmd.recReplay, Cmd.dbgShow,
   Cmd.dbgMemRead, Cmd.dbgMemWrite]

/-- Every command (Table 22.2). -/
def cmdIndex : List CmdRow := cmdIndexA ++ cmdIndexB

/-- The row of an opcode, if it is a command (R553). -/
def cmdRow? (op : Nat) : Option CmdRow := cmdIndex.find? fun r => r.opcode == op

/-- The channel of a transport (Table 3.1, R391). -/
def viaChan : Via → Chan
  | .spi => .loc
  | .pcie => .tun
  | .usb => .tun
  | .peer _ => .peer
  | .jtag => .dbg
  | .gate _ => .gate

/-- The channel number of signed data and of events: 0 LOCAL to 3 DEBUG, 4 the command gate (R58). -/
def chanNum : Chan → Nat
  | .loc => 0
  | .tun => 1
  | .peer => 2
  | .dbg => 3
  | .gate => 4

/-- The owner of credentials and nonces within a channel: the instance of the gate, the cable port of PEER. -/
def viaOwner : Via → Nat
  | .peer p => p
  | .gate i => i
  | _ => 0

/-- HOPS (Table 3.3). -/
def reqHops (rq : Req) : Nat := fieldAt rq.flags.toNat 12 3

/-- CHAIN (Table 3.3). -/
def reqChain (rq : Req) : Nat := fieldAt rq.flags.toNat 11 1

/-- VALIDATE (Table 3.3). -/
def reqValidate (rq : Req) : Bool := bitAt rq.flags.toNat 0

/-- The FLAGS of a forwarded request: HOPS decremented, everything else unchanged (R69). -/
def hopsDown (f : Half) : Half := BitVec.ofNat 16 (f.toNat - 0x1000)

/-- A field of a request payload, little-endian, `n` bytes at `off` (R5). -/
def arg (rq : Req) (off n : Nat) : Nat := leAt off n rq.payload

/-- The bytes of a request as sent: header of Table 3.2, then the payload. -/
def reqBytes (opcode : Nat) (rq : Req) : List Byte :=
  leBytes 2 opcode ++ leBytes 2 rq.tag.toNat ++ leBytes 2 rq.payload.length ++ leBytes 2 rq.flags.toNat
    ++ leBytes 4 rq.cred.toNat ++ leBytes 4 rq.rsv.toNat ++ rq.payload

/-- The bytes of a reply: header of Table 3.4, then the payload. -/
def replyBytes (r : Reply) : List Byte :=
  leBytes 4 r.status.toNat ++ leBytes 2 r.tag.toNat ++ leBytes 2 r.result ++ leBytes 2 r.data.length
    ++ leBytes 2 r.handle ++ zeros 4 ++ r.data

/-- A request read from the bytes a transport delivered (Table 3.2). -/
def parseReq (via : Via) (bs : List Byte) : Msg :=
  ⟨leAt 0 2 bs,
    ⟨via, BitVec.ofNat 16 (leAt 2 2 bs), BitVec.ofNat 16 (leAt 6 2 bs), BitVec.ofNat 32 (leAt 8 4 bs),
     BitVec.ofNat 32 (leAt 12 4 bs), bs.drop 16⟩,
   leAt 4 2 bs⟩

/-- The payload delivered is as long as LENGTH says (R51). -/
def Msg.whole (m : Msg) : Bool := m.rq.payload.length == m.len

end Sys2Proof.Machine
end

