-- ==== Sys2Proof/Machine/Records.lean ====
section
/-! DEFINITION. Configuration field tables: every field of every record type of Table 4.11 (spec/04, R102), with its
identifier, range, clamp rule, default, sealing and the time at which a change of it takes effect. The identifiers,
ranges and defaults are those of Tables 1.2, 2.5, 3.8, 5.10, 6.11, 7.3, 8.9, 8.10, 9.7, 10.7, 11.7, 12.7, 13.4, 14.6,
15.4, 16.7, 17.3, 18.9, 19.10, 20.11 and 20.12. -/

namespace Sys2Proof.Machine

/-- How a value given to a field is checked at step 2 of Table 4.9 (R98; the Clamp column, spec/00). -/
inductive Rng where
  /-- "Bound": an out-of-range value is clamped to the nearest bound. -/
  | bound (lo hi : Nat)
  /-- "Bound", with the grade's maximum junction temperature as the upper bound (THERM_LIMIT_C). -/
  | grade
  /-- "Set": a value outside the set is replaced by the default. -/
  | oneOf (vs : List Nat)
  /-- "Set" over four nibbles, each 0 to 3 or 0xF (PCIE_BAY_MAP). -/
  | nibbles
  /-- 0, or 128 to 8,192, where 1 to 127 are raised to 128 (HOLD_REGION_MIB, R372). -/
  | hold
  /-- "None": every value of the field's width is accepted. -/
  | any
  deriving DecidableEq, Repr

/-- When a changed applied value takes effect (the owning chapter's rule): at the next tick boundary, at the next system
reset, or whenever the unit next takes the value (at training, at binding, at the next entry, ...). -/
inductive When where
  | tick | reset | use
  deriving DecidableEq, Repr

/-- One row of a record's field table. -/
structure FieldDef where
  ty     : Nat
  id     : Nat
  rng    : Rng
  dflt   : Nat
  whn    : When
  sealed : Bool
  deriving DecidableEq, Repr

/-- The default of REC_FREEZE_MASK (Table 20.12): every event whose status bit is FAULT, the 24 bytes of Table 22.9,
least significant byte first. -/
def faultEventMask : Nat := 0x880430B01460042A2600003000B008000812401040105021


/-- DEVICE_ROLE of `REC_TOPO` (R12). -/
def Fld.DEVICE_ROLE : FieldDef := ⟨0x01, 0x0001, .oneOf [0, 1, 2], 1, .reset, true⟩

/-- MAX_HOPS of `REC_TOPO` (R12). -/
def Fld.MAX_HOPS : FieldDef := ⟨0x01, 0x0002, .bound 1 6, 6, .use, true⟩

/-- DPA0_END of `REC_TOPO` (R12). -/
def Fld.DPA0_END : FieldDef := ⟨0x01, 0x0010, .oneOf [0, 1, 2], 0, .use, false⟩

/-- DPA1_END of `REC_TOPO` (R12). -/
def Fld.DPA1_END : FieldDef := ⟨0x01, 0x0011, .oneOf [0, 1, 2], 0, .use, false⟩

/-- DPA2_END of `REC_TOPO` (R12). -/
def Fld.DPA2_END : FieldDef := ⟨0x01, 0x0012, .oneOf [0, 1, 2], 0, .use, false⟩

/-- DPA3_END of `REC_TOPO` (R12). -/
def Fld.DPA3_END : FieldDef := ⟨0x01, 0x0013, .oneOf [0, 1, 2], 0, .use, false⟩

/-- PCIE_END of `REC_TOPO` (R12). -/
def Fld.PCIE_END : FieldDef := ⟨0x01, 0x0014, .oneOf [0, 1, 2], 0, .use, false⟩

/-- USB_END of `REC_TOPO` (R12). -/
def Fld.USB_END : FieldDef := ⟨0x01, 0x0015, .oneOf [0, 1, 2], 0, .use, false⟩

/-- NET_END of `REC_TOPO` (R12). -/
def Fld.NET_END : FieldDef := ⟨0x01, 0x0016, .oneOf [0, 1, 2], 0, .use, false⟩

/-- FALLBACK_DPX_CP0 of `REC_TOPO` (R12). -/
def Fld.FALLBACK_DPX_CP0 : FieldDef := ⟨0x01, 0x0020, .oneOf [0, 1, 2, 3, 15], 3, .use, false⟩

/-- FALLBACK_DPX_CP1 of `REC_TOPO` (R12). -/
def Fld.FALLBACK_DPX_CP1 : FieldDef := ⟨0x01, 0x0021, .oneOf [0, 1, 2, 3, 15], 2, .use, false⟩

/-- SYNC_TIMEOUT_TICKS of `REC_TIME` (R44). -/
def Fld.SYNC_TIMEOUT_TICKS : FieldDef := ⟨0x02, 0x0001, .bound 4 64, 8, .tick, false⟩

/-- DRIFT_LIMIT_NS of `REC_TIME` (R44). -/
def Fld.DRIFT_LIMIT_NS : FieldDef := ⟨0x02, 0x0002, .bound 8 16, 16, .tick, false⟩

/-- RELOCK_TICKS of `REC_TIME` (R44). -/
def Fld.RELOCK_TICKS : FieldDef := ⟨0x02, 0x0003, .bound 8 256, 16, .tick, false⟩

/-- HOLDOVER_TICKS of `REC_TIME` (R44). -/
def Fld.HOLDOVER_TICKS : FieldDef := ⟨0x02, 0x0004, .bound 0 64, 64, .tick, false⟩

/-- SERVO_GAIN of `REC_TIME` (R44). -/
def Fld.SERVO_GAIN : FieldDef := ⟨0x02, 0x0005, .bound 1 8, 4, .tick, false⟩

/-- ATTN_INTERVAL_US of `REC_MBX` (R63). -/
def Fld.ATTN_INTERVAL_US : FieldDef := ⟨0x03, 0x0001, .bound 500 50000, 2000, .tick, false⟩

/-- WATCHDOG_MULT of `REC_MBX` (R63). -/
def Fld.WATCHDOG_MULT : FieldDef := ⟨0x03, 0x0002, .bound 2 16, 4, .tick, false⟩

/-- CRED_IDLE_S of `REC_MBX` (R63). -/
def Fld.CRED_IDLE_S : FieldDef := ⟨0x03, 0x0003, .bound 10 3600, 600, .tick, false⟩

/-- FORWARD_TIMEOUT_MS of `REC_MBX` (R63). -/
def Fld.FORWARD_TIMEOUT_MS : FieldDef := ⟨0x03, 0x0004, .bound 5 500, 50, .tick, false⟩

/-- MAX_RATE of `REC_LANE` (R142). -/
def Fld.MAX_RATE : FieldDef := ⟨0x10, 0x0001, .oneOf [0, 1], 0, .use, false⟩

/-- PRECODE_POLICY of `REC_LANE` (R142). -/
def Fld.PRECODE_POLICY : FieldDef := ⟨0x10, 0x0002, .oneOf [0, 1, 2], 1, .use, false⟩

/-- L0S_ENABLE of `REC_LANE` (R142). -/
def Fld.L0S_ENABLE : FieldDef := ⟨0x10, 0x0003, .oneOf [0, 1], 1, .tick, false⟩

/-- L1D_ENABLE of `REC_LANE` (R142). -/
def Fld.L1D_ENABLE : FieldDef := ⟨0x10, 0x0004, .oneOf [0, 1], 1, .tick, false⟩

/-- LANE_MASK_CP0 of `REC_LANE` (R142). -/
def Fld.LANE_MASK_CP0 : FieldDef := ⟨0x10, 0x0005, .oneOf [1, 2, 3, 4, 5, 6, 7, 8, 9, 10, 11, 12, 13, 14, 15], 15, .use, false⟩

/-- LANE_MASK_CP1 of `REC_LANE` (R142). -/
def Fld.LANE_MASK_CP1 : FieldDef := ⟨0x10, 0x0006, .oneOf [1, 2, 3, 4, 5, 6, 7, 8, 9, 10, 11, 12, 13, 14, 15], 15, .use, false⟩

/-- TX_SWING_MV of `REC_LANE` (R142). -/
def Fld.TX_SWING_MV : FieldDef := ⟨0x10, 0x0007, .bound 800 1100, 1000, .use, false⟩

/-- RECAL_SER_E of `REC_LANE` (R142). -/
def Fld.RECAL_SER_E : FieldDef := ⟨0x10, 0x0008, .bound 3 7, 5, .tick, false⟩

/-- RECAL_TEMP_DELTA_C of `REC_LANE` (R142). -/
def Fld.RECAL_TEMP_DELTA_C : FieldDef := ⟨0x10, 0x0009, .bound 5 40, 20, .tick, false⟩

/-- RECAL_DEFER_MS of `REC_LANE` (R142). -/
def Fld.RECAL_DEFER_MS : FieldDef := ⟨0x10, 0x000A, .bound 0 1000, 100, .tick, false⟩

/-- RETIRE_UCW_LIMIT of `REC_LANE` (R142). -/
def Fld.RETIRE_UCW_LIMIT : FieldDef := ⟨0x10, 0x000B, .bound 1 1000, 16, .tick, false⟩

/-- SLIP_LIMIT of `REC_LANE` (R142). -/
def Fld.SLIP_LIMIT : FieldDef := ⟨0x10, 0x000C, .bound 1 16, 3, .tick, false⟩

/-- LANE_RETRY_S of `REC_LANE` (R142). -/
def Fld.LANE_RETRY_S : FieldDef := ⟨0x10, 0x000D, .bound 0 3600, 60, .tick, false⟩

/-- LINK_ENCRYPT of `REC_LINK` (R178). -/
def Fld.LINK_ENCRYPT : FieldDef := ⟨0x11, 0x0001, .oneOf [0, 1], 1, .use, true⟩

/-- KEY_ROTATE_S of `REC_LINK` (R178). -/
def Fld.KEY_ROTATE_S : FieldDef := ⟨0x11, 0x0002, .bound 10 600, 600, .tick, true⟩

/-- GEN1_ALLOW of `REC_LINK` (R178). -/
def Fld.GEN1_ALLOW : FieldDef := ⟨0x11, 0x0003, .oneOf [0, 1], 1, .use, true⟩

/-- COACH_MAX_CELLS of `REC_LINK` (R178). -/
def Fld.COACH_MAX_CELLS : FieldDef := ⟨0x11, 0x0004, .bound 1 16, 16, .tick, true⟩

/-- REORDER_NS of `REC_LINK` (R178). -/
def Fld.REORDER_NS : FieldDef := ⟨0x11, 0x0005, .bound 125 2000, 500, .tick, true⟩

/-- REPLAY_TIMEOUT_TICKS of `REC_LINK` (R178). -/
def Fld.REPLAY_TIMEOUT_TICKS : FieldDef := ⟨0x11, 0x0006, .bound 1 32, 4, .tick, true⟩

/-- REPLAY_LIMIT of `REC_LINK` (R178). -/
def Fld.REPLAY_LIMIT : FieldDef := ⟨0x11, 0x0007, .bound 2 64, 8, .tick, true⟩

/-- MASTER_LOSS_TICKS of `REC_LINK` (R178). -/
def Fld.MASTER_LOSS_TICKS : FieldDef := ⟨0x11, 0x0008, .bound 4 64, 16, .use, true⟩

/-- PATH_HOLD_MS of `REC_LINK` (R178). -/
def Fld.PATH_HOLD_MS : FieldDef := ⟨0x11, 0x0009, .bound 0 5000, 1000, .use, true⟩

/-- MIN_CABLE_TC0 of `REC_SWITCH` (R202). -/
def Fld.MIN_CABLE_TC0 : FieldDef := ⟨0x12, 0x0001, .bound 0 4096, 0, .tick, false⟩

/-- MIN_CABLE_TC1 of `REC_SWITCH` (R202). -/
def Fld.MIN_CABLE_TC1 : FieldDef := ⟨0x12, 0x0002, .bound 0 4096, 32, .tick, false⟩

/-- MIN_CABLE_TC2 of `REC_SWITCH` (R202). -/
def Fld.MIN_CABLE_TC2 : FieldDef := ⟨0x12, 0x0003, .bound 0 4096, 64, .tick, false⟩

/-- MIN_CABLE_TC3 of `REC_SWITCH` (R202). -/
def Fld.MIN_CABLE_TC3 : FieldDef := ⟨0x12, 0x0004, .bound 64 8192, 512, .tick, false⟩

/-- MIN_CABLE_TC4 of `REC_SWITCH` (R202). -/
def Fld.MIN_CABLE_TC4 : FieldDef := ⟨0x12, 0x0005, .bound 64 8192, 1024, .tick, false⟩

/-- MIN_CABLE_TC5 of `REC_SWITCH` (R202). -/
def Fld.MIN_CABLE_TC5 : FieldDef := ⟨0x12, 0x0006, .bound 0 4096, 128, .tick, false⟩

/-- MIN_CABLE_TC6 of `REC_SWITCH` (R202). -/
def Fld.MIN_CABLE_TC6 : FieldDef := ⟨0x12, 0x0007, .bound 0 8192, 512, .tick, false⟩

/-- MIN_CABLE_TC7 of `REC_SWITCH` (R202). -/
def Fld.MIN_CABLE_TC7 : FieldDef := ⟨0x12, 0x0008, .bound 96 256, 96, .tick, false⟩

/-- MIN_LOCAL_TC0 of `REC_SWITCH` (R202). -/
def Fld.MIN_LOCAL_TC0 : FieldDef := ⟨0x12, 0x0009, .bound 0 4096, 0, .tick, false⟩

/-- MIN_LOCAL_TC1 of `REC_SWITCH` (R202). -/
def Fld.MIN_LOCAL_TC1 : FieldDef := ⟨0x12, 0x000A, .bound 0 4096, 16, .tick, false⟩

/-- MIN_LOCAL_TC2 of `REC_SWITCH` (R202). -/
def Fld.MIN_LOCAL_TC2 : FieldDef := ⟨0x12, 0x000B, .bound 0 4096, 32, .tick, false⟩

/-- MIN_LOCAL_TC3 of `REC_SWITCH` (R202). -/
def Fld.MIN_LOCAL_TC3 : FieldDef := ⟨0x12, 0x000C, .bound 0 4096, 128, .tick, false⟩

/-- MIN_LOCAL_TC4 of `REC_SWITCH` (R202). -/
def Fld.MIN_LOCAL_TC4 : FieldDef := ⟨0x12, 0x000D, .bound 0 4096, 256, .tick, false⟩

/-- MIN_LOCAL_TC5 of `REC_SWITCH` (R202). -/
def Fld.MIN_LOCAL_TC5 : FieldDef := ⟨0x12, 0x000E, .bound 0 4096, 64, .tick, false⟩

/-- MIN_LOCAL_TC6 of `REC_SWITCH` (R202). -/
def Fld.MIN_LOCAL_TC6 : FieldDef := ⟨0x12, 0x000F, .bound 0 4096, 256, .tick, false⟩

/-- MIN_LOCAL_TC7 of `REC_SWITCH` (R202). -/
def Fld.MIN_LOCAL_TC7 : FieldDef := ⟨0x12, 0x0010, .bound 16 256, 16, .tick, false⟩

/-- REPLAY_CELLS of `REC_SWITCH` (R202). -/
def Fld.REPLAY_CELLS : FieldDef := ⟨0x12, 0x0011, .bound 512 8192, 2048, .tick, false⟩

/-- SHARED_ALPHA of `REC_SWITCH` (R202). -/
def Fld.SHARED_ALPHA : FieldDef := ⟨0x12, 0x0012, .bound 1 64, 16, .tick, false⟩

/-- STARVE_CELLS of `REC_SWITCH` (R202). -/
def Fld.STARVE_CELLS : FieldDef := ⟨0x12, 0x0013, .bound 16 4096, 256, .tick, false⟩

/-- ECN_FREE_CELLS of `REC_SWITCH` (R202). -/
def Fld.ECN_FREE_CELLS : FieldDef := ⟨0x12, 0x0014, .bound 0 16384, 4096, .tick, false⟩

/-- POOL_LOW_CELLS of `REC_SWITCH` (R202). -/
def Fld.POOL_LOW_CELLS : FieldDef := ⟨0x12, 0x0015, .bound 0 16384, 1024, .tick, false⟩

/-- BUDGET_CEILING_MW of `REC_PLAN` (R235). -/
def Fld.BUDGET_CEILING_MW : FieldDef := ⟨0x13, 0x0001, .bound 2000 14500, 14500, .use, false⟩

/-- ENERGY_MARGIN_PCT of `REC_PLAN` (R235). -/
def Fld.ENERGY_MARGIN_PCT : FieldDef := ⟨0x13, 0x0002, .bound 0 20, 5, .use, false⟩

/-- THERM_LIMIT_C of `REC_PLAN` (R235). -/
def Fld.THERM_LIMIT_C : FieldDef := ⟨0x13, 0x0003, .grade, 100, .use, false⟩

/-- THERM_SPAN_C of `REC_PLAN` (R235). -/
def Fld.THERM_SPAN_C : FieldDef := ⟨0x13, 0x0004, .bound 2 30, 10, .use, false⟩

/-- THERM_FLOOR_MW of `REC_PLAN` (R235). -/
def Fld.THERM_FLOOR_MW : FieldDef := ⟨0x13, 0x0005, .bound 2000 14500, 5000, .use, false⟩

/-- THERM_LOOKAHEAD_TICKS of `REC_PLAN` (R235). -/
def Fld.THERM_LOOKAHEAD_TICKS : FieldDef := ⟨0x13, 0x0006, .bound 0 256, 64, .use, false⟩

/-- REVERSE_LIGHT_SLOTS of `REC_PLAN` (R235). -/
def Fld.REVERSE_LIGHT_SLOTS : FieldDef := ⟨0x13, 0x0007, .bound 4 64, 8, .use, false⟩

/-- SPARE_KEEP_PCT of `REC_PLAN` (R235). -/
def Fld.SPARE_KEEP_PCT : FieldDef := ⟨0x13, 0x0008, .bound 0 100, 10, .use, false⟩

/-- L1D_IDLE_TICKS of `REC_PLAN` (R235). -/
def Fld.L1D_IDLE_TICKS : FieldDef := ⟨0x13, 0x0009, .bound 8 4096, 64, .use, false⟩

/-- RATE_HOLD_TICKS of `REC_PLAN` (R235). -/
def Fld.RATE_HOLD_TICKS : FieldDef := ⟨0x13, 0x000A, .bound 1 1024, 32, .use, false⟩

/-- DRR_ROUNDS of `REC_PLAN` (R235). -/
def Fld.DRR_ROUNDS : FieldDef := ⟨0x13, 0x000B, .bound 1 64, 16, .use, false⟩

/-- DRR_BURST_MULT of `REC_PLAN` (R235). -/
def Fld.DRR_BURST_MULT : FieldDef := ⟨0x13, 0x000C, .bound 1 16, 4, .use, false⟩

/-- GATE_PERIODS of `REC_PLAN` (R235). -/
def Fld.GATE_PERIODS : FieldDef := ⟨0x13, 0x000D, .oneOf [1, 2, 5, 10], 5, .use, false⟩

/-- TC7_CELLS of `REC_PLAN` (R235). -/
def Fld.TC7_CELLS : FieldDef := ⟨0x13, 0x000E, .bound 16 128, 16, .use, false⟩

/-- SVC_FLOOR_SLOTS of `REC_PLAN` (R235). -/
def Fld.SVC_FLOOR_SLOTS : FieldDef := ⟨0x13, 0x000F, .bound 0 250, 50, .use, false⟩

/-- DELAY_ALERT_US of `REC_PLAN` (R235). -/
def Fld.DELAY_ALERT_US : FieldDef := ⟨0x13, 0x0010, .bound 0 10000, 0, .use, false⟩

/-- ADMIT_PCT of `REC_CONTRACT` (R236). -/
def Fld.ADMIT_PCT : FieldDef := ⟨0x14, 0x0001, .bound 50 100, 90, .use, false⟩

/-- PRIO_TC6 of `REC_CONTRACT` (R236). -/
def Fld.PRIO_TC6 : FieldDef := ⟨0x14, 0x0002, .bound 0 7, 6, .use, false⟩

/-- PRIO_TC4 of `REC_CONTRACT` (R236). -/
def Fld.PRIO_TC4 : FieldDef := ⟨0x14, 0x0003, .bound 0 7, 5, .use, false⟩

/-- PRIO_TC5 of `REC_CONTRACT` (R236). -/
def Fld.PRIO_TC5 : FieldDef := ⟨0x14, 0x0004, .bound 0 7, 4, .use, false⟩

/-- PRIO_TC3 of `REC_CONTRACT` (R236). -/
def Fld.PRIO_TC3 : FieldDef := ⟨0x14, 0x0005, .bound 0 7, 3, .use, false⟩

/-- PRIO_TC2 of `REC_CONTRACT` (R236). -/
def Fld.PRIO_TC2 : FieldDef := ⟨0x14, 0x0006, .bound 0 7, 2, .use, false⟩

/-- MIN_PCT_DEFAULT of `REC_CONTRACT` (R236). -/
def Fld.MIN_PCT_DEFAULT : FieldDef := ⟨0x14, 0x0007, .bound 0 100, 50, .use, false⟩

/-- ENERGY_ADMIT of `REC_CONTRACT` (R236). -/
def Fld.ENERGY_ADMIT : FieldDef := ⟨0x14, 0x0008, .oneOf [0, 1], 1, .use, false⟩

/-- PRES_DELAY_US of `REC_DISP` (R263). -/
def Fld.PRES_DELAY_US : FieldDef := ⟨0x20, 0x0001, .bound 12 200, 24, .use, false⟩

/-- DISP_MAX_RATE of `REC_DISP` (R263). -/
def Fld.DISP_MAX_RATE : FieldDef := ⟨0x20, 0x0002, .oneOf [0, 1, 2, 3], 0, .use, false⟩

/-- LINK_POLICY of `REC_DISP` (R263). -/
def Fld.LINK_POLICY : FieldDef := ⟨0x20, 0x0003, .oneOf [0, 1], 0, .use, false⟩

/-- HOLD_ENABLE of `REC_DISP` (R263). -/
def Fld.HOLD_ENABLE : FieldDef := ⟨0x20, 0x0004, .oneOf [0, 1], 1, .tick, false⟩

/-- HOLD_GAP_US of `REC_DISP` (R263). -/
def Fld.HOLD_GAP_US : FieldDef := ⟨0x20, 0x0005, .bound 100 100000, 500, .tick, false⟩

/-- HOLD_MAX_S of `REC_DISP` (R263). -/
def Fld.HOLD_MAX_S : FieldDef := ⟨0x20, 0x0006, .bound 0 86400, 0, .tick, false⟩

/-- SKIP_ENABLE of `REC_DISP` (R263). -/
def Fld.SKIP_ENABLE : FieldDef := ⟨0x20, 0x0007, .oneOf [0, 1], 1, .tick, false⟩

/-- AUX_FWD_TIMEOUT_US of `REC_DISP` (R263). -/
def Fld.AUX_FWD_TIMEOUT_US : FieldDef := ⟨0x20, 0x0008, .bound 500 10000, 3200, .tick, false⟩

/-- ADAPTIVE_SYNC of `REC_DISP` (R263). -/
def Fld.ADAPTIVE_SYNC : FieldDef := ⟨0x20, 0x0009, .oneOf [0, 1], 1, .use, false⟩

/-- PCIE_BIFURCATION of `REC_PCIE` (R287). -/
def Fld.PCIE_BIFURCATION : FieldDef := ⟨0x21, 0x0001, .oneOf [0, 1, 2, 3], 1, .use, false⟩

/-- PCIE_UP_WIDTH of `REC_PCIE` (R287). -/
def Fld.PCIE_UP_WIDTH : FieldDef := ⟨0x21, 0x0002, .oneOf [0, 1], 0, .use, false⟩

/-- PCIE_MAX_SPEED of `REC_PCIE` (R287). -/
def Fld.PCIE_MAX_SPEED : FieldDef := ⟨0x21, 0x0003, .oneOf [0, 1, 2], 0, .use, false⟩

/-- PCIE_AUTO_BIND of `REC_PCIE` (R287). -/
def Fld.PCIE_AUTO_BIND : FieldDef := ⟨0x21, 0x0004, .oneOf [0, 1], 1, .tick, false⟩

/-- PCIE_AUTO_MBPS of `REC_PCIE` (R287). -/
def Fld.PCIE_AUTO_MBPS : FieldDef := ⟨0x21, 0x0005, .bound 0 256000, 0, .tick, false⟩

/-- PCIE_HOLD_MS of `REC_PCIE` (R287). -/
def Fld.PCIE_HOLD_MS : FieldDef := ⟨0x21, 0x0006, .bound 0 1000, 100, .tick, false⟩

/-- CPL_LOSS_POLICY of `REC_PCIE` (R287). -/
def Fld.CPL_LOSS_POLICY : FieldDef := ⟨0x21, 0x0007, .oneOf [0, 1], 0, .tick, false⟩

/-- CPL_AGE_MS of `REC_PCIE` (R287). -/
def Fld.CPL_AGE_MS : FieldDef := ⟨0x21, 0x0008, .bound 0 1000, 10, .tick, false⟩

/-- PCIE_BAY_MAP of `REC_PCIE` (R287). -/
def Fld.PCIE_BAY_MAP : FieldDef := ⟨0x21, 0x0009, .nibbles, 0xFFFF, .tick, false⟩

/-- ASPM_L1SS of `REC_PCIE` (R287). -/
def Fld.ASPM_L1SS : FieldDef := ⟨0x21, 0x000A, .oneOf [0, 1, 2], 2, .tick, false⟩

/-- USB_OC_MODE of `REC_USB` (R319). -/
def Fld.USB_OC_MODE : FieldDef := ⟨0x22, 0x0001, .oneOf [0, 1], 0, .use, false⟩

/-- USB_READAHEAD of `REC_USB` (R319). -/
def Fld.USB_READAHEAD : FieldDef := ⟨0x22, 0x0002, .oneOf [0, 1], 1, .tick, false⟩

/-- USB_WRITE_BEHIND of `REC_USB` (R319). -/
def Fld.USB_WRITE_BEHIND : FieldDef := ⟨0x22, 0x0003, .oneOf [0, 1], 1, .tick, false⟩

/-- USB_STAGE_KB of `REC_USB` (R319). -/
def Fld.USB_STAGE_KB : FieldDef := ⟨0x22, 0x0004, .bound 16 256, 64, .tick, false⟩

/-- USB_PERIODIC_LAG_US of `REC_USB` (R319). -/
def Fld.USB_PERIODIC_LAG_US : FieldDef := ⟨0x22, 0x0005, .bound 125 4000, 500, .tick, false⟩

/-- USB_ISO_MBPS of `REC_USB` (R319). -/
def Fld.USB_ISO_MBPS : FieldDef := ⟨0x22, 0x0006, .bound 0 10000, 2000, .use, false⟩

/-- USB_TC3_MBPS of `REC_USB` (R319). -/
def Fld.USB_TC3_MBPS : FieldDef := ⟨0x22, 0x0007, .bound 0 10000, 0, .use, false⟩

/-- USB_PORT_MASK of `REC_USB` (R319). -/
def Fld.USB_PORT_MASK : FieldDef := ⟨0x22, 0x0008, .bound 0 15, 15, .use, false⟩

/-- KEEPALIVE_ENABLE of `REC_USB` (R319). -/
def Fld.KEEPALIVE_ENABLE : FieldDef := ⟨0x22, 0x0009, .oneOf [0, 1], 1, .tick, false⟩

/-- KEEPALIVE_S of `REC_USB` (R319). -/
def Fld.KEEPALIVE_S : FieldDef := ⟨0x22, 0x000A, .bound 0 86400, 3600, .tick, false⟩

/-- KEEPALIVE_ABSORB_RESET of `REC_USB` (R319). -/
def Fld.KEEPALIVE_ABSORB_RESET : FieldDef := ⟨0x22, 0x000B, .oneOf [0, 1], 1, .tick, false⟩

/-- HID_BUFFER_REPORTS of `REC_USB` (R319). -/
def Fld.HID_BUFFER_REPORTS : FieldDef := ⟨0x22, 0x000C, .bound 0 1024, 256, .tick, false⟩

/-- HID_REPLAY_MAX_AGE_MS of `REC_USB` (R319). -/
def Fld.HID_REPLAY_MAX_AGE_MS : FieldDef := ⟨0x22, 0x000D, .bound 0 60000, 2000, .tick, false⟩

/-- KEEPALIVE_IDLE_SUSPEND_MS of `REC_USB` (R319). -/
def Fld.KEEPALIVE_IDLE_SUSPEND_MS : FieldDef := ⟨0x22, 0x000E, .bound 0 60000, 1000, .tick, false⟩

/-- NET_NE0_MODE of `REC_NET` (R345). -/
def Fld.NET_NE0_MODE : FieldDef := ⟨0x23, 0x0001, .oneOf [0, 1, 2, 3, 4, 15], 0, .use, false⟩

/-- NET_NE1_MODE of `REC_NET` (R345). -/
def Fld.NET_NE1_MODE : FieldDef := ⟨0x23, 0x0002, .oneOf [0, 1, 15], 0, .use, false⟩

/-- NET_MAX_FRAME of `REC_NET` (R345). -/
def Fld.NET_MAX_FRAME : FieldDef := ⟨0x23, 0x0003, .bound 1518 9216, 1522, .use, false⟩

/-- NET_PAUSE of `REC_NET` (R345). -/
def Fld.NET_PAUSE : FieldDef := ⟨0x23, 0x0004, .oneOf [0, 1], 1, .tick, false⟩

/-- NET_AUTO_BIND of `REC_NET` (R345). -/
def Fld.NET_AUTO_BIND : FieldDef := ⟨0x23, 0x0005, .oneOf [0, 1], 1, .use, false⟩

/-- NET_BIND_MAC of `REC_NET` (R345). -/
def Fld.NET_BIND_MAC : FieldDef := ⟨0x23, 0x0006, .oneOf [0, 1], 0, .use, false⟩

/-- NET_GROUP0_MBPS of `REC_NET` (R345). -/
def Fld.NET_GROUP0_MBPS : FieldDef := ⟨0x23, 0x0007, .bound 0 25000, 0, .use, false⟩

/-- FLOW_AGE_S of `REC_NET` (R345). -/
def Fld.FLOW_AGE_S : FieldDef := ⟨0x23, 0x0008, .bound 10 86400, 300, .tick, false⟩

/-- NET_EVICT_IDLE_MS of `REC_NET` (R345). -/
def Fld.NET_EVICT_IDLE_MS : FieldDef := ⟨0x23, 0x0009, .bound 0 60000, 1000, .tick, false⟩

/-- NET_DEFAULT_AWAY of `REC_NET` (R345). -/
def Fld.NET_DEFAULT_AWAY : FieldDef := ⟨0x23, 0x000A, .oneOf [0, 1, 2, 3], 1, .tick, false⟩

/-- PRESENCE_ENABLE of `REC_NET` (R345). -/
def Fld.PRESENCE_ENABLE : FieldDef := ⟨0x23, 0x000B, .oneOf [0, 1], 1, .tick, false⟩

/-- NET_WAKE_BUFFER_KB of `REC_NET` (R345). -/
def Fld.NET_WAKE_BUFFER_KB : FieldDef := ⟨0x23, 0x000C, .bound 0 1024, 256, .tick, false⟩

/-- NET_WAKE_BUFFER_MS of `REC_NET` (R345). -/
def Fld.NET_WAKE_BUFFER_MS : FieldDef := ⟨0x23, 0x000D, .bound 100 60000, 5000, .tick, false⟩

/-- NET_WB_US of `REC_NET` (R345). -/
def Fld.NET_WB_US : FieldDef := ⟨0x23, 0x000E, .bound 1 1000, 8, .tick, false⟩

/-- MDNS_RATE_MS of `REC_NET` (R345). -/
def Fld.MDNS_RATE_MS : FieldDef := ⟨0x23, 0x000F, .bound 250 10000, 1000, .tick, false⟩

/-- NET_MAC_ADDR of `REC_NET` (R345). -/
def Fld.NET_MAC_ADDR : FieldDef := ⟨0x23, 0x4001, .any, 0, .use, false⟩

/-- SB_HOLD_US of `REC_SB` (R359). -/
def Fld.SB_HOLD_US : FieldDef := ⟨0x24, 0x0001, .bound 100 24000, 10000, .tick, false⟩

/-- SB_LOCK_MS of `REC_SB` (R359). -/
def Fld.SB_LOCK_MS : FieldDef := ⟨0x24, 0x0002, .bound 1 1000, 50, .tick, false⟩

/-- SB_LOCK_WAIT_MS of `REC_SB` (R359). -/
def Fld.SB_LOCK_WAIT_MS : FieldDef := ⟨0x24, 0x0003, .bound 1 5000, 200, .tick, false⟩

/-- I2C0_MODE of `REC_SB` (R359). -/
def Fld.I2C0_MODE : FieldDef := ⟨0x24, 0x0010, .oneOf [0, 1, 2, 3, 4], 2, .use, false⟩

/-- I2C1_MODE of `REC_SB` (R359). -/
def Fld.I2C1_MODE : FieldDef := ⟨0x24, 0x0011, .oneOf [0, 1, 2, 3, 4], 2, .use, false⟩

/-- I2C2_MODE of `REC_SB` (R359). -/
def Fld.I2C2_MODE : FieldDef := ⟨0x24, 0x0012, .oneOf [0, 1, 2, 3, 4, 5], 2, .use, false⟩

/-- I2C3_MODE of `REC_SB` (R359). -/
def Fld.I2C3_MODE : FieldDef := ⟨0x24, 0x0013, .oneOf [0, 1, 2, 3, 4, 5], 2, .use, false⟩

/-- UART0_BAUD of `REC_SB` (R359). -/
def Fld.UART0_BAUD : FieldDef := ⟨0x24, 0x0020, .bound 9600 3000000, 115200, .tick, false⟩

/-- UART1_BAUD of `REC_SB` (R359). -/
def Fld.UART1_BAUD : FieldDef := ⟨0x24, 0x0021, .bound 9600 3000000, 115200, .tick, false⟩

/-- FAN_PULSES of `REC_SB` (R359). -/
def Fld.FAN_PULSES : FieldDef := ⟨0x24, 0x0030, .bound 1 4, 2, .tick, false⟩

/-- FAN_FAIL_SAFE_PCT of `REC_SB` (R359). -/
def Fld.FAN_FAIL_SAFE_PCT : FieldDef := ⟨0x24, 0x0031, .bound 0 100, 100, .tick, false⟩

/-- SB_IRQ_EXPORT of `REC_SB` (R359). -/
def Fld.SB_IRQ_EXPORT : FieldDef := ⟨0x24, 0x0040, .any, 0, .tick, false⟩

/-- LPDDR_RATE of `REC_MEM` (R375). -/
def Fld.LPDDR_RATE : FieldDef := ⟨0x30, 0x0001, .oneOf [0, 1, 2, 3], 0, .use, true⟩

/-- REPLAY_RING_MIB of `REC_MEM` (R375). -/
def Fld.REPLAY_RING_MIB : FieldDef := ⟨0x30, 0x0002, .bound 64 1024, 256, .reset, true⟩

/-- HOLD_REGION_MIB of `REC_MEM` (R375). -/
def Fld.HOLD_REGION_MIB : FieldDef := ⟨0x30, 0x0003, .hold, 1536, .reset, true⟩

/-- SCRUB_HOURS of `REC_MEM` (R375). -/
def Fld.SCRUB_HOURS : FieldDef := ⟨0x30, 0x0004, .bound 1 168, 24, .reset, true⟩

/-- SVC_CORES_MASK of `REC_SVC` (R405). -/
def Fld.SVC_CORES_MASK : FieldDef := ⟨0x31, 0x0001, .bound 1 255, 255, .use, false⟩

/-- SVC_QUANTUM_US of `REC_SVC` (R405). -/
def Fld.SVC_QUANTUM_US : FieldDef := ⟨0x31, 0x0002, .bound 1 1000, 20, .tick, false⟩

/-- SVC_WDT_MS of `REC_SVC` (R405). -/
def Fld.SVC_WDT_MS : FieldDef := ⟨0x31, 0x0003, .bound 10 10000, 500, .tick, false⟩

/-- SVC_RESTART_LIMIT of `REC_SVC` (R405). -/
def Fld.SVC_RESTART_LIMIT : FieldDef := ⟨0x31, 0x0004, .bound 0 16, 3, .tick, false⟩

/-- SVC_RESTART_WINDOW_S of `REC_SVC` (R405). -/
def Fld.SVC_RESTART_WINDOW_S : FieldDef := ⟨0x31, 0x0005, .bound 10 3600, 300, .tick, false⟩

/-- CUSTOMER_CAPS of `REC_SVC` (R405). -/
def Fld.CUSTOMER_CAPS : FieldDef := ⟨0x31, 0x0006, .bound 0 127, 0x13, .use, false⟩

/-- AUTOSTART_MASK of `REC_SVC` (R405). -/
def Fld.AUTOSTART_MASK : FieldDef := ⟨0x31, 0x0007, .bound 0 15, 15, .use, false⟩

/-- DH_STATUS_LINE of `REC_SVC` (R405). -/
def Fld.DH_STATUS_LINE : FieldDef := ⟨0x31, 0x0010, .oneOf [0, 1], 1, .tick, false⟩

/-- NP_DHCP_RENEW of `REC_SVC` (R405). -/
def Fld.NP_DHCP_RENEW : FieldDef := ⟨0x31, 0x0011, .oneOf [0, 1], 1, .tick, false⟩

/-- NP_WAKE_ON_LOSS of `REC_SVC` (R405). -/
def Fld.NP_WAKE_ON_LOSS : FieldDef := ⟨0x31, 0x0012, .oneOf [0, 1], 1, .tick, false⟩

/-- KA_WAKE_ON_HID of `REC_SVC` (R405). -/
def Fld.KA_WAKE_ON_HID : FieldDef := ⟨0x31, 0x0013, .oneOf [0, 1], 0, .tick, false⟩

/-- FLEET_ENABLE of `REC_SVC` (R405). -/
def Fld.FLEET_ENABLE : FieldDef := ⟨0x31, 0x0020, .oneOf [0, 1], 0, .tick, false⟩

/-- FLEET_PERIOD_S of `REC_SVC` (R405). -/
def Fld.FLEET_PERIOD_S : FieldDef := ⟨0x31, 0x0021, .bound 10 86400, 300, .tick, false⟩

/-- FLEET_KEYID of `REC_SVC` (R405). -/
def Fld.FLEET_KEYID : FieldDef := ⟨0x31, 0x0022, .any, 0, .tick, false⟩

/-- FLEET_PORT of `REC_SVC` (R405). -/
def Fld.FLEET_PORT : FieldDef := ⟨0x31, 0x0023, .bound 1 65535, 443, .tick, false⟩

/-- FLEET_MAC of `REC_SVC` (R405). -/
def Fld.FLEET_MAC : FieldDef := ⟨0x31, 0x0025, .oneOf [0, 1], 1, .tick, false⟩

/-- FLEET_SERVER of `REC_SVC` (R405). -/
def Fld.FLEET_SERVER : FieldDef := ⟨0x31, 0x8024, .any, 0, .tick, false⟩

/-- CC0_ROLE of `REC_CPWR` (R432). -/
def Fld.CC0_ROLE : FieldDef := ⟨0x40, 0x0001, .oneOf [0, 1, 2, 3, 4], 3, .use, true⟩

/-- CC1_ROLE of `REC_CPWR` (R432). -/
def Fld.CC1_ROLE : FieldDef := ⟨0x40, 0x0002, .oneOf [0, 1, 2, 3, 4], 3, .use, true⟩

/-- RP_CURRENT_CP of `REC_CPWR` (R432). -/
def Fld.RP_CURRENT_CP : FieldDef := ⟨0x40, 0x0003, .oneOf [0, 1, 2], 2, .use, true⟩

/-- RP_CURRENT_DS of `REC_CPWR` (R432). -/
def Fld.RP_CURRENT_DS : FieldDef := ⟨0x40, 0x0004, .oneOf [0, 1, 2], 1, .use, true⟩

/-- DATA_ROLE_AUTO of `REC_CPWR` (R432). -/
def Fld.DATA_ROLE_AUTO : FieldDef := ⟨0x40, 0x0005, .oneOf [0, 1], 1, .tick, true⟩

/-- SWAP_PR of `REC_CPWR` (R432). -/
def Fld.SWAP_PR : FieldDef := ⟨0x40, 0x0006, .oneOf [0, 1, 2, 3], 3, .tick, true⟩

/-- SWAP_DR of `REC_CPWR` (R432). -/
def Fld.SWAP_DR : FieldDef := ⟨0x40, 0x0007, .oneOf [0, 1, 2, 3], 1, .tick, true⟩

/-- SWAP_VCONN of `REC_CPWR` (R432). -/
def Fld.SWAP_VCONN : FieldDef := ⟨0x40, 0x0008, .oneOf [0, 1, 2, 3], 1, .tick, true⟩

/-- SRC_REQUEST_POLICY of `REC_CPWR` (R432). -/
def Fld.SRC_REQUEST_POLICY : FieldDef := ⟨0x40, 0x0009, .oneOf [0, 1], 0, .tick, true⟩

/-- SNK_REQUEST_WAIT_MS of `REC_CPWR` (R432). -/
def Fld.SNK_REQUEST_WAIT_MS : FieldDef := ⟨0x40, 0x000A, .bound 1 20, 10, .use, true⟩

/-- DEFAULT_SNK_MA of `REC_CPWR` (R432). -/
def Fld.DEFAULT_SNK_MA : FieldDef := ⟨0x40, 0x000B, .bound 500 5000, 3000, .tick, true⟩

/-- PD_SUPPLIES_HUB of `REC_CPWR` (R432). -/
def Fld.PD_SUPPLIES_HUB : FieldDef := ⟨0x40, 0x000C, .oneOf [0, 1], 0, .tick, true⟩

/-- PD_HUB_SHARE_PCT of `REC_CPWR` (R432). -/
def Fld.PD_HUB_SHARE_PCT : FieldDef := ⟨0x40, 0x000D, .bound 1 100, 100, .tick, true⟩

/-- EPR_ENABLE of `REC_CPWR` (R432). -/
def Fld.EPR_ENABLE : FieldDef := ⟨0x40, 0x000E, .oneOf [0, 1], 1, .tick, true⟩

/-- VCONN_ENABLE of `REC_CPWR` (R432). -/
def Fld.VCONN_ENABLE : FieldDef := ⟨0x40, 0x000F, .oneOf [0, 1], 1, .tick, true⟩

/-- ERROR_RECOVERY_MS of `REC_CPWR` (R432). -/
def Fld.ERROR_RECOVERY_MS : FieldDef := ⟨0x40, 0x0010, .bound 25 500, 50, .use, true⟩

/-- CC_DEBOUNCE_MS of `REC_CPWR` (R432). -/
def Fld.CC_DEBOUNCE_MS : FieldDef := ⟨0x40, 0x0011, .bound 100 200, 150, .use, true⟩

/-- PD_DEBOUNCE_MS of `REC_CPWR` (R432). -/
def Fld.PD_DEBOUNCE_MS : FieldDef := ⟨0x40, 0x0012, .bound 10 20, 15, .use, true⟩

/-- DRP_PERIOD_MS of `REC_CPWR` (R432). -/
def Fld.DRP_PERIOD_MS : FieldDef := ⟨0x40, 0x0013, .bound 50 100, 75, .use, true⟩

/-- DRP_DUTY_PCT of `REC_CPWR` (R432). -/
def Fld.DRP_DUTY_PCT : FieldDef := ⟨0x40, 0x0014, .bound 30 70, 50, .tick, true⟩

/-- DRP_TRY_MS of `REC_CPWR` (R432). -/
def Fld.DRP_TRY_MS : FieldDef := ⟨0x40, 0x0015, .bound 75 150, 100, .use, true⟩

/-- SINK_TX_MS of `REC_CPWR` (R432). -/
def Fld.SINK_TX_MS : FieldDef := ⟨0x40, 0x0016, .bound 16 20, 18, .use, true⟩

/-- SRC_TRANSITION_MS of `REC_CPWR` (R432). -/
def Fld.SRC_TRANSITION_MS : FieldDef := ⟨0x40, 0x0017, .bound 25 35, 30, .use, true⟩

/-- PS_TRANSITION_MS of `REC_CPWR` (R432). -/
def Fld.PS_TRANSITION_MS : FieldDef := ⟨0x40, 0x0018, .bound 450 550, 500, .use, true⟩

/-- PS_SOURCE_OFF_MS of `REC_CPWR` (R432). -/
def Fld.PS_SOURCE_OFF_MS : FieldDef := ⟨0x40, 0x0019, .bound 750 920, 835, .use, true⟩

/-- PS_SOURCE_ON_MS of `REC_CPWR` (R432). -/
def Fld.PS_SOURCE_ON_MS : FieldDef := ⟨0x40, 0x001A, .bound 390 480, 435, .use, true⟩

/-- SRC_RECOVER_MS of `REC_CPWR` (R432). -/
def Fld.SRC_RECOVER_MS : FieldDef := ⟨0x40, 0x001B, .bound 660 1000, 800, .use, true⟩

/-- EPR_KEEPALIVE_MS of `REC_CPWR` (R432). -/
def Fld.EPR_KEEPALIVE_MS : FieldDef := ⟨0x40, 0x001C, .bound 250 500, 375, .use, true⟩

/-- FEED0_SRC of `REC_PPATH` (R454). -/
def Fld.FEED0_SRC : FieldDef := ⟨0x41, 0x0001, .oneOf [0, 1, 2, 3], 0, .reset, true⟩

/-- FEED1_SRC of `REC_PPATH` (R454). -/
def Fld.FEED1_SRC : FieldDef := ⟨0x41, 0x0002, .oneOf [0, 1, 2, 3], 3, .reset, true⟩

/-- FEED0_LIMIT_MA of `REC_PPATH` (R454). -/
def Fld.FEED0_LIMIT_MA : FieldDef := ⟨0x41, 0x0003, .bound 500 20000, 5000, .tick, true⟩

/-- FEED1_LIMIT_MA of `REC_PPATH` (R454). -/
def Fld.FEED1_LIMIT_MA : FieldDef := ⟨0x41, 0x0004, .bound 500 20000, 5000, .tick, true⟩

/-- FEED_UV_MV of `REC_PPATH` (R454). -/
def Fld.FEED_UV_MV : FieldDef := ⟨0x41, 0x0005, .bound 4000 45000, 4400, .tick, true⟩

/-- FEED_OC_MS of `REC_PPATH` (R454). -/
def Fld.FEED_OC_MS : FieldDef := ⟨0x41, 0x0006, .bound 1 100, 10, .tick, true⟩

/-- HUB_RAIL_EFF_PCT of `REC_PPATH` (R454). -/
def Fld.HUB_RAIL_EFF_PCT : FieldDef := ⟨0x41, 0x0007, .bound 50 100, 85, .tick, true⟩

/-- SRC1_MV of `REC_PPATH` (R454). -/
def Fld.SRC1_MV : FieldDef := ⟨0x41, 0x0008, .bound 0 48000, 0, .reset, true⟩

/-- SRC2_MV of `REC_PPATH` (R454). -/
def Fld.SRC2_MV : FieldDef := ⟨0x41, 0x0009, .bound 0 48000, 0, .reset, true⟩

/-- SRC3_MV of `REC_PPATH` (R454). -/
def Fld.SRC3_MV : FieldDef := ⟨0x41, 0x000A, .bound 0 48000, 0, .reset, true⟩

/-- VBUS_SLEW_MV_PER_MS of `REC_PPATH` (R454). -/
def Fld.VBUS_SLEW_MV_PER_MS : FieldDef := ⟨0x41, 0x000B, .bound 1000 30000, 20000, .tick, true⟩

/-- VBUS_FAULT_MS of `REC_PPATH` (R454). -/
def Fld.VBUS_FAULT_MS : FieldDef := ⟨0x41, 0x000C, .bound 1 20, 5, .tick, true⟩

/-- VBUS_RETRY_MS of `REC_PPATH` (R454). -/
def Fld.VBUS_RETRY_MS : FieldDef := ⟨0x41, 0x000D, .bound 100 5000, 500, .tick, true⟩

/-- VBUS_ILIM_PCT of `REC_PPATH` (R454). -/
def Fld.VBUS_ILIM_PCT : FieldDef := ⟨0x41, 0x000E, .bound 100 150, 125, .tick, true⟩

/-- SEAT_DEBOUNCE_MS of `REC_PPATH` (R454). -/
def Fld.SEAT_DEBOUNCE_MS : FieldDef := ⟨0x41, 0x000F, .bound 10 1000, 100, .tick, true⟩

/-- PG_PCT of `REC_PPATH` (R454). -/
def Fld.PG_PCT : FieldDef := ⟨0x41, 0x0010, .bound 80 98, 90, .tick, true⟩

/-- PG_DEBOUNCE_US of `REC_PPATH` (R454). -/
def Fld.PG_DEBOUNCE_US : FieldDef := ⟨0x41, 0x0011, .bound 10 10000, 100, .tick, true⟩

/-- BAY0_ILIM_MA of `REC_PPATH` (R454). -/
def Fld.BAY0_ILIM_MA : FieldDef := ⟨0x41, 0x0110, .bound 100 15000, 3000, .use, true⟩

/-- BAY1_ILIM_MA of `REC_PPATH` (R454). -/
def Fld.BAY1_ILIM_MA : FieldDef := ⟨0x41, 0x0111, .bound 100 15000, 3000, .use, true⟩

/-- BAY2_ILIM_MA of `REC_PPATH` (R454). -/
def Fld.BAY2_ILIM_MA : FieldDef := ⟨0x41, 0x0112, .bound 100 15000, 3000, .use, true⟩

/-- BAY3_ILIM_MA of `REC_PPATH` (R454). -/
def Fld.BAY3_ILIM_MA : FieldDef := ⟨0x41, 0x0113, .bound 100 15000, 3000, .use, true⟩

/-- BAY0_RAMP_MV_PER_MS of `REC_PPATH` (R454). -/
def Fld.BAY0_RAMP_MV_PER_MS : FieldDef := ⟨0x41, 0x0120, .bound 100 10000, 1000, .use, true⟩

/-- BAY1_RAMP_MV_PER_MS of `REC_PPATH` (R454). -/
def Fld.BAY1_RAMP_MV_PER_MS : FieldDef := ⟨0x41, 0x0121, .bound 100 10000, 1000, .use, true⟩

/-- BAY2_RAMP_MV_PER_MS of `REC_PPATH` (R454). -/
def Fld.BAY2_RAMP_MV_PER_MS : FieldDef := ⟨0x41, 0x0122, .bound 100 10000, 1000, .use, true⟩

/-- BAY3_RAMP_MV_PER_MS of `REC_PPATH` (R454). -/
def Fld.BAY3_RAMP_MV_PER_MS : FieldDef := ⟨0x41, 0x0123, .bound 100 10000, 1000, .use, true⟩

/-- BAY0_FAULT_MS of `REC_PPATH` (R454). -/
def Fld.BAY0_FAULT_MS : FieldDef := ⟨0x41, 0x0130, .bound 1 500, 20, .use, true⟩

/-- BAY1_FAULT_MS of `REC_PPATH` (R454). -/
def Fld.BAY1_FAULT_MS : FieldDef := ⟨0x41, 0x0131, .bound 1 500, 20, .use, true⟩

/-- BAY2_FAULT_MS of `REC_PPATH` (R454). -/
def Fld.BAY2_FAULT_MS : FieldDef := ⟨0x41, 0x0132, .bound 1 500, 20, .use, true⟩

/-- BAY3_FAULT_MS of `REC_PPATH` (R454). -/
def Fld.BAY3_FAULT_MS : FieldDef := ⟨0x41, 0x0133, .bound 1 500, 20, .use, true⟩

/-- BAY0_RETRY_MS of `REC_PPATH` (R454). -/
def Fld.BAY0_RETRY_MS : FieldDef := ⟨0x41, 0x0140, .bound 100 60000, 1000, .use, true⟩

/-- BAY1_RETRY_MS of `REC_PPATH` (R454). -/
def Fld.BAY1_RETRY_MS : FieldDef := ⟨0x41, 0x0141, .bound 100 60000, 1000, .use, true⟩

/-- BAY2_RETRY_MS of `REC_PPATH` (R454). -/
def Fld.BAY2_RETRY_MS : FieldDef := ⟨0x41, 0x0142, .bound 100 60000, 1000, .use, true⟩

/-- BAY3_RETRY_MS of `REC_PPATH` (R454). -/
def Fld.BAY3_RETRY_MS : FieldDef := ⟨0x41, 0x0143, .bound 100 60000, 1000, .use, true⟩

/-- BAY0_RETRIES of `REC_PPATH` (R454). -/
def Fld.BAY0_RETRIES : FieldDef := ⟨0x41, 0x0150, .bound 0 15, 3, .use, true⟩

/-- BAY1_RETRIES of `REC_PPATH` (R454). -/
def Fld.BAY1_RETRIES : FieldDef := ⟨0x41, 0x0151, .bound 0 15, 3, .use, true⟩

/-- BAY2_RETRIES of `REC_PPATH` (R454). -/
def Fld.BAY2_RETRIES : FieldDef := ⟨0x41, 0x0152, .bound 0 15, 3, .use, true⟩

/-- BAY3_RETRIES of `REC_PPATH` (R454). -/
def Fld.BAY3_RETRIES : FieldDef := ⟨0x41, 0x0153, .bound 0 15, 3, .use, true⟩

/-- BAY0_TSENSE of `REC_PPATH` (R454). -/
def Fld.BAY0_TSENSE : FieldDef := ⟨0x41, 0x0160, .oneOf [0, 1, 2], 1, .use, true⟩

/-- BAY1_TSENSE of `REC_PPATH` (R454). -/
def Fld.BAY1_TSENSE : FieldDef := ⟨0x41, 0x0161, .oneOf [0, 1, 2], 1, .use, true⟩

/-- BAY2_TSENSE of `REC_PPATH` (R454). -/
def Fld.BAY2_TSENSE : FieldDef := ⟨0x41, 0x0162, .oneOf [0, 1, 2], 1, .use, true⟩

/-- BAY3_TSENSE of `REC_PPATH` (R454). -/
def Fld.BAY3_TSENSE : FieldDef := ⟨0x41, 0x0163, .oneOf [0, 1, 2], 1, .use, true⟩

/-- BAY0_TLIM_C of `REC_PPATH` (R454). -/
def Fld.BAY0_TLIM_C : FieldDef := ⟨0x41, 0x0170, .bound 60 150, 125, .use, true⟩

/-- BAY1_TLIM_C of `REC_PPATH` (R454). -/
def Fld.BAY1_TLIM_C : FieldDef := ⟨0x41, 0x0171, .bound 60 150, 125, .use, true⟩

/-- BAY2_TLIM_C of `REC_PPATH` (R454). -/
def Fld.BAY2_TLIM_C : FieldDef := ⟨0x41, 0x0172, .bound 60 150, 125, .use, true⟩

/-- BAY3_TLIM_C of `REC_PPATH` (R454). -/
def Fld.BAY3_TLIM_C : FieldDef := ⟨0x41, 0x0173, .bound 60 150, 125, .use, true⟩

/-- BAY0_RDSON_MOHM of `REC_PPATH` (R454). -/
def Fld.BAY0_RDSON_MOHM : FieldDef := ⟨0x41, 0x0180, .bound 1 100, 5, .use, true⟩

/-- BAY1_RDSON_MOHM of `REC_PPATH` (R454). -/
def Fld.BAY1_RDSON_MOHM : FieldDef := ⟨0x41, 0x0181, .bound 1 100, 5, .use, true⟩

/-- BAY2_RDSON_MOHM of `REC_PPATH` (R454). -/
def Fld.BAY2_RDSON_MOHM : FieldDef := ⟨0x41, 0x0182, .bound 1 100, 5, .use, true⟩

/-- BAY3_RDSON_MOHM of `REC_PPATH` (R454). -/
def Fld.BAY3_RDSON_MOHM : FieldDef := ⟨0x41, 0x0183, .bound 1 100, 5, .use, true⟩

/-- BAY0_RTH_CW of `REC_PPATH` (R454). -/
def Fld.BAY0_RTH_CW : FieldDef := ⟨0x41, 0x0190, .bound 10 1000, 400, .use, true⟩

/-- BAY1_RTH_CW of `REC_PPATH` (R454). -/
def Fld.BAY1_RTH_CW : FieldDef := ⟨0x41, 0x0191, .bound 10 1000, 400, .use, true⟩

/-- BAY2_RTH_CW of `REC_PPATH` (R454). -/
def Fld.BAY2_RTH_CW : FieldDef := ⟨0x41, 0x0192, .bound 10 1000, 400, .use, true⟩

/-- BAY3_RTH_CW of `REC_PPATH` (R454). -/
def Fld.BAY3_RTH_CW : FieldDef := ⟨0x41, 0x0193, .bound 10 1000, 400, .use, true⟩

/-- BAY0_TAU_MS of `REC_PPATH` (R454). -/
def Fld.BAY0_TAU_MS : FieldDef := ⟨0x41, 0x01A0, .bound 10 60000, 2000, .use, true⟩

/-- BAY1_TAU_MS of `REC_PPATH` (R454). -/
def Fld.BAY1_TAU_MS : FieldDef := ⟨0x41, 0x01A1, .bound 10 60000, 2000, .use, true⟩

/-- BAY2_TAU_MS of `REC_PPATH` (R454). -/
def Fld.BAY2_TAU_MS : FieldDef := ⟨0x41, 0x01A2, .bound 10 60000, 2000, .use, true⟩

/-- BAY3_TAU_MS of `REC_PPATH` (R454). -/
def Fld.BAY3_TAU_MS : FieldDef := ⟨0x41, 0x01A3, .bound 10 60000, 2000, .use, true⟩

/-- BAY0_AUTO of `REC_PPATH` (R454). -/
def Fld.BAY0_AUTO : FieldDef := ⟨0x41, 0x01B0, .oneOf [0, 1], 0, .use, true⟩

/-- BAY1_AUTO of `REC_PPATH` (R454). -/
def Fld.BAY1_AUTO : FieldDef := ⟨0x41, 0x01B1, .oneOf [0, 1], 0, .use, true⟩

/-- BAY2_AUTO of `REC_PPATH` (R454). -/
def Fld.BAY2_AUTO : FieldDef := ⟨0x41, 0x01B2, .oneOf [0, 1], 0, .use, true⟩

/-- BAY3_AUTO of `REC_PPATH` (R454). -/
def Fld.BAY3_AUTO : FieldDef := ⟨0x41, 0x01B3, .oneOf [0, 1], 0, .use, true⟩

/-- PSTATE_UNATT_TARGET of `REC_PSTATE` (R476). -/
def Fld.PSTATE_UNATT_TARGET : FieldDef := ⟨0x42, 0x0001, .oneOf [0, 1, 2], 2, .tick, false⟩

/-- IDLE_ENTRY_TICKS of `REC_PSTATE` (R476). -/
def Fld.IDLE_ENTRY_TICKS : FieldDef := ⟨0x42, 0x0002, .bound 8 4096, 64, .tick, false⟩

/-- IDLE_LOAD_PCT of `REC_PSTATE` (R476). -/
def Fld.IDLE_LOAD_PCT : FieldDef := ⟨0x42, 0x0003, .bound 5 90, 30, .tick, false⟩

/-- WAKE_MASK of `REC_PSTATE` (R476). -/
def Fld.WAKE_MASK : FieldDef := ⟨0x42, 0x0004, .bound 0 511, 0x1FF, .use, false⟩

/-- WAKE_TIMER_S of `REC_PSTATE` (R476). -/
def Fld.WAKE_TIMER_S : FieldDef := ⟨0x42, 0x0005, .bound 0 86400, 0, .use, false⟩

/-- ENTRY_TIMEOUT_MS of `REC_PSTATE` (R476). -/
def Fld.ENTRY_TIMEOUT_MS : FieldDef := ⟨0x42, 0x0006, .bound 10 1000, 200, .tick, false⟩

/-- REFCLK_SETTLE_US of `REC_PSTATE` (R476). -/
def Fld.REFCLK_SETTLE_US : FieldDef := ⟨0x42, 0x0007, .bound 20 2000, 100, .tick, false⟩

/-- NEX_IN_RETAIN of `REC_PSTATE` (R476). -/
def Fld.NEX_IN_RETAIN : FieldDef := ⟨0x42, 0x0008, .oneOf [0, 1], 0, .use, false⟩

/-- AVS_MARGIN_PS of `REC_PSTATE` (R476). -/
def Fld.AVS_MARGIN_PS : FieldDef := ⟨0x42, 0x0009, .bound 10 100, 30, .tick, false⟩

/-- NOMATCH_MASK of `REC_TRUST` (R505). -/
def Fld.NOMATCH_MASK : FieldDef := ⟨0x50, 0x0001, .any, 0x0000, .reset, true⟩

/-- OWNER_IMAGE_SIG of `REC_TRUST` (R505). -/
def Fld.OWNER_IMAGE_SIG : FieldDef := ⟨0x50, 0x0002, .oneOf [0, 1], 0, .reset, true⟩

/-- ROLLBACK_AUTO of `REC_TRUST` (R505). -/
def Fld.ROLLBACK_AUTO : FieldDef := ⟨0x50, 0x0003, .oneOf [0, 1], 0, .reset, true⟩

/-- CORE_DEBUG of `REC_TRUST` (R505). -/
def Fld.CORE_DEBUG : FieldDef := ⟨0x50, 0x0004, .oneOf [0, 1], 1, .reset, true⟩

/-- UPD_UNTESTED_POLICY of `REC_UPD` (R531). -/
def Fld.UPD_UNTESTED_POLICY : FieldDef := ⟨0x51, 0x0001, .oneOf [0, 1], 0, .tick, true⟩

/-- UPD_WAIT_MS of `REC_UPD` (R531). -/
def Fld.UPD_WAIT_MS : FieldDef := ⟨0x51, 0x0002, .bound 10 10000, 1000, .tick, true⟩

/-- HANDOVER_LIMIT_TICKS of `REC_UPD` (R531). -/
def Fld.HANDOVER_LIMIT_TICKS : FieldDef := ⟨0x51, 0x0003, .bound 8 56, 32, .tick, true⟩

/-- UPD_AUTOCOMMIT_S of `REC_UPD` (R531). -/
def Fld.UPD_AUTOCOMMIT_S : FieldDef := ⟨0x51, 0x0004, .bound 0 86400, 0, .tick, true⟩

/-- WOERI_COLD of `REC_UPD` (R531). -/
def Fld.WOERI_COLD : FieldDef := ⟨0x51, 0x0005, .oneOf [0, 1], 0, .tick, true⟩

/-- REC_ENABLE of `REC_REC` (R531). -/
def Fld.REC_ENABLE : FieldDef := ⟨0x52, 0x0001, .oneOf [0, 1], 1, .tick, false⟩

/-- CHECKPOINT_MS of `REC_REC` (R531). -/
def Fld.CHECKPOINT_MS : FieldDef := ⟨0x52, 0x0002, .bound 100 10000, 1000, .use, false⟩

/-- REC_POST_TICKS of `REC_REC` (R531). -/
def Fld.REC_POST_TICKS : FieldDef := ⟨0x52, 0x0003, .bound 0 65536, 3200, .tick, false⟩

/-- REC_OUTPUT of `REC_REC` (R531). -/
def Fld.REC_OUTPUT : FieldDef := ⟨0x52, 0x0004, .oneOf [0, 1], 1, .tick, false⟩

/-- REC_FREEZE_MASK of `REC_REC` (R531). -/
def Fld.REC_FREEZE_MASK : FieldDef := ⟨0x52, 0xC001, .any, faultEventMask, .tick, false⟩


/-- The fields of `REC_TOPO`, in ascending identifier order. -/
def fieldsTopo : List FieldDef :=
  [Fld.DEVICE_ROLE, Fld.MAX_HOPS, Fld.DPA0_END, Fld.DPA1_END, Fld.DPA2_END, Fld.DPA3_END,
   Fld.PCIE_END, Fld.USB_END, Fld.NET_END, Fld.FALLBACK_DPX_CP0, Fld.FALLBACK_DPX_CP1]


/-- The fields of `REC_TIME`, in ascending identifier order. -/
def fieldsTime : List FieldDef :=
  [Fld.SYNC_TIMEOUT_TICKS, Fld.DRIFT_LIMIT_NS, Fld.RELOCK_TICKS, Fld.HOLDOVER_TICKS, Fld.SERVO_GAIN]


/-- The fields of `REC_MBX`, in ascending identifier order. -/
def fieldsMbx : List FieldDef :=
  [Fld.ATTN_INTERVAL_US, Fld.WATCHDOG_MULT, Fld.CRED_IDLE_S, Fld.FORWARD_TIMEOUT_MS]


/-- The fields of `REC_LANE`, in ascending identifier order. -/
def fieldsLane : List FieldDef :=
  [Fld.MAX_RATE, Fld.PRECODE_POLICY, Fld.L0S_ENABLE, Fld.L1D_ENABLE, Fld.LANE_MASK_CP0, Fld.LANE_MASK_CP1,
   Fld.TX_SWING_MV, Fld.RECAL_SER_E, Fld.RECAL_TEMP_DELTA_C, Fld.RECAL_DEFER_MS, Fld.RETIRE_UCW_LIMIT, Fld.SLIP_LIMIT,
   Fld.LANE_RETRY_S]


/-- The fields of `REC_LINK`, in ascending identifier order. -/
def fieldsLink : List FieldDef :=
  [Fld.LINK_ENCRYPT, Fld.KEY_ROTATE_S, Fld.GEN1_ALLOW, Fld.COACH_MAX_CELLS, Fld.REORDER_NS, Fld.REPLAY_TIMEOUT_TICKS,
   Fld.REPLAY_LIMIT, Fld.MASTER_LOSS_TICKS, Fld.PATH_HOLD_MS]


/-- The fields of `REC_SWITCH`, in ascending identifier order. -/
def fieldsSwitch : List FieldDef :=
  [Fld.MIN_CABLE_TC0, Fld.MIN_CABLE_TC1, Fld.MIN_CABLE_TC2, Fld.MIN_CABLE_TC3, Fld.MIN_CABLE_TC4, Fld.MIN_CABLE_TC5,
   Fld.MIN_CABLE_TC6, Fld.MIN_CABLE_TC7, Fld.MIN_LOCAL_TC0, Fld.MIN_LOCAL_TC1, Fld.MIN_LOCAL_TC2, Fld.MIN_LOCAL_TC3,
   Fld.MIN_LOCAL_TC4, Fld.MIN_LOCAL_TC5, Fld.MIN_LOCAL_TC6, Fld.MIN_LOCAL_TC7, Fld.REPLAY_CELLS, Fld.SHARED_ALPHA,
   Fld.STARVE_CELLS, Fld.ECN_FREE_CELLS, Fld.POOL_LOW_CELLS]


/-- The fields of `REC_PLAN`, in ascending identifier order. -/
def fieldsPlan : List FieldDef :=
  [Fld.BUDGET_CEILING_MW, Fld.ENERGY_MARGIN_PCT, Fld.THERM_LIMIT_C, Fld.THERM_SPAN_C, Fld.THERM_FLOOR_MW, Fld.THERM_LOOKAHEAD_TICKS,
   Fld.REVERSE_LIGHT_SLOTS, Fld.SPARE_KEEP_PCT, Fld.L1D_IDLE_TICKS, Fld.RATE_HOLD_TICKS, Fld.DRR_ROUNDS, Fld.DRR_BURST_MULT,
   Fld.GATE_PERIODS, Fld.TC7_CELLS, Fld.SVC_FLOOR_SLOTS, Fld.DELAY_ALERT_US]


/-- The fields of `REC_CONTRACT`, in ascending identifier order. -/
def fieldsContract : List FieldDef :=
  [Fld.ADMIT_PCT, Fld.PRIO_TC6, Fld.PRIO_TC4, Fld.PRIO_TC5, Fld.PRIO_TC3, Fld.PRIO_TC2,
   Fld.MIN_PCT_DEFAULT, Fld.ENERGY_ADMIT]


/-- The fields of `REC_DISP`, in ascending identifier order. -/
def fieldsDisp : List FieldDef :=
  [Fld.PRES_DELAY_US, Fld.DISP_MAX_RATE, Fld.LINK_POLICY, Fld.HOLD_ENABLE, Fld.HOLD_GAP_US, Fld.HOLD_MAX_S,
   Fld.SKIP_ENABLE, Fld.AUX_FWD_TIMEOUT_US, Fld.ADAPTIVE_SYNC]


/-- The fields of `REC_PCIE`, in ascending identifier order. -/
def fieldsPcie : List FieldDef :=
  [Fld.PCIE_BIFURCATION, Fld.PCIE_UP_WIDTH, Fld.PCIE_MAX_SPEED, Fld.PCIE_AUTO_BIND, Fld.PCIE_AUTO_MBPS, Fld.PCIE_HOLD_MS,
   Fld.CPL_LOSS_POLICY, Fld.CPL_AGE_MS, Fld.PCIE_BAY_MAP, Fld.ASPM_L1SS]


/-- The fields of `REC_USB`, in ascending identifier order. -/
def fieldsUsb : List FieldDef :=
  [Fld.USB_OC_MODE, Fld.USB_READAHEAD, Fld.USB_WRITE_BEHIND, Fld.USB_STAGE_KB, Fld.USB_PERIODIC_LAG_US, Fld.USB_ISO_MBPS,
   Fld.USB_TC3_MBPS, Fld.USB_PORT_MASK, Fld.KEEPALIVE_ENABLE, Fld.KEEPALIVE_S, Fld.KEEPALIVE_ABSORB_RESET, Fld.HID_BUFFER_REPORTS,
   Fld.HID_REPLAY_MAX_AGE_MS, Fld.KEEPALIVE_IDLE_SUSPEND_MS]


/-- The fields of `REC_NET`, in ascending identifier order. -/
def fieldsNet : List FieldDef :=
  [Fld.NET_NE0_MODE, Fld.NET_NE1_MODE, Fld.NET_MAX_FRAME, Fld.NET_PAUSE, Fld.NET_AUTO_BIND, Fld.NET_BIND_MAC,
   Fld.NET_GROUP0_MBPS, Fld.FLOW_AGE_S, Fld.NET_EVICT_IDLE_MS, Fld.NET_DEFAULT_AWAY, Fld.PRESENCE_ENABLE, Fld.NET_WAKE_BUFFER_KB,
   Fld.NET_WAKE_BUFFER_MS, Fld.NET_WB_US, Fld.MDNS_RATE_MS, Fld.NET_MAC_ADDR]


/-- The fields of `REC_SB`, in ascending identifier order. -/
def fieldsSb : List FieldDef :=
  [Fld.SB_HOLD_US, Fld.SB_LOCK_MS, Fld.SB_LOCK_WAIT_MS, Fld.I2C0_MODE, Fld.I2C1_MODE, Fld.I2C2_MODE,
   Fld.I2C3_MODE, Fld.UART0_BAUD, Fld.UART1_BAUD, Fld.FAN_PULSES, Fld.FAN_FAIL_SAFE_PCT, Fld.SB_IRQ_EXPORT]


/-- The fields of `REC_MEM`, in ascending identifier order. -/
def fieldsMem : List FieldDef :=
  [Fld.LPDDR_RATE, Fld.REPLAY_RING_MIB, Fld.HOLD_REGION_MIB, Fld.SCRUB_HOURS]


/-- The fields of `REC_SVC`, in ascending identifier order. -/
def fieldsSvc : List FieldDef :=
  [Fld.SVC_CORES_MASK, Fld.SVC_QUANTUM_US, Fld.SVC_WDT_MS, Fld.SVC_RESTART_LIMIT, Fld.SVC_RESTART_WINDOW_S, Fld.CUSTOMER_CAPS,
   Fld.AUTOSTART_MASK, Fld.DH_STATUS_LINE, Fld.NP_DHCP_RENEW, Fld.NP_WAKE_ON_LOSS, Fld.KA_WAKE_ON_HID, Fld.FLEET_ENABLE,
   Fld.FLEET_PERIOD_S, Fld.FLEET_KEYID, Fld.FLEET_PORT, Fld.FLEET_MAC, Fld.FLEET_SERVER]


/-- The fields of `REC_CPWR`, in ascending identifier order. -/
def fieldsCpwr : List FieldDef :=
  [Fld.CC0_ROLE, Fld.CC1_ROLE, Fld.RP_CURRENT_CP, Fld.RP_CURRENT_DS, Fld.DATA_ROLE_AUTO, Fld.SWAP_PR,
   Fld.SWAP_DR, Fld.SWAP_VCONN, Fld.SRC_REQUEST_POLICY, Fld.SNK_REQUEST_WAIT_MS, Fld.DEFAULT_SNK_MA, Fld.PD_SUPPLIES_HUB,
   Fld.PD_HUB_SHARE_PCT, Fld.EPR_ENABLE, Fld.VCONN_ENABLE, Fld.ERROR_RECOVERY_MS, Fld.CC_DEBOUNCE_MS, Fld.PD_DEBOUNCE_MS,
   Fld.DRP_PERIOD_MS, Fld.DRP_DUTY_PCT, Fld.DRP_TRY_MS, Fld.SINK_TX_MS, Fld.SRC_TRANSITION_MS, Fld.PS_TRANSITION_MS,
   Fld.PS_SOURCE_OFF_MS, Fld.PS_SOURCE_ON_MS, Fld.SRC_RECOVER_MS, Fld.EPR_KEEPALIVE_MS]


/-- The fields of `REC_PPATH`, in ascending identifier order. -/
def fieldsPpath : List FieldDef :=
  [Fld.FEED0_SRC, Fld.FEED1_SRC, Fld.FEED0_LIMIT_MA, Fld.FEED1_LIMIT_MA, Fld.FEED_UV_MV, Fld.FEED_OC_MS,
   Fld.HUB_RAIL_EFF_PCT, Fld.SRC1_MV, Fld.SRC2_MV, Fld.SRC3_MV, Fld.VBUS_SLEW_MV_PER_MS, Fld.VBUS_FAULT_MS,
   Fld.VBUS_RETRY_MS, Fld.VBUS_ILIM_PCT, Fld.SEAT_DEBOUNCE_MS, Fld.PG_PCT, Fld.PG_DEBOUNCE_US, Fld.BAY0_ILIM_MA,
   Fld.BAY1_ILIM_MA, Fld.BAY2_ILIM_MA, Fld.BAY3_ILIM_MA, Fld.BAY0_RAMP_MV_PER_MS, Fld.BAY1_RAMP_MV_PER_MS, Fld.BAY2_RAMP_MV_PER_MS,
   Fld.BAY3_RAMP_MV_PER_MS, Fld.BAY0_FAULT_MS, Fld.BAY1_FAULT_MS, Fld.BAY2_FAULT_MS, Fld.BAY3_FAULT_MS, Fld.BAY0_RETRY_MS,
   Fld.BAY1_RETRY_MS, Fld.BAY2_RETRY_MS, Fld.BAY3_RETRY_MS, Fld.BAY0_RETRIES, Fld.BAY1_RETRIES, Fld.BAY2_RETRIES,
   Fld.BAY3_RETRIES, Fld.BAY0_TSENSE, Fld.BAY1_TSENSE, Fld.BAY2_TSENSE, Fld.BAY3_TSENSE, Fld.BAY0_TLIM_C,
   Fld.BAY1_TLIM_C, Fld.BAY2_TLIM_C, Fld.BAY3_TLIM_C, Fld.BAY0_RDSON_MOHM, Fld.BAY1_RDSON_MOHM, Fld.BAY2_RDSON_MOHM,
   Fld.BAY3_RDSON_MOHM, Fld.BAY0_RTH_CW, Fld.BAY1_RTH_CW, Fld.BAY2_RTH_CW, Fld.BAY3_RTH_CW, Fld.BAY0_TAU_MS,
   Fld.BAY1_TAU_MS, Fld.BAY2_TAU_MS, Fld.BAY3_TAU_MS, Fld.BAY0_AUTO, Fld.BAY1_AUTO, Fld.BAY2_AUTO,
   Fld.BAY3_AUTO]


/-- The fields of `REC_PSTATE`, in ascending identifier order. -/
def fieldsPstate : List FieldDef :=
  [Fld.PSTATE_UNATT_TARGET, Fld.IDLE_ENTRY_TICKS, Fld.IDLE_LOAD_PCT, Fld.WAKE_MASK, Fld.WAKE_TIMER_S, Fld.ENTRY_TIMEOUT_MS,
   Fld.REFCLK_SETTLE_US, Fld.NEX_IN_RETAIN, Fld.AVS_MARGIN_PS]


/-- The fields of `REC_TRUST`, in ascending identifier order. -/
def fieldsTrust : List FieldDef :=
  [Fld.NOMATCH_MASK, Fld.OWNER_IMAGE_SIG, Fld.ROLLBACK_AUTO, Fld.CORE_DEBUG]


/-- The fields of `REC_UPD`, in ascending identifier order. -/
def fieldsUpd : List FieldDef :=
  [Fld.UPD_UNTESTED_POLICY, Fld.UPD_WAIT_MS, Fld.HANDOVER_LIMIT_TICKS, Fld.UPD_AUTOCOMMIT_S, Fld.WOERI_COLD]


/-- The fields of `REC_REC`, in ascending identifier order. -/
def fieldsRec : List FieldDef :=
  [Fld.REC_ENABLE, Fld.CHECKPOINT_MS, Fld.REC_POST_TICKS, Fld.REC_OUTPUT, Fld.REC_FREEZE_MASK]


/-- Every field table, in record-type order (Table 4.11). -/
def fieldTable : List FieldDef :=
  fieldsTopo ++ fieldsTime ++ fieldsMbx ++ fieldsLane ++ fieldsLink ++ fieldsSwitch ++ fieldsPlan ++ fieldsContract ++ fieldsDisp ++ fieldsPcie ++ fieldsUsb ++ fieldsNet ++ fieldsSb ++ fieldsMem ++ fieldsSvc ++ fieldsCpwr ++ fieldsPpath ++ fieldsPstate ++ fieldsTrust ++ fieldsUpd ++ fieldsRec


/-- The record types of Table 4.11. -/
def recTypes : List Nat :=
  [0x01, 0x02, 0x03, 0x10, 0x11, 0x12, 0x13, 0x14, 0x20, 0x21, 0x22, 0x23, 0x24, 0x30, 0x31, 0x40, 0x41, 0x42, 0x50, 0x51, 0x52]


/-- The field of a record type with a given identifier, if the firmware defines one. -/
def fieldOf? (ty id : Nat) : Option FieldDef :=
  fieldTable.find? fun f => f.ty == ty && f.id == id

end Sys2Proof.Machine
end

