-- ==== Sys2Proof/Machine/Ops.lean ====
section
/-! DEFINITION. The shared operations: what the block puts out, life cycle and configuration values, spores, events, the
status word, replies, completion handles, and the one way in which a mailbox command is executed (Table 22.7). -/

namespace Sys2Proof.Machine

abbrev Out := Host.Outcome State Fault Refusal

/-! ### Outputs and free values -/

/-- The state with an empty output list: a command starts with it, so that `out` holds what this command put out. -/
def State.begin (s : State) : State := { s with out := [] }

/-- The state with one more thing put out, in order. -/
def State.emit (s : State) (e : Emit) : State := { s with out := s.out ++ [e] }

/-- The hub is out of the reset of PORST_N and its rails have not been dropped (R569, R572): until then nothing but the pins and the
rails act on it. -/
def State.powered (s : State) : Bool := s.pins.phase == 1 || s.pins.phase == 2

/-- RETAIN or HIBERNATE, until their exit ends. -/
def State.asleep (s : State) : Bool := s.pwr.state == 3 || (s.pwr.state == 4 && s.pwr.goal == 4)

/-- HIBERNATE, until the boot of its exit. -/
def State.hibernates (s : State) : Bool := s.pwr.state == 4 && s.pwr.goal == 4

/-- In RETAIN and HIBERNATE the timebase clock stands until the exit begins (R30), and every domain but AON and PWR is off (Table 18.1). -/
def State.clockStands (s : State) : Bool := s.asleep && s.pwr.phase != 4

/-- The hub is powered, and the domains of an ACTIVE hub are on: not asleep, and not in thermal shutdown (R543). -/
def State.awake (s : State) : Bool := s.powered && !s.clockStands && !s.fault.thermal

/-- The PWR domain is on: off in HIBERNATE only (Table 18.1). -/
def State.pwrLive (s : State) : Bool := s.powered && !(s.hibernates && s.pwr.phase != 4)

/-- NEX is on: in RETAIN only with NEX_IN_RETAIN (R460). -/
def State.netLive (s : State) : Bool := s.awake || (s.powered && s.pwr.state == 3 && s.pwr.nex)

/-- A command whose effect is a next state; without effect while the domains that it acts on are off. -/
def runIf (live : Bool) (s : State) (f : State → State) : Out := .next (if live then f s.begin else s.begin)

/-- A command of a domain that RETAIN and HIBERNATE switch off. -/
def run (s : State) (f : State → State) : Out := runIf s.awake s f

/-- A command of the always-on domain. -/
def runAon (s : State) (f : State → State) : Out := runIf s.powered s f

/-- A command of the PWR domain. -/
def runPwr (s : State) (f : State → State) : Out := runIf s.pwrLive s f

/-- A command of the NEX domain. -/
def runNet (s : State) (f : State → State) : Out := runIf s.netLive s f

/-- A command of the supply pins, which acts in every state. -/
def runAlways (s : State) (f : State → State) : Out := .next (f s.begin)

/-- The next free value (log entry 3) and the state that has drawn it. -/
def State.draw (s : State) : Nat × State := (Config.freeValue s.free, { s with free := s.free + 1 })

/-! ### Life cycle (R479, R480) -/

/-- A position counts as blown when at least two of its three fuses are blown (R479). -/
def posBlown (f : BitVec 3) : Bool :=
  (f.getLsbD 0 && f.getLsbD 1) || (f.getLsbD 0 && f.getLsbD 2) || (f.getLsbD 1 && f.getLsbD 2)

/-- The life-cycle state: blown positions counted upward from LC0 without a gap (R479): 0 BLANK to 5 SCRAPPED. -/
def State.lifecycle (s : State) : Nat := (s.trust.lc.takeWhile posBlown).length

/-- BLANK, MANUFACTURE and RETURNED: the states in which Table 19.1 permits debug and honours no-match ALLOW. -/
def openLc (lc : Nat) : Bool := lc == 0 || lc == 1 || lc == 4

/-- The state value SCRAPPED. -/
def lcScrapped : Nat := 5

/-! ### Applied configuration values (R91, R98) -/

/-- The default that a role gives an adapter end (Table 1.3): entry 0 to 3 DPA, 4 PCIE, 5 USB, 6 NET. -/
def endDefault (r : Role) (k : Nat) : Nat :=
  match r with
  | .hostside => 1
  | .dockside => 2
  | .relay => 2
  | .none => if k ≤ 6 then 0 else 0

/-- Whether a role permits an end (Table 1.3). -/
def endPermitted (r : Role) (k v : Nat) : Bool :=
  match r with
  | .hostside => if k < 4 then v ≤ 2 else v ≤ 1
  | .dockside => v == 0 || v == 2
  | .relay => if k < 4 then v ≤ 2 else v == 0 || v == 2
  | .none => true

/-- The default of a field, with the role's and the grade's values where the table gives those (Table 1.3, 8.9, 16.7). -/
def State.fldDefault (s : State) (f : FieldDef) : Nat :=
  if f.ty == 0x01 && 0x10 ≤ f.id && f.id ≤ 0x16 then endDefault s.topo.role (f.id - 0x10)
  else if f == Fld.THERM_LIMIT_C then (if s.grade then 100 else 90)
  else if f == Fld.CC0_ROLE || f == Fld.CC1_ROLE then (match s.topo.role with | .hostside => 4 | _ => 3)
  else f.dflt

/-- The value a given override layer holds for a field. -/
def CfgSt.overAt (c : CfgSt) (layer ty id : Nat) : Option Nat :=
  (c.ovr.find? fun o => o.layer == layer && o.ty == ty && o.id == id).map (·.val)

/-- The value the STORE layer holds for a field (R92). -/
def CfgSt.storeAt (c : CfgSt) (ty id : Nat) : Option Nat :=
  match c.store.find? fun r => r.ty == ty with
  | none => none
  | some r => (r.vals.find? fun v => v.id == id).map (·.val)

/-- The highest layer that holds a field, and its value (R91): 0 LOCAL, 1 TUNNEL, 2 PEER, 3 STORE. -/
def CfgSt.highest (c : CfgSt) (ty id : Nat) : Option (Nat × Nat) :=
  match c.overAt 0 ty id with
  | some v => some (0, v)
  | none =>
    match c.overAt 1 ty id with
    | some v => some (1, v)
    | none =>
      match c.overAt 2 ty id with
      | some v => some (2, v)
      | none => (c.storeAt ty id).map fun v => (3, v)

/-- The applied value of a field before the mode conflicts of Table 4.10. -/
def State.layered (s : State) (f : FieldDef) : Nat :=
  match s.cfg.highest f.ty f.id with
  | some (_, v) => v
  | none => s.fldDefault f

/-- The applied value of a field (R91): when both ports name the same fallback DPX, CP1's is 15 (Table 4.10); an end that
the role does not permit is the role's default (R13). -/
def State.applied (s : State) (f : FieldDef) : Nat :=
  let v := s.layered f
  if f == Fld.FALLBACK_DPX_CP1 then
    (if v == s.layered Fld.FALLBACK_DPX_CP0 && v != 15 then 15 else v)
  else if f.ty == 0x01 && 0x10 ≤ f.id && f.id ≤ 0x16 then
    (if endPermitted s.topo.role (f.id - 0x10) v then v else endDefault s.topo.role (f.id - 0x10))
  else v

/-- The value of a field in force: fields whose changes wait for a tick boundary or a reset are read from the values last
taken then, the others from the applied value at the moment the unit takes it. -/
def State.cv (s : State) (f : FieldDef) : Nat :=
  match f.whn with
  | .use => s.applied f
  | _ =>
    match s.cfg.force.find? fun v => v.ty == f.ty && v.id == f.id with
    | some v => v.val
    | none => s.fldDefault f

/-- The values in force after a boundary at which the fields of kind `w` are taken from their applied values. -/
def State.takeForce (s : State) (w : When) : State :=
  let fresh := fieldTable.filterMap fun f =>
    if f.whn == w && s.applied f != s.fldDefault f then some ⟨f.ty, f.id, s.applied f⟩ else none
  let kept := s.cfg.force.filter fun v =>
    match fieldOf? v.ty v.id with
    | some f => f.whn != w
    | none => false
  { s with cfg := { s.cfg with force := kept ++ fresh } }

/-- Whole ticks in a time (32,000 ticks a second, Table 2.1). -/
def msTicks (ms : Nat) : Nat := ms * 32
def usTicks (us : Nat) : Nat := us * 4 / 125
def secTicks (n : Nat) : Nat := n * 32000

/-- The tick `t` has come. -/
def reached (now t : Tick) : Bool := (now - t).toNat < 2 ^ 47

/-- Slots since tick 0. -/
def State.slotCount (s : State) : Nat := s.time.tick.toNat * 250 + s.time.slot

/-- At least `n` ticks have begun since the tick `t`: a time of `n` whole ticks may have passed. -/
def State.passed (s : State) (t : Tick) (n : Nat) : Bool := n ≤ tickDiff s.time.tick t

/-! ### The recorder's spores (R525 to R528) -/

/-- Spores that the ring holds: REPLAY less its eight snapshot slots, 64 bytes each (R526). -/
def ringCap (s : State) : Nat := (s.cv Fld.REPLAY_RING_MIB * 1048576 - 8 * 1152 * 1024) / 64

/-- One spore written: into the ring when LPDDR is active, into the on-chip buffer of 512 otherwise, dropped when that is
full (R527, Table 14.5); nothing when the recorder is off or the ring frozen (R528, R531). -/
def State.spore1 (s : State) (kind src flags : Nat) (payload : List Byte) : State :=
  if s.rcd.mode == 0 || s.rcd.mode == 3 then s
  else
    let sp : Spore := ⟨s.rcd.nextSeq, s.time.tick, s.time.slot, kind, src, flags, payload⟩
    let r : RecSt := { s.rcd with nextSeq := s.rcd.nextSeq + 1 }
    if s.mem.lpddr == .active && r.buffer.isEmpty then
      { s with rcd := { r with ring := (sp :: r.ring).take (ringCap s) } }
    else if r.buffer.length < 512 then { s with rcd := { r with buffer := r.buffer ++ [sp] } }
    else { s with rcd := { s.rcd with dropped := satAdd 16 s.rcd.dropped 1 } }

/-- The payloads of 40 bytes into which an input is cut (Table 20.9); `fuel` pieces at most. -/
def sporeChunks : Nat → List Byte → List (List Byte)
  | 0, _ => []
  | fuel + 1, bs => if bs.length ≤ 40 then [bs] else bs.take 40 :: sporeChunks fuel (bs.drop 40)

/-- An input recorded as one or more spores, FIRST and LAST marking its ends (Table 20.9). -/
def State.spore (s : State) (kind src : Nat) (bs : List Byte) : State :=
  let cs := sporeChunks (bs.length / 40 + 1) bs
  let n := cs.length
  (cs.zipIdx).foldl (fun s (c, i) => s.spore1 kind src (b2n (i == 0) + 2 * b2n (i + 1 == n)) c) s

/-- The outcome of a signature check recorded: verdict, handle or key ID, public values (Table 20.10, kind 8; the payload's form is the
model's, log entry 41). -/
def State.cryptoSpore (s : State) (ok : Bool) (handle : Nat) (pub : List Byte) : State :=
  s.spore 8 0 (leBytes 1 (b2n ok) ++ leBytes 4 handle ++ pub)

/-- A freeze trigger (R528): the ring freezes REC_POST_TICKS later; a trigger while one is pending or the ring is frozen
is counted. 0xFF is the command. -/
def State.recTrigger (s : State) (cause : Nat) : State :=
  if s.rcd.mode == 1 then { s with rcd := { s.rcd with mode := 2, trigger := cause, trigAt := s.time.tick } }
  else if s.rcd.mode == 0 then s
  else { s with rcd := { s.rcd with moreTriggers := s.rcd.moreTriggers + 1 } }

/-! ### Channels -/

def State.chan (s : State) : Chan → ChanSt
  | .loc => s.mbx.loc
  | .tun => s.mbx.tun
  | .peer => s.mbx.peer
  | .dbg => s.mbx.dbg
  | .gate => s.mbx.gate

def State.setChan (s : State) (c : Chan) (x : ChanSt) : State :=
  match c with
  | .loc => { s with mbx := { s.mbx with loc := x } }
  | .tun => { s with mbx := { s.mbx with tun := x } }
  | .peer => { s with mbx := { s.mbx with peer := x } }
  | .dbg => { s with mbx := { s.mbx with dbg := x } }
  | .gate => { s with mbx := { s.mbx with gate := x } }

def State.modChan (s : State) (c : Chan) (f : ChanSt → ChanSt) : State := s.setChan c (f (s.chan c))

/-- The four mailbox channels (Table 3.1). -/
def mailboxes : List Chan := [.loc, .tun, .peer, .dbg]

/-! ### Events (R54 to R56, R392) -/

/-- The bytes of an event entry (Table 3.13). -/
def eventBytes (e : EventEntry) : List Byte :=
  leBytes 2 e.num ++ leBytes 1 e.bit ++ zeros 1 ++ leBytes 6 e.tick.toNat ++ leBytes 1 e.slot ++ zeros 1
    ++ leBytes 4 e.arg.toNat

/-- An event put into a queue: last, but before events of its own slot that have a higher number (R565). -/
def enterEvent (e : EventEntry) : List EventEntry → List EventEntry
  | [] => [e]
  | v :: l => if v.tick == e.tick && v.slot == e.slot && e.num < v.num then e :: v :: l else v :: enterEvent e l

/-- One event entered into one channel: dropped and counted when the queue holds 255 (R55), queued with ATTN otherwise,
and nothing where the mask does not enable it (R54, R564). -/
def ChanSt.enter (c : ChanSt) (e : EventEntry) : ChanSt :=
  if c.mask.getLsbD e.num then
    if c.queue.length < 255 then { c with queue := enterEvent e c.queue, attn := true }
    else { c with lost := satAdd 16 c.lost 1 }
  else c

/-- Delivery to the instances that hold EVENTS and enable the event: an instance 255 entries behind loses the oldest and
counts it (R392). -/
def InstSt.deliver (i : InstSt) (e : EventEntry) : InstSt :=
  if bitAt i.caps 0 && i.mask.getLsbD e.num then
    if i.events.length < 255 then { i with events := enterEvent e i.events }
    else { i with events := enterEvent e (i.events.drop 1), lostEvents := i.lostEvents + 1 }
  else i

/-- The hub raises an event (R54): entered into every channel whose mask enables it, given to the service runtime (R392)
and recorded (R55); an event of REC_FREEZE_MASK is a freeze trigger (R528). -/
def State.raise (s : State) (n : Nat) (arg : Nat) : State :=
  let e : EventEntry := ⟨n, eventBit n, s.time.tick, s.time.slot, BitVec.ofNat 32 arg⟩
  let s : State := { s with mbx := { s.mbx with
    loc := s.mbx.loc.enter e, tun := s.mbx.tun.enter e, peer := s.mbx.peer.enter e, dbg := s.mbx.dbg.enter e } }
  let s : State := { s with svc := { s.svc with insts := s.svc.insts.map fun i => i.deliver e } }
  let s := s.spore 2 0 (eventBytes e)
  if bitAt (s.cv Fld.REC_FREEZE_MASK) n then s.recTrigger n else s

/-- An event entered on one channel only (CMD_COMPLETE, R67), and recorded. -/
def State.raiseOn (s : State) (c : Chan) (n : Nat) (arg : Nat) : State :=
  let e : EventEntry := ⟨n, eventBit n, s.time.tick, s.time.slot, BitVec.ofNat 32 arg⟩
  (s.modChan c (·.enter e)).spore 2 0 (eventBytes e)

/-- Raise where a condition holds. -/
def State.raiseIf (s : State) (c : Bool) (n : Nat) (arg : Nat) : State := if c then s.raise n arg else s

/-! ### Status word and replies (R53) -/

/-- The status word of a channel; the gate's replies carry LOCAL's (R391). -/
def State.status (s : State) (c : Chan) : Word :=
  let x := match c with
    | .gate => s.mbx.loc
    | c => s.chan c
  statusWord x s.pwr.state s.topo.role s.mbx.unatt s.upd.untested

/-- A PEER message handed to a link, which sends it as a coach on label 2 (R78). -/
def State.peerSend (s : State) (port : Nat) (bs : List Byte) : State :=
  { s with cable := { s.cable with links := s.cable.links.modify port fun l => { l with peerOut := l.peerOut ++ [bs] } } }

/-- Buffers of the device functions return to the host: ERDY where one was answered NRDY (R306). -/
def State.usbReady (s : State) (ks : List Nat) : State :=
  let due := s.mbx.usbWait.filter fun k => ks.contains k
  due.foldl (fun s k => s.emit (.usbAnswer 1 0 (k / 2 + 1) 3 []))
    { s with mbx := { s.mbx with usbWait := s.mbx.usbWait.filter fun k => !ks.contains k } }

/-- The reply held where its transport delivers it (R74, R77, R78, R391). -/
def State.holdReply (s : State) (via : Via) (r : Reply) : State :=
  match via with
  | .spi => { s with mbx := { s.mbx with spiHeld := some r } }
  | .pcie => { s with mbx := { s.mbx with bar0Reply := some r, bar0Busy := false } }
  | .usb =>
    if 0 < s.mbx.usbMute then ({ s with mbx := { s.mbx with usbMute := s.mbx.usbMute - 1 } } : State).usbReady [0]
    else ({ s with mbx := { s.mbx with usbReply := some r } } : State).usbReady [0, 1]
  | .peer p => s.peerSend p (replyBytes r)
  | .jtag => { s with mbx := { s.mbx with dbgHeld := some r } }
  | .gate i => { s with svc := { s.svc with insts := s.svc.insts.map fun x =>
      if x.id == i then { x with gateReply := some r, gateBusy := false } else x } }

/-- A reply made available: SEQ incremented, the status word taken at that instant (R53), the reply held for its
transport. Answers the reply too. -/
def State.reply (s : State) (via : Via) (tag : Half) (rc : Nat) (handle : Nat) (data : List Byte) : Reply × State :=
  let c := viaChan via
  let s := s.modChan c fun x => { x with seq := x.seq + 1 }
  let r : Reply := ⟨s.status c, tag, rc, handle, data⟩
  (r, (s.holdReply via r).emit (.reply via r))

/-- A reply of the mailbox hardware that leaves no stored reply (R66). -/
def State.hwReply (s : State) (m : Msg) (rc : Rc) : State :=
  let (_, s) := s.reply m.rq.via m.rq.tag rc.code 0 []
  s.modChan (viaChan m.rq.via) fun x => { x with last := some m, stored := none }

/-- The last uses of the channel's open handles, with one more use of `h` (R59). -/
def ChanSt.usedCred (c : ChanSt) (h : Nat) (now : Tick) : List (Nat × Tick) :=
  if h == 0 then c.credUse else (h, now) :: c.credUse.filter fun u => u.1 != h && c.creds.any fun k => k.handle == u.1

/-- A reply that the firmware made, kept as the stored reply of its request (R52); the request's handle has been used (R59). -/
def State.fwReply (s : State) (m : Msg) (rc : Rc) (handle : Nat) (data : List Byte) : State :=
  let (r, s) := s.reply m.rq.via m.rq.tag rc.code handle data
  s.modChan (viaChan m.rq.via) fun x => { x with last := some m, stored := some r, credUse := x.usedCred m.rq.cred.toNat s.time.tick }

/-! ### Completion handles (R67, R68) -/

/-- The handle that a channel's next long command gets: handles run from 1 to 65,535 and are reused only after they have
lapsed (R68; the order of reuse is the model's, log entry 7). -/
def ChanSt.freeHandle (c : ChanSt) : Nat :=
  nextFree (c.jobs.map (·.handle)) 65535 (c.jobs.length + 1) c.nextJob

/-- A completion handle allocated (R67). -/
def State.addJob (s : State) (via : Via) (opcode h : Nat) (plan : Option (Nat × List Byte)) : State :=
  s.modChan (viaChan via) fun c =>
    { c with jobs := c.jobs ++ [⟨h, via, opcode, none, plan, s.time.tick⟩], nextJob := if 65535 ≤ h then 1 else h + 1 }

/-- A long command finishes: its result is kept and `EV004 CMD_COMPLETE` queued on the channel that issued it; a handle
that has lapsed, or one already finished, keeps nothing (R67, R68). -/
def State.finish (s : State) (via : Via) (h : Nat) (rc : Nat) (data : List Byte) : State :=
  let c := viaChan via
  match (s.chan c).jobs.find? fun j => j.handle == h && j.result == none with
  | none => s
  | some _ =>
    (s.modChan c fun x => { x with
      jobs := x.jobs.map fun j => if j.handle == h then { j with result := some (rc, data), since := s.time.tick } else j }).raiseOn c 4
        (h + 65536 * rc)

/-- The same with a result code by name. -/
def State.finishRc (s : State) (via : Via) (h : Nat) (rc : Rc) (data : List Byte := []) : State :=
  s.finish via h rc.code data

/-! ### Firmware and channel levels -/

/-- The management firmware runs: BOOT_STAGE 2, no management-core reset in progress (R66), not halted for RETAIN (R465, R472). -/
def State.fwRuns (s : State) : Bool := s.boot.stage == 2 && !s.boot.mgtReset && s.pwr.phase < 2

/-- A channel's base level (Table 3.7); for the gate, P1 for a shipped instance and P0 for a customer's (R391). -/
def State.baseLevel (s : State) : Via → Nat
  | .spi => 2
  | .pcie => 1
  | .usb => 1
  | .peer _ => 1
  | .jtag => 0
  | .gate i => if s.svc.insts.any fun x => x.id == i && x.shipped then 1 else 0

/-- A channel's ceiling (Table 3.7, R391). -/
def State.ceiling (s : State) : Chan → Nat
  | .dbg => if openLc s.lifecycle then 3 else 0
  | _ => 3

/-- The credential handle that a request names, on its channel and of its owner. -/
def State.credOf (s : State) (rq : Req) : Option Cred :=
  (s.chan (viaChan rq.via)).creds.find? fun c =>
    c.handle == rq.cred.toNat && (viaChan rq.via != .gate || c.owner == viaOwner rq.via)

/-- The privilege level of a request (R57): none for an unknown or lapsed handle. -/
def State.reqLevel (s : State) (rq : Req) : Option Nat :=
  if rq.cred == 0 then some (s.baseLevel rq.via)
  else (s.credOf rq).map fun c => min c.level (s.ceiling (viaChan rq.via))

/-! ### Executing a command (Table 22.7) -/

/-- What a command answers: the state with its effect, the result, the reply's payload, and for a long command the
completion that its rules have already settled. -/
structure Ans where
  st   : State
  rc   : Rc
  data : List Byte := []
  plan : Option (Nat × List Byte) := none
  /-- What a failing result leaves, where the spec lets it change something (R58). -/
  failSt : Option State := none
  /-- The result ACCEPTED is another hub's, and allocates no handle (R71). -/
  noJob : Bool := false
  /-- What the command leaves under VALIDATE, where that is not the state before (R96, R561). -/
  validSt : Option State := none

/-- A failing result: nothing changes (R559). -/
def Ans.fail (s : State) (rc : Rc) : Ans := { st := s, rc := rc }

/-- A `.show` reply. -/
def Ans.show (s : State) (data : List Byte) : Ans := { st := s, rc := .ok, data := data }

/-- An executed command without a reply payload. -/
def Ans.done (s : State) : Ans := { st := s, rc := .ok }

/-- A long command accepted; `plan` is the completion its rules have settled, if they have. -/
def Ans.long (s : State) (plan : Option (Nat × List Byte)) : Ans := { st := s, rc := .accepted, plan := plan }

/-- A nonce used up, whatever came of it (R58). -/
def State.useNonce (s : State) (via : Via) (bytes : List Byte) : State :=
  s.modChan (viaChan via) fun c => { c with nonces := c.nonces.filter fun n => n.bytes != bytes }

/-- The message of a request whose LENGTH is that of its payload. -/
def msgOf (rq : Req) (opcode : Nat) : Msg := ⟨opcode, rq, rq.payload.length⟩

/-- Two requests of a channel are the same message: header and payload, whatever transport brought them (R52); the command gates of two
instances are apart. -/
def Msg.same (a b : Msg) : Bool :=
  a.opcode == b.opcode && a.len == b.len && { a.rq with via := b.rq.via } == b.rq
    && (viaChan a.rq.via != .gate || a.rq.via == b.rq.via)

/-- The previous request of the channel was this one. -/
def ChanSt.isLast (c : ChanSt) (m : Msg) : Bool := c.last.any fun l => l.same m

/-- The counted LOCAL request (R60): UNATT is cleared and reported before the request executes (R62). -/
def State.countLocal (s : State) (via : Via) : State :=
  if via == .spi then
    let s : State := { s with mbx := { s.mbx with sinceAttn := 0, firstLocal := true } }
    if s.mbx.unatt then ({ s with mbx := { s.mbx with unatt := false } }).raise 6 0 else s
  else s

/-- What is made of a request: its reply, or, where the backstop has answered for it, the completion of the handle it gave (R65). -/
def State.respond (s : State) (m : Msg) (late : Option Nat) (rc : Rc) : State :=
  match late with
  | none => s.fwReply m rc 0 []
  | some h => s.finishRc m.rq.via h rc

/-- A request as it goes down the chain: HOPS decremented, the reserved field 0, everything else unchanged (R8, R69). -/
def Msg.down (m : Msg) : Msg := { m with rq := { m.rq with flags := hopsDown m.rq.flags, rsv := 0 } }

/-- A request put among those outstanding on a port, and sent while fewer than four are (Table 3.1). -/
def State.sendDown (s : State) (origin : FwdOrigin) (port : Nat) (m : Msg) : State :=
  let sent := (s.mbx.forwards.filter fun f => f.port == port && f.sent).length < 4
  let s : State := { s with mbx := { s.mbx with forwards := s.mbx.forwards ++ [⟨origin, port, m, sent, s.time.tick⟩] } }
  if sent then s.peerSend port (reqBytes m.opcode m.rq) else s

/-- The port of a forward, where a Latre link is up on it: the DOWN port, or at a HOSTSIDE hub the one CHAIN names (R69). -/
def State.fwdPort (s : State) (rq : Req) : Option Nat :=
  match s.topo.role with
  | .hostside => if s.linkUp (reqChain rq) then some (reqChain rq) else none
  | _ => [0, 1].find? fun p => nth s.topo.portRole p .none == .down && s.linkUp p

/-- Forwarding at the hub that received the request from its transport (R69): BAD_STATE with no link up on its DOWN port,
BUSY at eight live handles, ACCEPTED otherwise, with the request sent on PEER, HOPS decremented. One that the backstop has answered keeps
the handle it has (R65). -/
def State.forward (s : State) (m : Msg) (late : Option Nat) : State :=
  let c := viaChan m.rq.via
  match s.fwdPort m.rq, late with
  | none, _ => s.respond m late .badState
  | some port, some h => s.sendDown (.own c h) port m.down
  | some port, none =>
    if 8 ≤ (s.chan c).jobs.length then s.fwReply m .busy 0 []
    else
      let h := (s.chan c).freeHandle
      ((s.addJob m.rq.via m.opcode h none).fwReply m .accepted h []).sendDown (.own c h) port m.down

/-- Forwarding of a PEER request that is not for this hub (R70): passed on without a reply, or answered BAD_STATE. One that the backstop
has answered completes its handle with what comes back. -/
def State.relay (s : State) (m : Msg) (late : Option Nat) (up : Nat) : State :=
  match s.fwdPort m.rq, late with
  | none, _ => s.respond m late .badState
  | some port, none => s.sendDown (.relay up) port m.down
  | some port, some h => s.sendDown (.own .peer h) port m.down

/-- A request with HOPS above 0 (R69, R70). -/
def State.pass (s : State) (m : Msg) (late : Option Nat) : State :=
  match m.rq.via with
  | .peer p => s.relay m late p
  | _ => s.forward m late

/-- A reset that a command asks for, so many ticks from now (R482, R551). -/
def State.deferReset (s : State) (kind cause ticks : Nat) : State :=
  { s with fault := { s.fault with deferred := some (kind, cause, s.time.tick + BitVec.ofNat 48 ticks) } }

/-- What a request leaves that fails before its own rules: an open of a credential and an advance of the life cycle have used up their
nonce (R58, R481). -/
def State.turnedAway (s : State) (row : CmdRow) (rq : Req) (rc : Rc) : Ans :=
  { st := if row.opcode == 0x0106 then s.useNonce rq.via (slice 8 32 rq.payload)
      else if row.opcode == 0x1005 then s.useNonce rq.via (slice 4 32 rq.payload)
      else s
    rc := rc }

/-- Step 9's answer to a request whose earlier checks hold: the level and channel check of step 8, then the payload's
fixed length, then the command's own rules (Table 22.7). `held` handles of the channel are its own (R65). -/
def State.answer (s : State) (row : CmdRow) (min : Nat) (rq : Req) (held h : Nat) (body : Nat → State → Ans) : Ans :=
  match s.reqLevel rq with
  | none => s.turnedAway row rq .badHandle
  | some l =>
    if l < row.level then s.turnedAway row rq .denied
    else if !row.chans.isEmpty && !row.chans.contains (viaChan rq.via) then s.turnedAway row rq .denied
    else if rq.payload.length < min then s.turnedAway row rq .badLength
    else
      let a := body h s
      if a.rc.bad then { a with st := a.failSt.getD s }
      else if row.long && a.rc == .accepted && 8 + held ≤ (s.chan (viaChan rq.via)).jobs.length then s.turnedAway row rq .busy
      else a

/-- The state that an answer leaves: with VALIDATE the state before, and otherwise the command's effect, with the
completion handle that an ACCEPTED reply allocates (R67, R561). -/
def State.settle (s : State) (row : CmdRow) (rq : Req) (h : Nat) (a : Ans) : State :=
  if reqValidate rq then a.validSt.getD s
  else if a.rc == .accepted && !a.noJob then a.st.addJob rq.via row.opcode h a.plan
  else a.st

/-- The end of a request that the backstop has answered (R65): a long command goes on under the handle that it has, any other result
completes the handle. -/
def State.settleLate (s : State) (rq : Req) (h : Nat) (a : Ans) : State :=
  if reqValidate rq then (a.validSt.getD s).finishRc rq.via h a.rc a.data
  else if a.rc == .accepted && !a.noJob then
    a.st.modChan (viaChan rq.via) fun x => { x with
      jobs := x.jobs.map fun j => if j.handle == h then { j with plan := a.plan } else j }
  else a.st.finishRc rq.via h a.rc a.data

/-- Steps 4 to 9 of Table 22.7 on a request that is neither a duplicate nor refused for want of firmware; `late` is the handle with which
the backstop has already answered it (R65). -/
def State.perform (s : State) (row : CmdRow) (min : Nat) (rq : Req) (late : Option Nat) (body : Nat → State → Ans) : State :=
  let c := viaChan rq.via
  let m := msgOf rq row.opcode
  if c == .dbg && s.lifecycle == lcScrapped then s.respond m late .locked
  else if 1024 < rq.payload.length then s.respond m late .badLength
  else if reqHops rq == 7 then s.respond m late .badState
  else if 0 < reqHops rq then s.pass m late
  else
    match late with
    | some h => s.settleLate rq h (s.answer row min rq 1 h body)
    | none =>
      let h := (s.chan c).freeHandle
      let a := s.answer row min rq 0 h body
      (s.settle row rq h a).fwReply m a.rc (if a.rc == .accepted && !a.noJob && !reqValidate rq then h else 0) a.data

/-! ### The order of execution (R48, R49) -/

/-- Order of the channels among requests of one slot: LOCAL, TUNNEL, PEER, DEBUG, and the command gate after them (R49; the gate's place
is the model's, log entry 65). -/
def chanRank : Chan → Nat
  | .loc => 0
  | .tun => 1
  | .peer => 2
  | .dbg => 3
  | .gate => 4

/-- A request goes before another that has not been answered when both came in one slot and its channel ranks higher (R49). -/
def Wait.before (w v : Wait) : Bool :=
  v.late.isNone && v.tick == w.tick && v.slot == w.slot && chanRank (viaChan w.msg.rq.via) < chanRank (viaChan v.msg.rq.via)

/-- The order with one more request: behind all that came before, its slot's lower channels after it. -/
def insertWait (w : Wait) : List Wait → List Wait
  | [] => [w]
  | v :: l => if w.before v then w :: v :: l else v :: insertWait w l

/-- The order after an arrival: a TUNNEL request that meets one of the other transport in execution comes next after it (R48). -/
def enterWait (w : Wait) (l : List Wait) : List Wait :=
  match l with
  | v :: rest =>
    if viaChan w.msg.rq.via == .tun && viaChan v.msg.rq.via == .tun && v.msg.rq.via != w.msg.rq.via then v :: w :: rest
    else insertWait w l
  | [] => [w]

/-- A request takes its place in the order. -/
def State.enqueue (s : State) (m : Msg) : State :=
  { s with mbx := { s.mbx with waiting := enterWait ⟨m, s.time.tick, s.time.slot, none⟩ s.mbx.waiting } }

/-- A request that has just arrived and is no duplicate: RETRY_LATER when no firmware runs (R66); executed at once when none is before it,
and in its turn otherwise (R49). While a debugger holds the management core it waits (R503). -/
def State.start (s : State) (row : CmdRow) (min : Nat) (rq : Req) (body : Nat → State → Ans) : State :=
  if !s.fwRuns then s.hwReply (msgOf rq row.opcode) .retryLater
  else if s.pins.mgtHalted || !s.mbx.waiting.isEmpty then s.enqueue (msgOf rq row.opcode)
  else s.perform row min rq none body

/-- A request arrives with its last byte: it is counted (R60) and recorded (R525), and answered from the stored reply when it is a
duplicate (R52). -/
def State.arriveRq (s : State) (row : CmdRow) (min : Nat) (rq : Req) (body : Nat → State → Ans) : State :=
  let s := (s.countLocal rq.via).spore 1 (chanNum (viaChan rq.via)) (reqBytes row.opcode rq)
  let c := s.chan (viaChan rq.via)
  match c.stored with
  | some r =>
    if c.isLast (msgOf rq row.opcode) && reqHops rq == 0 then (s.holdReply rq.via r).emit (.reply rq.via r)
    else s.start row min rq body
  | none => s.start row min rq body

/-- A mailbox command. The request whose turn it is in the order of R49 executes; one further back in that order does not yet; any other
was brought by its transport in this same instant. -/
def command (row : CmdRow) (min : Nat) (rq : Req) (s : State) (body : Nat → State → Ans) : Out :=
  run s fun s =>
    match s.mbx.waiting with
    | [] => s.arriveRq row min rq body
    | w :: rest =>
      if w.msg == msgOf rq row.opcode then
        if s.pins.mgtHalted then s
        else ({ s with mbx := { s.mbx with waiting := rest } } : State).perform row min rq w.late body
      else if rest.any fun v => v.msg == msgOf rq row.opcode then s
      else s.arriveRq row min rq body

/-- The local path between ports 9 and 10 in TC1 is open (R333). -/
def State.svcPath (s : State) : Bool :=
  s.cable.paths.any fun r => r.hops == 0 && r.tc == 1 && r.phase == 1 && ((r.src == 9 && r.dst == 10) || (r.src == 10 && r.dst == 9))

end Sys2Proof.Machine
end

