-- ==== Sys2Proof/Machine/MemOps.lean ====
section
/-! DEFINITION. The memory system's shared operations (spec/14, R494): the memory as a list of cells in canonical form, the
address map, the LPDDR plan, faulty check bits and their reports. -/

namespace Sys2Proof.Machine

/-! ### Bytes (R494)

A memory is a list of (address, byte) pairs, addresses strictly rising, no byte 0 listed: an unlisted byte reads 0 (log entry 6). -/

/-- The form that every memory operation keeps. -/
def memWf : List Host.Cell → Bool
  | [] => true
  | [(_, b)] => b != 0
  | (a, b) :: (a', b') :: rest => b != 0 && decide (a < a') && memWf ((a', b') :: rest)

/-- One byte read. -/
def memRead (m : List Host.Cell) (a : Nat) : Byte :=
  match m with
  | [] => 0
  | (k, b) :: rest => if k == a then b else memRead rest a

/-- One byte written; writing 0 removes the entry. -/
def memWrite (m : List Host.Cell) (a : Nat) (v : Byte) : List Host.Cell :=
  match m with
  | [] => if v == 0 then [] else [(a, v)]
  | (k, b) :: rest =>
    if k < a then (k, b) :: memWrite rest a v
    else if k == a then (if v == 0 then rest else (a, v) :: rest)
    else if v == 0 then (k, b) :: rest else (a, v) :: (k, b) :: rest

/-- Bytes from an address up. -/
def memReads (m : List Host.Cell) (a n : Nat) : List Byte := (upTo n).map fun k => memRead m (a + k)

/-- Bytes written from an address up. -/
def memWrites (m : List Host.Cell) (a : Nat) : List Byte → List Host.Cell
  | [] => m
  | b :: bs => memWrites (memWrite m a b) (a + 1) bs

/-- Every byte of a range at 0, as a reset without retention leaves it. -/
def memClear (m : List Host.Cell) (lo hi : Nat) : List Host.Cell := m.filter fun c => !(lo ≤ c.1 && c.1 < hi)

/-! ### The address map (Table 19.7) and the LPDDR plan (Table 14.3) -/

/-- What an interconnect address reaches. -/
inductive Target where
  | mb | sb | lichen | usbEp | planner | unit | lpddr | none
  deriving DecidableEq, Repr

def sbBase : Nat := 0x01000000
def lichenBase : Nat := 0x02000000
def usbEpBase : Nat := 0x03000000
def plannerBase : Nat := 0x04000000
def unitBase : Nat := 0x10000000
def lpddrBase : Nat := 0x100000000
def mib : Nat := 1048576

/-- Usable LPDDR bytes: 7/8 of the installed capacity (R368); none while the interface does not serve accesses. -/
def State.lpddrBytes (s : State) : Nat := if s.mem.lpddr == .active then s.mem.gib * 1024 * 7 / 8 * mib else 0

/-- The target of an address (Table 19.7). -/
def State.target (s : State) (a : Nat) : Target :=
  if a < 0x100000 then .mb
  else if sbBase ≤ a && a < sbBase + 0x400000 then .sb
  else if lichenBase ≤ a && a < lichenBase + 0x40000 then .lichen
  else if usbEpBase ≤ a && a < usbEpBase + 0x20000 then .usbEp
  else if plannerBase ≤ a && a < plannerBase + 0x18000 then .planner
  else if unitBase ≤ a && a < 0x20000000 then .unit
  else if lpddrBase ≤ a && a < lpddrBase + s.lpddrBytes then .lpddr
  else .none

/-- Usable MiB of the installed capacity (R368). -/
def State.usableMib (s : State) : Nat := s.mem.gib * 1024 * 7 / 8

/-- The HOLD region in MiB: HOLD_REGION_MIB, bounded so that SVC keeps at least 512 MiB (R372). -/
def State.holdMib (s : State) : Nat := min (s.cv Fld.HOLD_REGION_MIB) (s.usableMib - (80 + s.cv Fld.REPLAY_RING_MIB + 512))

/-- The regions of the plan: offset and size in bytes of FLOW, NETBUF, REPLAY, HOLD and SVC (R372). -/
def State.memPlan (s : State) : List (Nat × Nat) :=
  let replay := s.cv Fld.REPLAY_RING_MIB * mib
  let hold := s.holdMib * mib
  let usable := s.usableMib * mib
  [(0, 64 * mib), (64 * mib, 16 * mib), (80 * mib, replay), (80 * mib + replay, hold),
    (80 * mib + replay + hold, usable - (80 * mib + replay + hold))]

/-- The region that holds an LPDDR usable address: 0 FLOW to 4 SVC. -/
def State.memRegion (s : State) (x : Nat) : Nat :=
  (s.memPlan.findIdx? fun r => r.1 ≤ x && x < r.1 + r.2).getD 4

def State.holdBase (s : State) : Nat := (nth s.memPlan 3 (0, 0)).1
def State.svcBase (s : State) : Nat := (nth s.memPlan 4 (0, 0)).1

/-! ### Check bits (R363, R371, R376) -/

/-- A word of the cell memory among the faults: its buffer. -/
def cellWord (buf : Nat) : Nat := 2 ^ 38 + buf % 32768

/-- Faulty check bits held by the word of an address: 0 none, 1 correctable, 2 not. -/
def State.wordFault (s : State) (w : Nat) : Nat :=
  match s.mem.faults.find? fun f => f.word == w && !f.armed with
  | some f => if f.hard then 2 else 1
  | none => 0

/-- A word that a read finds faulty from outside the model (an environment's error): 1 correctable, 2 not. -/
def State.spoil (s : State) (w ecc : Nat) : State :=
  if ecc == 0 then s
  else { s with mem := { s.mem with
    faults := (s.mem.faults.filter fun f => !(f.word == w && !f.armed)) ++ [⟨w, 2 ≤ ecc, false⟩] } }

/-- A write to a word: fresh check bits, or the armed faulty ones (R376). -/
def State.wordWritten (s : State) (w : Nat) : State :=
  match s.mem.faults.find? fun f => f.word == w && f.armed with
  | some f => { s with mem := { s.mem with
      faults := (s.mem.faults.filter fun f => f.word != w) ++ [{ f with armed := false }] } }
  | none => { s with mem := { s.mem with faults := s.mem.faults.filter fun f => f.word != w } }

/-- A corrected word is written back with fresh check bits; a fault still armed stays (R363, R367). -/
def State.wordMended (s : State) (w : Nat) : State :=
  { s with mem := { s.mem with faults := s.mem.faults.filter fun f => f.word != w || f.armed } }

/-- EV130 with the corrections since the last report, at most once per 32 ticks (R371). -/
def State.noteCorrected (s : State) : State :=
  let due := match s.mem.corTick with
    | none => true
    | some t => 32 ≤ tickDiff s.time.tick t
  if due && 0 < s.mem.corSince then
    ({ s with mem := { s.mem with corTick := some s.time.tick, corSince := 0 } } : State).raise 130 s.mem.corSince
  else s

/-- A corrected LPDDR word (R371). -/
def State.lpddrCorrected (s : State) (w : Nat) : State :=
  (({ s with mem := { s.mem with
    corrected := satAdd 64 s.mem.corrected 1, corSince := satAdd 32 s.mem.corSince 1 } } : State).wordMended w).noteCorrected

/-- An uncorrectable LPDDR word counted and reported (R371, Table 14.8); what it does to its region is the reader's. -/
def State.lpddrLost (s : State) (x : Nat) : State :=
  ({ s with mem := { s.mem with uncorrected := satAdd 32 s.mem.uncorrected 1, lastUnc := x / 8 * 8 } } : State).raise 131 (x / 64)

/-- A corrected SRAM word (R363). -/
def State.sramCorrected (s : State) (w : Nat) : State :=
  ({ s with mem := { s.mem with sramCor := satAdd 32 s.mem.sramCor 1 } } : State).wordMended w

/-- An uncorrectable SRAM word counted and reported (R363, Table 14.8). -/
def State.sramLost (s : State) (w : Nat) : State :=
  ({ s with mem := { s.mem with sramUnc := satAdd 32 s.mem.sramUnc 1 } } : State).raise 131 w

/-! ### Frame stores (R374) -/

/-- Units of 2 MiB in the frame-store part of HOLD. -/
def State.storeUnits (s : State) : Nat :=
  if s.mem.lpddr == .active then (s.holdMib - 128) / 2 else 0

def State.freeStore (s : State) (id : Nat) : State :=
  { s with mem := { s.mem with stores := s.mem.stores.filter fun e => e.1 != id } }

/-- The lowest place where `n` units are free: at the start, or after a store. -/
def lowestFree (used : List (Nat × Nat × Nat)) (n total : Nat) : Option Nat :=
  let ends := 0 :: used.map fun e => e.2.1 + e.2.2
  let fits := ends.filter fun o => o + n ≤ total && used.all fun e => e.2.1 + e.2.2 ≤ o || o + n ≤ e.2.1
  fits.foldl (fun best o => match best with
    | none => some o
    | some b => some (min b o)) none

/-- The frame store of a stream whose frames have `bytes` bytes: the one it has when that is large enough, and otherwise a new one
at the lowest free place, or none and EV132 (R374). Answers whether a new store was taken or the old one lost. -/
def State.frameStore (s : State) (id bytes : Nat) : Bool × State :=
  let n := 2 * ((bytes + 2 * mib - 1) / (2 * mib))
  if s.mem.stores.any fun e => e.1 == id && n ≤ e.2.2 then (false, s)
  else
    let s := s.freeStore id
    if s.cv Fld.HOLD_ENABLE == 0 || s.mem.lpddr != .active then (true, s)
    else
      match lowestFree s.mem.stores n s.storeUnits with
      | some o => (true, { s with mem := { s.mem with stores := s.mem.stores ++ [(id, o, n)] } })
      | none => (true, s.raise 132 (id % 16))

def State.hasStore (s : State) (id : Nat) : Bool := s.mem.stores.any fun e => e.1 == id

end Sys2Proof.Machine
end

