-- ==== Sys2Proof/Machine/SwitchOps.lean ====
section
/-! DEFINITION. Switch core operations (spec/07): buffer accounts, admission, push-out, queues, matching. -/

namespace Sys2Proof.Machine

/-- The minimum or credit-pool field of a cable input (Table 7.3). -/
def minCable (c : Nat) : FieldDef :=
  nth [Fld.MIN_CABLE_TC0, Fld.MIN_CABLE_TC1, Fld.MIN_CABLE_TC2, Fld.MIN_CABLE_TC3, Fld.MIN_CABLE_TC4,
    Fld.MIN_CABLE_TC5, Fld.MIN_CABLE_TC6, Fld.MIN_CABLE_TC7] c Fld.MIN_CABLE_TC7

/-- The minimum field of a local input (Table 7.3). -/
def minLocal (c : Nat) : FieldDef :=
  nth [Fld.MIN_LOCAL_TC0, Fld.MIN_LOCAL_TC1, Fld.MIN_LOCAL_TC2, Fld.MIN_LOCAL_TC3, Fld.MIN_LOCAL_TC4,
    Fld.MIN_LOCAL_TC5, Fld.MIN_LOCAL_TC6, Fld.MIN_LOCAL_TC7] c Fld.MIN_LOCAL_TC7

/-- The adapter end in effect at a switch port (Table 1.1): ports 2 to 5 DPA, 6 and 7 PCIE, 8 USB, 9 NET; the others hold
no adapter end and answer 1. -/
def State.portEnd (s : State) (p : Nat) : Nat :=
  if 2 ≤ p && p ≤ 5 then nth s.topo.ends (p - 2) 0
  else if p == 6 || p == 7 then nth s.topo.ends 4 0
  else if p == 8 then nth s.topo.ends 5 0
  else if p == 9 then nth s.topo.ends 6 0
  else 1

/-- MIN[i][c] (R186): the minimum of a local port whose adapter end is OFF goes to the shared pool. -/
def State.swMin (s : State) (i c : Nat) : Nat :=
  if i < 2 then s.cv (minCable c)
  else if s.portEnd i == 0 then 0
  else s.cv (minLocal c)

/-- Buffers of the shared pool (R186): those left of 32,768. -/
def State.poolSize (s : State) : Nat :=
  32768 - total ((upTo 12).map fun i => total ((upTo 8).map fun c => s.swMin i c)) - 2 * s.cv Fld.REPLAY_CELLS

/-- Free shared buffers now. -/
def State.poolFree (s : State) : Nat := s.poolSize - total s.sw.shrUsed

def swIdx (i c : Nat) : Nat := 8 * i + c

/-- One counter record changed. -/
def State.swCount (s : State) (i c : Nat) (f : SwCnt → SwCnt) : State :=
  { s with sw := { s.sw with cnts := s.sw.cnts.modify (swIdx i c) f } }

/-- EV048 or EV051 (`k` 0 or 3), at most once per tick (R204). -/
def State.swEvent (s : State) (k arg : Nat) : State :=
  if nth s.sw.evTicks k none == some s.time.tick then s
  else ({ s with sw := { s.sw with evTicks := put s.sw.evTicks k (some s.time.tick) } }).raise (48 + k) arg

/-- A queue of the switch, empty and unaged where the state lists none. -/
def SwitchSt.voq (w : SwitchSt) (i j c : Nat) : Voq :=
  (w.voqs.find? fun v => v.inp == i && v.outp == j && v.tc == c).getD ⟨i, j, c, [], 0, false, 0, 0⟩

/-- A queue stored; one in its reset state is not listed. -/
def SwitchSt.setVoq (w : SwitchSt) (v : Voq) : SwitchSt :=
  let rest := w.voqs.filter fun x => !(x.inp == v.inp && x.outp == v.outp && x.tc == v.tc)
  { w with voqs := if v == ⟨v.inp, v.outp, v.tc, [], 0, false, 0, 0⟩ then rest else rest ++ [v] }

/-- What admission decides (R190). -/
inductive Admit where
  | minimum | pool | pushOut (victim : QCell) | cap | full
  deriving DecidableEq, Repr

/-- SHARED cells of a queue. -/
def sharedCells (v : Voq) : Nat := (v.cells.filter (·.shared)).length

/-- Whether a queue's tail may be pushed out (R191). -/
def evictable (v : Voq) : Bool :=
  match v.cells.getLast? with
  | none => false
  | some t => t.shared && !t.pending && !t.held

/-- The queue of class `vc` with the most SHARED cells, the lowest input and then the lowest output on a tie (R191). -/
def bestVictim (vs : List Voq) : Option Voq :=
  vs.foldl (fun b v =>
    match b with
    | none => some v
    | some w =>
      if sharedCells w < sharedCells v then some v
      else if sharedCells v < sharedCells w then b
      else if v.inp < w.inp || (v.inp == w.inp && v.outp < w.outp) then some v
      else b) none

/-- The push-out victim for a cell of class c (R191). -/
def State.victim (s : State) (c : Nat) : Option QCell :=
  [0, 1, 2].findSome? fun vc =>
    if vc < c then
      (bestVictim (s.sw.voqs.filter fun v => v.tc == vc && evictable v)).bind fun v => v.cells.getLast?
    else none

/-- Admission of a cell of input i and class c (R190); `l12` says that a TC7 cell is on label 1 or 2. -/
def State.admission (s : State) (i c : Nat) (l12 : Bool) : Admit :=
  if i < 2 && (c == 3 || c == 4 || (c == 7 && l12)) then .minimum
  else if nth s.sw.minUsed (swIdx i c) 0 < s.swMin i c then .minimum
  else if c ≤ 2 && s.cv Fld.SHARED_ALPHA * s.poolFree / 8 ≤ nth s.sw.shrUsed i 0 then .cap
  else if 0 < s.poolFree then .pool
  else
    match s.victim c with
    | some v => .pushOut v
    | none => .full

/-- A buffer returned to the account it is charged to (R186). -/
def State.uncharge (s : State) (q : QCell) : State :=
  if q.held then { s with sw := { s.sw with replay := s.sw.replay.modify q.outp (· - 1) } }
  else if q.shared then { s with sw := { s.sw with shrUsed := s.sw.shrUsed.modify q.inp (· - 1) } }
  else { s with sw := { s.sw with minUsed := s.sw.minUsed.modify (swIdx q.inp q.tc) (· - 1) } }

/-- A cell's tail push-out: freed, counted at its input and class, and for EV050 (R190, R204). -/
def State.pushOut (s : State) (v : QCell) : State :=
  let q := s.sw.voq v.inp v.outp v.tc
  let s : State := { s with sw := s.sw.setVoq { q with cells := q.cells.dropLast } }
  let s := (s.uncharge v).swCount v.inp v.tc fun k => { k with pushed := satAdd 32 k.pushed 1 }
  { s with sw := { s.sw with pushes := s.sw.pushes + 1 } }

/-- The shared pool's low-water mark, and EV048 when the free buffers fall below POOL_LOW_CELLS from `before` (R204). -/
def State.poolWatch (s : State) (before : Nat) : State :=
  let free := s.poolFree
  let low := s.cv Fld.POOL_LOW_CELLS
  let s : State := { s with sw := { s.sw with lowWater := min s.sw.lowWater free } }
  if low ≤ before && free < low then s.swEvent 0 free else s

/-- ECN of an admitted cell (R192). -/
def State.ecnFor (s : State) (c : Nat) (ecn : Bool) : Bool :=
  if c ≤ 2 then ecn || (0 < s.cv Fld.ECN_FREE_CELLS && s.poolFree < s.cv Fld.ECN_FREE_CELLS) else ecn

/-- The buffer that the allocator gives a new cell: the next in turn that no queue holds (R182; DESIGN CHOICE, log entry 59). -/
def State.freeBuf (s : State) : Nat :=
  let used := s.sw.voqs.flatMap fun v => v.cells.map (·.buf)
  (((upTo (used.length + 1)).map fun k => (s.sw.nextBuf + k) % 32768).find? fun b => !used.contains b).getD s.sw.nextBuf

/-- An admitted cell stored in its queue, charged and counted. -/
def State.store (s : State) (q : QCell) : State :=
  let marked := s.ecnFor q.tc q.ecn
  let before := s.poolFree
  let buf := s.freeBuf
  let s := s.swCount q.inp q.tc fun k =>
    { k with cin := satAdd 64 k.cin 1, ecn := satAdd 16 k.ecn (b2n (marked && !q.ecn)) }
  let q := { q with buf := buf, ecn := marked }
  let s : State := { s with sw := { s.sw with nextBuf := (buf + 1) % 32768 } }
  let s : State :=
    if q.shared then { s with sw := { s.sw with shrUsed := s.sw.shrUsed.modify q.inp (· + 1) } }
    else { s with sw := { s.sw with minUsed := s.sw.minUsed.modify (swIdx q.inp q.tc) (· + 1) } }
  let s := s.wordWritten (cellWord q.buf)
  let v := s.sw.voq q.inp q.outp q.tc
  ({ s with sw := s.sw.setVoq { v with cells := v.cells ++ [q] } }).poolWatch before

/-- A cell that arrives at the buffer manager: stored or refused (R190). A refusal drops a cell of a cable input and counts
it by reason, and for EV049 one of TC5 or TC6; a local port never offers a refused cell. -/
def State.arrive (s : State) (q : QCell) (l12 : Bool) : State :=
  match s.admission q.inp q.tc l12 with
  | .minimum => s.store { q with shared := false }
  | .pool => s.store { q with shared := true }
  | .pushOut v => (s.pushOut v).store { q with shared := true }
  | .cap =>
    if q.inp < 2 then s.swCount q.inp q.tc fun k => { k with cap := satAdd 32 k.cap 1 } else s
  | .full =>
    if q.inp < 2 then
      let s := s.swCount q.inp q.tc fun k => { k with full := satAdd 32 k.full 1 }
      if q.tc == 5 || q.tc == 6 then
        { s with sw := { s.sw with
          drops := s.sw.drops + 1, dropAt := if s.sw.drops == 0 then q.inp + 16 * q.tc else s.sw.dropAt } }
      else s
    else s

/-- The cells of a coach of a cable input released, its tag verified (R185). -/
def State.releaseCoach (s : State) (port slot : Nat) : State :=
  { s with sw := { s.sw with
    voqs := s.sw.voqs.map fun v =>
      if v.inp == port then { v with cells := v.cells.map fun q =>
        if q.pending && q.coach == slot then { q with pending := false } else q } else v
    pendCoach := s.sw.pendCoach.modify port (· - 1) } }

/-- The cells of a failed coach freed without counting as drops (R185). -/
def State.freeCoach (s : State) (port slot : Nat) : State :=
  let gone := (s.sw.voqs.filter fun v => v.inp == port).flatMap fun v =>
    v.cells.filter fun q => q.pending && q.coach == slot
  let s := gone.foldl (fun s q => s.uncharge q) s
  { s with sw := { s.sw with
    voqs := s.sw.voqs.map fun v =>
      if v.inp == port then { v with cells := v.cells.filter fun q => !(q.pending && q.coach == slot) } else v
    pendCoach := s.sw.pendCoach.modify port (· - 1) } }

/-- The SWC domain's reset (R183, R203): queues, pointers, accounts and counters. -/
def State.resetSwitch (s : State) : State := { s with sw := .init }

/-- The first port at or after `p` in cyclic order that a list holds (R195). -/
def firstFrom (p : Nat) (l : List Nat) : Option Nat :=
  (upTo 12).findSome? fun k => let q := (p + k) % 12; if l.contains q then some q else none

end Sys2Proof.Machine
end

