-- ==== Sys2Proof/Machine/PlanOps.lean ====
section
/-! DEFINITION. The tick planner's capacity, fill, lane plans, energy model, gates and contracts (spec/08). -/

namespace Sys2Proof.Machine

/-! ### Capacity (R208) -/

/-- Codewords of d data slots: floor(125 d / L), L 51.2 at F and 102.4 at H. -/
def codewords (d : Nat) (h : Bool) : Nat := if h then 1250 * d / 1024 else 1250 * d / 512

/-- Cells of a segment with d data slots (R208). -/
def segCells (d : Nat) (h : Bool) : Nat := codewords d h * 257 / 106

/-- The last segment of the tick before: mode, and rate (0 F, 1 H). -/
abbrev PrevSeg := Nat × Nat

/-- Two modes of opposite direction. -/
def opposite (a b : Nat) : Bool := (a == 0 && b == 1) || (a == 1 && b == 0)

/-- Slots at the start of a FWD or REV segment that carry no data (R208). -/
def lostSlots (prev : PrevSeg) (g : Seg) : Nat :=
  if prev.1 ≤ 2 && prev.2 != g.rate then 4 else if opposite prev.1 g.mode then 2 else 0

/-- The segments of a lane with their ends and the data slots they lose, walking from the tick before. -/
def walkSegs : PrevSeg → List Seg → List (Seg × Nat × Nat)
  | _, [] => []
  | prev, g :: rest =>
    let stop := match rest with
      | [] => 250
      | n :: _ => n.start
    (g, stop, lostSlots prev g) :: walkSegs (g.mode, g.rate) rest

/-- Cells of a lane in a direction (0 forward, 1 reverse). -/
def laneCells (prev : PrevSeg) (segs : List Seg) (dir : Nat) : Nat :=
  total ((walkSegs prev segs).map fun (g, stop, lost) =>
    if g.mode == dir && !g.t then segCells (stop - g.start - lost) (g.rate == 1) else 0)

/-- A lane carries data of a direction in slots lo to hi. -/
def dataIn (prev : PrevSeg) (segs : List Seg) (dir lo hi : Nat) : Bool :=
  (walkSegs prev segs).any fun (g, stop, lost) => g.mode == dir && !g.t && g.start + lost ≤ lo && hi < stop

/-- Data slots of a direction in a lane's tick. -/
def dataSlots (prev : PrevSeg) (segs : List Seg) (dir : Nat) : Nat :=
  total ((walkSegs prev segs).map fun (g, stop, lost) => if g.mode == dir then stop - g.start - lost else 0)

/-! ### Lane templates and allocation (R209) -/

/-- What the planner sees of one lane: its mode set by R211 to R213, how it may be used (0 both, 1 FWD_ONLY, 2 REV_ONLY),
TURN_HOLD, its rate (true H), whether H is trained, its last segment, and whether it may be planned. -/
structure LaneView where
  fixed : Option (List Seg)
  use   : Nat
  hold  : Bool
  h     : Bool
  canH  : Bool
  prev  : PrevSeg
  /-- Data slots forward and reverse in the tick before (R209, TURN_HOLD). -/
  fwdBefore : Nat
  revBefore : Nat
  /-- The hold is new: no lane plan has been started under it (R209). -/
  holdNew : Bool
  active : Bool
  deriving DecidableEq, Repr

def rateBit (v : LaneView) : Nat := if v.h then 1 else 0

def tplWF (v : LaneView) : List Seg := [⟨0, 0, rateBit v, false⟩]
def tplWR (v : LaneView) : List Seg := [⟨0, 1, rateBit v, false⟩]
def tplS (v : LaneView) (r : Nat) : List Seg :=
  [⟨0, 0, rateBit v, false⟩, ⟨22, 1, rateBit v, false⟩, ⟨24 + r, 0, rateBit v, false⟩]
def tplFW (v : LaneView) : List Seg :=
  [⟨0, 1, rateBit v, false⟩, ⟨198, 0, rateBit v, false⟩, ⟨204, 1, rateBit v, false⟩]

/-- A lane whole in one mode. -/
def wholeSeg (v : LaneView) (mode : Nat) : List Seg := [⟨0, mode, rateBit v, false⟩]

/-- Cells of a lane over a whole tick at its rate. -/
def whole (v : LaneView) : Nat := segCells 250 v.h

/-- A lane of A: it takes a template of the procedure. -/
def inA (v : LaneView) : Bool := v.active && v.fixed.isNone && v.use == 0 && !v.hold

/-- The segments that a lane outside A keeps: its fixed mode, W_F or W_R; none for a lane of A. -/
def preset (v : LaneView) : Option (List Seg) :=
  match v.fixed with
  | some g => some g
  | none =>
    if !v.active then some [⟨0, 7, v.prev.2, false⟩]
    else if v.use == 1 then some (tplWF v)
    else if v.use == 2 then some (tplWR v)
    else if v.hold then some (if !v.holdNew && v.fwdBefore < v.revBefore then tplWR v else tplWF v)
    else none

/-- The reverse cells of the segment that S(r) gives. -/
def sCells (v : LaneView) (r : Nat) : Nat := laneCells v.prev (tplS v r) 1

/-- The least r from 4 to 222 whose reverse cells reach rr, or 222 (R209). -/
def leastR (v : LaneView) (rr : Nat) : Nat :=
  ((List.range 219).map (· + 4)).find? (fun r => rr ≤ sCells v r) |>.getD 222

abbrev Lanes := List (LaneView × Option (List Seg))

/-- Give a lane its template by index. -/
def setTpl (ls : Lanes) (i : Nat) (g : List Seg) : Lanes := ls.modify i fun (v, _) => (v, some g)

def planCells (ls : Lanes) (dir : Nat) : Nat :=
  total (ls.map fun (v, g) => laneCells v.prev (g.getD []) dir)

/-- Lanes with data of a direction in the link-control window of R209. -/
def windowLanes (ls : Lanes) (dir : Nat) : Nat :=
  (ls.filter fun (v, g) => if dir == 1 then dataIn v.prev (g.getD []) 1 24 27 else dataIn v.prev (g.getD []) 0 200 203).length

/-- The loop that gives W_R to the highest lanes of A while whole lanes of reverse are needed. -/
def giveWR : List Nat → Lanes → Nat → Lanes × Nat
  | [], ls, rr => (ls, rr)
  | i :: rest, ls, rr =>
    match ls[i]? with
    | some (v, none) => if whole v ≤ rr then giveWR rest (setTpl ls i (tplWR v)) (rr - whole v) else (ls, rr)
    | _ => giveWR rest ls rr

/-- Change the lowest lane of A in one template until two lanes hold the window (R209). -/
def windowFix (dir : Nat) : List Nat → Lanes → Lanes
  | [], ls => ls
  | i :: rest, ls =>
    if 2 ≤ windowLanes ls dir then ls
    else
      match ls[i]? with
      | some (v, some g) =>
        if dir == 1 then (if inA v && g == tplWF v then windowFix dir rest (setTpl ls i (tplS v 4)) else windowFix dir rest ls)
        else (if inA v && g == tplWR v then windowFix dir rest (setTpl ls i (tplFW v)) else windowFix dir rest ls)
      | _ => windowFix dir rest ls

/-- `allocate` of R209. -/
def allocate (views : List LaneView) (needR : Nat) : Lanes :=
  let ls : Lanes := views.map fun v => (v, preset v)
  let idx := (List.range views.length).reverse
  let (ls, rr) := giveWR idx ls (needR - planCells ls 1)
  let ls :=
    if 0 < rr then
      match idx.find? (fun i => match ls[i]? with | some (_, none) => true | _ => false) with
      | some i => match ls[i]? with
        | some (v, none) => setTpl ls i (tplS v (leastR v rr))
        | _ => ls
      | none => ls
    else ls
  let ls := ls.map fun (v, g) => (v, some (g.getD (tplWF v)))
  let up := List.range views.length
  windowFix 0 up (windowFix 1 up ls)

/-- A pair of needs is feasible (R209). -/
def feasible (views : List LaneView) (needF needR : Nat) : Bool :=
  let ls := allocate views needR
  needF ≤ planCells ls 0 && needR ≤ planCells ls 1

/-! ### Releasing spare capacity (R210) -/

/-- The windows that a release must keep: at least the lower of 2 and what `allocate` returned. -/
def keepsWindows (before after : Lanes) : Bool :=
  min 2 (windowLanes before 1) ≤ windowLanes after 1 && min 2 (windowLanes before 0) ≤ windowLanes after 0

/-- Stage 1: whole W_F or W_R lanes of a direction to L0S, highest first. -/
def releaseWhole (start : Lanes) (dir keep : Nat) : List Nat → Lanes → Lanes
  | [], ls => ls
  | i :: rest, ls =>
    match ls[i]? with
    | some (v, some g) =>
      let isW := inA v && (if dir == 0 then g == tplWF v else g == tplWR v)
      let next := setTpl ls i (wholeSeg v 2)
      if isW && keep ≤ planCells next dir && keepsWindows start next then releaseWhole start dir keep rest next
      else releaseWhole start dir keep rest ls
    | _ => releaseWhole start dir keep rest ls

/-- A lane's last segment cut at a slot, the rest of the tick L0S. -/
def cutLast (v : LaneView) (g : List Seg) (slot : Nat) : List Seg := g ++ [⟨slot, 2, rateBit v, false⟩]

/-- The shortest FWD or REV segment that R166 lets a plan hold: 6 slots for REV after FWD, 2 for its turnaround otherwise. -/
def leastSeg (dir : Nat) : Nat := if dir == 1 then 6 else 2

/-- Stage 2: end the last segment of the highest lane in that direction at the earliest slot that leaves keep (R210). -/
def releaseTail (start : Lanes) (dir keep : Nat) (ls : Lanes) : Lanes :=
  let idx := (List.range ls.length).reverse
  let cand := idx.find? fun i =>
    match ls[i]? with
    | some (v, some g) =>
      inA v && (match g.getLast? with | some l => l.mode == dir && 0 < l.start | none => false)
    | _ => false
  match cand with
  | none => ls
  | some i =>
    match ls[i]? with
    | some (v, some g) =>
      let first := (g.getLast?.map (·.start)).getD 0
      let slots := (List.range 249).filter fun k => first + leastSeg dir ≤ k
      match slots.find? fun k =>
        let next := setTpl ls i (cutLast v g k)
        keep ≤ planCells next dir && keepsWindows start next with
      | some k => setTpl ls i (cutLast v g k)
      | none => ls
    | _ => ls

/-- The release of R210 in both directions, forward first. -/
def release (pct : Nat) (needF needR : Nat) (ls : Lanes) : Lanes :=
  let keepOf := fun need => (need * (100 + pct) + 99) / 100
  let idx := (List.range ls.length).reverse
  let l1 := releaseTail ls 0 (keepOf needF) (releaseWhole ls 0 (keepOf needF) idx ls)
  releaseTail ls 1 (keepOf needR) (releaseWhole ls 1 (keepOf needR) idx l1)

/-! ### The fill order (R214, R215) -/

/-- One demand: step 1 to 7 of Table 8.5, priority of a contract, class, direction (0 forward or the output, 1 reverse),
cells, contract ID (0 none), and the output port of a local plan. -/
structure Demand1 where
  step : Nat
  prio : Nat
  tc   : Nat
  dir  : Nat
  cells : Nat
  id   : Nat
  outp : Nat
  deriving DecidableEq, Repr

/-- The sub-steps of Table 8.5 in order. -/
def fillKeys : List (Nat × Nat) :=
  [(1, 0)] ++ ([7, 6, 5, 4, 3, 2, 1, 0].map fun p => (2, p)) ++ ([7, 6, 5, 4, 3, 2, 1, 0].map fun p => (3, p))
    ++ [(4, 0), (5, 0), (6, 0), (7, 0)]

def inStep (d : Demand1) (key : Nat × Nat) : Bool :=
  d.step == key.1 && (key.1 == 1 || 4 ≤ key.1 || d.prio == key.2)

/-- Admitted cells with a step admitted at k/64 of its demands. -/
def admitStep (ds : List Demand1) (adm : List Nat) (key : Nat × Nat) (k : Nat) : List Nat :=
  (ds.zip adm).map fun (d, a) => if inStep d key then d.cells * k / 64 else a

/-- The largest k from 63 down to 0 at which a test passes. -/
def largestK (p : Nat → Bool) : Nat := ((List.range 64).reverse.find? p).getD 0

/-- The fill of R215: admitted cells and the capacity step (8 when none stopped). -/
def fillGo (ds : List Demand1) (fits : List Nat → Bool) : List (Nat × Nat) → List Nat → List Nat × Nat
  | [], adm => (adm, 8)
  | key :: rest, adm =>
    if ds.any (inStep · key) then
      let full := admitStep ds adm key 64
      if fits full then fillGo ds fits rest full
      else (admitStep ds adm key (largestK fun k => fits (admitStep ds adm key k)), key.1)
    else fillGo ds fits rest adm

def fill (ds : List Demand1) (fits : List Nat → Bool) : List Nat × Nat :=
  fillGo ds fits fillKeys (ds.map fun _ => 0)

/-- Admitted cells of a class and direction. -/
def admOf (ds : List Demand1) (adm : List Nat) (p : Demand1 → Bool) : Nat :=
  total ((ds.zip adm).map fun (d, a) => if p d then a else 0)

/-- The two demands of a contract in a direction: C2 at MIN_PCT, C3 the rest (Table 8.5). -/
def contractDemand (c : Contract) (cells dir outp : Nat) : List Demand1 :=
  let low := ceilDiv (cells * c.minPct) 100
  [⟨2, c.prio, c.cls, dir, low, c.id, outp⟩, ⟨3, c.prio, c.cls, dir, cells - low, c.id, outp⟩]

/-- The fill step of a class's backlog (Table 8.5). -/
def backlogStep (c : Nat) : Nat :=
  if c == 6 || c == 5 then 4 else if c == 4 || c == 3 then 5 else if c == 2 then 6 else 7

/-! ### Contracts (R224 to R226, R586) -/

/-- Paths bound to a contract at this hub (R226): entries and local paths that name it and match its ports and class. -/
def contractMatches (c : Contract) (a b tc : Nat) : Bool :=
  c.cls == tc && ((c.inPort == a && c.outPort == b) || (c.inPort == b && c.outPort == a))

/-- A path bound to a contract at this hub: its two switch ports, its label (0 for a local path) and its class. -/
structure BoundPath where
  a     : Nat
  b     : Nat
  label : Nat
  tc    : Nat
  deriving DecidableEq, Repr

/-- The paths at this hub that are bound to a contract: table entries and local paths. A path that passes here is counted once, at its
entry on CP0 (its entry on CP1 is the same path). -/
def State.boundTo (s : State) (id : Nat) : List BoundPath :=
  let ent := (s.cable.links.zipIdx).flatMap fun (l, p) =>
    (l.table.filter fun e => e.bound && e.contract == id && (2 ≤ e.egress || p < e.egress)).map fun e =>
      (⟨p, e.egress, e.label, e.tc⟩ : BoundPath)
  let loc := (s.cable.paths.filter fun r => r.port.isNone && r.bound && r.contract == id).map fun r =>
    (⟨r.src, r.dst, 0, r.tc⟩ : BoundPath)
  ent ++ loc

/-- Paths bound to a contract. -/
def State.boundPaths (s : State) (c : Contract) : Nat := (s.boundTo c.id).length

/-- The paths bound to a contract stay bound where `keep` says so, by ports and class (R226, R586). -/
def State.keepBound (s : State) (id : Nat) (keep : Nat → Nat → Nat → Bool) : State :=
  { s with cable := { s.cable with
    links := (s.cable.links.zipIdx).map fun (l, p) => { l with table := l.table.map fun (e : PathEntry) =>
      if e.contract == id then { e with bound := e.bound && keep p e.egress e.tc } else e }
    paths := s.cable.paths.map fun r =>
      if r.contract == id && r.port.isNone then { r with bound := r.bound && keep r.src r.dst r.tc } else r } }

/-- The contracts that the planner plans with in this tick (R205) and that are active: a path bound to them is open (R214). -/
def State.activeContracts (s : State) : List Contract :=
  s.plan.latched.filter fun c => 0 < s.boundPaths c

/-- Cells per tick of a rate in Mb/s (R224): ceil(rate × 31.25 / 2,048). -/
def cellsOf (mbps : Nat) : Nat := (mbps * 3125 + 204799) / 204800

/-- Cells of a contract toward an output port, and arriving from it (R224). -/
def contractOut (c : Contract) (p : Nat) : Nat :=
  (if c.outPort == p then cellsOf c.along else 0) + (if c.inPort == p then cellsOf c.back else 0)

def contractIn (c : Contract) (p : Nat) : Nat :=
  (if c.inPort == p then cellsOf c.along else 0) + (if c.outPort == p then cellsOf c.back else 0)

/-- Default priority of a class (Table 8.10). -/
def State.defaultPrio (s : State) (cls : Nat) : Nat :=
  s.cv (match cls with
    | 6 => Fld.PRIO_TC6
    | 5 => Fld.PRIO_TC5
    | 4 => Fld.PRIO_TC4
    | 3 => Fld.PRIO_TC3
    | _ => Fld.PRIO_TC2)

/-! ### Links as the planner sees them -/

def State.link (s : State) (p : Nat) : LinkSt := nth s.cable.links p .init
def State.cpx (s : State) (p : Nat) : CpxSt := nth s.cable.cpx p .init
def State.setLink (s : State) (p : Nat) (f : LinkSt → LinkSt) : State :=
  { s with cable := { s.cable with links := s.cable.links.modify p f } }
def State.setCpx (s : State) (p : Nat) (f : CpxSt → CpxSt) : State :=
  { s with cable := { s.cable with cpx := s.cable.cpx.modify p f } }

/-- The PHY sequencer of a cable port runs no image or has been stopped by faults (R512, R540): no training, re-calibration, test or
L1X exit. -/
def State.phyOut (s : State) (p : Nat) : Bool := nth s.fault.phyStopped p false || nth s.upd.stopped (2 + p) false

/-- A PHYSEQ activation of the port waits for quiet (R521). -/
def State.phyWaits (s : State) (p : Nat) : Bool := s.upd.act.any fun a => a.inst == 2 + p && a.phase == 0

/-- This hub is the tick master of a cable: its port is DOWN and the link is of generation 2. -/
def State.isMaster (s : State) (p : Nat) : Bool :=
  nth s.topo.portRole p .none == .down && !(s.link p).gen1

/-- The direction in which this hub sends on a cable: 0 forward for the tick master, or for the DFP at G1; 1 reverse for its peer. -/
def State.txDir (s : State) (p : Nat) : Nat :=
  if (s.link p).gen1 then (if (nth s.cc p .init).dfp then 0 else 1) else if s.isMaster p then 0 else 1

/-- A lane can run at F in the directions it is used in (R126, R213). -/
def laneF (l : LaneSt) : Bool :=
  if l.use == 1 then l.fFwd else if l.use == 2 then l.fRev else l.fFwd && l.fRev

/-- The last segment of each lane in a plan. -/
def lastSegs (pl : Option Plan) : List PrevSeg :=
  match pl with
  | none => [(2, 0), (2, 0), (2, 0), (2, 0)]
  | some p => p.lanes.map fun g => match g.getLast? with
    | some l => (l.mode, l.rate)
    | none => (2, 0)

/-- The codes of Table 5.4. -/
def laneCode : LaneState → Nat
  | .off => 0
  | .train => 1
  | .l0 => 2
  | .l0s => 3
  | .l1d => 4
  | .l1x => 5
  | .cal => 6
  | .test => 7
  | .floor => 8
  | .retired => 9

/-- RATE of Table 5.12. -/
def rateCode : Rate → Nat
  | .f => 0
  | .h => 1
  | .g1 => 2
  | .t => 3
  | .none => 15

/-- A plan of the link for a target tick. -/
def LinkSt.planFor (l : LinkSt) (target : Nat) : Option Plan :=
  ([l.plan0, l.plan1, l.plan2].filterMap id).find? fun p => p.target == target

/-! ### Energy (R228 to R231, Table 8.8) -/

/-- Adapter ends in use (R457). -/
def State.endOff (s : State) (k : Nat) : Bool := nth s.topo.ends k 0 == 0

/-- The domains that are switched, in the save order of Table 18.4 (R465). -/
def saveOrder : List Nat := [10, 7, 8, 9, 6, 4, 5, 3, 11, 2]

/-- Units of a domain are in use: an adapter end or SVC_CORES_MASK may leave it unused (R457; a lane mask is never 0). -/
def State.domainUsed (s : State) (d : Nat) : Bool :=
  match d with
  | 4 => s.cv Fld.SVC_CORES_MASK % 4 != 0
  | 5 => 4 ≤ s.cv Fld.SVC_CORES_MASK
  | 7 => !(s.endOff 0 && s.endOff 1 && s.endOff 2 && s.endOff 3)
  | 8 => !s.endOff 4
  | 9 => !s.endOff 5
  | 10 => !s.endOff 6
  | _ => true

/-- A domain of Table 18.1 is on: 0 AON, 1 PWR, 2 MGT, 3 SWC, 4 SVC0 and 1, 5 SVC2 to 7, 6 CPX, 7 DPX, 8 PCX, 9 USX,
10 NEX, 11 MEMC. -/
def State.domainOn (s : State) (d : Nat) : Bool :=
  if d == 0 then true
  else if s.pins.phase != 2 then false
  else if d == 1 then !(s.pwr.state == 4 && s.pwr.goal == 4)
  else if s.fault.thermal then false
  else
    let run := s.pwr.state ≤ 2 || (s.pwr.state == 4 && s.pwr.goal != 4)
    s.domainUsed d && match d with
      | 5 => run && s.pwr.state != 1
      | 10 => run || (s.pwr.state == 3 && s.pwr.nex)
      | _ => run

/-! ### PCI Express links (Table 10.1) -/

def State.pcLink (s : State) (l : Nat) : PciLink := nth s.pcie.links l .init
def State.setPcLink (s : State) (l : Nat) (f : PciLink → PciLink) : State :=
  { s with pcie := { s.pcie with links := s.pcie.links.modify l f } }

def State.pcieUp (s : State) : Bool := nth s.topo.ends 4 0 == 1
def State.pcieDown (s : State) : Bool := nth s.topo.ends 4 0 == 2

/-- PCIE_BIFURCATION in force: as taken at the last training of a downstream link, or as applied while all are down (R287). -/
def State.bifurcation (s : State) : Nat :=
  if [1, 2, 3, 4].all fun l => (s.pcLink l).state == 0 then s.cv Fld.PCIE_BIFURCATION else s.pcie.bifur

/-- Configured width of the upstream link, and of DP k (Table 10.1); 0 where there is no such link. -/
def State.upLinkWidth (s : State) : Nat :=
  if !s.pcieUp then 0
  else if (if (s.pcLink 0).state == 0 then s.cv Fld.PCIE_UP_WIDTH else s.pcie.upWidth) == 0 then 8 else 4

def State.dpWidth (s : State) (k : Nat) : Nat :=
  if !s.pcieDown then 0
  else nth (nth [[8, 0, 0, 0], [4, 4, 0, 0], [4, 2, 2, 0], [2, 2, 2, 2]] s.bifurcation []) k 0

/-- Configured width of a link, 0 UP or 1 to 4. -/
def State.linkWidth (s : State) (l : Nat) : Nat := if l == 0 then s.upLinkWidth else s.dpWidth (l - 1)

/-- The highest rate of a link, 5 for 32.0 GT/s, by PCIE_MAX_SPEED as taken at its last training (R287). -/
def State.linkMaxRate (s : State) (l : Nat) : Nat :=
  5 - (if (s.pcLink l).state == 0 then s.cv Fld.PCIE_MAX_SPEED else (s.pcLink l).maxSpeed)

/-- PXA of DP k (Table 10.1): switch port 6 or 7. -/
def State.dpPort (s : State) (k : Nat) : Nat :=
  if k == 0 then 6 else if s.bifurcation == 3 && k == 1 then 6 else 7

/-- Configured lanes of the links of Table 10.1 while PCIE_END is not OFF. -/
def State.pcieLanes (s : State) : Nat := total ((upTo 5).map s.linkWidth)

/-- Energy of the powered domains in nJ per tick (Table 8.8). -/
def State.domainsNj (s : State) : Nat :=
  9375 + (if s.domainOn 2 then 4688 else 0) + (if s.domainOn 3 then 15625 else 0)
    + (if s.domainOn 11 then 37500 else 0)
    + (if s.domainOn 7 then 5469 * ([0, 1, 2, 3].filter fun k => !s.endOff k).length else 0)
    + (if s.domainOn 8 then 7813 * s.pcieLanes else 0) + (if s.domainOn 9 then 15625 else 0)
    + (if s.domainOn 10 then 9375 else 0)

/-- nJ per slot of a planned segment (Table 8.8). -/
def segNj (g : Seg) : Nat :=
  if g.t then 6
  else
    match g.mode with
    | 2 => 20
    | 3 => 1
    | 4 => 45
    | 7 => 20
    | _ => if g.rate == 1 then 40 else 68

/-- Energy of a lane's segments in nJ. -/
def segsNj (prev : PrevSeg) (segs : List Seg) : Nat :=
  total ((walkSegs prev segs).map fun (g, stop, _) => segNj g * (stop - g.start))

/-- Energy of a lane for a tick: by its plan, or by its state when it is not planned. Table 8.8 has no row for a lane at G1 (log entry 3). -/
def laneNj (l : LaneSt) (segs : Option (List Seg)) : Nat :=
  match l.state with
  | .off => 0
  | .retired => 0
  | .train => 68 * 250
  | .floor => 6 * 250
  | _ =>
    if l.rate == .g1 then Config.laneG1Nj
    else
    match segs with
    | some g => segsNj (2, 0) g
    | none => 20 * 250

/-- Energy of a port's lanes under a plan. -/
def State.portNj (s : State) (p : Nat) (pl : Option Plan) : Nat :=
  total (((s.cpx p).lanes.zipIdx).map fun (l, k) => laneNj l (pl.bind fun x => x.lanes[k]?))

/-- pJ of a cell of a class. -/
def cellPj (c : Nat) : Nat :=
  match c with
  | 2 => 1500
  | 3 => 1300
  | 4 => 1300
  | 5 => 1100
  | 6 => 1100
  | _ => 900

/-- Energy of admitted cells in nJ, rounded up (R229). -/
def cellsNj (ds : List Demand1) (adm : List Nat) : Nat :=
  ceilDiv (total ((ds.zip adm).map fun (d, a) => a * cellPj d.tc)) 1000

/-- nJ per slot of a service core at an operating point (0 to 3 for 0.5 to 2.0 GHz). -/
def oppNj (o : Nat) : Nat :=
  match o with
  | 0 => 5
  | 1 => 12
  | 2 => 20
  | _ => 31

def slicesNj (sl : List (Nat × Nat)) : Nat := total (sl.map fun (n, o) => n * oppNj o)

/-- P_ceiling as latched (R228, R205): BUDGET_CEILING_MW, which `plan.budget.set` writes in the LOCAL layer (R237). -/
def State.pCeiling (s : State) : Nat := s.plan.latchCeil

/-- P_pd in mW; 14,500 when no contract supplies the hub (R228). -/
def State.pPd (s : State) : Nat := s.plan.latchPd.getD 14500

def State.pFeed (s : State) : Nat := s.plan.latchFeed.getD 14500

def State.pCap (s : State) : Nat := min s.pPd (min s.pFeed s.pCeiling)

/-- The mean of a sensor's last 8 readings, in 1/256 of 0.01 °C (R231). -/
def meanT (rs : List Int) : Int :=
  let w := rs.take 8
  if w.isEmpty then 0 else (w.foldl (· + ·) 0) * 256 / w.length

/-- Predicted temperature of a sensor: T + max(0, slope) × look-ahead (R231), in 1/256 of 0.01 °C. -/
def predictT (rs : List Int) (ahead : Nat) : Int :=
  let t := meanT rs
  if rs.length ≤ 32 then t
  else
    let slope := t - meanT (rs.drop 32)
    t + max 0 (slope * ahead / 32)

/-- h in 0.01 °C and the limiting input: 0 to 7 TS0 to TS7, 8 to 11 BAY0 to BAY3 (R231). A bay without a temperature is left
out (R453). -/
def State.headroom (s : State) : Int × Nat :=
  let lim : Int := (s.cv Fld.THERM_LIMIT_C : Int) * 25600
  let die := (s.plan.readings.zipIdx).map fun (rs, i) =>
    ((lim - predictT rs (s.cv Fld.THERM_LOOKAHEAD_TICKS)) / 256, i)
  let tsense := [Fld.BAY0_TSENSE, Fld.BAY1_TSENSE, Fld.BAY2_TSENSE, Fld.BAY3_TSENSE]
  let fet := ((s.plan.fets.zip s.plan.fetLims).zipIdx).filterMap fun ((t, l), i) =>
    if s.cv (nth tsense i Fld.BAY0_TSENSE) == 2 then none else some (l - t, 8 + i)
  (die ++ fet).foldl (fun (b : Int × Nat) x => if x.1 < b.1 then x else b) (lim / 256, 0)

/-- P_th in µW (R231): f + (P_cap − f) × min(1, max(0, h) / THERM_SPAN_C). -/
def State.pTh (s : State) : Nat :=
  let f := min (s.cv Fld.THERM_FLOOR_MW) s.pCap
  let span := s.cv Fld.THERM_SPAN_C * 100
  let h := min span s.headroom.1.toNat
  f * 1000 + (s.pCap - f) * 1000 * h / span

/-- E_avail in nJ (R228). -/
def State.eAvail (s : State) : Nat := s.pTh * 3125 * (100 - s.cv Fld.ENERGY_MARGIN_PCT) / 10000000

/-! ### Admission (R225) -/

/-- Capacity of a local port in cells per tick (Table 8.7a). -/
def State.localCapacity (s : State) (p : Nat) : Nat :=
  if 2 ≤ p && p ≤ 5 then
    let d := nth s.disp.dpx (p - 2) .init
    -- payload rate in Mb/s: lane rate × lanes × 128/132, or × 8/10 at 8b/10b
    let lane := match d.rate with
      | 1 => 1620
      | 2 => 2700
      | 3 => 5400
      | 4 => 8100
      | 5 => 10000
      | 6 => 13500
      | 7 => 20000
      | _ => (match s.cv Fld.DISP_MAX_RATE with
        | 0 => 20000
        | 1 => 13500
        | 2 => 10000
        | _ => 8100)
    let lanes := if d.rate == 0 then 4 else d.lanes
    if lane ≤ 8100 then lane * lanes * 8 * 31250 / (10 * 1000 * 2048)
    else lane * lanes * 128 * 31250 / (132 * 1000 * 2048)
  else if p == 6 || p == 7 then
    let mine := (upTo 5).filter fun l => if l == 0 then p == 6 else s.dpPort (l - 1) == p
    total (mine.map fun l => s.linkWidth l * 2 ^ s.linkMaxRate l) * 128 * 31250 / (130 * 2048)
  else if p == 8 then 147
  else if p == 9 then
    let m := nth s.net.macs s.net.boundMac .init
    if s.net.bound then
      (match m.mode with
        | 3 => 10000
        | 4 => 10000
        | _ => if s.net.boundMac == 1 then (if m.mode == 1 then 2500 else 1000) else 25000) * 31250 / (1000 * 2048)
    else 381
  else 12207

/-- The chip state that the next plans started are made for (R234): the one asked for, else STATE. -/
def State.planState (s : State) : Nat := s.pwr.next.getD s.pwr.state



/-- The lower of the two ends' MAX_RATE is H (R126, R99). -/
def State.maxH (s : State) (p : Nat) : Bool := s.cv Fld.MAX_RATE == 1 || (s.cpx p).peer.maxH

/-- L0S and L1D may be planned on a cable (R124). -/
def State.bothL0s (s : State) (p : Nat) : Bool := s.cv Fld.L0S_ENABLE == 1 && (s.cpx p).peer.l0s
def State.bothL1d (s : State) (p : Nat) : Bool := s.cv Fld.L1D_ENABLE == 1 && (s.cpx p).peer.l1d

/-- A lane that the planner may use in a tick: trained, not retired, in no re-calibration or test, and past the first tick
that R121 and R135 allow. A lane in TRAIN, CAL or TEST has completed when that tick is known. -/
def lanePlannable (l : LaneSt) (target : Nat) : Bool :=
  (match l.state with
    | .off => false
    | .retired => false
    | .floor => false
    | .train => l.ready.isSome
    | .cal => l.ready.isSome
    | .test => l.ready.isSome
    | _ => true)
  && l.use < 3
  && (match l.ready with
    | some t => t.toNat ≤ target
    | none => true)

/-- A lane that the plan of a tick keeps whole in one mode because of what it was in the tick before (R35, R121, R131): L1D,
L1X until its sixth tick is over, CAL and TEST while they last. -/
def lanePinned (l : LaneSt) (target : Nat) (prev : PrevSeg) : Option Nat :=
  let waits := match l.ready with
    | some t => target < t.toNat
    | none => false
  match prev.1 with
  | 3 => some 3
  | 4 => if waits || (l.ready.isNone && l.state != .l1x && l.state != .l0s && l.state != .l0) then some 4 else none
  | 5 => if l.recal.isSome || waits then some 5 else none
  | 6 => if l.test.isSome || waits then some 6 else none
  | _ => if l.state == .cal && (l.recal.isSome || waits) then some 5 else none

/-- The planner's view of a port's lanes for a target tick, before requests are applied. -/
def State.laneViews (s : State) (p target : Nat) : List LaneView :=
  let before := (s.link p).planFor (target - 1)
  let prevs := lastSegs before
  ((s.cpx p).lanes.zipIdx).map fun (l, k) =>
    let prev := nth prevs k (2, 0)
    let h := s.maxH p || l.capH || !laneF l || (s.planState == 1 && l.hTrained) || (target < l.hUntil.toNat && l.hTrained)
    let ok := lanePlannable l target
    { fixed := match lanePinned l target prev with
        | some m => some [⟨0, m, prev.2, false⟩]
        | none => if ok then none else some [⟨0, 7, prev.2, false⟩]
      use := l.use, hold := l.turnHold, h := h, canH := l.hTrained, prev := prev,
      fwdBefore := match before with
        | some b => dataSlots (2, 0) (nth b.lanes k []) 0
        | none => 0
      revBefore := match before with
        | some b => dataSlots (2, 0) (nth b.lanes k []) 1
        | none => 0
      holdNew := l.turnHold && !l.heldSeen
      active := ok }

/-- Forward and reverse cells of contracts on a cable, in the cable's own terms (R225). -/
def State.cableCells (s : State) (cs : List Contract) (p : Nat) : Nat × Nat :=
  let out := total (cs.map fun c => contractOut c p)
  let inn := total (cs.map fun c => contractIn c p)
  if s.txDir p == 0 then (out, inn) else (inn, out)

/-- A port's usable lanes at their current rates (R225): trained, in neither a re-calibration nor a test. -/
def State.usableViews (s : State) (p : Nat) : List LaneView :=
  ((s.laneViews p (s.time.tick.toNat + 2)).zip (s.cpx p).lanes).map fun (v, l) =>
    let ok := match l.state with
      | .l0 => true
      | .l0s => true
      | .l1d => true
      | .l1x => true
      | .train => l.ready.isSome
      | _ => false
    { v with fixed := none, h := l.rate == .h, prev := (2, b2n (l.rate == .h)), active := ok && l.use < 3 }

/-- The capacity test of R225 for a set of contracts, of which one is new. -/
def State.capacityTest (s : State) (cs : List Contract) (c : Contract) : Bool :=
  let pct := s.cv Fld.ADMIT_PCT
  let tc7 := s.cv Fld.TC7_CELLS
  [c.inPort, c.outPort].all fun p =>
    if p < 2 then
      if s.linkUp p then
        let (f, v) := s.cableCells cs p
        feasible (s.usableViews p) (ceilDiv ((f + tc7) * 100) pct) (ceilDiv ((v + tc7) * 100) pct)
      else true
    else
      let cap := s.localCapacity p
      let out := total (cs.map fun x => contractOut x p)
      let inn := total (cs.map fun x => contractIn x p)
      out * 100 ≤ pct * cap && inn * 100 ≤ pct * cap

/-- The energy test of R225: domains, lanes that carry data when `allocate` runs on the contracts alone (F, whole tick), the
other usable lanes in L0S, the contracts' cells, SVC_FLOOR_SLOTS at 1.0 GHz. -/
def State.energyTest (s : State) (cs : List Contract) : Bool :=
  if s.cv Fld.ENERGY_ADMIT == 0 then true
  else
    let lanes := total ([0, 1].map fun p =>
      if s.linkUp p then
        let (f, v) := s.cableCells cs p
        let ls := release 0 f v (allocate (s.usableViews p) v)
        total (ls.map fun (w, g) =>
          if !w.active then 0
          else if dataSlots w.prev (g.getD []) 0 + dataSlots w.prev (g.getD []) 1 == 0 then 20 * 250 else 68 * 250)
      else 0)
    let cells := ceilDiv (total (cs.map fun c => (cellsOf c.along + cellsOf c.back) * cellPj c.cls)) 1000
    s.domainsNj + lanes + cells + s.cv Fld.SVC_FLOOR_SLOTS * 12 ≤ s.eAvail

/-- A contract entry read from a payload (Table 8.7), resolved (R224). -/
def State.parseContract (s : State) (bs : List Byte) : Contract :=
  let cls := leAt 2 1 bs
  let pr := leAt 3 1 bs
  let mp := leAt 6 1 bs
  { id := leAt 0 2 bs, cls := cls, prio := if pr == 0xFF then s.defaultPrio cls else pr, inPort := leAt 4 1 bs,
    outPort := leAt 5 1 bs, minPct := if mp == 0xFF then s.cv Fld.MIN_PCT_DEFAULT else mp, frame := leAt 7 1 bs,
    along := leAt 8 4 bs, back := leAt 12 4 bs, burst := leAt 16 2 bs, police := bitAt (leAt 18 2 bs) 0, state := 0,
    gAlong := 0, gBack := 0, above := 0, tokA := leAt 16 2 bs * 250, tokB := leAt 16 2 bs * 250 }

/-- A contract entry is within Table 8.7. -/
def contractOk (c : Contract) : Bool :=
  1 ≤ c.id && c.id ≤ 4095 && 2 ≤ c.cls && c.cls ≤ 6 && c.prio ≤ 7 && c.inPort ≤ 11 && c.outPort ≤ 11
    && c.inPort != c.outPort && c.minPct ≤ 100 && 1 ≤ c.frame && c.frame ≤ 16 && c.along ≤ 400000 && c.back ≤ 400000
    && 1 ≤ c.burst && c.burst ≤ 4096

/-- What defining a contract answers: a result, the failed test of R225 (1 capacity, 2 energy), and the state. -/
structure ContractAns where
  rc   : Rc
  test : Nat
  st   : State

/-- The paths bound to a redefined contract checked again (R226, R586): EV060 for each that no longer matches, which goes on without
it. -/
def State.recheckBound (s : State) (c : Contract) : State :=
  let lost := (s.boundTo c.id).filter fun b => !contractMatches c b.a b.b b.tc
  lost.foldl (fun s b => s.raise 60 (b.label + 4096 * (b.a % 2) * b2n (0 < b.label) + 65536 * c.id))
    (s.keepBound c.id fun a b tc => contractMatches c a b tc)

/-- Defining or redefining a contract (R224, R225, R586). -/
def State.defineContract (s : State) (c : Contract) (replace : Bool) : ContractAns :=
  let held := s.plan.contracts.any fun x => x.id == c.id
  if !contractOk c then ⟨.badState, 0, s⟩
  else if held && !replace then ⟨.badHandle, 0, s⟩
  else if !held && 256 ≤ s.plan.contracts.length then ⟨.busy, 0, s⟩
  else
    let cs := (s.plan.contracts.filter fun x => x.id != c.id) ++ [c]
    if !s.capacityTest cs c then ⟨.budget, 1, s⟩
    else if !s.energyTest cs then ⟨.budget, 2, s⟩
    else
      let s : State := { s with plan := { s.plan with contracts := cs } }
      ⟨.ok, 0, if held then s.recheckBound c else s⟩

/-- A contract cleared: bound paths stay open without it (R226). -/
def State.clearContract (s : State) (id : Nat) : State :=
  ({ s with plan := { s.plan with contracts := s.plan.contracts.filter fun c => c.id != id } } : State).keepBound id fun _ _ _ => false

/-- A contract that an adapter chapter defines for a path (R241, R271, R294, R325): class, ports, rates, priority. -/
def State.mkContract (s : State) (id cls prio a b along back frame : Nat) : Contract :=
  { id := id, cls := cls, prio := if prio == 0xFF then s.defaultPrio cls else prio, inPort := a, outPort := b,
    minPct := s.cv Fld.MIN_PCT_DEFAULT, frame := frame, along := along, back := back, burst := 16, police := false,
    state := 0, gAlong := 0, gBack := 0, above := 0, tokA := 4000, tokB := 4000 }

/-- A Table 8.7 entry as bytes. -/
def contractBytes (c : Contract) : List Byte :=
  leBytes 2 c.id ++ leBytes 1 c.cls ++ leBytes 1 c.prio ++ leBytes 1 c.inPort ++ leBytes 1 c.outPort
    ++ leBytes 1 c.minPct ++ leBytes 1 c.frame ++ leBytes 4 c.along ++ leBytes 4 c.back ++ leBytes 2 c.burst
    ++ leBytes 2 (b2n c.police) ++ zeros 4

end Sys2Proof.Machine
end

