-- ==== Sys2Proof/Machine/LanePlan.lean ====
section
/-! DEFINITION. Lane plans of a cable: the fixed plan (R35, R137), the validity of a plan (R166), requests, re-calibration and
test windows (R132, R212), the plan that a tick master builds and its energy steps (R209 to R217). -/

namespace Sys2Proof.Machine

/-! ### The fixed plan -/

def tPattern : List Seg := [⟨0, 0, 0, true⟩, ⟨117, 1, 0, true⟩, ⟨242, 0, 0, true⟩]
def onePattern (r : Nat) : List Seg := [⟨0, 0, r, false⟩, ⟨123, 1, r, false⟩, ⟨248, 0, r, false⟩]

/-- What the fixed plan does with one lane: keep a mode whole, the T pattern of FLOOR, or a direction (0 both, 1 FWD_ONLY,
2 REV_ONLY) to be given, at a rate. -/
inductive FixKind where
  | keep (mode : Nat) (rate : Nat) | floor | give (use rate : Nat)
  deriving DecidableEq, Repr

/-- The kind of a lane for the fixed plan of a tick, given its last segment of the tick before where a plan for it is
known. A lane under TURN_HOLD keeps its direction (R118). -/
def fixKind (l : LaneSt) (target : Nat) (known : Bool) (prev : PrevSeg) : FixKind :=
  let rate := if prev.1 ≤ 2 && prev.1 != 2 then prev.2 else match l.rate with
    | .h => 1
    | _ => if laneF l then 0 else 1
  if l.state == .floor then .floor
  else
    match lanePinned l target prev with
    | some m => .keep m prev.2
    | none =>
      if !lanePlannable l target then .keep 7 prev.2
      else if known && prev.1 == 2 then .keep 2 prev.2
      else .give (if l.turnHold && l.use == 0 && prev.1 ≤ 1 then prev.1 + 1 else l.use) rate

/-- The directions of the lanes that the fixed plan gives one to: those limited keep theirs, the others forward in ascending
order until the forward lanes number ceil(n / 2) (R137). -/
def fixDirs (want : Nat) : Nat → List FixKind → List (Option Nat)
  | _, [] => []
  | got, .give use _ :: rest =>
    if use == 1 then some 0 :: fixDirs want got rest
    else if use == 2 then some 1 :: fixDirs want got rest
    else if got < want then some 0 :: fixDirs want (got + 1) rest
    else some 1 :: fixDirs want got rest
  | got, _ :: rest => none :: fixDirs want got rest

def FixKind.gives : FixKind → Bool
  | .give _ _ => true
  | _ => false

/-- The fixed plan of a port for a tick (R35, R137); `lost` that the UP port of the cable is LOST as this end knows it, and
`locked` that it is LOCKED. -/
def State.fixedPlan (s : State) (p target : Nat) (lost locked : Bool) : Plan :=
  let before := (s.link p).planFor (target - 1)
  let prevs := lastSegs before
  let kinds := ((s.cpx p).lanes.zipIdx).map fun (l, k) => fixKind l target before.isSome (nth prevs k (2, 0))
  let n := (kinds.filter (·.gives)).length
  let fwdOnly := (kinds.filter fun k => match k with
    | .give 1 _ => true
    | _ => false).length
  let dirs := fixDirs ((n + 1) / 2) fwdOnly kinds
  let segs := (kinds.zipIdx).map fun (kd, k) =>
    let prev := nth prevs k (2, 0)
    let wasT := match before with
      | some b => ((nth b.lanes k []).getLast?.map (·.t)).getD false
      | none => false
    match kd with
    | .keep m r => [⟨0, m, r, false⟩]
    | .floor => tPattern
    | .give use r =>
      let d := (nth dirs k none).getD 0
      let single := n == 1 && use == 0
      let turns := single || opposite prev.1 d
      if (lost && turns) || (wasT && !locked) then tPattern
      else if single then onePattern r
      else [⟨0, d, r, false⟩]
  ⟨target, true, false, s.topo.depth, segs⟩

/-- The fixed plan as this end runs it: an UP port by its own alignment, the tick master by the ALIGN of the last DEMAND cell
(R137). -/
def State.ownFixedPlan (s : State) (p target : Nat) : Plan :=
  if s.isMaster p then
    let a := ((s.link p).demand.map (·.align)).getD 0
    s.fixedPlan p target (a == 2) (a == 0)
  else
    let a := (nth s.time.ports p .init).align
    s.fixedPlan p target (a == .lost) (a == .locked)

/-! ### Validity of a received plan (R166, R120, R121, R123) -/

/-- The segments of one lane keep R166: START 0 first, rising, modes and rates of the table, L0S at least 2 slots, a REV
segment after the opposite direction at least 6, L1D and L1X only as the whole tick, T only in FWD and REV of a fixed plan, and a
new rate only in a first segment FWD or REV of 4 slots (R123). -/
def segsOk (fixed : Bool) (prev : PrevSeg) (segs : List Seg) : Bool :=
  let rec go (prev : PrevSeg) (first : Bool) : List Seg → Bool
    | [] => true
    | g :: rest =>
      let stop := match rest with
        | [] => 250
        | n :: _ => n.start
      g.start < stop && g.mode ≤ 7 && g.rate ≤ 1
        && (if first then g.start == 0 else true)
        && (if g.mode == 2 then 2 ≤ stop - g.start else true)
        && (if g.mode == 1 && prev.1 == 0 then 6 ≤ stop - g.start else true)
        && (if 3 ≤ g.mode then first && rest.isEmpty else true)
        && (if g.t then fixed && g.mode ≤ 1 && g.rate == 0 else true)
        && (if prev.1 ≤ 4 && g.rate != prev.2 && !g.t then first && g.mode ≤ 1 && 4 ≤ stop - g.start else true)
        && go (g.mode, if g.t then prev.2 else g.rate) false rest
  1 ≤ segs.length && segs.length ≤ 8 && go prev true segs

/-- The L1D and L1X rules of R121 across the boundary: L1D is left only by L1X, and L1X lasts until its sixth tick is over; an exit
that a plan held announces has not begun yet. -/
def exitOk (l : LaneSt) (target : Nat) (prev : PrevSeg) (segs : List Seg) : Bool :=
  let m := (segs.head?.map (·.mode)).getD 7
  match prev.1 with
  | 3 => m == 3 || m == 4 || m == 7
  | 4 => (match l.ready with
    | some t => if target < t.toNat then m == 4 || m == 7 else m != 4
    | none => if l.state == .l1x || l.state == .l0s || l.state == .l0 then m != 4 else m == 4 || m == 7)
  | _ => m != 4

/-- A change of rate needs trained states for both (R123), and so does the rate of a lane that comes from CAL, TEST or OUT. -/
def rateOk (l : LaneSt) (prev : PrevSeg) (segs : List Seg) : Bool :=
  segs.all fun g => g.mode != 0 && g.mode != 1 || g.t || (g.rate == prev.2 && prev.1 ≤ 4)
    || (if g.rate == 1 then l.hTrained else laneF l)

/-- A received plan is valid (R166, R167). -/
def State.planOk (s : State) (p : Nat) (pl : Plan) : Bool :=
  let prevs := lastSegs ((s.link p).planFor (pl.target - 1))
  pl.lanes.length == 4
    && ((pl.lanes.zip ((s.cpx p).lanes)).zipIdx).all fun ((segs, l), k) =>
      let prev := nth prevs k (2, 0)
      segsOk pl.fixed prev segs && exitOk l pl.target prev segs && rateOk l prev segs

/-! ### Requests of lanes: re-calibration and test (R131, R132, R212) -/

/-- Reserved rates of the contracts on a cable, both directions, in Mb/s. -/
def State.cableMbps (s : State) (p : Nat) : Nat :=
  total ((s.plan.latched.filter fun c => c.inPort == p || c.outPort == p).map fun c => c.along + c.back)

/-- Payload of a lane-direction in Mb/s (R162): 97.0 Gb/s at F, 48.5 at H. -/
def lanePayload (l : LaneSt) : Nat := if l.rate == .h then 48500 else 97000

/-- Lanes of a port in L0 other than one. -/
def otherL0 (lanes : List LaneSt) (k : Nat) : List LaneSt :=
  ((lanes.zipIdx).filter fun (l, i) => i != k && l.state == .l0).map (·.1)

/-- R132 holds a re-calibration or a test back. -/
def State.heldBack (s : State) (p k : Nat) : Bool :=
  9 * total ((otherL0 (s.cpx p).lanes k).map lanePayload) < 10 * s.cableMbps p

/-- The condition of R130: another lane in L0 in each direction, one lane that takes both or one each. -/
def State.recalCond (s : State) (p k : Nat) : Bool :=
  let o := otherL0 (s.cpx p).lanes k
  (o.any fun l => l.use == 0 || l.use == 1) && (o.any fun l => l.use == 0 || l.use == 2)

/-- The hold-back of R132 is over or never was: RECAL_DEFER_MS is 0. -/
def State.deferOver (s : State) (expired : Bool) : Bool := expired || s.cv Fld.RECAL_DEFER_MS == 0

/-- A re-calibration may start now (R132), while a PHYSEQ activation waits only one that is never held back (R521). -/
def State.recalDue (s : State) (p k : Nat) (r : Recal) : Bool :=
  s.recalCond p k && (r.force || r.trig == 4 || (!(s.phyWaits p) && (s.deferOver r.expired || !(s.heldBack p k))))

/-- The lane that the next plan puts into CAL: none while one is in CAL, otherwise the first of the queue that is not in L1D or
L1X and is due (R131, R132). -/
def State.recalPick (s : State) (p target : Nat) : Option Nat :=
  let lanes := (s.cpx p).lanes
  let prevs := lastSegs ((s.link p).planFor (target - 1))
  let busy := (lanes.zipIdx).any fun (l, k) =>
    l.recal.any fun r => 0 < r.step || ((nth prevs k (2, 0)).1 == 5 && l.state != .cal)
  if busy then none
  else
    (s.cpx p).queue.find? fun k =>
      let l := nth lanes k .init
      let m := (nth prevs k (2, 0)).1
      match l.recal with
      | some r => m != 3 && m != 4 && m != 6 && s.recalDue p k r
      | none => false

/-- The lanes that the next plan puts into TEST (R140). -/
def State.testPicks (s : State) (p target : Nat) : List Nat :=
  let prevs := lastSegs ((s.link p).planFor (target - 1))
  ((s.cpx p).lanes.zipIdx).filterMap fun (l, k) =>
    let m := (nth prevs k (2, 0)).1
    match l.test with
    | some t => if m != 6 && m != 5 && m != 3 && m != 4 && l.recal.isNone
        && (t.force || (!(s.phyWaits p) && (s.deferOver t.expired || !(s.heldBack p k)))) then some k else none
    | none => none

/-! ### Building a plan -/

/-- A lane plan in the making: its port, the lanes' views, the demands with the cells admitted, the capacity step, and the lanes
as allocated. -/
structure Build where
  port    : Nat
  views   : List LaneView
  ds      : List Demand1
  adm     : List Nat
  capStep : Nat
  lanes   : Lanes
  deriving DecidableEq, Repr

/-- A contract's demands on a cable: forward and reverse in the cable's terms (R214). -/
def State.cableContract (s : State) (p : Nat) (c : Contract) : List Demand1 :=
  let (f, v) := s.cableCells [c] p
  contractDemand c f 0 p ++ contractDemand c v 1 p

/-- Backlog of a class toward an output: cells frozen for a tick less the reserved cells, at most 1,478 (R214). -/
def State.backlog (s : State) (target j c : Nat) : Nat :=
  let q := match s.plan.frozen.find? fun f => f.target == target with
    | some f => nth f.cells (8 * j + c) 0
    | none => 0
  let resv := total ((s.activeContracts.filter fun x => x.cls == c).map fun x => contractOut x j)
  min (q - resv) 1478

/-- Demands of a cable for a tick (R214): TC7, the active contracts, the backlog of both ends; cells that the peer reserves
beyond the contracts held here are demanded at the class's default priority. -/
def State.cableDemands (s : State) (p target : Nat) : List Demand1 :=
  let tc7 := s.cv Fld.TC7_CELLS
  let act := s.activeContracts.filter fun c => c.inPort == p || c.outPort == p
  let d := (s.link p).demand
  let peer := (upTo 7).flatMap fun c =>
    match d with
    | none => []
    | some r =>
      let own := total ((act.filter fun x => x.cls == c).map fun x => (s.cableCells [x] p).2)
      let more := nth r.resv c 0 - own
      [⟨3, s.defaultPrio c, c, 1, more, 0, p⟩, ⟨backlogStep c, 0, c, 1, min (nth r.backlog c 0) 1478, 0, p⟩]
  [⟨1, 0, 7, 0, tc7, 0, p⟩, ⟨1, 0, 7, 1, tc7, 0, p⟩] ++ act.flatMap (s.cableContract p) ++ peer
    ++ ((upTo 7).map fun c => ⟨backlogStep c, 0, c, 0, s.backlog target p c, 0, p⟩)

def Build.need (b : Build) (dir : Nat) : Nat := admOf b.ds b.adm fun d => d.dir == dir

/-- SPARE_KEEP_PCT and L1D_IDLE_TICKS in force; IDLE takes 0 and 8 (R459). -/
def State.spareKeep (s : State) : Nat := if s.planState == 2 then 0 else s.cv Fld.SPARE_KEEP_PCT
def State.l1dIdle (s : State) : Nat := if s.planState == 2 then 8 else s.cv Fld.L1D_IDLE_TICKS

/-- The lanes allocated for what is admitted, and the spare released (R209, R210). -/
def State.layout (s : State) (b : Build) : Build :=
  let ls := allocate b.views (b.need 1)
  { b with lanes := if s.bothL0s b.port then release s.spareKeep (b.need 0) (b.need 1) ls else ls }

/-- The capacity fill of a cable. -/
def Build.fits (b : Build) (adm : List Nat) : Bool :=
  feasible b.views (admOf b.ds adm fun d => d.dir == 0) (admOf b.ds adm fun d => d.dir == 1)

def State.fillBuild (s : State) (b : Build) : Build :=
  let (adm, step) := fill b.ds b.fits
  s.layout { b with adm := adm, capStep := step }

/-- In REDUCED the lanes at H for the state return to F, lowest first, until the fill cuts no contract (R213). -/
def State.reducedBack (s : State) (target : Nat) : List Nat → Build → Build
  | [], b => b
  | k :: rest, b =>
    if 4 ≤ b.capStep then b
    else
      let l := nth (s.cpx b.port).lanes k .init
      let may := laneF l && !(s.maxH b.port) && l.hUntil.toNat ≤ target
      if may then s.reducedBack target rest (s.fillBuild { b with views := b.views.modify k fun v => { v with h := false } })
      else s.reducedBack target rest b

/-- The plan of a tick newly puts a lane of the port into CAL, TEST or L1X (R521). -/
def State.plansBusy (s : State) (p target : Nat) (b : Build) : Bool :=
  let prevs := lastSegs ((s.link p).planFor (target - 1))
  (b.views.zipIdx).any fun (v, k) =>
    v.fixed.any fun f => f.any fun g => (g.mode == 4 || g.mode == 5 || g.mode == 6) && (nth prevs k (2, 0)).1 != g.mode

/-- The wait of a PHYSEQ activation begins anew (R521). -/
def State.restartWait (s : State) (p : Nat) : State :=
  if s.phyWaits p then { s with upd := { s.upd with act := s.upd.act.map fun a => { a with since := s.time.tick } } } else s

/-- The build of one port's plan before the energy steps. A lane leaves L1D at once for a re-calibration with FORCE (R131) and where
L1D is no longer enabled (R124); the lowest-numbered one where the plan before wanted it back (R211). -/
def State.startBuild (s : State) (p target : Nat) : Build :=
  let views := s.laneViews p target
  let pick := if s.phyOut p then none else s.recalPick p target
  let tests := if s.phyOut p then [] else s.testPicks p target
  let asleep := (((views.zipIdx).filter fun (v, _) => v.fixed == some [⟨0, 3, v.prev.2, false⟩])).map (·.2)
  let mayExit := !(s.phyOut p) && !(s.phyWaits p)
  let exits := asleep.filter fun k =>
    !(s.phyOut p) && ((nth (s.cpx p).lanes k .init).recal.any (·.force)
      || (mayExit && (!(s.bothL1d p) || ((s.cpx p).exitWant && asleep.head? == some k))))
  let views := (views.zipIdx).map fun (v, k) =>
    if pick == some k then { v with fixed := some [⟨0, 5, v.prev.2, false⟩] }
    else if tests.contains k then { v with fixed := some [⟨0, 6, v.prev.2, false⟩] }
    else if exits.contains k then { v with fixed := some [⟨0, 4, v.prev.2, false⟩] }
    else v
  let b := s.fillBuild { port := p, views := views, ds := s.cableDemands p target, adm := [], capStep := 8, lanes := [] }
  if s.planState == 1 then s.reducedBack target [0, 1, 2, 3] b else b

/-! ### Energy steps of lane plans (R216, R217) -/

def Build.nj (b : Build) (lanes : List LaneSt) : Nat :=
  total ((b.lanes.zip lanes).map fun ((v, g), l) =>
    match l.state with
    | .off => 0
    | .retired => 0
    | .floor => 6 * 250
    | _ => if v.active || v.fixed.isSome then segsNj v.prev (g.getD []) else laneNj l none)

/-- Energy of the tick with these plans, the other ports as their plans stand, and service slices. -/
def State.buildsNj (s : State) (target : Nat) (bs : List Build) (sl : List (Nat × Nat)) : Nat :=
  let rest := ([0, 1].filter fun p => !(bs.any fun b => b.port == p)).map fun p => s.portNj p ((s.link p).planFor target)
  s.domainsNj + total rest + total (bs.map fun b => b.nj (s.cpx b.port).lanes) + total (bs.map fun b => cellsNj b.ds b.adm)
    + slicesNj sl

/-- The service slices as wanted, at most 2 cores in REDUCED (R230). -/
def State.wantSlices (s : State) : List (Nat × Nat) :=
  if s.planState == 1 then
    let keep := (((s.plan.svcWant.zipIdx).filter fun (x, _) => 0 < x.1).map (·.2)).take 2
    (s.plan.svcWant.zipIdx).map fun (x, k) => if keep.contains k then x else (0, x.2)
  else s.plan.svcWant

/-- Slices cut whole to SVC_FLOOR_SLOTS at 1.0 GHz on the lowest-numbered cores that request (R230). -/
def floorSlices : Nat → List (Nat × Nat) → List (Nat × Nat)
  | _, [] => []
  | left, (n, o) :: rest =>
    if n == 0 then (0, o) :: floorSlices left rest
    else (min n left, 1) :: floorSlices (left - min n left) rest

/-- Cells of a step cut to k/64 of what was admitted at most. -/
def cutTo (ds : List Demand1) (adm : List Nat) (p : Demand1 → Bool) (k : Nat) : List Nat :=
  (ds.zip adm).map fun (d, a) => if p d then min a (d.cells * k / 64) else a

def cutBuilds (s : State) (bs : List Build) (p : Demand1 → Bool) (k : Nat) : List Build :=
  bs.map fun b => s.layout { b with adm := cutTo b.ds b.adm p k }

/-- The largest k from 63 to 0 at which the plans fit, or 0. -/
def State.cutStep (s : State) (target : Nat) (bs : List Build) (sl : List (Nat × Nat)) (p : Demand1 → Bool) : List Build :=
  cutBuilds s bs p (largestK fun k => s.buildsNj target (cutBuilds s bs p k) sl ≤ s.eAvail)

/-- One lane after another, in the order given, from F to H while the plans do not fit, where the demand stays feasible: for E2 lanes with at
most `light` reverse data slots. -/
def State.lanesToH (s : State) (target light : Nat) (sl : List (Nat × Nat)) : List (Nat × Nat) → List Build → List Build × List (Nat × Nat)
  | [], bs => (bs, [])
  | (p, k) :: rest, bs =>
    if s.buildsNj target bs sl ≤ s.eAvail then (bs, [])
    else
      let try1 := bs.findIdx? fun b => b.port == p
      match try1 with
      | none => s.lanesToH target light sl rest bs
      | some i =>
        match bs[i]? with
        | none => s.lanesToH target light sl rest bs
        | some b =>
          match b.lanes[k]? with
          | some (v, some g) =>
            let may := v.active && v.fixed.isNone && !v.h && v.canH && dataSlots v.prev g 1 ≤ light
            let b' := s.layout { b with views := b.views.modify k fun v => { v with h := true } }
            if may && feasible b'.views (b.need 0) (b.need 1) then
              let (bs', hs) := s.lanesToH target light sl rest (bs.set i b')
              (bs', (p, k) :: hs)
            else s.lanesToH target light sl rest bs
          | _ => s.lanesToH target light sl rest bs

/-- The order in which E2 and E5 take lanes (R217). -/
def laneOrder : List (Nat × Nat) := [(1, 3), (1, 2), (1, 1), (1, 0), (0, 3), (0, 2), (0, 1), (0, 0)]

/-- Lanes that run at H or in L0S for the whole tick: what an E5 cut must raise (Table 8.6). -/
def Build.spared (b : Build) : Nat :=
  (b.lanes.filter fun (v, g) => v.active && v.fixed.isNone && (v.h || g == some (wholeSeg v 2))).length

/-- Plans after a cut of E5, the lanes moved to H, and whether they fit. -/
structure CutAns where
  builds : List Build
  moved  : List (Nat × Nat)
  fits   : Bool

/-- A step's demand cut to k/64, and the lanes that this lets run at H. -/
def State.cutE5 (s : State) (target : Nat) (sl : List (Nat × Nat)) (bs : List Build) (key : Nat × Nat) (k : Nat) : CutAns :=
  let (bs, moved) := s.lanesToH target 250 sl laneOrder (cutBuilds s bs (fun d => inStep d key) k)
  ⟨bs, moved, s.buildsNj target bs sl ≤ s.eAvail⟩

/-- E5 on one step of the fill order (Table 8.6): of the cuts that let one more lane run at H or in L0S, the least with which the plans fit,
else the least that spares the most lanes; no cut where none does. -/
def State.stepE5One (s : State) (target : Nat) (sl : List (Nat × Nat)) (bs : List Build) (key : Nat × Nat) : CutAns :=
  let now := total (bs.map Build.spared)
  let all := ((List.range 64).reverse.map fun k => s.cutE5 target sl bs key k).filter fun a => now < total (a.builds.map Build.spared)
  match all.find? (·.fits) with
  | some a => a
  | none => (all.foldl (fun (b : Option CutAns) a => match b with
      | none => some a
      | some x => if total (x.builds.map Build.spared) < total (a.builds.map Build.spared) then some a else b) none).getD ⟨bs, [], false⟩

def State.stepE5 (s : State) (target : Nat) (sl : List (Nat × Nat)) :
    List (Nat × Nat) → List Build → List Build × List (Nat × Nat)
  | [], bs => (bs, [])
  | key :: rest, bs =>
    if s.buildsNj target bs sl ≤ s.eAvail then (bs, [])
    else
      let a := s.stepE5One target sl bs key
      let (bs', hs) := s.stepE5 target sl rest a.builds
      (bs', a.moved ++ hs)

/-- What the energy steps come to: the builds, the slices, the step, the lanes moved to H, and the excess. -/
structure EnergyAns where
  builds : List Build
  slices : List (Nat × Nat)
  step   : Nat
  moved  : List (Nat × Nat)
  excess : Nat

/-- The energy steps of Table 8.6 on the lane plans of a tick master, lanes taken from CP1.L3 down to CP0.L0 (R217). -/
def State.energySteps (s : State) (target : Nat) (bs : List Build) (sl : List (Nat × Nat)) : EnergyAns :=
  if s.buildsNj target bs sl ≤ s.eAvail then ⟨bs, sl, 0, [], 0⟩
  else
    let b1 := s.cutStep target bs sl fun d => d.step == 7
    let sl1 := if s.buildsNj target b1 sl ≤ s.eAvail then sl else floorSlices (s.cv Fld.SVC_FLOOR_SLOTS) sl
    if s.buildsNj target b1 sl1 ≤ s.eAvail then ⟨b1, sl1, 1, [], 0⟩
    else
      let (b2, moved) := s.lanesToH target (s.cv Fld.REVERSE_LIGHT_SLOTS) sl1 laneOrder b1
      if s.buildsNj target b2 sl1 ≤ s.eAvail then ⟨b2, sl1, 2, moved, 0⟩
      else
        let b3 := s.cutStep target b2 sl1 fun d => d.step == 6
        if s.buildsNj target b3 sl1 ≤ s.eAvail then ⟨b3, sl1, 3, moved, 0⟩
        else
          let keys := [(5, 0), (4, 0)] ++ (upTo 8).map fun p => (3, p)
          let (b5, more) := s.stepE5 target sl1 keys b3
          let e := s.buildsNj target b5 sl1
          ⟨b5, sl1, if b5 == b3 then 4 else 5, moved ++ more, e - s.eAvail⟩

/-- Contracts that a build admits below their full cells. -/
def Build.cutIds (b : Build) : List Nat :=
  (((b.ds.zip b.adm).filter fun (d, a) => d.id != 0 && (d.step == 2 || d.step == 3) && a < d.cells).map fun (d, _) => d.id).eraseDups

/-! ### L1D (R211) -/

/-- Lanes that the plan puts into L1D: idle for L1D_IDLE_TICKS plans and not needed for the contracts, highest first. -/
def State.enterL1d (s : State) (b : Build) : Build :=
  if !(s.bothL1d b.port) then b
  else
    let (f, v) := s.cableCells (s.plan.latched.filter fun c => c.inPort == b.port || c.outPort == b.port) b.port
    [3, 2, 1, 0].foldl (fun b k =>
      match b.lanes[k]? with
      | some (w, some g) =>
        let idle := s.l1dIdle ≤ (nth (s.cpx b.port).lanes k .init).idleTicks
        let views := b.views.modify k fun x => { x with fixed := some [⟨0, 3, rateBit x, false⟩] }
        if inA w && idle && g == wholeSeg w 2 && feasible views f v then
          { b with views := views, lanes := b.lanes.modify k fun x => (x.1, some [⟨0, 3, rateBit w, false⟩]) }
        else b
      | _ => b) b

/-- A lane in L1D is wanted back: the demand was not feasible without it, or a contract needs it (R211). -/
def State.wantsExit (s : State) (b : Build) : Bool :=
  let asleep := b.views.any fun v => v.fixed == some [⟨0, 3, v.prev.2, false⟩]
  let (f, v) := s.cableCells (s.plan.latched.filter fun c => c.inPort == b.port || c.outPort == b.port) b.port
  asleep && (b.capStep != 8 || !(feasible b.views f v))

/-! ### The plan as built -/

/-- F is affordable and needed for a lane at H: the demand was not admitted in full, and the tick fits with the lane at F
(R213). -/
def State.wantsF (s : State) (target : Nat) (b : Build) (k : Nat) : Bool :=
  let b' := s.layout { b with views := b.views.modify k fun v => { v with h := false } }
  b.capStep != 8 && s.buildsNj target [b'] s.wantSlices ≤ s.eAvail

/-- Whole-tick L0S counts, the first tick after an exit, and the H hold of R213, which starts anew for a lane that E2 moved and
in every tick in which F is not affordable and needed. -/
def State.noteLanes (s : State) (target : Nat) (b : Build) (moved : List (Nat × Nat)) : State :=
  s.setCpx b.port fun c => { c with
    exitWant := s.wantsExit b
    lanes := (c.lanes.zipIdx).map fun (l, k) =>
      match b.lanes[k]? with
      | some (v, some g) =>
        let idle := inA v && g == wholeSeg v 2
        let m := (g.head?.map (·.mode)).getD 7
        let l := { l with idleTicks := if idle then l.idleTicks + 1 else 0, heldSeen := l.turnHold }
        let l := if m == 4 && v.prev.1 != 4 then { l with ready := some (BitVec.ofNat 48 (target + 6)) } else l
        if moved.contains (b.port, k) || (target < l.hUntil.toNat && !(s.wantsF target b k)) then
          { l with hUntil := BitVec.ofNat 48 (target + s.cv Fld.RATE_HOLD_TICKS) }
        else l
      | _ => l }

/-- The plan of a build (Table 6.5). -/
def State.planOf (s : State) (target : Nat) (b : Build) : Plan :=
  ⟨target, false, false, s.topo.depth, b.lanes.map fun (_, g) => g.getD []⟩

/-- A plan stored for its tick (R206): the list of the three ticks n, n + 1 and n + 2. -/
def LinkSt.storePlan (l : LinkSt) (now : Nat) (pl : Plan) : LinkSt :=
  if pl.target == now then { l with plan0 := some pl }
  else if pl.target == now + 1 then { l with plan1 := some pl }
  else { l with plan2 := some pl }

end Sys2Proof.Machine
end

