-- ==== Sys2Proof/Machine/SendOps.lean ====
section
/-! DEFINITION. What a cable port sends (spec/05, spec/06): cells with their own tag, link-control messages, and the coaches and runs of
the lanes. -/

namespace Sys2Proof.Machine

/-! ### Lanes and flows -/

def State.lane (s : State) (p k : Nat) : LaneSt := nth (s.cpx p).lanes k .init
def State.setLane (s : State) (p k : Nat) (f : LaneSt → LaneSt) : State :=
  s.setCpx p fun c => { c with lanes := c.lanes.modify k f }

/-- A lane event (R144): CP1's numbers are 16 above CP0's. -/
def State.laneEv (s : State) (p n arg : Nat) : State := s.raise (n + 16 * (p % 2)) arg

/-- Lanes numbered 0 to 3. -/
def fourLanes : List Nat := [0, 1, 2, 3]

def LinkSt.flow (l : LinkSt) (label : Nat) : Option FlowSt := l.flows.find? fun f => f.label == label

def LinkSt.setFlow (l : LinkSt) (label : Nat) (f : FlowSt → FlowSt) : LinkSt :=
  { l with flows := l.flows.map fun x => if x.label == label then f x else x }

def seqMod : Nat := 4096

/-! ### Tags (R157, R159, R162) -/

/-- The 96-bit nonce: the salt and then the counter (R157). -/
def nonceOf (key : List Byte) (ctr : Nat) : List Byte := key.drop 32 ++ beBytes 8 ctr

/-- The link has its keys and encrypts (R159, R162). -/
def LinkSt.sealed (l : LinkSt) : Bool := l.keysIn && l.encrypt

/-- The tag of a cell of KIND 2 to 6: GMAC over its header and payload (R157). -/
def ownTag (key : List Byte) (ctr : Nat) (c : Cell) : List Byte :=
  gcmTag (key.take 32) (nonceOf key ctr) (headerBytes c ++ c.payload) []

/-- The tag of a coach: over the headers of its cells as sent, and their encrypted payloads (R157). -/
def coachTag (key : List Byte) (ctr : Nat) (cs : List Cell) : List Byte :=
  gcmTag (key.take 32) (nonceOf key ctr) (cs.flatMap headerBytes) (cs.flatMap (·.payload))

/-- A cell of KIND 2 to 6 sent with its tag, which takes the next counter value, or with the trailer of R159. -/
def State.sendOwn (s : State) (p : Nat) (c : Cell) : State :=
  let c := withHcrc c
  let l := s.link p
  if l.sealed then
    (s.setLink p fun l => { l with tx := { l.tx with counter := l.tx.counter + 1 } }).emit
      (.cell p none c (ownTag l.tx.key l.tx.counter c))
  else s.emit (.cell p none c (plainTrailer c))

/-- A cell of label 1 that is not sequenced (Table 6.2). -/
def ownCell (kind : Nat) (payload : List Byte) : Cell :=
  { path := 1, tc := 7, kind := kind, len := payload.length, seq := 0, cidx := 0, first := false, last := false, poison := false,
    ecn := false, hcrc := 0, payload := payload }

/-! ### Link-control messages (Table 6.10) -/

def ctlHello : Nat := 0x01
def ctlElect : Nat := 0x02
def ctlKeyInit : Nat := 0x03
def ctlKeyResp : Nat := 0x04
def ctlKeyFinish : Nat := 0x05
def ctlKeyNext : Nat := 0x06
def ctlKeyNextAck : Nat := 0x07
def ctlPathSetup : Nat := 0x08
def ctlPathAck : Nat := 0x09
def ctlPathNack : Nat := 0x0A
def ctlTeardown : Nat := 0x0B
def ctlLaneNotice : Nat := 0x0C
def ctlMasterQuery : Nat := 0x0D
def ctlClose : Nat := 0x0E
def ctlChain : Nat := 0x0F

/-- The bytes of each field of a message, in the order of Table 6.10; where the table gives no width, the least whole number of bytes
(DESIGN CHOICE, log entry 66). -/
def ctlWidths (typ : Nat) : List Nat :=
  match typ with
  | 0x01 => [1, 1, 1, 1, 8, 4, 8, 1, 1, 1]
  | 0x02 => [1, 1]
  | 0x06 => [1, 4, 6]
  | 0x07 => [1, 4]
  | 0x08 => [2, 2, 1, 1, 1, 1, 2, 2]
  | 0x09 => [2, 2, 2]
  | 0x0A => [2, 1]
  | 0x0B => [2]
  | 0x0C => [1, 1, 1]
  | 0x0E => [1]
  | 0x0F => [1, 1, 1, 1, 1, 1]
  | _ => []

/-- A message: its type, the reserved byte, its fields most significant byte first (R5, R173), and key material. -/
def ctlBytes (typ : Nat) (fields : List Nat) (blob : List Byte) : List Byte :=
  leBytes 1 typ ++ zeros 1 ++ ((ctlWidths typ).zip fields).flatMap (fun (n, v) => beBytes n v) ++ blob

/-- A message's cells on label 1, numbered and kept until they are acknowledged (R153, R173). -/
def State.ctlSend (s : State) (p typ : Nat) (fields : List Nat) (blob : List Byte) : State :=
  let seq := (((s.link p).flow 1).map (·.nextSeq)).getD 0
  let cs := messageCells 1 2 seq (ctlBytes typ fields blob)
  let now := s.time.tick
  let s := s.setLink p fun l => l.setFlow 1 fun f => { f with
    nextSeq := (f.nextSeq + cs.length) % seqMod, unacked := f.unacked ++ cs.map fun c => ⟨c, 1, now⟩ }
  cs.foldl (fun s c => s.sendOwn p c) s

/-- A link-control message sent on a port. -/
def State.ctl (s : State) (p typ : Nat) (fields : List Nat) : State := s.ctlSend p typ fields []

/-! ### Coaches (R156) -/

/-- The longest coach this end sends: COACH_MAX_CELLS, and 8 cells on generation 1 (R156, R177). -/
def State.coachLimit (s : State) (p : Nat) : Nat :=
  if (s.link p).gen1 then min 8 (s.cv Fld.COACH_MAX_CELLS) else s.cv Fld.COACH_MAX_CELLS

/-- The coach of a lane closed: its held cell goes as the close cell, with POISON as given, and the tag follows (R156, R164). -/
def State.closeCoach (s : State) (p k : Nat) (poison : Bool) : State :=
  match (s.lane p k).tx.coach with
  | none => s
  | some o =>
    let c := withHcrc { o.held with kind := 1, poison := poison }
    let tag := if (s.link p).sealed then coachTag o.key o.counter (o.sent ++ [c]) else zeros 16
    let s := s.setLane p k fun l => { l with tx := { l.tx with pos := l.tx.pos + 16, coach := none } }
    (s.setLink p fun l => { l with coaches := satAdd 64 l.coaches 1 }).emit (.cell p (some k) c tag)

/-- A cell may join the coach that a lane is sending: of its class, from the same coach where it is cut through, below the limit. -/
def State.joins (s : State) (p k tc : Nat) (source : Option (Nat × Nat)) : Bool :=
  match (s.lane p k).tx.coach with
  | some o => o.tc == tc && o.source == source && o.sent.length + 2 ≤ s.coachLimit p
  | none => false

/-- A cell, its SEQ set, put on a lane: into the coach it may join, or as the first of a new coach, which takes the next counter value
under the key of its direction (R156, R157). -/
def State.putCell (s : State) (p k : Nat) (source : Option (Nat × Nat)) (c : Cell) : State :=
  let join := s.joins p k c.tc source
  let s := if join then s else s.closeCoach p k false
  let l := s.link p
  let crypt := fun (key : List Byte) (ctr off : Nat) =>
    if l.sealed then { c with payload := gcmCrypt (key.take 32) (nonceOf key ctr) off c.payload } else c
  match (s.lane p k).tx.coach with
  | some o =>
    let out := withHcrc { o.held with kind := 0 }
    let held := { crypt o.key o.counter o.off with cidx := o.sent.length + 1 }
    (s.setLane p k fun x => { x with tx := { x.tx with
      pos := x.tx.pos + cellRoom c
      coach := some { o with sent := o.sent ++ [out], off := o.off + c.payload.length, held := held } } }).emit (.cell p (some k) out [])
  | none =>
    let held := { crypt l.tx.key l.tx.counter 0 with cidx := 0 }
    let s := s.setLane p k fun x => { x with tx := { x.tx with
      pos := x.tx.pos + cellRoom c
      coach := some { tc := c.tc, key := l.tx.key, counter := l.tx.counter, sent := [], off := c.payload.length, held := held, source := source } } }
    if l.sealed then s.setLink p fun l => { l with tx := { l.tx with counter := l.tx.counter + 1 } } else s

/-! ### Runs (R112, R113, R146) -/

/-- Bytes of the codewords that are whole within so many data slots of a run. -/
def slotBytes (slots : Nat) (h : Bool) : Nat := codewords slots h * 5140 / 8

/-- IDLE cells fill what the codewords sent so far have room for (R146): the stream's position moves on past them. -/
def LaneTx.fill (t : LaneTx) (h : Bool) : LaneTx :=
  let cap := slotBytes t.slots h
  { t with pos := if t.pos < cap then t.pos + (cap - t.pos) / 8 * 8 else t.pos }

/-- What error injection strikes when `n` of its units pass (R141): one in every INTERVAL, COUNT in all. -/
def Inject.advance (i : Inject) (n : Nat) : Nat × Option Inject :=
  let hits := (i.seen + n) / max 1 i.interval - i.seen / max 1 i.interval
  let hits := if i.count == 0 then hits else min hits (i.count - i.done)
  (hits, if i.count != 0 && i.count ≤ i.done + hits then none else some { i with seen := i.seen + n, done := i.done + hits })

/-- Units of a mode of injection pass on a lane's transmitter. -/
def State.injectUnits (s : State) (p k mode n : Nat) : State :=
  match (s.lane p k).inject with
  | none => s
  | some i =>
    if i.mode != mode then s
    else
      let (hits, next) := i.advance n
      let s := s.setLane p k fun l => { l with inject := next }
      if hits == 0 then s else s.emit (.inject p k mode i.symbols hits)

/-- A run of this end on a lane ends: its coach closes, or is poisoned where it still waits for the tag of a coach cut through. -/
def State.endRun (s : State) (p k : Nat) : State :=
  let cut := (s.lane p k).tx.coach.any fun o => o.source.isSome
  (s.closeCoach p k cut).setLane p k fun l => { l with tx := .init }

/-- A run of this end begins, with its SOS (R141, R146). -/
def State.newRun (s : State) (p k : Nat) : State :=
  (s.setLane p k fun l => { l with tx := { LaneTx.init with run := true } }).injectUnits p k 3 1

/-- Data slots of this end's run pass on a lane: codewords go out, and IDLE cells where nothing else did. -/
def State.passSlots (s : State) (p k n : Nat) (h : Bool) : State :=
  let t := (s.lane p k).tx
  let words := codewords (t.slots + n) h - codewords t.slots h
  (s.setLane p k fun l => { l with tx := { l.tx with slots := l.tx.slots + n }.fill h }).injectUnits p k 2 words

/-- Slots of a run from a slot of one plan on: those of abutting segments in one direction at one rate, and whether they reach the end of
the tick. -/
def runIn (dir slot : Nat) : List (Seg × Nat × Nat) → Nat × Bool
  | [] => (0, true)
  | (g, stop, lost) :: rest =>
    if stop ≤ slot then runIn dir slot rest
    else if g.mode == dir && !g.t && (lost == 0 || g.start + lost ≤ slot) then
      let (n, on) := runIn dir stop rest
      (stop - max slot g.start + n, on)
    else (0, false)

/-- Slots that a run which reaches the end of a tick goes on for in the plans that follow. -/
def runOn (dir k rate : Nat) : List (Option Plan) → Nat
  | some pl :: rest =>
    let (n, on) := runIn dir 0 (walkSegs (dir, rate) (nth pl.lanes k []))
    n + if on then runOn dir k rate rest else 0
  | _ => 0

/-- The lane is at H in the segment of a slot. -/
def atH (segs : List Seg) (slot : Nat) : Bool :=
  ((segs.filter fun g => g.start ≤ slot).getLast?.map fun g => g.rate == 1).getD false

/-- Data slots left of the run that a lane is in for this end's sending, abutting segments and the plans held included (R112, R163). -/
def State.runLeft (s : State) (p k slot : Nat) : Nat :=
  let l := s.link p
  match l.plan0 with
  | none => 0
  | some pl =>
    let segs := nth pl.lanes k []
    let dir := s.txDir p
    let (n, on) := runIn dir slot (walkSegs (nth l.prevs k (2, 0)) segs)
    n + if 0 < n && on then runOn dir k (b2n (atH segs 249)) [l.plan1, l.plan2] else 0

/-- A lane can take a cell now: it is in a run of this end, and the cell, its coach's tag and the tag of the coach it would close end
inside the run (R146, R156). -/
def State.laneTakes (s : State) (p k : Nat) (source : Option (Nat × Nat)) (c : Cell) : Bool :=
  let l := s.lane p k
  let t := l.tx
  if (s.link p).gen1 then l.state == .l0 && s.txDir p == (if k < 2 then 0 else 1)
  else
    let segs := nth (((s.link p).plan0.map (·.lanes)).getD []) k []
    let cap := slotBytes (t.slots + s.runLeft p k s.time.slot) (atH segs s.time.slot)
    let tags := (if t.coach.isSome && !(s.joins p k c.tc source) then 32 else 16) + 8 * b2n source.isSome
    t.run && !(t.coach.any fun o => o.source.isSome && o.source != source) && t.pos + cellRoom c + tags ≤ cap

/-- The lane that takes a cell of a class (DESIGN CHOICE, log entry 66): one whose coach the cell joins, else one that sends no coach, else
any, the lowest first. -/
def State.laneFor (s : State) (p : Nat) (c : Cell) : Option Nat :=
  let ks := fourLanes.filter fun k => s.laneTakes p k none c
  match ks.find? fun k => s.joins p k c.tc none with
  | some k => some k
  | none =>
    match ks.find? fun k => (s.lane p k).tx.coach.isNone with
    | some k => some k
    | none => ks.head?

/-! ### Segments of the tick (R119, R120) -/

/-- A segment begins on a lane that follows the plan: the run before it ends unless it goes on, a run of this end begins, and the lane is
in L0 or L0S. A turnaround is TURNAROUND's (R114). -/
def State.segBegin (s : State) (p k : Nat) (prev : PrevSeg) (g : Seg) (lost : Nat) : State :=
  let l := s.lane p k
  let sends := g.mode == s.txDir p && !g.t
  let goes := l.tx.run && sends && lost == 0
  let s := if l.tx.run && !goes then s.endRun p k else s
  let state : LaneState := if g.mode == 2 then .l0s else .l0
  let s := s.setLane p k fun l => { l with
    state := state
    forward := if g.mode ≤ 1 && !opposite prev.1 g.mode then g.mode == 0 else l.forward
    discard := l.discard && g.mode ≤ 1 && !sends && lost == 0
    inject := if l.state == state then l.inject else none
    cnt := if g.mode == 2 && prev.1 != 2 then { l.cnt with l0s := satAdd 32 l.cnt.l0s 1 } else l.cnt }
  if sends && !goes then s.newRun p k else s

/-- The slots from `lo` to `hi` pass on a lane that is in L0 or L0S: segments begin, and this end's codewords go out. -/
def State.lanePass (s : State) (p lo hi k : Nat) : State :=
  match (s.link p).plan0 with
  | none => s
  | some pl =>
    let segs := nth pl.lanes k []
    let prev := nth (s.link p).prevs k (2, 0)
    let befores := prev :: segs.map fun g => (g.mode, g.rate)
    ((walkSegs prev segs).zip befores).foldl (fun s ((g, stop, lost), before) =>
      let l := s.lane p k
      if l.state != .l0 && l.state != .l0s then s
      else
        let s := if lo < g.start && g.start ≤ hi then s.segBegin p k before g lost else s
        let n := min hi stop - max lo (g.start + lost)
        if 0 < n && g.mode == s.txDir p && !g.t && (s.lane p k).tx.run then s.passSlots p k n (g.rate == 1) else s) s

/-- The slots from `lo` to `hi` of the tick pass on every lane that follows a plan. -/
def State.slotsPass (s : State) (lo hi : Nat) : State :=
  [0, 1].foldl (fun s p => fourLanes.foldl (fun s k => s.lanePass p lo hi k) s) s

end Sys2Proof.Machine
end

