-- ==== Sys2Proof/Machine/PathOps.lean ====
section
/-! DEFINITION. Paths (spec/06, spec/07): labels, credit, path tables, setup and teardown, cells leaving on a cable. -/

namespace Sys2Proof.Machine

/-! ### Classes, labels and identifiers -/

/-- Classes that are lossless on the cable (R152). -/
def lossless (tc : Nat) : Bool := tc == 7 || tc == 4 || tc == 3

/-- Classes whose paths are credited at setup (R187): TC3 and TC4. -/
def credited (tc : Nat) : Bool := tc == 4 || tc == 3

/-- The label range of an end of a cable (R149): the tick-master end 16 to 2,047, the other 2,048 to 4,095. -/
def State.labelRange (s : State) (p : Nat) : Nat × Nat :=
  if nth s.topo.portRole p .none == .down then (16, 2047) else (2048, 4095)

/-- Labels of a port in use or in a setup. -/
def State.labelsUsed (s : State) (p : Nat) : List Nat :=
  ((s.link p).table.map (·.label)) ++ ((s.cable.setups.filter fun x => x.port == p).map (·.label))

/-- The lowest free label of this end's range (R149). -/
def State.freeLabel (s : State) (p : Nat) : Option Nat :=
  let (lo, hi) := s.labelRange p
  let used := s.labelsUsed p
  ((List.range (used.length + 1)).map (· + lo)).find? fun l => l ≤ hi && !used.contains l

/-- The lowest path identifier from 1 to 65,535 that no path of this hub holds (R585). -/
def State.freePathId (s : State) : Option Nat :=
  let used := s.cable.paths.map (·.id)
  ((List.range (used.length + 1)).map (· + 1)).find? fun i => i ≤ 65535 && !used.contains i

/-- The port of a path's first hop (R151): the port that chain names at a HOSTSIDE hub, the DOWN port elsewhere. -/
def State.pathPort (s : State) (chain : Nat) : Option Nat :=
  match s.topo.role with
  | .hostside => if chain ≤ 1 && s.linkUp chain then some chain else none
  | _ => ([0, 1].find? fun p => nth s.topo.portRole p .none == .down && s.linkUp p)

/-! ### Credit at setup (R187) -/

/-- Granted and not yet forwarded credit of a class at a cable input, with what setups in progress have promised. -/
def State.poolCommitted (s : State) (p tc : Nat) : Nat :=
  let l := s.link p
  total ((l.flows.filter fun f => f.tc == tc && 16 ≤ f.label).map fun f => (f.granted + 65536 - f.rxOut) % 65536)
    + total ((s.cable.setups.filter fun x => x.port == p && x.entry.tc == tc).map (·.entry.initCredit))

/-- Paths of a class on a port, setups in progress included. -/
def State.classPaths (s : State) (p tc : Nat) : Nat :=
  ((s.link p).table.filter fun e => e.tc == tc).length
    + (s.cable.setups.filter fun x => x.port == p && x.entry.tc == tc).length

/-- INIT_CREDIT for a new path at a cable input: none when its share would fall below 8 (R187); 0 for other classes. -/
def State.initCredit (s : State) (p tc : Nat) : Option Nat :=
  if credited tc then
    let pool := s.swMin p tc
    let share := pool / (s.classPaths p tc + 1)
    if share < 8 then none else some (min share (pool - s.poolCommitted p tc))
  else some 0

/-! ### Table entries -/

/-- An entry written into a port's path table (R150), its flow started with the credit received from the other end; EV060 when
its contract is not held or does not match (R226). -/
def State.install (s : State) (p : Nat) (e : PathEntry) (limit : Nat) : State :=
  let bound := s.plan.contracts.any fun c => c.id == e.contract && contractMatches c p e.egress e.tc
  let s := s.setLink p fun l => { l with
    table := (l.table.filter fun x => x.label != e.label) ++ [{ e with bound := bound }]
    flows := (l.flows.filter fun f => f.label != e.label) ++ [.fresh e.label e.tc e.initCredit limit] }
  s.raiseIf (e.contract != 0 && !bound) 60 (e.label + 4096 * p + 65536 * e.contract)

/-- The replay buffers of a flow freed (R188). -/
def State.freeReplay (s : State) (p n : Nat) : State :=
  { s with sw := { s.sw with replay := s.sw.replay.modify p (· - n) } }

/-- An entry removed with its flow; its replayed cells leave the replay store. -/
def State.uninstall (s : State) (p label : Nat) : State :=
  let held := total (((s.link p).flows.filter fun f => f.label == label && credited f.tc).map (·.unacked.length))
  (s.setLink p fun l => { l with
    table := l.table.filter fun x => x.label != label
    flows := l.flows.filter fun f => f.label != label }).freeReplay p held

def LinkSt.entry (l : LinkSt) (label : Nat) : Option PathEntry := l.table.find? fun e => e.label == label

/-- An entry taken away and the path it carried torn down beyond this hub (R149, R151, R175): answers the entries that ended or
began here, with their ports, so that their adapters are told. -/
def State.tearBeyond (s : State) (p label : Nat) : List (Nat × PathEntry) × State :=
  match (s.link p).entry label with
  | none => ([], s)
  | some e =>
    let s := s.uninstall p label
    if e.egress < 2 then ([], (s.uninstall e.egress e.outLabel).ctl e.egress ctlTeardown [e.outLabel])
    else ([(p, e)], s)

/-- The same with PATH_TEARDOWN on the entry's own port as well: this end ends the path. -/
def State.tearBoth (s : State) (p label : Nat) : List (Nat × PathEntry) × State :=
  let (gone, s) := s.tearBeyond p label
  (gone, if gone.isEmpty then s else s.ctl p ctlTeardown [label])

/-! ### Opening a path (R151, R585) -/

structure OpenAns where
  rc    : Rc
  id    : Nat
  label : Nat
  st    : State

/-- What `path.open` checks at once (R151). -/
def State.pathOk (s : State) (src hops chain dst tc : Nat) : Bool :=
  2 ≤ src && src ≤ 11 && s.portEnd src != 0 && tc ≤ 6 && hops ≤ 6
    && (if hops == 0 then 2 ≤ dst && dst ≤ 11 && dst != src && s.portEnd dst != 0 else (s.pathPort chain).isSome)

/-- A path opened or its setup started: the source port, hops, chain, destination, class, CUT, contract, who asked and the handle
that waits. OK for a local path, ACCEPTED for a setup in progress. -/
def State.openPath (s : State) (owner : PathOwner) (job : Option (Via × Nat))
    (src hops chain dst tc : Nat) (cut : Bool) (contract : Nat) : OpenAns :=
  if !s.pathOk src hops chain dst tc then ⟨.badState, 0, 0, s⟩
  else
    match s.freePathId with
    | none => ⟨.busy, 0, 0, s⟩
    | some id =>
      if hops == 0 then
        let bound := s.plan.contracts.any fun c => c.id == contract && contractMatches c src dst tc
        let r : PathRec :=
          { id := id, src := src, port := none, label := 0, hops := 0, chain := chain, dst := dst, tc := tc,
            cut := cut, contract := contract, bound := bound, phase := 1, owner := owner, job := none }
        let s : State := { s with cable := { s.cable with paths := s.cable.paths ++ [r] } }
        ⟨.ok, id, 0, s.raiseIf (contract != 0 && !bound) 60 (65536 * contract)⟩
      else
        let p := (s.pathPort chain).getD 0
        match s.freeLabel p, s.initCredit p tc with
        | some label, some credit =>
          let e : PathEntry :=
          { label := label, suspended := false, tc := tc, egress := src, outLabel := 0, cut := cut,
            contract := contract, bound := false, initCredit := credit }
          let r : PathRec :=
          { id := id, src := src, port := some p, label := label, hops := hops, chain := chain, dst := dst,
            tc := tc, cut := cut, contract := contract, bound := false, phase := 0, owner := owner, job := job }
          let s : State := { s with cable := { s.cable with
            paths := s.cable.paths ++ [r]
            setups := s.cable.setups ++ [⟨p, label, id, e, none, 0, s.time.tick⟩] } }
          ⟨.accepted, id, label, s.ctl p ctlPathSetup [id, label, tc, hops, dst, b2n cut, contract, credit]⟩
        | _, _ => ⟨.busy, 0, 0, s⟩

/-- A path of this hub by identifier. -/
def State.pathById (s : State) (id : Nat) : Option PathRec := s.cable.paths.find? fun r => r.id == id

def State.dropPathRec (s : State) (id : Nat) : State :=
  { s with cable := { s.cable with paths := s.cable.paths.filter fun r => r.id != id } }

/-- A path that starts here torn down (R585): a local one is gone at once; another sends PATH_TEARDOWN on its first cable and
holds its identifier until the next tick boundary. -/
def State.closePath (s : State) (id : Nat) : State :=
  match s.pathById id with
  | none => s
  | some r =>
    match r.port with
    | none => s.dropPathRec id
    | some p =>
      if r.phase == 2 then s
      else
        let s := (s.uninstall p r.label).ctl p ctlTeardown [r.label]
        { s with cable := { s.cable with
          paths := s.cable.paths.map fun x => if x.id == id then { x with phase := 2 } else x
          setups := s.cable.setups.filter fun x => !(x.port == p && x.label == r.label) } }

/-- A setup given up at the hub where it started: its record goes with it (R151). -/
def State.dropSetup (s : State) (x : Setup) : State :=
  { s with cable := { s.cable with setups := s.cable.setups.erase x } }

/-- The path that an entry of a port belongs to, when it starts at this hub. -/
def State.pathAt (s : State) (p label : Nat) : Option PathRec :=
  s.cable.paths.find? fun r => r.port == some p && r.label == label

/-! ### Flows: sequence, acknowledgement, credit (R152 to R155) -/

/-- A path may send `n` new cells (R154, R153): credit from 1 to 32,767, fewer unacknowledged cells than 2,048 and REPLAY_CELLS, and
nothing to be sent again first. -/
def State.mayCable (s : State) (p label n : Nat) : Bool :=
  match (s.link p).flow label with
  | none => !((s.link p).entry label).any (·.suspended)
  | some f =>
    if credited f.tc then
      let c := (f.limit + 65536 - f.consumed) % 65536
      n ≤ c && c ≤ 32767 && f.unacked.length + n ≤ min 2048 (s.cv Fld.REPLAY_CELLS)
        && nth s.sw.replay p 0 + n ≤ s.cv Fld.REPLAY_CELLS && f.again.isEmpty
    else true

/-- A cell of a path put on a lane of a cable: the path's next SEQ, credit consumed, kept for replay when the class is lossless (R152 to
R154); `source` names the coach that it cuts through from. -/
def State.cableSend (s : State) (p k : Nat) (source : Option (Nat × Nat)) (c : Cell) : State :=
  match (s.link p).flow c.path with
  | none => s.putCell p k source c
  | some f =>
    let c := { c with seq := f.nextSeq }
    let s := s.setLink p fun l => l.setFlow c.path fun f => { f with
      nextSeq := (f.nextSeq + 1) % seqMod
      consumed := if credited f.tc then (f.consumed + 1) % 65536 else f.consumed
      unacked := if lossless f.tc then f.unacked ++ [⟨c, 1, s.time.tick⟩] else f.unacked }
    s.putCell p k source c

/-- A cut-through coach closes the coach of stored cells that its lane is sending with a cell of LEN 0, or with its last cell where no cell of that
path may follow (R200). -/
def State.closeLocal (s : State) (p k : Nat) : State :=
  match (s.lane p k).tx.coach with
  | none => s
  | some o =>
    if o.source.isSome then s
    else
      let c : Cell := { o.held with kind := 0, len := 0, first := false, last := false, payload := [] }
      if o.sent.length + 2 ≤ s.coachLimit p && s.mayCable p c.path 1 then (s.cableSend p k none c).closeCoach p k false
      else s.closeCoach p k false

/-- Cells of a path stored at this input and not yet releasable: from its first pending cell on. -/
def State.pendingFrom (s : State) (p label : Nat) : Nat :=
  total ((s.sw.voqs.filter fun v => v.inp == p).map fun v =>
    let own := v.cells.filter fun q => q.label == label
    (own.dropWhile fun q => !q.pending).length)

/-- Highest SEQ received in order and verified (Table 6.4); the cells of label 2 wait in their coach for its tag. -/
def State.ackOf (s : State) (p : Nat) (f : FlowSt) : Nat :=
  let waits := if f.label == 2 then ((s.link p).coach.filter fun x => x.cell.path == 2).length else s.pendingFrom p f.label
  (f.rxNext + 2 * seqMod - 1 - waits % seqMod) % seqMod

/-- The credit of a path advanced to its share as the pool allows (R187). -/
def State.grant (s : State) (p : Nat) (f : FlowSt) : Nat :=
  if credited f.tc then
    let pool := s.swMin p f.tc
    let share := pool / max 1 (s.classPaths p f.tc)
    let out := (f.granted + 65536 - f.rxOut) % 65536
    (f.granted + min (share - out) (pool - s.poolCommitted p f.tc)) % 65536
  else f.granted

/-- The payload of a CREDIT cell (Table 6.4). -/
def creditBytes (es : List CreditEntry) : List Byte :=
  leBytes 1 es.length ++ zeros 7 ++ es.flatMap fun e =>
    beBytes 2 (e.label % 4096 * 16 + b2n e.nak) ++ beBytes 2 (e.ack % 4096) ++ beBytes 2 (e.limit % 65536) ++ zeros 2

/-- A CREDIT cell sent. -/
def State.sendCredit (s : State) (p : Nat) (es : List CreditEntry) : State := s.sendOwn p (ownCell 3 (creditBytes es))

/-- Entries sent, 31 to a cell. -/
def State.sendEntries (p : Nat) : Nat → List CreditEntry → State → State
  | 0, _, s => s
  | fuel + 1, es, s => if es.isEmpty then s else State.sendEntries p fuel (es.drop 31) (s.sendCredit p (es.take 31))

/-- What a port's CREDIT cells say (R155): an entry for every lossless path whose acknowledgement or credit has changed; `only` names one
label, which is named in any case. -/
def State.sendCredits (s : State) (p : Nat) (only : Option Nat) : State :=
  let labels := ((s.link p).flows.filter fun f => lossless f.tc && (only.isNone || only == some f.label)).map (·.label)
  let (s, es) := labels.foldl (fun (acc : State × List CreditEntry) label =>
    let (s, es) := acc
    match (s.link p).flow label with
    | none => (s, es)
    | some f =>
      let g := s.grant p f
      if only.isNone && f.sinceCredit == 0 && g == f.granted then (s, es)
      else
        (s.setLink p fun l => l.setFlow label fun f => { f with granted := g, sinceCredit := 0 },
         es ++ [⟨label, false, s.ackOf p f, g⟩])) (s, [])
  State.sendEntries p (es.length + 1) es s

/-- A NAK for the first missing SEQ of a path (R152). -/
def State.sendNak (s : State) (p label : Nat) : State :=
  match (s.link p).flow label with
  | none => s
  | some f => s.sendCredit p [⟨label, true, (s.ackOf p f + 1) % seqMod, f.granted⟩]

/-- A cell that is kept has been sent once more. -/
def State.sentAgain (s : State) (p label seq : Nat) : State :=
  s.setLink p fun l =>
    { (l.setFlow label fun f => { f with
        again := f.again.filter (· != seq)
        unacked := f.unacked.map fun u => if u.cell.seq == seq then { u with sends := u.sends + 1, tick := s.time.tick } else u }) with
      replayed := satAdd 64 l.replayed 1 }

/-- The cells of a path from a SEQ on to be sent again, in order, before any new cell of it (R153): those of link control at once, others
as the lanes take them. Answers whether one had been sent REPLAY_LIMIT times. -/
def State.replayFrom (s : State) (p label seq : Nat) : Bool × State :=
  match (s.link p).flow label with
  | none => (false, s)
  | some f =>
    let again := f.unacked.dropWhile fun u => u.cell.seq != seq
    if again.any fun u => s.cv Fld.REPLAY_LIMIT ≤ u.sends then (true, s)
    else if label == 1 then
      (false, again.foldl (fun s u => (s.sentAgain p 1 u.cell.seq).sendOwn p u.cell) s)
    else (false, s.setLink p fun l => l.setFlow label fun f => { f with again := again.map (·.cell.seq) })

/-- The cells of a path that are to be sent again, the first of them on a lane that takes it; answers whether one went (R153). -/
def State.resend (s : State) (p : Nat) : Bool × State :=
  let next := (s.link p).flows.findSome? fun f =>
    f.again.head?.bind fun q => (f.unacked.find? fun u => u.cell.seq == q).map fun u => (f.label, u.cell)
  match next with
  | none => (false, s)
  | some (label, c) =>
    match s.laneFor p c with
    | none => (false, s)
    | some k => (true, (s.sentAgain p label c.seq).putCell p k none c)

/-- Cells of a path up to a SEQ acknowledged: their buffers are free (R153, R188). -/
def State.acked (s : State) (p label seq : Nat) : State :=
  match (s.link p).flow label with
  | none => s
  | some f =>
    if f.unacked.any fun u => u.cell.seq == seq then
      let n := (f.unacked.takeWhile fun u => u.cell.seq != seq).length + 1
      let gone := (f.unacked.take n).map (·.cell.seq)
      let s := s.setLink p fun l => l.setFlow label fun f => { f with
        unacked := (f.unacked.drop n).map fun u => { u with tick := s.time.tick }
        ackSeq := seq
        ackHead := (((f.unacked.take n).filter fun u => u.cell.first).getLast?.map fun u => u.cell.payload).getD f.ackHead
        again := f.again.filter fun q => !gone.contains q }
      if credited f.tc then s.freeReplay p n else s
    else s.setLink p fun l => l.setFlow label fun f => { f with ackSeq := seq }

/-! ### PEER messages (R78) -/

/-- The next PEER message of a port sent as one coach of at most 5 cells on label 2, when a lane takes it whole and its cells are within
the 32 of R155; answers whether it went. -/
def State.sendPeer (s : State) (p : Nat) : Bool × State :=
  match (s.link p).peerOut, (s.link p).flow 2 with
  | m :: rest, some f =>
    let cs := messageCells 2 0 f.nextSeq m
    let all : Cell := { ownCell 0 [] with len := total (cs.map cellRoom) - 8 }
    match if f.unacked.length + cs.length ≤ 32 && f.again.isEmpty then s.laneFor p all else none with
    | none => (false, s)
    | some k =>
      let s := s.closeCoach p k false
      let s := s.setLink p fun l => { l with peerOut := rest }
      (true, (cs.foldl (fun s c => s.cableSend p k none c) s).closeCoach p k false)
  | _, _ => (false, s)

end Sys2Proof.Machine
end

