-- ==== Sys2Proof/Machine/LocalPlan.lean ====
section
/-! DEFINITION. The local plan (spec/08): gate lists, quanta, allowances, service slices, its energy steps, the swap at slot 0,
shapers, policers, samples and the events of a tick. -/

namespace Sys2Proof.Machine

/-! ### Slots -/

/-- Tokens that a shaper gains per slot: floor(R × 256 / 250) (R222). -/
def Shaper.perSlot (h : Shaper) : Nat := cellsOf h.mbps * 256 / 250

/-- Tokens after n slots, up to the burst (R222). -/
def Shaper.refill (h : Shaper) (n : Nat) : Shaper :=
  { h with tokens := min (h.burst * 256) (h.tokens + n * h.perSlot) }

/-- A policer's tokens after n slots, in 1/250 cell, up to BURST_CELLS (R223). -/
def Contract.refill (c : Contract) (n : Nat) : Contract :=
  { c with
    tokA := min (c.burst * 250) (c.tokA + n * cellsOf c.along)
    tokB := min (c.burst * 250) (c.tokB + n * cellsOf c.back) }

/-- Cells queued toward an output in a class, over all inputs. -/
def State.depth (s : State) (j c : Nat) : Nat :=
  total ((s.sw.voqs.filter fun v => v.outp == j && v.tc == c).map (·.cells.length))

/-- The largest depth of the tick's records, seen again at a slot boundary (R232). -/
def State.watchDepth (s : State) : State :=
  { s with plan := { s.plan with samples := s.plan.samples.map fun x =>
    if x.tick == s.time.tick then { x with most := max x.most (s.depth x.outp x.tc) } else x } }

/-- The slot of the tick moves on to `k`: shapers and policers gain what the slots give. -/
def State.toSlot (s : State) (k : Nat) : State :=
  if s.time.slot < k && k ≤ 249 then
    let n := k - s.time.slot
    let s := s.slotsPass s.time.slot k
    ({ s with
      time := { s.time with slot := k }
      plan := { s.plan with
        shapers := s.plan.shapers.map fun (h : Shaper) => h.refill n
        contracts := s.plan.contracts.map fun (c : Contract) => c.refill n } }).watchDepth
  else s

/-! ### Gates (R218, R219) -/

/-- Classes of the DRR after the strict positions (R218). -/
def drrClasses : List Nat := [4, 3, 2, 1, 0]

/-- Window capacity of a cable output in a slot: 5 cells per transmitting lane-slot at F and 2 at H (R208). -/
def planSlotCells (pl : Plan) (prevs : List PrevSeg) (dir slot : Nat) : Nat :=
  total ((pl.lanes.zipIdx).map fun (segs, k) =>
    if dataIn (nth prevs k (2, 0)) segs dir slot slot then
      (match (segs.filter fun g => g.start ≤ slot).getLast? with
        | some g => if g.rate == 1 then 2 else 5
        | none => 0)
    else 0)

/-- Cumulative capacity of an output up to the end of each slot, entry 0 being none: a cable output's by the plan, a local
output's spread evenly. -/
def cumOf (per : Nat → Nat) : List Nat :=
  ((List.range 250).foldl (fun (acc : List Nat × Nat) k => (acc.1 ++ [acc.2 + per k], acc.2 + per k)) ([0], 0)).1

/-- An entry added, replacing one of no length and skipped when it only continues the last. -/
def addGate (es : List GateEntry) (g : GateEntry) : List GateEntry :=
  let es := match es.getLast? with
    | some l => if l.start == g.start then es.dropLast else es
    | none => es
  match es.getLast? with
  | some l => if l.drrPos == g.drrPos && l.hold == g.hold && l.order == g.order then es else es ++ [g]
  | none => es ++ [g]

/-- The first slot boundary at which the capacity since `s` and what the class's windows had before reaches the target, or the
period's end. -/
def closeAt (cum : List Nat) (had target s stop : Nat) : Nat :=
  ((List.range (stop - s + 1)).map (· + s)).find? (fun k => stop ≤ k || target ≤ had + (nth cum k 0 - nth cum s 0)) |>.getD stop

/-- The first slot from which a window's remaining capacity is below g. -/
def holdAt (cum : List Nat) (g s stop : Nat) : Nat :=
  ((List.range (stop - s + 1)).map (· + s)).find? (fun k => stop ≤ k || nth cum stop 0 - nth cum k 0 < g) |>.getD stop

/-- The gate list of an output: windows of TC6 and TC5 in each period (R218); W and g of TC6 and TC5. -/
def gateList (periods : Nat) (cum : List Nat) (w6 g6 w5 g5 : Nat) : List GateEntry :=
  let n := max 1 periods
  let len := 250 / n
  let win := fun (c w g k : Nat) (acc : List GateEntry × Nat × Nat) (stop : Nat) =>
    let (es, had, s) := acc
    let e := closeAt cum had (ceilDiv (w * k) n + g) s stop
    let h := holdAt cum g s e
    let es := if s < h then addGate es ⟨s, 2, false, [7, c] ++ drrClasses⟩ else es
    let es := if s < e && h < e then addGate es ⟨h, 2, true, [7, c] ++ drrClasses⟩ else es
    (es, had + (nth cum e 0 - nth cum s 0), e)
  let (es, _, _) := (List.range n).foldl (fun (acc : List GateEntry × Nat × Nat) i =>
    let (es, had6, had5) := acc
    let start := i * len
    let stop := if i + 1 == n then 250 else (i + 1) * len
    let (es, had6, s) := win 6 w6 g6 (i + 1) (es, had6, start) stop
    let (es, had5, s) := win 5 w5 g5 (i + 1) (es, had5, s) stop
    let es := if s < stop then addGate es ⟨s, 1, false, [7] ++ drrClasses⟩ else es
    (es, had6, had5)) ([], 0, 0)
  es

/-- A gate list of at most 32 entries (Table 8.1): FRAME_HOLD entries are folded into their windows from the last back, and what
is still beyond 32 is dropped (DEDUCED, log entry 20). -/
def fitGates (es : List GateEntry) : List GateEntry :=
  let rec go (fuel : Nat) (es : List GateEntry) : List GateEntry :=
    match fuel with
    | 0 => es
    | fuel + 1 =>
      if es.length ≤ 32 then es
      else
        match ((es.zipIdx).filter fun (e, i) => e.hold && 0 < i && (nth es (i - 1) .reset).order == e.order).getLast? with
        | some (_, i) => go fuel (es.eraseIdx i)
        | none => es
  (go 32 es).take 32

/-! ### The local plan (R214 to R221) -/

/-- An output's demand for a tick (R214): TC7 at the cables and at MGT, contracts, backlog. -/
def State.outDemands (s : State) (j target : Nat) : List Demand1 :=
  let tc7 := if j < 2 || j == 11 then [(⟨1, 0, 7, 0, s.cv Fld.TC7_CELLS, 0, j⟩ : Demand1)] else []
  tc7 ++ (s.activeContracts.flatMap fun c => contractDemand c (contractOut c j) 0 j)
    ++ ((upTo 7).map fun c => ⟨backlogStep c, 0, c, 0, s.backlog target j c, 0, j⟩)

/-- One output filled. -/
structure OutFill where
  outp : Nat
  ds   : List Demand1
  adm  : List Nat
  cap  : Nat
  step : Nat
  deriving DecidableEq, Repr

/-- The lane plan that governs a port in a tick: the one it holds, or the fixed plan that it would run; none without a link. -/
def State.governing (s : State) (p target : Nat) : Option Plan :=
  if s.linkUp p && !(s.link p).gen1 then
    match (s.link p).planFor target with
    | some pl => some pl
    | none => some (s.ownFixedPlan p target)
  else none

/-- Capacity of an output in cells for a tick: a cable's in its sending direction, a local port's of Table 8.7a. A generation-1
link carries 48.3 Gb/s in each direction (R177). -/
def State.outCapacity (s : State) (j target : Nat) : Nat :=
  if j < 2 then
    if s.linkUp j && (s.link j).gen1 then cellsOf 48300
    else
      match s.governing j target with
      | none => 0
      | some pl =>
        let prevs := lastSegs ((s.link j).planFor (target - 1))
        total ((pl.lanes.zipIdx).map fun (g, k) => laneCells (nth prevs k (2, 0)) g (s.txDir j))
  else s.localCapacity j

/-- The outputs that are planned: cables with a link, local ports whose end is not OFF. -/
def State.plannedOuts (s : State) (target : Nat) : List OutFill :=
  ((upTo 12).filter fun j => 0 < s.outCapacity j target && (j < 2 || s.portEnd j != 0)).map fun j =>
    let ds := s.outDemands j target
    let cap := s.outCapacity j target
    let (adm, step) := fill ds fun a => total a ≤ cap
    ⟨j, ds, adm, cap, step⟩

def fillsNj (fs : List OutFill) : Nat :=
  cellsNj (fs.flatMap (·.ds)) (fs.flatMap (·.adm))

def cutFills (fs : List OutFill) (step k : Nat) : List OutFill :=
  fs.map fun f => { f with adm := cutTo f.ds f.adm (fun d => d.step == step) k }

/-- E1, E3 and E4 on the local plan (R217): the fills, the slices, the step and the excess. -/
def State.localEnergy (s : State) (fixed : Nat) (fs : List OutFill) (sl : List (Nat × Nat)) :
    List OutFill × List (Nat × Nat) × Nat × Nat :=
  let e := fun fs sl => fixed + fillsNj fs + slicesNj sl
  if e fs sl ≤ s.eAvail then (fs, sl, 0, 0)
  else
    let f1 := cutFills fs 7 (largestK fun k => e (cutFills fs 7 k) sl ≤ s.eAvail)
    let sl1 := if e f1 sl ≤ s.eAvail then sl else floorSlices (s.cv Fld.SVC_FLOOR_SLOTS) sl
    if e f1 sl1 ≤ s.eAvail then (f1, sl1, 1, 0)
    else
      let f3 := cutFills f1 6 (largestK fun k => e (cutFills f1 6 k) sl1 ≤ s.eAvail)
      if e f3 sl1 ≤ s.eAvail then (f3, sl1, 3, 0) else (f3, sl1, 4, e f3 sl1 - s.eAvail)

/-- An output's gate list, quanta and allowances from what was admitted (R218, R220, R221). -/
def State.outPlan (s : State) (target : Nat) (f : OutFill) : OutPlan :=
  let got := fun c => admOf f.ds f.adm fun d => d.tc == c
  let want := fun c => total ((f.ds.filter fun d => d.tc == c).map (·.cells))
  let frame := fun c =>
    let l := (s.activeContracts.filter fun x => x.cls == c && (x.outPort == f.outp || x.inPort == f.outp)).map (·.frame)
    if l.isEmpty then 16 else l.foldl max 0
  let cum :=
    if f.outp < 2 && !(s.link f.outp).gen1 then
      match s.governing f.outp target with
      | some pl => cumOf (planSlotCells pl (lastSegs ((s.link f.outp).planFor (target - 1))) (s.txDir f.outp))
      | none => cumOf fun _ => 0
    else (List.range 251).map fun k => f.cap * k / 250
  { gates := fitGates (gateList (s.cv Fld.GATE_PERIODS) cum (got 6) (frame 6) (got 5) (frame 5))
    q := (upTo 8).map fun c => max 1 (ceilDiv (got c) (s.cv Fld.DRR_ROUNDS))
    allow := (upTo 8).map fun c => if got c < want c then some (got c) else none
    step := f.step }

/-- The local plan for a tick (R215 to R221). -/
def State.buildLocal (s : State) (target : Nat) : LocalPlan :=
  let fs := s.plannedOuts target
  let fixed := s.domainsNj + total ([0, 1].map fun p => s.portNj p (s.governing p target))
  let (fs', sl, est, excess) := s.localEnergy fixed fs s.wantSlices
  let outs := (upTo 12).map fun j =>
    match fs'.find? fun f => f.outp == j with
    | some f => s.outPlan target f
    | none => .reset
  let pairs := fs'.flatMap fun f => f.ds.zip f.adm
  let cut := ((pairs.filter fun (d, a) => d.id != 0 && a < d.cells).map fun (d, _) => d.id).eraseDups
  let grants := s.activeContracts.map fun c =>
    (c.id, total ((pairs.filter fun (d, _) => d.id == c.id && d.outp == c.outPort).map (·.2)),
      total ((pairs.filter fun (d, _) => d.id == c.id && d.outp == c.inPort).map (·.2)))
  { target := target, outs := outs, slices := sl, capStep := fs'.foldl (fun m f => min m f.step) 8, enStep := est, cut := cut,
    cutEn := [], energy := fixed + fillsNj fs' + slicesNj sl, excess := excess, grants := grants,
    loads := (upTo 12).map fun j =>
      match fs'.find? fun f => f.outp == j with
      | some f => total f.adm * 100 / f.cap
      | none => 0 }

/-! ### Events of the tick's plans (R217, R227, R238) -/

/-- The shed state and the events of the plans that take effect in tick n (R227, R238), and ENERGY_DEFICIT. -/
def State.planEvents (s : State) : State :=
  let n := s.time.tick.toNat
  let infos := (s.plan.infos.flatMap id).filter fun i => i.target == n
  let cap := infos.foldl (fun m i => min m i.capStep) s.plan.inForce.capStep
  let est := infos.foldl (fun m i => max m i.enStep) s.plan.inForce.enStep
  let excess := infos.foldl (fun m i => max m i.excess) s.plan.inForce.excess
  let cut := (s.plan.inForce.cut ++ infos.flatMap (·.cut)).eraseDups
  let cutEn := (infos.flatMap (·.cutEn)).eraseDups
  let least := fun (l : List Nat) => l.foldl min 4095
  let s := s.raiseIf ((cap, est) != s.plan.shed) 53 (cap + 16 * est)
  let s := s.raiseIf (4 ≤ est || 0 < excess) 54 excess
  let s := s.raiseIf (!cut.isEmpty) 55 (least cut + 65536 * cut.length)
  let s := s.raiseIf (!cutEn.isEmpty) 56 (least cutEn + 65536 * cutEn.length)
  { s with plan := { s.plan with
    shed := (cap, est)
    deficit := satAdd 32 s.plan.deficit excess
    infos := s.plan.infos.map fun l => l.filter fun i => n < i.target
    contracts := s.plan.contracts.map fun c =>
      if 0 < s.boundPaths c then
        let (a, b) := match s.plan.inForce.grants.find? fun g => g.1 == c.id with
          | some g => g.2
          | none => (cellsOf c.along, cellsOf c.back)
        { c with state := if cutEn.contains c.id then 3 else if cut.contains c.id then 2 else 1, gAlong := a, gBack := b }
      else { c with state := 0, gAlong := 0, gBack := 0 } } }

/-- EV057, once per 32 ticks while h is below THERM_SPAN_C (R231). -/
def State.thermEvent (s : State) : State :=
  let (h, lim) := s.headroom
  let due := match s.plan.thermTick with
    | none => true
    | some t => 32 ≤ tickDiff s.time.tick t
  if h < (s.cv Fld.THERM_SPAN_C : Int) * 100 && due then
    ({ s with plan := { s.plan with thermTick := some s.time.tick } }).raise 57
      (leNat (leInt 2 (max (-32768) (min 32767 h))) + 65536 * lim)
  else s

/-! ### Latches and records of slot 0 -/

/-- The planner latches its inputs at slot 0 (R205): the sensors, the FETs, the power limits, the contract and shaper tables. A shaper whose
rate and burst stand keeps its tokens. -/
def State.latch (s : State) (readings : List Int) : State :=
  let s : State := { s with plan := { s.plan with
    sensors := readings
    readings := (s.plan.readings.zip readings).map fun (old, r) => (r :: old).take 40
    latchPd := if 64 ≤ s.plan.silent then
        (match s.plan.pPd, s.plan.pFeed with
          | some a, some b => some (min a b)
          | none, some b => some (min 14500 b)
          | a, none => a)
      else s.plan.pPd
    latchFeed := s.plan.pFeed
    latchCeil := s.cv Fld.BUDGET_CEILING_MW
    latched := s.plan.contracts
    shapers := s.plan.shaperSet.map fun (h : Shaper) =>
      (s.plan.shapers.find? fun x => { x with tokens := h.tokens } == h).getD h
    fets := s.plan.fetNow
    fetLims := s.plan.fetLimNow } }
  let lanes := s.cable.cpx.flatMap fun (c : CpxSt) => c.lanes.map fun (l : LaneSt) => BitVec.ofNat 8 (laneCode l.state)
  s.spore 4 0 (readings.flatMap (fun r => leInt 2 r) ++ leBytes 4 s.pPd ++ leBytes 4 s.pFeed ++ leBytes 4 s.pCeiling ++ lanes)

/-- A record of every output and class begins (R232): those with cells queued are listed, the others when a cell comes. -/
def State.newSamples (s : State) : State :=
  let t := s.time.tick
  let keep := s.plan.samples.filter fun x => tickDiff t x.tick < 64
  let fresh := (upTo 12).flatMap fun j => (upTo 8).filterMap fun c =>
    let d := s.depth j c
    if d == 0 then none else some (⟨j, c, t, d, d, none, none⟩ : Sample)
  { s with plan := { s.plan with samples := keep ++ fresh } }

/-- The first cell of a class admitted toward an output in a tick is marked (R232). -/
def State.markSample (s : State) (j c buf : Nat) : State :=
  let t := s.time.tick
  let l := s.plan.samples
  let l := if l.any fun x => x.outp == j && x.tc == c && x.tick == t then l else l ++ [⟨j, c, t, 0, 0, none, none⟩]
  { s with plan := { s.plan with samples := l.map fun x =>
    if x.outp == j && x.tc == c && x.tick == t && x.mark.isNone && x.delay.isNone then
      { x with mark := some (buf, s.time.slot) } else x } }

/-- EV061 for a delay sample of TC3 to TC6 above DELAY_ALERT_US, at most once per tick (R232). -/
def State.delayAlert (s : State) (j c ns : Nat) : State :=
  let t := s.time.tick
  let lim := s.cv Fld.DELAY_ALERT_US
  if 0 < lim && 3 ≤ c && c ≤ 6 && lim * 1000 < ns && s.plan.alertTick != some t then
    ({ s with plan := { s.plan with alertTick := some t } }).raise 61 (j + 16 * c + 65536 * min 65535 (ns / 1000))
  else s

/-- The marked cell leaves (R232): its delay in ns, counted in slots, and EV061. -/
def State.sampleLeft (s : State) (j c buf : Nat) : State :=
  let t := s.time.tick
  match s.plan.samples.find? fun x => x.outp == j && x.tc == c && x.tick == t && (x.mark.map (·.1)) == some buf with
  | none => s
  | some x =>
    let ns := 125 * (s.time.slot - (x.mark.map (·.2)).getD 0)
    let s : State := { s with plan := { s.plan with samples := s.plan.samples.map fun y =>
      if y == x then { y with mark := none, delay := some ns } else y } }
    s.delayAlert j c ns

/-- The marked cells that have not left by the end of the tick: 0xFFFF_FFFF, which exceeds DELAY_ALERT_US (R232). -/
def State.closeSamples (s : State) : State :=
  let late := s.plan.samples.find? fun x => x.mark.isSome && 3 ≤ x.tc && x.tc ≤ 6
  let s : State := { s with plan := { s.plan with samples := s.plan.samples.map fun x =>
    if x.mark.isSome then { x with mark := none, delay := some 0xFFFFFFFF } else x } }
  match late with
  | some x => s.delayAlert x.outp x.tc 0xFFFFFFFF
  | none => s

end Sys2Proof.Machine
end

