-- ==== Sys2Proof/Machine/CellOps.lean ====
section
/-! DEFINITION. Cells in the hub (spec/06, spec/07): reception in SEQ order, coaches, cut-through, local offers, and the match of
one cell time. -/

namespace Sys2Proof.Machine

/-! ### Reception (R147, R148, R152) -/

/-- The kind, label and class of a cell agree with Table 6.2. -/
def kindOk (c : Cell) : Bool :=
  if c.kind ≤ 1 then (c.path == 2 && c.tc == 7) || 16 ≤ c.path
  else if c.kind ≤ 6 then c.path == 1 && c.tc == 7
  else c.kind == 7 && c.path == 0 && c.tc == 0 && c.len == 0

/-- The other cable port's lane of the same number meets R163: in a run in the sending direction of which 350 ns, three slots,
remain. -/
def State.laneSends (s : State) (p lane : Nat) : Bool := (s.lane p lane).tx.run && 3 ≤ s.runLeft p lane s.time.slot

/-- A cell of this path waits in the relay (R198). -/
def State.pathWaits (s : State) (p label : Nat) : Bool :=
  s.sw.voqs.any fun v => v.inp == p && v.cells.any fun q => q.label == label

/-- A cell cuts through (R163, R198). -/
def State.cutsThrough (s : State) (p lane : Nat) (e : PathEntry) : Bool :=
  e.cut && e.egress < 2 && e.egress != p && !(s.link p).gen1 && !(s.link e.egress).gen1 && (s.link e.egress).state == 2
    && s.laneSends e.egress lane && !(s.pathWaits p e.outLabel)

/-- A cell that arrives at the buffer manager, and the tick's mark when it is admitted (R190, R232). -/
def State.arriveMarked (s : State) (q : QCell) : State :=
  let s' := s.arrive q false
  if s'.sw.nextBuf == s.sw.nextBuf then s' else s'.markSample q.outp q.tc s.sw.nextBuf

/-- A cell more of a path has come in order; a lossless path's CREDIT entry is due at 64 cells (R155). -/
def State.countRx (s : State) (p label : Nat) : State :=
  let s := s.setLink p fun l => l.setFlow label fun f => { f with
    rxNext := (f.rxNext + 1) % seqMod, rxCount := (f.rxCount + 1) % 65536, sinceCredit := f.sinceCredit + 1 }
  match (s.link p).flow label with
  | some f => if lossless f.tc && 64 ≤ f.sinceCredit then s.sendCredits p (some label) else s
  | none => s

/-- One cell of a path handed over in order: to the express queue or to its queue, pending until its coach's tag verifies. -/
def State.handOver (s : State) (p lane : Nat) (pending : Bool) (c : Cell) : State :=
  match (s.link p).entry c.path with
  | none => s.countRx p c.path
  | some e =>
    let cut := pending && s.cutsThrough p lane e
    let q : QCell :=
      { buf := 0, len := c.len, label := if e.egress < 2 then e.outLabel else c.path, tc := e.tc, inp := p, outp := e.egress,
        pending := pending, shared := false, first := c.first, last := c.last, ecn := c.ecn, cut := cut, held := false,
        coach := lane, payload := c.payload }
    let s := s.countRx p c.path
    if cut then
      { s with sw := { s.sw with
        express := s.sw.express.modify p (· ++ [q])
        cutCells := satAdd 64 s.sw.cutCells 1
        cutNow := s.sw.cutNow.modify (swIdx q.outp q.tc) (· + 1) } }
    else s.arriveMarked q

/-- A coach on a lane has not been verified yet and holds this cell. -/
def State.inCoach (s : State) (p : Nat) (c : Cell) : Option Nat :=
  ((s.link p).coach.find? fun x => x.cell.path == c.path && x.cell.seq == c.seq).map (·.lane)

/-- The cells held out of order that now follow are handed over (R152). -/
def State.drainHeld (p label : Nat) : Nat → State → State
  | 0, s => s
  | fuel + 1, s =>
    match (s.link p).flow label with
    | none => s
    | some f =>
      match f.rxHeld.find? fun c => c.seq == f.rxNext with
      | none => s
      | some c =>
        let s := s.setLink p fun l => l.setFlow label fun f => { f with rxHeld := f.rxHeld.erase c }
        let lane := s.inCoach p c
        State.drainHeld p label fuel (s.handOver p (lane.getD 0) lane.isSome c)

/-- The slot now, counted from tick 0. -/
def State.slotNow (s : State) : Nat := s.time.tick.toNat * 250 + s.time.slot

/-- A cell of a path in SEQ order (R152): handed over when it is the next; a later one waits, an earlier one is a repetition, which is
acknowledged again. -/
def State.inOrder (s : State) (p lane : Nat) (pending : Bool) (c : Cell) : State :=
  match (s.link p).flow c.path with
  | none => s
  | some f =>
    let ahead := (c.seq + seqMod - f.rxNext) % seqMod
    if ahead == 0 then State.drainHeld p c.path (f.rxHeld.length + 1) (s.handOver p lane pending c)
    else if ahead < 2048 then
      let now := s.slotNow
      s.setLink p fun l => l.setFlow c.path fun f => { f with
        rxHeld := f.rxHeld ++ [c], heldAt := if f.rxHeld.isEmpty then now else f.heldAt }
    else s.setLink p fun l => l.setFlow c.path fun f => { f with sinceCredit := f.sinceCredit + 1 }

/-- The cells of the coach on a lane, as they arrived. -/
def State.coachRx (s : State) (p lane : Nat) : List RxCell := (s.link p).coach.filter fun x => x.lane == lane
def State.coachCells (s : State) (p lane : Nat) : List Cell := (s.coachRx p lane).map (·.cell)

/-- The key of a received cell or coach: that in force, or the one before the rotation while it is kept (R161). -/
def LinkSt.rxKey (l : LinkSt) (old : Bool) : List Byte := if old then (l.rx.old.map (·.1)).getD [] else l.rx.key

/-- A cell of KIND 0 or 1 kept, as it arrived, with the coach on its lane (R157, R184). -/
def State.joinCoach (s : State) (p : Nat) (x : RxCell) : State :=
  let s := s.setLink p fun l => { l with coach := l.coach ++ [x] }
  if x.cell.cidx == 0 then { s with sw := { s.sw with pendCoach := s.sw.pendCoach.modify p (· + 1) } } else s

/-- A cell of KIND 0 or 1 taken from a lane: kept with its coach, decrypted, and taken in the order of its path (R152, R157, R184). -/
def State.takeData (s : State) (p : Nat) (x : RxCell) : State :=
  let l := s.link p
  let off := total ((s.coachCells p x.lane).map fun c => c.payload.length)
  let plain : Cell :=
    if l.sealed then { x.cell with payload := gcmCrypt ((l.rxKey x.old).take 32) (nonceOf (l.rxKey x.old) x.ctr) off x.cell.payload }
    else x.cell
  let s := s.joinCoach p x
  s.inOrder p x.lane true plain

/-! ### Coaches (R147, R158, R164, R165, R185) -/

/-- The tag of the coach on a lane verifies (R157, R158); without encryption the tag is 16 zero bytes (R162). -/
def State.coachOk (s : State) (p lane : Nat) (tag : List Byte) : Bool :=
  let l := s.link p
  match (s.coachRx p lane).head? with
  | none => false
  | some x =>
    if l.sealed then tag == coachTag (l.rxKey x.old) x.ctr (s.coachCells p lane) else tag == zeros 16

/-- The cells of an express queue that wait for the tag of the coach on a lane. -/
def State.expressOf (s : State) (p lane : Nat) : List QCell :=
  (nth s.sw.express p []).filter fun q => q.pending && q.coach == lane

/-- The coach that carries on what is cut through from a lane. -/
def State.cutCoach (s : State) (p lane : Nat) : Option TxCoach :=
  (s.lane (1 - p) lane).tx.coach.bind fun o => if o.source == some (p, lane) then some o else none

/-- Cells of a label of this port, toward the other cable, that the coach cut through from a lane has sent or that wait to be sent. -/
def State.cutCount (s : State) (p lane label : Nat) : Nat × Nat :=
  match (s.link p).entry label with
  | none => (0, 0)
  | some e =>
    ((((s.cutCoach p lane).map fun o => (o.sent ++ [o.held]).filter fun c => e.egress == 1 - p && c.path == e.outLabel).getD []).length,
     ((s.expressOf p lane).filter fun q => q.label == e.outLabel).length)

/-- What a coach's loss undoes on one path: a lossless path goes back to its first SEQ and asks for it again; cells that waited
behind it come again too. Of another path the cells taken count as lost, but for those cut through, which the next hop counts; those that
waited for a gap are lost with it (R152, R165). -/
def State.undoCoach (s : State) (p lane label : Nat) (cut : Nat × Nat) : State :=
  match (s.link p).flow label with
  | none => s
  | some f =>
    let mine := (s.coachCells p lane).filter fun c => c.path == label
    let held := f.rxHeld.filter fun c => mine.any fun m => m.seq == c.seq
    let taken := mine.filter fun c => !(held.any fun h => h.seq == c.seq) && (f.rxNext + seqMod - 1 - c.seq) % seqMod < 2048
    let kept := f.rxHeld.filter fun c => !(mine.any fun m => m.seq == c.seq)
    if lossless f.tc then
      match taken.head? with
      | none => (s.setLink p fun l => l.setFlow label fun f => { f with rxHeld := kept }).sendNak p label
      | some c0 =>
        let back := (f.rxNext + seqMod - c0.seq) % seqMod
        -- cells of the path from the first pending one of this coach on leave the queue: they come again
        let gone := (s.sw.voqs.filter fun v => v.inp == p).flatMap fun v =>
          (v.cells.filter fun q => q.label == label || ((s.link p).entry label).any fun e => e.egress < 2 && q.label == e.outLabel
            && v.outp == e.egress).dropWhile fun q => !(q.pending && q.coach == lane)
        let s := gone.foldl (fun s q => s.uncharge q) s
        let s : State := { s with sw := { s.sw with voqs := s.sw.voqs.map fun v =>
          { v with cells := v.cells.filter fun q => !gone.contains q } } }
        (s.setLink p fun l => l.setFlow label fun f => { f with
          rxNext := c0.seq, rxCount := (f.rxCount + 65536 - back) % 65536, rxOut := (f.rxOut + 65536 - cut.1) % 65536,
          rxHeld := kept }).sendNak p label
    else
      let n := taken.length - (cut.1 + cut.2)
      s.setLink p fun l => { (l.setFlow label fun f => { f with lost := satAdd 64 f.lost n, rxHeld := kept }) with
        lost := satAdd 64 l.lost n }

/-- The coach that was cut through is closed poisoned, and each lossless path that it carried goes back to the first SEQ it used there,
without a NAK (R164, R165). -/
def State.poisonCut (s : State) (p lane : Nat) : State :=
  match s.cutCoach p lane with
  | none => s
  | some o =>
    let q := 1 - p
    let cells := o.sent ++ [o.held]
    let labels := (cells.map (·.path)).eraseDups
    let s := labels.foldl (fun s label =>
      match (s.link q).flow label with
      | none => s
      | some f =>
        let mine := (cells.filter fun c => c.path == label).map (·.seq)
        if !(lossless f.tc) then s
        else
          let n := (f.unacked.filter fun u => mine.contains u.cell.seq).length
          (s.setLink q fun l => l.setFlow label fun f => { f with
            nextSeq := mine.head?.getD f.nextSeq
            consumed := (f.consumed + 65536 - n) % 65536
            unacked := f.unacked.filter fun u => !mine.contains u.cell.seq }).freeReplay q n) s
    s.closeCoach q lane true

/-- A coach discarded whole (R147, R158): its buffers are freed, each of its paths undone, and the coach that was cut through is
closed poisoned (R164, R165). -/
def State.dropCoach (s : State) (p lane : Nat) : State :=
  let labels := ((s.coachCells p lane).map (·.path)).eraseDups
  let cuts := labels.map fun l => (l, s.cutCount p lane l)
  let s := s.poisonCut p lane
  let s : State := { s with sw := { s.sw with
    express := s.sw.express.modify p fun qs => qs.filter fun q => !(q.pending && q.coach == lane) } }
  let s := cuts.foldl (fun s x => s.undoCoach p lane x.1 x.2) s
  (if labels.isEmpty then s else s.freeCoach p lane).setLink p fun l => { l with coach := l.coach.filter fun x => x.lane != lane }

/-- A coach whose tag verifies and whose close cell is clean: its cells may be requested (R185), and the coach that was cut through closes
clean once its last cell is out (R164). -/
def State.passCoach (s : State) (p lane : Nat) : State :=
  let s := if (s.expressOf p lane).isEmpty && (s.cutCoach p lane).isSome then s.closeCoach (1 - p) lane false else s
  let s : State := { s with sw := { s.sw with
    express := s.sw.express.modify p fun qs => qs.map fun q => if q.coach == lane then { q with pending := false } else q } }
  (s.releaseCoach p lane).setLink p fun l => { l with coach := l.coach.filter fun x => x.lane != lane }

/-- One failure or poisoned coach more this tick. -/
def bumpTick (now : Tick) (t : Option (Tick × Nat)) : Option (Tick × Nat) :=
  match t with
  | some (k, n) => if k == now then some (k, n + 1) else some (now, 1)
  | none => some (now, 1)

/-! ### Local offers (R190, R223) -/

/-- Where a cell offered by a local port goes, with the contract that polices it: toward a cable by its label, or along a local
path by its identifier. -/
structure OfferTo where
  outp : Nat
  label : Nat
  tc : Nat
  contract : Nat
  deriving DecidableEq, Repr

def State.offerTo (s : State) (port cable path : Nat) : Option OfferTo :=
  if cable < 2 then
    ((s.link cable).entry path).bind fun e =>
      if e.egress == port && !e.suspended then some ⟨cable, path, e.tc, if e.bound then e.contract else 0⟩ else none
  else
    (s.cable.paths.find? fun r => r.id == path && r.port.isNone && (r.src == port || r.dst == port)).map fun r =>
      ⟨if r.src == port then r.dst else r.src, path % 4096, r.tc, if r.bound then r.contract else 0⟩

/-- The policer of a contract on one cell (R223): in profile or above. Answers whether the cell is dropped. -/
def State.police (s : State) (port : Nat) (o : OfferTo) : Bool × State :=
  match s.plan.contracts.find? fun c => c.id == o.contract && contractMatches c port o.outp o.tc with
  | none => (false, s)
  | some c =>
    let along := c.inPort == port
    let tok := if along then c.tokA else c.tokB
    let upd := fun (f : Contract → Contract) (s : State) =>
      ({ s with plan := { s.plan with contracts := s.plan.contracts.map fun x => if x.id == c.id then f x else x } } : State)
    if 250 ≤ tok then
      (false, upd (fun x => if along then { x with tokA := x.tokA - 250 } else { x with tokB := x.tokB - 250 }) s)
    else
      (c.police && (o.tc == 2 || o.tc == 5 || o.tc == 6), upd (fun x => { x with above := satAdd 64 x.above 1 }) s)

/-- A class of a local port is ready (R190). -/
def State.classReady (s : State) (port tc : Nat) : Bool :=
  match s.admission port tc false with
  | .cap => false
  | .full => false
  | _ => true

/-! ### The match of a cell time (R194 to R200, R219 to R222) -/

/-- The gate entry that governs an output in a slot (R207). -/
def OutPlan.gateAt (o : OutPlan) (slot : Nat) : GateEntry :=
  ((o.gates.filter fun g => g.start ≤ slot).getLast?).getD .reset

/-- A class may be in ORDER at an output: within its ALLOW, and its shaper has a token (R221, R222). -/
def State.classOpen (s : State) (j c : Nat) : Bool :=
  let o := nth s.plan.inForce.outs j .reset
  (match nth o.allow c none with
    | some a => nth s.plan.sent (swIdx j c) 0 < a
    | none => true)
  && !(s.plan.shapers.any fun h => h.outp == j && h.tc == c && h.tokens < 256)

/-- This tick has an open CUT path from the other cable port to this one (R200). -/
def State.expressLane (s : State) (p : Nat) : Bool :=
  (s.link (1 - p)).table.any fun e => e.cut && e.egress == p && !e.suspended

/-- A cell in pieces of at most 64 payload bytes (R200). -/
def pieces (c : Cell) : List Cell :=
  let n := max 1 (ceilDiv c.len 64)
  (upTo n).map fun k => { c with
    len := min 64 (c.len - 64 * k), payload := slice (64 * k) 64 c.payload,
    first := c.first && k == 0, last := c.last && k + 1 == n }

/-- The cell that leaves an output. -/
def outCell (q : QCell) : Cell :=
  { path := q.label, tc := q.tc, kind := 0, len := q.len, seq := 0, cidx := 0, first := q.first, last := q.last, poison := false,
    ecn := q.ecn, hcrc := 0, payload := q.payload }

/-- What leaves on a cable for a stored cell: itself, or its pieces where a cut-through path shares the cable (R200). -/
def State.outCells (s : State) (q : QCell) : List Cell :=
  if !q.cut && s.expressLane q.outp then pieces (outCell q) else [outCell q]

/-- The lane that takes the cells of a stored cell together. -/
def State.laneForAll (s : State) (p : Nat) (cs : List Cell) : Option Nat :=
  match cs.head? with
  | none => none
  | some c => s.laneFor p { c with len := total (cs.map cellRoom) - 8 }

/-- A queued cell may be requested at an output (R194, R219): no earlier cell of its path is pending, the frame hold lets it, and on a
cable its path has credit and a lane takes it. -/
def State.cellReady (s : State) (j : Nat) (hold : Bool) (before : List QCell) (q : QCell) : Bool :=
  !q.pending && !(before.any fun b => b.label == q.label && b.pending)
    && (if hold && (q.tc == 5 || q.tc == 6) then s.plan.frames.contains (j, q.tc, q.label) else true)
    && (if j < 2 then s.mayCable j q.label (s.outCells q).length && (s.laneForAll j (s.outCells q)).isSome else true)

/-- The cell that a queue offers: the first among its first 8 that may be requested. -/
def State.voqOffer (s : State) (hold : Bool) (v : Voq) : Option QCell :=
  let l := v.cells.take 8
  ((l.zipIdx).find? fun (q, i) => s.cellReady v.outp hold (l.take i) q).map (·.1)

/-- A request: input, output, class, urgency and the cell. -/
structure Request where
  inp : Nat
  outp : Nat
  tc : Nat
  urgent : Bool
  cell : QCell
  deriving DecidableEq, Repr

/-- Every request of a cell time; `room` gives each output's classes that it can take, as a mask. -/
def State.requests (s : State) (room : List Nat) : List Request :=
  s.sw.voqs.filterMap fun v =>
    let g := (nth s.plan.inForce.outs v.outp .reset).gateAt s.time.slot
    if bitAt (nth room v.outp 0) v.tc && g.order.contains v.tc && s.classOpen v.outp v.tc then
      (s.voqOffer g.hold v).map fun q => ⟨v.inp, v.outp, v.tc, v.urgent, q⟩
    else none

/-- The DRR pointer of an output before a match (R220), and the order that follows from it. -/
def State.drrStep (s : State) (j : Nat) (reqs : List Request) : List Nat × State :=
  let o := nth s.plan.inForce.outs j .reset
  let g := o.gateAt s.time.slot
  let strict := g.order.take g.drrPos
  let drr := g.order.drop g.drrPos
  if drr.isEmpty then (strict, s)
  else
    let p := nth s.plan.drrPtr j 4
    let dc := fun c => nth s.plan.drrDc (swIdx j c) 0
    let at' := (drr.findIdx? (· == p))
    let stay := at'.isSome && (reqs.any fun r => r.outp == j && r.tc == p) && 0 < dc p
    let i := match at' with
      | some i => if stay then i else (i + 1) % drr.length
      | none => 0
    let c := nth drr i 0
    let q := nth o.q c 1
    let burst := s.cv Fld.DRR_BURST_MULT * q
    let s : State := if stay then s else { s with plan := { s.plan with
      drrPtr := put s.plan.drrPtr j c
      drrDc := put s.plan.drrDc (swIdx j c) (min (dc c + (q : Int)) (burst : Int)) } }
    (strict ++ drr.drop i ++ drr.take i, s)

/-- The first of a list of ports at or after a pointer, the urgent ones first (R195). -/
def pickPort (ptr : Nat) (all urgent : List Nat) : Option Nat := firstFrom ptr (if urgent.isEmpty then all else urgent)

/-- What the match has so far: free ports, connections, and the pointers. -/
structure Matching where
  freeIn  : List Nat
  freeOut : List Nat
  conns   : List Request
  gp      : List Nat
  ap      : List Nat

/-- One iteration of R195. -/
def matchIter (reqs : List Request) (orders : List (List Nat)) (first : Bool) (m : Matching) : Matching :=
  let open' := reqs.filter fun r => m.freeIn.contains r.inp && m.freeOut.contains r.outp
  let grants := m.freeOut.filterMap fun j =>
    match (nth orders j []).find? fun c => open'.any fun r => r.outp == j && r.tc == c with
    | none => none
    | some c =>
      let rs := open'.filter fun r => r.outp == j && r.tc == c
      (pickPort (nth m.gp (swIdx j c) 0) (rs.map (·.inp)) ((rs.filter (·.urgent)).map (·.inp))).bind fun i =>
        rs.find? fun r => r.inp == i
  let accepts := m.freeIn.filterMap fun i =>
    let gs := grants.filter fun r => r.inp == i
    (pickPort (nth m.ap i 0) (gs.map (·.outp)) ((gs.filter (·.urgent)).map (·.outp))).bind fun j =>
      gs.find? fun r => r.outp == j
  { freeIn := m.freeIn.filter fun i => !(accepts.any fun r => r.inp == i)
    freeOut := m.freeOut.filter fun j => !(accepts.any fun r => r.outp == j)
    conns := m.conns ++ accepts
    gp := if first then accepts.foldl (fun g r => put g (swIdx r.outp r.tc) ((r.inp + 1) % 12)) m.gp else m.gp
    ap := if first then accepts.foldl (fun a r => put a r.inp ((r.outp + 1) % 12)) m.ap else m.ap }

/-- The input's credit returned when a cell leaves its buffer (R154, R188). -/
def State.returnCredit (s : State) (q : QCell) : State :=
  if q.inp < 2 then
    let label := if q.outp < 2 then
        (((s.link q.inp).table.find? fun e => e.egress == q.outp && e.outLabel == q.label).map (·.label)).getD 0
      else q.label
    s.setLink q.inp fun l => l.setFlow label fun f => { f with rxOut := (f.rxOut + 1) % 65536 }
  else s

/-- A cell connected to its output leaves the switch: on a cable with the path's next SEQ and, if lossless, into the replay store;
to a local port as it is (R188, R194). A cell that cuts through goes on the lane of its number. -/
def State.leaveGood (s : State) (q : QCell) : State :=
  let s := (s.returnCredit q).swCount q.outp q.tc fun k => { k with cout := satAdd 64 k.cout 1 }
  let s : State := { s with sw := { s.sw with matched := satAdd 64 s.sw.matched 1 } }
  if q.outp < 2 then
    let cs := s.outCells q
    let k := if q.cut then q.coach else (s.laneForAll q.outp cs).getD 0
    let s : State := if !q.cut && s.expressLane q.outp then
        { s with sw := { s.sw with pieces := satAdd 64 s.sw.pieces cs.length } } else s
    let s := cs.foldl (fun s c => s.cableSend q.outp k (if q.cut then some (q.inp, q.coach) else none) c) s
    if credited q.tc then { s with sw := { s.sw with replay := s.sw.replay.modify q.outp (· + cs.length) } } else s
  else s.emit (.toAdapter q.outp (outCell q))

/-- A cell is read from its buffer: a corrected word is counted, and a cell with an uncorrectable word is dropped at its output
with EV052 and EV131 (R204, R363). -/
def State.leave (s : State) (q : QCell) : State :=
  let w := cellWord q.buf
  match s.wordFault w with
  | 0 => s.leaveGood q
  | 1 => (s.sramCorrected w).leaveGood q
  | _ => ((s.returnCredit q).raise 52 (q.buf % 32768)).sramLost (q.buf * 32)

/-- The accounts of a connection: its queue, DRR, ALLOW, shaper, frame and sample (R196, R219 to R222, R232). -/
def State.connect (s : State) (r : Request) : State :=
  let q := r.cell
  let v := s.sw.voq r.inp r.outp r.tc
  let s : State := { s with sw := s.sw.setVoq { v with
    cells := v.cells.erase q, age := 0, urgent := false, conns := satAdd 32 v.conns 1 } }
  let s := s.uncharge q
  let o := nth s.plan.inForce.outs r.outp .reset
  let burst : Int := (s.cv Fld.DRR_BURST_MULT * nth o.q r.tc 1 : Nat)
  let isDrr := ((o.gateAt s.time.slot).order.drop (o.gateAt s.time.slot).drrPos).contains r.tc
  let k := swIdx r.outp r.tc
  let key := (r.outp, r.tc, q.label)
  let gated := r.tc == 5 || r.tc == 6
  let s : State := { s with plan := { s.plan with
    drrDc := if isDrr then s.plan.drrDc.modify k fun d => max (d - 1) (-burst) else s.plan.drrDc
    sent := s.plan.sent.modify k (· + 1)
    shapers := s.plan.shapers.map fun h =>
      if h.outp == r.outp && h.tc == r.tc then { h with tokens := h.tokens - 256 } else h
    frames := if !gated then s.plan.frames
      else if q.last then s.plan.frames.filter (· != key)
      else if q.first then (s.plan.frames.filter (· != key)) ++ [key] else s.plan.frames } }
  (s.sampleLeft r.outp r.tc q.buf).leave q

/-- An express cell may go (R154, R163): its path has credit, and its lane takes it; once its coach has been verified and the run is
over, any lane may. -/
def State.expressMay (s : State) (p : Nat) (q : QCell) : Bool :=
  s.mayCable q.outp q.label 1
    && (s.laneTakes q.outp q.coach (some (p, q.coach)) (outCell q) || (!q.pending && (s.laneFor q.outp (outCell q)).isSome))

/-- An express cell at the head of its queue connected ahead of every request (R199); the last of a verified coach closes the coach that
carries it on (R164). An express cell has no buffer. -/
def State.expressGo (s : State) (p : Nat) : State :=
  match nth s.sw.express p [] with
  | [] => s
  | q :: rest =>
    let s : State := { s with sw := { s.sw with express := put s.sw.express p rest } }
    if s.laneTakes q.outp q.coach (some (p, q.coach)) (outCell q) then
      let s := (s.closeLocal q.outp q.coach).leaveGood q
      if !q.pending && !(rest.any fun r => r.coach == q.coach && !r.pending) then s.closeCoach q.outp q.coach false else s
    else s.leaveGood { q with cut := false }

/-- A coach closes when no further cell of its class is ready on its port (R156); one that is cut through waits for its tag. -/
def State.closeIdle (s : State) (p k : Nat) : State :=
  match (s.lane p k).tx.coach with
  | none => s
  | some o =>
    let more := s.sw.voqs.any fun v => v.outp == p && v.tc == o.tc && (s.voqOffer false v).isSome
    if o.source.isSome || more then s else s.closeCoach p k false

/-- A cable's lanes take what goes ahead of the switch's cells: cells to be sent again, then a PEER message (R153, R78). -/
def State.sendAhead (s : State) (p : Nat) : Bool × State :=
  let (sent, s) := s.resend p
  if sent then (true, s) else s.sendPeer p

/-- One cell time (R195 to R199): express cells, the three iterations, and the ages of the queues that asked and were not
served. -/
def State.cellTime (s : State) (room : List Nat) : State :=
  let exp := [0, 1].filter fun p => (nth s.sw.express p []).head?.any fun q => s.expressMay p q
  let (busy, s) := [0, 1].foldl (fun (acc : List Nat × State) p =>
    if exp.contains (1 - p) then acc
    else
      let (sent, s) := acc.2.sendAhead p
      (if sent then acc.1 ++ [p] else acc.1, s)) ([], s)
  let reqs := s.requests room
  let (orders, s) := (upTo 12).foldl (fun (acc : List (List Nat) × State) j =>
    let (o, s) := acc.2.drrStep j reqs
    (acc.1 ++ [o], s)) ([], s)
  let m : Matching := ⟨(upTo 12).filter fun i => !exp.contains i,
    (upTo 12).filter fun j => !(j < 2 && exp.contains (1 - j)) && !busy.contains j, [], s.sw.gp, s.sw.ap⟩
  let m := matchIter reqs orders true m
  let m := matchIter reqs orders false (matchIter reqs orders false m)
  let s : State := { s with sw := { s.sw with gp := m.gp, ap := m.ap } }
  let s := exp.foldl (fun s p => s.expressGo p) s
  let s := m.conns.foldl (fun s r => s.connect r) s
  let s := [0, 1].foldl (fun s p => fourLanes.foldl (fun s k => s.closeIdle p k) s) s
  let lost := reqs.filter fun r => !m.conns.contains r
  { s with sw := lost.foldl (fun w r => let v := w.voq r.inp r.outp r.tc; w.setVoq { v with age := satAdd 16 v.age 1 }) s.sw }

end Sys2Proof.Machine
end

