-- ==== Sys2Proof/Machine/PdOps.lean ====
section
/-! DEFINITION. Sending on a configuration channel (R413) and the channels' timers (R432). -/

namespace Sys2Proof.Machine

def State.chn (s : State) (k : Nat) : CcSt := nth s.cc k .init
def State.setChn (s : State) (k : Nat) (f : CcSt → CcSt) : State := { s with cc := s.cc.modify k f }

/-! ### Timers: a field applies at the next start of its timer, so the end is settled as it starts (R432) -/

def CcSt.start (c : CcSt) (t : CcTimer) (till : Tick) : CcSt := { c with timers := (c.timers.filter fun x => x.1 != t) ++ [(t, till)] }
def CcSt.stop (c : CcSt) (t : CcTimer) : CcSt := { c with timers := c.timers.filter fun x => x.1 != t }
def CcSt.runs (c : CcSt) (t : CcTimer) : Bool := c.timers.any fun x => x.1 == t

/-- A timer of so many ticks starts. -/
def State.ccStart (s : State) (k : Nat) (t : CcTimer) (ticks : Nat) : State :=
  s.setChn k fun c => c.start t (s.time.tick + BitVec.ofNat 48 ticks)

def State.ccStop (s : State) (k : Nat) (t : CcTimer) : State := s.setChn k fun c => c.stop t

/-- A timer runs and has come to its end. -/
def State.ccDue (s : State) (k : Nat) (t : CcTimer) : Bool := (s.chn k).timers.any fun x => x.1 == t && reached s.time.tick x.2

/-! ### Messages (R413) -/

/-- The power sequencer runs its ROM program: after fault 0x0A, without an image, and at the service floor (R546). -/
def State.romNow (s : State) : Bool := s.fault.romMode || nth s.upd.stopped 4 false || s.boot.stage == 4

/-- A message on the wire: with the next MessageID of its packet type, waiting for GoodCRC for 1.0 ms. -/
def State.pdOut (s : State) (k : Nat) (o : PdOut) : State :=
  let id := nth (s.chn k).txIds o.sop 0
  ((s.setChn k fun c => { c with sent := some o, txIds := put c.txIds o.sop ((id + 1) % 8) }).ccStart k .goodCrc (msTicks 1)).emit
    (.pd k o.sop o.kind id o.objs)

/-- A message sent, or put behind the one that waits for GoodCRC; none in ROM mode (R546). -/
def State.pdSend (s : State) (k : Nat) (kind : PdKind) (objs : List Word) (what : PdFor := .none) (sop : Nat := 0) : State :=
  let o : PdOut := ⟨sop, kind, objs, 0, what⟩
  if s.romNow then s
  else if (s.chn k).sent.isSome then s.setChn k fun c => { c with outq := c.outq ++ [o] }
  else s.pdOut k o

/-- The next message that waited, once none is on the wire. -/
def State.pdNext (s : State) (k : Nat) : State :=
  match (s.chn k).sent, (s.chn k).outq with
  | none, o :: rest => (s.setChn k fun c => { c with outq := rest }).pdOut k o
  | _, _ => s

end Sys2Proof.Machine
end

