-- ==== Sys2Proof/Machine/DispOps.lean ====
section
/-! DEFINITION. Display tunnels (spec/09): streams, contracts, control messages, AUX, hold, and what the links and paths tell
them. -/

namespace Sys2Proof.Machine

/-! ### Contracts that an adapter sends ahead (R241, R271, R294) -/

/-- `plan.contract.set` for a hub `hop` cables away, forwarded on PEER and remembered until its reply (R69, R241): the first hub of
the path answers through the request's HOPS; the port numbers at that hub are its own and are not stated (free values, log
entry 3). -/
def State.sendContract (s : State) (origin : FwdOrigin) (port hop : Nat) (c : Contract) : State :=
  let (a, s) := s.draw
  let (b, s) := s.draw
  let body := contractBytes { c with inPort := a % 12, outPort := b % 12 }
  let rq : Req :=
    { via := .peer port, tag := 0, flags := BitVec.ofNat 16 ((hop - 1) % 8 * 0x1000), cred := 0, rsv := 0,
      payload := body }
  s.sendDown origin port (msgOf rq 0x0504)

/-- The contracts of a path sent to each hub that it crosses. -/
def State.sendContracts (s : State) (origin : FwdOrigin) (port hops : Nat) (cs : List Contract) : State :=
  ((upTo hops).flatMap fun h => cs.map fun c => (h + 1, c)).foldl (fun s (h, c) => s.sendContract origin port h c) s

/-- `plan.contract.clear` forwarded to each hub of a path; its reply changes nothing here. -/
def State.sendClears (s : State) (port hops : Nat) (ids : List Nat) : State :=
  ((upTo hops).flatMap fun h => ids.map fun i => (h + 1, i)).foldl (fun s (h, i) =>
    let rq : Req :=
    { via := .peer port, tag := 0, flags := BitVec.ofNat 16 ((h - 1) % 8 * 0x1000), cred := 0, rsv := 0,
      payload := leBytes 2 i }
    s.sendDown .clear port (msgOf rq 0x0505)) s

/-- Contract requests of an adapter still unanswered. -/
def State.contractsPending (s : State) (origin : FwdOrigin) : Bool := s.mbx.forwards.any fun f => f.origin == origin

/-! ### DPXs and streams -/

def State.dpx (s : State) (k : Nat) : DpxSt := nth s.disp.dpx k .init
def State.setDpx (s : State) (k : Nat) (f : DpxSt → DpxSt) : State :=
  { s with disp := { s.disp with dpx := s.disp.dpx.modify k f } }
def State.stream (s : State) (id : Nat) : Option StreamSt := s.disp.streams.find? fun x => x.id == id
def State.setStream (s : State) (id : Nat) (f : StreamSt → StreamSt) : State :=
  { s with disp := { s.disp with streams := s.disp.streams.map fun x => if x.id == id then f x else x } }
def State.dropStream (s : State) (id : Nat) : State :=
  let s := s.freeStore id
  { s with disp := { s.disp with streams := s.disp.streams.filter fun x => x.id != id } }

/-- A display event: DPX and stream in ARG (R265). -/
def State.dispEv (s : State) (n dpx stream rest : Nat) : State := s.raise n (dpx % 4 + stream % 16 * 4 + rest)

/-- The cable port whose multiplexer takes a DPX in DP_C or DP_D (R24, Table 16.5). -/
def State.dpxTaken (s : State) (k : Nat) : Option Nat :=
  [0, 1].find? fun p =>
    let c := nth s.cc p .init
    (c.position == 3 || c.position == 4) && !c.quiet
      && s.cv (if p == 0 then Fld.FALLBACK_DPX_CP0 else Fld.FALLBACK_DPX_CP1) == k

/-- The end that a DPX acts as: in fallback SINK at a UFP and SOURCE at a DFP (Table 1.6), otherwise its end of Table 1.3. -/
def State.dpxEnd (s : State) (k : Nat) : Nat :=
  match s.dpxTaken k with
  | some p => if nth s.topo.ends k 0 == 0 then 0 else if (nth s.cc p .init).dfp then 2 else 1
  | none => nth s.topo.ends k 0

def State.isSink (s : State) (k : Nat) : Bool := k < 4 && s.dpxEnd k == 1
def State.isSource (s : State) (k : Nat) : Bool := k < 4 && s.dpxEnd k == 2

/-- A stream whose path is gone and that only holds its last frame (Table 9.6). -/
def noPath : Nat := 15

/-! ### Bandwidth (R245, R246, R255) -/

/-- Bits per pixel in 1/16: DSC_BPP, or the component depth and format of MISC0 as DisplayPort codes them (PRESUMED, log
entry 22). -/
def bpp16 (d : FrameDesc) : Nat :=
  if d.dsc then d.bpp
  else
    let bpc := match fieldAt d.misc 5 3 with
      | 0 => 6
      | 1 => 8
      | 2 => 10
      | 3 => 12
      | _ => 16
    16 * bpc * (if fieldAt d.misc 1 2 == 1 then 2 else 3)

/-- B: bytes of a line (R255). -/
def lineBytes (d : FrameDesc) : Nat := ceilDiv (d.hactive * bpp16 d) 128

/-- n: chunks of a line. -/
def lineChunks (d : FrameDesc) : Nat := ceilDiv (lineBytes d) 4088

def lineCells (d : FrameDesc) : Nat :=
  (lineChunks d - 1) * 16 + ceilDiv (lineBytes d - (lineChunks d - 1) * 4088 + 8) 256

/-- The refresh rate in mHz, rounded up: CLOCK / (HTOTAL × VTOTAL). -/
def refreshMhz (d : FrameDesc) : Nat := ceilDiv d.clock (max 1 (d.htotal * d.vtotal))

/-- ALONG of a video contract (R255); `hi` is the panel's largest refresh rate in mHz when ADAPTIVE is set. -/
def videoMbps (d : FrameDesc) (hi : Nat) : Nat :=
  if d.adaptive && 0 < hi then ceilDiv ((lineCells d * d.vactive + 4) * hi * 2048) 1000000000
  else ceilDiv ((lineCells d * d.vactive + 4) * d.clock * 2048) (1000000000 * max 1 (d.htotal * d.vtotal))

/-- D in ns (R245). -/
def State.presDelay (s : State) (hops : Nat) : Nat :=
  max (s.cv Fld.PRES_DELAY_US * 1000) (62500 / max 1 (s.cv Fld.GATE_PERIODS) + 4000 + 200 * hops)

/-- The share of the stream buffer (R246); without an MSA it is taken from ALONG (DESIGN CHOICE, log entry 22). -/
def bufferShare (d : Option FrameDesc) (along delay : Nat) : Nat :=
  match d with
  | some d => ceilDiv ((lineBytes d + 8 * lineChunks d) * d.vactive * d.clock * delay)
      (1000 * max 1 (d.htotal * d.vtotal) * 1000000000)
  | none => ceilDiv (along * delay) 8000

def streamBuffer : Nat := 524288

/-! ### Chunks (R243, Table 9.2) -/

/-- Now as a chunk stamp: 16 bits of the tick and 1/64 ns within it. -/
def State.nowStamp (s : State) : Nat := s.time.tick.toNat % 65536 * 2000000 + s.time.slot * 8000

/-- A chunk's bytes: the header of Table 9.2, most significant byte first (R5), and its data. -/
def chunkBytes (c : Chunk) : List Byte :=
  let stamp := c.stamp / 2000000 % 65536 * 2 ^ 21 + c.stamp % 2000000
  beBytes 8 (c.typ % 4 * 2 ^ 62 + c.line % 16384 * 2 ^ 48 + c.chunk % 64 * 2 ^ 42 + stamp) ++ c.data

/-- A chunk read from its bytes. -/
def parseChunk (b : List Byte) : Chunk :=
  let h := beNat (b.take 8)
  { typ := fieldAt h 62 2, line := fieldAt h 48 14, chunk := fieldAt h 42 6,
    stamp := fieldAt h 21 16 * 2000000 + fieldAt h 0 21, data := b.drop 8 }

/-- Bytes as the cells of a path: FIRST on the first, LAST on the last (R243). -/
def dataCells (label tc : Nat) (bytes : List Byte) : List Cell :=
  let n := max 1 (ceilDiv bytes.length 256)
  (upTo n).map fun i =>
    let d := slice (256 * i) 256 bytes
    { path := label, tc := tc, kind := 0, len := d.length, seq := 0, cidx := 0, first := i == 0, last := i + 1 == n, poison := false,
      ecn := false, hcrc := 0, payload := d }

/-- The label by which this hub knows a path that starts here; a local path's identifier. -/
def State.labelOf (s : State) (id : Nat) : Nat :=
  match s.cable.paths.find? fun r => r.id == id with
  | some r => if r.port.isNone then r.id else r.label
  | none => 0

/-- A chunk of a stream sent on its video path. -/
def State.sendChunk (s : State) (x : StreamSt) (c : Chunk) : State :=
  s.emit (.chunk x.id (dataCells (s.labelOf (x.video.getD 0)) 6 (chunkBytes c)))

/-! ### CONTROL messages (Table 9.4, R252) -/

/-- The bytes of a CONTROL chunk: its header, and Table 9.4 with multi-byte fields most significant byte first (R5). -/
def State.controlBytes (s : State) (m : CtrlOut) : List Byte :=
  chunkBytes ⟨3, 0x3FFF, 0, s.nowStamp, leBytes 1 m.code ++ leBytes 1 m.cseq ++ zeros 2 ++ beBytes 4 m.addr ++ leBytes 1 m.data.length
    ++ leBytes 1 m.ctlArg ++ beBytes 2 m.vstream ++ m.data⟩

/-- A CONTROL message sent from a DPX, kept until it is acknowledged. -/
def State.sendControl (s : State) (k code addr ctlArg vstream : Nat) (data : List Byte) : State :=
  let q := (s.dpx k).txCseq
  let m : CtrlOut := ⟨q, code, addr, ctlArg, vstream, data, s.time.tick, 0⟩
  let s := s.setDpx k fun d => { d with txCseq := (q + 1) % 256, unacked := d.unacked ++ [m] }
  s.emit (.control k (s.controlBytes m))

/-- Acknowledge a received CONTROL message; answers whether it is new (R252). The last 128 numbers are remembered, half of the numbers
there are (DESIGN CHOICE, log entry 22). -/
def State.gotControl (s : State) (k cseq : Nat) : Bool × State :=
  let fresh := !(s.dpx k).rxSeen.contains cseq
  let s := if fresh then s.setDpx k fun d => { d with rxSeen := (cseq :: d.rxSeen).take 128 } else s
  (fresh, s.emit (.control k (s.controlBytes ⟨cseq, 6, 0, 0, 0, [], s.time.tick, 0⟩)))

/-- A SINK end is paired: a stream of it is open, or `disp.pair.set` named a destination (R251). -/
def State.paired (s : State) (k : Nat) : Bool :=
  (s.dpx k).pair.isSome || s.disp.streams.any fun x => x.capture && x.dpx == k && 0 < x.state

def DpxSt.block (d : DpxSt) (addr : Nat) : Option (List Byte) := (d.mirror.find? fun b => b.addr == addr).map (·.data)

def DpxSt.setBlock (d : DpxSt) (addr : Nat) (data : List Byte) : DpxSt :=
  { d with mirror := (d.mirror.filter fun b => b.addr != addr) ++ [⟨addr, data⟩] }

/-- EDID and DisplayID blocks (Table 9.4). -/
def edidBase : Nat := 0xFFF00

/-- The DisplayPort Status VDO with HPD state in bit 7 and IRQ_HPD in bit 8, as the alternate mode codes them (PRESUMED, log
entry 28). -/
def dpStatus (level irq : Bool) : Word := BitVec.ofNat 32 (128 * b2n level + 256 * b2n irq)

/-- As a UFP in DP_C or DP_D, the hub sends Attention with the fallback DPX's HPD output (R430). -/
def State.hpdAttention (s : State) (k : Nat) (level irq : Bool) : State :=
  match s.dpxTaken k with
  | some p => if (nth s.cc p .init).dfp then s else s.pdSend p (.vdm 0xFF01 6 0) [dpStatus level irq]
  | none => s

/-- HPD toward the GPU driven high when R254 allows. -/
def State.hpdUp (s : State) (k : Nat) : State :=
  let d := s.dpx k
  if s.isSink k && !d.hpd && s.paired k && d.farHpd && (d.block edidBase).isSome then
    (((s.setDpx k fun d => { d with hpd := true, hpdFell := none }).emit (.hpd k true false)).hpdAttention k true false).dispEv 64 k 0 256
  else s

/-- HPD toward the GPU driven low (R254). -/
def State.hpdDown (s : State) (k : Nat) : State :=
  if (s.dpx k).hpd then
    (((s.setDpx k fun d => { d with hpd := false, hpdFell := some s.time.tick }).emit (.hpd k false false)).hpdAttention k false false).dispEv 64 k 0 0
  else s

/-! ### Closing a stream (R242, R264) -/

/-- A stream of the capture end closed: its paths and contracts go, at every hub (R264); EV068 with the cause. -/
def State.closeCapture (s : State) (x : StreamSt) (cause : Nat) : State :=
  let s := match x.video with
    | some id => s.closePath id
    | none => s
  let s := match x.audioPath with
    | some id => s.closePath id
    | none => s
  let ids := if x.audio then [x.contract, x.contract + 1] else [x.contract]
  let s := ids.foldl (fun s i => s.clearContract i) s
  let port := (s.pathPort x.dest.2.1).getD 0
  let s := s.sendClears port x.dest.1 ids
  let s := (s.dropStream x.id).dispEv 68 x.dpx x.id (256 * cause)
  s.hpdDown x.dpx

/-- A stream of the regenerating end loses its path: hold goes on, or starts, and EV068 with the cause (Table 9.6). -/
def State.closeRegen (s : State) (x : StreamSt) (cause : Nat) : State :=
  let s := if x.stored && s.cv Fld.HOLD_ENABLE == 1 && cause != 1 then
      s.setStream x.id fun x => { x with inPort := noPath, inLabel := 0, holdNext := if x.state == 3 then none else some 1 }
    else s.dropStream x.id
  s.dispEv 68 x.dpx x.id (256 * cause)

/-- Any stream closed here by command or for HPD: a regenerating end tears its path down toward its origin. -/
def State.closeStream (s : State) (x : StreamSt) (cause : Nat) : State :=
  if x.capture then s.closeCapture x cause
  else
    let s := if x.inPort < 2 then (s.tearBoth x.inPort x.inLabel).2 else s
    s.closeRegen x cause

/-! ### The panel's link (R240) -/

/-- The highest rate code of DISP_MAX_RATE (Table 9.7, codes of `disp.show`). -/
def State.maxRateCode (s : State) : Nat := 7 - s.cv Fld.DISP_MAX_RATE

/-- Payload rate of a DisplayPort link in Mb/s by rate code and lanes (Table 8.7a). -/
def linkMbps (rate lanes : Nat) : Nat :=
  let r := nth [0, 1620, 2700, 5400, 8100, 10000, 13500, 20000] rate 0
  if rate ≤ 4 then r * lanes * 8 / 10 else r * lanes * 128 / 132

/-- Link configurations from the lowest payload to the highest. -/
def linkConfigs : List (Nat × Nat) :=
  [(1, 1), (2, 1), (1, 2), (3, 1), (2, 2), (1, 4), (4, 1), (3, 2), (5, 1), (2, 4), (4, 2), (6, 1), (3, 4), (7, 1), (5, 2), (4, 4),
    (6, 2), (7, 2), (5, 4), (6, 4), (7, 4)]

/-- What the streams of a DPX need of its link, in Mb/s; of a stream without a descriptor yet, what its contract gives (DEDUCED, log
entry 22). -/
def State.dpxNeed (s : State) (k : Nat) : Nat :=
  total ((s.disp.streams.filter fun x => !x.capture && x.dpx == k).map fun x =>
    match x.desc with
    | some d => ceilDiv (d.hactive * bpp16 d * d.vactive * refreshMhz d) 16000000000
    | none => match s.plan.contracts.find? fun c => c.id == x.contract with
      | some c => max c.along c.back
      | none => 0)

/-- The configuration that R240 chooses first: the lowest that carries the streams with 5 % margin, or the highest that the panel
supports. -/
def State.chooseLink (s : State) (k : Nat) : Option (Nat × Nat) :=
  let top := min s.maxRateCode (s.dpx k).panelMax
  let can := linkConfigs.filter fun c => c.1 ≤ top
  if s.cv Fld.LINK_POLICY == 1 then can.getLast?
  else can.find? fun c => s.dpxNeed k * 105 ≤ linkMbps c.1 c.2 * 100

/-- A panel trained (R240): the chosen configuration when it works, else the best lower one that works and carries the streams. EV065, or
EV066 with the last rate tried. -/
def State.trainPanel (s : State) (k : Nat) : State :=
  match s.chooseLink k with
  | none => s.dispEv 66 k 0 (256 * min s.maxRateCode (s.dpx k).panelMax)
  | some c =>
    let lower := (linkConfigs.filter fun x => linkMbps x.1 x.2 ≤ linkMbps c.1 c.2).reverse
    let s := s.emit (.panelTrain k c.1 c.2)
    match lower.find? fun x => (s.dpx k).works.contains x && s.dpxNeed k ≤ linkMbps x.1 x.2 with
    | some (r, l) =>
      (s.setDpx k fun d => { d with rate := r, lanes := l, d3 := false }).dispEv 65 k 0 (256 * r + 4096 * l)
    | none => (s.setDpx k fun d => { d with rate := 0, lanes := 0 }).dispEv 66 k 0 (256 * ((lower.getLast?.map (·.1)).getD c.1))

/-! ### What the paths tell (R175, R258) -/

/-- The regenerating stream of a path that ends at a DPX (DESIGN CHOICE, log entry 23: it begins when the path's entry is
installed; D is this hub's). The panel is trained again for it (R240). -/
def State.dispArrived (s : State) (p : Nat) (e : PathEntry) : State :=
  let k := e.egress - 2
  if e.tc == 6 && 2 ≤ e.egress && e.egress ≤ 5 && s.isSource k then
    let used := s.disp.streams.map (·.id)
    let id := (((List.range 15).map (· + 1)).find? fun i => !used.contains i).getD 15
    let index := (s.disp.streams.filter fun x => !x.capture && x.dpx == k).length
    let x : StreamSt :=
      { id := id, dpx := k, index := index, capture := false, state := 1, dest := (0, 0, k, index), audio := false, cut := e.cut, video := none,
        audioPath := none, inPort := p, inLabel := e.label, contract := e.contract, along := 0, delay := s.presDelay 1, share := 0,
        desc := none, locked := false, lockLines := 0, badLines := 0, dco := 0, k := 8, cleanFrames := 0, chunks := [], late := 0,
        concealed := 0, skipped := 0, highWater := 0, frameChunks := 0, frameConc := 0, badFrames := 0, stored := false,
        goodFrames := 0, storeBuf := 0, holdNext := none, lastChunk := s.time.tick, concEv := 0, concTick := none,
        skipTick := none, holdAt := 0, step := 0, origin := none, interval := 0, start := none, shift := 0, frameNo := 0, away := false,
        above := [], firstLine := [], audioIn := [], job := none }
    let s : State := { s with disp := { s.disp with streams := s.disp.streams ++ [x] } }
    if (s.dpx k).hpd then s.trainPanel k else s
  else s

/-- A path's entry at this hub is gone. -/
def State.dispLost (s : State) (p label : Nat) : State :=
  match s.disp.streams.find? fun x => !x.capture && x.inPort == p && x.inLabel == label with
  | some x => s.closeRegen x 2
  | none => s

/-- A port's paths are suspended: streams regenerated from it enter hold at the next frame start (R258). -/
def State.dispSuspended (s : State) (p : Nat) : State :=
  { s with disp := { s.disp with streams := s.disp.streams.map fun x =>
    if !x.capture && x.inPort == p && x.state != 3 then { x with holdNext := some 1 } else x } }

/-- The hub's timebase has stepped by `d` 1/64 ns: each stream regenerated here absorbs it at its next vertical blank (R249). -/
def State.dispStep (s : State) (d : Int) : State :=
  { s with disp := { s.disp with streams := s.disp.streams.map fun x => if x.capture then x else { x with step := x.step + d } } }

/-- The completion payload of `disp.stream.open`. -/
def openPayload (x : StreamSt) : List Byte :=
  leBytes 2 x.id ++ leBytes 2 (x.video.getD 0) ++ leBytes 2 (x.audioPath.getD 0) ++ zeros 2 ++ leBytes 4 x.along ++ leBytes 4 x.delay

/-- A stream's tunnel is up: it completes, and the AUX pairing follows (R241, R254). -/
def State.dispDone (s : State) (x : StreamSt) : State :=
  let s := s.setStream x.id fun x => { x with state := 2, job := none }
  let s := match x.job with
    | some (via, h) => s.finish via h 0 (openPayload x)
    | none => s
  s.hpdUp x.dpx

/-- A step of `disp.stream.open` failed: everything earlier is undone and the command completes with the result (R241). -/
def State.dispFail (s : State) (x : StreamSt) (rc : Nat) (data : List Byte) : State :=
  let ids := if x.audio then [x.contract, x.contract + 1] else [x.contract]
  let s := match x.video with
    | some id => s.closePath id
    | none => s
  let s := match x.audioPath with
    | some id => s.closePath id
    | none => s
  let s := ids.foldl (fun s i => s.clearContract i) s
  let s := (s.sendClears ((s.pathPort x.dest.2.1).getD 0) x.dest.1 ids).dropStream x.id
  match x.job with
  | some (via, h) => s.finish via h rc data
  | none => s

/-- The steps of `disp.stream.open` after its contracts: the video path, then the audio path, then the binding (R241). -/
def State.dispNext (s : State) (id : Nat) : State :=
  match s.stream id with
  | none => s
  | some x =>
    let (hops, chain, dst, _) := x.dest
    let cut := x.cut
    match x.video with
    | none =>
      let a := s.openPath (.disp id) none (2 + x.dpx) hops chain (2 + dst) 6 cut x.contract
      if a.rc.bad then s.dispFail x a.rc.code []
      else a.st.setStream id fun x => { x with video := some a.id }
    | some v =>
      let open1 := (s.pathById v).any fun r => r.phase == 1
      if !open1 then s
      else if x.audio && x.audioPath.isNone then
        let a := s.openPath (.dispAudio id) none (2 + x.dpx) hops chain (2 + dst) 5 cut (x.contract + 1)
        if a.rc.bad then s.dispFail x a.rc.code [] else a.st.setStream id fun x => { x with audioPath := some a.id }
      else if x.audio && !((x.audioPath.bind s.pathById).any fun r => r.phase == 1) then s
      else s.dispDone x

/-- A path of a stream opened: the next step. -/
def State.dispPathUp (s : State) (id : Nat) : State := (s.dispNext id).dispNext id

/-- A path of a stream at the capture end was torn down from beyond, or its link's hold ran out. -/
def State.dispPathGone (s : State) (id : Nat) : State :=
  match s.stream id with
  | some x => if x.capture then s.closeCapture x 2 else s
  | none => s

/-- The suspension of a capture stream's path: what the GPU sends is discarded meanwhile (R254). -/
def State.capSuspended (s : State) (x : StreamSt) : Bool :=
  match x.video.bind s.pathById with
  | some r => (match r.port with
    | some p => ((s.link p).entry r.label).any (·.suspended)
    | none => false)
  | none => true

end Sys2Proof.Machine
end

