-- ==== Sys2Proof/Machine/LaneOps.lean ====
section
/-! DEFINITION. The lanes of a cable port (spec/05): retirement and FLOOR, restoration, re-calibration, tests, and what the plan in
force does to the lanes at slot 0. -/

namespace Sys2Proof.Machine

/-- Lanes that carry data when planned: trained, and neither retired nor in FLOOR (R119). -/
def laneServes (l : LaneSt) : Bool :=
  match l.state with
  | .off => false
  | .train => l.ready.isSome
  | .floor => false
  | .retired => false
  | _ => l.use < 3

/-- A lane is usable in a direction, 0 forward (R136). -/
def servesDir (dir : Nat) (l : LaneSt) : Bool := laneServes l && (l.use == 0 || l.use == dir + 1)

/-- Some direction of the port has no usable lane (R136). -/
def State.noDirection (s : State) (p : Nat) : Bool :=
  !((s.cpx p).lanes.any (servesDir 0)) || !((s.cpx p).lanes.any (servesDir 1))

/-- Causes of Table 5.12. -/
def causeAbsent : Nat := 1
def causeNoLock : Nat := 2
def causeEq : Nat := 3
def causeVerify : Nat := 4
def causeTurn : Nat := 5
def causeCommand : Nat := 6
def causeMask : Nat := 7
def causeL1x : Nat := 8

/-- A lane retired for a cause that keeps it out of FLOOR and of the automatic restoration (R136, R138). -/
def firmCause (c : Nat) : Bool := c == causeAbsent || c == causeCommand || c == causeMask

/-- FLOOR (R136): with no lane usable in some direction every lane that locks at T enters it; EV020 for each. -/
def State.floorCheck (s : State) (p : Nat) : State :=
  if s.noDirection p then
    let now := s.time.tick
    let enters := fun (l : LaneSt) =>
      !(l.state == .off || l.state == .floor || (l.state == .retired && (firmCause l.cause || l.cause == causeNoLock)))
    let s := if (s.cpx p).lanes.any enters then s.setCpx p fun c => { c with floorAt := now } else s
    fourLanes.foldl (fun s k =>
      let l := s.lane p k
      if !(enters l) then s
      else
        (s.setLane p k fun l => { l with
          state := .floor, rate := .t, recal := none, test := none, inject := none, ready := none, tx := .init })
          |>.laneEv p 20 (k + 256 * 3 + 65536 * l.cause)) s
  else s

/-! ### Equalisers and precoding (R111, R127) -/

/-- Where a lane keeps what it holds for a rate; T has none. -/
def rateIdx (r : Rate) : Nat :=
  match r with
  | .f => 0
  | .h => 1
  | .g1 => 2
  | _ => 3

def LaneSt.eq (l : LaneSt) : LaneEq := nth l.eqs (rateIdx l.rate) .init

/-- Transmit FFE settings within Table 5.8, whose magnitudes come to 1 (R127). -/
def ffeOk (c : List Int) : Bool :=
  match c with
  | [a, b, d, m, e] =>
    -6 ≤ a && a ≤ 0 && 0 ≤ b && b ≤ 12 && -34 ≤ d && d ≤ 0 && 50 ≤ m && m ≤ 100 && -20 ≤ e && e ≤ 0
      && -a + b - d + m - e == 100
  | _ => false

/-- A receive state within Table 5.8. -/
def boundRx (r : RxState) : RxState :=
  { r with ctle := min 36 r.ctle, vga := min 24 r.vga, taps := (upTo 24).map fun i => nth r.taps i 0, dfe := max (-50) (min 50 r.dfe) }

/-- A receiver asks for precoding (R111): never, with a first DFE tap of at least 0.35 of the main cursor, or always. -/
def State.wantsPrecoding (s : State) (dfe : Int) : Bool :=
  match s.cv Fld.PRECODE_POLICY with
  | 0 => false
  | 1 => 35 ≤ dfe
  | _ => true

/-- The transmit swing in force, rounded down to a 25 mV step (R142, Table 5.10). -/
def State.swingMv (s : State) : Nat := s.cv Fld.TX_SWING_MV / 25 * 25

/-- What an equalisation settles for a lane at a rate: the FFE and precoding that the peer asked for, the receive state, and this
receiver's own request (R111, R127). A request outside Table 5.8 is not taken. -/
def State.settleEq (s : State) (p k idx : Nat) (e : EqRes) : State :=
  let rx := boundRx e.rx
  let asks := s.wantsPrecoding rx.dfe
  s.setLane p k fun l => { l with
    rx := rx
    swing := s.swingMv
    eqs := l.eqs.modify idx fun old => {
      rx := rx, ffe := if ffeOk e.ffe then e.ffe else old.ffe, precTx := e.precTx, precRx := asks } }

/-! ### Re-calibration and restoration (R129 to R134, R138) -/

/-- A re-calibration or restoration ends with an outcome: 0 PASS, 1 PASS_AT_H, 2 ONE_DIRECTION, 3 RETIRED, 4 CANCELLED. Its
commands complete and EV019 is raised. -/
def State.endRecal (s : State) (p k outcome : Nat) : State :=
  match (s.lane p k).recal with
  | none => s
  | some r =>
    let s := s.setCpx p fun c => { c with
      queue := c.queue.filter (· != k)
      lanes := c.lanes.modify k fun l => { l with
        recal := none, cnt := { l.cnt with recals := if outcome == 4 then l.cnt.recals else satAdd 32 l.cnt.recals 1 } } }
    let l := s.lane p k
    let data := leBytes 1 outcome ++ leBytes 1 (rateCode l.rate) ++ leBytes 1 l.use ++ zeros 1 ++ leBytes 4 r.micros
    (r.jobs.foldl (fun s j => s.finish j.1 j.2 0 data) s).laneEv p 19 (k + 16 * outcome)

/-- A test ends; its command and the one that ended it early complete with the counts (R140). -/
def State.endTest (s : State) (p k rc : Nat) (data : List Byte) : State :=
  match (s.lane p k).test with
  | none => s
  | some t =>
    let s := s.setLane p k fun l => { l with test := none }
    (t.job.toList ++ t.stop.toList).foldl (fun s j => s.finish j.1 j.2 rc data) s

/-- A re-calibration that begins with step `step`. -/
def State.newRecal (s : State) (trig step : Nat) (force restore : Bool) (jobs : List (Via × Nat)) : Recal :=
  { trig := trig, force := force, restore := restore, jobs := jobs, step := step, atH := false, fwdOk := true, revOk := true, why := 0,
    since := s.time.tick, expired := false, micros := 0 }

/-- A re-calibration or a restoration asked for a lane; a request for a lane already queued or in CAL is merged (R131). -/
def State.queueRecal (s : State) (p k trig : Nat) (force restore : Bool) (job : Option (Via × Nat)) : State :=
  match (s.lane p k).recal with
  | some _ => s.setLane p k fun l => { l with recal := l.recal.map fun r =>
      { r with
        trig := if trig == 3 then 3 else r.trig, force := r.force || force, jobs := r.jobs ++ job.toList
        expired := r.expired || r.trig == 4 || trig == 4 } }
  | none =>
    let r := s.newRecal trig 0 force restore job.toList
    s.setCpx p fun c => { c with
      queue := c.queue ++ [k]
      lanes := c.lanes.modify k fun l => { l with recal := some r } }

/-- The first tick that may plan a lane again (R135). -/
def State.readyTick (s : State) : Tick := s.time.tick + (if s.time.slot < 40 then 2 else 3)

/-- The sensor of a cable port in 0.1 °C (Table 23.11a). -/
def State.portTemp (s : State) (p : Nat) : Int := nth s.plan.sensors p 0 / 10

/-- An automatic re-calibration or restoration that does not meet R130 closes the link with cause RETRAIN. -/
def State.retrainDue (s : State) (p : Nat) : State := s.setCpx p fun c => { c with retrain := true }

/-! ### Retirement (R136) -/

/-- The use left when a lane is retired whole (0), forward (1) or in reverse (2). -/
def useLeft (use what : Nat) : Nat :=
  if what == 0 then 3
  else if what == 1 then (if use == 0 then 2 else if use == 1 then 3 else use)
  else (if use == 0 then 1 else if use == 2 then 3 else use)

/-- A retired lane: OFF at this end; the plans already held do not bring it back (R134, R136). -/
def LaneSt.gone (l : LaneSt) (now : Tick) : LaneSt :=
  { l with state := .retired, rate := .none, use := 3, inject := none, ready := some (now + 3), turnHold := false, tx := .init }

/-- The retirement of a lane or of one direction: a re-calibration under way is cancelled, a test ends without its counts (DESIGN CHOICE,
log entry 67), the other end is told, and FLOOR follows where it must (R134, R136). -/
def State.retire (s : State) (p k what cause : Nat) (tell : Bool) : State :=
  let l := s.lane p k
  if l.state == .retired then s.setLane p k fun l => { l with cause := cause }
  else
    let now := s.time.tick
    let use := useLeft l.use what
    let s := if l.recal.isSome then s.endRecal p k 4 else s
    let s := if l.test.isSome then s.endTest p k Rc.badState.code [] else s
    let s := s.setLane p k fun l =>
      if use == 3 then { l.gone now with cause := cause } else { l with use := use, cause := cause, turnHold := false }
    let s := s.laneEv p 20 (k + 256 * use + 65536 * cause)
    let s := if tell && 1 ≤ (s.link p).state && (s.cpx p).step != 1 && (s.cpx p).step != 2 && (s.cpx p).step != 8 then
        s.ctl p ctlLaneNotice [k, 0, use] else s
    if 2 ≤ (s.link p).state then s.floorCheck p else s

/-- Retiring would leave a direction without a usable lane. -/
def State.retireFloors (s : State) (p k what : Nat) : Bool :=
  let after := (s.cpx p).lanes.modify k fun l =>
    if useLeft l.use what == 3 then { l with state := .retired, use := 3 } else { l with use := useLeft l.use what }
  !(after.any (servesDir 0)) || !(after.any (servesDir 1))

/-- A retired lane restored (R138): by re-calibration while the link is up and R130 holds, otherwise it returns to OFF and takes
part in the next training. One that no command asked for and that does not meet R130 closes the link (R130). -/
def State.restoreLane (s : State) (p k trig : Nat) (job : Option (Via × Nat)) : State :=
  if 2 ≤ (s.link p).state then
    if s.recalCond p k then s.queueRecal p k trig false true job
    else if job.isNone then s.retrainDue p else s
  else s.setLane p k fun l => { l with state := .off, use := 0, ready := none }

/-- The lane mask field of a cable port. -/
def laneMaskFld (p : Nat) : FieldDef := if p == 0 then Fld.LANE_MASK_CP0 else Fld.LANE_MASK_CP1

/-- A change of LANE_MASK applies at once (R142): a 0 retires, a 1 restores. -/
def State.maskLanes (s : State) (p : Nat) : State :=
  let m := s.applied (laneMaskFld p)
  fourLanes.foldl (fun s k =>
    let l := s.lane p k
    if !(bitAt m k) then (if l.state == .retired && l.cause == causeMask then s else s.retire p k 0 causeMask true)
    else if l.state == .retired && l.cause == causeMask && bitAt (s.cpx p).peer.mask k then s.restoreLane p k 5 none
    else s) s

/-! ### What the plan in force does at slot 0 (R119 to R123) -/

/-- A lane of the port is in the steps of a re-calibration. -/
def State.recalRuns (s : State) (p : Nat) : Bool := (s.cpx p).lanes.any fun l => l.recal.any fun r => 0 < r.step

/-- A lane enters CAL: for its queued re-calibration, or for one that the plan alone shows; while another lane of the port is being
re-calibrated it waits there (R131). The limits that act at a re-calibration are taken (R142). -/
def State.enterCal (s : State) (p k : Nat) : State :=
  let others := (s.cpx p).lanes.zipIdx.any fun (l, i) => i != k && l.recal.any fun r => 0 < r.step
  let low := s.maxH p
  let s := s.endRun p k
  s.setLane p k fun l => { l with
    state := .cal, ready := none, inject := none, discard := false, capH := low
    rate := if low || (l.state != .retired && l.rate == .h) then .h else .f
    recal := some { l.recal.getD (s.newRecal 5 0 false (l.state == .retired) []) with step := if others then 0 else 1 } }

/-- A lane enters TEST. -/
def State.enterTest (s : State) (p k : Nat) : State :=
  let s := s.endRun p k
  let plain : LaneTest := {
    pattern := 1, dir := 2, ticks := 0, force := false, job := none, stop := none, started := true, ran := 0, since := s.time.tick,
    expired := false }
  s.setLane p k fun l => { l with
    state := .test, inject := none, discard := false
    test := some ((l.test.map fun t => { t with started := true }).getD plain) }

/-- A lane that follows the plan into a first segment of mode 0 to 4. -/
def State.followPlan (s : State) (p k : Nat) (prev : PrevSeg) (g : Seg) : State :=
  let l := s.lane p k
  let rate : Rate := if g.t then .t else if g.rate == 1 then .h else .f
  if 2 < g.mode then
    let now := s.time.tick
    let state : LaneState := if g.mode == 3 then .l1d else .l1x
    (s.endRun p k).setLane p k fun l => { l with
      state := state
      discard := false
      inject := if l.state == state then l.inject else none
      ready := if g.mode == 3 then none else some (l.ready.getD (now + 6))
      cnt := { l.cnt with l1d := satAdd 32 l.cnt.l1d (b2n (g.mode == 3 && l.state != .l1d)) } }
  else
    let moved := g.mode ≤ 1 && !g.t && ((l.rate == .f && rate == .h) || (l.rate == .h && rate == .f))
    let low := s.maxH p
    let s := s.setLane p k fun l =>
      let l := { l with ready := none }
      if g.mode ≤ 1 && l.rate != rate then
        { l with rate := rate, rx := (nth l.eqs (rateIdx rate) .init).rx, capH := l.capH || (rate == .h && low) }
      else l
    let s := s.segBegin p k prev g (lostSlots prev g)
    if moved then s.laneEv p 18 (k + 16 * rateCode rate) else s

/-- One lane under its segments of the tick; `prev` is the mode and rate at the end of the tick before. A lane that has not come to the
tick that may plan it, or whose retirement the plan does not know of, stays as it is (R134, R135). -/
def State.planLane (s : State) (p k : Nat) (prev : PrevSeg) (segs : List Seg) : State :=
  let l := s.lane p k
  let waits := l.ready.any fun t => !(reached s.time.tick t)
  match segs.head? with
  | none => s
  | some g =>
    match l.state with
    | .off => s
    | .floor => s
    | .retired => if g.mode == 5 && (l.recal.isSome || (prev.1 != 5 && !waits)) then s.enterCal p k else s
    | .train => if l.ready.isNone || waits || 4 < g.mode then s else s.followPlan p k prev g
    | .cal =>
      match l.recal with
      | some r => if r.step == 0 && !s.recalRuns p then s.enterCal p k else s
      | none => if waits || 4 < g.mode then s else s.followPlan p k prev g
    | .test => if l.test.isSome || waits || 4 < g.mode then s else s.followPlan p k prev g
    | _ =>
      if l.state == .l1x && g.mode != 4 && (l.recal.any fun r => r.trig == 3) then s.enterCal p k
      else if g.mode == 5 then s.enterCal p k
      else if g.mode == 6 then s.enterTest p k
      else if g.mode == 7 then s
      else s.followPlan p k prev g

/-- The lanes of a port under the plan of the tick that begins; `before` is the plan of the tick that ended. -/
def State.planLanes (s : State) (p : Nat) (before : Option Plan) : State :=
  match (s.link p).plan0 with
  | none => s
  | some pl =>
    let prevs := lastSegs before
    let s := s.setLink p fun l => { l with prevs := prevs }
    fourLanes.foldl (fun s k => s.planLane p k (nth prevs k (2, 0)) (nth pl.lanes k [])) s

/-- A tick of a port's tests and re-calibrations: a test of a lane that no plan governs, on generation 1 or in FLOOR, begins (DEDUCED, log entry
67); a test's ticks are counted and its generator's symbols pass (R140, R141); a
re-calibration that no command asked for and that no longer meets R130 closes the link (R130). -/
def State.lanesTick (s : State) (p : Nat) : State :=
  fourLanes.foldl (fun s k =>
    let free := (s.lane p k).state == .floor || ((s.link p).gen1 && (s.lane p k).state == .l0)
    let s := if free && (s.lane p k).test.any fun t => !t.started then s.enterTest p k else s
    let l := s.lane p k
    let s := match l.test with
      | some t =>
        if l.state == .test && t.started then
          let whole := if l.rate == .h then 830078 else if l.rate == .f then 1660156 else 39062
          let sends := if t.dir == 2 then whole / 2 else if t.dir == s.txDir p then whole else 0
          (s.setLane p k fun l => { l with test := l.test.map fun t => { t with ran := t.ran + 1 } }).injectUnits p k 1 sends
        else s
      | none => s
    match l.recal with
    | some r => if r.jobs.isEmpty && 2 ≤ (s.link p).state && s.isMaster p && !(s.recalCond p k) then s.retrainDue p else s
    | none => s) s

end Sys2Proof.Machine
end

