-- ==== Sys2Proof/Machine/TrustOps.lean ====
section
/-! DEFINITION. Key slots, keys and signatures (R483 to R492), engine images (R489, R510) and the access control units
(R494 to R503). -/

namespace Sys2Proof.Machine

/-! ### Key slots (R483 to R487) -/

/-- The first `n` bits of a digest, most significant bit first. -/
def firstBits (n : Nat) (d : List Byte) : Nat := beNat (d.take ((n + 7) / 8)) / 2 ^ (8 * ((n + 7) / 8) - n)

/-- A slot's content as bytes, fuse 0 in bit 0 of byte 0. -/
def SlotSt.bytes (x : SlotSt) : List Byte := leBytes 32 x.content.toNat

/-- The check of R484: the first 28 bits of the SHA-384 of the slot index, the class and the content. -/
def slotCheck (slot cls : Nat) (content : List Byte) : Nat :=
  firstBits 28 (sha384 (leBytes 1 slot ++ leBytes 1 cls ++ content))

/-- The class in a slot's integrity word. -/
def SlotSt.cls (x : SlotSt) : Nat := fieldAt x.word.toNat 28 3

/-- The state of a slot (Table 19.4): 0 EMPTY, 1 VALID, 2 PARTIAL, 3 CORRUPT, 4 DESTROYED. -/
def slotState (slot : Nat) (x : SlotSt) : Nat :=
  if x.content == 0 && x.word == 0 then 0
  else if x.content == BitVec.allOnes 256 && x.word == BitVec.allOnes 32 then 4
  else if x.word == 0 then 2
  else if bitAt x.word.toNat 31 && x.word.toNat % 2 ^ 28 == slotCheck slot x.cls x.bytes then 1
  else 3

def State.slot (s : State) (k : Nat) : SlotSt := nth s.trust.slots k .init

def State.slotState (s : State) (k : Nat) : Nat := Sys2Proof.Machine.slotState k (s.slot k)

/-- A VALID slot of a class. -/
def State.slotIs (s : State) (k cls : Nat) : Bool := s.slotState k == 1 && (s.slot k).cls == cls

def State.setSlot (s : State) (k : Nat) (x : SlotSt) : State := { s with trust := { s.trust with slots := put s.trust.slots k x } }

/-- The classes of Table 19.3 whose slots hold a secret: DEVICE and LINK. -/
def secretClass (cls : Nat) : Bool := cls == 3 || cls == 6

/-- A slot destroyed: every fuse blown (R486), with EV177; one whose fuses no longer blow stays as it is. -/
def State.destroySlot (s : State) (k : Nat) : State :=
  if s.slotState k == 4 || s.trust.dead.getLsbD k then s
  else
    let c := (s.slot k).cls
    (s.setSlot k ⟨BitVec.allOnes 256, BitVec.allOnes 32⟩).raise 177 (k % 32 + 32 * c + 256 * 4)

/-- The slots that a transition to a state destroys (Table 19.2). -/
def State.doomedSlots (s : State) (target : Nat) : List Nat :=
  if target == 5 then upTo 32
  else if target == 4 then (upTo 32).filter fun k => (s.slotState k == 1 || s.slotState k == 3) && (s.slot k).cls == 6
  else []

/-- Positions blown from the current state's up to the target's (R482). -/
def State.blowLc (s : State) (target : Nat) : State :=
  { s with trust := { s.trust with lc := s.trust.lc.mapIdx fun k x => if s.lifecycle ≤ k && k < target then 7 else x } }

/-- The class that a key identifier gives (R487). -/
def keyClass (kid : Nat) : Nat := fieldAt kid 8 8
def keySlot (kid : Nat) : Nat := fieldAt kid 0 8
def keyTag (kid : Nat) : Nat := fieldAt kid 16 16

/-- The tag of an ECDSA public key: the first 16 bits of its SHA-384. -/
def tagOf (pub : List Byte) : Nat := firstBits 16 (sha384 pub)

/-- The ECDSA and ML-DSA-65 public keys that a KEYID names for a class (R487): the ROM key for BOOT and CREDENTIAL in BLANK and
MANUFACTURE, or a VALID slot whose manifest entry hashes to its content. -/
def State.pubKey (s : State) (kid cls : Nat) : Option (List Byte × List Byte) :=
  let entry := if keySlot kid == 0xFF then Config.romKey else nth s.upd.flash.keyman (keySlot kid) []
  let pub := entry.take 97
  let good :=
    if keySlot kid == 0xFF then (cls == 0 || cls == 5) && s.lifecycle ≤ 1
    else s.slotIs (keySlot kid) cls && (sha384 (fitBytes 2049 entry)).take 32 == (s.slot (keySlot kid)).bytes
  if good && keyClass kid == cls && keyTag kid == tagOf pub then some (pub, (fitBytes 2049 entry).drop 97) else none

/-- An ECDSA P-384 signature by the key that a KEYID names. -/
def State.ecdsaBy (s : State) (kid cls : Nat) (digest sig : List Byte) : Bool :=
  match s.pubKey kid cls with
  | some (e, _) => ecdsaVerify e digest sig
  | none => false

/-- Both signatures of a key: ECDSA P-384 and ML-DSA-65 over the digest. -/
def State.bothBy (s : State) (kid cls : Nat) (digest sig msig : List Byte) : Bool :=
  match s.pubKey kid cls with
  | some (e, m) => ecdsaVerify e digest sig && Config.mldsaVerify m digest msig
  | none => false

/-- Whether the signature field of Table 4.3 that starts `f` stands: its ALG and N are right, its KEYID names a key of the class
that `slotOk` admits, and what it carries verifies over the digest (R88, R89). -/
def State.sigHolds (s : State) (cls : Nat) (slotOk : Nat → Bool) (digest f : List Byte) : Bool :=
  let alg := leAt 4 1 f
  let n := leAt 2 2 f
  let kid := leAt 6 4 f
  slotOk (keySlot kid) &&
    (if alg == 1 then n == 102 && s.ecdsaBy kid cls digest (slice 10 96 f)
     else if alg == 2 then n == 3411 && s.bothBy kid cls digest (slice 10 96 f) (slice 106 3309 f)
     else false)

/-! ### Device and link identity (R488, R492) -/


/-- The slot that serves as DEVICE: slot 3, or slot 31 once it holds the class. -/
def State.deviceSlot (s : State) : Option Nat :=
  if s.slotIs 3 3 then some 3 else if s.slotIs 31 3 then some 31 else none

/-- The device identity's ECDSA public key. -/
def State.devicePub (s : State) : Option (List Byte) :=
  s.deviceSlot.map fun k => derivePublic (s.slot k).bytes (labelBytes "DEVICE")

/-- The device ID (R488), as bytes: zeros while no DEVICE slot is VALID. -/
def State.deviceId (s : State) : List Byte :=
  match s.devicePub with
  | some p => (sha384 p).take 8
  | none => zeros 8

/-- The lowest VALID LINK slot and the pair derived from it (R492). -/
def State.linkPub (s : State) : Option (Nat × List Byte) :=
  ((upTo 32).find? fun k => s.slotIs k 6).map fun k => (k, derivePublic (s.slot k).bytes (labelBytes "LINK"))

/-- The KEYID of the link identity: slot, class LINK and tag; 0 for none. -/
def State.linkKeyid (s : State) : Nat :=
  match s.linkPub with
  | some (k, p) => k + 256 * 6 + 65536 * tagOf p
  | none => 0

/-! ### Engine images (R489, R490, R510) -/

/-- The anti-rollback count: blown fuses counted upward from fuse 0 without a gap (R490). -/
def State.rollbackCount (s : State) : Nat := ((upTo 64).takeWhile fun k => s.trust.rollback.getLsbD k).length

/-- The engine of an image copy's flash region, in the order of the image list: MGT, WOERI, PHYSEQ, PWRSEQ, copies A and B. -/
def copyIdx (engine copy : Nat) : Nat := 2 * engine + copy

/-- The engine of an instance (Table 20.4): MGT, WOERI, PHY0, PHY1, PWRSEQ. -/
def engineOf (inst : Nat) : Nat := nth [0, 1, 2, 2, 3] inst 0

def State.image (s : State) (engine copy : Nat) : List Byte := nth s.upd.flash.images (copyIdx engine copy) []

def imgVersion (b : List Byte) : Nat := leAt 8 4 b
def imgSvn (b : List Byte) : Nat := leAt 5 1 b
def imgCode (b : List Byte) : List Byte := slice 8192 (leAt 12 4 b) b
def imgEpoch (k : Nat) (b : List Byte) : Nat := leAt (24 + 2 * k) 2 b
def imgMinEpoch (k : Nat) (b : List Byte) : Nat := leAt (40 + 2 * k) 2 b

/-- Code limits of Table 20.3. -/
def codeLimit (engine : Nat) : Nat := nth [393216, 8388608 - 8192, 65536, 65536] engine 0

/-- The image digest (R510): SHA-384 of header bytes 0 to 319 followed by the code. -/
def imgDigest (b : List Byte) : List Byte := sha384 (fitBytes 320 b ++ imgCode b)

/-- The form of an image copy (R510): MAGIC, ENGINE, CODE_BYTES within its limit and all there. -/
def imgForm (engine : Nat) (b : List Byte) : Bool :=
  leAt 0 4 b == 0x584A494D && leAt 4 1 b == engine && leAt 12 4 b ≤ codeLimit engine && 8192 + leAt 12 4 b ≤ b.length
    && imgSvn b ≤ 64

/-- Whether a life-cycle state lets a KEYID verify images (Table 19.1): the ROM key in BLANK and MANUFACTURE, vendor BOOT slots
from MANUFACTURE to RETURNED. -/
def State.bootKeyOk (s : State) (kid : Nat) : Bool :=
  let k := keySlot kid
  match s.lifecycle with
  | 0 => k == 0xFF
  | 1 => k == 0xFF || k < 8
  | 2 => k < 8
  | 3 => k < 8
  | 4 => k < 8
  | _ => false

/-- The signatures of an image (R489), the owner's too where OWNER_IMAGE_SIG asks in DEPLOYED. -/
def State.imgSigned (s : State) (b : List Byte) : Bool :=
  let d := imgDigest b
  let kid := leAt 320 4 b
  let kid2 := leAt 324 4 b
  s.bootKeyOk kid && s.bothBy kid 0 d (slice 328 96 b) (slice 424 3309 b) &&
    (!(s.lifecycle == 3 && s.cv Fld.OWNER_IMAGE_SIG == 1) ||
      (8 ≤ keySlot kid2 && keySlot kid2 < 32 && s.bothBy kid2 0 d (slice 3733 96 b) (slice 3829 3309 b)))

/-- The first failure of an image copy under R489 and R510: 0 PASS, 1 FORMAT, 2 SIGNATURE, 3 SVN (Table 20.13). -/
def State.imgVerdict (s : State) (engine : Nat) (b : List Byte) : Nat :=
  if !imgForm engine b then 1
  else if !s.imgSigned b then 2
  else if imgSvn b < s.rollbackCount then 3
  else 0

/-- Compatible on interface k (R513). -/
def epochOk (k : Nat) (a b : List Byte) : Bool := imgMinEpoch k b ≤ imgEpoch k a && imgMinEpoch k a ≤ imgEpoch k b

/-- The interface at which two engines meet (Table 20.5). -/
def interfaceOf (a b : Nat) : Option Nat :=
  match min a b, max a b with
  | 0, 1 => some 0
  | 0, 2 => some 1
  | 0, 3 => some 2
  | _, _ => none

/-- An image takes part in interface k: its EPOCH there is not 0 (Table 20.2). -/
def takesPart (k : Nat) (a : List Byte) : Bool := imgEpoch k a != 0

/-- Two running images are compatible on every interface both take part in (R513). -/
def pairOk (a b : List Byte) : Bool :=
  match interfaceOf (leAt 4 1 a) (leAt 4 1 b) with
  | some k => !takesPart k a || !takesPart k b || epochOk k a b
  | none => true

/-- An image lists an engine and version in its TESTED entries. -/
def lists (a b : List Byte) : Bool :=
  (upTo (min 32 (leAt 56 1 a))).any fun k => leAt (64 + 8 * k) 1 a == leAt 4 1 b && leAt (68 + 8 * k) 4 a == imgVersion b

/-- A pair of running images is tested (R514). -/
def pairTested (a b : List Byte) : Bool :=
  lists a b || lists b a || (leAt 4 1 a == leAt 4 1 b && imgVersion a == imgVersion b)

/-- Unordered pairs of a list. -/
def pairsOf {α : Type} : List α → List (α × α)
  | [] => []
  | a :: as => as.map (fun b => (a, b)) ++ pairsOf as

/-- The image copy that an instance runs. -/
def State.runningImage (s : State) (i : Nat) : List Byte := s.image (engineOf i) (nth s.upd.running i 0)

/-- The images that run now; two of Woeri while its cores change over (R520). -/
def State.runningImages (s : State) : List (List Byte) :=
  ((upTo 5).filter fun i => !nth s.upd.stopped i false).map (fun i => s.runningImage i)
    ++ match s.upd.act with
      | some a => if a.inst == 1 && a.phase == 2 then [s.image 1 a.copy] else []
      | none => []

/-- Untested pairs of a set of images (R514). -/
def untestedPairs (bs : List (List Byte)) : Nat := ((pairsOf bs).filter fun p => !pairTested p.1 p.2).length

/-- UNTESTED counted anew, with EV186 when it changes (R514). -/
def State.noteTested (s : State) : State :=
  let n := untestedPairs s.runningImages
  let now := n != 0
  let was := s.upd.untested
  let s : State := { s with upd := { s.upd with untested := now, pairs := n } }
  s.raiseIf (now != was) 186 (256 * b2n now + 512 * (n % 128))

/-- A package's EPOCH is accepted by a Woeri image (R513). -/
def packageOk (woeri pkg : List Byte) : Bool := imgMinEpoch 4 woeri ≤ leAt 12 4 pkg && leAt 12 4 pkg ≤ imgEpoch 4 woeri

/-! ### Access control units (R494 to R503) -/

/-- The masters with caches and store buffers, M0 to M8 (R497, R498). -/
def coreMaster (m : Nat) : Bool := m ≤ 8

def State.acu (s : State) (m : Nat) : AcuSt := nth s.trust.acus m .init
def State.setAcu (s : State) (m : Nat) (a : AcuSt) : State := { s with trust := { s.trust with acus := put s.trust.acus m a } }

/-- Whether a region covers an address (R496). -/
def Region.covers (r : Region) (a : Nat) : Bool :=
  r.valid && r.base.toNat ≤ a / 4096 && a / 4096 ≤ r.limit.toNat

/-- Whether a region permits an access of a kind: 0 read, 1 write, 2 fetch. -/
def Region.permits (r : Region) (k : Nat) : Bool := if k == 0 then r.read else if k == 1 then r.write else r.exec

/-- The decision on an access (R496): allowed or denied, CACHE, ORDER relaxed, and the deciding region (0xFE a locked ceiling,
0xFF none). -/
structure Verdict where
  allow   : Bool
  cache   : Nat
  relaxed : Bool
  region  : Nat
  deriving DecidableEq, Repr

/-- NOMATCH as applied to a master (R496, R505, R503). -/
def State.nomatchAllow (s : State) (m : Nat) : Bool := bitAt (s.cv Fld.NOMATCH_MASK) m && openLc s.lifecycle

/-- The decision function of R496. -/
def State.acuCheck (s : State) (m k a : Nat) (debug : Bool) : Verdict :=
  let rs := (s.acu m).regions
  if rs.any fun r => r.lock && r.covers a && (!r.permits k || (debug && r.nodebug)) then ⟨false, 0, false, 0xFE⟩
  else
    match rs.findIdx? fun r => r.covers a with
    | some j =>
      let r := nth rs j .init
      if debug && r.nodebug then ⟨false, 0, false, j⟩
      else if r.permits k then ⟨true, r.cache.toNat, r.relaxed, j⟩
      else ⟨false, 0, r.relaxed, j⟩
    | none => if s.nomatchAllow m then ⟨true, 0, false, 0xFF⟩ else ⟨false, 0, false, 0xFF⟩

/-- A denial logged and counted, with EV179 once for the tick (R500); `notice` is the instance whose imprecise notice is posted
(R498). -/
def State.deny (s : State) (m a kind region : Nat) (debug : Bool) (notice : Option Nat) (tick : Word)
    (slot : Nat) : State :=
  let u := s.acu m
  let kd := kind % 4 + 4 * b2n debug + 8 * b2n notice.isSome + 16 * b2n (region == 0xFF) + 32 * b2n u.epoch
  let e : AcuLog := ⟨a, tick, slot, kd, region⟩
  let u : AcuSt := { u with
    denials := satAdd 32 u.denials 1, log := (e :: u.log).take 16, now := u.now + 1, first := if u.now == 0 then kd % 16 else u.first
    notices := u.notices ++ notice.toList }
  s.setAcu m u

/-- EV179 of each ACU that has denied in the tick that ends: KIND of its first denial and their number (R500). -/
def State.acuEvents (s : State) : State :=
  (upTo 16).foldl (fun (s : State) m =>
    let u := s.acu m
    if u.now == 0 then s
    else (s.setAcu m { u with now := 0, first := 0 }).raise 179 (m + 16 * u.first + 65536 * min 65535 u.now)) s

end Sys2Proof.Machine
end

