-- ==== Sys2Proof/Machine/CfgOps.lean ====
section
/-! DEFINITION. Configuration records (spec/04): framing, signatures, the checks of Table 4.9, the layers and the clamp report, and
what a changed applied value does at once. -/

namespace Sys2Proof.Machine

/-! ### Framing (R83 to R87, Table 4.3) -/

/-- A record of a set: its position, TYPE, SCHEMA, entries, bytes, the bytes its digest covers, and its signature field's
content; `bad` a framing error. -/
structure CfgRec where
  index  : Nat
  ty     : Nat
  schema : Nat
  fields : List (Nat × List Byte)
  bytes  : List Byte
  body   : List Byte
  sig    : Option (List Byte)
  bad    : Bool
  deriving DecidableEq, Repr

/-- Bytes of a value by its identifier (Table 4.2); none for a counted one. -/
def fieldSize (id : Nat) : Option Nat :=
  if id / 16384 == 0 then some 4 else if id / 16384 == 1 then some 8 else if id / 16384 == 2 then some 16 else none

/-- The entries of a record after its header: the entries, what stands before the signature field, its content, and whether an
entry runs past the end or follows the signature. A counted field of any count is read as the number its bytes spell (its field table
gives 24 bytes; DESIGN CHOICE, log entry 34). -/
def parseFields : Nat → List Byte → List (Nat × List Byte) × List Byte × Option (List Byte) × Bool
  | 0, _ => ([], [], none, true)
  | fuel + 1, bs =>
    if bs.isEmpty then ([], [], none, false)
    else if bs.length < 2 then ([], [], none, true)
    else
      let id := leAt 0 2 bs
      let (start, n) := match fieldSize id with
        | some k => (2, k)
        | none => (4, leAt 2 2 bs)
      if bs.length < start + n then ([], [], none, true)
      else
        let value := slice start n bs
        let rest := bs.drop (start + n)
        if id == 0xFFFF then ([], [], some value, !rest.isEmpty)
        else
          let (fs, before, sig, bad) := parseFields fuel rest
          ((id, value) :: fs, bs.take (start + n) ++ before, sig, bad)

/-- One record whose LENGTH lies within the set (R85). -/
def parseRec (index : Nat) (bs : List Byte) : CfgRec :=
  let ty := leAt 0 2 bs
  let (fs, before, sig, bad) := parseFields (bs.length + 1) (bs.drop 8)
  { index := index, ty := ty, schema := leAt 4 4 bs, fields := fs, bytes := bs, body := bs.take 8 ++ before, sig := sig,
    bad := bad || ty == 0 || ty == 0xFFFF }

/-- A record set (R83, R85): a LENGTH that runs past the end rejects its record and the rest of the set; a LENGTH below 8 rejects that
record only, and the next begins after its 8 header bytes (DESIGN CHOICE, log entry 34). -/
def parseSet : Nat → Nat → List Byte → List CfgRec
  | 0, _, _ => []
  | fuel + 1, index, bs =>
    if bs.isEmpty then []
    else
      let n := leAt 2 2 bs
      let broken : CfgRec :=
        { index := index, ty := leAt 0 2 bs, schema := leAt 4 4 bs, fields := [], bytes := bs, body := [], sig := none, bad := true }
      if bs.length < 8 || bs.length < n then [broken]
      else if n < 8 then broken :: parseSet fuel (index + 1) (bs.drop 8)
      else parseRec index (bs.take n) :: parseSet fuel (index + 1) (bs.drop n)

/-! ### Signatures (R88 to R90, Table 4.4) -/

/-- The algorithm of a signature that verifies against a configuration key (class 4). -/
def State.cfgSigned (s : State) (r : CfgRec) (f : List Byte) : Option Nat :=
  let alg := leAt 0 1 f
  let digest := sha384 r.body
  let kid := leAt 2 4 f
  if alg == 1 && f.length == 102 && s.ecdsaBy kid 4 digest (slice 6 96 f) then some 1
  else if alg == 2 && f.length == 3411 && s.bothBy kid 4 digest (slice 6 96 f) (slice 102 3309 f) then some 2
  else none

/-- The signature check of a record in a layer: none when it fails, else its ALG, 0 for an unsigned record (R89). -/
def State.cfgVerify (s : State) (store : Bool) (r : CfgRec) : Option Nat :=
  let lc := s.lifecycle
  match r.sig with
  | some f => (s.cfgSigned r f).bind fun a => if lc == 3 && a == 1 then none else some a
  | none => if store && (lc == 2 || lc == 3) then none else some 0

/-- A record may change sealed fields (Table 4.4). -/
def State.maySeal (s : State) (layer alg : Nat) : Bool :=
  let lc := s.lifecycle
  openLc lc || (layer != 2 && ((lc == 2 && 1 ≤ alg) || (lc == 3 && alg == 2)))

/-! ### Checks (R95 to R98) -/

/-- How often a buffer field counts (R189). -/
def switchMult (id : Nat) : Nat := if 0x09 ≤ id && id ≤ 0x10 then 10 else 2

/-- The upper bound that the buffer budget leaves a field of `REC_SWITCH` (R189). -/
def State.switchBound (s : State) (id : Nat) : Nat :=
  let others := total ((fieldsSwitch.filter fun f => f.id ≤ 0x11 && f.id != id).map fun f => switchMult f.id * s.applied f)
  (32768 - 4096 - others) / switchMult id

/-- Step 2 of Table 4.9: the value after the range or the set, and the reason of Table 4.8 (0 none); HOLD_REGION_MIB leaves SVC 512 MiB of
the usable capacity (R372). -/
def State.cfgRange (s : State) (f : FieldDef) (v : Nat) : Nat × Nat :=
  let bound (lo hi : Nat) : Nat × Nat := if v < lo then (lo, 1) else if hi < v then (hi, 2) else (v, 0)
  match f.rng with
  | .bound lo hi => if f.ty == 0x12 && f.id ≤ 0x11 then bound lo (max lo (min hi (s.switchBound f.id))) else bound lo hi
  | .grade => bound 60 (if s.grade then 105 else 95)
  | .oneOf vs => if vs.contains v then (v, 0) else (s.fldDefault f, 3)
  | .nibbles =>
    if v < 65536 && [0, 4, 8, 12].all fun k => fieldAt v k 4 ≤ 3 || fieldAt v k 4 == 15 then (v, 0) else (s.fldDefault f, 3)
  | .hold => if 1 ≤ v && v ≤ 127 then (128, 1) else bound 0 (min 8192 (s.mem.gib * 1024 * 7 / 8 - (80 + s.applied Fld.REPLAY_RING_MIB + 512)))
  | .any => (v, 0)

/-- Step 3: the role's ends and the fallback DPX (R13, Table 4.10). -/
def State.cfgConflict (s : State) (f : FieldDef) (v : Nat) : Nat :=
  if f.ty == 0x01 && 0x10 ≤ f.id && f.id ≤ 0x16 then
    (if endPermitted s.topo.role (f.id - 0x10) v then v else endDefault s.topo.role (f.id - 0x10))
  else if f == Fld.FALLBACK_DPX_CP1 then (if v != 15 && v == s.layered Fld.FALLBACK_DPX_CP0 then 15 else v)
  else v

/-- A value written into a layer: 0 to 2 the override layers, 3 STORE. -/
def State.writeField (s : State) (layer port ty id v : Nat) : State :=
  if layer < 3 then
    { s with cfg := { s.cfg with
      ovr := (s.cfg.ovr.filter fun o => !(o.layer == layer && o.ty == ty && o.id == id)) ++ [⟨layer, ty, id, v, port⟩] } }
  else
    { s with cfg := { s.cfg with store := s.cfg.store.map fun r =>
      if r.ty == ty then { r with vals := (r.vals.filter fun x => x.id != id) ++ [⟨ty, id, v⟩] } else r } }

/-- One given field: where it stood, what was given, and its reason so far. -/
structure Given where
  pos    : Nat
  index  : Nat
  ty     : Nat
  id     : Nat
  given  : Nat
  reason : Nat
  deriving DecidableEq, Repr

/-- A given field resolved and written (Table 4.9). -/
def State.resolveField (s : State) (layer port : Nat) (sealOk : Bool) (ty id v : Nat) : Nat × State :=
  match fieldOf? ty id with
  | none => (4, s)
  | some f =>
    if f.sealed && !sealOk then (6, s)
    else
      let (w, r) := s.cfgRange f v
      let x := s.cfgConflict f w
      let held := match s.cfg.highest ty id with
        | some (l, _) => l < layer
        | none => false
      (if held || x != w then 5 else r, s.writeField layer port ty id x)

/-- Insertion of an entry by identifier: the fields of `REC_SWITCH` are checked in ascending order (R189). -/
def insertById (x : Nat × Nat × List Byte) : List (Nat × Nat × List Byte) → List (Nat × Nat × List Byte)
  | [] => [x]
  | y :: ys => if x.2.1 ≤ y.2.1 then x :: y :: ys else y :: insertById x ys

/-- Insertion of a given field by its place in the set. -/
def insertByPos (x : Given) : List Given → List Given
  | [] => [x]
  | y :: ys => if x.pos < y.pos then x :: y :: ys else y :: insertByPos x ys

/-- What the fields of one accepted record come to. -/
def State.checkRecord (s : State) (layer port base : Nat) (sealOk : Bool) (r : CfgRec) : List Given × State :=
  let es := (r.fields.zipIdx).map fun (f, i) => (base + i, f.1, f.2)
  let es := if r.ty == 0x12 then es.foldr insertById [] else es
  es.foldl (fun (acc : List Given × State) e =>
    let (gs, s) := acc
    let v := leNat e.2.2
    let (reason, s) := s.resolveField layer port sealOk r.ty e.2.1 v
    (insertByPos { pos := e.1, index := r.index, ty := r.ty, id := e.2.1, given := v, reason := reason } gs, s)) ([], s)

/-- What an apply of a set comes to: records accepted and rejected (with the cause of EV001), the state with the layer written, the
report, whether an applied value changed, and whether a newer schema was seen. -/
structure ApplyAns where
  applied  : List CfgRec
  rejected : List (CfgRec × Nat)
  st       : State
  report   : List RepEntry
  changed  : Bool
  newer    : Bool

/-- The report entries of the given fields (R86, R95 to R97). An earlier occurrence in the same record is reported with
CONFLICT_RESOLVED, and so is a field that a later record gives and may change; an unknown field of an earlier record, and one that the
seal refused there, keep the reasons of their own record (DESIGN CHOICE, log entry 34). -/
def State.cfgReport (s : State) (layer : Nat) : List Given → List RepEntry
  | [] => []
  | g :: rest =>
    let twice := rest.any fun x => x.ty == g.ty && x.id == g.id && x.index == g.index
    let later := g.reason != 4 && g.reason != 6 && rest.any fun x => x.ty == g.ty && x.id == g.id && x.reason != 6
    let now := match fieldOf? g.ty g.id with
      | some f => s.applied f
      | none => 0
    let reason := if twice || later then 5 else if g.reason == 4 then 4 else if g.reason == 6 then 6
      else if now == g.given then 0 else if g.reason == 0 then 5 else g.reason
    let more := s.cfgReport layer rest
    if reason == 0 then more
    else
      { ty := g.ty, field := g.id, given := g.given % 2 ^ 32, applied := if reason == 4 then 0 else now % 2 ^ 32, reason := reason,
        layer := layer, index := g.index } :: more

/-- The schema version that the firmware implements (DESIGN CHOICE, log entry 34). -/
def schemaMajor : Nat := 1

/-- A set framed, verified, checked and written into a layer (R95). -/
def State.applySet (s : State) (layer port : Nat) (set : List Byte) : ApplyAns :=
  let store := layer == 3
  let recs := parseSet (set.length + 1) 0 set
  let judged := recs.map fun r => (r, if r.bad then none else s.cfgVerify store r)
  let good := judged.filterMap fun (r, a) => a.map fun a => (r, a)
  let bad := judged.filterMap fun (r, a) => if a.isNone then some (r, if r.bad then 1 else 2) else none
  let (gs, t, _) := good.foldl (fun (acc : List Given × State × Nat) x =>
    let (gs, t, base) := acc
    let (r, a) := x
    let t : State := if store then { t with cfg := { t.cfg with
        store := (t.cfg.store.filter fun y => y.ty != r.ty) ++ [⟨r.ty, r.bytes, []⟩] } } else t
    let (more, t) := t.checkRecord layer port base (s.maySeal layer a) r
    (gs ++ more, t, base + r.fields.length)) ([], s, 0)
  { applied := good.map (·.1), rejected := bad, st := t, report := t.cfgReport layer gs
    changed := fieldTable.any fun f => s.applied f != t.applied f
    newer := good.any fun (r, _) => schemaMajor < r.schema / 65536 }

/-! ### What a changed value does at once (R14, R142) -/

/-- Switch ports of an adapter end: 0 to 3 DPA, 4 PCIE, 5 USB, 6 NET. -/
def endPorts (k : Nat) : List Nat := if k < 4 then [2 + k] else if k == 4 then [6, 7] else if k == 5 then [8] else [9]

/-- An open path holds one of an adapter's ports (R14): one in setup or already closed is none. -/
def State.endBusy (s : State) (k : Nat) : Bool :=
  let ps := endPorts k
  (s.cable.paths.any fun r => r.phase == 1 && (ps.contains r.src || (r.hops == 0 && ps.contains r.dst)))
    || ([0, 1].any fun p => (s.link p).table.any fun e => ps.contains e.egress)

/-- An adapter's end as it takes effect: a display transceiver and the PCI Express links start anew. -/
def State.setEndTo (s : State) (k v : Nat) : State :=
  let s : State := { s with topo := { s.topo with ends := put s.topo.ends k v, deferred := put s.topo.deferred k none } }
  if k < 4 then s.setDpx k fun _ => .init
  else if k == 4 then
    { s with pcie := { PcieSt.init with links := s.pcie.links.map fun l => { l with state := 0, present := false } } }
  else s

/-- The applied ends take effect at once, or wait for the adapter's last path (R14). -/
def State.takeEnds (s : State) : State :=
  [0, 1, 2, 3, 4, 5, 6].foldl (fun s k =>
    match fieldOf? 0x01 (0x10 + k) with
    | none => s
    | some f =>
      let v := s.applied f
      if v == nth s.topo.ends k 0 then { s with topo := { s.topo with deferred := put s.topo.deferred k none } }
      else if s.endBusy k then { s with topo := { s.topo with deferred := put s.topo.deferred k (some v) } }
      else s.setEndTo k v) s

/-- Applied values have changed: adapter ends and lane masks act at once, the other fields when their units take them. -/
def State.cfgEffects (s : State) : State :=
  if s.topo.role == .none then s else (((s.takeEnds).maskLanes 0).maskLanes 1)

/-- An override layer withdrawn, whole or for one record type; PEER for one cable port only (R91). -/
def State.withdraw (s : State) (layer : Nat) (which : OverVal → Bool) : State :=
  ({ s with cfg := { s.cfg with ovr := s.cfg.ovr.filter fun o => !(o.layer == layer && which o) } }).cfgEffects

/-- The STORE layer as a record set (Table 4.6). -/
def State.storeSet (s : State) : List Byte := s.cfg.store.flatMap (·.bytes)

/-- A copy is valid (R93): its MAGIC, a GEN that marks it non-empty, a SIZE in range and the CRC of its set. -/
def CfgCopy.ok (c : CfgCopy) : Bool :=
  c.magic == 0x4C434652 && c.gen != 0 && c.gen != 0xFFFFFFFF && c.size ≤ 262128 && crc32 (c.set.take c.size) == c.crc

/-- A copy as a commit writes it (Table 4.6). -/
def CfgCopy.made (gen : Nat) (set : List Byte) : CfgCopy := ⟨0x4C434652, gen, set.length, crc32 set, set⟩

/-- The record set of a copy. -/
def CfgCopy.records (c : CfgCopy) : List Byte := c.set.take c.size

/-- The flash copy that governs: the valid one with the higher GEN, CFG_A on a tie (R93). -/
def FlashSt.governing (f : FlashSt) : Option CfgCopy :=
  let a := nth f.cfg 0 .init
  let b := nth f.cfg 1 .init
  if a.ok && (!b.ok || b.gen ≤ a.gen) then some a else if b.ok then some b else none

/-- The layer that a channel writes (Table 4.5); none for the command gate (log entry 34). -/
def chanLayer : Chan → Option Nat
  | .loc => some 0
  | .dbg => some 0
  | .tun => some 1
  | .peer => some 2
  | .gate => none

/-- The role that a value of DEVICE_ROLE names (R12). -/
def roleOf (v : Nat) : Role := if v == 0 then .hostside else if v == 1 then .dockside else .relay

/-- The record set of the flash store applied at boot (R93), with its events: rejected records, no valid copy, the STORE layer
applied. The ends are judged by the role that the set gives. -/
def State.bootStore (s : State) : State :=
  match s.upd.flash.governing with
  | none => s.raise 1 (0xFFFF + 3 * 65536)
  | some c =>
    let first := (s.applySet 3 0 c.records).st
    let role := roleOf (first.applied Fld.DEVICE_ROLE)
    let a := ({ s with topo := { s.topo with role := role } } : State).applySet 3 0 c.records
    let t := ({ a.st with topo := s.topo } : State).spore 9 0 (sha384 c.records)
    let t := a.rejected.foldl (fun t x => t.raise 1 (x.1.index % 65536 + 65536 * x.2)) t
    t.raise 3 (a.applied.length % 256 + 256 * b2n a.newer + 512 * 3)

/-- A role taken: the depth, the adapter ends and the lane masks that follow from it (R12, R18). -/
def State.takeRole (s : State) (role : Role) : State :=
  let s : State := { s with topo := { s.topo with role := role, depth := if role == .hostside then 0 else 15 } }
  let s : State := { s with topo := { s.topo with
    ends := (upTo 7).map fun k => match fieldOf? 0x01 (0x10 + k) with
      | some f => s.applied f
      | none => 0
    deferred := List.replicate 7 none } }
  (s.maskLanes 0).maskLanes 1

/-- DEVICE_ROLE as the next system reset will apply it (Table 22.3): the override layers will be gone, and the flash store gives the STORE
layer (Table 4.5, R92). -/
def State.nextRole (s : State) : Nat :=
  let clear : State := { s with cfg := .init }
  match s.upd.flash.governing with
  | some c => (clear.applySet 3 0 c.records).st.applied Fld.DEVICE_ROLE
  | none => clear.applied Fld.DEVICE_ROLE

/-- DEVICE_ROLE applied at a system reset (R12), and the fields in force taken; EV008 (R26). -/
def State.applyRole (s : State) : State :=
  let v := s.applied Fld.DEVICE_ROLE
  let s : State := { s with topo := { s.topo with role := roleOf v }, cfg := { s.cfg with roleApplied := v } }
  (((s.takeForce .reset).takeForce .tick).raise 8 0).takeRole (roleOf v)

end Sys2Proof.Machine
end

