-- ==== Sys2Proof/Machine/PcieOps.lean ====
section
/-! DEFINITION. PCI Express tunnels (spec/10): links, ends of bridges' paths, credits and order, suspension, Surprise Down,
binding. An end is a bridge, 1 to 15, at the HOSTSIDE hub, or 16 + DP at the other. -/

namespace Sys2Proof.Machine

/-! ### Ends and links -/

def State.pcEnd (s : State) (e : Nat) : PciEnd :=
  if e < 16 then nth s.pcie.bridges e .init else nth s.pcie.ports (e - 16) .init

def State.setEnd (s : State) (e : Nat) (f : PciEnd → PciEnd) : State :=
  if e < 16 then { s with pcie := { s.pcie with bridges := s.pcie.bridges.modify e f } }
  else { s with pcie := { s.pcie with ports := s.pcie.ports.modify (e - 16) f } }

/-- The physical link of an end: UP for a bridge, DP0 to DP3 (1 to 4) for a port. -/
def endLink (e : Nat) : Nat := if e < 16 then 0 else e - 15

/-- Egress buffer bytes of DP k (R267). -/
def State.dpBuffer (s : State) (k : Nat) : Nat :=
  if s.dpWidth k == 8 then 2097152
  else
    let mine := (upTo 4).filter fun i => s.dpPort i == s.dpPort k
    1048576 * s.dpWidth k / max 1 (total (mine.map s.dpWidth))

/-- The width of the port that a bridge is bound to, as its mirrored Link Capabilities give it; 4 until they are known (DESIGN
CHOICE, log entry 24). -/
def PciEnd.portWidth (e : PciEnd) : Nat := let w := fieldAt e.lnkCap.toNat 4 6; if w == 0 then 4 else w

/-- An end's share of egress buffer: of a bridge, in proportion to the widths of the ports bound (R267). -/
def State.endShare (s : State) (e : Nat) : Nat :=
  if e < 16 then
    let all := total ((s.pcie.bridges.filter fun b => b.state != 0).map (·.portWidth))
    2097152 * (s.pcEnd e).portWidth / max 1 all
  else s.dpBuffer (e - 16)

/-- Bytes of a partition: P 7/16, NP 2/16, CPL 7/16 (R267). -/
def partShare (share fc : Nat) : Nat := share * (if fc == 1 then 2 else 7) / 16

/-- The initial limits of an end (R274): headers share / 256, data share / 64. -/
def State.initLimits (s : State) (e : Nat) : List Nat :=
  [0, 1, 2].flatMap fun fc => let p := partShare (s.endShare e) fc; [p / 256, p / 64]

/-- Data credits of a TLP: 64 bytes each (R274). -/
def dataCredits (t : Tlp) : Nat := ceilDiv t.data 64

/-- The data of a TLP: what follows the header of 12 bytes, or 16 where bit 5 of the first byte says so (PRESUMED, log entry 24). -/
def tlpData (t : Tlp) : List Byte := (t.bytes.drop (if (t.bytes.headD 0).getLsbD 5 then 16 else 12)).take t.data

/-- A completion without data that the hub makes (PRESUMED layout, log entry 24). -/
def cplTlp (completer rid tag status : Nat) : Tlp where
  fc := 2
  route := 1
  target := rid
  rid := rid
  tag := tag
  data := 0
  len := 0
  ends := true
  bad := false
  pmeOff := false
  pmeAck := false
  bytes := beBytes 1 0x0A ++ beBytes 1 (tag / 512 % 2 * 128 + tag / 256 % 2 * 8) ++ beBytes 2 0 ++ beBytes 2 completer
    ++ beBytes 2 (status * 8192) ++ beBytes 2 rid ++ beBytes 1 tag ++ beBytes 1 0

/-- Credit left under the window rule (R154, R274). -/
def creditLeft (limit used : Nat) : Nat := let d := (limit + 65536 - used) % 65536; if d ≤ 32767 then d else 0

/-- An end may send a TLP into its path (R275, R279). -/
def PciEnd.maySend (e : PciEnd) (t : Tlp) : Bool :=
  let h := 2 * t.fc
  1 ≤ creditLeft (nth e.limits h 0) (nth e.used h 0)
    && dataCredits t ≤ creditLeft (nth e.limits (h + 1) 0) (nth e.used (h + 1) 0)
    && (t.fc != 1 || e.table.length < 1024)

/-- A frame of an end's path: 8 bytes of header (Table 10.5) and the content. -/
def tunnelHeader (typ fc len bridge : Nat) : List Byte :=
  beBytes 8 (typ * 2 ^ 61 + fc * 2 ^ 59 + len % 2048 * 2 ^ 48 + bridge % 16 * 2 ^ 44)

/-- An end's path is up: its entry on the cable is not suspended. -/
def State.endPathUp (s : State) (e : Nat) : Bool :=
  let x := s.pcEnd e
  let place := if e < 16 then (x.path.bind s.pathById).bind (fun r => r.port.map fun p => (p, r.label)) else some (x.inPort, x.label)
  match place with
  | some (p, label) =>
    (match (s.link p).entry label with
    | some en => !en.suspended
    | none => false)
  | none => false

/-- A frame goes into an end's path: while the end is up, or after Surprise Down while its path is; RESUME as the path resumes. -/
def State.sendFrame (s : State) (e typ fc : Nat) (body : List Byte) : State :=
  let x := s.pcEnd e
  let b := if e < 16 then e else x.bridge
  if x.state == 1 || ((x.state == 3 || typ == 4) && s.endPathUp e) then
    s.emit (.pcieFrame e typ fc (dataCells x.label 4 (tunnelHeader typ fc body.length b ++ body)))
  else s

/-- CREDIT with the limits granted (R273). -/
def State.sendPcCredit (s : State) (e : Nat) : State :=
  let g := (s.pcEnd e).granted
  (s.setEnd e fun x => { x with freed := [0, 0, 0, 0, 0, 0] }).sendFrame e 1 0 (g.flatMap (beBytes 2) ++ zeros 4)

/-! ### Egress (R274, R276) -/

/-- Credits that TLPs waiting at an end occupy, headers then data of P, NP and CPL. -/
def egressUse (l : List Tlp) : List Nat :=
  [0, 1, 2].flatMap fun fc => let m := l.filter fun t => t.fc == fc; [m.length, total (m.map dataCredits)]

/-- TLPs that an end's egress buffer holds: those for its link, and those on their way to another bridge. -/
def State.egressOf (s : State) (e : Nat) : List Tlp :=
  (s.pcEnd e).egress ++ (upTo 16).flatMap fun b => ((s.pcEnd b).held.filter fun h => h.origin == some e).map (·.tlp)

/-- The limits an end may grant: what has arrived plus the room left in its share, never less than it has granted (R267, R274). -/
def State.grantLimits (s : State) (e : Nat) : List Nat :=
  let x := s.pcEnd e
  let room := (s.initLimits e).zip (egressUse (s.egressOf e))
  (room.zip (x.got.zip x.granted)).map fun ((share, occ), (got, granted)) =>
    let out := (granted + 65536 - got) % 65536
    (granted + (share - occ - out)) % 65536

/-- The division of the buffer recomputed (R267): each end's grant follows its share. -/
def State.regrant (s : State) (e : Nat) : State :=
  let g := s.grantLimits e
  if (s.pcEnd e).state == 0 || g == (s.pcEnd e).granted then s
  else (s.setEnd e fun x => { x with granted := g }).sendPcCredit e

/-- Egress space freed by a TLP that went out; CREDIT when a partition has freed 1/8 of its share (R274). -/
def State.freeEgress (s : State) (e : Nat) (t : Tlp) : State :=
  let h := 2 * t.fc
  let share := partShare (s.endShare e) t.fc
  let g := s.grantLimits e
  let s := s.setEnd e fun x => { x with
    granted := g, freed := (x.freed.modify h (· + 1)).modify (h + 1) (· + dataCredits t) }
  if share ≤ 8 * 64 * nth (s.pcEnd e).freed (h + 1) 0 || share ≤ 8 * 256 * nth (s.pcEnd e).freed h 0 then s.sendPcCredit e else s

/-! ### Ingress (R275, R276, R279) -/

/-- A TLP sent into the path: its credits used, its request noted, and the link partner's credits returned, or its place in the
buffer it came from (R275, R276, R279). -/
def State.sendTlp (s : State) (e : Nat) (w : PciHeld) : State :=
  let t := w.tlp
  let h := 2 * t.fc
  let s := s.setEnd e fun x => { x with
    used := (x.used.modify h fun u => (u + 1) % 65536).modify (h + 1) fun u => (u + dataCredits t) % 65536
    table := if t.fc == 1 then x.table ++ [⟨t.rid, t.tag, s.time.tick⟩] else x.table }
  let s := s.sendFrame e 0 t.fc t.bytes
  match w.origin with
  | some o => s.freeEgress o t
  | none => s.emit (.linkCredits (endLink e) t.fc (dataCredits t))

/-- A TLP that waits keeps back the later ones that may not pass it (R276): types P, NP and CPL blocked so far. -/
def mayPass (blocked : List Nat) (fc : Nat) : Bool :=
  !blocked.contains 0 && (fc == 0 || !blocked.contains fc && (fc == 2 || !blocked.contains 2))

/-- What is held sent in order as far as credit and order let it: `done` is not looked at again, `blocked` the types kept back. -/
def State.pumpFrom (e : Nat) : List PciHeld → List PciHeld → List Nat → State → State
  | [], left, _, s => s.setEnd e fun x => { x with held := left }
  | w :: l, left, blocked, s =>
    if mayPass blocked w.tlp.fc && (s.pcEnd e).maySend w.tlp then
      State.pumpFrom e l left blocked ((s.setEnd e fun x => { x with held := left ++ l }).sendTlp e w)
    else State.pumpFrom e l (left ++ [w]) (w.tlp.fc :: blocked) s

/-- The TLPs held at an end sent as far as credit and order let them (R275, R276). -/
def State.pump (s : State) (e : Nat) : State :=
  if (s.pcEnd e).state != 1 then s else State.pumpFrom e (s.pcEnd e).held [] [] s

/-- The bay that PCIE_BAY_MAP gives a port, and the port that it gives a bay (Table 10.7). -/
def State.bayOfDp (s : State) (k : Nat) : Option Nat :=
  let b := fieldAt (s.cv Fld.PCIE_BAY_MAP) (4 * k) 4
  if b < 4 then some b else none

def State.dpOfBay (s : State) (b : Nat) : Option Nat := [0, 1, 2, 3].find? fun k => s.bayOfDp k == some b

/-- A bay is seated: OFF or any later state (R452). -/
def BaySt.seated (b : BaySt) : Bool := b.state != .unseated && b.state != .seating

/-- Presence at a port: its bay's seated state, or the in-band presence (R284). -/
def State.dpPresent (s : State) (k : Nat) : Bool :=
  match s.bayOfDp k with
  | some b => (nth s.ppath.bays b .init).seated
  | none => (s.pcLink (k + 1)).present

/-- An end may put TLPs on its link: it is in L0 or L1, and the port's bay, where it has one, is seated (R285). -/
def State.linkOpen (s : State) (e : Nat) : Bool :=
  let l := (s.pcLink (endLink e)).state
  (l == 2 || l == 3) && (e < 16 || (s.bayOfDp (e - 16)).isNone || s.dpPresent (e - 16))

/-- TLPs that crossed the tunnel go out on the link while it is up (R276). -/
def State.drain (s : State) (e : Nat) : State :=
  let l := endLink e
  if !s.linkOpen e then s
  else
    let q := (s.pcEnd e).egress
    q.foldl (fun s t =>
      let s := s.setEnd e fun x => { x with egress := x.egress.drop 1 }
      let s := (s.emit (.tlp l t)).setPcLink l fun k => { k with tlpsOut := satAdd 64 k.tlpsOut 1 }
      let s := if t.fc == 1 then s.setEnd e fun x => { x with served := x.served ++ [⟨t.rid, t.tag, s.time.tick⟩] } else s
      s.freeEgress e t) s

/-! ### Suspension, resume, Surprise Down (R280 to R283) -/

/-- The Routing ID by which an end's bridge is known: of a port, as PORT_CTRL last gave it (R273). -/
def State.routingId (s : State) (e : Nat) : Nat :=
  if e < 16 then s.pcie.up.bus.2.1 % 256 * 256 + e * 8 else (s.pcEnd e).bus.1 * 256 + (s.pcEnd e).bridge * 8

/-- Outstanding requests of an end when its path or link is lost (R280, R285): Completer Abort for each under policy 0. -/
def State.loseRequests (s : State) (e : Nat) : State :=
  let x := s.pcEnd e
  let n := x.table.length
  let abort := s.cv Fld.CPL_LOSS_POLICY == 0 && 0 < n
  let s := if abort then x.table.foldl (fun s r => s.emit (.cpl (endLink e) (s.routingId e) r.rid r.tag 4 [])) s else s
  let s := s.setEnd e fun x => { x with
    table := [], synth := if abort then satAdd 32 x.synth n else x.synth, orphans := x.orphans ++ x.served, served := [] }
  let b := if e < 16 then e else x.bridge
  s.raiseIf abort 85 (b + 65536 * min 65535 n)

/-- A tunnel header says TLP and P (Table 10.5). -/
def postedHead (head : List Byte) : Bool := fieldAt (beNat (head.take 8)) 59 5 == 0

/-- A posted cell of a path is unacknowledged (R280): a cell belongs to the frame whose FIRST cell came last, the one of the oldest
cells perhaps acknowledged already. -/
def State.unackedPosted (s : State) (p label : Nat) : Bool :=
  match (s.link p).flow label with
  | none => false
  | some f =>
    (f.unacked.foldl (fun (acc : Bool × Bool) u =>
      let posted := if u.cell.first then postedHead u.cell.payload else acc.2
      (acc.1 || posted, posted)) (false, postedHead f.ackHead)).1

/-- An end's path becomes SUSPENDED (R280). -/
def State.suspendEnd (s : State) (e p label : Nat) : State :=
  let x := s.pcEnd e
  let s := s.setEnd e fun x => { x with
    state := 2, training := true, resume := none, suspAt := s.time.tick
    lostP := s.unackedPosted p label, lostNp := !x.table.isEmpty }
  if x.state == 1 then s.loseRequests e else s

/-- A TLP that goes no further leaves the buffer of the path it crossed. -/
def State.leaveBuffer (s : State) (w : PciHeld) : State :=
  match w.origin with
  | some o => s.freeEgress o w.tlp
  | none => s

/-- A request that a bridge refuses answered UR: on the upstream link, or into the path of the bridge it crossed (R272, R282). -/
def State.answerUr (s : State) (e : Nat) (w : PciHeld) : State :=
  let id := s.routingId e
  match w.origin with
  | none => s.emit (.cpl (endLink e) id w.tlp.rid w.tlp.tag 1 [])
  | some o => (s.setEnd o fun x => { x with held := x.held ++ [⟨cplTlp id w.tlp.rid w.tlp.tag 1, none⟩] }).pump o

/-- Held requests answered UR and held posted discarded (R282); the buffers that held them are free again. -/
def State.dropHeld (s : State) (e : Nat) : State :=
  let l := (s.pcEnd e).held
  let s := s.setEnd e fun x => { x with
    held := [], postedLost := satAdd 32 x.postedLost (l.filter fun w => w.tlp.fc == 0).length }
  let s := (l.filter fun w => w.tlp.fc == 1).foldl (fun s w => s.answerUr e w) s
  l.foldl (fun s w => s.leaveBuffer w) s

/-- Hot reset driven on a downstream link for 2 ms, what its device sent discarded (R282); a link held in PERST# stays down. -/
def State.hotResetPort (s : State) (k : Nat) : State :=
  let s := (s.setEnd (16 + k) fun x => { x with held := [], egress := [], served := [], table := [] }).emit (.hotReset (k + 1))
  s.setPcLink (k + 1) fun l => if l.perst then l else { l with state := 4, resetAt := s.time.tick }

/-- Surprise Down (R282); the AER bit is bit 5 of Uncorrectable Status as PCI Express places it (PRESUMED, log entry 24). -/
def State.surpriseDown (s : State) (e cause : Nat) : State :=
  if e < 16 then
    let s := s.dropHeld e
    let x := s.pcEnd e
    let s := s.setEnd e fun x => { x with
      state := 3, active := false, changed := true, aerUnc := x.aerUnc ||| 0x20, training := false }
    (s.emit (.errMsg e (if x.aerSev.getLsbD 5 then 2 else 1))).raise 84 (e + 16 * cause)
  else
    (s.setEnd e fun x => { x with state := 3, training := false }).hotResetPort (e - 16)

/-- An end's credits restart from their initial values and it is up (R281). -/
def State.restartEnd (s : State) (e : Nat) : State :=
  s.setEnd e fun x => { x with
    state := 1, training := false, used := [0, 0, 0, 0, 0, 0], limits := x.first, got := [0, 0, 0, 0, 0, 0], granted := x.gave,
    freed := [0, 0, 0, 0, 0, 0], resume := none, lostP := false, lostNp := false }

/-- The quiet hold of a suspended path in ticks: the lower of PCIE_HOLD_MS and PATH_HOLD_MS (R281). -/
def State.pcieHold (s : State) : Nat := msTicks (min (s.cv Fld.PCIE_HOLD_MS) (s.cv Fld.PATH_HOLD_MS))

/-- Both ends know of no loss: credits restart and held TLPs go; otherwise Surprise Down (R281). -/
def State.resumeEnd (s : State) (e : Nat) : State :=
  let x := s.pcEnd e
  match x.resume with
  | none => s
  | some far =>
    if x.state != 2 || !s.endPathUp e then s
    else if x.lostP || x.lostNp || far % 4 != 0 then s.surpriseDown e 0
    else
      (s.restartEnd e).pump e

/-! ### Mirrors (R272) -/

/-- Link Status of a port's link as PCI Express lays it out: speed [3:0], width [9:4], Link Training [11], Data Link Layer Link
Active [13] (PRESUMED, log entry 24). -/
def linkStatus (l : PciLink) : Nat :=
  (if l.state == 2 || l.state == 3 then l.rate + 16 * l.width + 8192 else 0) + (if l.state == 1 then 2048 else 0)

/-- Link Capabilities of a port: highest rate, configured width, ASPM L1, Surprise Down and Link Active reporting (R268; the places are
PRESUMED, log entry 24). -/
def State.linkCaps (s : State) (k : Nat) : Nat :=
  s.linkMaxRate (k + 1) + 16 * s.dpWidth k + 2048 * b2n (s.cv Fld.ASPM_L1SS != 0) + 2 ^ 19 + 2 ^ 20

/-- PORT_STATE of a bound port (R273), MSB first (R5); Slot Status has Presence Detect State in [6]. The error bits are those logged
since the last one (DESIGN CHOICE, log entry 24), so that an error that comes again is mirrored again. -/
def State.sendPortState (s : State) (k : Nat) : State :=
  let e := s.pcEnd (16 + k)
  let l := s.pcLink (k + 1)
  if e.state != 1 && !(e.state == 3 && s.endPathUp (16 + k)) then s
  else
    (s.sendFrame (16 + k) 2 0
      (beBytes 4 (s.linkCaps k) ++ beBytes 2 (linkStatus l) ++ beBytes 2 (64 * b2n (s.dpPresent k)) ++ beBytes 4 l.aerUnc.toNat
        ++ beBytes 4 l.aerCor.toNat)).setPcLink (k + 1) fun l => { l with aerUnc := 0, aerCor := 0 }

/-- A link trains, with the settings as they are now applied (R287). -/
def State.trainLink (s : State) (l : Nat) : State :=
  let s : State := { s with pcie := { s.pcie with
    bifur := if l == 0 then s.pcie.bifur else s.cv Fld.PCIE_BIFURCATION
    upWidth := if l == 0 then s.cv Fld.PCIE_UP_WIDTH else s.pcie.upWidth } }
  let s := (s.setPcLink l fun k => { k with state := 1, maxSpeed := s.cv Fld.PCIE_MAX_SPEED }).emit (.pcieTrain l)
  if l == 0 then s else s.sendPortState (l - 1)

/-- An end is up again after Surprise Down; the port tells its credits and its state (R282). -/
def State.comeBack (s : State) (e : Nat) : State :=
  let s := (s.restartEnd e).sendPcCredit e
  if e < 16 then s else s.sendPortState (e - 16)

/-- The path of an end resumes: within the hold RESUME goes out and the port tells its state (R281); after it the end takes Surprise
Down; and a port in Surprise Down whose link has reached L0 is up again (R282). -/
def State.pathResumed (s : State) (e : Nat) : State :=
  let x := s.pcEnd e
  if x.state == 2 then
    if s.passed x.suspAt s.pcieHold then s.surpriseDown e 1
    else
      let s := (s.sendFrame e 4 0 [BitVec.ofNat 8 (b2n x.lostP + 2 * b2n x.lostNp)]).resumeEnd e
      if e < 16 then s else s.sendPortState (e - 16)
  else if 16 ≤ e && x.state == 3 && (s.pcLink (endLink e)).state == 2 then s.comeBack e
  else s

/-! ### Binding (R271) -/

/-- The VSEC word (Table 10.4). -/
def PciEnd.vsec (e : PciEnd) : Nat :=
  if e.state == 0 then 0
  else 2 ^ 31 + b2n (e.state == 2) * 2 ^ 30 + e.hops % 8 * 2 ^ 27 + e.chain % 2 * 2 ^ 26 + e.dport % 4 * 2 ^ 24
    + e.contract % 4096 * 2 ^ 12 + e.label % 4096

/-- A bridge bound to its port: EV082, and the initial credits (R274). -/
def State.bridgeBound (s : State) (b label : Nat) : State :=
  let s := s.setEnd b fun x => { x with state := 1, label := label }
  let s := ((s.setEnd b fun x => { x with gave := s.initLimits b }).restartEnd b).raise 82 b
  let s := (upTo 16).foldl (fun s k => if k == b then s else s.regrant k) (s.sendPcCredit b)
  match (s.pcEnd b).job with
  | some (via, h) =>
    (s.setEnd b fun x => { x with job := none }).finish via h 0
      (leBytes 1 b ++ zeros 1 ++ leBytes 2 ((s.pcEnd b).path.getD 0) ++ leBytes 2 label)
  | none => s

/-- A bridge's registers at reset, its binding gone. -/
def State.clearBridge (s : State) (b : Nat) : State :=
  let x := s.pcEnd b
  s.setEnd b fun _ =>
    { PciEnd.init with
      synth := x.synth, orphaned := x.orphaned, postedLost := x.postedLost, bus := x.bus,
      memBase := x.memBase, memLimit := x.memLimit, cmd := x.cmd, aerUnc := x.aerUnc, aerSev := x.aerSev, changed := x.changed,
      presChg := x.presChg || x.presence }

/-- Presence Detect State of a bridge changes: EV088 (R284). -/
def State.setPresence (s : State) (b : Nat) (on : Bool) : State :=
  if (s.pcEnd b).presence == on then s
  else (s.setEnd b fun x => { x with presence := on, presChg := true }).raise 88 (b + 16 * b2n on)

/-- A binding ends (R271, R288): Surprise Down, then unbound with EV083; its contract goes at every hub. -/
def State.unbindBridge (s : State) (b cause : Nat) : State :=
  let x := s.pcEnd b
  if x.state == 0 then s
  else
    let s := if x.state == 3 then s else s.surpriseDown b cause
    let s := s.setPresence b false
    let s := if x.contract == 0 then s else (s.clearContract x.contract).sendClears x.chain x.hops [x.contract]
    ((upTo 16).foldl (fun s k => s.regrant k) (s.clearBridge b)).raise 83 (b + 16 * x.hops + 128 * x.chain + 256 * x.dport)

/-- A binding that could not be made: nothing of it stays, and the command completes (R271, R277). -/
def State.bindFailed (s : State) (b rc : Nat) (data : List Byte) : State :=
  let x := s.pcEnd b
  let s := match x.path with
    | some id => s.closePath id
    | none => s
  let s := if x.contract == 0 then s else (s.clearContract x.contract).sendClears x.chain x.hops [x.contract]
  let s := s.setEnd b fun _ => PciEnd.init
  match x.job with
  | some (via, h) => s.finish via h rc data
  | none => s.raise 83 (16 * x.hops + 128 * x.chain + 256 * x.dport)

/-- The switch port of a target DP: PXA0 for DP0 and PXA1 for the others, as in the default bifurcation; what the target hub has
applied is not told (DESIGN CHOICE, log entry 24). -/
def targetPxa (dp : Nat) : Nat := if dp == 0 then 6 else 7

/-- The path of a binding opened once its contracts stand (R271). -/
def State.bindNext (s : State) (b : Nat) : State :=
  let x := s.pcEnd b
  match x.path with
  | some _ => s
  | none =>
    let a := s.openPath (.pcie b) none 6 x.hops x.chain (targetPxa x.dport) 4 true x.contract
    if a.rc.bad then s.bindFailed b a.rc.code []
    else a.st.setEnd b fun x => { x with path := some a.id, label := a.label }

/-- What a bind answers: a result, a BUDGET test, the bridge and the state. -/
structure BindAns where
  rc : Rc
  test : Nat
  bridge : Nat
  st : State

/-- A bridge from 1 to 15 that is not bound and not being bound. -/
def State.freeBridge (s : State) : Option Nat :=
  ([1, 2, 3, 4, 5, 6, 7, 8, 9, 10, 11, 12, 13, 14, 15].find? fun b => (s.pcEnd b).state == 0 && (s.pcEnd b).hops == 0)

/-- A binding started (R271): contract here and ahead, then the path. -/
def State.bindBridge (s : State) (b hops chain dp along back cid : Nat) (job : Option (Via × Nat)) : BindAns :=
  let id := if along == 0 && back == 0 then 0 else if cid == 0 then 0xF00 + b else cid
  let port := (s.pathPort chain).getD 0
  if (s.pathPort chain).isNone then ⟨.badState, 0, b, s⟩
  else
    let c := s.mkContract id 4 0xFF 6 port along back 16
    let a : ContractAns := if id == 0 then ⟨.ok, 0, s⟩ else s.defineContract c false
    if a.rc != .ok then ⟨a.rc, a.test, b, s⟩
    else
      let s := a.st.setEnd b fun _ => { PciEnd.init with hops := hops, chain := chain, dport := dp, contract := id, job := job }
      if id == 0 then ⟨.ok, 0, b, s.bindNext b⟩ else ⟨.ok, 0, b, s.sendContracts (.contract 1 b) port hops [c]⟩

/-- A port of a target hub is bound already. -/
def State.targetBound (s : State) (hops chain dp : Nat) : Bool :=
  (s.pcie.bridges.any fun b => b.hops == hops && b.chain == chain && b.dport == dp && b.hops != 0)

/-- The hubs whose link is up and whose PCIE_END is DOWNSTREAM: chain CP0 then CP1, ascending depth (R271). -/
def State.pcieHubs (s : State) : List (Nat × Nat) :=
  [0, 1].flatMap fun p => (upTo 8).filterMap fun d =>
    if s.cable.notices.any fun x => x.1 == p && x.2.depth == d && x.2.event == 0 && x.2.pcie == 2 then some (p, d) else none

/-- Automatic binding on a chain link-up (R271): every DOWNSTREAM port in the chains that is not bound, in order; a hub's are taken as
DP0 and DP1, those of the default bifurcation (DESIGN CHOICE, log entry 24). -/
def State.pcieChainUp (s : State) : State :=
  if s.pcieUp && s.topo.role == .hostside && s.cv Fld.PCIE_AUTO_BIND == 1 then
    (s.pcieHubs.flatMap fun h => [(h, 0), (h, 1)]).foldl (fun s ((chain, depth), dp) =>
      if s.targetBound depth chain dp then s
      else
        match s.freeBridge with
        | none => s.raise 83 (16 * depth + 128 * chain + 256 * dp)
        | some b => (s.bindBridge b depth chain dp (s.cv Fld.PCIE_AUTO_MBPS) (s.cv Fld.PCIE_AUTO_MBPS) 0 none).st) s
  else s

/-! ### What paths and links tell -/

/-- A TC4 path that ends at a PXA binds the lowest port of that PXA that is not bound (DESIGN CHOICE, log entry 24: PATH_SETUP
names the switch port only). -/
def State.pcieArrived (s : State) (p : Nat) (e : PathEntry) : State :=
  if e.tc == 4 && (e.egress == 6 || e.egress == 7) && s.pcieDown then
    match [0, 1, 2, 3].find? fun k => 0 < s.dpWidth k && s.dpPort k == e.egress && (s.pcEnd (16 + k)).state == 0 with
    | none => s
    | some k =>
      let s := s.setEnd (16 + k) fun _ => { PciEnd.init with state := 1, inPort := p, label := e.label, dport := k, contract := e.contract }
      let g := s.initLimits (16 + k)
      ((s.setEnd (16 + k) fun x => { x with gave := g, granted := g }).sendPcCredit (16 + k)).sendPortState k
  else s

/-- The port whose path has this entry. -/
def State.portOf (s : State) (p label : Nat) : Option Nat :=
  [0, 1, 2, 3].find? fun k => (s.pcEnd (16 + k)).state != 0 && (s.pcEnd (16 + k)).inPort == p && (s.pcEnd (16 + k)).label == label

/-- The bridge of a path that starts here. -/
def State.bridgeOf (s : State) (id : Nat) : Option Nat :=
  ([1, 2, 3, 4, 5, 6, 7, 8, 9, 10, 11, 12, 13, 14, 15].find? fun b => (s.pcEnd b).path == some id)

/-- A port's entry is gone: hot reset, and the binding ends (R282). -/
def State.pcieLost (s : State) (p label : Nat) : State :=
  match s.portOf p label with
  | some k => (s.surpriseDown (16 + k) 2).setEnd (16 + k) fun _ => PciEnd.init
  | none => s

/-- The path of a binding stands: the bridge is bound (R271); its path is gone: the binding ends (R282). -/
def State.pciePathUp (s : State) (id label : Nat) : State :=
  match s.bridgeOf id with
  | some b => s.bridgeBound b label
  | none => s

def State.pciePathGone (s : State) (id : Nat) : State :=
  match s.bridgeOf id with
  | some b => if (s.pcEnd b).state == 0 then s.bindFailed b Rc.badState.code [] else s.unbindBridge b 2
  | none => s

/-- Every PCI Express path of a cable port is suspended (R280); the replay stores still stand. -/
def State.pcieSuspended (s : State) (p : Nat) : State :=
  let bs := (s.cable.paths.filter fun r => r.port == some p).filterMap fun r =>
    match r.owner with
    | .pcie b => if r.phase == 1 then some (b, r.label) else none
    | _ => none
  let s := bs.foldl (fun s x => s.suspendEnd x.1 p x.2) s
  [0, 1, 2, 3].foldl (fun s k =>
    let e := s.pcEnd (16 + k)
    if e.state != 0 && e.inPort == p then s.suspendEnd (16 + k) p e.label else s) s

/-- Every suspended end of a cable port resumes (R281). -/
def State.pcieResumed (s : State) (p : Nat) : State :=
  let bs := (s.cable.paths.filter fun r => r.port == some p).filterMap fun r =>
    match r.owner with
    | .pcie b => some b
    | _ => none
  let s := bs.foldl (fun s b => s.pathResumed b) s
  [0, 1, 2, 3].foldl (fun s k => if (s.pcEnd (16 + k)).inPort == p then s.pathResumed (16 + k) else s) s

/-- The upstream link is down or its PERST# asserted (R283). -/
def State.upstreamDown (s : State) : State :=
  let s := (List.range 16).foldl (fun s b =>
    let x := s.pcEnd b
    let bound := x.state != 0 && b != 0
    let s := s.setEnd b fun x =>
      { PciEnd.init with
        state := x.state, path := x.path, hops := x.hops, chain := x.chain, dport := x.dport, contract := x.contract, label := x.label,
        limits := x.limits, used := x.used, got := x.got, granted := x.granted, freed := x.freed, synth := x.synth, orphaned := x.orphaned,
        postedLost := x.postedLost, first := x.first, gave := x.gave, lnkCap := x.lnkCap, lnkSta := x.lnkSta, presence := x.presence, active := x.active, job := x.job }
    if bound then s.sendFrame b 3 0 (zeros 6 ++ beBytes 2 0x40 ++ zeros 2) else s) s
  { s with pcie := { s.pcie with up := .init, pmeWait := none } }

/-- The tick: credits freed go out at least once per tick (R274). -/
def State.pcieTick (s : State) : State :=
  ((upTo 20).filter fun e => (s.pcEnd e).state == 1 && (s.pcEnd e).freed.any (0 < ·)).foldl (fun s e => s.sendPcCredit e) s

/-- PERST# driven on a downstream port (R452, R466). -/
def State.drivePerst (s : State) (k : Nat) (on : Bool) : State :=
  (s.setPcLink (k + 1) fun l => { l with perst := on, state := if on then 0 else l.state }).emit (.perst k on)

end Sys2Proof.Machine
end

