-- ==== Sys2Proof/Machine/BayOps.lean ====
section
/-! DEFINITION. Bay channels (spec/17, R444 to R453): power requests, states, power good, faults and retries. -/

namespace Sys2Proof.Machine

def State.bay (s : State) (b : Nat) : BaySt := nth s.ppath.bays b .init
def State.setBay (s : State) (b : Nat) (f : BaySt → BaySt) : State :=
  { s with ppath := { s.ppath with bays := s.ppath.bays.modify b f } }

/-- The code of a bay state (Table 17.2 order). -/
def BayState.code : BayState → Nat
  | .unseated => 0
  | .seating => 1
  | .off => 2
  | .ramp => 3
  | .on => 4
  | .limit => 5
  | .faultWait => 6
  | .lockout => 7

/-- The states in which the gate conducts (R444). -/
def BayState.conducts : BayState → Bool
  | .ramp => true
  | .on => true
  | .limit => true
  | _ => false

/-- The gate of a state: 0 off, 1 ramp, 2 enhanced, 3 regulated (Table 17.2). -/
def BayState.gate : BayState → Nat
  | .ramp => 1
  | .on => 2
  | .limit => 3
  | _ => 0

/-- The eleven fields of a bay (Table 17.3). -/
def bayFields (b : Nat) : List FieldDef :=
  nth [[Fld.BAY0_ILIM_MA, Fld.BAY0_RAMP_MV_PER_MS, Fld.BAY0_FAULT_MS, Fld.BAY0_RETRY_MS, Fld.BAY0_RETRIES, Fld.BAY0_TSENSE,
      Fld.BAY0_TLIM_C, Fld.BAY0_RDSON_MOHM, Fld.BAY0_RTH_CW, Fld.BAY0_TAU_MS, Fld.BAY0_AUTO],
    [Fld.BAY1_ILIM_MA, Fld.BAY1_RAMP_MV_PER_MS, Fld.BAY1_FAULT_MS, Fld.BAY1_RETRY_MS, Fld.BAY1_RETRIES, Fld.BAY1_TSENSE,
      Fld.BAY1_TLIM_C, Fld.BAY1_RDSON_MOHM, Fld.BAY1_RTH_CW, Fld.BAY1_TAU_MS, Fld.BAY1_AUTO],
    [Fld.BAY2_ILIM_MA, Fld.BAY2_RAMP_MV_PER_MS, Fld.BAY2_FAULT_MS, Fld.BAY2_RETRY_MS, Fld.BAY2_RETRIES, Fld.BAY2_TSENSE,
      Fld.BAY2_TLIM_C, Fld.BAY2_RDSON_MOHM, Fld.BAY2_RTH_CW, Fld.BAY2_TAU_MS, Fld.BAY2_AUTO],
    [Fld.BAY3_ILIM_MA, Fld.BAY3_RAMP_MV_PER_MS, Fld.BAY3_FAULT_MS, Fld.BAY3_RETRY_MS, Fld.BAY3_RETRIES, Fld.BAY3_TSENSE,
      Fld.BAY3_TLIM_C, Fld.BAY3_RDSON_MOHM, Fld.BAY3_RTH_CW, Fld.BAY3_TAU_MS, Fld.BAY3_AUTO]] b []

def BaySt.ilim (b : BaySt) : Nat := nth b.par 0 3000
def BaySt.faultMs (b : BaySt) : Nat := nth b.par 2 20
def BaySt.retryMs (b : BaySt) : Nat := nth b.par 3 1000
def BaySt.allRetries (b : BaySt) : Nat := nth b.par 4 3
def BaySt.tsense (b : BaySt) : Nat := nth b.par 5 1
def BaySt.tlim (b : BaySt) : Nat := nth b.par 6 125
def BaySt.auto (b : BaySt) : Nat := nth b.par 10 0

/-- The power request in effect (R445): ON, not inhibited, and not shed since (log entry 25). -/
def BaySt.wantsOn (b : BaySt) : Bool := b.request && !b.inhibit && !b.shed

/-- The FET is cool (R453): at TLIM − 10 °C or below; a bay with TSENSE NONE has no temperature. -/
def BaySt.cool (b : BaySt) : Bool :=
  b.tsense == 2 || (match b.temp with
    | none => true
    | some t => t ≤ ((b.tlim : Int) - 10) * 1000000)

/-- What a mapped port's far end sees of a bay's presence (R452). -/
def State.bayPresence (s : State) (b : Nat) : State :=
  match s.dpOfBay b with
  | some k => s.sendPortState k
  | none => s

/-- PG falls: EV163 and PERST# of the mapped port (R448, R452). -/
def State.pgFall (s : State) (b : Nat) : State :=
  if (s.bay b).pg then
    let s := ((s.setBay b fun x => { x with pg := false }).emit (.bayGate b (s.bay b).state.gate false)).raise 163 b
    match s.dpOfBay b with
    | some k => s.drivePerst k true
    | none => s
  else s

/-- A bay enters a state: its gate follows, and PG falls where the state's PG column is 0 (R444, R448). -/
def State.bayTo (s : State) (b : Nat) (st : BayState) : State :=
  let s := if st == .on || st == .limit then s else s.pgFall b
  let s := s.setBay b fun x => { x with
    state := st, count := if st == .ramp && x.state != .limit then 0 else x.count, ma := if st.conducts then x.ma else 0
    rampTick := if st == .ramp && x.state != .limit then s.time.tick else x.rampTick }
  s.emit (.bayGate b st.gate (s.bay b).pg)

/-- Entry to OFF takes the bay fields (R454). -/
def State.bayRest (s : State) (b : Nat) : State :=
  let vals := (bayFields b).map s.applied
  (s.bayTo b .off).setBay b fun x => { x with par := vals }

/-- RAMP where the request is effective and the FET cool (R444); in ROM mode the bays stay OFF (R546). -/
def State.bayTry (s : State) (b : Nat) : State :=
  let x := s.bay b
  if s.romNow then s
  else if x.state == .off && x.wantsOn && x.cool && !x.retry then s.bayTo b .ramp
  else if x.state == .faultWait && !x.retry then
    if x.retries == 0 then s.bayTo b .lockout
    else if x.wantsOn then (if x.cool then s.bayTo b .ramp else s)
    else s.bayRest b
  else s

/-- Entry to OFF, from which an effective request ramps. -/
def State.bayOff (s : State) (b : Nat) : State := (s.bayRest b).bayTry b

/-- The request changed: an ON that is no longer effective takes a conducting bay to OFF; one that has become so ramps. -/
def State.bayReq (s : State) (b : Nat) : State :=
  let x := s.bay b
  if x.state.conducts && !x.wantsOn then s.bayOff b else s.bayTry b

/-- A power request (R445). -/
def State.bayRequest (s : State) (b : Nat) (on : Bool) : State :=
  (s.setBay b fun x => { x with request := on, shed := false }).bayReq b

/-- A fault (R450): EV164, one retry spent, the retry timer started. -/
def State.bayFault (s : State) (b cause : Nat) : State :=
  let left := (s.bay b).retries - 1
  let s := s.setBay b fun x => { x with
    retries := left, retry := true, retryTick := s.time.tick, faults := satAdd 32 x.faults 1, cause := cause }
  (s.bayTo b .faultWait).raise 164 (b + 16 * cause + 256 * left)

/-- PERST# of the downstream ports follows their bays: released 100 ms after PG rose, and where no bay is mapped as the port is used
(log entry 24); a port released trains. -/
def State.releasePerst (s : State) : State :=
  [0, 1, 2, 3].foldl (fun (s : State) k =>
    let on := match s.bayOfDp k with
      | some b => !((s.bay b).pg && s.passed (s.bay b).pgTick (msTicks 100))
      | none => false
    if (s.pcLink (k + 1)).perst == on then s
    else if on then s.drivePerst k true
    else (s.drivePerst k false).trainLink (k + 1)) s

/-- A bay is shed (R440): OFF with cause SHED, until a new request. -/
def State.bayShed (s : State) (b : Nat) : State :=
  let s := s.setBay b fun x => { x with shed := true, cause := 5 }
  (s.bayOff b).raise 164 (b + 16 * 5 + 256 * (s.bay b).retries)

end Sys2Proof.Machine
end

