-- ==== Sys2Proof/Machine/VbusOps.lean ====
section
/-! DEFINITION. VBUS switches (spec/17, R441 to R443): what the configuration channels and the USB ports ask of them. -/

namespace Sys2Proof.Machine

def State.vsw (s : State) (k : Nat) : VbusSt := nth s.ppath.vbus k .init
def State.setVsw (s : State) (k : Nat) (f : VbusSt → VbusSt) : State :=
  { s with ppath := { s.ppath with vbus := s.ppath.vbus.modify k f } }

/-- The rails of a switch, SRC0 first, 0 where one is absent (R441, R454). -/
def State.rails (s : State) (k : Nat) : List Nat :=
  let d := fun (f : FieldDef) => let v := s.cv f; if v < 5000 then 0 else v
  if k < 2 then [5000, d Fld.SRC1_MV, d Fld.SRC2_MV, d Fld.SRC3_MV] else [5000]

/-- The rail that gives a voltage: within ±5 % of a present one (R441). -/
def State.railFor (s : State) (k mv : Nat) : Option Nat :=
  let rs := s.rails k
  (upTo rs.length).find? fun r => let v := nth rs r 0; 0 < v && v * 95 ≤ mv * 100 && mv * 100 ≤ v * 105

/-- A switch asked for a voltage (R442): a rise is ramped at VBUS_SLEW_MV_PER_MS, a fall goes through the discharge path; while its retry
timer runs, the request waits for it (R443). -/
def State.vbusOn (s : State) (k mv : Nat) : State :=
  if (s.vsw k).state == 3 then s.setVsw k fun v => { v with wants := some mv }
  else
    let r := (s.railFor k mv).getD 0
    let falls := mv < (s.vsw k).mv
    (s.setVsw k fun v => { v with state := 1, rail := r, target := mv, settled := false, bleed := falls }).emit
      (.vbus k r mv (if falls then 0 else s.cv Fld.VBUS_SLEW_MV_PER_MS) falls)

/-- A switch asked for off: the discharge path is held until vSafe0V; a request that waits is cancelled (R442, R443). -/
def State.vbusOff (s : State) (k : Nat) : State :=
  let v := s.vsw k
  let s := s.setVsw k fun v => { v with
    state := if v.state == 3 then 3 else 0, target := 0, settled := v.mv < 800, wants := none, bleed := !(v.mv < 800) }
  if v.state == 0 then s else s.emit (.vbus k v.rail 0 0 (!(v.mv < 800)))

/-- VSW0 and VSW1 connect VBUS to the feed that names it, as a sink (R441). -/
def State.vbusSink (s : State) (k : Nat) : State :=
  s.setVsw k fun v => { v with state := 2, target := 0, settled := true, wants := none, bleed := false }

/-- VBUS is at vSafe0V (R412). -/
def State.vSafe0 (s : State) (k : Nat) : Bool := (s.vsw k).mv < 800

/-! ### Feeds (R437) -/

def State.feed (s : State) (n : Nat) : FeedSt := nth s.ppath.feeds n .init
def State.setFeed (s : State) (n : Nat) (f : FeedSt → FeedSt) : State :=
  { s with ppath := { s.ppath with feeds := s.ppath.feeds.modify n f } }

/-- A feed field of `REC_PPATH`; in ROM mode the feeds run at the defaults (R546). -/
def State.pathCv (s : State) (f : FieldDef) : Nat := if s.romNow then s.fldDefault f else s.cv f

/-- FEEDn_SRC: 0 the DC input, 1 and 2 the VBUS of CP0 and CP1, 3 none. -/
def State.feedSrc (s : State) (n : Nat) : Nat := s.pathCv (if n == 0 then Fld.FEED0_SRC else Fld.FEED1_SRC)

/-- A feed's source can supply it: a cable VBUS only while that port is attached as sink (R437). -/
def State.feedCan (s : State) (n : Nat) : Bool :=
  let src := s.feedSrc n
  src == 0 || ((src == 1 || src == 2) && (s.chn (src - 1)).state == 5)

/-- A feed becomes absent: its ORing pair opens, EV160 (R437). -/
def State.feedGone (s : State) (n mv : Nat) : State :=
  let s := s.setFeed n fun f => { f with present := false, gate := false, mv := mv, ma := 0 }
  (s.emit (.orGates (if n == 0 then 0 else 1000))).raise 160 n

/-- A feed whose source is a cable VBUS is absent while that port is not attached as sink (R437). -/
def State.feedsLapse (s : State) : State :=
  [0, 1].foldl (fun (s : State) n => if (s.feed n).present && !s.feedCan n then s.feedGone n (s.feed n).mv else s) s

end Sys2Proof.Machine
end

