-- ==== Sys2Proof/Machine/UsbOps.lean ====
section
/-! DEFINITION. USB hub (spec/11): stages at the HOSTSIDE USA, remote hubs, ports, keepalive, and what paths and links tell
them. -/

namespace Sys2Proof.Machine

def State.isUsbUp (s : State) : Bool := nth s.topo.ends 5 0 == 1
def State.isUsbHub (s : State) : Bool := nth s.topo.ends 5 0 == 2

/-! ### Frames and events -/

def usbXferReq : Nat := 0
def usbXferData : Nat := 1
def usbXferDone : Nat := 2
def usbPortCtrl : Nat := 3
def usbPortState : Nat := 4
def usbBusState : Nat := 5
def usbWake : Nat := 6
def usbIsoData : Nat := 7

/-- What a PORT_CTRL frame's one data byte asks (DESIGN CHOICE, log entry 26). -/
def ctlReset : Byte := 0
def ctlPowerOff : Byte := 1
def ctlPowerOn : Byte := 2
def ctlSuspend : Byte := 3
def ctlResume : Byte := 4
def ctlWakeOff : Byte := 5
def ctlWakeOn : Byte := 6

/-- A frame with only its type, port and what it says. -/
def plainFrame (typ port count : Nat) (data : List Byte) : UsbFrame :=
  { typ := typ, port := port, addr := 0, ep := 0, dirIn := false, seq := 0, epoch := 0, count := count, stream := 0, data := data }

/-- The 8-byte header of Table 11.4, MSB first (R5), and the data. -/
def usbFrameBytes (f : UsbFrame) : List Byte :=
  beBytes 8 (f.typ % 16 * 2 ^ 60 + f.port % 8 * 2 ^ 57 + f.addr % 128 * 2 ^ 50 + f.ep % 16 * 2 ^ 46 + b2n f.dirIn * 2 ^ 45
    + f.seq % 32 * 2 ^ 40 + f.epoch % 16 * 2 ^ 36 + f.data.length % 2048 * 2 ^ 25 + f.count % 32 * 2 ^ 20 + f.stream % 2048 * 2 ^ 9)
    ++ f.data

/-- A remote hub by root port 2 to 13. -/
def State.remote (s : State) (root : Nat) : UsbRemote := nth s.usb.remotes (root - 2) .init
def State.setRemote (s : State) (root : Nat) (f : UsbRemote → UsbRemote) : State :=
  { s with usb := { s.usb with remotes := s.usb.remotes.modify (root - 2) f } }

def State.usbPort (s : State) (k : Nat) : UsbPort := nth s.usb.ports (k - 1) .init
def State.setUsbPort (s : State) (k : Nat) (f : UsbPort → UsbPort) : State :=
  { s with usb := { s.usb with ports := s.usb.ports.modify (k - 1) f } }

/-- The cells of a frame (R295): on the TC5 path for ISO_DATA, on the TC3 path for every other type. -/
def State.usbCells (s : State) (root : Nat) (f : UsbFrame) : List Cell :=
  let iso := f.typ == usbIsoData
  let x := s.remote root
  let label := if root == 0 then (if iso then s.usb.isoLabel else s.usb.inLabel).getD 0
    else s.labelOf ((if iso then x.tc5 else x.tc3).getD 0)
  dataCells label (if iso then 5 else 3) (usbFrameBytes f)

/-- A frame sent on the path of a root port, or up (0). -/
def State.usbSend (s : State) (root : Nat) (f : UsbFrame) : State := s.emit (.usbFrame root (s.usbCells root f))

/-- The root port of a remote hub (Table 11.1). -/
def rootPort (chain depth : Nat) : Nat := 2 + 6 * chain + (depth - 1)

/-- BUS_STATE to every remote hub that is present (R310, R312). -/
def State.sendBusState (s : State) (code : Nat) : State :=
  [2, 3, 4, 5, 6, 7, 8, 9, 10, 11, 12, 13].foldl (fun s r =>
    if (s.remote r).state == 2 then s.usbSend r (plainFrame usbBusState 0 code []) else s) s

/-! ### Stages (R296 to R301) -/

/-- The stage that a transaction goes to. -/
def stageIs (root port addr ep stream : Nat) (dirIn : Bool) (x : UsbStage) : Bool :=
  x.root == root && x.port == port && x.addr == addr && x.ep == ep && x.dirIn == dirIn && x.stream == stream

/-- A stage as it starts: sequence 0 and toggles 0 (R297). -/
def UsbStage.fresh (tx : UsbTx) (now : Tick) : UsbStage :=
  { root := tx.root, port := tx.port, addr := tx.addr, ep := tx.ep, dirIn := tx.dirIn, stream := tx.stream, kind := tx.kind, ss := tx.ss,
    burst := tx.burst, started := now, inTicks := [], setups := [], inPkts := [], done := none, outPkts := [], asked := 0, deferred := false, stall := false, ahead := true, seq := 0 }

def UsbStage.inBytes (x : UsbStage) : Nat := total (x.inPkts.map (·.length))

/-- Staging bytes in use. -/
def State.stagingUse (s : State) : Nat := total (s.usb.stages.map fun x => x.inBytes + total x.outPkts)

/-- OUT data outstanding toward one remote hub (R301). -/
def State.outToward (s : State) (root : Nat) : Nat :=
  total ((s.usb.stages.filter fun x => x.root == root).map fun x => total x.outPkts)

/-- Packets of 1,024 bytes that a bulk stage has room for, what it has asked for set aside (R298, R301). -/
def State.stageRoom (s : State) (x : UsbStage) : Nat :=
  min ((s.cv Fld.USB_STAGE_KB * 1024 - x.inBytes) / 1024 - x.asked) ((524288 - s.stagingUse) / 1024)

def State.setStage (s : State) (y : UsbStage) (f : UsbStage → UsbStage) : State :=
  let g := fun (x : UsbStage) => if stageIs y.root y.port y.addr y.ep y.stream y.dirIn x then f x else x
  { s with usb := { s.usb with stages := s.usb.stages.map g } }

/-- EPOCH of a device (R308): 0 until it is first raised. -/
def epochOf (l : List (Nat × Nat × Nat)) (port addr : Nat) : Nat :=
  match l.find? fun e => e.1 == port && e.2.1 == addr with
  | some e => e.2.2
  | none => 0

def setEpoch (l : List (Nat × Nat × Nat)) (port addr v : Nat) : List (Nat × Nat × Nat) :=
  (l.filter fun e => !(e.1 == port && e.2.1 == addr)) ++ [(port, addr, v % 16)]

/-- A frame of a stage toward its remote hub. -/
def State.stageFrame (s : State) (x : UsbStage) (typ count : Nat) (data : List Byte) : State :=
  s.usbSend x.root
    { typ := typ, port := x.port, addr := x.addr, ep := x.ep, dirIn := x.dirIn, seq := x.seq % 32,
      epoch := epochOf (s.remote x.root).epochs x.port x.addr, count := count, stream := x.stream, data := data }

/-- XFER_REQ for some packets, at most MaxBurst + 1 of a bulk or control endpoint (R297, R298). -/
def State.askPackets (s : State) (x : UsbStage) (n : Nat) : State :=
  let n := if x.kind < 2 then min n (min 16 (x.burst + 1)) else n
  if n == 0 then s else (s.setStage x fun y => { y with asked := y.asked + n }).stageFrame x usbXferReq n []

/-- Stages of some endpoints dropped; answers how many there were. -/
def State.dropStages (s : State) (f : UsbStage → Bool) : Nat × State :=
  ((s.usb.stages.filter f).length, { s with usb := { s.usb with stages := s.usb.stages.filter fun x => !f x } })

/-- Endpoints aborted: EV101 with the root or remote port and how many (R308, R311). -/
def State.abortEndpoints (s : State) (port n : Nat) : State :=
  if n == 0 then s
  else ({ s with usb := { s.usb with aborted := satAdd 32 s.usb.aborted n } }).raise 101 (port + 256 * min 255 n)

/-- USB_PERIODIC_LAG_US in ticks: whole steps of 125 µs, four ticks each (Table 11.7). -/
def State.lagTicks (s : State) : Nat := s.cv Fld.USB_PERIODIC_LAG_US / 125 * 4

/-- A tick lies the periodic lag in the past (R300). -/
def State.lagged (s : State) (t : Nat) : Bool := s.passed (BitVec.ofNat 48 t) s.lagTicks

/-- EV108 at most once per 32 ticks (R300). -/
def State.underrun (s : State) (port : Nat) : State :=
  let n := satAdd 16 s.usb.underruns 1
  let due := match s.usb.isoTick with
    | none => true
    | some t => 32 ≤ tickDiff s.time.tick t
  let s : State := { s with usb := { s.usb with underruns := n } }
  if due then ({ s with usb := { s.usb with isoTick := some s.time.tick } }).raise 108 (port + 65536 * n) else s

/-! ### Remote hubs at the HOSTSIDE (R294, R311) -/

def usbTc3Id (i : Nat) : Nat := 0xF60 + 8 * (i / 6) + (i % 6 + 1)
def usbTc5Id (i : Nat) : Nat := 0xF40 + 8 * (i / 6) + (i % 6 + 1)

/-- The contracts of a remote hub's paths: none at a rate of 0. -/
def State.usbContracts (s : State) (i port : Nat) : List Contract :=
  let a := s.applied Fld.USB_TC3_MBPS
  let b := s.applied Fld.USB_ISO_MBPS
  (if a == 0 then [] else [s.mkContract (usbTc3Id i) 3 0xFF 8 port a a 16])
    ++ (if b == 0 then [] else [s.mkContract (usbTc5Id i) 5 0xFF 8 port b b 16])

/-- A remote hub given up: both paths and contracts closed, its root port disconnected (R294, R311); EV098 with the cause. -/
def State.remoteDown (s : State) (i cause : Nat) : State :=
  let root := i + 2
  let x := s.remote root
  if x.state == 0 then s
  else
    let s := match x.tc3 with
      | some id => s.closePath id
      | none => s
    let s := match x.tc5 with
      | some id => s.closePath id
      | none => s
    let ids := [usbTc3Id i, usbTc5Id i].filter fun c => s.plan.contracts.any fun k => k.id == c
    let s := ids.foldl (fun s c => s.clearContract c) s
    let s := s.sendClears ((s.pathPort (i / 6)).getD 0) (i % 6 + 1) ids
    let (_, s) := s.dropStages fun y => y.root == root
    (s.setRemote root fun x => { UsbRemote.init with changed := x.changed || x.state != 1 }).raise 98 (root + 16 * cause)

/-- The paths of a remote hub opened once its contracts stand: TC3, then TC5 (R294). -/
def State.usbNext (s : State) (i : Nat) : State :=
  let root := i + 2
  let x := s.remote root
  if x.state != 1 then s
  else
    match x.tc3 with
    | some _ => s
    | none =>
      let has := fun (c : Nat) => if s.plan.contracts.any fun k => k.id == c then c else 0
      let a := s.openPath (.usb i) none 8 (i % 6 + 1) (i / 6) 8 3 true (has (usbTc3Id i))
      if a.rc.bad then s.remoteDown i 1
      else
        let s := a.st.setRemote root fun x => { x with tc3 := some a.id }
        let b := s.openPath (.usbIso i) none 8 (i % 6 + 1) (i / 6) 8 5 true (has (usbTc5Id i))
        if b.rc.bad then s.remoteDown i 1 else b.st.setRemote root fun x => { x with tc5 := some b.id }

/-- A path of a remote hub opened: with both, the remote hub appears (EV097). -/
def State.usbPathUp (s : State) (i : Nat) (iso : Bool) : State :=
  let root := i + 2
  let s := s.setRemote root fun x => if iso then { x with tc5Up := true } else { x with tc3Up := true }
  let x := s.remote root
  if x.state == 1 && x.tc3Up && x.tc5Up then
    let s := (s.setRemote root fun x => { x with state := 2, changed := true }).raise 97 root
    s.usbSend root (plainFrame usbBusState 0 (if s.usb.upstream == 4 then 0 else if s.usb.upstream == 0 then 3 else 2) [])
  else s

/-- A path of a remote hub could not be opened, or is gone. -/
def State.usbPathGone (s : State) (i : Nat) : State := s.remoteDown i (if (s.remote (i + 2)).state == 1 then 1 else 0)

/-- A chain link-up of a hub with USB_END HUB (R294). -/
def State.usbChainUp (s : State) (chain depth usbEnd : Nat) : State :=
  let i := 6 * chain + (depth - 1)
  if s.isUsbUp && s.topo.role == .hostside && usbEnd == 2 && 1 ≤ depth && depth ≤ 6 && (s.remote (i + 2)).state == 0 then
    let s := s.setRemote (i + 2) fun x => { UsbRemote.init with state := 1, changed := x.changed }
    match s.pathPort chain with
    | none => s.remoteDown i 1
    | some port =>
      let cs := s.usbContracts i port
      let a := cs.foldl (fun (a : ContractAns) c => if a.rc == .ok then a.st.defineContract c true else a) ⟨.ok, 0, s⟩
      if a.rc != .ok then a.st.remoteDown i 1
      else if cs.isEmpty then a.st.usbNext i
      else a.st.sendContracts (.contract 2 i) port depth cs
  else s

/-- The stages of a remote hub with something outstanding: an XFER_REQ or staged OUT data (R311). -/
def UsbStage.outstanding (x : UsbStage) : Bool := x.kind < 2 && (0 < x.asked || !x.outPkts.isEmpty)

/-- Paths of a cable port suspended: the root ports stay connected, and transactions are deferred (R311). -/
def State.usbHostSuspended (s : State) (p : Nat) : State :=
  [2, 3, 4, 5, 6, 7, 8, 9, 10, 11, 12, 13].foldl (fun s r =>
    let x := s.remote r
    if x.state == 2 && ((x.tc3.bind s.pathById).any fun r => r.port == some p) then s.setRemote r fun x => { x with state := 3 }
    else s) s

/-- They resume: endpoints with something outstanding answer STALL next, and SETUPs acknowledged meanwhile are forwarded (R311). -/
def State.usbHostResumed (s : State) (p : Nat) : State :=
  [2, 3, 4, 5, 6, 7, 8, 9, 10, 11, 12, 13].foldl (fun s r =>
    let x := s.remote r
    if x.state == 3 && ((x.tc3.bind s.pathById).any fun r => r.port == some p) then
      let s := s.setRemote r fun x => { x with state := 2 }
      let n := (s.usb.stages.filter fun y => y.root == r && y.outstanding).length
      let s : State := { s with usb := { s.usb with stages := s.usb.stages.map fun y =>
        if y.root == r && y.outstanding then { y with stall := true, asked := 0, outPkts := [], inPkts := [] } else y } }
      let s := (s.usb.stages.filter fun y => y.root == r && !y.setups.isEmpty).foldl (fun s y =>
        y.setups.foldl (fun s d => s.stageFrame y usbXferData 1 d) (s.setStage y fun z => { z with setups := [] })) s
      s.abortEndpoints r n
    else s) s

/-! ### Ports of a remote hub (R303, R304) -/

/-- The state of a port (Table 11.8). -/
def UsbPort.code (x : UsbPort) : Nat :=
  if x.overCur then 5 else if !x.power then 0 else if !x.connected then 1 else if x.suspended then 4 else if x.enabled then 3 else 2

/-- A frame sent up the remote hub's paths, while they stand and are not suspended. -/
def State.usbUpFrame (s : State) (f : UsbFrame) : State :=
  match s.usb.inLabel.bind fun l => (s.link s.usb.inPort).entry l with
  | some e => if e.suspended then s else s.usbSend 0 f
  | none => s

/-- PORT_STATE: the state of a port, its changes ([0] connection, [1] over-current, [2] suspend, [3] reset) and its speed (log
entry 26). -/
def State.sendUsbPort (s : State) (k changes : Nat) : State :=
  let x := s.usbPort k
  s.usbUpFrame (plainFrame usbPortState k 0 [BitVec.ofNat 8 x.code, BitVec.ofNat 8 changes, BitVec.ofNat 8 x.speed])

/-- The configuration channel of a port shows an attached sink (R303): CC k + 1. -/
def State.ccSource (s : State) (k : Nat) : Bool := (nth s.cc (k + 1) .init).state == 4

/-- Connection at a port: EV099 and PORT_STATE when it changes. -/
def State.usbConnect (s : State) (k : Nat) (on : Bool) : State :=
  if (s.usbPort k).connected == on then s
  else
    let s := s.setUsbPort k fun x =>
      if on then { x with connected := true }
      else { x with connected := false, enabled := false, suspended := false, speed := 0, kept := false, absorb := false, resuming := none,
                    hid := false, config := 0, hostAddr := 0 }
    (s.raise 99 (k + 16 * b2n on)).sendUsbPort k 1

/-- PORT_POWER of a port (R303): its VBUS follows while its channel is attached as source; a port that USB_PORT_MASK excludes
stays unpowered. -/
def State.setPortPower (s : State) (k : Nat) (on : Bool) : State :=
  if on && !bitAt s.usb.portMask (k - 1) then s
  else if on then
    let s := s.setUsbPort k fun x => { x with power := true, overCur := false, powerWait := (s.vsw (k + 1)).state == 3 }
    let s : State := { s with usb := { s.usb with hubOverCur := false } }
    if s.ccSource k then ((s.vbusOn (k + 1) 5000).usbConnect k true) else s.sendUsbPort k 0
  else
    let s := (s.setUsbPort k fun x => { x with power := false, powerWait := false }).vbusOff (k + 1)
    let s := s.usbConnect k false
    s.sendUsbPort k 0

/-- Port 3's own SuperSpeed pins and connector go to the multiplexer of a DOWN port in DP_D (R24, R292): it offers USB 2.0 only. -/
def State.port3Taken (s : State) : Bool :=
  [0, 1].any fun p => let c := nth s.cc p .init; c.position == 4 && !c.quiet && c.dfp

/-- The over-current of a port (R304): EV100; per port, or all four. -/
def State.usbOverCurrent (s : State) (k : Nat) : State :=
  let ganged := s.usb.ocMode == 1
  let s := s.setUsbPort k fun x => { x with overCur := !ganged, cOverCur := true, trips := satAdd 32 x.trips 1 }
  let ks := if ganged then [1, 2, 3, 4] else [k]
  let s := ks.foldl (fun s j =>
    let s := s.setUsbPort j fun x => { x with power := false }
    ((if j == k then s else s.vbusOff (j + 1)).usbConnect j false).sendUsbPort j 2) s
  ({ s with usb := { s.usb with hubOverCur := ganged } }).raise 100 (k + 16 * b2n ganged)

/-! ### Keepalive (R315 to R318) -/

/-- Devices kept. -/
def State.keptCount (s : State) : Nat := (s.usb.ports.filter (·.kept)).length

/-- EV142 of the KEEPALIVE service (R402): reason 1 HID, 2 HID overflow. -/
def State.kaWake (s : State) (reason : Nat) : State :=
  if s.cv Fld.KA_WAKE_ON_HID == 1 && s.svc.insts.any fun i => i.id == 3 && i.state == 1 then s.raise 142 (3 + 65536 * reason) else s

/-- The host becomes absent at a remote hub (R315); once KEEPALIVE_S has passed, not again before it has returned (R318). -/
def State.hostAbsent (s : State) : State :=
  if s.isUsbHub && s.cv Fld.KEEPALIVE_ENABLE == 1 && !s.usb.absent && !s.usb.expired then
    let keep := fun (x : UsbPort) => { x with kept := x.connected, keptAddr := x.hostAddr, trafficAt := s.time.tick }
    let s : State := { s with usb := { s.usb with absent := true, absentAt := s.time.tick, ports := s.usb.ports.map keep } }
    let s : State := { s with svc := { s.svc with hidWoke := false } }
    s.raise 104 (16 * s.keptCount)
  else s

/-- The host returns (R316, R318): EV105, and the first reset of each kept device may be absorbed. -/
def State.hostReturns (s : State) : State :=
  let s : State := { s with usb := { s.usb with expired := false } }
  if s.usb.absent then
    let absorb := s.cv Fld.KEEPALIVE_ABSORB_RESET == 1
    ({ s with usb := { s.usb with
      absent := false, ports := s.usb.ports.map fun (x : UsbPort) => { x with absorb := x.kept && absorb } } }).raise 105 0
  else s

/-! ### What paths and links tell a remote hub -/

def State.usbArrived (s : State) (p : Nat) (e : PathEntry) : State :=
  if e.egress == 8 && s.isUsbHub then
    if e.tc == 3 then ({ s with usb := { s.usb with inPort := p, inLabel := some e.label } }).hostReturns
    else if e.tc == 5 then { s with usb := { s.usb with isoLabel := some e.label } }
    else s
  else s

def State.usbLost (s : State) (p label : Nat) : State :=
  if s.usb.inLabel == some label && s.usb.inPort == p && s.isUsbHub then
    ({ s with usb := { s.usb with inLabel := none } }).hostAbsent
  else if s.usb.isoLabel == some label && s.usb.inPort == p then { s with usb := { s.usb with isoLabel := none } }
  else s

def State.usbSuspended (s : State) (p : Nat) : State :=
  let s := s.usbHostSuspended p
  if s.usb.inLabel.isSome && s.usb.inPort == p then s.hostAbsent else s

def State.usbResumed (s : State) (p : Nat) : State :=
  let s := s.usbHostResumed p
  if s.usb.inLabel.isSome && s.usb.inPort == p && s.usb.busState != 3 then s.hostReturns else s

/-! ### Identities and descriptors (Tables 11.1, 11.2; R304, R305, R307) -/

/-- A device descriptor: the layout and the fields that Table 11.2 does not give are those of the standard (PRESUMED, log entry 26). -/
def usbDevice (ss : Bool) (cls protocol pid : Nat) : List Byte :=
  beBytes 2 0x1201 ++ leBytes 2 (if ss then 0x0320 else 0x0200) ++ [BitVec.ofNat 8 cls, 0, BitVec.ofNat 8 protocol]
    ++ leBytes 1 (if ss then 9 else 64) ++ leBytes 2 0x1E9B ++ leBytes 2 pid ++ leBytes 2 0x00B0 ++ [0, 0, 0, 1]

/-- wHubCharacteristics of a remote hub: [4:3] 0b01 per port, 0b00 ganged (R304); the multi-TT hub's other bits 0. -/
def State.hubCharacteristics (s : State) : Nat := if s.usb.ocMode == 1 then 0 else 8

/-- A hub descriptor of `n` ports, its ports removable but those of `fixed` (Table 11.1, R291). -/
def hubDescriptor (ss : Bool) (n chars fixed : Nat) : List Byte :=
  if ss then [12, 0x2A, BitVec.ofNat 8 n] ++ leBytes 2 chars ++ [0, 0, 0, 0, 0] ++ leBytes 2 fixed
  else let k := (n + 8) / 8; [BitVec.ofNat 8 (7 + 2 * k), 0x29, BitVec.ofNat 8 n] ++ leBytes 2 chars ++ [0, 0] ++ leBytes k fixed
    ++ leBytes k (2 ^ (8 * k) - 1)

/-- The cable port that faces upstream (R307): the one whose role is UP, or in fallback the one that is a UFP. -/
def State.facesUp (s : State) : Option Nat :=
  match [0, 1].find? fun p => nth s.topo.portRole p .none == .up with
  | some p => some p
  | none => [0, 1].find? fun p => let c := nth s.cc p .init; (c.state == 4 || c.state == 5) && !c.dfp

/-- The Billboard state of an alternate mode: 3 configured, 2 attempted without success, 1 not attempted; `vendor` of the two modes. -/
def State.billboardMode (s : State) (vendor : Bool) : Nat :=
  match s.facesUp with
  | none => 1
  | some p =>
    let c := nth s.cc p .init
    if (if vendor then c.mode == 1 else c.mode == 2 || c.mode == 3) then 3 else if c.armed != 0 && (c.armed == 1) == vendor then 2 else 1

/-- The Billboard capability descriptor (R307): the vendor alternate mode, SVID 0x1E9B, and DisplayPort's, SVID 0xFF01, with the state of
each on the cable port that faces upstream. The layout is that of Billboard Release 1.22 (PRESUMED, log entry 26). -/
def State.billboard (s : State) : List Byte :=
  [52, 0x10, 0x0D, 0, 2, 0, 0, 0] ++ leBytes 1 (s.billboardMode true + 4 * s.billboardMode false) ++ zeros 31 ++ leBytes 2 0x0122
    ++ [0, 0] ++ leBytes 2 0x1E9B ++ [0, 0] ++ leBytes 2 0xFF01 ++ [0, 0]

/-- An endpoint of the vendor interface (Table 11.6): bulk. -/
def bulkEndpoint (ss : Bool) (addr : Nat) : List Byte :=
  [7, 5, BitVec.ofNat 8 addr, 2] ++ leBytes 2 (if ss then 1024 else 512) ++ [0] ++ (if ss then [6, 0x30, 0, 0, 0, 0] else [])

/-- A descriptor of the device functions (R305): the vendor interface of class 0xFF, and on remote hubs the Billboard interface. -/
def State.fnDescriptor (s : State) (ss : Bool) (type : Nat) : List Byte :=
  let hub := s.isUsbHub
  match type with
  | 1 => usbDevice ss 0 0 0x8428
  | 2 =>
    let eps := bulkEndpoint ss 1 ++ bulkEndpoint ss 0x81 ++ bulkEndpoint ss 2 ++ bulkEndpoint ss 0x82
    let body := [9, 4, 0, 0, 4, 0xFF, 0, 0, 0] ++ eps ++ (if hub then [9, 4, 1, 0, 0, 0x11, 0, 0, 0] else [])
    [9, 2] ++ leBytes 2 (9 + body.length) ++ [if hub then 2 else 1, 1, 0, 0xE0, 0] ++ body
  | 15 => if hub then [5, 15] ++ leBytes 2 57 ++ [1] ++ s.billboard else [5, 15] ++ leBytes 2 5 ++ [0]
  | _ => []

/-- A descriptor of a root hub, or of a remote hub (Tables 11.1, 11.2). -/
def rootDescriptor (ss : Bool) (type : Nat) : List Byte :=
  match type with
  | 1 => usbDevice ss 9 (if ss then 3 else 1) (if ss then 0x8420 else 0x8421)
  | 0x29 => hubDescriptor false 13 0x12 2
  | 0x2A => hubDescriptor true 13 0x12 2
  | _ => []

def State.remoteDescriptor (s : State) (ss : Bool) (type : Nat) : List Byte :=
  match type with
  | 1 => usbDevice ss 9 (if ss then 3 else 2) (if ss then 0x8422 else 0x8423)
  | 0x29 => hubDescriptor false 5 s.hubCharacteristics 0x20
  | 0x2A => hubDescriptor true 5 s.hubCharacteristics 0x20
  | _ => []

end Sys2Proof.Machine
end

