-- ==== Sys2Proof/Machine/CpwrOps.lean ====
section
/-! DEFINITION. Cable power and configuration channels (spec/16): power objects, contracts and P_pd, the protocol layer, swaps, hard
reset and ErrorRecovery, discovery, modes and the multiplexer. -/

namespace Sys2Proof.Machine

/-- Until the first counted LOCAL request after a system reset, and while UNATT is 1 (R431). -/
def State.lcSilent (s : State) : Bool := s.mbx.unatt || !s.mbx.firstLocal

def CcSt.attached (c : CcSt) : Bool := c.state == 4 || c.state == 5

/-! ### Power objects, with the layouts of PD Revision 3.2 (PRESUMED, log entry 28) -/

/-- A Fixed PDO of a voltage in mV and a current in mA. -/
def fixedPdo (mv ma : Nat) : Word := BitVec.ofNat 32 (mv / 50 % 1024 * 1024 + ma / 10 % 1024)
def pdoMv (w : Word) : Nat := fieldAt w.toNat 10 10 * 50
def pdoMa (w : Word) : Nat := fieldAt w.toNat 0 10 * 10
def pdoFixed (w : Word) : Bool := fieldAt w.toNat 30 2 == 0
/-- A Request's object position and operating current in mA. -/
def rdoPos (w : Word) : Nat := fieldAt w.toNat 28 4
def rdoMa (w : Word) : Nat := fieldAt w.toNat 10 10 * 10
def mkRdo (pos ma : Nat) : Word := BitVec.ofNat 32 (pos % 16 * 2 ^ 28 + ma / 10 % 1024 * 1024 + ma / 10 % 1024)

/-- The current of an Rp advertisement as a source, Default taken as 900 mA (R443), and as a sink, Default taken as 500 mA (R420). -/
def rpMa (code dflt : Nat) : Nat := if code == 2 then 3000 else if code == 1 then 1500 else dflt

/-- The Rp configured for a channel (Table 16.7); in ROM mode 3.0 A on CC0 and CC1 and 1.5 A on the others (R546). -/
def State.rpOf (s : State) (k : Nat) : Nat := if s.romNow then (if k < 2 then 2 else 1) else s.applied (if k < 2 then Fld.RP_CURRENT_CP else Fld.RP_CURRENT_DS)

/-- The connection role of a channel: CC2 to CC5 are sources (Table 16.1); in ROM mode CC0 and CC1 are DRP with Try.SRC (R546). -/
def State.ccRole (s : State) (k : Nat) : Nat :=
  if s.romNow then (if k < 2 then 3 else 0)
  else if k == 0 then s.applied Fld.CC0_ROLE else if k == 1 then s.applied Fld.CC1_ROLE else 0

/-- What a source offers (R415, R419): the loaded objects, EPR ones only with EPR_ENABLE; one Fixed PDO of 5 V when nothing is loaded. -/
def State.offered (s : State) (k : Nat) : List Word :=
  let c := s.chn k
  if c.srcCaps.isEmpty then [fixedPdo 5000 (rpMa c.rpBase 900)]
  else if s.cv Fld.EPR_ENABLE == 0 then c.srcCaps.take 7 else c.srcCaps

/-- Sink capabilities: as loaded, or 5 V at 900 mA (R415). -/
def State.sinkCapsOf (s : State) (k : Nat) : List Word :=
  if (s.chn k).snkCaps.isEmpty then [fixedPdo 5000 900] else (s.chn k).snkCaps

/-! ### Contracts and P_pd (R420) -/

/-- A channel's contribution in mW. -/
def CcSt.watts (c : CcSt) : Nat :=
  if c.state != 5 then 0
  else
    let now := c.mv * c.ma / 1000
    if c.moving then min now (c.nextMv * c.nextMa / 1000) else now

/-- P_pd in mW, none when no contract supplies the hub (R420). -/
def State.derivePd (s : State) : Option Nat :=
  if s.cv Fld.PD_SUPPLIES_HUB == 0 || !(s.cc.any fun c => c.state == 5) then none
  else some (min 14500 (total (s.cc.map CcSt.watts) * s.cv Fld.PD_HUB_SHARE_PCT / 100))

/-- Contributions taken anew, and EV158 when P_pd changes; a feed whose port has ceased to be a sink lapses with them (R437). -/
def State.budgetPd (s : State) (k : Nat) : State :=
  let s := s.feedsLapse
  let s : State := { s with cc := s.cc.map fun c => { c with contrib := c.watts } }
  let now := s.derivePd
  let was := s.plan.pPd.getD 14500
  let s : State := { s with plan := { s.plan with pPd := now } }
  s.raiseIf (was != now.getD 14500) 158 (k + 65536 * now.getD 14500)

/-- A contract established or changed: EV145. -/
def State.setContract (s : State) (k kind mv ma : Nat) : State :=
  let s := s.setChn k fun c => { c with contract := kind, mv := mv, ma := ma, moving := false, hadContract := c.hadContract || 2 ≤ kind }
  (s.raiseIf (2 ≤ kind) 145 (k + 256 * kind + 65536 * (mv / 100))).budgetPd k

/-! ### Pins, multiplexer (R411, R425, R428, R429) -/

/-- What a channel presents now. -/
def State.showPins (s : State) (k : Nat) : State :=
  let c := s.chn k
  let what := if c.state == 6 || c.state == 0 then 2 else if c.attached then (if c.src then 0 else 1) else if c.drpSrc then 0 else 1
  s.emit (.ccPins k what c.rp c.vconnOn)

/-- VCONN of a channel that is its source: on when Ra is seen and VCONN_ENABLE is 1, and no fault has latched it off (R425). -/
def State.vconn (s : State) (k : Nat) : State :=
  let on := (s.chn k).vconnSrc && (s.chn k).ra && s.cv Fld.VCONN_ENABLE == 1 && !(s.chn k).vconnFault && (s.chn k).attached
  (s.setChn k fun c => { c with vconnOn := on }).showPins k

/-- The fallback positions of Table 16.5. -/
def fallbackPos (p : Nat) (quiet : Bool) : Bool := !quiet && (p == 1 || p == 3 || p == 4 || p == 5)

/-- Mode, position or QUIET changed: EV153, and EV011 where a fallback position was entered or left. -/
def State.muxTo (s : State) (k position mode : Nat) (quiet : Bool) : State :=
  let c := s.chn k
  if c.position == position && c.mode == mode && c.quiet == quiet then s
  else
    let was := if fallbackPos c.position false then c.position else 0
    let now := if fallbackPos position false then position else 0
    let s := (s.setChn k fun c => { c with position := position, mode := mode, quiet := quiet }).emit (.mux k position quiet)
    (s.raise 153 (k + 16 * mode + 256 * position + 2048 * b2n quiet)).raiseIf (was != now) 11 0

/-- QUIET (R429): the position stays and no mode is entered. -/
def State.quietMux (s : State) (k : Nat) : State :=
  if k < 2 && !(s.chn k).quiet then s.muxTo k (s.chn k).position 0 true else s

/-- The lanes of a cable port begin training at step 1 of Table 5.6 (R427), and a bring-up that had ended begins anew. -/
def State.beginTraining (s : State) (p : Nat) : State :=
  if s.phyOut p then s else
  let ended := nth s.topo.portRole p .none == .ended || nth s.topo.portRole p .none == .held
  let s : State := if ended then { s with topo := { s.topo with portRole := put s.topo.portRole p .none, heldT := put s.topo.heldT p false } } else s
  { s with cable := { s.cable with
    cpx := s.cable.cpx.modify p fun c => { c with step := 1, restarts := 0 }
    links := s.cable.links.modify p fun l => if l.state == 0 then { l with state := 1 } else l } }

/-- A mode entered (R427, R428): VENDOR starts the lanes. -/
def State.modeEntered (s : State) (k mode : Nat) : State :=
  let s := s.muxTo k (if mode == 1 then 2 else if mode == 2 then 3 else 4) mode false
  if mode == 1 then s.beginTraining k else s

/-- The fallback DPX of a cable port; 15 for none. -/
def State.fallbackDpx (s : State) (p : Nat) : Nat := s.cv (if p == 0 then Fld.FALLBACK_DPX_CP0 else Fld.FALLBACK_DPX_CP1)

/-- A DisplayPort position is permitted (Table 16.5, R25, Table 4.10). -/
def State.dpPermitted (s : State) (k : Nat) : Bool :=
  let d := s.fallbackDpx k
  let c := s.chn k
  (c.dfp || s.topo.role != .hostside) && d < 4 && nth s.topo.ends d 0 != 0
    && !s.endBusy d

/-! ### Messages of an AMS (R414) -/

/-- The Rp shown while no AMS of the hub's runs: 3.0 A (SinkTxOK) as a source toward a partner of Revision 3.x, else as configured (R414). -/
def CcSt.idleRp (c : CcSt) : Nat := if c.src && c.pd && c.rev == 1 then 2 else c.rpBase

/-- A source shows the Rp of idleness. -/
def State.restRp (s : State) (k : Nat) : State :=
  let c := s.chn k
  if c.src && c.rp != c.idleRp then (s.setChn k fun c => { c with rp := c.idleRp }).showPins k else s

/-- The hub's own AMS waits: as a source for SINK_TX_MS of SinkTxNG, as a sink while Rp does not show SinkTxOK (R414). -/
def CcSt.amsWaits (c : CcSt) : Bool := c.pd && c.rev == 1 && (c.src || c.farRp != 2)

/-- The first message of an AMS of this hub's own: queued while it waits; a source then shows SinkTxNG (R414). -/
def State.startAms (s : State) (k : Nat) (kind : PdKind) (objs : List Word) (what : PdFor) (sop : Nat := 0) : State :=
  let c := s.chn k
  if c.amsWaits && c.queued.isNone && !s.romNow then
    let s := s.setChn k fun c => { c with queued := some ⟨sop, kind, objs, 0, what⟩, rp := if c.src then 1 else c.rp }
    if c.src then (s.ccStart k .sinkTx (msTicks (s.cv Fld.SINK_TX_MS))).showPins k else s
  else s.pdSend k kind objs what sop

/-- The AMS is over: SinkTxOK again. -/
def State.endAms (s : State) (k : Nat) : State := ((s.setChn k fun c => { c with waiting := .none }).ccStop k .senderResponse).restRp k

/-- A queued own message goes on the wire (R414, R423). -/
def State.sendQueued (s : State) (k : Nat) : State :=
  match (s.chn k).queued with
  | none => s
  | some o =>
    let s := (s.setChn k fun c => { c with
      queued := none, swap := if o.what == PdFor.swap then c.swap.map fun w => { w with phase := 1 } else c.swap }).ccStop k .sinkTx
    s.pdSend k o.kind o.objs o.what o.sop

/-- Source_Capabilities sent (R415): EPR objects in EPR mode only. -/
def State.sendCaps (s : State) (k : Nat) : State :=
  s.pdSend k .sourceCaps (if (s.chn k).epr then s.offered k else (s.offered k).take 7)

/-! ### Completions -/

/-- The `cpwr.swap` of a channel, if one waits, completes with an outcome of Table 16.8; EV148 in every case (R421 to R424). -/
def State.swapDone (s : State) (k : Nat) (w : PdSwap) (outcome : Nat) : State :=
  let s := (s.setChn k fun c => { c with swap := none }).raise 148 (k + 8 * w.kind + 256 * outcome)
  match w.job with
  | some (via, h) => s.finish via h 0 (leBytes 1 outcome)
  | none => s

/-- The `cpwr.request` of a channel completes. -/
def State.requestDone (s : State) (k : Nat) (rc : Rc) : State :=
  match (s.chn k).reqJob with
  | some (via, h) => (s.setChn k fun c => { c with reqJob := none }).finishRc via h rc
  | none => s

/-- The `cpwr.mode.enter` of a channel completes. -/
def State.modeDone (s : State) (k : Nat) (rc : Rc) : State :=
  match (s.chn k).entering with
  | some (_, _, some (via, h)) => (s.setChn k fun c => { c with entering := none }).finishRc via h rc
  | _ => s.setChn k fun c => { c with entering := none }

/-- What a message was sent for is told that it failed: `cpwr.msg.send` by its outcome (Table 16.8), the others with a result
(HW_FAULT; DESIGN CHOICE, log entry 28). -/
def State.sendFailed (s : State) (k : Nat) (o : PdOut) (outcome : Nat) : State :=
  match o.what with
  | .msg (some (via, h)) => s.finish via h 0 (leBytes 1 outcome)
  | .request => s.requestDone k .hwFault
  | .mode => s.modeDone k .hwFault
  | _ => s

/-! ### Hard reset and ErrorRecovery (R418, R424) -/

/-- Everything that waits on a channel completes: `cpwr.msg.send` DISCARDED, the others BAD_STATE (DESIGN CHOICE, log entry 28). -/
def State.dropAms (s : State) (k : Nat) : State :=
  let c := s.chn k
  let s := (c.queued.toList ++ c.outq).foldl (fun (s : State) o => s.sendFailed k o 2) s
  let s := match c.sent with
    | some o => (match o.what with
      | .msg (some (via, h)) => s.finish via h 0 (leBytes 1 2)
      | _ => s)
    | none => s
  let s := (s.requestDone k .badState).modeDone k .badState
  s.setChn k fun c => { c with
    queued := none, sent := none, outq := [], waiting := .none, asked := none, moving := false
    timers := c.timers.filter fun x => x.1 == .eprKeepalive || x.1 == .eprTimeout || x.1 == .drp }

/-- EPR mode entered: EV155, and the keep-alive of the sink or the source's wait for it (R419). -/
def State.enterEpr (s : State) (k : Nat) : State :=
  let c := s.chn k
  let s := s.setChn k fun c => { c with epr := true }
  let s := if c.src then s.ccStart k .eprTimeout (msTicks 875) else s.ccStart k .eprKeepalive (msTicks (s.cv Fld.EPR_KEEPALIVE_MS))
  s.raiseIf (!c.epr) 155 (k + 8)

/-- EPR mode left: EV155. -/
def State.leaveEpr (s : State) (k : Nat) : State :=
  if (s.chn k).epr then
    (((s.setChn k fun c => { c with epr := false }).ccStop k .eprKeepalive).ccStop k .eprTimeout).raise 155 k
  else s

/-- The MessageIDs of a channel start again. -/
def CcSt.freshIds (c : CcSt) : CcSt := { c with txIds := [0, 0, 0], rxIds := [none, none, none] }

/-- ErrorRecovery (R424): no terminations, VBUS and VCONN off, QUIET; EV150 with the cause. -/
def State.errorRecovery (s : State) (k cause : Nat) : State :=
  let s := s.dropAms k
  let s := s.setChn k fun c => { c with
    state := 6, vconnOn := false, contract := 0, mv := 0, ma := 0, recovering := false, swap := none, pd := false }
  let s := (s.ccStop k .drp).ccStart k .errorRecovery (msTicks (s.cv Fld.ERROR_RECOVERY_MS))
  let s := (((s.vbusOff k).showPins k).quietMux k).leaveEpr k
  (s.raise 150 (k + 16 * cause)).budgetPd k

/-- The wait of R418 begins once VBUS is at vSafe0V. -/
def State.recoverWait (s : State) (k : Nat) : State :=
  if s.vSafe0 k && !(s.chn k).runs .srcRecover then s.ccStart k .srcRecover (msTicks (s.cv Fld.SRC_RECOVER_MS)) else s

/-- The outcomes of R418 with the roles now held. A sink's part in it lasts until the source offers again, or for the longest time that PD
gives the source (1,925 ms, PRESUMED, log entry 28). -/
def State.resetChannel (s : State) (k : Nat) : State :=
  let c := s.chn k
  let s := ((s.dropAms k).quietMux k).leaveEpr k
  let s := s.setChn k fun c => { c.freshIds with
    dfp := c.src, vconnSrc := c.src, recovering := true, autoDr := false, discStep := if c.discStep == 6 then 6 else 0 }
  let s := s.setContract k 1 5000 (if c.src then rpMa c.rpBase 900 else rpMa c.farRp 500)
  let s := (s.restRp k).vconn k
  if c.src then (s.vbusOff k).recoverWait k else s.ccStart k .srcRecover (msTicks 1925)

/-- The row of Table 16.4 that a swap in progress gives; 0 for none. -/
def swapRow (w : Option PdSwap) : Nat :=
  match w with
  | none => 0
  | some w =>
    if w.kind == 0 then (if w.phase ≤ 1 then 1 else if w.phase == 2 then 2 else if w.phase == 3 then 3 else 4)
    else if w.kind == 2 then (if w.phase ≤ 1 then 5 else 6)
    else 7

/-- A hard reset, signalled or received (R418, R424): EV149 with the row of Table 16.4. -/
def State.hardReset (s : State) (k : Nat) (own : Bool) : State :=
  let w := (s.chn k).swap
  let row := swapRow w
  let s := if own then s.emit (.hardReset k 0) else s
  let s := (s.setChn k fun c => { c with hardResets := satAdd 32 c.hardResets 1 }).raise 149 (k + 8 * b2n own + 16 * row)
  let fatal := row == 2 || row == 3
  let s := match w with
    | some w => s.swapDone k w (if fatal then 6 else 5)
    | none => s
  if fatal then s.errorRecovery k 0
  else
    let s := s.resetChannel k
    if row == 6 then (s.setChn k fun c => { c with vconnOn := false }).showPins k else s

/-! ### Discovery (R426) -/

/-- The results are complete: EV152. -/
def State.discovered (s : State) (k : Nat) : State :=
  let c := s.chn k
  let gen := c.vendorVdo.toNat % 16
  let triol := c.svids.contains 0x1E9B && (gen == 1 || gen == 2)
  (s.setChn k fun c => { c with discStep := 6, waiting := .none }).raise 152
    (k + 8 * b2n triol + 16 * b2n (c.svids.contains 0xFF01) + 32 * b2n (!c.idCable.isEmpty))

/-- A step of discovery sent; steps that do not apply are passed over. -/
def State.discSend (s : State) (k step : Nat) : State :=
  let c := s.chn k
  let go := fun (s : State) (n sop svid cmd : Nat) =>
    (s.setChn k fun c => { c with discStep := n, waiting := .discover }).startAms k (.vdm svid cmd 0) [] .discover sop
  let modes := fun (s : State) => if c.svids.contains 0xFF01 then go s 5 0 0xFF01 3 else s.discovered k
  match step with
  | 1 => if c.vconnSrc && c.ra then go s 1 1 0xFF00 1 else go s 2 0 0xFF00 1
  | 2 => go s 2 0 0xFF00 1
  | 3 => go s 3 0 0xFF00 2
  | 4 => if c.svids.contains 0x1E9B then go s 4 0 0x1E9B 3 else modes s
  | 5 => modes s
  | _ => s.discovered k

/-- The step in progress ends, with an answer or without, and the next begins. -/
def State.discNext (s : State) (k : Nat) : State := s.discSend k ((s.chn k).discStep + 1)

/-! ### Roles (R421) -/

/-- Whether a cable port's channel prefers DFP. -/
def State.prefersDfp (s : State) (k : Nat) : Bool :=
  match s.topo.role with
  | .hostside => true
  | .relay => (s.chn (1 - k)).hadContract
  | _ => false

/-- After the first explicit contract on a cable port: one DR_Swap where the role differs from the preferred one, discovery as DFP. -/
def State.firstContract (s : State) (k : Nat) : State :=
  let c := s.chn k
  if 2 ≤ k || c.autoDr then s
  else
    let s := s.setChn k fun c => { c with autoDr := true }
    if s.cv Fld.DATA_ROLE_AUTO == 1 && c.dfp != s.prefersDfp k && c.swap.isNone then
      (s.setChn k fun c => { c with swap := some ⟨1, true, b2n !c.amsWaits, none⟩, waiting := .swap }).startAms k .drSwap [] .swap
    else if c.dfp && c.discStep == 0 then s.discSend k 1
    else s

/-- An explicit contract as made: SPR, or EPR in EPR mode. -/
def State.contractMade (s : State) (k : Nat) : State :=
  let c := s.chn k
  ((s.ccStop k .psTransition).setContract k (if c.epr then 3 else 2) c.nextMv c.nextMa).firstContract k

/-- A swap is over and done: the roles are the new ones (R422). -/
def State.swapFinished (s : State) (k : Nat) : State :=
  match (s.chn k).swap with
  | none => s
  | some w =>
    let s := match w.kind with
      | 0 =>
        let src := !(s.chn k).src
        let s := ((s.leaveEpr k).ccStop k .psSourceOff).ccStop k .psSourceOn
        let s := s.setChn k fun c => { c with src := src, state := if src then 4 else 5, rp := c.rpBase, farRp := if src then c.farRp else 2 }
        let s := if src then s else s.vbusSink k
        let s := s.setContract k 1 5000 (if src then rpMa (s.chn k).rpBase 900 else rpMa (s.chn k).farRp 500)
        if src then s.sendCaps k else s
      | 1 => s.setChn k fun c => { c with dfp := !c.dfp }
      | _ => (s.setChn k fun c => { c with vconnSrc := !c.vconnSrc, vconnFault := false }).vconn k
    let s := (s.swapDone k w (if w.own then 0 else if w.job.isSome then 3 else 0)).endAms k
    if w.kind == 1 && (s.chn k).dfp && (s.chn k).discStep == 0 && (s.chn k).hadContract then s.discSend k 1 else s

def State.swapPhase (s : State) (k phase : Nat) : State :=
  s.setChn k fun c => { c with swap := c.swap.map fun w => { w with phase := phase } }

/-- The Accept of a swap has been acknowledged (R422). -/
def State.swapAccepted (s : State) (k : Nat) : State :=
  match (s.chn k).swap with
  | none => s
  | some w =>
    let s := s.swapPhase k 2
    match w.kind with
    | 0 => if (s.chn k).src then s.ccStart k .srcTransition (msTicks (s.cv Fld.SRC_TRANSITION_MS))
      else s.ccStart k .psSourceOff (msTicks (s.cv Fld.PS_SOURCE_OFF_MS))
    | 1 => s.swapFinished k
    | _ =>
      if (s.chn k).vconnSrc then s
      else
        let on := s.cv Fld.VCONN_ENABLE == 1 && (s.chn k).ra
        ((s.setChn k fun c => { c with vconnOn := on }).showPins k).pdSend k .psRdy [] .swap

/-! ### The power path tells of VBUS (R416, R418, R422, R442) -/

/-- A source's VBUS may be on: a downstream port's needs its port power (R304). -/
def State.srcPowered (s : State) (k : Nat) : Bool := k < 2 || !s.isUsbHub || (s.usbPort (k - 1)).power

/-- VBUS of a channel has settled at its target: a hard reset's wait begins, PS_RDY follows, or VBUS goes on for an attached sink. -/
def State.cpwrSettled (s : State) (k : Nat) : State :=
  let c := s.chn k
  match c.swap with
  | some w =>
    if w.kind == 0 && w.phase == 2 && c.src then
      -- the old source: Rd asserted, then PS_RDY
      (s.emit (.ccPins k 1 c.rp c.vconnOn)).pdSend k .psRdy [] .swap
    else if w.kind == 0 && w.phase == 3 && !c.src then s.pdSend k .psRdy [] .swap
    else s
  | none =>
    if c.recovering then (if c.src then s.recoverWait k else s)
    else if c.src && c.moving && c.contract != 0 && (s.vsw k).target == c.nextMv then (s.pdSend k .psRdy []).contractMade k
    else if c.state == 4 && (s.vsw k).state == 0 && s.vSafe0 k && s.srcPowered k then s.vbusOn k 5000
    else s

/-! ### ROM mode (R546) -/

/-- A channel as ROM mode takes it over: no message is sent or waited for, Rp is ROM's, and a source gives 5 V on Type-C current alone. -/
def State.romChannel (s : State) (k : Nat) : State :=
  let s := (s.dropAms k).leaveEpr k
  let s := (s.setChn k fun c => { c with rp := s.rpOf k, rpBase := s.rpOf k }).showPins k
  let c := s.chn k
  if c.state == 4 then
    let s := if (s.vsw k).state == 1 && (s.vsw k).target != 5000 then s.vbusOn k 5000 else s
    s.setContract k 1 5000 (rpMa c.rp 900)
  else s

/-- The power sequencer goes to ROM mode: the channels, and the bays OFF. -/
def State.enterRom (s : State) : State :=
  let s := (upTo 6).foldl (fun (s : State) k => s.romChannel k) s
  (upTo 4).foldl (fun (s : State) b => if (s.bay b).state.conducts then s.bayRest b else s) s

/-- The power sequencer runs its image again, after ROM mode: the configured Rp, and the bays as they are asked for. -/
def State.leaveRom (s : State) : State :=
  if s.romNow then s
  else
    let s := (upTo 6).foldl (fun (s : State) k =>
      let rp := s.rpOf k
      if (s.chn k).rpBase == rp then s
      else
        let s := (s.setChn k fun c => { c with rp := rp, rpBase := rp }).showPins k
        if (s.chn k).state == 4 && (s.chn k).contract == 1 then s.setContract k 1 5000 (rpMa rp 900) else s) s
    (upTo 4).foldl (fun (s : State) b => s.bayTry b) s

end Sys2Proof.Machine
end

