-- ==== Sys2Proof/Machine/NetOps.lean ====
section
/-! DEFINITION. Network adapter (spec/12): frames and keys, the flow table, meters, the presence engine, binding and what paths
tell it. -/

namespace Sys2Proof.Machine

def State.netFunction (s : State) : Bool := nth s.topo.ends 6 0 == 1
def State.netPort (s : State) : Bool := nth s.topo.ends 6 0 == 2

def State.mac (s : State) (m : Nat) : MacSt := nth s.net.macs m .init
def State.setMac (s : State) (m : Nat) (f : MacSt → MacSt) : State := { s with net := { s.net with macs := s.net.macs.modify m f } }

/-! ### Frames -/

/-- A field of a frame, most significant byte first. -/
def beAt (off n : Nat) (f : List Byte) : Nat := beNat (slice off n f)

/-- The outer VLAN ID, the EtherType and where its payload begins. -/
def etherHead (f : List Byte) : Nat × Nat × Nat :=
  if beAt 12 2 f == 0x8100 then (beAt 14 2 f % 4096, beAt 16 2 f, 18) else (0, beAt 12 2 f, 14)

/-- What the key takes of an IP packet: protocol, addresses, ports, and where the protocol's own header begins. -/
structure IpParts where
  proto : Nat
  src   : List Byte
  dst   : List Byte
  sport : Nat
  dport : Nat
  body  : Nat

/-- Ports of TCP and UDP, 0 for other protocols and for later fragments (R333). -/
def ipPorts (f : List Byte) (proto frag body : Nat) : Nat × Nat :=
  if (proto == 6 || proto == 17) && frag == 0 then (beAt body 2 f, beAt (body + 2) 2 f) else (0, 0)

def ipv4Parts (f : List Byte) (p : Nat) : IpParts :=
  let body := p + 4 * fieldAt (beAt p 1 f) 0 4
  let proto := beAt (p + 9) 1 f
  let (a, b) := ipPorts f proto (beAt (p + 6) 2 f % 8192) body
  { proto := proto, src := zeros 12 ++ slice (p + 12) 4 f, dst := zeros 12 ++ slice (p + 16) 4 f, sport := a, dport := b, body := body }

def ipv6Parts (f : List Byte) (p : Nat) : IpParts :=
  let frag := beAt (p + 6) 1 f == 44
  let proto := if frag then beAt (p + 40) 1 f else beAt (p + 6) 1 f
  let body := if frag then p + 48 else p + 40
  let (a, b) := ipPorts f proto (if frag then beAt (p + 42) 2 f / 8 else 0) body
  { proto := proto, src := slice (p + 8) 16 f, dst := slice (p + 24) 16 f, sport := a, dport := b, body := body }

/-- The parts of a frame's IP packet, if it carries one. -/
def ipParts (f : List Byte) : Option IpParts :=
  let (_, ty, p) := etherHead f
  if ty == 0x0800 then some (ipv4Parts f p) else if ty == 0x86DD then some (ipv6Parts f p) else none

/-- The 42-byte key (R333); its 2-byte numbers are little-endian as in every mailbox message (R5; log entry 29). -/
def flowKey (mac : Nat) (hostTx : Bool) (f : List Byte) : List Byte :=
  let (vlan, ty, _) := etherHead f
  let head := leBytes 1 (mac % 2 + 2 * b2n hostTx) ++ leBytes 2 vlan ++ leBytes 2 ty
  match ipParts f with
  | some x => head ++ leBytes 1 x.proto ++ fitBytes 16 x.src ++ fitBytes 16 x.dst ++ leBytes 2 x.sport ++ leBytes 2 x.dport
  | none => head ++ zeros 1 ++ zeros 10 ++ fitBytes 6 (slice 6 6 f) ++ zeros 10 ++ fitBytes 6 (slice 0 6 f) ++ zeros 4

/-- The flow hash and its bucket (R333). -/
def flowHash (key : List Byte) : Nat := crc32c key
def flowBucket (key : List Byte) : Nat := flowHash key % 131072

/-! ### Action words (Table 12.6) -/

def NetAct.word (a : NetAct) : Nat :=
  a.action % 4 * 2 ^ 62 + a.group % 8 * 2 ^ 59 + a.away % 4 * 2 ^ 57 + a.meter % 4096 * 2 ^ 45 + b2n a.learn * 2 ^ 44

def actOf (w : Nat) : NetAct :=
  { action := fieldAt w 62 2, group := fieldAt w 59 3, away := fieldAt w 57 2, meter := fieldAt w 45 12, learn := bitAt w 44 }

/-- The default action (R334). -/
def State.defaultAct (s : State) : NetAct := { action := 0, group := 0, away := s.cv Fld.NET_DEFAULT_AWAY, meter := 0, learn := false }

/-! ### Classification (R334 to R338) -/

/-- A rule matches when (key AND MASK) equals (VALUE AND MASK). -/
def ruleMatches (r : NetRule) (key : List Byte) : Bool :=
  r.isSet && (upTo 42).all fun i => (nth key i 0 &&& nth r.mask i 0) == (nth r.value i 0 &&& nth r.mask i 0)

def State.netRule (s : State) (i : Nat) : Option NetRule := s.net.rules.find? fun r => r.index == i

/-- The lowest-numbered rule that a key matches. -/
def State.firstRule (s : State) (key : List Byte) : Option NetRule :=
  (s.net.rules.filter fun r => ruleMatches r key).foldl (fun (b : Option NetRule) r =>
    match b with
    | none => some r
    | some x => if r.index < x.index then some r else b) none

def State.tick32 (s : State) : Word := s.time.tick.setWidth 32

/-- The entries of a bucket. -/
def State.bucket (s : State) (b : Nat) : List Flow := s.net.flows.filter fun e => e.bucket == b

/-- The first way of a bucket that is not VALID. -/
def freeWay (l : List Flow) : Option Nat := (upTo 8).find? fun w => !(l.any fun e => e.way == w)

/-- The entry with the oldest LAST_TICK of some. -/
def oldestOf (now : Word) (l : List Flow) : Option Flow :=
  l.foldl (fun (b : Option Flow) e =>
    match b with
    | none => some e
    | some x => if (now - x.last).toNat < (now - e.last).toNat then some e else b) none

/-- An entry put into its bucket and way. -/
def State.putFlow (s : State) (e : Flow) : State :=
  { s with net := { s.net with flows := (s.net.flows.filter fun x => !(x.bucket == e.bucket && x.way == e.way)) ++ [e] } }

/-- An exact entry learned from a rule (R335); the counted miss and EV115 when no way qualifies. -/
def State.learn (s : State) (key : List Byte) (r : NetRule) : State :=
  let b := flowBucket key
  let l := s.bucket b
  let idle := l.filter fun e => !e.static && msTicks (s.cv Fld.NET_EVICT_IDLE_MS) ≤ (s.tick32 - e.last).toNat
  let way := match freeWay l with
    | some w => some w
    | none => (oldestOf s.tick32 idle).map (·.way)
  match way with
  | some w =>
    s.putFlow { bucket := b, way := w, key := key, rule := r.index, gen := r.gen, static := false, act := r.act, last := s.tick32, hits := 1 }
  | none =>
    let s : State := { s with net := { s.net with learnFails := satAdd 32 s.net.learnFails 1 } }
    let due := match s.net.flowTick with
      | none => true
      | some t => 32 ≤ tickDiff s.time.tick t
    if due then ({ s with net := { s.net with flowTick := some s.time.tick } }).raise 115 b else s

/-- Step 3 of R334: the rules, else the default action. -/
def State.classifyRules (s : State) (key : List Byte) : NetAct × State :=
  match s.firstRule key with
  | some r => (r.act, if r.act.learn && s.mem.lpddr == .active then s.learn key r else s)
  | none => (s.defaultAct, s)

/-- A frame classified by its key (R334, R338); without LPDDR by rules only (Table 14.5). -/
def State.classify (s : State) (key : List Byte) : NetAct × State :=
  match (if s.mem.lpddr == .active then s.net.flows else []).find? fun e => e.key == key with
  | none => s.classifyRules key
  | some e =>
    let hit := { e with last := s.tick32, hits := satAdd 32 e.hits 1 }
    if e.static then (e.act, s.putFlow hit)
    else
      let cur := (s.netRule e.rule).getD ⟨e.rule, 0, false, [], [], e.act⟩
      if cur.gen == e.gen then (e.act, s.putFlow hit)
      else if ruleMatches cur key && cur.act.learn then (cur.act, s.putFlow { hit with act := cur.act, gen := cur.gen })
      else
        ({ s with net := { s.net with flows := s.net.flows.filter fun x => x.key != key } }).classifyRules key

/-- A frame at its meter (R339): whether it is within profile. A slot brings 125 ns of the rate: MBPS / 64 bytes. -/
def State.metered (s : State) (id len : Nat) : Bool × State :=
  match s.net.meters.find? fun m => m.id == id with
  | none => (true, s)
  | some m =>
    let tokens := min (m.burst * 64) (m.tokens + (s.slotCount - m.filled) * m.mbps)
    let ok := len * 64 ≤ tokens
    let m' : Meter :=
      { m with tokens := if ok then tokens - len * 64 else tokens, filled := s.slotCount, drops := if ok then m.drops else satAdd 64 m.drops 1 }
    (ok, { s with net := { s.net with meters := s.net.meters.map fun x => if x.id == id then m' else x } })

/-! ### Frames out -/

/-- A group with an open path, or group 0 (R326). -/
def State.openGroup (s : State) (g : Nat) : Nat :=
  if s.netFunction then (if s.net.groups.any fun x => x.group == g && x.isOpen then g else 0)
  else if s.net.labels.any fun x => x.2 == g then g else 0

/-- The binding's group 0 carries frames: its path is up. -/
def State.netUp (s : State) : Bool := s.net.bound && !s.net.suspended

/-- The label of a group's path, at either end. -/
def State.groupLabel (s : State) (g : Nat) : Nat :=
  if s.netFunction then s.labelOf (((s.net.groups.find? fun x => x.group == g).bind (·.path)).getD 0)
  else ((s.net.labels.find? fun x => x.2 == g).map (·.1)).getD 0

/-- The 8-byte header of Table 12.2, MSB first (R5). -/
def netHeader (typ mac group : Nat) (held : Bool) (len hash par : Nat) : List Byte :=
  beBytes 8 (typ % 8 * 2 ^ 61 + mac % 2 * 2 ^ 60 + group % 8 * 2 ^ 57 + b2n held * 2 ^ 56 + len % 16384 * 2 ^ 42 + hash % 2 ^ 32 * 2 ^ 10
    + par % 1024)

/-- The cells of a message on a group's path (R327). -/
def State.netCells (s : State) (typ mac group : Nat) (held : Bool) (hash par : Nat) (bs : List Byte) : List Cell :=
  dataCells (s.groupLabel group) 2 (netHeader typ mac group held bs.length hash par ++ bs)

/-- A message sent on a group's path while the binding's paths are up. -/
def State.netSend (s : State) (typ mac group : Nat) (held : Bool) (hash par : Nat) (bs : List Byte) : State :=
  if s.netUp then s.emit (.netMsg group (s.netCells typ mac group held hash par bs)) else s

/-- A FRAME sent on its group's path (R327). -/
def State.netForward (s : State) (mac group : Nat) (held : Bool) (hash : Nat) (frame : List Byte) : State :=
  s.netSend 0 mac (s.openGroup group) held hash 0 frame

/-- A frame for SVC over the local path between ports 9 and 10 in TC1, for the first running instance with NET (log entry 33);
dropped and counted when the path is not open (R333). -/
def State.netService (s : State) (frame : List Byte) : State :=
  if s.svcPath then
    let s : State := match s.svc.insts.find? fun x => x.state == 1 && bitAt x.caps 3 with
      | some i => { s with svc := { s.svc with insts := s.svc.insts.map fun x =>
          if x.id == i.id then { x with frames := x.frames ++ [frame] } else x } }
      | none => s
    s.emit (.toService frame)
  else { s with net := { s.net with svcDrops := satAdd 32 s.net.svcDrops 1 } }

/-- The FCS of a frame as its last four bytes: the CRC-32 of IEEE 802.3. -/
def fcsBytes (frame : List Byte) : List Byte := leBytes 4 (crc32 frame)

/-- A frame as it goes out: padded to 64 bytes, its FCS counted and appended (R323). -/
def onWire (frame : List Byte) : List Byte := let f := frame ++ zeros (60 - frame.length); f ++ fcsBytes f

/-- A received PAUSE still holds a MAC's transmission (R322). -/
def State.macHeld (s : State) (m : Nat) : Bool :=
  match (s.mac m).pauseEnd with
  | some t => !reached s.time.tick t
  | none => false

/-- A frame sent by a MAC (R323), kept while a PAUSE holds it; discarded and counted while the link is down (R329). -/
def State.macSend (s : State) (m : Nat) (frame : List Byte) : State :=
  if !(s.mac m).up then s.setMac m fun x => { x with txDrops := satAdd 32 x.txDrops 1 }
  else if s.macHeld m || !(s.mac m).txBuf.isEmpty then s.setMac m fun x => { x with txBuf := x.txBuf ++ [frame] }
  else (s.setMac m fun x => { x with framesOut := satAdd 64 x.framesOut 1 }).emit (.ethFrame m (onWire frame))

/-- The frames that a PAUSE has held go out once it is over. -/
def State.macResume (s : State) (m : Nat) : State :=
  if s.macHeld m then s
  else
    let l := (s.mac m).txBuf
    l.foldl (fun s f => s.macSend m f) (s.setMac m fun x => { x with pauseEnd := none, txBuf := [] })

/-- The rate of a SPEED code in Mb/s (Table 12.3). -/
def speedMbps (code : Nat) : Nat := nth [0, 10, 100, 1000, 2500, 10000, 25000] code 0

/-- A PAUSE frame obeyed (R322, Annex 31B): no frame is sent for its quanta of 512 bit times, in whole ticks. -/
def State.macPaused (s : State) (m quanta : Nat) : State :=
  if quanta == 0 then (s.setMac m fun x => { x with pauseEnd := none }).macResume m
  else
    let n := ceilDiv (quanta * 512 * 32) (max 1 (speedMbps (s.mac m).speed) * 1000)
    s.setMac m fun x => { x with pauseEnd := some (s.time.tick + BitVec.ofNat 48 n) }

/-! ### Wakes (R343, R344) -/

/-- A frame kept from a wake until the host returns, where it fits and LPDDR holds the buffer (Table 14.5). -/
def State.wakeKeep (s : State) (frame : List Byte) : State :=
  let used := total (s.net.wakeBuf.map fun x => x.2.length)
  if s.mem.lpddr == .active && used + frame.length ≤ s.cv Fld.NET_WAKE_BUFFER_KB * 1024 then
    { s with net := { s.net with wakeBuf := s.net.wakeBuf ++ [(s.time.tick, frame)], bufCnt := satAdd 32 s.net.bufCnt 1 } }
  else { s with net := { s.net with bufDrops := satAdd 32 s.net.bufDrops 1 } }

/-- A wake: EV118, WAKE on group 0 when its path is up; no second event while one is pending. -/
def State.netWake (s : State) (src : Nat) (frame : List Byte) : State :=
  let s := if s.net.wakePending then s
    else
      let s : State := { s with net := { s.net with wakePending := true, wakeAt := s.time.tick, wakes := satAdd 32 s.net.wakes 1 } }
      let s := s.raise 118 src
      s.netSend 2 s.net.boundMac 0 false 0 src []
  if src == 16 then s else s.wakeKeep frame

/-- A pattern matches over the first 128 bytes; bytes that the frame does not have are 0. -/
def patternMatches (value mask frame : List Byte) : Bool :=
  (upTo 128).all fun i => (nth frame i 0 &&& nth mask i 0) == (nth value i 0 &&& nth mask i 0)

/-- A magic packet for an address within the first 1,024 bytes. -/
def isMagic (addr : Nat) (frame : List Byte) : Bool :=
  let body := List.replicate 6 (0xFF : Byte) ++ (List.replicate 16 (beBytes 6 addr)).flatten
  let f := frame.take 1024
  (upTo (f.length + 1 - 102)).any fun i => 102 ≤ f.length && slice i 102 f == body

/-- A frame that the presence engine does not answer: the wake patterns, else dropped, or kept while a wake is pending. -/
def State.wakeCheck (s : State) (frame : List Byte) : State :=
  if s.net.magic && isMagic s.net.hostMac frame then s.netWake 16 frame
  else
    match s.net.patterns.find? fun p => patternMatches p.2.1 p.2.2 frame with
    | some p => s.netWake p.1 frame
    | none => if s.net.wakePending then s.wakeKeep frame else s

/-! ### The presence engine (R341, R342) -/

/-- One's complement sum of 16-bit words, the checksum of IP, ICMPv6 and UDP. -/
def sum16 : List Byte → Nat
  | [] => 0
  | [a] => a.toNat * 256
  | a :: b :: l => a.toNat * 256 + b.toNat + sum16 l

def checksum (bs : List Byte) : Nat :=
  let x := sum16 bs
  let y := x % 65536 + x / 65536
  let z := y % 65536 + y / 65536
  65535 - z

/-- An Ethernet frame, tagged as the frame that it answers. -/
def ether (vlan : Nat) (dst src : List Byte) (ty : Nat) (body : List Byte) : List Byte :=
  dst ++ src ++ (if vlan == 0 then [] else beBytes 2 0x8100 ++ beBytes 2 vlan) ++ beBytes 2 ty ++ body

/-- An IPv4 packet of a UDP datagram, and an IPv6 packet, with hop limit 255. -/
def ipv4Packet (src dst : List Byte) (proto : Nat) (body : List Byte) : List Byte :=
  let head := fun (c : Nat) => [0x45, 0] ++ beBytes 2 (20 + body.length) ++ [0, 0, 0, 0] ++ [255] ++ beBytes 1 proto ++ beBytes 2 c ++ src ++ dst
  head (checksum (head 0)) ++ body

def ipv6Packet (src dst : List Byte) (proto : Nat) (body : List Byte) : List Byte :=
  [0x60, 0, 0, 0] ++ beBytes 2 body.length ++ beBytes 1 proto ++ [255] ++ src ++ dst ++ body

/-- The pseudo header of UDP and ICMPv6 checksums. -/
def pseudo (src dst : List Byte) (proto len : Nat) : List Byte := src ++ dst ++ beBytes 4 len ++ beBytes 4 proto

def udpDatagram (src dst : List Byte) (sport dport : Nat) (body : List Byte) : List Byte :=
  let len := 8 + body.length
  let head := fun (c : Nat) => beBytes 2 sport ++ beBytes 2 dport ++ beBytes 2 len ++ beBytes 2 c
  let c := checksum (pseudo src dst 17 len ++ head 0 ++ body)
  head (if c == 0 then 65535 else c) ++ body

def State.hostMacBytes (s : State) : List Byte := beBytes 6 s.net.hostMac

/-- A proxied IPv4 address that still answers, and an IPv6 one. -/
def State.proxied4 (s : State) (a : Nat) : Bool := s.net.v4.any fun x => x.2.1 == a && !x.2.2
def State.proxied6 (s : State) (a : List Byte) : Bool := s.net.v6.any fun x => x.2.1 == a && !x.2.2

/-- Another station claims a proxied address (R342). -/
def State.conflict4 (s : State) (a : Nat) : State :=
  match s.net.v4.find? fun x => x.2.1 == a && !x.2.2 with
  | some x =>
    let mark := fun (y : Nat × Nat × Bool) => if y.1 == x.1 then (y.1, y.2.1, true) else y
    ({ s with net := { s.net with v4 := s.net.v4.map mark } }).raise 119 (2 * x.1)
  | none => s

def State.conflict6 (s : State) (a : List Byte) : State :=
  match s.net.v6.find? fun x => x.2.1 == a && !x.2.2 with
  | some x =>
    let mark := fun (y : Nat × List Byte × Bool) => if y.1 == x.1 then (y.1, y.2.1, true) else y
    ({ s with net := { s.net with v6 := s.net.v6.map mark } }).raise 119 (1 + 2 * x.1)
  | none => s

/-- ARP (R341, R342). -/
def State.proxyArp (s : State) (m : Nat) (f : List Byte) (vlan p : Nat) : State :=
  let sha := slice (p + 8) 6 f
  let spa := beAt (p + 14) 4 f
  let tpa := beAt (p + 24) 4 f
  let s := if s.proxied4 spa && sha != s.hostMacBytes then s.conflict4 spa else s
  if beAt (p + 6) 2 f == 1 && s.proxied4 tpa then
    let body := [0, 1, 8, 0, 6, 4, 0, 2] ++ s.hostMacBytes ++ beBytes 4 tpa ++ sha ++ beBytes 4 spa
    let s : State := { s with net := { s.net with arp := satAdd 32 s.net.arp 1 } }
    s.macSend m (ether vlan sha s.hostMacBytes 0x0806 body)
  else s.wakeCheck f

/-- Neighbor Discovery (R341, R342); false for a frame that is neither. -/
def State.proxyNd (s : State) (m : Nat) (f : List Byte) (vlan : Nat) (x : IpParts) : State :=
  let ty := beAt x.body 1 f
  let target := slice (x.body + 8) 16 f
  if ty == 136 then
    (if slice 6 6 f != s.hostMacBytes then s.conflict6 target else s).wakeCheck f
  else if ty == 135 && s.proxied6 target then
    let known := x.src != zeros 16
    let dst := if known then x.src else [0xFF, 0x02] ++ zeros 13 ++ [1]
    let dmac := if known then slice 6 6 f else [0x33, 0x33, 0, 0, 0, 1]
    let head := fun (c : Nat) => [136, 0] ++ beBytes 2 c ++ [if known then 0x60 else 0x20, 0, 0, 0] ++ target ++ [2, 1] ++ s.hostMacBytes
    let icmp := head (checksum (pseudo target dst 58 32 ++ head 0))
    let s : State := { s with net := { s.net with nd := satAdd 32 s.net.nd 1 } }
    s.macSend m (ether vlan dmac s.hostMacBytes 0x86DD (ipv6Packet target dst 58 icmp))
  else s.wakeCheck f

/-- A DNS name from an offset of a message: its labels lower-cased, and where the reading stopped; `hops` compression pointers at most,
`fuel` labels. -/
def dnsName (msg : List Byte) : Nat → Nat → Nat → Option (List (List Nat) × Nat)
  | 0, _, _ => none
  | fuel + 1, hops, off =>
    let n := beAt off 1 msg
    if msg.length ≤ off then none
    else if n == 0 then some ([], off + 1)
    else if 192 ≤ n then
      match hops with
      | 0 => none
      | h + 1 => (dnsName msg fuel h (beAt off 2 msg % 16384)).map fun x => (x.1, off + 2)
    else
      let label := (slice (off + 1) n msg).map fun b => let v := b.toNat; if 65 ≤ v && v ≤ 90 then v + 32 else v
      (dnsName msg fuel hops (off + 1 + n)).map fun x => (label :: x.1, x.2)

/-- The questions of a DNS message: name, type, class, the QU bit. -/
def dnsQuestions (msg : List Byte) : Nat → Nat → List (List (List Nat) × Nat × Nat × Bool)
  | 0, _ => []
  | n + 1, off =>
    match dnsName msg 130 8 off with
    | none => []
    | some (name, e) =>
      (name, beAt e 2 msg, beAt (e + 2) 2 msg % 32768, bitAt (beAt (e + 2) 2 msg) 15) :: dnsQuestions msg n (e + 4)

/-- A stored record's question: its name, type and class. -/
def MdnsRec.asks (r : MdnsRec) : Option (List (List Nat) × Nat × Nat) :=
  (dnsName r.question 130 8 0).map fun x => (x.1, beAt x.2 2 r.question, beAt (x.2 + 2) 2 r.question % 32768)

/-- mDNS (R341): the stored response of each record that a question matches, by unicast with QU, else multicast at most once per
MDNS_RATE_MS. -/
def State.proxyMdns (s : State) (m : Nat) (f : List Byte) (vlan : Nat) (v6 : Bool) (x : IpParts) : State :=
  let msg := f.drop (x.body + 8)
  let qs := dnsQuestions msg (min 64 (beAt 4 2 msg)) 12
  let src6 := ((s.net.v6.find? fun y => !y.2.2).map (·.2.1)).getD (zeros 16)
  let src4 := beBytes 4 (((s.net.v4.find? fun y => !y.2.2).map (·.2.1)).getD 0)
  let send := fun (s : State) (uni : Bool) (body : List Byte) =>
    let dst := if uni then (if v6 then x.src else x.src.drop 12) else if v6 then [0xFF, 0x02] ++ zeros 13 ++ [0xFB] else [224, 0, 0, 251]
    let dmac := if uni then slice 6 6 f else if v6 then [0x33, 0x33, 0, 0, 0, 0xFB] else [0x01, 0x00, 0x5E, 0, 0, 0xFB]
    let src := if v6 then src6 else src4
    let udp := udpDatagram src dst 5353 5353 body
    let s : State := { s with net := { s.net with mdnsCnt := satAdd 32 s.net.mdnsCnt 1 } }
    s.macSend m (ether vlan dmac s.hostMacBytes (if v6 then 0x86DD else 0x0800)
      (if v6 then ipv6Packet src dst 17 udp else ipv4Packet src dst 17 udp))
  let hit := s.net.mdns.filter fun r => qs.any fun q => r.asks == some (q.1, q.2.1, q.2.2.1)
  if hit.isEmpty then s.wakeCheck f
  else
    hit.foldl (fun s r =>
      let uni := qs.any fun q => r.asks == some (q.1, q.2.1, q.2.2.1) && q.2.2.2
      let due := match r.sent with
        | none => true
        | some t => msTicks (s.cv Fld.MDNS_RATE_MS) ≤ tickDiff s.time.tick t
      if uni then send s true r.response
      else if due then
        let stamp := fun (y : MdnsRec) => if y.index == r.index then { y with sent := some s.time.tick } else y
        send { s with net := { s.net with mdns := s.net.mdns.map stamp } } false r.response
      else s) s

/-- The presence engine on one frame (R341). -/
def State.proxy (s : State) (m : Nat) (f : List Byte) : State :=
  let (vlan, ty, p) := etherHead f
  if ty == 0x0806 then s.proxyArp m f vlan p
  else
    match ipParts f with
    | none => s.wakeCheck f
    | some x =>
      let v6 := ty == 0x86DD
      if v6 && x.proto == 58 then s.proxyNd m f vlan x
      else if x.proto == 17 && x.dport == 5353 && x.sport == 5353 && !(bitAt (beAt (x.body + 10) 2 f) 15)
          && x.dst == (if v6 then [0xFF, 0x02] ++ zeros 13 ++ [0xFB] else zeros 12 ++ [224, 0, 0, 251]) then s.proxyMdns m f vlan v6 x
      else s.wakeCheck f

/-! ### Presence (R340, R344) -/

/-- The cause of an absence, if there is one: 0 unbound, 1 path, 2 PRESENCE. -/
def State.absenceCause (s : State) : Option Nat :=
  if !s.netPort || s.cv Fld.PRESENCE_ENABLE == 0 then none
  else if !s.net.bound then some 0
  else if s.net.suspended then some 1
  else if s.net.saidAbsent then some 2
  else none

/-- The host returns: the buffered frames go out in order with WAKE_HELD, but for those too old; EV117 with how many. -/
def State.netReturn (s : State) : State :=
  let young := fun (x : Tick × List Byte) => tickDiff s.time.tick x.1 ≤ msTicks (s.cv Fld.NET_WAKE_BUFFER_MS)
  let good := s.net.wakeBuf.filter young
  let bad := s.net.wakeBuf.length - good.length
  let s : State := { s with net := { s.net with
    absent := false, wakePending := false, wakeBuf := [], bufDrops := satAdd 32 s.net.bufDrops bad } }
  let s := good.foldl (fun s x => s.netForward s.net.boundMac 0 true (flowHash (flowKey s.net.boundMac false x.2)) x.2) s
  s.raise 117 (min 65535 good.length)

/-! ### Frames from the MACs (R323, R324, R329, R334, R340) -/

/-- A frame's AWAY action (R340). -/
def State.awayAct (s : State) (mac : Nat) (act : NetAct) (frame : List Byte) : State :=
  match act.away with
  | 0 => s
  | 1 => s.proxy mac frame
  | 2 => s.netWake 17 frame
  | _ => s.netService frame

/-- A received frame classified and handled: the bound MAC's flows as their action says, or as AWAY says while the host is absent;
the other MAC carries only SERVICE flows. -/
def State.netProcess (s : State) (mac : Nat) (frame : List Byte) : State :=
  let key := flowKey mac false frame
  let (act, s) := s.classify key
  let (ok, s) := s.metered act.meter frame.length
  if !ok then s
  else if mac != s.net.boundMac then (if act.action == 2 then s.netService frame else s)
  else if s.net.absent then s.awayAct mac act frame
  else
    match act.action with
    | 0 => s.netForward mac act.group false (flowHash key) frame
    | 2 => s.netService frame
    | _ => s

/-- The receive buffer's PAUSE (R324). -/
def State.pauseCheck (s : State) (mac : Nat) : State :=
  let n := total ((s.mac mac).rxBuf.map (·.length))
  if s.cv Fld.NET_PAUSE == 0 then s
  else if !(s.mac mac).paused && 196608 < n then (s.setMac mac fun m => { m with paused := true }).emit (.pause mac 0xFFFF)
  else if (s.mac mac).paused && n < 131072 then (s.setMac mac fun m => { m with paused := false }).emit (.pause mac 0)
  else s

/-- The frames of a receive buffer handled while TC2 is ready at port 9. -/
def State.drainMac (s : State) (mac : Nat) : State :=
  let l := (s.mac mac).rxBuf
  if l.isEmpty || !s.classReady 9 2 then s.pauseCheck mac
  else
    let s := s.setMac mac fun m => { m with rxBuf := [] }
    (l.foldl (fun s f => s.netProcess mac f) s).pauseCheck mac

/-- What the network adapter does at a tick boundary: rule changes take effect (R338), absence and presence begin (R340), and the MACs'
buffers go on (R322, R324). -/
def State.netTick (s : State) : State :=
  let keep := s.net.rules.filter fun r => !(s.net.ruleNext.any fun x => x.index == r.index)
  let last := fun (i : Nat) => s.net.ruleNext.reverse.find? fun x => x.index == i
  let fresh := ((s.net.ruleNext.map (·.index)).eraseDups).filterMap last
  let s : State := { s with net := { s.net with rules := keep ++ fresh, ruleNext := [] } }
  let s := match s.absenceCause with
    | some c => if s.net.absent then s else ({ s with net := { s.net with absent := true } } : State).raise 116 c
    | none => if s.net.absent then s.netReturn else s
  [0, 1].foldl (fun s m => (s.macResume m).drainMac m) s

/-! ### Binding (R325, R326) -/

/-- PRESENCE of the FUNCTION end, with the host's address as its content, MSB first (R5; log entry 29), once it knows the MAC. -/
def State.sendPresence (s : State) : State :=
  if s.net.macKnown then s.netSend 1 s.net.boundMac 0 false 0 (b2n (s.net.enable && !s.net.d3hot)) (beBytes 6 s.net.macAddr) else s

/-- LINK_STATE of the PORT end. -/
def State.sendLinkState (s : State) : State :=
  let m := s.mac s.net.boundMac
  s.netSend 3 s.net.boundMac 0 false 0 (b2n m.up + 2 * (if m.up then m.speed else 0)) (beBytes 2 m.maxFrame)

/-- EV113: bound, hops, chain, failed. -/
def State.bindEvent (s : State) (on failed : Bool) : State :=
  s.raise 113 (b2n on + 2 * (s.net.hops % 8) + 16 * (s.net.chain % 2) + 32 * b2n failed)

def State.netGroup (s : State) (g : Nat) : Option NetGroup := s.net.groups.find? fun x => x.group == g

/-- A group closed: its path and contract go. -/
def State.closeGroup (s : State) (g : Nat) : State :=
  match s.netGroup g with
  | none => s
  | some x =>
    let s := match x.path with
      | some id => s.closePath id
      | none => s
    let s := if x.contract == 0 then s
      else (s.clearContract x.contract).sendClears ((s.pathPort s.net.chain).getD 0) s.net.hops [x.contract]
    { s with net := { s.net with groups := s.net.groups.filter fun y => y.group != g } }

/-- A group's opening failed. -/
def State.groupFailed (s : State) (g rc : Nat) (data : List Byte) : State :=
  let job := (s.netGroup g).bind (·.job)
  let s := s.closeGroup g
  let s := if g == 0 then ({ s with net := { s.net with binding := false } }).bindEvent false true else s
  match job with
  | some (via, h) => s.finish via h rc data
  | none => s

/-- The path of a group opened once its contracts stand. -/
def State.netNext (s : State) (g : Nat) : State :=
  match s.netGroup g with
  | none => s
  | some x =>
    if x.path.isSome then s
    else
      let a := s.openPath (.net g) none 9 s.net.hops s.net.chain 9 2 true x.contract
      if a.rc.bad then s.groupFailed g a.rc.code []
      else
        let f := fun (y : NetGroup) => if y.group == g then { y with path := some a.id } else y
        { a.st with net := { a.st.net with groups := a.st.net.groups.map f } }

/-- A group's opening begun: its contract here and ahead, then its path. Answers the result and a BUDGET test. -/
def State.openGroupPath (s : State) (g along back : Nat) (job : Option (Via × Nat)) : ContractAns :=
  let cid := if along == 0 && back == 0 then 0 else 0xF80 + g
  match s.pathPort s.net.chain with
  | none => ⟨.badState, 0, s⟩
  | some port =>
    let c := s.mkContract cid 2 0xFF 9 port along back 16
    let a : ContractAns := if cid == 0 then ⟨.ok, 0, s⟩ else s.defineContract c true
    if a.rc != .ok then a
    else
      let s : State := { a.st with net := { a.st.net with groups := a.st.net.groups ++ [⟨g, none, false, cid, job⟩] } }
      ⟨.ok, 0, if cid == 0 then s.netNext g else s.sendContracts (.contract 3 g) port s.net.hops [c]⟩

/-- Binding begun (R325), to a MAC or to the one that the PORT end's NET_BIND_MAC names. -/
def State.netBindTo (s : State) (hops chain : Nat) (mac : Option Nat) (job : Option (Via × Nat)) : ContractAns :=
  let s : State := { s with net := { s.net with hops := hops, chain := chain, boundMac := mac.getD 0, macKnown := mac.isSome, binding := true } }
  let m := s.applied Fld.NET_GROUP0_MBPS
  s.openGroupPath 0 m m job

/-- A group's path is open: the binding forms with group 0. -/
def State.netPathUp (s : State) (g id label : Nat) : State :=
  let job := (s.netGroup g).bind (·.job)
  let f := fun (y : NetGroup) => if y.group == g then { y with isOpen := true, job := none } else y
  let s : State := { s with net := { s.net with groups := s.net.groups.map f } }
  let s := match job with
    | some (via, h) => s.finish via h 0 (leBytes 2 id ++ leBytes 2 label)
    | none => s
  if g == 0 then (({ s with net := { s.net with bound := true, binding := false } }).bindEvent true false).sendPresence else s

/-- The binding ends: every group is closed (R325). -/
def State.netUnbind (s : State) : State :=
  let was := s.net.bound
  let s := ((s.net.groups.map (·.group))).foldl (fun s g => s.closeGroup g) s
  let s : State := { s with net := { s.net with bound := false, binding := false, suspended := false, macKnown := false, farLink := false, farSpeed := 0 } }
  if was then s.bindEvent false false else s

/-- A group's path is gone, or could not be opened. -/
def State.netPathGone (s : State) (g : Nat) : State :=
  match s.netGroup g with
  | none => s
  | some x => if !x.isOpen then s.groupFailed g Rc.badState.code [] else if g == 0 then s.netUnbind else s.closeGroup g

/-- Automatic binding at a chain link-up (R325): the PORT end of the shallowest hub, CP0's chain before CP1's. -/
def State.netChainUp (s : State) : State :=
  if s.netFunction && s.topo.role == .hostside && s.applied Fld.NET_AUTO_BIND == 1 && !s.net.bound && !s.net.binding then
    let ports := s.cable.notices.filter fun n => n.2.event == 0 && n.2.net == 2
    match ports.foldl (fun (b : Option (Nat × Notice)) n =>
        match b with
        | none => some n
        | some x => if n.2.depth * 2 + n.1 < x.2.depth * 2 + x.1 then some n else b) none with
    | none => s
    | some n =>
      let a := s.netBindTo n.2.depth n.1 none none
      if a.rc != .ok then ({ a.st with net := { a.st.net with binding := false } }).bindEvent false true else a.st
  else s

/-! ### What paths tell the PORT end -/

/-- A TC2 path that ends at port 9: group 0 first, others by their contract's number; one without a contract is group 8, none of the
groups, until a frame on it names its group (log entry 29). -/
def State.netArrived (s : State) (p : Nat) (e : PathEntry) : State :=
  if e.egress == 9 && e.tc == 2 && s.netPort then
    let g := if !s.net.bound then 0 else if 0xF80 ≤ e.contract && e.contract ≤ 0xF87 then e.contract - 0xF80 else 8
    let s : State := { s with net := { s.net with labels := s.net.labels ++ [(e.label, g)] } }
    if g == 0 then
      let s : State := { s with net := { s.net with
        bound := true, inPort := p, suspended := false, saidAbsent := false, boundMac := s.applied Fld.NET_BIND_MAC } }
      (s.bindEvent true false).sendLinkState
    else s
  else s

def State.netLost (s : State) (p label : Nat) : State :=
  match s.net.labels.find? fun x => x.1 == label && s.net.inPort == p with
  | none => s
  | some x =>
    if x.2 == 0 then ({ s with net := { s.net with labels := [], bound := false, suspended := false } }).bindEvent false false
    else { s with net := { s.net with labels := s.net.labels.filter fun y => y.1 != label } }

/-- The cable port of a binding's group 0. -/
def State.netCable (s : State) : Option Nat :=
  if !s.net.bound then none
  else if s.netPort then some s.net.inPort
  else ((s.netGroup 0).bind (·.path)).bind fun id => (s.pathById id).bind (·.port)

def State.netSuspended (s : State) (p : Nat) : State :=
  if s.netCable == some p then { s with net := { s.net with suspended := true } } else s

def State.netResumed (s : State) (p : Nat) : State :=
  if s.netCable == some p then { s with net := { s.net with suspended := false } } else s

end Sys2Proof.Machine
end

