-- ==== Sys2Proof/Machine/SbOps.lean ====
section
/-! DEFINITION. The sideband bridge's shared operations (spec/13): routing, transactions, locks, wounds and interrupts. -/

namespace Sys2Proof.Machine

/-! ### Routing (R350, Table 13.2) -/

/-- The eight bytes of a routing entry; 0 where it is not VALID. -/
def routeWord : Option SbRoute → Nat
  | none => 0
  | some r =>
    2 ^ 63 + r.srcKind % 8 * 2 ^ 60 + r.srcIf % 16 * 2 ^ 56 + r.srcId % 1024 * 2 ^ 46 + r.hops % 8 * 2 ^ 43
      + b2n r.up * 2 ^ 42 + r.chain % 2 * 2 ^ 41 + r.dstKind % 8 * 2 ^ 38 + r.dstIf % 16 * 2 ^ 34 + r.dstId % 1024 * 2 ^ 24
      + b2n r.hold * 2 ^ 23 + b2n r.writeOk * 2 ^ 22 + b2n r.readOk * 2 ^ 21

/-- A routing entry read from its word; none where VALID is 0. -/
def routeOf (w : Nat) : Option SbRoute :=
  if bitAt w 63 then
    some ⟨fieldAt w 60 3, fieldAt w 56 4, fieldAt w 46 10, fieldAt w 43 3, bitAt w 42, fieldAt w 41 1, fieldAt w 38 3,
      fieldAt w 34 4, fieldAt w 24 10, bitAt w 23, bitAt w 22, bitAt w 21⟩
  else none

/-- An entry whose encodings Table 13.2 reserves: SRC_KIND 2 to 7, HOPS 7, DST_KIND 6 and 7. -/
def routeReserved (r : SbRoute) : Bool := 2 ≤ r.srcKind || r.hops == 7 || 6 ≤ r.dstKind

/-- The entry whose source a request carries (R350). -/
def State.sbRoute (s : State) (kind intf id : Nat) : Option SbRoute :=
  s.sb.routes.findSome? fun r =>
    match r with
    | some r => if r.srcKind == kind && r.srcIf == intf && r.srcId == id then some r else none
    | none => none

/-- Whether an entry permits a transaction's directions (R350). -/
def routePermits (r : SbRoute) (x : SbXfer) : Bool :=
  (x.data.isEmpty || r.writeOk) && (x.reads == 0 || r.readOk)

/-- No entry, or one that forbids the direction (R350). -/
def State.sbMiss (s : State) (kind id : Nat) : State := s.raise 127 (id % 1024 + 1024 * kind)

/-- The cable port toward a destination that is not this hub (Table 13.2): the UP port, or down the chain. -/
def State.sbPort (s : State) (r : SbRoute) : Option Nat :=
  let p :=
    if r.up then (upTo 2).find? fun p => nth s.topo.portRole p .none == .up
    else if s.topo.role == .hostside then some r.chain
    else (upTo 2).find? fun p => nth s.topo.portRole p .none == .down
  match p with
  | some p => if s.linkUp p then some p else none
  | none => none

/-- The holder named in a frame from a cable port: a HOSTSIDE hub knows its chain by the port. -/
def State.sbHolder (s : State) (port : Nat) (h : SbHolder) : SbHolder :=
  if s.topo.role == .hostside then { h with chain := port } else h

/-- The same holder (R353): its hub, channel and credential handle. -/
def sbSame (a b : SbHolder) : Bool :=
  a.depth == b.depth && a.chain == b.chain && a.chan == b.chan && a.cred == b.cred

/-- The older of two holders: by age, then lower depth, then chain CP0, then the channel (R353). -/
def sbOlder (a b : SbHolder) : Bool :=
  let ka := [a.tick, a.slot, a.depth, a.chain, a.chan]
  let kb := [b.tick, b.slot, b.depth, b.chain, b.chan]
  decide (List.lex ka kb (fun x y => x < y) = true)

/-! ### Frames (Table 13.3) -/

def sbXferOp : Nat := 0x0A80
def sbXferRepOp : Nat := 0x0A81
def sbLockOp : Nat := 0x0A82
def sbLockRepOp : Nat := 0x0A83
def sbUnlockOp : Nat := 0x0A84
def sbWoundOp : Nat := 0x0A85
def sbIrqOp : Nat := 0x0A86

/-- The entry as it goes on: HOPS decremented (R351). -/
def nextRoute (r : SbRoute) : SbRoute := { r with hops := r.hops - 1 }

/-- The `sb.xfer` payload from offset 2 (Table 13.5). -/
def xferBytes (x : SbXfer) : List Byte :=
  leBytes 2 x.data.length ++ leBytes 2 x.reads ++ leBytes 2 (b2n x.repeatedStart) ++ leBytes 4 x.lock ++ x.data

/-- The `sb.xfer` reply payload; a reply to a released or revoked handle carries none. -/
def xferReply (result : Nat) (data : List Byte) : List Byte :=
  if result == 7 then [] else leBytes 1 result ++ zeros 3 ++ data

/-- Holder identity and age as a frame carries them (Table 13.3; DESIGN CHOICE, log entry 30): depth, chain, channel, a byte of zero and
the handle; tick, slot and a byte of zero. -/
def holderId (h : SbHolder) : List Byte := leBytes 1 h.depth ++ leBytes 1 h.chain ++ leBytes 1 h.chan ++ zeros 1 ++ leBytes 4 h.cred
def holderAge (h : SbHolder) : List Byte := leBytes 6 h.tick ++ leBytes 1 h.slot ++ zeros 1

/-- A sideband frame sent: a PEER message in the label 2 stream of a cable port, its TAG the sender's number (R351). -/
def State.sbSend (s : State) (p op tag : Nat) (payload : List Byte) : State :=
  s.peerSend p (reqBytes op ⟨.peer p, BitVec.ofNat 16 tag, 0, 0, 0, payload⟩)

/-- SB_UNLOCK; the TAG tells a lapse from `sb.unlock`, for the destination's EV124 (DESIGN CHOICE, log entry 30). -/
def State.sbSendUnlock (s : State) (p handle : Nat) (lapsed : Bool) : State := s.sbSend p sbUnlockOp (b2n lapsed) (leBytes 4 handle)

/-- Requests outstanding toward a peer (R351). -/
def State.sbOutstanding (s : State) (p : Nat) : Nat :=
  (s.sb.txs.filter fun t => t.sentOn == some p && t.running).length
    + (s.sb.waits.filter fun w => w.sentOn == some p && w.sent).length

/-- The transaction and the lock request that are next to be sent on a port. -/
def State.sbNextTx (s : State) (p : Nat) : Option SbTx := s.sb.txs.find? fun t => t.sentOn == some p && !t.running
def State.sbNextWait (s : State) (p : Nat) : Option SbWait := s.sb.waits.find? fun w => w.sentOn == some p && !w.sent

/-- SB_XFER sent on: the entry with HOPS decremented, then the payload. -/
def State.sbSendTx (s : State) (p : Nat) (t : SbTx) : State :=
  let s : State := { s with sb := { s.sb with
    txs := s.sb.txs.map fun (u : SbTx) => if u.num == t.num then { u with running := true } else u } }
  s.sbSend p sbXferOp t.num (leBytes 8 (routeWord (some (nextRoute t.route))) ++ xferBytes t.xfer)

/-- SB_LOCK sent on: the entry with HOPS decremented, the holder and its age. -/
def State.sbSendWait (s : State) (p : Nat) (w : SbWait) : State :=
  let s : State := { s with sb := { s.sb with
    waits := s.sb.waits.map fun (u : SbWait) => if u.num == w.num && u.sentOn == some p then { u with sent := true } else u } }
  s.sbSend p sbLockOp w.num (leBytes 8 (routeWord (some (nextRoute w.route))) ++ holderId w.holder ++ holderAge w.holder)

/-- Requests held because eight were outstanding are sent in their order. -/
def sbPump (p : Nat) : Nat → State → State
  | 0, s => s
  | fuel + 1, s =>
    if 8 ≤ s.sbOutstanding p then s
    else
      match s.sbNextTx p, s.sbNextWait p with
      | some t, some w => sbPump p fuel (if t.num < w.num then s.sbSendTx p t else s.sbSendWait p w)
      | some t, none => sbPump p fuel (s.sbSendTx p t)
      | none, some w => sbPump p fuel (s.sbSendWait p w)
      | none, none => s

/-! ### Endings of transactions -/

/-- A transaction that has ended: where it came from, bus result (7: BAD_HANDLE) and data read. -/
structure SbDone where
  tx     : SbTx
  result : Nat
  data   : List Byte
  deriving DecidableEq, Repr

/-- What the end of a transaction does at its origin (R349, R351, R352): a command completes, a reply passes back, a held
read gets its data, a failed posted write raises EV122. -/
def State.sbDeliver (s : State) (d : SbDone) : State :=
  match d.tx.origin with
  | .cmd via h =>
    if d.result == 7 then s.finishRc via h .badHandle
    else s.finish via h Rc.ok.code (xferReply d.result d.data)
  | .frame port num => s.sbSend port sbXferRepOp num (xferReply d.result d.data)
  | .target intf =>
    if d.result == 0 && s.sb.holds.any fun h => h.num == d.tx.num then
      let s : State := { s with sb := { s.sb with holds := s.sb.holds.filter fun h => h.num != d.tx.num } }
      s.emit (.sbTarget intf 2 d.data)
    else s
  | .posted intf =>
    if d.result == 0 then s
    else ({ s with sb := { s.sb with busErrs := satAdd 32 s.sb.busErrs 1 } } : State).raise 122
      (intf % 16 + 16 * (d.result % 16))

/-! ### Transactions on this hub's interfaces -/

/-- A transaction running on an interface. -/
def State.sbRunning (s : State) (kind intf : Nat) : Option SbTx :=
  s.sb.txs.find? fun t => t.running && t.sentOn.isNone && t.route.dstKind == kind && t.route.dstIf == intf

/-- The lock on an interface. -/
def State.sbLockOn (s : State) (kind intf : Nat) : Option SbLock :=
  s.sb.locks.find? fun l => l.kind == kind && l.intf == intf

def State.sbDrop (s : State) (t : SbTx) : State := { s with sb := { s.sb with txs := s.sb.txs.filter fun u => u.num != t.num } }

/-- A queued transaction whose handle is released or revoked (R354). -/
def State.sbStale (s : State) : Option SbTx :=
  s.sb.txs.find? fun t => !t.running && t.sentOn.isNone && t.xfer.lock != 0
    && !(match s.sbLockOn t.route.dstKind t.route.dstIf with
      | some l => l.handle == t.xfer.lock && !l.wounded
      | none => false)

/-- The transaction to start next: its interface is idle, and its lock, if there is one, is the one it carries (R353); what a UART is to
send waits for room in its transmit FIFO of 2 KiB (Table 13.1). -/
def State.sbStartable (s : State) : Option SbTx :=
  s.sb.txs.find? fun t => !t.running && t.sentOn.isNone && (s.sbRunning t.route.dstKind t.route.dstIf).isNone
    && (match s.sbLockOn t.route.dstKind t.route.dstIf with
      | some l => l.handle == t.xfer.lock && !l.wounded
      | none => true)
    && (t.route.dstKind != 2 || (nth s.sb.uartTx t.route.dstIf []).length + t.xfer.data.length ≤ 2048)

/-- An interface that exists and is controller on its bus in its mode (Tables 13.1 and 13.4). -/
def State.sbController (s : State) (kind intf dev : Nat) : Bool :=
  let m := nth s.sb.modes intf 0
  if kind == 0 then 1 ≤ m && m ≤ 3 else if kind == 1 then m == 5
  else if kind == 2 then decide (intf < 2) else if kind == 3 then intf == 0 && decide (dev < 4) else true

/-- A transaction started on its interface: on the bus, until the bus answers; or ended at once, with its result and data
(log entry 30). -/
def State.sbStart (s : State) (t : SbTx) : Option (Nat × List Byte) × State :=
  let r := t.route
  let s := if r.dstKind == 2 then s else s.emit (.sbBus r.dstKind r.dstIf r.dstId t.xfer.reads t.xfer.repeatedStart t.xfer.data)
  let onBus : State := { s with sb := { s.sb with
    txs := s.sb.txs.map fun (u : SbTx) => if u.num == t.num then { u with running := true } else u } }
  if !s.sbController r.dstKind r.dstIf r.dstId then
    let (v, s) := s.draw
    (some (v % 7, []), s)
  else if r.dstKind == 2 then
    let rx := nth s.sb.uartRx r.dstIf []
    (some (0, rx.take t.xfer.reads), { s with sb := { s.sb with
      uartTx := put s.sb.uartTx r.dstIf (nth s.sb.uartTx r.dstIf [] ++ t.xfer.data)
      uartRx := put s.sb.uartRx r.dstIf (rx.drop t.xfer.reads) } })
  else if r.dstKind == 4 && t.xfer.data.isEmpty then
    let k := r.dstId % 16
    let (v, s') := s.draw
    if s.sb.gpioDir.getLsbD k then (some (0, (leBytes 1 (b2n (s.sb.gpioOut.getLsbD k))).take t.xfer.reads), s)
    else (some (0, (leBytes 1 (v % 2)).take t.xfer.reads), s')
  else if r.dstKind == 4 then
    let lv : BitVec 16 := BitVec.ofNat 16 (2 ^ (r.dstId % 16))
    let out := if bitAt (leAt 0 1 t.xfer.data) 0 then s.sb.gpioOut ||| lv else s.sb.gpioOut &&& ~~~lv
    (some (0, []), { s with sb := { s.sb with gpioOut := out, gpioDir := s.sb.gpioDir ||| lv } })
  else if r.dstKind == 5 then
    let f := r.dstId % 4
    let s : State := if t.xfer.data.isEmpty then s
      else ({ s with sb := { s.sb with duty := put s.sb.duty f (leAt 0 1 t.xfer.data) } } : State).emit
        (.fan f (leAt 0 1 t.xfer.data))
    (some (0, (leBytes 2 (nth s.sb.rpm f 0)).take t.xfer.reads), s)
  else (none, onBus)

/-- Everything that can run is started in order; the transactions that ended at once are answered. -/
def sbRun : Nat → State → List SbDone × State
  | 0, s => ([], s)
  | fuel + 1, s =>
    match s.sbStale with
    | some t =>
      let (ds, s) := sbRun fuel (s.sbDrop t)
      (⟨t, 7, []⟩ :: ds, s)
    | none =>
      match s.sbStartable with
      | some t =>
        let (e, s) := s.sbStart t
        match e with
        | some (res, data) =>
          let (ds, s) := sbRun fuel (s.sbDrop t)
          (⟨t, res, data⟩ :: ds, s)
        | none => sbRun fuel s
      | none => ([], s)

def State.sbGo (s : State) : List SbDone × State := sbRun (2 * s.sb.txs.length + 2) s

/-! ### Locks (R353, R354) -/

/-- This hub's record of a party of its own. -/
def State.sbAge (s : State) (chan cred : Nat) : Option SbAge := s.sb.ages.find? fun a => a.chan == chan && a.cred == cred

/-- A party's age record replaced. -/
def State.setSbAge (s : State) (a : SbAge) : State :=
  { s with sb := { s.sb with ages := (s.sb.ages.filter fun b => !(b.chan == a.chan && b.cred == a.cred)) ++ [a] } }

/-- The age of a party: when it first obtained a lock it still holds, or first asked (R353). -/
def SbAge.since (a : SbAge) : Tick × Nat :=
  match a.held with
  | h :: _ => (h.tick, h.slot)
  | [] => (a.tick, a.slot)

/-- The party as a holder: this hub's depth, its channel and credential, and its age (R353). A party that holds or waits for
nothing asks for the first time, unless it was wounded within a second (R354). -/
def State.sbAsk (s : State) (chan cred : Nat) : SbHolder × State :=
  let waiting := s.sb.waits.any fun w =>
    match w.origin with
    | .cmd .. => w.holder.chan == chan && w.holder.cred == cred
    | _ => false
  let fresh : SbAge := ⟨chan, cred, s.time.tick, s.time.slot, none, []⟩
  let a : SbAge :=
    match s.sbAge chan cred with
    | none => fresh
    | some a =>
      let recent := match a.wounded with
        | some t => tickDiff s.time.tick t < msTicks 1000
        | none => false
      if !a.held.isEmpty || waiting || recent then a else fresh
  (⟨s.topo.depth, 0, chan, cred, a.since.1.toNat, a.since.2⟩, s.setSbAge a)

/-- A party of this hub has obtained a lock: its age runs from the first lock it still holds (R353), or is the one it kept when it was
wounded (R354); a lock of this hub's carries it from now. -/
def State.sbObtained (s : State) (chan cred handle : Nat) (port : Option Nat) : State :=
  match s.sbAge chan cred with
  | none => s
  | some a =>
    let kept := a.held.isEmpty && a.wounded.isSome
    let h : SbHeld := ⟨handle, port, if kept then a.tick else s.time.tick, if kept then a.slot else s.time.slot⟩
    let a : SbAge := { a with held := a.held ++ [h] }
    let s := s.setSbAge a
    { s with sb := { s.sb with locks := s.sb.locks.map fun (l : SbLock) =>
        if l.handle == handle && port.isNone then { l with holder := { l.holder with tick := a.since.1.toNat, slot := a.since.2 } } else l } }

/-- Locks that a party of this hub no longer holds. -/
def State.sbForget (s : State) (p : SbHeld → Bool) : State :=
  { s with sb := { s.sb with ages := s.sb.ages.map fun (a : SbAge) => { a with held := a.held.filter fun h => !p h } } }

/-- A lock granted on an interface: its handle, and the state. -/
def State.sbTake (s : State) (r : SbRoute) (h : SbHolder) (o : SbOrigin) : Nat × State :=
  let n := s.sb.nextLock + 65536 * (s.topo.depth % 16)
  (n, { s with sb := { s.sb with
    nextLock := if s.sb.nextLock == 65535 then 1 else s.sb.nextLock + 1
    locks := s.sb.locks ++ [⟨n, r.dstKind, r.dstIf, h, o, false, s.time.tick⟩] } })

/-- The outcome of a waiting lock request at its origin: 0 granted, 1 WAIT_EXPIRED, 2 REVOKED (Table 13.5); any other is a
request that cannot be served. -/
def State.sbLockReply (s : State) (o : SbOrigin) (h : SbHolder) (outcome handle : Nat) (port : Option Nat) : State :=
  match o with
  | .cmd via job =>
    if outcome == 0 then (s.sbObtained h.chan h.cred handle port).finish via job Rc.ok.code (leBytes 4 handle)
    else if outcome ≤ 2 then s.finish via job Rc.busy.code (leBytes 1 outcome)
    else s.finishRc via job .badState
  | .frame p num => s.sbSend p sbLockRepOp num (leBytes 1 outcome ++ leBytes 4 handle)
  | _ => s

/-- The oldest request that waits here for an interface (R354). -/
def oldestWait : List SbWait → Option SbWait
  | [] => none
  | w :: ws =>
    match oldestWait ws with
    | none => some w
    | some b => if sbOlder b.holder w.holder then some b else some w

/-- The lock of a free interface goes to its oldest waiter (R354). -/
def State.sbGrant (s : State) (kind intf : Nat) : State :=
  if (s.sbLockOn kind intf).isSome then s
  else
    match oldestWait (s.sb.waits.filter fun w => w.sentOn.isNone && w.route.dstKind == kind && w.route.dstIf == intf) with
    | none => s
    | some w =>
      let s : State := { s with sb := { s.sb with waits := s.sb.waits.erase w } }
      let (n, s) := s.sbTake w.route w.holder w.origin
      s.sbLockReply w.origin w.holder 0 n none

/-- A lock released: the interface goes to the next waiter. -/
def State.sbRelease (s : State) (l : SbLock) : State :=
  let s : State := { s with sb := { s.sb with locks := s.sb.locks.filter fun k => k.handle != l.handle } }
  (s.sbForget fun h => h.handle == l.handle && h.port.isNone).sbGrant l.kind l.intf

/-- The cable ports with a link up, but for one. -/
def State.sbOthers (s : State) (but : Option Nat) : List Nat := (upTo 2).filter fun p => s.linkUp p && some p != but

/-- A wound takes effect at this hub (R354): every lock the holder has here is released, every request it has waiting here
fails REVOKED, and a party of this hub keeps its age from now for a second. `port`: the cable port SB_WOUND came from, none
where this hub wounds; it is passed on over the others. -/
def State.sbWound (s : State) (h : SbHolder) (port : Option Nat) : State :=
  let own := h.depth == s.topo.depth && (s.topo.role == .hostside || port.isSome || h.chain == 0)
  let h0 : SbHolder := if own then { h with chain := 0 } else h
  let mine := s.sb.locks.filter fun l => sbSame l.holder h0
  let waits := s.sb.waits.filter fun w => w.sentOn.isNone && sbSame w.holder h0
  let s : State := { s with sb := { s.sb with
    locks := s.sb.locks.filter fun l => !sbSame l.holder h0
    waits := s.sb.waits.filter fun w => !(w.sentOn.isNone && sbSame w.holder h0)
    ages := s.sb.ages.map fun (a : SbAge) =>
      if own && a.chan == h.chan && a.cred == h.cred then { a with wounded := some s.time.tick, held := [] } else a } }
  let s := (s.sbOthers port).foldl (fun s p => s.sbSend p sbWoundOp 0 (holderId h)) s
  let s := waits.foldl (fun s w => s.sbLockReply w.origin w.holder 2 0 none) s
  mine.foldl (fun s l => s.sbGrant l.kind l.intf) s

/-- The destination wounds a younger holder (R354), once no transaction of its runs on the interface. -/
def State.sbWoundHolder (s : State) (l : SbLock) : State :=
  match s.sbRunning l.kind l.intf with
  | some _ => { s with sb := { s.sb with
      locks := s.sb.locks.map fun (k : SbLock) => if k.handle == l.handle then { k with wounded := true } else k } }
  | none => (s.raise 123 (l.intf % 16 + 16 * (l.holder.chan % 4))).sbWound l.holder none

/-- A running transaction ends with a bus result: it leaves its interface, and a holder wounded meanwhile gives way. -/
def State.sbEnd (s : State) (t : SbTx) : State :=
  let s := s.sbDrop t
  match s.sbLockOn t.route.dstKind t.route.dstIf with
  | some l => if l.wounded then s.sbWoundHolder l else s
  | none => s

/-- Everything that can start does, and each transaction that has ended at once is told to its origin. -/
def State.sbSettle (s : State) : State :=
  let (ds, s) := s.sbGo
  ds.foldl (fun s d => s.sbDeliver d) s

/-- A transaction enters: queued on its interface at this hub, sent on toward another, or failed with LINK_DOWN, its result
then in the list. -/
def State.sbSubmit (s : State) (o : SbOrigin) (r : SbRoute) (x : SbXfer) : Nat × List SbDone × State :=
  let n := s.sb.nextNum
  let t : SbTx := ⟨n, o, r, x, none, false, 0⟩
  let s : State := { s with sb := { s.sb with nextNum := n + 1 } }
  if r.hops == 0 then (n, [], { s with sb := { s.sb with txs := s.sb.txs ++ [t] } })
  else
    match s.sbPort r with
    | none => (n, [⟨t, 6, []⟩], s)
    | some p =>
      let s : State := { s with sb := { s.sb with txs := s.sb.txs ++ [{ t with sentOn := some p }] } }
      (n, [], sbPump p 8 s)

/-- What a lock request at its destination meets (R354): granted with its handle, or it waits. -/
def State.sbLockHere (s : State) (o : SbOrigin) (num : Nat) (r : SbRoute) (h : SbHolder) : Option Nat × State :=
  match s.sbLockOn r.dstKind r.dstIf with
  | none =>
    let (n, s) := s.sbTake r h o
    (some n, s)
  | some l =>
    let s : State := { s with sb := { s.sb with waits := s.sb.waits ++ [⟨num, o, r, h, none, false, s.time.tick⟩] } }
    if sbOlder h l.holder then (none, s.sbWoundHolder l) else (none, s)

/-- A lock request sent on toward its destination, within the eight outstanding (R351). -/
def State.sbLockOnward (s : State) (o : SbOrigin) (r : SbRoute) (h : SbHolder) (p : Nat) : State :=
  let n := s.sb.nextNum
  sbPump p 8 { s with sb := { s.sb with
    nextNum := n + 1, waits := s.sb.waits ++ [⟨n, o, r, h, some p, false, s.time.tick⟩] } }

/-! ### Interrupts (R355 to R357) -/

/-- The cable ports on a generation-1 link. -/
def State.gen1Ports (s : State) : List Nat := (upTo 2).filter fun p => (s.cable.links.getD p .init).state == 3

/-- SB_IRQ for each exported bit of a change (R357). -/
def State.sbExport (s : State) (bits : Word) (level : Nat) : State :=
  let ex := bits &&& BitVec.ofNat 32 (s.cv Fld.SB_IRQ_EXPORT)
  (s.gen1Ports).foldl (fun s p =>
    ((upTo 32).filter fun k => ex.getLsbD k).foldl (fun s k => s.sbSend p sbIrqOp 0 (leBytes 1 (k % 8) ++ leBytes 1 level)) s) s

/-- Bits of the pending word set on their sources' edges; EV120 once a tick for a newly set bit that a mask enables. -/
def State.sbIrq (s : State) (bits : Word) : State :=
  let new := bits &&& ~~~s.sb.pending
  let s : State := { s with sb := { s.sb with pending := s.sb.pending ||| bits } }
  let s := s.sbExport new 1
  let en : Word := (s.sb.irqMask.filter fun m => m &&& new != 0).foldl (· ||| ·) 0
  if en != 0 && s.sb.irqTick != some s.time.tick then
    ({ s with sb := { s.sb with irqTick := some s.time.tick } } : State).raise 120 (s.sb.pending &&& en).toNat
  else s

/-! ### What the rest of the hub tells the bridge -/

/-- A cable link has closed (R351, R353): transactions sent over it fail LINK_DOWN, requests from it are gone, locks that
crossed it lapse. -/
def State.sbLinkDown (s : State) (p : Nat) : State :=
  let from_ (o : SbOrigin) : Bool := match o with
    | .frame q _ => q == p
    | _ => false
  let dead := s.sb.txs.filter fun t => t.sentOn == some p
  let deadW := s.sb.waits.filter fun w => w.sentOn == some p
  let lapsed := s.sb.locks.filter fun l => from_ l.origin
  let passed := s.sb.passed.filter fun x => x.2.1 == p
  let s : State := { s with sb := { s.sb with
    txs := s.sb.txs.filter fun t => !(t.sentOn == some p) && !(from_ t.origin && !t.running && t.sentOn.isNone)
    waits := s.sb.waits.filter fun w => !(w.sentOn == some p) && !from_ w.origin
    passed := s.sb.passed.filter fun x => x.2.1 != p && x.2.2 != p } }
  let s := dead.foldl (fun s t => s.sbDeliver ⟨t, 6, []⟩) s
  let s := deadW.foldl (fun s w => s.sbLockReply w.origin w.holder 3 0 none) s
  let s := s.sbForget fun h => h.port == some p
  let s := passed.foldl (fun s x => if s.linkUp x.2.2 then s.sbSendUnlock x.2.2 x.1 true else s) s
  let s := lapsed.foldl (fun s l => (s.raise 124 (l.intf % 16)).sbRelease l) s
  s.sbSettle

/-- A credential of a channel has lapsed (R59, R353): the locks its party holds lapse. -/
def State.sbCredGone (s : State) (chan cred : Nat) : State :=
  match s.sbAge chan cred with
  | none => s
  | some a =>
    let s : State := { s with sb := { s.sb with ages := s.sb.ages.filter fun b => !(b.chan == chan && b.cred == cred) } }
    let s := a.held.foldl (fun s h =>
      match h.port with
      | some p => s.sbSendUnlock p h.handle true
      | none =>
        match s.sb.locks.find? fun l => l.handle == h.handle with
        | some l => (s.raise 124 (l.intf % 16)).sbRelease l
        | none => s) s
    s.sbSettle

/-- UNATT is set: every fan runs at FAN_FAIL_SAFE_PCT (R358). -/
def State.fansUnattended (s : State) : State :=
  let d := s.cv Fld.FAN_FAIL_SAFE_PCT * 255 / 100
  (upTo 4).foldl (fun s k =>
    ({ s with sb := { s.sb with duty := put s.sb.duty k d } } : State).emit (.fan k d)) s

/-- What the UARTs send in a tick, ten bit times a byte (Table 13.1): BAUD / 320,000 bytes, the part of a byte carried on. -/
def State.uartTick (s : State) : State :=
  (upTo 2).foldl (fun s k =>
    let q := nth s.sb.uartTx k []
    let a := nth s.sb.uartAcc k 0 + s.cv (if k == 0 then Fld.UART0_BAUD else Fld.UART1_BAUD)
    let n := a / 320000
    let rest := q.drop n
    let s : State := { s with sb := { s.sb with
      uartTx := put s.sb.uartTx k rest, uartAcc := put s.sb.uartAcc k (if rest.isEmpty then 0 else a % 320000) } }
    if (q.take n).isEmpty then s else s.emit (.uart k (q.take n))) s

/-- A fan's speed by its tachometer: pulses a second, FAN_PULSES of them a revolution, 30,000 rpm at most (Tables 13.1 and 13.4). -/
def State.fanRpm (s : State) (pulses : Nat) : Nat := min 30000 (pulses * 60 / max 1 (s.cv Fld.FAN_PULSES))

/-- Interface modes that apply now: the interface is idle and holds no lock (R359). -/
def State.sbModes (s : State) : State :=
  let want := [Fld.I2C0_MODE, Fld.I2C1_MODE, Fld.I2C2_MODE, Fld.I2C3_MODE].map fun f => s.applied f
  let free (i : Nat) : Bool :=
    (s.sbRunning 0 i).isNone && (s.sbRunning 1 i).isNone && (s.sbLockOn 0 i).isNone && (s.sbLockOn 1 i).isNone
      && !(s.sb.holds.any fun h => h.intf == i)
  { s with sb := { s.sb with modes := (upTo 4).map fun i => if free i then nth want i 2 else nth s.sb.modes i 2 } }

/-- The bridge at a tick boundary: modes that can be taken are, the UARTs send, and what waited for room starts. -/
def State.sbTick (s : State) : State :=
  let s := s.uartTick.sbModes
  if s.sb.txs.isEmpty then s else s.sbSettle

end Sys2Proof.Machine
end

