-- ==== Sys2Proof/Machine/LinkOps.lean ====
section
/-! DEFINITION. The Latre link (spec/06): what a path's end tells its owner, closing and coming up, election, key agreement, key
rotation and training. -/

namespace Sys2Proof.Machine

/-- A link event (R180): CP1's numbers are 16 above CP0's. -/
def State.linkEv (s : State) (p n arg : Nat) : State := s.raise (n + 16 * (p % 2)) arg

def State.role (s : State) (p : Nat) : PortRole := nth s.topo.portRole p .none
def State.setRole (s : State) (p : Nat) (r : PortRole) : State :=
  { s with topo := { s.topo with portRole := put s.topo.portRole p r } }
def State.alignOf (s : State) (p : Nat) : AlignSt := nth s.time.ports p .init
def State.setAlign (s : State) (p : Nat) (f : AlignSt → AlignSt) : State :=
  { s with time := { s.time with ports := s.time.ports.modify p f } }

/-- The hub's UP port, and its DOWN port with a link up. -/
def State.upPort (s : State) : Option Nat := [0, 1].find? fun p => s.role p == .up
def State.downUp (s : State) : Option Nat := [0, 1].find? fun p => s.role p == .down && s.linkUp p

/-! ### What a path tells its owner -/

/-- A path that starts here is open (R151): the command completes, or the adapter's binding goes on. -/
def State.ownerUp (s : State) (r : PathRec) : State :=
  match r.owner with
  | .command =>
    match r.job with
    | some (via, h) => s.finish via h 0 (leBytes 2 r.id ++ leBytes 2 r.label)
    | none => s
  | .disp i => s.dispPathUp i
  | .dispAudio i => s.dispPathUp i
  | .pcie _ => s.pciePathUp r.id r.label
  | .usb i => s.usbPathUp i false
  | .usbIso i => s.usbPathUp i true
  | .net g => s.netPathUp g r.id r.label
  | .svc _ => s

/-- A display path that failed to open, or has gone. -/
def State.dispOwner (s : State) (i : Nat) (rc : Rc) : State :=
  match s.stream i with
  | some x => if x.state == 0 then s.dispFail x rc.code [] else s.dispPathGone i
  | none => s

/-- A path that starts here could not be opened, or was torn down from beyond; its record is gone. -/
def State.ownerGone (s : State) (r : PathRec) (rc : Rc) : State :=
  match r.owner with
  | .command =>
    match r.job with
    | some (via, h) => if r.phase == 0 then s.finishRc via h rc else s
    | none => s
  | .disp i => s.dispOwner i rc
  | .dispAudio i => s.dispOwner i rc
  | .pcie _ =>
    match s.bridgeOf r.id with
    | some b => if (s.pcEnd b).state == 0 then s.bindFailed b rc.code [] else s.unbindBridge b 2
    | none => s
  | .usb i => s.usbPathGone i
  | .usbIso i => s.usbPathGone i
  | .net g => if (s.netGroup g).any fun x => !x.isOpen then s.groupFailed g rc.code [] else s.netPathGone g
  | .svc _ => s

/-- A path that ends here has arrived, or is lost. -/
def State.arrivedHere (s : State) (p : Nat) (e : PathEntry) : State :=
  (((s.dispArrived p e).pcieArrived p e).usbArrived p e).netArrived p e
def State.lostHere (s : State) (p label : Nat) : State :=
  (((s.dispLost p label).pcieLost p label).usbLost p label).netLost p label

/-- An entry of a port gone with the path it carried, as PATH_TEARDOWN takes it (R149, R175): torn down beyond this hub, and the
adapter that ends or began it is told. -/
def State.tearEntry (s : State) (p label : Nat) : State :=
  let mine := s.pathAt p label
  let (gone, s) := s.tearBeyond p label
  match mine with
  | some r => if r.phase == 2 then s else (s.dropPathRec r.id).ownerGone r .badState
  | none => gone.foldl (fun s g => s.lostHere g.1 g.2.label) s

/-- A setup that has failed (R151): its record and every entry it installed here are removed; the starting hub's path fails with
the result, a relay passes the reason on. -/
def State.failSetup (s : State) (x : Setup) (reason : Nat) (rc : Rc) : State :=
  let s := s.dropSetup x
  match x.up with
  | some (q, l) => (s.uninstall q l).ctl q ctlPathNack [x.id, reason]
  | none =>
    match s.pathAt x.port x.label with
    | some r => (s.dropPathRec r.id).ownerGone r rc
    | none => s

/-! ### Chain notices (R174) -/

/-- The notice that names the peer of a port. -/
def State.peerNotice (s : State) (p depth event : Nat) : Notice :=
  match (s.link p).peer with
  | some h => ⟨depth, event, h.role, h.pcie, h.usb, h.net⟩
  | none => ⟨depth, event, 0, 0, 0, 0⟩

def noticeFields (n : Notice) : List Nat := [n.depth, n.event, n.role, n.pcie, n.usb, n.net]

/-- A chain link-up at the HOSTSIDE hub: what R271, R294 and R325 do. -/
def State.chainUp (s : State) (p : Nat) (n : Notice) : State :=
  ((s.pcieChainUp).usbChainUp p n.depth n.usb).netChainUp

/-- A notice kept by port and depth. -/
def State.keepNotice (s : State) (p : Nat) (n : Notice) : State :=
  { s with cable := { s.cable with
    notices := (s.cable.notices.filter fun x => !(x.1 == p && x.2.depth == n.depth)) ++ (if n.event == 0 then [(p, n)] else []) } }

/-- A chain notice that concerns the hubs below a port: acted on at the HOSTSIDE hub, sent on upward at a RELAY. -/
def State.noticed (s : State) (p : Nat) (n : Notice) : State :=
  let s := s.keepNotice p n
  if s.topo.role == .hostside then (if n.event == 0 then s.chainUp p n else s)
  else
    match s.upPort with
    | some u => if u != p && s.linkUp u then s.ctl u ctlChain (noticeFields n) else s
    | none => s

/-- The notices held, sent in ascending depth when a RELAY's UP link comes up; that of its own peer at its depth now, plus 1. -/
def State.sendNotices (s : State) (u : Nat) : State :=
  let p := 1 - u
  let s := if s.role p == .down && s.linkUp p then
      let own := s.peerNotice p (s.topo.depth + 1) 0
      let old := (s.cable.notices.filter fun x => x.1 == p).foldl (fun m x => min m x.2.depth) 16
      ({ s with cable := { s.cable with notices := s.cable.notices.filter fun x => !(x.1 == p && x.2.depth == old) } } : State).keepNotice p own
    else s
  ((upTo 8).flatMap fun d => s.cable.notices.filter fun x => x.1 != u && x.2.depth == d).foldl
    (fun s x => s.ctl u ctlChain (noticeFields x.2)) s

/-! ### Closing (R175) -/

/-- The lanes of a port go to OFF, but for the retired (R136): re-calibrations are cancelled (R134), and tests end with BAD_STATE and
without counts (DESIGN CHOICE, log entry 67). -/
def State.lanesOff (s : State) (p : Nat) : State :=
  let s := fourLanes.foldl (fun s k => (s.endRecal p k 4).endTest p k Rc.badState.code []) s
  s.setCpx p fun c => { c with
    queue := []
    exitWant := false
    retrain := false
    lanes := c.lanes.map fun (l : LaneSt) =>
      if l.state == .retired then l
      else { l with
        use := if l.use == 3 || (l.state == .floor && !firmCause l.cause) then 0 else l.use
        state := .off, rate := .none, ready := none, inject := none, turnHold := false, discard := false, tx := .init, hist := [] } }

/-- Signal loss takes every lane to OFF (R139), the retired too but for those that only a command or their mask bit restores (R136,
R138). -/
def State.allOff (s : State) (p : Nat) : State :=
  (s.lanesOff p).setCpx p fun c => { c with
    lanes := c.lanes.map fun (l : LaneSt) =>
      if l.state == .retired && !firmCause l.cause then { l with state := .off, use := 0, ready := none } else l }

/-- The cells of a port whose coaches have not been verified leave the switch, with what was cutting through. -/
def State.dropPendingIn (s : State) (p : Nat) : State :=
  let gone := (s.sw.voqs.filter fun v => v.inp == p).flatMap fun v => v.cells.filter (·.pending)
  let s := gone.foldl (fun s q => s.uncharge q) s
  { s with sw := { s.sw with
    voqs := s.sw.voqs.map fun v => if v.inp == p then { v with cells := v.cells.filter fun q => !q.pending } else v
    express := put s.sw.express p []
    pendCoach := put s.sw.pendCoach p 0
    replay := put s.sw.replay p 0 } }

/-- PEER's credentials and handles of a port lapse (R59, R68), and the PEER layer of its fields is withdrawn (R91). -/
def State.peerGone (s : State) (p : Nat) : State :=
  let creds := s.mbx.peer.creds.filter fun c => c.owner == p
  let s : State := { s with mbx := { s.mbx with peer := { s.mbx.peer with
    creds := s.mbx.peer.creds.filter fun c => c.owner != p
    jobs := s.mbx.peer.jobs.filter fun j => j.via != .peer p } } }
  let s := creds.foldl (fun s c => s.sbCredGone 2 c.handle) s
  s.withdraw 2 fun o => o.port == p

/-- What a link keeps when it is not up: its counters, its table, the cause. -/
def LinkSt.down (l : LinkSt) : LinkSt :=
  { l with
    state := 0, peer := none, elected := false, gen1 := false, keyInit := [], keyResp := [], ecdhKey := 0, kemSeed := [], prk := [],
    keysIn := false, keyFails := 0, keyCause := false, tx := .init, rx := .init, prevs := LinkSt.init.prevs, plan0 := none, plan1 := none,
    plan2 := none, demand := none, missed := false, sinceTick := 0, masterLost := false, burst := [], flows := FlowSt.own, coach := [],
    hunt := [], peerOut := [], sync := (0, 0, 0, 0), syncLanes := (0, 0) }

/-- The port's role ends: an UP port's hub free-runs on REFCLK from its count without an event, and its depth is gone (R43, R18). -/
def State.roleEnds (s : State) (p : Nat) : State :=
  let wasUp := s.role p == .up
  let followed := s.time.reference == 1 + p
  let s := (s.setRole p .none).setAlign p fun _ => .init
  let s : State := { s with
    time := { s.time with
      reference := if followed then 0 else s.time.reference
      steer := if followed then 0 else s.time.steer
      masterKnown := s.time.masterKnown && !wasUp }
    topo := { s.topo with
      depth := if wasUp && s.topo.role != .hostside then 15 else s.topo.depth
      heldT := put s.topo.heldT p false } }
  s

/-- The end of `link.reset` (R179). -/
def State.resetDone (s : State) (p : Nat) (rc : Rc) : State :=
  match (s.link p).resetJob with
  | some (via, h) => (s.setLink p fun l => { l with resetJob := none }).finishRc via h rc
  | none => s

/-- The causes of Table 6.13 at which the peer can still hear LINK_CLOSE. -/
def closeSays (cause : Nat) : Bool := cause == 2 || cause == 3 || cause == 4 || cause == 5 || cause == 8 || cause == 11

/-- A link closes (R175): EV025, the peer and the adapters are told, entries become SUSPENDED, the replay store and the credits
go, and bring-up restarts at step 1, except after holdover expiry (cause 6). -/
def State.closeLink (s : State) (p cause : Nat) : State :=
  let up := s.linkUp p
  let s := if up && closeSays cause then s.ctl p ctlClose [cause] else s
  let s := if up then (((s.pcieSuspended p).dispSuspended p).usbSuspended p).netSuspended p else s
  let s := (s.cable.setups.filter fun x => x.port == p).foldl (fun s x => s.failSetup x 2 .badState) s
  let through := s.cable.setups.filter fun x => x.up.any fun u => u.1 == p
  let s := through.foldl (fun s x => (s.dropSetup x).ctl x.port ctlTeardown [x.label]) s
  let s := s.linkEv p 25 cause
  let note := s.peerNotice p (s.topo.depth + 1) 1
  let down := s.role p == .down
  let dev := ((s.link p).peer.map (·.devid)).getD 0
  let now := s.time.tick
  let s := (if cause == 1 then s.allOff p else s.lanesOff p).dropPendingIn p
  let s := s.setLink p fun l => { l.down with
    closedAt := if up then now else l.closedAt
    firsts := if up then l.flows.map fun f => (f.label, f.first) else l.firsts
    state := if cause == 6 || s.phyOut p then 0 else 1
    cause := cause
    lastDev := if up then dev else l.lastDev
    holding := l.holding || (up && !l.table.isEmpty)
    table := l.table.map fun (e : PathEntry) => { e with suspended := true } }
  let s := (s.setCpx p fun c => { c with step := if cause == 6 || s.phyOut p then 0 else 1, restarts := 0 }).roleEnds p
  let s := (s.peerGone p).sbLinkDown p
  if !up then s
  else
    let s : State := { s with cable := { s.cable with notices := s.cable.notices.filter fun x => x.1 != p } }
    match s.upPort with
    | some u => if down && s.topo.role == .relay && s.linkUp u then s.ctl u ctlChain (noticeFields note) else s
    | none => s

/-- Bring-up is given up (R176, R177): EV025, the port OFF. -/
def State.giveUp (s : State) (p cause : Nat) : State :=
  let s := (s.lanesOff p).linkEv p 25 cause
  let s := s.setLink p fun l => { l.down with cause := cause, restarts := 0 }
  ((s.setCpx p fun c => { c with step := 0 }).roleEnds p).resetDone p .hwFault

/-! ### Coming up (R175, R180) -/

/-- The suspended entries of a port resumed, their flows new and each end's credit that of its setup (R175), or torn down hop by hop. -/
def State.resumePaths (s : State) (p : Nat) : State :=
  let dev := ((s.link p).peer.map (·.devid)).getD 0
  let same := (s.link p).holding && dev != 0 && dev == (s.link p).lastDev
  if same then
    let s := s.setLink p fun l => { l with
      holding := false
      table := l.table.map fun (e : PathEntry) => { e with suspended := false }
      flows := l.flows ++ l.table.map fun (e : PathEntry) =>
        FlowSt.fresh e.label e.tc e.initCredit (((l.firsts.find? fun x => x.1 == e.label).map (·.2)).getD e.initCredit) }
    ((s.pcieResumed p).usbResumed p).netResumed p
  else
    let labels := ((s.link p).table.filter (·.suspended)).map (·.label)
    labels.foldl (fun s l => s.tearEntry p l) (s.setLink p fun l => { l with holding := false })

/-- The link is up (EV024): 2, or 3 on generation 1. -/
def State.linkComes (s : State) (p : Nat) : State :=
  let gen1 := (s.link p).gen1
  let s := s.setLink p fun l => { l with state := if gen1 then 3 else 2, restarts := 0 }
  let down := s.role p == .down
  let s := s.linkEv p 24 (b2n down + 2 * (s.topo.depth % 8) + 16 * b2n gen1)
  let s := (s.resumePaths p).resetDone p .ok
  if down then s.noticed p (s.peerNotice p (s.topo.depth + 1) 0)
  else if s.topo.role == .relay then s.sendNotices p else s

/-! ### Training (R125, R126, R176) -/

/-- Training starts at step 1 of Table 5.6; retired lanes stay so, and a lane keeps the direction that it is limited to, unless it comes from
FLOOR (R136). While holdover has expired it waits for its end (R42). -/
def State.startTraining (s : State) (p : Nat) : State :=
  if s.phyOut p then s
  else if s.time.holdover == 2 then s.setCpx p fun c => { c with heldOff := true }
  else
  let s := s.setCpx p fun c => { c with
    step := 1
    heldOff := false
    lanes := c.lanes.map fun (l : LaneSt) =>
      if l.state == .retired then l
      else { l with
        state := .train, rate := .none, use := if l.use == 3 || (l.state == .floor && !firmCause l.cause) then 0 else l.use
        fFwd := false, fRev := false, hTrained := false, turnHold := false, ready := none, capH := false, tx := .init, hist := []
        rx := .init, eqs := [.init, .init, .init] } }
  (s.setLink p fun l => { l.down with state := 1 }).roleEnds p

/-- The wait of 100 ms before a restart; the lanes rest. -/
def State.waitRestart (s : State) (p : Nat) : State :=
  let s := s.lanesOff p
  let now := s.time.tick
  ((s.setCpx p fun c => { c with step := 8, since := now }).setLink p fun l => { l.down with state := 1, keyCause := l.keyCause }).roleEnds p

/-- Step 3 fails (R176): a restart, or after the third the port is given up. -/
def State.step3Fail (s : State) (p : Nat) (key : Bool) : State :=
  if 3 ≤ (s.link p).restarts then s.giveUp p (if key then 3 else 9)
  else (s.setLink p fun l => { l with restarts := l.restarts + 1, keyCause := key }).waitRestart p

/-- A lane failed a training step: EV017 with the step and the cause, and the counter. -/
def State.trainFail (s : State) (p k step cause : Nat) : State :=
  (s.setLane p k fun l => { l with cause := cause, cnt := { l.cnt with fails := satAdd 32 l.cnt.fails 1 } }).laneEv p 17
    (k + 256 * step + 65536 * cause)

/-- What an equalisation step settled for a lane at a rate (Table 5.12). -/
def State.settled (s : State) (p k idx : Nat) (r : LaneRes) : State :=
  match r.eq with
  | some e => s.settleEq p k idx e
  | none => s

/-- Lanes in training with their results. -/
def State.inTraining (s : State) (p : Nat) (res : List LaneRes) : List (Nat × LaneRes) :=
  (res.zipIdx).filterMap fun (r, k) => if k < 4 && (s.lane p k).state == .train then some (k, r) else none

/-- The directions of a lane that fail a step at H: it is retired, or limited to one direction (R136). -/
def State.failDirs (s : State) (p k : Nat) (r : LaneRes) (step cause : Nat) : State :=
  let use := (s.lane p k).use
  let f := !r.fwd && use != 2
  let v := !r.rev && use != 1
  if f || v then
    let s := s.trainFail p k step cause
    s.retire p k (if f && v then 0 else if f then 1 else 2) cause false
  else s

/-- Restart of step 2 (Table 5.6): at most three, then LANE_TRAIN_FAIL and OFF. The event names no lane and no cause in the spec: lane 0
with cause NO_LOCK is counted and shown (DESIGN CHOICE, log entry 67). -/
def State.step2Fail (s : State) (p : Nat) : State :=
  if 3 ≤ (s.cpx p).restarts then
    let s := s.trainFail p 0 2 causeNoLock
    let s := (s.lanesOff p).setLink p fun l => { l.down with restarts := 0 }
    (((s.setCpx p fun c => { c with step := 0, restarts := 0 }).roleEnds p)).resetDone p .hwFault
  else (s.setCpx p fun c => { c with restarts := c.restarts + 1 }).waitRestart p

/-- Step 1, DETECT: a lane without a receiver is RETIRED with cause ABSENT. -/
def State.stepDetect (s : State) (p : Nat) (res : List LaneRes) : State :=
  let s := s.setCpx p fun c => { c with
    step := 2
    lanes := c.lanes.map fun (l : LaneSt) => if l.state == .off then { l with state := .train, rate := .none } else l }
  (s.inTraining p res).foldl (fun s x =>
    if x.2.fwd then s else (s.trainFail p x.1 1 causeAbsent).retire p x.1 0 causeAbsent false) s

/-- Step 2, T_LOCK: lock on commas, the lane masks and rates exchanged; LINK_T starts with a random value drawn (R171). -/
def State.stepTLock (s : State) (p : Nat) (res : List LaneRes) (peer : PeerLane) : State :=
  let own := s.applied (laneMaskFld p)
  let s := s.setCpx p fun c => { c with peer := peer }
  let s := (s.inTraining p res).foldl (fun s x =>
    if bitAt own x.1 && bitAt peer.mask x.1 then s else s.retire p x.1 0 causeMask false) s
  let ls := s.inTraining p res
  let locked := fun (ks : List Nat) => ls.any fun x => ks.contains x.1 && x.2.fwd
  if !(locked [0, 1]) || !(locked [2, 3]) then s.step2Fail p
  else
    let s := ls.foldl (fun s x =>
      if x.2.fwd then s.setLane p x.1 fun l => { l with rate := .t }
      else (s.trainFail p x.1 2 causeNoLock).retire p x.1 0 causeNoLock false) s
    let (r, s) := s.draw
    let now := s.time.tick
    (s.setCpx p fun c => { c with step := 3, restarts := 0 }).setLink p fun l => { l with
      state := 1
      ownRand := r % 2 ^ 64
      stepSince := now
      encrypt := s.cv Fld.LINK_ENCRYPT == 1 || peer.encrypt || !(openLc s.lifecycle) || !peer.openLc
      gen1Allow := s.cv Fld.GEN1_ALLOW == 1
      masterLossTicks := s.cv Fld.MASTER_LOSS_TICKS
      pathHoldMs := s.cv Fld.PATH_HOLD_MS }

/-- Step 3, LINK_T, ends when election, synchronisation and key agreement have completed (R176). -/
def State.stepLinkT (s : State) (p : Nat) : State :=
  let l := s.link p
  let synced := l.gen1 || s.role p == .down || (s.alignOf p).align == .locked
  if l.elected && l.keysIn && synced then
    s.setCpx p fun c => { c with step := if l.gen1 then 14 else if s.maxH p then 5 else 4 }
  else s

/-- Step 4, EQ_F. -/
def State.stepEqF (s : State) (p : Nat) (res : List LaneRes) : State :=
  ((s.inTraining p res).foldl (fun s x =>
    let (k, r) := x
    let s := (s.settled p k 0 r).setLane p k fun l => { l with fFwd := r.fwd, fRev := r.rev }
    if r.fwd && r.rev then s else s.trainFail p k 4 causeEq) s).setCpx p fun c => { c with step := 5 }

/-- The rate that a lane has trained to (R126): F when both directions hold it, else H without an F state. -/
def trainedRate (l : LaneSt) : LaneSt :=
  if l.fFwd && l.fRev && l.use == 0 then { l with rate := .f } else { l with rate := .h, fFwd := false, fRev := false }

/-- Step 5, EQ_H, for the lanes not yet at a rate. -/
def State.stepEqH (s : State) (p : Nat) (res : List LaneRes) : State :=
  (((s.inTraining p res).filter fun x => (s.lane p x.1).rate == .t).foldl (fun s x =>
    let (k, r) := x
    let s := (s.settled p k 1 r).setLane p k fun l => { l with hTrained := r.fwd || r.rev }
    let s := s.failDirs p k r 5 causeEq
    s.setLane p k fun l => if l.state == .train then trainedRate l else l) s).setCpx p fun c => { c with step := 6 }

/-- Step 6, VERIFY: a lane that fails at F is retried from step 5; one that fails at H fails as in step 5. -/
def State.stepVerify (s : State) (p : Nat) (res : List LaneRes) : State :=
  let s := (s.inTraining p res).foldl (fun s x =>
    let (k, r) := x
    if (s.lane p k).rate == .f then
      if r.fwd && r.rev then s
      else (s.trainFail p k 6 causeVerify).setLane p k fun l => { l with rate := .t, fFwd := false, fRev := false }
    else s.failDirs p k r 6 causeVerify) s
  let again := (s.cpx p).lanes.any fun l => l.state == .train && l.rate == .t
  s.setCpx p fun c => { c with step := if again then 5 else 7 }

/-- HANDOVER (step 8 of Table 5.6): the lanes are reported to the planner; FLOOR when R136 applies. -/
def State.handover (s : State) (p : Nat) : State :=
  let ready := s.readyTick
  let temp := s.portTemp p
  let s := fourLanes.foldl (fun s k =>
    let l := s.lane p k
    if l.state == .train then
      (s.setLane p k fun l => { l with ready := some ready, calTemp := temp, rx := l.eq.rx }).laneEv p 16
        (k + 16 * rateCode l.rate + 256 * l.use)
    else s) s
  (s.setCpx p fun c => { c with step := 0 }).floorCheck p

/-- Step 7, TURN_CAL, then HANDOVER. -/
def State.stepTurnCal (s : State) (p : Nat) (res : List LaneRes) : State :=
  ((s.inTraining p res).foldl (fun s x =>
    let (k, r) := x
    let s := s.setLane p k fun l => { l with flight := r.flight }
    if (s.lane p k).use == 0 && (12000 < r.flight || r.slip) then
      (s.trainFail p k 7 causeTurn).retire p k 0 causeTurn false
    else s) s).handover p

/-- Steps G4 and G5 of Table 5.6a: each lane in its fixed direction. In EV017 they are the steps 14 and 15, which the spec does not number
(DESIGN CHOICE, log entry 67). -/
def State.stepGen1 (s : State) (p : Nat) (res : List LaneRes) (step : Nat) : State :=
  let s := (s.inTraining p res).foldl (fun s x =>
    let (k, r) := x
    let good := if k < 2 then r.fwd else r.rev
    let s := if step == 14 then s.settled p k 2 r else s
    if good then s.setLane p k fun l => { l with rate := .g1, use := if k < 2 then 1 else 2 }
    else (s.trainFail p k step (if step == 14 then causeEq else causeVerify)).retire p k 0 (if step == 14 then causeEq else causeVerify) false) s
  let left := fun (ks : List Nat) => ks.any fun k => (s.lane p k).state == .train
  if !(left [0, 1]) || !(left [2, 3]) then s.step2Fail p
  else if step == 14 then s.setCpx p fun c => { c with step := 15 }
  else
    let s := fourLanes.foldl (fun s k =>
      let l := s.lane p k
      if l.state == .train then
        (s.setLane p k fun l => { l with state := .l0, forward := k < 2 }).laneEv p 16 (k + 16 * rateCode l.rate + 256 * l.use)
      else s) s
    (s.setCpx p fun c => { c with step := 0 }).linkComes p

/-- The training step in progress ends with each lane's result (Table 5.6); step 2 brings the peer's settings. -/
def State.trainStep (s : State) (p : Nat) (res : List LaneRes) (peer : PeerLane) : State :=
  if 1 < p || s.linkUp p then s
  else
    match (s.cpx p).step with
    | 1 => s.stepDetect p res
    | 2 => s.stepTLock p res peer
    | 3 => s.stepLinkT p
    | 4 => s.stepEqF p res
    | 5 => s.stepEqH p res
    | 6 => s.stepVerify p res
    | 7 => s.stepTurnCal p res
    | 14 => s.stepGen1 p res 14
    | 15 => s.stepGen1 p res 15
    | _ => s

/-! ### Re-calibration triggers (R129, R130) -/

/-- A trigger of R129 at this end: EV022 with its code; a re-calibration is asked for, or where R130 does not hold the link
closes with cause RETRAIN. -/
def State.autoRecal (s : State) (p k trig : Nat) : State :=
  let s := s.laneEv p 22 (k + 16 * trig)
  if !s.linkUp p || (s.link p).gen1 then s
  else if s.recalCond p k then s.queueRecal p k trig false false none
  else s.closeLink p 11

/-! ### Election (R15 to R19, R171) -/

/-- The depth that this end offers. -/
def State.offeredDepth (s : State) : Nat :=
  if s.topo.role == .hostside then 0
  else if s.topo.role == .relay && (s.upPort.any fun u => s.linkUp u) then s.topo.depth else 15

/-- NEVER_MASTER (R171): DOCKSIDE, and a hub whose offered depth, 15 without an UP link included, has reached its MAX_HOPS. -/
def State.neverMaster (s : State) : Bool := s.topo.role == .dockside || s.cv Fld.MAX_HOPS ≤ s.offeredDepth

/-- This end's HELLO. -/
def State.sendHello (s : State) (p : Nat) : State :=
  s.ctl p ctlHello [2, s.topo.role.code, s.offeredDepth, b2n s.neverMaster, (s.link p).ownRand, s.linkKeyid, beNat s.deviceId,
    nth s.topo.ends 4 0, nth s.topo.ends 5 0, nth s.topo.ends 6 0]

/-- A port ends bring-up (R16, R17, R19, R177): its lanes stay at rate T with link control only. -/
def State.endBringup (s : State) (p : Nat) (role : PortRole) : State :=
  let s := (s.setRole p role).setLink p fun l => { l with state := 0, elected := false }
  (s.setCpx p fun c => { c with step := 0 }).resetDone p .hwFault

/-- The hub's depth has reached MAX_HOPS: its DOWN port is held at rate T (R19, EV010). -/
def State.depthHeld (s : State) (p : Nat) : State :=
  let s := (s.endBringup p .held).raise 10 0
  { s with topo := { s.topo with heldT := put s.topo.heldT p true } }

/-- Bring-up has ended on a port, whose lanes keep rate T. -/
def State.bringupOver (s : State) (p : Nat) : Bool := s.role p == .ended || s.role p == .held

/-- Bring-up ended under R16 or R17 (EV009). -/
def State.conflict (s : State) (p : Nat) : State := (s.endBringup p .ended).raise 9 0

/-- This end would become UP on a port: allowed unless it is HOSTSIDE, or another port is UP (R16, R17). -/
def State.mayBeUp (s : State) (p : Nat) : Bool :=
  s.topo.role != .hostside && !(s.upPort.any fun u => u != p)

/-- This end becomes UP on a port (R171, R18): its depth, its reference, LOST alignment with a step due (R43). CP0 wins over CP1 in
one tick (R16). -/
def State.becomesUp (s : State) (p depth : Nat) : State :=
  let rival := p == 0 && s.role 1 == .up && (s.link 1).electTick == s.time.tick && (s.link 1).state == 1
  let s := if rival then (s.roleEnds 1).conflict 1 else s
  if !(s.mayBeUp p) then s.conflict p
  else
    let gen1 := (s.link p).gen1
    let now := s.time.tick
    let s := (s.setRole p .up).setLink p fun l => { l with elected := true, electTick := now, keySince := now }
    let s : State := { s with
      topo := { s.topo with depth := depth }
      time := { s.time with reference := if gen1 then 0 else 1 + p, masterKnown := false } }
    if gen1 then s
    else (s.setAlign p fun _ => { AlignSt.init with align := .lost, stepDue := true }).raise 15 0

/-! ### Key agreement (R160) -/

/-- Random bytes of the hub's entropy source. -/
def State.entropy (s : State) (n : Nat) : List Byte × State := (fitBytes n (Config.random s.free), { s with free := s.free + 1 })

/-- A random scalar of P-384. -/
def State.scalar (s : State) : Nat × State :=
  let (b, s) := s.entropy 48
  (beNat b % (p384N - 1) + 1, s)

/-- This end's ephemeral ECDH key, drawn anew (R160). -/
def State.newEcdh (s : State) (p : Nat) : State :=
  let (d, s) := s.scalar
  s.setLink p fun l => { l with ecdhKey := d }

/-- A message of the key agreement has been sent or has come: the 10 ms of R160 count from now. -/
def State.keyMark (s : State) (p : Nat) : State :=
  let now := s.time.tick
  s.setLink p fun l => { l with keySince := now }

/-- PRK from the shared secrets and the transcript (R160); generation 1 has ECDH alone (R177). -/
def prkOf (init resp ecdh kem : List Byte) : List Byte := hkdfExtract (sha384 (init ++ resp)) (ecdh ++ kem)

/-- The key and the salt of a direction and an index (R160). -/
def LinkSt.keyFor (l : LinkSt) (dir index : Nat) : List Byte := hkdfExpand l.prk (labelBytes "LATRE2" ++ leBytes 1 dir ++ beBytes 4 index) 36

/-- KEY_FINISH of this end over the transcript (Table 6.9): the KEYID and both signatures, of which generation 1 has ECDSA alone; without
signatures where the hub has no link identity. -/
def State.keyFinish (s : State) (p : Nat) : State :=
  let h := sha384 ((s.link p).keyInit ++ (s.link p).keyResp)
  match s.linkPub with
  | some (k, _) =>
    let secret := (s.slot k).bytes
    let (n, s) := s.scalar
    let sig := ecdsaSign (deriveScalar secret (labelBytes "LINK")) n h
    let more := if (s.link p).gen1 then [] else fitBytes 3309 (Config.mldsaSign (deriveSeed secret (labelBytes "LINK")) h)
    s.ctlSend p ctlKeyFinish [] (beBytes 4 s.linkKeyid ++ sig ++ more)
  | none => s.ctlSend p ctlKeyFinish [] (beBytes 4 0)

/-- The tick master starts an attempt: KEY_INIT (Table 6.9). -/
def State.keyStart (s : State) (p : Nat) : State :=
  let s := s.newEcdh p
  let (seed, s) := s.entropy 64
  let (nonce, s) := s.entropy 32
  let kem := if (s.link p).gen1 then [] else fitBytes 1184 (Config.mlkemKey seed)
  let bs := p384Public (s.link p).ecdhKey ++ kem ++ nonce
  let s := s.setLink p fun l => { l with kemSeed := seed, keyInit := bs, keyResp := [] }
  (s.keyMark p).ctlSend p ctlKeyInit [] bs

/-- An attempt fails (EV031): retried at most three times, then step 3 fails. -/
def State.keyFail (s : State) (p step : Nat) : State :=
  let s := s.linkEv p 31 step
  let n := (s.link p).keyFails + 1
  if 3 < n then s.step3Fail p true
  else
    let s := (s.setLink p fun l => { l with keyFails := n, keyInit := [], keyResp := [] }).keyMark p
    if s.role p == .down then s.keyStart p else s

/-- KEY_RESP of the peer of the tick master to a KEY_INIT, with PRK; none where the public key is not a point of the curve. -/
def State.keyAnswer (s : State) (p : Nat) (init : List Byte) : Option State :=
  let s := s.newEcdh p
  let (m, s) := s.entropy 32
  let (nonce, s) := s.entropy 32
  let gen1 := (s.link p).gen1
  (ecdh (s.link p).ecdhKey (init.take 97)).map fun z =>
    let kem := slice 97 1184 init
    let resp := p384Public (s.link p).ecdhKey ++ (if gen1 then [] else fitBytes 1088 (Config.mlkemCipher kem m)) ++ nonce
    let prk := prkOf init resp z (if gen1 then [] else fitBytes 32 (Config.mlkemShared kem m))
    let s := s.setLink p fun l => { l with keyInit := init, keyResp := resp, prk := prk }
    (s.keyMark p).ctlSend p ctlKeyResp [] resp

/-- PRK at the tick master, from KEY_RESP; none where the public key is not a point of the curve. -/
def State.keyTake (s : State) (p : Nat) (resp : List Byte) : Option State :=
  let l := s.link p
  (ecdh l.ecdhKey (resp.take 97)).map fun z =>
    let kem := if l.gen1 then [] else fitBytes 32 (Config.mlkemDecaps l.kemSeed (slice 97 1088 resp))
    (s.setLink p fun l => { l with keyResp := resp, prk := prkOf l.keyInit resp z kem }).keyMark p

/-- Index 0 installed in both directions (Table 6.9). -/
def State.keysInstall (s : State) (p : Nat) : State :=
  let now := s.time.tick
  let d := s.txDir p
  s.setLink p fun l => { l with
    keysIn := true, keyFails := 0
    tx := { KeySt.init with key := l.keyFor d 0, since := now }
    rx := { KeySt.init with key := l.keyFor (1 - d) 0, since := now } }

/-- The signatures of the peer's KEY_FINISH hold: by the pair of this end's own LINK slot of the same key tag (R492); without
signatures only while both ends are in BLANK, MANUFACTURE or RETURNED (R160). -/
def State.finishOk (s : State) (p : Nat) (bs : List Byte) : Bool :=
  let h := sha384 ((s.link p).keyInit ++ (s.link p).keyResp)
  let kid := beNat (bs.take 4)
  if bs.length < 100 then openLc s.lifecycle && (s.cpx p).peer.openLc
  else
    match (upTo 32).find? fun k =>
      s.slotIs k 6 && tagOf (derivePublic (s.slot k).bytes (labelBytes "LINK")) == keyTag kid with
    | none => false
    | some k =>
      let secret := (s.slot k).bytes
      ecdsaVerify (derivePublic secret (labelBytes "LINK")) h (slice 4 96 bs)
        && ((s.link p).gen1 || Config.mldsaVerify (Config.mldsaPublic (deriveSeed secret (labelBytes "LINK"))) h (slice 100 3309 bs))

/-- The hub lacks the identity that its life-cycle state asks for (R160, R492). -/
def State.identityMissing (s : State) : Bool := !(openLc s.lifecycle) && s.linkPub.isNone

/-! ### Key rotation (R161) -/

/-- The interval that governs a link: the shorter of the two ends' KEY_ROTATE_S (R99, R178). -/
def State.rotateS (s : State) (p : Nat) : Nat := min (s.cv Fld.KEY_ROTATE_S) (s.cpx p).peer.rotateS

/-- The sender of a direction starts a rotation: KEY_NEXT with the next index and a tick 4 ahead (DESIGN CHOICE, log entry 35). -/
def State.rotate (s : State) (p : Nat) : State :=
  let k := s.time.tick + 4
  let i := (s.link p).tx.index + 1
  (s.setLink p fun l => { l with tx := { l.tx with next := some (i, k, false) } }).ctl p ctlKeyNext [s.txDir p, i, k.toNat]

/-- The next index of a direction takes over at its tick K (R161): the receiver keeps the old key; a KEY_NEXT without acknowledgement is
repeated with a new K, and EV031. -/
def State.keyTurns (s : State) (p : Nat) : State :=
  let now := s.time.tick
  let d := s.txDir p
  let s := match (s.link p).rx.next with
    | some (i, k, _) =>
      if reached now k then
        s.setLink p fun l => { l with rx := {
          index := i, counter := 0, key := l.keyFor (1 - d) i, since := k, next := none, old := some (l.rx.key, k) } }
      else s
    | none => s
  match (s.link p).tx.next with
  | some (i, k, acked) =>
    if !(reached now k) then s
    else if acked then
      s.setLink p fun l => { l with tx := { index := i, counter := 0, key := l.keyFor d i, since := k, next := none, old := none } }
    else (s.linkEv p 31 3).rotate p
  | none => s

/-- From tick K + 2 the receiver no longer keeps the old index (R161). -/
def State.keyRetires (s : State) (p : Nat) : State :=
  let now := s.time.tick
  s.setLink p fun l => { l with rx := { l.rx with old := l.rx.old.bind fun o => if reached now (o.2 + 2) then none else some o } }

end Sys2Proof.Machine
end

