-- ==== Sys2Proof/Machine/CfgCmds.lean ====
section
/-! DEFINITION. The commands of the cfg group (Table 4.12) and the end of a store commit (R94). -/

namespace Sys2Proof.Machine

/-- CFG_RECORD_STAGE (R104). -/
def execCfgRecordStage (rq : Req) (s : State) : Out :=
  command Cmd.cfgRecordStage 5 rq s fun _ s =>
    let c := viaChan rq.via
    let off := arg rq 0 4
    let chunk := rq.payload.drop 4
    let staged := (s.chan c).staged
    if 1020 < chunk.length || (off != 0 && off != staged.length) || 65536 < off + chunk.length then .fail s .badLength
    else .done (s.modChan c fun x => { x with staged := (if off == 0 then [] else staged) ++ chunk })

/-- The port that tags a field of the PEER layer (R91). -/
def viaPort : Via → Nat
  | .peer p => p
  | _ => 0

/-- The result of Table 4.13 once the set has been judged. -/
def ApplyAns.rc (a : ApplyAns) : Rc :=
  if a.applied.isEmpty && !a.rejected.isEmpty then (if a.rejected.any fun r => r.2 == 2 then .authFail else .badLength)
  else if !a.rejected.isEmpty then .okPartial
  else if !a.report.isEmpty then .okClamped
  else .ok

/-- The report kept for a channel: 256 entries, the others counted (R96). -/
def State.keepReport (s : State) (c : Chan) (r : List RepEntry) : State :=
  s.modChan c fun x => { x with report := r.take 256, repOver := min 65535 (r.length - 256) }

/-- EV001 for each rejected record (R106). The two channel bits have no value for the command gate, which is channel 4: they are 0 there
(DESIGN CHOICE, log entry 34). -/
def State.rejectedEvents (s : State) (c : Chan) (l : List (CfgRec × Nat)) : State :=
  l.foldl (fun (s : State) x => s.raise 1 (x.1.index % 65536 + 65536 * x.2 + 2 ^ 24 * (chanNum c % 4))) s

/-- The level that `cfg.record.apply` needs for the STORE layer: P3 but for LOCAL (R103). -/
def State.storeDenied (s : State) (rq : Req) (layer : Nat) : Bool :=
  layer == 1 && viaChan rq.via != .loc && ((s.reqLevel rq).getD 0) < 3

/-- CFG_RECORD_APPLY (R95, R96, R105, R106): the staged set consumed, framed, verified, checked and applied; with VALIDATE only the
report is written. An apply that fails leaves the staged set and the last report as they are (R559; DEDUCED, log entry 43), and EV001
still reports its records. -/
def execCfgRecordApply (rq : Req) (s : State) : Out :=
  command Cmd.cfgRecordApply 1 rq s fun _ s =>
    let c := viaChan rq.via
    let which := arg rq 0 1
    let layer := if which == 1 then some 3 else chanLayer c
    if s.storeDenied rq which then .fail s .denied
    else if s.lifecycle == lcScrapped then .fail s .locked
    else if which == 1 && s.cfg.commit.isSome then .fail s .busy
    else
      let set := (s.chan c).staged
      match (if 1 < which then none else layer) with
      | none => .fail s .badState
      | some l =>
        if set.isEmpty then .fail s .badLength
        else
          let a := s.applySet l (viaPort rq.via) set
          let n := a.report.length
          let extra := min 65535 (n - 256)
          let data := leBytes 1 a.applied.length ++ leBytes 1 a.rejected.length ++ leBytes 2 (min n 256) ++ leBytes 2 extra ++ zeros 2
          let gone := fun (t : State) => (t.modChan c fun x => { x with staged := [] }).keepReport c a.report
          let signs := (a.applied.filter fun r => r.sig.isSome).map (fun r => (r, true))
            ++ (a.rejected.filter fun x => x.2 == 2 && x.1.sig.isSome).map fun x => (x.1, false)
          let noted := fun (t : State) => signs.foldl (fun (t : State) x => t.cryptoSpore x.2 x.1.ty []) t
          if a.rc.bad then
            { st := s, rc := a.rc, failSt := some ((noted s).rejectedEvents c a.rejected) }
          else
            let t := ((gone (noted a.st)).cfgEffects).rejectedEvents c a.rejected
            let t := t.raiseIf (0 < n) 2 (min n 256 + 65536 * extra)
            let t := t.raiseIf a.changed 3 (a.applied.length % 256 + 256 * b2n a.newer + 512 * l)
            { st := t, rc := a.rc, data := data, validSt := some (s.keepReport c a.report) }

/-- The value that a view of a field holds: 0 APPLIED, 1 to 3 the override layers, 4 STORE, 5 DEFAULT. -/
def State.viewValue (s : State) (view : Nat) (f : FieldDef) : Option Nat :=
  match view with
  | 0 => some (s.applied f)
  | 1 => s.cfg.overAt 0 f.ty f.id
  | 2 => s.cfg.overAt 1 f.ty f.id
  | 3 => s.cfg.overAt 2 f.ty f.id
  | 4 => s.cfg.storeAt f.ty f.id
  | _ => some (s.fldDefault f)

/-- A field entry: its identifier, for a counted value its length, and the value (Table 4.2); the counted field of these records has
24 bytes. -/
def entryBytes (id v : Nat) : List Byte :=
  match fieldSize id with
  | some n => leBytes 2 id ++ leBytes n v
  | none => leBytes 2 id ++ leBytes 2 24 ++ leBytes 24 v

/-- Entries as long as they fit; whether all did. -/
def fitEntries (room : Nat) : List (List Byte) → List Byte × Bool
  | [] => ([], true)
  | e :: es => if room < e.length then ([], false) else let (bs, all) := fitEntries (room - e.length) es; (e ++ bs, all)

/-- The fields of a record type in ascending order of identifier. -/
def fieldsOf (ty low : Nat) : List FieldDef :=
  let ins := fun (f : FieldDef) (l : List FieldDef) => (l.takeWhile fun g => g.id < f.id) ++ f :: (l.dropWhile fun g => g.id < f.id)
  (fieldTable.filter fun f => f.ty == ty && low ≤ f.id).foldr ins []

/-- CFG_RECORD_SHOW (R103). -/
def execCfgRecordShow (rq : Req) (s : State) : Out :=
  command Cmd.cfgRecordShow 6 rq s fun _ s =>
    let ty := arg rq 0 2
    let view := arg rq 2 1
    if 5 < view || !(fieldTable.any fun f => f.ty == ty) then .fail s .badState
    else
      let es := (fieldsOf ty (arg rq 4 2)).filterMap fun f => (s.viewValue view f).map fun v => entryBytes f.id v
      let (bs, all) := fitEntries 1016 es
      { st := s, rc := if all then .ok else .okPartial
        data := leBytes 2 ty ++ leBytes 2 (8 + bs.length) ++ leBytes 4 (schemaMajor * 65536) ++ bs }

/-- A report entry's bytes (Table 4.7). -/
def repBytes (e : RepEntry) : List Byte :=
  leBytes 2 e.ty ++ leBytes 2 e.field ++ leBytes 4 e.given ++ leBytes 4 e.applied ++ leBytes 1 e.reason ++ leBytes 1 e.layer
    ++ leBytes 2 e.index

/-- CFG_REPORT_SHOW (R103). -/
def execCfgReportShow (rq : Req) (s : State) : Out :=
  command Cmd.cfgReportShow 3 rq s fun _ s =>
    let c := s.chan (viaChan rq.via)
    let n := arg rq 2 1
    if n == 0 || 63 < n then .fail s .badState
    else
      let es := (c.report.drop (arg rq 0 2)).take n
      .show s (leBytes 2 es.length ++ leBytes 2 c.repOver ++ es.flatMap repBytes)

/-- CFG_OVERRIDE_CLEAR (R103): the channel's own layer, for one record type or whole. -/
def execCfgOverrideClear (rq : Req) (s : State) : Out :=
  command Cmd.cfgOverrideClear 2 rq s fun _ s =>
    let ty := arg rq 0 2
    match chanLayer (viaChan rq.via) with
    | none => .fail s .badState
    | some l =>
      if ty != 0xFFFF && !(fieldTable.any fun f => f.ty == ty) then .fail s .badState
      else .done (s.withdraw l fun o => ty == 0xFFFF || o.ty == ty)

/-- The copy that a commit writes, and its GEN: the invalid one, else that with the lower GEN; one above the other's (R94). With neither
copy valid it is CFG_A with GEN 1 (DESIGN CHOICE, log entry 34). -/
def FlashSt.cfgTarget (f : FlashSt) : Nat × Nat :=
  let a := nth f.cfg 0 .init
  let b := nth f.cfg 1 .init
  if !a.ok then (0, if b.ok then b.gen + 1 else 1)
  else if !b.ok || b.gen ≤ a.gen then (1, a.gen + 1)
  else (0, b.gen + 1)

/-- CFG_STORE_COMMIT (R94): the copy is erased and programmed, and is not valid until it has been read back. -/
def execCfgStoreCommit (rq : Req) (s : State) : Out :=
  command Cmd.cfgStoreCommit 0 rq s fun h s =>
    if s.cfg.commit.isSome then .fail s .busy
    else
      let (k, gen) := s.upd.flash.cfgTarget
      let set := s.storeSet
      let t : State := { s with
        cfg := { s.cfg with commit := some ⟨rq.via, h, k, gen, set⟩ }
        upd := { s.upd with flash := { s.upd.flash with cfg := put s.upd.flash.cfg k .init } } }
      .long t none

/-- CFG_STORE_COMMIT_DONE (R94): the copy has been read back, with or without the right CRC. What GEN a copy holds whose programming
failed is open (a free value, log entry 3); it is not valid. A set that is too long for a copy leaves it invalid, too. -/
def execCfgStoreCommitDone (ok : Bool) (s : State) : Out :=
  run s fun s =>
    match s.cfg.commit with
    | none => s
    | some c =>
      let ok := ok && c.set.length ≤ 262128
      let (v, s) := s.draw
      let copy : CfgCopy := if ok then .made c.gen c.set else { CfgCopy.init with gen := v % 2 ^ 32 }
      let s : State := { s with
        cfg := { s.cfg with commit := none }
        upd := { s.upd with flash := { s.upd.flash with cfg := put s.upd.flash.cfg c.copy copy } } }
      s.finishRc c.via c.handle (if ok then .ok else .hwFault)

/-- CFG_STORE_SHOW (R103). Byte 9 is 1 when neither copy is valid, since no copy then holds the STORE layer (DESIGN CHOICE, log
entry 34). -/
def execCfgStoreShow (rq : Req) (s : State) : Out :=
  command Cmd.cfgStoreShow 0 rq s fun _ s =>
    let a := nth s.upd.flash.cfg 0 .init
    let b := nth s.upd.flash.cfg 1 .init
    let differs := match s.upd.flash.governing with
      | some c => c.records != s.storeSet
      | none => true
    .show s (leBytes 4 a.gen ++ leBytes 4 b.gen ++ leBytes 1 (b2n a.ok + 2 * b2n b.ok) ++ leBytes 1 (b2n differs) ++ zeros 2)

end Sys2Proof.Machine
end

