-- ==== Sys2Proof/Machine/Cpwr.lean ====
section
/-! DEFINITION. The cable power commands (spec/16). -/

namespace Sys2Proof.Machine

/-! ### Attach and detach (R410, R412, R425) -/

/-- What a channel sees on its pins A5 and B5: 0 open, 1 Ra, 2 Rd, 3 to 5 Rp Default, 1.5 A, 3.0 A. As source it sees Rd on one pin, as sink
Rp on one: source, pin B5, Ra on the other, the Rp seen. Rd on both, or Ra on both, attaches nothing (Table 16.2). -/
def ccSees (a b : Nat) : Option (Bool × Bool × Bool × Nat) :=
  if a == 2 && b < 2 then some (true, false, b == 1, 0)
  else if b == 2 && a < 2 then some (true, true, a == 1, 0)
  else if 3 ≤ a && b < 2 then some (false, false, b == 1, min 2 (a - 3))
  else if 3 ≤ b && a < 2 then some (false, true, a == 1, min 2 (b - 3))
  else none

/-- An attached sink sees its partner's Rp: the Type-C current follows it, and SinkTxOK lets a queued AMS begin (R414, R420). -/
def State.farRpSeen (s : State) (k rp : Nat) : State :=
  let s := s.setChn k fun c => { c with farRp := rp }
  let s := if (s.chn k).contract == 1 && !(s.chn k).pd then s.setContract k 1 5000 (rpMa rp 500) else s
  if rp == 2 then s.sendQueued k else s

/-- Attachment declared (R410, R412): as a source VBUS goes on when it is at vSafe0V and the capabilities are sent, as a sink the Type-C
current is the contract. -/
def State.attach (s : State) (k : Nat) (src pinB5 ra : Bool) (rpFar : Nat) : State :=
  let role := s.ccRole k
  let rp := s.rpOf k
  let s := (s.setChn k fun c => { c.freshIds with
    state := if src then 4 else 5, src := src, dfp := src, vconnSrc := src, vconnFault := false, pinB5 := pinB5, ra := ra, pd := false,
    rev := 1, role := role, rp := rp, rpBase := rp, farRp := rpFar, autoDr := false, hadContract := false, discStep := 0, idSop := [],
    idCable := [], svids := [], vendorVdo := 0, dpVdo := 0, farCaps := [], recovering := false, swap := none }).ccStop k .drp
  let s := (s.vconn k).raise 144 (k + 8 + 16 * b2n src + 32 * b2n pinB5)
  if src then
    let s := if s.srcPowered k && s.vSafe0 k then s.vbusOn k 5000 else s
    let s := if 2 ≤ k && s.isUsbHub && s.srcPowered k then s.usbConnect (k - 1) true else s
    (s.setContract k 1 5000 (rpMa rp 900)).sendCaps k
  else (s.vbusSink k).setContract k 1 5000 (rpMa rpFar 500)

/-- CC_ATTACH (R410): what pins A5 and B5 have shown for `heldMs`, and whether VBUS is present; attachment is declared when an attached range
has lasted CC_DEBOUNCE_MS, as a sink with VBUS. An attached sink reads its partner's Rp from it. -/
def execCcAttach (chan a5 b5 heldMs : Nat) (vbus : Bool) (s : State) : Out :=
  runPwr s fun s =>
    let c := s.chn chan
    let role := s.ccRole chan
    if 5 < chan || c.state == 6 || c.state == 0 then s
    else
      match ccSees a5 b5 with
      | none => if c.state == 2 then s.setChn chan fun c => { c with state := 1 } else s
      | some (src, pinB5, ra, rp) =>
        if c.attached then (if !src && !c.src && pinB5 == c.pinB5 then s.farRpSeen chan rp else s)
        else if (src && role == 1) || (!src && role == 0) then s
        else if heldMs < s.cv Fld.CC_DEBOUNCE_MS || (!src && !vbus) then
          s.setChn chan fun c => { c with state := if c.state == 3 then 3 else 2 }
        else s.attach chan src pinB5 ra rp

/-- A channel becomes unattached (R410): VBUS and VCONN off, the multiplexer QUIET. -/
def State.detach (s : State) (k : Nat) : State :=
  let c := s.chn k
  let s := (s.dropAms k).leaveEpr k
  let s := match c.swap with
    | some w => s.swapDone k w 1
    | none => s
  let s := s.setChn k fun c => { c with
    state := 1, contract := 0, mv := 0, ma := 0, moving := false, vconnOn := false, vconnSrc := false, pd := false, recovering := false,
    drpSrc := true, timers := [] }
  let s := ((s.vbusOff k).showPins k).quietMux k
  let s := if 2 ≤ k && s.isUsbHub then s.usbConnect (k - 1) false else s
  (s.raise 144 (k + 16 * b2n c.src + 32 * b2n c.pinB5)).budgetPd k

/-- CC_DETACH (R410): as a source when Rd has been absent from the active pin for PD_DEBOUNCE_MS, as a sink when VBUS is below the
disconnect threshold, but not during a power role swap or a hard reset. -/
def execCcDetach (chan heldMs : Nat) (vbusGone : Bool) (s : State) : Out :=
  runPwr s fun s =>
    let c := s.chn chan
    let held := c.recovering || match c.swap with
      | some w => w.kind == 0 && 2 ≤ w.phase
      | none => false
    let gone := if c.src then s.cv Fld.PD_DEBOUNCE_MS ≤ heldMs else vbusGone && !held
    if 5 < chan then s
    else if c.state == 2 then s.setChn chan fun c => { c with state := 1 }
    else if !c.attached || !gone then s else s.detach chan

/-- DRP_TOGGLE (R410): the toggle, each side for its share of DRP_PERIOD_MS, or Try.SRC and Try.SNK, which present the preferred side for
DRP_TRY_MS. -/
def execDrpToggle (chan : Nat) (trying : Bool) (s : State) : Out :=
  runPwr s fun s =>
    let c := s.chn chan
    let role := s.ccRole chan
    if 1 < chan || c.attached || c.state == 6 || c.state == 0 || role < 2 then s
    else if trying then
      if role == 2 then s
      else ((s.setChn chan fun c => { c with state := 3, drpSrc := role == 3 }).ccStart chan .drp (msTicks (s.cv Fld.DRP_TRY_MS))).showPins chan
    else if c.state == 2 || (c.runs .drp && !s.ccDue chan .drp) then s
    else
      let src := !c.drpSrc
      let pct := s.cv Fld.DRP_DUTY_PCT
      let ticks := msTicks (s.cv Fld.DRP_PERIOD_MS) * (if src then pct else 100 - pct) / 100
      ((s.setChn chan fun c => { c with state := 1, drpSrc := src }).ccStart chan .drp ticks).showPins chan

/-! ### Requests as source (R416) -/

/-- AUTO: the Request names an offered object within its current, positions 8 to 11 in EPR mode only. -/
def State.autoAccepts (s : State) (k : Nat) (rdo : Word) : Bool :=
  let pos := rdoPos rdo
  match (s.offered k)[pos - 1]? with
  | some p => 1 ≤ pos && rdoMa rdo ≤ pdoMa p && (pos < 8 || (s.chn k).epr)
  | none => false

/-- Accept, Reject or Wait of a Request; after an Accept VBUS moves when SRC_TRANSITION_MS has passed. -/
def State.answerRequest (s : State) (k : Nat) (rdo : Word) (answer : Nat) : State :=
  let s := (s.setChn k fun c => { c with asked := none, pd := true }).ccStop k .ask
  if answer == 1 then
    let p := ((s.offered k)[rdoPos rdo - 1]?).getD 0
    ((s.setChn k fun c => { c with nextMv := pdoMv p, nextMa := rdoMa rdo, moving := true }).ccStart k .srcTransition
      (msTicks (s.cv Fld.SRC_TRANSITION_MS))).pdSend k .accept []
  else s.pdSend k (if answer == 2 then .wait else .reject) []

/-- A Request received (R416). -/
def State.gotRequest (s : State) (k : Nat) (rdo : Word) : State :=
  if s.cv Fld.SRC_REQUEST_POLICY == 1 && !s.lcSilent then
    ((s.setChn k fun c => { c with asked := some 0, rdo := rdo, pd := true }).ccStart k .ask (msTicks 10)).raise 147 k
  else s.answerRequest k rdo (b2n (s.autoAccepts k rdo))

/-! ### Swaps (R421 to R423) -/

/-- The answer of the policy to a partner's swap: 0 reject, 1 accept, 2 wait, 3 ask (R421). -/
def State.swapPolicy (s : State) (k kind : Nat) : Nat :=
  let c := s.chn k
  if 2 ≤ k then 0
  else if kind == 1 && (c.mode != 0 || (c.position != 0 && !c.quiet)) then 0
  else if kind == 2 && s.cv Fld.VCONN_ENABLE == 0 then 0
  else
    let v := s.cv (if kind == 0 then Fld.SWAP_PR else if kind == 1 then Fld.SWAP_DR else Fld.SWAP_VCONN)
    if v == 3 && s.lcSilent then 0 else v

/-- A partner's swap answered. -/
def State.answerSwap (s : State) (k kind answer : Nat) : State :=
  let s := (s.setChn k fun c => { c with asked := none }).ccStop k .ask
  if answer == 1 then
    let job := ((s.chn k).swap.bind fun w => if w.kind == kind then w.job else none)
    (s.setChn k fun c => { c with swap := some ⟨kind, false, 1, job⟩ }).pdSend k .accept [] .swap
  else s.pdSend k (if answer == 2 then .wait else .reject) []

/-- The own request of a channel completes CROSSED (R423). -/
def State.crossed (s : State) (k : Nat) : State :=
  match (s.chn k).swap with
  | some w => (s.swapDone k w 4).setChn k fun c => { c with waiting := .none }
  | none => s

/-- A swap by policy. -/
def State.swapByPolicy (s : State) (k kind : Nat) : State :=
  let a := s.swapPolicy k kind
  if a == 3 then ((s.setChn k fun c => { c with asked := some (1 + kind) }).ccStart k .ask (msTicks 10)).raise 147 (k + 8 * (1 + kind))
  else s.answerSwap k kind a

/-- A partner's swap request (R423): against an own request not yet on the wire, or, as a sink, one on the wire, the same kind is
accepted regardless of policy; as a source the partner's is ignored; during another AMS it is answered Wait (R414). -/
def State.gotSwap (s : State) (k kind : Nat) : State :=
  let c := s.chn k
  match c.swap with
  | some w =>
    if !w.own || 2 ≤ w.phase then s.pdSend k .wait []
    else if 1 ≤ w.phase && c.src then s
    else
      let s := (((s.setChn k fun c => { c with queued := none, sent := none }).ccStop k .sinkTx).ccStop k .goodCrc).ccStop k .senderResponse
      if w.kind == kind then s.answerSwap k kind 1 else (s.crossed k).swapByPolicy k kind
  | none =>
    if c.waiting != .none || c.moving then s.pdSend k .wait [] else s.swapByPolicy k kind

/-! ### GoodCRC (R413, R422) -/

/-- The partner's response is due within 27 ms (R432). -/
def State.awaitReply (s : State) (k : Nat) : State := s.ccStart k .senderResponse (msTicks 27)

/-- What the acknowledgement of a message of this hub leads to. -/
def State.ackedFor (s : State) (k : Nat) (o : PdOut) : State :=
  match o.what with
  | .msg job => (match job with
    | some (via, h) => (s.finish via h 0 (leBytes 1 0)).endAms k
    | none => s.endAms k)
  | .swap =>
    (match o.kind with
    | .accept => s.swapAccepted k
    | .psRdy => (match (s.chn k).swap with
      | some w =>
        if w.kind == 0 then
          (if (s.chn k).src then (s.swapPhase k 3).ccStart k .psSourceOn (msTicks (s.cv Fld.PS_SOURCE_ON_MS)) else s.swapFinished k)
        else s.swapFinished k
      | none => s)
    | _ => (s.swapPhase k 1).awaitReply k)
  | .none => s
  | .request => (s.setChn k fun c => { c with waiting := .request }).awaitReply k
  | .discover => s.awaitReply k
  | .mode => s.awaitReply k

/-- A message of this hub has been acknowledged; the next that waited is sent. -/
def State.acked' (s : State) (k : Nat) : State :=
  match (s.chn k).sent with
  | none => s
  | some o =>
    let s := (s.setChn k fun c => { c with sent := none, pd := true }).ccStop k .goodCrc
    (s.ackedFor k o).pdNext k

/-! ### Structured VDMs (R426, R427) -/

/-- SVIDs of a Discover SVIDs answer. -/
def svidsOf (l : List Word) : List Nat :=
  ((l.flatMap fun w => [w.toNat / 65536, w.toNat % 65536]).filter (· != 0)).take 16

/-- An answer to discovery stored; a NAK leaves the step empty. -/
def State.discAnswer (s : State) (k : Nat) (m : PdMsg) (cmd typ : Nat) : State :=
  let c := s.chn k
  let ok := typ == 1
  let s := s.setChn k fun c => { c with
    waiting := .none, pd := true
    idCable := if ok && c.discStep == 1 && cmd == 1 then m.objs else c.idCable
    idSop := if ok && c.discStep == 2 && cmd == 1 then m.objs else c.idSop
    svids := if ok && c.discStep == 3 && cmd == 2 then svidsOf m.objs else c.svids
    vendorVdo := if ok && c.discStep == 4 && cmd == 3 then m.objs.headD 0 else c.vendorVdo
    dpVdo := if ok && c.discStep == 5 && cmd == 3 then m.objs.headD 0 else c.dpVdo }
  if 1 ≤ c.discStep && c.discStep ≤ 5 then s.discNext k else s

/-- The SVID of a mode. -/
def modeSvid (mode : Nat) : Nat := if mode == 1 then 0x1E9B else 0xFF01

/-- Enter Mode sent, first or again (R427). -/
def State.sendEnter (s : State) (k mode : Nat) : State := s.startAms k (.vdm (modeSvid mode) 4 0) [] .mode

/-- The partner's answer to Enter Mode at a DFP (R427): on ACK the position is set and, for DisplayPort, Status Update follows; on BUSY
Enter Mode is sent again in 50 ms. A DisplayPort mode that R25 has come to exclude meanwhile is left again (log entry 28). -/
def State.enterAnswer (s : State) (k typ : Nat) : State :=
  match (s.chn k).entering with
  | none => s
  | some (mode, _, _) =>
    if typ == 1 then
      if 2 ≤ mode && !s.dpPermitted k then ((s.modeDone k .badState).endAms k).startAms k (.vdm 0xFF01 5 0) [] .none
      else
        let s := ((s.modeEntered k mode).modeDone k .ok).endAms k
        if mode == 1 then s else s.pdSend k (.vdm 0xFF01 16 0) [dpStatus false false]
    else if typ == 3 then (s.endAms k).ccStart k .enterRetry (msTicks 50)
    else (s.modeDone k .denied).endAms k

/-- What the hub answers as a UFP (R426): its product VDO, SVIDs and modes, DisplayPort's where R25 lets the port offer it; the DisplayPort
mode VDO is not stated (a free value, log entry 3). -/
def State.ufpAnswer (s : State) (k svid cmd : Nat) : State :=
  let d := s.fallbackDpx k
  let dp := d < 4 && nth s.topo.ends d 0 != 0
  let ack := fun (s : State) (objs : List Word) => s.pdSend k (.vdm svid cmd 1) objs
  match cmd with
  | 1 => ack s [0x1E9B, 0, BitVec.ofNat 32 (0x8400 * 65536)]
  | 2 => ack s [BitVec.ofNat 32 (0x1E9B * 65536 + (if dp then 0xFF01 else 0))]
  | 3 =>
    if svid == 0x1E9B then ack s [BitVec.ofNat 32 (2 + 16 * s.applied Fld.MAX_RATE)]
    else if svid == 0xFF01 && dp then
      let (v, s) := s.draw
      ack s [BitVec.ofNat 32 v]
    else s.pdSend k (.vdm svid cmd 2) []
  | _ => s

/-- Enter Mode received at a UFP: ACKed only when armed for that mode (R427), a DisplayPort mode only where R25 still permits it. -/
def State.gotEnter (s : State) (k svid : Nat) : State :=
  let c := s.chn k
  if c.armed != 0 && modeSvid c.armed == svid && !s.lcSilent && (c.armed == 1 || s.dpPermitted k) then
    (s.pdSend k (.vdm svid 4 1) []).modeEntered k c.armed
  else s.pdSend k (.vdm svid 4 3) []

/-- HPD that arrives at a DFP (R430): presented to the fallback DPX as its panel's. -/
def State.gotHpd (s : State) (k : Nat) (objs : List Word) : State :=
  let c := s.chn k
  let w := objs.headD 0
  if c.dfp && (c.position == 3 || c.position == 4) && !c.quiet then
    let d := s.fallbackDpx k
    (s.setDpx d fun x => { x with presented := some (if w.getLsbD 8 then 2 else b2n (w.getLsbD 7)) }).emit
      (.panelHpd d (w.getLsbD 7) (w.getLsbD 8))
  else s

/-- Whether a message goes to the receive queue (R413): every message that the hub does not answer itself. -/
def State.queueMsg (s : State) (k : Nat) (m : PdMsg) : State :=
  let c := s.chn k
  if 16 ≤ c.queue.length then
    let n := satAdd 8 c.dropped 1
    (s.setChn k fun c => { c with dropped := n }).raise 157 (k + 256 * n)
  else
    (s.setChn k fun c => { c with queue := c.queue ++ [⟨m.sop, m.header, s.time.tick, m.objs, m.needs⟩] }).raise 151
      (k + 16 * (c.queue.length + 1))

/-- The default Request of a sink (R417): position 1 at the lower of its maximum and DEFAULT_SNK_MA. -/
def State.defaultRequest (s : State) (k : Nat) : State :=
  match (s.chn k).farCaps with
  | [] => s
  | p :: _ =>
    let ma := min (pdoMa p) (s.cv Fld.DEFAULT_SNK_MA)
    ((s.setChn k fun c => { c with nextMv := pdoMv p, nextMa := ma, waiting := .request }).ccStop k .snkRequestWait).pdSend k .request
      [mkRdo 1 ma] .request

/-- Accept, Reject or Wait of what the hub waits for. -/
def State.gotAnswer (s : State) (k : Nat) (answer : Nat) : State :=
  let c := s.chn k
  match c.swap with
  | some w =>
    if w.own && w.phase ≤ 1 then
      (if answer == 1 then s.swapAccepted k
       else ((s.swapDone k w (if answer == 2 then 2 else 1)).endAms k))
    else s
  | none =>
    if c.waiting == .request then
      let s := s.endAms k
      if answer == 1 then
        ((s.setChn k fun c => { c with moving := true }).ccStart k .psTransition (msTicks (s.cv Fld.PS_TRANSITION_MS))).budgetPd k
      else s.requestDone k (if answer == 2 then .retryLater else .denied)
    else s

/-- PS_RDY received: the contract of a sink stands, or a swap goes on (R416, R417, R422). -/
def State.gotPsRdy (s : State) (k : Nat) : State :=
  let c := s.chn k
  match c.swap with
  | some w =>
    if w.kind == 0 && !c.src && w.phase == 2 then
      -- the new source: Rp asserted and VBUS on
      (((s.swapPhase k 3).ccStop k .psSourceOff).emit (.ccPins k 0 c.rpBase c.vconnOn)).vbusOn k 5000
    else if w.kind == 0 && c.src && w.phase == 3 then s.swapFinished k
    else if w.kind == 2 && c.vconnSrc && w.phase == 2 then s.swapFinished k
    else s
  | none => if !c.src && c.moving then (s.contractMade k).requestDone k .ok else s

/-- MessageID of a header. -/
def pdId (m : PdMsg) : Nat := fieldAt m.header.toNat 9 3

/-- A message sent again because its GoodCRC was lost: acknowledged, and not acted on a second time. -/
def CcSt.repeated (c : CcSt) (m : PdMsg) : Bool := m.kind != .softReset && nth c.rxIds m.sop none == some (pdId m)

/-- A message of the hub's that it had not begun to send is discarded when one of the partner's arrives first (R414); a swap that meets a
swap is R423's. -/
def State.dropQueued (s : State) (k : Nat) (m : PdMsg) : State :=
  let isSwap := m.kind == .prSwap || m.kind == .drSwap || m.kind == .vconnSwap
  match (s.chn k).queued with
  | some o =>
    if isSwap && o.what == PdFor.swap then s
    else
      let s := ((s.setChn k fun c => { c with queued := none }).ccStop k .sinkTx).sendFailed k o 2
      (if o.what == PdFor.swap then s.crossed k else s).endAms k
  | none => s

/-- PD_MESSAGE_RECEIVE (R413): acknowledged with GoodCRC, then answered by the hub or queued for the local controller. -/
def execPdMessageReceive (chan : Nat) (m : PdMsg) (s : State) : Out :=
  runPwr s fun s =>
    let c := s.chn chan
    if 5 < chan || !c.attached || s.romNow then s
    else if m.kind == .goodCrc then s.acked' chan
    else
      let s := s.emit (.pd chan m.sop .goodCrc (pdId m) [])
      if c.repeated m then s
      else
      let s := s.dropQueued chan m
      let rev := if 2 ≤ fieldAt m.header.toNat 6 2 then 1 else 0
      let s := (s.setChn chan fun c => { c with
        pd := true, rev := if m.sop == 0 then min c.rev rev else c.rev, rxIds := put c.rxIds m.sop (some (pdId m)) }).restRp chan
      match m.kind with
      | .softReset => ((s.setChn chan fun c => { c.freshIds with
          sent := none, outq := [], waiting := .none, rxIds := [some (pdId m), none, none] }).endAms chan).pdSend chan .accept []
      | .getSourceCap => if c.src || (chan < 2 && c.role != 1) then s.sendCaps chan else s.pdSend chan .notSupported []
      | .getSinkCap => if chan < 2 then s.pdSend chan .sinkCaps (s.sinkCapsOf chan) else s.pdSend chan .notSupported []
      | .request => if c.src then s.gotRequest chan (m.objs.headD 0) else s.pdSend chan .notSupported []
      | .prSwap => s.gotSwap chan 0
      | .drSwap => s.gotSwap chan 1
      | .vconnSwap => s.gotSwap chan 2
      | .frSwap => s.pdSend chan .notSupported []
      | .eprModeEnter =>
        if s.cv Fld.EPR_ENABLE == 1 && c.src then
          ((s.enterEpr chan).pdSend chan .eprModeAck []).sendCaps chan
        else s.pdSend chan .eprModeFail []
      | .eprModeExit => s.leaveEpr chan
      | .eprModeAck => if c.src then s else s.enterEpr chan
      | .eprKeepAlive => if c.src then ((if c.epr then s.ccStart chan .eprTimeout (msTicks 875) else s)).pdSend chan .eprKeepAliveAck [] else s
      | .eprKeepAliveAck => s
      | .accept => s.gotAnswer chan 1
      | .reject => s.gotAnswer chan 0
      | .wait => s.gotAnswer chan 2
      | .psRdy => s.gotPsRdy chan
      | .sourceCaps =>
        let s := (s.setChn chan fun c => { c with farCaps := m.objs, recovering := if c.src then c.recovering else false }).queueMsg chan m
        let s := (s.raise 146 (chan + 16 * (m.objs.length % 16))).ccStart chan .snkRequestWait (msTicks (s.cv Fld.SNK_REQUEST_WAIT_MS))
        if !c.src && s.lcSilent then s.defaultRequest chan else s
      | .vdm svid cmd typ =>
        if typ == 0 then
          if cmd ≤ 3 then (if c.dfp then s.pdSend chan (.vdm svid cmd 2) [] else s.ufpAnswer chan svid cmd)
          else if cmd == 4 then (if c.dfp || 1 < chan then s.pdSend chan (.vdm svid 4 2) [] else s.gotEnter chan svid)
          else if cmd == 5 then (s.pdSend chan (.vdm svid 5 1) []).quietMux chan
          else if cmd == 6 then s.gotHpd chan m.objs
          else if cmd == 16 then (s.pdSend chan (.vdm svid 16 1) [dpStatus ((s.dpx (s.fallbackDpx chan)).hpd) false]).gotHpd chan m.objs
          else if cmd == 17 then s.pdSend chan (.vdm svid 17 1) []
          else s.queueMsg chan m
        else if cmd ≤ 3 then s.discAnswer chan m cmd typ
        else if cmd == 4 then s.enterAnswer chan typ
        else if cmd == 16 then
          (if typ == 1 then (s.gotHpd chan m.objs).pdSend chan (.vdm 0xFF01 17 0) [BitVec.ofNat 32 (6 + 256 * 2 ^ c.mode)] else s)
        else s
      | .goodCrc => s
      | .notSupported => s.queueMsg chan m
      | .sinkCaps => s.queueMsg chan m
      | .eprModeFail => s.queueMsg chan m
      | .other => s.queueMsg chan m

/-! ### Timers -/

/-- GOODCRC_TIMEOUT (R413): 1.0 ms have passed; resent up to twice, then NO_GOODCRC; in a swap after its Accept a Hard Reset follows. -/
def execGoodcrcTimeout (chan : Nat) (s : State) : Out :=
  runPwr s fun s =>
    match (s.chn chan).sent with
    | none => s
    | some o =>
      if !s.ccDue chan .goodCrc then s
      else if o.resends < 2 then
        ((s.setChn chan fun c => { c with sent := some { o with resends := o.resends + 1 } }).ccStart chan .goodCrc (msTicks 1)).emit
          (.pd chan o.sop o.kind ((nth (s.chn chan).txIds o.sop 0 + 7) % 8) o.objs)
      else
        let s := (s.setChn chan fun c => { c with sent := none, msgFails := satAdd 32 c.msgFails 1 }).ccStop chan .goodCrc
        let s : State := match o.what with
        | .swap => (match (s.chn chan).swap with
          | some w => if 2 ≤ w.phase || o.kind == PdKind.accept then s.hardReset chan true else (s.swapDone chan w 1).endAms chan
          | none => s)
        | .discover => s.discNext chan
        | _ => (s.sendFailed chan o 1).endAms chan
        s.pdNext chan

/-- QUEUED_RESPONSE_TIMEOUT (R413): a queued message that requires a response has had none for 10 ms. -/
def execQueuedResponseTimeout (chan : Nat) (s : State) : Out :=
  runPwr s fun s =>
    let due := fun (q : PdQueued) => q.needs && s.passed q.tick (msTicks 10)
    if (s.chn chan).queue.any due then
      (s.setChn chan fun c => { c with queue := c.queue.map fun q => if due q then { q with needs := false } else q }).pdSend chan .notSupported []
    else s

/-- SINK_TX_EXPIRY (R414): SINK_TX_MS have passed; the source starts its own AMS. -/
def execSinkTxExpiry (chan : Nat) (s : State) : Out :=
  runPwr s fun s => if s.ccDue chan .sinkTx then s.sendQueued chan else s

/-- ASK_TIMEOUT (R416, R421): after 10 ms, or while UNATT is 1: AUTO for a Request; Wait for a swap, Reject while UNATT is 1. -/
def execAskTimeout (chan : Nat) (s : State) : Out :=
  runPwr s fun s =>
    if !(s.ccDue chan .ask || s.lcSilent) then s
    else
      match (s.chn chan).asked with
      | none => s
      | some 0 => s.answerRequest chan (s.chn chan).rdo (b2n (s.autoAccepts chan (s.chn chan).rdo))
      | some k => s.answerSwap chan (k - 1) (if s.lcSilent then 0 else 2)

/-- SRC_TRANSITION_EXPIRY (R416, R422): after SRC_TRANSITION_MS the power path moves VBUS to the new voltage, or off in a PR_Swap. -/
def execSrcTransitionExpiry (chan : Nat) (s : State) : Out :=
  runPwr s fun s =>
    let c := s.chn chan
    if !s.ccDue chan .srcTransition then s
    else
      let s := s.ccStop chan .srcTransition
      match c.swap with
      | some w => if w.kind == 0 && w.phase == 2 && c.src then s.vbusOff chan else s
      | none => if c.src && c.moving then s.vbusOn chan c.nextMv else s

/-- SNK_REQUEST_WAIT_EXPIRY (R417): no `cpwr.request` within SNK_REQUEST_WAIT_MS, or UNATT is 1. -/
def execSnkRequestWaitExpiry (chan : Nat) (s : State) : Out :=
  runPwr s fun s =>
    let c := s.chn chan
    if c.state == 5 && c.waiting == .none && !c.moving && c.runs .snkRequestWait && (s.ccDue chan .snkRequestWait || s.lcSilent) then
      s.defaultRequest chan
    else s

/-- PD_TRANSITION_TIMEOUT (R417, R422): 0 PS_TRANSITION, 1 PS_SOURCE_OFF, 2 PS_SOURCE_ON; EV156 and Hard Reset. -/
def execPdTransitionTimeout (chan which : Nat) (s : State) : Out :=
  runPwr s fun s =>
    let c := s.chn chan
    let due := match c.swap with
      | some w => w.kind == 0 && ((which == 1 && !c.src && w.phase == 2 && s.ccDue chan .psSourceOff)
          || (which == 2 && c.src && w.phase == 3 && s.ccDue chan .psSourceOn))
      | none => which == 0 && !c.src && c.moving && s.ccDue chan .psTransition
    if c.attached && due then (s.raise 156 (chan + 16 * which)).hardReset chan true else s

/-- HARD_RESET_RECEIVED (R418, R424). -/
def execHardResetReceived (chan : Nat) (s : State) : Out :=
  runPwr s fun s => if (s.chn chan).attached then s.hardReset chan false else s

/-- SRC_RECOVER_EXPIRY (R418): after SRC_RECOVER_MS the source restores vSafe5V and offers its capabilities again; for a sink the hard reset
is over. -/
def execSrcRecoverExpiry (chan : Nat) (s : State) : Out :=
  runPwr s fun s =>
    let c := s.chn chan
    if c.recovering && s.ccDue chan .srcRecover then
      let s := (s.setChn chan fun c => { c with recovering := false }).ccStop chan .srcRecover
      if c.src then (((s.vbusOn chan 5000).vconn chan).setContract chan 1 5000 (rpMa c.rpBase 900)).sendCaps chan else s
    else s

/-- EPR_KEEPALIVE_TIMER (R419): every EPR_KEEPALIVE_MS. -/
def execEprKeepaliveTimer (chan : Nat) (s : State) : Out :=
  runPwr s fun s =>
    if (s.chn chan).epr && (s.chn chan).state == 5 && s.ccDue chan .eprKeepalive then
      (s.ccStart chan .eprKeepalive (msTicks (s.cv Fld.EPR_KEEPALIVE_MS))).pdSend chan .eprKeepAlive []
    else s

/-- EPR_KEEPALIVE_TIMEOUT (R419): none has arrived for 875 ms. -/
def execEprKeepaliveTimeout (chan : Nat) (s : State) : Out :=
  runPwr s fun s =>
    if (s.chn chan).epr && (s.chn chan).state == 4 && s.ccDue chan .eprTimeout then (s.raise 156 (chan + 16 * 3)).hardReset chan true else s

/-- SENDER_RESPONSE_TIMEOUT (R432): 27 ms have passed without the partner's response. As in USB PD, a Request unanswered leads to Hard Reset
and discovery goes on; a swap is abandoned with an outcome that the spec does not state (a free value, log entry 3), and a mode entry
fails (PRESUMED, log entry 28). -/
def execSenderResponseTimeout (chan : Nat) (s : State) : Out :=
  runPwr s fun s =>
    if !s.ccDue chan .senderResponse then s
    else
      let s := s.ccStop chan .senderResponse
      let c := s.chn chan
      match c.waiting with
      | .request => s.hardReset chan true
      | .swap =>
        match c.swap with
        | some w =>
          if w.own && w.phase == 1 then
            let (v, s) := s.draw
            (s.swapDone chan w (v % 7)).endAms chan
          else s
        | none => s.endAms chan
      | .discover => if 1 ≤ c.discStep && c.discStep ≤ 5 then (s.setChn chan fun c => { c with waiting := .none }).discNext chan else s.endAms chan
      | .mode => (s.modeDone chan .hwFault).endAms chan
      | _ => s

/-- ERROR_RECOVERY_END (R424): after ERROR_RECOVERY_MS; the configured role, unattached. -/
def execErrorRecoveryEnd (chan : Nat) (s : State) : Out :=
  runPwr s fun s =>
    if (s.chn chan).state == 6 && s.ccDue chan .errorRecovery then
      (s.setChn chan fun c => { c with
        state := 1, drpSrc := s.ccRole chan != 1, src := false, vconnSrc := false, vconnFault := false, timers := [] }).showPins chan
    else s

/-- VCONN_OVERCURRENT (R425). -/
def execVconnOvercurrent (chan : Nat) (s : State) : Out :=
  runPwr s fun s =>
    if (s.chn chan).vconnOn then
      ((s.setChn chan fun c => { c with vconnOn := false, vconnFault := true }).showPins chan).raise 154 chan
    else s

/-- ENTER_MODE_RETRY (R427): every 50 ms after BUSY, giving up 2 s after the first. -/
def execEnterModeRetry (chan : Nat) (s : State) : Out :=
  runPwr s fun s =>
    match (s.chn chan).entering with
    | none => s
    | some (mode, since, _) =>
      if !s.ccDue chan .enterRetry then s
      else
        let s := s.ccStop chan .enterRetry
        if s.passed since (msTicks 2000) then (s.modeDone chan .busy).endAms chan
        else (s.setChn chan fun c => { c with waiting := .mode }).sendEnter chan mode

/-! ### Mailbox commands (R433) -/

/-- CPWR_SHOW (Table 16.9). -/
def execCpwrShow (rq : Req) (s : State) : Out :=
  command Cmd.cpwrShow 1 rq s fun _ s =>
    let k := arg rq 0 1
    let c := s.chn k
    if 5 < k then .fail s .badState
    else .show s (leBytes 1 c.state
      ++ leBytes 1 (b2n c.src + 2 * b2n c.dfp + 4 * b2n c.vconnSrc + 8 * b2n c.pinB5 + 16 * b2n c.ra + 32 * b2n c.pd + 64 * c.rev)
      ++ leBytes 1 c.contract ++ leBytes 1 (c.position + 128 * b2n c.quiet) ++ leBytes 2 c.mv ++ leBytes 2 c.ma ++ leBytes 4 c.contrib
      ++ leBytes 1 (c.mode + 128 * b2n (c.armed != 0)) ++ leBytes 1 c.queue.length ++ zeros 2 ++ leBytes 4 c.hardResets
      ++ leBytes 4 c.msgFails)

/-- The words of a payload from an offset. -/
def wordsAt (rq : Req) (off n : Nat) : List Word := (upTo n).map fun i => BitVec.ofNat 32 (arg rq (off + 4 * i) 4)

/-- CPWR_CAPS_SET (R415, R441): source objects must be Fixed and of a voltage that the channel's switch gives. -/
def execCpwrCapsSet (rq : Req) (s : State) : Out :=
  command Cmd.cpwrCapsSet 8 rq s fun _ s =>
    let k := arg rq 0 1
    let n := arg rq 2 1
    let objs := wordsAt rq 4 n
    let isSource := arg rq 1 1 == 0
    if 5 < k || 1 < arg rq 1 1 || n == 0 || 11 < n then .fail s .badState
    else if rq.payload.length < 4 + 4 * n then .fail s .badLength
    else if isSource then
      if s.ccRole k == 1 || objs.any fun p => !pdoFixed p || (s.railFor k (pdoMv p)).isNone then .fail s .badState
      else
        let s := s.setChn k fun c => { c with srcCaps := objs }
        .done (if (s.chn k).state == 4 then s.sendCaps k else s)
    else .done (s.setChn k fun c => { c with snkCaps := objs })

/-- CPWR_REQUEST (R417): completes OK after PS_RDY, DENIED on Reject, RETRY_LATER on Wait, BAD_STATE when not sink. -/
def execCpwrRequest (rq : Req) (s : State) : Out :=
  command Cmd.cpwrRequest 8 rq s fun h s =>
    let k := arg rq 0 1
    let rdo : Word := BitVec.ofNat 32 (arg rq 4 4)
    if 5 < k then .fail s .badState
    else if (s.chn k).state != 5 then .long s (some (Rc.badState.code, []))
    else if (s.chn k).reqJob.isSome then .fail s .busy
    else
      let p := ((s.chn k).farCaps[rdoPos rdo - 1]?).getD 0
      let s := (s.setChn k fun c => { c with
        nextMv := pdoMv p, nextMa := rdoMa rdo, waiting := .request, reqJob := some (rq.via, h) }).ccStop k .snkRequestWait
      .long (s.pdSend k .request [rdo] .request) none

/-- CPWR_ANSWER (R416, R421). -/
def execCpwrAnswer (rq : Req) (s : State) : Out :=
  command Cmd.cpwrAnswer 2 rq s fun _ s =>
    let k := arg rq 0 1
    let a := arg rq 1 1
    if 5 < k || 2 < a || s.ccDue k .ask then .fail s .badState
    else
      match (s.chn k).asked with
      | none => .fail s .badState
      | some 0 => .done (s.answerRequest k (s.chn k).rdo a)
      | some n => .done (s.answerSwap k (n - 1) a)

/-- CPWR_SWAP (R421, R423): the request queued or sent; it completes with the swap's outcome. -/
def execCpwrSwap (rq : Req) (s : State) : Out :=
  command Cmd.cpwrSwap 2 rq s fun h s =>
    let k := arg rq 0 1
    let kind := arg rq 1 1
    let c := s.chn k
    if 5 < k || 2 < kind || 2 ≤ k || !c.attached then .fail s .badState
    else if c.swap.isSome || c.queued.isSome then .fail s .busy
    else
      let s := s.setChn k fun c => { c with swap := some ⟨kind, true, b2n !c.amsWaits, some (rq.via, h)⟩, waiting := .swap }
      .long (s.startAms k (if kind == 0 then .prSwap else if kind == 1 then .drSwap else .vconnSwap) [] .swap) none

/-- CPWR_HARDRESET (R418). -/
def execCpwrHardreset (rq : Req) (s : State) : Out :=
  command Cmd.cpwrHardreset 2 rq s fun _ s =>
    let k := arg rq 0 1
    if 5 < k || 1 < arg rq 1 1 || !(s.chn k).attached then .fail s .badState
    else if arg rq 1 1 == 1 then .done (s.emit (.hardReset k 1))
    else .done (s.hardReset k true)

/-- CPWR_MODE_ENTER (R427, R428): at a DFP Enter Mode is sent; at a UFP the channel is armed; NONE exits. -/
def execCpwrModeEnter (rq : Req) (s : State) : Out :=
  command Cmd.cpwrModeEnter 2 rq s fun h s =>
    let k := arg rq 0 1
    let mode := arg rq 1 1
    let c := s.chn k
    if 1 < k || 3 < mode || (2 ≤ mode && !s.dpPermitted k) then .fail s .badState
    else if mode == 0 then
      let s := s.setChn k fun c => { c with armed := 0 }
      let s := if c.attached && c.mode != 0 then s.startAms k (.vdm (modeSvid c.mode) 5 0) [] .none else s
      let s := s.muxTo k 0 0 false
      if c.dfp && c.attached then .long s (some (0, [])) else .done s
    else if !c.attached then .fail s .badState
    else if c.dfp then
      if c.entering.isSome || c.queued.isSome then .fail s .busy else
      let s := s.setChn k fun c => { c with entering := some (mode, s.time.tick, some (rq.via, h)), waiting := .mode }
      .long (s.sendEnter k mode) none
    else .done (s.setChn k fun c => { c with armed := mode })

/-- CPWR_MUX_SET (R428): ISOLATE, USB on DOCKSIDE or RELAY, BYPASS on HOSTSIDE; QUIET ends. -/
def execCpwrMuxSet (rq : Req) (s : State) : Out :=
  command Cmd.cpwrMuxSet 2 rq s fun _ s =>
    let k := arg rq 0 1
    let p := arg rq 1 1
    let ok := p == 0 || (p == 1 && (s.topo.role == .dockside || s.topo.role == .relay)) || (p == 5 && s.topo.role == .hostside)
    if 1 < k || !ok then .fail s .badState else .done (s.muxTo k p 0 false)

/-- A fixed number of words as bytes. -/
def wordBytes (n : Nat) (l : List Word) : List Byte := (upTo n).flatMap fun i => leBytes 4 (nth l i 0).toNat

/-- CPWR_DISCOVER_SHOW (Table 16.8). -/
def execCpwrDiscoverShow (rq : Req) (s : State) : Out :=
  command Cmd.cpwrDiscoverShow 2 rq s fun _ s =>
    let k := arg rq 0 1
    let c := s.chn k
    if 5 < k || 1 < arg rq 1 1 then .fail s .badState
    else
      let sop := arg rq 1 1 == 0
      let l := if sop then c.idSop else c.idCable
      let sv := if sop then c.svids else []
      .show s (leBytes 1 (b2n !l.isEmpty) ++ zeros 3 ++ wordBytes 3 l ++ wordBytes 3 (l.drop 3) ++ leBytes 1 sv.length ++ zeros 3
        ++ (upTo 16).flatMap (fun i => leBytes 2 (nth sv i 0)) ++ leBytes 4 (if sop then c.vendorVdo.toNat else 0)
        ++ leBytes 4 (if sop then c.dpVdo.toNat else 0))

/-- CPWR_MSG_SEND (R413): sent as given, its header word first; SOP' and SOP'' only as VCONN source (R425). A queued message that
required a response has had one. -/
def execCpwrMsgSend (rq : Req) (s : State) : Out :=
  command Cmd.cpwrMsgSend 4 rq s fun h s =>
    let k := arg rq 0 1
    let sop := arg rq 1 1
    let c := s.chn k
    let n := rq.payload.length - 4
    if 5 < k || 2 < sop || !c.attached || (sop != 0 && !c.vconnSrc) || (2 ≤ k && sop == 2) then .fail s .badState
    else if 260 < n then .fail s .badLength
    else if c.queued.isSome then .fail s .busy
    else
      let objs := BitVec.ofNat 32 (arg rq 2 2) :: (upTo ((n + 3) / 4)).map fun i => BitVec.ofNat 32 (arg rq (4 + 4 * i) 4)
      let s := s.setChn k fun c => { c with queue := c.queue.map fun q => { q with needs := false } }
      .long (s.startAms k .other objs (.msg (some (rq.via, h))) sop) none

/-- CPWR_MSG_RECV (Table 16.8): the oldest message leaves the queue; LENGTH 0 when it is empty. -/
def execCpwrMsgRecv (rq : Req) (s : State) : Out :=
  command Cmd.cpwrMsgRecv 1 rq s fun _ s =>
    let k := arg rq 0 1
    if 5 < k then .fail s .badState
    else
      match (s.chn k).queue with
      | [] => .show s []
      | q :: rest =>
        .show (s.setChn k fun c => { c with queue := rest }) (leBytes 1 rest.length ++ leBytes 1 q.sop ++ leBytes 2 q.header.toNat
          ++ leBytes 6 q.tick.toNat ++ zeros 2 ++ wordBytes q.objs.length q.objs)

end Sys2Proof.Machine
end

