-- ==== Sys2Proof/Machine/FaultOps.lean ====
section
/-! DEFINITION. The fault record (R540, R544, R545) and the mailbox's queue of complete requests (R49, R52, R66). -/

namespace Sys2Proof.Machine

/-! ### Fault record -/

/-- What a fault's action is, as the LOG gives it (Table 21.4). -/
def actNone : Nat := 0
def actEngine : Nat := 1
def actMgt : Nat := 2
def actSystem : Nat := 3
def actThermal : Nat := 4
def actFloor : Nat := 5

/-- A fault entry written before the action is taken (R540): the count, the LOG, EV000 at once where the queues survive the
action, and for the next boot otherwise (R545); a fault is a freeze trigger (R528). -/
def State.logFault (s : State) (code action : Nat) (unit : Nat := 0) : State :=
  let (arg, s) := s.draw
  let n := min 255 (nth s.fault.counts code 0 + 1)
  let e : FaultEntry := ⟨code, action, s.time.tick, s.time.slot, arg % 2 ^ 32, unit⟩
  let survives := action ≤ 2
  let s : State := { s with fault := { s.fault with
    counts := put s.fault.counts code n
    log := (e :: s.fault.log).take 16
    unreported := if survives then s.fault.unreported else s.fault.unreported ++ [(code, action)] } }
  let s : State := if code ≤ 8 then { s with upd := { s.upd with cleanSince := s.time.tick } } else s
  (s.recTrigger 0).raiseIf survives 0 (code + 256 * action + 65536 * n)

/-- Faults of a code in the LOG within a number of ticks (R540, R544). -/
def State.recentFaults (s : State) (code ticks : Nat) (action : Nat → Bool) : Nat :=
  (s.fault.log.filter fun e => (code == 0 || e.code == code) && action e.action && tickDiff s.time.tick e.tick ≤ ticks).length

/-- The fault record as it lies in the Lichen store (Table 21.4). -/
def faultRecord (f : FaultSt) : List Byte :=
  let entry := fun (e : FaultEntry) =>
    leBytes 1 e.code ++ leBytes 1 e.action ++ zeros 2 ++ leBytes 6 e.tick.toNat ++ leBytes 1 e.slot ++ zeros 1 ++ leBytes 4 e.arg
  leBytes 1 f.resetKind ++ leBytes 1 f.resetCause ++ zeros 2 ++ leBytes 6 f.resetTick.toNat ++ leBytes 1 f.floor ++ zeros 5
    ++ fitBytes 64 (f.counts.flatMap (leBytes 1)) ++ fitBytes 256 (f.log.flatMap entry)

/-! ### Requests that have arrived (R49, R51, R52, R60, R66) -/

/-- A complete request enters: counted (R60) and recorded (R525), answered from the stored reply when it is a duplicate (R52), with
RETRY_LATER when no firmware runs (R66), with BAD_LENGTH or LOCKED by the checks of step 4, forwarded or refused when its opcode
is not a command's, and otherwise put in the order of execution (Table 22.7). `delivered` says that the transport delivered as many payload
bytes as LENGTH says (R51). -/
def State.submit (s : State) (m : Msg) (delivered : Bool) : State :=
  let via := m.rq.via
  let s := (s.countLocal via).spore 1 (chanNum (viaChan via)) (reqBytes m.opcode m.rq)
  let c := s.chan (viaChan via)
  match (if reqHops m.rq == 0 && c.isLast m then c.stored else none) with
  | some r => (s.holdReply via r).emit (.reply via r)
  | none =>
    if !s.fwRuns then s.hwReply m .retryLater
    else if viaChan via == .dbg && s.lifecycle == lcScrapped then s.fwReply m .locked 0 []
    else if !delivered || 1024 < m.len then s.fwReply m .badLength 0 []
    else if (cmdRow? m.opcode).isSome then s.enqueue m
    else if reqHops m.rq == 7 then s.fwReply m .badState 0 []
    else if 0 < reqHops m.rq then s.pass m none
    else s.fwReply m .badOpcode 0 []

end Sys2Proof.Machine
end

