-- ==== Sys2Proof/Machine/SvcOps.lean ====
section
/-! DEFINITION. The service cluster's shared operations (spec/15): packages, placement, instances, migration, faults, loss of cores,
and what the rest of the hub tells the runtime. -/

namespace Sys2Proof.Machine

/-! ### Packages (R384, R399) -/

/-- What the hub takes from a package: class, operating point, SLOTS, CAPS, MEM_KIB and SCRATCH_KIB. -/
structure SvcPkg where
  cls     : Nat
  opp     : Nat
  slots   : Nat
  caps    : Nat
  mem     : Nat
  scratch : Nat
  code    : Nat := 0
  deriving DecidableEq, Repr

/-- The shipped services (Table 15.3); their code is not given. -/
def shippedPkg (id : Nat) : Option SvcPkg :=
  match id with
  | 1 => some ⟨0, 1, 8, 0x07, 65536, 64, 0⟩
  | 2 => some ⟨0, 1, 12, 0x4B, 4096, 32, 0⟩
  | 3 => some ⟨0, 1, 6, 0x63, 1024, 16, 0⟩
  | 4 => some ⟨2, 1, 40, 0x1B, 262144, 64, 0⟩
  | _ => none

def shippedId (id : Nat) : Bool := id < 0x100

/-- The fields of a package's header (Table 15.1). -/
def parsePkg (b : List Byte) : SvcPkg := ⟨leAt 16 1 b, leAt 17 1 b, leAt 18 2 b, leAt 20 2 b, leAt 24 4 b, leAt 28 2 b, leAt 32 4 b⟩

/-- The package of a SERVICE_ID: the stored one, or the shipped one. -/
def State.pkg (s : State) (id : Nat) : Option SvcPkg :=
  match s.upd.flash.pkgs.find? fun p => p.id == id with
  | some p => some (parsePkg p.bytes)
  | none => shippedPkg id

/-- The frequency in MHz of an operating point (Table 15.1). -/
def oppMhz (o : Nat) : Nat := nth [500, 1000, 1500, 2000] o 2000

/-- Slots that work of SLOTS takes at an operating point. -/
def slotsAt (slots opp : Nat) : Nat := ceilDiv (slots * 1000) (oppMhz opp)

/-! ### Placement (R387) -/

def State.inst (s : State) (id : Nat) : Option InstSt := s.svc.insts.find? fun x => x.id == id
def State.setInst (s : State) (id : Nat) (f : InstSt → InstSt) : State :=
  { s with svc := { s.svc with insts := s.svc.insts.map fun x => if x.id == id then f x else x } }
def State.core (s : State) (k : Nat) : CoreSt := nth s.svc.cores k (.fresh 0)
def State.setCore (s : State) (k : Nat) (f : CoreSt → CoreSt) : State :=
  { s with svc := { s.svc with cores := s.svc.cores.modify k f } }

/-- A service runs. -/
def State.svcRuns (s : State) (id : Nat) : Bool := s.svc.insts.any fun x => x.id == id && x.state == 1

/-- The core an instance is placed on: the one it moves to, while it moves. -/
def State.placedOn (s : State) (x : InstSt) : Nat :=
  match (s.svc.moves.filter fun m => m.id == x.id).getLast? with
  | some m => m.dst
  | none => x.core

/-- Instances placed on a core: running or migrating. -/
def State.instsOn (s : State) (k : Nat) : List InstSt :=
  s.svc.insts.filter fun x => (x.state == 1 || x.state == 3) && s.placedOn x == k

/-- The load of works (SLOTS, OPP) on one core: at the highest operating point among them. -/
def loadOf (ws : List (Nat × Nat)) : Nat :=
  let f := ws.foldl (fun m w => max m w.2) 0
  total (ws.map fun w => slotsAt w.1 f)

def State.coreWorks (s : State) (k : Nat) : List (Nat × Nat) := (s.instsOn k).map fun x => (x.slots, x.opp)

/-- A core that may hold instances. -/
def State.coreEnabled (s : State) (k : Nat) : Bool := s.svc.on && (s.core k).state == 1

/-- A core has room for an instance (R387). -/
def State.hasRoom (s : State) (k slots opp : Nat) : Bool := loadOf ((slots, opp) :: s.coreWorks k) ≤ 250

/-- The core that R387 gives an instance, among the enabled cores but one. -/
def State.place (s : State) (cls slots opp : Nat) (but : Option Nat) : Option Nat :=
  let ok := (upTo 8).filter fun k => s.coreEnabled k && some k != but && s.hasRoom k slots opp
  if cls == 0 then ok.head?
  else match (ok.filter (0 < ·)).getLast? with
    | some k => some k
    | none => ok.head?

/-- FLOOR instances' SLOTS in all (R387). -/
def State.floorSlots (s : State) : Nat :=
  total ((s.svc.insts.filter fun x => x.cls == 0 && (x.state == 1 || x.state == 3)).map (·.slots))

/-! ### Starting and stopping -/

def InstSt.fresh (id core cls : Nat) (p : SvcPkg) (caps : Nat) : InstSt :=
  { id := id, shipped := shippedId id, state := 1, core := core, home := core, cls := cls, opp := p.opp, slots := p.slots, caps := caps,
    memKib := p.mem, scratch := p.scratch, codeBytes := p.code, persist := false, ready := true, timer := none, waitsEv := false, ran := 0,
    runNow := 0, silent := 0, restarts := [], faults := 0, lastFault := 0, restartDue := none, mask := 0, events := [], lostEvents := 0, gateReply := none,
    gateBusy := false, frames := [], dma := none, notice := false }

/-- Capabilities of an instance started now (R386, R405). -/
def State.startCaps (s : State) (id : Nat) (p : SvcPkg) : Nat :=
  if shippedId id then p.caps else Nat.land p.caps (s.cv Fld.CUSTOMER_CAPS)

/-- An instance begins on a core from its package: no state, no event enabled, EV136; what counts its faults and restarts stays. -/
def State.beginInst (s : State) (id core cls : Nat) (p : SvcPkg) : State :=
  let x := InstSt.fresh id core cls p (s.startCaps id p)
  let x := match s.inst id with
    | some o => { x with persist := o.persist, restarts := o.restarts, faults := o.faults, lastFault := o.lastFault }
    | none => x
  let s : State := match s.inst id with
    | some _ => s.setInst id fun _ => x
    | none => { s with svc := { s.svc with insts := s.svc.insts ++ [x] } }
  s.raise 136 (id % 65536 + 65536 * (core % 8))

/-- The class an instance runs as: FLOOR only within SVC_FLOOR_SLOTS (R387). -/
def State.runClass (s : State) (p : SvcPkg) : Nat :=
  if p.cls == 0 && s.cv Fld.SVC_FLOOR_SLOTS < s.floorSlots + p.slots then 1 else p.cls

/-- A service started by the runtime itself, where a core has room. -/
def State.startInst (s : State) (id : Nat) : State :=
  match s.pkg id with
  | none => s
  | some p =>
    match s.place (s.runClass p) p.slots p.opp none with
    | some k => s.beginInst id k (s.runClass p) p
    | none => s

/-- An instance stops: its migration, DMA and gate request end with it (EV137). -/
def State.haltInst (s : State) (id : Nat) : State :=
  let s := s.setInst id fun x => { x with
    state := 0, ready := false, timer := none, waitsEv := false, ran := 0, runNow := 0, silent := 0, dma := none
    gateReply := none, gateBusy := false, events := [], frames := [], notice := false, mask := 0 }
  { s with svc := { s.svc with moves := s.svc.moves.filter fun m => m.id != id } }

def State.stopInst (s : State) (id cause : Nat) : State := (s.haltInst id).raise 137 (id % 65536 + 65536 * cause)

/-- The cluster starts: the shipped services that AUTOSTART_MASK names, and each customer service started with PERSIST (R397). -/
def State.clusterStart (s : State) : State :=
  let mask := s.applied Fld.SVC_CORES_MASK
  let s : State := { s with svc := { s.svc with
    on := true, moves := [], reduced := false
    cores := (upTo 8).map fun k => .fresh (if bitAt mask k then 1 else 0)
    insts := s.svc.insts.map fun x => { x with state := 0, dma := none } } }
  let s := ((upTo 4).filter fun k => bitAt (s.applied Fld.AUTOSTART_MASK) k).foldl (fun s k => s.startInst (k + 1)) s
  ((s.svc.insts.filter fun x => x.persist && !shippedId x.id && x.state == 0).map (·.id)).foldl (fun s id => s.startInst id) s

/-- The cluster is lost: every instance is gone, those with PERSIST remembered (R397, Table 21.2). -/
def State.clusterStop (s : State) : State :=
  { s with svc := { s.svc with
    on := false, moves := [], fleetMiss := 0, fleetAt := none, redrawAt := List.replicate 4 none, hidWoke := false, reduced := false, staged := [[], [], [], [], []]
    insts := (s.svc.insts.filter (·.persist)).map fun x => { x with
      state := 0, ready := false, timer := none, waitsEv := false, events := [], lostEvents := 0, gateReply := none, gateBusy := false,
      frames := [], dma := none, notice := false, mask := 0, restarts := [], faults := 0, lastFault := 0, restartDue := none } } }

/-- Fault 0x09 (Table 21.3): every service core is reset and Woeri starts from its running copy. -/
def State.clusterRestart (s : State) : State := (s.logFault 9 actEngine).clusterStop.clusterStart

/-! ### Faults of instances and cores (R396, R398) -/

/-- An instance faults: 0 trap, 1 access, 2 MEMORY, 3 watchdog (R398); it is restarted one tick later. -/
def State.faultInst (s : State) (id cause : Nat) : State :=
  if s.svc.insts.any fun x => x.id == id && x.state != 0 then
    let s := s.haltInst id
    let s := s.setInst id fun x => { x with faults := satAdd 32 x.faults 1, lastFault := cause, restartDue := some s.time.tick }
    ({ s with upd := { s.upd with cleanSince := s.time.tick } } : State).raise 138 (id % 65536 + 65536 * cause)
  else s

/-- Restarts within the window that ends now (R398). -/
def State.recentRestarts (s : State) (x : InstSt) : List Tick :=
  x.restarts.filter fun t => tickDiff s.time.tick t ≤ msTicks (1000 * s.cv Fld.SVC_RESTART_WINDOW_S)

/-- A suspended instance of R395, which no core has room for. -/
def noHome : Nat := 255

/-- An instance restarted from its package on some core but one; without room it is suspended. -/
def State.restartElsewhere (s : State) (x : InstSt) (but : Option Nat) : State :=
  match s.pkg x.id with
  | none => s.haltInst x.id
  | some p =>
    match s.place x.cls p.slots p.opp but with
    | some k => s.beginInst x.id k x.cls p
    | none => (s.setInst x.id fun x => { x with state := 2, home := noHome }).raise 141 (x.id % 65536)

/-- A core is lost (R396): its instances restart elsewhere without their state; with no enabled core left, the cluster restarts. -/
def State.loseCore (s : State) (k : Nat) : State :=
  if (s.core k).state == 0 || (s.core k).state == 4 || 7 < k then s
  else
    let mine := s.svc.insts.filter fun x => (x.state == 1 || x.state == 3) && x.core == k
    let s := (s.setCore k fun c => { c with state := 4, cur := 0, left := 0 }).raise 140 (k + 16 * 2)
    if (upTo 8).any fun j => s.coreEnabled j then mine.foldl (fun s x => (s.haltInst x.id).restartElsewhere x (some k)) s
    else s.clusterRestart

/-! ### Moving instances (R393 to R395) -/

/-- A migration is asked for: it joins the queue of placement changes, one of a chip state's change before those of commands that have
not begun (R393). -/
def State.move (s : State) (id src dst : Nat) (chip : Bool) : State :=
  let m : Migration := ⟨id, src, dst, false, chip⟩
  let (a, b) := s.svc.moves.span fun k => k.copy || k.chip || !chip
  let s : State := { s with svc := { s.svc with moves := a ++ m :: b } }
  s.setInst id fun x => { x with state := 3 }

/-- An instance suspended: it keeps its compartment and counts nothing (R394). -/
def State.suspendInst (s : State) (id home : Nat) : State :=
  (s.setInst id fun x => { x with state := 2, home := home }).raise 141 (id % 65536)

/-- An instance resumes on a core. -/
def State.resumeInst (s : State) (id core : Nat) : State :=
  (s.setInst id fun x => { x with state := 1, core := core, home := core }).raise 141 (id % 65536 + 65536)

/-- The order of R394: class order, then descending SLOTS. -/
def moveOrder (l : List InstSt) : List InstSt :=
  let ins := fun (x : InstSt) (acc : List InstSt) =>
    let (a, b) := acc.span fun y => y.cls < x.cls || (y.cls == x.cls && x.slots ≤ y.slots)
    a ++ x :: b
  l.foldl (fun acc x => ins x acc) []

/-- The completion of a drain: the core requests no slice (R395); a core that SVC_CORES_MASK clears is disabled. -/
def State.drainDone (s : State) (k : Nat) : State :=
  if (s.core k).state == 2 && !(s.svc.insts.any fun x => (x.state == 1 || x.state == 3) && x.core == k) then
    let job := (s.core k).job
    let off := !bitAt (s.applied Fld.SVC_CORES_MASK) k
    let s := (s.setCore k fun c => { c with state := if off then 0 else 3, job := none }).raise 140 k
    match job with
    | some (via, h) => s.finishRc via h .ok
    | none => s
  else s

/-- Every instance leaves a core by the placement rule of R387 among the other enabled cores (R395). -/
def State.drainCore (s : State) (k : Nat) (job : Option (Via × Nat)) : State :=
  let s := s.setCore k fun c => { c with state := if c.state == 1 then 2 else c.state, job := job }
  let mine := moveOrder (s.svc.insts.filter fun x => x.state == 1 && x.core == k)
  let s := mine.foldl (fun s x =>
    match s.place x.cls x.slots x.opp (some k) with
    | some j => s.move x.id k j false
    | none => s.suspendInst x.id noHome) s
  s.drainDone k

/-- A core returns to placement, and suspended instances that now fit resume (R395). -/
def State.admitCore (s : State) (k : Nat) : State :=
  if (s.core k).state == 1 then s
  else
    let s := (s.setCore k fun _ => .fresh 1).raise 140 (k + 16)
    let waiting := s.svc.insts.filter fun x => x.state == 2 && x.home == noHome
    waiting.foldl (fun s x =>
      match s.place x.cls x.slots x.opp none with
      | some j => s.resumeInst x.id j
      | none => s) s

/-- A change of chip state comes before queued commands (R393): a move toward cores 2 to 7 that has not begun is dropped. -/
def State.dropMoves (s : State) : State :=
  let gone := s.svc.moves.filter fun m => !m.copy && 2 ≤ m.dst
  let s : State := { s with svc := { s.svc with moves := s.svc.moves.filter fun m => !(!m.copy && 2 ≤ m.dst) } }
  gone.foldl (fun (s : State) m => s.setInst m.id fun x => { x with state := 1 }) s

/-- The planner has started a local plan that enters REDUCED (R394): every instance leaves cores 2 to 7. -/
def State.woeriReduced (s : State) : State :=
  if s.svc.reduced || !s.svc.on then s
  else
    let s : State := ({ s with svc := { s.svc with reduced := true } } : State).dropMoves
    let away := moveOrder (s.svc.insts.filter fun x => (x.state == 1 || x.state == 3) && 2 ≤ s.placedOn x)
    away.foldl (fun s x =>
      let c := s.placedOn x
      let s := s.setInst x.id fun y => { y with home := c }
      if s.coreEnabled 1 && s.hasRoom 1 x.slots x.opp then s.move x.id c 1 true
      else if s.coreEnabled 0 && s.hasRoom 0 x.slots x.opp then s.move x.id c 0 true
      else s.suspendInst x.id c) s

/-- The return to ACTIVE (R394): suspended instances resume first, then the moved ones go back to the core they left. A core that may hold
instances no longer is not gone back to (log entry 32). -/
def State.woeriActive (s : State) : State :=
  if !s.svc.reduced then s
  else
    let s : State := { s with svc := { s.svc with reduced := false } }
    let asleep := s.svc.insts.filter fun x => x.state == 2 && x.home != noHome
    let s := asleep.foldl (fun s x =>
      if s.coreEnabled x.home then s.resumeInst x.id x.home
      else match s.place x.cls x.slots x.opp none with
        | some j => s.resumeInst x.id j
        | none => s.setInst x.id fun y => { y with home := noHome }) s
    let away := s.svc.insts.filter fun x => (x.state == 1 || x.state == 3) && s.placedOn x != x.home
    away.foldl (fun s x => if s.coreEnabled x.home then s.move x.id (s.placedOn x) x.home true else s) s

/-- A migration ends (R393): the instance resumes on its new core, unless it is to move on; a move begun under R394 keeps the core to go
back to. -/
def State.moveDone (s : State) (m : Migration) : State :=
  let s : State := { s with svc := { s.svc with moves := s.svc.moves.erase m } }
  let more := s.svc.moves.any fun k => k.id == m.id
  let s := s.setInst m.id fun x => { x with
    state := if more then 3 else 1, core := m.dst, home := if s.svc.reduced || more then x.home else m.dst }
  ((s.raise 139 (m.id % 65536 + 65536 * (m.src % 8) + 524288 * (m.dst % 8)))).drainDone m.src

/-! ### The demand and the tick (R388, R405) -/

/-- Counts toward its core's demand: ready, or a timer due within 2 ticks. -/
def State.counts (s : State) (x : InstSt) : Bool :=
  x.state == 1 && (x.ready ||
    match x.timer with
    | some t => tickDiff t s.time.tick ≤ 2
    | none => false)

/-- The service demand of a core as the planner latches it: slots and operating point (R388). -/
def State.coreDemand (s : State) (k : Nat) : Nat × Nat :=
  if !s.coreEnabled k && (s.core k).state != 2 then (0, 1)
  else
    let mine := s.svc.insts.filter fun x => x.core == k && s.counts x
    let f := mine.foldl (fun m x => max m x.opp) 0
    if mine.isEmpty then (0, 1) else (min 250 (loadOf (mine.map fun x => (x.slots, x.opp))), f)

def State.svcDemand (s : State) : List (Nat × Nat) := (upTo 8).map fun k => s.coreDemand k

/-- Something an instance's wait can end on has arrived. -/
def InstSt.stirred (x : InstSt) : Bool := !x.events.isEmpty || x.notice || x.gateReply.isSome || !x.frames.isEmpty

/-- Waits that end as a tick begins, before the demand is latched (R388): a timer due, or what has arrived for an instance that waits. -/
def InstSt.wake (x : InstSt) (now : Tick) : InstSt :=
  let due := match x.timer with
    | some t => reached now t
    | none => false
  if due || (x.waitsEv && x.stirred) then { x with ready := true, timer := none, waitsEv := false } else x

def State.svcWake (s : State) : State :=
  { s with svc := { s.svc with insts := s.svc.insts.map fun x => ({ x with ran := x.runNow, runNow := 0 } : InstSt).wake s.time.tick } }

/-- A core's Woeri has been heard in a tick, or not although the core had a slice (R396); `n`: the slots of the tick that ends. -/
def CoreSt.listen (c : CoreSt) (n : Nat) : CoreSt :=
  { c with beat := false, mute := if c.beat then 0 else if 0 < n then c.mute + 1 else c.mute }

/-- The heartbeats of the cores over the tick that ends, before the next local plan is in force. -/
def State.svcListen (s : State) : State :=
  { s with svc := { s.svc with cores := s.svc.cores.mapIdx fun k c => c.listen (nth s.plan.inForce.slices k (0, 1)).1 } }

/-- SVC_CORES_MASK by drain and admit in ascending order at a tick boundary (R405). -/
def State.svcTick (s : State) : State :=
  if !s.svc.on then s
  else
    let mask := s.applied Fld.SVC_CORES_MASK
    (upTo 8).foldl (fun s k =>
      let st := (s.core k).state
      if !bitAt mask k && st == 1 then s.drainCore k none
      else if bitAt mask k && st == 0 then s.admitCore k
      else s) s

/-! ### Running a slice (R379, R389) -/

/-- Slots given round robin within a class: the instances and what each still asks, the quantum, the slots left and the instance
and quantum to continue with. Answers what each got, what is left, and the last instance with its quantum's rest. -/
def roundRobin (q : Nat) : Nat → List (Nat × Nat) → Nat → Nat → List (Nat × Nat) × Nat × (Nat × Nat)
  | 0, _, left, first => ([], left, (0, first))
  | _, [], left, first => ([], left, (0, first))
  | fuel + 1, (id, want) :: rest, left, first =>
    if left == 0 then ([], 0, (0, first))
    else
      let got := min want (min first left)
      let again := if got < want then rest ++ [(id, want - got)] else rest
      if got == left then ([(id, got)], 0, (id, first - got))
      else
        let (gs, l, c) := roundRobin q fuel again (left - got) q
        ((id, got) :: gs, l, c)

/-- The instances of a class on a core that ask for slots, the one whose quantum was cut short first (R389). -/
def State.asking (s : State) (k cls : Nat) (uses : List (Nat × Nat)) : List (Nat × Nat) :=
  let l := (s.svc.insts.filter fun x => x.core == k && x.state == 1 && x.ready && x.cls == cls).map fun x =>
    (x.id, total ((uses.filter fun u => u.1 == x.id).map (·.2)))
  let l := l.filter fun u => 0 < u.2
  let (a, b) := l.partition fun u => u.1 == (s.core k).cur
  a ++ b

/-! ### Where instances' memory lies (log entry 32) -/

/-- An instance's block in SVC: its data region rounded up to 64 KiB, its code rounded up to 4 KiB, its context block of 4 KiB. -/
def InstSt.dataLen (x : InstSt) : Nat := ceilDiv x.memKib 64 * 65536
def InstSt.codeLen (x : InstSt) : Nat := ceilDiv x.codeBytes 4096 * 4096
def InstSt.blockLen (x : InstSt) : Nat := ceilDiv (x.dataLen + x.codeLen + 4096) 65536 * 65536

/-- The blocks follow Woeri's 64 MiB in the order of the instances; the data region comes first: offset within SVC. -/
def State.dataBase (s : State) (id : Nat) : Nat :=
  64 * mib + total ((s.svc.insts.takeWhile fun x => x.id != id).map InstSt.blockLen)

/-- The scratch regions of a core follow each other in its four banks, SB0 and SB1 left to the rings, each rounded up to 16 KiB. -/
def State.scratchBase (s : State) (x : InstSt) : Nat :=
  let before := (s.svc.insts.takeWhile fun y => y.id != x.id).filter fun y => y.core == x.core
  sbBase + 0x80000 * x.core + (if x.core == 0 then 0x40000 else 0) + total (before.map fun y => ceilDiv y.scratch 16 * 16384)

/-- The instance whose block holds an offset of the SVC region, past Woeri's own. -/
def State.instAt (s : State) (off : Nat) : Option InstSt :=
  s.svc.insts.find? fun x => x.state != 0 && s.dataBase x.id ≤ off && off < s.dataBase x.id + x.dataLen + x.codeLen + 4096

/-- The instance whose scratch region holds an SB address. -/
def State.scratchAt (s : State) (a : Nat) : Option InstSt :=
  s.svc.insts.find? fun x => x.state != 0 && s.scratchBase x ≤ a && a < s.scratchBase x + ceilDiv x.scratch 16 * 16384

/-- The PMP of a core while an instance runs there (R381): its code for reads and fetches, its data, scratch and context for reads and
writes; kinds 0 read, 1 write, 2 fetch. -/
def State.pmpAdmits (s : State) (x : InstSt) (kind a len : Nat) : Bool :=
  let within (lo n : Nat) : Bool := lo ≤ a && a + len ≤ lo + n
  let d := lpddrBase + s.svcBase + s.dataBase x.id
  if within (d + x.dataLen) x.codeLen then kind != 1
  else kind != 2 && (within d x.dataLen || within (d + x.dataLen + x.codeLen) 4096 || within (s.scratchBase x) (ceilDiv x.scratch 16 * 16384))

/-- An uncorrectable word of the SVC region (R383). -/
def State.svcWordLost (s : State) (off : Nat) : State :=
  if off < 64 * mib then (if s.svc.on then s.clusterRestart else s)
  else match s.instAt off with
    | some x => s.faultInst x.id 2
    | none => s

/-- An uncorrectable word of a scratch bank (R383, R396). -/
def State.sbWordLost (s : State) (a : Nat) : State :=
  match s.scratchAt a with
  | some x => s.faultInst x.id 2
  | none => if s.svc.on then s.loseCore ((a - sbBase) / 0x80000) else s

/-! ### Memory of the cluster -/

/-- Bytes copied in memory by the cluster DMA. -/
def State.copyMem (s : State) (src dst len : Nat) : State :=
  { s with mem := { s.mem with cells := memWrites s.mem.cells dst (memReads s.mem.cells src len) } }

def State.storeMem (s : State) (dst : Nat) (bs : List Byte) : State :=
  { s with mem := { s.mem with cells := memWrites s.mem.cells dst bs } }

/-- FLEET_AGENT sends a report (R403) over the local path: the status words and the events since the last one, of which the agent enables
all. -/
def State.fleetReport (s : State) : State :=
  if s.cv Fld.FLEET_ENABLE == 1 && s.svcRuns 4 then
    let evs := ((s.inst 4).map (·.events)).getD []
    let s := s.setInst 4 fun x => { x with events := [], mask := BitVec.allOnes 192 }
    if s.svcPath then
      s.emit (.fleetReport (s.cv Fld.FLEET_SERVER) (s.cv Fld.FLEET_PORT) (s.cv Fld.FLEET_MAC) (mailboxes.map fun c => s.status c) evs)
    else s
  else s

end Sys2Proof.Machine
end

