-- ==== Sys2Proof/Machine/UpdOps.lean ====
section
/-! DEFINITION. Live update (spec/20): the boot directory, the commit journal, the anti-rollback count, the choice of image copies at
boot and the checks of an image as if it ran. -/

namespace Sys2Proof.Machine

/-! ### The boot directory (R511, Table 20.4) -/

/-- The fields of a directory copy before its reserved bytes. -/
def dirHead (d : Dir) : List Byte :=
  leBytes 4 d.magic ++ leBytes 4 d.gen ++
    (upTo 5).flatMap fun i =>
      leBytes 1 (nth d.active i 0) ++ leBytes 1 (nth d.bootable i 0).toNat ++ zeros 2 ++ fitBytes 4 (nth d.tags i [])

/-- A directory copy's bytes before its CRC. -/
def dirBody (d : Dir) : List Byte := fitBytes 8188 (dirHead d)

/-- A directory copy as it stands in the flash. -/
def dirBytes (d : Dir) : List Byte := dirBody d ++ leBytes 4 d.crc

/-- MAGIC of a directory copy. -/
def dirMagic : Nat := 0x44495231

/-- A copy is valid when its MAGIC matches, its GEN is neither 0 nor all ones, and its CRC matches (R511). -/
def Dir.ok (d : Dir) : Bool := d.magic == dirMagic && d.gen != 0 && d.gen != 0xFFFFFFFF && d.crc == crc32 (dirBody d)

/-- A directory with the MAGIC and the CRC that make it valid. -/
def Dir.made (gen : Nat) (active : List Nat) (bootable : List (BitVec 2)) (tags : List (List Byte)) : Dir :=
  let d : Dir := ⟨dirMagic, gen, active, bootable, tags, 0⟩
  { d with crc := crc32 (dirBody d) }

/-- A directory copy where it is valid. -/
def FlashSt.dirAt (f : FlashSt) (k : Nat) : Option Dir :=
  let d := nth f.dirs k .erased
  if d.ok then some d else none

/-- The governing directory: the valid copy with the higher GEN, DIR_A on a tie (R511), with its place. -/
def FlashSt.dir? (f : FlashSt) : Option (Nat × Dir) :=
  match f.dirAt 0, f.dirAt 1 with
  | some a, some b => if a.gen < b.gen then some (1, b) else some (0, a)
  | some a, none => some (0, a)
  | none, some b => some (1, b)
  | none, none => none

/-- ACTIVE of an instance: copy A where no directory is valid (R512). -/
def State.activeCopy (s : State) (i : Nat) : Nat :=
  match s.upd.flash.dir? with
  | some (_, d) => nth d.active i 0
  | none => 0

/-- BOOTABLE of an instance: both copies where no directory is valid (R512). -/
def State.bootable (s : State) (i : Nat) : BitVec 2 :=
  match s.upd.flash.dir? with
  | some (_, d) => nth d.bootable i 0
  | none => 3

/-- Instances of an engine. -/
def instsOf (engine : Nat) : List Nat := (upTo 5).filter fun i => engineOf i == engine

/-- Some instance that is not stopped runs a copy of an engine. -/
def State.runsCopy (s : State) (engine copy : Nat) : Bool :=
  (instsOf engine).any fun i => nth s.upd.running i 0 == copy && !nth s.upd.stopped i false

/-- The lowest SVN of the copies that a directory lists bootable (R490). -/
def State.lowestSvn (s : State) (bootable : Nat → BitVec 2) : Nat :=
  ((upTo 5).flatMap fun i => ([0, 1].filter fun c => (bootable i).getLsbD c).map fun c => imgSvn (s.image (engineOf i) c)).foldl min 64

/-- The directory that a commit writes (R523) and the copy that takes it: the invalid one or that with the lower GEN. -/
def State.newDir (s : State) (retire : Bool) : Nat × Dir :=
  let (copy, gen) := match s.upd.flash.dir? with
    | some (k, d) => (1 - k, d.gen + 1)
    | none => (0, 1)
  let act := (upTo 5).map fun i => if nth s.upd.stopped i false then s.activeCopy i else nth s.upd.running i 0
  let boot := (upTo 5).map fun i =>
    let all := s.bootable i ||| BitVec.ofNat 2 (2 ^ nth act i 0)
    let kept := packBits ([0, 1].map fun c => s.runsCopy (engineOf i) c || c == nth act i 0)
    if retire then all &&& BitVec.ofNat 2 kept else all
  (copy, .made gen act boot ((upTo 5).map fun i => (imgDigest (s.image (engineOf i) (nth act i 0))).take 4))

/-! ### The anti-rollback count (R490) -/

/-- Fuses blown up to a target; EV181 when the count rises. -/
def State.blowRollback (s : State) (target : Nat) : State :=
  if target ≤ s.rollbackCount then s
  else
    let s : State := { s with trust := { s.trust with rollback := s.trust.rollback ||| BitVec.ofNat 64 (2 ^ target - 1) } }
    s.raise 181 (target % 128)

/-! ### The journal (R523, R549) -/

/-- A journal entry programmed; a full sector gives way to the other one. -/
def FlashSt.journalWrite (f : FlashSt) (phase gen number : Nat) (hash : List Byte) : FlashSt :=
  { f with
    journal := ⟨number, phase, gen, hash⟩ :: f.journal
    jrnFill := if 16 ≤ f.jrnFill then 1 else f.jrnFill + 1
    jrnBlank := if 16 ≤ f.jrnFill then false else f.jrnBlank }

/-- The sector that is not in use erased, when it is not blank or the one in use is full (Table 20.8, phase 4; R549). -/
def FlashSt.journalErase (f : FlashSt) : FlashSt :=
  if 16 ≤ f.jrnFill || !f.jrnBlank then { f with journal := f.journal.take f.jrnFill, jrnBlank := true } else f

def State.setFlash (s : State) (g : FlashSt → FlashSt) : State := { s with upd := { s.upd with flash := g s.upd.flash } }

/-- Another entry of the commit that the newest entry belongs to. -/
def State.journalNext (s : State) (phase : Nat) : State :=
  s.setFlash fun f => match f.journal with
    | e :: _ => f.journalWrite phase e.gen e.number e.hash
    | [] => f

/-! ### Commit phases (Table 20.8) -/

/-- Phase 1: the journal entry of intent; the recorder marks the commit. -/
def State.commitBegin (s : State) (d : Dir) : State :=
  let number := ((s.upd.flash.journal.head?).map (·.number)).getD 0 + 1
  (s.setFlash fun f => f.journalWrite 1 d.gen number ((sha384 (dirBytes d)).take 16)).spore 12 0xFE []

/-- Phase 4: the closing entry, and the sector that is not in use erased. -/
def State.commitClose (s : State) : State := (s.journalNext 4).setFlash (·.journalErase)

/-- Phases 3 and 4: the count advanced with ROLLBACK_AUTO, then both entries. -/
def State.commitEnd (s : State) (d : Dir) : State :=
  let s := if s.cv Fld.ROLLBACK_AUTO == 1 then s.blowRollback (s.lowestSvn fun i => nth d.bootable i 0) else s
  (s.journalNext 3).commitClose

/-- A directory copy as it now stands in the flash. -/
def State.putDir (s : State) (copy : Nat) (d : Dir) : State := s.setFlash fun f => { f with dirs := put f.dirs copy d }

/-- Phases 2 to 4; after a directory that does not read back as written, its copy stands erased and the other governs (log entry 41). Answers
the result. -/
def State.commitFinish (s : State) (d : Dir) (copy : Nat) (ok : Bool) : Rc × State :=
  if ok then
    let s := (s.putDir copy d).commitEnd d
    (.ok, s.raise 185 0)
  else
    let s := s.putDir copy .erased
    (.hwFault, s.raise 185 Rc.hwFault.code)

/-- A commit cut off by a reset (R549): how far it had come is a free value. Its entry of phase 1 is torn or whole, then the directory copy
is erased, then written, then the anti-rollback count has risen by none, some or all of its step, then the entry of phase 3 stands, and
then that of phase 4. -/
def State.commitCut (s : State) : State :=
  match s.upd.commit with
  | none => s
  | some c =>
    let (v, s) := s.draw
    let s : State := { s with upd := { s.upd with commit := none } }
    let written := s.putDir c.copy c.dir
    let goal := if s.cv Fld.ROLLBACK_AUTO == 1 then s.lowestSvn fun i => nth c.dir.bootable i 0 else 0
    let whole := written.blowRollback goal
    match v % 7 with
    | 0 => s.setFlash fun f => { f with journal := f.journal.drop 1 }
    | 1 => s
    | 2 => s.putDir c.copy .erased
    | 3 => written
    | 4 => written.blowRollback (min goal (s.rollbackCount + v / 7))
    | 5 => whole.journalNext 3
    | _ => (whole.journalNext 3).commitClose

/-- What the management firmware does at boot with the newest journal entry (Table 21.7). -/
def State.journalRecovery (s : State) : State :=
  let s := match s.upd.flash.journal.head? with
    | none => s
    | some e =>
      if e.phase == 1 then
        let here := match s.upd.flash.dir? with
          | some (_, d) => d.gen == e.gen && (sha384 (dirBytes d)).take 16 == e.hash
          | none => false
        match s.upd.flash.dir? with
        | some (_, d) =>
          if here then (s.commitEnd d).raise 185 0 else (s.journalNext 15).raise 185 Rc.hwFault.code
        | none => (s.journalNext 15).raise 185 Rc.hwFault.code
      else if e.phase == 3 then s.commitClose.raise 185 0
      else s
  s.setFlash fun f => if f.jrnBlank then f else f.journalErase

/-! ### Checks of a copy as if it ran (R513, R514, R516) -/

/-- The images that would run with a copy on every instance of its engine, or on one of them. -/
def State.imagesWith (s : State) (insts : List Nat) (copy : Nat) : List (List Byte) :=
  ((upTo 5).filter fun i => insts.contains i || !nth s.upd.stopped i false).map fun i =>
    if insts.contains i then s.image (engineOf i) copy else s.runningImage i

/-- A set of images is compatible (R513). -/
def setOk (bs : List (List Byte)) : Bool := (pairsOf bs).all fun p => pairOk p.1 p.2

/-- The packages that a Woeri image must accept: those that AUTOSTART_MASK names, those started with PERSIST and those that run (R516). -/
def State.packagesOk (s : State) (woeri : List Byte) : Bool :=
  (s.upd.flash.pkgs.filter fun k =>
    (s.svc.insts.any fun x => x.id == k.id && (x.persist || x.state != 0))
      || (1 ≤ k.id && k.id ≤ 4 && bitAt (s.applied Fld.AUTOSTART_MASK) (k.id - 1))).all fun k => packageOk woeri k.bytes

/-- A copy put to the rules of R513 on some instances. -/
def State.epochsOk (s : State) (engine : Nat) (insts : List Nat) (copy : Nat) : Bool :=
  setOk (s.imagesWith insts copy) && (engine != 1 || s.packagesOk (s.image 1 copy))

/-- The verdict of `upd.verify` (Table 20.13) and the untested pairs. -/
def State.verdict (s : State) (engine copy : Nat) : Nat × Nat :=
  let v := s.imgVerdict engine (s.image engine copy)
  let n := untestedPairs (s.imagesWith (instsOf engine) copy)
  if v != 0 then (v, n)
  else if !(s.epochsOk engine (instsOf engine) copy) then (4, n)
  else if s.cv Fld.UPD_UNTESTED_POLICY == 1 && n != 0 then (5, n)
  else (0, n)

def State.setVerdict (s : State) (engine copy : Nat) (v : Option Nat) : State :=
  { s with upd := { s.upd with verdicts := put s.upd.verdicts (copyIdx engine copy) v } }

/-! ### Image copies at boot (R512) -/

/-- The management copy that Fiddlehead loads, with the BOOT_ERROR of the choice; none when no bootable copy verifies. -/
def State.mgtChoice (s : State) : Option (Nat × Nat) :=
  let good := fun (c : Nat) => s.imgVerdict 0 (s.image 0 c) == 0
  match s.upd.flash.dir? with
  | some (_, d) =>
    let a := nth d.active 0 0
    if good a && (imgDigest (s.image 0 a)).take 4 == fitBytes 4 (nth d.tags 0 []) then some (a, 0)
    else if (nth d.bootable 0 0).getLsbD (1 - a) && good (1 - a) then some (1 - a, 1)
    else none
  | none => if good 0 then some (0, 2) else if good 1 then some (1, 1) else none

/-- The other management copy boots after a reset loop, when its BOOTABLE bit is set (R542). -/
def State.otherMgt (s : State) : Option (Nat × Nat) :=
  let c := 1 - s.activeCopy 0
  if (s.bootable 0).getLsbD c && s.imgVerdict 0 (s.image 0 c) == 0 then some (c, 3) else none

/-- An instance other than MGT starts: its ACTIVE copy, else the other bootable one (EV184), else it stays stopped. -/
def State.startEngine (s : State) (i : Nat) : State :=
  let e := engineOf i
  let mgt := s.runningImage 0
  let good := fun (c : Nat) => s.imgVerdict e (s.image e c) == 0 && pairOk mgt (s.image e c)
  let a := s.activeCopy i
  let run := fun (c : Nat) (s : State) =>
    ({ s with upd := { s.upd with running := put s.upd.running i c, stopped := put s.upd.stopped i false } } : State).setVerdict e c (some 0)
  let s := s.spore 9 0 (imgDigest (s.image e a))
  if good a then run a s
  else if (s.bootable i).getLsbD (1 - a) && good (1 - a) then (run (1 - a) s).raise 184 (i + 256)
  else { s with upd := { s.upd with stopped := put s.upd.stopped i true } }

end Sys2Proof.Machine
end

