-- ==== Sys2Proof/Machine/ResetOps.lean ====
section
/-! DEFINITION. Resets (spec/21): what each kind clears and keeps, Fiddlehead's steps, the start of the management firmware, the reset
of its core, and the faults that lead to them. -/

namespace Sys2Proof.Machine

/-! ### Baseline regions (R504, Table 19.8c) -/

/-- A locked region over the addresses `lo` to `hi` − 1; none where that is empty. -/
def lockedRegion (lo hi : Nat) (exec : Bool) (cache : BitVec 2) (relaxed : Bool) : Region :=
  if hi ≤ lo then .init
  else ⟨BitVec.ofNat 28 (lo / 4096), BitVec.ofNat 28 ((hi - 1) / 4096), true, true, false, true, true, exec, cache, relaxed⟩

/-- The regions 12 to 15 of a master. The ranges of M0 from SB0 to the planner tables are one region, since nothing else lies
between them (DEDUCED, log entry 36). -/
def State.baseline (s : State) (m : Nat) : List Region :=
  let lp := fun (k : Nat) => let r := nth s.memPlan k (0, 0); (lpddrBase + r.1, lpddrBase + r.1 + r.2)
  let sb := lockedRegion sbBase (sbBase + 0x400000) false 0 true
  let data := fun (k : Nat) => lockedRegion (lp k).1 (lp k).2 false 0 true
  if m == 0 then
    [lockedRegion 0 0x100000 true 0 true, lockedRegion unitBase 0x20000000 false 0 false,
      lockedRegion sbBase (plannerBase + 0x18000) false 0 true, lockedRegion lpddrBase (0x480000000) false 0 true]
  else if m ≤ 8 then [lockedRegion (lp 4).1 (lp 4).2 true 2 true, sb]
  else if m == 9 then [data 4, data 3, data 1, sb]
  else if m == 10 then [data 3]
  else if m == 11 then [data 0, data 1]
  else if m == 12 then [data 2]
  else if m == 13 then [lockedRegion usbEpBase (usbEpBase + 0x20000) false 0 false]
  else if m == 14 then []
  else
    [lockedRegion lichenBase (lichenBase + 0x40000) false 0 false, lockedRegion 0 0x40000 false 0 false,
      lockedRegion plannerBase (plannerBase + 0x18000) false 0 false,
      lockedRegion Config.powerUnits.1 (Config.powerUnits.2 + 1) false 0 false]

/-- Every ACU with its baseline in regions 12 to 15 and nothing else. -/
def State.loadBaseline (s : State) : State :=
  { s with trust := { s.trust with acus := (upTo 16).map fun m =>
    let b := s.baseline m
    let rs := List.replicate 12 Region.init ++ b ++ List.replicate (4 - b.length) Region.init
    { AcuSt.init with regions := rs, shadow := rs } } }

/-! ### What a system reset clears (Table 21.2, R538, R539) -/

/-- A configuration channel across a system reset: its contract, roles and pins stay; the local controller's policy goes, and the
multiplexer isolates (R23, Table 16.6). -/
def CcSt.afterReset (c : CcSt) : CcSt :=
  { c with
    srcCaps := [], snkCaps := [], armed := 0, asked := none, reqJob := none, entering := none, position := 0, quiet := false, mode := 0 }

/-- Cells of the Lichen store, which every reset but that of the supply keeps (R467). -/
def lichenCells (m : List Host.Cell) : List Host.Cell := m.filter fun c => lichenBase ≤ c.1 && c.1 < lichenBase + 0x40000

/-- Cells of the REPLAY region. -/
def State.replayCells (s : State) : List Host.Cell :=
  let r := nth s.memPlan 2 (0, 0)
  s.mem.cells.filter fun c => lpddrBase + r.1 ≤ c.1 && c.1 < lpddrBase + r.1 + r.2

/-- The instances that a start of the cluster remembers (R397). -/
def State.remembered (s : State) : List InstSt := s.clusterStop.svc.insts

/-- What the world sees of a system reset (R539): loss of signal at the panels, PERST#, a reset of the remote USB ports, and the upstream
links of a HOSTSIDE hub going down. -/
def State.signalsLost (s : State) : State :=
  let s := [0, 1, 2, 3].foldl (fun (s : State) k =>
    let s := if s.isSource k && 0 < (s.dpx k).lanes then s.emit (.panelTrain k 0 0) else s
    if (s.pcLink (k + 1)).perst then s else s.emit (.perst k true)) s
  let s := [1, 2, 3, 4].foldl (fun (s : State) k => if s.isUsbHub && (s.usbPort k).connected then s.emit (.usbBus k 3) else s) s
  if s.topo.role == .hostside then (s.emit (.upstreamOff 0)).emit (.upstreamOff 1) else s

/-- Every domain except AON and PWR at its reset values. -/
def State.domainsReset (s : State) : State :=
  let frozen := s.rcd.mode == 3
  let midway := s.pwr.phase != 0 || s.pwr.state == 3
  let s := [0, 1].foldl (fun (s : State) k =>
    if (s.chn k).position == 0 && !(s.chn k).quiet then s else s.emit (.mux k 0 false)) s
  let s := (s.signalsLost.commitCut).emit .xspiReset
  { s with
    time := { TimeSt.init with
      tick := s.time.tick, slot := s.time.slot, holdover := s.time.holdover, hoTicks := s.time.hoTicks, refLosses := s.time.refLosses }
    topo := .init
    mbx := .init
    cfg := .init
    boot := .init
    fault := { s.fault with deferred := none, phyStopped := [false, false], thermal := false, planHold := false }
    pins := { s.pins with coreVid := 50, halted := 0, mgtHalted := false }
    rcd := if frozen then { s.rcd with replay := none, ep2 := [] } else .init
    trust := { s.trust with acus := List.replicate 16 .init, work := none }
    upd := { s.upd with
      running := [0, 0, 0, 0, nth s.upd.running 4 0], stopped := [false, false, false, false, nth s.upd.stopped 4 false], mgtHalf := 0, woeriHalf := 0, octal := false
      verdicts := List.replicate 8 none, act := none, commit := none, verify := none, stageIn := none, untested := false, pairs := 0
      cleanSince := s.time.tick }
    cable := .init
    sw := .init
    plan := { PlanSt.init with pPd := s.plan.pPd, pFeed := s.plan.pFeed }
    disp := .init
    pcie := .init
    usb := .init
    net := .init
    sb := .init
    mem := { MemSt.init with
      cells := lichenCells s.mem.cells ++ (if frozen then s.replayCells else []), gib := s.mem.gib, trained := s.mem.trained }
    svc := { SvcSt.init with insts := s.remembered }
    cc := s.cc.map CcSt.afterReset
    pwr := { PwrSt.init with
      entries := s.pwr.entries, aborts := s.pwr.aborts, wake := s.pwr.wake, valid := s.pwr.valid && !midway
      entryState := s.pwr.entryState, hdrRole := s.pwr.hdrRole, entryTick := s.pwr.entryTick } }

/-! ### Fiddlehead (R491, Table 19.5; R512, R542, R548) -/

/-- Faults whose events waited for this boot (R545). -/
def State.reportFaults (s : State) : State :=
  let s' := s.fault.unreported.foldl (fun (s : State) x => s.raise 0 (x.1 + 256 * x.2 + 65536 * nth s.fault.counts x.1 0)) s
  { s' with fault := { s'.fault with unreported := [] } }

/-- Fiddlehead halts at the service floor (R546, R548). -/
def State.halt (s : State) (err : Nat) : State :=
  ({ s with boot := { s.boot with stage := 4, error := err, mgtReset := false } } : State).enterRom

/-- The slots that a life-cycle state requires to be destroyed (Table 19.2). -/
def State.mustDestroy (s : State) (lc k : Nat) : Bool :=
  lc == 5 || (lc == 4 && (s.slotState k == 1 || s.slotState k == 3) && (s.slot k).cls == 6)

def State.completeDestructions (s : State) (lc : Nat) : State :=
  (upTo 32).foldl (fun s k => if s.mustDestroy lc k then s.destroySlot k else s) s

/-- A slot written by the hub: content first, then the integrity word; EV177 (R485, R488). -/
def State.writeSlot (s : State) (k cls : Nat) (content : List Byte) : State :=
  let word := BitVec.ofNat 32 (2 ^ 31 + cls % 8 * 2 ^ 28 + slotCheck k cls content)
  let s := s.setSlot k ⟨BitVec.ofNat 256 (leNat content), word⟩
  s.raise 177 (k % 32 + 32 * (cls % 8) + 256 * s.slotState k)

/-- The DEVICE slot filled from the entropy source: slot 3 when EMPTY, slot 31 when slot 3 is damaged (R488, R550). -/
def State.fillDevice (s : State) : State :=
  let fill := fun (k : Nat) (s : State) => let (r, s) := s.entropy 32; s.writeSlot k 3 r
  if s.lifecycle == 0 then s
  else if s.slotState 3 == 0 then fill 3 s
  else if (s.slotState 3 == 2 || s.slotState 3 == 3) && s.slotState 31 == 0 then fill 31 s
  else s

/-- A bit for each slot judged PARTIAL or CORRUPT. -/
def State.damagedSlots (s : State) : Nat := packBits ((upTo 32).map fun k => s.slotState k == 2 || s.slotState k == 3)

/-- Fiddlehead loads a management copy: BOOT_STAGE 1. -/
def State.loadMgt (s : State) (copy err : Nat) : State :=
  let unfilled := s.lifecycle != 0 && s.deviceSlot.isNone
  let s : State := { s with
    boot := { s.boot with stage := 1, error := if err != 0 then err else if unfilled then 4 else 0, mgtReset := false }
    upd := { s.upd with running := put s.upd.running 0 copy, stopped := put s.upd.stopped 0 false, mgtHalf := 0 } }
  (s.setVerdict 0 copy (some 0)).raiseIf (err == 1) 184 256

/-- Fiddlehead has read the flash's parameters in 1S-1S-1S mode and goes over to 8D-8D-8D (R508, R579). -/
def State.flashRead (s : State) : State := ({ s with upd := { s.upd with octal := true } } : State).emit .xspiOctal

/-- Fiddlehead's steps; `loop` after the third fault-caused system reset within 10 minutes (R542). -/
def State.fiddlehead (s : State) (loop : Bool) : State :=
  let s := s.reportFaults
  let lc := s.lifecycle
  let old := s.trust.bootLc
  let s := ({ s with trust := { s.trust with bootLc := lc } } : State).raiseIf (lc != old) 176 (lc + 8 * old)
  let s := s.raiseIf (s.damagedSlots != 0) 178 s.damagedSlots
  let s := s.completeDestructions lc
  if (upTo 32).any fun k => s.mustDestroy lc k && s.slotState k != 4 then s.halt 0x13
  else if lc == 5 then s.halt 0x10
  else
    let s := s.fillDevice.loadBaseline
    if !s.upd.flash.present then s.halt 0x11
    else
    let s := s.flashRead
    if loop then
      match (if s.fault.floor == 0 then s.otherMgt else none) with
      | some (c, e) => ({ s with fault := { s.fault with floor := 1 } } : State).loadMgt c e
      | none => ({ s with fault := { s.fault with floor := 2 } } : State).halt 0x14
    else
      match s.mgtChoice with
      | some (c, e) => s.loadMgt c e
      | none => s.halt 0x12

/-! ### System reset and power-on reset -/

/-- The fault codes whose system resets count toward SYS_RESET_LOOP (Table 21.3). -/
def loopCodes : List Nat := [8, 0x0C, 0x0D]

/-- The reset is the third that those faults have caused within 10 minutes, counted from the LOG since the last such escalation
(R542, R544). -/
def State.resetLoop (s : State) (cause : Nat) : Bool :=
  loopCodes.contains cause &&
    3 ≤ ((s.fault.log.takeWhile fun e => e.code != 0x0E).filter fun e =>
      loopCodes.contains e.code && (e.action == actSystem || e.action == actThermal) && tickDiff s.time.tick e.tick ≤ 19200000).length

def State.noteReset (s : State) (kind cause : Nat) : State :=
  { s with fault := { s.fault with resetKind := kind, resetCause := cause, resetTick := s.time.tick } }

/-- A SYSTEM reset, and Fiddlehead after it (R534, R535). -/
def State.systemReset (s : State) (cause : Nat) : State :=
  let loop := s.resetLoop cause
  let s := s.domainsReset.noteReset 1 cause
  let s := if loop then s.logFault 0x0E actFloor else s
  s.fiddlehead loop

/-- A SYSTEM reset asked for: while one, or a power-on reset, is in progress it is absorbed, and only its cause is latched (R537). -/
def State.askSystemReset (s : State) (cause : Nat) : State :=
  if s.boot.stage ≤ 1 && !s.boot.mgtReset && s.pwr.phase == 0 && !s.fault.thermal then
    { s with fault := { s.fault with resetCause := cause } }
  else s.systemReset cause

/-- A POWER_ON reset: what the fuses, the flash and the board hold stays; the straps are sampled and the rails come up (R567, R571). -/
def State.powerOn (s : State) (mbxSel : Bool) (i3cAddr : Nat) : State :=
  let s := s.commitCut.emit .xspiReset
  { State.reset with
    pending := s.pending, out := s.out, free := s.free, grade := s.grade
    trust := { s.trust with acus := List.replicate 16 .init, work := none }
    upd := { UpdSt.init with flash := s.upd.flash }
    mem := { MemSt.init with gib := s.mem.gib }
    svc := { SvcSt.init with insts := s.remembered }
    pins := { PinSt.init with phase := 1, mbxSel := mbxSel, i3cAddr := i3cAddr % 4 } }

/-- The hub without rails, or held by PORST_N (R437, R573): its enables low and REFCLK not requested, until POWER_ON_RESET. -/
def State.powerLost (s : State) : State :=
  let s := s.powerOn s.pins.mbxSel s.pins.i3cAddr
  { s with pins := { s.pins with coreEn := false, anaEn := false, memEn := false, refReqN := true, phase := 0 } }

/-- With both feeds absent the rails lose power (R437, R534). -/
def State.railsCheck (s : State) : State :=
  if s.ppath.fed && !(s.ppath.feeds.any fun f => f.present) then s.powerLost else s

/-! ### The management firmware starts (R535) -/

/-- Woeri starts once LPDDR serves accesses and an image of it is usable. -/
def State.mayStartWoeri (s : State) : Bool :=
  s.mem.lpddr == .active && s.fwRuns && !nth s.upd.stopped 1 false && !s.svc.on

/-- The firmware starts after boot: the journal, the STORE layer, the role, the other engines; after a HIBERNATE exit the role and the
override layers are those kept (R471, R535, R549). -/
def State.firmwareReady (s : State) : State :=
  let hib := s.pwr.goal == 4
  let s : State := { s with boot := { s.boot with stage := 2, mgtReset := false }, plan := { s.plan with silent := 0, autonomy := 0 } }
  let s := s.journalRecovery.bootStore
  let s := if hib then (s.takeForce .tick).takeRole (roleOf s.cfg.roleApplied) else s.applyRole
  let s : State := { s with
    usb := { s.usb with ocMode := s.applied Fld.USB_OC_MODE, portMask := s.applied Fld.USB_PORT_MASK }
    net := { s.net with macAddr := s.applied Fld.NET_MAC_ADDR % 2 ^ 48 } }
  let engines := if hib || s.fault.resetKind == 0 then [1, 2, 3, 4] else [1, 2, 3]
  let s := (engines.foldl (fun s i => s.startEngine i) s).noteTested
  let old := s.pwr.state
  let latched := s.pwr.latched
  let s : State := { s with
    pwr := { s.pwr with state := 0, goal := 0, phase := 0, target := 0, latched := false }
    upd := { s.upd with cleanSince := s.time.tick } }
  let s := (s.raiseIf (old != 0) 168 (16 * old)).raiseIf hib 171 (s.pwr.woke + 16 * b2n latched)
  let s := s.leaveRom.loadBaseline.releasePerst
  if s.mayStartWoeri then s.clusterStart else s

/-! ### Management-core reset (R536) -/

/-- Every completion and credential handle of every channel lapses (R59, R68), and the nonces and the sideband locks (R353) with them. -/
def State.handlesLapse (s : State) : State :=
  [Chan.loc, .tun, .peer, .dbg, .gate].foldl (fun (s : State) c =>
    let gone := (s.chan c).creds
    let s := s.modChan c fun x => { x with jobs := [], creds := [], nonces := [] }
    gone.foldl (fun (s : State) k => s.sbCredGone (chanNum c) k.handle) s) s

/-- Requests that had completed but not begun execution when the firmware stops are answered RETRY_LATER (R66); those that the backstop
has answered ACCEPTED keep that answer (R65). -/
def State.retryWaiting (s : State) : State :=
  let ws := s.mbx.waiting
  (ws.filter fun w => w.late.isNone).foldl (fun (s : State) w => s.hwReply w.msg .retryLater)
    { s with mbx := { s.mbx with waiting := ws.filter fun w => w.late.isSome } }

/-- The lockstep pair is reset: requests that wait are answered, the handles lapse, what the firmware was doing stops. Its code half
is verified as it stands in MB; only the uncorrectable word of fault 0x03 sends Fiddlehead to the flash copy (R536). A halted hub loads
an image as at boot (R546). A reset during boot or another such reset is absorbed (R537). -/
def State.mgtCoreReset (s : State) (cause : Nat) : State :=
  if s.boot.mgtReset || s.boot.stage == 0 || s.boot.stage == 1 then { s with fault := { s.fault with resetCause := cause } }
  else
  let loads := s.boot.stage == 4 || (cause == 3 && s.imgVerdict 0 (s.runningImage 0) != 0)
  let s := s.retryWaiting.handlesLapse.commitCut
  let s : State := { s with
    mbx := { s.mbx with waiting := [] }
    cfg := { s.cfg with commit := none }
    trust := { s.trust with work := none }
    upd := { s.upd with act := none, commit := none, verify := none, stageIn := none }
    pins := { s.pins with mgtHalted := false }
    boot := { s.boot with stage := 0, mgtReset := true, sinceWdt := 0 } }
  let s := (s.noteReset 2 cause).recTrigger 0
  if loads then
    match s.mgtChoice with
    | some (c, e) => s.loadMgt c e
    | none => s.halt 0x12
  else s

/-- The firmware runs again after a reset of its core: it finds the planner, the layers and the queues as they were (Table 21.2). -/
def State.firmwareAgain (s : State) : State :=
  { s with
    boot := { s.boot with stage := 2, mgtReset := false }
    plan := { s.plan with silent := 0, autonomy := 0 }
    fault := { s.fault with planHold := false } }

/-- A fault whose action is a management-core reset; the fourth such reset within 32,000 ticks becomes a system reset (Table 21.3).
While that reset is under way another is absorbed, its cause latched (R537). -/
def State.mgtFault (s : State) (code : Nat) : State :=
  let s := s.logFault code actMgt
  let n := ((s.fault.log.takeWhile fun e => e.action != actSystem).filter fun e =>
    e.action == actMgt && tickDiff s.time.tick e.tick ≤ 32000).length
  if 4 ≤ n then (s.logFault 8 actSystem).systemReset 8
  else s.mgtCoreReset code

/-! ### Thermal shutdown (R543) -/

/-- Every domain except AON and PWR is switched off, with no quiesce and no save. -/
def State.thermalTrip (s : State) : State :=
  let s := s.logFault 0x0D actThermal
  let s := s.domainsReset.noteReset 3 0x0D
  let s := saveOrder.foldl (fun (s : State) d => s.emit (.domain d false)) s
  { s with
    fault := { s.fault with thermal := true, hotFor := 0, coolFor := 0 }
    pins := { s.pins with coreEn := false, anaEn := false, memEn := false } }

end Sys2Proof.Machine
end

