-- ==== Sys2Proof/Machine/AccessOps.lean ====
section
/-! DEFINITION. Accesses of the interconnect masters (R363 to R371, R494 to R503): what a faulty word does to its owner, caches and
store buffers, and reads and writes under a decision of an access control unit. -/

namespace Sys2Proof.Machine

/-! ### Uncorrectable words (R363, R371, R541, Table 14.4) -/

/-- Offset of the fault record in the Lichen store (R544). -/
def faultOffset : Nat := 0x800

/-- Sizes of the register lists in KiB, in save order (Table 18.4). -/
def listKib : List Nat := [32, 8, 8, 8, 4, 16, 16, 1, 4]

/-- The register list that holds an offset of REGLIST, the lists lying one after the other in save order (log entry 38). -/
def listAt (off : Nat) : Nat :=
  ((upTo 9).find? fun k => off < 1024 * total (listKib.take (k + 1))).getD 9

/-- The entry of the fault record that holds an offset is cleared (R541). -/
def FaultSt.clearEntry (f : FaultSt) (off : Nat) : FaultSt :=
  if off < 16 then { f with resetKind := 0, resetCause := 0, resetTick := 0, floor := 0 }
  else if off < 80 then { f with counts := f.counts.mapIdx fun k n => if k / 8 == (off - 16) / 8 then 0 else n }
  else { f with log := f.log.mapIdx fun k e => if k == (off - 80) / 16 then ⟨0, 0, 0, 0, 0, 0⟩ else e }

/-- What an uncorrectable word at an offset of the Lichen store does to the region that holds it (R541, Table 18.3). -/
def State.lichenLost (s : State) (off : Nat) : State :=
  let s : State := if faultOffset ≤ off && off < faultOffset + 336 then { s with fault := s.fault.clearEntry (off - faultOffset) } else s
  let s := s.logFault 4 actNone
  if faultOffset ≤ off && off < faultOffset + 336 then s
  else if off < 0x1000 then { s with pwr := { s.pwr with valid := false } }
  else if off < 0x11000 then { s with cfg := { s.cfg with ovr := [] } }.cfgEffects
  else if off < 0x12000 then { s with mem := { s.mem with trained := false } }
  else if off < 0x32000 then { s with pwr := { s.pwr with saved := put s.pwr.saved (listAt (off - 0x12000)) false } }
  else { s with pwr := { s.pwr with valid := false, resume := false } }

/-- The frames of the wake buffer with one dropped: the frame whose bytes an offset of NETBUF falls in (frames lie one after the
other from its start). -/
def dropFrameAt (off : Nat) : List (Tick × List Byte) → List (Tick × List Byte) × Bool
  | [] => ([], false)
  | f :: fs =>
    if off < f.2.length then (fs, true)
    else
      let (r, hit) := dropFrameAt (off - f.2.length) fs
      (f :: r, hit)

/-- What an uncorrectable LPDDR word at a usable address does to its region (Table 14.4). -/
def State.regionLost (s : State) (x : Nat) : State :=
  let k := s.memRegion x
  let off := x - (nth s.memPlan k (0, 0)).1
  if k == 0 then { s with net := { s.net with flows := s.net.flows.filter fun e => e.bucket != off / 512 } }
  else if k == 1 then
    let (fs, hit) := dropFrameAt off s.net.wakeBuf
    if hit then { s with net := { s.net with wakeBuf := fs, bufDrops := satAdd 32 s.net.bufDrops 1 } } else s
  else if k == 2 then
    let first := 8 * 1152 * 1024
    if off < first then { s with rcd := { s.rcd with snaps := put s.rcd.snaps (off / (1152 * 1024)) none } }
    else { s with rcd := { s.rcd with
      ring := s.rcd.ring.map fun e => if e.seq.toNat % max 1 (ringCap s) == (off - first) / 64 then { e with flags := Nat.lor e.flags 4 } else e } }
  else if k == 3 then
    let owner := s.mem.stores.find? fun e => (128 + 2 * e.2.1) * mib ≤ off && off < (128 + 2 * (e.2.1 + e.2.2)) * mib
    match owner with
    | some (id, _) => { s with disp := { s.disp with streams := s.disp.streams.map fun x =>
        if x.id == id && x.state != 3 then { x with stored := false, goodFrames := 0 } else x } }
    | none => s
  else s.svcWordLost off

/-- A word (8 bytes) read: correctable check bits are mended and counted, uncorrectable ones reported to the owner (R363, R371).
`ecc` is an error that the environment puts there: 1 correctable, 2 not. -/
def State.readWord (s : State) (w ecc : Nat) : State :=
  let t := s.target (8 * w)
  let bad := max (s.wordFault w) ecc
  let s := s.spoil w ecc
  match bad with
  | 0 => s
  | 1 => if t == .lpddr then s.lpddrCorrected w else s.sramCorrected w
  | _ => match t with
    | .lpddr => let x := 8 * w - lpddrBase; (s.lpddrLost x).regionLost x
    | .mb => (s.sramLost w).mgtFault 3
    | .sb => (s.sramLost w).sbWordLost (8 * w)
    | .lichen => (s.sramLost w).lichenLost (8 * w - lichenBase)
    | .unit => s
    | .none => s
    | _ => s.sramLost w

/-- The words that an access of `n` bytes touches. -/
def wordsOf (a n : Nat) : List Nat := (upTo ((a + n - 1) / 8 + 1 - a / 8)).map fun k => a / 8 + k

/-- One byte as a master reads it: the fault record and the unit registers have their own content (R544, log entry 5). -/
def State.byteAt (s : State) (a : Nat) : Byte :=
  if lichenBase + faultOffset ≤ a && a < lichenBase + faultOffset + 336 then
    nth (faultRecord s.fault) (a - lichenBase - faultOffset) 0
  else if s.target a == .unit then Config.unitRegister a
  else memRead s.mem.cells a

def State.bytesAt (s : State) (a n : Nat) : List Byte := (upTo n).map fun k => s.byteAt (a + k)

/-- Bytes read with the check of each word; `ecc` goes to the first. -/
def State.fetchBytes (s : State) (a n ecc : Nat) : List Byte × State :=
  let bs := s.bytesAt a n
  (bs, (wordsOf a n).zipIdx.foldl (fun (s : State) x => s.readWord x.1 (if x.2 == 0 then ecc else 0)) s)

/-- Bytes written, with fresh check bits or those armed. Unit registers take no write here (log entry 5). -/
def State.putBytes (s : State) (a : Nat) (bs : List Byte) : State :=
  if s.target a == .unit then s
  else
    (wordsOf a bs.length).foldl (fun (s : State) w => s.wordWritten w)
      { s with mem := { s.mem with cells := memWrites s.mem.cells a bs } }

/-! ### Caches (R380, R497) -/

/-- Lines of a data cache: 32 KiB of 64 bytes (log entry 38). -/
def cacheLines : Nat := 512

def State.setCache (s : State) (m : Nat) (f : List CacheLine → List CacheLine) : State :=
  let u := s.acu m
  s.setAcu m { u with cache := f u.cache }

/-- A master's lines that a condition picks are written back, without a second check, and invalidated or left clean (R497). -/
def State.cleanLines (s : State) (m : Nat) (p : Nat → Bool) (inval : Bool) : State :=
  let s := ((s.acu m).cache.filter fun l => l.dirty && p l.line).foldl (fun (s : State) l => s.putBytes (64 * l.line) l.bytes) s
  s.setCache m fun ls =>
    if inval then ls.filter fun l => !p l.line else ls.map fun l => if p l.line then { l with dirty := false } else l

/-- M1 to M9 see each other's lines (R380): those of the other cores are written back before one of them accesses a line, and
invalidated before a write. -/
def State.snoop (s : State) (m line : Nat) (write : Bool) : State :=
  if 1 ≤ m && m ≤ 9 then
    [1, 2, 3, 4, 5, 6, 7, 8].foldl (fun (s : State) j => if j == m then s else s.cleanLines j (fun l => l == line) write) s
  else s

/-- The line of an address in a master's cache, filled when it is not there: with the WRITE permission granted now, the oldest line
leaving a full cache. -/
def State.fillLine (s : State) (m a ecc : Nat) (debug : Bool) : State :=
  let line := a / 64
  if (s.acu m).cache.any fun l => l.line == line then s
  else
    let writable := (s.acuCheck m 1 (64 * line) debug).allow
    let (bs, s) := s.fetchBytes (64 * line) 64 ecc
    let old := if cacheLines ≤ (s.acu m).cache.length then ((s.acu m).cache.head?).map (·.line) else none
    let s := match old with
      | some o => s.cleanLines m (fun l => l == o) true
      | none => s
    s.setCache m fun ls => ls ++ [⟨line, writable, false, bs⟩]

def CacheLine.store (l : CacheLine) (off : Nat) (bs : List Byte) : List Byte :=
  l.bytes.take off ++ bs ++ l.bytes.drop (off + bs.length)

/-- A write reaches its target; a line that the master itself holds takes it too (WRITE_THROUGH). -/
def State.performWrite (s : State) (m a : Nat) (bs : List Byte) : State :=
  let s := (s.snoop m (a / 64) true).putBytes a bs
  s.setCache m fun ls => ls.map fun l => if l.line == a / 64 then { l with bytes := l.store (a % 64) bs } else l

/-! ### Store buffers (R498, R499) -/

/-- The oldest store of a core drains: checked by the rules in force now, it reaches memory or is discarded with an imprecise notice, to
Woeri for a service core and as fault 0x05 for M0. -/
def State.drainStore (s : State) (m : Nat) : State :=
  let u := s.acu m
  match u.buffer with
  | [] => s
  | e :: rest =>
    let s := s.setAcu m { u with buffer := rest }
    let v := s.acuCheck m 1 e.addr false
    let hole := s.target e.addr == .none
    if v.allow && !hole then s.performWrite m e.addr e.bytes
    else
      let s := s.deny m e.addr 1 (if hole then 0xFF else v.region) false (some e.inst) (e.tick.setWidth 32) e.slot
      if m == 0 then (s.setAcu 0 { s.acu 0 with notices := [] }).mgtFault 5 else s

/-- Stores drained, the oldest first: `n` of them, or as many as there are. -/
def State.drainStores (s : State) (m : Nat) : Nat → State
  | 0 => s
  | n + 1 => (s.drainStore m).drainStores m n

def State.drainAll (s : State) (m : Nat) : State := s.drainStores m (s.acu m).buffer.length

/-- A store retires into the buffer of 8 entries; with all of them taken, the oldest drains first. -/
def State.bufferStore (s : State) (m a : Nat) (bs : List Byte) : State :=
  let s := if 8 ≤ (s.acu m).buffer.length then s.drainStore m else s
  let u := s.acu m
  let inst := if m == 0 then 0 else (s.core (m - 1)).cur
  s.setAcu m { u with buffer := u.buffer ++ [⟨a, bs, inst, s.time.tick, s.time.slot⟩] }

/-! ### One access (R496, R498, R503) -/

/-- A denial known before the access completes: a debug access completes with zeros and sets the sticky bit; an instance's access faults
the instance; any other master gets an error. -/
def State.denyNow (s : State) (m k a len : Nat) (region : Nat) (debug : Bool) : State :=
  let s := s.deny m a k region debug none (s.time.tick.setWidth 32) s.time.slot
  if debug then
    let s : State := { s with pins := { s.pins with sticky := true } }
    if k == 1 then s else s.emit (.memData m (zeros len))
  else
    let s := s.emit (.memDenied m)
    if 1 ≤ m && m ≤ 8 && (s.core (m - 1)).cur != 0 then s.faultInst (s.core (m - 1)).cur 1 else s

/-- The first region that covers an address: its CACHE and ORDER say how a store is issued. -/
def State.orderAt (s : State) (m a : Nat) : Nat × Bool :=
  match (s.acu m).regions.find? fun r => r.covers a with
  | some r => (r.cache.toNat, r.relaxed)
  | none => (0, false)

/-- A write, checked before it completes. -/
def State.writeNow (s : State) (m a : Nat) (bs : List Byte) (debug : Bool) : State :=
  let v := s.acuCheck m 1 a debug
  if s.target a == .none then s.denyNow m 1 a bs.length 0xFF debug
  else if v.allow then s.performWrite m a bs
  else s.denyNow m 1 a bs.length v.region debug

/-- A store to a WRITE_BACK region: into the line, which faults precisely when it was filled without the WRITE permission (R497). -/
def State.storeCached (s : State) (m a : Nat) (bs : List Byte) (ecc : Nat) : State :=
  if s.target a == .none then s.denyNow m 1 a bs.length 0xFF false
  else
    let s := (s.snoop m (a / 64) true).fillLine m a ecc false
    match (s.acu m).cache.find? fun l => l.line == a / 64 with
    | some l =>
      if l.writable then
        s.setCache m fun ls => ls.map fun l => if l.line == a / 64 then { l with dirty := true, bytes := l.store (a % 64) bs } else l
      else s.denyNow m 1 a bs.length (s.acuCheck m 1 a false).region false
    | none => s

/-- A read or an instruction fetch, checked before it completes. -/
def State.readNow (s : State) (m k a len ecc : Nat) (debug : Bool) : State :=
  let v := s.acuCheck m k a debug
  if s.target a == .none then s.denyNow m k a len 0xFF debug
  else if v.allow then
    let s := s.snoop m (a / 64) false
    if coreMaster m && k == 0 && 0 < v.cache then
      let s := s.fillLine m a ecc debug
      match (s.acu m).cache.find? fun l => l.line == a / 64 with
      | some l => s.emit (.memData m (slice (a % 64) len l.bytes))
      | none => s
    else
      let (bs, s) := s.fetchBytes a len ecc
      s.emit (.memData m bs)
  else s.denyNow m k a len v.region debug

/-- Whether a buffered store touches a range of addresses. -/
def BufStore.meets (e : BufStore) (a n : Nat) : Bool := e.addr < a + n && a < e.addr + e.bytes.length

/-- A core is halted in debug mode (R503). -/
def State.masterHalted (s : State) (m : Nat) : Bool :=
  if m == 0 then s.pins.mgtHalted else m ≤ 8 && s.pins.halted.getLsbD (m - 1)

/-- An access of the instance that a service core runs, which the PMP checks (R381): whether it faults there. -/
def State.pmpFault (s : State) (m k a len : Nat) : Option Nat :=
  if 1 ≤ m && m ≤ 8 then
    match s.inst (s.core (m - 1)).cur with
    | some x => if s.pmpAdmits x k a len then none else some x.id
    | none => none
  else none

/-- A master's access by its kind: 0 read, 1 write, 2 fetch. -/
def State.access (s : State) (m k a len : Nat) (bs : List Byte) (debug : Bool) (ecc : Nat) : State :=
  if k == 1 then
    let (cache, relaxed) := s.orderAt m a
    if coreMaster m && !debug && cache == 2 then s.storeCached m a bs ecc
    else if coreMaster m && !debug && relaxed then s.bufferStore m a bs
    else s.writeNow m a bs debug
  else
    let s := if (s.acu m).buffer.any fun e => e.meets a len then s.drainAll m else s
    s.readNow m k a len ecc debug

/-- Waits for a bank held by another master are counted (R365); M9 has port A of SB0 and SB1 for itself (R366). -/
def State.waited (s : State) (m a n : Nat) : State :=
  let dual := sbBase ≤ a && a < sbBase + 0x40000
  if (s.target a == .mb || s.target a == .sb) && !(dual && m == 9) then
    { s with mem := { s.mem with conflicts := put s.mem.conflicts m (satAdd 32 (nth s.mem.conflicts m 0) (min n 15)) } }
  else s

/-- Two writes met on a dual-port word: port B's is discarded and the collision counted, with EV133 once for the tick (R366). -/
def State.collided (s : State) : State :=
  { s with mem := { s.mem with collisions := satAdd 32 s.mem.collisions 1, collNow := s.mem.collNow + 1 } }

end Sys2Proof.Machine
end

