-- ==== Sys2Proof/Machine/Debug.lean ====
section
/-! DEFINITION. Debug commands and the JTAG port (R503, R557, R578). -/

namespace Sys2Proof.Machine

/-! ### M14's accesses (R503, R557) -/

/-- Debug mode of cores is permitted: by the life-cycle state, and by CORE_DEBUG (Table 19.1, Table 19.10). -/
def State.debugPermitted (s : State) : Bool := openLc s.lifecycle && s.cv Fld.CORE_DEBUG == 1

/-- The largest size of 1 to 64 bytes, a power of 2, to which an address is aligned and that does not pass the end. -/
def pieceSize (a n : Nat) : Nat := ([64, 32, 16, 8, 4, 2].find? fun k => a % k == 0 && k ≤ n).getD 1

/-- A range split into accesses in ascending order (R557): address and size. -/
def piecesOf : Nat → Nat → Nat → List (Nat × Nat)
  | 0, _, _ => []
  | fuel + 1, a, n => if n == 0 then [] else (a, pieceSize a n) :: piecesOf fuel (a + pieceSize a n) (n - pieceSize a n)

/-- What a range of debug accesses has come to: accesses made and denied, the first denied address, the bytes read. -/
structure DebugRun where
  st     : State
  made   : Nat
  denied : Nat
  first  : Nat
  data   : List Byte

/-- One debug access of M14, decided with the debug flag: `bs` to write, none to read (R496, R503). -/
def DebugRun.step (r : DebugRun) (a n : Nat) (bs : Option (List Byte)) : DebugRun :=
  let s := r.st
  let k := if bs.isSome then 1 else 0
  let v := s.acuCheck 14 k a true
  let hole := s.target a == .none
  if hole || !v.allow then
    let s := s.deny 14 a k (if hole then 0xFF else v.region) true none (s.time.tick.setWidth 32) s.time.slot
    { st := { s with pins := { s.pins with sticky := true } }, made := r.made + 1, denied := r.denied + 1
      first := if r.denied == 0 then a else r.first, data := r.data ++ (if bs.isSome then [] else zeros n) }
  else
    match bs with
    | some w => { r with st := s.performWrite 14 a w, made := r.made + 1 }
    | none =>
      let (d, s) := s.fetchBytes a n 0
      { r with st := s, made := r.made + 1, data := r.data ++ d }

/-- A range read or written by M14. -/
def State.debugRange (s : State) (a n : Nat) (bs : Option (List Byte)) : DebugRun :=
  (piecesOf n a n).foldl (fun (r : DebugRun) p => r.step p.1 p.2 (bs.map fun b => slice (p.1 - a) p.2 b)) ⟨s, 0, 0, 0, []⟩

/-- The reply of a debug command: OK, OK_PARTIAL, or LOCKED with every access denied, the denials standing in every case. -/
def DebugRun.answer (r : DebugRun) : Ans :=
  if r.denied == r.made then { st := r.st, rc := .locked, failSt := some r.st }
  else
    { st := r.st, rc := if r.denied == 0 then .ok else .okPartial
      data := leBytes 2 r.made ++ leBytes 2 r.denied ++ leBytes 8 r.first ++ r.data }

/-! ### Commands (Table 22.5) -/

def execDbgShow (rq : Req) (s : State) : Out :=
  command Cmd.dbgShow 1 rq s fun _ s =>
    let data := leBytes 1 (b2n (openLc s.lifecycle)) ++ leBytes 1 (s.cv Fld.CORE_DEBUG) ++ leBytes 1 s.pins.halted.toNat ++ zeros 1
      ++ leBytes 4 (s.acu 14).denials ++ leBytes 1 (b2n s.pins.sticky) ++ zeros 3
    .show { s with pins := { s.pins with sticky := s.pins.sticky && !bitAt (arg rq 0 1) 0 } } data

/-- dbg.mem.read (R557). -/
def execDbgMemRead (rq : Req) (s : State) : Out :=
  command Cmd.dbgMemRead 12 rq s fun _ s =>
    let a := arg rq 0 8 % 2 ^ 40
    let n := arg rq 8 2
    if 2 ^ 40 < a + n then .fail s .badLength
    else if n == 0 || 1000 < n then .fail s .badState
    else (s.debugRange a n none).answer

/-- dbg.mem.write (R557). -/
def execDbgMemWrite (rq : Req) (s : State) : Out :=
  command Cmd.dbgMemWrite 12 rq s fun _ s =>
    let a := arg rq 0 8 % 2 ^ 40
    let n := arg rq 8 2
    if 2 ^ 40 < a + n || rq.payload.length < 12 + n then .fail s .badLength
    else if n == 0 || 1000 < n then .fail s .badState
    else (s.debugRange a n (some (slice 12 n rq.payload))).answer

/-! ### The JTAG port (R578) -/

/-- The instruction register takes an instruction; boundary-scan cells drive the pins under EXTEST alone. -/
def State.jtag (s : State) (ir : BitVec 8) : State := { s with pins := { s.pins with ir := ir, extest := ir == 0 } }

/-- JTAG_IDCODE (R578): 0x1840_0A1D. -/
def execJtagIdcode (s : State) : Out := runAon s fun s => (s.jtag 0x01).emit (.bytes .jtag (leBytes 4 0x18400A1D))

/-- JTAG_EXTEST (R578): the pins' values shift out, and the cells shifted in drive them. -/
def execJtagExtest (sampled update : List Bool) (s : State) : Out :=
  runAon s fun s =>
    let s := (s.jtag 0x00).emit (.scan sampled)
    ({ s with pins := { s.pins with bscan := update } } : State).emit (.boundary update)

/-- JTAG_SAMPLE_PRELOAD (R578): the pins' values shift out, and the cells are loaded. -/
def execJtagSamplePreload (sampled preload : List Bool) (s : State) : Out :=
  runAon s fun s =>
    let s := (s.jtag 0x02).emit (.scan sampled)
    { s with pins := { s.pins with bscan := preload } }

/-- A core halts or goes on: 0 the management pair, 1 to 8 the service cores; a halt is ignored where debug mode is not permitted (R503). -/
def State.haltCore (s : State) (core : Nat) (on : Bool) : State :=
  if on && !s.debugPermitted then s
  else if core == 0 then { s with pins := { s.pins with mgtHalted := on } }
  else if core ≤ 8 then
    let bit : BitVec 8 := BitVec.ofNat 8 (2 ^ (core - 1))
    { s with pins := { s.pins with halted := if on then s.pins.halted ||| bit else s.pins.halted &&& ~~~bit } }
  else s

/-- JTAG_DBG_AP (R503): 0 read and 1 write as M14, 2 halt and 3 resume of a core. -/
def execJtagDbgAp (op addr len : Nat) (data : List Byte) (core : Nat) (s : State) : Out :=
  runAon s fun s =>
    let s := s.jtag 0x21
    let formed := [1, 2, 4, 8, 16, 32, 64].contains len && addr % len == 0 && addr < 2 ^ 40
    match op with
    | 0 =>
      if formed then
        let r := s.debugRange addr len none
        r.st.emit (.memData 14 r.data)
      else s
    | 1 => if formed then (s.debugRange addr len (some (fitBytes len data))).st else s
    | 2 => s.haltCore core true
    | 3 => s.haltCore core false
    | _ => s

/-- JTAG_BYPASS (R578). -/
def execJtagBypass (s : State) : Out := runAon s fun s => s.jtag 0xFF

end Sys2Proof.Machine
end

