-- ==== Sys2Proof/Machine/Display.lean ====
section
/-! DEFINITION. The display commands (spec/09). -/

namespace Sys2Proof.Machine

/-! ### Capture end -/

/-- SINK_LINK_TRAINING (R240): a GPU trains within the advertisement. -/
def execSinkLinkTraining (dpx rate lanes : Nat) (s : State) : Out :=
  run s fun s =>
    if s.isSink dpx && 1 ≤ rate && rate ≤ s.maxRateCode && (lanes == 1 || lanes == 2 || lanes == 4) then
      (s.setDpx dpx fun d => { d with rate := rate, lanes := lanes }).dispEv 65 dpx 0 (256 * rate + 4096 * lanes)
    else s

/-- A frame of the capture end is sent: (f × k) mod 8 < k (R256). -/
def sendsFrame (k f : Nat) : Bool := f * k % 8 < k

/-- EV074 while k is below 8, once per 32 ticks (R256). -/
def State.skipEvent (s : State) (x : StreamSt) : State :=
  let due := match x.skipTick with
    | none => true
    | some t => 32 ≤ tickDiff s.time.tick t
  if x.k < 8 && due then
    (s.setStream x.id fun x => { x with skipTick := some s.time.tick }).dispEv 74 x.dpx x.id (256 * x.k)
  else s

/-- A line's pixel chunks: the fewest that hold it, each full except the last (R243). -/
def lineOf (line stamp : Nat) (pixels : List Byte) : List Chunk :=
  (upTo (ceilDiv pixels.length 4088)).map fun i => ⟨0, line, i, stamp, slice (4088 * i) 4088 pixels⟩

/-- The bytes of a frame descriptor (Table 9.3), multi-byte fields most significant byte first (R5). -/
def descBytes (d : FrameDesc) : List Byte :=
  beBytes 4 d.frame ++ beBytes 2 d.htotal ++ beBytes 2 d.hactive ++ beBytes 2 d.hstart ++ beBytes 2 d.hsync ++ beBytes 2 d.vtotal
    ++ beBytes 2 d.vactive ++ beBytes 2 d.vstart ++ beBytes 2 d.vsync ++ beBytes 2 d.misc
    ++ leBytes 1 (b2n d.dsc + 2 * b2n d.adaptive) ++ zeros 1 ++ beBytes 8 d.clock ++ beBytes 2 (if d.dsc then d.bpp else 0) ++ zeros 2

/-- A frame descriptor read from a chunk (Table 9.3). -/
def parseDesc (b : List Byte) : FrameDesc :=
  let at' := fun (off n : Nat) => beNat (slice off n b)
  { frame := at' 0 4, htotal := at' 4 2, hactive := at' 6 2, hstart := at' 8 2, hsync := at' 10 2, vtotal := at' 12 2,
    vactive := at' 14 2, vstart := at' 16 2, vsync := at' 18 2, misc := at' 20 2, dsc := bitAt (at' 22 1) 0,
    adaptive := bitAt (at' 22 1) 1, clock := at' 24 8, bpp := at' 32 2 }

/-- A frame begins at the capture end: numbered, its descriptor kept, k raised after 64 frames without a SKIP_REQ, and the descriptor
sent with the frame-start stamp unless the frame is skipped (R243, R256). -/
def State.captureFrame (s : State) (x : StreamSt) (d : FrameDesc) (stamp : Nat) : State :=
  let k := if x.k < 8 && 63 ≤ x.cleanFrames then x.k + 1 else x.k
  let d := { d with frame := (x.frameNo + 1) % 2 ^ 32 }
  let sends := sendsFrame k d.frame
  let s := s.setStream x.id fun x => { x with
    desc := some d, frameNo := d.frame, k := k, cleanFrames := if x.k != k then 0 else x.cleanFrames + 1,
    skipped := if sends then x.skipped else satAdd 32 x.skipped 1 }
  let s := s.skipEvent { x with k := k }
  if sends then s.sendChunk x ⟨1, 0x3FFF, 0, stamp, descBytes d⟩ else s

/-- CAPTURE_LINE (R243): a SINK end captures a line of a capture stream, with the frame's descriptor and frame-start stamp when it is the
first of a frame, the SDPs other than audio and the audio SDPs that came before it. Nothing is sent for a frame that is skipped or while
the path is suspended (R254, R256). -/
def execCaptureLine (dpx index : Nat) (desc : Option (FrameDesc × Nat)) (line stamp : Nat) (pixels : List Byte)
    (sdps audio : List (List Byte)) (s : State) : Out :=
  run s fun s =>
    if !s.isSink dpx then s
    else
      let s := match desc with
        | some (d, _) => s.setDpx dpx fun x => { x with msa := put x.msa index (some d) }
        | none => s
      match s.disp.streams.find? fun x => x.capture && x.dpx == dpx && x.index == index && x.state != 0 with
      | none => s
      | some x =>
        if s.capSuspended x then s
        else
          let s := match desc with
            | some (d, t) => s.captureFrame x d t
            | none => s
          let frame := ((s.stream x.id).map (·.frameNo)).getD 0
          let s := audio.foldl (fun s a =>
            if x.audio then s.emit (.audioSdp x.id (dataCells (s.labelOf (x.audioPath.getD 0)) 5 a)) else s) s
          if sendsFrame (((s.stream x.id).map (·.k)).getD 8) frame then
            let s := sdps.foldl (fun s d => s.sendChunk x ⟨2, if desc.isSome then 0x3FFF else line, 0, s.nowStamp, d⟩) s
            (lineOf line stamp pixels).foldl (fun s c => s.sendChunk x c) s
          else s

/-! ### Panel -/

/-- The panel's blocks as read: each changed one goes to the SINK end as MIRROR, and EV076 when EDID or DisplayID changes
(R253). -/
def State.readBlocks (s : State) (k : Nat) (blocks : List MirrorBlk) : State :=
  let changed := blocks.filter fun b => (s.dpx k).block b.addr != some b.data
  let s := changed.foldl (fun s b => (s.setDpx k fun d => d.setBlock b.addr b.data).sendControl k 3 b.addr 0 0 b.data) s
  s.raiseIf (changed.any fun b => edidBase ≤ b.addr) 76 k

/-- The holds of a DPX end with the panel's HPD (R260). -/
def State.unplugHolds (s : State) (k : Nat) : State :=
  (s.disp.streams.filter fun x => !x.capture && x.dpx == k && x.state == 3).foldl (fun s x =>
    (if x.inPort == noPath then s.dropStream x.id else s.setStream x.id fun x => { x with state := 1 }).dispEv 73 k x.id (3 * 256)) s

/-- PANEL_HPD_CHANGE (R240, R253, R254): the panel's HPD rises (1), falls (0) or pulses (2). `panel` is its highest rate code, its
refresh bounds in mHz and the LTTPRs found; `blocks` its capability blocks, EDID and DisplayID as read; `works` the
configurations at which training succeeds. A DPX that a multiplexer takes has only the HPD that the partner's messages present (R24,
R430). -/
def execPanelHpdChange (dpx level panelMax lo hi lttprs : Nat) (blocks : List (Nat × List Byte)) (works : List (Nat × Nat)) (s : State) :
    Out :=
  run s fun s =>
    let told := (s.dpxTaken dpx).isNone || (s.dpx dpx).presented == some level
    if !s.isSource dpx || !told then s
    else
      let s := s.setDpx dpx fun d => { d with presented := none, works := if level == 0 then d.works else works }
      let bs := blocks.map fun b => (⟨b.1, b.2⟩ : MirrorBlk)
      if level == 1 then
        let s := (s.setDpx dpx fun d => { d with
          hpd := true, hpdFell := none, panelMax := panelMax, panelLo := lo, panelHi := hi, lttprs := min 2 lttprs }).dispEv 64 dpx 0 256
        ((s.readBlocks dpx bs).sendControl dpx 4 0 1 0 []).trainPanel dpx
      else if level == 0 then
        let s := (s.setDpx dpx fun d => { d with hpd := false, hpdFell := some s.time.tick, rate := 0, lanes := 0 }).dispEv 64 dpx 0 0
        s.unplugHolds dpx
      else ((s.readBlocks dpx bs).sendControl dpx 4 0 3 0 []).trainPanel dpx

/-- PANEL_HPD_LOSS_TIMEOUT (R242, R254): HPD low for longer than 2 ms: streams of the DPX close with cause 3; a SOURCE end tells
the SINK end, which drives HPD low toward its source. -/
def execPanelHpdLossTimeout (dpx : Nat) (s : State) : Out :=
  run s fun s =>
    if !((s.dpx dpx).hpdFell.any fun t => s.passed t (msTicks 2)) then s
    else
    let s := s.setDpx dpx fun d => { d with hpdFell := none }
    let s := if s.isSource dpx then s.sendControl dpx 4 0 0 0 [] else s
    let s := (s.disp.streams.filter fun x => x.dpx == dpx).foldl (fun s x => s.closeStream x 3) s
    if s.isSink dpx then s.hpdDown dpx else s

/-! ### Regenerating end -/

/-- The span of the 16-bit tick count in 1/64 ns, and a place in it. -/
def stampSpan : Nat := 65536 * 2000000
def wrapStamp (t : Int) : Nat := (t % (stampSpan : Int)).toNat

/-- When a stamp falls due at this end: D later, and moved with the frame (R245, R248). -/
def StreamSt.dueAt (x : StreamSt) (stamp : Nat) : Nat := wrapStamp ((stamp : Int) + x.delay * 64 + x.shift)

/-- A time lies before now; a time lies after the slot that is now. -/
def State.isPast (s : State) (t : Nat) : Bool :=
  let d := wrapStamp ((s.nowStamp : Int) - t)
  0 < d && d < stampSpan / 2
def State.isAhead (s : State) (t : Nat) : Bool :=
  let d := wrapStamp ((t : Int) - s.nowStamp)
  8000 ≤ d && d < stampSpan / 2

/-- A line time of a mode, and pixel clocks in a time, both with times in 1/64 ns. -/
def lineTime (d : FrameDesc) : Nat := d.htotal * 64000000000000 / max 1 d.clock
def clocksIn (d : FrameDesc) (t : Int) : Int := t * d.clock / 64000000000000

/-- Bytes held for a stream. -/
def heldBytes (x : StreamSt) : Nat := total (x.chunks.map fun c => c.data.length + 8)

/-- CHUNK_RECEIVE (R250): a chunk, or an audio SDP, arrives at the regenerating end; a PIXELS chunk whose line has started is late and is
discarded. -/
def execChunkReceive (stream : Nat) (audio : Bool) (bytes : List Byte) (s : State) : Out :=
  run s fun s =>
    match s.stream stream with
    | none => s
    | some x =>
      let c := parseChunk bytes
      if x.capture then s
      else if audio then s.setStream stream fun x => { x with audioIn := x.audioIn ++ [bytes] }
      else if 3 ≤ c.typ then s
      else
        s.setStream stream fun x =>
          let x := { x with lastChunk := s.time.tick }
          if c.typ == 0 && s.isPast (x.dueAt c.stamp) then { x with late := satAdd 32 x.late 1 }
          else
            let x := { x with chunks := x.chunks ++ [c] }
            { x with highWater := max x.highWater (heldBytes x) }

/-! ### Frame store (R257, R374) -/

/-- Where a stream's frame store keeps the bytes of a line: buffer, line and offset (Table 14.3). -/
def State.storeAt (s : State) (x : StreamSt) (buf line off : Nat) : Option Nat :=
  match s.mem.stores.find? fun e => e.1 == x.id, x.desc with
  | some (_, o, n), some d =>
    let a := line * lineBytes d + off
    if a < n / 2 * 2 * mib then some (lpddrBase + s.holdBase + 128 * mib + 2 * mib * o + buf * (n / 2) * 2 * mib + a) else none
  | _, _ => none

/-- Received bytes written into the buffer that does not hold the last complete frame. -/
def State.keepBytes (s : State) (x : StreamSt) (line off : Nat) (bytes : List Byte) : State :=
  match s.storeAt x (1 - x.storeBuf) line off with
  | some a => if s.cv Fld.HOLD_ENABLE == 1 && s.mem.lpddr == .active then
      { s with mem := { s.mem with cells := memWrites s.mem.cells a bytes } } else s
  | none => s

/-- Bytes of the last complete frame, where the store holds one. -/
def State.keptBytes (s : State) (x : StreamSt) (line off n : Nat) : Option (List Byte) :=
  if x.stored && s.cv Fld.HOLD_ENABLE == 1 then (s.storeAt x x.storeBuf line off).map fun a => memReads s.mem.cells a n else none

/-! ### Frame starts -/

/-- The frame before is accounted (R256, R257): complete without concealment, it becomes the last complete frame; more than 5 % of
its chunks concealed in two frames in a row asks for one frame fewer of eight, and 64 frames without concealment mean that the capture
end sends one more. -/
def State.closeFrame (s : State) (x : StreamSt) : State :=
  if x.frameChunks == 0 then s
  else
    let clean := x.frameConc == 0
    let bad := x.frameChunks < 20 * x.frameConc
    let store := s.cv Fld.HOLD_ENABLE == 1 && s.hasStore x.id
    let badFrames := if bad then x.badFrames + 1 else 0
    let ask := 2 ≤ badFrames && s.cv Fld.SKIP_ENABLE == 1 && store && 1 < x.k
    let cleanFrames := if clean then x.cleanFrames + 1 else 0
    let more := x.k < 8 && 64 ≤ cleanFrames
    let s := s.setStream x.id fun x => { x with
      stored := x.stored || (clean && store), storeBuf := if clean && store then 1 - x.storeBuf else x.storeBuf,
      goodFrames := if clean then x.goodFrames + 1 else 0, badFrames := if ask then 0 else badFrames,
      k := if ask then x.k - 1 else if more then x.k + 1 else x.k, cleanFrames := if more || ask then 0 else cleanFrames,
      frameChunks := 0, frameConc := 0 }
    if ask then s.sendControl x.dpx 5 0 (x.k - 1) x.index [] else s

/-- A frame's descriptor comes into force (R244): the new MSA where the timing changes, clock recovery restarted where CLOCK differs by more
than 500 ppm, and the frame store as the frames now need it (R374). A stamp that jumps by more than 50 ns against the mode's timing is a
step at the capture end (R249; DEDUCED, log entry 22). -/
def State.applyDesc (s : State) (x : StreamSt) (d : FrameDesc) (stamp : Nat) : State :=
  let changed := match x.desc with
    | none => false
    | some o => o.htotal != d.htotal || o.hactive != d.hactive || o.vactive != d.vactive || o.clock != d.clock || o.misc != d.misc
        || o.dsc != d.dsc
  let far := match x.desc with
    | none => true
    | some o => o.clock * 500 < ((o.clock : Int) - (d.clock : Int)).natAbs * 1000000
  let gap := (x.origin.map fun o => wrapStamp ((stamp : Int) - o)).getD 0
  let jump : Int := match x.desc with
    | some o => if x.origin.isSome && !changed && !d.adaptive then (gap : Int) - o.vtotal * lineTime o else 0
    | none => 0
  let jump := if 3200 < jump.natAbs && (x.frameNo + 1) % 2 ^ 32 == d.frame then jump else 0
  let s := s.setStream x.id fun x => { x with
    desc := some d, frameNo := d.frame, away := false, origin := some stamp, interval := gap, step := x.step + jump
    locked := x.locked && !far, lockLines := if far then 0 else x.lockLines, dco := if far then 0 else x.dco
    badLines := if far then 0 else x.badLines }
  let s := if changed then (s.raise 69 (x.dpx + 4 * x.id)).emit (.panelMsa x.dpx x.id d) else s
  if changed || x.desc.isNone then
    let (new, s) := s.frameStore x.id (lineBytes d * d.vactive)
    if new then s.setStream x.id fun x => { x with stored := false } else s
  else s

/-- A frame starts without a descriptor (R244, R256): the last one goes on, VTOTAL taken from the frame-start stamps; a frame that the capture
end does not send is shown from the store. -/
def State.noDesc (s : State) (x : StreamSt) : State :=
  let f := (x.frameNo + 1) % 2 ^ 32
  let away := x.k < 8 && !(sendsFrame x.k f)
  s.setStream x.id fun x => { x with
    frameNo := f, away := away, skipped := if away then satAdd 32 x.skipped 1 else x.skipped
    origin := x.origin.map fun o => wrapStamp ((o : Int) + x.interval)
    desc := x.desc.map fun d => if x.interval == 0 then d else { d with vtotal := (2 * x.interval + lineTime d) / (2 * max 1 (lineTime d)) } }

/-- The descriptor of the frame that starts: the FRAME chunk held whose start is due, or the last descriptor (R244). -/
def State.newDesc (s : State) (x : StreamSt) : State :=
  match x.chunks.find? fun c => c.typ == 1 && !s.isAhead (wrapStamp ((c.stamp : Int) + x.delay * 64)) with
  | some c => (s.setStream x.id fun x => { x with chunks := x.chunks.erase c }).applyDesc x (parseDesc c.data) c.stamp
  | none => s.noDesc x

/-- The SDPs marked for a line, or for the frame that starts (0x3FFF), go to the panel (R244). -/
def State.sendSdps (s : State) (x : StreamSt) (line : Nat) : State :=
  let mine := x.chunks.filter fun c => c.typ == 2 && c.line == line
  let s := s.setStream x.id fun x => { x with chunks := x.chunks.filter fun c => !(c.typ == 2 && c.line == line) }
  mine.foldl (fun s c => s.emit (.panelSdp x.dpx x.id c.data)) s

/-- Where the frame starts, and the blank before it (R245, R248, R249): at its stamp + D; with ADAPTIVE set within the panel's refresh range,
the blank stretched by whole lines and pixel clocks; a timebase step of at most a line time is absorbed in pixel clocks, and a longer one
restarts clock recovery on the held frequency. -/
def State.placeFrame (s : State) (x : StreamSt) : State :=
  match x.desc, x.origin with
  | some d, some o =>
    let want := wrapStamp ((o : Int) + x.delay * 64)
    let fits := d.adaptive && 0 < (s.dpx x.dpx).panelHi && 0 < (s.dpx x.dpx).panelLo
    let gap := (x.start.map fun t => wrapStamp ((want : Int) - t)).getD 0
    let held := if fits && x.start.isSome then
        clampTo (64000000000000 / (s.dpx x.dpx).panelHi) (64000000000000 / (s.dpx x.dpx).panelLo) gap else gap
    let shift : Int := (held : Int) - gap
    let start := wrapStamp ((want : Int) + shift)
    let long := lineTime d < x.step.natAbs
    let lines := if fits then held / max 1 (lineTime d) else d.vtotal
    let clocks := if fits then clocksIn d ((held % max 1 (lineTime d) : Nat) : Int) else if long then 0 else clocksIn d x.step
    let s := s.setStream x.id fun x => { x with start := some start, shift := shift, step := 0 }
    let s := if long then s.setStream x.id fun x => { x with
        locked := false, lockLines := 0, badLines := 0, goodFrames := 0
        state := if x.state == 2 then (if x.stored then 3 else 1) else x.state, holdAt := s.time.tick } else s
    s.emit (.panelFrame x.dpx x.id start lines clocks)
  | _, _ => s

/-- The path of a regenerating stream is open: its entry stands and is not suspended. -/
def State.regenOpen (s : State) (x : StreamSt) : Bool :=
  if x.inPort == 2 then true else x.inPort < 2 && ((s.link x.inPort).entry x.inLabel).any fun e => !e.suspended

/-- The output of the frame that starts: hold entered or left, live output, or the idle pattern (R247, R258, R260). -/
def State.frameOutput (s : State) (x : StreamSt) : State :=
  match x.holdNext with
  | some cause =>
    if x.stored && s.cv Fld.HOLD_ENABLE == 1 then
      (s.setStream x.id fun x => { x with state := 3, holdNext := none, goodFrames := 0, holdAt := s.time.tick }).dispEv 72 x.dpx x.id
        (256 * cause)
    else s.setStream x.id fun x => { x with state := 1, holdNext := none }
  | none =>
    if x.state == 3 then
      if 2 ≤ x.goodFrames && x.locked && s.regenOpen x then
        ((s.setStream x.id fun x => { x with state := 2 }).dispEv 73 x.dpx x.id 0).dispEv 67 x.dpx x.id 0
      else s
    else if x.state == 1 && x.locked && x.desc.isSome then
      (s.setStream x.id fun x => { x with state := 2 }).dispEv 67 x.dpx x.id 0
    else s

/-- One step of a frame start on the stream as it now is. -/
def State.onStream (s : State) (id : Nat) (f : State → StreamSt → State) : State :=
  match s.stream id with
  | some x => f s x
  | none => s

/-- FRAME_START (R244, R248, R249, R256 to R260): the frame before is accounted, the frame's descriptor and SDPs applied, its start placed,
and the output decided. -/
def execFrameStart (stream : Nat) (s : State) : Out :=
  run s fun s =>
    match s.stream stream with
    | none => s
    | some x =>
      if x.capture then s
      else
        [State.closeFrame, State.newDesc, fun s x => s.sendSdps x 0x3FFF, State.placeFrame, State.frameOutput, State.skipEvent].foldl
          (fun s f => s.onStream stream f) s

/-! ### Lines -/

/-- The DCO's range: 500 ppm in steps of 2^-32 of CLOCK (R247). -/
def dcoRange : Int := 2147483

/-- The clock servo on one due line (R247): `err` its error in 1/64 ns, `need` the offset it would take. The DCO holds its frequency while a
step waits to be absorbed (R249). -/
def State.servo (s : State) (x : StreamSt) (err need : Int) : State :=
  let bad := if 3200 < err.natAbs then x.badLines + 1 else 0
  let lost := dcoRange < need.natAbs || 2 ≤ bad
  let lines := if err.natAbs ≤ 128 then x.lockLines + 1 else 0
  if x.step != 0 then s
  else if lost && x.locked then
    (s.setStream x.id fun x => { x with
      locked := false, lockLines := 0, badLines := 0, dco := 0, goodFrames := 0, holdAt := s.time.tick
      state := if x.state == 2 then (if x.stored then 3 else 1) else x.state }).dispEv 70 x.dpx x.id 0
  else
    s.setStream x.id fun x => { x with
      lockLines := min 256 lines, badLines := bad, locked := x.locked || 256 ≤ lines,
      dco := max (-dcoRange) (min dcoRange need) }

/-- EV071, at most once per 32 ticks, with the chunks concealed since the last (R265). -/
def State.concealEvent (s : State) (id : Nat) : State :=
  match s.stream id with
  | none => s
  | some x =>
    let due := match x.concTick with
      | none => true
      | some t => 32 ≤ tickDiff s.time.tick t
    if 0 < x.concEv && due then
      (s.setStream id fun x => { x with concEv := 0, concTick := some s.time.tick }).dispEv 71 x.dpx id (65536 * min 65535 x.concEv)
    else s

/-- One span of a line: its chunk's bytes, or the frame store's, or those of the line above, or of the last first line in line 0 (R250;
DEDUCED, log entry 22). -/
def State.spanOf (s : State) (x : StreamSt) (line total i : Nat) (mine : List Chunk) : List Byte :=
  let n := min 4088 (total - 4088 * i)
  match mine.find? fun c => c.chunk == i with
  | some c => fitBytes n c.data
  | none =>
    (s.keptBytes x line (4088 * i) n).getD (fitBytes n (slice (4088 * i) n (if line == 0 then x.firstLine else x.above)))

/-- The overlay of a DPX covers a line of a frame that is no DSC stream's (R259). -/
def State.overlaid (s : State) (x : StreamSt) (line : Nat) : Bool :=
  let (on, _, y, _, h, _) := (s.dpx x.dpx).overlay
  on && y ≤ line && line < y + h && !((x.desc.map (·.dsc)).getD false)

/-- Audio SDPs whose sample period falls due: those received, and silence for those that are missing (R250). -/
def State.playAudio (s : State) (x : StreamSt) (n : Nat) : State :=
  let s := (upTo n).foldl (fun s i => s.emit (.panelAudio x.dpx x.id (nth x.audioIn i []))) s
  s.setStream x.id fun x => { x with audioIn := x.audioIn.drop n }

/-- A due line of a stream with a descriptor: its chunks are taken into the frame store, and sent; missing ones are concealed and counted. A
held stream, and a frame that the capture end has not sent, show the stored frame. -/
def State.showLine (s : State) (x : StreamSt) (d : FrameDesc) (line : Nat) (mine : List Chunk) : State :=
  let n := lineChunks d
  let miss := n - min n mine.length
  let kept := s.keptBytes x line 0 (lineBytes d)
  let sent := (upTo n).flatMap fun i => s.spanOf x line (lineBytes d) i mine
  let s := mine.foldl (fun s c => s.keepBytes x line (4088 * c.chunk) c.data) s
  let count := fun (s : State) => s.setStream x.id fun x => { x with frameChunks := x.frameChunks + n, frameConc := x.frameConc + miss }
  if x.state == 3 then (count s).emit (.panelLine x.dpx x.id line 2 (kept.getD []) (s.overlaid x line))
  else if x.state == 1 then (if x.away then s else count s).emit (.panelLine x.dpx x.id line 3 [] false)
  else if x.away then s.emit (.panelLine x.dpx x.id line 2 (kept.getD sent) false)
  else
    let s := (count s).setStream x.id fun x => { x with
      concealed := satAdd 64 x.concealed miss, concEv := x.concEv + miss, above := sent
      firstLine := if line == 0 then sent else x.firstLine }
    (s.concealEvent x.id).emit (.panelLine x.dpx x.id line (if miss == 0 then 0 else 1) sent false)

/-- LINE_DUE (R245, R247, R250, R258): a line's start falls due, with `audio` audio SDPs whose sample periods have. A line whose chunks are
held for a later time is not due yet; the servo takes the error of a line that has its stamp. -/
def execLineDue (stream line : Nat) (err need : Int) (audio : Nat) (s : State) : Out :=
  run s fun s =>
    match s.stream stream with
    | none => s
    | some x =>
      if x.capture then s
      else
        match x.desc with
        | none => s.emit (.panelLine x.dpx stream line 3 [] false)
        | some d =>
          let mine := x.chunks.filter fun c => c.typ == 0 && c.line == line
          if mine.any fun c => s.isAhead (x.dueAt c.stamp) then s
          else
            let s := (s.sendSdps x line).playAudio x audio
            let s := s.setStream stream fun x => { x with chunks := x.chunks.filter fun c => !(c.typ == 0 && c.line == line) }
            let s := if mine.isEmpty then s else s.servo x err need
            s.onStream stream fun s x => s.showLine x d line mine

/-! ### AUX and control messages -/

/-- Bytes of a mirrored block from an offset, zeros where none is mirrored yet. -/
def State.mirrored (s : State) (k addr off len : Nat) : List Byte :=
  fitBytes len (((((s.dpx k).block addr).getD []).drop off).take len)

/-- A byte of the panel's DPCD as mirrored. -/
def State.mirrorByte (s : State) (k addr : Nat) : Byte :=
  match (s.dpx k).mirror.find? fun b => b.addr ≤ addr && addr < b.addr + b.data.length with
  | some b => nth b.data (addr - b.addr) 0
  | none => 0

/-- A byte of a SINK end's DPCD that Table 9.5 answers here: the advertisement of R239 and R240, what the mirror gives, no LTTPR; elsewhere,
and in the bits not named here, what DisplayPort and not the spec gives (free values, log entry 3). The addresses and codes are
DisplayPort's (PRESUMED, log entry 22). -/
def State.dpcdByte (s : State) (k addr : Nat) : Byte × State :=
  let (v, s) := s.draw
  let adaptive := s.cv Fld.ADAPTIVE_SYNC == 1
  let top := s.maxRateCode
  let a := if 0x2200 ≤ addr && addr ≤ 0x220F then addr - 0x2200 else addr
  if a == 1 then (0x1E, s)
  else if a == 2 then (BitVec.ofNat 8 (v % 8 * 32 + 4), s)
  else if a == 7 then
    let far := (s.mirrorByte k addr).getLsbD 6
    (BitVec.ofNat 8 (v % 64 + 64 * b2n (far && adaptive) + 128 * (v / 64 % 2)), s)
  else if addr == 0x2214 then (if adaptive then s.mirrorByte k addr else 0, s)
  else if addr == 0x2215 then (BitVec.ofNat 8 (b2n (5 ≤ top) + 2 * b2n (7 ≤ top) + 4 * b2n (6 ≤ top)), s)
  else if (0x60 ≤ addr && addr ≤ 0x6F) || (0x2000 ≤ addr && addr ≤ 0x200B) || (0x2200 ≤ addr && addr ≤ 0x22FF) then (s.mirrorByte k addr, s)
  else if 0xF0000 ≤ addr then (0, s)
  else (BitVec.ofNat 8 v, s)

def State.dpcdRead (s : State) (k addr len : Nat) : List Byte × State :=
  (upTo len).foldl (fun (acc : List Byte × State) i =>
    let (b, s) := acc.2.dpcdByte k (addr + i)
    (acc.1 ++ [b], s)) ([], s)

/-- An answer given to the GPU. -/
def State.auxSay (s : State) (k reply : Nat) (data : List Byte) : State := s.emit (.auxAnswer k reply data)

/-- A transaction forwarded to the panel, by a SINK end that is paired. One that is not posted is answered DEFER until AUX_REP arrives, and
then its answer (Table 9.5). -/
def State.auxForward (s : State) (k cmd addr vstream : Nat) (data : List Byte) (posted : Bool) : State :=
  let send := fun (s : State) => if s.paired k then s.sendControl k 1 (cmd * 268435456 + addr % 1048576) 0 vstream data else s
  if posted then (send s).auxSay k 0 []
  else
    match (s.dpx k).deferred with
    | some w =>
      if w.cmd == cmd && w.addr == addr then
        (match w.answer with
        | some (r, bs) => (s.setDpx k fun d => { d with deferred := none }).auxSay k r bs
        | none => s.auxSay k 3 [])
      else ((send s).setDpx k fun d => { d with deferred := some ⟨cmd, addr, s.time.tick, none⟩ }).auxSay k 3 []
    | none => ((send s).setDpx k fun d => { d with deferred := some ⟨cmd, addr, s.time.tick, none⟩ }).auxSay k 3 []

/-- An EDID or DisplayID access by I2C-over-AUX: a write sets the offset (0x50) or the segment (0x30), a read takes the mirror's
bytes from there (Table 9.5). -/
def State.auxEdid (s : State) (k addr len : Nat) (rd : Bool) (data : List Byte) : State :=
  if rd then
    let d := s.dpx k
    let block := 2 * d.i2cSeg + d.i2cOff / 128
    (s.setDpx k fun d => { d with i2cOff := (d.i2cOff + len) % 256 }).auxSay k 0 (s.mirrored k (edidBase + block) (d.i2cOff % 128) len)
  else if addr == 0x30 then (s.setDpx k fun d => { d with i2cSeg := leAt 0 1 data }).auxSay k 0 []
  else (s.setDpx k fun d => { d with i2cOff := leAt 0 1 data }).auxSay k 0 []

/-- A DPCD address that the SINK end answers itself (Table 9.5). -/
def dpcdLocal (addr : Nat) : Bool :=
  addr ≤ 0x2FF || addr == 0x600 || (0x1000 ≤ addr && addr ≤ 0x17FF) || (0x2000 ≤ addr && addr ≤ 0x200F)
    || (0x2200 ≤ addr && addr ≤ 0x22FF) || (0xF0000 ≤ addr && addr ≤ 0xF02FF)

/-- AUX_TRANSACTION (R251, Table 9.5): native command 8 write or 9 read, I2C 0 write or 1 read (bit 2 is MOT); `len` the bytes
asked. HDCP regions are those of DisplayPort, 0x68000 to 0x69FFF (PRESUMED, log entry 22). -/
def execAuxTransaction (dpx cmd addr len vstream : Nat) (data : List Byte) (s : State) : Out :=
  run s fun s =>
    if !s.isSink dpx then s
    else
      let native := 8 ≤ cmd
      let rd := cmd % 2 == 1
      if !native then
        if addr == 0x50 || addr == 0x30 then s.auxEdid dpx addr len rd data
        else s.auxForward dpx cmd addr vstream data false
      else if 0x68000 ≤ addr && addr ≤ 0x69FFF then s.auxSay dpx 1 []
      else if dpcdLocal addr then
        if rd then (let (b, s) := s.dpcdRead dpx addr len; s.auxSay dpx 0 b)
        else if addr == 0x600 then s.auxForward dpx cmd addr vstream data true
        else s.auxSay dpx 0 []
      else s.auxForward dpx cmd addr vstream data (!rd)

/-- An AUX transaction begun on a panel. -/
def State.auxPanel (s : State) (k cmd addr : Nat) (data : List Byte) (what : PanelAux) : State :=
  (s.setDpx k fun d => { d with auxOut := d.auxOut ++ [what] }).emit (.panelAux k cmd addr data)

/-- AUX_REQ (R251, R252): a forwarded transaction is performed on the panel's AUX channel, once for each CSEQ. -/
def execAuxReq (dpx cseq cmd addr vstream : Nat) (data : List Byte) (s : State) : Out :=
  run s fun s =>
    let (fresh, s) := s.gotControl dpx cseq
    if fresh && s.isSource dpx then
      s.auxPanel dpx cmd addr data ⟨addr, vstream, cmd == 8, none⟩
    else s

/-- PANEL_AUX_REPLY (R251, R264): the panel answers the oldest transaction out: AUX_REP to the SINK end unless that was a posted write, or
the completion of `disp.aux.xfer`. -/
def execPanelAuxReply (dpx reply : Nat) (rdata : List Byte) (s : State) : Out :=
  run s fun s =>
    match (s.dpx dpx).auxOut with
    | [] => s
    | x :: rest =>
      let s := s.setDpx dpx fun d => { d with auxOut := rest }
      match x.job with
      | some (via, h) => s.finishRc via h .ok (leBytes 1 reply ++ zeros 3 ++ rdata.take 16)
      | none => if x.posted then s else s.sendControl dpx 2 x.addr reply x.vstream rdata

/-- AUX_REP (R251): the reply ends the deferral; the GPU's next try gets it. -/
def execAuxRep (dpx cseq reply : Nat) (rdata : List Byte) (s : State) : Out :=
  run s fun s =>
    let (fresh, s) := s.gotControl dpx cseq
    if fresh then s.setDpx dpx fun d => { d with deferred := d.deferred.map fun w => { w with answer := w.answer.or (some (reply, rdata)) } } else s

/-- MIRROR (R253): a block of the panel at the SINK end; HPD may follow (R254). -/
def execMirror (dpx cseq addr : Nat) (data : List Byte) (s : State) : Out :=
  run s fun s =>
    let (fresh, s) := s.gotControl dpx cseq
    if fresh then (s.setDpx dpx fun d => d.setBlock addr data).hpdUp dpx else s

/-- HPD (R254): the destination panel's HPD level, or its IRQ_HPD, at the SINK end. -/
def execHpd (dpx cseq : Nat) (level irq : Bool) (s : State) : Out :=
  run s fun s =>
    let (fresh, s) := s.gotControl dpx cseq
    if !fresh then s
    else
      let s := s.setDpx dpx fun d => { d with farHpd := level }
      if !level then s.hpdDown dpx
      else
        let s := s.hpdUp dpx
        if irq && (s.dpx dpx).hpd then (s.emit (.hpd dpx true true)).hpdAttention dpx true true else s

/-- SKIP_REQ (R256): the capture end's frame-skip factor. -/
def execSkipReq (dpx cseq vstream k : Nat) (s : State) : Out :=
  run s fun s =>
    let (fresh, s) := s.gotControl dpx cseq
    if fresh && 1 ≤ k && k ≤ 8 then
      { s with disp := { s.disp with streams := s.disp.streams.map fun x =>
        if x.capture && x.dpx == dpx && x.dest.2.2.2 == vstream then { x with k := k, cleanFrames := 0 } else x } }
    else s

/-- CONTROL_ACK (R252). -/
def execControlAck (dpx cseq : Nat) (s : State) : Out :=
  run s fun s => s.setDpx dpx fun d => { d with unacked := d.unacked.filter fun m => m.cseq != cseq }

/-- CONTROL_RESEND_TIMEOUT (R252): resent up to 8 times, then dropped with EV075. -/
def execControlResendTimeout (dpx cseq : Nat) (s : State) : Out :=
  run s fun s =>
    match (s.dpx dpx).unacked.find? fun m => m.cseq == cseq with
    | none => s
    | some m =>
      if !(s.passed m.tick 2) then s
      else if m.resends < 8 then
        (s.setDpx dpx fun d => { d with unacked := d.unacked.map fun x =>
          if x.cseq == cseq then { x with resends := x.resends + 1, tick := s.time.tick } else x }).emit
            (.control dpx (s.controlBytes m))
      else
        (s.setDpx dpx fun d => { d with unacked := d.unacked.filter fun x => x.cseq != cseq }).dispEv 75 dpx 0 0

/-- AUX_FWD_TIMEOUT (R251): AUX_FWD_TIMEOUT_US after the DEFER, the transaction is NACKed. -/
def execAuxFwdTimeout (dpx : Nat) (s : State) : Out :=
  run s fun s =>
    if (s.dpx dpx).deferred.any fun w => w.answer.isNone && s.passed w.tick (usTicks (s.cv Fld.AUX_FWD_TIMEOUT_US)) then
      (s.setDpx dpx fun d => { d with deferred := d.deferred.map fun w => { w with answer := some (1, []) } }).dispEv 75 dpx 0 0
    else s

/-! ### Hold -/

/-- HOLD_GAP_EXPIRY (R258): no chunk for HOLD_GAP_US; the stream enters hold at its next frame start. -/
def execHoldGapExpiry (stream : Nat) (s : State) : Out :=
  run s fun s => s.setStream stream fun x =>
    if !x.capture && x.state != 3 && s.passed x.lastChunk (usTicks (s.cv Fld.HOLD_GAP_US)) then { x with holdNext := some 0 } else x

/-- HOLD_MAX_EXPIRY (R260): HOLD_MAX_S after the hold began, SET_POWER D3 to the panel, and the hold ends. SET_POWER D3 is written as 2, as DisplayPort codes it
(PRESUMED, log entry 22). -/
def execHoldMaxExpiry (stream : Nat) (s : State) : Out :=
  run s fun s =>
    match s.stream stream with
    | none => s
    | some x =>
      let most := s.cv Fld.HOLD_MAX_S
      if !x.capture && x.state == 3 && 0 < most && s.passed x.holdAt (secTicks most) then
        let s := (s.emit (.panelAux x.dpx 8 0x600 [2])).setDpx x.dpx fun d => { d with d3 := true }
        (if x.inPort == noPath then s.dropStream stream else s.setStream stream fun x => { x with state := 1 }).dispEv 73 x.dpx stream 512
      else s

/-! ### Mailbox commands -/

/-- DISP_SHOW (Table 9.8). -/
def execDispShow (rq : Req) (s : State) : Out :=
  command Cmd.dispShow 1 rq s fun _ s =>
    let k := arg rq 0 1
    if 3 < k then .fail s .badState
    else
      let d := s.dpx k
      let mine := s.disp.streams.filter fun x => x.dpx == k
      let hold := if mine.any fun x => x.state == 3 then 1 else if mine.any fun x => !x.capture && x.state == 1 then 2 else 0
      let held := total ((mine.filter fun x => !x.capture).map (·.share))
      .show s (leBytes 1 (nth s.topo.ends k 0) ++ leBytes 1 (b2n d.hpd) ++ leBytes 1 d.rate ++ leBytes 1 d.lanes
        ++ leBytes 1 mine.length ++ leBytes 1 hold ++ leBytes 1 d.lttprs ++ zeros 1 ++ leBytes 4 held)

/-- The panel's largest refresh rate for a contract: known when the panel is on this hub; otherwise a free value (R255). -/
def State.panelRefresh (s : State) (hops dst : Nat) (d : FrameDesc) : Nat × State :=
  if !d.adaptive then (0, s)
  else if hops == 0 then ((s.dpx dst).panelHi, s)
  else s.draw

/-- DISP_STREAM_OPEN (R241, R242): checks, contracts here and at every hub of the path, then the paths and the binding. A local
stream completes with the reply's own handle; one over cables when its last path has opened. -/
def execDispStreamOpen (rq : Req) (s : State) : Out :=
  command Cmd.dispStreamOpen 16 rq s fun h s =>
    let k := arg rq 0 1
    let index := arg rq 1 1
    let hops := arg rq 2 1
    let chain := arg rq 3 1
    let dst := arg rq 4 1
    let dstIndex := arg rq 5 1
    let audio := bitAt (arg rq 6 1) 0
    let cut := bitAt (arg rq 6 1) 1
    let prio := arg rq 7 1
    let asked := arg rq 8 4
    let cid := arg rq 12 2
    let msa := nth (s.dpx k).msa index none
    let onDpx := (s.disp.streams.filter fun x => x.dpx == k).length
    if 3 < k || 3 < index || 6 < hops || 3 < dst || 3 < dstIndex || !s.isSink k || (hops == 0 && !s.isSource dst)
        || (asked == 0 && msa.isNone) || 4 ≤ onDpx
        || (hops == 0 && 4 ≤ (s.disp.streams.filter fun x => x.dpx == dst).length) then .fail s .badState
    else if 8 ≤ s.disp.streams.length then .fail s .busy
    else
      let (hi, s) := match msa with
        | some d => s.panelRefresh hops dst d
        | none => (0, s)
      let along := if asked != 0 then asked else (msa.map fun d => videoMbps d hi).getD 0
      let delay := s.presDelay hops
      let share := bufferShare msa along delay
      let port := if hops == 0 then 2 + dst else (s.pathPort chain).getD 0
      let ids := if audio then [cid, cid + 1] else [cid]
      let bad := if audio then cid == 0 || 4094 < cid else cid == 0 || 4095 < cid
      let cs := (s.mkContract cid 6 prio (2 + k) port along 64 16) ::
        (if audio then [s.mkContract (cid + 1) 5 0xFF (2 + k) port 64 0 16] else [])
      let other := total ((s.disp.streams.filter fun x => x.capture && x.dest.1 == hops && x.dest.2.1 == chain && x.dest.2.2.1 == dst).map
        (·.share))
      let done := fun (rc : Rc) (data : List Byte) => Ans.long s (some (rc.code, data))
      if bad then done .badState []
      else if s.plan.contracts.any fun c => ids.contains c.id then done .badHandle []
      else if hops != 0 && (s.pathPort chain).isNone then done .badState []
      else
        let a := cs.foldl (fun (a : ContractAns) c => if a.rc == .ok then a.st.defineContract c false else a) ⟨.ok, 0, s⟩
        if a.rc != .ok then done a.rc (if a.rc == .budget then leBytes 1 a.test else [])
        else if streamBuffer < other + share then done .budget [3]
        else
          let used := s.disp.streams.map (·.id)
          let id := (((List.range 15).map (· + 1)).find? fun i => !used.contains i).getD 15
          let x : StreamSt :=
            { id := id, dpx := k, index := index, capture := true, state := 0, dest := (hops, chain, dst, dstIndex), audio := audio,
              cut := cut, video := none, audioPath := none, inPort := 0, inLabel := 0, contract := cid, along := along,
              delay := delay, share := share, desc := msa, locked := false, lockLines := 0, badLines := 0, dco := 0, k := 8,
              cleanFrames := 0, chunks := [], late := 0, concealed := 0, skipped := 0, highWater := 0, frameChunks := 0,
              frameConc := 0, badFrames := 0, stored := false, goodFrames := 0, storeBuf := 0, holdNext := none,
              lastChunk := s.time.tick, concEv := 0, concTick := none, skipTick := none, holdAt := 0, step := 0,
              origin := none, interval := 0, start := none, shift := 0, frameNo := 0, away := false, above := [], firstLine := [], audioIn := [],
              job := if hops == 0 then none else some (rq.via, h) }
          let s : State := { a.st with disp := { a.st.disp with streams := a.st.disp.streams ++ [x] } }
          if hops == 0 then
            let s := (s.dispNext id).dispPathUp id
            match s.stream id with
            | some x =>
              let s := s.dispArrived 2 ⟨x.video.getD 0, false, 6, 2 + dst, 0, cut, cid, false, 0⟩
              let s : State := { s with disp := { s.disp with streams := s.disp.streams.map fun y =>
                if !y.capture && y.inPort == 2 && y.inLabel == x.video.getD 0 then { y with index := dstIndex, delay := delay, share := share } else y } }
              .long s (some (0, openPayload x))
            | none => done .badState []
          else .long (s.sendContracts (.contract 0 id) port hops cs) none

/-- DISP_STREAM_CLOSE (R264). -/
def execDispStreamClose (rq : Req) (s : State) : Out :=
  command Cmd.dispStreamClose 2 rq s fun _ s =>
    match s.stream (arg rq 0 2) with
    | none => .fail s .badState
    | some x =>
      let s := s.closeStream x 1
      -- a local stream's regenerating side goes with it
      .done (match s.disp.streams.find? fun y => x.capture && !y.capture && y.inPort == 2 && y.inLabel == x.video.getD 0 with
        | some y => s.closeRegen y 1
        | none => s)

/-- DISP_STREAM_SHOW (Table 9.8). -/
def execDispStreamShow (rq : Req) (s : State) : Out :=
  command Cmd.dispStreamShow 2 rq s fun _ s =>
    match s.stream (arg rq 0 2) with
    | none => .fail s .badState
    | some x =>
      .show s (leBytes 1 x.state ++ leBytes 1 (b2n x.locked) ++ leBytes 1 x.k ++ zeros 1 ++ leBytes 4 x.delay
        ++ leBytes 8 ((x.desc.map (·.clock)).getD 0) ++ leInt 4 (x.dco * 1000000000 / 4294967296) ++ leBytes 4 x.late
        ++ leBytes 8 x.concealed ++ leBytes 4 x.skipped ++ leBytes 4 x.highWater)

/-- DISP_HOLD_OVERLAY (R259, R372, R373): the overlay of a SOURCE DPX; outside the frame or the overlay area, or over 3,840 × 2,160,
it replies BAD_LENGTH; without a HOLD region, enabling it replies BAD_STATE. -/
def execDispHoldOverlay (rq : Req) (s : State) : Out :=
  command Cmd.dispHoldOverlay 16 rq s fun _ s =>
    let k := arg rq 0 1
    let w := arg rq 6 2
    let ht := arg rq 8 2
    let frame := (s.disp.streams.find? fun x => !x.capture && x.dpx == k && x.desc.isSome).bind (·.desc)
    let outside := match frame with
      | some d => d.hactive < arg rq 2 2 + w || d.vactive < arg rq 4 2 + ht
      | none => false
    if 3 < k || !s.isSource k || (arg rq 1 1 == 1 && s.cv Fld.HOLD_REGION_MIB == 0) then .fail s .badState
    else if 3840 < w || 2160 < ht || outside || 128 * mib < arg rq 12 4 + 4 * w * ht then .fail s .badLength
    else .done (s.setDpx k fun d => { d with
      overlay := (arg rq 1 1 == 1, arg rq 2 2, arg rq 4 2, w, ht, arg rq 12 4) })

/-- DISP_HOLD_ENTER (R258, R260): hold at the next frame start, or out of hold to the idle pattern. -/
def execDispHoldEnter (rq : Req) (s : State) : Out :=
  command Cmd.dispHoldEnter 3 rq s fun _ s =>
    match s.stream (arg rq 0 2) with
    | none => .fail s .badState
    | some x =>
      if x.capture || 1 < arg rq 2 1 then .fail s .badState
      else if arg rq 2 1 == 0 then .done (s.setStream x.id fun x => if x.state == 3 then x else { x with holdNext := some 2 })
      else if x.state != 3 then .fail s .badState
      else .done ((if x.inPort == noPath then s.dropStream x.id else s.setStream x.id fun x => { x with state := 1 }).dispEv 73 x.dpx x.id 256)

/-- DISP_PAIR_SET (R251): the AUX destination of a SINK end before any stream exists. -/
def execDispPairSet (rq : Req) (s : State) : Out :=
  command Cmd.dispPairSet 4 rq s fun _ s =>
    let k := arg rq 0 1
    if 3 < k || !s.isSink k || 6 < arg rq 1 1 || 1 < arg rq 2 1 || 3 < arg rq 3 1 then .fail s .badState
    else .done ((s.setDpx k fun d => { d with pair := some (arg rq 1 1, arg rq 2 1, arg rq 3 1) }).hpdUp k)

/-- DISP_AUX_XFER (R264): an AUX transaction on a SOURCE DPX; the panel takes its time, and the command is a long one (R64). -/
def execDispAuxXfer (rq : Req) (s : State) : Out :=
  command Cmd.dispAuxXfer 12 rq s fun h s =>
    let k := arg rq 0 1
    let len := arg rq 8 1
    if 3 < k || !s.isSource k || len == 0 || 16 < len then .fail s .badState
    else
      .long (s.auxPanel k (arg rq 1 1) (arg rq 4 4) (slice 12 len rq.payload) ⟨arg rq 4 4, 0, false, some (rq.via, h)⟩) none

/-- DISP_CLEAR (R264). -/
def execDispClear (rq : Req) (s : State) : Out :=
  command Cmd.dispClear 2 rq s fun _ s =>
    let id := arg rq 0 2
    let zero := fun (x : StreamSt) => { x with late := 0, concealed := 0, skipped := 0, highWater := 0 }
    if id == 0xFFFF then .done { s with disp := { s.disp with streams := s.disp.streams.map zero } }
    else if (s.stream id).isNone then .fail s .badState
    else .done (s.setStream id zero)

end Sys2Proof.Machine
end

