-- ==== Sys2Proof/Machine/Ppath.lean ====
section
/-! DEFINITION. The power path commands (spec/17). -/

namespace Sys2Proof.Machine

/-! ### Feeds (R437 to R440) -/

/-- The effective limit in mA (R438). -/
def State.feedLimit (s : State) (n : Nat) : Nat :=
  let lim := s.pathCv (if n == 0 then Fld.FEED0_LIMIT_MA else Fld.FEED1_LIMIT_MA)
  let src := s.feedSrc n
  if src == 1 || src == 2 then
    let c := s.chn (src - 1)
    min lim (if c.moving then 2500000 / max 1 (s.feed n).mv else c.ma)
  else lim

/-- FEED_PRESENT (R437): the voltage has been at least FEED_UV_MV × 1.05 for 10 ms. In HIBERNATE the ORing pair stays as it was (R458). -/
def execFeedPresent (feed mv ma heldMs : Nat) (s : State) : Out :=
  runAon s fun s =>
    if 1 < feed || (s.feed feed).present || !s.feedCan feed || mv * 100 < s.pathCv Fld.FEED_UV_MV * 105 || heldMs < 10 then s
    else
      let s := s.setFeed feed fun f => { f with present := true, gate := f.gate || s.pwrLive, mv := mv, ma := ma }
      ({ s with ppath := { s.ppath with fed := true } } : State).raise 160 (feed + 2)

/-- FEED_ABSENT (R437): below FEED_UV_MV for 10 µs, or reverse current. With both feeds absent the rails are lost. -/
def execFeedAbsent (feed mv heldUs : Nat) (reverse : Bool) (s : State) : Out :=
  runAon s fun s =>
    if 1 < feed || !(reverse || (mv < s.pathCv Fld.FEED_UV_MV && 10 ≤ heldUs)) then s
    else (if (s.feed feed).present then s.feedGone feed mv else s).railsCheck

/-- FEED_SHARE_UPDATE (R438): with both feeds present the gates are driven so that the currents stand in the ratio of the limits. -/
def execFeedShareUpdate (mv0 ma0 mv1 ma1 : Nat) (s : State) : Out :=
  runPwr s fun s =>
    let s := (s.setFeed 0 fun f => { f with mv := mv0, ma := ma0 }).setFeed 1 fun f => { f with mv := mv1, ma := ma1 }
    if (s.feed 0).present && (s.feed 1).present then
      s.emit (.orGates (s.feedLimit 0 * 1000 / max 1 (s.feedLimit 0 + s.feedLimit 1)))
    else s

/-- The outputs in the order in which they are shed (R440), by the codes of EV161. -/
def shedOrder : List Nat := [5, 4, 3, 2, 11, 10, 9, 8, 13, 12]

/-- An output that is on. -/
def State.outputOn (s : State) (o : Nat) : Bool :=
  if o < 8 then (s.vsw o).state == 1 else if o < 12 then (s.bay (o - 8)).state.conducts else (s.chn (o - 12)).state == 4

/-- One output shed: a VBUS switch as over-current, a bay to OFF, a cable port by Hard Reset. -/
def State.shedOutput (s : State) (o : Nat) : State :=
  if o < 8 then
    let s := s.vbusOff o
    if s.isUsbHub then s.usbOverCurrent (o - 1) else s
  else if o < 12 then s.bayShed (o - 8)
  else s.hardReset (o - 12) true

/-- A further FEED_OC_MS has passed since the last shed (R440). -/
def State.shedAgain (s : State) : Bool :=
  match s.ppath.shedTick with
  | none => true
  | some t => s.passed t (msTicks (s.pathCv Fld.FEED_OC_MS))

/-- FEED_OVERLOAD (R440): more than 1.1 × the limit for FEED_OC_MS; the next output that is on is shed, with EV161. -/
def execFeedOverload (feed ma heldMs : Nat) (s : State) : Out :=
  runPwr s fun s =>
    if 1 < feed || !(s.feed feed).present || ma * 10 ≤ s.feedLimit feed * 11 || heldMs < s.pathCv Fld.FEED_OC_MS || !s.shedAgain then s
    else
      let s := s.setFeed feed fun f => { f with ma := ma }
      match shedOrder.find? s.outputOn with
      | none => s
      | some o =>
        let s := s.shedOutput o
        ({ s with ppath := { s.ppath with
          sheds := satAdd 32 s.ppath.sheds 1, shedTick := some s.time.tick } }).raise 161 (feed + 16 * o)

/-! ### VBUS switches (R442, R443) -/

/-- VBUS_SETTLED (R442): within ±5 % of the target, or below 0.8 V for off, for 1 ms; the discharge ends and the channel goes on. -/
def execVbusSettled (switch mv ma heldMs : Nat) (s : State) : Out :=
  runPwr s fun s =>
    let v := s.vsw switch
    let ok := 0 < heldMs && (if v.target == 0 then mv < 800 else v.target * 95 ≤ mv * 100 && mv * 100 ≤ v.target * 105)
    let s := s.setVsw switch fun v => { v with mv := mv, ma := ma, settled := ok, bleed := v.bleed && !ok }
    if 5 < switch || !ok then s
    else (if v.bleed then s.emit (.vbus switch v.rail v.target 0 false) else s).cpwrSettled switch

/-- VBUS_SWITCH_FAULT (R443): at its limit for VBUS_FAULT_MS or past its fast comparator the switch opens, EV165, the retry timer runs;
over-current on a downstream switch, ErrorRecovery on a cable port's. -/
def execVbusSwitchFault (switch heldMs : Nat) (trip : Bool) (s : State) : Out :=
  runPwr s fun s =>
    if 5 < switch || (s.vsw switch).state != 1 || !(trip || s.cv Fld.VBUS_FAULT_MS ≤ heldMs) then s
    else
      let s := s.setVsw switch fun v => { v with
        state := 3, target := 0, settled := false, wants := none, bleed := true, faults := satAdd 32 v.faults 1, faultAt := s.time.tick }
      let s := (s.emit (.vbus switch (s.vsw switch).rail 0 0 true)).raise 165 switch
      if switch < 2 then s.errorRecovery switch 2 else if s.isUsbHub then s.usbOverCurrent (switch - 1) else s

/-- VBUS_RETRY_EXPIRY (R443): VBUS_RETRY_MS after the fault; a switch-on asked for meanwhile takes effect. -/
def execVbusRetryExpiry (switch : Nat) (s : State) : Out :=
  runPwr s fun s =>
    let v := s.vsw switch
    if v.state != 3 || !s.passed v.faultAt (msTicks (s.cv Fld.VBUS_RETRY_MS)) then s
    else
      let s := s.setVsw switch fun v => { v with state := 0, wants := none }
      let s := if 2 ≤ switch && s.isUsbHub then s.setUsbPort (switch - 1) fun x => { x with powerWait := false } else s
      match v.wants with
      | some mv =>
        let s := s.vbusOn switch mv
        if 2 ≤ switch && s.isUsbHub && (s.usbPort (switch - 1)).power && s.ccSource (switch - 1) then s.usbConnect (switch - 1) true else s
      | none => s

/-! ### Bays (R444 to R453) -/

/-- BAY_SHORT_PIN_CLOSE (R444, R451). -/
def execBayShortPinClose (bay : Nat) (s : State) : Out :=
  runPwr s fun s =>
    if (s.bay bay).state != .unseated then s
    else
      let long := msTicks (s.cv Fld.SEAT_DEBOUNCE_MS) ≤ tickDiff s.time.tick (s.bay bay).openTick
      (s.setBay bay fun x => { x with removed := x.removed || long, closeTick := s.time.tick }).bayTo bay .seating

/-- BAY_SHORT_PIN_OPEN (R444, R451): the gate is pulled down in every state; the retry timer and the request go on. -/
def execBayShortPinOpen (bay : Nat) (s : State) : Out :=
  runPwr s fun s =>
    let x := s.bay bay
    if 3 < bay || x.state == .unseated then s
    else
      let seated := x.seated
      let s := s.bayTo bay .unseated
      let s := s.setBay bay fun y => { y with
        before := if x.state == .faultWait || x.state == .lockout then x.state else if seated then .off else y.before
        openTick := s.time.tick, removed := if seated then false else y.removed, mv := 0 }
      if seated then (s.raise 162 bay).bayPresence bay else s

/-- BAY_SEAT_DEBOUNCE (R444, R445, R451): closed for SEAT_DEBOUNCE_MS, so seated; a board that was truly out has its retries restored and leaves LOCKOUT; no ramp
before the retry timer has run out. -/
def execBaySeatDebounce (bay : Nat) (s : State) : Out :=
  runPwr s fun s =>
    let x := s.bay bay
    if 3 < bay || x.state != .seating || !s.passed x.closeTick (msTicks (s.cv Fld.SEAT_DEBOUNCE_MS)) then s
    else
      let auto := s.applied (nth (bayFields bay) 10 Fld.BAY0_AUTO) == 1 && (s.dpOfBay bay).isNone
      let all := s.applied (nth (bayFields bay) 4 Fld.BAY0_RETRIES)
      let s := s.setBay bay fun y => { y with
        request := y.request || auto, shed := y.shed && !auto, retries := if y.removed then all else y.retries, removed := false }
      let s := if x.retry then s.bayTo bay .faultWait
        else if x.removed || x.before == .off then s.bayOff bay
        else (s.bayTo bay x.before).bayTry bay
      (s.raise 162 (bay + 4)).bayPresence bay

/-- The fault count after some 1 µs samples (R446): up by one at the limit, down by one in every eighth below it. -/
def countAfter (count samples : Nat) (atLimit : Bool) : Nat := if atLimit then count + samples else count - samples / 8

/-- The fault timer has run out (R446, R449): PG, if it is 1, falls 10 µs before the gate is pulled down. -/
def State.bayTimer (s : State) (b : Nat) : State := (s.pgFall b).bayFault b 1

/-- BAY_CURRENT_LIMIT (R444, R446): current reaches the limit, or falls below it, after some samples since the last change. -/
def execBayCurrentLimit (bay : Nat) (reached : Bool) (samples mv ma : Nat) (s : State) : Out :=
  runPwr s fun s =>
    let x := s.bay bay
    if 3 < bay || !x.state.conducts then s
    else
      let n := countAfter x.count samples (x.state == .limit)
      let s := s.setBay bay fun y => { y with count := min n (x.faultMs * 1000), mv := mv, ma := ma }
      if x.state == .limit && x.faultMs * 1000 ≤ n then s.bayTimer bay
      else if reached && x.state != .limit then (s.setBay bay fun y => { y with back := x.state }).bayTo bay .limit
      else if !reached && x.state == .limit then s.bayTo bay x.back
      else s

/-- BAY_FAULT_TIMER (R446, R449): so many samples at the limit later the count reaches BAYn_FAULT_MS × 1,000. -/
def execBayFaultTimer (bay samples : Nat) (s : State) : Out :=
  runPwr s fun s =>
    let x := s.bay bay
    if 3 < bay || x.state != .limit then s
    else
      let s := s.setBay bay fun x => { x with count := min (x.count + samples) (x.faultMs * 1000) }
      if x.count + samples < x.faultMs * 1000 then s else s.bayTimer bay

/-- BAY_BREAKER (R447): above twice BAYn_ILIM_MA through one sample. -/
def execBayBreaker (bay ma : Nat) (s : State) : Out :=
  runPwr s fun s => if (s.bay bay).state.conducts && bay ≤ 3 && 2 * (s.bay bay).ilim < ma then s.bayFault bay 2 else s

/-- The ramp time-out in ticks: 2 × (input voltage / BAYn_RAMP_MV_PER_MS) + BAYn_FAULT_MS (R444). -/
def BaySt.rampLimit (x : BaySt) (vin : Nat) : Nat := 64 * vin / max 1 (nth x.par 1 1000) + msTicks x.faultMs

/-- BAY_RAMP_TIMEOUT (R444). -/
def execBayRampTimeout (bay vin : Nat) (s : State) : Out :=
  runPwr s fun s =>
    let x := s.bay bay
    if (x.state == .ramp || (x.state == .limit && x.back == .ramp)) && s.passed x.rampTick (x.rampLimit vin) then s.bayFault bay 4 else s

/-- An output at least PG_PCT of the input voltage (R448). -/
def State.pgLevel (s : State) (vin mv : Nat) : Bool := vin * s.cv Fld.PG_PCT ≤ mv * 100

/-- BAY_PG_RISE (R448, R449): after PG_DEBOUNCE_US of samples that meet the condition; never at the limit. The ramp is complete. -/
def execBayPgRise (bay vin mv ma heldUs : Nat) (enhanced : Bool) (s : State) : Out :=
  runPwr s fun s =>
    let x := s.bay bay
    if 3 < bay || x.pg || !(x.state == .ramp || x.state == .on) || !enhanced || !s.pgLevel vin mv || x.ilim ≤ ma
        || heldUs < s.cv Fld.PG_DEBOUNCE_US then s
    else
      let s := (s.setBay bay fun x => { x with pg := true, mv := mv, ma := ma, pgTick := s.time.tick }).bayTo bay .on
      s.raise 163 (bay + 4)

/-- BAY_PG_FALL (R448, R452): the output drops below PG_PCT of the input. -/
def execBayPgFall (bay vin mv : Nat) (s : State) : Out :=
  runPwr s fun s =>
    let s := s.setBay bay fun x => { x with mv := mv }
    if s.pgLevel vin mv then s else s.pgFall bay

/-- BAY_RETRY_EXPIRY (R450, R451): BAYn_RETRY_MS after the fault. -/
def execBayRetryExpiry (bay : Nat) (s : State) : Out :=
  runPwr s fun s =>
    let x := s.bay bay
    if x.retry && s.passed x.retryTick (msTicks x.retryMs) then (s.setBay bay fun x => { x with retry := false }).bayTry bay else s

/-- BAY_RETRIES_RESTORE (R450): PG has held for 1 s. -/
def execBayRetriesRestore (bay : Nat) (s : State) : Out :=
  runPwr s fun s =>
    if (s.bay bay).pg && s.passed (s.bay bay).pgTick (secTicks 1) then s.setBay bay fun x => { x with retries := x.allRetries } else s

/-- BAY_PERST_RELEASE (R452): 100 ms after PG rose; the mapped port trains. -/
def execBayPerstRelease (bay : Nat) (s : State) : Out :=
  runPwr s fun s => if (s.dpOfBay bay).isSome then s.releasePerst else s

/-- One step of the model (R453): T = T + (T_ref + P × RTH − T) / TAU, in 10^-6 °C; P in µW is (input − output) × current while the
gate regulates, and current² × RDSON otherwise. The quotient is rounded down (log entry 25). -/
def modelStep (x : BaySt) (t tref : Int) (vin mv ma : Nat) : Int :=
  let p : Nat := if x.state == .limit then (vin - mv) * ma else ma * ma * nth x.par 7 5 / 1000
  t + (tref + ((p * nth x.par 8 400 / 10 : Nat) : Int) - t) / ((max 1 (nth x.par 9 2000) : Nat) : Int)

/-- What a FET temperature makes the hub do (R453). -/
def State.fetActs (s : State) (b : Nat) : State :=
  let x := s.bay b
  match x.temp with
  | none => s
  | some t =>
    let lim : Int := (x.tlim : Int) * 1000000
    let due := match x.hotTick with
      | none => true
      | some h => 32 ≤ tickDiff s.time.tick h
    let s := if lim - 10000000 ≤ t && due then
        (s.setBay b fun x => { x with hotTick := some s.time.tick }).raise 166 (b + 65536 * leNat (leInt 2 (t / 100000)))
      else s
    if lim ≤ t && x.state.conducts then s.bayFault b 3 else s.bayTry b

/-- FET_TEMP_UPDATE (R453): `diode` and `tref` are the diode's reading and the mean of TS7 in 0.01 °C; with the voltages and current
measured. A diode failure takes the bay to MODEL from the next sample. -/
def execFetTempUpdate (bay : Nat) (diode tref : Int) (vin mv ma : Nat) (s : State) : Out :=
  runPwr s fun s =>
    let x := s.bay bay
    if 3 < bay then s
    else
      let s := s.setBay bay fun y => { y with mv := mv, ma := if y.state.conducts then ma else 0 }
      if x.tsense == 2 then s
      else if x.tsense == 0 && !x.diodeBad && (diode < -4000 || 17500 < diode) then
        (s.setBay bay fun y => { y with diodeBad := true }).raise 167 bay
      else
        let start := x.temp.getD (tref * 10000)
        let t := if x.tsense == 0 && !x.diodeBad then diode * 10000 else modelStep x start (tref * 10000) vin mv (if x.state.conducts then ma else 0)
        let s := s.setBay bay fun y => { y with temp := some t }
        let s : State := { s with plan := { s.plan with
          fetNow := put s.plan.fetNow bay (t / 10000), fetLimNow := put s.plan.fetLimNow bay ((x.tlim : Int) * 100) } }
        s.fetActs bay

/-! ### Mailbox commands (R455) -/

/-- PPATH_SHOW (Table 17.4). -/
def execPpathShow (rq : Req) (s : State) : Out :=
  command Cmd.ppathShow 0 rq s fun _ s =>
    let f := fun (n : Nat) => leBytes 1 (b2n (s.feed n).present) ++ leBytes 1 (s.feedSrc n) ++ zeros 2 ++ leBytes 4 (s.feed n).mv
      ++ leBytes 4 (s.feed n).ma ++ leBytes 4 (s.feedLimit n)
    .show s (f 0 ++ f 1 ++ leBytes 4 s.ppath.pIn ++ leBytes 4 s.ppath.pOut ++ leBytes 4 s.ppath.pFeed ++ leBytes 4 s.ppath.sheds)

/-- Milliseconds left of a bay's retry timer. -/
def State.retryLeft (s : State) (b : Nat) : Nat :=
  let x := s.bay b
  if x.retry then x.retryMs - tickDiff s.time.tick x.retryTick / 32 else 0

/-- PPATH_BAY_SHOW (Table 17.4). -/
def execPpathBayShow (rq : Req) (s : State) : Out :=
  command Cmd.ppathBayShow 1 rq s fun _ s =>
    let b := arg rq 0 1
    let x := s.bay b
    if 3 < b then .fail s .badState
    else .show s (leBytes 1 x.state.code ++ leBytes 1 (b2n x.pg) ++ leBytes 1 (b2n x.request + 2 * b2n x.inhibit) ++ leBytes 1 x.cause
      ++ leBytes 4 x.mv ++ leBytes 4 x.ma ++ leInt 2 (x.temp.getD 0 / 100000) ++ leBytes 1 x.retries ++ zeros 1 ++ leBytes 4 x.count
      ++ leBytes 4 (s.retryLeft b) ++ leBytes 4 x.faults)

/-- PPATH_BAY_POWER (R445): OFF, ON, INHIBIT, RELEASE; ON also ends LOCKOUT (Table 17.2). -/
def execPpathBayPower (rq : Req) (s : State) : Out :=
  command Cmd.ppathBayPower 2 rq s fun _ s =>
    let b := arg rq 0 1
    match arg rq 1 1 with
    | 0 => if 3 < b then .fail s .badState else .done (s.bayRequest b false)
    | 1 =>
      if 3 < b then .fail s .badState
      else
        let s := s.setBay b fun x => { x with request := true, shed := false }
        .done (if (s.bay b).state == .lockout then s.bayOff b else s.bayReq b)
    | 2 => if 3 < b then .fail s .badState else .done ((s.setBay b fun x => { x with inhibit := true }).bayReq b)
    | 3 => if 3 < b then .fail s .badState else .done ((s.setBay b fun x => { x with inhibit := false }).bayReq b)
    | _ => .fail s .badState

/-- The current limit of a switch in mA (R443): VBUS_ILIM_PCT of the contract's current. -/
def State.vbusLimit (s : State) (k : Nat) : Nat := (s.chn k).ma * s.cv Fld.VBUS_ILIM_PCT / 100

/-- PPATH_VBUS_SHOW (Table 17.4). -/
def execPpathVbusShow (rq : Req) (s : State) : Out :=
  command Cmd.ppathVbusShow 1 rq s fun _ s =>
    let k := arg rq 0 1
    let v := s.vsw k
    if 5 < k then .fail s .badState
    else .show s (leBytes 1 v.state ++ leBytes 1 v.rail ++ zeros 2 ++ leBytes 4 v.mv ++ leBytes 4 v.ma
      ++ leBytes 4 (if v.state == 1 then s.vbusLimit k else 0) ++ leBytes 4 v.faults)

/-- PPATH_CLEAR (Table 17.4). -/
def execPpathClear (rq : Req) (s : State) : Out :=
  command Cmd.ppathClear 0 rq s fun _ s =>
    let zb := fun (x : BaySt) => { x with faults := 0 }
    let zv := fun (x : VbusSt) => { x with faults := 0 }
    .done { s with ppath := { s.ppath with bays := s.ppath.bays.map zb, vbus := s.ppath.vbus.map zv, sheds := 0 } }

end Sys2Proof.Machine
end

