-- ==== Sys2Proof/Machine/TimeOps.lean ====
section
/-! DEFINITION. What happens at the slots of a tick (spec/02, Table 2.2): the boundary, the servo, demand, lane plans and tick
cells. -/

namespace Sys2Proof.Machine

/-! ### Cells of the plan (Tables 6.5, 6.7) -/

/-- A segment entry (R166). -/
def segWord (g : Seg) : Nat := g.start * 256 + g.mode * 32 + g.rate * 16 + 8 * b2n g.t

/-- A lane plan laid out as Table 6.5, little-endian (`link.plan.show`). -/
def planBytes (pl : Plan) : List Byte :=
  leBytes 6 pl.target ++ leBytes 1 (b2n pl.fixed + 2 * b2n pl.repeated) ++ leBytes 1 pl.depth ++ zeros 4
    ++ (upTo 4).flatMap fun k => (upTo 8).flatMap fun i =>
      leBytes 2 (match (nth pl.lanes k [])[i]? with
        | some g => segWord g
        | none => 0xFF00)

/-- The payload of a TICK cell (Table 6.5), most significant byte first (R5). -/
def tickPayload (pl : Plan) : List Byte :=
  beBytes 6 pl.target ++ leBytes 1 (b2n pl.fixed + 2 * b2n pl.repeated) ++ leBytes 1 pl.depth ++ zeros 4
    ++ (upTo 4).flatMap fun k => (upTo 8).flatMap fun i =>
      beBytes 2 (match (nth pl.lanes k [])[i]? with
        | some g => segWord g
        | none => 0xFF00)

/-- The payload of a DEMAND cell (Table 6.7), most significant byte first (R5). -/
def demandPayload (d : Demand) : List Byte :=
  beBytes 6 d.target ++ leBytes 1 d.align ++ leBytes 1 (b2n d.missed) ++ (upTo 4).flatMap (fun k => leBytes 1 (nth d.laneReq k 0))
    ++ zeros 4 ++ (upTo 8).flatMap fun c => beBytes 2 (nth d.resv c 0) ++ beBytes 2 (nth d.backlog c 0)

/-- A time of Table 6.8, given in 1/64 ns: the tick, the nanoseconds within it, the fraction, and 2 reserved bytes. -/
def timeBytes (t : Int) : List Byte :=
  let v := t.toNat
  beBytes 6 (v / 2000000) ++ beBytes 2 (v % 2000000 / 64) ++ beBytes 2 (v % 64) ++ zeros 2

/-- The payload of a TIME_SYNC cell (Table 6.8). -/
def syncPayload (typ lane : Nat) (a b c : Int) : List Byte :=
  leBytes 1 typ ++ leBytes 1 lane ++ zeros 2 ++ timeBytes a ++ timeBytes b ++ timeBytes c

/-- A TICK cell is sent twice (R167), and so is a DEMAND cell (R169). -/
def State.sendTwice (s : State) (p kind : Nat) (payload : List Byte) : State :=
  (s.sendOwn p (ownCell kind payload)).sendOwn p (ownCell kind payload)
def State.sendPlan (s : State) (p : Nat) (pl : Plan) : State := s.sendTwice p 4 (tickPayload pl)

/-- A demand report laid out as Table 6.7, little-endian, for the recorder (Table 20.10). -/
def demandBytes (d : Demand) : List Byte :=
  leBytes 6 d.target ++ leBytes 1 d.align ++ leBytes 1 (b2n d.missed) ++ (upTo 4).flatMap (fun k => leBytes 1 (nth d.laneReq k 0))
    ++ zeros 4 ++ (upTo 8).flatMap fun c => leBytes 2 (nth d.resv c 0) ++ leBytes 2 (nth d.backlog c 0)

/-! ### The servo (R36 to R38, Table 2.4) -/

/-- ±150 ppm in steps of 2^-32 (Table 2.1). -/
def steerMax : Nat := 644245

/-- The rate that the servo sets within ±150 ppm: the full range against the offset in DRIFT; elsewhere from the offset shifted right by
SERVO_GAIN, by a law of which the spec gives no more (Table 2.5; log entry 3). -/
def State.steerTo (s : State) (al : Align) (e : Int) : State :=
  if al == .drift then
    { s with time := { s.time with steer := if 0 < e then -(steerMax : Int) else steerMax } }
  else
    let rate := Config.servoRate (e / (2 ^ s.cv Fld.SERVO_GAIN : Nat)) s.time.steer
    { s with time := { s.time with steer := max (-(steerMax : Int)) (min (steerMax : Int) rate) } }

/-- The alignment state after a measurement of `mag` 1/64 ns: state, relock count. -/
def alignNext (al : Align) (relock mag limit need : Nat) : Align × Nat :=
  let inn := mag ≤ 256
  match al with
  | .locked => if inn then (.locked, 0) else if mag ≤ limit then (.drift, 0) else (.lost, 0)
  | .drift =>
    if limit < mag then (.lost, 0) else if inn then (if need ≤ relock + 1 then (.locked, 0) else (.drift, relock + 1)) else (.drift, 0)
  | .lost => if inn then (if need ≤ relock + 1 then (.locked, 0) else (.lost, relock + 1)) else (.lost, 0)
  | .notUp => (.notUp, 0)

/-- The measurement of slot 0 of an UP port (R37, R170); EV013 on entry to DRIFT or LOST. -/
def State.measure (s : State) (p : Nat) : State :=
  let a := s.alignOf p
  if a.align == .notUp then s
  else
    match a.meas with
    | none => s.setAlign p fun a => { a with sinceSync := a.sinceSync + 1 }
    | some e =>
      if a.stepDue then s.setAlign p fun a => { a with sinceSync := a.sinceSync + 1, meas := none, offset := e }
      else
        let (al, n) := alignNext a.align a.relock e.natAbs (64 * s.cv Fld.DRIFT_LIMIT_NS) (s.cv Fld.RELOCK_TICKS)
        let slip := al != a.align && (al == .drift || al == .lost)
        let s := s.setAlign p fun a => { a with
          align := al, relock := n, offset := e, meas := none, sinceSync := a.sinceSync + 1, stepDue := slip && al == .lost }
        (s.steerTo al e).raiseIf slip 13 0

/-! ### Slot 0 -/

/-- The rest of the tick passes and the next begins: its number, and what shapers and policers gain. -/
def State.turnTick (s : State) : State :=
  let n := 250 - s.time.slot
  let s := (s.slotsPass s.time.slot 250).closeSamples
  { s with
    time := { s.time with
      tick := s.time.tick + 1, slot := 0, masterTick := s.time.masterTick + 1
      hoTicks := if s.time.holdover == 1 then s.time.hoTicks + 1 else 0 }
    plan := { s.plan with
      shapers := s.plan.shapers.map fun (h : Shaper) => h.refill n
      contracts := s.plan.contracts.map fun (c : Contract) => c.refill n
      sent := List.replicate 96 0 } }

/-- A port runs lane plans: a generation-2 link with its election over and its training done. -/
def State.plans (s : State) (p : Nat) : Bool :=
  let l := s.link p
  let c := s.cpx p
  l.elected && !l.gen1 && c.step == 0 && (s.linkUp p || c.lanes.any fun x => x.ready.isSome || x.state == .floor)

/-- The plans of a port move on one tick; where none is held the fixed plan runs (R34, R206). -/
def State.shiftPlans (s : State) (p : Nat) : State :=
  let n := s.time.tick.toNat
  if !s.plans p then s
  else
    let now := ((s.link p).planFor n).getD (s.ownFixedPlan p n)
    let before := (s.link p).plan0
    let s := s.setLink p fun l => { l with plan0 := some now, plan1 := l.planFor (n + 1), plan2 := l.planFor (n + 2) }
    let s := (s.planLanes p before)
    if !s.linkUp p && (s.cpx p).lanes.any fun l => l.state == .l0 then s.linkComes p else s

/-- The burst of fixed plans under R169 that ended with the tick before: EV027. -/
def State.burstEnds (s : State) (p : Nat) : State :=
  let b := (s.link p).burst
  let now := s.time.tick
  if b.contains now || !(b.contains (now - 1)) then s
  else
    let n := b.length - (b.filter fun t => tickDiff t now < 2 ^ 47).length
    (s.setLink p fun l => { l with burst := l.burst.filter fun t => tickDiff t now < 2 ^ 47 }).linkEv p 27 (min 255 n)

/-- P_in, P_out and P_feed at slot 0 (R439). -/
def State.feedPower (s : State) (pOut : Nat) : State :=
  let pin := total (([0, 1].filter fun n => (s.feed n).present).map fun n => (s.feed n).mv * s.feedLimit n / 1000)
  let pf := min 14500 ((pin - pOut) * s.cv Fld.HUB_RAIL_EFF_PCT / 100)
  { s with
    ppath := { s.ppath with pIn := pin, pOut := pOut, pFeed := pf }
    plan := { s.plan with pFeed := some pf } }

/-- CORE_VID floor of the clocks that slices run (Table 18.6), as a code. -/
def floorCode (sl : List (Nat × Nat)) : Nat :=
  (sl.map fun (n, o) => if n == 0 then 20 else if o == 3 then 50 else if o == 2 then 36 else 20).foldl max 20

/-- The AVS step of a tick (R473): the rail follows the plans' floor, the margin monitors raise it a step per µs (`steps` of them
before the margin was restored) or lower it after 32 ticks to spare; EV173 when the margin is short at code 60. -/
def State.avs (s : State) (margin steps : Nat) : State :=
  let want := max (floorCode s.plan.inForce.slices) (floorCode s.wantSlices)
  let old := (s.pwr.floor - 500) / 5
  let vid := s.pins.coreVid
  let vid := if vid < want then want else if want < old then max want (vid - (old - want)) else vid
  let short := margin < s.cv Fld.AVS_MARGIN_PS
  let limit := short && 60 < vid + max 1 (min steps 31)
  let ample := 2 * s.cv Fld.AVS_MARGIN_PS < margin
  let spare := if ample then s.pwr.spare + 1 else 0
  let vid := if short then min 60 (vid + min steps 31) else if 32 ≤ spare then max want (vid - 1) else vid
  let s : State := { s with
    pins := { s.pins with coreVid := vid }
    pwr := { s.pwr with floor := 500 + 5 * want, margin := margin, spare := if 32 ≤ spare then 0 else spare } }
  s.raiseIf limit 173 (min 65535 margin)

/-- STATE changes with the plans that enter it (R234, R461): EV168. -/
def State.enterPlanned (s : State) : State :=
  match s.pwr.planned with
  | none => s
  | some x =>
    let was := s.pwr.state
    let s : State := { s with pwr := { s.pwr with
      state := x, planned := none, next := if s.pwr.next == some x then none else s.pwr.next } }
    let s := if s.domainUsed 5 && (was == 1) != (x == 1) then s.emit (.domain 5 (was == 1)) else s
    let s := if s.pwr.gated != (x == 2) then
        ({ s with pwr := { s.pwr with gated := x == 2 } } : State).emit (.swGate (x == 2))
      else s
    s.raiseIf (was != x) 168 (x + 16 * was)

/-- The domains SVC0 to SVC7 that their cores keep powered: with a slice in the tick or a live scratch region, SVC0 while the cluster runs
(R380). -/
def State.corePower (s : State) : State :=
  let lit := (upTo 8).map fun k =>
    s.domainOn (if k < 2 then 4 else 5) && ((k == 0 && s.svc.on) || 0 < (nth s.plan.inForce.slices k (0, 1)).1
      || s.svc.insts.any fun x => x.core == k && (x.state == 1 || x.state == 3) && 0 < x.scratch)
  let s := ((upTo 8).filter fun k => nth lit k false != nth s.pwr.lit k false).foldl (fun (s : State) k =>
    s.emit (.svcDomain k (nth lit k false))) s
  { s with pwr := { s.pwr with lit := lit } }

/-- Body bias and SRAM assist (R474): forward bias on a service core that runs at 2.0 GHz in this tick's plan or in the next, so that it is
there before the clock rises and goes after it falls; write assist below 0.70 V. -/
def State.bodyBias (s : State) : State :=
  let fast := fun (sl : List (Nat × Nat)) (k : Nat) => let x := nth sl k (0, 1); 0 < x.1 && x.2 == 3
  let fwd := (upTo 8).map fun k => fast s.plan.inForce.slices k || fast s.wantSlices k
  let low := s.pins.coreVid < 40
  let s := ((upTo 8).filter fun k => nth fwd k false != nth s.pwr.fwd k false).foldl (fun (s : State) k =>
    s.emit (.bias (k + 1) (if nth fwd k false then 100 else 0))) s
  let s := if low != s.pwr.assist then s.emit (.assist low) else s
  { s with pwr := { s.pwr with fwd := fwd, assist := low } }

/-- The conditions of IDLE over the tick that ended (R462): the count, or the return to ACTIVE with EV174. -/
def State.idleWatch (s : State) : State :=
  let step := s.plan.inForce.capStep == 8
  let load := s.plan.inForce.loads.all fun l => l ≤ s.cv Fld.IDLE_LOAD_PCT
  if s.pwr.state == 2 then
    if step && load then s
    else
      let s : State := { s with pwr := { s.pwr with next := some 0, idleCount := 0 } }
      s.raise 174 (b2n step)
  else { s with pwr := { s.pwr with idleCount := if step && load then min 65535 (s.pwr.idleCount + 1) else 0 } }

/-- The service demand latched at slot 0, and its spores where it has changed (R205, Table 20.10). -/
def State.latchService (s : State) : State :=
  let new := s.svcDemand
  let old := s.plan.svcWant
  let s : State := { s with plan := { s.plan with svcWant := new } }
  ((upTo 8).filter fun k => nth new k (0, 1) != nth old k (0, 1)).foldl (fun s k =>
    s.spore 6 k (leBytes 2 (nth new k (0, 1)).1 ++ leBytes 1 (nth new k (0, 1)).2)) s

/-- What the receivers of the lanes have counted in the tick (Table 5.12, R129): symbols, corrected symbols, corrected and uncorrectable
codewords, for CP0's lanes and then CP1's. -/
def State.laneCounts (s : State) (counts : List (List Nat)) : State :=
  (counts.zipIdx).foldl (fun s (c, i) =>
    if i < 8 then
      s.setLane (i / 4) (i % 4) fun l => { l with
        hist := ((nth c 0 0, nth c 1 0, nth c 3 0) :: l.hist).take 64
        cnt := { l.cnt with
        rxSym := satAdd 64 l.cnt.rxSym (nth c 0 0), corSym := satAdd 64 l.cnt.corSym (nth c 1 0)
        corCw := satAdd 64 l.cnt.corCw (nth c 2 0), uncCw := satAdd 64 l.cnt.uncCw (nth c 3 0) } }
    else s) s

/-- The lanes of the two legs of a time exchange, forward and reverse (R170): the lowest lane that has runs in both directions, or the lowest
of each; while no plan is held, at rate T, the DFP's lanes are L0 and L1 (Table 5.6). -/
def State.legs (s : State) (p : Nat) : Nat × Nat :=
  match (s.link p).plan0 with
  | some pl =>
    let has := fun (d k : Nat) => (nth pl.lanes k []).any fun g => g.mode == d
    match fourLanes.find? fun k => has 0 k && has 1 k with
    | some k => (k, k)
    | none => ((fourLanes.find? (has 0)).getD 0, (fourLanes.find? (has 1)).getD 0)
  | none =>
    let low := fun (ks : List Nat) => (ks.find? fun k => (s.lane p k).rate == .t).getD (ks.headD 0)
    if s.isMaster p == (nth s.cc p .init).dfp then (low [0, 1], low [2, 3]) else (low [2, 3], low [0, 1])

/-- What a port's link does in every tick: HELLO while LINK_T waits for the peer's, SYNC from the master (R170), MASTER_QUERY, the
credits of R155. -/
def State.linkTick (s : State) (p : Nat) : State :=
  let s := if (s.cpx p).step == 3 && (s.link p).peer.isNone && !s.bringupOver p then s.sendHello p else s
  let l := s.link p
  let s := if s.role p == .down && l.elected && !l.gen1 then
      let (v, s) := s.draw
      let t1 : Int := ((s.time.tick.toNat * 31250 * 64 + v % (31250 * 64) : Nat) : Int)
      s.sendOwn p (ownCell 6 (syncPayload 0 (s.legs p).1 t1 l.sync.2.2.2 0))
    else s
  let s := if s.linkUp p && s.role p == .up && !l.gen1 then s.setLink p fun l => { l with sinceTick := l.sinceTick + 1 } else s
  let s := if (s.link p).masterLost then s.ctl p ctlMasterQuery [] else s
  if s.linkUp p then s.sendCredits p none else s

/-- REC_ENABLE as it now stands (R531); a frozen ring stays frozen until it is released (R528). -/
def State.recEnable (s : State) : State :=
  if s.rcd.mode == 3 then s
  else if s.cv Fld.REC_ENABLE == 0 then { s with rcd := { s.rcd with mode := 0 } }
  else if s.rcd.mode == 0 then { s with rcd := { s.rcd with mode := 1 } }
  else s

/-- A link closes where an automatic re-calibration cannot run (R130) or a counter has reached its limit (R161). -/
def State.linkLimits (s : State) (p : Nat) : State :=
  let l := s.link p
  if (s.cpx p).retrain then
    let s := s.setCpx p fun c => { c with retrain := false }
    if 2 ≤ l.state then s.closeLink p 11 else s
  else if l.keysIn && 2 ^ 32 ≤ l.tx.counter then s.closeLink p 4
  else s

/-- Events that carry what a tick has counted, raised when it ends: EV028 and EV029 of each port, EV049 and EV050 (R158, R204), EV133 and
EV179 (R366, R500). -/
def State.tickEvents (s : State) : State :=
  let now := s.time.tick
  let seen := fun (t : Option (Tick × Nat)) => match t with
    | some (k, n) => if k == now then n else 0
    | none => 0
  let s := [0, 1].foldl (fun s p =>
    let f := seen (s.link p).authTick
    let n := seen (s.link p).poisTick
    let s := if 0 < f then s.linkEv p 28 (min 65535 f) else s
    if 0 < n then s.linkEv p 29 (min 65535 n) else s) s
  let s := s.raiseIf (0 < s.sw.drops) 49 (s.sw.dropAt + 65536 * min 65535 s.sw.drops)
  let s := s.raiseIf (0 < s.sw.pushes) 50 (min 65535 s.sw.pushes)
  let s := s.raiseIf (0 < s.mem.collNow) 133 (min 65535 s.mem.collNow)
  ({ s with mem := { s.mem with collNow := 0 } } : State).acuEvents

/-- Slot 0 of a tick (R205, R206, R37): the plans take effect, the inputs are latched, the servo measures, the counts advance. -/
def State.boundary (s : State) (readings : List Int) (pOut margin steps : Nat) (lanes : List (List Nat)) : State :=
  let s := (s.laneCounts lanes).tickEvents.turnTick
  let s := (s.measure 0).measure 1
  let s := (((s.shiftPlans 0).shiftPlans 1).lanesTick 0).lanesTick 1
  let s := ((s.linkLimits 0).linkLimits 1).keyTurns 0 |>.keyTurns 1 |>.keyRetires 0 |>.keyRetires 1
  let s := (s.burstEnds 0).burstEnds 1
  let s := s.svcListen
  let s : State := { s with plan := { s.plan with
    inForce := s.plan.shadow.getD s.plan.inForce
    shadow := none
    due := true
    silent := s.plan.silent + 1
    autonomy := min 255 (s.plan.autonomy + 1) } }
  let s := ((((s.feedPower pOut).takeForce .tick).budgetPd 0).recEnable.latch (fitInts readings)).svcWake.latchService
  let s := s.newSamples.planEvents.thermEvent
  let s := ((s.enterPlanned.idleWatch).avs margin steps).bodyBias.corePower
  let s := ((s.linkTick 0).linkTick 1).pcieTick.netTick.svcTick.sbTick.noteCorrected
  let s : State := { s with
    mbx := { s.mbx with sinceAttn := s.mbx.sinceAttn + 1 }
    boot := { s.boot with sinceWdt := s.boot.sinceWdt + 1 }
    sw := { s.sw with drops := 0, pushes := 0, cutLast := s.sw.cutNow, cutNow := List.replicate 16 0 }
    cable := { s.cable with paths := s.cable.paths.filter fun r => r.phase != 2 } }
  let (v, s) := s.draw
  if s.cv Fld.REC_OUTPUT == 1 then s.spore 10 0 (leBytes 8 v) else s
where
  fitInts (l : List Int) : List Int := (upTo 8).map fun k => nth l k 0

/-! ### Slot 31 -/

/-- Local demand frozen for tick n + 2, with what cut through toward a RELAY's DOWN cable in the last tick (R214), and a spore for each class of a port whose value has changed (Table 2.2, Table 20.10). -/
def State.freeze (s : State) : State :=
  let n := s.time.tick.toNat
  let cut := fun (j c : Nat) => if s.topo.role == .relay && s.role j == .down then nth s.sw.cutLast (swIdx j c) 0 else 0
  let cells := (upTo 12).flatMap fun j => (upTo 8).map fun c => s.depth j c + cut j c
  let old := match s.plan.frozen.find? fun f => f.target == n + 1 with
    | some f => f.cells
    | none => List.replicate 96 0
  let s : State := { s with plan := { s.plan with
    frozen := (s.plan.frozen.filter fun f => n < f.target && f.target != n + 2) ++ [⟨n + 2, cells⟩] } }
  ((upTo 96).filter fun i => nth cells i 0 != nth old i 0).foldl (fun s i =>
    s.spore 5 (i / 8) (leBytes 1 (i % 8) ++ leBytes 2 (nth cells i 0))) s

/-- LANE_REQ of a lane (Table 6.7): what this end asks of the tick master. -/
def laneReq (l : LaneSt) : Nat :=
  if l.ask != 0 then l.ask
  else
    match l.recal with
    | some r => if r.step == 0 then (if r.force || r.trig == 4 then 2 else 1) else 0
    | none =>
      match l.test with
      | some t => if t.started then 0 else 6
      | none => 0

/-- The demand report of an UP port for tick n + 2 (R169). -/
def State.report (s : State) (p : Nat) : Demand :=
  let n := s.time.tick.toNat
  let act := s.activeContracts
  let a := match (s.alignOf p).align with
    | .locked => 0
    | .drift => 1
    | _ => 2
  ⟨n + 2, a, (s.link p).missed, (s.cpx p).lanes.map laneReq,
    (upTo 8).map fun c => total ((act.filter fun x => x.cls == c).map fun x => contractOut x p),
    (upTo 8).map fun c => s.backlog (n + 2) p c⟩

/-- The DEMAND cell sent, twice, by an UP port that runs plans (R169). -/
def State.sendDemand (s : State) (p : Nat) : State :=
  if s.role p == .up && s.plans p then
    let d := s.report p
    (s.setCpx p fun c => { c with lanes := c.lanes.map fun (l : LaneSt) => { l with ask := 0 } }).sendTwice p 5 (demandPayload d)
  else s

/-! ### Slots 40 and 200 -/

def State.storeFor (s : State) (p : Nat) (pl : Plan) : State :=
  let n := s.time.tick.toNat
  s.setLink p fun l => l.storePlan n pl

/-- The demand report that the master holds for a tick. -/
def State.reportOf (s : State) (p target : Nat) : Option Demand := (s.link p).demand.bind fun d => if d.target == target then some d else none

/-- A tick of a port that the master runs as the fixed plan under R169: it joins the burst. -/
def State.fixTick (s : State) (p : Nat) (t : Tick) : State :=
  (s.storeFor p (s.ownFixedPlan p t.toNat)).setLink p fun l => { l with burst := if l.burst.contains t then l.burst else l.burst ++ [t] }

/-- MISSED in the report for the tick `target` names the tick before it: the master runs that as the fixed plan (R169). -/
def State.missedTick (s : State) (p target : Nat) : State :=
  if (s.reportOf p target).any (·.missed) then s.fixTick p (s.time.tick + 1) else s

/-- A port's plan for a tick is the fixed plan because its UP port is not LOCKED (R37). -/
def State.notLocked (s : State) (p target : Nat) : Bool := (s.reportOf p target).any fun d => d.align != 0

/-- The master's plan of a port as the energy steps left it, stored with what it came to (R209 to R217). -/
def State.finishBuild (s : State) (target : Nat) (before : List (Nat × List Nat)) (ans : EnergyAns) (b : Build) : State :=
  let b := s.enterL1d b
  let cut := ((before.find? fun x => x.1 == b.port).map (·.2)).getD []
  let info : LaneInfo := ⟨target, b.capStep, ans.step, cut, b.cutIds.filter fun i => !cut.contains i, ans.excess⟩
  let s := (s.noteLanes target b ans.moved).storeFor b.port (s.planOf target b)
  { s with plan := { s.plan with infos := s.plan.infos.modify b.port fun l => (l.filter fun i => i.target != target) ++ [info] } }

/-- Slot 40 (R209, R169): the lane plans of tick n + 2 at the ports of which this hub is the tick master, CP1's and CP0's; fixed without a
report for that tick, or while the UP port is not LOCKED. -/
def State.buildLanes (s : State) : State :=
  let target := s.time.tick.toNat + 2
  let mine := [1, 0].filter fun p => s.isMaster p && s.plans p
  let s := mine.foldl (fun s p => s.missedTick p target) s
  let fixed := mine.filter fun p => (s.reportOf p target).isNone || s.notLocked p target
  let s := fixed.foldl (fun s p =>
    if (s.reportOf p target).isNone then s.fixTick p (s.time.tick + 2) else s.storeFor p (s.ownFixedPlan p target)) s
  let free := mine.filter fun p => !fixed.contains p
  let bs := free.map fun p => s.startBuild p target
  let s := bs.foldl (fun s b => if s.plansBusy b.port target b then s.restartWait b.port else s) s
  let before := bs.map fun b => (b.port, b.cutIds)
  let ans := s.energySteps target bs s.wantSlices
  ans.builds.foldl (fun s b => s.finishBuild target before ans b) s

/-- Slot 200 (R32, R167): the TICK cell of a port, repeating the plan of n + 1 where none was completed. -/
def State.sendTick (s : State) (p : Nat) : State :=
  if !(s.isMaster p && s.plans p) then s
  else
    let n := s.time.tick.toNat
    match (s.link p).planFor (n + 2) with
    | some pl => s.sendPlan p pl
    | none =>
      let next := ((s.link p).planFor (n + 1)).getD (s.ownFixedPlan p (n + 1))
      let pl : Plan := { next with target := n + 2, repeated := true }
      ((s.storeFor p pl).raise 12 0).sendPlan p pl

/-- Slot 240 (R34): an UP port without a plan for n + 2 chooses the fixed plan and marks its next demand report. -/
def State.tickDeadline (s : State) (p : Nat) : State :=
  let n := s.time.tick.toNat
  if !(s.role p == .up && s.plans p) then s
  else
    match (s.link p).planFor (n + 2) with
    | some _ => s.setLink p fun l => { l with missed := false }
    | none =>
      (s.storeFor p (s.ownFixedPlan p (n + 2))).setLink p fun l => { l with
        missed := true, missedCnt := satAdd 32 l.missedCnt 1 }

end Sys2Proof.Machine
end

