-- ==== Sys2Proof/Machine/Lanes.lean ====
section
/-! DEFINITION. The commands of the cable lanes (spec/05): training, turnarounds and slips, re-calibration, tests and injection. -/

namespace Sys2Proof.Machine

/-! ### Training -/

/-- LANE_TRAINING_START (R125): the multiplexer connects CPX, and training starts at DETECT. -/
def execLaneTrainingStart (port : Nat) (s : State) : Out :=
  run s fun s =>
    if 1 < port || s.linkUp port || s.bringupOver port then s
    else (s.startTraining port).setCpx port fun c => { c with restarts := 0 }

/-- TRAINING_STEP_END (R125, R126, R584): the step in progress ends with each lane's result; step 2 brings the peer's settings. -/
def execTrainingStepEnd (port : Nat) (res : List LaneRes) (peer : PeerLane) (s : State) : Out :=
  run s fun s => if s.phyOut port then s else s.trainStep port res peer

/-- TRAINING_RESTART_DELAY (Table 5.6, step 2): after 100 ms the port restarts step 1. -/
def execTrainingRestartDelay (port : Nat) (s : State) : Out :=
  run s fun s => 
    let c := s.cpx port
    if port ≤ 1 && c.step == 8 && s.passed c.since (msTicks 100) && s.time.holdover != 2 then s.startTraining port else s

/-- FLOOR_RETRAIN (R136): 1 s after its lanes entered FLOOR a port retrains from step 1; a link that is up closes with cause RETRAIN (DEDUCED, log
entry 35). -/
def execFloorRetrain (port : Nat) (s : State) : Out :=
  run s fun s =>
    if 1 < port || !((s.cpx port).lanes.any fun l => l.state == .floor) || !(s.passed (s.cpx port).floorAt (secTicks 1)) then s
    else (if s.linkUp port then s.closeLink port 11 else s).startTraining port

/-! ### Turnarounds and slips (R114 to R118) -/

/-- The plan in force turns a lane round in this tick: some segment runs against the direction that the lane has now. Lanes in FLOOR run the T
pattern (R137). -/
def State.turnsNow (s : State) (p k : Nat) : Bool :=
  let l := s.lane p k
  let segs := nth (((s.link p).plan0.map (·.lanes)).getD []) k []
  l.state == .floor || (l.state == .l0 && !l.turnHold && l.use == 0 && segs.any fun g => g.mode == b2n l.forward)

/-- TURNAROUND (R114, R115, R128): a lane in L0 or FLOOR changes direction where its plan has a turnaround; none takes place at G1, under
TURN_HOLD, or on a lane limited to one direction. The end that stops receiving stores what its receiver has adapted; the end that starts
loads its stored state, counts the turnaround, and takes data again. -/
def execTurnaround (port lane : Nat) (adapted : RxState) (s : State) : Out :=
  run s fun s =>
    if 1 < port || 3 < lane || (s.link port).gen1 || !(s.turnsNow port lane) then s
    else
      s.setLane port lane fun l =>
        let idx := rateIdx l.rate
        if l.forward == (s.txDir port == 1) then
          { l with forward := !l.forward, rx := boundRx adapted, eqs := l.eqs.modify idx fun e => { e with rx := boundRx adapted } }
        else
          { l with
            forward := !l.forward
            discard := false
            rx := if idx < 3 then (nth l.eqs idx .init).rx else l.rx
            cnt := { l.cnt with turns := satAdd 32 l.cnt.turns 1 } }

/-- SOS_WINDOW_MISS (R116 to R118): a slip; the lane's data is discarded until the next run into it, and SLIP_LIMIT slips within 32
ticks set TURN_HOLD and ask for a re-calibration. -/
def execSosWindowMiss (port lane cause : Nat) (s : State) : Out :=
  run s fun s =>
    let l := s.lane port lane
    if 1 < port || 3 < lane || !(l.state == .l0 || l.state == .l0s || l.state == .floor) then s
    else
      let now := s.time.tick
      let recent := (l.slipTicks.filter fun t => tickDiff now t < 32) ++ [now]
      let tell : Bool := match l.slipEv with
        | some t => 32 ≤ tickDiff now t
        | none => true
      let hold := s.cv Fld.SLIP_LIMIT ≤ recent.length && !l.turnHold
      let s := s.setLane port lane fun l => { l with
        discard := true
        slipTicks := if hold then [] else recent
        slipEv := if tell then some now else l.slipEv
        turnHold := l.turnHold || hold
        cnt := { l.cnt with slips := satAdd 32 l.cnt.slips 1 } }
      let s := (if tell then s.laneEv port 21 (lane + 4 * (cause % 4)) else s).dropCoach port lane
      if hold then s.autoRecal port lane 2 else s

/-- SIGNAL_LOSS (R139): every lane OFF, EV023, and the link closes with cause 1. -/
def execSignalLoss (port : Nat) (s : State) : Out :=
  run s fun s => if 1 < port || !s.linkUp port then s else (s.laneEv port 23 0).closeLink port 1

/-- L1X_COMPLETE (R121, R122): in the sixth tick of L1X the lane has re-acquired and is in L0S until the plan takes it; one that has not
asks for a re-calibration, and enters CAL at the tick in which it would have entered L0. -/
def execL1xComplete (port lane : Nat) (ok : Bool) (s : State) : Out :=
  run s fun s =>
    let l := s.lane port lane
    let done := l.ready.any fun t => reached s.time.tick (t - 1)
    if 1 < port || 3 < lane || l.state != .l1x || !done then s
    else if ok then s.setLane port lane fun l => { l with state := .l0s }
    else (s.setLane port lane fun l => { l with cause := causeL1x }).autoRecal port lane 3

/-! ### Re-calibration (R129 to R135) -/

/-- A trigger of R129 holds at this end's receiver: more than one corrected symbol in 10^RECAL_SER_E over 64 ticks (0), the port's sensor
more than RECAL_TEMP_DELTA_C from its reading at the last calibration (1), or RETIRE_UCW_LIMIT uncorrectable codewords in 64 ticks (4). -/
def State.recalTrips (s : State) (p k trig : Nat) : Bool :=
  let l := s.lane p k
  let rx := total (l.hist.map fun h => h.1)
  let cor := total (l.hist.map fun h => h.2.1)
  let unc := total (l.hist.map fun h => h.2.2)
  match trig with
  | 0 => l.hist.length == 64 && rx < cor * 10 ^ s.cv Fld.RECAL_SER_E
  | 1 => 10 * s.cv Fld.RECAL_TEMP_DELTA_C < (s.portTemp p - l.calTemp).natAbs
  | 4 => s.cv Fld.RETIRE_UCW_LIMIT ≤ unc
  | _ => false

/-- RECAL_TRIGGER (R129): symbol errors (0), temperature (1) or uncorrectable codewords (4) at this end. -/
def execRecalTrigger (port lane trig : Nat) (s : State) : Out :=
  run s fun s =>
    let l := s.lane port lane
    if 1 < port || 3 < lane || !laneServes l || l.state == .train || !(s.recalTrips port lane trig) then s
    else s.autoRecal port lane trig

/-- RECAL_DEFER_EXPIRY (R132): a re-calibration or a test has been held back for RECAL_DEFER_MS. -/
def execRecalDeferExpiry (port lane : Nat) (s : State) : Out :=
  run s fun s =>
    let due := fun (since : Tick) => s.passed since (msTicks (s.cv Fld.RECAL_DEFER_MS))
    if 1 < port || 3 < lane || !(s.heldBack port lane) then s
    else s.setLane port lane fun l => { l with
      recal := l.recal.map fun r => if r.step == 0 && due r.since then { r with expired := true } else r
      test := l.test.map fun t => if !t.started && due t.since then { t with expired := true } else t }

/-- A re-calibration that ended with the lane usable (R135): PASS, or at H, or limited to the direction that did not fail (R134). The lane
stays in CAL until the plan takes it up. -/
def State.recalPassed (s : State) (p k : Nat) (r : Recal) : State :=
  let l := s.lane p k
  let one := !r.fwdOk || !r.revOk
  let use := if one then (if r.fwdOk then 1 else 2) else if r.restore then 0 else l.use
  let rate : Rate := if r.atH || l.rate != .f || one then .h else .f
  let fell := rate == .h && l.rate == .f
  let keepsF := rate == .f || (!r.restore && !r.atH && !one)
  let ready := s.readyTick
  let temp := s.portTemp p
  let s := s.setLane p k fun l => { l with
    use := use, rate := rate, hTrained := true, turnHold := false, calTemp := temp, cause := if one then r.why else l.cause
    fFwd := if rate == .f then true else l.fFwd && keepsF, fRev := if rate == .f then true else l.fRev && keepsF
    rx := (nth l.eqs (rateIdx rate) .init).rx, ready := some ready, slipTicks := [], hist := [] }
  let s := if one && l.use != use then s.laneEv p 20 (k + 256 * use + 65536 * r.why) else s
  let s := s.endRecal p k (if one then 2 else if r.atH then 1 else 0)
  let s := if r.restore then s.laneEv p 16 (k + 16 * rateCode rate + 256 * use)
    else if fell then s.laneEv p 18 (k + 16) else s
  if r.restore || one then s.ctl p ctlLaneNotice [k, b2n r.restore, use] else s

/-- The next step, or the end, of a re-calibration with nothing left to fail. -/
def State.recalOn (s : State) (p k : Nat) : State :=
  match (s.lane p k).recal with
  | none => s
  | some r =>
    if r.step < 4 then s.setLane p k fun l => { l with recal := l.recal.map fun r => { r with step := r.step + 1 } }
    else s.recalPassed p k r

/-- The directions in which a re-calibration runs: both for a restoration (R138), otherwise those that the lane is not limited away from. -/
def recalDirs (l : LaneSt) (r : Recal) : Bool × Bool :=
  (r.fwdOk && (r.restore || l.use != 2), r.revOk && (r.restore || l.use != 1))

/-- A re-calibration fails (R134): at F once more at H; at H the failing directions are lost. -/
def State.recalFails (s : State) (p k : Nat) (r : Recal) (f v : Bool) (why : Nat) : State :=
  let l := s.lane p k
  if l.rate == .f && !r.atH then
    s.setLane p k fun l => { l with recal := l.recal.map fun r => { r with step := 1, atH := true, fwdOk := true, revOk := true } }
  else
    let (goF, goV) := recalDirs l r
    let okF := goF && !f
    let okV := goV && !v
    let now := s.time.tick
    if !okF && !okV then
      let s := s.setLane p k fun l => { l with rate := .none, use := 3, cause := why }
      let s := (s.endRecal p k 3).setLane p k fun l => l.gone now
      let s := (s.laneEv p 20 (k + 256 * 3 + 65536 * why)).ctl p ctlLaneNotice [k, 0, 3]
      s.floorCheck p
    else
      (s.setLane p k fun l => { l with recal := l.recal.map fun r => { r with fwdOk := okF, revOk := okV, why := why } }).recalOn p k

/-- What an equalisation step of a re-calibration settles for a rate: in a direction that this end sends, its FFE and precoding; in the
other, its receive state and its own request (R111, R127). -/
def State.settleDir (s : State) (p k idx dir : Nat) (e : EqRes) : State :=
  let old := nth (s.lane p k).eqs idx .init
  s.settleEq p k idx (if s.txDir p == dir then { e with rx := old.rx } else { e with ffe := old.ffe, precTx := old.precTx })

/-- An equalisation step's settings at the rate of the re-calibration and, for a lane at F, those of its H state (R133). -/
def State.settleStep (s : State) (p k dir : Nat) (r : Recal) (res : LaneRes) : State :=
  let atF := (s.lane p k).rate == .f && !r.atH
  let s := match res.eqH with
    | some e => if atF then s.settleDir p k 1 dir e else s
    | none => s
  match res.eq with
  | some e => s.settleDir p k (if atF then 0 else 1) dir e
  | none => s

/-- The step that a re-calibration is in ends with the lane's result (R133, Table 5.9); it waits while no other lane carries the coefficient
requests (R130). -/
def State.recalStep (s : State) (port lane : Nat) (res : LaneRes) : State :=
  let l := s.lane port lane
  match l.recal with
  | none => s
  | some r =>
    if 1 < port || 3 < lane || l.state != .cal || r.step == 0 || !(s.recalCond port lane) then s
    else
      let s := s.setLane port lane fun l => { l with recal := l.recal.map fun r => { r with micros := r.micros + res.micros } }
      let r : Recal := { r with micros := r.micros + res.micros }
      let s := if r.step ≤ 2 then s.settleStep port lane (r.step - 1) r res else s
      let (goF, goV) := recalDirs l r
      let f := goF && !res.fwd && r.step != 2
      let v := goV && !res.rev && r.step != 1
      if r.step == 4 then
        let s := s.setLane port lane fun l => { l with flight := res.flight }
        if goF && goV && (12000 < res.flight || res.slip) then s.recalFails port lane r true true causeTurn else s.recalOn port lane
      else if f || v then s.recalFails port lane r f v (if r.step == 3 then causeVerify else causeEq)
      else s.recalOn port lane

/-- RECAL_STEP_END (R133, R134): EQ forward, EQ reverse, VERIFY or TURN_CAL of a lane in CAL ends. -/
def execRecalStepEnd (port lane : Nat) (res : LaneRes) (s : State) : Out :=
  run s fun s => if s.phyOut port then s else s.recalStep port lane res

/-- LANE_RESTORE_RETRY (R138): every LANE_RETRY_S the lanes of a port that are retired, whole or in one direction, are restored, but for those
that only a command or their mask bit brings back. -/
def execLaneRestoreRetry (port : Nat) (s : State) : Out :=
  run s fun s =>
    let wait := s.cv Fld.LANE_RETRY_S
    if 1 < port || wait == 0 || (s.link port).gen1 || !(s.passed (s.cpx port).retryAt (secTicks wait)) then s
    else
      let now := s.time.tick
      fourLanes.foldl (fun s k =>
        let l := s.lane port k
        let limited := l.use == 1 || l.use == 2
        if firmCause l.cause || l.recal.isSome then s
        else if l.state == .retired then s.restoreLane port k 5 none
        else if limited && s.linkUp port && laneServes l && l.state != .train then s.restoreLane port k 5 none
        else s) (s.setCpx port fun c => { c with retryAt := now })

/-! ### Tests (R140) -/

/-- PRBS_TEST_END (R140): the test's ticks are over, or a command has ended it; the completion carries both ends' counts for the directions that
were tested. The lane waits for the plan; one of a generation-1 link, or in FLOOR, goes back at once (DEDUCED, log entry 67). -/
def execPrbsTestEnd (port lane : Nat) (counts : List Nat) (s : State) : Out :=
  run s fun s =>
    let half := fun (o : Nat) =>
      leBytes 8 (nth counts o 0) ++ leBytes 8 (nth counts (o + 1) 0) ++ leBytes 8 (nth counts (o + 2) 0)
        ++ leBytes 4 (nth counts (o + 3) 0) ++ zeros 4
    match (s.lane port lane).test with
    | none => s
    | some t =>
      if 1 < port || 3 < lane || !t.started || !(t.ticks ≤ t.ran || t.stop.isSome) then s
      else
        let ready := s.readyTick
        let data := (if t.dir == 1 then zeros 32 else half 0) ++ (if t.dir == 0 then zeros 32 else half 4)
        (s.endTest port lane 0 data).setLane port lane fun l => { l with
          inject := none
          state := if l.rate == .g1 then .l0 else if l.rate == .t then .floor else l.state
          ready := if l.rate == .g1 || l.rate == .t then none else some ready }

/-! ### Commands (R143) -/

/-- The port and lane that a request names. -/
def laneArgOk (rq : Req) : Bool := arg rq 0 1 ≤ 1 && arg rq 1 1 ≤ 3

/-- LINK_LANE_SHOW (Table 5.12). -/
def execLinkLaneShow (rq : Req) (s : State) : Out :=
  command Cmd.linkLaneShow 2 rq s fun _ s =>
    if !(laneArgOk rq) then .fail s .badState
    else
      let l := s.lane (arg rq 0 1) (arg rq 1 1)
      let c := l.cnt
      .show s (leBytes 1 (laneCode l.state) ++ leBytes 1 (rateCode l.rate) ++ leBytes 1 (if l.state == .off then 3 else l.use)
        ++ leBytes 1 (packBits [l.eq.precTx, l.eq.precRx, l.hTrained, l.recal.any fun r => r.step == 0, l.turnHold])
        ++ leBytes 1 l.cause ++ zeros 1 ++ leBytes 2 l.flight
        ++ leBytes 8 c.rxSym ++ leBytes 8 c.corSym ++ leBytes 8 c.corCw ++ leBytes 8 c.uncCw
        ++ leBytes 4 c.turns ++ leBytes 4 c.slips ++ leBytes 4 c.l0s ++ leBytes 4 c.l1d ++ leBytes 4 c.recals ++ leBytes 4 c.fails
        ++ leInt 2 l.calTemp ++ zeros 2 ++ (upTo 5).flatMap (fun k => leInt 1 (nth l.eq.ffe k 0))
        ++ leBytes 1 l.rx.ctle ++ leBytes 1 l.rx.vga ++ leInt 1 l.rx.dfe ++ zeros 4)

/-- LINK_LANE_PRBS (R140): a test started, or with pattern 0 the running one ended early. -/
def execLinkLanePrbs (rq : Req) (s : State) : Out :=
  command Cmd.linkLanePrbs 8 rq s fun h s =>
    let p := arg rq 0 1
    let k := arg rq 1 1
    let pattern := arg rq 2 1
    let dir := arg rq 3 1
    let ticks := arg rq 4 2
    let l := s.lane p k
    if !(laneArgOk rq) || 3 < pattern then .fail s .badState
    else if pattern == 0 then
      match l.test with
      | none => .fail s .badState
      | some t =>
        if !t.started then .long (s.endTest p k 0 (zeros 64)) (some (0, zeros 64))
        else .long (s.setLane p k fun l => { l with test := l.test.map fun t => { t with stop := some (rq.via, h) } }) none
    else if l.test.isSome then .fail s .busy
    else if 2 < dir || ticks == 0 || !(laneServes l || l.state == .floor) || l.state == .train then .fail s .badState
    else
      let t : LaneTest := {
        pattern := pattern, dir := dir, ticks := ticks, force := bitAt (arg rq 6 2) 0, job := some (rq.via, h), stop := none,
        started := false, ran := 0, since := s.time.tick, expired := false }
      .long (s.setLane p k fun l => { l with test := some t }) none

/-- LINK_LANE_INJECT (R141): injection started or stopped on this end's transmitter. -/
def execLinkLaneInject (rq : Req) (s : State) : Out :=
  command Cmd.linkLaneInject 12 rq s fun _ s =>
    let p := arg rq 0 1
    let k := arg rq 1 1
    let mode := arg rq 2 1
    let symbols := arg rq 3 1
    let interval := arg rq 4 4
    let l := s.lane p k
    let fits := (mode == 1 && l.state == .test) || (mode == 2 && l.state == .l0) || (mode == 3 && l.state == .l0)
    if !(laneArgOk rq) then .fail s .badState
    else if mode == 0 then .done (s.setLane p k fun l => { l with inject := none })
    else if !fits || interval == 0 || (mode == 2 && (symbols == 0 || 16 < symbols)) then .fail s .badState
    else .done (s.setLane p k fun l => { l with inject := some ⟨mode, symbols, interval, arg rq 8 4, 0, 0⟩ })

/-- LINK_LANE_RECAL (R129 to R131): EV022 with trigger 5; refused where R130 does not hold. -/
def execLinkLaneRecal (rq : Req) (s : State) : Out :=
  command Cmd.linkLaneRecal 4 rq s fun h s =>
    let p := arg rq 0 1
    let k := arg rq 1 1
    let l := s.lane p k
    if !(laneArgOk rq) || !laneServes l || l.state == .train || (s.link p).gen1 || !(s.recalCond p k) then .fail s .badState
    else .long ((s.laneEv p 22 (k + 16 * 5)).queueRecal p k 5 (bitAt (arg rq 2 1) 0) false (some (rq.via, h))) none

/-- LINK_LANE_RETIRE (R136): a lane or a direction; without FORCE not one that would enter FLOOR. -/
def execLinkLaneRetire (rq : Req) (s : State) : Out :=
  command Cmd.linkLaneRetire 4 rq s fun _ s =>
    let p := arg rq 0 1
    let k := arg rq 1 1
    let what := arg rq 2 1
    if !(laneArgOk rq) || 2 < what then .fail s .badState
    else if !(bitAt (arg rq 3 1) 0) && s.linkUp p && s.retireFloors p k what then .fail s .badState
    else
      let asks := s.role p == .up && s.linkUp p
      let s := s.retire p k what causeCommand true
      .done (s.setLane p k fun l => { l with ask := if asks then (if what == 0 then 5 else what + 2) else l.ask })

/-- LINK_LANE_RESTORE (R138). -/
def execLinkLaneRestore (rq : Req) (s : State) : Out :=
  command Cmd.linkLaneRestore 2 rq s fun h s =>
    let p := arg rq 0 1
    let k := arg rq 1 1
    let l := s.lane p k
    if !(laneArgOk rq) || l.state != .retired || !(bitAt (s.applied (laneMaskFld p)) k) then .fail s .badState
    else if !s.linkUp p then .done (s.restoreLane p k 5 none)
    else if (s.link p).gen1 || !(s.recalCond p k) then .fail s .badState
    else if !(bitAt (s.cpx p).peer.mask k) then
      .long s (some (0, leBytes 1 3 ++ leBytes 1 (rateCode l.rate) ++ leBytes 1 (if l.state == .off then 3 else l.use) ++ zeros 1 ++ leBytes 4 0))
    else .long (s.restoreLane p k 5 (some (rq.via, h))) none

/-- LINK_LANE_CLEAR (R143): the counters of one lane, or of all. -/
def execLinkLaneClear (rq : Req) (s : State) : Out :=
  command Cmd.linkLaneClear 2 rq s fun _ s =>
    let p := arg rq 0 1
    let k := arg rq 1 1
    let clear := fun (s : State) (k : Nat) => s.setLane p k fun l => { l with cnt := .init }
    if 1 < p || (3 < k && k != 0xFF) then .fail s .badState
    else .done (if k == 0xFF then fourLanes.foldl clear s else clear s k)

end Sys2Proof.Machine
end

