-- ==== Sys2Proof/Machine/Link.lean ====
section
/-! DEFINITION. The commands of the Latre link (spec/06): cells, plans and time stamps received, election, keys, paths, timeouts and
the link's mailbox commands. -/

namespace Sys2Proof.Machine

/-! ### Cells and coaches -/

/-- A failure on a port, counted for EV028, which is raised when the tick ends (R158). -/
def State.authFail (s : State) (p : Nat) : State :=
  let now := s.time.tick
  s.setLink p fun l => { l with authTick := bumpTick now l.authTick, tagFails := satAdd 64 l.tagFails 1 }

/-- A poisoned coach counted for EV029, which is raised when the tick ends (R158). -/
def State.poisonSeen (s : State) (p : Nat) : State :=
  let now := s.time.tick
  s.setLink p fun l => { l with poisTick := bumpTick now l.poisTick, poisoned := satAdd 64 l.poisoned 1 }

/-- A header that passes (R147): its HCRC holds and its LEN is not reserved. -/
def cellOk (c : Cell) : Bool := c.hcrc == hcrcOf c && c.len ≤ 256 && c.payload.length == c.len

/-- The counter value of a direction that has been seen last, at least. -/
def State.sawCounter (s : State) (p ctr : Nat) (old : Bool) : State :=
  if old then s else s.setLink p fun l => { l with rx := { l.rx with counter := max l.rx.counter (ctr + 1) } }

/-- A cell of KIND 2 to 6 with what follows it: its own tag under the link's key, or the trailer of R159 (R157, R158). A link-control cell takes
its place in the order of label 1 (R152); what its message does, and what a CREDIT, TICK, DEMAND or TIME_SYNC cell does, is the command of
that name. A cell whose trailer fails is discarded and not counted (DESIGN CHOICE, log entry 66). -/
def State.takeOwn (s : State) (p : Nat) (x : RxCell) (tag : List Byte) : State :=
  let l := s.link p
  let good := if l.sealed then tag == ownTag (l.rxKey x.old) x.ctr x.cell else tag == plainTrailer x.cell
  if !good then (if l.sealed then s.authFail p else s)
  else
    let s := if l.sealed then s.sawCounter p x.ctr x.old else s
    if x.cell.kind == 2 then s.inOrder p x.lane false x.cell else s

/-- A cell of KIND 0 or 1 on a lane: it belongs to the coach in progress there by its CIDX, or begins one; a coach that has lost a cell is
discarded whole (R147), and so is one beyond the 64 that an input holds (R185). Its label must be 2, or have a valid entry of its class (R148, R150): one that does not is discarded and counted, and stands
in its coach for the tag alone. -/
def State.takeCoach (s : State) (p : Nat) (x : RxCell) : State :=
  let c := x.cell
  let n := (s.coachRx p x.lane).length
  let s := if 0 < n && c.cidx != n then s.dropCoach p x.lane else s
  if c.cidx != 0 && c.cidx != n then s
  else if c.cidx == 0 && 64 ≤ nth s.sw.pendCoach p 0 then s
  else if !(kindOk c) then (s.setLink p fun l => { l with hdrErrs := l.hdrErrs + 1 }).joinCoach p x
  else if c.path == 2 then s.takeData p x
  else
    match (s.link p).entry c.path with
    | none => (s.setLink p fun l => { l with noEntry := l.noEntry + 1 }).joinCoach p x
    | some e =>
      if e.suspended then (s.setLink p fun l => { l with noEntry := l.noEntry + 1 }).joinCoach p x
      else if e.tc != c.tc then (s.setLink p fun l => { l with hdrErrs := l.hdrErrs + 1 }).joinCoach p x
      else s.takeData p x

/-- A cell whose header has passed (R148). Before the session keys are installed the link carries no cell of KIND 0 or 1 (R159). -/
def State.takeCell (s : State) (p : Nat) (x : RxCell) (tag : List Byte) : State :=
  let c := x.cell
  if c.kind ≤ 1 then (if (s.link p).keysIn then s.takeCoach p x else s)
  else if !(kindOk c) then s.setLink p fun l => { l with hdrErrs := l.hdrErrs + 1 }
  else if c.kind == 7 then s
  else s.takeOwn p x tag

/-- What a lane's receiver is hunting for: none where it is not. -/
def LinkSt.huntOf (l : LinkSt) (lane : Nat) : Option (Option (RxCell × List Byte)) := (l.hunt.find? fun h => h.1 == lane).map (·.2)

def LinkSt.setHunt (l : LinkSt) (lane : Nat) (h : Option (Option (RxCell × List Byte))) : LinkSt :=
  { l with hunt := (l.hunt.filter fun x => x.1 != lane) ++ (h.map fun y => (lane, y)).toList }

/-- A lane loses its cell boundary (R147): the coach on it is discarded whole, and it hunts for two headers in a row. -/
def State.loseBoundary (s : State) (p lane : Nat) : State :=
  (s.dropCoach p lane).setLink p fun l => l.setHunt lane (some none)

/-- CELL_RECEIVE (R112, R147 to R152): a cell, with the symbol errors of the codewords that it overlaps, the counter value and index under which
it was sent, and what followed it. A cell that fails costs its coach, and the lane hunts: only after two valid headers, the second at the offset
that the first gives, does it take cells again, from the first of them on. -/
def execCellReceive (port lane : Nat) (c : Cell) (errs : List Nat) (ctr : Nat) (old : Bool) (tag : List Byte) (s : State) : Out :=
  run s fun s =>
    let x : RxCell := ⟨lane, ctr, old, c⟩
    if 1 < port || 3 < lane || (s.lane port lane).discard then s
    else if !(cellOk c) || errs.any (15 < ·) then s.loseBoundary port lane
    else
      match (s.link port).huntOf lane with
      | none => s.takeCell port x tag
      | some (some (y, t)) => ((s.setLink port fun l => l.setHunt lane none).takeCell port y t).takeCell port x tag
      | some none =>
        -- the header of a cell that a tag follows is not followed by a header
        if c.kind == 0 || c.kind == 7 then s.setLink port fun l => l.setHunt lane (some (some (x, tag))) else s

/-- COACH_RECEIVE (R147, R158, R164, R165): the tag that follows a close cell verifies or not; POISON of the close cell. A tag that is not whole has
been lost to an uncorrectable codeword. -/
def execCoachReceive (port lane : Nat) (tag : List Byte) (s : State) : Out :=
  run s fun s =>
    match (s.coachRx port lane).getLast? with
    | none => s
    | some x =>
      if 1 < port || 3 < lane then s
      else if tag.length != 16 then s.loseBoundary port lane
      else if x.cell.kind != 1 then s.dropCoach port lane
      else if !(s.coachOk port lane tag) then (s.authFail port).dropCoach port lane
      else
        let s := if (s.link port).sealed then s.sawCounter port x.ctr x.old else s
        if x.cell.poison then (s.poisonSeen port).dropCoach port lane else s.passCoach port lane

/-- One entry of a CREDIT cell (R153 to R155); the limits of labels 1 and 2 are ignored. -/
def State.creditEntry (s : State) (p : Nat) (e : CreditEntry) : State :=
  if !(s.linkUp p) && e.label != 1 then s
  else
    match (s.link p).flow e.label with
    | none => s
    | some _ =>
      let s := s.setLink p fun l => l.setFlow e.label fun f => { f with limit := if e.label < 16 then f.limit else e.limit % 65536 }
      if e.nak then
        let (spent, s) := (s.acked p e.label ((e.ack + seqMod - 1) % seqMod)).replayFrom p e.label (e.ack % seqMod)
        if spent then (s.linkEv p 30 e.label).closeLink p 2 else s
      else s.acked p e.label (e.ack % seqMod)

/-- CREDIT_CELL (R154, R155). -/
def execCreditCell (port : Nat) (es : List CreditEntry) (s : State) : Out :=
  run s fun s => if 1 < port then s else (es.take 31).foldl (fun s e => s.creditEntry port e) s

/-! ### Plans and demand -/

/-- TICK_CELL (R166, R167, R34): an UP port stores a valid plan for a tick ahead that it does not hold; a copy after slot 240 is
ignored. The hub's depth follows the master's (R18). -/
def execTickCell (port : Nat) (plan : Plan) (s : State) : Out :=
  run s fun s =>
    let n := s.time.tick.toNat
    if 1 < port || s.role port != .up || (s.link port).gen1 then s
    else if !(s.planOk port plan) then s
    else
      let s := s.setLink port fun l => { l with sinceTick := 0, masterLost := false }
      let s := s.spore 3 port (planBytes plan)
      let s : State := { s with topo := { s.topo with depth := min 15 (plan.depth + 1) } }
      let held := ((s.link port).planFor plan.target).isSome
      if plan.target ≤ n || n + 2 < plan.target || held || 240 < s.time.slot then s else s.storeFor port plan

/-- A lane request of the peer's report (Table 6.7). -/
def State.peerAsks (s : State) (p k req : Nat) : State :=
  let l := s.lane p k
  match req with
  | 1 => if l.recal.isSome || !s.linkUp p then s else s.queueRecal p k 5 false (l.state == .retired) none
  | 2 => if !s.linkUp p then s else s.queueRecal p k 5 true (l.state == .retired) none
  | 3 => s.retire p k 1 causeCommand false
  | 4 => s.retire p k 2 causeCommand false
  | 5 => s.retire p k 0 causeCommand false
  | 6 =>
    if l.test.isSome then s
    else s.setLane p k fun l => { l with
      test := some { pattern := 1, dir := 2, ticks := 0, force := false, job := none, stop := none, started := false, ran := 0, since := s.time.tick, expired := false } }
  | _ => s

/-- DEMAND_CELL (R168, R169): the tick master takes the peer's report until slot 40. -/
def execDemandCell (port : Nat) (d : Demand) (s : State) : Out :=
  run s fun s =>
    if 1 < port || !(s.isMaster port) || 40 < s.time.slot then s
    else
      let s := (s.setLink port fun l => { l with demand := some d }).spore 3 port (demandBytes d)
      (upTo 4).foldl (fun s k => s.peerAsks port k (nth d.laneReq k 0)) s

/-! ### Time synchronisation (R170) -/

/-- The flight time of a lane in 1/64 ns. -/
def State.flightOf (s : State) (p k : Nat) : Int := ((s.lane p k).flight * 64 / 1000 : Nat)

/-- TIME_SYNC_CELL (R170): SYNC at the peer, whose exchange before gives the offset, each leg corrected by its lane's flight time, and which answers
RESP in its first reverse run; RESP at the master. `arrived` and `sent` are this hub's times of arrival and of that run, in 1/64 ns. -/
def execTimeSyncCell (port typ lane : Nat) (a b c arrived sent : Int) (s : State) : Out :=
  run s fun s =>
    if 1 < port || 3 < lane || (s.link port).gen1 then s
    else if typ == 1 then
      if s.role port == .down then s.setLink port fun l => { l with sync := (a, b, c, arrived) } else s
    else if s.role port != .up then s
    else
      let (t1, t2, t3, _) := (s.link port).sync
      let (go, back) := (s.link port).syncLanes
      let whole := t3 != 0 && b != 0
      let e := ((t2 - t1 - s.flightOf port go) - (b - t3 - s.flightOf port back)) / 2
      let s := s.setAlign port fun x => { x with sinceSync := 0, meas := if whole then some e else x.meas }
      let s : State := { s with time := { s.time with
        masterTick := BitVec.ofNat 48 (a.toNat / (31250 * 64)), masterKnown := true } }
      let back := (s.legs port).2
      (s.setLink port fun l => { l with sync := (a, arrived, sent, 0), syncLanes := (lane, back) }).sendOwn port
        (ownCell 6 (syncPayload 1 back a arrived sent))

/-! ### Election (R15 to R19, R171, R177) -/

/-- The master's side of an election: this port DOWN, ELECT with its depth and the peer's, and the key agreement begun. A hub that
offers 15 sets NEVER_MASTER and never comes here. -/
def State.becomesMaster (s : State) (p : Nat) : State :=
  let now := s.time.tick
  let d := s.offeredDepth
  let s := (s.setRole p .down).setLink p fun l => { l with elected := true, electTick := now }
  let s := s.ctl p ctlElect [d, d + 1]
  if s.identityMissing then s.keyFail p 0 else s.keyStart p

/-- This end would become DOWN on a port: its other port must not be a RELAY's DOWN port already (R15). -/
def State.mayBeDown (s : State) (p : Nat) : Bool := !(s.topo.role == .relay && s.role (1 - p) == .down)

/-- Neither end of a cable may be its master: a hub at the depth limit holds its DOWN port (R19, EV010); any other port ends bring-up as
R16 and R17 give. -/
def State.noMaster (s : State) (p : Nat) : State :=
  if s.topo.role == .relay && (s.upPort.any fun u => u != p) then s.depthHeld p else s.conflict p

/-- This end wins the election (R171), unless that breaks R15. -/
def State.wins (s : State) (p : Nat) : State := if s.mayBeDown p then s.becomesMaster p else s.conflict p

/-- This end loses the election and waits for ELECT (R171), unless that breaks R15. -/
def State.loses (s : State) (p : Nat) : State := if s.mayBeUp p then s else s.conflict p

/-- An election decided by the two HELLOs (R171). -/
def State.decide (s : State) (p : Nat) (h : PeerHello) : State :=
  let own := s.offeredDepth
  let mine := s.neverMaster
  if own == 0 && h.depth == 0 then s.conflict p
  else if mine && h.never then s.noMaster p
  else if h.never then s.wins p
  else if mine then s.loses p
  else if own < h.depth then s.wins p
  else if h.depth < own then s.loses p
  else if h.rand < (s.link p).ownRand then s.wins p
  else if (s.link p).ownRand < h.rand then s.loses p
  else
    let (r, s) := s.draw
    (s.setLink p fun l => { l with ownRand := r % 2 ^ 64, peer := none }).sendHello p

/-- HELLO (R171, R175, R177): the first of a bring-up is answered by this end's own and drives the election; a generation-1 peer is
refused when GEN1_ALLOW is 0. -/
def execHello (port : Nat) (h : PeerHello) (s : State) : Out :=
  run s fun s =>
    if 1 < port || (s.cpx port).step != 3 || (s.link port).elected || s.bringupOver port then s
    else if h.gen == 1 && !(s.link port).gen1Allow then
      ((s.endBringup port .held).setLink port fun l => { l with cause := 10 }).linkEv port 25 10
    else
      let s := (s.setLink port fun l => { l with peer := some h, gen1 := h.gen == 1 }).sendHello port
      s.decide port h

/-- ELECT (R171): this port is UP, its depth one more than the master's. -/
def execElect (port master own : Nat) (s : State) : Out :=
  run s fun s =>
    if 1 < port || (s.cpx port).step != 3 || (s.link port).elected || own != master + 1 then s
    else s.becomesUp port own

/-! ### Key agreement (R160) -/

/-- KEY_INIT: the peer answers KEY_RESP and its KEY_FINISH; a public key that is no point of the curve fails the attempt. -/
def execKeyInit (port : Nat) (bytes : List Byte) (s : State) : Out :=
  run s fun s =>
    if 1 < port || s.role port != .up || (s.link port).keysIn || (s.cpx port).step != 3 then s
    else if s.identityMissing then s.keyFail port 0
    else
      match s.keyAnswer port bytes with
      | some s => s.keyFinish port
      | none => s.keyFail port 0

/-- KEY_RESP: the tick master has the secrets, and sends its KEY_FINISH. -/
def execKeyResp (port : Nat) (bytes : List Byte) (s : State) : Out :=
  run s fun s =>
    let l := s.link port
    if 1 < port || s.role port != .down || l.keysIn || l.keyInit.isEmpty || !l.keyResp.isEmpty then s
    else
      match s.keyTake port bytes with
      | some s => s.keyFinish port
      | none => s.keyFail port 0

/-- KEY_FINISH: index 0 is installed in both directions, or the attempt fails on a signature. -/
def execKeyFinish (port : Nat) (bytes : List Byte) (s : State) : Out :=
  run s fun s =>
    let l := s.link port
    if 1 < port || l.keysIn || l.keyResp.isEmpty then s
    else if s.finishOk port bytes then (s.cryptoSpore true (beNat (bytes.take 4)) []).keysInstall port
    else (s.cryptoSpore false (beNat (bytes.take 4)) []).keyFail port 1

/-- KEY_AGREEMENT_TIMEOUT: no message within 10 ms of the one before. -/
def execKeyAgreementTimeout (port : Nat) (s : State) : Out :=
  run s fun s =>
    let l := s.link port
    if 1 < port || (s.cpx port).step != 3 || !l.elected || l.keysIn || !(s.passed l.keySince (msTicks 10)) then s else s.keyFail port 2

/-! ### Key rotation (R161) -/

/-- KEY_ROTATION_START: KEY_ROTATE_S has passed since the sending direction's last key, or its counter has reached 2^32 − 2^20; at 2^32 the link
closes. -/
def execKeyRotationStart (port : Nat) (s : State) : Out :=
  run s fun s =>
    let t := (s.link port).tx
    if 1 < port || !(s.link port).keysIn then s
    else if 2 ^ 32 ≤ t.counter then s.closeLink port 4
    else if t.next.isSome || !(s.passed t.since (secTicks (s.rotateS port)) || 2 ^ 32 - 2 ^ 20 ≤ t.counter) then s
    else s.rotate port

/-- KEY_NEXT: accepted for this end's receiving direction and acknowledged; naming its sending direction it asks for a rotation
(DESIGN CHOICE, log entry 35). -/
def execKeyNext (port dir index : Nat) (tick : Tick) (s : State) : Out :=
  run s fun s =>
    if 1 < port || !(s.link port).keysIn then s
    else if dir == s.txDir port then (if (s.link port).tx.next.isSome then s else s.rotate port)
    else
      (s.setLink port fun l => { l with rx := { l.rx with next := some (index, tick, true) } }).ctl port ctlKeyNextAck [dir, index]

/-- KEY_NEXT_ACK. -/
def execKeyNextAck (port dir index : Nat) (s : State) : Out :=
  run s fun s =>
    if 1 < port || dir != s.txDir port then s
    else
      s.setLink port fun l => { l with tx := { l.tx with
        next := l.tx.next.map fun n => if n.1 == index then (n.1, n.2.1, true) else n } }

/-- KEY_EFFECTIVE_TICK: at tick K the next index takes over in each direction that has it. -/
def execKeyEffectiveTick (port : Nat) (s : State) : Out :=
  run s fun s => if 1 < port then s else s.keyTurns port

/-- KEY_INDEX_RETIRE: from tick K + 2 the receiver no longer keeps the old index. -/
def execKeyIndexRetire (port : Nat) (s : State) : Out :=
  run s fun s => if 1 < port then s else s.keyRetires port

/-! ### Paths (R149 to R151, R175) -/

/-- An entry that the sending end takes back, or whose label it uses anew (R149): a setup under way for it here is given up with it. -/
def State.tearLabel (s : State) (p label : Nat) : State :=
  match s.cable.setups.find? fun x => x.up == some (p, label) with
  | some x => ((s.dropSetup x).uninstall p label).ctl x.port ctlTeardown [x.label]
  | none => s.tearEntry p label

/-- PATH_SETUP (R151): installed and answered where it ends, passed on by a relay, or answered PATH_NACK. -/
def execPathSetup (port id label tc hops dst : Nat) (cut : Bool) (contract credit : Nat) (s : State) : Out :=
  run s fun s =>
    if 1 < port || !(s.linkUp port) then s
    else
      let s := s.tearLabel port label
      let nack := fun (r : Nat) => s.ctl port ctlPathNack [id, r]
      if hops ≤ 1 then
        if !(2 ≤ dst && dst ≤ 11 && s.portEnd dst != 0) then nack 3
        else
          match s.initCredit port tc with
          | none => nack 1
          | some own =>
            let e : PathEntry := {
              label := label, suspended := false, tc := tc, egress := dst, outLabel := 0, cut := cut, contract := contract, bound := false,
              initCredit := own }
            ((s.install port e credit).ctl port ctlPathAck [id, label, own]).arrivedHere port e
      else
        let q := 1 - port
        if s.topo.role != .relay || s.role q != .down || !(s.linkUp q) then nack 2
        else
          match s.freeLabel q, s.initCredit port tc, s.initCredit q tc with
          | some next, some own, some back =>
            let e : PathEntry := {
              label := label, suspended := false, tc := tc, egress := q, outLabel := next, cut := cut, contract := contract, bound := false,
              initCredit := own }
            let r : PathEntry := {
              label := next, suspended := false, tc := tc, egress := port, outLabel := label, cut := cut, contract := contract, bound := false,
              initCredit := back }
            let s := s.install port e credit
            let s : State := { s with cable := { s.cable with
              setups := s.cable.setups ++ [⟨q, next, id, r, some (port, label), own, s.time.tick⟩] } }
            s.ctl q ctlPathSetup [id, next, tc, hops - 1, dst, b2n cut, contract, back]
          | _, _, _ => nack 1

/-- PATH_ACK (R151): the entry for the reverse direction; passed back by a relay, and at the starting hub the path is open. -/
def execPathAck (port id label credit : Nat) (s : State) : Out :=
  run s fun s =>
    match s.cable.setups.find? fun x => x.port == port && x.label == label && x.id == id with
    | none => s
    | some x =>
      let s := (s.dropSetup x).install port x.entry credit
      match x.up with
      | some (q, l) => s.ctl q ctlPathAck [id, l, x.credit]
      | none =>
        match s.pathAt port label with
        | none => s
        | some r =>
          let s : State := { s with cable := { s.cable with
            paths := s.cable.paths.map fun y => if y.id == r.id then { y with phase := 1, job := none } else y } }
          s.ownerUp r

/-- The result of `path.open` for a reason of PATH_NACK (R151). -/
def nackRc (reason : Nat) : Rc := if reason == 1 then .busy else .badState

/-- PATH_NACK (R151): entries installed are removed, and the setup fails. -/
def execPathNack (port id reason : Nat) (s : State) : Out :=
  run s fun s =>
    match s.cable.setups.find? fun x => x.port == port && x.id == id with
    | none => s
    | some x => s.failSetup x reason (nackRc reason)

/-- PATH_TEARDOWN (R149, R175): the entry, and the path it carried beyond this hub; a setup that came with it is taken back too. -/
def execPathTeardown (port label : Nat) (s : State) : Out :=
  run s fun s => s.tearLabel port label

/-- PATH_HOLD_EXPIRY (R175): the same peer has not come back within PATH_HOLD_MS; suspended paths are torn down hop by hop. -/
def execPathHoldExpiry (port : Nat) (s : State) : Out :=
  run s fun s =>
    if 1 < port || !(s.link port).holding || s.linkUp port || !(s.passed (s.link port).closedAt (msTicks (s.link port).pathHoldMs)) then s
    else
      let labels := ((s.link port).table.filter (·.suspended)).map (·.label)
      labels.foldl (fun s l => s.tearEntry port l) (s.setLink port fun l => { l with holding := false })

/-- PATH_SETUP_TIMEOUT (R151): no PATH_ACK within FORWARD_TIMEOUT_MS at the starting hub. -/
def execPathSetupTimeout (port label : Nat) (s : State) : Out :=
  run s fun s =>
    match s.cable.setups.find? fun x => x.port == port && x.label == label && x.up.isNone with
    | none => s
    | some x => if !(s.passed x.since (msTicks (s.cv Fld.FORWARD_TIMEOUT_MS))) then s else (s.ctl port ctlTeardown [label]).failSetup x 0 .retryLater

/-! ### Other link-control messages -/

/-- LANE_NOTICE (R136): the peer has retired (0) or restored (1) a lane; both ends apply the smaller set. The notice carries no cause: that of this
end is a free value of Table 5.12 (log entry 67). -/
def execLaneNotice (port lane event use : Nat) (s : State) : Out :=
  run s fun s =>
    let l := s.lane port lane
    if 1 < port || 3 < lane then s
    else if event == 0 then
      let (v, s) := s.draw
      if use == 3 then s.retire port lane 0 (1 + v % 8) false
      else if l.use == 0 && (use == 1 || use == 2) then s.retire port lane (3 - use) (1 + v % 8) false
      else s
    else if l.state == .retired then (if firmCause l.cause then s else s.restoreLane port lane 5 none)
    else s.setLane port lane fun l => { l with use := if use < 3 then use else l.use }

/-- MASTER_QUERY (R172): the tick master sends its latest TICK cell again. -/
def execMasterQuery (port : Nat) (s : State) : Out :=
  run s fun s =>
    if 1 < port || !(s.isMaster port) then s
    else
      match (s.link port).plan2, (s.link port).plan1 with
      | some pl, _ => s.sendOwn port (ownCell 4 (tickPayload pl))
      | none, some pl => s.sendOwn port (ownCell 4 (tickPayload pl))
      | none, none => s

/-- LINK_CLOSE (R175): the peer closes the link. -/
def execLinkClose (port cause : Nat) (s : State) : Out :=
  run s fun s => if 1 < port || (s.link port).state == 0 || 255 < cause then s else s.closeLink port 7

/-- CHAIN_NOTICE (R174): sent on unchanged upward by a RELAY, acted on by the HOSTSIDE hub. -/
def execChainNotice (port : Nat) (n : Notice) (s : State) : Out :=
  run s fun s => if 1 < port || s.role port != .down then s else s.noticed port n

/-- LINK_CTRL_UNKNOWN (R173): acknowledged by the link's own flow of label 1 and ignored. -/
def execLinkCtrlUnknown (port : Nat) (s : State) : Out :=
  run s fun s => if 1 < port then s else s.sendCredits port (some 1)

/-! ### Timeouts -/

/-- GAP_TIMEOUT (R152): a later cell has waited for REORDER_NS; a lossless path NAKs its first missing SEQ; another skips the gap and counts the missing cells lost. -/
def execGapTimeout (port label : Nat) (s : State) : Out :=
  run s fun s =>
    match (s.link port).flow label with
    | none => s
    | some f =>
      if f.rxHeld.isEmpty || s.slotNow < f.heldAt + s.cv Fld.REORDER_NS / 125 then s
      else if lossless f.tc then s.sendNak port label
      else
        let ahead := fun (c : Cell) => (c.seq + seqMod - f.rxNext) % seqMod
        let gap := f.rxHeld.foldl (fun m c => min m (ahead c)) seqMod
        let s := s.setLink port fun l =>
          { (l.setFlow label fun f => { f with rxNext := (f.rxNext + gap) % seqMod, lost := satAdd 64 f.lost gap }) with
            lost := satAdd 64 l.lost gap }
        State.drainHeld port label (f.rxHeld.length + 1) s

/-- REPLAY_TIMEOUT (R153): no acknowledgement progress for REPLAY_TIMEOUT_TICKS; the path is replayed from its oldest cell, or the link closes. -/
def execReplayTimeout (port label : Nat) (s : State) : Out :=
  run s fun s =>
    match ((s.link port).flow label).bind (·.unacked.head?) with
    | none => s
    | some u =>
      if !(s.passed u.tick (s.cv Fld.REPLAY_TIMEOUT_TICKS)) then s
      else
      let (spent, s) := s.replayFrom port label u.cell.seq
      if spent then (s.linkEv port 30 label).closeLink port 2 else s

/-- LINK_T_TIMEOUT (R176): the election beyond 5 ms, or step 3 beyond 50 ms. -/
def execLinkTTimeout (port : Nat) (s : State) : Out :=
  run s fun s =>
    let l := s.link port
    let late := (!l.elected && s.passed l.stepSince (msTicks 5)) || s.passed l.stepSince (msTicks 50)
    if 1 < port || (s.cpx port).step != 3 || s.bringupOver port || !late then s else s.step3Fail port false

/-- BRINGUP_RESTART (R176): 100 ms after a failure of step 3 the port restarts from step 1. -/
def execBringupRestart (port : Nat) (s : State) : Out :=
  run s fun s =>
    let c := s.cpx port
    if 1 < port || c.step != 8 || !(s.passed c.since (msTicks 100)) || s.time.holdover == 2 then s else s.startTraining port

/-- MASTER_LOSS_TIMEOUT (R172): MASTER_LOSS_TICKS without a valid TICK cell; MASTER_QUERY goes out from now on in every tick. -/
def execMasterLossTimeout (port : Nat) (s : State) : Out :=
  run s fun s =>
    let l := s.link port
    let n := l.sinceTick
    if 1 < port || s.role port != .up || !(s.linkUp port) || l.gen1 || l.masterLost || n < l.masterLossTicks then s
    else
      ((s.setLink port fun l => { l with masterLost := true, lostAt := n }).linkEv port 26 (min 65535 n)).ctl port ctlMasterQuery []

/-- MASTER_QUERY_TIMEOUT (R172): 64 further ticks without a TICK cell close the link. -/
def execMasterQueryTimeout (port : Nat) (s : State) : Out :=
  run s fun s =>
    let l := s.link port
    if 1 < port || !l.masterLost || l.sinceTick < l.lostAt + 64 then s else s.closeLink port 5

/-! ### Commands (R179) -/

/-- LINK_SHOW (Table 6.12). -/
def execLinkShow (rq : Req) (s : State) : Out :=
  command Cmd.linkShow 1 rq s fun _ s =>
    let p := arg rq 0 1
    if 1 < p then .fail s .badState
    else
      let l := s.link p
      let role := match s.role p with
        | .up => 0
        | .down => 1
        | .none => 2
        | .ended => 3
        | .held => 2
      .show s (leBytes 1 l.state ++ leBytes 1 role ++ leBytes 1 s.topo.depth ++ leBytes 1 l.cause ++ leBytes 4 l.tx.index
        ++ leBytes 8 l.coaches ++ leBytes 8 l.tagFails ++ leBytes 8 l.poisoned ++ leBytes 8 l.replayed ++ leBytes 8 l.lost
        ++ leBytes 4 l.missedCnt ++ zeros 4)

/-- LINK_PLAN_SHOW (Table 6.12). -/
def execLinkPlanShow (rq : Req) (s : State) : Out :=
  command Cmd.linkPlanShow 2 rq s fun _ s =>
    let p := arg rq 0 1
    let which := arg rq 1 1
    if 1 < p || 2 < which then .fail s .badState
    else
      match (s.link p).planFor (s.time.tick.toNat + which) with
      | some pl => .show s (planBytes pl)
      | none => .show s []

/-- LINK_REKEY (R161, R179): both directions start a rotation at once. -/
def execLinkRekey (rq : Req) (s : State) : Out :=
  command Cmd.linkRekey 1 rq s fun _ s =>
    let p := arg rq 0 1
    if 1 < p || !(s.linkUp p) then .fail s .badState
    else
      let s := if (s.link p).tx.next.isSome then s else s.rotate p
      let i := (s.link p).rx.index + 1
      .done (if (s.link p).rx.next.isSome then s else s.ctl p ctlKeyNext [1 - s.txDir p, i, (s.time.tick + 4).toNat])

/-- LINK_RESET (R175, R179): the link closes and retrains; the command completes when it is up again or has failed. A port that holdover
has stopped stays OFF (R42), and the command completes as failed. -/
def execLinkReset (rq : Req) (s : State) : Out :=
  command Cmd.linkReset 1 rq s fun h s =>
    let p := arg rq 0 1
    if 1 < p then .fail s .badState
    else if (s.link p).resetJob.isSome then .fail s .busy
    else if s.time.holdover == 2 then .long s (some (Rc.hwFault.code, []))
    else .long ((s.closeLink p 8).setLink p fun l => { l with resetJob := some (rq.via, h) }) none

/-- PATH_OPEN (R151, R585). -/
def execPathOpen (rq : Req) (s : State) : Out :=
  command Cmd.pathOpen 8 rq s fun h s =>
    let a := s.openPath .command (some (rq.via, h)) (arg rq 0 1) (arg rq 1 1) (arg rq 2 1) (arg rq 3 1) (arg rq 4 1)
      (bitAt (arg rq 5 1) 0) (arg rq 6 2)
    { st := a.st, rc := a.rc, data := if a.rc == .ok then leBytes 2 a.id ++ leBytes 2 a.label else [] }

/-- PATH_CLOSE (R585). -/
def execPathClose (rq : Req) (s : State) : Out :=
  command Cmd.pathClose 2 rq s fun _ s =>
    match s.pathById (arg rq 0 2) with
    | none => .fail s .badHandle
    | some r => if r.phase == 0 then .fail s .busy else .done (s.closePath r.id)

/-- Table 6.3 as a word. -/
def entryWord (e : PathEntry) : Nat :=
  2 ^ 63 + b2n e.suspended * 2 ^ 62 + e.tc % 8 * 2 ^ 59 + e.egress % 16 * 2 ^ 55 + e.outLabel % 4096 * 2 ^ 43 + b2n e.cut * 2 ^ 42
    + e.contract % 4096 * 2 ^ 30 + e.initCredit % 65536

/-- PATH_SHOW (Table 6.12): zeros for a label that is not VALID. -/
def execPathShow (rq : Req) (s : State) : Out :=
  command Cmd.pathShow 4 rq s fun _ s =>
    let p := arg rq 0 1
    let label := arg rq 2 2
    if 1 < p || 4095 < label then .fail s .badState
    else
      match (s.link p).entry label with
      | none => .show s (zeros 16)
      | some e =>
        let f := ((s.link p).flow label).getD (.fresh label e.tc 0 0)
        .show s (leBytes 8 (entryWord e) ++ leBytes 2 f.nextSeq ++ leBytes 2 f.ackSeq ++ leBytes 2 f.consumed ++ leBytes 2 f.limit)

end Sys2Proof.Machine
end

