-- ==== Sys2Proof/Machine/Net.lean ====
section
/-! DEFINITION. The network commands (spec/12). -/

namespace Sys2Proof.Machine

/-- MAC_FRAME_RECEIVE: length and FCS checks (R323), PAUSE obeyed (R322), the receive buffer while TC2 is not ready (R324),
classification (R334). `wire` is the frame with its FCS. -/
def execMacFrameReceive (mac : Nat) (wire : List Byte) (s : State) : Out :=
  runNet s fun s =>
    let m := s.mac mac
    let len := wire.length
    let frame := wire.take (len - 4)
    if 1 < mac || !m.up || !s.netPort then s
    else if len < 64 then s.setMac mac fun m => { m with short := satAdd 32 m.short 1 }
    else if m.maxFrame < len then s.setMac mac fun m => { m with long := satAdd 32 m.long 1 }
    else if wire.drop (len - 4) != fcsBytes frame then s.setMac mac fun m => { m with fcs := satAdd 32 m.fcs 1 }
    else
      let s := s.setMac mac fun m => { m with framesIn := satAdd 64 m.framesIn 1 }
      if beAt 12 2 frame == 0x8808 then (if beAt 14 2 frame == 1 then s.macPaused mac (beAt 16 2 frame) else s)
      else if 262144 < total (m.rxBuf.map (·.length)) + frame.length then
        let s := s.setMac mac fun m => { m with overflow := satAdd 32 m.overflow 1 }
        let n := satAdd 16 s.net.ovfCount 1
        let due := match s.net.ovfTick with
          | none => true
          | some t => 32 ≤ tickDiff s.time.tick t
        if due then ({ s with net := { s.net with ovfTick := some s.time.tick, ovfCount := 0 } }).raise 114 (mac + 65536 * n)
        else { s with net := { s.net with ovfCount := n } }
      else
        (s.setMac mac fun m => { m with rxBuf := m.rxBuf ++ [frame] }).drainMac mac

/-- MAC_LINK_CHANGE (R329, R345): EV112, and LINK_STATE for the bound MAC. The mode and the longest frame are taken as the link comes
up. -/
def execMacLinkChange (mac : Nat) (up : Bool) (speed : Nat) (s : State) : Out :=
  runNet s fun s =>
    let mode := s.applied (if mac == 0 then Fld.NET_NE0_MODE else Fld.NET_NE1_MODE)
    if 1 < mac || (s.mac mac).up == up || (up && (mode == 15 || !s.netPort)) then s
    else
      let s := s.setMac mac fun m =>
        if up then { m with up := true, speed := speed, mode := mode, maxFrame := s.applied Fld.NET_MAX_FRAME }
        else { m with up := false, speed := 0, pauseEnd := none, txBuf := [], txDrops := satAdd 32 m.txDrops m.txBuf.length }
      let s := s.raise 112 (mac + 2 * b2n up + 16 * (if up then speed else 0))
      if s.netPort && mac == s.net.boundMac then s.sendLinkState else s

/-! ### The network function (R330, R331) -/

/-- A ring is enabled: a power of two from 64 to 4,096. -/
def ringOk (size : Nat) : Bool := [64, 128, 256, 512, 1024, 2048, 4096].contains size

def State.txRing (s : State) (q : Nat) : NetRing := nth s.net.tx q .init
def State.rxRing (s : State) (q : Nat) : NetRing := nth s.net.rx q .init

/-- Descriptors that the driver has handed over. -/
def NetRing.filled (r : NetRing) : Nat := if ringOk r.size then (r.tail + r.size - r.head % r.size) % r.size else 0

/-- NET_TX_FETCH (R324, R329, R334): a transmit frame of some descriptors fetched while TC2 is ready, classified and sent; discarded and
counted while unbound or the bound MAC's link is down. -/
def execNetTxFetch (queue descs : Nat) (frame : List Byte) (s : State) : Out :=
  run s fun s =>
    let r := s.txRing queue
    if !s.netFunction || !s.net.enable || s.net.d3hot || s.net.queues ≤ queue || descs == 0 || r.filled < descs || !s.classReady 9 2
        || (s.net.bound && s.net.suspended) then s
    else
      let s : State := { s with net := { s.net with tx := s.net.tx.modify queue fun r => { r with head := (r.head + descs) % r.size } } }
      if !s.net.bound || !s.net.farLink then { s with net := { s.net with fetchDrops := satAdd 32 s.net.fetchDrops 1 } }
      else
        let key := flowKey s.net.boundMac true frame
        let (act, s) := s.classify key
        let (ok, s) := s.metered act.meter frame.length
        if !ok then s
        else
          match act.action with
          | 0 => s.netForward s.net.boundMac act.group false (flowHash key) frame
          | 2 => s.netService frame
          | _ => s

/-- A number with its low or high 32 bits replaced. -/
def setLo (v w : Nat) : Nat := v / 2 ^ 32 * 2 ^ 32 + w % 2 ^ 32
def setHi (v w : Nat) : Nat := v % 2 ^ 32 + w % 2 ^ 32 * 2 ^ 32

/-- A write of a ring's registers, at its offset within the ring's 16 bytes (Table 12.3). -/
def ringWrite (off value : Nat) (r : NetRing) : NetRing :=
  match off with
  | 0 => { r with base := setLo r.base (value / 16 * 16) }
  | 4 => { r with base := setHi r.base value }
  | 8 => { r with size := value % 8192 }
  | 12 => { r with tail := value % 4096 }
  | _ => r

/-- The power state and PME_En of the network function; a change of what it reports sends PRESENCE (R340). -/
def State.netPower (s : State) (d3hot pmeEn : Bool) : State :=
  let was := s.net.enable && !s.net.d3hot
  let s : State := { s with net := { s.net with d3hot := d3hot, pmeEn := pmeEn } }
  if was != (s.net.enable && !s.net.d3hot) then s.sendPresence else s

/-- CTRL of the network function (Table 12.3): ENABLE, whose change sends PRESENCE, PROMISC and QUEUES, a reserved value of which is not
taken (DESIGN CHOICE, log entry 29). -/
def State.netCtrl (s : State) (v : Nat) : State :=
  let q := fieldAt v 8 4
  let was := s.net.enable && !s.net.d3hot
  let s : State := { s with net := { s.net with
    enable := bitAt v 0, promisc := bitAt v 1, queues := if 1 ≤ q && q ≤ 8 then q else s.net.queues } }
  if was != (s.net.enable && !s.net.d3hot) then s.sendPresence else s

/-- The network function is reset (R330): its registers at their reset values, NET_MAC_ADDR taken (R345). -/
def State.netFnReset (s : State) : State :=
  let was := s.net.enable && !s.net.d3hot
  let s : State := { s with net := { s.net with
    enable := false, promisc := false, queues := 1, d3hot := false, pmeStatus := false, pmeEn := false, wb := 0
    macAddr := s.cv Fld.NET_MAC_ADDR % 2 ^ 48, tx := List.replicate 8 .init, rx := List.replicate 8 .init } }
  if was then s.sendPresence else s

/-- A word of the network function's BAR 0 as read (Table 12.3); an offset that the table does not give reads 0. PROXYING is taken from
what the function has reported, since no message brings it (DESIGN CHOICE, log entry 29). -/
def State.netRegRead (s : State) (off : Nat) : Nat :=
  let n := s.net
  let ring := fun (r : NetRing) (k : Nat) => match k with
    | 0 => r.base % 2 ^ 32
    | 1 => r.base / 2 ^ 32
    | 2 => r.size
    | _ => r.tail
  if 0x1000 ≤ off && off < 0x1200 then
    let q := (off - 0x1000) / 64
    let k := off % 64 / 4
    let t := nth n.tx q .init
    let r := nth n.rx q .init
    if k < 4 then ring t k else if k < 8 then ring r (k - 4) else if k == 8 then t.head else if k == 9 then r.head else 0
  else
    match off / 4 with
    | 0 => b2n n.enable + 2 * b2n n.promisc + 256 * n.queues
    | 1 => b2n (n.bound && n.farLink) + 16 * (if n.bound && n.farLink then n.farSpeed else 0) + 256 * b2n n.bound + 512 * b2n (n.bound && !(n.enable && !n.d3hot))
    | 2 => n.macAddr % 2 ^ 32
    | 3 => n.macAddr / 2 ^ 32
    | 4 => n.farMax
    | 5 => n.wb % 2 ^ 32
    | 6 => n.wb / 2 ^ 32
    | _ => 0

/-- A driver's write of a BAR 0 register of the network function (Table 12.3). Of WB_LO, whose area is 64-byte aligned, bits [5:0] are
dropped, and of a ring's base, 16-byte aligned, bits [3:0] (DESIGN CHOICE, log entry 29). -/
def State.netRegWrite (s : State) (off value : Nat) : State :=
    if !s.netFunction then s
    else if off == 0 then s.netCtrl value
    else if off == 8 then ({ s with net := { s.net with macAddr := setLo s.net.macAddr value } } : State).sendPresence
    else if off == 12 then ({ s with net := { s.net with macAddr := setHi s.net.macAddr (value % 65536) } } : State).sendPresence
    else if off == 0x14 then { s with net := { s.net with wb := setLo s.net.wb (value / 64 * 64) } }
    else if off == 0x18 then { s with net := { s.net with wb := setHi s.net.wb value } }
    else if 0x1000 ≤ off && off < 0x1200 then
      let q := (off - 0x1000) / 64
      let r := off % 64
      if r < 16 then { s with net := { s.net with tx := s.net.tx.modify q (ringWrite r value) } }
      else if r < 32 then { s with net := { s.net with rx := s.net.rx.modify q (ringWrite (r - 16) value) } }
      else s
    else s

/-- NET_TAIL_WRITE (R331, Table 12.3): a tail hands descriptors over; the other registers are set as well. -/
def execNetTailWrite (off value : Nat) (s : State) : Out := run s fun s => s.netRegWrite off value

/-- NET_ENABLE_WRITE (R340): CTRL, the power state and PME_En; a change of what the end reports sends PRESENCE. -/
def execNetEnableWrite (ctrl : Nat) (d3hot pmeEn : Bool) (s : State) : Out :=
  run s fun s =>
    if !s.netFunction then s
    else
      (({ s with net := { s.net with pmeStatus := s.net.pmeStatus && d3hot } } : State).netPower d3hot pmeEn).netCtrl ctrl

/-- NET_WRITE_BACK (R331): the heads that have changed, at offset 8q of the write-back area, no more often than once per NET_WB_US, whose
microsecond is eight slots. -/
def execNetWriteBack (s : State) : Out :=
  run s fun s =>
    if !s.netFunction || !s.net.enable || (s.net.wbAt != 0 && s.slotCount < s.net.wbAt + 8 * s.cv Fld.NET_WB_US) then s
    else
      let due := (upTo 8).filter fun q => (s.txRing q).head != (s.txRing q).back || (s.rxRing q).head != (s.rxRing q).back
      let s : State := if due.isEmpty then s else { s with net := { s.net with wbAt := s.slotCount } }
      due.foldl (fun s q =>
        let s := s.emit (.hostWrite (s.net.wb + 8 * q) (leBytes 4 (s.txRing q).head ++ leBytes 4 (s.rxRing q).head))
        let done := fun (r : NetRing) => { r with back := r.head }
        { s with net := { s.net with tx := s.net.tx.modify q done, rx := s.net.rx.modify q done } }) s

/-! ### Tunnel messages (R327 to R329, R343) -/

/-- The IP ECN field of an ECN-capable frame set to CE, with the IPv4 header checksum updated (R328). -/
def markCe (f : List Byte) : List Byte :=
  let (_, ty, p) := etherHead f
  if ty == 0x0800 then
    let tos := beAt (p + 1) 1 f
    if tos % 4 == 1 || tos % 4 == 2 then
      let n := 4 * fieldAt (beAt p 1 f) 0 4
      let f := f.set (p + 1) (BitVec.ofNat 8 (tos / 4 * 4 + 3))
      let f := (f.set (p + 10) 0).set (p + 11) 0
      let c := checksum (slice p n f)
      (f.set (p + 10) (BitVec.ofNat 8 (c / 256))).set (p + 11) (BitVec.ofNat 8 c)
    else f
  else if ty == 0x86DD then
    -- the traffic class spans the first two bytes; its ECN bits are bits 5 and 4 of the second
    let b := beAt (p + 1) 1 f
    let ecn := fieldAt b 4 2
    if ecn == 1 || ecn == 2 then f.set (p + 1) (BitVec.ofNat 8 (b / 64 * 64 + 48 + b % 16)) else f
  else f

/-- A frame delivered to the host ring HASH mod QUEUES over the descriptors read at its head, each written back with DONE and the last
with EOP (R331, Table 12.4); a frame for which
there are none is dropped and counted (DESIGN CHOICE, log entry 29). -/
def State.hostDeliver (s : State) (held : Bool) (hash : Nat) (bufs : List NetDesc) (frame : List Byte) : State :=
  let q := hash % s.net.queues
  let r := s.rxRing q
  let sizes := bufs.map (·.len)
  let need := ((upTo (sizes.length + 1)).find? fun n => frame.length ≤ total (sizes.take n)).getD (sizes.length + 1)
  if r.filled < need || sizes.length < need || need == 0 then
    { s with net := { s.net with rxDrops := satAdd 32 s.net.rxDrops 1 } }
  else
    let s : State := { s with net := { s.net with rx := s.net.rx.modify q fun r => { r with head := (r.head + need) % r.size } } }
    (upTo need).foldl (fun s i =>
      let b := nth bufs i ⟨0, 0, false⟩
      let d := slice (total (sizes.take i)) b.len frame
      let flags := b2n (i + 1 == need) + 2 * b2n held + 4
      (s.emit (.hostWrite b.addr d)).emit (.hostWrite (r.base + 16 * ((r.head + i) % r.size))
        (leBytes 8 b.addr ++ leBytes 2 d.length ++ leBytes 2 flags ++ leBytes 4 hash))) s

/-- The function takes a frame for this destination (Table 12.3, PROMISC). -/
def State.takesFrame (s : State) (frame : List Byte) : Bool :=
  s.net.promisc || beAt 0 6 frame == s.net.macAddr || bitAt (beAt 0 1 frame) 0

/-- NET_TUNNEL_FRAME (R327 to R329, R331): a FRAME delivered to a MAC, or to a host ring; `ecn` says that a cell of it left the switch
with ECN set. -/
def execNetTunnelFrame (label mac group : Nat) (held ecn : Bool) (hash : Nat) (bufs : List NetDesc) (frame : List Byte) (s : State) : Out :=
  run s fun s =>
    let f := if ecn then markCe frame else frame
    if !s.net.bound then s
    else if s.netPort then
      ({ s with net := { s.net with labels := s.net.labels.map fun x => if x.1 == label && x.2 == 8 then (label, group % 8) else x } } : State).macSend
        (mac % 2) f
    else if s.netFunction && s.net.enable && !s.net.d3hot && s.takesFrame f then s.hostDeliver held hash bufs f
    else s

/-- PRESENCE (R340): what the FUNCTION end last reported, its MAC and the host's address (log entry 29); another bound MAC is told by
LINK_STATE. -/
def execPresence (present : Bool) (mac : Nat) (addr : Nat) (s : State) : Out :=
  run s fun s =>
    if s.netPort && s.net.bound then
      let other := s.net.boundMac != mac % 2
      let s : State := { s with net := { s.net with saidAbsent := !present, boundMac := mac % 2, hostMac := addr % 2 ^ 48 } }
      if other then s.sendLinkState else s
    else s

/-- WAKE (R343): PME_Status, PM_PME where PME_En is set and the upstream link can carry it, and EV118; nothing more while a wake is
pending. -/
def execWake (source : Nat) (s : State) : Out :=
  run s fun s =>
    if !s.netFunction || s.net.pmeStatus then s
    else
      let s : State := { s with net := { s.net with pmeStatus := true, wakes := satAdd 32 s.net.wakes 1 } }
      let s := if s.net.pmeEn && ((s.pcLink 0).state == 2 || (s.pcLink 0).state == 3) then s.emit .pmPme else s
      s.raise 118 (source % 32)

/-- LINK_STATE (R329): LINK, SPEED and MAX_FRAME of the function; the first one tells an automatic binding its MAC (R325). -/
def execLinkState (mac : Nat) (up : Bool) (speed maxFrame : Nat) (s : State) : Out :=
  run s fun s =>
    if s.netFunction && s.net.bound then
      let s : State := { s with net := { s.net with farLink := up, farSpeed := if up then speed else 0, farMax := maxFrame } }
      if s.net.macKnown then s
      else ({ s with net := { s.net with boundMac := mac % 2, macKnown := true } } : State).sendPresence
    else s

/-! ### Ageing -/

/-- FLOW_AGE_SWEEP (R337). -/
def execFlowAgeSweep (bucket : Nat) (s : State) : Out :=
  run s fun s =>
    let age := s.cv Fld.FLOW_AGE_S * 32000
    let gone := fun (e : Flow) => e.bucket == bucket && !e.static && age ≤ (s.tick32 - e.last).toNat
    { s with net := { s.net with flows := s.net.flows.filter fun e => !gone e } }

/-- WAKE_BUFFER_TIMEOUT (R344): the pending wake ends and the buffer is emptied. -/
def execWakeBufferTimeout (s : State) : Out :=
  run s fun s =>
    if s.net.wakePending && msTicks (s.cv Fld.NET_WAKE_BUFFER_MS) ≤ tickDiff s.time.tick s.net.wakeAt then
      { s with net := { s.net with
        wakePending := false, bufDrops := satAdd 32 s.net.bufDrops s.net.wakeBuf.length, wakeBuf := [] } }
    else s

/-! ### Mailbox commands (R346) -/

/-- Presence as shown: 0 off, 1 present, 2 absent, 3 wake pending. -/
def State.presenceState (s : State) : Nat :=
  if !s.netPort || s.cv Fld.PRESENCE_ENABLE == 0 then 0 else if s.net.wakePending then 3 else if s.net.absent then 2 else 1

/-- NET_SHOW (Table 12.8). -/
def execNetShow (rq : Req) (s : State) : Out :=
  command Cmd.netShow 1 rq s fun _ s =>
    let k := arg rq 0 1
    let m := s.mac k
    if 1 < k then .fail s .badState
    else .show s (leBytes 1 (nth s.topo.ends 6 0) ++ leBytes 1 (if m.up then m.speed else 0) ++ leBytes 1 (b2n s.net.bound)
      ++ leBytes 1 s.presenceState ++ leBytes 8 m.framesIn ++ leBytes 8 m.framesOut ++ leBytes 4 m.fcs ++ leBytes 4 m.overflow
      ++ leBytes 4 s.net.flows.length ++ leBytes 4 s.net.learnFails)

/-- NET_BIND (R325, Table 12.8). -/
def execNetBind (rq : Req) (s : State) : Out :=
  command Cmd.netBind 4 rq s fun h s =>
    let hops := arg rq 0 1
    let chain := arg rq 1 1
    if !s.netFunction then .fail s .badState
    else if bitAt (arg rq 3 1) 0 then
      if !s.net.bound && !s.net.binding then .fail s .badState else .long s.netUnbind (some (0, []))
    else if hops == 0 || 6 < hops || 1 < chain || 1 < arg rq 2 1 || s.net.bound || s.net.binding then .fail s .badState
    else
      let a := s.netBindTo hops chain (some (arg rq 2 1)) (some (rq.via, h))
      if a.rc != .ok then
        .long (({ a.st with net := { a.st.net with binding := false } }).bindEvent false true)
          (some (a.rc.code, if a.rc == .budget then leBytes 1 a.test else []))
      else .long a.st none

/-- NET_GROUP_SET (R326, Table 12.8). -/
def execNetGroupSet (rq : Req) (s : State) : Out :=
  command Cmd.netGroupSet 12 rq s fun h s =>
    let g := arg rq 0 1
    if !s.netFunction || g == 0 || 7 < g || !s.net.bound then .fail s .badState
    else if bitAt (arg rq 1 1) 0 then
      if (s.netGroup g).isNone then .fail s .badState else .long (s.closeGroup g) (some (0, []))
    else if (s.netGroup g).isSome then .fail s .badState
    else
      let a := s.openGroupPath g (arg rq 4 4) (arg rq 8 4) (some (rq.via, h))
      if a.rc != .ok then .long s (some (a.rc.code, if a.rc == .budget then leBytes 1 a.test else [])) else .long a.st none

/-- Rules 254 and 255 belong to NET_PRESENCE while it runs (R401). -/
def State.ruleReserved (s : State) (i : Nat) (via : Via) : Bool :=
  254 ≤ i && (s.svc.insts.any fun x => x.id == 2 && x.state == 1) && via != .gate 2

/-- The generation that a rule has, changes that wait for the tick boundary included. -/
def State.ruleGen (s : State) (i : Nat) : Nat :=
  match s.net.ruleNext.reverse.find? fun r => r.index == i with
  | some r => r.gen
  | none => ((s.netRule i).map (·.gen)).getD 0

/-- NET_RULE_SET (R338): effective at the next tick boundary, with the rule's generation raised by 1. -/
def execNetRuleSet (rq : Req) (s : State) : Out :=
  command Cmd.netRuleSet 96 rq s fun _ s =>
    let i := arg rq 0 1
    let w := arg rq 88 8
    if s.ruleReserved i rq.via || fieldAt w 62 2 == 3 then .fail s .badState
    else
      let gen := (s.ruleGen i + 1) % 65536
      let r : NetRule :=
        { index := i, gen := gen, isSet := !bitAt (arg rq 1 1) 0, value := slice 4 42 rq.payload, mask := slice 46 42 rq.payload,
          act := actOf w }
      { st := { s with net := { s.net with ruleNext := s.net.ruleNext ++ [r] } }, rc := .ok, data := leBytes 2 gen }

/-- NET_FLOW_SET (R336): a static entry replaces a dynamic one of its key, takes a free way, or the oldest dynamic entry's; BUSY when all
eight are static. -/
def execNetFlowSet (rq : Req) (s : State) : Out :=
  command Cmd.netFlowSet 56 rq s fun _ s =>
    let key := slice 4 42 rq.payload
    let w := arg rq 48 8
    let b := flowBucket key
    let old := s.net.flows.find? fun e => e.key == key
    if bitAt (arg rq 0 1) 0 then
      match old with
      | none => .fail s .badHandle
      | some _ => .done { s with net := { s.net with flows := s.net.flows.filter fun e => e.key != key } }
    else if fieldAt w 62 2 == 3 then .fail s .badState
    else
      let l := s.bucket b
      let way := match old with
        | some e => some e.way
        | none => (match freeWay l with
          | some w => some w
          | none => (oldestOf s.tick32 (l.filter fun e => !e.static)).map (·.way))
      match way with
      | none => .fail s .busy
      | some k =>
        .done (s.putFlow { bucket := b, way := k, key := key, rule := 0xFFFF, gen := 0, static := true, act := { actOf w with learn := false },
                           last := s.tick32, hits := 0 })

/-- The 64 bytes of an entry (Table 12.5). -/
def flowBytes (e : Flow) : List Byte :=
  fitBytes 42 e.key ++ leBytes 2 e.rule ++ leBytes 2 e.gen ++ leBytes 1 (1 + 2 * b2n e.static) ++ zeros 1 ++ leBytes 8 e.act.word
    ++ leBytes 4 e.last.toNat ++ leBytes 4 e.hits

/-- NET_FLOW_SHOW (Table 12.8). -/
def execNetFlowShow (rq : Req) (s : State) : Out :=
  command Cmd.netFlowShow 42 rq s fun _ s =>
    match s.net.flows.find? fun e => e.key == slice 0 42 rq.payload with
    | none => .fail s .badHandle
    | some e => .show s (flowBytes e)

/-- NET_METER_SET (R339). -/
def execNetMeterSet (rq : Req) (s : State) : Out :=
  command Cmd.netMeterSet 12 rq s fun _ s =>
    let id := arg rq 0 2
    let rate := arg rq 4 4
    let burst := arg rq 8 4
    let drops := ((s.net.meters.find? fun m => m.id == id).map (·.drops)).getD 0
    let others := s.net.meters.filter fun m => m.id != id
    if id == 0 || 4095 < id || 25000 < rate || (rate != 0 && (burst < 1518 || 1048576 < burst)) then .fail s .badState
    else
      let m : Meter := { id := id, mbps := rate, burst := burst, tokens := burst * 64, filled := s.slotCount, drops := drops }
      { st := { s with net := { s.net with meters := if rate == 0 then others else others ++ [m] } }, rc := .ok, data := leBytes 8 drops }

/-- What `net.presence.set` stores; none for an index or a length that the type does not have. -/
def presenceStore (ty i : Nat) (d : List Byte) (n : NetSt) : Option NetSt :=
  let clean : NetSt := { n with v4 := n.v4.map fun x => (x.1, x.2.1, false), v6 := n.v6.map fun x => (x.1, x.2.1, false) }
  match ty with
  | 0 =>
    if 7 < i || (d.length != 4 && d.length != 0) then none
    else
      let rest := clean.v4.filter fun x => x.1 != i
      some { clean with v4 := if d.isEmpty then rest else rest ++ [(i, beNat d, false)] }
  | 1 =>
    if 15 < i || (d.length != 16 && d.length != 0) then none
    else
      let rest := clean.v6.filter fun x => x.1 != i
      some { clean with v6 := if d.isEmpty then rest else rest ++ [(i, d, false)] }
  | 2 =>
    if 31 < i || 512 < d.length then none
    else
      let rest := clean.mdns.filter fun x => x.index != i
      match dnsName d 130 0 0 with
      | none => if d.isEmpty then some { clean with mdns := rest } else none
      | some (_, e) => if d.length < e + 4 then none else some { clean with mdns := rest ++ [⟨i, d.take (e + 4), d.drop (e + 4), none⟩] }
  | 3 =>
    if 15 < i || (d.length != 256 && d.length != 0) then none
    else
      let rest := clean.patterns.filter fun x => x.1 != i
      some { clean with patterns := if d.isEmpty then rest else rest ++ [(i, d.take 128, d.drop 128)] }
  | 4 => if d.length != 1 then none else some { clean with magic := d != [0] }
  | 5 => some { clean with v4 := [], v6 := [], mdns := [], patterns := [], magic := false }
  | _ => none

/-- NET_PRESENCE_SET (R341, R346): stored at a PORT end; a FUNCTION end forwards it to its bound PORT end. -/
def execNetPresenceSet (rq : Req) (s : State) : Out :=
  command Cmd.netPresenceSet 4 rq s fun _ s =>
    let d := slice 4 (arg rq 2 2) rq.payload
    if s.netFunction then
      match s.netCable with
      | none => .fail s .badState
      | some p =>
        let fwd : Req := { rq with via := .peer p, rsv := 0, flags := BitVec.ofNat 16 ((s.net.hops - 1) % 8 * 0x1000) }
        .done (s.peerSend p (reqBytes 0x0908 fwd))
    else if !s.netPort || 5 < arg rq 0 1 then .fail s .badState
    else if d.length < arg rq 2 2 then .fail s .badLength
    else
      match presenceStore (arg rq 0 1) (arg rq 1 1) d s.net with
      | none => .fail s .badState
      | some n => .done { s with net := n }

/-- NET_PRESENCE_SHOW (Table 12.8). -/
def execNetPresenceShow (rq : Req) (s : State) : Out :=
  command Cmd.netPresenceShow 0 rq s fun _ s =>
    let c4 := total ((s.net.v4.filter fun x => x.2.2).map fun x => 2 ^ x.1)
    let c6 := total ((s.net.v6.filter fun x => x.2.2).map fun x => 2 ^ x.1)
    .show s (leBytes 1 s.presenceState ++ leBytes 1 c4 ++ leBytes 2 c6 ++ leBytes 4 s.net.arp ++ leBytes 4 s.net.nd
      ++ leBytes 4 s.net.mdnsCnt ++ leBytes 4 s.net.wakes ++ leBytes 4 s.net.bufCnt ++ leBytes 4 s.net.bufDrops)

/-- NET_CLEAR (Table 12.8). -/
def execNetClear (rq : Req) (s : State) : Out :=
  command Cmd.netClear 1 rq s fun _ s =>
    let k := arg rq 0 1
    let zero := fun (m : MacSt) =>
      { m with framesIn := 0, framesOut := 0, short := 0, long := 0, fcs := 0, overflow := 0, txDrops := 0 }
    if k == 0xFF then
      .done { s with net := { s.net with
        macs := s.net.macs.map zero, learnFails := 0, fetchDrops := 0, rxDrops := 0, svcDrops := 0, arp := 0, nd := 0, mdnsCnt := 0, wakes := 0,
        bufCnt := 0, bufDrops := 0 } }
    else if 1 < k then .fail s .badState
    else .done (s.setMac k zero)

end Sys2Proof.Machine
end

