-- ==== Sys2Proof/Machine/Usb.lean ====
section
/-! DEFINITION. The USB commands (spec/11). -/

namespace Sys2Proof.Machine

/-! ### Host transactions (R296 to R299) -/

/-- What the HOSTSIDE USA answers: 0 ACK, 1 NRDY or NAK, 2 STALL, 3 ERDY, 4 NYET, 5 zero-length data. -/
def State.usbSay (s : State) (tx : UsbTx) (answer : Nat) (data : List Byte) : State := s.emit (.usbAnswer tx.root tx.addr tx.ep answer data)

/-- The stage of a transaction, made if there is none. -/
def State.stageFor (s : State) (tx : UsbTx) : UsbStage × State :=
  match s.usb.stages.find? (stageIs tx.root tx.port tx.addr tx.ep tx.stream tx.dirIn) with
  | some x => (x, s)
  | none =>
    let x := UsbStage.fresh tx s.time.tick
    (x, { s with usb := { s.usb with stages := s.usb.stages ++ [x] } })

/-- The stage as it now stands. -/
def State.stageNow (s : State) (x : UsbStage) : UsbStage :=
  (s.usb.stages.find? (stageIs x.root x.port x.addr x.ep x.stream x.dirIn)).getD x

/-- Deferred with the standard's not-ready handshake (Table 11.5). -/
def State.defer (s : State) (tx : UsbTx) (x : UsbStage) : State :=
  (s.setStage x fun y => { y with deferred := true }).usbSay tx (if tx.split == 1 then 0 else if tx.split == 2 then 4 else 1) []

/-- Further XFER_REQs while a bulk stage has room and its transfer has not ended (R298). -/
def State.readAhead (s : State) (x : UsbStage) : State :=
  let y := s.stageNow x
  if s.cv Fld.USB_READAHEAD == 1 && y.kind == 1 && y.dirIn && y.ahead && (s.remote y.root).state == 2 then
    s.askPackets y (min 16 (s.stageRoom y))
  else s

/-- An isochronous IN transaction (R300): data whose lag has passed, zero-length data otherwise; an underrun once the lag has passed since
the endpoint started. -/
def State.hostIsoIn (s : State) (tx : UsbTx) (x : UsbStage) : State :=
  let y := s.stageNow x
  if !y.inPkts.isEmpty && s.lagged (y.inTicks.headD 0) then
    (s.setStage x fun y => { y with inPkts := y.inPkts.drop 1, inTicks := y.inTicks.drop 1 }).usbSay tx 0 (y.inPkts.headD [])
  else
    let s := s.usbSay tx 5 []
    if s.passed y.started s.lagTicks then s.underrun tx.root else s

/-- A host IN transaction (R296 to R298, R300). -/
def State.hostIn (s : State) (tx : UsbTx) : State :=
  let isNew := !(s.usb.stages.any (stageIs tx.root tx.port tx.addr tx.ep tx.stream tx.dirIn))
  let (x, s) := s.stageFor tx
  let s := if isNew && 2 ≤ tx.kind && (s.remote tx.root).state == 2 then s.askPackets x (if tx.kind == 2 then 16 else 1) else s
  if x.stall then (s.setStage x fun y => { y with stall := false }).usbSay tx 2 []
  else if tx.kind == 3 then s.hostIsoIn tx x
  else if (s.remote tx.root).state == 3 then s.defer tx x
  else if tx.split == 1 then
    let s := if x.inPkts.isEmpty && x.asked == 0 && x.done.isNone then s.askPackets x 1 else s
    s.usbSay tx 0 []
  else if !x.inPkts.isEmpty then
    let n := min (max 1 tx.nump) x.inPkts.length
    let s := (x.inPkts.take n).foldl (fun s p => s.usbSay tx 0 p) s
    let s := s.setStage x fun y => { y with
      inPkts := y.inPkts.drop n, seq := (y.seq + n) % 32, deferred := false
      done := if y.inPkts.length ≤ n && (y.done == some 0 || y.done == some 1) then none else y.done }
    if tx.kind == 2 then s.askPackets x n else s.readAhead x
  else
    match x.done with
    | some 2 => (s.setStage x fun y => { y with done := none, deferred := false }).usbSay tx 2 []
    | some 3 => s.setStage x fun y => { y with done := none, deferred := false }
    | some _ => (s.setStage x fun y => { y with done := none, deferred := false }).usbSay tx 0 []
    | none =>
      let s := s.setStage x fun y => { y with ahead := true }
      let s := if x.asked == 0 && tx.kind < 2 then s.askPackets x (max 1 tx.nump) else s
      (s.defer tx x).readAhead x

/-- OUT data forwarded to the device. -/
def State.sendOut (s : State) (x : UsbStage) (data : List Byte) : State :=
  (s.setStage x fun y => { y with outPkts := y.outPkts ++ [data.length], seq := (y.seq + 1) % 32 }).stageFrame x usbXferData 0 data

/-- A host OUT transaction (R296, R299, R301). -/
def State.hostOut (s : State) (tx : UsbTx) : State :=
  let (x, s) := s.stageFor tx
  if tx.kind == 3 then
    if (s.remote tx.root).state == 2 then
      s.usbSend tx.root
        { typ := usbIsoData, port := tx.port, addr := tx.addr, ep := tx.ep, dirIn := false, seq := 0,
          epoch := epochOf (s.remote tx.root).epochs tx.port tx.addr, count := 0, stream := 0, data := tx.data }
    else s
  else if x.stall then (s.setStage x fun y => { y with stall := false }).usbSay tx 2 []
  else
    match x.done with
    | some 2 => (s.setStage x fun y => { y with done := none, deferred := false }).usbSay tx 2 []
    | some 3 => s.setStage x fun y => { y with done := none, deferred := false }
    | some _ => (s.setStage x fun y => { y with done := none, deferred := false }).usbSay tx 0 []
    | none =>
      if (s.remote tx.root).state == 3 then s.defer tx x
      else
        let room := total x.outPkts + tx.data.length ≤ s.cv Fld.USB_STAGE_KB * 1024 && s.outToward tx.root + tx.data.length ≤ 393216
          && s.stagingUse + tx.data.length ≤ 524288
        if !room then s.defer tx x
        else if s.cv Fld.USB_WRITE_BEHIND == 1 then (s.sendOut x tx.data).usbSay tx 0 []
        else if x.outPkts.isEmpty then (s.sendOut x tx.data).defer tx x
        else s.defer tx x

/-- Staged IN data that the host will not read is discarded (R298): EV102; the endpoints' sequence numbers return to 0 where `restart`
says so (R297). Of SetInterface every endpoint of the device is taken, since the frames do not tell an interface's (DESIGN CHOICE, log
entry 26). -/
def State.haltEndpoints (s : State) (tx : UsbTx) (only : Option (Nat × Bool)) (restart : Bool) : State :=
  let mine := fun (x : UsbStage) => x.root == tx.root && x.port == tx.port && x.addr == tx.addr && x.ep != 0
    && (match only with | some (ep, d) => x.ep == ep && x.dirIn == d | none => true)
  let n := total ((s.usb.stages.filter mine).map (·.inBytes))
  let cut := fun (x : UsbStage) =>
    if mine x then { x with inPkts := [], inTicks := [], done := none, seq := if restart then 0 else x.seq, stall := false } else x
  let s : State := { s with usb := { s.usb with stages := s.usb.stages.map cut } }
  s.raiseIf (0 < n) 102 (tx.root + 65536 * min 65535 n)

/-- The host resets a remote port (R308): what its endpoints have staged is discarded, the EPOCH of each device behind it rises, and
PORT_CTRL follows every earlier frame. -/
def State.hostPortReset (s : State) (tx : UsbTx) : State :=
  let mine := fun (x : UsbStage) => x.root == tx.root && (x.port == tx.port || tx.port == 0)
  let devs := (((s.usb.stages.filter mine).map fun x => (x.port, x.addr)).eraseDups)
  let (n, s) := s.dropStages mine
  let s := s.setRemote tx.root fun r => { r with
    epochs := devs.foldl (fun l d => setEpoch l d.1 d.2 (epochOf l d.1 d.2 + 1)) r.epochs }
  (s.abortEndpoints tx.root n).usbSend tx.root (plainFrame usbPortCtrl tx.port 0 [ctlReset])

/-- A hub request of the host that acts on a remote port goes as PORT_CTRL. -/
def State.hubRequest (s : State) (tx : UsbTx) (code : Byte) : State :=
  (s.usbSend tx.root (plainFrame usbPortCtrl tx.port 0 [code])).usbSay tx 0 []

/-- A SETUP at any speed (Table 11.5): acknowledged and forwarded, once its path is not suspended (R311), its later stages deferred.
COUNT 1 marks a SETUP packet (log entry 26). -/
def State.hostSetup (s : State) (tx : UsbTx) : State :=
  let out := { tx with dirIn := false }
  let (x, s) := s.stageFor out
  let s := s.setStage x fun y => { y with deferred := true, done := none }
  let s := if (s.remote tx.root).state == 3 then s.setStage x fun y => { y with setups := y.setups ++ [tx.data] }
    else s.stageFrame x usbXferData 1 tx.data
  s.usbSay tx 0 []

/-- A reset of a port of an external hub (R308): the devices behind it lose what their endpoints have staged, their EPOCH rises, and
the request follows every earlier frame. -/
def State.hostExtReset (s : State) (tx : UsbTx) (addrs : List Nat) : State :=
  let (n, s) := s.dropStages fun x => x.root == tx.root && x.port == tx.port && addrs.contains x.addr
  let s := s.setRemote tx.root fun r => { r with
    epochs := addrs.foldl (fun l a => setEpoch l tx.port a (epochOf l tx.port a + 1)) r.epochs }
  (s.abortEndpoints tx.root n).hostSetup tx

/-- The device functions are before a host (Table 3.1, R305): at the HOSTSIDE behind the upstream link, at a remote hub behind its path, or
in fallback behind its own upstream link. -/
def State.usbFnUp (s : State) : Bool :=
  (s.isUsbUp && s.usb.upstream != 0) || (s.isUsbHub && ((s.usb.inLabel.isSome && s.usb.busState != 3) || s.usb.upstream != 0))

/-- The management firmware holds an endpoint buffer of the device functions (R306): EP1 OUT until its request has executed, EP2 OUT
while it waits for no bytes, the IN buffers while they hold nothing for the host. -/
def State.epHeld (s : State) (k : Nat) : Bool :=
  match k with
  | 0 => s.mbx.waiting.any fun w => w.msg.rq.via == .usb
  | 1 => s.mbx.usbReply.isNone
  | 2 => s.upd.stageIn.isNone
  | 3 => s.rcd.ep2.isEmpty
  | _ => false

/-- A transaction to the own device functions (R296, R305, R306): a descriptor, or ACK, or NRDY or NAK while the firmware holds the
buffer, which at SuperSpeed owes an ERDY. -/
def State.ownFunction (s : State) (tx : UsbTx) : State :=
  let k := if tx.ep == 0 || 2 < tx.ep then 9 else 2 * (tx.ep - 1) + b2n tx.dirIn
  match tx.req with
  | .getDescriptor ty => s.usbSay tx 0 (s.fnDescriptor tx.ss ty)
  | _ =>
    if s.epHeld k then
      (if tx.ss then { s with mbx := { s.mbx with usbWait := (s.mbx.usbWait.filter (· != k)) ++ [k] } } else s).usbSay tx 1 []
    else s.usbSay tx 0 []

/-- wPortStatus and wPortChange of a port (the bits of USB 2.0, PRESUMED, log entry 26). -/
def portStatusBytes (connected enabled suspended overCur reset power : Bool) (speed changes : Nat) : List Byte :=
  leBytes 2 (b2n connected + 2 * b2n enabled + 4 * b2n suspended + 8 * b2n overCur + 16 * b2n reset + 256 * b2n power
    + 512 * b2n (speed == 1) + 1024 * b2n (speed == 3))
  ++ leBytes 2 (b2n (bitAt changes 0) + 4 * b2n (bitAt changes 2) + 8 * b2n (bitAt changes 1) + 16 * b2n (bitAt changes 3))

/-- A request to a root hub (R290, R293, R296): ports 2 to 13 are virtual, without power switching. -/
def State.rootHub (s : State) (tx : UsbTx) : State :=
  let k := tx.port
  let x := s.remote k
  let far := 2 ≤ k && k ≤ 13
  let here := far && 2 ≤ x.state
  match tx.req with
  | .getDescriptor ty => s.usbSay tx 0 (rootDescriptor tx.ss ty)
  | .portStatus => s.usbSay tx 0 (portStatusBytes (k == 1 || here) (k == 1 || here) false false false true (if tx.ss then 5 else 3)
      (b2n (far && x.changed)))
  | .clearPortChange bits => (if far && bitAt bits 0 then s.setRemote k fun x => { x with changed := false } else s).usbSay tx 0 []
  | .portReset => (if here then s.hostPortReset { tx with root := k, port := 0 } else s).usbSay tx 0 []
  | .portSuspend on =>
    (if !here then s
     else if on then s.usbSend k (plainFrame usbBusState 0 0 [])
     else (s.usbSend k (plainFrame usbBusState 0 1 [])).usbSend k (plainFrame usbBusState 0 2 [])).usbSay tx 0 []
  | _ => s.usbSay tx 0 []

/-- A request to a remote hub itself that its mirrored state answers at the HOSTSIDE, since Table 11.4 has no frame for it (DESIGN CHOICE,
log entry 26): descriptors, port status and its changes. -/
def State.remoteHub (s : State) (tx : UsbTx) : State :=
  let p := nth (s.remote tx.root).ports (tx.port - 1) (0, 0, 0)
  let c := p.1
  match tx.req with
  | .getDescriptor ty => s.usbSay tx 0 (s.remoteDescriptor tx.ss ty)
  | .portStatus =>
    if tx.port == 5 then s.usbSay tx 0 (portStatusBytes true true false false false true (if tx.ss then 5 else 3) 0)
    else s.usbSay tx 0 (portStatusBytes (c == 2 || c == 3 || c == 4) (c == 3 || c == 4) (c == 4) (c == 5) false (c != 0 && c != 5) p.2.2 p.2.1)
  | .clearPortChange bits =>
    (s.setRemote tx.root fun r => { r with ports := r.ports.modify (tx.port - 1) fun q => (q.1, q.2.1 &&& (15 - bits % 16), q.2.2) }).usbSay tx 0 []
  | _ => s.usbSay tx 0 []

/-- A transaction of the host behind a remote hub that is present (R296, R308). -/
def State.hostRemote (s : State) (tx : UsbTx) : State :=
  match tx.req with
  | .portReset => (s.hostPortReset tx).usbSay tx 0 []
  | .portPower on => s.hubRequest tx (if on then ctlPowerOn else ctlPowerOff)
  | .portSuspend on => s.hubRequest tx (if on then ctlSuspend else ctlResume)
  | .remoteWakeEnable on => s.hubRequest tx (if on then ctlWakeOn else ctlWakeOff)
  | .portStatus => s.remoteHub tx
  | .clearPortChange _ => s.remoteHub tx
  | .getDescriptor _ => if tx.port == 0 then s.remoteHub tx else s.hostSetup tx
  | .clearHalt ep d => (s.haltEndpoints tx (some (ep, d)) true).hostSetup tx
  | .setHalt ep d => (s.haltEndpoints tx (some (ep, d)) false).hostSetup tx
  | .setConfiguration _ => (s.haltEndpoints tx none true).hostSetup tx
  | .setInterface => (s.haltEndpoints tx none true).hostSetup tx
  | .setAddress _ => s.hostSetup tx
  | .extPortReset addrs => s.hostExtReset tx addrs
  | .other => if tx.setup then s.hostSetup tx else if tx.dirIn then s.hostIn tx else s.hostOut tx

/-! ### The remote end -/

/-- A frame of an older EPOCH is discarded and counted; a newer one is taken over (R308). -/
def State.epochOk (s : State) (f : UsbFrame) : Bool × State :=
  let e := epochOf s.usb.epochs f.port f.addr
  let ahead := (f.epoch + 16 - e) % 16
  if 8 ≤ ahead then (false, s.setUsbPort f.port fun x => { x with discards := satAdd 32 x.discards 1 })
  else (true, ({ s with usb := { s.usb with epochs := setEpoch s.usb.epochs f.port f.addr f.epoch } } : State).setUsbPort f.port
    fun x => { x with trafficAt := s.time.tick })

/-- The answer to a frame: XFER_DATA or XFER_DONE of the same endpoint. -/
def replyFrame (f : UsbFrame) (typ count : Nat) (data : List Byte) : UsbFrame := { f with typ := typ, count := count, data := data }

/-- The reports buffered for an endpoint (R317): those too old are discarded and counted, the others go in order. -/
def State.replayReports (s : State) (f : UsbFrame) : Nat × State :=
  let mine := fun (r : HidReport) => r.port == f.port && r.ep == f.ep
  let l := s.usb.hid.filter mine
  let old := fun (r : HidReport) => msTicks (s.cv Fld.HID_REPLAY_MAX_AGE_MS) < tickDiff s.time.tick r.tick
  let aged := (l.filter old).length
  let good := (l.filter fun r => !old r).take (max 1 f.count)
  let left := (l.filter fun r => !old r).drop (max 1 f.count)
  let s : State := { s with usb := { s.usb with
    hid := (s.usb.hid.filter fun r => !mine r) ++ left, aged := satAdd 32 s.usb.aged aged,
    replayed := satAdd 32 s.usb.replayed good.length } }
  (good.length, good.foldl (fun s r => s.usbUpFrame (replyFrame f usbXferData 0 r.bytes)) s)

/-- The data stage of a control read of the own device functions on port 5 (R305): what the SETUP asked for, and SHORT. -/
def State.ownSetupData (s : State) (f : UsbFrame) : State :=
  let d := s.usb.fnSetup
  let data := if leAt 0 2 d == 0x0680 then (s.fnDescriptor (s.usb.upstream == 2 || s.usb.upstream == 3) (leAt 3 1 d)).take (leAt 6 2 d) else []
  (s.usbUpFrame (replyFrame f usbXferData 0 data)).usbUpFrame (replyFrame f usbXferDone 1 [])

/-- USB_XFER_REQ (R297): the remote performs IN transactions on the device; `pkts` and `outcome` are what the device gave, and
`periodic` that the endpoint runs on its own schedule (R300). Buffered reports go first (R317). -/
def execUsbXferReq (f : UsbFrame) (periodic : Bool) (pkts : List (List Byte)) (outcome : Option Nat) (s : State) : Out :=
  run s fun s =>
    if !s.isUsbHub then s
    else
      let (ok, s) := s.epochOk f
      if !ok then s
      else if f.port == 5 && f.ep == 0 then s.ownSetupData f
      else if f.port < 5 && ((s.usbPort f.port).resetting || !(s.usbPort f.port).power) then s.usbUpFrame (replyFrame f usbXferDone 4 [])
      else
        let (n, s) := s.replayReports f
        if periodic then
          let l := s.usb.polls.filter fun p => !(p.1 == f.port && p.2.1 == f.ep)
          let had := ((s.usb.polls.find? fun p => p.1 == f.port && p.2.1 == f.ep).map (·.2.2)).getD 0
          { s with usb := { s.usb with polls := l ++ [(f.port, f.ep, min 16 (had + f.count) - n)] } }
        else
          let s := s.emit (.usbDevice f.port (if (s.usbPort f.port).kept then (s.usbPort f.port).keptAddr else f.addr) f.ep true false [])
          let s := s.setUsbPort f.port fun x => { x with
            txs := satAdd 64 x.txs pkts.length
            deferrals := if pkts.isEmpty && outcome.isNone then satAdd 64 x.deferrals 1 else x.deferrals }
          let s := pkts.foldl (fun s p => s.usbUpFrame (replyFrame f usbXferData 0 p)) s
          match outcome with
          | some c => s.usbUpFrame (replyFrame f usbXferDone c [])
          | none => if pkts.isEmpty then { s with usb := { s.usb with queue := s.usb.queue ++ [f] } } else s

/-- A SETUP that the remote answers for a kept device (R316): SET_ADDRESS, and SET_CONFIGURATION with the kept value; another
value ends the kept state. Answers whether it was answered here. -/
def State.keptSetup (s : State) (f : UsbFrame) : Bool × State :=
  let x := s.usbPort f.port
  let bReq := leAt 1 1 f.data
  let wVal := leAt 2 2 f.data
  if f.count != 1 then (false, s)
  else if bReq == 5 then
    let s := s.setUsbPort f.port fun x => { x with hostAddr := wVal % 128 }
    if x.kept then (true, s.usbUpFrame (replyFrame f usbXferDone 0 [])) else (false, s)
  else if bReq == 9 then
    if x.kept && x.config == wVal then (true, s.usbUpFrame (replyFrame f usbXferDone 0 []))
    else (false, s.setUsbPort f.port fun x => { x with config := wVal % 256, kept := false })
  else (false, s)

/-- A SETUP that resets a port of an external hub (SetPortFeature, PORT_RESET): the buffered reports of the devices behind it are discarded
(R316); of those on its port, all but the hub's own. -/
def State.extReset (s : State) (f : UsbFrame) : State :=
  if f.count == 1 && leAt 0 2 f.data == 0x0323 && leAt 2 2 f.data == 4 then
    { s with usb := { s.usb with hid := s.usb.hid.filter fun r => !(r.port == f.port && r.addr != f.addr) } }
  else s

/-- The stage at the HOSTSIDE that a frame of a root port belongs to. -/
def State.stageOf (s : State) (root : Nat) (f : UsbFrame) : Option UsbStage :=
  s.usb.stages.find? (stageIs root f.port f.addr f.ep f.stream f.dirIn)

/-- A frame from a remote hub of an older EPOCH. -/
def State.oldFrame (s : State) (root : Nat) (f : UsbFrame) : Bool := f.epoch != epochOf (s.remote root).epochs f.port f.addr

/-- A SuperSpeed endpoint that was answered NRDY sends ERDY (Table 11.5). -/
def State.tellReady (s : State) (root : Nat) (f : UsbFrame) (x : UsbStage) : State :=
  if x.deferred && x.ss then s.emit (.usbAnswer root f.addr f.ep 3 []) else s

/-- USB_XFER_DATA (R296): at the HOSTSIDE a packet staged for the host, which is told when it waits; at the remote a packet sent to
the device, whose outcome goes back as XFER_DONE. -/
def execUsbXferData (root : Nat) (f : UsbFrame) (outcome : Option Nat) (s : State) : Out :=
  run s fun s =>
    if s.isUsbHub then
      let (ok, s) := s.epochOk f
      if !ok then s
      else
        let (here, s) := s.keptSetup f
        if here then s
        else if f.port == 5 && f.ep == 0 && f.count == 1 then
          { s with usb := { s.usb with fnSetup := f.data } }
        else
          let x := s.usbPort f.port
          let s := s.extReset f
          let s := (s.emit (.usbDevice f.port (if x.kept then x.keptAddr else f.addr) f.ep false (f.count == 1) f.data)).setUsbPort f.port
            fun x => { x with txs := satAdd 64 x.txs 1 }
          match outcome with
          | some c => s.usbUpFrame (replyFrame f usbXferDone c [])
          | none => s
    else if !s.isUsbUp then s
    else if s.oldFrame root f then s.setRemote root fun r => { r with oldFrames := satAdd 32 r.oldFrames 1 }
    else
      match s.stageOf root f with
      | none => s
      | some x =>
        let s := s.tellReady root f x
        (s.setStage x fun y => { y with inPkts := y.inPkts ++ [f.data], asked := y.asked - 1, deferred := false }).readAhead x

/-- USB_XFER_DONE (R296, R298, R299): a forwarded transaction's outcome reaches its stage; a STALL of data already acknowledged is
answered to the host's next transaction, and the rest of the staged OUT data is discarded. -/
def execUsbXferDone (root : Nat) (f : UsbFrame) (s : State) : Out :=
  run s fun s =>
    if !s.isUsbUp then s
    else if s.oldFrame root f then s.setRemote root fun r => { r with oldFrames := satAdd 32 r.oldFrames 1 }
    else
      match s.stageOf root f with
      | none => s
      | some x =>
        let s := s.tellReady root f x
        if f.dirIn then
          s.setStage x fun y => { y with done := some f.count, asked := 0, deferred := false, ahead := false }
        else if x.deferred then
          s.setStage x fun y => { y with done := some f.count, outPkts := y.outPkts.drop 1, deferred := false }
        else if f.count == 2 then s.setStage x fun y => { y with stall := true, outPkts := [] }
        else s.setStage x fun y => { y with outPkts := y.outPkts.drop 1 }

/-! ### Ports -/

/-- A reset of a remote port (R308): queued transactions are discarded, queued XFER_REQs answered ABORTED, and the reset driven; the
first reset of a kept device is absorbed (R316). -/
def State.remoteReset (s : State) (k : Nat) : State :=
  let q := s.usb.queue.filter fun f => f.port == k
  let s : State := { s with usb := { s.usb with
    queue := s.usb.queue.filter (fun f => f.port != k), polls := s.usb.polls.filter (fun p => p.1 != k)
    isoOut := s.usb.isoOut.filter fun x => x.1.port != k } }
  let s := q.foldl (fun s f => s.usbUpFrame (replyFrame f usbXferDone 4 [])) s
  let x := s.usbPort k
  if x.absorb && x.kept then ((s.setUsbPort k fun x => { x with absorb := false, enabled := true }).raise 106 k).sendUsbPort k 8
  else
    let s : State := { s with usb := { s.usb with hid := s.usb.hid.filter fun r => r.port != k } }
    (s.setUsbPort k fun x => { x with resetting := true, enabled := false, kept := false, absorb := false, suspended := false, resuming := none }).emit
      (.usbBus k 3)

/-- A port starts resume (R312): not restarted where it is already resuming (R314). -/
def State.startResume (s : State) (k : Nat) : State :=
  let x := s.usbPort k
  if x.suspended && x.resuming.isNone then
    (s.setUsbPort k fun x => { x with resuming := some s.time.tick }).emit (.usbBus k 1)
  else s

/-- The hub itself is reset by the host: USB_OC_MODE and USB_PORT_MASK are taken (R319). -/
def State.hubReset (s : State) : State :=
  let s : State := { s with usb := { s.usb with ocMode := s.applied Fld.USB_OC_MODE, portMask := s.applied Fld.USB_PORT_MASK, wakeOn := false } }
  [1, 2, 3, 4].foldl (fun s k =>
    let s := s.remoteReset k
    if !bitAt s.usb.portMask (k - 1) then s.setPortPower k false else s) s

/-- USB_PORT_CTRL_FRAME (R308, R303, R312, R313): a port action of the host, or of the hub itself on port 0. -/
def execUsbPortCtrlFrame (f : UsbFrame) (s : State) : Out :=
  run s fun s =>
    let act := f.data.headD ctlReset
    let k := f.port
    if !s.isUsbHub || 4 < k then s
    else if k == 0 then
      if act == ctlReset then s.hubReset
      else if act == ctlWakeOn || act == ctlWakeOff then { s with usb := { s.usb with wakeOn := act == ctlWakeOn } }
      else s
    else if act == ctlReset then s.remoteReset k
    else if act == ctlPowerOn then s.setPortPower k true
    else if act == ctlPowerOff then s.setPortPower k false
    else if act == ctlSuspend then ((s.setUsbPort k fun x => { x with suspended := true }).emit (.usbBus k 0)).sendUsbPort k 0
    else if act == ctlResume then s.startResume k
    else s

/-- REMOTE_PORT_RESET_END (R308): the port is enabled at its speed, USB 2.0 only where R292 says so, and C_PORT_RESET goes to the host. -/
def execRemotePortResetEnd (port speed : Nat) (s : State) : Out :=
  run s fun s =>
    if port == 0 || 4 < port || !(s.usbPort port).resetting then s
    else
      let speed := if port == 3 && s.port3Taken then min 3 speed else speed
      (s.setUsbPort port fun x => { x with resetting := false, enabled := x.connected, speed := speed }).sendUsbPort port 8

/-- USB_PORT_STATE_FRAME: a remote port's state at the HOSTSIDE; EV099 when its connection changed. -/
def execUsbPortStateFrame (root : Nat) (f : UsbFrame) (s : State) : Out :=
  run s fun s =>
    if !s.isUsbUp || (s.remote root).state < 2 || f.port == 0 || 4 < f.port then s
    else
      let code := leAt 0 1 f.data
      let old := nth (s.remote root).ports (f.port - 1) (0, 0, 0)
      let was := old.1
      let conn := fun (c : Nat) => c == 2 || c == 3 || c == 4
      let s := s.setRemote root fun r => { r with
        ports := put r.ports (f.port - 1) (code, old.2.1 ||| leAt 1 1 f.data % 16, leAt 2 1 f.data) }
      s.raiseIf (conn was != conn code) 99 (root + 16 * b2n (conn code))

/-- A transaction of the non-Triolwick host of a hub in fallback (R292), which sees the remote hub directly: its ports act at once, its own
functions answer, and everything else goes to the device. -/
def State.fallbackHost (s : State) (tx : UsbTx) : State :=
  if tx.port == 5 then s.ownFunction tx
  else
    match tx.req with
    | .portReset => (if tx.port == 0 then s.hubReset else s.remoteReset tx.port).usbSay tx 0 []
    | .portPower on => (s.setPortPower tx.port on).usbSay tx 0 []
    | .portSuspend on =>
      (if on then (s.setUsbPort tx.port fun x => { x with suspended := true }).emit (.usbBus tx.port 0) else s.startResume tx.port).usbSay tx 0 []
    | .remoteWakeEnable on => ({ s with usb := { s.usb with wakeOn := on } } : State).usbSay tx 0 []
    | .portStatus =>
      let x := s.usbPort tx.port
      s.usbSay tx 0 (portStatusBytes x.connected x.enabled x.suspended x.overCur x.resetting x.power x.speed (2 * b2n x.cOverCur + 4 * b2n x.cSuspend))
    | .clearPortChange bits =>
      (s.setUsbPort tx.port fun x => { x with cOverCur := x.cOverCur && !bitAt bits 1, cSuspend := x.cSuspend && !bitAt bits 2 }).usbSay tx 0 []
    | _ =>
      match tx.port, tx.req with
      | 0, .getDescriptor ty => s.usbSay tx 0 (s.remoteDescriptor tx.ss ty)
      | _, _ => s.emit (.usbDevice tx.port tx.addr tx.ep tx.dirIn tx.setup tx.data)

/-- HOST_USB_TRANSACTION (R296): the root hubs and the own functions answer locally, every other transaction is answered from the
endpoint's stage; in fallback (R292) the hub's own host speaks to its ports. -/
def execHostUsbTransaction (tx : UsbTx) (s : State) : Out :=
  run s fun s =>
    if s.isUsbHub then (if s.usb.inLabel.isNone then s.fallbackHost tx else s)
    else if !s.isUsbUp then s
    else if tx.root == 0 then s.rootHub tx
    else if tx.root == 1 then s.ownFunction tx
    else if (s.remote tx.root).state < 2 then s
    else s.hostRemote tx

/-! ### Suspend, resume, wake (R310 to R314) -/

/-- A port's resume ends: SOF resumes. -/
def State.endResume (s : State) (k : Nat) : State :=
  ((s.setUsbPort k fun x => { x with resuming := none, suspended := false }).emit (.usbBus k 2)).sendUsbPort k
    (4 * b2n (s.usbPort k).cSuspend)

/-- 20 ms in ticks. -/
def resumeTicks : Nat := msTicks 20

/-- BUS_STATE at a remote hub, or the same of its own upstream in fallback (R310, R312, R314, R315). -/
def State.busStateTo (s : State) (code : Nat) : State :=
  let s : State := { s with usb := { s.usb with busState := code, running := code == 2 } }
  match code with
  | 0 => [1, 2, 3, 4].foldl (fun s k =>
      if (s.usbPort k).power then (s.setUsbPort k fun x => { x with suspended := true, cSuspend := false }).emit (.usbBus k 0) else s) s
  | 1 => [1, 2, 3, 4].foldl (fun s k => s.startResume k) s.hostReturns
  | 2 => [1, 2, 3, 4].foldl (fun s k =>
      match (s.usbPort k).resuming with
      | some t => if s.passed t resumeTicks then s.endResume k else s
      | none => s) s.hostReturns
  | _ => s.hostAbsent

/-- USB_BUS_STATE_FRAME (R310, R312, R314, R315). -/
def execUsbBusStateFrame (state : Nat) (s : State) : Out := run s fun s => if s.isUsbHub then s.busStateTo state else s

/-- USB_WAKE_FRAME (R313, R314): wake upstream while the link is suspended and neither a host resume nor a wake has begun. -/
def execUsbWakeFrame (root port : Nat) (s : State) : Out :=
  run s fun s =>
    if !s.isUsbUp || port == 0 then s
    else if s.usb.upstream == 4 && !s.usb.hostResume && !s.usb.waking then
      (({ s with usb := { s.usb with waking := true } }).emit (.usbBus 255 1)).raise 103 root
    else s.raise 103 (root + 256)

/-- DEVICE_REMOTE_WAKE (R313, R314): the remote takes over resume signalling on its suspended ports and sends WAKE. -/
def execDeviceRemoteWake (port : Nat) (s : State) : Out :=
  run s fun s =>
    if !s.isUsbHub || !s.usb.wakeOn || !(s.usbPort port).suspended || port == 0 || 4 < port then s
    else
      let s := if s.usb.busState == 0 then [1, 2, 3, 4].foldl (fun s k => s.startResume k) s
        else (s.startResume port).setUsbPort port fun x => { x with cSuspend := true }
      s.usbUpFrame (plainFrame usbWake port 0 [])

/-- REMOTE_RESUME_END (R312): once 20 ms of resume have passed the port ends resume, unless it still waits for RUN, which then ends it. -/
def execRemoteResumeEnd (port : Nat) (s : State) : Out :=
  run s fun s =>
    let x := s.usbPort port
    match x.resuming with
    | none => s
    | some t =>
      if port == 0 || 4 < port || !s.passed t resumeTicks then s
      else if s.usb.running || x.cSuspend then s.endResume port
      else s

/-- USB_UPSTREAM_LINK_CHANGE (R310, R312): 0 down or reset, 1 up at a speed, 2 suspended, 3 the host starts resume, 4 its resume
ends. EV096 when the state shown changes. In fallback (R292) the hub's own ports follow. -/
def execUsbUpstreamLinkChange (ev speed : Nat) (s : State) : Out :=
  run s fun s =>
    let was := s.usb.upstream
    let now := match ev with
      | 0 => 0
      | 2 => 4
      | 3 => was
      | _ => speed
    let s : State := { s with usb := { s.usb with
      upstream := now, hostResume := if ev == 3 then true else if ev == 4 then s.usb.hostResume else false
      waking := if ev == 3 then s.usb.waking else false } }
    let s := s.raiseIf (was != now) 96 (16 * now)
    let tell := fun (code : Nat) (s : State) =>
      if s.isUsbUp then s.sendBusState code else if s.isUsbHub && s.usb.inLabel.isNone then s.busStateTo code else s
    if !s.isUsbUp then
      (match ev with
       | 0 => tell 3 s
       | 2 => tell 0 s
       | 3 => tell 1 s
       | _ => tell 2 s)
    else
      match ev with
      | 0 => ({ s with usb := { s.usb with stages := [] } } : State).sendBusState 3
      | 1 =>
        ({ s with usb := { s.usb with remotes := s.usb.remotes.map fun r => if 2 ≤ r.state then { r with changed := true } else r } } : State).sendBusState 2
      | 2 => s.sendBusState 0
      | 3 => s.sendBusState 1
      | _ => s.sendBusState 2

/-! ### Periodic endpoints (R300) -/

/-- USB_ISO_DATA (R300): isochronous data that crossed the cable, of the service interval that began at tick `interval`: kept until the lag
has passed, and an underrun when it has missed it; at the HOSTSIDE the host's transaction has then counted it. -/
def execUsbIsoData (root : Nat) (f : UsbFrame) (interval : Nat) (s : State) : Out :=
  run s fun s =>
    if s.isUsbHub then
      let (ok, s) := s.epochOk f
      if !ok then s
      else if s.lagged interval && interval + s.lagTicks != s.time.tick.toNat then s.underrun f.port
      else if 65536 < total (s.usb.isoOut.map fun x => x.1.data.length) + f.data.length then s.underrun f.port
      else { s with usb := { s.usb with isoOut := s.usb.isoOut ++ [(f, interval)] } }
    else if !s.isUsbUp then s
    else if s.oldFrame root f then s.setRemote root fun r => { r with oldFrames := satAdd 32 r.oldFrames 1 }
    else
      match s.stageOf root f with
      | some x =>
        if s.lagged interval && interval + s.lagTicks != s.time.tick.toNat then s
        else s.setStage x fun y => { y with inPkts := y.inPkts ++ [f.data], inTicks := y.inTicks ++ [interval] }
      | none => s

/-- A report buffered while the host is absent (R315); EV107 when the buffer is full. -/
def State.bufferReport (s : State) (r : HidReport) : State :=
  if s.usb.hid.length < s.cv Fld.HID_BUFFER_REPORTS then
    { s with usb := { s.usb with hid := s.usb.hid ++ [{ r with bytes := r.bytes.take 64 }] } }
  else s.raise 107 r.port

/-- An isochronous OUT endpoint served at its interval (R300): the data whose lag has passed goes to the device. -/
def State.isoOutDue (s : State) (port addr ep : Nat) : State :=
  let mine := fun (x : UsbFrame × Nat) => x.1.port == port && x.1.addr == addr && x.1.ep == ep
  match s.usb.isoOut.find? fun x => mine x && s.lagged x.2 with
  | none => s
  | some x =>
    (({ s with usb := { s.usb with isoOut := s.usb.isoOut.erase x } } : State).emit (.usbDevice port addr ep false false x.1.data)).setUsbPort port
      fun p => { p with txs := satAdd 64 p.txs 1 }

/-- USB_PERIODIC_POLL (R300, R315): an endpoint polled at its interval; no poll while the far stage is full or, in absence, the
buffer is. -/
def execUsbPeriodicPoll (port addr ep : Nat) (dirIn iso hidClass : Bool) (data : Option (List Byte)) (s : State) : Out :=
  run s fun s =>
    if !s.isUsbHub || port == 0 || 4 < port || !(s.usbPort port).power then s
    else
      let s := s.setUsbPort port fun x => { x with hid := x.hid || hidClass, trafficAt := if s.usb.absent then x.trafficAt else s.time.tick }
      let f : UsbFrame :=
        { typ := usbXferData, port := port, addr := addr, ep := ep, dirIn := true, seq := 0,
          epoch := epochOf s.usb.epochs port addr, count := 0, stream := 0, data := data.getD [] }
      let dev := fun (s : State) => s.emit (.usbDevice port addr ep true false [])
      if !dirIn then (if iso then s.isoOutDue port addr ep else s)
      else if s.usb.absent then
        if hidClass && !iso then
          (match data with
            | some d => (dev s).bufferReport ⟨port, addr, ep, s.time.tick, d⟩
            | none => if s.usb.hid.length < s.cv Fld.HID_BUFFER_REPORTS then dev s else s)
        else s
      else if iso then (dev s).usbUpFrame { f with typ := usbIsoData }
      else
        let room := ((s.usb.polls.find? fun p => p.1 == port && p.2.1 == ep).map (·.2.2)).getD 0
        if room == 0 then s
        else
          match data with
          | none => dev s
          | some _ =>
            let take := fun (p : Nat × Nat × Nat) => if p.1 == port && p.2.1 == ep then (p.1, p.2.1, p.2.2 - 1) else p
            let s : State := { s with usb := { s.usb with polls := s.usb.polls.map take } }
            ((dev s).setUsbPort port fun x => { x with txs := satAdd 64 x.txs 1 }).usbUpFrame f

/-! ### Device functions and keepalive -/

/-- DEVICE_FUNCTION_BUS_RESET (R309): every buffer returns to the host with its content discarded; a control transfer not yet at its
status stage has no effect. A request whose transfer had completed executes; its reply is discarded from EP1 IN. -/
def execDeviceFunctionBusReset (s : State) : Out :=
  run s fun s =>
    let n := (s.mbx.waiting.filter fun w => w.msg.rq.via == .usb).length
    { s with
      mbx := { s.mbx with usbReply := none, usbWait := [], usbMute := n }, rcd := { s.rcd with ep2 := [] }, usb := { s.usb with fnSetup := [] } }

/-- KEEPALIVE_IDLE_SUSPEND (R315). -/
def execKeepaliveIdleSuspend (port : Nat) (s : State) : Out :=
  run s fun s =>
    let x := s.usbPort port
    let ms := s.cv Fld.KEEPALIVE_IDLE_SUSPEND_MS
    if s.usb.absent && 1 ≤ port && port ≤ 4 && !x.hid && x.power && !x.suspended && ms != 0 && s.passed x.trafficAt (msTicks ms) then
      (s.setUsbPort port fun x => { x with suspended := true }).emit (.usbBus port 0)
    else s

/-- KEEPALIVE_TIMEOUT (R318). -/
def execKeepaliveTimeout (s : State) : Out :=
  run s fun s =>
    if !s.usb.absent || s.cv Fld.KEEPALIVE_S == 0 || !s.passed s.usb.absentAt (secTicks (s.cv Fld.KEEPALIVE_S)) then s
    else
      let s : State := { s with usb := { s.usb with hid := [], absent := false, expired := true } }
      let s := [1, 2, 3, 4].foldl (fun s k => (s.setUsbPort k fun x => { x with kept := false, absorb := false }).remoteReset k) s
      s.raise 105 16

/-! ### Mailbox commands (R320) -/

/-- KEEPALIVE state: 0 off, 1 present, 2 absent. -/
def State.keepState (s : State) : Nat :=
  if !s.isUsbHub || s.cv Fld.KEEPALIVE_ENABLE == 0 then 0 else if s.usb.absent then 2 else 1

/-- USB_SHOW (Table 11.8). -/
def execUsbShow (rq : Req) (s : State) : Out :=
  command Cmd.usbShow 0 rq s fun _ s =>
    let present := packBits (false :: false :: s.usb.remotes.map fun r => 2 ≤ r.state)
    .show s (leBytes 1 (nth s.topo.ends 5 0) ++ leBytes 1 s.usb.upstream ++ leBytes 2 present ++ leBytes 1 s.keepState ++ zeros 3
      ++ leBytes 4 s.stagingUse ++ leBytes 4 s.usb.aborted)

/-- USB_PORT_SHOW (Table 11.8). -/
def execUsbPortShow (rq : Req) (s : State) : Out :=
  command Cmd.usbPortShow 1 rq s fun _ s =>
    let k := arg rq 0 1
    let x := s.usbPort k
    if k == 0 || 4 < k || !s.isUsbHub then .fail s .badState
    else .show s (leBytes 1 x.code ++ leBytes 1 x.speed ++ leBytes 1 (b2n x.kept) ++ zeros 1 ++ leBytes 8 x.txs ++ leBytes 8 x.deferrals
      ++ leBytes 4 x.discards ++ leBytes 4 x.trips)

/-- USB_PORT_POWER (R303, R320). -/
def execUsbPortPower (rq : Req) (s : State) : Out :=
  command Cmd.usbPortPower 2 rq s fun _ s =>
    let k := arg rq 0 1
    if k == 0 || 4 < k || !s.isUsbHub then .fail s .badState else .done (s.setPortPower k (arg rq 1 1 == 1))

/-- USB_KEEPALIVE_SHOW (Table 11.8). -/
def execUsbKeepaliveShow (rq : Req) (s : State) : Out :=
  command Cmd.usbKeepaliveShow 0 rq s fun _ s =>
    let ms := if s.usb.absent then tickDiff s.time.tick s.usb.absentAt / 32 else 0
    .show s (leBytes 1 s.keepState ++ leBytes 1 s.keptCount ++ leBytes 2 s.usb.hid.length ++ leBytes 4 s.usb.replayed
      ++ leBytes 4 s.usb.aged ++ leBytes 4 ms)

/-- USB_CLEAR (Table 11.8). -/
def execUsbClear (rq : Req) (s : State) : Out :=
  command Cmd.usbClear 1 rq s fun _ s =>
    let k := arg rq 0 1
    let zero := fun (x : UsbPort) => { x with txs := 0, deferrals := 0, discards := 0, trips := 0 }
    if k == 0xFF then
      .done { s with usb := { s.usb with ports := s.usb.ports.map zero, aborted := 0, underruns := 0, replayed := 0, aged := 0 } }
    else if k == 0 || 4 < k || !s.isUsbHub then .fail s .badState
    else .done (s.setUsbPort k zero)

end Sys2Proof.Machine
end

