-- ==== Sys2Proof/Machine/WindowOps.lean ====
section
/-! DEFINITION. The hardware window (Table 3.11), the frames that LOCAL and DEBUG carry (Table 3.9), and what a reply that comes back up
the chain does (R71). -/

namespace Sys2Proof.Machine

/-! ### The hardware window (R76, R79, R80) -/

/-- One word of the window, by its index; TICK_HI as last latched. -/
def State.windowWord (s : State) (c : Chan) (k : Nat) : Nat :=
  match k with
  | 0 => 0x84000A1D
  | 1 => 0xB0
  | 2 => s.boot.stage % 16 + 256 * (s.boot.error % 256)
  | 3 => (s.status c).toNat
  | 4 => s.time.tick.toNat % 2 ^ 32
  | 5 => s.mbx.tickHi.toNat
  | 6 => s.lifecycle
  | _ => 0

/-- A read of TICK_LO latches TICK_HI. -/
def State.latchTick (s : State) (k : Nat) : State :=
  if k == 4 then { s with mbx := { s.mbx with tickHi := BitVec.ofNat 16 (s.time.tick.toNat / 2 ^ 32) } } else s

/-- `n` words from index `k` up, each read in turn. -/
def State.windowWords (s : State) (c : Chan) : Nat → Nat → List Nat × State
  | 0, _ => ([], s)
  | n + 1, k =>
    let s := s.latchTick k
    let (ws, t) := s.windowWords c n (k + 1)
    (s.windowWord c k :: ws, t)

/-- The level at which the mailbox hardware judges a window access (R80). -/
def State.windowLevel (s : State) (c : Chan) : Nat :=
  match c with
  | .loc => if s.mbx.arm then 3 else 2
  | .dbg => if openLc s.lifecycle then 3 else 0
  | _ => 0

/-- A write of one window word (R79): RESET_CTL at window level P3 on LOCAL or DEBUG with its key; every other write is ignored. -/
def State.windowWrite (s : State) (via : Via) (off value : Nat) : State :=
  let c := viaChan via
  if off / 4 != 7 || value / 65536 % 65536 != 0xC0A7 || (c != .loc && c != .dbg) || s.windowLevel c < 3 then s
  else if value % 16 == 1 then s.askSystemReset 0x32
  else if value % 16 == 2 then s.mgtCoreReset 0x32
  else s

/-! ### Credentials (R59, R80) -/

/-- A credential handle ends, by `sys.cred.close` or unused (R59); LOCAL's window arm falls with the last P3 handle of LOCAL (R80), and its
sideband locks lapse (R353). -/
def State.credClosed (s : State) (c : Chan) (handle : Nat) : State :=
  let p3 := fun (s : State) => (s.chan .loc).creds.any fun k => k.level == 3
  let t := s.modChan c fun x => { x with creds := x.creds.filter fun k => k.handle != handle }
  let t := if c == .loc && p3 s && !p3 t then { t with mbx := { t.mbx with arm := false } } else t
  t.sbCredGone (chanNum c) handle

/-! ### Frames (R72 to R75, Table 3.9) -/

/-- A write-request frame that stands: N in range, all there, its CRC right. -/
def requestFrameOk (b : List Byte) : Bool :=
  let n := leAt 2 2 b
  16 ≤ n && n ≤ 1040 && 6 + n ≤ b.length && leAt (4 + n) 2 b == crc16 (b.take (4 + n))

/-- A window-write frame that stands. -/
def windowFrameOk (b : List Byte) : Bool := 10 ≤ b.length && leAt 8 2 b == crc16 (b.take 8)

/-- The reply held for LOCAL or DEBUG discarded, with or without the indication of a rejection (R73, R74). -/
def State.discardHeld (s : State) (via : Via) (rejected : Bool) : State :=
  if via == .jtag then { s with mbx := { s.mbx with dbgHeld := none, dbgReject := rejected } }
  else { s with mbx := { s.mbx with spiHeld := none, spiReject := rejected } }

/-- A frame of the sender's: a request is submitted, a window word written, anything else but a read rejected with EV005 (R73). -/
def State.takeFrame (s : State) (via : Via) (b : List Byte) : State :=
  let chan := chanNum (viaChan via)
  match leAt 0 1 b with
  | 1 =>
    if requestFrameOk b then
      let m := parseReq via (slice 4 (leAt 2 2 b) b)
      (s.discardHeld via false).submit m m.whole
    else (s.discardHeld via true).raise 5 chan
  | 2 => s
  | 3 => s
  | 4 => if windowFrameOk b then s.windowWrite via (leAt 1 1 b) (leAt 4 4 b) else s.raise 5 chan
  | _ => if b.isEmpty then s else (s.discardHeld via true).raise 5 chan

/-- What a read-reply frame returns after the status word `st`: L and the message, then the CRC over all of it. After a rejection L is
0xFFFF, whatever reply has been made since (R73). -/
def readReply (st : List Byte) (held : Option Reply) (rejected : Bool) : List Byte :=
  let body := if rejected then leBytes 2 0xFFFF else
    match held with
    | some r => let m := replyBytes r; leBytes 2 m.length ++ m
    | none => leBytes 2 0
  st ++ body ++ leBytes 2 (crc16 (st ++ body))

/-- What a read-reply frame of LOCAL or DEBUG returns. -/
def State.replyFrame (s : State) (via : Via) : List Byte :=
  let st := leBytes 4 (s.status (viaChan via)).toNat
  if via == .jtag then readReply st s.mbx.dbgHeld s.mbx.dbgReject else readReply st s.mbx.spiHeld s.mbx.spiReject

/-- What a window-read frame returns: exactly the words of the applied COUNT, then the CRC (R76). -/
def State.windowFrame (s : State) (via : Via) (offset count : Nat) : List Byte × State :=
  let st := leBytes 4 (s.status (viaChan via)).toNat
  let (ws, s) := s.windowWords (viaChan via) (min count 16) (offset % 256 / 4)
  let body := st ++ ws.flatMap (leBytes 4)
  (body ++ leBytes 2 (crc16 body), s)


/-! ### What comes back up the chain (R70, R71) -/

/-- The payload of a completion that a forwarded reply makes, and its result: cut to 1,016 bytes with OK_PARTIAL. -/
def forwardPayload (b : List Byte) : Nat × List Byte :=
  let data := b.drop 16
  let rc := leAt 6 2 b
  (if 1016 < data.length then Rc.okPartial.code else rc, slice 0 4 b ++ slice 10 2 b ++ zeros 2 ++ data.take 1016)

/-- The next request held back because four were outstanding toward the port is sent (Table 3.1). -/
def State.sendHeld (s : State) (port : Nat) : State :=
  if 4 ≤ (s.mbx.forwards.filter fun f => f.port == port && f.sent).length then s
  else
    match s.mbx.forwards.findIdx? fun f => f.port == port && !f.sent with
    | none => s
    | some i =>
      match s.mbx.forwards[i]? with
      | none => s
      | some f =>
        ({ s with mbx := { s.mbx with forwards := put s.mbx.forwards i { f with sent := true, since := s.time.tick } } } : State).peerSend
          port (reqBytes f.msg.opcode f.msg.rq)

/-- A contract that a binding sent ahead was refused or not answered: the binding fails with that result. -/
def State.contractFailed (s : State) (kind which rc : Nat) (data : List Byte) : State :=
  match kind with
  | 0 => match s.stream which with
    | some x => s.dispFail x rc data
    | none => s
  | 1 => s.bindFailed which rc data
  | 2 => s.remoteDown which 1
  | _ => s.groupFailed which rc data

/-- A contract that a binding sent ahead stands: once none of its contracts waits, the path is opened. -/
def State.contractStands (s : State) (kind which : Nat) : State :=
  if s.mbx.forwards.any fun f => f.origin == .contract kind which then s
  else
    match kind with
    | 0 => s.dispNext which
    | 1 => s.bindNext which
    | 2 => s.usbNext which
    | _ => s.netNext which

/-- A forwarded request taken from those that wait for their replies. -/
def State.dropForward (s : State) (f : Fwd) : State :=
  ({ s with mbx := { s.mbx with forwards := s.mbx.forwards.erase f } } : State).sendHeld f.port

/-- The reply of a forwarded request has come (R71). -/
def State.forwardDone (s : State) (f : Fwd) (b : List Byte) : State :=
  let s := s.dropForward f
  match f.origin with
  | .own _ h => let (rc, data) := forwardPayload b; s.finish f.msg.rq.via h rc data
  | .relay up => s.peerSend up b
  | .contract kind which =>
    let rc := leAt 6 2 b
    if (Rc.of rc).bad then s.contractFailed kind which rc (b.drop 16) else s.contractStands kind which
  | .clear => s

/-- No reply has come within FORWARD_TIMEOUT_MS (R71). -/
def State.forwardLost (s : State) (f : Fwd) : State :=
  let s := s.dropForward f
  match f.origin with
  | .own _ h => s.finishRc f.msg.rq.via h .retryLater
  | .relay _ => s
  | .contract kind which => s.contractFailed kind which Rc.retryLater.code []
  | .clear => s

/-- The request outstanding on a port that a reply of a TAG answers. The spec gives no rule for it: the oldest with that TAG (DESIGN
CHOICE, log entry 65). -/
def State.forwardOf (s : State) (port : Nat) (tag : Half) : Option Fwd :=
  s.mbx.forwards.find? fun f => f.port == port && f.sent && f.msg.rq.tag == tag

end Sys2Proof.Machine
end

