-- ==== Sys2Proof/Machine/Mailbox.lean ====
section
/-! DEFINITION. The transports of the mailbox channels (spec/03): frames, buffers, forwarding, the reply backstop, lapses and the
watchdog. -/

namespace Sys2Proof.Machine

/-! ### LOCAL over SPI and I3C -/

/-- LOCAL answers on SPI (R47, R472). -/
def State.spiOn (s : State) : Bool := !s.pins.mbxSel && !s.hibernates

/-- LOCAL answers on I3C. -/
def State.i3cOn (s : State) : Bool := s.pins.mbxSel && !s.hibernates

/-- What the hub drives on MISO in one chip select: the bytes of the frame, and 0xFF on every byte after them (R72, R76). -/
def State.miso (s : State) (bs : List Byte) : State := (s.emit (.bytes .spi bs)).emit (.rest 0xFF)

/-- SPI_WRITE_REQUEST_FRAME (R72, R73): a frame of the local controller's; the status word goes out first. -/
def execSpiWriteRequestFrame (mosi : List Byte) (s : State) : Out :=
  runAon s fun s =>
    if !s.spiOn then s
    else (s.miso (leBytes 4 (s.status .loc).toNat)).takeFrame .spi mosi

/-- SPI_READ_REPLY_FRAME (R74). -/
def execSpiReadReplyFrame (s : State) : Out :=
  runAon s fun s => if s.spiOn then s.miso (s.replyFrame .spi) else s

/-- SPI_WINDOW_READ_FRAME (R76). -/
def execSpiWindowReadFrame (offset count : Nat) (s : State) : Out :=
  runAon s fun s =>
    if !s.spiOn then s
    else
      let (bs, s) := s.windowFrame .spi offset (count % 256)
      s.miso bs

/-- RESET_CTL_SYSTEM_RESET (R79, R80): a window write of RESET_CTL with KIND 1 and its key. -/
def execResetCtlSystemReset (via : Via) (s : State) : Out :=
  runAon s fun s => if s.hibernates then s else s.windowWrite via 0x1C 0xC0A70001

/-- RESET_CTL_MGMT_CORE_RESET (R79, R80): the same with KIND 2. -/
def execResetCtlMgmtCoreReset (via : Via) (s : State) : Out :=
  runAon s fun s => if s.hibernates then s else s.windowWrite via 0x1C 0xC0A70002

/-- Function 7 is there (R77): the upstream port is this hub's. -/
def State.function7 (s : State) : Bool := nth s.topo.ends 4 0 == 1

/-- The request buffer handed over (R77), an unread reply discarded; ignored while REQ_BUSY is 1. As many payload bytes are delivered as
LENGTH says and the buffer holds, since nothing else tells their number (DESIGN CHOICE, log entry 65). -/
def State.bar0Submit (s : State) : State :=
  if !s.function7 || s.mbx.bar0Busy then s
  else
    let b := fitBytes 1040 s.mbx.bar0Req
    ({ s with mbx := { s.mbx with bar0Busy := true, bar0Reply := none } } : State).submit (parseReq .pcie (b.take (16 + leAt 4 2 b))) true

/-- The reply buffer returned (R77). -/
def State.bar0Release (s : State) : State := if s.function7 then { s with mbx := { s.mbx with bar0Reply := none } } else s

/-- A write of a word of function 7's BAR 0 (Table 3.10): the request buffer while REQ_BUSY is 0, SUBMIT and RELEASE; nothing else is
written. -/
def State.bar0Write (s : State) (off value : Nat) : State :=
  if off / 4 == 0x10 then (if bitAt value 0 then s.bar0Submit else s)
  else if off / 4 == 0x12 then (if bitAt value 0 then s.bar0Release else s)
  else if s.function7 && !s.mbx.bar0Busy && 0x1000 ≤ off && off < 0x1410 then
    let k := (off - 0x1000) / 4 * 4
    let b := fitBytes 1040 s.mbx.bar0Req
    { s with mbx := { s.mbx with bar0Req := b.take k ++ leBytes 4 value ++ b.drop (k + 4) } }
  else s

/-- A word of function 7's BAR 0 as read (Table 3.10); a buffer beyond what it holds, and a reply buffer given back, reads 0 (DESIGN
CHOICE, log entry 65). -/
def State.bar0Word (s : State) (k : Nat) : Nat × State :=
  if k < 16 then let s := s.latchTick k; (s.windowWord .tun k, s)
  else
    let reply := (s.mbx.bar0Reply.map replyBytes).getD []
    let v := if k == 0x11 then b2n s.mbx.bar0Busy + 2 * b2n s.mbx.bar0Reply.isSome + 65536 * reply.length
      else if 0x400 ≤ k && k < 0x504 then leAt (4 * (k - 0x400)) 4 (fitBytes 1040 s.mbx.bar0Req)
      else if 0x800 ≤ k && k < 0x904 then leAt (4 * (k - 0x800)) 4 (fitBytes 1040 reply)
      else 0
    (v, s)

/-- `n` words of function 7's BAR 0 from word `k` up, each read in turn. -/
def State.bar0Words : Nat → Nat → State → List Nat × State
  | 0, _, s => ([], s)
  | n + 1, k, s =>
    let (w, s) := s.bar0Word k
    let (ws, t) := State.bar0Words n (k + 1) s
    (w :: ws, t)

/-- Function 7 is reset (Table 4.5): its buffers at their reset values, the TUNNEL overrides withdrawn. -/
def State.function7Reset (s : State) : State :=
  ({ s with mbx := { s.mbx with bar0Req := [], bar0Busy := false, bar0Reply := none } } : State).withdraw 1 fun _ => true

/-- REGISTER_WRITE (R6, R7, R79): map 0 the hardware window, where nothing but RESET_CTL is written; map 1 BAR 0 of function 7; map 2
BAR 0 of the network function. -/
def execRegisterWrite (map off value : Nat) (s : State) : Out :=
  run s fun s =>
    if map == 1 then s.bar0Write off value
    else if map == 2 then s.netRegWrite off value
    else s

/-- I3C_PRIVATE_WRITE (R75): a frame as over SPI, or the selection of what private reads return. -/
def execI3cPrivateWrite (bs : List Byte) (s : State) : Out :=
  runAon s fun s =>
    if !s.i3cOn then s
    else
      let sel := if leAt 0 1 bs == 3 && bs.length == 3 then some (leAt 1 1 bs, leAt 2 1 bs) else none
      let s : State := { s with mbx := { s.mbx with i3cSel := sel } }
      s.takeFrame .spi bs

/-- I3C_PRIVATE_READ (R75): the MISO content of the selected frame. -/
def execI3cPrivateRead (s : State) : Out :=
  runAon s fun s =>
    if !s.i3cOn then s
    else
      match s.mbx.i3cSel with
      | none => s.emit (.bytes .spi (s.replyFrame .spi))
      | some (off, n) =>
        let (bs, s) := s.windowFrame .spi off n
        s.emit (.bytes .spi bs)

/-! ### TUNNEL -/

/-- SUBMIT (R77). -/
def execSubmit (s : State) : Out := run s fun s => s.bar0Submit

/-- RELEASE (R77). -/
def execRelease (s : State) : Out := run s fun s => s.bar0Release

/-- USB_MBX_BULK_OUT (R78, R306, R515): EP1 OUT carries a request and discards a reply still unread; EP2 OUT the bytes that
`upd.stage` waits for, 60 KiB at most. -/
def execUsbMbxBulkOut (ep : Nat) (bs : List Byte) (s : State) : Out :=
  run s fun s =>
    if !s.usbFnUp then s
    else if ep == 1 then
      if s.epHeld 0 then s
      else
        let m := parseReq .usb bs
        ({ s with mbx := { s.mbx with usbReply := none } } : State).submit m (16 ≤ bs.length && m.whole)
    else if ep == 2 then
      match s.upd.stageIn with
      | none => s
      | some (e, c) =>
        let s := s.setFlash fun f => { f with images := put f.images (copyIdx e c) (nth f.images (copyIdx e c) [] ++ bs.take 61440) }
        { s with upd := { s.upd with stageIn := none } }
    else s

/-- USB_MBX_BULK_IN (R78): EP1 IN carries the reply; EP2 IN what `rec.read` has left. -/
def execUsbMbxBulkIn (ep : Nat) (s : State) : Out :=
  run s fun s =>
    if !s.usbFnUp then s
    else if ep == 1 then
      match s.mbx.usbReply with
      | some r => ({ s with mbx := { s.mbx with usbReply := none } } : State).emit (.bytes .usb (replyBytes r))
      | none => s
    else if ep == 2 && !s.rcd.ep2.isEmpty then
      ({ s with rcd := { s.rcd with ep2 := s.rcd.ep2.drop 61440 } } : State).emit (.bytes .usb (s.rcd.ep2.take 61440))
    else s

/-- USB_VENDOR_STATUS (R78): vendor control request 0x01. -/
def execUsbVendorStatus (s : State) : Out :=
  run s fun s => if s.usbFnUp then s.emit (.bytes .usb (leBytes 4 (s.status .tun).toNat)) else s

/-- USB_VENDOR_WINDOW_READ (R76): vendor control request 0x02, `len` bytes and 64 at most. -/
def execUsbVendorWindowRead (index len : Nat) (s : State) : Out :=
  run s fun s =>
    if !s.usbFnUp then s
    else
      let n := min len 64
      let (ws, s) := s.windowWords .tun ((n + 3) / 4) (index / 4)
      s.emit (.bytes .usb ((ws.flatMap (leBytes 4)).take n))

/-- USB_VENDOR_WINDOW_WRITE (R79, R309): vendor control request 0x03 at its status stage. -/
def execUsbVendorWindowWrite (index value : Nat) (s : State) : Out :=
  run s fun s => if s.usbFnUp then s.windowWrite .usb index value else s

/-! ### DEBUG and PEER -/

/-- JTAG_DBG_MBX (R47, R78): a message of the DEBUG channel in the layout of the SPI frames. -/
def execJtagDbgMbx (frame : List Byte) (s : State) : Out :=
  runAon s fun s =>
    let s : State := { s with pins := { s.pins with ir := 0x20, extest := false } }
    if s.hibernates then s
    else if leAt 0 1 frame == 2 then s.emit (.bytes .jtag (s.replyFrame .jtag))
    else if leAt 0 1 frame == 3 then
      let (bs, s) := s.windowFrame .jtag (leAt 1 1 frame) (leAt 2 1 frame)
      s.emit (.bytes .jtag bs)
    else s.takeFrame .jtag frame

/-- PEER_MESSAGE (R70): a request on path label 2; one that is no message at all is a framing error. Sideband frames are commands of
their own. -/
def execPeerMessage (port : Nat) (bs : List Byte) (s : State) : Out :=
  run s fun s =>
    if 1 < port || !s.linkUp port then s
    else if bs.length < 16 || 1040 < bs.length then s.raise 5 2
    else
      let m := parseReq (.peer port) bs
      if 0x0A80 ≤ m.opcode && m.opcode ≤ 0x0A86 then s else s.submit m m.whole

/-- FORWARDED_REPLY (R71): a reply on path label 2. -/
def execForwardedReply (port : Nat) (bs : List Byte) (s : State) : Out :=
  run s fun s =>
    if bs.length < 16 then s.raise 5 2
    else
      match s.forwardOf port (BitVec.ofNat 16 (leAt 4 2 bs)) with
      | some f => s.forwardDone f bs
      | none => s

/-- FORWARD_TIMEOUT (R71): no reply within FORWARD_TIMEOUT_MS. -/
def execForwardTimeout (port : Nat) (tag : Half) (s : State) : Out :=
  run s fun s =>
    match s.forwardOf port tag with
    | some f => if s.passed f.since (msTicks (s.cv Fld.FORWARD_TIMEOUT_MS)) then s.forwardLost f else s
    | none => s

/-! ### Long commands, handles and lapses -/

/-- MBX_REPLY_BACKSTOP (R65): a request by its place in the order of execution, complete for 0.9 ms and not answered, is answered ACCEPTED
with a handle of its own. -/
def execMbxReplyBackstop (index : Nat) (s : State) : Out :=
  run s fun s =>
    match s.mbx.waiting[index]? with
    | none => s
    | some w =>
      if !s.fwRuns || w.late.isSome || !s.passed w.tick (usTicks 900) then s
      else
        let m := w.msg
        let h := (s.chan (viaChan m.rq.via)).freeHandle
        let s : State := { s with mbx := { s.mbx with waiting := put s.mbx.waiting index { w with late := some h } } }
        (s.addJob m.rq.via m.opcode h none).fwReply m .accepted h []

/-- The work on the fuses ends (R482, R485, R486, R490): the integrity word of an installed slot is blown and read back, the content of a
destroyed one is gone, the life cycle has reached its target and the slots of Table 19.2 are destroyed, with the reset 10 ms later, the
count is the target. -/
def State.finishFuses (s : State) (via : Via) (h : Nat) (ok : Bool) : State :=
  let t : State := { s with trust := { s.trust with work := none } }
  match s.trust.work with
  | none => s
  | some (.install k cls) =>
    if ok then
      let t := t.writeSlot k cls (t.slot k).bytes
      t.finishRc via h (if t.slotState k == 1 then .ok else .hwFault)
    else t.finishRc via h .hwFault
  | some (.destroy k cls) =>
    if s.trust.dead.getLsbD k then t.finishRc via h .ok
    else ((t.setSlot k ⟨BitVec.allOnes 256, BitVec.allOnes 32⟩).raise 177 (k % 32 + 32 * cls + 256 * 4)).finishRc via h .ok
  | some (.lifecycle target) =>
    let t := (t.doomedSlots target).foldl (fun (t : State) k => t.destroySlot k) (t.blowLc target)
    (t.deferReset 1 0x33 (msTicks 10)).finishRc via h .ok
  | some (.rollback target) =>
    let t := t.blowRollback target
    t.finishRc via h .ok (leBytes 1 t.rollbackCount)

/-- A verification ends (R516): its verdict is held, and EV182 raised. -/
def State.finishVerify (s : State) (via : Via) (h : Nat) : State :=
  match s.upd.verify with
  | some (v, g, e, c) =>
    if viaChan v == viaChan via && g == h then
      let (verdict, pairs) := s.verdict e c
      let s : State := { s with upd := { s.upd with verify := none } }
      let s := (s.cryptoSpore (verdict == 0) e [BitVec.ofNat 8 verdict]).spore 9 0 (fitBytes 48 (imgDigest (s.image e c)))
      let s := (s.setVerdict e c (some verdict)).raise 182 (e % 4 + 4 * c + 256 * verdict)
      s.finishRc via h .ok (leBytes 1 verdict ++ leBytes 1 (min 255 pairs) ++ zeros 2 ++ fitBytes 48 (imgDigest (s.image e c)))
    else s
  | none => s

/-- A commit ends (R523). -/
def State.finishCommit (s : State) (via : Via) (h : Nat) (ok : Bool) : State :=
  match s.upd.commit with
  | some c =>
    if viaChan c.via == viaChan via && c.handle == h then
      let (rc, s) := ({ s with upd := { s.upd with commit := none } } : State).commitFinish c.dir c.copy ok
      s.finishRc via h rc
    else s
  | none => s

/-- LONG_COMMAND_FINISH (R67): a long command ends, `ok` what the hardware it drives reports where that decides. -/
def execLongCommandFinish (via : Via) (handle : Nat) (ok : Bool) (s : State) : Out :=
  run s fun s =>
    match (s.chan (viaChan via)).jobs.find? fun j => j.handle == handle && j.result == none with
    | none => s
    | some j =>
      if 0x1003 ≤ j.opcode && j.opcode ≤ 0x1006 then s.finishFuses via handle ok
      else if j.opcode == 0x1103 then s.finishVerify via handle
      else if j.opcode == 0x1106 then s.finishCommit via handle ok
      else
        match j.plan with
        | some (rc, data) => s.finish via handle rc data
        | none => s

/-- COMPLETION_HANDLE_LAPSE (R68): a result not read for CRED_IDLE_S seconds. -/
def execCompletionHandleLapse (chan : Chan) (handle : Nat) (s : State) : Out :=
  run s fun s => s.modChan chan fun c => { c with
    jobs := c.jobs.filter fun j => !(j.handle == handle && j.result.isSome && s.passed j.since (secTicks (s.cv Fld.CRED_IDLE_S))) }

/-- The last use of an open handle, its opening where it has not been used (R59). -/
def ChanSt.lastUse (c : ChanSt) (k : Cred) : Tick := ((c.credUse.find? fun u => u.1 == k.handle).map (·.2)).getD k.opened

/-- CRED_IDLE_LAPSE (R59): a handle not used for CRED_IDLE_S. -/
def execCredIdleLapse (chan : Chan) (handle : Nat) (s : State) : Out :=
  run s fun s =>
    match (s.chan chan).creds.find? fun k => k.handle == handle with
    | some k => if s.passed ((s.chan chan).lastUse k) (secTicks (s.cv Fld.CRED_IDLE_S)) then s.credClosed chan handle else s
    | none => s

/-- The target state set; a running one is entered by the next plans, IDLE by its own count (R461, R462). -/
def State.setTarget (s : State) (t : Nat) : State :=
  let next := if t ≤ 1 then (if s.pwr.state ≤ 2 && s.pwr.state != t then some t else none) else s.pwr.next
  { s with pwr := { s.pwr with target := t, next := next, idleCount := 0 } }

/-- The watchdog interval in ticks: WATCHDOG_MULT attention intervals, each rounded down to whole ticks (R61, R63). -/
def State.watchdogTicks (s : State) : Nat := s.cv Fld.WATCHDOG_MULT * usTicks (s.cv Fld.ATTN_INTERVAL_US)

/-- WATCHDOG_EXPIRY (R61): the watchdog interval has passed without a counted LOCAL request; UNATT set, the local controller's overrides withdrawn, the budget ceiling back to its record value, the
target PSTATE_UNATT_TARGET (R461), the fans at their fail-safe duty (R358), a
fleet report (R404). Stopped in RETAIN and HIBERNATE (R472). -/
def execWatchdogExpiry (s : State) : Out :=
  run s fun s =>
    if s.mbx.unatt || s.asleep || s.mbx.sinceAttn < s.watchdogTicks then s
    else
      let s := ({ s with mbx := { s.mbx with unatt := true } } : State).raise 6 1
      let s := s.withdraw 0 fun _ => true
      let s : State := { s with cc := s.cc.map fun c => { c with armed := 0 } }
      (s.setTarget (s.cv Fld.PSTATE_UNATT_TARGET)).fansUnattended.fleetReport

/-- FUNCTION7_RESET (R91, Table 4.5): function 7 is reset, or the USB vendor interface deconfigured. -/
def execFunction7Reset (usb : Bool) (s : State) : Out :=
  run s fun s =>
    if usb then ({ s with mbx := { s.mbx with usbReply := none } } : State).withdraw 1 fun _ => true
    else s.function7Reset

/-- ADAPTER_END_DEFERRED_APPLY (R14): the last path of an adapter has closed. -/
def execAdapterEndDeferredApply (adapter : Nat) (s : State) : Out :=
  run s fun s =>
    match nth s.topo.deferred adapter none with
    | some v => if s.endBusy adapter then s else (s.setEndTo adapter v).raise 8 0
    | none => s

end Sys2Proof.Machine
end

