-- ==== Sys2Proof/Machine/Memory.lean ====
section
/-! DEFINITION. Memory system rows (spec/14, R494 to R503): accesses, fences, scrub, drift check, refresh and the memory commands. -/

namespace Sys2Proof.Machine

/-- MEMORY_ACCESS (R495, R496, R498): `master` makes an access of kind 0 read, 1 write, 2 fetch to `len` bytes at `addr`, after `drains`
stores of its buffer have drained; `debug` marks an access in debug mode; `waits` cycles went by for a bank, `ecc` is an error found in the
first word, `collides` says that the other port of SB0 or SB1 wrote the same word in the cycle,
and `user` that a service core makes the access in user mode, for the instance it runs (R381). -/
def execMemoryAccess (master kind addr len : Nat) (data : List Byte) (debug : Bool) (waits ecc drains : Nat) (collides user : Bool)
    (s : State) : Out :=
  runAon s fun s =>
    let formed := [1, 2, 4, 8, 16, 32, 64].contains len && addr % len == 0 && addr < 2 ^ 40 && master < 16 && kind ≤ 2
    let absent := (s.asleep && master != 15) || (1 ≤ master && master ≤ 9 && !s.svc.on)
    if !formed || absent then s
    else
      let s := if coreMaster master then s.drainStores master (min drains 8) else s
      let dbg := master == 14 || (debug && s.masterHalted master)
      if s.masterHalted master && !dbg then s
      else
        match (if user && !dbg then s.pmpFault master kind addr len else none) with
        | some inst => (s.emit (.memDenied master)).faultInst inst 1
        | none =>
          let s := s.waited master addr waits
          if collides && kind == 1 && master != 9 && sbBase ≤ addr && addr < sbBase + 0x40000 then s.collided
          else s.access master kind addr len (fitBytes len data) dbg ecc

/-- FENCE (R499): completes after the store buffer has drained, every notice posted. -/
def execFence (master : Nat) (s : State) : Out :=
  runAon s fun s => if coreMaster master then (s.drainAll master).emit (.fenced master) else s

/-- Words of the device, and the ticks of a pass of the scrub (R371). -/
def State.scrubWords (s : State) : Nat := s.usableMib * (mib / 8)
def State.scrubPeriod (s : State) : Nat := secTicks (3600 * s.cv Fld.SCRUB_HOURS)

/-- The next word of the scrub is due: a pass of SCRUB_HOURS is spread evenly over its words (DESIGN CHOICE, log entry 68). -/
def State.scrubDue (s : State) : Bool :=
  s.mem.scrubDone * s.scrubPeriod ≤ tickDiff s.time.tick s.mem.scrubFrom * s.scrubWords

/-- One more word of the pass read; after the last, the next pass begins. -/
def State.scrubNext (s : State) : State :=
  if s.mem.scrubDone + 1 < s.scrubWords then { s with mem := { s.mem with scrubDone := s.mem.scrubDone + 1 } }
  else { s with mem := { s.mem with scrubDone := 0, scrubFrom := s.mem.scrubFrom + BitVec.ofNat 48 s.scrubPeriod } }

/-- LPDDR_PATROL_SCRUB (R371): the scrub reads the word at a usable address, when one is due. -/
def execLpddrPatrolScrub (addr ecc : Nat) (s : State) : Out :=
  run s fun s =>
    if s.target (lpddrBase + addr) == .lpddr && s.scrubDue then s.scrubNext.readWord ((lpddrBase + addr) / 8) ecc else s

/-- DQS_DRIFT_CHECK (R369): every 2 ms drift is measured and one channel's delays retrained, while the interface is active. -/
def execDqsDriftCheck (channel : Nat) (s : State) : Out :=
  run s fun s =>
    if s.mem.lpddr == .active && channel < 4 && s.passed s.mem.dqsAt (msTicks 2) then
      ({ s with mem := { s.mem with dqsAt := s.time.tick } } : State).emit (.dqsRetrain channel)
    else s

/-- LPDDR_REFRESH (R370): a bank is refreshed; nothing that a master reads changes. -/
def execLpddrRefresh (bank : Nat) (s : State) : Out :=
  run s fun s => if s.mem.lpddr == .active then s.emit (.refresh bank) else s

def execMemShow (rq : Req) (s : State) : Out :=
  command Cmd.memShow 0 rq s fun _ s =>
    let m := s.mem
    .show s (leBytes 1 m.lpddr.code ++ leBytes 1 m.rate ++ leBytes 2 m.gib ++ leBytes 8 m.corrected ++ leBytes 4 m.uncorrected
      ++ leBytes 8 m.lastUnc ++ leBytes 4 m.sramCor ++ leBytes 4 m.sramUnc ++ leBytes 4 m.collisions ++ leBytes 1 (100 * m.scrubDone / max 1 s.scrubWords) ++ zeros 3)

def execMemMasterShow (rq : Req) (s : State) : Out :=
  command Cmd.memMasterShow 0 rq s fun _ s => .show s (s.mem.conflicts.flatMap (leBytes 4))

def execMemMapShow (rq : Req) (s : State) : Out :=
  command Cmd.memMapShow 0 rq s fun _ s =>
    .show s ((s.memPlan.flatMap fun r => leBytes 8 r.1 ++ leBytes 8 r.2)
      ++ leBytes 8 (total (s.mem.stores.map fun e => e.2.2) * (2 * mib)))

def execMemClear (rq : Req) (s : State) : Out :=
  command Cmd.memClear 0 rq s fun _ s =>
    .done { s with mem := { s.mem with
      corrected := 0, uncorrected := 0, sramCor := 0, sramUnc := 0, collisions := 0, conflicts := List.replicate 16 0 } }

/-- mem.inject (Table 14.7): the word that an address names takes faulty check bits at its next write. -/
def execMemInject (rq : Req) (s : State) : Out :=
  command Cmd.memInject 12 rq s fun _ s =>
    let a := arg rq 4 8
    let word : Option Nat := match arg rq 0 1 with
      | 0 => if s.target (lpddrBase + a) == .lpddr then some ((lpddrBase + a) / 8) else none
      | 1 => if a < mib then some (a / 8) else none
      | 2 => if a < 4 * mib then some ((sbBase + a) / 8) else none
      | 3 => if a < 8 * mib then some (cellWord (a / 256)) else none
      | _ => none
    match word with
    | some w =>
      if 1 < arg rq 1 1 then .fail s .badState
      else .done { s with mem := { s.mem with
        faults := (s.mem.faults.filter fun f => !(f.word == w && f.armed)) ++ [⟨w, arg rq 1 1 == 1, true⟩] } }
    | none => .fail s .badState

end Sys2Proof.Machine
end

