-- ==== Sys2Proof/Machine/Pcie.lean ====
section
/-! DEFINITION. The PCI Express commands (spec/10). -/

namespace Sys2Proof.Machine

/-! ### The virtual switch (R269, R270, R272, R284) -/

/-- A function of the hub is present (Table 10.3, R330): 0 the upstream port, 1 to 16 bridges 0 to 15, 17 function 7, 18 the network
function, once bridge 0 has a secondary bus. -/
def State.fnPresent (s : State) (fn : Nat) : Bool :=
  s.pcieUp && fn ≤ 18 && ((fn != 1 && fn != 18) || s.netFunction) && (fn != 18 || (s.pcEnd 0).bus.2.1 != 0)

/-- The registers of a function: the upstream port's, or a bridge's. -/
def State.fnRegs (s : State) (fn : Nat) : PciEnd := if fn == 0 then s.pcie.up else s.pcEnd (fn - 1)

def State.setRegs (s : State) (fn : Nat) (f : PciEnd → PciEnd) : State :=
  if fn == 0 then { s with pcie := { s.pcie with up := f s.pcie.up } }
  else if fn ≤ 16 then s.setEnd (fn - 1) f
  else s

/-- Link Status as a function shows it: the mirrored speed and width, Link Training and Data Link Layer Link Active (R272). -/
def State.showLinkStatus (s : State) (fn : Nat) : Nat :=
  if fn == 0 then linkStatus (s.pcLink 0)
  else
    let x := s.fnRegs fn
    x.lnkSta.toNat % 1024 + 2048 * b2n x.training + 8192 * b2n x.active

/-- Slot Capabilities of a bridge (R284), with the bits where PCI Express places them (PRESUMED, log entry 24). -/
def State.slotCaps (s : State) (b : Nat) : Nat :=
  let x := s.pcEnd b
  let power := x.state != 0 && (s.bayOfDp x.dport).isSome
  if b == 0 then 0 else 2 * b2n power + 32 + 64 + 2 ^ 18 + b * 2 ^ 19

/-- Device Capabilities: Max Payload Size Supported 512 B; Device Capabilities 2: 10-Bit Tag Completer and Requester Supported (Table
10.2). Like the other places of standard registers they are PRESUMED (log entry 24). -/
def deviceCap : Nat := 2
def deviceCap2 : Nat := 0x30000

/-- L1 PM Substates Capabilities, and what of its Control register may be set: L1.1 and L1.2 as ASPM_L1SS permits (Table 10.7). -/
def State.l1ssCap (s : State) : Nat := if s.cv Fld.ASPM_L1SS == 2 then 0x1F else 0
def State.l1ssMask (s : State) (v : Nat) : Word := BitVec.ofNat 32 (if s.cv Fld.ASPM_L1SS == 2 then v else v / 16 * 16)

/-- Link Control as a function holds it: Retrain Link reads 0, and no ASPM state beyond ASPM_L1SS is enabled; L0s is never. -/
def State.linkControl (s : State) (v : Nat) : Half :=
  BitVec.ofNat 16 v &&& (if s.cv Fld.ASPM_L1SS == 0 then 0xFFDC else 0xFFDE)

/-- The value that a configuration read of an endpoint answers: function 7 or the network function (Table 10.3, R330). -/
def State.endpointRead (s : State) (net : Bool) (reg : CfgReg) : Nat :=
  let f := if net then s.pcie.netFn else s.pcie.f7
  match reg with
  | .vendorId => 0x1E9B
  | .deviceId => if net then 0x8430 else 0x8407
  | .revision => 0xB0
  | .classCode => if net then 0x020000 else 0x088000
  | .headerType => if net then 0 else 0x80
  | .command => f.cmd.toNat
  | .bar0 => f.bar
  | .deviceCap => deviceCap
  | .deviceCap2 => deviceCap2
  | .powerCap => if net then 0x4003 else 0x0003
  | .powerState => if net then (if s.net.d3hot then 3 else 0) + 256 * b2n s.net.pmeEn + 32768 * b2n s.net.pmeStatus else 0
  | .busNumbers => 0
  | .memBase => 0
  | .memLimit => 0
  | .bridgeControl => 0
  | .linkCap => 0
  | .linkControl => 0
  | .linkStatus => 0
  | .slotCap => 0
  | .slotControl => 0
  | .slotStatus => 0
  | .deviceControl => 0
  | .acsControl => 0
  | .aerUncStatus => 0
  | .aerCorStatus => 0
  | .aerUncSeverity => 0
  | .vsec => 0
  | .l1ssCap => 0
  | .l1ssControl => 0

/-- The value that a configuration read of the upstream port or of a bridge answers. -/
def State.bridgeRead (s : State) (fn : Nat) (reg : CfgReg) : Nat :=
  let x := s.fnRegs fn
  let bus := x.bus
  match reg with
  | .vendorId => 0x1E9B
  | .deviceId => if fn == 0 then 0x8400 else if fn == 1 then 0x8410 else 0x8411
  | .revision => 0xB0
  | .classCode => 0x060400
  | .headerType => if fn == 0 then 0x81 else 0x01
  | .busNumbers => bus.1 + 256 * bus.2.1 + 65536 * bus.2.2
  | .memBase => x.memBase
  | .memLimit => x.memLimit
  | .command => x.cmd.toNat
  | .bridgeControl => x.brCtl.toNat
  | .linkCap => if fn == 0 then s.linkMaxRate 0 + 16 * s.upLinkWidth + 2048 * b2n (s.cv Fld.ASPM_L1SS != 0) else x.lnkCap.toNat
  | .linkControl => x.lnkCtl.toNat
  | .linkStatus => s.showLinkStatus fn
  | .slotCap => if fn == 0 then 0 else s.slotCaps (fn - 1)
  | .slotControl => x.sltCtl.toNat
  | .slotStatus => 8 * b2n x.presChg + 64 * b2n x.presence + 256 * b2n x.changed
  | .deviceControl => x.devCtl.toNat
  | .acsControl => x.acs.toNat
  | .aerUncStatus => x.aerUnc.toNat
  | .aerCorStatus => x.aerCor.toNat
  | .aerUncSeverity => x.aerSev.toNat
  | .vsec => x.vsec
  | .deviceCap => deviceCap
  | .deviceCap2 => deviceCap2
  | .l1ssCap => s.l1ssCap
  | .l1ssControl => x.l1ss.toNat
  | .powerCap => 0x0003
  | .powerState => x.dstate
  | .bar0 => 0

def State.cfgRead (s : State) (fn : Nat) (reg : CfgReg) : Nat :=
  if fn == 17 || fn == 18 then s.endpointRead (fn == 18) reg else s.bridgeRead fn reg

/-- A PORT_CTRL frame of a bound bridge: Link, Slot, Device and Bridge Control and the Routing ID, MSB first (R5, R273). -/
def State.sendPortCtrl (s : State) (b : Nat) (lnkCtl brCtl : Nat) : State :=
  let x := s.pcEnd b
  if b == 0 || x.state == 0 then s
  else s.sendFrame b 3 0 (beBytes 2 lnkCtl ++ beBytes 2 x.sltCtl.toNat ++ beBytes 2 x.devCtl.toNat ++ beBytes 2 brCtl
    ++ beBytes 2 (s.routingId b))

/-- A write to Bridge Control: Secondary Bus Reset goes to the bound port, and at the upstream port to every bound port (R270). -/
def State.writeBridgeControl (s : State) (fn v : Nat) : State :=
  let was := (s.fnRegs fn).brCtl.getLsbD 6
  let s := s.setRegs fn fun x => { x with brCtl := BitVec.ofNat 16 v }
  if bitAt v 6 || was then
    (if fn == 0 then (upTo 16).foldl (fun s b => s.sendPortCtrl b (s.pcEnd b).lnkCtl.toNat (v % 128 / 64 * 64)) s
     else s.sendPortCtrl (fn - 1) (s.fnRegs fn).lnkCtl.toNat v)
  else s

/-- A configuration write of an endpoint: Command, BAR 0, and the network function's power management register; nothing else is
written (R330). -/
def State.endpointWrite (s : State) (net : Bool) (reg : CfgReg) (v : Nat) : State :=
  let put := fun (f : PciFn → PciFn) =>
    if net then { s with pcie := { s.pcie with netFn := f s.pcie.netFn } } else { s with pcie := { s.pcie with f7 := f s.pcie.f7 } }
  if reg == .command then put fun f => { f with cmd := BitVec.ofNat 16 v }
  else if reg == .bar0 then put fun f => { f with bar := let z := if net then 65536 else 16384; v % 2 ^ 32 / z * z }
  else if net && reg == .powerState then
    let s : State := if bitAt v 15 then { s with net := { s.net with pmeStatus := false } } else s
    s.netPower (if v % 4 == 0 then false else if v % 4 == 3 then true else s.net.d3hot) (bitAt v 8)
  else s

/-- A configuration write of the upstream port or a bridge; read-only registers keep their value. -/
def State.bridgeWrite (s : State) (fn : Nat) (reg : CfgReg) (v : Nat) : State :=
  let send := fun (lnk : Nat) (s : State) => if fn == 0 then s else s.sendPortCtrl (fn - 1) lnk (s.fnRegs fn).brCtl.toNat
  let sendAll := fun (s : State) => send (s.fnRegs fn).lnkCtl.toNat s
  let clear := ~~~ (BitVec.ofNat 32 v)
  match reg with
  | .busNumbers => s.setRegs fn fun x => { x with bus := (v % 256, v / 256 % 256, v / 65536 % 256) }
  | .memBase => s.setRegs fn fun x => { x with memBase := v }
  | .memLimit => s.setRegs fn fun x => { x with memLimit := v }
  | .command => s.setRegs fn fun x => { x with cmd := BitVec.ofNat 16 v }
  | .bridgeControl => s.writeBridgeControl fn v
  | .linkControl => send ((s.linkControl v).toNat + 32 * b2n (bitAt v 5)) (s.setRegs fn fun x => { x with lnkCtl := s.linkControl v })
  | .slotControl => sendAll (s.setRegs fn fun x => { x with sltCtl := BitVec.ofNat 16 v })
  | .deviceControl => sendAll (s.setRegs fn fun x => { x with devCtl := BitVec.ofNat 16 v })
  | .slotStatus => s.setRegs fn fun x => { x with presChg := x.presChg && !bitAt v 3, changed := x.changed && !bitAt v 8 }
  | .acsControl => s.setRegs fn fun x => { x with acs := BitVec.ofNat 16 v }
  | .aerUncStatus => s.setRegs fn fun x => { x with aerUnc := x.aerUnc &&& clear }
  | .aerCorStatus => s.setRegs fn fun x => { x with aerCor := x.aerCor &&& clear }
  | .aerUncSeverity => s.setRegs fn fun x => { x with aerSev := BitVec.ofNat 32 v }
  | .l1ssControl => s.setRegs fn fun x => { x with l1ss := s.l1ssMask v }
  | .powerState => s.setRegs fn fun x => { x with dstate := if v % 4 == 0 || v % 4 == 3 then v % 4 else x.dstate }
  | .vendorId => s
  | .deviceId => s
  | .revision => s
  | .classCode => s
  | .headerType => s
  | .linkCap => s
  | .linkStatus => s
  | .slotCap => s
  | .vsec => s
  | .deviceCap => s
  | .deviceCap2 => s
  | .l1ssCap => s
  | .powerCap => s
  | .bar0 => s

def State.cfgWrite (s : State) (fn : Nat) (reg : CfgReg) (v : Nat) : State :=
  if fn == 17 || fn == 18 then s.endpointWrite (fn == 18) reg v else s.bridgeWrite fn reg v

/-- The Routing ID of a function: the upstream port and function 7 are device 0 of the primary bus, the bridges devices of the
internal bus, the network function device 0 below bridge 0 (Table 10.3). -/
def State.fnId (s : State) (fn : Nat) : Nat :=
  if fn == 0 then s.pcie.up.bus.1 * 256
  else if fn == 17 then s.pcie.up.bus.1 * 256 + 7
  else if fn == 18 then (s.pcEnd 0).bus.2.1 * 256
  else s.routingId (fn - 1)

/-- CONFIG_REQUEST (R270): answered from hardware registers; a function that is not there answers Unsupported Request. -/
def execConfigRequest (fn : Nat) (reg : CfgReg) (write : Option Nat) (rid tag : Nat) (s : State) : Out :=
  run s fun s =>
    if !s.pcieUp then s
    else if !s.fnPresent fn then s.emit (.cpl 0 (s.fnId 0) rid tag 1 [])
    else
      match write with
      | none => s.emit (.cpl 0 (s.fnId fn) rid tag 0 (leBytes 4 (s.cfgRead fn reg)))
      | some v => (s.cfgWrite fn reg v).emit (.cpl 0 (s.fnId fn) rid tag 0 [])

/-! ### TLPs -/

/-- A window of a Type 1 header takes a TLP: by address with Memory Space Enable in D0, by ID by its buses (R270). -/
def PciEnd.takes (x : PciEnd) (t : Tlp) : Bool :=
  if t.route == 0 && t.fc != 2 then x.cmd.getLsbD 1 && x.dstate == 0 && x.memBase ≤ t.target && t.target ≤ x.memLimit
  else x.bus.2.1 != 0 && x.bus.2.1 ≤ t.target / 256 % 256 && t.target / 256 % 256 ≤ x.bus.2.2

/-- The bridge that takes a TLP of the internal bus, and one that comes down from the upstream port (R270). -/
def State.bridgeFor (s : State) (t : Tlp) : Option Nat := (upTo 16).find? fun b => (s.pcEnd b).takes t
def State.downFor (s : State) (t : Tlp) : Option Nat := if s.pcie.up.takes t then s.bridgeFor t else none

/-- A TLP refused at an end: a request answered UR, a posted one discarded and counted (R272, R282). -/
def State.turnAway (s : State) (e : Nat) (w : PciHeld) : State :=
  (if w.tlp.fc == 1 then s.answerUr e w
   else if w.tlp.fc == 0 then s.setEnd e fun x => { x with postedLost := satAdd 32 x.postedLost 1 }
   else s).leaveBuffer w

/-- A TLP enters an end from its link side, or from the path of another bridge (R275, R276, R280, R282): orphaned completions are
discarded and counted. -/
def State.ingressFrom (s : State) (e : Nat) (w : PciHeld) : State :=
  let t := w.tlp
  let x := s.pcEnd e
  let mine := fun (r : PciReq) => r.rid == t.rid && r.tag == t.tag
  if t.fc == 2 && x.orphans.any mine then
    (s.setEnd e fun x => { x with
      orphaned := satAdd 32 x.orphaned 1
      orphans := if t.ends then x.orphans.filter fun r => !mine r else x.orphans }).leaveBuffer w
  else if x.state == 0 || x.state == 3 then s.turnAway e w
  else
    let s := s.setEnd e fun x => { x with
      held := x.held ++ [w]
      served := if t.fc == 2 && t.ends then x.served.filter fun r => !mine r else x.served }
    s.pump e

def State.ingressTo (s : State) (e : Nat) (t : Tlp) : State := s.ingressFrom e ⟨t, none⟩

/-- Error messages for AER bits of a bridge, or of the upstream port as 0 (Table 10.2, R286). -/
def State.aerMessages (s : State) (b : Nat) (sev unc cor : Word) : State :=
  let fatal := unc &&& sev
  let s := if fatal != 0 then s.emit (.errMsg b 2) else s
  let s := if unc != fatal then s.emit (.errMsg b 1) else s
  if cor != 0 then s.emit (.errMsg b 0) else s

/-- Errors logged at a link: in the AER of the upstream port, or told to the bound bridge by PORT_STATE (R286). -/
def State.logErrors (s : State) (link : Nat) (unc cor : Word) : State :=
  if unc == 0 && cor == 0 then s
  else if link == 0 then
    ({ s with pcie := { s.pcie with up := { s.pcie.up with
      aerUnc := s.pcie.up.aerUnc ||| unc, aerCor := s.pcie.up.aerCor ||| cor } } } : State).aerMessages 0 s.pcie.up.aerSev unc cor
  else (s.setPcLink link fun l => { l with aerUnc := l.aerUnc ||| unc, aerCor := l.aerCor ||| cor }).sendPortState (link - 1)

/-- A malformed TLP or one above Max Payload Size (Table 10.6), Malformed TLP being bit 18 of AER (PRESUMED, log entry 24). -/
def State.malformed (s : State) (link : Nat) : State :=
  ((s.setPcLink link fun l => { l with malformed := satAdd 32 l.malformed 1 }).logErrors link 0x40000 0).raise 87
    (if link == 0 then 0 else (s.pcEnd (15 + link)).bridge)

/-- Max Payload Size of a link in bytes, by Device Control of its port: 128, 256 or 512 (Table 10.2). -/
def State.maxPayload (s : State) (link : Nat) : Nat :=
  128 * 2 ^ min 2 (fieldAt (if link == 0 then s.pcie.up else s.pcEnd (15 + link)).devCtl.toNat 5 3)

/-- The bridges with a path. -/
def State.boundBridges (s : State) : List Nat := (upTo 16).filter fun b => b != 0 && (s.pcEnd b).state != 0

/-- PME_Turn_Off forwarded to every bound bridge (Table 10.2); with none bound the acknowledgement goes back at once. -/
def State.pmeTurnOff (s : State) (t : Tlp) : State :=
  if s.boundBridges.isEmpty then s.emit .pmeAck
  else
    let s := s.boundBridges.foldl (fun s b => (s.setEnd b fun x => { x with pmeAck := false }).ingressTo b t) s
    { s with pcie := { s.pcie with pmeWait := some s.time.tick } }

/-- A memory TLP falls in an endpoint's BAR 0 of `size` bytes while its Memory Space Enable is set. -/
def PciFn.takes (f : PciFn) (size : Nat) (t : Tlp) : Bool :=
  t.route == 0 && t.fc != 2 && f.cmd.getLsbD 1 && f.bar ≤ t.target && t.target + max t.data t.len ≤ f.bar + size

/-- The words of a TLP's data, by their offset in a BAR: every byte of a word is taken as enabled (DESIGN CHOICE, log entry 24). -/
def tlpWords (t : Tlp) (bar : Nat) : List (Nat × Nat) :=
  (upTo (ceilDiv t.data 4)).map fun i => ((t.target - bar) / 4 * 4 + 4 * i, leAt (4 * i) 4 (tlpData t))

/-- An access to function 7's BAR 0 (R77): its words are written in turn, or read and completed. -/
def State.bar0Access (s : State) (t : Tlp) : State :=
  let off := t.target - s.pcie.f7.bar
  if t.fc == 0 then (tlpWords t s.pcie.f7.bar).foldl (fun s w => s.bar0Write w.1 w.2) s
  else
    let (ws, s) := State.bar0Words (ceilDiv (off % 4 + t.len) 4) (off / 4) s
    s.emit (.cpl 0 (s.fnId 17) t.rid t.tag 0 (slice (off % 4) t.len (ws.flatMap (leBytes 4))))

/-- An access to the network function's BAR 0 (Table 12.3). -/
def State.netBarAccess (s : State) (t : Tlp) : State :=
  let off := t.target - s.pcie.netFn.bar
  if t.fc == 0 then (tlpWords t s.pcie.netFn.bar).foldl (fun s w => s.netRegWrite w.1 w.2) s
  else
    let ws := (upTo (ceilDiv (off % 4 + t.len) 4)).map fun i => s.netRegRead (off / 4 * 4 + 4 * i)
    s.emit (.cpl 0 (s.fnId 18) t.rid t.tag 0 (slice (off % 4) t.len (ws.flatMap (leBytes 4))))

/-- A request that no function of the hub takes is answered UR by the upstream port; other TLPs go nowhere. -/
def State.noTaker (s : State) (t : Tlp) : State := if t.fc == 1 then s.emit (.cpl 0 (s.fnId 0) t.rid t.tag 1 []) else s

/-- A TLP from the root complex routed (R270). -/
def State.routeDown (s : State) (t : Tlp) : State :=
  if t.pmeOff then s.pmeTurnOff t
  else if t.route == 3 then s.boundBridges.foldl (fun s b => s.ingressTo b t) s
  else if s.pcie.f7.takes 16384 t then s.bar0Access t
  else
    match s.downFor t with
    | some b =>
      if b != 0 then s.ingressTo b t
      else if s.netFunction && !s.net.d3hot && s.pcie.netFn.takes 65536 t then s.netBarAccess t
      else s.noTaker t
    | none => s.noTaker t

/-- TLP_INGRESS (R275): a TLP from the link partner of link 0 (UP) or 1 to 4 (DP0 to DP3) sent into its bridge's path under
credit, held while the path is suspended, refused where no bridge takes it. `errs` receiver errors and `replays` of the link since
the TLP before, and the AER Correctable bits `cor` they log. -/
def execTlpIngress (link : Nat) (t : Tlp) (errs replays cor : Nat) (s : State) : Out :=
  run s fun s =>
    if 4 < link || ((s.pcLink link).state != 2 && (s.pcLink link).state != 3) then s
    else
      let s := (s.setPcLink link fun l => { l with
        tlpsIn := satAdd 64 l.tlpsIn 1, state := 2, rcvErrs := satAdd 32 l.rcvErrs errs, replays := satAdd 32 l.replays replays
        }).logErrors link 0 (BitVec.ofNat 32 cor)
      if t.bad || s.maxPayload link < t.data then s.malformed link
      else if link != 0 then s.ingressTo (15 + link) t
      else s.routeDown t

/-- PME_TO_Ack gathered: one goes to the root complex when every bound bridge has answered (Table 10.2). -/
def State.gatherAck (s : State) (b : Nat) : State :=
  let s := s.setEnd b fun x => { x with pmeAck := true }
  if s.pcie.pmeWait.isSome && s.boundBridges.all fun k => (s.pcEnd k).pmeAck then
    ({ s with pcie := { s.pcie with pmeWait := none } }).emit .pmeAck
  else s

/-- Peer-to-peer: the other bridge that takes a TLP at the HOSTSIDE PXA0, unless ACS redirects it upstream (R276); P2P Request
Redirect and P2P Completion Redirect are bits 2 and 3 of the ACS Control register (PRESUMED, log entry 24). -/
def State.peerBridge (s : State) (e : Nat) (t : Tlp) : Option Nat :=
  if 16 ≤ e || t.route == 2 || t.route == 3 then none
  else if (s.pcEnd e).acs.getLsbD (if t.fc == 2 then 3 else 2) then none
  else
    match s.bridgeFor t with
    | some b => if b == e || b == 0 then none else some b
    | none => none

/-- ACS of a bridge bars a request (Table 10.2): Source Validation one whose requester is not below the bridge, Translation Blocking
one whose address is marked translated; bits 0 and 1 of ACS Control (PRESUMED, log entry 24). -/
def PciEnd.acsBars (x : PciEnd) (t : Tlp) : Bool :=
  t.fc != 2 && ((x.acs.getLsbD 0 && !(x.bus.2.1 ≤ t.rid / 256 % 256 && t.rid / 256 % 256 ≤ x.bus.2.2))
    || (x.acs.getLsbD 1 && t.route == 0 && fieldAt (t.bytes.getD 2 0).toNat 2 2 != 0))

/-- A bridge does not forward a memory request upward: without Bus Master Enable, in D3hot, or where the address is its own window and
ACS Upstream Forwarding (bit 4) is off (R270, Table 10.2). -/
def State.upRefused (s : State) (e : Nat) (t : Tlp) : Bool :=
  let x := s.pcEnd e
  let up := s.pcie.up
  t.fc != 2 && t.route == 0
    && (!x.cmd.getLsbD 2 || x.dstate != 0 || (s.bridgeFor t == some e && !x.acs.getLsbD 4)
      || ((s.peerBridge e t).isNone && (!up.cmd.getLsbD 2 || up.dstate != 0)))

/-- An end has granted the credit that a TLP uses (R274, R275). -/
def PciEnd.covered (x : PciEnd) (t : Tlp) : Bool :=
  let h := 2 * t.fc
  1 ≤ creditLeft (nth x.granted h 0) (nth x.got h 0) && dataCredits t ≤ creditLeft (nth x.granted (h + 1) 0) (nth x.got (h + 1) 0)

/-- The BRIDGE field of a frame against its path (Table 10.5): a port takes the bridge of the first frame it gets. A frame that names
another is dropped (DESIGN CHOICE, log entry 24). -/
def State.frameOk (s : State) (e bridge : Nat) : Bool :=
  let x := s.pcEnd e
  e < 20 && x.state != 0 && (if e < 16 then bridge == e else x.bridge == 0 || bridge == x.bridge)

def State.learnBridge (s : State) (e bridge : Nat) : State :=
  if e < 16 then s else s.setEnd e fun x => { x with bridge := bridge }

/-- A TLP that crossed the tunnel goes on its way: PME_TO_Ack is gathered, a barred or refused request goes back, a peer's enters the
path of its bridge, the others wait for the link (R276, Table 10.2). -/
def State.forwardTlp (s : State) (e : Nat) (t : Tlp) : State :=
  if e < 16 && t.pmeAck then (s.gatherAck e).freeEgress e t
  else if e < 16 && (s.pcEnd e).acsBars t then
    ((s.setEnd e fun x => { x with aerUnc := x.aerUnc ||| 0x200000 }).aerMessages e (s.pcEnd e).aerSev 0x200000 0).turnAway e ⟨t, some e⟩
  else if e < 16 && s.upRefused e t then s.turnAway e ⟨t, some e⟩
  else
    match s.peerBridge e t with
    | some b => s.ingressFrom b ⟨t, some e⟩
    | none => ((s.setEnd e fun x => { x with egress := x.egress ++ [t] }).drain e).pump e

/-- PCIE_TLP_FRAME (R276): a TLP that crossed the tunnel leaves in order on the link, or enters the path of another bridge. The
completion that ends a request clears its entry (R279); a TLP without credit is dropped and counted (R275). -/
def execPcieTlpFrame (pciEnd bridge : Nat) (t : Tlp) (s : State) : Out :=
  run s fun s =>
    let x := s.pcEnd pciEnd
    if !s.frameOk pciEnd bridge || x.state != 1 then s
    else
      let s := s.learnBridge pciEnd bridge
      if !x.covered t then
        (s.setPcLink (endLink pciEnd) fun l => { l with malformed := satAdd 32 l.malformed 1 }).raise 87 bridge
      else
        let h := 2 * t.fc
        let s := s.setEnd pciEnd fun x => { x with
          got := (x.got.modify h fun u => (u + 1) % 65536).modify (h + 1) fun u => (u + dataCredits t) % 65536
          table := if t.fc == 2 && t.ends then x.table.filter fun r => !(r.rid == t.rid && r.tag == t.tag) else x.table }
        s.forwardTlp pciEnd t

/-! ### Control frames (R273) -/

/-- PCIE_CREDIT_FRAME (R274): the far end's limits; TLPs that waited for them go. -/
def execPcieCreditFrame (pciEnd bridge : Nat) (limits : List Nat) (s : State) : Out :=
  run s fun s =>
    if !s.frameOk pciEnd bridge then s
    else
      let l := (limits.take 6).map (· % 65536)
      ((s.learnBridge pciEnd bridge).setEnd pciEnd fun x => { x with
        limits := l, first := if x.first.all (· == 0) then l else x.first }).pump pciEnd

/-- A link-active report reaches an end in Surprise Down whose path is up: it is up again (R282). -/
def State.reviveEnd (s : State) (e : Nat) : State :=
  if (s.pcEnd e).state == 3 && s.endPathUp e then s.comeBack e else s

/-- PCIE_PORT_STATE_FRAME (R272): the bridge's mirrored registers; Data Link Layer Link Active follows unless the path is
suspended, and a change of it or of Presence Detect State sets its change bit. -/
def execPciePortStateFrame (pciEnd bridge lnkCap lnkSta sltSta aerUnc aerCor : Nat) (s : State) : Out :=
  run s fun s =>
    if 16 ≤ pciEnd || pciEnd == 0 || !s.frameOk pciEnd bridge then s
    else
      let active := bitAt lnkSta 13
      let s := if active then s.reviveEnd pciEnd else s
      let unc := BitVec.ofNat 32 aerUnc
      let cor := BitVec.ofNat 32 aerCor
      let s := s.setEnd pciEnd fun x =>
        let on := if x.state == 1 then active else x.active
        { x with
          lnkCap := BitVec.ofNat 32 lnkCap, lnkSta := BitVec.ofNat 16 lnkSta
          training := if x.state == 2 then true else bitAt lnkSta 11
          active := on, changed := x.changed || x.active != on
          aerUnc := x.aerUnc ||| unc, aerCor := x.aerCor ||| cor }
      let s := s.aerMessages pciEnd (s.pcEnd pciEnd).aerSev unc cor
      (upTo 16).foldl (fun s k => s.regrant k) (s.setPresence pciEnd (bitAt sltSta 6))

/-- PCIE_PORT_CTRL_FRAME (R270): control register writes applied to the bound port: Secondary Bus Reset drives hot reset, Retrain
Link trains, a change of Power Controller Control switches the bay (R285). -/
def execPciePortCtrlFrame (dp bridge lnkCtl sltCtl devCtl brCtl routing : Nat) (s : State) : Out :=
  run s fun s =>
    let x := s.pcEnd (16 + dp)
    if 3 < dp || !s.frameOk (16 + dp) bridge then s
    else
      let s := (s.learnBridge (16 + dp) bridge).setEnd (16 + dp) fun x => { x with
        lnkCtl := s.linkControl lnkCtl, sltCtl := BitVec.ofNat 16 sltCtl, devCtl := BitVec.ofNat 16 devCtl,
        brCtl := BitVec.ofNat 16 brCtl, bus := (routing / 256 % 256, 0, 0) }
      let s := if bitAt brCtl 6 then (s.hotResetPort dp).sendPortState dp else s
      let st := (s.pcLink (dp + 1)).state
      let s := if bitAt lnkCtl 5 && (st == 2 || st == 3) then s.trainLink (dp + 1) else s
      match s.bayOfDp dp with
      | some b => if x.sltCtl.getLsbD 10 != bitAt sltCtl 10 then s.bayRequest b (!bitAt sltCtl 10) else s
      | none => s

/-- PCIE_RESUME_FRAME (R281). -/
def execPcieResumeFrame (pciEnd bridge flag : Nat) (s : State) : Out :=
  run s fun s =>
    if !s.frameOk pciEnd bridge then s
    else ((s.learnBridge pciEnd bridge).setEnd pciEnd fun x => { x with resume := some flag }).resumeEnd pciEnd

/-- PCIE_HOLD_EXPIRY (R282): the quiet hold passes with the path still suspended. -/
def execPcieHoldExpiry (pciEnd : Nat) (s : State) : Out :=
  run s fun s =>
    if (s.pcEnd pciEnd).state == 2 && s.passed (s.pcEnd pciEnd).suspAt s.pcieHold then s.surpriseDown pciEnd 1 else s

/-! ### Physical links -/

/-- HOT_RESET_END (R282): after 2 ms the link retrains. -/
def execHotResetEnd (link : Nat) (s : State) : Out :=
  run s fun s =>
    if (s.pcLink link).state == 4 && s.passed (s.pcLink link).resetAt (msTicks 2) then s.trainLink link else s

/-- PCIE_PHYS_LINK_TRAINED: a link reaches L0 (EV080) at a rate and a width that its settings permit (R266, R287); a port in Surprise
Down whose path is up is up again, and its bridge sees Data Link Layer Link Active (R282). -/
def execPciePhysLinkTrained (link rate width : Nat) (s : State) : Out :=
  run s fun s =>
    let s := if (s.pcLink link).state == 0 && link ≤ 4 then
        { s with pcie := { s.pcie with
          bifur := if link == 0 then s.pcie.bifur else s.bifurcation
          upWidth := if link == 0 then s.cv Fld.PCIE_UP_WIDTH else s.pcie.upWidth
          links := s.pcie.links.modify link fun k => { k with maxSpeed := s.cv Fld.PCIE_MAX_SPEED } } }
      else s
    if 4 < link || (0 < link && (s.pcLink link).perst) || (s.pcLink link).state == 4 || rate == 0 || s.linkMaxRate link < rate
        || width == 0 || s.linkWidth link < width then s
    else
      let s := (s.setPcLink link fun l => { l with state := 2, rate := rate, width := width, present := true }).raise 80
        (link + 16 * rate + 256 * width)
      if link == 0 then (upTo 16).foldl (fun s b => s.drain b) s
      else
        let e := 15 + link
        let was := (s.pcEnd e).state
        let s := s.reviveEnd e
        let s := s.drain e
        if was == 3 && (s.pcEnd e).state == 1 then s else s.sendPortState (link - 1)

/-- The upstream link is lost or its PERST# asserted: R283, with function 7 and the network function reset as every function is. -/
def State.upstreamLost (s : State) : State :=
  let s := (s.upstreamDown).function7Reset
  let s : State := { s with pcie := { s.pcie with f7 := .init, netFn := .init } }
  if s.netFunction then s.netFnReset else s

/-- PCIE_PHYS_LINK_DOWN (R285): EV081; at the upstream link R283; at a port its requests are treated as R280 does. -/
def execPciePhysLinkDown (link : Nat) (present : Bool) (s : State) : Out :=
  run s fun s =>
    if 4 < link || (s.pcLink link).state == 0 then s
    else
      let hot := (s.pcLink link).state == 4
      let s := (s.setPcLink link fun l => { l with state := 0, present := present }).raise 81 link
      if link == 0 then s.upstreamLost
      else (if hot then s else s.loseRequests (15 + link)).sendPortState (link - 1)

/-- PME_TO_ACK_TIMEOUT (Table 10.2): 10 ms after the broadcast one PME_TO_Ack goes up whoever has not answered. -/
def execPmeToAckTimeout (s : State) : Out :=
  run s fun s =>
    match s.pcie.pmeWait with
    | some t => if s.passed t (msTicks 10) then ({ s with pcie := { s.pcie with pmeWait := none } } : State).emit .pmeAck else s
    | none => s

/-- IN_BAND_PRESENCE_CHANGE (R284): the presence of a downstream port; where no bay is mapped to it, its bridge follows. -/
def execInBandPresenceChange (port : Nat) (present : Bool) (s : State) : Out :=
  run s fun s =>
    if 3 < port then s
    else
      let s := s.setPcLink (port + 1) fun l => { l with present := present }
      if (s.bayOfDp port).isNone then s.sendPortState port else s

/-- UPSTREAM_PERST (R283). -/
def execUpstreamPerst (s : State) : Out :=
  run s fun s =>
    let up := (s.pcLink 0).state != 0
    ((s.setPcLink 0 fun l => { l with state := 0 }).raiseIf up 81 0).upstreamLost

/-- CPL_AGE_CHECK (R279): EV086 at most once per bridge per 32 ticks, and no other action. -/
def execCplAgeCheck (pciEnd : Nat) (s : State) : Out :=
  run s fun s =>
    let x := s.pcEnd pciEnd
    let ms := s.cv Fld.CPL_AGE_MS
    let age := x.table.foldl (fun m r => max m (tickDiff s.time.tick r.tick)) 0
    let due := match x.agedTick with
      | none => true
      | some t => 32 ≤ tickDiff s.time.tick t
    if ms == 0 || age ≤ msTicks ms || !due then s
    else (s.setEnd pciEnd fun x => { x with agedTick := some s.time.tick }).raise 86
      ((if pciEnd < 16 then pciEnd else x.bridge) + 65536 * min 65535 (age / 32))

/-! ### Mailbox commands (R288) -/

/-- PCIE_SHOW (Table 10.8). -/
def execPcieShow (rq : Req) (s : State) : Out :=
  command Cmd.pcieShow 1 rq s fun _ s =>
    let k := arg rq 0 1
    let l := s.pcLink k
    if 4 < k then .fail s .badState
    else .show s (leBytes 1 l.state ++ leBytes 1 l.rate ++ leBytes 1 l.width ++ zeros 1 ++ leBytes 4 l.rcvErrs ++ leBytes 4 l.replays
      ++ leBytes 4 l.malformed ++ leBytes 8 l.tlpsIn ++ leBytes 8 l.tlpsOut)

/-- PCIE_PORT_BIND (R271, Table 10.8). -/
def execPciePortBind (rq : Req) (s : State) : Out :=
  command Cmd.pciePortBind 16 rq s fun h s =>
    let asked := arg rq 0 1
    let hops := arg rq 1 1
    let chain := arg rq 2 1
    let dp := arg rq 3 1
    let b? := if asked == 0xFF then s.freeBridge else some asked
    if (asked != 0xFF && (asked == 0 || 15 < asked)) || hops == 0 || 6 < hops || 1 < chain || 3 < dp || !s.pcieUp
        || s.targetBound hops chain dp then .fail s .badState
    else
      match b? with
      | none => .fail s .busy
      | some b =>
        if (s.pcEnd b).hops != 0 then .fail s .badState
        else
          let a := s.bindBridge b hops chain dp (arg rq 4 4) (arg rq 8 4) (arg rq 12 2) (some (rq.via, h))
          if a.rc.bad then .long s (some (a.rc.code, if a.rc == .budget then leBytes 1 a.test else []))
          else .long a.st none

/-- PCIE_PORT_UNBIND (R282, R288). -/
def execPciePortUnbind (rq : Req) (s : State) : Out :=
  command Cmd.pciePortUnbind 1 rq s fun _ s =>
    let b := arg rq 0 1
    let x := s.pcEnd b
    if b == 0 || 15 < b || x.state == 0 then .fail s .badState
    else
      let s := match x.path with
        | some id => s.closePath id
        | none => s
      .done (s.unbindBridge b 2)

/-- PCIE_BRIDGE_SHOW (Table 10.8). -/
def execPcieBridgeShow (rq : Req) (s : State) : Out :=
  command Cmd.pcieBridgeShow 1 rq s fun _ s =>
    let b := arg rq 0 1
    let x := s.pcEnd b
    let credit := fun (k : Nat) => creditLeft (nth x.limits k 0) (nth x.used k 0)
    if b == 0 || 15 < b then .fail s .badState
    else .show s (leBytes 4 x.vsec ++ leBytes 1 x.state ++ zeros 1 ++ leBytes 2 x.table.length ++ leBytes 2 (credit 1)
      ++ leBytes 2 (credit 3) ++ leBytes 2 (credit 5) ++ zeros 2 ++ leBytes 4 x.synth ++ leBytes 4 x.orphaned
      ++ leBytes 4 x.postedLost)

/-- PCIE_SLOT_POWER (R285, R445). -/
def execPcieSlotPower (rq : Req) (s : State) : Out :=
  command Cmd.pcieSlotPower 2 rq s fun _ s =>
    match (if arg rq 0 1 ≤ 3 then s.bayOfDp (arg rq 0 1) else none) with
    | none => .fail s .badState
    | some b => .done (s.bayRequest b (arg rq 1 1 == 1))

/-- PCIE_CLEAR (R288): the index names a link, 0 to 4, and a bridge, 1 to 15 (log entry 24). -/
def execPcieClear (rq : Req) (s : State) : Out :=
  command Cmd.pcieClear 1 rq s fun _ s =>
    let k := arg rq 0 1
    let zl := fun (l : PciLink) => { l with rcvErrs := 0, replays := 0, malformed := 0, tlpsIn := 0, tlpsOut := 0 }
    let ze := fun (x : PciEnd) => { x with synth := 0, orphaned := 0, postedLost := 0 }
    if k == 0xFF then
      .done { s with pcie := { s.pcie with
        links := s.pcie.links.map zl, bridges := s.pcie.bridges.map ze, ports := s.pcie.ports.map ze } }
    else if 15 < k then .fail s .badState
    else .done ((s.setPcLink k zl).setEnd k ze)

end Sys2Proof.Machine
end

