-- ==== Sys2Proof/Machine/Planner.lean ====
section
/-! DEFINITION. The tick planner's commands (spec/08), its refresh and the lapses of it. -/

namespace Sys2Proof.Machine

/-- PLANNER_REFRESH (R233): the management firmware refreshes the planner; the count returns to 0. -/
def execPlannerRefresh (s : State) : Out :=
  run s fun s => { s with plan := { s.plan with silent := 0, autonomy := 0, lapse := 0 } }

/-- PLANNER_REFRESH_LAPSE (R233): eight ticks without refresh, told once. -/
def execPlannerRefreshLapse (s : State) : Out :=
  run s fun s =>
    if 8 ≤ s.plan.silent && s.plan.lapse < 8 then ({ s with plan := { s.plan with lapse := 8 } } : State).raise 58 0 else s

/-- PLANNER_HOLD_EXPIRY (R233): 64 ticks without refresh, told once; from then on P_pd is the lower of its last value and P_feed, as the
latch of the next tick takes it (State.latch). What the faults chapter does with PLAN_HOLD follows from the event's fault code
(R540) in its own command. -/
def execPlannerHoldExpiry (s : State) : Out :=
  run s fun s =>
    if s.plan.silent < 64 || s.plan.lapse == 64 then s
    else
    let s := ({ s with plan := { s.plan with lapse := 64 } } : State).raise 59 0
    if s.fwRuns then s.mgtFault 7 else { s with fault := { s.fault with planHold := true } }

/-- A gate entry's eight bytes (Table 8.2). -/
def gateBytes (g : GateEntry) : List Byte :=
  let order := (upTo 8).foldl (fun w i => w * 16 + nth g.order i 0xF) 0
  leBytes 8 (g.start * 2 ^ 56 + g.drrPos * 2 ^ 52 + b2n g.hold * 2 ^ 48 + order * 2 ^ 16)

/-- PLAN_SHOW (Table 8.11): the output's plan in force or in the shadow; OK with LENGTH 0 where no shadow plan stands. -/
def execPlanShow (rq : Req) (s : State) : Out :=
  command Cmd.planShow 2 rq s fun _ s =>
    let j := arg rq 0 1
    let which := arg rq 1 1
    if 11 < j || 1 < which then .fail s .badState
    else
      match if which == 0 then some s.plan.inForce else s.plan.shadow with
      | none => .show s []
      | some lp =>
        let o := nth lp.outs j .reset
        .show s (leBytes 1 lp.capStep ++ leBytes 1 lp.enStep ++ leBytes 1 o.gates.length ++ zeros 1
          ++ ((upTo 8).flatMap fun c => leBytes 2 ((nth o.allow c none).getD 0xFFFF))
          ++ ((upTo 8).flatMap fun c => leBytes 2 (nth o.q c 1))
          ++ ((upTo 8).flatMap fun c => leInt 2 (nth s.plan.drrDc (swIdx j c) 0))
          ++ zeros 4 ++ o.gates.flatMap gateBytes)

/-- PLAN_BUDGET_SHOW (Table 8.11). -/
def execPlanBudgetShow (rq : Req) (s : State) : Out :=
  command Cmd.planBudgetShow 0 rq s fun _ s =>
    let (h, lim) := s.headroom
    .show s (leBytes 4 s.pPd ++ leBytes 4 s.pFeed ++ leBytes 4 s.pCeiling ++ leBytes 4 (s.pTh / 1000) ++ leBytes 4 s.eAvail
      ++ leBytes 4 s.plan.inForce.energy ++ leBytes 4 s.plan.deficit ++ leInt 2 (max (-32768) (min 32767 h)) ++ leBytes 1 lim
      ++ leBytes 1 (min 255 s.plan.autonomy))

/-- PLAN_BUDGET_SET (R237): P_ceiling, clamped as BUDGET_CEILING_MW and held in the LOCAL layer. -/
def execPlanBudgetSet (rq : Req) (s : State) : Out :=
  command Cmd.planBudgetSet 4 rq s fun _ s =>
    let v := arg rq 0 4
    let c := clampTo 2000 14500 v
    let f := Fld.BUDGET_CEILING_MW
    { st := s.writeField 0 0 f.ty f.id c, rc := if c == v then .ok else .okClamped }

/-- PLAN_CONTRACT_SET (R224, R225, R586); a BUDGET reply carries the failed test (Table 8.11). -/
def execPlanContractSet (rq : Req) (s : State) : Out :=
  command Cmd.planContractSet 24 rq s fun _ s =>
    let c := s.parseContract rq.payload
    let a := s.defineContract c (bitAt (arg rq 18 2) 1)
    { st := a.st, rc := a.rc
      data := if a.rc == .ok then leBytes 2 (cellsOf c.along) ++ leBytes 2 (cellsOf c.back)
        else if a.rc == .budget then leBytes 1 a.test else [] }

/-- PLAN_CONTRACT_CLEAR (R226, R586). -/
def execPlanContractClear (rq : Req) (s : State) : Out :=
  command Cmd.planContractClear 2 rq s fun _ s =>
    let id := arg rq 0 2
    if id == 0xFFFF then .done (s.plan.contracts.foldl (fun s c => s.clearContract c.id) s)
    else if s.plan.contracts.any fun c => c.id == id then .done (s.clearContract id)
    else .fail s .badHandle

/-- PLAN_CONTRACT_SHOW (Table 8.11). -/
def execPlanContractShow (rq : Req) (s : State) : Out :=
  command Cmd.planContractShow 2 rq s fun _ s =>
    match s.plan.contracts.find? fun c => c.id == arg rq 0 2 with
    | none => .fail s .badHandle
    | some c => .show s (contractBytes c ++ leBytes 1 c.state ++ zeros 3 ++ leBytes 2 c.gAlong ++ leBytes 2 c.gBack
        ++ leBytes 8 c.above ++ leBytes 2 (s.boundPaths c))

/-- PLAN_SHAPER_SET (R222): a shaper set, changed or removed in the table that governs from the next slot 0 (R205); a new one starts full
(DESIGN CHOICE, log entry 21). -/
def execPlanShaperSet (rq : Req) (s : State) : Out :=
  command Cmd.planShaperSet 12 rq s fun _ s =>
    let j := arg rq 0 1
    let c := arg rq 1 1
    let mbps := arg rq 4 4
    let burst := arg rq 8 2
    let rest := s.plan.shaperSet.filter fun h => !(h.outp == j && h.tc == c)
    if 11 < j || 7 < c then .fail s .badState
    else if mbps == 0 then .done { s with plan := { s.plan with shaperSet := rest } }
    else if 32 ≤ rest.length then .fail s .busy
    else .done { s with plan := { s.plan with shaperSet := rest ++ [⟨j, c, mbps, burst, burst * 256⟩] } }

/-- One record of `plan.sample.show`; a tick in which no cell was marked has no stated delay: a free value (log entry 3). -/
def State.sampleBytes (s : State) (j c : Nat) (t : Tick) : List Byte × State :=
  match s.plan.samples.find? fun x => x.outp == j && x.tc == c && x.tick == t with
  | some x =>
    (match x.delay with
      | some d => (leBytes 4 t.toNat ++ leBytes 2 x.depth ++ leBytes 2 x.most ++ leBytes 4 d, s)
      | none => let (v, s) := s.draw; (leBytes 4 t.toNat ++ leBytes 2 x.depth ++ leBytes 2 x.most ++ leBytes 4 v, s))
  | none => let (v, s) := s.draw; (leBytes 4 t.toNat ++ zeros 4 ++ leBytes 4 v, s)

/-- PLAN_SAMPLE_SHOW (R232): records of the last ticks, newest first. -/
def execPlanSampleShow (rq : Req) (s : State) : Out :=
  command Cmd.planSampleShow 3 rq s fun _ s =>
    let j := arg rq 0 1
    let c := arg rq 1 1
    let n := arg rq 2 1
    if 11 < j || 7 < c || n == 0 || 64 < n then .fail s .badState
    else
      let (bs, s) := (upTo n).foldl (fun (acc : List Byte × State) k =>
        let (b, s) := acc.2.sampleBytes j c (acc.2.time.tick - 1 - BitVec.ofNat 48 k)
        (acc.1 ++ b, s)) ([], s)
      .show s bs

/-- PLAN_COST_SHOW: Table 8.8 in its row order. -/
def execPlanCostShow (rq : Req) (s : State) : Out :=
  command Cmd.planCostShow 0 rq s fun _ s =>
    .show s ([68, 40, 20, 45, 6, 1, 0, 9375, 4688, 15625, 37500, 5469, 7813, 15625, 9375, 900, 1100, 1300, 1500, 5, 12, 20,
      31].flatMap (leBytes 4))

end Sys2Proof.Machine
end

