-- ==== Sys2Proof/Machine/PstateOps.lean ====
section
/-! DEFINITION. Power states (spec/18): entry to RETAIN and HIBERNATE, its abort, what is lost while domains are off, and the exit. -/

namespace Sys2Proof.Machine

/-! ### Acceptance (R463) -/

/-- Wake sources that are levels and asserted now: resume signalling on a remote port, and a network wake, both of RETAIN only
(Table 18.8). -/
def State.wakesAsserted (s : State) : Nat :=
  2 ^ 6 * b2n (s.usb.ports.any fun x => x.resuming.isSome) + 2 ^ 7 * b2n (s.net.wakePending && s.applied Fld.NEX_IN_RETAIN == 1)

/-- The reason for which entry is refused; 0 for none (R463). -/
def State.entryRefusal (s : State) (goal : Nat) : Nat :=
  if !s.activeContracts.isEmpty then 1
  else if goal == 3 && Nat.land s.wakesAsserted (s.applied Fld.WAKE_MASK) != 0 then 2
  else if s.topo.role == .hostside && ((s.pcLink 0).state != 0 || s.usb.upstream != 4) then 3
  else 0

/-! ### Phase Q (R466) -/

/-- A Latre link taken down: every path torn down, then closed with cause 8; bring-up does not start again. -/
def State.quiesceLink (s : State) (p : Nat) : State :=
  let own := (s.cable.paths.filter fun r => r.port == some p).map (·.id)
  let s := own.foldl (fun (s : State) id => s.closePath id) s
  let labels := (s.link p).table.map (·.label)
  let s := labels.foldl (fun (s : State) l => (s.ctl p ctlTeardown [l]).tearEntry p l) s
  let s := if (s.link p).state != 0 || (s.cpx p).step != 0 then s.closeLink p 8 else s
  (s.setCpx p fun c => { c with step := 0 }).setLink p fun l => { l with state := 0 }

/-- A SOURCE DPX powers down; one in hold writes SET_POWER D3 to its panel first (R261). -/
def State.quiescePanel (s : State) (k : Nat) : State :=
  if !s.isSource k then s
  else
    let holds := s.disp.streams.any fun x => !x.capture && x.dpx == k && x.state == 3
    let s := if holds then (s.emit (.panelAux k 8 0x600 [2])).setDpx k fun d => { d with d3 := true } else s
    s.setDpx k fun d => { d with rate := 0, lanes := 0 }

/-- Remote USB ports suspended, VBUS kept. -/
def State.quiesceUsb (s : State) : State :=
  [1, 2, 3, 4].foldl (fun (s : State) k =>
    if (s.usbPort k).power then (s.setUsbPort k fun x => { x with suspended := true, cSuspend := false }).emit (.usbBus k 0) else s) s

/-- For HIBERNATE: sink channels leave EPR, sourcing switches and bay channels go off. -/
def State.quiescePower (s : State) : State :=
  let s := [0, 1].foldl (fun (s : State) k =>
    if (s.chn k).epr && !(s.chn k).src then (s.pdSend k .eprModeExit []).leaveEpr k else s) s
  let s := (upTo 6).foldl (fun (s : State) k => if (s.vsw k).state == 1 || (s.vsw k).state == 3 then s.vbusOff k else s) s
  [0, 1, 2, 3].foldl (fun (s : State) b => if (s.bay b).state.conducts then s.bayRest b else s) s

/-- An accepted entry (R464, R465): phase Q begins. -/
def State.beginEntry (s : State) (goal : Nat) (via : Via) (job : Option (Via × Nat)) : State :=
  let s : State := { s with pwr := { s.pwr with
    phase := 1, since := s.time.tick, cause := chanNum (viaChan via), goal := goal, left := s.pwr.state, target := goal, next := none, planned := none, job := job, latched := false
    mask := s.applied Fld.WAKE_MASK, nex := s.applied Fld.NEX_IN_RETAIN == 1 && goal == 3, timer := s.applied Fld.WAKE_TIMER_S } }
  let s := (s.quiesceLink 0).quiesceLink 1
  let s := [0, 1, 2, 3].foldl (fun (s : State) k => s.quiescePanel k) s
  let s := ([0, 1, 2, 3].foldl (fun (s : State) k => s.drivePerst k true) s).quiesceUsb
  if goal == 4 then s.quiescePower else s

/-! ### Abort (R465) -/

/-- What undoes phase Q by ordinary means, after an abort and after an exit: links restart bring-up where the multiplexer is VENDOR, PERST#
is released where the bay's power is good, panels with streams retrain (R261), USB ports resume, sourcing channels and bays come back. -/
def State.undoQuiesce (s : State) : State :=
  let s := [0, 1].foldl (fun (s : State) p => if (s.chn p).position == 2 && !(s.chn p).quiet then s.startTraining p else s) s
  let s := s.releasePerst
  let s := [0, 1, 2, 3].foldl (fun (s : State) k =>
    if s.isSource k && (s.dpx k).rate == 0 && s.disp.streams.any fun x => !x.capture && x.dpx == k then s.trainPanel k else s) s
  let s := [1, 2, 3, 4].foldl (fun (s : State) k => s.startResume k) s
  let s : State := { s with ppath := { s.ppath with feeds := s.ppath.feeds.map fun f => { f with gate := f.present } } }
  let s := (upTo 6).foldl (fun (s : State) k =>
    if (s.chn k).state == 4 && (s.vsw k).state == 0 && 0 < (s.chn k).mv then s.vbusOn k (s.chn k).mv else s) s
  [0, 1, 2, 3].foldl (fun (s : State) b => s.bayTry b) s

/-- The entry is aborted: EV170 with the phase, TIMEOUT and the wake source; the completion is RETRY_LATER (R464, R465). -/
def State.abortEntry (s : State) (source : Nat) (timeout : Bool) : State :=
  let phase := s.pwr.phase - 1
  let job := s.pwr.job
  let s : State := { s with pwr := { s.pwr with
    phase := 0, goal := 0, target := s.pwr.left, job := none, aborts := satAdd 32 s.pwr.aborts 1
    valid := if phase == 1 then false else s.pwr.valid, resume := false
    wake := if timeout then s.pwr.wake else source } }
  let s : State := if phase == 1 && s.mem.lpddr == .absent then { s with mem := { s.mem with lpddr := .training } } else s
  let s := s.raise 170 (phase + 4 * b2n timeout + 256 * (source % 16))
  let s := s.undoQuiesce
  match job with
  | some (via, h) => s.finishRc via h .retryLater
  | none => s

/-! ### Phases S and P (R465, R468) -/

/-- Stores and dirty lines of the cores reach memory before it goes to rest. -/
def State.flushCores (s : State) : State :=
  (upTo 9).foldl (fun (s : State) m => (s.drainAll m).cleanLines m (fun _ => true) true) s

/-- Phase S: the firmware writes RESUME and halts; the lists of RETAIN are saved and the HEADER is valid. LPDDR rests. -/
def State.save (s : State) : State :=
  let s := s.flushCores.retryWaiting
  let retain := s.pwr.goal == 3
  { s with
    pwr := { s.pwr with
      phase := 2, saved := List.replicate 9 retain, resume := true, valid := true, entryState := s.pwr.goal, hdrRole := s.topo.role.code }
    mem := { s.mem with lpddr :=
      if s.mem.lpddr == .active then (if retain then .selfRefresh else .absent) else if retain then s.mem.lpddr else .absent } }

/-- A byte of memory that RETAIN keeps: MB0 and MB1, the planner tables, the Lichen store, LPDDR in self-refresh, SB0, and the scratch
regions that Woeri copies out and back (R397, Table 14.1). -/
def State.retained (s : State) (a : Nat) : Bool :=
  a < 0x40000 || (sbBase ≤ a && a < sbBase + 0x20000) || (lichenBase ≤ a && a < lichenBase + 0x40000)
    || (plannerBase ≤ a && a < plannerBase + 0x18000) || lpddrBase ≤ a
    || (sbBase ≤ a && a < sbBase + 0x400000 && (s.scratchAt a).isSome)

/-- What the domains that RETAIN switches off lose: buffers and staging, and memory that is not kept. Their lists hold the rest. -/
def State.retainLoss (s : State) : State :=
  let net := if s.pwr.nex then s.net else { s.net with macs := s.net.macs.map fun (m : MacSt) => { m with rxBuf := [], paused := false } }
  { s with
    mem := { s.mem with cells := s.mem.cells.filter fun c => s.retained c.1 }
    sw := { SwitchSt.init with cnts := s.sw.cnts, lowWater := s.sw.lowWater, cutCells := s.sw.cutCells, pieces := s.sw.pieces,
                               bankWait := s.sw.bankWait, matched := s.sw.matched, maxCut := s.sw.maxCut }
    usb := { s.usb with stages := [], queue := [], polls := [] }
    disp := { s.disp with streams := s.disp.streams.map fun (x : StreamSt) => { x with chunks := [] } }
    net := net }

/-- A configuration channel across HIBERNATE: a sink connection is held by AON, everything else of the PWR domain starts anew (R458). -/
def CcSt.hibernated (c : CcSt) : CcSt :=
  if c.state == 5 then { CcSt.init with state := 5, role := c.role, pinB5 := c.pinB5, farRp := c.farRp, contract := c.contract, mv := c.mv, ma := c.ma }
  else { CcSt.init with role := c.role }

/-- What HIBERNATE loses: every domain but AON, less the tick counter, the role, the CONFIG layers, the fields that only a system reset
takes (R12), the feeds and the sink connections (R457, R458, R468, R471). -/
def State.hibernateLoss (s : State) : State :=
  let t := s.domainsReset
  { t with
    topo := { TopoSt.init with role := s.topo.role }
    cfg := { CfgSt.init with
      ovr := s.cfg.ovr, roleApplied := s.cfg.roleApplied
      force := s.cfg.force.filter fun v => (fieldOf? v.ty v.id).any fun f => f.whn == .reset }
    fault := { t.fault with romMode := false }
    rcd := .init
    mem := { t.mem with cells := lichenCells s.mem.cells, lpddr := .absent }
    cc := s.cc.map CcSt.hibernated
    pwr := { s.pwr with job := none } }

/-- The bias of RETAIN and HIBERNATE: reverse on the AON logic, none elsewhere, no assist (Table 18.7). -/
def State.restBias (s : State) : State :=
  let s := ((s.pwr.fwd.zipIdx).filter (·.1)).foldl (fun (s : State) x => s.emit (.bias (x.2 + 1) 0)) s
  let s := if s.pwr.assist then s.emit (.assist false) else s
  let s := if s.pwr.gated then s.emit (.swGate false) else s
  ({ s with pwr := { s.pwr with fwd := List.replicate 8 false, assist := false, gated := false } } : State).emit (.bias 0 (-300))

/-- Phase P: the switches open in save order, the enables follow Table 23.4, STATE becomes the goal (R465, R569). -/
def State.powerDown (s : State) : State :=
  let goal := s.pwr.goal
  let old := s.pwr.state
  let s := s.raise 168 (goal + 16 * old)
  let s : State := { s with pwr := { s.pwr with
    state := goal, phase := 3, entryTick := s.time.tick, entries := satAdd 32 s.pwr.entries 1 } }
  let s := saveOrder.foldl (fun (s : State) d => if (d == 10 && s.pwr.nex) || !s.domainUsed d then s else s.emit (.domain d false)) s
  let s := s.restBias
  let s := if goal == 3 then s.retainLoss else (s.emit (.domain 1 false)).hibernateLoss
  { s with pins := { s.pins with coreEn := false, anaEn := false, memEn := goal == 3, refReqN := true } }

/-! ### Exit (R30, R469 to R472) -/

/-- Domains whose state a register list holds, by its place in the save order (Table 18.4). -/
def listDomains : List (List Nat) := [[10], [7], [8], [9], [6], [4, 5], [3], [11], [2]]

/-- A list that fails its CRC leaves its domain at reset values (R469). -/
def State.listLost (s : State) (k : Nat) : State :=
  let s : State := match k with
    | 0 => { s with net := .init }
    | 1 => { s with disp := .init }
    | 2 => { s with pcie := .init }
    | 3 => { s with usb := .init }
    | 4 => { s with cable := .init }
    | 5 => s.clusterStop
    | 6 => { s with sw := .init }
    | 7 => { s with mem := { s.mem with lpddr := .training } }
    | _ => { s with mbx := .init, boot := .init, pins := { s.pins with mgtHalted := false } }
  (nth listDomains k []).foldl (fun (s : State) d => s.raise 172 d) s

/-- The order in which the lists are restored (Table 18.5), by their places in the save order. -/
def restoreOrder : List Nat := [8, 6, 7, 2, 3, 0, 1, 4, 5]

/-- The 32.768 kHz cycles that pass before the PLL has locked at step 3: 25 µs and REFCLK_SETTLE_US (Table 18.5). -/
def State.exitCycles (s : State) : Nat := (25 + s.cv Fld.REFCLK_SETTLE_US) * 32768 / 1000000

/-- Steps 0 to 10 of Table 18.5: the enables, the tick counter advanced by the 32.768 kHz cycles counted, the switches closed, and for
RETAIN the lists restored in the order of the table. A RETAIN exit without a valid HEADER runs as one from HIBERNATE. -/
def State.beginExit (s : State) (source counted : Nat) (latched : Bool) (bad : List Nat) : State :=
  let cycles := max counted s.exitCycles
  let retain := s.pwr.goal == 3 && s.pwr.valid
  let s := if s.pwr.goal == 3 && !retain then
      let s := s.hibernateLoss
      { s with pwr := { s.pwr with goal := 4, state := 4 } }
    else s
  let slips := s.time.ports.filter fun a => a.align != .notUp && a.align != .lost
  let s : State := { s with
    pwr := { s.pwr with phase := 4, since := s.time.tick + BitVec.ofNat 48 (cycles * 125 / 128 + 1), count32 := cycles, wake := source, woke := source, latched := latched }
    pins := { s.pins with coreEn := true, anaEn := true, memEn := true, refReqN := false }
    time := { s.time with
      tick := s.time.tick + BitVec.ofNat 48 (cycles * 125 / 128 + 1), slot := 0
      ports := s.time.ports.map fun (a : AlignSt) =>
        if a.align == .notUp then a else { a with align := .lost, relock := 0, meas := none, stepDue := true } } }
  let s := slips.foldl (fun (s : State) _ => s.raise 13 0) s
  let s := s.emit (.bias 0 0)
  let s := ([2, 3, 11, 8, 9, 10, 7, 6, 4, 5].foldl (fun (s : State) d =>
    if (d == 10 && retain && s.pwr.nex) || !s.domainUsed d then s else s.emit (.domain d true)) s)
  if retain then
    let failed := restoreOrder.filter fun k => (bad.contains k || !nth s.pwr.saved k true) && !(k == 0 && s.pwr.nex)
    failed.foldl (fun (s : State) k => s.listLost k) s
  else
    { s with mem := { s.mem with lpddr := .training }, boot := .init }

/-- The tick boundary of step 11: STATE is ACTIVE, the firmware resumes (R470, R472). -/
def State.endExit (s : State) : State :=
  let job := s.pwr.job
  let old := s.pwr.state
  let p := s.pwr
  let s : State := { s with
    pwr := { s.pwr with state := 0, target := 0, phase := 0, goal := 0, next := none, planned := none, idleCount := 0, job := none
                        latched := false }
    mbx := { s.mbx with sinceAttn := 0 } }
  let s := (s.raise 168 (16 * old)).raise 171 (p.woke % 16 + 16 * b2n p.latched)
  let s := s.undoQuiesce
  let s := if s.mayStartWoeri then s.clusterStart else s
  match job with
  | some (via, h) => s.finish via h Rc.ok.code (Config.retainPayload p.entryTick.toNat s.time.tick.toNat p.woke)
  | none => s

/-- A wake source is enabled for this entry or sleep (Table 18.8, R475). -/
def State.wakeEnabled (s : State) (source : Nat) : Bool :=
  source ≤ 8 && bitAt s.pwr.mask source && (!(source == 6 || source == 7) || s.pwr.goal == 3) && (source != 7 || s.pwr.nex)
    && (source != 8 || 0 < s.pwr.timer)

end Sys2Proof.Machine
end

