-- ==== Sys2Proof/Machine/Pstate.lean ====
section
/-! DEFINITION. Power state rows (spec/18). -/

namespace Sys2Proof.Machine

/-- pstate.set (R461 to R466, R477). A running state asked for in phase Q ends the entry as a wake, whose source the spec does not give (a
free value, log entry 3). -/
def execPstateSet (rq : Req) (s : State) : Out :=
  command Cmd.pstateSet 4 rq s fun h s =>
    let t := arg rq 0 1
    if 4 < t then .fail s .badState
    else if t ≤ 2 then
      if s.pwr.phase == 1 then
        let (v, s) := s.draw
        .done ((s.abortEntry (v % 16) false).setTarget t)
      else .done (s.setTarget t)
    else
      let why := s.entryRefusal t
      if why != 0 then { st := s, rc := .badState, data := [BitVec.ofNat 8 why], failSt := some (s.raise 169 why) }
      else if s.pwr.phase != 0 then .fail s .busy
      else .long (s.beginEntry t rq.via (if t == 3 then some (rq.via, h) else none)) none

/-- Domains that are on, one bit for each (Table 18.10). -/
def State.domainsOn (s : State) : Nat := packBits ((upTo 12).map fun d => s.domainOn d)

def execPstateShow (rq : Req) (s : State) : Out :=
  command Cmd.pstateShow 0 rq s fun _ s =>
    let p := s.pwr
    .show s (leBytes 1 p.state ++ leBytes 1 p.target ++ leBytes 1 p.phase ++ leBytes 1 p.wake ++ leBytes 2 (500 + 5 * s.pins.coreVid)
      ++ leBytes 2 p.floor ++ leBytes 2 p.margin ++ leBytes 2 p.idleCount ++ leBytes 2 s.domainsOn ++ zeros 2 ++ leBytes 4 p.entries
      ++ leBytes 4 p.aborts)

/-- IDLE_ENTRY (R462): the ticks have been counted; the next plans started enter IDLE. -/
def execIdleEntry (s : State) : Out :=
  runAon s fun s =>
    if s.pwr.target == 2 && s.pwr.state ≤ 1 && s.pwr.phase == 0 && s.cv Fld.IDLE_ENTRY_TICKS ≤ s.pwr.idleCount then
      { s with pwr := { s.pwr with next := some 2 } }
    else s

/-- PHASE_S_START (R465): phase Q is complete. -/
def execPhaseSStart (s : State) : Out := runAon s fun s => if s.pwr.phase == 1 then s.save else s

/-- PHASE_P_START (R465): the first domain switch opens. -/
def execPhasePStart (s : State) : Out := runAon s fun s => if s.pwr.phase == 2 then s.powerDown else s

/-- ENTRY_TIMEOUT (R466): phase Q has lasted ENTRY_TIMEOUT_MS. -/
def execEntryTimeout (s : State) : Out :=
  runAon s fun s =>
    if s.pwr.phase == 1 && s.passed s.pwr.since (msTicks (s.cv Fld.ENTRY_TIMEOUT_MS)) then s.abortEntry 0 true else s

/-- WAKE_SOURCE (R465, R470 to R472, R475): an enabled source aborts phase Q or S, ends the sleep, or is recorded during an exit. `cycles`
are the 32.768 kHz cycles counted in sleep, `latched` says that the wake came in phase P, `bad` are the register lists whose CRC fails. -/
def execWakeSource (source cycles : Nat) (latched : Bool) (bad : List Nat) (s : State) : Out :=
  runAon s fun s =>
    if !s.wakeEnabled source || (source == 8 && cycles < 32768 * s.pwr.timer) then s
    else
      match s.pwr.phase with
      | 1 => s.abortEntry source false
      | 2 => s.abortEntry source false
      | 3 => s.beginExit source cycles latched bad
      | 4 => { s with pwr := { s.pwr with wake := source } }
      | _ => s

/-- RETAIN_EXIT_COMPLETE (R470): the tick boundary of step 11, the third after the one at which the tick counter was advanced (step 10
comes 75.12 µs after it). An exit from HIBERNATE ends with its boot. -/
def execRetainExitComplete (s : State) : Out :=
  runAon s fun s => if s.pwr.phase == 4 && s.pwr.state == 3 && s.passed s.pwr.since 3 then s.endExit else s

/-- SELF_REFRESH_EXIT_CHECK_DONE (R369): LPDDR serves again, or trains in full; Woeri runs again with it. -/
def execSelfRefreshExitCheckDone (ok : Bool) (s : State) : Out :=
  runAon s fun s =>
    if s.mem.lpddr != .selfRefresh || s.pwr.phase == 2 || s.pwr.phase == 3 then s
    else if ok then
      let s : State := { s with mem := { s.mem with lpddr := .active } }
      if s.mayStartWoeri then s.clusterStart else s
    else { s with mem := { s.mem with lpddr := .training } }

end Sys2Proof.Machine
end

