-- ==== Sys2Proof/Machine/Recorder.lean ====
section
/-! DEFINITION. The Beypesor recorder's rows (spec/20, R525 to R533). -/

namespace Sys2Proof.Machine

/-! ### Spores and snapshots -/

/-- A spore's bytes (Table 20.9); planner inputs (kinds 3 to 6) carry no ICOUNT. -/
def sporeBytes (e : Spore) : List Byte :=
  let ic := if 3 ≤ e.kind && e.kind ≤ 6 then 0 else Config.icount e.seq.toNat
  let body := leBytes 4 e.seq.toNat ++ leBytes 6 e.tick.toNat ++ leBytes 1 e.slot ++ leBytes 1 e.kind ++ leBytes 1 e.src ++ leBytes 1 e.flags
    ++ leBytes 1 e.payload.length ++ leBytes 5 ic ++ fitBytes 40 e.payload
  body ++ leBytes 4 (crc32c body)

/-- Bytes that a snapshot holds: MB0 to MB7, then the planner tables (log entry 41). -/
def snapBytes : Nat := 0x100000 + 0x18000

/-- One byte of a snapshot. -/
def Snapshot.byteAt (x : Snapshot) (off : Nat) : Byte :=
  memRead x.cells (if off < 0x100000 then off else plannerBase + (off - 0x100000))

/-- A snapshot is due at this tick boundary (R526): CHECKPOINT_MS after the last, or after a READY of R518. -/
def State.snapNow (s : State) : Bool := s.time.slot == 0 && (s.rcd.snapDue || s.rcd.nextCp.all fun t => reached s.time.tick t)

/-- CHECKPOINT (R526): at a tick boundary, while the recorder writes and LPDDR serves. CHECKPOINT_MS as it now stands sets when the next
one is due (R531). -/
def execCheckpoint (s : State) : Out :=
  run s fun s =>
    if !(s.rcd.mode == 1 || s.rcd.mode == 2) || s.mem.lpddr != .active || !s.snapNow then s
    else
      let k := s.rcd.nextSnap % 8
      let gen := match s.upd.flash.dir? with
        | some (_, d) => d.gen
        | none => 0
      let cells := s.mem.cells.filter fun c => c.1 < 0x100000 || (plannerBase ≤ c.1 && c.1 < plannerBase + 0x18000)
      let snap : Snapshot := ⟨s.time.tick, s.rcd.nextSeq, cells⟩
      let s : State := { s with rcd := { s.rcd with
        snaps := put s.rcd.snaps k (some snap), nextSnap := (k + 1) % 8, snapDue := false
        nextCp := some (s.time.tick + BitVec.ofNat 48 (msTicks (s.cv Fld.CHECKPOINT_MS))) } }
      s.spore 0 0 (leBytes 1 k ++ ((upTo 5).flatMap fun i => (imgDigest (s.runningImage i)).take 4) ++ leBytes 4 gen)

/-- SPORE_BUFFER_ROOM (R527): the buffer's spores go to the ring, with a GAP spore where some were dropped. -/
def execSporeBufferRoom (s : State) : Out :=
  run s fun s =>
    if !(s.rcd.mode == 1 || s.rcd.mode == 2) || s.mem.lpddr != .active then s
    else
      let n := s.rcd.dropped
      let s : State := { s with rcd := { s.rcd with ring := (s.rcd.buffer.reverse ++ s.rcd.ring).take (ringCap s), buffer := [] } }
      if n == 0 then s
      else
        let s := s.spore 11 0 []
        let due := match s.rcd.gapTick with
          | some t => 32 ≤ tickDiff s.time.tick t
          | none => true
        let s : State := { s with rcd := { s.rcd with
          dropped := 0, gaps := satAdd 32 s.rcd.gaps 1, gapTick := if due then some s.time.tick else s.rcd.gapTick } }
        s.raiseIf due 189 (65536 * min 65535 n)

/-- REC_POST_TRIGGER_EXPIRY (R528): REC_POST_TICKS after the trigger the MARK spore, then the ring is frozen. -/
def execRecPostTriggerExpiry (s : State) : Out :=
  run s fun s =>
    if s.rcd.mode != 2 || !s.passed s.rcd.trigAt (s.cv Fld.REC_POST_TICKS) then s
    else
      let s := s.spore 12 s.rcd.trigger []
      ({ s with rcd := { s.rcd with mode := 3 } } : State).raise 188 s.rcd.trigger

/-! ### Replay on the hub (R529, R530) -/

/-- The SERVICE_ID of the replay model. -/
def replayId : Nat := 0xFF

/-- The package of the replay model (R530): BACKGROUND, 2.0 GHz, 125 slots. -/
def replayPkg : SvcPkg := ⟨2, 3, 125, 0, 0, 0, 0⟩

/-- A replay may start at a snapshot: the ring is frozen, the snapshot newer than its oldest spore, and no gap after it. -/
def State.replayable (s : State) (k : Nat) : Bool :=
  match nth s.rcd.snaps k none with
  | none => false
  | some x =>
    s.rcd.mode == 3 && (s.rcd.ring.any fun e => e.seq == x.seq)
      && (s.rcd.ring.takeWhile fun e => e.seq != x.seq).all fun e => e.kind != 11

/-- rec.replay (R530, R531). -/
def execRecReplay (rq : Req) (s : State) : Out :=
  command Cmd.recReplay 8 rq s fun h s =>
    let k := arg rq 0 1
    if 7 < k || s.cv Fld.REC_ENABLE == 0 || !s.svc.on || !((upTo 8).any fun j => s.coreEnabled j) || !s.replayable k then .fail s .badState
    else if s.rcd.replay.isSome then .fail s .busy
    else
      match s.place replayPkg.cls replayPkg.slots replayPkg.opp none with
      | none => .fail s .busy
      | some j =>
        let s := s.beginInst replayId j replayPkg.cls replayPkg
        .long { s with rcd := { s.rcd with replay := some (rq.via, h, k, arg rq 4 4) } } none

/-- REPLAY_FINISH (R529, R530): the first divergence, or none; then the slot and tick of the payload are values that the spec does not
state (free values, log entry 3). -/
def execReplayFinish (diverged : Bool) (slot tick : Nat) (s : State) : Out :=
  run s fun s =>
    match s.rcd.replay with
    | none => s
    | some (via, h, _, _) =>
      let (v, s) := s.draw
      let slot := if diverged then slot else v
      let tick := if diverged then tick else v / 256
      let s : State := { s with
        rcd := { s.rcd with replay := none }
        svc := { s.svc with insts := s.svc.insts.filter fun x => x.id != replayId } }
      let s := (s.raise 190 (b2n diverged)).raiseIf diverged 191 (slot % 256)
      s.finishRc via h .ok (leBytes 1 (b2n diverged) ++ zeros 1 ++ leBytes 1 slot ++ zeros 1 ++ leBytes 6 tick)

/-! ### Commands -/

/-- rec.show: the SEQ of an empty ring and the tick of an empty snapshot slot are values that the spec does not state (free values, log
entry 3). -/
def execRecShow (rq : Req) (s : State) : Out :=
  command Cmd.recShow 0 rq s fun _ s =>
    let (v, s) := s.draw
    let oldest := ((s.rcd.ring.getLast?).map (·.seq.toNat)).getD v
    let newest := ((s.rcd.ring.head?).map (·.seq.toNat)).getD v
    .show s (leBytes 1 s.rcd.mode ++ leBytes 1 s.rcd.trigger ++ zeros 2 ++ leBytes 4 oldest ++ leBytes 4 newest
      ++ ((upTo 8).flatMap fun k => leBytes 6 (((nth s.rcd.snaps k none).map (·.tick.toNat)).getD v)) ++ leBytes 4 s.rcd.gaps)

/-- rec.freeze (R528): freeze with trigger 0xFF, or release. -/
def execRecFreeze (rq : Req) (s : State) : Out :=
  command Cmd.recFreeze 1 rq s fun _ s =>
    match arg rq 0 1 with
    | 0 => .done (s.recTrigger 0xFF)
    | 1 =>
      if s.rcd.mode == 3 then
        .done { s with rcd := { s.rcd with mode := if s.cv Fld.REC_ENABLE == 0 then 0 else 1, moreTriggers := 0 } }
      else .done s
    | _ => .fail s .badState

/-- rec.read: spores from a SEQ on or the bytes of a snapshot from an offset on, in the reply or through EP2 IN. -/
def execRecRead (rq : Req) (s : State) : Out :=
  command Cmd.recRead 8 rq s fun _ s =>
    let n := arg rq 2 1
    let at_ := arg rq 4 4
    let out := fun (all : Nat → List Byte) =>
      if n == 0 then
        (if rq.via == .usb then Ans.done (({ s with rcd := { s.rcd with ep2 := all 0 } } : State).usbReady [3]) else .fail s .badState)
      else .show s (all n)
    if 15 < n then .fail s .badState
    else match arg rq 0 1 with
      | 0 =>
        let run := (s.rcd.ring.reverse).dropWhile fun e => e.seq.toNat != at_
        if run.isEmpty then .fail s .badState
        else out fun n => (if n == 0 then run else run.take n).flatMap sporeBytes
      | 1 =>
        match nth s.rcd.snaps (arg rq 1 1) none with
        | none => .fail s .badState
        | some x =>
          if snapBytes ≤ at_ then .fail s .badState
          else out fun n => (upTo (if n == 0 then snapBytes - at_ else min 960 (snapBytes - at_))).map fun k => x.byteAt (at_ + k)
      | _ => .fail s .badState

end Sys2Proof.Machine
end

