-- ==== Sys2Proof/Machine/Resets.lean ====
section
/-! DEFINITION. The commands of spec/21 and spec/23: supply and reset pins, boot, and the faults that the hub detects. -/

namespace Sys2Proof.Machine

/-! ### Supplies (R534, R571 to R573) -/

/-- POWER_ON_RESET (R534, R567): PORST_N rises, or the brown-out of VDD_AON is released. -/
def execPowerOnReset (mbxSel : Bool) (i3cAddr : Nat) (s : State) : Out := runAlways s fun s => s.powerOn mbxSel i3cAddr

/-- PORST_FALL (R573). -/
def execPorstFall (s : State) : Out := runAlways s fun s => s.powerLost

/-- RAIL_DEADLINE_MISS (R572): before Fiddlehead starts, all three enables drop; the third failure is the last. -/
def execRailDeadlineMiss (s : State) : Out :=
  runAlways s fun s =>
    if s.pins.phase != 1 then s
    else
      let n := s.pins.attempts + 1
      { s with pins := { s.pins with
        coreEn := false, anaEn := false, memEn := false, refReqN := true, attempts := n, phase := if 3 ≤ n then 4 else 3 } }

/-- RAIL_RESTART (R572): 10 ms later the sequence starts again from the CORE_EN step. -/
def execRailRestart (s : State) : Out :=
  runAlways s fun s =>
    if s.pins.phase != 3 then s
    else { s with pins := { s.pins with coreEn := true, anaEn := true, memEn := true, refReqN := false, coreVid := 50, phase := 1 } }

/-! ### Resets and boot -/

/-- SYSTEM_RESET (R534): SYSRST_N low for at least 1 µs. -/
def execSystemReset (s : State) : Out := runAon s fun s => s.askSystemReset 0x31

/-- MGMT_FIRMWARE_READY (R535, R536): Fiddlehead has loaded and verified a management image and the firmware runs; after a reset of its
core it goes on with what was kept. Where no copy verifies, Fiddlehead halts instead. -/
def execMgmtFirmwareReady (s : State) : Out :=
  runAon s fun s =>
    if s.fault.thermal || (s.asleep && s.pwr.phase != 4) then s
    else if s.boot.mgtReset then s.firmwareAgain
    else
      let s : State := { s with pins := { s.pins with phase := 2 } }
      let s := if s.boot.stage == 0 then s.fiddlehead false else s
      if s.boot.stage == 1 then s.firmwareReady else s

/-- The rate that training settles on: no faster than LPDDR_RATE allows (R375). -/
def State.trainedRate (s : State) (rate : Nat) : Nat := max (rate % 4) (s.cv Fld.LPDDR_RATE)

/-- LPDDR_TRAINING_DONE (R368, R369): full training passes with a rate and the installed capacity, or fails on some channels. -/
def execLpddrTrainingDone (ok : Bool) (rate gib mask : Nat) (s : State) : Out :=
  run s fun s =>
    if s.mem.lpddr != .training then s
    else if ok then
      let r := s.trainedRate rate
      let old := s.mem.gib
      let s : State := { s with mem := { s.mem with
        lpddr := .active, rate := r, trained := true, gib := if [4, 8, 16].contains gib then gib else s.mem.gib
        scrubDone := 0, scrubFrom := s.time.tick, dqsAt := s.time.tick } }
      let s := (if gib == old then s else s.loadBaseline).raise 128 (r % 16)
      if s.mayStartWoeri then s.clusterStart else s
    else ({ s with mem := { s.mem with lpddr := .failed, trained := false } } : State).raise 129 (mask % 16)

/-- MANAGEMENT_CORE_RESET (R536): by a command, RESET_CTL or a fault of codes 1 to 7. -/
def execManagementCoreReset (cause : Nat) (s : State) : Out :=
  runAon s fun s => if 1 ≤ cause && cause ≤ 7 then s.mgtFault cause else s.mgtCoreReset 0x32

/-- DEFERRED_RESET (R551, R482): the reset asked for by `sys.reset`, 1 ms before, or by a life-cycle change, 10 ms before. -/
def execDeferredReset (s : State) : Out :=
  run s fun s =>
    match s.fault.deferred with
    | none => s
    | some (kind, cause, due) =>
      if !reached s.time.tick due then s
      else
        let s : State := { s with fault := { s.fault with deferred := none } }
        if kind == 1 then s.askSystemReset cause else s.mgtCoreReset cause

/-! ### Faults (R540, Table 21.3) -/

/-- LOCKSTEP_FAULT: the outputs of the pair differ; at the floor nothing runs on it (R546). -/
def execLockstepFault (s : State) : Out := run s fun s => if s.boot.stage == 4 then s else s.mgtFault 1

/-- MGT_WATCHDOG_TIMEOUT: BOOT_STAGE is 2 and the firmware has not written its watchdog register for 32 ticks. -/
def execMgtWatchdogTimeout (s : State) : Out := run s fun s => if s.fwRuns && 32 ≤ s.boot.sinceWdt then s.mgtFault 2 else s

/-- MGT_TRAP: a trap that the firmware declares fatal. -/
def execMgtTrap (s : State) : Out := run s fun s => if s.fwRuns then s.mgtFault 6 else s

/-- PWRSEQ_FAULT (0x0A): the sequencer is restarted from its running copy; the third time within 32,000 ticks it goes to ROM mode. -/
def execPwrseqFault (s : State) : Out :=
  runPwr s fun s =>
    let s := s.logFault 0x0A actEngine
    if 3 ≤ s.recentFaults 0x0A 32000 (fun _ => true) then
      ({ s with fault := { s.fault with romMode := true } } : State).enterRom
    else s

/-- A lane's result when its step fails: neither direction. -/
def failedRes : LaneRes :=
  { fwd := false, rev := false, flight := 0, slip := false, eq := none, eqH := none, micros := 0 }

/-- What a PHY sequencer's restart does to its port: the training or re-calibration step in progress fails (Table 5.6). -/
def State.phyStepFails (s : State) (p : Nat) : State :=
  let s := s.trainStep p (List.replicate 4 failedRes) (s.cpx p).peer
  (upTo 4).foldl (fun (s : State) k => if (s.lane p k).state == .cal then s.recalStep p k failedRes else s) s

/-- PHYSEQ_FAULT (0x0B): the sequencer is restarted from its running copy and the step in progress fails; the third time within
32,000 ticks it stops, and a port whose link is not up stays OFF. -/
def execPhyseqFault (port : Nat) (s : State) : Out :=
  run s fun s =>
    if 1 < port then s
    else
      let s := (s.logFault 0x0B actEngine port).phyStepFails port
      let n := (s.fault.log.filter fun e => e.code == 0x0B && e.unit == port && tickDiff s.time.tick e.tick ≤ 32000).length
      if n < 3 then s
      else
        let s : State := { s with fault := { s.fault with phyStopped := put s.fault.phyStopped port true } }
        if s.linkUp port then s
        else (((s.lanesOff port).setCpx port fun c => { c with step := 0 }).setLink port fun l => { l.down with state := 0 }).roleEnds port

/-- CORE_BROWNOUT (0x0C): a system reset. -/
def execCoreBrownout (s : State) : Out := run s fun s => (s.logFault 0x0C actSystem).systemReset 0x0C

/-- THERMAL_TRIP (0x0D, R543): a sensor above the grade's maximum + 10 °C in two consecutive ticks. -/
def execThermalTrip (s : State) : Out := runAon s fun s => if s.fault.thermal || s.fault.hotFor < 2 then s else s.thermalTrip

/-- THERMAL_RECOVERY (R543): every sensor has read below the maximum − 5 °C for 1 s. -/
def execThermalRecovery (s : State) : Out :=
  runAon s fun s =>
    if !s.fault.thermal || s.fault.coolFor < secTicks 1 then s
    else ({ s with pins := { s.pins with coreEn := true, anaEn := true, memEn := true } } : State).systemReset 0x0D

end Sys2Proof.Machine
end

