-- ==== Sys2Proof/Machine/Service.lean ====
section
/-! DEFINITION. The service cluster's commands (spec/15). -/

namespace Sys2Proof.Machine

/-! ### Slices and calls -/

/-- SERVICE_SLICE (R379, R389, R393, R498): a core's slice begins. Woeri takes the imprecise notices of the core, stops the instance
whose migration comes next and starts its copy, and runs the ready instances in class order; `uses` is what each would run in the
tick. A core without a slice runs nothing. -/
def execServiceSlice (core : Nat) (uses : List (Nat × Nat)) (s : State) : Out :=
  run s fun s =>
    let (n, _) := nth s.plan.inForce.slices core (0, 1)
    if 7 < core || n == 0 || (s.core core).state == 0 || (s.core core).state == 4 then s
    else
      let s := s.setCore core fun c => { c with beat := true }
      let u := s.acu (core + 1)
      let s := u.notices.foldl (fun (s : State) x => s.faultInst x 1) (s.setAcu (core + 1) { u with notices := [] })
      let s : State := match s.svc.moves with
        | m :: rest => if m.src == core then { s with svc := { s.svc with moves := { m with copy := true } :: rest } } else s
        | [] => s
      let q := ceilDiv (s.cv Fld.SVC_QUANTUM_US * 1000) 125
      let first := if 0 < (s.core core).left then (s.core core).left else q
      let (gs, _, c) := (upTo 3).foldl (fun (acc : List (Nat × Nat) × Nat × (Nat × Nat)) cls =>
        let (g, left, c) := roundRobin q 4096 (s.asking core cls uses) acc.2.1 (if acc.1.isEmpty then first else q)
        (acc.1 ++ g, left, if c.1 == 0 then acc.2.2 else c)) ([], n, (0, 0))
      let s := s.setCore core fun x => { x with cur := if c.1 == 0 then ((gs.getLast?).map (·.1)).getD x.cur else c.1, left := c.2 }
      { s with svc := { s.svc with insts := s.svc.insts.map fun x =>
        if x.core == core && x.state == 1 then
          { x with
            runNow := x.runNow + total ((gs.filter fun g => g.1 == x.id).map (·.2))
            silent := if x.ready then x.silent + 1 else x.silent }
        else x } }

/-- What a call returns to its instance. -/
def State.woeri (s : State) (inst result : Nat) (bs : List Byte) : State := s.emit (.woeri inst result bs)

/-- A call of an instance that runs: it waits for nothing, its core has a slice in the local plan in force (R379), and LPDDR is out of
self-refresh (R470). -/
def State.call (s : State) (inst : Nat) (f : InstSt → State → State) : State :=
  match s.inst inst with
  | some x => if x.state == 1 && x.ready && s.mem.lpddr != .selfRefresh && 0 < (nth s.plan.inForce.slices x.core (0, 1)).1 then f x s else s
  | none => s

/-- A call that needs a capability returns DENIED without it and has no other effect (R390). -/
def State.capCall (s : State) (inst cap : Nat) (f : InstSt → State → State) : State :=
  s.call inst fun x s => if bitAt x.caps cap then f x s else s.woeri inst 1 []

/-- WOERI_YIELD (R390): the instance gives up the rest of its quantum. -/
def execWoeriYield (inst : Nat) (s : State) : Out :=
  run s fun s => s.call inst fun x s =>
    (s.setCore x.core fun c => if c.cur == inst then { c with cur := 0, left := 0 } else c).woeri inst 0 []

/-- An instance waits: until a timer, or something else stirs it. -/
def State.waitFor (s : State) (inst : Nat) (timer : Option Nat) (stir : Bool) (mask : BitVec 192) : State :=
  let due := timer.map fun n => s.time.tick + BitVec.ofNat 48 n
  (s.setInst inst fun x =>
    let ready := (stir && x.stirred) || timer == some 0
    { x with
      silent := 0, mask := mask, ready := ready, timer := if ready then none else due, waitsEv := stir && !ready
      notice := false }).woeri inst 0 []

/-- WOERI_WAIT (R388, R390, R392, R398): the instance waits for a timer of so many ticks, for an event of a mask, which takes EVENTS, or for
both; the oldest event delivered to it is returned at once, and anything else that has arrived ends the wait at once. A wait call ends the
time counted by the watchdog. -/
def execWoeriWait (inst : Nat) (timer : Option Nat) (events : Option (BitVec 192)) (s : State) : Out :=
  run s fun s => s.call inst fun x s =>
    if events.isSome && !bitAt x.caps 0 then s.woeri inst 1 []
    else
      let mask := events.getD x.mask
      match x.events with
      | e :: rest =>
        if events.isSome then
          (s.setInst inst fun x => { x with silent := 0, mask := mask, events := rest, notice := false }).woeri inst 0 (eventBytes e)
        else s.waitFor inst timer false mask
      | [] => s.waitFor inst timer (events.isSome || timer.isNone) mask

/-- WOERI_HEARTBEAT (R398). -/
def execWoeriHeartbeat (inst : Nat) (s : State) : Out :=
  run s fun s => s.call inst fun _ s => (s.setInst inst fun x => { x with silent := 0 }).woeri inst 0 []

/-- An area that a DMA call names: 0 the data region, 1 the scratch region, 2 HOLD, 3 NETBUF; its base, its size and the capability
it needs (R382, Table 15.2). -/
def State.dmaArea (s : State) (x : InstSt) (area : Nat) : Option (Nat × Nat × Option Nat) :=
  match area with
  | 0 => some (lpddrBase + s.svcBase + s.dataBase x.id, ceilDiv x.memKib 64 * 65536, none)
  | 1 => some (s.scratchBase x, ceilDiv x.scratch 16 * 16384, none)
  | 2 => some (lpddrBase + s.holdBase, s.holdMib * mib, some 2)
  | 3 => some (lpddrBase + 64 * mib, 16 * mib, some 3)
  | _ => none

/-- WOERI_DMA_COPY (R382, R390): a copy between areas that the instance may reach; it runs until CLUSTER_DMA_COMPLETE. -/
def execWoeriDmaCopy (inst srcArea srcOff dstArea dstOff len : Nat) (s : State) : Out :=
  run s fun s => s.call inst fun x s =>
    match s.dmaArea x srcArea, s.dmaArea x dstArea with
    | some (sb, sn, sc), some (db, dn, dc) =>
      let may := fun (c : Option Nat) => match c with
        | some k => bitAt x.caps k
        | none => true
      if !(may sc && may dc) || sn < srcOff + len || dn < dstOff + len then s.woeri inst 1 []
      else if x.dma.isSome then s.woeri inst 2 []
      else (s.setInst inst fun x => { x with dma := some ⟨sb + srcOff, db + dstOff, len⟩ }).woeri inst 0 []
    | _, _ => s.woeri inst 1 []

/-- The MAC that an instance's frames leave by: FLEET_MAC for FLEET_AGENT (R403), the bound MAC for any other. -/
def State.svcMac (s : State) (inst : Nat) : Nat := if inst == 4 then s.cv Fld.FLEET_MAC else s.net.boundMac

/-- WOERI_FRAME_SEND (R390, Tables 1.5 and 15.2): with NET, path 0 is the local path to port 9, whose adapter sends the frame; with PEER,
any other is an open TC1 or TC0 path from port 10. -/
def execWoeriFrameSend (inst path : Nat) (frame : List Byte) (s : State) : Out :=
  run s fun s => s.capCall inst (if path == 0 then 3 else 4) fun _ s =>
    if path == 0 then
      if s.svcPath then (s.macSend (s.svcMac inst) frame).woeri inst 0 [] else s.woeri inst 3 []
    else
      match s.cable.paths.find? fun r => r.id == path && r.src == 10 && r.phase == 1 && r.tc ≤ 1 with
      | some r => (s.emit (.svcFrame inst path (dataCells (s.labelOf path) r.tc frame))).woeri inst 0 []
      | none => s.woeri inst 3 []

/-- WOERI_FRAME_RECEIVE (R390): the frame at the head of the local path's queue, or the one that has come on a peer path. -/
def execWoeriFrameReceive (inst path : Nat) (frame : List Byte) (s : State) : Out :=
  run s fun s => s.capCall inst (if path == 0 then 3 else 4) fun x s =>
    if path != 0 then s.woeri inst 0 frame
    else
      match x.frames with
      | [] => s.woeri inst 3 []
      | f :: rest => (s.setInst inst fun x => { x with frames := rest }).woeri inst 0 f

/-- GATE_SUBMIT (R391): a mailbox request on behalf of an instance with COMMAND, one at a time. -/
def execGateSubmit (inst : Nat) (request : List Byte) (s : State) : Out :=
  run s fun s => s.capCall inst 1 fun x s =>
    if x.gateBusy then s.woeri inst 2 []
    else
      let m := parseReq (.gate inst) request
      let s := (s.setInst inst fun x => { x with gateBusy := true, gateReply := none }).woeri inst 0 []
      s.submit m m.whole

/-- GATE_RESULT (R391): the reply to the gate request, once it is there. -/
def execGateResult (inst : Nat) (s : State) : Out :=
  run s fun s => s.capCall inst 1 fun x s =>
    match x.gateReply with
    | some r => (s.setInst inst fun x => { x with gateReply := none }).woeri inst 0 (replyBytes r)
    | none => s.woeri inst 3 []

/-- WOERI_WAKE_REQUEST (R390): EV142 for an instance with WAKE. -/
def execWoeriWakeRequest (inst reason : Nat) (s : State) : Out :=
  run s fun s => s.capCall inst 6 fun _ s => (s.raise 142 (inst % 65536 + 65536 * (reason % 4))).woeri inst 0 []

/-- WOERI_TIME_READ (R378): the `time` CSR: ticks × 31,250 plus the nanoseconds within the tick. -/
def execWoeriTimeRead (inst core : Nat) (s : State) : Out :=
  run s fun s => if 7 < core then s else s.call inst fun _ s =>
    s.woeri inst 0 (leBytes 8 (s.time.tick.toNat * 31250 + s.time.slot * 125))

/-- CLUSTER_DMA_COMPLETE (R390, R393): a copy ends: the instance's own DMA call, or the scratch copy of the migration that comes
first, whose instance then resumes on its new core. -/
def execClusterDmaComplete (inst : Nat) (s : State) : Out :=
  run s fun s =>
    match s.inst inst with
    | none => s
    | some x =>
      match x.dma with
      | some d => (s.setInst inst fun x => { x with dma := none }).copyMem d.src d.dst d.len
      | none =>
        match s.svc.moves with
        | m :: _ =>
          if m.id == inst && m.copy then
            let src := s.scratchBase x
            let s' := s.moveDone m
            match s'.inst inst with
            | some y => s'.copyMem src (s'.scratchBase y) (x.scratch * 1024)
            | none => s'
          else s
        | [] => s

/-! ### Faults (R396, R398) -/

/-- INSTANCE_WATCHDOG (R398): ready for SVC_WDT_MS without a heartbeat or a wait call, in ticks with a slice. -/
def execInstanceWatchdog (inst : Nat) (s : State) : Out :=
  run s fun s => s.call inst fun x s => if msTicks (s.cv Fld.SVC_WDT_MS) ≤ x.silent then s.faultInst inst 3 else s

/-- INSTANCE_RESTART (R398): one tick after a fault; after SVC_RESTART_LIMIT restarts in the window the instance stays stopped. -/
def execInstanceRestart (inst : Nat) (s : State) : Out :=
  run s fun s =>
    match s.inst inst with
    | none => s
    | some x =>
      if !(x.restartDue.any fun t => s.passed t 1) then s
      else
        let recent := s.recentRestarts x
        let s := s.setInst inst fun x => { x with restartDue := none, restarts := recent }
        if s.cv Fld.SVC_RESTART_LIMIT ≤ recent.length then s.raise 137 (inst % 65536 + 65536 * 2)
        else
          let s := s.setInst inst fun x => { x with restarts := x.restarts ++ [s.time.tick] }
          match s.pkg inst with
          | none => s
          | some p =>
            if s.coreEnabled x.core && s.hasRoom x.core p.slots p.opp then s.beginInst inst x.core x.cls p
            else s.restartElsewhere x none

/-- CORE_HEARTBEAT_LOSS (R396): no heartbeat from a core's Woeri for 8 ticks with a slice. -/
def execCoreHeartbeatLoss (core : Nat) (s : State) : Out := run s fun s => if 8 ≤ (s.core core).mute then s.loseCore core else s

/-! ### Shipped services (R400 to R403) -/

/-- The start of a DPX's overlay slot in HOLD (R373). -/
def overlaySlot (k : Nat) : Nat := 32 * mib * k

/-- DISPLAY_HOLD_OVERLAY_ON (R400): on hold entry the image put for the DPX, at offset `src` of the service's data region, is copied into
the overlay slot and the overlay enabled; on exit it is disabled. A DSC stream takes no overlay: a compressed replacement frame
whose HACTIVE, VACTIVE and DSC_BPP match its descriptor goes into its frame store and counts as its last complete frame. -/
def execDisplayHoldOverlayOn (dpx : Nat) (on : Bool) (src x y w h : Nat) (repl : Option (Nat × Nat × Nat × List Byte)) (s : State) : Out :=
  run s fun s =>
    if !s.svcRuns 1 || 3 < dpx || !s.isSource dpx then s
    else if !on then s.setDpx dpx fun d => { d with overlay := (false, d.overlay.2) }
    else
      let held := s.disp.streams.filter fun x => !x.capture && x.dpx == dpx && x.state == 3
      let dsc := held.filter fun x => (x.desc.map (·.dsc)).getD false
      let s := match repl with
        | none => s
        | some (ha, va, bpp, data) => dsc.foldl (fun s x =>
            let fits := match x.desc with
              | some d => d.hactive == ha && d.vactive == va && d.bpp == bpp
              | none => false
            match s.mem.stores.find? fun e => e.1 == x.id with
            | some (_, o, n) =>
              if fits then
                let at_ := lpddrBase + s.holdBase + 128 * mib + 2 * mib * o + (1 - x.storeBuf) * (n / 2) * 2 * mib
                (s.storeMem at_ (data.take (n / 2 * 2 * mib))).setStream x.id fun x => { x with stored := true, storeBuf := 1 - x.storeBuf }
              else s
            | none => s) s
      if held.length == dsc.length || w == 0 || h == 0 || 3840 < w || 2160 < h || s.cv Fld.HOLD_REGION_MIB == 0 then s
      else
        let s := s.copyMem (lpddrBase + s.svcBase + s.dataBase 1 + src) (lpddrBase + s.holdBase + overlaySlot dpx) (4 * w * h)
        s.setDpx dpx fun d => { d with overlay := (true, x, y, w, h, overlaySlot dpx) }

/-- DH_STATUS_REDRAW (R400): once a second the last 32 rows of the overlay image are drawn again, as the service draws them. -/
def execDhStatusRedraw (dpx : Nat) (pixels : List Byte) (s : State) : Out :=
  run s fun s =>
    let (on, _, _, w, h, off) := (s.dpx dpx).overlay
    let early := (nth s.svc.redrawAt dpx none).any fun t => !s.passed t (secTicks 1)
    if !s.svcRuns 1 || s.cv Fld.DH_STATUS_LINE == 0 || 3 < dpx || !on || early then s
    else
      let rows := min 32 h
      let s : State := { s with svc := { s.svc with redrawAt := put s.svc.redrawAt dpx (some s.time.tick) } }
      s.storeMem (lpddrBase + s.holdBase + off + 4 * w * (h - rows)) (pixels.take (4 * w * rows))

/-- A key or mask of a rule: zeros but for the byte at an offset. -/
def keyWith (fields : List (Nat × Byte)) : List Byte :=
  (upTo 42).map fun k => ((fields.find? fun f => f.1 == k).map (·.2)).getD 0

/-- NET_PRESENCE_RULES (R401): rules 254 (UDP destination port 68) and 255 (ICMPv6 type 134), ACTION FORWARD and AWAY SERVICE, set as the
absence begins and removed as presence returns, from the next tick boundary; VALUE and MASK by the key of R333, which holds no ICMPv6 type
(log entry 33). -/
def execNetPresenceRules (absent : Bool) (s : State) : Out :=
  run s fun s =>
    if !s.svcRuns 2 || !s.netPort || s.net.absent != absent then s
    else
      let genOf := fun (i : Nat) => match s.net.ruleNext.reverse.find? fun r => r.index == i with
        | some r => r.gen
        | none => ((s.netRule i).map (·.gen)).getD 0
      let mk := fun (i : Nat) (v m : List Byte) =>
        ({ index := i, gen := (genOf i + 1) % 65536, isSet := absent, value := v, mask := m, act := ⟨0, 0, 3, 0, false⟩ } : NetRule)
      { s with net := { s.net with ruleNext := s.net.ruleNext ++
        [mk 254 (keyWith [(5, 17), (40, 68)]) (keyWith [(5, 0xFF), (40, 0xFF), (41, 0xFF)]),
         mk 255 (keyWith [(5, 58)]) (keyWith [(5, 0xFF)])] } }

/-- DHCP_RENEWAL (R401): at T1 the lease of a proxied address is renewed; addresses lost leave the presence engine, with a wake request
under NP_WAKE_ON_LOSS. -/
def execDhcpRenewal (index : Nat) (renewal : List Byte) (v4lost v6lost : List Nat) (s : State) : Out :=
  run s fun s =>
    if !s.svcRuns 2 || !s.netPort then s
    else
      let s := if s.cv Fld.NP_DHCP_RENEW == 1 && s.net.v4.any (fun e => e.1 == index) && s.svcPath
        then s.macSend (s.svcMac 2) renewal else s
      let lost := s.net.v4.any (fun e => v4lost.contains e.1) || s.net.v6.any fun e => v6lost.contains e.1
      let s : State := { s with net := { s.net with
        v4 := s.net.v4.filter fun e => !v4lost.contains e.1, v6 := s.net.v6.filter fun e => !v6lost.contains e.1 } }
      s.raiseIf (lost && s.cv Fld.NP_WAKE_ON_LOSS == 1) 142 2

/-- KEEPALIVE_HID_WAKE (R402): the first non-zero report buffered in an absence, or a buffer that overflows. -/
def execKeepaliveHidWake (overflow : Bool) (s : State) : Out :=
  run s fun s =>
    if overflow then s.kaWake 2
    else if s.usb.absent && !s.svc.hidWoke && s.usb.hid.any fun r => r.bytes.any (· != 0) then
      ({ s with svc := { s.svc with hidWoke := true } } : State).kaWake 1
    else s

/-- FLEET_REPORT (R403): a report every FLEET_PERIOD_S; EV143 when three periods pass without an answer and when contact returns. An answer
counts when the key of the server's certificate is FLEET_KEYID's. -/
def execFleetReport (answered : Option Nat) (s : State) : Out :=
  run s fun s =>
    let early := s.svc.fleetAt.any fun t => !s.passed t (secTicks (s.cv Fld.FLEET_PERIOD_S))
    if s.cv Fld.FLEET_ENABLE == 0 || !s.svcRuns 4 || early then s
    else
      let s := s.fleetReport
      let n := s.svc.fleetMiss
      let s : State := { s with svc := { s.svc with fleetAt := some s.time.tick } }
      if answered == some (s.cv Fld.FLEET_KEYID) then
        ({ s with svc := { s.svc with fleetMiss := 0 } } : State).raiseIf (3 ≤ n) 143 (4 + 65536)
      else
        ({ s with svc := { s.svc with fleetMiss := satAdd 32 n 1 } } : State).raiseIf (n == 2) 143 4

/-! ### Commands (R406) -/

/-- A SERVICE_ID that has a package, stored or shipped. -/
def State.knownSvc (s : State) (id : Nat) : Bool := (s.pkg id).isSome

/-- SVC_SHOW (Table 15.5). -/
def execSvcShow (rq : Req) (s : State) : Out :=
  command Cmd.svcShow 0 rq s fun _ s =>
    let cores := (upTo 8).flatMap fun k =>
      let (n, o) := nth s.plan.inForce.slices k (0, 1)
      leBytes 1 (s.core k).state ++ leBytes 1 o ++ leBytes 2 (loadOf (s.coreWorks k)) ++ leBytes 2 n
        ++ leBytes 1 (s.instsOn k).length ++ zeros 1
    .show s (cores ++ leBytes 1 (s.svc.insts.filter fun x => x.state == 1 || x.state == 3).length
      ++ leBytes 1 (s.svc.insts.filter fun x => x.state == 2).length ++ leBytes 2 (total (s.svc.insts.map (·.lostEvents))))

/-- SVC_STAGE (R406, R104): a chunk of a package, in a buffer of 16 MiB for each channel. -/
def execSvcStage (rq : Req) (s : State) : Out :=
  command Cmd.svcStage 5 rq s fun _ s =>
    let c := chanNum (viaChan rq.via)
    let off := arg rq 0 4
    let chunk := (rq.payload.drop 4).take 1020
    let old := if off == 0 then [] else nth s.svc.staged c []
    if off != old.length || 16 * mib < old.length + chunk.length then .fail s .badLength
    else .done { s with svc := { s.svc with staged := put s.svc.staged c (old ++ chunk) } }

/-- 64 KiB places that the stored packages take (R509). -/
def storePlaces (l : List StoredPkg) : Nat := total (l.map fun p => ceilDiv p.bytes.length 65536)

/-- What an install comes to (R385, R386, R509): the result, and the package as stored. -/
def State.checkPkg (s : State) (b : List Byte) : Rc × List Byte :=
  let id := leAt 6 2 b
  let p := parsePkg b
  let code := 40 + leAt 32 4 b
  let sig := b.drop code
  let digest := sha384 (b.take code)
  let signed := leAt 0 2 sig == 0xFFFF
  let alg := leAt 4 1 sig
  let good := signed && s.sigHolds 1 (fun k => if shippedId id then k == 1 else 8 ≤ k && k < 32) digest sig
  let lc := s.lifecycle
  let sigOk :=
    if !shippedId id && openLc lc && !signed then true
    else if lc == 3 then good && alg == 2
    else good
  let others := s.upd.flash.pkgs.filter fun q => q.id != id
  let clamp := !shippedId id && Nat.land p.caps (s.cv Fld.CUSTOMER_CAPS) != p.caps
  let stored := if clamp then b.take 20 ++ leBytes 2 (Nat.land p.caps (s.cv Fld.CUSTOMER_CAPS)) ++ b.drop 22 else b
  if leAt 0 4 b != 0x57455249 || leAt 4 2 b != 1 || id == 0 || id == 0xFFFF || b.length < code || 3 < p.opp || 2 < p.cls
      || 16 * mib < b.length || p.mem < 64 || 1048576 < p.mem || 256 < p.scratch || leAt 32 4 b < leAt 36 4 b then (.badState, b)
  else if !packageOk (s.runningImage 1) b then (.versionConflict, b)
  else if !sigOk then (.authFail, b)
  else if p.cls == 0 && 1 < p.opp then (.badState, b)
  else if p.slots < 1 || 500 < p.slots || 250 < slotsAt p.slots p.opp then (.badState, b)
  else if 32 ≤ others.length || 1727 < storePlaces others + ceilDiv b.length 65536 then (.busy, b)
  else (if clamp then .okClamped else .ok, stored)

/-- SVC_INSTALL (R385, R386): the staged package is checked and stored; it takes effect at the service's next start. -/
def execSvcInstall (rq : Req) (s : State) : Out :=
  command Cmd.svcInstall 0 rq s fun _ s =>
    let c := chanNum (viaChan rq.via)
    let b := nth s.svc.staged c []
    let id := leAt 6 2 b
    if s.lifecycle == lcScrapped then .fail s .locked
    else
      let (rc, stored) := s.checkPkg b
      let s : State := { s with svc := { s.svc with staged := put s.svc.staged c [] } }
      let s := s.cryptoSpore (rc == .ok) id []
      if rc.bad then .long s (some (rc.code, leBytes 2 id))
      else
        let others := s.upd.flash.pkgs.filter fun q => q.id != id
        .long { s with upd := { s.upd with flash := { s.upd.flash with pkgs := others ++ [⟨id, stored⟩] } } } (some (rc.code, leBytes 2 id))

/-- SVC_REMOVE (R406): a stored package leaves the store; BAD_STATE while its service runs. -/
def execSvcRemove (rq : Req) (s : State) : Out :=
  command Cmd.svcRemove 2 rq s fun _ s =>
    let id := arg rq 0 2
    if (s.svc.insts.any fun x => x.id == id && x.state != 0) then .fail s .badState
    else if !s.knownSvc id then .fail s .badHandle
    else if !(s.upd.flash.pkgs.any fun p => p.id == id) then .fail s .badState
    else .done { s with upd := { s.upd with flash := { s.upd.flash with pkgs := s.upd.flash.pkgs.filter fun p => p.id != id } } }

/-- SVC_START (R387): the instance is placed and begins; BUSY when no enabled core has room. -/
def execSvcStart (rq : Req) (s : State) : Out :=
  command Cmd.svcStart 3 rq s fun _ s =>
    let id := arg rq 0 2
    match s.pkg id with
    | none => .fail s .badHandle
    | some p =>
      let cls := s.runClass p
      if s.svc.insts.any fun x => x.id == id && x.state != 0 then .fail s .badState
      else
        match s.place cls p.slots p.opp none with
        | none => .fail s .busy
        | some k =>
          let s := (s.beginInst id k cls p).setInst id fun x => { x with persist := bitAt (arg rq 2 1) 0, restartDue := none }
          { st := s, rc := if cls == p.cls then .ok else .okClamped, data := leBytes 1 k }

/-- SVC_STOP (R406). -/
def execSvcStop (rq : Req) (s : State) : Out :=
  command Cmd.svcStop 2 rq s fun _ s =>
    let id := arg rq 0 2
    if !s.knownSvc id then .fail s .badHandle
    else
      match s.inst id with
      | some x =>
        if x.state == 0 && x.restartDue.isNone then .done (s.setInst id fun x => { x with persist := false })
        else .done (((s.stopInst id 0).setInst id fun x => { x with persist := false, restartDue := none }).drainDone x.core)
      | none => .done s

/-- SVC_INSTANCE_SHOW (Table 15.5). -/
def execSvcInstanceShow (rq : Req) (s : State) : Out :=
  command Cmd.svcInstanceShow 2 rq s fun _ s =>
    let id := arg rq 0 2
    if !s.knownSvc id then .fail s .badHandle
    else
      match s.inst id with
      | some x => .show s (leBytes 1 x.state ++ leBytes 1 x.core ++ leBytes 1 x.cls ++ zeros 1 ++ leBytes 2 x.ran
          ++ leBytes 2 (s.recentRestarts x).length ++ leBytes 4 x.faults ++ leBytes 1 x.lastFault ++ zeros 3)
      | none => .show s (zeros 16)

/-- SVC_CORE_DRAIN (R395): ACCEPTED; it completes when the core holds no instance. -/
def execSvcCoreDrain (rq : Req) (s : State) : Out :=
  command Cmd.svcCoreDrain 1 rq s fun h s =>
    let k := arg rq 0 1
    if 7 < k then .fail s .badState
    else if (s.core k).state == 2 then .fail s .busy
    else if (s.core k).state != 1 then .long s (some (0, []))
    else
      -- A core that is empty at once completes with its own plan: its handle is not allocated yet.
      let s' := s.drainCore k none
      if (s'.core k).state == 2 then .long (s'.setCore k fun c => { c with job := some (rq.via, h) }) none
      else .long s' (some (0, []))

/-- SVC_CORE_ADMIT (R395): BUSY while a drain still changes the core (R49); a core that SVC_CORES_MASK leaves out may hold no instance (log
entry 32). -/
def execSvcCoreAdmit (rq : Req) (s : State) : Out :=
  command Cmd.svcCoreAdmit 1 rq s fun _ s =>
    let k := arg rq 0 1
    if 7 < k || !bitAt (s.applied Fld.SVC_CORES_MASK) k then .fail s .badState
    else if (s.core k).state == 2 then .fail s .busy
    else .done (s.admitCore k)

/-- SVC_DATA_PUT (R406): bytes written into an instance's data region, with a data notice. -/
def execSvcDataPut (rq : Req) (s : State) : Out :=
  command Cmd.svcDataPut 9 rq s fun _ s =>
    let id := arg rq 0 2
    let off := arg rq 4 4
    let d := (rq.payload.drop 8).take 1016
    if !s.knownSvc id then .fail s .badHandle
    else
      match s.inst id with
      | none => .fail s .badState
      | some x =>
        if x.memKib * 1024 < off + d.length then .fail s .badLength
        else if x.state == 0 then .fail s .badState
        else .done ((s.storeMem (lpddrBase + s.svcBase + s.dataBase id + off) d).setInst id fun x => { x with notice := true })

end Sys2Proof.Machine
end

