-- ==== Sys2Proof/Machine/Sideband.lean ====
section
/-! DEFINITION. The sideband bridge's commands (spec/13). -/

namespace Sys2Proof.Machine

/-- SB_XFER_FRAME (R351): at its destination the transaction runs here; on the way it goes on with HOPS decremented. -/
def execSbXferFrame (port num : Nat) (route : SbRoute) (xfer : SbXfer) (s : State) : Out :=
  run s fun s =>
    let (_, ds, s) := s.sbModes.sbSubmit (.frame port num) route xfer
    (ds.foldl (fun s d => s.sbDeliver d) s).sbSettle

/-- SB_XFER_REP (R351): the result of a transaction sent on passes back toward its origin. -/
def execSbXferRep (port num : Nat) (reply : List Byte) (s : State) : Out :=
  run s fun s =>
    match s.sb.txs.find? fun t => t.sentOn == some port && t.num % 65536 == num % 65536 with
    | none => s
    | some t =>
      let s := (s.sbDrop t).sbDeliver ⟨t, if reply.isEmpty then 7 else leAt 0 1 reply, reply.drop 4⟩
      sbPump port 8 s

/-- SB_LOCK_FRAME (R354): the destination resolves it; a hub on the way passes it on. -/
def execSbLockFrame (port num : Nat) (route : SbRoute) (holder : SbHolder) (s : State) : Out :=
  run s fun s =>
    let h := s.sbHolder port holder
    if route.hops == 0 then
      let (g, s) := s.sbLockHere (.frame port num) num route h
      match g with
      | some n => (s.sbSend port sbLockRepOp num (leBytes 1 0 ++ leBytes 4 n)).sbSettle
      | none => s.sbSettle
    else
      match s.sbPort route with
      | none => s.sbSend port sbLockRepOp num (leBytes 1 3 ++ leBytes 4 0)
      | some p => (s.sbLockOnward (.frame port num) route h p)

/-- SB_LOCK_REP (R354): the outcome of a request sent on reaches its origin, or passes back; a hub that passes a grant back
remembers where the lock crosses it. -/
def execSbLockRep (port num outcome handle : Nat) (s : State) : Out :=
  run s fun s =>
    match s.sb.waits.find? fun w => w.sentOn == some port && w.num % 65536 == num % 65536 with
    | none => s
    | some w =>
      let s : State := { s with sb := { s.sb with waits := s.sb.waits.erase w } }
      let s : State := match w.origin with
        | .frame up _ => if outcome == 0 then { s with sb := { s.sb with passed := s.sb.passed ++ [(handle, up, port)] } } else s
        | _ => s
      sbPump port 8 (s.sbLockReply w.origin w.holder outcome handle (some port))

/-- SB_UNLOCK_FRAME (R353): the lock that the port's request was granted is released, with EV124 where it has lapsed and not been
unlocked; a hub that passed the grant back passes the frame on the way the lock crosses it. -/
def execSbUnlockFrame (port handle : Nat) (lapsed : Bool) (s : State) : Out :=
  run s fun s =>
    match s.sb.passed.find? fun x => x.1 == handle && x.2.1 == port with
    | some x =>
      let s : State := { s with sb := { s.sb with passed := s.sb.passed.erase x } }
      if s.linkUp x.2.2 then s.sbSendUnlock x.2.2 handle lapsed else s
    | none =>
      match s.sb.locks.find? fun l => l.handle == handle with
      | some l => ((s.raiseIf lapsed 124 (l.intf % 16)).sbRelease l).sbSettle
      | none => s

/-- SB_WOUND (R354): the wounded holder's locks here are released and its waiting requests fail REVOKED. -/
def execSbWound (port : Nat) (holder : SbHolder) (s : State) : Out :=
  run s fun s => (s.sbWound (s.sbHolder port holder) (some port)).sbSettle

/-- SB_IRQ (R357): from an XJT4200 it sets or clears bit 24 plus its line. -/
def execSbIrq (port line level : Nat) (s : State) : Out :=
  run s fun s =>
    if s.gen1Ports.contains port && line < 8 then
      let bit : Word := BitVec.ofNat 32 (2 ^ (24 + line))
      if level == 1 then s.sbIrq bit
      else ({ s with sb := { s.sb with pending := s.sb.pending &&& ~~~bit } } : State).sbExport (s.sb.pending &&& bit) 0
    else s

/-- I2C_TARGET_TRANSACTION (R352): a transaction addressed to this hub on a target interface. -/
def execI2cTargetTransaction (intf addr reads : Nat) (write : List Byte) (s : State) : Out :=
  run s fun s =>
    let s := s.sbModes
    let x : SbXfer := ⟨reads, !write.isEmpty && 0 < reads, 0, write.take 64⟩
    if nth s.sb.modes intf 0 != 4 then s
    else
      match s.sbRoute 1 intf addr with
      | none => (s.sbMiss 1 addr).emit (.sbTarget intf 0 [])
      | some r =>
        if reads == 0 || !r.hold then
          -- A write posted at STOP; the address of a read that is not held is not acknowledged.
          let w : SbXfer := { x with reads := 0, repeatedStart := false }
          let s := s.emit (.sbTarget intf (if 0 < reads then 0 else 1) [])
          if x.data.isEmpty then s
          else if !(routePermits r w) then
            let s := s.sbMiss 1 addr
            s.sbDeliver ⟨⟨0, .posted intf, r, w, none, false, 0⟩, 5, []⟩
          else
            let (_, ds, s) := s.sbSubmit (.posted intf) r w
            (ds.foldl (fun s d => s.sbDeliver d) s).sbSettle
        else if !(routePermits r x) then (s.sbMiss 1 addr).emit (.sbTarget intf 0 [])
        else
          let s : State := { s with sb := { s.sb with holds := s.sb.holds ++ [⟨intf, addr, reads, s.sb.nextNum, s.slotCount⟩] } }
          let (_, ds, s) := (s.emit (.sbTarget intf 1 [])).sbSubmit (.target intf) r x
          (ds.foldl (fun s d => s.sbDeliver d) s).sbSettle

/-- SB_HOLD_EXPIRY (R352): a read held for SB_HOLD_US returns 0xFF for every byte. -/
def execSbHoldExpiry (intf addr : Nat) (s : State) : Out :=
  run s fun s =>
    match s.sb.holds.find? fun h => h.intf == intf && h.addr == addr with
    | none => s
    | some h =>
      if s.slotCount < h.since + 8 * s.cv Fld.SB_HOLD_US then s
      else
        let s : State := { s with sb := { s.sb with
          holds := s.sb.holds.erase h, holdTimeouts := satAdd 32 s.sb.holdTimeouts 1 } }
        (s.emit (.sbTarget intf 2 (List.replicate h.reads 0xFF))).raise 121 (intf % 4 + 4 * (addr % 1024))

/-- SB_ARBITRATION_LOST (R349): the running transaction is tried again, 3 times; then it ends with ARB_LOST. -/
def execSbArbitrationLost (kind intf : Nat) (s : State) : Out :=
  run s fun s =>
    match s.sbRunning kind intf with
    | none => s
    | some t =>
      if t.tries < 3 then
        let s : State := { s with sb := { s.sb with
          txs := s.sb.txs.map fun (u : SbTx) => if u.num == t.num then { u with tries := u.tries + 1 } else u } }
        (s.emit (.sbBus t.route.dstKind t.route.dstIf t.route.dstId t.xfer.reads t.xfer.repeatedStart t.xfer.data)).sbSettle
      else ((s.sbEnd t).sbDeliver ⟨t, 3, []⟩).sbSettle

/-- BUS_TRANSACTION_COMPLETE (R351): the transaction running on an I²C, I3C or SPI interface of this hub ends with a bus result and the
data read; a UART's ends as its bytes enter and leave the FIFOs (Table 13.1). -/
def execBusTransactionComplete (kind intf result : Nat) (data : List Byte) (s : State) : Out :=
  run s fun s =>
    match s.sbRunning kind intf with
    | none => s
    | some t => ((s.sbEnd t).sbDeliver ⟨t, result % 5, data.take t.xfer.reads⟩).sbSettle

/-- SB_SDA_STUCK (R349): 9 clock pulses and a STOP, STUCK to the transaction in progress, EV122. -/
def execSbSdaStuck (kind intf : Nat) (s : State) : Out :=
  run s fun s =>
    let s := (s.emit (.sbClocks intf)).raise 122 (intf % 16 + 16 * 4)
    let s : State := { s with sb := { s.sb with busErrs := satAdd 32 s.sb.busErrs 1 } }
    match s.sbRunning kind intf with
    | none => s
    | some t =>
      -- A posted write's own EV122 would be the same event once more.
      let s := s.sbEnd t
      match t.origin with
      | .posted _ => s.sbSettle
      | _ => (s.sbDeliver ⟨t, 4, []⟩).sbSettle

/-- SB_LOCK_LEASE_EXPIRY (R353): the lease of SB_LOCK_MS has run out. -/
def execSbLockLeaseExpiry (handle : Nat) (s : State) : Out :=
  run s fun s =>
    match s.sb.locks.find? fun l => l.handle == handle with
    | none => s
    | some l =>
      if s.passed l.since (msTicks (s.cv Fld.SB_LOCK_MS)) then ((s.raise 124 (l.intf % 16)).sbRelease l).sbSettle else s

/-- SB_LOCK_WAIT_EXPIRY (R354): the request at this place among those that wait, for SB_LOCK_WAIT_MS, fails
WAIT_EXPIRED. -/
def execSbLockWaitExpiry (waiter : Nat) (s : State) : Out :=
  run s fun s =>
    match s.sb.waits[waiter]? with
    | none => s
    | some w =>
      if w.sentOn.isSome || !s.passed w.since (msTicks (s.cv Fld.SB_LOCK_WAIT_MS)) then s
      else ({ s with sb := { s.sb with waits := s.sb.waits.eraseIdx waiter } } : State).sbLockReply w.origin w.holder 1 0 none

/-- SB_IRQ_SOURCE_EDGE (R355): the edge of an interrupt source of this hub, bits 0 to 23: an input of the GPIOs, a tachometer that falls
below 10 % of the expected speed, a UART's data, an in-band interrupt on an interface in I3C mode. -/
def execSbIrqSourceEdge (source : Nat) (s : State) : Out :=
  run s fun s =>
    let off := (source < 16 && s.sb.gpioDir.getLsbD source)
      || ((source == 22 || source == 23) && nth s.sb.modes (source - 20) 0 != 5)
    if 24 ≤ source || off then s
    else
      let s : State := if 16 ≤ source && source < 20 then { s with sb := { s.sb with fanLow := put s.sb.fanLow (source - 16) true } } else s
      s.sbIrq (BitVec.ofNat 32 (2 ^ source))

/-- FAN_TACH_FAULT (R358): a tachometer that reads below 10 % of the speed expected for the duty has done so for 2 s; `pulses`: its pulses
a second. The interrupt's edge was the fall, where that has been told (R355). -/
def execFanTachFault (fan pulses : Nat) (s : State) : Out :=
  run s fun s =>
    if fan < 4 then
      let told := nth s.sb.fanLow fan false
      let s : State := { s with sb := { s.sb with rpm := put s.sb.rpm fan (s.fanRpm pulses), fanLow := put s.sb.fanLow fan false } }
      (if told then s else s.sbIrq (BitVec.ofNat 32 (2 ^ (16 + fan)))).raise 125 fan
    else s

/-- UART_RECEIVE (R355, Table 13.1): received bytes enter the FIFO of 2 KiB; those it cannot hold are lost, with EV126. -/
def execUartReceive (idx : Nat) (bytes : List Byte) (s : State) : Out :=
  run s fun s =>
    if idx < 2 && !bytes.isEmpty then
      let q := nth s.sb.uartRx idx [] ++ bytes
      let s : State := { s with sb := { s.sb with uartRx := put s.sb.uartRx idx (q.take 2048) } }
      (s.sbIrq (BitVec.ofNat 32 (2 ^ (20 + idx)))).raiseIf (2048 < q.length) 126 idx
    else s

/-- SB_SHOW (Table 13.5). -/
def execSbShow (rq : Req) (s : State) : Out :=
  command Cmd.sbShow 0 rq s fun _ s =>
    .show s (leBytes 4 s.sb.pending.toNat ++ leBytes 1 s.sb.locks.length
      ++ leBytes 1 (s.sb.waits.filter fun w => w.sentOn.isNone).length ++ zeros 2 ++ leBytes 4 s.sb.holdTimeouts
      ++ leBytes 4 s.sb.busErrs)

/-- SB_ROUTE_SET (R350, Table 13.5): an entry whose source another entry has replies BAD_STATE. -/
def execSbRouteSet (rq : Req) (s : State) : Out :=
  command Cmd.sbRouteSet 16 rq s fun _ s =>
    let i := arg rq 0 1
    let e := routeOf (arg rq 8 8)
    if 63 < i then .fail s .badState
    else
      match e with
      | none => .done { s with sb := { s.sb with routes := put s.sb.routes i none } }
      | some r =>
        let dup := (s.sb.routes.zipIdx).any fun (x, k) => k != i &&
          (match x with
            | some q => q.srcKind == r.srcKind && q.srcIf == r.srcIf && q.srcId == r.srcId
            | none => false)
        if routeReserved r || dup then .fail s .badState
        else .done { s with sb := { s.sb with routes := put s.sb.routes i (some r) } }

/-- SB_ROUTE_SHOW (Table 13.5). -/
def execSbRouteShow (rq : Req) (s : State) : Out :=
  command Cmd.sbRouteShow 1 rq s fun _ s =>
    let i := arg rq 0 1
    if 63 < i then .fail s .badState else .show s (leBytes 8 (routeWord (nth s.sb.routes i none)))

/-- SB_XFER (R351, R354, Table 13.5): the route is resolved and the transaction run here or sent on; a transaction that has
ended is answered at once, another ACCEPTED. -/
def execSbXfer (rq : Req) (s : State) : Out :=
  command Cmd.sbXfer 12 rq s fun h s =>
    let x : SbXfer := ⟨arg rq 4 2, bitAt (arg rq 6 2) 0, arg rq 8 4, rq.payload.drop 12⟩
    let id := arg rq 0 2
    if arg rq 2 2 != x.data.length then .fail s .badLength
    else if 256 < x.data.length || 256 < x.reads then .fail s .badState
    else
      let s := s.sbModes
      match s.sbRoute 0 0 id with
      | none => .show (s.sbMiss 0 id) (xferReply 5 [])
      | some r =>
        if !(routePermits r x) then .show (s.sbMiss 0 id) (xferReply 5 [])
        else
          let port := if r.hops == 0 then none else s.sbPort r
          let holds := match s.sbAge (chanNum (viaChan rq.via)) rq.cred.toNat with
            | some a => a.held.any fun k => k.handle == x.lock && k.port == port
            | none => false
          if x.lock != 0 && !holds then .fail s .badHandle
          else
            let (n, d0, s) := s.sbSubmit (.cmd rq.via h) r x
            let (d1, s) := s.sbGo
            let ds := d0 ++ d1
            let s := (ds.filter fun d => d.tx.num != n).foldl (fun s d => s.sbDeliver d) s
            match ds.find? fun d => d.tx.num == n with
            | some d => if d.result == 7 then .fail s .badHandle else .show s (xferReply d.result d.data)
            | none => .long s none

/-- SB_LOCK (R353, R354, Table 13.5). -/
def execSbLock (rq : Req) (s : State) : Out :=
  command Cmd.sbLock 2 rq s fun job s =>
    let id := arg rq 0 2
    match s.sbRoute 0 0 id with
    | none => { st := s, rc := .badState, failSt := some (s.sbMiss 0 id) }
    | some r =>
      let (h, s1) := s.sbAsk (chanNum (viaChan rq.via)) rq.cred.toNat
      if r.hops == 0 then
        let n := s1.sb.nextNum
        let s1 : State := { s1 with sb := { s1.sb with nextNum := n + 1 } }
        let (g, s2) := s1.sbLockHere (.cmd rq.via job) n r h
        match g with
        | some k => .show (s2.sbObtained h.chan h.cred k none) (leBytes 4 k)
        | none =>
          -- Where the holder gave way at once, the lock is this request's by now.
          match s2.sb.locks.find? fun l => l.origin == .cmd rq.via job && sbSame l.holder h with
          | some l => .show ((s2.sbObtained h.chan h.cred l.handle none).sbSettle) (leBytes 4 l.handle)
          | none => .long (s2.sbSettle) none
      else
        match s1.sbPort r with
        | none => .fail s .badState
        | some p => .long (s1.sbLockOnward (.cmd rq.via job) r h p) none

/-- SB_UNLOCK (R353, Table 13.5). -/
def execSbUnlock (rq : Req) (s : State) : Out :=
  command Cmd.sbUnlock 4 rq s fun _ s =>
    let k := arg rq 0 4
    match s.sbAge (chanNum (viaChan rq.via)) rq.cred.toNat with
    | none => .fail s .badHandle
    | some a =>
      match a.held.find? fun h => h.handle == k with
      | none => .fail s .badHandle
      | some h =>
        match h.port with
        | some p => .done ((s.sbForget fun g => g == h).sbSendUnlock p k false)
        | none =>
          match s.sb.locks.find? fun l => l.handle == k with
          | none => .fail s .badHandle
          | some l => .done ((s.sbRelease l).sbSettle)

/-- SB_IRQ_READ (R356, Table 13.5): the pending word before clearing; a cleared exported bit is told to an XJT4200 (R357). -/
def execSbIrqRead (rq : Req) (s : State) : Out :=
  command Cmd.sbIrqRead 4 rq s fun _ s =>
    let clr : Word := BitVec.ofNat 32 (arg rq 0 4)
    let old := s.sb.pending
    let s : State := { s with sb := { s.sb with pending := old &&& ~~~clr } }
    .show (s.sbExport (old &&& clr) 0) (leBytes 4 old.toNat)

/-- SB_IRQ_MASK (R355, Table 13.5): the mask of the channel that carries the command. -/
def execSbIrqMask (rq : Req) (s : State) : Out :=
  command Cmd.sbIrqMask 4 rq s fun _ s =>
    .done { s with sb := { s.sb with irqMask := put s.sb.irqMask (chanNum (viaChan rq.via)) (BitVec.ofNat 32 (arg rq 0 4)) } }

/-- SB_FAN_SET (R358, Table 13.5): `pulses`: the tachometer's pulses a second. -/
def execSbFanSet (rq : Req) (pulses : Nat) (s : State) : Out :=
  command Cmd.sbFanSet 2 rq s fun _ s =>
    let f := arg rq 0 1
    let d := arg rq 1 1
    if 3 < f then .fail s .badState
    else
      let rpm := s.fanRpm pulses
      let s : State := { s with sb := { s.sb with duty := put s.sb.duty f d, rpm := put s.sb.rpm f rpm } }
      .show (s.emit (.fan f d)) (leBytes 2 rpm)

end Sys2Proof.Machine
end

