-- ==== Sys2Proof/Machine/Switch.lean ====
section
/-! DEFINITION. The switch core's commands (spec/07). -/

namespace Sys2Proof.Machine

/-- LOCAL_CELL_OFFER (R190, R223): a local port offers a cell toward a cable (0, 1; by the label) or along a local path (2; by
the identifier). A class that is not ready takes nothing; a cell above profile is counted and dropped only under POLICE_DROP. -/
def execLocalCellOffer (port cable : Nat) (c : Cell) (s : State) : Out :=
  run s fun s =>
    match s.offerTo port cable c.path with
    | none => s
    | some o =>
      if 2 ≤ port && port ≤ 11 && s.classReady port o.tc then
        let (drop, s) := s.police port o
        if drop then s
        else s.arriveMarked
          { buf := 0, len := c.len, label := o.label, tc := o.tc, inp := port, outp := o.outp, pending := false, shared := false,
            first := c.first, last := c.last, ecn := c.ecn, cut := false, held := false, coach := 0, payload := c.payload }
      else s

/-- CELL_TIME_MATCH (R182, R195, R201): one cell time in a slot. `room` is what each output can take, a mask of classes per
output; `cut` the longest switch delay in cycles of the express cells connected; `bank` the write cycles lost to bank
placement; `bad` buffers whose words the cell memory reads with an error, correctable or not. -/
def execCellTimeMatch (slot : Nat) (room : List Nat) (cut bank : Nat) (bad : List (Nat × Bool)) (s : State) : Out :=
  run s fun s =>
    let s := bad.foldl (fun s b => s.spoil (cellWord b.1) (if b.2 then 2 else 1)) s
    let s := (s.toSlot slot).cellTime room
    { s with sw := { s.sw with maxCut := max s.sw.maxCut cut, bankWait := satAdd 64 s.sw.bankWait bank } }

/-- VOQ_STARVE (R196, R204): a queue whose age has reached STARVE_CELLS becomes URGENT. -/
def execVoqStarve (inp outp tc : Nat) (s : State) : Out :=
  run s fun s =>
    let v := s.sw.voq inp outp tc
    if s.cv Fld.STARVE_CELLS ≤ v.age && !v.urgent then
      ({ s with sw := s.sw.setVoq { v with urgent := true, urgents := satAdd 32 v.urgents 1 } } : State).swEvent 3
        (inp + 16 * outp + 256 * tc)
    else s

/-- PLAN_SWITCH_SHOW (Table 7.5). -/
def execPlanSwitchShow (rq : Req) (s : State) : Out :=
  command Cmd.planSwitchShow 0 rq s fun _ s =>
    .show s (leBytes 2 s.poolSize ++ leBytes 2 s.poolFree ++ leBytes 2 (min s.sw.lowWater s.poolFree) ++ zeros 2
      ++ leBytes 2 (nth s.sw.replay 0 0) ++ leBytes 2 (nth s.sw.replay 1 0)
      ++ leBytes 4 (nth s.sw.pendCoach 0 0 + 65536 * nth s.sw.pendCoach 1 0)
      ++ leBytes 8 s.sw.cutCells ++ leBytes 8 s.sw.pieces ++ leBytes 8 s.sw.bankWait ++ leBytes 8 s.sw.matched
      ++ leBytes 4 s.sw.maxCut ++ zeros 4)

/-- Buffers charged to an input and class now: its minimum or credit pool, and its SHARED cells. -/
def State.chargedNow (s : State) (p c : Nat) : Nat :=
  nth s.sw.minUsed (swIdx p c) 0 + total ((s.sw.voqs.filter fun v => v.inp == p && v.tc == c).map sharedCells)

/-- PLAN_SWITCH_PORT_SHOW (Table 7.4). -/
def execPlanSwitchPortShow (rq : Req) (s : State) : Out :=
  command Cmd.planSwitchPortShow 1 rq s fun _ s =>
    let p := arg rq 0 1
    if 11 < p then .fail s .badState
    else .show s ((upTo 8).flatMap fun c =>
      let k := nth s.sw.cnts (swIdx p c) .init
      leBytes 8 k.cin ++ leBytes 8 k.cout ++ leBytes 4 k.cap ++ leBytes 4 k.full ++ leBytes 4 k.pushed ++ leBytes 2 k.ecn
        ++ leBytes 2 (s.chargedNow p c))

/-- A cell descriptor (Table 7.1) with its link. -/
def descriptorBytes (q : QCell) (next : Nat) : List Byte :=
  leBytes 8 (next % 32768 * 2 ^ 49 + q.len * 2 ^ 40 + q.label % 4096 * 2 ^ 28 + q.tc * 2 ^ 25 + q.inp * 2 ^ 21 + q.outp * 2 ^ 17
    + b2n q.pending * 2 ^ 16 + b2n q.shared * 2 ^ 15 + b2n q.first * 2 ^ 14 + b2n q.last * 2 ^ 13 + b2n q.ecn * 2 ^ 12
    + b2n q.cut * 2 ^ 11 + b2n q.held * 2 ^ 10 + q.coach % 64 * 2 ^ 4)

/-- The head descriptor of a queue: its link names the next cell; the link of a lone cell and the descriptor of an empty queue are
not stated, and are free values (log entry 3). -/
def State.headDescriptor (s : State) (v : Voq) : List Byte × State :=
  match v.cells with
  | [] => let (x, s) := s.draw; (leBytes 8 x, s)
  | [q] => let (x, s) := s.draw; (descriptorBytes q x, s)
  | q :: r :: _ => (descriptorBytes q r.buf, s)

/-- PLAN_SWITCH_VOQ_SHOW (Table 7.4). -/
def execPlanSwitchVoqShow (rq : Req) (s : State) : Out :=
  command Cmd.planSwitchVoqShow 2 rq s fun _ s =>
    let i := arg rq 0 1
    let j := arg rq 1 1
    if 11 < i || 11 < j then .fail s .badState
    else
      let vs := (upTo 8).map fun c => s.sw.voq i j c
      let top := vs.flatMap fun v => leBytes 2 v.cells.length ++ leBytes 2 (sharedCells v) ++ leBytes 2 v.age ++ zeros 2
        ++ leBytes 4 v.urgents ++ leBytes 4 v.conns
      let (heads, s) := vs.foldl (fun (acc : List Byte × State) v =>
        let (b, s) := acc.2.headDescriptor v
        (acc.1 ++ b, s)) ([], s)
      .show s (top ++ heads)

/-- The counters of a port return to 0 (R203). -/
def State.clearSwPort (s : State) (p : Nat) : State :=
  { s with sw := { s.sw with
    cnts := (upTo 8).foldl (fun l c => put l (swIdx p c) .init) s.sw.cnts
    voqs := s.sw.voqs.map fun v => if v.inp == p || v.outp == p then { v with urgents := 0, conns := 0 } else v } }

/-- PLAN_SWITCH_CLEAR (R203): the counters of a port, or of all and of the switch. -/
def execPlanSwitchClear (rq : Req) (s : State) : Out :=
  command Cmd.planSwitchClear 1 rq s fun _ s =>
    let p := arg rq 0 1
    if p == 0xFF then
      let s := (upTo 12).foldl (fun s p => s.clearSwPort p) s
      .done { s with sw := { s.sw with
        cutCells := 0, pieces := 0, bankWait := 0, matched := 0, maxCut := 0, lowWater := s.poolFree } }
    else if 11 < p then .fail s .badState
    else .done (s.clearSwPort p)

end Sys2Proof.Machine
end

