-- ==== Sys2Proof/Machine/System.lean ====
section
/-! DEFINITION. The commands of the sys group (Tables 3.12, 21.9, 22.3 and 22.4). -/

namespace Sys2Proof.Machine

/-- SYS_PING (R81). -/
def execSysPing (rq : Req) (s : State) : Out := command Cmd.sysPing 0 rq s fun _ s => .done s

/-- Entries taken from a queue: how many, the lost count and the entries. -/
def eventReply (n lost : Nat) (q : List EventEntry) : List Byte :=
  leBytes 2 (min n q.length) ++ leBytes 2 (min lost 65535) ++ (q.take n).flatMap eventBytes

/-- SYS_EVENT_READ (R56, R565): entries oldest first, the lost count returned and cleared, ATTN cleared; an instance at the command gate
reads its own events (R392). -/
def execSysEventRead (rq : Req) (s : State) : Out :=
  command Cmd.sysEventRead 1 rq s fun _ s =>
    let n := arg rq 0 1
    if n == 0 || 63 < n then .fail s .badState
    else
      match rq.via with
      | .gate i =>
        match s.inst i with
        | none => .fail s .badState
        | some x =>
          { st := s.setInst i fun x => { x with events := x.events.drop n, lostEvents := 0 }, rc := .ok
            data := eventReply n x.lostEvents x.events }
      | via =>
        let c := s.chan (viaChan via)
        { st := s.modChan (viaChan via) fun c => { c with queue := c.queue.drop n, lost := 0, attn := false }, rc := .ok
          data := eventReply n c.lost c.queue }

/-- SYS_EVENT_MASK (R564): the channel's mask, or the instance's. -/
def execSysEventMask (rq : Req) (s : State) : Out :=
  command Cmd.sysEventMask 24 rq s fun _ s =>
    let m := BitVec.ofNat 192 (arg rq 0 24)
    match rq.via with
    | .gate i => .done (s.setInst i fun x => { x with mask := m })
    | via => .done (s.modChan (viaChan via) fun c => { c with mask := m })

/-- SYS_CMD_RESULT (R67, R68): the completion's result and payload, its handle freed; RETRY_LATER while the command runs. A handle of
the command gate belongs to its instance. -/
def execSysCmdResult (rq : Req) (s : State) : Out :=
  command Cmd.sysCmdResult 2 rq s fun _ s =>
    let h := arg rq 0 2
    let c := viaChan rq.via
    match (s.chan c).jobs.find? fun j => j.handle == h && (c != .gate || j.via == rq.via) with
    | none => .fail s .badHandle
    | some j =>
      match j.result with
      | none => .fail s .retryLater
      | some (rc, data) =>
        let t := s.modChan c fun x => { x with jobs := x.jobs.filter fun k => k.handle != h }
        { st := t, rc := Rc.of rc, data := data, failSt := some t, noJob := true }

/-! ### Credentials (R58, R59) -/

/-- The 38 bytes that the signature of `sys.cred.open` covers. -/
def credMessage (c : Chan) (level kid : Nat) (nonce : List Byte) : List Byte :=
  leBytes 1 (chanNum c) ++ leBytes 1 level ++ leBytes 4 kid ++ nonce

/-- A nonce of the channel, and at the command gate of the instance, not more than 1 s old (R58). -/
def State.nonceOk (s : State) (via : Via) (bytes : List Byte) : Bool :=
  (s.chan (viaChan via)).nonces.any fun n =>
    n.bytes == bytes && (viaChan via != .gate || n.owner == viaOwner via) && tickDiff s.time.tick n.tick ≤ 32000

/-- SYS_CRED_CHALLENGE (R58). -/
def execSysCredChallenge (rq : Req) (s : State) : Out :=
  command Cmd.sysCredChallenge 0 rq s fun _ s =>
    let (r, t) := s.entropy 32
    let t := t.spore 7 0 r
    { st := t.modChan (viaChan rq.via) fun c => { c with nonces := c.nonces ++ [⟨r, viaOwner rq.via, s.time.tick⟩] }, rc := .ok, data := r }

/-- A credential's signature verifies against a CREDENTIAL key, or a RETURN key for the vendor's (R58, Table 19.3). -/
def State.credSigned (s : State) (c : Chan) (level kid : Nat) (nonce sig : List Byte) : Bool :=
  (keyClass kid == 5 || keyClass kid == 2) && s.ecdsaBy kid (keyClass kid) (sha384 (credMessage c level kid nonce)) sig

/-- SYS_CRED_OPEN (R58): a level that the life cycle forbids on the channel LOCKED, a nonce or signature that fails AUTH_FAIL, a fifth
handle BUSY; the nonce is used up in every case. A P3 handle on LOCAL sets the window arm (R80). -/
def execSysCredOpen (rq : Req) (s : State) : Out :=
  command Cmd.sysCredOpen 136 rq s fun _ s =>
    let c := viaChan rq.via
    let level := arg rq 0 1
    let kid := arg rq 4 4
    let nonce := slice 8 32 rq.payload
    let used := s.useNonce rq.via nonce
    let failEv := used.raise 7 (chanNum c % 4 + 65536 * (kid % 65536))
    if 3 < level then { st := s, rc := .badState, failSt := some used }
    else if s.ceiling c < level then { st := s, rc := .locked, failSt := some failEv }
    else if !(s.nonceOk rq.via nonce) || !(s.credSigned c level kid nonce (slice 40 96 rq.payload)) then
      { st := s, rc := .authFail, failSt := some (failEv.cryptoSpore false kid []) }
    else if 4 ≤ (s.chan c).creds.length then { st := s, rc := .busy, failSt := some used }
    else
      let h := (s.chan c).nextCred
      let t := (used.cryptoSpore true kid []).modChan c fun x => { x with
        creds := x.creds ++ [⟨h, level, viaOwner rq.via, s.time.tick⟩], nextCred := if 0xFFFFFFFF ≤ h then 1 else h + 1 }
      let t : State := if c == .loc && level == 3 then { t with mbx := { t.mbx with arm := true } } else t
      { st := t, rc := .ok, data := leBytes 4 h }

/-- SYS_CRED_CLOSE (R59). -/
def execSysCredClose (rq : Req) (s : State) : Out :=
  command Cmd.sysCredClose 4 rq s fun _ s =>
    let h := arg rq 0 4
    let c := viaChan rq.via
    if (s.chan c).creds.any fun k => k.handle == h && (c != .gate || k.owner == viaOwner rq.via) then .done (s.credClosed c h)
    else .fail s .badHandle

/-! ### Topology and time (Tables 22.3, 22.4) -/

def portRoleCode : PortRole → Nat
  | .up => 0
  | .down => 1
  | .none => 2
  | .ended => 3
  | .held => 2

/-- PARTNER: nothing attached, Triolwick, not Triolwick, discovery not complete (R426). -/
def State.partner (s : State) (k : Nat) : Nat :=
  let c := s.chn k
  if !c.attached then 0 else if c.discStep < 6 then 3 else if c.svids.contains 0x1E9B then 1 else 2

/-- SYS_TOPO_SHOW (R555). -/
def execSysTopoShow (rq : Req) (s : State) : Out :=
  command Cmd.sysTopoShow 0 rq s fun _ s =>
    let port := fun (p : Nat) =>
      let c := s.chn p
      leBytes 1 (s.link p).state ++ leBytes 1 (portRoleCode (s.role p)) ++ leBytes 1 (c.position % 8 + 128 * b2n c.quiet)
        ++ leBytes 1 (if c.quiet then 0 else c.mode) ++ leBytes 1 (s.partner p)
        ++ leBytes 1 (b2n (nth s.topo.heldT p false) + 2 * b2n (s.link p).gen1)
        ++ leBytes 1 (s.applied (if p == 0 then Fld.FALLBACK_DPX_CP0 else Fld.FALLBACK_DPX_CP1)) ++ zeros 1
    .show s (leBytes 1 s.topo.role.code ++ leBytes 1 s.nextRole ++ leBytes 1 s.topo.depth
      ++ leBytes 1 (s.applied Fld.MAX_HOPS) ++ port 0 ++ port 1 ++ s.topo.ends.flatMap (leBytes 1) ++ zeros 1)

def alignCode : Align → Nat
  | .locked => 0
  | .drift => 1
  | .lost => 2
  | .notUp => 3

/-- SYS_TIME_SHOW (R556). -/
def execSysTimeShow (rq : Req) (s : State) : Out :=
  command Cmd.sysTimeShow 0 rq s fun _ s =>
    let port := fun (p : Nat) =>
      let a := s.alignOf p
      leBytes 1 (alignCode a.align) ++ leBytes 1 (min 255 a.relock) ++ zeros 2 ++ leInt 4 (if a.align == .notUp then 0 else a.offset)
    .show s (leBytes 6 s.time.tick.toNat ++ leBytes 1 s.time.slot ++ leBytes 1 s.time.reference ++ leBytes 1 s.time.holdover ++ zeros 1
      ++ leBytes 2 (if s.time.holdover == 0 then 0 else s.time.hoTicks) ++ port 0 ++ port 1 ++ leInt 4 s.time.steer
      ++ leBytes 4 s.time.refLosses)

/-! ### Faults and resets (Tables 21.4, 21.9) -/

/-- Units out, as a bit field: lost service cores, Woeri, the PHY sequencers, the power sequencer, LPDDR. -/
def State.unitsOut (s : State) : Nat :=
  packBits ((upTo 8).map fun k => (s.core k).state == 4) + 256 * b2n (!s.svc.on) + 512 * b2n (s.phyOut 0) + 1024 * b2n (s.phyOut 1)
    + 2048 * b2n s.romNow + 4096 * b2n (s.mem.lpddr == .failed)

/-- SYS_FAULT_SHOW (R544, R551). -/
def execSysFaultShow (rq : Req) (s : State) : Out :=
  command Cmd.sysFaultShow 0 rq s fun _ s => .show s (faultRecord s.fault ++ leBytes 2 s.unitsOut ++ zeros 2)

/-- SYS_FAULT_CLEAR (R551): LOG, COUNTS and FLOOR. -/
def execSysFaultClear (rq : Req) (s : State) : Out :=
  command Cmd.sysFaultClear 0 rq s fun _ s =>
    .done { s with fault := { s.fault with log := [], counts := List.replicate 64 0, floor := 0 } }

/-- SYS_RESET (R551): the reset follows 1 ms after the reply (DEFERRED_RESET); a system reset already due stands (R537). -/
def execSysReset (rq : Req) (s : State) : Out :=
  command Cmd.sysReset 1 rq s fun _ s =>
    let kind := arg rq 0 1
    if kind != 1 && kind != 2 then .fail s .badState
    else if (s.fault.deferred.any fun d => d.1 == 1) then .done s
    else .done (s.deferReset kind 0x32 (msTicks 1))

end Sys2Proof.Machine
end

