-- ==== Sys2Proof/Machine/Time.lean ====
section
/-! DEFINITION. The commands of the timebase and of the slots of a tick (spec/02, spec/08). In RETAIN and HIBERNATE the timebase
clock stands (R30), and none of the slots' commands acts. -/

namespace Sys2Proof.Machine

/-- What a slot of the tick does, while the timebase runs. -/
def slotRun (s : State) (slot : Nat) (f : State → State) : Out :=
  run s fun s => f (s.toSlot slot)

/-- The grade's maximum junction temperature in 0.01 °C (R1). -/
def State.maxJunction (s : State) : Int := if s.grade then 10500 else 9500

/-- The consecutive ticks in which a sensor has read above the maximum + 10 °C, and in which every one has read below the maximum − 5 °C
(R540, R543). -/
def State.thermWatch (s : State) (readings : List Int) : State :=
  let hot := readings.any fun r => s.maxJunction + 1000 < r
  let cool := readings.all fun r => r < s.maxJunction - 500
  { s with fault := { s.fault with
    hotFor := if hot then s.fault.hotFor + 1 else 0, coolFor := if cool then s.fault.coolFor + 1 else 0 } }

/-- TICK_BOUNDARY (R205, R206, R37, R439, R462, R473): slot 0. `readings` are TS0 to TS7 in 0.01 °C, `pOut` the mean power
delivered in the tick that ended, `margin` the smallest margin of the path monitors and `steps` the microseconds until it was
restored, `lanes` what the receivers counted. In thermal shutdown the tick is only counted. -/
def execTickBoundary (readings : List Int) (pOut margin steps : Nat) (lanes : List (List Nat)) (s : State) : Out :=
  runIf (s.powered && !s.clockStands) s fun s =>
    let s := s.thermWatch readings
    if s.fault.thermal then { s with time := { s.time with tick := s.time.tick + 1, slot := 0 } }
    else s.boundary readings pOut margin steps lanes

/-- DEMAND_FREEZE (R169, Table 2.2): slot 31. -/
def execDemandFreeze (s : State) : Out := slotRun s 31 fun s => ((s.freeze).sendDemand 0).sendDemand 1

/-- LANE_PLAN_START (R209): slot 40. -/
def execLanePlanStart (s : State) : Out := slotRun s 40 fun s => s.buildLanes

/-- LOCAL_PLAN_START (R215, R234): slot 120; a requested chip state is entered with this plan, and Woeri acts on REDUCED (R394). -/
def execLocalPlanStart (s : State) : Out :=
  slotRun s 120 fun s =>
    let want := if s.pwr.phase == 0 && s.pwr.next.any (· ≤ 2) then s.pwr.next else none
    let s : State := { s with pwr := { s.pwr with planned := want } }
    let s := match want with
      | some 1 => s.woeriReduced
      | some _ => s.woeriActive
      | none => s
    { s with plan := { s.plan with shadow := some (s.buildLocal (s.time.tick.toNat + 1)), due := false } }

/-- TICK_CELL_SEND (R32, R167): slot 200. -/
def execTickCellSend (s : State) : Out := slotRun s 200 fun s => (s.sendTick 0).sendTick 1

/-- TICK_CELL_DEADLINE (R34): slot 240. -/
def execTickCellDeadline (s : State) : Out := slotRun s 240 fun s => (s.tickDeadline 0).tickDeadline 1

/-- LOCAL_PLAN_DEADLINE (R33): slot 249; without a plan in the shadow buffer the next tick runs this tick's, with EV012. -/
def execLocalPlanDeadline (s : State) : Out := slotRun s 249 fun s => s.raiseIf s.plan.shadow.isNone 12 0

/-- TIME_SYNC_TIMEOUT (R37, R38): no time-sync cell for SYNC_TIMEOUT_TICKS; an UP port is LOST. -/
def execTimeSyncTimeout (port : Nat) (s : State) : Out :=
  run s fun s =>
    let al := (s.alignOf port).align
    if 1 < port || al == .notUp || al == .lost || (s.alignOf port).sinceSync < s.cv Fld.SYNC_TIMEOUT_TICKS then s
    else (s.setAlign port fun a => { a with align := .lost, relock := 0, stepDue := true }).raise 13 0

/-- TIMEBASE_PHASE_STEP (R37, R39, R43): a LOST UP port takes its master's count and phase at its own tick boundary, once a SYNC has
brought them; the DOWN port's peer is as good as LOST until it reports. -/
def execTimebasePhaseStep (s : State) : Out :=
  run s fun s =>
    match [0, 1].find? fun p => (s.alignOf p).stepDue && s.time.slot == 0 && s.time.masterKnown with
    | none => s
    | some p =>
      let s := s.setAlign p fun a => { a with stepDue := false, relock := 0, meas := none }
      let d : Int := ((s.time.masterTick - s.time.tick).toInt) * 2000000
      let s : State := { s with time := { s.time with tick := s.time.masterTick } }.dispStep d
      [0, 1].foldl (fun s q =>
        if s.role q == .down then
          s.setLink q fun l => { l with demand := l.demand.map fun (d : Demand) => { d with align := 2 } }
        else s) s

/-- REFCLK_LOSS_DETECT (R40, R41): holdover, and EV014. -/
def execRefclkLossDetect (s : State) : Out :=
  run s fun s =>
    if s.time.holdover != 0 then s
    else
      ({ s with time := { s.time with
        holdover := 1, hoTicks := 0, refLosses := satAdd 32 s.time.refLosses 1 } } : State).raise 14 0

/-- A port at holdover expiry (R41): its link closes; a port that had ended bring-up at rate T goes idle too. Either starts anew when
holdover ends (for the port that had ended, DESIGN CHOICE, log entry 64). -/
def State.holdoverCloses (s : State) (p : Nat) : State :=
  if (s.link p).state != 0 || (s.cpx p).step != 0 then (s.closeLink p 6).setCpx p fun c => { c with heldOff := true }
  else if s.bringupOver p then ((s.lanesOff p).roleEnds p).setCpx p fun c => { c with heldOff := true }
  else s

/-- HOLDOVER_EXPIRY (R41): REFCLK has not returned within HOLDOVER_TICKS; every lane goes to electrical idle and the Latre links close;
STATE stays. -/
def execHoldoverExpiry (s : State) : Out :=
  run s fun s =>
    if s.time.holdover != 1 || s.time.hoTicks < s.cv Fld.HOLDOVER_TICKS then s
    else ({ s with time := { s.time with holdover := 2 } } : State).holdoverCloses 0 |>.holdoverCloses 1

/-- REFCLK_RESTORED (R42): holdover ends; the ports that it stopped start bring-up at step 1. -/
def execRefclkRestored (s : State) : Out :=
  run s fun s =>
    if s.time.holdover == 0 then s
    else
      let held := [0, 1].filter fun p => (s.cpx p).heldOff
      let s : State := { s with time := { s.time with holdover := 0, hoTicks := 0 } }
      held.foldl (fun s p => s.startTraining p) s

end Sys2Proof.Machine
end

