-- ==== Sys2Proof/Machine/Trust.lean ====
section
/-! DEFINITION. Trust rows (spec/19): life cycle, key slots, the anti-rollback count and the access control units. -/

namespace Sys2Proof.Machine

/-! ### Key slots -/

def execTrustShow (rq : Req) (s : State) : Out :=
  command Cmd.trustShow 0 rq s fun _ s =>
    .show s (leBytes 1 s.lifecycle ++ leBytes 1 s.rollbackCount ++ zeros 2
      ++ ((upTo 32).flatMap fun k => leBytes 1 (s.slotState k + 8 * (s.slot k).cls)) ++ s.deviceId ++ zeros 4)

/-- The tag of the key in a slot: of the derived pair for a secret class, of the manifest entry that hashes to the content for a public
one; none where there is no such key. -/
def State.slotTag (s : State) (k : Nat) : Option Nat :=
  if s.slotState k != 1 then none
  else
    let x := s.slot k
    if x.cls == 3 then some (tagOf (derivePublic x.bytes (labelBytes "DEVICE")))
    else if x.cls == 6 then some (tagOf (derivePublic x.bytes (labelBytes "LINK")))
    else
      let entry := fitBytes 2049 (nth s.upd.flash.keyman k [])
      if (sha384 entry).take 32 == x.bytes then some (tagOf (entry.take 97)) else none

/-- trust.key.show: where a slot names no key, the tag is a value that the spec does not state (a free value, log entry 3). -/
def execTrustKeyShow (rq : Req) (s : State) : Out :=
  command Cmd.trustKeyShow 1 rq s fun _ s =>
    let k := arg rq 0 1
    if 31 < k then .fail s .badState
    else
      let x := s.slot k
      let (v, t) := s.draw
      let (tag, s) := match s.slotTag k with
        | some t => (t, s)
        | none => (v, t)
      .show s (leBytes 1 (s.slotState k) ++ leBytes 1 x.cls ++ leBytes 2 tag ++ (if secretClass x.cls then zeros 32 else x.bytes))

/-- The classes that a slot takes by command (R483). -/
def classFits (slot cls : Nat) : Bool :=
  if slot == 0 then cls == 0
  else if slot == 1 then cls == 1
  else if slot == 2 then cls == 2
  else if slot == 3 then false
  else if slot < 8 then cls == 0
  else [4, 5, 6, 1, 7, 0].contains cls

/-- Slots that the life-cycle state lets be written (Table 19.1). -/
def slotWritable (lc slot : Nat) : Bool :=
  match lc with
  | 0 => slot < 8
  | 1 => true
  | 2 => 8 ≤ slot
  | _ => false

/-- trust.key.install (R485): the content fuses are blown; the integrity word follows when the command finishes. -/
def execTrustKeyInstall (rq : Req) (s : State) : Out :=
  command Cmd.trustKeyInstall 36 rq s fun _ s =>
    let k := arg rq 0 1
    let cls := arg rq 1 1
    let v := leNat (slice 4 32 rq.payload)
    if 31 < k || s.slotState k != 0 || !classFits k cls || v == 0 || v == 2 ^ 256 - 1 || (cls == 6 && viaChan rq.via != .loc) then
      .fail s .badState
    else if !slotWritable s.lifecycle k then .fail s .locked
    else if s.trust.work.isSome then .fail s .busy
    else
      let s := s.setSlot k ⟨BitVec.ofNat 256 v, 0⟩
      .long { s with trust := { s.trust with work := some (.install k cls) } } none

/-- The slots whose VALID BOOT key verifies an image that runs. -/
def State.bootSlotsUsed (s : State) : List Nat :=
  (s.runningImages.flatMap fun b => [keySlot (leAt 320 4 b), keySlot (leAt 324 4 b)]).filter fun k => s.slotIs k 0

/-- trust.key.revoke (R486): the integrity word is destroyed, and the content when the command finishes. -/
def execTrustKeyRevoke (rq : Req) (s : State) : Out :=
  command Cmd.trustKeyRevoke 1 rq s fun _ s =>
    let k := arg rq 0 1
    let used := s.bootSlotsUsed
    if 31 < k || (used.contains k && used.all (· == k)) then .fail s .badState
    else if k < 8 && !(s.lifecycle == 1 || s.lifecycle == 4) then .fail s .locked
    else if s.trust.work.isSome then .fail s .busy
    else
      let t := if s.trust.dead.getLsbD k then s else s.setSlot k { s.slot k with word := BitVec.allOnes 32 }
      .long { t with trust := { t.trust with work := some (.destroy k (s.slot k).cls) } } none

/-! ### Life cycle and anti-rollback -/

/-- Who signs a transition. -/
inductive Signer where
  | rom | return2 | owner
  deriving DecidableEq, Repr

/-- The rows of Table 19.2: the signers of a transition, none where no row names it. -/
def signersOf (cur target : Nat) : Option (List Signer) :=
  match cur, target with
  | 0, 1 => some [.rom]
  | 1, 2 => some [.return2]
  | 2, 3 => some [.owner]
  | 2, 4 => some [.return2, .owner]
  | 3, 4 => some [.return2, .owner]
  | 1, 5 => some [.return2]
  | 4, 5 => some [.return2]
  | 2, 5 => some [.owner]
  | 3, 5 => some [.owner]
  | _, _ => none

/-- The condition of a row. -/
def State.lcCondition (s : State) (cur target : Nat) : Bool :=
  if cur == 1 && target == 2 then s.slotIs 2 2
  else if cur == 2 && target == 3 then ((upTo 32).any fun k => s.slotIs k 4) && (upTo 32).any fun k => s.slotIs k 6
  else true

/-- A KEYID is of the kind that a signer uses, and its signature verifies. -/
def State.signedBy (s : State) (who : Signer) (kid : Nat) (digest sig : List Byte) : Bool :=
  match who with
  | .rom => keySlot kid == 0xFF && (s.ecdsaBy kid 0 digest sig || s.ecdsaBy kid 5 digest sig)
  | .return2 => keySlot kid == 2 && s.ecdsaBy kid 2 digest sig
  | .owner => 8 ≤ keySlot kid && keySlot kid < 32 && s.ecdsaBy kid 5 digest sig

/-- trust.lifecycle.advance (R481, R482): the positions are blown one by one, so a reset before the command finishes leaves the old
state, the target or one between (a free value); what follows is done as it finishes. The nonce is used up in every case. -/
def execTrustLifecycleAdvance (rq : Req) (s : State) : Out :=
  command Cmd.trustLifecycleAdvance 236 rq s fun _ s =>
    let cur := s.lifecycle
    let target := arg rq 0 1
    let nonce := slice 4 32 rq.payload
    let used := s.useNonce rq.via nonce
    match signersOf cur target with
    | none => { st := s, rc := .locked, failSt := some used }
    | some who =>
      let msg := labelBytes "XJT-LC" ++ s.deviceId ++ leBytes 1 cur ++ leBytes 1 target ++ nonce
      let digest := sha384 msg
      let sig := fun (j : Nat) => (arg rq (36 + 100 * j) 4, slice (40 + 100 * j) 96 rq.payload)
      let signed := who.zipIdx.all fun w => s.signedBy w.1 (sig w.2).1 digest (sig w.2).2
      if !s.lcCondition cur target then { st := s, rc := .badState, failSt := some used }
      else if !s.nonceOk rq.via nonce || !signed then { st := s, rc := .authFail, failSt := some (used.cryptoSpore false target []) }
      else if s.trust.work.isSome then { st := s, rc := .busy, failSt := some used }
      else
        let (v, t) := (used.cryptoSpore true target []).draw
        let t := t.blowLc (cur + v % (target - cur))
        .long { t with trust := { t.trust with work := some (.lifecycle target) } } none

/-- trust.rollback.advance (R490): a reset before the command finishes leaves a count between the old one and the target. -/
def execTrustRollbackAdvance (rq : Req) (s : State) : Out :=
  command Cmd.trustRollbackAdvance 1 rq s fun _ s =>
    let target := arg rq 0 1
    if s.lowestSvn s.bootable < target then .fail s .badState
    else if s.trust.work.isSome then .fail s .busy
    else
      let n := s.rollbackCount
      let (v, t) := s.draw
      let mid := n + v % max 1 (target - n)
      .long { t with trust := { t.trust with
        rollback := t.trust.rollback ||| BitVec.ofNat 64 (2 ^ mid - 1), work := some (.rollback target) } } none

def execTrustIdShow (rq : Req) (s : State) : Out :=
  command Cmd.trustIdShow 0 rq s fun _ s =>
    .show s (s.deviceId ++ fitBytes 97 (s.devicePub.getD []) ++ zeros 3 ++ leBytes 4 s.linkKeyid)

/-! ### Access control units -/

/-- A region as its 16-byte entry (Table 19.8a). -/
def Region.bytes (r : Region) : List Byte :=
  leBytes 8 (r.base.toNat * 2 ^ 36 + r.limit.toNat * 2 ^ 8)
    ++ leBytes 8 (b2n r.valid * 2 ^ 63 + b2n r.lock * 2 ^ 62 + b2n r.nodebug * 2 ^ 61 + b2n r.read * 2 ^ 60 + b2n r.write * 2 ^ 59
      + b2n r.exec * 2 ^ 58 + r.cache.toNat * 2 ^ 56 + b2n r.relaxed * 2 ^ 55)

/-- A region from its entry; the reserved CACHE value leaves the field as it was. -/
def regionOf (old : Region) (b : List Byte) : Region :=
  let lo := leAt 0 8 b
  let hi := leAt 8 8 b
  let cache := fieldAt hi 56 2
  ⟨BitVec.ofNat 28 (fieldAt lo 36 28), BitVec.ofNat 28 (fieldAt lo 8 28), bitAt hi 63, bitAt hi 62, bitAt hi 61, bitAt hi 60, bitAt hi 59,
    bitAt hi 58, if cache == 3 then old.cache else BitVec.ofNat 2 cache, bitAt hi 55⟩

def execTrustAcuShow (rq : Req) (s : State) : Out :=
  command Cmd.trustAcuShow 1 rq s fun _ s =>
    let m := arg rq 0 1
    if 15 < m then .fail s .badState
    else
      let u := s.acu m
      .show s (leBytes 1 (b2n u.epoch) ++ leBytes 1 (b2n (s.nomatchAllow m)) ++ zeros 2 ++ leBytes 4 u.denials
        ++ u.regions.flatMap Region.bytes)

/-- The five steps of R501: the shadow, the lines of the master's cache and of those coherent with it in the old or new range, the swap
with the epoch; every access decided before it has completed, one command being one step. -/
def State.swapRegion (s : State) (m j : Nat) (r : Region) : State :=
  let old := nth (s.acu m).regions j .init
  let u := s.acu m
  let s := s.setAcu m { u with shadow := put u.regions j r }
  let inRange := fun (l : Nat) => old.covers (64 * l) || ({ r with valid := true } : Region).covers (64 * l)
  let ms := if m == 0 then [0] else if m ≤ 9 then [1, 2, 3, 4, 5, 6, 7, 8] else []
  let s := ms.foldl (fun (s : State) k => s.cleanLines k inRange true) s
  let u := s.acu m
  s.setAcu m { u with regions := u.shadow, epoch := !u.epoch }

/-- trust.acu.set (R501, R502). -/
def execTrustAcuSet (rq : Req) (s : State) : Out :=
  command Cmd.trustAcuSet 24 rq s fun _ s =>
    let m := arg rq 0 1
    let j := arg rq 1 1
    if 15 < m || 15 < j then .fail s .badState
    else
      let old := nth (s.acu m).regions j .init
      let r := regionOf old (slice 8 16 rq.payload)
      let t := s.swapRegion m j r
      if old.lock || (m == 14 && r.valid && !openLc s.lifecycle) || !(t.acuCheck 0 1 Config.acuRegisters false).allow then .fail s .locked
      else .done (t.raise 180 (m + 16 * j + 256 * b2n r.lock))

/-- A denial as an entry of the log (Table 19.8b). -/
def AcuLog.bytes (e : AcuLog) : List Byte :=
  leBytes 8 e.addr ++ leBytes 4 e.tick.toNat ++ leBytes 1 e.slot ++ leBytes 1 e.kind ++ leBytes 1 e.region ++ zeros 1

def execTrustAcuLogShow (rq : Req) (s : State) : Out :=
  command Cmd.trustAcuLogShow 1 rq s fun _ s =>
    let m := arg rq 0 1
    if 15 < m then .fail s .badState
    else .show s (leBytes 1 (s.acu m).log.length ++ zeros 3 ++ (s.acu m).log.flatMap AcuLog.bytes)

end Sys2Proof.Machine
end

