-- ==== Sys2Proof/Machine/Upd.lean ====
section
/-! DEFINITION. Live update rows (spec/20, R510 to R524). -/

namespace Sys2Proof.Machine

/-! ### Staging and verifying -/

/-- upd.show (Table 20.13). The verdict of a copy not verified and the GEN without a directory are values that the spec does not state (free
values, log entry 3). -/
def execUpdShow (rq : Req) (s : State) : Out :=
  command Cmd.updShow 0 rq s fun _ s =>
    let (v, s) := s.draw
    let row := fun (i : Nat) =>
      let e := engineOf i
      let c := nth s.upd.running i 0
      let img := s.runningImage i
      leBytes 1 c ++ leBytes 1 (s.activeCopy i) ++ leBytes 1 (s.bootable i).toNat
        ++ leBytes 1 ((nth s.upd.verdicts (copyIdx e (1 - c)) none).getD v) ++ leBytes 4 (imgVersion img) ++ leBytes 1 (imgSvn img) ++ zeros 7
    let gen := match s.upd.flash.dir? with
      | some (_, d) => d.gen
      | none => v
    .show s ((upTo 5).flatMap row ++ leBytes 4 gen ++ leBytes 1 (min 255 s.upd.pairs) ++ leBytes 2 (imgEpoch 5 (s.runningImage 0)))

/-- Sizes of the image regions (Table 20.1). -/
def regionBytes (engine : Nat) : Nat := nth [524288, 8388608, 262144, 262144] engine 0

/-- A copy that must not be written: some instance runs it, or the governing directory lists it as ACTIVE (R515). -/
def State.copyBusy (s : State) (engine copy : Nat) : Bool :=
  s.runsCopy engine copy || (instsOf engine).any fun i => s.activeCopy i == copy

/-- upd.stage (R515). -/
def execUpdStage (rq : Req) (s : State) : Out :=
  command Cmd.updStage 8 rq s fun _ s =>
    let e := arg rq 0 1
    let c := arg rq 1 1
    let off := arg rq 4 4
    let data := rq.payload.drop 8
    let old := s.image e c
    if 3 < e || 1 < c || s.copyBusy e c then .fail s .badState
    else if (off != 0 && off != old.length) || regionBytes e < off + data.length || 1012 < data.length then .fail s .badLength
    else
      let s := s.setVerdict e c none
      let bytes := if off == 0 then data else old ++ data
      let s := s.setFlash fun f => { f with images := put f.images (copyIdx e c) bytes }
      if rq.via == .usb && data.isEmpty then
        .done (({ s with upd := { s.upd with stageIn := some (e, c) } } : State).usbReady [2])
      else .done { s with upd := { s.upd with stageIn := none } }

/-- upd.verify (R516): the checks end with the command. -/
def execUpdVerify (rq : Req) (s : State) : Out :=
  command Cmd.updVerify 2 rq s fun h s =>
    let e := arg rq 0 1
    let c := arg rq 1 1
    if 3 < e || 1 < c then .fail s .badState
    else if s.upd.verify.isSome then .fail s .busy
    else .long { s with upd := { s.upd with verify := some (rq.via, h, e, c) } } none

/-! ### Activation (R517 to R522) -/

/-- An activation would run an incompatible set, or an untested pair that the policy refuses (R513, R514). -/
def State.conflicts (s : State) (inst copy : Nat) : Bool :=
  !s.epochsOk (engineOf inst) [inst] copy
    || (s.cv Fld.UPD_UNTESTED_POLICY == 1 && untestedPairs (s.imagesWith [inst] copy) != 0)

/-- An activation accepted, or completed with VERSION_CONFLICT. -/
def State.beginActivation (s : State) (inst copy : Nat) (revert : Bool) (via : Via) (h : Nat) : Ans :=
  if nth s.upd.verdicts (copyIdx (engineOf inst) copy) none != some 0 then .fail s .badState
  else if s.upd.act.isSome then .fail s .busy
  else if s.conflicts inst copy then .long s (some (Rc.versionConflict.code, []))
  else .long { s with upd := { s.upd with act := some ⟨inst, copy, revert, via, h, 0, 8, s.time.tick⟩ } } none

/-- upd.activate (R517). -/
def execUpdActivate (rq : Req) (s : State) : Out :=
  command Cmd.updActivate 2 rq s fun h s =>
    let i := arg rq 0 1
    let c := arg rq 1 1
    if 4 < i || 1 < c then .fail s .badState else s.beginActivation i c false rq.via h

/-- upd.revert (R522). -/
def execUpdRevert (rq : Req) (s : State) : Out :=
  command Cmd.updRevert 1 rq s fun h s =>
    let i := arg rq 0 1
    if 4 < i then .fail s .badState else s.beginActivation i (s.activeCopy i) true rq.via h

/-- An activation ends well: the instance runs the copy; EV183, EV184 for a revert, UNTESTED anew, the handle completed. -/
def State.activated (s : State) (a : Activation) : State :=
  let s : State := { s with upd := { s.upd with
    running := put s.upd.running a.inst a.copy, stopped := put s.upd.stopped a.inst false, act := none, cleanSince := s.time.tick
    woeriHalf := if a.inst == 1 then 1 - s.upd.woeriHalf else s.upd.woeriHalf
    pwrHalf := if a.inst == 4 then 1 - s.upd.pwrHalf else s.upd.pwrHalf } }
  let s := (s.raise 183 (a.inst + 8 * a.copy)).raiseIf a.revert 184 a.inst
  (s.noteTested.spore 12 0xFD []).finishRc a.via a.handle .ok

/-- An activation ends without effect. -/
def State.notActivated (s : State) (a : Activation) (rc : Rc) : State :=
  ({ s with upd := { s.upd with act := none } } : State).finishRc a.via a.handle rc

/-- Phases H2 to H4 of the handover: the planner refreshed, the old firmware halted, requests that wait answered (R518). -/
def State.mgtHandOver (s : State) (a : Activation) : State :=
  let s := s.retryWaiting
  { s with
    boot := { s.boot with stage := 3, sinceWdt := 0 }
    plan := { s.plan with silent := 0, autonomy := 0 }
    upd := { s.upd with act := some { a with phase := 1, since := s.time.tick } } }

/-- The instances that an old Woeri core hands on: restarted from their packages on a core that runs a version they cannot migrate to, or
with WOERI_COLD, and migrated otherwise (R520). -/
def State.drainOld (s : State) (k : Nat) (cold : Bool) : State :=
  let s := s.setCore k fun c => { c with state := if c.state == 1 then 2 else c.state, job := none }
  let mine := moveOrder (s.svc.insts.filter fun x => x.state == 1 && x.core == k)
  let s := mine.foldl (fun (s : State) x =>
    match s.place x.cls x.slots x.opp (some k), s.pkg x.id with
    | some j, some p =>
      if cold && k < j then (s.haltInst x.id).beginInst x.id j x.cls p else s.move x.id k j false
    | some j, none => s.move x.id k j false
    | none, _ => s.suspendInst x.id noHome) s
  s.drainDone k

/-- Woeri's cores in turn, from core 7 down: the core drained last restarts in the new half and is admitted, the next enabled one drains;
after the last the activation is complete (R520). -/
def State.nextWoeriCore (s : State) (a : Activation) : State :=
  let old := s.runningImage 1
  let new := s.image 1 a.copy
  let cold := s.cv Fld.WOERI_COLD == 1 || !takesPart 3 old || !takesPart 3 new || !Sys2Proof.Machine.epochOk 3 old new
  let s := if a.core < 8 then s.admitCore a.core else s
  match ((upTo a.core).filter fun k => (s.core k).state == 1).getLast? with
  | some k =>
    (({ s with upd := { s.upd with act := some { a with phase := if a.core < 8 then 2 else 1, core := k } } } : State).noteTested).drainOld k cold
  | none => s.activated a

/-- An instance is quiet (Table 20.6); for WOERI the core that drains now has finished (R395). -/
def State.instQuiet (s : State) (a : Activation) : Bool :=
  match a.inst with
  | 0 => s.mbx.waiting.isEmpty
  | 1 => a.core == 8 || (s.core a.core).state != 2
  | 4 => s.cc.all fun (c : CcSt) => c.swap.isNone && c.waiting == .none && c.sent.isNone && !c.recovering && c.state != 6
  | i =>
    let c := s.cpx (i - 2)
    c.step == 0 && c.lanes.all fun (l : LaneSt) => !(l.state == .train || l.state == .cal || l.state == .test || l.state == .l1x)

/-- ACTIVATION_QUIET (R517 to R521): the instance is quiet, and the activation proceeds as its engine gives. -/
def execActivationQuiet (s : State) : Out :=
  run s fun s =>
    match s.upd.act with
    | none => s
    | some a =>
      if !s.instQuiet a || (a.phase != 0 && a.inst != 1) then s
      else if a.phase == 0 && nth s.upd.verdicts (copyIdx (engineOf a.inst) a.copy) none != some 0 then s.notActivated a .hwFault
      else if a.phase == 0 && s.conflicts a.inst a.copy then s.notActivated a .versionConflict
      else match a.inst with
        | 0 => s.mgtHandOver a
        | 1 => s.nextWoeriCore a
        | 4 =>
          (({ s with fault := { s.fault with romMode := false } } : State).activated a).leaveRom
        | i => ({ s with fault := { s.fault with phyStopped := put s.fault.phyStopped (i - 2) false } } : State).activated a

/-- ACTIVATION_WAIT_EXPIRY (R517): not quiet within UPD_WAIT_MS of the command, or of the last restart of the wait (R521). -/
def execActivationWaitExpiry (s : State) : Out :=
  run s fun s =>
    match s.upd.act with
    | some a => if a.phase == 0 && s.passed a.since (msTicks (s.cv Fld.UPD_WAIT_MS)) then s.notActivated a .busy else s
    | none => s

/-- A handover fails (R519): the core is reset into the old half, which resumes from the record. -/
def State.handoverFails (s : State) (a : Activation) : State :=
  let (v, s) := s.draw
  let s := (s.noteReset 2 (v % 256)).recTrigger 0
  let s : State := { s with
    boot := { s.boot with stage := 2, sinceWdt := 0 }
    plan := { s.plan with silent := 0, autonomy := 0 }
    fault := { s.fault with planHold := false }
    upd := { s.upd with cleanSince := s.time.tick } }
  (s.raise 187 (min 255 (tickDiff s.time.tick a.since))).notActivated a .hwFault

/-- The activation of MGT that is in its handover. -/
def State.handover? (s : State) : Option Activation :=
  match s.upd.act with
  | some a => if a.inst == 0 && a.phase == 1 && s.boot.stage == 3 then some a else none
  | none => none

/-- MGT_HANDOVER_READY (R518, R519): the new firmware adopts the record and posts READY, unless the record's epoch is below the lowest it
accepts, or the limit has passed. -/
def execMgtHandoverReady (s : State) : Out :=
  run s fun s =>
    match s.handover? with
    | none => s
    | some a =>
      if imgEpoch 3 (s.runningImage 0) < imgMinEpoch 3 (s.image 0 a.copy) || s.cv Fld.HANDOVER_LIMIT_TICKS < tickDiff s.time.tick a.since then
        s.handoverFails a
      else
        let s : State := { s with
          boot := { s.boot with stage := 2, sinceWdt := 0 }
          plan := { s.plan with silent := 0, autonomy := 0 }
          fault := { s.fault with planHold := false }
          upd := { s.upd with mgtHalf := 1 - s.upd.mgtHalf }
          rcd := { s.rcd with snapDue := true } }
        s.activated a

/-- HANDOVER_TIMEOUT (R519): HANDOVER_LIMIT_TICKS have passed since H3. -/
def execHandoverTimeout (s : State) : Out :=
  run s fun s =>
    match s.handover? with
    | some a => if s.passed a.since (s.cv Fld.HANDOVER_LIMIT_TICKS) then s.handoverFails a else s
    | none => s

/-! ### Commit and the key manifest -/

/-- upd.commit (R523): phase 1 at once, the others when the command finishes. -/
def execUpdCommit (rq : Req) (s : State) : Out :=
  command Cmd.updCommit 1 rq s fun h s =>
    if s.upd.act.isSome || s.upd.commit.isSome then .fail s .busy
    else
      let (copy, d) := s.newDir (bitAt (arg rq 0 1) 0)
      let s := s.commitBegin d
      .long { s with upd := { s.upd with commit := some ⟨rq.via, h, d, copy⟩ } } none

/-- upd.keyman.put (R524). -/
def execUpdKeymanPut (rq : Req) (s : State) : Out :=
  command Cmd.updKeymanPut 4 rq s fun _ s =>
    let k := arg rq 0 1
    let off := arg rq 2 2
    let data := rq.payload.drop 4
    if data.isEmpty || 1020 < data.length || 2049 < off + data.length then .fail s .badLength
    else
      let old := fitBytes 2049 (nth s.upd.flash.keyman k [])
      let new := old.take off ++ data ++ old.drop (off + data.length)
      if 31 < k || (s.slotState k == 1 && (sha384 new).take 32 != (s.slot k).bytes) then .fail s .badState
      else .done (s.setFlash fun f => { f with keyman := put f.keyman k new })

/-- AUTOCOMMIT (R522): every instance has run the same copies for UPD_AUTOCOMMIT_S without a fault; there is something to commit. -/
def execAutocommit (s : State) : Out :=
  run s fun s =>
    let secs := s.cv Fld.UPD_AUTOCOMMIT_S
    let differs := (upTo 5).any fun i => !nth s.upd.stopped i false && nth s.upd.running i 0 != s.activeCopy i
    if s.fwRuns && secs != 0 && s.upd.act.isNone && s.upd.commit.isNone && secs * 32000 ≤ tickDiff s.time.tick s.upd.cleanSince && differs then
      let (copy, d) := s.newDir false
      ((s.commitBegin d).commitFinish d copy true).2
    else s

end Sys2Proof.Machine
end

