-- ==== Sys2Proof/Machine/Dispatch.lean ====
section
/-! DEFINITION. One arm per command: a direct call of its meaning. -/

namespace Sys2Proof.Machine

def exec (i : Instr) (s : State) : Host.Outcome State Fault Refusal :=
  match i with
  | .powerOnReset mbxSel i3cAddr => Sys2Proof.Machine.execPowerOnReset mbxSel i3cAddr s
  | .porstFall => Sys2Proof.Machine.execPorstFall s
  | .railDeadlineMiss => Sys2Proof.Machine.execRailDeadlineMiss s
  | .railRestart => Sys2Proof.Machine.execRailRestart s
  | .systemReset => Sys2Proof.Machine.execSystemReset s
  | .mgmtFirmwareReady => Sys2Proof.Machine.execMgmtFirmwareReady s
  | .lpddrTrainingDone ok rate gib mask => Sys2Proof.Machine.execLpddrTrainingDone ok rate gib mask s
  | .managementCoreReset cause => Sys2Proof.Machine.execManagementCoreReset cause s
  | .deferredReset => Sys2Proof.Machine.execDeferredReset s
  | .lockstepFault => Sys2Proof.Machine.execLockstepFault s
  | .mgtWatchdogTimeout => Sys2Proof.Machine.execMgtWatchdogTimeout s
  | .mgtTrap => Sys2Proof.Machine.execMgtTrap s
  | .pwrseqFault => Sys2Proof.Machine.execPwrseqFault s
  | .physeqFault port => Sys2Proof.Machine.execPhyseqFault port s
  | .coreBrownout => Sys2Proof.Machine.execCoreBrownout s
  | .thermalTrip => Sys2Proof.Machine.execThermalTrip s
  | .thermalRecovery => Sys2Proof.Machine.execThermalRecovery s
  | .spiWriteRequestFrame mosi => Sys2Proof.Machine.execSpiWriteRequestFrame mosi s
  | .spiReadReplyFrame => Sys2Proof.Machine.execSpiReadReplyFrame s
  | .spiWindowReadFrame offset count => Sys2Proof.Machine.execSpiWindowReadFrame offset count s
  | .resetCtlSystemReset via => Sys2Proof.Machine.execResetCtlSystemReset via s
  | .resetCtlMgmtCoreReset via => Sys2Proof.Machine.execResetCtlMgmtCoreReset via s
  | .registerWrite map off value => Sys2Proof.Machine.execRegisterWrite map off value s
  | .i3cPrivateWrite bs => Sys2Proof.Machine.execI3cPrivateWrite bs s
  | .i3cPrivateRead => Sys2Proof.Machine.execI3cPrivateRead s
  | .submit => Sys2Proof.Machine.execSubmit s
  | .release => Sys2Proof.Machine.execRelease s
  | .usbMbxBulkOut ep bs => Sys2Proof.Machine.execUsbMbxBulkOut ep bs s
  | .usbMbxBulkIn ep => Sys2Proof.Machine.execUsbMbxBulkIn ep s
  | .usbVendorStatus => Sys2Proof.Machine.execUsbVendorStatus s
  | .usbVendorWindowRead index len => Sys2Proof.Machine.execUsbVendorWindowRead index len s
  | .usbVendorWindowWrite index value => Sys2Proof.Machine.execUsbVendorWindowWrite index value s
  | .jtagDbgMbx frame => Sys2Proof.Machine.execJtagDbgMbx frame s
  | .peerMessage port bs => Sys2Proof.Machine.execPeerMessage port bs s
  | .forwardedReply port bs => Sys2Proof.Machine.execForwardedReply port bs s
  | .forwardTimeout port tag => Sys2Proof.Machine.execForwardTimeout port tag s
  | .mbxReplyBackstop index => Sys2Proof.Machine.execMbxReplyBackstop index s
  | .longCommandFinish via handle ok => Sys2Proof.Machine.execLongCommandFinish via handle ok s
  | .completionHandleLapse chan handle => Sys2Proof.Machine.execCompletionHandleLapse chan handle s
  | .credIdleLapse chan handle => Sys2Proof.Machine.execCredIdleLapse chan handle s
  | .watchdogExpiry => Sys2Proof.Machine.execWatchdogExpiry s
  | .function7Reset usb => Sys2Proof.Machine.execFunction7Reset usb s
  | .adapterEndDeferredApply adapter => Sys2Proof.Machine.execAdapterEndDeferredApply adapter s
  | .sysPing rq => Sys2Proof.Machine.execSysPing rq s
  | .sysEventRead rq => Sys2Proof.Machine.execSysEventRead rq s
  | .sysEventMask rq => Sys2Proof.Machine.execSysEventMask rq s
  | .sysCmdResult rq => Sys2Proof.Machine.execSysCmdResult rq s
  | .sysCredChallenge rq => Sys2Proof.Machine.execSysCredChallenge rq s
  | .sysCredOpen rq => Sys2Proof.Machine.execSysCredOpen rq s
  | .sysCredClose rq => Sys2Proof.Machine.execSysCredClose rq s
  | .sysTopoShow rq => Sys2Proof.Machine.execSysTopoShow rq s
  | .sysTimeShow rq => Sys2Proof.Machine.execSysTimeShow rq s
  | .sysFaultShow rq => Sys2Proof.Machine.execSysFaultShow rq s
  | .sysFaultClear rq => Sys2Proof.Machine.execSysFaultClear rq s
  | .sysReset rq => Sys2Proof.Machine.execSysReset rq s
  | .cfgRecordStage rq => Sys2Proof.Machine.execCfgRecordStage rq s
  | .cfgRecordApply rq => Sys2Proof.Machine.execCfgRecordApply rq s
  | .cfgRecordShow rq => Sys2Proof.Machine.execCfgRecordShow rq s
  | .cfgReportShow rq => Sys2Proof.Machine.execCfgReportShow rq s
  | .cfgOverrideClear rq => Sys2Proof.Machine.execCfgOverrideClear rq s
  | .cfgStoreCommit rq => Sys2Proof.Machine.execCfgStoreCommit rq s
  | .cfgStoreCommitDone ok => Sys2Proof.Machine.execCfgStoreCommitDone ok s
  | .cfgStoreShow rq => Sys2Proof.Machine.execCfgStoreShow rq s
  | .tickBoundary readings pOut margin steps lanes => Sys2Proof.Machine.execTickBoundary readings pOut margin steps lanes s
  | .demandFreeze => Sys2Proof.Machine.execDemandFreeze s
  | .lanePlanStart => Sys2Proof.Machine.execLanePlanStart s
  | .localPlanStart => Sys2Proof.Machine.execLocalPlanStart s
  | .tickCellSend => Sys2Proof.Machine.execTickCellSend s
  | .tickCellDeadline => Sys2Proof.Machine.execTickCellDeadline s
  | .localPlanDeadline => Sys2Proof.Machine.execLocalPlanDeadline s
  | .timeSyncTimeout port => Sys2Proof.Machine.execTimeSyncTimeout port s
  | .timebasePhaseStep => Sys2Proof.Machine.execTimebasePhaseStep s
  | .refclkLossDetect => Sys2Proof.Machine.execRefclkLossDetect s
  | .holdoverExpiry => Sys2Proof.Machine.execHoldoverExpiry s
  | .refclkRestored => Sys2Proof.Machine.execRefclkRestored s
  | .laneTrainingStart port => Sys2Proof.Machine.execLaneTrainingStart port s
  | .trainingStepEnd port res peer => Sys2Proof.Machine.execTrainingStepEnd port res peer s
  | .trainingRestartDelay port => Sys2Proof.Machine.execTrainingRestartDelay port s
  | .floorRetrain port => Sys2Proof.Machine.execFloorRetrain port s
  | .turnaround port lane adapted => Sys2Proof.Machine.execTurnaround port lane adapted s
  | .sosWindowMiss port lane cause => Sys2Proof.Machine.execSosWindowMiss port lane cause s
  | .l1xComplete port lane ok => Sys2Proof.Machine.execL1xComplete port lane ok s
  | .recalTrigger port lane trig => Sys2Proof.Machine.execRecalTrigger port lane trig s
  | .recalDeferExpiry port lane => Sys2Proof.Machine.execRecalDeferExpiry port lane s
  | .recalStepEnd port lane res => Sys2Proof.Machine.execRecalStepEnd port lane res s
  | .laneRestoreRetry port => Sys2Proof.Machine.execLaneRestoreRetry port s
  | .signalLoss port => Sys2Proof.Machine.execSignalLoss port s
  | .prbsTestEnd port lane counts => Sys2Proof.Machine.execPrbsTestEnd port lane counts s
  | .linkLaneShow rq => Sys2Proof.Machine.execLinkLaneShow rq s
  | .linkLanePrbs rq => Sys2Proof.Machine.execLinkLanePrbs rq s
  | .linkLaneInject rq => Sys2Proof.Machine.execLinkLaneInject rq s
  | .linkLaneRecal rq => Sys2Proof.Machine.execLinkLaneRecal rq s
  | .linkLaneRetire rq => Sys2Proof.Machine.execLinkLaneRetire rq s
  | .linkLaneRestore rq => Sys2Proof.Machine.execLinkLaneRestore rq s
  | .linkLaneClear rq => Sys2Proof.Machine.execLinkLaneClear rq s
  | .cellReceive port lane c errs ctr old tag => Sys2Proof.Machine.execCellReceive port lane c errs ctr old tag s
  | .coachReceive port lane tag => Sys2Proof.Machine.execCoachReceive port lane tag s
  | .creditCell port es => Sys2Proof.Machine.execCreditCell port es s
  | .tickCell port plan => Sys2Proof.Machine.execTickCell port plan s
  | .demandCell port d => Sys2Proof.Machine.execDemandCell port d s
  | .timeSyncCell port typ lane a b c arrived sent => Sys2Proof.Machine.execTimeSyncCell port typ lane a b c arrived sent s
  | .hello port h => Sys2Proof.Machine.execHello port h s
  | .elect port master own => Sys2Proof.Machine.execElect port master own s
  | .keyInit port bytes => Sys2Proof.Machine.execKeyInit port bytes s
  | .keyResp port bytes => Sys2Proof.Machine.execKeyResp port bytes s
  | .keyFinish port bytes => Sys2Proof.Machine.execKeyFinish port bytes s
  | .keyAgreementTimeout port => Sys2Proof.Machine.execKeyAgreementTimeout port s
  | .keyRotationStart port => Sys2Proof.Machine.execKeyRotationStart port s
  | .keyNext port dir index tick => Sys2Proof.Machine.execKeyNext port dir index tick s
  | .keyNextAck port dir index => Sys2Proof.Machine.execKeyNextAck port dir index s
  | .keyEffectiveTick port => Sys2Proof.Machine.execKeyEffectiveTick port s
  | .keyIndexRetire port => Sys2Proof.Machine.execKeyIndexRetire port s
  | .pathSetup port id label tc hops dst cut contract credit => Sys2Proof.Machine.execPathSetup port id label tc hops dst cut contract credit s
  | .pathAck port id label credit => Sys2Proof.Machine.execPathAck port id label credit s
  | .pathNack port id reason => Sys2Proof.Machine.execPathNack port id reason s
  | .pathTeardown port label => Sys2Proof.Machine.execPathTeardown port label s
  | .laneNotice port lane event use => Sys2Proof.Machine.execLaneNotice port lane event use s
  | .masterQuery port => Sys2Proof.Machine.execMasterQuery port s
  | .linkClose port cause => Sys2Proof.Machine.execLinkClose port cause s
  | .chainNotice port n => Sys2Proof.Machine.execChainNotice port n s
  | .linkCtrlUnknown port => Sys2Proof.Machine.execLinkCtrlUnknown port s
  | .gapTimeout port label => Sys2Proof.Machine.execGapTimeout port label s
  | .replayTimeout port label => Sys2Proof.Machine.execReplayTimeout port label s
  | .linkTTimeout port => Sys2Proof.Machine.execLinkTTimeout port s
  | .bringupRestart port => Sys2Proof.Machine.execBringupRestart port s
  | .masterLossTimeout port => Sys2Proof.Machine.execMasterLossTimeout port s
  | .masterQueryTimeout port => Sys2Proof.Machine.execMasterQueryTimeout port s
  | .pathHoldExpiry port => Sys2Proof.Machine.execPathHoldExpiry port s
  | .pathSetupTimeout port label => Sys2Proof.Machine.execPathSetupTimeout port label s
  | .linkShow rq => Sys2Proof.Machine.execLinkShow rq s
  | .linkPlanShow rq => Sys2Proof.Machine.execLinkPlanShow rq s
  | .linkRekey rq => Sys2Proof.Machine.execLinkRekey rq s
  | .linkReset rq => Sys2Proof.Machine.execLinkReset rq s
  | .pathOpen rq => Sys2Proof.Machine.execPathOpen rq s
  | .pathClose rq => Sys2Proof.Machine.execPathClose rq s
  | .pathShow rq => Sys2Proof.Machine.execPathShow rq s
  | .localCellOffer port cable c => Sys2Proof.Machine.execLocalCellOffer port cable c s
  | .cellTimeMatch slot room cut bank bad => Sys2Proof.Machine.execCellTimeMatch slot room cut bank bad s
  | .voqStarve inp outp tc => Sys2Proof.Machine.execVoqStarve inp outp tc s
  | .planSwitchShow rq => Sys2Proof.Machine.execPlanSwitchShow rq s
  | .planSwitchPortShow rq => Sys2Proof.Machine.execPlanSwitchPortShow rq s
  | .planSwitchVoqShow rq => Sys2Proof.Machine.execPlanSwitchVoqShow rq s
  | .planSwitchClear rq => Sys2Proof.Machine.execPlanSwitchClear rq s
  | .plannerRefresh => Sys2Proof.Machine.execPlannerRefresh s
  | .plannerRefreshLapse => Sys2Proof.Machine.execPlannerRefreshLapse s
  | .plannerHoldExpiry => Sys2Proof.Machine.execPlannerHoldExpiry s
  | .planShow rq => Sys2Proof.Machine.execPlanShow rq s
  | .planBudgetShow rq => Sys2Proof.Machine.execPlanBudgetShow rq s
  | .planBudgetSet rq => Sys2Proof.Machine.execPlanBudgetSet rq s
  | .planContractSet rq => Sys2Proof.Machine.execPlanContractSet rq s
  | .planContractClear rq => Sys2Proof.Machine.execPlanContractClear rq s
  | .planContractShow rq => Sys2Proof.Machine.execPlanContractShow rq s
  | .planShaperSet rq => Sys2Proof.Machine.execPlanShaperSet rq s
  | .planSampleShow rq => Sys2Proof.Machine.execPlanSampleShow rq s
  | .planCostShow rq => Sys2Proof.Machine.execPlanCostShow rq s
  | .sinkLinkTraining dpx rate lanes => Sys2Proof.Machine.execSinkLinkTraining dpx rate lanes s
  | .captureLine dpx index desc line stamp pixels sdps audio => Sys2Proof.Machine.execCaptureLine dpx index desc line stamp pixels sdps audio s
  | .panelHpdChange dpx level panelMax lo hi lttprs blocks works => Sys2Proof.Machine.execPanelHpdChange dpx level panelMax lo hi lttprs blocks works s
  | .panelHpdLossTimeout dpx => Sys2Proof.Machine.execPanelHpdLossTimeout dpx s
  | .chunkReceive stream audio bytes => Sys2Proof.Machine.execChunkReceive stream audio bytes s
  | .frameStart stream => Sys2Proof.Machine.execFrameStart stream s
  | .lineDue stream line err need audio => Sys2Proof.Machine.execLineDue stream line err need audio s
  | .auxTransaction dpx cmd addr len vstream data => Sys2Proof.Machine.execAuxTransaction dpx cmd addr len vstream data s
  | .auxReq dpx cseq cmd addr vstream data => Sys2Proof.Machine.execAuxReq dpx cseq cmd addr vstream data s
  | .auxRep dpx cseq reply rdata => Sys2Proof.Machine.execAuxRep dpx cseq reply rdata s
  | .mirror dpx cseq addr data => Sys2Proof.Machine.execMirror dpx cseq addr data s
  | .hpd dpx cseq level irq => Sys2Proof.Machine.execHpd dpx cseq level irq s
  | .skipReq dpx cseq vstream k => Sys2Proof.Machine.execSkipReq dpx cseq vstream k s
  | .controlAck dpx cseq => Sys2Proof.Machine.execControlAck dpx cseq s
  | .controlResendTimeout dpx cseq => Sys2Proof.Machine.execControlResendTimeout dpx cseq s
  | .auxFwdTimeout dpx => Sys2Proof.Machine.execAuxFwdTimeout dpx s
  | .holdGapExpiry stream => Sys2Proof.Machine.execHoldGapExpiry stream s
  | .holdMaxExpiry stream => Sys2Proof.Machine.execHoldMaxExpiry stream s
  | .dispShow rq => Sys2Proof.Machine.execDispShow rq s
  | .dispStreamOpen rq => Sys2Proof.Machine.execDispStreamOpen rq s
  | .dispStreamClose rq => Sys2Proof.Machine.execDispStreamClose rq s
  | .dispStreamShow rq => Sys2Proof.Machine.execDispStreamShow rq s
  | .dispHoldOverlay rq => Sys2Proof.Machine.execDispHoldOverlay rq s
  | .dispHoldEnter rq => Sys2Proof.Machine.execDispHoldEnter rq s
  | .dispPairSet rq => Sys2Proof.Machine.execDispPairSet rq s
  | .dispAuxXfer rq => Sys2Proof.Machine.execDispAuxXfer rq s
  | .dispClear rq => Sys2Proof.Machine.execDispClear rq s
  | .configRequest fn reg write rid tag => Sys2Proof.Machine.execConfigRequest fn reg write rid tag s
  | .tlpIngress link t errs replays cor => Sys2Proof.Machine.execTlpIngress link t errs replays cor s
  | .pcieTlpFrame pciEnd bridge t => Sys2Proof.Machine.execPcieTlpFrame pciEnd bridge t s
  | .pcieCreditFrame pciEnd bridge limits => Sys2Proof.Machine.execPcieCreditFrame pciEnd bridge limits s
  | .pciePortStateFrame pciEnd bridge lnkCap lnkSta sltSta aerUnc aerCor => Sys2Proof.Machine.execPciePortStateFrame pciEnd bridge lnkCap lnkSta sltSta aerUnc aerCor s
  | .pciePortCtrlFrame dp bridge lnkCtl sltCtl devCtl brCtl routing => Sys2Proof.Machine.execPciePortCtrlFrame dp bridge lnkCtl sltCtl devCtl brCtl routing s
  | .pcieResumeFrame pciEnd bridge flag => Sys2Proof.Machine.execPcieResumeFrame pciEnd bridge flag s
  | .pcieHoldExpiry pciEnd => Sys2Proof.Machine.execPcieHoldExpiry pciEnd s
  | .hotResetEnd link => Sys2Proof.Machine.execHotResetEnd link s
  | .pciePhysLinkTrained link rate width => Sys2Proof.Machine.execPciePhysLinkTrained link rate width s
  | .pciePhysLinkDown link present => Sys2Proof.Machine.execPciePhysLinkDown link present s
  | .upstreamPerst => Sys2Proof.Machine.execUpstreamPerst s
  | .cplAgeCheck pciEnd => Sys2Proof.Machine.execCplAgeCheck pciEnd s
  | .pcieShow rq => Sys2Proof.Machine.execPcieShow rq s
  | .pciePortBind rq => Sys2Proof.Machine.execPciePortBind rq s
  | .pciePortUnbind rq => Sys2Proof.Machine.execPciePortUnbind rq s
  | .pcieBridgeShow rq => Sys2Proof.Machine.execPcieBridgeShow rq s
  | .pcieSlotPower rq => Sys2Proof.Machine.execPcieSlotPower rq s
  | .pcieClear rq => Sys2Proof.Machine.execPcieClear rq s
  | .hostUsbTransaction tx => Sys2Proof.Machine.execHostUsbTransaction tx s
  | .usbXferReq f periodic pkts outcome => Sys2Proof.Machine.execUsbXferReq f periodic pkts outcome s
  | .usbXferData root f outcome => Sys2Proof.Machine.execUsbXferData root f outcome s
  | .usbXferDone root f => Sys2Proof.Machine.execUsbXferDone root f s
  | .usbPortCtrlFrame f => Sys2Proof.Machine.execUsbPortCtrlFrame f s
  | .remotePortResetEnd port speed => Sys2Proof.Machine.execRemotePortResetEnd port speed s
  | .usbPortStateFrame root f => Sys2Proof.Machine.execUsbPortStateFrame root f s
  | .usbBusStateFrame state => Sys2Proof.Machine.execUsbBusStateFrame state s
  | .usbWakeFrame root port => Sys2Proof.Machine.execUsbWakeFrame root port s
  | .usbIsoData root f interval => Sys2Proof.Machine.execUsbIsoData root f interval s
  | .usbPeriodicPoll port addr ep dirIn iso hidClass data => Sys2Proof.Machine.execUsbPeriodicPoll port addr ep dirIn iso hidClass data s
  | .deviceRemoteWake port => Sys2Proof.Machine.execDeviceRemoteWake port s
  | .remoteResumeEnd port => Sys2Proof.Machine.execRemoteResumeEnd port s
  | .usbUpstreamLinkChange ev speed => Sys2Proof.Machine.execUsbUpstreamLinkChange ev speed s
  | .deviceFunctionBusReset => Sys2Proof.Machine.execDeviceFunctionBusReset s
  | .keepaliveIdleSuspend port => Sys2Proof.Machine.execKeepaliveIdleSuspend port s
  | .keepaliveTimeout => Sys2Proof.Machine.execKeepaliveTimeout s
  | .usbShow rq => Sys2Proof.Machine.execUsbShow rq s
  | .usbPortShow rq => Sys2Proof.Machine.execUsbPortShow rq s
  | .usbPortPower rq => Sys2Proof.Machine.execUsbPortPower rq s
  | .usbKeepaliveShow rq => Sys2Proof.Machine.execUsbKeepaliveShow rq s
  | .usbClear rq => Sys2Proof.Machine.execUsbClear rq s
  | .macFrameReceive mac frame => Sys2Proof.Machine.execMacFrameReceive mac frame s
  | .macLinkChange mac up speed => Sys2Proof.Machine.execMacLinkChange mac up speed s
  | .netTxFetch queue descs frame => Sys2Proof.Machine.execNetTxFetch queue descs frame s
  | .netTailWrite off value => Sys2Proof.Machine.execNetTailWrite off value s
  | .netEnableWrite ctrl d3hot pmeEn => Sys2Proof.Machine.execNetEnableWrite ctrl d3hot pmeEn s
  | .netWriteBack => Sys2Proof.Machine.execNetWriteBack s
  | .netTunnelFrame label mac group held ecn hash bufs frame => Sys2Proof.Machine.execNetTunnelFrame label mac group held ecn hash bufs frame s
  | .presence present mac addr => Sys2Proof.Machine.execPresence present mac addr s
  | .wake source => Sys2Proof.Machine.execWake source s
  | .linkState mac up speed maxFrame => Sys2Proof.Machine.execLinkState mac up speed maxFrame s
  | .flowAgeSweep bucket => Sys2Proof.Machine.execFlowAgeSweep bucket s
  | .wakeBufferTimeout => Sys2Proof.Machine.execWakeBufferTimeout s
  | .netShow rq => Sys2Proof.Machine.execNetShow rq s
  | .netBind rq => Sys2Proof.Machine.execNetBind rq s
  | .netGroupSet rq => Sys2Proof.Machine.execNetGroupSet rq s
  | .netRuleSet rq => Sys2Proof.Machine.execNetRuleSet rq s
  | .netFlowSet rq => Sys2Proof.Machine.execNetFlowSet rq s
  | .netFlowShow rq => Sys2Proof.Machine.execNetFlowShow rq s
  | .netMeterSet rq => Sys2Proof.Machine.execNetMeterSet rq s
  | .netPresenceSet rq => Sys2Proof.Machine.execNetPresenceSet rq s
  | .netPresenceShow rq => Sys2Proof.Machine.execNetPresenceShow rq s
  | .netClear rq => Sys2Proof.Machine.execNetClear rq s
  | .sbXferFrame port num route xfer => Sys2Proof.Machine.execSbXferFrame port num route xfer s
  | .sbXferRep port num reply => Sys2Proof.Machine.execSbXferRep port num reply s
  | .sbLockFrame port num route holder => Sys2Proof.Machine.execSbLockFrame port num route holder s
  | .sbLockRep port num outcome handle => Sys2Proof.Machine.execSbLockRep port num outcome handle s
  | .sbUnlockFrame port handle lapsed => Sys2Proof.Machine.execSbUnlockFrame port handle lapsed s
  | .sbWound port holder => Sys2Proof.Machine.execSbWound port holder s
  | .sbIrq port line level => Sys2Proof.Machine.execSbIrq port line level s
  | .i2cTargetTransaction intf addr reads write => Sys2Proof.Machine.execI2cTargetTransaction intf addr reads write s
  | .sbHoldExpiry intf addr => Sys2Proof.Machine.execSbHoldExpiry intf addr s
  | .sbArbitrationLost kind intf => Sys2Proof.Machine.execSbArbitrationLost kind intf s
  | .sbSdaStuck kind intf => Sys2Proof.Machine.execSbSdaStuck kind intf s
  | .sbLockLeaseExpiry handle => Sys2Proof.Machine.execSbLockLeaseExpiry handle s
  | .sbLockWaitExpiry waiter => Sys2Proof.Machine.execSbLockWaitExpiry waiter s
  | .sbIrqSourceEdge source => Sys2Proof.Machine.execSbIrqSourceEdge source s
  | .fanTachFault fan pulses => Sys2Proof.Machine.execFanTachFault fan pulses s
  | .uartReceive idx bytes => Sys2Proof.Machine.execUartReceive idx bytes s
  | .sbShow rq => Sys2Proof.Machine.execSbShow rq s
  | .sbRouteSet rq => Sys2Proof.Machine.execSbRouteSet rq s
  | .sbRouteShow rq => Sys2Proof.Machine.execSbRouteShow rq s
  | .sbXfer rq => Sys2Proof.Machine.execSbXfer rq s
  | .sbLock rq => Sys2Proof.Machine.execSbLock rq s
  | .sbUnlock rq => Sys2Proof.Machine.execSbUnlock rq s
  | .sbIrqRead rq => Sys2Proof.Machine.execSbIrqRead rq s
  | .sbIrqMask rq => Sys2Proof.Machine.execSbIrqMask rq s
  | .sbFanSet rq pulses => Sys2Proof.Machine.execSbFanSet rq pulses s
  | .memoryAccess master kind addr len data debug waits ecc drains collides user => Sys2Proof.Machine.execMemoryAccess master kind addr len data debug waits ecc drains collides user s
  | .fence master => Sys2Proof.Machine.execFence master s
  | .lpddrPatrolScrub addr ecc => Sys2Proof.Machine.execLpddrPatrolScrub addr ecc s
  | .dqsDriftCheck channel => Sys2Proof.Machine.execDqsDriftCheck channel s
  | .lpddrRefresh bank => Sys2Proof.Machine.execLpddrRefresh bank s
  | .memShow rq => Sys2Proof.Machine.execMemShow rq s
  | .memMasterShow rq => Sys2Proof.Machine.execMemMasterShow rq s
  | .memMapShow rq => Sys2Proof.Machine.execMemMapShow rq s
  | .memClear rq => Sys2Proof.Machine.execMemClear rq s
  | .memInject rq => Sys2Proof.Machine.execMemInject rq s
  | .serviceSlice core uses => Sys2Proof.Machine.execServiceSlice core uses s
  | .woeriYield inst => Sys2Proof.Machine.execWoeriYield inst s
  | .woeriWait inst timer events => Sys2Proof.Machine.execWoeriWait inst timer events s
  | .woeriHeartbeat inst => Sys2Proof.Machine.execWoeriHeartbeat inst s
  | .woeriDmaCopy inst srcArea srcOff dstArea dstOff len => Sys2Proof.Machine.execWoeriDmaCopy inst srcArea srcOff dstArea dstOff len s
  | .woeriFrameSend inst path frame => Sys2Proof.Machine.execWoeriFrameSend inst path frame s
  | .woeriFrameReceive inst path frame => Sys2Proof.Machine.execWoeriFrameReceive inst path frame s
  | .gateSubmit inst request => Sys2Proof.Machine.execGateSubmit inst request s
  | .gateResult inst => Sys2Proof.Machine.execGateResult inst s
  | .woeriWakeRequest inst reason => Sys2Proof.Machine.execWoeriWakeRequest inst reason s
  | .woeriTimeRead inst core => Sys2Proof.Machine.execWoeriTimeRead inst core s
  | .instanceWatchdog inst => Sys2Proof.Machine.execInstanceWatchdog inst s
  | .instanceRestart inst => Sys2Proof.Machine.execInstanceRestart inst s
  | .coreHeartbeatLoss core => Sys2Proof.Machine.execCoreHeartbeatLoss core s
  | .displayHoldOverlayOn dpx on src x y w h repl => Sys2Proof.Machine.execDisplayHoldOverlayOn dpx on src x y w h repl s
  | .dhStatusRedraw dpx pixels => Sys2Proof.Machine.execDhStatusRedraw dpx pixels s
  | .netPresenceRules absent => Sys2Proof.Machine.execNetPresenceRules absent s
  | .dhcpRenewal index renewal v4lost v6lost => Sys2Proof.Machine.execDhcpRenewal index renewal v4lost v6lost s
  | .keepaliveHidWake overflow => Sys2Proof.Machine.execKeepaliveHidWake overflow s
  | .fleetReport answered => Sys2Proof.Machine.execFleetReport answered s
  | .svcShow rq => Sys2Proof.Machine.execSvcShow rq s
  | .svcStage rq => Sys2Proof.Machine.execSvcStage rq s
  | .svcInstall rq => Sys2Proof.Machine.execSvcInstall rq s
  | .svcRemove rq => Sys2Proof.Machine.execSvcRemove rq s
  | .svcStart rq => Sys2Proof.Machine.execSvcStart rq s
  | .svcStop rq => Sys2Proof.Machine.execSvcStop rq s
  | .svcInstanceShow rq => Sys2Proof.Machine.execSvcInstanceShow rq s
  | .svcCoreDrain rq => Sys2Proof.Machine.execSvcCoreDrain rq s
  | .svcCoreAdmit rq => Sys2Proof.Machine.execSvcCoreAdmit rq s
  | .svcDataPut rq => Sys2Proof.Machine.execSvcDataPut rq s
  | .ccAttach chan a5 b5 heldMs vbus => Sys2Proof.Machine.execCcAttach chan a5 b5 heldMs vbus s
  | .ccDetach chan heldMs vbusGone => Sys2Proof.Machine.execCcDetach chan heldMs vbusGone s
  | .drpToggle chan trying => Sys2Proof.Machine.execDrpToggle chan trying s
  | .pdMessageReceive chan m => Sys2Proof.Machine.execPdMessageReceive chan m s
  | .goodcrcTimeout chan => Sys2Proof.Machine.execGoodcrcTimeout chan s
  | .queuedResponseTimeout chan => Sys2Proof.Machine.execQueuedResponseTimeout chan s
  | .sinkTxExpiry chan => Sys2Proof.Machine.execSinkTxExpiry chan s
  | .askTimeout chan => Sys2Proof.Machine.execAskTimeout chan s
  | .srcTransitionExpiry chan => Sys2Proof.Machine.execSrcTransitionExpiry chan s
  | .snkRequestWaitExpiry chan => Sys2Proof.Machine.execSnkRequestWaitExpiry chan s
  | .pdTransitionTimeout chan which => Sys2Proof.Machine.execPdTransitionTimeout chan which s
  | .hardResetReceived chan => Sys2Proof.Machine.execHardResetReceived chan s
  | .srcRecoverExpiry chan => Sys2Proof.Machine.execSrcRecoverExpiry chan s
  | .eprKeepaliveTimer chan => Sys2Proof.Machine.execEprKeepaliveTimer chan s
  | .eprKeepaliveTimeout chan => Sys2Proof.Machine.execEprKeepaliveTimeout chan s
  | .errorRecoveryEnd chan => Sys2Proof.Machine.execErrorRecoveryEnd chan s
  | .vconnOvercurrent chan => Sys2Proof.Machine.execVconnOvercurrent chan s
  | .enterModeRetry chan => Sys2Proof.Machine.execEnterModeRetry chan s
  | .cpwrShow rq => Sys2Proof.Machine.execCpwrShow rq s
  | .cpwrCapsSet rq => Sys2Proof.Machine.execCpwrCapsSet rq s
  | .cpwrRequest rq => Sys2Proof.Machine.execCpwrRequest rq s
  | .cpwrAnswer rq => Sys2Proof.Machine.execCpwrAnswer rq s
  | .cpwrSwap rq => Sys2Proof.Machine.execCpwrSwap rq s
  | .cpwrHardreset rq => Sys2Proof.Machine.execCpwrHardreset rq s
  | .cpwrModeEnter rq => Sys2Proof.Machine.execCpwrModeEnter rq s
  | .cpwrMuxSet rq => Sys2Proof.Machine.execCpwrMuxSet rq s
  | .cpwrDiscoverShow rq => Sys2Proof.Machine.execCpwrDiscoverShow rq s
  | .cpwrMsgSend rq => Sys2Proof.Machine.execCpwrMsgSend rq s
  | .cpwrMsgRecv rq => Sys2Proof.Machine.execCpwrMsgRecv rq s
  | .feedPresent feed mv ma heldMs => Sys2Proof.Machine.execFeedPresent feed mv ma heldMs s
  | .feedAbsent feed mv heldUs reverse => Sys2Proof.Machine.execFeedAbsent feed mv heldUs reverse s
  | .feedShareUpdate mv0 ma0 mv1 ma1 => Sys2Proof.Machine.execFeedShareUpdate mv0 ma0 mv1 ma1 s
  | .feedOverload feed ma heldMs => Sys2Proof.Machine.execFeedOverload feed ma heldMs s
  | .vbusSettled switch mv ma heldMs => Sys2Proof.Machine.execVbusSettled switch mv ma heldMs s
  | .vbusSwitchFault switch heldMs trip => Sys2Proof.Machine.execVbusSwitchFault switch heldMs trip s
  | .vbusRetryExpiry switch => Sys2Proof.Machine.execVbusRetryExpiry switch s
  | .bayShortPinClose bay => Sys2Proof.Machine.execBayShortPinClose bay s
  | .bayShortPinOpen bay => Sys2Proof.Machine.execBayShortPinOpen bay s
  | .baySeatDebounce bay => Sys2Proof.Machine.execBaySeatDebounce bay s
  | .bayCurrentLimit bay reached samples mv ma => Sys2Proof.Machine.execBayCurrentLimit bay reached samples mv ma s
  | .bayFaultTimer bay samples => Sys2Proof.Machine.execBayFaultTimer bay samples s
  | .bayBreaker bay ma => Sys2Proof.Machine.execBayBreaker bay ma s
  | .bayRampTimeout bay vin => Sys2Proof.Machine.execBayRampTimeout bay vin s
  | .bayPgRise bay vin mv ma heldUs enhanced => Sys2Proof.Machine.execBayPgRise bay vin mv ma heldUs enhanced s
  | .bayPgFall bay vin mv => Sys2Proof.Machine.execBayPgFall bay vin mv s
  | .bayRetryExpiry bay => Sys2Proof.Machine.execBayRetryExpiry bay s
  | .bayRetriesRestore bay => Sys2Proof.Machine.execBayRetriesRestore bay s
  | .bayPerstRelease bay => Sys2Proof.Machine.execBayPerstRelease bay s
  | .fetTempUpdate bay diode tref vin mv ma => Sys2Proof.Machine.execFetTempUpdate bay diode tref vin mv ma s
  | .ppathShow rq => Sys2Proof.Machine.execPpathShow rq s
  | .ppathBayShow rq => Sys2Proof.Machine.execPpathBayShow rq s
  | .ppathBayPower rq => Sys2Proof.Machine.execPpathBayPower rq s
  | .ppathVbusShow rq => Sys2Proof.Machine.execPpathVbusShow rq s
  | .ppathClear rq => Sys2Proof.Machine.execPpathClear rq s
  | .pstateSet rq => Sys2Proof.Machine.execPstateSet rq s
  | .pstateShow rq => Sys2Proof.Machine.execPstateShow rq s
  | .idleEntry => Sys2Proof.Machine.execIdleEntry s
  | .phaseSStart => Sys2Proof.Machine.execPhaseSStart s
  | .phasePStart => Sys2Proof.Machine.execPhasePStart s
  | .entryTimeout => Sys2Proof.Machine.execEntryTimeout s
  | .wakeSource source cycles latched bad => Sys2Proof.Machine.execWakeSource source cycles latched bad s
  | .retainExitComplete => Sys2Proof.Machine.execRetainExitComplete s
  | .trustShow rq => Sys2Proof.Machine.execTrustShow rq s
  | .trustKeyShow rq => Sys2Proof.Machine.execTrustKeyShow rq s
  | .trustKeyInstall rq => Sys2Proof.Machine.execTrustKeyInstall rq s
  | .trustKeyRevoke rq => Sys2Proof.Machine.execTrustKeyRevoke rq s
  | .trustLifecycleAdvance rq => Sys2Proof.Machine.execTrustLifecycleAdvance rq s
  | .trustRollbackAdvance rq => Sys2Proof.Machine.execTrustRollbackAdvance rq s
  | .trustIdShow rq => Sys2Proof.Machine.execTrustIdShow rq s
  | .trustAcuShow rq => Sys2Proof.Machine.execTrustAcuShow rq s
  | .trustAcuSet rq => Sys2Proof.Machine.execTrustAcuSet rq s
  | .trustAcuLogShow rq => Sys2Proof.Machine.execTrustAcuLogShow rq s
  | .updShow rq => Sys2Proof.Machine.execUpdShow rq s
  | .updStage rq => Sys2Proof.Machine.execUpdStage rq s
  | .updVerify rq => Sys2Proof.Machine.execUpdVerify rq s
  | .updActivate rq => Sys2Proof.Machine.execUpdActivate rq s
  | .activationQuiet => Sys2Proof.Machine.execActivationQuiet s
  | .activationWaitExpiry => Sys2Proof.Machine.execActivationWaitExpiry s
  | .mgtHandoverReady => Sys2Proof.Machine.execMgtHandoverReady s
  | .handoverTimeout => Sys2Proof.Machine.execHandoverTimeout s
  | .updRevert rq => Sys2Proof.Machine.execUpdRevert rq s
  | .updCommit rq => Sys2Proof.Machine.execUpdCommit rq s
  | .updKeymanPut rq => Sys2Proof.Machine.execUpdKeymanPut rq s
  | .autocommit => Sys2Proof.Machine.execAutocommit s
  | .checkpoint => Sys2Proof.Machine.execCheckpoint s
  | .sporeBufferRoom => Sys2Proof.Machine.execSporeBufferRoom s
  | .recPostTriggerExpiry => Sys2Proof.Machine.execRecPostTriggerExpiry s
  | .replayFinish diverged slot tick => Sys2Proof.Machine.execReplayFinish diverged slot tick s
  | .recShow rq => Sys2Proof.Machine.execRecShow rq s
  | .recFreeze rq => Sys2Proof.Machine.execRecFreeze rq s
  | .recRead rq => Sys2Proof.Machine.execRecRead rq s
  | .recReplay rq => Sys2Proof.Machine.execRecReplay rq s
  | .dbgShow rq => Sys2Proof.Machine.execDbgShow rq s
  | .dbgMemRead rq => Sys2Proof.Machine.execDbgMemRead rq s
  | .dbgMemWrite rq => Sys2Proof.Machine.execDbgMemWrite rq s
  | .jtagIdcode => Sys2Proof.Machine.execJtagIdcode s
  | .jtagExtest sampled update => Sys2Proof.Machine.execJtagExtest sampled update s
  | .jtagSamplePreload sampled preload => Sys2Proof.Machine.execJtagSamplePreload sampled preload s
  | .jtagDbgAp op addr len data core => Sys2Proof.Machine.execJtagDbgAp op addr len data core s
  | .jtagBypass => Sys2Proof.Machine.execJtagBypass s
  | .pmeToAckTimeout => Sys2Proof.Machine.execPmeToAckTimeout s
  | .inBandPresenceChange port present => Sys2Proof.Machine.execInBandPresenceChange port present s
  | .busTransactionComplete kind intf result data => Sys2Proof.Machine.execBusTransactionComplete kind intf result data s
  | .panelAuxReply dpx reply rdata => Sys2Proof.Machine.execPanelAuxReply dpx reply rdata s
  | .selfRefreshExitCheckDone ok => Sys2Proof.Machine.execSelfRefreshExitCheckDone ok s
  | .senderResponseTimeout chan => Sys2Proof.Machine.execSenderResponseTimeout chan s
  | .clusterDmaComplete inst => Sys2Proof.Machine.execClusterDmaComplete inst s

end Sys2Proof.Machine
end

