-- ==== Sys2Proof/Safety.lean ====
section
/-! DEFINITION. The terms in which the statements speak: what the delivery of events and replies touches, so that a statement can
say that everything else is as before; when a mailbox request executes at once; what an answered request and a reported event
leave behind; the invariant of memory. -/

namespace Sys2Proof.Machine

/-! ### Everything but the delivery of events -/

/-- A channel without what an event's delivery writes (R54, R55): queue, ATTN and the count of lost events. -/
def ChanSt.hush (c : ChanSt) : ChanSt := { c with queue := [], attn := false, lost := 0 }

/-- An instance without what an event's delivery writes (R392). -/
def InstSt.hush (i : InstSt) : InstSt := { i with events := [], lostEvents := 0 }

/-- The recorder without what an input's spore and a freeze trigger write (R525 to R528). -/
def RecSt.hush (r : RecSt) : RecSt :=
  { r with mode := 0, trigger := 0, ring := [], buffer := [], nextSeq := 0, dropped := 0, trigAt := 0, moreTriggers := 0 }

/-- The mailbox hardware without what events write. -/
def MbxSt.hush (m : MbxSt) : MbxSt :=
  { m with loc := m.loc.hush, tun := m.tun.hush, peer := m.peer.hush, dbg := m.dbg.hush, gate := m.gate.hush }

/-- The service runtime without what events write. -/
def SvcSt.hush (v : SvcSt) : SvcSt := { v with insts := v.insts.map InstSt.hush }

/-- The state without what the delivery of events, their recording and the list of outputs write. Two states with the same `hush` agree
on every register, queue, buffer, counter, mode and pin but those. -/
def State.hush (s : State) : State :=
  { s with out := [], mbx := s.mbx.hush, svc := s.svc.hush, rcd := s.rcd.hush }

/-! ### Everything but the delivery of events and of replies -/

/-- A channel without what a reply writes (R52, R53, R59). -/
def ChanSt.calm (c : ChanSt) : ChanSt := { c with seq := 0, last := none, stored := none, credUse := [] }

/-- An instance without what a reply on its gate writes (R391). -/
def InstSt.calm (i : InstSt) : InstSt := { i with gateReply := none, gateBusy := false }

/-- The mailbox hardware without what a counted request and its reply write (R60, R62, R74, R77, R78). -/
def MbxSt.calm (m : MbxSt) : MbxSt :=
  { m with
    loc := m.loc.calm, tun := m.tun.calm, peer := m.peer.calm, dbg := m.dbg.calm, gate := m.gate.calm
    unatt := false, sinceAttn := 0, firstLocal := false
    spiHeld := none, bar0Busy := false, bar0Reply := none, usbReply := none, usbMute := 0, usbWait := [], dbgHeld := none }

/-- The service runtime without what a reply on a gate writes. -/
def SvcSt.calm (v : SvcSt) : SvcSt := { v with insts := v.insts.map InstSt.calm }

/-- The cables without what a reply on PEER writes (R78): the messages handed to the links. -/
def CableSt.calm (c : CableSt) : CableSt := { c with links := c.links.map fun l => { l with peerOut := [] } }

/-- The state without what a counted request and its reply write. -/
def State.calm (s : State) : State := { s with mbx := s.mbx.calm, svc := s.svc.calm, cable := s.cable.calm }

/-- The state without what events, replies and their recording write. Two states with the same `still` agree on everything else. -/
def State.still (s : State) : State := s.hush.calm

/-! ### What a command does -/

/-- The command completes: `exec` answers a next state, and that state has the property. -/
def Gives (i : Instr) (s : State) (P : State → Prop) : Prop := ∃ t, exec i s = .next t ∧ P t

/-- The command completes and leaves exactly the state `u`, but for the delivery and recording of events and the list of outputs: its whole
effect and its frame. -/
def Leaves (i : Instr) (s u : State) : Prop := Gives i s fun t => t.hush = u.hush

/-- The command completes, leaves exactly the state `u` in the same sense, and its outputs are `l`, first to last. -/
def Says (i : Instr) (s u : State) (l : List Emit) : Prop := Gives i s fun t => t.hush = u.hush ∧ t.out = l

/-- A link-control message has gone out on a port: each of its cells, with consecutive SEQs of label 1 (R152, R173). -/
def Told (t : State) (p typ : Nat) (fields : List Nat) (blob : List Byte) : Prop :=
  ∃ seq, ∀ c ∈ messageCells 1 2 seq (ctlBytes typ fields blob), ∃ tag, Emit.cell p none (withHcrc c) tag ∈ t.out

/-- The command completes, leaves the state `u` with the message's cells numbered and kept for replay, and sends the message. -/
def Tells (i : Instr) (s u : State) (p typ : Nat) (fields : List Nat) (blob : List Byte) : Prop :=
  Gives i s fun t => t.hush = (u.ctlSend p typ fields blob).hush ∧ Told t p typ fields blob

/-- The command completes, leaves the state `u` with the counter value of one cell of KIND 2 to 6 taken, and sends that cell (R157, R159). -/
def SendsOwn (i : Instr) (s u : State) (p : Nat) (c : Cell) : Prop :=
  Gives i s fun t => t.hush = (u.sendOwn p c).hush ∧ ∃ tag, Emit.cell p none (withHcrc c) tag ∈ t.out

/-! ### When a mailbox request executes at once (R49, Table 22.7) -/

/-- The request passes steps 1 to 8 of Table 22.7 and asks for its effect (no VALIDATE): the hub is awake, the management firmware runs and no debugger
holds it, no request is before it, it is new and for this hub, its level, channel and length are those of its row. -/
structure Admitted (row : CmdRow) (min : Nat) (rq : Req) (s : State) : Prop where
  awake   : s.awake = true
  runs    : s.fwRuns = true
  free    : s.pins.mgtHalted = false
  idle    : s.mbx.waiting = []
  new     : ((s.chan (viaChan rq.via)).stored.isSome && (s.chan (viaChan rq.via)).isLast (msgOf rq row.opcode)) = false
  open_   : (viaChan rq.via == .dbg && s.lifecycle == lcScrapped) = false
  short   : rq.payload.length ≤ 1024
  here    : reqHops rq = 0
  act     : reqValidate rq = false
  level   : ∃ l, s.reqLevel rq = some l ∧ row.level ≤ l
  chans   : (!row.chans.isEmpty && !row.chans.contains (viaChan rq.via)) = false
  long    : min ≤ rq.payload.length

/-- The same as a check that can be evaluated. -/
def admits (row : CmdRow) (min : Nat) (rq : Req) (s : State) : Bool :=
  s.awake && s.fwRuns && !s.pins.mgtHalted && s.mbx.waiting.isEmpty
    && !((s.chan (viaChan rq.via)).stored.isSome && (s.chan (viaChan rq.via)).isLast (msgOf rq row.opcode))
    && !(viaChan rq.via == .dbg && s.lifecycle == lcScrapped) && decide (rq.payload.length ≤ 1024) && reqHops rq == 0
    && !reqValidate rq && ((s.reqLevel rq).any fun l => row.level ≤ l)
    && !(!row.chans.isEmpty && !row.chans.contains (viaChan rq.via)) && decide (min ≤ rq.payload.length)

/-- Fewer than eight completion handles live on the request's channel (R67). -/
abbrev State.jobRoom (s : State) (rq : Req) : Prop := (s.chan (viaChan rq.via)).jobs.length < 8

/-- The reply of a request is out on its transport and stored (R52, R53): its result, handle and payload. -/
def State.Replied (t : State) (rq : Req) (rc : Rc) (handle : Nat) (data : List Byte) : Prop :=
  ∃ r : Reply, (t.chan (viaChan rq.via)).stored = some r ∧ Emit.reply rq.via r ∈ t.out
    ∧ r.tag = rq.tag ∧ r.result = rc.code ∧ r.handle = handle ∧ r.data = data

/-- What a `.show` command says: admitted, it completes with OK and the given bytes, and changes nothing but the delivery of events
and replies. -/
def Shows (c : Req → Instr) (row : CmdRow) (min : Nat) (ok : Req → State → Prop) (data : Req → State → List Byte) : Prop :=
  ∀ rq s, Admitted row min rq s → ok rq s →
    ∃ t, exec (c rq) s = .next t ∧ t.still = s.still ∧ t.Replied rq .ok 0 (data rq s)

/-- What a command with an effect says: admitted, it completes with the given result, which is no failure, leaves the given state (but for the
delivery of events and replies), and answers the given bytes. -/
def Answers (c : Req → Instr) (row : CmdRow) (min : Nat) (ok : Req → State → Prop) (rc : Req → State → Rc)
    (eff : Req → State → State) (data : Req → State → List Byte) : Prop :=
  ∀ rq s, Admitted row min rq s → ok rq s →
    ∃ t, exec (c rq) s = .next t ∧ t.still = (eff rq s).still ∧ t.Replied rq (rc rq s) 0 (data rq s)

/-- The same with OK. -/
def Does (c : Req → Instr) (row : CmdRow) (min : Nat) (ok : Req → State → Prop) (eff : Req → State → State)
    (data : Req → State → List Byte) : Prop :=
  Answers c row min ok (fun _ _ => .ok) eff data

/-- What a long command says: admitted with room for a handle, it is ACCEPTED, its handle live with the completion its rules have
settled, and the given state is left. -/
def Starts (c : Req → Instr) (row : CmdRow) (min : Nat) (ok : Req → State → Prop) (eff : Req → State → State)
    (plan : Req → State → Option (Nat × List Byte)) : Prop :=
  ∀ rq s, Admitted row min rq s → s.jobRoom rq → ok rq s →
    ∃ t, exec (c rq) s = .next t
      ∧ t.still = ((eff rq s).addJob rq.via row.opcode (s.chan (viaChan rq.via)).freeHandle (plan rq s)).still
      ∧ t.Replied rq .accepted (s.chan (viaChan rq.via)).freeHandle []

/-- What a command that fails says: admitted, it answers the result and changes nothing. -/
def Fails (c : Req → Instr) (row : CmdRow) (min : Nat) (ok : Req → State → Prop) (rc : Rc) : Prop :=
  ∀ rq s, Admitted row min rq s → ok rq s →
    ∃ t, exec (c rq) s = .next t ∧ t.still = s.still ∧ t.Replied rq rc 0 []

/-! ### Events -/

/-- The entry that an event of this number and argument makes in this instant (Table 3.13). -/
def State.event (s : State) (n arg : Nat) : EventEntry :=
  ⟨n, eventBit n, s.time.tick, s.time.slot, BitVec.ofNat 32 arg⟩

/-- Every mailbox whose mask enables the event, and whose queue has room for `k` more, holds it, with the instant of `s` (R54, R55). -/
def Heard (k : Nat) (s t : State) (n arg : Nat) : Prop :=
  ∀ c ∈ mailboxes, (s.chan c).mask.getLsbD n = true → (s.chan c).queue.length + k ≤ 255 →
    s.event n arg ∈ (t.chan c).queue

/-! ### Configuration channels -/

/-- A message of SOP on the wire of a channel with nothing unacknowledged (R413): held until its GoodCRC, which is due in 1.0 ms, and its MessageID
used. -/
def State.onWire (s : State) (k : Nat) (kind : PdKind) (objs : List Word) (what : PdFor) : State :=
  (s.setChn k fun c => { c with
    sent := some ⟨0, kind, objs, 0, what⟩, txIds := put c.txIds 0 ((nth (s.chn k).txIds 0 0 + 1) % 8) }).ccStart k .goodCrc (msTicks 1)

/-! ### Timebase -/

/-- The timebase runs, and with it the hub: powered, its clock not standing in RETAIN or HIBERNATE (R30), and not in thermal shutdown (R543). -/
abbrev State.ticking (s : State) : Prop := s.awake = true

/-! ### The invariant of memory -/

/-- The interconnect memory is in its canonical form. -/
abbrev State.MemInv (s : State) : Prop := memWf s.mem.cells = true

/-! ### The mailbox commands -/

/-- What a SYSTEM reset of some cause has left (Table 21.2, R534, R538, R539): everything outside AON and PWR at its reset values, the
fuses' life cycle and the tick count as they were, and the flash and the rollback fuses, too, unless it cuts off a commit (R549); Fiddlehead has
then loaded a management copy, with the cable power channels and the power path going on, or halted at the service floor. -/
def State.AfterReset (s : State) (cause : Nat) (t : State) : Prop :=
  t.fault.resetKind = 1 ∧ t.fault.resetCause = cause ∧ t.fault.resetTick = s.time.tick ∧ t.time.tick = s.time.tick
    ∧ t.cfg = .init ∧ t.topo = .init ∧ t.cable = .init ∧ t.sw = .init ∧ t.disp = .init ∧ t.usb = .init ∧ t.net = .init
    ∧ t.sb = .init ∧ t.trust.lc = s.trust.lc
    ∧ (s.upd.commit = none → t.upd.flash = s.upd.flash ∧ t.trust.rollback = s.trust.rollback)
    ∧ (t.boot.stage = 4 ∨ (t.boot.stage = 1 ∧ t.pcie = .init ∧ t.cc = s.cc.map CcSt.afterReset ∧ t.ppath = s.ppath))

/-- What a MANAGEMENT_CORE reset of some cause has left (Table 21.2, R59, R66, R68, R536): no handle, no nonce and no waiting request, the rest of
the hub as it was. -/
def State.AfterCoreReset (s : State) (cause : Nat) (t : State) : Prop :=
  t.boot.stage = 0 ∧ t.boot.mgtReset = true ∧ t.fault.resetKind = 2 ∧ t.fault.resetCause = cause
    ∧ (∀ c, (t.chan c).jobs = [] ∧ (t.chan c).creds = [] ∧ (t.chan c).nonces = []) ∧ t.cable.calm = s.cable.calm ∧ t.sw = s.sw
    ∧ t.plan = s.plan ∧ t.mbx.waiting = []

/-- A mailbox command: its constructor, its row of the command index (Table 22.2), and the least payload that its fixed fields take
(Table 22.7, step 9). -/
inductive IsMailbox : (Req → Instr) → CmdRow → Nat → Prop
  | sysPing : IsMailbox .sysPing Cmd.sysPing 0
  | sysEventRead : IsMailbox .sysEventRead Cmd.sysEventRead 1
  | sysEventMask : IsMailbox .sysEventMask Cmd.sysEventMask 24
  | sysCmdResult : IsMailbox .sysCmdResult Cmd.sysCmdResult 2
  | sysCredChallenge : IsMailbox .sysCredChallenge Cmd.sysCredChallenge 0
  | sysCredOpen : IsMailbox .sysCredOpen Cmd.sysCredOpen 136
  | sysCredClose : IsMailbox .sysCredClose Cmd.sysCredClose 4
  | sysTopoShow : IsMailbox .sysTopoShow Cmd.sysTopoShow 0
  | sysTimeShow : IsMailbox .sysTimeShow Cmd.sysTimeShow 0
  | sysFaultShow : IsMailbox .sysFaultShow Cmd.sysFaultShow 0
  | sysFaultClear : IsMailbox .sysFaultClear Cmd.sysFaultClear 0
  | sysReset : IsMailbox .sysReset Cmd.sysReset 1
  | cfgRecordStage : IsMailbox .cfgRecordStage Cmd.cfgRecordStage 5
  | cfgRecordApply : IsMailbox .cfgRecordApply Cmd.cfgRecordApply 1
  | cfgRecordShow : IsMailbox .cfgRecordShow Cmd.cfgRecordShow 6
  | cfgReportShow : IsMailbox .cfgReportShow Cmd.cfgReportShow 3
  | cfgOverrideClear : IsMailbox .cfgOverrideClear Cmd.cfgOverrideClear 2
  | cfgStoreCommit : IsMailbox .cfgStoreCommit Cmd.cfgStoreCommit 0
  | cfgStoreShow : IsMailbox .cfgStoreShow Cmd.cfgStoreShow 0
  | linkLaneShow : IsMailbox .linkLaneShow Cmd.linkLaneShow 2
  | linkLanePrbs : IsMailbox .linkLanePrbs Cmd.linkLanePrbs 8
  | linkLaneInject : IsMailbox .linkLaneInject Cmd.linkLaneInject 12
  | linkLaneRecal : IsMailbox .linkLaneRecal Cmd.linkLaneRecal 4
  | linkLaneRetire : IsMailbox .linkLaneRetire Cmd.linkLaneRetire 4
  | linkLaneRestore : IsMailbox .linkLaneRestore Cmd.linkLaneRestore 2
  | linkLaneClear : IsMailbox .linkLaneClear Cmd.linkLaneClear 2
  | linkShow : IsMailbox .linkShow Cmd.linkShow 1
  | linkPlanShow : IsMailbox .linkPlanShow Cmd.linkPlanShow 2
  | linkRekey : IsMailbox .linkRekey Cmd.linkRekey 1
  | linkReset : IsMailbox .linkReset Cmd.linkReset 1
  | pathOpen : IsMailbox .pathOpen Cmd.pathOpen 8
  | pathClose : IsMailbox .pathClose Cmd.pathClose 2
  | pathShow : IsMailbox .pathShow Cmd.pathShow 4
  | planSwitchShow : IsMailbox .planSwitchShow Cmd.planSwitchShow 0
  | planSwitchPortShow : IsMailbox .planSwitchPortShow Cmd.planSwitchPortShow 1
  | planSwitchVoqShow : IsMailbox .planSwitchVoqShow Cmd.planSwitchVoqShow 2
  | planSwitchClear : IsMailbox .planSwitchClear Cmd.planSwitchClear 1
  | planShow : IsMailbox .planShow Cmd.planShow 2
  | planBudgetShow : IsMailbox .planBudgetShow Cmd.planBudgetShow 0
  | planBudgetSet : IsMailbox .planBudgetSet Cmd.planBudgetSet 4
  | planContractSet : IsMailbox .planContractSet Cmd.planContractSet 24
  | planContractClear : IsMailbox .planContractClear Cmd.planContractClear 2
  | planContractShow : IsMailbox .planContractShow Cmd.planContractShow 2
  | planShaperSet : IsMailbox .planShaperSet Cmd.planShaperSet 12
  | planSampleShow : IsMailbox .planSampleShow Cmd.planSampleShow 3
  | planCostShow : IsMailbox .planCostShow Cmd.planCostShow 0
  | dispShow : IsMailbox .dispShow Cmd.dispShow 1
  | dispStreamOpen : IsMailbox .dispStreamOpen Cmd.dispStreamOpen 16
  | dispStreamClose : IsMailbox .dispStreamClose Cmd.dispStreamClose 2
  | dispStreamShow : IsMailbox .dispStreamShow Cmd.dispStreamShow 2
  | dispHoldOverlay : IsMailbox .dispHoldOverlay Cmd.dispHoldOverlay 16
  | dispHoldEnter : IsMailbox .dispHoldEnter Cmd.dispHoldEnter 3
  | dispPairSet : IsMailbox .dispPairSet Cmd.dispPairSet 4
  | dispAuxXfer : IsMailbox .dispAuxXfer Cmd.dispAuxXfer 12
  | dispClear : IsMailbox .dispClear Cmd.dispClear 2
  | pcieShow : IsMailbox .pcieShow Cmd.pcieShow 1
  | pciePortBind : IsMailbox .pciePortBind Cmd.pciePortBind 16
  | pciePortUnbind : IsMailbox .pciePortUnbind Cmd.pciePortUnbind 1
  | pcieBridgeShow : IsMailbox .pcieBridgeShow Cmd.pcieBridgeShow 1
  | pcieSlotPower : IsMailbox .pcieSlotPower Cmd.pcieSlotPower 2
  | pcieClear : IsMailbox .pcieClear Cmd.pcieClear 1
  | usbShow : IsMailbox .usbShow Cmd.usbShow 0
  | usbPortShow : IsMailbox .usbPortShow Cmd.usbPortShow 1
  | usbPortPower : IsMailbox .usbPortPower Cmd.usbPortPower 2
  | usbKeepaliveShow : IsMailbox .usbKeepaliveShow Cmd.usbKeepaliveShow 0
  | usbClear : IsMailbox .usbClear Cmd.usbClear 1
  | netShow : IsMailbox .netShow Cmd.netShow 1
  | netBind : IsMailbox .netBind Cmd.netBind 4
  | netGroupSet : IsMailbox .netGroupSet Cmd.netGroupSet 12
  | netRuleSet : IsMailbox .netRuleSet Cmd.netRuleSet 96
  | netFlowSet : IsMailbox .netFlowSet Cmd.netFlowSet 56
  | netFlowShow : IsMailbox .netFlowShow Cmd.netFlowShow 42
  | netMeterSet : IsMailbox .netMeterSet Cmd.netMeterSet 12
  | netPresenceSet : IsMailbox .netPresenceSet Cmd.netPresenceSet 4
  | netPresenceShow : IsMailbox .netPresenceShow Cmd.netPresenceShow 0
  | netClear : IsMailbox .netClear Cmd.netClear 1
  | sbShow : IsMailbox .sbShow Cmd.sbShow 0
  | sbRouteSet : IsMailbox .sbRouteSet Cmd.sbRouteSet 16
  | sbRouteShow : IsMailbox .sbRouteShow Cmd.sbRouteShow 1
  | sbXfer : IsMailbox .sbXfer Cmd.sbXfer 12
  | sbLock : IsMailbox .sbLock Cmd.sbLock 2
  | sbUnlock : IsMailbox .sbUnlock Cmd.sbUnlock 4
  | sbIrqRead : IsMailbox .sbIrqRead Cmd.sbIrqRead 4
  | sbIrqMask : IsMailbox .sbIrqMask Cmd.sbIrqMask 4
  | sbFanSet (rpm : Nat) : IsMailbox (fun rq => .sbFanSet rq rpm) Cmd.sbFanSet 2
  | memShow : IsMailbox .memShow Cmd.memShow 0
  | memMasterShow : IsMailbox .memMasterShow Cmd.memMasterShow 0
  | memMapShow : IsMailbox .memMapShow Cmd.memMapShow 0
  | memClear : IsMailbox .memClear Cmd.memClear 0
  | memInject : IsMailbox .memInject Cmd.memInject 12
  | svcShow : IsMailbox .svcShow Cmd.svcShow 0
  | svcStage : IsMailbox .svcStage Cmd.svcStage 5
  | svcInstall : IsMailbox .svcInstall Cmd.svcInstall 0
  | svcRemove : IsMailbox .svcRemove Cmd.svcRemove 2
  | svcStart : IsMailbox .svcStart Cmd.svcStart 3
  | svcStop : IsMailbox .svcStop Cmd.svcStop 2
  | svcInstanceShow : IsMailbox .svcInstanceShow Cmd.svcInstanceShow 2
  | svcCoreDrain : IsMailbox .svcCoreDrain Cmd.svcCoreDrain 1
  | svcCoreAdmit : IsMailbox .svcCoreAdmit Cmd.svcCoreAdmit 1
  | svcDataPut : IsMailbox .svcDataPut Cmd.svcDataPut 9
  | cpwrShow : IsMailbox .cpwrShow Cmd.cpwrShow 1
  | cpwrCapsSet : IsMailbox .cpwrCapsSet Cmd.cpwrCapsSet 8
  | cpwrRequest : IsMailbox .cpwrRequest Cmd.cpwrRequest 8
  | cpwrAnswer : IsMailbox .cpwrAnswer Cmd.cpwrAnswer 2
  | cpwrSwap : IsMailbox .cpwrSwap Cmd.cpwrSwap 2
  | cpwrHardreset : IsMailbox .cpwrHardreset Cmd.cpwrHardreset 2
  | cpwrModeEnter : IsMailbox .cpwrModeEnter Cmd.cpwrModeEnter 2
  | cpwrMuxSet : IsMailbox .cpwrMuxSet Cmd.cpwrMuxSet 2
  | cpwrDiscoverShow : IsMailbox .cpwrDiscoverShow Cmd.cpwrDiscoverShow 2
  | cpwrMsgSend : IsMailbox .cpwrMsgSend Cmd.cpwrMsgSend 4
  | cpwrMsgRecv : IsMailbox .cpwrMsgRecv Cmd.cpwrMsgRecv 1
  | ppathShow : IsMailbox .ppathShow Cmd.ppathShow 0
  | ppathBayShow : IsMailbox .ppathBayShow Cmd.ppathBayShow 1
  | ppathBayPower : IsMailbox .ppathBayPower Cmd.ppathBayPower 2
  | ppathVbusShow : IsMailbox .ppathVbusShow Cmd.ppathVbusShow 1
  | ppathClear : IsMailbox .ppathClear Cmd.ppathClear 0
  | pstateSet : IsMailbox .pstateSet Cmd.pstateSet 4
  | pstateShow : IsMailbox .pstateShow Cmd.pstateShow 0
  | trustShow : IsMailbox .trustShow Cmd.trustShow 0
  | trustKeyShow : IsMailbox .trustKeyShow Cmd.trustKeyShow 1
  | trustKeyInstall : IsMailbox .trustKeyInstall Cmd.trustKeyInstall 36
  | trustKeyRevoke : IsMailbox .trustKeyRevoke Cmd.trustKeyRevoke 1
  | trustLifecycleAdvance : IsMailbox .trustLifecycleAdvance Cmd.trustLifecycleAdvance 236
  | trustRollbackAdvance : IsMailbox .trustRollbackAdvance Cmd.trustRollbackAdvance 1
  | trustIdShow : IsMailbox .trustIdShow Cmd.trustIdShow 0
  | trustAcuShow : IsMailbox .trustAcuShow Cmd.trustAcuShow 1
  | trustAcuSet : IsMailbox .trustAcuSet Cmd.trustAcuSet 24
  | trustAcuLogShow : IsMailbox .trustAcuLogShow Cmd.trustAcuLogShow 1
  | updShow : IsMailbox .updShow Cmd.updShow 0
  | updStage : IsMailbox .updStage Cmd.updStage 8
  | updVerify : IsMailbox .updVerify Cmd.updVerify 2
  | updActivate : IsMailbox .updActivate Cmd.updActivate 2
  | updRevert : IsMailbox .updRevert Cmd.updRevert 1
  | updCommit : IsMailbox .updCommit Cmd.updCommit 1
  | updKeymanPut : IsMailbox .updKeymanPut Cmd.updKeymanPut 4
  | recShow : IsMailbox .recShow Cmd.recShow 0
  | recFreeze : IsMailbox .recFreeze Cmd.recFreeze 1
  | recRead : IsMailbox .recRead Cmd.recRead 8
  | recReplay : IsMailbox .recReplay Cmd.recReplay 8
  | dbgShow : IsMailbox .dbgShow Cmd.dbgShow 1
  | dbgMemRead : IsMailbox .dbgMemRead Cmd.dbgMemRead 12
  | dbgMemWrite : IsMailbox .dbgMemWrite Cmd.dbgMemWrite 12

end Sys2Proof.Machine
end

