-- ==== Sys2Proof/Certificates/Slice0/Obligations.lean ====
section
/-! DEFINITION. The statements for the provers: what the commands do, family by family, with what each leaves unchanged; what every step
keeps; the rules of the spec that can be stated whole. A state is compared through `hush` (all but the delivery of events and the list of
outputs) and `still` (all but that and the reply), so that a clause that gives the state after a command is its frame as well. The list of
outputs (log entry 2) and the operands by which commands bring what the outside world gives (log entry 56) are the model's own. -/

open Sys2Proof Sys2Proof.Machine

/-- A step takes the command at the front of the queue and executes it on the state with the queue's rest; an empty queue idles (the
model's choice, log entry 1). -/
def Obligations.StepTakesTheFront : Prop :=
  (∀ (c : Instr) (rest : List Instr) (s : State), step { s with pending := c :: rest } = exec c { s with pending := rest })
  ∧ (∀ s : State, s.pending = [] → step s = .next s)

/-- Every command completes in every state and leaves the queue of waiting commands alone; while the hub has no power, only the commands
of its supply pins have an effect. -/
def Obligations.EveryCommandCompletes : Prop :=
  (∀ (c : Instr) (s : State), ∃ t, exec c s = .next t ∧ t.pending = s.pending)
  ∧ (∀ (c : Instr) (s : State), s.powered = false → (∀ a b, c ≠ .powerOnReset a b) → c ≠ .porstFall → c ≠ .railDeadlineMiss →
    c ≠ .railRestart → exec c s = .next { s with out := [] })

/-- The interconnect memory keeps its canonical form through every step. -/
def Obligations.MemoryStaysCanonical : Prop := ∀ s t : State, s.MemInv → step s = .next t → t.MemInv

/-- A fuse that is blown stays blown through every step: the positions of the life cycle, the contents and words of the key slots and the
anti-rollback fuses only gain ones (R479, R483, R486, R490). -/
def Obligations.FusesStayBlown : Prop := ∀ s t : State, step s = .next t →
  (∀ k, (nth s.trust.lc k 0) &&& (nth t.trust.lc k 0) = nth s.trust.lc k 0)
  ∧ (∀ k, ((s.slot k).content &&& (t.slot k).content) = (s.slot k).content ∧ ((s.slot k).word &&& (t.slot k).word) = (s.slot k).word)
  ∧ s.trust.rollback &&& t.trust.rollback = s.trust.rollback

/-- The state after reset, a power-on reset with the rails up and Fiddlehead started: no command waits, the memory is canonical and every
byte of it reads 0 (the model's choice, log entry 6), every OTP fuse is unblown, no event is queued, no handle is live, every channel's
mask enables all 192 events but DEBUG's, no role is applied, no link is up, the firmware does not run and no debugger holds a core.
Model's choices in its clauses, no rules of the spec: the values at which the spec gives no reset value (log entry 44). -/
def Obligations.ResetState : Prop :=
  State.reset.pending = [] ∧ State.reset.MemInv ∧ (∀ a, memRead State.reset.mem.cells a = 0)
  ∧ State.reset.lifecycle = 0 ∧ State.reset.rollbackCount = 0 ∧ (∀ k, State.reset.slotState k = 0)
  ∧ (∀ c, (State.reset.chan c).queue = [] ∧ (State.reset.chan c).lost = 0 ∧ (State.reset.chan c).jobs = []
    ∧ (State.reset.chan c).creds = [] ∧ (State.reset.chan c).stored = none ∧ (State.reset.chan c).attn = false)
  ∧ (State.reset.chan .loc).mask = BitVec.allOnes 192 ∧ (State.reset.chan .tun).mask = BitVec.allOnes 192
  ∧ (State.reset.chan .peer).mask = BitVec.allOnes 192 ∧ (State.reset.chan .dbg).mask = 0
  ∧ State.reset.time.tick = 0 ∧ State.reset.time.slot = 0 ∧ State.reset.boot.stage = 0 ∧ State.reset.powered = true
  ∧ State.reset.fwRuns = false ∧ State.reset.pins.mgtHalted = false ∧ State.reset.pins.halted = 0
  ∧ State.reset.topo.role = .none ∧ (∀ p, State.reset.role p = .none ∧ State.reset.linkUp p = false)
  ∧ State.reset.cfg.ovr = [] ∧ State.reset.cfg.store = [] ∧ State.reset.plan.contracts = [] ∧ State.reset.disp.streams = []

/-- Event queues (R54, R55, R56): an event enters every mailbox whose mask enables it and whose queue has room, at the place that R565 gives it;
a full queue drops it for that channel only and counts it, to 65,535; the recorder, while it records with LPDDR active, keeps it in its
ring in every case;
`sys.event.read` on a channel, once counted (R62), takes its entries, the count and the status word in one step, and an event after that
stays queued and sets ATTN again.
The order of events in a queue (R565): an event stands behind every event of another slot that was there, and among those of its own slot
in ascending number; a queue in that order stays so, and the other events keep theirs. -/
def Obligations.EventQueues : Prop :=
  (
  (∀ (s : State) (n arg : Nat) (c : Chan), c ∈ mailboxes →
    ((s.chan c).mask.getLsbD n = true → (s.chan c).queue.length < 255 →
      ((s.raise n arg).chan c).queue = enterEvent (s.event n arg) (s.chan c).queue ∧ ((s.raise n arg).chan c).attn = true
        ∧ ((s.raise n arg).chan c).lost = (s.chan c).lost)
    ∧ ((s.chan c).mask.getLsbD n = true → 255 ≤ (s.chan c).queue.length →
      ((s.raise n arg).chan c).queue = (s.chan c).queue ∧ ((s.raise n arg).chan c).lost = min 65535 ((s.chan c).lost + 1))
    ∧ ((s.chan c).mask.getLsbD n = false → (s.raise n arg).chan c = s.chan c))
  ∧ (∀ (s : State) (n arg : Nat), s.rcd.mode = 1 ∨ s.rcd.mode = 2 → s.mem.lpddr = .active → s.rcd.buffer = [] → 0 < ringCap s →
    ∃ e, (s.raise n arg).rcd.ring.head? = some e ∧ e.kind = 2 ∧ e.tick = s.time.tick ∧ e.slot = s.time.slot
      ∧ e.payload = eventBytes (s.event n arg))
  ∧ (∀ rq s, Admitted Cmd.sysEventRead 1 rq s → (∀ i, rq.via ≠ .gate i) → 1 ≤ arg rq 0 1 → arg rq 0 1 ≤ 63 →
    let q := (s.countLocal rq.via).chan (viaChan rq.via)
    ∃ t r, exec (.sysEventRead rq) s = .next t ∧ (t.chan (viaChan rq.via)).stored = some r ∧ Emit.reply rq.via r ∈ t.out
      ∧ r.status = t.status (viaChan rq.via)
      ∧ r.data = eventReply (arg rq 0 1) q.lost q.queue
      ∧ (t.chan (viaChan rq.via)).queue = q.queue.drop (arg rq 0 1) ∧ (t.chan (viaChan rq.via)).lost = 0))
  ∧ (∀ (e : EventEntry) (l : List EventEntry),
  let mine := fun (v : EventEntry) => v.tick == e.tick && v.slot == e.slot
  let sorted := fun (l : List EventEntry) => l.Pairwise fun a b => a.tick = b.tick → a.slot = b.slot → a.num ≤ b.num
  (sorted l → sorted (enterEvent e l))
  ∧ (enterEvent e l).filter (fun v => !mine v) = l.filter fun v => !mine v
  ∧ (enterEvent e l).Perm (e :: l)
  ∧ ((∀ v ∈ l, mine v = false) → enterEvent e l = l ++ [e]))

/-- The order in which every mailbox command is checked (Table 22.7; R49, R51, R52, R58, R66, R503, R560, R561): a duplicate gets its stored
reply again, without firmware there is RETRY_LATER and no stored reply, a request waits in the order of R49 while another is before it or a
debugger holds the management core, and each check that fails gives its result and changes nothing but the nonce that an open of a
credential or an advance of the life cycle uses up; a request with VALIDATE changes nothing but, for `cfg.record.apply`, its report.
A request that waits (R49): the one that is first in the order executes on its turn, when no debugger holds the management core; one further back
does not yet. -/
def Obligations.OrderOfChecks : Prop :=
  (∀ cmd row min, IsMailbox cmd row min → ∀ (rq : Req) (s : State),
  let c := viaChan rq.via
  let m := msgOf rq row.opcode
  let refuses := fun (rc : Rc) => Gives (cmd rq) s fun t => t.still = s.still ∧ t.Replied rq rc 0 []
  let turnsAway := fun (rc : Rc) => Gives (cmd rq) s fun t =>
    t.still = (if reqValidate rq then s else (s.turnedAway row rq rc).st).still ∧ t.Replied rq rc 0 []
  let fresh := (s.chan c).stored = none ∨ (s.chan c).isLast m = false ∨ reqHops rq ≠ 0
  s.awake = true → (s.mbx.waiting.any fun w => w.msg == m) = false →
  (∀ r, (s.chan c).stored = some r → (s.chan c).isLast m = true → reqHops rq = 0 →
    Gives (cmd rq) s fun t => t.still = s.still ∧ Emit.reply rq.via r ∈ t.out)
  ∧ (fresh → s.fwRuns = false → Gives (cmd rq) s fun t => t.still = s.still ∧ (t.chan c).stored = none
      ∧ ∃ r, Emit.reply rq.via r ∈ t.out ∧ r.tag = rq.tag ∧ r.result = Rc.retryLater.code ∧ r.data = [])
  ∧ (fresh → s.fwRuns = true → s.pins.mgtHalted = true ∨ s.mbx.waiting ≠ [] →
    Gives (cmd rq) s fun t => t.mbx.waiting = enterWait ⟨m, s.time.tick, s.time.slot, none⟩ s.mbx.waiting
      ∧ (t.chan c).stored = (s.chan c).stored ∧ ∀ via r, Emit.reply via r ∉ t.out)
  ∧ (fresh → s.fwRuns = true → s.pins.mgtHalted = false → s.mbx.waiting = [] →
    (c = .dbg → s.lifecycle = 5 → refuses .locked)
    ∧ ((c ≠ .dbg ∨ s.lifecycle ≠ 5) →
      (1024 < rq.payload.length → refuses .badLength)
      ∧ (rq.payload.length ≤ 1024 → reqHops rq = 7 → refuses .badState)
      ∧ (rq.payload.length ≤ 1024 → reqHops rq = 0 →
        (s.reqLevel rq = none → turnsAway .badHandle)
        ∧ (∀ l, s.reqLevel rq = some l →
          ((l < row.level ∨ (row.chans ≠ [] ∧ c ∉ row.chans)) → turnsAway .denied)
          ∧ (row.level ≤ l → (row.chans = [] ∨ c ∈ row.chans) → rq.payload.length < min → turnsAway .badLength)
          ∧ (reqValidate rq = true → row.opcode ≠ Cmd.cfgRecordApply.opcode →
            Gives (cmd rq) s fun t => t.still = s.still))))))
  ∧ (∀ cmd row min, IsMailbox cmd row min → ∀ (rq : Req) (s : State) (w : Wait) (rest : List Wait),
  let m := msgOf rq row.opcode
  s.awake = true → s.mbx.waiting = w :: rest →
  (w.msg = m → s.pins.mgtHalted = false → w.late = none → (viaChan rq.via ≠ .dbg ∨ s.lifecycle ≠ 5) → rq.payload.length ≤ 1024 →
      reqHops rq = 0 → s.reqLevel rq = none → reqValidate rq = true →
    Gives (cmd rq) s fun t => t.mbx.waiting = rest ∧ t.Replied rq .badHandle 0 [])
  ∧ ((w.msg = m ∧ s.pins.mgtHalted = true) ∨ (w.msg ≠ m ∧ (rest.any fun v => v.msg == m) = true) →
    Gives (cmd rq) s fun t => t = s.begin))

/-- The timebase loses its reference, coasts and gets it back (R41, R42): the whole effect of REFCLK_LOSS_DETECT, of HOLDOVER_EXPIRY after
HOLDOVER_TICKS with no link, no training and no port that has ended bring-up, and of REFCLK_RESTORED where it stopped no port.
An UP port that has heard no time-sync cell for SYNC_TIMEOUT_TICKS is LOST with a phase step due, and says so once (R37); the step
takes the master's count at this hub's tick boundary, once a SYNC has brought it, and changes no tick's phase (R43, Table 2.4).
Model's choices in its clauses, no rules of the spec: that a timer's command before its time changes nothing, and how a time is counted in
ticks (log entry 55); what becomes of a port that had ended bring-up at rate T (log entry 64). -/
def Obligations.TimebaseAndAlignment : Prop :=
  (∀ s : State, s.awake = true →
  (s.time.holdover = 0 →
    Gives .refclkLossDetect s fun t =>
      t.hush = ({ s with time := { s.time with
        holdover := 1, hoTicks := 0, refLosses := satAdd 32 s.time.refLosses 1 } } : State).hush ∧ Heard 1 s t 14 0)
  ∧ (s.time.holdover = 1 → s.cv Fld.HOLDOVER_TICKS ≤ s.time.hoTicks →
      (∀ p < 2, (s.link p).state = 0 ∧ (s.cpx p).step = 0 ∧ s.bringupOver p = false) →
    Leaves .holdoverExpiry s { s with time := { s.time with holdover := 2 } })
  ∧ (s.time.holdover = 1 → s.time.hoTicks < s.cv Fld.HOLDOVER_TICKS → Leaves .holdoverExpiry s s)
  ∧ (s.time.holdover ≠ 0 → (∀ p < 2, (s.cpx p).heldOff = false) →
    Leaves .refclkRestored s { s with time := { s.time with holdover := 0, hoTicks := 0 } }))
  ∧ (∀ (s : State) (p : Nat), s.awake = true → p < 2 →
  ((s.alignOf p).align ≠ .notUp → (s.alignOf p).align ≠ .lost → s.cv Fld.SYNC_TIMEOUT_TICKS ≤ (s.alignOf p).sinceSync →
    Gives (.timeSyncTimeout p) s fun t =>
      t.hush = (s.setAlign p fun a => { a with align := .lost, relock := 0, stepDue := true }).hush ∧ Heard 1 s t 13 0)
  ∧ ((s.alignOf p).align ≠ .notUp → (s.alignOf p).sinceSync < s.cv Fld.SYNC_TIMEOUT_TICKS → Leaves (.timeSyncTimeout p) s s)
  ∧ ((s.alignOf p).stepDue = true → (p = 1 → (s.alignOf 0).stepDue = false) → s.time.slot = 0 → s.time.masterKnown = true →
      s.time.ports.length = 2 →
    Gives .timebasePhaseStep s fun t => t.time.tick = s.time.masterTick ∧ t.time.slot = s.time.slot
      ∧ (t.alignOf p).stepDue = false ∧ (t.alignOf p).relock = 0 ∧ t.topo = s.topo ∧ t.plan = s.plan ∧ t.mem = s.mem)
  ∧ (s.time.masterKnown = false → Leaves .timebasePhaseStep s s))

/-- At its slot the hub freezes demand, builds and sends plans (R33, R34, R167, R169, R209, R214, R215): what each slot of Table 2.2 leaves.
CP1's plans are CP0's, so the clauses say it for either port with no plan due at the other. A TICK and a DEMAND cell go out twice, each with
its tag and counter value, or with the trailer of R159.
The planner's refresh and its lapses, each told once (R233). -/
def Obligations.SlotsOfTheTick : Prop :=
  (∀ (s : State) (p : Nat), s.ticking → p < 2 →
  let cell := fun kind bs => withHcrc (ownCell kind bs)
  let l := s.link p
  (s.time.slot = 31 → s.role 0 ≠ .up → s.role 1 ≠ .up →
    Gives .demandFreeze s fun t => t.time = s.time
      ∧ (⟨s.time.tick.toNat + 2, (upTo 12).flatMap fun j => (upTo 8).map fun c => s.depth j c
          + if s.topo.role == .relay && s.role j == .down then nth s.sw.cutLast (swIdx j c) 0 else 0⟩ : Frozen) ∈ t.plan.frozen
      ∧ t.plan.contracts = s.plan.contracts ∧ t.cable = s.cable ∧ t.sw = s.sw)
  ∧ (s.time.slot = 31 → s.role p = .up → s.role (1 - p) ≠ .up → s.plans p = true →
    Gives .demandFreeze s fun t => ∃ pre a b, t.out = pre ++ [.cell p none (cell 5 (demandPayload (s.freeze.report p))) a,
      .cell p none (cell 5 (demandPayload (s.freeze.report p))) b])
  ∧ (s.time.slot = 40 → s.isMaster p = true → s.plans p = true → s.isMaster (1 - p) = false → l.demand = none →
    Leaves .lanePlanStart s (s.fixTick p (s.time.tick + 2)))
  ∧ (s.time.slot = 120 → s.pwr.next = none →
    Gives .localPlanStart s fun t => ∃ lp : LocalPlan, lp.target = s.time.tick.toNat + 1
      ∧ t.hush = ({ s with
          pwr := { s.pwr with planned := none }, plan := { s.plan with shadow := some lp, due := false } } : State).hush)
  ∧ (s.time.slot = 200 → s.isMaster p = true → s.plans p = true → s.isMaster (1 - p) = false → s.cable.links.length = 2 →
      ∀ pl, l.planFor (s.time.tick.toNat + 2) = some pl →
    (l.sealed = false →
      Says .tickCellSend s s (List.replicate 2 (.cell p none (cell 4 (tickPayload pl)) (plainTrailer (cell 4 (tickPayload pl))))))
    ∧ (l.sealed = true →
      Says .tickCellSend s (s.setLink p fun l => { l with tx := { l.tx with counter := l.tx.counter + 2 } })
        ((upTo 2).map fun i => .cell p none (cell 4 (tickPayload pl)) (ownTag l.tx.key (l.tx.counter + i) (cell 4 (tickPayload pl))))))
  ∧ (s.time.slot = 240 → s.role p = .up → s.plans p = true → s.role (1 - p) ≠ .up → l.planFor (s.time.tick.toNat + 2) = none →
    Leaves .tickCellDeadline s
      ((s.setLink p fun l => { l with plan2 := some (s.ownFixedPlan p (s.time.tick.toNat + 2)) }).setLink p fun l => { l with
        missed := true, missedCnt := satAdd 32 l.missedCnt 1 }))
  ∧ (s.time.slot = 249 → s.plan.shadow = none →
    Gives .localPlanDeadline s fun t => t.hush = s.hush ∧ Heard 1 s t 12 0))
  ∧ (∀ s : State, s.awake = true →
  Leaves .plannerRefresh s { s with plan := { s.plan with silent := 0, autonomy := 0, lapse := 0 } }
  ∧ (8 ≤ s.plan.silent → s.plan.lapse < 8 → Gives .plannerRefreshLapse s fun t =>
      t.hush = ({ s with plan := { s.plan with lapse := 8 } } : State).hush ∧ Heard 1 s t 58 0)
  ∧ ((s.plan.silent < 8 ∨ 8 ≤ s.plan.lapse) → Leaves .plannerRefreshLapse s s)
  ∧ (64 ≤ s.plan.silent → s.plan.lapse ≠ 64 → s.fwRuns = false → Gives .plannerHoldExpiry s fun t =>
      t.hush = ({ s with
        plan := { s.plan with lapse := 64 }
        fault := { s.fault with planHold := true } } : State).hush ∧ Heard 1 s t 59 0)
  ∧ (64 ≤ s.plan.silent → s.plan.lapse ≠ 64 → s.fwRuns = true → s.fault.log = [] → Gives .plannerHoldExpiry s fun t =>
      (∃ e ∈ t.fault.log, e.code = 7 ∧ e.action = actMgt ∧ e.tick = s.time.tick ∧ e.slot = s.time.slot)
      ∧ t.plan.silent = s.plan.silent ∧ t.boot.mgtReset = true ∧ t.fault.resetCause = 7)
  ∧ ((s.plan.silent < 64 ∨ s.plan.lapse = 64) → Leaves .plannerHoldExpiry s s))

/-- What the planner's commands set (R205, R222, R226, R237, Table 8.11).
What the planner's `.show` commands answer (R237, Table 8.11), changing nothing.
Model's choices in its clauses, no rules of the spec: that a new or changed shaper starts full (log entry 21). -/
def Obligations.PlannerCommands : Prop :=
  (
  Answers .planBudgetSet Cmd.planBudgetSet 4 (fun _ _ => True)
    (fun rq _ => if 2000 ≤ arg rq 0 4 ∧ arg rq 0 4 ≤ 14500 then .ok else .okClamped)
    (fun rq s => { s with cfg := { s.cfg with
      ovr := (s.cfg.ovr.filter fun o =>
          !(o.layer == 0 && o.ty == Fld.BUDGET_CEILING_MW.ty && o.id == Fld.BUDGET_CEILING_MW.id))
        ++ [⟨0, Fld.BUDGET_CEILING_MW.ty, Fld.BUDGET_CEILING_MW.id, max 2000 (min 14500 (arg rq 0 4)), 0⟩] } }) (fun _ _ => [])
  ∧ Does .planShaperSet Cmd.planShaperSet 12
      (fun rq s => arg rq 0 1 ≤ 11 ∧ arg rq 1 1 ≤ 7 ∧ s.plan.shaperSet.length < 32)
      (fun rq s => { s with plan := { s.plan with
        shaperSet := (s.plan.shaperSet.filter fun h => !(h.outp == arg rq 0 1 && h.tc == arg rq 1 1))
          ++ if arg rq 4 4 = 0 then [] else [⟨arg rq 0 1, arg rq 1 1, arg rq 4 4, arg rq 8 2, arg rq 8 2 * 256⟩] } })
      (fun _ _ => [])
  ∧ Fails .planShaperSet Cmd.planShaperSet 12 (fun rq _ => 11 < arg rq 0 1 ∨ 7 < arg rq 1 1) .badState
  ∧ Does .planContractClear Cmd.planContractClear 2 (fun rq s => arg rq 0 2 ≠ 0xFFFF ∧ ∃ c ∈ s.plan.contracts, c.id = arg rq 0 2)
      (fun rq s => { s with
        plan := { s.plan with contracts := s.plan.contracts.filter fun c => c.id != arg rq 0 2 }
        cable := { s.cable with
          links := s.cable.links.map fun l => { l with
            table := l.table.map fun (e : PathEntry) => if e.contract == arg rq 0 2 then { e with bound := false } else e }
          paths := s.cable.paths.map fun r => if r.contract == arg rq 0 2 && r.port.isNone then { r with bound := false } else r } })
      (fun _ _ => [])
  ∧ Does .planContractClear Cmd.planContractClear 2 (fun rq _ => arg rq 0 2 = 0xFFFF)
      (fun _ s => { s with
        plan := { s.plan with contracts := [] }
        cable := { s.cable with
          links := s.cable.links.map fun l => { l with
            table := l.table.map fun (e : PathEntry) =>
              if s.plan.contracts.any (fun c => e.contract == c.id) then { e with bound := false } else e }
          paths := s.cable.paths.map fun r =>
            if (s.plan.contracts.any fun c => r.contract == c.id) && r.port.isNone then { r with bound := false } else r } })
      (fun _ _ => [])
  ∧ Fails .planContractClear Cmd.planContractClear 2
      (fun rq s => arg rq 0 2 ≠ 0xFFFF ∧ ∀ c ∈ s.plan.contracts, c.id ≠ arg rq 0 2) .badHandle
  ∧ Does .planContractSet Cmd.planContractSet 24
      (fun rq s => contractOk (s.parseContract rq.payload) = true ∧ (∀ c ∈ s.plan.contracts, c.id ≠ arg rq 0 2)
        ∧ s.plan.contracts.length < 256
        ∧ s.capacityTest (s.plan.contracts ++ [s.parseContract rq.payload]) (s.parseContract rq.payload) = true
        ∧ s.energyTest (s.plan.contracts ++ [s.parseContract rq.payload]) = true)
      (fun rq s => { s with plan := { s.plan with contracts := s.plan.contracts ++ [s.parseContract rq.payload] } })
      (fun rq _ => leBytes 2 (cellsOf (arg rq 8 4)) ++ leBytes 2 (cellsOf (arg rq 12 4)))
  ∧ Fails .planContractSet Cmd.planContractSet 24 (fun rq s => contractOk (s.parseContract rq.payload) = false) .badState)
  ∧ (
  Shows .planBudgetShow Cmd.planBudgetShow 0 (fun _ _ => True) (fun _ s =>
    leBytes 4 s.pPd ++ leBytes 4 s.pFeed ++ leBytes 4 s.pCeiling ++ leBytes 4 (s.pTh / 1000) ++ leBytes 4 s.eAvail
      ++ leBytes 4 s.plan.inForce.energy ++ leBytes 4 s.plan.deficit ++ leInt 2 (max (-32768) (min 32767 s.headroom.1))
      ++ leBytes 1 s.headroom.2 ++ leBytes 1 (min 255 s.plan.autonomy))
  ∧ Shows .planShow Cmd.planShow 2 (fun rq s => arg rq 0 1 ≤ 11 ∧ arg rq 1 1 = 1 ∧ s.plan.shadow = none) (fun _ _ => [])
  ∧ Shows .planShow Cmd.planShow 2 (fun rq s => arg rq 0 1 ≤ 11 ∧ arg rq 1 1 = 0
        ∧ nth s.plan.inForce.outs (arg rq 0 1) .reset = .reset ∧ s.plan.drrDc = List.replicate 96 0)
      (fun _ s => leBytes 1 s.plan.inForce.capStep ++ leBytes 1 s.plan.inForce.enStep ++ [1, 0]
        ++ ((upTo 8).flatMap fun _ => leBytes 2 0xFFFF) ++ ((upTo 8).flatMap fun _ => leBytes 2 1)
        ++ zeros 16 ++ zeros 4 ++ leBytes 8 (3 * 2 ^ 52 + 0x76543210 * 2 ^ 16))
  ∧ Shows .planContractShow Cmd.planContractShow 2
      (fun rq s => ∃ c, s.plan.contracts = [c] ∧ c.id = arg rq 0 2)
      (fun _ s => s.plan.contracts.flatMap fun c => contractBytes c ++ leBytes 1 c.state ++ zeros 3 ++ leBytes 2 c.gAlong
        ++ leBytes 2 c.gBack ++ leBytes 8 c.above ++ leBytes 2 (s.boundPaths c))
  ∧ Fails .planContractShow Cmd.planContractShow 2 (fun rq s => ∀ c ∈ s.plan.contracts, c.id ≠ arg rq 0 2) .badHandle
  ∧ Shows .planSampleShow Cmd.planSampleShow 3
      (fun rq s => arg rq 0 1 ≤ 11 ∧ arg rq 1 1 ≤ 7 ∧ arg rq 2 1 = 1 ∧
        ∃ x, s.plan.samples = [x] ∧ x.outp = arg rq 0 1 ∧ x.tc = arg rq 1 1 ∧ x.tick = s.time.tick - 1 ∧ x.delay ≠ none)
      (fun _ s => leBytes 4 (s.time.tick - 1).toNat ++ s.plan.samples.flatMap fun x =>
        leBytes 2 x.depth ++ leBytes 2 x.most ++ leBytes 4 (x.delay.getD 0))
  ∧ Shows .planCostShow Cmd.planCostShow 0 (fun _ _ => True) (fun _ _ =>
      [68, 40, 20, 45, 6, 1, 0, 9375, 4688, 15625, 37500, 5469, 7813, 15625, 9375, 900, 1100, 1300, 1500, 5, 12, 20, 31].flatMap
        (leBytes 4)))

/-- A port's training starts, fails and starts again (R125, R136, R139, R176): the lanes that are not retired go to TRAIN at step 1, the link falls to
BRINGUP and the port's role ends; all else is as before. While holdover has expired the port waits for its end (R42).
The steps of training that decide nothing about a lane (Table 5.6): DETECT with a receiver on every lane, and LINK_T when election, keys and
alignment are done. A step with the PHY sequencer out does nothing (R540).
Model's choices in its clauses, no rules of the spec: that a port in FLOOR that retrains closes its link with cause RETRAIN (log entry
35); the lane, the cause and the numbers that EV017 names where the spec gives none (log entry 67); that a timer's command before its time
changes nothing, and how a time is counted in ticks (log entry 55). -/
def Obligations.LaneTraining : Prop :=
  (∀ (s : State) (p : Nat), s.awake = true → p < 2 → s.phyOut p = false →
  let fresh := fun (t : State) => (((t.setCpx p fun c => { c with
      step := 1
      heldOff := false
      lanes := c.lanes.map fun (l : LaneSt) =>
        if l.state == .retired then l
        else { l with
          state := .train, rate := .none, use := if l.use == 3 || (l.state == .floor && !firmCause l.cause) then 0 else l.use
          fFwd := false, fRev := false, hTrained := false, turnHold := false, ready := none, capH := false, tx := .init, hist := []
          rx := .init, eqs := [.init, .init, .init] } }).setLink p fun l => { l.down with state := 1 }).roleEnds p)
  (s.linkUp p = false → s.bringupOver p = false → s.time.holdover ≠ 2 →
    Leaves (.laneTrainingStart p) s ((fresh s).setCpx p fun c => { c with restarts := 0 }))
  ∧ (s.linkUp p = false → s.bringupOver p = false → s.time.holdover = 2 →
    Leaves (.laneTrainingStart p) s (s.setCpx p fun c => { c with heldOff := true, restarts := 0 }))
  ∧ ((s.cpx p).step = 8 → s.passed (s.cpx p).since (msTicks 100) = true → s.time.holdover ≠ 2 →
    Leaves (.trainingRestartDelay p) s (fresh s) ∧ Leaves (.bringupRestart p) s (fresh s))
  ∧ (s.passed (s.cpx p).since (msTicks 100) = false →
    Leaves (.trainingRestartDelay p) s s ∧ Leaves (.bringupRestart p) s s)
  ∧ (((s.cpx p).lanes.any fun l => l.state == .floor) = true → s.passed (s.cpx p).floorAt (secTicks 1) = true → s.linkUp p = false →
      s.time.holdover ≠ 2 →
    Leaves (.floorRetrain p) s (fresh s))
  ∧ (s.passed (s.cpx p).floorAt (secTicks 1) = false → Leaves (.floorRetrain p) s s))
  ∧ (∀ (s : State) (p : Nat) (res : List LaneRes) (peer : PeerLane), s.awake = true → p < 2 →
  s.phyOut p = false → s.linkUp p = false →
  ((s.cpx p).step = 1 → (∀ r ∈ res, r.fwd = true) →
    Leaves (.trainingStepEnd p res peer) s (s.setCpx p fun c => { c with
      step := 2
      lanes := c.lanes.map fun (l : LaneSt) => if l.state == .off then { l with state := .train, rate := .none } else l }))
  ∧ ((s.cpx p).step = 3 → (s.link p).elected = true → (s.link p).keysIn = true → s.role p = .down → (s.link p).gen1 = false →
    Leaves (.trainingStepEnd p res peer) s (s.setCpx p fun c => { c with step := if s.maxH p then 5 else 4 }))
  ∧ ((s.cpx p).step = 4 → (∀ r ∈ res, r.fwd = true ∧ r.rev = true) → (∀ l ∈ (s.cpx p).lanes, l.state ≠ .train) →
    Leaves (.trainingStepEnd p res peer) s (s.setCpx p fun c => { c with step := 5 })))

/-- A lane turns around, comes back from L1X and slips (R114 to R118, R121, R128): the end that stops receiving keeps what its receiver has
adapted, within Table 5.8, the end that starts takes up what it keeps for the rate, and counts the turnaround. None takes place where the plan
has none, at G1, or under TURN_HOLD.
Re-calibration is asked for, held back, stepped and undone (R129 to R134, R138). A trigger counts only where its limit is passed, and a time only
when it has.
Model's choices in its clauses, no rules of the spec: that a timer's command before its time changes nothing, and how a time is counted in
ticks (log entry 55). -/
def Obligations.LaneStates : Prop :=
  (∀ (s : State) (p k : Nat), s.awake = true → p < 2 → k < 4 →
  let l := s.lane p k
  (∀ x, (s.link p).gen1 = false → s.turnsNow p k = true → l.forward = (s.txDir p == 1) →
    Leaves (.turnaround p k x) s (s.setLane p k fun l => { l with
      forward := !l.forward, rx := boundRx x, eqs := l.eqs.modify (rateIdx l.rate) fun e => { e with rx := boundRx x } }))
  ∧ (∀ x, (s.link p).gen1 = false → s.turnsNow p k = true → l.forward = (s.txDir p != 1) → rateIdx l.rate < 3 →
    Leaves (.turnaround p k x) s (s.setLane p k fun l => { l with
      forward := !l.forward, discard := false, rx := l.eq.rx, cnt := { l.cnt with turns := satAdd 32 l.cnt.turns 1 } }))
  ∧ (∀ x, ((s.link p).gen1 = true ∨ s.turnsNow p k = false) → Leaves (.turnaround p k x) s s)
  ∧ (l.state = .l0 → l.turnHold = true → s.turnsNow p k = false)
  ∧ (l.state = .l1x → (l.ready.any fun t => reached s.time.tick (t - 1)) = true →
    Leaves (.l1xComplete p k true) s (s.setLane p k fun l => { l with state := .l0s }))
  ∧ ((l.ready.any fun t => reached s.time.tick (t - 1)) = false → ∀ ok, Leaves (.l1xComplete p k ok) s s)
  ∧ (∀ cause, l.state = .l0 → l.slipTicks = [] → l.slipEv = none → 2 ≤ s.cv Fld.SLIP_LIMIT →
      (∀ x ∈ (s.link p).coach, x.lane ≠ k) → s.cutCoach p k = none → l.turnHold = false →
    Gives (.sosWindowMiss p k cause) s fun t =>
      t.hush = ({ (s.setLane p k fun l => { l with
          discard := true, slipTicks := [s.time.tick], slipEv := some s.time.tick
          cnt := { l.cnt with slips := satAdd 32 l.cnt.slips 1 } }) with
        sw := { s.sw with express := s.sw.express.modify p fun qs => qs.filter fun q => !(q.pending && q.coach == k) } } : State).hush
      ∧ Heard 1 s t (21 + 16 * p) (k + 4 * (cause % 4))))
  ∧ (∀ (s : State) (p k : Nat), s.awake = true → p < 2 → k < 4 →
  let l := s.lane p k
  let queued := fun (t : State) (trig : Nat) => t.setCpx p fun c => { c with
      queue := c.queue ++ [k]
      lanes := c.lanes.modify k fun l => { l with recal := some {
        trig := trig, force := false, restore := false, jobs := [], step := 0, atH := false, fwdOk := true, revOk := true,
        why := 0, since := s.time.tick, expired := false, micros := 0 } } }
  (∀ trig, s.recalTrips p k trig = true → laneServes l = true → l.state ≠ .train → s.linkUp p = true → (s.link p).gen1 = false →
      s.recalCond p k = true → l.recal = none →
    Gives (.recalTrigger p k trig) s fun t => t.hush = (queued s trig).hush ∧ Heard 1 s t (22 + 16 * p) (k + 16 * trig))
  ∧ (∀ trig, s.recalTrips p k trig = false → Leaves (.recalTrigger p k trig) s s)
  ∧ (∀ r, l.recal = some r → r.step = 0 → l.test = none → s.heldBack p k = true →
      s.passed r.since (msTicks (s.cv Fld.RECAL_DEFER_MS)) = true →
    Leaves (.recalDeferExpiry p k) s (s.setLane p k fun l => { l with recal := some { r with expired := true } }))
  ∧ (s.heldBack p k = false → Leaves (.recalDeferExpiry p k) s s)
  ∧ (∀ r res, s.phyOut p = false → l.state = .cal → l.recal = some r → r.step = 3 → s.recalCond p k = true → res.fwd = true →
      res.rev = true →
    Leaves (.recalStepEnd p k res) s (s.setLane p k fun l => { l with
      recal := some { r with micros := r.micros + res.micros, step := 4 } }))
  ∧ (s.recalCond p k = false → ∀ res, Leaves (.recalStepEnd p k res) s s)
  ∧ (s.cv Fld.LANE_RETRY_S ≠ 0 → s.passed (s.cpx p).retryAt (secTicks (s.cv Fld.LANE_RETRY_S)) = true → (s.link p).gen1 = false →
      (s.lane p 3).state = .retired → firmCause (s.lane p 3).cause = false → (s.lane p 3).recal = none →
      (∀ j < 3, (s.lane p j).state ≠ .retired) → (s.link p).state < 2 →
    Leaves (.laneRestoreRetry p) s ((s.setLane p 3 fun l => { l with state := .off, use := 0, ready := none }).setCpx p fun c =>
      { c with retryAt := s.time.tick }))
  ∧ ((s.cv Fld.LANE_RETRY_S = 0 ∨ s.passed (s.cpx p).retryAt (secTicks (s.cv Fld.LANE_RETRY_S)) = false) →
    Leaves (.laneRestoreRetry p) s s))

/-- The lane commands (R140, R141, R143).
The lane tests and the loss of the signal end (R139, R140): a test that has run its ticks leaves the lane to the plan, or back in L0 or FLOOR
where no plan governs it; before that it goes on.
Model's choices in its clauses, no rules of the spec: which number a handle gets (log entry 7); how a test that is cut off ends and when
one off the plan begins (log entry 67); that a lane that is OFF shows USE 3 (log entry 35). -/
def Obligations.LaneCommands : Prop :=
  (
  let ok := fun (rq : Req) => arg rq 0 1 ≤ 1 ∧ arg rq 1 1 ≤ 3
  let lane := fun (rq : Req) (s : State) => s.lane (arg rq 0 1) (arg rq 1 1)
  Shows .linkLaneShow Cmd.linkLaneShow 2 (fun rq _ => ok rq) (fun rq s =>
      let l := lane rq s
      leBytes 1 (laneCode l.state) ++ leBytes 1 (rateCode l.rate) ++ leBytes 1 (if l.state == .off then 3 else l.use)
        ++ leBytes 1 (packBits [l.eq.precTx, l.eq.precRx, l.hTrained, l.recal.any fun r => r.step == 0, l.turnHold])
        ++ leBytes 1 l.cause ++ zeros 1 ++ leBytes 2 l.flight
        ++ leBytes 8 l.cnt.rxSym ++ leBytes 8 l.cnt.corSym ++ leBytes 8 l.cnt.corCw ++ leBytes 8 l.cnt.uncCw
        ++ leBytes 4 l.cnt.turns ++ leBytes 4 l.cnt.slips ++ leBytes 4 l.cnt.l0s ++ leBytes 4 l.cnt.l1d ++ leBytes 4 l.cnt.recals
        ++ leBytes 4 l.cnt.fails ++ leInt 2 l.calTemp ++ zeros 2 ++ (upTo 5).flatMap (fun k => leInt 1 (nth l.eq.ffe k 0))
        ++ leBytes 1 l.rx.ctle ++ leBytes 1 l.rx.vga ++ leInt 1 l.rx.dfe ++ zeros 4)
  ∧ Starts .linkLanePrbs Cmd.linkLanePrbs 8
      (fun rq s => ok rq ∧ 1 ≤ arg rq 2 1 ∧ arg rq 2 1 ≤ 3 ∧ arg rq 3 1 ≤ 2 ∧ arg rq 4 2 ≠ 0 ∧ (lane rq s).test = none
        ∧ laneServes (lane rq s) = true ∧ (lane rq s).state ≠ .train)
      (fun rq s => s.setLane (arg rq 0 1) (arg rq 1 1) fun l => { l with test := some {
        pattern := arg rq 2 1, dir := arg rq 3 1, ticks := arg rq 4 2, force := bitAt (arg rq 6 2) 0,
        job := some (rq.via, (s.chan (viaChan rq.via)).freeHandle), stop := none, started := false, ran := 0,
        since := s.time.tick, expired := false } })
      (fun _ _ => none)
  ∧ Fails .linkLanePrbs Cmd.linkLanePrbs 8 (fun rq s => ok rq ∧ arg rq 2 1 = 0 ∧ (lane rq s).test = none) .badState
  ∧ Does .linkLaneInject Cmd.linkLaneInject 12
      (fun rq s => ok rq ∧ arg rq 2 1 = 3 ∧ (lane rq s).state = .l0 ∧ arg rq 4 4 ≠ 0)
      (fun rq s => s.setLane (arg rq 0 1) (arg rq 1 1) fun l => { l with inject := some ⟨3, arg rq 3 1, arg rq 4 4, arg rq 8 4, 0, 0⟩ })
      (fun _ _ => [])
  ∧ Does .linkLaneInject Cmd.linkLaneInject 12 (fun rq _ => ok rq ∧ arg rq 2 1 = 0)
      (fun rq s => s.setLane (arg rq 0 1) (arg rq 1 1) fun l => { l with inject := none }) (fun _ _ => [])
  ∧ Does .linkLaneClear Cmd.linkLaneClear 2 (fun rq _ => ok rq)
      (fun rq s => s.setLane (arg rq 0 1) (arg rq 1 1) fun l => { l with cnt := .init }) (fun _ _ => [])
  ∧ Starts .linkLaneRecal Cmd.linkLaneRecal 4
      (fun rq s => ok rq ∧ laneServes (lane rq s) = true ∧ (lane rq s).state ≠ .train ∧ (s.link (arg rq 0 1)).gen1 = false
        ∧ s.recalCond (arg rq 0 1) (arg rq 1 1) = true ∧ (lane rq s).recal = none)
      (fun rq s => s.setCpx (arg rq 0 1) fun c => { c with
        queue := c.queue ++ [arg rq 1 1]
        lanes := c.lanes.modify (arg rq 1 1) fun l => { l with recal := some {
          trig := 5, force := bitAt (arg rq 2 1) 0, restore := false
          jobs := [(rq.via, (s.chan (viaChan rq.via)).freeHandle)], step := 0, atH := false, fwdOk := true, revOk := true,
          why := 0, since := s.time.tick, expired := false, micros := 0 } } })
      (fun _ _ => none)
  ∧ Does .linkLaneRetire Cmd.linkLaneRetire 4
      (fun rq s => ok rq ∧ arg rq 2 1 = 0 ∧ (lane rq s).state ≠ .retired ∧ (lane rq s).recal = none ∧ (lane rq s).test = none
        ∧ (s.link (arg rq 0 1)).state = 0)
      (fun rq s => s.setLane (arg rq 0 1) (arg rq 1 1) fun l => { l.gone s.time.tick with cause := causeCommand })
      (fun _ _ => [])
  ∧ Does .linkLaneRestore Cmd.linkLaneRestore 2
      (fun rq s => ok rq ∧ (lane rq s).state = .retired ∧ bitAt (s.applied (laneMaskFld (arg rq 0 1))) (arg rq 1 1) = true
        ∧ (s.link (arg rq 0 1)).state < 2)
      (fun rq s => s.setLane (arg rq 0 1) (arg rq 1 1) fun l => { l with state := .off, use := 0, ready := none }) (fun _ _ => []))
  ∧ (∀ (s : State) (p k : Nat), s.awake = true → p < 2 → k < 4 →
  (∀ t0 counts, (s.lane p k).test = some t0 → t0.started = true → t0.job = none → t0.stop = none → t0.ticks ≤ t0.ran →
      (s.lane p k).rate ≠ .g1 → (s.lane p k).rate ≠ .t →
    Leaves (.prbsTestEnd p k counts) s (s.setLane p k fun l => { l with test := none, inject := none, ready := some s.readyTick }))
  ∧ (∀ t0 counts, (s.lane p k).test = some t0 → t0.started = true → t0.job = none → t0.stop = none → t0.ticks ≤ t0.ran →
      (s.lane p k).rate = .g1 ∨ (s.lane p k).rate = .t →
    Leaves (.prbsTestEnd p k counts) s (s.setLane p k fun l => { l with
      test := none, inject := none, ready := none, state := if l.rate = .g1 then .l0 else .floor }))
  ∧ (∀ t0 counts, (s.lane p k).test = some t0 → t0.stop = none → t0.ran < t0.ticks → Leaves (.prbsTestEnd p k counts) s s)
  ∧ (s.linkUp p = true → s.phyOut p = false → s.cable.links.length = 2 →
    Gives (.signalLoss p) s fun t => (t.link p).state = 1 ∧ (t.link p).cause = 1 ∧ Heard 1 s t (23 + 16 * p) 0))

/-- The cells that a cable port receives (R147, R148, R152, R157, R158, R166 to R170): a cell that fails costs its coach and the lane hunts for two
headers in a row; cells with no entry or of an unlisted pairing are counted and stand in their coach; cells ahead of their path's SEQ are kept; a
coach passes or fails by its tag; plans, demand reports and time stamps are taken.
Model's choices in its clauses, no rules of the spec: that the counter of the cell received and the key it used are operands (log entry
66). -/
def Obligations.CellsReceived : Prop := ∀ (s : State) (p k : Nat) (c : Cell) (errs : List Nat) (ctr : Nat) (old : Bool) (tag : List Byte),
  s.awake = true → p < 2 → k < 4 →
  let l := s.link p
  let x : RxCell := ⟨k, ctr, old, c⟩
  let arrive : Instr := .cellReceive p k c errs ctr old tag
  let whole := (s.lane p k).discard = false ∧ cellOk c = true ∧ ∀ e ∈ errs, e ≤ 15
  let reads := whole ∧ l.huntOf k = none
  let plain : Cell :=
    if l.sealed then { c with payload := gcmCrypt ((l.rxKey old).take 32) (nonceOf (l.rxKey old) ctr) 0 c.payload } else c
  let joined := fun (u : State) => { (u.setLink p fun l => { l with coach := l.coach ++ [x] }) with
    sw := { s.sw with pendCoach := s.sw.pendCoach.modify p (· + 1) } }
  let first := c.kind ≤ 1 ∧ l.keysIn = true ∧ s.coachRx p k = [] ∧ c.cidx = 0 ∧ nth s.sw.pendCoach p 0 < 64
  let ahead := fun (f : FlowSt) => 0 < (c.seq + 4096 - f.rxNext) % 4096 ∧ (c.seq + 4096 - f.rxNext) % 4096 < 2048
  let held := fun (u : State) (f : FlowSt) => u.setLink p fun l => l.setFlow c.path fun g => { g with
    rxHeld := g.rxHeld ++ [plain], heldAt := if f.rxHeld.isEmpty then s.slotNow else g.heldAt }
  ((s.lane p k).discard = true → Leaves arrive s s)
  ∧ ((s.lane p k).discard = false → (cellOk c = false ∨ ∃ e ∈ errs, 15 < e) → s.coachRx p k = [] → s.cutCoach p k = none →
      s.expressOf p k = [] →
    Leaves arrive s (s.setLink p fun l => l.setHunt k (some none)))
  ∧ (whole → l.huntOf k = some none →
    Leaves arrive s (if c.kind = 0 ∨ c.kind = 7 then s.setLink p fun l => l.setHunt k (some (some (x, tag))) else s))
  ∧ (reads → 2 ≤ c.kind → kindOk c = false → Leaves arrive s (s.setLink p fun l => { l with hdrErrs := l.hdrErrs + 1 }))
  ∧ (reads → first → kindOk c = false → Leaves arrive s (joined (s.setLink p fun l => { l with hdrErrs := l.hdrErrs + 1 })))
  ∧ (reads → first → kindOk c = true → c.path ≠ 2 → l.entry c.path = none →
    Leaves arrive s (joined (s.setLink p fun l => { l with noEntry := l.noEntry + 1 })))
  ∧ (∀ f, reads → first → kindOk c = true → c.path = 2 → l.flow 2 = some f → ahead f → Leaves arrive s (held (joined s) f))
  ∧ (∀ e f, reads → first → kindOk c = true → c.path ≠ 2 → l.entry c.path = some e → e.suspended = false → e.tc = c.tc →
      l.flow c.path = some f → ahead f →
    Leaves arrive s (held (joined s) f))
  ∧ (reads → c.kind = 2 → kindOk c = true → l.sealed = true → tag ≠ ownTag (l.rxKey old) ctr c →
    Leaves arrive s (s.setLink p fun l => { l with authTick := bumpTick s.time.tick l.authTick, tagFails := satAdd 64 l.tagFails 1 }))
  ∧ (s.coachRx p k = [] → Leaves (.coachReceive p k tag) s s)
  ∧ (∀ y, s.coachRx p k = [y] → y.cell.kind = 1 → y.cell.poison = false → tag.length = 16 → s.coachOk p k tag = true →
      s.cutCoach p k = none → l.sealed = false →
    Leaves (.coachReceive p k tag) s ({ (s.setLink p fun l => { l with coach := l.coach.filter fun z => z.lane != k }) with
      sw := { s.sw with
        express := s.sw.express.modify p fun qs => qs.map fun q => if q.coach == k then { q with pending := false } else q
        voqs := s.sw.voqs.map fun v =>
          if v.inp == p then { v with cells := v.cells.map fun q =>
            if q.pending && q.coach == k then { q with pending := false } else q } else v
        pendCoach := s.sw.pendCoach.modify p (· - 1) } }))
  ∧ (∀ y, s.coachRx p k = [y] → y.cell.kind = 1 → y.cell.poison = false → tag.length = 16 → s.coachOk p k tag = true →
      s.cutCoach p k = none → l.sealed = true →
    Gives (.coachReceive p k tag) s fun t => (t.coachRx p k) = [] ∧ (t.link p).tagFails = l.tagFails
      ∧ (∀ v ∈ t.sw.voqs, v.inp = p → ∀ q ∈ v.cells, q.coach = k → q.pending = false)
      ∧ (y.old = false → (t.link p).rx.counter = if p < s.cable.links.length then max l.rx.counter (y.ctr + 1) else l.rx.counter))
  ∧ (∀ y, s.coachRx p k = [y] → y.cell.kind = 1 → tag.length = 16 → s.coachOk p k tag = false → s.cable.links.length = 2 →
      s.cutCoach p k = none → l.flow y.cell.path = none →
    Gives (.coachReceive p k tag) s fun t => (t.coachRx p k) = [] ∧ (t.link p).tagFails = satAdd 64 l.tagFails 1
      ∧ (t.link p).authTick = bumpTick s.time.tick l.authTick
      ∧ ∀ v ∈ t.sw.voqs, v.inp = p → ∀ q ∈ v.cells, q.coach = k → q.pending = false)
  ∧ (∀ e f, s.linkUp p = true → 16 ≤ e.label → l.flow e.label = some f → e.nak = false → f.unacked = [] →
    Leaves (.creditCell p [e]) s ((s.setLink p fun l => l.setFlow e.label fun f => { f with limit := e.limit % 65536 }).setLink p
      fun l => l.setFlow e.label fun f => { f with ackSeq := e.ack % 4096 }))
  ∧ (∀ pl, s.role p = .up → l.gen1 = false → s.planOk p pl = true → pl.target = s.time.tick.toNat + 2 →
      l.planFor pl.target = none → s.time.slot ≤ 240 →
    Leaves (.tickCell p pl) s ({ (s.setLink p fun l => { l with sinceTick := 0, masterLost := false }) with
      topo := { s.topo with depth := min 15 (pl.depth + 1) } } |>.setLink p fun l => { l with plan2 := some pl }))
  ∧ (∀ pl, s.planOk p pl = false → Leaves (.tickCell p pl) s s)
  ∧ (∀ d, s.isMaster p = true → s.time.slot ≤ 40 → d.laneReq = [] →
    Leaves (.demandCell p d) s (s.setLink p fun l => { l with demand := some d }))
  ∧ (∀ d, 40 < s.time.slot → Leaves (.demandCell p d) s s)
  ∧ (∀ lane a b c' t1 t2, lane < 4 → l.gen1 = false → s.role p = .down →
    Leaves (.timeSyncCell p 1 lane a b c' t1 t2) s (s.setLink p fun l => { l with sync := (a, b, c', t1) }))
  ∧ (∀ lane a b c' t1 t2, lane < 4 → l.gen1 = false → s.role p = .up → b ≠ 0 → l.sync.2.2.1 ≠ 0 →
    let u := { (s.setAlign p fun y => { y with
        sinceSync := 0
        meas := some (((l.sync.2.1 - l.sync.1 - s.flightOf p l.syncLanes.1) - (b - l.sync.2.2.1 - s.flightOf p l.syncLanes.2)) / 2) }) with
      time := { (s.setAlign p fun y => { y with
        sinceSync := 0
        meas := some (((l.sync.2.1 - l.sync.1 - s.flightOf p l.syncLanes.1) - (b - l.sync.2.2.1 - s.flightOf p l.syncLanes.2)) / 2) }).time with
          masterTick := BitVec.ofNat 48 (a.toNat / (31250 * 64)), masterKnown := true } }
    SendsOwn (.timeSyncCell p 0 lane a b c' t1 t2) s
      (u.setLink p fun l => { l with sync := (a, t1, t2, 0), syncLanes := (lane, (s.legs p).2) }) p
      (ownCell 6 (syncPayload 1 (s.legs p).2 a t1 t2)))

/-- Election and key agreement (R18, R160, R171): the messages of a bring-up and their timeout.
Key rotation (R161): due when the interval has passed or the counter nears its end, asked for at both ends, acknowledged, taken at tick K, and
the old index kept until K + 2.
Model's choices in its clauses, no rules of the spec: the tick that KEY_NEXT names (log entry 35); the constants without a body for ML-DSA
and ML-KEM (log entry 4); that a timer's command before its time changes nothing, and how a time is counted in ticks (log entry 55). -/
def Obligations.ElectionAndKeys : Prop :=
  (∀ (s : State) (p : Nat), s.awake = true → p < 2 →
  let l := s.link p
  (∀ h, (s.cpx p).step = 3 → l.elected = false → s.role p = .none → h.gen = 2 → h.never = true → h.depth ≠ 0 →
      s.topo.role = .hostside → s.neverMaster = false → s.identityMissing = false → s.cable.links.length = 2 →
      s.topo.portRole.length = 2 →
    Gives (.hello p h) s fun t => t.role p = .down ∧ (t.link p).peer = some h ∧ (t.link p).elected = true
      ∧ (t.link p).electTick = s.time.tick ∧ Told t p ctlElect [0, 1] []
      ∧ Told t p ctlHello [2, s.topo.role.code, 0, 0, l.ownRand, s.linkKeyid, beNat s.deviceId, nth s.topo.ends 4 0, nth s.topo.ends 5 0,
          nth s.topo.ends 6 0] []
      ∧ Told t p ctlKeyInit [] (t.link p).keyInit ∧ (t.link p).keyInit ≠ [])
  ∧ (∀ d, (s.cpx p).step = 3 → l.elected = false → s.topo.role = .relay → (∀ q, s.role q ≠ .up) → l.gen1 = false →
    Gives (.elect p d (d + 1)) s fun t =>
      t.hush = ({ ((s.setRole p .up).setLink p fun l => { l with
          elected := true, electTick := s.time.tick, keySince := s.time.tick }) with
        topo := { (s.setRole p .up).topo with depth := d + 1 }
        time := { s.time with reference := 1 + p, masterKnown := false } }
          |>.setAlign p fun _ => { AlignSt.init with align := .lost, stepDue := true }).hush
      ∧ Heard 1 s t 15 0)
  ∧ (∀ bs, s.role p = .up → l.keysIn = false → (s.cpx p).step = 3 → s.identityMissing = false → s.cable.links.length = 2 →
      l.keyFails = 0 →
    let shared := ecdh ((s.newEcdh p).link p).ecdhKey (bs.take 97)
    Gives (.keyInit p bs) s fun t => t.topo = s.topo ∧ t.plan = s.plan ∧ t.sw = s.sw ∧ (t.link p).keySince = s.time.tick
      ∧ (∀ z, shared = some z → (t.link p).keyInit = bs ∧ Told t p ctlKeyResp [] (t.link p).keyResp
        ∧ ∃ m, (t.link p).prk
          = prkOf bs (t.link p).keyResp z (if l.gen1 then [] else fitBytes 32 (Config.mlkemShared (slice 97 1184 bs) m)))
      ∧ (shared = none → (t.link p).keyFails = 1 ∧ (t.link p).keyResp = [] ∧ Heard 1 s t (31 + 16 * p) 0))
  ∧ (∀ bs z, s.role p = .down → l.keysIn = false → l.keyInit ≠ [] → l.keyResp = [] → s.cable.links.length = 2 →
      ecdh l.ecdhKey (bs.take 97) = some z →
    Gives (.keyResp p bs) s fun t => (t.link p).keyResp = bs
      ∧ (t.link p).prk = prkOf l.keyInit bs z (if l.gen1 then [] else fitBytes 32 (Config.mlkemDecaps l.kemSeed (slice 97 1088 bs)))
      ∧ (t.link p).keySince = s.time.tick ∧ t.topo = s.topo ∧ t.plan = s.plan ∧ t.sw = s.sw
      ∧ (s.linkPub = none → Told t p ctlKeyFinish [] (beBytes 4 0))
      ∧ (∀ k x, s.linkPub = some (k, x) → ∃ n, Told t p ctlKeyFinish [] (beBytes 4 s.linkKeyid
          ++ ecdsaSign (deriveScalar (s.slot k).bytes (labelBytes "LINK")) n (sha384 (l.keyInit ++ bs))
          ++ (if l.gen1 then [] else fitBytes 3309
            (Config.mldsaSign (deriveSeed (s.slot k).bytes (labelBytes "LINK")) (sha384 (l.keyInit ++ bs)))))))
  ∧ (∀ bs, l.keysIn = false → l.keyResp ≠ [] → s.finishOk p bs = true →
    Leaves (.keyFinish p bs) s (s.setLink p fun l => { l with
      keysIn := true, keyFails := 0
      tx := { index := 0, counter := 0, key := l.keyFor (s.txDir p) 0, since := s.time.tick, next := none, old := none }
      rx := { index := 0, counter := 0, key := l.keyFor (1 - s.txDir p) 0, since := s.time.tick, next := none, old := none } }))
  ∧ (∀ bs, l.keysIn = false → l.keyResp ≠ [] → s.finishOk p bs = false → s.role p = .up → l.keyFails = 0 →
    Gives (.keyFinish p bs) s fun t =>
      t.hush = (s.setLink p fun l => { l with keyFails := 1, keyInit := [], keyResp := [], keySince := s.time.tick }).hush
      ∧ Heard 1 s t (31 + 16 * p) 1)
  ∧ ((s.cpx p).step = 3 → l.elected = true → l.keysIn = false → s.passed l.keySince (msTicks 10) = true → s.role p = .up →
      l.keyFails = 0 →
    Gives (.keyAgreementTimeout p) s fun t =>
      t.hush = (s.setLink p fun l => { l with keyFails := 1, keyInit := [], keyResp := [], keySince := s.time.tick }).hush
      ∧ Heard 1 s t (31 + 16 * p) 2)
  ∧ (s.passed l.keySince (msTicks 10) = false → Leaves (.keyAgreementTimeout p) s s))
  ∧ (∀ (s : State) (p : Nat), s.awake = true → p < 2 →
  let l := s.link p
  let rotated := s.setLink p fun l => { l with tx := { l.tx with next := some (l.tx.index + 1, s.time.tick + 4, false) } }
  let asks := [s.txDir p, l.tx.index + 1, (s.time.tick + 4).toNat]
  let due := s.passed l.tx.since (secTicks (s.rotateS p)) = true ∨ 2 ^ 32 - 2 ^ 20 ≤ l.tx.counter
  (l.keysIn = true → l.tx.counter < 2 ^ 32 → l.tx.next = none → due → s.cable.links.length = 2 →
    Tells (.keyRotationStart p) s rotated p ctlKeyNext asks [])
  ∧ (l.tx.counter < 2 ^ 32 → ¬due → Leaves (.keyRotationStart p) s s)
  ∧ (l.keysIn = true → 2 ^ 32 ≤ l.tx.counter → s.phyOut p = false → s.cable.links.length = 2 →
    Gives (.keyRotationStart p) s fun t => (t.link p).state = 1 ∧ (t.link p).cause = 4)
  ∧ (∀ i k, l.keysIn = true → l.tx.next = none → s.cable.links.length = 2 →
    Tells (.keyNext p (s.txDir p) i k) s rotated p ctlKeyNext asks [])
  ∧ (∀ d i k, l.keysIn = true → d ≠ s.txDir p →
    Tells (.keyNext p d i k) s (s.setLink p fun l => { l with rx := { l.rx with next := some (i, k, true) } }) p ctlKeyNextAck [d, i] [])
  ∧ (∀ i k a, l.tx.next = some (i, k, a) →
    Leaves (.keyNextAck p (s.txDir p) i) s (s.setLink p fun l => { l with tx := { l.tx with
      next := l.tx.next.map fun n => if n.1 == i then (n.1, n.2.1, true) else n } }))
  ∧ (∀ i k, l.rx.next = none → l.tx.next = some (i, k, true) → (s.time.tick - k).toNat < 2 ^ 47 →
    Leaves (.keyEffectiveTick p) s (s.setLink p fun l => { l with tx := {
      index := i, counter := 0, key := l.keyFor (s.txDir p) i, since := k, next := none, old := none } }))
  ∧ (∀ i k a, l.rx.next = some (i, k, a) → l.tx.next = none → (s.time.tick - k).toNat < 2 ^ 47 →
    Leaves (.keyEffectiveTick p) s (s.setLink p fun l => { l with rx := {
      index := i, counter := 0, key := l.keyFor (1 - s.txDir p) i, since := k, next := none, old := some (l.rx.key, k) } }))
  ∧ Leaves (.keyIndexRetire p) s (s.setLink p fun l => { l with rx := { l.rx with
      old := l.rx.old.bind fun o => if (s.time.tick - (o.2 + 2)).toNat < 2 ^ 47 then none else some o } }))

/-- Paths are set up, answered, refused and torn down (R149, R151, R175).
Model's choices in its clauses, no rules of the spec: that a timer's command before its time changes nothing, and how a time is counted in
ticks (log entry 55). -/
def Obligations.PathMessages : Prop := ∀ (s : State) (p id label : Nat), s.awake = true → p < 2 →
  (∀ tc hops dst cut con cr, s.linkUp p = true → (s.link p).entry label = none → s.cable.setups = [] → s.cable.paths = [] → hops ≤ 1 →
      (dst < 2 ∨ 11 < dst) →
    Tells (.pathSetup p id label tc hops dst cut con cr) s s p ctlPathNack [id, 3] [])
  ∧ (∀ hops dst cut cr own, s.linkUp p = true → (s.link p).entry label = none → 16 ≤ label → s.cable.setups = [] → s.cable.paths = [] →
      hops ≤ 1 → 2 ≤ dst → dst ≤ 11 → s.portEnd dst = 1 → s.initCredit p 2 = some own →
    Gives (.pathSetup p id label 2 hops dst cut 0 cr) s fun t => Told t p ctlPathAck [id, label, own] [])
  ∧ (∀ (x : Setup) cr q l, s.cable.setups = [x] → x.port = p → x.label = label → x.id = id → x.up = some (q, l) → x.entry.contract = 0 →
    Tells (.pathAck p id label cr) s (({ s with cable := { s.cable with setups := [] } }).install p x.entry cr) q ctlPathAck
      [id, l, x.credit] [])
  ∧ (∀ (x : Setup) r q l, s.cable.setups = [x] → x.port = p → x.id = id → x.up = some (q, l) →
    Tells (.pathNack p id r) s (({ s with cable := { s.cable with setups := [] } }).uninstall q l) q ctlPathNack [id, r] [])
  ∧ (s.cable.setups = [] → s.cable.paths = [] → (∀ e, (s.link p).entry label = some e → e.egress < 2 ∧ e.egress ≠ p) →
    Gives (.pathTeardown p label) s fun t => (t.link p).entry label = none
      ∧ ∀ e, (s.link p).entry label = some e → Told t e.egress ctlTeardown [e.outLabel] [])
  ∧ ((s.link p).holding = true → s.linkUp p = false → (s.link p).table = [] →
      s.passed (s.link p).closedAt (msTicks (s.link p).pathHoldMs) = true →
    Leaves (.pathHoldExpiry p) s (s.setLink p fun l => { l with holding := false }))
  ∧ (s.passed (s.link p).closedAt (msTicks (s.link p).pathHoldMs) = false → Leaves (.pathHoldExpiry p) s s)
  ∧ (∀ (x : Setup), s.cable.setups = [x] → x.port = p → x.label = label → x.up = none → s.cable.paths = [] →
      s.passed x.since (msTicks (s.cv Fld.FORWARD_TIMEOUT_MS)) = true →
    Tells (.pathSetupTimeout p label) s { s with cable := { s.cable with setups := [] } } p ctlTeardown [label] [])

/-- Other link-control messages (R136, R172 to R175): a notice of a restored lane in use, MASTER_QUERY answered with the latest plan, a chain
notice passed upward by a RELAY, an unknown type acknowledged, and LINK_CLOSE.
The timeouts of the link (R152, R153, R172, R176), none before its time.
Model's choices in its clauses, no rules of the spec: that a timer's command before its time changes nothing, and how a time is counted in
ticks (log entry 55). -/
def Obligations.LinkControl : Prop :=
  (∀ (s : State) (p : Nat), s.awake = true → p < 2 →
  (∀ k use, k < 4 → use < 3 → (s.lane p k).state ≠ .retired →
    Leaves (.laneNotice p k 1 use) s (s.setLane p k fun l => { l with use := use }))
  ∧ (∀ pl, s.isMaster p = true → (s.link p).plan2 = some pl → SendsOwn (.masterQuery p) s s p (ownCell 4 (tickPayload pl)))
  ∧ (∀ n u, s.role p = .down → s.topo.role = .relay → s.upPort = some u → u ≠ p → s.linkUp u = true → n.event = 0 →
    Gives (.chainNotice p n) s fun t => Told t u ctlChain (noticeFields n) [] ∧ (p, n) ∈ t.cable.notices)
  ∧ (∀ f, (s.link p).flows = [f] → f.label = 1 → f.tc = 7 →
    SendsOwn (.linkCtrlUnknown p) s (s.setLink p fun l => l.setFlow 1 fun f => { f with sinceCredit := 0 }) p
      (ownCell 3 (creditBytes [⟨1, false, s.ackOf p f, f.granted⟩])))
  ∧ (∀ cause, cause ≤ 255 → (s.link p).state ≠ 0 → s.phyOut p = false → s.cable.links.length = 2 →
    Gives (.linkClose p cause) s fun t => (t.link p).state = 1 ∧ (t.link p).cause = 7))
  ∧ (∀ (s : State) (p label : Nat), s.awake = true → p < 2 →
  (∀ f c, (s.link p).flow label = some f → f.rxHeld = [c] → lossless f.tc = true → f.heldAt + s.cv Fld.REORDER_NS / 125 ≤ s.slotNow →
    SendsOwn (.gapTimeout p label) s s p (ownCell 3 (creditBytes [⟨label, true, (s.ackOf p f + 1) % 4096, f.granted⟩])))
  ∧ (∀ f, (s.link p).flow label = some f → s.slotNow < f.heldAt + s.cv Fld.REORDER_NS / 125 → Leaves (.gapTimeout p label) s s)
  ∧ (∀ f u, (s.link p).flow label = some f → f.unacked = [u] → u.sends < s.cv Fld.REPLAY_LIMIT →
      s.passed u.tick (s.cv Fld.REPLAY_TIMEOUT_TICKS) = true →
    (label ≠ 1 → Leaves (.replayTimeout p label) s (s.setLink p fun l => l.setFlow label fun f => { f with again := [u.cell.seq] }))
    ∧ (label = 1 → SendsOwn (.replayTimeout p label) s (s.setLink p fun l =>
        { (l.setFlow 1 fun f => { f with
            again := f.again.filter (· != u.cell.seq)
            unacked := f.unacked.map fun w => if w.cell.seq == u.cell.seq then { w with sends := w.sends + 1, tick := s.time.tick } else w })
          with replayed := satAdd 64 l.replayed 1 }) p u.cell))
  ∧ (∀ f u, (s.link p).flow label = some f → f.unacked.head? = some u → s.passed u.tick (s.cv Fld.REPLAY_TIMEOUT_TICKS) = false →
    Leaves (.replayTimeout p label) s s)
  ∧ ((s.cpx p).step = 3 → s.bringupOver p = false → s.passed (s.link p).stepSince (msTicks 50) = true → (s.link p).restarts < 3 →
      s.cable.links.length = 2 → s.cable.cpx.length = 2 →
    Gives (.linkTTimeout p) s fun t => (t.cpx p).step = 8 ∧ (t.cpx p).since = s.time.tick
      ∧ (t.link p).restarts = (s.link p).restarts + 1 ∧ (t.link p).state = 1)
  ∧ (s.passed (s.link p).stepSince (msTicks 5) = false → s.passed (s.link p).stepSince (msTicks 50) = false → Leaves (.linkTTimeout p) s s)
  ∧ (s.role p = .up → s.linkUp p = true → (s.link p).gen1 = false → (s.link p).masterLost = false →
      (s.link p).masterLossTicks ≤ (s.link p).sinceTick →
    Gives (.masterLossTimeout p) s fun t =>
      t.hush = ((s.setLink p fun l => { l with masterLost := true, lostAt := (s.link p).sinceTick }).ctlSend p ctlMasterQuery [] []).hush
      ∧ Told t p ctlMasterQuery [] [] ∧ Heard 1 s t (26 + 16 * p) (min 65535 (s.link p).sinceTick))
  ∧ ((s.link p).sinceTick < (s.link p).masterLossTicks → Leaves (.masterLossTimeout p) s s)
  ∧ ((s.link p).masterLost = true → (s.link p).lostAt + 64 ≤ (s.link p).sinceTick → s.phyOut p = false → s.cable.links.length = 2 →
    Gives (.masterQueryTimeout p) s fun t => (t.link p).state = 1 ∧ (t.link p).cause = 5)
  ∧ ((s.link p).sinceTick < (s.link p).lostAt + 64 → Leaves (.masterQueryTimeout p) s s))

/-- The link's commands (Table 6.12, R151, R161, R179, R585).
Model's choices in its clauses, no rules of the spec: which number a handle gets (log entry 7); what path.show answers for a label above
4,095 (log entry 58). -/
def Obligations.LinkCommands : Prop :=
  Shows .linkShow Cmd.linkShow 1 (fun rq _ => arg rq 0 1 ≤ 1) (fun rq s =>
    let l := s.link (arg rq 0 1)
    let role := match s.role (arg rq 0 1) with
      | .up => 0
      | .down => 1
      | .none => 2
      | .ended => 3
      | .held => 2
    leBytes 1 l.state ++ leBytes 1 role ++ leBytes 1 s.topo.depth ++ leBytes 1 l.cause ++ leBytes 4 l.tx.index
      ++ leBytes 8 l.coaches ++ leBytes 8 l.tagFails ++ leBytes 8 l.poisoned ++ leBytes 8 l.replayed
      ++ leBytes 8 l.lost ++ leBytes 4 l.missedCnt ++ zeros 4)
  ∧ Shows .linkPlanShow Cmd.linkPlanShow 2
      (fun rq s => arg rq 0 1 ≤ 1 ∧ arg rq 1 1 ≤ 2 ∧ ((s.link (arg rq 0 1)).planFor (s.time.tick.toNat + arg rq 1 1)).isSome)
      (fun rq s => (((s.link (arg rq 0 1)).planFor (s.time.tick.toNat + arg rq 1 1)).map planBytes).getD [])
  ∧ Does .linkRekey Cmd.linkRekey 1
      (fun rq s => arg rq 0 1 ≤ 1 ∧ s.linkUp (arg rq 0 1) = true ∧ (s.link (arg rq 0 1)).tx.next = none
        ∧ (s.link (arg rq 0 1)).rx.next = none)
      (fun rq s =>
        let p := arg rq 0 1
        let l := s.link p
        let u := (s.setLink p fun l => { l with tx := { l.tx with next := some (l.tx.index + 1, s.time.tick + 4, false) } }).ctl p ctlKeyNext
          [s.txDir p, l.tx.index + 1, (s.time.tick + 4).toNat]
        u.ctl p ctlKeyNext [1 - s.txDir p, l.rx.index + 1, (s.time.tick + 4).toNat]) (fun _ _ => [])
  ∧ Fails .linkRekey Cmd.linkRekey 1 (fun rq s => arg rq 0 1 ≤ 1 ∧ s.linkUp (arg rq 0 1) = false) .badState
  ∧ (∀ rq s, Admitted Cmd.linkReset 1 rq s → s.jobRoom rq → arg rq 0 1 ≤ 1 → (s.link (arg rq 0 1)).resetJob = none →
      s.time.holdover ≠ 2 → s.phyOut (arg rq 0 1) = false → s.cable.links.length = 2 →
    ∃ t, exec (.linkReset rq) s = .next t ∧ (t.link (arg rq 0 1)).state = 1 ∧ (t.link (arg rq 0 1)).cause = 8)
  ∧ Starts .linkReset Cmd.linkReset 1
      (fun rq s => arg rq 0 1 ≤ 1 ∧ (s.link (arg rq 0 1)).resetJob = none ∧ s.time.holdover = 2) (fun _ s => s)
      (fun _ _ => some (Rc.hwFault.code, []))
  ∧ Fails .linkReset Cmd.linkReset 1 (fun rq s => arg rq 0 1 ≤ 1 ∧ (s.link (arg rq 0 1)).resetJob ≠ none) .busy
  ∧ Does .pathOpen Cmd.pathOpen 8
      (fun rq s => arg rq 1 1 = 0 ∧ s.pathOk (arg rq 0 1) 0 (arg rq 2 1) (arg rq 3 1) (arg rq 4 1) = true ∧ s.cable.paths = [])
      (fun rq s => { s with cable := { s.cable with paths := [
        { id := 1, src := arg rq 0 1, port := none, label := 0, hops := 0, chain := arg rq 2 1, dst := arg rq 3 1, tc := arg rq 4 1,
          cut := bitAt (arg rq 5 1) 0, contract := arg rq 6 2, phase := 1, owner := .command, job := none
          bound := s.plan.contracts.any fun c => c.id == arg rq 6 2 && contractMatches c (arg rq 0 1) (arg rq 3 1) (arg rq 4 1) }] } })
      (fun _ _ => [1, 0, 0, 0])
  ∧ Fails .pathOpen Cmd.pathOpen 8
      (fun rq s => arg rq 1 1 = 0 ∧ s.pathOk (arg rq 0 1) 0 (arg rq 2 1) (arg rq 3 1) (arg rq 4 1) = false) .badState
  ∧ Does .pathClose Cmd.pathClose 2 (fun rq s => ∃ r, s.pathById (arg rq 0 2) = some r ∧ r.port = none ∧ r.phase ≠ 0)
      (fun rq s => { s with cable := { s.cable with paths := s.cable.paths.filter fun r => r.id != arg rq 0 2 } }) (fun _ _ => [])
  ∧ Fails .pathClose Cmd.pathClose 2 (fun rq s => s.pathById (arg rq 0 2) = none) .badHandle
  ∧ Shows .pathShow Cmd.pathShow 4
      (fun rq s => arg rq 0 1 ≤ 1 ∧ arg rq 2 2 ≤ 4095 ∧ (s.link (arg rq 0 1)).entry (arg rq 2 2) = none) (fun _ _ => zeros 16)
  ∧ Shows .pathShow Cmd.pathShow 4
      (fun rq s => arg rq 0 1 ≤ 1 ∧ arg rq 2 2 ≤ 4095 ∧
        (∃ e, (s.link (arg rq 0 1)).entry (arg rq 2 2) = some e) ∧ ∃ f, (s.link (arg rq 0 1)).flow (arg rq 2 2) = some f)
      (fun rq s => match (s.link (arg rq 0 1)).entry (arg rq 2 2), (s.link (arg rq 0 1)).flow (arg rq 2 2) with
        | some e, some f => leBytes 8 (2 ^ 63 + b2n e.suspended * 2 ^ 62 + e.tc % 8 * 2 ^ 59 + e.egress % 16 * 2 ^ 55
            + e.outLabel % 4096 * 2 ^ 43 + b2n e.cut * 2 ^ 42 + e.contract % 4096 * 2 ^ 30 + e.initCredit % 65536)
            ++ leBytes 2 f.nextSeq ++ leBytes 2 f.ackSeq ++ leBytes 2 f.consumed ++ leBytes 2 f.limit
        | _, _ => [])

/-- A local cell is stored in its queue, a match with nothing waiting keeps its maxima, a starved queue becomes URGENT with EV051 (R190, R196,
R201, R204).
A cell that may be requested crosses the switch to a local port in one cell time, alone (R194, R195).
Model's choices in its clauses, no rules of the spec: when the low-water mark is taken and which buffer a cell gets (log entry 59). -/
def Obligations.SwitchCore : Prop :=
  (∀ s : State, s.awake = true →
  (∀ port cable c (o : OfferTo), s.offerTo port cable c.path = some o → 2 ≤ port → port ≤ 11 → s.plan.contracts = [] →
      s.admission port o.tc false = .minimum →
    Gives (.localCellOffer port cable c) s fun t => ∃ q ∈ (t.sw.voq port o.outp o.tc).cells,
      q.buf = s.sw.nextBuf ∧ q.len = c.len ∧ q.label = o.label ∧ q.first = c.first ∧ q.last = c.last ∧ q.payload = c.payload
        ∧ q.shared = false ∧ q.pending = false)
  ∧ (∀ slot room cut bank, s.sw.voqs = [] → s.sw.express = [[], []] →
    Gives (.cellTimeMatch slot room cut bank []) s fun t =>
      t.sw = { s.sw with maxCut := max s.sw.maxCut cut, bankWait := satAdd 64 s.sw.bankWait bank })
  ∧ (∀ i j c, s.cv Fld.STARVE_CELLS ≤ (s.sw.voq i j c).age → (s.sw.voq i j c).urgent = false →
      nth s.sw.evTicks 3 none ≠ some s.time.tick →
    Gives (.voqStarve i j c) s fun t =>
      t.hush = ({ s with sw := { s.sw.setVoq { s.sw.voq i j c with
        urgent := true, urgents := satAdd 32 (s.sw.voq i j c).urgents 1 } with
          evTicks := put s.sw.evTicks 3 (some s.time.tick) } } : State).hush
      ∧ Heard 1 s t 51 (i + 16 * j + 256 * c)))
  ∧ (∀ (s : State) (q : QCell) (v : Voq), s.awake = true →
  2 ≤ q.outp → q.outp ≤ 11 → q.inp ≤ 11 → q.tc ≤ 7 → q.pending = false → s.sw.voqs = [v] → v.inp = q.inp → v.outp = q.outp → v.tc = q.tc →
  v.cells = [q] → s.sw.express = [[], []] → s.sw.gp.length = 96 → s.sw.ap.length = 12 → s.wordFault (cellWord q.buf) = 0 →
  (((nth s.plan.inForce.outs q.outp .reset).gateAt s.time.slot).order.contains q.tc) = true →
  ((nth s.plan.inForce.outs q.outp .reset).gateAt s.time.slot).hold = false → s.classOpen q.outp q.tc = true →
  ∀ room, bitAt (nth room q.outp 0) q.tc = true →
    Gives (.cellTimeMatch s.time.slot room 0 0 []) s fun t =>
      (t.sw.voq q.inp q.outp q.tc).cells = [] ∧ Emit.toAdapter q.outp (outCell q) ∈ t.out)

/-- The switch core's commands (R203, Tables 7.4 and 7.5).
Model's choices in its clauses, no rules of the spec: when the low-water mark is taken (log entry 59); the free values (log entry 3). -/
def Obligations.SwitchCommands : Prop :=
  Shows .planSwitchShow Cmd.planSwitchShow 0 (fun _ _ => True) (fun _ s =>
    leBytes 2 s.poolSize ++ leBytes 2 s.poolFree ++ leBytes 2 (min s.sw.lowWater s.poolFree) ++ zeros 2
      ++ leBytes 2 (nth s.sw.replay 0 0) ++ leBytes 2 (nth s.sw.replay 1 0)
      ++ leBytes 4 (nth s.sw.pendCoach 0 0 + 65536 * nth s.sw.pendCoach 1 0)
      ++ leBytes 8 s.sw.cutCells ++ leBytes 8 s.sw.pieces ++ leBytes 8 s.sw.bankWait ++ leBytes 8 s.sw.matched
      ++ leBytes 4 s.sw.maxCut ++ zeros 4)
  ∧ Shows .planSwitchPortShow Cmd.planSwitchPortShow 1 (fun rq _ => arg rq 0 1 ≤ 11) (fun rq s => (upTo 8).flatMap fun c =>
      let k := nth s.sw.cnts (swIdx (arg rq 0 1) c) .init
      leBytes 8 k.cin ++ leBytes 8 k.cout ++ leBytes 4 k.cap ++ leBytes 4 k.full ++ leBytes 4 k.pushed ++ leBytes 2 k.ecn
        ++ leBytes 2 (s.chargedNow (arg rq 0 1) c))
  ∧ (∀ rq s, Admitted Cmd.planSwitchVoqShow 2 rq s → arg rq 0 1 ≤ 11 → arg rq 1 1 ≤ 11 → s.sw.voqs = [] →
    ∃ t, exec (.planSwitchVoqShow rq) s = .next t ∧ t.still = ({ s with free := s.free + 8 } : State).still ∧
      t.Replied rq .ok 0 (zeros 128 ++ (upTo 8).flatMap fun k => leBytes 8 (Config.freeValue (s.free + k))))
  ∧ Does .planSwitchClear Cmd.planSwitchClear 1 (fun rq _ => arg rq 0 1 ≤ 11)
      (fun rq s => { s with sw := { s.sw with
        cnts := (upTo 8).foldl (fun l c => put l (swIdx (arg rq 0 1) c) .init) s.sw.cnts
        voqs := s.sw.voqs.map fun v => if v.inp == arg rq 0 1 || v.outp == arg rq 0 1 then { v with urgents := 0, conns := 0 } else v } })
      (fun _ _ => [])
  ∧ Fails .planSwitchClear Cmd.planSwitchClear 1 (fun rq _ => 11 < arg rq 0 1 ∧ arg rq 0 1 ≠ 0xFF) .badState

/-- The capture end (R240, R243, R256): training within the advertisement, a line captured and sent as its chunk's cells, and the frame-skip factor
taken.
The panel and the regenerating end (R240, R244, R245, R250, R254, R258, R260): HPD falls; a chunk is held until its line is due, or is late; a frame
starts at its stamp + D; a line is shown live, from the store, or as the idle pattern; hold begins at the next frame start and ends after
its longest time.
Model's choices in its clauses, no rules of the spec: the codes and layouts of the DisplayPort standard (log entry 22); that a timer's
command before its time changes nothing, and how a time is counted in ticks (log entry 55). -/
def Obligations.DisplayStreams : Prop :=
  (∀ (s : State) (k : Nat), s.awake = true →
  (∀ rate lanes, s.isSink k = true → 1 ≤ rate → rate ≤ 7 - s.cv Fld.DISP_MAX_RATE → (lanes = 1 ∨ lanes = 2 ∨ lanes = 4) →
    Gives (.sinkLinkTraining k rate lanes) s fun t =>
      t.hush = (s.setDpx k fun d => { d with rate := rate, lanes := lanes }).hush
      ∧ Heard 1 s t 65 (k % 4 + (256 * rate + 4096 * lanes)))
  ∧ (∀ (index line stamp : Nat) (px : List Byte) x, s.isSink k = true →
      (s.disp.streams.find? fun x => x.capture && x.dpx == k && x.index == index && x.state != 0) = some x →
      s.capSuspended x = false → s.stream x.id = some x → x.k = 8 → 0 < px.length → px.length ≤ 4088 →
    Says (.captureLine k index none line stamp px [] []) s s
      [.chunk x.id (dataCells (s.labelOf (x.video.getD 0)) 6 (chunkBytes ⟨0, line, 0, stamp, px⟩))])
  ∧ (∀ q vs kk, (s.dpx k).rxSeen.contains q = false → 1 ≤ kk → kk ≤ 8 →
    Says (.skipReq k q vs kk) s ({ (s.setDpx k fun d => { d with rxSeen := (q :: d.rxSeen).take 128 }) with
      disp := { (s.setDpx k fun d => { d with rxSeen := (q :: d.rxSeen).take 128 }).disp with streams := s.disp.streams.map fun x =>
        if x.capture && x.dpx == k && x.dest.2.2.2 == vs then { x with k := kk, cleanFrames := 0 } else x } })
      [.control k (s.controlBytes ⟨q, 6, 0, 0, 0, [], s.time.tick, 0⟩)]))
  ∧ (∀ (s : State) (k id : Nat), s.awake = true →
  (∀ m lo hi n bs ws, s.isSource k = true → s.dpxTaken k = none → (∀ x ∈ s.disp.streams, x.dpx ≠ k) →
    Gives (.panelHpdChange k 0 m lo hi n bs ws) s fun t =>
      t.hush = (s.setDpx k fun d => { d with
        hpd := false, hpdFell := some s.time.tick, rate := 0, lanes := 0, presented := none }).hush ∧ Heard 1 s t 64 (k % 4))
  ∧ (∀ w, s.isSource k = true → (∀ x ∈ s.disp.streams, x.dpx ≠ k) → (s.dpx k).hpdFell = some w → s.passed w (msTicks 2) = true →
    Leaves (.panelHpdLossTimeout k) s ((s.setDpx k fun d => { d with hpdFell := none }).sendControl k 4 0 0 0 []))
  ∧ (∀ w, s.isSink k = true → (∀ x ∈ s.disp.streams, x.dpx ≠ k) → (s.dpx k).hpd = true → s.dpxTaken k = none →
      (s.dpx k).hpdFell = some w → s.passed w (msTicks 2) = true →
    Gives (.panelHpdLossTimeout k) s fun t =>
      t.hush = (s.setDpx k fun d => { d with hpd := false, hpdFell := some s.time.tick }).hush ∧ Emit.hpd k false false ∈ t.out
      ∧ Heard 1 s t 64 (k % 4))
  ∧ ((∀ w, (s.dpx k).hpdFell = some w → s.passed w (msTicks 2) = false) → Leaves (.panelHpdLossTimeout k) s s)
  ∧ (∀ x bytes, s.stream id = some x → x.capture = false → (parseChunk bytes).typ = 1 →
    Leaves (.chunkReceive id false bytes) s (s.setStream id fun x =>
      let x := { { x with lastChunk := s.time.tick } with chunks := x.chunks ++ [parseChunk bytes] }
      { x with highWater := max x.highWater (heldBytes x) }))
  ∧ (∀ x bytes, s.stream id = some x → x.capture = false → (parseChunk bytes).typ = 0 → s.isPast (x.dueAt (parseChunk bytes).stamp) = true →
      (∀ y ∈ s.disp.streams, y.id = id → y = x) →
    Leaves (.chunkReceive id false bytes) s (s.setStream id fun x => { x with lastChunk := s.time.tick, late := satAdd 32 x.late 1 }))
  ∧ (∀ x bytes, s.stream id = some x → x.capture = false →
    Leaves (.chunkReceive id true bytes) s (s.setStream id fun x => { x with audioIn := x.audioIn ++ [bytes] }))
  ∧ (∀ x d, s.disp.streams = [x] → x.id = id → x.capture = false → x.frameChunks = 0 → x.chunks = [] → x.holdNext = none → x.state = 1 →
      x.locked = true → x.desc = some d → x.k = 8 → x.interval = 0 → x.origin = none →
    Gives (.frameStart id) s fun t =>
      t.hush = (s.setStream id fun x => { x with state := 2, frameNo := (x.frameNo + 1) % 2 ^ 32, away := false }).hush
      ∧ Heard 1 s t 67 (x.dpx % 4 + id % 16 * 4 + 0))
  ∧ (∀ x d o, s.disp.streams = [x] → x.id = id → x.capture = false → x.frameChunks = 0 → x.chunks = [] → x.desc = some d →
      x.interval = 0 → x.origin = some o → x.step = 0 → d.adaptive = false →
    Gives (.frameStart id) s fun t => Emit.panelFrame x.dpx id (wrapStamp ((o : Int) + x.delay * 64)) d.vtotal 0 ∈ t.out)
  ∧ (∀ x line err need n, s.stream id = some x → x.capture = false → x.desc = none →
    Says (.lineDue id line err need n) s s [.panelLine x.dpx id line 3 [] false])
  ∧ (∀ x d line err need, s.disp.streams = [x] → x.id = id → x.capture = false → x.desc = some d → x.state = 3 → x.chunks = [] →
    Says (.lineDue id line err need 0) s (s.setStream id fun x => { x with
        frameChunks := x.frameChunks + lineChunks d, frameConc := x.frameConc + lineChunks d })
      [.panelLine x.dpx id line 2 ((s.keptBytes x line 0 (lineBytes d)).getD []) (s.overlaid x line)])
  ∧ (∀ x d c line err need, s.disp.streams = [x] → x.id = id → x.capture = false → x.desc = some d → x.state = 2 → x.away = false →
      x.chunks = [c] → c.typ = 0 → c.line = line → c.chunk = 0 → lineChunks d = 1 → s.isAhead (x.dueAt c.stamp) = false →
      Int.natAbs err ≤ 3200 → Int.natAbs need ≤ 2147483 → x.concEv = 0 →
    Gives (.lineDue id line err need 0) s fun t =>
      t.out = [.panelLine x.dpx id line 0 (fitBytes (min 4088 (lineBytes d)) c.data) (s.overlaid x line)]
      ∧ ∃ y, t.disp.streams = [y] ∧ y.id = id ∧ y.state = 2 ∧ y.chunks = [] ∧ y.frameChunks = x.frameChunks + 1 ∧ y.frameConc = x.frameConc
        ∧ (x.step = 0 → y.dco = need))
  ∧ (∀ x d c line err need, s.stream id = some x → x.capture = false → x.desc = some d → c ∈ x.chunks → c.typ = 0 → c.line = line →
      s.isAhead (x.dueAt c.stamp) = true →
    Leaves (.lineDue id line err need 0) s s)
  ∧ (Leaves (.holdGapExpiry id) s (s.setStream id fun x =>
      if !x.capture && x.state != 3 && s.passed x.lastChunk (usTicks (s.cv Fld.HOLD_GAP_US)) then { x with holdNext := some 0 } else x))
  ∧ (∀ x, s.stream id = some x → x.capture = false → x.state = 3 → x.inPort ≠ noPath → 0 < s.cv Fld.HOLD_MAX_S →
      s.passed x.holdAt (secTicks (s.cv Fld.HOLD_MAX_S)) = true →
    Gives (.holdMaxExpiry id) s fun t =>
      t.hush = ((s.setDpx x.dpx fun d => { d with d3 := true }).setStream id fun x => { x with state := 1 }).hush
      ∧ Emit.panelAux x.dpx 8 0x600 [2] ∈ t.out ∧ Heard 1 s t 73 (x.dpx % 4 + id % 16 * 4 + 512))
  ∧ (∀ x, s.stream id = some x → s.passed x.holdAt (secTicks (s.cv Fld.HOLD_MAX_S)) = false → Leaves (.holdMaxExpiry id) s s))

/-- AUX and the control messages (R251 to R254): answered from the mirror, refused, forwarded and deferred, performed, mirrored, acknowledged once
for each CSEQ and resent two ticks after the last sending.
Model's choices in its clauses, no rules of the spec: the codes of the DisplayPort standard and the points of the tunnel that log entry 22
names; that a timer's command before its time changes nothing, and how a time is counted in ticks (log entry 55). -/
def Obligations.AuxAndControl : Prop := ∀ (s : State) (k q : Nat), s.awake = true →
  let got := s.setDpx k fun d => { d with rxSeen := (q :: d.rxSeen).take 128 }
  let fresh := (s.dpx k).rxSeen.contains q = false
  let ack : Emit := .control k (s.controlBytes ⟨q, 6, 0, 0, 0, [], s.time.tick, 0⟩)
  (∀ len vs data, s.isSink k = true →
    Says (.auxTransaction k 1 0x50 len vs data) s (s.setDpx k fun d => { d with i2cOff := (d.i2cOff + len) % 256 })
      [.auxAnswer k 0 (s.mirrored k (edidBase + (2 * (s.dpx k).i2cSeg + (s.dpx k).i2cOff / 128)) ((s.dpx k).i2cOff % 128) len)])
  ∧ (∀ addr len vs data, s.isSink k = true → 0x68000 ≤ addr → addr ≤ 0x69FFF →
    Says (.auxTransaction k 9 addr len vs data) s s [.auxAnswer k 1 []])
  ∧ (∀ addr len vs data w r bs, s.isSink k = true → dpcdLocal addr = false → (addr < 0x68000 ∨ 0x69FFF < addr) →
      (s.dpx k).deferred = some w → w.cmd = 9 → w.addr = addr → w.answer = some (r, bs) →
    Says (.auxTransaction k 9 addr len vs data) s (s.setDpx k fun d => { d with deferred := none }) [.auxAnswer k r bs])
  ∧ (∀ addr len vs data, s.isSink k = true → dpcdLocal addr = false → (addr < 0x68000 ∨ 0x69FFF < addr) →
      (s.dpx k).deferred = none → s.paired k = false →
    Says (.auxTransaction k 9 addr len vs data) s (s.setDpx k fun d => { d with deferred := some ⟨9, addr, s.time.tick, none⟩ })
      [.auxAnswer k 3 []])
  ∧ (∀ cmd addr vs data, fresh → s.isSource k = true →
    Says (.auxReq k q cmd addr vs data) s (got.setDpx k fun d => { d with auxOut := d.auxOut ++ [⟨addr, vs, cmd == 8, none⟩] })
      [ack, .panelAux k cmd addr data])
  ∧ (∀ cmd addr vs data, ¬fresh → Says (.auxReq k q cmd addr vs data) s s [ack])
  ∧ (∀ x rest r data, (s.dpx k).auxOut = x :: rest → x.job = none → x.posted = true →
    Leaves (.panelAuxReply k r data) s (s.setDpx k fun d => { d with auxOut := rest }))
  ∧ (∀ r data, fresh →
    Says (.auxRep k q r data) s (got.setDpx k fun d => { d with
      deferred := d.deferred.map fun w => { w with answer := w.answer.or (some (r, data)) } }) [ack])
  ∧ (∀ addr data, fresh → s.isSink k = false → Says (.mirror k q addr data) s (got.setDpx k fun d => d.setBlock addr data) [ack])
  ∧ (fresh → (s.dpx k).hpd = true → s.dpxTaken k = none →
    Gives (.hpd k q false false) s fun t =>
      t.hush = (got.setDpx k fun d => { d with farHpd := false, hpd := false, hpdFell := some s.time.tick }).hush
      ∧ Heard 1 s t 64 (k % 4))
  ∧ Leaves (.controlAck k q) s (s.setDpx k fun d => { d with unacked := d.unacked.filter fun m => m.cseq != q })
  ∧ (∀ m, ((s.dpx k).unacked.find? fun m => m.cseq == q) = some m → s.passed m.tick 2 = true → m.resends < 8 →
    Says (.controlResendTimeout k q) s (s.setDpx k fun d => { d with unacked := d.unacked.map fun x =>
        if x.cseq == q then { x with resends := x.resends + 1, tick := s.time.tick } else x })
      [.control k (s.controlBytes m)])
  ∧ (∀ m, ((s.dpx k).unacked.find? fun m => m.cseq == q) = some m → s.passed m.tick 2 = true → 8 ≤ m.resends →
    Gives (.controlResendTimeout k q) s fun t =>
      t.hush = (s.setDpx k fun d => { d with unacked := d.unacked.filter fun x => x.cseq != q }).hush ∧ Heard 1 s t 75 (k % 4))
  ∧ (∀ m, ((s.dpx k).unacked.find? fun m => m.cseq == q) = some m → s.passed m.tick 2 = false → Leaves (.controlResendTimeout k q) s s)
  ∧ (∀ w, (s.dpx k).deferred = some w → w.answer = none → s.passed w.tick (usTicks (s.cv Fld.AUX_FWD_TIMEOUT_US)) = true →
    Gives (.auxFwdTimeout k) s fun t =>
      t.hush = (s.setDpx k fun d => { d with deferred := some { w with answer := some (1, []) } }).hush ∧ Heard 1 s t 75 (k % 4))
  ∧ (∀ w, (s.dpx k).deferred = some w → s.passed w.tick (usTicks (s.cv Fld.AUX_FWD_TIMEOUT_US)) = false → Leaves (.auxFwdTimeout k) s s)

/-- The display commands (Table 9.8, R241, R242, R251, R258, R259, R264).
Model's choices in its clauses, no rules of the spec: which number a handle gets (log entry 7). -/
def Obligations.DisplayCommands : Prop :=
  Shows .dispShow Cmd.dispShow 1 (fun rq s => arg rq 0 1 ≤ 3 ∧ ∀ x ∈ s.disp.streams, x.dpx ≠ arg rq 0 1) (fun rq s =>
      let d := s.dpx (arg rq 0 1)
      leBytes 1 (nth s.topo.ends (arg rq 0 1) 0) ++ leBytes 1 (b2n d.hpd) ++ leBytes 1 d.rate ++ leBytes 1 d.lanes
        ++ leBytes 1 0 ++ leBytes 1 0 ++ leBytes 1 d.lttprs ++ zeros 1 ++ leBytes 4 0)
  ∧ (∀ rq s p, Admitted Cmd.dispStreamOpen 16 rq s → s.jobRoom rq → arg rq 0 1 ≤ 3 → s.isSink (arg rq 0 1) = true → arg rq 1 1 ≤ 3 →
      arg rq 2 1 = 1 → arg rq 4 1 ≤ 3 → arg rq 5 1 ≤ 3 → arg rq 6 1 = 0 → arg rq 8 4 ≠ 0 → 1 ≤ arg rq 12 2 → arg rq 12 2 ≤ 4095 →
      nth (s.dpx (arg rq 0 1)).msa (arg rq 1 1) none = none → s.disp.streams = [] → s.plan.contracts = [] →
      s.pathPort (arg rq 3 1) = some p →
      (s.defineContract (s.mkContract (arg rq 12 2) 6 (arg rq 7 1) (2 + arg rq 0 1) p (arg rq 8 4) 64 16) false).rc = .ok →
      arg rq 8 4 * s.presDelay 1 ≤ 8000 * 524288 →
    ∃ t, exec (.dispStreamOpen rq) s = .next t ∧ t.Replied rq .accepted (s.chan (viaChan rq.via)).freeHandle []
      ∧ ∃ x, t.disp.streams = [x] ∧ x.id = 1 ∧ x.dpx = arg rq 0 1 ∧ x.index = arg rq 1 1 ∧ x.capture = true ∧ x.state = 0
        ∧ x.dest = (1, arg rq 3 1, arg rq 4 1, arg rq 5 1) ∧ x.along = arg rq 8 4 ∧ x.contract = arg rq 12 2)
  ∧ Does .dispStreamClose Cmd.dispStreamClose 2
      (fun rq s => ∃ x, s.disp.streams = [x] ∧ x.id = arg rq 0 2 ∧ x.capture = false ∧ x.inPort = noPath ∧ (x.stored = false))
      (fun rq s => s.dropStream (arg rq 0 2)) (fun _ _ => [])
  ∧ Fails .dispStreamClose Cmd.dispStreamClose 2 (fun rq s => s.stream (arg rq 0 2) = none) .badState
  ∧ Shows .dispStreamShow Cmd.dispStreamShow 2 (fun rq s => ∃ x, s.disp.streams = [x] ∧ x.id = arg rq 0 2) (fun _ s =>
      s.disp.streams.flatMap fun x => leBytes 1 x.state ++ leBytes 1 (b2n x.locked) ++ leBytes 1 x.k ++ zeros 1 ++ leBytes 4 x.delay
        ++ leBytes 8 ((x.desc.map (·.clock)).getD 0) ++ leInt 4 (x.dco * 1000000000 / 4294967296) ++ leBytes 4 x.late
        ++ leBytes 8 x.concealed ++ leBytes 4 x.skipped ++ leBytes 4 x.highWater)
  ∧ Does .dispHoldOverlay Cmd.dispHoldOverlay 16
      (fun rq s => arg rq 0 1 ≤ 3 ∧ s.isSource (arg rq 0 1) = true ∧ s.cv Fld.HOLD_REGION_MIB ≠ 0 ∧ arg rq 6 2 ≤ 3840 ∧ arg rq 8 2 ≤ 2160
        ∧ s.disp.streams = [] ∧ arg rq 12 4 + 4 * arg rq 6 2 * arg rq 8 2 ≤ 128 * mib)
      (fun rq s => s.setDpx (arg rq 0 1) fun d => { d with
        overlay := (arg rq 1 1 == 1, arg rq 2 2, arg rq 4 2, arg rq 6 2, arg rq 8 2, arg rq 12 4) }) (fun _ _ => [])
  ∧ Fails .dispHoldOverlay Cmd.dispHoldOverlay 16
      (fun rq s => arg rq 0 1 ≤ 3 ∧ s.isSource (arg rq 0 1) = true ∧ s.cv Fld.HOLD_REGION_MIB ≠ 0 ∧ 3840 < arg rq 6 2) .badLength
  ∧ Does .dispHoldEnter Cmd.dispHoldEnter 3 (fun rq s => arg rq 2 1 = 0 ∧ ∃ x, s.stream (arg rq 0 2) = some x ∧ x.capture = false)
      (fun rq s => s.setStream (arg rq 0 2) fun x => if x.state == 3 then x else { x with holdNext := some 2 }) (fun _ _ => [])
  ∧ Does .dispPairSet Cmd.dispPairSet 4
      (fun rq s => arg rq 0 1 ≤ 3 ∧ s.isSink (arg rq 0 1) = true ∧ arg rq 1 1 ≤ 6 ∧ arg rq 2 1 ≤ 1 ∧ arg rq 3 1 ≤ 3
        ∧ (s.dpx (arg rq 0 1)).farHpd = false)
      (fun rq s => s.setDpx (arg rq 0 1) fun d => { d with pair := some (arg rq 1 1, arg rq 2 1, arg rq 3 1) }) (fun _ _ => [])
  ∧ Starts .dispAuxXfer Cmd.dispAuxXfer 12
      (fun rq s => arg rq 0 1 ≤ 3 ∧ s.isSource (arg rq 0 1) = true ∧ 1 ≤ arg rq 8 1 ∧ arg rq 8 1 ≤ 16)
      (fun rq s => s.setDpx (arg rq 0 1) fun d => { d with auxOut := d.auxOut ++
        [⟨arg rq 4 4, 0, false, some (rq.via, (s.chan (viaChan rq.via)).freeHandle)⟩] }) (fun _ _ => none)
  ∧ Does .dispClear Cmd.dispClear 2 (fun rq s => arg rq 0 2 ≠ 0xFFFF ∧ s.stream (arg rq 0 2) ≠ none)
      (fun rq s => s.setStream (arg rq 0 2) fun x => { x with late := 0, concealed := 0, skipped := 0, highWater := 0 }) (fun _ _ => [])

/-- The virtual switch and the frames of its tunnels (R270, R272 to R276, R281, R282): configuration requests, TLPs in and out, credits and mirrored
registers.
The physical links (R272, R279, R282 to R285, R287): training, loss, PERST#, hot reset, PME_TO_Ack, in-band presence and old requests.
Model's choices in its clauses, no rules of the spec: the register places and layouts of the PCI Express standard and the points of the
tunnel that log entry 24 names; that a timer's command before its time changes nothing, and how a time is counted in ticks (log entry 55). -/
def Obligations.PcieTunnels : Prop :=
  (∀ s : State, s.awake = true →
  (∀ fn rid tag, s.pcieUp = true → s.fnPresent fn = true →
    Says (.configRequest fn .vendorId none rid tag) s s [.cpl 0 (s.fnId fn) rid tag 0 (leBytes 4 0x1E9B)])
  ∧ (∀ fn v rid tag, s.pcieUp = true → s.fnPresent fn = true → 1 ≤ fn → fn ≤ 16 →
    Says (.configRequest fn .memBase (some v) rid tag) s (s.setEnd (fn - 1) fun x => { x with memBase := v })
      [.cpl 0 (s.fnId fn) rid tag 0 []])
  ∧ (∀ fn reg w rid tag, s.pcieUp = true → s.fnPresent fn = false →
    Says (.configRequest fn reg w rid tag) s s [.cpl 0 (s.fnId 0) rid tag 1 []])
  ∧ (∀ (t : Tlp) errs reps, (s.pcLink 0).state = 2 → t.bad = false → t.data ≤ s.maxPayload 0 → t.pmeOff = false → t.route ≠ 3 → t.fc = 1 →
      s.pcie.f7.takes 16384 t = false → s.downFor t = none →
    Says (.tlpIngress 0 t errs reps 0) s (s.setPcLink 0 fun l => { l with
        tlpsIn := satAdd 64 l.tlpsIn 1, state := 2, rcvErrs := satAdd 32 l.rcvErrs errs, replays := satAdd 32 l.replays reps })
      [.cpl 0 (s.fnId 0) t.rid t.tag 1 []])
  ∧ (∀ (t : Tlp) b, (s.pcLink 0).state = 2 → t.bad = false → t.data ≤ s.maxPayload 0 → t.pmeOff = false → t.route ≠ 3 → t.fc = 0 →
      s.pcie.f7.takes 16384 t = false → s.downFor t = some b → 1 ≤ b → b ≤ 15 → (s.pcEnd b).state = 1 → (s.pcEnd b).held = [] →
      (s.pcEnd b).maySend t = true → s.pcie.bridges.length = 16 →
    Gives (.tlpIngress 0 t 0 0 0) s fun u => (u.pcEnd b).held = [] ∧ Emit.linkCredits 0 0 (dataCredits t) ∈ u.out)
  ∧ (∀ e br (t : Tlp), 16 ≤ e → e < 20 → s.frameOk e br = true → (s.pcEnd e).state = 1 → (s.pcEnd e).covered t = true →
      s.linkOpen e = true → (s.pcEnd e).egress = [] → (s.pcEnd e).held = [] → s.pcie.ports.length = 4 →
    Gives (.pcieTlpFrame e br t) s fun u => (u.pcEnd e).egress = [] ∧ (u.pcEnd e).bridge = br ∧ Emit.tlp (e - 15) t ∈ u.out)
  ∧ (∀ e (t : Tlp), e < 16 → (s.pcEnd e).state = 1 → (s.pcEnd e).covered t = false →
    Gives (.pcieTlpFrame e e t) s fun u =>
      u.hush = (s.setPcLink 0 fun l => { l with malformed := satAdd 32 l.malformed 1 }).hush ∧ Heard 1 s u 87 e)
  ∧ (∀ e br (t : Tlp), s.frameOk e br = false → Leaves (.pcieTlpFrame e br t) s s)
  ∧ (∀ e br ls, s.frameOk e br = true → (s.pcEnd e).state = 2 →
    Leaves (.pcieCreditFrame e br ls) s ((s.learnBridge e br).setEnd e fun x => { x with
      limits := (ls.take 6).map (· % 65536), first := if x.first.all (· == 0) then (ls.take 6).map (· % 65536) else x.first }))
  ∧ (∀ b cap sta slt, 1 ≤ b → b ≤ 15 → (s.pcEnd b).state = 1 → s.pcie.bridges.length = 16 →
    Gives (.pciePortStateFrame b b cap sta slt 0 0) s fun u => (u.pcEnd b).lnkCap = BitVec.ofNat 32 cap
      ∧ (u.pcEnd b).lnkSta = BitVec.ofNat 16 sta ∧ (u.pcEnd b).active = bitAt sta 13 ∧ (u.pcEnd b).presence = bitAt slt 6
      ∧ (u.pcEnd b).training = bitAt sta 11
      ∧ (u.pcEnd b).aerUnc = (s.pcEnd b).aerUnc ∧ (u.pcEnd b).aerCor = (s.pcEnd b).aerCor)
  ∧ (∀ dp bdg lnk slt dev br rt, dp ≤ 3 → s.frameOk (16 + dp) bdg = true → bitAt br 6 = false → bitAt lnk 5 = false →
      s.bayOfDp dp = none →
    Leaves (.pciePortCtrlFrame dp bdg lnk slt dev br rt) s (s.setEnd (16 + dp) fun x => { x with
      bridge := bdg, lnkCtl := s.linkControl lnk, sltCtl := BitVec.ofNat 16 slt, devCtl := BitVec.ofNat 16 dev,
      brCtl := BitVec.ofNat 16 br, bus := (rt / 256 % 256, 0, 0) }))
  ∧ (∀ e, e < 16 → (s.pcEnd e).state = 2 → s.endPathUp e = true → (s.pcEnd e).lostP = false → (s.pcEnd e).lostNp = false →
      s.pcie.bridges.length = 16 →
    Gives (.pcieResumeFrame e e 0) s fun u => (u.pcEnd e).state = 1 ∧ (u.pcEnd e).training = false ∧ (u.pcEnd e).resume = none)
  ∧ (∀ e, e < 16 → (s.pcEnd e).state = 2 → s.passed (s.pcEnd e).suspAt s.pcieHold = true → s.pcie.bridges.length = 16 →
    Gives (.pcieHoldExpiry e) s fun u => (u.pcEnd e).state = 3 ∧ (u.pcEnd e).active = false ∧ (u.pcEnd e).changed = true
      ∧ (u.pcEnd e).aerUnc = (s.pcEnd e).aerUnc ||| 0x20 ∧ (u.pcEnd e).held = [] ∧ Heard 1 s u 84 (e + 16))
  ∧ (∀ e, s.passed (s.pcEnd e).suspAt s.pcieHold = false → Leaves (.pcieHoldExpiry e) s s))
  ∧ (∀ s : State, s.awake = true →
  (∀ k, 1 ≤ k → k ≤ 4 → (s.pcLink k).state = 4 → s.passed (s.pcLink k).resetAt (msTicks 2) = true → (s.pcEnd (15 + k)).state = 0 →
    Says (.hotResetEnd k) s ({ s with pcie := { s.pcie with bifur := s.cv Fld.PCIE_BIFURCATION } } |>.setPcLink k fun l => { l with
      state := 1, maxSpeed := s.cv Fld.PCIE_MAX_SPEED }) [.pcieTrain k])
  ∧ (∀ k, s.passed (s.pcLink k).resetAt (msTicks 2) = false → Leaves (.hotResetEnd k) s s)
  ∧ (∀ k rate width, k ≤ 4 → (s.pcLink k).state = 1 → (k = 0 ∨ (s.pcLink k).perst = false) → 1 ≤ rate → rate ≤ s.linkMaxRate k →
      1 ≤ width → width ≤ s.linkWidth k → s.pcie.links.length = 5 →
    Gives (.pciePhysLinkTrained k rate width) s fun t => (t.pcLink k).state = 2 ∧ (t.pcLink k).rate = rate ∧ (t.pcLink k).width = width
      ∧ (t.pcLink k).present = true ∧ Heard 1 s t 80 (k + 16 * rate + 256 * width))
  ∧ (∀ k pres, 1 ≤ k → k ≤ 4 → (s.pcLink k).state ≠ 0 → s.pcie.links.length = 5 →
    Gives (.pciePhysLinkDown k pres) s fun t => (t.pcLink k).state = 0 ∧ (t.pcLink k).present = pres ∧ Heard 1 s t 81 k)
  ∧ ((s.pcLink 0).state ≠ 0 →
    Gives .upstreamPerst s fun t => (t.pcLink 0).state = 0 ∧ t.pcie.up = .init ∧ t.pcie.f7 = .init ∧ t.pcie.netFn = .init
      ∧ t.pcie.pmeWait = none ∧ Heard 1 s t 81 0)
  ∧ (∀ e r, e < 16 → (s.pcEnd e).table = [r] → (s.pcEnd e).agedTick = none → s.cv Fld.CPL_AGE_MS ≠ 0 →
      msTicks (s.cv Fld.CPL_AGE_MS) < tickDiff s.time.tick r.tick →
    Gives (.cplAgeCheck e) s fun t => t.hush = (s.setEnd e fun x => { x with agedTick := some s.time.tick }).hush
      ∧ Heard 1 s t 86 (e + 65536 * min 65535 (tickDiff s.time.tick r.tick / 32)))
  ∧ (∀ w, s.pcie.pmeWait = some w → s.passed w (msTicks 10) = true →
    Says .pmeToAckTimeout s { s with pcie := { s.pcie with pmeWait := none } } [.pmeAck])
  ∧ (∀ w, s.pcie.pmeWait = some w → s.passed w (msTicks 10) = false → Leaves .pmeToAckTimeout s s)
  ∧ (∀ k pres, k ≤ 3 → ((s.bayOfDp k).isSome = true ∨ (s.pcEnd (16 + k)).state = 0) →
    Leaves (.inBandPresenceChange k pres) s (s.setPcLink (k + 1) fun l => { l with present := pres })))

/-- The PCI Express commands (Table 10.8, R271, R282, R285, R288).
The USB commands (Table 11.8, R303, R320).
Model's choices in its clauses, no rules of the spec: which number a handle gets (log entry 7); what the index of pcie.clear names (log
entry 24); the codes of USB frames (log entry 26). -/
def Obligations.PcieAndUsbCommands : Prop :=
  (
  Shows .pcieShow Cmd.pcieShow 1 (fun rq _ => arg rq 0 1 ≤ 4) (fun rq s =>
      let l := s.pcLink (arg rq 0 1)
      leBytes 1 l.state ++ leBytes 1 l.rate ++ leBytes 1 l.width ++ zeros 1 ++ leBytes 4 l.rcvErrs ++ leBytes 4 l.replays
        ++ leBytes 4 l.malformed ++ leBytes 8 l.tlpsIn ++ leBytes 8 l.tlpsOut)
  ∧ (∀ rq s p, Admitted Cmd.pciePortBind 16 rq s → s.jobRoom rq → 1 ≤ arg rq 0 1 → arg rq 0 1 ≤ 15 → 1 ≤ arg rq 1 1 → arg rq 1 1 ≤ 6 →
      arg rq 2 1 ≤ 1 → arg rq 3 1 ≤ 3 → s.pcieUp = true → s.targetBound (arg rq 1 1) (arg rq 2 1) (arg rq 3 1) = false →
      (s.pcEnd (arg rq 0 1)).hops = 0 → s.pathPort (arg rq 2 1) = some p → arg rq 4 4 = 0 → arg rq 8 4 = 0 →
      (s.openPath (.pcie (arg rq 0 1)) none 6 (arg rq 1 1) (arg rq 2 1) (targetPxa (arg rq 3 1)) 4 true 0).rc = .accepted →
      s.pcie.bridges.length = 16 →
    ∃ t, exec (.pciePortBind rq) s = .next t ∧ t.Replied rq .accepted (s.chan (viaChan rq.via)).freeHandle []
      ∧ (t.pcEnd (arg rq 0 1)).hops = arg rq 1 1 ∧ (t.pcEnd (arg rq 0 1)).chain = arg rq 2 1 ∧ (t.pcEnd (arg rq 0 1)).dport = arg rq 3 1
      ∧ (t.pcEnd (arg rq 0 1)).contract = 0 ∧ (t.pcEnd (arg rq 0 1)).state = 0)
  ∧ (∀ rq s, Admitted Cmd.pciePortUnbind 1 rq s → 1 ≤ arg rq 0 1 → arg rq 0 1 ≤ 15 → (s.pcEnd (arg rq 0 1)).state = 3 →
      (s.pcEnd (arg rq 0 1)).path = none → (s.pcEnd (arg rq 0 1)).contract = 0 → s.pcie.bridges.length = 16 →
    ∃ t, exec (.pciePortUnbind rq) s = .next t ∧ t.Replied rq .ok 0 [] ∧ (t.pcEnd (arg rq 0 1)).state = 0
      ∧ (t.pcEnd (arg rq 0 1)).hops = 0)
  ∧ Fails .pciePortUnbind Cmd.pciePortUnbind 1 (fun rq s => (s.pcEnd (arg rq 0 1)).state = 0) .badState
  ∧ Shows .pcieBridgeShow Cmd.pcieBridgeShow 1 (fun rq _ => 1 ≤ arg rq 0 1 ∧ arg rq 0 1 ≤ 15) (fun rq s =>
      let x := s.pcEnd (arg rq 0 1)
      leBytes 4 x.vsec ++ leBytes 1 x.state ++ zeros 1 ++ leBytes 2 x.table.length
        ++ leBytes 2 (creditLeft (nth x.limits 1 0) (nth x.used 1 0)) ++ leBytes 2 (creditLeft (nth x.limits 3 0) (nth x.used 3 0))
        ++ leBytes 2 (creditLeft (nth x.limits 5 0) (nth x.used 5 0)) ++ zeros 2 ++ leBytes 4 x.synth ++ leBytes 4 x.orphaned
        ++ leBytes 4 x.postedLost)
  ∧ (∀ b, Does .pcieSlotPower Cmd.pcieSlotPower 2
      (fun rq s => arg rq 0 1 ≤ 3 ∧ s.bayOfDp (arg rq 0 1) = some b ∧ (s.bay b).state = .unseated)
      (fun rq s => s.setBay b fun x => { x with request := arg rq 1 1 == 1, shed := false }) (fun _ _ => []))
  ∧ Fails .pcieSlotPower Cmd.pcieSlotPower 2 (fun rq s => arg rq 0 1 ≤ 3 → s.bayOfDp (arg rq 0 1) = none) .badState
  ∧ Does .pcieClear Cmd.pcieClear 1 (fun rq _ => arg rq 0 1 ≤ 15)
      (fun rq s => (s.setPcLink (arg rq 0 1) fun l => { l with
        rcvErrs := 0, replays := 0, malformed := 0, tlpsIn := 0, tlpsOut := 0 }).setEnd (arg rq 0 1) fun x => { x with
          synth := 0, orphaned := 0, postedLost := 0 }) (fun _ _ => []))
  ∧ (
  Shows .usbShow Cmd.usbShow 0 (fun _ _ => True) (fun _ s =>
      leBytes 1 (nth s.topo.ends 5 0) ++ leBytes 1 s.usb.upstream
        ++ leBytes 2 (packBits (false :: false :: s.usb.remotes.map fun r => decide (2 ≤ r.state))) ++ leBytes 1 s.keepState ++ zeros 3
        ++ leBytes 4 s.stagingUse ++ leBytes 4 s.usb.aborted)
  ∧ Shows .usbPortShow Cmd.usbPortShow 1 (fun rq s => 1 ≤ arg rq 0 1 ∧ arg rq 0 1 ≤ 4 ∧ s.isUsbHub = true) (fun rq s =>
      let x := s.usbPort (arg rq 0 1)
      leBytes 1 x.code ++ leBytes 1 x.speed ++ leBytes 1 (b2n x.kept) ++ zeros 1 ++ leBytes 8 x.txs ++ leBytes 8 x.deferrals
        ++ leBytes 4 x.discards ++ leBytes 4 x.trips)
  ∧ Does .usbPortPower Cmd.usbPortPower 2
      (fun rq s => 1 ≤ arg rq 0 1 ∧ arg rq 0 1 ≤ 4 ∧ s.isUsbHub = true ∧ arg rq 1 1 = 0 ∧ (s.usbPort (arg rq 0 1)).connected = false)
      (fun rq s => (s.setUsbPort (arg rq 0 1) fun x => { x with power := false, powerWait := false }).vbusOff (arg rq 0 1 + 1))
      (fun _ _ => [])
  ∧ Fails .usbPortPower Cmd.usbPortPower 2 (fun _ s => s.isUsbHub = false) .badState
  ∧ Shows .usbKeepaliveShow Cmd.usbKeepaliveShow 0 (fun _ s => s.usb.absent = false) (fun _ s =>
      leBytes 1 s.keepState ++ leBytes 1 s.keptCount ++ leBytes 2 s.usb.hid.length ++ leBytes 4 s.usb.replayed
        ++ leBytes 4 s.usb.aged ++ leBytes 4 0)
  ∧ Does .usbClear Cmd.usbClear 1 (fun rq _ => arg rq 0 1 = 255) (fun _ s => { s with usb := { s.usb with
        ports := s.usb.ports.map fun x => { x with txs := 0, deferrals := 0, discards := 0, trips := 0 }
        aborted := 0, underruns := 0, replayed := 0, aged := 0 } }) (fun _ _ => []))

/-- Feeds and VBUS switches (R437 to R440, R442, R443): presence, sharing, shedding, settling, faults and retries.
Bay channels (R444 to R453): seating, ramp, limit, faults, power good, retries, PERST# release and the FET's temperature. A timer's command
that comes before its time changes nothing.
Model's choices in its clauses, no rules of the spec: the points of shedding, rounding and the thermal model that log entry 25 names; that
a timer's command before its time changes nothing, and how a time is counted in ticks (log entry 55). -/
def Obligations.PowerPath : Prop :=
  (∀ s : State,
  (∀ n mv ma ms, s.powered = true → n ≤ 1 → (s.feed n).present = false → s.feedCan n = true →
      s.pathCv Fld.FEED_UV_MV * 105 ≤ mv * 100 → 10 ≤ ms →
    Gives (.feedPresent n mv ma ms) s fun t =>
      t.hush = ({ s.setFeed n fun f => { f with present := true, gate := f.gate || s.pwrLive, mv := mv, ma := ma } with
        ppath := { (s.setFeed n fun f => { f with present := true, gate := f.gate || s.pwrLive, mv := mv, ma := ma }).ppath with
          fed := true } } : State).hush ∧ Heard 1 s t 160 (n + 2))
  ∧ (∀ n mv ma ms, s.powered = true → 1 < n ∨ mv * 100 < s.pathCv Fld.FEED_UV_MV * 105 ∨ ms < 10 → Leaves (.feedPresent n mv ma ms) s s)
  ∧ (∀ n mv us rev, s.powered = true → n ≤ 1 → rev = true ∨ (mv < s.pathCv Fld.FEED_UV_MV ∧ 10 ≤ us) → (s.feed n).present = true →
      (s.feed (1 - n)).present = true → s.ppath.feeds.length = 2 →
    Gives (.feedAbsent n mv us rev) s fun t =>
      t.hush = (s.setFeed n fun f => { f with present := false, gate := false, mv := mv, ma := 0 }).hush
        ∧ Emit.orGates (if n == 0 then 0 else 1000) ∈ t.out ∧ Heard 1 s t 160 n)
  ∧ (∀ mv0 ma0 mv1 ma1, s.pwrLive = true → s.ppath.feeds.length = 2 → (s.feed 0).present = true → (s.feed 1).present = true →
    let u := (s.setFeed 0 fun f => { f with mv := mv0, ma := ma0 }).setFeed 1 fun f => { f with mv := mv1, ma := ma1 }
    Says (.feedShareUpdate mv0 ma0 mv1 ma1) s u [.orGates (u.feedLimit 0 * 1000 / max 1 (u.feedLimit 0 + u.feedLimit 1))])
  ∧ (∀ n ma ms, s.pwrLive = true → n ≤ 1 → (s.feed n).present = true → s.feedLimit n * 11 < ma * 10 → s.cv Fld.FEED_OC_MS ≤ ms →
      s.romNow = false → s.shedAgain = true → s.outputOn 5 = true → s.isUsbHub = false →
    Gives (.feedOverload n ma ms) s fun t => (t.vsw 5).state ≠ 1 ∧ (t.feed n).ma = ma ∧ t.ppath.sheds = satAdd 32 s.ppath.sheds 1
      ∧ t.ppath.shedTick = some s.time.tick ∧ Heard 1 s t 161 (n + 80))
  ∧ (∀ n ma ms, s.pwrLive = true → ma * 10 ≤ s.feedLimit n * 11 ∨ s.shedAgain = false → Leaves (.feedOverload n ma ms) s s)
  ∧ (∀ k mv ma ms, s.pwrLive = true → (s.vsw k).target ≠ 0 → ms = 0 ∨ mv * 100 < (s.vsw k).target * 95 →
    Leaves (.vbusSettled k mv ma ms) s (s.setVsw k fun v => { v with mv := mv, ma := ma, settled := false }))
  ∧ (∀ k ms trip, s.pwrLive = true → 2 ≤ k → k ≤ 5 → (s.vsw k).state = 1 → s.isUsbHub = false →
      trip = true ∨ s.cv Fld.VBUS_FAULT_MS ≤ ms →
    Gives (.vbusSwitchFault k ms trip) s fun t =>
      t.hush = (s.setVsw k fun v => { v with
        state := 3, target := 0, settled := false, wants := none, bleed := true, faults := satAdd 32 v.faults 1
        faultAt := s.time.tick }).hush
      ∧ Emit.vbus k (s.vsw k).rail 0 0 true ∈ t.out ∧ Heard 1 s t 165 k)
  ∧ (∀ k, s.pwrLive = true → (s.vsw k).state = 3 → (s.vsw k).wants = none → s.isUsbHub = false →
      s.passed (s.vsw k).faultAt (msTicks (s.cv Fld.VBUS_RETRY_MS)) = true →
    Leaves (.vbusRetryExpiry k) s (s.setVsw k fun v => { v with state := 0, wants := none }))
  ∧ (∀ k, s.pwrLive = true → s.passed (s.vsw k).faultAt (msTicks (s.cv Fld.VBUS_RETRY_MS)) = false →
    Leaves (.vbusRetryExpiry k) s s))
  ∧ (∀ (s : State) (b : Nat), s.pwrLive = true → b ≤ 3 → s.ppath.bays.length = 4 →
  ((s.bay b).state = .unseated → (s.bay b).pg = false →
    Gives (.bayShortPinClose b) s fun t => (t.bay b).state = .seating ∧ (t.bay b).closeTick = s.time.tick
      ∧ (t.bay b).removed = ((s.bay b).removed || decide (msTicks (s.cv Fld.SEAT_DEBOUNCE_MS) ≤ tickDiff s.time.tick (s.bay b).openTick)))
  ∧ ((s.bay b).state = .off → (s.bay b).pg = false → s.dpOfBay b = none →
    Gives (.bayShortPinOpen b) s fun t => (t.bay b).state = .unseated ∧ (t.bay b).before = .off ∧ (t.bay b).openTick = s.time.tick
      ∧ (t.bay b).mv = 0 ∧ (t.bay b).request = (s.bay b).request ∧ (t.bay b).retry = (s.bay b).retry ∧ Heard 1 s t 162 b)
  ∧ ((s.bay b).state = .seating → (s.bay b).retry = true → (s.bay b).pg = false → s.dpOfBay b = none →
      s.passed (s.bay b).closeTick (msTicks (s.cv Fld.SEAT_DEBOUNCE_MS)) = true →
    Gives (.baySeatDebounce b) s fun t => (t.bay b).state = .faultWait ∧ (t.bay b).removed = false ∧ Heard 1 s t 162 (b + 4))
  ∧ (s.passed (s.bay b).closeTick (msTicks (s.cv Fld.SEAT_DEBOUNCE_MS)) = false → Leaves (.baySeatDebounce b) s s)
  ∧ (∀ n mv ma, (s.bay b).state = .on →
    Gives (.bayCurrentLimit b true n mv ma) s fun t => (t.bay b).state = .limit ∧ (t.bay b).back = .on ∧ (t.bay b).mv = mv
      ∧ (t.bay b).count = min ((s.bay b).count - n / 8) ((s.bay b).faultMs * 1000)
      ∧ Emit.bayGate b 3 (s.bay b).pg ∈ t.out)
  ∧ (∀ n, (s.bay b).state = .limit → (s.bay b).pg = false → (s.bay b).faultMs * 1000 ≤ (s.bay b).count + n →
    Gives (.bayFaultTimer b n) s fun t => (t.bay b).state = .faultWait ∧ (t.bay b).cause = 1 ∧ (t.bay b).retry = true
      ∧ (t.bay b).retryTick = s.time.tick ∧ (t.bay b).retries = (s.bay b).retries - 1 ∧ (t.bay b).faults = satAdd 32 (s.bay b).faults 1
      ∧ Heard 1 s t 164 (b + 16 + 256 * ((s.bay b).retries - 1)))
  ∧ (∀ n, (s.bay b).state = .limit → (s.bay b).count + n < (s.bay b).faultMs * 1000 →
    Leaves (.bayFaultTimer b n) s (s.setBay b fun x => { x with count := x.count + n }))
  ∧ (∀ ma, (s.bay b).state = .on → (s.bay b).pg = false → 2 * (s.bay b).ilim < ma →
    Gives (.bayBreaker b ma) s fun t => (t.bay b).state = .faultWait ∧ (t.bay b).cause = 2 ∧ (t.bay b).retry = true
      ∧ Heard 1 s t 164 (b + 32 + 256 * ((s.bay b).retries - 1)))
  ∧ (∀ ma, ma ≤ 2 * (s.bay b).ilim → Leaves (.bayBreaker b ma) s s)
  ∧ (∀ vin, (s.bay b).state = .ramp → (s.bay b).pg = false → s.passed (s.bay b).rampTick ((s.bay b).rampLimit vin) = true →
    Gives (.bayRampTimeout b vin) s fun t => (t.bay b).state = .faultWait ∧ (t.bay b).cause = 4 ∧ (t.bay b).retry = true
      ∧ Heard 1 s t 164 (b + 64 + 256 * ((s.bay b).retries - 1)))
  ∧ (∀ vin, s.passed (s.bay b).rampTick ((s.bay b).rampLimit vin) = false → Leaves (.bayRampTimeout b vin) s s)
  ∧ (∀ vin mv ma us, (s.bay b).state = .ramp → (s.bay b).pg = false → vin * s.cv Fld.PG_PCT ≤ mv * 100 → ma < (s.bay b).ilim →
      s.cv Fld.PG_DEBOUNCE_US ≤ us →
    Gives (.bayPgRise b vin mv ma us true) s fun t => (t.bay b).state = .on ∧ (t.bay b).pg = true ∧ (t.bay b).mv = mv ∧ (t.bay b).ma = ma
      ∧ (t.bay b).pgTick = s.time.tick ∧ Emit.bayGate b 2 true ∈ t.out ∧ Heard 1 s t 163 (b + 4))
  ∧ (∀ vin mv ma us en, en = false ∨ mv * 100 < vin * s.cv Fld.PG_PCT ∨ (s.bay b).ilim ≤ ma ∨ us < s.cv Fld.PG_DEBOUNCE_US →
    Leaves (.bayPgRise b vin mv ma us en) s s)
  ∧ (∀ vin mv, mv * 100 < vin * s.cv Fld.PG_PCT → (s.bay b).pg = true → s.dpOfBay b = none →
    Gives (.bayPgFall b vin mv) s fun t => t.hush = ((s.setBay b fun x => { x with mv := mv }).setBay b fun x => { x with pg := false }).hush
      ∧ Emit.bayGate b (s.bay b).state.gate false ∈ t.out ∧ Heard 1 s t 163 b)
  ∧ (∀ vin mv, vin * s.cv Fld.PG_PCT ≤ mv * 100 → Leaves (.bayPgFall b vin mv) s (s.setBay b fun x => { x with mv := mv }))
  ∧ ((s.bay b).retry = true → (s.bay b).state = .faultWait → (s.bay b).retries = 0 → (s.bay b).pg = false → s.romNow = false →
      s.passed (s.bay b).retryTick (msTicks (s.bay b).retryMs) = true →
    Gives (.bayRetryExpiry b) s fun t => (t.bay b).state = .lockout ∧ (t.bay b).retry = false)
  ∧ (s.passed (s.bay b).retryTick (msTicks (s.bay b).retryMs) = false → Leaves (.bayRetryExpiry b) s s)
  ∧ ((s.bay b).pg = true → s.passed (s.bay b).pgTick (secTicks 1) = true →
    Leaves (.bayRetriesRestore b) s (s.setBay b fun x => { x with retries := x.allRetries }))
  ∧ (s.passed (s.bay b).pgTick (secTicks 1) = false → Leaves (.bayRetriesRestore b) s s)
  ∧ (∀ k, k ≤ 3 → s.dpOfBay b = some k → s.bayOfDp k = some b → (s.bay b).pg = true → s.passed (s.bay b).pgTick (msTicks 100) = true →
      (s.pcLink (k + 1)).perst = true → s.pcie.links.length = 5 →
    Gives (.bayPerstRelease b) s fun t => (t.pcLink (k + 1)).perst = false ∧ Emit.perst k false ∈ t.out)
  ∧ (s.dpOfBay b = none → Leaves (.bayPerstRelease b) s s)
  ∧ (∀ diode tref vin mv ma, (s.bay b).tsense = 2 →
    Leaves (.fetTempUpdate b diode tref vin mv ma) s (s.setBay b fun y => { y with mv := mv, ma := if y.state.conducts then ma else 0 }))
  ∧ (∀ diode tref vin mv ma, (s.bay b).tsense = 0 → (s.bay b).diodeBad = false → 17500 < diode →
    Gives (.fetTempUpdate b diode tref vin mv ma) s fun t =>
      t.hush = ((s.setBay b fun y => { y with mv := mv, ma := if y.state.conducts then ma else 0 }).setBay b fun y => { y with
        diodeBad := true }).hush ∧ Heard 1 s t 167 b)
  ∧ (∀ diode tref vin mv ma, (s.bay b).tsense = 0 → (s.bay b).diodeBad = false → -4000 ≤ diode → diode ≤ 17500 →
      (s.bay b).state.conducts = true → ((s.bay b).tlim : Int) * 100 ≤ diode → (s.bay b).hotTick = none → (s.bay b).pg = false →
      s.plan.fetNow.length = 4 → s.plan.fetLimNow.length = 4 →
    Gives (.fetTempUpdate b diode tref vin mv ma) s fun t => (t.bay b).temp = some (diode * 10000) ∧ (t.bay b).state = .faultWait
      ∧ (t.bay b).cause = 3 ∧ nth t.plan.fetNow b 0 = diode ∧ nth t.plan.fetLimNow b 0 = ((s.bay b).tlim : Int) * 100
      ∧ Heard 2 s t 166 (b + 65536 * leNat (leInt 2 (diode / 10))) ∧ Heard 2 s t 164 (b + 48 + 256 * ((s.bay b).retries - 1))))

/-- The power path commands (Table 17.4, R445).
The cable power commands (Tables 16.8 and 16.9, R413, R415 to R418, R421, R427, R428).
Model's choices in its clauses, no rules of the spec: which number a handle gets (log entry 7); the layouts of USB PD and the outcomes of
commands that log entry 28 names; a bay that was shed (log entry 25). -/
def Obligations.PowerCommands : Prop :=
  (
  Shows .ppathShow Cmd.ppathShow 0 (fun _ _ => True) (fun _ s =>
      let f := fun (n : Nat) => leBytes 1 (b2n (s.feed n).present) ++ leBytes 1 (s.feedSrc n) ++ zeros 2 ++ leBytes 4 (s.feed n).mv
        ++ leBytes 4 (s.feed n).ma ++ leBytes 4 (s.feedLimit n)
      f 0 ++ f 1 ++ leBytes 4 s.ppath.pIn ++ leBytes 4 s.ppath.pOut ++ leBytes 4 s.ppath.pFeed ++ leBytes 4 s.ppath.sheds)
  ∧ Shows .ppathBayShow Cmd.ppathBayShow 1 (fun rq _ => arg rq 0 1 ≤ 3) (fun rq s =>
      let x := s.bay (arg rq 0 1)
      leBytes 1 x.state.code ++ leBytes 1 (b2n x.pg) ++ leBytes 1 (b2n x.request + 2 * b2n x.inhibit) ++ leBytes 1 x.cause
        ++ leBytes 4 x.mv ++ leBytes 4 x.ma ++ leInt 2 (x.temp.getD 0 / 100000) ++ leBytes 1 x.retries ++ zeros 1 ++ leBytes 4 x.count
        ++ leBytes 4 (s.retryLeft (arg rq 0 1)) ++ leBytes 4 x.faults)
  ∧ Does .ppathBayPower Cmd.ppathBayPower 2
      (fun rq s => arg rq 0 1 ≤ 3 ∧ arg rq 1 1 = 0 ∧ (s.bay (arg rq 0 1)).state = .unseated)
      (fun rq s => s.setBay (arg rq 0 1) fun x => { x with request := false, shed := false }) (fun _ _ => [])
  ∧ (∀ rq s, Admitted Cmd.ppathBayPower 2 rq s → arg rq 0 1 ≤ 3 → arg rq 1 1 = 1 → s.ppath.bays.length = 4 →
      (s.bay (arg rq 0 1)).state = .off → (s.bay (arg rq 0 1)).inhibit = false → (s.bay (arg rq 0 1)).cool = true →
      (s.bay (arg rq 0 1)).retry = false → (s.bay (arg rq 0 1)).pg = false → s.romNow = false →
    ∃ t, exec (.ppathBayPower rq) s = .next t ∧ t.Replied rq .ok 0 [] ∧ (t.bay (arg rq 0 1)).state = .ramp
      ∧ (t.bay (arg rq 0 1)).request = true ∧ (t.bay (arg rq 0 1)).shed = false)
  ∧ Fails .ppathBayPower Cmd.ppathBayPower 2 (fun rq _ => 3 < arg rq 1 1) .badState
  ∧ Shows .ppathVbusShow Cmd.ppathVbusShow 1 (fun rq _ => arg rq 0 1 ≤ 5) (fun rq s =>
      let v := s.vsw (arg rq 0 1)
      leBytes 1 v.state ++ leBytes 1 v.rail ++ zeros 2 ++ leBytes 4 v.mv ++ leBytes 4 v.ma
        ++ leBytes 4 (if v.state == 1 then s.vbusLimit (arg rq 0 1) else 0) ++ leBytes 4 v.faults)
  ∧ Does .ppathClear Cmd.ppathClear 0 (fun _ _ => True) (fun _ s => { s with ppath := { s.ppath with
        bays := s.ppath.bays.map fun x => { x with faults := 0 }, vbus := s.ppath.vbus.map fun v => { v with faults := 0 }, sheds := 0 } })
      (fun _ _ => []))
  ∧ (
  Shows .cpwrShow Cmd.cpwrShow 1 (fun rq _ => arg rq 0 1 ≤ 5) (fun rq s =>
      let c := s.chn (arg rq 0 1)
      leBytes 1 c.state
        ++ leBytes 1 (b2n c.src + 2 * b2n c.dfp + 4 * b2n c.vconnSrc + 8 * b2n c.pinB5 + 16 * b2n c.ra + 32 * b2n c.pd + 64 * c.rev)
        ++ leBytes 1 c.contract ++ leBytes 1 (c.position + 128 * b2n c.quiet) ++ leBytes 2 c.mv ++ leBytes 2 c.ma ++ leBytes 4 c.contrib
        ++ leBytes 1 (c.mode + 128 * b2n (c.armed != 0)) ++ leBytes 1 c.queue.length ++ zeros 2 ++ leBytes 4 c.hardResets
        ++ leBytes 4 c.msgFails)
  ∧ Does .cpwrCapsSet Cmd.cpwrCapsSet 8
      (fun rq _ => arg rq 0 1 ≤ 5 ∧ arg rq 1 1 = 1 ∧ 1 ≤ arg rq 2 1 ∧ arg rq 2 1 ≤ 11 ∧ 4 + 4 * arg rq 2 1 ≤ rq.payload.length)
      (fun rq s => s.setChn (arg rq 0 1) fun c => { c with snkCaps := wordsAt rq 4 (arg rq 2 1) }) (fun _ _ => [])
  ∧ Fails .cpwrCapsSet Cmd.cpwrCapsSet 8
      (fun rq _ => arg rq 1 1 = 0 ∧ 1 ≤ arg rq 2 1 ∧ arg rq 2 1 ≤ 11 ∧ 4 + 4 * arg rq 2 1 ≤ rq.payload.length
        ∧ ∃ p ∈ wordsAt rq 4 (arg rq 2 1), pdoFixed p = false) .badState
  ∧ Starts .cpwrRequest Cmd.cpwrRequest 8
      (fun rq s => arg rq 0 1 ≤ 5 ∧ (s.chn (arg rq 0 1)).state = 5 ∧ (s.chn (arg rq 0 1)).reqJob = none
        ∧ (s.chn (arg rq 0 1)).sent = none ∧ s.romNow = false)
      (fun rq s =>
        let rdo : Word := BitVec.ofNat 32 (arg rq 4 4)
        let p := ((s.chn (arg rq 0 1)).farCaps[rdoPos rdo - 1]?).getD 0
        ((s.setChn (arg rq 0 1) fun c => { c with
          nextMv := pdoMv p, nextMa := rdoMa rdo, waiting := .request
          reqJob := some (rq.via, (s.chan (viaChan rq.via)).freeHandle) }).ccStop (arg rq 0 1) .snkRequestWait).onWire
          (arg rq 0 1) .request [rdo] .request) (fun _ _ => none)
  ∧ Starts .cpwrRequest Cmd.cpwrRequest 8 (fun rq s => arg rq 0 1 ≤ 5 ∧ (s.chn (arg rq 0 1)).state ≠ 5) (fun _ s => s)
      (fun _ _ => some (Rc.badState.code, []))
  ∧ Does .cpwrAnswer Cmd.cpwrAnswer 2
      (fun rq s => arg rq 0 1 ≤ 5 ∧ arg rq 1 1 = 2 ∧ (s.chn (arg rq 0 1)).asked = some 2 ∧ s.ccDue (arg rq 0 1) .ask = false
        ∧ (s.chn (arg rq 0 1)).sent = none ∧ s.romNow = false)
      (fun rq s => ((s.setChn (arg rq 0 1) fun c => { c with asked := none }).ccStop (arg rq 0 1) .ask).onWire (arg rq 0 1) .wait [] .none)
      (fun _ _ => [])
  ∧ Fails .cpwrAnswer Cmd.cpwrAnswer 2 (fun rq s => (s.chn (arg rq 0 1)).asked = none) .badState
  ∧ Starts .cpwrSwap Cmd.cpwrSwap 2
      (fun rq s => arg rq 0 1 ≤ 1 ∧ arg rq 1 1 = 1 ∧ (s.chn (arg rq 0 1)).state = 5 ∧ (s.chn (arg rq 0 1)).amsWaits = false
        ∧ (s.chn (arg rq 0 1)).swap = none ∧ (s.chn (arg rq 0 1)).queued = none ∧ (s.chn (arg rq 0 1)).sent = none ∧ s.romNow = false)
      (fun rq s => (s.setChn (arg rq 0 1) fun c => { c with
        swap := some ⟨1, true, 1, some (rq.via, (s.chan (viaChan rq.via)).freeHandle)⟩, waiting := .swap }).onWire
        (arg rq 0 1) .drSwap [] .swap) (fun _ _ => none)
  ∧ Fails .cpwrSwap Cmd.cpwrSwap 2
      (fun rq s => arg rq 0 1 ≤ 1 ∧ arg rq 1 1 ≤ 2 ∧ (s.chn (arg rq 0 1)).attached = true ∧ (s.chn (arg rq 0 1)).swap ≠ none) .busy
  ∧ (∀ rq s, Admitted Cmd.cpwrHardreset 2 rq s → arg rq 0 1 ≤ 5 → arg rq 1 1 = 0 → (s.chn (arg rq 0 1)).attached = true → s.cc.length = 6 →
    ∃ t, exec (.cpwrHardreset rq) s = .next t ∧ t.Replied rq .ok 0 [] ∧ Emit.hardReset (arg rq 0 1) 0 ∈ t.out
      ∧ (t.chn (arg rq 0 1)).hardResets = satAdd 32 (s.chn (arg rq 0 1)).hardResets 1)
  ∧ Does .cpwrHardreset Cmd.cpwrHardreset 2 (fun rq s => arg rq 0 1 ≤ 5 ∧ arg rq 1 1 = 1 ∧ (s.chn (arg rq 0 1)).attached = true)
      (fun _ s => s) (fun _ _ => [])
  ∧ Does .cpwrModeEnter Cmd.cpwrModeEnter 2
      (fun rq s => arg rq 0 1 ≤ 1 ∧ arg rq 1 1 = 1 ∧ (s.chn (arg rq 0 1)).attached = true ∧ (s.chn (arg rq 0 1)).dfp = false)
      (fun rq s => s.setChn (arg rq 0 1) fun c => { c with armed := 1 }) (fun _ _ => [])
  ∧ Starts .cpwrModeEnter Cmd.cpwrModeEnter 2
      (fun rq s => arg rq 0 1 ≤ 1 ∧ arg rq 1 1 = 1 ∧ (s.chn (arg rq 0 1)).attached = true ∧ (s.chn (arg rq 0 1)).dfp = true
        ∧ (s.chn (arg rq 0 1)).entering = none ∧ (s.chn (arg rq 0 1)).amsWaits = false ∧ (s.chn (arg rq 0 1)).queued = none
        ∧ (s.chn (arg rq 0 1)).sent = none ∧ s.romNow = false)
      (fun rq s => (s.setChn (arg rq 0 1) fun c => { c with
        entering := some (1, s.time.tick, some (rq.via, (s.chan (viaChan rq.via)).freeHandle)), waiting := .mode }).onWire
        (arg rq 0 1) (.vdm 0x1E9B 4 0) [] .mode) (fun _ _ => none)
  ∧ Fails .cpwrModeEnter Cmd.cpwrModeEnter 2 (fun rq s => 2 ≤ arg rq 1 1 ∧ s.dpPermitted (arg rq 0 1) = false) .badState
  ∧ (∀ rq s, Admitted Cmd.cpwrMuxSet 2 rq s → arg rq 0 1 ≤ 1 → arg rq 1 1 = 0 → s.cc.length = 6 →
    ∃ t, exec (.cpwrMuxSet rq) s = .next t ∧ t.Replied rq .ok 0 [] ∧ (t.chn (arg rq 0 1)).position = 0 ∧ (t.chn (arg rq 0 1)).mode = 0
      ∧ (t.chn (arg rq 0 1)).quiet = false)
  ∧ Fails .cpwrMuxSet Cmd.cpwrMuxSet 2 (fun rq s => arg rq 1 1 = 5 ∧ s.topo.role ≠ .hostside) .badState
  ∧ Shows .cpwrDiscoverShow Cmd.cpwrDiscoverShow 2 (fun rq _ => arg rq 0 1 ≤ 5 ∧ arg rq 1 1 ≤ 1) (fun rq s =>
      let c := s.chn (arg rq 0 1)
      let sop := arg rq 1 1 == 0
      let l := if sop then c.idSop else c.idCable
      let sv := if sop then c.svids else []
      leBytes 1 (b2n !l.isEmpty) ++ zeros 3 ++ wordBytes 3 l ++ wordBytes 3 (l.drop 3) ++ leBytes 1 sv.length ++ zeros 3
        ++ (upTo 16).flatMap (fun i => leBytes 2 (nth sv i 0)) ++ leBytes 4 (if sop then c.vendorVdo.toNat else 0)
        ++ leBytes 4 (if sop then c.dpVdo.toNat else 0))
  ∧ Starts .cpwrMsgSend Cmd.cpwrMsgSend 4
      (fun rq s => arg rq 0 1 ≤ 5 ∧ arg rq 1 1 = 0 ∧ (s.chn (arg rq 0 1)).attached = true ∧ (s.chn (arg rq 0 1)).amsWaits = false
        ∧ rq.payload.length = 4 ∧ (s.chn (arg rq 0 1)).queued = none ∧ (s.chn (arg rq 0 1)).sent = none ∧ s.romNow = false)
      (fun rq s => (s.setChn (arg rq 0 1) fun c => { c with queue := c.queue.map fun q => { q with needs := false } }).onWire (arg rq 0 1)
        .other [BitVec.ofNat 32 (arg rq 2 2)] (.msg (some (rq.via, (s.chan (viaChan rq.via)).freeHandle))))
      (fun _ _ => none)
  ∧ Fails .cpwrMsgSend Cmd.cpwrMsgSend 4 (fun rq s => (s.chn (arg rq 0 1)).attached = false) .badState
  ∧ Shows .cpwrMsgRecv Cmd.cpwrMsgRecv 1 (fun rq s => arg rq 0 1 ≤ 5 ∧ (s.chn (arg rq 0 1)).queue = []) (fun _ _ => [])
  ∧ (∀ q l, Does .cpwrMsgRecv Cmd.cpwrMsgRecv 1 (fun rq s => arg rq 0 1 ≤ 5 ∧ (s.chn (arg rq 0 1)).queue = q :: l)
      (fun rq s => s.setChn (arg rq 0 1) fun c => { c with queue := l })
      (fun _ _ => leBytes 1 l.length ++ leBytes 1 q.sop ++ leBytes 2 q.header.toNat
          ++ leBytes 6 q.tick.toNat ++ zeros 2 ++ wordBytes q.objs.length q.objs)))

/-- Configuration channels (R410, R412 to R414, R416, R417, R421, R424, R425, R432): attach, detach and toggle, messages, their acknowledgement and
their resending, the answers that time makes, ErrorRecovery's end and VCONN.
Timeouts that end in a Hard Reset, what one does, recovery from it, EPR and mode entry (R417 to R419, R424, R427, R432).
Model's choices in its clauses, no rules of the spec: the layouts of USB PD and Type-C and the points that log entry 28 names; that a
timer's command before its time changes nothing, and how a time is counted in ticks (log entry 55). -/
def Obligations.CableChannels : Prop :=
  (∀ (s : State) (k : Nat), s.pwrLive = true → s.cc.length = 6 →
  let id := nth (s.chn k).txIds 0 0
  (∀ far ms, k ≤ 1 → (s.chn k).state = 1 → s.ccRole k ≠ 0 → far ≤ 2 → s.cv Fld.CC_DEBOUNCE_MS ≤ ms →
    Gives (.ccAttach k 0 (3 + far) ms true) s fun t => (t.chn k).state = 5 ∧ (t.chn k).src = false ∧ (t.chn k).dfp = false
      ∧ (t.chn k).contract = 1 ∧ (t.chn k).mv = 5000 ∧ (t.chn k).ma = rpMa far 500 ∧ (t.chn k).pinB5 = true
      ∧ Heard 1 s t 144 (k + 8 + 32))
  ∧ (∀ a b ms, k ≤ 5 → (s.chn k).state = 1 → a = b → Leaves (.ccAttach k a b ms true) s s)
  ∧ (∀ ms vb, 2 ≤ k → k ≤ 5 → (s.chn k).state = 4 → (s.chn k).src = true → (s.chn k).queued = none → (s.chn k).sent = none →
      (s.chn k).outq = [] → (s.chn k).reqJob = none → (s.chn k).entering = none → (s.chn k).epr = false → (s.chn k).swap = none →
      s.isUsbHub = false → s.cv Fld.PD_DEBOUNCE_MS ≤ ms →
    Gives (.ccDetach k ms vb) s fun t => (t.chn k).state = 1 ∧ (t.chn k).contract = 0 ∧ (t.chn k).mv = 0 ∧ (t.chn k).vconnOn = false
      ∧ (t.vsw k).wants = none ∧ Heard 1 s t 144 (k + 16 + 32 * b2n (s.chn k).pinB5))
  ∧ (∀ ms vb, (s.chn k).state = 4 → (s.chn k).src = true → ms < s.cv Fld.PD_DEBOUNCE_MS → Leaves (.ccDetach k ms vb) s s)
  ∧ (k ≤ 1 → (s.chn k).state = 1 → 2 ≤ s.ccRole k → (s.chn k).runs .drp = false →
    Says (.drpToggle k false) s ((s.setChn k fun c => { c with state := 1, drpSrc := !c.drpSrc }).ccStart k .drp
        (msTicks (s.cv Fld.DRP_PERIOD_MS) * (if (s.chn k).drpSrc then 100 - s.cv Fld.DRP_DUTY_PCT else s.cv Fld.DRP_DUTY_PCT) / 100))
      [.ccPins k (b2n (s.chn k).drpSrc) (s.chn k).rp (s.chn k).vconnOn])
  ∧ (k ≤ 1 → (s.chn k).runs .drp = true → s.ccDue k .drp = false → Leaves (.drpToggle k false) s s)
  ∧ (∀ m : PdMsg, k ≤ 5 → (s.chn k).state = 4 → s.romNow = false → m.kind = .getSourceCap → m.sop = 1 → (s.chn k).queued = none →
      (s.chn k).src = true → (s.chn k).rp = 2 → (s.chn k).rpBase = 2 → (s.chn k).sent = none → (s.chn k).epr = false →
      nth (s.chn k).rxIds 1 none ≠ some (pdId m) →
    Says (.pdMessageReceive k m) s
      ((s.setChn k fun c => { c with pd := true, rxIds := put c.rxIds 1 (some (pdId m)) }).onWire k .sourceCaps ((s.offered k).take 7) .none)
      [.pd k 1 .goodCrc (pdId m) [], .pd k 0 .sourceCaps id ((s.offered k).take 7)])
  ∧ (∀ m : PdMsg, k ≤ 5 → (s.chn k).attached = true → s.romNow = false → m.kind = .other → m.sop = 1 → (s.chn k).queued = none →
      (s.chn k).src = false → (s.chn k).queue.length < 16 → nth (s.chn k).rxIds 1 none ≠ some (pdId m) →
    Gives (.pdMessageReceive k m) s fun t =>
      t.hush = ((s.setChn k fun c => { c with pd := true, rxIds := put c.rxIds 1 (some (pdId m)) }).setChn k fun c => { c with
        queue := c.queue ++ [⟨m.sop, m.header, s.time.tick, m.objs, m.needs⟩] }).hush
      ∧ Emit.pd k 1 .goodCrc (pdId m) [] ∈ t.out ∧ Heard 1 s t 151 (k + 16 * ((s.chn k).queue.length + 1)))
  ∧ (∀ m : PdMsg, k ≤ 5 → (s.chn k).attached = true → s.romNow = false → m.kind ≠ .goodCrc → m.kind ≠ .softReset →
      nth (s.chn k).rxIds m.sop none = some (pdId m) →
    Says (.pdMessageReceive k m) s s [.pd k m.sop .goodCrc (pdId m) []])
  ∧ (∀ (m : PdMsg) o, k ≤ 5 → (s.chn k).attached = true → s.romNow = false → m.kind = .goodCrc → (s.chn k).sent = some o →
      o.what = .none → (s.chn k).outq = [] →
    Says (.pdMessageReceive k m) s ((s.setChn k fun c => { c with sent := none, pd := true }).ccStop k .goodCrc) [])
  ∧ (∀ o, (s.chn k).sent = some o → o.resends < 2 → s.ccDue k .goodCrc = true →
    Says (.goodcrcTimeout k) s
      ((s.setChn k fun c => { c with sent := some { o with resends := o.resends + 1 } }).ccStart k .goodCrc (msTicks 1))
      [.pd k o.sop o.kind ((nth (s.chn k).txIds o.sop 0 + 7) % 8) o.objs])
  ∧ (s.ccDue k .goodCrc = false → Leaves (.goodcrcTimeout k) s s)
  ∧ ((s.chn k).queue.any (fun q => q.needs && s.passed q.tick (msTicks 10)) = true → s.romNow = false → (s.chn k).sent = none →
    Says (.queuedResponseTimeout k) s
      ((s.setChn k fun c => { c with
        queue := c.queue.map fun q => if q.needs && s.passed q.tick (msTicks 10) then { q with needs := false } else q }).onWire k
          .notSupported [] .none)
      [.pd k 0 .notSupported id []])
  ∧ ((s.chn k).queue.any (fun q => q.needs && s.passed q.tick (msTicks 10)) = false → Leaves (.queuedResponseTimeout k) s s)
  ∧ (∀ o, (s.chn k).queued = some o → o.what = .none → o.sop = 0 → s.romNow = false → (s.chn k).sent = none → s.ccDue k .sinkTx = true →
    Says (.sinkTxExpiry k) s (((s.setChn k fun c => { c with queued := none }).ccStop k .sinkTx).onWire k o.kind o.objs .none)
      [.pd k 0 o.kind id o.objs])
  ∧ (s.ccDue k .sinkTx = false → Leaves (.sinkTxExpiry k) s s)
  ∧ ((s.chn k).asked = some 2 → s.lcSilent = true → s.romNow = false → (s.chn k).sent = none →
    Says (.askTimeout k) s (((s.setChn k fun c => { c with asked := none }).ccStop k .ask).onWire k .reject [] .none) [.pd k 0 .reject id []])
  ∧ (s.ccDue k .ask = false → s.lcSilent = false → Leaves (.askTimeout k) s s)
  ∧ ((s.chn k).swap = none → (s.chn k).src = true → (s.chn k).moving = true → (s.vsw k).state ≠ 3 → s.ccDue k .srcTransition = true →
    Leaves (.srcTransitionExpiry k) s ((s.ccStop k .srcTransition).setVsw k fun v => { v with
      state := 1, rail := (s.railFor k (s.chn k).nextMv).getD 0, target := (s.chn k).nextMv, settled := false
      bleed := decide ((s.chn k).nextMv < (s.vsw k).mv) }))
  ∧ (s.ccDue k .srcTransition = false → Leaves (.srcTransitionExpiry k) s s)
  ∧ (∀ p l, (s.chn k).state = 5 → (s.chn k).waiting = .none → (s.chn k).moving = false → (s.chn k).farCaps = p :: l → s.romNow = false →
      (s.chn k).sent = none → (s.chn k).runs .snkRequestWait = true → (s.ccDue k .snkRequestWait = true ∨ s.lcSilent = true) →
    let ma := min (pdoMa p) (s.cv Fld.DEFAULT_SNK_MA)
    Says (.snkRequestWaitExpiry k) s
      (((s.setChn k fun c => { c with nextMv := pdoMv p, nextMa := ma, waiting := .request }).ccStop k .snkRequestWait).onWire k .request
        [mkRdo 1 ma] .request)
      [.pd k 0 .request id [mkRdo 1 ma]])
  ∧ (s.ccDue k .snkRequestWait = false → s.lcSilent = false → Leaves (.snkRequestWaitExpiry k) s s)
  ∧ ((s.chn k).state = 6 → s.ccRole k = 1 → s.ccDue k .errorRecovery = true →
    Says (.errorRecoveryEnd k) s (s.setChn k fun c => { c with
      state := 1, drpSrc := false, src := false, vconnSrc := false, vconnFault := false, timers := [] })
      [.ccPins k 1 (s.chn k).rp (s.chn k).vconnOn])
  ∧ (s.ccDue k .errorRecovery = false → Leaves (.errorRecoveryEnd k) s s)
  ∧ ((s.chn k).vconnOn = true →
    Gives (.vconnOvercurrent k) s fun t =>
      t.hush = (s.setChn k fun c => { c with vconnOn := false, vconnFault := true }).hush ∧ Heard 1 s t 154 k))
  ∧ (∀ (s : State) (k : Nat), s.pwrLive = true → s.cc.length = 6 →
  let id := nth (s.chn k).txIds 0 0
  ((s.chn k).state = 5 → (s.chn k).src = false → (s.chn k).swap = none → (s.chn k).moving = true → s.ccDue k .psTransition = true →
    Gives (.pdTransitionTimeout k 0) s fun t =>
      Emit.hardReset k 0 ∈ t.out ∧ (t.chn k).hardResets = satAdd 32 (s.chn k).hardResets 1 ∧ (t.chn k).moving = false
      ∧ (t.chn k).contract = 1 ∧ Heard 1 s t 156 k)
  ∧ (s.ccDue k .psTransition = false → Leaves (.pdTransitionTimeout k 0) s s)
  ∧ ((s.chn k).state = 4 ∨ (s.chn k).state = 5 →
    Gives (.hardResetReceived k) s fun t => (t.chn k).hardResets = satAdd 32 (s.chn k).hardResets 1
      ∧ Heard 1 s t 149 (k + 16 * swapRow (s.chn k).swap))
  ∧ ((s.chn k).recovering = true → (s.chn k).src = true → s.ccDue k .srcRecover = true →
    Gives (.srcRecoverExpiry k) s fun t => (t.chn k).recovering = false ∧ (t.chn k).contract = 1 ∧ (t.chn k).mv = 5000
      ∧ (t.chn k).ma = rpMa (s.chn k).rpBase 900)
  ∧ (s.ccDue k .srcRecover = false → Leaves (.srcRecoverExpiry k) s s)
  ∧ ((s.chn k).epr = true → (s.chn k).state = 5 → s.romNow = false → s.ccDue k .eprKeepalive = true → (s.chn k).sent = none →
    Says (.eprKeepaliveTimer k) s
      ((s.ccStart k .eprKeepalive (msTicks (s.cv Fld.EPR_KEEPALIVE_MS))).onWire k .eprKeepAlive [] .none) [.pd k 0 .eprKeepAlive id []])
  ∧ (s.ccDue k .eprKeepalive = false → Leaves (.eprKeepaliveTimer k) s s)
  ∧ ((s.chn k).epr = true → (s.chn k).state = 4 → s.ccDue k .eprTimeout = true →
    Gives (.eprKeepaliveTimeout k) s fun t => (t.chn k).epr = false ∧ Emit.hardReset k 0 ∈ t.out ∧ Heard 1 s t 156 (k + 48))
  ∧ (s.ccDue k .eprTimeout = false → Leaves (.eprKeepaliveTimeout k) s s)
  ∧ ((s.chn k).waiting = .request → s.ccDue k .senderResponse = true →
    Gives (.senderResponseTimeout k) s fun t => Emit.hardReset k 0 ∈ t.out ∧ Heard 1 s t 149 (k + 8 + 16 * swapRow (s.chn k).swap))
  ∧ (s.ccDue k .senderResponse = false → Leaves (.senderResponseTimeout k) s s)
  ∧ (∀ mode since job, (s.chn k).entering = some (mode, since, job) → s.ccDue k .enterRetry = true → s.passed since (msTicks 2000) = false →
      (s.chn k).amsWaits = false → (s.chn k).sent = none → s.romNow = false →
    Says (.enterModeRetry k) s
      (((s.ccStop k .enterRetry).setChn k fun c => { c with waiting := .mode }).onWire k (.vdm (modeSvid mode) 4 0) [] .mode)
      [.pd k 0 (.vdm (modeSvid mode) 4 0) id []])
  ∧ (∀ mode since, (s.chn k).entering = some (mode, since, none) → s.ccDue k .enterRetry = true → s.passed since (msTicks 2000) = true →
    Gives (.enterModeRetry k) s fun t => (t.chn k).entering = none ∧ (t.chn k).waiting = .none)
  ∧ (s.ccDue k .enterRetry = false → Leaves (.enterModeRetry k) s s))

/-- USB transactions and their frames (R295 to R301, R306, R308, R309, R315): the HOSTSIDE's stages and the remote end.
USB ports, suspend, resume and wake, and the keepalive (R303, R308, R310 to R318).
Model's choices in its clauses, no rules of the spec: the codes of frames and the answers for a remote hub (log entry 26); that a timer's
command before its time changes nothing, and how a time is counted in ticks (log entry 55). -/
def Obligations.UsbTunnels : Prop :=
  (∀ s : State, s.awake = true →
  let upOpen := ∃ l e, s.usb.inLabel = some l ∧ (s.link s.usb.inPort).entry l = some e ∧ e.suspended = false
  (∀ tx x p, s.isUsbHub = false → s.isUsbUp = true → 2 ≤ tx.root → (s.remote tx.root).state = 2 → tx.req = .other → tx.setup = false →
      tx.dirIn = true → tx.kind = 1 → tx.split = 0 → s.usb.stages = [x] → stageIs tx.root tx.port tx.addr tx.ep tx.stream true x = true →
      x.stall = false → x.inPkts = [p] → x.done = none → s.cv Fld.USB_READAHEAD = 0 →
    Says (.hostUsbTransaction tx) s { s with usb := { s.usb with
        stages := [{ x with inPkts := [], seq := (x.seq + 1) % 32, deferred := false }] } }
      [.usbAnswer tx.root tx.addr tx.ep 0 p])
  ∧ (∀ (f : UsbFrame) p, s.isUsbHub = true → 1 ≤ f.port → f.port ≤ 4 → (s.usbPort f.port).power = true →
      (s.usbPort f.port).resetting = false → (s.usbPort f.port).kept = false → f.epoch = epochOf s.usb.epochs f.port f.addr →
      s.usb.hid = [] → upOpen →
    Gives (.usbXferReq f false [p] none) s fun t => t.out =
      [.usbDevice f.port f.addr f.ep true false [], .usbFrame 0 (s.usbCells 0 (replyFrame f usbXferData 0 p))])
  ∧ (∀ (f : UsbFrame) c, s.isUsbHub = true → 1 ≤ f.port → f.port ≤ 4 → (s.usbPort f.port).kept = false →
      f.epoch = epochOf s.usb.epochs f.port f.addr → f.count = 0 → upOpen →
    Gives (.usbXferData 0 f (some c)) s fun t => t.out =
      [.usbDevice f.port f.addr f.ep false false f.data, .usbFrame 0 (s.usbCells 0 (replyFrame f usbXferDone c []))])
  ∧ (∀ root (f : UsbFrame) c, s.isUsbHub = false → s.isUsbUp = true → s.oldFrame root f = true →
    Leaves (.usbXferData root f c) s (s.setRemote root fun r => { r with oldFrames := satAdd 32 r.oldFrames 1 }))
  ∧ (∀ root (f : UsbFrame) x, s.isUsbUp = true → s.oldFrame root f = false → s.stageOf root f = some x → x.deferred = false →
      f.dirIn = false → f.count = 2 →
    Leaves (.usbXferDone root f) s (s.setStage x fun y => { y with stall := true, outPkts := [] }))
  ∧ (∀ root (f : UsbFrame) iv, s.isUsbHub = true → f.epoch = epochOf s.usb.epochs f.port f.addr → s.lagged iv = false →
      total (s.usb.isoOut.map fun x => x.1.data.length) + f.data.length ≤ 65536 →
    Gives (.usbIsoData root f iv) s fun t => t.usb.isoOut = s.usb.isoOut ++ [(f, iv)] ∧ t.out = [])
  ∧ (∀ port addr ep (f : UsbFrame) iv data, s.isUsbHub = true → 1 ≤ port → port ≤ 4 → (s.usbPort port).power = true →
      s.usb.isoOut = [(f, iv)] → f.port = port → f.addr = addr → f.ep = ep → s.lagged iv = true →
    Gives (.usbPeriodicPoll port addr ep false true false data) s fun t =>
      t.usb.isoOut = [] ∧ t.out = [.usbDevice port addr ep false false f.data])
  ∧ (∀ port addr ep d, s.isUsbHub = true → 1 ≤ port → port ≤ 4 → (s.usbPort port).power = true → s.usb.absent = true →
      s.usb.hid.length < s.cv Fld.HID_BUFFER_REPORTS →
    Says (.usbPeriodicPoll port addr ep true false true (some d)) s
      { s.setUsbPort port (fun x => { x with hid := true }) with usb := { (s.setUsbPort port fun x => { x with hid := true }).usb with
        hid := s.usb.hid ++ [⟨port, addr, ep, s.time.tick, d.take 64⟩] } }
      [.usbDevice port addr ep true false []])
  ∧ (∀ port addr ep d, s.isUsbHub = true → 1 ≤ port → port ≤ 4 → (s.usbPort port).power = true → s.usb.absent = true →
      s.cv Fld.HID_BUFFER_REPORTS ≤ s.usb.hid.length →
    Gives (.usbPeriodicPoll port addr ep true false true (some d)) s fun t => t.usb.hid = s.usb.hid ∧ Heard 1 s t 107 port)
  ∧ Leaves .deviceFunctionBusReset s { s with
      mbx := { s.mbx with usbReply := none, usbWait := [], usbMute := (s.mbx.waiting.filter fun w => w.msg.rq.via == .usb).length }
      rcd := { s.rcd with ep2 := [] }, usb := { s.usb with fnSetup := [] } })
  ∧ (∀ (s : State) (k : Nat), s.awake = true →
  (∀ f : UsbFrame, s.isUsbHub = true → f.port = k → 1 ≤ k → k ≤ 4 → f.data = [ctlSuspend] →
    Leaves (.usbPortCtrlFrame f) s (s.setUsbPort k fun x => { x with suspended := true }))
  ∧ (∀ f : UsbFrame, s.isUsbHub = true → f.port = k → 1 ≤ k → k ≤ 4 → f.data = [ctlReset] → (s.usbPort k).absorb = true →
      (s.usbPort k).kept = true → s.usb.ports.length = 4 →
    Gives (.usbPortCtrlFrame f) s fun t => (t.usbPort k).absorb = false ∧ (t.usbPort k).enabled = true ∧ Heard 1 s t 106 k)
  ∧ (∀ speed, 1 ≤ k → k ≤ 4 → (s.usbPort k).resetting = true → k ≠ 3 ∨ s.port3Taken = false →
    Leaves (.remotePortResetEnd k speed) s (s.setUsbPort k fun x => { x with resetting := false, enabled := x.connected, speed := speed }))
  ∧ (∀ root (f : UsbFrame), s.isUsbUp = true → 2 ≤ (s.remote root).state → f.port = k → 1 ≤ k → k ≤ 4 → f.data = [3, 1, 2] →
      (nth (s.remote root).ports (k - 1) (0, 0, 0)).1 = 1 →
    Gives (.usbPortStateFrame root f) s fun t =>
      t.hush = (s.setRemote root fun r => { r with
        ports := put r.ports (k - 1) (3, (nth (s.remote root).ports (k - 1) (0, 0, 0)).2.1 ||| 1, 2) }).hush ∧ Heard 1 s t 99 (root + 16))
  ∧ (s.isUsbHub = true → s.cv Fld.KEEPALIVE_ENABLE = 1 → s.usb.absent = false → s.usb.expired = false →
    Gives (.usbBusStateFrame 3) s fun t => t.usb.absent = true ∧ t.usb.absentAt = s.time.tick ∧ t.usb.busState = 3)
  ∧ (∀ root port, s.isUsbUp = true → port ≠ 0 → s.usb.upstream = 4 → s.usb.hostResume = false → s.usb.waking = false →
    Gives (.usbWakeFrame root port) s fun t => t.hush = ({ s with usb := { s.usb with waking := true } } : State).hush
      ∧ Emit.usbBus 255 1 ∈ t.out ∧ Heard 1 s t 103 root)
  ∧ (s.isUsbHub = true → s.usb.wakeOn = true → 1 ≤ k → k ≤ 4 → (s.usbPort k).suspended = true → (s.usbPort k).resuming = none →
      s.usb.busState ≠ 0 →
    Leaves (.deviceRemoteWake k) s ((s.setUsbPort k fun x => { x with resuming := some s.time.tick }).setUsbPort k fun x => { x with
      cSuspend := true }))
  ∧ (∀ t0, 1 ≤ k → k ≤ 4 → (s.usbPort k).resuming = some t0 → s.passed t0 (msTicks 20) = true → s.usb.running = true →
    Leaves (.remoteResumeEnd k) s (s.setUsbPort k fun x => { x with resuming := none, suspended := false }))
  ∧ (∀ t0, (s.usbPort k).resuming = some t0 → s.passed t0 (msTicks 20) = false → Leaves (.remoteResumeEnd k) s s)
  ∧ (∀ speed, s.isUsbUp = false → s.isUsbHub = false → s.usb.upstream ≠ 4 →
    Gives (.usbUpstreamLinkChange 2 speed) s fun t =>
      t.hush = ({ s with usb := { s.usb with upstream := 4, hostResume := false, waking := false } } : State).hush ∧ Heard 1 s t 96 64)
  ∧ (s.usb.absent = true → 1 ≤ k → k ≤ 4 → (s.usbPort k).hid = false → (s.usbPort k).power = true → (s.usbPort k).suspended = false →
      s.cv Fld.KEEPALIVE_IDLE_SUSPEND_MS ≠ 0 → s.passed (s.usbPort k).trafficAt (msTicks (s.cv Fld.KEEPALIVE_IDLE_SUSPEND_MS)) = true →
    Says (.keepaliveIdleSuspend k) s (s.setUsbPort k fun x => { x with suspended := true }) [.usbBus k 0])
  ∧ (s.passed (s.usbPort k).trafficAt (msTicks (s.cv Fld.KEEPALIVE_IDLE_SUSPEND_MS)) = false → Leaves (.keepaliveIdleSuspend k) s s)
  ∧ (s.usb.absent = true → s.cv Fld.KEEPALIVE_S ≠ 0 → s.passed s.usb.absentAt (secTicks (s.cv Fld.KEEPALIVE_S)) = true →
    Gives .keepaliveTimeout s fun t => t.usb.hid = [] ∧ t.usb.absent = false ∧ t.usb.expired = true ∧ Heard 1 s t 105 16)
  ∧ (s.passed s.usb.absentAt (secTicks (s.cv Fld.KEEPALIVE_S)) = false → Leaves .keepaliveTimeout s s))

/-- Network frames (R322 to R324, R327 to R329, R331, R334): what the MACs receive and send, PAUSE, and the transmit rings.
Presence, wakes, link state and ageing of the network (R325, R329, R337, R340, R343, R344).
Model's choices in its clauses, no rules of the spec: the byte orders and places in tunnel messages (log entry 29). -/
def Obligations.NetworkTraffic : Prop :=
  (∀ (s : State) (mac : Nat),
  (∀ wire, s.netLive = true → mac ≤ 1 → (s.mac mac).up = true → s.netPort = true → wire.length < 64 →
    Leaves (.macFrameReceive mac wire) s (s.setMac mac fun m => { m with short := satAdd 32 m.short 1 }))
  ∧ (∀ wire, s.netLive = true → mac ≤ 1 → (s.mac mac).up = true → s.netPort = true → 64 ≤ wire.length →
      (s.mac mac).maxFrame < wire.length →
    Leaves (.macFrameReceive mac wire) s (s.setMac mac fun m => { m with long := satAdd 32 m.long 1 }))
  ∧ (∀ wire, s.netLive = true → mac ≤ 1 → (s.mac mac).up = true → s.netPort = true → 64 ≤ wire.length →
      wire.length ≤ (s.mac mac).maxFrame → wire.drop (wire.length - 4) ≠ fcsBytes (wire.take (wire.length - 4)) →
    Leaves (.macFrameReceive mac wire) s (s.setMac mac fun m => { m with fcs := satAdd 32 m.fcs 1 }))
  ∧ (∀ frame, s.netLive = true → mac ≤ 1 → (s.mac mac).up = true → s.netPort = true → 60 ≤ frame.length →
      frame.length + 4 ≤ (s.mac mac).maxFrame → beAt 12 2 frame = 0x8808 → beAt 14 2 frame = 1 → beAt 16 2 frame ≠ 0 →
    Leaves (.macFrameReceive mac (frame ++ fcsBytes frame)) s ((s.setMac mac fun m => { m with framesIn := satAdd 64 m.framesIn 1 }).setMac mac
      fun m => { m with pauseEnd := some (s.time.tick + BitVec.ofNat 48
        (ceilDiv (beAt 16 2 frame * 512 * 32) (max 1 (speedMbps (s.mac mac).speed) * 1000))) }))
  ∧ (∀ frame, s.netLive = true → mac = s.net.boundMac → mac ≤ 1 → (s.mac mac).up = true → s.netPort = true → 60 ≤ frame.length →
      frame.length + 4 ≤ (s.mac mac).maxFrame → frame.length ≤ 262144 → beAt 12 2 frame ≠ 0x8808 → (s.mac mac).rxBuf = [] →
      s.net.bound = true → s.net.suspended = false → s.net.absent = false → s.net.flows = [] → s.net.rules = [] → s.net.meters = [] →
      s.net.labels = [] → s.cv Fld.NET_PAUSE = 0 → s.classReady 9 2 = true → s.net.macs.length = 2 →
    Gives (.macFrameReceive mac (frame ++ fcsBytes frame)) s fun t =>
      (t.mac mac).framesIn = satAdd 64 (s.mac mac).framesIn 1 ∧ (t.mac mac).rxBuf = []
      ∧ t.out = [.netMsg 0 (s.netCells 0 mac 0 false (flowHash (flowKey mac false frame)) 0 frame)])
  ∧ (∀ sp, s.netLive = true → mac ≤ 1 → (s.mac mac).up = true →
    Gives (.macLinkChange mac false sp) s fun t =>
      t.hush = (s.setMac mac fun m => { m with
        up := false, speed := 0, pauseEnd := none, txBuf := [], txDrops := satAdd 32 m.txDrops m.txBuf.length }).hush ∧ Heard 1 s t 112 mac)
  ∧ (∀ q n frame, s.awake = true → s.netFunction = true → s.net.enable = true → s.net.d3hot = false → q < s.net.queues → n ≠ 0 →
      n ≤ (s.txRing q).filled → s.net.bound = false → s.classReady 9 2 = true →
    Leaves (.netTxFetch q n frame) s { s with net := { s.net with
      tx := s.net.tx.modify q fun r => { r with head := (r.head + n) % r.size }, fetchDrops := satAdd 32 s.net.fetchDrops 1 } })
  ∧ (∀ q n frame, s.awake = true → (s.net.enable = false ∨ s.net.d3hot = true ∨ (s.txRing q).filled < n ∨ s.classReady 9 2 = false) →
    Leaves (.netTxFetch q n frame) s s)
  ∧ (∀ q v, s.awake = true → q < 8 → s.netFunction = true →
    Leaves (.netTailWrite (0x1000 + 64 * q + 12) v) s { s with net := { s.net with
      tx := s.net.tx.modify q fun r => { r with tail := v % 4096 } } })
  ∧ (∀ pme, s.awake = true → s.netFunction = true →
    Leaves (.netEnableWrite 1 false pme) s { s with net := { s.net with
      enable := true, promisc := false, d3hot := false, pmeEn := pme, pmeStatus := false } })
  ∧ (s.awake = true → s.netFunction = true → s.net.enable = true → s.net.wbAt = 0 ∨ s.net.wbAt + 8 * s.cv Fld.NET_WB_US ≤ s.slotCount →
      s.net.tx.length = 8 → s.net.rx.length = 8 →
    Gives .netWriteBack s fun t => ∀ q, q < 8 → (t.txRing q).back = (s.txRing q).head ∧ (t.rxRing q).back = (s.rxRing q).head
      ∧ ((s.txRing q).head ≠ (s.txRing q).back →
          Emit.hostWrite (s.net.wb + 8 * q) (leBytes 4 (s.txRing q).head ++ leBytes 4 (s.rxRing q).head) ∈ t.out))
  ∧ (s.awake = true → s.net.wbAt ≠ 0 → s.slotCount < s.net.wbAt + 8 * s.cv Fld.NET_WB_US → Leaves .netWriteBack s s)
  ∧ (∀ l g held hash bufs frame, s.awake = true → s.net.bound = true → s.netPort = true → (s.mac (mac % 2)).up = true →
      (∀ x ∈ s.net.labels, x.2 ≠ 8) → s.macHeld (mac % 2) = false → (s.mac (mac % 2)).txBuf = [] →
    Says (.netTunnelFrame l mac g held false hash bufs frame) s (s.setMac (mac % 2) fun x => { x with framesOut := satAdd 64 x.framesOut 1 })
      [.ethFrame (mac % 2) (frame ++ zeros (60 - frame.length) ++ fcsBytes (frame ++ zeros (60 - frame.length)))])
  ∧ (∀ l g held hash bufs frame, s.awake = true → s.net.bound = true → s.netPort = true → (s.mac (mac % 2)).up = true →
      (∀ x ∈ s.net.labels, x.2 ≠ 8) → s.macHeld (mac % 2) = true →
    Says (.netTunnelFrame l mac g held false hash bufs frame) s (s.setMac (mac % 2) fun x => { x with txBuf := x.txBuf ++ [frame] }) []))
  ∧ (∀ s : State, s.awake = true →
  (∀ present mac addr, s.netPort = true → s.net.bound = true →
    Leaves (.presence present mac addr) s { s with net := { s.net with
      saidAbsent := !present, boundMac := mac % 2, hostMac := addr % 2 ^ 48 } })
  ∧ (∀ source, s.netFunction = true → s.net.pmeStatus = false → s.net.pmeEn = true → (s.pcLink 0).state = 2 →
    Gives (.wake source) s fun t =>
      t.hush = ({ s with net := { s.net with pmeStatus := true, wakes := satAdd 32 s.net.wakes 1 } } : State).hush
      ∧ Emit.pmPme ∈ t.out ∧ Heard 1 s t 118 (source % 32))
  ∧ (∀ source, s.net.pmeStatus = true → Leaves (.wake source) s s)
  ∧ (∀ mac up speed mx, s.netFunction = true → s.net.bound = true →
    Leaves (.linkState mac up speed mx) s { s with net := { s.net with
      farLink := up, farSpeed := if up then speed else 0, farMax := mx, boundMac := if s.net.macKnown then s.net.boundMac else mac % 2
      macKnown := true } })
  ∧ (∀ b, Leaves (.flowAgeSweep b) s { s with net := { s.net with flows := s.net.flows.filter fun e =>
      !(e.bucket == b && !e.static && decide (s.cv Fld.FLOW_AGE_S * 32000 ≤ (s.tick32 - e.last).toNat)) } })
  ∧ (s.net.wakePending = true → msTicks (s.cv Fld.NET_WAKE_BUFFER_MS) ≤ tickDiff s.time.tick s.net.wakeAt →
    Leaves .wakeBufferTimeout s { s with net := { s.net with
      wakePending := false, bufDrops := satAdd 32 s.net.bufDrops s.net.wakeBuf.length, wakeBuf := [] } })
  ∧ (tickDiff s.time.tick s.net.wakeAt < msTicks (s.cv Fld.NET_WAKE_BUFFER_MS) → Leaves .wakeBufferTimeout s s))

/-- The network commands (Table 12.8, R325, R326, R336, R338, R339, R341).
Model's choices in its clauses, no rules of the spec: which number a handle gets (log entry 7). -/
def Obligations.NetCommands : Prop :=
  Shows .netShow Cmd.netShow 1 (fun rq _ => arg rq 0 1 ≤ 1) (fun rq s =>
      let m := s.mac (arg rq 0 1)
      leBytes 1 (nth s.topo.ends 6 0) ++ leBytes 1 (if m.up then m.speed else 0) ++ leBytes 1 (b2n s.net.bound)
        ++ leBytes 1 s.presenceState ++ leBytes 8 m.framesIn ++ leBytes 8 m.framesOut ++ leBytes 4 m.fcs ++ leBytes 4 m.overflow
        ++ leBytes 4 s.net.flows.length ++ leBytes 4 s.net.learnFails)
  ∧ (∀ rq s, Admitted Cmd.netBind 4 rq s → s.jobRoom rq → s.netFunction = true → bitAt (arg rq 3 1) 0 = true → s.net.bound = true →
    ∃ t, exec (.netBind rq) s = .next t ∧ t.Replied rq .accepted (s.chan (viaChan rq.via)).freeHandle []
      ∧ t.net.bound = false ∧ t.net.groups = [] ∧ t.net.farLink = false)
  ∧ Fails .netBind Cmd.netBind 4 (fun _ s => s.netFunction = false) .badState
  ∧ (∀ rq s x, Admitted Cmd.netGroupSet 12 rq s → s.jobRoom rq → s.netFunction = true → 1 ≤ arg rq 0 1 → arg rq 0 1 ≤ 7 →
      bitAt (arg rq 1 1) 0 = true → s.net.bound = true → s.netGroup (arg rq 0 1) = some x →
    ∃ t, exec (.netGroupSet rq) s = .next t ∧ t.Replied rq .accepted (s.chan (viaChan rq.via)).freeHandle []
      ∧ t.net.groups = s.net.groups.filter fun y => y.group != arg rq 0 1)
  ∧ Does .netRuleSet Cmd.netRuleSet 96 (fun rq s => arg rq 0 1 ≤ 253 ∧ fieldAt (arg rq 88 8) 62 2 ≠ 3)
      (fun rq s => { s with net := { s.net with ruleNext := s.net.ruleNext ++ [{
        index := arg rq 0 1, gen := (s.ruleGen (arg rq 0 1) + 1) % 65536, isSet := !bitAt (arg rq 1 1) 0
        value := slice 4 42 rq.payload, mask := slice 46 42 rq.payload, act := actOf (arg rq 88 8) }] } })
      (fun rq s => leBytes 2 ((s.ruleGen (arg rq 0 1) + 1) % 65536))
  ∧ Does .netFlowSet Cmd.netFlowSet 56
      (fun rq s => bitAt (arg rq 0 1) 0 = false ∧ fieldAt (arg rq 48 8) 62 2 ≠ 3 ∧ s.bucket (flowBucket (slice 4 42 rq.payload)) = []
        ∧ (s.net.flows.find? fun e => e.key == slice 4 42 rq.payload) = none)
      (fun rq s => s.putFlow { bucket := flowBucket (slice 4 42 rq.payload), way := 0, key := slice 4 42 rq.payload, rule := 0xFFFF, gen := 0
                               static := true, act := { actOf (arg rq 48 8) with learn := false }, last := s.tick32, hits := 0 })
      (fun _ _ => [])
  ∧ Fails .netFlowSet Cmd.netFlowSet 56
      (fun rq s => bitAt (arg rq 0 1) 0 = true ∧ (s.net.flows.find? fun e => e.key == slice 4 42 rq.payload) = none) .badHandle
  ∧ (∀ e, Shows .netFlowShow Cmd.netFlowShow 42 (fun rq s => (s.net.flows.find? fun e => e.key == slice 0 42 rq.payload) = some e)
      (fun _ _ => flowBytes e))
  ∧ Does .netMeterSet Cmd.netMeterSet 12
      (fun rq _ => 1 ≤ arg rq 0 2 ∧ arg rq 0 2 ≤ 4095 ∧ 1 ≤ arg rq 4 4 ∧ arg rq 4 4 ≤ 25000 ∧ 1518 ≤ arg rq 8 4 ∧ arg rq 8 4 ≤ 1048576)
      (fun rq s => { s with net := { s.net with meters := (s.net.meters.filter fun m => m.id != arg rq 0 2) ++ [{
        id := arg rq 0 2, mbps := arg rq 4 4, burst := arg rq 8 4, tokens := arg rq 8 4 * 64, filled := s.slotCount
        drops := ((s.net.meters.find? fun m => m.id == arg rq 0 2).map (·.drops)).getD 0 }] } })
      (fun rq s => leBytes 8 (((s.net.meters.find? fun m => m.id == arg rq 0 2).map (·.drops)).getD 0))
  ∧ Does .netPresenceSet Cmd.netPresenceSet 4
      (fun rq s => s.netPort = true ∧ arg rq 0 1 = 5 ∧ arg rq 2 2 = 0)
      (fun _ s => { s with net := { s.net with v4 := [], v6 := [], mdns := [], patterns := [], magic := false } }) (fun _ _ => [])
  ∧ Shows .netPresenceShow Cmd.netPresenceShow 0 (fun _ _ => True) (fun _ s =>
      leBytes 1 s.presenceState ++ leBytes 1 (total ((s.net.v4.filter fun x => x.2.2).map fun x => 2 ^ x.1))
        ++ leBytes 2 (total ((s.net.v6.filter fun x => x.2.2).map fun x => 2 ^ x.1)) ++ leBytes 4 s.net.arp ++ leBytes 4 s.net.nd
        ++ leBytes 4 s.net.mdnsCnt ++ leBytes 4 s.net.wakes ++ leBytes 4 s.net.bufCnt ++ leBytes 4 s.net.bufDrops)
  ∧ Does .netClear Cmd.netClear 1 (fun rq _ => arg rq 0 1 ≤ 1)
      (fun rq s => s.setMac (arg rq 0 1) fun m =>
        { m with framesIn := 0, framesOut := 0, short := 0, long := 0, fcs := 0, overflow := 0, txDrops := 0 }) (fun _ _ => [])

/-- The sideband bridge (R349 to R354): transactions and locks between hubs, on the buses and from the target interfaces. `frame` is a state with a
sideband frame handed to a port's link as a PEER message (Table 13.3). A timer's command that comes before its time changes nothing.
The sideband's interrupt sources, fans and UARTs (R355, R357, R358, Table 13.1): a bit set on its source's edge, told to an XJT4200 where it
is exported.
Model's choices in its clauses, no rules of the spec: the numbering of transactions, the order of retries and the spelling of a holder
(log entry 30); that a timer's command before its time changes nothing, and how a time is counted in ticks (log entry 55). -/
def Obligations.SidebandBridge : Prop :=
  (∀ s : State, s.awake = true →
  let frame := fun (u : State) (p op num : Nat) (bs : List Byte) =>
    u.peerSend p (reqBytes op ⟨.peer p, BitVec.ofNat 16 num, 0, 0, 0, bs⟩)
  (∀ port num (r : SbRoute) (x : SbXfer), s.sb.txs = [] → r.hops = 0 → r.dstKind = 5 → x.data = [] → x.reads = 2 → x.lock = 0 →
      s.sbLockOn 5 r.dstIf = none →
    Gives (.sbXferFrame port num r x) s fun t => t.sb.txs = [] ∧ t.out = [.sbBus 5 r.dstIf r.dstId 2 x.repeatedStart []]
      ∧ t.cable = (frame s port sbXferRepOp num (leBytes 1 0 ++ zeros 3 ++ leBytes 2 (nth s.sb.rpm (r.dstId % 4) 0))).cable)
  ∧ (∀ port (x : SbTx) up n reply, s.sb.txs = [x] → s.sb.waits = [] → x.sentOn = some port → x.origin = .frame up n → reply ≠ [] →
      leAt 0 1 reply ≠ 7 →
    Leaves (.sbXferRep port x.num reply) s
      (frame { s with sb := { s.sb with txs := [] } } up sbXferRepOp n (leBytes 1 (leAt 0 1 reply) ++ zeros 3 ++ reply.drop 4)))
  ∧ (∀ port num (r : SbRoute) h, s.sb.txs = [] → r.hops = 0 → s.sbLockOn r.dstKind r.dstIf = none →
    let k := s.sb.nextLock + 65536 * (s.topo.depth % 16)
    Leaves (.sbLockFrame port num r h) s (frame { s with sb := { s.sb with
        nextLock := if s.sb.nextLock == 65535 then 1 else s.sb.nextLock + 1
        locks := s.sb.locks ++ [⟨k, r.dstKind, r.dstIf, s.sbHolder port h, .frame port num, false, s.time.tick⟩] } }
      port sbLockRepOp num (leBytes 1 0 ++ leBytes 4 k)))
  ∧ (∀ port num (r : SbRoute) h l, s.sb.txs = [] → r.hops = 0 → s.sbLockOn r.dstKind r.dstIf = some l →
      sbOlder (s.sbHolder port h) l.holder = false →
    Leaves (.sbLockFrame port num r h) s { s with sb := { s.sb with
        waits := s.sb.waits ++ [⟨num, .frame port num, r, s.sbHolder port h, none, false, s.time.tick⟩] } })
  ∧ (∀ port (w : SbWait) up n handle, s.sb.waits = [w] → s.sb.txs = [] → w.sentOn = some port → w.origin = .frame up n →
    Leaves (.sbLockRep port w.num 1 handle) s
      (frame { s with sb := { s.sb with waits := [] } } up sbLockRepOp n (leBytes 1 1 ++ leBytes 4 handle)))
  ∧ (∀ port l lapsed, s.sb.passed = [] → (s.sb.locks.find? fun x => x.handle == l.handle) = some l → s.sb.waits = [] → s.sb.txs = [] →
    Gives (.sbUnlockFrame port l.handle lapsed) s fun t => t.sb.locks = s.sb.locks.filter (fun x => x.handle != l.handle)
      ∧ (lapsed = true → Heard 1 s t 124 (l.intf % 16)))
  ∧ (∀ port other handle lapsed, s.sb.passed = [(handle, port, other)] → s.linkUp other = true →
    Leaves (.sbUnlockFrame port handle lapsed) s
      (frame { s with sb := { s.sb with passed := [] } } other sbUnlockOp (b2n lapsed) (leBytes 4 handle)))
  ∧ (∀ port h, s.sb.waits = [] → s.sb.txs = [] → s.topo.role = .hostside → h.depth ≠ s.topo.depth →
    Gives (.sbWound port h) s fun t => t.sb.locks = s.sb.locks.filter fun l => !sbSame l.holder { h with chain := port })
  ∧ (∀ intf addr r b, nth s.sbModes.sb.modes intf 0 = 4 → s.sb.txs = [] → s.sbRoute 1 intf addr = some r → r.hops = 0 → r.dstKind = 5 →
      r.writeOk = true → s.sbLockOn 5 r.dstIf = none →
    Gives (.i2cTargetTransaction intf addr 0 [b]) s fun t => t.sb.duty = put s.sb.duty (r.dstId % 4) b.toNat
      ∧ t.out = [.sbTarget intf 1 [], .sbBus 5 r.dstIf r.dstId 0 false [b], .fan (r.dstId % 4) b.toNat])
  ∧ (∀ intf addr, nth s.sbModes.sb.modes intf 0 = 4 → s.sbRoute 1 intf addr = none →
    Gives (.i2cTargetTransaction intf addr 0 []) s fun t => t.out = [.sbTarget intf 0 []] ∧ Heard 1 s t 127 (addr % 1024 + 1024))
  ∧ (∀ intf addr h, (s.sb.holds.find? fun h => h.intf == intf && h.addr == addr) = some h →
      h.since + 8 * s.cv Fld.SB_HOLD_US ≤ s.slotCount →
    Gives (.sbHoldExpiry intf addr) s fun t =>
      t.hush = ({ s with sb := { s.sb with holds := s.sb.holds.erase h, holdTimeouts := satAdd 32 s.sb.holdTimeouts 1 } } : State).hush
      ∧ Emit.sbTarget intf 2 (List.replicate h.reads 0xFF) ∈ t.out ∧ Heard 1 s t 121 (intf % 4 + 4 * (addr % 1024)))
  ∧ (∀ intf addr h, (s.sb.holds.find? fun h => h.intf == intf && h.addr == addr) = some h →
      s.slotCount < h.since + 8 * s.cv Fld.SB_HOLD_US → Leaves (.sbHoldExpiry intf addr) s s)
  ∧ (∀ x : SbTx, s.sb.txs = [x] → x.running = true → x.sentOn = none → x.tries < 3 →
    Says (.sbArbitrationLost x.route.dstKind x.route.dstIf) s { s with sb := { s.sb with txs := [{ x with tries := x.tries + 1 }] } }
      [.sbBus x.route.dstKind x.route.dstIf x.route.dstId x.xfer.reads x.xfer.repeatedStart x.xfer.data])
  ∧ (∀ (x : SbTx) res data p n, s.sb.txs = [x] → x.running = true → x.sentOn = none → s.sb.locks = [] → x.origin = .frame p n →
    Leaves (.busTransactionComplete x.route.dstKind x.route.dstIf res data) s
      (frame { s with sb := { s.sb with txs := [] } } p sbXferRepOp n (leBytes 1 (res % 5) ++ zeros 3 ++ data.take x.xfer.reads)))
  ∧ (∀ kind intf, s.sb.txs = [] →
    Gives (.sbSdaStuck kind intf) s fun t =>
      t.hush = ({ s with sb := { s.sb with busErrs := satAdd 32 s.sb.busErrs 1 } } : State).hush
      ∧ Emit.sbClocks intf ∈ t.out ∧ Heard 1 s t 122 (intf % 16 + 64))
  ∧ (∀ l, (s.sb.locks.find? fun x => x.handle == l.handle) = some l → s.sb.waits = [] → s.sb.txs = [] →
      s.passed l.since (msTicks (s.cv Fld.SB_LOCK_MS)) = true →
    Gives (.sbLockLeaseExpiry l.handle) s fun t =>
      t.sb.locks = (s.sb.locks.filter fun x => x.handle != l.handle) ∧ Heard 1 s t 124 (l.intf % 16))
  ∧ (∀ l, (s.sb.locks.find? fun x => x.handle == l.handle) = some l → s.passed l.since (msTicks (s.cv Fld.SB_LOCK_MS)) = false →
    Leaves (.sbLockLeaseExpiry l.handle) s s)
  ∧ (∀ i (w : SbWait) p n, s.sb.waits[i]? = some w → w.sentOn = none → w.origin = .frame p n →
      s.passed w.since (msTicks (s.cv Fld.SB_LOCK_WAIT_MS)) = true →
    Leaves (.sbLockWaitExpiry i) s
      (frame { s with sb := { s.sb with waits := s.sb.waits.eraseIdx i } } p sbLockRepOp n (leBytes 1 1 ++ leBytes 4 0)))
  ∧ (∀ i (w : SbWait), s.sb.waits[i]? = some w → s.passed w.since (msTicks (s.cv Fld.SB_LOCK_WAIT_MS)) = false →
    Leaves (.sbLockWaitExpiry i) s s))
  ∧ (∀ s : State, s.awake = true →
  (∀ port line, s.gen1Ports.contains port = true → line < 8 → s.cv Fld.SB_IRQ_EXPORT = 0 →
    Leaves (.sbIrq port line 0) s { s with sb := { s.sb with pending := s.sb.pending &&& ~~~(BitVec.ofNat 32 (2 ^ (24 + line))) } })
  ∧ (∀ port line lv, s.gen1Ports.contains port = false → Leaves (.sbIrq port line lv) s s)
  ∧ (∀ source, source < 16 → s.sb.gpioDir.getLsbD source = false → s.gen1Ports = [] →
      (∀ m ∈ s.sb.irqMask, m &&& BitVec.ofNat 32 (2 ^ source) = 0) →
    Leaves (.sbIrqSourceEdge source) s { s with sb := { s.sb with pending := s.sb.pending ||| BitVec.ofNat 32 (2 ^ source) } })
  ∧ (∀ source, source < 16 → s.sb.gpioDir.getLsbD source = true → Leaves (.sbIrqSourceEdge source) s s)
  ∧ (∀ source p, source < 16 → s.sb.gpioDir.getLsbD source = false → s.gen1Ports = [p] → s.cv Fld.SB_IRQ_EXPORT = 2 ^ source →
      s.sb.pending = 0 → (∀ m ∈ s.sb.irqMask, m &&& BitVec.ofNat 32 (2 ^ source) = 0) →
    Leaves (.sbIrqSourceEdge source) s ({ s with sb := { s.sb with pending := BitVec.ofNat 32 (2 ^ source) } } |>.peerSend p
      (reqBytes sbIrqOp ⟨.peer p, 0, 0, 0, 0, leBytes 1 (source % 8) ++ leBytes 1 1⟩)))
  ∧ (∀ fan, fan < 4 → s.gen1Ports = [] → (∀ m ∈ s.sb.irqMask, m &&& BitVec.ofNat 32 (2 ^ (16 + fan)) = 0) →
    Leaves (.sbIrqSourceEdge (16 + fan)) s { s with sb := { s.sb with
      pending := s.sb.pending ||| BitVec.ofNat 32 (2 ^ (16 + fan)), fanLow := put s.sb.fanLow fan true } })
  ∧ (∀ source m, source < 16 → s.sb.gpioDir.getLsbD source = false → s.sb.irqMask = [m] → m = BitVec.ofNat 32 (2 ^ source) →
      s.sb.pending = 0 → s.sb.irqTick ≠ some s.time.tick →
    Gives (.sbIrqSourceEdge source) s fun t => t.sb.pending = m ∧ t.sb.irqTick = some s.time.tick ∧ Heard 1 s t 120 m.toNat)
  ∧ (∀ fan pulses, fan < 4 → nth s.sb.fanLow fan false = false →
    Gives (.fanTachFault fan pulses) s fun t => t.sb.rpm = put s.sb.rpm fan (min 30000 (pulses * 60 / max 1 (s.cv Fld.FAN_PULSES)))
      ∧ t.sb.pending = s.sb.pending ||| BitVec.ofNat 32 (2 ^ (16 + fan)) ∧ Heard 2 s t 125 fan)
  ∧ (∀ fan pulses, fan < 4 → nth s.sb.fanLow fan false = true →
    Gives (.fanTachFault fan pulses) s fun t => t.sb.pending = s.sb.pending ∧ t.sb.fanLow = put s.sb.fanLow fan false ∧ Heard 1 s t 125 fan)
  ∧ (∀ i bytes, i < 2 → bytes ≠ [] →
    Gives (.uartReceive i bytes) s fun t => t.sb.uartRx = put s.sb.uartRx i ((nth s.sb.uartRx i [] ++ bytes).take 2048)
      ∧ t.sb.pending = s.sb.pending ||| BitVec.ofNat 32 (2 ^ (20 + i))
      ∧ (2048 < (nth s.sb.uartRx i [] ++ bytes).length → Heard 2 s t 126 i)))

/-- The sideband commands (Tables 13.2 and 13.5, R350, R351, R353, R355, R356, R358).
Model's choices in its clauses, no rules of the spec: how a holder is spelled (log entry 30) and where the numbers of locks start (log
entry 44). -/
def Obligations.SidebandCommands : Prop :=
  Shows .sbShow Cmd.sbShow 0 (fun _ _ => True) (fun _ s =>
      leBytes 4 s.sb.pending.toNat ++ leBytes 1 s.sb.locks.length
        ++ leBytes 1 (s.sb.waits.filter fun w => w.sentOn.isNone).length ++ zeros 2 ++ leBytes 4 s.sb.holdTimeouts
        ++ leBytes 4 s.sb.busErrs)
  ∧ Does .sbRouteSet Cmd.sbRouteSet 16 (fun rq _ => arg rq 0 1 ≤ 63 ∧ bitAt (arg rq 8 8) 63 = false)
      (fun rq s => { s with sb := { s.sb with routes := put s.sb.routes (arg rq 0 1) none } }) (fun _ _ => [])
  ∧ (∀ r, Does .sbRouteSet Cmd.sbRouteSet 16
      (fun rq s => arg rq 0 1 ≤ 63 ∧ routeOf (arg rq 8 8) = some r ∧ routeReserved r = false ∧ ∀ q ∈ s.sb.routes, q = none)
      (fun rq s => { s with sb := { s.sb with routes := put s.sb.routes (arg rq 0 1) (some r) } }) (fun _ _ => []))
  ∧ Shows .sbRouteShow Cmd.sbRouteShow 1 (fun rq _ => arg rq 0 1 ≤ 63)
      (fun rq s => leBytes 8 (routeWord (nth s.sb.routes (arg rq 0 1) none)))
  ∧ (∀ rq s r, Admitted Cmd.sbXfer 12 rq s → rq.payload.length = 12 → arg rq 2 2 = 0 → arg rq 4 2 = 2 → arg rq 8 4 = 0 →
      s.sbRoute 0 0 (arg rq 0 2) = some r → r.readOk = true → r.hops = 0 → r.dstKind = 5 → s.sb.txs = [] → s.sbLockOn 5 r.dstIf = none →
    ∃ t, exec (.sbXfer rq) s = .next t
      ∧ t.Replied rq .ok 0 (leBytes 1 0 ++ zeros 3 ++ leBytes 2 (nth s.sb.rpm (r.dstId % 4) 0)) ∧ t.sb.txs = [])
  ∧ (∀ rq s r, Admitted Cmd.sbLock 2 rq s → s.sbRoute 0 0 (arg rq 0 2) = some r → r.hops = 0 → s.sbLockOn r.dstKind r.dstIf = none →
    let k := s.sb.nextLock + 65536 * (s.topo.depth % 16)
    ∃ t, exec (.sbLock rq) s = .next t ∧ t.Replied rq .ok 0 (leBytes 4 k)
      ∧ ∃ l ∈ t.sb.locks, l.handle = k ∧ l.kind = r.dstKind ∧ l.intf = r.dstIf)
  ∧ (∀ rq s a h l, Admitted Cmd.sbUnlock 4 rq s → s.sbAge (chanNum (viaChan rq.via)) rq.cred.toNat = some a →
      (a.held.find? fun h => h.handle == arg rq 0 4) = some h → h.port = none → (s.sb.locks.find? fun l => l.handle == arg rq 0 4) = some l →
      s.sb.waits = [] → s.sb.txs = [] →
    ∃ t, exec (.sbUnlock rq) s = .next t ∧ t.Replied rq .ok 0 []
      ∧ t.sb.locks = s.sb.locks.filter fun x => x.handle != arg rq 0 4)
  ∧ Fails .sbUnlock Cmd.sbUnlock 4 (fun rq s => s.sbAge (chanNum (viaChan rq.via)) rq.cred.toNat = none) .badHandle
  ∧ Does .sbIrqRead Cmd.sbIrqRead 4 (fun _ _ => True)
      (fun rq s => { s with sb := { s.sb with pending := s.sb.pending &&& ~~~(BitVec.ofNat 32 (arg rq 0 4)) } })
      (fun _ s => leBytes 4 s.sb.pending.toNat)
  ∧ Does .sbIrqMask Cmd.sbIrqMask 4 (fun _ _ => True)
      (fun rq s => { s with sb := { s.sb with
        irqMask := put s.sb.irqMask (chanNum (viaChan rq.via)) (BitVec.ofNat 32 (arg rq 0 4)) } }) (fun _ _ => [])
  ∧ (∀ pulses, Does (.sbFanSet · pulses) Cmd.sbFanSet 2 (fun rq _ => arg rq 0 1 ≤ 3)
      (fun rq s => { s with sb := { s.sb with
        duty := put s.sb.duty (arg rq 0 1) (arg rq 1 1), rpm := put s.sb.rpm (arg rq 0 1) (s.fanRpm pulses) } })
      (fun _ s => leBytes 2 (s.fanRpm pulses)))

/-- The sys commands (Tables 3.12, 21.9, 22.3 and 22.4; R56, R58, R59, R67, R81, R551, R564): ping, events, results, credentials, faults. -/
def Obligations.SysCommands : Prop :=
  Shows .sysPing Cmd.sysPing 0 (fun _ _ => True) (fun _ _ => [])
  ∧ (∀ rq s, Admitted Cmd.sysEventRead 1 rq s → (∀ i, rq.via ≠ .gate i) → 1 ≤ arg rq 0 1 → arg rq 0 1 ≤ 63 → s.mbx.unatt = false →
    ∃ t, exec (.sysEventRead rq) s = .next t
      ∧ t.Replied rq .ok 0 (eventReply (arg rq 0 1) (s.chan (viaChan rq.via)).lost (s.chan (viaChan rq.via)).queue)
      ∧ (t.chan (viaChan rq.via)).queue = (s.chan (viaChan rq.via)).queue.drop (arg rq 0 1)
      ∧ (t.chan (viaChan rq.via)).lost = 0 ∧ (t.chan (viaChan rq.via)).attn = false)
  ∧ Fails .sysEventRead Cmd.sysEventRead 1 (fun rq _ => arg rq 0 1 = 0 ∨ 63 < arg rq 0 1) .badState
  ∧ Does .sysEventMask Cmd.sysEventMask 24 (fun rq _ => ∀ i, rq.via ≠ .gate i)
      (fun rq s => s.modChan (viaChan rq.via) fun c => { c with mask := BitVec.ofNat 192 (arg rq 0 24) }) (fun _ _ => [])
  ∧ (∀ rq s j rc data, Admitted Cmd.sysCmdResult 2 rq s → (∀ i, rq.via ≠ .gate i) →
      ((s.chan (viaChan rq.via)).jobs.find? fun j => j.handle == arg rq 0 2) = some j → j.result = some (rc, data) →
    ∃ t, exec (.sysCmdResult rq) s = .next t ∧ t.Replied rq (Rc.of rc) 0 data
      ∧ (t.chan (viaChan rq.via)).jobs = (s.chan (viaChan rq.via)).jobs.filter fun k => k.handle != arg rq 0 2)
  ∧ Fails .sysCmdResult Cmd.sysCmdResult 2 (fun rq s => (∀ i, rq.via ≠ .gate i) ∧
      ∃ j, ((s.chan (viaChan rq.via)).jobs.find? fun j => j.handle == arg rq 0 2) = some j ∧ j.result = none) .retryLater
  ∧ Fails .sysCmdResult Cmd.sysCmdResult 2 (fun rq s => (∀ i, rq.via ≠ .gate i) ∧
      ((s.chan (viaChan rq.via)).jobs.find? fun j => j.handle == arg rq 0 2) = none) .badHandle
  ∧ (∀ rq s, Admitted Cmd.sysCredChallenge 0 rq s →
    ∃ t n, exec (.sysCredChallenge rq) s = .next t ∧ t.Replied rq .ok 0 n.bytes ∧ n.bytes.length = 32 ∧ n.tick = s.time.tick
      ∧ n.owner = viaOwner rq.via ∧ (t.chan (viaChan rq.via)).nonces = (s.chan (viaChan rq.via)).nonces ++ [n])
  ∧ (∀ rq s, Admitted Cmd.sysCredOpen 136 rq s → arg rq 0 1 ≤ 3 → arg rq 0 1 ≤ s.ceiling (viaChan rq.via) →
      (s.chan (viaChan rq.via)).creds.length < 4 →
    let c := viaChan rq.via
    let good := s.nonceOk rq.via (slice 8 32 rq.payload)
      && s.credSigned c (arg rq 0 1) (arg rq 4 4) (slice 8 32 rq.payload) (slice 40 96 rq.payload)
    ∃ t, exec (.sysCredOpen rq) s = .next t
      ∧ t.Replied rq (if good then .ok else .authFail) 0 (if good then leBytes 4 (s.chan c).nextCred else [])
      ∧ (t.chan c).creds = (s.chan c).creds ++ (if good then [⟨(s.chan c).nextCred, arg rq 0 1, viaOwner rq.via, s.time.tick⟩] else [])
      ∧ (t.chan c).nonces = (s.chan c).nonces.filter fun n => n.bytes != slice 8 32 rq.payload)
  ∧ (∀ rq s, Admitted Cmd.sysCredOpen 136 rq s → arg rq 0 1 ≤ 3 → s.ceiling (viaChan rq.via) < arg rq 0 1 →
    ∃ t, exec (.sysCredOpen rq) s = .next t ∧ t.Replied rq .locked 0 []
      ∧ (t.chan (viaChan rq.via)).creds = (s.chan (viaChan rq.via)).creds
      ∧ (t.chan (viaChan rq.via)).nonces = (s.chan (viaChan rq.via)).nonces.filter fun n => n.bytes != slice 8 32 rq.payload)
  ∧ Does .sysCredClose Cmd.sysCredClose 4
      (fun rq s => (∀ i, rq.via ≠ .gate i) ∧ ∃ k ∈ (s.chan (viaChan rq.via)).creds, k.handle = arg rq 0 4)
      (fun rq s => s.credClosed (viaChan rq.via) (arg rq 0 4)) (fun _ _ => [])
  ∧ Fails .sysCredClose Cmd.sysCredClose 4 (fun rq s => ∀ k ∈ (s.chan (viaChan rq.via)).creds, k.handle ≠ arg rq 0 4) .badHandle
  ∧ Shows .sysTopoShow Cmd.sysTopoShow 0 (fun _ _ => True) (fun _ s =>
      let port := fun (p : Nat) =>
        let c := s.chn p
        leBytes 1 (s.link p).state ++ leBytes 1 (portRoleCode (s.role p)) ++ leBytes 1 (c.position % 8 + 128 * b2n c.quiet)
          ++ leBytes 1 (if c.quiet then 0 else c.mode) ++ leBytes 1 (s.partner p)
          ++ leBytes 1 (b2n (nth s.topo.heldT p false) + 2 * b2n (s.link p).gen1)
          ++ leBytes 1 (s.applied (if p == 0 then Fld.FALLBACK_DPX_CP0 else Fld.FALLBACK_DPX_CP1)) ++ zeros 1
      leBytes 1 s.topo.role.code ++ leBytes 1 s.nextRole ++ leBytes 1 s.topo.depth
        ++ leBytes 1 (s.applied Fld.MAX_HOPS) ++ port 0 ++ port 1 ++ s.topo.ends.flatMap (leBytes 1) ++ zeros 1)
  ∧ Shows .sysTimeShow Cmd.sysTimeShow 0 (fun _ _ => True) (fun _ s =>
      let port := fun (p : Nat) =>
        let a := s.alignOf p
        leBytes 1 (alignCode a.align) ++ leBytes 1 (min 255 a.relock) ++ zeros 2 ++ leInt 4 (if a.align == .notUp then 0 else a.offset)
      leBytes 6 s.time.tick.toNat ++ leBytes 1 s.time.slot ++ leBytes 1 s.time.reference ++ leBytes 1 s.time.holdover ++ zeros 1
        ++ leBytes 2 (if s.time.holdover == 0 then 0 else s.time.hoTicks) ++ port 0 ++ port 1 ++ leInt 4 s.time.steer
        ++ leBytes 4 s.time.refLosses)
  ∧ Shows .sysFaultShow Cmd.sysFaultShow 0 (fun _ _ => True) (fun _ s => faultRecord s.fault ++ leBytes 2 s.unitsOut ++ zeros 2)
  ∧ Does .sysFaultClear Cmd.sysFaultClear 0 (fun _ _ => True)
      (fun _ s => { s with fault := { s.fault with log := [], counts := List.replicate 64 0, floor := 0 } }) (fun _ _ => [])
  ∧ Does .sysReset Cmd.sysReset 1 (fun rq s => (arg rq 0 1 = 1 ∨ arg rq 0 1 = 2) ∧ ∀ d, s.fault.deferred = some d → d.1 ≠ 1)
      (fun rq s => { s with fault := { s.fault with
        deferred := some (arg rq 0 1, 0x32, s.time.tick + BitVec.ofNat 48 (msTicks 1)) } }) (fun _ _ => [])
  ∧ Does .sysReset Cmd.sysReset 1 (fun rq s => (arg rq 0 1 = 1 ∨ arg rq 0 1 = 2) ∧ ∃ d, s.fault.deferred = some d ∧ d.1 = 1)
      (fun _ s => s) (fun _ _ => [])
  ∧ Fails .sysReset Cmd.sysReset 1 (fun rq _ => arg rq 0 1 = 0) .badState

/-- The cfg commands (Tables 4.9 and 4.12, R94 to R96, R103 to R105): staging, applying, showing, clearing, committing.
Model's choices in its clauses, no rules of the spec: which number a handle gets (log entry 7); the details of records that log entry 34
names; what a failing apply leaves (log entry 43); the result for a layer above 1 (log entry 58). -/
def Obligations.ConfigurationCommands : Prop :=
  Does .cfgRecordStage Cmd.cfgRecordStage 5
      (fun rq s => rq.payload.length ≤ 1024 ∧ (arg rq 0 4 = 0 ∨ arg rq 0 4 = (s.chan (viaChan rq.via)).staged.length)
        ∧ arg rq 0 4 + (rq.payload.drop 4).length ≤ 65536)
      (fun rq s => s.modChan (viaChan rq.via) fun c => { c with
        staged := (if arg rq 0 4 = 0 then [] else c.staged) ++ rq.payload.drop 4 }) (fun _ _ => [])
  ∧ Fails .cfgRecordStage Cmd.cfgRecordStage 5
      (fun rq s => arg rq 0 4 ≠ 0 ∧ arg rq 0 4 ≠ (s.chan (viaChan rq.via)).staged.length) .badLength
  ∧ (∀ rq s l, Admitted Cmd.cfgRecordApply 1 rq s → arg rq 0 1 = 0 → s.lifecycle ≠ lcScrapped → chanLayer (viaChan rq.via) = some l →
      (s.chan (viaChan rq.via)).staged ≠ [] → (s.applySet l (viaPort rq.via) (s.chan (viaChan rq.via)).staged).rc.bad = false →
    let a := s.applySet l (viaPort rq.via) (s.chan (viaChan rq.via)).staged
    ∃ t, exec (.cfgRecordApply rq) s = .next t ∧ t.cfg = a.st.cfg ∧ (t.chan (viaChan rq.via)).staged = []
      ∧ (t.chan (viaChan rq.via)).report = a.report.take 256
      ∧ t.Replied rq a.rc 0 (leBytes 1 a.applied.length ++ leBytes 1 a.rejected.length ++ leBytes 2 (min a.report.length 256)
          ++ leBytes 2 (min 65535 (a.report.length - 256)) ++ zeros 2))
  ∧ Fails .cfgRecordApply Cmd.cfgRecordApply 1 (fun rq s => arg rq 0 1 = 0 ∧ s.lifecycle ≠ lcScrapped
      ∧ (chanLayer (viaChan rq.via)).isSome = true ∧ (s.chan (viaChan rq.via)).staged = []) .badLength
  ∧ Fails .cfgRecordApply Cmd.cfgRecordApply 1 (fun rq s => s.storeDenied rq (arg rq 0 1) = true) .denied
  ∧ Fails .cfgRecordApply Cmd.cfgRecordApply 1 (fun rq s => arg rq 0 1 = 1 ∧ s.storeDenied rq 1 = false ∧ s.lifecycle ≠ lcScrapped
      ∧ s.cfg.commit.isSome = true) .busy
  ∧ Fails .cfgRecordApply Cmd.cfgRecordApply 1 (fun rq s => 1 < arg rq 0 1 ∧ s.lifecycle ≠ lcScrapped) .badState
  ∧ (∀ bs, Shows .cfgRecordShow Cmd.cfgRecordShow 6
      (fun rq s => arg rq 2 1 ≤ 5 ∧ (fieldTable.any fun f => f.ty == arg rq 0 2) = true ∧
        fitEntries 1016 ((fieldsOf (arg rq 0 2) (arg rq 4 2)).filterMap fun f => (s.viewValue (arg rq 2 1) f).map fun v => entryBytes f.id v)
          = (bs, true))
      (fun rq _ => leBytes 2 (arg rq 0 2) ++ leBytes 2 (8 + bs.length) ++ leBytes 4 (schemaMajor * 65536) ++ bs))
  ∧ Shows .cfgReportShow Cmd.cfgReportShow 3 (fun rq _ => 1 ≤ arg rq 2 1 ∧ arg rq 2 1 ≤ 63) (fun rq s =>
      let c := s.chan (viaChan rq.via)
      let es := (c.report.drop (arg rq 0 2)).take (arg rq 2 1)
      leBytes 2 es.length ++ leBytes 2 c.repOver ++ es.flatMap repBytes)
  ∧ (∀ rq s l, Admitted Cmd.cfgOverrideClear 2 rq s → chanLayer (viaChan rq.via) = some l → arg rq 0 2 = 0xFFFF →
    ∃ t, exec (.cfgOverrideClear rq) s = .next t ∧ t.Replied rq .ok 0 [] ∧ t.cfg.ovr = s.cfg.ovr.filter fun o => o.layer != l)
  ∧ Starts .cfgStoreCommit Cmd.cfgStoreCommit 0 (fun _ s => s.cfg.commit = none)
      (fun rq s =>
        let w := s.upd.flash.cfgTarget
        { s with
          cfg := { s.cfg with commit := some ⟨rq.via, (s.chan (viaChan rq.via)).freeHandle, w.1, w.2, s.storeSet⟩ }
          upd := { s.upd with flash := { s.upd.flash with cfg := put s.upd.flash.cfg w.1 .init } } }) (fun _ _ => none)
  ∧ Fails .cfgStoreCommit Cmd.cfgStoreCommit 0 (fun _ s => s.cfg.commit ≠ none) .busy
  ∧ (∀ (s : State) c, s.awake = true → s.cfg.commit = some c → c.set.length ≤ 262128 →
    Gives (.cfgStoreCommitDone true) s fun t => t.cfg.commit = none
      ∧ t.upd.flash.cfg = put s.upd.flash.cfg c.copy ⟨0x4C434652, c.gen, c.set.length, crc32 c.set, c.set⟩)
  ∧ (∀ (s : State) c, s.awake = true → s.cfg.commit = some c → s.upd.flash.cfg.length = 2 → c.copy < 2 →
    Gives (.cfgStoreCommitDone false) s fun t => t.cfg.commit = none ∧ (nth t.upd.flash.cfg c.copy .init).ok = false
      ∧ nth t.upd.flash.cfg (1 - c.copy) .init = nth s.upd.flash.cfg (1 - c.copy) .init)
  ∧ Shows .cfgStoreShow Cmd.cfgStoreShow 0 (fun _ _ => True) (fun _ s =>
      let a := nth s.upd.flash.cfg 0 .init
      let b := nth s.upd.flash.cfg 1 .init
      let differs := match s.upd.flash.governing with
        | some c => c.records != s.storeSet
        | none => true
      leBytes 4 a.gen ++ leBytes 4 b.gen ++ leBytes 1 (b2n a.ok + 2 * b2n b.ok) ++ leBytes 1 (b2n differs) ++ zeros 2)

/-- The transports of LOCAL and DEBUG and the hardware window (R49, R72 to R76, R78 to R80, R472): frames, selections, RESET_CTL.
TUNNEL over function 7 and the USB vendor interface (R6, R7, R49, R76 to R79, R306, R309, R515). That a SUBMIT delivers as many bytes as LENGTH
says is the model's choice (log entry 65).
Model's choices in its clauses, no rules of the spec: that a timer's command before its time changes nothing, and how a time is counted in
ticks (log entry 55). -/
def Obligations.Transports : Prop :=
  (∀ s : State, s.powered = true →
  (∀ b, s.spiOn = true → leAt 0 1 b = 1 → requestFrameOk b = true → s.mbx.loc.stored = none → s.fwRuns = true →
      leAt 8 2 b + 16 = leAt 2 2 b → (cmdRow? (leAt 4 2 b)).isSome = true →
    Gives (.spiWriteRequestFrame b) s fun t =>
      t.mbx.waiting = enterWait ⟨parseReq .spi (slice 4 (leAt 2 2 b) b), s.time.tick, s.time.slot, none⟩ s.mbx.waiting
      ∧ t.mbx.spiHeld = none ∧ t.mbx.spiReject = false
      ∧ Emit.bytes .spi (leBytes 4 (s.status .loc).toNat) ∈ t.out ∧ Emit.rest 0xFF ∈ t.out)
  ∧ (∀ b, s.spiOn = true → leAt 0 1 b = 1 → requestFrameOk b = false →
    Gives (.spiWriteRequestFrame b) s fun t =>
      t.hush = ({ s with mbx := { s.mbx with spiHeld := none, spiReject := true } } : State).hush ∧ Heard 1 s t 5 0)
  ∧ (s.spiOn = true → Says .spiReadReplyFrame s s [.bytes .spi (s.replyFrame .spi), .rest 0xFF])
  ∧ (∀ off n, s.spiOn = true →
    Says (.spiWindowReadFrame off n) s (s.windowFrame .spi off (n % 256)).2 [.bytes .spi (s.windowFrame .spi off (n % 256)).1, .rest 0xFF])
  ∧ (s.hibernates = false → s.mbx.arm = true → s.boot.stage = 2 → Gives (.resetCtlSystemReset .spi) s (s.AfterReset 0x32))
  ∧ (s.hibernates = false → s.mbx.arm = true → s.boot.stage ≤ 1 → s.boot.mgtReset = false → s.pwr.phase = 0 → s.fault.thermal = false →
    Leaves (.resetCtlSystemReset .spi) s { s with fault := { s.fault with resetCause := 0x32 } })
  ∧ (s.mbx.arm = false → Leaves (.resetCtlSystemReset .spi) s s)
  ∧ (s.hibernates = false → s.mbx.arm = true → s.boot.stage = 2 → s.boot.mgtReset = false →
    Gives (.resetCtlMgmtCoreReset .spi) s (s.AfterCoreReset 0x32))
  ∧ (Leaves (.resetCtlMgmtCoreReset .usb) s s)
  ∧ (∀ off n : Byte, s.i3cOn = true →
    Leaves (.i3cPrivateWrite [3, off, n]) s { s with mbx := { s.mbx with i3cSel := some (off.toNat, n.toNat) } })
  ∧ (s.i3cOn = true → s.mbx.i3cSel = none → Says .i3cPrivateRead s s [.bytes .spi (s.replyFrame .spi)])
  ∧ (s.hibernates = false →
    Says (.jtagDbgMbx [2]) s { s with pins := { s.pins with ir := 0x20, extest := false } } [.bytes .jtag (s.replyFrame .jtag)]))
  ∧ (∀ s : State, s.awake = true →
  (∀ off v, s.function7 = true → s.mbx.bar0Busy = false → 0x1000 ≤ off → off < 0x1410 →
    let k := (off - 0x1000) / 4 * 4
    Leaves (.registerWrite 1 off v) s { s with mbx := { s.mbx with
      bar0Req := (fitBytes 1040 s.mbx.bar0Req).take k ++ leBytes 4 v ++ (fitBytes 1040 s.mbx.bar0Req).drop (k + 4) } })
  ∧ (∀ off v, Leaves (.registerWrite 0 off v) s s)
  ∧ (∀ b, b = fitBytes 1040 s.mbx.bar0Req →
     s.function7 = true → s.mbx.bar0Busy = false → s.mbx.tun.stored = none → s.fwRuns = true → leAt 4 2 b ≤ 1024 →
      (cmdRow? (leAt 0 2 b)).isSome = true →
    Gives .submit s fun t =>
      t.mbx.waiting = enterWait ⟨parseReq .pcie (b.take (16 + leAt 4 2 b)), s.time.tick, s.time.slot, none⟩ s.mbx.waiting
      ∧ t.mbx.bar0Busy = true ∧ t.mbx.bar0Reply = none)
  ∧ (s.mbx.bar0Busy = true → Leaves .submit s s)
  ∧ (s.function7 = true → Leaves .release s { s with mbx := { s.mbx with bar0Reply := none } })
  ∧ (∀ bs, s.usbFnUp = true → s.epHeld 0 = false → 16 ≤ bs.length → bs.length = 16 + leAt 4 2 bs → bs.length ≤ 1040 →
      s.mbx.tun.stored = none → s.fwRuns = true → (cmdRow? (leAt 0 2 bs)).isSome = true →
    Gives (.usbMbxBulkOut 1 bs) s fun t =>
      t.mbx.waiting = enterWait ⟨parseReq .usb bs, s.time.tick, s.time.slot, none⟩ s.mbx.waiting ∧ t.mbx.usbReply = none)
  ∧ (∀ r, s.usbFnUp = true → s.mbx.usbReply = some r →
    Says (.usbMbxBulkIn 1) s { s with mbx := { s.mbx with usbReply := none } } [.bytes .usb (replyBytes r)])
  ∧ (s.usbFnUp = true → Says .usbVendorStatus s s [.bytes .usb (leBytes 4 (s.status .tun).toNat)])
  ∧ (∀ i n, s.usbFnUp = true →
    let w := s.windowWords .tun ((min n 64 + 3) / 4) (i / 4)
    Says (.usbVendorWindowRead i n) s w.2 [.bytes .usb ((w.1.flatMap (leBytes 4)).take (min n 64))])
  ∧ (∀ i v, Leaves (.usbVendorWindowWrite i v) s s)
  ∧ (∀ usb, Gives (.function7Reset usb) s fun t => t.cfg.ovr = (s.cfg.ovr.filter fun o => o.layer != 1)
      ∧ (usb = false → t.mbx.bar0Req = [] ∧ t.mbx.bar0Busy = false ∧ t.mbx.bar0Reply = none)))

/-- PEER, forwarding, long commands and lapses (R14, R49, R59, R61, R65, R67, R68, R70, R71). A timer's command that comes before its time changes
nothing. That a reply belongs to the oldest request sent on its port with its TAG is the model's choice (log entry 65).
Model's choices in its clauses, no rules of the spec: which number a handle gets (log entry 7). -/
def Obligations.ForwardingAndLapses : Prop := ∀ s : State, s.awake = true →
  (∀ p bs, p ≤ 1 → s.linkUp p = true → bs.length < 16 → Gives (.peerMessage p bs) s fun t => t.hush = s.hush ∧ Heard 1 s t 5 2)
  ∧ (∀ p bs, p ≤ 1 → s.linkUp p = true → 16 ≤ bs.length → bs.length ≤ 1040 → bs.length = 16 + leAt 4 2 bs → s.mbx.peer.stored = none →
      s.fwRuns = true → (leAt 0 2 bs < 0x0A80 ∨ 0x0A86 < leAt 0 2 bs) → (cmdRow? (leAt 0 2 bs)).isSome = true →
    Gives (.peerMessage p bs) s fun t =>
      t.mbx.waiting = enterWait ⟨parseReq (.peer p) bs, s.time.tick, s.time.slot, none⟩ s.mbx.waiting)
  ∧ (∀ f up bs, s.mbx.forwards = [f] → f.sent = true → f.origin = .relay up → 16 ≤ bs.length →
      BitVec.ofNat 16 (leAt 4 2 bs) = f.msg.rq.tag →
    Leaves (.forwardedReply f.port bs) s ({ s with mbx := { s.mbx with forwards := [] } } |>.peerSend up bs))
  ∧ (∀ f c h, s.mbx.forwards = [f] → f.sent = true → f.origin = .own c h → s.passed f.since (msTicks (s.cv Fld.FORWARD_TIMEOUT_MS)) = true →
      ((s.chan (viaChan f.msg.rq.via)).jobs.find? fun j => j.handle == h && j.result == none).isSome = true →
    Gives (.forwardTimeout f.port f.msg.rq.tag) s fun t => t.mbx.forwards = []
      ∧ (t.chan (viaChan f.msg.rq.via)).jobs = (s.chan (viaChan f.msg.rq.via)).jobs.map fun j =>
          if j.handle == h then { j with result := some (0x0101, []), since := s.time.tick } else j)
  ∧ (∀ f, s.mbx.forwards = [f] → s.passed f.since (msTicks (s.cv Fld.FORWARD_TIMEOUT_MS)) = false →
    Leaves (.forwardTimeout f.port f.msg.rq.tag) s s)
  ∧ (∀ i w, s.mbx.waiting[i]? = some w → s.fwRuns = true → w.late = none → s.passed w.tick (usTicks 900) = true →
    let h := (s.chan (viaChan w.msg.rq.via)).freeHandle
    Gives (.mbxReplyBackstop i) s fun t => t.mbx.waiting = put s.mbx.waiting i { w with late := some h }
      ∧ t.Replied w.msg.rq .accepted h [])
  ∧ (∀ i w, s.mbx.waiting[i]? = some w → w.late.isSome = true ∨ s.passed w.tick (usTicks 900) = false → Leaves (.mbxReplyBackstop i) s s)
  ∧ (∀ via h ok j rc data, ((s.chan (viaChan via)).jobs.find? fun j => j.handle == h && j.result == none) = some j →
      (j.opcode < 0x1003 ∨ 0x1006 < j.opcode) → j.opcode ≠ 0x1103 → j.opcode ≠ 0x1106 → j.plan = some (rc, data) →
    Gives (.longCommandFinish via h ok) s fun t =>
      (t.chan (viaChan via)).jobs = ((s.chan (viaChan via)).jobs.map fun k =>
        if k.handle == h then { k with result := some (rc, data), since := s.time.tick } else k)
      ∧ ((s.chan (viaChan via)).mask.getLsbD 4 = true → (s.chan (viaChan via)).queue.length < 255 →
          s.event 4 (h + 65536 * rc) ∈ (t.chan (viaChan via)).queue))
  ∧ (∀ c h, Leaves (.completionHandleLapse c h) s
      (s.modChan c fun x => { x with
        jobs := x.jobs.filter fun j => !(j.handle == h && j.result.isSome && s.passed j.since (secTicks (s.cv Fld.CRED_IDLE_S))) }))
  ∧ (∀ c h k, ((s.chan c).creds.find? fun k => k.handle == h) = some k → c ≠ .loc → s.sbAge (chanNum c) h = none →
      s.passed ((s.chan c).lastUse k) (secTicks (s.cv Fld.CRED_IDLE_S)) = true →
    Leaves (.credIdleLapse c h) s (s.modChan c fun x => { x with creds := x.creds.filter fun k => k.handle != h }))
  ∧ (∀ c h k, ((s.chan c).creds.find? fun k => k.handle == h) = some k →
      s.passed ((s.chan c).lastUse k) (secTicks (s.cv Fld.CRED_IDLE_S)) = false → Leaves (.credIdleLapse c h) s s)
  ∧ (s.mbx.unatt = false → s.asleep = false → s.cv Fld.WATCHDOG_MULT * usTicks (s.cv Fld.ATTN_INTERVAL_US) ≤ s.mbx.sinceAttn →
    Gives .watchdogExpiry s fun t => t.mbx.unatt = true ∧ t.cfg.ovr = (s.cfg.ovr.filter fun o => o.layer != 0)
      ∧ (∀ c ∈ t.cc, c.armed = 0) ∧ t.pwr.target = t.cv Fld.PSTATE_UNATT_TARGET ∧ Heard 1 s t 6 1)
  ∧ (s.mbx.unatt = true ∨ s.mbx.sinceAttn < s.cv Fld.WATCHDOG_MULT * usTicks (s.cv Fld.ATTN_INTERVAL_US) → Leaves .watchdogExpiry s s)
  ∧ (∀ k v, nth s.topo.deferred k none = some v → s.endBusy k = false →
    Gives (.adapterEndDeferredApply k) s fun t => t.hush = (s.setEndTo k v).hush ∧ Heard 1 s t 8 0)
  ∧ (∀ k, s.endBusy k = true → Leaves (.adapterEndDeferredApply k) s s)

/-- What a SYSTEM reset clears and keeps (Table 21.2, R534, R537 to R539, R543, R551): everything but AON and PWR goes to its reset values; the fuses, the
flash and the tick count stay; Fiddlehead has then loaded a management copy or halted. One asked for during boot is absorbed, its cause latched.
A reset of the management core (R59, R66, R68, R536, R537, R540): every handle lapses, what the firmware was doing stops, and the rest of the hub
goes on; a fault logs its entry and raises EV000; another such reset meanwhile is absorbed. -/
def Obligations.Resets : Prop :=
  (∀ s : State, s.powered = true →
  (s.boot.stage = 2 → Gives .systemReset s (s.AfterReset 0x31))
  ∧ (s.boot.stage ≤ 1 → s.boot.mgtReset = false → s.pwr.phase = 0 → s.fault.thermal = false →
    Leaves .systemReset s { s with fault := { s.fault with resetCause := 0x31 } })
  ∧ (∀ cause due, s.awake = true → s.boot.stage = 2 → s.fault.deferred = some (1, cause, due) → reached s.time.tick due = true →
    Gives .deferredReset s (s.AfterReset cause))
  ∧ (∀ kind cause due, s.fault.deferred = some (kind, cause, due) → reached s.time.tick due = false → Leaves .deferredReset s s)
  ∧ (s.awake = true → Gives .coreBrownout s (s.AfterReset 0x0C))
  ∧ (s.fault.thermal = true → secTicks 1 ≤ s.fault.coolFor →
    Gives .thermalRecovery s fun t => s.AfterReset 0x0D t ∧ t.fault.thermal = false ∧ t.pins.coreEn = true
      ∧ t.pins.anaEn = true ∧ t.pins.memEn = true)
  ∧ (s.fault.coolFor < secTicks 1 → Leaves .thermalRecovery s s)
  ∧ (s.fault.thermal = false → 2 ≤ s.fault.hotFor →
    Gives .thermalTrip s fun t => t.fault.thermal = true ∧ t.fault.resetKind = 3 ∧ t.fault.resetCause = 0x0D ∧ t.pins.coreEn = false
      ∧ t.pins.anaEn = false ∧ t.pins.memEn = false ∧ t.ppath = s.ppath ∧ t.trust.slots = s.trust.slots)
  ∧ (s.fault.hotFor < 2 → Leaves .thermalTrip s s))
  ∧ (∀ s : State, s.powered = true →
  (s.boot.stage = 2 → s.boot.mgtReset = false → Gives (.managementCoreReset 0) s (s.AfterCoreReset 0x32))
  ∧ (s.boot.mgtReset = true → Leaves (.managementCoreReset 0) s { s with fault := { s.fault with resetCause := 0x32 } })
  ∧ (∀ cause due, s.awake = true → s.boot.stage = 2 → s.boot.mgtReset = false → s.fault.deferred = some (2, cause, due) → cause ≠ 3 →
      reached s.time.tick due = true →
    Gives .deferredReset s fun t => s.AfterCoreReset cause t ∧ t.fault.deferred = none)
  ∧ (∀ i code, (i, code) ∈ [(Instr.lockstepFault, 1), (.mgtWatchdogTimeout, 2), (.mgtTrap, 6), (.managementCoreReset 5, 5)] →
      s.awake = true → s.boot.stage = 2 → s.boot.mgtReset = false → s.fwRuns = true → 32 ≤ s.boot.sinceWdt → s.fault.log = [] →
    Gives i s fun t => s.AfterCoreReset code t ∧ (∃ e, t.fault.log = [e] ∧ e.code = code ∧ e.action = 2 ∧ e.tick = s.time.tick)
      ∧ t.fault.counts = put s.fault.counts code (min 255 (nth s.fault.counts code 0 + 1))
      ∧ Heard 1 s t 0 (code + 512 + 65536 * min 255 (nth s.fault.counts code 0 + 1)))
  ∧ (s.boot.sinceWdt < 32 → Leaves .mgtWatchdogTimeout s s))

/-- Supplies, boot and the sequencers' faults (R368, R369, R534, R535, R546, R567, R572, R573). -/
def Obligations.SuppliesAndBoot : Prop := ∀ s : State,
  (∀ sel a, Gives (.powerOnReset sel a) s fun t => t.time = State.reset.time ∧ t.topo = State.reset.topo ∧ t.mbx = State.reset.mbx
      ∧ t.cfg = State.reset.cfg ∧ t.cable = State.reset.cable ∧ t.plan = State.reset.plan ∧ t.cc = State.reset.cc
      ∧ t.ppath = State.reset.ppath ∧ t.pins.phase = 1 ∧ t.pins.mbxSel = sel ∧ t.trust.lc = s.trust.lc ∧ t.trust.slots = s.trust.slots
      ∧ (s.upd.commit = none → t.trust.rollback = s.trust.rollback ∧ t.upd.flash = s.upd.flash))
  ∧ (Gives .porstFall s fun t => t.pins.phase = 0 ∧ t.pins.coreEn = false ∧ t.pins.anaEn = false ∧ t.pins.memEn = false
      ∧ t.pins.refReqN = true ∧ t.trust.slots = s.trust.slots ∧ t.powered = false)
  ∧ (s.pins.phase = 1 → s.pins.attempts = 2 → Leaves .railDeadlineMiss s { s with pins := { s.pins with
      coreEn := false, anaEn := false, memEn := false, refReqN := true, attempts := 3, phase := 4 } })
  ∧ (s.pins.phase = 1 → s.pins.attempts < 2 → Leaves .railDeadlineMiss s { s with pins := { s.pins with
      coreEn := false, anaEn := false, memEn := false, refReqN := true, attempts := s.pins.attempts + 1, phase := 3 } })
  ∧ (s.pins.phase = 3 → Leaves .railRestart s { s with pins := { s.pins with
      coreEn := true, anaEn := true, memEn := true, refReqN := false, coreVid := 50, phase := 1 } })
  ∧ (s.powered = true → s.fault.thermal = false → s.asleep = false → s.boot.mgtReset = true →
    Leaves .mgmtFirmwareReady s { s with
      boot := { s.boot with stage := 2, mgtReset := false }, plan := { s.plan with silent := 0, autonomy := 0 }
      fault := { s.fault with planHold := false } })
  ∧ (s.powered = true → s.fault.thermal = false → s.asleep = false → s.boot.mgtReset = false → s.boot.stage = 1 →
    Gives .mgmtFirmwareReady s fun t => t.boot.stage = 2 ∧ t.pwr.state = 0 ∧ t.pwr.target = 0 ∧ t.pins.phase = 2)
  ∧ (∀ rate gib mask, s.awake = true → s.mem.lpddr = .training → s.fwRuns = false →
    Gives (.lpddrTrainingDone true rate gib mask) s fun t => t.mem.lpddr = .active ∧ t.mem.trained = true ∧ t.mem.rate = s.trainedRate rate
      ∧ Heard 1 s t 128 (s.trainedRate rate % 16))
  ∧ (∀ rate gib mask, s.awake = true → s.mem.lpddr = .training →
    Gives (.lpddrTrainingDone false rate gib mask) s fun t =>
      t.hush = ({ s with mem := { s.mem with lpddr := .failed, trained := false } } : State).hush ∧ Heard 1 s t 129 (mask % 16))
  ∧ (s.pwrLive = true → s.fault.log = [] →
    Gives .pwrseqFault s fun t => t.fault.romMode = s.fault.romMode
      ∧ t.fault.counts = put s.fault.counts 0x0A (min 255 (nth s.fault.counts 0x0A 0 + 1))
      ∧ Heard 1 s t 0 (0x0A + 256 + 65536 * min 255 (nth s.fault.counts 0x0A 0 + 1)))
  ∧ (s.pwrLive = true → s.fault.log.length < 16 → 2 ≤ s.recentFaults 0x0A 32000 (fun _ => true) →
    Gives .pwrseqFault s fun t => t.fault.romMode = true)
  ∧ (∀ p, p ≤ 1 → s.awake = true →
    Gives (.physeqFault p) s fun t => t.fault.counts = put s.fault.counts 0x0B (min 255 (nth s.fault.counts 0x0B 0 + 1))
      ∧ Heard 1 s t 0 (0x0B + 256 + 65536 * min 255 (nth s.fault.counts 0x0B 0 + 1)))

/-- Memory accesses (R363, R366, R369 to R371, R381, R494 to R500, R503, R544): what a granted read returns, a granted write stores, and a denial
leaves; stores that are buffered and drained; the scrub, the drift check and the refresh.
Model's choices in its clauses, no rules of the spec: the widths of accesses and the cache (log entry 38); the spacing of the words of a
scrub (log entry 68); that a timer's command before its time changes nothing, and how a time is counted in ticks (log entry 55). -/
def Obligations.MemoryAccesses : Prop := ∀ s : State, s.powered = true →
  let formed := fun (m k a n : Nat) => 9 < m ∧ m < 16 ∧ m ≠ 14 ∧ k ≤ 2 ∧ n ∈ [1, 2, 4, 8, 16, 32, 64] ∧ a % n = 0 ∧ a < 2 ^ 40
    ∧ (s.asleep = false ∨ m = 15)
  let user := fun (m k a n : Nat) => 1 ≤ m ∧ m ≤ 8 ∧ k ≤ 2 ∧ n ∈ [1, 2, 4, 8, 16, 32, 64] ∧ a % n = 0 ∧ a < 2 ^ 40 ∧ s.asleep = false ∧ s.svc.on = true
  (∀ m k a n data u, formed m k a n → k ≠ 1 → s.target a ≠ .none → (s.acuCheck m k a false).allow = true → s.mem.faults = [] →
      (s.acu m).buffer = [] →
    Gives (.memoryAccess m k a n data false 0 0 0 false u) s fun t => t.out = [.memData m (s.bytesAt a n)] ∧ t.mem.cells = s.mem.cells)
  ∧ (∀ m a n data u, formed m 1 a n → s.target a ≠ .none → s.target a ≠ .unit → (s.acuCheck m 1 a false).allow = true →
    Gives (.memoryAccess m 1 a n data false 0 0 0 false u) s fun t => t.mem.cells = memWrites s.mem.cells a (fitBytes n data))
  ∧ (∀ m k a n data u, formed m k a n → s.target a ≠ .none → (s.acuCheck m k a false).allow = false → (s.acu m).buffer = [] →
    Gives (.memoryAccess m k a n data false 0 0 0 false u) s fun t => t.mem.cells = s.mem.cells ∧ Emit.memDenied m ∈ t.out
      ∧ (s.trust.acus.length = 16 → (t.acu m).denials = satAdd 32 (s.acu m).denials 1))
  ∧ (∀ a n data c, n ∈ [1, 2, 4, 8, 16, 32, 64] → a % n = 0 → a < 2 ^ 40 → s.asleep = false → s.pins.mgtHalted = false →
      s.orderAt 0 a = (c, true) → c ≠ 2 → (s.acu 0).buffer.length < 8 → s.trust.acus.length = 16 →
    Gives (.memoryAccess 0 1 a n data false 0 0 0 false false) s fun t => t.mem.cells = s.mem.cells
      ∧ (t.acu 0).buffer = (s.acu 0).buffer ++ [⟨a, fitBytes n data, 0, s.time.tick, s.time.slot⟩])
  ∧ (∀ m a n data w u, formed m 1 a n → sbBase ≤ a → a < sbBase + 0x40000 → s.target a = .sb →
    Leaves (.memoryAccess m 1 a n data false w 0 0 true u) s { s with mem := { s.mem with
      conflicts := put s.mem.conflicts m (satAdd 32 (nth s.mem.conflicts m 0) (min w 15))
      collisions := satAdd 32 s.mem.collisions 1, collNow := s.mem.collNow + 1 } })
  ∧ (∀ m k a n data, user m k a n → s.masterHalted m = false → s.pmpFault m k a n ≠ none →
    Gives (.memoryAccess m k a n data false 0 0 0 false true) s fun t => t.mem.cells = s.mem.cells ∧ Emit.memDenied m ∈ t.out)
  ∧ (∀ m k a n data u, user m k a n → s.masterHalted m = true → Leaves (.memoryAccess m k a n data false 0 0 0 false u) s s)
  ∧ (∀ m, m ≤ 8 → (s.acu m).buffer = [] → Says (.fence m) s s [.fenced m])
  ∧ (∀ e, (s.acu 0).buffer = [e] → (s.acuCheck 0 1 e.addr false).allow = true → s.target e.addr ≠ .none → s.target e.addr ≠ .unit →
      s.trust.acus.length = 16 →
    Gives (.fence 0) s fun t => t.mem.cells = memWrites s.mem.cells e.addr e.bytes ∧ (t.acu 0).buffer = [] ∧ Emit.fenced 0 ∈ t.out)
  ∧ (∀ a, s.awake = true → s.target (lpddrBase + a) = .lpddr → s.scrubDue = true → s.mem.faults = [] →
    Leaves (.lpddrPatrolScrub a 0) s s.scrubNext)
  ∧ (∀ a, s.awake = true → s.target (lpddrBase + a) = .lpddr → s.scrubDue = true → s.mem.faults = [] → s.mem.corTick = none →
    Gives (.lpddrPatrolScrub a 1) s fun t => t.mem.corrected = satAdd 64 s.mem.corrected 1 ∧ t.mem.faults = []
      ∧ t.mem.corTick = some s.time.tick ∧ Heard 1 s t 130 (satAdd 32 s.mem.corSince 1))
  ∧ (∀ a e, s.awake = true → s.scrubDue = false → Leaves (.lpddrPatrolScrub a e) s s)
  ∧ (∀ ch, s.awake = true → s.mem.lpddr = .active → ch < 4 → s.passed s.mem.dqsAt (msTicks 2) = true →
    Says (.dqsDriftCheck ch) s { s with mem := { s.mem with dqsAt := s.time.tick } } [.dqsRetrain ch])
  ∧ (∀ ch, s.awake = true → s.passed s.mem.dqsAt (msTicks 2) = false → Leaves (.dqsDriftCheck ch) s s)
  ∧ (∀ b, s.awake = true → s.mem.lpddr = .active → Says (.lpddrRefresh b) s s [.refresh b])

/-- The memory commands (Tables 14.7, R376).
Debug (R503, R557, R578): the debug commands' accesses as M14 and their denials; the JTAG instructions.
Model's choices in its clauses, no rules of the spec: what is shifted in and out over JTAG, and a debug access in a locked state (log
entry 54). -/
def Obligations.MemoryAndDebugCommands : Prop :=
  (
  Shows .memShow Cmd.memShow 0 (fun _ _ => True) (fun _ s =>
      leBytes 1 s.mem.lpddr.code ++ leBytes 1 s.mem.rate ++ leBytes 2 s.mem.gib ++ leBytes 8 s.mem.corrected ++ leBytes 4 s.mem.uncorrected
        ++ leBytes 8 s.mem.lastUnc ++ leBytes 4 s.mem.sramCor ++ leBytes 4 s.mem.sramUnc ++ leBytes 4 s.mem.collisions
        ++ leBytes 1 (100 * s.mem.scrubDone / max 1 s.scrubWords) ++ zeros 3)
  ∧ Shows .memMasterShow Cmd.memMasterShow 0 (fun _ _ => True) (fun _ s => s.mem.conflicts.flatMap (leBytes 4))
  ∧ Shows .memMapShow Cmd.memMapShow 0 (fun _ _ => True) (fun _ s =>
      (s.memPlan.flatMap fun r => leBytes 8 r.1 ++ leBytes 8 r.2) ++ leBytes 8 (total (s.mem.stores.map fun e => e.2.2) * (2 * mib)))
  ∧ Does .memClear Cmd.memClear 0 (fun _ _ => True) (fun _ s => { s with mem := { s.mem with
      corrected := 0, uncorrected := 0, sramCor := 0, sramUnc := 0, collisions := 0, conflicts := List.replicate 16 0 } }) (fun _ _ => [])
  ∧ Does .memInject Cmd.memInject 12 (fun rq _ => arg rq 0 1 = 1 ∧ arg rq 4 8 < mib ∧ arg rq 1 1 ≤ 1)
      (fun rq s => { s with mem := { s.mem with
        faults := (s.mem.faults.filter fun f => !(f.word == arg rq 4 8 / 8 && f.armed)) ++ [⟨arg rq 4 8 / 8, arg rq 1 1 == 1, true⟩] } })
      (fun _ _ => [])
  ∧ Fails .memInject Cmd.memInject 12 (fun rq _ => arg rq 0 1 = 1 ∧ mib ≤ arg rq 4 8) .badState)
  ∧ (
  Does .dbgShow Cmd.dbgShow 1 (fun _ _ => True)
      (fun rq s => { s with pins := { s.pins with sticky := s.pins.sticky && !bitAt (arg rq 0 1) 0 } })
      (fun _ s => leBytes 1 (b2n (openLc s.lifecycle)) ++ leBytes 1 (s.cv Fld.CORE_DEBUG) ++ leBytes 1 s.pins.halted.toNat ++ zeros 1
        ++ leBytes 4 (s.acu 14).denials ++ leBytes 1 (b2n s.pins.sticky) ++ zeros 3)
  ∧ Shows .dbgMemRead Cmd.dbgMemRead 12
      (fun rq s => arg rq 8 2 = 1 ∧ s.target (arg rq 0 8 % 2 ^ 40) ≠ .none ∧ (s.acuCheck 14 0 (arg rq 0 8 % 2 ^ 40) true).allow = true
        ∧ s.mem.faults = [])
      (fun rq s => leBytes 2 1 ++ leBytes 2 0 ++ leBytes 8 0 ++ [s.byteAt (arg rq 0 8 % 2 ^ 40)])
  ∧ (∀ rq s, Admitted Cmd.dbgMemRead 12 rq s → arg rq 8 2 = 1 → s.target (arg rq 0 8 % 2 ^ 40) ≠ .none →
      (s.acuCheck 14 0 (arg rq 0 8 % 2 ^ 40) true).allow = false →
    ∃ t, exec (.dbgMemRead rq) s = .next t ∧ t.Replied rq .locked 0 [] ∧ t.pins.sticky = true ∧ t.mem.cells = s.mem.cells)
  ∧ (∀ rq s, Admitted Cmd.dbgMemWrite 12 rq s → arg rq 8 2 = 1 → 13 ≤ rq.payload.length → s.target (arg rq 0 8 % 2 ^ 40) ≠ .none →
      s.target (arg rq 0 8 % 2 ^ 40) ≠ .unit → (s.acuCheck 14 1 (arg rq 0 8 % 2 ^ 40) true).allow = true →
    ∃ t, exec (.dbgMemWrite rq) s = .next t ∧ t.Replied rq .ok 0 (leBytes 2 1 ++ leBytes 2 0 ++ leBytes 8 0)
      ∧ t.mem.cells = memWrites s.mem.cells (arg rq 0 8 % 2 ^ 40) (slice 12 1 rq.payload))
  ∧ (∀ s : State, s.powered = true →
    let ir := fun (v : BitVec 8) => ({ s with pins := { s.pins with ir := v, extest := v == 0 } } : State)
    (Says .jtagIdcode s (ir 0x01) [.bytes .jtag (leBytes 4 0x18400A1D)])
    ∧ (∀ a b, Says (.jtagExtest a b) s { ir 0x00 with pins := { (ir 0x00).pins with bscan := b } } [.scan a, .boundary b])
    ∧ (∀ a b, Says (.jtagSamplePreload a b) s { ir 0x02 with pins := { (ir 0x02).pins with bscan := b } } [.scan a])
    ∧ (Says .jtagBypass s (ir 0xFF) [])
    ∧ (∀ a n d, s.debugPermitted = true →
      Leaves (.jtagDbgAp 2 a n d 0) s { ir 0x21 with pins := { (ir 0x21).pins with mgtHalted := true } })
    ∧ (∀ a n d k, s.debugPermitted = false → Leaves (.jtagDbgAp 2 a n d k) s (ir 0x21))
    ∧ (∀ a n d, Leaves (.jtagDbgAp 3 a n d 0) s { ir 0x21 with pins := { (ir 0x21).pins with mgtHalted := false } })
    ∧ (∀ a d k, a < 2 ^ 40 → s.target a ≠ .none → (s.acuCheck 14 0 a true).allow = true → s.mem.faults = [] →
      Says (.jtagDbgAp 0 a 1 d k) s (ir 0x21) [.memData 14 [s.byteAt a]])))

/-- Slices and Woeri's calls (R378, R379, R382, R388 to R393, R398, R470): what an instance's call returns and leaves; a call without its
capability returns DENIED and has no other effect.
Model's choices in its clauses, no rules of the spec: where the data of instances lies (log entry 32). -/
def Obligations.WoeriCalls : Prop := ∀ (s : State) (i : Nat) (x : InstSt), s.awake = true → s.inst i = some x → x.state = 1 → x.ready = true →
  s.mem.lpddr ≠ .selfRefresh → 0 < (nth s.plan.inForce.slices x.core (0, 1)).1 →
  (∀ core want, s.svc.insts = [x] → x.core = core → core ≤ 7 → x.cls = 0 → s.svc.moves = [] →
      (s.acu (core + 1)).notices = [] → (s.core core).state = 1 → (s.core core).left = 0 → 0 < want →
      want ≤ (nth s.plan.inForce.slices core (0, 1)).1 → want ≤ ceilDiv (s.cv Fld.SVC_QUANTUM_US * 1000) 125 →
    Gives (.serviceSlice core [(i, want)]) s fun t => t.svc.insts = [{ x with runNow := x.runNow + want, silent := x.silent + 1 }])
  ∧ Says (.woeriYield i) s (s.setCore x.core fun c => if c.cur == i then { c with cur := 0, left := 0 } else c) [.woeri i 0 []]
  ∧ (x.stirred = false →
    Says (.woeriWait i none none) s (s.setInst i fun x => { x with silent := 0, ready := false, timer := none, waitsEv := true, notice := false })
      [.woeri i 0 []])
  ∧ (∀ n, 0 < n →
    Says (.woeriWait i (some n) none) s (s.setInst i fun x => { x with
      silent := 0, ready := false, timer := some (s.time.tick + BitVec.ofNat 48 n), waitsEv := false, notice := false }) [.woeri i 0 []])
  ∧ (∀ tm m e l, bitAt x.caps 0 = true → x.events = e :: l →
    Gives (.woeriWait i tm (some m)) s fun t => t.out = [.woeri i 0 (eventBytes e)]
      ∧ t.inst i = some { x with silent := 0, mask := m, events := l, notice := false })
  ∧ (∀ tm m, bitAt x.caps 0 = false → Says (.woeriWait i tm (some m)) s s [.woeri i 1 []])
  ∧ Says (.woeriHeartbeat i) s (s.setInst i fun x => { x with silent := 0 }) [.woeri i 0 []]
  ∧ (∀ so dO n, x.dma = none → so + n ≤ ceilDiv x.memKib 64 * 65536 → dO + n ≤ ceilDiv x.scratch 16 * 16384 →
    Says (.woeriDmaCopy i 0 so 1 dO n) s
      (s.setInst i fun y => { y with dma := some ⟨lpddrBase + s.svcBase + s.dataBase x.id + so, s.scratchBase x + dO, n⟩ }) [.woeri i 0 []])
  ∧ (∀ f, bitAt x.caps 3 = true → s.svcPath = true →
    Gives (.woeriFrameSend i 0 f) s fun t => t.hush = (s.macSend (s.svcMac i) f).hush ∧ Emit.woeri i 0 [] ∈ t.out)
  ∧ (∀ f, bitAt x.caps 3 = true → s.svcPath = false → Says (.woeriFrameSend i 0 f) s s [.woeri i 3 []])
  ∧ (∀ f, bitAt x.caps 3 = false → Says (.woeriFrameSend i 0 f) s s [.woeri i 1 []])
  ∧ (∀ r f, bitAt x.caps 4 = true → s.cable.paths = [r] → r.id ≠ 0 → r.src = 10 → r.phase = 1 → r.tc ≤ 1 →
    Says (.woeriFrameSend i r.id f) s s [.svcFrame i r.id (dataCells (s.labelOf r.id) r.tc f), .woeri i 0 []])
  ∧ (∀ f g l, bitAt x.caps 3 = true → x.frames = g :: l →
    Says (.woeriFrameReceive i 0 f) s (s.setInst i fun x => { x with frames := l }) [.woeri i 0 g])
  ∧ (∀ b, bitAt x.caps 1 = true → x.gateBusy = false → s.mbx.gate.stored = none → s.fwRuns = true → b.length = 16 + leAt 4 2 b →
      b.length ≤ 1040 → (cmdRow? (leAt 0 2 b)).isSome = true →
    Gives (.gateSubmit i b) s fun t =>
      t.mbx.waiting = enterWait ⟨parseReq (.gate i) b, s.time.tick, s.time.slot, none⟩ s.mbx.waiting
        ∧ (t.inst i).map (·.gateBusy) = some true)
  ∧ (∀ b, bitAt x.caps 1 = true → x.gateBusy = true → Says (.gateSubmit i b) s s [.woeri i 2 []])
  ∧ (∀ r, bitAt x.caps 1 = true → x.gateReply = some r →
    Says (.gateResult i) s (s.setInst i fun x => { x with gateReply := none }) [.woeri i 0 (replyBytes r)])
  ∧ (∀ why, bitAt x.caps 6 = true →
    Gives (.woeriWakeRequest i why) s fun t => t.hush = s.hush ∧ Emit.woeri i 0 [] ∈ t.out
      ∧ Heard 1 s t 142 (i % 65536 + 65536 * (why % 4)))
  ∧ (∀ core, core ≤ 7 → Says (.woeriTimeRead i core) s s [.woeri i 0 (leBytes 8 (s.time.tick.toNat * 31250 + s.time.slot * 125))])
  ∧ (∀ d, x.dma = some d → Leaves (.clusterDmaComplete i) s ((s.setInst i fun x => { x with dma := none }).copyMem d.src d.dst d.len))
  ∧ (msTicks (s.cv Fld.SVC_WDT_MS) ≤ x.silent →
    Gives (.instanceWatchdog i) s fun t => (t.inst i).map (·.state) = some 0 ∧ (t.inst i).map (·.restartDue) = some (some s.time.tick)
      ∧ (t.inst i).map (·.lastFault) = some 3 ∧ Heard 1 s t 138 (i % 65536 + 196608))
  ∧ (x.silent < msTicks (s.cv Fld.SVC_WDT_MS) → Leaves (.instanceWatchdog i) s s)

/-- Restarts, lost cores and what the shipped services do (R396, R398, R400 to R403). That rule 255 matches every ICMPv6 packet is the model's
choice (log entry 33).
Model's choices in its clauses, no rules of the spec: the operands for what a shipped service chooses (log entry 32); that a timer's
command before its time changes nothing, and how a time is counted in ticks (log entry 55). -/
def Obligations.ServicesAndFaults : Prop := ∀ s : State, s.awake = true →
  (∀ i x p t0, s.inst i = some x → x.restartDue = some t0 → s.passed t0 1 = true →
      (s.recentRestarts x).length < s.cv Fld.SVC_RESTART_LIMIT → s.pkg i = some p →
      s.coreEnabled x.core = true → s.hasRoom x.core p.slots p.opp = true →
    Gives (.instanceRestart i) s fun t => (t.inst i).map (·.state) = some 1 ∧ (t.inst i).map (·.core) = some x.core
      ∧ (t.inst i).map (·.restartDue) = some none ∧ (t.inst i).map (·.restarts) = some (s.recentRestarts x ++ [s.time.tick])
      ∧ Heard 1 s t 136 (i % 65536 + 65536 * (x.core % 8)))
  ∧ (∀ i x t0, s.inst i = some x → x.restartDue = some t0 → s.passed t0 1 = true →
      s.cv Fld.SVC_RESTART_LIMIT ≤ (s.recentRestarts x).length →
    Gives (.instanceRestart i) s fun t => (t.inst i).map (·.restartDue) = some none ∧ Heard 1 s t 137 (i % 65536 + 131072))
  ∧ (∀ i x t0, s.inst i = some x → x.restartDue = some t0 → s.passed t0 1 = false → Leaves (.instanceRestart i) s s)
  ∧ (∀ k j, k ≤ 7 → j ≤ 7 → j ≠ k → (s.core k).state = 1 → 8 ≤ (s.core k).mute → s.coreEnabled j = true → s.svc.insts = [] →
    Gives (.coreHeartbeatLoss k) s fun t =>
      t.hush = (s.setCore k fun c => { c with state := 4, cur := 0, left := 0 }).hush ∧ Heard 1 s t 140 (k + 32))
  ∧ (∀ k, (s.core k).mute < 8 → Leaves (.coreHeartbeatLoss k) s s)
  ∧ (∀ k src x y w h v, s.svcRuns 1 = true → k ≤ 3 → s.isSource k = true → s.disp.streams = [v] → v.capture = false → v.dpx = k →
      v.state = 3 → v.desc.map (·.dsc) ≠ some true → 0 < w → w ≤ 3840 → 0 < h → h ≤ 2160 → s.cv Fld.HOLD_REGION_MIB ≠ 0 →
    Leaves (.displayHoldOverlayOn k true src x y w h none) s
      ((s.copyMem (lpddrBase + s.svcBase + s.dataBase 1 + src) (lpddrBase + s.holdBase + overlaySlot k) (4 * w * h)).setDpx k
        fun d => { d with overlay := (true, x, y, w, h, overlaySlot k) }))
  ∧ (∀ k src x y w h r, s.svcRuns 1 = true → k ≤ 3 → s.isSource k = true →
    Leaves (.displayHoldOverlayOn k false src x y w h r) s (s.setDpx k fun d => { d with overlay := (false, d.overlay.2) }))
  ∧ (∀ k px x y w h off, s.svcRuns 1 = true → s.cv Fld.DH_STATUS_LINE ≠ 0 → k ≤ 3 → (s.dpx k).overlay = (true, x, y, w, h, off) →
      nth s.svc.redrawAt k none = none →
    Leaves (.dhStatusRedraw k px) s
      (({ s with svc := { s.svc with redrawAt := put s.svc.redrawAt k (some s.time.tick) } } : State).storeMem
        (lpddrBase + s.holdBase + off + 4 * w * (h - min 32 h)) (px.take (4 * w * min 32 h))))
  ∧ (∀ k px t0, nth s.svc.redrawAt k none = some t0 → s.passed t0 (secTicks 1) = false → Leaves (.dhStatusRedraw k px) s s)
  ∧ (∀ absent, s.svcRuns 2 = true → s.netPort = true → s.net.absent = absent →
    Gives (.netPresenceRules absent) s fun t => ∃ a b, t.net.ruleNext = s.net.ruleNext ++ [a, b] ∧ a.index = 254 ∧ b.index = 255
      ∧ a.isSet = absent ∧ b.isSet = absent ∧ a.act = ⟨0, 0, 3, 0, false⟩ ∧ b.act = ⟨0, 0, 3, 0, false⟩
      ∧ a.value = keyWith [(5, 17), (40, 68)] ∧ b.value = keyWith [(5, 58)])
  ∧ (∀ k rn, s.svcRuns 2 = true → s.netPort = true → s.cv Fld.NP_DHCP_RENEW = 1 → (∃ e ∈ s.net.v4, e.1 = k) → s.svcPath = true →
    Leaves (.dhcpRenewal k rn [] []) s (s.macSend s.net.boundMac rn))
  ∧ (∀ rn, s.svcRuns 2 = true → s.netPort = true → s.net.v4 = [(0, 1, false)] → s.cv Fld.NP_WAKE_ON_LOSS = 1 →
    Gives (.dhcpRenewal 0 rn [0] []) s fun t => t.net.v4 = [] ∧ Heard 1 s t 142 2)
  ∧ (s.cv Fld.KA_WAKE_ON_HID = 1 → s.svcRuns 3 = true → Gives (.keepaliveHidWake true) s fun t => t.hush = s.hush ∧ Heard 1 s t 142 131075)
  ∧ (∀ r, s.cv Fld.KA_WAKE_ON_HID = 1 → s.svcRuns 3 = true → s.usb.absent = true → s.svc.hidWoke = false → r ∈ s.usb.hid →
      (∃ b ∈ r.bytes, b ≠ 0) →
    Gives (.keepaliveHidWake false) s fun t => t.hush = ({ s with svc := { s.svc with hidWoke := true } } : State).hush
      ∧ Heard 1 s t 142 65539)
  ∧ (s.cv Fld.FLEET_ENABLE = 1 → s.svcRuns 4 = true → s.svc.fleetAt = none → s.svc.fleetMiss = 2 →
    Gives (.fleetReport none) s fun t => t.svc.fleetMiss = 3 ∧ t.svc.fleetAt = some s.time.tick ∧ Heard 1 s t 143 4
      ∧ (s.svcPath = true → Emit.fleetReport (s.cv Fld.FLEET_SERVER) (s.cv Fld.FLEET_PORT) (s.cv Fld.FLEET_MAC)
          (mailboxes.map fun c => s.status c) (((s.inst 4).map (·.events)).getD []) ∈ t.out))
  ∧ (s.cv Fld.FLEET_ENABLE = 1 → s.svcRuns 4 = true → s.svc.fleetAt = none → 3 ≤ s.svc.fleetMiss →
    Gives (.fleetReport (some (s.cv Fld.FLEET_KEYID))) s fun t => t.svc.fleetMiss = 0 ∧ Heard 1 s t 143 65540)
  ∧ (∀ a t0, s.svc.fleetAt = some t0 → s.passed t0 (secTicks (s.cv Fld.FLEET_PERIOD_S)) = false → Leaves (.fleetReport a) s s)

/-- The service commands (Table 15.5, R385 to R387, R395, R406).
Model's choices in its clauses, no rules of the spec: which number a handle gets (log entry 7); the result codes of corner cases (log
entry 49). -/
def Obligations.ServiceCommands : Prop :=
  Shows .svcShow Cmd.svcShow 0 (fun _ _ => True) (fun _ s =>
      ((upTo 8).flatMap fun k =>
        leBytes 1 (s.core k).state ++ leBytes 1 (nth s.plan.inForce.slices k (0, 1)).2 ++ leBytes 2 (loadOf (s.coreWorks k))
          ++ leBytes 2 (nth s.plan.inForce.slices k (0, 1)).1 ++ leBytes 1 (s.instsOn k).length ++ zeros 1)
        ++ leBytes 1 (s.svc.insts.filter fun x => x.state == 1 || x.state == 3).length
        ++ leBytes 1 (s.svc.insts.filter fun x => x.state == 2).length ++ leBytes 2 (total (s.svc.insts.map (·.lostEvents))))
  ∧ Does .svcStage Cmd.svcStage 5 (fun rq _ => arg rq 0 4 = 0)
      (fun rq s => { s with svc := { s.svc with
        staged := put s.svc.staged (chanNum (viaChan rq.via)) ((rq.payload.drop 4).take 1020) } }) (fun _ _ => [])
  ∧ Starts .svcInstall Cmd.svcInstall 0 (fun _ s => s.lifecycle ≠ lcScrapped)
      (fun rq s =>
        let b := nth s.svc.staged (chanNum (viaChan rq.via)) []
        let u : State := { s with svc := { s.svc with staged := put s.svc.staged (chanNum (viaChan rq.via)) [] } }
        if (s.checkPkg b).1.bad then u
        else { u with upd := { s.upd with flash := { s.upd.flash with
          pkgs := (s.upd.flash.pkgs.filter fun q => q.id != leAt 6 2 b) ++ [⟨leAt 6 2 b, (s.checkPkg b).2⟩] } } })
      (fun rq s =>
        let b := nth s.svc.staged (chanNum (viaChan rq.via)) []
        some ((s.checkPkg b).1.code, leBytes 2 (leAt 6 2 b)))
  ∧ Does .svcRemove Cmd.svcRemove 2
      (fun rq s => s.svc.insts = [] ∧ ∃ p ∈ s.upd.flash.pkgs, p.id = arg rq 0 2)
      (fun rq s => { s with upd := { s.upd with flash := { s.upd.flash with
        pkgs := s.upd.flash.pkgs.filter fun p => p.id != arg rq 0 2 } } }) (fun _ _ => [])
  ∧ Fails .svcRemove Cmd.svcRemove 2 (fun rq s => ∃ x ∈ s.svc.insts, x.id = arg rq 0 2 ∧ x.state ≠ 0) .badState
  ∧ (∀ rq s p k, Admitted Cmd.svcStart 3 rq s → s.pkg (arg rq 0 2) = some p → s.svc.insts = [] →
      s.place (s.runClass p) p.slots p.opp none = some k →
    ∃ t, exec (.svcStart rq) s = .next t ∧ t.Replied rq (if s.runClass p = p.cls then .ok else .okClamped) 0 (leBytes 1 k)
      ∧ ∃ x, t.svc.insts = [x] ∧ x.id = arg rq 0 2 ∧ x.state = 1 ∧ x.core = k ∧ x.cls = s.runClass p)
  ∧ Fails .svcStart Cmd.svcStart 3 (fun rq s => s.pkg (arg rq 0 2) = none) .badHandle
  ∧ (∀ rq s x, Admitted Cmd.svcStop 2 rq s → s.knownSvc (arg rq 0 2) = true → s.inst (arg rq 0 2) = some x →
    ∃ t, exec (.svcStop rq) s = .next t ∧ t.Replied rq .ok 0 [] ∧ (t.inst (arg rq 0 2)).map (·.persist) = some false
      ∧ (x.state = 1 → (t.inst (arg rq 0 2)).map (·.state) = some 0))
  ∧ (∀ x, Shows .svcInstanceShow Cmd.svcInstanceShow 2 (fun rq s => s.knownSvc (arg rq 0 2) = true ∧ s.inst (arg rq 0 2) = some x)
      (fun _ s => leBytes 1 x.state ++ leBytes 1 x.core ++ leBytes 1 x.cls ++ zeros 1 ++ leBytes 2 x.ran
          ++ leBytes 2 (s.recentRestarts x).length ++ leBytes 4 x.faults ++ leBytes 1 x.lastFault ++ zeros 3))
  ∧ (∀ rq s, Admitted Cmd.svcCoreDrain 1 rq s → s.jobRoom rq → arg rq 0 1 ≤ 7 → (s.core (arg rq 0 1)).state = 1 → s.svc.insts = [] →
      s.svc.cores.length = 8 →
    ∃ t, exec (.svcCoreDrain rq) s = .next t ∧ t.Replied rq .accepted (s.chan (viaChan rq.via)).freeHandle []
      ∧ (t.core (arg rq 0 1)).state = (if bitAt (s.applied Fld.SVC_CORES_MASK) (arg rq 0 1) then 3 else 0))
  ∧ (∀ rq s, Admitted Cmd.svcCoreAdmit 1 rq s → arg rq 0 1 ≤ 7 → bitAt (s.applied Fld.SVC_CORES_MASK) (arg rq 0 1) = true →
      (s.core (arg rq 0 1)).state ≠ 1 → (s.core (arg rq 0 1)).state ≠ 2 → s.svc.insts = [] →
      s.svc.cores.length = 8 →
    ∃ t, exec (.svcCoreAdmit rq) s = .next t ∧ t.Replied rq .ok 0 [] ∧ (t.core (arg rq 0 1)).state = 1)
  ∧ (∀ x, Does .svcDataPut Cmd.svcDataPut 9
      (fun rq s => s.knownSvc (arg rq 0 2) = true ∧ s.inst (arg rq 0 2) = some x ∧ x.state = 1
        ∧ arg rq 4 4 + ((rq.payload.drop 8).take 1016).length ≤ x.memKib * 1024)
      (fun rq s => (s.storeMem (lpddrBase + s.svcBase + s.dataBase (arg rq 0 2) + arg rq 4 4) ((rq.payload.drop 8).take 1016)).setInst
        (arg rq 0 2) fun x => { x with notice := true }) (fun _ _ => []))

/-- The tick boundary (R30, R205, R206, Table 2.4) and what power states do with time (R461, R462, R465, R466, R470, R475, R369).
Model's choices in its clauses, no rules of the spec: phases S and P as states (log entry 46); when the events of an exit are raised (log
entry 47); that a timer's command before its time changes nothing, and how a time is counted in ticks (log entry 55). -/
def Obligations.BoundariesAndPowerStates : Prop := ∀ s : State, s.powered = true →
  (∀ readings pOut margin steps lanes, s.awake = true →
    Gives (.tickBoundary readings pOut margin steps lanes) s fun t => t.time.tick = s.time.tick + 1 ∧ t.time.slot = 0
      ∧ t.plan.inForce = s.plan.shadow.getD s.plan.inForce ∧ t.plan.shadow = none)
  ∧ (∀ readings pOut margin steps lanes, s.clockStands = false → s.fault.thermal = true →
    Gives (.tickBoundary readings pOut margin steps lanes) s fun t =>
      t.time = { s.time with tick := s.time.tick + 1, slot := 0 } ∧ t.plan = s.plan ∧ t.cable = s.cable)
  ∧ (∀ readings pOut margin steps lanes, s.clockStands = true → Leaves (.tickBoundary readings pOut margin steps lanes) s s)
  ∧ (s.pwr.target = 2 → s.pwr.state ≤ 1 → s.pwr.phase = 0 → s.cv Fld.IDLE_ENTRY_TICKS ≤ s.pwr.idleCount →
    Leaves .idleEntry s { s with pwr := { s.pwr with next := some 2 } })
  ∧ (s.pwr.idleCount < s.cv Fld.IDLE_ENTRY_TICKS → Leaves .idleEntry s s)
  ∧ (s.pwr.phase = 1 → Gives .phaseSStart s fun t => t.pwr.phase = 2 ∧ t.pwr.resume = true ∧ t.pwr.valid = true
      ∧ t.pwr.hdrRole = s.topo.role.code)
  ∧ (s.pwr.phase ≠ 1 → Leaves .phaseSStart s s)
  ∧ (s.pwr.phase = 2 → Gives .phasePStart s fun t => t.pwr.phase = 3 ∧ t.pwr.state = s.pwr.goal ∧ t.pins.coreEn = false
      ∧ t.pins.anaEn = false ∧ t.pins.refReqN = true ∧ (t.pins.memEn = true ↔ s.pwr.goal = 3))
  ∧ (s.pwr.phase ≠ 2 → Leaves .phasePStart s s)
  ∧ (s.pwr.phase = 1 → s.passed s.pwr.since (msTicks (s.cv Fld.ENTRY_TIMEOUT_MS)) = true →
    Gives .entryTimeout s fun t => t.pwr.phase = 0 ∧ t.pwr.state = s.pwr.state ∧ t.pwr.target = s.pwr.left
      ∧ t.pwr.aborts = satAdd 32 s.pwr.aborts 1 ∧ t.pwr.wake = s.pwr.wake)
  ∧ (s.passed s.pwr.since (msTicks (s.cv Fld.ENTRY_TIMEOUT_MS)) = false → Leaves .entryTimeout s s)
  ∧ (∀ src cycles latched bad, s.wakeEnabled src = true → (src = 8 → 32768 * s.pwr.timer ≤ cycles) →
    ((s.pwr.phase = 1 ∨ s.pwr.phase = 2) → Gives (.wakeSource src cycles latched bad) s fun t => t.pwr.phase = 0
      ∧ t.pwr.wake = src ∧ t.pwr.aborts = satAdd 32 s.pwr.aborts 1)
    ∧ (s.pwr.phase = 3 → s.pwr.goal = 3 → s.pwr.valid = true →
      Gives (.wakeSource src cycles latched bad) s fun t => t.pwr.phase = 4 ∧ t.pwr.wake = src
        ∧ t.time.tick = s.time.tick + BitVec.ofNat 48 (max cycles s.exitCycles * 125 / 128 + 1) ∧ t.time.slot = 0
        ∧ t.pins.coreEn = true ∧ t.pins.anaEn = true ∧ t.pins.memEn = true ∧ t.pins.refReqN = false)
    ∧ (s.pwr.phase = 4 → Leaves (.wakeSource src cycles latched bad) s { s with pwr := { s.pwr with wake := src } }))
  ∧ (∀ src cycles latched bad, s.wakeEnabled src = false → Leaves (.wakeSource src cycles latched bad) s s)
  ∧ (∀ cycles latched bad, cycles < 32768 * s.pwr.timer → Leaves (.wakeSource 8 cycles latched bad) s s)
  ∧ (s.pwr.phase = 4 → s.pwr.state = 3 → s.passed s.pwr.since 3 = true →
    Gives .retainExitComplete s fun t => t.pwr.state = 0 ∧ t.pwr.target = 0
      ∧ t.pwr.phase = 0 ∧ Heard 2 s t 171 (s.pwr.woke % 16 + 16 * b2n s.pwr.latched))
  ∧ (s.passed s.pwr.since 3 = false → Leaves .retainExitComplete s s)
  ∧ (s.mem.lpddr = .selfRefresh → (s.pwr.phase = 0 ∨ s.pwr.phase = 4) →
    (s.mayStartWoeri = false → Leaves (.selfRefreshExitCheckDone true) s { s with mem := { s.mem with lpddr := .active } })
    ∧ Leaves (.selfRefreshExitCheckDone false) s { s with mem := { s.mem with lpddr := .training } })

/-- The power state commands (Tables 18.9 and 18.10; R461, R463, R464).
Model's choices in its clauses, no rules of the spec: which number a handle gets (log entry 7); that a wake condition counts while it
stands (log entry 45). -/
def Obligations.PowerStateCommands : Prop :=
  Shows .pstateShow Cmd.pstateShow 0 (fun _ _ => True) (fun _ s =>
    let p := s.pwr
    leBytes 1 p.state ++ leBytes 1 p.target ++ leBytes 1 p.phase ++ leBytes 1 p.wake ++ leBytes 2 (500 + 5 * s.pins.coreVid)
      ++ leBytes 2 p.floor ++ leBytes 2 p.margin ++ leBytes 2 p.idleCount ++ leBytes 2 (packBits ((upTo 12).map fun d => s.domainOn d))
      ++ zeros 2 ++ leBytes 4 p.entries ++ leBytes 4 p.aborts)
  ∧ Does .pstateSet Cmd.pstateSet 4 (fun rq s => arg rq 0 1 ≤ 1 ∧ s.pwr.phase ≠ 1)
      (fun rq s => { s with pwr := { s.pwr with
        target := arg rq 0 1, idleCount := 0
        next := if s.pwr.state ≤ 2 ∧ s.pwr.state ≠ arg rq 0 1 then some (arg rq 0 1) else none } }) (fun _ _ => [])
  ∧ Does .pstateSet Cmd.pstateSet 4 (fun rq s => arg rq 0 1 = 2 ∧ s.pwr.phase ≠ 1)
      (fun _ s => { s with pwr := { s.pwr with target := 2, idleCount := 0 } }) (fun _ _ => [])
  ∧ (∀ rq s, Admitted Cmd.pstateSet 4 rq s → arg rq 0 1 ≤ 2 → s.pwr.phase = 1 →
    ∃ t, exec (.pstateSet rq) s = .next t ∧ t.Replied rq .ok 0 [] ∧ t.pwr.phase = 0 ∧ t.pwr.target = arg rq 0 1
      ∧ t.pwr.aborts = satAdd 32 s.pwr.aborts 1)
  ∧ Fails .pstateSet Cmd.pstateSet 4 (fun rq _ => 4 < arg rq 0 1) .badState
  ∧ (∀ rq s, Admitted Cmd.pstateSet 4 rq s → (arg rq 0 1 = 3 ∨ arg rq 0 1 = 4) → s.entryRefusal (arg rq 0 1) ≠ 0 →
    ∃ t, exec (.pstateSet rq) s = .next t ∧ t.still = s.still ∧ t.Replied rq .badState 0 [BitVec.ofNat 8 (s.entryRefusal (arg rq 0 1))])
  ∧ Fails .pstateSet Cmd.pstateSet 4 (fun rq s => (arg rq 0 1 = 3 ∨ arg rq 0 1 = 4) ∧ s.entryRefusal (arg rq 0 1) = 0 ∧ s.pwr.phase ≠ 0) .busy
  ∧ (∀ rq s, Admitted Cmd.pstateSet 4 rq s → s.jobRoom rq → (arg rq 0 1 = 3 ∨ arg rq 0 1 = 4) → s.entryRefusal (arg rq 0 1) = 0 → s.pwr.phase = 0 →
    ∃ t, exec (.pstateSet rq) s = .next t ∧ t.Replied rq .accepted (s.chan (viaChan rq.via)).freeHandle []
      ∧ t.pwr.phase = 1 ∧ t.pwr.goal = arg rq 0 1 ∧ t.pwr.left = s.pwr.state ∧ t.pwr.mask = s.applied Fld.WAKE_MASK
      ∧ t.pwr.timer = s.applied Fld.WAKE_TIMER_S)

/-- Key slots, the life cycle and the anti-rollback count (Tables 19.1 to 19.4, 19.9 and 19.10; R481, R482, R485, R486, R490): what each command
answers and has blown when it is ACCEPTED, and what it has done when it finishes.
Model's choices in its clauses, no rules of the spec: which number a handle gets (log entry 7); the details of trust commands that log
entry 50 names. -/
def Obligations.TrustCommands : Prop :=
  Shows .trustShow Cmd.trustShow 0 (fun _ _ => True) (fun _ s =>
    leBytes 1 s.lifecycle ++ leBytes 1 s.rollbackCount ++ zeros 2
      ++ ((upTo 32).flatMap fun k => leBytes 1 (s.slotState k + 8 * (s.slot k).cls)) ++ s.deviceId ++ zeros 4)
  ∧ (∀ rq s, Admitted Cmd.trustKeyShow 1 rq s → arg rq 0 1 ≤ 31 →
    let k := arg rq 0 1
    ∃ t tag, exec (.trustKeyShow rq) s = .next t ∧ (∀ g, s.slotTag k = some g → tag = g) ∧ t.trust = s.trust
      ∧ t.Replied rq .ok 0 (leBytes 1 (s.slotState k) ++ leBytes 1 (s.slot k).cls ++ leBytes 2 tag
        ++ (if (s.slot k).cls = 3 ∨ (s.slot k).cls = 6 then zeros 32 else (s.slot k).bytes)))
  ∧ Starts .trustKeyInstall Cmd.trustKeyInstall 36
      (fun rq s => arg rq 0 1 ≤ 31 ∧ s.slotState (arg rq 0 1) = 0 ∧ classFits (arg rq 0 1) (arg rq 1 1) = true
        ∧ leNat (slice 4 32 rq.payload) ≠ 0 ∧ leNat (slice 4 32 rq.payload) ≠ 2 ^ 256 - 1 ∧ (arg rq 1 1 = 6 → viaChan rq.via = .loc)
        ∧ slotWritable s.lifecycle (arg rq 0 1) = true ∧ s.trust.work = none)
      (fun rq s => { s with trust := { s.trust with
        slots := put s.trust.slots (arg rq 0 1) ⟨BitVec.ofNat 256 (leNat (slice 4 32 rq.payload)), 0⟩
        work := some (.install (arg rq 0 1) (arg rq 1 1)) } }) (fun _ _ => none)
  ∧ Fails .trustKeyInstall Cmd.trustKeyInstall 36 (fun rq s => arg rq 0 1 ≤ 31 ∧ s.slotState (arg rq 0 1) ≠ 0) .badState
  ∧ Fails .trustKeyRevoke Cmd.trustKeyRevoke 1 (fun rq s => arg rq 0 1 < 8 ∧ s.bootSlotsUsed = [] ∧ s.lifecycle ≠ 1 ∧ s.lifecycle ≠ 4) .locked
  ∧ Starts .trustKeyRevoke Cmd.trustKeyRevoke 1
      (fun rq s => arg rq 0 1 ≤ 31 ∧ s.bootSlotsUsed = [] ∧ (8 ≤ arg rq 0 1 ∨ s.lifecycle = 1 ∨ s.lifecycle = 4) ∧ s.trust.work = none
        ∧ s.trust.dead = 0)
      (fun rq s => { s with trust := { s.trust with
        slots := put s.trust.slots (arg rq 0 1) { s.slot (arg rq 0 1) with word := BitVec.allOnes 32 }
        work := some (.destroy (arg rq 0 1) (s.slot (arg rq 0 1)).cls) } })
      (fun _ _ => none)
  ∧ (∀ rq s, Admitted Cmd.trustLifecycleAdvance 236 rq s → signersOf s.lifecycle (arg rq 0 1) = none →
    ∃ t, exec (.trustLifecycleAdvance rq) s = .next t ∧ t.Replied rq .locked 0 [] ∧ t.trust = s.trust ∧ t.fault = s.fault)
  ∧ (∀ rq s who, Admitted Cmd.trustLifecycleAdvance 236 rq s → s.jobRoom rq → signersOf s.lifecycle (arg rq 0 1) = some who →
      s.lcCondition s.lifecycle (arg rq 0 1) = true → s.trust.work = none →
    let nonce := slice 4 32 rq.payload
    let digest := sha384 (labelBytes "XJT-LC" ++ s.deviceId ++ leBytes 1 s.lifecycle ++ leBytes 1 (arg rq 0 1) ++ nonce)
    let good := s.nonceOk rq.via nonce
      && who.zipIdx.all fun w => s.signedBy w.1 (arg rq (36 + 100 * w.2) 4) digest (slice (40 + 100 * w.2) 96 rq.payload)
    ∃ t, exec (.trustLifecycleAdvance rq) s = .next t
      ∧ (t.chan (viaChan rq.via)).nonces = (s.chan (viaChan rq.via)).nonces.filter (fun n => n.bytes != nonce)
      ∧ (good = true → t.Replied rq .accepted (s.chan (viaChan rq.via)).freeHandle [] ∧ t.trust.work = some (.lifecycle (arg rq 0 1))
        ∧ ∀ k, k < s.lifecycle ∨ arg rq 0 1 ≤ k → nth t.trust.lc k 0 = nth s.trust.lc k 0)
      ∧ (good = false → t.Replied rq .authFail 0 [] ∧ t.trust = s.trust ∧ t.fault = s.fault))
  ∧ Fails .trustRollbackAdvance Cmd.trustRollbackAdvance 1 (fun rq s => s.lowestSvn s.bootable < arg rq 0 1) .badState
  ∧ (∀ rq s, Admitted Cmd.trustRollbackAdvance 1 rq s → s.jobRoom rq → arg rq 0 1 ≤ s.lowestSvn s.bootable → arg rq 0 1 ≤ 64 →
      s.trust.work = none → s.trust.rollback.toNat + 1 = 2 ^ s.rollbackCount →
    ∃ t, exec (.trustRollbackAdvance rq) s = .next t ∧ t.Replied rq .accepted (s.chan (viaChan rq.via)).freeHandle []
      ∧ t.trust.work = some (.rollback (arg rq 0 1)) ∧ s.rollbackCount ≤ t.rollbackCount
      ∧ t.rollbackCount ≤ max s.rollbackCount (arg rq 0 1) ∧ t.trust.slots = s.trust.slots ∧ t.trust.lc = s.trust.lc)
  ∧ (∀ s via h j, s.awake = true → ((s.chan (viaChan via)).jobs.find? fun j => j.handle == h && j.result == none) = some j →
      0x1003 ≤ j.opcode → j.opcode ≤ 0x1006 →
    (∀ k c, s.trust.work = some (.install k c) → k ≤ 31 → c ≤ 7 → s.trust.slots.length = 32 → (s.slot k).word = 0 →
      Gives (.longCommandFinish via h true) s fun t => t.trust.work = none ∧ (t.slot k).content = (s.slot k).content
        ∧ (t.slot k).word.toNat = 2 ^ 31 + c * 2 ^ 28 + slotCheck k c (s.slot k).bytes)
    ∧ (∀ k c ok, s.trust.work = some (.destroy k c) → k ≤ 31 → s.trust.slots.length = 32 → s.trust.dead = 0 →
      Gives (.longCommandFinish via h ok) s fun t => t.trust.work = none ∧ t.slot k = ⟨BitVec.allOnes 256, BitVec.allOnes 32⟩
        ∧ Heard 2 s t 177 (k % 32 + 32 * c + 1024))
    ∧ (∀ target ok, s.trust.work = some (.lifecycle target) →
      Gives (.longCommandFinish via h ok) s fun t => t.trust.work = none
        ∧ t.fault.deferred = some (1, 0x33, s.time.tick + BitVec.ofNat 48 (msTicks 10))
        ∧ t.trust.lc = s.trust.lc.mapIdx fun k x => if s.lifecycle ≤ k ∧ k < target then 7 else x)
    ∧ (∀ n ok, s.trust.work = some (.rollback n) → n ≤ 64 → s.trust.rollback.toNat + 1 = 2 ^ s.rollbackCount →
      Gives (.longCommandFinish via h ok) s fun t => t.trust.work = none ∧ t.rollbackCount = max s.rollbackCount n
        ∧ t.trust.slots = s.trust.slots ∧ t.trust.lc = s.trust.lc))
  ∧ Shows .trustIdShow Cmd.trustIdShow 0 (fun _ _ => True) (fun _ s =>
    s.deviceId ++ fitBytes 97 (s.devicePub.getD []) ++ zeros 3 ++ leBytes 4 s.linkKeyid)

/-- The access control units' commands (Tables 19.8a, 19.8b and 19.10; R500 to R502): each completes with OK on every unit and every region that is
not locked, with what it answers and leaves; and what each refuses.
Model's choices in its clauses, no rules of the spec: the addresses of the units' registers, a constant without a body (log entry 36). -/
def Obligations.AccessControlCommands : Prop :=
  (∀ rq s, Admitted Cmd.trustAcuShow 1 rq s → arg rq 0 1 ≤ 15 →
    let m := arg rq 0 1
    ∃ t, exec (.trustAcuShow rq) s = .next t ∧ t.still = s.still
      ∧ t.Replied rq .ok 0 (leBytes 1 (b2n (s.acu m).epoch) ++ leBytes 1 (b2n (s.nomatchAllow m)) ++ zeros 2 ++ leBytes 4 (s.acu m).denials
        ++ (s.acu m).regions.flatMap Region.bytes))
  ∧ Fails .trustAcuShow Cmd.trustAcuShow 1 (fun rq _ => 15 < arg rq 0 1) .badState
  ∧ (∀ rq s, Admitted Cmd.trustAcuLogShow 1 rq s → arg rq 0 1 ≤ 15 →
    ∃ t, exec (.trustAcuLogShow rq) s = .next t ∧ t.still = s.still
      ∧ t.Replied rq .ok 0 (leBytes 1 (s.acu (arg rq 0 1)).log.length ++ zeros 3 ++ (s.acu (arg rq 0 1)).log.flatMap fun e =>
        leBytes 8 e.addr ++ leBytes 4 e.tick.toNat ++ leBytes 1 e.slot ++ leBytes 1 e.kind ++ leBytes 1 e.region ++ zeros 1))
  ∧ Fails .trustAcuLogShow Cmd.trustAcuLogShow 1 (fun rq _ => 15 < arg rq 0 1) .badState
  ∧ (∀ rq s, Admitted Cmd.trustAcuSet 24 rq s → arg rq 0 1 ≤ 15 → arg rq 1 1 ≤ 15 → s.trust.acus.length = 16 →
    let m := arg rq 0 1
    let j := arg rq 1 1
    let old := nth (s.acu m).regions j .init
    let r := regionOf old (slice 8 16 rq.payload)
    old.lock = false → (m = 14 → r.valid = true → s.lifecycle ≤ 1 ∨ s.lifecycle = 4) →
      ((s.swapRegion m j r).acuCheck 0 1 Config.acuRegisters false).allow = true →
    ∃ t, exec (.trustAcuSet rq) s = .next t ∧ t.Replied rq .ok 0 [] ∧ (t.acu m).epoch = !(s.acu m).epoch
      ∧ (t.acu m).regions = put (s.acu m).regions j r ∧ (∀ k, k ≠ m → (t.acu k).regions = (s.acu k).regions)
      ∧ Heard 2 s t 180 (m + 16 * j + 256 * b2n r.lock))
  ∧ Fails .trustAcuSet Cmd.trustAcuSet 24
      (fun rq s => arg rq 0 1 ≤ 15 ∧ arg rq 1 1 ≤ 15 ∧ (nth (s.acu (arg rq 0 1)).regions (arg rq 1 1) .init).lock = true) .locked
  ∧ Fails .trustAcuSet Cmd.trustAcuSet 24
      (fun rq s => arg rq 0 1 = 14 ∧ arg rq 1 1 ≤ 15 ∧ (s.lifecycle = 2 ∨ s.lifecycle = 3 ∨ s.lifecycle = 5)
        ∧ (regionOf (nth (s.acu 14).regions (arg rq 1 1) .init) (slice 8 16 rq.payload)).valid = true) .locked
  ∧ Fails .trustAcuSet Cmd.trustAcuSet 24 (fun rq _ => 15 < arg rq 0 1 ∨ 15 < arg rq 1 1) .badState

/-- Staging, checking and activating image copies, and the boot directory (Tables 20.6, 20.8, 20.13 and 20.14; R515 to R524).
Model's choices in its clauses, no rules of the spec: which number a handle gets (log entry 7); the details of live update that log entry
51 names. -/
def Obligations.UpdateCommands : Prop :=
  (∀ rq s, Admitted Cmd.updShow 0 rq s →
    let row := fun (v i : Nat) =>
      let c := nth s.upd.running i 0
      leBytes 1 c ++ leBytes 1 (s.activeCopy i) ++ leBytes 1 (s.bootable i).toNat
        ++ leBytes 1 ((nth s.upd.verdicts (2 * engineOf i + (1 - c)) none).getD v) ++ leBytes 4 (imgVersion (s.runningImage i))
        ++ leBytes 1 (imgSvn (s.runningImage i)) ++ zeros 7
    ∃ t v, exec (.updShow rq) s = .next t
      ∧ t.Replied rq .ok 0 ((upTo 5).flatMap (row v) ++ leBytes 4 ((s.upd.flash.dir?.map fun d => d.2.gen).getD v)
        ++ leBytes 1 (min 255 s.upd.pairs) ++ leBytes 2 (imgEpoch 5 (s.runningImage 0))))
  ∧ Does .updStage Cmd.updStage 8
      (fun rq s => arg rq 0 1 ≤ 3 ∧ arg rq 1 1 ≤ 1 ∧ s.copyBusy (arg rq 0 1) (arg rq 1 1) = false
        ∧ (arg rq 4 4 = 0 ∨ arg rq 4 4 = (s.image (arg rq 0 1) (arg rq 1 1)).length)
        ∧ arg rq 4 4 + rq.payload.length ≤ regionBytes (arg rq 0 1) + 8 ∧ 8 ≤ rq.payload.length ∧ rq.payload.length ≤ 1020)
      (fun rq s =>
        let e := arg rq 0 1
        let c := arg rq 1 1
        let bytes := (if arg rq 4 4 = 0 then [] else s.image e c) ++ rq.payload.drop 8
        { s with upd := { s.upd with
          verdicts := put s.upd.verdicts (2 * e + c) none
          flash := { s.upd.flash with images := put s.upd.flash.images (2 * e + c) bytes }
          stageIn := if rq.via = .usb ∧ rq.payload.length = 8 then some (e, c) else none } }) (fun _ _ => [])
  ∧ Fails .updStage Cmd.updStage 8 (fun rq s => 3 < arg rq 0 1 ∨ 1 < arg rq 1 1 ∨ s.copyBusy (arg rq 0 1) (arg rq 1 1) = true) .badState
  ∧ Starts .updVerify Cmd.updVerify 2 (fun rq s => arg rq 0 1 ≤ 3 ∧ arg rq 1 1 ≤ 1 ∧ s.upd.verify = none)
      (fun rq s => { s with upd := { s.upd with
        verify := some (rq.via, (s.chan (viaChan rq.via)).freeHandle, arg rq 0 1, arg rq 1 1) } }) (fun _ _ => none)
  ∧ Starts .updActivate Cmd.updActivate 2
      (fun rq s => arg rq 0 1 ≤ 4 ∧ arg rq 1 1 ≤ 1 ∧ nth s.upd.verdicts (2 * engineOf (arg rq 0 1) + arg rq 1 1) none = some 0
        ∧ s.upd.act = none ∧ s.conflicts (arg rq 0 1) (arg rq 1 1) = false)
      (fun rq s => { s with upd := { s.upd with
        act := some ⟨arg rq 0 1, arg rq 1 1, false, rq.via, (s.chan (viaChan rq.via)).freeHandle, 0, 8, s.time.tick⟩ } }) (fun _ _ => none)
  ∧ Fails .updActivate Cmd.updActivate 2 (fun rq s => arg rq 0 1 ≤ 4 ∧ arg rq 1 1 ≤ 1
      ∧ nth s.upd.verdicts (2 * engineOf (arg rq 0 1) + arg rq 1 1) none = some 0 ∧ s.upd.act ≠ none) .busy
  ∧ Starts .updRevert Cmd.updRevert 1
      (fun rq s => arg rq 0 1 ≤ 4 ∧ nth s.upd.verdicts (2 * engineOf (arg rq 0 1) + s.activeCopy (arg rq 0 1)) none = some 0
        ∧ s.upd.act = none ∧ s.conflicts (arg rq 0 1) (s.activeCopy (arg rq 0 1)) = false)
      (fun rq s => { s with upd := { s.upd with
        act := some ⟨arg rq 0 1, s.activeCopy (arg rq 0 1), true, rq.via, (s.chan (viaChan rq.via)).freeHandle, 0, 8, s.time.tick⟩ } })
      (fun _ _ => none)
  ∧ (∀ rq s, Admitted Cmd.updCommit 1 rq s → s.jobRoom rq → s.upd.act = none → s.upd.commit = none →
    let h := (s.chan (viaChan rq.via)).freeHandle
    let d := s.newDir (bitAt (arg rq 0 1) 0)
    ∃ t, exec (.updCommit rq) s = .next t ∧ t.Replied rq .accepted h [] ∧ t.upd.commit = some ⟨rq.via, h, d.2, d.1⟩
      ∧ t.upd.flash.dirs = s.upd.flash.dirs ∧ (t.upd.flash.journal.head?).map (fun e => (e.phase, e.gen)) = some (1, d.2.gen))
  ∧ Fails .updCommit Cmd.updCommit 1 (fun _ s => s.upd.act ≠ none ∨ s.upd.commit ≠ none) .busy
  ∧ Does .updKeymanPut Cmd.updKeymanPut 4
      (fun rq s => 5 ≤ rq.payload.length ∧ rq.payload.length ≤ 1024 ∧ arg rq 2 2 + rq.payload.length ≤ 2053 ∧ arg rq 0 1 ≤ 31
        ∧ s.slotState (arg rq 0 1) ≠ 1)
      (fun rq s =>
        let old := fitBytes 2049 (nth s.upd.flash.keyman (arg rq 0 1) [])
        let new := old.take (arg rq 2 2) ++ rq.payload.drop 4 ++ old.drop (arg rq 2 2 + (rq.payload.length - 4))
        { s with upd := { s.upd with flash := { s.upd.flash with keyman := put s.upd.flash.keyman (arg rq 0 1) new } } }) (fun _ _ => [])
  ∧ (∀ s via h j e c, s.awake = true → ((s.chan (viaChan via)).jobs.find? fun j => j.handle == h && j.result == none) = some j →
      j.opcode = 0x1103 → s.upd.verify = some (via, h, e, c) → e ≤ 3 → c ≤ 1 → s.upd.verdicts.length = 8 →
    ∀ ok, Gives (.longCommandFinish via h ok) s fun t => t.upd.verify = none
      ∧ t.upd.verdicts = put s.upd.verdicts (2 * e + c) (some (s.verdict e c).1)
      ∧ Heard 2 s t 182 (e + 4 * c + 256 * (s.verdict e c).1))
  ∧ (∀ s via h j c, s.awake = true → ((s.chan (viaChan via)).jobs.find? fun j => j.handle == h && j.result == none) = some j →
      j.opcode = 0x1106 → s.upd.commit = some c → c.via = via → c.handle = h →
    (Gives (.longCommandFinish via h true) s fun t => t.upd.commit = none
      ∧ t.upd.flash.dirs = put s.upd.flash.dirs c.copy c.dir ∧ Heard 3 s t 185 0)
    ∧ (Gives (.longCommandFinish via h false) s fun t => t.upd.commit = none
      ∧ t.upd.flash.dirs = put s.upd.flash.dirs c.copy .erased ∧ t.trust = s.trust ∧ Heard 2 s t 185 Rc.hwFault.code))

/-- An activation once its instance is quiet or is not in time, the handover of the management core, and the commit that the hub makes by
itself (R517 to R519, R521 to R523).
Model's choices in its clauses, no rules of the spec: the details of live update that log entry 51 names; that a timer's command before
its time changes nothing, and how a time is counted in ticks (log entry 55). -/
def Obligations.Activations : Prop := ∀ s : State, s.awake = true →
  (∀ a, s.upd.act = some a → 2 ≤ a.inst → a.inst ≤ 4 → a.phase = 0 → s.instQuiet a = true →
      nth s.upd.verdicts (2 * engineOf a.inst + a.copy) none = some 0 → s.conflicts a.inst a.copy = false →
    Gives .activationQuiet s fun t => t.upd.running = put s.upd.running a.inst a.copy ∧ t.upd.act = none
      ∧ t.upd.flash = s.upd.flash ∧ Heard 1 s t 183 (a.inst + 8 * a.copy))
  ∧ (∀ a, s.upd.act = some a → a.inst = 0 → a.phase = 0 → s.instQuiet a = true →
      nth s.upd.verdicts a.copy none = some 0 → s.conflicts 0 a.copy = false →
    Gives .activationQuiet s fun t => t.boot.stage = 3 ∧ t.upd.act = some { a with phase := 1, since := s.time.tick }
      ∧ t.upd.running = s.upd.running)
  ∧ (∀ a, s.upd.act = some a → s.instQuiet a = false → Leaves .activationQuiet s s)
  ∧ (∀ a, s.upd.act = some a → a.phase = 0 →
      s.passed a.since (msTicks (s.cv Fld.UPD_WAIT_MS)) = true →
    Gives .activationWaitExpiry s fun t => t.upd = { s.upd with act := none })
  ∧ (∀ a, s.upd.act = some a → s.passed a.since (msTicks (s.cv Fld.UPD_WAIT_MS)) = false → Leaves .activationWaitExpiry s s)
  ∧ (∀ a, s.upd.act = some a → a.inst = 0 → a.phase = 1 → s.boot.stage = 3 →
      imgMinEpoch 3 (s.image 0 a.copy) ≤ imgEpoch 3 (s.runningImage 0) →
      tickDiff s.time.tick a.since ≤ s.cv Fld.HANDOVER_LIMIT_TICKS →
    Gives .mgtHandoverReady s fun t => t.boot.stage = 2 ∧ t.upd.running = put s.upd.running 0 a.copy ∧ t.upd.act = none
      ∧ t.upd.mgtHalf = 1 - s.upd.mgtHalf ∧ Heard 1 s t 183 (8 * a.copy))
  ∧ (∀ a, s.upd.act = some a → a.inst = 0 → a.phase = 1 → s.boot.stage = 3 →
      s.passed a.since (s.cv Fld.HANDOVER_LIMIT_TICKS) = true →
    Gives .handoverTimeout s fun t => t.boot.stage = 2 ∧ t.upd.running = s.upd.running ∧ t.upd.act = none
      ∧ t.upd.mgtHalf = s.upd.mgtHalf)
  ∧ (∀ a, s.upd.act = some a → s.passed a.since (s.cv Fld.HANDOVER_LIMIT_TICKS) = false → Leaves .handoverTimeout s s)
  ∧ (s.fwRuns = true → s.cv Fld.UPD_AUTOCOMMIT_S ≠ 0 → s.upd.act = none → s.upd.commit = none →
      s.cv Fld.UPD_AUTOCOMMIT_S * 32000 ≤ tickDiff s.time.tick s.upd.cleanSince →
      (∃ i < 5, nth s.upd.stopped i false = false ∧ nth s.upd.running i 0 ≠ s.activeCopy i) →
    Gives .autocommit s fun t => t.upd.flash.dirs = put s.upd.flash.dirs (s.newDir false).1 (s.newDir false).2
      ∧ Heard 2 s t 185 0)
  ∧ ((∀ i < 5, nth s.upd.running i 0 = s.activeCopy i) → Leaves .autocommit s s)

/-- The recorder (Tables 20.9, 20.13 and 20.14; R526 to R531): snapshots, the ring and its buffer, freezing, reading and replay.
Model's choices in its clauses, no rules of the spec: which number a handle gets (log entry 7); the order of what a snapshot holds and the
payloads of spores (log entry 41); that a timer's command before its time changes nothing, and how a time is counted in ticks (log entry
55). -/
def Obligations.Recorder : Prop :=
  (∀ s : State, s.awake = true →
    ((s.rcd.mode = 1 ∨ s.rcd.mode = 2) → s.mem.lpddr = .active → s.snapNow = true →
      Gives .checkpoint s fun t => t.rcd.nextSnap = (s.rcd.nextSnap % 8 + 1) % 8
        ∧ t.rcd.snapDue = false ∧ t.rcd.nextCp = some (s.time.tick + BitVec.ofNat 48 (msTicks (s.cv Fld.CHECKPOINT_MS)))
        ∧ t.rcd.snaps = put s.rcd.snaps (s.rcd.nextSnap % 8) (some ⟨s.time.tick, s.rcd.nextSeq,
          s.mem.cells.filter fun c => c.1 < 0x100000 || (plannerBase ≤ c.1 && c.1 < plannerBase + 0x18000)⟩))
    ∧ (s.snapNow = false → Leaves .checkpoint s s)
    ∧ ((s.rcd.mode = 0 ∨ s.rcd.mode = 3 ∨ s.mem.lpddr ≠ .active) → s.rcd.mode ≤ 3 →
      Leaves .checkpoint s s ∧ Gives .sporeBufferRoom s fun t => t.rcd = s.rcd)
    ∧ ((s.rcd.mode = 1 ∨ s.rcd.mode = 2) → s.mem.lpddr = .active → s.rcd.dropped = 0 →
      Gives .sporeBufferRoom s fun t =>
        t = { s.begin with rcd := { s.rcd with ring := (s.rcd.buffer.reverse ++ s.rcd.ring).take (ringCap s), buffer := [] } })
    ∧ ((s.rcd.mode = 1 ∨ s.rcd.mode = 2) → s.mem.lpddr = .active → s.rcd.dropped ≠ 0 → s.rcd.gapTick = none →
      Gives .sporeBufferRoom s fun t => t.rcd.dropped = 0 ∧ t.rcd.gaps = satAdd 32 s.rcd.gaps 1
        ∧ t.rcd.gapTick = some s.time.tick ∧ Heard 1 s t 189 (65536 * min 65535 s.rcd.dropped))
    ∧ (s.rcd.mode = 2 → s.passed s.rcd.trigAt (s.cv Fld.REC_POST_TICKS) = true →
      Gives .recPostTriggerExpiry s fun t => t.rcd.mode = 3 ∧ Heard 1 s t 188 s.rcd.trigger)
    ∧ (s.rcd.mode ≠ 2 ∨ s.passed s.rcd.trigAt (s.cv Fld.REC_POST_TICKS) = false →
      Gives .recPostTriggerExpiry s fun t => t.rcd = s.rcd ∧ t.hush = s.hush)
    ∧ (∀ slot tick r, s.rcd.replay = some r →
      (Gives (.replayFinish true slot tick) s fun t => t.rcd.replay = none ∧ Heard 1 s t 190 1 ∧ Heard 2 s t 191 (slot % 256))
      ∧ Gives (.replayFinish false slot tick) s fun t => t.rcd.replay = none ∧ Heard 1 s t 190 0))
  ∧ (∀ rq s, Admitted Cmd.recShow 0 rq s →
    let r := ((s.begin.countLocal rq.via).spore 1 (chanNum (viaChan rq.via)) (reqBytes Cmd.recShow.opcode rq)).rcd
    ∃ t v, exec (.recShow rq) s = .next t
      ∧ t.Replied rq .ok 0 (leBytes 1 r.mode ++ leBytes 1 r.trigger ++ zeros 2
        ++ leBytes 4 (((r.ring.getLast?).map (·.seq.toNat)).getD v) ++ leBytes 4 (((r.ring.head?).map (·.seq.toNat)).getD v)
        ++ ((upTo 8).flatMap fun k => leBytes 6 (((nth s.rcd.snaps k none).map (·.tick.toNat)).getD v)) ++ leBytes 4 s.rcd.gaps))
  ∧ (∀ rq s, Admitted Cmd.recFreeze 1 rq s → arg rq 0 1 = 0 → s.rcd.mode = 1 →
    ∃ t, exec (.recFreeze rq) s = .next t ∧ t.still = s.still ∧ t.Replied rq .ok 0 [] ∧ t.rcd.mode = 2)
  ∧ (∀ rq s, Admitted Cmd.recFreeze 1 rq s → arg rq 0 1 = 1 → s.rcd.mode = 3 → s.cv Fld.REC_ENABLE = 1 →
    ∃ t, exec (.recFreeze rq) s = .next t ∧ t.still = s.still ∧ t.Replied rq .ok 0 [] ∧ t.rcd.mode = 1 ∧ t.rcd.ring = s.rcd.ring)
  ∧ Fails .recFreeze Cmd.recFreeze 1 (fun rq _ => 1 < arg rq 0 1) .badState
  ∧ (∀ rq s x, Admitted Cmd.recRead 8 rq s → 1 ≤ arg rq 2 1 → arg rq 2 1 ≤ 15 → arg rq 0 1 = 0 → s.rcd.mode = 3 →
      x ∈ s.rcd.ring → x.seq.toNat = arg rq 4 4 →
    ∃ t, exec (.recRead rq) s = .next t ∧ t.still = s.still
      ∧ t.Replied rq .ok 0 (((s.rcd.ring.reverse.dropWhile fun e => e.seq.toNat != arg rq 4 4).take (arg rq 2 1)).flatMap sporeBytes))
  ∧ (∀ rq s x, Admitted Cmd.recRead 8 rq s → 1 ≤ arg rq 2 1 → arg rq 2 1 ≤ 15 → arg rq 0 1 = 1 →
      nth s.rcd.snaps (arg rq 1 1) none = some x → arg rq 4 4 < 0x118000 →
    ∃ t, exec (.recRead rq) s = .next t ∧ t.still = s.still
      ∧ t.Replied rq .ok 0 ((upTo (min 960 (0x118000 - arg rq 4 4))).map fun k => x.byteAt (arg rq 4 4 + k)))
  ∧ Fails .recRead Cmd.recRead 8 (fun rq _ => 15 < arg rq 2 1 ∨ 1 < arg rq 0 1) .badState
  ∧ (∀ rq s j, Admitted Cmd.recReplay 8 rq s → s.jobRoom rq → arg rq 0 1 ≤ 7 → s.cv Fld.REC_ENABLE ≠ 0 → s.svc.on = true →
      (∃ k < 8, s.coreEnabled k = true) → s.rcd.mode = 3 → s.replayable (arg rq 0 1) = true → s.rcd.replay = none →
      s.place 2 125 3 none = some j →
    let h := (s.chan (viaChan rq.via)).freeHandle
    ∃ t, exec (.recReplay rq) s = .next t ∧ t.Replied rq .accepted h []
      ∧ t.rcd.replay = some (rq.via, h, arg rq 0 1, arg rq 4 4))
  ∧ Fails .recReplay Cmd.recReplay 8 (fun _ s => s.rcd.mode ≠ 3) .badState

/-- The life-cycle state (R479): five fuse positions of three fuses each, blown when two of three are; the state is the number of blown
positions from LC0 up without a gap, and LIFECYCLE in the hardware window shows it. -/
def Obligations.LifeCycleFuses : Prop := ∀ s : State, s.trust.lc.length = 5 →
  let blown := fun (k : Nat) =>
    let f := nth s.trust.lc k 0
    2 ≤ b2n (f.getLsbD 0) + b2n (f.getLsbD 1) + b2n (f.getLsbD 2)
  (∀ k, s.lifecycle = k ↔ k ≤ 5 ∧ (∀ j < k, blown j) ∧ (k < 5 → ¬ blown k))
  ∧ (∀ c, s.windowWord c 6 = s.lifecycle)
  ∧ (∀ t : State, (∀ k ≤ s.lifecycle, nth t.trust.lc k 0 = nth s.trust.lc k 0) → t.trust.lc.length = 5 → t.lifecycle = s.lifecycle)

/-- `upd.keyman.put` (R524): one key manifest entry is written; BAD_STATE when its slot is VALID and the entry's hash would not match the
slot; an entry whose slot is EMPTY may be written at any time. -/
def Obligations.KeyManifest : Prop := ∀ rq s, Admitted Cmd.updKeymanPut 4 rq s → 5 ≤ rq.payload.length → rq.payload.length ≤ 1024 →
  arg rq 2 2 + rq.payload.length ≤ 2053 → arg rq 0 1 ≤ 31 →
  let k := arg rq 0 1
  let old := fitBytes 2049 (nth s.upd.flash.keyman k [])
  let new := old.take (arg rq 2 2) ++ rq.payload.drop 4 ++ old.drop (arg rq 2 2 + (rq.payload.length - 4))
  let wrong := s.slotState k = 1 ∧ (sha384 new).take 32 ≠ (s.slot k).bytes
  ∃ t, exec (.updKeymanPut rq) s = .next t
    ∧ (wrong → t.still = s.still ∧ t.Replied rq .badState 0 [])
    ∧ (¬ wrong → t.Replied rq .ok 0 []
      ∧ t.still = ({ s with upd := { s.upd with flash := { s.upd.flash with keyman := put s.upd.flash.keyman k new } } } : State).still)

/-- UNATT ends (R62): a LOCAL request that is counted while UNATT is 1 clears UNATT and raises EV006 before it is executed: the command does
what it would do in the state in which that has happened already, and the withdrawn overrides stay withdrawn. -/
def Obligations.UnattendedEnds : Prop := ∀ cmd row min, IsMailbox cmd row min → ∀ (rq : Req) (s : State), rq.via = .spi →
  s.mbx.unatt = true → Admitted row min rq s →
  let u := s.countLocal .spi
  exec (cmd rq) s = exec (cmd rq) u
    ∧ u.hush = ({ s with mbx := { s.mbx with unatt := false, sinceAttn := 0, firstLocal := true } } : State).hush
    ∧ Heard 1 s u 6 0 ∧ u.cfg = s.cfg

/-- An access control unit's decision (R496): a LOCK region that covers the address and forbids the access denies it; otherwise the first
region that covers it decides; with none, NOMATCH_MASK decides where Table 19.1 honours it, UNCACHED and STRICT. -/
def Obligations.AccessDecision : Prop := ∀ (s : State) (m k a : Nat) (d : Bool),
  let rs := (s.acu m).regions
  let inside := fun (r : Region) => r.valid = true ∧ r.base.toNat ≤ a / 4096 ∧ a / 4096 ≤ r.limit.toNat
  let allows := fun (r : Region) => (k = 0 ∧ r.read = true) ∨ (k = 1 ∧ r.write = true) ∨ (2 ≤ k ∧ r.exec = true)
  let barred := fun (r : Region) => d = true ∧ r.nodebug = true
  ((∃ r ∈ rs, inside r ∧ r.lock = true ∧ (¬ allows r ∨ barred r)) → (s.acuCheck m k a d).allow = false)
  ∧ ((∀ r ∈ rs, inside r → r.lock = true → allows r ∧ ¬ barred r) →
    (∀ l r l', rs = l ++ r :: l' → (∀ x ∈ l, ¬ inside x) → inside r →
      (barred r ∨ ¬ allows r → (s.acuCheck m k a d).allow = false)
      ∧ (allows r → ¬ barred r → (s.acuCheck m k a d).allow = true ∧ (s.acuCheck m k a d).cache = r.cache.toNat
        ∧ (s.acuCheck m k a d).relaxed = r.relaxed))
    ∧ ((∀ r ∈ rs, ¬ inside r) →
      ((s.acuCheck m k a d).allow = true ↔ (s.cv Fld.NOMATCH_MASK).testBit m = true ∧ openLc s.lifecycle = true)
        ∧ (s.acuCheck m k a d).cache = 0 ∧ (s.acuCheck m k a d).relaxed = false))

/-- A bay's fault count and its breaker (R446, R447): while RAMP, LIMIT or ON the count rises by 1 in each sample at the limit, falls by 1 in
every eighth sample below it and never falls below 0; when it reaches BAYn_FAULT_MS × 1,000 the channel faults with cause TIMER, and a
current above twice the limit faults it at once with cause BREAKER, whatever the count. -/
def Obligations.BayFaultCount : Prop := ∀ (s : State) (b : Nat) (up : Bool) (n mv ma : Nat), s.pwrLive = true → b ≤ 3 → b < s.ppath.bays.length →
  (s.bay b).state = .ramp ∨ (s.bay b).state = .limit ∨ (s.bay b).state = .on →
  ((s.bay b).state = .limit → (s.bay b).faultMs * 1000 ≤ (s.bay b).count + n →
    Gives (.bayCurrentLimit b up n mv ma) s fun t => (t.bay b).state = .faultWait ∧ (t.bay b).cause = 1)
  ∧ ((s.bay b).state = .limit → (s.bay b).count + n < (s.bay b).faultMs * 1000 →
    Gives (.bayCurrentLimit b up n mv ma) s fun t => (t.bay b).count = (s.bay b).count + n)
  ∧ ((s.bay b).state ≠ .limit → (s.bay b).count ≤ (s.bay b).faultMs * 1000 →
    Gives (.bayCurrentLimit b up n mv ma) s fun t => (t.bay b).count = (s.bay b).count - n / 8)
  ∧ (2 * (s.bay b).ilim < ma → Gives (.bayBreaker b ma) s fun t => (t.bay b).state = .faultWait ∧ (t.bay b).cause = 2)

/-- Uncorrectable words of the Lichen store (R541), by the region that holds the word: the overrides withdrawn, the next training full, a
register list lost, the next exit from RETAIN run as one from HIBERNATE, a fault record's entry cleared. -/
def Obligations.LichenWordLost : Prop := ∀ (s : State) (off : Nat),
  let t := s.lichenLost off
  (0x1000 ≤ off → off < 0x11000 → t.cfg.ovr = [])
  ∧ (0x11000 ≤ off → off < 0x12000 → t.mem.trained = false)
  ∧ (0x12000 ≤ off → off < 0x32000 → ∀ k < 9, listAt (off - 0x12000) = k → k < s.pwr.saved.length → nth t.pwr.saved k true = false)
  ∧ ((off < 0x800 ∨ (0x950 ≤ off ∧ off < 0x1000) ∨ 0x32000 ≤ off) → t.pwr.valid = false
    ∧ ∀ source cycles latched bad, s.pwr.goal = 3 → (t.beginExit source cycles latched bad).pwr.goal = 4)
  ∧ (0x800 ≤ off → off < 0x950 →
    t = ({ s with fault := s.fault.clearEntry (off - 0x800) } : State).logFault 4 actNone)
  ∧ (∀ (f : FaultSt) o, (o < 16 → (f.clearEntry o).resetKind = 0 ∧ (f.clearEntry o).resetCause = 0 ∧ (f.clearEntry o).resetTick = 0)
    ∧ (16 ≤ o → o < 80 → nth (f.clearEntry o).counts (o - 16) 0 = 0)
    ∧ (80 ≤ o → (f.clearEntry o).log = f.log.set ((o - 80) / 16) ⟨0, 0, 0, 0, 0, 0⟩))

/-- Every cell begins with the header of Table 6.1 (R145): its fields, most significant first, are where the table puts them, and HCRC is the
CRC-16 of bits [63:16]. -/
def Obligations.CellHeaders : Prop := ∀ c : Cell, c.path < 4096 → c.tc < 8 → c.kind < 8 → c.len < 1024 → c.seq < 4096 → c.cidx < 16 →
    c.hcrc = hcrcOf c →
  let w := beNat ((cellBytes c).take 8)
  let shift := fun (r : Nat) (b : Bool) =>
    if (r.testBit 15 != b) = true then Nat.xor (2 * r % 65536) 0x1021 else 2 * r % 65536
  w < 2 ^ 64 ∧ w / 2 ^ 52 = c.path ∧ w / 2 ^ 49 % 8 = c.tc ∧ w / 2 ^ 46 % 8 = c.kind ∧ w / 2 ^ 36 % 1024 = c.len
    ∧ w / 2 ^ 24 % 4096 = c.seq ∧ w / 2 ^ 20 % 16 = c.cidx ∧ w.testBit 19 = c.first ∧ w.testBit 18 = c.last ∧ w.testBit 17 = c.poison
    ∧ w.testBit 16 = c.ecn
    ∧ w % 2 ^ 16 = ((List.range 48).map fun k => w.testBit (63 - k)).foldl shift 0xFFFF

/-- Cells in the byte stream of a run are found and read again (R145 to R147): whatever the fields, the receiver reads from a header's bytes the
header sent, a whole cell takes a multiple of 8 bytes, and the hunt that starts at a cell followed by another resumes there. -/
def Obligations.CellsReadAgain : Prop := ∀ (c d : Cell) (rest : List Byte),
  (∀ x ∈ [c, d], x.path < 4096 ∧ x.tc < 8 ∧ x.kind < 8 ∧ x.len ≤ 256 ∧ x.seq < 4096 ∧ x.cidx < 16 ∧ x.payload.length = x.len
    ∧ x.hcrc = hcrcOf x) →
  let run := cellBytes c ++ cellBytes d ++ rest
  parseHeader (run.take 8) = { c with payload := [] }
    ∧ headerOk (parseHeader (run.take 8)) = true
    ∧ (run.drop 8).take c.len = c.payload
    ∧ (cellBytes c).length % 8 = 0 ∧ (cellBytes c).length = cellRoom c
    ∧ parseHeader ((run.drop (cellRoom c)).take 8) = { d with payload := [] }
    ∧ huntFrom run 0 = some 0

/-- What the transmitter of a lane sends, its receiver reads (R109, R110, R112, R113): whatever the codewords of a run, with and without precoding, the
levels are those of PAM4 and spell the symbols again, the idle symbols after the last whole codeword as zeros. -/
def Obligations.RunsReadAgain : Prop := ∀ (precoded : Bool) (words : List (List Nat)) (idle : Nat),
  (∀ w ∈ words, ∀ x ∈ w, x < 1024) →
  let levels := runLevels precoded words (5 * idle)
  (∀ v ∈ levels, v = -3 ∨ v = -1 ∨ v = 1 ∨ v = 3)
    ∧ levels.length = 5 * (words.flatten.length + idle)
    ∧ symbolsOf precoded levels = words.flatten ++ List.replicate idle 0
    ∧ (precoded = false → ∀ k < idle * 5, levels.reverse.getD k 0 = -3)
end

