-- ==== Sys2Proof/Laws/State.lean ====
section
/-! SUPPORT. One lemma per field and shared operation: what the operations through which every command goes leave alone. They are
cited by simp, so that no proof unfolds a record update. -/

namespace Sys2Proof.Machine

/-- A fold whose every step keeps a quantity keeps it. -/
theorem foldl_same {α β γ : Type} (f : α → β → α) (p : α → γ) (h : ∀ a b, p (f a b) = p a) :
    ∀ (l : List β) (a : α), p (l.foldl f a) = p a := by
  intro l
  induction l with
  | nil => intro a; rfl
  | cons b l ih => intro a; rw [List.foldl_cons, ih, h]

@[simp] theorem State.begin_pending (s : State) : (s.begin).pending = s.pending := rfl
@[simp] theorem State.begin_free (s : State) : (s.begin).free = s.free := rfl
@[simp] theorem State.begin_grade (s : State) : (s.begin).grade = s.grade := rfl
@[simp] theorem State.begin_time (s : State) : (s.begin).time = s.time := rfl
@[simp] theorem State.begin_topo (s : State) : (s.begin).topo = s.topo := rfl
@[simp] theorem State.begin_mbx (s : State) : (s.begin).mbx = s.mbx := rfl
@[simp] theorem State.begin_cfg (s : State) : (s.begin).cfg = s.cfg := rfl
@[simp] theorem State.begin_boot (s : State) : (s.begin).boot = s.boot := rfl
@[simp] theorem State.begin_fault (s : State) : (s.begin).fault = s.fault := rfl
@[simp] theorem State.begin_pins (s : State) : (s.begin).pins = s.pins := rfl
@[simp] theorem State.begin_rcd (s : State) : (s.begin).rcd = s.rcd := rfl
@[simp] theorem State.begin_trust (s : State) : (s.begin).trust = s.trust := rfl
@[simp] theorem State.begin_upd (s : State) : (s.begin).upd = s.upd := rfl
@[simp] theorem State.begin_cable (s : State) : (s.begin).cable = s.cable := rfl
@[simp] theorem State.begin_sw (s : State) : (s.begin).sw = s.sw := rfl
@[simp] theorem State.begin_plan (s : State) : (s.begin).plan = s.plan := rfl
@[simp] theorem State.begin_disp (s : State) : (s.begin).disp = s.disp := rfl
@[simp] theorem State.begin_pcie (s : State) : (s.begin).pcie = s.pcie := rfl
@[simp] theorem State.begin_usb (s : State) : (s.begin).usb = s.usb := rfl
@[simp] theorem State.begin_net (s : State) : (s.begin).net = s.net := rfl
@[simp] theorem State.begin_sb (s : State) : (s.begin).sb = s.sb := rfl
@[simp] theorem State.begin_mem (s : State) : (s.begin).mem = s.mem := rfl
@[simp] theorem State.begin_svc (s : State) : (s.begin).svc = s.svc := rfl
@[simp] theorem State.begin_cc (s : State) : (s.begin).cc = s.cc := rfl
@[simp] theorem State.begin_ppath (s : State) : (s.begin).ppath = s.ppath := rfl
@[simp] theorem State.begin_pwr (s : State) : (s.begin).pwr = s.pwr := rfl

@[simp] theorem State.begin_out (s : State) : s.begin.out = [] := rfl

@[simp] theorem State.emit_pending (s : State) (e : Emit) : (s.emit e).pending = s.pending := rfl
@[simp] theorem State.emit_free (s : State) (e : Emit) : (s.emit e).free = s.free := rfl
@[simp] theorem State.emit_grade (s : State) (e : Emit) : (s.emit e).grade = s.grade := rfl
@[simp] theorem State.emit_time (s : State) (e : Emit) : (s.emit e).time = s.time := rfl
@[simp] theorem State.emit_topo (s : State) (e : Emit) : (s.emit e).topo = s.topo := rfl
@[simp] theorem State.emit_mbx (s : State) (e : Emit) : (s.emit e).mbx = s.mbx := rfl
@[simp] theorem State.emit_cfg (s : State) (e : Emit) : (s.emit e).cfg = s.cfg := rfl
@[simp] theorem State.emit_boot (s : State) (e : Emit) : (s.emit e).boot = s.boot := rfl
@[simp] theorem State.emit_fault (s : State) (e : Emit) : (s.emit e).fault = s.fault := rfl
@[simp] theorem State.emit_pins (s : State) (e : Emit) : (s.emit e).pins = s.pins := rfl
@[simp] theorem State.emit_rcd (s : State) (e : Emit) : (s.emit e).rcd = s.rcd := rfl
@[simp] theorem State.emit_trust (s : State) (e : Emit) : (s.emit e).trust = s.trust := rfl
@[simp] theorem State.emit_upd (s : State) (e : Emit) : (s.emit e).upd = s.upd := rfl
@[simp] theorem State.emit_cable (s : State) (e : Emit) : (s.emit e).cable = s.cable := rfl
@[simp] theorem State.emit_sw (s : State) (e : Emit) : (s.emit e).sw = s.sw := rfl
@[simp] theorem State.emit_plan (s : State) (e : Emit) : (s.emit e).plan = s.plan := rfl
@[simp] theorem State.emit_disp (s : State) (e : Emit) : (s.emit e).disp = s.disp := rfl
@[simp] theorem State.emit_pcie (s : State) (e : Emit) : (s.emit e).pcie = s.pcie := rfl
@[simp] theorem State.emit_usb (s : State) (e : Emit) : (s.emit e).usb = s.usb := rfl
@[simp] theorem State.emit_net (s : State) (e : Emit) : (s.emit e).net = s.net := rfl
@[simp] theorem State.emit_sb (s : State) (e : Emit) : (s.emit e).sb = s.sb := rfl
@[simp] theorem State.emit_mem (s : State) (e : Emit) : (s.emit e).mem = s.mem := rfl
@[simp] theorem State.emit_svc (s : State) (e : Emit) : (s.emit e).svc = s.svc := rfl
@[simp] theorem State.emit_cc (s : State) (e : Emit) : (s.emit e).cc = s.cc := rfl
@[simp] theorem State.emit_ppath (s : State) (e : Emit) : (s.emit e).ppath = s.ppath := rfl
@[simp] theorem State.emit_pwr (s : State) (e : Emit) : (s.emit e).pwr = s.pwr := rfl

@[simp] theorem State.emit_out (s : State) (e : Emit) : (s.emit e).out = s.out ++ [e] := rfl

@[simp] theorem State.draw_pending (s : State) : (s.draw.2).pending = s.pending := rfl
@[simp] theorem State.draw_grade (s : State) : (s.draw.2).grade = s.grade := rfl
@[simp] theorem State.draw_time (s : State) : (s.draw.2).time = s.time := rfl
@[simp] theorem State.draw_topo (s : State) : (s.draw.2).topo = s.topo := rfl
@[simp] theorem State.draw_mbx (s : State) : (s.draw.2).mbx = s.mbx := rfl
@[simp] theorem State.draw_cfg (s : State) : (s.draw.2).cfg = s.cfg := rfl
@[simp] theorem State.draw_boot (s : State) : (s.draw.2).boot = s.boot := rfl
@[simp] theorem State.draw_fault (s : State) : (s.draw.2).fault = s.fault := rfl
@[simp] theorem State.draw_pins (s : State) : (s.draw.2).pins = s.pins := rfl
@[simp] theorem State.draw_rcd (s : State) : (s.draw.2).rcd = s.rcd := rfl
@[simp] theorem State.draw_trust (s : State) : (s.draw.2).trust = s.trust := rfl
@[simp] theorem State.draw_upd (s : State) : (s.draw.2).upd = s.upd := rfl
@[simp] theorem State.draw_cable (s : State) : (s.draw.2).cable = s.cable := rfl
@[simp] theorem State.draw_sw (s : State) : (s.draw.2).sw = s.sw := rfl
@[simp] theorem State.draw_plan (s : State) : (s.draw.2).plan = s.plan := rfl
@[simp] theorem State.draw_disp (s : State) : (s.draw.2).disp = s.disp := rfl
@[simp] theorem State.draw_pcie (s : State) : (s.draw.2).pcie = s.pcie := rfl
@[simp] theorem State.draw_usb (s : State) : (s.draw.2).usb = s.usb := rfl
@[simp] theorem State.draw_net (s : State) : (s.draw.2).net = s.net := rfl
@[simp] theorem State.draw_sb (s : State) : (s.draw.2).sb = s.sb := rfl
@[simp] theorem State.draw_mem (s : State) : (s.draw.2).mem = s.mem := rfl
@[simp] theorem State.draw_svc (s : State) : (s.draw.2).svc = s.svc := rfl
@[simp] theorem State.draw_cc (s : State) : (s.draw.2).cc = s.cc := rfl
@[simp] theorem State.draw_ppath (s : State) : (s.draw.2).ppath = s.ppath := rfl
@[simp] theorem State.draw_pwr (s : State) : (s.draw.2).pwr = s.pwr := rfl
@[simp] theorem State.draw_out (s : State) : (s.draw.2).out = s.out := rfl

@[simp] theorem State.draw_free (s : State) : s.draw.2.free = s.free + 1 := rfl

@[simp] theorem State.spore1_pending (s : State) (k c f : Nat) (p : List Byte) : (s.spore1 k c f p).pending = s.pending := by
  unfold State.spore1; dsimp only; split_ifs <;> rfl
@[simp] theorem State.spore1_free (s : State) (k c f : Nat) (p : List Byte) : (s.spore1 k c f p).free = s.free := by
  unfold State.spore1; dsimp only; split_ifs <;> rfl
@[simp] theorem State.spore1_grade (s : State) (k c f : Nat) (p : List Byte) : (s.spore1 k c f p).grade = s.grade := by
  unfold State.spore1; dsimp only; split_ifs <;> rfl
@[simp] theorem State.spore1_time (s : State) (k c f : Nat) (p : List Byte) : (s.spore1 k c f p).time = s.time := by
  unfold State.spore1; dsimp only; split_ifs <;> rfl
@[simp] theorem State.spore1_topo (s : State) (k c f : Nat) (p : List Byte) : (s.spore1 k c f p).topo = s.topo := by
  unfold State.spore1; dsimp only; split_ifs <;> rfl
@[simp] theorem State.spore1_mbx (s : State) (k c f : Nat) (p : List Byte) : (s.spore1 k c f p).mbx = s.mbx := by
  unfold State.spore1; dsimp only; split_ifs <;> rfl
@[simp] theorem State.spore1_cfg (s : State) (k c f : Nat) (p : List Byte) : (s.spore1 k c f p).cfg = s.cfg := by
  unfold State.spore1; dsimp only; split_ifs <;> rfl
@[simp] theorem State.spore1_boot (s : State) (k c f : Nat) (p : List Byte) : (s.spore1 k c f p).boot = s.boot := by
  unfold State.spore1; dsimp only; split_ifs <;> rfl
@[simp] theorem State.spore1_fault (s : State) (k c f : Nat) (p : List Byte) : (s.spore1 k c f p).fault = s.fault := by
  unfold State.spore1; dsimp only; split_ifs <;> rfl
@[simp] theorem State.spore1_pins (s : State) (k c f : Nat) (p : List Byte) : (s.spore1 k c f p).pins = s.pins := by
  unfold State.spore1; dsimp only; split_ifs <;> rfl
@[simp] theorem State.spore1_trust (s : State) (k c f : Nat) (p : List Byte) : (s.spore1 k c f p).trust = s.trust := by
  unfold State.spore1; dsimp only; split_ifs <;> rfl
@[simp] theorem State.spore1_upd (s : State) (k c f : Nat) (p : List Byte) : (s.spore1 k c f p).upd = s.upd := by
  unfold State.spore1; dsimp only; split_ifs <;> rfl
@[simp] theorem State.spore1_cable (s : State) (k c f : Nat) (p : List Byte) : (s.spore1 k c f p).cable = s.cable := by
  unfold State.spore1; dsimp only; split_ifs <;> rfl
@[simp] theorem State.spore1_sw (s : State) (k c f : Nat) (p : List Byte) : (s.spore1 k c f p).sw = s.sw := by
  unfold State.spore1; dsimp only; split_ifs <;> rfl
@[simp] theorem State.spore1_plan (s : State) (k c f : Nat) (p : List Byte) : (s.spore1 k c f p).plan = s.plan := by
  unfold State.spore1; dsimp only; split_ifs <;> rfl
@[simp] theorem State.spore1_disp (s : State) (k c f : Nat) (p : List Byte) : (s.spore1 k c f p).disp = s.disp := by
  unfold State.spore1; dsimp only; split_ifs <;> rfl
@[simp] theorem State.spore1_pcie (s : State) (k c f : Nat) (p : List Byte) : (s.spore1 k c f p).pcie = s.pcie := by
  unfold State.spore1; dsimp only; split_ifs <;> rfl
@[simp] theorem State.spore1_usb (s : State) (k c f : Nat) (p : List Byte) : (s.spore1 k c f p).usb = s.usb := by
  unfold State.spore1; dsimp only; split_ifs <;> rfl
@[simp] theorem State.spore1_net (s : State) (k c f : Nat) (p : List Byte) : (s.spore1 k c f p).net = s.net := by
  unfold State.spore1; dsimp only; split_ifs <;> rfl
@[simp] theorem State.spore1_sb (s : State) (k c f : Nat) (p : List Byte) : (s.spore1 k c f p).sb = s.sb := by
  unfold State.spore1; dsimp only; split_ifs <;> rfl
@[simp] theorem State.spore1_mem (s : State) (k c f : Nat) (p : List Byte) : (s.spore1 k c f p).mem = s.mem := by
  unfold State.spore1; dsimp only; split_ifs <;> rfl
@[simp] theorem State.spore1_svc (s : State) (k c f : Nat) (p : List Byte) : (s.spore1 k c f p).svc = s.svc := by
  unfold State.spore1; dsimp only; split_ifs <;> rfl
@[simp] theorem State.spore1_cc (s : State) (k c f : Nat) (p : List Byte) : (s.spore1 k c f p).cc = s.cc := by
  unfold State.spore1; dsimp only; split_ifs <;> rfl
@[simp] theorem State.spore1_ppath (s : State) (k c f : Nat) (p : List Byte) : (s.spore1 k c f p).ppath = s.ppath := by
  unfold State.spore1; dsimp only; split_ifs <;> rfl
@[simp] theorem State.spore1_pwr (s : State) (k c f : Nat) (p : List Byte) : (s.spore1 k c f p).pwr = s.pwr := by
  unfold State.spore1; dsimp only; split_ifs <;> rfl
@[simp] theorem State.spore1_out (s : State) (k c f : Nat) (p : List Byte) : (s.spore1 k c f p).out = s.out := by
  unfold State.spore1; dsimp only; split_ifs <;> rfl

@[simp] theorem State.spore_pending (s : State) (k c : Nat) (p : List Byte) : (s.spore k c p).pending = s.pending := by
  unfold State.spore; exact foldl_same _ (fun t : State => t.pending) (fun _ _ => by simp) _ _
@[simp] theorem State.spore_free (s : State) (k c : Nat) (p : List Byte) : (s.spore k c p).free = s.free := by
  unfold State.spore; exact foldl_same _ (fun t : State => t.free) (fun _ _ => by simp) _ _
@[simp] theorem State.spore_grade (s : State) (k c : Nat) (p : List Byte) : (s.spore k c p).grade = s.grade := by
  unfold State.spore; exact foldl_same _ (fun t : State => t.grade) (fun _ _ => by simp) _ _
@[simp] theorem State.spore_time (s : State) (k c : Nat) (p : List Byte) : (s.spore k c p).time = s.time := by
  unfold State.spore; exact foldl_same _ (fun t : State => t.time) (fun _ _ => by simp) _ _
@[simp] theorem State.spore_topo (s : State) (k c : Nat) (p : List Byte) : (s.spore k c p).topo = s.topo := by
  unfold State.spore; exact foldl_same _ (fun t : State => t.topo) (fun _ _ => by simp) _ _
@[simp] theorem State.spore_mbx (s : State) (k c : Nat) (p : List Byte) : (s.spore k c p).mbx = s.mbx := by
  unfold State.spore; exact foldl_same _ (fun t : State => t.mbx) (fun _ _ => by simp) _ _
@[simp] theorem State.spore_cfg (s : State) (k c : Nat) (p : List Byte) : (s.spore k c p).cfg = s.cfg := by
  unfold State.spore; exact foldl_same _ (fun t : State => t.cfg) (fun _ _ => by simp) _ _
@[simp] theorem State.spore_boot (s : State) (k c : Nat) (p : List Byte) : (s.spore k c p).boot = s.boot := by
  unfold State.spore; exact foldl_same _ (fun t : State => t.boot) (fun _ _ => by simp) _ _
@[simp] theorem State.spore_fault (s : State) (k c : Nat) (p : List Byte) : (s.spore k c p).fault = s.fault := by
  unfold State.spore; exact foldl_same _ (fun t : State => t.fault) (fun _ _ => by simp) _ _
@[simp] theorem State.spore_pins (s : State) (k c : Nat) (p : List Byte) : (s.spore k c p).pins = s.pins := by
  unfold State.spore; exact foldl_same _ (fun t : State => t.pins) (fun _ _ => by simp) _ _
@[simp] theorem State.spore_trust (s : State) (k c : Nat) (p : List Byte) : (s.spore k c p).trust = s.trust := by
  unfold State.spore; exact foldl_same _ (fun t : State => t.trust) (fun _ _ => by simp) _ _
@[simp] theorem State.spore_upd (s : State) (k c : Nat) (p : List Byte) : (s.spore k c p).upd = s.upd := by
  unfold State.spore; exact foldl_same _ (fun t : State => t.upd) (fun _ _ => by simp) _ _
@[simp] theorem State.spore_cable (s : State) (k c : Nat) (p : List Byte) : (s.spore k c p).cable = s.cable := by
  unfold State.spore; exact foldl_same _ (fun t : State => t.cable) (fun _ _ => by simp) _ _
@[simp] theorem State.spore_sw (s : State) (k c : Nat) (p : List Byte) : (s.spore k c p).sw = s.sw := by
  unfold State.spore; exact foldl_same _ (fun t : State => t.sw) (fun _ _ => by simp) _ _
@[simp] theorem State.spore_plan (s : State) (k c : Nat) (p : List Byte) : (s.spore k c p).plan = s.plan := by
  unfold State.spore; exact foldl_same _ (fun t : State => t.plan) (fun _ _ => by simp) _ _
@[simp] theorem State.spore_disp (s : State) (k c : Nat) (p : List Byte) : (s.spore k c p).disp = s.disp := by
  unfold State.spore; exact foldl_same _ (fun t : State => t.disp) (fun _ _ => by simp) _ _
@[simp] theorem State.spore_pcie (s : State) (k c : Nat) (p : List Byte) : (s.spore k c p).pcie = s.pcie := by
  unfold State.spore; exact foldl_same _ (fun t : State => t.pcie) (fun _ _ => by simp) _ _
@[simp] theorem State.spore_usb (s : State) (k c : Nat) (p : List Byte) : (s.spore k c p).usb = s.usb := by
  unfold State.spore; exact foldl_same _ (fun t : State => t.usb) (fun _ _ => by simp) _ _
@[simp] theorem State.spore_net (s : State) (k c : Nat) (p : List Byte) : (s.spore k c p).net = s.net := by
  unfold State.spore; exact foldl_same _ (fun t : State => t.net) (fun _ _ => by simp) _ _
@[simp] theorem State.spore_sb (s : State) (k c : Nat) (p : List Byte) : (s.spore k c p).sb = s.sb := by
  unfold State.spore; exact foldl_same _ (fun t : State => t.sb) (fun _ _ => by simp) _ _
@[simp] theorem State.spore_mem (s : State) (k c : Nat) (p : List Byte) : (s.spore k c p).mem = s.mem := by
  unfold State.spore; exact foldl_same _ (fun t : State => t.mem) (fun _ _ => by simp) _ _
@[simp] theorem State.spore_svc (s : State) (k c : Nat) (p : List Byte) : (s.spore k c p).svc = s.svc := by
  unfold State.spore; exact foldl_same _ (fun t : State => t.svc) (fun _ _ => by simp) _ _
@[simp] theorem State.spore_cc (s : State) (k c : Nat) (p : List Byte) : (s.spore k c p).cc = s.cc := by
  unfold State.spore; exact foldl_same _ (fun t : State => t.cc) (fun _ _ => by simp) _ _
@[simp] theorem State.spore_ppath (s : State) (k c : Nat) (p : List Byte) : (s.spore k c p).ppath = s.ppath := by
  unfold State.spore; exact foldl_same _ (fun t : State => t.ppath) (fun _ _ => by simp) _ _
@[simp] theorem State.spore_pwr (s : State) (k c : Nat) (p : List Byte) : (s.spore k c p).pwr = s.pwr := by
  unfold State.spore; exact foldl_same _ (fun t : State => t.pwr) (fun _ _ => by simp) _ _
@[simp] theorem State.spore_out (s : State) (k c : Nat) (p : List Byte) : (s.spore k c p).out = s.out := by
  unfold State.spore; exact foldl_same _ (fun t : State => t.out) (fun _ _ => by simp) _ _

@[simp] theorem State.recTrigger_pending (s : State) (c : Nat) : (s.recTrigger c).pending = s.pending := by
  unfold State.recTrigger; split_ifs <;> rfl
@[simp] theorem State.recTrigger_free (s : State) (c : Nat) : (s.recTrigger c).free = s.free := by
  unfold State.recTrigger; split_ifs <;> rfl
@[simp] theorem State.recTrigger_grade (s : State) (c : Nat) : (s.recTrigger c).grade = s.grade := by
  unfold State.recTrigger; split_ifs <;> rfl
@[simp] theorem State.recTrigger_time (s : State) (c : Nat) : (s.recTrigger c).time = s.time := by
  unfold State.recTrigger; split_ifs <;> rfl
@[simp] theorem State.recTrigger_topo (s : State) (c : Nat) : (s.recTrigger c).topo = s.topo := by
  unfold State.recTrigger; split_ifs <;> rfl
@[simp] theorem State.recTrigger_mbx (s : State) (c : Nat) : (s.recTrigger c).mbx = s.mbx := by
  unfold State.recTrigger; split_ifs <;> rfl
@[simp] theorem State.recTrigger_cfg (s : State) (c : Nat) : (s.recTrigger c).cfg = s.cfg := by
  unfold State.recTrigger; split_ifs <;> rfl
@[simp] theorem State.recTrigger_boot (s : State) (c : Nat) : (s.recTrigger c).boot = s.boot := by
  unfold State.recTrigger; split_ifs <;> rfl
@[simp] theorem State.recTrigger_fault (s : State) (c : Nat) : (s.recTrigger c).fault = s.fault := by
  unfold State.recTrigger; split_ifs <;> rfl
@[simp] theorem State.recTrigger_pins (s : State) (c : Nat) : (s.recTrigger c).pins = s.pins := by
  unfold State.recTrigger; split_ifs <;> rfl
@[simp] theorem State.recTrigger_trust (s : State) (c : Nat) : (s.recTrigger c).trust = s.trust := by
  unfold State.recTrigger; split_ifs <;> rfl
@[simp] theorem State.recTrigger_upd (s : State) (c : Nat) : (s.recTrigger c).upd = s.upd := by
  unfold State.recTrigger; split_ifs <;> rfl
@[simp] theorem State.recTrigger_cable (s : State) (c : Nat) : (s.recTrigger c).cable = s.cable := by
  unfold State.recTrigger; split_ifs <;> rfl
@[simp] theorem State.recTrigger_sw (s : State) (c : Nat) : (s.recTrigger c).sw = s.sw := by
  unfold State.recTrigger; split_ifs <;> rfl
@[simp] theorem State.recTrigger_plan (s : State) (c : Nat) : (s.recTrigger c).plan = s.plan := by
  unfold State.recTrigger; split_ifs <;> rfl
@[simp] theorem State.recTrigger_disp (s : State) (c : Nat) : (s.recTrigger c).disp = s.disp := by
  unfold State.recTrigger; split_ifs <;> rfl
@[simp] theorem State.recTrigger_pcie (s : State) (c : Nat) : (s.recTrigger c).pcie = s.pcie := by
  unfold State.recTrigger; split_ifs <;> rfl
@[simp] theorem State.recTrigger_usb (s : State) (c : Nat) : (s.recTrigger c).usb = s.usb := by
  unfold State.recTrigger; split_ifs <;> rfl
@[simp] theorem State.recTrigger_net (s : State) (c : Nat) : (s.recTrigger c).net = s.net := by
  unfold State.recTrigger; split_ifs <;> rfl
@[simp] theorem State.recTrigger_sb (s : State) (c : Nat) : (s.recTrigger c).sb = s.sb := by
  unfold State.recTrigger; split_ifs <;> rfl
@[simp] theorem State.recTrigger_mem (s : State) (c : Nat) : (s.recTrigger c).mem = s.mem := by
  unfold State.recTrigger; split_ifs <;> rfl
@[simp] theorem State.recTrigger_svc (s : State) (c : Nat) : (s.recTrigger c).svc = s.svc := by
  unfold State.recTrigger; split_ifs <;> rfl
@[simp] theorem State.recTrigger_cc (s : State) (c : Nat) : (s.recTrigger c).cc = s.cc := by
  unfold State.recTrigger; split_ifs <;> rfl
@[simp] theorem State.recTrigger_ppath (s : State) (c : Nat) : (s.recTrigger c).ppath = s.ppath := by
  unfold State.recTrigger; split_ifs <;> rfl
@[simp] theorem State.recTrigger_pwr (s : State) (c : Nat) : (s.recTrigger c).pwr = s.pwr := by
  unfold State.recTrigger; split_ifs <;> rfl
@[simp] theorem State.recTrigger_out (s : State) (c : Nat) : (s.recTrigger c).out = s.out := by
  unfold State.recTrigger; split_ifs <;> rfl

@[simp] theorem State.raise_pending (s : State) (n a : Nat) : (s.raise n a).pending = s.pending := by
  unfold State.raise; dsimp only; split_ifs <;> simp
@[simp] theorem State.raise_free (s : State) (n a : Nat) : (s.raise n a).free = s.free := by
  unfold State.raise; dsimp only; split_ifs <;> simp
@[simp] theorem State.raise_grade (s : State) (n a : Nat) : (s.raise n a).grade = s.grade := by
  unfold State.raise; dsimp only; split_ifs <;> simp
@[simp] theorem State.raise_time (s : State) (n a : Nat) : (s.raise n a).time = s.time := by
  unfold State.raise; dsimp only; split_ifs <;> simp
@[simp] theorem State.raise_topo (s : State) (n a : Nat) : (s.raise n a).topo = s.topo := by
  unfold State.raise; dsimp only; split_ifs <;> simp
@[simp] theorem State.raise_cfg (s : State) (n a : Nat) : (s.raise n a).cfg = s.cfg := by
  unfold State.raise; dsimp only; split_ifs <;> simp
@[simp] theorem State.raise_boot (s : State) (n a : Nat) : (s.raise n a).boot = s.boot := by
  unfold State.raise; dsimp only; split_ifs <;> simp
@[simp] theorem State.raise_fault (s : State) (n a : Nat) : (s.raise n a).fault = s.fault := by
  unfold State.raise; dsimp only; split_ifs <;> simp
@[simp] theorem State.raise_pins (s : State) (n a : Nat) : (s.raise n a).pins = s.pins := by
  unfold State.raise; dsimp only; split_ifs <;> simp
@[simp] theorem State.raise_trust (s : State) (n a : Nat) : (s.raise n a).trust = s.trust := by
  unfold State.raise; dsimp only; split_ifs <;> simp
@[simp] theorem State.raise_upd (s : State) (n a : Nat) : (s.raise n a).upd = s.upd := by
  unfold State.raise; dsimp only; split_ifs <;> simp
@[simp] theorem State.raise_cable (s : State) (n a : Nat) : (s.raise n a).cable = s.cable := by
  unfold State.raise; dsimp only; split_ifs <;> simp
@[simp] theorem State.raise_sw (s : State) (n a : Nat) : (s.raise n a).sw = s.sw := by
  unfold State.raise; dsimp only; split_ifs <;> simp
@[simp] theorem State.raise_plan (s : State) (n a : Nat) : (s.raise n a).plan = s.plan := by
  unfold State.raise; dsimp only; split_ifs <;> simp
@[simp] theorem State.raise_disp (s : State) (n a : Nat) : (s.raise n a).disp = s.disp := by
  unfold State.raise; dsimp only; split_ifs <;> simp
@[simp] theorem State.raise_pcie (s : State) (n a : Nat) : (s.raise n a).pcie = s.pcie := by
  unfold State.raise; dsimp only; split_ifs <;> simp
@[simp] theorem State.raise_usb (s : State) (n a : Nat) : (s.raise n a).usb = s.usb := by
  unfold State.raise; dsimp only; split_ifs <;> simp
@[simp] theorem State.raise_net (s : State) (n a : Nat) : (s.raise n a).net = s.net := by
  unfold State.raise; dsimp only; split_ifs <;> simp
@[simp] theorem State.raise_sb (s : State) (n a : Nat) : (s.raise n a).sb = s.sb := by
  unfold State.raise; dsimp only; split_ifs <;> simp
@[simp] theorem State.raise_mem (s : State) (n a : Nat) : (s.raise n a).mem = s.mem := by
  unfold State.raise; dsimp only; split_ifs <;> simp
@[simp] theorem State.raise_cc (s : State) (n a : Nat) : (s.raise n a).cc = s.cc := by
  unfold State.raise; dsimp only; split_ifs <;> simp
@[simp] theorem State.raise_ppath (s : State) (n a : Nat) : (s.raise n a).ppath = s.ppath := by
  unfold State.raise; dsimp only; split_ifs <;> simp
@[simp] theorem State.raise_pwr (s : State) (n a : Nat) : (s.raise n a).pwr = s.pwr := by
  unfold State.raise; dsimp only; split_ifs <;> simp
@[simp] theorem State.raise_out (s : State) (n a : Nat) : (s.raise n a).out = s.out := by
  unfold State.raise; dsimp only; split_ifs <;> simp

@[simp] theorem State.raiseIf_pending (s : State) (b : Bool) (n a : Nat) : (s.raiseIf b n a).pending = s.pending := by
  unfold State.raiseIf; split_ifs <;> simp
@[simp] theorem State.raiseIf_free (s : State) (b : Bool) (n a : Nat) : (s.raiseIf b n a).free = s.free := by
  unfold State.raiseIf; split_ifs <;> simp
@[simp] theorem State.raiseIf_grade (s : State) (b : Bool) (n a : Nat) : (s.raiseIf b n a).grade = s.grade := by
  unfold State.raiseIf; split_ifs <;> simp
@[simp] theorem State.raiseIf_time (s : State) (b : Bool) (n a : Nat) : (s.raiseIf b n a).time = s.time := by
  unfold State.raiseIf; split_ifs <;> simp
@[simp] theorem State.raiseIf_topo (s : State) (b : Bool) (n a : Nat) : (s.raiseIf b n a).topo = s.topo := by
  unfold State.raiseIf; split_ifs <;> simp
@[simp] theorem State.raiseIf_cfg (s : State) (b : Bool) (n a : Nat) : (s.raiseIf b n a).cfg = s.cfg := by
  unfold State.raiseIf; split_ifs <;> simp
@[simp] theorem State.raiseIf_boot (s : State) (b : Bool) (n a : Nat) : (s.raiseIf b n a).boot = s.boot := by
  unfold State.raiseIf; split_ifs <;> simp
@[simp] theorem State.raiseIf_fault (s : State) (b : Bool) (n a : Nat) : (s.raiseIf b n a).fault = s.fault := by
  unfold State.raiseIf; split_ifs <;> simp
@[simp] theorem State.raiseIf_pins (s : State) (b : Bool) (n a : Nat) : (s.raiseIf b n a).pins = s.pins := by
  unfold State.raiseIf; split_ifs <;> simp
@[simp] theorem State.raiseIf_trust (s : State) (b : Bool) (n a : Nat) : (s.raiseIf b n a).trust = s.trust := by
  unfold State.raiseIf; split_ifs <;> simp
@[simp] theorem State.raiseIf_upd (s : State) (b : Bool) (n a : Nat) : (s.raiseIf b n a).upd = s.upd := by
  unfold State.raiseIf; split_ifs <;> simp
@[simp] theorem State.raiseIf_cable (s : State) (b : Bool) (n a : Nat) : (s.raiseIf b n a).cable = s.cable := by
  unfold State.raiseIf; split_ifs <;> simp
@[simp] theorem State.raiseIf_sw (s : State) (b : Bool) (n a : Nat) : (s.raiseIf b n a).sw = s.sw := by
  unfold State.raiseIf; split_ifs <;> simp
@[simp] theorem State.raiseIf_plan (s : State) (b : Bool) (n a : Nat) : (s.raiseIf b n a).plan = s.plan := by
  unfold State.raiseIf; split_ifs <;> simp
@[simp] theorem State.raiseIf_disp (s : State) (b : Bool) (n a : Nat) : (s.raiseIf b n a).disp = s.disp := by
  unfold State.raiseIf; split_ifs <;> simp
@[simp] theorem State.raiseIf_pcie (s : State) (b : Bool) (n a : Nat) : (s.raiseIf b n a).pcie = s.pcie := by
  unfold State.raiseIf; split_ifs <;> simp
@[simp] theorem State.raiseIf_usb (s : State) (b : Bool) (n a : Nat) : (s.raiseIf b n a).usb = s.usb := by
  unfold State.raiseIf; split_ifs <;> simp
@[simp] theorem State.raiseIf_net (s : State) (b : Bool) (n a : Nat) : (s.raiseIf b n a).net = s.net := by
  unfold State.raiseIf; split_ifs <;> simp
@[simp] theorem State.raiseIf_sb (s : State) (b : Bool) (n a : Nat) : (s.raiseIf b n a).sb = s.sb := by
  unfold State.raiseIf; split_ifs <;> simp
@[simp] theorem State.raiseIf_mem (s : State) (b : Bool) (n a : Nat) : (s.raiseIf b n a).mem = s.mem := by
  unfold State.raiseIf; split_ifs <;> simp
@[simp] theorem State.raiseIf_cc (s : State) (b : Bool) (n a : Nat) : (s.raiseIf b n a).cc = s.cc := by
  unfold State.raiseIf; split_ifs <;> simp
@[simp] theorem State.raiseIf_ppath (s : State) (b : Bool) (n a : Nat) : (s.raiseIf b n a).ppath = s.ppath := by
  unfold State.raiseIf; split_ifs <;> simp
@[simp] theorem State.raiseIf_pwr (s : State) (b : Bool) (n a : Nat) : (s.raiseIf b n a).pwr = s.pwr := by
  unfold State.raiseIf; split_ifs <;> simp
@[simp] theorem State.raiseIf_out (s : State) (b : Bool) (n a : Nat) : (s.raiseIf b n a).out = s.out := by
  unfold State.raiseIf; split_ifs <;> simp

@[simp] theorem State.setChan_pending (s : State) (c : Chan) (x : ChanSt) : (s.setChan c x).pending = s.pending := by
  cases c <;> rfl
@[simp] theorem State.setChan_free (s : State) (c : Chan) (x : ChanSt) : (s.setChan c x).free = s.free := by
  cases c <;> rfl
@[simp] theorem State.setChan_grade (s : State) (c : Chan) (x : ChanSt) : (s.setChan c x).grade = s.grade := by
  cases c <;> rfl
@[simp] theorem State.setChan_time (s : State) (c : Chan) (x : ChanSt) : (s.setChan c x).time = s.time := by
  cases c <;> rfl
@[simp] theorem State.setChan_topo (s : State) (c : Chan) (x : ChanSt) : (s.setChan c x).topo = s.topo := by
  cases c <;> rfl
@[simp] theorem State.setChan_cfg (s : State) (c : Chan) (x : ChanSt) : (s.setChan c x).cfg = s.cfg := by
  cases c <;> rfl
@[simp] theorem State.setChan_boot (s : State) (c : Chan) (x : ChanSt) : (s.setChan c x).boot = s.boot := by
  cases c <;> rfl
@[simp] theorem State.setChan_fault (s : State) (c : Chan) (x : ChanSt) : (s.setChan c x).fault = s.fault := by
  cases c <;> rfl
@[simp] theorem State.setChan_pins (s : State) (c : Chan) (x : ChanSt) : (s.setChan c x).pins = s.pins := by
  cases c <;> rfl
@[simp] theorem State.setChan_rcd (s : State) (c : Chan) (x : ChanSt) : (s.setChan c x).rcd = s.rcd := by
  cases c <;> rfl
@[simp] theorem State.setChan_trust (s : State) (c : Chan) (x : ChanSt) : (s.setChan c x).trust = s.trust := by
  cases c <;> rfl
@[simp] theorem State.setChan_upd (s : State) (c : Chan) (x : ChanSt) : (s.setChan c x).upd = s.upd := by
  cases c <;> rfl
@[simp] theorem State.setChan_cable (s : State) (c : Chan) (x : ChanSt) : (s.setChan c x).cable = s.cable := by
  cases c <;> rfl
@[simp] theorem State.setChan_sw (s : State) (c : Chan) (x : ChanSt) : (s.setChan c x).sw = s.sw := by
  cases c <;> rfl
@[simp] theorem State.setChan_plan (s : State) (c : Chan) (x : ChanSt) : (s.setChan c x).plan = s.plan := by
  cases c <;> rfl
@[simp] theorem State.setChan_disp (s : State) (c : Chan) (x : ChanSt) : (s.setChan c x).disp = s.disp := by
  cases c <;> rfl
@[simp] theorem State.setChan_pcie (s : State) (c : Chan) (x : ChanSt) : (s.setChan c x).pcie = s.pcie := by
  cases c <;> rfl
@[simp] theorem State.setChan_usb (s : State) (c : Chan) (x : ChanSt) : (s.setChan c x).usb = s.usb := by
  cases c <;> rfl
@[simp] theorem State.setChan_net (s : State) (c : Chan) (x : ChanSt) : (s.setChan c x).net = s.net := by
  cases c <;> rfl
@[simp] theorem State.setChan_sb (s : State) (c : Chan) (x : ChanSt) : (s.setChan c x).sb = s.sb := by
  cases c <;> rfl
@[simp] theorem State.setChan_mem (s : State) (c : Chan) (x : ChanSt) : (s.setChan c x).mem = s.mem := by
  cases c <;> rfl
@[simp] theorem State.setChan_svc (s : State) (c : Chan) (x : ChanSt) : (s.setChan c x).svc = s.svc := by
  cases c <;> rfl
@[simp] theorem State.setChan_cc (s : State) (c : Chan) (x : ChanSt) : (s.setChan c x).cc = s.cc := by
  cases c <;> rfl
@[simp] theorem State.setChan_ppath (s : State) (c : Chan) (x : ChanSt) : (s.setChan c x).ppath = s.ppath := by
  cases c <;> rfl
@[simp] theorem State.setChan_pwr (s : State) (c : Chan) (x : ChanSt) : (s.setChan c x).pwr = s.pwr := by
  cases c <;> rfl
@[simp] theorem State.setChan_out (s : State) (c : Chan) (x : ChanSt) : (s.setChan c x).out = s.out := by
  cases c <;> rfl

@[simp] theorem State.modChan_pending (s : State) (c : Chan) (f : ChanSt → ChanSt) : (s.modChan c f).pending = s.pending := by
  cases c <;> rfl
@[simp] theorem State.modChan_free (s : State) (c : Chan) (f : ChanSt → ChanSt) : (s.modChan c f).free = s.free := by
  cases c <;> rfl
@[simp] theorem State.modChan_grade (s : State) (c : Chan) (f : ChanSt → ChanSt) : (s.modChan c f).grade = s.grade := by
  cases c <;> rfl
@[simp] theorem State.modChan_time (s : State) (c : Chan) (f : ChanSt → ChanSt) : (s.modChan c f).time = s.time := by
  cases c <;> rfl
@[simp] theorem State.modChan_topo (s : State) (c : Chan) (f : ChanSt → ChanSt) : (s.modChan c f).topo = s.topo := by
  cases c <;> rfl
@[simp] theorem State.modChan_cfg (s : State) (c : Chan) (f : ChanSt → ChanSt) : (s.modChan c f).cfg = s.cfg := by
  cases c <;> rfl
@[simp] theorem State.modChan_boot (s : State) (c : Chan) (f : ChanSt → ChanSt) : (s.modChan c f).boot = s.boot := by
  cases c <;> rfl
@[simp] theorem State.modChan_fault (s : State) (c : Chan) (f : ChanSt → ChanSt) : (s.modChan c f).fault = s.fault := by
  cases c <;> rfl
@[simp] theorem State.modChan_pins (s : State) (c : Chan) (f : ChanSt → ChanSt) : (s.modChan c f).pins = s.pins := by
  cases c <;> rfl
@[simp] theorem State.modChan_rcd (s : State) (c : Chan) (f : ChanSt → ChanSt) : (s.modChan c f).rcd = s.rcd := by
  cases c <;> rfl
@[simp] theorem State.modChan_trust (s : State) (c : Chan) (f : ChanSt → ChanSt) : (s.modChan c f).trust = s.trust := by
  cases c <;> rfl
@[simp] theorem State.modChan_upd (s : State) (c : Chan) (f : ChanSt → ChanSt) : (s.modChan c f).upd = s.upd := by
  cases c <;> rfl
@[simp] theorem State.modChan_cable (s : State) (c : Chan) (f : ChanSt → ChanSt) : (s.modChan c f).cable = s.cable := by
  cases c <;> rfl
@[simp] theorem State.modChan_sw (s : State) (c : Chan) (f : ChanSt → ChanSt) : (s.modChan c f).sw = s.sw := by
  cases c <;> rfl
@[simp] theorem State.modChan_plan (s : State) (c : Chan) (f : ChanSt → ChanSt) : (s.modChan c f).plan = s.plan := by
  cases c <;> rfl
@[simp] theorem State.modChan_disp (s : State) (c : Chan) (f : ChanSt → ChanSt) : (s.modChan c f).disp = s.disp := by
  cases c <;> rfl
@[simp] theorem State.modChan_pcie (s : State) (c : Chan) (f : ChanSt → ChanSt) : (s.modChan c f).pcie = s.pcie := by
  cases c <;> rfl
@[simp] theorem State.modChan_usb (s : State) (c : Chan) (f : ChanSt → ChanSt) : (s.modChan c f).usb = s.usb := by
  cases c <;> rfl
@[simp] theorem State.modChan_net (s : State) (c : Chan) (f : ChanSt → ChanSt) : (s.modChan c f).net = s.net := by
  cases c <;> rfl
@[simp] theorem State.modChan_sb (s : State) (c : Chan) (f : ChanSt → ChanSt) : (s.modChan c f).sb = s.sb := by
  cases c <;> rfl
@[simp] theorem State.modChan_mem (s : State) (c : Chan) (f : ChanSt → ChanSt) : (s.modChan c f).mem = s.mem := by
  cases c <;> rfl
@[simp] theorem State.modChan_svc (s : State) (c : Chan) (f : ChanSt → ChanSt) : (s.modChan c f).svc = s.svc := by
  cases c <;> rfl
@[simp] theorem State.modChan_cc (s : State) (c : Chan) (f : ChanSt → ChanSt) : (s.modChan c f).cc = s.cc := by
  cases c <;> rfl
@[simp] theorem State.modChan_ppath (s : State) (c : Chan) (f : ChanSt → ChanSt) : (s.modChan c f).ppath = s.ppath := by
  cases c <;> rfl
@[simp] theorem State.modChan_pwr (s : State) (c : Chan) (f : ChanSt → ChanSt) : (s.modChan c f).pwr = s.pwr := by
  cases c <;> rfl
@[simp] theorem State.modChan_out (s : State) (c : Chan) (f : ChanSt → ChanSt) : (s.modChan c f).out = s.out := by
  cases c <;> rfl

@[simp] theorem State.raiseOn_pending (s : State) (c : Chan) (n a : Nat) : (s.raiseOn c n a).pending = s.pending := by
  unfold State.raiseOn; simp
@[simp] theorem State.raiseOn_free (s : State) (c : Chan) (n a : Nat) : (s.raiseOn c n a).free = s.free := by
  unfold State.raiseOn; simp
@[simp] theorem State.raiseOn_grade (s : State) (c : Chan) (n a : Nat) : (s.raiseOn c n a).grade = s.grade := by
  unfold State.raiseOn; simp
@[simp] theorem State.raiseOn_time (s : State) (c : Chan) (n a : Nat) : (s.raiseOn c n a).time = s.time := by
  unfold State.raiseOn; simp
@[simp] theorem State.raiseOn_topo (s : State) (c : Chan) (n a : Nat) : (s.raiseOn c n a).topo = s.topo := by
  unfold State.raiseOn; simp
@[simp] theorem State.raiseOn_cfg (s : State) (c : Chan) (n a : Nat) : (s.raiseOn c n a).cfg = s.cfg := by
  unfold State.raiseOn; simp
@[simp] theorem State.raiseOn_boot (s : State) (c : Chan) (n a : Nat) : (s.raiseOn c n a).boot = s.boot := by
  unfold State.raiseOn; simp
@[simp] theorem State.raiseOn_fault (s : State) (c : Chan) (n a : Nat) : (s.raiseOn c n a).fault = s.fault := by
  unfold State.raiseOn; simp
@[simp] theorem State.raiseOn_pins (s : State) (c : Chan) (n a : Nat) : (s.raiseOn c n a).pins = s.pins := by
  unfold State.raiseOn; simp
@[simp] theorem State.raiseOn_trust (s : State) (c : Chan) (n a : Nat) : (s.raiseOn c n a).trust = s.trust := by
  unfold State.raiseOn; simp
@[simp] theorem State.raiseOn_upd (s : State) (c : Chan) (n a : Nat) : (s.raiseOn c n a).upd = s.upd := by
  unfold State.raiseOn; simp
@[simp] theorem State.raiseOn_cable (s : State) (c : Chan) (n a : Nat) : (s.raiseOn c n a).cable = s.cable := by
  unfold State.raiseOn; simp
@[simp] theorem State.raiseOn_sw (s : State) (c : Chan) (n a : Nat) : (s.raiseOn c n a).sw = s.sw := by
  unfold State.raiseOn; simp
@[simp] theorem State.raiseOn_plan (s : State) (c : Chan) (n a : Nat) : (s.raiseOn c n a).plan = s.plan := by
  unfold State.raiseOn; simp
@[simp] theorem State.raiseOn_disp (s : State) (c : Chan) (n a : Nat) : (s.raiseOn c n a).disp = s.disp := by
  unfold State.raiseOn; simp
@[simp] theorem State.raiseOn_pcie (s : State) (c : Chan) (n a : Nat) : (s.raiseOn c n a).pcie = s.pcie := by
  unfold State.raiseOn; simp
@[simp] theorem State.raiseOn_usb (s : State) (c : Chan) (n a : Nat) : (s.raiseOn c n a).usb = s.usb := by
  unfold State.raiseOn; simp
@[simp] theorem State.raiseOn_net (s : State) (c : Chan) (n a : Nat) : (s.raiseOn c n a).net = s.net := by
  unfold State.raiseOn; simp
@[simp] theorem State.raiseOn_sb (s : State) (c : Chan) (n a : Nat) : (s.raiseOn c n a).sb = s.sb := by
  unfold State.raiseOn; simp
@[simp] theorem State.raiseOn_mem (s : State) (c : Chan) (n a : Nat) : (s.raiseOn c n a).mem = s.mem := by
  unfold State.raiseOn; simp
@[simp] theorem State.raiseOn_svc (s : State) (c : Chan) (n a : Nat) : (s.raiseOn c n a).svc = s.svc := by
  unfold State.raiseOn; simp
@[simp] theorem State.raiseOn_cc (s : State) (c : Chan) (n a : Nat) : (s.raiseOn c n a).cc = s.cc := by
  unfold State.raiseOn; simp
@[simp] theorem State.raiseOn_ppath (s : State) (c : Chan) (n a : Nat) : (s.raiseOn c n a).ppath = s.ppath := by
  unfold State.raiseOn; simp
@[simp] theorem State.raiseOn_pwr (s : State) (c : Chan) (n a : Nat) : (s.raiseOn c n a).pwr = s.pwr := by
  unfold State.raiseOn; simp
@[simp] theorem State.raiseOn_out (s : State) (c : Chan) (n a : Nat) : (s.raiseOn c n a).out = s.out := by
  unfold State.raiseOn; simp

@[simp] theorem State.countLocal_pending (s : State) (v : Via) : (s.countLocal v).pending = s.pending := by
  unfold State.countLocal; dsimp only; split_ifs <;> simp
@[simp] theorem State.countLocal_free (s : State) (v : Via) : (s.countLocal v).free = s.free := by
  unfold State.countLocal; dsimp only; split_ifs <;> simp
@[simp] theorem State.countLocal_grade (s : State) (v : Via) : (s.countLocal v).grade = s.grade := by
  unfold State.countLocal; dsimp only; split_ifs <;> simp
@[simp] theorem State.countLocal_time (s : State) (v : Via) : (s.countLocal v).time = s.time := by
  unfold State.countLocal; dsimp only; split_ifs <;> simp
@[simp] theorem State.countLocal_topo (s : State) (v : Via) : (s.countLocal v).topo = s.topo := by
  unfold State.countLocal; dsimp only; split_ifs <;> simp
@[simp] theorem State.countLocal_cfg (s : State) (v : Via) : (s.countLocal v).cfg = s.cfg := by
  unfold State.countLocal; dsimp only; split_ifs <;> simp
@[simp] theorem State.countLocal_boot (s : State) (v : Via) : (s.countLocal v).boot = s.boot := by
  unfold State.countLocal; dsimp only; split_ifs <;> simp
@[simp] theorem State.countLocal_fault (s : State) (v : Via) : (s.countLocal v).fault = s.fault := by
  unfold State.countLocal; dsimp only; split_ifs <;> simp
@[simp] theorem State.countLocal_pins (s : State) (v : Via) : (s.countLocal v).pins = s.pins := by
  unfold State.countLocal; dsimp only; split_ifs <;> simp
@[simp] theorem State.countLocal_trust (s : State) (v : Via) : (s.countLocal v).trust = s.trust := by
  unfold State.countLocal; dsimp only; split_ifs <;> simp
@[simp] theorem State.countLocal_upd (s : State) (v : Via) : (s.countLocal v).upd = s.upd := by
  unfold State.countLocal; dsimp only; split_ifs <;> simp
@[simp] theorem State.countLocal_cable (s : State) (v : Via) : (s.countLocal v).cable = s.cable := by
  unfold State.countLocal; dsimp only; split_ifs <;> simp
@[simp] theorem State.countLocal_sw (s : State) (v : Via) : (s.countLocal v).sw = s.sw := by
  unfold State.countLocal; dsimp only; split_ifs <;> simp
@[simp] theorem State.countLocal_plan (s : State) (v : Via) : (s.countLocal v).plan = s.plan := by
  unfold State.countLocal; dsimp only; split_ifs <;> simp
@[simp] theorem State.countLocal_disp (s : State) (v : Via) : (s.countLocal v).disp = s.disp := by
  unfold State.countLocal; dsimp only; split_ifs <;> simp
@[simp] theorem State.countLocal_pcie (s : State) (v : Via) : (s.countLocal v).pcie = s.pcie := by
  unfold State.countLocal; dsimp only; split_ifs <;> simp
@[simp] theorem State.countLocal_usb (s : State) (v : Via) : (s.countLocal v).usb = s.usb := by
  unfold State.countLocal; dsimp only; split_ifs <;> simp
@[simp] theorem State.countLocal_net (s : State) (v : Via) : (s.countLocal v).net = s.net := by
  unfold State.countLocal; dsimp only; split_ifs <;> simp
@[simp] theorem State.countLocal_sb (s : State) (v : Via) : (s.countLocal v).sb = s.sb := by
  unfold State.countLocal; dsimp only; split_ifs <;> simp
@[simp] theorem State.countLocal_mem (s : State) (v : Via) : (s.countLocal v).mem = s.mem := by
  unfold State.countLocal; dsimp only; split_ifs <;> simp
@[simp] theorem State.countLocal_cc (s : State) (v : Via) : (s.countLocal v).cc = s.cc := by
  unfold State.countLocal; dsimp only; split_ifs <;> simp
@[simp] theorem State.countLocal_ppath (s : State) (v : Via) : (s.countLocal v).ppath = s.ppath := by
  unfold State.countLocal; dsimp only; split_ifs <;> simp
@[simp] theorem State.countLocal_pwr (s : State) (v : Via) : (s.countLocal v).pwr = s.pwr := by
  unfold State.countLocal; dsimp only; split_ifs <;> simp
@[simp] theorem State.countLocal_out (s : State) (v : Via) : (s.countLocal v).out = s.out := by
  unfold State.countLocal; dsimp only; split_ifs <;> simp

@[simp] theorem State.peerSend_pending (s : State) (p : Nat) (b : List Byte) : (s.peerSend p b).pending = s.pending := rfl
@[simp] theorem State.peerSend_free (s : State) (p : Nat) (b : List Byte) : (s.peerSend p b).free = s.free := rfl
@[simp] theorem State.peerSend_grade (s : State) (p : Nat) (b : List Byte) : (s.peerSend p b).grade = s.grade := rfl
@[simp] theorem State.peerSend_time (s : State) (p : Nat) (b : List Byte) : (s.peerSend p b).time = s.time := rfl
@[simp] theorem State.peerSend_topo (s : State) (p : Nat) (b : List Byte) : (s.peerSend p b).topo = s.topo := rfl
@[simp] theorem State.peerSend_mbx (s : State) (p : Nat) (b : List Byte) : (s.peerSend p b).mbx = s.mbx := rfl
@[simp] theorem State.peerSend_cfg (s : State) (p : Nat) (b : List Byte) : (s.peerSend p b).cfg = s.cfg := rfl
@[simp] theorem State.peerSend_boot (s : State) (p : Nat) (b : List Byte) : (s.peerSend p b).boot = s.boot := rfl
@[simp] theorem State.peerSend_fault (s : State) (p : Nat) (b : List Byte) : (s.peerSend p b).fault = s.fault := rfl
@[simp] theorem State.peerSend_pins (s : State) (p : Nat) (b : List Byte) : (s.peerSend p b).pins = s.pins := rfl
@[simp] theorem State.peerSend_rcd (s : State) (p : Nat) (b : List Byte) : (s.peerSend p b).rcd = s.rcd := rfl
@[simp] theorem State.peerSend_trust (s : State) (p : Nat) (b : List Byte) : (s.peerSend p b).trust = s.trust := rfl
@[simp] theorem State.peerSend_upd (s : State) (p : Nat) (b : List Byte) : (s.peerSend p b).upd = s.upd := rfl
@[simp] theorem State.peerSend_sw (s : State) (p : Nat) (b : List Byte) : (s.peerSend p b).sw = s.sw := rfl
@[simp] theorem State.peerSend_plan (s : State) (p : Nat) (b : List Byte) : (s.peerSend p b).plan = s.plan := rfl
@[simp] theorem State.peerSend_disp (s : State) (p : Nat) (b : List Byte) : (s.peerSend p b).disp = s.disp := rfl
@[simp] theorem State.peerSend_pcie (s : State) (p : Nat) (b : List Byte) : (s.peerSend p b).pcie = s.pcie := rfl
@[simp] theorem State.peerSend_usb (s : State) (p : Nat) (b : List Byte) : (s.peerSend p b).usb = s.usb := rfl
@[simp] theorem State.peerSend_net (s : State) (p : Nat) (b : List Byte) : (s.peerSend p b).net = s.net := rfl
@[simp] theorem State.peerSend_sb (s : State) (p : Nat) (b : List Byte) : (s.peerSend p b).sb = s.sb := rfl
@[simp] theorem State.peerSend_mem (s : State) (p : Nat) (b : List Byte) : (s.peerSend p b).mem = s.mem := rfl
@[simp] theorem State.peerSend_svc (s : State) (p : Nat) (b : List Byte) : (s.peerSend p b).svc = s.svc := rfl
@[simp] theorem State.peerSend_cc (s : State) (p : Nat) (b : List Byte) : (s.peerSend p b).cc = s.cc := rfl
@[simp] theorem State.peerSend_ppath (s : State) (p : Nat) (b : List Byte) : (s.peerSend p b).ppath = s.ppath := rfl
@[simp] theorem State.peerSend_pwr (s : State) (p : Nat) (b : List Byte) : (s.peerSend p b).pwr = s.pwr := rfl
@[simp] theorem State.peerSend_out (s : State) (p : Nat) (b : List Byte) : (s.peerSend p b).out = s.out := rfl

@[simp] theorem State.usbReady_pending (s : State) (k : List Nat) : (s.usbReady k).pending = s.pending := by
  unfold State.usbReady; exact (foldl_same _ (fun t : State => t.pending) (fun _ _ => by simp) _ _).trans rfl
@[simp] theorem State.usbReady_free (s : State) (k : List Nat) : (s.usbReady k).free = s.free := by
  unfold State.usbReady; exact (foldl_same _ (fun t : State => t.free) (fun _ _ => by simp) _ _).trans rfl
@[simp] theorem State.usbReady_grade (s : State) (k : List Nat) : (s.usbReady k).grade = s.grade := by
  unfold State.usbReady; exact (foldl_same _ (fun t : State => t.grade) (fun _ _ => by simp) _ _).trans rfl
@[simp] theorem State.usbReady_time (s : State) (k : List Nat) : (s.usbReady k).time = s.time := by
  unfold State.usbReady; exact (foldl_same _ (fun t : State => t.time) (fun _ _ => by simp) _ _).trans rfl
@[simp] theorem State.usbReady_topo (s : State) (k : List Nat) : (s.usbReady k).topo = s.topo := by
  unfold State.usbReady; exact (foldl_same _ (fun t : State => t.topo) (fun _ _ => by simp) _ _).trans rfl
@[simp] theorem State.usbReady_cfg (s : State) (k : List Nat) : (s.usbReady k).cfg = s.cfg := by
  unfold State.usbReady; exact (foldl_same _ (fun t : State => t.cfg) (fun _ _ => by simp) _ _).trans rfl
@[simp] theorem State.usbReady_boot (s : State) (k : List Nat) : (s.usbReady k).boot = s.boot := by
  unfold State.usbReady; exact (foldl_same _ (fun t : State => t.boot) (fun _ _ => by simp) _ _).trans rfl
@[simp] theorem State.usbReady_fault (s : State) (k : List Nat) : (s.usbReady k).fault = s.fault := by
  unfold State.usbReady; exact (foldl_same _ (fun t : State => t.fault) (fun _ _ => by simp) _ _).trans rfl
@[simp] theorem State.usbReady_pins (s : State) (k : List Nat) : (s.usbReady k).pins = s.pins := by
  unfold State.usbReady; exact (foldl_same _ (fun t : State => t.pins) (fun _ _ => by simp) _ _).trans rfl
@[simp] theorem State.usbReady_rcd (s : State) (k : List Nat) : (s.usbReady k).rcd = s.rcd := by
  unfold State.usbReady; exact (foldl_same _ (fun t : State => t.rcd) (fun _ _ => by simp) _ _).trans rfl
@[simp] theorem State.usbReady_trust (s : State) (k : List Nat) : (s.usbReady k).trust = s.trust := by
  unfold State.usbReady; exact (foldl_same _ (fun t : State => t.trust) (fun _ _ => by simp) _ _).trans rfl
@[simp] theorem State.usbReady_upd (s : State) (k : List Nat) : (s.usbReady k).upd = s.upd := by
  unfold State.usbReady; exact (foldl_same _ (fun t : State => t.upd) (fun _ _ => by simp) _ _).trans rfl
@[simp] theorem State.usbReady_cable (s : State) (k : List Nat) : (s.usbReady k).cable = s.cable := by
  unfold State.usbReady; exact (foldl_same _ (fun t : State => t.cable) (fun _ _ => by simp) _ _).trans rfl
@[simp] theorem State.usbReady_sw (s : State) (k : List Nat) : (s.usbReady k).sw = s.sw := by
  unfold State.usbReady; exact (foldl_same _ (fun t : State => t.sw) (fun _ _ => by simp) _ _).trans rfl
@[simp] theorem State.usbReady_plan (s : State) (k : List Nat) : (s.usbReady k).plan = s.plan := by
  unfold State.usbReady; exact (foldl_same _ (fun t : State => t.plan) (fun _ _ => by simp) _ _).trans rfl
@[simp] theorem State.usbReady_disp (s : State) (k : List Nat) : (s.usbReady k).disp = s.disp := by
  unfold State.usbReady; exact (foldl_same _ (fun t : State => t.disp) (fun _ _ => by simp) _ _).trans rfl
@[simp] theorem State.usbReady_pcie (s : State) (k : List Nat) : (s.usbReady k).pcie = s.pcie := by
  unfold State.usbReady; exact (foldl_same _ (fun t : State => t.pcie) (fun _ _ => by simp) _ _).trans rfl
@[simp] theorem State.usbReady_usb (s : State) (k : List Nat) : (s.usbReady k).usb = s.usb := by
  unfold State.usbReady; exact (foldl_same _ (fun t : State => t.usb) (fun _ _ => by simp) _ _).trans rfl
@[simp] theorem State.usbReady_net (s : State) (k : List Nat) : (s.usbReady k).net = s.net := by
  unfold State.usbReady; exact (foldl_same _ (fun t : State => t.net) (fun _ _ => by simp) _ _).trans rfl
@[simp] theorem State.usbReady_sb (s : State) (k : List Nat) : (s.usbReady k).sb = s.sb := by
  unfold State.usbReady; exact (foldl_same _ (fun t : State => t.sb) (fun _ _ => by simp) _ _).trans rfl
@[simp] theorem State.usbReady_mem (s : State) (k : List Nat) : (s.usbReady k).mem = s.mem := by
  unfold State.usbReady; exact (foldl_same _ (fun t : State => t.mem) (fun _ _ => by simp) _ _).trans rfl
@[simp] theorem State.usbReady_svc (s : State) (k : List Nat) : (s.usbReady k).svc = s.svc := by
  unfold State.usbReady; exact (foldl_same _ (fun t : State => t.svc) (fun _ _ => by simp) _ _).trans rfl
@[simp] theorem State.usbReady_cc (s : State) (k : List Nat) : (s.usbReady k).cc = s.cc := by
  unfold State.usbReady; exact (foldl_same _ (fun t : State => t.cc) (fun _ _ => by simp) _ _).trans rfl
@[simp] theorem State.usbReady_ppath (s : State) (k : List Nat) : (s.usbReady k).ppath = s.ppath := by
  unfold State.usbReady; exact (foldl_same _ (fun t : State => t.ppath) (fun _ _ => by simp) _ _).trans rfl
@[simp] theorem State.usbReady_pwr (s : State) (k : List Nat) : (s.usbReady k).pwr = s.pwr := by
  unfold State.usbReady; exact (foldl_same _ (fun t : State => t.pwr) (fun _ _ => by simp) _ _).trans rfl

@[simp] theorem State.cryptoSpore_pending (s : State) (b : Bool) (k : Nat) (p : List Byte) : (s.cryptoSpore b k p).pending = s.pending := by
  simp [State.cryptoSpore]
@[simp] theorem State.cryptoSpore_free (s : State) (b : Bool) (k : Nat) (p : List Byte) : (s.cryptoSpore b k p).free = s.free := by
  simp [State.cryptoSpore]
@[simp] theorem State.cryptoSpore_grade (s : State) (b : Bool) (k : Nat) (p : List Byte) : (s.cryptoSpore b k p).grade = s.grade := by
  simp [State.cryptoSpore]
@[simp] theorem State.cryptoSpore_time (s : State) (b : Bool) (k : Nat) (p : List Byte) : (s.cryptoSpore b k p).time = s.time := by
  simp [State.cryptoSpore]
@[simp] theorem State.cryptoSpore_topo (s : State) (b : Bool) (k : Nat) (p : List Byte) : (s.cryptoSpore b k p).topo = s.topo := by
  simp [State.cryptoSpore]
@[simp] theorem State.cryptoSpore_mbx (s : State) (b : Bool) (k : Nat) (p : List Byte) : (s.cryptoSpore b k p).mbx = s.mbx := by
  simp [State.cryptoSpore]
@[simp] theorem State.cryptoSpore_cfg (s : State) (b : Bool) (k : Nat) (p : List Byte) : (s.cryptoSpore b k p).cfg = s.cfg := by
  simp [State.cryptoSpore]
@[simp] theorem State.cryptoSpore_boot (s : State) (b : Bool) (k : Nat) (p : List Byte) : (s.cryptoSpore b k p).boot = s.boot := by
  simp [State.cryptoSpore]
@[simp] theorem State.cryptoSpore_fault (s : State) (b : Bool) (k : Nat) (p : List Byte) : (s.cryptoSpore b k p).fault = s.fault := by
  simp [State.cryptoSpore]
@[simp] theorem State.cryptoSpore_pins (s : State) (b : Bool) (k : Nat) (p : List Byte) : (s.cryptoSpore b k p).pins = s.pins := by
  simp [State.cryptoSpore]
@[simp] theorem State.cryptoSpore_trust (s : State) (b : Bool) (k : Nat) (p : List Byte) : (s.cryptoSpore b k p).trust = s.trust := by
  simp [State.cryptoSpore]
@[simp] theorem State.cryptoSpore_upd (s : State) (b : Bool) (k : Nat) (p : List Byte) : (s.cryptoSpore b k p).upd = s.upd := by
  simp [State.cryptoSpore]
@[simp] theorem State.cryptoSpore_cable (s : State) (b : Bool) (k : Nat) (p : List Byte) : (s.cryptoSpore b k p).cable = s.cable := by
  simp [State.cryptoSpore]
@[simp] theorem State.cryptoSpore_sw (s : State) (b : Bool) (k : Nat) (p : List Byte) : (s.cryptoSpore b k p).sw = s.sw := by
  simp [State.cryptoSpore]
@[simp] theorem State.cryptoSpore_plan (s : State) (b : Bool) (k : Nat) (p : List Byte) : (s.cryptoSpore b k p).plan = s.plan := by
  simp [State.cryptoSpore]
@[simp] theorem State.cryptoSpore_disp (s : State) (b : Bool) (k : Nat) (p : List Byte) : (s.cryptoSpore b k p).disp = s.disp := by
  simp [State.cryptoSpore]
@[simp] theorem State.cryptoSpore_pcie (s : State) (b : Bool) (k : Nat) (p : List Byte) : (s.cryptoSpore b k p).pcie = s.pcie := by
  simp [State.cryptoSpore]
@[simp] theorem State.cryptoSpore_usb (s : State) (b : Bool) (k : Nat) (p : List Byte) : (s.cryptoSpore b k p).usb = s.usb := by
  simp [State.cryptoSpore]
@[simp] theorem State.cryptoSpore_net (s : State) (b : Bool) (k : Nat) (p : List Byte) : (s.cryptoSpore b k p).net = s.net := by
  simp [State.cryptoSpore]
@[simp] theorem State.cryptoSpore_sb (s : State) (b : Bool) (k : Nat) (p : List Byte) : (s.cryptoSpore b k p).sb = s.sb := by
  simp [State.cryptoSpore]
@[simp] theorem State.cryptoSpore_mem (s : State) (b : Bool) (k : Nat) (p : List Byte) : (s.cryptoSpore b k p).mem = s.mem := by
  simp [State.cryptoSpore]
@[simp] theorem State.cryptoSpore_svc (s : State) (b : Bool) (k : Nat) (p : List Byte) : (s.cryptoSpore b k p).svc = s.svc := by
  simp [State.cryptoSpore]
@[simp] theorem State.cryptoSpore_cc (s : State) (b : Bool) (k : Nat) (p : List Byte) : (s.cryptoSpore b k p).cc = s.cc := by
  simp [State.cryptoSpore]
@[simp] theorem State.cryptoSpore_ppath (s : State) (b : Bool) (k : Nat) (p : List Byte) : (s.cryptoSpore b k p).ppath = s.ppath := by
  simp [State.cryptoSpore]
@[simp] theorem State.cryptoSpore_pwr (s : State) (b : Bool) (k : Nat) (p : List Byte) : (s.cryptoSpore b k p).pwr = s.pwr := by
  simp [State.cryptoSpore]
@[simp] theorem State.cryptoSpore_out (s : State) (b : Bool) (k : Nat) (p : List Byte) : (s.cryptoSpore b k p).out = s.out := by
  simp [State.cryptoSpore]

@[simp] theorem State.holdReply_pending (s : State) (v : Via) (r : Reply) : (s.holdReply v r).pending = s.pending := by
  cases v <;> simp only [State.holdReply] <;> (try split_ifs) <;> simp
@[simp] theorem State.holdReply_free (s : State) (v : Via) (r : Reply) : (s.holdReply v r).free = s.free := by
  cases v <;> simp only [State.holdReply] <;> (try split_ifs) <;> simp
@[simp] theorem State.holdReply_grade (s : State) (v : Via) (r : Reply) : (s.holdReply v r).grade = s.grade := by
  cases v <;> simp only [State.holdReply] <;> (try split_ifs) <;> simp
@[simp] theorem State.holdReply_time (s : State) (v : Via) (r : Reply) : (s.holdReply v r).time = s.time := by
  cases v <;> simp only [State.holdReply] <;> (try split_ifs) <;> simp
@[simp] theorem State.holdReply_topo (s : State) (v : Via) (r : Reply) : (s.holdReply v r).topo = s.topo := by
  cases v <;> simp only [State.holdReply] <;> (try split_ifs) <;> simp
@[simp] theorem State.holdReply_cfg (s : State) (v : Via) (r : Reply) : (s.holdReply v r).cfg = s.cfg := by
  cases v <;> simp only [State.holdReply] <;> (try split_ifs) <;> simp
@[simp] theorem State.holdReply_boot (s : State) (v : Via) (r : Reply) : (s.holdReply v r).boot = s.boot := by
  cases v <;> simp only [State.holdReply] <;> (try split_ifs) <;> simp
@[simp] theorem State.holdReply_fault (s : State) (v : Via) (r : Reply) : (s.holdReply v r).fault = s.fault := by
  cases v <;> simp only [State.holdReply] <;> (try split_ifs) <;> simp
@[simp] theorem State.holdReply_pins (s : State) (v : Via) (r : Reply) : (s.holdReply v r).pins = s.pins := by
  cases v <;> simp only [State.holdReply] <;> (try split_ifs) <;> simp
@[simp] theorem State.holdReply_rcd (s : State) (v : Via) (r : Reply) : (s.holdReply v r).rcd = s.rcd := by
  cases v <;> simp only [State.holdReply] <;> (try split_ifs) <;> simp
@[simp] theorem State.holdReply_trust (s : State) (v : Via) (r : Reply) : (s.holdReply v r).trust = s.trust := by
  cases v <;> simp only [State.holdReply] <;> (try split_ifs) <;> simp
@[simp] theorem State.holdReply_upd (s : State) (v : Via) (r : Reply) : (s.holdReply v r).upd = s.upd := by
  cases v <;> simp only [State.holdReply] <;> (try split_ifs) <;> simp
@[simp] theorem State.holdReply_sw (s : State) (v : Via) (r : Reply) : (s.holdReply v r).sw = s.sw := by
  cases v <;> simp only [State.holdReply] <;> (try split_ifs) <;> simp
@[simp] theorem State.holdReply_plan (s : State) (v : Via) (r : Reply) : (s.holdReply v r).plan = s.plan := by
  cases v <;> simp only [State.holdReply] <;> (try split_ifs) <;> simp
@[simp] theorem State.holdReply_disp (s : State) (v : Via) (r : Reply) : (s.holdReply v r).disp = s.disp := by
  cases v <;> simp only [State.holdReply] <;> (try split_ifs) <;> simp
@[simp] theorem State.holdReply_pcie (s : State) (v : Via) (r : Reply) : (s.holdReply v r).pcie = s.pcie := by
  cases v <;> simp only [State.holdReply] <;> (try split_ifs) <;> simp
@[simp] theorem State.holdReply_usb (s : State) (v : Via) (r : Reply) : (s.holdReply v r).usb = s.usb := by
  cases v <;> simp only [State.holdReply] <;> (try split_ifs) <;> simp
@[simp] theorem State.holdReply_net (s : State) (v : Via) (r : Reply) : (s.holdReply v r).net = s.net := by
  cases v <;> simp only [State.holdReply] <;> (try split_ifs) <;> simp
@[simp] theorem State.holdReply_sb (s : State) (v : Via) (r : Reply) : (s.holdReply v r).sb = s.sb := by
  cases v <;> simp only [State.holdReply] <;> (try split_ifs) <;> simp
@[simp] theorem State.holdReply_mem (s : State) (v : Via) (r : Reply) : (s.holdReply v r).mem = s.mem := by
  cases v <;> simp only [State.holdReply] <;> (try split_ifs) <;> simp
@[simp] theorem State.holdReply_cc (s : State) (v : Via) (r : Reply) : (s.holdReply v r).cc = s.cc := by
  cases v <;> simp only [State.holdReply] <;> (try split_ifs) <;> simp
@[simp] theorem State.holdReply_ppath (s : State) (v : Via) (r : Reply) : (s.holdReply v r).ppath = s.ppath := by
  cases v <;> simp only [State.holdReply] <;> (try split_ifs) <;> simp
@[simp] theorem State.holdReply_pwr (s : State) (v : Via) (r : Reply) : (s.holdReply v r).pwr = s.pwr := by
  cases v <;> simp only [State.holdReply] <;> (try split_ifs) <;> simp

@[simp] theorem State.reply_pending (s : State) (v : Via) (t : Half) (c h : Nat) (d : List Byte) : ((s.reply v t c h d).2).pending = s.pending := by
  simp [State.reply]
@[simp] theorem State.reply_free (s : State) (v : Via) (t : Half) (c h : Nat) (d : List Byte) : ((s.reply v t c h d).2).free = s.free := by
  simp [State.reply]
@[simp] theorem State.reply_grade (s : State) (v : Via) (t : Half) (c h : Nat) (d : List Byte) : ((s.reply v t c h d).2).grade = s.grade := by
  simp [State.reply]
@[simp] theorem State.reply_time (s : State) (v : Via) (t : Half) (c h : Nat) (d : List Byte) : ((s.reply v t c h d).2).time = s.time := by
  simp [State.reply]
@[simp] theorem State.reply_topo (s : State) (v : Via) (t : Half) (c h : Nat) (d : List Byte) : ((s.reply v t c h d).2).topo = s.topo := by
  simp [State.reply]
@[simp] theorem State.reply_cfg (s : State) (v : Via) (t : Half) (c h : Nat) (d : List Byte) : ((s.reply v t c h d).2).cfg = s.cfg := by
  simp [State.reply]
@[simp] theorem State.reply_boot (s : State) (v : Via) (t : Half) (c h : Nat) (d : List Byte) : ((s.reply v t c h d).2).boot = s.boot := by
  simp [State.reply]
@[simp] theorem State.reply_fault (s : State) (v : Via) (t : Half) (c h : Nat) (d : List Byte) : ((s.reply v t c h d).2).fault = s.fault := by
  simp [State.reply]
@[simp] theorem State.reply_pins (s : State) (v : Via) (t : Half) (c h : Nat) (d : List Byte) : ((s.reply v t c h d).2).pins = s.pins := by
  simp [State.reply]
@[simp] theorem State.reply_rcd (s : State) (v : Via) (t : Half) (c h : Nat) (d : List Byte) : ((s.reply v t c h d).2).rcd = s.rcd := by
  simp [State.reply]
@[simp] theorem State.reply_trust (s : State) (v : Via) (t : Half) (c h : Nat) (d : List Byte) : ((s.reply v t c h d).2).trust = s.trust := by
  simp [State.reply]
@[simp] theorem State.reply_upd (s : State) (v : Via) (t : Half) (c h : Nat) (d : List Byte) : ((s.reply v t c h d).2).upd = s.upd := by
  simp [State.reply]
@[simp] theorem State.reply_sw (s : State) (v : Via) (t : Half) (c h : Nat) (d : List Byte) : ((s.reply v t c h d).2).sw = s.sw := by
  simp [State.reply]
@[simp] theorem State.reply_plan (s : State) (v : Via) (t : Half) (c h : Nat) (d : List Byte) : ((s.reply v t c h d).2).plan = s.plan := by
  simp [State.reply]
@[simp] theorem State.reply_disp (s : State) (v : Via) (t : Half) (c h : Nat) (d : List Byte) : ((s.reply v t c h d).2).disp = s.disp := by
  simp [State.reply]
@[simp] theorem State.reply_pcie (s : State) (v : Via) (t : Half) (c h : Nat) (d : List Byte) : ((s.reply v t c h d).2).pcie = s.pcie := by
  simp [State.reply]
@[simp] theorem State.reply_usb (s : State) (v : Via) (t : Half) (c h : Nat) (d : List Byte) : ((s.reply v t c h d).2).usb = s.usb := by
  simp [State.reply]
@[simp] theorem State.reply_net (s : State) (v : Via) (t : Half) (c h : Nat) (d : List Byte) : ((s.reply v t c h d).2).net = s.net := by
  simp [State.reply]
@[simp] theorem State.reply_sb (s : State) (v : Via) (t : Half) (c h : Nat) (d : List Byte) : ((s.reply v t c h d).2).sb = s.sb := by
  simp [State.reply]
@[simp] theorem State.reply_mem (s : State) (v : Via) (t : Half) (c h : Nat) (d : List Byte) : ((s.reply v t c h d).2).mem = s.mem := by
  simp [State.reply]
@[simp] theorem State.reply_cc (s : State) (v : Via) (t : Half) (c h : Nat) (d : List Byte) : ((s.reply v t c h d).2).cc = s.cc := by
  simp [State.reply]
@[simp] theorem State.reply_ppath (s : State) (v : Via) (t : Half) (c h : Nat) (d : List Byte) : ((s.reply v t c h d).2).ppath = s.ppath := by
  simp [State.reply]
@[simp] theorem State.reply_pwr (s : State) (v : Via) (t : Half) (c h : Nat) (d : List Byte) : ((s.reply v t c h d).2).pwr = s.pwr := by
  simp [State.reply]

@[simp] theorem State.fwReply_pending (s : State) (m : Msg) (c : Rc) (h : Nat) (d : List Byte) : (s.fwReply m c h d).pending = s.pending := by
  simp [State.fwReply]
@[simp] theorem State.fwReply_free (s : State) (m : Msg) (c : Rc) (h : Nat) (d : List Byte) : (s.fwReply m c h d).free = s.free := by
  simp [State.fwReply]
@[simp] theorem State.fwReply_grade (s : State) (m : Msg) (c : Rc) (h : Nat) (d : List Byte) : (s.fwReply m c h d).grade = s.grade := by
  simp [State.fwReply]
@[simp] theorem State.fwReply_time (s : State) (m : Msg) (c : Rc) (h : Nat) (d : List Byte) : (s.fwReply m c h d).time = s.time := by
  simp [State.fwReply]
@[simp] theorem State.fwReply_topo (s : State) (m : Msg) (c : Rc) (h : Nat) (d : List Byte) : (s.fwReply m c h d).topo = s.topo := by
  simp [State.fwReply]
@[simp] theorem State.fwReply_cfg (s : State) (m : Msg) (c : Rc) (h : Nat) (d : List Byte) : (s.fwReply m c h d).cfg = s.cfg := by
  simp [State.fwReply]
@[simp] theorem State.fwReply_boot (s : State) (m : Msg) (c : Rc) (h : Nat) (d : List Byte) : (s.fwReply m c h d).boot = s.boot := by
  simp [State.fwReply]
@[simp] theorem State.fwReply_fault (s : State) (m : Msg) (c : Rc) (h : Nat) (d : List Byte) : (s.fwReply m c h d).fault = s.fault := by
  simp [State.fwReply]
@[simp] theorem State.fwReply_pins (s : State) (m : Msg) (c : Rc) (h : Nat) (d : List Byte) : (s.fwReply m c h d).pins = s.pins := by
  simp [State.fwReply]
@[simp] theorem State.fwReply_rcd (s : State) (m : Msg) (c : Rc) (h : Nat) (d : List Byte) : (s.fwReply m c h d).rcd = s.rcd := by
  simp [State.fwReply]
@[simp] theorem State.fwReply_trust (s : State) (m : Msg) (c : Rc) (h : Nat) (d : List Byte) : (s.fwReply m c h d).trust = s.trust := by
  simp [State.fwReply]
@[simp] theorem State.fwReply_upd (s : State) (m : Msg) (c : Rc) (h : Nat) (d : List Byte) : (s.fwReply m c h d).upd = s.upd := by
  simp [State.fwReply]
@[simp] theorem State.fwReply_sw (s : State) (m : Msg) (c : Rc) (h : Nat) (d : List Byte) : (s.fwReply m c h d).sw = s.sw := by
  simp [State.fwReply]
@[simp] theorem State.fwReply_plan (s : State) (m : Msg) (c : Rc) (h : Nat) (d : List Byte) : (s.fwReply m c h d).plan = s.plan := by
  simp [State.fwReply]
@[simp] theorem State.fwReply_disp (s : State) (m : Msg) (c : Rc) (h : Nat) (d : List Byte) : (s.fwReply m c h d).disp = s.disp := by
  simp [State.fwReply]
@[simp] theorem State.fwReply_pcie (s : State) (m : Msg) (c : Rc) (h : Nat) (d : List Byte) : (s.fwReply m c h d).pcie = s.pcie := by
  simp [State.fwReply]
@[simp] theorem State.fwReply_usb (s : State) (m : Msg) (c : Rc) (h : Nat) (d : List Byte) : (s.fwReply m c h d).usb = s.usb := by
  simp [State.fwReply]
@[simp] theorem State.fwReply_net (s : State) (m : Msg) (c : Rc) (h : Nat) (d : List Byte) : (s.fwReply m c h d).net = s.net := by
  simp [State.fwReply]
@[simp] theorem State.fwReply_sb (s : State) (m : Msg) (c : Rc) (h : Nat) (d : List Byte) : (s.fwReply m c h d).sb = s.sb := by
  simp [State.fwReply]
@[simp] theorem State.fwReply_mem (s : State) (m : Msg) (c : Rc) (h : Nat) (d : List Byte) : (s.fwReply m c h d).mem = s.mem := by
  simp [State.fwReply]
@[simp] theorem State.fwReply_cc (s : State) (m : Msg) (c : Rc) (h : Nat) (d : List Byte) : (s.fwReply m c h d).cc = s.cc := by
  simp [State.fwReply]
@[simp] theorem State.fwReply_ppath (s : State) (m : Msg) (c : Rc) (h : Nat) (d : List Byte) : (s.fwReply m c h d).ppath = s.ppath := by
  simp [State.fwReply]
@[simp] theorem State.fwReply_pwr (s : State) (m : Msg) (c : Rc) (h : Nat) (d : List Byte) : (s.fwReply m c h d).pwr = s.pwr := by
  simp [State.fwReply]

@[simp] theorem State.hwReply_pending (s : State) (m : Msg) (c : Rc) : (s.hwReply m c).pending = s.pending := by
  simp [State.hwReply]
@[simp] theorem State.hwReply_free (s : State) (m : Msg) (c : Rc) : (s.hwReply m c).free = s.free := by
  simp [State.hwReply]
@[simp] theorem State.hwReply_grade (s : State) (m : Msg) (c : Rc) : (s.hwReply m c).grade = s.grade := by
  simp [State.hwReply]
@[simp] theorem State.hwReply_time (s : State) (m : Msg) (c : Rc) : (s.hwReply m c).time = s.time := by
  simp [State.hwReply]
@[simp] theorem State.hwReply_topo (s : State) (m : Msg) (c : Rc) : (s.hwReply m c).topo = s.topo := by
  simp [State.hwReply]
@[simp] theorem State.hwReply_cfg (s : State) (m : Msg) (c : Rc) : (s.hwReply m c).cfg = s.cfg := by
  simp [State.hwReply]
@[simp] theorem State.hwReply_boot (s : State) (m : Msg) (c : Rc) : (s.hwReply m c).boot = s.boot := by
  simp [State.hwReply]
@[simp] theorem State.hwReply_fault (s : State) (m : Msg) (c : Rc) : (s.hwReply m c).fault = s.fault := by
  simp [State.hwReply]
@[simp] theorem State.hwReply_pins (s : State) (m : Msg) (c : Rc) : (s.hwReply m c).pins = s.pins := by
  simp [State.hwReply]
@[simp] theorem State.hwReply_rcd (s : State) (m : Msg) (c : Rc) : (s.hwReply m c).rcd = s.rcd := by
  simp [State.hwReply]
@[simp] theorem State.hwReply_trust (s : State) (m : Msg) (c : Rc) : (s.hwReply m c).trust = s.trust := by
  simp [State.hwReply]
@[simp] theorem State.hwReply_upd (s : State) (m : Msg) (c : Rc) : (s.hwReply m c).upd = s.upd := by
  simp [State.hwReply]
@[simp] theorem State.hwReply_sw (s : State) (m : Msg) (c : Rc) : (s.hwReply m c).sw = s.sw := by
  simp [State.hwReply]
@[simp] theorem State.hwReply_plan (s : State) (m : Msg) (c : Rc) : (s.hwReply m c).plan = s.plan := by
  simp [State.hwReply]
@[simp] theorem State.hwReply_disp (s : State) (m : Msg) (c : Rc) : (s.hwReply m c).disp = s.disp := by
  simp [State.hwReply]
@[simp] theorem State.hwReply_pcie (s : State) (m : Msg) (c : Rc) : (s.hwReply m c).pcie = s.pcie := by
  simp [State.hwReply]
@[simp] theorem State.hwReply_usb (s : State) (m : Msg) (c : Rc) : (s.hwReply m c).usb = s.usb := by
  simp [State.hwReply]
@[simp] theorem State.hwReply_net (s : State) (m : Msg) (c : Rc) : (s.hwReply m c).net = s.net := by
  simp [State.hwReply]
@[simp] theorem State.hwReply_sb (s : State) (m : Msg) (c : Rc) : (s.hwReply m c).sb = s.sb := by
  simp [State.hwReply]
@[simp] theorem State.hwReply_mem (s : State) (m : Msg) (c : Rc) : (s.hwReply m c).mem = s.mem := by
  simp [State.hwReply]
@[simp] theorem State.hwReply_cc (s : State) (m : Msg) (c : Rc) : (s.hwReply m c).cc = s.cc := by
  simp [State.hwReply]
@[simp] theorem State.hwReply_ppath (s : State) (m : Msg) (c : Rc) : (s.hwReply m c).ppath = s.ppath := by
  simp [State.hwReply]
@[simp] theorem State.hwReply_pwr (s : State) (m : Msg) (c : Rc) : (s.hwReply m c).pwr = s.pwr := by
  simp [State.hwReply]

@[simp] theorem State.addJob_pending (s : State) (v : Via) (o h : Nat) (p : Option (Nat × List Byte)) : (s.addJob v o h p).pending = s.pending := by
  simp [State.addJob]
@[simp] theorem State.addJob_free (s : State) (v : Via) (o h : Nat) (p : Option (Nat × List Byte)) : (s.addJob v o h p).free = s.free := by
  simp [State.addJob]
@[simp] theorem State.addJob_grade (s : State) (v : Via) (o h : Nat) (p : Option (Nat × List Byte)) : (s.addJob v o h p).grade = s.grade := by
  simp [State.addJob]
@[simp] theorem State.addJob_time (s : State) (v : Via) (o h : Nat) (p : Option (Nat × List Byte)) : (s.addJob v o h p).time = s.time := by
  simp [State.addJob]
@[simp] theorem State.addJob_topo (s : State) (v : Via) (o h : Nat) (p : Option (Nat × List Byte)) : (s.addJob v o h p).topo = s.topo := by
  simp [State.addJob]
@[simp] theorem State.addJob_cfg (s : State) (v : Via) (o h : Nat) (p : Option (Nat × List Byte)) : (s.addJob v o h p).cfg = s.cfg := by
  simp [State.addJob]
@[simp] theorem State.addJob_boot (s : State) (v : Via) (o h : Nat) (p : Option (Nat × List Byte)) : (s.addJob v o h p).boot = s.boot := by
  simp [State.addJob]
@[simp] theorem State.addJob_fault (s : State) (v : Via) (o h : Nat) (p : Option (Nat × List Byte)) : (s.addJob v o h p).fault = s.fault := by
  simp [State.addJob]
@[simp] theorem State.addJob_pins (s : State) (v : Via) (o h : Nat) (p : Option (Nat × List Byte)) : (s.addJob v o h p).pins = s.pins := by
  simp [State.addJob]
@[simp] theorem State.addJob_rcd (s : State) (v : Via) (o h : Nat) (p : Option (Nat × List Byte)) : (s.addJob v o h p).rcd = s.rcd := by
  simp [State.addJob]
@[simp] theorem State.addJob_trust (s : State) (v : Via) (o h : Nat) (p : Option (Nat × List Byte)) : (s.addJob v o h p).trust = s.trust := by
  simp [State.addJob]
@[simp] theorem State.addJob_upd (s : State) (v : Via) (o h : Nat) (p : Option (Nat × List Byte)) : (s.addJob v o h p).upd = s.upd := by
  simp [State.addJob]
@[simp] theorem State.addJob_cable (s : State) (v : Via) (o h : Nat) (p : Option (Nat × List Byte)) : (s.addJob v o h p).cable = s.cable := by
  simp [State.addJob]
@[simp] theorem State.addJob_sw (s : State) (v : Via) (o h : Nat) (p : Option (Nat × List Byte)) : (s.addJob v o h p).sw = s.sw := by
  simp [State.addJob]
@[simp] theorem State.addJob_plan (s : State) (v : Via) (o h : Nat) (p : Option (Nat × List Byte)) : (s.addJob v o h p).plan = s.plan := by
  simp [State.addJob]
@[simp] theorem State.addJob_disp (s : State) (v : Via) (o h : Nat) (p : Option (Nat × List Byte)) : (s.addJob v o h p).disp = s.disp := by
  simp [State.addJob]
@[simp] theorem State.addJob_pcie (s : State) (v : Via) (o h : Nat) (p : Option (Nat × List Byte)) : (s.addJob v o h p).pcie = s.pcie := by
  simp [State.addJob]
@[simp] theorem State.addJob_usb (s : State) (v : Via) (o h : Nat) (p : Option (Nat × List Byte)) : (s.addJob v o h p).usb = s.usb := by
  simp [State.addJob]
@[simp] theorem State.addJob_net (s : State) (v : Via) (o h : Nat) (p : Option (Nat × List Byte)) : (s.addJob v o h p).net = s.net := by
  simp [State.addJob]
@[simp] theorem State.addJob_sb (s : State) (v : Via) (o h : Nat) (p : Option (Nat × List Byte)) : (s.addJob v o h p).sb = s.sb := by
  simp [State.addJob]
@[simp] theorem State.addJob_mem (s : State) (v : Via) (o h : Nat) (p : Option (Nat × List Byte)) : (s.addJob v o h p).mem = s.mem := by
  simp [State.addJob]
@[simp] theorem State.addJob_svc (s : State) (v : Via) (o h : Nat) (p : Option (Nat × List Byte)) : (s.addJob v o h p).svc = s.svc := by
  simp [State.addJob]
@[simp] theorem State.addJob_cc (s : State) (v : Via) (o h : Nat) (p : Option (Nat × List Byte)) : (s.addJob v o h p).cc = s.cc := by
  simp [State.addJob]
@[simp] theorem State.addJob_ppath (s : State) (v : Via) (o h : Nat) (p : Option (Nat × List Byte)) : (s.addJob v o h p).ppath = s.ppath := by
  simp [State.addJob]
@[simp] theorem State.addJob_pwr (s : State) (v : Via) (o h : Nat) (p : Option (Nat × List Byte)) : (s.addJob v o h p).pwr = s.pwr := by
  simp [State.addJob]
@[simp] theorem State.addJob_out (s : State) (v : Via) (o h : Nat) (p : Option (Nat × List Byte)) : (s.addJob v o h p).out = s.out := by
  simp [State.addJob]

@[simp] theorem State.finish_pending (s : State) (v : Via) (h c : Nat) (d : List Byte) : (s.finish v h c d).pending = s.pending := by
  unfold State.finish; dsimp only; split <;> simp
@[simp] theorem State.finish_free (s : State) (v : Via) (h c : Nat) (d : List Byte) : (s.finish v h c d).free = s.free := by
  unfold State.finish; dsimp only; split <;> simp
@[simp] theorem State.finish_grade (s : State) (v : Via) (h c : Nat) (d : List Byte) : (s.finish v h c d).grade = s.grade := by
  unfold State.finish; dsimp only; split <;> simp
@[simp] theorem State.finish_time (s : State) (v : Via) (h c : Nat) (d : List Byte) : (s.finish v h c d).time = s.time := by
  unfold State.finish; dsimp only; split <;> simp
@[simp] theorem State.finish_topo (s : State) (v : Via) (h c : Nat) (d : List Byte) : (s.finish v h c d).topo = s.topo := by
  unfold State.finish; dsimp only; split <;> simp
@[simp] theorem State.finish_cfg (s : State) (v : Via) (h c : Nat) (d : List Byte) : (s.finish v h c d).cfg = s.cfg := by
  unfold State.finish; dsimp only; split <;> simp
@[simp] theorem State.finish_boot (s : State) (v : Via) (h c : Nat) (d : List Byte) : (s.finish v h c d).boot = s.boot := by
  unfold State.finish; dsimp only; split <;> simp
@[simp] theorem State.finish_fault (s : State) (v : Via) (h c : Nat) (d : List Byte) : (s.finish v h c d).fault = s.fault := by
  unfold State.finish; dsimp only; split <;> simp
@[simp] theorem State.finish_pins (s : State) (v : Via) (h c : Nat) (d : List Byte) : (s.finish v h c d).pins = s.pins := by
  unfold State.finish; dsimp only; split <;> simp
@[simp] theorem State.finish_trust (s : State) (v : Via) (h c : Nat) (d : List Byte) : (s.finish v h c d).trust = s.trust := by
  unfold State.finish; dsimp only; split <;> simp
@[simp] theorem State.finish_upd (s : State) (v : Via) (h c : Nat) (d : List Byte) : (s.finish v h c d).upd = s.upd := by
  unfold State.finish; dsimp only; split <;> simp
@[simp] theorem State.finish_cable (s : State) (v : Via) (h c : Nat) (d : List Byte) : (s.finish v h c d).cable = s.cable := by
  unfold State.finish; dsimp only; split <;> simp
@[simp] theorem State.finish_sw (s : State) (v : Via) (h c : Nat) (d : List Byte) : (s.finish v h c d).sw = s.sw := by
  unfold State.finish; dsimp only; split <;> simp
@[simp] theorem State.finish_plan (s : State) (v : Via) (h c : Nat) (d : List Byte) : (s.finish v h c d).plan = s.plan := by
  unfold State.finish; dsimp only; split <;> simp
@[simp] theorem State.finish_disp (s : State) (v : Via) (h c : Nat) (d : List Byte) : (s.finish v h c d).disp = s.disp := by
  unfold State.finish; dsimp only; split <;> simp
@[simp] theorem State.finish_pcie (s : State) (v : Via) (h c : Nat) (d : List Byte) : (s.finish v h c d).pcie = s.pcie := by
  unfold State.finish; dsimp only; split <;> simp
@[simp] theorem State.finish_usb (s : State) (v : Via) (h c : Nat) (d : List Byte) : (s.finish v h c d).usb = s.usb := by
  unfold State.finish; dsimp only; split <;> simp
@[simp] theorem State.finish_net (s : State) (v : Via) (h c : Nat) (d : List Byte) : (s.finish v h c d).net = s.net := by
  unfold State.finish; dsimp only; split <;> simp
@[simp] theorem State.finish_sb (s : State) (v : Via) (h c : Nat) (d : List Byte) : (s.finish v h c d).sb = s.sb := by
  unfold State.finish; dsimp only; split <;> simp
@[simp] theorem State.finish_mem (s : State) (v : Via) (h c : Nat) (d : List Byte) : (s.finish v h c d).mem = s.mem := by
  unfold State.finish; dsimp only; split <;> simp
@[simp] theorem State.finish_svc (s : State) (v : Via) (h c : Nat) (d : List Byte) : (s.finish v h c d).svc = s.svc := by
  unfold State.finish; dsimp only; split <;> simp
@[simp] theorem State.finish_cc (s : State) (v : Via) (h c : Nat) (d : List Byte) : (s.finish v h c d).cc = s.cc := by
  unfold State.finish; dsimp only; split <;> simp
@[simp] theorem State.finish_ppath (s : State) (v : Via) (h c : Nat) (d : List Byte) : (s.finish v h c d).ppath = s.ppath := by
  unfold State.finish; dsimp only; split <;> simp
@[simp] theorem State.finish_pwr (s : State) (v : Via) (h c : Nat) (d : List Byte) : (s.finish v h c d).pwr = s.pwr := by
  unfold State.finish; dsimp only; split <;> simp
@[simp] theorem State.finish_out (s : State) (v : Via) (h c : Nat) (d : List Byte) : (s.finish v h c d).out = s.out := by
  unfold State.finish; dsimp only; split <;> simp

@[simp] theorem State.finishRc_pending (s : State) (v : Via) (h : Nat) (c : Rc) (d : List Byte) : (s.finishRc v h c d).pending = s.pending := by
  unfold State.finishRc; simp
@[simp] theorem State.finishRc_free (s : State) (v : Via) (h : Nat) (c : Rc) (d : List Byte) : (s.finishRc v h c d).free = s.free := by
  unfold State.finishRc; simp
@[simp] theorem State.finishRc_grade (s : State) (v : Via) (h : Nat) (c : Rc) (d : List Byte) : (s.finishRc v h c d).grade = s.grade := by
  unfold State.finishRc; simp
@[simp] theorem State.finishRc_time (s : State) (v : Via) (h : Nat) (c : Rc) (d : List Byte) : (s.finishRc v h c d).time = s.time := by
  unfold State.finishRc; simp
@[simp] theorem State.finishRc_topo (s : State) (v : Via) (h : Nat) (c : Rc) (d : List Byte) : (s.finishRc v h c d).topo = s.topo := by
  unfold State.finishRc; simp
@[simp] theorem State.finishRc_cfg (s : State) (v : Via) (h : Nat) (c : Rc) (d : List Byte) : (s.finishRc v h c d).cfg = s.cfg := by
  unfold State.finishRc; simp
@[simp] theorem State.finishRc_boot (s : State) (v : Via) (h : Nat) (c : Rc) (d : List Byte) : (s.finishRc v h c d).boot = s.boot := by
  unfold State.finishRc; simp
@[simp] theorem State.finishRc_fault (s : State) (v : Via) (h : Nat) (c : Rc) (d : List Byte) : (s.finishRc v h c d).fault = s.fault := by
  unfold State.finishRc; simp
@[simp] theorem State.finishRc_pins (s : State) (v : Via) (h : Nat) (c : Rc) (d : List Byte) : (s.finishRc v h c d).pins = s.pins := by
  unfold State.finishRc; simp
@[simp] theorem State.finishRc_trust (s : State) (v : Via) (h : Nat) (c : Rc) (d : List Byte) : (s.finishRc v h c d).trust = s.trust := by
  unfold State.finishRc; simp
@[simp] theorem State.finishRc_upd (s : State) (v : Via) (h : Nat) (c : Rc) (d : List Byte) : (s.finishRc v h c d).upd = s.upd := by
  unfold State.finishRc; simp
@[simp] theorem State.finishRc_cable (s : State) (v : Via) (h : Nat) (c : Rc) (d : List Byte) : (s.finishRc v h c d).cable = s.cable := by
  unfold State.finishRc; simp
@[simp] theorem State.finishRc_sw (s : State) (v : Via) (h : Nat) (c : Rc) (d : List Byte) : (s.finishRc v h c d).sw = s.sw := by
  unfold State.finishRc; simp
@[simp] theorem State.finishRc_plan (s : State) (v : Via) (h : Nat) (c : Rc) (d : List Byte) : (s.finishRc v h c d).plan = s.plan := by
  unfold State.finishRc; simp
@[simp] theorem State.finishRc_disp (s : State) (v : Via) (h : Nat) (c : Rc) (d : List Byte) : (s.finishRc v h c d).disp = s.disp := by
  unfold State.finishRc; simp
@[simp] theorem State.finishRc_pcie (s : State) (v : Via) (h : Nat) (c : Rc) (d : List Byte) : (s.finishRc v h c d).pcie = s.pcie := by
  unfold State.finishRc; simp
@[simp] theorem State.finishRc_usb (s : State) (v : Via) (h : Nat) (c : Rc) (d : List Byte) : (s.finishRc v h c d).usb = s.usb := by
  unfold State.finishRc; simp
@[simp] theorem State.finishRc_net (s : State) (v : Via) (h : Nat) (c : Rc) (d : List Byte) : (s.finishRc v h c d).net = s.net := by
  unfold State.finishRc; simp
@[simp] theorem State.finishRc_sb (s : State) (v : Via) (h : Nat) (c : Rc) (d : List Byte) : (s.finishRc v h c d).sb = s.sb := by
  unfold State.finishRc; simp
@[simp] theorem State.finishRc_mem (s : State) (v : Via) (h : Nat) (c : Rc) (d : List Byte) : (s.finishRc v h c d).mem = s.mem := by
  unfold State.finishRc; simp
@[simp] theorem State.finishRc_svc (s : State) (v : Via) (h : Nat) (c : Rc) (d : List Byte) : (s.finishRc v h c d).svc = s.svc := by
  unfold State.finishRc; simp
@[simp] theorem State.finishRc_cc (s : State) (v : Via) (h : Nat) (c : Rc) (d : List Byte) : (s.finishRc v h c d).cc = s.cc := by
  unfold State.finishRc; simp
@[simp] theorem State.finishRc_ppath (s : State) (v : Via) (h : Nat) (c : Rc) (d : List Byte) : (s.finishRc v h c d).ppath = s.ppath := by
  unfold State.finishRc; simp
@[simp] theorem State.finishRc_pwr (s : State) (v : Via) (h : Nat) (c : Rc) (d : List Byte) : (s.finishRc v h c d).pwr = s.pwr := by
  unfold State.finishRc; simp
@[simp] theorem State.finishRc_out (s : State) (v : Via) (h : Nat) (c : Rc) (d : List Byte) : (s.finishRc v h c d).out = s.out := by
  unfold State.finishRc; simp

end Sys2Proof.Machine
end

