-- ==== Sys2Proof/Laws/Mailbox.lean ====
section
/-! SUPPORT. What the delivery of events, their recording and replies leave alone (`hush`, `still`), and what a mailbox command whose
request is admitted does, said once: every statement about a mailbox command goes through `command_ok`, `command_fail` and
`command_accepted`. -/

namespace Sys2Proof.Machine

/-- The check says that a request is admitted. -/
theorem admitted_of {row : CmdRow} {min : Nat} {rq : Req} {s : State} (h : admits row min rq s = true) : Admitted row min rq s := by
  simp only [admits, Bool.and_eq_true, Bool.not_eq_true', beq_iff_eq, decide_eq_true_eq, Option.any_eq_true] at h
  obtain ⟨⟨⟨⟨⟨⟨⟨⟨⟨⟨⟨h1, h2⟩, h3⟩, h4⟩, h5⟩, h6⟩, h7⟩, h8⟩, h9⟩, h10⟩, h11⟩, h12⟩ := h
  exact ⟨h1, h2, h3, List.isEmpty_iff.mp h4, h5, h6, h7, h8, h9, h10, h11, h12⟩

/-! ### Delivery and recording keep `hush` -/

@[simp] theorem ChanSt.hush_enter (c : ChanSt) (e : EventEntry) : (c.enter e).hush = c.hush := by
  unfold ChanSt.enter; split_ifs <;> rfl

@[simp] theorem InstSt.hush_deliver (i : InstSt) (e : EventEntry) : (i.deliver e).hush = i.hush := by
  unfold InstSt.deliver; split_ifs <;> rfl

@[simp] theorem State.hush_begin (s : State) : s.begin.hush = s.hush := rfl

@[simp] theorem State.hush_emit (s : State) (e : Emit) : (s.emit e).hush = s.hush := rfl

theorem State.hush_rcd (s : State) (r : RecSt) (h : r.hush = s.rcd.hush) : ({ s with rcd := r } : State).hush = s.hush := by
  simp only [State.hush, h]

theorem RecSt.hush_ring (r : RecSt) (n : Word) (l : List Spore) : ({ r with nextSeq := n, ring := l } : RecSt).hush = r.hush := rfl

theorem RecSt.hush_buffer (r : RecSt) (n : Word) (l : List Spore) : ({ r with nextSeq := n, buffer := l } : RecSt).hush = r.hush :=
  rfl

theorem RecSt.hush_dropped (r : RecSt) (n : Nat) : ({ r with dropped := n } : RecSt).hush = r.hush := rfl

theorem RecSt.hush_frozen (r : RecSt) (m n t : Nat) (k : Tick) :
    ({ r with mode := m, trigger := t, trigAt := k, moreTriggers := n } : RecSt).hush = r.hush := rfl

@[simp] theorem State.hush_spore1 (s : State) (k c f : Nat) (p : List Byte) : (s.spore1 k c f p).hush = s.hush := by
  unfold State.spore1
  dsimp only
  split_ifs
  · rfl
  · exact State.hush_rcd _ _ (RecSt.hush_ring _ _ _)
  · exact State.hush_rcd _ _ (RecSt.hush_buffer _ _ _)
  · exact State.hush_rcd _ _ (RecSt.hush_dropped _ _)

@[simp] theorem State.hush_spore (s : State) (k c : Nat) (p : List Byte) : (s.spore k c p).hush = s.hush := by
  unfold State.spore; exact foldl_same _ State.hush (fun _ _ => by simp) _ _

@[simp] theorem State.hush_recTrigger (s : State) (c : Nat) : (s.recTrigger c).hush = s.hush := by
  unfold State.recTrigger
  split_ifs
  · exact State.hush_rcd _ _ (RecSt.hush_frozen _ _ _ _ _)
  · rfl
  · exact State.hush_rcd _ _ (RecSt.hush_frozen _ _ _ _ _)

@[simp] theorem State.hush_raise (s : State) (n a : Nat) : (s.raise n a).hush = s.hush := by
  unfold State.raise
  dsimp only
  split_ifs <;> simp only [State.hush_recTrigger, State.hush_spore] <;>
    simp [State.hush, MbxSt.hush, SvcSt.hush, Function.comp_def]

@[simp] theorem State.hush_raiseIf (s : State) (b : Bool) (n a : Nat) : (s.raiseIf b n a).hush = s.hush := by
  unfold State.raiseIf; split_ifs <;> simp

theorem State.mbx_hush (s : State) : s.hush.mbx = s.mbx.hush := rfl
theorem State.svc_hush (s : State) : s.hush.svc = s.svc.hush := rfl
theorem State.rcd_hush (s : State) : s.hush.rcd = s.rcd.hush := rfl

@[simp] theorem State.raise_mbx_hush (s : State) (n a : Nat) : (s.raise n a).mbx.hush = s.mbx.hush := by
  rw [← State.mbx_hush, State.hush_raise, State.mbx_hush]

@[simp] theorem State.raise_svc_hush (s : State) (n a : Nat) : (s.raise n a).svc.hush = s.svc.hush := by
  rw [← State.svc_hush, State.hush_raise, State.svc_hush]

@[simp] theorem State.raise_rcd_hush (s : State) (n a : Nat) : (s.raise n a).rcd.hush = s.rcd.hush := by
  rw [← State.rcd_hush, State.hush_raise, State.rcd_hush]

@[simp] theorem State.raiseIf_mbx_hush (s : State) (b : Bool) (n a : Nat) : (s.raiseIf b n a).mbx.hush = s.mbx.hush := by
  rw [← State.mbx_hush, State.hush_raiseIf, State.mbx_hush]

@[simp] theorem State.raiseIf_svc_hush (s : State) (b : Bool) (n a : Nat) : (s.raiseIf b n a).svc.hush = s.svc.hush := by
  rw [← State.svc_hush, State.hush_raiseIf, State.svc_hush]

@[simp] theorem State.raiseIf_rcd_hush (s : State) (b : Bool) (n a : Nat) : (s.raiseIf b n a).rcd.hush = s.rcd.hush := by
  rw [← State.rcd_hush, State.hush_raiseIf, State.rcd_hush]

@[simp] theorem State.spore_mbx_hush (s : State) (k c : Nat) (p : List Byte) : (s.spore k c p).mbx.hush = s.mbx.hush := by
  rw [← State.mbx_hush, State.hush_spore, State.mbx_hush]

@[simp] theorem State.spore_svc_hush (s : State) (k c : Nat) (p : List Byte) : (s.spore k c p).svc.hush = s.svc.hush := by
  rw [← State.svc_hush, State.hush_spore, State.svc_hush]

@[simp] theorem State.spore_rcd_hush (s : State) (k c : Nat) (p : List Byte) : (s.spore k c p).rcd.hush = s.rcd.hush := by
  rw [← State.rcd_hush, State.hush_spore, State.rcd_hush]

@[simp] theorem State.recTrigger_mbx_hush (s : State) (c : Nat) : (s.recTrigger c).mbx.hush = s.mbx.hush := by
  rw [← State.mbx_hush, State.hush_recTrigger, State.mbx_hush]

@[simp] theorem State.recTrigger_svc_hush (s : State) (c : Nat) : (s.recTrigger c).svc.hush = s.svc.hush := by
  rw [← State.svc_hush, State.hush_recTrigger, State.svc_hush]

@[simp] theorem State.recTrigger_rcd_hush (s : State) (c : Nat) : (s.recTrigger c).rcd.hush = s.rcd.hush := by
  rw [← State.rcd_hush, State.hush_recTrigger, State.rcd_hush]

/-- What keeps `hush` keeps `still`. -/
theorem State.still_of_hush {s t : State} (h : s.hush = t.hush) : s.still = t.still := congrArg State.calm h

@[simp] theorem State.still_begin (s : State) : s.begin.still = s.still := rfl

@[simp] theorem State.still_emit (s : State) (e : Emit) : (s.emit e).still = s.still := rfl

@[simp] theorem State.still_spore (s : State) (k c : Nat) (p : List Byte) : (s.spore k c p).still = s.still :=
  State.still_of_hush (by simp)

@[simp] theorem State.still_raise (s : State) (n a : Nat) : (s.raise n a).still = s.still :=
  State.still_of_hush (by simp)

@[simp] theorem State.still_raiseIf (s : State) (b : Bool) (n a : Nat) : (s.raiseIf b n a).still = s.still :=
  State.still_of_hush (by simp)

/-! ### A request counted, and its reply -/

theorem State.still_counted (s : State) (u : Bool) (n : Nat) (b : Bool) :
    ({ s with mbx := { s.mbx with sinceAttn := n, firstLocal := b, unatt := u } } : State).still = s.still := rfl

@[simp] theorem State.still_countLocal (s : State) (v : Via) : (s.countLocal v).still = s.still := by
  unfold State.countLocal
  dsimp only
  split_ifs
  · rw [State.still_raise]; exact State.still_counted s _ _ _
  · exact State.still_counted s _ _ _
  · rfl

theorem State.still_setChan (s : State) (c : Chan) (x y : ChanSt) (h : x.hush.calm = y.hush.calm) :
    (s.setChan c x).still = (s.setChan c y).still := by
  cases c <;> simp [State.setChan, State.still, State.hush, State.calm, MbxSt.hush, MbxSt.calm, h]

theorem State.setChan_chan (s : State) (c : Chan) : s.setChan c (s.chan c) = s := by cases c <;> rfl

theorem State.still_modChan (s : State) (c : Chan) (f : ChanSt → ChanSt) (h : ∀ x, (f x).hush.calm = x.hush.calm) :
    (s.modChan c f).still = s.still := by
  have := State.still_setChan s c (f (s.chan c)) (s.chan c) (h _)
  rwa [State.setChan_chan] at this

@[simp] theorem State.still_peerSend (s : State) (p : Nat) (b : List Byte) : (s.peerSend p b).still = s.still := by
  simp only [State.peerSend, State.still, State.hush, State.calm, CableSt.calm]
  congr 2
  apply List.ext_getElem?
  intro i
  simp only [List.getElem?_map, List.getElem?_modify]
  cases s.cable.links[i]? with
  | none => rfl
  | some l => simp only [Option.map_eq_map, Option.map_some]; split_ifs <;> rfl

theorem State.still_usbWait (s : State) (w : List Nat) : ({ s with mbx := { s.mbx with usbWait := w } } : State).still = s.still := rfl
theorem State.still_usbMute (s : State) (n : Nat) : ({ s with mbx := { s.mbx with usbMute := n } } : State).still = s.still := rfl
theorem State.still_usbReply (s : State) (r : Option Reply) :
    ({ s with mbx := { s.mbx with usbReply := r } } : State).still = s.still := rfl

@[simp] theorem State.still_usbReady (s : State) (k : List Nat) : (s.usbReady k).still = s.still := by
  unfold State.usbReady
  exact (foldl_same _ State.still (fun _ _ => State.still_emit _ _) _ _).trans (State.still_usbWait _ _)

@[simp] theorem State.still_holdReply (s : State) (v : Via) (r : Reply) : (s.holdReply v r).still = s.still := by
  cases v with
  | usb =>
    simp only [State.holdReply]
    split_ifs
    · rw [State.still_usbReady]; exact State.still_usbMute _ _
    · rw [State.still_usbReady]; exact State.still_usbReply _ _
  | peer p => exact State.still_peerSend _ _ _
  | gate i =>
    simp only [State.holdReply, State.still, State.hush, State.calm, SvcSt.hush, SvcSt.calm, List.map_map]
    congr 2
    apply List.map_congr_left
    intro x _
    dsimp only [Function.comp_apply]
    split_ifs <;> rfl
  | _ => rfl

@[simp] theorem State.still_reply (s : State) (v : Via) (g : Half) (c h : Nat) (d : List Byte) :
    (s.reply v g c h d).2.still = s.still := by
  simp only [State.reply, State.still_emit, State.still_holdReply]
  exact State.still_modChan _ _ _ fun _ => rfl

@[simp] theorem State.still_fwReply (s : State) (m : Msg) (c : Rc) (h : Nat) (d : List Byte) :
    (s.fwReply m c h d).still = s.still := by
  simp only [State.fwReply]
  generalize (s.reply m.rq.via m.rq.tag c.code h d).1 = r
  refine (State.still_modChan _ _ _ ?_).trans (State.still_reply _ _ _ _ _ _)
  intro x
  rfl

/-! ### An admitted request -/

/-- The state in which the body of a command that has just arrived runs: counted and recorded. -/
def State.heard (row : CmdRow) (rq : Req) (s : State) : State :=
  (s.begin.countLocal rq.via).spore 1 (chanNum (viaChan rq.via)) (reqBytes row.opcode rq)

@[simp] theorem State.still_heard (row : CmdRow) (rq : Req) (s : State) : (s.heard row rq).still = s.still := by
  simp [State.heard]

theorem State.mbx_still (s : State) : s.still.mbx = s.mbx.hush.calm := rfl
theorem State.svc_still (s : State) : s.still.svc = s.svc.hush.calm := rfl
theorem State.rcd_still (s : State) : s.still.rcd = s.rcd.hush := rfl

@[simp] theorem State.mbx_heard (row : CmdRow) (rq : Req) (s : State) :
    (s.heard row rq).mbx.hush.calm = s.mbx.hush.calm := by
  rw [← State.mbx_still, State.still_heard, State.mbx_still]

@[simp] theorem State.svc_heard (row : CmdRow) (rq : Req) (s : State) :
    (s.heard row rq).svc.hush.calm = s.svc.hush.calm := by
  rw [← State.svc_still, State.still_heard, State.svc_still]

@[simp] theorem State.rcd_heard (row : CmdRow) (rq : Req) (s : State) :
    (s.heard row rq).rcd.hush = s.rcd.hush := by
  rw [← State.rcd_still, State.still_heard, State.rcd_still]

@[simp] theorem State.heard_pending (row : CmdRow) (rq : Req) (s : State) : (s.heard row rq).pending = s.pending := by
  simp [State.heard]

@[simp] theorem State.heard_free (row : CmdRow) (rq : Req) (s : State) : (s.heard row rq).free = s.free := by
  simp [State.heard]

@[simp] theorem State.heard_grade (row : CmdRow) (rq : Req) (s : State) : (s.heard row rq).grade = s.grade := by
  simp [State.heard]

@[simp] theorem State.heard_time (row : CmdRow) (rq : Req) (s : State) : (s.heard row rq).time = s.time := by
  simp [State.heard]

@[simp] theorem State.heard_topo (row : CmdRow) (rq : Req) (s : State) : (s.heard row rq).topo = s.topo := by
  simp [State.heard]

@[simp] theorem State.heard_cfg (row : CmdRow) (rq : Req) (s : State) : (s.heard row rq).cfg = s.cfg := by
  simp [State.heard]

@[simp] theorem State.heard_boot (row : CmdRow) (rq : Req) (s : State) : (s.heard row rq).boot = s.boot := by
  simp [State.heard]

@[simp] theorem State.heard_fault (row : CmdRow) (rq : Req) (s : State) : (s.heard row rq).fault = s.fault := by
  simp [State.heard]

@[simp] theorem State.heard_pins (row : CmdRow) (rq : Req) (s : State) : (s.heard row rq).pins = s.pins := by
  simp [State.heard]

@[simp] theorem State.heard_trust (row : CmdRow) (rq : Req) (s : State) : (s.heard row rq).trust = s.trust := by
  simp [State.heard]

@[simp] theorem State.heard_upd (row : CmdRow) (rq : Req) (s : State) : (s.heard row rq).upd = s.upd := by
  simp [State.heard]

@[simp] theorem State.heard_cable (row : CmdRow) (rq : Req) (s : State) : (s.heard row rq).cable = s.cable := by
  simp [State.heard]

@[simp] theorem State.heard_sw (row : CmdRow) (rq : Req) (s : State) : (s.heard row rq).sw = s.sw := by
  simp [State.heard]

@[simp] theorem State.heard_plan (row : CmdRow) (rq : Req) (s : State) : (s.heard row rq).plan = s.plan := by
  simp [State.heard]

@[simp] theorem State.heard_disp (row : CmdRow) (rq : Req) (s : State) : (s.heard row rq).disp = s.disp := by
  simp [State.heard]

@[simp] theorem State.heard_pcie (row : CmdRow) (rq : Req) (s : State) : (s.heard row rq).pcie = s.pcie := by
  simp [State.heard]

@[simp] theorem State.heard_usb (row : CmdRow) (rq : Req) (s : State) : (s.heard row rq).usb = s.usb := by
  simp [State.heard]

@[simp] theorem State.heard_net (row : CmdRow) (rq : Req) (s : State) : (s.heard row rq).net = s.net := by
  simp [State.heard]

@[simp] theorem State.heard_sb (row : CmdRow) (rq : Req) (s : State) : (s.heard row rq).sb = s.sb := by
  simp [State.heard]

@[simp] theorem State.heard_mem (row : CmdRow) (rq : Req) (s : State) : (s.heard row rq).mem = s.mem := by
  simp [State.heard]

@[simp] theorem State.heard_cc (row : CmdRow) (rq : Req) (s : State) : (s.heard row rq).cc = s.cc := by
  simp [State.heard]

@[simp] theorem State.heard_ppath (row : CmdRow) (rq : Req) (s : State) : (s.heard row rq).ppath = s.ppath := by
  simp [State.heard]

@[simp] theorem State.heard_pwr (row : CmdRow) (rq : Req) (s : State) : (s.heard row rq).pwr = s.pwr := by
  simp [State.heard]

/-- A request that has been heard has changed the outputs, the mailboxes, the recorder and the instances' queues alone: any function of the other
parts is the same on both, by rewriting with this and `rfl`. -/
theorem State.heard_eq (row : CmdRow) (rq : Req) (s : State) :
    s.heard row rq = { s with
      out := (s.heard row rq).out, mbx := (s.heard row rq).mbx, svc := (s.heard row rq).svc, rcd := (s.heard row rq).rcd } := by
  have h0 := State.heard_pending row rq s
  have h1 := State.heard_free row rq s
  have h2 := State.heard_grade row rq s
  have h3 := State.heard_time row rq s
  have h4 := State.heard_topo row rq s
  have h5 := State.heard_cfg row rq s
  have h6 := State.heard_boot row rq s
  have h7 := State.heard_fault row rq s
  have h8 := State.heard_pins row rq s
  have h9 := State.heard_trust row rq s
  have h10 := State.heard_upd row rq s
  have h11 := State.heard_cable row rq s
  have h12 := State.heard_sw row rq s
  have h13 := State.heard_plan row rq s
  have h14 := State.heard_disp row rq s
  have h15 := State.heard_pcie row rq s
  have h16 := State.heard_usb row rq s
  have h17 := State.heard_net row rq s
  have h18 := State.heard_sb row rq s
  have h19 := State.heard_mem row rq s
  have h20 := State.heard_cc row rq s
  have h21 := State.heard_ppath row rq s
  have h22 := State.heard_pwr row rq s
  revert h0 h1 h2 h3 h4 h5 h6 h7 h8 h9 h10 h11 h12 h13 h14 h15 h16 h17 h18 h19 h20 h21 h22
  generalize s.heard row rq = u
  intros
  cases u
  simp_all

@[simp] theorem State.lifecycle_heard (row : CmdRow) (rq : Req) (s : State) : (s.heard row rq).lifecycle = s.lifecycle := by
  simp [State.lifecycle]

@[simp] theorem State.fwRuns_heard (row : CmdRow) (rq : Req) (s : State) : (s.heard row rq).fwRuns = s.fwRuns := by
  simp [State.fwRuns]

/-- Applied values and values in force depend on the configuration, the role and the grade alone (R91). -/
theorem State.cv_congr {s t : State} (hc : t.cfg = s.cfg) (ht : t.topo = s.topo) (hg : t.grade = s.grade) (f : FieldDef) :
    t.cv f = s.cv f := by
  have hd : ∀ f, t.fldDefault f = s.fldDefault f := fun f => by unfold State.fldDefault; rw [ht, hg]
  have hl : ∀ f, t.layered f = s.layered f := fun f => by unfold State.layered; rw [hc, hd]
  have ha : ∀ f, t.applied f = s.applied f := fun f => by unfold State.applied; rw [hl, hl, ht]
  unfold State.cv
  rw [ha, hc, hd]

@[simp] theorem State.cv_heard (row : CmdRow) (rq : Req) (s : State) (f : FieldDef) : (s.heard row rq).cv f = s.cv f :=
  State.cv_congr (by simp) (by simp) (by simp) f

/-! ### What an event writes -/

/-- What raising an event leaves in the mailboxes (R54): each of the four enters it. -/
theorem State.raise_mbx (s : State) (n a : Nat) :
    (s.raise n a).mbx = { s.mbx with
      loc := s.mbx.loc.enter (s.event n a), tun := s.mbx.tun.enter (s.event n a)
      peer := s.mbx.peer.enter (s.event n a), dbg := s.mbx.dbg.enter (s.event n a) } := by
  unfold State.raise
  dsimp only
  split_ifs <;> simp [State.event]

/-- What raising an event leaves in the service runtime (R392). -/
theorem State.raise_svc (s : State) (n a : Nat) :
    (s.raise n a).svc = { s.svc with insts := s.svc.insts.map fun i => i.deliver (s.event n a) } := by
  unfold State.raise
  dsimp only
  split_ifs <;> simp [State.event]

/-- An event put into a queue is in it, and so is what was there before. -/
@[simp] theorem mem_enterEvent (e x : EventEntry) (l : List EventEntry) : x ∈ enterEvent e l ↔ x = e ∨ x ∈ l := by
  induction l with
  | nil => simp [enterEvent]
  | cons v l ih =>
    unfold enterEvent
    split_ifs
    · simp
    · simp only [List.mem_cons, ih]; tauto

@[simp] theorem enterEvent_length (e : EventEntry) (l : List EventEntry) : (enterEvent e l).length = l.length + 1 := by
  induction l with
  | nil => rfl
  | cons v l ih => unfold enterEvent; split_ifs <;> simp [ih]

@[simp] theorem ChanSt.enter_stored (c : ChanSt) (e : EventEntry) : (c.enter e).stored = c.stored := by
  unfold ChanSt.enter; split_ifs <;> rfl

@[simp] theorem ChanSt.enter_last (c : ChanSt) (e : EventEntry) : (c.enter e).last = c.last := by
  unfold ChanSt.enter; split_ifs <;> rfl

@[simp] theorem ChanSt.enter_creds (c : ChanSt) (e : EventEntry) : (c.enter e).creds = c.creds := by
  unfold ChanSt.enter; split_ifs <;> rfl

@[simp] theorem ChanSt.enter_jobs (c : ChanSt) (e : EventEntry) : (c.enter e).jobs = c.jobs := by
  unfold ChanSt.enter; split_ifs <;> rfl

@[simp] theorem ChanSt.enter_nextJob (c : ChanSt) (e : EventEntry) : (c.enter e).nextJob = c.nextJob := by
  unfold ChanSt.enter; split_ifs <;> rfl

@[simp] theorem ChanSt.enter_mask (c : ChanSt) (e : EventEntry) : (c.enter e).mask = c.mask := by
  unfold ChanSt.enter; split_ifs <;> rfl

@[simp] theorem ChanSt.enter_seq (c : ChanSt) (e : EventEntry) : (c.enter e).seq = c.seq := by
  unfold ChanSt.enter; split_ifs <;> rfl

@[simp] theorem ChanSt.enter_nextCred (c : ChanSt) (e : EventEntry) : (c.enter e).nextCred = c.nextCred := by
  unfold ChanSt.enter; split_ifs <;> rfl

@[simp] theorem ChanSt.enter_nonces (c : ChanSt) (e : EventEntry) : (c.enter e).nonces = c.nonces := by
  unfold ChanSt.enter; split_ifs <;> rfl

@[simp] theorem ChanSt.enter_staged (c : ChanSt) (e : EventEntry) : (c.enter e).staged = c.staged := by
  unfold ChanSt.enter; split_ifs <;> rfl

@[simp] theorem ChanSt.enter_report (c : ChanSt) (e : EventEntry) : (c.enter e).report = c.report := by
  unfold ChanSt.enter; split_ifs <;> rfl

@[simp] theorem ChanSt.enter_repOver (c : ChanSt) (e : EventEntry) : (c.enter e).repOver = c.repOver := by
  unfold ChanSt.enter; split_ifs <;> rfl

@[simp] theorem State.raise_mbx_waiting (s : State) (n a : Nat) : (s.raise n a).mbx.waiting = s.mbx.waiting := by
  rw [State.raise_mbx]

@[simp] theorem State.raise_mbx_forwards (s : State) (n a : Nat) : (s.raise n a).mbx.forwards = s.mbx.forwards := by
  rw [State.raise_mbx]

@[simp] theorem State.raise_mbx_arm (s : State) (n a : Nat) : (s.raise n a).mbx.arm = s.mbx.arm := by
  rw [State.raise_mbx]

@[simp] theorem State.raise_mbx_spiHeld (s : State) (n a : Nat) : (s.raise n a).mbx.spiHeld = s.mbx.spiHeld := by
  rw [State.raise_mbx]

@[simp] theorem State.raise_mbx_spiReject (s : State) (n a : Nat) : (s.raise n a).mbx.spiReject = s.mbx.spiReject := by
  rw [State.raise_mbx]

@[simp] theorem State.raise_mbx_i3cSel (s : State) (n a : Nat) : (s.raise n a).mbx.i3cSel = s.mbx.i3cSel := by
  rw [State.raise_mbx]

@[simp] theorem State.raise_mbx_bar0Req (s : State) (n a : Nat) : (s.raise n a).mbx.bar0Req = s.mbx.bar0Req := by
  rw [State.raise_mbx]

@[simp] theorem State.raise_mbx_bar0Busy (s : State) (n a : Nat) : (s.raise n a).mbx.bar0Busy = s.mbx.bar0Busy := by
  rw [State.raise_mbx]

@[simp] theorem State.raise_mbx_bar0Reply (s : State) (n a : Nat) : (s.raise n a).mbx.bar0Reply = s.mbx.bar0Reply := by
  rw [State.raise_mbx]

@[simp] theorem State.raise_mbx_usbReply (s : State) (n a : Nat) : (s.raise n a).mbx.usbReply = s.mbx.usbReply := by
  rw [State.raise_mbx]

@[simp] theorem State.raise_mbx_dbgHeld (s : State) (n a : Nat) : (s.raise n a).mbx.dbgHeld = s.mbx.dbgHeld := by
  rw [State.raise_mbx]

@[simp] theorem State.raise_mbx_dbgReject (s : State) (n a : Nat) : (s.raise n a).mbx.dbgReject = s.mbx.dbgReject := by
  rw [State.raise_mbx]

@[simp] theorem State.raise_mbx_tickHi (s : State) (n a : Nat) : (s.raise n a).mbx.tickHi = s.mbx.tickHi := by
  rw [State.raise_mbx]

@[simp] theorem State.raise_mbx_gate (s : State) (n a : Nat) : (s.raise n a).mbx.gate = s.mbx.gate := by
  rw [State.raise_mbx]

@[simp] theorem State.raise_mbx_unatt (s : State) (n a : Nat) : (s.raise n a).mbx.unatt = s.mbx.unatt := by
  rw [State.raise_mbx]

@[simp] theorem State.raise_mbx_sinceAttn (s : State) (n a : Nat) : (s.raise n a).mbx.sinceAttn = s.mbx.sinceAttn := by
  rw [State.raise_mbx]

@[simp] theorem State.raise_mbx_firstLocal (s : State) (n a : Nat) : (s.raise n a).mbx.firstLocal = s.mbx.firstLocal := by
  rw [State.raise_mbx]

@[simp] theorem State.raise_svc_on (s : State) (n a : Nat) : (s.raise n a).svc.on = s.svc.on := by
  rw [State.raise_svc]

@[simp] theorem State.raise_svc_cores (s : State) (n a : Nat) : (s.raise n a).svc.cores = s.svc.cores := by
  rw [State.raise_svc]

@[simp] theorem State.raise_svc_moves (s : State) (n a : Nat) : (s.raise n a).svc.moves = s.svc.moves := by
  rw [State.raise_svc]

@[simp] theorem State.raise_svc_staged (s : State) (n a : Nat) : (s.raise n a).svc.staged = s.svc.staged := by
  rw [State.raise_svc]

@[simp] theorem State.raise_svc_hidWoke (s : State) (n a : Nat) : (s.raise n a).svc.hidWoke = s.svc.hidWoke := by
  rw [State.raise_svc]

@[simp] theorem State.raise_svc_fleetMiss (s : State) (n a : Nat) : (s.raise n a).svc.fleetMiss = s.svc.fleetMiss := by
  rw [State.raise_svc]

@[simp] theorem State.raise_svc_reduced (s : State) (n a : Nat) : (s.raise n a).svc.reduced = s.svc.reduced := by
  rw [State.raise_svc]

@[simp] theorem State.raise_chan_stored (s : State) (n a : Nat) (c : Chan) : ((s.raise n a).chan c).stored = (s.chan c).stored := by
  cases c <;> simp [State.chan, State.raise_mbx]

@[simp] theorem State.raise_chan_last (s : State) (n a : Nat) (c : Chan) : ((s.raise n a).chan c).last = (s.chan c).last := by
  cases c <;> simp [State.chan, State.raise_mbx]

@[simp] theorem State.raise_chan_creds (s : State) (n a : Nat) (c : Chan) : ((s.raise n a).chan c).creds = (s.chan c).creds := by
  cases c <;> simp [State.chan, State.raise_mbx]

@[simp] theorem State.raise_chan_jobs (s : State) (n a : Nat) (c : Chan) : ((s.raise n a).chan c).jobs = (s.chan c).jobs := by
  cases c <;> simp [State.chan, State.raise_mbx]

@[simp] theorem State.raise_chan_nextJob (s : State) (n a : Nat) (c : Chan) : ((s.raise n a).chan c).nextJob = (s.chan c).nextJob := by
  cases c <;> simp [State.chan, State.raise_mbx]

@[simp] theorem State.raise_chan_mask (s : State) (n a : Nat) (c : Chan) : ((s.raise n a).chan c).mask = (s.chan c).mask := by
  cases c <;> simp [State.chan, State.raise_mbx]

@[simp] theorem State.raise_chan_seq (s : State) (n a : Nat) (c : Chan) : ((s.raise n a).chan c).seq = (s.chan c).seq := by
  cases c <;> simp [State.chan, State.raise_mbx]

@[simp] theorem State.raise_chan_nextCred (s : State) (n a : Nat) (c : Chan) : ((s.raise n a).chan c).nextCred = (s.chan c).nextCred := by
  cases c <;> simp [State.chan, State.raise_mbx]

@[simp] theorem State.raise_chan_nonces (s : State) (n a : Nat) (c : Chan) : ((s.raise n a).chan c).nonces = (s.chan c).nonces := by
  cases c <;> simp [State.chan, State.raise_mbx]

@[simp] theorem State.raise_chan_staged (s : State) (n a : Nat) (c : Chan) : ((s.raise n a).chan c).staged = (s.chan c).staged := by
  cases c <;> simp [State.chan, State.raise_mbx]

@[simp] theorem State.raise_chan_report (s : State) (n a : Nat) (c : Chan) : ((s.raise n a).chan c).report = (s.chan c).report := by
  cases c <;> simp [State.chan, State.raise_mbx]

@[simp] theorem State.raise_chan_repOver (s : State) (n a : Nat) (c : Chan) : ((s.raise n a).chan c).repOver = (s.chan c).repOver := by
  cases c <;> simp [State.chan, State.raise_mbx]

@[simp] theorem State.spore_chan (s : State) (k c : Nat) (p : List Byte) (x : Chan) : (s.spore k c p).chan x = s.chan x := by
  cases x <;> simp [State.chan]

@[simp] theorem State.emit_chan (s : State) (e : Emit) (x : Chan) : (s.emit e).chan x = s.chan x := by
  cases x <;> rfl

@[simp] theorem State.begin_chan (s : State) (x : Chan) : s.begin.chan x = s.chan x := by cases x <;> rfl

/-- An entry that a mailbox holds, another event does not take away. -/
theorem State.mem_queue_raise (s : State) (n a : Nat) (c : Chan) (e : EventEntry) (h : e ∈ (s.chan c).queue) :
    e ∈ ((s.raise n a).chan c).queue := by
  cases c <;> simp only [State.chan, State.raise_mbx] at h ⊢ <;> (try exact h) <;> unfold ChanSt.enter <;> split_ifs <;> simp [h]

/-- An event raised is heard (R54, R55). -/
theorem State.heard_raise (s : State) (n a : Nat) : Heard 1 s (s.raise n a) n a := by
  intro c hc hm hr
  have hr' : (s.chan c).queue.length < 255 := by omega
  cases c <;> simp only [mailboxes, List.mem_cons, reduceCtorEq, List.not_mem_nil, or_self, or_false, or_true] at hc <;>
    simp only [State.chan] at hm hr' <;>
    simp [State.chan, State.raise_mbx, ChanSt.enter, State.event, hm, hr']

/-! ### What the arrival of a request leaves -/

@[simp] theorem State.countLocal_mbx_waiting (s : State) (v : Via) : (s.countLocal v).mbx.waiting = s.mbx.waiting := by
  unfold State.countLocal; dsimp only; split_ifs <;> simp

@[simp] theorem State.countLocal_mbx_forwards (s : State) (v : Via) : (s.countLocal v).mbx.forwards = s.mbx.forwards := by
  unfold State.countLocal; dsimp only; split_ifs <;> simp

@[simp] theorem State.countLocal_mbx_arm (s : State) (v : Via) : (s.countLocal v).mbx.arm = s.mbx.arm := by
  unfold State.countLocal; dsimp only; split_ifs <;> simp

@[simp] theorem State.countLocal_mbx_spiHeld (s : State) (v : Via) : (s.countLocal v).mbx.spiHeld = s.mbx.spiHeld := by
  unfold State.countLocal; dsimp only; split_ifs <;> simp

@[simp] theorem State.countLocal_mbx_spiReject (s : State) (v : Via) : (s.countLocal v).mbx.spiReject = s.mbx.spiReject := by
  unfold State.countLocal; dsimp only; split_ifs <;> simp

@[simp] theorem State.countLocal_mbx_i3cSel (s : State) (v : Via) : (s.countLocal v).mbx.i3cSel = s.mbx.i3cSel := by
  unfold State.countLocal; dsimp only; split_ifs <;> simp

@[simp] theorem State.countLocal_mbx_bar0Req (s : State) (v : Via) : (s.countLocal v).mbx.bar0Req = s.mbx.bar0Req := by
  unfold State.countLocal; dsimp only; split_ifs <;> simp

@[simp] theorem State.countLocal_mbx_bar0Busy (s : State) (v : Via) : (s.countLocal v).mbx.bar0Busy = s.mbx.bar0Busy := by
  unfold State.countLocal; dsimp only; split_ifs <;> simp

@[simp] theorem State.countLocal_mbx_bar0Reply (s : State) (v : Via) : (s.countLocal v).mbx.bar0Reply = s.mbx.bar0Reply := by
  unfold State.countLocal; dsimp only; split_ifs <;> simp

@[simp] theorem State.countLocal_mbx_usbReply (s : State) (v : Via) : (s.countLocal v).mbx.usbReply = s.mbx.usbReply := by
  unfold State.countLocal; dsimp only; split_ifs <;> simp

@[simp] theorem State.countLocal_mbx_dbgHeld (s : State) (v : Via) : (s.countLocal v).mbx.dbgHeld = s.mbx.dbgHeld := by
  unfold State.countLocal; dsimp only; split_ifs <;> simp

@[simp] theorem State.countLocal_mbx_dbgReject (s : State) (v : Via) : (s.countLocal v).mbx.dbgReject = s.mbx.dbgReject := by
  unfold State.countLocal; dsimp only; split_ifs <;> simp

@[simp] theorem State.countLocal_mbx_tickHi (s : State) (v : Via) : (s.countLocal v).mbx.tickHi = s.mbx.tickHi := by
  unfold State.countLocal; dsimp only; split_ifs <;> simp

@[simp] theorem State.countLocal_mbx_gate (s : State) (v : Via) : (s.countLocal v).mbx.gate = s.mbx.gate := by
  unfold State.countLocal; dsimp only; split_ifs <;> simp

@[simp] theorem State.heard_mbx_waiting (row : CmdRow) (rq : Req) (s : State) : (s.heard row rq).mbx.waiting = s.mbx.waiting := by
  simp [State.heard]

@[simp] theorem State.heard_mbx_forwards (row : CmdRow) (rq : Req) (s : State) : (s.heard row rq).mbx.forwards = s.mbx.forwards := by
  simp [State.heard]

@[simp] theorem State.heard_mbx_arm (row : CmdRow) (rq : Req) (s : State) : (s.heard row rq).mbx.arm = s.mbx.arm := by
  simp [State.heard]

@[simp] theorem State.heard_mbx_spiHeld (row : CmdRow) (rq : Req) (s : State) : (s.heard row rq).mbx.spiHeld = s.mbx.spiHeld := by
  simp [State.heard]

@[simp] theorem State.heard_mbx_spiReject (row : CmdRow) (rq : Req) (s : State) : (s.heard row rq).mbx.spiReject = s.mbx.spiReject := by
  simp [State.heard]

@[simp] theorem State.heard_mbx_i3cSel (row : CmdRow) (rq : Req) (s : State) : (s.heard row rq).mbx.i3cSel = s.mbx.i3cSel := by
  simp [State.heard]

@[simp] theorem State.heard_mbx_bar0Req (row : CmdRow) (rq : Req) (s : State) : (s.heard row rq).mbx.bar0Req = s.mbx.bar0Req := by
  simp [State.heard]

@[simp] theorem State.heard_mbx_bar0Busy (row : CmdRow) (rq : Req) (s : State) : (s.heard row rq).mbx.bar0Busy = s.mbx.bar0Busy := by
  simp [State.heard]

@[simp] theorem State.heard_mbx_bar0Reply (row : CmdRow) (rq : Req) (s : State) : (s.heard row rq).mbx.bar0Reply = s.mbx.bar0Reply := by
  simp [State.heard]

@[simp] theorem State.heard_mbx_usbReply (row : CmdRow) (rq : Req) (s : State) : (s.heard row rq).mbx.usbReply = s.mbx.usbReply := by
  simp [State.heard]

@[simp] theorem State.heard_mbx_dbgHeld (row : CmdRow) (rq : Req) (s : State) : (s.heard row rq).mbx.dbgHeld = s.mbx.dbgHeld := by
  simp [State.heard]

@[simp] theorem State.heard_mbx_dbgReject (row : CmdRow) (rq : Req) (s : State) : (s.heard row rq).mbx.dbgReject = s.mbx.dbgReject := by
  simp [State.heard]

@[simp] theorem State.heard_mbx_tickHi (row : CmdRow) (rq : Req) (s : State) : (s.heard row rq).mbx.tickHi = s.mbx.tickHi := by
  simp [State.heard]

@[simp] theorem State.heard_mbx_gate (row : CmdRow) (rq : Req) (s : State) : (s.heard row rq).mbx.gate = s.mbx.gate := by
  simp [State.heard]

@[simp] theorem State.countLocal_svc_on (s : State) (v : Via) : (s.countLocal v).svc.on = s.svc.on := by
  unfold State.countLocal; dsimp only; split_ifs <;> simp

@[simp] theorem State.countLocal_svc_cores (s : State) (v : Via) : (s.countLocal v).svc.cores = s.svc.cores := by
  unfold State.countLocal; dsimp only; split_ifs <;> simp

@[simp] theorem State.countLocal_svc_moves (s : State) (v : Via) : (s.countLocal v).svc.moves = s.svc.moves := by
  unfold State.countLocal; dsimp only; split_ifs <;> simp

@[simp] theorem State.countLocal_svc_staged (s : State) (v : Via) : (s.countLocal v).svc.staged = s.svc.staged := by
  unfold State.countLocal; dsimp only; split_ifs <;> simp

@[simp] theorem State.countLocal_svc_hidWoke (s : State) (v : Via) : (s.countLocal v).svc.hidWoke = s.svc.hidWoke := by
  unfold State.countLocal; dsimp only; split_ifs <;> simp

@[simp] theorem State.countLocal_svc_fleetMiss (s : State) (v : Via) : (s.countLocal v).svc.fleetMiss = s.svc.fleetMiss := by
  unfold State.countLocal; dsimp only; split_ifs <;> simp

@[simp] theorem State.countLocal_svc_reduced (s : State) (v : Via) : (s.countLocal v).svc.reduced = s.svc.reduced := by
  unfold State.countLocal; dsimp only; split_ifs <;> simp

@[simp] theorem State.heard_svc_on (row : CmdRow) (rq : Req) (s : State) : (s.heard row rq).svc.on = s.svc.on := by
  simp [State.heard]

@[simp] theorem State.heard_svc_cores (row : CmdRow) (rq : Req) (s : State) : (s.heard row rq).svc.cores = s.svc.cores := by
  simp [State.heard]

@[simp] theorem State.heard_svc_moves (row : CmdRow) (rq : Req) (s : State) : (s.heard row rq).svc.moves = s.svc.moves := by
  simp [State.heard]

@[simp] theorem State.heard_svc_staged (row : CmdRow) (rq : Req) (s : State) : (s.heard row rq).svc.staged = s.svc.staged := by
  simp [State.heard]

@[simp] theorem State.heard_svc_hidWoke (row : CmdRow) (rq : Req) (s : State) : (s.heard row rq).svc.hidWoke = s.svc.hidWoke := by
  simp [State.heard]

@[simp] theorem State.heard_svc_fleetMiss (row : CmdRow) (rq : Req) (s : State) : (s.heard row rq).svc.fleetMiss = s.svc.fleetMiss := by
  simp [State.heard]

@[simp] theorem State.heard_svc_reduced (row : CmdRow) (rq : Req) (s : State) : (s.heard row rq).svc.reduced = s.svc.reduced := by
  simp [State.heard]

@[simp] theorem State.countLocal_chan_stored (s : State) (v : Via) (c : Chan) : ((s.countLocal v).chan c).stored = (s.chan c).stored := by
  unfold State.countLocal; dsimp only; split_ifs <;> cases c <;> simp [State.chan, State.raise_mbx]

@[simp] theorem State.countLocal_chan_last (s : State) (v : Via) (c : Chan) : ((s.countLocal v).chan c).last = (s.chan c).last := by
  unfold State.countLocal; dsimp only; split_ifs <;> cases c <;> simp [State.chan, State.raise_mbx]

@[simp] theorem State.countLocal_chan_creds (s : State) (v : Via) (c : Chan) : ((s.countLocal v).chan c).creds = (s.chan c).creds := by
  unfold State.countLocal; dsimp only; split_ifs <;> cases c <;> simp [State.chan, State.raise_mbx]

@[simp] theorem State.countLocal_chan_jobs (s : State) (v : Via) (c : Chan) : ((s.countLocal v).chan c).jobs = (s.chan c).jobs := by
  unfold State.countLocal; dsimp only; split_ifs <;> cases c <;> simp [State.chan, State.raise_mbx]

@[simp] theorem State.countLocal_chan_nextJob (s : State) (v : Via) (c : Chan) : ((s.countLocal v).chan c).nextJob = (s.chan c).nextJob := by
  unfold State.countLocal; dsimp only; split_ifs <;> cases c <;> simp [State.chan, State.raise_mbx]

@[simp] theorem State.countLocal_chan_mask (s : State) (v : Via) (c : Chan) : ((s.countLocal v).chan c).mask = (s.chan c).mask := by
  unfold State.countLocal; dsimp only; split_ifs <;> cases c <;> simp [State.chan, State.raise_mbx]

@[simp] theorem State.countLocal_chan_seq (s : State) (v : Via) (c : Chan) : ((s.countLocal v).chan c).seq = (s.chan c).seq := by
  unfold State.countLocal; dsimp only; split_ifs <;> cases c <;> simp [State.chan, State.raise_mbx]

@[simp] theorem State.countLocal_chan_nextCred (s : State) (v : Via) (c : Chan) : ((s.countLocal v).chan c).nextCred = (s.chan c).nextCred := by
  unfold State.countLocal; dsimp only; split_ifs <;> cases c <;> simp [State.chan, State.raise_mbx]

@[simp] theorem State.countLocal_chan_nonces (s : State) (v : Via) (c : Chan) : ((s.countLocal v).chan c).nonces = (s.chan c).nonces := by
  unfold State.countLocal; dsimp only; split_ifs <;> cases c <;> simp [State.chan, State.raise_mbx]

@[simp] theorem State.countLocal_chan_staged (s : State) (v : Via) (c : Chan) : ((s.countLocal v).chan c).staged = (s.chan c).staged := by
  unfold State.countLocal; dsimp only; split_ifs <;> cases c <;> simp [State.chan, State.raise_mbx]

@[simp] theorem State.countLocal_chan_report (s : State) (v : Via) (c : Chan) : ((s.countLocal v).chan c).report = (s.chan c).report := by
  unfold State.countLocal; dsimp only; split_ifs <;> cases c <;> simp [State.chan, State.raise_mbx]

@[simp] theorem State.countLocal_chan_repOver (s : State) (v : Via) (c : Chan) : ((s.countLocal v).chan c).repOver = (s.chan c).repOver := by
  unfold State.countLocal; dsimp only; split_ifs <;> cases c <;> simp [State.chan, State.raise_mbx]

@[simp] theorem State.heard_chan_stored (row : CmdRow) (rq : Req) (s : State) (c : Chan) : ((s.heard row rq).chan c).stored = (s.chan c).stored := by
  simp [State.heard]

@[simp] theorem State.heard_chan_last (row : CmdRow) (rq : Req) (s : State) (c : Chan) : ((s.heard row rq).chan c).last = (s.chan c).last := by
  simp [State.heard]

@[simp] theorem State.heard_chan_creds (row : CmdRow) (rq : Req) (s : State) (c : Chan) : ((s.heard row rq).chan c).creds = (s.chan c).creds := by
  simp [State.heard]

@[simp] theorem State.heard_chan_jobs (row : CmdRow) (rq : Req) (s : State) (c : Chan) : ((s.heard row rq).chan c).jobs = (s.chan c).jobs := by
  simp [State.heard]

@[simp] theorem State.heard_chan_nextJob (row : CmdRow) (rq : Req) (s : State) (c : Chan) : ((s.heard row rq).chan c).nextJob = (s.chan c).nextJob := by
  simp [State.heard]

@[simp] theorem State.heard_chan_mask (row : CmdRow) (rq : Req) (s : State) (c : Chan) : ((s.heard row rq).chan c).mask = (s.chan c).mask := by
  simp [State.heard]

@[simp] theorem State.heard_chan_seq (row : CmdRow) (rq : Req) (s : State) (c : Chan) : ((s.heard row rq).chan c).seq = (s.chan c).seq := by
  simp [State.heard]

@[simp] theorem State.heard_chan_nextCred (row : CmdRow) (rq : Req) (s : State) (c : Chan) : ((s.heard row rq).chan c).nextCred = (s.chan c).nextCred := by
  simp [State.heard]

@[simp] theorem State.heard_chan_nonces (row : CmdRow) (rq : Req) (s : State) (c : Chan) : ((s.heard row rq).chan c).nonces = (s.chan c).nonces := by
  simp [State.heard]

@[simp] theorem State.heard_chan_staged (row : CmdRow) (rq : Req) (s : State) (c : Chan) : ((s.heard row rq).chan c).staged = (s.chan c).staged := by
  simp [State.heard]

@[simp] theorem State.heard_chan_report (row : CmdRow) (rq : Req) (s : State) (c : Chan) : ((s.heard row rq).chan c).report = (s.chan c).report := by
  simp [State.heard]

@[simp] theorem State.heard_chan_repOver (row : CmdRow) (rq : Req) (s : State) (c : Chan) : ((s.heard row rq).chan c).repOver = (s.chan c).repOver := by
  simp [State.heard]

/-! ### Executing an admitted request -/

theorem insts_deliver_any (l : List InstSt) (e : EventEntry) (i : Nat) :
    ((l.map fun x => x.deliver e).any fun x => x.id == i && x.shipped) = l.any fun x => x.id == i && x.shipped := by
  induction l with
  | nil => rfl
  | cons x l ih =>
    rw [List.map_cons, List.any_cons, List.any_cons, ih]
    congr 1
    unfold InstSt.deliver
    split_ifs <;> rfl

@[simp] theorem State.baseLevel_raise (s : State) (n a : Nat) (v : Via) : (s.raise n a).baseLevel v = s.baseLevel v := by
  cases v <;> simp only [State.baseLevel, State.raise_svc, insts_deliver_any]

@[simp] theorem State.baseLevel_heard (row : CmdRow) (rq : Req) (s : State) (v : Via) :
    (s.heard row rq).baseLevel v = s.baseLevel v := by
  have h1 : ∀ (t : State) k c p, (t.spore k c p).baseLevel v = t.baseLevel v := fun t k c p => by
    cases v <;> simp [State.baseLevel]
  have h2 : ∀ w, (s.begin.countLocal w).baseLevel v = s.baseLevel v := fun w => by
    unfold State.countLocal
    dsimp only
    split_ifs
    · rw [State.baseLevel_raise]; cases v <;> rfl
    · cases v <;> rfl
    · cases v <;> rfl
  rw [State.heard, h1, h2]

@[simp] theorem State.reqLevel_heard (row : CmdRow) (rq : Req) (s : State) (q : Req) :
    (s.heard row rq).reqLevel q = s.reqLevel q := by
  have hc : ∀ c, (s.heard row rq).ceiling c = s.ceiling c := fun c => by cases c <;> simp [State.ceiling]
  simp only [State.reqLevel, State.baseLevel_heard, State.credOf, State.heard_chan_creds, hc]

/-- Table 22.7 on an admitted request: the body's answer on the state in which the request has been heard, settled and replied. -/
theorem command_run {row : CmdRow} {min : Nat} {rq : Req} {s : State} (h : Admitted row min rq s) (body : Nat → State → Ans) :
    command row min rq s body =
      let u := s.heard row rq
      let hd := (s.chan (viaChan rq.via)).freeHandle
      let a := if (body hd u).rc.bad then { body hd u with st := (body hd u).failSt.getD u }
        else if row.long && (body hd u).rc == .accepted && 8 ≤ (s.chan (viaChan rq.via)).jobs.length then u.turnedAway row rq .busy
        else body hd u
      .next ((if a.rc == .accepted && !a.noJob then a.st.addJob rq.via row.opcode hd a.plan else a.st).fwReply (msgOf rq row.opcode) a.rc
        (if a.rc == .accepted && !a.noJob then hd else 0) a.data) := by
  obtain ⟨l, hl, hle⟩ := h.level
  have hfree : ((s.heard row rq).chan (viaChan rq.via)).freeHandle = (s.chan (viaChan rq.via)).freeHandle := by
    simp only [ChanSt.freeHandle, State.heard_chan_jobs, State.heard_chan_nextJob]
  have hstart : (s.heard row rq).start row min rq body = (s.heard row rq).perform row min rq none body := by
    simp only [State.start, State.fwRuns_heard, h.runs, State.heard_pins, h.free, State.heard_mbx_waiting, h.idle, List.isEmpty_nil,
      Bool.not_true, Bool.or_self, Bool.false_eq_true, if_false]
  have hans : (s.heard row rq).answer row min rq 0 (s.chan (viaChan rq.via)).freeHandle body =
      (if (body (s.chan (viaChan rq.via)).freeHandle (s.heard row rq)).rc.bad then
        { body (s.chan (viaChan rq.via)).freeHandle (s.heard row rq) with
          st := (body (s.chan (viaChan rq.via)).freeHandle (s.heard row rq)).failSt.getD (s.heard row rq) }
        else if row.long && (body (s.chan (viaChan rq.via)).freeHandle (s.heard row rq)).rc == .accepted
            && 8 ≤ (s.chan (viaChan rq.via)).jobs.length then (s.heard row rq).turnedAway row rq .busy
        else body (s.chan (viaChan rq.via)).freeHandle (s.heard row rq)) := by
    simp only [State.answer, State.reqLevel_heard, hl, h.chans, Nat.not_lt.mpr hle, Nat.not_lt.mpr h.long, if_false,
      Bool.false_eq_true, State.heard_chan_jobs, Nat.add_zero]
  have hperf : (s.heard row rq).perform row min rq none body =
      let a := (s.heard row rq).answer row min rq 0 (s.chan (viaChan rq.via)).freeHandle body
      ((s.heard row rq).settle row rq (s.chan (viaChan rq.via)).freeHandle a).fwReply (msgOf rq row.opcode) a.rc
        (if a.rc == .accepted && !a.noJob then (s.chan (viaChan rq.via)).freeHandle else 0) a.data := by
    have hs := h.short
    simp only [State.perform, State.lifecycle_heard, h.open_, Nat.not_lt.mpr hs, h.here, hfree, h.act,
      if_false, Bool.false_eq_true, Nat.lt_irrefl, Bool.not_false, Bool.and_true, show ((0 : Nat) == 7) = false from rfl]
  have hset : ∀ a, (s.heard row rq).settle row rq (s.chan (viaChan rq.via)).freeHandle a =
      if a.rc == .accepted && !a.noJob then a.st.addJob rq.via row.opcode (s.chan (viaChan rq.via)).freeHandle a.plan else a.st := by
    intro a
    simp only [State.settle, h.act, Bool.false_eq_true, if_false]
  have hbody : ∀ u : State, u = s.heard row rq →
      (match (u.chan (viaChan rq.via)).stored with
        | some r =>
          if (u.chan (viaChan rq.via)).isLast (msgOf rq row.opcode) && reqHops rq == 0 then
            (u.holdReply rq.via r).emit (.reply rq.via r)
          else u.start row min rq body
        | none => u.start row min rq body) = (s.heard row rq).perform row min rq none body := by
    rintro u rfl
    have hn := h.new
    have hl : ((s.heard row rq).chan (viaChan rq.via)).isLast (msgOf rq row.opcode)
        = (s.chan (viaChan rq.via)).isLast (msgOf rq row.opcode) := by simp only [ChanSt.isLast, State.heard_chan_last]
    rw [State.heard_chan_stored, hl, ← hstart]
    split
    · rename_i r hr
      rw [hr] at hn
      simp only [Option.isSome_some, Bool.true_and] at hn
      simp [hn]
    · rfl
  have hcmd : command row min rq s body = .next ((s.heard row rq).perform row min rq none body) := by
    rw [← hbody _ rfl]
    have hp := h.awake
    have h1 := h.idle
    simp only [command, run, runIf, hp, if_true, State.begin_mbx, h1]
    rfl
  rw [hcmd, hperf]
  dsimp only
  rw [hans, hset]

@[simp] theorem State.setChan_chan_self (s : State) (c : Chan) (x : ChanSt) : (s.setChan c x).chan c = x := by cases c <;> rfl

@[simp] theorem State.modChan_chan_self (s : State) (c : Chan) (f : ChanSt → ChanSt) : (s.modChan c f).chan c = f (s.chan c) := by
  simp [State.modChan]

/-- A firmware reply is out and stored (R52, R53). -/
theorem State.fwReply_replied (s : State) (op : Nat) (rq : Req) (rc : Rc) (hd : Nat) (d : List Byte) :
    (s.fwReply (msgOf rq op) rc hd d).Replied rq rc hd d := by
  refine ⟨(s.reply rq.via rq.tag rc.code hd d).1, ?_, ?_, rfl, rfl, rfl, rfl⟩
  · simp [State.fwReply, msgOf]
  · simp [State.fwReply, State.reply, msgOf]

theorem Rc.bad_ok : Rc.bad .ok = false := by decide
theorem Rc.bad_accepted : Rc.bad .accepted = false := by decide
theorem Rc.ok_ne_accepted : (Rc.ok == Rc.accepted) = false := by decide

/-- A `.show` command is what its body shows. -/
theorem shows_of {c : Req → Instr} {row : CmdRow} {min : Nat} {ok : Req → State → Prop} {data : Req → State → List Byte}
    (body : Req → Nat → State → Ans) (hx : ∀ rq s, exec (c rq) s = command row min rq s (body rq))
    (hb : ∀ rq s, Admitted row min rq s → ok rq s →
      ∀ h, ∃ f v, body rq h (s.heard row rq) = ⟨s.heard row rq, .ok, data rq s, none, f, false, v⟩) :
    Shows c row min ok data := by
  intro rq s ha ho
  obtain ⟨f, v, hb⟩ := hb rq s ha ho (s.chan (viaChan rq.via)).freeHandle
  refine ⟨_, (hx rq s).trans (command_run ha _), ?_⟩
  simp only [hb, Rc.bad_ok, Rc.ok_ne_accepted, Bool.and_false, Bool.false_and, Bool.false_eq_true, if_false]
  exact ⟨by simp, State.fwReply_replied _ _ _ _ _ _⟩

/-- A command with an effect does what its body does. -/
theorem answers_of {c : Req → Instr} {row : CmdRow} {min : Nat} {ok : Req → State → Prop} {rc : Req → State → Rc}
    {eff : Req → State → State} {data : Req → State → List Byte} (body : Req → Nat → State → Ans)
    (hx : ∀ rq s, exec (c rq) s = command row min rq s (body rq)) (hrc : ∀ rq s, (rc rq s).bad = false)
    (hna : ∀ rq s, (rc rq s == Rc.accepted) = false)
    (hb : ∀ rq s, Admitted row min rq s → ok rq s →
      ∀ h, ∃ u f v, body rq h (s.heard row rq) = ⟨u, rc rq s, data rq s, none, f, false, v⟩ ∧ u.still = (eff rq s).still) :
    Answers c row min ok rc eff data := by
  intro rq s ha ho
  obtain ⟨u, f, v, hb, hu⟩ := hb rq s ha ho (s.chan (viaChan rq.via)).freeHandle
  refine ⟨_, (hx rq s).trans (command_run ha _), ?_⟩
  simp only [hb, hrc, hna, Bool.and_false, Bool.false_and, Bool.false_eq_true, if_false]
  exact ⟨by simp [hu], State.fwReply_replied _ _ _ _ _ _⟩

/-- The same with OK. -/
theorem does_of {c : Req → Instr} {row : CmdRow} {min : Nat} {ok : Req → State → Prop} {eff : Req → State → State}
    {data : Req → State → List Byte} (body : Req → Nat → State → Ans)
    (hx : ∀ rq s, exec (c rq) s = command row min rq s (body rq))
    (hb : ∀ rq s, Admitted row min rq s → ok rq s →
      ∀ h, ∃ u f v, body rq h (s.heard row rq) = ⟨u, .ok, data rq s, none, f, false, v⟩ ∧ u.still = (eff rq s).still) :
    Does c row min ok eff data :=
  answers_of body hx (fun _ _ => Rc.bad_ok) (fun _ _ => Rc.ok_ne_accepted) hb

/-- A command that fails changes nothing (R559). -/
theorem fails_of {c : Req → Instr} {row : CmdRow} {min : Nat} {ok : Req → State → Prop} {rc : Rc} (body : Req → Nat → State → Ans)
    (hx : ∀ rq s, exec (c rq) s = command row min rq s (body rq)) (hbad : rc.bad = true)
    (hb : ∀ rq s, Admitted row min rq s → ok rq s →
      ∀ h, ∃ u p v, body rq h (s.heard row rq) = ⟨u, rc, [], p, none, false, v⟩) :
    Fails c row min ok rc := by
  intro rq s ha ho
  obtain ⟨u, p, v, hb⟩ := hb rq s ha ho (s.chan (viaChan rq.via)).freeHandle
  refine ⟨_, (hx rq s).trans (command_run ha _), ?_⟩
  have hna : (rc == Rc.accepted) = false := by revert hbad; cases rc <;> decide
  simp only [hb, hbad, if_true, hna, Bool.false_and, Bool.false_eq_true, if_false, Option.getD_none]
  exact ⟨by simp, State.fwReply_replied _ _ _ _ _ _⟩

/-- A job entered: the same on states that agree on everything but delivery. -/
theorem State.still_addJob {u w : State} (h : u.still = w.still) (v : Via) (o hd : Nat) (p : Option (Nat × List Byte)) :
    (u.addJob v o hd p).still = (w.addJob v o hd p).still := by
  have key : ∀ x : State, (x.addJob v o hd p).still = (x.still).addJob v o hd p := fun x => by
    cases v <;> simp [State.addJob, State.modChan, State.setChan, State.chan, viaChan, State.still, State.hush, State.calm, MbxSt.hush,
      MbxSt.calm, ChanSt.hush, ChanSt.calm]
  rw [key, key, h]

/-- A long command starts as its body says. -/
theorem starts_of {c : Req → Instr} {row : CmdRow} {min : Nat} {ok : Req → State → Prop} {eff : Req → State → State}
    {plan : Req → State → Option (Nat × List Byte)} (body : Req → Nat → State → Ans)
    (hx : ∀ rq s, exec (c rq) s = command row min rq s (body rq))
    (hb : ∀ rq s, Admitted row min rq s → s.jobRoom rq → ok rq s →
      ∀ h, h = (s.chan (viaChan rq.via)).freeHandle →
        ∃ u f v, body rq h (s.heard row rq) = ⟨u, .accepted, [], plan rq s, f, false, v⟩ ∧ u.still = (eff rq s).still) :
    Starts c row min ok eff plan := by
  intro rq s ha hr ho
  obtain ⟨u, f, v, hb, hu⟩ := hb rq s ha hr ho (s.chan (viaChan rq.via)).freeHandle rfl
  refine ⟨_, (hx rq s).trans (command_run ha _), ?_⟩
  have hr' : ¬ 8 ≤ (s.chan (viaChan rq.via)).jobs.length := by unfold State.jobRoom at hr; omega
  simp only [hb, Rc.bad_accepted, hr', decide_false, Bool.and_false, Bool.false_eq_true, if_false, beq_self_eq_true, Bool.not_false,
    Bool.and_self, if_true]
  exact ⟨by rw [State.still_fwReply]; exact State.still_addJob hu _ _ _ _, State.fwReply_replied _ _ _ _ _ _⟩

end Sys2Proof.Machine
end

