-- ==== Sys2Proof/Laws/Run.lean ====
section
/-! SUPPORT. What `run` answers: an awake hub takes the effect on the state with an empty output list, a command of a domain that is on does
so too, and a command of the supply pins acts in every state. -/

namespace Sys2Proof.Machine

theorem runIf_live {b : Bool} {s : State} (h : b = true) (f : State → State) : runIf b s f = .next (f s.begin) := by
  simp [runIf, h]

/-- A command whose meaning is a `runIf` gives what its effect has, while its domain is on. -/
theorem gives_of_runIf {i : Instr} {b : Bool} {s : State} {f : State → State} {P : State → Prop} (hx : exec i s = runIf b s f)
    (hp : b = true) (h : P (f s.begin)) : Gives i s P :=
  ⟨f s.begin, hx.trans (runIf_live hp f), h⟩

/-- The same for a command of the hub's units. -/
theorem gives_of_run {i : Instr} {s : State} {f : State → State} {P : State → Prop} (hx : exec i s = run s f)
    (hp : s.awake = true) (h : P (f s.begin)) : Gives i s P := gives_of_runIf hx hp h

/-- The same for a command of the supply pins. -/
theorem gives_of_always {i : Instr} {s : State} {f : State → State} {P : State → Prop} (hx : exec i s = runAlways s f)
    (h : P (f s.begin)) : Gives i s P :=
  ⟨f s.begin, hx, h⟩

/-- An awake hub is powered, and its clock runs. -/
theorem State.powered_of_awake {s : State} (h : s.awake = true) : s.powered = true := by
  simp only [State.awake, Bool.and_eq_true] at h; exact h.1.1

/-- The same for what a slot of the tick does, in that slot while the timebase runs. -/
theorem gives_of_slot {i : Instr} {s : State} {k : Nat} {f : State → State} {P : State → Prop} (hx : exec i s = slotRun s k f)
    (ht : s.ticking) (hk : s.time.slot = k) (h : P (f s.begin)) : Gives i s P := by
  refine gives_of_run hx ht ?_
  have e2 : s.begin.toSlot k = s.begin := by
    unfold State.toSlot; rw [if_neg]; simp [hk]
  rw [e2]
  exact h

/-- The configuration in force and the rest of the state are as before the output list was emptied. -/
@[simp] theorem State.cv_begin (s : State) (f : FieldDef) : s.begin.cv f = s.cv f := State.cv_congr rfl rfl rfl f

@[simp] theorem State.cv_emit (s : State) (e : Emit) (f : FieldDef) : (s.emit e).cv f = s.cv f := State.cv_congr rfl rfl rfl f

@[simp] theorem State.cv_raise (s : State) (n a : Nat) (f : FieldDef) : (s.raise n a).cv f = s.cv f :=
  State.cv_congr (by simp) (by simp) (by simp) f

/-! ### Events heard -/

/-- An event raised last is heard, where what came before has put at most `k - 1` entries into a queue. -/
theorem heard_raise_of {k : Nat} {s u : State} {n a : Nat} (ht : u.time.tick = s.time.tick) (hs : u.time.slot = s.time.slot)
    (h : ∀ c, (u.chan c).mask = (s.chan c).mask ∧ (u.chan c).queue.length + 1 ≤ (s.chan c).queue.length + k) :
    Heard k s (u.raise n a) n a := by
  intro c hc hm hr
  obtain ⟨h1, h2⟩ := h c
  have := State.heard_raise u n a c hc (by rw [h1]; exact hm) (by omega)
  simpa only [State.event, ht, hs] using this

/-- The same where nothing has been entered before. -/
theorem heard_raise_mbx {s u : State} {n a : Nat} (ht : u.time.tick = s.time.tick) (hs : u.time.slot = s.time.slot)
    (hm : u.mbx = s.mbx) : Heard 1 s (u.raise n a) n a :=
  heard_raise_of ht hs fun c => by cases c <;> simp [State.chan, hm]

/-- What leaves the mailboxes alone leaves the entry. -/
theorem Heard.of_mbx {k : Nat} {s u t : State} {n a : Nat} (h : Heard k s u n a) (hm : t.mbx = u.mbx) : Heard k s t n a := by
  intro c hc h1 h2
  have := h c hc h1 h2
  cases c <;> simpa only [State.chan, hm] using this

/-- Another event leaves the entry. -/
theorem Heard.raise {k : Nat} {s u : State} {n a : Nat} (h : Heard k s u n a) (n' a' : Nat) : Heard k s (u.raise n' a') n a :=
  fun c hc h1 h2 => State.mem_queue_raise _ _ _ _ _ (h c hc h1 h2)

theorem Heard.raiseIf {k : Nat} {s u : State} {n a : Nat} (h : Heard k s u n a) (b : Bool) (n' a' : Nat) :
    Heard k s (u.raiseIf b n' a') n a := by
  unfold State.raiseIf; split_ifs
  · exact h.raise n' a'
  · exact h

/-- One event enters at most one entry. -/
theorem ChanSt.enter_length (c : ChanSt) (e : EventEntry) : (c.enter e).queue.length ≤ c.queue.length + 1 := by
  unfold ChanSt.enter; split_ifs <;> simp

theorem State.raise_length (s : State) (n a : Nat) (c : Chan) :
    ((s.raise n a).chan c).queue.length ≤ (s.chan c).queue.length + 1 := by
  cases c <;> simp only [State.chan, State.raise_mbx] <;> first | exact ChanSt.enter_length _ _ | omega

end Sys2Proof.Machine
end

