-- ==== Sys2Proof/Laws/Access.lean ====
section
/-! SUPPORT. Reading an indexed part of the state after an update of it: ports, lanes, links and training states. -/

namespace Sys2Proof.Machine

/-- What an update of one entry leaves alone is read as before, whichever entry is read. -/
theorem nth_modify_congr {α β : Type} (φ : α → β) (f : α → α) (h : ∀ a, φ (f a) = φ a) (l : List α) (i j : Nat) (d : α) :
    φ (nth (l.modify i f) j d) = φ (nth l j d) := by
  simp only [nth, List.getD_eq_getElem?_getD, List.getElem?_modify]
  cases l[j]? with
  | none => rfl
  | some a => simp only [Option.map_eq_map, Option.map_some, Option.getD_some]; split_ifs <;> simp [h]

/-- An entry that is there is read as updated. -/
theorem nth_modify_same {α : Type} (f : α → α) (l : List α) (i : Nat) (d : α) (h : i < l.length) :
    nth (l.modify i f) i d = f (nth l i d) := by
  simp [nth, List.getD_eq_getElem?_getD, List.getElem?_modify, h]

/-- Another entry is read as before. -/
theorem nth_modify_ne {α : Type} (f : α → α) (l : List α) (i j : Nat) (d : α) (h : i ≠ j) : nth (l.modify i f) j d = nth l j d := by
  simp [nth, List.getD_eq_getElem?_getD, List.getElem?_modify, h]

/-- An entry that differs from the default is there. -/
theorem lt_of_nth_ne {α : Type} {l : List α} {i : Nat} {d : α} (h : nth l i d ≠ d) : i < l.length := by
  by_contra hc
  exact h (by simp [nth, List.getD_eq_getElem?_getD, List.getElem?_eq_none (by omega : l.length ≤ i)])

theorem State.link_setLink_congr {β : Type} (φ : LinkSt → β) (f : LinkSt → LinkSt) (h : ∀ l, φ (f l) = φ l) (s : State) (p q : Nat) :
    φ ((s.setLink p f).link q) = φ (s.link q) := nth_modify_congr φ f h _ _ _ _

theorem State.link_setLink (f : LinkSt → LinkSt) (s : State) (p : Nat) (h : p < s.cable.links.length) :
    (s.setLink p f).link p = f (s.link p) := nth_modify_same f _ _ _ h

theorem State.cpx_setCpx_congr {β : Type} (φ : CpxSt → β) (f : CpxSt → CpxSt) (h : ∀ l, φ (f l) = φ l) (s : State) (p q : Nat) :
    φ ((s.setCpx p f).cpx q) = φ (s.cpx q) := nth_modify_congr φ f h _ _ _ _

theorem State.lane_setLane_congr {β : Type} (φ : LaneSt → β) (f : LaneSt → LaneSt) (h : ∀ l, φ (f l) = φ l) (s : State)
    (p k q j : Nat) : φ ((s.setLane p k f).lane q j) = φ (s.lane q j) := by
  unfold State.setLane State.lane State.setCpx State.cpx
  exact nth_modify_congr (fun c : CpxSt => φ (nth c.lanes j .init)) _ (fun c => nth_modify_congr φ f h c.lanes k j .init) s.cable.cpx p q
    .init

/-- A flow of a port after an update of the flow with that label. -/
theorem LinkSt.flow_setFlow (l : LinkSt) (label : Nat) (f : FlowSt → FlowSt) (h : ∀ x, (f x).label = x.label) :
    (l.setFlow label f).flow label = (l.flow label).map f := by
  show List.find? (fun y : FlowSt => y.label == label) (l.flows.map fun x => if x.label == label then f x else x) = _
  unfold LinkSt.flow
  induction l.flows with
  | nil => rfl
  | cons a t ih =>
    rw [List.map_cons, List.find?_cons, List.find?_cons]
    by_cases ha : a.label = label
    · simp [ha, h]
    · have hb : (a.label == label) = false := by simpa using ha
      simp only [hb, Bool.false_eq_true, if_false, ih]

/-- The entries of a port's path table after an update of its flows. -/
@[simp] theorem LinkSt.entry_setFlow (l : LinkSt) (label k : Nat) (f : FlowSt → FlowSt) : (l.setFlow label f).entry k = l.entry k := rfl

end Sys2Proof.Machine
end

