-- ==== Sys2Proof/Laws/Memory.lean ====
section
/-! SUPPORT. The memory: every operation keeps its canonical form, a byte written is read back, and every other byte is as before. -/

namespace Sys2Proof.Machine

/-- The canonical form, said at once: entries rise strictly and none is what an unlisted address reads as. -/
theorem memWf_iff (m : List Host.Cell) : memWf m = true ↔ m.Pairwise (fun x y => x.1 < y.1) ∧ ∀ c ∈ m, c.2 ≠ 0 := by
  induction m with
  | nil => simp [memWf]
  | cons c rest ih =>
    obtain ⟨a, b⟩ := c
    cases rest with
    | nil => simp [memWf]
    | cons d rest =>
      obtain ⟨a', b'⟩ := d
      rw [memWf, Bool.and_eq_true, Bool.and_eq_true, ih]
      simp only [bne_iff_ne, ne_eq, decide_eq_true_eq]
      constructor
      · rintro ⟨⟨h1, h2⟩, h3, h4⟩
        refine ⟨List.pairwise_cons.mpr ⟨fun x hx => ?_, h3⟩, List.forall_mem_cons.mpr ⟨h1, h4⟩⟩
        rcases List.mem_cons.mp hx with rfl | hx
        · exact h2
        · exact lt_trans h2 ((List.pairwise_cons.mp h3).1 x hx)
      · rintro ⟨h1, h2⟩
        have h1 := List.pairwise_cons.mp h1
        exact ⟨⟨(List.forall_mem_cons.mp h2).1, h1.1 _ (List.mem_cons_self ..)⟩, h1.2, (List.forall_mem_cons.mp h2).2⟩

/-- An address below every entry reads 0. -/
theorem memRead_below {m : List Host.Cell} {a : Nat} (h : ∀ c ∈ m, a < c.1) : memRead m a = 0 := by
  induction m with
  | nil => rfl
  | cons c rest ih =>
    obtain ⟨k, b⟩ := c
    have hk : a < k := h _ (List.mem_cons_self ..)
    rw [memRead, if_neg (by simp; omega), ih fun c hc => h c (List.mem_cons_of_mem _ hc)]

/-- An entry of a written memory is the written one or was there. -/
theorem mem_memWrite {m : List Host.Cell} {a : Nat} {v : Byte} {c : Host.Cell} (h : c ∈ memWrite m a v) :
    (c = (a, v) ∧ v ≠ 0) ∨ c ∈ m := by
  induction m with
  | nil =>
    rw [memWrite] at h
    split_ifs at h with hv
    · cases h
    · exact .inl ⟨by simpa using h, by simpa using hv⟩
  | cons d rest ih =>
    obtain ⟨k, b⟩ := d
    rw [memWrite] at h
    split_ifs at h with h1 h2 h3 h4
    · rcases List.mem_cons.mp h with h | h
      · exact .inr (h ▸ List.mem_cons_self ..)
      · exact (ih h).imp_right (List.mem_cons_of_mem _)
    · exact .inr (List.mem_cons_of_mem _ h)
    · rcases List.mem_cons.mp h with h | h
      · exact .inl ⟨h, by simpa using h3⟩
      · exact .inr (List.mem_cons_of_mem _ h)
    · exact .inr h
    · rcases List.mem_cons.mp h with h | h
      · exact .inl ⟨h, by simpa using h4⟩
      · exact .inr h

theorem memWf_memWrite {m : List Host.Cell} (h : memWf m = true) (a : Nat) (v : Byte) : memWf (memWrite m a v) = true := by
  rw [memWf_iff] at h ⊢
  refine ⟨?_, fun c hc => ?_⟩
  · induction m with
    | nil => rw [memWrite]; split_ifs <;> simp
    | cons d rest ih =>
      obtain ⟨k, b⟩ := d
      have hp := List.pairwise_cons.mp h.1
      have hr : rest.Pairwise (fun x y => x.1 < y.1) ∧ ∀ c ∈ rest, c.2 ≠ 0 := ⟨hp.2, fun c hc => h.2 c (List.mem_cons_of_mem _ hc)⟩
      rw [memWrite]
      split_ifs with h1 h2 h3 h4
      · refine List.pairwise_cons.mpr ⟨fun c hc => ?_, ih hr⟩
        rcases mem_memWrite hc with ⟨rfl, -⟩ | hc
        · exact h1
        · exact hp.1 c hc
      · exact hp.2
      · refine List.pairwise_cons.mpr ⟨fun c hc => ?_, hp.2⟩
        have : k = a := by simpa using h2
        exact this ▸ hp.1 c hc
      · exact h.1
      · have hk : a < k := by have : k ≠ a := by simpa using h2
                              omega
        refine List.pairwise_cons.mpr ⟨fun c hc => ?_, h.1⟩
        rcases List.mem_cons.mp hc with rfl | hc
        · exact hk
        · exact lt_trans hk (hp.1 c hc)
  · rcases mem_memWrite hc with ⟨rfl, hv⟩ | hc
    · exact hv
    · exact h.2 c hc

/-- A byte written is read back, and every other byte is as before. -/
theorem memRead_memWrite {m : List Host.Cell} (h : memWf m = true) (a : Nat) (v : Byte) (x : Nat) :
    memRead (memWrite m a v) x = if x = a then v else memRead m x := by
  rw [memWf_iff] at h
  induction m with
  | nil =>
    rw [memWrite]
    split_ifs with hv hx hx
    · simp [memRead, (by simpa using hv : v = 0)]
    · rfl
    · simp [memRead, hx]
    · simp [memRead, Ne.symm hx]
  | cons d rest ih =>
    obtain ⟨k, b⟩ := d
    have hp := List.pairwise_cons.mp h.1
    have hr : rest.Pairwise (fun x y => x.1 < y.1) ∧ ∀ c ∈ rest, c.2 ≠ 0 := ⟨hp.2, fun c hc => h.2 c (List.mem_cons_of_mem _ hc)⟩
    rw [memWrite]
    by_cases h1 : k < a
    · rw [if_pos h1, memRead, memRead, ih hr]
      by_cases hk : k = x
      · have : x ≠ a := by omega
        simp [hk, this]
      · simp [hk]
    · rw [if_neg h1]
      by_cases h2 : k = a
      · subst h2
        rw [if_pos (by simp)]
        by_cases hx : x = k
        · subst hx
          rw [if_pos (Eq.refl x)]
          split_ifs with hv
          · rw [memRead_below hp.1]; exact (by simpa using hv : v = 0).symm
          · simp [memRead]
        · rw [if_neg hx]
          split_ifs <;> simp [memRead, Ne.symm hx]
      · rw [if_neg (by simpa using h2)]
        have hk : a < k := by omega
        have hb : ∀ c ∈ (k, b) :: rest, a < c.1 := by
          intro c hc
          rcases List.mem_cons.mp hc with rfl | hc
          · exact hk
          · exact lt_trans hk (hp.1 c hc)
        by_cases hx : x = a
        · subst hx
          rw [if_pos (Eq.refl x)]
          split_ifs with hv
          · rw [memRead_below hb]; exact (by simpa using hv : v = 0).symm
          · simp [memRead]
        · rw [if_neg hx]
          split_ifs with hv
          · rfl
          · simp only [memRead]; simp [Ne.symm hx]

theorem memWf_memWrites {m : List Host.Cell} (h : memWf m = true) (a : Nat) (bs : List Byte) : memWf (memWrites m a bs) = true := by
  induction bs generalizing m a with
  | nil => exact h
  | cons b bs ih => exact ih (memWf_memWrite h a b) (a + 1)

/-- Bytes outside those written are as before. -/
theorem memRead_memWrites_out {m : List Host.Cell} (h : memWf m = true) (a : Nat) (bs : List Byte) (x : Nat)
    (hx : x < a ∨ a + bs.length ≤ x) : memRead (memWrites m a bs) x = memRead m x := by
  induction bs generalizing m a with
  | nil => rfl
  | cons b bs ih =>
    simp only [List.length_cons] at hx
    have : x ≠ a := by omega
    rw [memWrites, ih (memWf_memWrite h a b) (a + 1) (by omega), memRead_memWrite h, if_neg this]

/-- Each byte written is read back. -/
theorem memRead_memWrites {m : List Host.Cell} (h : memWf m = true) (a : Nat) (bs : List Byte) (i : Nat) (hi : i < bs.length) :
    memRead (memWrites m a bs) (a + i) = bs[i] := by
  induction bs generalizing m a i with
  | nil => cases hi
  | cons b bs ih =>
    rw [memWrites]
    cases i with
    | zero =>
      rw [memRead_memWrites_out (memWf_memWrite h a b) _ _ _ (by omega), memRead_memWrite h, if_pos (by omega)]
      rfl
    | succ i =>
      rw [show a + (i + 1) = a + 1 + i by omega, ih (memWf_memWrite h a b) (a + 1) i (by simpa using hi)]
      rfl

theorem memWf_memClear {m : List Host.Cell} (h : memWf m = true) (lo hi : Nat) : memWf (memClear m lo hi) = true := by
  rw [memWf_iff] at h ⊢
  exact ⟨h.1.filter _, fun c hc => h.2 c (List.mem_filter.mp hc).1⟩

/-- Any part of a canonical memory that keeps its order is canonical. -/
theorem memWf_filter {m : List Host.Cell} (h : memWf m = true) (p : Host.Cell → Bool) : memWf (m.filter p) = true := by
  rw [memWf_iff] at h ⊢
  exact ⟨h.1.filter _, fun c hc => h.2 c (List.mem_filter.mp hc).1⟩

theorem reset_memInv : State.reset.MemInv := rfl

end Sys2Proof.Machine
end

