-- ==== Sys2Proof/WellFormed.lean ====
section
/-! DEFINITION. Which commands are well formed: every operand that names a unit of the hub names one that there is. The block answers an
ill-formed command too (it has no such unit to act on); a sender that follows the spec sends none. -/

namespace Sys2Proof

/-- A request: its LENGTH is a 16-bit field, and PEER has the two cable ports (R48, Table 3.3). -/
def reqOk (rq : Req) : Bool := rq.payload.length ≤ 65535 && (match rq.via with | .peer p => p ≤ 1 | _ => true)

/-- A cable port, CP0 or CP1 (Table 1.1). -/
def portOk (p : Nat) : Bool := p ≤ 1

/-- One of the four lanes of a cable (spec/05). -/
def laneOk (k : Nat) : Bool := k ≤ 3

/-- A display transceiver, DPX0 to DPX3 (Table 1.1). -/
def dpxOk (k : Nat) : Bool := k ≤ 3

/-- A configuration channel, CC0 to CC5 (R408, Table 16.1). -/
def ccOk (k : Nat) : Bool := k ≤ 5

/-- A VBUS switch, one for each configuration channel. -/
def vbusOk (k : Nat) : Bool := k ≤ 5

/-- A feed, FEED0 or FEED1 (spec/17). -/
def feedOk (n : Nat) : Bool := n ≤ 1

/-- A bay, BAY0 to BAY3 (spec/17). -/
def bayOk (b : Nat) : Bool := b ≤ 3

/-- A MAC, MAC0 or MAC1. -/
def macOk (m : Nat) : Bool := m ≤ 1

/-- A transmit queue of the network function (Table 12.3). -/
def queueOk (q : Nat) : Bool := q ≤ 7

/-- A fan, FAN0 to FAN3. -/
def fanOk (f : Nat) : Bool := f ≤ 3

/-- A UART, UART0 or UART1. -/
def uartOk (u : Nat) : Bool := u ≤ 1

/-- An interface of a sideband destination: a field of 4 bits (Table 13.2). -/
def sbIfOk (i : Nat) : Bool := i ≤ 15

/-- A local interrupt source; bits 24 to 31 of the pending word are the other hubs' lines (R355, R357). -/
def irqSourceOk (n : Nat) : Bool := n ≤ 23

/-- An interrupt line of another hub (R357). -/
def irqLineOk (n : Nat) : Bool := n ≤ 7

/-- A level or a direction. -/
def bitOk (n : Nat) : Bool := n ≤ 1

/-- One of the twelve switch ports (Table 1.1). -/
def switchPortOk (p : Nat) : Bool := p ≤ 11

/-- A traffic class. -/
def tcOk (t : Nat) : Bool := t ≤ 7

/-- A slot of the tick, of 250 (spec/02). -/
def slotOk (n : Nat) : Bool := n ≤ 249

/-- A physical PCI Express link: the upstream one or one of four downstream. -/
def pcLinkOk (k : Nat) : Bool := k ≤ 4

/-- A DOWNSTREAM port, DP0 to DP3 (spec/10). -/
def dportOk (d : Nat) : Bool := d ≤ 3

/-- A port of the downstream USB hub. -/
def usbPortOk (k : Nat) : Bool := 1 ≤ k && k ≤ 4

/-- An adapter: DPA0 to DPA3, PCIE, USB, NET (Table 22.3). -/
def adapterOk (k : Nat) : Bool := k ≤ 6

/-- A master of the interconnect, M0 to M15 (Table 14.2). -/
def masterOk (m : Nat) : Bool := m ≤ 15

/-- An access: read, write or fetch (Table 19.8b). -/
def accessKindOk (k : Nat) : Bool := k ≤ 2

/-- The bytes of one access (log entry 38). -/
def sizeOk (n : Nat) : Bool := [1, 2, 4, 8, 16, 32, 64].contains n

/-- A service core, of eight (spec/15). -/
def coreOk (k : Nat) : Bool := k ≤ 7

/-- An instance: its identifier is a 16-bit field (Table 15.5). -/
def instOk (i : Nat) : Bool := i ≤ 65535

/-- A wake source, a bit of WAKE_MASK (Table 18.8). -/
def wakeOk (n : Nat) : Bool := n ≤ 8

/-- An LPDDR channel, of four (R368). -/
def memChannelOk (c : Nat) : Bool := c ≤ 3

/-- An operation of the debug access port: read, write, halt or resume. -/
def jtagOpOk (n : Nat) : Bool := n ≤ 3

/-- A command whose operands all name what there is. -/
def Instr.wf (c : Instr) : Bool :=
  match c with
  | .powerOnReset _ _ => true
  | .porstFall => true
  | .railDeadlineMiss => true
  | .railRestart => true
  | .systemReset => true
  | .mgmtFirmwareReady => true
  | .lpddrTrainingDone _ _ _ _ => true
  | .managementCoreReset _ => true
  | .deferredReset => true
  | .lockstepFault => true
  | .mgtWatchdogTimeout => true
  | .mgtTrap => true
  | .pwrseqFault => true
  | .physeqFault port => portOk port
  | .coreBrownout => true
  | .thermalTrip => true
  | .thermalRecovery => true
  | .spiWriteRequestFrame _ => true
  | .spiReadReplyFrame => true
  | .spiWindowReadFrame _ _ => true
  | .resetCtlSystemReset _ => true
  | .resetCtlMgmtCoreReset _ => true
  | .registerWrite _ _ _ => true
  | .i3cPrivateWrite _ => true
  | .i3cPrivateRead => true
  | .submit => true
  | .release => true
  | .usbMbxBulkOut _ _ => true
  | .usbMbxBulkIn _ => true
  | .usbVendorStatus => true
  | .usbVendorWindowRead _ _ => true
  | .usbVendorWindowWrite _ _ => true
  | .jtagDbgMbx _ => true
  | .peerMessage port _ => portOk port
  | .forwardedReply port _ => portOk port
  | .forwardTimeout port _ => portOk port
  | .mbxReplyBackstop _ => true
  | .longCommandFinish _ _ _ => true
  | .completionHandleLapse _ _ => true
  | .credIdleLapse _ _ => true
  | .watchdogExpiry => true
  | .function7Reset _ => true
  | .adapterEndDeferredApply adapter => adapterOk adapter
  | .sysPing rq => reqOk rq
  | .sysEventRead rq => reqOk rq
  | .sysEventMask rq => reqOk rq
  | .sysCmdResult rq => reqOk rq
  | .sysCredChallenge rq => reqOk rq
  | .sysCredOpen rq => reqOk rq
  | .sysCredClose rq => reqOk rq
  | .sysTopoShow rq => reqOk rq
  | .sysTimeShow rq => reqOk rq
  | .sysFaultShow rq => reqOk rq
  | .sysFaultClear rq => reqOk rq
  | .sysReset rq => reqOk rq
  | .cfgRecordStage rq => reqOk rq
  | .cfgRecordApply rq => reqOk rq
  | .cfgRecordShow rq => reqOk rq
  | .cfgReportShow rq => reqOk rq
  | .cfgOverrideClear rq => reqOk rq
  | .cfgStoreCommit rq => reqOk rq
  | .cfgStoreCommitDone _ => true
  | .cfgStoreShow rq => reqOk rq
  | .tickBoundary _ _ _ _ _ => true
  | .demandFreeze => true
  | .lanePlanStart => true
  | .localPlanStart => true
  | .tickCellSend => true
  | .tickCellDeadline => true
  | .localPlanDeadline => true
  | .timeSyncTimeout port => portOk port
  | .timebasePhaseStep => true
  | .refclkLossDetect => true
  | .holdoverExpiry => true
  | .refclkRestored => true
  | .laneTrainingStart port => portOk port
  | .trainingStepEnd port _ _ => portOk port
  | .trainingRestartDelay port => portOk port
  | .floorRetrain port => portOk port
  | .turnaround port lane _ => portOk port && laneOk lane
  | .sosWindowMiss port lane _ => portOk port && laneOk lane
  | .l1xComplete port lane _ => portOk port && laneOk lane
  | .recalTrigger port lane _ => portOk port && laneOk lane
  | .recalDeferExpiry port lane => portOk port && laneOk lane
  | .recalStepEnd port lane _ => portOk port && laneOk lane
  | .laneRestoreRetry port => portOk port
  | .signalLoss port => portOk port
  | .prbsTestEnd port lane _ => portOk port && laneOk lane
  | .linkLaneShow rq => reqOk rq
  | .linkLanePrbs rq => reqOk rq
  | .linkLaneInject rq => reqOk rq
  | .linkLaneRecal rq => reqOk rq
  | .linkLaneRetire rq => reqOk rq
  | .linkLaneRestore rq => reqOk rq
  | .linkLaneClear rq => reqOk rq
  | .cellReceive port lane _ _ _ _ _ => portOk port && laneOk lane
  | .coachReceive port lane _ => portOk port && laneOk lane
  | .creditCell port _ => portOk port
  | .tickCell port _ => portOk port
  | .demandCell port _ => portOk port
  | .timeSyncCell port _ lane _ _ _ _ _ => portOk port && laneOk lane
  | .hello port _ => portOk port
  | .elect port _ _ => portOk port
  | .keyInit port _ => portOk port
  | .keyResp port _ => portOk port
  | .keyFinish port _ => portOk port
  | .keyAgreementTimeout port => portOk port
  | .keyRotationStart port => portOk port
  | .keyNext port dir _ _ => portOk port && bitOk dir
  | .keyNextAck port dir _ => portOk port && bitOk dir
  | .keyEffectiveTick port => portOk port
  | .keyIndexRetire port => portOk port
  | .pathSetup port _ _ tc _ _ _ _ _ => portOk port && tcOk tc
  | .pathAck port _ _ _ => portOk port
  | .pathNack port _ _ => portOk port
  | .pathTeardown port _ => portOk port
  | .laneNotice port lane _ _ => portOk port && laneOk lane
  | .masterQuery port => portOk port
  | .linkClose port _ => portOk port
  | .chainNotice port _ => portOk port
  | .linkCtrlUnknown port => portOk port
  | .gapTimeout port _ => portOk port
  | .replayTimeout port _ => portOk port
  | .linkTTimeout port => portOk port
  | .bringupRestart port => portOk port
  | .masterLossTimeout port => portOk port
  | .masterQueryTimeout port => portOk port
  | .pathHoldExpiry port => portOk port
  | .pathSetupTimeout port _ => portOk port
  | .linkShow rq => reqOk rq
  | .linkPlanShow rq => reqOk rq
  | .linkRekey rq => reqOk rq
  | .linkReset rq => reqOk rq
  | .pathOpen rq => reqOk rq
  | .pathClose rq => reqOk rq
  | .pathShow rq => reqOk rq
  | .localCellOffer port _ _ => switchPortOk port
  | .cellTimeMatch slot _ _ _ _ => slotOk slot
  | .voqStarve inp outp tc => switchPortOk inp && switchPortOk outp && tcOk tc
  | .planSwitchShow rq => reqOk rq
  | .planSwitchPortShow rq => reqOk rq
  | .planSwitchVoqShow rq => reqOk rq
  | .planSwitchClear rq => reqOk rq
  | .plannerRefresh => true
  | .plannerRefreshLapse => true
  | .plannerHoldExpiry => true
  | .planShow rq => reqOk rq
  | .planBudgetShow rq => reqOk rq
  | .planBudgetSet rq => reqOk rq
  | .planContractSet rq => reqOk rq
  | .planContractClear rq => reqOk rq
  | .planContractShow rq => reqOk rq
  | .planShaperSet rq => reqOk rq
  | .planSampleShow rq => reqOk rq
  | .planCostShow rq => reqOk rq
  | .sinkLinkTraining dpx _ _ => dpxOk dpx
  | .captureLine dpx _ _ _ _ _ _ _ => dpxOk dpx
  | .panelHpdChange dpx _ _ _ _ _ _ _ => dpxOk dpx
  | .panelHpdLossTimeout dpx => dpxOk dpx
  | .chunkReceive _ _ _ => true
  | .frameStart _ => true
  | .lineDue _ _ _ _ _ => true
  | .auxTransaction dpx _ _ _ _ _ => dpxOk dpx
  | .auxReq dpx _ _ _ _ _ => dpxOk dpx
  | .auxRep dpx _ _ _ => dpxOk dpx
  | .mirror dpx _ _ _ => dpxOk dpx
  | .hpd dpx _ _ _ => dpxOk dpx
  | .skipReq dpx _ _ _ => dpxOk dpx
  | .controlAck dpx _ => dpxOk dpx
  | .controlResendTimeout dpx _ => dpxOk dpx
  | .auxFwdTimeout dpx => dpxOk dpx
  | .holdGapExpiry _ => true
  | .holdMaxExpiry _ => true
  | .dispShow rq => reqOk rq
  | .dispStreamOpen rq => reqOk rq
  | .dispStreamClose rq => reqOk rq
  | .dispStreamShow rq => reqOk rq
  | .dispHoldOverlay rq => reqOk rq
  | .dispHoldEnter rq => reqOk rq
  | .dispPairSet rq => reqOk rq
  | .dispAuxXfer rq => reqOk rq
  | .dispClear rq => reqOk rq
  | .configRequest _ _ _ _ _ => true
  | .tlpIngress link _ _ _ _ => pcLinkOk link
  | .pcieTlpFrame _ _ _ => true
  | .pcieCreditFrame _ _ _ => true
  | .pciePortStateFrame _ _ _ _ _ _ _ => true
  | .pciePortCtrlFrame _ _ _ _ _ _ _ => true
  | .pcieResumeFrame _ _ _ => true
  | .pcieHoldExpiry _ => true
  | .hotResetEnd link => pcLinkOk link
  | .pciePhysLinkTrained link _ _ => pcLinkOk link
  | .pciePhysLinkDown link _ => pcLinkOk link
  | .upstreamPerst => true
  | .cplAgeCheck _ => true
  | .pcieShow rq => reqOk rq
  | .pciePortBind rq => reqOk rq
  | .pciePortUnbind rq => reqOk rq
  | .pcieBridgeShow rq => reqOk rq
  | .pcieSlotPower rq => reqOk rq
  | .pcieClear rq => reqOk rq
  | .hostUsbTransaction _ => true
  | .usbXferReq _ _ _ _ => true
  | .usbXferData _ _ _ => true
  | .usbXferDone _ _ => true
  | .usbPortCtrlFrame _ => true
  | .remotePortResetEnd port _ => usbPortOk port
  | .usbPortStateFrame _ _ => true
  | .usbBusStateFrame _ => true
  | .usbWakeFrame _ port => usbPortOk port
  | .usbIsoData _ _ _ => true
  | .usbPeriodicPoll port _ _ _ _ _ _ => usbPortOk port
  | .deviceRemoteWake port => usbPortOk port
  | .remoteResumeEnd port => usbPortOk port
  | .usbUpstreamLinkChange _ _ => true
  | .deviceFunctionBusReset => true
  | .keepaliveIdleSuspend port => usbPortOk port
  | .keepaliveTimeout => true
  | .usbShow rq => reqOk rq
  | .usbPortShow rq => reqOk rq
  | .usbPortPower rq => reqOk rq
  | .usbKeepaliveShow rq => reqOk rq
  | .usbClear rq => reqOk rq
  | .macFrameReceive mac _ => macOk mac
  | .macLinkChange mac _ _ => macOk mac
  | .netTxFetch queue _ _ => queueOk queue
  | .netTailWrite _ _ => true
  | .netEnableWrite _ _ _ => true
  | .netWriteBack => true
  | .netTunnelFrame _ mac _ _ _ _ _ _ => macOk mac
  | .presence _ mac _ => macOk mac
  | .wake _ => true
  | .linkState mac _ _ _ => macOk mac
  | .flowAgeSweep _ => true
  | .wakeBufferTimeout => true
  | .netShow rq => reqOk rq
  | .netBind rq => reqOk rq
  | .netGroupSet rq => reqOk rq
  | .netRuleSet rq => reqOk rq
  | .netFlowSet rq => reqOk rq
  | .netFlowShow rq => reqOk rq
  | .netMeterSet rq => reqOk rq
  | .netPresenceSet rq => reqOk rq
  | .netPresenceShow rq => reqOk rq
  | .netClear rq => reqOk rq
  | .sbXferFrame port _ _ _ => portOk port
  | .sbXferRep port _ _ => portOk port
  | .sbLockFrame port _ _ _ => portOk port
  | .sbLockRep port _ _ _ => portOk port
  | .sbUnlockFrame port _ _ => portOk port
  | .sbWound port _ => portOk port
  | .sbIrq port line level => portOk port && irqLineOk line && bitOk level
  | .i2cTargetTransaction intf _ _ _ => sbIfOk intf
  | .sbHoldExpiry intf _ => sbIfOk intf
  | .sbArbitrationLost _ intf => sbIfOk intf
  | .sbSdaStuck _ intf => sbIfOk intf
  | .sbLockLeaseExpiry _ => true
  | .sbLockWaitExpiry _ => true
  | .sbIrqSourceEdge source => irqSourceOk source
  | .fanTachFault fan _ => fanOk fan
  | .uartReceive idx _ => uartOk idx
  | .sbShow rq => reqOk rq
  | .sbRouteSet rq => reqOk rq
  | .sbRouteShow rq => reqOk rq
  | .sbXfer rq => reqOk rq
  | .sbLock rq => reqOk rq
  | .sbUnlock rq => reqOk rq
  | .sbIrqRead rq => reqOk rq
  | .sbIrqMask rq => reqOk rq
  | .sbFanSet rq _ => reqOk rq
  | .memoryAccess master kind _ len _ _ _ _ _ _ _ => masterOk master && accessKindOk kind && sizeOk len
  | .fence master => masterOk master
  | .lpddrPatrolScrub _ _ => true
  | .dqsDriftCheck channel => memChannelOk channel
  | .lpddrRefresh _ => true
  | .memShow rq => reqOk rq
  | .memMasterShow rq => reqOk rq
  | .memMapShow rq => reqOk rq
  | .memClear rq => reqOk rq
  | .memInject rq => reqOk rq
  | .serviceSlice core _ => coreOk core
  | .woeriYield inst => instOk inst
  | .woeriWait inst _ _ => instOk inst
  | .woeriHeartbeat inst => instOk inst
  | .woeriDmaCopy inst _ _ _ _ _ => instOk inst
  | .woeriFrameSend inst _ _ => instOk inst
  | .woeriFrameReceive inst _ _ => instOk inst
  | .gateSubmit inst _ => instOk inst
  | .gateResult inst => instOk inst
  | .woeriWakeRequest inst _ => instOk inst
  | .woeriTimeRead inst core => instOk inst && coreOk core
  | .instanceWatchdog inst => instOk inst
  | .instanceRestart inst => instOk inst
  | .coreHeartbeatLoss core => coreOk core
  | .displayHoldOverlayOn dpx _ _ _ _ _ _ _ => dpxOk dpx
  | .dhStatusRedraw dpx _ => dpxOk dpx
  | .netPresenceRules _ => true
  | .dhcpRenewal _ _ _ _ => true
  | .keepaliveHidWake _ => true
  | .fleetReport _ => true
  | .svcShow rq => reqOk rq
  | .svcStage rq => reqOk rq
  | .svcInstall rq => reqOk rq
  | .svcRemove rq => reqOk rq
  | .svcStart rq => reqOk rq
  | .svcStop rq => reqOk rq
  | .svcInstanceShow rq => reqOk rq
  | .svcCoreDrain rq => reqOk rq
  | .svcCoreAdmit rq => reqOk rq
  | .svcDataPut rq => reqOk rq
  | .ccAttach chan _ _ _ _ => ccOk chan
  | .ccDetach chan _ _ => ccOk chan
  | .drpToggle chan _ => ccOk chan
  | .pdMessageReceive chan _ => ccOk chan
  | .goodcrcTimeout chan => ccOk chan
  | .queuedResponseTimeout chan => ccOk chan
  | .sinkTxExpiry chan => ccOk chan
  | .askTimeout chan => ccOk chan
  | .srcTransitionExpiry chan => ccOk chan
  | .snkRequestWaitExpiry chan => ccOk chan
  | .pdTransitionTimeout chan _ => ccOk chan
  | .hardResetReceived chan => ccOk chan
  | .srcRecoverExpiry chan => ccOk chan
  | .eprKeepaliveTimer chan => ccOk chan
  | .eprKeepaliveTimeout chan => ccOk chan
  | .errorRecoveryEnd chan => ccOk chan
  | .vconnOvercurrent chan => ccOk chan
  | .enterModeRetry chan => ccOk chan
  | .cpwrShow rq => reqOk rq
  | .cpwrCapsSet rq => reqOk rq
  | .cpwrRequest rq => reqOk rq
  | .cpwrAnswer rq => reqOk rq
  | .cpwrSwap rq => reqOk rq
  | .cpwrHardreset rq => reqOk rq
  | .cpwrModeEnter rq => reqOk rq
  | .cpwrMuxSet rq => reqOk rq
  | .cpwrDiscoverShow rq => reqOk rq
  | .cpwrMsgSend rq => reqOk rq
  | .cpwrMsgRecv rq => reqOk rq
  | .feedPresent feed _ _ _ => feedOk feed
  | .feedAbsent feed _ _ _ => feedOk feed
  | .feedShareUpdate _ _ _ _ => true
  | .feedOverload feed _ _ => feedOk feed
  | .vbusSettled switch _ _ _ => vbusOk switch
  | .vbusSwitchFault switch _ _ => vbusOk switch
  | .vbusRetryExpiry switch => vbusOk switch
  | .bayShortPinClose bay => bayOk bay
  | .bayShortPinOpen bay => bayOk bay
  | .baySeatDebounce bay => bayOk bay
  | .bayCurrentLimit bay _ _ _ _ => bayOk bay
  | .bayFaultTimer bay _ => bayOk bay
  | .bayBreaker bay _ => bayOk bay
  | .bayRampTimeout bay _ => bayOk bay
  | .bayPgRise bay _ _ _ _ _ => bayOk bay
  | .bayPgFall bay _ _ => bayOk bay
  | .bayRetryExpiry bay => bayOk bay
  | .bayRetriesRestore bay => bayOk bay
  | .bayPerstRelease bay => bayOk bay
  | .fetTempUpdate bay _ _ _ _ _ => bayOk bay
  | .ppathShow rq => reqOk rq
  | .ppathBayShow rq => reqOk rq
  | .ppathBayPower rq => reqOk rq
  | .ppathVbusShow rq => reqOk rq
  | .ppathClear rq => reqOk rq
  | .pstateSet rq => reqOk rq
  | .pstateShow rq => reqOk rq
  | .idleEntry => true
  | .phaseSStart => true
  | .phasePStart => true
  | .entryTimeout => true
  | .wakeSource source _ _ _ => wakeOk source
  | .retainExitComplete => true
  | .trustShow rq => reqOk rq
  | .trustKeyShow rq => reqOk rq
  | .trustKeyInstall rq => reqOk rq
  | .trustKeyRevoke rq => reqOk rq
  | .trustLifecycleAdvance rq => reqOk rq
  | .trustRollbackAdvance rq => reqOk rq
  | .trustIdShow rq => reqOk rq
  | .trustAcuShow rq => reqOk rq
  | .trustAcuSet rq => reqOk rq
  | .trustAcuLogShow rq => reqOk rq
  | .updShow rq => reqOk rq
  | .updStage rq => reqOk rq
  | .updVerify rq => reqOk rq
  | .updActivate rq => reqOk rq
  | .activationQuiet => true
  | .activationWaitExpiry => true
  | .mgtHandoverReady => true
  | .handoverTimeout => true
  | .updRevert rq => reqOk rq
  | .updCommit rq => reqOk rq
  | .updKeymanPut rq => reqOk rq
  | .autocommit => true
  | .checkpoint => true
  | .sporeBufferRoom => true
  | .recPostTriggerExpiry => true
  | .replayFinish _ slot _ => slotOk slot
  | .recShow rq => reqOk rq
  | .recFreeze rq => reqOk rq
  | .recRead rq => reqOk rq
  | .recReplay rq => reqOk rq
  | .dbgShow rq => reqOk rq
  | .dbgMemRead rq => reqOk rq
  | .dbgMemWrite rq => reqOk rq
  | .jtagIdcode => true
  | .jtagExtest _ _ => true
  | .jtagSamplePreload _ _ => true
  | .jtagDbgAp op _ _ _ core => jtagOpOk op && coreOk core
  | .jtagBypass => true
  | .pmeToAckTimeout => true
  | .inBandPresenceChange port _ => dportOk port
  | .busTransactionComplete _ intf _ _ => sbIfOk intf
  | .panelAuxReply dpx _ _ => dpxOk dpx
  | .selfRefreshExitCheckDone _ => true
  | .senderResponseTimeout chan => ccOk chan
  | .clusterDmaComplete inst => instOk inst

end Sys2Proof
end

