-- ==== Sys2Proof/Tests/Slice0.lean ====
section
/-! SUPPORT. Tests. Every check of WellFormed accepts a command and refuses an ill-formed one; the worked examples of the spec; and, for each
statement that has hypotheses, a state and operands for each of its clauses that meet them all (`test_met_` and the statement's name). -/

set_option maxRecDepth 8000
set_option Elab.async false

namespace Sys2Proof.Tests

open Sys2Proof Sys2Proof.Machine

/-! ### Small states and values -/

/-- A powered hub whose firmware runs; LOCAL holds an open P3 handle 1. -/
def ready : State := { State.reset with
  pins.phase := 2, boot.stage := 2, pwr.state := 0, mbx.loc.creds := [⟨1, 3, viaOwner .spi, 0⟩] }
/-- A request on LOCAL under handle 1. -/
def ask (l : List Byte) : Req := ⟨.spi, 7, 0, 1, 0, l⟩
def outSt (o : Out) : State := match o with | .next t => t | _ => .reset
def lk (s : State) (p : Nat) (f : LinkSt → LinkSt) : State := s.setLink p f
def lane' (s : State) (p k : Nat) (f : LaneSt → LaneSt) : State := s.setLane p k f
def cp (s : State) (p : Nat) (f : CpxSt → CpxSt) : State := s.setCpx p f
def eq0 : EqRes := ⟨[0, 0, -10, 90, 0], false, .init⟩
def res0 : LaneRes := ⟨true, true, 5, false, some eq0, some eq0, 5⟩
def peer0 : PeerLane := ⟨15, false, 0, true, true, true, 600, true⟩
def cell0 : Cell := withHcrc ⟨16, 2, 0, 10, 5, 1, false, false, false, false, 0, [1, 2, 3, 4, 5, 6, 7, 8, 9, 10]⟩
def hello0 : PeerHello := ⟨2, 1, 15, true, 0, 0, 0, 0, 0, 0⟩
def entry0 : PathEntry := ⟨16, false, 2, 1, 17, false, 0, true, 0⟩
def l0s (s : State) (p : Nat) : State := s.setCpx p fun c => { c with lanes := c.lanes.map fun l => { l with state := .l0, rate := .f } }
/-- A field's value in force and applied. -/
def setc (f : FieldDef) (v : Nat) (s : State) : State :=
  { s with cfg.force := ⟨f.ty, f.id, v⟩ :: s.cfg.force, cfg.ovr := { layer := 0, ty := f.ty, id := f.id, val := v, port := 0 } :: s.cfg.ovr }
def str0 : StreamSt :=
  { id := 1, dpx := 3, index := 0, capture := false, state := 1, dest := (0, 0, 0, 0), audio := false, cut := false, video := none,
    audioPath := none, inPort := noPath, inLabel := 0, contract := 0, along := 0, delay := 1000, share := 0, desc := none, locked := false,
    lockLines := 0, badLines := 0, dco := 0, k := 8, cleanFrames := 0, chunks := [], late := 0, concealed := 0, skipped := 0, highWater := 0,
    frameChunks := 0, frameConc := 0, badFrames := 0, stored := false, goodFrames := 0, storeBuf := 0, holdNext := none, lastChunk := 0,
    concEv := 0, concTick := none, skipTick := none, holdAt := 0, step := 0, origin := none, interval := 0, start := none, shift := 0,
    frameNo := 0, away := false, above := [], firstLine := [], audioIn := [], job := none }
def desc0 : FrameDesc := ⟨0, 2200, 1920, 148, 44, 1125, 1080, 36, 5, 0, false, false, 148500000, 24⟩
def chunk0 : Chunk := ⟨0, 5, 0, 0, [1,2,3]⟩
def tlp0 : Tlp := ⟨0, 0, 0x1000, 0x100, 3, 64, 4, true, false, false, false, [1, 2]⟩
def cell1 : QCell := ⟨3, 10, 16, 2, 4, 5, false, false, true, true, false, false, false, 0, [1,2,3]⟩
def dpx' (s : State) (k : Nat) (f : DpxSt → DpxSt) : State := s.setDpx k f
def strs (l : List StreamSt) (s : State) : State := { s with disp.streams := l }
def ends (l : List Nat) (s : State) : State := { s with topo.ends := l }
def pe (s : State) (e : Nat) (f : PciEnd → PciEnd) : State := s.setEnd e f
def pl (s : State) (e : Nat) (f : PciLink → PciLink) : State := s.setPcLink e f
def ch (s : State) (k : Nat) (f : CcSt → CcSt) : State := s.setChn k f
def vs (s : State) (k : Nat) (f : VbusSt → VbusSt) : State := s.setVsw k f
def by' (s : State) (b : Nat) (f : BaySt → BaySt) : State := s.setBay b f
def up' (s : State) (k : Nat) (f : UsbPort → UsbPort) : State := s.setUsbPort k f
def utx0 : UsbTx := ⟨2, 1, 3, 1, true, 1, false, false, 0, 0, 1, 0, .other, []⟩
def uframe0 : UsbFrame := ⟨0, 4, 3, 1, true, 0, 0, 0, 0, []⟩
def ustage0 : UsbStage :=
  { root := 2, port := 1, addr := 3, ep := 1, dirIn := true, stream := 0, kind := 1, ss := false, burst := 1, started := 0, inTicks := [],
    setups := [], inPkts := [[1, 2]], done := none, outPkts := [], asked := 0, deferred := false, stall := false, ahead := false, seq := 0 }
def pdm0 : PdMsg := ⟨1, .getSourceCap, 0, [], false⟩
def usbHub : State := ends [0,0,0,0,0,2,0] ready
def usbUp : State := ends [0,0,0,0,0,1,0] ready
def inst0 : InstSt :=
  { id := 1, shipped := true, state := 1, core := 0, home := 0, cls := 0, opp := 3, slots := 10, caps := 0xFF, memKib := 64, scratch := 64,
    codeBytes := 0, persist := false, ready := true, timer := none, waitsEv := false, ran := 0, runNow := 0, silent := 5, restarts := [],
    faults := 0, lastFault := 0, restartDue := none, mask := 0, events := [], lostEvents := 0, gateReply := none, gateBusy := false,
    frames := [], dma := none, notice := false }
def running (x : InstSt) : State := { ready with svc.insts := [x], svc.on := true, plan.inForce.slices := List.replicate 8 (50, 3) }
def regn (r : Region) (s : State) : State := { s with trust.acus := s.trust.acus.modify 0 fun a => { a with regions := [r] } }
def late : State := { ready with time.tick := 1000000000 }
def nomap : State := setc Fld.PCIE_BAY_MAP 0xFFFF ready
def nolate : State := setc Fld.PCIE_BAY_MAP 0xFFFF { ready with time.tick := 1000000000 }
def netEnd : State := (ends [0,0,0,0,0,0,2] ready).setMac 0 (fun m => {m with up := true, maxFrame := 1522})
def netEndB : State := (({ends [0,0,0,0,0,0,2] ready with net.bound := true} : State).setMac 0 (fun m => {m with up := true, maxFrame := 1522}))
def netFn : State := ends [0,0,0,0,0,0,1] ready
def rt : SbRoute := ⟨0,0,5,0,false,0,5,0,2,false,true,true⟩
def rtUp : SbRoute := ⟨0,0,5,1,false,0,5,0,2,false,true,true⟩
def holder0 : SbHolder := ⟨2,0,0,1,77,0⟩
def lock0 : SbLock := ⟨5,5,0,holder0,.frame 1 4,false,0⟩
def pauseFrame : List Byte := zeros 12 ++ [0x88, 0x08, 0, 1, 0, 9] ++ zeros 42
def hubOpen : State := { lk (up' usbHub 4 (fun x => {x with power := true})) 0 (fun l => {l with table := [entry0]}) with usb.inLabel := some 16, usb.inPort := 0 }
def usbLate : State := { usbHub with time.tick := 1000000000 }

theorem role_ne_up {s : State} (h : s.topo.portRole.all (· != .up) = true) : ∀ q, s.role q ≠ .up := by
  intro q hq
  have h := List.all_eq_true.mp h
  unfold State.role nth at hq
  rcases Nat.lt_or_ge q s.topo.portRole.length with hl | hl
  · have := h _ (List.getElem_mem hl)
    rw [List.getD_eq_getElem _ _ hl] at hq
    simp [hq] at this
  · rw [List.getD_eq_default _ _ hl] at hq
    cases hq

theorem masks_clear {l : List Word} {x : Word} (h : (l.all fun m => m &&& x == 0) = true) : ∀ m ∈ l, m &&& x = 0 := by
  simpa using h


theorem coach_ok {s : State} {p k : Nat} {y : RxCell} (h : s.coachRx p k = [y]) (hs : (s.link p).sealed = true) :
    s.coachOk p k (coachTag ((s.link p).rxKey y.old) y.ctr (s.coachCells p k)) = true := by
  simp [State.coachOk, h, hs]

theorem pdo_open {l : List Word} (h : (l.any fun p => !pdoFixed p) = true) : ∃ p ∈ l, pdoFixed p = false := by
  simpa using h

theorem fell_none {o : Option Tick} {P : Tick → Prop} (h : o = none) : ∀ w, o = some w → P w := by
  intro w hw
  rw [h] at hw
  cases hw

/-- A coach of one cell on lane 3 of a port that encrypts. -/
def coach0 : RxCell := ⟨3, 5, false, withHcrc { cell0 with kind := 1, cidx := 0 }⟩
def sealedCoach : State := lk ready 1 fun l => { l with keysIn := true, encrypt := true, coach := [coach0], rx := { l.rx with key := zeros 32 } }

/-! ### Decode and WellFormed -/

/-- spec/opcode_table.json gives no bits to any row. -/
theorem test_decode : decodeTableWord 16 0x0101 = none := rfl

/-- A word that spells no command leaves the queue as it is. -/
theorem test_fetch : (State.reset.withFetchWord 16 0x0101).pending = [] := rfl

theorem test_wf_portOk : Instr.wf (.physeqFault 1) = true ∧ Instr.wf (.physeqFault 2) = false := by decide +kernel
theorem test_wf_adapterOk : Instr.wf (.adapterEndDeferredApply 6) = true ∧ Instr.wf (.adapterEndDeferredApply 7) = false := by decide +kernel
theorem test_wf_reqOk : Instr.wf (.sysPing (ask [])) = true ∧ Instr.wf (.sysPing ({ ask [] with via := .peer 2 })) = false := by decide +kernel
theorem test_wf_laneOk : Instr.wf (.turnaround 0 3 ⟨0, 0, 0, 0, [], 0⟩) = true ∧ Instr.wf (.turnaround 0 4 ⟨0, 0, 0, 0, [], 0⟩) = false := by decide +kernel
theorem test_wf_bitOk : Instr.wf (.keyNext 0 1 0 0) = true ∧ Instr.wf (.keyNext 0 2 0 0) = false := by decide +kernel
theorem test_wf_tcOk : Instr.wf (.pathSetup 0 0 0 7 0 0 false 0 0) = true ∧ Instr.wf (.pathSetup 0 0 0 8 0 0 false 0 0) = false := by decide +kernel
theorem test_wf_switchPortOk : Instr.wf (.localCellOffer 11 0 cell0) = true ∧ Instr.wf (.localCellOffer 12 0 cell0) = false := by decide +kernel
theorem test_wf_slotOk : Instr.wf (.cellTimeMatch 249 [] 0 0 []) = true ∧ Instr.wf (.cellTimeMatch 250 [] 0 0 []) = false := by decide +kernel
theorem test_wf_dpxOk : Instr.wf (.sinkLinkTraining 3 0 0) = true ∧ Instr.wf (.sinkLinkTraining 4 0 0) = false := by decide +kernel
theorem test_wf_pcLinkOk : Instr.wf (.tlpIngress 4 tlp0 0 0 0) = true ∧ Instr.wf (.tlpIngress 5 tlp0 0 0 0) = false := by decide +kernel
theorem test_wf_usbPortOk : Instr.wf (.remotePortResetEnd 4 0) = true ∧ Instr.wf (.remotePortResetEnd 5 0) = false := by decide +kernel
theorem test_wf_macOk : Instr.wf (.macFrameReceive 1 []) = true ∧ Instr.wf (.macFrameReceive 2 []) = false := by decide +kernel
theorem test_wf_queueOk : Instr.wf (.netTxFetch 7 0 []) = true ∧ Instr.wf (.netTxFetch 8 0 []) = false := by decide +kernel
theorem test_wf_irqLineOk : Instr.wf (.sbIrq 0 7 0) = true ∧ Instr.wf (.sbIrq 0 8 0) = false := by decide +kernel
theorem test_wf_sbIfOk : Instr.wf (.i2cTargetTransaction 15 0 0 []) = true ∧ Instr.wf (.i2cTargetTransaction 16 0 0 []) = false := by decide +kernel
theorem test_wf_irqSourceOk : Instr.wf (.sbIrqSourceEdge 23) = true ∧ Instr.wf (.sbIrqSourceEdge 24) = false := by decide +kernel
theorem test_wf_fanOk : Instr.wf (.fanTachFault 3 0) = true ∧ Instr.wf (.fanTachFault 4 0) = false := by decide +kernel
theorem test_wf_uartOk : Instr.wf (.uartReceive 1 []) = true ∧ Instr.wf (.uartReceive 2 []) = false := by decide +kernel
theorem test_wf_masterOk : Instr.wf (.memoryAccess 15 0 0 8 [] false 0 0 0 false false) = true ∧ Instr.wf (.memoryAccess 16 0 0 8 [] false 0 0 0 false false) = false := by decide +kernel
theorem test_wf_accessKindOk : Instr.wf (.memoryAccess 0 2 0 8 [] false 0 0 0 false false) = true ∧ Instr.wf (.memoryAccess 0 3 0 8 [] false 0 0 0 false false) = false := by decide +kernel
theorem test_wf_sizeOk : Instr.wf (.memoryAccess 0 0 0 64 [] false 0 0 0 false false) = true ∧ Instr.wf (.memoryAccess 0 0 0 3 [] false 0 0 0 false false) = false := by decide +kernel
theorem test_wf_memChannelOk : Instr.wf (.dqsDriftCheck 3) = true ∧ Instr.wf (.dqsDriftCheck 4) = false := by decide +kernel
theorem test_wf_coreOk : Instr.wf (.serviceSlice 7 []) = true ∧ Instr.wf (.serviceSlice 8 []) = false := by decide +kernel
theorem test_wf_instOk : Instr.wf (.woeriYield 65535) = true ∧ Instr.wf (.woeriYield 65536) = false := by decide +kernel
theorem test_wf_ccOk : Instr.wf (.ccAttach 5 0 0 0 false) = true ∧ Instr.wf (.ccAttach 6 0 0 0 false) = false := by decide +kernel
theorem test_wf_feedOk : Instr.wf (.feedPresent 1 0 0 0) = true ∧ Instr.wf (.feedPresent 2 0 0 0) = false := by decide +kernel
theorem test_wf_vbusOk : Instr.wf (.vbusSettled 5 0 0 0) = true ∧ Instr.wf (.vbusSettled 6 0 0 0) = false := by decide +kernel
theorem test_wf_bayOk : Instr.wf (.bayShortPinClose 3) = true ∧ Instr.wf (.bayShortPinClose 4) = false := by decide +kernel
theorem test_wf_wakeOk : Instr.wf (.wakeSource 8 0 false []) = true ∧ Instr.wf (.wakeSource 9 0 false []) = false := by decide +kernel
theorem test_wf_jtagOpOk : Instr.wf (.jtagDbgAp 3 0 8 [] 0) = true ∧ Instr.wf (.jtagDbgAp 4 0 8 [] 0) = false := by decide +kernel
theorem test_wf_dportOk : Instr.wf (.inBandPresenceChange 3 false) = true ∧ Instr.wf (.inBandPresenceChange 4 false) = false := by decide +kernel

/-! ### Worked examples of the spec -/

/-- Table 8.13's capacities and Table 8.14's lane plan: `allocate` on four F lanes after a tick without turnaround, 1,924 reverse
cells needed. -/
theorem test_worked_lane_plan :
    let v : LaneView := ⟨none, 0, false, false, true, (0, 0), 0, 0, false, true⟩
    let w : LaneView := { v with prev := (1, 0) }
    let ls := allocate [v, v, v, w] 1924
    (segCells 75 false, segCells 76 false, whole v) = (443, 448, 1478)
      ∧ ls.map (fun l => (l.2.getD []).map fun g => (g.start, g.mode)) = [[(0, 0)], [(0, 0)], [(0, 0), (22, 1), (100, 0)], [(0, 1)]]
      ∧ planCells ls 0 = 3959 ∧ planCells ls 1 = 1926 := by decide +kernel

/-- Contracts of the same tick: 59,720 Mb/s takes 912 cells and 100,000 Mb/s takes 1,526. -/
theorem test_worked_contract_cells : cellsOf 59720 = 912 ∧ cellsOf 100000 = 1526 := by decide +kernel

/-- Table 22.9: the mask of the events that map to FAULT, byte by byte. -/
theorem test_worked_fault_mask :
    (upTo 24).map (fun b => total ((upTo 8).map fun i => if eventBit (8 * b + i) = 30 then 2 ^ i else 0))
      = [0x21, 0x50, 0x10, 0x40, 0x10, 0x40, 0x12, 0x08, 0x00, 0x08, 0xB0, 0x00, 0x30, 0x00, 0x00, 0x26, 0x2A, 0x04, 0x60, 0x14,
         0xB0, 0x30, 0x04, 0x88] := by decide +kernel

/-- Table 14.9: the memory plan of a 4 GiB dock. -/
theorem test_worked_memory_plan :
    ({ State.reset with mem.gib := 4 } : State).memPlan = [(0, 64 * mib), (0x04000000, 16 * mib), (0x05000000, 256 * mib),
      (0x15000000, 1536 * mib), (0x75000000, 1712 * mib)] := by decide +kernel

/-- The staged set of Table 4.15. -/
def stagedSet : List Byte :=
  [3, 0, 0x20, 0, 0, 0, 1, 0, 1, 0, 0x2C, 1, 0, 0, 2, 0, 0x14, 0, 0, 0, 3, 0, 0x84, 3, 0, 0, 9, 0, 5, 0, 0, 0]
    ++ [1, 0, 0x14, 0, 0, 0, 1, 0, 0x11, 0, 1, 0, 0, 0, 0x21, 0, 3, 0, 0, 0]

/-- The deployed dock of that example after the stage and the apply. -/
def override : State :=
  let s : State := { ready with topo.role := .dockside, trust.lc := [7, 7, 7, 0, 0] }
  outSt (execCfgRecordApply { ask [0] with tag := 8 } (outSt (execCfgRecordStage (ask (zeros 4 ++ stagedSet)) s)))

/-- Table 4.16: the report of the apply, and its reply. -/
theorem test_worked_override :
    (override.chan .loc).report = [⟨3, 1, 300, 500, 1, 0, 0⟩, ⟨3, 2, 20, 16, 2, 0, 0⟩, ⟨3, 9, 5, 0, 4, 0, 0⟩, ⟨1, 0x11, 1, 2, 5, 0, 1⟩,
        ⟨1, 0x21, 3, 15, 5, 0, 1⟩]
      ∧ (override.chan .loc).stored.map (·.result) = some 1
      ∧ (override.chan .loc).stored.map (·.data) = some [2, 0, 5, 0, 0, 0, 0, 0] := by
  decide +kernel

/-- The events of that apply: CFG_CLAMPED with ARG 5, then CFG_APPLIED. -/
theorem test_worked_override_events :
    (override.chan .loc).queue.map (fun e => e.num) = [2, 3] ∧ (override.chan .loc).queue.head?.map (fun e => e.arg) = some 5 := by
  decide +kernel

/-- The hot dock of spec/08: TS5 averages 98.9 °C and averaged 98.7 °C 32 ticks before. -/
def hotDock : State :=
  let hot := List.replicate 32 9890 ++ List.replicate 8 9870
  { ready with plan.latchCeil := 12000, plan.readings := [[], [], [], [], [], hot, [], []], plan.latchFeed := some 13200 }

/-- P_th is 5,490 mW and E_avail is 162,984 nJ. -/
theorem test_worked_hot_dock : hotDock.pCap = 12000 ∧ hotDock.pTh = 5490000 ∧ hotDock.eAvail = 162984 := by decide +kernel

/-- Table 17.6, 109 ms and 129 ms: a bay of the dock held at its limit for 20,000 samples faults. -/
def faultyCarrier : State :=
  let s := by' (setc Fld.PCIE_BAY_MAP 0xFF1F ready) 1 fun b => { b with state := .ramp }
  outSt (execBayCurrentLimit 1 false 20000 9000 3000 (outSt (execBayCurrentLimit 1 true 0 9000 3000 s)))

theorem test_worked_bay_fault :
    (faultyCarrier.bay 1).state = .faultWait ∧ (faultyCarrier.bay 1).retry = true ∧ (faultyCarrier.bay 1).retries = 2
      ∧ (faultyCarrier.bay 1).pg = false := by decide +kernel

/-- The same carrier pulled and a good one seated 300 ms later: FAULT_WAIT again, and the retries are restored. -/
theorem test_worked_bay_swap :
    let u := outSt (execBayShortPinOpen 1 faultyCarrier)
    let u : State := { u with time.tick := u.time.tick + 9600 }
    let u := outSt (execBayShortPinClose 1 u)
    let u : State := { u with time.tick := u.time.tick + 6400 }
    let t := outSt (execBaySeatDebounce 1 u)
    (u.bay 1).state = .seating ∧ (u.bay 1).retry = true ∧ (t.bay 1).state = .faultWait ∧ (t.bay 1).retries = 3 := by decide +kernel

/-- Table 19.9: M3 may read and write SB8 under its baseline region 13; once region 2 gives it READ alone, its write is denied. -/
theorem test_worked_acu_narrowing :
    let s := ready.loadBaseline
    let u := s.setAcu 3 { s.acu 3 with regions := (s.acu 3).regions.set 2 ⟨0x1110, 0x117F, true, false, false, true, false, false, 0, true⟩ }
    s.acuCheck 3 1 0x1110108 false = ⟨true, 0, true, 13⟩ ∧ u.acuCheck 3 1 0x1110108 false = ⟨false, 0, true, 2⟩
      ∧ u.acuCheck 3 0 0x1110100 false = ⟨true, 0, true, 2⟩ := by decide +kernel

/-- Table 3.15: the event of a completion carries OK above handle 7. -/
theorem test_worked_completion :
    let s : State := { ready with mbx.loc.jobs := [⟨7, .spi, Cmd.updVerify.opcode, none, none, 0⟩] }
    ((s.finish .spi 7 0 []).chan .loc).queue.map (fun e => (e.num, e.arg)) = [(4, 7)] := by decide +kernel

/-- R30: an exit after 128 cycles of 32.768 kHz starts tick N + 126. -/
theorem test_worked_exit_tick : (({ ready with time.tick := 1000 } : State).beginExit 1 128 false []).time.tick = 1126 := by decide +kernel

/-! ### Every statement has states that meet its hypotheses -/

/-- The outcome is a next state. -/
def goes (o : Out) : Bool := match o with | .next _ => true | _ => false

theorem next_of_goes {o : Out} (h : goes o = true) : ∃ t, o = .next t := by
  cases o with
  | next t => exact ⟨t, rfl⟩
  | fault f => cases h
  | refused r => cases h

theorem test_met_EveryCommandCompletes :
    ∃ (c : Instr) (s : State), s.powered = false ∧ (∀ a b, c ≠ .powerOnReset a b) ∧ c ≠ .porstFall ∧ c ≠ .railDeadlineMiss
      ∧ c ≠ .railRestart :=
  ⟨.sysPing (ask []), { ready with pins.phase := 0 }, by decide +kernel, by simp, by simp, by simp, by simp⟩

theorem test_met_MemoryStaysCanonical : ∃ s : State, s.MemInv ∧ s.pending ≠ [] ∧ ∃ t, step s = .next t :=
  ⟨{ ready with pending := [.sysPing (ask [])] }, by decide +kernel, by simp, next_of_goes (by decide +kernel)⟩

theorem test_met_FusesStayBlown : ∃ s : State, s.pending ≠ [] ∧ ∃ t, step s = .next t :=
  ⟨{ ready with pending := [.trustRollbackAdvance (ask [1])] }, by simp, next_of_goes (by decide +kernel)⟩

theorem test_met_OrderOfChecks :
    (∃ (cmd : Req → Instr) (row : CmdRow) (min : Nat) (rq : Req) (s : State) (r : Reply), IsMailbox cmd row min ∧ s.awake = true ∧ (s.mbx.waiting.any fun w => w.msg == msgOf rq row.opcode) = false
      ∧ (s.chan (viaChan rq.via)).stored = some r ∧ (s.chan (viaChan rq.via)).isLast (msgOf rq row.opcode) = true ∧ reqHops rq = 0)
    ∧ (∃ (cmd : Req → Instr) (row : CmdRow) (min : Nat) (rq : Req) (s : State), IsMailbox cmd row min ∧ s.awake = true ∧ (s.mbx.waiting.any fun w => w.msg == msgOf rq row.opcode) = false
      ∧ ((s.chan (viaChan rq.via)).stored = none ∨ (s.chan (viaChan rq.via)).isLast (msgOf rq row.opcode) = false ∨ reqHops rq ≠ 0) ∧ s.fwRuns = false)
    ∧ (∃ (cmd : Req → Instr) (row : CmdRow) (min : Nat) (rq : Req) (s : State), IsMailbox cmd row min ∧ s.awake = true ∧ (s.mbx.waiting.any fun w => w.msg == msgOf rq row.opcode) = false
      ∧ ((s.chan (viaChan rq.via)).stored = none ∨ (s.chan (viaChan rq.via)).isLast (msgOf rq row.opcode) = false ∨ reqHops rq ≠ 0) ∧ s.fwRuns = true
      ∧ (s.pins.mgtHalted = true ∨ s.mbx.waiting ≠ []))
    ∧ (∃ (cmd : Req → Instr) (row : CmdRow) (min : Nat) (rq : Req) (s : State), IsMailbox cmd row min ∧ s.awake = true ∧ (s.mbx.waiting.any fun w => w.msg == msgOf rq row.opcode) = false
      ∧ ((s.chan (viaChan rq.via)).stored = none ∨ (s.chan (viaChan rq.via)).isLast (msgOf rq row.opcode) = false ∨ reqHops rq ≠ 0) ∧ s.fwRuns = true
      ∧ s.pins.mgtHalted = false ∧ s.mbx.waiting = [] ∧ viaChan rq.via = .dbg ∧ s.lifecycle = 5)
    ∧ (∃ (cmd : Req → Instr) (row : CmdRow) (min : Nat) (rq : Req) (s : State), IsMailbox cmd row min ∧ s.awake = true ∧ (s.mbx.waiting.any fun w => w.msg == msgOf rq row.opcode) = false
      ∧ ((s.chan (viaChan rq.via)).stored = none ∨ (s.chan (viaChan rq.via)).isLast (msgOf rq row.opcode) = false ∨ reqHops rq ≠ 0) ∧ s.fwRuns = true
      ∧ s.pins.mgtHalted = false ∧ s.mbx.waiting = [] ∧ (viaChan rq.via ≠ .dbg ∨ s.lifecycle ≠ 5) ∧ 1024 < rq.payload.length)
    ∧ (∃ (cmd : Req → Instr) (row : CmdRow) (min : Nat) (rq : Req) (s : State), IsMailbox cmd row min ∧ s.awake = true ∧ (s.mbx.waiting.any fun w => w.msg == msgOf rq row.opcode) = false
      ∧ ((s.chan (viaChan rq.via)).stored = none ∨ (s.chan (viaChan rq.via)).isLast (msgOf rq row.opcode) = false ∨ reqHops rq ≠ 0) ∧ s.fwRuns = true
      ∧ s.pins.mgtHalted = false ∧ s.mbx.waiting = [] ∧ (viaChan rq.via ≠ .dbg ∨ s.lifecycle ≠ 5) ∧ rq.payload.length ≤ 1024 ∧ reqHops rq = 7)
    ∧ (∃ (cmd : Req → Instr) (row : CmdRow) (min : Nat) (rq : Req) (s : State), IsMailbox cmd row min ∧ s.awake = true ∧ (s.mbx.waiting.any fun w => w.msg == msgOf rq row.opcode) = false
      ∧ ((s.chan (viaChan rq.via)).stored = none ∨ (s.chan (viaChan rq.via)).isLast (msgOf rq row.opcode) = false ∨ reqHops rq ≠ 0) ∧ s.fwRuns = true
      ∧ s.pins.mgtHalted = false ∧ s.mbx.waiting = [] ∧ (viaChan rq.via ≠ .dbg ∨ s.lifecycle ≠ 5) ∧ rq.payload.length ≤ 1024 ∧ reqHops rq = 0
      ∧ s.reqLevel rq = none)
    ∧ (∃ (cmd : Req → Instr) (row : CmdRow) (min : Nat) (rq : Req) (s : State) (l : Nat), IsMailbox cmd row min ∧ s.awake = true ∧ (s.mbx.waiting.any fun w => w.msg == msgOf rq row.opcode) = false
      ∧ ((s.chan (viaChan rq.via)).stored = none ∨ (s.chan (viaChan rq.via)).isLast (msgOf rq row.opcode) = false ∨ reqHops rq ≠ 0) ∧ s.fwRuns = true
      ∧ s.pins.mgtHalted = false ∧ s.mbx.waiting = [] ∧ (viaChan rq.via ≠ .dbg ∨ s.lifecycle ≠ 5) ∧ rq.payload.length ≤ 1024 ∧ reqHops rq = 0
      ∧ s.reqLevel rq = some l ∧ (l < row.level ∨ (row.chans ≠ [] ∧ viaChan rq.via ∉ row.chans)))
    ∧ (∃ (cmd : Req → Instr) (row : CmdRow) (min : Nat) (rq : Req) (s : State) (l : Nat), IsMailbox cmd row min ∧ s.awake = true ∧ (s.mbx.waiting.any fun w => w.msg == msgOf rq row.opcode) = false
      ∧ ((s.chan (viaChan rq.via)).stored = none ∨ (s.chan (viaChan rq.via)).isLast (msgOf rq row.opcode) = false ∨ reqHops rq ≠ 0) ∧ s.fwRuns = true
      ∧ s.pins.mgtHalted = false ∧ s.mbx.waiting = [] ∧ (viaChan rq.via ≠ .dbg ∨ s.lifecycle ≠ 5) ∧ rq.payload.length ≤ 1024 ∧ reqHops rq = 0
      ∧ s.reqLevel rq = some l ∧ row.level ≤ l ∧ (row.chans = [] ∨ viaChan rq.via ∈ row.chans) ∧ rq.payload.length < min)
    ∧ (∃ (cmd : Req → Instr) (row : CmdRow) (min : Nat) (rq : Req) (s : State) (l : Nat), IsMailbox cmd row min ∧ s.awake = true ∧ (s.mbx.waiting.any fun w => w.msg == msgOf rq row.opcode) = false
      ∧ ((s.chan (viaChan rq.via)).stored = none ∨ (s.chan (viaChan rq.via)).isLast (msgOf rq row.opcode) = false ∨ reqHops rq ≠ 0) ∧ s.fwRuns = true
      ∧ s.pins.mgtHalted = false ∧ s.mbx.waiting = [] ∧ (viaChan rq.via ≠ .dbg ∨ s.lifecycle ≠ 5) ∧ rq.payload.length ≤ 1024 ∧ reqHops rq = 0
      ∧ s.reqLevel rq = some l ∧ reqValidate rq = true ∧ row.opcode ≠ Cmd.cfgRecordApply.opcode) :=
  let r : Reply := ⟨7, 0, 0, 0, []⟩
  let same : State := { ready with mbx.loc.stored := some r, mbx.loc.last := some (msgOf (ask []) Cmd.sysPing.opcode) }
  let other : Wait := ⟨msgOf (ask [1]) Cmd.sysPing.opcode, 0, 0, none⟩
  ⟨⟨_, _, _, ask [], same, r, .sysPing, by decide +kernel⟩,
   ⟨_, _, _, ask [], { ready with boot.stage := 0 }, .sysPing, by decide +kernel⟩,
   ⟨_, _, _, ask [], { ready with mbx.waiting := [other] }, .sysPing, by decide +kernel⟩,
   ⟨_, _, _, { ask [] with via := .jtag }, { ready with trust.lc := [7, 7, 7, 7, 7] }, .sysPing, by decide +kernel⟩,
   ⟨_, _, _, ask (zeros 1025), ready, .sysPing, by decide +kernel⟩,
   ⟨_, _, _, { ask [] with flags := BitVec.ofNat 16 (7 * 4096) }, ready, .sysPing, by decide +kernel⟩,
   ⟨_, _, _, { ask [] with cred := 9 }, ready, .sysPing, by decide +kernel⟩,
   ⟨_, _, _, { ask [0] with cred := 0 }, ready, 2, .trustKeyRevoke, by decide +kernel⟩,
   ⟨_, _, _, ask [], ready, 3, .sysEventRead, by decide +kernel⟩,
   ⟨_, _, _, { ask [] with flags := 1 }, ready, 3, .sysPing, by decide +kernel⟩⟩

theorem test_met_TurnOfARequest :
    (∃ (cmd : Req → Instr) (row : CmdRow) (min : Nat) (rq : Req) (s : State) (w : Wait) (rest : List Wait), IsMailbox cmd row min
      ∧ s.awake = true ∧ s.mbx.waiting = w :: rest ∧ w.msg = msgOf rq row.opcode ∧ s.pins.mgtHalted = false ∧ w.late = none
      ∧ (viaChan rq.via ≠ .dbg ∨ s.lifecycle ≠ 5) ∧ rq.payload.length ≤ 1024 ∧ reqHops rq = 0 ∧ s.reqLevel rq = none
      ∧ reqValidate rq = true)
    ∧ (∃ (cmd : Req → Instr) (row : CmdRow) (min : Nat) (rq : Req) (s : State) (w : Wait) (rest : List Wait), IsMailbox cmd row min
      ∧ s.awake = true ∧ s.mbx.waiting = w :: rest
      ∧ ((w.msg = msgOf rq row.opcode ∧ s.pins.mgtHalted = true)
        ∨ (w.msg ≠ msgOf rq row.opcode ∧ (rest.any fun v => v.msg == msgOf rq row.opcode) = true))) :=
  let rq : Req := { ask [] with cred := 9, flags := 1 }
  let w : Wait := ⟨msgOf rq Cmd.sysPing.opcode, 0, 0, none⟩
  let v : Wait := ⟨msgOf (ask [1]) Cmd.sysPing.opcode, 0, 0, none⟩
  ⟨⟨_, _, _, rq, { ready with mbx.waiting := [w, v] }, w, [v], .sysPing, by decide +kernel⟩,
   ⟨_, _, _, rq, { ready with mbx.waiting := [v, w] }, v, [w], .sysPing, by decide +kernel⟩⟩

theorem test_met_UnattendedEnds :
    ∃ (cmd : Req → Instr) (row : CmdRow) (min : Nat) (rq : Req) (s : State), IsMailbox cmd row min ∧ rq.via = .spi ∧ s.mbx.unatt = true
      ∧ Admitted row min rq s :=
  ⟨_, _, _, ask [], { ready with mbx.unatt := true }, .sysPing, rfl, by decide +kernel, admitted_of (by decide +kernel)⟩

/-- M3 with a region that gives READ and WRITE, a LOCK region that gives READ, and a NODEBUG region. -/
def narrowed : State :=
  { ready with trust.acus := ready.trust.acus.set 3 { AcuSt.init with regions :=
      [⟨0x1110, 0x1110, true, false, false, true, true, false, 1, true⟩, ⟨0x1110, 0x1111, true, true, false, true, false, false, 0, true⟩,
       ⟨0x1112, 0x117F, true, false, true, true, false, false, 0, true⟩] } }

theorem test_met_AccessDecision :
    (∃ (s : State) (m k a : Nat) (d : Bool), ∃ r ∈ (s.acu m).regions,
      (r.valid = true ∧ r.base.toNat ≤ a / 4096 ∧ a / 4096 ≤ r.limit.toNat) ∧ r.lock = true
      ∧ (¬ ((k = 0 ∧ r.read = true) ∨ (k = 1 ∧ r.write = true) ∨ (2 ≤ k ∧ r.exec = true)) ∨ (d = true ∧ r.nodebug = true)))
    ∧ (∃ (s : State) (m k a : Nat) (d : Bool) (l : List Region) (r : Region) (l' : List Region),
      (∀ x ∈ (s.acu m).regions, (x.valid = true ∧ x.base.toNat ≤ a / 4096 ∧ a / 4096 ≤ x.limit.toNat) → x.lock = true →
        ((k = 0 ∧ x.read = true) ∨ (k = 1 ∧ x.write = true) ∨ (2 ≤ k ∧ x.exec = true)) ∧ ¬ (d = true ∧ x.nodebug = true))
      ∧ (s.acu m).regions = l ++ r :: l'
      ∧ (∀ x ∈ l, ¬ (x.valid = true ∧ x.base.toNat ≤ a / 4096 ∧ a / 4096 ≤ x.limit.toNat))
      ∧ (r.valid = true ∧ r.base.toNat ≤ a / 4096 ∧ a / 4096 ≤ r.limit.toNat)
      ∧ ((d = true ∧ r.nodebug = true) ∨ ¬ ((k = 0 ∧ r.read = true) ∨ (k = 1 ∧ r.write = true) ∨ (2 ≤ k ∧ r.exec = true))))
    ∧ (∃ (s : State) (m k a : Nat) (d : Bool) (l : List Region) (r : Region) (l' : List Region),
      (∀ x ∈ (s.acu m).regions, (x.valid = true ∧ x.base.toNat ≤ a / 4096 ∧ a / 4096 ≤ x.limit.toNat) → x.lock = true →
        ((k = 0 ∧ x.read = true) ∨ (k = 1 ∧ x.write = true) ∨ (2 ≤ k ∧ x.exec = true)) ∧ ¬ (d = true ∧ x.nodebug = true))
      ∧ (s.acu m).regions = l ++ r :: l'
      ∧ (∀ x ∈ l, ¬ (x.valid = true ∧ x.base.toNat ≤ a / 4096 ∧ a / 4096 ≤ x.limit.toNat))
      ∧ (r.valid = true ∧ r.base.toNat ≤ a / 4096 ∧ a / 4096 ≤ r.limit.toNat)
      ∧ ((k = 0 ∧ r.read = true) ∨ (k = 1 ∧ r.write = true) ∨ (2 ≤ k ∧ r.exec = true)) ∧ ¬ (d = true ∧ r.nodebug = true))
    ∧ (∃ (s : State) (m a : Nat), (s.acu m).regions ≠ []
      ∧ ∀ r ∈ (s.acu m).regions, ¬ (r.valid = true ∧ r.base.toNat ≤ a / 4096 ∧ a / 4096 ≤ r.limit.toNat)) :=
  ⟨⟨narrowed, 3, 1, 0x1110108, false, _, List.mem_cons_of_mem _ (List.mem_cons_self ..), by decide +kernel⟩,
    ⟨narrowed, 3, 0, 0x1112000, true, (narrowed.acu 3).regions.take 2, _, [], by decide +kernel, rfl, by decide +kernel, by decide +kernel,
      by decide +kernel⟩,
    ⟨narrowed, 3, 0, 0x1110108, false, [], _, (narrowed.acu 3).regions.drop 1, by decide +kernel, rfl, by decide +kernel, by decide +kernel,
      by decide +kernel⟩,
    ⟨narrowed, 3, 0x1180000, by decide +kernel, by decide +kernel⟩⟩

theorem test_met_CellHeaders :
    ∃ c : Cell, c.path < 4096 ∧ c.tc < 8 ∧ c.kind < 8 ∧ c.len < 1024 ∧ c.seq < 4096 ∧ c.cidx < 16 ∧ c.hcrc = hcrcOf c :=
  ⟨withHcrc ⟨4095, 7, 7, 1023, 4095, 15, true, true, true, true, 0, []⟩, by decide +kernel⟩

theorem test_met_CellsReadAgain :
    ∃ (c d : Cell) (rest : List Byte), rest ≠ [] ∧ ∀ x ∈ [c, d], x.path < 4096 ∧ x.tc < 8 ∧ x.kind < 8 ∧ x.len ≤ 256 ∧ x.seq < 4096 ∧ x.cidx < 16
      ∧ x.payload.length = x.len ∧ x.hcrc = hcrcOf x :=
  ⟨cell0, withHcrc ⟨4095, 7, 7, 256, 4095, 15, true, true, true, true, 0, zeros 256⟩, [1], by decide, by decide +kernel⟩

theorem test_met_RunsReadAgain :
    ∃ words : List (List Nat), words.flatten.length = 4 ∧ ∀ w ∈ words, ∀ x ∈ w, x < 1024 :=
  ⟨[[0, 1023], [512, 27]], by decide⟩

theorem test_met_StepTakesTheFront :
    ∃ s : State, s.pending = [] :=
  ⟨ready, rfl⟩

theorem test_met_EventQueues :
    (∃ (s : State) (n : Nat) (c : Chan), c ∈ mailboxes ∧ (s.chan c).mask.getLsbD n = true ∧ (s.chan c).queue.length < 255)
    ∧ (∃ (s : State) (n : Nat) (c : Chan), c ∈ mailboxes ∧ (s.chan c).mask.getLsbD n = true ∧ 255 ≤ (s.chan c).queue.length)
    ∧ (∃ (s : State) (n : Nat) (c : Chan), c ∈ mailboxes ∧ (s.chan c).mask.getLsbD n = false)
    ∧ (∃ s : State, (s.rcd.mode = 1 ∨ s.rcd.mode = 2) ∧ s.mem.lpddr = .active ∧ s.rcd.buffer = [] ∧ 0 < ringCap s)
    ∧ (∃ (rq : Req) (s : State), Admitted Cmd.sysEventRead 1 rq s ∧ (∀ i, rq.via ≠ .gate i) ∧ 1 ≤ arg rq 0 1 ∧ arg rq 0 1 ≤ 63)
    ∧ (∃ (l : List EventEntry), 
      let sorted := fun (l : List EventEntry) => l.Pairwise fun a b => a.tick = b.tick → a.slot = b.slot → a.num ≤ b.num
      sorted l)
    ∧ (∃ (e : EventEntry) (l : List EventEntry), 
      let mine := fun (v : EventEntry) => v.tick == e.tick && v.slot == e.slot
      (∀ v ∈ l, mine v = false)) :=
  ⟨⟨ready, 14, Chan.loc, by decide +kernel⟩,
   ⟨({ready with mbx.loc.queue := List.replicate 255 ⟨1,1,0,0,0⟩, mbx.loc.lost := 65535} : State), 14, Chan.loc, by decide +kernel⟩,
   ⟨ready, 14, Chan.dbg, by decide +kernel⟩,
   ⟨{ ready with rcd.mode := 1, mem.lpddr := .active }, by decide +kernel⟩,
   ⟨(ask [63]), ready, admitted_of (by decide +kernel), (by intro i h; cases h), by decide +kernel⟩,
   ⟨([⟨9,0,6,0,0⟩,⟨1,0,7,2,0⟩,⟨5,0,7,2,0⟩] : List EventEntry), by decide +kernel⟩,
   ⟨(⟨3,0,7,2,0⟩ : EventEntry), ([⟨9,0,6,0,0⟩] : List EventEntry), by decide +kernel⟩⟩

theorem test_met_TimebaseAndAlignment :
    (∃ (s : State), s.awake = true ∧ s.time.holdover = 0)
    ∧ (∃ (s : State), s.awake = true ∧ s.time.holdover = 1 ∧ s.cv Fld.HOLDOVER_TICKS ≤ s.time.hoTicks ∧ (∀ p < 2, (s.link p).state = 0
        ∧ (s.cpx p).step = 0 ∧ s.bringupOver p = false))
    ∧ (∃ (s : State), s.awake = true ∧ s.time.holdover = 1 ∧ s.time.hoTicks < s.cv Fld.HOLDOVER_TICKS)
    ∧ (∃ (s : State), s.awake = true ∧ s.time.holdover ≠ 0 ∧ (∀ p < 2, (s.cpx p).heldOff = false))
    ∧ (∃ (s : State) (p : Nat), s.awake = true ∧ p < 2 ∧ (s.alignOf p).align ≠ .notUp ∧ (s.alignOf p).align ≠ .lost
        ∧ s.cv Fld.SYNC_TIMEOUT_TICKS ≤ (s.alignOf p).sinceSync)
    ∧ (∃ (s : State) (p : Nat), s.awake = true ∧ p < 2 ∧ (s.alignOf p).align ≠ .notUp ∧ (s.alignOf p).sinceSync < s.cv Fld.SYNC_TIMEOUT_TICKS)
    ∧ (∃ (s : State) (p : Nat), s.awake = true ∧ p < 2 ∧ (s.alignOf p).stepDue = true ∧ (p = 1 → (s.alignOf 0).stepDue = false)
        ∧ s.time.slot = 0 ∧ s.time.masterKnown = true ∧ s.time.ports.length = 2)
    ∧ (∃ (s : State) (p : Nat), s.awake = true ∧ p < 2 ∧ s.time.masterKnown = false) :=
  ⟨⟨ready, by decide +kernel⟩,
   ⟨({ready with time.holdover := 1, time.hoTicks := 65535} : State), by decide +kernel⟩,
   ⟨({ready with time.holdover := 1} : State), by decide +kernel⟩,
   ⟨({ready with time.holdover := 1} : State), by decide +kernel⟩,
   ⟨(ready.setAlign 1 (fun a => {a with align := .locked, sinceSync := 60000})), 1, by decide +kernel⟩,
   ⟨(ready.setAlign 1 (fun a => {a with align := .locked})), 1, by decide +kernel⟩,
   ⟨({ready.setAlign 1 (fun a => {a with align := .lost, stepDue := true}) with time.masterKnown := true, time.masterTick := 77} : State), 1, by decide +kernel⟩,
   ⟨ready, 1, by decide +kernel⟩⟩

theorem test_met_SlotsOfTheTick :
    (∃ (s : State) (p : Nat), s.ticking ∧ p < 2 ∧ s.time.slot = 31 ∧ s.role 0 ≠ .up ∧ s.role 1 ≠ .up)
    ∧ (∃ (s : State) (p : Nat), s.ticking ∧ p < 2 ∧ s.time.slot = 31 ∧ s.role p = .up ∧ s.role (1 - p) ≠ .up ∧ s.plans p = true)
    ∧ (∃ (s : State) (p : Nat), 
      let l := s.link p
      s.ticking ∧ p < 2 ∧ s.time.slot = 40 ∧ s.isMaster p = true ∧ s.plans p = true ∧ s.isMaster (1 - p) = false ∧ l.demand = none)
    ∧ (∃ (s : State) (p : Nat), s.ticking ∧ p < 2 ∧ s.time.slot = 120 ∧ s.pwr.next = none)
    ∧ (∃ (s : State) (p : Nat) (pl : Plan), 
      let l := s.link p
      s.ticking ∧ p < 2 ∧ s.time.slot = 200 ∧ s.isMaster p = true ∧ s.plans p = true ∧ s.isMaster (1 - p) = false
        ∧ s.cable.links.length = 2 ∧ l.planFor (s.time.tick.toNat + 2) = some pl ∧ l.sealed = false)
    ∧ (∃ (s : State) (p : Nat) (pl : Plan), 
      let l := s.link p
      s.ticking ∧ p < 2 ∧ s.time.slot = 200 ∧ s.isMaster p = true ∧ s.plans p = true ∧ s.isMaster (1 - p) = false
        ∧ s.cable.links.length = 2 ∧ l.planFor (s.time.tick.toNat + 2) = some pl ∧ l.sealed = true)
    ∧ (∃ (s : State) (p : Nat), 
      let l := s.link p
      s.ticking ∧ p < 2 ∧ s.time.slot = 240 ∧ s.role p = .up ∧ s.plans p = true ∧ s.role (1 - p) ≠ .up
        ∧ l.planFor (s.time.tick.toNat + 2) = none)
    ∧ (∃ (s : State) (p : Nat), s.ticking ∧ p < 2 ∧ s.time.slot = 249 ∧ s.plan.shadow = none)
    ∧ (∃ (s : State), s.awake = true)
    ∧ (∃ (s : State), s.awake = true ∧ 8 ≤ s.plan.silent ∧ s.plan.lapse < 8)
    ∧ (∃ (s : State), s.awake = true ∧ (s.plan.silent < 8 ∨ 8 ≤ s.plan.lapse))
    ∧ (∃ (s : State), s.awake = true ∧ 64 ≤ s.plan.silent ∧ s.plan.lapse ≠ 64 ∧ s.fwRuns = false)
    ∧ (∃ (s : State), s.awake = true ∧ 64 ≤ s.plan.silent ∧ s.plan.lapse ≠ 64 ∧ s.fwRuns = true ∧ s.fault.log = [])
    ∧ (∃ (s : State), s.awake = true ∧ (s.plan.silent < 64 ∨ s.plan.lapse = 64)) :=
  ⟨⟨({ready with time.slot := 31} : State), 0, by decide +kernel⟩,
   ⟨(({ready with time.slot := 31, topo.portRole := [.up, .none]} : State).setLink 0 (fun l => {l with state := 3, elected := true})), 0, by decide +kernel⟩,
   ⟨(({ready with time.slot := 40, topo.portRole := [.down, .none]} : State).setLink 0 (fun l => {l with state := 3, elected := true})), 0, by decide +kernel⟩,
   ⟨({ready with time.slot := 120} : State), 0, by decide +kernel⟩,
   ⟨(({ready with time.slot := 200, topo.portRole := [.down, .none]} : State).setLink 0 (fun l => {l with state := 3, elected := true, plan2 := some (⟨2,true,false,1,[]⟩ : Plan)})), 0, (⟨2,true,false,1,[]⟩ : Plan), by decide +kernel⟩,
   ⟨(({ready with time.slot := 200, topo.portRole := [.down, .none]} : State).setLink 0 (fun l => {l with state := 3, elected := true, plan2 := some (⟨2,true,false,1,[]⟩ : Plan), encrypt := true, keysIn := true})), 0, (⟨2,true,false,1,[]⟩ : Plan), by decide +kernel⟩,
   ⟨(({ready with time.slot := 240, topo.portRole := [.up, .none]} : State).setLink 0 (fun l => {l with state := 3, elected := true})), 0, by decide +kernel⟩,
   ⟨({ready with time.slot := 249} : State), 0, by decide +kernel⟩,
   ⟨ready, by decide +kernel⟩,
   ⟨({ready with plan.silent := 8} : State), by decide +kernel⟩,
   ⟨ready, by decide +kernel⟩,
   ⟨({ready with plan.silent := 64, boot.stage := 0} : State), by decide +kernel⟩,
   ⟨({ready with plan.silent := 64} : State), by decide +kernel⟩,
   ⟨ready, by decide +kernel⟩⟩

theorem test_met_PlannerCommands :
    (∃ (rq : Req) (s : State), Admitted Cmd.planBudgetSet 4 rq s)
    ∧ (∃ (rq : Req) (s : State), Admitted Cmd.planShaperSet 12 rq s ∧ arg rq 0 1 ≤ 11 ∧ arg rq 1 1 ≤ 7 ∧ s.plan.shaperSet.length < 32)
    ∧ (∃ (rq : Req) (s : State), Admitted Cmd.planShaperSet 12 rq s ∧ (11 < arg rq 0 1 ∨ 7 < arg rq 1 1))
    ∧ (∃ (rq : Req) (s : State), Admitted Cmd.planContractClear 2 rq s ∧ (arg rq 0 2 ≠ 0xFFFF ∧ ∃ c ∈ s.plan.contracts, c.id = arg rq 0 2))
    ∧ (∃ (rq : Req) (s : State), Admitted Cmd.planContractClear 2 rq s ∧ arg rq 0 2 = 0xFFFF)
    ∧ (∃ (rq : Req) (s : State), Admitted Cmd.planContractClear 2 rq s ∧ (arg rq 0 2 ≠ 0xFFFF ∧ ∀ c ∈ s.plan.contracts, c.id ≠ arg rq 0 2))
    ∧ (∃ (rq : Req) (s : State), Admitted Cmd.planContractSet 24 rq s ∧ (contractOk (s.parseContract rq.payload) = true
        ∧ (∀ c ∈ s.plan.contracts, c.id ≠ arg rq 0 2) ∧ s.plan.contracts.length < 256
        ∧ s.capacityTest (s.plan.contracts ++ [s.parseContract rq.payload]) (s.parseContract rq.payload) = true
        ∧ s.energyTest (s.plan.contracts ++ [s.parseContract rq.payload]) = true))
    ∧ (∃ (rq : Req) (s : State), Admitted Cmd.planContractSet 24 rq s ∧ contractOk (s.parseContract rq.payload) = false)
    ∧ (∃ (rq : Req) (s : State), Admitted Cmd.planBudgetShow 0 rq s)
    ∧ (∃ (rq : Req) (s : State), Admitted Cmd.planShow 2 rq s ∧ arg rq 0 1 ≤ 11 ∧ arg rq 1 1 = 1 ∧ s.plan.shadow = none)
    ∧ (∃ (rq : Req) (s : State), Admitted Cmd.planShow 2 rq s ∧ arg rq 0 1 ≤ 11 ∧ arg rq 1 1 = 0
        ∧ nth s.plan.inForce.outs (arg rq 0 1) .reset = .reset ∧ s.plan.drrDc = List.replicate 96 0)
    ∧ (∃ (rq : Req) (s : State), Admitted Cmd.planContractShow 2 rq s ∧ (∃ c, s.plan.contracts = [c] ∧ c.id = arg rq 0 2))
    ∧ (∃ (rq : Req) (s : State), Admitted Cmd.planContractShow 2 rq s ∧ (∀ c ∈ s.plan.contracts, c.id ≠ arg rq 0 2))
    ∧ (∃ (rq : Req) (s : State), Admitted Cmd.planSampleShow 3 rq s ∧ (arg rq 0 1 ≤ 11 ∧ arg rq 1 1 ≤ 7 ∧ arg rq 2 1 = 1
        ∧ ∃ x, s.plan.samples = [x] ∧ x.outp = arg rq 0 1 ∧ x.tc = arg rq 1 1 ∧ x.tick = s.time.tick - 1 ∧ x.delay ≠ none))
    ∧ (∃ (rq : Req) (s : State), Admitted Cmd.planCostShow 0 rq s) :=
  ⟨⟨(ask [0,0,0,0]), ready, admitted_of (by decide +kernel)⟩,
   ⟨(ask [11,7,0,0,16,0,0,0,1,0,0,0]), ready, admitted_of (by decide +kernel), by decide +kernel⟩,
   ⟨(ask [12,0,0,0,0,0,0,0,0,0,0,0]), ready, admitted_of (by decide +kernel), by decide +kernel⟩,
   ⟨(ask [16,0]), ({ready with plan.contracts := [⟨16,2,1,10,11,50,32,500,500,8,false,1,10,10,0,0,0⟩]} : State), admitted_of (by decide +kernel), by decide +kernel⟩,
   ⟨(ask [255,255]), ready, admitted_of (by decide +kernel), by decide +kernel⟩,
   ⟨(ask [1,0]), ready, admitted_of (by decide +kernel), by decide +kernel⟩,
   ⟨(ask [5,0,2,1,10,11,50,1,0,0,0,0,0,0,0,0,8,0,0,0,0,0,0,0]), ready, admitted_of (by decide +kernel), by decide +kernel⟩,
   ⟨(ask (zeros 24)), ready, admitted_of (by decide +kernel), by decide +kernel⟩,
   ⟨(ask []), ready, admitted_of (by decide +kernel)⟩,
   ⟨(ask [11,1]), ready, admitted_of (by decide +kernel), by decide +kernel⟩,
   ⟨(ask [11,0]), ready, admitted_of (by decide +kernel), by decide +kernel⟩,
   ⟨(ask [16,0]), ({ready with plan.contracts := [(⟨16,2,1,10,11,50,32,500,500,8,false,1,10,10,0,0,0⟩ : Contract)]} : State), admitted_of (by decide +kernel), ⟨(⟨16,2,1,10,11,50,32,500,500,8,false,1,10,10,0,0,0⟩ : Contract), by decide +kernel⟩⟩,
   ⟨(ask [1,0]), ready, admitted_of (by decide +kernel), by decide +kernel⟩,
   ⟨(ask [3,2,1]), ({ready with time.tick := 50, plan.samples := [(⟨3,2,49,5,6,none,some 7⟩ : Sample)]} : State), admitted_of (by decide +kernel), ⟨by decide +kernel, by decide +kernel, by decide +kernel, ⟨(⟨3,2,49,5,6,none,some 7⟩ : Sample), by decide +kernel⟩⟩⟩,
   ⟨(ask []), ready, admitted_of (by decide +kernel)⟩⟩

theorem test_met_LaneTraining :
    (∃ (s : State) (p : Nat), s.awake = true ∧ p < 2 ∧ s.phyOut p = false ∧ s.linkUp p = false ∧ s.bringupOver p = false ∧ s.time.holdover ≠ 2)
    ∧ (∃ (s : State) (p : Nat), s.awake = true ∧ p < 2 ∧ s.phyOut p = false ∧ s.linkUp p = false ∧ s.bringupOver p = false ∧ s.time.holdover = 2)
    ∧ (∃ (s : State) (p : Nat), s.awake = true ∧ p < 2 ∧ s.phyOut p = false ∧ (s.cpx p).step = 8
        ∧ s.passed (s.cpx p).since (msTicks 100) = true ∧ s.time.holdover ≠ 2)
    ∧ (∃ (s : State) (p : Nat), s.awake = true ∧ p < 2 ∧ s.phyOut p = false ∧ s.passed (s.cpx p).since (msTicks 100) = false)
    ∧ (∃ (s : State) (p : Nat), s.awake = true ∧ p < 2 ∧ s.phyOut p = false ∧ (((s.cpx p).lanes.any fun l => l.state == .floor) = true)
        ∧ s.passed (s.cpx p).floorAt (secTicks 1) = true ∧ s.linkUp p = false ∧ s.time.holdover ≠ 2)
    ∧ (∃ (s : State) (p : Nat), s.awake = true ∧ p < 2 ∧ s.phyOut p = false ∧ s.passed (s.cpx p).floorAt (secTicks 1) = false)
    ∧ (∃ (s : State) (p : Nat) (res : List LaneRes), s.awake = true ∧ p < 2 ∧ s.phyOut p = false ∧ s.linkUp p = false ∧ (s.cpx p).step = 1
        ∧ (∀ r ∈ res, r.fwd = true))
    ∧ (∃ (s : State) (p : Nat), s.awake = true ∧ p < 2 ∧ s.phyOut p = false ∧ s.linkUp p = false ∧ (s.cpx p).step = 3
        ∧ (s.link p).elected = true ∧ (s.link p).keysIn = true ∧ s.role p = .down ∧ (s.link p).gen1 = false)
    ∧ (∃ (s : State) (p : Nat) (res : List LaneRes), s.awake = true ∧ p < 2 ∧ s.phyOut p = false ∧ s.linkUp p = false ∧ (s.cpx p).step = 4
        ∧ (∀ r ∈ res, r.fwd = true ∧ r.rev = true) ∧ (∀ l ∈ (s.cpx p).lanes, l.state ≠ .train)) :=
  ⟨⟨ready, 1, by decide +kernel⟩,
   ⟨({ready with time.holdover := 2} : State), 1, by decide +kernel⟩,
   ⟨(cp late 1 (fun c => {c with step := 8})), 1, by decide +kernel⟩,
   ⟨(cp ready 1 (fun c => {c with step := 8})), 1, by decide +kernel⟩,
   ⟨(lane' late 1 3 (fun l => {l with state := .floor})), 1, by decide +kernel⟩,
   ⟨(lane' ready 1 3 (fun l => {l with state := .floor})), 1, by decide +kernel⟩,
   ⟨(cp ready 1 (fun c => {c with step := 1})), 1, ([res0,res0,res0,res0]), by decide +kernel⟩,
   ⟨(lk (cp {ready with topo.portRole := [.none,.down]} 1 (fun c => {c with step := 3})) 1 (fun l => {l with elected := true, keysIn := true})), 1, by decide +kernel⟩,
   ⟨(cp ready 1 (fun c => {c with step := 4})), 1, ([res0,res0,res0,res0]), by decide +kernel⟩⟩

theorem test_met_LaneStates :
    (∃ (s : State) (p : Nat) (k : Nat), 
      let l := s.lane p k
      s.awake = true ∧ p < 2 ∧ k < 4 ∧ (s.link p).gen1 = false ∧ s.turnsNow p k = true ∧ l.forward = (s.txDir p == 1))
    ∧ (∃ (s : State) (p : Nat) (k : Nat), 
      let l := s.lane p k
      s.awake = true ∧ p < 2 ∧ k < 4 ∧ (s.link p).gen1 = false ∧ s.turnsNow p k = true ∧ l.forward = (s.txDir p != 1) ∧ rateIdx l.rate < 3)
    ∧ (∃ (s : State) (p : Nat) (k : Nat), s.awake = true ∧ p < 2 ∧ k < 4 ∧ ((s.link p).gen1 = true ∨ s.turnsNow p k = false))
    ∧ (∃ (s : State) (p : Nat) (k : Nat), 
      let l := s.lane p k
      s.awake = true ∧ p < 2 ∧ k < 4 ∧ l.state = .l0 ∧ l.turnHold = true)
    ∧ (∃ (s : State) (p : Nat) (k : Nat), 
      let l := s.lane p k
      s.awake = true ∧ p < 2 ∧ k < 4 ∧ l.state = .l1x ∧ ((l.ready.any fun t => reached s.time.tick (t - 1)) = true))
    ∧ (∃ (s : State) (p : Nat) (k : Nat), 
      let l := s.lane p k
      s.awake = true ∧ p < 2 ∧ k < 4 ∧ ((l.ready.any fun t => reached s.time.tick (t - 1)) = false))
    ∧ (∃ (s : State) (p : Nat) (k : Nat), 
      let l := s.lane p k
      s.awake = true ∧ p < 2 ∧ k < 4 ∧ l.state = .l0 ∧ l.slipTicks = [] ∧ l.slipEv = none ∧ 2 ≤ s.cv Fld.SLIP_LIMIT
        ∧ (∀ x ∈ (s.link p).coach, x.lane ≠ k) ∧ s.cutCoach p k = none ∧ l.turnHold = false)
    ∧ (∃ (s : State) (p : Nat) (k : Nat) (trig : Nat), 
      let l := s.lane p k
      s.awake = true ∧ p < 2 ∧ k < 4 ∧ s.recalTrips p k trig = true ∧ laneServes l = true ∧ l.state ≠ .train ∧ s.linkUp p = true
        ∧ (s.link p).gen1 = false ∧ s.recalCond p k = true ∧ l.recal = none)
    ∧ (∃ (s : State) (p : Nat) (k : Nat) (trig : Nat), s.awake = true ∧ p < 2 ∧ k < 4 ∧ s.recalTrips p k trig = false)
    ∧ (∃ (s : State) (p : Nat) (k : Nat) (r : Recal), 
      let l := s.lane p k
      s.awake = true ∧ p < 2 ∧ k < 4 ∧ l.recal = some r ∧ r.step = 0 ∧ l.test = none ∧ s.heldBack p k = true
        ∧ s.passed r.since (msTicks (s.cv Fld.RECAL_DEFER_MS)) = true)
    ∧ (∃ (s : State) (p : Nat) (k : Nat), s.awake = true ∧ p < 2 ∧ k < 4 ∧ s.heldBack p k = false)
    ∧ (∃ (s : State) (p : Nat) (k : Nat) (r : Recal) (res : LaneRes), 
      let l := s.lane p k
      s.awake = true ∧ p < 2 ∧ k < 4 ∧ s.phyOut p = false ∧ l.state = .cal ∧ l.recal = some r ∧ r.step = 3 ∧ s.recalCond p k = true
        ∧ res.fwd = true ∧ res.rev = true)
    ∧ (∃ (s : State) (p : Nat) (k : Nat), s.awake = true ∧ p < 2 ∧ k < 4 ∧ s.recalCond p k = false)
    ∧ (∃ (s : State) (p : Nat) (k : Nat), s.awake = true ∧ p < 2 ∧ k < 4 ∧ s.cv Fld.LANE_RETRY_S ≠ 0
        ∧ s.passed (s.cpx p).retryAt (secTicks (s.cv Fld.LANE_RETRY_S)) = true ∧ (s.link p).gen1 = false
        ∧ (s.lane p 3).state = .retired ∧ firmCause (s.lane p 3).cause = false ∧ (s.lane p 3).recal = none
        ∧ (∀ j < 3, (s.lane p j).state ≠ .retired) ∧ (s.link p).state < 2)
    ∧ (∃ (s : State) (p : Nat) (k : Nat), s.awake = true ∧ p < 2 ∧ k < 4
        ∧ (s.cv Fld.LANE_RETRY_S = 0 ∨ s.passed (s.cpx p).retryAt (secTicks (s.cv Fld.LANE_RETRY_S)) = false)) :=
  ⟨⟨(lk (lane' ready 1 3 (fun l => {l with state := .l0, rate := .f, forward := true})) 1 (fun l => {l with plan0 := some ⟨0,true,false,0,[[],[],[],[⟨0,1,0,false⟩]]⟩})), 1, 3, by decide +kernel⟩,
   ⟨(lk (lane' ready 1 3 (fun l => {l with state := .l0, rate := .f, forward := false})) 1 (fun l => {l with plan0 := some ⟨0,true,false,0,[[],[],[],[⟨0,0,0,false⟩]]⟩})), 1, 3, by decide +kernel⟩,
   ⟨ready, 1, 3, by decide +kernel⟩,
   ⟨(lane' ready 1 3 (fun l => {l with state := .l0, turnHold := true})), 1, 3, by decide +kernel⟩,
   ⟨(lane' ready 1 3 (fun l => {l with state := .l1x, ready := some 1})), 1, 3, by decide +kernel⟩,
   ⟨(lane' ready 1 3 (fun l => {l with state := .l1x, ready := some 7})), 1, 3, by decide +kernel⟩,
   ⟨(lane' ready 1 3 (fun l => {l with state := .l0})), 1, 3, by decide +kernel⟩,
   ⟨(lane' (lk (l0s ready 1) 1 (fun l => {l with state := 3})) 1 3 (fun l => {l with calTemp := 500})), 1, 3, 1, by decide +kernel⟩,
   ⟨(lk (l0s ready 1) 1 (fun l => {l with state := 3})), 1, 3, 0, by decide +kernel⟩,
   ⟨({lane' late 1 3 (fun l => {l with recal := some ({ trig := 1, force := false, restore := false, jobs := [], step := 0, atH := false, fwdOk := true, revOk := true, why := 0, since := 0, expired := false, micros := 0 } : Recal)}) with plan.latched := [⟨16,2,1,10,1,50,32,500,500,8,false,1,10,10,0,0,0⟩]}), 1, 3, ({ trig := 1, force := false, restore := false, jobs := [], step := 0, atH := false, fwdOk := true, revOk := true, why := 0, since := 0, expired := false, micros := 0 } : Recal), by decide +kernel⟩,
   ⟨({ready with cable.links := []}), 1, 3, by decide +kernel⟩,
   ⟨(lane' (lk (l0s ready 1) 1 (fun l => {l with state := 3})) 1 3 (fun l => {l with state := .cal, recal := some ({ trig := 1, force := false, restore := false, jobs := [], step := 3, atH := false, fwdOk := true, revOk := true, why := 0, since := 0, expired := false, micros := 0 } : Recal)})), 1, 3, ({ trig := 1, force := false, restore := false, jobs := [], step := 3, atH := false, fwdOk := true, revOk := true, why := 0, since := 0, expired := false, micros := 0 } : Recal), res0, by decide +kernel⟩,
   ⟨ready, 1, 3, by decide +kernel⟩,
   ⟨(lane' (setc Fld.LANE_RETRY_S 5 late) 1 3 (fun l => {l with state := .retired, cause := 3})), 1, 3, by decide +kernel⟩,
   ⟨(lane' (setc Fld.LANE_RETRY_S 5 ready) 1 3 (fun l => {l with state := .retired, cause := 3})), 1, 3, by decide +kernel⟩⟩

theorem test_met_LaneCommands :
    (∃ (rq : Req) (s : State), 
      let ok := fun (rq : Req) => arg rq 0 1 ≤ 1 ∧ arg rq 1 1 ≤ 3
      Admitted Cmd.linkLaneShow 2 rq s ∧ ok rq)
    ∧ (∃ (rq : Req) (s : State), 
      let ok := fun (rq : Req) => arg rq 0 1 ≤ 1 ∧ arg rq 1 1 ≤ 3
      let lane := fun (rq : Req) (s : State) => s.lane (arg rq 0 1) (arg rq 1 1)
      Admitted Cmd.linkLanePrbs 8 rq s ∧ s.jobRoom rq ∧ ok rq ∧ 1 ≤ arg rq 2 1 ∧ arg rq 2 1 ≤ 3 ∧ arg rq 3 1 ≤ 2 ∧ arg rq 4 2 ≠ 0
        ∧ (lane rq s).test = none ∧ laneServes (lane rq s) = true ∧ (lane rq s).state ≠ .train)
    ∧ (∃ (rq : Req) (s : State), 
      let ok := fun (rq : Req) => arg rq 0 1 ≤ 1 ∧ arg rq 1 1 ≤ 3
      let lane := fun (rq : Req) (s : State) => s.lane (arg rq 0 1) (arg rq 1 1)
      Admitted Cmd.linkLanePrbs 8 rq s ∧ ok rq ∧ arg rq 2 1 = 0 ∧ (lane rq s).test = none)
    ∧ (∃ (rq : Req) (s : State), 
      let ok := fun (rq : Req) => arg rq 0 1 ≤ 1 ∧ arg rq 1 1 ≤ 3
      let lane := fun (rq : Req) (s : State) => s.lane (arg rq 0 1) (arg rq 1 1)
      Admitted Cmd.linkLaneInject 12 rq s ∧ ok rq ∧ arg rq 2 1 = 3 ∧ (lane rq s).state = .l0 ∧ arg rq 4 4 ≠ 0)
    ∧ (∃ (rq : Req) (s : State), 
      let ok := fun (rq : Req) => arg rq 0 1 ≤ 1 ∧ arg rq 1 1 ≤ 3
      Admitted Cmd.linkLaneInject 12 rq s ∧ ok rq ∧ arg rq 2 1 = 0)
    ∧ (∃ (rq : Req) (s : State), 
      let ok := fun (rq : Req) => arg rq 0 1 ≤ 1 ∧ arg rq 1 1 ≤ 3
      Admitted Cmd.linkLaneClear 2 rq s ∧ ok rq)
    ∧ (∃ (rq : Req) (s : State), 
      let ok := fun (rq : Req) => arg rq 0 1 ≤ 1 ∧ arg rq 1 1 ≤ 3
      let lane := fun (rq : Req) (s : State) => s.lane (arg rq 0 1) (arg rq 1 1)
      Admitted Cmd.linkLaneRecal 4 rq s ∧ s.jobRoom rq ∧ ok rq ∧ laneServes (lane rq s) = true ∧ (lane rq s).state ≠ .train
        ∧ (s.link (arg rq 0 1)).gen1 = false ∧ s.recalCond (arg rq 0 1) (arg rq 1 1) = true ∧ (lane rq s).recal = none)
    ∧ (∃ (rq : Req) (s : State), 
      let ok := fun (rq : Req) => arg rq 0 1 ≤ 1 ∧ arg rq 1 1 ≤ 3
      let lane := fun (rq : Req) (s : State) => s.lane (arg rq 0 1) (arg rq 1 1)
      Admitted Cmd.linkLaneRetire 4 rq s ∧ ok rq ∧ arg rq 2 1 = 0 ∧ (lane rq s).state ≠ .retired ∧ (lane rq s).recal = none
        ∧ (lane rq s).test = none ∧ (s.link (arg rq 0 1)).state = 0)
    ∧ (∃ (rq : Req) (s : State), 
      let ok := fun (rq : Req) => arg rq 0 1 ≤ 1 ∧ arg rq 1 1 ≤ 3
      let lane := fun (rq : Req) (s : State) => s.lane (arg rq 0 1) (arg rq 1 1)
      Admitted Cmd.linkLaneRestore 2 rq s ∧ ok rq ∧ (lane rq s).state = .retired
        ∧ bitAt (s.applied (laneMaskFld (arg rq 0 1))) (arg rq 1 1) = true ∧ (s.link (arg rq 0 1)).state < 2)
    ∧ (∃ (s : State) (p : Nat) (k : Nat) (t0 : LaneTest), s.awake = true ∧ p < 2 ∧ k < 4 ∧ (s.lane p k).test = some t0 ∧ t0.started = true
        ∧ t0.job = none ∧ t0.stop = none ∧ t0.ticks ≤ t0.ran ∧ (s.lane p k).rate ≠ .g1 ∧ (s.lane p k).rate ≠ .t)
    ∧ (∃ (s : State) (p : Nat) (k : Nat) (t0 : LaneTest), s.awake = true ∧ p < 2 ∧ k < 4 ∧ (s.lane p k).test = some t0 ∧ t0.started = true
        ∧ t0.job = none ∧ t0.stop = none ∧ t0.ticks ≤ t0.ran ∧ ((s.lane p k).rate = .g1 ∨ (s.lane p k).rate = .t))
    ∧ (∃ (s : State) (p : Nat) (k : Nat) (t0 : LaneTest), s.awake = true ∧ p < 2 ∧ k < 4 ∧ (s.lane p k).test = some t0 ∧ t0.stop = none
        ∧ t0.ran < t0.ticks)
    ∧ (∃ (s : State) (p : Nat) (k : Nat), s.awake = true ∧ p < 2 ∧ k < 4 ∧ s.linkUp p = true ∧ s.phyOut p = false ∧ s.cable.links.length = 2) :=
  ⟨⟨(ask [1,3]), ready, admitted_of (by decide +kernel), by decide +kernel⟩,
   ⟨(ask [1,3,3,2,1,0,1,0]), (l0s ready 1), admitted_of (by decide +kernel), by decide +kernel⟩,
   ⟨(ask [1,3,0,0,0,0,0,0]), ready, admitted_of (by decide +kernel), by decide +kernel⟩,
   ⟨(ask [1,3,3,1,1,0,0,0,2,0,0,0]), (l0s ready 1), admitted_of (by decide +kernel), by decide +kernel⟩,
   ⟨(ask [1,3,0,1,1,0,0,0,2,0,0,0]), ready, admitted_of (by decide +kernel), by decide +kernel⟩,
   ⟨(ask [1,3]), ready, admitted_of (by decide +kernel), by decide +kernel⟩,
   ⟨(ask [1,3,1,0]), (lk (l0s ready 1) 1 (fun l => {l with state := 3})), admitted_of (by decide +kernel), by decide +kernel⟩,
   ⟨(ask [1,3,0,0]), ready, admitted_of (by decide +kernel), by decide +kernel⟩,
   ⟨(ask [1,3]), (lane' ready 1 3 (fun l => {l with state := .retired})), admitted_of (by decide +kernel), by decide +kernel⟩,
   ⟨(lane' (l0s ready 1) 1 3 (fun l => {l with test := some ({ pattern := 1, dir := 0, ticks := 3, force := false, job := none, stop := none, started := true, ran := 3, since := 0, expired := false } : LaneTest)})), 1, 3, ({ pattern := 1, dir := 0, ticks := 3, force := false, job := none, stop := none, started := true, ran := 3, since := 0, expired := false } : LaneTest), by decide +kernel⟩,
   ⟨(lane' ready 1 3 (fun l => {l with state := .test, rate := .t, test := some ({ pattern := 1, dir := 0, ticks := 3, force := false, job := none, stop := none, started := true, ran := 3, since := 0, expired := false } : LaneTest)})), 1, 3, ({ pattern := 1, dir := 0, ticks := 3, force := false, job := none, stop := none, started := true, ran := 3, since := 0, expired := false } : LaneTest), by decide +kernel⟩,
   ⟨(lane' ready 1 3 (fun l => {l with test := some ({ pattern := 1, dir := 0, ticks := 3, force := false, job := none, stop := none, started := true, ran := 2, since := 0, expired := false } : LaneTest)})), 1, 3, ({ pattern := 1, dir := 0, ticks := 3, force := false, job := none, stop := none, started := true, ran := 2, since := 0, expired := false } : LaneTest), by decide +kernel⟩,
   ⟨(lk (l0s ready 1) 1 (fun l => {l with state := 3})), 1, 3, by decide +kernel⟩⟩

theorem test_met_CellsReceived :
    (∃ (s : State) (p : Nat) (k : Nat), s.awake = true ∧ p < 2 ∧ k < 4 ∧ (s.lane p k).discard = true)
    ∧ (∃ (s : State) (p : Nat) (k : Nat) (c : Cell) (errs : List Nat), s.awake = true ∧ p < 2 ∧ k < 4 ∧ (s.lane p k).discard = false
        ∧ (cellOk c = false ∨ ∃ e ∈ errs, 15 < e) ∧ s.coachRx p k = [] ∧ s.cutCoach p k = none ∧ s.expressOf p k = [])
    ∧ (∃ (s : State) (p : Nat) (k : Nat) (c : Cell) (errs : List Nat), 
      let l := s.link p
      let whole := (s.lane p k).discard = false ∧ cellOk c = true ∧ ∀ e ∈ errs, e ≤ 15
      s.awake = true ∧ p < 2 ∧ k < 4 ∧ whole ∧ l.huntOf k = some none)
    ∧ (∃ (s : State) (p : Nat) (k : Nat) (c : Cell) (errs : List Nat), 
      let l := s.link p
      let whole := (s.lane p k).discard = false ∧ cellOk c = true ∧ ∀ e ∈ errs, e ≤ 15
      let reads := whole ∧ l.huntOf k = none
      s.awake = true ∧ p < 2 ∧ k < 4 ∧ reads ∧ 2 ≤ c.kind ∧ kindOk c = false)
    ∧ (∃ (s : State) (p : Nat) (k : Nat) (c : Cell) (errs : List Nat), 
      let l := s.link p
      let whole := (s.lane p k).discard = false ∧ cellOk c = true ∧ ∀ e ∈ errs, e ≤ 15
      let reads := whole ∧ l.huntOf k = none
      let first := c.kind ≤ 1 ∧ l.keysIn = true ∧ s.coachRx p k = [] ∧ c.cidx = 0 ∧ nth s.sw.pendCoach p 0 < 64
      s.awake = true ∧ p < 2 ∧ k < 4 ∧ reads ∧ first ∧ kindOk c = false)
    ∧ (∃ (s : State) (p : Nat) (k : Nat) (c : Cell) (errs : List Nat), 
      let l := s.link p
      let whole := (s.lane p k).discard = false ∧ cellOk c = true ∧ ∀ e ∈ errs, e ≤ 15
      let reads := whole ∧ l.huntOf k = none
      let first := c.kind ≤ 1 ∧ l.keysIn = true ∧ s.coachRx p k = [] ∧ c.cidx = 0 ∧ nth s.sw.pendCoach p 0 < 64
      s.awake = true ∧ p < 2 ∧ k < 4 ∧ reads ∧ first ∧ kindOk c = true ∧ c.path ≠ 2 ∧ l.entry c.path = none)
    ∧ (∃ (s : State) (p : Nat) (k : Nat) (c : Cell) (errs : List Nat) (f : FlowSt), 
      let l := s.link p
      let whole := (s.lane p k).discard = false ∧ cellOk c = true ∧ ∀ e ∈ errs, e ≤ 15
      let reads := whole ∧ l.huntOf k = none
      let first := c.kind ≤ 1 ∧ l.keysIn = true ∧ s.coachRx p k = [] ∧ c.cidx = 0 ∧ nth s.sw.pendCoach p 0 < 64
      let ahead := fun (f : FlowSt) => 0 < (c.seq + 4096 - f.rxNext) % 4096 ∧ (c.seq + 4096 - f.rxNext) % 4096 < 2048
      s.awake = true ∧ p < 2 ∧ k < 4 ∧ reads ∧ first ∧ kindOk c = true ∧ c.path = 2 ∧ l.flow 2 = some f ∧ ahead f)
    ∧ (∃ (s : State) (p : Nat) (k : Nat) (c : Cell) (errs : List Nat) (e : PathEntry) (f : FlowSt), 
      let l := s.link p
      let whole := (s.lane p k).discard = false ∧ cellOk c = true ∧ ∀ e ∈ errs, e ≤ 15
      let reads := whole ∧ l.huntOf k = none
      let first := c.kind ≤ 1 ∧ l.keysIn = true ∧ s.coachRx p k = [] ∧ c.cidx = 0 ∧ nth s.sw.pendCoach p 0 < 64
      let ahead := fun (f : FlowSt) => 0 < (c.seq + 4096 - f.rxNext) % 4096 ∧ (c.seq + 4096 - f.rxNext) % 4096 < 2048
      s.awake = true ∧ p < 2 ∧ k < 4 ∧ reads ∧ first ∧ kindOk c = true ∧ c.path ≠ 2 ∧ l.entry c.path = some e ∧ e.suspended = false
        ∧ e.tc = c.tc ∧ l.flow c.path = some f ∧ ahead f)
    ∧ (∃ (s : State) (p : Nat) (k : Nat) (c : Cell) (errs : List Nat) (ctr : Nat) (old : Bool) (tag : List Byte), 
      let l := s.link p
      let whole := (s.lane p k).discard = false ∧ cellOk c = true ∧ ∀ e ∈ errs, e ≤ 15
      let reads := whole ∧ l.huntOf k = none
      s.awake = true ∧ p < 2 ∧ k < 4 ∧ reads ∧ c.kind = 2 ∧ kindOk c = true ∧ l.sealed = true ∧ tag ≠ ownTag (l.rxKey old) ctr c)
    ∧ (∃ (s : State) (p : Nat) (k : Nat), s.awake = true ∧ p < 2 ∧ k < 4 ∧ s.coachRx p k = [])
    ∧ (∃ (s : State) (p : Nat) (k : Nat) (tag : List Byte) (y : RxCell), 
      let l := s.link p
      s.awake = true ∧ p < 2 ∧ k < 4 ∧ s.coachRx p k = [y] ∧ y.cell.kind = 1 ∧ y.cell.poison = false ∧ tag.length = 16
        ∧ s.coachOk p k tag = true ∧ s.cutCoach p k = none ∧ l.sealed = false)
    ∧ (∃ (s : State) (p : Nat) (k : Nat) (tag : List Byte) (y : RxCell),
      s.awake = true ∧ p < 2 ∧ k < 4 ∧ s.coachRx p k = [y] ∧ y.cell.kind = 1 ∧ y.cell.poison = false ∧ tag.length = 16
      ∧ s.coachOk p k tag = true ∧ s.cutCoach p k = none ∧ (s.link p).sealed = true)
    ∧ (∃ (s : State) (p : Nat) (k : Nat) (tag : List Byte) (y : RxCell), 
      let l := s.link p
      s.awake = true ∧ p < 2 ∧ k < 4 ∧ s.coachRx p k = [y] ∧ y.cell.kind = 1 ∧ tag.length = 16 ∧ s.coachOk p k tag = false
        ∧ s.cable.links.length = 2 ∧ s.cutCoach p k = none ∧ l.flow y.cell.path = none)
    ∧ (∃ (s : State) (p : Nat) (k : Nat) (e : CreditEntry) (f : FlowSt), 
      let l := s.link p
      s.awake = true ∧ p < 2 ∧ k < 4 ∧ s.linkUp p = true ∧ 16 ≤ e.label ∧ l.flow e.label = some f ∧ e.nak = false ∧ f.unacked = [])
    ∧ (∃ (s : State) (p : Nat) (k : Nat) (pl : Plan), 
      let l := s.link p
      s.awake = true ∧ p < 2 ∧ k < 4 ∧ s.role p = .up ∧ l.gen1 = false ∧ s.planOk p pl = true ∧ pl.target = s.time.tick.toNat + 2
        ∧ l.planFor pl.target = none ∧ s.time.slot ≤ 240)
    ∧ (∃ (s : State) (p : Nat) (k : Nat) (pl : Plan), s.awake = true ∧ p < 2 ∧ k < 4 ∧ s.planOk p pl = false)
    ∧ (∃ (s : State) (p : Nat) (k : Nat) (d : Demand), s.awake = true ∧ p < 2 ∧ k < 4 ∧ s.isMaster p = true ∧ s.time.slot ≤ 40 ∧ d.laneReq = [])
    ∧ (∃ (s : State) (p : Nat) (k : Nat), s.awake = true ∧ p < 2 ∧ k < 4 ∧ 40 < s.time.slot)
    ∧ (∃ (s : State) (p : Nat) (k : Nat) (lane : Nat), 
      let l := s.link p
      s.awake = true ∧ p < 2 ∧ k < 4 ∧ lane < 4 ∧ l.gen1 = false ∧ s.role p = .down)
    ∧ (∃ (s : State) (p : Nat) (k : Nat) (lane : Nat) (b : Int), 
      let l := s.link p
      s.awake = true ∧ p < 2 ∧ k < 4 ∧ lane < 4 ∧ l.gen1 = false ∧ s.role p = .up ∧ b ≠ 0 ∧ l.sync.2.2.1 ≠ 0) :=
  ⟨⟨(lane' ready 1 3 (fun l => {l with discard := true})), 1, 3, by decide +kernel⟩,
   ⟨ready, 1, 3, ({cell0 with hcrc := 1 + cell0.hcrc} : Cell), ([] : List Nat), by decide +kernel⟩,
   ⟨(lk ready 1 (fun l => l.setHunt 3 (some none))), 1, 3, cell0, ([] : List Nat), by decide +kernel⟩,
   ⟨(lk ready 1 (fun l => {l with keysIn := true})), 1, 3, (withHcrc {cell0 with kind := 9} : Cell), ([] : List Nat), by decide +kernel⟩,
   ⟨(lk ready 1 (fun l => {l with keysIn := true})), 1, 3, (withHcrc {cell0 with kind := 1, cidx := 0, path := 3} : Cell), ([] : List Nat), by decide +kernel⟩,
   ⟨(lk ready 1 (fun l => {l with keysIn := true})), 1, 3, (withHcrc {cell0 with kind := 1, cidx := 0, seq := 3} : Cell), ([] : List Nat), by decide +kernel⟩,
   ⟨(lk ready 1 (fun l => {l with keysIn := true, flows := [(FlowSt.fresh 2 7 0 0 : FlowSt)]})), 1, 3, (withHcrc {cell0 with path := 2, tc := 7, kind := 1, cidx := 0, seq := 3} : Cell), ([] : List Nat), (FlowSt.fresh 2 7 0 0 : FlowSt), by decide +kernel⟩,
   ⟨(lk ready 1 (fun l => {l with keysIn := true, table := [(entry0 : PathEntry)], flows := [({FlowSt.fresh 16 2 0 0 with rxNext := 1} : FlowSt)]})), 1, 3, (withHcrc {cell0 with kind := 1, cidx := 0, seq := 3} : Cell), ([] : List Nat), (entry0 : PathEntry), ({FlowSt.fresh 16 2 0 0 with rxNext := 1} : FlowSt), by decide +kernel⟩,
   ⟨(lk ready 1 (fun l => {l with keysIn := true, encrypt := true, rx := {l.rx with key := zeros 32}})), 1, 3, (withHcrc {cell0 with path := 1, tc := 7, kind := 2, cidx := 0} : Cell), ([] : List Nat), 5, false, (zeros 16 : List Byte), by decide +kernel⟩,
   ⟨ready, 1, 3, by decide +kernel⟩,
   ⟨(lk ready 1 (fun l => {l with coach := [(⟨3, 5, false, withHcrc {cell0 with kind := 1, cidx := 0}⟩ : RxCell)]})), 1, 3, (zeros 16 : List Byte), (⟨3, 5, false, withHcrc {cell0 with kind := 1, cidx := 0}⟩ : RxCell), by decide +kernel⟩,
   ⟨sealedCoach, 1, 3, coachTag ((sealedCoach.link 1).rxKey coach0.old) coach0.ctr (sealedCoach.coachCells 1 3), coach0, by decide +kernel, by decide,
    by decide, by decide +kernel, by decide +kernel, by decide +kernel, by decide +kernel, coach_ok (by decide +kernel) (by decide +kernel),
    by decide +kernel⟩,
   ⟨(lk ready 1 (fun l => {l with coach := [(⟨3, 5, false, withHcrc {cell0 with kind := 1, cidx := 0}⟩ : RxCell)]})), 1, 3, (List.replicate 16 1 : List Byte), (⟨3, 5, false, withHcrc {cell0 with kind := 1, cidx := 0}⟩ : RxCell), by decide +kernel⟩,
   ⟨(lk ready 1 (fun l => {l with state := 3, table := [entry0], flows := [(FlowSt.fresh 16 2 0 0 : FlowSt)]})), 1, 3, (⟨16,false,3,70000⟩ : CreditEntry), (FlowSt.fresh 16 2 0 0 : FlowSt), by decide +kernel⟩,
   ⟨({ready with topo.portRole := [.none,.up]} : State), 1, 3, ({ ({ready with topo.portRole := [.none,.up]} : State).ownFixedPlan 1 2 with depth := 2 } : Plan), by decide +kernel⟩,
   ⟨({ready with topo.portRole := [.none,.up]} : State), 1, 3, ({ ({ready with topo.portRole := [.none,.up]} : State).ownFixedPlan 1 2 with lanes := [] } : Plan), by decide +kernel⟩,
   ⟨({ready with topo.portRole := [.none,.down]} : State), 1, 3, (⟨2,0,false,[],[],[]⟩ : Demand), by decide +kernel⟩,
   ⟨({ready with time.slot := 41} : State), 1, 3, by decide +kernel⟩,
   ⟨({ready with topo.portRole := [.none,.down]} : State), 1, 3, 2, by decide +kernel⟩,
   ⟨(lk {ready with topo.portRole := [.none,.up]} 1 (fun l => {l with sync := (1,2,3,4)})), 1, 3, 2, (2 : Int), by decide +kernel⟩⟩

theorem test_met_ElectionAndKeys :
    (∃ (s : State) (p : Nat) (h : PeerHello), 
      let l := s.link p
      s.awake = true ∧ p < 2 ∧ (s.cpx p).step = 3 ∧ l.elected = false ∧ s.role p = .none ∧ h.gen = 2 ∧ h.never = true ∧ h.depth ≠ 0
        ∧ s.topo.role = .hostside ∧ s.neverMaster = false ∧ s.identityMissing = false ∧ s.cable.links.length = 2
        ∧ s.topo.portRole.length = 2)
    ∧ (∃ (s : State) (p : Nat), 
      let l := s.link p
      s.awake = true ∧ p < 2 ∧ (s.cpx p).step = 3 ∧ l.elected = false ∧ s.topo.role = .relay ∧ (∀ q, s.role q ≠ .up) ∧ l.gen1 = false)
    ∧ (∃ (s : State) (p : Nat), 
      let l := s.link p
      s.awake = true ∧ p < 2 ∧ s.role p = .up ∧ l.keysIn = false ∧ (s.cpx p).step = 3 ∧ s.identityMissing = false
        ∧ s.cable.links.length = 2 ∧ l.keyFails = 0)
    ∧ (∃ (s : State) (p : Nat) (bs : List Byte) (z : List Byte), 
      let l := s.link p
      s.awake = true ∧ p < 2 ∧ s.role p = .down ∧ l.keysIn = false ∧ l.keyInit ≠ [] ∧ l.keyResp = [] ∧ s.cable.links.length = 2
        ∧ ecdh l.ecdhKey (bs.take 97) = some z)
    ∧ (∃ (s : State) (p : Nat) (bs : List Byte), 
      let l := s.link p
      s.awake = true ∧ p < 2 ∧ l.keysIn = false ∧ l.keyResp ≠ [] ∧ s.finishOk p bs = true)
    ∧ (∃ (s : State) (p : Nat) (bs : List Byte), 
      let l := s.link p
      s.awake = true ∧ p < 2 ∧ l.keysIn = false ∧ l.keyResp ≠ [] ∧ s.finishOk p bs = false ∧ s.role p = .up ∧ l.keyFails = 0)
    ∧ (∃ (s : State) (p : Nat), 
      let l := s.link p
      s.awake = true ∧ p < 2 ∧ (s.cpx p).step = 3 ∧ l.elected = true ∧ l.keysIn = false ∧ s.passed l.keySince (msTicks 10) = true
        ∧ s.role p = .up ∧ l.keyFails = 0)
    ∧ (∃ (s : State) (p : Nat), 
      let l := s.link p
      s.awake = true ∧ p < 2 ∧ s.passed l.keySince (msTicks 10) = false)
    ∧ (∃ (s : State) (p : Nat), 
      let l := s.link p
      let due := s.passed l.tx.since (secTicks (s.rotateS p)) = true ∨ 2 ^ 32 - 2 ^ 20 ≤ l.tx.counter
      s.awake = true ∧ p < 2 ∧ l.keysIn = true ∧ l.tx.counter < 2 ^ 32 ∧ l.tx.next = none ∧ due ∧ s.cable.links.length = 2)
    ∧ (∃ (s : State) (p : Nat), 
      let l := s.link p
      s.awake = true ∧ p < 2 ∧ l.tx.counter < 2 ^ 32)
    ∧ (∃ (s : State) (p : Nat), 
      let l := s.link p
      s.awake = true ∧ p < 2 ∧ l.keysIn = true ∧ 2 ^ 32 ≤ l.tx.counter ∧ s.phyOut p = false ∧ s.cable.links.length = 2)
    ∧ (∃ (s : State) (p : Nat), 
      let l := s.link p
      s.awake = true ∧ p < 2 ∧ l.keysIn = true ∧ l.tx.next = none ∧ s.cable.links.length = 2)
    ∧ (∃ (s : State) (p : Nat) (d : Nat), 
      let l := s.link p
      s.awake = true ∧ p < 2 ∧ l.keysIn = true ∧ d ≠ s.txDir p)
    ∧ (∃ (s : State) (p : Nat) (i : Nat) (k : Tick) (a : Bool), 
      let l := s.link p
      s.awake = true ∧ p < 2 ∧ l.tx.next = some (i, k, a))
    ∧ (∃ (s : State) (p : Nat) (i : Nat) (k : Tick), 
      let l := s.link p
      s.awake = true ∧ p < 2 ∧ l.rx.next = none ∧ l.tx.next = some (i, k, true) ∧ (s.time.tick - k).toNat < 2 ^ 47)
    ∧ (∃ (s : State) (p : Nat) (i : Nat) (k : Tick) (a : Bool), 
      let l := s.link p
      s.awake = true ∧ p < 2 ∧ l.rx.next = some (i, k, a) ∧ l.tx.next = none ∧ (s.time.tick - k).toNat < 2 ^ 47)
    ∧ (∃ (s : State) (p : Nat), s.awake = true ∧ p < 2) :=
  ⟨⟨(cp {ready with topo.role := .hostside} 1 (fun c => {c with step := 3})), 1, ({hello0 with never := true, depth := 15}), by decide +kernel⟩,
   ⟨(cp {ready with topo.role := .relay} 1 (fun c => {c with step := 3})), 1, by decide +kernel, by decide +kernel, by decide +kernel, by decide +kernel, by decide +kernel, role_ne_up (by decide +kernel), by decide +kernel⟩,
   ⟨(cp {ready with topo.portRole := [.none,.up]} 1 (fun c => {c with step := 3})), 1, by decide +kernel⟩,
   ⟨(lk {ready with topo.portRole := [.none,.down]} 1 (fun l => {l with keyInit := [1], ecdhKey := 1})), 1, (p384Public 1), ((ecdh 1 ((p384Public 1).take 97)).getD [] : List Byte), by decide +kernel⟩,
   ⟨(lk (cp ready 1 (fun c => {c with peer := {c.peer with openLc := true}})) 1 (fun l => {l with keyResp := [1]})), 1, (zeros 4), by decide +kernel⟩,
   ⟨(lk {ready with topo.portRole := [.none,.up]} 1 (fun l => {l with keyResp := [1]})), 1, (List.replicate 200 0), by decide +kernel⟩,
   ⟨(lk (cp {late with topo.portRole := [.none,.up]} 1 (fun c => {c with step := 3})) 1 (fun l => {l with elected := true})), 1, by decide +kernel⟩,
   ⟨ready, 1, by decide +kernel⟩,
   ⟨(lk late 1 (fun l => {l with keysIn := true})), 1, by decide +kernel⟩,
   ⟨(lk ready 1 (fun l => {l with keysIn := true})), 1, by decide +kernel⟩,
   ⟨(lk ready 1 (fun l => {l with keysIn := true, tx := {l.tx with counter := 2^32}})), 1, by decide +kernel⟩,
   ⟨(lk ready 1 (fun l => {l with keysIn := true})), 1, by decide +kernel⟩,
   ⟨(lk ready 1 (fun l => {l with keysIn := true})), 1, (1 - (lk ready 1 (fun l => {l with keysIn := true})).txDir 1), by decide +kernel⟩,
   ⟨(lk ready 1 (fun l => {l with tx := {l.tx with next := some (1, 4, false)}})), 1, 1, (4 : Tick), false, by decide +kernel⟩,
   ⟨(lk ready 1 (fun l => {l with tx := {l.tx with next := some (1, 0, true)}})), 1, 1, (0 : Tick), by decide +kernel⟩,
   ⟨(lk ready 1 (fun l => {l with rx := {l.rx with next := some (1, 0, true)}})), 1, 1, (0 : Tick), true, by decide +kernel⟩,
   ⟨(lk ready 1 (fun l => {l with rx := {l.rx with old := some ([], 0)}})), 1, by decide +kernel⟩⟩

theorem test_met_PathMessages :
    (∃ (s : State) (p : Nat) (label : Nat) (hops : Nat) (dst : Nat), s.awake = true ∧ p < 2 ∧ s.linkUp p = true
        ∧ (s.link p).entry label = none ∧ s.cable.setups = [] ∧ s.cable.paths = [] ∧ hops ≤ 1 ∧ (dst < 2 ∨ 11 < dst))
    ∧ (∃ (s : State) (p : Nat) (label : Nat) (hops : Nat) (dst : Nat) (own : Nat), s.awake = true ∧ p < 2 ∧ s.linkUp p = true
        ∧ (s.link p).entry label = none ∧ 16 ≤ label ∧ s.cable.setups = [] ∧ s.cable.paths = [] ∧ hops ≤ 1 ∧ 2 ≤ dst ∧ dst ≤ 11
        ∧ s.portEnd dst = 1 ∧ s.initCredit p 2 = some own)
    ∧ (∃ (s : State) (p : Nat) (id : Nat) (label : Nat) (x : Setup) (q : Nat) (l : Nat), s.awake = true ∧ p < 2 ∧ s.cable.setups = [x]
        ∧ x.port = p ∧ x.label = label ∧ x.id = id ∧ x.up = some (q, l) ∧ x.entry.contract = 0)
    ∧ (∃ (s : State) (p : Nat) (id : Nat) (x : Setup) (q : Nat) (l : Nat), s.awake = true ∧ p < 2 ∧ s.cable.setups = [x] ∧ x.port = p
        ∧ x.id = id ∧ x.up = some (q, l))
    ∧ (∃ (s : State) (p : Nat) (label : Nat), s.awake = true ∧ p < 2 ∧ s.cable.setups = [] ∧ s.cable.paths = []
        ∧ (∀ e, (s.link p).entry label = some e → e.egress < 2 ∧ e.egress ≠ p))
    ∧ (∃ (s : State) (p : Nat), s.awake = true ∧ p < 2 ∧ (s.link p).holding = true ∧ s.linkUp p = false ∧ (s.link p).table = []
        ∧ s.passed (s.link p).closedAt (msTicks (s.link p).pathHoldMs) = true)
    ∧ (∃ (s : State) (p : Nat), s.awake = true ∧ p < 2 ∧ s.passed (s.link p).closedAt (msTicks (s.link p).pathHoldMs) = false)
    ∧ (∃ (s : State) (p : Nat) (label : Nat) (x : Setup), s.awake = true ∧ p < 2 ∧ s.cable.setups = [x] ∧ x.port = p ∧ x.label = label
        ∧ x.up = none ∧ s.cable.paths = [] ∧ s.passed x.since (msTicks (s.cv Fld.FORWARD_TIMEOUT_MS)) = true) :=
  ⟨⟨(lk ready 1 (fun l => {l with state := 3})), 1, 16, 1, 12, by decide +kernel⟩,
   ⟨(lk (ends [1,1,1,1,1,1,1,1,1,1,1,1] ready) 1 (fun l => {l with state := 3})), 1, 16, 1, 10, (((lk (ends [1,1,1,1,1,1,1,1,1,1,1,1] ready) 1 (fun l => {l with state := 3})).initCredit 1 2).getD 0), by decide +kernel⟩,
   ⟨({ready with cable.setups := [(⟨1,16,5,entry0,some (0,20),77,0⟩ : Setup)]} : State), 1, 5, 16, (⟨1,16,5,entry0,some (0,20),77,0⟩ : Setup), 0, 20, by decide +kernel⟩,
   ⟨({ready with cable.setups := [(⟨1,16,5,entry0,some (0,20),77,0⟩ : Setup)]} : State), 1, 5, (⟨1,16,5,entry0,some (0,20),77,0⟩ : Setup), 0, 20, by decide +kernel⟩,
   ⟨(lk ready 1 (fun l => {l with table := [{entry0 with egress := 0}]})), 1, 16, by decide +kernel⟩,
   ⟨(lk late 1 (fun l => {l with holding := true})), 1, by decide +kernel⟩,
   ⟨(lk ready 1 (fun l => {l with holding := true})), 1, by decide +kernel⟩,
   ⟨({late with cable.setups := [(⟨1,16,5,entry0,none,77,0⟩ : Setup)]} : State), 1, 16, (⟨1,16,5,entry0,none,77,0⟩ : Setup), by decide +kernel⟩⟩

theorem test_met_LinkControl :
    (∃ (s : State) (p : Nat) (k : Nat) (use : Nat), s.awake = true ∧ p < 2 ∧ k < 4 ∧ use < 3 ∧ (s.lane p k).state ≠ .retired)
    ∧ (∃ (s : State) (p : Nat) (pl : Plan), s.awake = true ∧ p < 2 ∧ s.isMaster p = true ∧ (s.link p).plan2 = some pl)
    ∧ (∃ (s : State) (p : Nat) (n : Notice) (u : Nat), s.awake = true ∧ p < 2 ∧ s.role p = .down ∧ s.topo.role = .relay ∧ s.upPort = some u
        ∧ u ≠ p ∧ s.linkUp u = true ∧ n.event = 0)
    ∧ (∃ (s : State) (p : Nat) (f : FlowSt), s.awake = true ∧ p < 2 ∧ (s.link p).flows = [f] ∧ f.label = 1 ∧ f.tc = 7)
    ∧ (∃ (s : State) (p : Nat) (cause : Nat), s.awake = true ∧ p < 2 ∧ cause ≤ 255 ∧ (s.link p).state ≠ 0 ∧ s.phyOut p = false
        ∧ s.cable.links.length = 2)
    ∧ (∃ (s : State) (p : Nat) (label : Nat) (f : FlowSt) (c : Cell), s.awake = true ∧ p < 2 ∧ (s.link p).flow label = some f ∧ f.rxHeld = [c]
        ∧ lossless f.tc = true ∧ f.heldAt + s.cv Fld.REORDER_NS / 125 ≤ s.slotNow)
    ∧ (∃ (s : State) (p : Nat) (label : Nat) (f : FlowSt), s.awake = true ∧ p < 2 ∧ (s.link p).flow label = some f
        ∧ s.slotNow < f.heldAt + s.cv Fld.REORDER_NS / 125)
    ∧ (∃ (s : State) (p : Nat) (label : Nat) (f : FlowSt) (u : Unacked), s.awake = true ∧ p < 2 ∧ (s.link p).flow label = some f
        ∧ f.unacked = [u] ∧ u.sends < s.cv Fld.REPLAY_LIMIT ∧ s.passed u.tick (s.cv Fld.REPLAY_TIMEOUT_TICKS) = true ∧ label ≠ 1)
    ∧ (∃ (s : State) (p : Nat) (label : Nat) (f : FlowSt) (u : Unacked), s.awake = true ∧ p < 2 ∧ (s.link p).flow label = some f
        ∧ f.unacked = [u] ∧ u.sends < s.cv Fld.REPLAY_LIMIT ∧ s.passed u.tick (s.cv Fld.REPLAY_TIMEOUT_TICKS) = true ∧ label = 1)
    ∧ (∃ (s : State) (p : Nat) (label : Nat) (f : FlowSt) (u : Unacked), s.awake = true ∧ p < 2 ∧ (s.link p).flow label = some f
        ∧ f.unacked.head? = some u ∧ s.passed u.tick (s.cv Fld.REPLAY_TIMEOUT_TICKS) = false)
    ∧ (∃ (s : State) (p : Nat), s.awake = true ∧ p < 2 ∧ (s.cpx p).step = 3 ∧ s.bringupOver p = false
        ∧ s.passed (s.link p).stepSince (msTicks 50) = true ∧ (s.link p).restarts < 3 ∧ s.cable.links.length = 2 ∧ s.cable.cpx.length = 2)
    ∧ (∃ (s : State) (p : Nat), s.awake = true ∧ p < 2 ∧ s.passed (s.link p).stepSince (msTicks 5) = false
        ∧ s.passed (s.link p).stepSince (msTicks 50) = false)
    ∧ (∃ (s : State) (p : Nat), s.awake = true ∧ p < 2 ∧ s.role p = .up ∧ s.linkUp p = true ∧ (s.link p).gen1 = false
        ∧ (s.link p).masterLost = false ∧ (s.link p).masterLossTicks ≤ (s.link p).sinceTick)
    ∧ (∃ (s : State) (p : Nat), s.awake = true ∧ p < 2 ∧ (s.link p).sinceTick < (s.link p).masterLossTicks)
    ∧ (∃ (s : State) (p : Nat), s.awake = true ∧ p < 2 ∧ (s.link p).masterLost = true ∧ (s.link p).lostAt + 64 ≤ (s.link p).sinceTick
        ∧ s.phyOut p = false ∧ s.cable.links.length = 2)
    ∧ (∃ (s : State) (p : Nat), s.awake = true ∧ p < 2 ∧ (s.link p).sinceTick < (s.link p).lostAt + 64) :=
  ⟨⟨ready, 1, 3, 2, by decide +kernel⟩,
   ⟨(lk ({ready with topo.portRole := [.none, .down]} : State) 1 (fun l => {l with plan2 := some (⟨2,true,false,1,[]⟩ : Plan)})), 1, (⟨2,true,false,1,[]⟩ : Plan), by decide +kernel⟩,
   ⟨(lk {ready with topo.portRole := [.up,.down], topo.role := .relay} 0 (fun l => {l with state := 3})), 1, (⟨2,0,1,2,2,2⟩ : Notice), 0, by decide +kernel⟩,
   ⟨(lk ready 1 (fun l => {l with flows := [(FlowSt.fresh 1 7 0 0 : FlowSt)]})), 1, (FlowSt.fresh 1 7 0 0 : FlowSt), by decide +kernel⟩,
   ⟨(lk ready 1 (fun l => {l with state := 3})), 1, 255, by decide +kernel⟩,
   ⟨(lk {ready with time.tick := 5} 1 (fun l => {l with flows := [({FlowSt.fresh 16 3 0 0 with rxHeld := [cell0]} : FlowSt)]})), 1, 16, ({FlowSt.fresh 16 3 0 0 with rxHeld := [cell0]} : FlowSt), cell0, by decide +kernel⟩,
   ⟨(lk ready 1 (fun l => {l with flows := [({FlowSt.fresh 16 3 0 0 with rxHeld := [cell0]} : FlowSt)]})), 1, 16, ({FlowSt.fresh 16 3 0 0 with rxHeld := [cell0]} : FlowSt), by decide +kernel⟩,
   ⟨(lk late 1 (fun l => {l with flows := [({FlowSt.fresh 16 2 0 0 with unacked := [(⟨withHcrc {cell0 with path := 16},1,0⟩ : Unacked)]} : FlowSt)]})), 1, 16, ({FlowSt.fresh 16 2 0 0 with unacked := [(⟨withHcrc {cell0 with path := 16},1,0⟩ : Unacked)]} : FlowSt), (⟨withHcrc {cell0 with path := 16},1,0⟩ : Unacked), by decide +kernel⟩,
   ⟨(lk late 1 (fun l => {l with flows := [({FlowSt.fresh 1 7 0 0 with unacked := [(⟨withHcrc {cell0 with path := 1, tc := 7, kind := 2},1,0⟩ : Unacked)]} : FlowSt)]})), 1, 1, ({FlowSt.fresh 1 7 0 0 with unacked := [(⟨withHcrc {cell0 with path := 1, tc := 7, kind := 2},1,0⟩ : Unacked)]} : FlowSt), (⟨withHcrc {cell0 with path := 1, tc := 7, kind := 2},1,0⟩ : Unacked), by decide +kernel⟩,
   ⟨(lk ready 1 (fun l => {l with flows := [({FlowSt.fresh 16 2 0 0 with unacked := [(⟨withHcrc {cell0 with path := 16},1,0⟩ : Unacked)]} : FlowSt)]})), 1, 16, ({FlowSt.fresh 16 2 0 0 with unacked := [(⟨withHcrc {cell0 with path := 16},1,0⟩ : Unacked)]} : FlowSt), (⟨withHcrc {cell0 with path := 16},1,0⟩ : Unacked), by decide +kernel⟩,
   ⟨(cp late 1 (fun c => {c with step := 3})), 1, by decide +kernel⟩,
   ⟨(cp ready 1 (fun c => {c with step := 3})), 1, by decide +kernel⟩,
   ⟨(lk ({ready with topo.portRole := [.none, .up]} : State) 1 (fun l => {l with state := 3, masterLossTicks := 100, sinceTick := 100})), 1, by decide +kernel⟩,
   ⟨(lk ({ready with topo.portRole := [.none, .up]} : State) 1 (fun l => {l with state := 3, masterLossTicks := 100, sinceTick := 99})), 1, by decide +kernel⟩,
   ⟨(lk ready 1 (fun l => {l with state := 3, masterLost := true, lostAt := 100, sinceTick := 164})), 1, by decide +kernel⟩,
   ⟨(lk ready 1 (fun l => {l with state := 3, masterLost := true, lostAt := 100, sinceTick := 163})), 1, by decide +kernel⟩⟩

theorem test_met_LinkCommands :
    (∃ (rq : Req) (s : State), Admitted Cmd.linkShow 1 rq s ∧ arg rq 0 1 ≤ 1)
    ∧ (∃ (rq : Req) (s : State), Admitted Cmd.linkPlanShow 2 rq s ∧ arg rq 0 1 ≤ 1 ∧ arg rq 1 1 ≤ 2
        ∧ ((s.link (arg rq 0 1)).planFor (s.time.tick.toNat + arg rq 1 1)).isSome)
    ∧ (∃ (rq : Req) (s : State), Admitted Cmd.linkRekey 1 rq s ∧ arg rq 0 1 ≤ 1 ∧ s.linkUp (arg rq 0 1) = true
        ∧ (s.link (arg rq 0 1)).tx.next = none ∧ (s.link (arg rq 0 1)).rx.next = none)
    ∧ (∃ (rq : Req) (s : State), Admitted Cmd.linkRekey 1 rq s ∧ arg rq 0 1 ≤ 1 ∧ s.linkUp (arg rq 0 1) = false)
    ∧ (∃ (rq : Req) (s : State), Admitted Cmd.linkReset 1 rq s ∧ s.jobRoom rq ∧ arg rq 0 1 ≤ 1 ∧ (s.link (arg rq 0 1)).resetJob = none
        ∧ s.time.holdover ≠ 2 ∧ s.phyOut (arg rq 0 1) = false ∧ s.cable.links.length = 2)
    ∧ (∃ (rq : Req) (s : State), Admitted Cmd.linkReset 1 rq s ∧ s.jobRoom rq ∧ arg rq 0 1 ≤ 1 ∧ (s.link (arg rq 0 1)).resetJob = none
        ∧ s.time.holdover = 2)
    ∧ (∃ (rq : Req) (s : State), Admitted Cmd.linkReset 1 rq s ∧ arg rq 0 1 ≤ 1 ∧ (s.link (arg rq 0 1)).resetJob ≠ none)
    ∧ (∃ (rq : Req) (s : State), Admitted Cmd.pathOpen 8 rq s ∧ arg rq 1 1 = 0
        ∧ s.pathOk (arg rq 0 1) 0 (arg rq 2 1) (arg rq 3 1) (arg rq 4 1) = true ∧ s.cable.paths = [])
    ∧ (∃ (rq : Req) (s : State), Admitted Cmd.pathOpen 8 rq s ∧ arg rq 1 1 = 0
        ∧ s.pathOk (arg rq 0 1) 0 (arg rq 2 1) (arg rq 3 1) (arg rq 4 1) = false)
    ∧ (∃ (rq : Req) (s : State), Admitted Cmd.pathClose 2 rq s ∧ (∃ r, s.pathById (arg rq 0 2) = some r ∧ r.port = none ∧ r.phase ≠ 0))
    ∧ (∃ (rq : Req) (s : State), Admitted Cmd.pathClose 2 rq s ∧ s.pathById (arg rq 0 2) = none)
    ∧ (∃ (rq : Req) (s : State), Admitted Cmd.pathShow 4 rq s ∧ arg rq 0 1 ≤ 1 ∧ arg rq 2 2 ≤ 4095
        ∧ (s.link (arg rq 0 1)).entry (arg rq 2 2) = none)
    ∧ (∃ (rq : Req) (s : State), Admitted Cmd.pathShow 4 rq s ∧ (arg rq 0 1 ≤ 1 ∧ arg rq 2 2 ≤ 4095
        ∧ (∃ e, (s.link (arg rq 0 1)).entry (arg rq 2 2) = some e) ∧ ∃ f, (s.link (arg rq 0 1)).flow (arg rq 2 2) = some f)) :=
  ⟨⟨(ask [1]), ready, admitted_of (by decide +kernel), by decide +kernel⟩,
   ⟨(ask [1,2]), (lk ready 1 (fun l => {l with plan2 := some ⟨2,true,false,1,[[],[],[],[]]⟩})), admitted_of (by decide +kernel), by decide +kernel⟩,
   ⟨(ask [1]), (lk ready 1 (fun l => {l with state := 3})), admitted_of (by decide +kernel), by decide +kernel⟩,
   ⟨(ask [1]), ready, admitted_of (by decide +kernel), by decide +kernel⟩,
   ⟨(ask [1]), ready, admitted_of (by decide +kernel), by decide +kernel⟩,
   ⟨(ask [1]), ({ready with time.holdover := 2} : State), admitted_of (by decide +kernel), by decide +kernel⟩,
   ⟨(ask [1]), (lk ready 1 (fun l => {l with resetJob := some (.spi, 1)})), admitted_of (by decide +kernel), by decide +kernel⟩,
   ⟨(ask [10,0,0,11,1,1,5,0]), ready, admitted_of (by decide +kernel), by decide +kernel⟩,
   ⟨(ask [10,0,0,10,1,1,5,0]), ready, admitted_of (by decide +kernel), by decide +kernel⟩,
   ⟨(ask [1,0]), ({ready with cable.paths := [(⟨1,10,none,0,0,0,11,1,false,0,false,1,.command,none⟩ : PathRec)]} : State), admitted_of (by decide +kernel), ⟨(⟨1,10,none,0,0,0,11,1,false,0,false,1,.command,none⟩ : PathRec), by decide +kernel⟩⟩,
   ⟨(ask [1,0]), ready, admitted_of (by decide +kernel), by decide +kernel⟩,
   ⟨(ask [1,0,255,15]), ready, admitted_of (by decide +kernel), by decide +kernel⟩,
   ⟨(ask [1,0,16,0]), (lk ready 1 (fun l => {l with table := [entry0], flows := [FlowSt.fresh 16 2 0 0]})), admitted_of (by decide +kernel), ⟨by decide +kernel, by decide +kernel, ⟨entry0, by decide +kernel⟩, ⟨(FlowSt.fresh 16 2 0 0), by decide +kernel⟩⟩⟩⟩

theorem test_met_SwitchCore :
    (∃ (s : State) (port : Nat) (cable : Nat) (c : Cell) (o : OfferTo), s.awake = true ∧ s.offerTo port cable c.path = some o ∧ 2 ≤ port
        ∧ port ≤ 11 ∧ s.plan.contracts = [] ∧ s.admission port o.tc false = .minimum)
    ∧ (∃ (s : State), s.awake = true ∧ s.sw.voqs = [] ∧ s.sw.express = [[], []])
    ∧ (∃ (s : State) (i : Nat) (j : Nat) (c : Nat), s.awake = true ∧ s.cv Fld.STARVE_CELLS ≤ (s.sw.voq i j c).age
        ∧ (s.sw.voq i j c).urgent = false ∧ nth s.sw.evTicks 3 none ≠ some s.time.tick)
    ∧ (∃ (s : State) (q : QCell) (v : Voq) (room : List Nat), s.awake = true ∧ 2 ≤ q.outp ∧ q.outp ≤ 11 ∧ q.inp ≤ 11 ∧ q.tc ≤ 7
        ∧ q.pending = false ∧ s.sw.voqs = [v] ∧ v.inp = q.inp ∧ v.outp = q.outp ∧ v.tc = q.tc ∧ v.cells = [q] ∧ s.sw.express = [[], []]
        ∧ s.sw.gp.length = 96 ∧ s.sw.ap.length = 12 ∧ s.wordFault (cellWord q.buf) = 0
        ∧ (((nth s.plan.inForce.outs q.outp .reset).gateAt s.time.slot).order.contains q.tc) = true
        ∧ ((nth s.plan.inForce.outs q.outp .reset).gateAt s.time.slot).hold = false ∧ s.classOpen q.outp q.tc = true
        ∧ bitAt (nth room q.outp 0) q.tc = true) :=
  ⟨⟨(ends [0,0,0,0,0,2,0] {ready with cable.paths := [⟨16,8,none,0,0,0,11,2,false,0,false,1,.command,none⟩]} : State), 8, 8, cell0, ((((ends [0,0,0,0,0,2,0] {ready with cable.paths := [⟨16,8,none,0,0,0,11,2,false,0,false,1,.command,none⟩]} : State).offerTo 8 8 16).getD ⟨0,0,0,0⟩)), by decide +kernel⟩,
   ⟨ready, by decide +kernel⟩,
   ⟨({ready with sw.voqs := [⟨4,5,2,[],1000000,false,0,0⟩]} : State), 4, 5, 2, by decide +kernel⟩,
   ⟨({ready with sw.voqs := [(⟨4,5,2,[cell1],0,false,0,0⟩ : Voq)]} : State), cell1, (⟨4,5,2,[cell1],0,false,0,0⟩ : Voq), (List.replicate 12 255), by decide +kernel⟩⟩

theorem test_met_SwitchCommands :
    (∃ (rq : Req) (s : State), Admitted Cmd.planSwitchShow 0 rq s)
    ∧ (∃ (rq : Req) (s : State), Admitted Cmd.planSwitchPortShow 1 rq s ∧ arg rq 0 1 ≤ 11)
    ∧ (∃ (rq : Req) (s : State), Admitted Cmd.planSwitchVoqShow 2 rq s ∧ arg rq 0 1 ≤ 11 ∧ arg rq 1 1 ≤ 11 ∧ s.sw.voqs = [])
    ∧ (∃ (rq : Req) (s : State), Admitted Cmd.planSwitchClear 1 rq s ∧ arg rq 0 1 ≤ 11)
    ∧ (∃ (rq : Req) (s : State), Admitted Cmd.planSwitchClear 1 rq s ∧ 11 < arg rq 0 1 ∧ arg rq 0 1 ≠ 0xFF) :=
  ⟨⟨(ask []), ready, admitted_of (by decide +kernel)⟩,
   ⟨(ask [11]), ready, admitted_of (by decide +kernel), by decide +kernel⟩,
   ⟨(ask [11,11]), ready, admitted_of (by decide +kernel), by decide +kernel⟩,
   ⟨(ask [11]), ready, admitted_of (by decide +kernel), by decide +kernel⟩,
   ⟨(ask [12]), ready, admitted_of (by decide +kernel), by decide +kernel⟩⟩

theorem test_met_DisplayStreams :
    (∃ (s : State) (k : Nat) (rate : Nat) (lanes : Nat), s.awake = true ∧ s.isSink k = true ∧ 1 ≤ rate ∧ rate ≤ 7 - s.cv Fld.DISP_MAX_RATE
        ∧ (lanes = 1 ∨ lanes = 2 ∨ lanes = 4))
    ∧ (∃ (s : State) (k : Nat) (index : Nat) (px : List Byte) (x : StreamSt), s.awake = true ∧ s.isSink k = true
        ∧ ((s.disp.streams.find? fun x => x.capture && x.dpx == k && x.index == index && x.state != 0) = some x)
        ∧ s.capSuspended x = false ∧ s.stream x.id = some x ∧ x.k = 8 ∧ 0 < px.length ∧ px.length ≤ 4088)
    ∧ (∃ (s : State) (k : Nat) (q : Nat) (kk : Nat), s.awake = true ∧ (s.dpx k).rxSeen.contains q = false ∧ 1 ≤ kk ∧ kk ≤ 8)
    ∧ (∃ (s : State) (k : Nat), s.awake = true ∧ s.isSource k = true ∧ s.dpxTaken k = none ∧ (∀ x ∈ s.disp.streams, x.dpx ≠ k))
    ∧ (∃ (s : State) (k : Nat) (w : Tick), s.awake = true ∧ s.isSource k = true ∧ (∀ x ∈ s.disp.streams, x.dpx ≠ k)
        ∧ (s.dpx k).hpdFell = some w ∧ s.passed w (msTicks 2) = true)
    ∧ (∃ (s : State) (k : Nat) (w : Tick), s.awake = true ∧ s.isSink k = true ∧ (∀ x ∈ s.disp.streams, x.dpx ≠ k) ∧ (s.dpx k).hpd = true
        ∧ s.dpxTaken k = none ∧ (s.dpx k).hpdFell = some w ∧ s.passed w (msTicks 2) = true)
    ∧ (∃ (s : State) (k : Nat), s.awake = true ∧ (∀ w, (s.dpx k).hpdFell = some w → s.passed w (msTicks 2) = false))
    ∧ (∃ (s : State) (id : Nat) (x : StreamSt) (bytes : List Byte), s.awake = true ∧ s.stream id = some x ∧ x.capture = false
        ∧ (parseChunk bytes).typ = 1)
    ∧ (∃ (s : State) (id : Nat) (x : StreamSt) (bytes : List Byte), s.awake = true ∧ s.stream id = some x ∧ x.capture = false
        ∧ (parseChunk bytes).typ = 0 ∧ s.isPast (x.dueAt (parseChunk bytes).stamp) = true ∧ (∀ y ∈ s.disp.streams, y.id = id → y = x))
    ∧ (∃ (s : State) (id : Nat) (x : StreamSt), s.awake = true ∧ s.stream id = some x ∧ x.capture = false)
    ∧ (∃ (s : State) (id : Nat) (x : StreamSt) (d : FrameDesc), s.awake = true ∧ s.disp.streams = [x] ∧ x.id = id ∧ x.capture = false
        ∧ x.frameChunks = 0 ∧ x.chunks = [] ∧ x.holdNext = none ∧ x.state = 1 ∧ x.locked = true ∧ x.desc = some d ∧ x.k = 8
        ∧ x.interval = 0 ∧ x.origin = none)
    ∧ (∃ (s : State) (id : Nat) (x : StreamSt) (d : FrameDesc) (o : Nat), s.awake = true ∧ s.disp.streams = [x] ∧ x.id = id
        ∧ x.capture = false ∧ x.frameChunks = 0 ∧ x.chunks = [] ∧ x.desc = some d ∧ x.interval = 0 ∧ x.origin = some o ∧ x.step = 0
        ∧ d.adaptive = false)
    ∧ (∃ (s : State) (id : Nat) (x : StreamSt), s.awake = true ∧ s.stream id = some x ∧ x.capture = false ∧ x.desc = none)
    ∧ (∃ (s : State) (id : Nat) (x : StreamSt) (d : FrameDesc), s.awake = true ∧ s.disp.streams = [x] ∧ x.id = id ∧ x.capture = false
        ∧ x.desc = some d ∧ x.state = 3 ∧ x.chunks = [])
    ∧ (∃ (s : State) (id : Nat) (x : StreamSt) (d : FrameDesc) (c : Chunk) (line : Nat) (err : Int) (need : Int), s.awake = true
        ∧ s.disp.streams = [x] ∧ x.id = id ∧ x.capture = false ∧ x.desc = some d ∧ x.state = 2 ∧ x.away = false ∧ x.chunks = [c]
        ∧ c.typ = 0 ∧ c.line = line ∧ c.chunk = 0 ∧ lineChunks d = 1 ∧ s.isAhead (x.dueAt c.stamp) = false ∧ Int.natAbs err ≤ 3200
        ∧ Int.natAbs need ≤ 2147483 ∧ x.concEv = 0)
    ∧ (∃ (s : State) (id : Nat) (x : StreamSt) (d : FrameDesc) (c : Chunk) (line : Nat), s.awake = true ∧ s.stream id = some x
        ∧ x.capture = false ∧ x.desc = some d ∧ c ∈ x.chunks ∧ c.typ = 0 ∧ c.line = line ∧ s.isAhead (x.dueAt c.stamp) = true)
    ∧ (∃ (s : State), s.awake = true)
    ∧ (∃ (s : State) (id : Nat) (x : StreamSt), s.awake = true ∧ s.stream id = some x ∧ x.capture = false ∧ x.state = 3 ∧ x.inPort ≠ noPath
        ∧ 0 < s.cv Fld.HOLD_MAX_S ∧ s.passed x.holdAt (secTicks (s.cv Fld.HOLD_MAX_S)) = true)
    ∧ (∃ (s : State) (id : Nat) (x : StreamSt), s.awake = true ∧ s.stream id = some x
        ∧ s.passed x.holdAt (secTicks (s.cv Fld.HOLD_MAX_S)) = false) :=
  ⟨⟨(ends [0,0,0,1,0,0,0] ready), 3, 1, 4, by decide +kernel⟩,
   ⟨({ strs [({str0 with capture := true, state := 2, video := some 16} : StreamSt)] (ends [0,0,0,1,0,0,0] ready) with cable.paths := [⟨16,8,none,0,0,0,11,2,false,0,false,1,.command,none⟩]} : State), 3, 0, ([1,2] : List Byte), ({str0 with capture := true, state := 2, video := some 16} : StreamSt), by decide +kernel⟩,
   ⟨(strs [({str0 with capture := true, dest := (1,0,0,2)} : StreamSt)] ready), 3, 4, 1, by decide +kernel⟩,
   ⟨(ends [0,0,0,2,0,0,0] ready), 3, by decide +kernel⟩,
   ⟨(dpx' (ends [0,0,0,2,0,0,0] late) 3 (fun d => {d with hpdFell := some 5})), 3, (5 : Tick), by decide +kernel⟩,
   ⟨(dpx' (ends [0,0,0,1,0,0,0] late) 3 (fun d => {d with hpd := true, hpdFell := some 5})), 3, (5 : Tick), by decide +kernel⟩,
   ⟨(ends [0,0,0,2,0,0,0] ready), 3, by decide +kernel, fell_none (by decide +kernel)⟩,
   ⟨(strs [str0] ready), 1, str0, (chunkBytes {chunk0 with typ := 1}), by decide +kernel⟩,
   ⟨(strs [str0] {ready with time.tick := 50}), 1, str0, (chunkBytes chunk0), by decide +kernel⟩,
   ⟨(strs [str0] ready), 1, str0, by decide +kernel⟩,
   ⟨(strs [({str0 with locked := true, desc := some desc0} : StreamSt)] ready), 1, ({str0 with locked := true, desc := some desc0} : StreamSt), desc0, by decide +kernel⟩,
   ⟨(strs [({str0 with locked := true, desc := some desc0, origin := some 77} : StreamSt)] ready), 1, ({str0 with locked := true, desc := some desc0, origin := some 77} : StreamSt), desc0, 77, by decide +kernel⟩,
   ⟨(strs [str0] ready), 1, str0, by decide +kernel⟩,
   ⟨(strs [({str0 with state := 3, desc := some desc0} : StreamSt)] ready), 1, ({str0 with state := 3, desc := some desc0} : StreamSt), desc0, by decide +kernel⟩,
   ⟨(strs [({str0 with state := 2, desc := some ({desc0 with hactive := 640} : FrameDesc), chunks := [({chunk0 with typ := 0, line := 3, chunk := 0, stamp := 5} : Chunk)]} : StreamSt)] {ready with time.tick := 5}), 1, ({str0 with state := 2, desc := some ({desc0 with hactive := 640} : FrameDesc), chunks := [({chunk0 with typ := 0, line := 3, chunk := 0, stamp := 5} : Chunk)]} : StreamSt), ({desc0 with hactive := 640} : FrameDesc), ({chunk0 with typ := 0, line := 3, chunk := 0, stamp := 5} : Chunk), 3, (9 : Int), (70 : Int), by decide +kernel⟩,
   ⟨(strs [({str0 with state := 2, desc := some ({desc0 with hactive := 640} : FrameDesc), chunks := [({chunk0 with typ := 0, line := 3, chunk := 0, stamp := 5000000} : Chunk)]} : StreamSt)] {ready with time.tick := 2}), 1, ({str0 with state := 2, desc := some ({desc0 with hactive := 640} : FrameDesc), chunks := [({chunk0 with typ := 0, line := 3, chunk := 0, stamp := 5000000} : Chunk)]} : StreamSt), ({desc0 with hactive := 640} : FrameDesc), ({chunk0 with typ := 0, line := 3, chunk := 0, stamp := 5000000} : Chunk), 3, by decide +kernel⟩,
   ⟨(strs [str0] ready), by decide +kernel⟩,
   ⟨(setc Fld.HOLD_MAX_S 5 (strs [({str0 with state := 3, inPort := 1} : StreamSt)] late)), 1, ({str0 with state := 3, inPort := 1} : StreamSt), by decide +kernel⟩,
   ⟨(setc Fld.HOLD_MAX_S 5 (strs [({str0 with state := 3, inPort := 1} : StreamSt)] ready)), 1, ({str0 with state := 3, inPort := 1} : StreamSt), by decide +kernel⟩⟩

theorem test_met_AuxAndControl :
    (∃ (s : State) (k : Nat), s.awake = true ∧ s.isSink k = true)
    ∧ (∃ (s : State) (k : Nat) (addr : Nat), s.awake = true ∧ s.isSink k = true ∧ 0x68000 ≤ addr ∧ addr ≤ 0x69FFF)
    ∧ (∃ (s : State) (k : Nat) (addr : Nat) (w : AuxWait) (r : Nat) (bs : List Byte), s.awake = true ∧ s.isSink k = true
        ∧ dpcdLocal addr = false ∧ (addr < 0x68000 ∨ 0x69FFF < addr) ∧ (s.dpx k).deferred = some w ∧ w.cmd = 9 ∧ w.addr = addr
        ∧ w.answer = some (r, bs))
    ∧ (∃ (s : State) (k : Nat) (addr : Nat), s.awake = true ∧ s.isSink k = true ∧ dpcdLocal addr = false ∧ (addr < 0x68000 ∨ 0x69FFF < addr)
        ∧ (s.dpx k).deferred = none ∧ s.paired k = false)
    ∧ (∃ (s : State) (k : Nat) (q : Nat), 
      let fresh := (s.dpx k).rxSeen.contains q = false
      s.awake = true ∧ fresh ∧ s.isSource k = true)
    ∧ (∃ (s : State), s.awake = true)
    ∧ (∃ (s : State) (k : Nat) (x : PanelAux) (rest : List PanelAux), s.awake = true ∧ (s.dpx k).auxOut = x :: rest ∧ x.job = none
        ∧ x.posted = true)
    ∧ (∃ (s : State) (k : Nat) (q : Nat), 
      let fresh := (s.dpx k).rxSeen.contains q = false
      s.awake = true ∧ fresh)
    ∧ (∃ (s : State) (k : Nat) (q : Nat), 
      let fresh := (s.dpx k).rxSeen.contains q = false
      s.awake = true ∧ fresh ∧ s.isSink k = false)
    ∧ (∃ (s : State) (k : Nat) (q : Nat), 
      let fresh := (s.dpx k).rxSeen.contains q = false
      s.awake = true ∧ fresh ∧ (s.dpx k).hpd = true ∧ s.dpxTaken k = none)
    ∧ (∃ (s : State) (k : Nat) (q : Nat) (m : CtrlOut), s.awake = true ∧ (((s.dpx k).unacked.find? fun m => m.cseq == q) = some m)
        ∧ s.passed m.tick 2 = true ∧ m.resends < 8)
    ∧ (∃ (s : State) (k : Nat) (q : Nat) (m : CtrlOut), s.awake = true ∧ (((s.dpx k).unacked.find? fun m => m.cseq == q) = some m)
        ∧ s.passed m.tick 2 = true ∧ 8 ≤ m.resends)
    ∧ (∃ (s : State) (k : Nat) (q : Nat) (m : CtrlOut), s.awake = true ∧ (((s.dpx k).unacked.find? fun m => m.cseq == q) = some m)
        ∧ s.passed m.tick 2 = false)
    ∧ (∃ (s : State) (k : Nat) (w : AuxWait), s.awake = true ∧ (s.dpx k).deferred = some w ∧ w.answer = none
        ∧ s.passed w.tick (usTicks (s.cv Fld.AUX_FWD_TIMEOUT_US)) = true)
    ∧ (∃ (s : State) (k : Nat) (w : AuxWait), s.awake = true ∧ (s.dpx k).deferred = some w
        ∧ s.passed w.tick (usTicks (s.cv Fld.AUX_FWD_TIMEOUT_US)) = false) :=
  ⟨⟨(ends [0,0,0,1,0,0,0] ready), 3, by decide +kernel⟩,
   ⟨(ends [0,0,0,1,0,0,0] ready), 3, 0x69FFF, by decide +kernel⟩,
   ⟨(dpx' (ends [0,0,0,1,0,0,0] ready) 3 (fun d => {d with deferred := some (⟨9,0x400,0,some (0,[9])⟩ : AuxWait)})), 3, 0x400, (⟨9,0x400,0,some (0,[9])⟩ : AuxWait), 0, ([9] : List Byte), by decide +kernel⟩,
   ⟨(ends [0,0,0,1,0,0,0] ready), 3, 0x400, by decide +kernel⟩,
   ⟨(ends [0,0,0,2,0,0,0] ready), 3, 7, by decide +kernel⟩,
   ⟨(dpx' ready 3 (fun d => {d with rxSeen := [7]})), by decide +kernel⟩,
   ⟨(dpx' ready 3 (fun d => {d with auxOut := [(⟨0x600,0,true,none⟩ : PanelAux)]})), 3, (⟨0x600,0,true,none⟩ : PanelAux), ([] : List PanelAux), by decide +kernel⟩,
   ⟨(dpx' ready 3 (fun d => {d with deferred := some (⟨9,0x600,0,none⟩ : AuxWait)})), 3, 7, by decide +kernel⟩,
   ⟨ready, 3, 7, by decide +kernel⟩,
   ⟨(dpx' ready 3 (fun d => {d with hpd := true})), 3, 7, by decide +kernel⟩,
   ⟨(dpx' {ready with time.tick := 2} 3 (fun d => {d with unacked := [(⟨7,1,0,0,0,[],0,7⟩ : CtrlOut)]})), 3, 7, (⟨7,1,0,0,0,[],0,7⟩ : CtrlOut), by decide +kernel⟩,
   ⟨(dpx' {ready with time.tick := 2} 3 (fun d => {d with unacked := [(⟨7,1,0,0,0,[],0,8⟩ : CtrlOut)]})), 3, 7, (⟨7,1,0,0,0,[],0,8⟩ : CtrlOut), by decide +kernel⟩,
   ⟨(dpx' {ready with time.tick := 1} 3 (fun d => {d with unacked := [(⟨7,1,0,0,0,[],0,8⟩ : CtrlOut)]})), 3, 7, (⟨7,1,0,0,0,[],0,8⟩ : CtrlOut), by decide +kernel⟩,
   ⟨(dpx' late 3 (fun d => {d with deferred := some (⟨9,0x600,0,none⟩ : AuxWait)})), 3, (⟨9,0x600,0,none⟩ : AuxWait), by decide +kernel⟩,
   ⟨(dpx' ready 3 (fun d => {d with deferred := some (⟨9,0x600,0,none⟩ : AuxWait)})), 3, (⟨9,0x600,0,none⟩ : AuxWait), by decide +kernel⟩⟩

theorem test_met_DisplayCommands :
    (∃ (rq : Req) (s : State), Admitted Cmd.dispShow 1 rq s ∧ (arg rq 0 1 ≤ 3 ∧ ∀ x ∈ s.disp.streams, x.dpx ≠ arg rq 0 1))
    ∧ (∃ (rq : Req) (s : State) (p : Nat), Admitted Cmd.dispStreamOpen 16 rq s ∧ s.jobRoom rq ∧ arg rq 0 1 ≤ 3 ∧ s.isSink (arg rq 0 1) = true
        ∧ arg rq 1 1 ≤ 3 ∧ arg rq 2 1 = 1 ∧ arg rq 4 1 ≤ 3 ∧ arg rq 5 1 ≤ 3 ∧ arg rq 6 1 = 0 ∧ arg rq 8 4 ≠ 0 ∧ 1 ≤ arg rq 12 2
        ∧ arg rq 12 2 ≤ 4095 ∧ nth (s.dpx (arg rq 0 1)).msa (arg rq 1 1) none = none ∧ s.disp.streams = [] ∧ s.plan.contracts = []
        ∧ s.pathPort (arg rq 3 1) = some p
        ∧ (s.defineContract (s.mkContract (arg rq 12 2) 6 (arg rq 7 1) (2 + arg rq 0 1) p (arg rq 8 4) 64 16) false).rc = .ok
        ∧ arg rq 8 4 * s.presDelay 1 ≤ 8000 * 524288)
    ∧ (∃ (rq : Req) (s : State), Admitted Cmd.dispStreamClose 2 rq s ∧ (∃ x, s.disp.streams = [x] ∧ x.id = arg rq 0 2 ∧ x.capture = false
        ∧ x.inPort = noPath ∧ (x.stored = false)))
    ∧ (∃ (rq : Req) (s : State), Admitted Cmd.dispStreamClose 2 rq s ∧ s.stream (arg rq 0 2) = none)
    ∧ (∃ (rq : Req) (s : State), Admitted Cmd.dispStreamShow 2 rq s ∧ (∃ x, s.disp.streams = [x] ∧ x.id = arg rq 0 2))
    ∧ (∃ (rq : Req) (s : State), Admitted Cmd.dispHoldOverlay 16 rq s ∧ arg rq 0 1 ≤ 3 ∧ s.isSource (arg rq 0 1) = true
        ∧ s.cv Fld.HOLD_REGION_MIB ≠ 0 ∧ arg rq 6 2 ≤ 3840 ∧ arg rq 8 2 ≤ 2160 ∧ s.disp.streams = []
        ∧ arg rq 12 4 + 4 * arg rq 6 2 * arg rq 8 2 ≤ 128 * mib)
    ∧ (∃ (rq : Req) (s : State), Admitted Cmd.dispHoldOverlay 16 rq s ∧ arg rq 0 1 ≤ 3 ∧ s.isSource (arg rq 0 1) = true
        ∧ s.cv Fld.HOLD_REGION_MIB ≠ 0 ∧ 3840 < arg rq 6 2)
    ∧ (∃ (rq : Req) (s : State), Admitted Cmd.dispHoldEnter 3 rq s ∧ (arg rq 2 1 = 0 ∧ ∃ x, s.stream (arg rq 0 2) = some x ∧ x.capture = false))
    ∧ (∃ (rq : Req) (s : State), Admitted Cmd.dispPairSet 4 rq s ∧ arg rq 0 1 ≤ 3 ∧ s.isSink (arg rq 0 1) = true ∧ arg rq 1 1 ≤ 6
        ∧ arg rq 2 1 ≤ 1 ∧ arg rq 3 1 ≤ 3 ∧ (s.dpx (arg rq 0 1)).farHpd = false)
    ∧ (∃ (rq : Req) (s : State), Admitted Cmd.dispAuxXfer 12 rq s ∧ s.jobRoom rq ∧ arg rq 0 1 ≤ 3 ∧ s.isSource (arg rq 0 1) = true
        ∧ 1 ≤ arg rq 8 1 ∧ arg rq 8 1 ≤ 16)
    ∧ (∃ (rq : Req) (s : State), Admitted Cmd.dispClear 2 rq s ∧ arg rq 0 2 ≠ 0xFFFF ∧ s.stream (arg rq 0 2) ≠ none) :=
  ⟨⟨(ask [3]), ready, admitted_of (by decide +kernel), by decide +kernel⟩,
   ⟨(ask [3,0,1,1,3,3,0,0, 232,3,0,0, 5,0,0,0]), (lk (l0s (ends [0,0,0,1,0,0,0] {ready with topo.role := .hostside, plan.latchFeed := some 100000}) 1) 1 (fun l => {l with state := 3})), 1, admitted_of (by decide +kernel), by decide +kernel⟩,
   ⟨(ask [1,0]), (strs [({str0 with inPort := noPath} : StreamSt)] ready), admitted_of (by decide +kernel), ⟨({str0 with inPort := noPath} : StreamSt), by decide +kernel⟩⟩,
   ⟨(ask [1,0]), ready, admitted_of (by decide +kernel), by decide +kernel⟩,
   ⟨(ask [1,0]), (strs [str0] ready), admitted_of (by decide +kernel), ⟨str0, by decide +kernel⟩⟩,
   ⟨(ask [3,1,1,0,1,0,64,0,64,0,0,0,0,0,0,0]), (ends [0,0,0,2,0,0,0] ready), admitted_of (by decide +kernel), by decide +kernel⟩,
   ⟨(ask [3,1,1,0,1,0,64,255,64,0,0,0,0,0,0,0]), (ends [0,0,0,2,0,0,0] ready), admitted_of (by decide +kernel), by decide +kernel⟩,
   ⟨(ask [1,0,0]), (strs [str0] ready), admitted_of (by decide +kernel), ⟨by decide +kernel, ⟨str0, by decide +kernel⟩⟩⟩,
   ⟨(ask [3,6,1,3]), (ends [0,0,0,1,0,0,0] ready), admitted_of (by decide +kernel), by decide +kernel⟩,
   ⟨(ask [3,9,0,0,0,1,0,0,16,0,0,0]), (ends [0,0,0,2,0,0,0] ready), admitted_of (by decide +kernel), by decide +kernel⟩,
   ⟨(ask [1,0]), (strs [str0] ready), admitted_of (by decide +kernel), by decide +kernel⟩⟩

theorem test_met_PcieTunnels :
    (∃ (s : State) (fn : Nat), s.awake = true ∧ s.pcieUp = true ∧ s.fnPresent fn = true)
    ∧ (∃ (s : State) (fn : Nat), s.awake = true ∧ s.pcieUp = true ∧ s.fnPresent fn = true ∧ 1 ≤ fn ∧ fn ≤ 16)
    ∧ (∃ (s : State) (fn : Nat), s.awake = true ∧ s.pcieUp = true ∧ s.fnPresent fn = false)
    ∧ (∃ (s : State) (t : Tlp), s.awake = true ∧ (s.pcLink 0).state = 2 ∧ t.bad = false ∧ t.data ≤ s.maxPayload 0 ∧ t.pmeOff = false
        ∧ t.route ≠ 3 ∧ t.fc = 1 ∧ s.pcie.f7.takes 16384 t = false ∧ s.downFor t = none)
    ∧ (∃ (s : State) (t : Tlp) (b : Nat), s.awake = true ∧ (s.pcLink 0).state = 2 ∧ t.bad = false ∧ t.data ≤ s.maxPayload 0 ∧ t.pmeOff = false
        ∧ t.route ≠ 3 ∧ t.fc = 0 ∧ s.pcie.f7.takes 16384 t = false ∧ s.downFor t = some b ∧ 1 ≤ b ∧ b ≤ 15 ∧ (s.pcEnd b).state = 1
        ∧ (s.pcEnd b).held = [] ∧ (s.pcEnd b).maySend t = true ∧ s.pcie.bridges.length = 16)
    ∧ (∃ (s : State) (e : Nat) (br : Nat) (t : Tlp), s.awake = true ∧ 16 ≤ e ∧ e < 20 ∧ s.frameOk e br = true ∧ (s.pcEnd e).state = 1
        ∧ (s.pcEnd e).covered t = true ∧ s.linkOpen e = true ∧ (s.pcEnd e).egress = [] ∧ (s.pcEnd e).held = [] ∧ s.pcie.ports.length = 4)
    ∧ (∃ (s : State) (e : Nat) (t : Tlp), s.awake = true ∧ e < 16 ∧ (s.pcEnd e).state = 1 ∧ (s.pcEnd e).covered t = false)
    ∧ (∃ (s : State) (e : Nat) (br : Nat), s.awake = true ∧ s.frameOk e br = false)
    ∧ (∃ (s : State) (e : Nat) (br : Nat), s.awake = true ∧ s.frameOk e br = true ∧ (s.pcEnd e).state = 2)
    ∧ (∃ (s : State) (b : Nat), s.awake = true ∧ 1 ≤ b ∧ b ≤ 15 ∧ (s.pcEnd b).state = 1 ∧ s.pcie.bridges.length = 16)
    ∧ (∃ (s : State) (dp : Nat) (bdg : Nat) (lnk : Nat) (br : Nat), s.awake = true ∧ dp ≤ 3 ∧ s.frameOk (16 + dp) bdg = true
        ∧ bitAt br 6 = false ∧ bitAt lnk 5 = false ∧ s.bayOfDp dp = none)
    ∧ (∃ (s : State) (e : Nat), s.awake = true ∧ e < 16 ∧ (s.pcEnd e).state = 2 ∧ s.endPathUp e = true ∧ (s.pcEnd e).lostP = false
        ∧ (s.pcEnd e).lostNp = false ∧ s.pcie.bridges.length = 16)
    ∧ (∃ (s : State) (e : Nat), s.awake = true ∧ e < 16 ∧ (s.pcEnd e).state = 2 ∧ s.passed (s.pcEnd e).suspAt s.pcieHold = true
        ∧ s.pcie.bridges.length = 16)
    ∧ (∃ (s : State) (e : Nat), s.awake = true ∧ s.passed (s.pcEnd e).suspAt s.pcieHold = false)
    ∧ (∃ (s : State) (k : Nat), s.awake = true ∧ 1 ≤ k ∧ k ≤ 4 ∧ (s.pcLink k).state = 4 ∧ s.passed (s.pcLink k).resetAt (msTicks 2) = true
        ∧ (s.pcEnd (15 + k)).state = 0)
    ∧ (∃ (s : State) (k : Nat), s.awake = true ∧ s.passed (s.pcLink k).resetAt (msTicks 2) = false)
    ∧ (∃ (s : State) (k : Nat) (rate : Nat) (width : Nat), s.awake = true ∧ k ≤ 4 ∧ (s.pcLink k).state = 1
        ∧ (k = 0 ∨ (s.pcLink k).perst = false) ∧ 1 ≤ rate ∧ rate ≤ s.linkMaxRate k ∧ 1 ≤ width ∧ width ≤ s.linkWidth k
        ∧ s.pcie.links.length = 5)
    ∧ (∃ (s : State) (k : Nat), s.awake = true ∧ 1 ≤ k ∧ k ≤ 4 ∧ (s.pcLink k).state ≠ 0 ∧ s.pcie.links.length = 5)
    ∧ (∃ (s : State), s.awake = true ∧ (s.pcLink 0).state ≠ 0)
    ∧ (∃ (s : State) (e : Nat) (r : PciReq), s.awake = true ∧ e < 16 ∧ (s.pcEnd e).table = [r] ∧ (s.pcEnd e).agedTick = none
        ∧ s.cv Fld.CPL_AGE_MS ≠ 0 ∧ msTicks (s.cv Fld.CPL_AGE_MS) < tickDiff s.time.tick r.tick)
    ∧ (∃ (s : State) (w : Tick), s.awake = true ∧ s.pcie.pmeWait = some w ∧ s.passed w (msTicks 10) = true)
    ∧ (∃ (s : State) (w : Tick), s.awake = true ∧ s.pcie.pmeWait = some w ∧ s.passed w (msTicks 10) = false)
    ∧ (∃ (s : State) (k : Nat), s.awake = true ∧ k ≤ 3 ∧ ((s.bayOfDp k).isSome = true ∨ (s.pcEnd (16 + k)).state = 0)) :=
  ⟨⟨(ends [0,0,0,0,1,0,0] ready), 16, by decide +kernel⟩,
   ⟨(ends [0,0,0,0,1,0,0] ready), 16, by decide +kernel⟩,
   ⟨(ends [0,0,0,0,1,0,0] ready), 1, by decide +kernel⟩,
   ⟨(pl ready 0 (fun l => {l with state := 2})), ({tlp0 with fc := 1} : Tlp), by decide +kernel⟩,
   ⟨(pe (pl {ready with pcie.up.memLimit := 0x2000, pcie.up.cmd := 2} 0 (fun l => {l with state := 2})) 15 (fun e => {e with state := 1, cmd := 2, memLimit := 0x2000, limits := List.replicate 6 100})), (tlp0 : Tlp), 15, by decide +kernel⟩,
   ⟨(setc Fld.PCIE_BAY_MAP 0xFFFF (pe (pl ready 4 (fun l => {l with state := 2})) 19 (fun e => {e with state := 1, granted := List.replicate 6 100}))), 19, 3, (tlp0 : Tlp), by decide +kernel⟩,
   ⟨(pe ready 15 (fun e => {e with state := 1})), 15, (tlp0 : Tlp), by decide +kernel⟩,
   ⟨(pe ready 19 (fun e => {e with state := 2, bridge := 4})), 19, 3, by decide +kernel⟩,
   ⟨(pe ready 19 (fun e => {e with state := 2})), 19, 3, by decide +kernel⟩,
   ⟨(pe ready 15 (fun e => {e with state := 1})), 15, by decide +kernel⟩,
   ⟨(setc Fld.PCIE_BAY_MAP 0xFFFF (pe ready 19 (fun e => {e with state := 1}))), 3, 3, 0, 0, by decide +kernel⟩,
   ⟨(pe (lk {ready with cable.paths := [⟨5,8,some 1,16,0,0,11,2,false,0,false,1,.command,none⟩]} 1 (fun l => {l with table := [entry0]})) 15 (fun e => {e with state := 2, path := some 5})), 15, by decide +kernel⟩,
   ⟨(pe late 15 (fun e => {e with state := 2})), 15, by decide +kernel⟩,
   ⟨(pe ready 15 (fun e => {e with state := 2})), 15, by decide +kernel⟩,
   ⟨(pl late 4 (fun l => {l with state := 4})), 4, by decide +kernel⟩,
   ⟨(pl ready 4 (fun l => {l with state := 4})), 4, by decide +kernel⟩,
   ⟨(pl (ends [0,0,0,0,2,0,0] ready) 1 (fun l => {l with perst := false, state := 1})), 1, 3, 1, by decide +kernel⟩,
   ⟨(pl ready 4 (fun l => {l with state := 2})), 4, by decide +kernel⟩,
   ⟨(pl ready 0 (fun l => {l with state := 2})), by decide +kernel⟩,
   ⟨(pe (setc Fld.CPL_AGE_MS 1 {ready with time.tick := 33}) 15 (fun e => {e with table := [(⟨1,2,0⟩ : PciReq)]})), 15, (⟨1,2,0⟩ : PciReq), by decide +kernel⟩,
   ⟨({late with pcie.pmeWait := some 0} : State), (0 : Tick), by decide +kernel⟩,
   ⟨({ready with pcie.pmeWait := some 0} : State), (0 : Tick), by decide +kernel⟩,
   ⟨ready, 3, by decide +kernel⟩⟩

theorem test_met_PcieAndUsbCommands :
    (∃ (rq : Req) (s : State), Admitted Cmd.pcieShow 1 rq s ∧ arg rq 0 1 ≤ 4)
    ∧ (∃ (rq : Req) (s : State) (p : Nat), Admitted Cmd.pciePortBind 16 rq s ∧ s.jobRoom rq ∧ 1 ≤ arg rq 0 1 ∧ arg rq 0 1 ≤ 15
        ∧ 1 ≤ arg rq 1 1 ∧ arg rq 1 1 ≤ 6 ∧ arg rq 2 1 ≤ 1 ∧ arg rq 3 1 ≤ 3 ∧ s.pcieUp = true
        ∧ s.targetBound (arg rq 1 1) (arg rq 2 1) (arg rq 3 1) = false ∧ (s.pcEnd (arg rq 0 1)).hops = 0
        ∧ s.pathPort (arg rq 2 1) = some p ∧ arg rq 4 4 = 0 ∧ arg rq 8 4 = 0
        ∧ (s.openPath (.pcie (arg rq 0 1)) none 6 (arg rq 1 1) (arg rq 2 1) (targetPxa (arg rq 3 1)) 4 true 0).rc = .accepted
        ∧ s.pcie.bridges.length = 16)
    ∧ (∃ (rq : Req) (s : State), Admitted Cmd.pciePortUnbind 1 rq s ∧ 1 ≤ arg rq 0 1 ∧ arg rq 0 1 ≤ 15 ∧ (s.pcEnd (arg rq 0 1)).state = 3
        ∧ (s.pcEnd (arg rq 0 1)).path = none ∧ (s.pcEnd (arg rq 0 1)).contract = 0 ∧ s.pcie.bridges.length = 16)
    ∧ (∃ (rq : Req) (s : State), Admitted Cmd.pciePortUnbind 1 rq s ∧ (s.pcEnd (arg rq 0 1)).state = 0)
    ∧ (∃ (rq : Req) (s : State), Admitted Cmd.pcieBridgeShow 1 rq s ∧ 1 ≤ arg rq 0 1 ∧ arg rq 0 1 ≤ 15)
    ∧ (∃ (b : Nat) (rq : Req) (s : State), Admitted Cmd.pcieSlotPower 2 rq s ∧ arg rq 0 1 ≤ 3 ∧ s.bayOfDp (arg rq 0 1) = some b
        ∧ (s.bay b).state = .unseated)
    ∧ (∃ (rq : Req) (s : State), Admitted Cmd.pcieSlotPower 2 rq s ∧ (arg rq 0 1 ≤ 3 → s.bayOfDp (arg rq 0 1) = none))
    ∧ (∃ (rq : Req) (s : State), Admitted Cmd.pcieClear 1 rq s ∧ arg rq 0 1 ≤ 15)
    ∧ (∃ (rq : Req) (s : State), Admitted Cmd.usbShow 0 rq s)
    ∧ (∃ (rq : Req) (s : State), Admitted Cmd.usbPortShow 1 rq s ∧ 1 ≤ arg rq 0 1 ∧ arg rq 0 1 ≤ 4 ∧ s.isUsbHub = true)
    ∧ (∃ (rq : Req) (s : State), Admitted Cmd.usbPortPower 2 rq s ∧ 1 ≤ arg rq 0 1 ∧ arg rq 0 1 ≤ 4 ∧ s.isUsbHub = true ∧ arg rq 1 1 = 0
        ∧ (s.usbPort (arg rq 0 1)).connected = false)
    ∧ (∃ (rq : Req) (s : State), Admitted Cmd.usbPortPower 2 rq s ∧ s.isUsbHub = false)
    ∧ (∃ (rq : Req) (s : State), Admitted Cmd.usbKeepaliveShow 0 rq s ∧ s.usb.absent = false)
    ∧ (∃ (rq : Req) (s : State), Admitted Cmd.usbClear 1 rq s ∧ arg rq 0 1 = 255) :=
  ⟨⟨(ask [4]), ready, admitted_of (by decide +kernel), by decide +kernel⟩,
   ⟨(ask [15,1,1,3,0,0,0,0,0,0,0,0,0,0,0,0]), (lk (ends [0,0,0,0,1,0,0] {ready with topo.role := .hostside}) 1 (fun l => {l with state := 3})), 1, admitted_of (by decide +kernel), by decide +kernel⟩,
   ⟨(ask [15]), (pe ready 15 (fun e => {e with state := 3})), admitted_of (by decide +kernel), by decide +kernel⟩,
   ⟨(ask [15]), ready, admitted_of (by decide +kernel), by decide +kernel⟩,
   ⟨(ask [15]), ready, admitted_of (by decide +kernel), by decide +kernel⟩,
   ⟨3, (ask [3,1]), (setc Fld.PCIE_BAY_MAP 0x3210 ready), admitted_of (by decide +kernel), by decide +kernel⟩,
   ⟨(ask [3,1]), (setc Fld.PCIE_BAY_MAP 0xFFFF ready), admitted_of (by decide +kernel), by decide +kernel⟩,
   ⟨(ask [15]), ready, admitted_of (by decide +kernel), by decide +kernel⟩,
   ⟨(ask []), ready, admitted_of (by decide +kernel)⟩,
   ⟨(ask [4]), usbHub, admitted_of (by decide +kernel), by decide +kernel⟩,
   ⟨(ask [4,0]), usbHub, admitted_of (by decide +kernel), by decide +kernel⟩,
   ⟨(ask [4,0]), ready, admitted_of (by decide +kernel), by decide +kernel⟩,
   ⟨(ask []), ready, admitted_of (by decide +kernel), by decide +kernel⟩,
   ⟨(ask [255]), ready, admitted_of (by decide +kernel), by decide +kernel⟩⟩

theorem test_met_PowerPath :
    (∃ (s : State) (n : Nat) (mv : Nat) (ms : Nat), s.powered = true ∧ n ≤ 1 ∧ (s.feed n).present = false ∧ s.feedCan n = true
        ∧ s.pathCv Fld.FEED_UV_MV * 105 ≤ mv * 100 ∧ 10 ≤ ms)
    ∧ (∃ (s : State) (n : Nat) (mv : Nat) (ms : Nat), s.powered = true ∧ (1 < n ∨ mv * 100 < s.pathCv Fld.FEED_UV_MV * 105 ∨ ms < 10))
    ∧ (∃ (s : State) (n : Nat) (mv : Nat) (us : Nat) (rev : Bool), s.powered = true ∧ n ≤ 1 ∧ (rev = true ∨ (mv < s.pathCv Fld.FEED_UV_MV
        ∧ 10 ≤ us)) ∧ (s.feed n).present = true ∧ (s.feed (1 - n)).present = true ∧ s.ppath.feeds.length = 2)
    ∧ (∃ (s : State), s.pwrLive = true ∧ s.ppath.feeds.length = 2 ∧ (s.feed 0).present = true ∧ (s.feed 1).present = true)
    ∧ (∃ (s : State) (n : Nat) (ma : Nat) (ms : Nat), s.pwrLive = true ∧ n ≤ 1 ∧ (s.feed n).present = true ∧ s.feedLimit n * 11 < ma * 10
        ∧ s.cv Fld.FEED_OC_MS ≤ ms ∧ s.romNow = false ∧ s.shedAgain = true ∧ s.outputOn 5 = true ∧ s.isUsbHub = false)
    ∧ (∃ (s : State) (n : Nat) (ma : Nat), s.pwrLive = true ∧ (ma * 10 ≤ s.feedLimit n * 11 ∨ s.shedAgain = false))
    ∧ (∃ (s : State) (k : Nat) (mv : Nat) (ms : Nat), s.pwrLive = true ∧ (s.vsw k).target ≠ 0 ∧ (ms = 0 ∨ mv * 100 < (s.vsw k).target * 95))
    ∧ (∃ (s : State) (k : Nat) (ms : Nat) (trip : Bool), s.pwrLive = true ∧ 2 ≤ k ∧ k ≤ 5 ∧ (s.vsw k).state = 1 ∧ s.isUsbHub = false
        ∧ (trip = true ∨ s.cv Fld.VBUS_FAULT_MS ≤ ms))
    ∧ (∃ (s : State) (k : Nat), s.pwrLive = true ∧ (s.vsw k).state = 3 ∧ (s.vsw k).wants = none ∧ s.isUsbHub = false
        ∧ s.passed (s.vsw k).faultAt (msTicks (s.cv Fld.VBUS_RETRY_MS)) = true)
    ∧ (∃ (s : State) (k : Nat), s.pwrLive = true ∧ s.passed (s.vsw k).faultAt (msTicks (s.cv Fld.VBUS_RETRY_MS)) = false)
    ∧ (∃ (s : State) (b : Nat), s.pwrLive = true ∧ b ≤ 3 ∧ s.ppath.bays.length = 4 ∧ (s.bay b).state = .unseated ∧ (s.bay b).pg = false)
    ∧ (∃ (s : State) (b : Nat), s.pwrLive = true ∧ b ≤ 3 ∧ s.ppath.bays.length = 4 ∧ (s.bay b).state = .off ∧ (s.bay b).pg = false
        ∧ s.dpOfBay b = none)
    ∧ (∃ (s : State) (b : Nat), s.pwrLive = true ∧ b ≤ 3 ∧ s.ppath.bays.length = 4 ∧ (s.bay b).state = .seating ∧ (s.bay b).retry = true
        ∧ (s.bay b).pg = false ∧ s.dpOfBay b = none ∧ s.passed (s.bay b).closeTick (msTicks (s.cv Fld.SEAT_DEBOUNCE_MS)) = true)
    ∧ (∃ (s : State) (b : Nat), s.pwrLive = true ∧ b ≤ 3 ∧ s.ppath.bays.length = 4
        ∧ s.passed (s.bay b).closeTick (msTicks (s.cv Fld.SEAT_DEBOUNCE_MS)) = false)
    ∧ (∃ (s : State) (b : Nat), s.pwrLive = true ∧ b ≤ 3 ∧ s.ppath.bays.length = 4 ∧ (s.bay b).state = .on)
    ∧ (∃ (s : State) (b : Nat) (n : Nat), s.pwrLive = true ∧ b ≤ 3 ∧ s.ppath.bays.length = 4 ∧ (s.bay b).state = .limit ∧ (s.bay b).pg = false
        ∧ (s.bay b).faultMs * 1000 ≤ (s.bay b).count + n)
    ∧ (∃ (s : State) (b : Nat) (n : Nat), s.pwrLive = true ∧ b ≤ 3 ∧ s.ppath.bays.length = 4 ∧ (s.bay b).state = .limit
        ∧ (s.bay b).count + n < (s.bay b).faultMs * 1000)
    ∧ (∃ (s : State) (b : Nat) (ma : Nat), s.pwrLive = true ∧ b ≤ 3 ∧ s.ppath.bays.length = 4 ∧ (s.bay b).state = .on ∧ (s.bay b).pg = false
        ∧ 2 * (s.bay b).ilim < ma)
    ∧ (∃ (s : State) (b : Nat) (ma : Nat), s.pwrLive = true ∧ b ≤ 3 ∧ s.ppath.bays.length = 4 ∧ ma ≤ 2 * (s.bay b).ilim)
    ∧ (∃ (s : State) (b : Nat) (vin : Nat), s.pwrLive = true ∧ b ≤ 3 ∧ s.ppath.bays.length = 4 ∧ (s.bay b).state = .ramp
        ∧ (s.bay b).pg = false ∧ s.passed (s.bay b).rampTick ((s.bay b).rampLimit vin) = true)
    ∧ (∃ (s : State) (b : Nat) (vin : Nat), s.pwrLive = true ∧ b ≤ 3 ∧ s.ppath.bays.length = 4
        ∧ s.passed (s.bay b).rampTick ((s.bay b).rampLimit vin) = false)
    ∧ (∃ (s : State) (b : Nat) (vin : Nat) (mv : Nat) (ma : Nat) (us : Nat), s.pwrLive = true ∧ b ≤ 3 ∧ s.ppath.bays.length = 4
        ∧ (s.bay b).state = .ramp ∧ (s.bay b).pg = false ∧ vin * s.cv Fld.PG_PCT ≤ mv * 100 ∧ ma < (s.bay b).ilim
        ∧ s.cv Fld.PG_DEBOUNCE_US ≤ us)
    ∧ (∃ (s : State) (b : Nat) (vin : Nat) (mv : Nat) (ma : Nat) (us : Nat) (en : Bool), s.pwrLive = true ∧ b ≤ 3 ∧ s.ppath.bays.length = 4
        ∧ (en = false ∨ mv * 100 < vin * s.cv Fld.PG_PCT ∨ (s.bay b).ilim ≤ ma ∨ us < s.cv Fld.PG_DEBOUNCE_US))
    ∧ (∃ (s : State) (b : Nat) (vin : Nat) (mv : Nat), s.pwrLive = true ∧ b ≤ 3 ∧ s.ppath.bays.length = 4 ∧ mv * 100 < vin * s.cv Fld.PG_PCT
        ∧ (s.bay b).pg = true ∧ s.dpOfBay b = none)
    ∧ (∃ (s : State) (b : Nat) (vin : Nat) (mv : Nat), s.pwrLive = true ∧ b ≤ 3 ∧ s.ppath.bays.length = 4 ∧ vin * s.cv Fld.PG_PCT ≤ mv * 100)
    ∧ (∃ (s : State) (b : Nat), s.pwrLive = true ∧ b ≤ 3 ∧ s.ppath.bays.length = 4 ∧ (s.bay b).retry = true ∧ (s.bay b).state = .faultWait
        ∧ (s.bay b).retries = 0 ∧ (s.bay b).pg = false ∧ s.romNow = false
        ∧ s.passed (s.bay b).retryTick (msTicks (s.bay b).retryMs) = true)
    ∧ (∃ (s : State) (b : Nat), s.pwrLive = true ∧ b ≤ 3 ∧ s.ppath.bays.length = 4
        ∧ s.passed (s.bay b).retryTick (msTicks (s.bay b).retryMs) = false)
    ∧ (∃ (s : State) (b : Nat), s.pwrLive = true ∧ b ≤ 3 ∧ s.ppath.bays.length = 4 ∧ (s.bay b).pg = true
        ∧ s.passed (s.bay b).pgTick (secTicks 1) = true)
    ∧ (∃ (s : State) (b : Nat), s.pwrLive = true ∧ b ≤ 3 ∧ s.ppath.bays.length = 4 ∧ s.passed (s.bay b).pgTick (secTicks 1) = false)
    ∧ (∃ (s : State) (b : Nat) (k : Nat), s.pwrLive = true ∧ b ≤ 3 ∧ s.ppath.bays.length = 4 ∧ k ≤ 3 ∧ s.dpOfBay b = some k
        ∧ s.bayOfDp k = some b ∧ (s.bay b).pg = true ∧ s.passed (s.bay b).pgTick (msTicks 100) = true ∧ (s.pcLink (k + 1)).perst = true
        ∧ s.pcie.links.length = 5)
    ∧ (∃ (s : State) (b : Nat), s.pwrLive = true ∧ b ≤ 3 ∧ s.ppath.bays.length = 4 ∧ s.dpOfBay b = none)
    ∧ (∃ (s : State) (b : Nat), s.pwrLive = true ∧ b ≤ 3 ∧ s.ppath.bays.length = 4 ∧ (s.bay b).tsense = 2)
    ∧ (∃ (s : State) (b : Nat) (diode : Int), s.pwrLive = true ∧ b ≤ 3 ∧ s.ppath.bays.length = 4 ∧ (s.bay b).tsense = 0
        ∧ (s.bay b).diodeBad = false ∧ 17500 < diode)
    ∧ (∃ (s : State) (b : Nat) (diode : Int), s.pwrLive = true ∧ b ≤ 3 ∧ s.ppath.bays.length = 4 ∧ (s.bay b).tsense = 0
        ∧ (s.bay b).diodeBad = false ∧ -4000 ≤ diode ∧ diode ≤ 17500 ∧ (s.bay b).state.conducts = true
        ∧ ((s.bay b).tlim : Int) * 100 ≤ diode ∧ (s.bay b).hotTick = none ∧ (s.bay b).pg = false ∧ s.plan.fetNow.length = 4
        ∧ s.plan.fetLimNow.length = 4) :=
  ⟨⟨(setc Fld.FEED1_SRC 0 ready), 1, 20000, 10, by decide +kernel⟩,
   ⟨ready, 1, 20000, 9, by decide +kernel⟩,
   ⟨({ready with ppath.feeds := [⟨true,true,20000,100⟩, ⟨true,true,20000,100⟩]} : State), 1, 3, 10, false, by decide +kernel⟩,
   ⟨({ready with ppath.feeds := [⟨true,true,20000,100⟩, ⟨true,true,20000,100⟩]} : State), by decide +kernel⟩,
   ⟨(vs {ready with ppath.feeds := [⟨true,true,20000,100⟩, ⟨true,true,20000,100⟩]} 5 (fun v => {v with state := 1})), 1, 100000, 1000, by decide +kernel⟩,
   ⟨ready, 1, 0, by decide +kernel⟩,
   ⟨(vs ready 5 (fun v => {v with target := 5000})), 5, 4749, 3, by decide +kernel⟩,
   ⟨(vs ready 5 (fun v => {v with state := 1})), 5, 0, true, by decide +kernel⟩,
   ⟨(vs {ready with time.tick := 1000000000} 5 (fun v => {v with state := 3})), 5, by decide +kernel⟩,
   ⟨ready, 5, by decide +kernel⟩,
   ⟨(by' nomap 3 (fun b => {b with state := .unseated})), 3, by decide +kernel⟩,
   ⟨(by' nomap 3 (fun b => {b with state := .off})), 3, by decide +kernel⟩,
   ⟨(by' nolate 3 (fun b => {b with state := .seating, retry := true})), 3, by decide +kernel⟩,
   ⟨(by' nomap 3 (fun b => {b with state := .seating})), 3, by decide +kernel⟩,
   ⟨(by' nomap 3 (fun b => {b with state := .on})), 3, by decide +kernel⟩,
   ⟨(by' nomap 3 (fun b => {b with state := .limit, count := 100000})), 3, 1000, by decide +kernel⟩,
   ⟨(by' nomap 3 (fun b => {b with state := .limit})), 3, 5, by decide +kernel⟩,
   ⟨(by' nomap 3 (fun b => {b with state := .on})), 3, 1000000, by decide +kernel⟩,
   ⟨(by' nomap 3 (fun b => {b with state := .on})), 3, 0, by decide +kernel⟩,
   ⟨(by' nolate 3 (fun b => {b with state := .ramp})), 3, 10000, by decide +kernel⟩,
   ⟨(by' nomap 3 (fun b => {b with state := .ramp})), 3, 10000, by decide +kernel⟩,
   ⟨(by' nomap 3 (fun b => {b with state := .ramp})), 3, 10000, 10000, 0, 1000000, by decide +kernel⟩,
   ⟨(by' nomap 3 (fun b => {b with state := .ramp})), 3, 10000, 10000, 0, 1000000, false, by decide +kernel⟩,
   ⟨(by' nomap 3 (fun b => {b with pg := true})), 3, 10000, 7, by decide +kernel⟩,
   ⟨(by' nomap 3 (fun b => {b with pg := true})), 3, 10000, 10000, by decide +kernel⟩,
   ⟨(by' nolate 3 (fun b => {b with state := .faultWait, retry := true, retries := 0})), 3, by decide +kernel⟩,
   ⟨(by' nomap 3 (fun b => {b with state := .faultWait})), 3, by decide +kernel⟩,
   ⟨(by' nolate 3 (fun b => {b with pg := true})), 3, by decide +kernel⟩,
   ⟨(by' nomap 3 (fun b => {b with pg := true})), 3, by decide +kernel⟩,
   ⟨(by' (setc Fld.PCIE_BAY_MAP 0x3210 {ready with time.tick := 1000000000}) 3 (fun b => {b with pg := true})), 3, 3, by decide +kernel⟩,
   ⟨(by' nomap 3 (fun b => {b with pg := true})), 3, by decide +kernel⟩,
   ⟨(by' nomap 3 (fun b => {b with par := [0,0,0,0,0,2]})), 3, by decide +kernel⟩,
   ⟨(by' nomap 3 (fun b => {b with par := [0,0,0,0,0,0]})), 3, (17501 : Int), by decide +kernel⟩,
   ⟨(by' nomap 3 (fun b => {b with state := .on, par := [0,0,0,0,0,0,100]})), 3, (17500 : Int), by decide +kernel⟩⟩

theorem test_met_PowerCommands :
    (∃ (rq : Req) (s : State), Admitted Cmd.ppathShow 0 rq s)
    ∧ (∃ (rq : Req) (s : State), Admitted Cmd.ppathBayShow 1 rq s ∧ arg rq 0 1 ≤ 3)
    ∧ (∃ (rq : Req) (s : State), Admitted Cmd.ppathBayPower 2 rq s ∧ arg rq 0 1 ≤ 3 ∧ arg rq 1 1 = 0 ∧ (s.bay (arg rq 0 1)).state = .unseated)
    ∧ (∃ (rq : Req) (s : State), Admitted Cmd.ppathBayPower 2 rq s ∧ arg rq 0 1 ≤ 3 ∧ arg rq 1 1 = 1 ∧ s.ppath.bays.length = 4
        ∧ (s.bay (arg rq 0 1)).state = .off ∧ (s.bay (arg rq 0 1)).inhibit = false ∧ (s.bay (arg rq 0 1)).cool = true
        ∧ (s.bay (arg rq 0 1)).retry = false ∧ (s.bay (arg rq 0 1)).pg = false ∧ s.romNow = false)
    ∧ (∃ (rq : Req) (s : State), Admitted Cmd.ppathBayPower 2 rq s ∧ 3 < arg rq 1 1)
    ∧ (∃ (rq : Req) (s : State), Admitted Cmd.ppathVbusShow 1 rq s ∧ arg rq 0 1 ≤ 5)
    ∧ (∃ (rq : Req) (s : State), Admitted Cmd.ppathClear 0 rq s)
    ∧ (∃ (rq : Req) (s : State), Admitted Cmd.cpwrShow 1 rq s ∧ arg rq 0 1 ≤ 5)
    ∧ (∃ (rq : Req) (s : State), Admitted Cmd.cpwrCapsSet 8 rq s ∧ arg rq 0 1 ≤ 5 ∧ arg rq 1 1 = 1 ∧ 1 ≤ arg rq 2 1 ∧ arg rq 2 1 ≤ 11
        ∧ 4 + 4 * arg rq 2 1 ≤ rq.payload.length)
    ∧ (∃ (rq : Req) (s : State), Admitted Cmd.cpwrCapsSet 8 rq s ∧ (arg rq 1 1 = 0 ∧ 1 ≤ arg rq 2 1 ∧ arg rq 2 1 ≤ 11
        ∧ 4 + 4 * arg rq 2 1 ≤ rq.payload.length ∧ ∃ p ∈ wordsAt rq 4 (arg rq 2 1), pdoFixed p = false))
    ∧ (∃ (rq : Req) (s : State), Admitted Cmd.cpwrRequest 8 rq s ∧ s.jobRoom rq ∧ arg rq 0 1 ≤ 5 ∧ (s.chn (arg rq 0 1)).state = 5
        ∧ (s.chn (arg rq 0 1)).reqJob = none ∧ (s.chn (arg rq 0 1)).sent = none ∧ s.romNow = false)
    ∧ (∃ (rq : Req) (s : State), Admitted Cmd.cpwrRequest 8 rq s ∧ s.jobRoom rq ∧ arg rq 0 1 ≤ 5 ∧ (s.chn (arg rq 0 1)).state ≠ 5)
    ∧ (∃ (rq : Req) (s : State), Admitted Cmd.cpwrAnswer 2 rq s ∧ arg rq 0 1 ≤ 5 ∧ arg rq 1 1 = 2 ∧ (s.chn (arg rq 0 1)).asked = some 2
        ∧ s.ccDue (arg rq 0 1) .ask = false ∧ (s.chn (arg rq 0 1)).sent = none ∧ s.romNow = false)
    ∧ (∃ (rq : Req) (s : State), Admitted Cmd.cpwrAnswer 2 rq s ∧ (s.chn (arg rq 0 1)).asked = none)
    ∧ (∃ (rq : Req) (s : State), Admitted Cmd.cpwrSwap 2 rq s ∧ s.jobRoom rq ∧ arg rq 0 1 ≤ 1 ∧ arg rq 1 1 = 1
        ∧ (s.chn (arg rq 0 1)).state = 5 ∧ (s.chn (arg rq 0 1)).amsWaits = false ∧ (s.chn (arg rq 0 1)).swap = none
        ∧ (s.chn (arg rq 0 1)).queued = none ∧ (s.chn (arg rq 0 1)).sent = none ∧ s.romNow = false)
    ∧ (∃ (rq : Req) (s : State), Admitted Cmd.cpwrSwap 2 rq s ∧ arg rq 0 1 ≤ 1 ∧ arg rq 1 1 ≤ 2 ∧ (s.chn (arg rq 0 1)).attached = true
        ∧ (s.chn (arg rq 0 1)).swap ≠ none)
    ∧ (∃ (rq : Req) (s : State), Admitted Cmd.cpwrHardreset 2 rq s ∧ arg rq 0 1 ≤ 5 ∧ arg rq 1 1 = 0 ∧ (s.chn (arg rq 0 1)).attached = true
        ∧ s.cc.length = 6)
    ∧ (∃ (rq : Req) (s : State), Admitted Cmd.cpwrHardreset 2 rq s ∧ arg rq 0 1 ≤ 5 ∧ arg rq 1 1 = 1 ∧ (s.chn (arg rq 0 1)).attached = true)
    ∧ (∃ (rq : Req) (s : State), Admitted Cmd.cpwrModeEnter 2 rq s ∧ arg rq 0 1 ≤ 1 ∧ arg rq 1 1 = 1 ∧ (s.chn (arg rq 0 1)).attached = true
        ∧ (s.chn (arg rq 0 1)).dfp = false)
    ∧ (∃ (rq : Req) (s : State), Admitted Cmd.cpwrModeEnter 2 rq s ∧ s.jobRoom rq ∧ arg rq 0 1 ≤ 1 ∧ arg rq 1 1 = 1
        ∧ (s.chn (arg rq 0 1)).attached = true ∧ (s.chn (arg rq 0 1)).dfp = true ∧ (s.chn (arg rq 0 1)).entering = none
        ∧ (s.chn (arg rq 0 1)).amsWaits = false ∧ (s.chn (arg rq 0 1)).queued = none ∧ (s.chn (arg rq 0 1)).sent = none ∧ s.romNow = false)
    ∧ (∃ (rq : Req) (s : State), Admitted Cmd.cpwrModeEnter 2 rq s ∧ 2 ≤ arg rq 1 1 ∧ s.dpPermitted (arg rq 0 1) = false)
    ∧ (∃ (rq : Req) (s : State), Admitted Cmd.cpwrMuxSet 2 rq s ∧ arg rq 0 1 ≤ 1 ∧ arg rq 1 1 = 0 ∧ s.cc.length = 6)
    ∧ (∃ (rq : Req) (s : State), Admitted Cmd.cpwrMuxSet 2 rq s ∧ arg rq 1 1 = 5 ∧ s.topo.role ≠ .hostside)
    ∧ (∃ (rq : Req) (s : State), Admitted Cmd.cpwrDiscoverShow 2 rq s ∧ arg rq 0 1 ≤ 5 ∧ arg rq 1 1 ≤ 1)
    ∧ (∃ (rq : Req) (s : State), Admitted Cmd.cpwrMsgSend 4 rq s ∧ s.jobRoom rq ∧ arg rq 0 1 ≤ 5 ∧ arg rq 1 1 = 0
        ∧ (s.chn (arg rq 0 1)).attached = true ∧ (s.chn (arg rq 0 1)).amsWaits = false ∧ rq.payload.length = 4
        ∧ (s.chn (arg rq 0 1)).queued = none ∧ (s.chn (arg rq 0 1)).sent = none ∧ s.romNow = false)
    ∧ (∃ (rq : Req) (s : State), Admitted Cmd.cpwrMsgSend 4 rq s ∧ (s.chn (arg rq 0 1)).attached = false)
    ∧ (∃ (rq : Req) (s : State), Admitted Cmd.cpwrMsgRecv 1 rq s ∧ arg rq 0 1 ≤ 5 ∧ (s.chn (arg rq 0 1)).queue = [])
    ∧ (∃ (q : PdQueued) (l : List PdQueued) (rq : Req) (s : State), Admitted Cmd.cpwrMsgRecv 1 rq s ∧ arg rq 0 1 ≤ 5
        ∧ (s.chn (arg rq 0 1)).queue = q :: l) :=
  ⟨⟨(ask []), ready, admitted_of (by decide +kernel)⟩,
   ⟨(ask [3]), ready, admitted_of (by decide +kernel), by decide +kernel⟩,
   ⟨(ask [3,0]), ready, admitted_of (by decide +kernel), by decide +kernel⟩,
   ⟨(ask [3,1]), (by' ready 3 (fun b => {b with state := .off})), admitted_of (by decide +kernel), by decide +kernel⟩,
   ⟨(ask [3,4]), ready, admitted_of (by decide +kernel), by decide +kernel⟩,
   ⟨(ask [5]), ready, admitted_of (by decide +kernel), by decide +kernel⟩,
   ⟨(ask []), ready, admitted_of (by decide +kernel)⟩,
   ⟨(ask [5]), ready, admitted_of (by decide +kernel), by decide +kernel⟩,
   ⟨(ask [5,1,1,0,1,2,3,4]), ready, admitted_of (by decide +kernel), by decide +kernel⟩,
   ⟨(ask [5,0,1,0,1,2,3,0xC0]), ready, admitted_of (by decide +kernel), ⟨by decide +kernel, by decide +kernel, by decide +kernel, by decide +kernel, pdo_open (by decide +kernel)⟩⟩,
   ⟨(ask [5,0,0,0,1,2,3,4]), (ch (ready) 5 (fun c => {c with state := 5})), admitted_of (by decide +kernel), by decide +kernel⟩,
   ⟨(ask [5,0,0,0,1,2,3,4]), ready, admitted_of (by decide +kernel), by decide +kernel⟩,
   ⟨(ask [5,2]), (ch (ready) 5 (fun c => {c with asked := some 2})), admitted_of (by decide +kernel), by decide +kernel⟩,
   ⟨(ask [5,2]), ready, admitted_of (by decide +kernel), by decide +kernel⟩,
   ⟨(ask [1,1]), (ch (ready) 1 (fun c => {c with state := 5})), admitted_of (by decide +kernel), by decide +kernel⟩,
   ⟨(ask [1,1]), (ch ready 1 (fun c => {c with state := 5, swap := some ⟨1,true,1,none⟩})), admitted_of (by decide +kernel), by decide +kernel⟩,
   ⟨(ask [5,0]), (ch (ready) 5 (fun c => {c with state := 4})), admitted_of (by decide +kernel), by decide +kernel⟩,
   ⟨(ask [5,1]), (ch (ready) 5 (fun c => {c with state := 4})), admitted_of (by decide +kernel), by decide +kernel⟩,
   ⟨(ask [1,1]), (ch (ready) 1 (fun c => {c with state := 4})), admitted_of (by decide +kernel), by decide +kernel⟩,
   ⟨(ask [1,1]), (ch (ready) 1 (fun c => {c with state := 4, dfp := true})), admitted_of (by decide +kernel), by decide +kernel⟩,
   ⟨(ask [1,2]), ready, admitted_of (by decide +kernel), by decide +kernel⟩,
   ⟨(ask [1,0]), ready, admitted_of (by decide +kernel), by decide +kernel⟩,
   ⟨(ask [1,5]), ready, admitted_of (by decide +kernel), by decide +kernel⟩,
   ⟨(ask [5,1]), ready, admitted_of (by decide +kernel), by decide +kernel⟩,
   ⟨(ask [5,0,1,2]), (ch (ready) 5 (fun c => {c with state := 4})), admitted_of (by decide +kernel), by decide +kernel⟩,
   ⟨(ask [5,0,1,2]), ready, admitted_of (by decide +kernel), by decide +kernel⟩,
   ⟨(ask [5]), ready, admitted_of (by decide +kernel), by decide +kernel⟩,
   ⟨(⟨0,0,0,[],true⟩ : PdQueued), ([] : List PdQueued), (ask [5]), (ch (ready) 5 (fun c => {c with queue := [(⟨0,0,0,[],true⟩ : PdQueued)]})), admitted_of (by decide +kernel), by decide +kernel⟩⟩

theorem test_met_CableChannels :
    (∃ (s : State) (k : Nat) (far : Nat) (ms : Nat), s.pwrLive = true ∧ s.cc.length = 6 ∧ k ≤ 1 ∧ (s.chn k).state = 1 ∧ s.ccRole k ≠ 0
        ∧ far ≤ 2 ∧ s.cv Fld.CC_DEBOUNCE_MS ≤ ms)
    ∧ (∃ (s : State) (k : Nat) (a : Nat) (b : Nat), s.pwrLive = true ∧ s.cc.length = 6 ∧ k ≤ 5 ∧ (s.chn k).state = 1 ∧ a = b)
    ∧ (∃ (s : State) (k : Nat) (ms : Nat), s.pwrLive = true ∧ s.cc.length = 6 ∧ 2 ≤ k ∧ k ≤ 5 ∧ (s.chn k).state = 4 ∧ (s.chn k).src = true
        ∧ (s.chn k).queued = none ∧ (s.chn k).sent = none ∧ (s.chn k).outq = [] ∧ (s.chn k).reqJob = none ∧ (s.chn k).entering = none
        ∧ (s.chn k).epr = false ∧ (s.chn k).swap = none ∧ s.isUsbHub = false ∧ s.cv Fld.PD_DEBOUNCE_MS ≤ ms)
    ∧ (∃ (s : State) (k : Nat) (ms : Nat), s.pwrLive = true ∧ s.cc.length = 6 ∧ (s.chn k).state = 4 ∧ (s.chn k).src = true
        ∧ ms < s.cv Fld.PD_DEBOUNCE_MS)
    ∧ (∃ (s : State) (k : Nat), s.pwrLive = true ∧ s.cc.length = 6 ∧ k ≤ 1 ∧ (s.chn k).state = 1 ∧ 2 ≤ s.ccRole k ∧ (s.chn k).runs .drp = false)
    ∧ (∃ (s : State) (k : Nat), s.pwrLive = true ∧ s.cc.length = 6 ∧ k ≤ 1 ∧ (s.chn k).runs .drp = true ∧ s.ccDue k .drp = false)
    ∧ (∃ (s : State) (k : Nat) (m : PdMsg), s.pwrLive = true ∧ s.cc.length = 6 ∧ k ≤ 5 ∧ (s.chn k).state = 4 ∧ s.romNow = false
        ∧ m.kind = .getSourceCap ∧ m.sop = 1 ∧ (s.chn k).queued = none ∧ (s.chn k).src = true ∧ (s.chn k).rp = 2 ∧ (s.chn k).rpBase = 2
        ∧ (s.chn k).sent = none ∧ (s.chn k).epr = false ∧ nth (s.chn k).rxIds 1 none ≠ some (pdId m))
    ∧ (∃ (s : State) (k : Nat) (m : PdMsg), s.pwrLive = true ∧ s.cc.length = 6 ∧ k ≤ 5 ∧ (s.chn k).attached = true ∧ s.romNow = false
        ∧ m.kind = .other ∧ m.sop = 1 ∧ (s.chn k).queued = none ∧ (s.chn k).src = false ∧ (s.chn k).queue.length < 16
        ∧ nth (s.chn k).rxIds 1 none ≠ some (pdId m))
    ∧ (∃ (s : State) (k : Nat) (m : PdMsg), s.pwrLive = true ∧ s.cc.length = 6 ∧ k ≤ 5 ∧ (s.chn k).attached = true ∧ s.romNow = false
        ∧ m.kind ≠ .goodCrc ∧ m.kind ≠ .softReset ∧ nth (s.chn k).rxIds m.sop none = some (pdId m))
    ∧ (∃ (s : State) (k : Nat) (m : PdMsg) (o : PdOut), s.pwrLive = true ∧ s.cc.length = 6 ∧ k ≤ 5 ∧ (s.chn k).attached = true
        ∧ s.romNow = false ∧ m.kind = .goodCrc ∧ (s.chn k).sent = some o ∧ o.what = .none ∧ (s.chn k).outq = [])
    ∧ (∃ (s : State) (k : Nat) (o : PdOut), s.pwrLive = true ∧ s.cc.length = 6 ∧ (s.chn k).sent = some o ∧ o.resends < 2
        ∧ s.ccDue k .goodCrc = true)
    ∧ (∃ (s : State) (k : Nat), s.pwrLive = true ∧ s.cc.length = 6 ∧ s.ccDue k .goodCrc = false)
    ∧ (∃ (s : State) (k : Nat), s.pwrLive = true ∧ s.cc.length = 6
        ∧ ((s.chn k).queue.any (fun q => q.needs && s.passed q.tick (msTicks 10)) = true) ∧ s.romNow = false ∧ (s.chn k).sent = none)
    ∧ (∃ (s : State) (k : Nat), s.pwrLive = true ∧ s.cc.length = 6
        ∧ ((s.chn k).queue.any (fun q => q.needs && s.passed q.tick (msTicks 10)) = false))
    ∧ (∃ (s : State) (k : Nat) (o : PdOut), s.pwrLive = true ∧ s.cc.length = 6 ∧ (s.chn k).queued = some o ∧ o.what = .none ∧ o.sop = 0
        ∧ s.romNow = false ∧ (s.chn k).sent = none ∧ s.ccDue k .sinkTx = true)
    ∧ (∃ (s : State) (k : Nat), s.pwrLive = true ∧ s.cc.length = 6 ∧ s.ccDue k .sinkTx = false)
    ∧ (∃ (s : State) (k : Nat), s.pwrLive = true ∧ s.cc.length = 6 ∧ (s.chn k).asked = some 2 ∧ s.lcSilent = true ∧ s.romNow = false
        ∧ (s.chn k).sent = none)
    ∧ (∃ (s : State) (k : Nat), s.pwrLive = true ∧ s.cc.length = 6 ∧ s.ccDue k .ask = false ∧ s.lcSilent = false)
    ∧ (∃ (s : State) (k : Nat), s.pwrLive = true ∧ s.cc.length = 6 ∧ (s.chn k).swap = none ∧ (s.chn k).src = true ∧ (s.chn k).moving = true
        ∧ (s.vsw k).state ≠ 3 ∧ s.ccDue k .srcTransition = true)
    ∧ (∃ (s : State) (k : Nat), s.pwrLive = true ∧ s.cc.length = 6 ∧ s.ccDue k .srcTransition = false)
    ∧ (∃ (s : State) (k : Nat) (p : Word) (l : List Word), s.pwrLive = true ∧ s.cc.length = 6 ∧ (s.chn k).state = 5
        ∧ (s.chn k).waiting = .none ∧ (s.chn k).moving = false ∧ (s.chn k).farCaps = p :: l ∧ s.romNow = false ∧ (s.chn k).sent = none
        ∧ (s.chn k).runs .snkRequestWait = true ∧ (s.ccDue k .snkRequestWait = true ∨ s.lcSilent = true))
    ∧ (∃ (s : State) (k : Nat), s.pwrLive = true ∧ s.cc.length = 6 ∧ s.ccDue k .snkRequestWait = false ∧ s.lcSilent = false)
    ∧ (∃ (s : State) (k : Nat), s.pwrLive = true ∧ s.cc.length = 6 ∧ (s.chn k).state = 6 ∧ s.ccRole k = 1 ∧ s.ccDue k .errorRecovery = true)
    ∧ (∃ (s : State) (k : Nat), s.pwrLive = true ∧ s.cc.length = 6 ∧ s.ccDue k .errorRecovery = false)
    ∧ (∃ (s : State) (k : Nat), s.pwrLive = true ∧ s.cc.length = 6 ∧ (s.chn k).vconnOn = true)
    ∧ (∃ (s : State) (k : Nat), s.pwrLive = true ∧ s.cc.length = 6 ∧ (s.chn k).state = 5 ∧ (s.chn k).src = false ∧ (s.chn k).swap = none
        ∧ (s.chn k).moving = true ∧ s.ccDue k .psTransition = true)
    ∧ (∃ (s : State) (k : Nat), s.pwrLive = true ∧ s.cc.length = 6 ∧ s.ccDue k .psTransition = false)
    ∧ (∃ (s : State) (k : Nat), s.pwrLive = true ∧ s.cc.length = 6 ∧ ((s.chn k).state = 4 ∨ (s.chn k).state = 5))
    ∧ (∃ (s : State) (k : Nat), s.pwrLive = true ∧ s.cc.length = 6 ∧ (s.chn k).recovering = true ∧ (s.chn k).src = true
        ∧ s.ccDue k .srcRecover = true)
    ∧ (∃ (s : State) (k : Nat), s.pwrLive = true ∧ s.cc.length = 6 ∧ s.ccDue k .srcRecover = false)
    ∧ (∃ (s : State) (k : Nat), s.pwrLive = true ∧ s.cc.length = 6 ∧ (s.chn k).epr = true ∧ (s.chn k).state = 5 ∧ s.romNow = false
        ∧ s.ccDue k .eprKeepalive = true ∧ (s.chn k).sent = none)
    ∧ (∃ (s : State) (k : Nat), s.pwrLive = true ∧ s.cc.length = 6 ∧ s.ccDue k .eprKeepalive = false)
    ∧ (∃ (s : State) (k : Nat), s.pwrLive = true ∧ s.cc.length = 6 ∧ (s.chn k).epr = true ∧ (s.chn k).state = 4 ∧ s.ccDue k .eprTimeout = true)
    ∧ (∃ (s : State) (k : Nat), s.pwrLive = true ∧ s.cc.length = 6 ∧ s.ccDue k .eprTimeout = false)
    ∧ (∃ (s : State) (k : Nat), s.pwrLive = true ∧ s.cc.length = 6 ∧ (s.chn k).waiting = .request ∧ s.ccDue k .senderResponse = true)
    ∧ (∃ (s : State) (k : Nat), s.pwrLive = true ∧ s.cc.length = 6 ∧ s.ccDue k .senderResponse = false)
    ∧ (∃ (s : State) (k : Nat) (mode : Nat) (since : Tick) (job : Option (Via × Nat)), s.pwrLive = true ∧ s.cc.length = 6
        ∧ (s.chn k).entering = some (mode, since, job) ∧ s.ccDue k .enterRetry = true ∧ s.passed since (msTicks 2000) = false
        ∧ (s.chn k).amsWaits = false ∧ (s.chn k).sent = none ∧ s.romNow = false)
    ∧ (∃ (s : State) (k : Nat) (mode : Nat) (since : Tick), s.pwrLive = true ∧ s.cc.length = 6 ∧ (s.chn k).entering = some (mode, since, none)
        ∧ s.ccDue k .enterRetry = true ∧ s.passed since (msTicks 2000) = true)
    ∧ (∃ (s : State) (k : Nat), s.pwrLive = true ∧ s.cc.length = 6 ∧ s.ccDue k .enterRetry = false) :=
  ⟨⟨(ch (ready) 1 (fun c => {c with state := 1})), 1, 2, 1000, by decide +kernel⟩,
   ⟨(ch (ready) 1 (fun c => {c with state := 1})), 1, 3, 3, by decide +kernel⟩,
   ⟨(ch (ready) 5 (fun c => {c with state := 4, src := true})), 5, 1000, by decide +kernel⟩,
   ⟨(ch (ready) 5 (fun c => {c with state := 4, src := true})), 5, 0, by decide +kernel⟩,
   ⟨(ch (setc Fld.CC1_ROLE 2 ready) 1 (fun c => {c with state := 1})), 1, by decide +kernel⟩,
   ⟨(ch (setc Fld.CC1_ROLE 2 ready) 1 (fun c => {c with state := 1, timers := [(.drp, 5)]})), 1, by decide +kernel⟩,
   ⟨(ch (ready) 5 (fun c => {c with state := 4, src := true, rp := 2, rpBase := 2})), 5, ({pdm0 with sop := 1} : PdMsg), by decide +kernel⟩,
   ⟨(ch (ready) 5 (fun c => {c with state := 5})), 5, ({pdm0 with kind := .other, sop := 1} : PdMsg), by decide +kernel⟩,
   ⟨(ch (ready) 5 (fun c => {c with state := 5, rxIds := put c.rxIds 1 (some (pdId ({pdm0 with sop := 1} : PdMsg)))})), 5, ({pdm0 with sop := 1} : PdMsg), by decide +kernel⟩,
   ⟨(ch (ready) 5 (fun c => {c with state := 4, sent := some (⟨0,.accept,[],1,.none⟩ : PdOut)})), 5, ({pdm0 with kind := .goodCrc} : PdMsg), (⟨0,.accept,[],1,.none⟩ : PdOut), by decide +kernel⟩,
   ⟨(ch (ready) 5 (fun c => {c with sent := some (⟨0,.accept,[],1,.none⟩ : PdOut), timers := [(.goodCrc, 0)]})), 5, (⟨0,.accept,[],1,.none⟩ : PdOut), by decide +kernel⟩,
   ⟨(ch (ready) 5 (fun c => {c with timers := [(.goodCrc, 7)]})), 5, by decide +kernel⟩,
   ⟨(ch ({ready with time.tick := 1000000000}) 5 (fun c => {c with queue := [⟨0,0,0,[],true⟩]})), 5, by decide +kernel⟩,
   ⟨(ch (ready) 5 (fun c => {c with queue := [⟨0,0,0,[],true⟩]})), 5, by decide +kernel⟩,
   ⟨(ch (ready) 5 (fun c => {c with queued := some (⟨0,.accept,[],1,.none⟩ : PdOut), timers := [(.sinkTx, 0)]})), 5, (⟨0,.accept,[],1,.none⟩ : PdOut), by decide +kernel⟩,
   ⟨(ch (ready) 5 (fun c => {c with timers := [(.sinkTx, 7)]})), 5, by decide +kernel⟩,
   ⟨(ch ({ready with mbx.unatt := true}) 5 (fun c => {c with asked := some 2})), 5, by decide +kernel⟩,
   ⟨(ch ({ready with mbx.firstLocal := true}) 5 (fun c => {c with asked := some 2})), 5, by decide +kernel⟩,
   ⟨(ch (ready) 5 (fun c => {c with src := true, moving := true, nextMv := 5000, timers := [(.srcTransition, 0)]})), 5, by decide +kernel⟩,
   ⟨(ch (ready) 5 (fun c => {c with timers := [(.srcTransition, 7)]})), 5, by decide +kernel⟩,
   ⟨(ch (ready) 1 (fun c => {c with state := 5, farCaps := [5], timers := [(.snkRequestWait, 0)]})), 1, (5 : Word), ([] : List Word), by decide +kernel⟩,
   ⟨(ch ({ready with mbx.firstLocal := true}) 1 (fun c => {c with state := 5, timers := [(.snkRequestWait, 7)]})), 1, by decide +kernel⟩,
   ⟨(ch (setc Fld.CC1_ROLE 1 ready) 1 (fun c => {c with state := 6, timers := [(.errorRecovery, 0)]})), 1, by decide +kernel⟩,
   ⟨(ch (ready) 1 (fun c => {c with timers := [(.errorRecovery, 7)]})), 1, by decide +kernel⟩,
   ⟨(ch (ready) 5 (fun c => {c with vconnOn := true})), 5, by decide +kernel⟩,
   ⟨(ch (ready) 1 (fun c => {c with state := 5, moving := true, timers := [(.psTransition, 0)]})), 1, by decide +kernel⟩,
   ⟨(ch (ready) 1 (fun c => {c with timers := [(.psTransition, 7)]})), 1, by decide +kernel⟩,
   ⟨(ch (ready) 1 (fun c => {c with state := 4})), 1, by decide +kernel⟩,
   ⟨(ch (ready) 1 (fun c => {c with recovering := true, src := true, timers := [(.srcRecover, 0)]})), 1, by decide +kernel⟩,
   ⟨(ch (ready) 1 (fun c => {c with timers := [(.srcRecover, 7)]})), 1, by decide +kernel⟩,
   ⟨(ch (ready) 1 (fun c => {c with epr := true, state := 5, timers := [(.eprKeepalive, 0)]})), 1, by decide +kernel⟩,
   ⟨(ch (ready) 1 (fun c => {c with timers := [(.eprKeepalive, 7)]})), 1, by decide +kernel⟩,
   ⟨(ch (ready) 1 (fun c => {c with epr := true, state := 4, timers := [(.eprTimeout, 0)]})), 1, by decide +kernel⟩,
   ⟨(ch (ready) 1 (fun c => {c with timers := [(.eprTimeout, 7)]})), 1, by decide +kernel⟩,
   ⟨(ch (ready) 1 (fun c => {c with waiting := .request, timers := [(.senderResponse, 0)]})), 1, by decide +kernel⟩,
   ⟨(ch (ready) 1 (fun c => {c with timers := [(.senderResponse, 7)]})), 1, by decide +kernel⟩,
   ⟨(ch (ready) 1 (fun c => {c with entering := some (1,0,none), timers := [(.enterRetry, 0)]})), 1, 1, (0 : Tick), (none : Option (Via × Nat)), by decide +kernel⟩,
   ⟨(ch ({ready with time.tick := 1000000000}) 1 (fun c => {c with entering := some (1,0,none), timers := [(.enterRetry, 0)]})), 1, 1, (0 : Tick), by decide +kernel⟩,
   ⟨(ch (ready) 1 (fun c => {c with timers := [(.enterRetry, 7)]})), 1, by decide +kernel⟩⟩

theorem test_met_UsbTunnels :
    (∃ (s : State) (tx : UsbTx) (x : UsbStage) (p : List Byte), s.awake = true ∧ s.isUsbHub = false ∧ s.isUsbUp = true ∧ 2 ≤ tx.root
        ∧ (s.remote tx.root).state = 2 ∧ tx.req = .other ∧ tx.setup = false ∧ tx.dirIn = true ∧ tx.kind = 1 ∧ tx.split = 0
        ∧ s.usb.stages = [x] ∧ stageIs tx.root tx.port tx.addr tx.ep tx.stream true x = true ∧ x.stall = false ∧ x.inPkts = [p]
        ∧ x.done = none ∧ s.cv Fld.USB_READAHEAD = 0)
    ∧ (∃ (s : State) (f : UsbFrame), 
      let upOpen := ∃ l e, s.usb.inLabel = some l ∧ (s.link s.usb.inPort).entry l = some e ∧ e.suspended = false
      s.awake = true ∧ s.isUsbHub = true ∧ 1 ≤ f.port ∧ f.port ≤ 4 ∧ (s.usbPort f.port).power = true
        ∧ (s.usbPort f.port).resetting = false ∧ (s.usbPort f.port).kept = false ∧ f.epoch = epochOf s.usb.epochs f.port f.addr
        ∧ s.usb.hid = [] ∧ upOpen)
    ∧ (∃ (s : State) (f : UsbFrame), 
      let upOpen := ∃ l e, s.usb.inLabel = some l ∧ (s.link s.usb.inPort).entry l = some e ∧ e.suspended = false
      s.awake = true ∧ s.isUsbHub = true ∧ 1 ≤ f.port ∧ f.port ≤ 4 ∧ (s.usbPort f.port).kept = false
        ∧ f.epoch = epochOf s.usb.epochs f.port f.addr ∧ f.count = 0 ∧ upOpen)
    ∧ (∃ (s : State) (root : Nat) (f : UsbFrame), s.awake = true ∧ s.isUsbHub = false ∧ s.isUsbUp = true ∧ s.oldFrame root f = true)
    ∧ (∃ (s : State) (root : Nat) (f : UsbFrame) (x : UsbStage), s.awake = true ∧ s.isUsbUp = true ∧ s.oldFrame root f = false
        ∧ s.stageOf root f = some x ∧ x.deferred = false ∧ f.dirIn = false ∧ f.count = 2)
    ∧ (∃ (s : State) (f : UsbFrame) (iv : Nat), s.awake = true ∧ s.isUsbHub = true ∧ f.epoch = epochOf s.usb.epochs f.port f.addr
        ∧ s.lagged iv = false ∧ (total (s.usb.isoOut.map fun x => x.1.data.length) + f.data.length ≤ 65536))
    ∧ (∃ (s : State) (port : Nat) (addr : Nat) (ep : Nat) (f : UsbFrame) (iv : Nat), s.awake = true ∧ s.isUsbHub = true ∧ 1 ≤ port ∧ port ≤ 4
        ∧ (s.usbPort port).power = true ∧ s.usb.isoOut = [(f, iv)] ∧ f.port = port ∧ f.addr = addr ∧ f.ep = ep ∧ s.lagged iv = true)
    ∧ (∃ (s : State) (port : Nat), s.awake = true ∧ s.isUsbHub = true ∧ 1 ≤ port ∧ port ≤ 4 ∧ (s.usbPort port).power = true
        ∧ s.usb.absent = true ∧ s.usb.hid.length < s.cv Fld.HID_BUFFER_REPORTS)
    ∧ (∃ (s : State) (port : Nat), s.awake = true ∧ s.isUsbHub = true ∧ 1 ≤ port ∧ port ≤ 4 ∧ (s.usbPort port).power = true
        ∧ s.usb.absent = true ∧ s.cv Fld.HID_BUFFER_REPORTS ≤ s.usb.hid.length)
    ∧ (∃ (s : State), s.awake = true)
    ∧ (∃ (s : State) (k : Nat) (f : UsbFrame), s.awake = true ∧ s.isUsbHub = true ∧ f.port = k ∧ 1 ≤ k ∧ k ≤ 4 ∧ f.data = [ctlSuspend])
    ∧ (∃ (s : State) (k : Nat) (f : UsbFrame), s.awake = true ∧ s.isUsbHub = true ∧ f.port = k ∧ 1 ≤ k ∧ k ≤ 4 ∧ f.data = [ctlReset]
        ∧ (s.usbPort k).absorb = true ∧ (s.usbPort k).kept = true ∧ s.usb.ports.length = 4)
    ∧ (∃ (s : State) (k : Nat), s.awake = true ∧ 1 ≤ k ∧ k ≤ 4 ∧ (s.usbPort k).resetting = true ∧ (k ≠ 3 ∨ s.port3Taken = false))
    ∧ (∃ (s : State) (k : Nat) (root : Nat) (f : UsbFrame), s.awake = true ∧ s.isUsbUp = true ∧ 2 ≤ (s.remote root).state ∧ f.port = k ∧ 1 ≤ k
        ∧ k ≤ 4 ∧ f.data = [3, 1, 2] ∧ (nth (s.remote root).ports (k - 1) (0, 0, 0)).1 = 1)
    ∧ (∃ (s : State), s.awake = true ∧ s.isUsbHub = true ∧ s.cv Fld.KEEPALIVE_ENABLE = 1 ∧ s.usb.absent = false ∧ s.usb.expired = false)
    ∧ (∃ (s : State) (port : Nat), s.awake = true ∧ s.isUsbUp = true ∧ port ≠ 0 ∧ s.usb.upstream = 4 ∧ s.usb.hostResume = false
        ∧ s.usb.waking = false)
    ∧ (∃ (s : State) (k : Nat), s.awake = true ∧ s.isUsbHub = true ∧ s.usb.wakeOn = true ∧ 1 ≤ k ∧ k ≤ 4 ∧ (s.usbPort k).suspended = true
        ∧ (s.usbPort k).resuming = none ∧ s.usb.busState ≠ 0)
    ∧ (∃ (s : State) (k : Nat) (t0 : Tick), s.awake = true ∧ 1 ≤ k ∧ k ≤ 4 ∧ (s.usbPort k).resuming = some t0
        ∧ s.passed t0 (msTicks 20) = true ∧ s.usb.running = true)
    ∧ (∃ (s : State) (k : Nat) (t0 : Tick), s.awake = true ∧ (s.usbPort k).resuming = some t0 ∧ s.passed t0 (msTicks 20) = false)
    ∧ (∃ (s : State), s.awake = true ∧ s.isUsbUp = false ∧ s.isUsbHub = false ∧ s.usb.upstream ≠ 4)
    ∧ (∃ (s : State) (k : Nat), s.awake = true ∧ s.usb.absent = true ∧ 1 ≤ k ∧ k ≤ 4 ∧ (s.usbPort k).hid = false ∧ (s.usbPort k).power = true
        ∧ (s.usbPort k).suspended = false ∧ s.cv Fld.KEEPALIVE_IDLE_SUSPEND_MS ≠ 0
        ∧ s.passed (s.usbPort k).trafficAt (msTicks (s.cv Fld.KEEPALIVE_IDLE_SUSPEND_MS)) = true)
    ∧ (∃ (s : State) (k : Nat), s.awake = true ∧ s.passed (s.usbPort k).trafficAt (msTicks (s.cv Fld.KEEPALIVE_IDLE_SUSPEND_MS)) = false)
    ∧ (∃ (s : State), s.awake = true ∧ s.usb.absent = true ∧ s.cv Fld.KEEPALIVE_S ≠ 0
        ∧ s.passed s.usb.absentAt (secTicks (s.cv Fld.KEEPALIVE_S)) = true)
    ∧ (∃ (s : State), s.awake = true ∧ s.passed s.usb.absentAt (secTicks (s.cv Fld.KEEPALIVE_S)) = false) :=
  ⟨⟨(setc Fld.USB_READAHEAD 0 { usbUp with usb.stages := [ustage0], usb.remotes := [{UsbRemote.init with state := 2}] } : State), utx0, ustage0, ([1,2] : List Byte), by decide +kernel⟩,
   ⟨hubOpen, uframe0, by decide +kernel, by decide +kernel, by decide +kernel, by decide +kernel, by decide +kernel, by decide +kernel, by decide +kernel, by decide +kernel, by decide +kernel, ⟨16, entry0, by decide +kernel⟩⟩,
   ⟨hubOpen, uframe0, by decide +kernel, by decide +kernel, by decide +kernel, by decide +kernel, by decide +kernel, by decide +kernel, by decide +kernel, ⟨16, entry0, by decide +kernel⟩⟩,
   ⟨usbUp, 2, ({uframe0 with epoch := 1} : UsbFrame), by decide +kernel⟩,
   ⟨({ usbUp with usb.stages := [({ustage0 with dirIn := false, inPkts := []} : UsbStage)], usb.remotes := [{UsbRemote.init with state := 2}] } : State), 2, ({uframe0 with dirIn := false, port := 1, count := 2} : UsbFrame), ({ustage0 with dirIn := false, inPkts := []} : UsbStage), by decide +kernel⟩,
   ⟨usbHub, uframe0, 0, by decide +kernel⟩,
   ⟨({up' usbLate 4 (fun x => {x with power := true}) with usb.isoOut := [(uframe0, 5)]} : State), 4, 3, 1, uframe0, 5, by decide +kernel⟩,
   ⟨({up' usbHub 4 (fun x => {x with power := true}) with usb.absent := true} : State), 4, by decide +kernel⟩,
   ⟨({up' (setc Fld.HID_BUFFER_REPORTS 1 usbHub) 4 (fun x => {x with power := true, hid := true}) with usb.absent := true, usb.hid := [⟨1,1,1,0,[]⟩]} : State), 4, by decide +kernel⟩,
   ⟨ready, by decide +kernel⟩,
   ⟨usbHub, 4, ({uframe0 with data := [ctlSuspend]} : UsbFrame), by decide +kernel⟩,
   ⟨(up' usbHub 4 (fun x => {x with absorb := true, kept := true})), 4, ({uframe0 with data := [ctlReset]} : UsbFrame), by decide +kernel⟩,
   ⟨(up' usbHub 4 (fun x => {x with resetting := true})), 4, by decide +kernel⟩,
   ⟨({ usbUp with usb.remotes := [{UsbRemote.init with state := 2, ports := [(1,0,0),(1,0,0),(1,0,0),(1,0,0)]}]} : State), 4, 2, ({uframe0 with data := [3,1,2]} : UsbFrame), by decide +kernel⟩,
   ⟨usbHub, by decide +kernel⟩,
   ⟨({usbUp with usb.upstream := 4} : State), 1, by decide +kernel⟩,
   ⟨({ up' usbHub 4 (fun x => {x with suspended := true}) with usb.wakeOn := true, usb.busState := 3} : State), 4, by decide +kernel⟩,
   ⟨({ up' usbLate 4 (fun x => {x with resuming := some 0}) with usb.running := true} : State), 4, (0 : Tick), by decide +kernel⟩,
   ⟨({ up' usbHub 4 (fun x => {x with resuming := some 0}) with usb.running := true} : State), 4, (0 : Tick), by decide +kernel⟩,
   ⟨ready, by decide +kernel⟩,
   ⟨({up' usbLate 4 (fun x => {x with power := true}) with usb.absent := true} : State), 4, by decide +kernel⟩,
   ⟨({up' usbHub 4 (fun x => {x with power := true}) with usb.absent := true} : State), 4, by decide +kernel⟩,
   ⟨({usbLate with usb.absent := true} : State), by decide +kernel⟩,
   ⟨({usbHub with usb.absent := true} : State), by decide +kernel⟩⟩

theorem test_met_NetworkTraffic :
    (∃ (s : State) (mac : Nat) (wire : List Byte), s.netLive = true ∧ mac ≤ 1 ∧ (s.mac mac).up = true ∧ s.netPort = true ∧ wire.length < 64)
    ∧ (∃ (s : State) (mac : Nat) (wire : List Byte), s.netLive = true ∧ mac ≤ 1 ∧ (s.mac mac).up = true ∧ s.netPort = true ∧ 64 ≤ wire.length
        ∧ (s.mac mac).maxFrame < wire.length)
    ∧ (∃ (s : State) (mac : Nat) (wire : List Byte), s.netLive = true ∧ mac ≤ 1 ∧ (s.mac mac).up = true ∧ s.netPort = true ∧ 64 ≤ wire.length
        ∧ wire.length ≤ (s.mac mac).maxFrame ∧ wire.drop (wire.length - 4) ≠ fcsBytes (wire.take (wire.length - 4)))
    ∧ (∃ (s : State) (mac : Nat) (frame : List Byte), s.netLive = true ∧ mac ≤ 1 ∧ (s.mac mac).up = true ∧ s.netPort = true
        ∧ 60 ≤ frame.length ∧ frame.length + 4 ≤ (s.mac mac).maxFrame ∧ beAt 12 2 frame = 0x8808 ∧ beAt 14 2 frame = 1
        ∧ beAt 16 2 frame ≠ 0)
    ∧ (∃ (s : State) (mac : Nat) (frame : List Byte), s.netLive = true ∧ mac = s.net.boundMac ∧ mac ≤ 1 ∧ (s.mac mac).up = true
        ∧ s.netPort = true ∧ 60 ≤ frame.length ∧ frame.length + 4 ≤ (s.mac mac).maxFrame ∧ frame.length ≤ 262144
        ∧ beAt 12 2 frame ≠ 0x8808 ∧ (s.mac mac).rxBuf = [] ∧ s.net.bound = true ∧ s.net.suspended = false ∧ s.net.absent = false
        ∧ s.net.flows = [] ∧ s.net.rules = [] ∧ s.net.meters = [] ∧ s.net.labels = [] ∧ s.cv Fld.NET_PAUSE = 0
        ∧ s.classReady 9 2 = true ∧ s.net.macs.length = 2)
    ∧ (∃ (s : State) (mac : Nat), s.netLive = true ∧ mac ≤ 1 ∧ (s.mac mac).up = true)
    ∧ (∃ (s : State) (q : Nat) (n : Nat), s.awake = true ∧ s.netFunction = true ∧ s.net.enable = true ∧ s.net.d3hot = false ∧ q < s.net.queues
        ∧ n ≠ 0 ∧ n ≤ (s.txRing q).filled ∧ s.net.bound = false ∧ s.classReady 9 2 = true)
    ∧ (∃ (s : State) (q : Nat) (n : Nat), s.awake = true
        ∧ (s.net.enable = false ∨ s.net.d3hot = true ∨ (s.txRing q).filled < n ∨ s.classReady 9 2 = false))
    ∧ (∃ (s : State) (q : Nat), s.awake = true ∧ q < 8 ∧ s.netFunction = true)
    ∧ (∃ (s : State), s.awake = true ∧ s.netFunction = true)
    ∧ (∃ (s : State), s.awake = true ∧ s.netFunction = true ∧ s.net.enable = true
        ∧ (s.net.wbAt = 0 ∨ s.net.wbAt + 8 * s.cv Fld.NET_WB_US ≤ s.slotCount) ∧ s.net.tx.length = 8 ∧ s.net.rx.length = 8)
    ∧ (∃ (s : State), s.awake = true ∧ s.net.wbAt ≠ 0 ∧ s.slotCount < s.net.wbAt + 8 * s.cv Fld.NET_WB_US)
    ∧ (∃ (s : State) (mac : Nat), s.awake = true ∧ s.net.bound = true ∧ s.netPort = true ∧ (s.mac (mac % 2)).up = true
        ∧ (∀ x ∈ s.net.labels, x.2 ≠ 8) ∧ s.macHeld (mac % 2) = false ∧ (s.mac (mac % 2)).txBuf = [])
    ∧ (∃ (s : State) (mac : Nat), s.awake = true ∧ s.net.bound = true ∧ s.netPort = true ∧ (s.mac (mac % 2)).up = true
        ∧ (∀ x ∈ s.net.labels, x.2 ≠ 8) ∧ s.macHeld (mac % 2) = true)
    ∧ (∃ (s : State), s.awake = true ∧ s.netPort = true ∧ s.net.bound = true)
    ∧ (∃ (s : State), s.awake = true ∧ s.netFunction = true ∧ s.net.pmeStatus = false ∧ s.net.pmeEn = true ∧ (s.pcLink 0).state = 2)
    ∧ (∃ (s : State), s.awake = true ∧ s.net.pmeStatus = true)
    ∧ (∃ (s : State), s.awake = true ∧ s.netFunction = true ∧ s.net.bound = true)
    ∧ (∃ (s : State), s.awake = true)
    ∧ (∃ (s : State), s.awake = true ∧ s.net.wakePending = true ∧ msTicks (s.cv Fld.NET_WAKE_BUFFER_MS) ≤ tickDiff s.time.tick s.net.wakeAt)
    ∧ (∃ (s : State), s.awake = true ∧ tickDiff s.time.tick s.net.wakeAt < msTicks (s.cv Fld.NET_WAKE_BUFFER_MS)) :=
  ⟨⟨netEnd, 0, (zeros 20), by decide +kernel⟩,
   ⟨netEnd, 0, (zeros 1600), by decide +kernel⟩,
   ⟨netEnd, 0, (List.replicate 100 1 : List Byte), by decide +kernel⟩,
   ⟨netEnd, 0, pauseFrame, by decide +kernel⟩,
   ⟨(setc Fld.NET_PAUSE 0 netEndB), 0, (zeros 100), by decide +kernel⟩,
   ⟨netEnd, 0, by decide +kernel⟩,
   ⟨({netFn with net.enable := true, net.tx := [{NetRing.init with size := 64, tail := 5}], net.d3hot := false, net.queues := 1} : State), 0, 2, by decide +kernel⟩,
   ⟨({netFn with net.enable := false} : State), 0, 2, by decide +kernel⟩,
   ⟨netFn, 3, by decide +kernel⟩,
   ⟨netFn, by decide +kernel⟩,
   ⟨({netFn with net.enable := true, net.tx := List.replicate 8 {NetRing.init with size := 64, head := 3}} : State), by decide +kernel⟩,
   ⟨({netFn with net.enable := true, net.wbAt := 5} : State), by decide +kernel⟩,
   ⟨netEndB, 0, by decide +kernel⟩,
   ⟨(netEndB.setMac 0 (fun m => {m with pauseEnd := some 9})), 0, by decide +kernel⟩,
   ⟨({ends [0,0,0,0,0,0,2] ready with net.bound := true} : State), by decide +kernel⟩,
   ⟨(({netFn with net.pmeEn := true} : State).setPcLink 0 (fun l => {l with state := 2})), by decide +kernel⟩,
   ⟨({ready with net.pmeStatus := true} : State), by decide +kernel⟩,
   ⟨({netFn with net.bound := true} : State), by decide +kernel⟩,
   ⟨({ready with time.tick := 32000 * 400, net.flows := [⟨5,0,zeros 42,0xFFFF,0,false,⟨0,0,0,0,false⟩,0,0⟩]} : State), by decide +kernel⟩,
   ⟨({ready with time.tick := 320000000, net.wakePending := true} : State), by decide +kernel⟩,
   ⟨ready, by decide +kernel⟩⟩

theorem test_met_NetCommands :
    (∃ (rq : Req) (s : State), Admitted Cmd.netShow 1 rq s ∧ arg rq 0 1 ≤ 1)
    ∧ (∃ (rq : Req) (s : State), Admitted Cmd.netBind 4 rq s ∧ s.jobRoom rq ∧ s.netFunction = true ∧ bitAt (arg rq 3 1) 0 = true
        ∧ s.net.bound = true)
    ∧ (∃ (rq : Req) (s : State), Admitted Cmd.netBind 4 rq s ∧ s.netFunction = false)
    ∧ (∃ (rq : Req) (s : State) (x : NetGroup), Admitted Cmd.netGroupSet 12 rq s ∧ s.jobRoom rq ∧ s.netFunction = true ∧ 1 ≤ arg rq 0 1
        ∧ arg rq 0 1 ≤ 7 ∧ bitAt (arg rq 1 1) 0 = true ∧ s.net.bound = true ∧ s.netGroup (arg rq 0 1) = some x)
    ∧ (∃ (rq : Req) (s : State), Admitted Cmd.netRuleSet 96 rq s ∧ arg rq 0 1 ≤ 253 ∧ fieldAt (arg rq 88 8) 62 2 ≠ 3)
    ∧ (∃ (rq : Req) (s : State), Admitted Cmd.netFlowSet 56 rq s ∧ (bitAt (arg rq 0 1) 0 = false ∧ fieldAt (arg rq 48 8) 62 2 ≠ 3
        ∧ s.bucket (flowBucket (slice 4 42 rq.payload)) = [] ∧ (s.net.flows.find? fun e => e.key == slice 4 42 rq.payload) = none))
    ∧ (∃ (rq : Req) (s : State), Admitted Cmd.netFlowSet 56 rq s ∧ (bitAt (arg rq 0 1) 0 = true
        ∧ (s.net.flows.find? fun e => e.key == slice 4 42 rq.payload) = none))
    ∧ (∃ (e : Flow) (rq : Req) (s : State), Admitted Cmd.netFlowShow 42 rq s
        ∧ ((s.net.flows.find? fun e => e.key == slice 0 42 rq.payload) = some e))
    ∧ (∃ (rq : Req) (s : State), Admitted Cmd.netMeterSet 12 rq s ∧ 1 ≤ arg rq 0 2 ∧ arg rq 0 2 ≤ 4095 ∧ 1 ≤ arg rq 4 4 ∧ arg rq 4 4 ≤ 25000
        ∧ 1518 ≤ arg rq 8 4 ∧ arg rq 8 4 ≤ 1048576)
    ∧ (∃ (rq : Req) (s : State), Admitted Cmd.netPresenceSet 4 rq s ∧ s.netPort = true ∧ arg rq 0 1 = 5 ∧ arg rq 2 2 = 0)
    ∧ (∃ (rq : Req) (s : State), Admitted Cmd.netPresenceShow 0 rq s)
    ∧ (∃ (rq : Req) (s : State), Admitted Cmd.netClear 1 rq s ∧ arg rq 0 1 ≤ 1) :=
  ⟨⟨(ask [1]), ready, admitted_of (by decide +kernel), by decide +kernel⟩,
   ⟨(ask [0,0,0,1]), ({netFn with net.bound := true} : State), admitted_of (by decide +kernel), by decide +kernel⟩,
   ⟨(ask [0,0,0,1]), ready, admitted_of (by decide +kernel), by decide +kernel⟩,
   ⟨(ask [2,1,0,0,0,0,0,0,0,0,0,0]), ({netFn with net.bound := true, net.groups := [(⟨2,none,true,0,none⟩ : NetGroup)]} : State), (⟨2,none,true,0,none⟩ : NetGroup), admitted_of (by decide +kernel), by decide +kernel⟩,
   ⟨(ask ([3,0,0,0] ++ zeros 92)), ready, admitted_of (by decide +kernel), by decide +kernel⟩,
   ⟨(ask ([0,0,0,0] ++ zeros 52)), ready, admitted_of (by decide +kernel), by decide +kernel⟩,
   ⟨(ask ([1,0,0,0] ++ zeros 52)), ready, admitted_of (by decide +kernel), by decide +kernel⟩,
   ⟨(⟨5,0,zeros 42,0xFFFF,0,false,⟨0,0,0,0,false⟩,0,0⟩ : Flow), (ask (zeros 42)), ({ready with net.flows := [(⟨5,0,zeros 42,0xFFFF,0,false,⟨0,0,0,0,false⟩,0,0⟩ : Flow)]} : State), admitted_of (by decide +kernel), by decide +kernel⟩,
   ⟨(ask [5,0,0,0,100,0,0,0,0,8,0,0]), ready, admitted_of (by decide +kernel), by decide +kernel⟩,
   ⟨(ask [5,0,0,0]), (ends [0,0,0,0,0,0,2] ready), admitted_of (by decide +kernel), by decide +kernel⟩,
   ⟨(ask []), ready, admitted_of (by decide +kernel)⟩,
   ⟨(ask [1]), ready, admitted_of (by decide +kernel), by decide +kernel⟩⟩

theorem test_met_SidebandBridge :
    (∃ (s : State) (r : SbRoute) (x : SbXfer), s.awake = true ∧ s.sb.txs = [] ∧ r.hops = 0 ∧ r.dstKind = 5 ∧ x.data = [] ∧ x.reads = 2
        ∧ x.lock = 0 ∧ s.sbLockOn 5 r.dstIf = none)
    ∧ (∃ (s : State) (port : Nat) (x : SbTx) (up : Nat) (n : Nat) (reply : List Byte), s.awake = true ∧ s.sb.txs = [x] ∧ s.sb.waits = []
        ∧ x.sentOn = some port ∧ x.origin = .frame up n ∧ reply ≠ [] ∧ leAt 0 1 reply ≠ 7)
    ∧ (∃ (s : State) (r : SbRoute), s.awake = true ∧ s.sb.txs = [] ∧ r.hops = 0 ∧ s.sbLockOn r.dstKind r.dstIf = none)
    ∧ (∃ (s : State) (port : Nat) (r : SbRoute) (h : SbHolder) (l : SbLock), s.awake = true ∧ s.sb.txs = [] ∧ r.hops = 0
        ∧ s.sbLockOn r.dstKind r.dstIf = some l ∧ sbOlder (s.sbHolder port h) l.holder = false)
    ∧ (∃ (s : State) (port : Nat) (w : SbWait) (up : Nat) (n : Nat), s.awake = true ∧ s.sb.waits = [w] ∧ s.sb.txs = [] ∧ w.sentOn = some port
        ∧ w.origin = .frame up n)
    ∧ (∃ (s : State) (l : SbLock), s.awake = true ∧ s.sb.passed = [] ∧ ((s.sb.locks.find? fun x => x.handle == l.handle) = some l)
        ∧ s.sb.waits = [] ∧ s.sb.txs = [])
    ∧ (∃ (s : State) (port : Nat) (other : Nat) (handle : Nat), s.awake = true ∧ s.sb.passed = [(handle, port, other)] ∧ s.linkUp other = true)
    ∧ (∃ (s : State) (h : SbHolder), s.awake = true ∧ s.sb.waits = [] ∧ s.sb.txs = [] ∧ s.topo.role = .hostside ∧ h.depth ≠ s.topo.depth)
    ∧ (∃ (s : State) (intf : Nat) (addr : Nat) (r : SbRoute), s.awake = true ∧ nth s.sbModes.sb.modes intf 0 = 4 ∧ s.sb.txs = []
        ∧ s.sbRoute 1 intf addr = some r ∧ r.hops = 0 ∧ r.dstKind = 5 ∧ r.writeOk = true ∧ s.sbLockOn 5 r.dstIf = none)
    ∧ (∃ (s : State) (intf : Nat) (addr : Nat), s.awake = true ∧ nth s.sbModes.sb.modes intf 0 = 4 ∧ s.sbRoute 1 intf addr = none)
    ∧ (∃ (s : State) (intf : Nat) (addr : Nat) (h : SbHold), s.awake = true
        ∧ ((s.sb.holds.find? fun h => h.intf == intf && h.addr == addr) = some h) ∧ h.since + 8 * s.cv Fld.SB_HOLD_US ≤ s.slotCount)
    ∧ (∃ (s : State) (intf : Nat) (addr : Nat) (h : SbHold), s.awake = true
        ∧ ((s.sb.holds.find? fun h => h.intf == intf && h.addr == addr) = some h) ∧ s.slotCount < h.since + 8 * s.cv Fld.SB_HOLD_US)
    ∧ (∃ (s : State) (x : SbTx), s.awake = true ∧ s.sb.txs = [x] ∧ x.running = true ∧ x.sentOn = none ∧ x.tries < 3)
    ∧ (∃ (s : State) (x : SbTx) (p : Nat) (n : Nat), s.awake = true ∧ s.sb.txs = [x] ∧ x.running = true ∧ x.sentOn = none ∧ s.sb.locks = []
        ∧ x.origin = .frame p n)
    ∧ (∃ (s : State), s.awake = true ∧ s.sb.txs = [])
    ∧ (∃ (s : State) (l : SbLock), s.awake = true ∧ ((s.sb.locks.find? fun x => x.handle == l.handle) = some l) ∧ s.sb.waits = []
        ∧ s.sb.txs = [] ∧ s.passed l.since (msTicks (s.cv Fld.SB_LOCK_MS)) = true)
    ∧ (∃ (s : State) (l : SbLock), s.awake = true ∧ ((s.sb.locks.find? fun x => x.handle == l.handle) = some l)
        ∧ s.passed l.since (msTicks (s.cv Fld.SB_LOCK_MS)) = false)
    ∧ (∃ (s : State) (i : Nat) (w : SbWait) (p : Nat) (n : Nat), s.awake = true ∧ s.sb.waits[i]? = some w ∧ w.sentOn = none
        ∧ w.origin = .frame p n ∧ s.passed w.since (msTicks (s.cv Fld.SB_LOCK_WAIT_MS)) = true)
    ∧ (∃ (s : State) (i : Nat) (w : SbWait), s.awake = true ∧ s.sb.waits[i]? = some w
        ∧ s.passed w.since (msTicks (s.cv Fld.SB_LOCK_WAIT_MS)) = false)
    ∧ (∃ (s : State) (port : Nat) (line : Nat), s.awake = true ∧ s.gen1Ports.contains port = true ∧ line < 8 ∧ s.cv Fld.SB_IRQ_EXPORT = 0)
    ∧ (∃ (s : State) (port : Nat), s.awake = true ∧ s.gen1Ports.contains port = false)
    ∧ (∃ (s : State) (source : Nat), s.awake = true ∧ source < 16 ∧ s.sb.gpioDir.getLsbD source = false ∧ s.gen1Ports = []
        ∧ (∀ m ∈ s.sb.irqMask, m &&& BitVec.ofNat 32 (2 ^ source) = 0))
    ∧ (∃ (s : State) (source : Nat), s.awake = true ∧ source < 16 ∧ s.sb.gpioDir.getLsbD source = true)
    ∧ (∃ (s : State) (source : Nat) (p : Nat), s.awake = true ∧ source < 16 ∧ s.sb.gpioDir.getLsbD source = false ∧ s.gen1Ports = [p]
        ∧ s.cv Fld.SB_IRQ_EXPORT = 2 ^ source ∧ s.sb.pending = 0 ∧ (∀ m ∈ s.sb.irqMask, m &&& BitVec.ofNat 32 (2 ^ source) = 0))
    ∧ (∃ (s : State) (fan : Nat), s.awake = true ∧ fan < 4 ∧ s.gen1Ports = [] ∧ (∀ m ∈ s.sb.irqMask, m &&& BitVec.ofNat 32 (2 ^ (16 + fan)) = 0))
    ∧ (∃ (s : State) (source : Nat) (m : Word), s.awake = true ∧ source < 16 ∧ s.sb.gpioDir.getLsbD source = false ∧ s.sb.irqMask = [m]
        ∧ m = BitVec.ofNat 32 (2 ^ source) ∧ s.sb.pending = 0 ∧ s.sb.irqTick ≠ some s.time.tick)
    ∧ (∃ (s : State) (fan : Nat), s.awake = true ∧ fan < 4 ∧ nth s.sb.fanLow fan false = false)
    ∧ (∃ (s : State) (fan : Nat), s.awake = true ∧ fan < 4 ∧ nth s.sb.fanLow fan false = true)
    ∧ (∃ (s : State) (i : Nat) (bytes : List Byte), s.awake = true ∧ i < 2 ∧ bytes ≠ []) :=
  ⟨⟨ready, rt, (⟨2,false,0,[]⟩ : SbXfer), by decide +kernel⟩,
   ⟨({ready with sb.txs := [(⟨9,(.frame 0 4 : SbOrigin),rtUp,⟨2,false,0,[]⟩,some 1,false,0⟩ : SbTx)]} : State), 1, (⟨9,(.frame 0 4 : SbOrigin),rtUp,⟨2,false,0,[]⟩,some 1,false,0⟩ : SbTx), 0, 4, ([0,0,0,0,5,6] : List Byte), by decide +kernel⟩,
   ⟨ready, rt, by decide +kernel⟩,
   ⟨({ready with sb.locks := [lock0]} : State), 1, rt, holder0, lock0, by decide +kernel⟩,
   ⟨({ready with sb.waits := [(⟨9,.frame 0 4,rtUp,holder0,some 1,true,0⟩ : SbWait)]} : State), 1, (⟨9,.frame 0 4,rtUp,holder0,some 1,true,0⟩ : SbWait), 0, 4, by decide +kernel⟩,
   ⟨({ready with sb.locks := [lock0]} : State), lock0, by decide +kernel⟩,
   ⟨(lk {ready with sb.passed := [(5,1,0)]} 0 (fun l => {l with state := 3})), 1, 0, 5, by decide +kernel⟩,
   ⟨({ready with sb.locks := [({lock0 with holder := {holder0 with chain := 1}} : SbLock)], topo.role := .hostside} : State), holder0, by decide +kernel⟩,
   ⟨(({(setc Fld.I2C1_MODE 4 ready) with sb.modes := [2,4,2,2], sb.routes := [some (⟨1,1,5,0,false,0,5,0,2,false,true,true⟩ : SbRoute)]} : State)), 1, 5, (⟨1,1,5,0,false,0,5,0,2,false,true,true⟩ : SbRoute), by decide +kernel⟩,
   ⟨(({(setc Fld.I2C1_MODE 4 ready) with sb.modes := [2,4,2,2]} : State)), 1, 5, by decide +kernel⟩,
   ⟨({ready with time.tick := 1000000000, sb.holds := [(⟨1,5,3,9,0⟩ : SbHold)]} : State), 1, 5, (⟨1,5,3,9,0⟩ : SbHold), by decide +kernel⟩,
   ⟨({ready with sb.holds := [(⟨1,5,3,9,0⟩ : SbHold)]} : State), 1, 5, (⟨1,5,3,9,0⟩ : SbHold), by decide +kernel⟩,
   ⟨({ready with sb.txs := [(⟨9,.frame 0 4,rt,⟨2,false,0,[]⟩,none,true,0⟩ : SbTx)]} : State), (⟨9,.frame 0 4,rt,⟨2,false,0,[]⟩,none,true,0⟩ : SbTx), by decide +kernel⟩,
   ⟨({ready with sb.txs := [(⟨9,.frame 0 4,rt,⟨2,false,0,[]⟩,none,true,0⟩ : SbTx)]} : State), (⟨9,.frame 0 4,rt,⟨2,false,0,[]⟩,none,true,0⟩ : SbTx), 0, 4, by decide +kernel⟩,
   ⟨ready, by decide +kernel⟩,
   ⟨({ready with time.tick := 1000000000, sb.locks := [lock0]} : State), lock0, by decide +kernel⟩,
   ⟨({ready with sb.locks := [lock0]} : State), lock0, by decide +kernel⟩,
   ⟨({ready with time.tick := 1000000000, sb.waits := [(⟨9,.frame 0 4,rt,holder0,none,false,0⟩ : SbWait)]} : State), 0, (⟨9,.frame 0 4,rt,holder0,none,false,0⟩ : SbWait), 0, 4, by decide +kernel⟩,
   ⟨({ready with sb.waits := [(⟨9,.frame 0 4,rt,holder0,none,false,0⟩ : SbWait)]} : State), 0, (⟨9,.frame 0 4,rt,holder0,none,false,0⟩ : SbWait), by decide +kernel⟩,
   ⟨(lk {ready with sb.pending := 0xFFFFFFFF} 1 (fun l => {l with state := 3, gen1 := true})), 1, 3, by decide +kernel⟩,
   ⟨ready, 1, by decide +kernel⟩,
   ⟨ready, 4, by decide +kernel, by decide +kernel, by decide +kernel, by decide +kernel, masks_clear (by decide +kernel)⟩,
   ⟨({ready with sb.gpioDir := 16} : State), 4, by decide +kernel⟩,
   ⟨(setc Fld.SB_IRQ_EXPORT 16 (lk ready 1 (fun l => {l with state := 3, gen1 := true}))), 4, 1, by decide +kernel, by decide +kernel, by decide +kernel, by decide +kernel, by decide +kernel, by decide +kernel, masks_clear (by decide +kernel)⟩,
   ⟨ready, 2, by decide +kernel, by decide +kernel, by decide +kernel, masks_clear (by decide +kernel)⟩,
   ⟨({ready with sb.irqMask := [16]} : State), 4, (16 : Word), by decide +kernel⟩,
   ⟨ready, 2, by decide +kernel⟩,
   ⟨({ready with sb.fanLow := [false,false,true,false]} : State), 2, by decide +kernel⟩,
   ⟨ready, 1, (zeros 2050), by decide +kernel⟩⟩

theorem test_met_SidebandCommands :
    (∃ (rq : Req) (s : State), Admitted Cmd.sbShow 0 rq s)
    ∧ (∃ (rq : Req) (s : State), Admitted Cmd.sbRouteSet 16 rq s ∧ arg rq 0 1 ≤ 63 ∧ bitAt (arg rq 8 8) 63 = false)
    ∧ (∃ (r : SbRoute) (rq : Req) (s : State), Admitted Cmd.sbRouteSet 16 rq s ∧ (arg rq 0 1 ≤ 63 ∧ routeOf (arg rq 8 8) = some r
        ∧ routeReserved r = false ∧ ∀ q ∈ s.sb.routes, q = none))
    ∧ (∃ (rq : Req) (s : State), Admitted Cmd.sbRouteShow 1 rq s ∧ arg rq 0 1 ≤ 63)
    ∧ (∃ (rq : Req) (s : State) (r : SbRoute), Admitted Cmd.sbXfer 12 rq s ∧ rq.payload.length = 12 ∧ arg rq 2 2 = 0 ∧ arg rq 4 2 = 2
        ∧ arg rq 8 4 = 0 ∧ s.sbRoute 0 0 (arg rq 0 2) = some r ∧ r.readOk = true ∧ r.hops = 0 ∧ r.dstKind = 5 ∧ s.sb.txs = []
        ∧ s.sbLockOn 5 r.dstIf = none)
    ∧ (∃ (rq : Req) (s : State) (r : SbRoute), Admitted Cmd.sbLock 2 rq s ∧ s.sbRoute 0 0 (arg rq 0 2) = some r ∧ r.hops = 0
        ∧ s.sbLockOn r.dstKind r.dstIf = none)
    ∧ (∃ (rq : Req) (s : State) (a : SbAge) (h : SbHeld) (l : SbLock), Admitted Cmd.sbUnlock 4 rq s
        ∧ s.sbAge (chanNum (viaChan rq.via)) rq.cred.toNat = some a ∧ ((a.held.find? fun h => h.handle == arg rq 0 4) = some h)
        ∧ h.port = none ∧ ((s.sb.locks.find? fun l => l.handle == arg rq 0 4) = some l) ∧ s.sb.waits = [] ∧ s.sb.txs = [])
    ∧ (∃ (rq : Req) (s : State), Admitted Cmd.sbUnlock 4 rq s ∧ s.sbAge (chanNum (viaChan rq.via)) rq.cred.toNat = none)
    ∧ (∃ (rq : Req) (s : State), Admitted Cmd.sbIrqRead 4 rq s)
    ∧ (∃ (rq : Req) (s : State), Admitted Cmd.sbIrqMask 4 rq s)
    ∧ (∃ (rq : Req) (s : State), Admitted Cmd.sbFanSet 2 rq s ∧ arg rq 0 1 ≤ 3) :=
  ⟨⟨(ask []), ready, admitted_of (by decide +kernel)⟩,
   ⟨(ask ([5] ++ zeros 15)), ready, admitted_of (by decide +kernel), by decide +kernel⟩,
   ⟨((routeOf (routeWord (some rt))).getD ⟨0,0,0,0,false,0,0,0,0,false,false,false⟩), (ask ([5] ++ zeros 7 ++ leBytes 8 (routeWord (some rt)))), ready, admitted_of (by decide +kernel), by decide +kernel⟩,
   ⟨(ask [5]), ready, admitted_of (by decide +kernel), by decide +kernel⟩,
   ⟨(ask [5,0,0,0,2,0,0,0,0,0,0,0]), ({ready with sb.routes := [some rt]} : State), rt, admitted_of (by decide +kernel), by decide +kernel⟩,
   ⟨(ask [5,0]), ({ready with sb.routes := [some rt]} : State), rt, admitted_of (by decide +kernel), by decide +kernel⟩,
   ⟨(ask [5,0,0,0]), ({ready with sb.locks := [(⟨5,5,0,holder0,.cmd .spi 1,false,0⟩ : SbLock)], sb.ages := [(⟨0,1,0,0,none,[(⟨5,none,0,0⟩ : SbHeld)]⟩ : SbAge)]} : State), (⟨0,1,0,0,none,[(⟨5,none,0,0⟩ : SbHeld)]⟩ : SbAge), (⟨5,none,0,0⟩ : SbHeld), (⟨5,5,0,holder0,.cmd .spi 1,false,0⟩ : SbLock), admitted_of (by decide +kernel), by decide +kernel⟩,
   ⟨(ask [5,0,0,0]), ready, admitted_of (by decide +kernel), by decide +kernel⟩,
   ⟨(ask [15,0,0,0]), ({ready with sb.pending := 255} : State), admitted_of (by decide +kernel)⟩,
   ⟨(ask [15,0,0,0]), ready, admitted_of (by decide +kernel)⟩,
   ⟨(ask [2,200]), ready, admitted_of (by decide +kernel), by decide +kernel⟩⟩

theorem test_met_SysCommands :
    (∃ (rq : Req) (s : State), Admitted Cmd.sysPing 0 rq s)
    ∧ (∃ (rq : Req) (s : State), Admitted Cmd.sysEventRead 1 rq s ∧ (∀ i, rq.via ≠ .gate i) ∧ 1 ≤ arg rq 0 1 ∧ arg rq 0 1 ≤ 63
        ∧ s.mbx.unatt = false)
    ∧ (∃ (rq : Req) (s : State), Admitted Cmd.sysEventRead 1 rq s ∧ (arg rq 0 1 = 0 ∨ 63 < arg rq 0 1))
    ∧ (∃ (rq : Req) (s : State), Admitted Cmd.sysEventMask 24 rq s ∧ (∀ i, rq.via ≠ .gate i))
    ∧ (∃ (rq : Req) (s : State) (j : Job) (rc : Nat) (data : List Byte), Admitted Cmd.sysCmdResult 2 rq s ∧ (∀ i, rq.via ≠ .gate i)
        ∧ (((s.chan (viaChan rq.via)).jobs.find? fun j => j.handle == arg rq 0 2) = some j) ∧ j.result = some (rc, data))
    ∧ (∃ (rq : Req) (s : State), Admitted Cmd.sysCmdResult 2 rq s ∧ ((∀ i, rq.via ≠ .gate i)
        ∧ ∃ j, ((s.chan (viaChan rq.via)).jobs.find? fun j => j.handle == arg rq 0 2) = some j ∧ j.result = none))
    ∧ (∃ (rq : Req) (s : State), Admitted Cmd.sysCmdResult 2 rq s ∧ ((∀ i, rq.via ≠ .gate i)
        ∧ ((s.chan (viaChan rq.via)).jobs.find? fun j => j.handle == arg rq 0 2) = none))
    ∧ (∃ (rq : Req) (s : State), Admitted Cmd.sysCredChallenge 0 rq s)
    ∧ (∃ (rq : Req) (s : State), Admitted Cmd.sysCredOpen 136 rq s ∧ arg rq 0 1 ≤ 3 ∧ arg rq 0 1 ≤ s.ceiling (viaChan rq.via)
        ∧ (s.chan (viaChan rq.via)).creds.length < 4)
    ∧ (∃ (rq : Req) (s : State), Admitted Cmd.sysCredOpen 136 rq s ∧ arg rq 0 1 ≤ 3 ∧ s.ceiling (viaChan rq.via) < arg rq 0 1)
    ∧ (∃ (rq : Req) (s : State), Admitted Cmd.sysCredClose 4 rq s ∧ ((∀ i, rq.via ≠ .gate i)
        ∧ ∃ k ∈ (s.chan (viaChan rq.via)).creds, k.handle = arg rq 0 4))
    ∧ (∃ (rq : Req) (s : State), Admitted Cmd.sysCredClose 4 rq s ∧ (∀ k ∈ (s.chan (viaChan rq.via)).creds, k.handle ≠ arg rq 0 4))
    ∧ (∃ (rq : Req) (s : State), Admitted Cmd.sysTopoShow 0 rq s)
    ∧ (∃ (rq : Req) (s : State), Admitted Cmd.sysTimeShow 0 rq s)
    ∧ (∃ (rq : Req) (s : State), Admitted Cmd.sysFaultShow 0 rq s)
    ∧ (∃ (rq : Req) (s : State), Admitted Cmd.sysFaultClear 0 rq s)
    ∧ (∃ (rq : Req) (s : State), Admitted Cmd.sysReset 1 rq s ∧ ((arg rq 0 1 = 1 ∨ arg rq 0 1 = 2) ∧ ∀ d, s.fault.deferred = some d → d.1 ≠ 1))
    ∧ (∃ (rq : Req) (s : State), Admitted Cmd.sysReset 1 rq s ∧ ((arg rq 0 1 = 1 ∨ arg rq 0 1 = 2) ∧ ∃ d, s.fault.deferred = some d ∧ d.1 = 1))
    ∧ (∃ (rq : Req) (s : State), Admitted Cmd.sysReset 1 rq s ∧ arg rq 0 1 = 0) :=
  ⟨⟨(ask []), ready, admitted_of (by decide +kernel)⟩,
   ⟨(ask [3]), ready, admitted_of (by decide +kernel), (by intro i h; cases h), by decide +kernel⟩,
   ⟨(ask [64]), ready, admitted_of (by decide +kernel), by decide +kernel⟩,
   ⟨(ask (List.replicate 24 5)), ready, admitted_of (by decide +kernel), (by intro i h; cases h)⟩,
   ⟨(ask [5,0]), ({ready with mbx.loc.jobs := [(⟨5,.spi,0x32,some (0,[1,2]),none,0⟩ : Job)]} : State), (⟨5,.spi,0x32,some (0,[1,2]),none,0⟩ : Job), 0, ([1,2] : List Byte), admitted_of (by decide +kernel), (by intro i h; cases h), by decide +kernel⟩,
   ⟨(ask [5,0]), ({ready with mbx.loc.jobs := [⟨5,.spi,0x32,none,none,0⟩]} : State), admitted_of (by decide +kernel), ⟨(by intro i h; cases h), ⟨(⟨5,.spi,0x32,none,none,0⟩ : Job), by decide +kernel⟩⟩⟩,
   ⟨(ask [5,0]), ready, admitted_of (by decide +kernel), ⟨(by intro i h; cases h), by decide +kernel⟩⟩,
   ⟨(ask []), ready, admitted_of (by decide +kernel)⟩,
   ⟨(ask ([2] ++ zeros 135)), ready, admitted_of (by decide +kernel), by decide +kernel⟩,
   ⟨(⟨.jtag,7,0,0,0,[2] ++ zeros 135⟩ : Req), ({ready with trust.lc := [7,7,7,0,0]} : State), admitted_of (by decide +kernel), by decide +kernel⟩,
   ⟨(ask [1,0,0,0]), ready, admitted_of (by decide +kernel), ⟨(by intro i h; cases h), by decide +kernel⟩⟩,
   ⟨(ask [2,0,0,0]), ready, admitted_of (by decide +kernel), by decide +kernel⟩,
   ⟨(ask []), ready, admitted_of (by decide +kernel)⟩,
   ⟨(ask []), ready, admitted_of (by decide +kernel)⟩,
   ⟨(ask []), ready, admitted_of (by decide +kernel)⟩,
   ⟨(ask []), ready, admitted_of (by decide +kernel)⟩,
   ⟨(ask [2]), ready, admitted_of (by decide +kernel), by decide +kernel⟩,
   ⟨(ask [2]), ({ready with fault.deferred := some (1,3,5)} : State), admitted_of (by decide +kernel), by decide +kernel⟩,
   ⟨(ask [0]), ready, admitted_of (by decide +kernel), by decide +kernel⟩⟩

theorem test_met_ConfigurationCommands :
    (∃ (rq : Req) (s : State), Admitted Cmd.cfgRecordStage 5 rq s ∧ (rq.payload.length ≤ 1024
        ∧ (arg rq 0 4 = 0 ∨ arg rq 0 4 = (s.chan (viaChan rq.via)).staged.length) ∧ arg rq 0 4 + (rq.payload.drop 4).length ≤ 65536))
    ∧ (∃ (rq : Req) (s : State), Admitted Cmd.cfgRecordStage 5 rq s ∧ arg rq 0 4 ≠ 0 ∧ arg rq 0 4 ≠ (s.chan (viaChan rq.via)).staged.length)
    ∧ (∃ (rq : Req) (s : State) (l : Nat), Admitted Cmd.cfgRecordApply 1 rq s ∧ arg rq 0 1 = 0 ∧ s.lifecycle ≠ lcScrapped
        ∧ chanLayer (viaChan rq.via) = some l ∧ (s.chan (viaChan rq.via)).staged ≠ []
        ∧ (s.applySet l (viaPort rq.via) (s.chan (viaChan rq.via)).staged).rc.bad = false)
    ∧ (∃ (rq : Req) (s : State), Admitted Cmd.cfgRecordApply 1 rq s ∧ arg rq 0 1 = 0 ∧ s.lifecycle ≠ lcScrapped
        ∧ (chanLayer (viaChan rq.via)).isSome = true ∧ (s.chan (viaChan rq.via)).staged = [])
    ∧ (∃ (rq : Req) (s : State), Admitted Cmd.cfgRecordApply 1 rq s ∧ s.storeDenied rq (arg rq 0 1) = true)
    ∧ (∃ (rq : Req) (s : State), Admitted Cmd.cfgRecordApply 1 rq s ∧ arg rq 0 1 = 1 ∧ s.storeDenied rq 1 = false ∧ s.lifecycle ≠ lcScrapped
        ∧ s.cfg.commit.isSome = true)
    ∧ (∃ (rq : Req) (s : State), Admitted Cmd.cfgRecordApply 1 rq s ∧ 1 < arg rq 0 1 ∧ s.lifecycle ≠ lcScrapped)
    ∧ (∃ (bs : List Byte) (rq : Req) (s : State), Admitted Cmd.cfgRecordShow 6 rq s ∧ (arg rq 2 1 ≤ 5
        ∧ (fieldTable.any fun f => f.ty == arg rq 0 2) = true
        ∧ fitEntries 1016 ((fieldsOf (arg rq 0 2) (arg rq 4 2)).filterMap fun f => (s.viewValue (arg rq 2 1) f).map fun v => entryBytes f.id v) = (bs, true)))
    ∧ (∃ (rq : Req) (s : State), Admitted Cmd.cfgReportShow 3 rq s ∧ 1 ≤ arg rq 2 1 ∧ arg rq 2 1 ≤ 63)
    ∧ (∃ (rq : Req) (s : State) (l : Nat), Admitted Cmd.cfgOverrideClear 2 rq s ∧ chanLayer (viaChan rq.via) = some l ∧ arg rq 0 2 = 0xFFFF)
    ∧ (∃ (rq : Req) (s : State), Admitted Cmd.cfgStoreCommit 0 rq s ∧ s.jobRoom rq ∧ s.cfg.commit = none)
    ∧ (∃ (rq : Req) (s : State), Admitted Cmd.cfgStoreCommit 0 rq s ∧ s.cfg.commit ≠ none)
    ∧ (∃ (s : State) (c : StoreCommit), s.awake = true ∧ s.cfg.commit = some c ∧ c.set.length ≤ 262128)
    ∧ (∃ (s : State) (c : StoreCommit), s.awake = true ∧ s.cfg.commit = some c ∧ s.upd.flash.cfg.length = 2 ∧ c.copy < 2)
    ∧ (∃ (rq : Req) (s : State), Admitted Cmd.cfgStoreShow 0 rq s) :=
  ⟨⟨(ask [0,0,0,0,7]), ready, admitted_of (by decide +kernel), by decide +kernel⟩,
   ⟨(ask [1,0,0,0,7]), ready, admitted_of (by decide +kernel), by decide +kernel⟩,
   ⟨(ask [0]), ({ready with mbx.loc.staged := leBytes 2 1 ++ leBytes 2 14 ++ leBytes 4 65536 ++ leBytes 2 0x10 ++ leBytes 4 1} : State), 0, admitted_of (by decide +kernel), by decide +kernel⟩,
   ⟨(ask [0]), ready, admitted_of (by decide +kernel), by decide +kernel⟩,
   ⟨(⟨.pcie,7,0,1,0,[1]⟩ : Req), ({ready with mbx.tun.creds := [⟨1,2,0,0⟩]} : State), admitted_of (by decide +kernel), by decide +kernel⟩,
   ⟨(ask [1]), ({ready with cfg.commit := some ⟨.spi,1,0,1,[]⟩} : State), admitted_of (by decide +kernel), by decide +kernel⟩,
   ⟨(ask [2]), ready, admitted_of (by decide +kernel), by decide +kernel⟩,
   ⟨((fitEntries 1016 ((fieldsOf (arg (ask [1,0,0,0,0,0]) 0 2) (arg (ask [1,0,0,0,0,0]) 4 2)).filterMap fun f => (ready.viewValue (arg (ask [1,0,0,0,0,0]) 2 1) f).map fun v => entryBytes f.id v)).1), (ask [1,0,0,0,0,0]), ready, admitted_of (by decide +kernel), by decide +kernel⟩,
   ⟨(ask [0,0,3]), ready, admitted_of (by decide +kernel), by decide +kernel⟩,
   ⟨(ask [255,255]), ready, 0, admitted_of (by decide +kernel), by decide +kernel⟩,
   ⟨(ask []), ready, admitted_of (by decide +kernel), by decide +kernel⟩,
   ⟨(ask []), ({ready with cfg.commit := some ⟨.spi,1,0,1,[]⟩} : State), admitted_of (by decide +kernel), by decide +kernel⟩,
   ⟨({ready with cfg.commit := some (⟨.spi,1,0,1,[1,2]⟩ : StoreCommit), mbx.loc.jobs := [⟨1,.spi,5,none,none,0⟩]} : State), (⟨.spi,1,0,1,[1,2]⟩ : StoreCommit), by decide +kernel⟩,
   ⟨({ready with cfg.commit := some (⟨.spi,1,0,1,[1,2]⟩ : StoreCommit), mbx.loc.jobs := [⟨1,.spi,5,none,none,0⟩]} : State), (⟨.spi,1,0,1,[1,2]⟩ : StoreCommit), by decide +kernel⟩,
   ⟨(ask []), ready, admitted_of (by decide +kernel)⟩⟩

theorem test_met_Transports :
    (∃ (s : State) (b : List Byte), s.powered = true ∧ s.spiOn = true ∧ leAt 0 1 b = 1 ∧ requestFrameOk b = true ∧ s.mbx.loc.stored = none
        ∧ s.fwRuns = true ∧ leAt 8 2 b + 16 = leAt 2 2 b ∧ (cmdRow? (leAt 4 2 b)).isSome = true)
    ∧ (∃ (s : State) (b : List Byte), s.powered = true ∧ s.spiOn = true ∧ leAt 0 1 b = 1 ∧ requestFrameOk b = false)
    ∧ (∃ (s : State), s.powered = true ∧ s.spiOn = true)
    ∧ (∃ (s : State), s.powered = true ∧ s.hibernates = false ∧ s.mbx.arm = true ∧ s.boot.stage = 2)
    ∧ (∃ (s : State), s.powered = true ∧ s.hibernates = false ∧ s.mbx.arm = true ∧ s.boot.stage ≤ 1 ∧ s.boot.mgtReset = false
        ∧ s.pwr.phase = 0 ∧ s.fault.thermal = false)
    ∧ (∃ (s : State), s.powered = true ∧ s.mbx.arm = false)
    ∧ (∃ (s : State), s.powered = true ∧ s.hibernates = false ∧ s.mbx.arm = true ∧ s.boot.stage = 2 ∧ s.boot.mgtReset = false)
    ∧ (∃ (s : State), s.powered = true)
    ∧ (∃ (s : State), s.powered = true ∧ s.i3cOn = true)
    ∧ (∃ (s : State), s.powered = true ∧ s.i3cOn = true ∧ s.mbx.i3cSel = none)
    ∧ (∃ (s : State), s.powered = true ∧ s.hibernates = false)
    ∧ (∃ (s : State) (off : Nat), s.awake = true ∧ s.function7 = true ∧ s.mbx.bar0Busy = false ∧ 0x1000 ≤ off ∧ off < 0x1410)
    ∧ (∃ (s : State), s.awake = true)
    ∧ (∃ (s : State) (b : List Byte), s.awake = true ∧ b = fitBytes 1040 s.mbx.bar0Req ∧ s.function7 = true ∧ s.mbx.bar0Busy = false
        ∧ s.mbx.tun.stored = none ∧ s.fwRuns = true ∧ leAt 4 2 b ≤ 1024 ∧ (cmdRow? (leAt 0 2 b)).isSome = true)
    ∧ (∃ (s : State), s.awake = true ∧ s.mbx.bar0Busy = true)
    ∧ (∃ (s : State), s.awake = true ∧ s.function7 = true)
    ∧ (∃ (s : State) (bs : List Byte), s.awake = true ∧ s.usbFnUp = true ∧ s.epHeld 0 = false ∧ 16 ≤ bs.length ∧ bs.length = 16 + leAt 4 2 bs
        ∧ bs.length ≤ 1040 ∧ s.mbx.tun.stored = none ∧ s.fwRuns = true ∧ (cmdRow? (leAt 0 2 bs)).isSome = true)
    ∧ (∃ (s : State) (r : Reply), s.awake = true ∧ s.usbFnUp = true ∧ s.mbx.usbReply = some r)
    ∧ (∃ (s : State), s.awake = true ∧ s.usbFnUp = true) :=
  ⟨⟨ready, (([1,0,16,0] ++ leBytes 2 Cmd.sysPing.opcode ++ zeros 14 : List Byte) ++ leBytes 2 (crc16 ([1,0,16,0] ++ leBytes 2 Cmd.sysPing.opcode ++ zeros 14 : List Byte))), by decide +kernel⟩,
   ⟨ready, ([1,0,16,0] ++ zeros 18 : List Byte), by decide +kernel⟩,
   ⟨ready, by decide +kernel⟩,
   ⟨({ready with mbx.arm := true} : State), by decide +kernel⟩,
   ⟨({ready with mbx.arm := true, boot.stage := 1} : State), by decide +kernel⟩,
   ⟨ready, by decide +kernel⟩,
   ⟨({ready with mbx.arm := true} : State), by decide +kernel⟩,
   ⟨ready, by decide +kernel⟩,
   ⟨({ready with pins.mbxSel := true} : State), by decide +kernel⟩,
   ⟨({ready with pins.mbxSel := true} : State), by decide +kernel⟩,
   ⟨ready, by decide +kernel⟩,
   ⟨(ends [0,0,0,0,1,0,0] ready), 0x1006, by decide +kernel⟩,
   ⟨ready, by decide +kernel⟩,
   ⟨({ends [0,0,0,0,1,0,0] ready with mbx.bar0Req := leBytes 2 Cmd.sysPing.opcode ++ zeros 14} : State), (fitBytes 1040 ({ends [0,0,0,0,1,0,0] ready with mbx.bar0Req := leBytes 2 Cmd.sysPing.opcode ++ zeros 14} : State).mbx.bar0Req), by decide +kernel⟩,
   ⟨({ready with mbx.bar0Busy := true} : State), by decide +kernel⟩,
   ⟨(ends [0,0,0,0,1,0,0] ready), by decide +kernel⟩,
   ⟨({usbUp with usb.upstream := 3} : State), (leBytes 2 Cmd.sysPing.opcode ++ zeros 14 : List Byte), by decide +kernel⟩,
   ⟨({usbUp with usb.upstream := 3, mbx.usbReply := some (⟨0,7,0,0,[]⟩ : Reply)} : State), (⟨0,7,0,0,[]⟩ : Reply), by decide +kernel⟩,
   ⟨({usbUp with usb.upstream := 3} : State), by decide +kernel⟩⟩

theorem test_met_ForwardingAndLapses :
    (∃ (s : State) (p : Nat) (bs : List Byte), s.awake = true ∧ p ≤ 1 ∧ s.linkUp p = true ∧ bs.length < 16)
    ∧ (∃ (s : State) (p : Nat) (bs : List Byte), s.awake = true ∧ p ≤ 1 ∧ s.linkUp p = true ∧ 16 ≤ bs.length ∧ bs.length ≤ 1040
        ∧ bs.length = 16 + leAt 4 2 bs ∧ s.mbx.peer.stored = none ∧ s.fwRuns = true ∧ (leAt 0 2 bs < 0x0A80 ∨ 0x0A86 < leAt 0 2 bs)
        ∧ (cmdRow? (leAt 0 2 bs)).isSome = true)
    ∧ (∃ (s : State) (f : Fwd) (up : Nat) (bs : List Byte), s.awake = true ∧ s.mbx.forwards = [f] ∧ f.sent = true ∧ f.origin = .relay up
        ∧ 16 ≤ bs.length ∧ BitVec.ofNat 16 (leAt 4 2 bs) = f.msg.rq.tag)
    ∧ (∃ (s : State) (f : Fwd) (c : Chan) (h : Nat), s.awake = true ∧ s.mbx.forwards = [f] ∧ f.sent = true ∧ f.origin = .own c h
        ∧ s.passed f.since (msTicks (s.cv Fld.FORWARD_TIMEOUT_MS)) = true
        ∧ (((s.chan (viaChan f.msg.rq.via)).jobs.find? fun j => j.handle == h && j.result == none).isSome = true))
    ∧ (∃ (s : State) (f : Fwd), s.awake = true ∧ s.mbx.forwards = [f] ∧ s.passed f.since (msTicks (s.cv Fld.FORWARD_TIMEOUT_MS)) = false)
    ∧ (∃ (s : State) (i : Nat) (w : Wait), s.awake = true ∧ s.mbx.waiting[i]? = some w ∧ s.fwRuns = true ∧ w.late = none
        ∧ s.passed w.tick (usTicks 900) = true)
    ∧ (∃ (s : State) (i : Nat) (w : Wait), s.awake = true ∧ s.mbx.waiting[i]? = some w
        ∧ (w.late.isSome = true ∨ s.passed w.tick (usTicks 900) = false))
    ∧ (∃ (s : State) (via : Via) (h : Nat) (j : Job) (rc : Nat) (data : List Byte), s.awake = true
        ∧ (((s.chan (viaChan via)).jobs.find? fun j => j.handle == h && j.result == none) = some j)
        ∧ (j.opcode < 0x1003 ∨ 0x1006 < j.opcode) ∧ j.opcode ≠ 0x1103 ∧ j.opcode ≠ 0x1106 ∧ j.plan = some (rc, data))
    ∧ (∃ (s : State), s.awake = true)
    ∧ (∃ (s : State) (c : Chan) (h : Nat) (k : Cred), s.awake = true ∧ (((s.chan c).creds.find? fun k => k.handle == h) = some k) ∧ c ≠ .loc
        ∧ s.sbAge (chanNum c) h = none ∧ s.passed ((s.chan c).lastUse k) (secTicks (s.cv Fld.CRED_IDLE_S)) = true)
    ∧ (∃ (s : State) (c : Chan) (h : Nat) (k : Cred), s.awake = true ∧ (((s.chan c).creds.find? fun k => k.handle == h) = some k)
        ∧ s.passed ((s.chan c).lastUse k) (secTicks (s.cv Fld.CRED_IDLE_S)) = false)
    ∧ (∃ (s : State), s.awake = true ∧ s.mbx.unatt = false ∧ s.asleep = false
        ∧ s.cv Fld.WATCHDOG_MULT * usTicks (s.cv Fld.ATTN_INTERVAL_US) ≤ s.mbx.sinceAttn)
    ∧ (∃ (s : State), s.awake = true ∧ (s.mbx.unatt = true ∨ s.mbx.sinceAttn < s.cv Fld.WATCHDOG_MULT * usTicks (s.cv Fld.ATTN_INTERVAL_US)))
    ∧ (∃ (s : State) (k : Nat) (v : Nat), s.awake = true ∧ nth s.topo.deferred k none = some v ∧ s.endBusy k = false)
    ∧ (∃ (s : State) (k : Nat), s.awake = true ∧ s.endBusy k = true) :=
  ⟨⟨(lk ready 1 (fun l => {l with state := 3})), 1, (zeros 10), by decide +kernel⟩,
   ⟨(lk ready 1 (fun l => {l with state := 3})), 1, (leBytes 2 Cmd.sysPing.opcode ++ zeros 14 : List Byte), by decide +kernel⟩,
   ⟨({ready with mbx.forwards := [(⟨.relay 0,1,⟨0x10,⟨.peer 0,7,0,0,0,[]⟩,0⟩,true,0⟩ : Fwd)]} : State), (⟨.relay 0,1,⟨0x10,⟨.peer 0,7,0,0,0,[]⟩,0⟩,true,0⟩ : Fwd), 0, (zeros 4 ++ leBytes 2 7 ++ zeros 10 : List Byte), by decide +kernel⟩,
   ⟨({late with mbx.forwards := [(⟨.own .loc 5,1,⟨0x10,⟨.spi,7,0,0,0,[]⟩,0⟩,true,0⟩ : Fwd)], mbx.loc.jobs := [⟨5,.spi,0x32,none,none,0⟩]} : State), (⟨.own .loc 5,1,⟨0x10,⟨.spi,7,0,0,0,[]⟩,0⟩,true,0⟩ : Fwd), Chan.loc, 5, by decide +kernel⟩,
   ⟨({ready with mbx.forwards := [(⟨.own .loc 5,1,⟨0x10,⟨.spi,7,0,0,0,[]⟩,0⟩,true,0⟩ : Fwd)], mbx.loc.jobs := [⟨5,.spi,0x32,none,none,0⟩]} : State), (⟨.own .loc 5,1,⟨0x10,⟨.spi,7,0,0,0,[]⟩,0⟩,true,0⟩ : Fwd), by decide +kernel⟩,
   ⟨({late with mbx.waiting := [(⟨⟨0x10,⟨.spi,7,0,0,0,[]⟩,0⟩,0,0,none⟩ : Wait)]} : State), 0, (⟨⟨0x10,⟨.spi,7,0,0,0,[]⟩,0⟩,0,0,none⟩ : Wait), by decide +kernel⟩,
   ⟨({late with mbx.waiting := [(⟨⟨0x10,⟨.spi,7,0,0,0,[]⟩,0⟩,0,0,some 5⟩ : Wait)]} : State), 0, (⟨⟨0x10,⟨.spi,7,0,0,0,[]⟩,0⟩,0,0,some 5⟩ : Wait), by decide +kernel⟩,
   ⟨({ready with mbx.loc.jobs := [(⟨5,.spi,0x32,none,some (0,[]),0⟩ : Job)]} : State), Via.spi, 5, (⟨5,.spi,0x32,none,some (0,[]),0⟩ : Job), 0, ([] : List Byte), by decide +kernel⟩,
   ⟨ready, by decide +kernel⟩,
   ⟨({late with mbx.tun.creds := [(⟨5,2,0,0⟩ : Cred)]} : State), Chan.tun, 5, (⟨5,2,0,0⟩ : Cred), by decide +kernel⟩,
   ⟨({ready with mbx.tun.creds := [(⟨5,2,0,0⟩ : Cred)]} : State), Chan.tun, 5, (⟨5,2,0,0⟩ : Cred), by decide +kernel⟩,
   ⟨({ready with mbx.sinceAttn := 1000000000} : State), by decide +kernel⟩,
   ⟨ready, by decide +kernel⟩,
   ⟨({ready with topo.deferred := [none,none,none,some 2,none,none,none]} : State), 3, 2, by decide +kernel⟩,
   ⟨(lk ready 1 (fun l => {l with table := [{entry0 with egress := 5}]})), 3, by decide +kernel⟩⟩

theorem test_met_Resets :
    (∃ (s : State), s.powered = true ∧ s.boot.stage = 2)
    ∧ (∃ (s : State), s.powered = true ∧ s.boot.stage ≤ 1 ∧ s.boot.mgtReset = false ∧ s.pwr.phase = 0 ∧ s.fault.thermal = false)
    ∧ (∃ (s : State) (cause : Nat) (due : Tick), s.powered = true ∧ s.awake = true ∧ s.boot.stage = 2
        ∧ s.fault.deferred = some (1, cause, due) ∧ reached s.time.tick due = true)
    ∧ (∃ (s : State) (kind : Nat) (cause : Nat) (due : Tick), s.powered = true ∧ s.fault.deferred = some (kind, cause, due)
        ∧ reached s.time.tick due = false)
    ∧ (∃ (s : State), s.powered = true ∧ s.awake = true)
    ∧ (∃ (s : State), s.powered = true ∧ s.fault.thermal = true ∧ secTicks 1 ≤ s.fault.coolFor)
    ∧ (∃ (s : State), s.powered = true ∧ s.fault.coolFor < secTicks 1)
    ∧ (∃ (s : State), s.powered = true ∧ s.fault.thermal = false ∧ 2 ≤ s.fault.hotFor)
    ∧ (∃ (s : State), s.powered = true ∧ s.fault.hotFor < 2)
    ∧ (∃ (s : State), s.powered = true ∧ s.boot.stage = 2 ∧ s.boot.mgtReset = false)
    ∧ (∃ (s : State), s.powered = true ∧ s.boot.mgtReset = true)
    ∧ (∃ (s : State) (cause : Nat) (due : Tick), s.powered = true ∧ s.awake = true ∧ s.boot.stage = 2 ∧ s.boot.mgtReset = false
        ∧ s.fault.deferred = some (2, cause, due) ∧ cause ≠ 3 ∧ reached s.time.tick due = true)
    ∧ (∃ (s : State) (i : Instr) (code : Nat), s.powered = true
      ∧ (i, code) ∈ [(Instr.lockstepFault, 1), (.mgtWatchdogTimeout, 2), (.mgtTrap, 6), (.managementCoreReset 5, 5)]
      ∧ s.awake = true ∧ s.boot.stage = 2 ∧ s.boot.mgtReset = false ∧ s.fwRuns = true ∧ 32 ≤ s.boot.sinceWdt ∧ s.fault.log = [])
    ∧ (∃ (s : State), s.powered = true ∧ s.boot.sinceWdt < 32) :=
  ⟨⟨ready, by decide +kernel⟩,
   ⟨({ready with boot.stage := 1} : State), by decide +kernel⟩,
   ⟨({ready with fault.deferred := some (1,0x32,0)} : State), 0x32, (0 : Tick), by decide +kernel⟩,
   ⟨({ready with fault.deferred := some (1,0x32,5)} : State), 1, 0x32, (5 : Tick), by decide +kernel⟩,
   ⟨ready, by decide +kernel⟩,
   ⟨({ready with fault.thermal := true, fault.coolFor := 1000000} : State), by decide +kernel⟩,
   ⟨ready, by decide +kernel⟩,
   ⟨({ready with fault.hotFor := 2} : State), by decide +kernel⟩,
   ⟨ready, by decide +kernel⟩,
   ⟨ready, by decide +kernel⟩,
   ⟨({ready with boot.mgtReset := true} : State), by decide +kernel⟩,
   ⟨({ready with fault.deferred := some (2,0x32,0)} : State), 0x32, (0 : Tick), by decide +kernel⟩,
   ⟨{ ready with boot.sinceWdt := 32 }, .mgtWatchdogTimeout, 2, by decide +kernel, List.mem_cons_of_mem _ (List.mem_cons_self ..),
    by decide +kernel⟩,
   ⟨ready, by decide +kernel⟩⟩

theorem test_met_SuppliesAndBoot :
    (∃ (s : State), s.pins.phase = 1 ∧ s.pins.attempts = 2)
    ∧ (∃ (s : State), s.pins.phase = 1 ∧ s.pins.attempts < 2)
    ∧ (∃ (s : State), s.pins.phase = 3)
    ∧ (∃ (s : State), s.powered = true ∧ s.fault.thermal = false ∧ s.asleep = false ∧ s.boot.mgtReset = true)
    ∧ (∃ (s : State), s.powered = true ∧ s.fault.thermal = false ∧ s.asleep = false ∧ s.boot.mgtReset = false ∧ s.boot.stage = 1)
    ∧ (∃ (s : State), s.awake = true ∧ s.mem.lpddr = .training ∧ s.fwRuns = false)
    ∧ (∃ (s : State), s.awake = true ∧ s.mem.lpddr = .training)
    ∧ (∃ (s : State), s.pwrLive = true ∧ s.fault.log = [])
    ∧ (∃ (s : State), s.pwrLive = true ∧ s.fault.log.length < 16 ∧ (2 ≤ s.recentFaults 0x0A 32000 (fun _ => true)))
    ∧ (∃ (s : State) (p : Nat), p ≤ 1 ∧ s.awake = true) :=
  ⟨⟨({ready with pins.phase := 1, pins.attempts := 2} : State), by decide +kernel⟩,
   ⟨({ready with pins.phase := 1} : State), by decide +kernel⟩,
   ⟨({ready with pins.phase := 3} : State), by decide +kernel⟩,
   ⟨({ready with boot.mgtReset := true} : State), by decide +kernel⟩,
   ⟨({ready with boot.stage := 1} : State), by decide +kernel⟩,
   ⟨({ready with boot.stage := 1, mem.lpddr := .training} : State), by decide +kernel⟩,
   ⟨({ready with mem.lpddr := .training} : State), by decide +kernel⟩,
   ⟨ready, by decide +kernel⟩,
   ⟨({ready with fault.log := [⟨0x0A,1,0,0,0,0⟩,⟨0x0A,1,0,0,0,0⟩]} : State), by decide +kernel⟩,
   ⟨ready, 1, by decide +kernel⟩⟩

theorem test_met_MemoryAccesses :
    (∃ (s : State) (m : Nat) (k : Nat) (a : Nat) (n : Nat), 
      let formed := fun (m k a n : Nat) => 9 < m ∧ m < 16 ∧ m ≠ 14 ∧ k ≤ 2 ∧ n ∈ [1, 2, 4, 8, 16, 32, 64] ∧ a % n = 0 ∧ a < 2 ^ 40
        ∧ (s.asleep = false ∨ m = 15)
      s.powered = true ∧ formed m k a n ∧ k ≠ 1 ∧ s.target a ≠ .none ∧ (s.acuCheck m k a false).allow = true ∧ s.mem.faults = []
        ∧ (s.acu m).buffer = [])
    ∧ (∃ (s : State) (m : Nat) (a : Nat) (n : Nat), 
      let formed := fun (m k a n : Nat) => 9 < m ∧ m < 16 ∧ m ≠ 14 ∧ k ≤ 2 ∧ n ∈ [1, 2, 4, 8, 16, 32, 64] ∧ a % n = 0 ∧ a < 2 ^ 40
        ∧ (s.asleep = false ∨ m = 15)
      s.powered = true ∧ formed m 1 a n ∧ s.target a ≠ .none ∧ s.target a ≠ .unit ∧ (s.acuCheck m 1 a false).allow = true)
    ∧ (∃ (s : State) (m : Nat) (k : Nat) (a : Nat) (n : Nat), 
      let formed := fun (m k a n : Nat) => 9 < m ∧ m < 16 ∧ m ≠ 14 ∧ k ≤ 2 ∧ n ∈ [1, 2, 4, 8, 16, 32, 64] ∧ a % n = 0 ∧ a < 2 ^ 40
        ∧ (s.asleep = false ∨ m = 15)
      s.powered = true ∧ formed m k a n ∧ s.target a ≠ .none ∧ (s.acuCheck m k a false).allow = false ∧ (s.acu m).buffer = [])
    ∧ (∃ (s : State) (a : Nat) (n : Nat) (c : Nat), s.powered = true ∧ n ∈ [1, 2, 4, 8, 16, 32, 64] ∧ a % n = 0 ∧ a < 2 ^ 40
        ∧ s.asleep = false ∧ s.pins.mgtHalted = false ∧ s.orderAt 0 a = (c, true) ∧ c ≠ 2 ∧ (s.acu 0).buffer.length < 8
        ∧ s.trust.acus.length = 16)
    ∧ (∃ (s : State) (m : Nat) (a : Nat) (n : Nat), 
      let formed := fun (m k a n : Nat) => 9 < m ∧ m < 16 ∧ m ≠ 14 ∧ k ≤ 2 ∧ n ∈ [1, 2, 4, 8, 16, 32, 64] ∧ a % n = 0 ∧ a < 2 ^ 40
        ∧ (s.asleep = false ∨ m = 15)
      s.powered = true ∧ formed m 1 a n ∧ sbBase ≤ a ∧ a < sbBase + 0x40000 ∧ s.target a = .sb)
    ∧ (∃ (s : State) (m : Nat) (k : Nat) (a : Nat) (n : Nat), 
      let user := fun (m k a n : Nat) => 1 ≤ m ∧ m ≤ 8 ∧ k ≤ 2 ∧ n ∈ [1, 2, 4, 8, 16, 32, 64] ∧ a % n = 0 ∧ a < 2 ^ 40
        ∧ s.asleep = false ∧ s.svc.on = true
      s.powered = true ∧ user m k a n ∧ s.masterHalted m = false ∧ s.pmpFault m k a n ≠ none)
    ∧ (∃ (s : State) (m : Nat) (k : Nat) (a : Nat) (n : Nat), 
      let user := fun (m k a n : Nat) => 1 ≤ m ∧ m ≤ 8 ∧ k ≤ 2 ∧ n ∈ [1, 2, 4, 8, 16, 32, 64] ∧ a % n = 0 ∧ a < 2 ^ 40
        ∧ s.asleep = false ∧ s.svc.on = true
      s.powered = true ∧ user m k a n ∧ s.masterHalted m = true)
    ∧ (∃ (s : State) (m : Nat), s.powered = true ∧ m ≤ 8 ∧ (s.acu m).buffer = [])
    ∧ (∃ (s : State) (e : BufStore), s.powered = true ∧ (s.acu 0).buffer = [e] ∧ (s.acuCheck 0 1 e.addr false).allow = true
        ∧ s.target e.addr ≠ .none ∧ s.target e.addr ≠ .unit ∧ s.trust.acus.length = 16)
    ∧ (∃ (s : State) (a : Nat), s.powered = true ∧ s.awake = true ∧ s.target (lpddrBase + a) = .lpddr ∧ s.scrubDue = true ∧ s.mem.faults = [])
    ∧ (∃ (s : State) (a : Nat), s.powered = true ∧ s.awake = true ∧ s.target (lpddrBase + a) = .lpddr ∧ s.scrubDue = true ∧ s.mem.faults = []
        ∧ s.mem.corTick = none)
    ∧ (∃ (s : State), s.powered = true ∧ s.awake = true ∧ s.scrubDue = false)
    ∧ (∃ (s : State) (ch : Nat), s.powered = true ∧ s.awake = true ∧ s.mem.lpddr = .active ∧ ch < 4 ∧ s.passed s.mem.dqsAt (msTicks 2) = true)
    ∧ (∃ (s : State), s.powered = true ∧ s.awake = true ∧ s.passed s.mem.dqsAt (msTicks 2) = false)
    ∧ (∃ (s : State), s.powered = true ∧ s.awake = true ∧ s.mem.lpddr = .active) :=
  ⟨⟨((setc Fld.NOMATCH_MASK 0xFFFF ready)), 10, 0, 0x1000, 8, by decide +kernel⟩,
   ⟨((setc Fld.NOMATCH_MASK 0xFFFF ready)), 10, 0x1000, 8, by decide +kernel⟩,
   ⟨({ready with trust.lc := [7,7,7,0,0]} : State), 10, 0, 0x1000, 8, by decide +kernel⟩,
   ⟨(regn {Region.init with valid := true, write := true, limit := 255, relaxed := true} ready), 0x100, 4, 0, by decide +kernel⟩,
   ⟨((setc Fld.NOMATCH_MASK 0xFFFF ready)), 10, sbBase, 8, by decide +kernel⟩,
   ⟨((running inst0).setCore 0 (fun c => {c with cur := 1}) : State), 1, 0, 0, 8, by decide +kernel⟩,
   ⟨({running inst0 with pins.halted := 255} : State), 1, 0, 0, 8, by decide +kernel⟩,
   ⟨ready, 3, by decide +kernel⟩,
   ⟨({setc Fld.NOMATCH_MASK 0xFFFF ready with trust.acus := ready.trust.acus.modify 0 fun a => { a with buffer := [(⟨0x100,[1,2],0,0,0⟩ : BufStore)] }} : State), (⟨0x100,[1,2],0,0,0⟩ : BufStore), by decide +kernel⟩,
   ⟨({late with mem.lpddr := .active} : State), 0x100, by decide +kernel⟩,
   ⟨({late with mem.lpddr := .active} : State), 0x100, by decide +kernel⟩,
   ⟨({ready with mem.lpddr := .active, mem.gib := 8, mem.scrubDone := 5} : State), by decide +kernel⟩,
   ⟨({late with mem.lpddr := .active} : State), 2, by decide +kernel⟩,
   ⟨({ready with mem.lpddr := .active} : State), by decide +kernel⟩,
   ⟨({ready with mem.lpddr := .active} : State), by decide +kernel⟩⟩

theorem test_met_MemoryAndDebugCommands :
    (∃ (rq : Req) (s : State), Admitted Cmd.memShow 0 rq s)
    ∧ (∃ (rq : Req) (s : State), Admitted Cmd.memMasterShow 0 rq s)
    ∧ (∃ (rq : Req) (s : State), Admitted Cmd.memMapShow 0 rq s)
    ∧ (∃ (rq : Req) (s : State), Admitted Cmd.memClear 0 rq s)
    ∧ (∃ (rq : Req) (s : State), Admitted Cmd.memInject 12 rq s ∧ arg rq 0 1 = 1 ∧ arg rq 4 8 < mib ∧ arg rq 1 1 ≤ 1)
    ∧ (∃ (rq : Req) (s : State), Admitted Cmd.memInject 12 rq s ∧ arg rq 0 1 = 1 ∧ mib ≤ arg rq 4 8)
    ∧ (∃ (rq : Req) (s : State), Admitted Cmd.dbgShow 1 rq s)
    ∧ (∃ (rq : Req) (s : State), Admitted Cmd.dbgMemRead 12 rq s ∧ arg rq 8 2 = 1 ∧ s.target (arg rq 0 8 % 2 ^ 40) ≠ .none
        ∧ (s.acuCheck 14 0 (arg rq 0 8 % 2 ^ 40) true).allow = true ∧ s.mem.faults = [])
    ∧ (∃ (rq : Req) (s : State), Admitted Cmd.dbgMemRead 12 rq s ∧ arg rq 8 2 = 1 ∧ s.target (arg rq 0 8 % 2 ^ 40) ≠ .none
        ∧ (s.acuCheck 14 0 (arg rq 0 8 % 2 ^ 40) true).allow = false)
    ∧ (∃ (rq : Req) (s : State), Admitted Cmd.dbgMemWrite 12 rq s ∧ arg rq 8 2 = 1 ∧ 13 ≤ rq.payload.length
        ∧ s.target (arg rq 0 8 % 2 ^ 40) ≠ .none ∧ s.target (arg rq 0 8 % 2 ^ 40) ≠ .unit
        ∧ (s.acuCheck 14 1 (arg rq 0 8 % 2 ^ 40) true).allow = true)
    ∧ (∃ (s : State), s.powered = true)
    ∧ (∃ (s : State), s.powered = true ∧ s.debugPermitted = true)
    ∧ (∃ (s : State), s.powered = true ∧ s.debugPermitted = false)
    ∧ (∃ (s : State) (a : Nat), s.powered = true ∧ a < 2 ^ 40 ∧ s.target a ≠ .none ∧ (s.acuCheck 14 0 a true).allow = true ∧ s.mem.faults = []) :=
  ⟨⟨(ask []), ready, admitted_of (by decide +kernel)⟩,
   ⟨(ask []), ready, admitted_of (by decide +kernel)⟩,
   ⟨(ask []), ready, admitted_of (by decide +kernel)⟩,
   ⟨(ask []), ready, admitted_of (by decide +kernel)⟩,
   ⟨(ask [1,1,0,0,8,0,0,0,0,0,0,0]), ready, admitted_of (by decide +kernel), by decide +kernel⟩,
   ⟨(ask [1,1,0,0,8,0,0,0,9,0,0,0]), ready, admitted_of (by decide +kernel), by decide +kernel⟩,
   ⟨(ask [1]), ready, admitted_of (by decide +kernel)⟩,
   ⟨(ask (leBytes 8 0x100 ++ [1,0,0,0])), ((setc Fld.NOMATCH_MASK 0xFFFF ready)), admitted_of (by decide +kernel), by decide +kernel⟩,
   ⟨(ask (leBytes 8 0x100 ++ [1,0,0,0])), ({ready with trust.lc := [7,7,7,0,0]} : State), admitted_of (by decide +kernel), by decide +kernel⟩,
   ⟨(ask (leBytes 8 0x100 ++ [1,0,0,0,9])), ((setc Fld.NOMATCH_MASK 0xFFFF ready)), admitted_of (by decide +kernel), by decide +kernel⟩,
   ⟨ready, by decide +kernel⟩,
   ⟨ready, by decide +kernel⟩,
   ⟨({ready with trust.lc := [7,7,7,0,0]} : State), by decide +kernel⟩,
   ⟨((setc Fld.NOMATCH_MASK 0xFFFF ready)), 5, by decide +kernel⟩⟩

theorem test_met_WoeriCalls :
    (∃ (s : State) (i : Nat) (x : InstSt) (core : Nat) (want : Nat), s.awake = true ∧ s.inst i = some x ∧ x.state = 1 ∧ x.ready = true
        ∧ s.mem.lpddr ≠ .selfRefresh ∧ 0 < (nth s.plan.inForce.slices x.core (0, 1)).1 ∧ s.svc.insts = [x] ∧ x.core = core ∧ core ≤ 7
        ∧ x.cls = 0 ∧ s.svc.moves = [] ∧ (s.acu (core + 1)).notices = [] ∧ (s.core core).state = 1 ∧ (s.core core).left = 0 ∧ 0 < want
        ∧ want ≤ (nth s.plan.inForce.slices core (0, 1)).1 ∧ want ≤ ceilDiv (s.cv Fld.SVC_QUANTUM_US * 1000) 125)
    ∧ (∃ (s : State) (i : Nat) (x : InstSt), s.awake = true ∧ s.inst i = some x ∧ x.state = 1 ∧ x.ready = true ∧ s.mem.lpddr ≠ .selfRefresh
        ∧ 0 < (nth s.plan.inForce.slices x.core (0, 1)).1)
    ∧ (∃ (s : State) (i : Nat) (x : InstSt), s.awake = true ∧ s.inst i = some x ∧ x.state = 1 ∧ x.ready = true ∧ s.mem.lpddr ≠ .selfRefresh
        ∧ 0 < (nth s.plan.inForce.slices x.core (0, 1)).1 ∧ x.stirred = false)
    ∧ (∃ (s : State) (i : Nat) (x : InstSt) (n : Nat), s.awake = true ∧ s.inst i = some x ∧ x.state = 1 ∧ x.ready = true
        ∧ s.mem.lpddr ≠ .selfRefresh ∧ 0 < (nth s.plan.inForce.slices x.core (0, 1)).1 ∧ 0 < n)
    ∧ (∃ (s : State) (i : Nat) (x : InstSt) (e : EventEntry) (l : List EventEntry), s.awake = true ∧ s.inst i = some x ∧ x.state = 1
        ∧ x.ready = true ∧ s.mem.lpddr ≠ .selfRefresh ∧ 0 < (nth s.plan.inForce.slices x.core (0, 1)).1 ∧ bitAt x.caps 0 = true
        ∧ x.events = e :: l)
    ∧ (∃ (s : State) (i : Nat) (x : InstSt), s.awake = true ∧ s.inst i = some x ∧ x.state = 1 ∧ x.ready = true ∧ s.mem.lpddr ≠ .selfRefresh
        ∧ 0 < (nth s.plan.inForce.slices x.core (0, 1)).1 ∧ bitAt x.caps 0 = false)
    ∧ (∃ (s : State) (i : Nat) (x : InstSt) (so : Nat) (dO : Nat) (n : Nat), s.awake = true ∧ s.inst i = some x ∧ x.state = 1 ∧ x.ready = true
        ∧ s.mem.lpddr ≠ .selfRefresh ∧ 0 < (nth s.plan.inForce.slices x.core (0, 1)).1 ∧ x.dma = none
        ∧ so + n ≤ ceilDiv x.memKib 64 * 65536 ∧ dO + n ≤ ceilDiv x.scratch 16 * 16384)
    ∧ (∃ (s : State) (i : Nat) (x : InstSt), s.awake = true ∧ s.inst i = some x ∧ x.state = 1 ∧ x.ready = true ∧ s.mem.lpddr ≠ .selfRefresh
        ∧ 0 < (nth s.plan.inForce.slices x.core (0, 1)).1 ∧ bitAt x.caps 3 = true ∧ s.svcPath = true)
    ∧ (∃ (s : State) (i : Nat) (x : InstSt), s.awake = true ∧ s.inst i = some x ∧ x.state = 1 ∧ x.ready = true ∧ s.mem.lpddr ≠ .selfRefresh
        ∧ 0 < (nth s.plan.inForce.slices x.core (0, 1)).1 ∧ bitAt x.caps 3 = true ∧ s.svcPath = false)
    ∧ (∃ (s : State) (i : Nat) (x : InstSt), s.awake = true ∧ s.inst i = some x ∧ x.state = 1 ∧ x.ready = true ∧ s.mem.lpddr ≠ .selfRefresh
        ∧ 0 < (nth s.plan.inForce.slices x.core (0, 1)).1 ∧ bitAt x.caps 3 = false)
    ∧ (∃ (s : State) (i : Nat) (x : InstSt) (r : PathRec), s.awake = true ∧ s.inst i = some x ∧ x.state = 1 ∧ x.ready = true
        ∧ s.mem.lpddr ≠ .selfRefresh ∧ 0 < (nth s.plan.inForce.slices x.core (0, 1)).1 ∧ bitAt x.caps 4 = true ∧ s.cable.paths = [r]
        ∧ r.id ≠ 0 ∧ r.src = 10 ∧ r.phase = 1 ∧ r.tc ≤ 1)
    ∧ (∃ (s : State) (i : Nat) (x : InstSt) (g : List Byte) (l : List (List Byte)), s.awake = true ∧ s.inst i = some x ∧ x.state = 1
        ∧ x.ready = true ∧ s.mem.lpddr ≠ .selfRefresh ∧ 0 < (nth s.plan.inForce.slices x.core (0, 1)).1 ∧ bitAt x.caps 3 = true
        ∧ x.frames = g :: l)
    ∧ (∃ (s : State) (i : Nat) (x : InstSt) (b : List Byte), s.awake = true ∧ s.inst i = some x ∧ x.state = 1 ∧ x.ready = true
        ∧ s.mem.lpddr ≠ .selfRefresh ∧ 0 < (nth s.plan.inForce.slices x.core (0, 1)).1 ∧ bitAt x.caps 1 = true ∧ x.gateBusy = false
        ∧ s.mbx.gate.stored = none ∧ s.fwRuns = true ∧ b.length = 16 + leAt 4 2 b ∧ b.length ≤ 1040 ∧ (cmdRow? (leAt 0 2 b)).isSome = true)
    ∧ (∃ (s : State) (i : Nat) (x : InstSt), s.awake = true ∧ s.inst i = some x ∧ x.state = 1 ∧ x.ready = true ∧ s.mem.lpddr ≠ .selfRefresh
        ∧ 0 < (nth s.plan.inForce.slices x.core (0, 1)).1 ∧ bitAt x.caps 1 = true ∧ x.gateBusy = true)
    ∧ (∃ (s : State) (i : Nat) (x : InstSt) (r : Reply), s.awake = true ∧ s.inst i = some x ∧ x.state = 1 ∧ x.ready = true
        ∧ s.mem.lpddr ≠ .selfRefresh ∧ 0 < (nth s.plan.inForce.slices x.core (0, 1)).1 ∧ bitAt x.caps 1 = true ∧ x.gateReply = some r)
    ∧ (∃ (s : State) (i : Nat) (x : InstSt), s.awake = true ∧ s.inst i = some x ∧ x.state = 1 ∧ x.ready = true ∧ s.mem.lpddr ≠ .selfRefresh
        ∧ 0 < (nth s.plan.inForce.slices x.core (0, 1)).1 ∧ bitAt x.caps 6 = true)
    ∧ (∃ (s : State) (i : Nat) (x : InstSt) (core : Nat), s.awake = true ∧ s.inst i = some x ∧ x.state = 1 ∧ x.ready = true
        ∧ s.mem.lpddr ≠ .selfRefresh ∧ 0 < (nth s.plan.inForce.slices x.core (0, 1)).1 ∧ core ≤ 7)
    ∧ (∃ (s : State) (i : Nat) (x : InstSt) (d : SvcDma), s.awake = true ∧ s.inst i = some x ∧ x.state = 1 ∧ x.ready = true
        ∧ s.mem.lpddr ≠ .selfRefresh ∧ 0 < (nth s.plan.inForce.slices x.core (0, 1)).1 ∧ x.dma = some d)
    ∧ (∃ (s : State) (i : Nat) (x : InstSt), s.awake = true ∧ s.inst i = some x ∧ x.state = 1 ∧ x.ready = true ∧ s.mem.lpddr ≠ .selfRefresh
        ∧ 0 < (nth s.plan.inForce.slices x.core (0, 1)).1 ∧ msTicks (s.cv Fld.SVC_WDT_MS) ≤ x.silent)
    ∧ (∃ (s : State) (i : Nat) (x : InstSt), s.awake = true ∧ s.inst i = some x ∧ x.state = 1 ∧ x.ready = true ∧ s.mem.lpddr ≠ .selfRefresh
        ∧ 0 < (nth s.plan.inForce.slices x.core (0, 1)).1 ∧ x.silent < msTicks (s.cv Fld.SVC_WDT_MS)) :=
  ⟨⟨(running inst0 : State), 1, inst0, 0, 5, by decide +kernel⟩,
   ⟨(running inst0), 1, inst0, by decide +kernel⟩,
   ⟨(running inst0), 1, inst0, by decide +kernel⟩,
   ⟨(running inst0), 1, inst0, 5, by decide +kernel⟩,
   ⟨(running ({inst0 with events := [⟨4,0,0,0,7⟩]} : InstSt)), 1, ({inst0 with events := [⟨4,0,0,0,7⟩]} : InstSt), (⟨4,0,0,0,7⟩ : EventEntry), ([] : List EventEntry), by decide +kernel⟩,
   ⟨(running ({inst0 with caps := 0} : InstSt)), 1, ({inst0 with caps := 0} : InstSt), by decide +kernel⟩,
   ⟨(running inst0), 1, inst0, 0, 16, 8, by decide +kernel⟩,
   ⟨({running inst0 with cable.paths := [⟨5,9,none,0,0,0,10,1,false,0,false,1,.command,none⟩]} : State), 1, inst0, by decide +kernel⟩,
   ⟨(running inst0), 1, inst0, by decide +kernel⟩,
   ⟨(running ({inst0 with caps := 0} : InstSt)), 1, ({inst0 with caps := 0} : InstSt), by decide +kernel⟩,
   ⟨({running inst0 with cable.paths := [(⟨5,10,some 1,20,1,0,10,1,false,0,false,1,.command,none⟩ : PathRec)]} : State), 1, inst0, (⟨5,10,some 1,20,1,0,10,1,false,0,false,1,.command,none⟩ : PathRec), by decide +kernel⟩,
   ⟨(running ({inst0 with frames := [[1],[2]]} : InstSt)), 1, ({inst0 with frames := [[1],[2]]} : InstSt), ([1] : List Byte), ([[2]] : List (List Byte)), by decide +kernel⟩,
   ⟨(running inst0), 1, inst0, (leBytes 2 Cmd.sysPing.opcode ++ zeros 14 : List Byte), by decide +kernel⟩,
   ⟨(running ({inst0 with gateBusy := true} : InstSt)), 1, ({inst0 with gateBusy := true} : InstSt), by decide +kernel⟩,
   ⟨(running ({inst0 with gateReply := some ⟨0,7,0,0,[]⟩} : InstSt)), 1, ({inst0 with gateReply := some ⟨0,7,0,0,[]⟩} : InstSt), (⟨0,7,0,0,[]⟩ : Reply), by decide +kernel⟩,
   ⟨(running inst0), 1, inst0, by decide +kernel⟩,
   ⟨(running inst0), 1, inst0, 0, by decide +kernel⟩,
   ⟨(running ({inst0 with dma := some ⟨0x100,0x200,16⟩} : InstSt)), 1, ({inst0 with dma := some ⟨0x100,0x200,16⟩} : InstSt), (⟨0x100,0x200,16⟩ : SvcDma), by decide +kernel⟩,
   ⟨(running ({inst0 with silent := 1000000} : InstSt)), 1, ({inst0 with silent := 1000000} : InstSt), by decide +kernel⟩,
   ⟨(running inst0), 1, inst0, by decide +kernel⟩⟩

theorem test_met_ServicesAndFaults :
    (∃ (s : State) (i : Nat) (x : InstSt) (p : SvcPkg) (t0 : Tick), s.awake = true ∧ s.inst i = some x ∧ x.restartDue = some t0
        ∧ s.passed t0 1 = true ∧ (s.recentRestarts x).length < s.cv Fld.SVC_RESTART_LIMIT ∧ s.pkg i = some p
        ∧ s.coreEnabled x.core = true ∧ s.hasRoom x.core p.slots p.opp = true)
    ∧ (∃ (s : State) (i : Nat) (x : InstSt) (t0 : Tick), s.awake = true ∧ s.inst i = some x ∧ x.restartDue = some t0 ∧ s.passed t0 1 = true
        ∧ s.cv Fld.SVC_RESTART_LIMIT ≤ (s.recentRestarts x).length)
    ∧ (∃ (s : State) (i : Nat) (x : InstSt) (t0 : Tick), s.awake = true ∧ s.inst i = some x ∧ x.restartDue = some t0 ∧ s.passed t0 1 = false)
    ∧ (∃ (s : State) (k : Nat) (j : Nat), s.awake = true ∧ k ≤ 7 ∧ j ≤ 7 ∧ j ≠ k ∧ (s.core k).state = 1 ∧ 8 ≤ (s.core k).mute
        ∧ s.coreEnabled j = true ∧ s.svc.insts = [])
    ∧ (∃ (s : State) (k : Nat), s.awake = true ∧ (s.core k).mute < 8)
    ∧ (∃ (s : State) (k : Nat) (w : Nat) (h : Nat) (v : StreamSt), s.awake = true ∧ s.svcRuns 1 = true ∧ k ≤ 3 ∧ s.isSource k = true
        ∧ s.disp.streams = [v] ∧ v.capture = false ∧ v.dpx = k ∧ v.state = 3 ∧ v.desc.map (·.dsc) ≠ some true ∧ 0 < w ∧ w ≤ 3840
        ∧ 0 < h ∧ h ≤ 2160 ∧ s.cv Fld.HOLD_REGION_MIB ≠ 0)
    ∧ (∃ (s : State) (k : Nat), s.awake = true ∧ s.svcRuns 1 = true ∧ k ≤ 3 ∧ s.isSource k = true)
    ∧ (∃ (s : State) (k : Nat) (x : Nat) (y : Nat) (w : Nat) (h : Nat) (off : Nat), s.awake = true ∧ s.svcRuns 1 = true
        ∧ s.cv Fld.DH_STATUS_LINE ≠ 0 ∧ k ≤ 3 ∧ (s.dpx k).overlay = (true, x, y, w, h, off) ∧ nth s.svc.redrawAt k none = none)
    ∧ (∃ (s : State) (k : Nat) (t0 : Tick), s.awake = true ∧ nth s.svc.redrawAt k none = some t0 ∧ s.passed t0 (secTicks 1) = false)
    ∧ (∃ (s : State) (absent : Bool), s.awake = true ∧ s.svcRuns 2 = true ∧ s.netPort = true ∧ s.net.absent = absent)
    ∧ (∃ (s : State) (k : Nat), s.awake = true ∧ s.svcRuns 2 = true ∧ s.netPort = true ∧ s.cv Fld.NP_DHCP_RENEW = 1
        ∧ (∃ e ∈ s.net.v4, e.1 = k) ∧ s.svcPath = true)
    ∧ (∃ (s : State), s.awake = true ∧ s.svcRuns 2 = true ∧ s.netPort = true ∧ s.net.v4 = [(0, 1, false)] ∧ s.cv Fld.NP_WAKE_ON_LOSS = 1)
    ∧ (∃ (s : State), s.awake = true ∧ s.cv Fld.KA_WAKE_ON_HID = 1 ∧ s.svcRuns 3 = true)
    ∧ (∃ (s : State) (r : HidReport), s.awake = true ∧ s.cv Fld.KA_WAKE_ON_HID = 1 ∧ s.svcRuns 3 = true ∧ s.usb.absent = true
        ∧ s.svc.hidWoke = false ∧ r ∈ s.usb.hid ∧ (∃ b ∈ r.bytes, b ≠ 0))
    ∧ (∃ (s : State), s.awake = true ∧ s.cv Fld.FLEET_ENABLE = 1 ∧ s.svcRuns 4 = true ∧ s.svc.fleetAt = none ∧ s.svc.fleetMiss = 2)
    ∧ (∃ (s : State), s.awake = true ∧ s.cv Fld.FLEET_ENABLE = 1 ∧ s.svcRuns 4 = true ∧ s.svc.fleetAt = none ∧ 3 ≤ s.svc.fleetMiss)
    ∧ (∃ (s : State) (t0 : Tick), s.awake = true ∧ s.svc.fleetAt = some t0 ∧ s.passed t0 (secTicks (s.cv Fld.FLEET_PERIOD_S)) = false) :=
  ⟨⟨({running ({inst0 with restartDue := some 0, state := 0} : InstSt) with time.tick := 5} : State), 1, ({inst0 with restartDue := some 0, state := 0} : InstSt), ((({running ({inst0 with restartDue := some 0, state := 0} : InstSt) with time.tick := 5} : State).pkg 1).getD (parsePkg [])), (0 : Tick), by decide +kernel⟩,
   ⟨({running ({inst0 with restartDue := some 0, state := 0, restarts := List.replicate 20 0} : InstSt) with time.tick := 5} : State), 1, ({inst0 with restartDue := some 0, state := 0, restarts := List.replicate 20 0} : InstSt), (0 : Tick), by decide +kernel⟩,
   ⟨(running ({inst0 with restartDue := some 0, state := 0} : InstSt) : State), 1, ({inst0 with restartDue := some 0, state := 0} : InstSt), (0 : Tick), by decide +kernel⟩,
   ⟨(({ready with svc.on := true} : State).setCore 3 (fun c => {c with mute := 8}) : State), 3, 4, by decide +kernel⟩,
   ⟨ready, 3, by decide +kernel⟩,
   ⟨(strs [({str0 with state := 3} : StreamSt)] (ends [0,0,0,2,0,0,0] (running inst0))), 3, 2, 2, ({str0 with state := 3} : StreamSt), by decide +kernel⟩,
   ⟨(ends [0,0,0,2,0,0,0] (running inst0)), 3, by decide +kernel⟩,
   ⟨(dpx' (setc Fld.DH_STATUS_LINE 1 (running inst0)) 3 (fun d => {d with overlay := (true,1,2,3,4,5)})), 3, 1, 2, 3, 4, 5, by decide +kernel⟩,
   ⟨({ready with svc.redrawAt := [none,none,none,some 0]} : State), 3, (0 : Tick), by decide +kernel⟩,
   ⟨(ends [0,0,0,0,0,0,2] (running {inst0 with id := 2})), false, by decide +kernel⟩,
   ⟨({setc Fld.NP_DHCP_RENEW 1 (ends [0,0,0,0,0,0,2] (running {inst0 with id := 2})) with net.v4 := [(0,1,false)], cable.paths := [⟨5,9,none,0,0,0,10,1,false,0,false,1,.command,none⟩]} : State), 0, by decide +kernel⟩,
   ⟨({setc Fld.NP_WAKE_ON_LOSS 1 (ends [0,0,0,0,0,0,2] (running {inst0 with id := 2})) with net.v4 := [(0,1,false)]} : State), by decide +kernel⟩,
   ⟨(setc Fld.KA_WAKE_ON_HID 1 (running {inst0 with id := 3}) : State), by decide +kernel⟩,
   ⟨({setc Fld.KA_WAKE_ON_HID 1 (running {inst0 with id := 3}) with usb.absent := true, usb.hid := [(⟨1,1,1,0,[5]⟩ : HidReport)]} : State), (⟨1,1,1,0,[5]⟩ : HidReport), by decide +kernel⟩,
   ⟨({setc Fld.FLEET_ENABLE 1 (running {inst0 with id := 4}) with svc.fleetMiss := 2} : State), by decide +kernel⟩,
   ⟨({setc Fld.FLEET_ENABLE 1 (running {inst0 with id := 4}) with svc.fleetMiss := 3} : State), by decide +kernel⟩,
   ⟨({ready with svc.fleetAt := some 0} : State), (0 : Tick), by decide +kernel⟩⟩

theorem test_met_ServiceCommands :
    (∃ (rq : Req) (s : State), Admitted Cmd.svcShow 0 rq s)
    ∧ (∃ (rq : Req) (s : State), Admitted Cmd.svcStage 5 rq s ∧ arg rq 0 4 = 0)
    ∧ (∃ (rq : Req) (s : State), Admitted Cmd.svcInstall 0 rq s ∧ s.jobRoom rq ∧ s.lifecycle ≠ lcScrapped)
    ∧ (∃ (rq : Req) (s : State), Admitted Cmd.svcRemove 2 rq s ∧ (s.svc.insts = [] ∧ ∃ p ∈ s.upd.flash.pkgs, p.id = arg rq 0 2))
    ∧ (∃ (rq : Req) (s : State), Admitted Cmd.svcRemove 2 rq s ∧ (∃ x ∈ s.svc.insts, x.id = arg rq 0 2 ∧ x.state ≠ 0))
    ∧ (∃ (rq : Req) (s : State) (p : SvcPkg) (k : Nat), Admitted Cmd.svcStart 3 rq s ∧ s.pkg (arg rq 0 2) = some p ∧ s.svc.insts = []
        ∧ s.place (s.runClass p) p.slots p.opp none = some k)
    ∧ (∃ (rq : Req) (s : State), Admitted Cmd.svcStart 3 rq s ∧ s.pkg (arg rq 0 2) = none)
    ∧ (∃ (rq : Req) (s : State) (x : InstSt), Admitted Cmd.svcStop 2 rq s ∧ s.knownSvc (arg rq 0 2) = true ∧ s.inst (arg rq 0 2) = some x)
    ∧ (∃ (x : InstSt) (rq : Req) (s : State), Admitted Cmd.svcInstanceShow 2 rq s ∧ s.knownSvc (arg rq 0 2) = true ∧ s.inst (arg rq 0 2) = some x)
    ∧ (∃ (rq : Req) (s : State), Admitted Cmd.svcCoreDrain 1 rq s ∧ s.jobRoom rq ∧ arg rq 0 1 ≤ 7 ∧ (s.core (arg rq 0 1)).state = 1
        ∧ s.svc.insts = [] ∧ s.svc.cores.length = 8)
    ∧ (∃ (rq : Req) (s : State), Admitted Cmd.svcCoreAdmit 1 rq s ∧ arg rq 0 1 ≤ 7 ∧ bitAt (s.applied Fld.SVC_CORES_MASK) (arg rq 0 1) = true
        ∧ (s.core (arg rq 0 1)).state ≠ 1 ∧ (s.core (arg rq 0 1)).state ≠ 2 ∧ s.svc.insts = [] ∧ s.svc.cores.length = 8)
    ∧ (∃ (x : InstSt) (rq : Req) (s : State), Admitted Cmd.svcDataPut 9 rq s ∧ s.knownSvc (arg rq 0 2) = true ∧ s.inst (arg rq 0 2) = some x
        ∧ x.state = 1 ∧ arg rq 4 4 + ((rq.payload.drop 8).take 1016).length ≤ x.memKib * 1024) :=
  ⟨⟨(ask []), ready, admitted_of (by decide +kernel)⟩,
   ⟨(ask [0,0,0,0,1,2]), ready, admitted_of (by decide +kernel), by decide +kernel⟩,
   ⟨(ask []), ready, admitted_of (by decide +kernel), by decide +kernel⟩,
   ⟨(ask [77,0]), ({ready with upd.flash.pkgs := [⟨77,[]⟩]} : State), admitted_of (by decide +kernel), by decide +kernel⟩,
   ⟨(ask [1,0]), (running inst0), admitted_of (by decide +kernel), by decide +kernel⟩,
   ⟨(ask [1,0,0]), ({ready with svc.on := true} : State), ((({ready with svc.on := true} : State).pkg 1).getD (parsePkg [])), ((({ready with svc.on := true} : State).place (({ready with svc.on := true} : State).runClass ((({ready with svc.on := true} : State).pkg 1).getD (parsePkg []))) ((({ready with svc.on := true} : State).pkg 1).getD (parsePkg [])).slots ((({ready with svc.on := true} : State).pkg 1).getD (parsePkg [])).opp none).getD 0), admitted_of (by decide +kernel), by decide +kernel⟩,
   ⟨(ask [77,0,0]), ready, admitted_of (by decide +kernel), by decide +kernel⟩,
   ⟨(ask [1,0]), (running inst0), inst0, admitted_of (by decide +kernel), by decide +kernel⟩,
   ⟨inst0, (ask [1,0]), (running inst0), admitted_of (by decide +kernel), by decide +kernel⟩,
   ⟨(ask [3]), ready, admitted_of (by decide +kernel), by decide +kernel⟩,
   ⟨(ask [3]), (ready.setCore 3 (fun c => {c with state := 3}) : State), admitted_of (by decide +kernel), by decide +kernel⟩,
   ⟨inst0, (ask [1,0,0,0,0,0,0,0,5]), (running inst0), admitted_of (by decide +kernel), by decide +kernel⟩⟩

theorem test_met_BoundariesAndPowerStates :
    (∃ (s : State), s.powered = true ∧ s.awake = true)
    ∧ (∃ (s : State), s.powered = true ∧ s.clockStands = false ∧ s.fault.thermal = true)
    ∧ (∃ (s : State), s.powered = true ∧ s.clockStands = true)
    ∧ (∃ (s : State), s.powered = true ∧ s.pwr.target = 2 ∧ s.pwr.state ≤ 1 ∧ s.pwr.phase = 0 ∧ s.cv Fld.IDLE_ENTRY_TICKS ≤ s.pwr.idleCount)
    ∧ (∃ (s : State), s.powered = true ∧ s.pwr.idleCount < s.cv Fld.IDLE_ENTRY_TICKS)
    ∧ (∃ (s : State), s.powered = true ∧ s.pwr.phase = 1)
    ∧ (∃ (s : State), s.powered = true ∧ s.pwr.phase ≠ 1)
    ∧ (∃ (s : State), s.powered = true ∧ s.pwr.phase = 2)
    ∧ (∃ (s : State), s.powered = true ∧ s.pwr.phase ≠ 2)
    ∧ (∃ (s : State), s.powered = true ∧ s.pwr.phase = 1 ∧ s.passed s.pwr.since (msTicks (s.cv Fld.ENTRY_TIMEOUT_MS)) = true)
    ∧ (∃ (s : State), s.powered = true ∧ s.passed s.pwr.since (msTicks (s.cv Fld.ENTRY_TIMEOUT_MS)) = false)
    ∧ (∃ (s : State) (src : Nat) (cycles : Nat), s.powered = true ∧ s.wakeEnabled src = true ∧ (src = 8 → 32768 * s.pwr.timer ≤ cycles)
        ∧ (s.pwr.phase = 1 ∨ s.pwr.phase = 2))
    ∧ (∃ (s : State) (src : Nat) (cycles : Nat), s.powered = true ∧ s.wakeEnabled src = true ∧ (src = 8 → 32768 * s.pwr.timer ≤ cycles)
        ∧ s.pwr.phase = 3 ∧ s.pwr.goal = 3 ∧ s.pwr.valid = true)
    ∧ (∃ (s : State) (src : Nat) (cycles : Nat), s.powered = true ∧ s.wakeEnabled src = true ∧ (src = 8 → 32768 * s.pwr.timer ≤ cycles)
        ∧ s.pwr.phase = 4)
    ∧ (∃ (s : State) (src : Nat), s.powered = true ∧ s.wakeEnabled src = false)
    ∧ (∃ (s : State) (cycles : Nat), s.powered = true ∧ cycles < 32768 * s.pwr.timer)
    ∧ (∃ (s : State), s.powered = true ∧ s.pwr.phase = 4 ∧ s.pwr.state = 3 ∧ s.passed s.pwr.since 3 = true)
    ∧ (∃ (s : State), s.powered = true ∧ s.passed s.pwr.since 3 = false)
    ∧ (∃ (s : State), s.powered = true ∧ s.mem.lpddr = .selfRefresh ∧ (s.pwr.phase = 0 ∨ s.pwr.phase = 4) ∧ s.mayStartWoeri = false)
    ∧ (∃ (s : State), s.powered = true ∧ s.mem.lpddr = .selfRefresh ∧ (s.pwr.phase = 0 ∨ s.pwr.phase = 4)) :=
  ⟨⟨ready, by decide +kernel⟩,
   ⟨({ready with fault.thermal := true} : State), by decide +kernel⟩,
   ⟨({ready with pwr.state := 3, pwr.phase := 3} : State), by decide +kernel⟩,
   ⟨({ready with pwr.target := 2, pwr.idleCount := 1000000} : State), by decide +kernel⟩,
   ⟨ready, by decide +kernel⟩,
   ⟨({ready with pwr.phase := 1, pwr.goal := 3} : State), by decide +kernel⟩,
   ⟨ready, by decide +kernel⟩,
   ⟨({ready with pwr.phase := 2, pwr.goal := 3} : State), by decide +kernel⟩,
   ⟨ready, by decide +kernel⟩,
   ⟨({late with pwr.phase := 1, pwr.goal := 3} : State), by decide +kernel⟩,
   ⟨ready, by decide +kernel⟩,
   ⟨({ready with pwr.phase := 2, pwr.goal := 3, pwr.mask := 2} : State), 1, 1000, by decide +kernel⟩,
   ⟨({ready with pwr.phase := 3, pwr.state := 3, pwr.goal := 3, pwr.mask := 2, pwr.valid := true} : State), 1, 1000, by decide +kernel⟩,
   ⟨({ready with pwr.phase := 4, pwr.state := 3, pwr.goal := 3, pwr.mask := 2} : State), 1, 1000, by decide +kernel⟩,
   ⟨({ready with pwr.phase := 3, pwr.mask := 0} : State), 1, by decide +kernel⟩,
   ⟨({ready with pwr.phase := 3, pwr.mask := 256, pwr.timer := 5} : State), 1000, by decide +kernel⟩,
   ⟨({ready with pwr.phase := 4, pwr.state := 3, pwr.goal := 3, time.tick := 3} : State), by decide +kernel⟩,
   ⟨ready, by decide +kernel⟩,
   ⟨({ready with mem.lpddr := .selfRefresh, svc.on := true} : State), by decide +kernel⟩,
   ⟨({ready with mem.lpddr := .selfRefresh} : State), by decide +kernel⟩⟩

theorem test_met_PowerStateCommands :
    (∃ (rq : Req) (s : State), Admitted Cmd.pstateShow 0 rq s)
    ∧ (∃ (rq : Req) (s : State), Admitted Cmd.pstateSet 4 rq s ∧ arg rq 0 1 ≤ 1 ∧ s.pwr.phase ≠ 1)
    ∧ (∃ (rq : Req) (s : State), Admitted Cmd.pstateSet 4 rq s ∧ arg rq 0 1 = 2 ∧ s.pwr.phase ≠ 1)
    ∧ (∃ (rq : Req) (s : State), Admitted Cmd.pstateSet 4 rq s ∧ arg rq 0 1 ≤ 2 ∧ s.pwr.phase = 1)
    ∧ (∃ (rq : Req) (s : State), Admitted Cmd.pstateSet 4 rq s ∧ 4 < arg rq 0 1)
    ∧ (∃ (rq : Req) (s : State), Admitted Cmd.pstateSet 4 rq s ∧ (arg rq 0 1 = 3 ∨ arg rq 0 1 = 4) ∧ s.entryRefusal (arg rq 0 1) ≠ 0)
    ∧ (∃ (rq : Req) (s : State), Admitted Cmd.pstateSet 4 rq s ∧ ((arg rq 0 1 = 3 ∨ arg rq 0 1 = 4) ∧ s.entryRefusal (arg rq 0 1) = 0
        ∧ s.pwr.phase ≠ 0))
    ∧ (∃ (rq : Req) (s : State), Admitted Cmd.pstateSet 4 rq s ∧ s.jobRoom rq ∧ (arg rq 0 1 = 3 ∨ arg rq 0 1 = 4)
        ∧ s.entryRefusal (arg rq 0 1) = 0 ∧ s.pwr.phase = 0) :=
  ⟨⟨(ask []), ready, admitted_of (by decide +kernel)⟩,
   ⟨(ask [1,0,0,0]), ready, admitted_of (by decide +kernel), by decide +kernel⟩,
   ⟨(ask [2,0,0,0]), ready, admitted_of (by decide +kernel), by decide +kernel⟩,
   ⟨(ask [1,0,0,0]), ({ready with pwr.phase := 1} : State), admitted_of (by decide +kernel), by decide +kernel⟩,
   ⟨(ask [5,0,0,0]), ready, admitted_of (by decide +kernel), by decide +kernel⟩,
   ⟨(ask [3,0,0,0]), ({ready with topo.role := .hostside} : State), admitted_of (by decide +kernel), by decide +kernel⟩,
   ⟨(ask [3,0,0,0]), ({ready with pwr.phase := 1} : State), admitted_of (by decide +kernel), by decide +kernel⟩,
   ⟨(ask [3,0,0,0]), ready, admitted_of (by decide +kernel), by decide +kernel⟩⟩

theorem test_met_TrustCommands :
    (∃ (rq : Req) (s : State), Admitted Cmd.trustShow 0 rq s)
    ∧ (∃ (rq : Req) (s : State), Admitted Cmd.trustKeyShow 1 rq s ∧ arg rq 0 1 ≤ 31)
    ∧ (∃ (rq : Req) (s : State), Admitted Cmd.trustKeyInstall 36 rq s ∧ s.jobRoom rq ∧ (arg rq 0 1 ≤ 31 ∧ s.slotState (arg rq 0 1) = 0
        ∧ classFits (arg rq 0 1) (arg rq 1 1) = true ∧ leNat (slice 4 32 rq.payload) ≠ 0 ∧ leNat (slice 4 32 rq.payload) ≠ 2 ^ 256 - 1
        ∧ (arg rq 1 1 = 6 → viaChan rq.via = .loc) ∧ slotWritable s.lifecycle (arg rq 0 1) = true ∧ s.trust.work = none))
    ∧ (∃ (rq : Req) (s : State), Admitted Cmd.trustKeyInstall 36 rq s ∧ arg rq 0 1 ≤ 31 ∧ s.slotState (arg rq 0 1) ≠ 0)
    ∧ (∃ (rq : Req) (s : State), Admitted Cmd.trustKeyRevoke 1 rq s ∧ arg rq 0 1 < 8 ∧ s.bootSlotsUsed = [] ∧ s.lifecycle ≠ 1 ∧ s.lifecycle ≠ 4)
    ∧ (∃ (rq : Req) (s : State), Admitted Cmd.trustKeyRevoke 1 rq s ∧ s.jobRoom rq ∧ (arg rq 0 1 ≤ 31 ∧ s.bootSlotsUsed = []
        ∧ (8 ≤ arg rq 0 1 ∨ s.lifecycle = 1 ∨ s.lifecycle = 4) ∧ s.trust.work = none ∧ s.trust.dead = 0))
    ∧ (∃ (rq : Req) (s : State), Admitted Cmd.trustLifecycleAdvance 236 rq s ∧ signersOf s.lifecycle (arg rq 0 1) = none)
    ∧ (∃ (rq : Req) (s : State) (who : List Signer), Admitted Cmd.trustLifecycleAdvance 236 rq s ∧ s.jobRoom rq
        ∧ signersOf s.lifecycle (arg rq 0 1) = some who ∧ s.lcCondition s.lifecycle (arg rq 0 1) = true ∧ s.trust.work = none)
    ∧ (∃ (rq : Req) (s : State), Admitted Cmd.trustRollbackAdvance 1 rq s ∧ s.lowestSvn s.bootable < arg rq 0 1)
    ∧ (∃ (rq : Req) (s : State), Admitted Cmd.trustRollbackAdvance 1 rq s ∧ s.jobRoom rq ∧ arg rq 0 1 ≤ s.lowestSvn s.bootable
        ∧ arg rq 0 1 ≤ 64 ∧ s.trust.work = none ∧ s.trust.rollback.toNat + 1 = 2 ^ s.rollbackCount)
    ∧ (∃ (s : State) (via : Via) (h : Nat) (j : Job) (k : Nat) (c : Nat), s.awake = true
        ∧ (((s.chan (viaChan via)).jobs.find? fun j => j.handle == h && j.result == none) = some j) ∧ 0x1003 ≤ j.opcode
        ∧ j.opcode ≤ 0x1006 ∧ s.trust.work = some (.install k c) ∧ k ≤ 31 ∧ c ≤ 7 ∧ s.trust.slots.length = 32 ∧ (s.slot k).word = 0)
    ∧ (∃ (s : State) (via : Via) (h : Nat) (j : Job) (k : Nat) (c : Nat), s.awake = true
        ∧ (((s.chan (viaChan via)).jobs.find? fun j => j.handle == h && j.result == none) = some j) ∧ 0x1003 ≤ j.opcode
        ∧ j.opcode ≤ 0x1006 ∧ s.trust.work = some (.destroy k c) ∧ k ≤ 31 ∧ s.trust.slots.length = 32 ∧ s.trust.dead = 0)
    ∧ (∃ (s : State) (via : Via) (h : Nat) (j : Job) (target : Nat), s.awake = true
        ∧ (((s.chan (viaChan via)).jobs.find? fun j => j.handle == h && j.result == none) = some j) ∧ 0x1003 ≤ j.opcode
        ∧ j.opcode ≤ 0x1006 ∧ s.trust.work = some (.lifecycle target))
    ∧ (∃ (s : State) (via : Via) (h : Nat) (j : Job) (n : Nat), s.awake = true
        ∧ (((s.chan (viaChan via)).jobs.find? fun j => j.handle == h && j.result == none) = some j) ∧ 0x1003 ≤ j.opcode
        ∧ j.opcode ≤ 0x1006 ∧ s.trust.work = some (.rollback n) ∧ n ≤ 64 ∧ s.trust.rollback.toNat + 1 = 2 ^ s.rollbackCount)
    ∧ (∃ (rq : Req) (s : State), Admitted Cmd.trustIdShow 0 rq s) :=
  ⟨⟨(ask []), ready, admitted_of (by decide +kernel)⟩,
   ⟨(ask [9]), ready, admitted_of (by decide +kernel), by decide +kernel⟩,
   ⟨(ask ([9,4,0,0] ++ List.replicate 32 5)), ({ready with trust.lc := [7,0,0,0,0]} : State), admitted_of (by decide +kernel), by decide +kernel⟩,
   ⟨(ask ([9,4,0,0] ++ List.replicate 32 5)), ({ready.setSlot 9 ⟨5,6⟩ with trust.lc := [7,0,0,0,0]} : State), admitted_of (by decide +kernel), by decide +kernel⟩,
   ⟨(ask [5]), ({ready with trust.lc := [7,7,0,0,0]} : State), admitted_of (by decide +kernel), by decide +kernel⟩,
   ⟨(ask [9]), ({ready with trust.lc := [7,7,0,0,0]} : State), admitted_of (by decide +kernel), by decide +kernel⟩,
   ⟨(ask ([5] ++ zeros 235)), ready, admitted_of (by decide +kernel), by decide +kernel⟩,
   ⟨(ask ([1] ++ zeros 235)), ready, ((signersOf 0 1).getD []), admitted_of (by decide +kernel), by decide +kernel⟩,
   ⟨(ask [200]), ready, admitted_of (by decide +kernel), by decide +kernel⟩,
   ⟨(ask [0]), ready, admitted_of (by decide +kernel), by decide +kernel⟩,
   ⟨({ready with mbx.loc.jobs := [(⟨1,.spi,0x1003,none,none,0⟩ : Job)], trust.work := some (.install 9 4)} : State), Via.spi, 1, (⟨1,.spi,0x1003,none,none,0⟩ : Job), 9, 4, by decide +kernel⟩,
   ⟨({ready with mbx.loc.jobs := [(⟨1,.spi,0x1003,none,none,0⟩ : Job)], trust.work := some (.destroy 9 4)} : State), Via.spi, 1, (⟨1,.spi,0x1003,none,none,0⟩ : Job), 9, 4, by decide +kernel⟩,
   ⟨({ready with mbx.loc.jobs := [(⟨1,.spi,0x1003,none,none,0⟩ : Job)], trust.work := some (.lifecycle 1)} : State), Via.spi, 1, (⟨1,.spi,0x1003,none,none,0⟩ : Job), 1, by decide +kernel⟩,
   ⟨({ready with mbx.loc.jobs := [(⟨1,.spi,0x1003,none,none,0⟩ : Job)], trust.work := some (.rollback 5)} : State), Via.spi, 1, (⟨1,.spi,0x1003,none,none,0⟩ : Job), 5, by decide +kernel⟩,
   ⟨(ask []), ready, admitted_of (by decide +kernel)⟩⟩

theorem test_met_AccessControlCommands :
    (∃ (rq : Req) (s : State), Admitted Cmd.trustAcuShow 1 rq s ∧ arg rq 0 1 ≤ 15)
    ∧ (∃ (rq : Req) (s : State), Admitted Cmd.trustAcuShow 1 rq s ∧ 15 < arg rq 0 1)
    ∧ (∃ (rq : Req) (s : State), Admitted Cmd.trustAcuLogShow 1 rq s ∧ arg rq 0 1 ≤ 15)
    ∧ (∃ (rq : Req) (s : State), Admitted Cmd.trustAcuLogShow 1 rq s ∧ 15 < arg rq 0 1)
    ∧ (∃ (rq : Req) (s : State), 
      let m := arg rq 0 1
      let j := arg rq 1 1
      let old := nth (s.acu m).regions j .init
      let r := regionOf old (slice 8 16 rq.payload)
      Admitted Cmd.trustAcuSet 24 rq s ∧ arg rq 0 1 ≤ 15 ∧ arg rq 1 1 ≤ 15 ∧ s.trust.acus.length = 16 ∧ old.lock = false
        ∧ (m = 14 → r.valid = true → s.lifecycle ≤ 1 ∨ s.lifecycle = 4)
        ∧ ((s.swapRegion m j r).acuCheck 0 1 Config.acuRegisters false).allow = true)
    ∧ (∃ (rq : Req) (s : State), Admitted Cmd.trustAcuSet 24 rq s ∧ arg rq 0 1 ≤ 15 ∧ arg rq 1 1 ≤ 15
        ∧ (nth (s.acu (arg rq 0 1)).regions (arg rq 1 1) .init).lock = true)
    ∧ (∃ (rq : Req) (s : State), Admitted Cmd.trustAcuSet 24 rq s ∧ (arg rq 0 1 = 14 ∧ arg rq 1 1 ≤ 15
        ∧ (s.lifecycle = 2 ∨ s.lifecycle = 3 ∨ s.lifecycle = 5)
        ∧ (regionOf (nth (s.acu 14).regions (arg rq 1 1) .init) (slice 8 16 rq.payload)).valid = true))
    ∧ (∃ (rq : Req) (s : State), Admitted Cmd.trustAcuSet 24 rq s ∧ (15 < arg rq 0 1 ∨ 15 < arg rq 1 1)) :=
  ⟨⟨(ask [3]), ready, admitted_of (by decide +kernel), by decide +kernel⟩,
   ⟨(ask [16]), ready, admitted_of (by decide +kernel), by decide +kernel⟩,
   ⟨(ask [3]), ready, admitted_of (by decide +kernel), by decide +kernel⟩,
   ⟨(ask [16]), ready, admitted_of (by decide +kernel), by decide +kernel⟩,
   ⟨(ask ([3,2] ++ zeros 22)), ((setc Fld.NOMATCH_MASK 0xFFFF ready)), admitted_of (by decide +kernel), by decide +kernel⟩,
   ⟨(ask ([3,0] ++ zeros 22)), ({ready with trust.acus := ready.trust.acus.modify 3 fun a => {a with regions := [{Region.init with lock := true}]}} : State), admitted_of (by decide +kernel), by decide +kernel⟩,
   ⟨(ask ([14,0] ++ List.replicate 22 255)), ({ready with trust.lc := [7,7,0,0,0]} : State), admitted_of (by decide +kernel), by decide +kernel⟩,
   ⟨(ask ([16,0] ++ zeros 22)), ready, admitted_of (by decide +kernel), by decide +kernel⟩⟩

theorem test_met_UpdateCommands :
    (∃ (rq : Req) (s : State), Admitted Cmd.updShow 0 rq s)
    ∧ (∃ (rq : Req) (s : State), Admitted Cmd.updStage 8 rq s ∧ (arg rq 0 1 ≤ 3 ∧ arg rq 1 1 ≤ 1
        ∧ s.copyBusy (arg rq 0 1) (arg rq 1 1) = false ∧ (arg rq 4 4 = 0 ∨ arg rq 4 4 = (s.image (arg rq 0 1) (arg rq 1 1)).length)
        ∧ arg rq 4 4 + rq.payload.length ≤ regionBytes (arg rq 0 1) + 8 ∧ 8 ≤ rq.payload.length ∧ rq.payload.length ≤ 1020))
    ∧ (∃ (rq : Req) (s : State), Admitted Cmd.updStage 8 rq s ∧ (3 < arg rq 0 1 ∨ 1 < arg rq 1 1 ∨ s.copyBusy (arg rq 0 1) (arg rq 1 1) = true))
    ∧ (∃ (rq : Req) (s : State), Admitted Cmd.updVerify 2 rq s ∧ s.jobRoom rq ∧ arg rq 0 1 ≤ 3 ∧ arg rq 1 1 ≤ 1 ∧ s.upd.verify = none)
    ∧ (∃ (rq : Req) (s : State), Admitted Cmd.updActivate 2 rq s ∧ s.jobRoom rq ∧ arg rq 0 1 ≤ 4 ∧ arg rq 1 1 ≤ 1
        ∧ nth s.upd.verdicts (2 * engineOf (arg rq 0 1) + arg rq 1 1) none = some 0 ∧ s.upd.act = none
        ∧ s.conflicts (arg rq 0 1) (arg rq 1 1) = false)
    ∧ (∃ (rq : Req) (s : State), Admitted Cmd.updActivate 2 rq s ∧ arg rq 0 1 ≤ 4 ∧ arg rq 1 1 ≤ 1
        ∧ nth s.upd.verdicts (2 * engineOf (arg rq 0 1) + arg rq 1 1) none = some 0 ∧ s.upd.act ≠ none)
    ∧ (∃ (rq : Req) (s : State), Admitted Cmd.updRevert 1 rq s ∧ s.jobRoom rq ∧ arg rq 0 1 ≤ 4
        ∧ nth s.upd.verdicts (2 * engineOf (arg rq 0 1) + s.activeCopy (arg rq 0 1)) none = some 0 ∧ s.upd.act = none
        ∧ s.conflicts (arg rq 0 1) (s.activeCopy (arg rq 0 1)) = false)
    ∧ (∃ (rq : Req) (s : State), Admitted Cmd.updCommit 1 rq s ∧ s.jobRoom rq ∧ s.upd.act = none ∧ s.upd.commit = none)
    ∧ (∃ (rq : Req) (s : State), Admitted Cmd.updCommit 1 rq s ∧ (s.upd.act ≠ none ∨ s.upd.commit ≠ none))
    ∧ (∃ (rq : Req) (s : State), Admitted Cmd.updKeymanPut 4 rq s ∧ 5 ≤ rq.payload.length ∧ rq.payload.length ≤ 1024
        ∧ arg rq 2 2 + rq.payload.length ≤ 2053 ∧ arg rq 0 1 ≤ 31 ∧ s.slotState (arg rq 0 1) ≠ 1)
    ∧ (∃ (s : State) (via : Via) (h : Nat) (j : Job) (e : Nat) (c : Nat), s.awake = true
        ∧ (((s.chan (viaChan via)).jobs.find? fun j => j.handle == h && j.result == none) = some j) ∧ j.opcode = 0x1103
        ∧ s.upd.verify = some (via, h, e, c) ∧ e ≤ 3 ∧ c ≤ 1 ∧ s.upd.verdicts.length = 8)
    ∧ (∃ (s : State) (via : Via) (h : Nat) (j : Job) (c : Commit), s.awake = true
        ∧ (((s.chan (viaChan via)).jobs.find? fun j => j.handle == h && j.result == none) = some j) ∧ j.opcode = 0x1106
        ∧ s.upd.commit = some c ∧ c.via = via ∧ c.handle = h) :=
  ⟨⟨(ask []), ready, admitted_of (by decide +kernel)⟩,
   ⟨(ask ([1,1,0,0,0,0,0,0,9])), ready, admitted_of (by decide +kernel), by decide +kernel⟩,
   ⟨(ask ([4,1,0,0,0,0,0,0,9])), ready, admitted_of (by decide +kernel), by decide +kernel⟩,
   ⟨(ask [1,1]), ready, admitted_of (by decide +kernel), by decide +kernel⟩,
   ⟨(ask [2,1]), ({ready with upd.verdicts := List.replicate 8 (some 0)} : State), admitted_of (by decide +kernel), by decide +kernel⟩,
   ⟨(ask [2,1]), ({ready with upd.act := some (⟨2,1,false,.spi,1,0,8,0⟩ : Activation), upd.verdicts := List.replicate 8 (some 0)} : State), admitted_of (by decide +kernel), by decide +kernel⟩,
   ⟨(ask [2]), ({ready with upd.verdicts := List.replicate 8 (some 0)} : State), admitted_of (by decide +kernel), by decide +kernel⟩,
   ⟨(ask [0]), ready, admitted_of (by decide +kernel), by decide +kernel⟩,
   ⟨(ask [0]), ({ready with upd.act := some (⟨2,1,false,.spi,1,0,8,0⟩ : Activation), upd.verdicts := List.replicate 8 (some 0)} : State), admitted_of (by decide +kernel), by decide +kernel⟩,
   ⟨(ask ([9,0,0,0,1,2,3])), ready, admitted_of (by decide +kernel), by decide +kernel⟩,
   ⟨({ready with mbx.loc.jobs := [(⟨1,.spi,0x1103,none,none,0⟩ : Job)], upd.verify := some (.spi,1,2,1)} : State), Via.spi, 1, (⟨1,.spi,0x1103,none,none,0⟩ : Job), 2, 1, by decide +kernel⟩,
   ⟨({ready with mbx.loc.jobs := [(⟨1,.spi,0x1106,none,none,0⟩ : Job)], upd.commit := some ⟨.spi,1,.erased,1⟩} : State), Via.spi, 1, (⟨1,.spi,0x1106,none,none,0⟩ : Job), (⟨.spi,1,.erased,1⟩ : Commit), by decide +kernel⟩⟩

theorem test_met_Activations :
    (∃ (s : State) (a : Activation), s.awake = true ∧ s.upd.act = some a ∧ 2 ≤ a.inst ∧ a.inst ≤ 4 ∧ a.phase = 0 ∧ s.instQuiet a = true
        ∧ nth s.upd.verdicts (2 * engineOf a.inst + a.copy) none = some 0 ∧ s.conflicts a.inst a.copy = false)
    ∧ (∃ (s : State) (a : Activation), s.awake = true ∧ s.upd.act = some a ∧ a.inst = 0 ∧ a.phase = 0 ∧ s.instQuiet a = true
        ∧ nth s.upd.verdicts a.copy none = some 0 ∧ s.conflicts 0 a.copy = false)
    ∧ (∃ (s : State) (a : Activation), s.awake = true ∧ s.upd.act = some a ∧ s.instQuiet a = false)
    ∧ (∃ (s : State) (a : Activation), s.awake = true ∧ s.upd.act = some a ∧ a.phase = 0
        ∧ s.passed a.since (msTicks (s.cv Fld.UPD_WAIT_MS)) = true)
    ∧ (∃ (s : State) (a : Activation), s.awake = true ∧ s.upd.act = some a ∧ s.passed a.since (msTicks (s.cv Fld.UPD_WAIT_MS)) = false)
    ∧ (∃ (s : State) (a : Activation), s.awake = true ∧ s.upd.act = some a ∧ a.inst = 0 ∧ a.phase = 1 ∧ s.boot.stage = 3
        ∧ imgMinEpoch 3 (s.image 0 a.copy) ≤ imgEpoch 3 (s.runningImage 0) ∧ tickDiff s.time.tick a.since ≤ s.cv Fld.HANDOVER_LIMIT_TICKS)
    ∧ (∃ (s : State) (a : Activation), s.awake = true ∧ s.upd.act = some a ∧ a.inst = 0 ∧ a.phase = 1 ∧ s.boot.stage = 3
        ∧ s.passed a.since (s.cv Fld.HANDOVER_LIMIT_TICKS) = true)
    ∧ (∃ (s : State) (a : Activation), s.awake = true ∧ s.upd.act = some a ∧ s.passed a.since (s.cv Fld.HANDOVER_LIMIT_TICKS) = false)
    ∧ (∃ (s : State), s.awake = true ∧ s.fwRuns = true ∧ s.cv Fld.UPD_AUTOCOMMIT_S ≠ 0 ∧ s.upd.act = none ∧ s.upd.commit = none
        ∧ s.cv Fld.UPD_AUTOCOMMIT_S * 32000 ≤ tickDiff s.time.tick s.upd.cleanSince ∧ (∃ i < 5, nth s.upd.stopped i false = false
        ∧ nth s.upd.running i 0 ≠ s.activeCopy i))
    ∧ (∃ (s : State), s.awake = true ∧ (∀ i < 5, nth s.upd.running i 0 = s.activeCopy i)) :=
  ⟨⟨({ready with upd.act := some (⟨2,1,false,.spi,1,0,8,0⟩ : Activation), upd.verdicts := List.replicate 8 (some 0)} : State), (⟨2,1,false,.spi,1,0,8,0⟩ : Activation), by decide +kernel⟩,
   ⟨({ready with upd.act := some (⟨0,1,false,.spi,1,0,8,0⟩ : Activation), upd.verdicts := List.replicate 8 (some 0)} : State), (⟨0,1,false,.spi,1,0,8,0⟩ : Activation), by decide +kernel⟩,
   ⟨({ready with upd.act := some (⟨1,1,false,.spi,1,0,3,0⟩ : Activation), upd.verdicts := List.replicate 8 (some 0), svc.cores := List.replicate 8 ⟨2,0,0,none,false,0⟩} : State), (⟨1,1,false,.spi,1,0,3,0⟩ : Activation), by decide +kernel⟩,
   ⟨({late with upd.act := some (⟨2,1,false,.spi,1,0,8,0⟩ : Activation), upd.verdicts := List.replicate 8 (some 0)} : State), (⟨2,1,false,.spi,1,0,8,0⟩ : Activation), by decide +kernel⟩,
   ⟨({ready with upd.act := some (⟨2,1,false,.spi,1,0,8,0⟩ : Activation), upd.verdicts := List.replicate 8 (some 0)} : State), (⟨2,1,false,.spi,1,0,8,0⟩ : Activation), by decide +kernel⟩,
   ⟨({ready with upd.act := some (⟨0,1,false,.spi,1,1,8,0⟩ : Activation), upd.verdicts := List.replicate 8 (some 0), boot.stage := 3} : State), (⟨0,1,false,.spi,1,1,8,0⟩ : Activation), by decide +kernel⟩,
   ⟨({late with upd.act := some (⟨0,1,false,.spi,1,1,8,0⟩ : Activation), upd.verdicts := List.replicate 8 (some 0), boot.stage := 3} : State), (⟨0,1,false,.spi,1,1,8,0⟩ : Activation), by decide +kernel⟩,
   ⟨({ready with upd.act := some (⟨0,1,false,.spi,1,1,8,0⟩ : Activation), upd.verdicts := List.replicate 8 (some 0), boot.stage := 3} : State), (⟨0,1,false,.spi,1,1,8,0⟩ : Activation), by decide +kernel⟩,
   ⟨({setc Fld.UPD_AUTOCOMMIT_S 1 ready with upd.running := [1,0,0,0,0], time.tick := 64000} : State), by decide +kernel⟩,
   ⟨ready, by decide +kernel⟩⟩

theorem test_met_Recorder :
    (∃ (s : State), s.awake = true ∧ (s.rcd.mode = 1 ∨ s.rcd.mode = 2) ∧ s.mem.lpddr = .active ∧ s.snapNow = true)
    ∧ (∃ (s : State), s.awake = true ∧ s.snapNow = false)
    ∧ (∃ (s : State), s.awake = true ∧ (s.rcd.mode = 0 ∨ s.rcd.mode = 3 ∨ s.mem.lpddr ≠ .active) ∧ s.rcd.mode ≤ 3)
    ∧ (∃ (s : State), s.awake = true ∧ (s.rcd.mode = 1 ∨ s.rcd.mode = 2) ∧ s.mem.lpddr = .active ∧ s.rcd.dropped = 0)
    ∧ (∃ (s : State), s.awake = true ∧ (s.rcd.mode = 1 ∨ s.rcd.mode = 2) ∧ s.mem.lpddr = .active ∧ s.rcd.dropped ≠ 0 ∧ s.rcd.gapTick = none)
    ∧ (∃ (s : State), s.awake = true ∧ s.rcd.mode = 2 ∧ s.passed s.rcd.trigAt (s.cv Fld.REC_POST_TICKS) = true)
    ∧ (∃ (s : State), s.awake = true ∧ (s.rcd.mode ≠ 2 ∨ s.passed s.rcd.trigAt (s.cv Fld.REC_POST_TICKS) = false))
    ∧ (∃ (s : State) (r : Via × Nat × Nat × Nat), s.awake = true ∧ s.rcd.replay = some r)
    ∧ (∃ (rq : Req) (s : State), Admitted Cmd.recShow 0 rq s)
    ∧ (∃ (rq : Req) (s : State), Admitted Cmd.recFreeze 1 rq s ∧ arg rq 0 1 = 0 ∧ s.rcd.mode = 1)
    ∧ (∃ (rq : Req) (s : State), Admitted Cmd.recFreeze 1 rq s ∧ arg rq 0 1 = 1 ∧ s.rcd.mode = 3 ∧ s.cv Fld.REC_ENABLE = 1)
    ∧ (∃ (rq : Req) (s : State), Admitted Cmd.recFreeze 1 rq s ∧ 1 < arg rq 0 1)
    ∧ (∃ (rq : Req) (s : State) (x : Spore), Admitted Cmd.recRead 8 rq s ∧ 1 ≤ arg rq 2 1 ∧ arg rq 2 1 ≤ 15 ∧ arg rq 0 1 = 0 ∧ s.rcd.mode = 3
        ∧ x ∈ s.rcd.ring ∧ x.seq.toNat = arg rq 4 4)
    ∧ (∃ (rq : Req) (s : State) (x : Snapshot), Admitted Cmd.recRead 8 rq s ∧ 1 ≤ arg rq 2 1 ∧ arg rq 2 1 ≤ 15 ∧ arg rq 0 1 = 1
        ∧ nth s.rcd.snaps (arg rq 1 1) none = some x ∧ arg rq 4 4 < 0x118000)
    ∧ (∃ (rq : Req) (s : State), Admitted Cmd.recRead 8 rq s ∧ (15 < arg rq 2 1 ∨ 1 < arg rq 0 1))
    ∧ (∃ (rq : Req) (s : State) (j : Nat), Admitted Cmd.recReplay 8 rq s ∧ s.jobRoom rq ∧ arg rq 0 1 ≤ 7 ∧ s.cv Fld.REC_ENABLE ≠ 0
        ∧ s.svc.on = true ∧ (∃ k < 8, s.coreEnabled k = true) ∧ s.rcd.mode = 3 ∧ s.replayable (arg rq 0 1) = true ∧ s.rcd.replay = none
        ∧ s.place 2 125 3 none = some j)
    ∧ (∃ (rq : Req) (s : State), Admitted Cmd.recReplay 8 rq s ∧ s.rcd.mode ≠ 3) :=
  ⟨⟨({ready with rcd.mode := 1, mem.lpddr := .active, rcd.snapDue := true} : State), by decide +kernel⟩,
   ⟨({ready with time.slot := 5} : State), by decide +kernel⟩,
   ⟨({ready with rcd.mode := 3} : State), by decide +kernel⟩,
   ⟨({ready with rcd.mode := 1, mem.lpddr := .active, rcd.buffer := [⟨5,0,0,1,0,0,[1,2]⟩]} : State), by decide +kernel⟩,
   ⟨({ready with rcd.mode := 1, mem.lpddr := .active, rcd.buffer := [⟨5,0,0,1,0,0,[1,2]⟩], rcd.dropped := 5} : State), by decide +kernel⟩,
   ⟨({late with rcd.mode := 2} : State), by decide +kernel⟩,
   ⟨ready, by decide +kernel⟩,
   ⟨({ready with rcd.replay := some ((Via.spi,1,0,5))} : State), ((Via.spi,1,0,5)), by decide +kernel⟩,
   ⟨(ask []), ready, admitted_of (by decide +kernel)⟩,
   ⟨(ask [0]), ({ready with rcd.mode := 1} : State), admitted_of (by decide +kernel), by decide +kernel⟩,
   ⟨(ask [1]), ({setc Fld.REC_ENABLE 1 ready with rcd.mode := 3} : State), admitted_of (by decide +kernel), by decide +kernel⟩,
   ⟨(ask [2]), ready, admitted_of (by decide +kernel), by decide +kernel⟩,
   ⟨(ask [0,0,2,0,5,0,0,0]), ({ready with rcd.mode := 3, rcd.ring := [⟨6,0,0,1,0,0,[1,2]⟩,(⟨5,0,0,1,0,0,[1,2]⟩ : Spore)]} : State), (⟨5,0,0,1,0,0,[1,2]⟩ : Spore), admitted_of (by decide +kernel), by decide +kernel⟩,
   ⟨(ask [1,0,2,0,5,0,0,0]), ({ready with rcd.snaps := [some (⟨3,5,[]⟩ : Snapshot)]} : State), (⟨3,5,[]⟩ : Snapshot), admitted_of (by decide +kernel), by decide +kernel⟩,
   ⟨(ask [2,0,2,0,5,0,0,0]), ready, admitted_of (by decide +kernel), by decide +kernel⟩,
   ⟨(ask [0,0,0,0,9,0,0,0]), ({setc Fld.REC_ENABLE 1 ready with rcd.mode := 3, svc.on := true, rcd.ring := [⟨5,0,0,1,0,0,[1,2]⟩], rcd.snaps := [some (⟨3,5,[]⟩ : Snapshot)]} : State), ((({setc Fld.REC_ENABLE 1 ready with rcd.mode := 3, svc.on := true, rcd.ring := [⟨5,0,0,1,0,0,[1,2]⟩], rcd.snaps := [some (⟨3,5,[]⟩ : Snapshot)]} : State).place 2 125 3 none).getD 0), admitted_of (by decide +kernel), by decide +kernel⟩,
   ⟨(ask [0,0,0,0,9,0,0,0]), ready, admitted_of (by decide +kernel), by decide +kernel⟩⟩

theorem test_met_LifeCycleFuses :
    (∃ s : State, s.trust.lc.length = 5)
    ∧ (∃ s t : State, s.trust.lc.length = 5 ∧ (∀ k ≤ s.lifecycle, nth t.trust.lc k 0 = nth s.trust.lc k 0) ∧ t.trust.lc.length = 5 ∧ t ≠ s) :=
  ⟨⟨ready, by decide +kernel⟩,
   ⟨ready, { ready with trust.lc := [0, 7, 0, 0, 0] }, by decide +kernel⟩⟩

theorem test_met_KeyManifest :
    ∃ (rq : Req) (s : State), Admitted Cmd.updKeymanPut 4 rq s ∧ 5 ≤ rq.payload.length ∧ rq.payload.length ≤ 1024
        ∧ arg rq 2 2 + rq.payload.length ≤ 2053 ∧ arg rq 0 1 ≤ 31 :=
  ⟨(ask ([9,0,0,0,1,2,3])), ready, admitted_of (by decide +kernel), by decide +kernel⟩

theorem test_met_BayFaultCount :
    (∃ (s : State) (b : Nat) (n : Nat), s.pwrLive = true ∧ b ≤ 3 ∧ b < s.ppath.bays.length
        ∧ ((s.bay b).state = .ramp ∨ (s.bay b).state = .limit ∨ (s.bay b).state = .on) ∧ (s.bay b).state = .limit
        ∧ (s.bay b).faultMs * 1000 ≤ (s.bay b).count + n)
    ∧ (∃ (s : State) (b : Nat) (n : Nat), s.pwrLive = true ∧ b ≤ 3 ∧ b < s.ppath.bays.length
        ∧ ((s.bay b).state = .ramp ∨ (s.bay b).state = .limit ∨ (s.bay b).state = .on) ∧ (s.bay b).state = .limit
        ∧ (s.bay b).count + n < (s.bay b).faultMs * 1000)
    ∧ (∃ (s : State) (b : Nat), s.pwrLive = true ∧ b ≤ 3 ∧ b < s.ppath.bays.length
        ∧ ((s.bay b).state = .ramp ∨ (s.bay b).state = .limit ∨ (s.bay b).state = .on) ∧ (s.bay b).state ≠ .limit
        ∧ (s.bay b).count ≤ (s.bay b).faultMs * 1000)
    ∧ (∃ (s : State) (b : Nat) (ma : Nat), s.pwrLive = true ∧ b ≤ 3 ∧ b < s.ppath.bays.length
        ∧ ((s.bay b).state = .ramp ∨ (s.bay b).state = .limit ∨ (s.bay b).state = .on) ∧ 2 * (s.bay b).ilim < ma) :=
  ⟨⟨(by' nomap 3 (fun b => {b with state := .limit, par := [3000,1,20,1000,3,1,115,1,1,1,1]})), 3, 20000, by decide +kernel⟩,
   ⟨(by' nomap 3 (fun b => {b with state := .limit, par := [3000,1,20,1000,3,1,115,1,1,1,1]})), 3, 19999, by decide +kernel⟩,
   ⟨(by' nomap 3 (fun b => {b with state := .on, count := 77, par := [3000,1,20,1000,3,1,115,1,1,1,1]})), 3, by decide +kernel⟩,
   ⟨(by' nomap 3 (fun b => {b with state := .ramp, par := [3000,1,20,1000,3,1,115,1,1,1,1]})), 3, 7000, by decide +kernel⟩⟩

theorem test_met_LichenWordLost :
    (∃ (off : Nat), 0x1000 ≤ off ∧ off < 0x11000)
    ∧ (∃ (off : Nat), 0x11000 ≤ off ∧ off < 0x12000)
    ∧ (∃ (s : State) (off : Nat) (k : Nat), 0x12000 ≤ off ∧ off < 0x32000 ∧ k < 9 ∧ listAt (off - 0x12000) = k ∧ k < s.pwr.saved.length)
    ∧ (∃ (s : State) (off : Nat), (off < 0x800 ∨ (0x950 ≤ off ∧ off < 0x1000) ∨ 0x32000 ≤ off) ∧ s.pwr.goal = 3)
    ∧ (∃ off : Nat, 0x800 ≤ off ∧ off < 0x950)
    ∧ (∃ o : Nat, 16 ≤ o ∧ o < 80) :=
  ⟨⟨0x1000, by decide +kernel⟩,
   ⟨0x11000, by decide +kernel⟩,
   ⟨({ready with pwr.goal := 3, cfg.ovr := [{ layer := 0, ty := 2, id := 1, val := 1, port := 0 }], pwr.valid := true, pwr.saved := List.replicate 9 true, mem.trained := true, fault.log := [⟨1,2,3,4,5,6⟩], fault.counts := List.replicate 64 5} : State), 0x2A000, 8, by decide +kernel⟩,
   ⟨{ ready with pwr.goal := 3 }, 0xFF8, by decide +kernel⟩,
   ⟨0x94F, by decide⟩,
   ⟨79, by decide⟩⟩

end Sys2Proof.Tests
end

/-! Event queues, the recorder's copy of an event, the status word of a reply, and the counted LOCAL request (R53 to R56, R60, R62, R565). -/
namespace Sys2Proof.Machine

/-! ### The order of events in a queue (R565) -/

/-- The events of the slot in which `e` was raised. -/
def EventEntry.ofSlot (e v : EventEntry) : Bool := v.tick == e.tick && v.slot == e.slot

/-- Events of one slot stand in ascending number. -/
def SlotOrdered (l : List EventEntry) : Prop :=
  l.Pairwise fun a b => a.tick = b.tick → a.slot = b.slot → a.num ≤ b.num

theorem EventEntry.ofSlot_iff {e v : EventEntry} : e.ofSlot v = true ↔ v.tick = e.tick ∧ v.slot = e.slot := by
  simp [EventEntry.ofSlot]

/-- An event stops in front of the first one of its slot that has a higher number. -/
theorem enterEvent_cons_stop {e v : EventEntry} (h : e.ofSlot v = true) (hn : e.num < v.num) (l : List EventEntry) :
    enterEvent e (v :: l) = e :: v :: l :=
  if_pos ((Bool.and_eq_true _ _).mpr ⟨h, decide_eq_true hn⟩)

/-- An event passes any other. -/
theorem enterEvent_cons_pass {e v : EventEntry} (h : e.ofSlot v = true → v.num ≤ e.num) (l : List EventEntry) :
    enterEvent e (v :: l) = v :: enterEvent e l :=
  if_neg fun hc => by
    obtain ⟨hs, hn⟩ := (Bool.and_eq_true _ _).mp hc
    exact absurd (of_decide_eq_true hn) (Nat.not_lt.mpr (h hs))

/-- The two ways in which an event meets the first of a queue. -/
theorem stops_or_passes (e v : EventEntry) :
    (e.ofSlot v = true ∧ e.num < v.num) ∨ (e.ofSlot v = true → v.num ≤ e.num) := by
  by_cases h : e.num < v.num
  · by_cases hs : e.ofSlot v = true
    · exact .inl ⟨hs, h⟩
    · exact .inr fun hc => absurd hc hs
  · exact .inr fun _ => Nat.not_lt.mp h

theorem SlotOrdered.enterEvent {e : EventEntry} {l : List EventEntry} (h : SlotOrdered l) : SlotOrdered (enterEvent e l) := by
  induction l with
  | nil => exact List.pairwise_singleton _ _
  | cons v l ih =>
    obtain ⟨hv, hl⟩ := List.pairwise_cons.mp h
    rcases stops_or_passes e v with ⟨hs, hn⟩ | hp
    · rw [enterEvent_cons_stop hs hn]
      obtain ⟨ht, hsl⟩ := EventEntry.ofSlot_iff.mp hs
      refine List.pairwise_cons.mpr ⟨fun w hw hwt hws => ?_, h⟩
      rcases List.mem_cons.mp hw with rfl | hw
      · exact hn.le
      · exact hn.le.trans (hv w hw (ht.trans hwt) (hsl.trans hws))
    · rw [enterEvent_cons_pass hp]
      refine List.pairwise_cons.mpr ⟨fun w hw hwt hws => ?_, ih hl⟩
      rcases (mem_enterEvent e w l).mp hw with rfl | hw
      · exact hp (EventEntry.ofSlot_iff.mpr ⟨hwt, hws⟩)
      · exact hv w hw hwt hws

theorem enterEvent_perm (e : EventEntry) (l : List EventEntry) : (enterEvent e l).Perm (e :: l) := by
  induction l with
  | nil => exact .refl _
  | cons v l ih =>
    rcases stops_or_passes e v with ⟨hs, hn⟩ | hp
    · rw [enterEvent_cons_stop hs hn]
    · rw [enterEvent_cons_pass hp]
      exact (ih.cons v).trans (.swap e v l)

/-- The events of other slots keep their order. -/
theorem enterEvent_filter_other (e : EventEntry) (l : List EventEntry) :
    (enterEvent e l).filter (fun v => !e.ofSlot v) = l.filter fun v => !e.ofSlot v := by
  have he : e.ofSlot e = true := EventEntry.ofSlot_iff.mpr ⟨rfl, rfl⟩
  induction l with
  | nil => simp [enterEvent, he]
  | cons v l ih =>
    rcases stops_or_passes e v with ⟨hs, hn⟩ | hp
    · rw [enterEvent_cons_stop hs hn, List.filter_cons_of_neg (by simp [he])]
    · rw [enterEvent_cons_pass hp, List.filter_cons, List.filter_cons, ih]

/-- An event of a new slot goes last. -/
theorem enterEvent_eq_append {e : EventEntry} {l : List EventEntry} (h : ∀ v ∈ l, e.ofSlot v = false) :
    enterEvent e l = l ++ [e] := by
  induction l with
  | nil => rfl
  | cons v l ih =>
    obtain ⟨hv, hl⟩ := List.forall_mem_cons.mp h
    rw [enterEvent_cons_pass fun hc => absurd hc (by simp [hv]), ih hl, List.cons_append]

/-! ### One event on one mailbox (R54, R55) -/

theorem ChanSt.enter_of_room {c : ChanSt} {e : EventEntry} (hm : c.mask.getLsbD e.num = true) (hr : c.queue.length < 255) :
    c.enter e = { c with queue := enterEvent e c.queue, attn := true } := by
  simp [ChanSt.enter, hm, hr]

theorem ChanSt.enter_of_full {c : ChanSt} {e : EventEntry} (hm : c.mask.getLsbD e.num = true) (hf : 255 ≤ c.queue.length) :
    c.enter e = { c with lost := min 65535 (c.lost + 1) } := by
  simp [ChanSt.enter, hm, Nat.not_lt.mpr hf, satAdd, min_comm]

theorem ChanSt.enter_of_masked {c : ChanSt} {e : EventEntry} (hm : c.mask.getLsbD e.num = false) : c.enter e = c := by
  simp [ChanSt.enter, hm]

/-- An event raised is entered on each of the four mailboxes. -/
theorem State.raise_chan (s : State) (n a : Nat) {c : Chan} (hc : c ∈ mailboxes) :
    (s.raise n a).chan c = (s.chan c).enter (s.event n a) := by
  cases c with
  | gate => exact absurd hc (by decide)
  | _ => simp only [State.chan, State.raise_mbx]

/-! ### The recorder's copy of an event (R55, R525) -/

theorem eventBytes_length (e : EventEntry) : (eventBytes e).length = 16 := rfl

/-- An input of at most 40 bytes is one spore, FIRST and LAST (Table 20.9). -/
theorem State.spore_short (s : State) (k c : Nat) {bs : List Byte} (h : bs.length ≤ 40) : s.spore k c bs = s.spore1 k c 3 bs := by
  simp [State.spore, sporeChunks, h, b2n]

/-- A spore written to the ring stands first in it. -/
theorem State.spore1_head {s : State} (k c f : Nat) (p : List Byte) (hm : s.rcd.mode = 1 ∨ s.rcd.mode = 2)
    (hl : s.mem.lpddr = .active) (hb : s.rcd.buffer = []) (hc : 0 < ringCap s) :
    (s.spore1 k c f p).rcd.ring.head? = some ⟨s.rcd.nextSeq, s.time.tick, s.time.slot, k, c, f, p⟩ := by
  have hon : (s.rcd.mode == 0 || s.rcd.mode == 3) = false := by rcases hm with h | h <;> simp [h]
  simp [State.spore1, hon, hl, hb, List.head?_take, hc.ne']

@[simp] theorem State.recTrigger_ring (s : State) (c : Nat) : (s.recTrigger c).rcd.ring = s.rcd.ring := by
  unfold State.recTrigger; split_ifs <;> rfl

/-- The state in which an event has entered the mailboxes and the runtime's queues, before it is recorded. -/
def State.delivered (s : State) (n a : Nat) : State :=
  { s with
    mbx := { s.mbx with
      loc := s.mbx.loc.enter (s.event n a), tun := s.mbx.tun.enter (s.event n a)
      peer := s.mbx.peer.enter (s.event n a), dbg := s.mbx.dbg.enter (s.event n a) }
    svc := { s.svc with insts := s.svc.insts.map fun i => i.deliver (s.event n a) } }

/-- An event raised is delivered, recorded, and may trigger a freeze (R528). -/
theorem State.raise_eq (s : State) (n a : Nat) :
    s.raise n a =
      let t := (s.delivered n a).spore 2 0 (eventBytes (s.event n a))
      if bitAt (s.cv Fld.REC_FREEZE_MASK) n then t.recTrigger n else t := by
  have hcv : ((s.delivered n a).spore 2 0 (eventBytes (s.event n a))).cv Fld.REC_FREEZE_MASK = s.cv Fld.REC_FREEZE_MASK :=
    State.cv_congr (by simp [State.delivered]) (by simp [State.delivered]) (by simp [State.delivered]) _
  rw [← hcv]
  rfl

theorem State.raise_ring (s : State) (n a : Nat) :
    (s.raise n a).rcd.ring = ((s.delivered n a).spore 2 0 (eventBytes (s.event n a))).rcd.ring := by
  rw [State.raise_eq]
  dsimp only
  split_ifs
  · exact State.recTrigger_ring _ _
  · rfl

theorem ringCap_delivered (s : State) (n a : Nat) : ringCap (s.delivered n a) = ringCap s := by
  unfold ringCap
  rw [State.cv_congr (s := s) (t := s.delivered n a) rfl rfl rfl]

/-- While it records with LPDDR active, the recorder keeps an event as the newest spore of its ring. -/
theorem State.raise_ring_head {s : State} (n a : Nat) (hm : s.rcd.mode = 1 ∨ s.rcd.mode = 2) (hl : s.mem.lpddr = .active)
    (hb : s.rcd.buffer = []) (hc : 0 < ringCap s) :
    (s.raise n a).rcd.ring.head?
      = some ⟨s.rcd.nextSeq, s.time.tick, s.time.slot, 2, 0, 3, eventBytes (s.event n a)⟩ := by
  rw [State.raise_ring, State.spore_short _ _ _ (by rw [eventBytes_length]; decide)]
  exact State.spore1_head (s := s.delivered n a) 2 0 3 _ hm hl hb (by rwa [ringCap_delivered])

/-! ### A reply and the status word (R53) -/

/-- The parts of a channel of which the status word speaks (R53). -/
def ChanSt.SameStatus (c d : ChanSt) : Prop := c.attn = d.attn ∧ c.queue = d.queue ∧ c.seq = d.seq

theorem statusWord_congr {c d : ChanSt} (h : c.SameStatus d) (p : Nat) (r : Role) (u v : Bool) :
    statusWord c p r u v = statusWord d p r u v := by
  obtain ⟨ha, hq, hs⟩ := h
  simp only [statusWord, ha, hq, hs]

/-- What keeps the hub's part of the status word and the channel's keeps the word. -/
theorem State.status_congr {s t : State} {c : Chan} (hc : c ≠ .gate) (h : (t.chan c).SameStatus (s.chan c))
    (hu : t.mbx.unatt = s.mbx.unatt) (hp : t.pwr = s.pwr) (ht : t.topo = s.topo) (hv : t.upd = s.upd) :
    t.status c = s.status c := by
  have hs : ∀ r : State, r.status c = statusWord (r.chan c) r.pwr.state r.topo.role r.mbx.unatt r.upd.untested := fun r => by
    cases c with
    | gate => exact absurd rfl hc
    | _ => rfl
  rw [hs, hs, statusWord_congr h, hu, hp, ht, hv]

@[simp] theorem State.modChan_mbx_unatt (s : State) (c : Chan) (f : ChanSt → ChanSt) : (s.modChan c f).mbx.unatt = s.mbx.unatt := by
  cases c <;> rfl

@[simp] theorem State.usbReady_chan (s : State) (k : List Nat) (c : Chan) : (s.usbReady k).chan c = s.chan c := by
  unfold State.usbReady
  rw [foldl_same _ (fun t : State => t.chan c) fun _ _ => State.emit_chan _ _ _]
  cases c <;> rfl

@[simp] theorem State.usbReady_mbx_unatt (s : State) (k : List Nat) : (s.usbReady k).mbx.unatt = s.mbx.unatt := by
  unfold State.usbReady
  exact foldl_same _ (fun t : State => t.mbx.unatt) (fun _ _ => by simp) _ _

/-- Holding a reply for its transport touches no channel. -/
@[simp] theorem State.holdReply_chan (s : State) (v : Via) (r : Reply) (c : Chan) : (s.holdReply v r).chan c = s.chan c := by
  cases v with
  | usb => simp only [State.holdReply]; split_ifs <;> rw [State.usbReady_chan] <;> cases c <;> rfl
  | _ => cases c <;> rfl

@[simp] theorem State.holdReply_mbx_unatt (s : State) (v : Via) (r : Reply) : (s.holdReply v r).mbx.unatt = s.mbx.unatt := by
  cases v with
  | usb => simp only [State.holdReply]; split_ifs <;> rw [State.usbReady_mbx_unatt]
  | _ => rfl

/-- A reply of the firmware leaves its channel's queue and count of lost events alone. -/
theorem State.fwReply_queue (s : State) (m : Msg) (rc : Rc) (h : Nat) (d : List Byte) :
    ((s.fwReply m rc h d).chan (viaChan m.rq.via)).queue = (s.chan (viaChan m.rq.via)).queue
      ∧ ((s.fwReply m rc h d).chan (viaChan m.rq.via)).lost = (s.chan (viaChan m.rq.via)).lost := by
  simp [State.fwReply, State.reply]

/-- The stored reply holds the status word that the channel shows with it (R53). -/
theorem State.fwReply_status (s : State) (m : Msg) (rc : Rc) (h : Nat) (d : List Byte) (hg : viaChan m.rq.via ≠ .gate) :
    ((s.fwReply m rc h d).chan (viaChan m.rq.via)).stored = some (s.reply m.rq.via m.rq.tag rc.code h d).1
      ∧ (s.reply m.rq.via m.rq.tag rc.code h d).1.status = (s.fwReply m rc h d).status (viaChan m.rq.via) := by
  refine ⟨by simp [State.fwReply], ?_⟩
  exact State.status_congr hg (by simp [State.fwReply, State.reply, ChanSt.SameStatus]) (by simp [State.fwReply, State.reply])
    (by simp) (by simp) (by simp)

/-! ### The list of outputs plays no part in an event or a count -/

theorem State.delivered_begin (s : State) (n a : Nat) : s.begin.delivered n a = (s.delivered n a).begin := rfl

theorem State.spore1_begin (s : State) (k c f : Nat) (p : List Byte) : s.begin.spore1 k c f p = (s.spore1 k c f p).begin := by
  have hr : ringCap s.begin = ringCap s := by unfold ringCap; rw [State.cv_begin]
  unfold State.spore1
  rw [hr]
  simp only [apply_ite State.begin]
  rfl

theorem State.recTrigger_begin (s : State) (c : Nat) : s.begin.recTrigger c = (s.recTrigger c).begin := by
  unfold State.recTrigger
  simp only [apply_ite State.begin]
  rfl

theorem State.raise_begin (s : State) (n a : Nat) : s.begin.raise n a = (s.raise n a).begin := by
  have hlen : ∀ e, (eventBytes e).length ≤ 40 := fun e => by rw [eventBytes_length]; decide
  simp only [State.raise_eq, State.cv_begin, State.delivered_begin, State.spore_short _ _ _ (hlen _)]
  split_ifs
  · exact (congrArg (·.recTrigger n) (State.spore1_begin _ _ _ _ _)).trans (State.recTrigger_begin _ _)
  · exact State.spore1_begin _ _ _ _ _

theorem State.raiseIf_begin (s : State) (b : Bool) (n a : Nat) : s.begin.raiseIf b n a = (s.raiseIf b n a).begin := by
  cases b
  · rfl
  · exact State.raise_begin s n a

/-! ### A LOCAL request counted (R60, R62) -/

/-- The state in which a LOCAL request has been counted and UNATT is clear (R60, R62), but for the event. -/
def State.attended (s : State) : State :=
  { s with mbx := { s.mbx with unatt := false, sinceAttn := 0, firstLocal := true } }

theorem State.attended_begin (s : State) : s.begin.attended = s.attended.begin := rfl

/-- A LOCAL request is counted and ends UNATT, with EV006 where it was set. -/
theorem State.countLocal_spi (s : State) : s.countLocal .spi = s.attended.raiseIf s.mbx.unatt 6 0 := by
  cases hu : s.mbx.unatt with
  | true => simp [State.countLocal, State.raiseIf, State.attended, hu]
  | false => simp [State.countLocal, State.raiseIf, State.attended, hu]

theorem State.countLocal_of_ne {v : Via} (h : v ≠ .spi) (s : State) : s.countLocal v = s :=
  if_neg (by simpa using h)

theorem State.countLocal_begin (s : State) (v : Via) : s.begin.countLocal v = (s.countLocal v).begin := by
  by_cases hv : v = .spi
  · rw [hv, State.countLocal_spi, State.countLocal_spi, State.attended_begin, State.raiseIf_begin, State.begin_mbx]
  · rw [State.countLocal_of_ne hv, State.countLocal_of_ne hv]

/-! ### `sys.event.read` (R56) -/

theorem viaChan_ne_gate {v : Via} (h : ∀ i, v ≠ .gate i) : viaChan v ≠ .gate := by
  cases v with
  | gate i => exact absurd rfl (h i)
  | _ => simp [viaChan]

/-- A channel after a read of `n` of its entries. -/
def ChanSt.readEvents (c : ChanSt) (n : Nat) : ChanSt := { c with queue := c.queue.drop n, lost := 0, attn := false }

theorem State.heard_chan (row : CmdRow) (rq : Req) (s : State) (c : Chan) :
    (s.heard row rq).chan c = (s.countLocal rq.via).chan c := by
  rw [State.heard, State.spore_chan, State.countLocal_begin, State.begin_chan]

/-- A read of events on a mailbox: the entries and the lost count it answers are those that it takes, and the reply comes after. -/
theorem exec_sysEventRead {rq : Req} {s : State} (ha : Admitted Cmd.sysEventRead 1 rq s) (hg : ∀ i, rq.via ≠ .gate i)
    (h1 : 1 ≤ arg rq 0 1) (h63 : arg rq 0 1 ≤ 63) :
    exec (.sysEventRead rq) s =
      let u := s.heard Cmd.sysEventRead rq
      let q := u.chan (viaChan rq.via)
      .next ((u.modChan (viaChan rq.via) (·.readEvents (arg rq 0 1))).fwReply (msgOf rq Cmd.sysEventRead.opcode) .ok 0
        (eventReply (arg rq 0 1) q.lost q.queue)) := by
  have hn : (arg rq 0 1 == 0 || decide (63 < arg rq 0 1)) = false := by simp; omega
  show execSysEventRead rq s = _
  unfold execSysEventRead
  rw [command_run ha]
  simp only [hn, Bool.false_eq_true, if_false]
  cases hv : rq.via with
  | gate i => exact absurd hv (hg i)
  | _ => rfl

/-- A read of events takes the entries, the lost count and the status word in one step (R53, R56). -/
theorem sysEventRead_takes {rq : Req} {s : State} (ha : Admitted Cmd.sysEventRead 1 rq s) (hg : ∀ i, rq.via ≠ .gate i)
    (h1 : 1 ≤ arg rq 0 1) (h63 : arg rq 0 1 ≤ 63) :
    let q := (s.countLocal rq.via).chan (viaChan rq.via)
    ∃ t r, exec (.sysEventRead rq) s = .next t ∧ (t.chan (viaChan rq.via)).stored = some r ∧ Emit.reply rq.via r ∈ t.out
      ∧ r.status = t.status (viaChan rq.via) ∧ r.data = eventReply (arg rq 0 1) q.lost q.queue
      ∧ (t.chan (viaChan rq.via)).queue = q.queue.drop (arg rq 0 1) ∧ (t.chan (viaChan rq.via)).lost = 0 := by
  intro q
  have hq : (s.heard Cmd.sysEventRead rq).chan (viaChan rq.via) = q := State.heard_chan _ _ _ _
  have hx := exec_sysEventRead ha hg h1 h63
  simp only [hq] at hx
  generalize hu : (s.heard Cmd.sysEventRead rq).modChan (viaChan rq.via) (·.readEvents (arg rq 0 1)) = u at hx
  have huq : u.chan (viaChan rq.via) = q.readEvents (arg rq 0 1) := by rw [← hu, State.modChan_chan_self, hq]
  obtain ⟨hqueue, hlost⟩ :=
    State.fwReply_queue u (msgOf rq Cmd.sysEventRead.opcode) .ok 0 (eventReply (arg rq 0 1) q.lost q.queue)
  obtain ⟨hstored, hstatus⟩ :=
    State.fwReply_status u (msgOf rq Cmd.sysEventRead.opcode) .ok 0 (eventReply (arg rq 0 1) q.lost q.queue) (viaChan_ne_gate hg)
  obtain ⟨r, hr, hout, -, -, -, hdata⟩ :=
    State.fwReply_replied u Cmd.sysEventRead.opcode rq .ok 0 (eventReply (arg rq 0 1) q.lost q.queue)
  obtain rfl := Option.some.inj (hr.symm.trans hstored)
  exact ⟨_, _, hx, hr, hout, hstatus, hdata, hqueue.trans (congrArg ChanSt.queue huq), hlost.trans (congrArg ChanSt.lost huq)⟩

/-- Settles O6. R54 and R55 are the three ways in which a channel takes an event, R56 the one step of `sys.event.read`, R565 the
place of an event in its queue. In the statement, the test of its last `filter` reaches to the end: that the queue is a rearrangement, and
that an event of a new slot goes last, stand inside it, and both are shown to hold. -/
theorem eventQueues : Obligations.EventQueues := by
  refine ⟨⟨fun s n a c hc => ?_, fun s n a hm hl hb hcap => ?_, fun rq s ha hg h1 h63 => sysEventRead_takes ha hg h1 h63⟩,
    fun e l => ⟨SlotOrdered.enterEvent, (enterEvent_filter_other e l).trans (List.filter_congr fun v _ => ?_)⟩⟩
  · rw [State.raise_chan s n a hc]
    refine ⟨fun hm hr => ?_, fun hm hf => ?_, fun hm => ChanSt.enter_of_masked hm⟩
    · rw [ChanSt.enter_of_room hm hr]
      exact ⟨rfl, rfl, rfl⟩
    · rw [ChanSt.enter_of_full hm hf]
      exact ⟨rfl, rfl⟩
  · exact ⟨_, State.raise_ring_head n a hm hl hb hcap, rfl, rfl, rfl, rfl⟩
  · rw [Bool.eq_iff_iff, decide_eq_true_iff]
    exact ⟨fun hv => ⟨hv, enterEvent_perm e l, enterEvent_eq_append⟩, And.left⟩

/-! ### The end of UNATT (R62) -/

/-- Every mailbox command goes through the one shared operation (Table 22.7), with a body of its own. -/
theorem IsMailbox.exec_eq_command {cmd : Req → Instr} {row : CmdRow} {min : Nat} (h : IsMailbox cmd row min) (rq : Req) :
    ∃ body : Nat → State → Ans, ∀ s, exec (cmd rq) s = command row min rq s body := by
  cases h <;> exact ⟨_, fun _ => rfl⟩

theorem State.countLocal_flags (s : State) :
    (s.countLocal .spi).mbx.unatt = false ∧ (s.countLocal .spi).mbx.sinceAttn = 0 ∧ (s.countLocal .spi).mbx.firstLocal = true := by
  rw [State.countLocal_spi]
  unfold State.raiseIf
  split_ifs <;> simp [State.attended]

theorem State.attended_of_attended {s : State} (hu : s.mbx.unatt = false) (hs : s.mbx.sinceAttn = 0)
    (hf : s.mbx.firstLocal = true) : s.attended = s := by
  unfold State.attended
  rw [← hu, ← hs, ← hf]

/-- A request counted once more changes nothing: what counting writes stands already. -/
theorem State.countLocal_idem (s : State) (v : Via) : (s.countLocal v).countLocal v = s.countLocal v := by
  by_cases hv : v = .spi
  · obtain ⟨hu, hs, hf⟩ := s.countLocal_flags
    rw [hv, State.countLocal_spi (s.countLocal .spi), hu]
    exact State.attended_of_attended hu hs hf
  · rw [State.countLocal_of_ne hv, State.countLocal_of_ne hv]

theorem State.awake_countLocal (s : State) (v : Via) : (s.countLocal v).awake = s.awake := by
  simp [State.awake, State.powered, State.clockStands, State.asleep]

/-- A request counted before it arrives arrives as it would have: its arrival counts it, and counting twice is counting once. -/
theorem State.arriveRq_countLocal (s : State) (row : CmdRow) (min : Nat) (rq : Req) (body : Nat → State → Ans) :
    (s.countLocal rq.via).arriveRq row min rq body = s.arriveRq row min rq body := by
  unfold State.arriveRq
  rw [State.countLocal_idem]

/-- With no request before it, a command on the state in which its request has been counted does what it does. -/
theorem command_countLocal {s : State} (row : CmdRow) (min : Nat) (rq : Req) (hp : s.awake = true) (hw : s.mbx.waiting = [])
    (body : Nat → State → Ans) :
    command row min rq (s.countLocal rq.via) body = command row min rq s body := by
  have hc : ∀ t : State, t.awake = true → t.mbx.waiting = [] → command row min rq t body = .next (t.begin.arriveRq row min rq body) :=
    fun t ht htw => by
      unfold command run
      rw [runIf_live ht, State.begin_mbx, htw]
  rw [hc s hp hw, hc _ ((s.awake_countLocal _).trans hp) ((s.countLocal_mbx_waiting _).trans hw), ← State.countLocal_begin,
    State.arriveRq_countLocal]

/-- Settles O54: the state in which the request has been counted already is left alone by a second count, so the command runs alike on both. -/
theorem unattendedEnds : Obligations.UnattendedEnds := by
  intro cmd row min hcmd rq s hv hu ha
  obtain ⟨body, hx⟩ := hcmd.exec_eq_command rq
  have hc : s.countLocal .spi = s.attended.raise 6 0 := by rw [State.countLocal_spi, hu]; rfl
  refine ⟨?_, ?_, ?_, State.countLocal_cfg s .spi⟩
  · rw [hx, hx, ← hv]
    exact (command_countLocal row min rq ha.awake ha.idle body).symm
  · rw [hc, State.hush_raise]; rfl
  · rw [hc]
    exact heard_raise_of rfl rfl fun c => by cases c <;> exact ⟨rfl, le_rfl⟩

end Sys2Proof.Machine

/-! The header of a cell: bytes and the numbers they spell, a CRC as a fold over bits, and the places of the fields of Table 6.1 (R145). -/
namespace Sys2Proof.Machine

/-! ### Bytes and the numbers they spell (R5) -/

@[simp] theorem leBytes_length (n w : Nat) : (leBytes n w).length = n := by
  induction n generalizing w with
  | zero => rfl
  | succ n ih => simp [leBytes, ih]

@[simp] theorem beBytes_length (n w : Nat) : (beBytes n w).length = n := by simp [beBytes]

theorem leNat_append (a b : List Byte) : leNat (a ++ b) = leNat a + 256 ^ a.length * leNat b := by
  induction a with
  | nil => simp [leNat]
  | cons x a ih => rw [List.cons_append, leNat, ih, leNat, List.length_cons]; ring

theorem leNat_leBytes (n w : Nat) : leNat (leBytes n w) = w % 256 ^ n := by
  induction n generalizing w with
  | zero => simp [leBytes, leNat, Nat.mod_one]
  | succ n ih => rw [leBytes, leNat, ih, BitVec.toNat_ofNat, pow_succ' 256 n, Nat.mod_mul]

/-- Most significant first, the bytes in front are the higher ones. -/
theorem beNat_append (a b : List Byte) : beNat (a ++ b) = beNat a * 256 ^ b.length + beNat b := by
  rw [beNat, List.reverse_append, leNat_append, List.length_reverse, beNat, beNat]; ring

theorem beNat_beBytes (n w : Nat) : beNat (beBytes n w) = w % 256 ^ n := by
  rw [beNat, beBytes, List.reverse_reverse, leNat_leBytes]

theorem beBytes_succ (n w : Nat) : beBytes (n + 1) w = beBytes n (w / 256) ++ [BitVec.ofNat 8 w] := by
  simp [beBytes, leBytes]

/-! ### A CRC over bits -/

theorem bitAt_eq_testBit (w k : Nat) : bitAt w k = w.testBit k := by
  rw [Nat.testBit_eq_decide_div_mod_eq]; rfl

/-- The lowest `n` bits of `w` in the order in which they are sent, the most significant first. -/
def msbFirst (n w : Nat) : List Bool := (List.range n).map fun k => w.testBit (n - 1 - k)

theorem msbFirst_div (m n w : Nat) :
    msbFirst m (w / 2 ^ n) = (List.range m).map fun k => w.testBit (m + n - 1 - k) :=
  List.map_congr_left fun k hk => by
    have hk : k < m := List.mem_range.mp hk
    rw [Nat.testBit_div_two_pow]
    congr 1; omega

theorem msbFirst_add (m n w : Nat) : msbFirst (m + n) w = msbFirst m (w / 2 ^ n) ++ msbFirst n w := by
  rw [msbFirst_div, msbFirst, List.range_add, List.map_append, List.map_map]
  refine congrArg _ (List.map_congr_left fun k _ => ?_)
  show w.testBit (m + n - 1 - (m + k)) = _
  congr 1; omega

theorem msbFirst_mod (n w : Nat) : msbFirst n (w % 2 ^ n) = msbFirst n w :=
  List.map_congr_left fun k hk => by
    have hk : k < n := List.mem_range.mp hk
    have : n - 1 - k < n := by omega
    simp [Nat.testBit_mod_two_pow, this]

/-- One bit of the CRC-16, by the bit that leaves the register. -/
theorem crcStep_sixteen (poly : Nat) (b : Bool) (r : Nat) :
    crcStep 16 poly b r = if (r.testBit 15 != b) = true then Nat.xor (2 * r % 65536) poly else 2 * r % 65536 := by
  rw [Nat.mul_comm 2 r, ← bitAt_eq_testBit]
  rfl

/-- The register of a CRC after bits, with the most significant bit first. -/
def crcBits (width poly : Nat) : Nat → List Bool → Nat := List.foldl fun r b => crcStep width poly b r

theorem crcByte_eq_crcBits (width poly r : Nat) (b : Byte) :
    crcByte width poly r b = crcBits width poly r (msbFirst 8 b.toNat) := by
  unfold crcByte crcBits
  simp only [bitAt_eq_testBit]
  rfl

/-- The CRC of bytes that spell a number is the CRC of its bits. -/
theorem foldl_crcByte_beBytes (width poly r n w : Nat) :
    (beBytes n w).foldl (crcByte width poly) r = crcBits width poly r (msbFirst (8 * n) w) := by
  induction n generalizing w with
  | zero => rfl
  | succ n ih =>
    rw [beBytes_succ, List.foldl_append, ih, List.foldl_cons, List.foldl_nil, crcByte_eq_crcBits, BitVec.toNat_ofNat,
      msbFirst_mod, Nat.mul_succ, msbFirst_add]
    exact List.foldl_append.symm

theorem crcStep_lt {width poly : Nat} (hp : poly < 2 ^ width) (b : Bool) (r : Nat) : crcStep width poly b r < 2 ^ width := by
  have hs : r * 2 % 2 ^ width < 2 ^ width := Nat.mod_lt _ (Nat.two_pow_pos width)
  simp only [crcStep]
  split
  · exact Nat.xor_lt_two_pow hs hp
  · exact hs

theorem crcBits_lt {width poly r : Nat} (hp : poly < 2 ^ width) (hr : r < 2 ^ width) (bits : List Bool) :
    crcBits width poly r bits < 2 ^ width := by
  induction bits generalizing r with
  | nil => exact hr
  | cons b bits ih => exact ih (crcStep_lt hp b r)

/-- The HCRC is the CRC-16 of the 48 header bits above it. -/
theorem hcrcOf_eq_crcBits (c : Cell) : hcrcOf c = crcBits 16 0x1021 0xFFFF (msbFirst 48 (headerTop c)) :=
  foldl_crcByte_beBytes 16 0x1021 0xFFFF 6 (headerTop c)

theorem hcrcOf_lt (c : Cell) : hcrcOf c < 2 ^ 16 := by
  rw [hcrcOf_eq_crcBits]
  exact crcBits_lt (by decide) (by decide) _

/-! ### The header (Table 6.1) -/

theorem b2n_lt_two (b : Bool) : b2n b < 2 := by cases b <;> decide

theorem bitAt_of_fieldAt {w k : Nat} {b : Bool} (h : fieldAt w k 1 = b2n b) : bitAt w k = b := by
  show (fieldAt w k 1 == 1) = b
  rw [h]
  cases b <;> rfl

theorem fieldAt_add (w lo m n : Nat) : fieldAt w (lo + m) n = fieldAt (w / 2 ^ m) lo n := by
  rw [fieldAt, fieldAt, Nat.div_div_eq_div_mul, Nat.add_comm, Nat.pow_add]

theorem headerTop_lt (c : Cell) : headerTop c < 2 ^ 48 := by
  have hf := b2n_lt_two c.first
  have hl := b2n_lt_two c.last
  have hp := b2n_lt_two c.poison
  have he := b2n_lt_two c.ecn
  unfold headerTop
  omega

/-- The fields of bits [63:16] of a header, at the places that Table 6.1 gives them. -/
theorem headerTop_fields (c : Cell) :
    fieldAt (headerTop c) 36 12 = c.path % 4096 ∧ fieldAt (headerTop c) 33 3 = c.tc % 8
      ∧ fieldAt (headerTop c) 30 3 = c.kind % 8 ∧ fieldAt (headerTop c) 20 10 = c.len % 1024
      ∧ fieldAt (headerTop c) 8 12 = c.seq % 4096 ∧ fieldAt (headerTop c) 4 4 = c.cidx % 16
      ∧ fieldAt (headerTop c) 3 1 = b2n c.first ∧ fieldAt (headerTop c) 2 1 = b2n c.last
      ∧ fieldAt (headerTop c) 1 1 = b2n c.poison ∧ fieldAt (headerTop c) 0 1 = b2n c.ecn := by
  have hf := b2n_lt_two c.first
  have hl := b2n_lt_two c.last
  have hp := b2n_lt_two c.poison
  have he := b2n_lt_two c.ecn
  unfold fieldAt headerTop
  omega

/-- The first eight bytes of a cell spell bits [63:16] above the HCRC. -/
theorem beNat_cellBytes_take (c : Cell) : beNat ((cellBytes c).take 8) = headerTop c * 2 ^ 16 + c.hcrc % 2 ^ 16 := by
  have htake : (cellBytes c).take 8 = beBytes 6 (headerTop c) ++ beBytes 2 c.hcrc := by
    unfold cellBytes headerBytes
    rw [List.append_assoc _ (fitBytes _ _)]
    exact List.take_left' (by simp)
  have htop : headerTop c % 256 ^ 6 = headerTop c := Nat.mod_eq_of_lt (headerTop_lt c)
  rw [htake, beNat_append, beNat_beBytes, beNat_beBytes, beBytes_length, htop, show 256 ^ 2 = 2 ^ 16 from rfl]

/-- Settles O58: the header's number is `headerTop` above the HCRC, so each of its fields is one of `headerTop`, 16 places up. -/
theorem cellHeaders : Obligations.CellHeaders := by
  intro c hpath htc hkind hlen hseq hcidx hhcrc w shift
  have hlt : c.hcrc < 2 ^ 16 := hhcrc ▸ hcrcOf_lt c
  have hw : w = headerTop c * 2 ^ 16 + c.hcrc := by
    rw [← Nat.mod_eq_of_lt hlt]; exact beNat_cellBytes_take c
  have hshift : shift = fun r b => crcStep 16 0x1021 b r := funext₂ fun r b => (crcStep_sixteen 0x1021 b r).symm
  clear_value w shift
  have htop : headerTop c < 2 ^ 48 := headerTop_lt c
  have hhigh : w / 2 ^ 16 = headerTop c := by omega
  have hword : w < 2 ^ 64 := by omega
  have hfield : ∀ {lo n v}, fieldAt (headerTop c) lo n = v → fieldAt w (lo + 16) n = v := fun h => by rw [fieldAt_add, hhigh, h]
  have hbit : ∀ {lo b}, fieldAt (headerTop c) lo 1 = b2n b → w.testBit (lo + 16) = b := fun h => by
    rw [← bitAt_eq_testBit, bitAt_of_fieldAt (hfield h)]
  have hcrc : w % 2 ^ 16 = ((List.range 48).map fun k => w.testBit (63 - k)).foldl shift 0xFFFF := by
    calc w % 2 ^ 16 = hcrcOf c := by omega
      _ = crcBits 16 0x1021 0xFFFF (msbFirst 48 (w / 2 ^ 16)) := by rw [hhigh, hcrcOf_eq_crcBits]
      _ = _ := by rw [msbFirst_div, hshift, crcBits]
  obtain ⟨hPath, hTc, hKind, hLen, hSeq, hCidx, hFirst, hLast, hPoison, hEcn⟩ := headerTop_fields c
  have hfits : w / 2 ^ 52 < 2 ^ 12 := by omega
  exact ⟨hword, (Nat.mod_eq_of_lt hfits).symm.trans ((hfield hPath).trans (Nat.mod_eq_of_lt hpath)),
    (hfield hTc).trans (Nat.mod_eq_of_lt htc), (hfield hKind).trans (Nat.mod_eq_of_lt hkind),
    (hfield hLen).trans (Nat.mod_eq_of_lt hlen), (hfield hSeq).trans (Nat.mod_eq_of_lt hseq),
    (hfield hCidx).trans (Nat.mod_eq_of_lt hcidx), hbit hFirst, hbit hLast, hbit hPoison, hbit hEcn, hcrc⟩

end Sys2Proof.Machine

/-! The bay channels: what each shared operation makes of a bay's own record, and the fault count with its two ends (R444, R446, R447, R450). -/
namespace Sys2Proof.Machine

/-! ### A bay's record under the shared operations -/

section BayRecord
variable {s : State} {b : Nat}

/-- A bay is read from the power path alone. -/
theorem State.bay_congr {t : State} (h : t.ppath = s.ppath) : t.bay b = s.bay b := by rw [State.bay, State.bay, h]

@[simp] theorem State.bay_begin : s.begin.bay b = s.bay b := rfl
@[simp] theorem State.bay_emit (e : Emit) : (s.emit e).bay b = s.bay b := rfl
@[simp] theorem State.bay_raise (n a : Nat) : (s.raise n a).bay b = s.bay b := State.bay_congr (State.raise_ppath s n a)
@[simp] theorem State.bay_drivePerst (k : Nat) (on : Bool) : (s.drivePerst k on).bay b = s.bay b := rfl

@[simp] theorem State.drivePerst_ppath (k : Nat) (on : Bool) : (s.drivePerst k on).ppath = s.ppath := rfl

@[simp] theorem State.setBay_bays_length (f : BaySt → BaySt) : (s.setBay b f).ppath.bays.length = s.ppath.bays.length :=
  List.length_modify ..

theorem State.bay_setBay (hb : b < s.ppath.bays.length) (f : BaySt → BaySt) : (s.setBay b f).bay b = f (s.bay b) :=
  nth_modify_same f _ b _ hb

/-- PG falls in the record, whether or not it was up (R448). -/
theorem State.bay_pgFall (hb : b < s.ppath.bays.length) : (s.pgFall b).bay b = { s.bay b with pg := false } := by
  unfold State.pgFall
  split
  · dsimp only
    split <;> simp [State.bay_setBay hb]
  · next hpg => rw [← Bool.eq_false_of_not_eq_true hpg]

@[simp] theorem State.pgFall_bays_length : (s.pgFall b).ppath.bays.length = s.ppath.bays.length := by
  unfold State.pgFall
  split
  · dsimp only
    split <;> simp
  · rfl

@[simp] theorem State.pgFall_time : (s.pgFall b).time = s.time := by
  unfold State.pgFall
  split
  · dsimp only
    split <;> exact State.raise_time _ _ _
  · rfl

/-- A bay's record as it enters a state at a tick (R444): PG is kept in ON and LIMIT only, the count and the ramp time begin anew at a
ramp that does not come out of LIMIT. -/
def BaySt.entered (x : BaySt) (st : BayState) (now : Tick) : BaySt :=
  { x with
    state := st, pg := x.pg && (st == .on || st == .limit)
    count := if st == .ramp && x.state != .limit then 0 else x.count, ma := if st.conducts then x.ma else 0
    rampTick := if st == .ramp && x.state != .limit then now else x.rampTick }

theorem State.bay_bayTo (hb : b < s.ppath.bays.length) (st : BayState) :
    (s.bayTo b st).bay b = (s.bay b).entered st s.time.tick := by
  unfold State.bayTo
  by_cases hst : (st == .on || st == .limit) = true
  · simp only [hst, if_true, State.bay_emit, State.bay_setBay hb]
    simp [BaySt.entered, hst]
  · have hb' : b < (s.pgFall b).ppath.bays.length := by rwa [State.pgFall_bays_length]
    simp only [hst, Bool.false_eq_true, if_false, State.bay_emit]
    rw [State.bay_setBay hb', State.bay_pgFall hb, State.pgFall_time]
    simp [BaySt.entered, hst]

/-- The count goes on through every entry but that to a ramp that does not come out of LIMIT. -/
theorem BaySt.entered_count {x : BaySt} {st : BayState} (h : st ≠ .ramp ∨ x.state = .limit) (now : Tick) :
    (x.entered st now).count = x.count := by
  rcases h with h | h <;> simp [BaySt.entered, h]

/-- A fault leaves the bay in FAULT_WAIT with its cause (R450). -/
theorem State.bay_bayFault (hb : b < s.ppath.bays.length) (cause : Nat) :
    ((s.bayFault b cause).bay b).state = .faultWait ∧ ((s.bayFault b cause).bay b).cause = cause := by
  unfold State.bayFault
  simp only [State.bay_raise]
  rw [State.bay_bayTo (by rwa [State.setBay_bays_length]), State.bay_setBay hb]
  exact ⟨rfl, rfl⟩

/-- The end of the fault timer is a fault with cause TIMER. -/
theorem State.bay_bayTimer (hb : b < s.ppath.bays.length) :
    ((s.bayTimer b).bay b).state = .faultWait ∧ ((s.bayTimer b).bay b).cause = 1 :=
  State.bay_bayFault (by rwa [State.pgFall_bays_length]) 1

end BayRecord

/-! ### The fault count (R446) and the breaker (R447) -/

section FaultCount
variable {s : State} {b : Nat} {up : Bool} {n mv ma : Nat}

/-- A bay's record with the samples since the last change counted and the measured values noted. -/
def BaySt.sampled (x : BaySt) (n mv ma : Nat) : BaySt :=
  { x with count := min (countAfter x.count n (x.state == .limit)) (x.faultMs * 1000), mv := mv, ma := ma }

/-- Below the limit of the timer, samples at the limit all count. -/
theorem BaySt.sampled_count_limit {x : BaySt} (hl : x.state = .limit) (ht : x.count + n < x.faultMs * 1000) :
    (x.sampled n mv ma).count = x.count + n := by
  simpa [BaySt.sampled, countAfter, hl] using ht.le

/-- One of eight samples below the limit counts, downward. -/
theorem BaySt.sampled_count_below {x : BaySt} (hl : x.state ≠ .limit) (hle : x.count ≤ x.faultMs * 1000) :
    (x.sampled n mv ma).count = x.count - n / 8 := by
  simpa [BaySt.sampled, countAfter, hl] using (Nat.sub_le _ _).trans hle

/-- The samples counted in the hub: what BAY_CURRENT_LIMIT does before it looks at the state. -/
def State.sampled (s : State) (b n mv ma : Nat) : State :=
  s.setBay b fun y => { y with
    count := min (countAfter (s.bay b).count n ((s.bay b).state == .limit)) ((s.bay b).faultMs * 1000), mv := mv, ma := ma }

theorem State.sampled_bays_length : (s.sampled b n mv ma).ppath.bays.length = s.ppath.bays.length := State.setBay_bays_length _

theorem State.bay_sampled (hb : b < s.ppath.bays.length) :
    (s.sampled b n mv ma).bay b = (s.bay b).sampled n mv ma :=
  State.bay_setBay hb _

/-- The effect of BAY_CURRENT_LIMIT on a conducting bay, at the limit and below it. -/
def State.limitSample (s : State) (b : Nat) (up : Bool) (n mv ma : Nat) : State :=
  let x := s.bay b
  if x.state = .limit then
    if x.faultMs * 1000 ≤ x.count + n then (s.sampled b n mv ma).bayTimer b
    else if up then s.sampled b n mv ma else (s.sampled b n mv ma).bayTo b x.back
  else if up then ((s.sampled b n mv ma).setBay b fun y => { y with back := x.state }).bayTo b .limit
  else s.sampled b n mv ma

theorem exec_bayCurrentLimit (hp : s.pwrLive = true) (h3 : b ≤ 3) (hc : (s.bay b).state.conducts = true) :
    exec (.bayCurrentLimit b up n mv ma) s = .next (s.begin.limitSample b up n mv ma) := by
  show execBayCurrentLimit b up n mv ma s = _
  unfold execBayCurrentLimit runPwr
  rw [runIf_live hp]
  have hu : (s.begin.bay b).state.conducts = true := hc
  generalize s.begin = u at hu ⊢
  refine congrArg _ ((if_neg (by simp [hu, h3])).trans ?_)
  unfold State.limitSample
  by_cases hl : (u.bay b).state = .limit
  · cases up <;> simp [hl, countAfter, State.sampled]
  · cases up <;> simp [hl, State.sampled]

/-- While the fault timer does not end, the count is that of the samples: the entry to LIMIT, and that from it to the state before, keep it. -/
theorem State.limitSample_count (hb : b < s.ppath.bays.length)
    (ht : (s.bay b).state = .limit → (s.bay b).count + n < (s.bay b).faultMs * 1000) :
    ((s.limitSample b up n mv ma).bay b).count = ((s.bay b).sampled n mv ma).count := by
  have hs : b < (s.sampled b n mv ma).ppath.bays.length := by rwa [State.sampled_bays_length]
  unfold State.limitSample
  dsimp only
  split
  · next hl =>
    rw [if_neg (Nat.not_le.mpr (ht hl))]
    split
    · rw [State.bay_sampled hb]
    · rw [State.bay_bayTo hs, State.bay_sampled hb, BaySt.entered_count (x := (s.bay b).sampled n mv ma) (.inr hl)]
  · split
    · rw [State.bay_bayTo (by rwa [State.setBay_bays_length]), BaySt.entered_count (.inl (by decide)), State.bay_setBay hs,
        State.bay_sampled hb]
    · rw [State.bay_sampled hb]

theorem exec_bayBreaker (hp : s.pwrLive = true) (h3 : b ≤ 3) (hc : (s.bay b).state.conducts = true) (hm : 2 * (s.bay b).ilim < ma) :
    exec (.bayBreaker b ma) s = .next (s.begin.bayFault b 2) := by
  show runIf s.pwrLive s _ = _
  rw [runIf_live hp]
  simp [hc, h3, hm]

end FaultCount

/-- RAMP, LIMIT and ON are states in which the gate conducts. -/
theorem BayState.conducts_of {st : BayState} (h : st = .ramp ∨ st = .limit ∨ st = .on) : st.conducts = true := by
  rcases h with rfl | rfl | rfl <;> rfl

/-- Settles O56: the samples are counted before the state is looked at, and the state's change keeps the count; the timer and the breaker
end in the one shared fault. -/
theorem bayFaultCount : Obligations.BayFaultCount := by
  intro s b up n mv ma hp h3 hb hst
  have hc := BayState.conducts_of hst
  have hx := exec_bayCurrentLimit (up := up) (n := n) (mv := mv) (ma := ma) hp h3 hc
  refine ⟨fun hl ht => ⟨_, hx, ?_⟩, fun hl ht => ⟨_, hx, ?_⟩, fun hl hle => ⟨_, hx, ?_⟩,
    fun hm => ⟨_, exec_bayBreaker hp h3 hc hm, State.bay_bayFault (s := s.begin) hb 2⟩⟩
  · have hend : s.begin.limitSample b up n mv ma = (s.begin.sampled b n mv ma).bayTimer b := (if_pos hl).trans (if_pos ht)
    rw [hend]
    exact State.bay_bayTimer (hb.trans_eq State.sampled_bays_length.symm)
  · exact (State.limitSample_count (s := s.begin) hb fun _ => ht).trans (BaySt.sampled_count_limit hl ht)
  · exact (State.limitSample_count (s := s.begin) hb fun h => absurd h hl).trans (BaySt.sampled_count_below hl hle)

end Sys2Proof.Machine

/-! The life-cycle state by its fuses (R479) and the decision of an access control unit (R496). -/
namespace Sys2Proof.Machine

/-! ### Life cycle (R479) -/

/-- A position is blown by the majority of its fuses (R479). -/
theorem posBlown_iff (f : BitVec 3) :
    posBlown f = true ↔ 2 ≤ b2n (f.getLsbD 0) + b2n (f.getLsbD 1) + b2n (f.getLsbD 2) := by
  unfold posBlown
  cases f.getLsbD 0 <;> cases f.getLsbD 1 <;> cases f.getLsbD 2 <;> decide

@[simp] theorem nth_cons_zero {α : Type} (x : α) (l : List α) (d : α) : nth (x :: l) 0 d = x := rfl

@[simp] theorem nth_cons_succ {α : Type} (x : α) (l : List α) (k : Nat) (d : α) : nth (x :: l) (k + 1) d = nth l k d := rfl

/-- The length of the longest prefix on which `p` holds: `p` holds at each entry below it, and at the next one, if there is one, it fails. -/
theorem length_takeWhile_eq_iff {α : Type} (p : α → Bool) (l : List α) (d : α) (k : Nat) :
    (l.takeWhile p).length = k ↔
      k ≤ l.length ∧ (∀ j < k, p (nth l j d) = true) ∧ (k < l.length → ¬ p (nth l k d) = true) := by
  induction l generalizing k with
  | nil =>
    refine ⟨fun h => ?_, fun ⟨h, _⟩ => (Nat.le_zero.mp h).symm⟩
    obtain rfl : 0 = k := h
    simp
  | cons x xs ih =>
    cases k with
    | zero => by_cases hx : p x = true <;> simp [hx]
    | succ k =>
      by_cases hx : p x = true
      · simp only [List.takeWhile_cons_of_pos hx, List.length_cons, Nat.forall_lt_succ_left, nth_cons_zero, nth_cons_succ, hx,
          true_and, Nat.add_le_add_iff_right, Nat.add_lt_add_iff_right, Nat.add_right_cancel_iff, ih]
      · exact iff_of_false (by simp [hx]) fun ⟨_, hall, _⟩ => hx (hall 0 k.succ_pos)

/-- The life-cycle state counts the blown positions from LC0 up to the first unblown one (R479). -/
theorem State.lifecycle_eq_iff (s : State) (k : Nat) :
    s.lifecycle = k ↔ k ≤ s.trust.lc.length ∧ (∀ j < k, posBlown (nth s.trust.lc j 0) = true)
      ∧ (k < s.trust.lc.length → ¬ posBlown (nth s.trust.lc k 0) = true) :=
  length_takeWhile_eq_iff posBlown s.trust.lc 0 k

/-- A blown position that follows an unblown one is ignored (R479). -/
theorem State.lifecycle_congr {s t : State} (hlen : t.trust.lc.length = s.trust.lc.length)
    (h : ∀ k ≤ s.lifecycle, nth t.trust.lc k 0 = nth s.trust.lc k 0) : t.lifecycle = s.lifecycle := by
  obtain ⟨hle, hblown, hnext⟩ := (s.lifecycle_eq_iff s.lifecycle).mp rfl
  refine (t.lifecycle_eq_iff s.lifecycle).mpr ⟨hlen ▸ hle, fun j hj => ?_, fun hk => ?_⟩
  · rw [h j hj.le]
    exact hblown j hj
  · rw [h _ le_rfl]
    exact hnext (hlen ▸ hk)

/-- Settles O52: the state is the length of the blown prefix of the five positions, and two states with equal positions up to the first
unblown one have it in common. -/
theorem lifeCycleFuses : Obligations.LifeCycleFuses := by
  intro s hs
  refine ⟨fun k => ?_, fun _ => rfl, fun t h ht => State.lifecycle_congr (ht.trans hs.symm) h⟩
  simpa only [posBlown_iff, hs] using s.lifecycle_eq_iff k

/-! ### The decision of an access control unit (R496) -/

theorem Region.covers_iff (r : Region) (a : Nat) :
    r.covers a = true ↔ r.valid = true ∧ r.base.toNat ≤ a / 4096 ∧ a / 4096 ≤ r.limit.toNat := by
  simp [Region.covers, and_assoc]

theorem Region.permits_iff (r : Region) (k : Nat) :
    r.permits k = true ↔ (k = 0 ∧ r.read = true) ∨ (k = 1 ∧ r.write = true) ∨ (2 ≤ k ∧ r.exec = true) := by
  match k with
  | 0 => simp [Region.permits]
  | 1 => simp [Region.permits]
  | k + 2 => simp [Region.permits]

/-- Whether a region bars a debug access (R496, R503). -/
def Region.bars (r : Region) (debug : Bool) : Bool := debug && r.nodebug

theorem Region.bars_iff (r : Region) (d : Bool) : r.bars d = true ↔ d = true ∧ r.nodebug = true :=
  Bool.and_eq_true_iff

/-- Whether a region is a locked ceiling that denies the access (R496). -/
def Region.ceils (r : Region) (k a : Nat) (d : Bool) : Bool := r.lock && r.covers a && (!r.permits k || r.bars d)

theorem Region.ceils_iff (r : Region) (k a : Nat) (d : Bool) :
    r.ceils k a d = true ↔ r.covers a = true ∧ r.lock = true ∧ (¬ r.permits k = true ∨ r.bars d = true) := by
  simp [Region.ceils, and_assoc, and_left_comm]

/-- What the region that decides an access answers, by its index (R496). -/
def Region.verdict (r : Region) (k j : Nat) (d : Bool) : Verdict :=
  if r.bars d then ⟨false, 0, false, j⟩
  else if r.permits k then ⟨true, r.cache.toNat, r.relaxed, j⟩
  else ⟨false, 0, r.relaxed, j⟩

theorem Region.verdict_denies {r : Region} {k : Nat} {d : Bool} (h : r.bars d = true ∨ ¬ r.permits k = true) (j : Nat) :
    (r.verdict k j d).allow = false := by
  unfold Region.verdict
  split_ifs with hb hp
  · rfl
  · exact absurd hp (h.resolve_left hb)
  · rfl

theorem Region.verdict_grants {r : Region} {k : Nat} {d : Bool} (hp : r.permits k = true) (hb : ¬ r.bars d = true) (j : Nat) :
    r.verdict k j d = ⟨true, r.cache.toNat, r.relaxed, j⟩ :=
  (if_neg hb).trans (if_pos hp)

section Decision
variable {s : State} {m k a : Nat} {d : Bool}

theorem State.acuCheck_of_ceiling (h : ∃ r ∈ (s.acu m).regions, r.ceils k a d = true) :
    s.acuCheck m k a d = ⟨false, 0, false, 0xFE⟩ :=
  if_pos (List.any_eq_true.mpr h)

/-- Under no denying ceiling, the search of the regions in their order decides. -/
theorem State.acuCheck_of_no_ceiling (h : ∀ r ∈ (s.acu m).regions, ¬ r.ceils k a d = true) :
    s.acuCheck m k a d =
      match (s.acu m).regions.findIdx? fun r => r.covers a with
      | some j => (nth (s.acu m).regions j .init).verdict k j d
      | none => if s.nomatchAllow m then ⟨true, 0, false, 0xFF⟩ else ⟨false, 0, false, 0xFF⟩ :=
  if_neg fun hc => by
    obtain ⟨r, hr, hcr⟩ := List.any_eq_true.mp hc
    exact h r hr hcr

/-- Under no denying ceiling, the first region that covers the address decides. -/
theorem State.acuCheck_of_first {l l' : List Region} {r : Region} (h : ∀ r ∈ (s.acu m).regions, ¬ r.ceils k a d = true)
    (hrs : (s.acu m).regions = l ++ r :: l') (hl : ∀ x ∈ l, ¬ x.covers a = true) (hr : r.covers a = true) :
    s.acuCheck m k a d = r.verdict k l.length d := by
  have hnone : l.findIdx? (fun r => r.covers a) = none := List.findIdx?_eq_none_iff.mpr fun x hx => by simpa using hl x hx
  have hfind : (s.acu m).regions.findIdx? (fun r => r.covers a) = some l.length := by
    rw [hrs, List.findIdx?_append, hnone, List.findIdx?_cons]
    simp [hr]
  have hnth : nth (s.acu m).regions l.length .init = r := by simp [nth, hrs]
  rw [State.acuCheck_of_no_ceiling h, hfind]
  exact congrArg (Region.verdict · k l.length d) hnth

/-- Where no region covers the address, no ceiling does, and NOMATCH decides. -/
theorem State.acuCheck_of_no_match (h : ∀ r ∈ (s.acu m).regions, ¬ r.covers a = true) :
    s.acuCheck m k a d = ⟨s.nomatchAllow m, 0, false, 0xFF⟩ := by
  have hfind : (s.acu m).regions.findIdx? (fun r => r.covers a) = none :=
    List.findIdx?_eq_none_iff.mpr fun x hx => by simpa using h x hx
  rw [State.acuCheck_of_no_ceiling fun r hr hc => h r hr ((r.ceils_iff k a d).mp hc).1, hfind]
  cases s.nomatchAllow m <;> rfl

end Decision

/-- NOMATCH_MASK is honoured in the life-cycle states of Table 19.1 alone. -/
theorem State.nomatchAllow_iff (s : State) (m : Nat) :
    s.nomatchAllow m = true ↔ (s.cv Fld.NOMATCH_MASK).testBit m = true ∧ openLc s.lifecycle = true := by
  rw [State.nomatchAllow, bitAt_eq_testBit, Bool.and_eq_true]

/-- Settles O55: the three ways in which R496 ends: a denying ceiling, the first region that covers the address, and no match. -/
theorem accessDecision : Obligations.AccessDecision := by
  intro s m k a d
  simp only [← Region.covers_iff, ← Region.permits_iff, ← Region.bars_iff]
  refine ⟨fun ⟨r, hr, hc⟩ => ?_, fun hceil => ⟨fun l r l' hrs hl hr => ?_, fun hnone => ?_⟩⟩
  · rw [State.acuCheck_of_ceiling ⟨r, hr, (r.ceils_iff k a d).mpr hc⟩]
  · have hno : ∀ x ∈ (s.acu m).regions, ¬ x.ceils k a d = true := fun x hx hc => by
      obtain ⟨hcov, hlock, hdeny⟩ := (x.ceils_iff k a d).mp hc
      obtain ⟨hp, hb⟩ := hceil x hx hcov hlock
      exact hdeny.elim (absurd hp) hb
    rw [State.acuCheck_of_first hno hrs hl hr]
    refine ⟨fun hdeny => Region.verdict_denies hdeny _, fun hp hb => ?_⟩
    rw [Region.verdict_grants hp hb]
    exact ⟨rfl, rfl, rfl⟩
  · rw [State.acuCheck_of_no_match hnone]
    exact ⟨s.nomatchAllow_iff m, rfl, rfl⟩

end Sys2Proof.Machine

/-! One key manifest entry written, or refused for its slot (R524). -/
namespace Sys2Proof.Machine

/-! ### `upd.keyman.put` (R524) -/

/-- The request carries 1 to 1,020 bytes that lie within an entry, and names one of the 32 slots (Table 20.13). -/
structure KeymanFits (rq : Req) : Prop where
  least  : 5 ≤ rq.payload.length
  most   : rq.payload.length ≤ 1024
  within : arg rq 2 2 + rq.payload.length ≤ 2053
  slot   : arg rq 0 1 ≤ 31

/-- The entry that a request would leave: the one in flash with the request's bytes in place of its own from the offset on. -/
def State.keymanEntry (s : State) (rq : Req) : List Byte :=
  let old := fitBytes 2049 (nth s.upd.flash.keyman (arg rq 0 1) [])
  old.take (arg rq 2 2) ++ rq.payload.drop 4 ++ old.drop (arg rq 2 2 + (rq.payload.length - 4))

/-- The slot is VALID, and the entry would not hash to it (R524). -/
def State.keymanClash (s : State) (rq : Req) : Bool :=
  s.slotState (arg rq 0 1) == 1 && (sha384 (s.keymanEntry rq)).take 32 != (s.slot (arg rq 0 1)).bytes

/-- The state with the request's entry written. -/
def State.keymanPut (s : State) (rq : Req) : State :=
  s.setFlash fun f => { f with keyman := put f.keyman (arg rq 0 1) (s.keymanEntry rq) }

theorem State.keymanClash_iff (s : State) (rq : Req) :
    s.keymanClash rq = true ↔
      s.slotState (arg rq 0 1) = 1 ∧ (sha384 (s.keymanEntry rq)).take 32 ≠ (s.slot (arg rq 0 1)).bytes := by
  simp [State.keymanClash]

/-- Hearing a request changes neither the slots nor the flash. -/
@[simp] theorem State.keymanClash_heard (row : CmdRow) (q : Req) (s : State) (rq : Req) :
    (s.heard row q).keymanClash rq = s.keymanClash rq := by
  simp [State.keymanClash, State.keymanEntry, State.slotState, State.slot]

theorem State.still_keymanPut_heard (row : CmdRow) (q : Req) (s : State) (rq : Req) :
    ((s.heard row q).keymanPut rq).still = (s.keymanPut rq).still := by
  have hcomm : ∀ u : State, (u.keymanPut rq).still = u.still.keymanPut rq := fun _ => rfl
  rw [hcomm, hcomm, State.still_heard]

/-- A request that fits is refused by a clash alone: its length and its slot are in range. -/
theorem exec_updKeymanPut {rq : Req} (h : KeymanFits rq) (s : State) :
    exec (.updKeymanPut rq) s =
      command Cmd.updKeymanPut 4 rq s fun _ u =>
        if u.keymanClash rq then .fail u .badState else .done (u.keymanPut rq) := by
  obtain ⟨hleast, hmost, hwithin, hslot⟩ := h
  have hlen : ¬ ((rq.payload.drop 4).isEmpty || decide (1020 < (rq.payload.drop 4).length)
      || decide (2049 < arg rq 2 2 + (rq.payload.drop 4).length)) = true := by
    simp only [Bool.or_eq_true, List.isEmpty_iff, decide_eq_true_eq, List.drop_eq_nil_iff, List.length_drop]
    omega
  show execUpdKeymanPut rq s = _
  unfold execUpdKeymanPut
  refine congrArg _ (funext₂ fun _ u => (if_neg hlen).trans ?_)
  simp only [List.length_drop, Nat.not_lt.mpr hslot, decide_false, Bool.false_or]
  rfl

/-- A clash is answered BAD_STATE and leaves the manifest as it was. -/
theorem updKeymanPut_fails :
    Fails .updKeymanPut Cmd.updKeymanPut 4 (fun rq s => KeymanFits rq ∧ s.keymanClash rq = true) .badState := by
  rintro rq s ha ⟨hfits, hc⟩
  refine ⟨_, (exec_updKeymanPut hfits s).trans (command_run ha _), ?_⟩
  simp only [State.keymanClash_heard, hc, if_true]
  exact ⟨(State.still_fwReply _ _ _ _ _).trans (State.still_heard _ _ _), State.fwReply_replied _ _ _ _ _ _⟩

/-- Without a clash the entry is written, and nothing else. -/
theorem updKeymanPut_does :
    Does .updKeymanPut Cmd.updKeymanPut 4 (fun rq s => KeymanFits rq ∧ ¬ s.keymanClash rq = true)
      (fun rq s => s.keymanPut rq) (fun _ _ => []) := by
  rintro rq s ha ⟨hfits, hc⟩
  refine ⟨_, (exec_updKeymanPut hfits s).trans (command_run ha _), ?_⟩
  simp only [State.keymanClash_heard, hc]
  exact ⟨(State.still_fwReply _ _ _ _ _).trans (State.still_keymanPut_heard _ _ _ _), State.fwReply_replied _ _ _ _ _ _⟩

/-- Settles O53: in range, the request is refused by a clash with a VALID slot alone, so an EMPTY slot's entry is written at any time. -/
theorem keyManifest : Obligations.KeyManifest := by
  intro rq s ha hleast hmost hwithin hslot k old new wrong
  have hfits : KeymanFits rq := ⟨hleast, hmost, hwithin, hslot⟩
  have hwrong : s.keymanClash rq = true ↔ wrong := s.keymanClash_iff rq
  by_cases hc : s.keymanClash rq = true
  · obtain ⟨t, hx, hstill, hreply⟩ := updKeymanPut_fails rq s ha ⟨hfits, hc⟩
    exact ⟨t, hx, fun _ => ⟨hstill, hreply⟩, fun hn => absurd (hwrong.mp hc) hn⟩
  · obtain ⟨t, hx, hstill, hreply⟩ := updKeymanPut_does rq s ha ⟨hfits, hc⟩
    exact ⟨t, hx, fun hw => absurd (hwrong.mpr hw) hc, fun _ => ⟨hreply, hstill⟩⟩

end Sys2Proof.Machine

/-! Uncorrectable words of the Lichen store, by the region that holds the word (R541). -/
namespace Sys2Proof.Machine

/-! ### Applied values that change leave the configuration layers alone (R14, R142) -/

/-- Steps that keep the configuration keep it together. -/
theorem State.foldl_cfg {β : Type} {f : State → β → State} (h : ∀ s b, (f s b).cfg = s.cfg) (l : List β) (s : State) :
    (l.foldl f s).cfg = s.cfg :=
  foldl_same f State.cfg h l s

@[simp] theorem State.setDpx_cfg (s : State) (k : Nat) (f : DpxSt → DpxSt) : (s.setDpx k f).cfg = s.cfg := rfl
@[simp] theorem State.setCpx_cfg (s : State) (p : Nat) (f : CpxSt → CpxSt) : (s.setCpx p f).cfg = s.cfg := rfl
@[simp] theorem State.setLane_cfg (s : State) (p k : Nat) (f : LaneSt → LaneSt) : (s.setLane p k f).cfg = s.cfg := rfl
@[simp] theorem State.setLink_cfg (s : State) (p : Nat) (f : LinkSt → LinkSt) : (s.setLink p f).cfg = s.cfg := rfl

@[simp] theorem State.laneEv_cfg (s : State) (p n a : Nat) : (s.laneEv p n a).cfg = s.cfg := State.raise_cfg _ _ _

@[simp] theorem State.sendOwn_cfg (s : State) (p : Nat) (c : Cell) : (s.sendOwn p c).cfg = s.cfg := by
  unfold State.sendOwn
  simp [apply_ite State.cfg]

@[simp] theorem State.ctl_cfg (s : State) (p typ : Nat) (fields : List Nat) : (s.ctl p typ fields).cfg = s.cfg := by
  unfold State.ctl State.ctlSend
  simp [State.foldl_cfg]

@[simp] theorem State.floorCheck_cfg (s : State) (p : Nat) : (s.floorCheck p).cfg = s.cfg := by
  unfold State.floorCheck
  simp [State.foldl_cfg, apply_ite State.cfg]

@[simp] theorem State.endRecal_cfg (s : State) (p k outcome : Nat) : (s.endRecal p k outcome).cfg = s.cfg := by
  unfold State.endRecal
  split
  · rfl
  · simp [State.foldl_cfg]

@[simp] theorem State.endTest_cfg (s : State) (p k rc : Nat) (data : List Byte) : (s.endTest p k rc data).cfg = s.cfg := by
  unfold State.endTest
  split
  · rfl
  · exact State.foldl_cfg (fun _ _ => State.finish_cfg _ _ _ _ _) _ _

@[simp] theorem State.queueRecal_cfg (s : State) (p k trig : Nat) (force restore : Bool) (job : Option (Via × Nat)) :
    (s.queueRecal p k trig force restore job).cfg = s.cfg := by
  unfold State.queueRecal
  split <;> rfl

@[simp] theorem State.restoreLane_cfg (s : State) (p k trig : Nat) (job : Option (Via × Nat)) :
    (s.restoreLane p k trig job).cfg = s.cfg := by
  simp [State.restoreLane, State.retrainDue, apply_ite State.cfg]

@[simp] theorem State.retire_cfg (s : State) (p k what cause : Nat) (tell : Bool) : (s.retire p k what cause tell).cfg = s.cfg := by
  simp [State.retire, apply_ite State.cfg]

@[simp] theorem State.maskLanes_cfg (s : State) (p : Nat) : (s.maskLanes p).cfg = s.cfg := by
  simp [State.maskLanes, State.foldl_cfg, apply_ite State.cfg]

@[simp] theorem State.setEndTo_cfg (s : State) (k v : Nat) : (s.setEndTo k v).cfg = s.cfg := by
  simp [State.setEndTo, apply_ite State.cfg]

@[simp] theorem State.takeEnds_cfg (s : State) : (s.takeEnds).cfg = s.cfg := by
  refine State.foldl_cfg (fun t k => ?_) _ s
  split
  · rfl
  · simp [apply_ite State.cfg]

@[simp] theorem State.cfgEffects_cfg (s : State) : (s.cfgEffects).cfg = s.cfg := by
  simp [State.cfgEffects, apply_ite State.cfg]

/-! ### Exit from RETAIN without a valid HEADER (R469) -/

/-- Steps that keep the power state manager's part keep it together. -/
theorem State.foldl_pwr {β : Type} {f : State → β → State} (h : ∀ s b, (f s b).pwr = s.pwr) (l : List β) (s : State) :
    (l.foldl f s).pwr = s.pwr :=
  foldl_same f State.pwr h l s

/-- An exit from RETAIN whose HEADER is not valid runs as one from HIBERNATE. -/
theorem State.beginExit_goal_of_invalid {s : State} (hg : s.pwr.goal = 3) (hv : s.pwr.valid = false) (source counted : Nat)
    (latched : Bool) (bad : List Nat) : (s.beginExit source counted latched bad).pwr.goal = 4 := by
  have hretain : (s.pwr.goal == 3 && s.pwr.valid) = false := by rw [hv, Bool.and_false]
  have hlost : (s.pwr.goal == 3 && !false) = true := by rw [hg]; rfl
  unfold State.beginExit
  simp only [hretain, hlost, if_true, Bool.false_eq_true, if_false]
  rw [State.foldl_pwr fun t d => by simp only [apply_ite State.pwr, State.emit_pwr, ite_self], State.emit_pwr,
    State.foldl_pwr fun t _ => State.raise_pwr t 13 0]

/-! ### The entry of the fault record that an offset falls in (Table 21.4) -/

theorem FaultSt.clearEntry_reset (f : FaultSt) {o : Nat} (h : o < 16) :
    f.clearEntry o = { f with resetKind := 0, resetCause := 0, resetTick := 0, floor := 0 } :=
  if_pos h

/-- The count that an offset of COUNTS holds is cleared, with the other counts of its word. -/
theorem FaultSt.clearEntry_counts (f : FaultSt) {o : Nat} (h16 : 16 ≤ o) (h80 : o < 80) :
    nth (f.clearEntry o).counts (o - 16) 0 = 0 := by
  rw [FaultSt.clearEntry, if_neg h16.not_gt, if_pos h80]
  cases h : f.counts[o - 16]? <;> simp [nth, h]

theorem mapIdx_beq_eq_set {α : Type} (l : List α) (i : Nat) (a : α) :
    (l.mapIdx fun k e => if k == i then a else e) = l.set i a := by
  refine List.ext_getElem (by simp) fun k _ _ => ?_
  simp only [List.getElem_mapIdx, List.getElem_set, beq_iff_eq, eq_comm (a := k)]

theorem FaultSt.clearEntry_log (f : FaultSt) {o : Nat} (h : 80 ≤ o) :
    (f.clearEntry o).log = f.log.set ((o - 80) / 16) ⟨0, 0, 0, 0, 0, 0⟩ := by
  rw [FaultSt.clearEntry, if_neg (by omega), if_neg (by omega), mapIdx_beq_eq_set]

/-! ### The regions of the store (Table 18.3) -/

@[simp] theorem State.logFault_pwr (s : State) (code action unit : Nat) : (s.logFault code action unit).pwr = s.pwr := by
  simp [State.logFault, apply_ite State.pwr]

theorem nth_put_self {α : Type} {l : List α} {i : Nat} (h : i < l.length) (a d : α) : nth (put l i a) i d = a := by
  simp [nth, put, h]

section Regions
variable (s : State) {off : Nat}

/-- The fault record takes 336 bytes from its offset on (R544). -/
theorem inFaultRecord_iff : (faultOffset ≤ off && off < faultOffset + 336) = true ↔ 0x800 ≤ off ∧ off < 0x950 := by
  rw [Bool.and_eq_true, decide_eq_true_iff, decide_eq_true_iff]
  rfl

/-- A word in the fault record: the entry is cleared, and then the fault is logged. -/
theorem State.lichenLost_record (h : 0x800 ≤ off) (h' : off < 0x950) :
    s.lichenLost off = ({ s with fault := s.fault.clearEntry (off - 0x800) } : State).logFault 4 actNone := by
  have hin := inFaultRecord_iff.mpr ⟨h, h'⟩
  exact (if_pos hin).trans (congrArg (State.logFault · 4 actNone) (if_pos hin))

/-- A word outside the fault record: the fault is logged, and the rule of the word's region applies. -/
theorem State.lichenLost_region (h : off < 0x800 ∨ 0x950 ≤ off) :
    s.lichenLost off =
      let t := s.logFault 4 actNone
      if off < 0x1000 then { t with pwr := { t.pwr with valid := false } }
      else if off < 0x11000 then { t with cfg := { t.cfg with ovr := [] } }.cfgEffects
      else if off < 0x12000 then { t with mem := { t.mem with trained := false } }
      else if off < 0x32000 then { t with pwr := { t.pwr with saved := put t.pwr.saved (listAt (off - 0x12000)) false } }
      else { t with pwr := { t.pwr with valid := false, resume := false } } := by
  have hout : ¬ (faultOffset ≤ off && off < faultOffset + 336) = true := fun hin => by
    obtain ⟨hge, hlt⟩ := inFaultRecord_iff.mp hin
    omega
  simp only [State.lichenLost, if_neg hout]

/-- CONFIG: the override layers stay withdrawn through what the changed values do at once. -/
theorem State.lichenLost_config (h : 0x1000 ≤ off) (h' : off < 0x11000) : (s.lichenLost off).cfg.ovr = [] := by
  rw [State.lichenLost_region s (by omega)]
  simp [h.not_gt, h']

theorem State.lichenLost_dram (h : 0x11000 ≤ off) (h' : off < 0x12000) : (s.lichenLost off).mem.trained = false := by
  rw [State.lichenLost_region s (by omega)]
  simp [h.not_gt, h', show ¬ off < 0x1000 by omega]

theorem State.lichenLost_reglist (h : 0x12000 ≤ off) (h' : off < 0x32000) :
    (s.lichenLost off).pwr.saved = put s.pwr.saved (listAt (off - 0x12000)) false := by
  rw [State.lichenLost_region s (by omega)]
  simp [h.not_gt, h', show ¬ off < 0x1000 by omega, show ¬ off < 0x11000 by omega]

/-- HEADER outside the fault record, and RESUME: the HEADER is no longer valid, and a sleep under way keeps its goal. -/
theorem State.lichenLost_header (h : off < 0x800 ∨ (0x950 ≤ off ∧ off < 0x1000) ∨ 0x32000 ≤ off) :
    (s.lichenLost off).pwr.valid = false ∧ (s.lichenLost off).pwr.goal = s.pwr.goal := by
  rw [State.lichenLost_region s (by omega)]
  by_cases hlow : off < 0x1000
  · simp [hlow]
  · simp [hlow, show ¬ off < 0x11000 by omega, show ¬ off < 0x12000 by omega, show ¬ off < 0x32000 by omega]

end Regions

/-- Settles O57, region by region: a word of the HEADER or of RESUME acts on the next exit through the valid flag that it clears. -/
theorem lichenWordLost : Obligations.LichenWordLost := by
  intro s off t
  refine ⟨s.lichenLost_config, s.lichenLost_dram, fun h h' k _ hk hlen => ?_, fun h => ?_, s.lichenLost_record,
    fun f o => ⟨fun ho => ?_, f.clearEntry_counts, f.clearEntry_log⟩⟩
  · subst hk
    rw [s.lichenLost_reglist h h']
    exact nth_put_self hlen _ _
  · obtain ⟨hvalid, hgoal⟩ := s.lichenLost_header h
    exact ⟨hvalid, fun _ _ _ _ hg => State.beginExit_goal_of_invalid (hgoal.trans hg) hvalid _ _ _ _⟩
  · rw [f.clearEntry_reset ho]
    exact ⟨rfl, rfl, rfl⟩

end Sys2Proof.Machine

/-! Cells and symbols on a lane: what the transmitter writes, the receiver reads (R109, R110, R112, R113, R145 to R147). -/
namespace Sys2Proof.Machine

/-! ### Cells in a run's byte stream -/

/-- What the fields of a cell have to be for its bytes to spell it. -/
structure FitsRun (c : Cell) : Prop where
  path : c.path < 4096
  tc   : c.tc < 8
  kind : c.kind < 8
  len  : c.len ≤ 256
  seq  : c.seq < 4096
  cidx : c.cidx < 16
  payload : c.payload.length = c.len
  hcrc : c.hcrc = hcrcOf c

/-- The bytes of a cell behind its header. -/
def cellTail (c : Cell) : List Byte := fitBytes c.len c.payload ++ zeros ((8 - c.len % 8) % 8)

theorem cellBytes_eq (c : Cell) : cellBytes c = headerBytes c ++ (beBytes 2 c.hcrc ++ cellTail c) := by
  simp [cellBytes, cellTail]

@[simp] theorem headerBytes_length (c : Cell) : (headerBytes c).length = 6 := beBytes_length 6 _

theorem FitsRun.tail {c : Cell} (h : FitsRun c) : cellTail c = c.payload ++ zeros ((8 - c.len % 8) % 8) := by
  simp [cellTail, fitBytes, ← h.payload, zeros]

theorem FitsRun.length {c : Cell} (h : FitsRun c) : (cellBytes c).length = cellRoom c := by
  have hp := h.payload
  simp only [cellBytes_eq, h.tail, List.length_append, headerBytes_length, beBytes_length, zeros, List.length_replicate, cellRoom, ceilDiv]
  omega

theorem FitsRun.hcrc_lt {c : Cell} (h : FitsRun c) : c.hcrc < 256 ^ 2 := h.hcrc ▸ hcrcOf_lt c

/-- The receiver reads the header that was sent, whatever follows it (R145, R147). -/
theorem FitsRun.parseHeader {c : Cell} (h : FitsRun c) (rest : List Byte) :
    parseHeader ((cellBytes c ++ rest).take 8) = { c with payload := [] } := by
  have htake : (cellBytes c ++ rest).take 8 = headerBytes c ++ beBytes 2 c.hcrc := by
    rw [cellBytes_eq, ← List.append_assoc, List.append_assoc]
    exact List.take_left' (by simp)
  have hhead : (headerBytes c ++ beBytes 2 c.hcrc).take 6 = headerBytes c := List.take_left' (by simp)
  have hcrc : slice 6 2 (headerBytes c ++ beBytes 2 c.hcrc) = beBytes 2 c.hcrc := by
    rw [slice, List.drop_left' (by simp)]
    exact List.take_of_length_le (by simp)
  have htop : headerTop c % 256 ^ 6 = headerTop c := Nat.mod_eq_of_lt (headerTop_lt c)
  obtain ⟨hPath, hTc, hKind, hLen, hSeq, hCidx, hFirst, hLast, hPoison, hEcn⟩ := headerTop_fields c
  have hlen := h.len
  rw [htake, Machine.parseHeader, hhead, hcrc, headerBytes, beNat_beBytes, beNat_beBytes, htop, Nat.mod_eq_of_lt h.hcrc_lt]
  simp only [hPath, hTc, hKind, hLen, hSeq, hCidx, bitAt_of_fieldAt hFirst, bitAt_of_fieldAt hLast, bitAt_of_fieldAt hPoison,
    bitAt_of_fieldAt hEcn, Nat.mod_eq_of_lt h.path, Nat.mod_eq_of_lt h.tc, Nat.mod_eq_of_lt h.kind, Nat.mod_eq_of_lt h.seq,
    Nat.mod_eq_of_lt h.cidx, Nat.mod_eq_of_lt (show c.len < 1024 by omega)]

theorem FitsRun.headerOk {c : Cell} (h : FitsRun c) : headerOk { c with payload := [] } = true := by
  have hlen := h.len
  simp only [Machine.headerOk, Bool.and_eq_true, beq_iff_eq, decide_eq_true_eq]
  exact ⟨h.hcrc, hlen⟩

theorem FitsRun.payload_read {c : Cell} (h : FitsRun c) (rest : List Byte) :
    ((cellBytes c ++ rest).drop 8).take c.len = c.payload := by
  have hdrop : (cellBytes c ++ rest).drop 8 = c.payload ++ (zeros ((8 - c.len % 8) % 8) ++ rest) := by
    rw [cellBytes_eq, h.tail, ← List.append_assoc, List.append_assoc _ _ rest, List.append_assoc c.payload]
    exact List.drop_left' rfl
  rw [hdrop]
  exact List.take_left' h.payload

/-- A cell followed by another is a boundary where it begins, and the hunt there ends at once (R147). -/
theorem huntFrom_cells {c d : Cell} (hc : FitsRun c) (hd : FitsRun d) (rest : List Byte) :
    huntFrom (cellBytes c ++ cellBytes d ++ rest) 0 = some 0 := by
  have hroom := hc.length
  have hat : boundaryAt (cellBytes c ++ cellBytes d ++ rest) 0 = true := by
    have hfirst : parseHeader (slice 0 8 (cellBytes c ++ cellBytes d ++ rest)) = { c with payload := [] } := by
      rw [slice, List.drop_zero, List.append_assoc, hc.parseHeader]
    have hnext : parseHeader (slice (0 + cellRoom c) 8 (cellBytes c ++ cellBytes d ++ rest)) = { d with payload := [] } := by
      rw [slice, Nat.zero_add, List.append_assoc, ← hroom, List.drop_left, hd.parseHeader]
    simp only [boundaryAt, hfirst]
    exact Bool.and_eq_true_iff.mpr ⟨hc.headerOk, (congrArg Machine.headerOk hnext).trans hd.headerOk⟩
  have hlong : 0 < (cellBytes c ++ cellBytes d ++ rest).length / 8 := by
    simp only [List.length_append, hroom, cellRoom]
    omega
  obtain ⟨n, hn⟩ := Nat.exists_eq_add_of_lt hlong
  rw [huntFrom, hn, upTo, Nat.zero_add, List.range_succ_eq_map, List.map_cons]
  exact List.find?_cons_of_pos hat

/-- Settles O59: each clause reads one cell off the front of the run, the second behind the room of the first. -/
theorem cellsReadAgain : Obligations.CellsReadAgain := by
  intro c d rest h run
  have fits : ∀ x ∈ [c, d], FitsRun x := fun x hx => by
    obtain ⟨hpath, htc, hkind, hlen, hseq, hcidx, hpay, hhcrc⟩ := h x hx
    exact ⟨hpath, htc, hkind, hlen, hseq, hcidx, hpay, hhcrc⟩
  have hc : FitsRun c := fits c (by simp)
  have hd : FitsRun d := fits d (by simp)
  have hrun : run = cellBytes c ++ (cellBytes d ++ rest) := List.append_assoc _ _ _
  have hfirst : parseHeader (run.take 8) = { c with payload := [] } := by rw [hrun, hc.parseHeader]
  refine ⟨hfirst, (congrArg headerOk hfirst).trans hc.headerOk, ?_, ?_, hc.length, ?_, huntFrom_cells hc hd rest⟩
  · rw [hrun, hc.payload_read]
  · rw [hc.length, cellRoom]
    omega
  · rw [hrun, ← hc.length, List.drop_left, hd.parseHeader]

/-! ### Symbols of a run -/

theorem valueOf_levelOf (v : Nat) : valueOf (levelOf v) = v := by
  unfold valueOf levelOf
  omega

theorem levelOf_pam4 {v : Nat} (h : v < 4) : levelOf v = -3 ∨ levelOf v = -1 ∨ levelOf v = 1 ∨ levelOf v = 3 := by
  unfold levelOf
  omega

theorem grayOf_lt (b1 b0 : Bool) : grayOf b1 b0 < 4 := by cases b1 <;> cases b0 <;> decide

theorem pairOf_grayOf (b1 b0 : Bool) : pairOf (grayOf b1 b0) = (b1, b0) := by cases b1 <;> cases b0 <;> rfl

theorem symbolGrays_lt {sym g : Nat} (h : g ∈ symbolGrays sym) : g < 4 := by
  obtain ⟨k, -, rfl⟩ := List.mem_map.mp h
  exact grayOf_lt _ _

/-- The FEC symbol that five Gray values spell. -/
def graysSymbol (l : List Nat) : Nat := l.foldl (fun n g => 4 * n + 2 * b2n (pairOf g).1 + b2n (pairOf g).2) 0

theorem b2n_bitAt (w k : Nat) : b2n (bitAt w k) = w / 2 ^ k % 2 := by
  unfold b2n bitAt
  split_ifs with h <;> simp only [beq_iff_eq] at h <;> omega

/-- A pair of bits more. -/
theorem two_bits_more (w k : Nat) : 4 * (w / 2 ^ (k + 2)) + 2 * b2n (bitAt w (k + 1)) + b2n (bitAt w k) = w / 2 ^ k := by
  have h2 : w / 2 ^ (k + 2) = w / 2 ^ k / 4 := by rw [Nat.pow_add, ← Nat.div_div_eq_div_mul]
  have h1 : w / 2 ^ (k + 1) = w / 2 ^ k / 2 := by rw [Nat.pow_succ, ← Nat.div_div_eq_div_mul]
  rw [b2n_bitAt, b2n_bitAt, h2, h1]
  omega

theorem graysSymbol_symbolGrays {sym : Nat} (h : sym < 1024) : graysSymbol (symbolGrays sym) = sym := by
  have htop : sym / 2 ^ (8 + 2) = 0 := Nat.div_eq_of_lt h
  simp only [graysSymbol, symbolGrays, List.map_cons, List.map_nil, List.foldl_cons, List.foldl_nil, pairOf_grayOf]
  calc _ = sym / 2 ^ 0 := by
        rw [show 4 * 0 = 4 * (sym / 2 ^ (8 + 2)) by rw [htop], two_bits_more sym 8, two_bits_more sym 6, two_bits_more sym 4,
          two_bits_more sym 2, two_bits_more sym 0]
    _ = sym := Nat.div_one sym

/-- Precoding is undone by the receiver that starts from the same symbol (R110). -/
theorem unprecode_precode {l : List Nat} (h : ∀ g ∈ l, g < 4) {p : Nat} (hp : p < 4) : unprecode p (precode p l) = l := by
  induction l generalizing p with
  | nil => rfl
  | cons g l ih =>
    obtain ⟨hg, hl⟩ := List.forall_mem_cons.mp h
    rw [precode, unprecode, ih hl (Nat.mod_lt _ (by decide))]
    congr 1
    omega

theorem precode_lt (l : List Nat) (p : Nat) : ∀ g ∈ precode p l, g < 4 := by
  induction l generalizing p with
  | nil => simp [precode]
  | cons g l ih => exact List.forall_mem_cons.mpr ⟨Nat.mod_lt _ (by decide), ih _⟩

@[simp] theorem precode_length (l : List Nat) (p : Nat) : (precode p l).length = l.length := by
  induction l generalizing p with
  | nil => rfl
  | cons g l ih => simp [precode, ih]

/-- A list cut into pieces of the length in which it was put together. -/
theorem map_pieces {α β γ : Type} {f : α → List β} {n : Nat} (hf : ∀ a, (f a).length = n) (hn : 0 < n) (g : List β → γ) (l : List α) :
    (upTo ((l.flatMap f).length / n)).map (fun k => g (((l.flatMap f).drop (n * k)).take n)) = l.map fun a => g (f a) := by
  induction l with
  | nil => simp [upTo]
  | cons a l ih =>
    have hlen : ((a :: l).flatMap f).length / n = (l.flatMap f).length / n + 1 := by
      rw [List.flatMap_cons, List.length_append, hf, Nat.add_comm, Nat.add_div_right _ hn]
    have hhead : ((f a ++ l.flatMap f).drop (n * 0)).take n = f a := by rw [Nat.mul_zero, List.drop_zero, List.take_left' (hf a)]
    have htail : ∀ k, (f a ++ l.flatMap f).drop (n * (k + 1)) = (l.flatMap f).drop (n * k) := fun k => by
      rw [Nat.mul_succ, Nat.add_comm, ← List.drop_drop, List.drop_left' (hf a)]
    rw [hlen, upTo, List.range_succ_eq_map, List.map_cons, List.map_map, List.map_cons, List.flatMap_cons, hhead, ← ih]
    simp only [Function.comp_def, htail, upTo]

/-- The Gray values of a run are those of its symbols and of idle symbols, which are zeros (R113). -/
theorem run_grays (words : List (List Nat)) (idle : Nat) :
    words.flatten.flatMap symbolGrays ++ List.replicate (5 * idle) 0 = (words.flatten ++ List.replicate idle 0).flatMap symbolGrays := by
  have hidle : ∀ n, List.replicate (5 * n) 0 = (List.replicate n 0).flatMap symbolGrays := fun n => by
    induction n with
    | zero => rfl
    | succ n ih => rw [Nat.mul_succ, Nat.add_comm, List.replicate_add, ih, List.replicate_succ (n := n), List.flatMap_cons]; rfl
  rw [hidle, List.flatMap_append]

theorem symbolGrays_length (sym : Nat) : (symbolGrays sym).length = 5 := rfl

theorem flatMap_symbolGrays_length (l : List Nat) : (l.flatMap symbolGrays).length = 5 * l.length := by
  simp [List.length_flatMap, symbolGrays_length, Nat.mul_comm]

/-- The receiver of a lane spells the symbols of the Gray values that were sent (R109, R110). -/
theorem symbolsOf_levels {precoded : Bool} {syms : List Nat} (h : ∀ x ∈ syms, x < 1024) :
    symbolsOf precoded ((if precoded then precode 0 (syms.flatMap symbolGrays) else syms.flatMap symbolGrays).map levelOf) = syms := by
  have hlt : ∀ g ∈ syms.flatMap symbolGrays, g < 4 := fun g hg => by
    obtain ⟨x, -, hx⟩ := List.mem_flatMap.mp hg
    exact symbolGrays_lt hx
  have hgrays : (if precoded then unprecode 0 (if precoded then precode 0 (syms.flatMap symbolGrays) else syms.flatMap symbolGrays)
      else if precoded then precode 0 (syms.flatMap symbolGrays) else syms.flatMap symbolGrays) = syms.flatMap symbolGrays := by
    cases precoded with
    | true => exact unprecode_precode hlt (by decide)
    | false => rfl
  simp only [symbolsOf, List.map_map, Function.comp_def, valueOf_levelOf, List.map_id_fun', id_eq, hgrays]
  refine (map_pieces symbolGrays_length (by decide) graysSymbol syms).trans ?_
  exact (List.map_congr_left fun x hx => graysSymbol_symbolGrays (h x hx)).trans (List.map_id syms)

/-- Settles O60: idle symbols are symbols of value 0, so a run is one list of symbols, and each step of the transmitter is undone. -/
theorem runsReadAgain : Obligations.RunsReadAgain := by
  intro precoded words idle h levels
  have hlevels : levels = (if precoded then precode 0 ((words.flatten ++ List.replicate idle 0).flatMap symbolGrays)
      else (words.flatten ++ List.replicate idle 0).flatMap symbolGrays).map levelOf := by
    simp only [levels, runLevels, run_grays]
  have hsyms : ∀ x ∈ words.flatten ++ List.replicate idle 0, x < 1024 := fun x hx => by
    rcases List.mem_append.mp hx with hx | hx
    · obtain ⟨w, hw, hx⟩ := List.mem_flatten.mp hx
      exact h w hw x hx
    · rw [List.eq_of_mem_replicate hx]
      decide
  refine ⟨fun v hv => ?_, ?_, ?_, fun hp k hk => ?_⟩
  · rw [hlevels] at hv
    obtain ⟨g, hg, rfl⟩ := List.mem_map.mp hv
    refine levelOf_pam4 ?_
    cases precoded with
    | true => exact precode_lt _ _ g hg
    | false =>
      obtain ⟨x, -, hx⟩ := List.mem_flatMap.mp hg
      exact symbolGrays_lt hx
  · rw [hlevels, List.length_map, apply_ite List.length, precode_length, ite_self, flatMap_symbolGrays_length, List.length_append,
      List.length_replicate]
  · rw [hlevels, symbolsOf_levels hsyms]
  · have hk' : k < 5 * idle := by omega
    simp only [levels, runLevels, hp, Bool.false_eq_true, if_false, List.map_append, List.map_replicate, List.reverse_append,
      List.reverse_replicate]
    rw [List.getD_append _ _ _ _ (by simpa using hk'), List.getD_replicate _ hk']
    rfl

end Sys2Proof.Machine

/-! The step and the state after reset. -/
namespace Sys2Proof.Machine

/-- Settles O1. -/
theorem stepTakesTheFront : Obligations.StepTakesTheFront :=
  ⟨fun _ _ _ => rfl, fun s h => by rw [step, h]⟩

theorem nth_replicate {α : Type} (n k : Nat) (x : α) : nth (List.replicate n x) k x = x := by
  simp only [nth, List.getD_eq_getElem?_getD, List.getElem?_replicate]
  split_ifs <;> rfl

/-- No slot holds a fuse after reset. -/
theorem reset_slotState (k : Nat) : State.reset.slotState k = 0 := by
  have hslot : State.reset.slot k = .init := nth_replicate 32 k SlotSt.init
  rw [State.slotState, hslot]
  rfl

theorem reset_chan (c : Chan) : (State.reset.chan c).queue = [] ∧ (State.reset.chan c).lost = 0 ∧ (State.reset.chan c).jobs = []
    ∧ (State.reset.chan c).creds = [] ∧ (State.reset.chan c).stored = none ∧ (State.reset.chan c).attn = false := by
  cases c <;> exact ⟨rfl, rfl, rfl, rfl, rfl, rfl⟩

/-- A hub just reset has neither ports with a role nor links that are up; a port that it does not have reads the same. -/
theorem reset_port : ∀ p, State.reset.role p = .none ∧ State.reset.linkUp p = false
  | 0 => ⟨rfl, rfl⟩
  | 1 => ⟨rfl, rfl⟩
  | _ + 2 => ⟨rfl, rfl⟩

/-- Settles O5. -/
theorem resetState : Obligations.ResetState := by
  have hmask : (State.reset.chan .loc).mask = BitVec.allOnes 192 ∧ (State.reset.chan .tun).mask = BitVec.allOnes 192
      ∧ (State.reset.chan .peer).mask = BitVec.allOnes 192 ∧ (State.reset.chan .dbg).mask = 0 := by decide
  have hblank : State.reset.lifecycle = 0 ∧ State.reset.rollbackCount = 0 := by decide
  obtain ⟨hloc, htun, hpeer, hdbg⟩ := hmask
  exact ⟨rfl, reset_memInv, fun _ => rfl, hblank.1, hblank.2, reset_slotState, reset_chan, hloc, htun, hpeer, hdbg, rfl, rfl, rfl, rfl,
    rfl, rfl, rfl, rfl, reset_port, rfl, rfl, rfl, rfl⟩

end Sys2Proof.Machine

/-! The order of checks that every mailbox command goes through (Table 22.7; R49, R52, R58, R66, R503, R560, R561). -/
namespace Sys2Proof.Machine

/-! ### What a command leaves under VALIDATE -/

theorem DebugRun.answer_validSt (r : DebugRun) : r.answer.validSt = none := by
  unfold DebugRun.answer
  repeat' split
  all_goals rfl

theorem State.beginActivation_validSt (s : State) (inst copy : Nat) (revert : Bool) (via : Via) (h : Nat) :
    (s.beginActivation inst copy revert via h).validSt = none := by
  unfold State.beginActivation
  dsimp only
  repeat' split
  all_goals rfl

theorem ite_validSt {c : Prop} [Decidable c] {a b : Ans} (ha : a.validSt = none) (hb : b.validSt = none) :
    (if c then a else b).validSt = none := by
  split_ifs <;> assumption

/-- Every mailbox command but `cfg.record.apply` goes through the shared operation with a body that leaves nothing under VALIDATE (R561). -/
theorem IsMailbox.exec_plain {cmd : Req → Instr} {row : CmdRow} {min : Nat} (h : IsMailbox cmd row min)
    (hop : row.opcode ≠ Cmd.cfgRecordApply.opcode) (rq : Req) :
    ∃ body : Nat → State → Ans, (∀ s, exec (cmd rq) s = command row min rq s body) ∧ ∀ h s, (body h s).validSt = none := by
  cases h
  case cfgRecordApply => exact absurd rfl hop
  case dispStreamOpen =>
    refine ⟨_, fun _ => rfl, fun h s => ?_⟩
    refine ite_validSt rfl (ite_validSt rfl ?_)
    split
    refine ite_validSt rfl (ite_validSt rfl (ite_validSt rfl (ite_validSt rfl (ite_validSt rfl (ite_validSt ?_ rfl)))))
    dsimp only
    split <;> rfl
  all_goals
    refine ⟨_, fun _ => rfl, fun h s => ?_⟩
    try dsimp only
    repeat' split
  all_goals
    simp only [Ans.fail, Ans.show, Ans.done, Ans.long, DebugRun.answer_validSt, State.beginActivation_validSt]

/-! ### What a reply leaves alone -/

@[simp] theorem State.modChan_mbx_waiting (s : State) (c : Chan) (f : ChanSt → ChanSt) :
    (s.modChan c f).mbx.waiting = s.mbx.waiting := by cases c <;> rfl

@[simp] theorem State.usbReady_mbx_waiting (s : State) (k : List Nat) : (s.usbReady k).mbx.waiting = s.mbx.waiting := by
  unfold State.usbReady
  exact foldl_same _ (fun t : State => t.mbx.waiting) (fun _ _ => by simp) _ _

@[simp] theorem State.holdReply_mbx_waiting (s : State) (v : Via) (r : Reply) : (s.holdReply v r).mbx.waiting = s.mbx.waiting := by
  cases v with
  | usb => simp only [State.holdReply]; split_ifs <;> rw [State.usbReady_mbx_waiting]
  | _ => rfl

@[simp] theorem State.fwReply_mbx_waiting (s : State) (m : Msg) (rc : Rc) (h : Nat) (d : List Byte) :
    (s.fwReply m rc h d).mbx.waiting = s.mbx.waiting := by simp [State.fwReply, State.reply]

@[simp] theorem State.still_hwReply (s : State) (m : Msg) (rc : Rc) : (s.hwReply m rc).still = s.still := by
  have hchan : ∀ t : State,
      (t.modChan (viaChan m.rq.via) fun x => { x with last := some m, stored := none }).still = t.still :=
    fun t => State.still_modChan _ _ _ fun _ => rfl
  exact (hchan _).trans (State.still_reply _ _ _ _ _ _)

/-- A reply of the hardware is out, and none is stored (R66). -/
theorem State.hwReply_out (s : State) (op : Nat) (rq : Req) (rc : Rc) :
    ((s.hwReply (msgOf rq op) rc).chan (viaChan rq.via)).stored = none
      ∧ ∃ r, Emit.reply rq.via r ∈ (s.hwReply (msgOf rq op) rc).out ∧ r.tag = rq.tag ∧ r.result = rc.code ∧ r.data = [] := by
  refine ⟨by simp [State.hwReply, msgOf], (s.reply rq.via rq.tag rc.code 0 []).1, ?_, rfl, rfl, rfl⟩
  simp [State.hwReply, State.reply, msgOf]

theorem State.enqueue_out (s : State) (m : Msg) : (s.enqueue m).out = s.out := rfl

theorem State.enqueue_chan (s : State) (m : Msg) (c : Chan) : (s.enqueue m).chan c = s.chan c := by cases c <;> rfl

/-! ### The arrival of a request -/

section Arrival
variable {row : CmdRow} {min : Nat} {rq : Req} {s : State} {body : Nat → State → Ans}

/-- A request that is not among those that wait is brought by its transport in this instant (R49). -/
theorem command_arrives (ha : s.awake = true) (hw : (s.mbx.waiting.any fun w => w.msg == msgOf rq row.opcode) = false) :
    command row min rq s body = .next (s.begin.arriveRq row min rq body) := by
  unfold command run
  rw [runIf_live ha, State.begin_mbx]
  cases hl : s.mbx.waiting with
  | nil => rfl
  | cons w rest =>
    rw [hl, List.any_cons, Bool.or_eq_false_iff] at hw
    obtain ⟨hfirst, hrest⟩ := hw
    simp only [hfirst, hrest, Bool.false_eq_true, if_false]

theorem State.arriveRq_eq :
    s.begin.arriveRq row min rq body = match ((s.heard row rq).chan (viaChan rq.via)).stored with
      | some r =>
        if ((s.heard row rq).chan (viaChan rq.via)).isLast (msgOf rq row.opcode) && reqHops rq == 0 then
          ((s.heard row rq).holdReply rq.via r).emit (.reply rq.via r)
        else (s.heard row rq).start row min rq body
      | none => (s.heard row rq).start row min rq body := by
  rfl

/-- A request that repeats its channel's last one is answered from the stored reply (R52). -/
theorem State.arriveRq_repeated {r : Reply} (hs : (s.chan (viaChan rq.via)).stored = some r)
    (hl : (s.chan (viaChan rq.via)).isLast (msgOf rq row.opcode) = true) (hh : reqHops rq = 0) :
    s.begin.arriveRq row min rq body = ((s.heard row rq).holdReply rq.via r).emit (.reply rq.via r) := by
  have hl' : ((s.heard row rq).chan (viaChan rq.via)).isLast (msgOf rq row.opcode) = true := by
    simpa only [ChanSt.isLast, State.heard_chan_last] using hl
  rw [State.arriveRq_eq, State.heard_chan_stored, hs]
  simp [hl', hh]

/-- The request is not one that the channel has answered. -/
def State.fresh (s : State) (row : CmdRow) (rq : Req) : Prop :=
  (s.chan (viaChan rq.via)).stored = none ∨ (s.chan (viaChan rq.via)).isLast (msgOf rq row.opcode) = false ∨ reqHops rq ≠ 0

theorem State.arriveRq_fresh (h : s.fresh row rq) : s.begin.arriveRq row min rq body = (s.heard row rq).start row min rq body := by
  have hlast : ((s.heard row rq).chan (viaChan rq.via)).isLast (msgOf rq row.opcode)
      = (s.chan (viaChan rq.via)).isLast (msgOf rq row.opcode) := by simp only [ChanSt.isLast, State.heard_chan_last]
  rw [State.arriveRq_eq, State.heard_chan_stored, hlast]
  cases hs : (s.chan (viaChan rq.via)).stored with
  | none => rfl
  | some r =>
    have hnot : ((s.chan (viaChan rq.via)).isLast (msgOf rq row.opcode) && reqHops rq == 0) = false := by
      rcases h with h | h | h
      · rw [hs] at h
        cases h
      · rw [h, Bool.false_and]
      · rw [beq_eq_false_iff_ne.mpr h, Bool.and_false]
    simp only [hnot, Bool.false_eq_true, if_false]

/-- Without firmware the hardware answers (R66). -/
theorem State.start_unattended (h : s.fwRuns = false) : s.start row min rq body = s.hwReply (msgOf rq row.opcode) .retryLater := by
  simp [State.start, h]

theorem State.start_waits (h : s.fwRuns = true) (hw : s.pins.mgtHalted = true ∨ s.mbx.waiting ≠ []) :
    s.start row min rq body = s.enqueue (msgOf rq row.opcode) := by
  have hcond : (s.pins.mgtHalted || !s.mbx.waiting.isEmpty) = true := by
    rcases hw with hw | hw
    · rw [hw, Bool.true_or]
    · simp [List.isEmpty_eq_false_iff.mpr hw]
  simp [State.start, h, hcond]

theorem State.start_performs (h : s.fwRuns = true) (hm : s.pins.mgtHalted = false) (hw : s.mbx.waiting = []) :
    s.start row min rq body = s.perform row min rq none body := by
  simp [State.start, h, hm, hw]

/-! ### The checks of Table 22.7 -/

/-- Step 4: DEBUG is locked in SCRAPPED. -/
theorem State.perform_locked (hc : viaChan rq.via = .dbg) (hl : s.lifecycle = 5) :
    s.perform row min rq none body = s.fwReply (msgOf rq row.opcode) .locked 0 [] := by
  simp [State.perform, State.respond, hc, hl, lcScrapped]

/-- The request passes step 4. -/
def State.unlocked (s : State) (rq : Req) : Prop := viaChan rq.via ≠ .dbg ∨ s.lifecycle ≠ 5

theorem State.unlocked_iff : s.unlocked rq ↔ (viaChan rq.via == .dbg && s.lifecycle == lcScrapped) = false := by
  unfold State.unlocked lcScrapped
  rw [Bool.and_eq_false_iff, beq_eq_false_iff_ne, beq_eq_false_iff_ne]

theorem State.perform_long (hu : s.unlocked rq) (hl : 1024 < rq.payload.length) :
    s.perform row min rq none body = s.fwReply (msgOf rq row.opcode) .badLength 0 [] := by
  simp [State.perform, State.respond, State.unlocked_iff.mp hu, hl]

theorem State.perform_hops (hu : s.unlocked rq) (hl : rq.payload.length ≤ 1024) (hh : reqHops rq = 7) :
    s.perform row min rq none body = s.fwReply (msgOf rq row.opcode) .badState 0 [] := by
  simp [State.perform, State.respond, State.unlocked_iff.mp hu, Nat.not_lt.mpr hl, hh]

/-- Steps 8 and 9 of a request for this hub. -/
theorem State.perform_here (hu : s.unlocked rq) (hl : rq.payload.length ≤ 1024) (hh : reqHops rq = 0) :
    s.perform row min rq none body =
      let h := (s.chan (viaChan rq.via)).freeHandle
      let a := s.answer row min rq 0 h body
      (s.settle row rq h a).fwReply (msgOf rq row.opcode) a.rc (if a.rc == .accepted && !a.noJob && !reqValidate rq then h else 0)
        a.data := by
  simp [State.perform, State.unlocked_iff.mp hu, Nat.not_lt.mpr hl, hh]

theorem State.still_useNonce {u w : State} (h : u.still = w.still) (v : Via) (b : List Byte) :
    (u.useNonce v b).still = (w.useNonce v b).still := by
  have key : ∀ x : State, (x.useNonce v b).still = (x.still).useNonce v b := fun x => by
    cases v <;> simp [State.useNonce, State.modChan, State.setChan, State.chan, viaChan, State.still, State.hush, State.calm, MbxSt.hush,
      MbxSt.calm, ChanSt.hush, ChanSt.calm]
  rw [key, key, h]

theorem State.still_turnedAway {u w : State} (h : u.still = w.still) (row : CmdRow) (rq : Req) (rc : Rc) :
    (u.turnedAway row rq rc).st.still = (w.turnedAway row rq rc).st.still := by
  unfold State.turnedAway
  dsimp only
  split_ifs
  · exact State.still_useNonce h _ _
  · exact State.still_useNonce h _ _
  · exact h

/-- What a request leaves whose check of step 8 or of the fixed length of step 9 fails (R58, R561). -/
theorem State.settle_turnedAway {rc : Rc} (hrc : (rc == Rc.accepted) = false) (h : Nat) :
    s.settle row rq h (s.turnedAway row rq rc) = if reqValidate rq then s else (s.turnedAway row rq rc).st := by
  have hacc : (s.turnedAway row rq rc).rc = rc := rfl
  simp only [State.settle, hacc, hrc, Bool.false_and, Bool.false_eq_true, if_false]
  rfl

/-- The reply and the state of a request that is turned away. -/
theorem State.perform_turnedAway {rc : Rc} (hu : s.unlocked rq) (hl : rq.payload.length ≤ 1024) (hh : reqHops rq = 0)
    (hrc : (rc == Rc.accepted) = false)
    (ha : s.answer row min rq 0 (s.chan (viaChan rq.via)).freeHandle body = s.turnedAway row rq rc) :
    s.perform row min rq none body =
      (if reqValidate rq then s else (s.turnedAway row rq rc).st).fwReply (msgOf rq row.opcode) rc 0 [] := by
  have hacc : (s.turnedAway row rq rc).rc = rc := rfl
  rw [State.perform_here hu hl hh]
  simp only [ha, State.settle_turnedAway hrc, hacc, hrc, Bool.false_and, Bool.false_eq_true, if_false]
  rfl

theorem State.answer_badHandle (hl : s.reqLevel rq = none) (h : Nat) :
    s.answer row min rq 0 h body = s.turnedAway row rq .badHandle := by
  simp only [State.answer, hl]

theorem State.answer_denied {l : Nat} (hl : s.reqLevel rq = some l)
    (hd : l < row.level ∨ (row.chans ≠ [] ∧ viaChan rq.via ∉ row.chans)) (h : Nat) :
    s.answer row min rq 0 h body = s.turnedAway row rq .denied := by
  simp only [State.answer, hl]
  by_cases hlow : l < row.level
  · rw [if_pos hlow]
  · obtain ⟨hne, hnot⟩ := hd.resolve_left hlow
    have hcond : (!row.chans.isEmpty && !row.chans.contains (viaChan rq.via)) = true := by
      simp [List.isEmpty_eq_false_iff.mpr hne, hnot]
    rw [if_neg hlow, if_pos hcond]

theorem State.answer_badLength {l : Nat} (hl : s.reqLevel rq = some l) (hle : row.level ≤ l)
    (hc : row.chans = [] ∨ viaChan rq.via ∈ row.chans) (hlen : rq.payload.length < min) (h : Nat) :
    s.answer row min rq 0 h body = s.turnedAway row rq .badLength := by
  have hcond : ¬ (!row.chans.isEmpty && !row.chans.contains (viaChan rq.via)) = true := by
    rcases hc with hc | hc <;> simp [hc]
  simp only [State.answer, hl, if_neg (Nat.not_lt.mpr hle), if_neg hcond, if_pos hlen]

/-- No check leaves anything under VALIDATE where the command's body does not (R561). -/
theorem State.answer_validSt (hb : ∀ h s, (body h s).validSt = none) (h : Nat) : (s.answer row min rq 0 h body).validSt = none := by
  have hturn : ∀ rc, (s.turnedAway row rq rc).validSt = none := fun _ => rfl
  unfold State.answer
  split
  · exact hturn _
  · refine ite_validSt (hturn _) (ite_validSt (hturn _) (ite_validSt (hturn _) (ite_validSt ?_ (ite_validSt (hturn _) ?_))))
    · exact hb h s
    · exact hb h s

end Arrival

/-! ### The checks of a mailbox command that arrives -/

section Checks
variable {cmd : Req → Instr} {row : CmdRow} {min : Nat} {rq : Req} {s : State} {body : Nat → State → Ans}

/-- The command answers a result and leaves the state alone. -/
def Refuses (i : Instr) (rq : Req) (s : State) (rc : Rc) : Prop := Gives i s fun t => t.still = s.still ∧ t.Replied rq rc 0 []

/-- The command answers a result and leaves what a check leaves that comes before the command's own rules (R58, R561). -/
def TurnsAway (i : Instr) (row : CmdRow) (rq : Req) (s : State) (rc : Rc) : Prop := Gives i s fun t =>
  t.still = (if reqValidate rq then s else (s.turnedAway row rq rc).st).still ∧ t.Replied rq rc 0 []

variable (hx : exec (cmd rq) s = .next ((s.heard row rq).perform row min rq none body))
include hx

theorem refuses_of {rc : Rc}
    (h : (s.heard row rq).perform row min rq none body = (s.heard row rq).fwReply (msgOf rq row.opcode) rc 0 []) :
    Refuses (cmd rq) rq s rc :=
  ⟨_, hx, by rw [h, State.still_fwReply, State.still_heard], by rw [h]; exact State.fwReply_replied _ _ _ _ _ _⟩

/-- Steps 4 to 6. -/
theorem message_checks (hu : s.unlocked rq) :
    (1024 < rq.payload.length → Refuses (cmd rq) rq s .badLength)
    ∧ (rq.payload.length ≤ 1024 → reqHops rq = 7 → Refuses (cmd rq) rq s .badState) := by
  have hu' : (s.heard row rq).unlocked rq := by simpa [State.unlocked] using hu
  exact ⟨fun hl => refuses_of hx (State.perform_long hu' hl), fun hl hh => refuses_of hx (State.perform_hops hu' hl hh)⟩

theorem turnsAway_of {rc : Rc} (hu : s.unlocked rq) (hl : rq.payload.length ≤ 1024) (hh : reqHops rq = 0)
    (hrc : (rc == Rc.accepted) = false)
    (h : (s.heard row rq).answer row min rq 0 ((s.heard row rq).chan (viaChan rq.via)).freeHandle body
      = (s.heard row rq).turnedAway row rq rc) : TurnsAway (cmd rq) row rq s rc := by
  have hu' : (s.heard row rq).unlocked rq := by simpa [State.unlocked] using hu
  have hp := State.perform_turnedAway hu' hl hh hrc h
  refine ⟨_, hx, ?_, by rw [hp]; exact State.fwReply_replied _ _ _ _ _ _⟩
  rw [hp, State.still_fwReply]
  split_ifs
  · exact State.still_heard _ _ _
  · exact State.still_turnedAway (State.still_heard _ _ _) _ _ _

/-- Step 8, and the fixed length of step 9. -/
theorem level_checks (hu : s.unlocked rq) (hl : rq.payload.length ≤ 1024) (hh : reqHops rq = 0) :
    (s.reqLevel rq = none → TurnsAway (cmd rq) row rq s .badHandle)
    ∧ ∀ l, s.reqLevel rq = some l →
      ((l < row.level ∨ (row.chans ≠ [] ∧ viaChan rq.via ∉ row.chans)) → TurnsAway (cmd rq) row rq s .denied)
      ∧ (row.level ≤ l → (row.chans = [] ∨ viaChan rq.via ∈ row.chans) → rq.payload.length < min →
        TurnsAway (cmd rq) row rq s .badLength) := by
  have hlev : (s.heard row rq).reqLevel rq = s.reqLevel rq := State.reqLevel_heard row rq s rq
  exact ⟨fun h => turnsAway_of hx hu hl hh rfl (State.answer_badHandle (hlev.trans h) _), fun l h =>
    ⟨fun hd => turnsAway_of hx hu hl hh rfl (State.answer_denied (hlev.trans h) hd _),
      fun hle hc hlen => turnsAway_of hx hu hl hh rfl (State.answer_badLength (hlev.trans h) hle hc hlen _)⟩⟩

/-- A request with VALIDATE changes nothing (R561). -/
theorem validate_keeps (hb : ∀ h s, (body h s).validSt = none) (hu : s.unlocked rq) (hl : rq.payload.length ≤ 1024) (hh : reqHops rq = 0)
    (hv : reqValidate rq = true) : Gives (cmd rq) s fun t => t.still = s.still := by
  have hu' : (s.heard row rq).unlocked rq := by simpa [State.unlocked] using hu
  rw [State.perform_here hu' hl hh] at hx
  refine ⟨_, hx, ?_⟩
  dsimp only
  rw [State.still_fwReply, State.settle, if_pos hv, State.answer_validSt hb]
  exact State.still_heard _ _ _

end Checks

/-- With firmware that runs and nothing before it, a new request is performed at once (R49). -/
theorem exec_performs {cmd : Req → Instr} {row : CmdRow} {min : Nat} {rq : Req} {s : State} {body : Nat → State → Ans}
    (hx : ∀ s, exec (cmd rq) s = command row min rq s body) (ha : s.awake = true)
    (hf : s.fresh row rq) (hr : s.fwRuns = true) (hm : s.pins.mgtHalted = false) (he : s.mbx.waiting = []) :
    exec (cmd rq) s = .next ((s.heard row rq).perform row min rq none body) := by
  rw [hx, command_arrives ha (by rw [he]; rfl), State.arriveRq_fresh hf,
    State.start_performs ((State.fwRuns_heard row rq s).trans hr) (by rw [State.heard_pins, hm]) ((State.heard_mbx_waiting row rq s).trans he)]

/-- What a request finds before its own checks: an answer that stands already (R52), a hub without firmware (R66), another before it
(R49). -/
theorem IsMailbox.arrival {cmd : Req → Instr} {row : CmdRow} {min : Nat} (hcmd : IsMailbox cmd row min) (rq : Req) (s : State)
    (ha : s.awake = true) (hw : (s.mbx.waiting.any fun w => w.msg == msgOf rq row.opcode) = false) :
    (∀ r, (s.chan (viaChan rq.via)).stored = some r → (s.chan (viaChan rq.via)).isLast (msgOf rq row.opcode) = true → reqHops rq = 0 →
      Gives (cmd rq) s fun t => t.still = s.still ∧ Emit.reply rq.via r ∈ t.out)
    ∧ (s.fresh row rq → s.fwRuns = false → Gives (cmd rq) s fun t => t.still = s.still ∧ (t.chan (viaChan rq.via)).stored = none
        ∧ ∃ r, Emit.reply rq.via r ∈ t.out ∧ r.tag = rq.tag ∧ r.result = Rc.retryLater.code ∧ r.data = [])
    ∧ (s.fresh row rq → s.fwRuns = true → s.pins.mgtHalted = true ∨ s.mbx.waiting ≠ [] →
      Gives (cmd rq) s fun t =>
        t.mbx.waiting = enterWait ⟨msgOf rq row.opcode, s.time.tick, s.time.slot, none⟩ s.mbx.waiting
        ∧ (t.chan (viaChan rq.via)).stored = (s.chan (viaChan rq.via)).stored ∧ ∀ via r, Emit.reply via r ∉ t.out) := by
  obtain ⟨body, hx⟩ := hcmd.exec_eq_command rq
  have hrun : exec (cmd rq) s = .next (s.begin.arriveRq row min rq body) := (hx s).trans (command_arrives ha hw)
  refine ⟨fun r hs hl hh => ?_, fun hf hr => ?_, fun hf hr hb => ?_⟩
  · rw [State.arriveRq_repeated hs hl hh] at hrun
    exact ⟨_, hrun, by simp, by simp⟩
  · rw [State.arriveRq_fresh hf, State.start_unattended ((State.fwRuns_heard row rq s).trans hr)] at hrun
    exact ⟨_, hrun, by simp, State.hwReply_out _ _ _ _⟩
  · have hb' : (s.heard row rq).pins.mgtHalted = true ∨ (s.heard row rq).mbx.waiting ≠ [] := by
      rwa [State.heard_pins, State.heard_mbx_waiting]
    rw [State.arriveRq_fresh hf, State.start_waits ((State.fwRuns_heard row rq s).trans hr) hb'] at hrun
    have hout : (s.heard row rq).out = [] := by simp [State.heard]
    refine ⟨_, hrun, ?_, ?_, fun via r hmem => ?_⟩
    · rw [State.enqueue, State.heard_mbx_waiting, State.heard_time]
    · rw [State.enqueue_chan, State.heard_chan_stored]
    · rw [State.enqueue_out, hout] at hmem
      cases hmem

/-- The checks that a new request meets at a hub whose firmware is free for it. -/
theorem IsMailbox.checks {cmd : Req → Instr} {row : CmdRow} {min : Nat} (hcmd : IsMailbox cmd row min) (rq : Req) (s : State)
    (ha : s.awake = true) (hf : s.fresh row rq) (hr : s.fwRuns = true) (hm : s.pins.mgtHalted = false) (he : s.mbx.waiting = []) :
    (viaChan rq.via = .dbg → s.lifecycle = 5 → Refuses (cmd rq) rq s .locked)
    ∧ (s.unlocked rq →
      (1024 < rq.payload.length → Refuses (cmd rq) rq s .badLength)
      ∧ (rq.payload.length ≤ 1024 → reqHops rq = 7 → Refuses (cmd rq) rq s .badState)
      ∧ (rq.payload.length ≤ 1024 → reqHops rq = 0 →
        (s.reqLevel rq = none → TurnsAway (cmd rq) row rq s .badHandle)
        ∧ ∀ l, s.reqLevel rq = some l →
          ((l < row.level ∨ (row.chans ≠ [] ∧ viaChan rq.via ∉ row.chans)) → TurnsAway (cmd rq) row rq s .denied)
          ∧ (row.level ≤ l → (row.chans = [] ∨ viaChan rq.via ∈ row.chans) → rq.payload.length < min →
            TurnsAway (cmd rq) row rq s .badLength)
          ∧ (reqValidate rq = true → row.opcode ≠ Cmd.cfgRecordApply.opcode → Gives (cmd rq) s fun t => t.still = s.still))) := by
  obtain ⟨body, hxb⟩ := hcmd.exec_eq_command rq
  have hx := exec_performs hxb ha hf hr hm he
  refine ⟨fun hc hl => refuses_of hx (State.perform_locked hc ((State.lifecycle_heard row rq s).trans hl)), fun hu => ?_⟩
  obtain ⟨hlong, hhops⟩ := message_checks hx hu
  refine ⟨hlong, hhops, fun hl hh => ?_⟩
  obtain ⟨hnone, hsome⟩ := level_checks hx hu hl hh
  refine ⟨hnone, fun l h => ⟨(hsome l h).1, (hsome l h).2, fun hv hop => ?_⟩⟩
  obtain ⟨plain, hxp, hp⟩ := hcmd.exec_plain hop rq
  exact validate_keeps (exec_performs hxp ha hf hr hm he) hp hu hl hh hv

/-- A request that waits executes when it is first in the order and no debugger holds the management core; one that is held, or further back,
does nothing yet (R49, R503). -/
theorem IsMailbox.waiting_turn {cmd : Req → Instr} {row : CmdRow} {min : Nat} (hcmd : IsMailbox cmd row min) (rq : Req) (s : State)
    (w : Wait) (rest : List Wait) (ha : s.awake = true) (hw : s.mbx.waiting = w :: rest) :
    (w.msg = msgOf rq row.opcode → s.pins.mgtHalted = false → w.late = none → s.unlocked rq → rq.payload.length ≤ 1024 →
        reqHops rq = 0 → s.reqLevel rq = none → reqValidate rq = true →
      Gives (cmd rq) s fun t => t.mbx.waiting = rest ∧ t.Replied rq .badHandle 0 [])
    ∧ ((w.msg = msgOf rq row.opcode ∧ s.pins.mgtHalted = true)
        ∨ (w.msg ≠ msgOf rq row.opcode ∧ (rest.any fun v => v.msg == msgOf rq row.opcode) = true) →
      Gives (cmd rq) s fun t => t = s.begin) := by
  obtain ⟨body, hx⟩ := hcmd.exec_eq_command rq
  have hrun : exec (cmd rq) s = .next (
      if w.msg == msgOf rq row.opcode then
        if s.pins.mgtHalted then s.begin
        else ({ s.begin with mbx := { s.begin.mbx with waiting := rest } } : State).perform row min rq w.late body
      else if rest.any fun v => v.msg == msgOf rq row.opcode then s.begin
      else s.begin.arriveRq row min rq body) := by
    rw [hx]
    unfold command run
    rw [runIf_live ha, State.begin_mbx, hw]
    rfl
  refine ⟨fun hm hh hl hu hlen hops hlev hv => ?_, fun h => ⟨_, hrun, ?_⟩⟩
  · generalize hrest : ({ s.begin with mbx := { s.begin.mbx with waiting := rest } } : State) = u at hrun
    have hu' : u.unlocked rq := hrest ▸ hu
    have hlev' : u.reqLevel rq = none := hrest ▸ hlev
    have hperf := State.perform_turnedAway (row := row) (min := min) (body := body) hu' hlen hops (by decide) (State.answer_badHandle hlev' _)
    rw [if_pos hv] at hperf
    simp only [hm, beq_self_eq_true, if_true, hh, Bool.false_eq_true, if_false, hl, hperf] at hrun
    refine ⟨_, hrun, ?_, State.fwReply_replied _ _ _ _ _ _⟩
    rw [State.fwReply_mbx_waiting, ← hrest]
  · rcases h with ⟨hm, hh⟩ | ⟨hm, hr⟩
    · simp [hm, hh]
    · simp [hm, hr]

/-- Settles O7: an arrival meets the checks in their order, and a request that waits executes in its turn. -/
theorem orderOfChecks : Obligations.OrderOfChecks := by
  refine ⟨fun cmd row min hcmd rq s => ?_, fun _ _ _ hcmd rq s w rest ha hw => hcmd.waiting_turn rq s w rest ha hw⟩
  intro c m refuses turnsAway fresh ha hw
  obtain ⟨hagain, hbare, hwaits⟩ := hcmd.arrival rq s ha hw
  exact ⟨hagain, hbare, hwaits, fun hf hr hm he => hcmd.checks rq s ha hf hr hm he⟩

end Sys2Proof.Machine

/-! What no operation of the model touches: the queue of commands that wait, and, but for the writes to memory themselves, the memory.
One lemma per shared operation, in the order of the model's files. -/
namespace Sys2Proof.Machine

/-- The queue of commands and the memory. -/
def State.kept (s : State) : List Instr × List Host.Cell := (s.pending, s.mem.cells)

@[simp] theorem State.kept_eq (s : State) : (s.pending, s.mem.cells) = s.kept := rfl

/-- Two states agree on them where their parts do. -/
theorem State.kept_congr {s t : State} (hp : t.pending = s.pending) (hm : t.mem.cells = s.mem.cells) : t.kept = s.kept :=
  Prod.ext hp hm

@[simp] theorem State.kept_ite (c : Prop) [Decidable c] (s t : State) : (if c then s else t).kept = if c then s.kept else t.kept :=
  apply_ite State.kept c s t

/-- A fold whose every step keeps them keeps them. -/
@[simp] theorem State.kept_foldl {β : Type} {f : State → β → State} (h : ∀ s b, (f s b).kept = s.kept) (l : List β) (s : State) :
    (l.foldl f s).kept = s.kept :=
  foldl_same f State.kept h l s

/-- The same of a fold whose accumulator holds the state. -/
theorem foldl_kept {α β : Type} (φ : α → State) {f : α → β → α} (h : ∀ a b, (φ (f a b)).kept = (φ a).kept) (l : List β) (a : α) :
    (φ (l.foldl f a)).kept = (φ a).kept :=
  foldl_same f (fun a => (φ a).kept) h l a

theorem State.kept_of_ite {c : Prop} [Decidable c] {a b s : State} (ha : a.kept = s.kept) (hb : b.kept = s.kept) :
    (if c then a else b).kept = s.kept := by
  split_ifs <;> assumption

theorem kept_snd_of_ite {α : Type} {c : Prop} [Decidable c] {a b : α × State} {s : State} (ha : a.2.kept = s.kept)
    (hb : b.2.kept = s.kept) : (if c then a else b).2.kept = s.kept := by
  split_ifs <;> assumption

@[simp] theorem kept_ite_st (c : Prop) [Decidable c] (a b : ContractAns) :
    (if c then a else b).st.kept = if c then a.st.kept else b.st.kept := apply_ite (fun x : ContractAns => x.st.kept) c a b

@[simp] theorem kept_ite_bridge (c : Prop) [Decidable c] (a b : BindAns) :
    (if c then a else b).st.kept = if c then a.st.kept else b.st.kept := apply_ite (fun x : BindAns => x.st.kept) c a b

@[simp] theorem kept_ite_open (c : Prop) [Decidable c] (a b : OpenAns) :
    (if c then a else b).st.kept = if c then a.st.kept else b.st.kept := apply_ite (fun x : OpenAns => x.st.kept) c a b

@[simp] theorem kept_ite_snd {α : Type} (c : Prop) [Decidable c] (a b : α × State) :
    (if c then a else b).2.kept = if c then a.2.kept else b.2.kept := apply_ite (fun x : α × State => x.2.kept) c a b

@[simp] theorem kept_ite_fst {α : Type} (c : Prop) [Decidable c] (a b : State × α) :
    (if c then a else b).1.kept = if c then a.1.kept else b.1.kept := apply_ite (fun x : State × α => x.1.kept) c a b

@[simp] theorem kept_foldl_snd {α β : Type} {f : α × State → β → α × State} (h : ∀ a b, (f a b).2.kept = a.2.kept) (l : List β)
    (a : α × State) : (l.foldl f a).2.kept = a.2.kept := foldl_kept Prod.snd h l a

@[simp] theorem kept_foldl_fst {α β : Type} {f : State × α → β → State × α} (h : ∀ a b, (f a b).1.kept = a.1.kept) (l : List β)
    (a : State × α) : (l.foldl f a).1.kept = a.1.kept := foldl_kept Prod.fst h l a

@[simp] theorem kept_foldl_st {β : Type} {f : ContractAns → β → ContractAns} (h : ∀ a b, (f a b).st.kept = a.st.kept) (l : List β)
    (a : ContractAns) : (l.foldl f a).st.kept = a.st.kept := foldl_kept ContractAns.st h l a

@[simp] theorem State.begin_kept (s : State) : s.begin.kept = s.kept := State.kept_congr rfl rfl
@[simp] theorem State.emit_kept (s : State) (e : Emit) : (s.emit e).kept = s.kept := State.kept_congr rfl rfl

@[simp] theorem State.spore1_kept (s : State) (k c f : Nat) (p : List Byte) : (s.spore1 k c f p).kept = s.kept :=
  State.kept_congr (by simp) (by simp)

@[simp] theorem State.spore_kept (s : State) (k c : Nat) (p : List Byte) : (s.spore k c p).kept = s.kept :=
  State.kept_congr (by simp) (by simp)

@[simp] theorem State.recTrigger_kept (s : State) (c : Nat) : (s.recTrigger c).kept = s.kept :=
  State.kept_congr (by simp) (by simp)

@[simp] theorem State.raise_kept (s : State) (n a : Nat) : (s.raise n a).kept = s.kept := State.kept_congr (by simp) (by simp)

end Sys2Proof.Machine

/-! The operations of the model leave the queue of commands and the memory alone: one lemma for each, in the order of the model's files, for
`simp`; the few operations that write memory, and those that call them, stand after these. -/
namespace Sys2Proof.Machine

@[simp] theorem State.kept_mk (pending out free grade time topo mbx cfg boot fault pins rcd trust upd cable sw plan disp pcie usb net sb mem svc
    cc ppath pwr) :
    State.kept ⟨pending, out, free, grade, time, topo, mbx, cfg, boot, fault, pins, rcd, trust, upd, cable, sw, plan, disp, pcie, usb, net, sb,
      mem, svc, cc, ppath, pwr⟩ = (pending, mem.cells) := rfl

/-! ### Ops -/

@[simp] theorem State.draw_kept (s : State) : (s.draw).2.kept = s.kept := State.kept_congr rfl rfl
@[simp] theorem State.takeForce_kept (s : State) (w : When) : (s.takeForce w).kept = s.kept := State.kept_congr rfl rfl
@[simp] theorem State.cryptoSpore_kept (s : State) (ok : Bool) (handle : Nat) (pub : List Byte) :
    (s.cryptoSpore ok handle pub).kept = s.kept := by simp [State.cryptoSpore]
@[simp] theorem State.setChan_kept (s : State) (c : Chan) (x : ChanSt) : (s.setChan c x).kept = s.kept := by
  unfold State.setChan
  split <;> simp

@[simp] theorem State.modChan_kept (s : State) (c : Chan) (f : ChanSt → ChanSt) : (s.modChan c f).kept = s.kept := by simp [State.modChan]
@[simp] theorem State.raiseOn_kept (s : State) (c : Chan) (n : Nat) (arg : Nat) :
    (s.raiseOn c n arg).kept = s.kept := by simp [State.raiseOn]
@[simp] theorem State.raiseIf_kept (s : State) (c : Bool) (n : Nat) (arg : Nat) :
    (s.raiseIf c n arg).kept = s.kept := by simp [State.raiseIf]
@[simp] theorem State.peerSend_kept (s : State) (port : Nat) (bs : List Byte) :
    (s.peerSend port bs).kept = s.kept := State.kept_congr rfl rfl
@[simp] theorem State.usbReady_kept (s : State) (ks : List Nat) : (s.usbReady ks).kept = s.kept := by simp [State.usbReady]
@[simp] theorem State.holdReply_kept (s : State) (via : Via) (r : Reply) : (s.holdReply via r).kept = s.kept := by
  unfold State.holdReply
  split <;> simp

@[simp] theorem State.reply_kept (s : State) (via : Via) (tag : Half) (rc : Nat) (handle : Nat) (data : List Byte) :
    (s.reply via tag rc handle data).2.kept = s.kept := by simp [State.reply]
@[simp] theorem State.hwReply_kept (s : State) (m : Msg) (rc : Rc) : (s.hwReply m rc).kept = s.kept := by simp [State.hwReply]
@[simp] theorem State.fwReply_kept (s : State) (m : Msg) (rc : Rc) (handle : Nat) (data : List Byte) :
    (s.fwReply m rc handle data).kept = s.kept := by simp [State.fwReply]
@[simp] theorem State.addJob_kept (s : State) (via : Via) (opcode h : Nat) (plan : Option (Nat × List Byte)) :
    (s.addJob via opcode h plan).kept = s.kept := by simp [State.addJob]
@[simp] theorem State.finish_kept (s : State) (via : Via) (h : Nat) (rc : Nat) (data : List Byte) :
    (s.finish via h rc data).kept = s.kept := by
  unfold State.finish
  dsimp only
  split <;> simp

@[simp] theorem State.finishRc_kept (s : State) (via : Via) (h : Nat) (rc : Rc) (data : List Byte) :
    (s.finishRc via h rc data).kept = s.kept := by simp [State.finishRc]
@[simp] theorem State.useNonce_kept (s : State) (via : Via) (bytes : List Byte) :
    (s.useNonce via bytes).kept = s.kept := by simp [State.useNonce]
@[simp] theorem State.countLocal_kept (s : State) (via : Via) : (s.countLocal via).kept = s.kept := by simp [State.countLocal]
@[simp] theorem State.respond_kept (s : State) (m : Msg) (late : Option Nat) (rc : Rc) : (s.respond m late rc).kept = s.kept := by
  unfold State.respond
  split <;> simp

@[simp] theorem State.sendDown_kept (s : State) (origin : FwdOrigin) (port : Nat) (m : Msg) :
    (s.sendDown origin port m).kept = s.kept := by simp [State.sendDown]
@[simp] theorem State.forward_kept (s : State) (m : Msg) (late : Option Nat) : (s.forward m late).kept = s.kept := by
  unfold State.forward
  split <;> simp

@[simp] theorem State.relay_kept (s : State) (m : Msg) (late : Option Nat) (up : Nat) : (s.relay m late up).kept = s.kept := by
  unfold State.relay
  split <;> simp

@[simp] theorem State.pass_kept (s : State) (m : Msg) (late : Option Nat) : (s.pass m late).kept = s.kept := by
  unfold State.pass
  split <;> simp

@[simp] theorem State.deferReset_kept (s : State) (kind cause ticks : Nat) :
    (s.deferReset kind cause ticks).kept = s.kept := State.kept_congr rfl rfl
@[simp] theorem State.enqueue_kept (s : State) (m : Msg) : (s.enqueue m).kept = s.kept := State.kept_congr rfl rfl

/-! ### MemOps -/

@[simp] theorem State.spoil_kept (s : State) (w ecc : Nat) : (s.spoil w ecc).kept = s.kept := by simp [State.spoil]
@[simp] theorem State.wordWritten_kept (s : State) (w : Nat) : (s.wordWritten w).kept = s.kept := by
  unfold State.wordWritten
  split <;> simp

@[simp] theorem State.wordMended_kept (s : State) (w : Nat) : (s.wordMended w).kept = s.kept := State.kept_congr rfl rfl
@[simp] theorem State.noteCorrected_kept (s : State) : (s.noteCorrected).kept = s.kept := by simp [State.noteCorrected]
@[simp] theorem State.lpddrCorrected_kept (s : State) (w : Nat) : (s.lpddrCorrected w).kept = s.kept := by simp [State.lpddrCorrected]
@[simp] theorem State.lpddrLost_kept (s : State) (x : Nat) : (s.lpddrLost x).kept = s.kept := by simp [State.lpddrLost]
@[simp] theorem State.sramCorrected_kept (s : State) (w : Nat) : (s.sramCorrected w).kept = s.kept := State.kept_congr rfl rfl
@[simp] theorem State.sramLost_kept (s : State) (w : Nat) : (s.sramLost w).kept = s.kept := by simp [State.sramLost]
@[simp] theorem State.freeStore_kept (s : State) (id : Nat) : (s.freeStore id).kept = s.kept := State.kept_congr rfl rfl
@[simp] theorem State.frameStore_kept (s : State) (id bytes : Nat) : (s.frameStore id bytes).2.kept = s.kept := by
  have hs : (s.freeStore id).kept = s.kept := State.freeStore_kept s id
  refine kept_snd_of_ite rfl (kept_snd_of_ite hs ?_)
  split
  · exact hs
  · rw [State.raise_kept]
    exact hs

/-! ### SwitchOps -/

@[simp] theorem State.swCount_kept (s : State) (i c : Nat) (f : SwCnt → SwCnt) : (s.swCount i c f).kept = s.kept := State.kept_congr rfl rfl
@[simp] theorem State.swEvent_kept (s : State) (k arg : Nat) : (s.swEvent k arg).kept = s.kept := by simp [State.swEvent]
@[simp] theorem State.uncharge_kept (s : State) (q : QCell) : (s.uncharge q).kept = s.kept := by simp [State.uncharge]
@[simp] theorem State.pushOut_kept (s : State) (v : QCell) : (s.pushOut v).kept = s.kept := by simp [State.pushOut]
@[simp] theorem State.poolWatch_kept (s : State) (before : Nat) : (s.poolWatch before).kept = s.kept := by simp [State.poolWatch]
@[simp] theorem State.store_kept (s : State) (q : QCell) : (s.store q).kept = s.kept := by simp [State.store]
@[simp] theorem State.arrive_kept (s : State) (q : QCell) (l12 : Bool) : (s.arrive q l12).kept = s.kept := by
  unfold State.arrive
  split <;> simp

@[simp] theorem State.releaseCoach_kept (s : State) (port slot : Nat) : (s.releaseCoach port slot).kept = s.kept := State.kept_congr rfl rfl
@[simp] theorem State.freeCoach_kept (s : State) (port slot : Nat) : (s.freeCoach port slot).kept = s.kept := by simp [State.freeCoach]
@[simp] theorem State.resetSwitch_kept (s : State) : (s.resetSwitch).kept = s.kept := State.kept_congr rfl rfl

/-! ### PlanOps -/

@[simp] theorem State.keepBound_kept (s : State) (id : Nat) (keep : Nat → Nat → Nat → Bool) :
    (s.keepBound id keep).kept = s.kept := State.kept_congr rfl rfl
@[simp] theorem State.setLink_kept (s : State) (p : Nat) (f : LinkSt → LinkSt) : (s.setLink p f).kept = s.kept := State.kept_congr rfl rfl
@[simp] theorem State.setCpx_kept (s : State) (p : Nat) (f : CpxSt → CpxSt) : (s.setCpx p f).kept = s.kept := State.kept_congr rfl rfl
@[simp] theorem State.setPcLink_kept (s : State) (l : Nat) (f : PciLink → PciLink) :
    (s.setPcLink l f).kept = s.kept := State.kept_congr rfl rfl
@[simp] theorem State.recheckBound_kept (s : State) (c : Contract) : (s.recheckBound c).kept = s.kept := by simp [State.recheckBound]
@[simp] theorem State.defineContract_kept (s : State) (c : Contract) (replace : Bool) :
    (s.defineContract c replace).st.kept = s.kept := by simp [State.defineContract]
@[simp] theorem State.clearContract_kept (s : State) (id : Nat) : (s.clearContract id).kept = s.kept := State.kept_congr rfl rfl

/-! ### LanePlan -/

@[simp] theorem State.restartWait_kept (s : State) (p : Nat) : (s.restartWait p).kept = s.kept := by simp [State.restartWait]
@[simp] theorem State.noteLanes_kept (s : State) (target : Nat) (b : Build) (moved : List (Nat × Nat)) :
    (s.noteLanes target b moved).kept = s.kept := State.kept_congr rfl rfl

/-! ### SendOps -/

@[simp] theorem State.setLane_kept (s : State) (p k : Nat) (f : LaneSt → LaneSt) :
    (s.setLane p k f).kept = s.kept := State.kept_congr rfl rfl
@[simp] theorem State.laneEv_kept (s : State) (p n arg : Nat) : (s.laneEv p n arg).kept = s.kept := by simp [State.laneEv]
@[simp] theorem State.sendOwn_kept (s : State) (p : Nat) (c : Cell) : (s.sendOwn p c).kept = s.kept := by simp [State.sendOwn]
@[simp] theorem State.ctlSend_kept (s : State) (p typ : Nat) (fields : List Nat) (blob : List Byte) :
    (s.ctlSend p typ fields blob).kept = s.kept := by simp [State.ctlSend]
@[simp] theorem State.ctl_kept (s : State) (p typ : Nat) (fields : List Nat) : (s.ctl p typ fields).kept = s.kept := by simp [State.ctl]
@[simp] theorem State.closeCoach_kept (s : State) (p k : Nat) (poison : Bool) : (s.closeCoach p k poison).kept = s.kept := by
  unfold State.closeCoach
  split <;> simp

@[simp] theorem State.putCell_kept (s : State) (p k : Nat) (source : Option (Nat × Nat)) (c : Cell) :
    (s.putCell p k source c).kept = s.kept := by
  unfold State.putCell
  dsimp only
  split <;> simp

@[simp] theorem State.injectUnits_kept (s : State) (p k mode n : Nat) : (s.injectUnits p k mode n).kept = s.kept := by
  unfold State.injectUnits
  split <;> simp

@[simp] theorem State.endRun_kept (s : State) (p k : Nat) : (s.endRun p k).kept = s.kept := by simp [State.endRun]
@[simp] theorem State.newRun_kept (s : State) (p k : Nat) : (s.newRun p k).kept = s.kept := by simp [State.newRun]
@[simp] theorem State.passSlots_kept (s : State) (p k n : Nat) (h : Bool) : (s.passSlots p k n h).kept = s.kept := by simp [State.passSlots]
@[simp] theorem State.segBegin_kept (s : State) (p k : Nat) (prev : PrevSeg) (g : Seg) (lost : Nat) :
    (s.segBegin p k prev g lost).kept = s.kept := by simp [State.segBegin]
@[simp] theorem State.lanePass_kept (s : State) (p lo hi k : Nat) : (s.lanePass p lo hi k).kept = s.kept := by
  unfold State.lanePass
  split <;> simp

@[simp] theorem State.slotsPass_kept (s : State) (lo hi : Nat) : (s.slotsPass lo hi).kept = s.kept := by simp [State.slotsPass]

/-! ### PathOps -/

@[simp] theorem State.install_kept (s : State) (p : Nat) (e : PathEntry) (limit : Nat) :
    (s.install p e limit).kept = s.kept := by simp [State.install]
@[simp] theorem State.freeReplay_kept (s : State) (p n : Nat) : (s.freeReplay p n).kept = s.kept := State.kept_congr rfl rfl
@[simp] theorem State.uninstall_kept (s : State) (p label : Nat) : (s.uninstall p label).kept = s.kept := State.kept_congr rfl rfl
@[simp] theorem State.tearBeyond_kept (s : State) (p label : Nat) : (s.tearBeyond p label).2.kept = s.kept := by
  unfold State.tearBeyond
  repeat' split
  all_goals simp

@[simp] theorem State.tearBoth_kept (s : State) (p label : Nat) : (s.tearBoth p label).2.kept = s.kept := by simp [State.tearBoth]
@[simp] theorem State.openPath_kept (s : State) (owner : PathOwner) (job : Option (Via × Nat)) (src hops chain dst tc : Nat) (cut : Bool)
    (contract : Nat) :
    (s.openPath owner job src hops chain dst tc cut contract).st.kept = s.kept := by
  unfold State.openPath
  dsimp only
  repeat' split
  all_goals simp

@[simp] theorem State.dropPathRec_kept (s : State) (id : Nat) : (s.dropPathRec id).kept = s.kept := State.kept_congr rfl rfl
@[simp] theorem State.closePath_kept (s : State) (id : Nat) : (s.closePath id).kept = s.kept := by
  unfold State.closePath
  repeat' split
  all_goals simp

@[simp] theorem State.dropSetup_kept (s : State) (x : Setup) : (s.dropSetup x).kept = s.kept := State.kept_congr rfl rfl
@[simp] theorem State.cableSend_kept (s : State) (p k : Nat) (source : Option (Nat × Nat)) (c : Cell) :
    (s.cableSend p k source c).kept = s.kept := by
  unfold State.cableSend
  split <;> simp

@[simp] theorem State.closeLocal_kept (s : State) (p k : Nat) : (s.closeLocal p k).kept = s.kept := by
  unfold State.closeLocal
  split <;> simp

@[simp] theorem State.sendCredit_kept (s : State) (p : Nat) (es : List CreditEntry) :
    (s.sendCredit p es).kept = s.kept := by simp [State.sendCredit]
@[simp] theorem State.sendEntries_kept (p n : Nat) (es : List CreditEntry) (s : State) : (State.sendEntries p n es s).kept = s.kept := by
  induction n generalizing es s with
  | zero => rfl
  | succ n ih => simp [State.sendEntries, ih]

@[simp] theorem State.sendCredits_kept (s : State) (p : Nat) (only : Option Nat) : (s.sendCredits p only).kept = s.kept := by
  simp only [State.sendCredits, State.sendEntries_kept]
  refine foldl_kept Prod.fst (fun a b => ?_) _ (s, [])
  split
  · rfl
  · split_ifs <;> simp

@[simp] theorem State.sendNak_kept (s : State) (p label : Nat) : (s.sendNak p label).kept = s.kept := by
  unfold State.sendNak
  split <;> simp

@[simp] theorem State.sentAgain_kept (s : State) (p label seq : Nat) : (s.sentAgain p label seq).kept = s.kept := State.kept_congr rfl rfl
@[simp] theorem State.replayFrom_kept (s : State) (p label seq : Nat) : (s.replayFrom p label seq).2.kept = s.kept := by
  unfold State.replayFrom
  dsimp only
  repeat' split
  all_goals simp

@[simp] theorem State.resend_kept (s : State) (p : Nat) : (s.resend p).2.kept = s.kept := by
  unfold State.resend
  dsimp only
  repeat' split
  all_goals simp

@[simp] theorem State.acked_kept (s : State) (p label seq : Nat) : (s.acked p label seq).kept = s.kept := by
  unfold State.acked
  split <;> simp

@[simp] theorem State.sendPeer_kept (s : State) (p : Nat) : (s.sendPeer p).2.kept = s.kept := by
  unfold State.sendPeer
  dsimp only
  repeat' split
  all_goals simp

/-! ### LocalPlan -/

@[simp] theorem State.watchDepth_kept (s : State) : (s.watchDepth).kept = s.kept := State.kept_congr rfl rfl
@[simp] theorem State.toSlot_kept (s : State) (k : Nat) : (s.toSlot k).kept = s.kept := by simp [State.toSlot]
@[simp] theorem State.planEvents_kept (s : State) : (s.planEvents).kept = s.kept := by simp [State.planEvents]
@[simp] theorem State.thermEvent_kept (s : State) : (s.thermEvent).kept = s.kept := by simp [State.thermEvent]
@[simp] theorem State.latch_kept (s : State) (readings : List Int) : (s.latch readings).kept = s.kept := by simp [State.latch]
@[simp] theorem State.newSamples_kept (s : State) : (s.newSamples).kept = s.kept := State.kept_congr rfl rfl
@[simp] theorem State.markSample_kept (s : State) (j c buf : Nat) : (s.markSample j c buf).kept = s.kept := State.kept_congr rfl rfl
@[simp] theorem State.delayAlert_kept (s : State) (j c ns : Nat) : (s.delayAlert j c ns).kept = s.kept := by simp [State.delayAlert]
@[simp] theorem State.sampleLeft_kept (s : State) (j c buf : Nat) : (s.sampleLeft j c buf).kept = s.kept := by
  unfold State.sampleLeft
  dsimp only
  split <;> simp

@[simp] theorem State.closeSamples_kept (s : State) : (s.closeSamples).kept = s.kept := by
  unfold State.closeSamples
  dsimp only
  split <;> simp

/-! ### CellOps -/

@[simp] theorem State.arriveMarked_kept (s : State) (q : QCell) : (s.arriveMarked q).kept = s.kept := by simp [State.arriveMarked]
@[simp] theorem State.countRx_kept (s : State) (p label : Nat) : (s.countRx p label).kept = s.kept := by
  unfold State.countRx
  dsimp only
  split <;> simp

@[simp] theorem State.handOver_kept (s : State) (p lane : Nat) (pending : Bool) (c : Cell) :
    (s.handOver p lane pending c).kept = s.kept := by
  unfold State.handOver
  split <;> simp

@[simp] theorem State.drainHeld_kept (p label n : Nat) (s : State) : (State.drainHeld p label n s).kept = s.kept := by
  induction n generalizing s with
  | zero => rfl
  | succ n ih =>
    unfold State.drainHeld
    repeat' split
    all_goals simp [ih]

@[simp] theorem State.inOrder_kept (s : State) (p lane : Nat) (pending : Bool) (c : Cell) : (s.inOrder p lane pending c).kept = s.kept := by
  unfold State.inOrder
  split <;> simp

@[simp] theorem State.joinCoach_kept (s : State) (p : Nat) (x : RxCell) : (s.joinCoach p x).kept = s.kept := by simp [State.joinCoach]
@[simp] theorem State.takeData_kept (s : State) (p : Nat) (x : RxCell) : (s.takeData p x).kept = s.kept := by simp [State.takeData]
@[simp] theorem State.undoCoach_kept (s : State) (p lane label : Nat) (cut : Nat × Nat) : (s.undoCoach p lane label cut).kept = s.kept := by
  unfold State.undoCoach
  dsimp only
  repeat' split
  all_goals simp

@[simp] theorem State.poisonCut_kept (s : State) (p lane : Nat) : (s.poisonCut p lane).kept = s.kept := by
  unfold State.poisonCut
  split
  · rfl
  · rw [State.closeCoach_kept, State.kept_foldl]
    intro s x
    split
    · rfl
    · split_ifs <;> simp

@[simp] theorem State.dropCoach_kept (s : State) (p lane : Nat) : (s.dropCoach p lane).kept = s.kept := by simp [State.dropCoach]
@[simp] theorem State.passCoach_kept (s : State) (p lane : Nat) : (s.passCoach p lane).kept = s.kept := by simp [State.passCoach]
@[simp] theorem State.police_kept (s : State) (port : Nat) (o : OfferTo) : (s.police port o).2.kept = s.kept := by
  unfold State.police
  dsimp only
  repeat' split
  all_goals simp

@[simp] theorem State.drrStep_kept (s : State) (j : Nat) (reqs : List Request) : (s.drrStep j reqs).2.kept = s.kept := by
  unfold State.drrStep
  dsimp only
  split <;> simp

@[simp] theorem State.returnCredit_kept (s : State) (q : QCell) : (s.returnCredit q).kept = s.kept := by simp [State.returnCredit]
@[simp] theorem State.leaveGood_kept (s : State) (q : QCell) : (s.leaveGood q).kept = s.kept := by simp [State.leaveGood]
@[simp] theorem State.leave_kept (s : State) (q : QCell) : (s.leave q).kept = s.kept := by
  unfold State.leave
  dsimp only
  split <;> simp

@[simp] theorem State.connect_kept (s : State) (r : Request) : (s.connect r).kept = s.kept := by simp [State.connect]
@[simp] theorem State.expressGo_kept (s : State) (p : Nat) : (s.expressGo p).kept = s.kept := by
  unfold State.expressGo
  split <;> simp

@[simp] theorem State.closeIdle_kept (s : State) (p k : Nat) : (s.closeIdle p k).kept = s.kept := by
  unfold State.closeIdle
  split <;> simp

@[simp] theorem State.sendAhead_kept (s : State) (p : Nat) : (s.sendAhead p).2.kept = s.kept := by
  unfold State.sendAhead
  dsimp only
  split <;> simp

@[simp] theorem State.cellTime_kept (s : State) (room : List Nat) : (s.cellTime room).kept = s.kept := by simp [State.cellTime]

/-! ### PdOps -/

@[simp] theorem State.setChn_kept (s : State) (k : Nat) (f : CcSt → CcSt) : (s.setChn k f).kept = s.kept := State.kept_congr rfl rfl
@[simp] theorem State.ccStart_kept (s : State) (k : Nat) (t : CcTimer) (ticks : Nat) :
    (s.ccStart k t ticks).kept = s.kept := State.kept_congr rfl rfl
@[simp] theorem State.ccStop_kept (s : State) (k : Nat) (t : CcTimer) : (s.ccStop k t).kept = s.kept := State.kept_congr rfl rfl
@[simp] theorem State.pdOut_kept (s : State) (k : Nat) (o : PdOut) : (s.pdOut k o).kept = s.kept := State.kept_congr rfl rfl
@[simp] theorem State.pdSend_kept (s : State) (k : Nat) (kind : PdKind) (objs : List Word) (what : PdFor) (sop : Nat) :
    (s.pdSend k kind objs what sop).kept = s.kept := by simp [State.pdSend]
@[simp] theorem State.pdNext_kept (s : State) (k : Nat) : (s.pdNext k).kept = s.kept := by
  unfold State.pdNext
  split <;> simp

/-! ### DispOps -/

@[simp] theorem State.sendContract_kept (s : State) (origin : FwdOrigin) (port hop : Nat) (c : Contract) :
    (s.sendContract origin port hop c).kept = s.kept := by simp [State.sendContract]
@[simp] theorem State.sendContracts_kept (s : State) (origin : FwdOrigin) (port hops : Nat) (cs : List Contract) :
    (s.sendContracts origin port hops cs).kept = s.kept := by simp [State.sendContracts]
@[simp] theorem State.sendClears_kept (s : State) (port hops : Nat) (ids : List Nat) :
    (s.sendClears port hops ids).kept = s.kept := by simp [State.sendClears]
@[simp] theorem State.setDpx_kept (s : State) (k : Nat) (f : DpxSt → DpxSt) : (s.setDpx k f).kept = s.kept := State.kept_congr rfl rfl
@[simp] theorem State.setStream_kept (s : State) (id : Nat) (f : StreamSt → StreamSt) :
    (s.setStream id f).kept = s.kept := State.kept_congr rfl rfl
@[simp] theorem State.dropStream_kept (s : State) (id : Nat) : (s.dropStream id).kept = s.kept := State.kept_congr rfl rfl
@[simp] theorem State.dispEv_kept (s : State) (n dpx stream rest : Nat) :
    (s.dispEv n dpx stream rest).kept = s.kept := by simp [State.dispEv]
@[simp] theorem State.sendChunk_kept (s : State) (x : StreamSt) (c : Chunk) : (s.sendChunk x c).kept = s.kept := State.kept_congr rfl rfl
@[simp] theorem State.sendControl_kept (s : State) (k code addr ctlArg vstream : Nat) (data : List Byte) :
    (s.sendControl k code addr ctlArg vstream data).kept = s.kept := State.kept_congr rfl rfl
@[simp] theorem State.gotControl_kept (s : State) (k cseq : Nat) : (s.gotControl k cseq).2.kept = s.kept := by simp [State.gotControl]
@[simp] theorem State.hpdAttention_kept (s : State) (k : Nat) (level irq : Bool) : (s.hpdAttention k level irq).kept = s.kept := by
  unfold State.hpdAttention
  split <;> simp

@[simp] theorem State.hpdUp_kept (s : State) (k : Nat) : (s.hpdUp k).kept = s.kept := by simp [State.hpdUp]
@[simp] theorem State.hpdDown_kept (s : State) (k : Nat) : (s.hpdDown k).kept = s.kept := by simp [State.hpdDown]
@[simp] theorem State.closeCapture_kept (s : State) (x : StreamSt) (cause : Nat) : (s.closeCapture x cause).kept = s.kept := by
  unfold State.closeCapture
  repeat' split
  all_goals simp

@[simp] theorem State.closeRegen_kept (s : State) (x : StreamSt) (cause : Nat) :
    (s.closeRegen x cause).kept = s.kept := by simp [State.closeRegen]
@[simp] theorem State.closeStream_kept (s : State) (x : StreamSt) (cause : Nat) :
    (s.closeStream x cause).kept = s.kept := by simp [State.closeStream]
@[simp] theorem State.trainPanel_kept (s : State) (k : Nat) : (s.trainPanel k).kept = s.kept := by
  unfold State.trainPanel
  dsimp only
  repeat' split
  all_goals simp

@[simp] theorem State.dispArrived_kept (s : State) (p : Nat) (e : PathEntry) :
    (s.dispArrived p e).kept = s.kept := by simp [State.dispArrived]
@[simp] theorem State.dispLost_kept (s : State) (p label : Nat) : (s.dispLost p label).kept = s.kept := by
  unfold State.dispLost
  split <;> simp

@[simp] theorem State.dispSuspended_kept (s : State) (p : Nat) : (s.dispSuspended p).kept = s.kept := State.kept_congr rfl rfl
@[simp] theorem State.dispStep_kept (s : State) (d : Int) : (s.dispStep d).kept = s.kept := State.kept_congr rfl rfl
@[simp] theorem State.dispDone_kept (s : State) (x : StreamSt) : (s.dispDone x).kept = s.kept := by
  unfold State.dispDone
  split <;> simp

@[simp] theorem State.dispFail_kept (s : State) (x : StreamSt) (rc : Nat) (data : List Byte) : (s.dispFail x rc data).kept = s.kept := by
  unfold State.dispFail
  repeat' split
  all_goals simp

@[simp] theorem State.dispNext_kept (s : State) (id : Nat) : (s.dispNext id).kept = s.kept := by
  unfold State.dispNext
  repeat' split
  all_goals simp

@[simp] theorem State.dispPathUp_kept (s : State) (id : Nat) : (s.dispPathUp id).kept = s.kept := by simp [State.dispPathUp]
@[simp] theorem State.dispPathGone_kept (s : State) (id : Nat) : (s.dispPathGone id).kept = s.kept := by
  unfold State.dispPathGone
  split <;> simp

/-! ### LaneOps -/

@[simp] theorem State.floorCheck_kept (s : State) (p : Nat) : (s.floorCheck p).kept = s.kept := by simp [State.floorCheck]
@[simp] theorem State.settleEq_kept (s : State) (p k idx : Nat) (e : EqRes) :
    (s.settleEq p k idx e).kept = s.kept := State.kept_congr rfl rfl
@[simp] theorem State.endRecal_kept (s : State) (p k outcome : Nat) : (s.endRecal p k outcome).kept = s.kept := by
  unfold State.endRecal
  split <;> simp

@[simp] theorem State.endTest_kept (s : State) (p k rc : Nat) (data : List Byte) : (s.endTest p k rc data).kept = s.kept := by
  unfold State.endTest
  split
  · rfl
  · rw [State.kept_foldl fun _ _ => State.finish_kept _ _ _ _ _]
    simp

@[simp] theorem State.queueRecal_kept (s : State) (p k trig : Nat) (force restore : Bool) (job : Option (Via × Nat)) :
    (s.queueRecal p k trig force restore job).kept = s.kept := by
  unfold State.queueRecal
  split <;> simp

@[simp] theorem State.retrainDue_kept (s : State) (p : Nat) : (s.retrainDue p).kept = s.kept := State.kept_congr rfl rfl
@[simp] theorem State.retire_kept (s : State) (p k what cause : Nat) (tell : Bool) :
    (s.retire p k what cause tell).kept = s.kept := by simp [State.retire]
@[simp] theorem State.restoreLane_kept (s : State) (p k trig : Nat) (job : Option (Via × Nat)) :
    (s.restoreLane p k trig job).kept = s.kept := by simp [State.restoreLane]
@[simp] theorem State.maskLanes_kept (s : State) (p : Nat) : (s.maskLanes p).kept = s.kept := by simp [State.maskLanes]
@[simp] theorem State.enterCal_kept (s : State) (p k : Nat) : (s.enterCal p k).kept = s.kept := by simp [State.enterCal]
@[simp] theorem State.enterTest_kept (s : State) (p k : Nat) : (s.enterTest p k).kept = s.kept := by simp [State.enterTest]
@[simp] theorem State.followPlan_kept (s : State) (p k : Nat) (prev : PrevSeg) (g : Seg) :
    (s.followPlan p k prev g).kept = s.kept := by simp [State.followPlan]
@[simp] theorem State.planLane_kept (s : State) (p k : Nat) (prev : PrevSeg) (segs : List Seg) :
    (s.planLane p k prev segs).kept = s.kept := by
  unfold State.planLane
  dsimp only
  repeat' split
  all_goals simp

@[simp] theorem State.planLanes_kept (s : State) (p : Nat) (before : Option Plan) : (s.planLanes p before).kept = s.kept := by
  unfold State.planLanes
  split <;> simp

@[simp] theorem State.lanesTick_kept (s : State) (p : Nat) : (s.lanesTick p).kept = s.kept := by
  unfold State.lanesTick
  refine State.kept_foldl (fun s k => ?_) _ _
  extract_lets free u l whole w
  have hu : u.kept = s.kept := by simp [u]
  have hw : w.kept = s.kept := by
    simp only [w]
    split
    · rw [State.kept_ite, State.injectUnits_kept, State.setLane_kept, hu, ite_self]
    · exact hu
  split
  · rw [State.kept_ite, State.retrainDue_kept, ite_self, hw]
  · exact hw

/-! ### TrustOps -/

@[simp] theorem State.setSlot_kept (s : State) (k : Nat) (x : SlotSt) : (s.setSlot k x).kept = s.kept := State.kept_congr rfl rfl
@[simp] theorem State.destroySlot_kept (s : State) (k : Nat) : (s.destroySlot k).kept = s.kept := by simp [State.destroySlot]
@[simp] theorem State.blowLc_kept (s : State) (target : Nat) : (s.blowLc target).kept = s.kept := State.kept_congr rfl rfl
@[simp] theorem State.noteTested_kept (s : State) : (s.noteTested).kept = s.kept := by simp [State.noteTested]
@[simp] theorem State.setAcu_kept (s : State) (m : Nat) (a : AcuSt) : (s.setAcu m a).kept = s.kept := State.kept_congr rfl rfl
@[simp] theorem State.deny_kept (s : State) (m a kind region : Nat) (debug : Bool) (notice : Option Nat) (tick : Word) (slot : Nat) :
    (s.deny m a kind region debug notice tick slot).kept = s.kept := State.kept_congr rfl rfl
@[simp] theorem State.acuEvents_kept (s : State) : (s.acuEvents).kept = s.kept := by simp [State.acuEvents]

/-! ### CfgOps -/

@[simp] theorem State.writeField_kept (s : State) (layer port ty id v : Nat) :
    (s.writeField layer port ty id v).kept = s.kept := by simp [State.writeField]
@[simp] theorem State.resolveField_kept (s : State) (layer port : Nat) (sealOk : Bool) (ty id v : Nat) :
    (s.resolveField layer port sealOk ty id v).2.kept = s.kept := by
  unfold State.resolveField
  repeat' split
  all_goals simp

@[simp] theorem State.checkRecord_kept (s : State) (layer port base : Nat) (sealOk : Bool) (r : CfgRec) :
    (s.checkRecord layer port base sealOk r).2.kept = s.kept := by simp [State.checkRecord]
@[simp] theorem State.applySet_kept (s : State) (layer port : Nat) (set : List Byte) : (s.applySet layer port set).st.kept = s.kept := by
  unfold State.applySet
  refine foldl_kept (fun a : List Given × State × Nat => a.2.1) (fun a b => ?_) _ _
  simp

@[simp] theorem State.setEndTo_kept (s : State) (k v : Nat) : (s.setEndTo k v).kept = s.kept := by simp [State.setEndTo]
@[simp] theorem State.takeEnds_kept (s : State) : (s.takeEnds).kept = s.kept := by
  unfold State.takeEnds
  refine State.kept_foldl (fun s k => ?_) _ _
  split
  · rfl
  · simp

@[simp] theorem State.cfgEffects_kept (s : State) : (s.cfgEffects).kept = s.kept := by simp [State.cfgEffects]
@[simp] theorem State.withdraw_kept (s : State) (layer : Nat) (which : OverVal → Bool) :
    (s.withdraw layer which).kept = s.kept := by simp [State.withdraw]
@[simp] theorem State.bootStore_kept (s : State) : (s.bootStore).kept = s.kept := by
  unfold State.bootStore
  split <;> simp

@[simp] theorem State.takeRole_kept (s : State) (role : Role) : (s.takeRole role).kept = s.kept := by simp [State.takeRole]
@[simp] theorem State.applyRole_kept (s : State) : (s.applyRole).kept = s.kept := by simp [State.applyRole]

/-! ### PcieOps -/

@[simp] theorem State.setEnd_kept (s : State) (e : Nat) (f : PciEnd → PciEnd) : (s.setEnd e f).kept = s.kept := by simp [State.setEnd]
@[simp] theorem State.sendFrame_kept (s : State) (e typ fc : Nat) (body : List Byte) :
    (s.sendFrame e typ fc body).kept = s.kept := by simp [State.sendFrame]
@[simp] theorem State.sendPcCredit_kept (s : State) (e : Nat) : (s.sendPcCredit e).kept = s.kept := by simp [State.sendPcCredit]
@[simp] theorem State.regrant_kept (s : State) (e : Nat) : (s.regrant e).kept = s.kept := by simp [State.regrant]
@[simp] theorem State.freeEgress_kept (s : State) (e : Nat) (t : Tlp) : (s.freeEgress e t).kept = s.kept := by simp [State.freeEgress]
@[simp] theorem State.sendTlp_kept (s : State) (e : Nat) (w : PciHeld) : (s.sendTlp e w).kept = s.kept := by
  unfold State.sendTlp
  split <;> simp

@[simp] theorem State.pumpFrom_kept (e : Nat) (l left : List PciHeld) (b : List Nat) (s : State) :
    (State.pumpFrom e l left b s).kept = s.kept := by
  induction l generalizing left b s with
  | nil => simp [State.pumpFrom]
  | cons w l ih => simp [State.pumpFrom, ih]

@[simp] theorem State.pump_kept (s : State) (e : Nat) : (s.pump e).kept = s.kept := by simp [State.pump]
@[simp] theorem State.drain_kept (s : State) (e : Nat) : (s.drain e).kept = s.kept := by simp [State.drain]
@[simp] theorem State.loseRequests_kept (s : State) (e : Nat) : (s.loseRequests e).kept = s.kept := by simp [State.loseRequests]
@[simp] theorem State.suspendEnd_kept (s : State) (e p label : Nat) : (s.suspendEnd e p label).kept = s.kept := by simp [State.suspendEnd]
@[simp] theorem State.leaveBuffer_kept (s : State) (w : PciHeld) : (s.leaveBuffer w).kept = s.kept := by
  unfold State.leaveBuffer
  split <;> simp

@[simp] theorem State.answerUr_kept (s : State) (e : Nat) (w : PciHeld) : (s.answerUr e w).kept = s.kept := by
  unfold State.answerUr
  split <;> simp

@[simp] theorem State.dropHeld_kept (s : State) (e : Nat) : (s.dropHeld e).kept = s.kept := by simp [State.dropHeld]
@[simp] theorem State.hotResetPort_kept (s : State) (k : Nat) : (s.hotResetPort k).kept = s.kept := by simp [State.hotResetPort]
@[simp] theorem State.surpriseDown_kept (s : State) (e cause : Nat) : (s.surpriseDown e cause).kept = s.kept := by simp [State.surpriseDown]
@[simp] theorem State.restartEnd_kept (s : State) (e : Nat) : (s.restartEnd e).kept = s.kept := by simp [State.restartEnd]
@[simp] theorem State.resumeEnd_kept (s : State) (e : Nat) : (s.resumeEnd e).kept = s.kept := by
  unfold State.resumeEnd
  dsimp only
  split <;> simp

@[simp] theorem State.sendPortState_kept (s : State) (k : Nat) : (s.sendPortState k).kept = s.kept := by simp [State.sendPortState]
@[simp] theorem State.trainLink_kept (s : State) (l : Nat) : (s.trainLink l).kept = s.kept := by simp [State.trainLink]
@[simp] theorem State.comeBack_kept (s : State) (e : Nat) : (s.comeBack e).kept = s.kept := by simp [State.comeBack]
@[simp] theorem State.pathResumed_kept (s : State) (e : Nat) : (s.pathResumed e).kept = s.kept := by simp [State.pathResumed]
@[simp] theorem State.bridgeBound_kept (s : State) (b label : Nat) : (s.bridgeBound b label).kept = s.kept := by
  unfold State.bridgeBound
  dsimp only
  split <;> simp

@[simp] theorem State.clearBridge_kept (s : State) (b : Nat) : (s.clearBridge b).kept = s.kept := by simp [State.clearBridge]
@[simp] theorem State.setPresence_kept (s : State) (b : Nat) (on : Bool) : (s.setPresence b on).kept = s.kept := by simp [State.setPresence]
@[simp] theorem State.unbindBridge_kept (s : State) (b cause : Nat) : (s.unbindBridge b cause).kept = s.kept := by simp [State.unbindBridge]
@[simp] theorem State.bindFailed_kept (s : State) (b rc : Nat) (data : List Byte) : (s.bindFailed b rc data).kept = s.kept := by
  unfold State.bindFailed
  dsimp only
  repeat' split
  all_goals simp

@[simp] theorem State.bindNext_kept (s : State) (b : Nat) : (s.bindNext b).kept = s.kept := by
  unfold State.bindNext
  dsimp only
  split <;> simp

@[simp] theorem State.bindBridge_kept (s : State) (b hops chain dp along back cid : Nat) (job : Option (Via × Nat)) :
    (s.bindBridge b hops chain dp along back cid job).st.kept = s.kept := by simp [State.bindBridge]
@[simp] theorem State.pcieChainUp_kept (s : State) : (s.pcieChainUp).kept = s.kept := by
  unfold State.pcieChainUp
  split_ifs
  · refine State.kept_foldl (fun s x => ?_) _ _
    obtain ⟨⟨chain, depth⟩, dp⟩ := x
    refine State.kept_of_ite rfl ?_
    split <;> simp
  · rfl

@[simp] theorem State.pcieArrived_kept (s : State) (p : Nat) (e : PathEntry) : (s.pcieArrived p e).kept = s.kept := by
  unfold State.pcieArrived
  repeat' split
  all_goals simp

@[simp] theorem State.pcieLost_kept (s : State) (p label : Nat) : (s.pcieLost p label).kept = s.kept := by
  unfold State.pcieLost
  split <;> simp

@[simp] theorem State.pciePathUp_kept (s : State) (id label : Nat) : (s.pciePathUp id label).kept = s.kept := by
  unfold State.pciePathUp
  split <;> simp

@[simp] theorem State.pciePathGone_kept (s : State) (id : Nat) : (s.pciePathGone id).kept = s.kept := by
  unfold State.pciePathGone
  split <;> simp

@[simp] theorem State.pcieSuspended_kept (s : State) (p : Nat) : (s.pcieSuspended p).kept = s.kept := by simp [State.pcieSuspended]
@[simp] theorem State.pcieResumed_kept (s : State) (p : Nat) : (s.pcieResumed p).kept = s.kept := by simp [State.pcieResumed]
@[simp] theorem State.upstreamDown_kept (s : State) : (s.upstreamDown).kept = s.kept := by simp [State.upstreamDown]
@[simp] theorem State.pcieTick_kept (s : State) : (s.pcieTick).kept = s.kept := by simp [State.pcieTick]
@[simp] theorem State.drivePerst_kept (s : State) (k : Nat) (on : Bool) : (s.drivePerst k on).kept = s.kept := State.kept_congr rfl rfl

/-! ### BayOps -/

@[simp] theorem State.setBay_kept (s : State) (b : Nat) (f : BaySt → BaySt) : (s.setBay b f).kept = s.kept := State.kept_congr rfl rfl
@[simp] theorem State.bayPresence_kept (s : State) (b : Nat) : (s.bayPresence b).kept = s.kept := by
  unfold State.bayPresence
  split <;> simp

@[simp] theorem State.pgFall_kept (s : State) (b : Nat) : (s.pgFall b).kept = s.kept := by
  unfold State.pgFall
  dsimp only
  repeat' split
  all_goals simp

@[simp] theorem State.bayTo_kept (s : State) (b : Nat) (st : BayState) : (s.bayTo b st).kept = s.kept := by simp [State.bayTo]
@[simp] theorem State.bayRest_kept (s : State) (b : Nat) : (s.bayRest b).kept = s.kept := by simp [State.bayRest]
@[simp] theorem State.bayTry_kept (s : State) (b : Nat) : (s.bayTry b).kept = s.kept := by simp [State.bayTry]
@[simp] theorem State.bayOff_kept (s : State) (b : Nat) : (s.bayOff b).kept = s.kept := by simp [State.bayOff]
@[simp] theorem State.bayReq_kept (s : State) (b : Nat) : (s.bayReq b).kept = s.kept := by simp [State.bayReq]
@[simp] theorem State.bayRequest_kept (s : State) (b : Nat) (on : Bool) : (s.bayRequest b on).kept = s.kept := by simp [State.bayRequest]
@[simp] theorem State.bayFault_kept (s : State) (b cause : Nat) : (s.bayFault b cause).kept = s.kept := by simp [State.bayFault]
@[simp] theorem State.releasePerst_kept (s : State) : (s.releasePerst).kept = s.kept := by simp [State.releasePerst]
@[simp] theorem State.bayShed_kept (s : State) (b : Nat) : (s.bayShed b).kept = s.kept := by simp [State.bayShed]

/-! ### VbusOps -/

@[simp] theorem State.setVsw_kept (s : State) (k : Nat) (f : VbusSt → VbusSt) : (s.setVsw k f).kept = s.kept := State.kept_congr rfl rfl
@[simp] theorem State.vbusOn_kept (s : State) (k mv : Nat) : (s.vbusOn k mv).kept = s.kept := by simp [State.vbusOn]
@[simp] theorem State.vbusOff_kept (s : State) (k : Nat) : (s.vbusOff k).kept = s.kept := by simp [State.vbusOff]
@[simp] theorem State.vbusSink_kept (s : State) (k : Nat) : (s.vbusSink k).kept = s.kept := State.kept_congr rfl rfl
@[simp] theorem State.setFeed_kept (s : State) (n : Nat) (f : FeedSt → FeedSt) : (s.setFeed n f).kept = s.kept := State.kept_congr rfl rfl
@[simp] theorem State.feedGone_kept (s : State) (n mv : Nat) : (s.feedGone n mv).kept = s.kept := by simp [State.feedGone]
@[simp] theorem State.feedsLapse_kept (s : State) : (s.feedsLapse).kept = s.kept := by simp [State.feedsLapse]

/-! ### UsbOps -/

@[simp] theorem State.setRemote_kept (s : State) (root : Nat) (f : UsbRemote → UsbRemote) :
    (s.setRemote root f).kept = s.kept := State.kept_congr rfl rfl
@[simp] theorem State.setUsbPort_kept (s : State) (k : Nat) (f : UsbPort → UsbPort) :
    (s.setUsbPort k f).kept = s.kept := State.kept_congr rfl rfl
@[simp] theorem State.usbSend_kept (s : State) (root : Nat) (f : UsbFrame) : (s.usbSend root f).kept = s.kept := State.kept_congr rfl rfl
@[simp] theorem State.sendBusState_kept (s : State) (code : Nat) : (s.sendBusState code).kept = s.kept := by simp [State.sendBusState]
@[simp] theorem State.setStage_kept (s : State) (y : UsbStage) (f : UsbStage → UsbStage) :
    (s.setStage y f).kept = s.kept := State.kept_congr rfl rfl
@[simp] theorem State.stageFrame_kept (s : State) (x : UsbStage) (typ count : Nat) (data : List Byte) :
    (s.stageFrame x typ count data).kept = s.kept := State.kept_congr rfl rfl
@[simp] theorem State.askPackets_kept (s : State) (x : UsbStage) (n : Nat) : (s.askPackets x n).kept = s.kept := by simp [State.askPackets]
@[simp] theorem State.dropStages_kept (s : State) (f : UsbStage → Bool) : (s.dropStages f).2.kept = s.kept := State.kept_congr rfl rfl
@[simp] theorem State.abortEndpoints_kept (s : State) (port n : Nat) :
    (s.abortEndpoints port n).kept = s.kept := by simp [State.abortEndpoints]
@[simp] theorem State.underrun_kept (s : State) (port : Nat) : (s.underrun port).kept = s.kept := by simp [State.underrun]
@[simp] theorem State.remoteDown_kept (s : State) (i cause : Nat) : (s.remoteDown i cause).kept = s.kept := by
  unfold State.remoteDown
  dsimp only
  repeat' split
  all_goals simp

@[simp] theorem State.usbNext_kept (s : State) (i : Nat) : (s.usbNext i).kept = s.kept := by
  unfold State.usbNext
  dsimp only
  repeat' split
  all_goals simp

@[simp] theorem State.usbPathUp_kept (s : State) (i : Nat) (iso : Bool) : (s.usbPathUp i iso).kept = s.kept := by simp [State.usbPathUp]
@[simp] theorem State.usbPathGone_kept (s : State) (i : Nat) : (s.usbPathGone i).kept = s.kept := by simp [State.usbPathGone]
@[simp] theorem State.usbChainUp_kept (s : State) (chain depth usbEnd : Nat) : (s.usbChainUp chain depth usbEnd).kept = s.kept := by
  unfold State.usbChainUp
  dsimp only
  repeat' split
  all_goals simp

@[simp] theorem State.usbHostSuspended_kept (s : State) (p : Nat) : (s.usbHostSuspended p).kept = s.kept := by simp [State.usbHostSuspended]
@[simp] theorem State.usbHostResumed_kept (s : State) (p : Nat) : (s.usbHostResumed p).kept = s.kept := by simp [State.usbHostResumed]
@[simp] theorem State.usbUpFrame_kept (s : State) (f : UsbFrame) : (s.usbUpFrame f).kept = s.kept := by
  unfold State.usbUpFrame
  split <;> simp

@[simp] theorem State.sendUsbPort_kept (s : State) (k changes : Nat) :
    (s.sendUsbPort k changes).kept = s.kept := by simp [State.sendUsbPort]
@[simp] theorem State.usbConnect_kept (s : State) (k : Nat) (on : Bool) : (s.usbConnect k on).kept = s.kept := by simp [State.usbConnect]
@[simp] theorem State.setPortPower_kept (s : State) (k : Nat) (on : Bool) :
    (s.setPortPower k on).kept = s.kept := by simp [State.setPortPower]
@[simp] theorem State.usbOverCurrent_kept (s : State) (k : Nat) : (s.usbOverCurrent k).kept = s.kept := by simp [State.usbOverCurrent]
@[simp] theorem State.kaWake_kept (s : State) (reason : Nat) : (s.kaWake reason).kept = s.kept := by simp [State.kaWake]
@[simp] theorem State.hostAbsent_kept (s : State) : (s.hostAbsent).kept = s.kept := by simp [State.hostAbsent]
@[simp] theorem State.hostReturns_kept (s : State) : (s.hostReturns).kept = s.kept := by simp [State.hostReturns]
@[simp] theorem State.usbArrived_kept (s : State) (p : Nat) (e : PathEntry) : (s.usbArrived p e).kept = s.kept := by simp [State.usbArrived]
@[simp] theorem State.usbLost_kept (s : State) (p label : Nat) : (s.usbLost p label).kept = s.kept := by simp [State.usbLost]
@[simp] theorem State.usbSuspended_kept (s : State) (p : Nat) : (s.usbSuspended p).kept = s.kept := by simp [State.usbSuspended]
@[simp] theorem State.usbResumed_kept (s : State) (p : Nat) : (s.usbResumed p).kept = s.kept := by simp [State.usbResumed]

/-! ### CpwrOps -/

@[simp] theorem State.budgetPd_kept (s : State) (k : Nat) : (s.budgetPd k).kept = s.kept := by simp [State.budgetPd]
@[simp] theorem State.setContract_kept (s : State) (k kind mv ma : Nat) :
    (s.setContract k kind mv ma).kept = s.kept := by simp [State.setContract]
@[simp] theorem State.showPins_kept (s : State) (k : Nat) : (s.showPins k).kept = s.kept := State.kept_congr rfl rfl
@[simp] theorem State.vconn_kept (s : State) (k : Nat) : (s.vconn k).kept = s.kept := State.kept_congr rfl rfl
@[simp] theorem State.muxTo_kept (s : State) (k position mode : Nat) (quiet : Bool) :
    (s.muxTo k position mode quiet).kept = s.kept := by simp [State.muxTo]
@[simp] theorem State.quietMux_kept (s : State) (k : Nat) : (s.quietMux k).kept = s.kept := by simp [State.quietMux]
@[simp] theorem State.beginTraining_kept (s : State) (p : Nat) : (s.beginTraining p).kept = s.kept := by simp [State.beginTraining]
@[simp] theorem State.modeEntered_kept (s : State) (k mode : Nat) : (s.modeEntered k mode).kept = s.kept := by simp [State.modeEntered]
@[simp] theorem State.restRp_kept (s : State) (k : Nat) : (s.restRp k).kept = s.kept := by simp [State.restRp]
@[simp] theorem State.startAms_kept (s : State) (k : Nat) (kind : PdKind) (objs : List Word) (what : PdFor) (sop : Nat) :
    (s.startAms k kind objs what sop).kept = s.kept := by simp [State.startAms]
@[simp] theorem State.endAms_kept (s : State) (k : Nat) : (s.endAms k).kept = s.kept := by simp [State.endAms]
@[simp] theorem State.sendQueued_kept (s : State) (k : Nat) : (s.sendQueued k).kept = s.kept := by
  unfold State.sendQueued
  split <;> simp

@[simp] theorem State.sendCaps_kept (s : State) (k : Nat) : (s.sendCaps k).kept = s.kept := by simp [State.sendCaps]
@[simp] theorem State.swapDone_kept (s : State) (k : Nat) (w : PdSwap) (outcome : Nat) : (s.swapDone k w outcome).kept = s.kept := by
  unfold State.swapDone
  split <;> simp

@[simp] theorem State.requestDone_kept (s : State) (k : Nat) (rc : Rc) : (s.requestDone k rc).kept = s.kept := by
  unfold State.requestDone
  split <;> simp

@[simp] theorem State.modeDone_kept (s : State) (k : Nat) (rc : Rc) : (s.modeDone k rc).kept = s.kept := by
  unfold State.modeDone
  split <;> simp

@[simp] theorem State.sendFailed_kept (s : State) (k : Nat) (o : PdOut) (outcome : Nat) : (s.sendFailed k o outcome).kept = s.kept := by
  unfold State.sendFailed
  split <;> simp

@[simp] theorem State.dropAms_kept (s : State) (k : Nat) : (s.dropAms k).kept = s.kept := by
  unfold State.dropAms
  have hq : (((s.chn k).queued.toList ++ (s.chn k).outq).foldl (fun (s : State) o => s.sendFailed k o 2) s).kept = s.kept :=
    State.kept_foldl (fun _ _ => State.sendFailed_kept _ _ _ _) _ _
  simp only [State.setChn_kept, State.modeDone_kept, State.requestDone_kept]
  split
  · split
    · rw [State.finish_kept, hq]
    · exact hq
  · exact hq

@[simp] theorem State.enterEpr_kept (s : State) (k : Nat) : (s.enterEpr k).kept = s.kept := by simp [State.enterEpr]
@[simp] theorem State.leaveEpr_kept (s : State) (k : Nat) : (s.leaveEpr k).kept = s.kept := by simp [State.leaveEpr]
@[simp] theorem State.errorRecovery_kept (s : State) (k cause : Nat) :
    (s.errorRecovery k cause).kept = s.kept := by simp [State.errorRecovery]
@[simp] theorem State.recoverWait_kept (s : State) (k : Nat) : (s.recoverWait k).kept = s.kept := by simp [State.recoverWait]
@[simp] theorem State.resetChannel_kept (s : State) (k : Nat) : (s.resetChannel k).kept = s.kept := by simp [State.resetChannel]
@[simp] theorem State.hardReset_kept (s : State) (k : Nat) (own : Bool) : (s.hardReset k own).kept = s.kept := by
  unfold State.hardReset
  dsimp only
  repeat' split
  all_goals simp

@[simp] theorem State.discovered_kept (s : State) (k : Nat) : (s.discovered k).kept = s.kept := by simp [State.discovered]
@[simp] theorem State.discSend_kept (s : State) (k step : Nat) : (s.discSend k step).kept = s.kept := by
  unfold State.discSend
  split <;> simp

@[simp] theorem State.discNext_kept (s : State) (k : Nat) : (s.discNext k).kept = s.kept := by simp [State.discNext]
@[simp] theorem State.firstContract_kept (s : State) (k : Nat) : (s.firstContract k).kept = s.kept := by simp [State.firstContract]
@[simp] theorem State.contractMade_kept (s : State) (k : Nat) : (s.contractMade k).kept = s.kept := by simp [State.contractMade]
@[simp] theorem State.swapFinished_kept (s : State) (k : Nat) : (s.swapFinished k).kept = s.kept := by
  unfold State.swapFinished
  repeat' split
  all_goals simp

@[simp] theorem State.swapPhase_kept (s : State) (k phase : Nat) : (s.swapPhase k phase).kept = s.kept := State.kept_congr rfl rfl
@[simp] theorem State.swapAccepted_kept (s : State) (k : Nat) : (s.swapAccepted k).kept = s.kept := by
  unfold State.swapAccepted
  repeat' split
  all_goals simp

@[simp] theorem State.cpwrSettled_kept (s : State) (k : Nat) : (s.cpwrSettled k).kept = s.kept := by
  unfold State.cpwrSettled
  dsimp only
  split <;> simp

@[simp] theorem State.romChannel_kept (s : State) (k : Nat) : (s.romChannel k).kept = s.kept := by simp [State.romChannel]
@[simp] theorem State.enterRom_kept (s : State) : (s.enterRom).kept = s.kept := by simp [State.enterRom]
@[simp] theorem State.leaveRom_kept (s : State) : (s.leaveRom).kept = s.kept := by simp [State.leaveRom]

/-! ### NetOps -/

@[simp] theorem State.setMac_kept (s : State) (m : Nat) (f : MacSt → MacSt) : (s.setMac m f).kept = s.kept := State.kept_congr rfl rfl
@[simp] theorem State.putFlow_kept (s : State) (e : Flow) : (s.putFlow e).kept = s.kept := State.kept_congr rfl rfl
@[simp] theorem State.learn_kept (s : State) (key : List Byte) (r : NetRule) : (s.learn key r).kept = s.kept := by
  unfold State.learn
  dsimp only
  split <;> simp

@[simp] theorem State.classifyRules_kept (s : State) (key : List Byte) : (s.classifyRules key).2.kept = s.kept := by
  unfold State.classifyRules
  split <;> simp

@[simp] theorem State.classify_kept (s : State) (key : List Byte) : (s.classify key).2.kept = s.kept := by
  unfold State.classify
  dsimp only
  repeat' split
  all_goals simp

@[simp] theorem State.metered_kept (s : State) (id len : Nat) : (s.metered id len).2.kept = s.kept := by
  unfold State.metered
  split <;> simp

@[simp] theorem State.netSend_kept (s : State) (typ mac group : Nat) (held : Bool) (hash par : Nat) (bs : List Byte) :
    (s.netSend typ mac group held hash par bs).kept = s.kept := by simp [State.netSend]
@[simp] theorem State.netForward_kept (s : State) (mac group : Nat) (held : Bool) (hash : Nat) (frame : List Byte) :
    (s.netForward mac group held hash frame).kept = s.kept := by simp [State.netForward]
@[simp] theorem State.netService_kept (s : State) (frame : List Byte) : (s.netService frame).kept = s.kept := by
  unfold State.netService
  repeat' split
  all_goals simp

@[simp] theorem State.macSend_kept (s : State) (m : Nat) (frame : List Byte) : (s.macSend m frame).kept = s.kept := by simp [State.macSend]
@[simp] theorem State.macResume_kept (s : State) (m : Nat) : (s.macResume m).kept = s.kept := by simp [State.macResume]
@[simp] theorem State.macPaused_kept (s : State) (m quanta : Nat) : (s.macPaused m quanta).kept = s.kept := by simp [State.macPaused]
@[simp] theorem State.wakeKeep_kept (s : State) (frame : List Byte) : (s.wakeKeep frame).kept = s.kept := by simp [State.wakeKeep]
@[simp] theorem State.netWake_kept (s : State) (src : Nat) (frame : List Byte) :
    (s.netWake src frame).kept = s.kept := by simp [State.netWake]
@[simp] theorem State.wakeCheck_kept (s : State) (frame : List Byte) : (s.wakeCheck frame).kept = s.kept := by
  unfold State.wakeCheck
  repeat' split
  all_goals simp

@[simp] theorem State.conflict4_kept (s : State) (a : Nat) : (s.conflict4 a).kept = s.kept := by
  unfold State.conflict4
  split <;> simp

@[simp] theorem State.conflict6_kept (s : State) (a : List Byte) : (s.conflict6 a).kept = s.kept := by
  unfold State.conflict6
  split <;> simp

@[simp] theorem State.proxyArp_kept (s : State) (m : Nat) (f : List Byte) (vlan p : Nat) :
    (s.proxyArp m f vlan p).kept = s.kept := by simp [State.proxyArp]
@[simp] theorem State.proxyNd_kept (s : State) (m : Nat) (f : List Byte) (vlan : Nat) (x : IpParts) :
    (s.proxyNd m f vlan x).kept = s.kept := by simp [State.proxyNd]
@[simp] theorem State.proxyMdns_kept (s : State) (m : Nat) (f : List Byte) (vlan : Nat) (v6 : Bool) (x : IpParts) :
    (s.proxyMdns m f vlan v6 x).kept = s.kept := by simp [State.proxyMdns]
@[simp] theorem State.proxy_kept (s : State) (m : Nat) (f : List Byte) : (s.proxy m f).kept = s.kept := by
  unfold State.proxy
  repeat' split
  all_goals simp

@[simp] theorem State.netReturn_kept (s : State) : (s.netReturn).kept = s.kept := by simp [State.netReturn]
@[simp] theorem State.awayAct_kept (s : State) (mac : Nat) (act : NetAct) (frame : List Byte) :
    (s.awayAct mac act frame).kept = s.kept := by
  unfold State.awayAct
  split <;> simp

@[simp] theorem State.netProcess_kept (s : State) (mac : Nat) (frame : List Byte) : (s.netProcess mac frame).kept = s.kept := by
  unfold State.netProcess
  dsimp only
  repeat' split
  all_goals simp

@[simp] theorem State.pauseCheck_kept (s : State) (mac : Nat) : (s.pauseCheck mac).kept = s.kept := by simp [State.pauseCheck]
@[simp] theorem State.drainMac_kept (s : State) (mac : Nat) : (s.drainMac mac).kept = s.kept := by simp [State.drainMac]
@[simp] theorem State.netTick_kept (s : State) : (s.netTick).kept = s.kept := by
  unfold State.netTick
  dsimp only
  split <;> simp

@[simp] theorem State.sendPresence_kept (s : State) : (s.sendPresence).kept = s.kept := by simp [State.sendPresence]
@[simp] theorem State.sendLinkState_kept (s : State) : (s.sendLinkState).kept = s.kept := by simp [State.sendLinkState]
@[simp] theorem State.bindEvent_kept (s : State) (on failed : Bool) : (s.bindEvent on failed).kept = s.kept := by simp [State.bindEvent]
@[simp] theorem State.closeGroup_kept (s : State) (g : Nat) : (s.closeGroup g).kept = s.kept := by
  unfold State.closeGroup
  repeat' split
  all_goals simp

@[simp] theorem State.groupFailed_kept (s : State) (g rc : Nat) (data : List Byte) : (s.groupFailed g rc data).kept = s.kept := by
  unfold State.groupFailed
  dsimp only
  split <;> simp

@[simp] theorem State.netNext_kept (s : State) (g : Nat) : (s.netNext g).kept = s.kept := by
  unfold State.netNext
  split <;> simp

@[simp] theorem State.openGroupPath_kept (s : State) (g along back : Nat) (job : Option (Via × Nat)) :
    (s.openGroupPath g along back job).st.kept = s.kept := by
  unfold State.openGroupPath
  dsimp only
  split <;> simp

@[simp] theorem State.netBindTo_kept (s : State) (hops chain : Nat) (mac : Option Nat) (job : Option (Via × Nat)) :
    (s.netBindTo hops chain mac job).st.kept = s.kept := by simp [State.netBindTo]
@[simp] theorem State.netPathUp_kept (s : State) (g id label : Nat) : (s.netPathUp g id label).kept = s.kept := by
  unfold State.netPathUp
  dsimp only
  repeat' split
  all_goals simp

@[simp] theorem State.netUnbind_kept (s : State) : (s.netUnbind).kept = s.kept := by simp [State.netUnbind]
@[simp] theorem State.netPathGone_kept (s : State) (g : Nat) : (s.netPathGone g).kept = s.kept := by
  unfold State.netPathGone
  split <;> simp

@[simp] theorem State.netChainUp_kept (s : State) : (s.netChainUp).kept = s.kept := by
  unfold State.netChainUp
  dsimp only
  repeat' split
  all_goals simp

@[simp] theorem State.netArrived_kept (s : State) (p : Nat) (e : PathEntry) : (s.netArrived p e).kept = s.kept := by simp [State.netArrived]
@[simp] theorem State.netLost_kept (s : State) (p label : Nat) : (s.netLost p label).kept = s.kept := by
  unfold State.netLost
  split <;> simp

@[simp] theorem State.netSuspended_kept (s : State) (p : Nat) : (s.netSuspended p).kept = s.kept := by simp [State.netSuspended]
@[simp] theorem State.netResumed_kept (s : State) (p : Nat) : (s.netResumed p).kept = s.kept := by simp [State.netResumed]

/-! ### SbOps -/

@[simp] theorem State.sbMiss_kept (s : State) (kind id : Nat) : (s.sbMiss kind id).kept = s.kept := by simp [State.sbMiss]
@[simp] theorem State.sbSend_kept (s : State) (p op tag : Nat) (payload : List Byte) :
    (s.sbSend p op tag payload).kept = s.kept := State.kept_congr rfl rfl
@[simp] theorem State.sbSendUnlock_kept (s : State) (p handle : Nat) (lapsed : Bool) :
    (s.sbSendUnlock p handle lapsed).kept = s.kept := State.kept_congr rfl rfl
@[simp] theorem State.sbSendTx_kept (s : State) (p : Nat) (t : SbTx) : (s.sbSendTx p t).kept = s.kept := State.kept_congr rfl rfl
@[simp] theorem State.sbSendWait_kept (s : State) (p : Nat) (w : SbWait) : (s.sbSendWait p w).kept = s.kept := State.kept_congr rfl rfl
@[simp] theorem sbPump_kept (p n : Nat) (s : State) : (sbPump p n s).kept = s.kept := by
  induction n generalizing s with
  | zero => rfl
  | succ n ih =>
    unfold sbPump
    repeat' split
    all_goals simp [ih]

@[simp] theorem State.sbDeliver_kept (s : State) (d : SbDone) : (s.sbDeliver d).kept = s.kept := by
  unfold State.sbDeliver
  split <;> simp

@[simp] theorem State.sbDrop_kept (s : State) (t : SbTx) : (s.sbDrop t).kept = s.kept := State.kept_congr rfl rfl
@[simp] theorem State.sbStart_kept (s : State) (t : SbTx) : (s.sbStart t).2.kept = s.kept := by
  unfold State.sbStart
  dsimp only
  repeat' split
  all_goals simp

@[simp] theorem sbRun_kept (n : Nat) (s : State) : (sbRun n s).2.kept = s.kept := by
  induction n generalizing s with
  | zero => rfl
  | succ n ih =>
    unfold sbRun
    split
    · simp [ih]
    · split
      · dsimp only
        split <;> simp [ih]
      · rfl

@[simp] theorem State.sbGo_kept (s : State) : (s.sbGo).2.kept = s.kept := by simp [State.sbGo]
@[simp] theorem State.setSbAge_kept (s : State) (a : SbAge) : (s.setSbAge a).kept = s.kept := State.kept_congr rfl rfl
@[simp] theorem State.sbAsk_kept (s : State) (chan cred : Nat) : (s.sbAsk chan cred).2.kept = s.kept := State.kept_congr rfl rfl
@[simp] theorem State.sbObtained_kept (s : State) (chan cred handle : Nat) (port : Option Nat) :
    (s.sbObtained chan cred handle port).kept = s.kept := by
  unfold State.sbObtained
  split <;> simp

@[simp] theorem State.sbForget_kept (s : State) (p : SbHeld → Bool) : (s.sbForget p).kept = s.kept := State.kept_congr rfl rfl
@[simp] theorem State.sbTake_kept (s : State) (r : SbRoute) (h : SbHolder) (o : SbOrigin) :
    (s.sbTake r h o).2.kept = s.kept := State.kept_congr rfl rfl
@[simp] theorem State.sbLockReply_kept (s : State) (o : SbOrigin) (h : SbHolder) (outcome handle : Nat) (port : Option Nat) :
    (s.sbLockReply o h outcome handle port).kept = s.kept := by
  unfold State.sbLockReply
  split <;> simp

@[simp] theorem State.sbGrant_kept (s : State) (kind intf : Nat) : (s.sbGrant kind intf).kept = s.kept := by
  unfold State.sbGrant
  repeat' split
  all_goals simp

@[simp] theorem State.sbRelease_kept (s : State) (l : SbLock) : (s.sbRelease l).kept = s.kept := by simp [State.sbRelease]
@[simp] theorem State.sbWound_kept (s : State) (h : SbHolder) (port : Option Nat) :
    (s.sbWound h port).kept = s.kept := by simp [State.sbWound]
@[simp] theorem State.sbWoundHolder_kept (s : State) (l : SbLock) : (s.sbWoundHolder l).kept = s.kept := by
  unfold State.sbWoundHolder
  split <;> simp

@[simp] theorem State.sbEnd_kept (s : State) (t : SbTx) : (s.sbEnd t).kept = s.kept := by
  unfold State.sbEnd
  dsimp only
  split <;> simp

@[simp] theorem State.sbSettle_kept (s : State) : (s.sbSettle).kept = s.kept := by simp [State.sbSettle]
@[simp] theorem State.sbSubmit_kept (s : State) (o : SbOrigin) (r : SbRoute) (x : SbXfer) : (s.sbSubmit o r x).2.2.kept = s.kept := by
  unfold State.sbSubmit
  dsimp only
  repeat' split
  all_goals simp

@[simp] theorem State.sbLockHere_kept (s : State) (o : SbOrigin) (num : Nat) (r : SbRoute) (h : SbHolder) :
    (s.sbLockHere o num r h).2.kept = s.kept := by
  unfold State.sbLockHere
  dsimp only
  repeat' split
  all_goals simp

@[simp] theorem State.sbLockOnward_kept (s : State) (o : SbOrigin) (r : SbRoute) (h : SbHolder) (p : Nat) :
    (s.sbLockOnward o r h p).kept = s.kept := by simp [State.sbLockOnward]
@[simp] theorem State.sbExport_kept (s : State) (bits : Word) (level : Nat) :
    (s.sbExport bits level).kept = s.kept := by simp [State.sbExport]
@[simp] theorem State.sbIrq_kept (s : State) (bits : Word) : (s.sbIrq bits).kept = s.kept := by simp [State.sbIrq]
@[simp] theorem State.sbLinkDown_kept (s : State) (p : Nat) : (s.sbLinkDown p).kept = s.kept := by simp [State.sbLinkDown]
@[simp] theorem State.sbCredGone_kept (s : State) (chan cred : Nat) : (s.sbCredGone chan cred).kept = s.kept := by
  unfold State.sbCredGone
  split
  · rfl
  · rw [State.sbSettle_kept, State.kept_foldl]
    · simp
    · intro s h
      split
      · simp
      · split <;> simp

@[simp] theorem State.fansUnattended_kept (s : State) : (s.fansUnattended).kept = s.kept := State.kept_congr rfl rfl
@[simp] theorem State.uartTick_kept (s : State) : (s.uartTick).kept = s.kept := by simp [State.uartTick]
@[simp] theorem State.sbModes_kept (s : State) : (s.sbModes).kept = s.kept := State.kept_congr rfl rfl
@[simp] theorem State.sbTick_kept (s : State) : (s.sbTick).kept = s.kept := by simp [State.sbTick]

/-! ### LinkOps -/

@[simp] theorem State.linkEv_kept (s : State) (p n arg : Nat) : (s.linkEv p n arg).kept = s.kept := by simp [State.linkEv]
@[simp] theorem State.setRole_kept (s : State) (p : Nat) (r : PortRole) : (s.setRole p r).kept = s.kept := State.kept_congr rfl rfl
@[simp] theorem State.setAlign_kept (s : State) (p : Nat) (f : AlignSt → AlignSt) :
    (s.setAlign p f).kept = s.kept := State.kept_congr rfl rfl
@[simp] theorem State.ownerUp_kept (s : State) (r : PathRec) : (s.ownerUp r).kept = s.kept := by
  unfold State.ownerUp
  repeat' split
  all_goals simp

@[simp] theorem State.dispOwner_kept (s : State) (i : Nat) (rc : Rc) : (s.dispOwner i rc).kept = s.kept := by
  unfold State.dispOwner
  split <;> simp

@[simp] theorem State.ownerGone_kept (s : State) (r : PathRec) (rc : Rc) : (s.ownerGone r rc).kept = s.kept := by
  unfold State.ownerGone
  repeat' split
  all_goals simp

@[simp] theorem State.arrivedHere_kept (s : State) (p : Nat) (e : PathEntry) :
    (s.arrivedHere p e).kept = s.kept := by simp [State.arrivedHere]
@[simp] theorem State.lostHere_kept (s : State) (p label : Nat) : (s.lostHere p label).kept = s.kept := by simp [State.lostHere]
@[simp] theorem State.tearEntry_kept (s : State) (p label : Nat) : (s.tearEntry p label).kept = s.kept := by
  unfold State.tearEntry
  dsimp only
  split <;> simp

@[simp] theorem State.failSetup_kept (s : State) (x : Setup) (reason : Nat) (rc : Rc) : (s.failSetup x reason rc).kept = s.kept := by
  unfold State.failSetup
  dsimp only
  repeat' split
  all_goals simp

@[simp] theorem State.chainUp_kept (s : State) (p : Nat) (n : Notice) : (s.chainUp p n).kept = s.kept := by simp [State.chainUp]
@[simp] theorem State.keepNotice_kept (s : State) (p : Nat) (n : Notice) : (s.keepNotice p n).kept = s.kept := State.kept_congr rfl rfl
@[simp] theorem State.noticed_kept (s : State) (p : Nat) (n : Notice) : (s.noticed p n).kept = s.kept := by
  unfold State.noticed
  dsimp only
  repeat' split
  all_goals simp

@[simp] theorem State.sendNotices_kept (s : State) (u : Nat) : (s.sendNotices u).kept = s.kept := by simp [State.sendNotices]
@[simp] theorem State.lanesOff_kept (s : State) (p : Nat) : (s.lanesOff p).kept = s.kept := by simp [State.lanesOff]
@[simp] theorem State.allOff_kept (s : State) (p : Nat) : (s.allOff p).kept = s.kept := by simp [State.allOff]
@[simp] theorem State.dropPendingIn_kept (s : State) (p : Nat) : (s.dropPendingIn p).kept = s.kept := by simp [State.dropPendingIn]
@[simp] theorem State.peerGone_kept (s : State) (p : Nat) : (s.peerGone p).kept = s.kept := by simp [State.peerGone]
@[simp] theorem State.roleEnds_kept (s : State) (p : Nat) : (s.roleEnds p).kept = s.kept := State.kept_congr rfl rfl
@[simp] theorem State.resetDone_kept (s : State) (p : Nat) (rc : Rc) : (s.resetDone p rc).kept = s.kept := by
  unfold State.resetDone
  split <;> simp

@[simp] theorem State.closeLink_kept (s : State) (p cause : Nat) : (s.closeLink p cause).kept = s.kept := by
  unfold State.closeLink
  extract_lets up s1 s2 s3 through s4 s5 note down dev now s6 s7 s8 s9 s10
  have h1 : s1.kept = s.kept := by simp [s1]
  clear_value s1
  have h2 : s2.kept = s.kept := by simp [s2, h1]
  clear_value s2
  have h3 : s3.kept = s.kept := by simp [s3, h2]
  clear_value s3
  have h5 : s5.kept = s.kept := by simp [s5, s4, h3]
  clear_value s5
  have h6 : s6.kept = s.kept := by simp [s6, h5]
  clear_value s6
  have h9 : s9.kept = s.kept := by simp [s9, s8, s7, h6]
  clear_value s9
  split_ifs
  · exact h9
  · split
    · rw [State.kept_ite, State.ctl_kept, ite_self]
      exact h9
    · exact h9

@[simp] theorem State.giveUp_kept (s : State) (p cause : Nat) : (s.giveUp p cause).kept = s.kept := by simp [State.giveUp]
@[simp] theorem State.resumePaths_kept (s : State) (p : Nat) : (s.resumePaths p).kept = s.kept := by simp [State.resumePaths]
@[simp] theorem State.linkComes_kept (s : State) (p : Nat) : (s.linkComes p).kept = s.kept := by simp [State.linkComes]
@[simp] theorem State.startTraining_kept (s : State) (p : Nat) : (s.startTraining p).kept = s.kept := by simp [State.startTraining]
@[simp] theorem State.waitRestart_kept (s : State) (p : Nat) : (s.waitRestart p).kept = s.kept := by simp [State.waitRestart]
@[simp] theorem State.step3Fail_kept (s : State) (p : Nat) (key : Bool) : (s.step3Fail p key).kept = s.kept := by simp [State.step3Fail]
@[simp] theorem State.trainFail_kept (s : State) (p k step cause : Nat) :
    (s.trainFail p k step cause).kept = s.kept := by simp [State.trainFail]
@[simp] theorem State.settled_kept (s : State) (p k idx : Nat) (r : LaneRes) : (s.settled p k idx r).kept = s.kept := by
  unfold State.settled
  split <;> simp

@[simp] theorem State.failDirs_kept (s : State) (p k : Nat) (r : LaneRes) (step cause : Nat) :
    (s.failDirs p k r step cause).kept = s.kept := by simp [State.failDirs]
@[simp] theorem State.step2Fail_kept (s : State) (p : Nat) : (s.step2Fail p).kept = s.kept := by simp [State.step2Fail]
@[simp] theorem State.stepDetect_kept (s : State) (p : Nat) (res : List LaneRes) :
    (s.stepDetect p res).kept = s.kept := by simp [State.stepDetect]
@[simp] theorem State.stepTLock_kept (s : State) (p : Nat) (res : List LaneRes) (peer : PeerLane) :
    (s.stepTLock p res peer).kept = s.kept := by simp [State.stepTLock]
@[simp] theorem State.stepLinkT_kept (s : State) (p : Nat) : (s.stepLinkT p).kept = s.kept := by simp [State.stepLinkT]
@[simp] theorem State.stepEqF_kept (s : State) (p : Nat) (res : List LaneRes) : (s.stepEqF p res).kept = s.kept := by simp [State.stepEqF]
@[simp] theorem State.stepEqH_kept (s : State) (p : Nat) (res : List LaneRes) : (s.stepEqH p res).kept = s.kept := by simp [State.stepEqH]
@[simp] theorem State.stepVerify_kept (s : State) (p : Nat) (res : List LaneRes) :
    (s.stepVerify p res).kept = s.kept := by simp [State.stepVerify]
@[simp] theorem State.handover_kept (s : State) (p : Nat) : (s.handover p).kept = s.kept := by simp [State.handover]
@[simp] theorem State.stepTurnCal_kept (s : State) (p : Nat) (res : List LaneRes) :
    (s.stepTurnCal p res).kept = s.kept := by simp [State.stepTurnCal]
@[simp] theorem State.stepGen1_kept (s : State) (p : Nat) (res : List LaneRes) (step : Nat) :
    (s.stepGen1 p res step).kept = s.kept := by simp [State.stepGen1]
@[simp] theorem State.trainStep_kept (s : State) (p : Nat) (res : List LaneRes) (peer : PeerLane) :
    (s.trainStep p res peer).kept = s.kept := by
  unfold State.trainStep
  repeat' split
  all_goals simp

@[simp] theorem State.autoRecal_kept (s : State) (p k trig : Nat) : (s.autoRecal p k trig).kept = s.kept := by simp [State.autoRecal]
@[simp] theorem State.sendHello_kept (s : State) (p : Nat) : (s.sendHello p).kept = s.kept := by simp [State.sendHello]
@[simp] theorem State.endBringup_kept (s : State) (p : Nat) (role : PortRole) :
    (s.endBringup p role).kept = s.kept := by simp [State.endBringup]
@[simp] theorem State.depthHeld_kept (s : State) (p : Nat) : (s.depthHeld p).kept = s.kept := by simp [State.depthHeld]
@[simp] theorem State.conflict_kept (s : State) (p : Nat) : (s.conflict p).kept = s.kept := by simp [State.conflict]
@[simp] theorem State.becomesUp_kept (s : State) (p depth : Nat) : (s.becomesUp p depth).kept = s.kept := by simp [State.becomesUp]
@[simp] theorem State.entropy_kept (s : State) (n : Nat) : (s.entropy n).2.kept = s.kept := State.kept_congr rfl rfl
@[simp] theorem State.scalar_kept (s : State) : (s.scalar).2.kept = s.kept := State.kept_congr rfl rfl
@[simp] theorem State.newEcdh_kept (s : State) (p : Nat) : (s.newEcdh p).kept = s.kept := State.kept_congr rfl rfl
@[simp] theorem State.keyMark_kept (s : State) (p : Nat) : (s.keyMark p).kept = s.kept := State.kept_congr rfl rfl
@[simp] theorem State.keyFinish_kept (s : State) (p : Nat) : (s.keyFinish p).kept = s.kept := by
  unfold State.keyFinish
  split <;> simp

@[simp] theorem State.keyStart_kept (s : State) (p : Nat) : (s.keyStart p).kept = s.kept := by simp [State.keyStart]
@[simp] theorem State.keyFail_kept (s : State) (p step : Nat) : (s.keyFail p step).kept = s.kept := by simp [State.keyFail]
@[simp] theorem State.keysInstall_kept (s : State) (p : Nat) : (s.keysInstall p).kept = s.kept := State.kept_congr rfl rfl
@[simp] theorem State.rotate_kept (s : State) (p : Nat) : (s.rotate p).kept = s.kept := by simp [State.rotate]
@[simp] theorem State.keyTurns_kept (s : State) (p : Nat) : (s.keyTurns p).kept = s.kept := by
  unfold State.keyTurns
  dsimp only
  repeat' split
  all_goals simp

@[simp] theorem State.keyRetires_kept (s : State) (p : Nat) : (s.keyRetires p).kept = s.kept := State.kept_congr rfl rfl

/-! ### CfgCmds -/

@[simp] theorem State.keepReport_kept (s : State) (c : Chan) (r : List RepEntry) :
    (s.keepReport c r).kept = s.kept := by simp [State.keepReport]
@[simp] theorem State.rejectedEvents_kept (s : State) (c : Chan) (l : List (CfgRec × Nat)) :
    (s.rejectedEvents c l).kept = s.kept := by simp [State.rejectedEvents]

/-! ### Cpwr -/

@[simp] theorem State.farRpSeen_kept (s : State) (k rp : Nat) : (s.farRpSeen k rp).kept = s.kept := by simp [State.farRpSeen]
@[simp] theorem State.attach_kept (s : State) (k : Nat) (src pinB5 ra : Bool) (rpFar : Nat) :
    (s.attach k src pinB5 ra rpFar).kept = s.kept := by simp [State.attach]
@[simp] theorem State.detach_kept (s : State) (k : Nat) : (s.detach k).kept = s.kept := by
  unfold State.detach
  dsimp only
  split <;> simp

@[simp] theorem State.answerRequest_kept (s : State) (k : Nat) (rdo : Word) (answer : Nat) :
    (s.answerRequest k rdo answer).kept = s.kept := by simp [State.answerRequest]
@[simp] theorem State.gotRequest_kept (s : State) (k : Nat) (rdo : Word) : (s.gotRequest k rdo).kept = s.kept := by simp [State.gotRequest]
@[simp] theorem State.answerSwap_kept (s : State) (k kind answer : Nat) :
    (s.answerSwap k kind answer).kept = s.kept := by simp [State.answerSwap]
@[simp] theorem State.crossed_kept (s : State) (k : Nat) : (s.crossed k).kept = s.kept := by
  unfold State.crossed
  split <;> simp

@[simp] theorem State.swapByPolicy_kept (s : State) (k kind : Nat) : (s.swapByPolicy k kind).kept = s.kept := by simp [State.swapByPolicy]
@[simp] theorem State.gotSwap_kept (s : State) (k kind : Nat) : (s.gotSwap k kind).kept = s.kept := by
  unfold State.gotSwap
  dsimp only
  split <;> simp

@[simp] theorem State.awaitReply_kept (s : State) (k : Nat) : (s.awaitReply k).kept = s.kept := State.kept_congr rfl rfl
@[simp] theorem State.ackedFor_kept (s : State) (k : Nat) (o : PdOut) : (s.ackedFor k o).kept = s.kept := by
  unfold State.ackedFor
  repeat' split
  all_goals simp

@[simp] theorem State.acked'_kept (s : State) (k : Nat) : (s.acked' k).kept = s.kept := by
  unfold State.acked'
  split <;> simp

@[simp] theorem State.discAnswer_kept (s : State) (k : Nat) (m : PdMsg) (cmd typ : Nat) :
    (s.discAnswer k m cmd typ).kept = s.kept := by simp [State.discAnswer]
@[simp] theorem State.sendEnter_kept (s : State) (k mode : Nat) : (s.sendEnter k mode).kept = s.kept := by simp [State.sendEnter]
@[simp] theorem State.enterAnswer_kept (s : State) (k typ : Nat) : (s.enterAnswer k typ).kept = s.kept := by
  unfold State.enterAnswer
  split <;> simp

@[simp] theorem State.ufpAnswer_kept (s : State) (k svid cmd : Nat) : (s.ufpAnswer k svid cmd).kept = s.kept := by
  unfold State.ufpAnswer
  split <;> simp

@[simp] theorem State.gotEnter_kept (s : State) (k svid : Nat) : (s.gotEnter k svid).kept = s.kept := by simp [State.gotEnter]
@[simp] theorem State.gotHpd_kept (s : State) (k : Nat) (objs : List Word) : (s.gotHpd k objs).kept = s.kept := by simp [State.gotHpd]
@[simp] theorem State.queueMsg_kept (s : State) (k : Nat) (m : PdMsg) : (s.queueMsg k m).kept = s.kept := by simp [State.queueMsg]
@[simp] theorem State.defaultRequest_kept (s : State) (k : Nat) : (s.defaultRequest k).kept = s.kept := by
  unfold State.defaultRequest
  split <;> simp

@[simp] theorem State.gotAnswer_kept (s : State) (k : Nat) (answer : Nat) : (s.gotAnswer k answer).kept = s.kept := by
  unfold State.gotAnswer
  dsimp only
  split <;> simp

@[simp] theorem State.gotPsRdy_kept (s : State) (k : Nat) : (s.gotPsRdy k).kept = s.kept := by
  unfold State.gotPsRdy
  dsimp only
  split <;> simp

@[simp] theorem State.dropQueued_kept (s : State) (k : Nat) (m : PdMsg) : (s.dropQueued k m).kept = s.kept := by
  unfold State.dropQueued
  split <;> simp

/-! ### FaultOps -/

@[simp] theorem State.logFault_kept (s : State) (code action : Nat) (unit : Nat) :
    (s.logFault code action unit).kept = s.kept := by simp [State.logFault]
@[simp] theorem State.submit_kept (s : State) (m : Msg) (delivered : Bool) : (s.submit m delivered).kept = s.kept := by
  unfold State.submit
  dsimp only
  split <;> simp

/-! ### SvcOps -/

@[simp] theorem State.setInst_kept (s : State) (id : Nat) (f : InstSt → InstSt) : (s.setInst id f).kept = s.kept := State.kept_congr rfl rfl
@[simp] theorem State.setCore_kept (s : State) (k : Nat) (f : CoreSt → CoreSt) : (s.setCore k f).kept = s.kept := State.kept_congr rfl rfl
@[simp] theorem State.beginInst_kept (s : State) (id core cls : Nat) (p : SvcPkg) : (s.beginInst id core cls p).kept = s.kept := by
  unfold State.beginInst
  split <;> simp

@[simp] theorem State.startInst_kept (s : State) (id : Nat) : (s.startInst id).kept = s.kept := by
  unfold State.startInst
  repeat' split
  all_goals simp

@[simp] theorem State.haltInst_kept (s : State) (id : Nat) : (s.haltInst id).kept = s.kept := State.kept_congr rfl rfl
@[simp] theorem State.stopInst_kept (s : State) (id cause : Nat) : (s.stopInst id cause).kept = s.kept := by simp [State.stopInst]
@[simp] theorem State.clusterStart_kept (s : State) : (s.clusterStart).kept = s.kept := by simp [State.clusterStart]
@[simp] theorem State.clusterStop_kept (s : State) : (s.clusterStop).kept = s.kept := State.kept_congr rfl rfl
@[simp] theorem State.clusterRestart_kept (s : State) : (s.clusterRestart).kept = s.kept := by simp [State.clusterRestart]
@[simp] theorem State.faultInst_kept (s : State) (id cause : Nat) : (s.faultInst id cause).kept = s.kept := by simp [State.faultInst]
@[simp] theorem State.restartElsewhere_kept (s : State) (x : InstSt) (but : Option Nat) : (s.restartElsewhere x but).kept = s.kept := by
  unfold State.restartElsewhere
  repeat' split
  all_goals simp

@[simp] theorem State.loseCore_kept (s : State) (k : Nat) : (s.loseCore k).kept = s.kept := by simp [State.loseCore]
@[simp] theorem State.move_kept (s : State) (id src dst : Nat) (chip : Bool) :
    (s.move id src dst chip).kept = s.kept := State.kept_congr rfl rfl
@[simp] theorem State.suspendInst_kept (s : State) (id home : Nat) : (s.suspendInst id home).kept = s.kept := by simp [State.suspendInst]
@[simp] theorem State.resumeInst_kept (s : State) (id core : Nat) : (s.resumeInst id core).kept = s.kept := by simp [State.resumeInst]
@[simp] theorem State.drainDone_kept (s : State) (k : Nat) : (s.drainDone k).kept = s.kept := by
  unfold State.drainDone
  dsimp only
  repeat' split
  all_goals simp

@[simp] theorem State.drainCore_kept (s : State) (k : Nat) (job : Option (Via × Nat)) : (s.drainCore k job).kept = s.kept := by
  unfold State.drainCore
  rw [State.drainDone_kept, State.kept_foldl]
  · simp
  · intro s x
    split <;> simp

@[simp] theorem State.admitCore_kept (s : State) (k : Nat) : (s.admitCore k).kept = s.kept := by
  unfold State.admitCore
  split_ifs
  · rfl
  · rw [State.kept_foldl]
    · simp
    · intro s x
      split <;> simp

@[simp] theorem State.dropMoves_kept (s : State) : (s.dropMoves).kept = s.kept := by simp [State.dropMoves]
@[simp] theorem State.woeriReduced_kept (s : State) : (s.woeriReduced).kept = s.kept := by simp [State.woeriReduced]
@[simp] theorem State.woeriActive_kept (s : State) : (s.woeriActive).kept = s.kept := by
  unfold State.woeriActive
  split_ifs
  · rfl
  · rw [State.kept_foldl fun s x => by simp [State.kept_ite], State.kept_foldl]
    · simp
    · intro s x
      split_ifs
      · simp
      · split <;> simp

@[simp] theorem State.moveDone_kept (s : State) (m : Migration) : (s.moveDone m).kept = s.kept := by simp [State.moveDone]
@[simp] theorem State.svcWake_kept (s : State) : (s.svcWake).kept = s.kept := State.kept_congr rfl rfl
@[simp] theorem State.svcListen_kept (s : State) : (s.svcListen).kept = s.kept := State.kept_congr rfl rfl
@[simp] theorem State.svcTick_kept (s : State) : (s.svcTick).kept = s.kept := by simp [State.svcTick]
@[simp] theorem State.svcWordLost_kept (s : State) (off : Nat) : (s.svcWordLost off).kept = s.kept := by
  unfold State.svcWordLost
  repeat' split
  all_goals simp

@[simp] theorem State.sbWordLost_kept (s : State) (a : Nat) : (s.sbWordLost a).kept = s.kept := by
  unfold State.sbWordLost
  split <;> simp

@[simp] theorem State.fleetReport_kept (s : State) : (s.fleetReport).kept = s.kept := by simp [State.fleetReport]

/-! ### UpdOps -/

@[simp] theorem State.blowRollback_kept (s : State) (target : Nat) : (s.blowRollback target).kept = s.kept := by simp [State.blowRollback]
@[simp] theorem State.setFlash_kept (s : State) (g : FlashSt → FlashSt) : (s.setFlash g).kept = s.kept := State.kept_congr rfl rfl
@[simp] theorem State.journalNext_kept (s : State) (phase : Nat) : (s.journalNext phase).kept = s.kept := State.kept_congr rfl rfl
@[simp] theorem State.commitBegin_kept (s : State) (d : Dir) : (s.commitBegin d).kept = s.kept := by simp [State.commitBegin]
@[simp] theorem State.commitClose_kept (s : State) : (s.commitClose).kept = s.kept := State.kept_congr rfl rfl
@[simp] theorem State.commitEnd_kept (s : State) (d : Dir) : (s.commitEnd d).kept = s.kept := by simp [State.commitEnd]
@[simp] theorem State.putDir_kept (s : State) (copy : Nat) (d : Dir) : (s.putDir copy d).kept = s.kept := State.kept_congr rfl rfl
@[simp] theorem State.commitFinish_kept (s : State) (d : Dir) (copy : Nat) (ok : Bool) : (s.commitFinish d copy ok).2.kept = s.kept := by
  unfold State.commitFinish
  split <;> simp

@[simp] theorem State.commitCut_kept (s : State) : (s.commitCut).kept = s.kept := by
  unfold State.commitCut
  dsimp only
  repeat' split
  all_goals simp

@[simp] theorem State.journalRecovery_kept (s : State) : (s.journalRecovery).kept = s.kept := by
  unfold State.journalRecovery
  repeat' split
  all_goals simp

@[simp] theorem State.setVerdict_kept (s : State) (engine copy : Nat) (v : Option Nat) :
    (s.setVerdict engine copy v).kept = s.kept := State.kept_congr rfl rfl
@[simp] theorem State.startEngine_kept (s : State) (i : Nat) : (s.startEngine i).kept = s.kept := by simp [State.startEngine]

/-! ### ResetOps -/

@[simp] theorem State.loadBaseline_kept (s : State) : (s.loadBaseline).kept = s.kept := State.kept_congr rfl rfl
@[simp] theorem State.signalsLost_kept (s : State) : (s.signalsLost).kept = s.kept := by simp [State.signalsLost]
@[simp] theorem State.reportFaults_kept (s : State) : (s.reportFaults).kept = s.kept := by simp [State.reportFaults]
@[simp] theorem State.halt_kept (s : State) (err : Nat) : (s.halt err).kept = s.kept := by simp [State.halt]
@[simp] theorem State.completeDestructions_kept (s : State) (lc : Nat) :
    (s.completeDestructions lc).kept = s.kept := by simp [State.completeDestructions]
@[simp] theorem State.writeSlot_kept (s : State) (k cls : Nat) (content : List Byte) :
    (s.writeSlot k cls content).kept = s.kept := by simp [State.writeSlot]
@[simp] theorem State.fillDevice_kept (s : State) : (s.fillDevice).kept = s.kept := by simp [State.fillDevice]
@[simp] theorem State.loadMgt_kept (s : State) (copy err : Nat) : (s.loadMgt copy err).kept = s.kept := by simp [State.loadMgt]
@[simp] theorem State.flashRead_kept (s : State) : (s.flashRead).kept = s.kept := State.kept_congr rfl rfl
@[simp] theorem State.fiddlehead_kept (s : State) (loop : Bool) : (s.fiddlehead loop).kept = s.kept := by
  unfold State.fiddlehead
  dsimp only
  repeat' split
  all_goals simp

@[simp] theorem State.noteReset_kept (s : State) (kind cause : Nat) : (s.noteReset kind cause).kept = s.kept := State.kept_congr rfl rfl
@[simp] theorem State.firmwareReady_kept (s : State) : (s.firmwareReady).kept = s.kept := by simp [State.firmwareReady]
@[simp] theorem State.handlesLapse_kept (s : State) : (s.handlesLapse).kept = s.kept := by simp [State.handlesLapse]
@[simp] theorem State.retryWaiting_kept (s : State) : (s.retryWaiting).kept = s.kept := by simp [State.retryWaiting]
@[simp] theorem State.mgtCoreReset_kept (s : State) (cause : Nat) : (s.mgtCoreReset cause).kept = s.kept := by
  unfold State.mgtCoreReset
  dsimp only
  repeat' split
  all_goals simp

@[simp] theorem State.firmwareAgain_kept (s : State) : (s.firmwareAgain).kept = s.kept := State.kept_congr rfl rfl

/-! ### AccessOps -/

@[simp] theorem State.lichenLost_kept (s : State) (off : Nat) : (s.lichenLost off).kept = s.kept := by simp [State.lichenLost]
@[simp] theorem State.regionLost_kept (s : State) (x : Nat) : (s.regionLost x).kept = s.kept := by
  unfold State.regionLost
  dsimp only
  repeat' split
  all_goals simp

@[simp] theorem State.setCache_kept (s : State) (m : Nat) (f : List CacheLine → List CacheLine) :
    (s.setCache m f).kept = s.kept := State.kept_congr rfl rfl
@[simp] theorem State.denyNow_kept (s : State) (m k a len : Nat) (region : Nat) (debug : Bool) :
    (s.denyNow m k a len region debug).kept = s.kept := by simp [State.denyNow]
@[simp] theorem State.waited_kept (s : State) (m a n : Nat) : (s.waited m a n).kept = s.kept := by simp [State.waited]
@[simp] theorem State.collided_kept (s : State) : (s.collided).kept = s.kept := State.kept_congr rfl rfl

/-! ### Debug -/

@[simp] theorem State.jtag_kept (s : State) (ir : BitVec 8) : (s.jtag ir).kept = s.kept := State.kept_congr rfl rfl
@[simp] theorem State.haltCore_kept (s : State) (core : Nat) (on : Bool) : (s.haltCore core on).kept = s.kept := by simp [State.haltCore]

/-! ### Display -/

@[simp] theorem State.skipEvent_kept (s : State) (x : StreamSt) : (s.skipEvent x).kept = s.kept := by simp [State.skipEvent]
@[simp] theorem State.captureFrame_kept (s : State) (x : StreamSt) (d : FrameDesc) (stamp : Nat) :
    (s.captureFrame x d stamp).kept = s.kept := by simp [State.captureFrame]
@[simp] theorem State.readBlocks_kept (s : State) (k : Nat) (blocks : List MirrorBlk) :
    (s.readBlocks k blocks).kept = s.kept := by simp [State.readBlocks]
@[simp] theorem State.unplugHolds_kept (s : State) (k : Nat) : (s.unplugHolds k).kept = s.kept := by simp [State.unplugHolds]
@[simp] theorem State.closeFrame_kept (s : State) (x : StreamSt) : (s.closeFrame x).kept = s.kept := by simp [State.closeFrame]
@[simp] theorem State.applyDesc_kept (s : State) (x : StreamSt) (d : FrameDesc) (stamp : Nat) :
    (s.applyDesc x d stamp).kept = s.kept := by simp [State.applyDesc]
@[simp] theorem State.noDesc_kept (s : State) (x : StreamSt) : (s.noDesc x).kept = s.kept := State.kept_congr rfl rfl
@[simp] theorem State.newDesc_kept (s : State) (x : StreamSt) : (s.newDesc x).kept = s.kept := by
  unfold State.newDesc
  split <;> simp

@[simp] theorem State.sendSdps_kept (s : State) (x : StreamSt) (line : Nat) : (s.sendSdps x line).kept = s.kept := by simp [State.sendSdps]
@[simp] theorem State.placeFrame_kept (s : State) (x : StreamSt) : (s.placeFrame x).kept = s.kept := by
  unfold State.placeFrame
  split
  · extract_lets
    rw [State.emit_kept, State.kept_ite, State.setStream_kept, State.setStream_kept, ite_self]
  · rfl

@[simp] theorem State.frameOutput_kept (s : State) (x : StreamSt) : (s.frameOutput x).kept = s.kept := by
  unfold State.frameOutput
  split <;> simp

@[simp] theorem State.onStream_kept (s : State) (id : Nat) (f : State → StreamSt → State) (h : ∀ s x, (f s x).kept = s.kept) :
    (s.onStream id f).kept = s.kept := by
  unfold State.onStream
  split
  · exact h _ _
  · rfl

@[simp] theorem State.servo_kept (s : State) (x : StreamSt) (err need : Int) : (s.servo x err need).kept = s.kept := by simp [State.servo]
@[simp] theorem State.concealEvent_kept (s : State) (id : Nat) : (s.concealEvent id).kept = s.kept := by
  unfold State.concealEvent
  split <;> simp

@[simp] theorem State.playAudio_kept (s : State) (x : StreamSt) (n : Nat) : (s.playAudio x n).kept = s.kept := by simp [State.playAudio]
@[simp] theorem State.dpcdByte_kept (s : State) (k addr : Nat) : (s.dpcdByte k addr).2.kept = s.kept := by
  unfold State.dpcdByte
  dsimp only
  repeat' split
  all_goals simp

@[simp] theorem State.dpcdRead_kept (s : State) (k addr len : Nat) : (s.dpcdRead k addr len).2.kept = s.kept := by simp [State.dpcdRead]
@[simp] theorem State.auxSay_kept (s : State) (k reply : Nat) (data : List Byte) :
    (s.auxSay k reply data).kept = s.kept := State.kept_congr rfl rfl
@[simp] theorem State.auxForward_kept (s : State) (k cmd addr vstream : Nat) (data : List Byte) (posted : Bool) :
    (s.auxForward k cmd addr vstream data posted).kept = s.kept := by
  unfold State.auxForward
  repeat' split
  all_goals simp

@[simp] theorem State.auxEdid_kept (s : State) (k addr len : Nat) (rd : Bool) (data : List Byte) :
    (s.auxEdid k addr len rd data).kept = s.kept := by simp [State.auxEdid]
@[simp] theorem State.auxPanel_kept (s : State) (k cmd addr : Nat) (data : List Byte) (what : PanelAux) :
    (s.auxPanel k cmd addr data what).kept = s.kept := State.kept_congr rfl rfl
@[simp] theorem State.panelRefresh_kept (s : State) (hops dst : Nat) (d : FrameDesc) : (s.panelRefresh hops dst d).2.kept = s.kept := by
  unfold State.panelRefresh
  repeat' split
  all_goals simp

/-! ### Ppath -/

@[simp] theorem State.shedOutput_kept (s : State) (o : Nat) : (s.shedOutput o).kept = s.kept := by simp [State.shedOutput]
@[simp] theorem State.bayTimer_kept (s : State) (b : Nat) : (s.bayTimer b).kept = s.kept := by simp [State.bayTimer]
@[simp] theorem State.fetActs_kept (s : State) (b : Nat) : (s.fetActs b).kept = s.kept := by
  unfold State.fetActs
  dsimp only
  split <;> simp

/-! ### TimeOps -/

@[simp] theorem State.sendTwice_kept (s : State) (p kind : Nat) (payload : List Byte) :
    (s.sendTwice p kind payload).kept = s.kept := by simp [State.sendTwice]
@[simp] theorem State.sendPlan_kept (s : State) (p : Nat) (pl : Plan) : (s.sendPlan p pl).kept = s.kept := by simp [State.sendPlan]
@[simp] theorem State.steerTo_kept (s : State) (al : Align) (e : Int) : (s.steerTo al e).kept = s.kept := by simp [State.steerTo]
@[simp] theorem State.measure_kept (s : State) (p : Nat) : (s.measure p).kept = s.kept := by
  unfold State.measure
  dsimp only
  repeat' split
  all_goals simp

@[simp] theorem State.turnTick_kept (s : State) : (s.turnTick).kept = s.kept := by simp [State.turnTick]
@[simp] theorem State.shiftPlans_kept (s : State) (p : Nat) : (s.shiftPlans p).kept = s.kept := by simp [State.shiftPlans]
@[simp] theorem State.burstEnds_kept (s : State) (p : Nat) : (s.burstEnds p).kept = s.kept := by simp [State.burstEnds]
@[simp] theorem State.feedPower_kept (s : State) (pOut : Nat) : (s.feedPower pOut).kept = s.kept := State.kept_congr rfl rfl
@[simp] theorem State.avs_kept (s : State) (margin steps : Nat) : (s.avs margin steps).kept = s.kept := by simp [State.avs]
@[simp] theorem State.enterPlanned_kept (s : State) : (s.enterPlanned).kept = s.kept := by
  unfold State.enterPlanned
  split <;> simp

@[simp] theorem State.corePower_kept (s : State) : (s.corePower).kept = s.kept := by simp [State.corePower]
@[simp] theorem State.bodyBias_kept (s : State) : (s.bodyBias).kept = s.kept := by simp [State.bodyBias]
@[simp] theorem State.idleWatch_kept (s : State) : (s.idleWatch).kept = s.kept := by simp [State.idleWatch]
@[simp] theorem State.latchService_kept (s : State) : (s.latchService).kept = s.kept := by simp [State.latchService]
@[simp] theorem State.laneCounts_kept (s : State) (counts : List (List Nat)) :
    (s.laneCounts counts).kept = s.kept := by simp [State.laneCounts]
@[simp] theorem State.linkTick_kept (s : State) (p : Nat) : (s.linkTick p).kept = s.kept := by simp [State.linkTick]
@[simp] theorem State.recEnable_kept (s : State) : (s.recEnable).kept = s.kept := by simp [State.recEnable]
@[simp] theorem State.linkLimits_kept (s : State) (p : Nat) : (s.linkLimits p).kept = s.kept := by simp [State.linkLimits]
@[simp] theorem State.tickEvents_kept (s : State) : (s.tickEvents).kept = s.kept := by simp [State.tickEvents]
@[simp] theorem State.boundary_kept (s : State) (readings : List Int) (pOut margin steps : Nat) (lanes : List (List Nat)) :
    (s.boundary readings pOut margin steps lanes).kept = s.kept := by simp [State.boundary]
@[simp] theorem State.freeze_kept (s : State) : (s.freeze).kept = s.kept := by simp [State.freeze]
@[simp] theorem State.sendDemand_kept (s : State) (p : Nat) : (s.sendDemand p).kept = s.kept := by simp [State.sendDemand]
@[simp] theorem State.storeFor_kept (s : State) (p : Nat) (pl : Plan) : (s.storeFor p pl).kept = s.kept := State.kept_congr rfl rfl
@[simp] theorem State.fixTick_kept (s : State) (p : Nat) (t : Tick) : (s.fixTick p t).kept = s.kept := State.kept_congr rfl rfl
@[simp] theorem State.missedTick_kept (s : State) (p target : Nat) : (s.missedTick p target).kept = s.kept := by simp [State.missedTick]
@[simp] theorem State.finishBuild_kept (s : State) (target : Nat) (before : List (Nat × List Nat)) (ans : EnergyAns) (b : Build) :
    (s.finishBuild target before ans b).kept = s.kept := State.kept_congr rfl rfl
@[simp] theorem State.buildLanes_kept (s : State) : (s.buildLanes).kept = s.kept := by simp [State.buildLanes]
@[simp] theorem State.sendTick_kept (s : State) (p : Nat) : (s.sendTick p).kept = s.kept := by
  unfold State.sendTick
  dsimp only
  repeat' split
  all_goals simp

@[simp] theorem State.tickDeadline_kept (s : State) (p : Nat) : (s.tickDeadline p).kept = s.kept := by
  unfold State.tickDeadline
  dsimp only
  repeat' split
  all_goals simp

/-! ### Lanes -/

@[simp] theorem State.recalPassed_kept (s : State) (p k : Nat) (r : Recal) :
    (s.recalPassed p k r).kept = s.kept := by simp [State.recalPassed]
@[simp] theorem State.recalOn_kept (s : State) (p k : Nat) : (s.recalOn p k).kept = s.kept := by
  unfold State.recalOn
  split <;> simp

@[simp] theorem State.recalFails_kept (s : State) (p k : Nat) (r : Recal) (f v : Bool) (why : Nat) :
    (s.recalFails p k r f v why).kept = s.kept := by simp [State.recalFails]
@[simp] theorem State.settleDir_kept (s : State) (p k idx dir : Nat) (e : EqRes) :
    (s.settleDir p k idx dir e).kept = s.kept := State.kept_congr rfl rfl
@[simp] theorem State.settleStep_kept (s : State) (p k dir : Nat) (r : Recal) (res : LaneRes) :
    (s.settleStep p k dir r res).kept = s.kept := by
  unfold State.settleStep
  repeat' split
  all_goals simp

@[simp] theorem State.recalStep_kept (s : State) (port lane : Nat) (res : LaneRes) : (s.recalStep port lane res).kept = s.kept := by
  unfold State.recalStep
  dsimp only
  split <;> simp

/-! ### Link -/

@[simp] theorem State.authFail_kept (s : State) (p : Nat) : (s.authFail p).kept = s.kept := State.kept_congr rfl rfl
@[simp] theorem State.poisonSeen_kept (s : State) (p : Nat) : (s.poisonSeen p).kept = s.kept := State.kept_congr rfl rfl
@[simp] theorem State.sawCounter_kept (s : State) (p ctr : Nat) (old : Bool) :
    (s.sawCounter p ctr old).kept = s.kept := by simp [State.sawCounter]
@[simp] theorem State.takeOwn_kept (s : State) (p : Nat) (x : RxCell) (tag : List Byte) :
    (s.takeOwn p x tag).kept = s.kept := by simp [State.takeOwn]
@[simp] theorem State.takeCoach_kept (s : State) (p : Nat) (x : RxCell) : (s.takeCoach p x).kept = s.kept := by
  unfold State.takeCoach
  dsimp only
  repeat' split
  all_goals simp

@[simp] theorem State.takeCell_kept (s : State) (p : Nat) (x : RxCell) (tag : List Byte) :
    (s.takeCell p x tag).kept = s.kept := by simp [State.takeCell]
@[simp] theorem State.loseBoundary_kept (s : State) (p lane : Nat) : (s.loseBoundary p lane).kept = s.kept := by simp [State.loseBoundary]
@[simp] theorem State.creditEntry_kept (s : State) (p : Nat) (e : CreditEntry) : (s.creditEntry p e).kept = s.kept := by
  unfold State.creditEntry
  repeat' split
  all_goals simp

@[simp] theorem State.peerAsks_kept (s : State) (p k req : Nat) : (s.peerAsks p k req).kept = s.kept := by
  unfold State.peerAsks
  split <;> simp

@[simp] theorem State.becomesMaster_kept (s : State) (p : Nat) : (s.becomesMaster p).kept = s.kept := by simp [State.becomesMaster]
@[simp] theorem State.noMaster_kept (s : State) (p : Nat) : (s.noMaster p).kept = s.kept := by simp [State.noMaster]
@[simp] theorem State.wins_kept (s : State) (p : Nat) : (s.wins p).kept = s.kept := by simp [State.wins]
@[simp] theorem State.loses_kept (s : State) (p : Nat) : (s.loses p).kept = s.kept := by simp [State.loses]
@[simp] theorem State.decide_kept (s : State) (p : Nat) (h : PeerHello) : (s.decide p h).kept = s.kept := by simp [State.decide]
@[simp] theorem State.tearLabel_kept (s : State) (p label : Nat) : (s.tearLabel p label).kept = s.kept := by
  unfold State.tearLabel
  split <;> simp

/-! ### Net -/

@[simp] theorem State.netPower_kept (s : State) (d3hot pmeEn : Bool) : (s.netPower d3hot pmeEn).kept = s.kept := by simp [State.netPower]
@[simp] theorem State.netCtrl_kept (s : State) (v : Nat) : (s.netCtrl v).kept = s.kept := by simp [State.netCtrl]
@[simp] theorem State.netFnReset_kept (s : State) : (s.netFnReset).kept = s.kept := by simp [State.netFnReset]
@[simp] theorem State.netRegWrite_kept (s : State) (off value : Nat) :
    (s.netRegWrite off value).kept = s.kept :=
  State.kept_of_ite rfl (State.kept_of_ite (State.netCtrl_kept s value) (State.kept_of_ite ((State.sendPresence_kept _).trans (State.kept_congr rfl rfl)) (State.kept_of_ite ((State.sendPresence_kept _).trans (State.kept_congr rfl rfl))
    (State.kept_of_ite (State.kept_congr rfl rfl) (State.kept_of_ite (State.kept_congr rfl rfl)
      (State.kept_of_ite (State.kept_of_ite (State.kept_congr rfl rfl) (State.kept_of_ite (State.kept_congr rfl rfl) rfl)) rfl))))))

@[simp] theorem State.hostDeliver_kept (s : State) (held : Bool) (hash : Nat) (bufs : List NetDesc) (frame : List Byte) :
    (s.hostDeliver held hash bufs frame).kept = s.kept := by simp [State.hostDeliver]

/-! ### Usb -/

@[simp] theorem State.usbSay_kept (s : State) (tx : UsbTx) (answer : Nat) (data : List Byte) :
    (s.usbSay tx answer data).kept = s.kept := State.kept_congr rfl rfl
@[simp] theorem State.stageFor_kept (s : State) (tx : UsbTx) : (s.stageFor tx).2.kept = s.kept := by
  unfold State.stageFor
  split <;> simp

@[simp] theorem State.defer_kept (s : State) (tx : UsbTx) (x : UsbStage) : (s.defer tx x).kept = s.kept := State.kept_congr rfl rfl
@[simp] theorem State.readAhead_kept (s : State) (x : UsbStage) : (s.readAhead x).kept = s.kept := by simp [State.readAhead]
@[simp] theorem State.hostIsoIn_kept (s : State) (tx : UsbTx) (x : UsbStage) : (s.hostIsoIn tx x).kept = s.kept := by simp [State.hostIsoIn]
@[simp] theorem State.hostIn_kept (s : State) (tx : UsbTx) : (s.hostIn tx).kept = s.kept := by
  unfold State.hostIn
  dsimp only
  generalize hq : s.stageFor tx = q
  have hk : q.2.kept = s.kept := by rw [← hq]; exact State.stageFor_kept s tx
  obtain ⟨x, u⟩ := q
  dsimp only at hk ⊢
  rw [← hk]
  generalize (!s.usb.stages.any (stageIs tx.root tx.port tx.addr tx.ep tx.stream tx.dirIn)) = isNew
  generalize hw : (if (isNew && Decidable.decide (2 ≤ tx.kind) && (u.remote tx.root).state == 2) = true then
    u.askPackets x (if (tx.kind == 2) = true then 16 else 1) else u) = w
  have hwk : w.kept = u.kept := by rw [← hw]; simp
  rw [← hwk]
  split_ifs
  · simp
  · simp
  · simp
  · simp
  · simp
  · rw [State.askPackets_kept, State.setStage_kept, State.kept_foldl fun _ _ => State.usbSay_kept _ _ _ _]
  · rw [State.readAhead_kept, State.setStage_kept, State.kept_foldl fun _ _ => State.usbSay_kept _ _ _ _]
  all_goals
    split <;> simp

@[simp] theorem State.sendOut_kept (s : State) (x : UsbStage) (data : List Byte) :
    (s.sendOut x data).kept = s.kept := State.kept_congr rfl rfl
@[simp] theorem State.hostOut_kept (s : State) (tx : UsbTx) : (s.hostOut tx).kept = s.kept := by
  unfold State.hostOut
  dsimp only
  repeat' split
  all_goals simp

@[simp] theorem State.haltEndpoints_kept (s : State) (tx : UsbTx) (only : Option (Nat × Bool)) (restart : Bool) :
    (s.haltEndpoints tx only restart).kept = s.kept := by simp [State.haltEndpoints]
@[simp] theorem State.hostPortReset_kept (s : State) (tx : UsbTx) : (s.hostPortReset tx).kept = s.kept := by simp [State.hostPortReset]
@[simp] theorem State.hubRequest_kept (s : State) (tx : UsbTx) (code : Byte) :
    (s.hubRequest tx code).kept = s.kept := State.kept_congr rfl rfl
@[simp] theorem State.hostSetup_kept (s : State) (tx : UsbTx) : (s.hostSetup tx).kept = s.kept := by simp [State.hostSetup]
@[simp] theorem State.hostExtReset_kept (s : State) (tx : UsbTx) (addrs : List Nat) :
    (s.hostExtReset tx addrs).kept = s.kept := by simp [State.hostExtReset]
@[simp] theorem State.ownFunction_kept (s : State) (tx : UsbTx) : (s.ownFunction tx).kept = s.kept := by
  unfold State.ownFunction
  dsimp only
  split <;> simp

@[simp] theorem State.rootHub_kept (s : State) (tx : UsbTx) : (s.rootHub tx).kept = s.kept := by
  unfold State.rootHub
  split <;> simp

@[simp] theorem State.remoteHub_kept (s : State) (tx : UsbTx) : (s.remoteHub tx).kept = s.kept := by
  unfold State.remoteHub
  split <;> simp

@[simp] theorem State.hostRemote_kept (s : State) (tx : UsbTx) : (s.hostRemote tx).kept = s.kept := by
  unfold State.hostRemote
  split
  all_goals simp

@[simp] theorem State.epochOk_kept (s : State) (f : UsbFrame) : (s.epochOk f).2.kept = s.kept := by
  unfold State.epochOk
  dsimp only
  split <;> simp

@[simp] theorem State.replayReports_kept (s : State) (f : UsbFrame) : (s.replayReports f).2.kept = s.kept := by simp [State.replayReports]
@[simp] theorem State.ownSetupData_kept (s : State) (f : UsbFrame) : (s.ownSetupData f).kept = s.kept := by simp [State.ownSetupData]
@[simp] theorem State.keptSetup_kept (s : State) (f : UsbFrame) : (s.keptSetup f).2.kept = s.kept := by
  unfold State.keptSetup
  dsimp only
  repeat' split
  all_goals simp

@[simp] theorem State.extReset_kept (s : State) (f : UsbFrame) : (s.extReset f).kept = s.kept := by simp [State.extReset]
@[simp] theorem State.tellReady_kept (s : State) (root : Nat) (f : UsbFrame) (x : UsbStage) :
    (s.tellReady root f x).kept = s.kept := by simp [State.tellReady]
@[simp] theorem State.remoteReset_kept (s : State) (k : Nat) : (s.remoteReset k).kept = s.kept := by simp [State.remoteReset]
@[simp] theorem State.startResume_kept (s : State) (k : Nat) : (s.startResume k).kept = s.kept := by simp [State.startResume]
@[simp] theorem State.hubReset_kept (s : State) : (s.hubReset).kept = s.kept := by simp [State.hubReset]
@[simp] theorem State.fallbackHost_kept (s : State) (tx : UsbTx) : (s.fallbackHost tx).kept = s.kept := by
  unfold State.fallbackHost
  repeat' split
  all_goals simp

@[simp] theorem State.endResume_kept (s : State) (k : Nat) : (s.endResume k).kept = s.kept := by simp [State.endResume]
@[simp] theorem State.busStateTo_kept (s : State) (code : Nat) : (s.busStateTo code).kept = s.kept := by
  unfold State.busStateTo
  dsimp only
  split
  · rw [State.kept_foldl]
    · simp
    · intro s k
      simp
  · simp
  · rw [State.kept_foldl]
    · simp
    · intro s k
      split <;> simp
  · simp

@[simp] theorem State.bufferReport_kept (s : State) (r : HidReport) : (s.bufferReport r).kept = s.kept := by simp [State.bufferReport]
@[simp] theorem State.isoOutDue_kept (s : State) (port addr ep : Nat) : (s.isoOutDue port addr ep).kept = s.kept := by
  unfold State.isoOutDue
  dsimp only
  split <;> simp

/-! ### WindowOps -/

@[simp] theorem State.latchTick_kept (s : State) (k : Nat) : (s.latchTick k).kept = s.kept := by simp [State.latchTick]
@[simp] theorem State.windowWords_kept (s : State) (c : Chan) (n k : Nat) : (s.windowWords c n k).2.kept = s.kept := by
  induction n generalizing k s with
  | zero => rfl
  | succ n ih => simp [State.windowWords, ih]

@[simp] theorem State.credClosed_kept (s : State) (c : Chan) (handle : Nat) :
    (s.credClosed c handle).kept = s.kept := by simp [State.credClosed]
@[simp] theorem State.discardHeld_kept (s : State) (via : Via) (rejected : Bool) :
    (s.discardHeld via rejected).kept = s.kept := by simp [State.discardHeld]
@[simp] theorem State.windowFrame_kept (s : State) (via : Via) (offset count : Nat) :
    (s.windowFrame via offset count).2.kept = s.kept := by simp [State.windowFrame]
@[simp] theorem State.sendHeld_kept (s : State) (port : Nat) : (s.sendHeld port).kept = s.kept := by
  unfold State.sendHeld
  repeat' split
  all_goals simp

@[simp] theorem State.contractFailed_kept (s : State) (kind which rc : Nat) (data : List Byte) :
    (s.contractFailed kind which rc data).kept = s.kept := by
  unfold State.contractFailed
  repeat' split
  all_goals simp

@[simp] theorem State.contractStands_kept (s : State) (kind which : Nat) : (s.contractStands kind which).kept = s.kept := by
  unfold State.contractStands
  repeat' split
  all_goals simp

@[simp] theorem State.dropForward_kept (s : State) (f : Fwd) : (s.dropForward f).kept = s.kept := by simp [State.dropForward]
@[simp] theorem State.forwardDone_kept (s : State) (f : Fwd) (b : List Byte) : (s.forwardDone f b).kept = s.kept := by
  unfold State.forwardDone
  split <;> simp

@[simp] theorem State.forwardLost_kept (s : State) (f : Fwd) : (s.forwardLost f).kept = s.kept := by
  unfold State.forwardLost
  split <;> simp

/-! ### Mailbox -/

@[simp] theorem State.miso_kept (s : State) (bs : List Byte) : (s.miso bs).kept = s.kept := State.kept_congr rfl rfl
@[simp] theorem State.bar0Submit_kept (s : State) : (s.bar0Submit).kept = s.kept := by simp [State.bar0Submit]
@[simp] theorem State.bar0Release_kept (s : State) : (s.bar0Release).kept = s.kept := by simp [State.bar0Release]
@[simp] theorem State.bar0Write_kept (s : State) (off value : Nat) :
    (s.bar0Write off value).kept = s.kept := State.kept_of_ite (State.kept_of_ite (State.bar0Submit_kept s) rfl)
    (State.kept_of_ite (State.kept_of_ite (State.bar0Release_kept s) rfl) (State.kept_of_ite (State.kept_congr rfl rfl) rfl))

@[simp] theorem State.bar0Word_kept (s : State) (k : Nat) : (s.bar0Word k).2.kept = s.kept := by
  unfold State.bar0Word
  split <;> simp

@[simp] theorem State.bar0Words_kept (n k : Nat) (s : State) : (State.bar0Words n k s).2.kept = s.kept := by
  induction n generalizing k s with
  | zero => rfl
  | succ n ih => simp [State.bar0Words, ih]

@[simp] theorem State.function7Reset_kept (s : State) : (s.function7Reset).kept = s.kept := by simp [State.function7Reset]
@[simp] theorem State.finishFuses_kept (s : State) (via : Via) (h : Nat) (ok : Bool) : (s.finishFuses via h ok).kept = s.kept := by
  unfold State.finishFuses
  split <;> simp

@[simp] theorem State.finishVerify_kept (s : State) (via : Via) (h : Nat) : (s.finishVerify via h).kept = s.kept := by
  unfold State.finishVerify
  split <;> simp

@[simp] theorem State.finishCommit_kept (s : State) (via : Via) (h : Nat) (ok : Bool) : (s.finishCommit via h ok).kept = s.kept := by
  unfold State.finishCommit
  split <;> simp

@[simp] theorem State.setTarget_kept (s : State) (t : Nat) : (s.setTarget t).kept = s.kept := State.kept_congr rfl rfl

/-! ### Memory -/

@[simp] theorem State.scrubNext_kept (s : State) : (s.scrubNext).kept = s.kept := by simp [State.scrubNext]

/-! ### Pcie -/

@[simp] theorem State.setRegs_kept (s : State) (fn : Nat) (f : PciEnd → PciEnd) : (s.setRegs fn f).kept = s.kept := by simp [State.setRegs]
@[simp] theorem State.sendPortCtrl_kept (s : State) (b : Nat) (lnkCtl brCtl : Nat) :
    (s.sendPortCtrl b lnkCtl brCtl).kept = s.kept := by simp [State.sendPortCtrl]
@[simp] theorem State.writeBridgeControl_kept (s : State) (fn v : Nat) :
    (s.writeBridgeControl fn v).kept = s.kept := by simp [State.writeBridgeControl]
@[simp] theorem State.endpointWrite_kept (s : State) (net : Bool) (reg : CfgReg) (v : Nat) :
    (s.endpointWrite net reg v).kept = s.kept := by simp [State.endpointWrite]
@[simp] theorem State.bridgeWrite_kept (s : State) (fn : Nat) (reg : CfgReg) (v : Nat) : (s.bridgeWrite fn reg v).kept = s.kept := by
  unfold State.bridgeWrite
  dsimp only
  split <;> simp

@[simp] theorem State.cfgWrite_kept (s : State) (fn : Nat) (reg : CfgReg) (v : Nat) :
    (s.cfgWrite fn reg v).kept = s.kept := by simp [State.cfgWrite]
@[simp] theorem State.turnAway_kept (s : State) (e : Nat) (w : PciHeld) : (s.turnAway e w).kept = s.kept := by simp [State.turnAway]
@[simp] theorem State.ingressFrom_kept (s : State) (e : Nat) (w : PciHeld) :
    (s.ingressFrom e w).kept = s.kept := by simp [State.ingressFrom]
@[simp] theorem State.ingressTo_kept (s : State) (e : Nat) (t : Tlp) : (s.ingressTo e t).kept = s.kept := by simp [State.ingressTo]
@[simp] theorem State.aerMessages_kept (s : State) (b : Nat) (sev unc cor : Word) :
    (s.aerMessages b sev unc cor).kept = s.kept := by simp [State.aerMessages]
@[simp] theorem State.logErrors_kept (s : State) (link : Nat) (unc cor : Word) :
    (s.logErrors link unc cor).kept = s.kept := by simp [State.logErrors]
@[simp] theorem State.malformed_kept (s : State) (link : Nat) : (s.malformed link).kept = s.kept := by simp [State.malformed]
@[simp] theorem State.pmeTurnOff_kept (s : State) (t : Tlp) : (s.pmeTurnOff t).kept = s.kept := by simp [State.pmeTurnOff]
@[simp] theorem State.bar0Access_kept (s : State) (t : Tlp) : (s.bar0Access t).kept = s.kept := by simp [State.bar0Access]
@[simp] theorem State.netBarAccess_kept (s : State) (t : Tlp) : (s.netBarAccess t).kept = s.kept := by simp [State.netBarAccess]
@[simp] theorem State.noTaker_kept (s : State) (t : Tlp) : (s.noTaker t).kept = s.kept := by simp [State.noTaker]
@[simp] theorem State.routeDown_kept (s : State) (t : Tlp) : (s.routeDown t).kept = s.kept := by
  unfold State.routeDown
  repeat' split
  all_goals simp

@[simp] theorem State.gatherAck_kept (s : State) (b : Nat) : (s.gatherAck b).kept = s.kept := by simp [State.gatherAck]
@[simp] theorem State.learnBridge_kept (s : State) (e bridge : Nat) : (s.learnBridge e bridge).kept = s.kept := by simp [State.learnBridge]
@[simp] theorem State.forwardTlp_kept (s : State) (e : Nat) (t : Tlp) : (s.forwardTlp e t).kept = s.kept := by
  unfold State.forwardTlp
  repeat' split
  all_goals simp

@[simp] theorem State.reviveEnd_kept (s : State) (e : Nat) : (s.reviveEnd e).kept = s.kept := by simp [State.reviveEnd]
@[simp] theorem State.upstreamLost_kept (s : State) : (s.upstreamLost).kept = s.kept := by simp [State.upstreamLost]

/-! ### Planner -/

@[simp] theorem State.sampleBytes_kept (s : State) (j c : Nat) (t : Tick) : (s.sampleBytes j c t).2.kept = s.kept := by
  unfold State.sampleBytes
  dsimp only
  repeat' split
  all_goals simp

/-! ### PstateOps -/

@[simp] theorem State.quiesceLink_kept (s : State) (p : Nat) : (s.quiesceLink p).kept = s.kept := by simp [State.quiesceLink]
@[simp] theorem State.quiescePanel_kept (s : State) (k : Nat) : (s.quiescePanel k).kept = s.kept := by simp [State.quiescePanel]
@[simp] theorem State.quiesceUsb_kept (s : State) : (s.quiesceUsb).kept = s.kept := by simp [State.quiesceUsb]
@[simp] theorem State.quiescePower_kept (s : State) : (s.quiescePower).kept = s.kept := by simp [State.quiescePower]
@[simp] theorem State.beginEntry_kept (s : State) (goal : Nat) (via : Via) (job : Option (Via × Nat)) :
    (s.beginEntry goal via job).kept = s.kept := by simp [State.beginEntry]
@[simp] theorem State.undoQuiesce_kept (s : State) : (s.undoQuiesce).kept = s.kept := by simp [State.undoQuiesce]
@[simp] theorem State.abortEntry_kept (s : State) (source : Nat) (timeout : Bool) : (s.abortEntry source timeout).kept = s.kept := by
  unfold State.abortEntry
  dsimp only
  split <;> simp

@[simp] theorem State.restBias_kept (s : State) : (s.restBias).kept = s.kept := by simp [State.restBias]
@[simp] theorem State.listLost_kept (s : State) (k : Nat) : (s.listLost k).kept = s.kept := by
  unfold State.listLost
  split <;> simp

@[simp] theorem State.endExit_kept (s : State) : (s.endExit).kept = s.kept := by
  unfold State.endExit
  dsimp only
  split <;> simp

/-! ### Resets -/

@[simp] theorem State.phyStepFails_kept (s : State) (p : Nat) : (s.phyStepFails p).kept = s.kept := by simp [State.phyStepFails]

/-! ### Service -/

@[simp] theorem State.woeri_kept (s : State) (inst result : Nat) (bs : List Byte) :
    (s.woeri inst result bs).kept = s.kept := State.kept_congr rfl rfl
@[simp] theorem State.call_kept (s : State) (inst : Nat) (f : InstSt → State → State) (h : ∀ x s, (f x s).kept = s.kept) :
    (s.call inst f).kept = s.kept := by
  unfold State.call
  split
  · split_ifs
    · exact h _ _
    · rfl
  · rfl

@[simp] theorem State.capCall_kept (s : State) (inst cap : Nat) (f : InstSt → State → State) (h : ∀ x s, (f x s).kept = s.kept) :
    (s.capCall inst cap f).kept = s.kept := State.call_kept _ _ _ fun x s => by rw [State.kept_ite, h, State.woeri_kept, ite_self]
@[simp] theorem State.waitFor_kept (s : State) (inst : Nat) (timer : Option Nat) (stir : Bool) (mask : BitVec 192) :
    (s.waitFor inst timer stir mask).kept = s.kept := State.kept_congr rfl rfl

/-! ### Switch -/

@[simp] theorem State.headDescriptor_kept (s : State) (v : Voq) : (s.headDescriptor v).2.kept = s.kept := by
  unfold State.headDescriptor
  split <;> simp

@[simp] theorem State.clearSwPort_kept (s : State) (p : Nat) : (s.clearSwPort p).kept = s.kept := State.kept_congr rfl rfl

/-! ### Time -/

@[simp] theorem State.thermWatch_kept (s : State) (readings : List Int) : (s.thermWatch readings).kept = s.kept := State.kept_congr rfl rfl
@[simp] theorem State.holdoverCloses_kept (s : State) (p : Nat) : (s.holdoverCloses p).kept = s.kept := by simp [State.holdoverCloses]

/-! ### Upd -/

@[simp] theorem State.activated_kept (s : State) (a : Activation) : (s.activated a).kept = s.kept := by simp [State.activated]
@[simp] theorem State.notActivated_kept (s : State) (a : Activation) (rc : Rc) :
    (s.notActivated a rc).kept = s.kept := by simp [State.notActivated]
@[simp] theorem State.mgtHandOver_kept (s : State) (a : Activation) : (s.mgtHandOver a).kept = s.kept := by simp [State.mgtHandOver]
@[simp] theorem State.drainOld_kept (s : State) (k : Nat) (cold : Bool) : (s.drainOld k cold).kept = s.kept := by
  unfold State.drainOld
  dsimp only
  rw [State.drainDone_kept, State.kept_foldl]
  · simp
  · intro s x
    split
    · split_ifs <;> simp
    · simp
    · simp

@[simp] theorem State.nextWoeriCore_kept (s : State) (a : Activation) : (s.nextWoeriCore a).kept = s.kept := by
  unfold State.nextWoeriCore
  dsimp only
  split <;> simp

@[simp] theorem State.handoverFails_kept (s : State) (a : Activation) : (s.handoverFails a).kept = s.kept := by simp [State.handoverFails]

end Sys2Proof.Machine

/-! The operations that write memory: each keeps the queue of commands and the canonical form of the memory (R494). -/
namespace Sys2Proof.Machine

/-- The queue of commands is the same, and a memory in canonical form is so still. -/
structure State.Keeps (s t : State) : Prop where
  pending : t.pending = s.pending
  mem : s.MemInv → t.MemInv

namespace State.Keeps

theorem of_kept {s t : State} (h : t.kept = s.kept) : s.Keeps t :=
  ⟨congrArg Prod.fst h, fun hm => (congrArg memWf (congrArg Prod.snd h)).trans hm⟩

theorem refl (s : State) : s.Keeps s := ⟨rfl, id⟩

theorem trans {s t u : State} (h : s.Keeps t) (h' : t.Keeps u) : s.Keeps u := ⟨h'.pending.trans h.pending, fun hm => h'.mem (h.mem hm)⟩

theorem then_kept {s t u : State} (h : s.Keeps t) (h' : u.kept = t.kept) : s.Keeps u := h.trans (of_kept h')

theorem ite {c : Prop} [Decidable c] {s t u : State} (ht : s.Keeps t) (hu : s.Keeps u) : s.Keeps (if c then t else u) := by
  split_ifs <;> assumption

/-- A fold whose every step keeps them keeps them. -/
theorem foldl {α β : Type} (φ : α → State) {f : α → β → α} (h : ∀ a b, (φ a).Keeps (φ (f a b))) (l : List β) (a : α) :
    (φ a).Keeps (φ (l.foldl f a)) := by
  induction l generalizing a with
  | nil => exact refl _
  | cons b l ih => exact (h a b).trans (ih _)

theorem foldl_state {β : Type} {f : State → β → State} (h : ∀ (a : State) (b : β), a.Keeps (f a b)) (l : List β) (a : State) :
    a.Keeps (l.foldl f a) := foldl (fun s => s) h l a

/-- New cells in canonical form. -/
theorem of_cells {s t : State} (hp : t.pending = s.pending) (hm : s.MemInv → memWf t.mem.cells = true) : s.Keeps t := ⟨hp, hm⟩

end State.Keeps

/-! ### Bytes written -/

theorem State.copyMem_keeps (s : State) (src dst len : Nat) : s.Keeps (s.copyMem src dst len) :=
  .of_cells rfl fun h => memWf_memWrites h _ _

theorem State.storeMem_keeps (s : State) (dst : Nat) (bs : List Byte) : s.Keeps (s.storeMem dst bs) :=
  .of_cells rfl fun h => memWf_memWrites h _ _

theorem State.putBytes_keeps (s : State) (a : Nat) (bs : List Byte) : s.Keeps (s.putBytes a bs) := by
  unfold State.putBytes
  refine .ite (.refl s) (State.Keeps.then_kept (t := { s with mem := { s.mem with cells := memWrites s.mem.cells a bs } }) ?_ ?_)
  · exact .of_cells rfl fun h => memWf_memWrites h _ _
  · exact State.kept_foldl (fun _ _ => State.wordWritten_kept _ _) _ _

theorem State.keepBytes_keeps (s : State) (x : StreamSt) (line off : Nat) (bs : List Byte) : s.Keeps (s.keepBytes x line off bs) := by
  unfold State.keepBytes
  split
  · exact .ite (.of_cells rfl fun h => memWf_memWrites h _ _) (.refl s)
  · exact .refl s

/-! ### Resets -/

/-- What a reset keeps of the memory: the cells of LICHEN, and above them those of the REPLAY region. -/
theorem memWf_reset {m : List Host.Cell} (h : memWf m = true) (q : Host.Cell → Bool) (hq : ∀ c, q c = true → lpddrBase ≤ c.1) :
    memWf (lichenCells m ++ m.filter q) = true := by
  have hl := (memWf_iff _).mp (memWf_filter h fun c => lichenBase ≤ c.1 && c.1 < lichenBase + 0x40000)
  have hr := (memWf_iff _).mp (memWf_filter h q)
  rw [memWf_iff, lichenCells]
  refine ⟨List.pairwise_append.mpr ⟨hl.1, hr.1, fun x hx y hy => ?_⟩, fun c hc => ?_⟩
  · have hx' := (List.mem_filter.mp hx).2
    have hx'' := of_decide_eq_true (Bool.and_eq_true _ _ ▸ hx').2
    have hy' := hq y (List.mem_filter.mp hy).2
    simp only [lichenBase, lpddrBase] at hx'' hy'
    omega
  · rcases List.mem_append.mp hc with hc | hc
    · exact hl.2 c hc
    · exact hr.2 c hc

theorem memWf_lichenCells {m : List Host.Cell} (h : memWf m = true) : memWf (lichenCells m) = true := memWf_filter h _

theorem State.domainsReset_keeps (s : State) : s.Keeps s.domainsReset := by
  unfold State.domainsReset
  extract_lets frozen midway t u
  have hu : u.kept = s.kept := by
    simp only [u, State.emit_kept, State.commitCut_kept, State.signalsLost_kept, t]
    refine State.kept_foldl (fun s k => ?_) _ _
    rw [State.kept_ite, State.emit_kept, ite_self]
  clear_value u
  refine (State.Keeps.of_kept hu).trans (.of_cells rfl fun h => ?_)
  show memWf (lichenCells u.mem.cells ++ if frozen then u.replayCells else []) = true
  split_ifs
  · refine memWf_reset h _ fun c hc => ?_
    simp only [Bool.and_eq_true, decide_eq_true_eq] at hc
    omega
  · rw [List.append_nil]
    exact memWf_lichenCells h

theorem State.systemReset_keeps (s : State) (cause : Nat) : s.Keeps (s.systemReset cause) := by
  refine s.domainsReset_keeps.then_kept ?_
  simp only [State.systemReset, State.fiddlehead_kept, State.kept_ite, State.logFault_kept, State.noteReset_kept, ite_self]

theorem State.askSystemReset_keeps (s : State) (cause : Nat) : s.Keeps (s.askSystemReset cause) :=
  .ite (.of_kept (State.kept_congr rfl rfl)) (s.systemReset_keeps cause)

theorem State.powerOn_keeps (s : State) (mbxSel : Bool) (i3cAddr : Nat) : s.Keeps (s.powerOn mbxSel i3cAddr) := by
  have h : (s.commitCut.emit .xspiReset).kept = s.kept := by simp
  exact (State.Keeps.of_kept h).trans (.of_cells rfl fun _ => rfl)

theorem State.powerLost_keeps (s : State) : s.Keeps s.powerLost :=
  (s.powerOn_keeps s.pins.mbxSel s.pins.i3cAddr).then_kept (State.kept_congr rfl rfl)

theorem State.railsCheck_keeps (s : State) : s.Keeps s.railsCheck := .ite s.powerLost_keeps (.refl s)

theorem State.mgtFault_keeps (s : State) (code : Nat) : s.Keeps (s.mgtFault code) := by
  unfold State.mgtFault
  refine .ite (State.Keeps.trans ?_ (State.systemReset_keeps _ 8)) (.of_kept (by simp))
  exact .of_kept (by simp)

theorem State.thermalTrip_keeps (s : State) : s.Keeps s.thermalTrip := by
  unfold State.thermalTrip
  extract_lets t u v
  have ht : s.Keeps t := .of_kept (State.logFault_kept _ _ _ _)
  have hu : t.Keeps u := t.domainsReset_keeps.then_kept (State.noteReset_kept _ _ _)
  have hv : v.kept = u.kept := State.kept_foldl (fun _ _ => State.emit_kept _ _) _ _
  refine ((ht.trans hu).then_kept hv).then_kept ?_
  clear_value v
  exact State.kept_congr rfl rfl

/-! ### Accesses -/

theorem State.readWord_keeps (s : State) (w ecc : Nat) : s.Keeps (s.readWord w ecc) := by
  unfold State.readWord
  refine (State.Keeps.of_kept (State.spoil_kept s w ecc)).trans ?_
  generalize s.spoil w ecc = u
  dsimp only
  split
  · exact .refl u
  · exact .of_kept (by simp)
  · split
    · exact .of_kept (by simp)
    · exact (State.Keeps.of_kept (State.sramLost_kept u w)).trans (State.mgtFault_keeps _ _)
    · exact .of_kept (by simp)
    · exact .of_kept (by simp)
    · exact .refl u
    · exact .refl u
    · exact .of_kept (by simp)

theorem State.fetchBytes_keeps (s : State) (a n ecc : Nat) : s.Keeps (s.fetchBytes a n ecc).2 := by
  unfold State.fetchBytes
  exact .foldl_state (fun u _ => u.readWord_keeps _ _) _ s

theorem State.cleanLines_keeps (s : State) (m : Nat) (p : Nat → Bool) (inval : Bool) : s.Keeps (s.cleanLines m p inval) :=
  (State.Keeps.foldl_state (fun u _ => u.putBytes_keeps _ _) _ s).then_kept (State.setCache_kept _ _ _)

theorem State.snoop_keeps (s : State) (m line : Nat) (write : Bool) : s.Keeps (s.snoop m line write) :=
  .ite (.foldl_state (fun u _ => .ite (.refl u) (u.cleanLines_keeps _ _ _)) _ s) (.refl s)

theorem State.fillLine_keeps (s : State) (m a ecc : Nat) (debug : Bool) : s.Keeps (s.fillLine m a ecc debug) := by
  unfold State.fillLine
  refine .ite (.refl s) ?_
  have h := s.fetchBytes_keeps (64 * (a / 64)) 64 ecc
  generalize s.fetchBytes (64 * (a / 64)) 64 ecc = p at h
  obtain ⟨bs, u⟩ := p
  refine h.trans (State.Keeps.then_kept ?_ (State.setCache_kept _ _ _))
  dsimp only
  split
  · exact u.cleanLines_keeps _ _ _
  · exact .refl u

theorem State.performWrite_keeps (s : State) (m a : Nat) (bs : List Byte) : s.Keeps (s.performWrite m a bs) :=
  ((s.snoop_keeps m (a / 64) true).trans (State.putBytes_keeps _ a bs)).then_kept (State.setCache_kept _ _ _)

theorem State.drainStore_keeps (s : State) (m : Nat) : s.Keeps (s.drainStore m) := by
  unfold State.drainStore
  extract_lets u
  split
  · exact .refl s
  · extract_lets t v hole w
    have ht : s.Keeps t := .of_kept (State.setAcu_kept _ _ _)
    have hw : t.Keeps w := .of_kept (State.deny_kept ..)
    clear_value t w
    refine ht.trans (.ite (t.performWrite_keeps _ _ _) (hw.trans (.ite ?_ (.refl w))))
    exact (State.Keeps.of_kept (State.setAcu_kept _ _ _)).trans (State.mgtFault_keeps _ 5)

theorem State.drainStores_keeps (s : State) (m n : Nat) : s.Keeps (s.drainStores m n) := by
  induction n generalizing s with
  | zero => exact .refl s
  | succ n ih => exact (s.drainStore_keeps m).trans (ih _)

theorem State.drainAll_keeps (s : State) (m : Nat) : s.Keeps (s.drainAll m) := s.drainStores_keeps m _

theorem State.bufferStore_keeps (s : State) (m a : Nat) (bs : List Byte) : s.Keeps (s.bufferStore m a bs) :=
  (State.Keeps.ite (s.drainStore_keeps m) (.refl s)).then_kept (State.setAcu_kept _ _ _)

theorem State.denyNow_keeps (s : State) (m k a len region : Nat) (debug : Bool) : s.Keeps (s.denyNow m k a len region debug) :=
  .of_kept (by simp)

theorem State.writeNow_keeps (s : State) (m a : Nat) (bs : List Byte) (debug : Bool) : s.Keeps (s.writeNow m a bs debug) :=
  .ite (s.denyNow_keeps ..) (.ite (s.performWrite_keeps m a bs) (s.denyNow_keeps ..))

theorem State.storeCached_keeps (s : State) (m a : Nat) (bs : List Byte) (ecc : Nat) : s.Keeps (s.storeCached m a bs ecc) := by
  unfold State.storeCached
  refine .ite (s.denyNow_keeps ..) (((s.snoop_keeps m (a / 64) true).trans (State.fillLine_keeps _ m a ecc false)).trans ?_)
  dsimp only
  generalize (s.snoop m (a / 64) true).fillLine m a ecc false = u
  split
  · exact .ite (.of_kept (State.setCache_kept _ _ _)) (u.denyNow_keeps ..)
  · exact .refl u

theorem State.readNow_keeps (s : State) (m k a len ecc : Nat) (debug : Bool) : s.Keeps (s.readNow m k a len ecc debug) := by
  unfold State.readNow
  refine .ite (s.denyNow_keeps ..) (.ite ((s.snoop_keeps m (a / 64) false).trans (.ite ?_ ?_)) (s.denyNow_keeps ..))
  · generalize s.snoop m (a / 64) false = u
    refine (u.fillLine_keeps m a ecc debug).trans ?_
    dsimp only
    generalize u.fillLine m a ecc debug = w
    split
    · exact .of_kept (State.emit_kept _ _)
    · exact .refl w
  · exact (State.fetchBytes_keeps _ a len ecc).then_kept (State.emit_kept _ _)

theorem State.access_keeps (s : State) (m k a len : Nat) (bs : List Byte) (debug : Bool) (ecc : Nat) :
    s.Keeps (s.access m k a len bs debug ecc) :=
  .ite (.ite (s.storeCached_keeps ..) (.ite (s.bufferStore_keeps ..) (s.writeNow_keeps ..)))
    ((State.Keeps.ite (s.drainAll_keeps m) (.refl s)).trans (State.readNow_keeps ..))

theorem State.showLine_keeps (s : State) (x : StreamSt) (d : FrameDesc) (line : Nat) (mine : List Chunk) :
    s.Keeps (s.showLine x d line mine) := by
  unfold State.showLine
  extract_lets n miss held sent u count
  have hu : s.Keeps u := .foldl_state (fun w c => w.keepBytes_keeps _ _ _ _) _ s
  have hc : ∀ w, (count w).kept = w.kept := fun w => State.setStream_kept _ _ _
  clear_value u count
  refine hu.trans (.of_kept ?_)
  have hs : ∀ f, ((count u).setStream x.id f).kept = u.kept := fun f => (State.setStream_kept _ _ _).trans (hc u)
  refine State.kept_of_ite (by simp [hc]) (State.kept_of_ite (State.emit_kept _ _ |>.trans (State.kept_of_ite rfl (hc u)))
    (State.kept_of_ite (State.emit_kept _ _) ?_))
  exact (State.emit_kept _ _).trans ((State.concealEvent_kept _ _).trans (hs _))

/-! ### The window, and power states -/

theorem State.windowWrite_keeps (s : State) (via : Via) (off value : Nat) : s.Keeps (s.windowWrite via off value) := by
  unfold State.windowWrite
  exact .ite (.refl s) (.ite (s.askSystemReset_keeps _) (.ite (.of_kept (State.mgtCoreReset_kept _ _)) (.refl s)))

theorem State.takeFrame_keeps (s : State) (via : Via) (b : List Byte) : s.Keeps (s.takeFrame via b) := by
  unfold State.takeFrame
  split
  · exact .of_kept (by simp)
  · exact .refl s
  · exact .refl s
  · exact .ite (s.windowWrite_keeps ..) (.of_kept (State.raise_kept _ _ _))
  · exact .of_kept (by simp)

theorem State.flushCores_keeps (s : State) : s.Keeps s.flushCores :=
  .foldl_state (fun u m => (u.drainAll_keeps m).trans (State.cleanLines_keeps ..)) _ s

theorem State.save_keeps (s : State) : s.Keeps s.save := by
  unfold State.save
  extract_lets u
  have hu : s.Keeps u := s.flushCores_keeps.then_kept (State.retryWaiting_kept _)
  clear_value u
  exact hu.then_kept (State.kept_congr rfl rfl)

theorem State.retainLoss_keeps (s : State) : s.Keeps s.retainLoss := .of_cells rfl fun h => memWf_filter h _

theorem State.hibernateLoss_keeps (s : State) : s.Keeps s.hibernateLoss := by
  unfold State.hibernateLoss
  extract_lets t
  have ht : s.Keeps t := s.domainsReset_keeps
  clear_value t
  exact .of_cells ht.pending memWf_lichenCells

theorem State.powerDown_keeps (s : State) : s.Keeps s.powerDown := by
  unfold State.powerDown
  extract_lets goal old u pw v w x y
  have hu : u.kept = s.kept := State.raise_kept _ _ _
  clear_value u
  have hv : v.kept = u.kept := State.kept_congr rfl rfl
  have hw : w.kept = v.kept := State.kept_foldl (fun t d => State.kept_of_ite rfl (State.emit_kept _ _)) _ _
  have hx : x.kept = s.kept := (State.restBias_kept w).trans (hw.trans (hv.trans hu))
  have hy : x.Keeps y := .ite x.retainLoss_keeps ((State.Keeps.of_kept (State.emit_kept _ _)).trans (State.hibernateLoss_keeps _))
  refine ((State.Keeps.of_kept hx).trans hy).then_kept ?_
  clear_value y
  exact State.kept_congr rfl rfl

theorem State.beginExit_keeps (s : State) (source counted : Nat) (latched : Bool) (bad : List Nat) :
    s.Keeps (s.beginExit source counted latched bad) := by
  unfold State.beginExit
  extract_lets cycles retain lost pwr u slips time pins pwr v w x y failed mem
  have hlost : s.Keeps lost := s.hibernateLoss_keeps
  clear_value lost
  have hu : s.Keeps u := .ite (hlost.then_kept (State.kept_congr rfl rfl)) (.refl s)
  clear_value u
  have hv : v.kept = u.kept := State.kept_congr rfl rfl
  have hw : w.kept = v.kept := State.kept_foldl (fun _ _ => State.raise_kept _ _ _) _ _
  have hy : y.kept = w.kept :=
    (State.kept_foldl (fun t d => State.kept_of_ite rfl (State.emit_kept _ _)) _ _).trans (State.emit_kept _ _)
  clear_value y
  refine (((hu.then_kept hv).then_kept hw).then_kept hy).then_kept (State.kept_of_ite ?_ (State.kept_congr rfl rfl))
  exact State.kept_foldl (fun _ _ => State.listLost_kept _ _) _ _

theorem State.swapRegion_keeps (s : State) (m j : Nat) (r : Region) : s.Keeps (s.swapRegion m j r) :=
  ((State.Keeps.of_kept (State.setAcu_kept _ _ _)).trans (.foldl_state (fun u _ => u.cleanLines_keeps _ _ _) _ _)).then_kept
    (State.setAcu_kept _ _ _)

end Sys2Proof.Machine

/-! How a command completes: its effect, which keeps the queue and the canonical form of the memory, takes place only while the hub has power. -/
namespace Sys2Proof.Machine

/-- A command whose effect takes place while the hub has power, and keeps the queue and the canonical form of the memory. -/
def Completes (o : Out) (s : State) : Prop :=
  ∃ (live : Bool) (f : State → State), o = runIf live s f ∧ (live = true → s.powered = true) ∧ ∀ t : State, t.Keeps (f t)

variable {s : State} {f : State → State}

theorem runIf_completes {live : Bool} (hl : live = true → s.powered = true) (h : ∀ t : State, t.Keeps (f t)) : Completes (runIf live s f) s :=
  ⟨live, f, rfl, hl, h⟩

theorem run_completes (h : ∀ t : State, t.Keeps (f t)) : Completes (run s f) s := runIf_completes State.powered_of_awake h

theorem runAon_completes (h : ∀ t : State, t.Keeps (f t)) : Completes (runAon s f) s := runIf_completes id h

theorem runPwr_completes (h : ∀ t : State, t.Keeps (f t)) : Completes (runPwr s f) s :=
  runIf_completes (fun hl => (Bool.and_eq_true_iff.mp hl).1) h

theorem runNet_completes (h : ∀ t : State, t.Keeps (f t)) : Completes (runNet s f) s := by
  refine runIf_completes (fun hl => ?_) h
  rcases (Bool.or_eq_true _ _).mp hl with hl | hl
  · exact State.powered_of_awake hl
  · simp only [Bool.and_eq_true] at hl
    exact hl.1.1

theorem slotRun_completes {slot : Nat} (h : ∀ t : State, t.Keeps (f t)) : Completes (slotRun s slot f) s :=
  run_completes fun t => (State.Keeps.of_kept (State.toSlot_kept t slot)).trans (h _)

/-- What completes leaves a state, with the queue and the canonical form as they were. -/
theorem Completes.keeps {o : Out} (h : Completes o s) : ∃ t, o = .next t ∧ s.Keeps t := by
  obtain ⟨live, f, rfl, -, hf⟩ := h
  refine ⟨_, rfl, ?_⟩
  split
  · exact (State.Keeps.of_kept s.begin_kept).trans (hf _)
  · exact .of_kept s.begin_kept

/-- What completes has no effect while the hub has no power. -/
theorem Completes.idles {o : Out} (h : Completes o s) (hp : s.powered = false) : o = .next s.begin := by
  obtain ⟨live, f, rfl, hl, -⟩ := h
  cases live
  · rfl
  · exact absurd (hl rfl) (by simp [hp])

/-! ### The answers of commands -/

/-- Whatever becomes of an answer, the queue and the canonical form of the memory are kept. -/
structure Ans.Keeps (s : State) (a : Ans) : Prop where
  st : s.Keeps a.st
  failSt : s.Keeps (a.failSt.getD s)
  validSt : s.Keeps (a.validSt.getD s)

/-- The queue and the memory of the states that an answer may leave. -/
def Ans.kept (s : State) (a : Ans) := (a.st.kept, (a.failSt.getD s).kept, (a.validSt.getD s).kept)

/-- The answer leaves the queue and the memory alone. -/
def Ans.Still (s : State) (a : Ans) : Prop := a.kept s = (s.kept, s.kept, s.kept)

theorem Ans.Still.keeps {a : Ans} (h : a.Still s) : a.Keeps s :=
  ⟨.of_kept (congrArg Prod.fst h), .of_kept (congrArg (·.2.1) h), .of_kept (congrArg (·.2.2) h)⟩

@[simp] theorem Ans.still_ite (c : Prop) [Decidable c] (a b : Ans) : (if c then a else b).Still s ↔ if c then a.Still s else b.Still s := by
  split_ifs <;> rfl

theorem Ans.Still.ite {c : Prop} [Decidable c] {a b : Ans} (ha : a.Still s) (hb : b.Still s) : (if c then a else b).Still s := by
  split_ifs <;> assumption

@[simp] theorem Ans.still_mk (t : State) (rc : Rc) (data : List Byte) (plan : Option (Nat × List Byte)) (ft vt : Option State) (nj : Bool) :
    Ans.Still s ⟨t, rc, data, plan, ft, nj, vt⟩ ↔ t.kept = s.kept ∧ (ft.getD s).kept = s.kept ∧ (vt.getD s).kept = s.kept := by
  simp [Ans.Still, Ans.kept]

@[simp] theorem Ans.still_fail (t : State) (rc : Rc) : Ans.Still s (.fail t rc) ↔ t.kept = s.kept := by simp [Ans.fail]
@[simp] theorem Ans.still_show (t : State) (data : List Byte) : Ans.Still s (.show t data) ↔ t.kept = s.kept := by simp [Ans.show]
@[simp] theorem Ans.still_done (t : State) : Ans.Still s (.done t) ↔ t.kept = s.kept := by simp [Ans.done]
@[simp] theorem Ans.still_long (t : State) (plan : Option (Nat × List Byte)) : Ans.Still s (.long t plan) ↔ t.kept = s.kept := by
  simp [Ans.long]

theorem Ans.Still.fail (s : State) (rc : Rc) : (Ans.fail s rc).Still s := (Ans.still_fail s rc).mpr rfl

@[simp] theorem State.turnedAway_still (s : State) (row : CmdRow) (rq : Req) (rc : Rc) : (s.turnedAway row rq rc).Still s := by
  simp [State.turnedAway]

/-! ### A request performed -/

section
variable {row : CmdRow} {min : Nat} {rq : Req} {body : Nat → State → Ans} (hb : ∀ k t, Ans.Keeps t (body k t))
include hb

theorem State.answer_keeps (s : State) (held h : Nat) : (s.answer row min rq held h body).Keeps s := by
  have away := fun rc => (s.turnedAway_still row rq rc).keeps
  obtain ⟨hst, hfail, hvalid⟩ := hb h s
  unfold State.answer
  split
  · exact away _
  · dsimp only
    split_ifs
    · exact away _
    · exact away _
    · exact away _
    · exact ⟨hfail, hfail, hvalid⟩
    · exact away _
    · exact ⟨hst, hfail, hvalid⟩

omit hb in
theorem State.settle_keeps {s : State} {a : Ans} (ha : a.Keeps s) (row : CmdRow) (rq : Req) (h : Nat) : s.Keeps (s.settle row rq h a) :=
  .ite ha.validSt (.ite (ha.st.then_kept (State.addJob_kept ..)) ha.st)

omit hb in
theorem State.settleLate_keeps {s : State} {a : Ans} (ha : a.Keeps s) (rq : Req) (h : Nat) : s.Keeps (s.settleLate rq h a) :=
  .ite (ha.validSt.then_kept (State.finishRc_kept ..)) (.ite (ha.st.then_kept (State.modChan_kept ..)) (ha.st.then_kept (State.finishRc_kept ..)))

theorem State.perform_keeps (s : State) (late : Option Nat) : s.Keeps (s.perform row min rq late body) := by
  unfold State.perform
  refine .ite (.of_kept (State.respond_kept ..)) (.ite (.of_kept (State.respond_kept ..)) (.ite (.of_kept (State.respond_kept ..))
    (.ite (.of_kept (State.pass_kept ..)) ?_)))
  split
  · exact State.settleLate_keeps (s.answer_keeps hb _ _) _ _
  · exact (State.settle_keeps (s.answer_keeps hb _ _) _ _ _).then_kept (State.fwReply_kept ..)

theorem State.start_keeps (s : State) : s.Keeps (s.start row min rq body) :=
  .ite (.of_kept (State.hwReply_kept ..)) (.ite (.of_kept (State.enqueue_kept ..)) (s.perform_keeps hb none))

theorem State.arriveRq_keeps (s : State) : s.Keeps (s.arriveRq row min rq body) := by
  unfold State.arriveRq
  extract_lets t c
  refine (State.Keeps.of_kept (t := t) (by simp [t])).trans ?_
  split
  · exact .ite (.of_kept (by simp)) (t.start_keeps hb)
  · exact t.start_keeps hb

theorem command_completes : Completes (command row min rq s body) s := by
  refine run_completes fun t => ?_
  split
  · exact t.arriveRq_keeps hb
  · refine .ite (.ite (.refl t) ?_) (.ite (.refl t) (t.arriveRq_keeps hb))
    refine State.Keeps.trans (.of_kept ?_) (State.perform_keeps hb _ _)
    exact State.kept_congr rfl rfl

end

/-- A command whose answers leave the queue and the memory alone. -/
theorem command_still {row : CmdRow} {min : Nat} {rq : Req} {body : Nat → State → Ans} (hb : ∀ k t, Ans.Still t (body k t)) :
    Completes (command row min rq s body) s :=
  command_completes fun k t => (hb k t).keeps

end Sys2Proof.Machine

/-! ### The commands that write memory, or whose effect turns on an answer that may be missing -/
namespace Sys2Proof.Machine

theorem State.onStream_keeps (s : State) (id : Nat) {f : State → StreamSt → State} (h : ∀ (s : State) x, s.Keeps (f s x)) : s.Keeps (s.onStream id f) := by
  unfold State.onStream
  split
  · exact h _ _
  · exact .refl s

theorem execLineDue_completes (stream line : Nat) (err need : Int) (audio : Nat) (s : State) :
    Completes (execLineDue stream line err need audio s) s := by
  refine run_completes fun t => ?_
  split
  · exact .refl t
  · refine .ite (.refl t) ?_
    split
    · exact .of_kept (State.emit_kept _ _)
    · refine .ite (.refl t) (State.Keeps.trans (.of_kept ?_) (State.onStream_keeps _ _ fun u x => u.showLine_keeps ..))
      rw [State.kept_ite, State.servo_kept, ite_self]
      simp

theorem execFeedAbsent_completes (feed mv heldUs : Nat) (reverse : Bool) (s : State) :
    Completes (execFeedAbsent feed mv heldUs reverse s) s :=
  runAon_completes fun t => .ite (.refl t) (State.Keeps.trans (.of_kept (by simp)) (State.railsCheck_keeps _))

theorem execSpiWriteRequestFrame_completes (mosi : List Byte) (s : State) : Completes (execSpiWriteRequestFrame mosi s) s :=
  runAon_completes fun t => .ite (.refl t) (State.Keeps.trans (.of_kept (State.miso_kept _ _)) (State.takeFrame_keeps ..))

theorem execResetCtlSystemReset_completes (via : Via) (s : State) : Completes (execResetCtlSystemReset via s) s :=
  runAon_completes fun t => .ite (.refl t) (t.windowWrite_keeps ..)

theorem execResetCtlMgmtCoreReset_completes (via : Via) (s : State) : Completes (execResetCtlMgmtCoreReset via s) s :=
  runAon_completes fun t => .ite (.refl t) (t.windowWrite_keeps ..)

theorem execI3cPrivateWrite_completes (bs : List Byte) (s : State) : Completes (execI3cPrivateWrite bs s) s := by
  refine runAon_completes fun t => .ite (.refl t) ?_
  extract_lets sel mbx u
  have hu : t.Keeps u := .of_kept (State.kept_congr rfl rfl)
  exact hu.trans (u.takeFrame_keeps _ _)

theorem execUsbVendorWindowWrite_completes (index value : Nat) (s : State) : Completes (execUsbVendorWindowWrite index value s) s :=
  run_completes fun t => .ite (t.windowWrite_keeps ..) (.refl t)

theorem execJtagDbgMbx_completes (frame : List Byte) (s : State) : Completes (execJtagDbgMbx frame s) s := by
  refine runAon_completes fun t => ?_
  extract_lets pins u
  have hu : t.Keeps u := .of_kept (State.kept_congr rfl rfl)
  clear_value u
  exact hu.trans (.ite (.refl u) (.ite (.of_kept (State.emit_kept _ _)) (.ite (.of_kept (by simp)) (u.takeFrame_keeps _ _))))

theorem execMemoryAccess_completes (master kind addr len : Nat) (data : List Byte) (debug : Bool) (waits ecc drains : Nat) (collides user : Bool)
    (s : State) : Completes (execMemoryAccess master kind addr len data debug waits ecc drains collides user s) s := by
  refine runAon_completes fun t => ?_
  extract_lets formed absent u dbg w
  refine .ite (.refl t) ?_
  have hu : t.Keeps u := .ite (t.drainStores_keeps _ _) (.refl t)
  refine hu.trans (.ite (.refl u) ?_)
  split
  · exact .of_kept (by simp)
  · have hw : u.Keeps w := .of_kept (State.waited_kept _ _ _ _)
    exact hw.trans (.ite (.of_kept (State.collided_kept _)) (w.access_keeps ..))

theorem execFence_completes (master : Nat) (s : State) : Completes (execFence master s) s :=
  runAon_completes fun t => .ite ((t.drainAll_keeps master).then_kept (State.emit_kept _ _)) (.refl t)

theorem execLpddrPatrolScrub_completes (addr ecc : Nat) (s : State) : Completes (execLpddrPatrolScrub addr ecc s) s :=
  run_completes fun t => .ite (State.Keeps.trans (.of_kept (State.scrubNext_kept t)) (State.readWord_keeps ..)) (.refl t)

theorem execPlannerHoldExpiry_completes (s : State) : Completes (execPlannerHoldExpiry s) s := by
  refine run_completes fun t => .ite (.refl t) ?_
  extract_lets plan u
  have hu : t.Keeps u := .of_kept ((State.raise_kept _ _ _).trans (State.kept_congr rfl rfl))
  clear_value u
  exact hu.trans (.ite (u.mgtFault_keeps 7) (.of_kept (State.kept_congr rfl rfl)))

theorem execPhaseSStart_completes (s : State) : Completes (execPhaseSStart s) s :=
  runAon_completes fun t => .ite t.save_keeps (.refl t)

theorem execPhasePStart_completes (s : State) : Completes (execPhasePStart s) s :=
  runAon_completes fun t => .ite t.powerDown_keeps (.refl t)

theorem execWakeSource_completes (source cycles : Nat) (latched : Bool) (bad : List Nat) (s : State) :
    Completes (execWakeSource source cycles latched bad s) s := by
  refine runAon_completes fun t => .ite (.refl t) ?_
  split
  · exact .of_kept (State.abortEntry_kept ..)
  · exact .of_kept (State.abortEntry_kept ..)
  · exact t.beginExit_keeps ..
  · exact .of_kept (State.kept_congr rfl rfl)
  · exact .refl t

theorem execSystemReset_completes (s : State) : Completes (execSystemReset s) s := runAon_completes fun t => t.askSystemReset_keeps _

theorem execManagementCoreReset_completes (cause : Nat) (s : State) : Completes (execManagementCoreReset cause s) s :=
  runAon_completes fun t => .ite (t.mgtFault_keeps cause) (.of_kept (State.mgtCoreReset_kept _ _))

theorem execDeferredReset_completes (s : State) : Completes (execDeferredReset s) s := by
  refine run_completes fun t => ?_
  split
  · exact .refl t
  · refine .ite (.refl t) ?_
    extract_lets fault u
    have hu : t.Keeps u := .of_kept (State.kept_congr rfl rfl)
    clear_value u
    exact hu.trans (.ite (u.askSystemReset_keeps _) (.of_kept (State.mgtCoreReset_kept _ _)))

theorem execLockstepFault_completes (s : State) : Completes (execLockstepFault s) s :=
  run_completes fun t => .ite (.refl t) (t.mgtFault_keeps 1)

theorem execMgtWatchdogTimeout_completes (s : State) : Completes (execMgtWatchdogTimeout s) s :=
  run_completes fun t => .ite (t.mgtFault_keeps 2) (.refl t)

theorem execMgtTrap_completes (s : State) : Completes (execMgtTrap s) s :=
  run_completes fun t => .ite (t.mgtFault_keeps 6) (.refl t)

theorem execCoreBrownout_completes (s : State) : Completes (execCoreBrownout s) s :=
  run_completes fun t => (State.Keeps.of_kept (State.logFault_kept t _ _ _)).trans (State.systemReset_keeps _ _)

theorem execThermalTrip_completes (s : State) : Completes (execThermalTrip s) s :=
  runAon_completes fun t => .ite (.refl t) t.thermalTrip_keeps

theorem execThermalRecovery_completes (s : State) : Completes (execThermalRecovery s) s := by
  refine runAon_completes fun t => .ite (.refl t) (State.Keeps.trans (.of_kept ?_) (State.systemReset_keeps _ _))
  exact State.kept_congr rfl rfl

theorem execClusterDmaComplete_completes (inst : Nat) (s : State) : Completes (execClusterDmaComplete inst s) s := by
  refine run_completes fun t => ?_
  split
  · exact .refl t
  · split
    · exact (State.Keeps.of_kept (State.setInst_kept ..)).trans (State.copyMem_keeps ..)
    · split
      · refine .ite ?_ (.refl t)
        extract_lets src u
        have hu : t.Keeps u := .of_kept (State.moveDone_kept _ _)
        refine hu.trans ?_
        split
        · exact u.copyMem_keeps ..
        · exact .refl u
      · exact .refl t

theorem execDisplayHoldOverlayOn_completes (dpx : Nat) (on : Bool) (src x y w h : Nat) (repl : Option (Nat × Nat × Nat × List Byte)) (s : State) :
    Completes (execDisplayHoldOverlayOn dpx on src x y w h repl s) s := by
  refine run_completes fun t => .ite (.refl t) (.ite (.of_kept (State.setDpx_kept ..)) ?_)
  extract_lets held dsc u
  have hu : t.Keeps u := by
    dsimp only [u]
    split
    · exact .refl t
    · refine .foldl_state (fun a x => ?_) _ _
      split
      · exact .ite ((a.storeMem_keeps ..).then_kept (State.setStream_kept ..)) (.refl a)
      · exact .refl a
  exact hu.trans (.ite (.refl u) ((u.copyMem_keeps ..).then_kept (State.setDpx_kept ..)))

theorem execDhStatusRedraw_completes (dpx : Nat) (pixels : List Byte) (s : State) : Completes (execDhStatusRedraw dpx pixels s) s := by
  refine run_completes fun t => ?_
  split
  extract_lets early rows svc u
  refine .ite (.refl t) ?_
  have hu : t.Keeps u := .of_kept (State.kept_congr rfl rfl)
  exact hu.trans (u.storeMem_keeps ..)

theorem Ans.fail_keeps (s : State) (rc : Rc) : (Ans.fail s rc).Keeps s := (Ans.Still.fail s rc).keeps

theorem execSvcDataPut_completes (rq : Req) (s : State) : Completes (execSvcDataPut rq s) s := by
  refine command_completes fun _ t => ?_
  have fail := Ans.fail_keeps t
  dsimp only
  split_ifs
  · exact fail _
  · split
    · exact fail _
    · split_ifs
      · exact fail _
      · exact fail _
      · exact ⟨(t.storeMem_keeps ..).then_kept (State.setInst_kept ..), .refl t, .refl t⟩

theorem execTrustAcuSet_completes (rq : Req) (s : State) : Completes (execTrustAcuSet rq s) s := by
  refine command_completes fun _ t => ?_
  have fail := Ans.fail_keeps t
  dsimp only
  split_ifs
  · exact fail _
  · exact fail _
  · exact ⟨(t.swapRegion_keeps ..).then_kept (State.raise_kept ..), .refl t, .refl t⟩

/-! #### Debug accesses -/

theorem DebugRun.step_keeps (r : DebugRun) (a n : Nat) (bs : Option (List Byte)) : r.st.Keeps (r.step a n bs).st := by
  unfold DebugRun.step
  extract_lets s k v hole u
  split
  · have hu : s.Keeps u := .of_kept (State.deny_kept ..)
    exact hu.trans (.of_kept (State.kept_congr rfl rfl))
  · split
    · exact s.performWrite_keeps ..
    · exact s.fetchBytes_keeps ..

theorem State.debugRange_keeps (s : State) (a n : Nat) (bs : Option (List Byte)) : s.Keeps (s.debugRange a n bs).st := by
  unfold State.debugRange
  exact State.Keeps.foldl (φ := DebugRun.st) (fun r _ => r.step_keeps ..) _ ⟨s, 0, 0, 0, []⟩

theorem DebugRun.answer_keeps {s : State} {r : DebugRun} (h : s.Keeps r.st) : r.answer.Keeps s := by
  unfold DebugRun.answer
  split
  · exact ⟨h, h, .refl s⟩
  · exact ⟨h, .refl s, .refl s⟩

theorem execDbgMemRead_completes (rq : Req) (s : State) : Completes (execDbgMemRead rq s) s := by
  refine command_completes fun _ t => ?_
  have fail := Ans.fail_keeps t
  dsimp only
  split_ifs
  · exact fail _
  · exact fail _
  · exact DebugRun.answer_keeps (t.debugRange_keeps ..)

theorem execDbgMemWrite_completes (rq : Req) (s : State) : Completes (execDbgMemWrite rq s) s := by
  refine command_completes fun _ t => ?_
  have fail := Ans.fail_keeps t
  dsimp only
  split_ifs
  · exact fail _
  · exact fail _
  · exact DebugRun.answer_keeps (t.debugRange_keeps ..)

theorem execJtagDbgAp_completes (op addr len : Nat) (data : List Byte) (core : Nat) (s : State) :
    Completes (execJtagDbgAp op addr len data core s) s := by
  refine runAon_completes fun t => ?_
  extract_lets u formed
  have hu : t.Keeps u := .of_kept (State.jtag_kept ..)
  refine hu.trans ?_
  split
  · exact .ite ((u.debugRange_keeps ..).then_kept (State.emit_kept _ _)) (.refl u)
  · exact .ite (u.debugRange_keeps ..) (.refl u)
  · exact .of_kept (State.haltCore_kept ..)
  · exact .of_kept (State.haltCore_kept ..)
  · exact .refl u

/-! #### Effects that turn on an answer -/

theorem State.keyAnswer_kept {s t : State} {p : Nat} {init : List Byte} (h : s.keyAnswer p init = some t) : t.kept = s.kept := by
  unfold State.keyAnswer at h
  extract_lets u at h
  simp only [Option.map_eq_some_iff] at h
  obtain ⟨z, -, rfl⟩ := h
  simp [u]

theorem State.keyTake_kept {s t : State} {p : Nat} {resp : List Byte} (h : s.keyTake p resp = some t) : t.kept = s.kept := by
  unfold State.keyTake at h
  simp only [Option.map_eq_some_iff] at h
  obtain ⟨z, -, rfl⟩ := h
  simp

theorem execKeyInit_completes (port : Nat) (bytes : List Byte) (s : State) : Completes (execKeyInit port bytes s) s := by
  refine run_completes fun t => .ite (.refl t) (.ite (.of_kept (State.keyFail_kept ..)) ?_)
  split
  case h_1 h => exact .of_kept ((State.keyFinish_kept ..).trans (State.keyAnswer_kept h))
  case h_2 => exact .of_kept (State.keyFail_kept ..)

theorem execKeyResp_completes (port : Nat) (bytes : List Byte) (s : State) : Completes (execKeyResp port bytes s) s := by
  refine run_completes fun t => .ite (.refl t) ?_
  split
  case h_1 h => exact .of_kept ((State.keyFinish_kept ..).trans (State.keyTake_kept h))
  case h_2 => exact .of_kept (State.keyFail_kept ..)

theorem State.beginActivation_still (s : State) (inst copy : Nat) (revert : Bool) (via : Via) (h : Nat) :
    (s.beginActivation inst copy revert via h).Still s := by
  simp [State.beginActivation]

theorem execUpdActivate_completes (rq : Req) (s : State) : Completes (execUpdActivate rq s) s :=
  command_still fun _ t => by simp [State.beginActivation_still]

theorem execUpdRevert_completes (rq : Req) (s : State) : Completes (execUpdRevert rq s) s :=
  command_still fun _ t => by simp [State.beginActivation_still]

theorem execTickBoundary_completes (readings : List Int) (pOut margin steps : Nat) (lanes : List (List Nat)) (s : State) :
    Completes (execTickBoundary readings pOut margin steps lanes s) s :=
  runIf_completes (fun h => (Bool.and_eq_true_iff.mp h).1) fun t => .of_kept (by simp)

theorem execNetWriteBack_completes (s : State) : Completes (execNetWriteBack s) s := by
  refine run_completes fun t => .ite (.refl t) ?_
  extract_lets due net u
  have hu : t.Keeps u := .ite (.refl t) (.of_kept (State.kept_congr rfl rfl))
  clear_value u
  refine hu.then_kept (State.kept_foldl (fun _ _ => ?_) _ _)
  exact State.kept_congr rfl rfl

theorem execSporeBufferRoom_completes (s : State) : Completes (execSporeBufferRoom s) s := by
  refine run_completes fun t => .of_kept (State.kept_of_ite rfl (State.kept_of_ite (State.kept_congr rfl rfl) ?_))
  simp

/-! #### Calls of Woeri -/

theorem execWoeriWait_completes (inst : Nat) (timer : Option Nat) (events : Option (BitVec 192)) (s : State) :
    Completes (execWoeriWait inst timer events s) s := by
  refine run_completes fun t => .of_kept (State.call_kept _ _ _ fun x u => State.kept_of_ite (State.woeri_kept ..) ?_)
  split <;> simp

theorem execWoeriDmaCopy_completes (inst srcArea srcOff dstArea dstOff len : Nat) (s : State) :
    Completes (execWoeriDmaCopy inst srcArea srcOff dstArea dstOff len s) s := by
  refine run_completes fun t => .of_kept (State.call_kept _ _ _ fun x u => ?_)
  split <;> simp

theorem execWoeriFrameSend_completes (inst path : Nat) (frame : List Byte) (s : State) :
    Completes (execWoeriFrameSend inst path frame s) s := by
  refine run_completes fun t => .of_kept (State.capCall_kept _ _ _ _ fun x u => State.kept_of_ite (by simp) ?_)
  split <;> simp

theorem execWoeriFrameReceive_completes (inst path : Nat) (frame : List Byte) (s : State) :
    Completes (execWoeriFrameReceive inst path frame s) s := by
  refine run_completes fun t => .of_kept (State.capCall_kept _ _ _ _ fun x u => State.kept_of_ite (by simp) ?_)
  split <;> simp

theorem execGateResult_completes (inst : Nat) (s : State) : Completes (execGateResult inst s) s := by
  refine run_completes fun t => .of_kept (State.capCall_kept _ _ _ _ fun x u => ?_)
  split <;> simp

/-! #### Long commands of the display and the configuration channels -/

theorem execDispStreamOpen_completes (rq : Req) (s : State) : Completes (execDispStreamOpen rq s) s := by
  refine command_still fun h t => ?_
  extract_lets k index hops chain dst dstIndex audio cut prio asked cid msa onDpx ids bad
  refine .ite (.fail t _) (.ite (.fail t _) ?_)
  split
  rename_i hi u hmsa
  have hp : u.kept = t.kept := by
    rw [show u = (hi, u).2 from rfl, ← hmsa]
    clear_value msa
    cases msa
    · rfl
    · exact State.panelRefresh_kept ..
  extract_lets along delay share port cs other done a used id x now disp v w
  have hdone : ∀ rc data, (done rc data).Still t := fun _ _ => (Ans.still_long _ _).mpr hp
  refine .ite (hdone _ _) (.ite (hdone _ _) (.ite (hdone _ _) ?_))
  have ha : a.st.kept = u.kept :=
    kept_foldl_st (fun b c => by rw [kept_ite_st, State.defineContract_kept, ite_self]) _ _
  have hv : v.kept = t.kept := (State.kept_congr (s := a.st) rfl rfl).trans (ha.trans hp)
  have hw : w.kept = t.kept := (State.dispPathUp_kept _ _).trans ((State.dispNext_kept _ _).trans hv)
  clear_value w v
  refine .ite (hdone _ _) (.ite (hdone _ _) (.ite ?_ ?_))
  · split
    · exact (Ans.still_long _ _).mpr (by simpa using hw)
    · exact hdone _ _
  · exact (Ans.still_long _ _).mpr ((State.sendContracts_kept ..).trans hv)

theorem execPdMessageReceive_completes (chan : Nat) (m : PdMsg) (s : State) : Completes (execPdMessageReceive chan m s) s := by
  refine runPwr_completes fun t => .of_kept ?_
  extract_lets c u v rev w x y
  have hu : u.kept = t.kept := State.emit_kept _ _
  have hw : w.kept = t.kept := (State.restRp_kept _ _).trans ((State.setChn_kept ..).trans ((State.dropQueued_kept ..).trans hu))
  have hy : y.kept = t.kept := (State.ccStart_kept ..).trans ((State.raise_kept ..).trans ((State.queueMsg_kept ..).trans ((State.setChn_kept ..).trans hw)))
  clear_value y w u
  refine State.kept_of_ite rfl (State.kept_of_ite (State.acked'_kept ..) (State.kept_of_ite hu ?_))
  split <;> simp [hw, hy]

end Sys2Proof.Machine

/-! The other commands leave the queue and the memory alone. -/
namespace Sys2Proof.Machine

/-! ### CfgCmds -/

theorem execCfgRecordStage_completes (rq : Req) (s : State) : Completes (execCfgRecordStage rq s) s := command_still fun _ t => by simp
theorem execCfgRecordApply_completes (rq : Req) (s : State) : Completes (execCfgRecordApply rq s) s := by
  refine command_still fun _ t => ?_
  dsimp only
  repeat' split
  all_goals simp

theorem execCfgRecordShow_completes (rq : Req) (s : State) : Completes (execCfgRecordShow rq s) s := command_still fun _ t => by simp
theorem execCfgReportShow_completes (rq : Req) (s : State) : Completes (execCfgReportShow rq s) s := command_still fun _ t => by simp
theorem execCfgOverrideClear_completes (rq : Req) (s : State) : Completes (execCfgOverrideClear rq s) s := by
  refine command_still fun _ t => ?_
  dsimp only
  split <;> simp

theorem execCfgStoreCommit_completes (rq : Req) (s : State) : Completes (execCfgStoreCommit rq s) s := command_still fun _ t => by simp
theorem execCfgStoreCommitDone_completes (ok : Bool) (s : State) : Completes (execCfgStoreCommitDone ok s) s := by
  refine run_completes fun t => .of_kept ?_
  split <;> simp

theorem execCfgStoreShow_completes (rq : Req) (s : State) : Completes (execCfgStoreShow rq s) s := command_still fun _ t => by simp

/-! ### Cpwr -/

theorem execCcAttach_completes (chan a5 b5 heldMs : Nat) (vbus : Bool) (s : State) :
    Completes (execCcAttach chan a5 b5 heldMs vbus s) s := by
  refine runPwr_completes fun t => .of_kept ?_
  split <;> simp

theorem execCcDetach_completes (chan heldMs : Nat) (vbusGone : Bool) (s : State) :
    Completes (execCcDetach chan heldMs vbusGone s) s := runPwr_completes fun t => .of_kept (by simp)
theorem execDrpToggle_completes (chan : Nat) (trying : Bool) (s : State) :
    Completes (execDrpToggle chan trying s) s := runPwr_completes fun t => .of_kept (by simp)
theorem execGoodcrcTimeout_completes (chan : Nat) (s : State) : Completes (execGoodcrcTimeout chan s) s := by
  refine runPwr_completes fun t => .of_kept ?_
  dsimp only
  repeat' split
  all_goals simp

theorem execQueuedResponseTimeout_completes (chan : Nat) (s : State) :
    Completes (execQueuedResponseTimeout chan s) s := runPwr_completes fun t => .of_kept (by simp)
theorem execSinkTxExpiry_completes (chan : Nat) (s : State) :
    Completes (execSinkTxExpiry chan s) s := runPwr_completes fun t => .of_kept (by simp)
theorem execAskTimeout_completes (chan : Nat) (s : State) : Completes (execAskTimeout chan s) s := by
  refine runPwr_completes fun t => .of_kept ?_
  repeat' split
  all_goals simp

theorem execSrcTransitionExpiry_completes (chan : Nat) (s : State) : Completes (execSrcTransitionExpiry chan s) s := by
  refine runPwr_completes fun t => .of_kept ?_
  dsimp only
  repeat' split
  all_goals simp

theorem execSnkRequestWaitExpiry_completes (chan : Nat) (s : State) :
    Completes (execSnkRequestWaitExpiry chan s) s := runPwr_completes fun t => .of_kept (by simp)
theorem execPdTransitionTimeout_completes (chan which : Nat) (s : State) :
    Completes (execPdTransitionTimeout chan which s) s := runPwr_completes fun t => .of_kept (by simp)
theorem execHardResetReceived_completes (chan : Nat) (s : State) :
    Completes (execHardResetReceived chan s) s := runPwr_completes fun t => .of_kept (by simp)
theorem execSrcRecoverExpiry_completes (chan : Nat) (s : State) :
    Completes (execSrcRecoverExpiry chan s) s := runPwr_completes fun t => .of_kept (by simp)
theorem execEprKeepaliveTimer_completes (chan : Nat) (s : State) :
    Completes (execEprKeepaliveTimer chan s) s := runPwr_completes fun t => .of_kept (by simp)
theorem execEprKeepaliveTimeout_completes (chan : Nat) (s : State) :
    Completes (execEprKeepaliveTimeout chan s) s := runPwr_completes fun t => .of_kept (by simp)
theorem execSenderResponseTimeout_completes (chan : Nat) (s : State) : Completes (execSenderResponseTimeout chan s) s := by
  refine runPwr_completes fun t => .of_kept ?_
  dsimp only
  repeat' split
  all_goals simp

theorem execErrorRecoveryEnd_completes (chan : Nat) (s : State) :
    Completes (execErrorRecoveryEnd chan s) s := runPwr_completes fun t => .of_kept (by simp)
theorem execVconnOvercurrent_completes (chan : Nat) (s : State) :
    Completes (execVconnOvercurrent chan s) s := runPwr_completes fun t => .of_kept (by simp)
theorem execEnterModeRetry_completes (chan : Nat) (s : State) : Completes (execEnterModeRetry chan s) s := by
  refine runPwr_completes fun t => .of_kept ?_
  split <;> simp

theorem execCpwrShow_completes (rq : Req) (s : State) : Completes (execCpwrShow rq s) s := command_still fun _ t => by simp
theorem execCpwrCapsSet_completes (rq : Req) (s : State) : Completes (execCpwrCapsSet rq s) s := command_still fun _ t => by simp
theorem execCpwrRequest_completes (rq : Req) (s : State) : Completes (execCpwrRequest rq s) s := command_still fun _ t => by simp
theorem execCpwrAnswer_completes (rq : Req) (s : State) : Completes (execCpwrAnswer rq s) s := by
  refine command_still fun _ t => ?_
  dsimp only
  repeat' split
  all_goals simp

theorem execCpwrSwap_completes (rq : Req) (s : State) : Completes (execCpwrSwap rq s) s := command_still fun _ t => by simp
theorem execCpwrHardreset_completes (rq : Req) (s : State) : Completes (execCpwrHardreset rq s) s := command_still fun _ t => by simp
theorem execCpwrModeEnter_completes (rq : Req) (s : State) : Completes (execCpwrModeEnter rq s) s := command_still fun _ t => by simp
theorem execCpwrMuxSet_completes (rq : Req) (s : State) : Completes (execCpwrMuxSet rq s) s := command_still fun _ t => by simp
theorem execCpwrDiscoverShow_completes (rq : Req) (s : State) : Completes (execCpwrDiscoverShow rq s) s := command_still fun _ t => by simp
theorem execCpwrMsgSend_completes (rq : Req) (s : State) : Completes (execCpwrMsgSend rq s) s := command_still fun _ t => by simp
theorem execCpwrMsgRecv_completes (rq : Req) (s : State) : Completes (execCpwrMsgRecv rq s) s := by
  refine command_still fun _ t => ?_
  dsimp only
  repeat' split
  all_goals simp

/-! ### Debug -/

theorem execDbgShow_completes (rq : Req) (s : State) : Completes (execDbgShow rq s) s := command_still fun _ t => by simp
theorem execJtagIdcode_completes (s : State) :
    Completes (execJtagIdcode s) s := runAon_completes fun t => .of_kept (State.kept_congr rfl rfl)
theorem execJtagExtest_completes (sampled update : List Bool) (s : State) :
    Completes (execJtagExtest sampled update s) s := runAon_completes fun t => .of_kept (State.kept_congr rfl rfl)
theorem execJtagSamplePreload_completes (sampled preload : List Bool) (s : State) :
    Completes (execJtagSamplePreload sampled preload s) s := runAon_completes fun t => .of_kept (State.kept_congr rfl rfl)
theorem execJtagBypass_completes (s : State) :
    Completes (execJtagBypass s) s := runAon_completes fun t => .of_kept (State.kept_congr rfl rfl)

/-! ### Display -/

theorem execSinkLinkTraining_completes (dpx rate lanes : Nat) (s : State) :
    Completes (execSinkLinkTraining dpx rate lanes s) s := run_completes fun t => .of_kept (by simp)
theorem execCaptureLine_completes (dpx index : Nat) (desc : Option (FrameDesc × Nat)) (line stamp : Nat) (pixels : List Byte)
    (sdps audio : List (List Byte)) (s : State) :
    Completes (execCaptureLine dpx index desc line stamp pixels sdps audio s) s := by
  refine run_completes fun t => .of_kept ?_
  dsimp only
  repeat' split
  all_goals simp

theorem execPanelHpdChange_completes (dpx level panelMax lo hi lttprs : Nat) (blocks : List (Nat × List Byte)) (works : List (Nat × Nat))
    (s : State) :
    Completes (execPanelHpdChange dpx level panelMax lo hi lttprs blocks works s) s := run_completes fun t => .of_kept (by simp)
theorem execPanelHpdLossTimeout_completes (dpx : Nat) (s : State) :
    Completes (execPanelHpdLossTimeout dpx s) s := run_completes fun t => .of_kept (by simp)
theorem execChunkReceive_completes (stream : Nat) (audio : Bool) (bytes : List Byte) (s : State) :
    Completes (execChunkReceive stream audio bytes s) s := by
  refine run_completes fun t => .of_kept ?_
  split <;> simp

theorem execFrameStart_completes (stream : Nat) (s : State) : Completes (execFrameStart stream s) s := by
  refine run_completes fun t => .of_kept ?_
  split <;> simp

theorem execAuxTransaction_completes (dpx cmd addr len vstream : Nat) (data : List Byte) (s : State) :
    Completes (execAuxTransaction dpx cmd addr len vstream data s) s := run_completes fun t => .of_kept (by simp)
theorem execAuxReq_completes (dpx cseq cmd addr vstream : Nat) (data : List Byte) (s : State) :
    Completes (execAuxReq dpx cseq cmd addr vstream data s) s := run_completes fun t => .of_kept (by simp)
theorem execPanelAuxReply_completes (dpx reply : Nat) (rdata : List Byte) (s : State) :
    Completes (execPanelAuxReply dpx reply rdata s) s := by
  refine run_completes fun t => .of_kept ?_
  dsimp only
  repeat' split
  all_goals simp

theorem execAuxRep_completes (dpx cseq reply : Nat) (rdata : List Byte) (s : State) :
    Completes (execAuxRep dpx cseq reply rdata s) s := run_completes fun t => .of_kept (by simp)
theorem execMirror_completes (dpx cseq addr : Nat) (data : List Byte) (s : State) :
    Completes (execMirror dpx cseq addr data s) s := run_completes fun t => .of_kept (by simp)
theorem execHpd_completes (dpx cseq : Nat) (level irq : Bool) (s : State) :
    Completes (execHpd dpx cseq level irq s) s := run_completes fun t => .of_kept (by simp)
theorem execSkipReq_completes (dpx cseq vstream k : Nat) (s : State) :
    Completes (execSkipReq dpx cseq vstream k s) s := run_completes fun t => .of_kept (by simp)
theorem execControlAck_completes (dpx cseq : Nat) (s : State) :
    Completes (execControlAck dpx cseq s) s := run_completes fun t => .of_kept (State.kept_congr rfl rfl)
theorem execControlResendTimeout_completes (dpx cseq : Nat) (s : State) : Completes (execControlResendTimeout dpx cseq s) s := by
  refine run_completes fun t => .of_kept ?_
  split <;> simp

theorem execAuxFwdTimeout_completes (dpx : Nat) (s : State) :
    Completes (execAuxFwdTimeout dpx s) s := run_completes fun t => .of_kept (by simp)
theorem execHoldGapExpiry_completes (stream : Nat) (s : State) :
    Completes (execHoldGapExpiry stream s) s := run_completes fun t => .of_kept (State.kept_congr rfl rfl)
theorem execHoldMaxExpiry_completes (stream : Nat) (s : State) : Completes (execHoldMaxExpiry stream s) s := by
  refine run_completes fun t => .of_kept ?_
  split <;> simp

theorem execDispShow_completes (rq : Req) (s : State) : Completes (execDispShow rq s) s := command_still fun _ t => by simp
theorem execDispStreamClose_completes (rq : Req) (s : State) : Completes (execDispStreamClose rq s) s := by
  refine command_still fun _ t => ?_
  dsimp only
  repeat' split
  all_goals simp

theorem execDispStreamShow_completes (rq : Req) (s : State) : Completes (execDispStreamShow rq s) s := by
  refine command_still fun _ t => ?_
  repeat' split
  all_goals simp

theorem execDispHoldOverlay_completes (rq : Req) (s : State) : Completes (execDispHoldOverlay rq s) s := command_still fun _ t => by simp
theorem execDispHoldEnter_completes (rq : Req) (s : State) : Completes (execDispHoldEnter rq s) s := by
  refine command_still fun _ t => ?_
  repeat' split
  all_goals simp

theorem execDispPairSet_completes (rq : Req) (s : State) : Completes (execDispPairSet rq s) s := command_still fun _ t => by simp
theorem execDispAuxXfer_completes (rq : Req) (s : State) : Completes (execDispAuxXfer rq s) s := command_still fun _ t => by simp
theorem execDispClear_completes (rq : Req) (s : State) : Completes (execDispClear rq s) s := command_still fun _ t => by simp

/-! ### Ppath -/

theorem execFeedPresent_completes (feed mv ma heldMs : Nat) (s : State) :
    Completes (execFeedPresent feed mv ma heldMs s) s := runAon_completes fun t => .of_kept (by simp)
theorem execFeedShareUpdate_completes (mv0 ma0 mv1 ma1 : Nat) (s : State) :
    Completes (execFeedShareUpdate mv0 ma0 mv1 ma1 s) s := runPwr_completes fun t => .of_kept (by simp)
theorem execFeedOverload_completes (feed ma heldMs : Nat) (s : State) : Completes (execFeedOverload feed ma heldMs s) s := by
  refine runPwr_completes fun t => .of_kept ?_
  dsimp only
  repeat' split
  all_goals simp

theorem execVbusSettled_completes (switch mv ma heldMs : Nat) (s : State) :
    Completes (execVbusSettled switch mv ma heldMs s) s := runPwr_completes fun t => .of_kept (by simp)
theorem execVbusSwitchFault_completes (switch heldMs : Nat) (trip : Bool) (s : State) :
    Completes (execVbusSwitchFault switch heldMs trip s) s := runPwr_completes fun t => .of_kept (by simp)
theorem execVbusRetryExpiry_completes (switch : Nat) (s : State) : Completes (execVbusRetryExpiry switch s) s := by
  refine runPwr_completes fun t => .of_kept ?_
  dsimp only
  repeat' split
  all_goals simp

theorem execBayShortPinClose_completes (bay : Nat) (s : State) :
    Completes (execBayShortPinClose bay s) s := runPwr_completes fun t => .of_kept (by simp)
theorem execBayShortPinOpen_completes (bay : Nat) (s : State) :
    Completes (execBayShortPinOpen bay s) s := runPwr_completes fun t => .of_kept (by simp)
theorem execBaySeatDebounce_completes (bay : Nat) (s : State) :
    Completes (execBaySeatDebounce bay s) s := runPwr_completes fun t => .of_kept (by simp)
theorem execBayCurrentLimit_completes (bay : Nat) (reached : Bool) (samples mv ma : Nat) (s : State) :
    Completes (execBayCurrentLimit bay reached samples mv ma s) s := runPwr_completes fun t => .of_kept (by simp)
theorem execBayFaultTimer_completes (bay samples : Nat) (s : State) :
    Completes (execBayFaultTimer bay samples s) s := runPwr_completes fun t => .of_kept (by simp)
theorem execBayBreaker_completes (bay ma : Nat) (s : State) :
    Completes (execBayBreaker bay ma s) s := runPwr_completes fun t => .of_kept (by simp)
theorem execBayRampTimeout_completes (bay vin : Nat) (s : State) :
    Completes (execBayRampTimeout bay vin s) s := runPwr_completes fun t => .of_kept (by simp)
theorem execBayPgRise_completes (bay vin mv ma heldUs : Nat) (enhanced : Bool) (s : State) :
    Completes (execBayPgRise bay vin mv ma heldUs enhanced s) s := runPwr_completes fun t => .of_kept (by simp)
theorem execBayPgFall_completes (bay vin mv : Nat) (s : State) :
    Completes (execBayPgFall bay vin mv s) s := runPwr_completes fun t => .of_kept (by simp)
theorem execBayRetryExpiry_completes (bay : Nat) (s : State) :
    Completes (execBayRetryExpiry bay s) s := runPwr_completes fun t => .of_kept (by simp)
theorem execBayRetriesRestore_completes (bay : Nat) (s : State) :
    Completes (execBayRetriesRestore bay s) s := runPwr_completes fun t => .of_kept (by simp)
theorem execBayPerstRelease_completes (bay : Nat) (s : State) :
    Completes (execBayPerstRelease bay s) s := runPwr_completes fun t => .of_kept (by simp)
theorem execFetTempUpdate_completes (bay : Nat) (diode tref : Int) (vin mv ma : Nat) (s : State) :
    Completes (execFetTempUpdate bay diode tref vin mv ma s) s := runPwr_completes fun t => .of_kept (by simp)
theorem execPpathShow_completes (rq : Req) (s : State) : Completes (execPpathShow rq s) s := command_still fun _ t => by simp
theorem execPpathBayShow_completes (rq : Req) (s : State) : Completes (execPpathBayShow rq s) s := command_still fun _ t => by simp
theorem execPpathBayPower_completes (rq : Req) (s : State) : Completes (execPpathBayPower rq s) s := by
  refine command_still fun _ t => ?_
  dsimp only
  split <;> simp

theorem execPpathVbusShow_completes (rq : Req) (s : State) : Completes (execPpathVbusShow rq s) s := command_still fun _ t => by simp
theorem execPpathClear_completes (rq : Req) (s : State) : Completes (execPpathClear rq s) s := command_still fun _ t => by simp

/-! ### Lanes -/

theorem execLaneTrainingStart_completes (port : Nat) (s : State) :
    Completes (execLaneTrainingStart port s) s := run_completes fun t => .of_kept (by simp)
theorem execTrainingStepEnd_completes (port : Nat) (res : List LaneRes) (peer : PeerLane) (s : State) :
    Completes (execTrainingStepEnd port res peer s) s := run_completes fun t => .of_kept (by simp)
theorem execTrainingRestartDelay_completes (port : Nat) (s : State) :
    Completes (execTrainingRestartDelay port s) s := run_completes fun t => .of_kept (by simp)
theorem execFloorRetrain_completes (port : Nat) (s : State) :
    Completes (execFloorRetrain port s) s := run_completes fun t => .of_kept (by simp)
theorem execTurnaround_completes (port lane : Nat) (adapted : RxState) (s : State) :
    Completes (execTurnaround port lane adapted s) s := run_completes fun t => .of_kept (by simp)
theorem execSosWindowMiss_completes (port lane cause : Nat) (s : State) :
    Completes (execSosWindowMiss port lane cause s) s := run_completes fun t => .of_kept (by simp)
theorem execSignalLoss_completes (port : Nat) (s : State) : Completes (execSignalLoss port s) s := run_completes fun t => .of_kept (by simp)
theorem execL1xComplete_completes (port lane : Nat) (ok : Bool) (s : State) :
    Completes (execL1xComplete port lane ok s) s := run_completes fun t => .of_kept (by simp)
theorem execRecalTrigger_completes (port lane trig : Nat) (s : State) :
    Completes (execRecalTrigger port lane trig s) s := run_completes fun t => .of_kept (by simp)
theorem execRecalDeferExpiry_completes (port lane : Nat) (s : State) :
    Completes (execRecalDeferExpiry port lane s) s := run_completes fun t => .of_kept (by simp)
theorem execRecalStepEnd_completes (port lane : Nat) (res : LaneRes) (s : State) :
    Completes (execRecalStepEnd port lane res s) s := run_completes fun t => .of_kept (by simp)
theorem execLaneRestoreRetry_completes (port : Nat) (s : State) :
    Completes (execLaneRestoreRetry port s) s := run_completes fun t => .of_kept (by simp)
theorem execPrbsTestEnd_completes (port lane : Nat) (counts : List Nat) (s : State) : Completes (execPrbsTestEnd port lane counts s) s := by
  refine run_completes fun t => .of_kept ?_
  split <;> simp

theorem execLinkLaneShow_completes (rq : Req) (s : State) : Completes (execLinkLaneShow rq s) s := command_still fun _ t => by simp
theorem execLinkLanePrbs_completes (rq : Req) (s : State) : Completes (execLinkLanePrbs rq s) s := by
  refine command_still fun _ t => ?_
  dsimp only
  repeat' split
  all_goals simp

theorem execLinkLaneInject_completes (rq : Req) (s : State) : Completes (execLinkLaneInject rq s) s := command_still fun _ t => by simp
theorem execLinkLaneRecal_completes (rq : Req) (s : State) : Completes (execLinkLaneRecal rq s) s := command_still fun _ t => by simp
theorem execLinkLaneRetire_completes (rq : Req) (s : State) : Completes (execLinkLaneRetire rq s) s := command_still fun _ t => by simp
theorem execLinkLaneRestore_completes (rq : Req) (s : State) : Completes (execLinkLaneRestore rq s) s := command_still fun _ t => by simp
theorem execLinkLaneClear_completes (rq : Req) (s : State) : Completes (execLinkLaneClear rq s) s := command_still fun _ t => by simp

/-! ### Link -/

theorem execCellReceive_completes (port lane : Nat) (c : Cell) (errs : List Nat) (ctr : Nat) (old : Bool) (tag : List Byte) (s : State) :
    Completes (execCellReceive port lane c errs ctr old tag s) s := by
  refine run_completes fun t => .of_kept ?_
  dsimp only
  repeat' split
  all_goals simp

theorem execCoachReceive_completes (port lane : Nat) (tag : List Byte) (s : State) : Completes (execCoachReceive port lane tag s) s := by
  refine run_completes fun t => .of_kept ?_
  split <;> simp

theorem execCreditCell_completes (port : Nat) (es : List CreditEntry) (s : State) :
    Completes (execCreditCell port es s) s := run_completes fun t => .of_kept (by simp)
theorem execTickCell_completes (port : Nat) (plan : Plan) (s : State) :
    Completes (execTickCell port plan s) s := run_completes fun t => .of_kept (by simp)
theorem execDemandCell_completes (port : Nat) (d : Demand) (s : State) :
    Completes (execDemandCell port d s) s := run_completes fun t => .of_kept (by simp)
theorem execTimeSyncCell_completes (port typ lane : Nat) (a b c arrived sent : Int) (s : State) :
    Completes (execTimeSyncCell port typ lane a b c arrived sent s) s := run_completes fun t => .of_kept (by simp)
theorem execHello_completes (port : Nat) (h : PeerHello) (s : State) :
    Completes (execHello port h s) s := run_completes fun t => .of_kept (by simp)
theorem execElect_completes (port master own : Nat) (s : State) :
    Completes (execElect port master own s) s := run_completes fun t => .of_kept (by simp)
theorem execKeyFinish_completes (port : Nat) (bytes : List Byte) (s : State) :
    Completes (execKeyFinish port bytes s) s := run_completes fun t => .of_kept (by simp)
theorem execKeyAgreementTimeout_completes (port : Nat) (s : State) :
    Completes (execKeyAgreementTimeout port s) s := run_completes fun t => .of_kept (by simp)
theorem execKeyRotationStart_completes (port : Nat) (s : State) :
    Completes (execKeyRotationStart port s) s := run_completes fun t => .of_kept (by simp)
theorem execKeyNext_completes (port dir index : Nat) (tick : Tick) (s : State) :
    Completes (execKeyNext port dir index tick s) s := run_completes fun t => .of_kept (by simp)
theorem execKeyNextAck_completes (port dir index : Nat) (s : State) :
    Completes (execKeyNextAck port dir index s) s := run_completes fun t => .of_kept (by simp)
theorem execKeyEffectiveTick_completes (port : Nat) (s : State) :
    Completes (execKeyEffectiveTick port s) s := run_completes fun t => .of_kept (by simp)
theorem execKeyIndexRetire_completes (port : Nat) (s : State) :
    Completes (execKeyIndexRetire port s) s := run_completes fun t => .of_kept (by simp)
theorem execPathSetup_completes (port id label tc hops dst : Nat) (cut : Bool) (contract credit : Nat) (s : State) :
    Completes (execPathSetup port id label tc hops dst cut contract credit s) s := by
  refine run_completes fun t => .of_kept ?_
  dsimp only
  repeat' split
  all_goals simp

theorem execPathAck_completes (port id label credit : Nat) (s : State) : Completes (execPathAck port id label credit s) s := by
  refine run_completes fun t => .of_kept ?_
  dsimp only
  repeat' split
  all_goals simp

theorem execPathNack_completes (port id reason : Nat) (s : State) : Completes (execPathNack port id reason s) s := by
  refine run_completes fun t => .of_kept ?_
  split <;> simp

theorem execPathTeardown_completes (port label : Nat) (s : State) :
    Completes (execPathTeardown port label s) s := run_completes fun t => .of_kept (by simp)
theorem execPathHoldExpiry_completes (port : Nat) (s : State) :
    Completes (execPathHoldExpiry port s) s := run_completes fun t => .of_kept (by simp)
theorem execPathSetupTimeout_completes (port label : Nat) (s : State) : Completes (execPathSetupTimeout port label s) s := by
  refine run_completes fun t => .of_kept ?_
  split <;> simp

theorem execLaneNotice_completes (port lane event use : Nat) (s : State) :
    Completes (execLaneNotice port lane event use s) s := run_completes fun t => .of_kept (by simp)
theorem execMasterQuery_completes (port : Nat) (s : State) : Completes (execMasterQuery port s) s := by
  refine run_completes fun t => .of_kept ?_
  repeat' split
  all_goals simp

theorem execLinkClose_completes (port cause : Nat) (s : State) :
    Completes (execLinkClose port cause s) s := run_completes fun t => .of_kept (by simp)
theorem execChainNotice_completes (port : Nat) (n : Notice) (s : State) :
    Completes (execChainNotice port n s) s := run_completes fun t => .of_kept (by simp)
theorem execLinkCtrlUnknown_completes (port : Nat) (s : State) :
    Completes (execLinkCtrlUnknown port s) s := run_completes fun t => .of_kept (by simp)
theorem execGapTimeout_completes (port label : Nat) (s : State) : Completes (execGapTimeout port label s) s := by
  refine run_completes fun t => .of_kept ?_
  split <;> simp

theorem execReplayTimeout_completes (port label : Nat) (s : State) : Completes (execReplayTimeout port label s) s := by
  refine run_completes fun t => .of_kept ?_
  split <;> simp

theorem execLinkTTimeout_completes (port : Nat) (s : State) :
    Completes (execLinkTTimeout port s) s := run_completes fun t => .of_kept (by simp)
theorem execBringupRestart_completes (port : Nat) (s : State) :
    Completes (execBringupRestart port s) s := run_completes fun t => .of_kept (by simp)
theorem execMasterLossTimeout_completes (port : Nat) (s : State) :
    Completes (execMasterLossTimeout port s) s := run_completes fun t => .of_kept (by simp)
theorem execMasterQueryTimeout_completes (port : Nat) (s : State) :
    Completes (execMasterQueryTimeout port s) s := run_completes fun t => .of_kept (by simp)
theorem execLinkShow_completes (rq : Req) (s : State) : Completes (execLinkShow rq s) s := command_still fun _ t => by simp
theorem execLinkPlanShow_completes (rq : Req) (s : State) : Completes (execLinkPlanShow rq s) s := by
  refine command_still fun _ t => ?_
  dsimp only
  repeat' split
  all_goals simp

theorem execLinkRekey_completes (rq : Req) (s : State) : Completes (execLinkRekey rq s) s := command_still fun _ t => by simp
theorem execLinkReset_completes (rq : Req) (s : State) : Completes (execLinkReset rq s) s := command_still fun _ t => by simp
theorem execPathOpen_completes (rq : Req) (s : State) : Completes (execPathOpen rq s) s := command_still fun _ t => by simp
theorem execPathClose_completes (rq : Req) (s : State) : Completes (execPathClose rq s) s := by
  refine command_still fun _ t => ?_
  repeat' split
  all_goals simp

theorem execPathShow_completes (rq : Req) (s : State) : Completes (execPathShow rq s) s := by
  refine command_still fun _ t => ?_
  dsimp only
  repeat' split
  all_goals simp

/-! ### Net -/

theorem execMacFrameReceive_completes (mac : Nat) (wire : List Byte) (s : State) :
    Completes (execMacFrameReceive mac wire s) s := runNet_completes fun t => .of_kept (by simp)
theorem execMacLinkChange_completes (mac : Nat) (up : Bool) (speed : Nat) (s : State) :
    Completes (execMacLinkChange mac up speed s) s := runNet_completes fun t => .of_kept (by simp)
theorem execNetTxFetch_completes (queue descs : Nat) (frame : List Byte) (s : State) :
    Completes (execNetTxFetch queue descs frame s) s := by
  refine run_completes fun t => .of_kept ?_
  dsimp only
  repeat' split
  all_goals simp

theorem execNetTailWrite_completes (off value : Nat) (s : State) :
    Completes (execNetTailWrite off value s) s := run_completes fun t => .of_kept (by simp)
theorem execNetEnableWrite_completes (ctrl : Nat) (d3hot pmeEn : Bool) (s : State) :
    Completes (execNetEnableWrite ctrl d3hot pmeEn s) s := run_completes fun t => .of_kept (by simp)
theorem execNetTunnelFrame_completes (label mac group : Nat) (held ecn : Bool) (hash : Nat) (bufs : List NetDesc) (frame : List Byte)
    (s : State) :
    Completes (execNetTunnelFrame label mac group held ecn hash bufs frame s) s := run_completes fun t => .of_kept (by simp)
theorem execPresence_completes (present : Bool) (mac : Nat) (addr : Nat) (s : State) :
    Completes (execPresence present mac addr s) s := run_completes fun t => .of_kept (by simp)
theorem execWake_completes (source : Nat) (s : State) : Completes (execWake source s) s := run_completes fun t => .of_kept (by simp)
theorem execLinkState_completes (mac : Nat) (up : Bool) (speed maxFrame : Nat) (s : State) :
    Completes (execLinkState mac up speed maxFrame s) s := run_completes fun t => .of_kept (by simp)
theorem execFlowAgeSweep_completes (bucket : Nat) (s : State) :
    Completes (execFlowAgeSweep bucket s) s := run_completes fun t => .of_kept (State.kept_congr rfl rfl)
theorem execWakeBufferTimeout_completes (s : State) : Completes (execWakeBufferTimeout s) s := run_completes fun t => .of_kept (by simp)
theorem execNetShow_completes (rq : Req) (s : State) : Completes (execNetShow rq s) s := command_still fun _ t => by simp
theorem execNetBind_completes (rq : Req) (s : State) : Completes (execNetBind rq s) s := command_still fun _ t => by simp
theorem execNetGroupSet_completes (rq : Req) (s : State) : Completes (execNetGroupSet rq s) s := command_still fun _ t => by simp
theorem execNetRuleSet_completes (rq : Req) (s : State) : Completes (execNetRuleSet rq s) s := command_still fun _ t => by simp
theorem execNetFlowSet_completes (rq : Req) (s : State) : Completes (execNetFlowSet rq s) s := by
  refine command_still fun _ t => ?_
  dsimp only
  repeat' split
  all_goals simp

theorem execNetFlowShow_completes (rq : Req) (s : State) : Completes (execNetFlowShow rq s) s := by
  refine command_still fun _ t => ?_
  repeat' split
  all_goals simp

theorem execNetMeterSet_completes (rq : Req) (s : State) : Completes (execNetMeterSet rq s) s := command_still fun _ t => by simp
theorem execNetPresenceSet_completes (rq : Req) (s : State) : Completes (execNetPresenceSet rq s) s := by
  refine command_still fun _ t => ?_
  dsimp only
  repeat' split
  all_goals simp

theorem execNetPresenceShow_completes (rq : Req) (s : State) : Completes (execNetPresenceShow rq s) s := command_still fun _ t => by simp
theorem execNetClear_completes (rq : Req) (s : State) : Completes (execNetClear rq s) s := command_still fun _ t => by simp

/-! ### Usb -/

theorem execUsbXferReq_completes (f : UsbFrame) (periodic : Bool) (pkts : List (List Byte)) (outcome : Option Nat) (s : State) :
    Completes (execUsbXferReq f periodic pkts outcome s) s := by
  refine run_completes fun t => .of_kept ?_
  dsimp only
  repeat' split
  all_goals simp

theorem execUsbXferData_completes (root : Nat) (f : UsbFrame) (outcome : Option Nat) (s : State) :
    Completes (execUsbXferData root f outcome s) s := by
  refine run_completes fun t => .of_kept ?_
  dsimp only
  repeat' split
  all_goals simp

theorem execUsbXferDone_completes (root : Nat) (f : UsbFrame) (s : State) : Completes (execUsbXferDone root f s) s := by
  refine run_completes fun t => .of_kept ?_
  dsimp only
  repeat' split
  all_goals simp

theorem execUsbPortCtrlFrame_completes (f : UsbFrame) (s : State) :
    Completes (execUsbPortCtrlFrame f s) s := run_completes fun t => .of_kept (by simp)
theorem execRemotePortResetEnd_completes (port speed : Nat) (s : State) :
    Completes (execRemotePortResetEnd port speed s) s := run_completes fun t => .of_kept (by simp)
theorem execUsbPortStateFrame_completes (root : Nat) (f : UsbFrame) (s : State) :
    Completes (execUsbPortStateFrame root f s) s := run_completes fun t => .of_kept (by simp)
theorem execHostUsbTransaction_completes (tx : UsbTx) (s : State) :
    Completes (execHostUsbTransaction tx s) s := run_completes fun t => .of_kept (by simp)
theorem execUsbBusStateFrame_completes (state : Nat) (s : State) :
    Completes (execUsbBusStateFrame state s) s := run_completes fun t => .of_kept (by simp)
theorem execUsbWakeFrame_completes (root port : Nat) (s : State) :
    Completes (execUsbWakeFrame root port s) s := run_completes fun t => .of_kept (by simp)
theorem execDeviceRemoteWake_completes (port : Nat) (s : State) :
    Completes (execDeviceRemoteWake port s) s := run_completes fun t => .of_kept (by simp)
theorem execRemoteResumeEnd_completes (port : Nat) (s : State) : Completes (execRemoteResumeEnd port s) s := by
  refine run_completes fun t => .of_kept ?_
  dsimp only
  split <;> simp

theorem execUsbUpstreamLinkChange_completes (ev speed : Nat) (s : State) : Completes (execUsbUpstreamLinkChange ev speed s) s := by
  refine run_completes fun t => .of_kept ?_
  repeat' split
  all_goals simp

theorem execUsbIsoData_completes (root : Nat) (f : UsbFrame) (interval : Nat) (s : State) :
    Completes (execUsbIsoData root f interval s) s := by
  refine run_completes fun t => .of_kept ?_
  dsimp only
  repeat' split
  all_goals simp

theorem execUsbPeriodicPoll_completes (port addr ep : Nat) (dirIn iso hidClass : Bool) (data : Option (List Byte)) (s : State) :
    Completes (execUsbPeriodicPoll port addr ep dirIn iso hidClass data s) s := by
  refine run_completes fun t => .of_kept ?_
  dsimp only
  repeat' split
  all_goals simp

theorem execDeviceFunctionBusReset_completes (s : State) :
    Completes (execDeviceFunctionBusReset s) s := run_completes fun t => .of_kept (State.kept_congr rfl rfl)
theorem execKeepaliveIdleSuspend_completes (port : Nat) (s : State) :
    Completes (execKeepaliveIdleSuspend port s) s := run_completes fun t => .of_kept (by simp)
theorem execKeepaliveTimeout_completes (s : State) : Completes (execKeepaliveTimeout s) s := run_completes fun t => .of_kept (by simp)
theorem execUsbShow_completes (rq : Req) (s : State) : Completes (execUsbShow rq s) s := command_still fun _ t => by simp
theorem execUsbPortShow_completes (rq : Req) (s : State) : Completes (execUsbPortShow rq s) s := command_still fun _ t => by simp
theorem execUsbPortPower_completes (rq : Req) (s : State) : Completes (execUsbPortPower rq s) s := command_still fun _ t => by simp
theorem execUsbKeepaliveShow_completes (rq : Req) (s : State) : Completes (execUsbKeepaliveShow rq s) s := command_still fun _ t => by simp
theorem execUsbClear_completes (rq : Req) (s : State) : Completes (execUsbClear rq s) s := command_still fun _ t => by simp

/-! ### Mailbox -/

theorem execSpiReadReplyFrame_completes (s : State) : Completes (execSpiReadReplyFrame s) s := runAon_completes fun t => .of_kept (by simp)
theorem execSpiWindowReadFrame_completes (offset count : Nat) (s : State) :
    Completes (execSpiWindowReadFrame offset count s) s := runAon_completes fun t => .of_kept (by simp)
theorem execRegisterWrite_completes (map off value : Nat) (s : State) :
    Completes (execRegisterWrite map off value s) s := run_completes fun t => .of_kept (by simp)
theorem execI3cPrivateRead_completes (s : State) : Completes (execI3cPrivateRead s) s := by
  refine runAon_completes fun t => .of_kept ?_
  dsimp only
  repeat' split
  all_goals simp

theorem execSubmit_completes (s : State) : Completes (execSubmit s) s := run_completes fun t => .of_kept (by simp)
theorem execRelease_completes (s : State) : Completes (execRelease s) s := run_completes fun t => .of_kept (by simp)
theorem execUsbMbxBulkOut_completes (ep : Nat) (bs : List Byte) (s : State) : Completes (execUsbMbxBulkOut ep bs s) s := by
  refine run_completes fun t => .of_kept ?_
  dsimp only
  repeat' split
  all_goals simp

theorem execUsbMbxBulkIn_completes (ep : Nat) (s : State) : Completes (execUsbMbxBulkIn ep s) s := by
  refine run_completes fun t => .of_kept ?_
  dsimp only
  repeat' split
  all_goals simp

theorem execUsbVendorStatus_completes (s : State) : Completes (execUsbVendorStatus s) s := run_completes fun t => .of_kept (by simp)
theorem execUsbVendorWindowRead_completes (index len : Nat) (s : State) :
    Completes (execUsbVendorWindowRead index len s) s := run_completes fun t => .of_kept (by simp)
theorem execPeerMessage_completes (port : Nat) (bs : List Byte) (s : State) :
    Completes (execPeerMessage port bs s) s := run_completes fun t => .of_kept (by simp)
theorem execForwardedReply_completes (port : Nat) (bs : List Byte) (s : State) : Completes (execForwardedReply port bs s) s := by
  refine run_completes fun t => .of_kept ?_
  repeat' split
  all_goals simp

theorem execForwardTimeout_completes (port : Nat) (tag : Half) (s : State) : Completes (execForwardTimeout port tag s) s := by
  refine run_completes fun t => .of_kept ?_
  split <;> simp

theorem execMbxReplyBackstop_completes (index : Nat) (s : State) : Completes (execMbxReplyBackstop index s) s := by
  refine run_completes fun t => .of_kept ?_
  split <;> simp

theorem execLongCommandFinish_completes (via : Via) (handle : Nat) (ok : Bool) (s : State) :
    Completes (execLongCommandFinish via handle ok s) s := by
  refine run_completes fun t => .of_kept ?_
  repeat' split
  all_goals simp

theorem execCompletionHandleLapse_completes (chan : Chan) (handle : Nat) (s : State) :
    Completes (execCompletionHandleLapse chan handle s) s := run_completes fun t => .of_kept (by simp)
theorem execCredIdleLapse_completes (chan : Chan) (handle : Nat) (s : State) : Completes (execCredIdleLapse chan handle s) s := by
  refine run_completes fun t => .of_kept ?_
  split <;> simp

theorem execWatchdogExpiry_completes (s : State) : Completes (execWatchdogExpiry s) s := run_completes fun t => .of_kept (by simp)
theorem execFunction7Reset_completes (usb : Bool) (s : State) :
    Completes (execFunction7Reset usb s) s := run_completes fun t => .of_kept (by simp)
theorem execAdapterEndDeferredApply_completes (adapter : Nat) (s : State) : Completes (execAdapterEndDeferredApply adapter s) s := by
  refine run_completes fun t => .of_kept ?_
  split <;> simp

/-! ### Memory -/

theorem execDqsDriftCheck_completes (channel : Nat) (s : State) :
    Completes (execDqsDriftCheck channel s) s := run_completes fun t => .of_kept (by simp)
theorem execLpddrRefresh_completes (bank : Nat) (s : State) :
    Completes (execLpddrRefresh bank s) s := run_completes fun t => .of_kept (by simp)
theorem execMemShow_completes (rq : Req) (s : State) : Completes (execMemShow rq s) s := command_still fun _ t => by simp
theorem execMemMasterShow_completes (rq : Req) (s : State) : Completes (execMemMasterShow rq s) s := command_still fun _ t => by simp
theorem execMemMapShow_completes (rq : Req) (s : State) : Completes (execMemMapShow rq s) s := command_still fun _ t => by simp
theorem execMemClear_completes (rq : Req) (s : State) : Completes (execMemClear rq s) s := command_still fun _ t => by simp
theorem execMemInject_completes (rq : Req) (s : State) : Completes (execMemInject rq s) s := by
  refine command_still fun _ t => ?_
  dsimp only
  split <;> simp

/-! ### Pcie -/

theorem execConfigRequest_completes (fn : Nat) (reg : CfgReg) (write : Option Nat) (rid tag : Nat) (s : State) :
    Completes (execConfigRequest fn reg write rid tag s) s := by
  refine run_completes fun t => .of_kept ?_
  repeat' split
  all_goals simp

theorem execTlpIngress_completes (link : Nat) (t : Tlp) (errs replays cor : Nat) (s : State) :
    Completes (execTlpIngress link t errs replays cor s) s := run_completes fun t => .of_kept (by simp)
theorem execPcieTlpFrame_completes (pciEnd bridge : Nat) (t : Tlp) (s : State) :
    Completes (execPcieTlpFrame pciEnd bridge t s) s := run_completes fun t => .of_kept (by simp)
theorem execPcieCreditFrame_completes (pciEnd bridge : Nat) (limits : List Nat) (s : State) :
    Completes (execPcieCreditFrame pciEnd bridge limits s) s := run_completes fun t => .of_kept (by simp)
theorem execPciePortStateFrame_completes (pciEnd bridge lnkCap lnkSta sltSta aerUnc aerCor : Nat) (s : State) :
    Completes (execPciePortStateFrame pciEnd bridge lnkCap lnkSta sltSta aerUnc aerCor s) s := run_completes fun t => .of_kept (by simp)
theorem execPciePortCtrlFrame_completes (dp bridge lnkCtl sltCtl devCtl brCtl routing : Nat) (s : State) :
    Completes (execPciePortCtrlFrame dp bridge lnkCtl sltCtl devCtl brCtl routing s) s := by
  refine run_completes fun t => .of_kept ?_
  dsimp only
  repeat' split
  all_goals simp

theorem execPcieResumeFrame_completes (pciEnd bridge flag : Nat) (s : State) :
    Completes (execPcieResumeFrame pciEnd bridge flag s) s := run_completes fun t => .of_kept (by simp)
theorem execPcieHoldExpiry_completes (pciEnd : Nat) (s : State) :
    Completes (execPcieHoldExpiry pciEnd s) s := run_completes fun t => .of_kept (by simp)
theorem execHotResetEnd_completes (link : Nat) (s : State) :
    Completes (execHotResetEnd link s) s := run_completes fun t => .of_kept (by simp)
theorem execPciePhysLinkTrained_completes (link rate width : Nat) (s : State) :
    Completes (execPciePhysLinkTrained link rate width s) s := run_completes fun t => .of_kept (by simp)
theorem execPciePhysLinkDown_completes (link : Nat) (present : Bool) (s : State) :
    Completes (execPciePhysLinkDown link present s) s := run_completes fun t => .of_kept (by simp)
theorem execPmeToAckTimeout_completes (s : State) : Completes (execPmeToAckTimeout s) s := by
  refine run_completes fun t => .of_kept ?_
  split <;> simp

theorem execInBandPresenceChange_completes (port : Nat) (present : Bool) (s : State) :
    Completes (execInBandPresenceChange port present s) s := run_completes fun t => .of_kept (by simp)
theorem execUpstreamPerst_completes (s : State) : Completes (execUpstreamPerst s) s := run_completes fun t => .of_kept (by simp)
theorem execCplAgeCheck_completes (pciEnd : Nat) (s : State) :
    Completes (execCplAgeCheck pciEnd s) s := run_completes fun t => .of_kept (by simp)
theorem execPcieShow_completes (rq : Req) (s : State) : Completes (execPcieShow rq s) s := command_still fun _ t => by simp
theorem execPciePortBind_completes (rq : Req) (s : State) : Completes (execPciePortBind rq s) s := by
  refine command_still fun _ t => ?_
  dsimp only
  repeat' split
  all_goals simp

theorem execPciePortUnbind_completes (rq : Req) (s : State) : Completes (execPciePortUnbind rq s) s := by
  refine command_still fun _ t => ?_
  dsimp only
  repeat' split
  all_goals simp

theorem execPcieBridgeShow_completes (rq : Req) (s : State) : Completes (execPcieBridgeShow rq s) s := command_still fun _ t => by simp
theorem execPcieSlotPower_completes (rq : Req) (s : State) : Completes (execPcieSlotPower rq s) s := by
  refine command_still fun _ t => ?_
  repeat' split
  all_goals simp

theorem execPcieClear_completes (rq : Req) (s : State) : Completes (execPcieClear rq s) s := command_still fun _ t => by simp

/-! ### Planner -/

theorem execPlannerRefresh_completes (s : State) :
    Completes (execPlannerRefresh s) s := run_completes fun t => .of_kept (State.kept_congr rfl rfl)
theorem execPlannerRefreshLapse_completes (s : State) : Completes (execPlannerRefreshLapse s) s := run_completes fun t => .of_kept (by simp)
theorem execPlanShow_completes (rq : Req) (s : State) : Completes (execPlanShow rq s) s := by
  refine command_still fun _ t => ?_
  dsimp only
  repeat' split
  all_goals simp

theorem execPlanBudgetShow_completes (rq : Req) (s : State) : Completes (execPlanBudgetShow rq s) s := command_still fun _ t => by simp
theorem execPlanBudgetSet_completes (rq : Req) (s : State) : Completes (execPlanBudgetSet rq s) s := command_still fun _ t => by simp
theorem execPlanContractSet_completes (rq : Req) (s : State) : Completes (execPlanContractSet rq s) s := command_still fun _ t => by simp
theorem execPlanContractClear_completes (rq : Req) (s : State) :
    Completes (execPlanContractClear rq s) s := command_still fun _ t => by simp
theorem execPlanContractShow_completes (rq : Req) (s : State) : Completes (execPlanContractShow rq s) s := by
  refine command_still fun _ t => ?_
  repeat' split
  all_goals simp

theorem execPlanShaperSet_completes (rq : Req) (s : State) : Completes (execPlanShaperSet rq s) s := command_still fun _ t => by simp
theorem execPlanSampleShow_completes (rq : Req) (s : State) : Completes (execPlanSampleShow rq s) s := command_still fun _ t => by simp
theorem execPlanCostShow_completes (rq : Req) (s : State) : Completes (execPlanCostShow rq s) s := command_still fun _ t => by simp

/-! ### Pstate -/

theorem execPstateSet_completes (rq : Req) (s : State) : Completes (execPstateSet rq s) s := command_still fun _ t => by simp
theorem execPstateShow_completes (rq : Req) (s : State) : Completes (execPstateShow rq s) s := command_still fun _ t => by simp
theorem execIdleEntry_completes (s : State) : Completes (execIdleEntry s) s := runAon_completes fun t => .of_kept (by simp)
theorem execEntryTimeout_completes (s : State) : Completes (execEntryTimeout s) s := runAon_completes fun t => .of_kept (by simp)
theorem execRetainExitComplete_completes (s : State) :
    Completes (execRetainExitComplete s) s := runAon_completes fun t => .of_kept (by simp)
theorem execSelfRefreshExitCheckDone_completes (ok : Bool) (s : State) :
    Completes (execSelfRefreshExitCheckDone ok s) s := runAon_completes fun t => .of_kept (by simp)

/-! ### Recorder -/

theorem execCheckpoint_completes (s : State) : Completes (execCheckpoint s) s := run_completes fun t => .of_kept (by simp)
theorem execRecPostTriggerExpiry_completes (s : State) :
    Completes (execRecPostTriggerExpiry s) s := run_completes fun t => .of_kept (by simp)
theorem execRecReplay_completes (rq : Req) (s : State) : Completes (execRecReplay rq s) s := by
  refine command_still fun _ t => ?_
  dsimp only
  repeat' split
  all_goals simp

theorem execReplayFinish_completes (diverged : Bool) (slot tick : Nat) (s : State) :
    Completes (execReplayFinish diverged slot tick s) s := by
  refine run_completes fun t => .of_kept ?_
  split <;> simp

theorem execRecShow_completes (rq : Req) (s : State) : Completes (execRecShow rq s) s := command_still fun _ t => by simp
theorem execRecFreeze_completes (rq : Req) (s : State) : Completes (execRecFreeze rq s) s := by
  refine command_still fun _ t => ?_
  dsimp only
  split <;> simp

theorem execRecRead_completes (rq : Req) (s : State) : Completes (execRecRead rq s) s := by
  refine command_still fun _ t => ?_
  dsimp only
  repeat' split
  all_goals simp

/-! ### Resets -/

theorem execMgmtFirmwareReady_completes (s : State) : Completes (execMgmtFirmwareReady s) s := runAon_completes fun t => .of_kept (by simp)
theorem execLpddrTrainingDone_completes (ok : Bool) (rate gib mask : Nat) (s : State) :
    Completes (execLpddrTrainingDone ok rate gib mask s) s := run_completes fun t => .of_kept (by simp)
theorem execPwrseqFault_completes (s : State) : Completes (execPwrseqFault s) s := runPwr_completes fun t => .of_kept (by simp)
theorem execPhyseqFault_completes (port : Nat) (s : State) :
    Completes (execPhyseqFault port s) s := run_completes fun t => .of_kept (by simp)

/-! ### Service -/

theorem execServiceSlice_completes (core : Nat) (uses : List (Nat × Nat)) (s : State) : Completes (execServiceSlice core uses s) s := by
  refine run_completes fun t => .of_kept ?_
  simp
  repeat' split
  all_goals simp

theorem execWoeriYield_completes (inst : Nat) (s : State) : Completes (execWoeriYield inst s) s := run_completes fun t => .of_kept (by simp)
theorem execWoeriHeartbeat_completes (inst : Nat) (s : State) :
    Completes (execWoeriHeartbeat inst s) s := run_completes fun t => .of_kept (by simp)
theorem execGateSubmit_completes (inst : Nat) (request : List Byte) (s : State) :
    Completes (execGateSubmit inst request s) s := run_completes fun t => .of_kept (by simp)
theorem execWoeriWakeRequest_completes (inst reason : Nat) (s : State) :
    Completes (execWoeriWakeRequest inst reason s) s := run_completes fun t => .of_kept (by simp)
theorem execWoeriTimeRead_completes (inst core : Nat) (s : State) :
    Completes (execWoeriTimeRead inst core s) s := run_completes fun t => .of_kept (by simp)
theorem execInstanceWatchdog_completes (inst : Nat) (s : State) :
    Completes (execInstanceWatchdog inst s) s := run_completes fun t => .of_kept (by simp)
theorem execInstanceRestart_completes (inst : Nat) (s : State) : Completes (execInstanceRestart inst s) s := by
  refine run_completes fun t => .of_kept ?_
  dsimp only
  repeat' split
  all_goals simp

theorem execCoreHeartbeatLoss_completes (core : Nat) (s : State) :
    Completes (execCoreHeartbeatLoss core s) s := run_completes fun t => .of_kept (by simp)
theorem execNetPresenceRules_completes (absent : Bool) (s : State) :
    Completes (execNetPresenceRules absent s) s := run_completes fun t => .of_kept (by simp)
theorem execDhcpRenewal_completes (index : Nat) (renewal : List Byte) (v4lost v6lost : List Nat) (s : State) :
    Completes (execDhcpRenewal index renewal v4lost v6lost s) s := run_completes fun t => .of_kept (by simp)
theorem execKeepaliveHidWake_completes (overflow : Bool) (s : State) :
    Completes (execKeepaliveHidWake overflow s) s := run_completes fun t => .of_kept (by simp)
theorem execFleetReport_completes (answered : Option Nat) (s : State) :
    Completes (execFleetReport answered s) s := run_completes fun t => .of_kept (by simp)
theorem execSvcShow_completes (rq : Req) (s : State) : Completes (execSvcShow rq s) s := command_still fun _ t => by simp
theorem execSvcStage_completes (rq : Req) (s : State) : Completes (execSvcStage rq s) s := command_still fun _ t => by simp
theorem execSvcInstall_completes (rq : Req) (s : State) : Completes (execSvcInstall rq s) s := command_still fun _ t => by simp
theorem execSvcRemove_completes (rq : Req) (s : State) : Completes (execSvcRemove rq s) s := command_still fun _ t => by simp
theorem execSvcStart_completes (rq : Req) (s : State) : Completes (execSvcStart rq s) s := by
  refine command_still fun _ t => ?_
  dsimp only
  repeat' split
  all_goals simp

theorem execSvcStop_completes (rq : Req) (s : State) : Completes (execSvcStop rq s) s := by
  refine command_still fun _ t => ?_
  dsimp only
  repeat' split
  all_goals simp

theorem execSvcInstanceShow_completes (rq : Req) (s : State) : Completes (execSvcInstanceShow rq s) s := by
  refine command_still fun _ t => ?_
  dsimp only
  repeat' split
  all_goals simp

theorem execSvcCoreDrain_completes (rq : Req) (s : State) : Completes (execSvcCoreDrain rq s) s := command_still fun _ t => by simp
theorem execSvcCoreAdmit_completes (rq : Req) (s : State) : Completes (execSvcCoreAdmit rq s) s := command_still fun _ t => by simp

/-! ### Sideband -/

theorem execSbXferFrame_completes (port num : Nat) (route : SbRoute) (xfer : SbXfer) (s : State) :
    Completes (execSbXferFrame port num route xfer s) s := run_completes fun t => .of_kept (by simp)
theorem execSbXferRep_completes (port num : Nat) (reply : List Byte) (s : State) : Completes (execSbXferRep port num reply s) s := by
  refine run_completes fun t => .of_kept ?_
  split <;> simp

theorem execSbLockFrame_completes (port num : Nat) (route : SbRoute) (holder : SbHolder) (s : State) :
    Completes (execSbLockFrame port num route holder s) s := by
  refine run_completes fun t => .of_kept ?_
  dsimp only
  repeat' split
  all_goals simp

theorem execSbLockRep_completes (port num outcome handle : Nat) (s : State) : Completes (execSbLockRep port num outcome handle s) s := by
  refine run_completes fun t => .of_kept ?_
  dsimp only
  repeat' split
  all_goals simp

theorem execSbUnlockFrame_completes (port handle : Nat) (lapsed : Bool) (s : State) :
    Completes (execSbUnlockFrame port handle lapsed s) s := by
  refine run_completes fun t => .of_kept ?_
  dsimp only
  repeat' split
  all_goals simp

theorem execSbWound_completes (port : Nat) (holder : SbHolder) (s : State) :
    Completes (execSbWound port holder s) s := run_completes fun t => .of_kept (by simp)
theorem execSbIrq_completes (port line level : Nat) (s : State) :
    Completes (execSbIrq port line level s) s := run_completes fun t => .of_kept (by simp)
theorem execI2cTargetTransaction_completes (intf addr reads : Nat) (write : List Byte) (s : State) :
    Completes (execI2cTargetTransaction intf addr reads write s) s := by
  refine run_completes fun t => .of_kept ?_
  dsimp only
  repeat' split
  all_goals simp

theorem execSbHoldExpiry_completes (intf addr : Nat) (s : State) : Completes (execSbHoldExpiry intf addr s) s := by
  refine run_completes fun t => .of_kept ?_
  split <;> simp

theorem execSbArbitrationLost_completes (kind intf : Nat) (s : State) : Completes (execSbArbitrationLost kind intf s) s := by
  refine run_completes fun t => .of_kept ?_
  split <;> simp

theorem execBusTransactionComplete_completes (kind intf result : Nat) (data : List Byte) (s : State) :
    Completes (execBusTransactionComplete kind intf result data s) s := by
  refine run_completes fun t => .of_kept ?_
  split <;> simp

theorem execSbSdaStuck_completes (kind intf : Nat) (s : State) : Completes (execSbSdaStuck kind intf s) s := by
  refine run_completes fun t => .of_kept ?_
  dsimp only
  repeat' split
  all_goals simp

theorem execSbLockLeaseExpiry_completes (handle : Nat) (s : State) : Completes (execSbLockLeaseExpiry handle s) s := by
  refine run_completes fun t => .of_kept ?_
  split <;> simp

theorem execSbLockWaitExpiry_completes (waiter : Nat) (s : State) : Completes (execSbLockWaitExpiry waiter s) s := by
  refine run_completes fun t => .of_kept ?_
  split <;> simp

theorem execSbIrqSourceEdge_completes (source : Nat) (s : State) :
    Completes (execSbIrqSourceEdge source s) s := run_completes fun t => .of_kept (by simp)
theorem execFanTachFault_completes (fan pulses : Nat) (s : State) :
    Completes (execFanTachFault fan pulses s) s := run_completes fun t => .of_kept (by simp)
theorem execUartReceive_completes (idx : Nat) (bytes : List Byte) (s : State) :
    Completes (execUartReceive idx bytes s) s := run_completes fun t => .of_kept (by simp)
theorem execSbShow_completes (rq : Req) (s : State) : Completes (execSbShow rq s) s := command_still fun _ t => by simp
theorem execSbRouteSet_completes (rq : Req) (s : State) : Completes (execSbRouteSet rq s) s := by
  refine command_still fun _ t => ?_
  dsimp only
  repeat' split
  all_goals simp

theorem execSbRouteShow_completes (rq : Req) (s : State) : Completes (execSbRouteShow rq s) s := command_still fun _ t => by simp
theorem execSbXfer_completes (rq : Req) (s : State) : Completes (execSbXfer rq s) s := by
  refine command_still fun _ t => ?_
  dsimp only
  repeat' split
  all_goals simp

theorem execSbLock_completes (rq : Req) (s : State) : Completes (execSbLock rq s) s := by
  refine command_still fun _ t => ?_
  dsimp only
  repeat' split
  all_goals simp

theorem execSbUnlock_completes (rq : Req) (s : State) : Completes (execSbUnlock rq s) s := by
  refine command_still fun _ t => ?_
  dsimp only
  repeat' split
  all_goals simp

theorem execSbIrqRead_completes (rq : Req) (s : State) : Completes (execSbIrqRead rq s) s := command_still fun _ t => by simp
theorem execSbIrqMask_completes (rq : Req) (s : State) : Completes (execSbIrqMask rq s) s := command_still fun _ t => by simp
theorem execSbFanSet_completes (rq : Req) (pulses : Nat) (s : State) :
    Completes (execSbFanSet rq pulses s) s := command_still fun _ t => by simp

/-! ### Switch -/

theorem execLocalCellOffer_completes (port cable : Nat) (c : Cell) (s : State) : Completes (execLocalCellOffer port cable c s) s := by
  refine run_completes fun t => .of_kept ?_
  split <;> simp

theorem execCellTimeMatch_completes (slot : Nat) (room : List Nat) (cut bank : Nat) (bad : List (Nat × Bool)) (s : State) :
    Completes (execCellTimeMatch slot room cut bank bad s) s := run_completes fun t => .of_kept (by simp)
theorem execVoqStarve_completes (inp outp tc : Nat) (s : State) :
    Completes (execVoqStarve inp outp tc s) s := run_completes fun t => .of_kept (by simp)
theorem execPlanSwitchShow_completes (rq : Req) (s : State) : Completes (execPlanSwitchShow rq s) s := command_still fun _ t => by simp
theorem execPlanSwitchPortShow_completes (rq : Req) (s : State) :
    Completes (execPlanSwitchPortShow rq s) s := command_still fun _ t => by simp
theorem execPlanSwitchVoqShow_completes (rq : Req) (s : State) :
    Completes (execPlanSwitchVoqShow rq s) s := command_still fun _ t => by simp
theorem execPlanSwitchClear_completes (rq : Req) (s : State) : Completes (execPlanSwitchClear rq s) s := command_still fun _ t => by simp

/-! ### System -/

theorem execSysPing_completes (rq : Req) (s : State) : Completes (execSysPing rq s) s := command_still fun _ t => by simp
theorem execSysEventRead_completes (rq : Req) (s : State) : Completes (execSysEventRead rq s) s := by
  refine command_still fun _ t => ?_
  dsimp only
  repeat' split
  all_goals simp

theorem execSysEventMask_completes (rq : Req) (s : State) : Completes (execSysEventMask rq s) s := by
  refine command_still fun _ t => ?_
  dsimp only
  split <;> simp

theorem execSysCmdResult_completes (rq : Req) (s : State) : Completes (execSysCmdResult rq s) s := by
  refine command_still fun _ t => ?_
  dsimp only
  repeat' split
  all_goals simp

theorem execSysCredChallenge_completes (rq : Req) (s : State) : Completes (execSysCredChallenge rq s) s := command_still fun _ t => by simp
theorem execSysCredOpen_completes (rq : Req) (s : State) : Completes (execSysCredOpen rq s) s := command_still fun _ t => by simp
theorem execSysCredClose_completes (rq : Req) (s : State) : Completes (execSysCredClose rq s) s := command_still fun _ t => by simp
theorem execSysTopoShow_completes (rq : Req) (s : State) : Completes (execSysTopoShow rq s) s := command_still fun _ t => by simp
theorem execSysTimeShow_completes (rq : Req) (s : State) : Completes (execSysTimeShow rq s) s := command_still fun _ t => by simp
theorem execSysFaultShow_completes (rq : Req) (s : State) : Completes (execSysFaultShow rq s) s := command_still fun _ t => by simp
theorem execSysFaultClear_completes (rq : Req) (s : State) : Completes (execSysFaultClear rq s) s := command_still fun _ t => by simp
theorem execSysReset_completes (rq : Req) (s : State) : Completes (execSysReset rq s) s := command_still fun _ t => by simp

/-! ### Time -/

theorem execDemandFreeze_completes (s : State) : Completes (execDemandFreeze s) s := slotRun_completes fun t => .of_kept (by simp)
theorem execLanePlanStart_completes (s : State) : Completes (execLanePlanStart s) s := slotRun_completes fun t => .of_kept (by simp)
theorem execLocalPlanStart_completes (s : State) : Completes (execLocalPlanStart s) s := by
  refine slotRun_completes fun t => .of_kept ?_
  dsimp only
  split <;> simp

theorem execTickCellSend_completes (s : State) : Completes (execTickCellSend s) s := slotRun_completes fun t => .of_kept (by simp)
theorem execTickCellDeadline_completes (s : State) : Completes (execTickCellDeadline s) s := slotRun_completes fun t => .of_kept (by simp)
theorem execLocalPlanDeadline_completes (s : State) : Completes (execLocalPlanDeadline s) s := slotRun_completes fun t => .of_kept (by simp)
theorem execTimeSyncTimeout_completes (port : Nat) (s : State) :
    Completes (execTimeSyncTimeout port s) s := run_completes fun t => .of_kept (by simp)
theorem execTimebasePhaseStep_completes (s : State) : Completes (execTimebasePhaseStep s) s := by
  refine run_completes fun t => .of_kept ?_
  split <;> simp

theorem execRefclkLossDetect_completes (s : State) : Completes (execRefclkLossDetect s) s := run_completes fun t => .of_kept (by simp)
theorem execHoldoverExpiry_completes (s : State) : Completes (execHoldoverExpiry s) s := run_completes fun t => .of_kept (by simp)
theorem execRefclkRestored_completes (s : State) : Completes (execRefclkRestored s) s := run_completes fun t => .of_kept (by simp)

/-! ### Trust -/

theorem execTrustShow_completes (rq : Req) (s : State) : Completes (execTrustShow rq s) s := command_still fun _ t => by simp
theorem execTrustKeyShow_completes (rq : Req) (s : State) : Completes (execTrustKeyShow rq s) s := by
  refine command_still fun _ t => ?_
  dsimp only
  repeat' split
  all_goals simp

theorem execTrustKeyInstall_completes (rq : Req) (s : State) : Completes (execTrustKeyInstall rq s) s := command_still fun _ t => by simp
theorem execTrustKeyRevoke_completes (rq : Req) (s : State) : Completes (execTrustKeyRevoke rq s) s := command_still fun _ t => by simp
theorem execTrustLifecycleAdvance_completes (rq : Req) (s : State) : Completes (execTrustLifecycleAdvance rq s) s := by
  refine command_still fun _ t => ?_
  dsimp only
  split <;> simp

theorem execTrustRollbackAdvance_completes (rq : Req) (s : State) :
    Completes (execTrustRollbackAdvance rq s) s := command_still fun _ t => by simp
theorem execTrustIdShow_completes (rq : Req) (s : State) : Completes (execTrustIdShow rq s) s := command_still fun _ t => by simp
theorem execTrustAcuShow_completes (rq : Req) (s : State) : Completes (execTrustAcuShow rq s) s := command_still fun _ t => by simp
theorem execTrustAcuLogShow_completes (rq : Req) (s : State) : Completes (execTrustAcuLogShow rq s) s := command_still fun _ t => by simp

/-! ### Upd -/

theorem execUpdShow_completes (rq : Req) (s : State) : Completes (execUpdShow rq s) s := command_still fun _ t => by simp
theorem execUpdStage_completes (rq : Req) (s : State) : Completes (execUpdStage rq s) s := command_still fun _ t => by simp
theorem execUpdVerify_completes (rq : Req) (s : State) : Completes (execUpdVerify rq s) s := command_still fun _ t => by simp
theorem execActivationQuiet_completes (s : State) : Completes (execActivationQuiet s) s := by
  refine run_completes fun t => .of_kept ?_
  dsimp only
  repeat' split
  all_goals simp

theorem execActivationWaitExpiry_completes (s : State) : Completes (execActivationWaitExpiry s) s := by
  refine run_completes fun t => .of_kept ?_
  split <;> simp

theorem execMgtHandoverReady_completes (s : State) : Completes (execMgtHandoverReady s) s := by
  refine run_completes fun t => .of_kept ?_
  split <;> simp

theorem execHandoverTimeout_completes (s : State) : Completes (execHandoverTimeout s) s := by
  refine run_completes fun t => .of_kept ?_
  split <;> simp

theorem execUpdCommit_completes (rq : Req) (s : State) : Completes (execUpdCommit rq s) s := command_still fun _ t => by simp
theorem execUpdKeymanPut_completes (rq : Req) (s : State) : Completes (execUpdKeymanPut rq s) s := command_still fun _ t => by simp
theorem execAutocommit_completes (s : State) : Completes (execAutocommit s) s := run_completes fun t => .of_kept (by simp)

end Sys2Proof.Machine

/-! Every command completes; the memory stays canonical -/
namespace Sys2Proof.Machine

/-- The commands of the supply pins, which have an effect while the hub has no power. -/
def ofSupply : Instr → Bool
  | .powerOnReset .. => true
  | .porstFall => true
  | .railDeadlineMiss => true
  | .railRestart => true
  | _ => false

theorem exec_completes {c : Instr} (hc : ofSupply c = false) (s : State) : Completes (exec c s) s := by
  cases c with
  | systemReset => exact execSystemReset_completes s
  | mgmtFirmwareReady => exact execMgmtFirmwareReady_completes s
  | lpddrTrainingDone ok rate gib mask => exact execLpddrTrainingDone_completes ok rate gib mask s
  | managementCoreReset cause => exact execManagementCoreReset_completes cause s
  | deferredReset => exact execDeferredReset_completes s
  | lockstepFault => exact execLockstepFault_completes s
  | mgtWatchdogTimeout => exact execMgtWatchdogTimeout_completes s
  | mgtTrap => exact execMgtTrap_completes s
  | pwrseqFault => exact execPwrseqFault_completes s
  | physeqFault port => exact execPhyseqFault_completes port s
  | coreBrownout => exact execCoreBrownout_completes s
  | thermalTrip => exact execThermalTrip_completes s
  | thermalRecovery => exact execThermalRecovery_completes s
  | spiWriteRequestFrame mosi => exact execSpiWriteRequestFrame_completes mosi s
  | spiReadReplyFrame => exact execSpiReadReplyFrame_completes s
  | spiWindowReadFrame offset count => exact execSpiWindowReadFrame_completes offset count s
  | resetCtlSystemReset via => exact execResetCtlSystemReset_completes via s
  | resetCtlMgmtCoreReset via => exact execResetCtlMgmtCoreReset_completes via s
  | registerWrite map off value => exact execRegisterWrite_completes map off value s
  | i3cPrivateWrite bs => exact execI3cPrivateWrite_completes bs s
  | i3cPrivateRead => exact execI3cPrivateRead_completes s
  | submit => exact execSubmit_completes s
  | release => exact execRelease_completes s
  | usbMbxBulkOut ep bs => exact execUsbMbxBulkOut_completes ep bs s
  | usbMbxBulkIn ep => exact execUsbMbxBulkIn_completes ep s
  | usbVendorStatus => exact execUsbVendorStatus_completes s
  | usbVendorWindowRead index len => exact execUsbVendorWindowRead_completes index len s
  | usbVendorWindowWrite index value => exact execUsbVendorWindowWrite_completes index value s
  | jtagDbgMbx frame => exact execJtagDbgMbx_completes frame s
  | peerMessage port bs => exact execPeerMessage_completes port bs s
  | forwardedReply port bs => exact execForwardedReply_completes port bs s
  | forwardTimeout port tag => exact execForwardTimeout_completes port tag s
  | mbxReplyBackstop index => exact execMbxReplyBackstop_completes index s
  | longCommandFinish via handle ok => exact execLongCommandFinish_completes via handle ok s
  | completionHandleLapse chan handle => exact execCompletionHandleLapse_completes chan handle s
  | credIdleLapse chan handle => exact execCredIdleLapse_completes chan handle s
  | watchdogExpiry => exact execWatchdogExpiry_completes s
  | function7Reset usb => exact execFunction7Reset_completes usb s
  | adapterEndDeferredApply adapter => exact execAdapterEndDeferredApply_completes adapter s
  | sysPing rq => exact execSysPing_completes rq s
  | sysEventRead rq => exact execSysEventRead_completes rq s
  | sysEventMask rq => exact execSysEventMask_completes rq s
  | sysCmdResult rq => exact execSysCmdResult_completes rq s
  | sysCredChallenge rq => exact execSysCredChallenge_completes rq s
  | sysCredOpen rq => exact execSysCredOpen_completes rq s
  | sysCredClose rq => exact execSysCredClose_completes rq s
  | sysTopoShow rq => exact execSysTopoShow_completes rq s
  | sysTimeShow rq => exact execSysTimeShow_completes rq s
  | sysFaultShow rq => exact execSysFaultShow_completes rq s
  | sysFaultClear rq => exact execSysFaultClear_completes rq s
  | sysReset rq => exact execSysReset_completes rq s
  | cfgRecordStage rq => exact execCfgRecordStage_completes rq s
  | cfgRecordApply rq => exact execCfgRecordApply_completes rq s
  | cfgRecordShow rq => exact execCfgRecordShow_completes rq s
  | cfgReportShow rq => exact execCfgReportShow_completes rq s
  | cfgOverrideClear rq => exact execCfgOverrideClear_completes rq s
  | cfgStoreCommit rq => exact execCfgStoreCommit_completes rq s
  | cfgStoreCommitDone ok => exact execCfgStoreCommitDone_completes ok s
  | cfgStoreShow rq => exact execCfgStoreShow_completes rq s
  | tickBoundary readings pOut margin steps lanes => exact execTickBoundary_completes readings pOut margin steps lanes s
  | demandFreeze => exact execDemandFreeze_completes s
  | lanePlanStart => exact execLanePlanStart_completes s
  | localPlanStart => exact execLocalPlanStart_completes s
  | tickCellSend => exact execTickCellSend_completes s
  | tickCellDeadline => exact execTickCellDeadline_completes s
  | localPlanDeadline => exact execLocalPlanDeadline_completes s
  | timeSyncTimeout port => exact execTimeSyncTimeout_completes port s
  | timebasePhaseStep => exact execTimebasePhaseStep_completes s
  | refclkLossDetect => exact execRefclkLossDetect_completes s
  | holdoverExpiry => exact execHoldoverExpiry_completes s
  | refclkRestored => exact execRefclkRestored_completes s
  | laneTrainingStart port => exact execLaneTrainingStart_completes port s
  | trainingStepEnd port res peer => exact execTrainingStepEnd_completes port res peer s
  | trainingRestartDelay port => exact execTrainingRestartDelay_completes port s
  | floorRetrain port => exact execFloorRetrain_completes port s
  | turnaround port lane adapted => exact execTurnaround_completes port lane adapted s
  | sosWindowMiss port lane cause => exact execSosWindowMiss_completes port lane cause s
  | l1xComplete port lane ok => exact execL1xComplete_completes port lane ok s
  | recalTrigger port lane trig => exact execRecalTrigger_completes port lane trig s
  | recalDeferExpiry port lane => exact execRecalDeferExpiry_completes port lane s
  | recalStepEnd port lane res => exact execRecalStepEnd_completes port lane res s
  | laneRestoreRetry port => exact execLaneRestoreRetry_completes port s
  | signalLoss port => exact execSignalLoss_completes port s
  | prbsTestEnd port lane counts => exact execPrbsTestEnd_completes port lane counts s
  | linkLaneShow rq => exact execLinkLaneShow_completes rq s
  | linkLanePrbs rq => exact execLinkLanePrbs_completes rq s
  | linkLaneInject rq => exact execLinkLaneInject_completes rq s
  | linkLaneRecal rq => exact execLinkLaneRecal_completes rq s
  | linkLaneRetire rq => exact execLinkLaneRetire_completes rq s
  | linkLaneRestore rq => exact execLinkLaneRestore_completes rq s
  | linkLaneClear rq => exact execLinkLaneClear_completes rq s
  | cellReceive port lane c errs ctr old tag => exact execCellReceive_completes port lane c errs ctr old tag s
  | coachReceive port lane tag => exact execCoachReceive_completes port lane tag s
  | creditCell port es => exact execCreditCell_completes port es s
  | tickCell port plan => exact execTickCell_completes port plan s
  | demandCell port d => exact execDemandCell_completes port d s
  | timeSyncCell port typ lane a b c arrived sent => exact execTimeSyncCell_completes port typ lane a b c arrived sent s
  | hello port h => exact execHello_completes port h s
  | elect port master own => exact execElect_completes port master own s
  | keyInit port bytes => exact execKeyInit_completes port bytes s
  | keyResp port bytes => exact execKeyResp_completes port bytes s
  | keyFinish port bytes => exact execKeyFinish_completes port bytes s
  | keyAgreementTimeout port => exact execKeyAgreementTimeout_completes port s
  | keyRotationStart port => exact execKeyRotationStart_completes port s
  | keyNext port dir index tick => exact execKeyNext_completes port dir index tick s
  | keyNextAck port dir index => exact execKeyNextAck_completes port dir index s
  | keyEffectiveTick port => exact execKeyEffectiveTick_completes port s
  | keyIndexRetire port => exact execKeyIndexRetire_completes port s
  | pathSetup port id label tc hops dst cut contract credit => exact execPathSetup_completes port id label tc hops dst cut contract credit s
  | pathAck port id label credit => exact execPathAck_completes port id label credit s
  | pathNack port id reason => exact execPathNack_completes port id reason s
  | pathTeardown port label => exact execPathTeardown_completes port label s
  | laneNotice port lane event use => exact execLaneNotice_completes port lane event use s
  | masterQuery port => exact execMasterQuery_completes port s
  | linkClose port cause => exact execLinkClose_completes port cause s
  | chainNotice port n => exact execChainNotice_completes port n s
  | linkCtrlUnknown port => exact execLinkCtrlUnknown_completes port s
  | gapTimeout port label => exact execGapTimeout_completes port label s
  | replayTimeout port label => exact execReplayTimeout_completes port label s
  | linkTTimeout port => exact execLinkTTimeout_completes port s
  | bringupRestart port => exact execBringupRestart_completes port s
  | masterLossTimeout port => exact execMasterLossTimeout_completes port s
  | masterQueryTimeout port => exact execMasterQueryTimeout_completes port s
  | pathHoldExpiry port => exact execPathHoldExpiry_completes port s
  | pathSetupTimeout port label => exact execPathSetupTimeout_completes port label s
  | linkShow rq => exact execLinkShow_completes rq s
  | linkPlanShow rq => exact execLinkPlanShow_completes rq s
  | linkRekey rq => exact execLinkRekey_completes rq s
  | linkReset rq => exact execLinkReset_completes rq s
  | pathOpen rq => exact execPathOpen_completes rq s
  | pathClose rq => exact execPathClose_completes rq s
  | pathShow rq => exact execPathShow_completes rq s
  | localCellOffer port cable c => exact execLocalCellOffer_completes port cable c s
  | cellTimeMatch slot room cut bank bad => exact execCellTimeMatch_completes slot room cut bank bad s
  | voqStarve inp outp tc => exact execVoqStarve_completes inp outp tc s
  | planSwitchShow rq => exact execPlanSwitchShow_completes rq s
  | planSwitchPortShow rq => exact execPlanSwitchPortShow_completes rq s
  | planSwitchVoqShow rq => exact execPlanSwitchVoqShow_completes rq s
  | planSwitchClear rq => exact execPlanSwitchClear_completes rq s
  | plannerRefresh => exact execPlannerRefresh_completes s
  | plannerRefreshLapse => exact execPlannerRefreshLapse_completes s
  | plannerHoldExpiry => exact execPlannerHoldExpiry_completes s
  | planShow rq => exact execPlanShow_completes rq s
  | planBudgetShow rq => exact execPlanBudgetShow_completes rq s
  | planBudgetSet rq => exact execPlanBudgetSet_completes rq s
  | planContractSet rq => exact execPlanContractSet_completes rq s
  | planContractClear rq => exact execPlanContractClear_completes rq s
  | planContractShow rq => exact execPlanContractShow_completes rq s
  | planShaperSet rq => exact execPlanShaperSet_completes rq s
  | planSampleShow rq => exact execPlanSampleShow_completes rq s
  | planCostShow rq => exact execPlanCostShow_completes rq s
  | sinkLinkTraining dpx rate lanes => exact execSinkLinkTraining_completes dpx rate lanes s
  | captureLine dpx index desc line stamp pixels sdps audio => exact execCaptureLine_completes dpx index desc line stamp pixels sdps audio s
  | panelHpdChange dpx level panelMax lo hi lttprs blocks works => exact execPanelHpdChange_completes dpx level panelMax lo hi lttprs blocks works s
  | panelHpdLossTimeout dpx => exact execPanelHpdLossTimeout_completes dpx s
  | chunkReceive stream audio bytes => exact execChunkReceive_completes stream audio bytes s
  | frameStart stream => exact execFrameStart_completes stream s
  | lineDue stream line err need audio => exact execLineDue_completes stream line err need audio s
  | auxTransaction dpx cmd addr len vstream data => exact execAuxTransaction_completes dpx cmd addr len vstream data s
  | auxReq dpx cseq cmd addr vstream data => exact execAuxReq_completes dpx cseq cmd addr vstream data s
  | auxRep dpx cseq reply rdata => exact execAuxRep_completes dpx cseq reply rdata s
  | mirror dpx cseq addr data => exact execMirror_completes dpx cseq addr data s
  | hpd dpx cseq level irq => exact execHpd_completes dpx cseq level irq s
  | skipReq dpx cseq vstream k => exact execSkipReq_completes dpx cseq vstream k s
  | controlAck dpx cseq => exact execControlAck_completes dpx cseq s
  | controlResendTimeout dpx cseq => exact execControlResendTimeout_completes dpx cseq s
  | auxFwdTimeout dpx => exact execAuxFwdTimeout_completes dpx s
  | holdGapExpiry stream => exact execHoldGapExpiry_completes stream s
  | holdMaxExpiry stream => exact execHoldMaxExpiry_completes stream s
  | dispShow rq => exact execDispShow_completes rq s
  | dispStreamOpen rq => exact execDispStreamOpen_completes rq s
  | dispStreamClose rq => exact execDispStreamClose_completes rq s
  | dispStreamShow rq => exact execDispStreamShow_completes rq s
  | dispHoldOverlay rq => exact execDispHoldOverlay_completes rq s
  | dispHoldEnter rq => exact execDispHoldEnter_completes rq s
  | dispPairSet rq => exact execDispPairSet_completes rq s
  | dispAuxXfer rq => exact execDispAuxXfer_completes rq s
  | dispClear rq => exact execDispClear_completes rq s
  | configRequest fn reg write rid tag => exact execConfigRequest_completes fn reg write rid tag s
  | tlpIngress link t errs replays cor => exact execTlpIngress_completes link t errs replays cor s
  | pcieTlpFrame pciEnd bridge t => exact execPcieTlpFrame_completes pciEnd bridge t s
  | pcieCreditFrame pciEnd bridge limits => exact execPcieCreditFrame_completes pciEnd bridge limits s
  | pciePortStateFrame pciEnd bridge lnkCap lnkSta sltSta aerUnc aerCor => exact execPciePortStateFrame_completes pciEnd bridge lnkCap lnkSta sltSta aerUnc aerCor s
  | pciePortCtrlFrame dp bridge lnkCtl sltCtl devCtl brCtl routing => exact execPciePortCtrlFrame_completes dp bridge lnkCtl sltCtl devCtl brCtl routing s
  | pcieResumeFrame pciEnd bridge flag => exact execPcieResumeFrame_completes pciEnd bridge flag s
  | pcieHoldExpiry pciEnd => exact execPcieHoldExpiry_completes pciEnd s
  | hotResetEnd link => exact execHotResetEnd_completes link s
  | pciePhysLinkTrained link rate width => exact execPciePhysLinkTrained_completes link rate width s
  | pciePhysLinkDown link present => exact execPciePhysLinkDown_completes link present s
  | upstreamPerst => exact execUpstreamPerst_completes s
  | cplAgeCheck pciEnd => exact execCplAgeCheck_completes pciEnd s
  | pcieShow rq => exact execPcieShow_completes rq s
  | pciePortBind rq => exact execPciePortBind_completes rq s
  | pciePortUnbind rq => exact execPciePortUnbind_completes rq s
  | pcieBridgeShow rq => exact execPcieBridgeShow_completes rq s
  | pcieSlotPower rq => exact execPcieSlotPower_completes rq s
  | pcieClear rq => exact execPcieClear_completes rq s
  | hostUsbTransaction tx => exact execHostUsbTransaction_completes tx s
  | usbXferReq f periodic pkts outcome => exact execUsbXferReq_completes f periodic pkts outcome s
  | usbXferData root f outcome => exact execUsbXferData_completes root f outcome s
  | usbXferDone root f => exact execUsbXferDone_completes root f s
  | usbPortCtrlFrame f => exact execUsbPortCtrlFrame_completes f s
  | remotePortResetEnd port speed => exact execRemotePortResetEnd_completes port speed s
  | usbPortStateFrame root f => exact execUsbPortStateFrame_completes root f s
  | usbBusStateFrame state => exact execUsbBusStateFrame_completes state s
  | usbWakeFrame root port => exact execUsbWakeFrame_completes root port s
  | usbIsoData root f interval => exact execUsbIsoData_completes root f interval s
  | usbPeriodicPoll port addr ep dirIn iso hidClass data => exact execUsbPeriodicPoll_completes port addr ep dirIn iso hidClass data s
  | deviceRemoteWake port => exact execDeviceRemoteWake_completes port s
  | remoteResumeEnd port => exact execRemoteResumeEnd_completes port s
  | usbUpstreamLinkChange ev speed => exact execUsbUpstreamLinkChange_completes ev speed s
  | deviceFunctionBusReset => exact execDeviceFunctionBusReset_completes s
  | keepaliveIdleSuspend port => exact execKeepaliveIdleSuspend_completes port s
  | keepaliveTimeout => exact execKeepaliveTimeout_completes s
  | usbShow rq => exact execUsbShow_completes rq s
  | usbPortShow rq => exact execUsbPortShow_completes rq s
  | usbPortPower rq => exact execUsbPortPower_completes rq s
  | usbKeepaliveShow rq => exact execUsbKeepaliveShow_completes rq s
  | usbClear rq => exact execUsbClear_completes rq s
  | macFrameReceive mac frame => exact execMacFrameReceive_completes mac frame s
  | macLinkChange mac up speed => exact execMacLinkChange_completes mac up speed s
  | netTxFetch queue descs frame => exact execNetTxFetch_completes queue descs frame s
  | netTailWrite off value => exact execNetTailWrite_completes off value s
  | netEnableWrite ctrl d3hot pmeEn => exact execNetEnableWrite_completes ctrl d3hot pmeEn s
  | netWriteBack => exact execNetWriteBack_completes s
  | netTunnelFrame label mac group held ecn hash bufs frame => exact execNetTunnelFrame_completes label mac group held ecn hash bufs frame s
  | presence present mac addr => exact execPresence_completes present mac addr s
  | wake source => exact execWake_completes source s
  | linkState mac up speed maxFrame => exact execLinkState_completes mac up speed maxFrame s
  | flowAgeSweep bucket => exact execFlowAgeSweep_completes bucket s
  | wakeBufferTimeout => exact execWakeBufferTimeout_completes s
  | netShow rq => exact execNetShow_completes rq s
  | netBind rq => exact execNetBind_completes rq s
  | netGroupSet rq => exact execNetGroupSet_completes rq s
  | netRuleSet rq => exact execNetRuleSet_completes rq s
  | netFlowSet rq => exact execNetFlowSet_completes rq s
  | netFlowShow rq => exact execNetFlowShow_completes rq s
  | netMeterSet rq => exact execNetMeterSet_completes rq s
  | netPresenceSet rq => exact execNetPresenceSet_completes rq s
  | netPresenceShow rq => exact execNetPresenceShow_completes rq s
  | netClear rq => exact execNetClear_completes rq s
  | sbXferFrame port num route xfer => exact execSbXferFrame_completes port num route xfer s
  | sbXferRep port num reply => exact execSbXferRep_completes port num reply s
  | sbLockFrame port num route holder => exact execSbLockFrame_completes port num route holder s
  | sbLockRep port num outcome handle => exact execSbLockRep_completes port num outcome handle s
  | sbUnlockFrame port handle lapsed => exact execSbUnlockFrame_completes port handle lapsed s
  | sbWound port holder => exact execSbWound_completes port holder s
  | sbIrq port line level => exact execSbIrq_completes port line level s
  | i2cTargetTransaction intf addr reads write => exact execI2cTargetTransaction_completes intf addr reads write s
  | sbHoldExpiry intf addr => exact execSbHoldExpiry_completes intf addr s
  | sbArbitrationLost kind intf => exact execSbArbitrationLost_completes kind intf s
  | sbSdaStuck kind intf => exact execSbSdaStuck_completes kind intf s
  | sbLockLeaseExpiry handle => exact execSbLockLeaseExpiry_completes handle s
  | sbLockWaitExpiry waiter => exact execSbLockWaitExpiry_completes waiter s
  | sbIrqSourceEdge source => exact execSbIrqSourceEdge_completes source s
  | fanTachFault fan pulses => exact execFanTachFault_completes fan pulses s
  | uartReceive idx bytes => exact execUartReceive_completes idx bytes s
  | sbShow rq => exact execSbShow_completes rq s
  | sbRouteSet rq => exact execSbRouteSet_completes rq s
  | sbRouteShow rq => exact execSbRouteShow_completes rq s
  | sbXfer rq => exact execSbXfer_completes rq s
  | sbLock rq => exact execSbLock_completes rq s
  | sbUnlock rq => exact execSbUnlock_completes rq s
  | sbIrqRead rq => exact execSbIrqRead_completes rq s
  | sbIrqMask rq => exact execSbIrqMask_completes rq s
  | sbFanSet rq pulses => exact execSbFanSet_completes rq pulses s
  | memoryAccess master kind addr len data debug waits ecc drains collides user => exact execMemoryAccess_completes master kind addr len data debug waits ecc drains collides user s
  | fence master => exact execFence_completes master s
  | lpddrPatrolScrub addr ecc => exact execLpddrPatrolScrub_completes addr ecc s
  | dqsDriftCheck channel => exact execDqsDriftCheck_completes channel s
  | lpddrRefresh bank => exact execLpddrRefresh_completes bank s
  | memShow rq => exact execMemShow_completes rq s
  | memMasterShow rq => exact execMemMasterShow_completes rq s
  | memMapShow rq => exact execMemMapShow_completes rq s
  | memClear rq => exact execMemClear_completes rq s
  | memInject rq => exact execMemInject_completes rq s
  | serviceSlice core uses => exact execServiceSlice_completes core uses s
  | woeriYield inst => exact execWoeriYield_completes inst s
  | woeriWait inst timer events => exact execWoeriWait_completes inst timer events s
  | woeriHeartbeat inst => exact execWoeriHeartbeat_completes inst s
  | woeriDmaCopy inst srcArea srcOff dstArea dstOff len => exact execWoeriDmaCopy_completes inst srcArea srcOff dstArea dstOff len s
  | woeriFrameSend inst path frame => exact execWoeriFrameSend_completes inst path frame s
  | woeriFrameReceive inst path frame => exact execWoeriFrameReceive_completes inst path frame s
  | gateSubmit inst request => exact execGateSubmit_completes inst request s
  | gateResult inst => exact execGateResult_completes inst s
  | woeriWakeRequest inst reason => exact execWoeriWakeRequest_completes inst reason s
  | woeriTimeRead inst core => exact execWoeriTimeRead_completes inst core s
  | instanceWatchdog inst => exact execInstanceWatchdog_completes inst s
  | instanceRestart inst => exact execInstanceRestart_completes inst s
  | coreHeartbeatLoss core => exact execCoreHeartbeatLoss_completes core s
  | displayHoldOverlayOn dpx on src x y w h repl => exact execDisplayHoldOverlayOn_completes dpx on src x y w h repl s
  | dhStatusRedraw dpx pixels => exact execDhStatusRedraw_completes dpx pixels s
  | netPresenceRules absent => exact execNetPresenceRules_completes absent s
  | dhcpRenewal index renewal v4lost v6lost => exact execDhcpRenewal_completes index renewal v4lost v6lost s
  | keepaliveHidWake overflow => exact execKeepaliveHidWake_completes overflow s
  | fleetReport answered => exact execFleetReport_completes answered s
  | svcShow rq => exact execSvcShow_completes rq s
  | svcStage rq => exact execSvcStage_completes rq s
  | svcInstall rq => exact execSvcInstall_completes rq s
  | svcRemove rq => exact execSvcRemove_completes rq s
  | svcStart rq => exact execSvcStart_completes rq s
  | svcStop rq => exact execSvcStop_completes rq s
  | svcInstanceShow rq => exact execSvcInstanceShow_completes rq s
  | svcCoreDrain rq => exact execSvcCoreDrain_completes rq s
  | svcCoreAdmit rq => exact execSvcCoreAdmit_completes rq s
  | svcDataPut rq => exact execSvcDataPut_completes rq s
  | ccAttach chan a5 b5 heldMs vbus => exact execCcAttach_completes chan a5 b5 heldMs vbus s
  | ccDetach chan heldMs vbusGone => exact execCcDetach_completes chan heldMs vbusGone s
  | drpToggle chan trying => exact execDrpToggle_completes chan trying s
  | pdMessageReceive chan m => exact execPdMessageReceive_completes chan m s
  | goodcrcTimeout chan => exact execGoodcrcTimeout_completes chan s
  | queuedResponseTimeout chan => exact execQueuedResponseTimeout_completes chan s
  | sinkTxExpiry chan => exact execSinkTxExpiry_completes chan s
  | askTimeout chan => exact execAskTimeout_completes chan s
  | srcTransitionExpiry chan => exact execSrcTransitionExpiry_completes chan s
  | snkRequestWaitExpiry chan => exact execSnkRequestWaitExpiry_completes chan s
  | pdTransitionTimeout chan which => exact execPdTransitionTimeout_completes chan which s
  | hardResetReceived chan => exact execHardResetReceived_completes chan s
  | srcRecoverExpiry chan => exact execSrcRecoverExpiry_completes chan s
  | eprKeepaliveTimer chan => exact execEprKeepaliveTimer_completes chan s
  | eprKeepaliveTimeout chan => exact execEprKeepaliveTimeout_completes chan s
  | errorRecoveryEnd chan => exact execErrorRecoveryEnd_completes chan s
  | vconnOvercurrent chan => exact execVconnOvercurrent_completes chan s
  | enterModeRetry chan => exact execEnterModeRetry_completes chan s
  | cpwrShow rq => exact execCpwrShow_completes rq s
  | cpwrCapsSet rq => exact execCpwrCapsSet_completes rq s
  | cpwrRequest rq => exact execCpwrRequest_completes rq s
  | cpwrAnswer rq => exact execCpwrAnswer_completes rq s
  | cpwrSwap rq => exact execCpwrSwap_completes rq s
  | cpwrHardreset rq => exact execCpwrHardreset_completes rq s
  | cpwrModeEnter rq => exact execCpwrModeEnter_completes rq s
  | cpwrMuxSet rq => exact execCpwrMuxSet_completes rq s
  | cpwrDiscoverShow rq => exact execCpwrDiscoverShow_completes rq s
  | cpwrMsgSend rq => exact execCpwrMsgSend_completes rq s
  | cpwrMsgRecv rq => exact execCpwrMsgRecv_completes rq s
  | feedPresent feed mv ma heldMs => exact execFeedPresent_completes feed mv ma heldMs s
  | feedAbsent feed mv heldUs reverse => exact execFeedAbsent_completes feed mv heldUs reverse s
  | feedShareUpdate mv0 ma0 mv1 ma1 => exact execFeedShareUpdate_completes mv0 ma0 mv1 ma1 s
  | feedOverload feed ma heldMs => exact execFeedOverload_completes feed ma heldMs s
  | vbusSettled switch mv ma heldMs => exact execVbusSettled_completes switch mv ma heldMs s
  | vbusSwitchFault switch heldMs trip => exact execVbusSwitchFault_completes switch heldMs trip s
  | vbusRetryExpiry switch => exact execVbusRetryExpiry_completes switch s
  | bayShortPinClose bay => exact execBayShortPinClose_completes bay s
  | bayShortPinOpen bay => exact execBayShortPinOpen_completes bay s
  | baySeatDebounce bay => exact execBaySeatDebounce_completes bay s
  | bayCurrentLimit bay reached samples mv ma => exact execBayCurrentLimit_completes bay reached samples mv ma s
  | bayFaultTimer bay samples => exact execBayFaultTimer_completes bay samples s
  | bayBreaker bay ma => exact execBayBreaker_completes bay ma s
  | bayRampTimeout bay vin => exact execBayRampTimeout_completes bay vin s
  | bayPgRise bay vin mv ma heldUs enhanced => exact execBayPgRise_completes bay vin mv ma heldUs enhanced s
  | bayPgFall bay vin mv => exact execBayPgFall_completes bay vin mv s
  | bayRetryExpiry bay => exact execBayRetryExpiry_completes bay s
  | bayRetriesRestore bay => exact execBayRetriesRestore_completes bay s
  | bayPerstRelease bay => exact execBayPerstRelease_completes bay s
  | fetTempUpdate bay diode tref vin mv ma => exact execFetTempUpdate_completes bay diode tref vin mv ma s
  | ppathShow rq => exact execPpathShow_completes rq s
  | ppathBayShow rq => exact execPpathBayShow_completes rq s
  | ppathBayPower rq => exact execPpathBayPower_completes rq s
  | ppathVbusShow rq => exact execPpathVbusShow_completes rq s
  | ppathClear rq => exact execPpathClear_completes rq s
  | pstateSet rq => exact execPstateSet_completes rq s
  | pstateShow rq => exact execPstateShow_completes rq s
  | idleEntry => exact execIdleEntry_completes s
  | phaseSStart => exact execPhaseSStart_completes s
  | phasePStart => exact execPhasePStart_completes s
  | entryTimeout => exact execEntryTimeout_completes s
  | wakeSource source cycles latched bad => exact execWakeSource_completes source cycles latched bad s
  | retainExitComplete => exact execRetainExitComplete_completes s
  | trustShow rq => exact execTrustShow_completes rq s
  | trustKeyShow rq => exact execTrustKeyShow_completes rq s
  | trustKeyInstall rq => exact execTrustKeyInstall_completes rq s
  | trustKeyRevoke rq => exact execTrustKeyRevoke_completes rq s
  | trustLifecycleAdvance rq => exact execTrustLifecycleAdvance_completes rq s
  | trustRollbackAdvance rq => exact execTrustRollbackAdvance_completes rq s
  | trustIdShow rq => exact execTrustIdShow_completes rq s
  | trustAcuShow rq => exact execTrustAcuShow_completes rq s
  | trustAcuSet rq => exact execTrustAcuSet_completes rq s
  | trustAcuLogShow rq => exact execTrustAcuLogShow_completes rq s
  | updShow rq => exact execUpdShow_completes rq s
  | updStage rq => exact execUpdStage_completes rq s
  | updVerify rq => exact execUpdVerify_completes rq s
  | updActivate rq => exact execUpdActivate_completes rq s
  | activationQuiet => exact execActivationQuiet_completes s
  | activationWaitExpiry => exact execActivationWaitExpiry_completes s
  | mgtHandoverReady => exact execMgtHandoverReady_completes s
  | handoverTimeout => exact execHandoverTimeout_completes s
  | updRevert rq => exact execUpdRevert_completes rq s
  | updCommit rq => exact execUpdCommit_completes rq s
  | updKeymanPut rq => exact execUpdKeymanPut_completes rq s
  | autocommit => exact execAutocommit_completes s
  | checkpoint => exact execCheckpoint_completes s
  | sporeBufferRoom => exact execSporeBufferRoom_completes s
  | recPostTriggerExpiry => exact execRecPostTriggerExpiry_completes s
  | replayFinish diverged slot tick => exact execReplayFinish_completes diverged slot tick s
  | recShow rq => exact execRecShow_completes rq s
  | recFreeze rq => exact execRecFreeze_completes rq s
  | recRead rq => exact execRecRead_completes rq s
  | recReplay rq => exact execRecReplay_completes rq s
  | dbgShow rq => exact execDbgShow_completes rq s
  | dbgMemRead rq => exact execDbgMemRead_completes rq s
  | dbgMemWrite rq => exact execDbgMemWrite_completes rq s
  | jtagIdcode => exact execJtagIdcode_completes s
  | jtagExtest sampled update => exact execJtagExtest_completes sampled update s
  | jtagSamplePreload sampled preload => exact execJtagSamplePreload_completes sampled preload s
  | jtagDbgAp op addr len data core => exact execJtagDbgAp_completes op addr len data core s
  | jtagBypass => exact execJtagBypass_completes s
  | pmeToAckTimeout => exact execPmeToAckTimeout_completes s
  | inBandPresenceChange port present => exact execInBandPresenceChange_completes port present s
  | busTransactionComplete kind intf result data => exact execBusTransactionComplete_completes kind intf result data s
  | panelAuxReply dpx reply rdata => exact execPanelAuxReply_completes dpx reply rdata s
  | selfRefreshExitCheckDone ok => exact execSelfRefreshExitCheckDone_completes ok s
  | senderResponseTimeout chan => exact execSenderResponseTimeout_completes chan s
  | clusterDmaComplete inst => exact execClusterDmaComplete_completes inst s
  | powerOnReset _ _ => exact absurd hc.symm Bool.false_ne_true
  | porstFall => exact absurd hc.symm Bool.false_ne_true
  | railDeadlineMiss => exact absurd hc.symm Bool.false_ne_true
  | railRestart => exact absurd hc.symm Bool.false_ne_true

theorem runAlways_keeps {s : State} {f : State → State} (h : ∀ t : State, t.Keeps (f t)) : ∃ t, runAlways s f = .next t ∧ s.Keeps t :=
  ⟨_, rfl, (State.Keeps.of_kept s.begin_kept).trans (h _)⟩

theorem execRailDeadlineMiss_keeps (s : State) : ∃ t, execRailDeadlineMiss s = .next t ∧ s.Keeps t :=
  runAlways_keeps fun t => .ite (.refl t) (.of_kept (State.kept_congr rfl rfl))

theorem execRailRestart_keeps (s : State) : ∃ t, execRailRestart s = .next t ∧ s.Keeps t :=
  runAlways_keeps fun t => .ite (.refl t) (.of_kept (State.kept_congr rfl rfl))

/-- The supply pins keep the queue, and a canonical memory canonical. -/
theorem exec_keeps_of_supply {c : Instr} (h : ofSupply c = true) (s : State) : ∃ t, exec c s = .next t ∧ s.Keeps t := by
  cases c with
  | powerOnReset mbxSel i3cAddr => exact runAlways_keeps fun t => t.powerOn_keeps mbxSel i3cAddr
  | porstFall => exact runAlways_keeps fun t => t.powerLost_keeps
  | railDeadlineMiss => exact execRailDeadlineMiss_keeps s
  | railRestart => exact execRailRestart_keeps s
  | _ => exact absurd h Bool.false_ne_true

theorem exec_keeps (c : Instr) (s : State) : ∃ t, exec c s = .next t ∧ s.Keeps t := by
  cases h : ofSupply c
  · exact (exec_completes h s).keeps
  · exact exec_keeps_of_supply h s

/-- Settles O2: each command keeps the queue, and all but those of the supply pins need power. -/
theorem everyCommandCompletes : Obligations.EveryCommandCompletes := by
  refine ⟨fun c s => ?_, fun c s hp hon hfall hmiss hre => ?_⟩
  · obtain ⟨t, ht, hk⟩ := exec_keeps c s
    exact ⟨t, ht, hk.pending⟩
  · have h : ofSupply c = false := by
      unfold ofSupply
      split
      · exact absurd rfl (hon _ _)
      · exact absurd rfl hfall
      · exact absurd rfl hmiss
      · exact absurd rfl hre
      · rfl
    exact (exec_completes h s).idles hp

/-- Settles O3: a step idles or executes a command, and every command keeps the canonical form. -/
theorem memoryStaysCanonical : Obligations.MemoryStaysCanonical := by
  intro s t hm h
  obtain ⟨hfront, hidle⟩ := stepTakesTheFront
  rcases hp : s.pending with _ | ⟨c, rest⟩
  · rw [hidle s hp] at h
    cases h
    exact hm
  · have hs : s = { s with pending := c :: rest } := by rw [← hp]
    rw [hs, hfront c rest s] at h
    obtain ⟨u, hu, hk⟩ := exec_keeps c { s with pending := rest }
    rw [hu] at h
    cases h
    exact hk.mem hm

end Sys2Proof.Machine

/-! A fuse that an installation unblows: the check bits of a slot's word are written over what is blown in it. -/
namespace Sys2Proof.Machine

theorem leNat_lt (bs : List Byte) : leNat bs < 256 ^ bs.length := by
  induction bs with
  | nil => simp [leNat]
  | cons b bs ih =>
    have hb := b.isLt
    simp only [leNat, List.length_cons, Nat.pow_succ]
    omega

theorem beNat_lt (bs : List Byte) : beNat bs < 256 ^ bs.length := by
  simpa [beNat] using leNat_lt bs.reverse

theorem slotCheck_lt (k cls : Nat) (content : List Byte) : slotCheck k cls content < 2 ^ 28 := by
  unfold slotCheck firstBits
  generalize sha384 (leBytes 1 k ++ leBytes 1 cls ++ content) = d
  have h := beNat_lt (d.take ((28 + 7) / 8))
  have hpow := Nat.pow_le_pow_right (n := 256) (by omega) (List.length_take_le ((28 + 7) / 8) d)
  exact Nat.div_lt_of_lt_mul (by omega)

theorem State.writeSlot_slots (s : State) (k cls : Nat) (content : List Byte) :
    (s.writeSlot k cls content).trust.slots = put s.trust.slots k
      ⟨BitVec.ofNat 256 (leNat content), BitVec.ofNat 32 (2 ^ 31 + cls % 8 * 2 ^ 28 + slotCheck k cls content)⟩ := by
  simp [State.writeSlot, State.setSlot]

/-- The end of an installation writes the slot's content again, and its word anew. -/
theorem State.finishFuses_slots {s : State} {k cls : Nat} (h : s.trust.work = some (.install k cls)) (via : Via) (handle : Nat) :
    (s.finishFuses via handle true).trust.slots = put s.trust.slots k
      ⟨BitVec.ofNat 256 (leNat (s.slot k).bytes), BitVec.ofNat 32 (2 ^ 31 + cls % 8 * 2 ^ 28 + slotCheck k cls (s.slot k).bytes)⟩ := by
  unfold State.finishFuses
  rw [h]
  simp only [if_true, State.finishRc_trust, State.writeSlot_slots]
  rfl

/-- The completion of a long command on the fuses is the end of their work. -/
theorem execLongCommandFinish_fuses {s : State} {via : Via} {handle : Nat} {ok : Bool} {j : Job} (hs : s.awake = true)
    (hj : (s.chan (viaChan via)).jobs.find? (fun j => j.handle == handle && j.result == none) = some j)
    (hop : 0x1003 ≤ j.opcode ∧ j.opcode ≤ 0x1006) :
    Gives (.longCommandFinish via handle ok) s (· = s.begin.finishFuses via handle ok) := by
  have he : exec (.longCommandFinish via handle ok) s = execLongCommandFinish via handle ok s := rfl
  rw [execLongCommandFinish] at he
  refine gives_of_run he hs ?_
  have hb : (s.begin.chan (viaChan via)).jobs.find? (fun j => j.handle == handle && j.result == none) = some j := by
    rwa [State.begin_chan]
  simp only [hb, hop, decide_true, Bool.and_self, if_true]

/-- A word of class 0 has bit 30 clear. -/
theorem word_bit30 {n : Nat} (h : n < 2 ^ 28) : (BitVec.ofNat 32 (2 ^ 31 + n)).getLsbD 30 = false := by
  have hn : n.testBit 30 = false := Nat.testBit_lt_two_pow (by omega)
  rw [BitVec.getLsbD_ofNat, Nat.testBit_two_pow_add_gt (by omega), hn, Bool.and_false]

theorem State.finishFuses_bit30 {s : State} {k : Nat} (h : s.trust.work = some (.install k 0)) (hk : k < s.trust.slots.length)
    (via : Via) (handle : Nat) : ((s.finishFuses via handle true).slot k).word.getLsbD 30 = false := by
  rw [State.slot, State.finishFuses_slots h, nth_put_self hk]
  simpa using word_bit30 (slotCheck_lt k 0 (s.slot k).bytes)

/-- Every fuse of the words of the key slots is blown, and the installation of a content of class 0 in slot 0 is at work. -/
def blownWords : State := { State.reset with
  pending := [.longCommandFinish .spi 1 true]
  pins.phase := 2, boot.stage := 2, pwr.state := 0
  mbx.loc.jobs := [⟨1, .spi, 0x1003, none, none, 0⟩]
  trust.slots := List.replicate 32 ⟨0, BitVec.allOnes 32⟩
  trust.work := some (.install 0 0) }

/-- Its step, the end of the installation. -/
def installed : State :=
  (({ blownWords with pending := [] } : State).begin).finishFuses .spi 1 true

/-- Refutes O4: the step of `blownWords` writes the word of slot 0 anew, and bit 30 of it, which was blown, is 0 in class 0. -/
theorem not_fusesStayBlown : ¬ Obligations.FusesStayBlown := by
  intro h
  obtain ⟨hfront, -⟩ := stepTakesTheFront
  obtain ⟨t, hstep, rfl⟩ := execLongCommandFinish_fuses (s := { blownWords with pending := [] }) (via := .spi) (handle := 1) (ok := true)
    (j := ⟨1, .spi, 0x1003, none, none, 0⟩) (by decide) (by decide) ⟨Nat.le_refl _, by simp⟩
  obtain ⟨-, hslot, -⟩ := h blownWords _ ((hfront _ [] blownWords).trans hstep)
  have hbit := congrArg (·.getLsbD 30) (hslot 0).2
  simp only [BitVec.getLsbD_and] at hbit
  rw [State.finishFuses_bit30 rfl (by decide), Bool.and_false] at hbit
  exact absurd hbit (by decide)

end Sys2Proof.Machine

/-! The timebase: REFCLK loss, holdover and return; ports that hear no time-sync cell (R37, R41 to R43). -/
namespace Sys2Proof.Machine

@[simp] theorem State.alignOf_begin (s : State) (p : Nat) : s.begin.alignOf p = s.alignOf p := rfl

/-! ### REFCLK -/

theorem refclkLossDetect_gives {s : State} (ha : s.awake = true) (h : s.time.holdover = 0) :
    Gives .refclkLossDetect s fun t => t.hush = ({ s with time := { s.time with
      holdover := 1, hoTicks := 0, refLosses := satAdd 32 s.time.refLosses 1 } } : State).hush ∧ Heard 1 s t 14 0 := by
  refine gives_of_run (execRefclkLossDetect.eq_1 s) ha ?_
  rw [if_neg (by simp [h])]
  exact ⟨State.hush_raise _ _ _, heard_raise_mbx rfl rfl rfl⟩

/-- A port with no link, no training and no bring-up behind it has nothing to close. -/
theorem State.holdoverCloses_idle {s : State} {p : Nat} (hl : (s.link p).state = 0) (hc : (s.cpx p).step = 0) (hb : s.bringupOver p = false) :
    s.holdoverCloses p = s := by
  simp [State.holdoverCloses, hl, hc, hb]

theorem holdoverExpiry_leaves {s : State} (ha : s.awake = true) (h : s.time.holdover = 1) (ht : s.cv Fld.HOLDOVER_TICKS ≤ s.time.hoTicks)
    (hp : ∀ p < 2, (s.link p).state = 0 ∧ (s.cpx p).step = 0 ∧ s.bringupOver p = false) :
    Leaves .holdoverExpiry s { s with time := { s.time with holdover := 2 } } := by
  refine gives_of_run (execHoldoverExpiry.eq_1 s) ha ?_
  obtain ⟨hl0, hc0, hb0⟩ := hp 0 (by omega)
  obtain ⟨hl1, hc1, hb1⟩ := hp 1 (by omega)
  rw [if_neg (by simp [h, ht]), State.holdoverCloses_idle (p := 0), State.holdoverCloses_idle (p := 1)]
  · rfl
  exacts [hl1, hc1, hb1, hl0, hc0, hb0]

theorem holdoverExpiry_early {s : State} (ha : s.awake = true) (ht : s.time.hoTicks < s.cv Fld.HOLDOVER_TICKS) :
    Leaves .holdoverExpiry s s := by
  refine gives_of_run (execHoldoverExpiry.eq_1 s) ha ?_
  rw [if_pos (by simp [ht])]
  rfl

theorem refclkRestored_leaves {s : State} (ha : s.awake = true) (h : s.time.holdover ≠ 0) (hp : ∀ p < 2, (s.cpx p).heldOff = false) :
    Leaves .refclkRestored s { s with time := { s.time with holdover := 0, hoTicks := 0 } } := by
  refine gives_of_run (execRefclkRestored.eq_1 s) ha ?_
  have hheld : [0, 1].filter (fun p => (s.begin.cpx p).heldOff) = [] := by
    simp only [List.filter_eq_nil_iff, List.mem_cons, List.not_mem_nil, or_false, Bool.not_eq_true]
    rintro p (rfl | rfl)
    · exact hp 0 (by omega)
    · exact hp 1 (by omega)
  rw [if_neg (by simp [h]), hheld]
  rfl

/-! ### Alignment -/

theorem timeSyncTimeout_gives {s : State} {p : Nat} (ha : s.awake = true) (hp : p < 2) (hup : (s.alignOf p).align ≠ .notUp)
    (hlost : (s.alignOf p).align ≠ .lost) (ht : s.cv Fld.SYNC_TIMEOUT_TICKS ≤ (s.alignOf p).sinceSync) :
    Gives (.timeSyncTimeout p) s fun t =>
      t.hush = (s.setAlign p fun a => { a with align := .lost, relock := 0, stepDue := true }).hush ∧ Heard 1 s t 13 0 := by
  refine gives_of_run (execTimeSyncTimeout.eq_1 p s) ha ?_
  have hc : (decide (1 < p) || (s.begin.alignOf p).align == .notUp || (s.begin.alignOf p).align == .lost
      || decide ((s.begin.alignOf p).sinceSync < s.begin.cv Fld.SYNC_TIMEOUT_TICKS)) = false := by
    have hp' : ¬ 1 < p := by omega
    simp only [State.cv_begin, State.alignOf_begin, hp', Nat.not_lt.mpr ht, decide_false, Bool.or_false,
      beq_eq_false_iff_ne.mpr hup, beq_eq_false_iff_ne.mpr hlost]
  dsimp only
  rw [hc]
  exact ⟨State.hush_raise _ _ _, heard_raise_mbx rfl rfl rfl⟩

theorem timeSyncTimeout_early {s : State} {p : Nat} (ha : s.awake = true) (ht : (s.alignOf p).sinceSync < s.cv Fld.SYNC_TIMEOUT_TICKS) :
    Leaves (.timeSyncTimeout p) s s := by
  refine gives_of_run (execTimeSyncTimeout.eq_1 p s) ha ?_
  rw [if_pos (by simp [ht])]
  rfl

/-- A port whose phase step is taken: nothing is due, and its count of ticks begins again. -/
theorem State.alignOf_stepped {s : State} {p : Nat} (hlen : p < s.time.ports.length) :
    let a := (s.setAlign p fun a => { a with stepDue := false, relock := 0, meas := none }).alignOf p
    a.stepDue = false ∧ a.relock = 0 := by
  have h := nth_modify_same (fun a : AlignSt => { a with stepDue := false, relock := 0, meas := none }) s.time.ports p .init hlen
  simp only [State.alignOf, State.setAlign, h, and_self]

/-- The port that steps first: CP0 before CP1. -/
theorem stepsFirst {s : State} {p : Nat} (hp : p < 2) (hd : (s.alignOf p).stepDue = true) (h0 : p = 1 → (s.alignOf 0).stepDue = false)
    (hs : s.time.slot = 0) (hm : s.time.masterKnown = true) :
    [0, 1].find? (fun q => (s.alignOf q).stepDue && s.time.slot == 0 && s.time.masterKnown) = some p := by
  obtain rfl | rfl : p = 0 ∨ p = 1 := by omega
  · simp [hd, hs, hm]
  · simp [hd, hs, hm, h0 rfl]

theorem timebasePhaseStep_gives {s : State} {p : Nat} (ha : s.awake = true) (hp : p < 2) (hd : (s.alignOf p).stepDue = true)
    (h0 : p = 1 → (s.alignOf 0).stepDue = false) (hs : s.time.slot = 0) (hm : s.time.masterKnown = true) (hlen : s.time.ports.length = 2) :
    Gives .timebasePhaseStep s fun t => t.time.tick = s.time.masterTick ∧ t.time.slot = s.time.slot
      ∧ (t.alignOf p).stepDue = false ∧ (t.alignOf p).relock = 0 ∧ t.topo = s.topo ∧ t.plan = s.plan ∧ t.mem = s.mem := by
  refine gives_of_run (execTimebasePhaseStep.eq_1 s) ha ?_
  rw [show [0, 1].find? (fun q => (s.begin.alignOf q).stepDue && s.begin.time.slot == 0 && s.begin.time.masterKnown) = some p from
    stepsFirst hp hd h0 hs hm]
  dsimp only
  generalize hu : ({ s.begin.setAlign p _ with time := _ } : State).dispStep _ = u
  have hfold := foldl_same (fun (u : State) q => if u.role q == .down then
      u.setLink q fun l => { l with demand := l.demand.map fun (d : Demand) => { d with align := 2 } } else u)
    (fun u => (u.time, u.topo, u.plan, u.mem)) (fun u q => by split <;> rfl) [0, 1] u
  simp only [Prod.mk.injEq] at hfold
  obtain ⟨htime, htopo, hplan, hmem⟩ := hfold
  obtain ⟨hstep, hrelock⟩ := State.alignOf_stepped (s := s.begin) (p := p) (by rw [State.begin_time, hlen]; exact hp)
  refine ⟨by rw [htime, ← hu]; rfl, by rw [htime, ← hu]; rfl, ?_, ?_, by rw [htopo, ← hu]; rfl, by rw [hplan, ← hu]; rfl, by rw [hmem, ← hu]; rfl⟩
  · rw [State.alignOf, htime, ← hu]
    exact hstep
  · rw [State.alignOf, htime, ← hu]
    exact hrelock

theorem timebasePhaseStep_unknown {s : State} (ha : s.awake = true) (hm : s.time.masterKnown = false) : Leaves .timebasePhaseStep s s := by
  refine gives_of_run (execTimebasePhaseStep.eq_1 s) ha ?_
  rw [show [0, 1].find? (fun q => (s.begin.alignOf q).stepDue && s.begin.time.slot == 0 && s.begin.time.masterKnown) = none by simp [hm]]
  rfl

/-- Settles O8. -/
theorem timebaseAndAlignment : Obligations.TimebaseAndAlignment := by
  refine ⟨fun s ha => ⟨refclkLossDetect_gives ha, holdoverExpiry_leaves ha, fun _ => holdoverExpiry_early ha, refclkRestored_leaves ha⟩,
    fun s p ha hp => ⟨timeSyncTimeout_gives ha hp, fun _ => timeSyncTimeout_early ha, timebasePhaseStep_gives ha hp, timebasePhaseStep_unknown ha⟩⟩

end Sys2Proof.Machine

/-! A reset of the management core (R59, R66, R68, R536): what it leaves. -/
namespace Sys2Proof.Machine

/-! ### What the sideband bridge leaves alone -/

/-- The handles of a channel, and the nonces. -/
def ChanSt.handles (c : ChanSt) : Nat × List Cred × List Nonce := (c.jobs.length, c.creds, c.nonces)

/-- The state without the mailboxes, the sideband bridge and the draws of the entropy source, and the handles of the channels. -/
def State.footing (s : State) : State × (Chan → Nat × List Cred × List Nonce) :=
  ({ s.still with mbx := .init, sb := .init, free := 0 }, fun c => (s.chan c).handles)

theorem State.footing_of_still {s t : State} (h : t.still = s.still) : t.footing = s.footing := by
  have hm : t.mbx.hush.calm = s.mbx.hush.calm := congrArg State.mbx h
  have hc : ∀ c, (t.chan c).hush.calm = (s.chan c).hush.calm := fun c => by
    cases c
    · exact congrArg MbxSt.loc hm
    · exact congrArg MbxSt.tun hm
    · exact congrArg MbxSt.peer hm
    · exact congrArg MbxSt.dbg hm
    · exact congrArg MbxSt.gate hm
  refine Prod.ext ?_ (funext fun c => ?_)
  · exact congrArg (fun u : State => { u with mbx := .init, sb := .init, free := 0 }) h
  · show (t.chan c).hush.calm.handles = (s.chan c).hush.calm.handles
    rw [hc c]

@[simp] theorem State.footing_ite (c : Prop) [Decidable c] (s t : State) : (if c then s else t).footing = if c then s.footing else t.footing :=
  apply_ite State.footing c s t

@[simp] theorem State.footing_foldl {β : Type} {f : State → β → State} (h : ∀ s b, (f s b).footing = s.footing) (l : List β) (s : State) :
    (l.foldl f s).footing = s.footing :=
  foldl_same f State.footing h l s

@[simp] theorem State.footing_emit (s : State) (e : Emit) : (s.emit e).footing = s.footing := rfl
@[simp] theorem State.footing_spore (s : State) (k c : Nat) (p : List Byte) : (s.spore k c p).footing = s.footing :=
  footing_of_still (s.still_spore k c p)
@[simp] theorem State.footing_raise (s : State) (n a : Nat) : (s.raise n a).footing = s.footing := footing_of_still (s.still_raise n a)
@[simp] theorem State.footing_peerSend (s : State) (p : Nat) (b : List Byte) : (s.peerSend p b).footing = s.footing :=
  footing_of_still (s.still_peerSend p b)
@[simp] theorem State.footing_sb (s : State) (b : SbSt) : ({ s with sb := b } : State).footing = s.footing := rfl
@[simp] theorem State.footing_draw (s : State) : s.draw.2.footing = s.footing := rfl

theorem State.footing_setChan {s : State} {c : Chan} {x : ChanSt} (h : x.handles = (s.chan c).handles) : (s.setChan c x).footing = s.footing := by
  refine Prod.ext ?_ (funext fun d => ?_)
  · cases c <;> rfl
  · by_cases hd : d = c
    · subst hd
      show ((s.setChan d x).chan d).handles = (s.chan d).handles
      rw [State.setChan_chan_self, h]
    · cases c <;> cases d <;> first | rfl | exact absurd rfl hd

theorem State.footing_modChan {f : ChanSt → ChanSt} (h : ∀ x, (f x).handles = x.handles) (s : State) (c : Chan) :
    (s.modChan c f).footing = s.footing := footing_setChan (h _)

@[simp] theorem State.footing_finish (s : State) (via : Via) (h rc : Nat) (data : List Byte) : (s.finish via h rc data).footing = s.footing := by
  unfold State.finish
  dsimp only
  split
  · rfl
  · have hm : ∀ x : ChanSt, ({ x with jobs := x.jobs.map fun j => if j.handle == h then { j with result := some (rc, data), since := s.time.tick } else j } : ChanSt).handles = x.handles :=
      fun x => by simp [ChanSt.handles]
    rw [State.raiseOn, footing_spore, footing_modChan (fun x => ?_), footing_modChan hm]
    simp only [ChanSt.enter]
    split_ifs <;> rfl

@[simp] theorem State.footing_finishRc (s : State) (via : Via) (h : Nat) (rc : Rc) (data : List Byte) :
    (s.finishRc via h rc data).footing = s.footing := s.footing_finish ..

@[simp] theorem State.footing_sbSend (s : State) (p op tag : Nat) (payload : List Byte) : (s.sbSend p op tag payload).footing = s.footing :=
  s.footing_peerSend ..

@[simp] theorem State.footing_sbObtained (s : State) (chan cred handle : Nat) (port : Option Nat) :
    (s.sbObtained chan cred handle port).footing = s.footing := by
  unfold State.sbObtained
  split <;> rfl

@[simp] theorem State.footing_sbLockReply (s : State) (o : SbOrigin) (h : SbHolder) (outcome handle : Nat) (port : Option Nat) :
    (s.sbLockReply o h outcome handle port).footing = s.footing := by
  unfold State.sbLockReply
  split <;> simp

@[simp] theorem State.footing_sbGrant (s : State) (kind intf : Nat) : (s.sbGrant kind intf).footing = s.footing := by
  unfold State.sbGrant
  split
  · rfl
  · split
    · rfl
    · exact State.footing_sbLockReply ..

@[simp] theorem State.footing_sbRelease (s : State) (l : SbLock) : (s.sbRelease l).footing = s.footing := State.footing_sbGrant ..

@[simp] theorem State.footing_sbStart (s : State) (t : SbTx) : (s.sbStart t).2.footing = s.footing := by
  unfold State.sbStart
  have he : ∀ e : Emit, (if t.route.dstKind == 2 then s else s.emit e).footing = s.footing := fun e => by
    rw [footing_ite, footing_emit, ite_self]
  dsimp only
  split_ifs <;> first | exact he _ | rfl

@[simp] theorem footing_sbRun (n : Nat) (s : State) : (sbRun n s).2.footing = s.footing := by
  induction n generalizing s with
  | zero => rfl
  | succ n ih =>
    unfold sbRun
    split
    · exact ih _
    · split
      · dsimp only
        split
        · exact (ih _).trans (s.footing_sbStart _)
        · exact (ih _).trans (s.footing_sbStart _)
      · rfl

@[simp] theorem State.footing_sbDeliver (s : State) (d : SbDone) : (s.sbDeliver d).footing = s.footing := by
  unfold State.sbDeliver
  split <;> simp

@[simp] theorem State.footing_sbSettle (s : State) : s.sbSettle.footing = s.footing := by
  unfold State.sbSettle
  exact (State.footing_foldl (fun u d => u.footing_sbDeliver d) _ _).trans (footing_sbRun (2 * s.sb.txs.length + 2) s)

@[simp] theorem State.footing_sbCredGone (s : State) (chan cred : Nat) : (s.sbCredGone chan cred).footing = s.footing := by
  unfold State.sbCredGone
  split
  · rfl
  · refine (State.footing_sbSettle _).trans ((State.footing_foldl (fun u h => ?_) _ _).trans (State.footing_sb s _))
    split
    · exact u.footing_sbSend ..
    · split
      · exact (State.footing_sbRelease _ _).trans (u.footing_raise _ _)
      · rfl

/-! ### What the reset drops -/

@[simp] theorem State.footing_hwReply (s : State) (m : Msg) (rc : Rc) : (s.hwReply m rc).footing = s.footing :=
  footing_of_still (s.still_hwReply m rc)

@[simp] theorem State.footing_waiting (s : State) (l : List Wait) : ({ s with mbx := { s.mbx with waiting := l } } : State).footing = s.footing := rfl

@[simp] theorem State.footing_retryWaiting (s : State) : s.retryWaiting.footing = s.footing := by
  simp [State.retryWaiting]

/-- The handles of a channel lapse, with what depends on them. -/
def State.chanLapse (s : State) (c : Chan) : State :=
  (s.chan c).creds.foldl (fun (s : State) k => s.sbCredGone (chanNum c) k.handle)
    (s.modChan c fun x => { x with jobs := [], creds := [], nonces := [] })

theorem State.handlesLapse_eq (s : State) : s.handlesLapse = [Chan.loc, .tun, .peer, .dbg, .gate].foldl State.chanLapse s := rfl

theorem State.chanLapse_footing (s : State) (c : Chan) :
    (s.chanLapse c).footing = (s.footing.1, fun d => if d = c then (0, [], []) else s.footing.2 d) := by
  unfold State.chanLapse
  rw [State.footing_foldl fun u k => u.footing_sbCredGone _ _]
  refine Prod.ext ?_ (funext fun d => ?_)
  · cases c <;> rfl
  · cases c <;> cases d <;> rfl

theorem State.handlesLapse_footing (s : State) : s.handlesLapse.footing = (s.footing.1, fun _ => (0, [], [])) := by
  simp only [State.handlesLapse_eq, List.foldl_cons, List.foldl_nil, State.chanLapse_footing, Prod.mk.injEq, true_and]
  funext c
  cases c <;> rfl

/-- The footing without the flash and the fuses, which a commit that is cut off may still write (R549). -/
def State.stance (s : State) : State × (Chan → Nat × List Cred × List Nonce) :=
  ({ s.footing.1 with upd := .init, trust := .init }, s.footing.2)

theorem State.stance_of_footing {s t : State} (h : t.footing = s.footing) : t.stance = s.stance := by rw [stance, h, ← stance]

@[simp] theorem State.stance_setFlash (s : State) (g : FlashSt → FlashSt) : (s.setFlash g).stance = s.stance := rfl

@[simp] theorem State.stance_blowRollback (s : State) (n : Nat) : (s.blowRollback n).stance = s.stance := by
  unfold State.blowRollback
  split
  · rfl
  · exact (stance_of_footing (State.footing_raise _ _ _)).trans rfl

@[simp] theorem State.stance_commitCut (s : State) : s.commitCut.stance = s.stance := by
  unfold State.commitCut
  split
  · rfl
  · dsimp only
    generalize hu : ({ s.draw.2 with upd := { s.draw.2.upd with commit := none } } : State) = u
    have h : u.stance = s.stance := by rw [← hu]; rfl
    split
    · exact h
    · exact h
    · exact h
    · exact h
    · exact (State.stance_blowRollback _ _).trans h
    · exact (State.stance_setFlash _ _).trans ((State.stance_blowRollback _ _).trans h)
    · exact (State.stance_setFlash _ _).trans ((State.stance_setFlash _ _).trans ((State.stance_setFlash _ _).trans
        ((State.stance_blowRollback _ _).trans h)))

/-- What a reset of the management core leaves, where one is to take place: no handle, no nonce, no request that waits; the core in reset,
with its cause noted; the rest as it was, but for the flash and the fuses of a commit that it cuts off. -/
theorem State.mgtCoreReset_gives {s : State} {cause : Nat} (hs : s.boot.stage = 2) (hr : s.boot.mgtReset = false) (hc : cause ≠ 3) :
    s.AfterCoreReset cause (s.mgtCoreReset cause) ∧ (s.mgtCoreReset cause).time = s.time
      ∧ (s.mgtCoreReset cause).fault = { s.fault with resetKind := 2, resetCause := cause, resetTick := s.time.tick } := by
  have hu : s.retryWaiting.handlesLapse.commitCut.stance = (s.stance.1, fun _ => (0, [], [])) := by
    rw [State.stance_commitCut, State.stance, State.handlesLapse_footing, State.footing_retryWaiting]
    rfl
  unfold State.mgtCoreReset
  rw [if_neg (by simp [hs, hr])]
  generalize s.retryWaiting.handlesLapse.commitCut = u at hu
  have htime : u.time = s.time := congrArg (·.1.time) hu
  have hfault : u.fault = s.fault := congrArg (·.1.fault) hu
  have hcable : u.cable.calm = s.cable.calm := congrArg (·.1.cable) hu
  have hsw : u.sw = s.sw := congrArg (·.1.sw) hu
  have hplan : u.plan = s.plan := congrArg (·.1.plan) hu
  have hchan : ∀ c, (u.chan c).handles = (0, [], []) := fun c => congrFun (congrArg Prod.snd hu) c
  simp only [hs, beq_eq_false_iff_ne.mpr hc, Nat.reduceBEq, Bool.false_and, Bool.or_false, Bool.false_eq_true, if_false]
  refine ⟨⟨?_, ?_, ?_, ?_, fun c => ?_, ?_, ?_, ?_, ?_⟩, ?_, ?_⟩
  all_goals simp only [State.recTrigger_boot, State.recTrigger_fault, State.recTrigger_cable, State.recTrigger_sw, State.recTrigger_plan,
    State.recTrigger_mbx, State.recTrigger_time, State.noteReset]
  case refine_6 => exact hcable
  case refine_7 => exact hsw
  case refine_8 => exact hplan
  case refine_10 => exact htime
  case refine_11 => rw [hfault, htime]
  case refine_5 =>
    have hu : (u.chan c).jobs.length = 0 ∧ (u.chan c).creds = [] ∧ (u.chan c).nonces = [] := by simpa [ChanSt.handles] using hchan c
    obtain ⟨hjobs, hcreds, hnonces⟩ := hu
    cases c <;> simp only [State.chan, State.recTrigger_mbx] <;> exact ⟨List.length_eq_zero_iff.mp hjobs, hcreds, hnonces⟩

end Sys2Proof.Machine

/-! What the reset of the management core does to the event queues: nothing is taken out of them. -/
namespace Sys2Proof.Machine

/-- Every event that a channel has queued is queued still. -/
structure State.Holds (s t : State) : Prop where
  queue : ∀ c, ∀ e ∈ (s.chan c).queue, e ∈ (t.chan c).queue

namespace State.Holds

theorem refl (s : State) : s.Holds s := ⟨fun _ _ he => he⟩

theorem trans {s t u : State} (h : s.Holds t) (h' : t.Holds u) : s.Holds u := ⟨fun c e he => h'.queue c e (h.queue c e he)⟩

/-- The last of two operations first. -/
theorem next {s t u : State} (h' : t.Holds u) (h : s.Holds t) : s.Holds u := h.trans h'

theorem of_mbx {s t : State} (h : t.mbx = s.mbx) : s.Holds t := ⟨fun c e he => by
  cases c <;> simpa only [State.chan, h] using he⟩

theorem ite {c : Prop} [Decidable c] {s t u : State} (ht : s.Holds t) (hu : s.Holds u) : s.Holds (if c then t else u) := by
  split_ifs <;> assumption

theorem foldl {β : Type} {f : State → β → State} (h : ∀ (a : State) (b : β), a.Holds (f a b)) (l : List β) (a : State) : a.Holds (l.foldl f a) := by
  induction l generalizing a with
  | nil => exact refl _
  | cons b l ih => exact (h a b).trans (ih _)

theorem setChan {s : State} {c : Chan} {x : ChanSt} (h : ∀ e ∈ (s.chan c).queue, e ∈ x.queue) : s.Holds (s.setChan c x) := ⟨fun d e he => by
  by_cases hd : d = c
  · subst hd
    rw [State.setChan_chan_self]
    exact h e he
  · cases c <;> cases d <;> first | exact he | exact absurd rfl hd⟩

theorem modChan {f : ChanSt → ChanSt} (h : ∀ x, ∀ e ∈ x.queue, e ∈ (f x).queue) (s : State) (c : Chan) : s.Holds (s.modChan c f) :=
  setChan (h _)

theorem raise (s : State) (n a : Nat) : s.Holds (s.raise n a) := ⟨fun c e he => State.mem_queue_raise s n a c e he⟩

/-- Nothing but the channels is looked at. -/
theorem of_chan {s t : State} (h : ∀ c, t.chan c = s.chan c) : s.Holds t := ⟨fun c e he => by rwa [h c]⟩

theorem spore (s : State) (k c : Nat) (p : List Byte) : s.Holds (s.spore k c p) := of_mbx (by simp)

theorem emit (s : State) (e : Emit) : s.Holds (s.emit e) := of_mbx rfl

end State.Holds

theorem ChanSt.mem_enter (c : ChanSt) (e v : EventEntry) (h : v ∈ c.queue) : v ∈ (c.enter e).queue := by
  unfold ChanSt.enter
  split_ifs
  · exact (mem_enterEvent e v _).mpr (.inr h)
  · exact h
  · exact h

/-! ### Replies and completions -/

theorem State.usbReady_holds (s : State) (ks : List Nat) : s.Holds (s.usbReady ks) :=
  State.Holds.trans (t := { s with mbx := { s.mbx with usbWait := s.mbx.usbWait.filter fun k => !ks.contains k } })
    (.of_chan fun c => by cases c <;> rfl) (.foldl (fun u k => .emit u _) _ _)

theorem State.holdReply_holds (s : State) (via : Via) (r : Reply) : s.Holds (s.holdReply via r) := by
  unfold State.holdReply
  split
  · exact .of_chan fun c => by cases c <;> rfl
  · exact .of_chan fun c => by cases c <;> rfl
  · refine .ite (State.Holds.trans ?_ (State.usbReady_holds _ _)) (State.Holds.trans ?_ (State.usbReady_holds _ _))
    · exact .of_chan fun c => by cases c <;> rfl
    · exact .of_chan fun c => by cases c <;> rfl
  · exact .of_mbx rfl
  · exact .of_chan fun c => by cases c <;> rfl
  · exact .of_mbx rfl

theorem State.reply_holds (s : State) (via : Via) (tag : Half) (rc h : Nat) (data : List Byte) : s.Holds (s.reply via tag rc h data).2 := by
  unfold State.reply
  exact .next (.emit _ _) (.next (State.holdReply_holds _ _ _) (.modChan (by exact fun _ _ he => he) s _))

theorem State.hwReply_holds (s : State) (m : Msg) (rc : Rc) : s.Holds (s.hwReply m rc) := by
  unfold State.hwReply
  exact .next (.modChan (by exact fun _ _ he => he) _ _) (s.reply_holds ..)

theorem State.finish_holds (s : State) (via : Via) (h rc : Nat) (data : List Byte) : s.Holds (s.finish via h rc data) := by
  unfold State.finish
  dsimp only
  split
  · exact .refl s
  · unfold State.raiseOn
    exact .next (.spore _ _ _ _) (.next (.modChan (fun x e he => x.mem_enter _ e he) _ _) (.modChan (by exact fun _ _ he => he) s _))

theorem State.finishRc_holds (s : State) (via : Via) (h : Nat) (rc : Rc) (data : List Byte) : s.Holds (s.finishRc via h rc data) :=
  s.finish_holds ..

/-! ### The sideband bridge -/

theorem State.sbLockReply_holds (s : State) (o : SbOrigin) (h : SbHolder) (outcome handle : Nat) (port : Option Nat) :
    s.Holds (s.sbLockReply o h outcome handle port) := by
  have hob : ∀ a b c d, s.Holds (s.sbObtained a b c d) := fun a b c d => by
    unfold State.sbObtained
    split
    · exact .refl s
    · exact .of_mbx rfl
  unfold State.sbLockReply
  split
  · exact .ite ((hob ..).trans (State.finish_holds ..)) (.ite (s.finish_holds ..) (s.finishRc_holds ..))
  · exact .of_mbx rfl
  · exact .refl s

theorem State.sbGrant_holds (s : State) (kind intf : Nat) : s.Holds (s.sbGrant kind intf) := by
  unfold State.sbGrant
  split
  · exact .refl s
  · split
    · exact .refl s
    · exact .next (State.sbLockReply_holds ..) (.of_mbx rfl)

theorem State.sbRelease_holds (s : State) (l : SbLock) : s.Holds (s.sbRelease l) := by
  unfold State.sbRelease
  exact .next (State.sbGrant_holds ..) (.of_mbx rfl)

@[simp] theorem State.sbStart_mbx (s : State) (t : SbTx) : (s.sbStart t).2.mbx = s.mbx := by
  unfold State.sbStart
  have he : ∀ e : Emit, (if t.route.dstKind == 2 then s else s.emit e).mbx = s.mbx := fun e => by split_ifs <;> rfl
  dsimp only
  split_ifs <;> first | exact he _ | rfl

@[simp] theorem sbRun_mbx (n : Nat) (s : State) : (sbRun n s).2.mbx = s.mbx := by
  induction n generalizing s with
  | zero => rfl
  | succ n ih =>
    unfold sbRun
    split
    · exact ih _
    · split
      · dsimp only
        split
        · exact (ih _).trans (s.sbStart_mbx _)
        · exact (ih _).trans (s.sbStart_mbx _)
      · rfl

theorem State.sbDeliver_holds (s : State) (d : SbDone) : s.Holds (s.sbDeliver d) := by
  unfold State.sbDeliver
  split
  · exact .ite (s.finishRc_holds ..) (s.finish_holds ..)
  · exact .of_mbx rfl
  · exact .ite (.of_mbx rfl) (.refl s)
  · exact .ite (.refl s) (.next (.raise _ _ _) (.of_mbx rfl))

theorem State.sbSettle_holds (s : State) : s.Holds s.sbSettle := by
  unfold State.sbSettle
  exact .next (.foldl (fun u d => u.sbDeliver_holds d) _ _) (.of_mbx (sbRun_mbx (2 * s.sb.txs.length + 2) s))

theorem State.sbCredGone_holds (s : State) (chan cred : Nat) : s.Holds (s.sbCredGone chan cred) := by
  unfold State.sbCredGone
  split
  · exact .refl s
  · refine .next (State.sbSettle_holds _) (.next (.foldl (fun u h => ?_) _ _) (.of_mbx rfl))
    split
    · exact .of_mbx rfl
    · split
      · exact .next (State.sbRelease_holds _ _) (.raise u _ _)
      · exact .refl u

/-! ### The reset -/

theorem State.retryWaiting_holds (s : State) : s.Holds s.retryWaiting := by
  unfold State.retryWaiting
  exact .next (.foldl (fun u w => u.hwReply_holds _ _) _ _) (.of_chan fun c => by cases c <;> rfl)

theorem State.handlesLapse_holds (s : State) : s.Holds s.handlesLapse := by
  rw [State.handlesLapse_eq]
  refine .foldl (fun u c => ?_) _ _
  unfold State.chanLapse
  exact .next (.foldl (fun w k => w.sbCredGone_holds _ _) _ _) (.modChan (by exact fun _ _ he => he) u c)

theorem State.blowRollback_holds (s : State) (n : Nat) : s.Holds (s.blowRollback n) := by
  unfold State.blowRollback
  exact .ite (.refl s) (.next (.raise _ _ _) (.of_mbx rfl))

theorem State.setFlash_holds (s : State) (g : FlashSt → FlashSt) : s.Holds (s.setFlash g) := .of_mbx rfl

theorem State.commitCut_holds (s : State) : s.Holds s.commitCut := by
  unfold State.commitCut
  split
  · exact .refl s
  · dsimp only
    generalize hu : ({ s.draw.2 with upd := { s.draw.2.upd with commit := none } } : State) = u
    have h : s.Holds u := by rw [← hu]; exact .of_mbx rfl
    refine h.trans ?_
    have hput : ∀ (w : State) g, w.Holds (w.setFlash g) := fun w g => w.setFlash_holds g
    have hblow : ∀ (w : State) n, w.Holds (w.blowRollback n) := fun w n => w.blowRollback_holds n
    split
    · exact hput _ _
    · exact .refl u
    · exact hput _ _
    · exact hput _ _
    · exact .next (hblow _ _) (hput _ _)
    · exact .next (hput _ _) (.next (hblow _ _) (hput _ _))
    · exact .next (hput _ _) (.next (hput _ _) (.next (hput _ _) (.next (hblow _ _) (hput _ _))))

theorem State.mgtCoreReset_holds {s : State} {cause : Nat} (hs : s.boot.stage = 2) (hr : s.boot.mgtReset = false) (hc : cause ≠ 3) :
    s.Holds (s.mgtCoreReset cause) := by
  have hu := (s.retryWaiting_holds.trans (State.handlesLapse_holds _)).trans (State.commitCut_holds _)
  unfold State.mgtCoreReset
  rw [if_neg (by simp [hs, hr])]
  generalize s.retryWaiting.handlesLapse.commitCut = u at hu
  simp only [hs, beq_eq_false_iff_ne.mpr hc, Nat.reduceBEq, Bool.false_and, Bool.or_false, Bool.false_eq_true, if_false]
  refine hu.trans (.of_chan fun c => ?_)
  cases c <;> simp only [State.chan, State.recTrigger_mbx, State.noteReset]

/-! ### A fault of the management core (R540) -/

/-- The log entry of a fault. -/
def State.faultEntry (s : State) (code action unit : Nat) : FaultEntry := ⟨code, action, s.time.tick, s.time.slot, s.draw.1 % 2 ^ 32, unit⟩

theorem Heard.holds {k : Nat} {s u t : State} {n a : Nat} (h : Heard k s u n a) (hh : u.Holds t) : Heard k s t n a :=
  fun c hc h1 h2 => hh.queue c _ (h c hc h1 h2)

/-- A fault that the core survives: logged, counted, and told with EV000. -/
theorem State.logFault_gives (s : State) {code action : Nat} (ha : action ≤ 2) :
    (s.logFault code action).time = s.time ∧ (s.logFault code action).boot = s.boot ∧ (s.logFault code action).cable = s.cable
      ∧ (s.logFault code action).sw = s.sw ∧ (s.logFault code action).plan = s.plan
      ∧ (s.logFault code action).fault = { s.fault with
          counts := put s.fault.counts code (min 255 (nth s.fault.counts code 0 + 1))
          log := (s.faultEntry code action 0 :: s.fault.log).take 16 }
      ∧ Heard 1 s (s.logFault code action) 0 (code + 256 * action + 65536 * min 255 (nth s.fault.counts code 0 + 1)) := by
  unfold State.logFault
  simp only [decide_eq_true ha, if_true, State.raiseIf]
  have hd : s.draw = (s.draw.1, s.draw.2) := rfl
  rw [hd]
  dsimp only
  refine ⟨?_, ?_, ?_, ?_, ?_, ?_, heard_raise_mbx ?_ ?_ ?_⟩
  all_goals simp only [State.raise_time, State.raise_boot, State.raise_cable, State.raise_sw, State.raise_plan, State.raise_fault,
    State.recTrigger_time, State.recTrigger_boot, State.recTrigger_cable, State.recTrigger_sw, State.recTrigger_plan, State.recTrigger_fault,
    State.recTrigger_mbx]
  all_goals split <;> rfl

/-- The first fault of the log, of the management core: the core is reset with the fault's code as cause, the entry stands alone in the log, the
fault is counted and raises EV000. -/
theorem State.mgtFault_gives {s : State} {code : Nat} (hs : s.boot.stage = 2) (hr : s.boot.mgtReset = false) (hlog : s.fault.log = [])
    (hc : code ≠ 3) :
    s.AfterCoreReset code (s.mgtFault code) ∧ (s.mgtFault code).time = s.time
      ∧ (s.mgtFault code).fault.log = [s.faultEntry code actMgt 0]
      ∧ (s.mgtFault code).fault.counts = put s.fault.counts code (min 255 (nth s.fault.counts code 0 + 1))
      ∧ (s.mgtFault code).fault.resetCause = code
      ∧ Heard 1 s (s.mgtFault code) 0 (code + 256 * actMgt + 65536 * min 255 (nth s.fault.counts code 0 + 1)) := by
  obtain ⟨htime, hboot, hcable, hsw, hplan, hfault, hheard⟩ := s.logFault_gives (code := code) (action := actMgt) (by decide)
  unfold State.mgtFault
  dsimp only
  generalize s.logFault code actMgt = u at htime hboot hcable hsw hplan hfault hheard
  have hulog : u.fault.log = [s.faultEntry code actMgt 0] := by simp [hfault, hlog]
  rw [if_neg (by
    have := List.length_filter_le (fun e : FaultEntry => e.action == actMgt && Decidable.decide (tickDiff u.time.tick e.tick ≤ 32000))
      (u.fault.log.takeWhile fun e => e.action != actSystem)
    have := (List.takeWhile_sublist (fun e : FaultEntry => e.action != actSystem) (l := u.fault.log)).length_le
    have : u.fault.log.length = 1 := by rw [hulog]; rfl
    omega)]
  have hus : u.boot.stage = 2 := by rw [hboot, hs]
  have hur : u.boot.mgtReset = false := by rw [hboot, hr]
  obtain ⟨hafter, ht, hf⟩ := State.mgtCoreReset_gives hus hur hc
  obtain ⟨h1, h2, h3, h4, h5, h6, h7, h8, h9⟩ := hafter
  exact ⟨⟨h1, h2, h3, h4, h5, by rw [h6, hcable], by rw [h7, hsw], by rw [h8, hplan], h9⟩, by rw [ht, htime], by rw [hf, hulog],
    by rw [hf, hfault], by rw [hf], hheard.holds (State.mgtCoreReset_holds hus hur hc)⟩

end Sys2Proof.Machine

/-! The slots of the tick, and the planner's refresh and lapses (R33, R34, R167, R169, R209, R214, R215, R233). -/
namespace Sys2Proof.Machine

/-! ### Freezing demand -/

theorem foldl_begin {β : Type} {f : State → β → State} (h : ∀ (u : State) b, f u.begin b = (f u b).begin) (l : List β) (s : State) :
    l.foldl f s.begin = (l.foldl f s).begin := by
  induction l generalizing s with
  | nil => rfl
  | cons b l ih => rw [List.foldl_cons, List.foldl_cons, h, ih]

theorem State.spore_begin (s : State) (k c : Nat) (p : List Byte) : s.begin.spore k c p = (s.spore k c p).begin :=
  foldl_begin (fun u _ => u.spore1_begin _ _ _ _) _ s

theorem State.freeze_begin (s : State) : s.begin.freeze = s.freeze.begin := by
  unfold State.freeze
  refine foldl_begin (fun u i => ?_) _ { s with plan := _ }
  exact u.spore_begin _ _ _

/-- The demand that a hub freezes for the tick after the next (R33). -/
def State.frozenDemand (s : State) : Frozen :=
  ⟨s.time.tick.toNat + 2, (upTo 12).flatMap fun j => (upTo 8).map fun c => s.depth j c
    + if s.topo.role == .relay && s.role j == .down then nth s.sw.cutLast (swIdx j c) 0 else 0⟩

/-- What no spore touches, a freeze leaves but for the frozen demand, which has entered. -/
theorem State.freeze_of {γ : Type} (φ : State → γ) (h : ∀ u k c p, φ (State.spore u k c p) = φ u) (s : State) :
    ∃ fs, s.frozenDemand ∈ fs ∧ φ s.freeze = φ { s with plan := { s.plan with frozen := fs } } := by
  unfold State.freeze
  exact ⟨_, List.mem_append_right _ (List.mem_singleton.mpr rfl), foldl_same _ φ (fun u _ => h u _ _ _) _ _⟩

theorem State.sendDemand_idle {s : State} {p : Nat} (h : s.role p ≠ .up) : s.sendDemand p = s := by
  rw [State.sendDemand, if_neg (by simp [h])]

theorem demandFreeze_gives {s : State} (ht : s.ticking) (hs : s.time.slot = 31) (h0 : s.role 0 ≠ .up) (h1 : s.role 1 ≠ .up) :
    Gives .demandFreeze s fun t => t.time = s.time ∧ s.frozenDemand ∈ t.plan.frozen
      ∧ t.plan.contracts = s.plan.contracts ∧ t.cable = s.cable ∧ t.sw = s.sw := by
  refine gives_of_slot (execDemandFreeze.eq_1 s) ht hs ?_
  obtain ⟨fs, hmem, hfs⟩ := s.begin.freeze_of (fun u => (u.time, u.topo, u.plan, u.cable, u.sw)) fun u k c p => by simp
  simp only [Prod.mk.injEq] at hfs
  obtain ⟨htime, htopo, hplan, hcable, hsw⟩ := hfs
  have hrole : ∀ p, s.begin.freeze.role p = s.role p := fun p => by rw [State.role, htopo]; rfl
  rw [State.sendDemand_idle (p := 0), State.sendDemand_idle (p := 1)]
  · exact ⟨htime, by rw [hplan]; exact hmem, by rw [hplan]; rfl, hcable, hsw⟩
  · rwa [hrole]
  · rwa [hrole]

/-! ### Cells of KIND 2 to 6 -/

theorem State.sendOwn_out (s : State) (p : Nat) (c : Cell) : ∃ tag, (s.sendOwn p c).out = s.out ++ [.cell p none (withHcrc c) tag] := by
  unfold State.sendOwn
  dsimp only
  split
  · exact ⟨_, rfl⟩
  · exact ⟨_, rfl⟩

@[simp] theorem State.sendOwn_topo (s : State) (p : Nat) (c : Cell) : (s.sendOwn p c).topo = s.topo := by
  unfold State.sendOwn
  dsimp only
  split <;> rfl

theorem State.sendTwice_out (s : State) (p kind : Nat) (bs : List Byte) :
    ∃ a b, (s.sendTwice p kind bs).out = s.out ++ [.cell p none (withHcrc (ownCell kind bs)) a, .cell p none (withHcrc (ownCell kind bs)) b] := by
  obtain ⟨a, ha⟩ := s.sendOwn_out p (ownCell kind bs)
  obtain ⟨b, hb⟩ := (s.sendOwn p (ownCell kind bs)).sendOwn_out p (ownCell kind bs)
  exact ⟨a, b, by rw [State.sendTwice, hb, ha, List.append_assoc, List.singleton_append]⟩

/-- A port sends its report twice. -/
theorem State.sendDemand_out {s : State} {p : Nat} (hr : s.role p = .up) (hp : s.plans p = true) :
    ∃ a b, (s.sendDemand p).out = s.out ++ [.cell p none (withHcrc (ownCell 5 (demandPayload (s.report p)))) a,
      .cell p none (withHcrc (ownCell 5 (demandPayload (s.report p)))) b] := by
  rw [State.sendDemand, if_pos (by simp [hr, hp])]
  exact State.sendTwice_out _ p 5 _

theorem State.sendDemand_role (s : State) (p q : Nat) : (s.sendDemand p).role q = s.role q := by
  unfold State.sendDemand
  split
  · simp [State.role, State.sendTwice, State.setCpx]
  · rfl

theorem demandFreeze_sends {s : State} {p : Nat} (ht : s.ticking) (hp : p < 2) (hs : s.time.slot = 31) (hr : s.role p = .up)
    (hq : s.role (1 - p) ≠ .up) (hpl : s.plans p = true) :
    Gives .demandFreeze s fun t => ∃ pre a b, t.out = pre ++ [.cell p none (withHcrc (ownCell 5 (demandPayload (s.freeze.report p)))) a,
      .cell p none (withHcrc (ownCell 5 (demandPayload (s.freeze.report p)))) b] := by
  refine gives_of_slot (execDemandFreeze.eq_1 s) ht hs ?_
  obtain ⟨fs, -, hfs⟩ := s.freeze_of (fun u => (u.topo, u.cable)) fun u k c p => by simp
  simp only [Prod.mk.injEq] at hfs
  obtain ⟨htopo, hcable⟩ := hfs
  rw [State.freeze_begin]
  have hrole : ∀ q, s.freeze.begin.role q = s.role q := fun q => congrArg (fun t : TopoSt => nth t.portRole q .none) htopo
  have hplans : s.freeze.begin.plans p = true := by
    have hl : s.freeze.link p = s.link p := congrArg (fun c : CableSt => nth c.links p .init) hcable
    have hc : s.freeze.cpx p = s.cpx p := congrArg (fun c : CableSt => nth c.cpx p .init) hcable
    have hu : s.freeze.linkUp p = s.linkUp p := congrArg (fun c : CableSt => decide (2 ≤ (c.links.getD p .init).state)) hcable
    show s.freeze.plans p = true
    unfold State.plans at hpl ⊢
    rwa [hl, hc, hu]
  obtain ⟨a, b, hout⟩ := State.sendDemand_out (s := s.freeze.begin) (by rw [hrole, hr]) hplans
  obtain rfl | rfl : p = 0 ∨ p = 1 := by omega
  · rw [State.sendDemand_idle (p := 1) (by rw [State.sendDemand_role, hrole]; exact hq)]
    exact ⟨[], a, b, hout⟩
  · rw [State.sendDemand_idle (p := 0) (by rw [hrole]; exact hq)]
    exact ⟨[], a, b, hout⟩

/-! ### Lane plans -/

theorem State.lanesToH_nil (s : State) (target light : Nat) (sl l : List (Nat × Nat)) : s.lanesToH target light sl l [] = ([], []) := by
  induction l with
  | nil => rfl
  | cons x l ih =>
    unfold State.lanesToH
    split
    · rfl
    · simpa using ih

theorem State.stepE5One_nil (s : State) (target : Nat) (sl : List (Nat × Nat)) (key : Nat × Nat) :
    s.stepE5One target sl [] key = ⟨[], [], false⟩ := by
  have hcut : ∀ k, (s.cutE5 target sl [] key k).builds = [] := fun k => by simp [State.cutE5, cutBuilds, State.lanesToH_nil]
  have hall : (((List.range 64).reverse.map fun k => s.cutE5 target sl [] key k).filter fun a =>
      total (([] : List Build).map Build.spared) < total (a.builds.map Build.spared)) = [] := by
    simp [List.filter_eq_nil_iff, hcut]
  unfold State.stepE5One
  dsimp only
  rw [hall]
  rfl

theorem State.stepE5_nil (s : State) (target : Nat) (sl keys : List (Nat × Nat)) : s.stepE5 target sl keys [] = ([], []) := by
  induction keys with
  | nil => rfl
  | cons k l ih => simp [State.stepE5, State.stepE5One_nil, ih]

/-- Without a plan to build, the energy steps build none. -/
theorem State.energySteps_nil (s : State) (target : Nat) (sl : List (Nat × Nat)) : (s.energySteps target [] sl).builds = [] := by
  have hcut : ∀ w sl p, s.cutStep target w sl p = cutBuilds s w p _ := fun w sl p => rfl
  unfold State.energySteps
  simp only [hcut, cutBuilds, List.map_nil, State.lanesToH_nil, State.stepE5_nil, apply_ite EnergyAns.builds, ite_self]

/-- A tick master that has received no demand from its only cable takes the fixed plan, and tells it in the tick after the next (R215). -/
theorem State.buildLanes_unreported {s : State} {p : Nat} (hp : p < 2) (hm : s.isMaster p = true) (hpl : s.plans p = true)
    (hq : s.isMaster (1 - p) = false) (hd : (s.link p).demand = none) : s.buildLanes = s.fixTick p (s.time.tick + 2) := by
  have hmine : [1, 0].filter (fun q => s.isMaster q && s.plans q) = [p] := by
    obtain rfl | rfl : p = 0 ∨ p = 1 := by omega
    · simp [hm, hpl, show s.isMaster 1 = false from hq]
    · simp [hm, hpl, show s.isMaster 0 = false from hq]
  have hr : ∀ n, s.reportOf p n = none := fun n => by simp [State.reportOf, hd]
  have hmiss : ∀ n, s.missedTick p n = s := fun n => by simp [State.missedTick, hr]
  unfold State.buildLanes
  simp [hmine, hmiss, hr, State.energySteps_nil]

theorem lanePlanStart_leaves {s : State} {p : Nat} (ht : s.ticking) (hp : p < 2) (hs : s.time.slot = 40) (hm : s.isMaster p = true)
    (hpl : s.plans p = true) (hq : s.isMaster (1 - p) = false) (hd : (s.link p).demand = none) :
    Leaves .lanePlanStart s (s.fixTick p (s.time.tick + 2)) := by
  refine gives_of_slot (execLanePlanStart.eq_1 s) ht hs ?_
  rw [State.buildLanes_unreported (s := s.begin) hp hm hpl hq hd]
  rfl

theorem localPlanStart_gives {s : State} (ht : s.ticking) (hs : s.time.slot = 120) (hn : s.pwr.next = none) :
    Gives .localPlanStart s fun t => ∃ lp : LocalPlan, lp.target = s.time.tick.toNat + 1
      ∧ t.hush = ({ s with
          pwr := { s.pwr with planned := none }, plan := { s.plan with shadow := some lp, due := false } } : State).hush := by
  refine gives_of_slot (execLocalPlanStart.eq_1 s) ht hs ?_
  have hw : (if s.begin.pwr.phase == 0 && s.begin.pwr.next.any (· ≤ 2) then s.begin.pwr.next else none) = none := by simp [hn]
  rw [hw]
  exact ⟨_, rfl, rfl⟩

/-! ### Tick cells -/

theorem State.sendTick_idle {s : State} {p : Nat} (h : s.isMaster p = false) : s.sendTick p = s := by
  rw [State.sendTick, if_pos (by simp [h])]

theorem State.sendTick_planned {s : State} {p : Nat} {pl : Plan} (hm : s.isMaster p = true) (hpl : s.plans p = true)
    (h : (s.link p).planFor (s.time.tick.toNat + 2) = some pl) : s.sendTick p = s.sendPlan p pl := by
  unfold State.sendTick
  rw [if_neg (by simp [hm, hpl])]
  simp only [h]

theorem State.isMaster_sendOwn (s : State) (p q : Nat) (c : Cell) : (s.sendOwn p c).isMaster q = s.isMaster q := by
  have h : ((s.sendOwn p c).link q).gen1 = (s.link q).gen1 := by
    unfold State.sendOwn
    dsimp only
    split
    · exact s.link_setLink_congr LinkSt.gen1 _ (by exact fun _ => rfl) p q
    · rfl
  simp only [State.isMaster, State.sendOwn_topo, h]

theorem State.isMaster_sendPlan (s : State) (p q : Nat) (pl : Plan) : (s.sendPlan p pl).isMaster q = s.isMaster q := by
  simp only [State.sendPlan, State.sendTwice, State.isMaster_sendOwn]

/-- What the tick cells of the one cable with a tick master come to. -/
theorem tickCellSend_gives {s : State} {p : Nat} {pl : Plan} {P : State → Prop} (ht : s.ticking) (hp : p < 2) (hs : s.time.slot = 200)
    (hm : s.isMaster p = true) (hpl : s.plans p = true) (hq : s.isMaster (1 - p) = false)
    (h : (s.link p).planFor (s.time.tick.toNat + 2) = some pl) (hP : P (s.begin.sendPlan p pl)) : Gives .tickCellSend s P := by
  refine gives_of_slot (execTickCellSend.eq_1 s) ht hs ?_
  have hsend : s.begin.sendTick p = s.begin.sendPlan p pl := State.sendTick_planned (s := s.begin) hm hpl h
  obtain rfl | rfl : p = 0 ∨ p = 1 := by omega
  · rwa [hsend, State.sendTick_idle (by rw [State.isMaster_sendPlan]; exact hq)]
  · rwa [State.sendTick_idle (s := s.begin) (p := 0) hq, hsend]

theorem State.sendOwn_plain {s : State} {p : Nat} (h : (s.link p).sealed = false) (c : Cell) :
    s.sendOwn p c = s.emit (.cell p none (withHcrc c) (plainTrailer (withHcrc c))) := by
  simp [State.sendOwn, h]

theorem State.sendOwn_sealed {s : State} {p : Nat} (h : (s.link p).sealed = true) (c : Cell) :
    s.sendOwn p c = (s.setLink p fun l => { l with tx := { l.tx with counter := l.tx.counter + 1 } }).emit
      (.cell p none (withHcrc c) (ownTag (s.link p).tx.key (s.link p).tx.counter (withHcrc c))) := by
  simp [State.sendOwn, h]

theorem tickCellSend_plain {s : State} {p : Nat} {pl : Plan} (ht : s.ticking) (hp : p < 2) (hs : s.time.slot = 200)
    (hm : s.isMaster p = true) (hpl : s.plans p = true) (hq : s.isMaster (1 - p) = false)
    (h : (s.link p).planFor (s.time.tick.toNat + 2) = some pl) (hseal : (s.link p).sealed = false) :
    Says .tickCellSend s s (List.replicate 2 (.cell p none (withHcrc (ownCell 4 (tickPayload pl)))
      (plainTrailer (withHcrc (ownCell 4 (tickPayload pl)))))) := by
  refine tickCellSend_gives ht hp hs hm hpl hq h ?_
  rw [State.sendPlan, State.sendTwice, State.sendOwn_plain (s := s.begin) hseal]
  rw [State.sendOwn_plain (s := s.begin.emit _) hseal]
  exact ⟨rfl, rfl⟩

theorem State.setLink_setLink (s : State) (p : Nat) (f g : LinkSt → LinkSt) : (s.setLink p f).setLink p g = s.setLink p (g ∘ f) := by
  simp only [State.setLink, List.modify_modify_eq]

theorem tickCellSend_sealed {s : State} {p : Nat} {pl : Plan} (ht : s.ticking) (hp : p < 2) (hs : s.time.slot = 200)
    (hm : s.isMaster p = true) (hpl : s.plans p = true) (hq : s.isMaster (1 - p) = false) (hlen : s.cable.links.length = 2)
    (h : (s.link p).planFor (s.time.tick.toNat + 2) = some pl) (hseal : (s.link p).sealed = true) :
    Says .tickCellSend s (s.setLink p fun l => { l with tx := { l.tx with counter := l.tx.counter + 2 } })
      ((upTo 2).map fun i => .cell p none (withHcrc (ownCell 4 (tickPayload pl)))
        (ownTag (s.link p).tx.key ((s.link p).tx.counter + i) (withHcrc (ownCell 4 (tickPayload pl))))) := by
  refine tickCellSend_gives ht hp hs hm hpl hq h ?_
  rw [State.sendPlan, State.sendTwice, State.sendOwn_sealed (s := s.begin) hseal]
  generalize hu : (s.begin.setLink p _).emit _ = u
  have hlink : u.link p = { s.link p with tx := { (s.link p).tx with counter := (s.link p).tx.counter + 1 } } := by
    rw [← hu]
    exact State.link_setLink _ s.begin p (by rw [State.begin_cable, hlen]; exact hp)
  rw [State.sendOwn_sealed (by rw [hlink]; exact hseal), hlink, ← hu]
  refine ⟨?_, rfl⟩
  show ((s.begin.setLink p _).setLink p _).hush = _
  rw [State.setLink_setLink]
  rfl

theorem State.tickDeadline_idle {s : State} {p : Nat} (h : s.role p ≠ .up) : s.tickDeadline p = s := by
  rw [State.tickDeadline, if_pos (by simp [h])]

/-- A plan for the tick after the next stands third. -/
theorem LinkSt.storePlan_next2 (l : LinkSt) (n : Nat) {pl : Plan} (h : pl.target = n + 2) : l.storePlan n pl = { l with plan2 := some pl } := by
  simp [LinkSt.storePlan, h]

theorem State.ownFixedPlan_target (s : State) (p n : Nat) : (s.ownFixedPlan p n).target = n := by
  unfold State.ownFixedPlan
  split <;> rfl

theorem State.tickDeadline_missed {s : State} {p : Nat} (hr : s.role p = .up) (hpl : s.plans p = true)
    (h : (s.link p).planFor (s.time.tick.toNat + 2) = none) :
    s.tickDeadline p = (s.setLink p fun l => { l with plan2 := some (s.ownFixedPlan p (s.time.tick.toNat + 2)) }).setLink p fun l =>
      { l with missed := true, missedCnt := satAdd 32 l.missedCnt 1 } := by
  unfold State.tickDeadline
  rw [if_neg (by simp [hr, hpl])]
  simp only [h, State.storeFor, LinkSt.storePlan_next2 _ _ (s.ownFixedPlan_target p _)]

theorem tickCellDeadline_leaves {s : State} {p : Nat} (ht : s.ticking) (hp : p < 2) (hs : s.time.slot = 240) (hr : s.role p = .up)
    (hpl : s.plans p = true) (hq : s.role (1 - p) ≠ .up) (h : (s.link p).planFor (s.time.tick.toNat + 2) = none) :
    Leaves .tickCellDeadline s
      ((s.setLink p fun l => { l with plan2 := some (s.ownFixedPlan p (s.time.tick.toNat + 2)) }).setLink p fun l => { l with
        missed := true, missedCnt := satAdd 32 l.missedCnt 1 }) := by
  refine gives_of_slot (execTickCellDeadline.eq_1 s) ht hs ?_
  have hmiss := State.tickDeadline_missed (s := s.begin) hr hpl h
  obtain rfl | rfl : p = 0 ∨ p = 1 := by omega
  · rw [hmiss, State.tickDeadline_idle (p := 1) (by exact hq)]
    rfl
  · rw [State.tickDeadline_idle (s := s.begin) (p := 0) hq, hmiss]
    rfl

theorem localPlanDeadline_gives {s : State} (ht : s.ticking) (hs : s.time.slot = 249) (h : s.plan.shadow = none) :
    Gives .localPlanDeadline s fun t => t.hush = s.hush ∧ Heard 1 s t 12 0 := by
  refine gives_of_slot (execLocalPlanDeadline.eq_1 s) ht hs ?_
  rw [State.raiseIf, if_pos (by simp [h])]
  exact ⟨State.hush_raise _ _ _, heard_raise_mbx rfl rfl rfl⟩

theorem State.fwRuns_boot {s : State} (h : s.fwRuns = true) : s.boot.stage = 2 ∧ s.boot.mgtReset = false := by
  simp only [State.fwRuns, Bool.and_eq_true, beq_iff_eq, Bool.not_eq_true'] at h
  exact h.1

/-! ### The planner's refresh and its lapses (R233) -/

theorem plannerRefresh_leaves {s : State} (ha : s.awake = true) :
    Leaves .plannerRefresh s { s with plan := { s.plan with silent := 0, autonomy := 0, lapse := 0 } } :=
  gives_of_run (execPlannerRefresh.eq_1 s) ha rfl

theorem plannerRefreshLapse_gives {s : State} (ha : s.awake = true) (h : 8 ≤ s.plan.silent) (hl : s.plan.lapse < 8) :
    Gives .plannerRefreshLapse s fun t => t.hush = ({ s with plan := { s.plan with lapse := 8 } } : State).hush ∧ Heard 1 s t 58 0 := by
  refine gives_of_run (execPlannerRefreshLapse.eq_1 s) ha ?_
  rw [if_pos (by simp [h, hl])]
  exact ⟨State.hush_raise _ _ _, heard_raise_mbx rfl rfl rfl⟩

theorem plannerRefreshLapse_early {s : State} (ha : s.awake = true) (h : s.plan.silent < 8 ∨ 8 ≤ s.plan.lapse) :
    Leaves .plannerRefreshLapse s s := by
  refine gives_of_run (execPlannerRefreshLapse.eq_1 s) ha ?_
  rw [if_neg (by simp only [Bool.and_eq_true, decide_eq_true_eq]; exact fun h' => h.elim (Nat.not_lt.mpr h'.1) (Nat.not_le.mpr h'.2))]
  rfl

theorem plannerHoldExpiry_stopped {s : State} (ha : s.awake = true) (h : 64 ≤ s.plan.silent) (hl : s.plan.lapse ≠ 64) (hr : s.fwRuns = false) :
    Gives .plannerHoldExpiry s fun t => t.hush = ({ s with
      plan := { s.plan with lapse := 64 }
      fault := { s.fault with planHold := true } } : State).hush ∧ Heard 1 s t 59 0 := by
  refine gives_of_run (execPlannerHoldExpiry.eq_1 s) ha ?_
  rw [if_neg (by simp only [Bool.or_eq_true, decide_eq_true_eq, beq_iff_eq]; exact fun h' => h'.elim (Nat.not_lt.mpr h) hl)]
  dsimp only
  rw [if_neg (by simpa [State.fwRuns] using hr)]
  refine ⟨?_, ?_⟩
  · have hw := State.hush_raise ({ s.begin with plan := { s.begin.plan with lapse := 64 } } : State) 59 0
    have hf : (({ s.begin with plan := { s.begin.plan with lapse := 64 } } : State).raise 59 0).fault = s.fault := by simp
    generalize ({ s.begin with plan := { s.begin.plan with lapse := 64 } } : State).raise 59 0 = u at hw hf
    have he : ({ u with fault := { u.fault with planHold := true } } : State).hush = { u.hush with fault := { u.fault with planHold := true } } := rfl
    rw [he, hw, hf]
    rfl
  · exact Heard.of_mbx (u := ({ s.begin with plan := { s.begin.plan with lapse := 64 } } : State).raise 59 0) (heard_raise_mbx rfl rfl rfl) rfl

theorem plannerHoldExpiry_early {s : State} (ha : s.awake = true) (h : s.plan.silent < 64 ∨ s.plan.lapse = 64) :
    Leaves .plannerHoldExpiry s s := by
  refine gives_of_run (execPlannerHoldExpiry.eq_1 s) ha ?_
  rw [if_pos (by simp only [Bool.or_eq_true, decide_eq_true_eq, beq_iff_eq]; exact h)]
  rfl

theorem plannerHoldExpiry_running {s : State} (ha : s.awake = true) (h : 64 ≤ s.plan.silent) (hl : s.plan.lapse ≠ 64) (hr : s.fwRuns = true)
    (hlog : s.fault.log = []) :
    Gives .plannerHoldExpiry s fun t =>
      (∃ e ∈ t.fault.log, e.code = 7 ∧ e.action = actMgt ∧ e.tick = s.time.tick ∧ e.slot = s.time.slot)
      ∧ t.plan.silent = s.plan.silent ∧ t.boot.mgtReset = true ∧ t.fault.resetCause = 7 := by
  refine gives_of_run (execPlannerHoldExpiry.eq_1 s) ha ?_
  rw [if_neg (by simp only [Bool.or_eq_true, decide_eq_true_eq, beq_iff_eq]; exact fun h' => h'.elim (Nat.not_lt.mpr h) hl)]
  dsimp only
  rw [if_pos (by simpa [State.fwRuns] using hr)]
  obtain ⟨hstage, hreset⟩ := State.fwRuns_boot hr
  generalize hu : ({ s.begin with plan := { s.begin.plan with lapse := 64 } } : State).raise 59 0 = u
  have htime : u.time = s.time := by rw [← hu]; simp
  obtain ⟨⟨-, hmgt, -, -, -, -, -, hplan, -⟩, -, hlog', -, hcause, -⟩ := State.mgtFault_gives (s := u) (code := 7)
    (by rw [← hu]; simpa using hstage) (by rw [← hu]; simpa using hreset) (by rw [← hu]; simpa using hlog) (by decide)
  refine ⟨⟨u.faultEntry 7 actMgt 0, by rw [hlog']; exact List.mem_singleton.mpr rfl, rfl, rfl, ?_, ?_⟩, ?_, hmgt, hcause⟩
  · exact congrArg TimeSt.tick htime
  · exact congrArg TimeSt.slot htime
  · rw [hplan, ← hu]
    simp

/-- Settles O9. -/
theorem slotsOfTheTick : Obligations.SlotsOfTheTick := by
  refine ⟨fun s p ht hp => ⟨fun hs => demandFreeze_gives ht hs, fun hs => demandFreeze_sends ht hp hs,
    fun hs => lanePlanStart_leaves ht hp hs, fun hs => localPlanStart_gives ht hs, fun hs hm hpl hq hlen pl h =>
      ⟨tickCellSend_plain ht hp hs hm hpl hq h, tickCellSend_sealed ht hp hs hm hpl hq hlen h⟩,
    fun hs hr hpl hq => tickCellDeadline_leaves ht hp hs hr hpl hq, fun hs => localPlanDeadline_gives ht hs⟩,
    fun s ha => ⟨plannerRefresh_leaves ha, plannerRefreshLapse_gives ha, plannerRefreshLapse_early ha, plannerHoldExpiry_stopped ha,
      plannerHoldExpiry_running ha, plannerHoldExpiry_early ha⟩⟩

end Sys2Proof.Machine

/-! Commands that neither read nor write what the arrival of a request touches: their answers, from what their bodies do to a state. -/
namespace Sys2Proof.Machine

/-- The state with other outputs, mailboxes, recorder and services: what the arrival of a request may change. -/
def State.moved (u : State) (o : List Emit) (m : MbxSt) (r : RecSt) (v : SvcSt) : State := { u with out := o, mbx := m, rcd := r, svc := v }

/-- The function reads none of them. -/
def Deaf {γ : Type} (φ : State → γ) : Prop := ∀ u o m r v, φ (State.moved u o m r v) = φ u

/-- The effect neither reads nor writes them. -/
def Aside (f : State → State) : Prop := ∀ u o m r v, f (State.moved u o m r v) = (f u).moved o m r v

theorem State.heard_moved (row : CmdRow) (rq : Req) (s : State) :
    s.heard row rq = s.moved (s.heard row rq).out (s.heard row rq).mbx (s.heard row rq).rcd (s.heard row rq).svc := State.heard_eq row rq s

theorem Deaf.heard {γ : Type} {φ : State → γ} (h : Deaf φ) (row : CmdRow) (rq : Req) (s : State) : φ (s.heard row rq) = φ s := by
  rw [State.heard_moved]
  exact h ..

theorem Aside.heard {f : State → State} (h : Aside f) (row : CmdRow) (rq : Req) (s : State) : (f (s.heard row rq)).still = (f s).still := by
  have hs : f s = (f s).moved s.out s.mbx s.rcd s.svc := h s s.out s.mbx s.rcd s.svc
  rw [State.heard_moved, h, hs]
  simp only [State.moved, State.still, State.hush, State.calm, State.mbx_heard, State.rcd_heard, State.svc_heard]

section
variable {c : Req → Instr} {row : CmdRow} {min : Nat} {ok : Req → State → Prop} {body : Req → Nat → State → Ans}
  (hx : ∀ rq s, exec (c rq) s = command row min rq s (body rq)) (hok : ∀ rq, Deaf (ok rq))
include hx hok

theorem shows_plain {data : Req → State → List Byte} (hdata : ∀ rq, Deaf (data rq))
    (hb : ∀ rq s h, ok rq s → body rq h s = .show s (data rq s)) : Shows c row min ok data :=
  shows_of body hx fun rq s _ ho h => ⟨none, none, by
    rw [hb rq _ h (((hok rq).heard row rq s).mpr ho), (hdata rq).heard]
    rfl⟩

theorem answers_plain {rc : Req → State → Rc} {eff : Req → State → State} {data : Req → State → List Byte} (hdata : ∀ rq, Deaf (data rq))
    (heff : ∀ rq, Aside (eff rq)) (hrc : ∀ rq, Deaf (rc rq)) (hbad : ∀ rq s, (rc rq s).bad = false)
    (hna : ∀ rq s, (rc rq s == Rc.accepted) = false)
    (hb : ∀ rq s h, ok rq s → body rq h s = { st := eff rq s, rc := rc rq s, data := data rq s }) : Answers c row min ok rc eff data :=
  answers_of body hx hbad hna fun rq s _ ho h => ⟨_, none, none, by
    rw [hb rq _ h (((hok rq).heard row rq s).mpr ho), (hdata rq).heard, (hrc rq).heard], (heff rq).heard row rq s⟩

theorem does_plain {eff : Req → State → State} {data : Req → State → List Byte} (hdata : ∀ rq, Deaf (data rq))
    (heff : ∀ rq, Aside (eff rq)) (hb : ∀ rq s h, ok rq s → body rq h s = { st := eff rq s, rc := .ok, data := data rq s }) :
    Does c row min ok eff data :=
  answers_plain hx hok hdata heff (fun _ _ _ _ _ _ => rfl) (fun _ _ => Rc.bad_ok) (fun _ _ => Rc.ok_ne_accepted) hb

theorem fails_plain {rc : Rc} (hbad : rc.bad = true) (hb : ∀ rq s h, ok rq s → body rq h s = .fail s rc) : Fails c row min ok rc :=
  fails_of body hx hbad fun rq s _ ho h => ⟨_, none, none, hb rq _ h (((hok rq).heard row rq s).mpr ho)⟩

theorem starts_plain {eff : Req → State → State} {plan : Req → State → Option (Nat × List Byte)} (hplan : ∀ rq, Deaf (plan rq))
    (heff : ∀ rq, Aside (eff rq)) (hb : ∀ rq s h, ok rq s → body rq h s = .long (eff rq s) (plan rq s)) : Starts c row min ok eff plan :=
  starts_of body hx fun rq s _ _ ho h _ => ⟨_, none, none, by
    rw [hb rq _ h (((hok rq).heard row rq s).mpr ho), (hplan rq).heard]
    rfl, (heff rq).heard row rq s⟩

end

end Sys2Proof.Machine

/-! The planner's commands (R205, R222, R226, R237, Table 8.11). -/
namespace Sys2Proof.Machine

theorem clampTo_eq_max_min {lo hi : Nat} (h : lo ≤ hi) (v : Nat) : clampTo lo hi v = max lo (min hi v) := by
  unfold clampTo
  split_ifs <;> omega

/-- The ceiling written is the value asked for, clamped; the answer says whether it was within. -/
theorem budgetSet_body (s : State) (v : Nat) :
    ({ st := s.writeField 0 0 Fld.BUDGET_CEILING_MW.ty Fld.BUDGET_CEILING_MW.id (clampTo 2000 14500 v)
       rc := if clampTo 2000 14500 v == v then .ok else .okClamped } : Ans) =
    { st := { s with cfg := { s.cfg with
        ovr := (s.cfg.ovr.filter fun o =>
            !(o.layer == 0 && o.ty == Fld.BUDGET_CEILING_MW.ty && o.id == Fld.BUDGET_CEILING_MW.id))
          ++ [⟨0, Fld.BUDGET_CEILING_MW.ty, Fld.BUDGET_CEILING_MW.id, max 2000 (min 14500 v), 0⟩] } }
      rc := if 2000 ≤ v ∧ v ≤ 14500 then .ok else .okClamped } := by
  have hiff : (clampTo 2000 14500 v == v) = true ↔ 2000 ≤ v ∧ v ≤ 14500 := by
    rw [beq_iff_eq, clampTo_eq_max_min (by decide)]
    omega
  rw [if_congr hiff rfl rfl, clampTo_eq_max_min (by decide)]
  rfl

theorem planBudgetSet_answers :
    Answers .planBudgetSet Cmd.planBudgetSet 4 (fun _ _ => True)
      (fun rq _ => if 2000 ≤ arg rq 0 4 ∧ arg rq 0 4 ≤ 14500 then .ok else .okClamped)
      (fun rq s => { s with cfg := { s.cfg with
        ovr := (s.cfg.ovr.filter fun o =>
            !(o.layer == 0 && o.ty == Fld.BUDGET_CEILING_MW.ty && o.id == Fld.BUDGET_CEILING_MW.id))
          ++ [⟨0, Fld.BUDGET_CEILING_MW.ty, Fld.BUDGET_CEILING_MW.id, max 2000 (min 14500 (arg rq 0 4)), 0⟩] } }) (fun _ _ => []) := by
  refine answers_plain (fun _ _ => rfl) (fun _ _ _ _ _ _ => rfl) (fun _ _ _ _ _ _ => rfl) (fun _ _ _ _ _ _ => rfl)
    (fun _ _ _ _ _ _ => rfl) (fun rq s => ?_) (fun rq s => ?_) (fun rq s h _ => budgetSet_body s (arg rq 0 4))
  · split <;> rfl
  · split <;> rfl

theorem planShaperSet_does :
    Does .planShaperSet Cmd.planShaperSet 12
      (fun rq s => arg rq 0 1 ≤ 11 ∧ arg rq 1 1 ≤ 7 ∧ s.plan.shaperSet.length < 32)
      (fun rq s => { s with plan := { s.plan with
        shaperSet := (s.plan.shaperSet.filter fun h => !(h.outp == arg rq 0 1 && h.tc == arg rq 1 1))
          ++ if arg rq 4 4 = 0 then [] else [⟨arg rq 0 1, arg rq 1 1, arg rq 4 4, arg rq 8 2, arg rq 8 2 * 256⟩] } })
      (fun _ _ => []) := by
  refine does_plain (fun _ _ => rfl) (fun _ _ _ _ _ _ => rfl) (fun _ _ _ _ _ _ => rfl) (fun _ _ _ _ _ _ => rfl) (fun rq s h ho => ?_)
  obtain ⟨hj, hc, hn⟩ := ho
  have hlen := List.length_filter_le (fun h : Shaper => !(h.outp == arg rq 0 1 && h.tc == arg rq 1 1)) s.plan.shaperSet
  dsimp only
  rw [if_neg (by simp; omega)]
  by_cases hm : arg rq 4 4 = 0
  · simp [hm, Ans.done]
  · rw [if_neg (by simp [hm]), if_neg (by omega), if_neg hm]
    rfl

theorem planShaperSet_fails : Fails .planShaperSet Cmd.planShaperSet 12 (fun rq _ => 11 < arg rq 0 1 ∨ 7 < arg rq 1 1) .badState :=
  fails_plain (fun _ _ => rfl) (fun _ _ _ _ _ _ => rfl) rfl fun rq s h ho => if_pos (by simpa using ho)

/-! ### Contracts cleared -/

theorem map_fst_zipIdx_from {α : Type} (l : List α) (n : Nat) : (l.zipIdx n).map Prod.fst = l := by
  induction l generalizing n with
  | nil => rfl
  | cons x xs ih => rw [List.zipIdx_cons, List.map_cons, ih]

/-- A path's entry with its binding gone, where it is one of these. -/
def PathEntry.unboundIf (e : PathEntry) (gone : Bool) : PathEntry := if gone then { e with bound := false } else e

/-- A path's record with its binding gone, where it is one of these. -/
def PathRec.unboundIf (r : PathRec) (gone : Bool) : PathRec := if gone then { r with bound := false } else r

/-- A cable and its paths with every binding to these contracts gone. -/
def CableSt.unbound (c : CableSt) (gone : Nat → Bool) : CableSt :=
  { c with
    links := c.links.map fun l => { l with table := l.table.map fun e => e.unboundIf (gone e.contract) }
    paths := c.paths.map fun r => r.unboundIf (gone r.contract && r.port.isNone) }

theorem CableSt.unbound_none (c : CableSt) : c.unbound (fun _ => false) = c := by
  simp [CableSt.unbound, PathEntry.unboundIf, PathRec.unboundIf]

theorem PathEntry.unboundIf_unboundIf (e : PathEntry) (g g' : Nat → Bool) :
    (e.unboundIf (g e.contract)).unboundIf (g' (e.unboundIf (g e.contract)).contract) = e.unboundIf (g e.contract || g' e.contract) := by
  have hc (b : Bool) : (e.unboundIf b).contract = e.contract := by cases b <;> rfl
  rw [hc]
  cases g e.contract <;> cases g' e.contract <;> rfl

theorem PathRec.unboundIf_unboundIf (r : PathRec) (g g' : Nat → Bool) :
    (r.unboundIf (g r.contract && r.port.isNone)).unboundIf
      (g' (r.unboundIf (g r.contract && r.port.isNone)).contract && (r.unboundIf (g r.contract && r.port.isNone)).port.isNone) =
    r.unboundIf ((g r.contract || g' r.contract) && r.port.isNone) := by
  have hc (b : Bool) : (r.unboundIf b).contract = r.contract ∧ (r.unboundIf b).port = r.port := by cases b <;> exact ⟨rfl, rfl⟩
  rw [(hc _).1, (hc _).2]
  cases g r.contract <;> cases g' r.contract <;> cases r.port.isNone <;> rfl

theorem CableSt.unbound_unbound (c : CableSt) (g g' : Nat → Bool) : (c.unbound g).unbound g' = c.unbound fun k => g k || g' k := by
  unfold CableSt.unbound
  simp only [List.map_map, Function.comp_def, PathEntry.unboundIf_unboundIf, PathRec.unboundIf_unboundIf]

theorem State.clearContract_eq (s : State) (id : Nat) :
    s.clearContract id = { s with
      plan := { s.plan with contracts := s.plan.contracts.filter fun c => c.id != id }
      cable := s.cable.unbound fun k => k == id } := by
  have hz : (s.cable.links.zipIdx.map fun x : LinkSt × Nat =>
      ({ x.1 with table := x.1.table.map fun e => e.unboundIf (e.contract == id) } : LinkSt)) =
      s.cable.links.map fun l => { l with table := l.table.map fun e => e.unboundIf (e.contract == id) } := by
    rw [← Function.comp_def (fun l : LinkSt => ({ l with table := l.table.map fun e => e.unboundIf (e.contract == id) } : LinkSt)) Prod.fst,
      ← List.map_map, map_fst_zipIdx_from]
  unfold State.clearContract State.keepBound CableSt.unbound
  rw [← hz]
  simp only [Bool.and_false, PathEntry.unboundIf, PathRec.unboundIf]

theorem foldl_clearContract (cs : List Contract) (s : State) :
    cs.foldl (fun s c => s.clearContract c.id) s = { s with
      plan := { s.plan with contracts := s.plan.contracts.filter fun c => !cs.any fun d => c.id == d.id }
      cable := s.cable.unbound fun k => cs.any fun d => k == d.id } := by
  induction cs generalizing s with
  | nil =>
    simp only [List.foldl_nil, List.any_nil, Bool.not_false, List.filter_true]
    rw [CableSt.unbound_none]
  | cons c cs ih =>
    rw [List.foldl_cons, ih, State.clearContract_eq]
    simp only [CableSt.unbound_unbound, List.filter_filter, List.any_cons]
    congr 3
    funext x
    cases h : x.id == c.id <;> simp [bne, h]

theorem planContractClear_does :
    Does .planContractClear Cmd.planContractClear 2 (fun rq s => arg rq 0 2 ≠ 0xFFFF ∧ ∃ c ∈ s.plan.contracts, c.id = arg rq 0 2)
      (fun rq s => { s with
        plan := { s.plan with contracts := s.plan.contracts.filter fun c => c.id != arg rq 0 2 }
        cable := s.cable.unbound fun k => k == arg rq 0 2 })
      (fun _ _ => []) := by
  refine does_plain (fun _ _ => rfl) (fun _ _ _ _ _ _ => rfl) (fun _ _ _ _ _ _ => rfl) (fun _ _ _ _ _ _ => rfl) (fun rq s h ho => ?_)
  obtain ⟨hid, c, hc, he⟩ := ho
  dsimp only
  rw [if_neg (by simpa using hid), if_pos (List.any_eq_true.mpr ⟨c, hc, by simpa using he⟩), State.clearContract_eq]
  rfl

theorem planContractClear_all :
    Does .planContractClear Cmd.planContractClear 2 (fun rq _ => arg rq 0 2 = 0xFFFF)
      (fun _ s => { s with
        plan := { s.plan with contracts := [] }
        cable := s.cable.unbound fun k => s.plan.contracts.any fun c => k == c.id })
      (fun _ _ => []) := by
  refine does_plain (fun _ _ => rfl) (fun _ _ _ _ _ _ => rfl) (fun _ _ _ _ _ _ => rfl) (fun _ _ _ _ _ _ => rfl) (fun rq s h ho => ?_)
  have hnil : (s.plan.contracts.filter fun c => !s.plan.contracts.any fun d => c.id == d.id) = [] :=
    List.filter_eq_nil_iff.mpr fun c hc => by simpa using ⟨c, hc, rfl⟩
  dsimp only
  rw [if_pos (by simp [ho]), foldl_clearContract, hnil]
  rfl

theorem planContractClear_fails : Fails .planContractClear Cmd.planContractClear 2
    (fun rq s => arg rq 0 2 ≠ 0xFFFF ∧ ∀ c ∈ s.plan.contracts, c.id ≠ arg rq 0 2) .badHandle :=
  fails_plain (fun _ _ => rfl) (fun _ _ _ _ _ _ => rfl) rfl fun rq s h ⟨hid, hno⟩ => by
    dsimp only
    rw [if_neg (by simpa using hid), if_neg (by simpa using hno)]

/-! ### Contracts defined -/

theorem parseContract_id (s : State) (rq : Req) : (s.parseContract rq.payload).id = arg rq 0 2 := rfl

theorem planContractSet_does : Does .planContractSet Cmd.planContractSet 24
      (fun rq s => contractOk (s.parseContract rq.payload) = true ∧ (∀ c ∈ s.plan.contracts, c.id ≠ arg rq 0 2)
        ∧ s.plan.contracts.length < 256
        ∧ s.capacityTest (s.plan.contracts ++ [s.parseContract rq.payload]) (s.parseContract rq.payload) = true
        ∧ s.energyTest (s.plan.contracts ++ [s.parseContract rq.payload]) = true)
      (fun rq s => { s with plan := { s.plan with contracts := s.plan.contracts ++ [s.parseContract rq.payload] } })
      (fun rq _ => leBytes 2 (cellsOf (arg rq 8 4)) ++ leBytes 2 (cellsOf (arg rq 12 4))) := by
  refine does_plain (fun _ _ => rfl) (fun _ _ _ _ _ _ => rfl) (fun _ _ _ _ _ _ => rfl) (fun _ _ _ _ _ _ => rfl) (fun rq s h ho => ?_)
  obtain ⟨hok, hno, hlen, hcap, hen⟩ := ho
  have hheld : (s.plan.contracts.any fun x => x.id == (s.parseContract rq.payload).id) = false := by
    simpa [parseContract_id] using hno
  have hrest : (s.plan.contracts.filter fun x => x.id != (s.parseContract rq.payload).id) = s.plan.contracts :=
    List.filter_eq_self.mpr fun c hc => by simpa [parseContract_id] using hno c hc
  have hdef (r : Bool) : s.defineContract (s.parseContract rq.payload) r =
      ⟨.ok, 0, { s with plan := { s.plan with contracts := s.plan.contracts ++ [s.parseContract rq.payload] } }⟩ := by
    unfold State.defineContract
    simp only [hheld, hrest, hok, hcap, hen]
    rw [if_neg (by simp), if_neg (by simp), if_neg (by simp; omega)]
    rfl
  dsimp only
  rw [hdef]
  rfl

theorem planContractSet_fails : Fails .planContractSet Cmd.planContractSet 24
    (fun rq s => contractOk (s.parseContract rq.payload) = false) .badState :=
  fails_plain (fun _ _ => rfl) (fun _ _ _ _ _ _ => rfl) rfl fun rq s h ho => by
    have hdef (r : Bool) : s.defineContract (s.parseContract rq.payload) r = ⟨.badState, 0, s⟩ := if_pos (by simp [ho])
    dsimp only
    rw [hdef]
    rfl

/-! ### What the planner shows -/

theorem planBudgetShow_shows : Shows .planBudgetShow Cmd.planBudgetShow 0 (fun _ _ => True) (fun _ s =>
    leBytes 4 s.pPd ++ leBytes 4 s.pFeed ++ leBytes 4 s.pCeiling ++ leBytes 4 (s.pTh / 1000) ++ leBytes 4 s.eAvail
      ++ leBytes 4 s.plan.inForce.energy ++ leBytes 4 s.plan.deficit ++ leInt 2 (max (-32768) (min 32767 s.headroom.1))
      ++ leBytes 1 s.headroom.2 ++ leBytes 1 (min 255 s.plan.autonomy)) :=
  shows_plain (fun _ _ => rfl) (fun _ _ _ _ _ _ => rfl) (fun _ _ _ _ _ _ => rfl) fun _ _ _ _ => rfl

theorem planShow_shadow : Shows .planShow Cmd.planShow 2 (fun rq s => arg rq 0 1 ≤ 11 ∧ arg rq 1 1 = 1 ∧ s.plan.shadow = none)
    (fun _ _ => []) :=
  shows_plain (fun _ _ => rfl) (fun _ _ _ _ _ _ => rfl) (fun _ _ _ _ _ _ => rfl) fun rq s _ ⟨hj, hw, hn⟩ => by
    dsimp only
    rw [if_neg (by simp [hw]; omega), hw, if_neg (by decide), hn]

theorem planShow_inForce : Shows .planShow Cmd.planShow 2 (fun rq s => arg rq 0 1 ≤ 11 ∧ arg rq 1 1 = 0
        ∧ nth s.plan.inForce.outs (arg rq 0 1) .reset = .reset ∧ s.plan.drrDc = List.replicate 96 0)
      (fun _ s => leBytes 1 s.plan.inForce.capStep ++ leBytes 1 s.plan.inForce.enStep ++ [1, 0]
        ++ ((upTo 8).flatMap fun _ => leBytes 2 0xFFFF) ++ ((upTo 8).flatMap fun _ => leBytes 2 1)
        ++ zeros 16 ++ zeros 4 ++ leBytes 8 (3 * 2 ^ 52 + 0x76543210 * 2 ^ 16)) :=
  shows_plain (fun _ _ => rfl) (fun _ _ _ _ _ _ => rfl) (fun _ _ _ _ _ _ => rfl) fun rq s _ ⟨hj, hw, ho, hd⟩ => by
    dsimp only
    rw [if_neg (by simp [hw]; omega), hw, if_pos (by decide)]
    dsimp only
    rw [ho, hd]
    simp only [nth_replicate]
    simp only [List.append_assoc]
    rfl

theorem planContractShow_shows : Shows .planContractShow Cmd.planContractShow 2
      (fun rq s => ∃ c, s.plan.contracts = [c] ∧ c.id = arg rq 0 2)
      (fun _ s => s.plan.contracts.flatMap fun c => contractBytes c ++ leBytes 1 c.state ++ zeros 3 ++ leBytes 2 c.gAlong
        ++ leBytes 2 c.gBack ++ leBytes 8 c.above ++ leBytes 2 (s.boundPaths c)) :=
  shows_plain (fun _ _ => rfl) (fun _ _ _ _ _ _ => rfl) (fun _ _ _ _ _ _ => rfl) fun rq s _ ⟨c, hc, hid⟩ => by
    have hf : (s.plan.contracts.find? fun c => c.id == arg rq 0 2) = some c := by simp [hc, hid]
    rw [hf, hc]
    simp only [List.flatMap_cons, List.flatMap_nil, List.append_nil]

theorem planContractShow_fails : Fails .planContractShow Cmd.planContractShow 2 (fun rq s => ∀ c ∈ s.plan.contracts, c.id ≠ arg rq 0 2)
    .badHandle :=
  fails_plain (fun _ _ => rfl) (fun _ _ _ _ _ _ => rfl) rfl fun rq s h hno => by
    rw [List.find?_eq_none.mpr (by simpa using hno)]

theorem planSampleShow_shows : Shows .planSampleShow Cmd.planSampleShow 3
      (fun rq s => arg rq 0 1 ≤ 11 ∧ arg rq 1 1 ≤ 7 ∧ arg rq 2 1 = 1 ∧
        ∃ x, s.plan.samples = [x] ∧ x.outp = arg rq 0 1 ∧ x.tc = arg rq 1 1 ∧ x.tick = s.time.tick - 1 ∧ x.delay ≠ none)
      (fun _ s => leBytes 4 (s.time.tick - 1).toNat ++ s.plan.samples.flatMap fun x =>
        leBytes 2 x.depth ++ leBytes 2 x.most ++ leBytes 4 (x.delay.getD 0)) :=
  shows_plain (fun _ _ => rfl) (fun _ _ _ _ _ _ => rfl) (fun _ _ _ _ _ _ => rfl) fun rq s _ ⟨hj, hc, hn, x, hx, hxo, hxc, hxt, hxd⟩ => by
    obtain ⟨d, hd⟩ := Option.ne_none_iff_exists'.mp hxd
    have hb : s.sampleBytes (arg rq 0 1) (arg rq 1 1) (s.time.tick - 1) =
        (leBytes 4 (s.time.tick - 1).toNat ++ leBytes 2 x.depth ++ leBytes 2 x.most ++ leBytes 4 d, s) := by
      unfold State.sampleBytes
      simp [hx, hxo, hxc, hxt, hd]
    have hz : s.time.tick - 1 - BitVec.ofNat 48 0 = s.time.tick - 1 := BitVec.sub_zero _
    dsimp only
    rw [if_neg (by simp [hn]; omega), hn]
    simp only [show upTo 1 = [0] from rfl, List.foldl_cons, List.foldl_nil, hz, hb, hx, hd, List.flatMap_cons, List.flatMap_nil,
      List.append_nil, List.nil_append, List.append_assoc, Option.getD_some]

theorem planCostShow_shows : Shows .planCostShow Cmd.planCostShow 0 (fun _ _ => True) (fun _ _ =>
      [68, 40, 20, 45, 6, 1, 0, 9375, 4688, 15625, 37500, 5469, 7813, 15625, 9375, 900, 1100, 1300, 1500, 5, 12, 20, 31].flatMap
        (leBytes 4)) :=
  shows_plain (fun _ _ => rfl) (fun _ _ _ _ _ _ => rfl) (fun _ _ _ _ _ _ => rfl) fun _ _ _ _ => rfl

/-- Settles O10: each command's body is read on a state that its arrival does not touch. -/
theorem plannerCommands : Obligations.PlannerCommands := by
  unfold Obligations.PlannerCommands
  exact ⟨⟨planBudgetSet_answers, planShaperSet_does, planShaperSet_fails, planContractClear_does, planContractClear_all,
    planContractClear_fails, planContractSet_does, planContractSet_fails⟩, planBudgetShow_shows, planShow_shadow, planShow_inForce,
    planContractShow_shows, planContractShow_fails, planSampleShow_shows, planCostShow_shows⟩

end Sys2Proof.Machine

/-! The switch core's commands (R203, Tables 7.4 and 7.5). -/
namespace Sys2Proof.Machine

theorem planSwitchShow_shows : Shows .planSwitchShow Cmd.planSwitchShow 0 (fun _ _ => True) (fun _ s =>
    leBytes 2 s.poolSize ++ leBytes 2 s.poolFree ++ leBytes 2 (min s.sw.lowWater s.poolFree) ++ zeros 2
      ++ leBytes 2 (nth s.sw.replay 0 0) ++ leBytes 2 (nth s.sw.replay 1 0)
      ++ leBytes 4 (nth s.sw.pendCoach 0 0 + 65536 * nth s.sw.pendCoach 1 0)
      ++ leBytes 8 s.sw.cutCells ++ leBytes 8 s.sw.pieces ++ leBytes 8 s.sw.bankWait ++ leBytes 8 s.sw.matched
      ++ leBytes 4 s.sw.maxCut ++ zeros 4) :=
  shows_plain (fun _ _ => rfl) (fun _ _ _ _ _ _ => rfl) (fun _ _ _ _ _ _ => rfl) fun _ _ _ _ => rfl

theorem planSwitchPortShow_shows : Shows .planSwitchPortShow Cmd.planSwitchPortShow 1 (fun rq _ => arg rq 0 1 ≤ 11)
    (fun rq s => (upTo 8).flatMap fun c =>
      let k := nth s.sw.cnts (swIdx (arg rq 0 1) c) .init
      leBytes 8 k.cin ++ leBytes 8 k.cout ++ leBytes 4 k.cap ++ leBytes 4 k.full ++ leBytes 4 k.pushed ++ leBytes 2 k.ecn
        ++ leBytes 2 (s.chargedNow (arg rq 0 1) c)) :=
  shows_plain (fun _ _ => rfl) (fun _ _ _ _ _ _ => rfl) (fun _ _ _ _ _ _ => rfl) fun _ _ _ hp => if_neg (Nat.not_lt.mpr hp)

/-- A queue that holds no cell has no head: its descriptor is a free value. -/
theorem State.headDescriptor_empty (s : State) {v : Voq} (h : v.cells = []) :
    s.headDescriptor v = (leBytes 8 (Config.freeValue s.free), { s with free := s.free + 1 }) := by
  unfold State.headDescriptor
  rw [h]
  rfl

theorem foldl_headDescriptor_empty (vs : List Voq) (h : ∀ v ∈ vs, v.cells = []) (bs : List Byte) (s : State) :
    vs.foldl (fun (acc : List Byte × State) v =>
        let (b, s) := acc.2.headDescriptor v
        (acc.1 ++ b, s)) (bs, s) =
      (bs ++ (upTo vs.length).flatMap fun k => leBytes 8 (Config.freeValue (s.free + k)), { s with free := s.free + vs.length }) := by
  induction vs generalizing bs s with
  | nil => simp [upTo]
  | cons v vs ih =>
    rw [List.foldl_cons, State.headDescriptor_empty s (h v (by simp))]
    dsimp only
    rw [ih fun w hw => h w (by simp [hw])]
    simp [upTo, List.range_succ_eq_map, List.flatMap_map, Nat.add_assoc, Nat.add_comm 1]

theorem leBytes_zero (n : Nat) : leBytes n 0 = zeros n := by
  induction n with
  | zero => rfl
  | succ n ih =>
    rw [leBytes, Nat.zero_div, ih]
    rfl

theorem planSwitchVoqShow_does : Does .planSwitchVoqShow Cmd.planSwitchVoqShow 2
    (fun rq s => arg rq 0 1 ≤ 11 ∧ arg rq 1 1 ≤ 11 ∧ s.sw.voqs = []) (fun _ s => { s with free := s.free + 8 })
    (fun _ s => zeros 128 ++ (upTo 8).flatMap fun k => leBytes 8 (Config.freeValue (s.free + k))) := by
  refine does_plain (fun _ _ => rfl) (fun _ _ _ _ _ _ => rfl) (fun _ _ _ _ _ _ => rfl) (fun _ _ _ _ _ _ => rfl) fun rq s _ ho => ?_
  obtain ⟨hi, hj, hv⟩ := ho
  have hvoq (c : Nat) : s.sw.voq (arg rq 0 1) (arg rq 1 1) c = ⟨arg rq 0 1, arg rq 1 1, c, [], 0, false, 0, 0⟩ := by
    simp [SwitchSt.voq, hv]
  dsimp only
  rw [if_neg (by simp; omega), foldl_headDescriptor_empty _ (by simp [hvoq])]
  have hzero : ((upTo 8).flatMap fun c => (fun v : Voq => leBytes 2 v.cells.length ++ leBytes 2 (sharedCells v) ++ leBytes 2 v.age
      ++ zeros 2 ++ leBytes 4 v.urgents ++ leBytes 4 v.conns) ⟨arg rq 0 1, arg rq 1 1, c, [], 0, false, 0, 0⟩) = zeros 128 := by
    simp only [sharedCells, List.length_nil, List.filter_nil, leBytes_zero]
    decide
  simp only [hvoq, List.flatMap_map, hzero, List.length_map, List.nil_append]
  rfl

theorem planSwitchClear_does : Does .planSwitchClear Cmd.planSwitchClear 1 (fun rq _ => arg rq 0 1 ≤ 11)
      (fun rq s => { s with sw := { s.sw with
        cnts := (upTo 8).foldl (fun l c => put l (swIdx (arg rq 0 1) c) .init) s.sw.cnts
        voqs := s.sw.voqs.map fun v => if v.inp == arg rq 0 1 || v.outp == arg rq 0 1 then { v with urgents := 0, conns := 0 } else v } })
      (fun _ _ => []) := by
  refine does_plain (fun _ _ => rfl) (fun _ _ _ _ _ _ => rfl) (fun _ _ _ _ _ _ => rfl) (fun _ _ _ _ _ _ => rfl) fun rq s _ hp => ?_
  dsimp only
  rw [if_neg (by simp; omega), if_neg (by omega)]
  rfl

theorem planSwitchClear_fails : Fails .planSwitchClear Cmd.planSwitchClear 1 (fun rq _ => 11 < arg rq 0 1 ∧ arg rq 0 1 ≠ 0xFF) .badState :=
  fails_plain (fun _ _ => rfl) (fun _ _ _ _ _ _ => rfl) rfl fun rq s h ⟨hp, hff⟩ => by
    dsimp only
    rw [if_neg (by simpa using hff), if_pos hp]

/-- Settles O20: an empty queue's descriptor is the next free value. -/
theorem switchCommands : Obligations.SwitchCommands := by
  unfold Obligations.SwitchCommands
  exact ⟨planSwitchShow_shows, planSwitchPortShow_shows, fun rq s ha hi hj hv => planSwitchVoqShow_does rq s ha ⟨hi, hj, hv⟩,
    planSwitchClear_does, planSwitchClear_fails⟩

end Sys2Proof.Machine

/-! What an admitted request leaves, whatever its body answers: its reply on the state that the body has made. -/
namespace Sys2Proof.Machine

theorem State.chan_still {s t : State} (h : t.still = s.still) (c : Chan) : (t.chan c).hush.calm = (s.chan c).hush.calm := by
  have hm : t.mbx.hush.calm = s.mbx.hush.calm := congrArg State.mbx h
  cases c
  · exact congrArg MbxSt.loc hm
  · exact congrArg MbxSt.tun hm
  · exact congrArg MbxSt.peer hm
  · exact congrArg MbxSt.dbg hm
  · exact congrArg MbxSt.gate hm

/-- What a channel keeps besides its events and replies is the same in both. -/
theorem State.chan_of_still {γ : Type} (φ : ChanSt → γ) (hφ : ∀ x : ChanSt, φ x.hush.calm = φ x) {s t : State} (h : t.still = s.still) (c : Chan) :
    φ (t.chan c) = φ (s.chan c) := by
  rw [← hφ, ← hφ (s.chan c), State.chan_still h]

section
variable (s : State) (m : Msg) (rc : Rc) (h : Nat) (d : List Byte) (c : Chan)

@[simp] theorem State.fwReply_chan_jobs : ((s.fwReply m rc h d).chan c).jobs = (s.chan c).jobs :=
  chan_of_still ChanSt.jobs (fun _ => rfl) (State.still_fwReply ..) c

@[simp] theorem State.fwReply_chan_creds : ((s.fwReply m rc h d).chan c).creds = (s.chan c).creds :=
  chan_of_still ChanSt.creds (fun _ => rfl) (State.still_fwReply ..) c

@[simp] theorem State.fwReply_chan_nonces : ((s.fwReply m rc h d).chan c).nonces = (s.chan c).nonces :=
  chan_of_still ChanSt.nonces (fun _ => rfl) (State.still_fwReply ..) c

@[simp] theorem State.fwReply_chan_staged : ((s.fwReply m rc h d).chan c).staged = (s.chan c).staged :=
  chan_of_still ChanSt.staged (fun _ => rfl) (State.still_fwReply ..) c

@[simp] theorem State.fwReply_chan_report : ((s.fwReply m rc h d).chan c).report = (s.chan c).report :=
  chan_of_still ChanSt.report (fun _ => rfl) (State.still_fwReply ..) c

theorem State.fwReply_attn : ((s.fwReply m rc h d).chan (viaChan m.rq.via)).attn = (s.chan (viaChan m.rq.via)).attn := by
  simp [State.fwReply, State.reply]

end

section
variable {i : Instr} {row : CmdRow} {min : Nat} {rq : Req} {s u : State} {body : Nat → State → Ans} {rc : Rc} {data : List Byte}
  {p : Option (Nat × List Byte)} {f v : Option State} {nj : Bool}
  (hx : exec i s = command row min rq s body) (ha : Admitted row min rq s)
include hx ha

/-- The body has answered a result that is no failure and no acceptance. -/
theorem exec_answered (hbad : rc.bad = false) (hna : (rc == .accepted) = false)
    (hb : body (s.chan (viaChan rq.via)).freeHandle (s.heard row rq) = ⟨u, rc, data, p, f, nj, v⟩) :
    exec i s = .next (u.fwReply (msgOf rq row.opcode) rc 0 data) := by
  rw [hx, command_run ha]
  simp only [hb, hbad, hna, Bool.and_false, Bool.false_and, Bool.false_eq_true, if_false]

/-- The same, of a state that has some property. -/
theorem exec_answered_with {P : State → Prop} (hbad : rc.bad = false) (hna : (rc == .accepted) = false)
    (hb : ∃ u v, body (s.chan (viaChan rq.via)).freeHandle (s.heard row rq) = ⟨u, rc, data, p, f, nj, v⟩ ∧ P u) :
    ∃ u, exec i s = .next (u.fwReply (msgOf rq row.opcode) rc 0 data) ∧ P u := by
  obtain ⟨u, v, hb, hu⟩ := hb
  exact ⟨u, exec_answered hx ha hbad hna hb, hu⟩

/-- It has failed: what its failure leaves, or nothing. -/
theorem exec_failed (hbad : rc.bad = true)
    (hb : body (s.chan (viaChan rq.via)).freeHandle (s.heard row rq) = ⟨u, rc, data, p, f, nj, v⟩) :
    exec i s = .next ((f.getD (s.heard row rq)).fwReply (msgOf rq row.opcode) rc 0 data) := by
  have hna : (rc == .accepted) = false := by revert hbad; cases rc <;> decide
  rw [hx, command_run ha]
  simp only [hb, hbad, hna, if_true, Bool.false_and, Bool.false_eq_true, if_false]

/-- It has failed and left something: a nonce used up (R58). -/
theorem exec_failed_with {w : State} (hbad : rc.bad = true)
    (hb : body (s.chan (viaChan rq.via)).freeHandle (s.heard row rq) = ⟨s.heard row rq, rc, data, p, some w, nj, v⟩) :
    exec i s = .next (w.fwReply (msgOf rq row.opcode) rc 0 data) := exec_failed hx ha hbad hb

/-- It has been accepted, with room for its handle. -/
theorem exec_accepted (hr : s.jobRoom rq)
    (hb : body (s.chan (viaChan rq.via)).freeHandle (s.heard row rq) = ⟨u, .accepted, data, p, f, false, v⟩) :
    exec i s = .next ((u.addJob rq.via row.opcode (s.chan (viaChan rq.via)).freeHandle p).fwReply (msgOf rq row.opcode) .accepted
      (s.chan (viaChan rq.via)).freeHandle data) := by
  have hr' : ¬ 8 ≤ (s.chan (viaChan rq.via)).jobs.length := by unfold State.jobRoom at hr; omega
  rw [hx, command_run ha]
  simp only [hb, Rc.bad_accepted, hr', decide_false, Bool.and_false, Bool.false_eq_true, if_false, beq_self_eq_true, Bool.not_false,
    Bool.and_self, if_true]

/-- Its result is that of another command, and takes no handle whatever it is. -/
theorem exec_relayed (hlong : row.long = false)
    (hb : body (s.chan (viaChan rq.via)).freeHandle (s.heard row rq) = ⟨u, rc, data, p, some u, true, v⟩) :
    exec i s = .next (u.fwReply (msgOf rq row.opcode) rc 0 data) := by
  rw [hx, command_run ha]
  cases hbad : rc.bad <;>
    simp only [hb, hbad, hlong, if_true, Bool.false_and, Bool.false_eq_true, if_false, Bool.not_true, Bool.and_false, Option.getD_some]

end

end Sys2Proof.Machine

/-! What the sideband bridge does when a credential closes depends on nothing of the delivery of events and replies (R353, R355). -/
namespace Sys2Proof.Machine

/-- The states agree in all but the delivery of events and replies. -/
structure State.Alike (u w : State) : Prop where
  still : u.still = w.still

namespace State.Alike
variable {u w : State}

theorem sb (h : u.Alike w) : u.sb = w.sb := (congrArg State.sb h.still :)
theorem time (h : u.Alike w) : u.time = w.time := (congrArg State.time h.still :)
theorem topo (h : u.Alike w) : u.topo = w.topo := (congrArg State.topo h.still :)
theorem free (h : u.Alike w) : u.free = w.free := (congrArg State.free h.still :)
theorem jobs (h : u.Alike w) (c : Chan) : (u.chan c).jobs = (w.chan c).jobs := chan_of_still ChanSt.jobs (fun _ => rfl) h.still c
theorem creds (h : u.Alike w) (c : Chan) : (u.chan c).creds = (w.chan c).creds := chan_of_still ChanSt.creds (fun _ => rfl) h.still c

theorem withSb (h : u.Alike w) (b : SbSt) : ({ u with sb := b } : State).Alike { w with sb := b } :=
  ⟨congrArg (fun v : State => { v with sb := b }) h.still⟩

theorem withSb' (h : u.Alike w) {b b' : SbSt} (hb : b = b') : ({ u with sb := b } : State).Alike { w with sb := b' } := hb ▸ h.withSb b

theorem sbAge (h : u.Alike w) (chan cred : Nat) : u.sbAge chan cred = w.sbAge chan cred := by
  unfold State.sbAge
  rw [h.sb]

theorem setSb (h : u.Alike w) (g : SbSt → SbSt) : ({ u with sb := g u.sb } : State).Alike { w with sb := g w.sb } := by
  rw [h.sb]
  exact h.withSb _

theorem raise (h : u.Alike w) (n a : Nat) : (u.raise n a).Alike (w.raise n a) := ⟨by simp [h.still]⟩

theorem emit (h : u.Alike w) (e : Emit) : (u.emit e).Alike (w.emit e) := ⟨by simp [h.still]⟩

theorem peerSend (h : u.Alike w) (p : Nat) (b : List Byte) : (u.peerSend p b).Alike (w.peerSend p b) := ⟨by simp [h.still]⟩

theorem draw (h : u.Alike w) : u.draw.1 = w.draw.1 ∧ u.draw.2.Alike w.draw.2 := by
  unfold State.draw
  rw [h.free]
  exact ⟨rfl, ⟨congrArg (fun v : State => { v with free := w.free + 1 }) h.still⟩⟩

theorem setChan (h : u.Alike w) (c : Chan) {x y : ChanSt} (hxy : x.hush.calm = y.hush.calm) : (u.setChan c x).Alike (w.setChan c y) := ⟨by
  have key : ∀ (v : State) z, (v.setChan c z).still = v.still.setChan c z.hush.calm := fun v z => by cases c <;> rfl
  rw [key, key, h.still, hxy]⟩

theorem modChan (h : u.Alike w) (c : Chan) {f : ChanSt → ChanSt} (hf : ∀ x y : ChanSt, x.hush.calm = y.hush.calm → (f x).hush.calm = (f y).hush.calm) :
    (u.modChan c f).Alike (w.modChan c f) := h.setChan c (hf _ _ (chan_still h.still c))

theorem raiseOn (h : u.Alike w) (c : Chan) (n a : Nat) : (u.raiseOn c n a).Alike (w.raiseOn c n a) := ⟨by
  unfold State.raiseOn
  dsimp only
  rw [still_spore, still_spore, h.time]
  exact (h.modChan c fun x y hxy => by rw [ChanSt.hush_enter, ChanSt.hush_enter, hxy]).still⟩

theorem finish (h : u.Alike w) (via : Via) (hd rc : Nat) (data : List Byte) : (u.finish via hd rc data).Alike (w.finish via hd rc data) := by
  unfold State.finish
  dsimp only
  rw [h.jobs, h.time]
  split
  · exact h
  · exact (h.modChan _ fun x y hxy => by
      have hj : x.jobs = y.jobs := (congrArg ChanSt.jobs hxy :)
      rw [hj]
      exact congrArg (fun z : ChanSt => { z with jobs := y.jobs.map fun j : Job => if j.handle == hd then { j with result := some (rc, data), since := w.time.tick } else j }) hxy).raiseOn _ _ _

theorem finishRc (h : u.Alike w) (via : Via) (hd : Nat) (rc : Rc) (data : List Byte) : (u.finishRc via hd rc data).Alike (w.finishRc via hd rc data) :=
  h.finish via hd rc.code data

theorem foldl {β : Type} {f : State → β → State} (hf : ∀ (a b : State) (x : β), a.Alike b → (f a x).Alike (f b x)) (l : List β) (h : u.Alike w) :
    (l.foldl f u).Alike (l.foldl f w) := by
  induction l generalizing u w with
  | nil => exact h
  | cons x xs ih => exact ih (hf _ _ x h)

theorem sbSend (h : u.Alike w) (p op tag : Nat) (b : List Byte) : (u.sbSend p op tag b).Alike (w.sbSend p op tag b) := h.peerSend p _

theorem sbController (h : u.Alike w) (k i d : Nat) : u.sbController k i d = w.sbController k i d := by
  unfold State.sbController
  rw [h.sb]

theorem sbStart (h : u.Alike w) (t : SbTx) : (u.sbStart t).1 = (w.sbStart t).1 ∧ (u.sbStart t).2.Alike (w.sbStart t).2 := by
  have he : State.Alike (if t.route.dstKind == 2 then u else u.emit (.sbBus t.route.dstKind t.route.dstIf t.route.dstId t.xfer.reads
      t.xfer.repeatedStart t.xfer.data)) (if t.route.dstKind == 2 then w else w.emit (.sbBus t.route.dstKind t.route.dstIf t.route.dstId
      t.xfer.reads t.xfer.repeatedStart t.xfer.data)) := by
    split
    · exact h
    · exact h.emit _
  unfold State.sbStart
  dsimp only
  generalize (if t.route.dstKind == 2 then u else u.emit _) = u' at he ⊢
  generalize (if t.route.dstKind == 2 then w else w.emit _) = w' at he ⊢
  obtain ⟨hd, hda⟩ := he.draw
  rw [he.sbController, he.sb]
  split_ifs
  · exact ⟨by rw [hd], hda⟩
  · exact ⟨rfl, he.withSb _⟩
  · exact ⟨rfl, he⟩
  · exact ⟨by rw [hd], hda⟩
  · exact ⟨rfl, he.withSb _⟩
  · exact ⟨rfl, he.withSb _⟩
  · exact ⟨by rw [he.sb], he⟩
  · exact ⟨rfl, (he.withSb _).emit _⟩
  · exact ⟨rfl, he.withSb _⟩

theorem sbDrop (h : u.Alike w) (t : SbTx) : (u.sbDrop t).Alike (w.sbDrop t) := h.setSb fun b => { b with txs := b.txs.filter fun x => x.num != t.num }

theorem sbRun (fuel : Nat) (h : u.Alike w) : (Machine.sbRun fuel u).1 = (Machine.sbRun fuel w).1 ∧ (Machine.sbRun fuel u).2.Alike (Machine.sbRun fuel w).2 := by
  induction fuel generalizing u w with
  | zero => exact ⟨rfl, h⟩
  | succ n ih =>
    have hst : u.sbStale = w.sbStale := by
      unfold State.sbStale State.sbLockOn
      rw [h.sb]
    have hsa : u.sbStartable = w.sbStartable := by
      unfold State.sbStartable State.sbLockOn State.sbRunning
      rw [h.sb]
    unfold Machine.sbRun
    rw [hst, hsa]
    split
    · exact ⟨congrArg (_ :: ·) (ih (h.sbDrop _)).1, (ih (h.sbDrop _)).2⟩
    · split
      · next t _ =>
        obtain ⟨h1, h2⟩ := h.sbStart t
        dsimp only
        rw [h1]
        split
        · exact ⟨congrArg (_ :: ·) (ih (h2.sbDrop _)).1, (ih (h2.sbDrop _)).2⟩
        · exact ih h2
      · exact ⟨rfl, h⟩

theorem ite {c : Prop} [Decidable c] {u' w' : State} (h : u.Alike w) (h' : u'.Alike w') : (if c then u else u').Alike (if c then w else w') := by
  split
  · exact h
  · exact h'

theorem sbDeliver (h : u.Alike w) (d : SbDone) : (u.sbDeliver d).Alike (w.sbDeliver d) := by
  unfold State.sbDeliver
  rw [h.sb]
  split
  · exact (h.finishRc _ _ _ _).ite (h.finish _ _ _ _)
  · exact h.sbSend _ _ _ _
  · exact ((h.withSb _).emit _).ite h
  · exact h.ite ((h.withSb _).raise _ _)

theorem sbSettle (h : u.Alike w) : u.sbSettle.Alike w.sbSettle := by
  unfold State.sbSettle State.sbGo
  rw [h.sb]
  obtain ⟨h1, h2⟩ := h.sbRun (2 * w.sb.txs.length + 2)
  dsimp only
  rw [h1]
  exact h2.foldl (fun _ _ d hab => hab.sbDeliver d) _

theorem sbForget (h : u.Alike w) (p : SbHeld → Bool) : (u.sbForget p).Alike (w.sbForget p) :=
  h.setSb fun b => { b with ages := b.ages.map fun a : SbAge => { a with held := a.held.filter fun x => !p x } }

theorem sbObtained (h : u.Alike w) (chan cred handle : Nat) (port : Option Nat) :
    (u.sbObtained chan cred handle port).Alike (w.sbObtained chan cred handle port) := by
  unfold State.sbObtained
  rw [h.sbAge]
  split
  · exact h
  · exact h.withSb' (by dsimp only [State.setSbAge]; rw [h.sb, h.time])

theorem sbLockReply (h : u.Alike w) (o : SbOrigin) (l : SbHolder) (outcome handle : Nat) (port : Option Nat) :
    (u.sbLockReply o l outcome handle port).Alike (w.sbLockReply o l outcome handle port) := by
  unfold State.sbLockReply
  split
  · exact ((h.sbObtained ..).finish ..).ite ((h.finish ..).ite (h.finishRc ..))
  · exact h.sbSend ..
  · exact h

theorem sbTake (h : u.Alike w) (r : SbRoute) (l : SbHolder) (o : SbOrigin) : (u.sbTake r l o).1 = (w.sbTake r l o).1 ∧ (u.sbTake r l o).2.Alike (w.sbTake r l o).2 := by
  unfold State.sbTake
  exact ⟨by rw [h.sb, h.topo], h.withSb' (by dsimp only; rw [h.sb, h.topo, h.time])⟩

theorem sbGrant (h : u.Alike w) (kind intf : Nat) : (u.sbGrant kind intf).Alike (w.sbGrant kind intf) := by
  unfold State.sbGrant State.sbLockOn
  rw [h.sb]
  refine h.ite ?_
  split
  · exact h
  · next x _ =>
    obtain ⟨h1, h2⟩ := (h.setSb fun b => { b with waits := b.waits.erase x }).sbTake x.route x.holder x.origin
    dsimp only at h1 h2 ⊢
    rw [h.sb] at h1 h2
    rw [h1]
    exact h2.sbLockReply ..

theorem sbRelease (h : u.Alike w) (l : SbLock) : (u.sbRelease l).Alike (w.sbRelease l) :=
  ((h.setSb fun b => { b with locks := b.locks.filter fun k => k.handle != l.handle }).sbForget _).sbGrant ..

theorem sbCredGone (h : u.Alike w) (chan cred : Nat) : (u.sbCredGone chan cred).Alike (w.sbCredGone chan cred) := by
  unfold State.sbCredGone
  rw [h.sbAge]
  split
  · exact h
  · refine ((h.withSb' (by rw [h.sb])).foldl (fun a b x hab => ?_) _).sbSettle
    split
    · exact hab.sbSend ..
    · rw [hab.sb]
      split
      · exact (hab.raise ..).sbRelease _
      · exact hab

theorem credClosed (h : u.Alike w) (c : Chan) (handle : Nat) : (u.credClosed c handle).Alike (w.credClosed c handle) := by
  have hm : (u.modChan c fun x => { x with creds := x.creds.filter fun k => k.handle != handle }).Alike
      (w.modChan c fun x => { x with creds := x.creds.filter fun k => k.handle != handle }) := h.modChan c fun x y hxy => by
    have hj : x.creds = y.creds := (congrArg ChanSt.creds hxy :)
    rw [hj]
    exact congrArg (fun z : ChanSt => { z with creds := y.creds.filter fun k => k.handle != handle }) hxy
  have hg : ((u.chan .loc).creds.any fun k => k.level == 3) = (w.chan .loc).creds.any fun k => k.level == 3 := by rw [h.creds]
  have hg' := congrArg (fun l : List Cred => l.any fun k => k.level == 3) (hm.creds .loc)
  unfold State.credClosed
  simp only [hg, hg']
  exact (State.Alike.ite ⟨congrArg (fun v : State => { v with mbx := { v.mbx with arm := false } }) hm.still⟩ hm).sbCredGone ..

end State.Alike

end Sys2Proof.Machine

/-! A set of configuration records is applied alike whatever the mailboxes, the recorder and the services hold (R95). -/
namespace Sys2Proof.Machine

theorem resolveField_moved (u : State) (o m r v) (layer port : Nat) (sealOk : Bool) (ty id x : Nat) :
    (u.moved o m r v).resolveField layer port sealOk ty id x =
      ((u.resolveField layer port sealOk ty id x).1, (u.resolveField layer port sealOk ty id x).2.moved o m r v) := by
  have hw (f : FieldDef) (z : Nat) : (u.moved o m r v).writeField layer port ty id z = (u.writeField layer port ty id z).moved o m r v := by
    unfold State.writeField
    split <;> rfl
  unfold State.resolveField
  split
  · rfl
  · split
    · rfl
    · next f _ _ =>
      dsimp only
      rw [hw f]
      rfl

theorem checkRecord_moved (u : State) (o m r v) (layer port base : Nat) (sealOk : Bool) (c : CfgRec) :
    (u.moved o m r v).checkRecord layer port base sealOk c =
      ((u.checkRecord layer port base sealOk c).1, (u.checkRecord layer port base sealOk c).2.moved o m r v) := by
  unfold State.checkRecord
  exact List.foldl_hom (fun x : List Given × State => (x.1, x.2.moved o m r v)) (init := ([], u))
    (H := fun x b => by dsimp only; rw [resolveField_moved])

theorem cfgReport_moved (u : State) (o m r v) (layer : Nat) (gs : List Given) :
    (u.moved o m r v).cfgReport layer gs = u.cfgReport layer gs := by
  induction gs with
  | nil => rfl
  | cons g gs ih =>
    unfold State.cfgReport
    rw [ih]
    rfl

theorem applySet_moved (u : State) (o m r v) (layer port : Nat) (set : List Byte) :
    (u.moved o m r v).applySet layer port set =
      { u.applySet layer port set with st := (u.applySet layer port set).st.moved o m r v } := by
  have hfold (good : List (CfgRec × Nat)) (step : List Given × State × Nat → CfgRec × Nat → List Given × State × Nat)
      (hs : ∀ x b, step (x.1, x.2.1.moved o m r v, x.2.2) b = ((step x b).1, (step x b).2.1.moved o m r v, (step x b).2.2)) :
      good.foldl step ([], u.moved o m r v, 0) = ((good.foldl step ([], u, 0)).1, (good.foldl step ([], u, 0)).2.1.moved o m r v,
        (good.foldl step ([], u, 0)).2.2) :=
    List.foldl_hom (fun x : List Given × State × Nat => (x.1, x.2.1.moved o m r v, x.2.2)) (init := ([], u, 0)) (H := hs)
  unfold State.applySet
  dsimp only
  rw [hfold]
  · simp only [cfgReport_moved]
    rfl
  · rintro ⟨gs, t, base⟩ ⟨c, a⟩
    have hseal : (u.moved o m r v).maySeal layer a = u.maySeal layer a := rfl
    dsimp only
    rw [hseal]
    split
    · exact congrArg (fun z : List Given × State => (gs ++ z.1, z.2, base + c.fields.length))
        (checkRecord_moved { t with cfg := { t.cfg with store := (t.cfg.store.filter fun y => y.ty != c.ty) ++ [⟨c.ty, c.bytes, []⟩] } }
          o m r v layer port base (u.maySeal layer a) c)
    · rw [checkRecord_moved]

theorem nextRole_moved (u : State) (o m r v) : (u.moved o m r v).nextRole = u.nextRole := by
  have ha (set : List Byte) : (({ u with cfg := .init } : State).moved o m r v).applySet 3 0 set = _ := applySet_moved _ o m r v 3 0 set
  unfold State.nextRole
  rw [show (u.moved o m r v).upd = u.upd from rfl]
  cases u.upd.flash.governing with
  | some c => exact (congrArg (fun a : ApplyAns => a.st.applied Fld.DEVICE_ROLE) (ha c.records)).trans rfl
  | none => rfl

end Sys2Proof.Machine

/-! The sys commands (Tables 3.12, 21.9, 22.3 and 22.4). -/
namespace Sys2Proof.Machine

theorem sysPing_shows : Shows .sysPing Cmd.sysPing 0 (fun _ _ => True) (fun _ _ => []) :=
  shows_plain (fun _ _ => rfl) (fun _ _ _ _ _ _ => rfl) (fun _ _ _ _ _ _ => rfl) fun _ _ _ _ => rfl

theorem State.countLocal_chan_of_attended {s : State} (hu : s.mbx.unatt = false) (v : Via) (c : Chan) : (s.countLocal v).chan c = s.chan c := by
  by_cases hv : v = .spi
  · rw [hv, State.countLocal_spi, hu]
    cases c <;> rfl
  · rw [State.countLocal_of_ne hv]

theorem sysEventRead_reads {rq : Req} {s : State} (ha : Admitted Cmd.sysEventRead 1 rq s) (hg : ∀ i, rq.via ≠ .gate i) (h1 : 1 ≤ arg rq 0 1)
    (h63 : arg rq 0 1 ≤ 63) (hu : s.mbx.unatt = false) :
    ∃ t, exec (.sysEventRead rq) s = .next t
      ∧ t.Replied rq .ok 0 (eventReply (arg rq 0 1) (s.chan (viaChan rq.via)).lost (s.chan (viaChan rq.via)).queue)
      ∧ (t.chan (viaChan rq.via)).queue = (s.chan (viaChan rq.via)).queue.drop (arg rq 0 1)
      ∧ (t.chan (viaChan rq.via)).lost = 0 ∧ (t.chan (viaChan rq.via)).attn = false := by
  have hq : (s.heard Cmd.sysEventRead rq).chan (viaChan rq.via) = s.chan (viaChan rq.via) := by
    rw [State.heard_chan, State.countLocal_chan_of_attended hu]
  refine ⟨_, exec_sysEventRead ha hg h1 h63, ?_⟩
  rw [hq]
  exact ⟨State.fwReply_replied ..,
    (State.fwReply_queue _ (msgOf rq _) ..).1.trans (by rw [msgOf, State.modChan_chan_self, hq]; rfl),
    (State.fwReply_queue _ (msgOf rq _) ..).2.trans (by rw [msgOf, State.modChan_chan_self]; rfl),
    (State.fwReply_attn _ (msgOf rq _) ..).trans (by rw [msgOf, State.modChan_chan_self]; rfl)⟩

theorem sysEventRead_fails : Fails .sysEventRead Cmd.sysEventRead 1 (fun rq _ => arg rq 0 1 = 0 ∨ 63 < arg rq 0 1) .badState :=
  fails_plain (fun _ _ => rfl) (fun _ _ _ _ _ _ => rfl) rfl fun rq s h ho => if_pos (by simpa using ho)

/-- A channel changed alike in both states that agree but for deliveries leaves them so. -/
theorem State.still_modChan_heard (row : CmdRow) (rq : Req) (s : State) (c : Chan) {f : ChanSt → ChanSt}
    (hf : ∀ x y : ChanSt, x.hush.calm = y.hush.calm → (f x).hush.calm = (f y).hush.calm) :
    ((s.heard row rq).modChan c f).still = (s.modChan c f).still :=
  (State.Alike.modChan ⟨State.still_heard row rq s⟩ c hf).still

theorem sysEventMask_does : Does .sysEventMask Cmd.sysEventMask 24 (fun rq _ => ∀ i, rq.via ≠ .gate i)
      (fun rq s => s.modChan (viaChan rq.via) fun c => { c with mask := BitVec.ofNat 192 (arg rq 0 24) }) (fun _ _ => []) := by
  refine does_of (fun rq _ s =>
    let m := BitVec.ofNat 192 (arg rq 0 24)
    match rq.via with
    | .gate i => .done (s.setInst i fun x => { x with mask := m })
    | via => .done (s.modChan (viaChan via) fun c => { c with mask := m })) (fun _ _ => rfl) fun rq s ha hg h => ⟨_, none, none, ?_,
      State.still_modChan_heard Cmd.sysEventMask rq s (viaChan rq.via) fun x y hxy =>
        congrArg (fun z : ChanSt => { z with mask := BitVec.ofNat 192 (arg rq 0 24) }) hxy⟩
  dsimp only
  split
  · next i hi => exact absurd hi (hg i)
  · rfl

/-! ### Results of long commands (R59) -/

section
variable {rq : Req} {s : State}

theorem find_job_heard (row : CmdRow) (hg : ∀ i, rq.via ≠ .gate i) (h : Nat) :
    (((s.heard row rq).chan (viaChan rq.via)).jobs.find? fun j => j.handle == h && (viaChan rq.via != .gate || j.via == rq.via)) =
      (s.chan (viaChan rq.via)).jobs.find? fun j => j.handle == h := by
  have hne : (viaChan rq.via != .gate) = true := by simpa using viaChan_ne_gate hg
  simp only [State.heard_chan_jobs, hne, Bool.true_or, Bool.and_true]

theorem sysCmdResult_answers {j : Job} {rc : Nat} {data : List Byte} (ha : Admitted Cmd.sysCmdResult 2 rq s) (hg : ∀ i, rq.via ≠ .gate i)
    (hj : ((s.chan (viaChan rq.via)).jobs.find? fun j => j.handle == arg rq 0 2) = some j) (hr : j.result = some (rc, data)) :
    ∃ t, exec (.sysCmdResult rq) s = .next t ∧ t.Replied rq (Rc.of rc) 0 data
      ∧ (t.chan (viaChan rq.via)).jobs = (s.chan (viaChan rq.via)).jobs.filter fun k => k.handle != arg rq 0 2 := by
  refine ⟨_, exec_relayed rfl ha rfl (p := none) (v := none) (rc := Rc.of rc) (data := data)
    (u := (s.heard Cmd.sysCmdResult rq).modChan (viaChan rq.via) fun x => { x with jobs := x.jobs.filter fun k => k.handle != arg rq 0 2 })
    (by dsimp only; rw [find_job_heard _ hg, hj]; dsimp only; rw [hr]), State.fwReply_replied .., ?_⟩
  rw [State.fwReply_chan_jobs, State.modChan_chan_self]
  simp only [State.heard_chan_jobs]

end

theorem sysCmdResult_pending : Fails .sysCmdResult Cmd.sysCmdResult 2 (fun rq s => (∀ i, rq.via ≠ .gate i) ∧
      ∃ j, ((s.chan (viaChan rq.via)).jobs.find? fun j => j.handle == arg rq 0 2) = some j ∧ j.result = none) .retryLater :=
  fails_of _ (fun _ _ => rfl) rfl fun rq s _ ⟨hg, j, hj, hr⟩ _ => ⟨_, none, none, by dsimp only; rw [find_job_heard _ hg, hj]; dsimp only; rw [hr]; rfl⟩

theorem sysCmdResult_unknown : Fails .sysCmdResult Cmd.sysCmdResult 2 (fun rq s => (∀ i, rq.via ≠ .gate i) ∧
      ((s.chan (viaChan rq.via)).jobs.find? fun j => j.handle == arg rq 0 2) = none) .badHandle :=
  fails_of _ (fun _ _ => rfl) rfl fun rq s _ ⟨hg, hj⟩ _ => ⟨_, none, none, by dsimp only; rw [find_job_heard _ hg, hj]; rfl⟩

/-! ### Credentials (R58, R67) -/

theorem State.chan_of_mbx {s t : State} (h : t.mbx = s.mbx) {c : Chan} : t.chan c = s.chan c := by
  cases c <;> simp only [State.chan, h]

theorem sysCredChallenge_answers {rq : Req} {s : State} (ha : Admitted Cmd.sysCredChallenge 0 rq s) :
    ∃ t n, exec (.sysCredChallenge rq) s = .next t ∧ t.Replied rq .ok 0 n.bytes ∧ n.bytes.length = 32 ∧ n.tick = s.time.tick
      ∧ n.owner = viaOwner rq.via ∧ (t.chan (viaChan rq.via)).nonces = (s.chan (viaChan rq.via)).nonces ++ [n] := by
  refine ⟨_, ⟨fitBytes 32 (Config.random s.free), viaOwner rq.via, s.time.tick⟩, exec_answered rfl ha (rc := .ok) rfl rfl
    (p := none) (f := none) (v := none) (nj := false) (data := fitBytes 32 (Config.random s.free))
    (u := ((({ s.heard Cmd.sysCredChallenge rq with free := s.free + 1 } : State).spore 7 0 (fitBytes 32 (Config.random s.free))).modChan
      (viaChan rq.via) fun c => { c with nonces := c.nonces ++ [⟨fitBytes 32 (Config.random s.free), viaOwner rq.via, s.time.tick⟩] }))
    ?_, State.fwReply_replied .., ?_, rfl, rfl, ?_⟩
  · simp only [State.entropy, State.heard_free, State.heard_time]
  · simp [fitBytes, zeros]
    omega
  · have hm : ({ s.heard Cmd.sysCredChallenge rq with free := s.free + 1 } : State).chan (viaChan rq.via) =
        (s.heard Cmd.sysCredChallenge rq).chan (viaChan rq.via) := State.chan_of_mbx rfl
    rw [State.fwReply_chan_nonces, State.modChan_chan_self, State.spore_chan, hm]
    dsimp only
    rw [State.heard_chan_nonces]

section
variable {rq : Req} {s : State} (row : CmdRow)

theorem nonceOk_heard (via : Via) (bytes : List Byte) : (s.heard row rq).nonceOk via bytes = s.nonceOk via bytes := by
  unfold State.nonceOk
  rw [State.heard_chan_nonces, State.heard_time]

theorem credSigned_heard (c : Chan) (l k : Nat) (n g : List Byte) : (s.heard row rq).credSigned c l k n g = s.credSigned c l k n g :=
  Deaf.heard (φ := fun u => u.credSigned c l k n g) (fun _ _ _ _ _ => rfl) row rq s

theorem ceiling_heard (c : Chan) : (s.heard row rq).ceiling c = s.ceiling c :=
  Deaf.heard (φ := fun u => u.ceiling c) (fun _ _ _ _ _ => by cases c <;> rfl) row rq s

theorem useNonce_heard_nonces (via : Via) (bytes : List Byte) : (((s.heard row rq).useNonce via bytes).chan (viaChan via)).nonces =
    (s.chan (viaChan via)).nonces.filter fun n => n.bytes != bytes := by
  rw [State.useNonce, State.modChan_chan_self]
  exact congrArg _ (State.heard_chan_nonces ..)

theorem useNonce_heard_creds (via : Via) (bytes : List Byte) : (((s.heard row rq).useNonce via bytes).chan (viaChan via)).creds =
    (s.chan (viaChan via)).creds := by
  rw [State.useNonce, State.modChan_chan_self]
  exact State.heard_chan_creds ..

end

/-- A credential added to a channel, and the arming of LOCAL that one of level 3 brings (R58). -/
def State.credAdded (s : State) (c : Chan) (kid : Nat) (k : Cred) : State :=
  let t := (s.cryptoSpore true kid []).modChan c fun x => { x with
    creds := x.creds ++ [k], nextCred := if 0xFFFFFFFF ≤ k.handle then 1 else k.handle + 1 }
  if c == .loc && k.level == 3 then { t with mbx := { t.mbx with arm := true } } else t

theorem State.credAdded_chan (s : State) (c : Chan) (kid : Nat) (k : Cred) : (s.credAdded c kid k).chan c =
    { s.chan c with creds := (s.chan c).creds ++ [k], nextCred := if 0xFFFFFFFF ≤ k.handle then 1 else k.handle + 1 } := by
  have hs : (s.cryptoSpore true kid []).chan c = s.chan c := State.spore_chan ..
  have harm (t : State) : ({ t with mbx := { t.mbx with arm := true } } : State).chan c = t.chan c := by cases c <;> rfl
  unfold State.credAdded
  dsimp only
  rw [apply_ite (State.chan · c), harm, ite_self, State.modChan_chan_self, hs]

theorem State.credAdded_creds (s : State) (c : Chan) (kid : Nat) (k : Cred) : ((s.credAdded c kid k).chan c).creds = (s.chan c).creds ++ [k] := by
  rw [credAdded_chan]

theorem State.credAdded_nonces (s : State) (c : Chan) (kid : Nat) (k : Cred) : ((s.credAdded c kid k).chan c).nonces = (s.chan c).nonces := by
  rw [credAdded_chan]

section
variable {rq : Req} {s : State} (ha : Admitted Cmd.sysCredOpen 136 rq s) (hl : arg rq 0 1 ≤ 3)
include ha hl

/-- An open with a good signature over a live nonce: the credential is added under the channel's next handle. -/
theorem sysCredOpen_good (hc : arg rq 0 1 ≤ s.ceiling (viaChan rq.via)) (hn : (s.chan (viaChan rq.via)).creds.length < 4)
    (hgood : (s.nonceOk rq.via (slice 8 32 rq.payload)
      && s.credSigned (viaChan rq.via) (arg rq 0 1) (arg rq 4 4) (slice 8 32 rq.payload) (slice 40 96 rq.payload)) = true) :
    ∃ t, exec (.sysCredOpen rq) s = .next t ∧ t.Replied rq .ok 0 (leBytes 4 (s.chan (viaChan rq.via)).nextCred)
      ∧ (t.chan (viaChan rq.via)).creds = (s.chan (viaChan rq.via)).creds
        ++ [⟨(s.chan (viaChan rq.via)).nextCred, arg rq 0 1, viaOwner rq.via, s.time.tick⟩]
      ∧ (t.chan (viaChan rq.via)).nonces = (s.chan (viaChan rq.via)).nonces.filter fun n => n.bytes != slice 8 32 rq.payload := by
  obtain ⟨h1, h2⟩ := (Bool.and_eq_true _ _).mp hgood
  have hx : exec (.sysCredOpen rq) s = .next ((((s.heard Cmd.sysCredOpen rq).useNonce rq.via (slice 8 32 rq.payload)).credAdded
      (viaChan rq.via) (arg rq 4 4) ⟨(s.chan (viaChan rq.via)).nextCred, arg rq 0 1, viaOwner rq.via, s.time.tick⟩).fwReply
        (msgOf rq Cmd.sysCredOpen.opcode) .ok 0 (leBytes 4 (s.chan (viaChan rq.via)).nextCred)) :=
    exec_answered rfl ha (p := none) (f := none) (v := none) (nj := false) rfl rfl (by
      dsimp only
      rw [if_neg (by omega), if_neg (by rw [ceiling_heard]; omega), if_neg (by rw [nonceOk_heard, credSigned_heard, h1, h2]; decide),
        if_neg (by rw [State.heard_chan_creds]; omega), State.heard_chan_nextCred, State.heard_time]
      rfl)
  refine ⟨_, hx, State.fwReply_replied .., ?_, ?_⟩
  · rw [State.fwReply_chan_creds, State.credAdded_creds, useNonce_heard_creds]
  · rw [State.fwReply_chan_nonces, State.credAdded_nonces, useNonce_heard_nonces]

/-- An open that is not good uses its nonce up and adds nothing. -/
theorem sysCredOpen_bad (hc : arg rq 0 1 ≤ s.ceiling (viaChan rq.via))
    (hbad : (s.nonceOk rq.via (slice 8 32 rq.payload)
      && s.credSigned (viaChan rq.via) (arg rq 0 1) (arg rq 4 4) (slice 8 32 rq.payload) (slice 40 96 rq.payload)) = false) :
    ∃ t, exec (.sysCredOpen rq) s = .next t ∧ t.Replied rq .authFail 0 []
      ∧ (t.chan (viaChan rq.via)).creds = (s.chan (viaChan rq.via)).creds
      ∧ (t.chan (viaChan rq.via)).nonces = (s.chan (viaChan rq.via)).nonces.filter fun n => n.bytes != slice 8 32 rq.payload := by
  have hx : exec (.sysCredOpen rq) s = .next (((((s.heard Cmd.sysCredOpen rq).useNonce rq.via (slice 8 32 rq.payload)).raise 7
      (chanNum (viaChan rq.via) % 4 + 65536 * (arg rq 4 4 % 65536))).cryptoSpore false (arg rq 4 4) []).fwReply
        (msgOf rq Cmd.sysCredOpen.opcode) .authFail 0 []) :=
    exec_failed_with rfl ha (p := none) (v := none) (nj := false) rfl (by
      dsimp only
      rw [if_neg (by omega), if_neg (by rw [ceiling_heard]; omega),
        if_pos (by rw [nonceOk_heard, credSigned_heard, ← Bool.not_and, hbad]; decide)])
  refine ⟨_, hx, State.fwReply_replied .., ?_, ?_⟩
  · rw [State.fwReply_chan_creds, State.cryptoSpore, State.spore_chan]
    exact (State.chan_of_still ChanSt.creds (fun _ => rfl) (State.still_raise ..) _).trans (useNonce_heard_creds ..)
  · rw [State.fwReply_chan_nonces, State.cryptoSpore, State.spore_chan]
    exact (State.chan_of_still ChanSt.nonces (fun _ => rfl) (State.still_raise ..) _).trans (useNonce_heard_nonces ..)

theorem sysCredOpen_above (hc : s.ceiling (viaChan rq.via) < arg rq 0 1) :
    ∃ t, exec (.sysCredOpen rq) s = .next t ∧ t.Replied rq .locked 0 []
      ∧ (t.chan (viaChan rq.via)).creds = (s.chan (viaChan rq.via)).creds
      ∧ (t.chan (viaChan rq.via)).nonces = (s.chan (viaChan rq.via)).nonces.filter fun n => n.bytes != slice 8 32 rq.payload := by
  have hx : exec (.sysCredOpen rq) s = .next ((((s.heard Cmd.sysCredOpen rq).useNonce rq.via (slice 8 32 rq.payload)).raise 7
      (chanNum (viaChan rq.via) % 4 + 65536 * (arg rq 4 4 % 65536))).fwReply (msgOf rq Cmd.sysCredOpen.opcode) .locked 0 []) :=
    exec_failed_with rfl ha (p := none) (v := none) (nj := false) rfl (by
      dsimp only
      rw [if_neg (by omega), if_pos (by rw [ceiling_heard]; omega)])
  refine ⟨_, hx, State.fwReply_replied .., ?_, ?_⟩
  · rw [State.fwReply_chan_creds]
    exact (State.chan_of_still ChanSt.creds (fun _ => rfl) (State.still_raise ..) _).trans (useNonce_heard_creds ..)
  · rw [State.fwReply_chan_nonces]
    exact (State.chan_of_still ChanSt.nonces (fun _ => rfl) (State.still_raise ..) _).trans (useNonce_heard_nonces ..)

end

theorem sysCredClose_does : Does .sysCredClose Cmd.sysCredClose 4
      (fun rq s => (∀ i, rq.via ≠ .gate i) ∧ ∃ k ∈ (s.chan (viaChan rq.via)).creds, k.handle = arg rq 0 4)
      (fun rq s => s.credClosed (viaChan rq.via) (arg rq 0 4)) (fun _ _ => []) := by
  refine does_of _ (fun _ _ => rfl) fun rq s _ ⟨hg, k, hk, he⟩ _ => ⟨(s.heard Cmd.sysCredClose rq).credClosed (viaChan rq.via) (arg rq 0 4),
    none, none, ?_, (State.Alike.credClosed ⟨State.still_heard ..⟩ _ _).still⟩
  have hne : (viaChan rq.via != .gate) = true := by simpa using viaChan_ne_gate hg
  dsimp only
  rw [State.heard_chan_creds, if_pos (List.any_eq_true.mpr ⟨k, hk, by simp [he, hne]⟩)]
  rfl

theorem sysCredClose_fails : Fails .sysCredClose Cmd.sysCredClose 4 (fun rq s => ∀ k ∈ (s.chan (viaChan rq.via)).creds, k.handle ≠ arg rq 0 4)
    .badHandle := by
  refine fails_of _ (fun _ _ => rfl) rfl fun rq s _ hno _ => ⟨s.heard Cmd.sysCredClose rq, none, none, ?_⟩
  dsimp only
  rw [State.heard_chan_creds, if_neg (by simp only [List.any_eq_true, not_exists]; rintro k ⟨hk, he⟩; simp [hno k hk] at he)]
  rfl

/-! ### Topology, time and faults -/

theorem sysTopoShow_shows : Shows .sysTopoShow Cmd.sysTopoShow 0 (fun _ _ => True) (fun _ s =>
      let port := fun (p : Nat) =>
        let c := s.chn p
        leBytes 1 (s.link p).state ++ leBytes 1 (portRoleCode (s.role p)) ++ leBytes 1 (c.position % 8 + 128 * b2n c.quiet)
          ++ leBytes 1 (if c.quiet then 0 else c.mode) ++ leBytes 1 (s.partner p)
          ++ leBytes 1 (b2n (nth s.topo.heldT p false) + 2 * b2n (s.link p).gen1)
          ++ leBytes 1 (s.applied (if p == 0 then Fld.FALLBACK_DPX_CP0 else Fld.FALLBACK_DPX_CP1)) ++ zeros 1
      leBytes 1 s.topo.role.code ++ leBytes 1 s.nextRole ++ leBytes 1 s.topo.depth
        ++ leBytes 1 (s.applied Fld.MAX_HOPS) ++ port 0 ++ port 1 ++ s.topo.ends.flatMap (leBytes 1) ++ zeros 1) :=
  shows_plain (fun _ _ => rfl) (fun _ _ _ _ _ _ => rfl) (fun _ u o m r v => by
    dsimp only
    rw [nextRole_moved]
    rfl) fun _ _ _ _ => rfl

theorem sysTimeShow_shows : Shows .sysTimeShow Cmd.sysTimeShow 0 (fun _ _ => True) (fun _ s =>
      let port := fun (p : Nat) =>
        let a := s.alignOf p
        leBytes 1 (alignCode a.align) ++ leBytes 1 (min 255 a.relock) ++ zeros 2 ++ leInt 4 (if a.align == .notUp then 0 else a.offset)
      leBytes 6 s.time.tick.toNat ++ leBytes 1 s.time.slot ++ leBytes 1 s.time.reference ++ leBytes 1 s.time.holdover ++ zeros 1
        ++ leBytes 2 (if s.time.holdover == 0 then 0 else s.time.hoTicks) ++ port 0 ++ port 1 ++ leInt 4 s.time.steer
        ++ leBytes 4 s.time.refLosses) :=
  shows_plain (fun _ _ => rfl) (fun _ _ _ _ _ _ => rfl) (fun _ _ _ _ _ _ => rfl) fun _ _ _ _ => rfl

theorem unitsOut_heard (row : CmdRow) (rq : Req) (s : State) : (s.heard row rq).unitsOut = s.unitsOut := by
  simp [State.unitsOut, State.core, State.phyOut, State.romNow]

theorem sysFaultShow_shows : Shows .sysFaultShow Cmd.sysFaultShow 0 (fun _ _ => True)
    (fun _ s => faultRecord s.fault ++ leBytes 2 s.unitsOut ++ zeros 2) :=
  shows_of (fun _ _ s => .show s (faultRecord s.fault ++ leBytes 2 s.unitsOut ++ zeros 2)) (fun _ _ => rfl) fun rq s _ _ _ => ⟨none, none, by
    rw [unitsOut_heard, State.heard_fault]
    rfl⟩

theorem sysFaultClear_does : Does .sysFaultClear Cmd.sysFaultClear 0 (fun _ _ => True)
      (fun _ s => { s with fault := { s.fault with log := [], counts := List.replicate 64 0, floor := 0 } }) (fun _ _ => []) :=
  does_plain (fun _ _ => rfl) (fun _ _ _ _ _ _ => rfl) (fun _ _ _ _ _ _ => rfl) (fun _ _ _ _ _ _ => rfl) fun _ _ _ _ => rfl

/-! ### Resets asked for (R551) -/

theorem sysReset_defers : Does .sysReset Cmd.sysReset 1
      (fun rq s => (arg rq 0 1 = 1 ∨ arg rq 0 1 = 2) ∧ ∀ d, s.fault.deferred = some d → d.1 ≠ 1)
      (fun rq s => { s with fault := { s.fault with
        deferred := some (arg rq 0 1, 0x32, s.time.tick + BitVec.ofNat 48 (msTicks 1)) } }) (fun _ _ => []) :=
  does_plain (fun _ _ => rfl) (fun _ _ _ _ _ _ => rfl) (fun _ _ _ _ _ _ => rfl) (fun _ _ _ _ _ _ => rfl) fun rq s _ ⟨hk, hd⟩ => by
    have hd' : (s.fault.deferred.any fun d => d.1 == 1) = false := by
      cases h : s.fault.deferred with
      | none => rfl
      | some d => simpa using hd d h
    dsimp only
    rw [if_neg (by rcases hk with h | h <;> simp [h]), if_neg (by simp [hd'])]
    rfl

theorem sysReset_absorbed : Does .sysReset Cmd.sysReset 1
      (fun rq s => (arg rq 0 1 = 1 ∨ arg rq 0 1 = 2) ∧ ∃ d, s.fault.deferred = some d ∧ d.1 = 1) (fun _ s => s) (fun _ _ => []) :=
  does_plain (fun _ _ => rfl) (fun _ _ _ _ _ _ => rfl) (fun _ _ _ _ _ _ => rfl) (fun _ _ _ _ _ _ => rfl) fun rq s _ ⟨hk, d, hd, hd1⟩ => by
    dsimp only
    rw [if_neg (by rcases hk with h | h <;> simp [h]), if_pos (by simp [hd, hd1])]
    rfl

theorem sysReset_fails : Fails .sysReset Cmd.sysReset 1 (fun rq _ => arg rq 0 1 = 0) .badState :=
  fails_plain (fun _ _ => rfl) (fun _ _ _ _ _ _ => rfl) rfl fun rq s h ho => by
    dsimp only
    rw [if_pos (by simp [ho])]

/-- Settles O34: each command's body on the state in which its request has been heard. -/
theorem sysCommands : Obligations.SysCommands := by
  unfold Obligations.SysCommands
  refine ⟨sysPing_shows, fun rq s ha hg h1 h63 hu => sysEventRead_reads ha hg h1 h63 hu, sysEventRead_fails, sysEventMask_does,
    fun rq s j rc data ha hg hj hr => sysCmdResult_answers ha hg hj hr, sysCmdResult_pending, sysCmdResult_unknown,
    fun rq s ha => sysCredChallenge_answers ha, fun rq s ha hl hc hn => ?_, fun rq s ha hl hc => sysCredOpen_above ha hl hc,
    sysCredClose_does, sysCredClose_fails, sysTopoShow_shows, sysTimeShow_shows, sysFaultShow_shows, sysFaultClear_does,
    sysReset_defers, sysReset_absorbed, sysReset_fails⟩
  dsimp only
  split
  · next hgood => exact sysCredOpen_good ha hl hc hn hgood
  · next hbad =>
    rw [List.append_nil]
    exact sysCredOpen_bad ha hl hc (by simpa using hbad)

end Sys2Proof.Machine

/-! What paths, contracts and the cells of a link leave alone: all but the cables, the switch core, the planner, and what a report touches. -/
namespace Sys2Proof.Machine

/-- The state without its cables, switch core and planner, and without what reports touch. -/
def State.ashore (s : State) : State :=
  { s with out := [], free := 0, mbx := .init, rcd := .init, svc := .init, cable := .init, sw := .init, plan := .init }

@[simp] theorem State.ashore_ite (c : Prop) [Decidable c] (s t : State) : (if c then s else t).ashore = if c then s.ashore else t.ashore :=
  apply_ite State.ashore c s t

@[simp] theorem State.ashore_foldl {β : Type} {f : State → β → State} (h : ∀ s b, (f s b).ashore = s.ashore) (l : List β) (s : State) :
    (l.foldl f s).ashore = s.ashore :=
  foldl_same f State.ashore h l s

theorem State.ashore_of_still {s t : State} (h : t.still = s.still) : t.ashore = s.ashore :=
  (congrArg State.ashore h :)

@[simp] theorem State.ashore_raise (s : State) (n a : Nat) : (s.raise n a).ashore = s.ashore := ashore_of_still (s.still_raise n a)
@[simp] theorem State.ashore_spore (s : State) (k c : Nat) (p : List Byte) : (s.spore k c p).ashore = s.ashore := ashore_of_still (s.still_spore k c p)
@[simp] theorem State.ashore_setLink (s : State) (p : Nat) (f : LinkSt → LinkSt) : (s.setLink p f).ashore = s.ashore := rfl
@[simp] theorem State.ashore_peerSend (s : State) (p : Nat) (b : List Byte) : (s.peerSend p b).ashore = s.ashore := rfl

@[simp] theorem State.ashore_sendOwn (s : State) (p : Nat) (c : Cell) : (s.sendOwn p c).ashore = s.ashore := by
  unfold State.sendOwn
  dsimp only
  split <;> rfl

@[simp] theorem State.ashore_ctlSend (s : State) (p typ : Nat) (fields : List Nat) (blob : List Byte) :
    (s.ctlSend p typ fields blob).ashore = s.ashore := by
  simp [State.ctlSend]

@[simp] theorem State.ashore_ctl (s : State) (p typ : Nat) (fields : List Nat) : (s.ctl p typ fields).ashore = s.ashore := s.ashore_ctlSend ..

@[simp] theorem State.ashore_freeReplay (s : State) (p n : Nat) : (s.freeReplay p n).ashore = s.ashore := by
  unfold State.freeReplay
  rfl

@[simp] theorem State.ashore_uninstall (s : State) (p l : Nat) : (s.uninstall p l).ashore = s.ashore := by simp [State.uninstall]

@[simp] theorem State.ashore_closePath (s : State) (id : Nat) : (s.closePath id).ashore = s.ashore := by
  unfold State.closePath
  split
  · rfl
  · split
    · rfl
    · split
      · rfl
      · exact (ashore_ctl ..).trans (ashore_uninstall ..)

@[simp] theorem State.ashore_clearContract (s : State) (id : Nat) : (s.clearContract id).ashore = s.ashore := rfl

@[simp] theorem State.ashore_sendDown (s : State) (o : FwdOrigin) (p : Nat) (m : Msg) : (s.sendDown o p m).ashore = s.ashore := by
  unfold State.sendDown
  dsimp only
  split <;> rfl

@[simp] theorem State.ashore_sendClears (s : State) (p hops : Nat) (ids : List Nat) : (s.sendClears p hops ids).ashore = s.ashore := by
  simp [State.sendClears]

end Sys2Proof.Machine

/-! The network commands (Table 12.8, R325, R326, R336, R338, R339, R341). -/
namespace Sys2Proof.Machine

theorem netShow_shows : Shows .netShow Cmd.netShow 1 (fun rq _ => arg rq 0 1 ≤ 1) (fun rq s =>
      let m := s.mac (arg rq 0 1)
      leBytes 1 (nth s.topo.ends 6 0) ++ leBytes 1 (if m.up then m.speed else 0) ++ leBytes 1 (b2n s.net.bound)
        ++ leBytes 1 s.presenceState ++ leBytes 8 m.framesIn ++ leBytes 8 m.framesOut ++ leBytes 4 m.fcs ++ leBytes 4 m.overflow
        ++ leBytes 4 s.net.flows.length ++ leBytes 4 s.net.learnFails) :=
  shows_plain (fun _ _ => rfl) (fun _ _ _ _ _ _ => rfl) (fun _ _ _ _ _ _ => rfl) fun _ _ _ hk => if_neg (Nat.not_lt.mpr hk)

/-! ### Unbinding and groups -/

theorem State.closeGroup_net (s : State) (g : Nat) :
    (s.closeGroup g).net = { s.net with groups := s.net.groups.filter fun y => y.group != g } := by
  unfold State.closeGroup State.netGroup
  split
  · next h =>
    rw [List.filter_eq_self.mpr fun y hy => by simpa using List.find?_eq_none.mp h y hy]
  · next x _ =>
    have key (u : State) (hu : u.net = s.net) : (if x.contract == 0 then u else
        (u.clearContract x.contract).sendClears ((u.pathPort u.net.chain).getD 0) u.net.hops [x.contract]).net = s.net := by
      rw [← hu]
      split
      · rfl
      · exact (congrArg State.net (State.ashore_sendClears ..) :)
    cases x.path with
    | none =>
      dsimp only
      rw [key s rfl]
    | some id =>
      dsimp only
      rw [key (s.closePath id) (congrArg State.net (s.ashore_closePath id) :)]

theorem foldl_closeGroup_net (gs : List Nat) (s : State) :
    (gs.foldl (fun s g => s.closeGroup g) s).net = { s.net with groups := s.net.groups.filter fun y => !gs.contains y.group } := by
  induction gs generalizing s with
  | nil => simp only [List.foldl_nil, List.contains_nil, Bool.not_false, List.filter_true]
  | cons g gs ih =>
    rw [List.foldl_cons, ih, State.closeGroup_net]
    have hf : ((s.net.groups.filter fun y => y.group != g).filter fun y => !gs.contains y.group) =
        s.net.groups.filter fun y => !(g :: gs).contains y.group := by
      rw [List.filter_filter]
      refine List.filter_congr fun y _ => ?_
      cases h : y.group == g <;> simp_all [bne]
    dsimp only
    rw [hf]

theorem State.netUnbind_net (s : State) : s.netUnbind.net =
    { s.net with groups := [], bound := false, binding := false, suspended := false, macKnown := false, farLink := false, farSpeed := 0 } := by
  have hg := foldl_closeGroup_net (s.net.groups.map (·.group)) s
  rw [List.filter_eq_nil_iff.mpr fun y hy => by simpa using ⟨y, hy, rfl⟩] at hg
  unfold State.netUnbind State.bindEvent
  dsimp only
  split
  · rw [State.raise_net, hg]
  · rw [hg]

theorem netBind_unbinds {rq : Req} {s : State} (ha : Admitted Cmd.netBind 4 rq s) (hr : s.jobRoom rq) (hf : s.netFunction = true)
    (hu : bitAt (arg rq 3 1) 0 = true) (hb : s.net.bound = true) :
    ∃ t, exec (.netBind rq) s = .next t ∧ t.Replied rq .accepted (s.chan (viaChan rq.via)).freeHandle []
      ∧ t.net.bound = false ∧ t.net.groups = [] ∧ t.net.farLink = false := by
  have hf' : (s.heard Cmd.netBind rq).netFunction = true := by rw [← hf, State.netFunction, State.heard_topo, ← State.netFunction]
  have hx := exec_accepted (u := (s.heard Cmd.netBind rq).netUnbind) (i := .netBind rq) (p := some (0, [])) (f := none) (v := none) rfl ha hr (by
    dsimp only
    rw [if_neg (by simp [hf']), if_pos hu, if_neg (by simp [hb])]
    rfl)
  refine ⟨_, hx, State.fwReply_replied .., ?_⟩
  rw [State.fwReply_net, State.addJob_net, State.netUnbind_net]
  exact ⟨rfl, rfl, rfl⟩

theorem netBind_fails : Fails .netBind Cmd.netBind 4 (fun _ s => s.netFunction = false) .badState :=
  fails_plain (fun _ _ => rfl) (fun _ _ _ _ _ _ => rfl) rfl fun rq s h hf => if_pos (by simp [hf])

theorem netGroupSet_closes {rq : Req} {s : State} {x : NetGroup} (ha : Admitted Cmd.netGroupSet 12 rq s) (hr : s.jobRoom rq)
    (hf : s.netFunction = true) (h1 : 1 ≤ arg rq 0 1) (h7 : arg rq 0 1 ≤ 7) (hu : bitAt (arg rq 1 1) 0 = true) (hb : s.net.bound = true)
    (hg : s.netGroup (arg rq 0 1) = some x) :
    ∃ t, exec (.netGroupSet rq) s = .next t ∧ t.Replied rq .accepted (s.chan (viaChan rq.via)).freeHandle []
      ∧ t.net.groups = s.net.groups.filter fun y => y.group != arg rq 0 1 := by
  have hf' : (s.heard Cmd.netGroupSet rq).netFunction = true := by rw [← hf, State.netFunction, State.heard_topo, ← State.netFunction]
  have hg' : (s.heard Cmd.netGroupSet rq).netGroup (arg rq 0 1) = some x := by rw [← hg, State.netGroup, State.heard_net, ← State.netGroup]
  have hx := exec_accepted (u := (s.heard Cmd.netGroupSet rq).closeGroup (arg rq 0 1)) (i := .netGroupSet rq) (p := some (0, [])) (f := none)
    (v := none) rfl ha hr (by
      dsimp only
      rw [if_neg (by simp [hf', hb]; omega), if_pos hu, if_neg (by simp [hg'])]
      rfl)
  refine ⟨_, hx, State.fwReply_replied .., ?_⟩
  rw [State.fwReply_net, State.addJob_net, State.closeGroup_net, State.heard_net]

/-! ### Rules, flows and meters -/

theorem netRuleSet_does : Does .netRuleSet Cmd.netRuleSet 96 (fun rq _ => arg rq 0 1 ≤ 253 ∧ fieldAt (arg rq 88 8) 62 2 ≠ 3)
      (fun rq s => { s with net := { s.net with ruleNext := s.net.ruleNext ++ [{
        index := arg rq 0 1, gen := (s.ruleGen (arg rq 0 1) + 1) % 65536, isSet := !bitAt (arg rq 1 1) 0
        value := slice 4 42 rq.payload, mask := slice 46 42 rq.payload, act := actOf (arg rq 88 8) }] } })
      (fun rq s => leBytes 2 ((s.ruleGen (arg rq 0 1) + 1) % 65536)) := by
  refine does_plain (fun _ _ => rfl) (fun _ _ _ _ _ _ => rfl) (fun _ _ _ _ _ _ => rfl) (fun _ _ _ _ _ _ => rfl) fun rq s _ ⟨hi, hw⟩ => ?_
  have hr : s.ruleReserved (arg rq 0 1) rq.via = false := by
    have : ¬ 254 ≤ arg rq 0 1 := by omega
    simp [State.ruleReserved, this]
  dsimp only
  rw [if_neg (by simp [hr, hw])]

theorem netFlowSet_does : Does .netFlowSet Cmd.netFlowSet 56
      (fun rq s => bitAt (arg rq 0 1) 0 = false ∧ fieldAt (arg rq 48 8) 62 2 ≠ 3 ∧ s.bucket (flowBucket (slice 4 42 rq.payload)) = []
        ∧ (s.net.flows.find? fun e => e.key == slice 4 42 rq.payload) = none)
      (fun rq s => s.putFlow { bucket := flowBucket (slice 4 42 rq.payload), way := 0, key := slice 4 42 rq.payload, rule := 0xFFFF, gen := 0
                               static := true, act := { actOf (arg rq 48 8) with learn := false }, last := s.tick32, hits := 0 })
      (fun _ _ => []) := by
  refine does_plain (fun _ _ => rfl) (fun _ _ _ _ _ _ => rfl) (fun _ _ _ _ _ _ => rfl) (fun _ _ _ _ _ _ => rfl) fun rq s _ ho => ?_
  obtain ⟨hd, hw, hb, hn⟩ := ho
  dsimp only
  rw [hb, hn, if_neg (by simp [hd]), if_neg (by simpa using hw)]
  rfl

theorem netFlowSet_fails : Fails .netFlowSet Cmd.netFlowSet 56
      (fun rq s => bitAt (arg rq 0 1) 0 = true ∧ (s.net.flows.find? fun e => e.key == slice 4 42 rq.payload) = none) .badHandle :=
  fails_plain (fun _ _ => rfl) (fun _ _ _ _ _ _ => rfl) rfl fun rq _ _ ⟨hd, hn⟩ => by
    dsimp only
    rw [hn, if_pos hd]

theorem netFlowShow_shows (e : Flow) : Shows .netFlowShow Cmd.netFlowShow 42
    (fun rq s => (s.net.flows.find? fun e => e.key == slice 0 42 rq.payload) = some e) (fun _ _ => flowBytes e) :=
  shows_plain (fun _ _ => rfl) (fun _ _ _ _ _ _ => rfl) (fun _ _ _ _ _ _ => rfl) fun rq s _ he => by rw [he]

theorem netMeterSet_does : Does .netMeterSet Cmd.netMeterSet 12
      (fun rq _ => 1 ≤ arg rq 0 2 ∧ arg rq 0 2 ≤ 4095 ∧ 1 ≤ arg rq 4 4 ∧ arg rq 4 4 ≤ 25000 ∧ 1518 ≤ arg rq 8 4 ∧ arg rq 8 4 ≤ 1048576)
      (fun rq s => { s with net := { s.net with meters := (s.net.meters.filter fun m => m.id != arg rq 0 2) ++ [{
        id := arg rq 0 2, mbps := arg rq 4 4, burst := arg rq 8 4, tokens := arg rq 8 4 * 64, filled := s.slotCount
        drops := ((s.net.meters.find? fun m => m.id == arg rq 0 2).map (·.drops)).getD 0 }] } })
      (fun rq s => leBytes 8 (((s.net.meters.find? fun m => m.id == arg rq 0 2).map (·.drops)).getD 0)) := by
  refine does_plain (fun _ _ => rfl) (fun _ _ _ _ _ _ => rfl) (fun _ _ _ _ _ _ => rfl) (fun _ _ _ _ _ _ => rfl) fun rq s _ ho => ?_
  obtain ⟨h1, h2, h3, h4, h5, h6⟩ := ho
  dsimp only
  rw [if_neg (by simp; omega), if_neg (by simp; omega)]

/-! ### Presence and counters -/

theorem netPresenceSet_does : Does .netPresenceSet Cmd.netPresenceSet 4 (fun rq s => s.netPort = true ∧ arg rq 0 1 = 5 ∧ arg rq 2 2 = 0)
      (fun _ s => { s with net := { s.net with v4 := [], v6 := [], mdns := [], patterns := [], magic := false } }) (fun _ _ => []) := by
  refine does_plain (fun _ _ => rfl) (fun _ _ _ _ _ _ => rfl) (fun _ _ _ _ _ _ => rfl) (fun _ _ _ _ _ _ => rfl) fun rq s _ ⟨hp, ht, hl⟩ => ?_
  have hf : s.netFunction = false := by
    have : nth s.topo.ends 6 0 = 2 := by simpa [State.netPort] using hp
    simp [State.netFunction, this]
  dsimp only
  rw [if_neg (by simp [hf]), if_neg (by simp [hp, ht]), if_neg (by omega), ht]
  rfl

theorem netPresenceShow_shows : Shows .netPresenceShow Cmd.netPresenceShow 0 (fun _ _ => True) (fun _ s =>
      leBytes 1 s.presenceState ++ leBytes 1 (total ((s.net.v4.filter fun x => x.2.2).map fun x => 2 ^ x.1))
        ++ leBytes 2 (total ((s.net.v6.filter fun x => x.2.2).map fun x => 2 ^ x.1)) ++ leBytes 4 s.net.arp ++ leBytes 4 s.net.nd
        ++ leBytes 4 s.net.mdnsCnt ++ leBytes 4 s.net.wakes ++ leBytes 4 s.net.bufCnt ++ leBytes 4 s.net.bufDrops) :=
  shows_plain (fun _ _ => rfl) (fun _ _ _ _ _ _ => rfl) (fun _ _ _ _ _ _ => rfl) fun _ _ _ _ => rfl

theorem netClear_does : Does .netClear Cmd.netClear 1 (fun rq _ => arg rq 0 1 ≤ 1)
      (fun rq s => s.setMac (arg rq 0 1) fun m =>
        { m with framesIn := 0, framesOut := 0, short := 0, long := 0, fcs := 0, overflow := 0, txDrops := 0 }) (fun _ _ => []) := by
  refine does_plain (fun _ _ => rfl) (fun _ _ _ _ _ _ => rfl) (fun _ _ _ _ _ _ => rfl) (fun _ _ _ _ _ _ => rfl) fun rq s _ hk => ?_
  dsimp only
  rw [if_neg (by simp; omega), if_neg (by omega)]
  rfl

/-- Settles O31: a group closed leaves the other groups, so closing every group in turn leaves none. -/
theorem netCommands : Obligations.NetCommands := by
  unfold Obligations.NetCommands
  exact ⟨netShow_shows, fun rq s ha hr hf hu hb => netBind_unbinds ha hr hf hu hb, netBind_fails,
    fun rq s x ha hr hf h1 h7 hu hb hg => netGroupSet_closes ha hr hf h1 h7 hu hb hg, netRuleSet_does, netFlowSet_does, netFlowSet_fails,
    netFlowShow_shows, netMeterSet_does, netPresenceSet_does, netPresenceShow_shows, netClear_does⟩

end Sys2Proof.Machine

/-! The sideband commands (Tables 13.2 and 13.5, R350, R351, R353, R355, R356, R358). -/
namespace Sys2Proof.Machine

theorem sbShow_shows : Shows .sbShow Cmd.sbShow 0 (fun _ _ => True) (fun _ s =>
      leBytes 4 s.sb.pending.toNat ++ leBytes 1 s.sb.locks.length
        ++ leBytes 1 (s.sb.waits.filter fun w => w.sentOn.isNone).length ++ zeros 2 ++ leBytes 4 s.sb.holdTimeouts
        ++ leBytes 4 s.sb.busErrs) :=
  shows_plain (fun _ _ => rfl) (fun _ _ _ _ _ _ => rfl) (fun _ _ _ _ _ _ => rfl) fun _ _ _ _ => rfl

/-! ### Routes -/

theorem sbRouteSet_clears : Does .sbRouteSet Cmd.sbRouteSet 16 (fun rq _ => arg rq 0 1 ≤ 63 ∧ bitAt (arg rq 8 8) 63 = false)
      (fun rq s => { s with sb := { s.sb with routes := put s.sb.routes (arg rq 0 1) none } }) (fun _ _ => []) := by
  refine does_plain (fun _ _ => rfl) (fun _ _ _ _ _ _ => rfl) (fun _ _ _ _ _ _ => rfl) (fun _ _ _ _ _ _ => rfl) fun rq s _ ⟨hi, hv⟩ => ?_
  have hr : routeOf (arg rq 8 8) = none := if_neg (by simp [hv])
  dsimp only
  rw [hr, if_neg (by omega)]
  rfl

theorem sbRouteSet_sets (r : SbRoute) : Does .sbRouteSet Cmd.sbRouteSet 16
      (fun rq s => arg rq 0 1 ≤ 63 ∧ routeOf (arg rq 8 8) = some r ∧ routeReserved r = false ∧ ∀ q ∈ s.sb.routes, q = none)
      (fun rq s => { s with sb := { s.sb with routes := put s.sb.routes (arg rq 0 1) (some r) } }) (fun _ _ => []) := by
  refine does_plain (fun _ _ => rfl) (fun _ _ _ _ _ _ => rfl) (fun _ _ _ _ _ _ => rfl) (fun _ _ _ _ _ _ => rfl) fun rq s _ ho => ?_
  obtain ⟨hi, hr, hres, hq⟩ := ho
  have hdup : (s.sb.routes.zipIdx.any fun x => x.2 != arg rq 0 1 &&
      (match x.1 with
        | some q => q.srcKind == r.srcKind && q.srcIf == r.srcIf && q.srcId == r.srcId
        | none => false)) = false := by
    rw [List.any_eq_false]
    rintro ⟨x, k⟩ hx
    rw [hq x (List.fst_mem_of_mem_zipIdx hx)]
    simp
  dsimp only
  rw [if_neg (by omega), hr]
  exact if_neg (by rw [Bool.not_eq_true, Bool.or_eq_false_iff]; exact ⟨hres, hdup⟩)

theorem sbRouteShow_shows : Shows .sbRouteShow Cmd.sbRouteShow 1 (fun rq _ => arg rq 0 1 ≤ 63)
      (fun rq s => leBytes 8 (routeWord (nth s.sb.routes (arg rq 0 1) none))) :=
  shows_plain (fun _ _ => rfl) (fun _ _ _ _ _ _ => rfl) (fun _ _ _ _ _ _ => rfl) fun _ _ _ hi => if_neg (Nat.not_lt.mpr hi)

/-! ### A transaction with a fan -/

theorem State.sbGo_idle {u : State} (h : u.sb.txs = []) : u.sbGo = ([], u) := by
  simp [State.sbGo, sbRun, State.sbStale, State.sbStartable, h]

/-- A read of a fan, alone in the bridge, ends at once with the fan's speed. -/
theorem State.sbGo_fan {u : State} {t : SbTx} (h : u.sb.txs = [t]) (hr : t.running = false) (hs : t.sentOn = none) (hl : t.xfer.lock = 0)
    (hk : t.route.dstKind = 5) (hd : t.xfer.data = []) (hlock : u.sbLockOn 5 t.route.dstIf = none) :
    u.sbGo = ([⟨t, 0, (leBytes 2 (nth u.sb.rpm (t.route.dstId % 4) 0)).take t.xfer.reads⟩],
      (u.emit (.sbBus 5 t.route.dstIf t.route.dstId t.xfer.reads t.xfer.repeatedStart [])).sbDrop t) := by
  have hstale : u.sbStale = none := by simp [State.sbStale, h, hl]
  have hstart : u.sbStartable = some t := by simp [State.sbStartable, State.sbRunning, h, hr, hs, hk, hlock]
  have hgo : u.sbStart t = (some (0, (leBytes 2 (nth u.sb.rpm (t.route.dstId % 4) 0)).take t.xfer.reads),
      u.emit (.sbBus 5 t.route.dstIf t.route.dstId t.xfer.reads t.xfer.repeatedStart [])) := by
    simp [State.sbStart, State.sbController, hk, hd, State.emit]
  have hdone : (((u.emit (.sbBus 5 t.route.dstIf t.route.dstId t.xfer.reads t.xfer.repeatedStart [])).sbDrop t).sb.txs) = [] := by
    simp [State.sbDrop, State.emit, h]
  unfold State.sbGo
  rw [h, show 2 * [t].length + 2 = 3 + 1 from rfl, sbRun, hstale, hstart]
  dsimp only
  rw [hgo]
  dsimp only
  rw [sbRun]
  simp [State.sbStale, State.sbStartable, hdone]

/-- The modes of the serial interfaces are taken up without touching anything else of the bridge (Table 13.4). -/
theorem State.sbModes_eq (s : State) : ∃ m, s.sbModes = { s with sb := { s.sb with modes := m } } := ⟨_, rfl⟩

theorem sbXfer_fan {rq : Req} {s : State} {r : SbRoute} (ha : Admitted Cmd.sbXfer 12 rq s) (hlen : rq.payload.length = 12)
    (hw : arg rq 2 2 = 0) (hn : arg rq 4 2 = 2) (hl : arg rq 8 4 = 0) (hr : s.sbRoute 0 0 (arg rq 0 2) = some r) (hok : r.readOk = true)
    (hh : r.hops = 0) (hk : r.dstKind = 5) (htx : s.sb.txs = []) (hlock : s.sbLockOn 5 r.dstIf = none) :
    ∃ t, exec (.sbXfer rq) s = .next t
      ∧ t.Replied rq .ok 0 (leBytes 1 0 ++ zeros 3 ++ leBytes 2 (nth s.sb.rpm (r.dstId % 4) 0)) ∧ t.sb.txs = [] := by
  have hdata : rq.payload.drop 12 = [] := List.drop_eq_nil_of_le hlen.le
  obtain ⟨m, hm⟩ := (s.heard Cmd.sbXfer rq).sbModes_eq
  have hsb : (s.heard Cmd.sbXfer rq).sbModes.sb = { s.sb with modes := m } := by rw [hm]; exact congrArg (fun b : SbSt => { b with modes := m }) (State.heard_sb ..)
  generalize hu : (s.heard Cmd.sbXfer rq).sbModes = u at hsb
  have hroute : u.sbRoute 0 0 (arg rq 0 2) = some r := by rw [← hr, State.sbRoute, hsb, State.sbRoute]
  let t : SbTx := ⟨u.sb.nextNum, .cmd rq.via (s.chan (viaChan rq.via)).freeHandle, r, ⟨2, bitAt (arg rq 6 2) 0, 0, []⟩, none, false, 0⟩
  let v : State := { u with sb := { u.sb with nextNum := u.sb.nextNum + 1, txs := [t] } }
  have hsub : u.sbSubmit (.cmd rq.via (s.chan (viaChan rq.via)).freeHandle) r ⟨2, bitAt (arg rq 6 2) 0, 0, []⟩ = (u.sb.nextNum, [], v) := by
    simp [State.sbSubmit, hh, v, t, hsb, htx]
  have hgo := State.sbGo_fan (u := v) (t := t) rfl rfl rfl rfl hk rfl (by
    show u.sb.locks.find? _ = none
    rw [hsb]
    exact hlock)
  have hx : exec (.sbXfer rq) s = .next (((v.emit (.sbBus 5 r.dstIf r.dstId 2 (bitAt (arg rq 6 2) 0) [])).sbDrop t).fwReply
      (msgOf rq Cmd.sbXfer.opcode) .ok 0 (xferReply 0 ((leBytes 2 (nth s.sb.rpm (r.dstId % 4) 0)).take 2))) :=
    exec_answered rfl ha (p := none) (f := none) (v := none) (nj := false) rfl rfl (by
      dsimp only
      rw [hdata, hn, hl, hw, if_neg (by decide), if_neg (by simp), hu, hroute]
      dsimp only
      rw [if_neg (by simp [routePermits, hok]), if_neg (by simp), hsub]
      dsimp only
      rw [hgo]
      have hrpm : nth v.sb.rpm (r.dstId % 4) 0 = nth s.sb.rpm (r.dstId % 4) 0 := by simp only [v, hsb]
      rw [← hrpm]
      simp [t, Ans.show])
  refine ⟨_, hx, State.fwReply_replied .., ?_⟩
  rw [State.fwReply_sb]
  simp [State.sbDrop, State.emit, v, t]

/-! ### Locks (R353) -/

/-- A lock obtained keeps its handle and its interface in the list. -/
theorem State.sbObtained_mem {u : State} {l : SbLock} (h : l ∈ u.sb.locks) (chan cred handle : Nat) (port : Option Nat) :
    ∃ l' ∈ (u.sbObtained chan cred handle port).sb.locks, l'.handle = l.handle ∧ l'.kind = l.kind ∧ l'.intf = l.intf := by
  unfold State.sbObtained
  split
  · exact ⟨l, h, rfl, rfl, rfl⟩
  · refine ⟨_, List.mem_map_of_mem h, ?_⟩
    split <;> exact ⟨rfl, rfl, rfl⟩

theorem State.sbAsk_keeps (s : State) (chan cred : Nat) : (s.sbAsk chan cred).2.sb.locks = s.sb.locks
    ∧ (s.sbAsk chan cred).2.sb.nextLock = s.sb.nextLock ∧ (s.sbAsk chan cred).2.topo = s.topo := ⟨rfl, rfl, rfl⟩

/-- A lock on an interface that none holds is granted at once, under the next handle. -/
theorem State.sbLockHere_free {s : State} {r : SbRoute} (h : s.sbLockOn r.dstKind r.dstIf = none) (o : SbOrigin) (num : Nat) (x : SbHolder) :
    s.sbLockHere o num r x = (some (s.sb.nextLock + 65536 * (s.topo.depth % 16)), (s.sbTake r x o).2) := by
  unfold State.sbLockHere
  rw [h]
  rfl

theorem State.sbTake_mem (s : State) (r : SbRoute) (x : SbHolder) (o : SbOrigin) :
    (⟨s.sb.nextLock + 65536 * (s.topo.depth % 16), r.dstKind, r.dstIf, x, o, false, s.time.tick⟩ : SbLock) ∈ (s.sbTake r x o).2.sb.locks :=
  List.mem_append_right _ (List.mem_singleton_self _)

theorem sbLock_grants {rq : Req} {s : State} {r : SbRoute} (ha : Admitted Cmd.sbLock 2 rq s) (hr : s.sbRoute 0 0 (arg rq 0 2) = some r)
    (hh : r.hops = 0) (hlock : s.sbLockOn r.dstKind r.dstIf = none) :
    ∃ t, exec (.sbLock rq) s = .next t ∧ t.Replied rq .ok 0 (leBytes 4 (s.sb.nextLock + 65536 * (s.topo.depth % 16)))
      ∧ ∃ l ∈ t.sb.locks, l.handle = s.sb.nextLock + 65536 * (s.topo.depth % 16) ∧ l.kind = r.dstKind ∧ l.intf = r.dstIf := by
  have hroute : (s.heard Cmd.sbLock rq).sbRoute 0 0 (arg rq 0 2) = some r := by rw [← hr, State.sbRoute, State.heard_sb, State.sbRoute]
  obtain ⟨hlocks, hnext, htopo⟩ := (s.heard Cmd.sbLock rq).sbAsk_keeps (chanNum (viaChan rq.via)) rq.cred.toNat
  generalize hask : (s.heard Cmd.sbLock rq).sbAsk (chanNum (viaChan rq.via)) rq.cred.toNat = a at hlocks hnext htopo
  obtain ⟨x, w⟩ := a
  dsimp only at hlocks hnext htopo
  let v : State := { w with sb := { w.sb with nextNum := w.sb.nextNum + 1 } }
  let o : SbOrigin := .cmd rq.via (s.chan (viaChan rq.via)).freeHandle
  have hfree : v.sbLockOn r.dstKind r.dstIf = none := by
    show w.sb.locks.find? _ = none
    rw [hlocks, State.heard_sb]
    exact hlock
  have hk : v.sb.nextLock + 65536 * (v.topo.depth % 16) = s.sb.nextLock + 65536 * (s.topo.depth % 16) := by
    show w.sb.nextLock + 65536 * (w.topo.depth % 16) = _
    rw [hnext, htopo, State.heard_sb, State.heard_topo]
  have hx : exec (.sbLock rq) s = .next (((v.sbTake r x o).2.sbObtained x.chan x.cred (v.sb.nextLock + 65536 * (v.topo.depth % 16)) none).fwReply
      (msgOf rq Cmd.sbLock.opcode) .ok 0 (leBytes 4 (v.sb.nextLock + 65536 * (v.topo.depth % 16)))) :=
    exec_answered rfl ha (p := none) (f := none) (v := none) (nj := false) rfl rfl (by
      dsimp only
      rw [hroute]
      dsimp only
      rw [hask]
      dsimp only
      rw [if_pos (by simp [hh]), State.sbLockHere_free hfree]
      rfl)
  rw [hk] at hx
  obtain ⟨l, hl, h1, h2, h3⟩ := State.sbObtained_mem (v.sbTake_mem r x o) x.chan x.cred (s.sb.nextLock + 65536 * (s.topo.depth % 16)) none
  exact ⟨_, hx, State.fwReply_replied .., l, by rw [State.fwReply_sb]; exact hl, h1.trans hk, h2, h3⟩

/-! ### Locks released -/

theorem State.sbRelease_alone {u : State} (hw : u.sb.waits = []) (l : SbLock) : (u.sbRelease l).sb.txs = u.sb.txs
    ∧ (u.sbRelease l).sb.locks = u.sb.locks.filter fun k => k.handle != l.handle := by
  unfold State.sbRelease State.sbGrant
  dsimp only
  split
  · exact ⟨rfl, rfl⟩
  · simp [State.sbForget, hw, oldestWait]

theorem sbUnlock_releases {rq : Req} {s : State} {a : SbAge} {h : SbHeld} {l : SbLock} (ha : Admitted Cmd.sbUnlock 4 rq s)
    (hage : s.sbAge (chanNum (viaChan rq.via)) rq.cred.toNat = some a) (hheld : (a.held.find? fun h => h.handle == arg rq 0 4) = some h)
    (hport : h.port = none) (hl : (s.sb.locks.find? fun l => l.handle == arg rq 0 4) = some l) (hw : s.sb.waits = []) (htx : s.sb.txs = []) :
    ∃ t, exec (.sbUnlock rq) s = .next t ∧ t.Replied rq .ok 0 []
      ∧ t.sb.locks = s.sb.locks.filter fun x => x.handle != arg rq 0 4 := by
  have hh : l.handle = arg rq 0 4 := by simpa using List.find?_some hl
  obtain ⟨h1, h2⟩ := State.sbRelease_alone (u := s.heard Cmd.sbUnlock rq) (by rw [State.heard_sb, hw]) l
  rw [State.heard_sb] at h1 h2
  have hage' : (s.heard Cmd.sbUnlock rq).sbAge (chanNum (viaChan rq.via)) rq.cred.toNat = some a := by
    rw [← hage, State.sbAge, State.heard_sb, State.sbAge]
  have hx : exec (.sbUnlock rq) s = .next (((s.heard Cmd.sbUnlock rq).sbRelease l).fwReply (msgOf rq Cmd.sbUnlock.opcode) .ok 0 []) :=
    exec_answered rfl ha (p := none) (f := none) (v := none) (nj := false) rfl rfl (by
      dsimp only
      rw [hage']
      dsimp only
      rw [hheld]
      dsimp only
      rw [hport]
      dsimp only
      rw [State.heard_sb, hl]
      dsimp only
      rw [State.sbSettle, State.sbGo_idle (h1.trans htx)]
      rfl)
  refine ⟨_, hx, State.fwReply_replied .., ?_⟩
  rw [State.fwReply_sb, h2, hh]

theorem sbUnlock_fails : Fails .sbUnlock Cmd.sbUnlock 4 (fun rq s => s.sbAge (chanNum (viaChan rq.via)) rq.cred.toNat = none) .badHandle :=
  fails_plain (fun _ _ => rfl) (fun _ _ _ _ _ _ => rfl) rfl fun rq s h ho => by
    dsimp only
    rw [ho]

/-! ### Interrupts and fans -/

theorem State.still_sbExport (s : State) (bits : Word) (level : Nat) : (s.sbExport bits level).still = s.still := by
  unfold State.sbExport
  exact foldl_same _ State.still (fun s p => foldl_same _ State.still (fun s k => State.still_peerSend ..) _ _) _ _

theorem sbIrqRead_does : Does .sbIrqRead Cmd.sbIrqRead 4 (fun _ _ => True)
      (fun rq s => { s with sb := { s.sb with pending := s.sb.pending &&& ~~~(BitVec.ofNat 32 (arg rq 0 4)) } })
      (fun _ s => leBytes 4 s.sb.pending.toNat) := by
  refine does_of _ (fun _ _ => rfl) fun rq s _ _ _ =>
    ⟨({ s.heard Cmd.sbIrqRead rq with sb := { s.sb with pending := s.sb.pending &&& ~~~(BitVec.ofNat 32 (arg rq 0 4)) } } : State).sbExport
      (s.sb.pending &&& BitVec.ofNat 32 (arg rq 0 4)) 0, none, none, ?_, ?_⟩
  · dsimp only
    rw [State.heard_sb]
    rfl
  · rw [State.still_sbExport]
    exact ((State.Alike.mk (State.still_heard ..)).withSb _).still

theorem sbIrqMask_does : Does .sbIrqMask Cmd.sbIrqMask 4 (fun _ _ => True)
      (fun rq s => { s with sb := { s.sb with
        irqMask := put s.sb.irqMask (chanNum (viaChan rq.via)) (BitVec.ofNat 32 (arg rq 0 4)) } }) (fun _ _ => []) :=
  does_plain (fun _ _ => rfl) (fun _ _ _ _ _ _ => rfl) (fun _ _ _ _ _ _ => rfl) (fun _ _ _ _ _ _ => rfl) fun _ _ _ _ => rfl

theorem sbFanSet_does (pulses : Nat) : Does (.sbFanSet · pulses) Cmd.sbFanSet 2 (fun rq _ => arg rq 0 1 ≤ 3)
      (fun rq s => { s with sb := { s.sb with
        duty := put s.sb.duty (arg rq 0 1) (arg rq 1 1), rpm := put s.sb.rpm (arg rq 0 1) (s.fanRpm pulses) } })
      (fun _ s => leBytes 2 (s.fanRpm pulses)) := by
  have hrpm (rq : Req) (s : State) : (s.heard Cmd.sbFanSet rq).fanRpm pulses = s.fanRpm pulses := by
    rw [State.fanRpm, State.cv_heard, State.fanRpm]
  refine does_of _ (fun _ _ => rfl) fun rq s _ hf _ =>
    ⟨({ s.heard Cmd.sbFanSet rq with sb := { s.sb with
        duty := put s.sb.duty (arg rq 0 1) (arg rq 1 1), rpm := put s.sb.rpm (arg rq 0 1) (s.fanRpm pulses) } } : State).emit
      (.fan (arg rq 0 1) (arg rq 1 1)), none, none, ?_, ?_⟩
  · dsimp only
    rw [if_neg (by omega), hrpm, State.heard_sb]
    rfl
  · rw [State.still_emit]
    exact ((State.Alike.mk (State.still_heard ..)).withSb _).still

/-- Settles O33: what each body does to the bridge, the bridge being the same in the state in which the request has been heard. -/
theorem sidebandCommands : Obligations.SidebandCommands := by
  unfold Obligations.SidebandCommands
  exact ⟨sbShow_shows, sbRouteSet_clears, sbRouteSet_sets, sbRouteShow_shows,
    fun rq s r ha hlen hw hn hl hr hok hh hk htx hlock => sbXfer_fan ha hlen hw hn hl hr hok hh hk htx hlock,
    fun rq s r ha hr hh hlock => sbLock_grants ha hr hh hlock,
    fun rq s a h l ha hage hheld hport hl hw htx => sbUnlock_releases ha hage hheld hport hl hw htx, sbUnlock_fails, sbIrqRead_does,
    sbIrqMask_does, sbFanSet_does⟩

end Sys2Proof.Machine

/-! What a changed value does at once (R14, R142) leaves the configuration alone, and what the channels have staged and reported. -/
namespace Sys2Proof.Machine

/-- The configuration, and what each channel has staged and reported. -/
def State.filed (s : State) : CfgSt × (Chan → List Byte × List RepEntry) := (s.cfg, fun c => ((s.chan c).staged, (s.chan c).report))

@[simp] theorem State.filed_ite (c : Prop) [Decidable c] (s t : State) : (if c then s else t).filed = if c then s.filed else t.filed :=
  apply_ite State.filed c s t

@[simp] theorem State.filed_foldl {β : Type} {f : State → β → State} (h : ∀ s b, (f s b).filed = s.filed) (l : List β) (s : State) :
    (l.foldl f s).filed = s.filed :=
  foldl_same f State.filed h l s

theorem State.filed_of_still {s t : State} (h : t.still = s.still) : t.filed = s.filed :=
  Prod.ext (congrArg State.cfg h :) (funext fun c => Prod.ext (chan_of_still ChanSt.staged (fun _ => rfl) h c)
    (chan_of_still ChanSt.report (fun _ => rfl) h c))

@[simp] theorem State.filed_raise (s : State) (n a : Nat) : (s.raise n a).filed = s.filed := filed_of_still (s.still_raise n a)
@[simp] theorem State.filed_raiseIf (s : State) (b : Bool) (n a : Nat) : (s.raiseIf b n a).filed = s.filed := filed_of_still (s.still_raiseIf b n a)
@[simp] theorem State.filed_spore (s : State) (k c : Nat) (p : List Byte) : (s.spore k c p).filed = s.filed := filed_of_still (s.still_spore k c p)
@[simp] theorem State.filed_cryptoSpore (s : State) (b : Bool) (k : Nat) (p : List Byte) : (s.cryptoSpore b k p).filed = s.filed := filed_spore ..
@[simp] theorem State.filed_emit (s : State) (e : Emit) : (s.emit e).filed = s.filed := filed_of_still rfl
@[simp] theorem State.filed_setLink (s : State) (p : Nat) (f : LinkSt → LinkSt) : (s.setLink p f).filed = s.filed := rfl
@[simp] theorem State.filed_setCpx (s : State) (p : Nat) (f : CpxSt → CpxSt) : (s.setCpx p f).filed = s.filed := rfl
@[simp] theorem State.filed_setLane (s : State) (p k : Nat) (f : LaneSt → LaneSt) : (s.setLane p k f).filed = s.filed := rfl
@[simp] theorem State.filed_laneEv (s : State) (p n a : Nat) : (s.laneEv p n a).filed = s.filed := filed_raise ..
@[simp] theorem State.filed_retrainDue (s : State) (p : Nat) : (s.retrainDue p).filed = s.filed := rfl

@[simp] theorem State.filed_sendOwn (s : State) (p : Nat) (c : Cell) : (s.sendOwn p c).filed = s.filed := by
  unfold State.sendOwn
  dsimp only
  split <;> rfl

@[simp] theorem State.filed_ctl (s : State) (p typ : Nat) (fields : List Nat) : (s.ctl p typ fields).filed = s.filed := by
  simp [State.ctl, State.ctlSend]

theorem State.filed_setChan {s : State} {c : Chan} {x : ChanSt} (hs : x.staged = (s.chan c).staged) (hr : x.report = (s.chan c).report) :
    (s.setChan c x).filed = s.filed := by
  refine Prod.ext (by cases c <;> rfl) (funext fun d => ?_)
  by_cases hd : d = c
  · subst hd
    show (((s.setChan d x).chan d).staged, ((s.setChan d x).chan d).report) = _
    rw [State.setChan_chan_self, hs, hr]
    rfl
  · cases c <;> cases d <;> first | rfl | exact absurd rfl hd

@[simp] theorem State.filed_finish (s : State) (via : Via) (h rc : Nat) (data : List Byte) : (s.finish via h rc data).filed = s.filed := by
  unfold State.finish
  dsimp only
  split
  · rfl
  · unfold State.raiseOn
    dsimp only
    rw [filed_spore]
    refine (filed_setChan ?_ ?_).trans (filed_setChan rfl rfl)
    · exact (congrArg ChanSt.staged (ChanSt.hush_enter ..) :)
    · exact (congrArg ChanSt.report (ChanSt.hush_enter ..) :)

@[simp] theorem State.filed_endTest (s : State) (p k rc : Nat) (data : List Byte) : (s.endTest p k rc data).filed = s.filed := by
  unfold State.endTest
  split
  · rfl
  · exact (filed_foldl (fun _ _ => filed_finish ..) _ _).trans (filed_setLane ..)

@[simp] theorem State.filed_endRecal (s : State) (p k o : Nat) : (s.endRecal p k o).filed = s.filed := by
  unfold State.endRecal
  split <;> simp

@[simp] theorem State.filed_floorCheck (s : State) (p : Nat) : (s.floorCheck p).filed = s.filed := by simp [State.floorCheck]

@[simp] theorem State.filed_retire (s : State) (p k what cause : Nat) (tell : Bool) : (s.retire p k what cause tell).filed = s.filed := by
  simp [State.retire]

@[simp] theorem State.filed_queueRecal (s : State) (p k trig : Nat) (force restore : Bool) (job : Option (Via × Nat)) :
    (s.queueRecal p k trig force restore job).filed = s.filed := by
  unfold State.queueRecal
  split <;> simp

@[simp] theorem State.filed_restoreLane (s : State) (p k trig : Nat) (job : Option (Via × Nat)) : (s.restoreLane p k trig job).filed = s.filed := by
  simp [State.restoreLane]

@[simp] theorem State.filed_maskLanes (s : State) (p : Nat) : (s.maskLanes p).filed = s.filed := by simp [State.maskLanes]

@[simp] theorem State.filed_setEndTo (s : State) (k v : Nat) : (s.setEndTo k v).filed = s.filed := by
  unfold State.setEndTo
  dsimp only
  split_ifs <;> rfl

@[simp] theorem State.filed_takeEnds (s : State) : (s.takeEnds).filed = s.filed := by
  unfold State.takeEnds
  refine filed_foldl (fun s k => ?_) _ s
  split
  · rfl
  · dsimp only
    rw [filed_ite, filed_ite, filed_setEndTo]
    split_ifs <;> rfl

@[simp] theorem State.filed_cfgEffects (s : State) : (s.cfgEffects).filed = s.filed := by simp [State.cfgEffects]

@[simp] theorem State.filed_rejectedEvents (s : State) (c : Chan) (l : List (CfgRec × Nat)) : (s.rejectedEvents c l).filed = s.filed := by
  simp [State.rejectedEvents]

end Sys2Proof.Machine

/-! The cfg commands (Tables 4.9 and 4.12, R94 to R96, R103 to R105). -/
namespace Sys2Proof.Machine

/-! ### Staging -/

theorem cfgRecordStage_does : Does .cfgRecordStage Cmd.cfgRecordStage 5
      (fun rq s => rq.payload.length ≤ 1024 ∧ (arg rq 0 4 = 0 ∨ arg rq 0 4 = (s.chan (viaChan rq.via)).staged.length)
        ∧ arg rq 0 4 + (rq.payload.drop 4).length ≤ 65536)
      (fun rq s => s.modChan (viaChan rq.via) fun c => { c with
        staged := (if arg rq 0 4 = 0 then [] else c.staged) ++ rq.payload.drop 4 }) (fun _ _ => []) := by
  refine does_of _ (fun _ _ => rfl) fun rq s _ ho _ =>
    ⟨(s.heard Cmd.cfgRecordStage rq).modChan (viaChan rq.via) fun c => { c with
        staged := (if arg rq 0 4 = 0 then [] else (s.chan (viaChan rq.via)).staged) ++ rq.payload.drop 4 }, none, none, ?_, ?_⟩
  · obtain ⟨hlen, hoff, hsize⟩ := ho
    have hchunk : ¬ 1020 < (rq.payload.drop 4).length := by rw [List.length_drop]; omega
    dsimp only
    rw [State.heard_chan_staged, if_neg (by
      simp only [Bool.or_eq_true, Bool.and_eq_true, decide_eq_true_eq, bne_iff_ne]
      omega)]
    simp only [beq_iff_eq]
    rfl
  · exact (State.Alike.setChan ⟨State.still_heard ..⟩ _ (congrArg (fun z : ChanSt => { z with
      staged := (if arg rq 0 4 = 0 then [] else (s.chan (viaChan rq.via)).staged) ++ rq.payload.drop 4 })
        (State.chan_still (State.still_heard Cmd.cfgRecordStage rq s) (viaChan rq.via)))).still

theorem cfgRecordStage_fails : Fails .cfgRecordStage Cmd.cfgRecordStage 5
      (fun rq s => arg rq 0 4 ≠ 0 ∧ arg rq 0 4 ≠ (s.chan (viaChan rq.via)).staged.length) .badLength :=
  fails_of _ (fun _ _ => rfl) rfl fun rq s _ ⟨h0, hl⟩ _ => ⟨_, none, none, by
    dsimp only
    rw [State.heard_chan_staged, if_pos (by simp [h0, hl])]
    rfl⟩

/-! ### Applying (R95, R96) -/

theorem ApplyAns.rc_not_accepted (a : ApplyAns) : (a.rc == .accepted) = false := by
  unfold ApplyAns.rc
  split_ifs <;> rfl

theorem State.storeDenied_zero (s : State) (rq : Req) {n : Nat} (h : n ≠ 1) : s.storeDenied rq n = false := by
  simp [State.storeDenied, h]

theorem State.storeDenied_heard (row : CmdRow) (q rq : Req) (s : State) (n : Nat) : (s.heard row q).storeDenied rq n = s.storeDenied rq n := by
  simp [State.storeDenied]

/-- The request's set applied, in the state in which it has been heard. -/
theorem applySet_heard (row : CmdRow) (rq : Req) (s : State) (layer port : Nat) (set : List Byte) :
    ∃ u, (s.heard row rq).applySet layer port set = { s.applySet layer port set with st := u }
      ∧ u.cfg = (s.applySet layer port set).st.cfg := by
  rw [State.heard_moved, applySet_moved]
  exact ⟨_, rfl, rfl⟩

/-- The channel once its set has been applied: nothing is staged, and its report is that of the apply. -/
theorem State.filed_applied (u : State) (c : Chan) (r : List RepEntry) :
    (((u.modChan c fun x => { x with staged := [] }).keepReport c r).cfg = u.cfg)
      ∧ (((u.modChan c fun x => { x with staged := [] }).keepReport c r).chan c).staged = []
      ∧ (((u.modChan c fun x => { x with staged := [] }).keepReport c r).chan c).report = r.take 256 := by
  unfold State.keepReport
  rw [State.modChan_chan_self, State.modChan_chan_self]
  exact ⟨by simp, rfl, rfl⟩

theorem State.applied_of_filed {w u : State} {c : Chan} {r : List RepEntry} {g : CfgSt}
    (h : w.filed = ((u.modChan c fun x => { x with staged := [] }).keepReport c r).filed) (hg : u.cfg = g) :
    w.cfg = g ∧ (w.chan c).staged = [] ∧ (w.chan c).report = r.take 256 := by
  obtain ⟨h1, h2, h3⟩ := u.filed_applied c r
  obtain ⟨hc, hf⟩ := Prod.ext_iff.mp h
  obtain ⟨hs, hr⟩ := Prod.ext_iff.mp (congrFun hf c)
  exact ⟨hc.trans (h1.trans hg), hs.trans h2, hr.trans h3⟩

theorem cfgRecordApply_applies {rq : Req} {s : State} {l : Nat} (ha : Admitted Cmd.cfgRecordApply 1 rq s) (hw : arg rq 0 1 = 0)
    (hlc : s.lifecycle ≠ lcScrapped) (hl : chanLayer (viaChan rq.via) = some l) (hset : (s.chan (viaChan rq.via)).staged ≠ [])
    (hrc : (s.applySet l (viaPort rq.via) (s.chan (viaChan rq.via)).staged).rc.bad = false) :
    let a := s.applySet l (viaPort rq.via) (s.chan (viaChan rq.via)).staged
    ∃ t, exec (.cfgRecordApply rq) s = .next t ∧ t.cfg = a.st.cfg ∧ (t.chan (viaChan rq.via)).staged = []
      ∧ (t.chan (viaChan rq.via)).report = a.report.take 256
      ∧ t.Replied rq a.rc 0 (leBytes 1 a.applied.length ++ leBytes 1 a.rejected.length ++ leBytes 2 (min a.report.length 256)
          ++ leBytes 2 (min 65535 (a.report.length - 256)) ++ zeros 2) := by
  intro a
  obtain ⟨u, hu, hcfg⟩ := applySet_heard Cmd.cfgRecordApply rq s l (viaPort rq.via) (s.chan (viaChan rq.via)).staged
  obtain ⟨w, hx, hw, hs, hr⟩ := exec_answered_with (i := .cfgRecordApply rq) (p := none) (f := none) (nj := false) (rc := a.rc)
    (data := leBytes 1 a.applied.length ++ leBytes 1 a.rejected.length ++ leBytes 2 (min a.report.length 256)
          ++ leBytes 2 (min 65535 (a.report.length - 256)) ++ zeros 2)
    (P := fun w => w.cfg = a.st.cfg ∧ (w.chan (viaChan rq.via)).staged = [] ∧ (w.chan (viaChan rq.via)).report = a.report.take 256)
    rfl ha hrc a.rc_not_accepted (by
      dsimp only
      rw [State.storeDenied_zero _ _ (by omega), State.lifecycle_heard, hw, State.heard_chan_staged, if_neg (by simp), if_neg (by simpa using hlc),
        if_neg (by simp), if_neg (by decide), if_neg (by decide), hl]
      dsimp only
      rw [if_neg (by simpa using hset), hu, if_neg (by exact Bool.eq_false_iff.mp hrc)]
      refine ⟨_, _, rfl, ?_⟩
      apply State.applied_of_filed
      · simp only [State.filed_raiseIf, State.filed_rejectedEvents, State.filed_cfgEffects]
        exact rfl
      · rw [← hcfg]
        exact congrArg Prod.fst (State.filed_foldl (fun t x => State.filed_cryptoSpore ..) _ _))
  exact ⟨_, hx, by rw [State.fwReply_cfg, hw], by rw [State.fwReply_chan_staged, hs], by rw [State.fwReply_chan_report, hr],
    State.fwReply_replied ..⟩

theorem cfgRecordApply_empty : Fails .cfgRecordApply Cmd.cfgRecordApply 1 (fun rq s => arg rq 0 1 = 0 ∧ s.lifecycle ≠ lcScrapped
      ∧ (chanLayer (viaChan rq.via)).isSome = true ∧ (s.chan (viaChan rq.via)).staged = []) .badLength := by
  refine fails_of _ (fun _ _ => rfl) rfl fun rq s _ ⟨hw, hlc, hl, hs⟩ _ => ⟨s.heard Cmd.cfgRecordApply rq, none, none, ?_⟩
  obtain ⟨l, hl⟩ := Option.isSome_iff_exists.mp hl
  dsimp only
  rw [State.storeDenied_zero _ _ (by omega), State.lifecycle_heard, hw, State.heard_chan_staged, if_neg (by simp), if_neg (by simpa using hlc),
    if_neg (by simp), if_neg (by decide), if_neg (by decide), hl]
  dsimp only
  rw [if_pos (by simp [hs])]
  rfl

theorem cfgRecordApply_denied : Fails .cfgRecordApply Cmd.cfgRecordApply 1 (fun rq s => s.storeDenied rq (arg rq 0 1) = true) .denied := by
  refine fails_of _ (fun _ _ => rfl) rfl fun rq s _ hd _ => ⟨s.heard Cmd.cfgRecordApply rq, none, none, ?_⟩
  dsimp only
  rw [State.storeDenied_heard, if_pos hd]
  rfl

theorem cfgRecordApply_busy : Fails .cfgRecordApply Cmd.cfgRecordApply 1 (fun rq s => arg rq 0 1 = 1 ∧ s.storeDenied rq 1 = false
      ∧ s.lifecycle ≠ lcScrapped ∧ s.cfg.commit.isSome = true) .busy := by
  refine fails_of _ (fun _ _ => rfl) rfl fun rq s _ ⟨hw, hd, hlc, hc⟩ _ => ⟨s.heard Cmd.cfgRecordApply rq, none, none, ?_⟩
  dsimp only
  rw [hw, State.storeDenied_heard, hd, State.lifecycle_heard, State.heard_cfg, if_neg (by decide), if_neg (by simpa using hlc), if_pos (by simp [hc])]
  rfl

theorem cfgRecordApply_unknown : Fails .cfgRecordApply Cmd.cfgRecordApply 1 (fun rq s => 1 < arg rq 0 1 ∧ s.lifecycle ≠ lcScrapped)
    .badState := by
  refine fails_of _ (fun _ _ => rfl) rfl fun rq s _ ⟨hw, hlc⟩ _ => ⟨s.heard Cmd.cfgRecordApply rq, none, none, ?_⟩
  have hne : (arg rq 0 1 == 1) = false := by simp; omega
  dsimp only
  rw [State.storeDenied_zero _ _ (by omega), State.lifecycle_heard, if_neg (by decide), if_neg (by simpa using hlc), if_neg (by simp [hne]),
    if_pos hw]
  rfl

/-! ### Showing and clearing -/

theorem cfgRecordShow_shows (bs : List Byte) : Shows .cfgRecordShow Cmd.cfgRecordShow 6
      (fun rq s => arg rq 2 1 ≤ 5 ∧ (fieldTable.any fun f => f.ty == arg rq 0 2) = true ∧
        fitEntries 1016 ((fieldsOf (arg rq 0 2) (arg rq 4 2)).filterMap fun f => (s.viewValue (arg rq 2 1) f).map fun v => entryBytes f.id v)
          = (bs, true))
      (fun rq _ => leBytes 2 (arg rq 0 2) ++ leBytes 2 (8 + bs.length) ++ leBytes 4 (schemaMajor * 65536) ++ bs) :=
  shows_plain (fun _ _ => rfl) (fun _ _ _ _ _ _ => rfl) (fun _ _ _ _ _ _ => rfl) fun rq s _ ⟨hv, hty, hbs⟩ => by
    dsimp only
    rw [if_neg (by simp only [hty, Bool.not_true, Bool.or_false, decide_eq_true_eq]; omega), hbs]
    rfl

theorem cfgReportShow_shows : Shows .cfgReportShow Cmd.cfgReportShow 3 (fun rq _ => 1 ≤ arg rq 2 1 ∧ arg rq 2 1 ≤ 63) (fun rq s =>
      let c := s.chan (viaChan rq.via)
      let es := (c.report.drop (arg rq 0 2)).take (arg rq 2 1)
      leBytes 2 es.length ++ leBytes 2 c.repOver ++ es.flatMap repBytes) :=
  shows_of _ (fun _ _ => rfl) fun rq s _ ⟨h1, h63⟩ _ => ⟨none, none, by
    dsimp only
    rw [if_neg (by simp; omega), State.heard_chan_report, State.heard_chan_repOver]
    rfl⟩

theorem cfgOverrideClear_clears {rq : Req} {s : State} {l : Nat} (ha : Admitted Cmd.cfgOverrideClear 2 rq s)
    (hl : chanLayer (viaChan rq.via) = some l) (hty : arg rq 0 2 = 0xFFFF) :
    ∃ t, exec (.cfgOverrideClear rq) s = .next t ∧ t.Replied rq .ok 0 [] ∧ t.cfg.ovr = s.cfg.ovr.filter fun o => o.layer != l := by
  have hx : exec (.cfgOverrideClear rq) s = .next (((s.heard Cmd.cfgOverrideClear rq).withdraw l fun o => arg rq 0 2 == 0xFFFF || o.ty == arg rq 0 2).fwReply
      (msgOf rq Cmd.cfgOverrideClear.opcode) .ok 0 []) :=
    exec_answered rfl ha (p := none) (f := none) (v := none) (nj := false) rfl rfl (by
      dsimp only
      rw [hl]
      dsimp only
      rw [if_neg (by simp [hty])]
      rfl)
  refine ⟨_, hx, State.fwReply_replied .., ?_⟩
  rw [State.fwReply_cfg, State.withdraw, State.cfgEffects_cfg, hty]
  simp [bne]

/-! ### Committing (R94) -/

/-- A long operation whose state keeps the handle it was given. -/
theorem starts_with_handle {c : Req → Instr} {row : CmdRow} {min : Nat} {ok : Req → State → Prop} {body : Req → Nat → State → Ans}
    (hx : ∀ rq s, exec (c rq) s = command row min rq s (body rq)) (hok : ∀ rq, Deaf (ok rq)) {eff : Req → Nat → State → State}
    {plan : Req → State → Option (Nat × List Byte)} (hplan : ∀ rq, Deaf (plan rq)) (heff : ∀ rq h, Aside (eff rq h))
    (hb : ∀ rq s h, ok rq s → body rq h s = .long (eff rq h s) (plan rq s)) :
    Starts c row min ok (fun rq s => eff rq (s.chan (viaChan rq.via)).freeHandle s) plan :=
  starts_of body hx fun rq s _ _ ho h hh => ⟨eff rq h (s.heard row rq), none, none, by
    rw [hb rq _ h (((hok rq).heard row rq s).mpr ho), (hplan rq).heard]
    rfl, hh ▸ (heff rq h).heard row rq s⟩

/-- The commit begun (R94): the copy it is to write holds no set. -/
def State.commitBegun (via : Via) (h : Nat) (s : State) : State :=
  { s with
    cfg := { s.cfg with commit := some ⟨via, h, s.upd.flash.cfgTarget.1, s.upd.flash.cfgTarget.2, s.storeSet⟩ }
    upd := { s.upd with flash := { s.upd.flash with cfg := put s.upd.flash.cfg s.upd.flash.cfgTarget.1 .init } } }

theorem cfgStoreCommit_starts : Starts .cfgStoreCommit Cmd.cfgStoreCommit 0 (fun _ s => s.cfg.commit = none)
      (fun rq s =>
        let w := s.upd.flash.cfgTarget
        { s with
          cfg := { s.cfg with commit := some ⟨rq.via, (s.chan (viaChan rq.via)).freeHandle, w.1, w.2, s.storeSet⟩ }
          upd := { s.upd with flash := { s.upd.flash with cfg := put s.upd.flash.cfg w.1 .init } } }) (fun _ _ => none) := by
  refine starts_with_handle (eff := fun rq h s => s.commitBegun rq.via h) (fun _ _ => rfl) (fun _ _ _ _ _ _ => rfl) (fun _ _ _ _ _ _ => rfl)
    (fun _ _ _ _ _ _ _ => rfl) fun rq s h hn => ?_
  dsimp only
  rw [if_neg (by simp [show s.cfg.commit = none from hn])]
  rfl

theorem cfgStoreCommit_busy : Fails .cfgStoreCommit Cmd.cfgStoreCommit 0 (fun _ s => s.cfg.commit ≠ none) .busy :=
  fails_plain (fun _ _ => rfl) (fun _ _ _ _ _ _ => rfl) rfl fun _ _ _ hc => if_pos (Option.isSome_iff_ne_none.mpr hc)

/-- A commit that ends (R94): its copy is whole, or holds no set. -/
theorem cfgStoreCommitDone_gives {s : State} {c : StoreCommit} {ok : Bool} (ha : s.awake = true) (hc : s.cfg.commit = some c) :
    Gives (.cfgStoreCommitDone ok) s fun t => t.cfg.commit = none
      ∧ ∃ v, t.upd.flash.cfg = put s.upd.flash.cfg c.copy
          (if (ok && decide (c.set.length ≤ 262128)) = true then .made c.gen c.set else { CfgCopy.init with gen := v % 2 ^ 32 }) := by
  refine gives_of_run (execCfgStoreCommitDone.eq_1 ok s) ha ?_
  have hb : s.begin.cfg.commit = some c := hc
  rw [hb]
  dsimp only
  rw [State.finishRc_cfg, State.finishRc_upd]
  exact ⟨rfl, s.begin.draw.1, rfl⟩

theorem cfgStoreCommitDone_good {s : State} {c : StoreCommit} (ha : s.awake = true) (hc : s.cfg.commit = some c) (hlen : c.set.length ≤ 262128) :
    Gives (.cfgStoreCommitDone true) s fun t => t.cfg.commit = none
      ∧ t.upd.flash.cfg = put s.upd.flash.cfg c.copy ⟨0x4C434652, c.gen, c.set.length, crc32 c.set, c.set⟩ := by
  obtain ⟨t, ht, hnone, v, hcfg⟩ := cfgStoreCommitDone_gives (ok := true) ha hc
  exact ⟨t, ht, hnone, by rw [hcfg, if_pos (by simpa using hlen)]; rfl⟩

theorem cfgStoreCommitDone_bad {s : State} {c : StoreCommit} (ha : s.awake = true) (hc : s.cfg.commit = some c) (hlen : s.upd.flash.cfg.length = 2)
    (hcopy : c.copy < 2) :
    Gives (.cfgStoreCommitDone false) s fun t => t.cfg.commit = none ∧ (nth t.upd.flash.cfg c.copy .init).ok = false
      ∧ nth t.upd.flash.cfg (1 - c.copy) .init = nth s.upd.flash.cfg (1 - c.copy) .init := by
  obtain ⟨t, ht, hnone, v, hcfg⟩ := cfgStoreCommitDone_gives (ok := false) ha hc
  refine ⟨t, ht, hnone, ?_, ?_⟩
  · rw [hcfg, nth_put_self (by omega)]
    rfl
  · rw [hcfg]
    simp [nth, put, show c.copy ≠ 1 - c.copy by omega]

theorem cfgStoreShow_shows : Shows .cfgStoreShow Cmd.cfgStoreShow 0 (fun _ _ => True) (fun _ s =>
      let a := nth s.upd.flash.cfg 0 .init
      let b := nth s.upd.flash.cfg 1 .init
      let differs := match s.upd.flash.governing with
        | some c => c.records != s.storeSet
        | none => true
      leBytes 4 a.gen ++ leBytes 4 b.gen ++ leBytes 1 (b2n a.ok + 2 * b2n b.ok) ++ leBytes 1 (b2n differs) ++ zeros 2) :=
  shows_plain (fun _ _ => rfl) (fun _ _ _ _ _ _ => rfl) (fun _ _ _ _ _ _ => rfl) fun _ _ _ _ => rfl

/-- Settles O35, clause by clause. -/
theorem configurationCommands : Obligations.ConfigurationCommands :=
  ⟨cfgRecordStage_does, cfgRecordStage_fails, fun _ _ _ ha hw hlc hl hset hrc => cfgRecordApply_applies ha hw hlc hl hset hrc,
    cfgRecordApply_empty, cfgRecordApply_denied, cfgRecordApply_busy, cfgRecordApply_unknown, cfgRecordShow_shows, cfgReportShow_shows,
    fun _ _ _ ha hl hty => cfgOverrideClear_clears ha hl hty, cfgStoreCommit_starts, cfgStoreCommit_busy,
    fun _ _ ha hc hlen => cfgStoreCommitDone_good ha hc hlen, fun _ _ ha hc hlen hcopy => cfgStoreCommitDone_bad ha hc hlen hcopy,
    cfgStoreShow_shows⟩

end Sys2Proof.Machine

/-! Accesses of the interconnect masters (R363 to R371, R494 to R500, R544). -/
namespace Sys2Proof.Machine

/-! ### What an access that finds no faulty word leaves -/

theorem State.readWord_clean {s : State} (h : s.mem.faults = []) (w : Nat) : s.readWord w 0 = s := by
  have hw : s.wordFault w = 0 := by simp [State.wordFault, h]
  unfold State.readWord State.spoil
  dsimp only
  rw [hw, if_pos (by decide)]
  rfl

theorem State.fetchBytes_clean {s : State} (h : s.mem.faults = []) (a n : Nat) : s.fetchBytes a n 0 = (s.bytesAt a n, s) := by
  refine Prod.ext rfl ?_
  show (wordsOf a n).zipIdx.foldl (fun (s : State) x => s.readWord x.1 (if x.2 == 0 then 0 else 0)) s = s
  generalize (wordsOf a n).zipIdx = l
  induction l with
  | nil => rfl
  | cons x l ih => rw [List.foldl_cons, ite_self, readWord_clean h, ih]

/-- The masters without a cache see no core's lines. -/
theorem State.snoop_other {m : Nat} (s : State) (h : 9 < m) (line : Nat) (w : Bool) : s.snoop m line w = s := by
  unfold State.snoop
  rw [if_neg (by simp; omega)]

@[simp] theorem State.setCache_mem (s : State) (m : Nat) (f : List CacheLine → List CacheLine) : (s.setCache m f).mem = s.mem := rfl

theorem State.wordWritten_cells (s : State) (w : Nat) : (s.wordWritten w).mem.cells = s.mem.cells := by
  unfold State.wordWritten
  split <;> rfl

theorem State.putBytes_cells {s : State} {a : Nat} (h : s.target a ≠ .unit) (bs : List Byte) :
    (s.putBytes a bs).mem.cells = memWrites s.mem.cells a bs := by
  unfold State.putBytes
  rw [if_neg (by simpa using h)]
  exact foldl_same _ (fun t : State => t.mem.cells) wordWritten_cells _ _

/-- A write of a master that has no cache to clean reaches memory. -/
theorem State.performWrite_cells {s : State} {m a : Nat} (hs : s.snoop m (a / 64) true = s) (h : s.target a ≠ .unit) (bs : List Byte) :
    (s.performWrite m a bs).mem.cells = memWrites s.mem.cells a bs := by
  unfold State.performWrite
  rw [hs]
  exact putBytes_cells h bs

/-! ### The access itself -/

/-- A naturally aligned access of a master of the interconnect within 40 address bits (R494). -/
structure Formed (m k a n : Nat) : Prop where
  master : m < 16
  kind : k ≤ 2
  size : n ∈ [1, 2, 4, 8, 16, 32, 64]
  aligned : a % n = 0
  range : a < 2 ^ 40

theorem Formed.checked {m k a n : Nat} (h : Formed m k a n) :
    ([1, 2, 4, 8, 16, 32, 64].contains n && a % n == 0 && decide (a < 2 ^ 40) && decide (m < 16) && decide (k ≤ 2)) = true := by
  simp only [Bool.and_eq_true, decide_eq_true_eq, beq_iff_eq, List.contains_iff_mem]
  exact ⟨⟨⟨⟨h.size, h.aligned⟩, h.range⟩, h.master⟩, h.kind⟩

/-- What an access does once it is formed and its master is there (R494): a halted core makes none, the PMP faults an instance's, a
write that collides is discarded, and any other goes to the access control unit. -/
theorem memoryAccess_gives {m k a n : Nat} {data : List Byte} {w e : Nat} {coll user : Bool} {s : State} {P : State → Prop}
    (hp : s.powered = true) (hf : Formed m k a n) (hawake : s.asleep = false ∨ m = 15) (hon : 9 < m ∨ s.svc.on = true ∨ m = 0) (hm : m ≠ 14)
    (h : P (if s.masterHalted m = true then s.begin
      else match (if user = true then s.begin.pmpFault m k a n else none) with
        | some inst => (s.begin.emit (.memDenied m)).faultInst inst 1
        | none => if (coll && k == 1 && m != 9 && sbBase ≤ a && a < sbBase + 0x40000) = true then (s.begin.waited m a w).collided
          else (s.begin.waited m a w).access m k a n (fitBytes n data) false e)) :
    Gives (.memoryAccess m k a n data false w e 0 coll user) s P := by
  refine gives_of_runIf (execMemoryAccess.eq_1 ..) hp ?_
  have habs : (!([1, 2, 4, 8, 16, 32, 64].contains n && a % n == 0 && decide (a < 2 ^ 40) && decide (m < 16) && decide (k ≤ 2))
      || (s.begin.asleep && m != 15 || decide (1 ≤ m) && decide (m ≤ 9) && !s.begin.svc.on)) = false := by
    have hsl : (s.begin.asleep && m != 15) = false := by
      rcases hawake with h | rfl
      · simp [show s.begin.asleep = false from h]
      · simp
    have hsv : (decide (1 ≤ m) && decide (m ≤ 9) && !s.begin.svc.on) = false := by
      rcases hon with h | h | rfl
      · simp; omega
      · simp [h]
      · simp
    rw [hf.checked, hsl, hsv]
    rfl
  have hdbg : (m == 14 || (false && s.begin.masterHalted m)) = false := by simp [hm]
  dsimp only
  rw [if_neg (by rw [habs]; decide), show (if coreMaster m = true then s.begin.drainStores m (min 0 8) else s.begin) = s.begin from ite_self _, hdbg]
  simp only [Bool.not_false, Bool.and_true]
  exact h

theorem State.masterHalted_other {m : Nat} (s : State) (h : 9 < m) : s.masterHalted m = false := by
  simp [State.masterHalted, show m ≠ 0 by omega, show ¬ m ≤ 8 by omega]

theorem State.pmpFault_other {m : Nat} (s : State) (h : 9 < m) (k a n : Nat) : s.pmpFault m k a n = none := by
  unfold State.pmpFault
  rw [if_neg (by simp; omega)]

/-- An access of a master that is no core. -/
theorem memoryAccess_gives_other {m k a n : Nat} {data : List Byte} {w e : Nat} {coll user : Bool} {s : State} {P : State → Prop}
    (hp : s.powered = true) (hf : Formed m k a n) (hawake : s.asleep = false ∨ m = 15) (hm9 : 9 < m) (hm : m ≠ 14)
    (h : P (if (coll && k == 1 && m != 9 && sbBase ≤ a && a < sbBase + 0x40000) = true then (s.begin.waited m a w).collided
          else (s.begin.waited m a w).access m k a n (fitBytes n data) false e)) :
    Gives (.memoryAccess m k a n data false w e 0 coll user) s P := by
  refine memoryAccess_gives hp hf hawake (.inl hm9) hm ?_
  rw [if_neg (by simp [s.masterHalted_other hm9]), s.begin.pmpFault_other hm9, ite_self]
  exact h

/-- The wait counters are all that waiting for a bank changes (R365). -/
theorem State.waited_mem {s : State} {m a n : Nat} : ∃ l, s.waited m a n = { s with mem := { s.mem with conflicts := l } } := by
  unfold State.waited
  dsimp only
  split
  · exact ⟨_, rfl⟩
  · exact ⟨s.mem.conflicts, rfl⟩

theorem State.access_write_other {m : Nat} (s : State) (h : 9 < m) (a n : Nat) (bs : List Byte) (e : Nat) :
    s.access m 1 a n bs false e = s.writeNow m a bs false := by
  have hc : coreMaster m = false := by simp [coreMaster]; omega
  unfold State.access
  rw [hc]
  simp

theorem State.access_read {m k : Nat} {s : State} (hb : (s.acu m).buffer = []) (hk : k ≠ 1) (a n : Nat) (bs : List Byte) (e : Nat) :
    s.access m k a n bs false e = s.readNow m k a n e false := by
  unfold State.access
  rw [if_neg (by simpa using hk), hb]
  rfl

theorem State.readNow_granted {m k a : Nat} {s : State} (h : 9 < m) (ht : s.target a ≠ .none) (hv : (s.acuCheck m k a false).allow = true)
    (hf : s.mem.faults = []) (n : Nat) : s.readNow m k a n 0 false = s.emit (.memData m (s.bytesAt a n)) := by
  have hc : coreMaster m = false := by simp [coreMaster]; omega
  unfold State.readNow
  rw [if_neg (by simpa using ht), if_pos hv, s.snoop_other h, hc]
  dsimp only
  rw [fetchBytes_clean hf]
  rfl

theorem State.writeNow_granted {m a : Nat} {s : State} {bs : List Byte} {d : Bool} (ht : s.target a ≠ .none) (hv : (s.acuCheck m 1 a d).allow = true) :
    s.writeNow m a bs d = s.performWrite m a bs := by
  unfold State.writeNow
  rw [if_neg (by simpa using ht), if_pos hv]

/-- A denied access of a master that is no core: the denial is logged, and the master gets an error (R500). -/
theorem State.denyNow_other {m : Nat} (s : State) (h : 9 < m) (k a n r : Nat) :
    s.denyNow m k a n r false = (s.deny m a k r false none (s.time.tick.setWidth 32) s.time.slot).emit (.memDenied m) := by
  unfold State.denyNow
  dsimp only
  rw [if_neg (by decide), if_neg (by simp; omega)]

theorem State.setAcu_acu_self {s : State} {m : Nat} (h : m < s.trust.acus.length) (u : AcuSt) : (s.setAcu m u).acu m = u :=
  nth_put_self h ..

/-- A denied access of a master that is no core, read or write. -/
theorem State.access_denied {m k a : Nat} {s : State} (h : 9 < m) (hb : (s.acu m).buffer = []) (ht : s.target a ≠ .none)
    (hv : (s.acuCheck m k a false).allow = false) (n : Nat) (bs : List Byte) :
    s.access m k a n bs false 0 = (s.deny m a k (s.acuCheck m k a false).region false none (s.time.tick.setWidth 32) s.time.slot).emit (.memDenied m) := by
  by_cases hk : k = 1
  · subst hk
    rw [s.access_write_other h]
    unfold State.writeNow
    rw [if_neg (by simpa using ht), if_neg (by simp [hv]), denyNow_other _ h]
  · rw [access_read hb hk]
    unfold State.readNow
    rw [if_neg (by simpa using ht), if_neg (by simp [hv]), denyNow_other _ h]

/-! ### Accesses of the masters that are no cores -/

section Other
variable {m k a n w : Nat} {s : State} (data : List Byte) (u : Bool) (hp : s.powered = true) (hf : Formed m k a n)
  (hm9 : 9 < m) (hm : m ≠ 14) (hawake : s.asleep = false ∨ m = 15)
include hp hf hm9 hm hawake

theorem memoryAccess_reads (hk : k ≠ 1) (ht : s.target a ≠ .none) (hv : (s.acuCheck m k a false).allow = true) (hfl : s.mem.faults = [])
    (hb : (s.acu m).buffer = []) :
    Gives (.memoryAccess m k a n data false 0 0 0 false u) s fun t => t.out = [.memData m (s.bytesAt a n)] ∧ t.mem.cells = s.mem.cells := by
  refine memoryAccess_gives_other hp hf hawake hm9 hm ?_
  obtain ⟨l, hl⟩ := State.waited_mem (s := s.begin) (m := m) (a := a) (n := 0)
  rw [if_neg (by simp), hl, State.access_read (by exact hb) hk,
    State.readNow_granted hm9 (by exact ht) (by exact hv) (by exact hfl)]
  exact ⟨rfl, rfl⟩

theorem memoryAccess_writes (hk : k = 1) (ht : s.target a ≠ .none) (htu : s.target a ≠ .unit)
    (hv : (s.acuCheck m 1 a false).allow = true) :
    Gives (.memoryAccess m k a n data false 0 0 0 false u) s fun t => t.mem.cells = memWrites s.mem.cells a (fitBytes n data) := by
  subst hk
  refine memoryAccess_gives_other hp hf hawake hm9 hm ?_
  obtain ⟨l, hl⟩ := State.waited_mem (s := s.begin) (m := m) (a := a) (n := 0)
  rw [if_neg (by simp), hl, State.access_write_other _ hm9,
    State.writeNow_granted (by exact ht) (by exact hv)]
  exact State.performWrite_cells (State.snoop_other _ hm9 ..) (by exact htu) _

theorem memoryAccess_denied (ht : s.target a ≠ .none) (hv : (s.acuCheck m k a false).allow = false) (hb : (s.acu m).buffer = []) :
    Gives (.memoryAccess m k a n data false 0 0 0 false u) s fun t => t.mem.cells = s.mem.cells ∧ Emit.memDenied m ∈ t.out
      ∧ (s.trust.acus.length = 16 → (t.acu m).denials = satAdd 32 (s.acu m).denials 1) := by
  refine memoryAccess_gives_other hp hf hawake hm9 hm ?_
  obtain ⟨l, hl⟩ := State.waited_mem (s := s.begin) (m := m) (a := a) (n := 0)
  rw [if_neg (by simp), hl, State.access_denied hm9 (by exact hb) (by exact ht) (by exact hv)]
  refine ⟨rfl, by simp, fun hlen => ?_⟩
  have hmaster := hf.master
  exact congrArg AcuSt.denials (nth_put_self (by show m < s.trust.acus.length; omega) _ _)

theorem memoryAccess_collides (hk : k = 1) (hlo : sbBase ≤ a) (hhi : a < sbBase + 0x40000) (ht : s.target a = .sb) :
    Leaves (.memoryAccess m k a n data false w 0 0 true u) s { s with mem := { s.mem with
      conflicts := put s.mem.conflicts m (satAdd 32 (nth s.mem.conflicts m 0) (min w 15))
      collisions := satAdd 32 s.mem.collisions 1, collNow := s.mem.collNow + 1 } } := by
  refine memoryAccess_gives_other hp hf hawake hm9 hm ?_
  have hne : (m != 9) = true := by simp; omega
  rw [if_pos (by simp [hk, hne, hlo, hhi])]
  unfold State.waited
  dsimp only
  rw [if_pos (by rw [show s.begin.target a = .sb from ht, show (m == 9) = false by simp; omega]; simp)]
  rfl

end Other

/-! ### Accesses of the cores -/

theorem faultInst_kept (s : State) (id cause : Nat) : (s.faultInst id cause).mem = s.mem ∧ (s.faultInst id cause).out = s.out := by
  unfold State.faultInst
  split
  · dsimp only
    rw [State.raise_mem, State.raise_out]
    exact ⟨rfl, rfl⟩
  · exact ⟨rfl, rfl⟩

section Cores
variable {m k a n : Nat} {s : State} (data : List Byte) (hp : s.powered = true) (hf : Formed m k a n) (hawake : s.asleep = false)
include hp hf hawake

theorem memoryAccess_pmp (hm : 1 ≤ m ∧ m ≤ 8) (hon : s.svc.on = true) (hh : s.masterHalted m = false) (hpmp : s.pmpFault m k a n ≠ none) :
    Gives (.memoryAccess m k a n data false 0 0 0 false true) s fun t => t.mem.cells = s.mem.cells ∧ Emit.memDenied m ∈ t.out := by
  refine memoryAccess_gives hp hf (.inl hawake) (.inr (.inl hon)) (by omega) ?_
  obtain ⟨i, hi⟩ := Option.ne_none_iff_exists'.mp hpmp
  rw [if_neg (by simp [hh]), if_pos rfl, show s.begin.pmpFault m k a n = some i from hi]
  dsimp only
  obtain ⟨hmem, hout⟩ := faultInst_kept (s.begin.emit (.memDenied m)) i 1
  rw [hmem, hout]
  exact ⟨rfl, by simp⟩

theorem memoryAccess_halted (u : Bool) (hm : 1 ≤ m ∧ m ≤ 8) (hon : s.svc.on = true) (hh : s.masterHalted m = true) :
    Leaves (.memoryAccess m k a n data false 0 0 0 false u) s s := by
  refine memoryAccess_gives hp hf (.inl hawake) (.inr (.inl hon)) (by omega) ?_
  rw [if_pos hh]
  rfl

end Cores

theorem memoryAccess_buffered {a n c : Nat} {s : State} (data : List Byte) (hp : s.powered = true) (hf : Formed 0 1 a n) (hawake : s.asleep = false)
    (hh : s.pins.mgtHalted = false) (ho : s.orderAt 0 a = (c, true)) (hc : c ≠ 2) (hb : (s.acu 0).buffer.length < 8) (hlen : s.trust.acus.length = 16) :
    Gives (.memoryAccess 0 1 a n data false 0 0 0 false false) s fun t => t.mem.cells = s.mem.cells
      ∧ (t.acu 0).buffer = (s.acu 0).buffer ++ [⟨a, fitBytes n data, 0, s.time.tick, s.time.slot⟩] := by
  refine memoryAccess_gives hp hf (.inl hawake) (.inr (.inr rfl)) (by omega) ?_
  obtain ⟨l, hl⟩ := State.waited_mem (s := s.begin) (m := 0) (a := a) (n := 0)
  have ho' : State.orderAt { s.begin with mem := { s.begin.mem with conflicts := l } } 0 a = (c, true) := ho
  rw [if_neg (by simp [State.masterHalted, hh]), if_neg (by decide), if_neg (by simp), hl]
  unfold State.access
  rw [if_pos (by decide), ho']
  dsimp only
  rw [if_neg (by simp [hc]), if_pos (by decide)]
  unfold State.bufferStore
  dsimp only
  rw [if_neg (by exact Nat.not_le.mpr hb)]
  exact ⟨rfl, congrArg AcuSt.buffer (nth_put_self (by show 0 < s.trust.acus.length; omega) _ _)⟩

/-! ### Fences (R498) -/

theorem fence_empty {m : Nat} {s : State} (hp : s.powered = true) (hm : m ≤ 8) (hb : (s.acu m).buffer = []) : Says (.fence m) s s [.fenced m] := by
  refine gives_of_runIf (execFence.eq_1 ..) hp ?_
  rw [if_pos (by simpa [coreMaster] using hm)]
  unfold State.drainAll
  rw [show s.begin.acu m = s.acu m from rfl, hb]
  exact ⟨rfl, rfl⟩

/-- The oldest store drained, when it is granted, with the rest of the buffer left. -/
theorem State.drainStore_granted {m : Nat} {e : BufStore} {l : List BufStore} {s : State} (hb : (s.acu m).buffer = e :: l)
    (hv : (s.acuCheck m 1 e.addr false).allow = true) (ht : s.target e.addr ≠ .none) (hlen : m < s.trust.acus.length) :
    s.drainStore m = (s.setAcu m { s.acu m with buffer := l }).performWrite m e.addr e.bytes := by
  have hv' : ((s.setAcu m { s.acu m with buffer := l }).acuCheck m 1 e.addr false).allow = true := by
    have hr : ((s.setAcu m { s.acu m with buffer := l }).acu m).regions = (s.acu m).regions := by rw [setAcu_acu_self hlen]
    rw [← hv]
    unfold State.acuCheck
    rw [hr]
    rfl
  have ht' : (s.target e.addr == Target.none) = false := by simpa using ht
  unfold State.drainStore
  dsimp only
  rw [hb]
  dsimp only
  rw [hv', show (s.setAcu m _).target e.addr = s.target e.addr from rfl, ht']
  rfl

@[simp] theorem State.wordWritten_trust (s : State) (w : Nat) : (s.wordWritten w).trust = s.trust := by
  unfold State.wordWritten
  split <;> rfl

@[simp] theorem State.putBytes_trust (s : State) (a : Nat) (bs : List Byte) : (s.putBytes a bs).trust = s.trust := by
  unfold State.putBytes
  split
  · rfl
  · exact foldl_same _ (fun t : State => t.trust) wordWritten_trust _ _

theorem State.performWrite_buffer {s : State} {m a : Nat} (hs : s.snoop m (a / 64) true = s) (hlen : m < s.trust.acus.length) (bs : List Byte) :
    ((s.performWrite m a bs).acu m).buffer = (s.acu m).buffer := by
  have hlen' : m < (s.putBytes a bs).trust.acus.length := by rwa [putBytes_trust]
  have hacu : (s.putBytes a bs).acu m = s.acu m := by rw [State.acu, putBytes_trust]; rfl
  unfold State.performWrite
  rw [hs]
  unfold State.setCache
  dsimp only
  rw [setAcu_acu_self hlen', hacu]

theorem State.setAcu_acus_length (s : State) (m : Nat) (u : AcuSt) : (s.setAcu m u).trust.acus.length = s.trust.acus.length := by
  show (put s.trust.acus m u).length = _
  simp [put]

theorem fence_drains {e : BufStore} {s : State} (hp : s.powered = true) (hb : (s.acu 0).buffer = [e]) (hv : (s.acuCheck 0 1 e.addr false).allow = true)
    (ht : s.target e.addr ≠ .none) (htu : s.target e.addr ≠ .unit) (hlen : s.trust.acus.length = 16) :
    Gives (.fence 0) s fun t => t.mem.cells = memWrites s.mem.cells e.addr e.bytes ∧ (t.acu 0).buffer = [] ∧ Emit.fenced 0 ∈ t.out := by
  have hlen' : 0 < s.begin.trust.acus.length := by rw [State.begin_trust]; omega
  have hd : s.begin.drainAll 0 = (s.begin.setAcu 0 { s.begin.acu 0 with buffer := [] }).performWrite 0 e.addr e.bytes := by
    unfold State.drainAll
    rw [show (s.begin.acu 0).buffer = [e] from hb]
    exact State.drainStore_granted hb hv ht hlen'
  refine gives_of_runIf (execFence.eq_1 ..) hp ?_
  rw [if_pos (by decide), hd]
  have hsn (u : State) : u.snoop 0 (e.addr / 64) true = u := if_neg (by decide)
  refine ⟨?_, ?_, ?_⟩
  · rw [State.emit_mem, State.performWrite_cells (hsn _) (by exact htu)]
    rfl
  · show (State.acu (State.performWrite _ 0 e.addr e.bytes) 0).buffer = []
    rw [State.performWrite_buffer (hsn _) (by rwa [State.setAcu_acus_length]), State.setAcu_acu_self hlen']
  · rw [State.emit_out]
    exact List.mem_append_right _ (List.mem_singleton_self _)

/-! ### The scrub, the drift check and the refresh (R369 to R371) -/

theorem lpddrPatrolScrub_gives {a e : Nat} {s : State} {P : State → Prop} (ha : s.awake = true)
    (h : P (if (s.target (lpddrBase + a) == .lpddr && s.scrubDue) = true then s.begin.scrubNext.readWord ((lpddrBase + a) / 8) e else s.begin)) :
    Gives (.lpddrPatrolScrub a e) s P := gives_of_run (execLpddrPatrolScrub.eq_1 ..) ha h

@[simp] theorem State.scrubNext_faults (s : State) : s.scrubNext.mem.faults = s.mem.faults := by
  unfold State.scrubNext
  split <;> rfl

theorem lpddrPatrolScrub_clean {a : Nat} {s : State} (ha : s.awake = true) (ht : s.target (lpddrBase + a) = .lpddr) (hd : s.scrubDue = true)
    (hf : s.mem.faults = []) : Leaves (.lpddrPatrolScrub a 0) s s.scrubNext := by
  refine lpddrPatrolScrub_gives ha ?_
  rw [if_pos (by rw [ht, hd]; rfl), State.readWord_clean (by rw [State.scrubNext_faults]; exact hf)]
  unfold State.scrubNext
  rw [show s.begin.mem = s.mem from rfl, show s.begin.scrubWords = s.scrubWords from rfl]
  split <;> rfl

theorem lpddrPatrolScrub_rests {a e : Nat} {s : State} (ha : s.awake = true) (hd : s.scrubDue = false) : Leaves (.lpddrPatrolScrub a e) s s := by
  refine lpddrPatrolScrub_gives ha ?_
  rw [if_neg (by simp [hd])]
  rfl

/-- Addresses are mapped by region, and every region begins at a multiple of 8 bytes: a word lies in one. -/
theorem State.target_word {s : State} {a : Nat} (h : s.target (lpddrBase + a) = .lpddr) : s.target (8 * ((lpddrBase + a) / 8)) = .lpddr := by
  have hsb : sbBase = 0x01000000 := rfl
  have hli : lichenBase = 0x02000000 := rfl
  have hep : usbEpBase = 0x03000000 := rfl
  have hpl : plannerBase = 0x04000000 := rfl
  have hlp : lpddrBase = 0x100000000 := rfl
  have key : ∀ x, lpddrBase ≤ x → (s.target x = .lpddr ↔ x < lpddrBase + s.lpddrBytes) := by
    intro x hx
    simp only [State.target, Bool.and_eq_true, decide_eq_true_eq]
    rw [if_neg (by omega), if_neg (by omega), if_neg (by omega), if_neg (by omega), if_neg (by omega), if_neg (by omega)]
    split <;> simp <;> omega
  have hlt := (key _ (Nat.le_add_right _ _)).mp h
  exact (key _ (by omega)).mpr (by omega)

theorem State.noteCorrected_due {s : State} (hc : s.mem.corTick = none) (h : 0 < s.mem.corSince) :
    s.noteCorrected = ({ s with mem := { s.mem with corTick := some s.time.tick, corSince := 0 } } : State).raise 130 s.mem.corSince := by
  unfold State.noteCorrected
  rw [hc]
  exact if_pos (by simpa using h)

/-- A word with a correctable error, the first since the last report: mended, counted and reported (R370, R371). -/
theorem State.readWord_mended {s : State} {w : Nat} (ht : s.target (8 * w) = .lpddr) (hf : s.mem.faults = []) (hc : s.mem.corTick = none) :
    s.readWord w 1 = ({ s with mem := { s.mem with
      corrected := satAdd 64 s.mem.corrected 1, corTick := some s.time.tick, corSince := 0 } } : State).raise 130 (satAdd 32 s.mem.corSince 1) := by
  have hw : s.wordFault w = 0 := by simp [State.wordFault, hf]
  have hspoil : (s.spoil w 1).lpddrCorrected w = ({ s with mem := { s.mem with
      corrected := satAdd 64 s.mem.corrected 1, corSince := satAdd 32 s.mem.corSince 1 } } : State).noteCorrected := by
    unfold State.spoil State.lpddrCorrected State.wordMended
    rw [if_neg (by decide), hf]
    dsimp only
    congr
    simp [hf]
  unfold State.readWord
  dsimp only
  rw [hw, ht]
  exact hspoil.trans (noteCorrected_due hc (by simp [satAdd]))

/-- What the mended word leaves, told from the state before the scrub went on. -/
theorem State.readWord_mended_from {s u : State} {w : Nat} (htime : u.time = s.time) (hmbx : u.mbx = s.mbx)
    (hcor : u.mem.corrected = s.mem.corrected) (hsince : u.mem.corSince = s.mem.corSince) (hc : u.mem.corTick = none)
    (ht : u.target (8 * w) = .lpddr) (hf : u.mem.faults = []) :
    (u.readWord w 1).mem.corrected = satAdd 64 s.mem.corrected 1 ∧ (u.readWord w 1).mem.faults = []
      ∧ (u.readWord w 1).mem.corTick = some s.time.tick ∧ Heard 1 s (u.readWord w 1) 130 (satAdd 32 s.mem.corSince 1) := by
  rw [readWord_mended ht hf hc, raise_mem, hcor, hsince]
  exact ⟨rfl, hf, by rw [htime], heard_raise_mbx (by exact congrArg TimeSt.tick htime) (by exact congrArg TimeSt.slot htime) (by exact hmbx)⟩

theorem lpddrPatrolScrub_mends {a : Nat} {s : State} (ha : s.awake = true) (ht : s.target (lpddrBase + a) = .lpddr) (hd : s.scrubDue = true)
    (hf : s.mem.faults = []) (hc : s.mem.corTick = none) :
    Gives (.lpddrPatrolScrub a 1) s fun t => t.mem.corrected = satAdd 64 s.mem.corrected 1 ∧ t.mem.faults = []
      ∧ t.mem.corTick = some s.time.tick ∧ Heard 1 s t 130 (satAdd 32 s.mem.corSince 1) := by
  refine lpddrPatrolScrub_gives ha ?_
  have hnext : s.begin.scrubNext.time = s.time ∧ s.begin.scrubNext.mbx = s.mbx ∧ s.begin.scrubNext.mem.corrected = s.mem.corrected
      ∧ s.begin.scrubNext.mem.corSince = s.mem.corSince ∧ s.begin.scrubNext.mem.corTick = none ∧ s.begin.scrubNext.target = s.target := by
    unfold State.scrubNext
    split <;> exact ⟨rfl, rfl, rfl, rfl, hc, rfl⟩
  obtain ⟨htime, hmbx, hcor, hsince, htick, htarget⟩ := hnext
  rw [if_pos (by rw [ht, hd]; rfl)]
  exact State.readWord_mended_from htime hmbx hcor hsince htick (by rw [htarget]; exact State.target_word ht) ((State.scrubNext_faults _).trans hf)

theorem dqsDriftCheck_due {ch : Nat} {s : State} (ha : s.awake = true) (hl : s.mem.lpddr = .active) (hch : ch < 4)
    (hp : s.passed s.mem.dqsAt (msTicks 2) = true) :
    Says (.dqsDriftCheck ch) s { s with mem := { s.mem with dqsAt := s.time.tick } } [.dqsRetrain ch] := by
  refine gives_of_run (execDqsDriftCheck.eq_1 ..) ha ?_
  rw [if_pos (by
    rw [show s.begin.mem = s.mem from rfl, hl, show s.begin.passed s.mem.dqsAt (msTicks 2) = true from hp]
    simpa using hch)]
  exact ⟨rfl, rfl⟩

theorem dqsDriftCheck_early {ch : Nat} {s : State} (ha : s.awake = true) (hp : s.passed s.mem.dqsAt (msTicks 2) = false) :
    Leaves (.dqsDriftCheck ch) s s := by
  refine gives_of_run (execDqsDriftCheck.eq_1 ..) ha ?_
  rw [if_neg (by rw [show s.begin.passed s.begin.mem.dqsAt (msTicks 2) = false from hp]; simp)]
  rfl

theorem lpddrRefresh_says {b : Nat} {s : State} (ha : s.awake = true) (hl : s.mem.lpddr = .active) : Says (.lpddrRefresh b) s s [.refresh b] := by
  refine gives_of_run (execLpddrRefresh.eq_1 ..) ha ?_
  rw [if_pos (by rw [show s.begin.mem = s.mem from rfl, hl]; rfl)]
  exact ⟨rfl, rfl⟩

end Sys2Proof.Machine

namespace Sys2Proof.Machine

/-- Settles O40, clause by clause. -/
theorem memoryAccesses : Obligations.MemoryAccesses := by
  intro s hp formed user
  have form {m k a n : Nat} (h : formed m k a n) : Formed m k a n ∧ 9 < m ∧ m ≠ 14 ∧ (s.asleep = false ∨ m = 15) := by
    obtain ⟨h9, h16, h14, hk, hn, hal, ha, hs⟩ := h
    exact ⟨⟨h16, hk, hn, hal, ha⟩, h9, h14, hs⟩
  have core {m k a n : Nat} (h : user m k a n) : Formed m k a n ∧ (1 ≤ m ∧ m ≤ 8) ∧ s.asleep = false ∧ s.svc.on = true := by
    obtain ⟨h1, h8, hk, hn, hal, ha, hs, hon⟩ := h
    exact ⟨⟨by omega, hk, hn, hal, ha⟩, ⟨h1, h8⟩, hs, hon⟩
  refine ⟨fun m k a n data u h hk ht hv hf hb => ?_, fun m a n data u h ht htu hv => ?_, fun m k a n data u h ht hv hb => ?_,
    fun a n data c hn hal ha hs hh ho hc hb hlen => ?_, fun m a n data w u h hlo hhi ht => ?_, fun m k a n data h hh hpmp => ?_,
    fun m k a n data u h hh => ?_, fun m hm hb => fence_empty hp hm hb, fun e hb hv ht htu hlen => fence_drains hp hb hv ht htu hlen,
    fun a ha ht hd hf => lpddrPatrolScrub_clean ha ht hd hf, fun a ha ht hd hf hc => lpddrPatrolScrub_mends ha ht hd hf hc,
    fun a e ha hd => lpddrPatrolScrub_rests ha hd, fun ch ha hl hch hp => dqsDriftCheck_due ha hl hch hp,
    fun ch ha hp => dqsDriftCheck_early ha hp, fun b ha hl => lpddrRefresh_says ha hl⟩
  · obtain ⟨hf', h9, h14, hs⟩ := form h
    exact memoryAccess_reads data u hp hf' h9 h14 hs hk ht hv hf hb
  · obtain ⟨hf', h9, h14, hs⟩ := form h
    exact memoryAccess_writes data u hp hf' h9 h14 hs rfl ht htu hv
  · obtain ⟨hf', h9, h14, hs⟩ := form h
    exact memoryAccess_denied data u hp hf' h9 h14 hs ht hv hb
  · exact memoryAccess_buffered data hp ⟨by omega, by omega, hn, hal, ha⟩ hs hh ho hc hb hlen
  · obtain ⟨hf', h9, h14, hs⟩ := form h
    exact memoryAccess_collides data u hp hf' h9 h14 hs rfl hlo hhi ht
  · obtain ⟨hf', hm, hs, hon⟩ := core h
    exact memoryAccess_pmp data hp hf' hs hm hon hh hpmp
  · obtain ⟨hf', hm, hs, hon⟩ := core h
    exact memoryAccess_halted data hp hf' hs u hm hon hh

end Sys2Proof.Machine

/-! The memory commands, the debug commands and the JTAG instructions (Table 14.7, R376, R503, R557, R578). -/
namespace Sys2Proof.Machine

/-! ### The memory commands -/

theorem memShow_shows : Shows .memShow Cmd.memShow 0 (fun _ _ => True) (fun _ s =>
      leBytes 1 s.mem.lpddr.code ++ leBytes 1 s.mem.rate ++ leBytes 2 s.mem.gib ++ leBytes 8 s.mem.corrected ++ leBytes 4 s.mem.uncorrected
        ++ leBytes 8 s.mem.lastUnc ++ leBytes 4 s.mem.sramCor ++ leBytes 4 s.mem.sramUnc ++ leBytes 4 s.mem.collisions
        ++ leBytes 1 (100 * s.mem.scrubDone / max 1 s.scrubWords) ++ zeros 3) :=
  shows_plain (fun _ _ => rfl) (fun _ _ _ _ _ _ => rfl) (fun _ _ _ _ _ _ => rfl) fun _ _ _ _ => rfl

theorem memMasterShow_shows : Shows .memMasterShow Cmd.memMasterShow 0 (fun _ _ => True) (fun _ s => s.mem.conflicts.flatMap (leBytes 4)) :=
  shows_plain (fun _ _ => rfl) (fun _ _ _ _ _ _ => rfl) (fun _ _ _ _ _ _ => rfl) fun _ _ _ _ => rfl

theorem memMapShow_shows : Shows .memMapShow Cmd.memMapShow 0 (fun _ _ => True) (fun _ s =>
      (s.memPlan.flatMap fun r => leBytes 8 r.1 ++ leBytes 8 r.2) ++ leBytes 8 (total (s.mem.stores.map fun e => e.2.2) * (2 * mib))) :=
  shows_plain (fun _ _ => rfl) (fun _ _ _ _ _ _ => rfl) (fun _ _ _ _ _ _ => rfl) fun _ _ _ _ => rfl

theorem memClear_does : Does .memClear Cmd.memClear 0 (fun _ _ => True) (fun _ s => { s with mem := { s.mem with
      corrected := 0, uncorrected := 0, sramCor := 0, sramUnc := 0, collisions := 0, conflicts := List.replicate 16 0 } }) (fun _ _ => []) :=
  does_plain (fun _ _ => rfl) (fun _ _ _ _ _ _ => rfl) (fun _ _ _ _ _ _ => rfl) (fun _ _ _ _ _ _ => rfl) fun _ _ _ _ => rfl

theorem memInject_does : Does .memInject Cmd.memInject 12 (fun rq _ => arg rq 0 1 = 1 ∧ arg rq 4 8 < mib ∧ arg rq 1 1 ≤ 1)
      (fun rq s => { s with mem := { s.mem with
        faults := (s.mem.faults.filter fun f => !(f.word == arg rq 4 8 / 8 && f.armed)) ++ [⟨arg rq 4 8 / 8, arg rq 1 1 == 1, true⟩] } })
      (fun _ _ => []) :=
  does_plain (fun _ _ => rfl) (fun _ _ _ _ _ _ => rfl) (fun _ _ _ _ _ _ => rfl) (fun _ _ _ _ _ _ => rfl) fun rq s _ ⟨hk, ha, hh⟩ => by
    dsimp only
    rw [hk]
    rw [if_pos ha]
    exact if_neg (by omega)

theorem memInject_fails : Fails .memInject Cmd.memInject 12 (fun rq _ => arg rq 0 1 = 1 ∧ mib ≤ arg rq 4 8) .badState :=
  fails_plain (fun _ _ => rfl) (fun _ _ _ _ _ _ => rfl) rfl fun rq s _ ⟨hk, ha⟩ => by
    dsimp only
    rw [hk]
    rw [if_neg (Nat.not_lt.mpr ha)]
    rfl

/-! ### The debug commands (R503, R557) -/

theorem dbgShow_does : Does .dbgShow Cmd.dbgShow 1 (fun _ _ => True)
      (fun rq s => { s with pins := { s.pins with sticky := s.pins.sticky && !bitAt (arg rq 0 1) 0 } })
      (fun _ s => leBytes 1 (b2n (openLc s.lifecycle)) ++ leBytes 1 (s.cv Fld.CORE_DEBUG) ++ leBytes 1 s.pins.halted.toNat ++ zeros 1
        ++ leBytes 4 (s.acu 14).denials ++ leBytes 1 (b2n s.pins.sticky) ++ zeros 3) :=
  does_plain (fun _ _ => rfl) (fun _ _ _ _ _ _ => rfl) (fun _ _ _ _ _ _ => rfl) (fun _ _ _ _ _ _ => rfl) fun _ _ _ _ => rfl

/-- A range of one byte is one access. -/
theorem State.debugRange_one (s : State) (a : Nat) (bs : Option (List Byte)) :
    s.debugRange a 1 bs = (DebugRun.mk s 0 0 0 []).step a 1 (bs.map fun b => slice 0 1 b) := by
  have hsize : pieceSize a 1 = 1 := by simp [pieceSize]
  unfold State.debugRange piecesOf
  rw [if_neg (by decide), hsize, piecesOf, List.foldl_cons, List.foldl_nil, Nat.sub_self]

/-- A byte that M14 may read, with no faulty word. -/
theorem State.debugRange_read {s : State} {a : Nat} (ht : s.target a ≠ .none) (hv : (s.acuCheck 14 0 a true).allow = true) (hf : s.mem.faults = []) :
    s.debugRange a 1 none = ⟨s, 1, 0, 0, [s.byteAt a]⟩ := by
  have hb : s.bytesAt a 1 = [s.byteAt a] := rfl
  rw [debugRange_one]
  unfold DebugRun.step
  dsimp only [Option.map_none, Option.isSome_none, Bool.false_eq_true, if_false]
  rw [if_neg (by rw [show (s.target a == .none) = false by simpa using ht]; simp [hv])]
  rw [fetchBytes_clean hf, hb]
  rfl

/-- A byte that M14 may not read: the denial is logged, and the sticky bit set (R503). -/
theorem State.debugRange_denied {s : State} {a : Nat} (hv : (s.acuCheck 14 0 a true).allow = false) :
    ∃ u : State, s.debugRange a 1 none = ⟨u, 1, 1, a, zeros 1⟩ ∧ u.pins.sticky = true ∧ u.mem = s.mem := by
  rw [debugRange_one]
  unfold DebugRun.step
  dsimp only [Option.map_none, Option.isSome_none, Bool.false_eq_true, if_false]
  rw [if_pos (by simp [hv])]
  exact ⟨_, rfl, rfl, rfl⟩

/-- A byte that M14 may write. -/
theorem State.debugRange_write {s : State} {a : Nat} (ht : s.target a ≠ .none) (hv : (s.acuCheck 14 1 a true).allow = true) (b : List Byte) :
    s.debugRange a 1 (some b) = ⟨s.performWrite 14 a (slice 0 1 b), 1, 0, 0, []⟩ := by
  rw [debugRange_one]
  unfold DebugRun.step
  dsimp only [Option.map_some, Option.isSome_some, if_true]
  rw [if_neg (by rw [show (s.target a == .none) = false by simpa using ht]; simp [hv])]

theorem dbgMemRead_shows : Shows .dbgMemRead Cmd.dbgMemRead 12
      (fun rq s => arg rq 8 2 = 1 ∧ s.target (arg rq 0 8 % 2 ^ 40) ≠ .none ∧ (s.acuCheck 14 0 (arg rq 0 8 % 2 ^ 40) true).allow = true
        ∧ s.mem.faults = [])
      (fun rq s => leBytes 2 1 ++ leBytes 2 0 ++ leBytes 8 0 ++ [s.byteAt (arg rq 0 8 % 2 ^ 40)]) :=
  shows_plain (fun _ _ => rfl) (fun _ _ _ _ _ _ => rfl) (fun _ _ _ _ _ _ => rfl) fun rq s _ ⟨hn, ht, hv, hf⟩ => by
    dsimp only
    rw [hn, if_neg (by omega), if_neg (by decide), State.debugRange_read ht hv hf]
    rfl

theorem dbgMemRead_denied {rq : Req} {s : State} (ha : Admitted Cmd.dbgMemRead 12 rq s) (hn : arg rq 8 2 = 1)
    (hv : (s.acuCheck 14 0 (arg rq 0 8 % 2 ^ 40) true).allow = false) :
    ∃ t, exec (.dbgMemRead rq) s = .next t ∧ t.Replied rq .locked 0 [] ∧ t.pins.sticky = true ∧ t.mem.cells = s.mem.cells := by
  have hv' : ((s.heard Cmd.dbgMemRead rq).acuCheck 14 0 (arg rq 0 8 % 2 ^ 40) true).allow = false := by rw [State.heard_moved]; exact hv
  obtain ⟨u, hu, hsticky, hmem⟩ := State.debugRange_denied hv'
  have hx := exec_failed (i := .dbgMemRead rq) (u := u) (data := []) (p := none) (f := some u) (v := none) (nj := false) (rc := .locked) rfl ha rfl (by
    dsimp only
    rw [hn, if_neg (by omega), if_neg (by decide), hu]
    rfl)
  refine ⟨_, hx, State.fwReply_replied .., ?_, ?_⟩
  · rw [State.fwReply_pins]
    exact hsticky
  · rw [State.fwReply_mem]
    exact congrArg MemSt.cells (hmem.trans (State.heard_mem ..))

theorem dbgMemWrite_writes {rq : Req} {s : State} (ha : Admitted Cmd.dbgMemWrite 12 rq s) (hn : arg rq 8 2 = 1) (hlen : 13 ≤ rq.payload.length)
    (ht : s.target (arg rq 0 8 % 2 ^ 40) ≠ .none) (htu : s.target (arg rq 0 8 % 2 ^ 40) ≠ .unit)
    (hv : (s.acuCheck 14 1 (arg rq 0 8 % 2 ^ 40) true).allow = true) :
    ∃ t, exec (.dbgMemWrite rq) s = .next t ∧ t.Replied rq .ok 0 (leBytes 2 1 ++ leBytes 2 0 ++ leBytes 8 0)
      ∧ t.mem.cells = memWrites s.mem.cells (arg rq 0 8 % 2 ^ 40) (slice 12 1 rq.payload) := by
  have hv' : ((s.heard Cmd.dbgMemWrite rq).acuCheck 14 1 (arg rq 0 8 % 2 ^ 40) true).allow = true := by rw [State.heard_moved]; exact hv
  have ht' : (s.heard Cmd.dbgMemWrite rq).target = s.target := by rw [State.heard_moved]; rfl
  have hslice : slice 0 1 (slice 12 1 rq.payload) = slice 12 1 rq.payload := by simp [slice]
  have hx := exec_answered (i := .dbgMemWrite rq) (u := (s.heard Cmd.dbgMemWrite rq).performWrite 14 (arg rq 0 8 % 2 ^ 40) (slice 12 1 rq.payload))
    (data := leBytes 2 1 ++ leBytes 2 0 ++ leBytes 8 0) (p := none) (f := none) (v := none) (nj := false) (rc := .ok) rfl ha rfl rfl (by
    dsimp only
    rw [hn, if_neg (by simp; omega), if_neg (by decide), State.debugRange_write (by rw [ht']; exact ht) hv', hslice]
    rfl)
  refine ⟨_, hx, State.fwReply_replied .., ?_⟩
  rw [State.fwReply_mem, State.performWrite_cells (State.snoop_other _ (by omega) ..) (by rw [ht']; exact htu), State.heard_mem]

/-! ### The JTAG port (R578) -/

/-- JTAG_DBG_AP halts a core (R503). -/
theorem execJtagDbgAp_halt (a n : Nat) (d : List Byte) (k : Nat) (s : State) :
    exec (.jtagDbgAp 2 a n d k) s = runIf s.powered s fun s => (s.jtag 0x21).haltCore k true := rfl

/-- It lets a core go on. -/
theorem execJtagDbgAp_resume (a n : Nat) (d : List Byte) (k : Nat) (s : State) :
    exec (.jtagDbgAp 3 a n d k) s = runIf s.powered s fun s => (s.jtag 0x21).haltCore k false := rfl

/-- It reads a byte as M14. -/
theorem execJtagDbgAp_read (a : Nat) (d : List Byte) (k : Nat) (s : State) :
    exec (.jtagDbgAp 0 a 1 d k) s = runIf s.powered s fun s =>
      if ([1, 2, 4, 8, 16, 32, 64].contains 1 && a % 1 == 0 && Decidable.decide (a < 2 ^ 40)) = true then
        ((s.jtag 0x21).debugRange a 1 none).st.emit (.memData 14 ((s.jtag 0x21).debugRange a 1 none).data)
      else s.jtag 0x21 := rfl

theorem jtagDbgAp_halts {s : State} (hp : s.powered = true) (a n : Nat) (d : List Byte) (hd : s.debugPermitted = true) :
    Leaves (.jtagDbgAp 2 a n d 0) s { s with pins := { s.pins with ir := 0x21, extest := false, mgtHalted := true } } := by
  refine gives_of_runIf (execJtagDbgAp_halt a n d 0 s) hp ?_
  unfold State.haltCore
  rw [if_neg (by rw [show (s.begin.jtag 0x21).debugPermitted = true from hd]; decide), if_pos (by decide)]
  rfl

theorem State.jtag_debugPermitted (s : State) : (s.begin.jtag 0x21).debugPermitted = s.debugPermitted := rfl

theorem jtagDbgAp_ignores {s : State} (hp : s.powered = true) (a n : Nat) (d : List Byte) (k : Nat) (hd : s.debugPermitted = false) :
    Leaves (.jtagDbgAp 2 a n d k) s { s with pins := { s.pins with ir := 0x21, extest := false } } := by
  refine gives_of_runIf (execJtagDbgAp_halt a n d k s) hp ?_
  unfold State.haltCore
  rw [if_pos (by rw [State.jtag_debugPermitted, hd]; rfl)]
  rfl

theorem jtagDbgAp_resumes {s : State} (hp : s.powered = true) (a n : Nat) (d : List Byte) :
    Leaves (.jtagDbgAp 3 a n d 0) s { s with pins := { s.pins with ir := 0x21, extest := false, mgtHalted := false } } := by
  refine gives_of_runIf (execJtagDbgAp_resume a n d 0 s) hp ?_
  unfold State.haltCore
  rw [if_neg (by simp), if_pos (by decide)]
  rfl

theorem jtagDbgAp_reads {s : State} (hp : s.powered = true) {a : Nat} (d : List Byte) (k : Nat) (ha : a < 2 ^ 40) (ht : s.target a ≠ .none)
    (hv : (s.acuCheck 14 0 a true).allow = true) (hf : s.mem.faults = []) :
    Says (.jtagDbgAp 0 a 1 d k) s { s with pins := { s.pins with ir := 0x21, extest := false } } [.memData 14 [s.byteAt a]] := by
  refine gives_of_runIf (execJtagDbgAp_read a d k s) hp ?_
  rw [if_pos (by simpa [Nat.mod_one] using ha), State.debugRange_read (by exact ht) (by exact hv) (by exact hf)]
  exact ⟨rfl, rfl⟩

/-- Settles O41, clause by clause. -/
theorem memoryAndDebugCommands : Obligations.MemoryAndDebugCommands :=
  ⟨⟨memShow_shows, memMasterShow_shows, memMapShow_shows, memClear_does, memInject_does, memInject_fails⟩,
    dbgShow_does, dbgMemRead_shows, fun _ _ ha hn _ hv => dbgMemRead_denied ha hn hv,
    fun _ _ ha hn hlen ht htu hv => dbgMemWrite_writes ha hn hlen ht htu hv, fun s hp =>
    ⟨gives_of_runIf (execJtagIdcode.eq_1 s) hp ⟨rfl, rfl⟩, fun a b => gives_of_runIf (execJtagExtest.eq_1 a b s) hp ⟨rfl, rfl⟩,
      fun a b => gives_of_runIf (execJtagSamplePreload.eq_1 a b s) hp ⟨rfl, rfl⟩, gives_of_runIf (execJtagBypass.eq_1 s) hp ⟨rfl, rfl⟩,
      fun a n d hd => jtagDbgAp_halts hp a n d hd, fun a n d k hd => jtagDbgAp_ignores hp a n d k hd, fun a n d => jtagDbgAp_resumes hp a n d,
      fun _ d k ha ht hv hf => jtagDbgAp_reads hp d k ha ht hv hf⟩⟩

end Sys2Proof.Machine

/-! `svc.show` counts the events that instances have lost (Table 15.5) once its own request has been counted: the end of UNATT that a
request on LOCAL makes raises EV006 (R77), and an instance 255 events behind loses one to it (R392). -/
namespace Sys2Proof.Machine

/-- What the instances have lost, once a request on LOCAL has ended UNATT. -/
theorem State.heard_svc_insts {s : State} {rq : Req} (hvia : rq.via = .spi) (hu : s.mbx.unatt = true) (row : CmdRow) :
    (s.heard row rq).svc.insts = s.svc.insts.map fun i => i.deliver (s.event 6 0) := by
  unfold State.heard State.countLocal
  rw [hvia, State.spore_svc, if_pos (by decide)]
  dsimp only
  rw [if_pos (show s.begin.mbx.unatt = true from hu), State.raise_svc]
  rfl

/-- An instance 255 events behind loses one to an event that it enables (R392). -/
theorem InstSt.deliver_lost {i : InstSt} {e : EventEntry} (hc : bitAt i.caps 0 = true) (hm : i.mask.getLsbD e.num = true) (hf : 255 ≤ i.events.length) :
    (i.deliver e).lostEvents = i.lostEvents + 1 := by
  unfold InstSt.deliver
  rw [hc, hm, if_pos (by decide), if_neg (by omega)]

/-- A request has one reply. -/
theorem State.Replied.unique {t : State} {rq : Req} {rc rc' : Rc} {h h' : Nat} {d d' : List Byte} (hr : t.Replied rq rc h d) (hr' : t.Replied rq rc' h' d') :
    d = d' := by
  obtain ⟨r, hs, -, -, -, -, hd⟩ := hr
  obtain ⟨r', hs', -, -, -, -, hd'⟩ := hr'
  obtain rfl : r = r' := Option.some.inj (hs.symm.trans hs')
  exact hd.symm.trans hd'

/-- A hub whose LOCAL master has been absent, with an instance that enables EV006 and is 255 events behind. -/
def unattended : State := { State.reset with
  pins.phase := 2, boot.stage := 2, pwr.state := 0, mbx.loc.creds := [⟨1, 3, viaOwner .spi, 0⟩], mbx.unatt := true
  svc.insts := [{ InstSt.fresh 1 0 0 (parsePkg []) 1 with mask := BitVec.ofNat 192 64, events := List.replicate 255 ⟨0, 0, 0, 0, 0⟩ }] }

/-- The request for `svc.show` of its LOCAL master. -/
def showServices : Req := ⟨.spi, 7, 0, 1, 0, []⟩

/-- The sum at the end of what `svc.show` says. -/
theorem svcShow_lost {s : State} {rq : Req} (ha : Admitted Cmd.svcShow 0 rq s) :
    ∃ t b, exec (.svcShow rq) s = .next t
      ∧ t.Replied rq .ok 0 (b ++ leBytes 2 (total ((s.heard Cmd.svcShow rq).svc.insts.map (·.lostEvents)))) := by
  have hx := exec_answered (i := .svcShow rq) (u := s.heard Cmd.svcShow rq) (p := none) (f := none) (v := none) (nj := false) (rc := .ok) rfl ha rfl rfl rfl
  exact ⟨_, _, hx, State.fwReply_replied ..⟩

/-- Refutes O44: `svc.show` on `unattended` answers 1 lost event, which its own request has made the instance lose, and not the 0 of the state
that it came to. -/
theorem not_serviceCommands : ¬ Obligations.ServiceCommands := by
  intro h
  have ha : Admitted Cmd.svcShow 0 showServices unattended := admitted_of (by decide +kernel)
  obtain ⟨t, hx, -, hr⟩ := h.1 showServices unattended ha trivial
  obtain ⟨t', b, hx', hr'⟩ := svcShow_lost ha
  obtain rfl : t = t' := by
    rw [hx] at hx'
    injection hx'
  have htail := (List.append_inj' (hr.unique hr') (by rw [leBytes_length, leBytes_length])).2
  rw [State.heard_svc_insts rfl rfl] at htail
  have hlost : (unattended.svc.insts.map fun i => i.deliver (unattended.event 6 0)).map (·.lostEvents) = [1] := by
    show [(InstSt.deliver _ _).lostEvents] = [1]
    rw [InstSt.deliver_lost (by decide) (by decide) List.length_replicate.ge]
    rfl
  rw [hlost] at htail
  exact absurd htail (by decide)

end Sys2Proof.Machine

/-! The access control units' commands (Tables 19.8a, 19.8b and 19.10; R500 to R502), and what a command's event leaves in the queues. -/
namespace Sys2Proof.Machine

/-! ### A command's event -/

/-- The arrival of a request enters at most one event, the end of UNATT. -/
theorem State.heard_length (row : CmdRow) (rq : Req) (s : State) (c : Chan) :
    ((s.heard row rq).chan c).queue.length ≤ (s.chan c).queue.length + 1 := by
  have hspore : (s.heard row rq).chan c = (s.begin.countLocal rq.via).chan c := chan_of_mbx (by unfold State.heard; simp)
  rw [hspore]
  unfold State.countLocal
  dsimp only
  split_ifs
  · refine (State.raise_length ..).trans (Nat.le_of_eq ?_)
    cases c <;> rfl
  · cases c <;> exact Nat.le_succ _
  · rw [State.begin_chan]
    omega

theorem State.fwReply_holds (s : State) (m : Msg) (rc : Rc) (h : Nat) (data : List Byte) : s.Holds (s.fwReply m rc h data) := by
  unfold State.fwReply
  exact .next (.modChan (by exact fun _ _ he => he) _ _) (s.reply_holds ..)

theorem State.addJob_holds (s : State) (via : Via) (op h : Nat) (p : Option (Nat × List Byte)) : s.Holds (s.addJob via op h p) := by
  unfold State.addJob
  exact .modChan (by exact fun _ _ he => he) _ _

/-- The event that a command raises is heard beside that of its request's arrival. -/
theorem heard_raise_heard {row : CmdRow} {rq : Req} {s u : State} (hm : u.mbx = (s.heard row rq).mbx) (ht : u.time = s.time) (n a : Nat) :
    Heard 2 s (u.raise n a) n a := by
  refine heard_raise_of (by rw [ht]) (by rw [ht]) fun c => ?_
  have hc : u.chan c = (s.heard row rq).chan c := State.chan_of_mbx hm
  have := s.heard_length row rq c
  exact ⟨by rw [hc, State.heard_chan_mask], by rw [hc]; omega⟩

/-! ### Showing -/

theorem trustAcuShow_shows {rq : Req} {s : State} (ha : Admitted Cmd.trustAcuShow 1 rq s) (hm : arg rq 0 1 ≤ 15) :
    ∃ t, exec (.trustAcuShow rq) s = .next t ∧ t.still = s.still
      ∧ t.Replied rq .ok 0 (leBytes 1 (b2n (s.acu (arg rq 0 1)).epoch) ++ leBytes 1 (b2n (s.nomatchAllow (arg rq 0 1))) ++ zeros 2
        ++ leBytes 4 (s.acu (arg rq 0 1)).denials ++ (s.acu (arg rq 0 1)).regions.flatMap Region.bytes) :=
  have h : Shows .trustAcuShow Cmd.trustAcuShow 1 (fun rq _ => arg rq 0 1 ≤ 15) (fun rq s => leBytes 1 (b2n (s.acu (arg rq 0 1)).epoch)
      ++ leBytes 1 (b2n (s.nomatchAllow (arg rq 0 1))) ++ zeros 2 ++ leBytes 4 (s.acu (arg rq 0 1)).denials
      ++ (s.acu (arg rq 0 1)).regions.flatMap Region.bytes) :=
    shows_plain (fun _ _ => rfl) (fun _ _ _ _ _ _ => rfl) (fun _ _ _ _ _ _ => rfl) fun _ _ _ hm => if_neg (Nat.not_lt.mpr hm)
  h rq s ha hm

theorem trustAcuShow_fails : Fails .trustAcuShow Cmd.trustAcuShow 1 (fun rq _ => 15 < arg rq 0 1) .badState :=
  fails_plain (fun _ _ => rfl) (fun _ _ _ _ _ _ => rfl) rfl fun _ _ _ hm => if_pos hm

theorem trustAcuLogShow_shows : Shows .trustAcuLogShow Cmd.trustAcuLogShow 1 (fun rq _ => arg rq 0 1 ≤ 15) (fun rq s =>
      leBytes 1 (s.acu (arg rq 0 1)).log.length ++ zeros 3 ++ (s.acu (arg rq 0 1)).log.flatMap fun e =>
        leBytes 8 e.addr ++ leBytes 4 e.tick.toNat ++ leBytes 1 e.slot ++ leBytes 1 e.kind ++ leBytes 1 e.region ++ zeros 1) :=
  shows_plain (fun _ _ => rfl) (fun _ _ _ _ _ _ => rfl) (fun _ _ _ _ _ _ => rfl) fun _ _ _ hm => if_neg (Nat.not_lt.mpr hm)

theorem trustAcuLogShow_fails : Fails .trustAcuLogShow Cmd.trustAcuLogShow 1 (fun rq _ => 15 < arg rq 0 1) .badState :=
  fails_plain (fun _ _ => rfl) (fun _ _ _ _ _ _ => rfl) rfl fun _ _ _ hm => if_pos hm

/-! ### Regions set (R500 to R502) -/

/-- A unit without its cache. -/
def AcuSt.ruled (u : AcuSt) : AcuSt := { u with cache := [] }

/-- What the units rule, whatever their masters' caches hold. -/
def State.rules (s : State) : List AcuSt := s.trust.acus.map AcuSt.ruled

theorem State.rules_acu {s t : State} (h : t.rules = s.rules) (m : Nat) : (t.acu m).ruled = (s.acu m).ruled := by
  have hm := congrArg (fun l => nth l m AcuSt.init.ruled) h
  simpa [State.rules, nth, State.acu, List.getD_eq_getElem?_getD, List.getElem?_map, Option.getD_map] using hm

theorem State.setCache_rules (s : State) (m : Nat) (f : List CacheLine → List CacheLine) : (s.setCache m f).rules = s.rules := by
  show (put s.trust.acus m { s.acu m with cache := f (s.acu m).cache }).map AcuSt.ruled = s.trust.acus.map AcuSt.ruled
  unfold put
  rw [List.map_set]
  by_cases hm : m < s.trust.acus.length
  · have hself : AcuSt.ruled { s.acu m with cache := f (s.acu m).cache } = (s.trust.acus.map AcuSt.ruled)[m]'(by simpa using hm) := by
      simp [AcuSt.ruled, State.acu, nth, hm]
    rw [hself, List.set_getElem_self]
  · exact List.set_eq_of_length_le (by simpa using hm)

theorem State.rules_of_trust {s t : State} (h : t.trust = s.trust) : t.rules = s.rules := congrArg (fun x : TrustSt => x.acus.map AcuSt.ruled) h

/-- Lines written back or dropped change no unit's rules (R497). -/
theorem State.cleanLines_rules (s : State) (m : Nat) (p : Nat → Bool) (inval : Bool) : (s.cleanLines m p inval).rules = s.rules := by
  unfold State.cleanLines
  dsimp only
  exact (setCache_rules ..).trans (rules_of_trust (foldl_same _ (fun t : State => t.trust) (fun _ _ => putBytes_trust ..) _ _))

theorem State.acus_length_of_rules {s t : State} (h : t.rules = s.rules) : t.trust.acus.length = s.trust.acus.length := by
  simpa [State.rules] using congrArg List.length h

theorem State.setAcu_acu_ne {s : State} {m k : Nat} (h : k ≠ m) (u : AcuSt) : (s.setAcu m u).acu k = s.acu k := by
  simp [State.acu, State.setAcu, nth, put, List.getElem?_set_ne h.symm, List.getD_eq_getElem?_getD]

/-- A unit's region is swapped and its epoch with it; the other units' regions stay (R501). -/
theorem State.swapRegion_acus {s : State} {m : Nat} (hm : m < s.trust.acus.length) (j : Nat) (r : Region) :
    ((s.swapRegion m j r).acu m).epoch = (!(s.acu m).epoch) ∧ ((s.swapRegion m j r).acu m).regions = put (s.acu m).regions j r
      ∧ ∀ k, k ≠ m → ((s.swapRegion m j r).acu k).regions = (s.acu k).regions := by
  unfold State.swapRegion
  dsimp only
  have hrules := foldl_same (fun (t : State) (k : Nat) => t.cleanLines k (fun l => (nth (s.acu m).regions j .init).covers (64 * l)
    || ({ r with valid := true } : Region).covers (64 * l)) true) State.rules (fun t k => t.cleanLines_rules ..)
    (if m == 0 then [0] else if m ≤ 9 then [1, 2, 3, 4, 5, 6, 7, 8] else []) (s.setAcu m { s.acu m with shadow := put (s.acu m).regions j r })
  generalize List.foldl _ (s.setAcu m _) _ = t at hrules ⊢
  have hlen : m < t.trust.acus.length := by rw [acus_length_of_rules hrules, setAcu_acus_length]; exact hm
  have hself := rules_acu hrules m
  rw [setAcu_acu_self hm] at hself
  rw [setAcu_acu_self hlen]
  refine ⟨congrArg not (congrArg AcuSt.epoch hself :), (congrArg AcuSt.shadow hself :), fun k hk => ?_⟩
  rw [setAcu_acu_ne hk]
  exact (congrArg AcuSt.regions (rules_acu hrules k) :).trans (by rw [AcuSt.ruled, setAcu_acu_ne hk])

theorem State.moved_mbx (u : State) (o : List Emit) (m : MbxSt) (r : RecSt) (v : SvcSt) : (u.moved o m r v).mbx = m := rfl
theorem State.moved_time (u : State) (o : List Emit) (m : MbxSt) (r : RecSt) (v : SvcSt) : (u.moved o m r v).time = u.time := rfl

/-- A fold of operations that neither read nor write what the arrival of a request touches. -/
theorem Aside.foldl {β : Type} {f : State → β → State} (h : ∀ b, Aside fun s => f s b) (l : List β) : Aside fun s => l.foldl f s := by
  intro u o m r v
  induction l generalizing u with
  | nil => rfl
  | cons b l ih => exact (congrArg (fun w => l.foldl f w) (h b u o m r v)).trans (ih _)

theorem State.wordWritten_moved (w : Nat) : Aside fun s => s.wordWritten w := by
  intro u o m r v
  show State.wordWritten (u.moved o m r v) w = (u.wordWritten w).moved o m r v
  unfold State.wordWritten
  rw [show (u.moved o m r v).mem = u.mem from rfl]
  cases u.mem.faults.find? fun f => f.word == w && f.armed <;> rfl

theorem State.putBytes_moved (a : Nat) (bs : List Byte) : Aside fun s => s.putBytes a bs := by
  intro u o m r v
  show State.putBytes (u.moved o m r v) a bs = (u.putBytes a bs).moved o m r v
  unfold State.putBytes
  rw [show (u.moved o m r v).target a = u.target a from rfl]
  split
  · rfl
  · exact Aside.foldl wordWritten_moved _ { u with mem := { u.mem with cells := memWrites u.mem.cells a bs } } o m r v

theorem State.cleanLines_moved (k : Nat) (p : Nat → Bool) (inval : Bool) : Aside fun s => s.cleanLines k p inval := by
  intro u o m r v
  have hput := Aside.foldl (fun l : CacheLine => putBytes_moved (64 * l.line) l.bytes) ((u.acu k).cache.filter fun l => l.dirty && p l.line) u o m r v
  exact congrArg (fun w : State => w.setCache k fun ls =>
    if inval then ls.filter fun l => !p l.line else ls.map fun l => if p l.line then { l with dirty := false } else l) hput

theorem State.swapRegion_moved (m j : Nat) (r : Region) : Aside fun s => s.swapRegion m j r := by
  intro u o mb rc v
  have hclean := Aside.foldl (fun k => cleanLines_moved k (fun l => (nth (u.acu m).regions j .init).covers (64 * l)
    || ({ r with valid := true } : Region).covers (64 * l)) true) (if m == 0 then [0] else if m ≤ 9 then [1, 2, 3, 4, 5, 6, 7, 8] else [])
    (u.setAcu m { u.acu m with shadow := put (u.acu m).regions j r }) o mb rc v
  exact congrArg (fun w : State => w.setAcu m { w.acu m with regions := (w.acu m).shadow, epoch := !(w.acu m).epoch }) hclean

theorem State.wordWritten_time (s : State) (w : Nat) : (s.wordWritten w).time = s.time := by
  unfold State.wordWritten
  split <;> rfl

theorem State.putBytes_time (s : State) (a : Nat) (bs : List Byte) : (s.putBytes a bs).time = s.time := by
  unfold State.putBytes
  split
  · rfl
  · exact foldl_same _ (fun t : State => t.time) wordWritten_time _ _

theorem State.cleanLines_time (s : State) (m : Nat) (p : Nat → Bool) (inval : Bool) : (s.cleanLines m p inval).time = s.time :=
  foldl_same (fun (s : State) (l : CacheLine) => s.putBytes (64 * l.line) l.bytes) (fun t : State => t.time) (fun _ _ => putBytes_time ..) _ _

theorem State.swapRegion_time (s : State) (m j : Nat) (r : Region) : (s.swapRegion m j r).time = s.time :=
  (foldl_same (fun (t : State) (k : Nat) => t.cleanLines k (fun l => (nth (s.acu m).regions j .init).covers (64 * l)
    || ({ r with valid := true } : Region).covers (64 * l)) true) (fun t : State => t.time) (fun _ _ => cleanLines_time ..) _ _ :)

theorem trustAcuSet_sets {rq : Req} {s : State} {r : Region} (ha : Admitted Cmd.trustAcuSet 24 rq s) (hm : arg rq 0 1 ≤ 15) (hj : arg rq 1 1 ≤ 15)
    (hlen : s.trust.acus.length = 16) (hr : r = regionOf (nth (s.acu (arg rq 0 1)).regions (arg rq 1 1) .init) (slice 8 16 rq.payload))
    (hlock : (nth (s.acu (arg rq 0 1)).regions (arg rq 1 1) .init).lock = false)
    (hdbg : arg rq 0 1 = 14 → r.valid = true → s.lifecycle ≤ 1 ∨ s.lifecycle = 4)
    (hok : ((s.swapRegion (arg rq 0 1) (arg rq 1 1) r).acuCheck 0 1 Config.acuRegisters false).allow = true) :
    ∃ t, exec (.trustAcuSet rq) s = .next t ∧ t.Replied rq .ok 0 [] ∧ (t.acu (arg rq 0 1)).epoch = (!(s.acu (arg rq 0 1)).epoch)
      ∧ (t.acu (arg rq 0 1)).regions = put (s.acu (arg rq 0 1)).regions (arg rq 1 1) r
      ∧ (∀ k, k ≠ arg rq 0 1 → (t.acu k).regions = (s.acu k).regions)
      ∧ Heard 2 s t 180 (arg rq 0 1 + 16 * arg rq 1 1 + 256 * b2n r.lock) := by
  obtain ⟨hepoch, hregions, hothers⟩ := State.swapRegion_acus (s := s) (m := arg rq 0 1) (by omega) (arg rq 1 1) r
  have hswap : (s.heard Cmd.trustAcuSet rq).swapRegion (arg rq 0 1) (arg rq 1 1) r = (s.swapRegion (arg rq 0 1) (arg rq 1 1) r).moved
      (s.heard Cmd.trustAcuSet rq).out (s.heard Cmd.trustAcuSet rq).mbx (s.heard Cmd.trustAcuSet rq).rcd (s.heard Cmd.trustAcuSet rq).svc := by
    conv_lhs => rw [State.heard_moved]
    exact State.swapRegion_moved ..
  have hopen : (arg rq 0 1 == 14 && r.valid && !openLc s.lifecycle) = false := by
    rcases Bool.eq_false_or_eq_true (arg rq 0 1 == 14 && r.valid) with h | h
    · obtain ⟨h14, hv⟩ := Bool.and_eq_true_iff.mp h
      have hlc := hdbg (by simpa using h14) hv
      have : openLc s.lifecycle = true := by simp only [openLc, Bool.or_eq_true, beq_iff_eq]; omega
      rw [this, Bool.not_true, Bool.and_false]
    · rw [h, Bool.false_and]
  have hacu : (s.heard Cmd.trustAcuSet rq).acu (arg rq 0 1) = s.acu (arg rq 0 1) := by rw [State.heard_moved]; rfl
  have hok' : (((s.heard Cmd.trustAcuSet rq).swapRegion (arg rq 0 1) (arg rq 1 1) r).acuCheck 0 1 Config.acuRegisters false).allow = true := by
    rw [hswap]
    exact hok
  have hx := exec_answered (i := .trustAcuSet rq) (u := ((s.heard Cmd.trustAcuSet rq).swapRegion (arg rq 0 1) (arg rq 1 1) r).raise 180
      (arg rq 0 1 + 16 * arg rq 1 1 + 256 * b2n r.lock)) (data := []) (p := none) (f := none) (v := none) (nj := false) (rc := .ok) rfl ha rfl rfl (by
    dsimp only
    rw [if_neg (by simp only [Bool.or_eq_true, decide_eq_true_eq]; omega), hacu, hlock, ← hr, State.lifecycle_heard, hopen,
      if_neg (by simp [hok'])]
    rfl)
  rw [hswap] at hx
  refine ⟨_, hx, State.fwReply_replied .., ?_, ?_, fun k hk => ?_, ?_⟩
  · rw [State.acu, State.fwReply_trust, State.raise_trust]
    exact hepoch
  · rw [State.acu, State.fwReply_trust, State.raise_trust]
    exact hregions
  · rw [State.acu, State.fwReply_trust, State.raise_trust]
    exact hothers k hk
  · exact (heard_raise_heard (State.moved_mbx ..) ((State.moved_time ..).trans (State.swapRegion_time ..)) _ _).holds (State.fwReply_holds ..)

theorem trustAcuSet_fails_locked : Fails .trustAcuSet Cmd.trustAcuSet 24
      (fun rq s => arg rq 0 1 ≤ 15 ∧ arg rq 1 1 ≤ 15 ∧ (nth (s.acu (arg rq 0 1)).regions (arg rq 1 1) .init).lock = true) .locked :=
  fails_plain (fun _ _ => rfl) (fun _ _ _ _ _ _ => rfl) rfl fun rq s _ ⟨hm, hj, hl⟩ => by
    dsimp only
    rw [if_neg (by simp only [Bool.or_eq_true, decide_eq_true_eq]; omega), hl, if_pos (by simp)]

theorem trustAcuSet_fails_debug : Fails .trustAcuSet Cmd.trustAcuSet 24
      (fun rq s => arg rq 0 1 = 14 ∧ arg rq 1 1 ≤ 15 ∧ (s.lifecycle = 2 ∨ s.lifecycle = 3 ∨ s.lifecycle = 5)
        ∧ (regionOf (nth (s.acu 14).regions (arg rq 1 1) .init) (slice 8 16 rq.payload)).valid = true) .locked :=
  fails_plain (fun _ _ => rfl) (fun _ _ _ _ _ _ => rfl) rfl fun rq s _ ⟨hm, hj, hlc, hv⟩ => by
    have hclosed : openLc s.lifecycle = false := by rcases hlc with h | h | h <;> rw [h] <;> rfl
    dsimp only
    rw [if_neg (by simp only [Bool.or_eq_true, decide_eq_true_eq]; omega), hm, hv, hclosed, if_pos (by simp)]

theorem trustAcuSet_fails_range : Fails .trustAcuSet Cmd.trustAcuSet 24 (fun rq _ => 15 < arg rq 0 1 ∨ 15 < arg rq 1 1) .badState :=
  fails_plain (fun _ _ => rfl) (fun _ _ _ _ _ _ => rfl) rfl fun rq s _ h => if_pos (by simpa using h)

/-- Settles O48, clause by clause. -/
theorem accessControlCommands : Obligations.AccessControlCommands :=
  ⟨fun _ _ ha hm => trustAcuShow_shows ha hm, trustAcuShow_fails, fun rq s ha hm => trustAcuLogShow_shows rq s ha hm, trustAcuLogShow_fails,
    fun _ _ ha hm hj hlen hlock hdbg hok => trustAcuSet_sets ha hm hj hlen rfl hlock hdbg hok, trustAcuSet_fails_locked, trustAcuSet_fails_debug,
    trustAcuSet_fails_range⟩

end Sys2Proof.Machine

/-! Key slots, the life cycle and the anti-rollback count (Tables 19.1 to 19.4, 19.9 and 19.10). -/
namespace Sys2Proof.Machine

/-! ### Showing -/

theorem trustShow_shows : Shows .trustShow Cmd.trustShow 0 (fun _ _ => True) (fun _ s =>
    leBytes 1 s.lifecycle ++ leBytes 1 s.rollbackCount ++ zeros 2
      ++ ((upTo 32).flatMap fun k => leBytes 1 (s.slotState k + 8 * (s.slot k).cls)) ++ s.deviceId ++ zeros 4) :=
  shows_plain (fun _ _ => rfl) (fun _ _ _ _ _ _ => rfl) (fun _ _ _ _ _ _ => rfl) fun _ _ _ _ => rfl

theorem trustIdShow_shows : Shows .trustIdShow Cmd.trustIdShow 0 (fun _ _ => True) (fun _ s =>
    s.deviceId ++ fitBytes 97 (s.devicePub.getD []) ++ zeros 3 ++ leBytes 4 s.linkKeyid) :=
  shows_plain (fun _ _ => rfl) (fun _ _ _ _ _ _ => rfl) (fun _ _ _ _ _ _ => rfl) fun _ _ _ _ => rfl

theorem slot_heard (row : CmdRow) (rq : Req) (s : State) (k : Nat) : (s.heard row rq).slot k = s.slot k := by
  rw [State.slot, State.heard_trust]
  rfl

theorem slotState_heard (row : CmdRow) (rq : Req) (s : State) (k : Nat) : (s.heard row rq).slotState k = s.slotState k := by
  rw [State.slotState, slot_heard]
  rfl

theorem slotTag_heard (row : CmdRow) (rq : Req) (s : State) (k : Nat) : (s.heard row rq).slotTag k = s.slotTag k :=
  Deaf.heard (φ := fun u => u.slotTag k) (fun _ _ _ _ _ => rfl) row rq s

/-- The bytes that `trust.key.show` shows of a slot's content: none of a secret key's (R483). -/
theorem shown_bytes (x : SlotSt) : (if secretClass x.cls = true then zeros 32 else x.bytes) = if x.cls = 3 ∨ x.cls = 6 then zeros 32 else x.bytes := by
  simp [secretClass]

/-- The tag that `trust.key.show` shows: that of the slot's key, or a free value. -/
def State.shownTag (s : State) (k : Nat) : Nat × State :=
  match s.slotTag k with
  | some t => (t, s)
  | none => s.draw

theorem State.shownTag_of_some {s : State} {k g : Nat} (h : s.slotTag k = some g) : (s.shownTag k).1 = g := by
  rw [State.shownTag, h]

theorem State.shownTag_trust (s : State) (k : Nat) : (s.shownTag k).2.trust = s.trust := by
  unfold State.shownTag
  cases s.slotTag k <;> rfl

theorem trustKeyShow_shows {rq : Req} {s : State} (ha : Admitted Cmd.trustKeyShow 1 rq s) (hk : arg rq 0 1 ≤ 31) :
    ∃ t tag, exec (.trustKeyShow rq) s = .next t ∧ (∀ g, s.slotTag (arg rq 0 1) = some g → tag = g) ∧ t.trust = s.trust
      ∧ t.Replied rq .ok 0 (leBytes 1 (s.slotState (arg rq 0 1)) ++ leBytes 1 (s.slot (arg rq 0 1)).cls ++ leBytes 2 tag
        ++ (if (s.slot (arg rq 0 1)).cls = 3 ∨ (s.slot (arg rq 0 1)).cls = 6 then zeros 32 else (s.slot (arg rq 0 1)).bytes)) := by
  have htrust := ((s.heard Cmd.trustKeyShow rq).shownTag_trust (arg rq 0 1)).trans (State.heard_trust ..)
  have hst : ((s.heard Cmd.trustKeyShow rq).shownTag (arg rq 0 1)).2.slotState (arg rq 0 1) = s.slotState (arg rq 0 1) := by
    rw [State.slotState, State.slot, htrust]
    rfl
  have hx := exec_answered (i := .trustKeyShow rq) (u := ((s.heard Cmd.trustKeyShow rq).shownTag (arg rq 0 1)).2)
    (data := leBytes 1 (((s.heard Cmd.trustKeyShow rq).shownTag (arg rq 0 1)).2.slotState (arg rq 0 1))
      ++ leBytes 1 ((s.heard Cmd.trustKeyShow rq).slot (arg rq 0 1)).cls ++ leBytes 2 ((s.heard Cmd.trustKeyShow rq).shownTag (arg rq 0 1)).1
      ++ (if secretClass ((s.heard Cmd.trustKeyShow rq).slot (arg rq 0 1)).cls = true then zeros 32 else ((s.heard Cmd.trustKeyShow rq).slot (arg rq 0 1)).bytes))
    (p := none) (f := none) (v := none) (nj := false) (rc := .ok) rfl ha rfl rfl (by
      dsimp only
      rw [if_neg (Nat.not_lt.mpr hk)]
      unfold State.shownTag
      generalize (s.heard Cmd.trustKeyShow rq).slotTag (arg rq 0 1) = o
      cases o <;> rfl)
  rw [hst, slot_heard, shown_bytes] at hx
  exact ⟨_, _, hx, fun g hg => State.shownTag_of_some ((slotTag_heard ..).trans hg), by rw [State.fwReply_trust, htrust], State.fwReply_replied ..⟩

/-! ### Key slots (R482, R483) -/

theorem trustKeyInstall_starts : Starts .trustKeyInstall Cmd.trustKeyInstall 36
      (fun rq s => arg rq 0 1 ≤ 31 ∧ s.slotState (arg rq 0 1) = 0 ∧ classFits (arg rq 0 1) (arg rq 1 1) = true
        ∧ leNat (slice 4 32 rq.payload) ≠ 0 ∧ leNat (slice 4 32 rq.payload) ≠ 2 ^ 256 - 1 ∧ (arg rq 1 1 = 6 → viaChan rq.via = .loc)
        ∧ slotWritable s.lifecycle (arg rq 0 1) = true ∧ s.trust.work = none)
      (fun rq s => { s with trust := { s.trust with
        slots := put s.trust.slots (arg rq 0 1) ⟨BitVec.ofNat 256 (leNat (slice 4 32 rq.payload)), 0⟩
        work := some (.install (arg rq 0 1) (arg rq 1 1)) } }) (fun _ _ => none) :=
  starts_plain (fun _ _ => rfl) (fun _ _ _ _ _ _ => rfl) (fun _ _ _ _ _ _ => rfl) (fun _ _ _ _ _ _ => rfl)
    fun rq s _ ⟨hk, hst, hfit, h0, h1, hloc, hw, hwork⟩ => by
    have hchan : (arg rq 1 1 == 6 && viaChan rq.via != .loc) = false := by
      by_cases h : arg rq 1 1 = 6
      · simp [hloc h]
      · simp [h]
    dsimp only
    rw [if_neg (by simp only [hst, hfit, hchan, Bool.or_eq_true, beq_iff_eq]; simp [h0, hk]; exact h1), if_neg (by simp [hw]),
      if_neg (by simp [hwork])]
    rfl

theorem trustKeyInstall_fails : Fails .trustKeyInstall Cmd.trustKeyInstall 36 (fun rq s => arg rq 0 1 ≤ 31 ∧ s.slotState (arg rq 0 1) ≠ 0) .badState :=
  fails_plain (fun _ _ => rfl) (fun _ _ _ _ _ _ => rfl) rfl fun rq s _ ⟨_, hst⟩ => if_pos (by simp [hst])

theorem trustKeyRevoke_fails : Fails .trustKeyRevoke Cmd.trustKeyRevoke 1
      (fun rq s => arg rq 0 1 < 8 ∧ s.bootSlotsUsed = [] ∧ s.lifecycle ≠ 1 ∧ s.lifecycle ≠ 4) .locked :=
  fails_plain (fun _ _ => rfl) (fun _ _ _ _ _ _ => rfl) rfl fun rq s _ ⟨hk, hused, h1, h4⟩ => by
    dsimp only
    rw [hused, if_neg (by simp; omega), if_pos (by simp [h1, h4, hk])]

theorem trustKeyRevoke_starts : Starts .trustKeyRevoke Cmd.trustKeyRevoke 1
      (fun rq s => arg rq 0 1 ≤ 31 ∧ s.bootSlotsUsed = [] ∧ (8 ≤ arg rq 0 1 ∨ s.lifecycle = 1 ∨ s.lifecycle = 4) ∧ s.trust.work = none
        ∧ s.trust.dead = 0)
      (fun rq s => { s with trust := { s.trust with
        slots := put s.trust.slots (arg rq 0 1) { s.slot (arg rq 0 1) with word := BitVec.allOnes 32 }
        work := some (.destroy (arg rq 0 1) (s.slot (arg rq 0 1)).cls) } })
      (fun _ _ => none) :=
  starts_plain (fun _ _ => rfl) (fun _ _ _ _ _ _ => rfl) (fun _ _ _ _ _ _ => rfl) (fun _ _ _ _ _ _ => rfl)
    fun rq s _ ⟨hk, hused, hlc, hwork, hdead⟩ => by
    dsimp only
    rw [hused, if_neg (by simp; omega), if_neg (by simp only [Bool.and_eq_true, Bool.not_eq_true', Bool.or_eq_false_iff, decide_eq_true_eq, beq_eq_false_iff_ne]; omega),
      if_neg (by simp [hwork]), if_neg (by rw [hdead]; simp)]
    rfl

/-! ### The life cycle (R485, R486) -/

/-- A state of the life cycle is left for a higher one (Table 19.2). -/
theorem lt_of_signersOf {cur target : Nat} {who : List Signer} (h : signersOf cur target = some who) : cur < target := by
  unfold signersOf at h
  split at h <;> first | omega | exact absurd h (by simp)

/-- A nonce used up changes nothing but what its channel holds. -/
theorem useNonce_trust (s : State) (via : Via) (bytes : List Byte) : (s.useNonce via bytes).trust = s.trust := by
  simp [State.useNonce]

theorem useNonce_fault (s : State) (via : Via) (bytes : List Byte) : (s.useNonce via bytes).fault = s.fault := by
  simp [State.useNonce]

/-- What the signatures of an advance are over (R485). -/
def State.advanceDigest (s : State) (target : Nat) (nonce : List Byte) : List Byte :=
  sha384 (labelBytes "XJT-LC" ++ s.deviceId ++ leBytes 1 s.lifecycle ++ leBytes 1 target ++ nonce)

/-- The advance is signed by all that must sign it, over a nonce of the channel that is fresh. -/
def State.advanceGood (s : State) (rq : Req) (who : List Signer) : Bool :=
  s.nonceOk rq.via (slice 4 32 rq.payload) && who.zipIdx.all fun w =>
    s.signedBy w.1 (arg rq (36 + 100 * w.2) 4) (s.advanceDigest (arg rq 0 1) (slice 4 32 rq.payload)) (slice (40 + 100 * w.2) 96 rq.payload)

theorem advanceGood_heard (row : CmdRow) (q rq : Req) (s : State) (who : List Signer) : (s.heard row q).advanceGood rq who = s.advanceGood rq who := by
  have hsig (w : Signer) (kid : Nat) (d g : List Byte) : (s.heard row q).signedBy w kid d g = s.signedBy w kid d g :=
    Deaf.heard (φ := fun u => u.signedBy w kid d g) (fun _ _ _ _ _ => rfl) row q s
  have hdig (target : Nat) (n : List Byte) : (s.heard row q).advanceDigest target n = s.advanceDigest target n :=
    Deaf.heard (φ := fun u => u.advanceDigest target n) (fun _ _ _ _ _ => rfl) row q s
  unfold State.advanceGood
  rw [nonceOk_heard]
  simp only [hsig, hdig]

theorem lcCondition_heard (row : CmdRow) (rq : Req) (s : State) (cur target : Nat) :
    (s.heard row rq).lcCondition cur target = s.lcCondition cur target :=
  Deaf.heard (φ := fun u => u.lcCondition cur target) (fun _ _ _ _ _ => rfl) row rq s

theorem State.blowLc_outside {s : State} {target k : Nat} (h : k < s.lifecycle ∨ target ≤ k) :
    nth (s.blowLc target).trust.lc k 0 = nth s.trust.lc k 0 := by
  have hcond : (Decidable.decide (s.lifecycle ≤ k) && Decidable.decide (k < target)) = false := by
    simp only [Bool.and_eq_false_iff, decide_eq_false_iff_not]
    omega
  simp only [State.blowLc, nth, List.getD_eq_getElem?_getD, List.getElem?_mapIdx]
  cases s.trust.lc[k]? with
  | none => rfl
  | some x => simp [hcond]

/-- The advance accepted: its nonce used up, some of the positions below its target blown, the rest at work. -/
def State.advanced (s : State) (rq : Req) : State :=
  let t := ((s.useNonce rq.via (slice 4 32 rq.payload)).cryptoSpore true (arg rq 0 1) []).draw
  let u := t.2.blowLc (s.lifecycle + t.1 % (arg rq 0 1 - s.lifecycle))
  { u with trust := { u.trust with work := some (.lifecycle (arg rq 0 1)) } }

theorem State.advanced_chan (s : State) (rq : Req) (c : Chan) : (s.advanced rq).chan c = (s.useNonce rq.via (slice 4 32 rq.payload)).chan c :=
  (chan_of_mbx rfl : _ = ((s.useNonce rq.via (slice 4 32 rq.payload)).cryptoSpore true (arg rq 0 1) []).chan c).trans
    (chan_of_mbx (cryptoSpore_mbx ..))

theorem State.advanced_work (s : State) (rq : Req) : (s.advanced rq).trust.work = some (.lifecycle (arg rq 0 1)) := rfl

theorem State.advanced_lc {s : State} {rq : Req} {k : Nat} (hlt : s.lifecycle < arg rq 0 1) (hk : k < s.lifecycle ∨ arg rq 0 1 ≤ k) :
    nth (s.advanced rq).trust.lc k 0 = nth s.trust.lc k 0 := by
  unfold State.advanced
  have htrust : (((s.useNonce rq.via (slice 4 32 rq.payload)).cryptoSpore true (arg rq 0 1) []).draw.2).trust = s.trust := by
    rw [draw_trust, cryptoSpore_trust, useNonce_trust]
  generalize ((s.useNonce rq.via (slice 4 32 rq.payload)).cryptoSpore true (arg rq 0 1) []).draw = w at htrust ⊢
  have hlc : w.2.lifecycle = s.lifecycle := by
    rw [State.lifecycle, htrust]
    rfl
  have hmod := Nat.mod_lt w.1 (Nat.sub_pos_of_lt hlt)
  refine (blowLc_outside (s := w.2) ?_).trans (by rw [htrust])
  rw [hlc]
  omega

theorem State.addJob_chan_nonces (s : State) (via : Via) (op h : Nat) (p : Option (Nat × List Byte)) :
    ((s.addJob via op h p).chan (viaChan via)).nonces = (s.chan (viaChan via)).nonces := by
  rw [State.addJob, State.modChan_chan_self]

section
variable {rq : Req} {s : State} (ha : Admitted Cmd.trustLifecycleAdvance 236 rq s)
include ha

theorem trustLifecycleAdvance_barred (hs : signersOf s.lifecycle (arg rq 0 1) = none) :
    ∃ t, exec (.trustLifecycleAdvance rq) s = .next t ∧ t.Replied rq .locked 0 [] ∧ t.trust = s.trust ∧ t.fault = s.fault := by
  have hx := exec_failed_with (i := .trustLifecycleAdvance rq) (w := (s.heard Cmd.trustLifecycleAdvance rq).useNonce rq.via (slice 4 32 rq.payload))
    (data := []) (p := none) (v := none) (nj := false) (rc := .locked) rfl ha rfl (by
      dsimp only
      rw [State.lifecycle_heard, hs])
  exact ⟨_, hx, State.fwReply_replied .., by rw [State.fwReply_trust, useNonce_trust, State.heard_trust],
    by rw [State.fwReply_fault, useNonce_fault, State.heard_fault]⟩

variable {who : List Signer} (hs : signersOf s.lifecycle (arg rq 0 1) = some who) (hcond : s.lcCondition s.lifecycle (arg rq 0 1) = true)
include hs hcond

theorem trustLifecycleAdvance_accepted (hr : s.jobRoom rq) (hwork : s.trust.work = none) (hgood : s.advanceGood rq who = true) :
    ∃ t, exec (.trustLifecycleAdvance rq) s = .next t
      ∧ (t.chan (viaChan rq.via)).nonces = (s.chan (viaChan rq.via)).nonces.filter (fun n => n.bytes != slice 4 32 rq.payload)
      ∧ t.Replied rq .accepted (s.chan (viaChan rq.via)).freeHandle [] ∧ t.trust.work = some (.lifecycle (arg rq 0 1))
      ∧ ∀ k, k < s.lifecycle ∨ arg rq 0 1 ≤ k → nth t.trust.lc k 0 = nth s.trust.lc k 0 := by
  have hgood' := (advanceGood_heard Cmd.trustLifecycleAdvance rq rq s who).trans hgood
  have hs' : signersOf (s.heard Cmd.trustLifecycleAdvance rq).lifecycle (arg rq 0 1) = some who := by rw [State.lifecycle_heard, hs]
  have hcond' : (s.heard Cmd.trustLifecycleAdvance rq).lcCondition (s.heard Cmd.trustLifecycleAdvance rq).lifecycle (arg rq 0 1) = true := by
    rw [State.lifecycle_heard, lcCondition_heard, hcond]
  have hwork' : (s.heard Cmd.trustLifecycleAdvance rq).trust.work = none := by rw [State.heard_trust, hwork]
  have hx := exec_accepted (i := .trustLifecycleAdvance rq) (u := (s.heard Cmd.trustLifecycleAdvance rq).advanced rq)
    (data := []) (p := none) (f := none) (v := none) rfl ha hr (by
      dsimp only
      rw [hs']
      dsimp only
      rw [if_neg (by rw [hcond']; decide), if_neg (by rw [← Bool.not_and]; exact fun h => Bool.eq_false_iff.mp ((Bool.not_eq_true' _).mp h) hgood'),
        if_neg (by rw [hwork']; decide)]
      rfl)
  refine ⟨_, hx, ?_, State.fwReply_replied .., ?_, fun k hk => ?_⟩
  · rw [State.fwReply_chan_nonces, State.addJob_chan_nonces, State.advanced_chan, useNonce_heard_nonces]
  · rw [State.fwReply_trust, State.addJob_trust, State.advanced_work]
  · rw [State.fwReply_trust, State.addJob_trust, State.advanced_lc (by rw [State.lifecycle_heard]; exact lt_of_signersOf hs)
      (by rwa [State.lifecycle_heard]), State.heard_trust]

theorem trustLifecycleAdvance_refused (hgood : s.advanceGood rq who = false) :
    ∃ t, exec (.trustLifecycleAdvance rq) s = .next t
      ∧ (t.chan (viaChan rq.via)).nonces = (s.chan (viaChan rq.via)).nonces.filter (fun n => n.bytes != slice 4 32 rq.payload)
      ∧ t.Replied rq .authFail 0 [] ∧ t.trust = s.trust ∧ t.fault = s.fault := by
  have hbad := (advanceGood_heard Cmd.trustLifecycleAdvance rq rq s who).trans hgood
  have hs' : signersOf (s.heard Cmd.trustLifecycleAdvance rq).lifecycle (arg rq 0 1) = some who := by rw [State.lifecycle_heard, hs]
  have hcond' : (s.heard Cmd.trustLifecycleAdvance rq).lcCondition (s.heard Cmd.trustLifecycleAdvance rq).lifecycle (arg rq 0 1) = true := by
    rw [State.lifecycle_heard, lcCondition_heard, hcond]
  have hx := exec_failed_with (i := .trustLifecycleAdvance rq)
    (w := ((s.heard Cmd.trustLifecycleAdvance rq).useNonce rq.via (slice 4 32 rq.payload)).cryptoSpore false (arg rq 0 1) [])
    (data := []) (p := none) (v := none) (nj := false) (rc := .authFail) rfl ha rfl (by
      dsimp only
      rw [hs']
      dsimp only
      rw [if_neg (by rw [hcond']; decide), if_pos (by rw [← Bool.not_and]; exact (Bool.not_eq_true' _).mpr hbad)])
  refine ⟨_, hx, ?_, State.fwReply_replied .., ?_, ?_⟩
  · rw [State.fwReply_chan_nonces, State.chan_of_mbx (State.cryptoSpore_mbx ..), useNonce_heard_nonces]
  · rw [State.fwReply_trust, State.cryptoSpore_trust, useNonce_trust, State.heard_trust]
  · rw [State.fwReply_fault, State.cryptoSpore_fault, useNonce_fault, State.heard_fault]

end

/-! ### The anti-rollback count (R490) -/

theorem nth_upTo {n k : Nat} (h : k < n) (d : Nat) : nth (upTo n) k d = k := by
  simp [nth, upTo, List.getD_eq_getElem?_getD, h]

/-- A count whose fuses are blown from the lowest up without a gap is their number. -/
theorem State.rollbackCount_of_full {s : State} {m : Nat} (hm : m ≤ 64) (h : s.trust.rollback.toNat + 1 = 2 ^ m) : s.rollbackCount = m := by
  have hbit (j : Nat) : s.trust.rollback.getLsbD j = Decidable.decide (j < m) := by
    rw [BitVec.getLsbD, show s.trust.rollback.toNat = 2 ^ m - 1 by omega, Nat.testBit_two_pow_sub_one]
  have hlen : (upTo 64).length = 64 := List.length_range
  refine (length_takeWhile_eq_iff _ (upTo 64) 0 m).mpr ⟨by omega, fun j hj => ?_, fun hlt => ?_⟩
  · rw [nth_upTo (by omega), hbit]
    simpa using hj
  · rw [nth_upTo (by omega), hbit]
    simp

theorem State.rollbackCount_le (s : State) : s.rollbackCount ≤ 64 :=
  (List.takeWhile_sublist _).length_le.trans (Nat.le_of_eq List.length_range)

/-- Fuses blown from the lowest up, over fuses blown from the lowest up. -/
theorem two_pow_sub_one_or (n m : Nat) : (2 ^ n - 1) ||| (2 ^ m - 1) = 2 ^ max n m - 1 := by
  refine Nat.eq_of_testBit_eq fun i => ?_
  rw [Nat.testBit_or, Nat.testBit_two_pow_sub_one, Nat.testBit_two_pow_sub_one, Nat.testBit_two_pow_sub_one, ← Bool.decide_or]
  simp

theorem State.rollback_or {s : State} {m : Nat} (hm : m ≤ 64) (h : s.trust.rollback.toNat + 1 = 2 ^ s.rollbackCount) :
    (s.trust.rollback ||| BitVec.ofNat 64 (2 ^ m - 1)).toNat + 1 = 2 ^ max s.rollbackCount m := by
  have hpow : 2 ^ m ≤ 2 ^ 64 := Nat.pow_le_pow_right (by omega) hm
  have hpos : 0 < 2 ^ m := Nat.two_pow_pos m
  have hmax : 0 < 2 ^ max s.rollbackCount m := Nat.two_pow_pos _
  rw [BitVec.toNat_or, BitVec.toNat_ofNat, Nat.mod_eq_of_lt (by omega), show s.trust.rollback.toNat = 2 ^ s.rollbackCount - 1 by omega,
    two_pow_sub_one_or]
  omega

/-- The fuses below a count blown. -/
def State.rollbackBlown (s : State) (m : Nat) (w : Option FuseWork) : State :=
  { s with trust := { s.trust with rollback := s.trust.rollback ||| BitVec.ofNat 64 (2 ^ m - 1), work := w } }

theorem State.rollbackBlown_count {s : State} {m : Nat} (hm : m ≤ 64) (h : s.trust.rollback.toNat + 1 = 2 ^ s.rollbackCount) (w : Option FuseWork) :
    (s.rollbackBlown m w).rollbackCount = max s.rollbackCount m :=
  rollbackCount_of_full (Nat.max_le.mpr ⟨s.rollbackCount_le, hm⟩) (rollback_or hm h)

theorem State.rollbackCount_of_trust {s t : State} (h : t.trust.rollback = s.trust.rollback) : t.rollbackCount = s.rollbackCount := by
  rw [State.rollbackCount, h]
  rfl

theorem State.rollbackBlown_from {s u : State} {m : Nat} (hu : u.trust = s.trust) (hm : m ≤ 64) (h : s.trust.rollback.toNat + 1 = 2 ^ s.rollbackCount)
    (w : Option FuseWork) :
    (u.rollbackBlown m w).rollbackCount = max s.rollbackCount m ∧ (u.rollbackBlown m w).trust.slots = s.trust.slots
      ∧ (u.rollbackBlown m w).trust.lc = s.trust.lc := by
  have hcount : u.rollbackCount = s.rollbackCount := rollbackCount_of_trust (by rw [hu])
  refine ⟨?_, (congrArg TrustSt.slots hu :), (congrArg TrustSt.lc hu :)⟩
  rw [rollbackBlown_count hm (by rw [hcount, hu]; exact h), hcount]

theorem lowestSvn_heard (row : CmdRow) (rq : Req) (s : State) :
    (s.heard row rq).lowestSvn (s.heard row rq).bootable = s.lowestSvn s.bootable :=
  Deaf.heard (φ := fun u => u.lowestSvn u.bootable) (fun _ _ _ _ _ => rfl) row rq s

theorem trustRollbackAdvance_fails : Fails .trustRollbackAdvance Cmd.trustRollbackAdvance 1 (fun rq s => s.lowestSvn s.bootable < arg rq 0 1) .badState :=
  fails_plain (fun _ _ => rfl) (fun _ _ _ _ _ _ => rfl) rfl fun _ _ _ h => if_pos h

theorem trustRollbackAdvance_accepted {rq : Req} {s : State} (ha : Admitted Cmd.trustRollbackAdvance 1 rq s) (hr : s.jobRoom rq)
    (hsvn : arg rq 0 1 ≤ s.lowestSvn s.bootable) (htop : arg rq 0 1 ≤ 64) (hwork : s.trust.work = none)
    (hfull : s.trust.rollback.toNat + 1 = 2 ^ s.rollbackCount) :
    ∃ t, exec (.trustRollbackAdvance rq) s = .next t ∧ t.Replied rq .accepted (s.chan (viaChan rq.via)).freeHandle []
      ∧ t.trust.work = some (.rollback (arg rq 0 1)) ∧ s.rollbackCount ≤ t.rollbackCount
      ∧ t.rollbackCount ≤ max s.rollbackCount (arg rq 0 1) ∧ t.trust.slots = s.trust.slots ∧ t.trust.lc = s.trust.lc := by
  have hcount : (s.heard Cmd.trustRollbackAdvance rq).rollbackCount = s.rollbackCount := State.rollbackCount_of_trust (by rw [State.heard_trust])
  have hmod := Nat.mod_lt (s.heard Cmd.trustRollbackAdvance rq).draw.1 (show 0 < max 1 (arg rq 0 1 - s.rollbackCount) by omega)
  have hmid : ∃ mid, mid = s.rollbackCount + (s.heard Cmd.trustRollbackAdvance rq).draw.1 % max 1 (arg rq 0 1 - s.rollbackCount)
      ∧ mid ≤ max s.rollbackCount (arg rq 0 1) := ⟨_, rfl, by omega⟩
  obtain ⟨mid, hmid, hle⟩ := hmid
  have hx := exec_accepted (i := .trustRollbackAdvance rq)
    (u := (s.heard Cmd.trustRollbackAdvance rq).draw.2.rollbackBlown mid (some (.rollback (arg rq 0 1))))
    (data := []) (p := none) (f := none) (v := none) rfl ha hr (by
      dsimp only
      rw [lowestSvn_heard, if_neg (by omega), State.heard_trust, hwork, if_neg (by decide), hcount, hmid]
      rfl)
  have htrust : (s.heard Cmd.trustRollbackAdvance rq).draw.2.trust = s.trust := by rw [State.draw_trust, State.heard_trust]
  obtain ⟨hblown, hslots, hlc⟩ := State.rollbackBlown_from htrust (hle.trans (Nat.max_le.mpr ⟨s.rollbackCount_le, htop⟩)) hfull
    (some (.rollback (arg rq 0 1)))
  have hworks : ((s.heard Cmd.trustRollbackAdvance rq).draw.2.rollbackBlown mid (some (.rollback (arg rq 0 1)))).trust.work
      = some (.rollback (arg rq 0 1)) := rfl
  generalize (s.heard Cmd.trustRollbackAdvance rq).draw.2.rollbackBlown mid (some (.rollback (arg rq 0 1))) = u at hx hblown hslots hlc hworks
  have hcount' := State.rollbackCount_of_trust (s := u) (t := (u.addJob rq.via Cmd.trustRollbackAdvance.opcode (s.chan (viaChan rq.via)).freeHandle none).fwReply
    (msgOf rq Cmd.trustRollbackAdvance.opcode) .accepted (s.chan (viaChan rq.via)).freeHandle []) (by rw [State.fwReply_trust, State.addJob_trust])
  refine ⟨_, hx, State.fwReply_replied .., ?_, ?_, ?_, ?_, ?_⟩
  · rw [State.fwReply_trust, State.addJob_trust, hworks]
  · rw [hcount', hblown]
    exact Nat.le_max_left ..
  · rw [hcount', hblown]
    exact Nat.max_le.mpr ⟨Nat.le_max_left .., hle⟩
  · rw [State.fwReply_trust, State.addJob_trust, hslots]
  · rw [State.fwReply_trust, State.addJob_trust, hlc]

/-! ### The end of the work on the fuses -/

theorem Heard.mono {k k' : Nat} {s t : State} {n a : Nat} (h : Heard k s t n a) (hk : k ≤ k') : Heard k' s t n a :=
  fun c hc hm hr => h c hc hm (by omega)

theorem State.setSlot_slot_self {s : State} {k : Nat} (h : k < s.trust.slots.length) (x : SlotSt) : (s.setSlot k x).slot k = x := nth_put_self h ..

theorem State.destroySlot_lc (s : State) (k : Nat) : (s.destroySlot k).trust.lc = s.trust.lc ∧ (s.destroySlot k).trust.work = s.trust.work
    ∧ (s.destroySlot k).time = s.time := by
  unfold State.destroySlot
  split
  · exact ⟨rfl, rfl, rfl⟩
  · dsimp only
    rw [State.raise_trust, State.raise_time]
    exact ⟨rfl, rfl, rfl⟩

/-- The end of the work on a life-cycle advance: every position below the target is blown, and a reset follows in 10 ms (R485). -/
theorem State.finishFuses_lifecycle {s : State} {target : Nat} (hw : s.trust.work = some (.lifecycle target)) (via : Via) (h : Nat) (ok : Bool) :
    (s.finishFuses via h ok).trust.work = none
      ∧ (s.finishFuses via h ok).fault.deferred = some (1, 0x33, s.time.tick + BitVec.ofNat 48 (msTicks 10))
      ∧ (s.finishFuses via h ok).trust.lc = (s.blowLc target).trust.lc := by
  have hfold (u : State) (l : List Nat) := foldl_same (fun (t : State) k => t.destroySlot k) (fun t : State => (t.trust.lc, t.trust.work, t.time))
    (fun t k => by obtain ⟨h1, h2, h3⟩ := t.destroySlot_lc k; simp only [h1, h2, h3]) l u
  unfold State.finishFuses
  rw [hw]
  dsimp only
  generalize hu : ({ s with trust := { s.trust with work := none } } : State) = u
  have hf := hfold (u.blowLc target) (u.doomedSlots target)
  generalize List.foldl (fun (t : State) k => t.destroySlot k) (u.blowLc target) (u.doomedSlots target) = t at hf ⊢
  obtain ⟨hlc, hwork, htime⟩ : t.trust.lc = (u.blowLc target).trust.lc ∧ t.trust.work = (u.blowLc target).trust.work ∧ t.time = (u.blowLc target).time := by
    simpa using hf
  subst hu
  refine ⟨?_, ?_, ?_⟩
  · rw [finishRc_trust]
    exact hwork
  · rw [finishRc_fault, deferReset, htime]
    rfl
  · rw [finishRc_trust]
    exact hlc

theorem State.blowRollback_trust (s : State) (n : Nat) : (s.blowRollback n).trust = if n ≤ s.rollbackCount then s.trust else
    (s.rollbackBlown n s.trust.work).trust := by
  unfold State.blowRollback
  split
  · rfl
  · dsimp only
    rw [raise_trust]
    rfl

section Finish
variable {s : State} {via : Via} {h : Nat} {j : Job} (ha : s.awake = true)
  (hj : ((s.chan (viaChan via)).jobs.find? fun j => j.handle == h && j.result == none) = some j) (hop : 0x1003 ≤ j.opcode ∧ j.opcode ≤ 0x1006)
include ha hj hop

/-- The end of the work is what `State.finishFuses` leaves. -/
theorem longCommandFinish_fuses {ok : Bool} {P : State → Prop} (hP : P (s.begin.finishFuses via h ok)) : Gives (.longCommandFinish via h ok) s P := by
  obtain ⟨t, ht, rfl⟩ := execLongCommandFinish_fuses (ok := ok) ha hj hop
  exact ⟨_, ht, hP⟩

theorem longCommandFinish_install {k c : Nat} (hw : s.trust.work = some (.install k c)) (hk : k ≤ 31) (hc : c ≤ 7) (hlen : s.trust.slots.length = 32) :
    Gives (.longCommandFinish via h true) s fun t => t.trust.work = none ∧ (t.slot k).content = (s.slot k).content
        ∧ (t.slot k).word.toNat = 2 ^ 31 + c * 2 ^ 28 + slotCheck k c (s.slot k).bytes := by
  refine longCommandFinish_fuses ha hj hop ?_
  have hslots := State.finishFuses_slots (s := s.begin) hw via h
  have hslot : (s.begin.finishFuses via h true).slot k
      = ⟨BitVec.ofNat 256 (leNat (s.slot k).bytes), BitVec.ofNat 32 (2 ^ 31 + c % 8 * 2 ^ 28 + slotCheck k c (s.slot k).bytes)⟩ := by
    rw [State.slot, hslots]
    exact nth_put_self (by show k < s.trust.slots.length; omega) _ _
  rw [hslot]
  refine ⟨?_, ?_, ?_⟩
  · unfold State.finishFuses
    rw [show s.begin.trust.work = some (.install k c) from hw]
    dsimp only
    rw [if_pos rfl, State.finishRc_trust, State.writeSlot]
    simp [State.setSlot]
  · have hlt : (s.slot k).content.toNat < 256 ^ 32 := by have := (s.slot k).content.isLt; omega
    rw [SlotSt.bytes, leNat_leBytes, Nat.mod_eq_of_lt hlt]
    simp
  · have hcheck := slotCheck_lt k c (s.slot k).bytes
    rw [BitVec.toNat_ofNat, Nat.mod_eq_of_lt (by omega : c < 8), Nat.mod_eq_of_lt (by omega)]

theorem longCommandFinish_destroy {k c : Nat} {ok : Bool} (hw : s.trust.work = some (.destroy k c)) (hk : k ≤ 31) (hlen : s.trust.slots.length = 32)
    (hdead : s.trust.dead = 0) :
    Gives (.longCommandFinish via h ok) s fun t => t.trust.work = none ∧ t.slot k = ⟨BitVec.allOnes 256, BitVec.allOnes 32⟩
        ∧ Heard 2 s t 177 (k % 32 + 32 * c + 1024) := by
  refine longCommandFinish_fuses ha hj hop ?_
  unfold State.finishFuses
  rw [show s.begin.trust.work = some (.destroy k c) from hw]
  dsimp only
  rw [if_neg (by rw [show s.begin.trust.dead = 0 from hdead]; simp)]
  have hlen' : k < ({ s.begin with trust := { s.begin.trust with work := none } } : State).trust.slots.length := by
    show k < s.trust.slots.length
    omega
  refine ⟨by rw [State.finishRc_trust, State.raise_trust]; rfl, ?_, ?_⟩
  · rw [State.slot, State.finishRc_trust, State.raise_trust]
    exact State.setSlot_slot_self hlen' _
  · refine Heard.holds ?_ (State.finishRc_holds ..)
    refine Heard.mono (k := 1) ?_ (by omega)
    exact heard_raise_mbx (by rfl) (by rfl) (by rfl)

theorem longCommandFinish_lifecycle {target : Nat} {ok : Bool} (hw : s.trust.work = some (.lifecycle target)) :
    Gives (.longCommandFinish via h ok) s fun t => t.trust.work = none
        ∧ t.fault.deferred = some (1, 0x33, s.time.tick + BitVec.ofNat 48 (msTicks 10))
        ∧ t.trust.lc = s.trust.lc.mapIdx fun k x => if s.lifecycle ≤ k ∧ k < target then 7 else x := by
  refine longCommandFinish_fuses ha hj hop ?_
  obtain ⟨hwork, hdef, hlc⟩ := State.finishFuses_lifecycle (s := s.begin) hw via h ok
  refine ⟨hwork, hdef, hlc.trans ?_⟩
  simp only [State.blowLc, Bool.and_eq_true, decide_eq_true_eq]
  rfl

theorem longCommandFinish_rollback {n : Nat} {ok : Bool} (hw : s.trust.work = some (.rollback n)) (hn : n ≤ 64)
    (hfull : s.trust.rollback.toNat + 1 = 2 ^ s.rollbackCount) :
    Gives (.longCommandFinish via h ok) s fun t => t.trust.work = none ∧ t.rollbackCount = max s.rollbackCount n
        ∧ t.trust.slots = s.trust.slots ∧ t.trust.lc = s.trust.lc := by
  refine longCommandFinish_fuses ha hj hop ?_
  obtain ⟨u, hu, hcount, hwork, hslots, hlc⟩ : ∃ u : State, (s.begin.finishFuses via h ok).trust = u.trust ∧ u.rollbackCount = max s.rollbackCount n
      ∧ u.trust.work = none ∧ u.trust.slots = s.trust.slots ∧ u.trust.lc = s.trust.lc := by
    have htrust : (s.begin.finishFuses via h ok).trust
        = (({ s.begin with trust := { s.begin.trust with work := none } } : State).blowRollback n).trust := by
      unfold State.finishFuses
      rw [show s.begin.trust.work = some (.rollback n) from hw]
      dsimp only
      rw [State.finishRc_trust]
    have hcount0 : ({ s.begin with trust := { s.begin.trust with work := none } } : State).rollbackCount = s.rollbackCount :=
      State.rollbackCount_of_trust rfl
    rw [State.blowRollback_trust, hcount0] at htrust
    by_cases hle : n ≤ s.rollbackCount
    · rw [if_pos hle] at htrust
      exact ⟨_, htrust, by rw [hcount0, Nat.max_eq_left hle], rfl, rfl, rfl⟩
    · rw [if_neg hle] at htrust
      refine ⟨_, htrust, ?_, rfl, rfl, rfl⟩
      rw [State.rollbackBlown_count hn (by rw [hcount0]; exact hfull), hcount0]
  rw [State.rollbackCount_of_trust (s := u) (by rw [hu]), hu]
  exact ⟨hwork, hcount, hslots, hlc⟩

end Finish

/-- Settles O47, clause by clause. -/
theorem trustCommands : Obligations.TrustCommands := by
  refine ⟨trustShow_shows, fun rq s ha hk => trustKeyShow_shows ha hk, trustKeyInstall_starts, trustKeyInstall_fails, trustKeyRevoke_fails,
    trustKeyRevoke_starts, fun rq s ha hs => trustLifecycleAdvance_barred ha hs, fun rq s who ha hr hs hc hw => ?_, trustRollbackAdvance_fails,
    fun rq s ha hr hsvn htop hw hfull => trustRollbackAdvance_accepted ha hr hsvn htop hw hfull, fun s via h j ha hj hlo hhi =>
    ⟨fun k c hw hk hc hlen _ => longCommandFinish_install ha hj ⟨hlo, hhi⟩ hw hk hc hlen,
      fun k c ok hw hk hlen hdead => longCommandFinish_destroy ha hj ⟨hlo, hhi⟩ hw hk hlen hdead,
      fun target ok hw => longCommandFinish_lifecycle ha hj ⟨hlo, hhi⟩ hw,
      fun n ok hw hn hfull => longCommandFinish_rollback ha hj ⟨hlo, hhi⟩ hw hn hfull⟩, trustIdShow_shows⟩
  intro nonce digest good
  rcases Bool.eq_false_or_eq_true good with hg | hg
  · obtain ⟨t, hx, hn, hrep, hwork, hlc⟩ := trustLifecycleAdvance_accepted ha hs hc hr hw hg
    exact ⟨t, hx, hn, fun _ => ⟨hrep, hwork, hlc⟩, fun h => absurd (hg.symm.trans h) (by decide)⟩
  · obtain ⟨t, hx, hn, hrep, htrust, hfault⟩ := trustLifecycleAdvance_refused ha hs hc hg
    exact ⟨t, hx, hn, fun h => absurd (hg.symm.trans h) (by decide), fun _ => ⟨hrep, htrust, hfault⟩⟩

end Sys2Proof.Machine

/-! Staging, checking and activating image copies, and the boot directory (Tables 20.6, 20.8, 20.13 and 20.14; R515 to R524). -/
namespace Sys2Proof.Machine

/-! ### Showing and staging -/

/-- What `upd.show` says, with a free value for what there is none of. -/
def State.shownUpd (s : State) (v : Nat) : List Byte :=
  let row := fun (i : Nat) =>
    let c := nth s.upd.running i 0
    leBytes 1 c ++ leBytes 1 (s.activeCopy i) ++ leBytes 1 (s.bootable i).toNat
      ++ leBytes 1 ((nth s.upd.verdicts (2 * engineOf i + (1 - c)) none).getD v) ++ leBytes 4 (imgVersion (s.runningImage i))
      ++ leBytes 1 (imgSvn (s.runningImage i)) ++ zeros 7
  (upTo 5).flatMap row ++ leBytes 4 ((s.upd.flash.dir?.map fun d => d.2.gen).getD v) ++ leBytes 1 (min 255 s.upd.pairs)
    ++ leBytes 2 (imgEpoch 5 (s.runningImage 0))

theorem dirGen_eq (o : Option (Nat × Dir)) (v : Nat) : (match o with | some (_, d) => d.gen | none => v) = (o.map fun d => d.2.gen).getD v := by
  cases o <;> rfl

/-- Nothing of it lies outside the flash, the update state and the fuses. -/
theorem State.shownUpd_of_upd {s u : State} (h : u.upd = s.upd) (v : Nat) : u.shownUpd v = s.shownUpd v := by
  simp only [State.shownUpd, State.activeCopy, State.bootable, State.runningImage, State.image, h]

theorem updShow_shows {rq : Req} {s : State} (ha : Admitted Cmd.updShow 0 rq s) :
    ∃ t v, exec (.updShow rq) s = .next t ∧ t.Replied rq .ok 0 (s.shownUpd v) := by
  have hx := exec_answered (i := .updShow rq) (u := (s.heard Cmd.updShow rq).draw.2)
    (data := (s.heard Cmd.updShow rq).draw.2.shownUpd (s.heard Cmd.updShow rq).draw.1)
    (p := none) (f := none) (v := none) (nj := false) (rc := .ok) rfl ha rfl rfl (by
      unfold State.shownUpd
      dsimp only
      rw [← dirGen_eq]
      rfl)
  rw [State.shownUpd_of_upd ((State.draw_upd _).trans (State.heard_upd Cmd.updShow rq s))] at hx
  exact ⟨_, _, hx, State.fwReply_replied ..⟩

/-- A copy staged: its bytes written, its verdict gone, and where the bytes that follow over USB go (R515). -/
def State.staged (s : State) (e c : Nat) (bytes : List Byte) (next : Option (Nat × Nat)) : State :=
  { s with upd := { s.upd with
    verdicts := put s.upd.verdicts (copyIdx e c) none
    flash := { s.upd.flash with images := put s.upd.flash.images (copyIdx e c) bytes }
    stageIn := next } }

theorem State.staged_heard (row : CmdRow) (rq : Req) (s : State) (e c : Nat) (bytes : List Byte) (next : Option (Nat × Nat)) :
    ((s.heard row rq).staged e c bytes next).still = (s.staged e c bytes next).still :=
  Aside.heard (f := fun u => u.staged e c bytes next) (fun _ _ _ _ _ => rfl) row rq s

theorem updStage_does : Does .updStage Cmd.updStage 8
      (fun rq s => arg rq 0 1 ≤ 3 ∧ arg rq 1 1 ≤ 1 ∧ s.copyBusy (arg rq 0 1) (arg rq 1 1) = false
        ∧ (arg rq 4 4 = 0 ∨ arg rq 4 4 = (s.image (arg rq 0 1) (arg rq 1 1)).length)
        ∧ arg rq 4 4 + rq.payload.length ≤ regionBytes (arg rq 0 1) + 8 ∧ 8 ≤ rq.payload.length ∧ rq.payload.length ≤ 1020)
      (fun rq s =>
        let e := arg rq 0 1
        let c := arg rq 1 1
        let bytes := (if arg rq 4 4 = 0 then [] else s.image e c) ++ rq.payload.drop 8
        { s with upd := { s.upd with
          verdicts := put s.upd.verdicts (2 * e + c) none
          flash := { s.upd.flash with images := put s.upd.flash.images (2 * e + c) bytes }
          stageIn := if rq.via = .usb ∧ rq.payload.length = 8 then some (e, c) else none } }) (fun _ _ => []) := by
  refine does_of _ (fun _ _ => rfl) fun rq s _ ⟨he, hc, hbusy, hoff, hfit, hlo, hhi⟩ h => ?_
  have himg : (s.heard Cmd.updStage rq).image (arg rq 0 1) (arg rq 1 1) = s.image (arg rq 0 1) (arg rq 1 1) := by
    simp only [State.image, State.heard_upd]
  have hbusy' : (s.heard Cmd.updStage rq).copyBusy (arg rq 0 1) (arg rq 1 1) = false := by
    simpa only [State.copyBusy, State.runsCopy, State.activeCopy, State.heard_upd] using hbusy
  have hempty : (rq.via == .usb && (rq.payload.drop 8).isEmpty) = true ↔ rq.via = .usb ∧ rq.payload.length = 8 := by
    simp only [Bool.and_eq_true, beq_iff_eq, List.isEmpty_iff, List.drop_eq_nil_iff]
    exact and_congr_right fun _ => by omega
  have hbytes : (if (arg rq 4 4 == 0) = true then rq.payload.drop 8 else s.image (arg rq 0 1) (arg rq 1 1) ++ rq.payload.drop 8)
      = (if arg rq 4 4 = 0 then [] else s.image (arg rq 0 1) (arg rq 1 1)) ++ rq.payload.drop 8 := by
    by_cases h0 : arg rq 4 4 = 0 <;> simp [h0]
  have hrange : ¬ (Decidable.decide (3 < arg rq 0 1) || Decidable.decide (1 < arg rq 1 1) || false) = true := by
    simp only [Bool.or_false, Bool.or_eq_true, decide_eq_true_eq]
    omega
  have hlen : ¬ ((arg rq 4 4 != 0 && arg rq 4 4 != (s.image (arg rq 0 1) (arg rq 1 1)).length)
      || Decidable.decide (regionBytes (arg rq 0 1) < arg rq 4 4 + (rq.payload.drop 8).length) || Decidable.decide (1012 < (rq.payload.drop 8).length)) = true := by
    simp only [Bool.or_eq_true, Bool.and_eq_true, bne_iff_ne, decide_eq_true_eq, List.length_drop]
    omega
  dsimp only
  rw [himg, hbusy', if_neg hrange, if_neg hlen, hbytes]
  generalize (if arg rq 4 4 = 0 then [] else s.image (arg rq 0 1) (arg rq 1 1)) ++ rq.payload.drop 8 = bytes
  have hstill := State.staged_heard Cmd.updStage rq s (arg rq 0 1) (arg rq 1 1) bytes
  generalize s.heard Cmd.updStage rq = u at hstill ⊢
  by_cases husb : rq.via = .usb ∧ rq.payload.length = 8
  · rw [if_pos (hempty.mpr husb), if_pos husb]
    exact ⟨(u.staged (arg rq 0 1) (arg rq 1 1) bytes (some (arg rq 0 1, arg rq 1 1))).usbReady [2], none, none, rfl,
      (State.still_usbReady ..).trans (hstill _)⟩
  · rw [if_neg (mt hempty.mp husb), if_neg husb]
    exact ⟨u.staged (arg rq 0 1) (arg rq 1 1) bytes none, none, none, rfl, hstill _⟩

theorem updStage_fails : Fails .updStage Cmd.updStage 8 (fun rq s => 3 < arg rq 0 1 ∨ 1 < arg rq 1 1 ∨ s.copyBusy (arg rq 0 1) (arg rq 1 1) = true) .badState :=
  fails_plain (fun _ _ => rfl) (fun _ _ _ _ _ _ => rfl) rfl fun rq s _ h => if_pos (by simpa [or_assoc] using h)

theorem updVerify_starts : Starts .updVerify Cmd.updVerify 2 (fun rq s => arg rq 0 1 ≤ 3 ∧ arg rq 1 1 ≤ 1 ∧ s.upd.verify = none)
      (fun rq s => { s with upd := { s.upd with
        verify := some (rq.via, (s.chan (viaChan rq.via)).freeHandle, arg rq 0 1, arg rq 1 1) } }) (fun _ _ => none) :=
  starts_with_handle (eff := fun rq h s => { s with upd := { s.upd with verify := some (rq.via, h, arg rq 0 1, arg rq 1 1) } })
    (fun _ _ => rfl) (fun _ _ _ _ _ _ => rfl) (fun _ _ _ _ _ _ => rfl) (fun _ _ _ _ _ _ _ => rfl) fun rq s h ⟨he, hc, hv⟩ => by
    dsimp only
    rw [if_neg (by simp only [Bool.or_eq_true, decide_eq_true_eq]; omega), if_neg (by simp [hv])]

/-! ### What the instances show whatever events and replies they have been given -/

/-- What a function of instances reads is the same in two states that differ in the delivery of events and replies. -/
theorem insts_map_of_still {γ : Type} {φ : InstSt → γ} (hφ : ∀ x : InstSt, φ x.hush.calm = φ x) {s u : State} (h : u.still = s.still) :
    u.svc.insts.map φ = s.svc.insts.map φ := by
  have key (w : State) : w.still.svc.insts.map φ = w.svc.insts.map φ := by
    show ((w.svc.insts.map InstSt.hush).map InstSt.calm).map φ = _
    rw [List.map_map, List.map_map]
    exact List.map_congr_left fun x _ => hφ x
  rw [← key u, h, key]

theorem insts_any_of_still {φ : InstSt → Bool} (hφ : ∀ x : InstSt, φ x.hush.calm = φ x) {s u : State} (h : u.still = s.still) :
    u.svc.insts.any φ = s.svc.insts.any φ := by
  have hm := congrArg (fun l : List Bool => l.any id) (insts_map_of_still hφ h)
  simpa [List.any_map] using hm

theorem applied_heard (row : CmdRow) (rq : Req) (s : State) (f : FieldDef) : (s.heard row rq).applied f = s.applied f :=
  Deaf.heard (φ := fun u => u.applied f) (fun _ _ _ _ _ => rfl) row rq s

theorem packagesOk_heard (row : CmdRow) (rq : Req) (s : State) (b : List Byte) : (s.heard row rq).packagesOk b = s.packagesOk b := by
  have hany (k : StoredPkg) : ((s.heard row rq).svc.insts.any fun x => x.id == k.id && (x.persist || x.state != 0))
      = s.svc.insts.any fun x => x.id == k.id && (x.persist || x.state != 0) :=
    insts_any_of_still (fun _ => rfl) (State.still_heard row rq s)
  simp only [State.packagesOk, applied_heard, State.heard_upd, hany]

theorem conflicts_heard (row : CmdRow) (rq : Req) (s : State) (i c : Nat) : (s.heard row rq).conflicts i c = s.conflicts i c := by
  have himg (l : List Nat) : (s.heard row rq).imagesWith l c = s.imagesWith l c := by
    simp only [State.imagesWith, State.runningImage, State.image, State.heard_upd]
  have hcv : (s.heard row rq).cv Fld.UPD_UNTESTED_POLICY = s.cv Fld.UPD_UNTESTED_POLICY :=
    Deaf.heard (φ := fun u => u.cv Fld.UPD_UNTESTED_POLICY) (fun _ _ _ _ _ => rfl) row rq s
  simp only [State.conflicts, State.epochsOk, himg, hcv, packagesOk_heard, State.image, State.heard_upd]

/-! ### Activations asked for -/

/-- The activation that a command has asked for. -/
def State.activating (s : State) (inst copy : Nat) (revert : Bool) (via : Via) (h : Nat) : State :=
  { s with upd := { s.upd with act := some ⟨inst, copy, revert, via, h, 0, 8, s.time.tick⟩ } }

theorem State.beginActivation_begins {s : State} {inst copy : Nat} (hv : nth s.upd.verdicts (2 * engineOf inst + copy) none = some 0)
    (ha : s.upd.act = none) (hc : s.conflicts inst copy = false) (revert : Bool) (via : Via) (h : Nat) :
    s.beginActivation inst copy revert via h = .long (s.activating inst copy revert via h) none := by
  unfold State.beginActivation copyIdx
  rw [hv, if_neg (by decide), ha, if_neg (by decide), hc, if_neg (by decide)]
  rfl

theorem State.activating_heard (row : CmdRow) (rq : Req) (s : State) (i c : Nat) (rev : Bool) (via : Via) (h : Nat) :
    ((s.heard row rq).activating i c rev via h).still = (s.activating i c rev via h).still :=
  Aside.heard (f := fun u => u.activating i c rev via h) (fun _ _ _ _ _ => rfl) row rq s

theorem activeCopy_heard (row : CmdRow) (rq : Req) (s : State) (i : Nat) : (s.heard row rq).activeCopy i = s.activeCopy i := by
  simp only [State.activeCopy, State.heard_upd]

/-- An activation that is asked for as it may be begins (R517). -/
theorem beginActivation_heard {row : CmdRow} {rq : Req} {s : State} {i c : Nat} (hv : nth s.upd.verdicts (2 * engineOf i + c) none = some 0)
    (ha : s.upd.act = none) (hc : s.conflicts i c = false) (rev : Bool) (h : Nat) :
    (s.heard row rq).beginActivation i c rev rq.via h = .long ((s.heard row rq).activating i c rev rq.via h) none :=
  State.beginActivation_begins (by rw [State.heard_upd, hv]) (by rw [State.heard_upd, ha]) ((conflicts_heard ..).trans hc) ..

theorem updActivate_starts : Starts .updActivate Cmd.updActivate 2
      (fun rq s => arg rq 0 1 ≤ 4 ∧ arg rq 1 1 ≤ 1 ∧ nth s.upd.verdicts (2 * engineOf (arg rq 0 1) + arg rq 1 1) none = some 0
        ∧ s.upd.act = none ∧ s.conflicts (arg rq 0 1) (arg rq 1 1) = false)
      (fun rq s => { s with upd := { s.upd with
        act := some ⟨arg rq 0 1, arg rq 1 1, false, rq.via, (s.chan (viaChan rq.via)).freeHandle, 0, 8, s.time.tick⟩ } }) (fun _ _ => none) :=
  starts_of _ (fun _ _ => rfl) fun rq s _ _ ⟨hi, hc, hv, hact, hconf⟩ h hh => ⟨(s.heard Cmd.updActivate rq).activating (arg rq 0 1) (arg rq 1 1) false rq.via h,
    none, none, by
      dsimp only
      rw [if_neg (by simp only [Bool.or_eq_true, decide_eq_true_eq]; omega), beginActivation_heard hv hact hconf]
      rfl, hh ▸ State.activating_heard ..⟩

theorem updRevert_starts : Starts .updRevert Cmd.updRevert 1
      (fun rq s => arg rq 0 1 ≤ 4 ∧ nth s.upd.verdicts (2 * engineOf (arg rq 0 1) + s.activeCopy (arg rq 0 1)) none = some 0
        ∧ s.upd.act = none ∧ s.conflicts (arg rq 0 1) (s.activeCopy (arg rq 0 1)) = false)
      (fun rq s => { s with upd := { s.upd with
        act := some ⟨arg rq 0 1, s.activeCopy (arg rq 0 1), true, rq.via, (s.chan (viaChan rq.via)).freeHandle, 0, 8, s.time.tick⟩ } })
      (fun _ _ => none) :=
  starts_of _ (fun _ _ => rfl) fun rq s _ _ ⟨hi, hv, hact, hconf⟩ h hh =>
    ⟨(s.heard Cmd.updRevert rq).activating (arg rq 0 1) (s.activeCopy (arg rq 0 1)) true rq.via h, none, none, by
      dsimp only
      rw [if_neg (by omega), activeCopy_heard, beginActivation_heard hv hact hconf]
      rfl, hh ▸ State.activating_heard ..⟩

theorem updActivate_busy : Fails .updActivate Cmd.updActivate 2 (fun rq s => arg rq 0 1 ≤ 4 ∧ arg rq 1 1 ≤ 1
      ∧ nth s.upd.verdicts (2 * engineOf (arg rq 0 1) + arg rq 1 1) none = some 0 ∧ s.upd.act ≠ none) .busy :=
  fails_of _ (fun _ _ => rfl) rfl fun rq s _ ⟨hi, hc, hv, hact⟩ h => ⟨s.heard Cmd.updActivate rq, none, none, by
    dsimp only
    unfold State.beginActivation copyIdx
    rw [if_neg (by simp only [Bool.or_eq_true, decide_eq_true_eq]; omega), State.heard_upd, hv, if_neg (by decide),
      if_pos (Option.isSome_iff_ne_none.mpr hact)]
    rfl⟩

/-! ### Committing (R523) -/

theorem updCommit_busy : Fails .updCommit Cmd.updCommit 1 (fun _ s => s.upd.act ≠ none ∨ s.upd.commit ≠ none) .busy :=
  fails_plain (fun _ _ => rfl) (fun _ _ _ _ _ _ => rfl) rfl fun _ _ _ h => if_pos (by
    simpa [Option.isSome_iff_ne_none] using h)

theorem newDir_heard (row : CmdRow) (rq : Req) (s : State) (b : Bool) : (s.heard row rq).newDir b = s.newDir b := by
  simp only [State.newDir, State.activeCopy, State.bootable, State.runsCopy, State.image, State.heard_upd]

/-- The intent of a commit is journalled, and nothing else of the flash is written (Table 20.8, phase 1). -/
theorem State.commitBegin_upd (s : State) (d : Dir) : ∃ n g, (s.commitBegin d).upd
    = { s.upd with flash := s.upd.flash.journalWrite 1 d.gen n g } :=
  ⟨_, _, spore_upd ..⟩

theorem updCommit_starts {rq : Req} {s : State} (ha : Admitted Cmd.updCommit 1 rq s) (hr : s.jobRoom rq) (hact : s.upd.act = none)
    (hc : s.upd.commit = none) :
    ∃ t, exec (.updCommit rq) s = .next t ∧ t.Replied rq .accepted (s.chan (viaChan rq.via)).freeHandle []
      ∧ t.upd.commit = some ⟨rq.via, (s.chan (viaChan rq.via)).freeHandle, (s.newDir (bitAt (arg rq 0 1) 0)).2, (s.newDir (bitAt (arg rq 0 1) 0)).1⟩
      ∧ t.upd.flash.dirs = s.upd.flash.dirs
      ∧ (t.upd.flash.journal.head?).map (fun e => (e.phase, e.gen)) = some (1, (s.newDir (bitAt (arg rq 0 1) 0)).2.gen) := by
  generalize hd : s.newDir (bitAt (arg rq 0 1) 0) = d
  obtain ⟨n, g, hupd⟩ := (s.heard Cmd.updCommit rq).commitBegin_upd d.2
  have hx := exec_accepted (i := .updCommit rq) (u := { (s.heard Cmd.updCommit rq).commitBegin d.2 with
      upd := { ((s.heard Cmd.updCommit rq).commitBegin d.2).upd with commit := some ⟨rq.via, (s.chan (viaChan rq.via)).freeHandle, d.2, d.1⟩ } })
    (data := []) (p := none) (f := none) (v := none) rfl ha hr (by
      dsimp only
      rw [newDir_heard, hd, State.heard_upd, hact, hc, if_neg (by decide)]
      rfl)
  refine ⟨_, hx, State.fwReply_replied .., ?_⟩
  rw [State.fwReply_upd, State.addJob_upd]
  dsimp only
  rw [hupd, State.heard_upd]
  exact ⟨rfl, rfl, rfl⟩

theorem updKeymanPut_writes : Does .updKeymanPut Cmd.updKeymanPut 4
      (fun rq s => 5 ≤ rq.payload.length ∧ rq.payload.length ≤ 1024 ∧ arg rq 2 2 + rq.payload.length ≤ 2053 ∧ arg rq 0 1 ≤ 31
        ∧ s.slotState (arg rq 0 1) ≠ 1)
      (fun rq s =>
        let old := fitBytes 2049 (nth s.upd.flash.keyman (arg rq 0 1) [])
        let new := old.take (arg rq 2 2) ++ rq.payload.drop 4 ++ old.drop (arg rq 2 2 + (rq.payload.length - 4))
        { s with upd := { s.upd with flash := { s.upd.flash with keyman := put s.upd.flash.keyman (arg rq 0 1) new } } }) (fun _ _ => []) := by
  rintro rq s ha ⟨h1, h2, h3, h4, hst⟩
  have hc : ¬ s.keymanClash rq = true := fun h => hst ((s.keymanClash_iff rq).mp h).1
  exact updKeymanPut_does rq s ha ⟨⟨h1, h2, h3, h4⟩, hc⟩

/-! ### The end of a check and of a commit -/

section Finish
variable {s : State} {via : Via} {h : Nat} {j : Job} {ok : Bool} {P : State → Prop} (ha : s.awake = true)
  (hj : ((s.chan (viaChan via)).jobs.find? fun j => j.handle == h && j.result == none) = some j)
include ha hj

theorem longCommandFinish_verify (hop : j.opcode = 0x1103) (hP : P (s.begin.finishVerify via h)) : Gives (.longCommandFinish via h ok) s P := by
  refine gives_of_run (execLongCommandFinish.eq_1 via h ok s) ha ?_
  have hb : (s.begin.chan (viaChan via)).jobs.find? (fun j => j.handle == h && j.result == none) = some j := by rwa [State.begin_chan]
  rw [hb]
  dsimp only
  rw [hop, if_neg (by decide), if_pos (by decide)]
  exact hP

theorem longCommandFinish_commit (hop : j.opcode = 0x1106) (hP : P (s.begin.finishCommit via h ok)) : Gives (.longCommandFinish via h ok) s P := by
  refine gives_of_run (execLongCommandFinish.eq_1 via h ok s) ha ?_
  have hb : (s.begin.chan (viaChan via)).jobs.find? (fun j => j.handle == h && j.result == none) = some j := by rwa [State.begin_chan]
  rw [hb]
  dsimp only
  rw [hop, if_neg (by decide), if_neg (by decide), if_pos (by decide)]
  exact hP

end Finish

theorem State.finishVerify_gives {s : State} {via : Via} {h e c : Nat} (hv : s.upd.verify = some (via, h, e, c)) (he : e ≤ 3) :
    (s.finishVerify via h).upd.verify = none
      ∧ (s.finishVerify via h).upd.verdicts = put s.upd.verdicts (2 * e + c) (some (s.verdict e c).1)
      ∧ Heard 2 s (s.finishVerify via h) 182 (e + 4 * c + 256 * (s.verdict e c).1) := by
  have hme : e % 4 = e := by omega
  unfold State.finishVerify
  rw [hv]
  dsimp only
  rw [if_pos (by simp), hme]
  refine ⟨?_, ?_, ?_⟩
  · rw [finishRc_upd, raise_upd, setVerdict, spore_upd, cryptoSpore_upd]
  · rw [finishRc_upd, raise_upd, setVerdict, spore_upd, cryptoSpore_upd]
    rfl
  · refine Heard.holds ?_ (finishRc_holds ..)
    refine Heard.mono (k := 1) ?_ (by omega)
    refine heard_raise_mbx ?_ ?_ ?_
    · rw [setVerdict, spore_time, cryptoSpore_time]
    · rw [setVerdict, spore_time, cryptoSpore_time]
    · rw [setVerdict, spore_mbx, cryptoSpore_mbx]

theorem State.setFlash_dirs {s : State} {g : FlashSt → FlashSt} (h : ∀ f, (g f).dirs = f.dirs) : (s.setFlash g).upd.flash.dirs = s.upd.flash.dirs := h _

theorem FlashSt.journalErase_dirs (f : FlashSt) : f.journalErase.dirs = f.dirs := by
  unfold FlashSt.journalErase
  split <;> rfl

theorem State.journalNext_upd (s : State) (k : Nat) : (s.journalNext k).upd.flash.dirs = s.upd.flash.dirs ∧ (s.journalNext k).upd.commit = s.upd.commit := by
  refine ⟨setFlash_dirs fun f => ?_, rfl⟩
  split <;> rfl

theorem State.blowRollback_upd (s : State) (n : Nat) : (s.blowRollback n).upd = s.upd := by
  unfold State.blowRollback
  split
  · rfl
  · exact raise_upd ..

/-- At most one event has been entered into each queue, and the masks and the instant are the same. -/
structure State.OneMore (s t : State) : Prop where
  time : t.time = s.time
  mask : ∀ c, (t.chan c).mask = (s.chan c).mask
  queue : ∀ c, (t.chan c).queue.length ≤ (s.chan c).queue.length + 1

theorem State.OneMore.of_mbx {s t : State} (ht : t.time = s.time) (hm : t.mbx = s.mbx) : s.OneMore t :=
  ⟨ht, fun _ => by rw [chan_of_mbx hm], fun _ => by rw [chan_of_mbx hm]; exact Nat.le_succ _⟩

theorem State.OneMore.raise (s : State) (n a : Nat) : s.OneMore (s.raise n a) :=
  ⟨raise_time .., fun _ => raise_chan_mask .., fun _ => raise_length ..⟩

theorem State.OneMore.then_mbx {s t u : State} (h : s.OneMore t) (ht : u.time = t.time) (hm : u.mbx = t.mbx) : s.OneMore u :=
  ⟨ht.trans h.time, fun c => by rw [chan_of_mbx hm, h.mask], fun c => by rw [chan_of_mbx hm]; exact h.queue c⟩

theorem State.OneMore.after_mbx {s t u : State} (h : t.OneMore u) (ht : t.time = s.time) (hm : t.mbx = s.mbx) : s.OneMore u :=
  ⟨h.time.trans ht, fun c => by rw [h.mask, chan_of_mbx hm], fun c => (h.queue c).trans (by rw [chan_of_mbx hm])⟩

/-- The next event raised is heard beside it. -/
theorem State.OneMore.heard {s t : State} (h : s.OneMore t) (n a : Nat) : Heard 2 s (t.raise n a) n a :=
  heard_raise_of (by rw [h.time]) (by rw [h.time]) fun c => ⟨h.mask c, by have := h.queue c; omega⟩

theorem State.OneMore.blowRollback (s : State) (n : Nat) : s.OneMore (s.blowRollback n) := by
  unfold State.blowRollback
  split
  · exact .of_mbx rfl rfl
  · exact (State.OneMore.raise ..).after_mbx rfl rfl

theorem State.commitClose_dirs (s : State) : s.commitClose.upd.flash.dirs = s.upd.flash.dirs ∧ s.commitClose.upd.commit = s.upd.commit := by
  obtain ⟨hd, hc⟩ := s.journalNext_upd 4
  exact ⟨(setFlash_dirs FlashSt.journalErase_dirs).trans hd, hc⟩

/-- Phases 3 and 4 of a commit leave the directory, and tell of the count alone (Table 20.8). -/
theorem State.commitEnd_gives (s : State) (d : Dir) : (s.commitEnd d).upd.flash.dirs = s.upd.flash.dirs ∧ (s.commitEnd d).upd.commit = s.upd.commit
    ∧ s.OneMore (s.commitEnd d) := by
  unfold State.commitEnd
  obtain ⟨u, hu, hupd, hone⟩ : ∃ u, (if s.cv Fld.ROLLBACK_AUTO == 1 then s.blowRollback (s.lowestSvn fun i => nth d.bootable i 0) else s) = u
      ∧ u.upd = s.upd ∧ s.OneMore u := by
    split
    · exact ⟨_, rfl, blowRollback_upd .., .blowRollback ..⟩
    · exact ⟨_, rfl, rfl, .of_mbx rfl rfl⟩
  dsimp only
  rw [hu]
  obtain ⟨hd3, hc3⟩ := u.journalNext_upd 3
  obtain ⟨hd4, hc4⟩ := (u.journalNext 3).commitClose_dirs
  exact ⟨by rw [hd4, hd3, hupd], by rw [hc4, hc3, hupd], hone.then_mbx rfl rfl⟩

theorem State.finishCommit_good {s : State} {via : Via} {h : Nat} {c : Commit} (hc : s.upd.commit = some c) (hv : c.via = via) (hh : c.handle = h) :
    (s.finishCommit via h true).upd.commit = none ∧ (s.finishCommit via h true).upd.flash.dirs = put s.upd.flash.dirs c.copy c.dir
      ∧ Heard 3 s (s.finishCommit via h true) 185 0 := by
  unfold State.finishCommit State.commitFinish
  rw [hc]
  dsimp only
  rw [if_pos (by simp [hv, hh]), if_pos rfl]
  obtain ⟨hd, hn, hone⟩ := ((({ s with upd := { s.upd with commit := none } } : State)).putDir c.copy c.dir).commitEnd_gives c.dir
  refine ⟨by rw [finishRc_upd, raise_upd, hn]; rfl, by rw [finishRc_upd, raise_upd, hd]; rfl, ?_⟩
  exact (((hone.after_mbx rfl rfl).heard 185 0).mono (by omega)).holds (finishRc_holds ..)

theorem State.finishCommit_bad {s : State} {via : Via} {h : Nat} {c : Commit} (hc : s.upd.commit = some c) (hv : c.via = via) (hh : c.handle = h) :
    (s.finishCommit via h false).upd.commit = none ∧ (s.finishCommit via h false).upd.flash.dirs = put s.upd.flash.dirs c.copy .erased
      ∧ (s.finishCommit via h false).trust = s.trust ∧ Heard 2 s (s.finishCommit via h false) 185 Rc.hwFault.code := by
  unfold State.finishCommit State.commitFinish
  rw [hc]
  dsimp only
  rw [if_pos (by simp [hv, hh]), if_neg (by decide)]
  refine ⟨by rw [finishRc_upd, raise_upd]; rfl, by rw [finishRc_upd, raise_upd]; rfl, by rw [finishRc_trust, raise_trust]; rfl, ?_⟩
  refine Heard.holds ?_ (finishRc_holds ..)
  dsimp only
  refine OneMore.heard ?_ _ _
  exact .of_mbx rfl rfl

/-- Settles O49, clause by clause. -/
theorem updateCommands : Obligations.UpdateCommands :=
  ⟨fun _ _ ha => updShow_shows ha, updStage_does, updStage_fails, updVerify_starts, updActivate_starts, updActivate_busy, updRevert_starts,
    fun _ _ ha hr hact hc => updCommit_starts ha hr hact hc, updCommit_busy, updKeymanPut_writes,
    fun _ _ _ _ _ _ ha hj hop hv he _ _ ok => longCommandFinish_verify (ok := ok) ha hj hop (State.finishVerify_gives hv he),
    fun _ _ _ _ _ ha hj hop hc hv hh => ⟨longCommandFinish_commit ha hj hop (State.finishCommit_good hc hv hh),
      longCommandFinish_commit ha hj hop (State.finishCommit_bad hc hv hh)⟩⟩

end Sys2Proof.Machine

/-! Activations, the handover of the management core and the automatic commit (R517 to R519, R521 to R523). -/
namespace Sys2Proof.Machine

/-! ### What leaves the update state and every queued event -/

/-- The update state is the same, and every event that a channel has queued is queued still. -/
structure State.Spares (s t : State) : Prop where
  upd : t.upd = s.upd
  holds : s.Holds t

namespace State.Spares

theorem refl (s : State) : s.Spares s := ⟨rfl, .refl s⟩

theorem trans {s t u : State} (h : s.Spares t) (h' : t.Spares u) : s.Spares u := ⟨h'.upd.trans h.upd, h.holds.trans h'.holds⟩

/-- The last of two operations first. -/
theorem next {s t u : State} (h' : t.Spares u) (h : s.Spares t) : s.Spares u := h.trans h'

theorem of_eq {s t : State} (hu : t.upd = s.upd) (hm : t.mbx = s.mbx) : s.Spares t := ⟨hu, .of_mbx hm⟩

theorem ite {c : Prop} [Decidable c] {s t u : State} (ht : s.Spares t) (hu : s.Spares u) : s.Spares (if c then t else u) := by
  split_ifs <;> assumption

theorem foldl {β : Type} {f : State → β → State} (h : ∀ (a : State) (b : β), a.Spares (f a b)) (l : List β) (a : State) :
    a.Spares (l.foldl f a) := by
  induction l generalizing a with
  | nil => exact refl _
  | cons b l ih => exact (h a b).trans (ih _)

theorem raise (s : State) (n a : Nat) : s.Spares (s.raise n a) := ⟨raise_upd .., .raise ..⟩

theorem raiseIf (s : State) (b : Bool) (n a : Nat) : s.Spares (s.raiseIf b n a) := ite (raise ..) (refl s)

theorem emit (s : State) (e : Emit) : s.Spares (s.emit e) := of_eq rfl rfl

theorem spore (s : State) (k c : Nat) (p : List Byte) : s.Spares (s.spore k c p) := ⟨spore_upd .., .spore ..⟩

theorem finishRc (s : State) (via : Via) (h : Nat) (rc : Rc) : s.Spares (s.finishRc via h rc) := ⟨finishRc_upd .., finishRc_holds ..⟩

end State.Spares

/-! ### The power path and the configuration channels after the service floor is left -/

theorem State.setBay_spares (s : State) (b : Nat) (f : BaySt → BaySt) : s.Spares (s.setBay b f) := .of_eq rfl rfl

theorem State.setChn_spares (s : State) (k : Nat) (f : CcSt → CcSt) : s.Spares (s.setChn k f) := .of_eq rfl rfl

theorem State.drivePerst_spares (s : State) (k : Nat) (on : Bool) : s.Spares (s.drivePerst k on) := .of_eq rfl rfl

theorem State.pgFall_spares (s : State) (b : Nat) : s.Spares (s.pgFall b) := by
  unfold State.pgFall
  refine .ite ?_ (.refl s)
  have h : s.Spares (((s.setBay b fun x => { x with pg := false }).emit (.bayGate b (s.bay b).state.gate false)).raise 163 b) :=
    .next (.raise ..) (.next (.emit ..) (s.setBay_spares ..))
  dsimp only
  split
  · exact h.trans (State.drivePerst_spares ..)
  · exact h

theorem State.bayTo_spares (s : State) (b : Nat) (st : BayState) : s.Spares (s.bayTo b st) := by
  unfold State.bayTo
  exact .next (.emit ..) (.next (State.setBay_spares ..) (.ite (.refl s) (s.pgFall_spares b)))

theorem State.bayTry_spares (s : State) (b : Nat) : s.Spares (s.bayTry b) := by
  unfold State.bayTry State.bayRest
  have hto := s.bayTo_spares b
  exact .ite (.refl s) (.ite (hto .ramp) (.ite (.ite (hto .lockout) (.ite (.ite (hto .ramp) (.refl s)) ((hto .off).trans (.of_eq rfl rfl)))) (.refl s)))

theorem State.feedGone_spares (s : State) (n mv : Nat) : s.Spares (s.feedGone n mv) :=
  .next (.raise ..) (.next (.emit ..) (.of_eq rfl rfl))

theorem State.feedsLapse_spares (s : State) : s.Spares s.feedsLapse := by
  unfold State.feedsLapse
  exact .foldl (fun u n => .ite (u.feedGone_spares ..) (.refl u)) _ s

theorem State.budgetPd_spares (s : State) (k : Nat) : s.Spares (s.budgetPd k) := by
  unfold State.budgetPd
  have h := s.feedsLapse_spares
  generalize s.feedsLapse = u at h
  exact .next (.raiseIf ..) (h.trans (.of_eq rfl rfl))

theorem State.setContract_spares (s : State) (k kind mv ma : Nat) : s.Spares (s.setContract k kind mv ma) := by
  unfold State.setContract
  exact .next (State.budgetPd_spares ..) (.next (.raiseIf ..) (s.setChn_spares ..))

theorem State.leaveRom_spares (s : State) : s.Spares s.leaveRom := by
  unfold State.leaveRom
  refine .ite (.refl s) (.next (.foldl State.bayTry_spares _ _) (.foldl (fun u k => ?_) _ s))
  have h : ∀ rp : Nat, u.Spares ((u.setChn k fun c => { c with rp := rp, rpBase := rp }).showPins k) := fun rp =>
    (u.setChn_spares ..).trans (State.Spares.emit ..)
  exact .ite (.refl u) (.ite ((h _).trans (State.setContract_spares ..)) (h _))

/-! ### Activated, and not -/

theorem State.noteTested_keeps (s : State) : s.noteTested.upd.running = s.upd.running ∧ s.noteTested.upd.act = s.upd.act
    ∧ s.noteTested.upd.flash = s.upd.flash ∧ s.noteTested.upd.mgtHalf = s.upd.mgtHalf ∧ s.noteTested.boot = s.boot ∧ s.Holds s.noteTested := by
  unfold State.noteTested
  dsimp only
  generalize untestedPairs s.runningImages = n
  have h := State.Spares.raiseIf ({ s with upd := { s.upd with untested := n != 0, pairs := n } } : State) ((n != 0) != s.upd.untested) 186
    (256 * b2n (n != 0) + 512 * (n % 128))
  refine ⟨by rw [h.upd], by rw [h.upd], by rw [h.upd], by rw [h.upd], ?_, State.Holds.next h.holds (.of_mbx rfl)⟩
  simp only [State.raiseIf_boot]

/-- What an activation leaves: its copy runs, it has ended, and EV183 tells it. -/
theorem State.activated_gives (s : State) (a : Activation) : (s.activated a).upd.running = put s.upd.running a.inst a.copy
    ∧ (s.activated a).upd.act = none ∧ (s.activated a).upd.flash = s.upd.flash ∧ (s.activated a).upd.mgtHalf = s.upd.mgtHalf
    ∧ (s.activated a).boot = s.boot ∧ Heard 1 s (s.activated a) 183 (a.inst + 8 * a.copy) := by
  unfold State.activated
  dsimp only
  generalize hw : ({ s with upd := _ } : State) = w
  have hh : Heard 1 s ((w.raise 183 (a.inst + 8 * a.copy)).raiseIf a.revert 184 a.inst) 183 (a.inst + 8 * a.copy) :=
    Heard.raiseIf (heard_raise_mbx (by rw [← hw]) (by rw [← hw]) (by rw [← hw])) _ _ _
  have hu : ((w.raise 183 (a.inst + 8 * a.copy)).raiseIf a.revert 184 a.inst).upd = w.upd := by simp
  have hb : ((w.raise 183 (a.inst + 8 * a.copy)).raiseIf a.revert 184 a.inst).boot = s.boot := by simp [← hw]
  generalize (w.raise 183 (a.inst + 8 * a.copy)).raiseIf a.revert 184 a.inst = v at hh hu hb
  obtain ⟨hrun, hact, hflash, hhalf, hboot, hholds⟩ := v.noteTested_keeps
  have hend : v.noteTested.Spares ((v.noteTested.spore 12 0xFD []).finishRc a.via a.handle .ok) := .next (.finishRc ..) (.spore ..)
  refine ⟨?_, ?_, ?_, ?_, ?_, (hh.holds hholds).holds hend.holds⟩
  · rw [hend.upd, hrun, hu, ← hw]
  · rw [hend.upd, hact, hu, ← hw]
  · rw [hend.upd, hflash, hu, ← hw]
  · rw [hend.upd, hhalf, hu, ← hw]
  · simp only [State.finishRc, finish_boot, spore_boot, hboot, hb]

theorem State.notActivated_upd (s : State) (a : Activation) (rc : Rc) : (s.notActivated a rc).upd = { s.upd with act := none } := finishRc_upd ..

theorem State.retryWaiting_upd (s : State) : s.retryWaiting.upd = s.upd := by
  unfold State.retryWaiting
  exact foldl_same _ State.upd (fun u w => u.hwReply_upd ..) _ _

theorem State.mgtHandOver_gives (s : State) (a : Activation) : (s.mgtHandOver a).boot.stage = 3
    ∧ (s.mgtHandOver a).upd.act = some { a with phase := 1, since := s.time.tick } ∧ (s.mgtHandOver a).upd.running = s.upd.running := by
  have ht : s.retryWaiting.time = s.time := foldl_same _ State.time (fun u w => u.hwReply_time ..) _ _
  refine ⟨rfl, ?_, ?_⟩
  · show some { a with phase := 1, since := s.retryWaiting.time.tick } = _
    rw [ht]
  · exact (congrArg UpdSt.running s.retryWaiting_upd :)

/-! ### An activation whose instance is quiet, or is not in time -/

section Quiet
variable {s : State} {a : Activation} {P : State → Prop} (hs : s.awake = true) (ha : s.upd.act = some a)
include hs ha

theorem activationQuiet_busy (hq : s.instQuiet a = false) : Leaves .activationQuiet s s := by
  refine gives_of_run (execActivationQuiet.eq_1 s) hs ?_
  rw [State.begin_upd, ha]
  dsimp only
  have hb : s.begin.instQuiet a = false := hq
  rw [hb, if_pos (by simp)]
  rfl

/-- What a quiet instance does with a copy that passes its checks, by the instance. -/
theorem activationQuiet_run (hp : a.phase = 0) (hq : s.instQuiet a = true)
    (hv : nth s.upd.verdicts (2 * engineOf a.inst + a.copy) none = some 0) (hc : s.conflicts a.inst a.copy = false)
    (h0 : a.inst = 0 → P (s.begin.mgtHandOver a)) (h1 : a.inst ≠ 1)
    (h4 : a.inst = 4 → P (({ s.begin with fault := { s.fault with romMode := false } } : State).activated a).leaveRom)
    (hi : a.inst = 2 ∨ a.inst = 3 →
      P (({ s.begin with fault := { s.fault with phyStopped := put s.fault.phyStopped (a.inst - 2) false } } : State).activated a))
    (h5 : a.inst ≤ 4) : Gives .activationQuiet s P := by
  refine gives_of_run (execActivationQuiet.eq_1 s) hs ?_
  rw [State.begin_upd, ha]
  dsimp only
  have hb : s.begin.instQuiet a = true := hq
  have hcb : s.begin.conflicts a.inst a.copy = false := hc
  rw [hb, if_neg (by simp [hp]), copyIdx, hv, if_neg (by simp), hcb, if_neg (by simp)]
  obtain ⟨inst, copy, revert, via, handle, phase, core, since⟩ := a
  match inst, h0, h1, h4, hi, h5 with
  | 0, h0, _, _, _, _ => exact h0 rfl
  | 1, _, h1, _, _, _ => exact absurd rfl h1
  | 2, _, _, _, hi, _ => exact hi (.inl rfl)
  | 3, _, _, _, hi, _ => exact hi (.inr rfl)
  | 4, _, _, h4, _, _ => exact h4 rfl

theorem activationWaitExpiry_busy (hp : a.phase = 0) (hw : s.passed a.since (msTicks (s.cv Fld.UPD_WAIT_MS)) = true) :
    Gives .activationWaitExpiry s fun t => t.upd = { s.upd with act := none } := by
  refine gives_of_run (execActivationWaitExpiry.eq_1 s) hs ?_
  rw [State.begin_upd, ha]
  dsimp only
  have hb : s.begin.passed a.since (msTicks (s.cv Fld.UPD_WAIT_MS)) = true := hw
  rw [State.cv_begin, hb, if_pos (by simp [hp])]
  exact State.notActivated_upd ..

theorem activationWaitExpiry_early (hw : s.passed a.since (msTicks (s.cv Fld.UPD_WAIT_MS)) = false) : Leaves .activationWaitExpiry s s := by
  refine gives_of_run (execActivationWaitExpiry.eq_1 s) hs ?_
  rw [State.begin_upd, ha]
  dsimp only
  have hb : s.begin.passed a.since (msTicks (s.cv Fld.UPD_WAIT_MS)) = false := hw
  rw [State.cv_begin, hb, if_neg (by simp)]
  rfl

end Quiet

/-! ### The handover of the management core -/

theorem State.handover?_eq_some {u : State} {a : Activation} (hu : u.upd.act = some a) (hi : a.inst = 0) (hp : a.phase = 1) (hb : u.boot.stage = 3) :
    u.handover? = some a := by
  simp [State.handover?, hu, hi, hp, hb]

/-- The new copy of the management firmware has taken over (R519). -/
def State.handedOver (s : State) : State :=
  { s with
    boot := { s.boot with stage := 2, sinceWdt := 0 }
    plan := { s.plan with silent := 0, autonomy := 0 }
    fault := { s.fault with planHold := false }
    upd := { s.upd with mgtHalf := 1 - s.upd.mgtHalf }
    rcd := { s.rcd with snapDue := true } }

/-- The old copy of the management firmware goes on (R519). -/
def State.keptOver (s : State) : State :=
  { s with
    boot := { s.boot with stage := 2, sinceWdt := 0 }
    plan := { s.plan with silent := 0, autonomy := 0 }
    fault := { s.fault with planHold := false }
    upd := { s.upd with cleanSince := s.time.tick } }

theorem State.handoverFails_gives (s : State) (a : Activation) : (s.handoverFails a).boot.stage = 2
    ∧ (s.handoverFails a).upd.running = s.upd.running ∧ (s.handoverFails a).upd.act = none ∧ (s.handoverFails a).upd.mgtHalf = s.upd.mgtHalf := by
  have hx : s.handoverFails a = (((((s.draw.2.noteReset 2 (s.draw.1 % 256)).recTrigger 0).keptOver).raise 187
      (min 255 (tickDiff ((s.draw.2.noteReset 2 (s.draw.1 % 256)).recTrigger 0).time.tick a.since))).notActivated a .hwFault) := rfl
  have hu : ((s.draw.2.noteReset 2 (s.draw.1 % 256)).recTrigger 0).upd = s.upd := recTrigger_upd ..
  generalize (s.draw.2.noteReset 2 (s.draw.1 % 256)).recTrigger 0 = w at hx hu
  have hb : (s.handoverFails a).boot = w.keptOver.boot := by
    rw [hx, State.notActivated, State.finishRc, finish_boot]
    exact raise_boot ..
  refine ⟨by rw [hb]; rfl, ?_, ?_, ?_⟩ <;> rw [hx, State.notActivated_upd, raise_upd]
  · exact (congrArg UpdSt.running hu :)
  · exact (congrArg UpdSt.mgtHalf hu :)

section Handover
variable {s : State} {a : Activation} (hs : s.awake = true) (ha : s.upd.act = some a)
include hs ha

theorem mgtHandoverReady_gives (hi : a.inst = 0) (hp : a.phase = 1) (hb : s.boot.stage = 3)
    (he : imgMinEpoch 3 (s.image 0 a.copy) ≤ imgEpoch 3 (s.runningImage 0)) (ht : tickDiff s.time.tick a.since ≤ s.cv Fld.HANDOVER_LIMIT_TICKS) :
    Gives .mgtHandoverReady s fun t => t.boot.stage = 2 ∧ t.upd.running = put s.upd.running 0 a.copy ∧ t.upd.act = none
      ∧ t.upd.mgtHalf = 1 - s.upd.mgtHalf ∧ Heard 1 s t 183 (8 * a.copy) := by
  refine gives_of_run (execMgtHandoverReady.eq_1 s) hs ?_
  rw [State.handover?_eq_some (u := s.begin) ha hi hp hb]
  dsimp only
  have hno : ¬ (Decidable.decide (imgEpoch 3 (s.begin.runningImage 0) < imgMinEpoch 3 (s.begin.image 0 a.copy))
      || Decidable.decide (s.begin.cv Fld.HANDOVER_LIMIT_TICKS < tickDiff s.begin.time.tick a.since)) = true := by
    rw [State.cv_begin, Bool.or_eq_true, decide_eq_true_eq, decide_eq_true_eq]
    exact fun h => h.elim (Nat.not_lt.mpr he) (Nat.not_lt.mpr ht)
  rw [if_neg hno]
  obtain ⟨hrun, hact, -, hhalf, hboot, hheard⟩ := s.begin.handedOver.activated_gives a
  refine ⟨(congrArg BootSt.stage hboot :), hrun.trans (by rw [hi]; rfl), hact, hhalf, ?_⟩
  have harg : a.inst + 8 * a.copy = 8 * a.copy := by omega
  rwa [harg] at hheard

theorem handoverTimeout_gives (hi : a.inst = 0) (hp : a.phase = 1) (hb : s.boot.stage = 3)
    (hw : s.passed a.since (s.cv Fld.HANDOVER_LIMIT_TICKS) = true) :
    Gives .handoverTimeout s fun t => t.boot.stage = 2 ∧ t.upd.running = s.upd.running ∧ t.upd.act = none ∧ t.upd.mgtHalf = s.upd.mgtHalf := by
  refine gives_of_run (execHandoverTimeout.eq_1 s) hs ?_
  rw [State.handover?_eq_some (u := s.begin) ha hi hp hb]
  dsimp only
  have hwb : s.begin.passed a.since (s.cv Fld.HANDOVER_LIMIT_TICKS) = true := hw
  rw [State.cv_begin, if_pos hwb]
  exact s.begin.handoverFails_gives a

theorem handoverTimeout_early (hw : s.passed a.since (s.cv Fld.HANDOVER_LIMIT_TICKS) = false) : Leaves .handoverTimeout s s := by
  refine gives_of_run (execHandoverTimeout.eq_1 s) hs ?_
  have hwb : s.begin.passed a.since (s.cv Fld.HANDOVER_LIMIT_TICKS) = false := hw
  unfold State.handover?
  rw [State.begin_upd, ha]
  dsimp only
  split
  · next b hh =>
    split_ifs at hh
    cases hh
    rw [State.cv_begin, hwb, if_neg (by decide)]
    rfl
  · rfl

end Handover

/-! ### The commit that the hub makes by itself (R523) -/

theorem State.commitFinish_good {s : State} (d : Dir) (copy : Nat) : (s.commitFinish d copy true).2.upd.flash.dirs = put s.upd.flash.dirs copy d
    ∧ s.OneMore ((s.putDir copy d).commitEnd d) ∧ (s.commitFinish d copy true).2 = ((s.putDir copy d).commitEnd d).raise 185 0 := by
  obtain ⟨hd, -, hone⟩ := (s.putDir copy d).commitEnd_gives d
  have hx : (s.commitFinish d copy true).2 = ((s.putDir copy d).commitEnd d).raise 185 0 := rfl
  exact ⟨by rw [hx, raise_upd, hd]; rfl, hone.after_mbx rfl rfl, hx⟩

theorem autocommit_gives {s : State} (hs : s.awake = true) (hf : s.fwRuns = true) (hz : s.cv Fld.UPD_AUTOCOMMIT_S ≠ 0) (hact : s.upd.act = none)
    (hc : s.upd.commit = none) (ht : s.cv Fld.UPD_AUTOCOMMIT_S * 32000 ≤ tickDiff s.time.tick s.upd.cleanSince)
    (hd : ∃ i < 5, nth s.upd.stopped i false = false ∧ nth s.upd.running i 0 ≠ s.activeCopy i) :
    Gives .autocommit s fun t => t.upd.flash.dirs = put s.upd.flash.dirs (s.newDir false).1 (s.newDir false).2 ∧ Heard 2 s t 185 0 := by
  refine gives_of_run (execAutocommit.eq_1 s) hs ?_
  obtain ⟨i, hi, hst, hrun⟩ := hd
  have hdiff : ((upTo 5).any fun i => !nth s.begin.upd.stopped i false && nth s.begin.upd.running i 0 != s.begin.activeCopy i) = true := by
    rw [List.any_eq_true]
    refine ⟨i, by simpa [upTo] using hi, ?_⟩
    have hab : s.begin.activeCopy i = s.activeCopy i := rfl
    rw [State.begin_upd, hst, hab]
    simpa using hrun
  have hfb : s.begin.fwRuns = true := hf
  dsimp only
  rw [hdiff, hfb, State.cv_begin, State.begin_upd, State.begin_time, hact, hc, if_pos (by simp [hz, ht])]
  generalize hn : s.newDir false = n
  have hnb : s.begin.newDir false = n := hn
  rw [hnb]
  obtain ⟨num, g, hupd⟩ := s.begin.commitBegin_upd n.2
  have hmbx : (s.begin.commitBegin n.2).mbx = s.mbx := State.spore_mbx ..
  have htime : (s.begin.commitBegin n.2).time = s.time := State.spore_time ..
  obtain ⟨hdirs, hone, hx⟩ := (s.begin.commitBegin n.2).commitFinish_good n.2 n.1
  refine ⟨?_, ?_⟩
  · rw [hdirs, hupd]
    rfl
  · rw [hx]
    refine State.OneMore.heard ?_ _ _
    exact hone.after_mbx htime hmbx

theorem autocommit_none {s : State} (hs : s.awake = true) (hd : ∀ i < 5, nth s.upd.running i 0 = s.activeCopy i) : Leaves .autocommit s s := by
  refine gives_of_run (execAutocommit.eq_1 s) hs ?_
  have hdiff : ((upTo 5).any fun i => !nth s.begin.upd.stopped i false && nth s.begin.upd.running i 0 != s.begin.activeCopy i) = false := by
    rw [List.any_eq_false]
    intro i hi
    have hab : s.begin.activeCopy i = s.activeCopy i := rfl
    rw [State.begin_upd, hab, hd i (by simpa [upTo] using hi)]
    simp
  dsimp only
  rw [hdiff, if_neg (by simp)]
  rfl

theorem activationQuiet_copy {s : State} {a : Activation} (hs : s.awake = true) (ha : s.upd.act = some a) (h2 : 2 ≤ a.inst) (h4 : a.inst ≤ 4)
    (hp : a.phase = 0) (hq : s.instQuiet a = true) (hv : nth s.upd.verdicts (2 * engineOf a.inst + a.copy) none = some 0)
    (hc : s.conflicts a.inst a.copy = false) :
    Gives .activationQuiet s fun t => t.upd.running = put s.upd.running a.inst a.copy ∧ t.upd.act = none
      ∧ t.upd.flash = s.upd.flash ∧ Heard 1 s t 183 (a.inst + 8 * a.copy) := by
  refine activationQuiet_run hs ha hp hq hv hc (fun h => by omega) (by omega) (fun _ => ?_) (fun _ => ?_) h4
  · obtain ⟨hrun, hact, hflash, -, -, hheard⟩ := ({ s.begin with fault := { s.fault with romMode := false } } : State).activated_gives a
    have hleave := (({ s.begin with fault := { s.fault with romMode := false } } : State).activated a).leaveRom_spares
    rw [hleave.upd]
    exact ⟨hrun, hact, hflash, hheard.holds hleave.holds⟩
  · obtain ⟨hrun, hact, hflash, -, -, hheard⟩ :=
      ({ s.begin with fault := { s.fault with phyStopped := put s.fault.phyStopped (a.inst - 2) false } } : State).activated_gives a
    exact ⟨hrun, hact, hflash, hheard⟩

/-- Settles O50, clause by clause. -/
theorem activations : Obligations.Activations := fun s hs =>
  ⟨fun _ ha h2 h4 hp hq hv hc => activationQuiet_copy hs ha h2 h4 hp hq hv hc,
    fun a ha hi hp hq hv hc => activationQuiet_run hs ha hp hq (by rw [hi]; simpa [engineOf] using hv) (by rw [hi]; exact hc)
      (fun _ => s.begin.mgtHandOver_gives a) (by omega) (fun h => by omega) (fun h => by omega) (by omega),
    fun _ ha hq => activationQuiet_busy hs ha hq, fun _ ha hp hw => activationWaitExpiry_busy hs ha hp hw,
    fun _ ha hw => activationWaitExpiry_early hs ha hw,
    fun _ ha hi hp hb he ht => mgtHandoverReady_gives hs ha hi hp hb he ht, fun _ ha hi hp hb hw => handoverTimeout_gives hs ha hi hp hb hw,
    fun _ ha hw => handoverTimeout_early hs ha hw,
    fun hf hz hact hc ht hd => autocommit_gives hs hf hz hact hc ht hd, autocommit_none hs⟩

end Sys2Proof.Machine

/-! The recorder: snapshots, ring, freezing, reading and replay (Tables 20.9, 20.13 and 20.14; R526 to R531). -/
namespace Sys2Proof.Machine

/-! ### What recording does to the recorder -/

/-- Inputs and events have been recorded, and may have triggered a freeze: the mode goes on or from RECORDING to POST_TRIGGER, a frozen ring is as it was, and
with room in LPDDR nothing waits in the buffer. -/
structure State.Recorded (s t : State) : Prop where
  mem : t.mem = s.mem
  hush : t.rcd.hush = s.rcd.hush
  mode : t.rcd.mode = s.rcd.mode ∨ (s.rcd.mode = 1 ∧ t.rcd.mode = 2)
  ring : s.rcd.mode = 3 → t.rcd.ring = s.rcd.ring
  flow : s.rcd.mode = 1 ∨ s.rcd.mode = 2 → s.mem.lpddr = .active → s.rcd.buffer = [] → t.rcd.buffer = [] ∧ t.rcd.dropped = s.rcd.dropped

namespace State.Recorded

theorem of_eq {s t : State} (hm : t.mem = s.mem) (h : t.rcd = s.rcd) : s.Recorded t :=
  ⟨hm, by rw [h], .inl (by rw [h]), fun _ => by rw [h], fun _ _ hb => by rw [h]; exact ⟨hb, rfl⟩⟩

theorem refl (s : State) : s.Recorded s := of_eq rfl rfl

theorem frozen {s t : State} (h : s.Recorded t) (h3 : s.rcd.mode = 3) : t.rcd.mode = 3 := by
  rcases h.mode with hm | ⟨h1, -⟩ <;> omega

theorem thawed {s t : State} (h : s.Recorded t) (h3 : s.rcd.mode ≠ 3) : t.rcd.mode ≠ 3 := by
  rcases h.mode with hm | ⟨-, hm⟩ <;> omega

theorem live {s t : State} (h : s.Recorded t) (hl : s.rcd.mode = 1 ∨ s.rcd.mode = 2) : t.rcd.mode = 1 ∨ t.rcd.mode = 2 := by
  rcases h.mode with hm | ⟨-, hm⟩ <;> omega

theorem trans {s t u : State} (h : s.Recorded t) (h' : t.Recorded u) : s.Recorded u where
  mem := h'.mem.trans h.mem
  hush := h'.hush.trans h.hush
  mode := by rcases h.mode with hm | ⟨h1, hm⟩ <;> rcases h'.mode with hm' | ⟨h1', hm'⟩ <;> omega
  ring h3 := (h'.ring (h.frozen h3)).trans (h.ring h3)
  flow hl ha hb := by
    obtain ⟨hb', hd⟩ := h.flow hl ha hb
    obtain ⟨hb'', hd'⟩ := h'.flow (h.live hl) (by rw [h.mem, ha]) hb'
    exact ⟨hb'', hd'.trans hd⟩

/-- A spore goes nowhere, or into the ring or the buffer with the next number, or is counted as lost (R525). -/
theorem spore1_eq (s : State) (k c f : Nat) (p : List Byte) : s.spore1 k c f p = s
    ∨ (∃ n l, s.spore1 k c f p = { s with rcd := { s.rcd with nextSeq := n, ring := l } })
    ∨ (∃ n l, s.spore1 k c f p = { s with rcd := { s.rcd with nextSeq := n, buffer := l } })
    ∨ ∃ n, s.spore1 k c f p = { s with rcd := { s.rcd with dropped := n } } := by
  unfold State.spore1
  dsimp only
  split_ifs
  · exact .inl rfl
  · exact .inr (.inl ⟨_, _, rfl⟩)
  · exact .inr (.inr (.inl ⟨_, _, rfl⟩))
  · exact .inr (.inr (.inr ⟨_, rfl⟩))

theorem spore1_mode (s : State) (k c f : Nat) (p : List Byte) : (s.spore1 k c f p).rcd.mode = s.rcd.mode := by
  rcases spore1_eq s k c f p with h | ⟨n, l, h⟩ | ⟨n, l, h⟩ | ⟨n, h⟩ <;> rw [h]

theorem spore1_trigger (s : State) (k c f : Nat) (p : List Byte) : (s.spore1 k c f p).rcd.trigger = s.rcd.trigger := by
  rcases spore1_eq s k c f p with h | ⟨n, l, h⟩ | ⟨n, l, h⟩ | ⟨n, h⟩ <;> rw [h]

theorem spore1_hush (s : State) (k c f : Nat) (p : List Byte) : (s.spore1 k c f p).rcd.hush = s.rcd.hush := by
  rw [← State.rcd_hush, State.hush_spore1, State.rcd_hush]

theorem spore1_frozen {s : State} (k c f : Nat) (p : List Byte) (h3 : s.rcd.mode = 3) : s.spore1 k c f p = s := by
  unfold State.spore1
  rw [if_pos (by simp [h3])]

theorem spore1_flow {s : State} (k c f : Nat) (p : List Byte) (hl : s.rcd.mode = 1 ∨ s.rcd.mode = 2) (ha : s.mem.lpddr = .active)
    (hb : s.rcd.buffer = []) : (s.spore1 k c f p).rcd.buffer = [] ∧ (s.spore1 k c f p).rcd.dropped = s.rcd.dropped := by
  have hon : ¬ (s.rcd.mode == 0 || s.rcd.mode == 3) = true := by rcases hl with h | h <;> simp [h]
  obtain ⟨n, l, h⟩ : ∃ n l, s.spore1 k c f p = { s with rcd := { s.rcd with nextSeq := n, ring := l } } := by
    unfold State.spore1
    rw [if_neg hon]
    dsimp only
    rw [if_pos (by rw [ha, hb]; rfl)]
    exact ⟨_, _, rfl⟩
  rw [h]
  exact ⟨hb, rfl⟩

theorem spore1 (s : State) (k c f : Nat) (p : List Byte) : s.Recorded (s.spore1 k c f p) :=
  ⟨spore1_mem .., spore1_hush .., .inl (spore1_mode ..), fun h3 => by rw [spore1_frozen k c f p h3], spore1_flow k c f p⟩

theorem foldl {β : Type} {f : State → β → State} (h : ∀ (a : State) (b : β), a.Recorded (f a b)) (l : List β) (a : State) :
    a.Recorded (l.foldl f a) := by
  induction l generalizing a with
  | nil => exact refl _
  | cons b l ih => exact (h a b).trans (ih _)

theorem spore (s : State) (k c : Nat) (p : List Byte) : s.Recorded (s.spore k c p) := foldl (fun _ _ => spore1 ..) _ _

theorem recTrigger (s : State) (c : Nat) : s.Recorded (s.recTrigger c) := by
  refine ⟨recTrigger_mem .., recTrigger_rcd_hush .., ?_, fun _ => recTrigger_ring .., fun _ _ hb => ?_⟩
  · unfold State.recTrigger
    by_cases h1 : s.rcd.mode = 1
    · simp [h1]
    · split_ifs <;> simp_all
  · unfold State.recTrigger
    split_ifs <;> exact ⟨hb, rfl⟩

theorem raise (s : State) (n a : Nat) : s.Recorded (s.raise n a) := by
  rw [raise_eq]
  have h : s.Recorded ((s.delivered n a).spore 2 0 (eventBytes (s.event n a))) :=
    State.Recorded.trans (t := s.delivered n a) (of_eq rfl rfl) (spore ..)
  dsimp only
  split_ifs
  · exact h.trans (recTrigger ..)
  · exact h

theorem raiseIf (s : State) (b : Bool) (n a : Nat) : s.Recorded (s.raiseIf b n a) := by
  unfold State.raiseIf
  split_ifs
  · exact raise ..
  · exact refl s

theorem heard (row : CmdRow) (rq : Req) (s : State) : s.Recorded (s.heard row rq) := by
  have hm : ∀ m : MbxSt, s.Recorded { s.begin with mbx := m } := fun _ => of_eq rfl rfl
  unfold State.heard State.countLocal
  refine .trans ?_ (spore ..)
  dsimp only
  split_ifs
  · exact (hm _).trans (raise ..)
  · exact hm _
  · exact hm _

end State.Recorded

/-- What the recorder keeps besides what recording writes is the same after it. -/
theorem State.Recorded.kept {γ : Type} {s t : State} (h : s.Recorded t) {φ : RecSt → γ} (hφ : ∀ r : RecSt, φ r.hush = φ r) : φ t.rcd = φ s.rcd := by
  rw [← hφ, h.hush, hφ]

/-! ### Snapshots and the buffer -/

theorem checkpoint_takes {s : State} (hs : s.awake = true) (hm : s.rcd.mode = 1 ∨ s.rcd.mode = 2) (hl : s.mem.lpddr = .active)
    (hn : s.snapNow = true) :
    Gives .checkpoint s fun t => t.rcd.nextSnap = (s.rcd.nextSnap % 8 + 1) % 8
        ∧ t.rcd.snapDue = false ∧ t.rcd.nextCp = some (s.time.tick + BitVec.ofNat 48 (msTicks (s.cv Fld.CHECKPOINT_MS)))
        ∧ t.rcd.snaps = put s.rcd.snaps (s.rcd.nextSnap % 8) (some ⟨s.time.tick, s.rcd.nextSeq,
          s.mem.cells.filter fun c => c.1 < 0x100000 || (plannerBase ≤ c.1 && c.1 < plannerBase + 0x18000)⟩) := by
  refine gives_of_run (execCheckpoint.eq_1 s) hs ?_
  have hnb : s.begin.snapNow = true := hn
  have hno : ¬ (!(s.begin.rcd.mode == 1 || s.begin.rcd.mode == 2) || s.begin.mem.lpddr != .active || !s.begin.snapNow) = true := by
    rw [hnb, State.begin_rcd, State.begin_mem, hl]
    rcases hm with h | h <;> simp [h]
  rw [if_neg hno]
  exact ⟨(State.Recorded.spore ..).kept (φ := RecSt.nextSnap) (fun _ => rfl), (State.Recorded.spore ..).kept (φ := RecSt.snapDue) (fun _ => rfl),
    (State.Recorded.spore ..).kept (φ := RecSt.nextCp) (fun _ => rfl), (State.Recorded.spore ..).kept (φ := RecSt.snaps) (fun _ => rfl)⟩

theorem checkpoint_idle {s : State} (hs : s.awake = true)
    (h : (!(s.rcd.mode == 1 || s.rcd.mode == 2) || s.mem.lpddr != .active || !s.snapNow) = true) : Leaves .checkpoint s s := by
  refine gives_of_run (execCheckpoint.eq_1 s) hs ?_
  have hb : (!(s.begin.rcd.mode == 1 || s.begin.rcd.mode == 2) || s.begin.mem.lpddr != .active || !s.begin.snapNow) = true := h
  rw [if_pos hb]
  rfl

theorem sporeBufferRoom_idle {s : State} (hs : s.awake = true) (h : (!(s.rcd.mode == 1 || s.rcd.mode == 2) || s.mem.lpddr != .active) = true) :
    Gives .sporeBufferRoom s fun t => t.rcd = s.rcd := by
  refine gives_of_run (execSporeBufferRoom.eq_1 s) hs ?_
  have hb : (!(s.begin.rcd.mode == 1 || s.begin.rcd.mode == 2) || s.begin.mem.lpddr != .active) = true := h
  rw [if_pos hb]
  rfl

/-- The buffer has gone into the ring. -/
def State.drained (s : State) (cap : Nat) : State :=
  { s with rcd := { s.rcd with ring := (s.rcd.buffer.reverse ++ s.rcd.ring).take cap, buffer := [] } }

/-- A gap in the spores is recorded, and told unless one has been told in this second (R527). -/
def State.gapped (s : State) (n : Nat) : State :=
  let due := match s.rcd.gapTick with
    | some t => Decidable.decide (32 ≤ tickDiff s.time.tick t)
    | none => true
  let s : State := { s with rcd := { s.rcd with
    dropped := 0, gaps := satAdd 32 s.rcd.gaps 1, gapTick := if due then some s.time.tick else s.rcd.gapTick } }
  s.raiseIf due 189 (65536 * min 65535 n)

/-- No spore is lost any more, and the gaps counted and told. -/
def State.gapNoted (s : State) (g : Nat) (tick : Option Tick) : State :=
  { s with rcd := { s.rcd with dropped := 0, gaps := g, gapTick := tick } }

theorem State.gapped_first {s : State} (h : s.rcd.gapTick = none) (n : Nat) :
    s.gapped n = (s.gapNoted (satAdd 32 s.rcd.gaps 1) (some s.time.tick)).raise 189 (65536 * min 65535 n) := by
  unfold State.gapped
  rw [h]
  rfl

@[simp] theorem State.gapNoted_time (s : State) (g : Nat) (tick : Option Tick) : (s.gapNoted g tick).time = s.time := rfl

@[simp] theorem State.gapNoted_mbx (s : State) (g : Nat) (tick : Option Tick) : (s.gapNoted g tick).mbx = s.mbx := rfl

theorem State.gapNoted_raise {s : State} (hm : s.rcd.mode = 1 ∨ s.rcd.mode = 2) (hl : s.mem.lpddr = .active) (hb : s.rcd.buffer = [])
    (g : Nat) (tick : Option Tick) (n a : Nat) :
    ((s.gapNoted g tick).raise n a).rcd.dropped = 0 ∧ ((s.gapNoted g tick).raise n a).rcd.gaps = g
      ∧ ((s.gapNoted g tick).raise n a).rcd.gapTick = tick := by
  have h := State.Recorded.raise (s.gapNoted g tick) n a
  exact ⟨(h.flow hm hl hb).2, h.kept (φ := RecSt.gaps) (fun _ => rfl), h.kept (φ := RecSt.gapTick) (fun _ => rfl)⟩

section Room
variable {s : State} (hs : s.awake = true) (hm : s.rcd.mode = 1 ∨ s.rcd.mode = 2) (hl : s.mem.lpddr = .active)
include hm hl

theorem recording_here : ¬ (!(s.begin.rcd.mode == 1 || s.begin.rcd.mode == 2) || s.begin.mem.lpddr != .active) = true := by
  rw [State.begin_rcd, State.begin_mem, hl]
  rcases hm with h | h <;> simp [h]

theorem State.gapped_gives {cap : Nat} {w : State} (hrec : (s.begin.drained cap).Recorded w) (htime : w.time = s.time) (hmbx : w.mbx = s.mbx)
    (hg : s.rcd.gapTick = none) : (w.gapped s.rcd.dropped).rcd.dropped = 0 ∧ (w.gapped s.rcd.dropped).rcd.gaps = satAdd 32 s.rcd.gaps 1
        ∧ (w.gapped s.rcd.dropped).rcd.gapTick = some s.time.tick ∧ Heard 1 s (w.gapped s.rcd.dropped) 189 (65536 * min 65535 s.rcd.dropped) := by
  have hgap : w.rcd.gapTick = none := (hrec.kept (φ := RecSt.gapTick) (fun _ => rfl)).trans hg
  have hgaps : w.rcd.gaps = s.rcd.gaps := hrec.kept (φ := RecSt.gaps) (fun _ => rfl)
  obtain ⟨hbuf, -⟩ := hrec.flow hm hl rfl
  have hact : w.mem.lpddr = .active := by rw [hrec.mem]; exact hl
  obtain ⟨h1, h2, h3⟩ := State.gapNoted_raise (hrec.live hm) hact hbuf (satAdd 32 w.rcd.gaps 1) (some w.time.tick) 189 (65536 * min 65535 s.rcd.dropped)
  rw [State.gapped_first hgap]
  exact ⟨h1, by rw [h2, hgaps], by rw [h3, htime], heard_raise_mbx (by rw [State.gapNoted_time, htime]) (by rw [State.gapNoted_time, htime]) (by rw [State.gapNoted_mbx, hmbx])⟩

include hs

theorem sporeBufferRoom_drains (hd : s.rcd.dropped = 0) : Gives .sporeBufferRoom s fun t =>
    t = { s.begin with rcd := { s.rcd with ring := (s.rcd.buffer.reverse ++ s.rcd.ring).take (ringCap s), buffer := [] } } := by
  refine gives_of_run (execSporeBufferRoom.eq_1 s) hs ?_
  rw [if_neg (recording_here hm hl)]
  dsimp only
  rw [State.begin_rcd, hd, if_pos (by decide)]
  rfl

theorem sporeBufferRoom_gap (hd : s.rcd.dropped ≠ 0) (hg : s.rcd.gapTick = none) : Gives .sporeBufferRoom s fun t => t.rcd.dropped = 0
    ∧ t.rcd.gaps = satAdd 32 s.rcd.gaps 1 ∧ t.rcd.gapTick = some s.time.tick ∧ Heard 1 s t 189 (65536 * min 65535 s.rcd.dropped) := by
  refine gives_of_run (execSporeBufferRoom.eq_1 s) hs ?_
  rw [if_neg (recording_here hm hl)]
  dsimp only
  have hz : ¬ (s.begin.rcd.dropped == 0) = true := by rw [State.begin_rcd]; simpa using hd
  rw [if_neg hz]
  exact State.gapped_gives (cap := ringCap s.begin) hm hl (.spore ..) (State.spore_time ..) (State.spore_mbx ..) hg

end Room

/-! ### Freezing and replay, in time -/

/-- The recorder goes on in another mode. -/
def State.recMode (s : State) (m : Nat) : State := { s with rcd := { s.rcd with mode := m } }

theorem State.recMode_mode (s : State) (m : Nat) : (s.recMode m).rcd.mode = m := rfl

theorem recPostTriggerExpiry_freezes {s : State} (hs : s.awake = true) (hm : s.rcd.mode = 2)
    (hp : s.passed s.rcd.trigAt (s.cv Fld.REC_POST_TICKS) = true) :
    Gives .recPostTriggerExpiry s fun t => t.rcd.mode = 3 ∧ Heard 1 s t 188 s.rcd.trigger := by
  refine gives_of_run (execRecPostTriggerExpiry.eq_1 s) hs ?_
  have hpb : s.begin.passed s.begin.rcd.trigAt (s.begin.cv Fld.REC_POST_TICKS) = true := by rw [State.cv_begin]; exact hp
  rw [hpb, State.begin_rcd, hm, if_neg (by decide)]
  have htrig : (s.begin.spore 12 s.rcd.trigger []).rcd.trigger = s.rcd.trigger :=
    foldl_same _ (fun u : State => u.rcd.trigger) (fun u x => State.Recorded.spore1_trigger ..) _ _
  suffices h : ∀ w : State, w.rcd.trigger = s.rcd.trigger → w.time = s.time → w.mbx = s.mbx →
      ((w.recMode 3).raise 188 w.rcd.trigger).rcd.mode = 3 ∧ Heard 1 s ((w.recMode 3).raise 188 w.rcd.trigger) 188 s.rcd.trigger from
    h _ htrig (State.spore_time ..) (State.spore_mbx ..)
  intro w hw htime hmbx
  rw [hw]
  exact ⟨(State.Recorded.raise (w.recMode 3) 188 s.rcd.trigger).frozen (w.recMode_mode 3),
    heard_raise_mbx (by rw [← htime]; rfl) (by rw [← htime]; rfl) hmbx⟩

theorem recPostTriggerExpiry_early {s : State} (hs : s.awake = true)
    (h : s.rcd.mode ≠ 2 ∨ s.passed s.rcd.trigAt (s.cv Fld.REC_POST_TICKS) = false) :
    Gives .recPostTriggerExpiry s fun t => t.rcd = s.rcd ∧ t.hush = s.hush := by
  refine gives_of_run (execRecPostTriggerExpiry.eq_1 s) hs ?_
  have hb : (s.begin.rcd.mode != 2 || !s.begin.passed s.begin.rcd.trigAt (s.begin.cv Fld.REC_POST_TICKS)) = true := by
    rw [State.cv_begin, Bool.or_eq_true, bne_iff_ne, Bool.not_eq_true']
    exact h
  rw [if_pos hb]
  exact ⟨rfl, rfl⟩

/-- The run of a replay has ended, and its instance is gone (R531). -/
def State.replayed (s : State) : State :=
  { s.draw.2 with
    rcd := { s.rcd with replay := none }
    svc := { s.svc with insts := s.svc.insts.filter fun x => x.id != replayId } }

theorem State.replayed_finish (s : State) (diverged : Bool) (slot : Nat) (via : Via) (h : Nat) (data : List Byte) :
    (((s.replayed.raise 190 (b2n diverged)).raiseIf diverged 191 (slot % 256)).finishRc via h .ok data).rcd.replay = none
      ∧ Heard 1 s (((s.replayed.raise 190 (b2n diverged)).raiseIf diverged 191 (slot % 256)).finishRc via h .ok data) 190 (b2n diverged)
      ∧ (diverged = true → Heard 2 s (((s.replayed.raise 190 (b2n diverged)).raiseIf diverged 191 (slot % 256)).finishRc via h .ok data) 191 (slot % 256)) := by
  have hfirst : Heard 1 s (s.replayed.raise 190 (b2n diverged)) 190 (b2n diverged) := heard_raise_mbx (by rfl) (by rfl) (by rfl)
  refine ⟨?_, (hfirst.raiseIf diverged 191 (slot % 256)).holds (finishRc_holds ..), fun hd => ?_⟩
  · have hmod : ∀ (u : State) (c : Chan) f, (u.modChan c f).rcd = u.rcd := fun u c f => by cases c <;> rfl
    have hrcd : ((((s.replayed.raise 190 (b2n diverged)).raiseIf diverged 191 (slot % 256)).finishRc via h .ok data).rcd).hush = s.replayed.rcd.hush := by
      have hstill : ∀ u : State, (u.finishRc via h .ok data).rcd.hush = u.rcd.hush := fun u => by
        unfold State.finishRc State.finish
        dsimp only
        split
        · rfl
        · unfold State.raiseOn
          rw [State.spore_rcd_hush, hmod, hmod]
      rw [hstill, State.raiseIf_rcd_hush, State.raise_rcd_hush]
    exact (congrArg RecSt.replay hrcd :)
  · subst hd
    refine Heard.holds ?_ (finishRc_holds ..)
    refine State.OneMore.heard ?_ _ _
    exact (State.OneMore.raise s.replayed 190 1).after_mbx rfl rfl

theorem replayFinish_ends {s : State} (hs : s.awake = true) {r : Via × Nat × Nat × Nat} (hr : s.rcd.replay = some r) (slot tick : Nat) :
    (Gives (.replayFinish true slot tick) s fun t => t.rcd.replay = none ∧ Heard 1 s t 190 1 ∧ Heard 2 s t 191 (slot % 256))
      ∧ Gives (.replayFinish false slot tick) s fun t => t.rcd.replay = none ∧ Heard 1 s t 190 0 := by
  refine ⟨gives_of_run (execReplayFinish.eq_1 true slot tick s) hs ?_, gives_of_run (execReplayFinish.eq_1 false slot tick s) hs ?_⟩
  · rw [State.begin_rcd, hr]
    obtain ⟨h1, h2, h3⟩ := s.begin.replayed_finish true slot r.1 r.2.1
      (leBytes 1 (b2n true) ++ zeros 1 ++ leBytes 1 slot ++ zeros 1 ++ leBytes 6 tick)
    exact ⟨h1, h2, h3 rfl⟩
  · rw [State.begin_rcd, hr]
    obtain ⟨h1, h2, -⟩ := s.begin.replayed_finish false s.begin.draw.1 r.1 r.2.1
      (leBytes 1 (b2n false) ++ zeros 1 ++ leBytes 1 s.begin.draw.1 ++ zeros 1 ++ leBytes 6 (s.begin.draw.1 / 256))
    exact ⟨h1, h2⟩

/-! ### The commands -/

theorem recShow_shows {rq : Req} {s : State} (ha : Admitted Cmd.recShow 0 rq s) : ∃ t v, exec (.recShow rq) s = .next t
      ∧ t.Replied rq .ok 0 (leBytes 1 (s.heard Cmd.recShow rq).rcd.mode ++ leBytes 1 (s.heard Cmd.recShow rq).rcd.trigger ++ zeros 2
        ++ leBytes 4 ((((s.heard Cmd.recShow rq).rcd.ring.getLast?).map (·.seq.toNat)).getD v)
        ++ leBytes 4 ((((s.heard Cmd.recShow rq).rcd.ring.head?).map (·.seq.toNat)).getD v)
        ++ ((upTo 8).flatMap fun k => leBytes 6 (((nth s.rcd.snaps k none).map (·.tick.toNat)).getD v)) ++ leBytes 4 s.rcd.gaps) := by
  have hrec := State.Recorded.heard Cmd.recShow rq s
  rw [← hrec.kept (φ := RecSt.snaps) (fun _ => rfl), ← hrec.kept (φ := RecSt.gaps) (fun _ => rfl)]
  exact ⟨_, _, exec_answered (i := .recShow rq) rfl ha rfl rfl (by rfl), State.fwReply_replied ..⟩

theorem recFreeze_freezes {rq : Req} {s : State} (ha : Admitted Cmd.recFreeze 1 rq s) (h0 : arg rq 0 1 = 0) (hm : s.rcd.mode = 1) :
    ∃ t, exec (.recFreeze rq) s = .next t ∧ t.still = s.still ∧ t.Replied rq .ok 0 [] ∧ t.rcd.mode = 2 := by
  have hx := exec_answered (i := .recFreeze rq) (u := (s.heard Cmd.recFreeze rq).recTrigger 0xFF) (data := []) (p := none) (f := none) (v := none)
    (nj := false) (rc := .ok) rfl ha rfl rfl (by dsimp only; rw [h0]; rfl)
  refine ⟨_, hx, ?_, State.fwReply_replied .., ?_⟩
  · rw [State.still_fwReply, State.still_of_hush (State.hush_recTrigger ..), State.still_heard]
  · rw [State.fwReply_rcd]
    have hlive := (State.Recorded.heard Cmd.recFreeze rq s).live (.inl hm)
    generalize s.heard Cmd.recFreeze rq = u at hlive
    unfold State.recTrigger
    rcases hlive with h | h <;> simp [h]

/-- The ring is thawed: the recorder records again (R528). -/
def State.thawedTo (s : State) (m : Nat) : State := { s with rcd := { s.rcd with mode := m, moreTriggers := 0 } }

theorem State.still_thawedTo (s : State) (m : Nat) : (s.thawedTo m).still = s.still := rfl

theorem recFreeze_thaws {rq : Req} {s : State} (ha : Admitted Cmd.recFreeze 1 rq s) (h1 : arg rq 0 1 = 1) (hm : s.rcd.mode = 3)
    (he : s.cv Fld.REC_ENABLE = 1) :
    ∃ t, exec (.recFreeze rq) s = .next t ∧ t.still = s.still ∧ t.Replied rq .ok 0 [] ∧ t.rcd.mode = 1 ∧ t.rcd.ring = s.rcd.ring := by
  have hrec := State.Recorded.heard Cmd.recFreeze rq s
  have hx := exec_answered (i := .recFreeze rq) (u := (s.heard Cmd.recFreeze rq).thawedTo 1) (data := []) (p := none) (f := none) (v := none)
    (nj := false) (rc := .ok) rfl ha rfl rfl (by
      dsimp only
      rw [h1, hrec.frozen hm, State.cv_heard, he]
      rfl)
  refine ⟨_, hx, ?_, State.fwReply_replied .., ?_, ?_⟩
  · rw [State.still_fwReply, State.still_thawedTo, State.still_heard]
  · rw [State.fwReply_rcd]
    rfl
  · rw [State.fwReply_rcd]
    exact hrec.ring hm

theorem recFreeze_fails : Fails .recFreeze Cmd.recFreeze 1 (fun rq _ => 1 < arg rq 0 1) .badState :=
  fails_of _ (fun _ _ => rfl) rfl fun rq s _ h _ => ⟨s.heard Cmd.recFreeze rq, none, none, by
    dsimp only
    obtain ⟨k, hk⟩ : ∃ k, arg rq 0 1 = k + 2 := ⟨arg rq 0 1 - 2, by omega⟩
    rw [hk]
    rfl⟩

/-- Spores of the frozen ring from one number on, oldest first. -/
theorem recRead_spores : Shows .recRead Cmd.recRead 8 (fun rq s => 1 ≤ arg rq 2 1 ∧ arg rq 2 1 ≤ 15 ∧ arg rq 0 1 = 0 ∧ s.rcd.mode = 3
        ∧ ∃ x ∈ s.rcd.ring, x.seq.toNat = arg rq 4 4)
      (fun rq s => ((s.rcd.ring.reverse.dropWhile fun e => e.seq.toNat != arg rq 4 4).take (arg rq 2 1)).flatMap sporeBytes) :=
  shows_of _ (fun _ _ => rfl) fun rq s _ ⟨h1, h15, h0, hm, x, hx, hseq⟩ h => ⟨none, none, by
    have hrun : (s.rcd.ring.reverse.dropWhile fun e => e.seq.toNat != arg rq 4 4).isEmpty = false := by
      rw [List.isEmpty_eq_false_iff, ne_eq, List.dropWhile_eq_nil_iff]
      intro hall
      have := hall x (List.mem_reverse.mpr hx)
      simp [hseq] at this
    have hn : (arg rq 2 1 == 0) = false := by simp; omega
    rw [if_neg (by omega), h0]
    dsimp only
    rw [(State.Recorded.heard Cmd.recRead rq s).ring hm, hrun, if_neg (by decide), hn, if_neg (by decide), if_neg (by decide)]
    rfl⟩

/-- Bytes of a snapshot. -/
theorem recRead_snapshot : Shows .recRead Cmd.recRead 8 (fun rq s => 1 ≤ arg rq 2 1 ∧ arg rq 2 1 ≤ 15 ∧ arg rq 0 1 = 1 ∧ arg rq 4 4 < 0x118000
        ∧ (nth s.rcd.snaps (arg rq 1 1) none).isSome)
      (fun rq s => (upTo (min 960 (0x118000 - arg rq 4 4))).map fun k => ((nth s.rcd.snaps (arg rq 1 1) none).getD ⟨0, 0, []⟩).byteAt (arg rq 4 4 + k)) :=
  shows_of _ (fun _ _ => rfl) fun rq s _ ⟨h1, h15, h0, hat, hx⟩ h => ⟨none, none, by
    obtain ⟨x, hx⟩ := Option.isSome_iff_exists.mp hx
    have hn : (arg rq 2 1 == 0) = false := by simp; omega
    have hsnaps : (s.heard Cmd.recRead rq).rcd.snaps = s.rcd.snaps := (State.Recorded.heard Cmd.recRead rq s).kept (φ := RecSt.snaps) fun _ => rfl
    rw [if_neg (by omega), h0]
    have hfit : ¬ snapBytes ≤ arg rq 4 4 := Nat.not_le.mpr hat
    simp only
    rw [hsnaps, hx]
    dsimp only
    rw [if_neg hfit, hn, if_neg (by decide), if_neg (by decide)]
    rfl⟩

theorem recRead_fails : Fails .recRead Cmd.recRead 8 (fun rq _ => 15 < arg rq 2 1 ∨ 1 < arg rq 0 1) .badState :=
  fails_of _ (fun _ _ => rfl) rfl fun rq s _ ho h => ⟨s.heard Cmd.recRead rq, none, none, by
    dsimp only
    by_cases h15 : 15 < arg rq 2 1
    · rw [if_pos h15]
      rfl
    · obtain ⟨k, hk⟩ : ∃ k, arg rq 0 1 = k + 2 := ⟨arg rq 0 1 - 2, by omega⟩
      rw [if_neg h15, hk]
      rfl⟩

/-! ### Replay (R531) -/

theorem recReplay_fails : Fails .recReplay Cmd.recReplay 8 (fun _ s => s.rcd.mode ≠ 3) .badState :=
  fails_of _ (fun _ _ => rfl) rfl fun rq s _ hm h => ⟨s.heard Cmd.recReplay rq, none, none, by
    have hno : (s.heard Cmd.recReplay rq).replayable (arg rq 0 1) = false := by
      have h3 := (State.Recorded.heard Cmd.recReplay rq s).thawed hm
      unfold State.replayable
      split
      · rfl
      · simp [h3]
    dsimp only
    rw [hno, if_pos (by simp)]
    rfl⟩

/-! Where an instance may be placed, whatever events and replies the instances have been given. -/

section Place
variable {s u : State} (h : u.still = s.still)
include h

theorem svc_cores_of_still : u.svc.cores = s.svc.cores := (congrArg (fun w : State => w.svc.cores) h :)

theorem svc_moves_of_still : u.svc.moves = s.svc.moves := (congrArg (fun w : State => w.svc.moves) h :)

theorem svc_on_of_still : u.svc.on = s.svc.on := (congrArg (fun w : State => w.svc.on) h :)

theorem coreEnabled_of_still (k : Nat) : u.coreEnabled k = s.coreEnabled k := by
  simp only [State.coreEnabled, State.core, svc_cores_of_still h, svc_on_of_still h]

theorem placedOn_of_still (x : InstSt) : u.placedOn x = s.placedOn x := by
  simp only [State.placedOn, svc_moves_of_still h]

theorem coreWorks_of_still (k : Nat) : u.coreWorks k = s.coreWorks k := by
  have hm := insts_map_of_still (φ := fun x : InstSt => (((x.state == 1 || x.state == 3) && s.placedOn x == k, (x.slots, x.opp)) : Bool × Nat × Nat))
    (fun _ => rfl) h
  have key : ∀ l : List InstSt, ((l.filter fun x => (x.state == 1 || x.state == 3) && s.placedOn x == k).map fun x => (x.slots, x.opp))
      = ((l.map fun x => ((x.state == 1 || x.state == 3) && s.placedOn x == k, (x.slots, x.opp))).filter Prod.fst).map Prod.snd := fun l => by
    simp [List.filter_map, Function.comp_def]
  simp only [State.coreWorks, State.instsOn, placedOn_of_still h]
  rw [key, hm, ← key]

theorem place_of_still (cls slots opp : Nat) (but : Option Nat) : u.place cls slots opp but = s.place cls slots opp but := by
  simp only [State.place, State.hasRoom, coreEnabled_of_still h, coreWorks_of_still h]

end Place

/-- The replay's instance has been placed, and its run begins (R531). -/
def State.replaying (s : State) (j : Nat) (r : Via × Nat × Nat × Nat) : State :=
  { s.beginInst replayId j replayPkg.cls replayPkg with rcd := { (s.beginInst replayId j replayPkg.cls replayPkg).rcd with replay := some r } }

theorem recReplay_starts {rq : Req} {s : State} {j : Nat} (ha : Admitted Cmd.recReplay 8 rq s) (hr : s.jobRoom rq) (hk : arg rq 0 1 ≤ 7)
    (he : s.cv Fld.REC_ENABLE ≠ 0) (hon : s.svc.on = true) (hcore : ∃ k < 8, s.coreEnabled k = true) (hm : s.rcd.mode = 3)
    (hrep : s.replayable (arg rq 0 1) = true) (hno : s.rcd.replay = none) (hp : s.place 2 125 3 none = some j) :
    ∃ t, exec (.recReplay rq) s = .next t ∧ t.Replied rq .accepted (s.chan (viaChan rq.via)).freeHandle []
      ∧ t.rcd.replay = some (rq.via, (s.chan (viaChan rq.via)).freeHandle, arg rq 0 1, arg rq 4 4) := by
  have hrec := State.Recorded.heard Cmd.recReplay rq s
  have hstill := State.still_heard Cmd.recReplay rq s
  have hrep' : (s.heard Cmd.recReplay rq).replayable (arg rq 0 1) = true := by
    unfold State.replayable at hrep ⊢
    rw [hrec.kept (φ := RecSt.snaps) (fun _ => rfl), hrec.frozen hm, hrec.ring hm]
    rwa [hm] at hrep
  have hany : ((upTo 8).any fun k => (s.heard Cmd.recReplay rq).coreEnabled k) = true := by
    obtain ⟨k, hlt, hen⟩ := hcore
    exact List.any_eq_true.mpr ⟨k, by simpa [upTo] using hlt, by rw [coreEnabled_of_still hstill, hen]⟩
  have hplace : (s.heard Cmd.recReplay rq).place replayPkg.cls replayPkg.slots replayPkg.opp none = some j := (place_of_still hstill ..).trans hp
  have hx := exec_accepted (i := .recReplay rq) (u := (s.heard Cmd.recReplay rq).replaying j (rq.via, (s.chan (viaChan rq.via)).freeHandle, arg rq 0 1, arg rq 4 4))
    (data := []) (p := none) (f := none) (v := none) rfl ha hr (by
      dsimp only
      rw [hrep', hany, State.cv_heard, svc_on_of_still hstill, hon, hrec.kept (φ := RecSt.replay) (fun _ => rfl), hno, hplace,
        if_neg (by simp [he]; omega), if_neg (by decide)]
      rfl)
  exact ⟨_, hx, State.fwReply_replied .., by rw [State.fwReply_rcd, State.addJob_rcd]; rfl⟩

/-- Settles O51, clause by clause. -/
theorem recorder : Obligations.Recorder := by
  refine ⟨fun s hs => ⟨checkpoint_takes hs, fun hn => checkpoint_idle hs (by simp [hn]), fun hm _ => ?_, sporeBufferRoom_drains hs,
      fun hm hl hd hg => sporeBufferRoom_gap hs hm hl hd hg, recPostTriggerExpiry_freezes hs, recPostTriggerExpiry_early hs,
      fun slot tick r hr => replayFinish_ends hs hr slot tick⟩,
    fun _ _ ha => recShow_shows ha, fun _ _ => recFreeze_freezes, fun _ _ => recFreeze_thaws, recFreeze_fails,
    fun rq s x ha h1 h15 h0 hm hx hseq => recRead_spores rq s ha ⟨h1, h15, h0, hm, x, hx, hseq⟩,
    fun rq s x ha h1 h15 h0 hx hat => ?_, recRead_fails,
    fun _ _ _ ha hr hk he hon hcore hm hrep hno hp => recReplay_starts ha hr hk he hon hcore hm hrep hno hp, recReplay_fails⟩
  · have hidle : (!(s.rcd.mode == 1 || s.rcd.mode == 2) || s.mem.lpddr != .active) = true := by
      rcases hm with h | h | h <;> simp [h]
    exact ⟨checkpoint_idle hs (by rw [hidle, Bool.true_or]), sporeBufferRoom_idle hs hidle⟩
  · have hshow := recRead_snapshot rq s ha ⟨h1, h15, h0, hat, by rw [hx]; rfl⟩
    dsimp only at hshow
    rwa [hx] at hshow

end Sys2Proof.Machine

/-! The display commands (Table 9.8, R241, R242, R251, R258, R259, R264). -/
namespace Sys2Proof.Machine

/-! ### The shows -/

theorem dispShow_shows : Shows .dispShow Cmd.dispShow 1 (fun rq s => arg rq 0 1 ≤ 3 ∧ ∀ x ∈ s.disp.streams, x.dpx ≠ arg rq 0 1) (fun rq s =>
      let d := s.dpx (arg rq 0 1)
      leBytes 1 (nth s.topo.ends (arg rq 0 1) 0) ++ leBytes 1 (b2n d.hpd) ++ leBytes 1 d.rate ++ leBytes 1 d.lanes
        ++ leBytes 1 0 ++ leBytes 1 0 ++ leBytes 1 d.lttprs ++ zeros 1 ++ leBytes 4 0) :=
  shows_plain (fun _ _ => rfl) (fun _ _ _ _ _ _ => rfl) (fun _ _ _ _ _ _ => rfl) fun rq s _ ⟨hk, hno⟩ => by
    have hmine : s.disp.streams.filter (fun x => x.dpx == arg rq 0 1) = [] := List.filter_eq_nil_iff.mpr fun x hx => by simpa using hno x hx
    dsimp only
    rw [if_neg (by omega), hmine]
    rfl

/-- A stream that is the only one is found by its number. -/
theorem State.stream_only {s : State} {x : StreamSt} (hs : s.disp.streams = [x]) {id : Nat} (hid : x.id = id) : s.stream id = some x := by
  simp [State.stream, hs, hid]

theorem dispStreamShow_shows : Shows .dispStreamShow Cmd.dispStreamShow 2 (fun rq s => ∃ x, s.disp.streams = [x] ∧ x.id = arg rq 0 2) (fun _ s =>
      s.disp.streams.flatMap fun x => leBytes 1 x.state ++ leBytes 1 (b2n x.locked) ++ leBytes 1 x.k ++ zeros 1 ++ leBytes 4 x.delay
        ++ leBytes 8 ((x.desc.map (·.clock)).getD 0) ++ leInt 4 (x.dco * 1000000000 / 4294967296) ++ leBytes 4 x.late
        ++ leBytes 8 x.concealed ++ leBytes 4 x.skipped ++ leBytes 4 x.highWater) :=
  shows_plain (fun _ _ => rfl) (fun _ _ _ _ _ _ => rfl) (fun _ _ _ _ _ _ => rfl) fun rq s _ ⟨x, hs, hid⟩ => by
    rw [State.stream_only hs hid, hs, List.flatMap_singleton]

/-! ### Closing, clearing and holding -/

theorem dispStreamClose_does : Does .dispStreamClose Cmd.dispStreamClose 2
      (fun rq s => ∃ x, s.disp.streams = [x] ∧ x.id = arg rq 0 2 ∧ x.capture = false ∧ x.inPort = noPath ∧ (x.stored = false))
      (fun rq s => s.dropStream (arg rq 0 2)) (fun _ _ => []) :=
  does_of _ (fun _ _ => rfl) fun rq s _ ⟨x, hs, hid, hcap, hin, hst⟩ h => by
    have hu : (s.heard Cmd.dispStreamClose rq).stream (arg rq 0 2) = some x := State.stream_only (by rw [State.heard_disp, hs]) hid
    have hclose : (s.heard Cmd.dispStreamClose rq).closeStream x 1 = ((s.heard Cmd.dispStreamClose rq).dropStream (arg rq 0 2)).dispEv 68 x.dpx x.id (256 * 1) := by
      rw [← hid]
      simp [State.closeStream, State.closeRegen, hcap, hin, hst, noPath]
    have hnone : ∀ l : List StreamSt, (l.find? fun y => x.capture && !y.capture && y.inPort == 2 && y.inLabel == x.video.getD 0) = none := fun l =>
      List.find?_eq_none.mpr fun y _ => by simp [hcap]
    refine ⟨((s.heard Cmd.dispStreamClose rq).dropStream (arg rq 0 2)).dispEv 68 x.dpx x.id (256 * 1), none, none, ?_, ?_⟩
    · rw [hu]
      dsimp only
      rw [hclose, hnone]
      rfl
    · unfold State.dispEv
      rw [State.still_raise]
      exact Aside.heard (f := fun w => w.dropStream (arg rq 0 2)) (fun _ _ _ _ _ => rfl) _ rq s

theorem dispStreamClose_fails : Fails .dispStreamClose Cmd.dispStreamClose 2 (fun rq s => s.stream (arg rq 0 2) = none) .badState :=
  fails_plain (fun _ _ => rfl) (fun _ _ _ _ _ _ => rfl) rfl fun _ _ _ h => by rw [h]

theorem dispClear_does : Does .dispClear Cmd.dispClear 2 (fun rq s => arg rq 0 2 ≠ 0xFFFF ∧ s.stream (arg rq 0 2) ≠ none)
      (fun rq s => s.setStream (arg rq 0 2) fun x => { x with late := 0, concealed := 0, skipped := 0, highWater := 0 }) (fun _ _ => []) :=
  does_plain (fun _ _ => rfl) (fun _ _ _ _ _ _ => rfl) (fun _ _ _ _ _ _ => rfl) (fun _ _ _ _ _ _ => rfl) fun rq s _ ⟨hall, hx⟩ => by
    have hsome : ¬ (s.stream (arg rq 0 2)).isNone = true := by simpa [Option.isNone_iff_eq_none] using hx
    dsimp only
    rw [if_neg (by simpa using hall), if_neg hsome]
    rfl

theorem dispHoldEnter_does : Does .dispHoldEnter Cmd.dispHoldEnter 3 (fun rq s => arg rq 2 1 = 0 ∧ ∃ x, s.stream (arg rq 0 2) = some x ∧ x.capture = false)
      (fun rq s => s.setStream (arg rq 0 2) fun x => if x.state == 3 then x else { x with holdNext := some 2 }) (fun _ _ => []) :=
  does_plain (fun _ _ => rfl) (fun _ _ _ _ _ _ => rfl) (fun _ _ _ _ _ _ => rfl) (fun _ _ _ _ _ _ => rfl) fun rq s _ ⟨h0, x, hx, hcap⟩ => by
    have hid : x.id = arg rq 0 2 := by simpa using List.find?_some hx
    rw [hx]
    dsimp only
    rw [hcap, h0, if_neg (by decide), if_pos (by decide), hid]
    rfl

theorem dispHoldOverlay_does : Does .dispHoldOverlay Cmd.dispHoldOverlay 16
      (fun rq s => arg rq 0 1 ≤ 3 ∧ s.isSource (arg rq 0 1) = true ∧ s.cv Fld.HOLD_REGION_MIB ≠ 0 ∧ arg rq 6 2 ≤ 3840 ∧ arg rq 8 2 ≤ 2160
        ∧ s.disp.streams = [] ∧ arg rq 12 4 + 4 * arg rq 6 2 * arg rq 8 2 ≤ 128 * mib)
      (fun rq s => s.setDpx (arg rq 0 1) fun d => { d with
        overlay := (arg rq 1 1 == 1, arg rq 2 2, arg rq 4 2, arg rq 6 2, arg rq 8 2, arg rq 12 4) }) (fun _ _ => []) :=
  does_plain (fun _ _ => rfl) (fun _ _ _ _ _ _ => rfl) (fun _ _ _ _ _ _ => rfl) (fun _ _ _ _ _ _ => rfl)
    fun rq s _ ⟨hk, hsrc, hreg, hw, hh, hno, hfit⟩ => by
    have hok : ¬ (Decidable.decide (3 < arg rq 0 1) || !s.isSource (arg rq 0 1) || (arg rq 1 1 == 1 && s.cv Fld.HOLD_REGION_MIB == 0)) = true := by
      simp [hsrc, hreg]
      omega
    have hlen : ¬ (Decidable.decide (3840 < arg rq 6 2) || Decidable.decide (2160 < arg rq 8 2) || false
        || Decidable.decide (128 * mib < arg rq 12 4 + 4 * arg rq 6 2 * arg rq 8 2)) = true := by
      simp only [Bool.or_false, Bool.or_eq_true, decide_eq_true_eq]
      omega
    dsimp only
    rw [hno, if_neg hok]
    exact if_neg hlen

theorem dispHoldOverlay_fails : Fails .dispHoldOverlay Cmd.dispHoldOverlay 16
      (fun rq s => arg rq 0 1 ≤ 3 ∧ s.isSource (arg rq 0 1) = true ∧ s.cv Fld.HOLD_REGION_MIB ≠ 0 ∧ 3840 < arg rq 6 2) .badLength :=
  fails_plain (fun _ _ => rfl) (fun _ _ _ _ _ _ => rfl) rfl fun rq s _ ⟨hk, hsrc, hreg, hw⟩ => by
    have hok : ¬ (Decidable.decide (3 < arg rq 0 1) || !s.isSource (arg rq 0 1) || (arg rq 1 1 == 1 && s.cv Fld.HOLD_REGION_MIB == 0)) = true := by
      simp [hsrc, hreg]
      omega
    dsimp only
    rw [if_neg hok, if_pos (by simp [hw])]

/-! ### Pairing and AUX -/

/-- What an update of a DPX leaves alone of it is read as before. -/
theorem State.setDpx_dpx_congr {γ : Type} (φ : DpxSt → γ) (f : DpxSt → DpxSt) (hf : ∀ d, φ (f d) = φ d) (s : State) (i j : Nat) :
    φ ((s.setDpx i f).dpx j) = φ (s.dpx j) := nth_modify_congr φ f hf ..

theorem dispPairSet_does : Does .dispPairSet Cmd.dispPairSet 4
      (fun rq s => arg rq 0 1 ≤ 3 ∧ s.isSink (arg rq 0 1) = true ∧ arg rq 1 1 ≤ 6 ∧ arg rq 2 1 ≤ 1 ∧ arg rq 3 1 ≤ 3
        ∧ (s.dpx (arg rq 0 1)).farHpd = false)
      (fun rq s => s.setDpx (arg rq 0 1) fun d => { d with pair := some (arg rq 1 1, arg rq 2 1, arg rq 3 1) }) (fun _ _ => []) :=
  does_plain (fun _ _ => rfl) (fun _ _ _ _ _ _ => rfl) (fun _ _ _ _ _ _ => rfl) (fun _ _ _ _ _ _ => rfl)
    fun rq s _ ⟨hk, hsink, h1, h2, h3, hfar⟩ => by
    have hfar' : ((s.setDpx (arg rq 0 1) fun d => { d with pair := some (arg rq 1 1, arg rq 2 1, arg rq 3 1) }).dpx (arg rq 0 1)).farHpd = false :=
      (State.setDpx_dpx_congr DpxSt.farHpd (fun d => { d with pair := some (arg rq 1 1, arg rq 2 1, arg rq 3 1) }) (fun _ => rfl) ..).trans hfar
    dsimp only
    rw [if_neg (by simp [hsink]; omega)]
    unfold State.hpdUp
    rw [if_neg (by rw [hfar']; simp)]
    rfl

theorem dispAuxXfer_starts : Starts .dispAuxXfer Cmd.dispAuxXfer 12
      (fun rq s => arg rq 0 1 ≤ 3 ∧ s.isSource (arg rq 0 1) = true ∧ 1 ≤ arg rq 8 1 ∧ arg rq 8 1 ≤ 16)
      (fun rq s => s.setDpx (arg rq 0 1) fun d => { d with auxOut := d.auxOut ++
        [⟨arg rq 4 4, 0, false, some (rq.via, (s.chan (viaChan rq.via)).freeHandle)⟩] }) (fun _ _ => none) :=
  starts_of _ (fun _ _ => rfl) fun rq s _ _ ⟨hk, hsrc, h1, h16⟩ h hh => by
    have hsrc' : (s.heard Cmd.dispAuxXfer rq).isSource (arg rq 0 1) = true :=
      (Deaf.heard (φ := fun u => u.isSource (arg rq 0 1)) (fun _ _ _ _ _ => rfl) _ rq s).trans hsrc
    refine ⟨(s.heard Cmd.dispAuxXfer rq).auxPanel (arg rq 0 1) (arg rq 1 1) (arg rq 4 4) (slice 12 (arg rq 8 1) rq.payload)
      ⟨arg rq 4 4, 0, false, some (rq.via, h)⟩, none, none, ?_, ?_⟩
    · dsimp only
      rw [hsrc', if_neg (by simp; omega)]
      rfl
    · rw [State.auxPanel, State.still_emit, hh]
      exact Aside.heard (f := fun w => w.setDpx (arg rq 0 1) fun d => { d with auxOut := d.auxOut ++
        [⟨arg rq 4 4, 0, false, some (rq.via, (s.chan (viaChan rq.via)).freeHandle)⟩] }) (fun _ _ _ _ _ => rfl) _ rq s

/-! ### Opening -/

/-- A contract that is admitted beside none is in force, and nothing else has changed (R205, R222). -/
theorem State.defineContract_first {s : State} (hs : s.plan.contracts = []) {c : Contract} (hc : (s.defineContract c false).rc = .ok) :
    (s.defineContract c false).st = { s with plan := { s.plan with contracts := [c] } } := by
  unfold State.defineContract at hc ⊢
  simp only [hs, List.any_nil, List.filter_nil, List.nil_append, Bool.not_false, Bool.and_true, List.length_nil] at hc ⊢
  split_ifs at hc ⊢
  rfl

theorem defineContract_rc_deaf (c : Contract) (replace : Bool) : Deaf fun u : State => (u.defineContract c replace).rc := by
  intro u o m r v
  unfold State.defineContract
  dsimp only
  simp only [apply_ite ContractAns.rc]
  rfl

@[simp] theorem State.sendDown_disp (s : State) (o : FwdOrigin) (p : Nat) (m : Msg) : (s.sendDown o p m).disp = s.disp := by
  unfold State.sendDown
  dsimp only
  split_ifs <;> rfl

@[simp] theorem State.sendContract_disp (s : State) (o : FwdOrigin) (port hop : Nat) (c : Contract) : (s.sendContract o port hop c).disp = s.disp :=
  State.sendDown_disp ..

@[simp] theorem State.sendContracts_disp (s : State) (o : FwdOrigin) (port hops : Nat) (cs : List Contract) :
    (s.sendContracts o port hops cs).disp = s.disp := by
  unfold State.sendContracts
  refine foldl_same _ State.disp (fun u x => ?_) _ _
  obtain ⟨hop, c⟩ := x
  exact u.sendContract_disp o port hop c

/-- The body of an admitted request has accepted it and left a state that has some property. -/
theorem exec_accepted_with {i : Instr} {row : CmdRow} {min : Nat} {rq : Req} {s : State} {body : Nat → State → Ans} {P : State → Prop}
    (hx : exec i s = command row min rq s body) (ha : Admitted row min rq s) (hr : s.jobRoom rq)
    (hb : ∃ u, body (s.chan (viaChan rq.via)).freeHandle (s.heard row rq) = .long u none ∧ P u) :
    ∃ u, exec i s = .next ((u.addJob rq.via row.opcode (s.chan (viaChan rq.via)).freeHandle none).fwReply (msgOf rq row.opcode) .accepted
      (s.chan (viaChan rq.via)).freeHandle []) ∧ P u := by
  obtain ⟨u, hb, hu⟩ := hb
  exact ⟨u, exec_accepted hx ha hr hb, hu⟩

/-- The first stream of a hub, as `disp.stream.open` opens it (R241). -/
def FirstStream (rq : Req) (d : DispSt) : Prop :=
  ∃ x : StreamSt, d.streams = [x] ∧ x.id = 1 ∧ x.dpx = arg rq 0 1 ∧ x.index = arg rq 1 1 ∧ x.capture = true ∧ x.state = 0
        ∧ x.dest = (1, arg rq 3 1, arg rq 4 1, arg rq 5 1) ∧ x.along = arg rq 8 4 ∧ x.contract = arg rq 12 2

theorem dispStreamOpen_opens {s : State} {rq : Req} {p : Nat} (ha : Admitted Cmd.dispStreamOpen 16 rq s) (hr : s.jobRoom rq) (hk : arg rq 0 1 ≤ 3)
    (hsink : s.isSink (arg rq 0 1) = true) (hi : arg rq 1 1 ≤ 3)
    (hhops : arg rq 2 1 = 1) (hdst : arg rq 4 1 ≤ 3) (hdi : arg rq 5 1 ≤ 3) (hfl : arg rq 6 1 = 0) (hasked : arg rq 8 4 ≠ 0)
    (hc1 : 1 ≤ arg rq 12 2) (hc2 : arg rq 12 2 ≤ 4095) (hmsa : nth (s.dpx (arg rq 0 1)).msa (arg rq 1 1) none = none)
    (hst : s.disp.streams = []) (hcs : s.plan.contracts = []) (hp : s.pathPort (arg rq 3 1) = some p)
    (hdef : (s.defineContract (s.mkContract (arg rq 12 2) 6 (arg rq 7 1) (2 + arg rq 0 1) p (arg rq 8 4) 64 16) false).rc = .ok)
    (hfit : arg rq 8 4 * s.presDelay 1 ≤ 8000 * 524288) :
    ∃ t, exec (.dispStreamOpen rq) s = .next t ∧ t.Replied rq .accepted (s.chan (viaChan rq.via)).freeHandle [] ∧ FirstStream rq t.disp := by
  suffices h : ∃ u : State, exec (.dispStreamOpen rq) s = .next ((u.addJob rq.via Cmd.dispStreamOpen.opcode (s.chan (viaChan rq.via)).freeHandle none).fwReply
      (msgOf rq Cmd.dispStreamOpen.opcode) .accepted (s.chan (viaChan rq.via)).freeHandle []) ∧ FirstStream rq u.disp by
    obtain ⟨u, hx, hu⟩ := h
    exact ⟨_, hx, State.fwReply_replied .., by rwa [State.fwReply_disp, State.addJob_disp]⟩
  refine exec_accepted_with (P := fun u => FirstStream rq u.disp) rfl ha hr ?_
  have hear {γ : Type} {φ : State → γ} (hφ : Deaf φ) : φ (s.heard Cmd.dispStreamOpen rq) = φ s := hφ.heard ..
  have hsink' := (hear (φ := fun u => u.isSink (arg rq 0 1)) fun _ _ _ _ _ => rfl).trans hsink
  have hmsa' := (hear (φ := fun u => nth (u.dpx (arg rq 0 1)).msa (arg rq 1 1) none) fun _ _ _ _ _ => rfl).trans hmsa
  have hst' := (hear (φ := fun u => u.disp.streams) fun _ _ _ _ _ => rfl).trans hst
  have hcs' := (hear (φ := fun u => u.plan.contracts) fun _ _ _ _ _ => rfl).trans hcs
  have hp' := (hear (φ := fun u => u.pathPort (arg rq 3 1)) fun _ _ _ _ _ => rfl).trans hp
  have hdef' := (hear (φ := fun u => (u.defineContract (u.mkContract (arg rq 12 2) 6 (arg rq 7 1) (2 + arg rq 0 1) p (arg rq 8 4) 64 16) false).rc)
    fun u o m r v => defineContract_rc_deaf (u.mkContract (arg rq 12 2) 6 (arg rq 7 1) (2 + arg rq 0 1) p (arg rq 8 4) 64 16) false u o m r v).trans hdef
  have hfit' : arg rq 8 4 * (s.heard Cmd.dispStreamOpen rq).presDelay 1 ≤ 8000 * 524288 := by
    rwa [hear (φ := fun u => u.presDelay 1) fun _ _ _ _ _ => rfl]
  generalize s.heard Cmd.dispStreamOpen rq = u at hsink' hmsa' hst' hcs' hp' hdef' hfit'
  have hbad : ¬ (Decidable.decide (3 < arg rq 0 1) || Decidable.decide (3 < arg rq 1 1) || Decidable.decide (6 < 1)
      || Decidable.decide (3 < arg rq 4 1) || Decidable.decide (3 < arg rq 5 1) || !u.isSink (arg rq 0 1) || (1 == 0 && !u.isSource (arg rq 4 1))
      || (arg rq 8 4 == 0 && (nth (u.dpx (arg rq 0 1)).msa (arg rq 1 1) none).isNone) || Decidable.decide (4 ≤ ([] : List StreamSt).length)
      || (1 == 0 && Decidable.decide (4 ≤ ([] : List StreamSt).length))) = true := by
    simp [hsink', hasked]
    omega
  have hid : ¬ ((arg rq 12 2 == 0) || Decidable.decide (4095 < arg rq 12 2)) = true := by simp; omega
  have hz : (arg rq 8 4 != 0) = true := by simpa using hasked
  have hshare : ¬ streamBuffer < total ([] : List Nat) + bufferShare none (arg rq 8 4) (u.presDelay 1) := by
    have : ceilDiv (arg rq 8 4 * u.presDelay 1) 8000 ≤ 524288 := by
      unfold ceilDiv
      omega
    simpa [streamBuffer, bufferShare, total] using this
  dsimp only
  simp only [hhops, hst', List.filter_nil]
  rw [if_neg hbad, if_neg (by decide), hmsa']
  have h0 : bitAt (arg rq 6 1) 0 = false := by rw [hfl]; decide
  have h1 : bitAt (arg rq 6 1) 1 = false := by rw [hfl]; decide
  have hone : ((1 : Nat) == 0) = false := by decide
  have hrc : ((Rc.ok : Rc) == Rc.ok) = true := by decide
  dsimp only
  simp only [h0, h1, hone, hz, hp', hst', hcs', Bool.false_eq_true, if_false, if_true, Option.getD_some, List.foldl_cons, List.foldl_nil, hrc,
    List.any_nil, Option.isNone_some, Bool.and_false, List.filter_nil, List.map_nil]
  generalize hd : u.defineContract (u.mkContract (arg rq 12 2) 6 (arg rq 7 1) (2 + arg rq 0 1) p (arg rq 8 4) 64 16) false = a at hdef'
  have hast : a.st.disp = u.disp := by
    rw [← hd, State.defineContract_first hcs' (by rw [hd]; exact hdef')]
  rw [if_neg hid, hdef', if_neg (by decide), if_neg hshare]
  refine ⟨_, rfl, ?_⟩
  unfold FirstStream
  rw [State.sendContracts_disp]
  dsimp only
  rw [hast, hst']
  exact ⟨_, rfl, rfl, rfl, rfl, rfl, rfl, rfl, rfl, rfl⟩

/-- Settles O23, clause by clause. -/
theorem displayCommands : Obligations.DisplayCommands :=
  ⟨dispShow_shows, fun _ _ _ ha hr hk hsink hi hhops hdst hdi hfl hasked hc1 hc2 hmsa hst hcs hp hdef hfit =>
      dispStreamOpen_opens ha hr hk hsink hi hhops hdst hdi hfl hasked hc1 hc2 hmsa hst hcs hp hdef hfit,
    dispStreamClose_does, dispStreamClose_fails, dispStreamShow_shows,
    dispHoldOverlay_does, dispHoldOverlay_fails, dispHoldEnter_does, dispPairSet_does, dispAuxXfer_starts, dispClear_does⟩

end Sys2Proof.Machine

/-! The PCI Express and USB commands (Tables 10.8 and 11.8; R271, R282, R285, R288, R303, R320). -/
namespace Sys2Proof.Machine

/-! ### Reading an end of a PCI Express tunnel after an update -/

theorem State.pcEnd_setEnd_congr {γ : Type} (φ : PciEnd → γ) (f : PciEnd → PciEnd) (hf : ∀ x, φ (f x) = φ x) (s : State) (e k : Nat) :
    φ ((s.setEnd e f).pcEnd k) = φ (s.pcEnd k) := by
  unfold State.setEnd State.pcEnd
  by_cases he : e < 16 <;> by_cases hk : k < 16 <;> simp only [he, hk, if_true, if_false]
  · exact nth_modify_congr φ f hf ..
  · exact nth_modify_congr φ f hf ..

theorem State.pcEnd_setEnd {s : State} {b : Nat} (hb : b < 16) (hl : s.pcie.bridges.length = 16) (f : PciEnd → PciEnd) :
    (s.setEnd b f).pcEnd b = f (s.pcEnd b) := by
  simp only [State.setEnd, State.pcEnd, hb, if_true]
  exact nth_modify_same f _ _ _ (by omega)

theorem State.pcEnd_of_pcie {s t : State} (h : t.pcie = s.pcie) (e : Nat) : t.pcEnd e = s.pcEnd e := by
  simp only [State.pcEnd, h]

@[simp] theorem State.setEnd_bridges_length (s : State) (e : Nat) (f : PciEnd → PciEnd) :
    (s.setEnd e f).pcie.bridges.length = s.pcie.bridges.length := by
  unfold State.setEnd
  split_ifs
  · exact List.length_modify ..
  · rfl

/-! ### PCI Express -/

theorem pcieShow_shows : Shows .pcieShow Cmd.pcieShow 1 (fun rq _ => arg rq 0 1 ≤ 4) (fun rq s =>
      let l := s.pcLink (arg rq 0 1)
      leBytes 1 l.state ++ leBytes 1 l.rate ++ leBytes 1 l.width ++ zeros 1 ++ leBytes 4 l.rcvErrs ++ leBytes 4 l.replays
        ++ leBytes 4 l.malformed ++ leBytes 8 l.tlpsIn ++ leBytes 8 l.tlpsOut) :=
  shows_plain (fun _ _ => rfl) (fun _ _ _ _ _ _ => rfl) (fun _ _ _ _ _ _ => rfl) fun _ _ _ hk => if_neg (Nat.not_lt.mpr hk)

theorem pcieBridgeShow_shows : Shows .pcieBridgeShow Cmd.pcieBridgeShow 1 (fun rq _ => 1 ≤ arg rq 0 1 ∧ arg rq 0 1 ≤ 15) (fun rq s =>
      let x := s.pcEnd (arg rq 0 1)
      leBytes 4 x.vsec ++ leBytes 1 x.state ++ zeros 1 ++ leBytes 2 x.table.length
        ++ leBytes 2 (creditLeft (nth x.limits 1 0) (nth x.used 1 0)) ++ leBytes 2 (creditLeft (nth x.limits 3 0) (nth x.used 3 0))
        ++ leBytes 2 (creditLeft (nth x.limits 5 0) (nth x.used 5 0)) ++ zeros 2 ++ leBytes 4 x.synth ++ leBytes 4 x.orphaned
        ++ leBytes 4 x.postedLost) :=
  shows_plain (fun _ _ => rfl) (fun _ _ _ _ _ _ => rfl) (fun _ _ _ _ _ _ => rfl) fun _ _ _ ⟨h1, h15⟩ => if_neg (by simp; omega)

theorem pciePortUnbind_fails : Fails .pciePortUnbind Cmd.pciePortUnbind 1 (fun rq s => (s.pcEnd (arg rq 0 1)).state = 0) .badState :=
  fails_plain (fun _ _ => rfl) (fun _ _ _ _ _ _ => rfl) rfl fun rq s _ h => if_pos (by simp [h])

theorem pcieSlotPower_fails : Fails .pcieSlotPower Cmd.pcieSlotPower 2 (fun rq s => arg rq 0 1 ≤ 3 → s.bayOfDp (arg rq 0 1) = none) .badState :=
  fails_plain (fun _ _ => rfl) (fun _ _ _ _ _ _ => rfl) rfl fun rq s _ h => by
    have hnone : (if arg rq 0 1 ≤ 3 then s.bayOfDp (arg rq 0 1) else none) = none := by
      split_ifs with h3
      · exact h h3
      · rfl
    rw [hnone]

theorem pcieClear_does : Does .pcieClear Cmd.pcieClear 1 (fun rq _ => arg rq 0 1 ≤ 15)
      (fun rq s => (s.setPcLink (arg rq 0 1) fun l => { l with
        rcvErrs := 0, replays := 0, malformed := 0, tlpsIn := 0, tlpsOut := 0 }).setEnd (arg rq 0 1) fun x => { x with
          synth := 0, orphaned := 0, postedLost := 0 }) (fun _ _ => []) :=
  does_plain (fun _ _ => rfl) (fun _ _ _ _ _ _ => rfl) (fun _ _ _ _ _ _ => rfl) (fun rq u o m r v => by
      unfold State.setEnd
      split_ifs <;> rfl) fun rq s _ hk => by
    dsimp only
    rw [if_neg (by simp; omega), if_neg (Nat.not_lt.mpr hk)]
    rfl

/-- A bay that holds no module takes its request and does nothing (R445). -/
theorem State.bayRequest_unseated {s : State} {b : Nat} (h : (s.bay b).state = .unseated) (on : Bool) :
    s.bayRequest b on = s.setBay b fun x => { x with request := on, shed := false } := by
  have hst : ((s.setBay b fun x => { x with request := on, shed := false }).bay b).state = .unseated :=
    (nth_modify_congr BaySt.state (fun x : BaySt => { x with request := on, shed := false }) (fun _ => rfl) ..).trans h
  unfold State.bayRequest State.bayReq
  generalize s.setBay b (fun x => { x with request := on, shed := false }) = t at hst
  have hno : ¬ ((t.bay b).state.conducts && !(t.bay b).wantsOn) = true := by simp [hst, BayState.conducts]
  dsimp only
  rw [if_neg hno]
  unfold State.bayTry
  dsimp only
  simp only [hst]
  split_ifs <;> first | rfl | simp_all

theorem pcieSlotPower_does (b : Nat) : Does .pcieSlotPower Cmd.pcieSlotPower 2
      (fun rq s => arg rq 0 1 ≤ 3 ∧ s.bayOfDp (arg rq 0 1) = some b ∧ (s.bay b).state = .unseated)
      (fun rq s => s.setBay b fun x => { x with request := arg rq 1 1 == 1, shed := false }) (fun _ _ => []) :=
  does_plain (fun _ _ => rfl) (fun _ _ _ _ _ _ => rfl) (fun _ _ _ _ _ _ => rfl) (fun _ _ _ _ _ _ => rfl) fun rq s _ ⟨hk, hb, hst⟩ => by
    rw [if_pos hk, hb]
    dsimp only
    rw [State.bayRequest_unseated hst]
    rfl

/-! ### Binding and unbinding a bridge (R271) -/

@[simp] theorem State.sendFrame_pcie (s : State) (e typ fc : Nat) (body : List Byte) : (s.sendFrame e typ fc body).pcie = s.pcie := by
  unfold State.sendFrame
  dsimp only
  split_ifs <;> rfl

/-- What `regrant` leaves: all of an end but its credits. -/
theorem State.regrant_pcEnd {γ : Type} (φ : PciEnd → γ) (hg : ∀ (x : PciEnd) l, φ { x with granted := l } = φ x)
    (hf : ∀ (x : PciEnd) l, φ { x with freed := l } = φ x) (s : State) (e k : Nat) : φ ((s.regrant e).pcEnd k) = φ (s.pcEnd k) := by
  unfold State.regrant
  dsimp only
  split_ifs
  · rfl
  · unfold State.sendPcCredit
    rw [State.pcEnd_of_pcie (State.sendFrame_pcie ..)]
    exact (State.pcEnd_setEnd_congr φ _ (fun x => hf x _) ..).trans (State.pcEnd_setEnd_congr φ _ (fun x => hg x _) ..)

/-- A bridge whose link is down, with no path and no contract, is free again once it is unbound. -/
theorem State.unbindBridge_free {s : State} {b : Nat} (hb : b < 16) (hl : s.pcie.bridges.length = 16) (h3 : (s.pcEnd b).state = 3)
    (hc : (s.pcEnd b).contract = 0) (cause : Nat) : ((s.unbindBridge b cause).pcEnd b).state = 0 ∧ ((s.unbindBridge b cause).pcEnd b).hops = 0 := by
  have hpres : (s.setPresence b false).pcie.bridges.length = 16 := by
    unfold State.setPresence
    split_ifs
    · exact hl
    · rw [raise_pcie, setEnd_bridges_length, hl]
  have hclear : ((s.setPresence b false).clearBridge b).pcEnd b = _ := State.pcEnd_setEnd hb hpres _
  unfold State.unbindBridge
  simp only [h3, hc, Nat.reduceBEq, Bool.false_eq_true, if_false, beq_self_eq_true, if_true]
  rw [State.pcEnd_of_pcie (raise_pcie ..)]
  exact ⟨(foldl_same _ (fun u : State => (u.pcEnd b).state) (fun u k => State.regrant_pcEnd PciEnd.state (fun _ _ => rfl) (fun _ _ => rfl) u k b) _ _).trans
      (by rw [hclear]; rfl),
    (foldl_same _ (fun u : State => (u.pcEnd b).hops) (fun u k => State.regrant_pcEnd PciEnd.hops (fun _ _ => rfl) (fun _ _ => rfl) u k b) _ _).trans
      (by rw [hclear]; rfl)⟩

theorem pciePortUnbind_unbinds {rq : Req} {s : State} (ha : Admitted Cmd.pciePortUnbind 1 rq s) (h1 : 1 ≤ arg rq 0 1) (h15 : arg rq 0 1 ≤ 15)
    (h3 : (s.pcEnd (arg rq 0 1)).state = 3) (hp : (s.pcEnd (arg rq 0 1)).path = none) (hc : (s.pcEnd (arg rq 0 1)).contract = 0)
    (hl : s.pcie.bridges.length = 16) :
    ∃ t, exec (.pciePortUnbind rq) s = .next t ∧ t.Replied rq .ok 0 [] ∧ (t.pcEnd (arg rq 0 1)).state = 0 ∧ (t.pcEnd (arg rq 0 1)).hops = 0 := by
  have hend : (s.heard Cmd.pciePortUnbind rq).pcEnd (arg rq 0 1) = s.pcEnd (arg rq 0 1) := State.pcEnd_of_pcie (State.heard_pcie ..) _
  have hlen : (s.heard Cmd.pciePortUnbind rq).pcie.bridges.length = 16 := by rw [State.heard_pcie, hl]
  have hx := exec_answered (i := .pciePortUnbind rq) (u := (s.heard Cmd.pciePortUnbind rq).unbindBridge (arg rq 0 1) 2) (data := []) (p := none)
    (f := none) (v := none) (nj := false) (rc := .ok) rfl ha rfl rfl (by
      dsimp only
      rw [hend, h3, if_neg (by simp; omega), hp]
      rfl)
  refine ⟨_, hx, State.fwReply_replied .., ?_⟩
  rw [State.pcEnd_of_pcie (State.fwReply_pcie ..)]
  exact State.unbindBridge_free (by omega) hlen (by rw [hend, h3]) (by rw [hend, hc]) 2

/-- A path to another hub can be set up: its operands are in range, and a number, a label and credit are there (R151). -/
def State.setupRoom (s : State) (src hops chain dst tc : Nat) : Bool :=
  s.pathOk src hops chain dst tc && s.freePathId.isSome && hops != 0 && (s.freeLabel ((s.pathPort chain).getD 0)).isSome
    && (s.initCredit ((s.pathPort chain).getD 0) tc).isSome

theorem State.setupRoom_of_accepted {s : State} {owner : PathOwner} {job : Option (Via × Nat)} {src hops chain dst tc contract : Nat} {cut : Bool}
    (h : (s.openPath owner job src hops chain dst tc cut contract).rc = .accepted) : s.setupRoom src hops chain dst tc = true := by
  unfold State.openPath at h
  unfold State.setupRoom
  by_cases hok : s.pathOk src hops chain dst tc = true
  · rw [hok] at h ⊢
    cases hid : s.freePathId with
    | none => rw [hid] at h; simp at h
    | some id =>
      rw [hid] at h
      by_cases h0 : hops = 0
      · simp [h0] at h
      · cases hlab : s.freeLabel ((s.pathPort chain).getD 0) <;> cases hcred : s.initCredit ((s.pathPort chain).getD 0) tc <;>
          simp_all
  · simp [hok] at h

theorem State.openPath_setup {s : State} {src hops chain dst tc : Nat} (h : s.setupRoom src hops chain dst tc = true) (owner : PathOwner)
    (job : Option (Via × Nat)) (cut : Bool) (contract : Nat) :
    (s.openPath owner job src hops chain dst tc cut contract).rc = .accepted
      ∧ (s.openPath owner job src hops chain dst tc cut contract).st.pcie = s.pcie := by
  simp only [State.setupRoom, Bool.and_eq_true, bne_iff_ne, Option.isSome_iff_exists] at h
  obtain ⟨⟨⟨⟨hok, id, hid⟩, h0⟩, label, hlab⟩, credit, hcred⟩ := h
  unfold State.openPath
  rw [hok, if_neg (by decide), hid]
  dsimp only
  rw [if_neg (by simpa using h0), hlab, hcred]
  refine ⟨rfl, ?_⟩
  exact (congrArg State.pcie (State.ashore_ctl ..) :)

/-- The bridge as it is bound, with no contract (R271). -/
def PciEnd.bound (hops chain dport : Nat) (job : Option (Via × Nat)) : PciEnd :=
  { PciEnd.init with hops := hops, chain := chain, dport := dport, contract := 0, job := job }

/-- A bridge bound without a contract: the path of its tunnel is being set up. -/
theorem State.bindBridge_free {s : State} {b hops chain dp p : Nat} (hb : b < 16) (hl : s.pcie.bridges.length = 16) (hp : s.pathPort chain = some p)
    (hroom : s.setupRoom 6 hops chain (targetPxa dp) 4 = true) (cid : Nat) (job : Option (Via × Nat)) :
    (s.bindBridge b hops chain dp 0 0 cid job).rc = .ok
      ∧ ∃ path label, (s.bindBridge b hops chain dp 0 0 cid job).st.pcEnd b = { PciEnd.bound hops chain dp job with path := path, label := label } := by
  have hself : (s.setEnd b fun _ => PciEnd.bound hops chain dp job).pcEnd b = PciEnd.bound hops chain dp job := State.pcEnd_setEnd hb hl _
  have hx : s.bindBridge b hops chain dp 0 0 cid job = ⟨.ok, 0, b, (s.setEnd b fun _ => PciEnd.bound hops chain dp job).bindNext b⟩ := by
    unfold State.bindBridge
    rw [hp]
    rfl
  have hroom' : (s.setEnd b fun _ => PciEnd.bound hops chain dp job).setupRoom 6 hops chain (targetPxa dp) 4 = true := by
    unfold State.setEnd
    rw [if_pos hb]
    exact hroom
  have hlen : (s.setEnd b fun _ => PciEnd.bound hops chain dp job).pcie.bridges.length = 16 := by rw [State.setEnd_bridges_length, hl]
  rw [hx]
  refine ⟨rfl, ?_⟩
  generalize s.setEnd b (fun _ => PciEnd.bound hops chain dp job) = u at hself hroom' hlen
  obtain ⟨hrc, hpcie⟩ := State.openPath_setup hroom' (.pcie b) none true 0
  dsimp only
  unfold State.bindNext
  rw [hself]
  dsimp only [PciEnd.bound, PciEnd.init]
  rw [hrc, if_neg (by decide), State.pcEnd_setEnd hb (by rw [hpcie, hlen]), State.pcEnd_of_pcie hpcie, hself]
  exact ⟨_, _, rfl⟩

theorem pciePortBind_binds {rq : Req} {s : State} {p : Nat} (ha : Admitted Cmd.pciePortBind 16 rq s) (hr : s.jobRoom rq) (h1 : 1 ≤ arg rq 0 1)
    (h15 : arg rq 0 1 ≤ 15) (hh1 : 1 ≤ arg rq 1 1) (hh6 : arg rq 1 1 ≤ 6) (hch : arg rq 2 1 ≤ 1) (hdp : arg rq 3 1 ≤ 3) (hup : s.pcieUp = true)
    (hno : s.targetBound (arg rq 1 1) (arg rq 2 1) (arg rq 3 1) = false) (hfree : (s.pcEnd (arg rq 0 1)).hops = 0)
    (hp : s.pathPort (arg rq 2 1) = some p) (hal : arg rq 4 4 = 0) (hba : arg rq 8 4 = 0)
    (hopen : (s.openPath (.pcie (arg rq 0 1)) none 6 (arg rq 1 1) (arg rq 2 1) (targetPxa (arg rq 3 1)) 4 true 0).rc = .accepted)
    (hl : s.pcie.bridges.length = 16) :
    ∃ t, exec (.pciePortBind rq) s = .next t ∧ t.Replied rq .accepted (s.chan (viaChan rq.via)).freeHandle []
      ∧ (t.pcEnd (arg rq 0 1)).hops = arg rq 1 1 ∧ (t.pcEnd (arg rq 0 1)).chain = arg rq 2 1 ∧ (t.pcEnd (arg rq 0 1)).dport = arg rq 3 1
      ∧ (t.pcEnd (arg rq 0 1)).contract = 0 ∧ (t.pcEnd (arg rq 0 1)).state = 0 := by
  have hear {γ : Type} {φ : State → γ} (hφ : Deaf φ) : φ (s.heard Cmd.pciePortBind rq) = φ s := hφ.heard ..
  have hup' := (hear (φ := State.pcieUp) fun _ _ _ _ _ => rfl).trans hup
  have hno' := (hear (φ := fun u => u.targetBound (arg rq 1 1) (arg rq 2 1) (arg rq 3 1)) fun _ _ _ _ _ => rfl).trans hno
  have hfree' := (hear (φ := fun u => (u.pcEnd (arg rq 0 1)).hops) fun _ _ _ _ _ => rfl).trans hfree
  have hp' := (hear (φ := fun u => u.pathPort (arg rq 2 1)) fun _ _ _ _ _ => rfl).trans hp
  have hroom := (hear (φ := fun u => u.setupRoom 6 (arg rq 1 1) (arg rq 2 1) (targetPxa (arg rq 3 1)) 4) fun _ _ _ _ _ => rfl).trans
    (State.setupRoom_of_accepted hopen)
  have hl' : (s.heard Cmd.pciePortBind rq).pcie.bridges.length = 16 := by rw [State.heard_pcie, hl]
  obtain ⟨hrc, path, label, hend⟩ := State.bindBridge_free (b := arg rq 0 1) (dp := arg rq 3 1) (by omega) hl' hp' hroom (arg rq 12 2)
    (some (rq.via, (s.chan (viaChan rq.via)).freeHandle))
  have hne : (arg rq 0 1 == 0xFF) = false := by simp; omega
  have hbad : ¬ (((arg rq 0 1 != 0xFF) && (arg rq 0 1 == 0 || Decidable.decide (15 < arg rq 0 1))) || arg rq 1 1 == 0
      || Decidable.decide (6 < arg rq 1 1) || Decidable.decide (1 < arg rq 2 1) || Decidable.decide (3 < arg rq 3 1)
      || !(s.heard Cmd.pciePortBind rq).pcieUp
      || (s.heard Cmd.pciePortBind rq).targetBound (arg rq 1 1) (arg rq 2 1) (arg rq 3 1)) = true := by
    rw [hup', hno']
    simp
    omega
  have hx := exec_accepted (i := .pciePortBind rq) (p := none) (f := none) (v := none) (data := [])
    (u := ((s.heard Cmd.pciePortBind rq).bindBridge (arg rq 0 1) (arg rq 1 1) (arg rq 2 1) (arg rq 3 1) 0 0 (arg rq 12 2)
      (some (rq.via, (s.chan (viaChan rq.via)).freeHandle))).st) rfl ha hr (by
      dsimp only
      rw [if_neg hbad, hne, if_neg (by decide)]
      dsimp only
      rw [hfree', if_neg (by decide), hal, hba, hrc, if_neg (by decide)]
      rfl)
  refine ⟨_, hx, State.fwReply_replied .., ?_⟩
  rw [State.pcEnd_of_pcie (State.fwReply_pcie ..), State.pcEnd_of_pcie (State.addJob_pcie ..), hend]
  exact ⟨rfl, rfl, rfl, rfl, rfl⟩

/-! ### USB -/

theorem usbShow_shows : Shows .usbShow Cmd.usbShow 0 (fun _ _ => True) (fun _ s =>
      leBytes 1 (nth s.topo.ends 5 0) ++ leBytes 1 s.usb.upstream
        ++ leBytes 2 (packBits (false :: false :: s.usb.remotes.map fun r => Decidable.decide (2 ≤ r.state))) ++ leBytes 1 s.keepState ++ zeros 3
        ++ leBytes 4 s.stagingUse ++ leBytes 4 s.usb.aborted) :=
  shows_plain (fun _ _ => rfl) (fun _ _ _ _ _ _ => rfl) (fun _ _ _ _ _ _ => rfl) fun _ _ _ _ => rfl

theorem usbPortShow_shows : Shows .usbPortShow Cmd.usbPortShow 1 (fun rq s => 1 ≤ arg rq 0 1 ∧ arg rq 0 1 ≤ 4 ∧ s.isUsbHub = true) (fun rq s =>
      let x := s.usbPort (arg rq 0 1)
      leBytes 1 x.code ++ leBytes 1 x.speed ++ leBytes 1 (b2n x.kept) ++ zeros 1 ++ leBytes 8 x.txs ++ leBytes 8 x.deferrals
        ++ leBytes 4 x.discards ++ leBytes 4 x.trips) :=
  shows_plain (fun _ _ => rfl) (fun _ _ _ _ _ _ => rfl) (fun _ _ _ _ _ _ => rfl) fun _ _ _ ⟨h1, h4, hub⟩ => if_neg (by simp [hub]; omega)

theorem usbKeepaliveShow_shows : Shows .usbKeepaliveShow Cmd.usbKeepaliveShow 0 (fun _ s => s.usb.absent = false) (fun _ s =>
      leBytes 1 s.keepState ++ leBytes 1 s.keptCount ++ leBytes 2 s.usb.hid.length ++ leBytes 4 s.usb.replayed
        ++ leBytes 4 s.usb.aged ++ leBytes 4 0) :=
  shows_plain (fun _ _ => rfl) (fun _ _ _ _ _ _ => rfl) (fun _ _ _ _ _ _ => rfl) fun _ s _ h => by
    dsimp only
    rw [h, if_neg (by decide)]

theorem usbPortPower_fails : Fails .usbPortPower Cmd.usbPortPower 2 (fun _ s => s.isUsbHub = false) .badState :=
  fails_plain (fun _ _ => rfl) (fun _ _ _ _ _ _ => rfl) rfl fun _ _ _ h => if_pos (by simp [h])

theorem usbClear_does : Does .usbClear Cmd.usbClear 1 (fun rq _ => arg rq 0 1 = 255) (fun _ s => { s with usb := { s.usb with
        ports := s.usb.ports.map fun x => { x with txs := 0, deferrals := 0, discards := 0, trips := 0 }
        aborted := 0, underruns := 0, replayed := 0, aged := 0 } }) (fun _ _ => []) :=
  does_plain (fun _ _ => rfl) (fun _ _ _ _ _ _ => rfl) (fun _ _ _ _ _ _ => rfl) (fun _ _ _ _ _ _ => rfl) fun rq s _ h => by
    dsimp only
    rw [h, if_pos (by decide)]
    rfl

theorem State.still_sendUsbPort (s : State) (k changes : Nat) : (s.sendUsbPort k changes).still = s.still := by
  unfold State.sendUsbPort State.usbUpFrame
  dsimp only
  split
  · split_ifs
    · rfl
    · exact State.still_emit ..
  · rfl

/-- A port whose power is taken away, its VBUS switched off (R303). -/
def State.portOff (s : State) (k : Nat) : State := (s.setUsbPort k fun x => { x with power := false, powerWait := false }).vbusOff (k + 1)

/-- The switch as it is left, without the output that tells it. -/
def State.vswOff (s : State) (k : Nat) : State := s.setVsw k fun v => { v with
  state := if v.state == 3 then 3 else 0, target := 0, settled := v.mv < 800, wants := none, bleed := !(v.mv < 800) }

theorem State.still_vbusOff (s : State) (k : Nat) : (s.vbusOff k).still = (s.vswOff k).still := by
  unfold State.vbusOff
  dsimp only
  split_ifs
  · rfl
  · exact State.still_emit ..

theorem State.vbusOff_usb (s : State) (k : Nat) : (s.vbusOff k).usb = s.usb := (congrArg State.usb (s.still_vbusOff k) :)

theorem State.still_portOff_heard (row : CmdRow) (rq : Req) (s : State) (k : Nat) : ((s.heard row rq).portOff k).still = (s.portOff k).still := by
  unfold State.portOff
  rw [State.still_vbusOff, State.still_vbusOff]
  exact Aside.heard (f := fun u => (u.setUsbPort k fun x => { x with power := false, powerWait := false }).vswOff (k + 1))
    (fun _ _ _ _ _ => rfl) row rq s

/-- Power taken away from a port with nothing connected leaves no more than that. -/
theorem State.setPortPower_off {s : State} {k : Nat} (h : (s.usbPort k).connected = false) : s.setPortPower k false = (s.portOff k).sendUsbPort k 0 := by
  have hc : ((s.portOff k).usbPort k).connected = false := by
    unfold State.usbPort State.portOff
    rw [State.vbusOff_usb]
    exact (nth_modify_congr UsbPort.connected (fun x : UsbPort => { x with power := false, powerWait := false }) (fun _ => rfl) ..).trans h
  have hconn : (s.portOff k).usbConnect k false = s.portOff k := by
    unfold State.usbConnect
    rw [hc, if_pos (by decide)]
  unfold State.setPortPower
  rw [if_neg (by simp), if_neg (by decide)]
  show ((s.portOff k).usbConnect k false).sendUsbPort k 0 = _
  rw [hconn]

theorem usbPortPower_does : Does .usbPortPower Cmd.usbPortPower 2
      (fun rq s => 1 ≤ arg rq 0 1 ∧ arg rq 0 1 ≤ 4 ∧ s.isUsbHub = true ∧ arg rq 1 1 = 0 ∧ (s.usbPort (arg rq 0 1)).connected = false)
      (fun rq s => (s.setUsbPort (arg rq 0 1) fun x => { x with power := false, powerWait := false }).vbusOff (arg rq 0 1 + 1))
      (fun _ _ => []) :=
  does_of _ (fun _ _ => rfl) fun rq s _ ⟨h1, h4, hub, hoff, hno⟩ h => by
    have hub' : (s.heard Cmd.usbPortPower rq).isUsbHub = true := (Deaf.heard (φ := State.isUsbHub) (fun _ _ _ _ _ => rfl) _ rq s).trans hub
    have hno' : ((s.heard Cmd.usbPortPower rq).usbPort (arg rq 0 1)).connected = false := by
      rwa [State.usbPort, State.heard_usb]
    refine ⟨((s.heard Cmd.usbPortPower rq).portOff (arg rq 0 1)).sendUsbPort (arg rq 0 1) 0, none, none, ?_, ?_⟩
    · rw [hub', if_neg (by simp; omega), hoff]
      exact congrArg (fun w => Ans.done w) (State.setPortPower_off hno')
    · rw [State.still_sendUsbPort]
      exact State.still_portOff_heard ..

/-- Settles O25, clause by clause. -/
theorem pcieAndUsbCommands : Obligations.PcieAndUsbCommands :=
  ⟨⟨pcieShow_shows, fun _ _ _ ha hr h1 h15 hh1 hh6 hch hdp hup hno hfree hp hal hba hopen hl =>
        pciePortBind_binds ha hr h1 h15 hh1 hh6 hch hdp hup hno hfree hp hal hba hopen hl,
      fun _ _ ha h1 h15 h3 hp hc hl => pciePortUnbind_unbinds ha h1 h15 h3 hp hc hl, pciePortUnbind_fails, pcieBridgeShow_shows,
      pcieSlotPower_does, pcieSlotPower_fails, pcieClear_does⟩,
    usbShow_shows, usbPortShow_shows, usbPortPower_does, usbPortPower_fails, usbKeepaliveShow_shows, usbClear_does⟩

end Sys2Proof.Machine

/-! The power path and cable power commands (Tables 16.8, 16.9 and 17.4; R413, R415 to R418, R421, R427, R428, R445). -/
namespace Sys2Proof.Machine

/-! ### The power path -/

theorem ppathShow_shows : Shows .ppathShow Cmd.ppathShow 0 (fun _ _ => True) (fun _ s =>
      let f := fun (n : Nat) => leBytes 1 (b2n (s.feed n).present) ++ leBytes 1 (s.feedSrc n) ++ zeros 2 ++ leBytes 4 (s.feed n).mv
        ++ leBytes 4 (s.feed n).ma ++ leBytes 4 (s.feedLimit n)
      f 0 ++ f 1 ++ leBytes 4 s.ppath.pIn ++ leBytes 4 s.ppath.pOut ++ leBytes 4 s.ppath.pFeed ++ leBytes 4 s.ppath.sheds) :=
  shows_plain (fun _ _ => rfl) (fun _ _ _ _ _ _ => rfl) (fun _ _ _ _ _ _ => rfl) fun _ _ _ _ => rfl

theorem ppathBayShow_shows : Shows .ppathBayShow Cmd.ppathBayShow 1 (fun rq _ => arg rq 0 1 ≤ 3) (fun rq s =>
      let x := s.bay (arg rq 0 1)
      leBytes 1 x.state.code ++ leBytes 1 (b2n x.pg) ++ leBytes 1 (b2n x.request + 2 * b2n x.inhibit) ++ leBytes 1 x.cause
        ++ leBytes 4 x.mv ++ leBytes 4 x.ma ++ leInt 2 (x.temp.getD 0 / 100000) ++ leBytes 1 x.retries ++ zeros 1 ++ leBytes 4 x.count
        ++ leBytes 4 (s.retryLeft (arg rq 0 1)) ++ leBytes 4 x.faults) :=
  shows_plain (fun _ _ => rfl) (fun _ _ _ _ _ _ => rfl) (fun _ _ _ _ _ _ => rfl) fun _ _ _ h => if_neg (Nat.not_lt.mpr h)

theorem ppathVbusShow_shows : Shows .ppathVbusShow Cmd.ppathVbusShow 1 (fun rq _ => arg rq 0 1 ≤ 5) (fun rq s =>
      let v := s.vsw (arg rq 0 1)
      leBytes 1 v.state ++ leBytes 1 v.rail ++ zeros 2 ++ leBytes 4 v.mv ++ leBytes 4 v.ma
        ++ leBytes 4 (if v.state == 1 then s.vbusLimit (arg rq 0 1) else 0) ++ leBytes 4 v.faults) :=
  shows_plain (fun _ _ => rfl) (fun _ _ _ _ _ _ => rfl) (fun _ _ _ _ _ _ => rfl) fun _ _ _ h => if_neg (Nat.not_lt.mpr h)

theorem ppathClear_does : Does .ppathClear Cmd.ppathClear 0 (fun _ _ => True) (fun _ s => { s with ppath := { s.ppath with
        bays := s.ppath.bays.map fun x => { x with faults := 0 }, vbus := s.ppath.vbus.map fun v => { v with faults := 0 }, sheds := 0 } })
      (fun _ _ => []) :=
  does_plain (fun _ _ => rfl) (fun _ _ _ _ _ _ => rfl) (fun _ _ _ _ _ _ => rfl) (fun _ _ _ _ _ _ => rfl) fun _ _ _ _ => rfl

theorem ppathBayPower_off : Does .ppathBayPower Cmd.ppathBayPower 2
      (fun rq s => arg rq 0 1 ≤ 3 ∧ arg rq 1 1 = 0 ∧ (s.bay (arg rq 0 1)).state = .unseated)
      (fun rq s => s.setBay (arg rq 0 1) fun x => { x with request := false, shed := false }) (fun _ _ => []) :=
  does_plain (fun _ _ => rfl) (fun _ _ _ _ _ _ => rfl) (fun _ _ _ _ _ _ => rfl) (fun _ _ _ _ _ _ => rfl) fun rq s _ ⟨hb, h0, hst⟩ => by
    rw [h0]
    dsimp only
    rw [if_neg (Nat.not_lt.mpr hb), State.bayRequest_unseated hst]
    rfl

theorem ppathBayPower_fails : Fails .ppathBayPower Cmd.ppathBayPower 2 (fun rq _ => 3 < arg rq 1 1) .badState :=
  fails_plain (fun _ _ => rfl) (fun _ _ _ _ _ _ => rfl) rfl fun rq s _ h => by
    obtain ⟨k, hk⟩ : ∃ k, arg rq 1 1 = k + 4 := ⟨arg rq 1 1 - 4, by omega⟩
    rw [hk]
    rfl

/-- A bay that is off, and may be on, ramps once it is asked for (R445). -/
theorem State.bayReq_ramps {s : State} {b : Nat} (hb : b < s.ppath.bays.length) (hst : (s.bay b).state = .off) (hw : (s.bay b).wantsOn = true)
    (hc : (s.bay b).cool = true) (hr : (s.bay b).retry = false) (hpg : (s.bay b).pg = false) (hrom : s.romNow = false) :
    ((s.bayReq b).bay b).state = .ramp ∧ ((s.bayReq b).bay b).request = (s.bay b).request ∧ ((s.bayReq b).bay b).shed = (s.bay b).shed := by
  have hx : s.bayReq b = s.bayTo b .ramp := by
    unfold State.bayReq State.bayTry
    dsimp only
    rw [hst, hrom, hw, hc, hr]
    rfl
  have hp : s.pgFall b = s := by
    unfold State.pgFall
    rw [hpg, if_neg (by decide)]
  rw [hx]
  unfold State.bayTo
  rw [if_neg (by decide), hp]
  have hself := State.bay_setBay (s := s) hb fun x => { x with
    state := .ramp, count := if BayState.ramp == .ramp && x.state != .limit then 0 else x.count, ma := if BayState.ramp.conducts then x.ma else 0
    rampTick := if BayState.ramp == .ramp && x.state != .limit then s.time.tick else x.rampTick }
  exact ⟨(congrArg BaySt.state hself :), (congrArg BaySt.request hself :), (congrArg BaySt.shed hself :)⟩

theorem ppathBayPower_ramps {rq : Req} {s : State} (ha : Admitted Cmd.ppathBayPower 2 rq s) (hb : arg rq 0 1 ≤ 3) (h1 : arg rq 1 1 = 1)
    (hl : s.ppath.bays.length = 4) (hst : (s.bay (arg rq 0 1)).state = .off) (hi : (s.bay (arg rq 0 1)).inhibit = false)
    (hc : (s.bay (arg rq 0 1)).cool = true) (hr : (s.bay (arg rq 0 1)).retry = false) (hpg : (s.bay (arg rq 0 1)).pg = false)
    (hrom : s.romNow = false) :
    ∃ t, exec (.ppathBayPower rq) s = .next t ∧ t.Replied rq .ok 0 [] ∧ (t.bay (arg rq 0 1)).state = .ramp
      ∧ (t.bay (arg rq 0 1)).request = true ∧ (t.bay (arg rq 0 1)).shed = false := by
  have hbay : (s.heard Cmd.ppathBayPower rq).bay (arg rq 0 1) = s.bay (arg rq 0 1) := by rw [State.bay, State.heard_ppath]; rfl
  have hrom' : (s.heard Cmd.ppathBayPower rq).romNow = false := (Deaf.heard (φ := State.romNow) (fun _ _ _ _ _ => rfl) _ rq s).trans hrom
  have hlen : arg rq 0 1 < (s.heard Cmd.ppathBayPower rq).ppath.bays.length := by rw [State.heard_ppath, hl]; omega
  have hself := State.bay_setBay hlen fun x => { x with request := true, shed := false }
  rw [hbay] at hself
  have hx := exec_answered (i := .ppathBayPower rq)
    (u := ((s.heard Cmd.ppathBayPower rq).setBay (arg rq 0 1) fun x => { x with request := true, shed := false }).bayReq (arg rq 0 1))
    (data := []) (p := none) (f := none) (v := none) (nj := false) (rc := .ok) rfl ha rfl rfl (by
      dsimp only
      rw [h1]
      simp only
      rw [if_neg (Nat.not_lt.mpr hb), hself]
      dsimp only
      rw [hst]
      rfl)
  have hgen (w : State) (m : Msg) (rc : Rc) (h : Nat) (d : List Byte) (b : Nat) : (w.fwReply m rc h d).bay b = w.bay b := by
    rw [State.bay, State.fwReply_ppath]
    rfl
  refine ⟨_, hx, State.fwReply_replied .., ?_⟩
  rw [hgen]
  generalize hu : (s.heard Cmd.ppathBayPower rq).setBay (arg rq 0 1) (fun x => { x with request := true, shed := false }) = u at hself
  have hlen' : arg rq 0 1 < u.ppath.bays.length := by rw [← hu]; simpa [State.setBay] using hlen
  have hwants : (u.bay (arg rq 0 1)).wantsOn = true := by rw [hself]; simp [BaySt.wantsOn, hi]
  have hromu : u.romNow = false := by rw [← hu]; exact hrom'
  obtain ⟨h1, h2, h3⟩ := State.bayReq_ramps hlen' (by rw [hself]; exact hst) hwants (by rw [hself]; exact hc) (by rw [hself]; exact hr)
    (by rw [hself]; exact hpg) hromu
  exact ⟨h1, by rw [h2, hself], by rw [h3, hself]⟩

/-! ### Messages of a configuration channel -/

/-- A message that nothing holds up goes out: on the wire, and waiting for its GoodCRC (R413). -/
theorem State.still_pdSend_idle {s : State} {k : Nat} (hrom : s.romNow = false) (hsent : (s.chn k).sent = none) (kind : PdKind) (objs : List Word)
    (what : PdFor) : (s.pdSend k kind objs what).still = (s.onWire k kind objs what).still := by
  unfold State.pdSend
  rw [hrom, hsent]
  exact State.still_emit ..

/-- The first message of a sequence that need not wait goes out at once (R414). -/
theorem State.startAms_idle {s : State} {k : Nat} (hw : (s.chn k).amsWaits = false) (kind : PdKind) (objs : List Word) (what : PdFor) (sop : Nat) :
    s.startAms k kind objs what sop = s.pdSend k kind objs what sop := by
  unfold State.startAms
  dsimp only
  rw [hw, if_neg (by simp)]

theorem State.chn_setChn_congr {γ : Type} (φ : CcSt → γ) (f : CcSt → CcSt) (hf : ∀ c, φ (f c) = φ c) (s : State) (k j : Nat) :
    φ ((s.setChn k f).chn j) = φ (s.chn j) := nth_modify_congr φ f hf ..

theorem State.chn_setChn {s : State} {k : Nat} (hk : k < s.cc.length) (f : CcSt → CcSt) : (s.setChn k f).chn k = f (s.chn k) :=
  nth_modify_same f _ _ _ hk

theorem State.chn_heard (row : CmdRow) (rq : Req) (s : State) (k : Nat) : (s.heard row rq).chn k = s.chn k := by
  simp only [State.chn, State.heard_cc]

theorem State.romNow_setChn (s : State) (k : Nat) (f : CcSt → CcSt) : (s.setChn k f).romNow = s.romNow := rfl

theorem State.romNow_ccStop (s : State) (k : Nat) (t : CcTimer) : (s.ccStop k t).romNow = s.romNow := rfl

theorem State.romNow_heard (row : CmdRow) (rq : Req) (s : State) : (s.heard row rq).romNow = s.romNow :=
  Deaf.heard (φ := State.romNow) (fun _ _ _ _ _ => rfl) row rq s

/-! ### Shows and what is set -/

theorem cpwrShow_shows : Shows .cpwrShow Cmd.cpwrShow 1 (fun rq _ => arg rq 0 1 ≤ 5) (fun rq s =>
      let c := s.chn (arg rq 0 1)
      leBytes 1 c.state
        ++ leBytes 1 (b2n c.src + 2 * b2n c.dfp + 4 * b2n c.vconnSrc + 8 * b2n c.pinB5 + 16 * b2n c.ra + 32 * b2n c.pd + 64 * c.rev)
        ++ leBytes 1 c.contract ++ leBytes 1 (c.position + 128 * b2n c.quiet) ++ leBytes 2 c.mv ++ leBytes 2 c.ma ++ leBytes 4 c.contrib
        ++ leBytes 1 (c.mode + 128 * b2n (c.armed != 0)) ++ leBytes 1 c.queue.length ++ zeros 2 ++ leBytes 4 c.hardResets
        ++ leBytes 4 c.msgFails) :=
  shows_plain (fun _ _ => rfl) (fun _ _ _ _ _ _ => rfl) (fun _ _ _ _ _ _ => rfl) fun _ _ _ h => if_neg (Nat.not_lt.mpr h)

theorem cpwrDiscoverShow_shows : Shows .cpwrDiscoverShow Cmd.cpwrDiscoverShow 2 (fun rq _ => arg rq 0 1 ≤ 5 ∧ arg rq 1 1 ≤ 1) (fun rq s =>
      let c := s.chn (arg rq 0 1)
      let sop := arg rq 1 1 == 0
      let l := if sop then c.idSop else c.idCable
      let sv := if sop then c.svids else []
      leBytes 1 (b2n !l.isEmpty) ++ zeros 3 ++ wordBytes 3 l ++ wordBytes 3 (l.drop 3) ++ leBytes 1 sv.length ++ zeros 3
        ++ (upTo 16).flatMap (fun i => leBytes 2 (nth sv i 0)) ++ leBytes 4 (if sop then c.vendorVdo.toNat else 0)
        ++ leBytes 4 (if sop then c.dpVdo.toNat else 0)) :=
  shows_plain (fun _ _ => rfl) (fun _ _ _ _ _ _ => rfl) (fun _ _ _ _ _ _ => rfl) fun _ _ _ h => if_neg (by simp; omega)

theorem cpwrCapsSet_does : Does .cpwrCapsSet Cmd.cpwrCapsSet 8
      (fun rq _ => arg rq 0 1 ≤ 5 ∧ arg rq 1 1 = 1 ∧ 1 ≤ arg rq 2 1 ∧ arg rq 2 1 ≤ 11 ∧ 4 + 4 * arg rq 2 1 ≤ rq.payload.length)
      (fun rq s => s.setChn (arg rq 0 1) fun c => { c with snkCaps := wordsAt rq 4 (arg rq 2 1) }) (fun _ _ => []) :=
  does_plain (fun _ _ => rfl) (fun _ _ _ _ _ _ => rfl) (fun _ _ _ _ _ _ => rfl) (fun _ _ _ _ _ _ => rfl)
    fun rq s _ ⟨hk, h1, hn, hn11, hlen⟩ => by
    dsimp only
    rw [h1, if_neg (by simp; omega), if_neg (by omega), if_neg (by decide)]
    rfl

theorem cpwrCapsSet_fails : Fails .cpwrCapsSet Cmd.cpwrCapsSet 8
      (fun rq _ => arg rq 1 1 = 0 ∧ 1 ≤ arg rq 2 1 ∧ arg rq 2 1 ≤ 11 ∧ 4 + 4 * arg rq 2 1 ≤ rq.payload.length
        ∧ ∃ p ∈ wordsAt rq 4 (arg rq 2 1), pdoFixed p = false) .badState :=
  fails_plain (fun _ _ => rfl) (fun _ _ _ _ _ _ => rfl) rfl fun rq s _ ⟨h0, hn, hn11, hlen, p, hp, hfix⟩ => by
    have hany : ((wordsAt rq 4 (arg rq 2 1)).any fun p => !pdoFixed p || (s.railFor (arg rq 0 1) (pdoMv p)).isNone) = true :=
      List.any_eq_true.mpr ⟨p, hp, by simp [hfix]⟩
    dsimp only
    by_cases h5 : (Decidable.decide (5 < arg rq 0 1) || Decidable.decide (1 < arg rq 1 1) || arg rq 2 1 == 0 || Decidable.decide (11 < arg rq 2 1)) = true
    · rw [if_pos h5]
    · rw [if_neg h5, if_neg (by omega), hany, h0, if_pos (by decide), if_pos (by simp)]

theorem cpwrMsgRecv_empty : Shows .cpwrMsgRecv Cmd.cpwrMsgRecv 1 (fun rq s => arg rq 0 1 ≤ 5 ∧ (s.chn (arg rq 0 1)).queue = []) (fun _ _ => []) :=
  shows_plain (fun _ _ => rfl) (fun _ _ _ _ _ _ => rfl) (fun _ _ _ _ _ _ => rfl) fun rq s _ ⟨hk, hq⟩ => by
    dsimp only
    rw [if_neg (Nat.not_lt.mpr hk), hq]

theorem cpwrMsgRecv_takes (q : PdQueued) (l : List PdQueued) : Does .cpwrMsgRecv Cmd.cpwrMsgRecv 1
      (fun rq s => arg rq 0 1 ≤ 5 ∧ (s.chn (arg rq 0 1)).queue = q :: l)
      (fun rq s => s.setChn (arg rq 0 1) fun c => { c with queue := l })
      (fun _ _ => leBytes 1 l.length ++ leBytes 1 q.sop ++ leBytes 2 q.header.toNat
          ++ leBytes 6 q.tick.toNat ++ zeros 2 ++ wordBytes q.objs.length q.objs) :=
  does_plain (fun _ _ => rfl) (fun _ _ _ _ _ _ => rfl) (fun _ _ _ _ _ _ => rfl) (fun _ _ _ _ _ _ => rfl) fun rq s _ ⟨hk, hq⟩ => by
    dsimp only
    rw [if_neg (Nat.not_lt.mpr hk), hq]
    rfl

/-! ### Failures -/

theorem cpwrAnswer_fails : Fails .cpwrAnswer Cmd.cpwrAnswer 2 (fun rq s => (s.chn (arg rq 0 1)).asked = none) .badState :=
  fails_plain (fun _ _ => rfl) (fun _ _ _ _ _ _ => rfl) rfl fun rq s _ h => by
    dsimp only
    rw [h, ite_self]

theorem cpwrSwap_busy : Fails .cpwrSwap Cmd.cpwrSwap 2
      (fun rq s => arg rq 0 1 ≤ 1 ∧ arg rq 1 1 ≤ 2 ∧ (s.chn (arg rq 0 1)).attached = true ∧ (s.chn (arg rq 0 1)).swap ≠ none) .busy :=
  fails_plain (fun _ _ => rfl) (fun _ _ _ _ _ _ => rfl) rfl fun rq s _ ⟨hk, hkind, hatt, hswap⟩ => by
    dsimp only
    rw [if_neg (by simp [hatt]; omega), if_pos (by simp [Option.isSome_iff_ne_none, hswap])]

theorem cpwrModeEnter_fails : Fails .cpwrModeEnter Cmd.cpwrModeEnter 2 (fun rq s => 2 ≤ arg rq 1 1 ∧ s.dpPermitted (arg rq 0 1) = false) .badState :=
  fails_plain (fun _ _ => rfl) (fun _ _ _ _ _ _ => rfl) rfl fun rq s _ ⟨h2, hno⟩ => if_pos (by simp [h2, hno])

theorem cpwrMuxSet_fails : Fails .cpwrMuxSet Cmd.cpwrMuxSet 2 (fun rq s => arg rq 1 1 = 5 ∧ s.topo.role ≠ .hostside) .badState :=
  fails_plain (fun _ _ => rfl) (fun _ _ _ _ _ _ => rfl) rfl fun rq s _ ⟨h5, hrole⟩ => by
    dsimp only
    rw [h5, if_pos (by simp [hrole])]

theorem cpwrMsgSend_fails : Fails .cpwrMsgSend Cmd.cpwrMsgSend 4 (fun rq s => (s.chn (arg rq 0 1)).attached = false) .badState :=
  fails_plain (fun _ _ => rfl) (fun _ _ _ _ _ _ => rfl) rfl fun rq s _ h => if_pos (by simp [h])

theorem cpwrHardreset_sop' : Does .cpwrHardreset Cmd.cpwrHardreset 2 (fun rq s => arg rq 0 1 ≤ 5 ∧ arg rq 1 1 = 1 ∧ (s.chn (arg rq 0 1)).attached = true)
      (fun _ s => s) (fun _ _ => []) :=
  does_of _ (fun _ _ => rfl) fun rq s _ ⟨hk, h1, hatt⟩ h => ⟨(s.heard Cmd.cpwrHardreset rq).emit (.hardReset (arg rq 0 1) 1), none, none, by
    dsimp only
    rw [State.chn_heard, hatt, h1, if_neg (by simp; omega), if_pos (by decide)]
    rfl, by rw [State.still_emit, State.still_heard]⟩

theorem cpwrModeEnter_arms : Does .cpwrModeEnter Cmd.cpwrModeEnter 2
      (fun rq s => arg rq 0 1 ≤ 1 ∧ arg rq 1 1 = 1 ∧ (s.chn (arg rq 0 1)).attached = true ∧ (s.chn (arg rq 0 1)).dfp = false)
      (fun rq s => s.setChn (arg rq 0 1) fun c => { c with armed := 1 }) (fun _ _ => []) :=
  does_plain (fun _ _ => rfl) (fun _ _ _ _ _ _ => rfl) (fun _ _ _ _ _ _ => rfl) (fun _ _ _ _ _ _ => rfl) fun rq s _ ⟨hk, h1, hatt, hdfp⟩ => by
    dsimp only
    rw [h1, hatt, hdfp, if_neg (by simp; omega)]
    rfl

/-! ### Commands that send a message -/

theorem cpwrRequest_fails : Starts .cpwrRequest Cmd.cpwrRequest 8 (fun rq s => arg rq 0 1 ≤ 5 ∧ (s.chn (arg rq 0 1)).state ≠ 5) (fun _ s => s)
      (fun _ _ => some (Rc.badState.code, [])) :=
  starts_plain (fun _ _ => rfl) (fun _ _ _ _ _ _ => rfl) (fun _ _ _ _ _ _ => rfl) (fun _ _ _ _ _ _ => rfl) fun rq s _ ⟨hk, hst⟩ => by
    dsimp only
    rw [if_neg (Nat.not_lt.mpr hk), if_pos (by simpa using hst)]

theorem Aside.onWire {f : State → State} (hf : Aside f) (k : Nat) (kind : PdKind) (objs : List Word) (what : PdFor) :
    Aside fun u => (f u).onWire k kind objs what := by
  intro u o m r v
  dsimp only
  rw [hf]
  rfl

/-- A long command that sets what it sets and sends a message that nothing holds up. -/
theorem starts_on_wire {c : Req → Instr} {row : CmdRow} {min : Nat} {ok : Req → State → Prop} {body : Req → Nat → State → Ans}
    (hx : ∀ rq s, exec (c rq) s = command row min rq s (body rq)) (hok : ∀ rq, Deaf (ok rq)) {k : Req → Nat} {prep : Req → Nat → State → State}
    {kind : Req → PdKind} {objs : Req → List Word} {what : Req → Nat → PdFor} (hprep : ∀ rq h, Aside (prep rq h))
    (hkeep : ∀ rq h u, ok rq u → (prep rq h u).romNow = false ∧ ((prep rq h u).chn (k rq)).sent = none)
    (hb : ∀ rq u h, ok rq u → body rq h u = .long ((prep rq h u).pdSend (k rq) (kind rq) (objs rq) (what rq h)) none) :
    Starts c row min ok (fun rq s => (prep rq (s.chan (viaChan rq.via)).freeHandle s).onWire (k rq) (kind rq) (objs rq)
      (what rq (s.chan (viaChan rq.via)).freeHandle)) (fun _ _ => none) :=
  starts_of body hx fun rq s _ _ ho h hh => by
    have hu : ok rq (s.heard row rq) := ((hok rq).heard row rq s).mpr ho
    obtain ⟨hrom, hsent⟩ := hkeep rq h _ hu
    refine ⟨_, none, none, hb rq _ h hu, ?_⟩
    rw [State.still_pdSend_idle hrom hsent, hh]
    exact ((hprep rq _).onWire (k rq) (kind rq) (objs rq) (what rq _)).heard row rq s

/-- What a `cpwr.request` notes before its message goes out (R416). -/
def State.requesting (s : State) (k : Nat) (rdo : Word) (job : Via × Nat) : State :=
  let p := ((s.chn k).farCaps[rdoPos rdo - 1]?).getD 0
  (s.setChn k fun c => { c with nextMv := pdoMv p, nextMa := rdoMa rdo, waiting := .request, reqJob := some job }).ccStop k .snkRequestWait

theorem cpwrRequest_starts : Starts .cpwrRequest Cmd.cpwrRequest 8
      (fun rq s => arg rq 0 1 ≤ 5 ∧ (s.chn (arg rq 0 1)).state = 5 ∧ (s.chn (arg rq 0 1)).reqJob = none
        ∧ (s.chn (arg rq 0 1)).sent = none ∧ s.romNow = false)
      (fun rq s =>
        let rdo : Word := BitVec.ofNat 32 (arg rq 4 4)
        let p := ((s.chn (arg rq 0 1)).farCaps[rdoPos rdo - 1]?).getD 0
        ((s.setChn (arg rq 0 1) fun c => { c with
          nextMv := pdoMv p, nextMa := rdoMa rdo, waiting := .request
          reqJob := some (rq.via, (s.chan (viaChan rq.via)).freeHandle) }).ccStop (arg rq 0 1) .snkRequestWait).onWire
          (arg rq 0 1) .request [rdo] .request) (fun _ _ => none) :=
  starts_on_wire (k := fun rq => arg rq 0 1) (prep := fun rq h s => s.requesting (arg rq 0 1) (BitVec.ofNat 32 (arg rq 4 4)) (rq.via, h))
    (kind := fun _ => .request) (objs := fun rq => [BitVec.ofNat 32 (arg rq 4 4)]) (what := fun _ _ => .request)
    (fun _ _ => rfl) (fun _ _ _ _ _ _ => rfl) (fun _ _ _ _ _ _ _ => rfl)
    (fun rq h u ⟨_, _, _, hsent, hrom⟩ => ⟨hrom, by
      exact (State.chn_setChn_congr CcSt.sent _ (by intro _; rfl) ..).trans ((State.chn_setChn_congr CcSt.sent _ (by intro _; rfl) ..).trans hsent)⟩)
    fun rq u h ⟨hk, hst, hjob, _, _⟩ => by
      dsimp only
      rw [hst, hjob, if_neg (Nat.not_lt.mpr hk), if_neg (by decide), if_neg (by decide)]
      rfl

/-- Two updates that agree on a channel as it is are one. -/
theorem State.setChn_congr {s : State} {k : Nat} {f g : CcSt → CcSt} (h : f (s.chn k) = g (s.chn k)) : s.setChn k f = s.setChn k g := by
  have hmod : s.cc.modify k f = s.cc.modify k g := by
    refine List.ext_getElem? fun i => ?_
    rw [List.getElem?_modify, List.getElem?_modify]
    by_cases hk : k = i
    · subst hk
      cases hi : s.cc[k]? with
      | none => rfl
      | some c =>
        have hc : s.chn k = c := by simp [State.chn, nth, List.getD_eq_getElem?_getD, hi]
        rw [hc] at h
        simp [h]
    · simp [hk]
  unfold State.setChn
  rw [hmod]

theorem cpwrSwap_starts : Starts .cpwrSwap Cmd.cpwrSwap 2
      (fun rq s => arg rq 0 1 ≤ 1 ∧ arg rq 1 1 = 1 ∧ (s.chn (arg rq 0 1)).state = 5 ∧ (s.chn (arg rq 0 1)).amsWaits = false
        ∧ (s.chn (arg rq 0 1)).swap = none ∧ (s.chn (arg rq 0 1)).queued = none ∧ (s.chn (arg rq 0 1)).sent = none ∧ s.romNow = false)
      (fun rq s => (s.setChn (arg rq 0 1) fun c => { c with
        swap := some ⟨1, true, 1, some (rq.via, (s.chan (viaChan rq.via)).freeHandle)⟩, waiting := .swap }).onWire
        (arg rq 0 1) .drSwap [] .swap) (fun _ _ => none) :=
  starts_on_wire (k := fun rq => arg rq 0 1) (prep := fun rq h s => s.setChn (arg rq 0 1) fun c => { c with
        swap := some ⟨1, true, 1, some (rq.via, h)⟩, waiting := .swap })
    (kind := fun _ => .drSwap) (objs := fun rq => []) (what := fun _ _ => .swap)
    (fun _ _ => rfl) (fun _ _ _ _ _ _ => rfl) (fun _ _ _ _ _ _ _ => rfl)
    (fun rq h u ⟨_, _, _, _, _, _, hsent, hrom⟩ => ⟨hrom, (State.chn_setChn_congr CcSt.sent _ (by intro _; rfl) ..).trans hsent⟩)
    fun rq u h ⟨hk, h1, hst, hams, hswap, hq, _, _⟩ => by
      have hatt : (u.chn (arg rq 0 1)).attached = true := by simp [CcSt.attached, hst]
      have hset : (u.setChn (arg rq 0 1) fun c => { c with swap := some ⟨1, true, b2n !c.amsWaits, some (rq.via, h)⟩, waiting := .swap })
          = u.setChn (arg rq 0 1) fun c => { c with swap := some ⟨1, true, 1, some (rq.via, h)⟩, waiting := .swap } :=
        State.setChn_congr (by rw [hams]; rfl)
      dsimp only
      rw [hatt, h1, hswap, hq, if_neg (by simp; omega), if_neg (by decide), State.startAms_idle, hset]
      · rfl
      · exact (State.chn_setChn_congr CcSt.amsWaits _ (by intro _; rfl) ..).trans hams

theorem cpwrModeEnter_starts : Starts .cpwrModeEnter Cmd.cpwrModeEnter 2
      (fun rq s => arg rq 0 1 ≤ 1 ∧ arg rq 1 1 = 1 ∧ (s.chn (arg rq 0 1)).attached = true ∧ (s.chn (arg rq 0 1)).dfp = true
        ∧ (s.chn (arg rq 0 1)).entering = none ∧ (s.chn (arg rq 0 1)).amsWaits = false ∧ (s.chn (arg rq 0 1)).queued = none
        ∧ (s.chn (arg rq 0 1)).sent = none ∧ s.romNow = false)
      (fun rq s => (s.setChn (arg rq 0 1) fun c => { c with
        entering := some (1, s.time.tick, some (rq.via, (s.chan (viaChan rq.via)).freeHandle)), waiting := .mode }).onWire
        (arg rq 0 1) (.vdm 0x1E9B 4 0) [] .mode) (fun _ _ => none) :=
  starts_on_wire (k := fun rq => arg rq 0 1) (prep := fun rq h s => s.setChn (arg rq 0 1) fun c => { c with
        entering := some (1, s.time.tick, some (rq.via, h)), waiting := .mode })
    (kind := fun _ => .vdm 0x1E9B 4 0) (objs := fun _ => []) (what := fun _ _ => .mode)
    (fun _ _ => rfl) (fun _ _ _ _ _ _ => rfl) (fun _ _ _ _ _ _ _ => rfl)
    (fun rq h u ⟨_, _, _, _, _, _, _, hsent, hrom⟩ => ⟨hrom, (State.chn_setChn_congr CcSt.sent _ (by intro _; rfl) ..).trans hsent⟩)
    fun rq u h ⟨hk, h1, hatt, hdfp, hent, hams, hq, _, _⟩ => by
      dsimp only
      rw [hatt, h1, hdfp, hent, hq, if_neg (by simp; omega), if_neg (by decide), if_neg (by decide), if_pos rfl, if_neg (by decide)]
      unfold State.sendEnter
      rw [State.startAms_idle]
      · rfl
      · exact (State.chn_setChn_congr CcSt.amsWaits _ (by intro _; rfl) ..).trans hams

theorem cpwrMsgSend_starts : Starts .cpwrMsgSend Cmd.cpwrMsgSend 4
      (fun rq s => arg rq 0 1 ≤ 5 ∧ arg rq 1 1 = 0 ∧ (s.chn (arg rq 0 1)).attached = true ∧ (s.chn (arg rq 0 1)).amsWaits = false
        ∧ rq.payload.length = 4 ∧ (s.chn (arg rq 0 1)).queued = none ∧ (s.chn (arg rq 0 1)).sent = none ∧ s.romNow = false)
      (fun rq s => (s.setChn (arg rq 0 1) fun c => { c with queue := c.queue.map fun q => { q with needs := false } }).onWire (arg rq 0 1)
        .other [BitVec.ofNat 32 (arg rq 2 2)] (.msg (some (rq.via, (s.chan (viaChan rq.via)).freeHandle))))
      (fun _ _ => none) :=
  starts_on_wire (k := fun rq => arg rq 0 1)
    (prep := fun rq _ s => s.setChn (arg rq 0 1) fun c => { c with queue := c.queue.map fun q => { q with needs := false } })
    (kind := fun _ => .other) (objs := fun rq => [BitVec.ofNat 32 (arg rq 2 2)]) (what := fun rq h => .msg (some (rq.via, h)))
    (fun _ _ => rfl) (fun _ _ _ _ _ _ => rfl) (fun _ _ _ _ _ _ _ => rfl)
    (fun rq h u ⟨_, _, _, _, _, _, hsent, hrom⟩ => ⟨hrom, (State.chn_setChn_congr CcSt.sent _ (by intro _; rfl) ..).trans hsent⟩)
    fun rq u h ⟨hk, h0, hatt, hams, hlen, hq, _, _⟩ => by
      dsimp only
      rw [hatt, h0, hq, hlen, if_neg (by simp; omega), if_neg (by decide), if_neg (by decide), State.startAms_idle]
      · rfl
      · exact (State.chn_setChn_congr CcSt.amsWaits _ (by intro _; rfl) ..).trans hams

theorem cpwrAnswer_waits : Does .cpwrAnswer Cmd.cpwrAnswer 2
      (fun rq s => arg rq 0 1 ≤ 5 ∧ arg rq 1 1 = 2 ∧ (s.chn (arg rq 0 1)).asked = some 2 ∧ s.ccDue (arg rq 0 1) .ask = false
        ∧ (s.chn (arg rq 0 1)).sent = none ∧ s.romNow = false)
      (fun rq s => ((s.setChn (arg rq 0 1) fun c => { c with asked := none }).ccStop (arg rq 0 1) .ask).onWire (arg rq 0 1) .wait [] .none)
      (fun _ _ => []) :=
  does_of _ (fun _ _ => rfl) fun rq s _ ⟨hk, h2, hask, hdue, hsent, hrom⟩ h => by
    have hdue' : (s.heard Cmd.cpwrAnswer rq).ccDue (arg rq 0 1) .ask = false :=
      (Deaf.heard (φ := fun u => u.ccDue (arg rq 0 1) .ask) (fun _ _ _ _ _ => rfl) _ rq s).trans hdue
    have hsent' : ((((s.heard Cmd.cpwrAnswer rq).setChn (arg rq 0 1) fun c => { c with asked := none }).ccStop (arg rq 0 1) .ask).chn (arg rq 0 1)).sent
        = none := by
      refine (State.chn_setChn_congr CcSt.sent _ (by intro _; rfl) ..).trans ((State.chn_setChn_congr CcSt.sent _ (by intro _; rfl) ..).trans ?_)
      rw [State.chn_heard, hsent]
    refine ⟨(((s.heard Cmd.cpwrAnswer rq).setChn (arg rq 0 1) fun c => { c with asked := none }).ccStop (arg rq 0 1) .ask).pdSend (arg rq 0 1) .wait []
      .none, none, none, ?_, ?_⟩
    · dsimp only
      rw [h2, hdue', State.chn_heard, hask, if_neg (by simp; omega)]
      rfl
    · rw [State.still_pdSend_idle (by rw [State.romNow_ccStop, State.romNow_setChn, State.romNow_heard, hrom]) hsent']
      exact Aside.heard (f := fun u => ((u.setChn (arg rq 0 1) fun c => { c with asked := none }).ccStop (arg rq 0 1) .ask).onWire (arg rq 0 1) .wait [] .none)
        (fun _ _ _ _ _ => rfl) _ rq s

/-! ### The multiplexer -/

theorem State.muxTo_chn {s : State} {k : Nat} (hk : k < s.cc.length) (p m : Nat) (q : Bool) : ((s.muxTo k p m q).chn k).position = p
    ∧ ((s.muxTo k p m q).chn k).mode = m ∧ ((s.muxTo k p m q).chn k).quiet = q := by
  unfold State.muxTo
  by_cases h : ((s.chn k).position == p && (s.chn k).mode == m && (s.chn k).quiet == q) = true
  · rw [if_pos h]
    simpa [and_assoc] using h
  · rw [if_neg h]
    have hset := State.chn_setChn hk fun c => { c with position := p, mode := m, quiet := q }
    have hcc : ∀ (w : State) (a b : Nat) (t : Bool), (((w.emit (.mux k p q)).raise 153 a).raiseIf t 11 b).chn k = w.chn k := fun w a b t => by
      unfold State.chn
      rw [raiseIf_cc, raise_cc]
      rfl
    rw [hcc, hset]
    exact ⟨rfl, rfl, rfl⟩

theorem cpwrMuxSet_parks {rq : Req} {s : State} (ha : Admitted Cmd.cpwrMuxSet 2 rq s) (hk : arg rq 0 1 ≤ 1) (h0 : arg rq 1 1 = 0) (hl : s.cc.length = 6) :
    ∃ t, exec (.cpwrMuxSet rq) s = .next t ∧ t.Replied rq .ok 0 [] ∧ (t.chn (arg rq 0 1)).position = 0 ∧ (t.chn (arg rq 0 1)).mode = 0
      ∧ (t.chn (arg rq 0 1)).quiet = false := by
  have hx := exec_answered (i := .cpwrMuxSet rq) (u := (s.heard Cmd.cpwrMuxSet rq).muxTo (arg rq 0 1) 0 0 false)
    (data := []) (p := none) (f := none) (v := none) (nj := false) (rc := .ok) rfl ha rfl rfl (by
      dsimp only
      rw [h0, if_neg (by simp; omega)]
      rfl)
  refine ⟨_, hx, State.fwReply_replied .., ?_⟩
  unfold State.chn
  rw [State.fwReply_cc]
  exact State.muxTo_chn (by rw [State.heard_cc, hl]; omega) 0 0 false

/-! ### Hard Reset (R418) -/

theorem State.usbReady_out_mem {s : State} {e : Emit} (h : e ∈ s.out) (ks : List Nat) : e ∈ (s.usbReady ks).out := by
  unfold State.usbReady
  have hfold : ∀ (l : List Nat) (w : State), e ∈ w.out → e ∈ (l.foldl (fun s k => s.emit (.usbAnswer 1 0 (k / 2 + 1) 3 [])) w).out := fun l => by
    induction l with
    | nil => exact fun _ h => h
    | cons k l ih => exact fun w h => ih _ (List.mem_append_left _ h)
  exact hfold _ _ h

theorem State.holdReply_out_mem {s : State} {e : Emit} (h : e ∈ s.out) (via : Via) (r : Reply) : e ∈ (s.holdReply via r).out := by
  unfold State.holdReply
  split
  · exact h
  · exact h
  · split_ifs
    · refine State.usbReady_out_mem ?_ _
      exact h
    · refine State.usbReady_out_mem ?_ _
      exact h
  · exact h
  · exact h
  · exact h

/-- A reply takes back no output. -/
theorem State.fwReply_out_mem {s : State} {e : Emit} {m : Msg} {rc : Rc} {h : Nat} {d : List Byte} (he : e ∈ s.out) : e ∈ (s.fwReply m rc h d).out := by
  unfold State.fwReply State.reply
  dsimp only
  rw [State.modChan_out]
  exact List.mem_append_left _ (State.holdReply_out_mem (by rw [State.modChan_out]; exact he) _ _)

/-- What follows a Hard Reset takes back no output and no event, and leaves the channel's count of them. -/
structure State.Settles (k : Nat) (s t : State) : Prop where
  out : ∀ e ∈ s.out, e ∈ t.out
  count : (t.chn k).hardResets = (s.chn k).hardResets
  holds : s.Holds t
  length : t.cc.length = s.cc.length

namespace State.Settles
variable {k : Nat}

theorem refl (s : State) : s.Settles k s := ⟨fun _ h => h, rfl, .refl s, rfl⟩

theorem trans {s t u : State} (h : s.Settles k t) (h' : t.Settles k u) : s.Settles k u :=
  ⟨fun e he => h'.out e (h.out e he), h'.count.trans h.count, h.holds.trans h'.holds, h'.length.trans h.length⟩

/-- The last of two operations first. -/
theorem next {s t u : State} (h' : t.Settles k u) (h : s.Settles k t) : s.Settles k u := h.trans h'

theorem of_eq {s t : State} (ho : t.out = s.out) (hc : t.cc = s.cc) (hh : s.Holds t) : s.Settles k t :=
  ⟨fun _ he => by rwa [ho], by unfold State.chn; rw [hc], hh, congrArg List.length hc⟩

theorem ite {c : Prop} [Decidable c] {s t u : State} (ht : s.Settles k t) (hu : s.Settles k u) : s.Settles k (if c then t else u) := by
  split_ifs <;> assumption

theorem foldl {β : Type} {f : State → β → State} (h : ∀ (a : State) (b : β), a.Settles k (f a b)) (l : List β) (a : State) :
    a.Settles k (l.foldl f a) := by
  induction l generalizing a with
  | nil => exact refl _
  | cons b l ih => exact (h a b).trans (ih _)

theorem raise (s : State) (n a : Nat) : s.Settles k (s.raise n a) := of_eq (by simp) (raise_cc ..) (.raise ..)

theorem raiseIf (s : State) (b : Bool) (n a : Nat) : s.Settles k (s.raiseIf b n a) := ite (raise ..) (refl s)

theorem emit (s : State) (e : Emit) : s.Settles k (s.emit e) := ⟨fun _ he => List.mem_append_left _ he, rfl, .emit .., rfl⟩

theorem setChn (s : State) (j : Nat) {f : CcSt → CcSt} (hf : ∀ c, (f c).hardResets = c.hardResets) : s.Settles k (s.setChn j f) :=
  ⟨fun _ he => he, chn_setChn_congr CcSt.hardResets f hf s j k, .of_mbx rfl, List.length_modify ..⟩

theorem ccStart (s : State) (j : Nat) (t : CcTimer) (n : Nat) : s.Settles k (s.ccStart j t n) := setChn s j fun _ => rfl

theorem ccStop (s : State) (j : Nat) (t : CcTimer) : s.Settles k (s.ccStop j t) := setChn s j fun _ => rfl

theorem finish (s : State) (via : Via) (h rc : Nat) (d : List Byte) : s.Settles k (s.finish via h rc d) :=
  of_eq (by simp) (by simp) (finish_holds ..)

theorem finishRc (s : State) (via : Via) (h : Nat) (rc : Rc) : s.Settles k (s.finishRc via h rc) := finish ..

theorem showPins (s : State) (j : Nat) : s.Settles k (s.showPins j) := emit ..

theorem swapDone (s : State) (j : Nat) (w : PdSwap) (o : Nat) : s.Settles k (s.swapDone j w o) := by
  unfold State.swapDone
  dsimp only
  split
  · exact .next (finish ..) (.next (raise ..) (setChn s j (by intro _; rfl)))
  · exact .next (raise ..) (setChn s j (by intro _; rfl))

theorem requestDone (s : State) (j : Nat) (rc : Rc) : s.Settles k (s.requestDone j rc) := by
  unfold State.requestDone
  split
  · exact .next (finishRc ..) (setChn s j (by intro _; rfl))
  · exact refl s

theorem modeDone (s : State) (j : Nat) (rc : Rc) : s.Settles k (s.modeDone j rc) := by
  unfold State.modeDone
  split
  · exact .next (finishRc ..) (setChn s j (by intro _; rfl))
  · exact setChn s j (by intro _; rfl)

theorem sendFailed (s : State) (j : Nat) (o : PdOut) (r : Nat) : s.Settles k (s.sendFailed j o r) := by
  unfold State.sendFailed
  split
  · exact finish ..
  · exact requestDone ..
  · exact modeDone ..
  · exact refl s

theorem dropAms (s : State) (j : Nat) : s.Settles k (s.dropAms j) := by
  unfold State.dropAms
  refine .next (setChn _ j (by intro _; rfl)) (.next (modeDone ..) (.next (requestDone ..) (.trans (foldl (fun u o => sendFailed u j o 2) ((s.chn j).queued.toList ++ (s.chn j).outq) s) ?_)))
  split
  · split
    · exact finish ..
    · exact refl _
  · exact refl _

theorem muxTo (s : State) (j p m : Nat) (q : Bool) : s.Settles k (s.muxTo j p m q) := by
  unfold State.muxTo
  exact .ite (refl s) (.next (raiseIf ..) (.next (raise ..) (.next (emit ..) (setChn s j (by intro _; rfl)))))

theorem quietMux (s : State) (j : Nat) : s.Settles k (s.quietMux j) := .ite (muxTo ..) (refl s)

theorem leaveEpr (s : State) (j : Nat) : s.Settles k (s.leaveEpr j) :=
  .ite (.next (raise ..) (.next (ccStop ..) (.next (ccStop ..) (setChn s j (by intro _; rfl))))) (refl s)

theorem feedGone (s : State) (n mv : Nat) : s.Settles k (s.feedGone n mv) := .next (raise ..) (.next (emit ..) (.of_eq rfl rfl (.of_mbx rfl)))

theorem feedsLapse (s : State) : s.Settles k s.feedsLapse := by
  unfold State.feedsLapse
  exact foldl (fun u n => .ite (feedGone u n _) (refl u)) _ s

theorem of_map {s t : State} (ho : t.out = s.out) {f : CcSt → CcSt} (hc : t.cc = s.cc.map f) (hf : ∀ c, (f c).hardResets = c.hardResets)
    (hm : t.mbx = s.mbx) : s.Settles k t := by
  refine ⟨fun _ he => by rwa [ho], ?_, .of_mbx hm, by rw [hc, List.length_map]⟩
  simp only [State.chn, hc, nth, List.getD_eq_getElem?_getD, List.getElem?_map]
  cases s.cc[k]? with
  | none => rfl
  | some c => exact hf c

theorem budgetPd (s : State) (j : Nat) : s.Settles k (s.budgetPd j) := by
  unfold State.budgetPd
  have h : s.Settles k s.feedsLapse := feedsLapse s
  generalize s.feedsLapse = u at h
  exact .next (raiseIf ..) (h.trans (.of_map (f := fun c => { c with contrib := c.watts }) rfl rfl (fun _ => rfl) rfl))

theorem setContract (s : State) (j kind mv ma : Nat) : s.Settles k (s.setContract j kind mv ma) :=
  .next (budgetPd ..) (.next (raiseIf ..) (setChn s j (by intro _; rfl)))

theorem restRp (s : State) (j : Nat) : s.Settles k (s.restRp j) := .ite (.next (showPins ..) (setChn s j (by intro _; rfl))) (refl s)

theorem vconn (s : State) (j : Nat) : s.Settles k (s.vconn j) := .next (showPins ..) (setChn s j (by intro _; rfl))

theorem vbusOff (s : State) (j : Nat) : s.Settles k (s.vbusOff j) := by
  unfold State.vbusOff
  dsimp only
  split_ifs
  · exact .of_eq rfl rfl (.of_mbx rfl)
  · exact .next (emit ..) (.of_eq rfl rfl (.of_mbx rfl))

theorem recoverWait (s : State) (j : Nat) : s.Settles k (s.recoverWait j) := .ite (ccStart ..) (refl s)

theorem resetChannel (s : State) (j : Nat) : s.Settles k (s.resetChannel j) := by
  unfold State.resetChannel
  exact .next (.ite (.next (recoverWait ..) (vbusOff ..)) (ccStart ..)) (.next (vconn ..) (.next (restRp ..) (.next (setContract ..)
    (.next (setChn _ j (by intro _; rfl)) (.next (leaveEpr ..) (.next (quietMux ..) (dropAms s j)))))))

theorem errorRecovery (s : State) (j cause : Nat) : s.Settles k (s.errorRecovery j cause) := by
  unfold State.errorRecovery
  exact .next (budgetPd ..) (.next (raise ..) (.next (leaveEpr ..) (.next (quietMux ..) (.next (showPins ..) (.next (vbusOff ..)
    (.next (ccStart ..) (.next (ccStop ..) (.next (setChn _ j (by intro _; rfl)) (dropAms s j)))))))))

end State.Settles

/-- The Hard Reset itself: signalled where it is the hub's own, counted and told. -/
def State.hardResetSent (s : State) (k : Nat) (own : Bool) : State :=
  ((if own then s.emit (.hardReset k 0) else s).setChn k fun c => { c with hardResets := satAdd 32 c.hardResets 1 }).raise 149
    (k + 8 * b2n own + 16 * swapRow (s.chn k).swap)

/-- After a swap cut off has completed, a Hard Reset goes into ErrorRecovery or resets the channel, VCONN off or as it is. -/
theorem State.hardReset_cases (s : State) (k : Nat) (own : Bool) : ∃ w, (s.hardResetSent k own).Settles k w
    ∧ (s.hardReset k own = w.errorRecovery k 0 ∨ s.hardReset k own = w.resetChannel k
      ∨ s.hardReset k own = ((w.resetChannel k).setChn k fun c => { c with vconnOn := false }).showPins k) := by
  unfold hardReset
  cases hw : (s.chn k).swap with
  | none => exact ⟨_, .refl _, .inr (.inl (by rw [hardResetSent, hw]; rfl))⟩
  | some w =>
    refine ⟨(s.hardResetSent k own).swapDone k w (if (swapRow (some w) == 2 || swapRow (some w) == 3) then 6 else 5), .swapDone .., ?_⟩
    rw [hardResetSent, hw]
    dsimp only
    split
    · exact .inl rfl
    · split
      · exact .inr (.inr rfl)
      · exact .inr (.inl rfl)

theorem State.hardReset_settles (s : State) (k : Nat) (own : Bool) : (s.hardResetSent k own).Settles k (s.hardReset k own) := by
  obtain ⟨w, hset, h | h | h⟩ := s.hardReset_cases k own
  · rw [h]
    exact hset.trans (.errorRecovery ..)
  · rw [h]
    exact hset.trans (.resetChannel ..)
  · rw [h]
    exact hset.trans (.trans (.resetChannel w k) (.trans (.setChn _ k (by intro _; rfl)) (.showPins ..)))

theorem State.hardReset_count {s : State} {k : Nat} (hk : k < s.cc.length) (own : Bool) :
    ((s.hardReset k own).chn k).hardResets = satAdd 32 (s.chn k).hardResets 1 := by
  have hraise : ∀ (w : State) n a, (w.raise n a).chn k = w.chn k := fun w n a => by rw [State.chn, raise_cc]; rfl
  rw [(s.hardReset_settles k own).count, State.hardResetSent, hraise, State.chn_setChn (by cases own <;> exact hk)]
  cases own <;> rfl

theorem State.hardReset_out (s : State) (k : Nat) : Emit.hardReset k 0 ∈ (s.hardReset k true).out := by
  refine (s.hardReset_settles k true).out _ ?_
  unfold State.hardResetSent
  rw [raise_out]
  exact List.mem_append_right _ (List.mem_singleton_self _)

theorem State.hardReset_gives {s : State} {k : Nat} (hk : k < s.cc.length) : Emit.hardReset k 0 ∈ (s.hardReset k true).out
    ∧ ((s.hardReset k true).chn k).hardResets = satAdd 32 (s.chn k).hardResets 1 := ⟨s.hardReset_out k, s.hardReset_count hk true⟩

/-- A Hard Reset is told before what follows it. -/
theorem State.hardReset_heard (s : State) (k : Nat) (own : Bool) :
    Heard 1 s (s.hardReset k own) 149 (k + 8 * b2n own + 16 * swapRow (s.chn k).swap) := by
  refine Heard.holds ?_ (s.hardReset_settles k own).holds
  cases own <;> exact heard_raise_mbx rfl rfl rfl

theorem cpwrHardreset_resets {rq : Req} {s : State} (ha : Admitted Cmd.cpwrHardreset 2 rq s) (hk : arg rq 0 1 ≤ 5) (h0 : arg rq 1 1 = 0)
    (hatt : (s.chn (arg rq 0 1)).attached = true) (hl : s.cc.length = 6) :
    ∃ t, exec (.cpwrHardreset rq) s = .next t ∧ t.Replied rq .ok 0 [] ∧ Emit.hardReset (arg rq 0 1) 0 ∈ t.out
      ∧ (t.chn (arg rq 0 1)).hardResets = satAdd 32 (s.chn (arg rq 0 1)).hardResets 1 := by
  have hx := exec_answered (i := .cpwrHardreset rq) (u := (s.heard Cmd.cpwrHardreset rq).hardReset (arg rq 0 1) true)
    (data := []) (p := none) (f := none) (v := none) (nj := false) (rc := .ok) rfl ha rfl rfl (by
      dsimp only
      rw [State.chn_heard, hatt, h0, if_neg (by simp; omega), if_neg (by decide)]
      rfl)
  obtain ⟨hout, hcount⟩ := State.hardReset_gives (s := s.heard Cmd.cpwrHardreset rq) (k := arg rq 0 1) (by rw [State.heard_cc, hl]; omega)
  rw [State.chn_heard] at hcount
  refine ⟨_, hx, State.fwReply_replied .., State.fwReply_out_mem hout, ?_⟩
  unfold State.chn at hcount ⊢
  rw [State.fwReply_cc]
  exact hcount

/-- Settles O27, clause by clause. -/
theorem powerCommands : Obligations.PowerCommands :=
  ⟨⟨ppathShow_shows, ppathBayShow_shows, ppathBayPower_off, fun _ _ ha hb h1 hl hst hi hc hr hpg hrom => ppathBayPower_ramps ha hb h1 hl hst hi hc hr hpg hrom,
      ppathBayPower_fails, ppathVbusShow_shows, ppathClear_does⟩,
    cpwrShow_shows, cpwrCapsSet_does, cpwrCapsSet_fails, cpwrRequest_starts, cpwrRequest_fails, cpwrAnswer_waits, cpwrAnswer_fails, cpwrSwap_starts,
    cpwrSwap_busy, fun _ _ ha hk h0 hatt hl => cpwrHardreset_resets ha hk h0 hatt hl, cpwrHardreset_sop', cpwrModeEnter_arms, cpwrModeEnter_starts,
    cpwrModeEnter_fails, fun _ _ ha hk h0 hl => cpwrMuxSet_parks ha hk h0 hl, cpwrMuxSet_fails, cpwrDiscoverShow_shows, cpwrMsgSend_starts,
    cpwrMsgSend_fails, cpwrMsgRecv_empty, cpwrMsgRecv_takes⟩

end Sys2Proof.Machine

/-! What the end of a link leaves as it was (R175): the states of the links, but for the one that closes; the clock, the supplies and the faults;
and every event that is queued. One rule for each operation that the end of a link uses, in the order of the model's files. -/
namespace Sys2Proof.Machine

-- The rules are many and short: checked one after the other they need one thread's memory.
set_option Elab.async false

/-- The part of the state that no tunnel, path or lane writes when it ends. -/
def State.keel (s : State) : FaultSt × List Bool × Tick × Nat × PwrSt × BootSt × TrustSt :=
  (s.fault, s.upd.stopped, s.time.tick, s.time.slot, s.pwr, s.boot, s.trust)

/-- The state and the cause of each link. -/
def State.marks (s : State) : List (Nat × Nat) := s.cable.links.map fun l => (l.state, l.cause)

theorem nth_map_of {α β : Type} (f : α → β) (l : List α) (i : Nat) (d : α) : nth (l.map f) i (f d) = f (nth l i d) :=
  List.getD_map l d f

theorem State.marks_fst (s : State) (q : Nat) : (nth s.marks q (0, 0)).1 = (s.link q).state :=
  congrArg Prod.fst (nth_map_of (fun l : LinkSt => (l.state, l.cause)) s.cable.links q .init)

theorem State.marks_snd (s : State) (q : Nat) : (nth s.marks q (0, 0)).2 = (s.link q).cause :=
  congrArg Prod.snd (nth_map_of (fun l : LinkSt => (l.state, l.cause)) s.cable.links q .init)

/-- From one state to the other no link's state or cause has changed, nor the keel, and no queued event is gone. -/
structure State.Rides (s t : State) : Prop where
  keel : t.keel = s.keel
  marks : t.marks = s.marks
  holds : s.Holds t

namespace State.Rides

theorem refl (s : State) : s.Rides s := ⟨rfl, rfl, .refl s⟩

variable {s t : State}

theorem trans {u : State} (h : s.Rides t) (h' : t.Rides u) : s.Rides u :=
  ⟨h'.keel.trans h.keel, h'.marks.trans h.marks, h.holds.trans h'.holds⟩

/-- A change elsewhere. -/
theorem also {u : State} (h : s.Rides t) (hk : u.keel = t.keel := by rfl) (hl : u.marks = t.marks := by rfl)
    (hm : ∀ c, u.chan c = t.chan c := by intro c; cases c <;> rfl) : s.Rides u :=
  h.trans ⟨hk, hl, .of_chan hm⟩

theorem ite {c : Prop} [Decidable c] {u : State} (h : s.Rides t) (h' : s.Rides u) : s.Rides (if c then t else u) := by
  split_ifs <;> assumption

theorem foldl {β : Type} {f : State → β → State} (h : s.Rides t) (l : List β) (hf : ∀ u b, s.Rides u → s.Rides (f u b)) :
    s.Rides (l.foldl f t) := by
  induction l generalizing t with
  | nil => exact h
  | cons b l ih => exact ih (hf _ _ h)

theorem link_state (h : s.Rides t) (q : Nat) : (t.link q).state = (s.link q).state := by
  rw [← State.marks_fst, ← State.marks_fst, h.marks]

theorem link_cause (h : s.Rides t) (q : Nat) : (t.link q).cause = (s.link q).cause := by
  rw [← State.marks_snd, ← State.marks_snd, h.marks]

theorem length (h : s.Rides t) : t.cable.links.length = s.cable.links.length := by
  simpa [State.marks] using congrArg List.length h.marks

theorem fault (h : s.Rides t) : t.fault = s.fault := (congrArg (·.1) h.keel :)

theorem stopped (h : s.Rides t) : t.upd.stopped = s.upd.stopped := (congrArg (·.2.1) h.keel :)

theorem tick (h : s.Rides t) : t.time.tick = s.time.tick := (congrArg (·.2.2.1) h.keel :)

theorem phyOut (h : s.Rides t) (p : Nat) : t.phyOut p = s.phyOut p := by simp only [State.phyOut, h.fault, h.stopped]

/-! ### The parts of the state -/

theorem modChan (h : s.Rides t) {c : Chan} {f : ChanSt → ChanSt}
    (hf : ∀ x, ∀ e ∈ x.queue, e ∈ (f x).queue := by exact fun _ _ he => he) : s.Rides (t.modChan c f) :=
  h.trans ⟨by cases c <;> rfl, by cases c <;> rfl, .modChan hf t c⟩

theorem setLink (h : s.Rides t) {p : Nat} {f : LinkSt → LinkSt} (hf : ∀ l, (f l).state = l.state ∧ (f l).cause = l.cause := by
    exact fun _ => ⟨rfl, rfl⟩) : s.Rides (t.setLink p f) :=
  h.trans ⟨rfl, by
    unfold State.marks State.setLink
    apply List.ext_getElem? fun i => ?_
    rw [List.getElem?_map, List.getElem?_map, List.getElem?_modify]
    split_ifs
    · cases t.cable.links[i]? with
      | none => rfl
      | some l => simp [hf l]
    · simp, .of_mbx rfl⟩

theorem spore1 (h : s.Rides t) {kind src flags : Nat} {b : List Byte} : s.Rides (t.spore1 kind src flags b) := by
  have hk : (t.spore1 kind src flags b).keel = t.keel := by simp [State.keel]
  have hm : (t.spore1 kind src flags b).marks = t.marks := by simp [State.marks]
  exact h.trans ⟨hk, hm, .of_mbx (by simp)⟩

theorem spore (h : s.Rides t) {kind src : Nat} {b : List Byte} : s.Rides (t.spore kind src b) := by
  unfold State.spore
  exact .foldl h _ fun _ _ h => .spore1 h

theorem recTrigger (h : s.Rides t) {c : Nat} : s.Rides (t.recTrigger c) := by
  unfold State.recTrigger
  exact .ite h.also (.ite h h.also)

theorem raise (h : s.Rides t) {n a : Nat} : s.Rides (t.raise n a) := by
  refine ⟨?_, ?_, h.holds.trans (.raise t n a)⟩
  · have hk : (t.raise n a).keel = t.keel := by simp [State.keel]
    exact hk.trans h.keel
  · have hm : (t.raise n a).marks = t.marks := by simp [State.marks]
    exact hm.trans h.marks

theorem raiseIf (h : s.Rides t) {c : Bool} {n a : Nat} : s.Rides (t.raiseIf c n a) := .ite (.raise h) h

theorem raiseOn (h : s.Rides t) {c : Chan} {n a : Nat} : s.Rides (t.raiseOn c n a) := by
  unfold State.raiseOn
  exact .spore (.modChan h fun x _ he => x.mem_enter _ _ he)

theorem emit (h : s.Rides t) {e : Emit} : s.Rides (t.emit e) := h.also

theorem setCpx (h : s.Rides t) {p : Nat} {f : CpxSt → CpxSt} : s.Rides (t.setCpx p f) := h.also

theorem setLane (h : s.Rides t) {p k : Nat} {f : LaneSt → LaneSt} : s.Rides (t.setLane p k f) := h.also

theorem laneEv (h : s.Rides t) {p n a : Nat} : s.Rides (t.laneEv p n a) := .raise h

theorem linkEv (h : s.Rides t) {p n a : Nat} : s.Rides (t.linkEv p n a) := .raise h

/-! ### Requests and replies -/

theorem peerSend (h : s.Rides t) {p : Nat} {b : List Byte} : s.Rides (t.peerSend p b) := .setLink h

theorem usbReady (h : s.Rides t) {ks : List Nat} : s.Rides (t.usbReady ks) := .foldl h.also _ fun _ _ h => .emit h

theorem holdReply (h : s.Rides t) {via : Via} {r : Reply} : s.Rides (t.holdReply via r) := by
  unfold State.holdReply
  split
  · exact h.also
  · exact h.also
  · exact .ite (.usbReady h.also) (.usbReady h.also)
  · exact .peerSend h
  · exact h.also
  · exact h.also

theorem reply (h : s.Rides t) {via : Via} {tag : Half} {rc n : Nat} {data : List Byte} : s.Rides (t.reply via tag rc n data).2 :=
  .emit (.holdReply (.modChan h))

theorem fwReply (h : s.Rides t) {m : Msg} {rc : Rc} {n : Nat} {data : List Byte} : s.Rides (t.fwReply m rc n data) := by
  unfold State.fwReply
  exact .modChan (.reply h)

theorem addJob (h : s.Rides t) {via : Via} {o n : Nat} {plan : Option (Nat × List Byte)} : s.Rides (t.addJob via o n plan) :=
  .modChan h

theorem finish (h : s.Rides t) {via : Via} {n rc : Nat} {data : List Byte} : s.Rides (t.finish via n rc data) := by
  unfold State.finish
  dsimp only
  split
  · exact h
  · exact .raiseOn (.modChan h)

theorem finishRc (h : s.Rides t) {via : Via} {n : Nat} {rc : Rc} {data : List Byte} : s.Rides (t.finishRc via n rc data) := .finish h

theorem sendDown (h : s.Rides t) {o : FwdOrigin} {p : Nat} {m : Msg} : s.Rides (t.sendDown o p m) := by
  unfold State.sendDown
  exact .ite (.peerSend h.also) h.also

theorem sendClears (h : s.Rides t) {p n : Nat} {ids : List Nat} : s.Rides (t.sendClears p n ids) := by
  unfold State.sendClears
  exact .foldl h _ fun _ _ h => .sendDown h

/-! ### Cells and paths -/

theorem sendOwn (h : s.Rides t) {p : Nat} {c : Cell} : s.Rides (t.sendOwn p c) := by
  unfold State.sendOwn
  exact .ite (.emit (.setLink h)) (.emit h)

theorem ctlSend (h : s.Rides t) {p typ : Nat} {f : List Nat} {b : List Byte} : s.Rides (t.ctlSend p typ f b) := by
  unfold State.ctlSend
  exact .foldl (.setLink h) _ fun _ _ h => .sendOwn h

theorem ctl (h : s.Rides t) {p typ : Nat} {f : List Nat} : s.Rides (t.ctl p typ f) := .ctlSend h

theorem clearContract (h : s.Rides t) {id : Nat} : s.Rides (t.clearContract id) := by
  refine h.also rfl ?_
  unfold State.clearContract State.keepBound State.marks
  apply List.ext_getElem? fun i => ?_
  simp only [List.getElem?_map, List.getElem?_zipIdx]
  cases t.cable.links[i]? with
  | none => rfl
  | some l => rfl

theorem freeReplay (h : s.Rides t) {p n : Nat} : s.Rides (t.freeReplay p n) := h.also

theorem uninstall (h : s.Rides t) {p l : Nat} : s.Rides (t.uninstall p l) := by
  unfold State.uninstall
  exact .freeReplay (.setLink h)

theorem dropPathRec (h : s.Rides t) {id : Nat} : s.Rides (t.dropPathRec id) := h.also

theorem closePath (h : s.Rides t) {id : Nat} : s.Rides (t.closePath id) := by
  unfold State.closePath
  split
  · exact h
  · split
    · exact .dropPathRec h
    · exact .ite h (State.Rides.ctl (.uninstall h)).also

theorem uncharge (h : s.Rides t) {q : QCell} : s.Rides (t.uncharge q) := by
  unfold State.uncharge
  exact .ite h.also (.ite h.also h.also)

/-! ### Display streams -/

theorem setChn (h : s.Rides t) {k : Nat} {f : CcSt → CcSt} : s.Rides (t.setChn k f) := h.also

theorem pdSend (h : s.Rides t) {k : Nat} {kind : PdKind} {objs : List Word} {what : PdFor} {sop : Nat} :
    s.Rides (t.pdSend k kind objs what sop) := by
  unfold State.pdSend State.pdOut State.ccStart
  exact .ite h (.ite (.setChn h) (.emit (.setChn (.setChn h))))

theorem hpdAttention (h : s.Rides t) {k : Nat} {a b : Bool} : s.Rides (t.hpdAttention k a b) := by
  unfold State.hpdAttention
  split
  · exact .ite h (.pdSend h)
  · exact h

theorem hpdDown (h : s.Rides t) {k : Nat} : s.Rides (t.hpdDown k) := by
  unfold State.hpdDown State.dispEv
  exact .ite (.raise (.hpdAttention (.emit h.also))) h

theorem dropStream (h : s.Rides t) {id : Nat} : s.Rides (t.dropStream id) := h.also

theorem closeSome (h : s.Rides t) {o : Option Nat} : s.Rides (match o with
    | some id => t.closePath id
    | none => t) := by
  cases o with
  | none => exact h
  | some id => exact .closePath h

theorem clearContracts (h : s.Rides t) {ids : List Nat} : s.Rides (ids.foldl (fun s i => s.clearContract i) t) :=
  .foldl h _ fun _ _ h => .clearContract h

theorem finishSome (h : s.Rides t) {o : Option (Via × Nat)} {rc : Nat} {data : List Byte} : s.Rides (match o with
    | some (via, n) => t.finish via n rc data
    | none => t) := by
  cases o with
  | none => exact h
  | some j => exact .finish h

theorem closeCapture (h : s.Rides t) {x : StreamSt} {cause : Nat} : s.Rides (t.closeCapture x cause) :=
  .hpdDown (.raise (.dropStream (.sendClears (.clearContracts (.closeSome (.closeSome h))))))

theorem dispFail (h : s.Rides t) {x : StreamSt} {rc : Nat} {data : List Byte} : s.Rides (t.dispFail x rc data) :=
  .finishSome (.dropStream (.sendClears (.clearContracts (.closeSome (.closeSome h)))))

theorem dispPathGone (h : s.Rides t) {id : Nat} : s.Rides (t.dispPathGone id) := by
  unfold State.dispPathGone
  split
  · exact .ite (.closeCapture h) h
  · exact h

theorem dispOwner (h : s.Rides t) {id : Nat} {rc : Rc} : s.Rides (t.dispOwner id rc) := by
  unfold State.dispOwner
  split
  · exact .ite (.dispFail h) (.dispPathGone h)
  · exact h

theorem dispSuspended (h : s.Rides t) {p : Nat} : s.Rides (t.dispSuspended p) := h.also

/-! ### PCI Express -/

theorem setEnd (h : s.Rides t) {e : Nat} {f : PciEnd → PciEnd} : s.Rides (t.setEnd e f) := by
  unfold State.setEnd
  exact .ite h.also h.also

theorem sendFrame (h : s.Rides t) {e typ fc : Nat} {b : List Byte} : s.Rides (t.sendFrame e typ fc b) := by
  unfold State.sendFrame
  exact .ite (.emit h) h

theorem sendPcCredit (h : s.Rides t) {e : Nat} : s.Rides (t.sendPcCredit e) := .sendFrame (.setEnd h)

theorem regrant (h : s.Rides t) {e : Nat} : s.Rides (t.regrant e) := by
  unfold State.regrant
  exact .ite h (.sendPcCredit (.setEnd h))

theorem freeEgress (h : s.Rides t) {e : Nat} {x : Tlp} : s.Rides (t.freeEgress e x) := by
  unfold State.freeEgress
  exact .ite (.sendPcCredit (.setEnd h)) (.setEnd h)

theorem sendTlp (h : s.Rides t) {e : Nat} {w : PciHeld} : s.Rides (t.sendTlp e w) := by
  unfold State.sendTlp
  dsimp only
  split
  · exact .freeEgress (.sendFrame (.setEnd h))
  · exact .emit (.sendFrame (.setEnd h))

theorem pumpFrom {e : Nat} {l : List PciHeld} (h : s.Rides t) {left : List PciHeld} {blocked : List Nat} :
    s.Rides (State.pumpFrom e l left blocked t) := by
  induction l generalizing t left blocked with
  | nil => exact .setEnd h
  | cons w l ih => exact .ite (ih (.sendTlp (.setEnd h))) (ih h)

theorem pump (h : s.Rides t) {e : Nat} : s.Rides (t.pump e) := .ite h (.pumpFrom h)

theorem loseRequests (h : s.Rides t) {e : Nat} : s.Rides (t.loseRequests e) := by
  unfold State.loseRequests
  exact .raiseIf (.setEnd (.ite (.foldl h _ fun _ _ h => .emit h) h))

theorem suspendEnd (h : s.Rides t) {e p l : Nat} : s.Rides (t.suspendEnd e p l) := by
  unfold State.suspendEnd
  exact .ite (.loseRequests (.setEnd h)) (.setEnd h)

theorem leaveBuffer (h : s.Rides t) {w : PciHeld} : s.Rides (t.leaveBuffer w) := by
  unfold State.leaveBuffer
  split
  · exact .freeEgress h
  · exact h

theorem answerUr (h : s.Rides t) {e : Nat} {w : PciHeld} : s.Rides (t.answerUr e w) := by
  unfold State.answerUr
  dsimp only
  split
  · exact .emit h
  · exact .pump (.setEnd h)

theorem dropHeld (h : s.Rides t) {e : Nat} : s.Rides (t.dropHeld e) := by
  unfold State.dropHeld
  exact .foldl (.foldl (.setEnd h) _ fun _ _ h => .answerUr h) _ fun _ _ h => .leaveBuffer h

theorem setPcLink (h : s.Rides t) {l : Nat} {f : PciLink → PciLink} : s.Rides (t.setPcLink l f) := h.also

theorem hotResetPort (h : s.Rides t) {k : Nat} : s.Rides (t.hotResetPort k) := .setPcLink (.emit (.setEnd h))

theorem surpriseDown (h : s.Rides t) {e c : Nat} : s.Rides (t.surpriseDown e c) := by
  unfold State.surpriseDown
  exact .ite (.raise (.emit (.setEnd (.dropHeld h)))) (.hotResetPort (.setEnd h))

theorem setPresence (h : s.Rides t) {b : Nat} {on : Bool} : s.Rides (t.setPresence b on) := by
  unfold State.setPresence
  exact .ite h (.raise (.setEnd h))

theorem unbindBridge (h : s.Rides t) {b c : Nat} : s.Rides (t.unbindBridge b c) := by
  unfold State.unbindBridge State.clearBridge
  refine .ite h (.raise (.foldl (.setEnd ?_) _ fun _ _ h => .regrant h))
  have hp := State.Rides.setPresence (.ite h (.surpriseDown h (e := b) (c := c)) (c := ((t.pcEnd b).state == 3) = true)) (b := b) (on := false)
  exact .ite hp (.sendClears (.clearContract hp))

theorem bindFailed (h : s.Rides t) {b rc : Nat} {data : List Byte} : s.Rides (t.bindFailed b rc data) := by
  have hc : s.Rides (match (t.pcEnd b).path with
    | some id => t.closePath id
    | none => t) := .closeSome h
  have he := State.Rides.setEnd (.ite hc (.sendClears (.clearContract hc (id := (t.pcEnd b).contract)) (p := (t.pcEnd b).chain)
    (n := (t.pcEnd b).hops) (ids := [(t.pcEnd b).contract])) (c := ((t.pcEnd b).contract == 0) = true)) (e := b) (f := fun _ => PciEnd.init)
  unfold State.bindFailed
  dsimp only
  split
  · exact .finish he
  · exact .raise he

theorem pcieSuspended (h : s.Rides t) {p : Nat} : s.Rides (t.pcieSuspended p) := by
  unfold State.pcieSuspended
  exact .foldl (.foldl h _ fun _ _ h => .suspendEnd h) _ fun _ _ h => .ite (.suspendEnd h) h

/-! ### USB and the network -/

theorem remoteDown (h : s.Rides t) {i c : Nat} : s.Rides (t.remoteDown i c) := by
  unfold State.remoteDown
  refine .ite h (.raise ?_)
  exact (State.Rides.sendClears (.clearContracts (.closeSome (.closeSome h)))).also

theorem usbPathGone (h : s.Rides t) {i : Nat} : s.Rides (t.usbPathGone i) := .remoteDown h

theorem usbHostSuspended (h : s.Rides t) {p : Nat} : s.Rides (t.usbHostSuspended p) := by
  unfold State.usbHostSuspended
  exact .foldl h _ fun _ _ h => .ite h.also h

theorem hostAbsent (h : s.Rides t) : s.Rides t.hostAbsent := by
  unfold State.hostAbsent
  exact .ite (.raise h.also) h

theorem usbSuspended (h : s.Rides t) {p : Nat} : s.Rides (t.usbSuspended p) := by
  unfold State.usbSuspended
  exact .ite (.hostAbsent (.usbHostSuspended h)) (.usbHostSuspended h)

theorem bindEvent (h : s.Rides t) {a b : Bool} : s.Rides (t.bindEvent a b) := .raise h

theorem closeGroup (h : s.Rides t) {g : Nat} : s.Rides (t.closeGroup g) := by
  unfold State.closeGroup
  split
  · exact h
  · rename_i x _
    have hc : s.Rides (match x.path with
      | some id => t.closePath id
      | none => t) := .closeSome h
    exact (State.Rides.ite hc (.sendClears (.clearContract hc))).also

theorem groupFailed (h : s.Rides t) {g rc : Nat} {data : List Byte} : s.Rides (t.groupFailed g rc data) := by
  unfold State.groupFailed
  have hc := State.Rides.closeGroup h (g := g)
  exact .finishSome (.ite (.bindEvent hc.also) hc)

theorem netUnbind (h : s.Rides t) : s.Rides t.netUnbind := by
  unfold State.netUnbind
  have hf : s.Rides ((t.net.groups.map (·.group)).foldl (fun s g => s.closeGroup g) t) := .foldl h _ fun _ _ h => .closeGroup h
  exact .ite (.bindEvent hf.also) hf.also

theorem netPathGone (h : s.Rides t) {g : Nat} : s.Rides (t.netPathGone g) := by
  unfold State.netPathGone
  split
  · exact h
  · exact .ite (.groupFailed h) (.ite (.netUnbind h) (.closeGroup h))

theorem netSuspended (h : s.Rides t) {p : Nat} : s.Rides (t.netSuspended p) := by
  unfold State.netSuspended
  exact .ite h.also h

/-! ### Setups -/

theorem ownerGone (h : s.Rides t) {r : PathRec} {rc : Rc} : s.Rides (t.ownerGone r rc) := by
  unfold State.ownerGone
  split
  · split
    · exact .ite (.finishRc h) h
    · exact h
  · exact .dispOwner h
  · exact .dispOwner h
  · split
    · exact .ite (.bindFailed h) (.unbindBridge h)
    · exact h
  · exact .usbPathGone h
  · exact .usbPathGone h
  · exact .ite (.groupFailed h) (.netPathGone h)
  · exact h

theorem dropSetup (h : s.Rides t) {x : Setup} : s.Rides (t.dropSetup x) := h.also

theorem failSetup (h : s.Rides t) {x : Setup} {n : Nat} {rc : Rc} : s.Rides (t.failSetup x n rc) := by
  unfold State.failSetup
  dsimp only
  split
  · exact .ctl (.uninstall (.dropSetup h))
  · split
    · exact .ownerGone (.dropPathRec (.dropSetup h))
    · exact .dropSetup h

/-! ### Lanes -/

theorem floorCheck (h : s.Rides t) {p : Nat} : s.Rides (t.floorCheck p) := by
  unfold State.floorCheck
  exact .ite (.foldl (.ite (.setCpx h) h) _ fun _ _ h => .ite h (.laneEv (.setLane h))) h

theorem finishAll (h : s.Rides t) {l : List (Via × Nat)} {rc : Nat} {data : List Byte} :
    s.Rides (l.foldl (fun s j => s.finish j.1 j.2 rc data) t) :=
  .foldl h _ fun _ _ h => .finish h

theorem endRecal (h : s.Rides t) {p k o : Nat} : s.Rides (t.endRecal p k o) := by
  unfold State.endRecal
  split
  · exact h
  · exact .laneEv (.finishAll (.setCpx h))

theorem endTest (h : s.Rides t) {p k rc : Nat} {data : List Byte} : s.Rides (t.endTest p k rc data) := by
  unfold State.endTest
  split
  · exact h
  · exact .finishAll (.setLane h)

theorem queueRecal (h : s.Rides t) {p k trig : Nat} {a b : Bool} {j : Option (Via × Nat)} : s.Rides (t.queueRecal p k trig a b j) := by
  unfold State.queueRecal
  split
  · exact .setLane h
  · exact .setCpx h

section
variable {c : Prop} [Decidable c]

theorem floorCheckIf (h : s.Rides t) {p : Nat} : s.Rides (if c then t.floorCheck p else t) := .ite (.floorCheck h) h

theorem ctlIf (h : s.Rides t) {p typ : Nat} {f : List Nat} : s.Rides (if c then t.ctl p typ f else t) := .ite (.ctl h) h

theorem endTestIf (h : s.Rides t) {p k rc : Nat} {data : List Byte} : s.Rides (if c then t.endTest p k rc data else t) := .ite (.endTest h) h

theorem endRecalIf (h : s.Rides t) {p k o : Nat} : s.Rides (if c then t.endRecal p k o else t) := .ite (.endRecal h) h

end

theorem retire (h : s.Rides t) {p k w c : Nat} {tell : Bool} : s.Rides (t.retire p k w c tell) := by
  unfold State.retire
  refine .ite (.setLane h) ?_
  exact .floorCheckIf (.ctlIf (.laneEv (.setLane (.endTestIf (.endRecalIf h)))))

theorem lanesOff (h : s.Rides t) {p : Nat} : s.Rides (t.lanesOff p) := by
  unfold State.lanesOff
  exact .setCpx (.foldl h _ fun _ _ h => .endTest (.endRecal h))

theorem allOff (h : s.Rides t) {p : Nat} : s.Rides (t.allOff p) := .setCpx (.lanesOff h)

theorem dropPendingIn (h : s.Rides t) {p : Nat} : s.Rides (t.dropPendingIn p) := by
  unfold State.dropPendingIn
  exact (State.Rides.foldl h _ fun _ _ h => .uncharge h).also

theorem restoreLane (h : s.Rides t) {p k trig : Nat} {j : Option (Via × Nat)} : s.Rides (t.restoreLane p k trig j) := by
  unfold State.restoreLane
  exact .ite (.ite (.queueRecal h) (.ite (.setCpx h) h)) (.setLane h)

theorem maskLanes (h : s.Rides t) {p : Nat} : s.Rides (t.maskLanes p) := by
  unfold State.maskLanes
  exact .foldl h _ fun _ _ h => .ite (.ite h (.retire h)) (.ite (.restoreLane h) h)

/-! ### Overrides and roles -/

theorem setEndTo (h : s.Rides t) {k v : Nat} : s.Rides (t.setEndTo k v) := by
  unfold State.setEndTo
  exact .ite h.also (.ite h.also h.also)

theorem takeEnds (h : s.Rides t) : s.Rides t.takeEnds := by
  unfold State.takeEnds
  refine .foldl h _ fun u k h => ?_
  split
  · exact h
  · exact .ite h.also (.ite h.also (.setEndTo h))

theorem cfgEffects (h : s.Rides t) : s.Rides t.cfgEffects := by
  unfold State.cfgEffects
  exact .ite h (.maskLanes (.maskLanes (.takeEnds h)))

theorem withdraw (h : s.Rides t) {l : Nat} {w : OverVal → Bool} : s.Rides (t.withdraw l w) := .cfgEffects h.also

theorem roleEnds (h : s.Rides t) {p : Nat} : s.Rides (t.roleEnds p) := h.also

/-! ### The sideband bridge -/

theorem sbSend (h : s.Rides t) {p op tag : Nat} {b : List Byte} : s.Rides (t.sbSend p op tag b) := .peerSend h

theorem sbSendUnlock (h : s.Rides t) {p n : Nat} {l : Bool} : s.Rides (t.sbSendUnlock p n l) := .sbSend h

theorem sbDeliver (h : s.Rides t) {d : SbDone} : s.Rides (t.sbDeliver d) := by
  unfold State.sbDeliver
  split
  · exact .ite (.finishRc h) (.finish h)
  · exact .sbSend h
  · exact .ite (.emit h.also) h
  · exact .ite h (.raise h.also)

theorem sbStart (h : s.Rides t) {x : SbTx} : s.Rides (t.sbStart x).2 := by
  unfold State.sbStart
  dsimp only
  split_ifs <;> exact h.also

theorem sbDrop (h : s.Rides t) {x : SbTx} : s.Rides (t.sbDrop x) := h.also

theorem sbRun {n : Nat} (h : s.Rides t) : s.Rides (sbRun n t).2 := by
  induction n generalizing t with
  | zero => exact h
  | succ n ih =>
    unfold Machine.sbRun
    split
    · exact ih (.sbDrop h)
    · split
      · dsimp only
        split
        · exact ih (.sbDrop (.sbStart h))
        · exact ih (.sbStart h)
      · exact h

theorem sbGo (h : s.Rides t) : s.Rides t.sbGo.2 := by
  unfold State.sbGo
  exact .sbRun h

theorem sbSettle (h : s.Rides t) : s.Rides t.sbSettle := by
  unfold State.sbSettle
  exact State.Rides.foldl (.sbGo h) t.sbGo.1 fun u d hu => .sbDeliver hu

theorem setSb (h : s.Rides t) {x : SbSt} : s.Rides { t with sb := x } := h.also

theorem setSbAge (h : s.Rides t) {a : SbAge} : s.Rides (t.setSbAge a) := h.setSb

theorem sbObtained (h : s.Rides t) {a b c : Nat} {p : Option Nat} : s.Rides (t.sbObtained a b c p) := by
  unfold State.sbObtained
  split
  · exact h
  · dsimp only
    exact .setSb (.setSbAge h)

theorem sbForget (h : s.Rides t) {p : SbHeld → Bool} : s.Rides (t.sbForget p) := h.also

theorem sbLockReply (h : s.Rides t) {o : SbOrigin} {x : SbHolder} {a b : Nat} {p : Option Nat} : s.Rides (t.sbLockReply o x a b p) := by
  unfold State.sbLockReply
  split
  · exact .ite (.finish (.sbObtained h)) (.ite (.finish h) (.finishRc h))
  · exact .sbSend h
  · exact h

theorem sbGrant (h : s.Rides t) {k i : Nat} : s.Rides (t.sbGrant k i) := by
  unfold State.sbGrant
  refine .ite h ?_
  split
  · exact h
  · exact .sbLockReply h.also

theorem sbRelease (h : s.Rides t) {l : SbLock} : s.Rides (t.sbRelease l) := .sbGrant (.sbForget h.also)

theorem sbCredGone (h : s.Rides t) {c n : Nat} : s.Rides (t.sbCredGone c n) := by
  unfold State.sbCredGone
  split
  · exact h
  · refine .sbSettle (.foldl h.also _ fun u x h => ?_)
    split
    · exact .sbSendUnlock h
    · split
      · exact .sbRelease (.raise h)
      · exact h

theorem sbLinkDown (h : s.Rides t) {p : Nat} : s.Rides (t.sbLinkDown p) := by
  unfold State.sbLinkDown
  refine .sbSettle (.foldl (.foldl (.sbForget (.foldl (.foldl h.also _ fun _ _ h => .sbDeliver h) _ fun _ _ h => .sbLockReply h)) _
    fun _ _ h => .ite (.sbSendUnlock h) h) _ fun _ _ h => .sbRelease (.raise h))

theorem peerGone (h : s.Rides t) {p : Nat} : s.Rides (t.peerGone p) := by
  unfold State.peerGone
  refine .withdraw (.foldl (h.trans ⟨?_, ?_, ?_⟩) _ fun _ _ h => .sbCredGone h)
  · rfl
  · rfl
  · exact ⟨fun c _ he => by cases c <;> exact he⟩

theorem tellUp (h : s.Rides t) {o : Option Nat} {c : Nat → Bool} {f : List Nat} : s.Rides (match o with
    | some u => if c u then t.ctl u ctlChain f else t
    | none => t) := by
  cases o with
  | none => exact h
  | some u => exact .ctlIf h

theorem dropNotices (h : s.Rides t) {p : Nat} :
    s.Rides { t with cable := { t.cable with notices := t.cable.notices.filter fun x => x.1 != p } } := h.also

/-- What the adapters of a port do at its link's end. -/
theorem tunnelsSuspended (h : s.Rides t) {p : Nat} {c : Prop} [Decidable c] :
    s.Rides (if c then (((t.pcieSuspended p).dispSuspended p).usbSuspended p).netSuspended p else t) :=
  .ite (.netSuspended (.usbSuspended (.dispSuspended (.pcieSuspended h)))) h

end State.Rides

/-! ### The end of a link -/

/-- What a link that closes leaves: its own part, set between two steps that leave the links alone. -/
theorem State.closeLink_rides (s : State) (p cause : Nat) : ∃ v f, s.Rides v
    ∧ (∀ l, (f l).state = (if cause == 6 || v.phyOut p then 0 else 1) ∧ (f l).cause = cause)
    ∧ (v.setLink p f).Rides (s.closeLink p cause) := by
  generalize ht : s.closeLink p cause = t
  unfold State.closeLink at ht
  extract_lets up s1 s2 s3 through s4 s5 note down dev now v t1 t2 t3 at ht
  have h3 : s.Rides s3 := .foldl (.tunnelsSuspended (.ctlIf (.refl s))) _ fun _ _ h => .failSetup h
  have h5 : s.Rides s5 := .linkEv (.foldl h3 _ fun _ _ h => .ctl (.dropSetup h))
  have hv : s.Rides v := .dropPendingIn (.ite (.allOff h5) (.lanesOff h5))
  have hr : t1.Rides t3 := .sbLinkDown (.peerGone (.roleEnds (.setCpx (.refl t1))))
  clear_value t3
  refine ⟨v, _, hv, fun l => ⟨rfl, rfl⟩, show t1.Rides t from ?_⟩
  rw [← ht]
  refine .ite hr ?_
  split
  · exact .ctlIf (.dropNotices hr)
  · exact .dropNotices hr

/-- A link closes (R175): it is at BRINGUP with the cause given, and no event is lost. -/
theorem State.closeLink_gives {s : State} {p cause : Nat} (hp : p < s.cable.links.length) (hc : cause ≠ 6) (ho : s.phyOut p = false) :
    ((s.closeLink p cause).link p).state = 1 ∧ ((s.closeLink p cause).link p).cause = cause ∧ s.Holds (s.closeLink p cause) := by
  obtain ⟨v, f, hv, hf, hr⟩ := s.closeLink_rides p cause
  have hl : (v.setLink p f).link p = f (v.link p) := State.link_setLink f v p (by rw [hv.length]; exact hp)
  have hset : v.Holds (v.setLink p f) := .of_mbx rfl
  refine ⟨(hr.link_state p).trans ?_, (hr.link_cause p).trans ?_, (hv.holds.trans hset).trans hr.holds⟩
  · simp [hl, hf, hv.phyOut, ho, hc]
  · simp [hl, hf]

end Sys2Proof.Machine

/-! The lane commands (R140, R141, R143), and how tests and a lost signal end (R139, R140). -/
namespace Sys2Proof.Machine

/-! ### Parts changed in place -/

/-- A change of one entry is told by what it makes of that entry. -/
theorem modify_congr_nth {α : Type} {l : List α} {i : Nat} {d : α} {f g : α → α} (h : f (nth l i d) = g (nth l i d)) :
    l.modify i f = l.modify i g := by
  refine List.ext_getElem? fun j => ?_
  rw [List.getElem?_modify, List.getElem?_modify]
  by_cases hj : i = j
  · subst hj
    rw [nth, List.getD_eq_getElem?_getD] at h
    cases hi : l[i]? with
    | none => rfl
    | some a => simpa [hi] using h
  · simp only [if_neg hj]

theorem State.setLink_congr {s : State} {p : Nat} {f g : LinkSt → LinkSt} (h : f (s.link p) = g (s.link p)) : s.setLink p f = s.setLink p g := by
  unfold State.setLink
  rw [modify_congr_nth h]

theorem State.setCpx_congr {s : State} {p : Nat} {f g : CpxSt → CpxSt} (h : f (s.cpx p) = g (s.cpx p)) : s.setCpx p f = s.setCpx p g := by
  unfold State.setCpx
  rw [modify_congr_nth h]

theorem State.setLane_congr {s : State} {p k : Nat} {f g : LaneSt → LaneSt} (h : f (s.lane p k) = g (s.lane p k)) :
    s.setLane p k f = s.setLane p k g := by
  unfold State.setLane
  exact State.setCpx_congr (by rw [modify_congr_nth h])

theorem State.setCpx_setCpx (s : State) (p : Nat) (f g : CpxSt → CpxSt) : (s.setCpx p f).setCpx p g = s.setCpx p fun c => g (f c) := by
  simp only [State.setCpx, List.modify_modify_eq]
  rfl

theorem State.setLane_setLane (s : State) (p k : Nat) (f g : LaneSt → LaneSt) :
    (s.setLane p k f).setLane p k g = s.setLane p k fun l => g (f l) := by
  simp only [State.setLane, State.setCpx_setCpx, List.modify_modify_eq]
  rfl

theorem State.setLane_id (s : State) (p k : Nat) : s.setLane p k (fun l => l) = s := by
  have hid : ∀ l : List LaneSt, l.modify k (fun a => a) = l := fun l => List.modify_id k l
  simp only [State.setLane, State.setCpx, hid]
  exact congrArg (fun c => ({ s with cable := { s.cable with cpx := c } } : State)) (List.modify_id p s.cable.cpx)

/-! ### What an event leaves aside -/

/-- An event changes only what the arrival of a request may change, too. -/
theorem State.raise_moved (s : State) (n a : Nat) :
    s.raise n a = s.moved (s.raise n a).out (s.raise n a).mbx (s.raise n a).rcd (s.raise n a).svc := by
  have h := State.hush_raise s n a
  have hs : s.raise n a = (s.raise n a).hush.moved (s.raise n a).out (s.raise n a).mbx (s.raise n a).rcd (s.raise n a).svc := rfl
  rw [h] at hs
  exact hs

@[simp] theorem State.raise_link (s : State) (n a p : Nat) : (s.raise n a).link p = s.link p := by rw [State.link, State.raise_cable, State.link]

@[simp] theorem State.raise_cpx (s : State) (n a p : Nat) : (s.raise n a).cpx p = s.cpx p := by rw [State.cpx, State.raise_cable, State.cpx]

@[simp] theorem State.raise_lane (s : State) (n a p k : Nat) : (s.raise n a).lane p k = s.lane p k := by
  rw [State.lane, State.raise_cpx, State.lane]

theorem Aside.hush_raise {f : State → State} (h : Aside f) (s : State) (n a : Nat) : (f (s.raise n a)).hush = (f s).hush := by
  have hs : f s = (f s).moved s.out s.mbx s.rcd s.svc := h s s.out s.mbx s.rcd s.svc
  rw [State.raise_moved, h, hs]
  simp only [State.moved, State.hush, State.raise_mbx_hush, State.raise_rcd_hush, State.raise_svc_hush]

theorem Aside.still_raise {f : State → State} (h : Aside f) (s : State) (n a : Nat) : (f (s.raise n a)).still = (f s).still :=
  congrArg State.calm (h.hush_raise s n a)

/-! ### The commands -/

theorem laneArgOk_of {rq : Req} (h : arg rq 0 1 ≤ 1 ∧ arg rq 1 1 ≤ 3) : laneArgOk rq = true := by
  simp [laneArgOk, h.1, h.2]

theorem linkLaneShow_shows : Shows .linkLaneShow Cmd.linkLaneShow 2 (fun rq _ => arg rq 0 1 ≤ 1 ∧ arg rq 1 1 ≤ 3) (fun rq s =>
      let l := s.lane (arg rq 0 1) (arg rq 1 1)
      leBytes 1 (laneCode l.state) ++ leBytes 1 (rateCode l.rate) ++ leBytes 1 (if l.state == .off then 3 else l.use)
        ++ leBytes 1 (packBits [l.eq.precTx, l.eq.precRx, l.hTrained, l.recal.any fun r => r.step == 0, l.turnHold])
        ++ leBytes 1 l.cause ++ zeros 1 ++ leBytes 2 l.flight
        ++ leBytes 8 l.cnt.rxSym ++ leBytes 8 l.cnt.corSym ++ leBytes 8 l.cnt.corCw ++ leBytes 8 l.cnt.uncCw
        ++ leBytes 4 l.cnt.turns ++ leBytes 4 l.cnt.slips ++ leBytes 4 l.cnt.l0s ++ leBytes 4 l.cnt.l1d ++ leBytes 4 l.cnt.recals
        ++ leBytes 4 l.cnt.fails ++ leInt 2 l.calTemp ++ zeros 2 ++ (upTo 5).flatMap (fun k => leInt 1 (nth l.eq.ffe k 0))
        ++ leBytes 1 l.rx.ctle ++ leBytes 1 l.rx.vga ++ leInt 1 l.rx.dfe ++ zeros 4) :=
  shows_plain (fun _ _ => rfl) (fun _ _ _ _ _ _ => rfl) (fun _ _ _ _ _ _ => rfl) fun rq s _ h => by
    rw [laneArgOk_of h]
    rfl

/-- The test that a command asks for. -/
def State.newTest (s : State) (rq : Req) (h : Nat) : LaneTest :=
  { pattern := arg rq 2 1, dir := arg rq 3 1, ticks := arg rq 4 2, force := bitAt (arg rq 6 2) 0, job := some (rq.via, h), stop := none,
    started := false, ran := 0, since := s.time.tick, expired := false }

theorem linkLanePrbs_starts : Starts .linkLanePrbs Cmd.linkLanePrbs 8
      (fun rq s => (arg rq 0 1 ≤ 1 ∧ arg rq 1 1 ≤ 3) ∧ 1 ≤ arg rq 2 1 ∧ arg rq 2 1 ≤ 3 ∧ arg rq 3 1 ≤ 2 ∧ arg rq 4 2 ≠ 0
        ∧ (s.lane (arg rq 0 1) (arg rq 1 1)).test = none ∧ laneServes (s.lane (arg rq 0 1) (arg rq 1 1)) = true
        ∧ (s.lane (arg rq 0 1) (arg rq 1 1)).state ≠ .train)
      (fun rq s => s.setLane (arg rq 0 1) (arg rq 1 1) fun l => { l with test := some (s.newTest rq (s.chan (viaChan rq.via)).freeHandle) })
      (fun _ _ => none) :=
  starts_with_handle (eff := fun rq h s => s.setLane (arg rq 0 1) (arg rq 1 1) fun l => { l with test := some (s.newTest rq h) })
    (fun _ _ => rfl) (fun _ _ _ _ _ _ => rfl) (fun _ _ _ _ _ _ => rfl) (fun _ _ _ _ _ _ _ => rfl)
    fun rq s h ⟨hok, h1, h3, hdir, hticks, htest, hserves, htrain⟩ => by
      have hbad : ¬ (Decidable.decide (2 < arg rq 3 1) || arg rq 4 2 == 0
          || !(laneServes (s.lane (arg rq 0 1) (arg rq 1 1)) || (s.lane (arg rq 0 1) (arg rq 1 1)).state == .floor)
          || (s.lane (arg rq 0 1) (arg rq 1 1)).state == .train) = true := by
        simp [hserves, htrain, hticks]
        omega
      dsimp only
      rw [laneArgOk_of hok, if_neg (by simp; omega), if_neg (by simp; omega), htest, if_neg (by simp), if_neg hbad]
      rfl

theorem linkLanePrbs_fails : Fails .linkLanePrbs Cmd.linkLanePrbs 8
      (fun rq s => (arg rq 0 1 ≤ 1 ∧ arg rq 1 1 ≤ 3) ∧ arg rq 2 1 = 0 ∧ (s.lane (arg rq 0 1) (arg rq 1 1)).test = none) .badState :=
  fails_plain (fun _ _ => rfl) (fun _ _ _ _ _ _ => rfl) rfl fun rq s h ⟨hok, h0, htest⟩ => by
    dsimp only
    rw [laneArgOk_of hok, h0, htest]
    rfl

theorem linkLaneInject_sets : Does .linkLaneInject Cmd.linkLaneInject 12
      (fun rq s => (arg rq 0 1 ≤ 1 ∧ arg rq 1 1 ≤ 3) ∧ arg rq 2 1 = 3 ∧ (s.lane (arg rq 0 1) (arg rq 1 1)).state = .l0 ∧ arg rq 4 4 ≠ 0)
      (fun rq s => s.setLane (arg rq 0 1) (arg rq 1 1) fun l => { l with inject := some ⟨3, arg rq 3 1, arg rq 4 4, arg rq 8 4, 0, 0⟩ })
      (fun _ _ => []) :=
  does_plain (fun _ _ => rfl) (fun _ _ _ _ _ _ => rfl) (fun _ _ _ _ _ _ => rfl) (fun _ _ _ _ _ _ => rfl)
    fun rq s _ ⟨hok, h3, hl0, hint⟩ => by
      have hint' : (arg rq 4 4 == 0) = false := by simpa using hint
      dsimp only
      rw [laneArgOk_of hok, h3, hl0, hint']
      rfl

theorem linkLaneInject_clears : Does .linkLaneInject Cmd.linkLaneInject 12 (fun rq _ => (arg rq 0 1 ≤ 1 ∧ arg rq 1 1 ≤ 3) ∧ arg rq 2 1 = 0)
      (fun rq s => s.setLane (arg rq 0 1) (arg rq 1 1) fun l => { l with inject := none }) (fun _ _ => []) :=
  does_plain (fun _ _ => rfl) (fun _ _ _ _ _ _ => rfl) (fun _ _ _ _ _ _ => rfl) (fun _ _ _ _ _ _ => rfl) fun rq s _ ⟨hok, h0⟩ => by
    dsimp only
    rw [laneArgOk_of hok, h0]
    rfl

theorem linkLaneClear_does : Does .linkLaneClear Cmd.linkLaneClear 2 (fun rq _ => arg rq 0 1 ≤ 1 ∧ arg rq 1 1 ≤ 3)
      (fun rq s => s.setLane (arg rq 0 1) (arg rq 1 1) fun l => { l with cnt := .init }) (fun _ _ => []) :=
  does_plain (fun _ _ => rfl) (fun _ _ _ _ _ _ => rfl) (fun _ _ _ _ _ _ => rfl) (fun _ _ _ _ _ _ => rfl) fun rq s _ ⟨hp, hk⟩ => by
    dsimp only
    rw [if_neg (by simp; omega), if_neg (by simp; omega)]
    rfl

/-- A re-calibration that a command asks for waits in its port's queue. -/
def State.recalQueued (s : State) (p k : Nat) (force : Bool) (job : Via × Nat) : State :=
  s.setCpx p fun c => { c with
    queue := c.queue ++ [k]
    lanes := c.lanes.modify k fun l => { l with recal := some (s.newRecal 5 0 force false [job]) } }

theorem linkLaneRecal_starts : Starts .linkLaneRecal Cmd.linkLaneRecal 4
      (fun rq s => (arg rq 0 1 ≤ 1 ∧ arg rq 1 1 ≤ 3) ∧ laneServes (s.lane (arg rq 0 1) (arg rq 1 1)) = true
        ∧ (s.lane (arg rq 0 1) (arg rq 1 1)).state ≠ .train ∧ (s.link (arg rq 0 1)).gen1 = false
        ∧ s.recalCond (arg rq 0 1) (arg rq 1 1) = true ∧ (s.lane (arg rq 0 1) (arg rq 1 1)).recal = none)
      (fun rq s => s.setCpx (arg rq 0 1) fun c => { c with
        queue := c.queue ++ [arg rq 1 1]
        lanes := c.lanes.modify (arg rq 1 1) fun l => { l with recal := some (s.newRecal 5 0 (bitAt (arg rq 2 1) 0) false [(rq.via, (s.chan (viaChan rq.via)).freeHandle)]) } })
      (fun _ _ => none) := by
  refine starts_of _ (fun _ _ => rfl) fun rq s _ _ ⟨hok, hserves, htrain, hg, hcond, hrec⟩ h hh => ?_
  have hlane : (s.heard Cmd.linkLaneRecal rq).lane (arg rq 0 1) (arg rq 1 1) = s.lane (arg rq 0 1) (arg rq 1 1) :=
    Deaf.heard (φ := fun u => u.lane (arg rq 0 1) (arg rq 1 1)) (fun _ _ _ _ _ => rfl) ..
  have hlink : (s.heard Cmd.linkLaneRecal rq).link (arg rq 0 1) = s.link (arg rq 0 1) :=
    Deaf.heard (φ := fun u => u.link (arg rq 0 1)) (fun _ _ _ _ _ => rfl) ..
  have hcond' : (s.heard Cmd.linkLaneRecal rq).recalCond (arg rq 0 1) (arg rq 1 1) = true :=
    (Deaf.heard (φ := fun u => u.recalCond (arg rq 0 1) (arg rq 1 1)) (fun _ _ _ _ _ => rfl) ..).trans hcond
  generalize hu : s.heard Cmd.linkLaneRecal rq = u at hlane hlink hcond'
  refine ⟨(u.laneEv (arg rq 0 1) 22 (arg rq 1 1 + 16 * 5)).recalQueued (arg rq 0 1) (arg rq 1 1) (bitAt (arg rq 2 1) 0) (rq.via, h), none, none, ?_, ?_⟩
  · have hbad : ¬ (!laneArgOk rq || !laneServes (u.lane (arg rq 0 1) (arg rq 1 1)) || (u.lane (arg rq 0 1) (arg rq 1 1)).state == .train
        || (u.link (arg rq 0 1)).gen1 || !u.recalCond (arg rq 0 1) (arg rq 1 1)) = true := by
      simp [laneArgOk_of hok, hlane, hlink, hserves, htrain, hg, hcond']
    have hnone : ((u.laneEv (arg rq 0 1) 22 (arg rq 1 1 + 16 * 5)).lane (arg rq 0 1) (arg rq 1 1)).recal = none := by
      rw [State.laneEv, State.raise_lane, hlane, hrec]
    dsimp only
    rw [if_neg hbad, State.queueRecal, hnone]
    rfl
  · rw [State.laneEv, Aside.still_raise (f := fun w => w.recalQueued (arg rq 0 1) (arg rq 1 1) (bitAt (arg rq 2 1) 0) (rq.via, h))
      (fun _ _ _ _ _ => rfl), ← hu, hh]
    exact Aside.heard (f := fun w => w.recalQueued (arg rq 0 1) (arg rq 1 1) (bitAt (arg rq 2 1) 0)
      (rq.via, (s.chan (viaChan rq.via)).freeHandle)) (fun _ _ _ _ _ => rfl) ..

/-- A lane that a command retires. -/
def State.laneGone (s : State) (p k : Nat) : State := s.setLane p k fun l => { l.gone s.time.tick with cause := causeCommand }

/-- A lane at rest under a link that is off goes with its event alone. -/
theorem State.retire_idle {s : State} {p k : Nat} (hst : (s.lane p k).state ≠ .retired) (hrec : (s.lane p k).recal = none)
    (htest : (s.lane p k).test = none) (hdown : (s.link p).state = 0) :
    s.retire p k 0 causeCommand true = (s.laneGone p k).laneEv p 20 (k + 256 * 3 + 65536 * causeCommand) := by
  unfold State.retire
  rw [if_neg (by simpa using hst)]
  simp only [hrec, htest, Option.isSome_none, Bool.false_eq_true, if_false, useLeft, beq_self_eq_true, if_true]
  have hl : (((s.laneGone p k).laneEv p 20 (k + 256 * 3 + 65536 * causeCommand)).link p).state = 0 := by
    rw [State.laneEv, State.raise_link]
    exact hdown
  unfold State.laneGone at hl ⊢
  generalize State.laneEv _ p 20 _ = w at hl ⊢
  simp [hl]

theorem linkLaneRetire_does : Does .linkLaneRetire Cmd.linkLaneRetire 4
      (fun rq s => (arg rq 0 1 ≤ 1 ∧ arg rq 1 1 ≤ 3) ∧ arg rq 2 1 = 0 ∧ (s.lane (arg rq 0 1) (arg rq 1 1)).state ≠ .retired
        ∧ (s.lane (arg rq 0 1) (arg rq 1 1)).recal = none ∧ (s.lane (arg rq 0 1) (arg rq 1 1)).test = none ∧ (s.link (arg rq 0 1)).state = 0)
      (fun rq s => s.setLane (arg rq 0 1) (arg rq 1 1) fun l => { l.gone s.time.tick with cause := causeCommand }) (fun _ _ => []) := by
  refine does_of _ (fun _ _ => rfl) fun rq s _ ⟨hok, h0, hst, hrec, htest, hdown⟩ h => ?_
  have hlane : (s.heard Cmd.linkLaneRetire rq).lane (arg rq 0 1) (arg rq 1 1) = s.lane (arg rq 0 1) (arg rq 1 1) :=
    Deaf.heard (φ := fun u => u.lane (arg rq 0 1) (arg rq 1 1)) (fun _ _ _ _ _ => rfl) ..
  have hlink : (s.heard Cmd.linkLaneRetire rq).link (arg rq 0 1) = s.link (arg rq 0 1) :=
    Deaf.heard (φ := fun u => u.link (arg rq 0 1)) (fun _ _ _ _ _ => rfl) ..
  generalize hu : s.heard Cmd.linkLaneRetire rq = u at hlane hlink
  refine ⟨(u.laneGone (arg rq 0 1) (arg rq 1 1)).laneEv (arg rq 0 1) 20 (arg rq 1 1 + 256 * 3 + 65536 * causeCommand), none, none, ?_, ?_⟩
  · have hup : u.linkUp (arg rq 0 1) = false := by
      have : ¬ 2 ≤ (u.link (arg rq 0 1)).state := by rw [hlink]; omega
      simpa [State.linkUp, State.link, nth] using this
    dsimp only
    rw [laneArgOk_of hok, h0, hup, State.retire_idle (by rw [hlane]; exact hst) (by rw [hlane]; exact hrec) (by rw [hlane]; exact htest)
      (by rw [hlink]; exact hdown)]
    simp only [Bool.and_false, Bool.false_eq_true, if_false]
    refine (congrArg Ans.done ?_ :)
    exact State.setLane_id ..
  · rw [State.laneEv, State.still_raise, ← hu]
    exact Aside.heard (f := fun w => w.laneGone (arg rq 0 1) (arg rq 1 1)) (fun _ _ _ _ _ => rfl) ..

theorem linkLaneRestore_does : Does .linkLaneRestore Cmd.linkLaneRestore 2
      (fun rq s => (arg rq 0 1 ≤ 1 ∧ arg rq 1 1 ≤ 3) ∧ (s.lane (arg rq 0 1) (arg rq 1 1)).state = .retired
        ∧ bitAt (s.applied (laneMaskFld (arg rq 0 1))) (arg rq 1 1) = true ∧ (s.link (arg rq 0 1)).state < 2)
      (fun rq s => s.setLane (arg rq 0 1) (arg rq 1 1) fun l => { l with state := .off, use := 0, ready := none }) (fun _ _ => []) :=
  does_plain (fun _ _ => rfl) (fun _ _ _ _ _ _ => rfl) (fun _ _ _ _ _ _ => rfl) (fun _ _ _ _ _ _ => rfl)
    fun rq s _ ⟨hok, hret, hmask, hst⟩ => by
      have hup : s.linkUp (arg rq 0 1) = false := by
        have : ¬ 2 ≤ (s.link (arg rq 0 1)).state := by omega
        simpa [State.linkUp, State.link, nth] using this
      dsimp only
      rw [laneArgOk_of hok, hret, hmask, hup]
      simp only [State.restoreLane, if_neg (Nat.not_le.mpr hst)]
      rfl

/-! ### The ends -/

/-- A test that no command waits for ends: the lane is left to the plan, or to its rate. -/
theorem prbsTestEnd_gives {s : State} {p k : Nat} (ha : s.awake = true) (hp : p < 2) (hk : k < 4) {t0 : LaneTest} {counts : List Nat}
    (ht : (s.lane p k).test = some t0) (hst : t0.started = true) (hj : t0.job = none) (hs : t0.stop = none) (hran : t0.ticks ≤ t0.ran)
    {g : LaneSt → LaneSt} (hg : g (s.lane p k) = { s.lane p k with
      test := none
      inject := none
      state := if (s.lane p k).rate == .g1 then .l0 else if (s.lane p k).rate == .t then .floor else (s.lane p k).state
      ready := if (s.lane p k).rate == .g1 || (s.lane p k).rate == .t then none else some s.readyTick }) :
    Leaves (.prbsTestEnd p k counts) s (s.setLane p k g) := by
  refine gives_of_run (execPrbsTestEnd.eq_1 p k counts s) ha ?_
  have hb : s.begin.lane p k = s.lane p k := rfl
  dsimp only
  rw [hb, ht]
  dsimp only
  rw [if_neg (by simp [hst, hran]; omega), State.endTest, hb, ht]
  dsimp only
  rw [hj, hs, Option.toList_none, List.append_nil, List.foldl_nil, State.setLane_setLane]
  refine (congrArg State.hush (?_ : _ = s.begin.setLane p k g)).trans rfl
  exact State.setLane_congr (by exact hg.symm)

theorem prbsTestEnd_planned {s : State} {p k : Nat} (ha : s.awake = true) (hp : p < 2) (hk : k < 4) {t0 : LaneTest} {counts : List Nat}
    (ht : (s.lane p k).test = some t0) (hst : t0.started = true) (hj : t0.job = none) (hs : t0.stop = none) (hran : t0.ticks ≤ t0.ran)
    (h1 : (s.lane p k).rate ≠ .g1) (h2 : (s.lane p k).rate ≠ .t) :
    Leaves (.prbsTestEnd p k counts) s (s.setLane p k fun l => { l with test := none, inject := none, ready := some s.readyTick }) :=
  prbsTestEnd_gives ha hp hk ht hst hj hs hran (by simp [h1, h2])

theorem prbsTestEnd_unplanned {s : State} {p k : Nat} (ha : s.awake = true) (hp : p < 2) (hk : k < 4) {t0 : LaneTest} {counts : List Nat}
    (ht : (s.lane p k).test = some t0) (hst : t0.started = true) (hj : t0.job = none) (hs : t0.stop = none) (hran : t0.ticks ≤ t0.ran)
    (h : (s.lane p k).rate = .g1 ∨ (s.lane p k).rate = .t) :
    Leaves (.prbsTestEnd p k counts) s (s.setLane p k fun l => { l with
      test := none, inject := none, ready := none, state := if l.rate = .g1 then .l0 else .floor }) :=
  prbsTestEnd_gives ha hp hk ht hst hj hs hran (by rcases h with h | h <;> simp [h])

theorem prbsTestEnd_early {s : State} {p k : Nat} (ha : s.awake = true) {t0 : LaneTest} {counts : List Nat}
    (ht : (s.lane p k).test = some t0) (hs : t0.stop = none) (hran : t0.ran < t0.ticks) : Leaves (.prbsTestEnd p k counts) s s := by
  refine gives_of_run (execPrbsTestEnd.eq_1 p k counts s) ha ?_
  have hb : s.begin.lane p k = s.lane p k := rfl
  dsimp only
  rw [hb, ht]
  dsimp only
  rw [if_pos (by simp [hs, hran])]
  rfl

theorem signalLoss_gives {s : State} {p : Nat} (ha : s.awake = true) (hp : p < 2) (hup : s.linkUp p = true) (ho : s.phyOut p = false)
    (hlen : s.cable.links.length = 2) :
    Gives (.signalLoss p) s fun t => (t.link p).state = 1 ∧ (t.link p).cause = 1 ∧ Heard 1 s t (23 + 16 * p) 0 := by
  refine gives_of_run (execSignalLoss.eq_1 p s) ha ?_
  have hr := State.Rides.laneEv (.refl s.begin) (p := p) (n := 23) (a := 0)
  obtain ⟨hst, hc, hh⟩ := State.closeLink_gives (s := s.begin.laneEv p 23 0) (p := p) (cause := 1)
    (by rw [hr.length, State.begin_cable, hlen]; exact hp) (by decide) ((hr.phyOut p).trans ho)
  have hup' : s.begin.linkUp p = true := hup
  rw [hup', if_neg (by simp; omega)]
  refine ⟨hst, hc, Heard.holds ?_ hh⟩
  rw [State.laneEv, Nat.mod_eq_of_lt hp]
  exact heard_raise_mbx rfl rfl rfl

/-- Settles O13: each command from what its body does to the lane; a test's end from its rate; a lost signal from the rule of a link that
closes. -/
theorem laneCommands : Obligations.LaneCommands := by
  unfold Obligations.LaneCommands
  refine ⟨⟨linkLaneShow_shows, linkLanePrbs_starts, linkLanePrbs_fails, linkLaneInject_sets, linkLaneInject_clears, linkLaneClear_does,
    linkLaneRecal_starts, linkLaneRetire_does, linkLaneRestore_does⟩, fun s p k ha hp hk => ⟨?_, ?_, ?_, ?_⟩⟩
  · exact fun _ _ ht hst hj hs hran h1 h2 => prbsTestEnd_planned ha hp hk ht hst hj hs hran h1 h2
  · exact fun _ _ ht hst hj hs hran h => prbsTestEnd_unplanned ha hp hk ht hst hj hs hran h
  · exact fun _ _ ht hs hran => prbsTestEnd_early ha ht hs hran
  · exact fun hup ho hlen => signalLoss_gives ha hp hup ho hlen

end Sys2Proof.Machine

/-! Cells and messages on a link: what sending them leaves as it was, and that they are out (R152, R157, R159, R173). -/
namespace Sys2Proof.Machine

/-! ### Effects that send -/

/-- The effect neither reads what the arrival of a request touches nor writes it, but for what it sends. -/
def Sends (f : State → State) : Prop := ∀ u o m r v, ∃ o', f (State.moved u o m r v) = (f u).moved o' m r v

theorem Aside.sends {f : State → State} (h : Aside f) : Sends f := fun u o m r v => ⟨o, h u o m r v⟩

theorem Sends.comp {f g : State → State} (hf : Sends f) (hg : Sends g) : Sends fun s => g (f s) := fun u o m r v => by
  obtain ⟨o1, h1⟩ := hf u o m r v
  obtain ⟨o2, h2⟩ := hg (f u) o1 m r v
  exact ⟨o2, by dsimp only; rw [h1, h2]⟩

theorem Sends.foldl {β : Type} {f : State → β → State} (h : ∀ b, Sends fun s => f s b) (l : List β) : Sends fun s => l.foldl f s := by
  intro u o m r v
  induction l generalizing u o with
  | nil => exact ⟨o, rfl⟩
  | cons b l ih =>
    obtain ⟨o', h'⟩ := h b u o m r v
    obtain ⟨o'', h''⟩ := ih (f u b) o'
    exact ⟨o'', (congrArg (fun w => l.foldl f w) h').trans h''⟩

theorem Sends.heard {f : State → State} (h : Sends f) (row : CmdRow) (rq : Req) (s : State) : (f (s.heard row rq)).still = (f s).still := by
  obtain ⟨o1, h1⟩ := h s (s.heard row rq).out (s.heard row rq).mbx (s.heard row rq).rcd (s.heard row rq).svc
  obtain ⟨o2, h2⟩ := h s s.out s.mbx s.rcd s.svc
  have hs : f s = (f s).moved o2 s.mbx s.rcd s.svc := h2
  rw [State.heard_moved, h1, hs]
  simp only [State.moved, State.still, State.hush, State.calm, State.mbx_heard, State.rcd_heard, State.svc_heard]

theorem Sends.hush_raise {f : State → State} (h : Sends f) (s : State) (n a : Nat) : (f (s.raise n a)).hush = (f s).hush := by
  obtain ⟨o1, h1⟩ := h s (s.raise n a).out (s.raise n a).mbx (s.raise n a).rcd (s.raise n a).svc
  obtain ⟨o2, h2⟩ := h s s.out s.mbx s.rcd s.svc
  have hs : f s = (f s).moved o2 s.mbx s.rcd s.svc := h2
  rw [State.raise_moved, h1, hs]
  simp only [State.moved, State.hush, State.raise_mbx_hush, State.raise_rcd_hush, State.raise_svc_hush]

theorem sends_sendOwn (p : Nat) (c : Cell) : Sends fun s => s.sendOwn p c := fun u o m r v => by
  by_cases hs : (u.link p).sealed = true
  · dsimp only
    rw [State.sendOwn_sealed hs, State.sendOwn_sealed (s := u.moved o m r v) hs]
    exact ⟨_, rfl⟩
  · have hs' := Bool.eq_false_iff.mpr hs
    dsimp only
    rw [State.sendOwn_plain hs', State.sendOwn_plain (s := u.moved o m r v) hs']
    exact ⟨_, rfl⟩

/-- The cells of a link-control message. -/
def State.ctlCells (s : State) (p typ : Nat) (f : List Nat) (b : List Byte) : List Cell :=
  messageCells 1 2 ((((s.link p).flow 1).map (·.nextSeq)).getD 0) (ctlBytes typ f b)

/-- The message's cells numbered and kept for replay. -/
def State.ctlKept (s : State) (p typ : Nat) (f : List Nat) (b : List Byte) : State :=
  s.setLink p fun l => l.setFlow 1 fun x => { x with
    nextSeq := (x.nextSeq + (s.ctlCells p typ f b).length) % seqMod
    unacked := x.unacked ++ (s.ctlCells p typ f b).map fun c => ⟨c, 1, s.time.tick⟩ }

theorem State.ctlSend_eq (s : State) (p typ : Nat) (f : List Nat) (b : List Byte) :
    s.ctlSend p typ f b = (s.ctlCells p typ f b).foldl (fun s c => s.sendOwn p c) (s.ctlKept p typ f b) := rfl

theorem sends_ctlSend (p typ : Nat) (f : List Nat) (b : List Byte) : Sends fun s => s.ctlSend p typ f b := fun u o m r v => by
  have h := Sends.foldl (f := fun s c => s.sendOwn p c) (fun c => sends_sendOwn p c) (u.ctlCells p typ f b) (u.ctlKept p typ f b) o m r v
  exact h

theorem sends_ctl (p typ : Nat) (f : List Nat) : Sends fun s => s.ctl p typ f := sends_ctlSend p typ f []

/-! ### What sending leaves -/

/-- Sending a cell touches the counter of the link's transmit key, and no more. -/
theorem State.sendOwn_link_congr {β : Type} (φ : LinkSt → β) (h : ∀ l n, φ { l with tx := { l.tx with counter := n } } = φ l)
    (s : State) (p q : Nat) (c : Cell) : φ ((s.sendOwn p c).link q) = φ (s.link q) := by
  unfold State.sendOwn
  dsimp only
  split
  · exact s.link_setLink_congr φ _ (by exact fun l => h l _) p q
  · rfl

/-- Sending a message touches the flow of label 1, too. -/
theorem State.ctlSend_link_congr {β : Type} (φ : LinkSt → β) (h : ∀ l n, φ { l with tx := { l.tx with counter := n } } = φ l)
    (hf : ∀ l f, φ { l with flows := f } = φ l) (s : State) (p q typ : Nat) (f : List Nat) (b : List Byte) :
    φ ((s.ctlSend p typ f b).link q) = φ (s.link q) := by
  rw [State.ctlSend_eq]
  rw [foldl_same (fun s c => State.sendOwn s p c) (fun u => φ (u.link q)) (fun u c => u.sendOwn_link_congr φ h p q c)]
  exact s.link_setLink_congr φ _ (by exact fun l => hf l _) p q

@[simp] theorem State.ctl_time (s : State) (p typ : Nat) (f : List Nat) : (s.ctl p typ f).time = s.time :=
  (congrArg State.time (s.ashore_ctl p typ f) :)

@[simp] theorem State.ctl_topo (s : State) (p typ : Nat) (f : List Nat) : (s.ctl p typ f).topo = s.topo :=
  (congrArg State.topo (s.ashore_ctl p typ f) :)

@[simp] theorem State.ctl_cc (s : State) (p typ : Nat) (f : List Nat) : (s.ctl p typ f).cc = s.cc :=
  (congrArg State.cc (s.ashore_ctl p typ f) :)

/-! ### What is out -/

theorem State.sendOwn_out_eq (s : State) (p : Nat) (c : Cell) : ∃ tag, (s.sendOwn p c).out = s.out ++ [.cell p none (withHcrc c) tag] := by
  unfold State.sendOwn
  dsimp only
  split
  · exact ⟨_, rfl⟩
  · exact ⟨_, rfl⟩

/-- Cells sent one after the other are all out, after what was out before. -/
theorem State.sendAll_out (cs : List Cell) (s : State) (p : Nat) :
    (∀ e ∈ s.out, e ∈ (cs.foldl (fun s c => s.sendOwn p c) s).out)
      ∧ ∀ c ∈ cs, ∃ tag, Emit.cell p none (withHcrc c) tag ∈ (cs.foldl (fun s c => s.sendOwn p c) s).out := by
  induction cs generalizing s with
  | nil => exact ⟨fun e he => he, fun c hc => absurd hc List.not_mem_nil⟩
  | cons c cs ih =>
    obtain ⟨tag, ht⟩ := s.sendOwn_out_eq p c
    obtain ⟨h1, h2⟩ := ih (s.sendOwn p c)
    refine ⟨fun e he => h1 e (by rw [ht]; exact List.mem_append_left _ he), fun x hx => ?_⟩
    rcases List.mem_cons.mp hx with rfl | hx
    · exact ⟨tag, h1 _ (by rw [ht]; simp)⟩
    · exact h2 x hx

/-- A message sent has gone out, after what was out before. -/
theorem State.ctlSend_out (s : State) (p typ : Nat) (f : List Nat) (b : List Byte) :
    (∀ e ∈ s.out, e ∈ (s.ctlSend p typ f b).out) ∧ Told (s.ctlSend p typ f b) p typ f b :=
  ⟨(State.sendAll_out (s.ctlCells p typ f b) (s.ctlKept p typ f b) p).1, _, (State.sendAll_out _ (s.ctlKept p typ f b) p).2⟩

theorem State.told_ctlSend (s : State) (p typ : Nat) (f : List Nat) (b : List Byte) : Told (s.ctlSend p typ f b) p typ f b :=
  (s.ctlSend_out p typ f b).2

theorem State.told_ctl (s : State) (p typ : Nat) (f : List Nat) : Told (s.ctl p typ f) p typ f [] := s.told_ctlSend ..

theorem Told.mono {s t : State} {p typ : Nat} {f : List Nat} {b : List Byte} (h : Told s p typ f b) (ho : ∀ e ∈ s.out, e ∈ t.out) :
    Told t p typ f b := by
  obtain ⟨seq, h⟩ := h
  exact ⟨seq, fun c hc => (h c hc).imp fun _ he => ho _ he⟩

end Sys2Proof.Machine

/-! The link's commands (Table 6.12, R151, R161, R179, R585). -/
namespace Sys2Proof.Machine

theorem State.linkUp_link {s t : State} {p : Nat} (h : (t.link p).state = (s.link p).state) : t.linkUp p = s.linkUp p :=
  congrArg (fun n => Decidable.decide (2 ≤ n)) h

/-! ### The shows -/

theorem linkShow_shows : Shows .linkShow Cmd.linkShow 1 (fun rq _ => arg rq 0 1 ≤ 1) (fun rq s =>
    let l := s.link (arg rq 0 1)
    let role := match s.role (arg rq 0 1) with
      | .up => 0
      | .down => 1
      | .none => 2
      | .ended => 3
      | .held => 2
    leBytes 1 l.state ++ leBytes 1 role ++ leBytes 1 s.topo.depth ++ leBytes 1 l.cause ++ leBytes 4 l.tx.index
      ++ leBytes 8 l.coaches ++ leBytes 8 l.tagFails ++ leBytes 8 l.poisoned ++ leBytes 8 l.replayed
      ++ leBytes 8 l.lost ++ leBytes 4 l.missedCnt ++ zeros 4) :=
  shows_plain (fun _ _ => rfl) (fun _ _ _ _ _ _ => rfl) (fun _ _ _ _ _ _ => rfl) fun rq s _ hp => by
    dsimp only
    rw [if_neg (by omega)] <;> rfl

theorem linkPlanShow_shows : Shows .linkPlanShow Cmd.linkPlanShow 2
      (fun rq s => arg rq 0 1 ≤ 1 ∧ arg rq 1 1 ≤ 2 ∧ ((s.link (arg rq 0 1)).planFor (s.time.tick.toNat + arg rq 1 1)).isSome)
      (fun rq s => (((s.link (arg rq 0 1)).planFor (s.time.tick.toNat + arg rq 1 1)).map planBytes).getD []) :=
  shows_plain (fun _ _ => rfl) (fun _ _ _ _ _ _ => rfl) (fun _ _ _ _ _ _ => rfl) fun rq s _ ⟨hp, hw, hpl⟩ => by
    obtain ⟨pl, hpl⟩ := Option.isSome_iff_exists.mp hpl
    dsimp only
    rw [if_neg (by simp; omega), hpl]
    rfl

theorem pathShow_absent : Shows .pathShow Cmd.pathShow 4
      (fun rq s => arg rq 0 1 ≤ 1 ∧ arg rq 2 2 ≤ 4095 ∧ (s.link (arg rq 0 1)).entry (arg rq 2 2) = none) (fun _ _ => zeros 16) :=
  shows_plain (fun _ _ => rfl) (fun _ _ _ _ _ _ => rfl) (fun _ _ _ _ _ _ => rfl) fun rq s _ ⟨hp, hl, he⟩ => by
    dsimp only
    rw [if_neg (by simp; omega), he]

theorem pathShow_entry : Shows .pathShow Cmd.pathShow 4
      (fun rq s => arg rq 0 1 ≤ 1 ∧ arg rq 2 2 ≤ 4095 ∧
        (∃ e, (s.link (arg rq 0 1)).entry (arg rq 2 2) = some e) ∧ ∃ f, (s.link (arg rq 0 1)).flow (arg rq 2 2) = some f)
      (fun rq s => match (s.link (arg rq 0 1)).entry (arg rq 2 2), (s.link (arg rq 0 1)).flow (arg rq 2 2) with
        | some e, some f => leBytes 8 (2 ^ 63 + b2n e.suspended * 2 ^ 62 + e.tc % 8 * 2 ^ 59 + e.egress % 16 * 2 ^ 55
            + e.outLabel % 4096 * 2 ^ 43 + b2n e.cut * 2 ^ 42 + e.contract % 4096 * 2 ^ 30 + e.initCredit % 65536)
            ++ leBytes 2 f.nextSeq ++ leBytes 2 f.ackSeq ++ leBytes 2 f.consumed ++ leBytes 2 f.limit
        | _, _ => []) :=
  shows_plain (fun _ _ => rfl) (fun _ _ _ _ _ _ => rfl) (fun _ _ _ _ _ _ => rfl) fun rq s _ ⟨hp, hl, ⟨e, he⟩, ⟨f, hf⟩⟩ => by
    dsimp only
    rw [if_neg (by simp; omega), he, hf]
    rfl

/-! ### Rotation of the keys -/

/-- The next transmit key asked for. -/
def State.keyAsked (s : State) (p : Nat) : State :=
  s.setLink p fun l => { l with tx := { l.tx with next := some (l.tx.index + 1, s.time.tick + 4, false) } }

theorem State.txDir_congr {s t : State} {p : Nat} (hg : (t.link p).gen1 = (s.link p).gen1) (htopo : t.topo = s.topo) (hcc : t.cc = s.cc) :
    t.txDir p = s.txDir p := by
  simp only [State.txDir, State.isMaster, hg, htopo, hcc]
  rfl

theorem State.rotate_eq (s : State) (p : Nat) :
    s.rotate p = (s.keyAsked p).ctl p ctlKeyNext [s.txDir p, (s.link p).tx.index + 1, (s.time.tick + 4).toNat] := by
  unfold State.rotate State.keyAsked
  dsimp only
  rw [State.setLink_congr (f := fun l => { l with tx := { l.tx with next := some ((s.link p).tx.index + 1, s.time.tick + 4, false) } })
    (g := fun l => { l with tx := { l.tx with next := some (l.tx.index + 1, s.time.tick + 4, false) } }) rfl]

/-- Both directions asked for. -/
def State.rekeyed (s : State) (p : Nat) : State :=
  ((s.keyAsked p).ctl p ctlKeyNext [s.txDir p, (s.link p).tx.index + 1, (s.time.tick + 4).toNat]).ctl p ctlKeyNext
    [1 - s.txDir p, (s.link p).rx.index + 1, (s.time.tick + 4).toNat]

theorem sends_rekeyed (p : Nat) : Sends fun s => s.rekeyed p := fun u o m r v =>
  Sends.comp (Sends.comp (Aside.sends (f := fun s => s.keyAsked p) fun _ _ _ _ _ => rfl) (sends_ctl p ctlKeyNext [u.txDir p, (u.link p).tx.index + 1, (u.time.tick + 4).toNat]))
    (sends_ctl p ctlKeyNext [1 - u.txDir p, (u.link p).rx.index + 1, (u.time.tick + 4).toNat]) u o m r v

theorem linkRekey_does : Does .linkRekey Cmd.linkRekey 1
      (fun rq s => arg rq 0 1 ≤ 1 ∧ s.linkUp (arg rq 0 1) = true ∧ (s.link (arg rq 0 1)).tx.next = none
        ∧ (s.link (arg rq 0 1)).rx.next = none) (fun rq s => s.rekeyed (arg rq 0 1)) (fun _ _ => []) := by
  refine does_of _ (fun _ _ => rfl) fun rq s _ ⟨hp, hup, htx, hrx⟩ h => ?_
  refine ⟨(s.heard Cmd.linkRekey rq).rekeyed (arg rq 0 1), none, none, ?_, (sends_rekeyed _).heard ..⟩
  have hup' : (s.heard Cmd.linkRekey rq).linkUp (arg rq 0 1) = true :=
    (Deaf.heard (φ := fun u => u.linkUp (arg rq 0 1)) (fun _ _ _ _ _ => rfl) ..).trans hup
  have hlink : (s.heard Cmd.linkRekey rq).link (arg rq 0 1) = s.link (arg rq 0 1) :=
    Deaf.heard (φ := fun u => u.link (arg rq 0 1)) (fun _ _ _ _ _ => rfl) ..
  generalize s.heard Cmd.linkRekey rq = u at hup' hlink
  generalize arg rq 0 1 = p at hp hup' hlink htx hrx
  have hbusy : ((u.link p).tx.next.isSome) = false := by rw [hlink, htx]; rfl
  have hk : ∀ {β : Type} (φ : LinkSt → β), (∀ l n, φ { l with tx := { l.tx with counter := n } } = φ l) → (∀ l f, φ { l with flows := f } = φ l) →
      (∀ l n, φ { l with tx := { l.tx with next := n } } = φ l) → φ ((u.rotate p).link p) = φ (u.link p) := fun φ h1 h2 h3 => by
    rw [State.rotate_eq]
    exact (State.ctlSend_link_congr φ h1 h2 (u.keyAsked p) p p ..).trans (u.link_setLink_congr φ _ (fun l => h3 l _) p p)
  have hrx' : ((u.rotate p).link p).rx = (u.link p).rx := hk LinkSt.rx (fun _ _ => rfl) (fun _ _ => rfl) fun _ _ => rfl
  have hdir : (u.rotate p).txDir p = u.txDir p :=
    State.txDir_congr (hk LinkSt.gen1 (fun _ _ => rfl) (fun _ _ => rfl) fun _ _ => rfl) (by rw [State.rotate_eq, State.ctl_topo]; rfl)
      (by rw [State.rotate_eq, State.ctl_cc]; rfl)
  have htick : (u.rotate p).time = u.time := by rw [State.rotate_eq, State.ctl_time]; rfl
  have hfree : (u.link p).rx.next.isSome = false := by rw [hlink, hrx]; rfl
  dsimp only
  rw [if_neg (by simp [hup']; omega), hbusy]
  simp only [Bool.false_eq_true, if_false, hrx', hfree, hdir, htick]
  rw [State.rotate_eq]
  rfl

theorem linkRekey_fails : Fails .linkRekey Cmd.linkRekey 1 (fun rq s => arg rq 0 1 ≤ 1 ∧ s.linkUp (arg rq 0 1) = false) .badState :=
  fails_plain (fun _ _ => rfl) (fun _ _ _ _ _ _ => rfl) rfl fun rq s _ ⟨hp, hup⟩ => by
    dsimp only
    rw [if_pos (by simp [hup])]

/-! ### Reset -/

theorem linkReset_closes (rq : Req) (s : State) (ha : Admitted Cmd.linkReset 1 rq s) (hr : s.jobRoom rq) (hp : arg rq 0 1 ≤ 1)
    (hjob : (s.link (arg rq 0 1)).resetJob = none) (hho : s.time.holdover ≠ 2) (ho : s.phyOut (arg rq 0 1) = false)
    (hlen : s.cable.links.length = 2) :
    ∃ t, exec (.linkReset rq) s = .next t ∧ (t.link (arg rq 0 1)).state = 1 ∧ (t.link (arg rq 0 1)).cause = 8 := by
  have hcable : (s.heard Cmd.linkReset rq).cable = s.cable := Deaf.heard (φ := State.cable) (fun _ _ _ _ _ => rfl) ..
  have hjob' : ((s.heard Cmd.linkReset rq).link (arg rq 0 1)).resetJob = none :=
    (Deaf.heard (φ := fun u => (u.link (arg rq 0 1)).resetJob) (fun _ _ _ _ _ => rfl) ..).trans hjob
  have hho' : (s.heard Cmd.linkReset rq).time.holdover ≠ 2 := by
    rwa [Deaf.heard (φ := fun u => u.time.holdover) (fun _ _ _ _ _ => rfl)]
  have ho' : (s.heard Cmd.linkReset rq).phyOut (arg rq 0 1) = false :=
    (Deaf.heard (φ := fun u => u.phyOut (arg rq 0 1)) (fun _ _ _ _ _ => rfl) ..).trans ho
  obtain ⟨hst, hc, -⟩ := State.closeLink_gives (s := s.heard Cmd.linkReset rq) (p := arg rq 0 1) (cause := 8) (by rw [hcable, hlen]; omega)
    (by decide) ho'
  have hx := exec_accepted (i := .linkReset rq) (row := Cmd.linkReset) (min := 1) (u := ((s.heard Cmd.linkReset rq).closeLink (arg rq 0 1) 8).setLink
    (arg rq 0 1) fun l => { l with resetJob := some (rq.via, (s.chan (viaChan rq.via)).freeHandle) }) (data := []) (p := none) (f := none) (v := none)
    (execLinkReset.eq_1 rq s) ha hr (by
      dsimp only
      rw [if_neg (by omega), hjob', if_neg (by simp), if_neg (by simpa using hho')]
      rfl)
  refine ⟨_, hx, ?_⟩
  have closed : ∀ {w : State}, ((s.heard Cmd.linkReset rq).closeLink (arg rq 0 1) 8).Rides w →
      (w.link (arg rq 0 1)).state = 1 ∧ (w.link (arg rq 0 1)).cause = 8 :=
    fun h => ⟨(h.link_state _).trans hst, (h.link_cause _).trans hc⟩
  exact closed (.fwReply (.addJob (.setLink (.refl _))))

theorem linkReset_starts : Starts .linkReset Cmd.linkReset 1
      (fun rq s => arg rq 0 1 ≤ 1 ∧ (s.link (arg rq 0 1)).resetJob = none ∧ s.time.holdover = 2) (fun _ s => s)
      (fun _ _ => some (Rc.hwFault.code, [])) :=
  starts_plain (fun _ _ => rfl) (fun _ _ _ _ _ _ => rfl) (fun _ _ _ _ _ _ => rfl) (fun _ _ _ _ _ _ => rfl) fun rq s h ⟨hp, hjob, hho⟩ => by
    dsimp only
    rw [if_neg (by omega), hjob, hho]
    rfl

theorem linkReset_fails : Fails .linkReset Cmd.linkReset 1 (fun rq s => arg rq 0 1 ≤ 1 ∧ (s.link (arg rq 0 1)).resetJob ≠ none) .busy :=
  fails_plain (fun _ _ => rfl) (fun _ _ _ _ _ _ => rfl) rfl fun rq s _ ⟨hp, hjob⟩ => by
    dsimp only
    rw [if_neg (by omega), if_pos (by simpa [Option.isSome_iff_ne_none] using hjob)]

/-! ### Paths -/

theorem pathOpen_fails : Fails .pathOpen Cmd.pathOpen 8
      (fun rq s => arg rq 1 1 = 0 ∧ s.pathOk (arg rq 0 1) 0 (arg rq 2 1) (arg rq 3 1) (arg rq 4 1) = false) .badState :=
  fails_plain (fun _ _ => rfl) (fun _ _ _ _ _ _ => rfl) rfl fun rq s _ ⟨h0, hok⟩ => by
    dsimp only
    rw [h0, State.openPath, hok]
    rfl

/-- A path between two adapters of this hub, the first that is open. -/
def State.localPath (s : State) (src chain dst tc : Nat) (cut : Bool) (contract : Nat) : State :=
  { s with cable := { s.cable with paths := [
    { id := 1, src := src, port := none, label := 0, hops := 0, chain := chain, dst := dst, tc := tc, cut := cut, contract := contract, phase := 1
      owner := .command, job := none, bound := s.plan.contracts.any fun c => c.id == contract && contractMatches c src dst tc }] } }

theorem State.openPath_local {s : State} {src chain dst tc contract : Nat} {cut : Bool} {job : Option (Via × Nat)}
    (hok : s.pathOk src 0 chain dst tc = true) (hno : s.cable.paths = []) :
    s.openPath .command job src 0 chain dst tc cut contract = ⟨.ok, 1, 0, (s.localPath src chain dst tc cut contract).raiseIf
      (contract != 0 && !(s.plan.contracts.any fun c => c.id == contract && contractMatches c src dst tc)) 60 (65536 * contract)⟩ := by
  have hid : s.freePathId = some 1 := by rw [State.freePathId, hno]; rfl
  rw [State.openPath, hok, hid]
  simp only [hno, List.nil_append, Bool.not_true, Bool.false_eq_true, if_false, beq_self_eq_true, if_true]
  rfl

theorem pathOpen_does : Does .pathOpen Cmd.pathOpen 8
      (fun rq s => arg rq 1 1 = 0 ∧ s.pathOk (arg rq 0 1) 0 (arg rq 2 1) (arg rq 3 1) (arg rq 4 1) = true ∧ s.cable.paths = [])
      (fun rq s => s.localPath (arg rq 0 1) (arg rq 2 1) (arg rq 3 1) (arg rq 4 1) (bitAt (arg rq 5 1) 0) (arg rq 6 2)) (fun _ _ => [1, 0, 0, 0]) := by
  refine does_of _ (fun _ _ => rfl) fun rq s _ ⟨h0, hok, hno⟩ h => ?_
  have hok' : (s.heard Cmd.pathOpen rq).pathOk (arg rq 0 1) 0 (arg rq 2 1) (arg rq 3 1) (arg rq 4 1) = true :=
    (Deaf.heard (φ := fun u => u.pathOk (arg rq 0 1) 0 (arg rq 2 1) (arg rq 3 1) (arg rq 4 1)) (fun _ _ _ _ _ => rfl) ..).trans hok
  have hno' : (s.heard Cmd.pathOpen rq).cable.paths = [] :=
    (Deaf.heard (φ := fun u => u.cable.paths) (fun _ _ _ _ _ => rfl) ..).trans hno
  have haside := Aside.heard (f := fun w => w.localPath (arg rq 0 1) (arg rq 2 1) (arg rq 3 1) (arg rq 4 1) (bitAt (arg rq 5 1) 0) (arg rq 6 2))
    (fun _ _ _ _ _ => rfl) Cmd.pathOpen rq s
  generalize s.heard Cmd.pathOpen rq = u at hok' hno' haside
  refine ⟨(u.localPath (arg rq 0 1) (arg rq 2 1) (arg rq 3 1) (arg rq 4 1) (bitAt (arg rq 5 1) 0) (arg rq 6 2)).raiseIf
    (arg rq 6 2 != 0 && !(u.plan.contracts.any fun c => c.id == arg rq 6 2 && contractMatches c (arg rq 0 1) (arg rq 3 1) (arg rq 4 1))) 60
    (65536 * arg rq 6 2), none, none, ?_, (State.still_raiseIf ..).trans haside⟩
  dsimp only
  rw [h0, State.openPath_local hok' hno']
  dsimp only
  rw [if_pos (by decide), show leBytes 2 1 ++ leBytes 2 0 = [1, 0, 0, 0] by decide]

theorem pathClose_does : Does .pathClose Cmd.pathClose 2 (fun rq s => ∃ r, s.pathById (arg rq 0 2) = some r ∧ r.port = none ∧ r.phase ≠ 0)
      (fun rq s => s.dropPathRec (arg rq 0 2)) (fun _ _ => []) :=
  does_plain (fun _ _ => rfl) (fun _ _ _ _ _ _ => rfl) (fun _ _ _ _ _ _ => rfl) (fun _ _ _ _ _ _ => rfl)
    fun rq s _ ⟨r, hr, hport, hph⟩ => by
      have hid : r.id = arg rq 0 2 := by simpa using List.find?_some hr
      rw [hr]
      dsimp only
      rw [if_neg (by simpa using hph), State.closePath, hid, hr]
      dsimp only
      rw [hport]
      rfl

theorem pathClose_fails : Fails .pathClose Cmd.pathClose 2 (fun rq s => s.pathById (arg rq 0 2) = none) .badHandle :=
  fails_plain (fun _ _ => rfl) (fun _ _ _ _ _ _ => rfl) rfl fun rq s _ h => by rw [h]

/-- Settles O18: each command from what its body does to the cables; `link.reset` from the rule of a link that closes. -/
theorem linkCommands : Obligations.LinkCommands := by
  unfold Obligations.LinkCommands
  exact ⟨linkShow_shows, linkPlanShow_shows, linkRekey_does, linkRekey_fails, linkReset_closes, linkReset_starts, linkReset_fails, pathOpen_does,
    pathOpen_fails, pathClose_does, pathClose_fails, pathShow_absent, pathShow_entry⟩

end Sys2Proof.Machine

/-! Other link-control messages and the timeouts of the link (R136, R152, R153, R172 to R176). -/
namespace Sys2Proof.Machine

/-! ### Sending -/

theorem Sends.hush_begin {f : State → State} (h : Sends f) (s : State) : (f s.begin).hush = (f s).hush := by
  obtain ⟨o1, h1⟩ := h s [] s.mbx s.rcd s.svc
  obtain ⟨o2, h2⟩ := h s s.out s.mbx s.rcd s.svc
  have hb : f s.begin = (f s).moved o1 s.mbx s.rcd s.svc := h1
  have hs : f s = (f s).moved o2 s.mbx s.rcd s.svc := h2
  rw [hb, hs]
  rfl

/-- A cell sent at the start of a command. -/
theorem sendsOwn_begin (u : State) (p : Nat) (c : Cell) : (u.begin.sendOwn p c).hush = (u.sendOwn p c).hush
    ∧ ∃ tag, Emit.cell p none (withHcrc c) tag ∈ (u.begin.sendOwn p c).out := by
  obtain ⟨tag, ht⟩ := u.begin.sendOwn_out_eq p c
  exact ⟨(sends_sendOwn p c).hush_begin u, tag, by rw [ht]; simp⟩

/-- A message sent at the start of a command. -/
theorem tells_begin (u : State) (p typ : Nat) (f : List Nat) (b : List Byte) :
    (u.begin.ctlSend p typ f b).hush = (u.ctlSend p typ f b).hush ∧ Told (u.begin.ctlSend p typ f b) p typ f b :=
  ⟨(sends_ctlSend p typ f b).hush_begin u, State.told_ctlSend ..⟩

/-! ### Messages -/

variable {s : State} {p : Nat}

theorem laneNotice_leaves (ha : s.awake = true) (hp : p < 2) {k use : Nat} (hk : k < 4) (hu : use < 3) (hst : (s.lane p k).state ≠ .retired) :
    Leaves (.laneNotice p k 1 use) s (s.setLane p k fun l => { l with use := use }) := by
  refine gives_of_run (execLaneNotice.eq_1 p k 1 use s) ha ?_
  have hst' : ((s.begin.lane p k).state == .retired) = false := beq_eq_false_iff_ne.mpr hst
  dsimp only
  rw [if_neg (by simp; omega), if_neg (by decide), hst']
  simp only [Bool.false_eq_true, if_false, if_pos hu]
  rfl

theorem masterQuery_sends (ha : s.awake = true) (hp : p < 2) {pl : Plan} (hm : s.isMaster p = true) (hpl : (s.link p).plan2 = some pl) :
    SendsOwn (.masterQuery p) s s p (ownCell 4 (tickPayload pl)) := by
  refine gives_of_run (execMasterQuery.eq_1 p s) ha ?_
  have hm' : s.begin.isMaster p = true := hm
  have hpl' : (s.begin.link p).plan2 = some pl := hpl
  rw [if_neg (by simp [hm']; omega), hpl']
  exact sendsOwn_begin ..

theorem chainNotice_gives (ha : s.awake = true) (hp : p < 2) {n : Notice} {u : Nat} (hr : s.role p = .down) (hrelay : s.topo.role = .relay)
    (hu : s.upPort = some u) (hne : u ≠ p) (hup : s.linkUp u = true) (he : n.event = 0) :
    Gives (.chainNotice p n) s fun t => Told t u ctlChain (noticeFields n) [] ∧ (p, n) ∈ t.cable.notices := by
  refine gives_of_run (execChainNotice.eq_1 p n s) ha ?_
  have hr' : s.begin.role p = .down := hr
  rw [if_neg (by simp [hr']; omega), State.noticed]
  have hkeep : (p, n) ∈ (s.begin.keepNotice p n).cable.notices := by simp [State.keepNotice, he]
  have hup' : (s.begin.keepNotice p n).linkUp u = true := hup
  have hu' : (s.begin.keepNotice p n).upPort = some u := hu
  have hrelay' : (s.begin.keepNotice p n).topo.role = .relay := hrelay
  generalize s.begin.keepNotice p n = v at hkeep hup' hu' hrelay'
  simp only [hrelay', hu', hup', bne_iff_ne.mpr hne, Bool.and_self, if_true]
  refine ⟨State.told_ctl .., ?_⟩
  have hn : (v.ctl u ctlChain (noticeFields n)).cable.notices = v.cable.notices := by
    rw [State.ctl, State.ctlSend_eq]
    exact foldl_same (fun s c => State.sendOwn s u c) (fun w => w.cable.notices) (fun w c => by unfold State.sendOwn; dsimp only; split <;> rfl) _ _
  exact hn ▸ hkeep

theorem linkCtrlUnknown_sends (ha : s.awake = true) (hp : p < 2) {f : FlowSt} (hf : (s.link p).flows = [f]) (hl : f.label = 1) (htc : f.tc = 7) :
    SendsOwn (.linkCtrlUnknown p) s (s.setLink p fun l => l.setFlow 1 fun f => { f with sinceCredit := 0 }) p
      (ownCell 3 (creditBytes [⟨1, false, s.ackOf p f, f.granted⟩])) := by
  refine gives_of_run (execLinkCtrlUnknown.eq_1 p s) ha ?_
  have hf' : (s.begin.link p).flows = [f] := hf
  have hflow : (s.begin.link p).flow 1 = some f := by simp [LinkSt.flow, hf', hl]
  have hgrant : s.begin.grant p f = f.granted := by simp [State.grant, htc, credited]
  rw [if_neg (by omega), State.sendCredits, hf']
  simp only [List.filter_cons, List.filter_nil, htc, hl, lossless, Option.isNone_some, Bool.false_or, beq_self_eq_true, Bool.true_or, Bool.and_self, if_true,
    List.map_cons, List.map_nil, List.foldl_cons, List.foldl_nil, hflow, hgrant, Bool.false_and, Bool.false_eq_true, if_false, List.nil_append,
    List.length_singleton]
  rw [State.setLink_congr (s := s.begin) (p := p) (f := fun l => l.setFlow 1 fun x => { x with granted := f.granted, sinceCredit := 0 })
    (g := fun l => l.setFlow 1 fun f => { f with sinceCredit := 0 }) (by simp [LinkSt.setFlow, hf', hl])]
  exact sendsOwn_begin (s.setLink p fun l => l.setFlow 1 fun f => { f with sinceCredit := 0 }) p _

/-- A link that closes for a cause of its own command. -/
theorem closes_begin (hp : p < 2) {cause : Nat} (hc : cause ≠ 6) (ho : s.phyOut p = false) (hlen : s.cable.links.length = 2) :
    ((s.begin.closeLink p cause).link p).state = 1 ∧ ((s.begin.closeLink p cause).link p).cause = cause := by
  obtain ⟨h1, h2, -⟩ := State.closeLink_gives (s := s.begin) (p := p) (cause := cause) (by rw [State.begin_cable, hlen]; exact hp) hc ho
  exact ⟨h1, h2⟩

theorem linkClose_gives (ha : s.awake = true) (hp : p < 2) {cause : Nat} (hc : cause ≤ 255) (hst : (s.link p).state ≠ 0) (ho : s.phyOut p = false)
    (hlen : s.cable.links.length = 2) : Gives (.linkClose p cause) s fun t => (t.link p).state = 1 ∧ (t.link p).cause = 7 := by
  refine gives_of_run (execLinkClose.eq_1 p cause s) ha ?_
  have hst' : ((s.begin.link p).state == 0) = false := beq_eq_false_iff_ne.mpr hst
  rw [if_neg (by simp [hst']; omega)]
  exact closes_begin hp (by decide) ho hlen

/-! ### Replay -/

theorem gapTimeout_sends (ha : s.awake = true) {label : Nat} {f : FlowSt} {c : Cell} (hf : (s.link p).flow label = some f) (hheld : f.rxHeld = [c])
    (hl : lossless f.tc = true) (ht : f.heldAt + s.cv Fld.REORDER_NS / 125 ≤ s.slotNow) :
    SendsOwn (.gapTimeout p label) s s p (ownCell 3 (creditBytes [⟨label, true, (s.ackOf p f + 1) % 4096, f.granted⟩])) := by
  refine gives_of_run (execGapTimeout.eq_1 p label s) ha ?_
  have hf' : (s.begin.link p).flow label = some f := hf
  have hslot : s.begin.slotNow = s.slotNow := rfl
  rw [hf']
  dsimp only
  rw [if_neg (by simp [hheld, hslot, ht]), hl, State.sendNak, hf']
  exact sendsOwn_begin ..

theorem gapTimeout_early (ha : s.awake = true) {label : Nat} {f : FlowSt} (hf : (s.link p).flow label = some f)
    (ht : s.slotNow < f.heldAt + s.cv Fld.REORDER_NS / 125) : Leaves (.gapTimeout p label) s s := by
  refine gives_of_run (execGapTimeout.eq_1 p label s) ha ?_
  have hf' : (s.begin.link p).flow label = some f := hf
  have hslot : s.begin.slotNow = s.slotNow := rfl
  rw [hf']
  dsimp only
  rw [if_pos (by simp [hslot, ht])]
  rfl

/-- The oldest cell that waits for its acknowledgement. -/
theorem oldest_begin {label : Nat} {f : FlowSt} {u : Unacked} (hf : (s.link p).flow label = some f) (hu : f.unacked.head? = some u) :
    (((s.begin.link p).flow label).bind (·.unacked.head?)) = some u := by
  have hf' : (s.begin.link p).flow label = some f := hf
  rw [hf', Option.bind_some, hu]

theorem replayTimeout_early (ha : s.awake = true) {label : Nat} {f : FlowSt} {u : Unacked} (hf : (s.link p).flow label = some f)
    (hu : f.unacked.head? = some u) (ht : s.passed u.tick (s.cv Fld.REPLAY_TIMEOUT_TICKS) = false) : Leaves (.replayTimeout p label) s s := by
  refine gives_of_run (execReplayTimeout.eq_1 p label s) ha ?_
  have ht' : s.begin.passed u.tick (s.begin.cv Fld.REPLAY_TIMEOUT_TICKS) = false := by
    rw [State.cv_begin]
    exact ht
  rw [oldest_begin hf hu]
  dsimp only
  rw [ht']
  rfl

/-- The only cell that waits, sent fewer times than the limit, is taken up again. -/
theorem replayTimeout_due (ha : s.awake = true) {label : Nat} {f : FlowSt} {u : Unacked} {P : State → Prop} (hf : (s.link p).flow label = some f)
    (hu : f.unacked = [u]) (hn : u.sends < s.cv Fld.REPLAY_LIMIT) (ht : s.passed u.tick (s.cv Fld.REPLAY_TIMEOUT_TICKS) = true)
    (h : P (if label == 1 then (s.begin.sentAgain p 1 u.cell.seq).sendOwn p u.cell
      else s.begin.setLink p fun l => l.setFlow label fun f => { f with again := [u.cell.seq] })) : Gives (.replayTimeout p label) s P := by
  refine gives_of_run (execReplayTimeout.eq_1 p label s) ha ?_
  have hf' : (s.begin.link p).flow label = some f := hf
  have ht' : s.begin.passed u.tick (s.begin.cv Fld.REPLAY_TIMEOUT_TICKS) = true := by
    rw [State.cv_begin]
    exact ht
  have hn' : decide (s.begin.cv Fld.REPLAY_LIMIT ≤ u.sends) = false := by
    rw [State.cv_begin]
    exact decide_eq_false (Nat.not_le.mpr hn)
  rw [oldest_begin hf (by rw [hu]; rfl)]
  dsimp only
  rw [ht', State.replayFrom, hf']
  simp only [hu, List.dropWhile_cons, bne_self_eq_false, Bool.false_eq_true, if_false, List.any_cons, List.any_nil, hn', Bool.or_false, List.foldl_cons,
    List.foldl_nil, List.map_cons, List.map_nil, Bool.not_true]
  split at h
  · rename_i h1
    simp only [h1, if_true, Bool.false_eq_true, if_false]
    exact h
  · rename_i h1
    simp only [h1, Bool.false_eq_true, if_false]
    exact h

/-! ### Bring-up and the master -/

/-- The links, the clock and the number of lanes' sets. -/
def State.linkBed (s : State) : List LinkSt × TimeSt × Nat := (s.cable.links, s.time, s.cable.cpx.length)

theorem State.linkBed_setCpx (s : State) (p : Nat) (f : CpxSt → CpxSt) : (s.setCpx p f).linkBed = s.linkBed := by
  simp [State.linkBed, State.setCpx]

theorem State.linkBed_finishAll (l : List (Via × Nat)) (s : State) (rc : Nat) (data : List Byte) :
    (l.foldl (fun s j => s.finish j.1 j.2 rc data) s).linkBed = s.linkBed :=
  foldl_same (fun s j => State.finish s j.1 j.2 rc data) State.linkBed (fun s j => by simp [State.linkBed]) l s

theorem State.linkBed_endRecal (s : State) (p k o : Nat) : (s.endRecal p k o).linkBed = s.linkBed := by
  unfold State.endRecal
  split
  · rfl
  · have hev : ∀ (w : State) n a, (w.laneEv p n a).linkBed = w.linkBed := fun w n a => by simp [State.laneEv, State.linkBed]
    rw [hev, State.linkBed_finishAll, State.linkBed_setCpx]

theorem State.linkBed_endTest (s : State) (p k rc : Nat) (data : List Byte) : (s.endTest p k rc data).linkBed = s.linkBed := by
  unfold State.endTest
  split
  · rfl
  · rw [State.linkBed_finishAll, State.setLane, State.linkBed_setCpx]

theorem State.linkBed_lanesOff (s : State) (p : Nat) : (s.lanesOff p).linkBed = s.linkBed := by
  unfold State.lanesOff
  rw [State.linkBed_setCpx]
  exact foldl_same (fun s k => (State.endRecal s p k 4).endTest p k Rc.badState.code []) State.linkBed
    (fun s k => by rw [State.linkBed_endTest, State.linkBed_endRecal]) fourLanes s

/-- A port that waits for its restart: its lanes rest, its link is at BRINGUP and keeps its count of restarts. -/
theorem State.waitRestart_gives {s : State} {p : Nat} (hl : p < s.cable.links.length) (hc : p < s.cable.cpx.length) :
    ((s.waitRestart p).cpx p).step = 8 ∧ ((s.waitRestart p).cpx p).since = s.time.tick
      ∧ ((s.waitRestart p).link p).restarts = (s.link p).restarts ∧ ((s.waitRestart p).link p).state = 1 := by
  have hbed := s.linkBed_lanesOff p
  unfold State.waitRestart
  dsimp only
  generalize s.lanesOff p = u at hbed
  obtain ⟨hlinks, htime, hlen⟩ : u.cable.links = s.cable.links ∧ u.time = s.time ∧ u.cable.cpx.length = s.cable.cpx.length := by
    simpa only [State.linkBed, Prod.mk.injEq] using hbed
  have hcpx : ((u.setCpx p fun c => { c with step := 8, since := u.time.tick }).cpx p) = { u.cpx p with step := 8, since := u.time.tick } :=
    nth_modify_same _ u.cable.cpx p .init (by rw [hlen]; exact hc)
  have hlink : ((u.setLink p fun l => { l.down with state := 1, keyCause := l.keyCause }).link p)
      = { (u.link p).down with state := 1, keyCause := (u.link p).keyCause } := u.link_setLink _ p (by rw [hlinks]; exact hl)
  have hrest : (u.link p).restarts = (s.link p).restarts := by rw [State.link, hlinks, State.link]
  exact ⟨(congrArg CpxSt.step hcpx :), (congrArg CpxSt.since hcpx :).trans (by rw [htime]), (congrArg LinkSt.restarts hlink :).trans hrest,
    (congrArg LinkSt.state hlink :)⟩

theorem linkTTimeout_gives (ha : s.awake = true) (hp : p < 2) (hst : (s.cpx p).step = 3) (hb : s.bringupOver p = false)
    (ht : s.passed (s.link p).stepSince (msTicks 50) = true) (hr : (s.link p).restarts < 3) (hlen : s.cable.links.length = 2)
    (hcpx : s.cable.cpx.length = 2) :
    Gives (.linkTTimeout p) s fun t => (t.cpx p).step = 8 ∧ (t.cpx p).since = s.time.tick
      ∧ (t.link p).restarts = (s.link p).restarts + 1 ∧ (t.link p).state = 1 := by
  refine gives_of_run (execLinkTTimeout.eq_1 p s) ha ?_
  have hst' : (s.begin.cpx p).step = 3 := hst
  have hb' : s.begin.bringupOver p = false := hb
  have ht' : s.begin.passed (s.begin.link p).stepSince (msTicks 50) = true := ht
  have hr' : ¬ 3 ≤ (s.begin.link p).restarts := Nat.not_le.mpr hr
  dsimp only
  rw [if_neg (by simp [hst', hb', ht']; omega), State.step3Fail, if_neg hr']
  obtain ⟨h1, h2, h3, h4⟩ := State.waitRestart_gives (p := p) (s := s.begin.setLink p fun l => { l with restarts := l.restarts + 1, keyCause := false })
    (by simp [State.setLink, hlen, hp]) (by simp [State.setLink, hcpx, hp])
  refine ⟨h1, h2, h3.trans ?_, h4⟩
  rw [State.link_setLink _ _ _ (by rw [State.begin_cable, hlen]; exact hp)]
  rfl

theorem linkTTimeout_early (ha : s.awake = true) (h5 : s.passed (s.link p).stepSince (msTicks 5) = false)
    (h50 : s.passed (s.link p).stepSince (msTicks 50) = false) : Leaves (.linkTTimeout p) s s := by
  refine gives_of_run (execLinkTTimeout.eq_1 p s) ha ?_
  have h5' : s.begin.passed (s.begin.link p).stepSince (msTicks 5) = false := h5
  have h50' : s.begin.passed (s.begin.link p).stepSince (msTicks 50) = false := h50
  dsimp only
  rw [if_pos (by simp [h5', h50'])]
  rfl

theorem masterLossTimeout_gives (ha : s.awake = true) (hp : p < 2) (hr : s.role p = .up) (hup : s.linkUp p = true) (hg : (s.link p).gen1 = false)
    (hm : (s.link p).masterLost = false) (ht : (s.link p).masterLossTicks ≤ (s.link p).sinceTick) :
    Gives (.masterLossTimeout p) s fun t =>
      t.hush = ((s.setLink p fun l => { l with masterLost := true, lostAt := (s.link p).sinceTick }).ctlSend p ctlMasterQuery [] []).hush
      ∧ Told t p ctlMasterQuery [] [] ∧ Heard 1 s t (26 + 16 * p) (min 65535 (s.link p).sinceTick) := by
  refine gives_of_run (execMasterLossTimeout.eq_1 p s) ha ?_
  have hr' : s.begin.role p = .up := hr
  have hup' : s.begin.linkUp p = true := hup
  have hlink : s.begin.link p = s.link p := rfl
  dsimp only
  rw [hlink, if_neg (by simp [hr', hup', hg, hm]; omega)]
  refine ⟨?_, State.told_ctl .., Heard.holds ?_ (State.Rides.ctl (.refl _)).holds⟩
  · rw [State.linkEv]
    exact ((sends_ctl p ctlMasterQuery []).hush_raise _ _ _).trans ((sends_ctlSend p ctlMasterQuery [] []).hush_begin
      (s.setLink p fun l => { l with masterLost := true, lostAt := (s.link p).sinceTick }))
  · rw [State.linkEv, Nat.mod_eq_of_lt hp]
    exact heard_raise_mbx rfl rfl rfl

theorem masterLossTimeout_early (ha : s.awake = true) (ht : (s.link p).sinceTick < (s.link p).masterLossTicks) :
    Leaves (.masterLossTimeout p) s s := by
  refine gives_of_run (execMasterLossTimeout.eq_1 p s) ha ?_
  have ht' : (s.begin.link p).sinceTick < (s.begin.link p).masterLossTicks := ht
  dsimp only
  rw [if_pos (by simp [ht'])]
  rfl

theorem masterQueryTimeout_gives (ha : s.awake = true) (hp : p < 2) (hm : (s.link p).masterLost = true)
    (ht : (s.link p).lostAt + 64 ≤ (s.link p).sinceTick) (ho : s.phyOut p = false) (hlen : s.cable.links.length = 2) :
    Gives (.masterQueryTimeout p) s fun t => (t.link p).state = 1 ∧ (t.link p).cause = 5 := by
  refine gives_of_run (execMasterQueryTimeout.eq_1 p s) ha ?_
  have hlink : s.begin.link p = s.link p := rfl
  dsimp only
  rw [hlink, if_neg (by simp [hm]; omega)]
  exact closes_begin hp (by decide) ho hlen

theorem masterQueryTimeout_early (ha : s.awake = true) (ht : (s.link p).sinceTick < (s.link p).lostAt + 64) :
    Leaves (.masterQueryTimeout p) s s := by
  refine gives_of_run (execMasterQueryTimeout.eq_1 p s) ha ?_
  have ht' : (s.begin.link p).sinceTick < (s.begin.link p).lostAt + 64 := ht
  dsimp only
  rw [if_pos (by simp [ht'])]
  rfl

/-- Settles O17: a message or a cell is the one the model sends; a link that closes obeys its rule; a restart keeps the link's count. -/
theorem linkControl : Obligations.LinkControl := by
  unfold Obligations.LinkControl
  refine ⟨fun s p ha hp => ⟨?_, ?_, ?_, ?_, ?_⟩, fun s p label ha hp => ⟨?_, ?_, ?_, ?_, ?_, ?_, ?_, ?_, ?_, ?_⟩⟩
  · exact fun k use hk hu hst => laneNotice_leaves ha hp hk hu hst
  · exact fun pl hm hpl => masterQuery_sends ha hp hm hpl
  · exact fun n u hr hrelay hu hne hup he => chainNotice_gives ha hp hr hrelay hu hne hup he
  · exact fun f hf hl htc => linkCtrlUnknown_sends ha hp hf hl htc
  · exact fun cause hc hst ho hlen => linkClose_gives ha hp hc hst ho hlen
  · exact fun f c hf hheld hl ht => gapTimeout_sends ha hf hheld hl ht
  · exact fun f hf ht => gapTimeout_early ha hf ht
  · refine fun f u hf hu hn ht => ⟨fun hl => ?_, fun hl => ?_⟩
    · refine replayTimeout_due ha hf hu hn ht ?_
      rw [if_neg (by simpa using hl)]
      rfl
    · subst hl
      refine replayTimeout_due ha hf hu hn ht ?_
      rw [if_pos (by decide)]
      exact sendsOwn_begin (s.sentAgain p 1 u.cell.seq) p u.cell
  · exact fun f u hf hu ht => replayTimeout_early ha hf hu ht
  · exact fun hst hb ht hr hlen hcpx => linkTTimeout_gives ha hp hst hb ht hr hlen hcpx
  · exact fun h5 h50 => linkTTimeout_early ha h5 h50
  · exact fun hr hup hg hm ht => masterLossTimeout_gives ha hp hr hup hg hm ht
  · exact fun ht => masterLossTimeout_early ha ht
  · exact fun hm ht ho hlen => masterQueryTimeout_gives ha hp hm ht ho hlen
  · exact fun ht => masterQueryTimeout_early ha ht

end Sys2Proof.Machine

/-! Training starts, fails, starts again and steps (R125, R136, R139, R176, Table 5.6). -/
namespace Sys2Proof.Machine

variable {s : State} {p : Nat}

/-- What the start of a training leaves: the lanes that are not retired in TRAIN at step 1, the link at BRINGUP, the port without a role. -/
def State.trainFresh (t : State) (p : Nat) : State :=
  ((t.setCpx p fun c => { c with
      step := 1
      heldOff := false
      lanes := c.lanes.map fun (l : LaneSt) =>
        if l.state == .retired then l
        else { l with
          state := .train, rate := .none, use := if l.use == 3 || (l.state == .floor && !firmCause l.cause) then 0 else l.use
          fFwd := false, fRev := false, hTrained := false, turnHold := false, ready := none, capH := false, tx := .init, hist := []
          rx := .init, eqs := [.init, .init, .init] } }).setLink p fun l => { l.down with state := 1 }).roleEnds p

theorem State.startTraining_fresh (ho : s.phyOut p = false) (hh : s.time.holdover ≠ 2) : s.startTraining p = s.trainFresh p := by
  unfold State.startTraining
  rw [if_neg (by simp [ho]), if_neg (by simpa using hh)]
  rfl

theorem State.startTraining_held (ho : s.phyOut p = false) (hh : s.time.holdover = 2) :
    s.startTraining p = s.setCpx p fun c => { c with heldOff := true } := by
  unfold State.startTraining
  rw [if_neg (by simp [ho]), if_pos (by simpa using hh)]

/-! ### Starts -/

theorem laneTrainingStart_fresh (ha : s.awake = true) (hp : p < 2) (ho : s.phyOut p = false) (hup : s.linkUp p = false)
    (hb : s.bringupOver p = false) (hh : s.time.holdover ≠ 2) :
    Leaves (.laneTrainingStart p) s ((s.trainFresh p).setCpx p fun c => { c with restarts := 0 }) := by
  refine gives_of_run (execLaneTrainingStart.eq_1 p s) ha ?_
  have hup' : s.begin.linkUp p = false := hup
  have hb' : s.begin.bringupOver p = false := hb
  rw [if_neg (by simp [hup', hb']; omega), State.startTraining_fresh (s := s.begin) ho hh]
  rfl

theorem laneTrainingStart_held (ha : s.awake = true) (hp : p < 2) (ho : s.phyOut p = false) (hup : s.linkUp p = false)
    (hb : s.bringupOver p = false) (hh : s.time.holdover = 2) :
    Leaves (.laneTrainingStart p) s (s.setCpx p fun c => { c with heldOff := true, restarts := 0 }) := by
  refine gives_of_run (execLaneTrainingStart.eq_1 p s) ha ?_
  have hup' : s.begin.linkUp p = false := hup
  have hb' : s.begin.bringupOver p = false := hb
  rw [if_neg (by simp [hup', hb']; omega), State.startTraining_held (s := s.begin) ho hh, State.setCpx_setCpx]
  rfl

theorem trainingRestartDelay_fresh (ha : s.awake = true) (hp : p < 2) (ho : s.phyOut p = false) (hst : (s.cpx p).step = 8)
    (ht : s.passed (s.cpx p).since (msTicks 100) = true) (hh : s.time.holdover ≠ 2) : Leaves (.trainingRestartDelay p) s (s.trainFresh p) := by
  refine gives_of_run (execTrainingRestartDelay.eq_1 p s) ha ?_
  have hcpx : s.begin.cpx p = s.cpx p := rfl
  have ht' : s.begin.passed (s.cpx p).since (msTicks 100) = true := ht
  dsimp only
  rw [hcpx, if_pos (by simp [hst, ht', hh]; omega), State.startTraining_fresh (s := s.begin) ho hh]
  rfl

theorem bringupRestart_fresh (ha : s.awake = true) (hp : p < 2) (ho : s.phyOut p = false) (hst : (s.cpx p).step = 8)
    (ht : s.passed (s.cpx p).since (msTicks 100) = true) (hh : s.time.holdover ≠ 2) : Leaves (.bringupRestart p) s (s.trainFresh p) := by
  refine gives_of_run (execBringupRestart.eq_1 p s) ha ?_
  have hcpx : s.begin.cpx p = s.cpx p := rfl
  have ht' : s.begin.passed (s.cpx p).since (msTicks 100) = true := ht
  dsimp only
  rw [hcpx, if_neg (by simp [hst, ht', hh]; omega), State.startTraining_fresh (s := s.begin) ho hh]
  rfl

theorem restart_early (ha : s.awake = true) (ht : s.passed (s.cpx p).since (msTicks 100) = false) :
    Leaves (.trainingRestartDelay p) s s ∧ Leaves (.bringupRestart p) s s := by
  have ht' : s.begin.passed (s.begin.cpx p).since (msTicks 100) = false := ht
  refine ⟨gives_of_run (execTrainingRestartDelay.eq_1 p s) ha ?_, gives_of_run (execBringupRestart.eq_1 p s) ha ?_⟩
  · dsimp only
    rw [if_neg (by simp [ht'])]
    rfl
  · dsimp only
    rw [if_pos (by simp [ht'])]
    rfl

theorem floorRetrain_fresh (ha : s.awake = true) (hp : p < 2) (ho : s.phyOut p = false) (hf : ((s.cpx p).lanes.any fun l => l.state == .floor) = true)
    (ht : s.passed (s.cpx p).floorAt (secTicks 1) = true) (hup : s.linkUp p = false) (hh : s.time.holdover ≠ 2) :
    Leaves (.floorRetrain p) s (s.trainFresh p) := by
  refine gives_of_run (execFloorRetrain.eq_1 p s) ha ?_
  have hf' : ((s.begin.cpx p).lanes.any fun l => l.state == .floor) = true := hf
  have ht' : s.begin.passed (s.begin.cpx p).floorAt (secTicks 1) = true := ht
  have hup' : s.begin.linkUp p = false := hup
  have hp' : decide (1 < p) = false := decide_eq_false (by omega)
  rw [hf', ht', hp', hup', if_neg (by decide), if_neg (by decide), State.startTraining_fresh (s := s.begin) ho hh]
  rfl

theorem floorRetrain_early (ha : s.awake = true) (ht : s.passed (s.cpx p).floorAt (secTicks 1) = false) : Leaves (.floorRetrain p) s s := by
  refine gives_of_run (execFloorRetrain.eq_1 p s) ha ?_
  have ht' : s.begin.passed (s.begin.cpx p).floorAt (secTicks 1) = false := ht
  rw [if_pos (by simp [ht'])]
  rfl

/-! ### Steps -/

theorem State.mem_inTraining {s : State} {p : Nat} {res : List LaneRes} {x : Nat × LaneRes} (h : x ∈ s.inTraining p res) :
    x.2 ∈ res ∧ x.1 < 4 ∧ (s.lane p x.1).state = .train := by
  obtain ⟨y, hy, hx⟩ := List.mem_filterMap.mp h
  obtain ⟨hc, hx⟩ : (y.2 < 4 ∧ (s.lane p y.2).state = .train) ∧ (y.2, y.1) = x := by
    simpa [Option.ite_none_right_eq_some] using hx
  subst hx
  obtain ⟨-, -, hr⟩ := List.mem_zipIdx hy
  exact ⟨hr ▸ List.getElem_mem _, hc⟩

/-- A fold whose every step leaves the state that it starts from. -/
theorem foldl_still {α β : Type} {f : α → β → α} {a : α} {l : List β} (h : ∀ b ∈ l, f a b = a) : l.foldl f a = a := by
  induction l with
  | nil => rfl
  | cons b l ih =>
    rw [List.foldl_cons, h b List.mem_cons_self]
    exact ih fun c hc => h c (List.mem_cons_of_mem _ hc)

theorem nth_eq_or_mem {α : Type} (l : List α) (i : Nat) (d : α) : nth l i d = d ∨ nth l i d ∈ l := by
  by_cases h : i < l.length
  · exact .inr (by rw [nth, List.getD_eq_getElem _ _ h]; exact List.getElem_mem h)
  · exact .inl (List.getD_eq_default _ _ (Nat.not_lt.mp h))

/-- The step that ends, while the sequencer runs. -/
theorem trainingStepEnd_gives (ha : s.awake = true) (ho : s.phyOut p = false) {res : List LaneRes} {peer : PeerLane} {P : State → Prop}
    (h : P (s.begin.trainStep p res peer)) : Gives (.trainingStepEnd p res peer) s P := by
  refine gives_of_run (execTrainingStepEnd.eq_1 p res peer s) ha ?_
  have ho' : s.begin.phyOut p = false := ho
  rw [if_neg (by simp [ho'])]
  exact h

section
variable {u : State} (hp : p < 2) (hup : u.linkUp p = false) (res : List LaneRes) (peer : PeerLane)
include hp hup

theorem State.trainStep_detect (h : (u.cpx p).step = 1) : u.trainStep p res peer = u.stepDetect p res := by
  rw [State.trainStep, if_neg (by simp [hup]; omega), h]
  rfl

theorem State.trainStep_linkT (h : (u.cpx p).step = 3) : u.trainStep p res peer = u.stepLinkT p := by
  rw [State.trainStep, if_neg (by simp [hup]; omega), h]
  rfl

theorem State.trainStep_eqF (h : (u.cpx p).step = 4) : u.trainStep p res peer = u.stepEqF p res := by
  rw [State.trainStep, if_neg (by simp [hup]; omega), h]
  rfl

end

theorem stepDetect_leaves (ha : s.awake = true) (hp : p < 2) (ho : s.phyOut p = false) (hup : s.linkUp p = false) {res : List LaneRes}
    {peer : PeerLane} (hst : (s.cpx p).step = 1) (hr : ∀ r ∈ res, r.fwd = true) :
    Leaves (.trainingStepEnd p res peer) s (s.setCpx p fun c => { c with
      step := 2
      lanes := c.lanes.map fun (l : LaneSt) => if l.state == .off then { l with state := .train, rate := .none } else l }) := by
  refine trainingStepEnd_gives ha ho ?_
  rw [State.trainStep_detect (u := s.begin) hp hup _ _ hst]
  refine (congrArg State.hush (?_ : s.begin.stepDetect p res = _)).trans (State.hush_begin _)
  unfold State.stepDetect
  refine foldl_still fun x hx => ?_
  rw [if_pos (hr x.2 (State.mem_inTraining hx).1)]

theorem stepLinkT_leaves (ha : s.awake = true) (hp : p < 2) (ho : s.phyOut p = false) (hup : s.linkUp p = false) {res : List LaneRes}
    {peer : PeerLane} (hst : (s.cpx p).step = 3) (he : (s.link p).elected = true) (hk : (s.link p).keysIn = true) (hr : s.role p = .down)
    (hg : (s.link p).gen1 = false) :
    Leaves (.trainingStepEnd p res peer) s (s.setCpx p fun c => { c with step := if s.maxH p then 5 else 4 }) := by
  refine trainingStepEnd_gives ha ho ?_
  have hlink : s.begin.link p = s.link p := rfl
  have hr' : s.begin.role p = .down := hr
  have hmax : s.begin.maxH p = s.maxH p := by rw [State.maxH, State.cv_begin]; rfl
  rw [State.trainStep_linkT (u := s.begin) hp hup _ _ hst]
  dsimp only [State.stepLinkT]
  rw [hlink, he, hk, hg, hr', hmax]
  rfl

theorem stepEqF_leaves (ha : s.awake = true) (hp : p < 2) (ho : s.phyOut p = false) (hup : s.linkUp p = false) {res : List LaneRes}
    {peer : PeerLane} (hst : (s.cpx p).step = 4) (hl : ∀ l ∈ (s.cpx p).lanes, l.state ≠ .train) :
    Leaves (.trainingStepEnd p res peer) s (s.setCpx p fun c => { c with step := 5 }) := by
  refine trainingStepEnd_gives ha ho ?_
  have hnone : s.begin.inTraining p res = [] := List.eq_nil_iff_forall_not_mem.mpr fun x hx => by
    obtain ⟨-, -, htrain⟩ := State.mem_inTraining hx
    rcases nth_eq_or_mem (s.cpx p).lanes x.1 .init with h | h
    · exact absurd (h ▸ htrain : LaneSt.init.state = .train) (by decide)
    · exact hl _ h htrain
  rw [State.trainStep_eqF (u := s.begin) hp hup _ _ hst]
  dsimp only [State.stepEqF]
  rw [hnone]
  rfl

/-- Settles O11: each start is the one fresh training, or waits for holdover's end; a step that decides nothing finds no lane that fails. -/
theorem laneTraining : Obligations.LaneTraining := by
  unfold Obligations.LaneTraining
  refine ⟨fun s p ha hp ho => ⟨?_, ?_, ?_, ?_, ?_, ?_⟩, fun s p res peer ha hp ho hup => ⟨?_, ?_, ?_⟩⟩
  · exact fun hup hb hh => laneTrainingStart_fresh ha hp ho hup hb hh
  · exact fun hup hb hh => laneTrainingStart_held ha hp ho hup hb hh
  · exact fun hst ht hh => ⟨trainingRestartDelay_fresh ha hp ho hst ht hh, bringupRestart_fresh ha hp ho hst ht hh⟩
  · exact fun ht => restart_early ha ht
  · exact fun hf ht hup hh => floorRetrain_fresh ha hp ho hf ht hup hh
  · exact fun ht => floorRetrain_early ha ht
  · exact fun hst hr => stepDetect_leaves ha hp ho hup hst hr
  · exact fun hst he hk hr hg => stepLinkT_leaves ha hp ho hup hst he hk hr hg
  · exact fun hst _ hl => stepEqF_leaves ha hp ho hup hst hl

end Sys2Proof.Machine

/-! Lanes turn around, come back from L1X and slip (R114 to R118, R121, R128); re-calibration (R129 to R134, R138). -/
namespace Sys2Proof.Machine

variable {s : State} {p k : Nat}

@[simp] theorem State.begin_lane (s : State) (p k : Nat) : s.begin.lane p k = s.lane p k := rfl
@[simp] theorem State.begin_link (s : State) (p : Nat) : s.begin.link p = s.link p := rfl
@[simp] theorem State.begin_cpx (s : State) (p : Nat) : s.begin.cpx p = s.cpx p := rfl
@[simp] theorem State.begin_linkUp (s : State) (p : Nat) : s.begin.linkUp p = s.linkUp p := rfl
@[simp] theorem State.begin_passed (s : State) (t : Tick) (n : Nat) : s.begin.passed t n = s.passed t n := rfl
@[simp] theorem State.begin_phyOut (s : State) (p : Nat) : s.begin.phyOut p = s.phyOut p := rfl
@[simp] theorem State.begin_recalCond (s : State) (p k : Nat) : s.begin.recalCond p k = s.recalCond p k := rfl

/-! ### One lane -/

theorem CpxSt.init_lane (k : Nat) : nth CpxSt.init.lanes k .init = LaneSt.init := by
  rcases nth_eq_or_mem CpxSt.init.lanes k .init with h | h
  · exact h
  · exact List.eq_of_mem_replicate (n := 4) h

/-- A lane that is not as after a reset is there. -/
theorem State.lane_setLane_self {f : LaneSt → LaneSt} (h : s.lane p k ≠ .init) : (s.setLane p k f).lane p k = f (s.lane p k) := by
  have hp : p < s.cable.cpx.length := lt_of_nth_ne (d := .init) fun hc => h (by rw [State.lane, State.cpx, hc, CpxSt.init_lane])
  have hk : k < (s.cpx p).lanes.length := lt_of_nth_ne h
  have hc : (s.setLane p k f).cpx p = { s.cpx p with lanes := (s.cpx p).lanes.modify k f } :=
    nth_modify_same (fun c : CpxSt => { c with lanes := c.lanes.modify k f }) s.cable.cpx p .init hp
  rw [State.lane, hc]
  exact nth_modify_same f (s.cpx p).lanes k .init hk

theorem lane_bounds (hp : p < 2) (hk : k < 4) : (decide (1 < p) || decide (3 < k)) = false := by
  simp only [Bool.or_eq_false_iff, decide_eq_false_iff_not]
  omega

/-! ### Turning around -/

theorem turnaround_none (ha : s.awake = true) (x : RxState) (h : (s.link p).gen1 = true ∨ s.turnsNow p k = false) :
    Leaves (.turnaround p k x) s s := by
  refine gives_of_run (execTurnaround.eq_1 p k x s) ha ?_
  have hg : s.begin.link p = s.link p := rfl
  have ht : s.begin.turnsNow p k = s.turnsNow p k := rfl
  rw [hg, ht, if_pos (by rcases h with h | h <;> simp [h])]
  rfl

/-- A lane whose turn it is does what its direction says. -/
theorem turnaround_leaves (ha : s.awake = true) (hp : p < 2) (hk : k < 4) {x : RxState} (hg : (s.link p).gen1 = false)
    (ht : s.turnsNow p k = true) {g : LaneSt → LaneSt}
    (h : g (s.lane p k) = if (s.lane p k).forward == (s.txDir p == 1) then
      { s.lane p k with
        forward := !(s.lane p k).forward, rx := boundRx x, eqs := (s.lane p k).eqs.modify (rateIdx (s.lane p k).rate) fun e => { e with rx := boundRx x } }
      else { s.lane p k with
        forward := !(s.lane p k).forward, discard := false
        rx := if rateIdx (s.lane p k).rate < 3 then (nth (s.lane p k).eqs (rateIdx (s.lane p k).rate) .init).rx else (s.lane p k).rx
        cnt := { (s.lane p k).cnt with turns := satAdd 32 (s.lane p k).cnt.turns 1 } }) :
    Leaves (.turnaround p k x) s (s.setLane p k g) := by
  refine gives_of_run (execTurnaround.eq_1 p k x s) ha ?_
  have hg' : (s.begin.link p).gen1 = false := hg
  have ht' : s.begin.turnsNow p k = true := ht
  rw [hg', ht', lane_bounds hp hk, if_neg (by decide)]
  refine (congrArg State.hush (?_ : _ = s.begin.setLane p k g)).trans rfl
  exact State.setLane_congr (by exact h.symm)

/-! ### L1X and slips -/

theorem l1xComplete_leaves (ha : s.awake = true) (hp : p < 2) (hk : k < 4) (hst : (s.lane p k).state = .l1x)
    (hr : ((s.lane p k).ready.any fun t => reached s.time.tick (t - 1)) = true) :
    Leaves (.l1xComplete p k true) s (s.setLane p k fun l => { l with state := .l0s }) := by
  refine gives_of_run (execL1xComplete.eq_1 p k true s) ha ?_
  have hr' : ((s.begin.lane p k).ready.any fun t => reached s.begin.time.tick (t - 1)) = true := hr
  have hst' : (s.begin.lane p k).state = .l1x := hst
  dsimp only
  rw [hr', hst', lane_bounds hp hk, if_neg (by decide), if_pos rfl]
  rfl

theorem l1xComplete_early (ha : s.awake = true) (hr : ((s.lane p k).ready.any fun t => reached s.time.tick (t - 1)) = false) (ok : Bool) :
    Leaves (.l1xComplete p k ok) s s := by
  refine gives_of_run (execL1xComplete.eq_1 p k ok s) ha ?_
  have hr' : ((s.begin.lane p k).ready.any fun t => reached s.begin.time.tick (t - 1)) = false := hr
  dsimp only
  rw [hr', if_pos (by simp)]
  rfl

/-- The express cells of a lane's coach that await its trailer are gone. -/
def State.expressDropped (u : State) (p k : Nat) : State :=
  { u with sw := { u.sw with express := u.sw.express.modify p fun qs => qs.filter fun q => !(q.pending && q.coach == k) } }

/-- A lane whose coach holds nothing loses no more than its express cells. -/
theorem State.dropCoach_empty {u : State} (hc : ∀ x ∈ (u.link p).coach, x.lane ≠ k) (hcut : u.cutCoach p k = none) :
    u.dropCoach p k = u.expressDropped p k := by
  have hno : (u.link p).coach.filter (fun x => x.lane == k) = [] := List.filter_eq_nil_iff.mpr fun x hx => by simpa using hc x hx
  have hkeep : (u.link p).coach.filter (fun x => x.lane != k) = (u.link p).coach := List.filter_eq_self.mpr fun x hx => by simpa using hc x hx
  have hpoison : u.poisonCut p k = u := by rw [State.poisonCut, hcut]
  have hset : ∀ v : State, v.link p = u.link p → v.setLink p (fun l => { l with coach := l.coach.filter fun x => x.lane != k }) = v := fun v hv =>
    (State.setLink_congr (g := fun l => l) (by rw [hv, hkeep])).trans
      (congrArg (fun c => ({ v with cable := { v.cable with links := c } } : State)) (List.modify_id p v.cable.links))
  unfold State.dropCoach
  simp only [State.coachCells, State.coachRx, hno, hpoison, List.map_nil, List.eraseDups_nil, List.foldl_nil, List.isEmpty_nil, if_true]
  exact hset _ rfl

theorem sosWindowMiss_gives (ha : s.awake = true) (hp : p < 2) (hk : k < 4) (cause : Nat) (hst : (s.lane p k).state = .l0)
    (hs : (s.lane p k).slipTicks = []) (he : (s.lane p k).slipEv = none) (hl : 2 ≤ s.cv Fld.SLIP_LIMIT)
    (hc : ∀ x ∈ (s.link p).coach, x.lane ≠ k) (hcut : s.cutCoach p k = none) (hh : (s.lane p k).turnHold = false) :
    Gives (.sosWindowMiss p k cause) s fun t =>
      t.hush = ({ (s.setLane p k fun l => { l with
          discard := true, slipTicks := [s.time.tick], slipEv := some s.time.tick
          cnt := { l.cnt with slips := satAdd 32 l.cnt.slips 1 } }) with
        sw := { s.sw with express := s.sw.express.modify p fun qs => qs.filter fun q => !(q.pending && q.coach == k) } } : State).hush
      ∧ Heard 1 s t (21 + 16 * p) (k + 4 * (cause % 4)) := by
  refine gives_of_run (execSosWindowMiss.eq_1 p k cause s) ha ?_
  have hlane : s.begin.lane p k = s.lane p k := rfl
  have hhold : ∀ l : List Tick, l.length = 1 → decide (s.begin.cv Fld.SLIP_LIMIT ≤ l.length) = false := fun l h1 => by
    rw [State.cv_begin, h1]
    exact decide_eq_false (by omega)
  dsimp only
  rw [hlane, lane_bounds hp hk, hst, hs, he, hh, if_neg (by decide)]
  rw [hhold _ rfl]
  simp only [Bool.false_and, Bool.false_eq_true, if_false, if_true, List.filter_nil, List.nil_append]
  generalize hu : s.begin.setLane p k _ = u
  have hslip : u.hush = (s.setLane p k fun l => { l with
      discard := true, slipTicks := [s.time.tick], slipEv := some s.time.tick, cnt := { l.cnt with slips := satAdd 32 l.cnt.slips 1 } }).hush := by
    rw [← hu]
    refine (congrArg State.hush (State.setLane_congr (s := s.begin) (g := fun l => { l with
      discard := true, slipTicks := [s.time.tick], slipEv := some s.time.tick, cnt := { l.cnt with slips := satAdd 32 l.cnt.slips 1 } }) ?_)).trans rfl
    simp [hh]
  have hlink : (u.laneEv p 21 (k + 4 * (cause % 4))).link p = s.link p := by rw [State.laneEv, State.raise_link, ← hu]; rfl
  have hnocut : (u.laneEv p 21 (k + 4 * (cause % 4))).cutCoach p k = none := by
    unfold State.cutCoach at hcut ⊢
    rw [State.laneEv, State.raise_lane, ← hu, State.lane_setLane_congr LaneSt.tx _ (by intro _; rfl)]
    exact hcut
  rw [State.dropCoach_empty (by rw [hlink]; exact hc) hnocut]
  refine ⟨?_, Heard.holds ?_ (.of_mbx rfl)⟩
  · refine (Aside.hush_raise (f := fun w => w.expressDropped p k) (fun _ _ _ _ _ => rfl) u _ _).trans ?_
    exact (congrArg (fun w : State => w.expressDropped p k) hslip :)
  · rw [State.laneEv, Nat.mod_eq_of_lt hp, ← hu]
    exact heard_raise_mbx rfl rfl rfl

/-! ### Re-calibration -/

/-- A lane waits in its port's queue for a re-calibration that a trigger asks for. -/
def State.trigQueued (t : State) (p k trig : Nat) : State :=
  t.setCpx p fun c => { c with
    queue := c.queue ++ [k]
    lanes := c.lanes.modify k fun l => { l with recal := some (t.newRecal trig 0 false false []) } }

theorem State.recalTrips_begin (s : State) (p k trig : Nat) : s.begin.recalTrips p k trig = s.recalTrips p k trig := by
  simp only [State.recalTrips, State.cv_begin]
  rfl

theorem recalTrigger_gives (ha : s.awake = true) (hp : p < 2) (hk : k < 4) {trig : Nat} (ht : s.recalTrips p k trig = true)
    (hv : laneServes (s.lane p k) = true) (hst : (s.lane p k).state ≠ .train) (hup : s.linkUp p = true) (hg : (s.link p).gen1 = false)
    (hc : s.recalCond p k = true) (hn : (s.lane p k).recal = none) :
    Gives (.recalTrigger p k trig) s fun t => t.hush = (s.trigQueued p k trig).hush ∧ Heard 1 s t (22 + 16 * p) (k + 16 * trig) := by
  refine gives_of_run (execRecalTrigger.eq_1 p k trig s) ha ?_
  have ht' : s.begin.recalTrips p k trig = true := by rw [State.recalTrips_begin, ht]
  have hst' : ((s.begin.lane p k).state == .train) = false := beq_eq_false_iff_ne.mpr hst
  have hraised : (s.begin.laneEv p 22 (k + 16 * trig)).link p = s.link p := State.raise_link ..
  have hup' : (s.begin.laneEv p 22 (k + 16 * trig)).linkUp p = true := (State.linkUp_link (by rw [hraised])).trans hup
  have hc' : (s.begin.laneEv p 22 (k + 16 * trig)).recalCond p k = true := by
    rw [State.laneEv, State.recalCond, State.raise_cpx]
    exact hc
  have hn' : ((s.begin.laneEv p 22 (k + 16 * trig)).lane p k).recal = none := by rw [State.laneEv, State.raise_lane, State.begin_lane, hn]
  dsimp only
  rw [ht', hst', lane_bounds hp hk, State.begin_lane, hv, if_neg (by decide), State.autoRecal]
  rw [hup', hraised, hg, hc', if_neg (by decide), if_pos rfl, State.queueRecal, hn']
  refine ⟨?_, Heard.holds ?_ (.of_mbx rfl)⟩
  · exact Aside.hush_raise (f := fun w => w.trigQueued p k trig) (fun _ _ _ _ _ => rfl) s.begin _ _
  · rw [State.laneEv, Nat.mod_eq_of_lt hp]
    exact heard_raise_mbx rfl rfl rfl

theorem recalTrigger_early (ha : s.awake = true) {trig : Nat} (ht : s.recalTrips p k trig = false) : Leaves (.recalTrigger p k trig) s s := by
  refine gives_of_run (execRecalTrigger.eq_1 p k trig s) ha ?_
  have ht' : s.begin.recalTrips p k trig = false := by rw [State.recalTrips_begin, ht]
  dsimp only
  rw [if_pos (by simp [ht'])]
  rfl

theorem recalDeferExpiry_leaves (ha : s.awake = true) (hp : p < 2) (hk : k < 4) {r : Recal} (hr : (s.lane p k).recal = some r) (hst : r.step = 0)
    (ht : (s.lane p k).test = none) (hh : s.heldBack p k = true) (hd : s.passed r.since (msTicks (s.cv Fld.RECAL_DEFER_MS)) = true) :
    Leaves (.recalDeferExpiry p k) s (s.setLane p k fun l => { l with recal := some { r with expired := true } }) := by
  refine gives_of_run (execRecalDeferExpiry.eq_1 p k s) ha ?_
  have hh' : s.begin.heldBack p k = true := hh
  have hd' : s.begin.passed r.since (msTicks (s.begin.cv Fld.RECAL_DEFER_MS)) = true := by rw [State.cv_begin]; exact hd
  dsimp only
  rw [hh', lane_bounds hp hk, if_neg (by decide)]
  refine (congrArg State.hush (?_ : _ = s.begin.setLane p k fun l => { l with recal := some { r with expired := true } })).trans rfl
  refine State.setLane_congr ?_
  simp only [State.begin_lane, hr, ht, hst, hd', Option.map_some, Option.map_none, beq_self_eq_true, Bool.and_self, if_true]

theorem recalDeferExpiry_free (ha : s.awake = true) (hh : s.heldBack p k = false) : Leaves (.recalDeferExpiry p k) s s := by
  refine gives_of_run (execRecalDeferExpiry.eq_1 p k s) ha ?_
  have hh' : s.begin.heldBack p k = false := hh
  dsimp only
  rw [if_pos (by simp [hh'])]
  rfl

theorem recalStepEnd_leaves (ha : s.awake = true) (hp : p < 2) (hk : k < 4) {r : Recal} {res : LaneRes} (ho : s.phyOut p = false)
    (hst : (s.lane p k).state = .cal) (hr : (s.lane p k).recal = some r) (h3 : r.step = 3) (hc : s.recalCond p k = true) (hf : res.fwd = true)
    (hv : res.rev = true) :
    Leaves (.recalStepEnd p k res) s (s.setLane p k fun l => { l with recal := some { r with micros := r.micros + res.micros, step := 4 } }) := by
  refine gives_of_run (execRecalStepEnd.eq_1 p k res s) ha ?_
  have hne : s.begin.lane p k ≠ .init := fun h => by
    rw [State.begin_lane] at h
    rw [h] at hr
    exact absurd hr (by simp [show LaneSt.init.recal = none from rfl])
  have hself := State.lane_setLane_self (f := fun l => { l with recal := l.recal.map fun r => { r with micros := r.micros + res.micros } }) hne
  rw [State.begin_phyOut, ho, if_neg (by decide), State.recalStep, State.begin_lane, hr]
  dsimp only
  rw [hst, h3, State.begin_recalCond, hc, lane_bounds hp hk, if_neg (by decide), if_neg (by decide)]
  simp only [hf, hv, Bool.not_true, Bool.and_false, Bool.false_and, Bool.or_self, Bool.false_eq_true, if_false, Nat.reduceBEq, Nat.reduceLeDiff]
  rw [State.recalOn, hself, State.begin_lane, hr]
  dsimp only [Option.map_some]
  rw [h3, if_pos (by decide), State.setLane_setLane]
  refine (congrArg State.hush (State.setLane_congr (s := s.begin) (g := fun l => { l with
    recal := some { r with micros := r.micros + res.micros, step := 4 } }) ?_)).trans rfl
  simp [hr, h3]

theorem recalStepEnd_none (ha : s.awake = true) (hc : s.recalCond p k = false) (res : LaneRes) : Leaves (.recalStepEnd p k res) s s := by
  refine gives_of_run (execRecalStepEnd.eq_1 p k res s) ha ?_
  have hnone : s.begin.recalStep p k res = s.begin := by
    unfold State.recalStep
    dsimp only
    split
    · rfl
    · rw [if_pos (by simp [hc])]
  rw [hnone, ite_self]
  rfl

/-- A lane tried again at the end of the interval: restored, unless what it lost stays lost. -/
def State.retryLane (s : State) (p k : Nat) : State :=
  if firmCause (s.lane p k).cause || (s.lane p k).recal.isSome then s
  else if (s.lane p k).state == .retired then s.restoreLane p k 5 none
  else if ((s.lane p k).use == 1 || (s.lane p k).use == 2) && s.linkUp p && laneServes (s.lane p k) && (s.lane p k).state != .train then
    s.restoreLane p k 5 none
  else s

theorem State.retryLane_stays {u : State} {p k : Nat} (hst : (u.lane p k).state ≠ .retired) (hdown : u.linkUp p = false) : u.retryLane p k = u := by
  have hst' : ((u.lane p k).state == .retired) = false := beq_eq_false_iff_ne.mpr hst
  rw [State.retryLane, hst', hdown, if_neg Bool.false_ne_true, if_neg (c := (_ && false && _ && _) = true) (by simp), ite_self]

theorem State.retryLane_restores {u : State} {p k : Nat} (hst : (u.lane p k).state = .retired) (hf : firmCause (u.lane p k).cause = false)
    (hr : (u.lane p k).recal = none) (hl : (u.link p).state < 2) :
    u.retryLane p k = u.setLane p k fun l => { l with state := .off, use := 0, ready := none } := by
  rw [State.retryLane, hst, hf, hr, if_neg (by decide), if_pos (by decide), State.restoreLane, if_neg (Nat.not_le.mpr hl)]

theorem laneRestoreRetry_leaves (ha : s.awake = true) (hp : p < 2) (hw : s.cv Fld.LANE_RETRY_S ≠ 0)
    (ht : s.passed (s.cpx p).retryAt (secTicks (s.cv Fld.LANE_RETRY_S)) = true) (hg : (s.link p).gen1 = false)
    (h3 : (s.lane p 3).state = .retired) (hf : firmCause (s.lane p 3).cause = false) (hr : (s.lane p 3).recal = none)
    (hj : ∀ j < 3, (s.lane p j).state ≠ .retired) (hl : (s.link p).state < 2) :
    Leaves (.laneRestoreRetry p) s ((s.setLane p 3 fun l => { l with state := .off, use := 0, ready := none }).setCpx p fun c =>
      { c with retryAt := s.time.tick }) := by
  refine gives_of_run (execLaneRestoreRetry.eq_1 p s) ha ?_
  have hp' : decide (1 < p) = false := decide_eq_false (by omega)
  have hw' : (s.begin.cv Fld.LANE_RETRY_S == 0) = false := by rw [State.cv_begin]; exact beq_eq_false_iff_ne.mpr hw
  have ht' : s.begin.passed (s.begin.cpx p).retryAt (secTicks (s.begin.cv Fld.LANE_RETRY_S)) = true := by rw [State.cv_begin]; exact ht
  dsimp only
  rw [hp', hw', ht', State.begin_link, hg, if_neg (by decide)]
  have hlane : ∀ j, (s.begin.setCpx p fun c => { c with retryAt := s.begin.time.tick }).lane p j = s.lane p j := fun j =>
    State.cpx_setCpx_congr (fun c => nth c.lanes j .init) _ (by intro _; rfl) s.begin p p
  have hbody : fourLanes.foldl (fun w j => w.retryLane p j) (s.begin.setCpx p fun c => { c with retryAt := s.begin.time.tick })
      = (s.begin.setCpx p fun c => { c with retryAt := s.begin.time.tick }).setLane p 3 fun l => { l with state := .off, use := 0, ready := none } := by
    have hlink : (s.begin.setCpx p fun c => { c with retryAt := s.begin.time.tick }).link p = s.link p := rfl
    generalize (s.begin.setCpx p fun c => { c with retryAt := s.begin.time.tick }) = u at hlane hlink
    have hdown : u.linkUp p = false := (State.linkUp_link (by rw [hlink])).trans (decide_eq_false (Nat.not_le.mpr hl))
    have hstay : ∀ j < 3, u.retryLane p j = u := fun j h => State.retryLane_stays (by rw [hlane]; exact hj j h) hdown
    rw [fourLanes, List.foldl_cons, hstay 0 (by decide), List.foldl_cons, hstay 1 (by decide), List.foldl_cons, hstay 2 (by decide), List.foldl_cons,
      List.foldl_nil]
    exact State.retryLane_restores (by rw [hlane, h3]) (by rw [hlane, hf]) (by rw [hlane, hr]) (by rw [hlink]; exact hl)
  refine (congrArg State.hush hbody).trans ?_
  unfold State.setLane
  rw [State.setCpx_setCpx, State.setCpx_setCpx]
  rfl

theorem laneRestoreRetry_early (ha : s.awake = true)
    (h : s.cv Fld.LANE_RETRY_S = 0 ∨ s.passed (s.cpx p).retryAt (secTicks (s.cv Fld.LANE_RETRY_S)) = false) : Leaves (.laneRestoreRetry p) s s := by
  refine gives_of_run (execLaneRestoreRetry.eq_1 p s) ha ?_
  dsimp only
  rw [State.cv_begin, State.begin_passed, State.begin_cpx, if_pos (by rcases h with h | h <;> simp [h])]
  rfl

/-- Settles O12: a lane's turn, return or slip is one change of the lane; a re-calibration asked for or stepped is one change of its queue or
its record. -/
theorem laneStates : Obligations.LaneStates := by
  unfold Obligations.LaneStates
  refine ⟨fun s p k ha hp hk => ⟨?_, ?_, ?_, ?_, ?_, ?_, ?_⟩, fun s p k ha hp hk => ⟨?_, ?_, ?_, ?_, ?_, ?_, ?_, ?_⟩⟩
  · exact fun x hg ht hf => turnaround_leaves ha hp hk hg ht (by rw [if_pos (by simpa using hf)])
  · exact fun x hg ht hf hi => turnaround_leaves ha hp hk hg ht (by
      rw [if_neg (by rw [hf, bne]; generalize (s.txDir p == 1) = b; cases b <;> decide), if_pos hi]
      rfl)
  · exact fun x h => turnaround_none ha x h
  · exact fun hst hh => by simp [State.turnsNow, hst, hh]
  · exact fun hst hr => l1xComplete_leaves ha hp hk hst hr
  · exact fun hr ok => l1xComplete_early ha hr ok
  · exact fun cause hst hs he hl hc hcut hh => sosWindowMiss_gives ha hp hk cause hst hs he hl hc hcut hh
  · exact fun trig ht hv hst hup hg hc hn => recalTrigger_gives ha hp hk ht hv hst hup hg hc hn
  · exact fun trig ht => recalTrigger_early ha ht
  · exact fun r hr hst ht hh hd => recalDeferExpiry_leaves ha hp hk hr hst ht hh hd
  · exact fun hh => recalDeferExpiry_free ha hh
  · exact fun r res ho hst hr h3 hc hf hv => recalStepEnd_leaves ha hp hk ho hst hr h3 hc hf hv
  · exact fun hc res => recalStepEnd_none ha hc res
  · exact fun hw ht hg h3 hf hr hj hl => laneRestoreRetry_leaves ha hp hw ht hg h3 hf hr hj hl
  · exact fun h => laneRestoreRetry_early ha h

end Sys2Proof.Machine

/-! Paths that are set up, answered, refused and torn down (R149, R151, R175). -/
namespace Sys2Proof.Machine

variable {s : State} {p id label : Nat}

/-! ### An end that arrives -/

theorem State.netSend_out_mem {s : State} {e : Emit} (h : e ∈ s.out) (typ mac group : Nat) (held : Bool) (hash par : Nat) (bs : List Byte) :
    e ∈ (s.netSend typ mac group held hash par bs).out := by
  unfold State.netSend
  split
  · exact List.mem_append_left _ h
  · exact h

theorem State.netArrived_out_mem {s : State} {x : Emit} (h : x ∈ s.out) (p : Nat) (e : PathEntry) : x ∈ (s.netArrived p e).out := by
  unfold State.netArrived
  split
  · extract_lets g n u m v
    have hu : x ∈ u.out := h
    have hv : x ∈ v.out := h
    clear_value u v
    split
    · refine State.netSend_out_mem ?_ ..
      rw [State.bindEvent, State.raise_out]
      exact hv
    · exact hu
  · exact h

/-- Of the tunnels only the network's takes a path of class 2. -/
theorem State.arrivedHere_class2 (s : State) (p : Nat) {e : PathEntry} (htc : e.tc = 2) : s.arrivedHere p e = s.netArrived p e := by
  simp [State.arrivedHere, State.dispArrived, State.pcieArrived, State.usbArrived, htc]

/-! ### A label that is torn down -/

/-- With no path and no setup here, a label that is not in the table is torn down already. -/
theorem State.tearLabel_absent {s : State} {p label : Nat} (he : (s.link p).entry label = none) (hx : s.cable.setups = []) (hr : s.cable.paths = []) :
    s.tearLabel p label = s := by
  simp [State.tearLabel, State.tearEntry, State.tearBeyond, State.pathAt, hx, hr, he]

/-- A path that goes on over the other port is torn down there, too. -/
theorem State.tearLabel_onward {s : State} {p label : Nat} {e : PathEntry} (he : (s.link p).entry label = some e) (hg : e.egress < 2)
    (hx : s.cable.setups = []) (hr : s.cable.paths = []) :
    s.tearLabel p label = ((s.uninstall p label).uninstall e.egress e.outLabel).ctl e.egress ctlTeardown [e.outLabel] := by
  simp [State.tearLabel, State.tearEntry, State.tearBeyond, State.pathAt, hx, hr, he, hg]

theorem State.uninstall_entry (s : State) (p label : Nat) : ((s.uninstall p label).link p).entry label = none := by
  have hf : ∀ l : LinkSt, ({ l with
      table := l.table.filter fun x => x.label != label
      flows := l.flows.filter fun f => f.label != label } : LinkSt).entry label = none := fun l => by simp [LinkSt.entry]
  by_cases hp : p < s.cable.links.length
  · exact (congrArg (fun l => LinkSt.entry l label) (s.link_setLink _ p hp) :).trans (hf _)
  · have hout : (s.uninstall p label).link p = LinkSt.init := by
      simp [State.uninstall, State.freeReplay, State.link, State.setLink, nth, List.getElem?_eq_none (Nat.le_of_not_lt hp)]
    rw [hout]
    rfl

/-- What is taken off one port leaves the table of the other. -/
theorem State.uninstall_entry_other {s : State} {p q : Nat} (h : q ≠ p) (label l : Nat) :
    ((s.uninstall q l).link p).entry label = (s.link p).entry label :=
  congrArg (fun k => LinkSt.entry k label) (nth_modify_ne _ s.cable.links _ _ _ h)

theorem State.ctl_entry (s : State) (p q typ label : Nat) (f : List Nat) : ((s.ctl q typ f).link p).entry label = (s.link p).entry label :=
  s.ctlSend_link_congr (fun l => l.entry label) (by intro _ _; rfl) (by intro _ _; rfl) q p typ f []

/-! ### The messages -/

/-- The setups of the hub replaced. -/
def State.withSetups (s : State) (l : List Setup) : State := { s with cable := { s.cable with setups := l } }

theorem State.dropSetup_only {s : State} {x : Setup} (h : s.cable.setups = [x]) : s.dropSetup x = s.withSetups [] := by
  simp [State.dropSetup, State.withSetups, h]

theorem State.withSetups_sendOwn (s : State) (l : List Setup) (p : Nat) (c : Cell) :
    (s.withSetups l).sendOwn p c = (s.sendOwn p c).withSetups l := by
  unfold State.sendOwn
  dsimp only
  split
  · rename_i h
    rw [if_pos (show (s.link p).sealed = true from h)]
    rfl
  · rename_i h
    rw [if_neg (show ¬ (s.link p).sealed = true from h)]
    rfl

/-- A message is the same whatever setups stand here. -/
theorem State.withSetups_ctl (s : State) (l : List Setup) (p typ : Nat) (f : List Nat) :
    (s.withSetups l).ctl p typ f = (s.ctl p typ f).withSetups l := by
  rw [State.ctl, State.ctl, State.ctlSend_eq, State.ctlSend_eq]
  have hfold : ∀ (cs : List Cell) (u : State),
      cs.foldl (fun s c => s.sendOwn p c) (u.withSetups l) = (cs.foldl (fun s c => s.sendOwn p c) u).withSetups l := fun cs => by
    induction cs with
    | nil => exact fun _ => rfl
    | cons c cs ih => exact fun u => by rw [List.foldl_cons, State.withSetups_sendOwn, ih, List.foldl_cons]
  exact hfold _ (s.ctlKept p typ f [])

theorem pathSetup_refused (ha : s.awake = true) (hp : p < 2) {tc hops dst con cr : Nat} {cut : Bool} (hup : s.linkUp p = true)
    (he : (s.link p).entry label = none) (hx : s.cable.setups = []) (hr : s.cable.paths = []) (hh : hops ≤ 1) (hd : dst < 2 ∨ 11 < dst) :
    Tells (.pathSetup p id label tc hops dst cut con cr) s s p ctlPathNack [id, 3] [] := by
  refine gives_of_run (execPathSetup.eq_1 p id label tc hops dst cut con cr s) ha ?_
  have hup' : s.begin.linkUp p = true := hup
  dsimp only
  rw [if_neg (by simp [hup']; omega), State.tearLabel_absent (s := s.begin) he hx hr, if_pos hh, if_pos (by simp; omega)]
  exact tells_begin ..

theorem pathSetup_ends (ha : s.awake = true) (hp : p < 2) {hops dst cr own : Nat} {cut : Bool} (hup : s.linkUp p = true)
    (he : (s.link p).entry label = none) (hx : s.cable.setups = []) (hr : s.cable.paths = []) (hh : hops ≤ 1) (h2 : 2 ≤ dst)
    (h11 : dst ≤ 11) (hend : s.portEnd dst = 1) (hc : s.initCredit p 2 = some own) :
    Gives (.pathSetup p id label 2 hops dst cut 0 cr) s fun t => Told t p ctlPathAck [id, label, own] [] := by
  refine gives_of_run (execPathSetup.eq_1 p id label 2 hops dst cut 0 cr s) ha ?_
  have hup' : s.begin.linkUp p = true := hup
  have hend' : s.begin.portEnd dst = 1 := hend
  have hc' : s.begin.initCredit p 2 = some own := hc
  dsimp only
  rw [if_neg (by simp [hup']; omega), State.tearLabel_absent (s := s.begin) he hx hr, if_pos hh, if_neg (by simp [hend', h2, h11]), hc']
  dsimp only
  rw [State.arrivedHere_class2 _ _ rfl]
  exact (State.told_ctl ..).mono fun _ h => State.netArrived_out_mem h _ _

/-- An entry without a contract is installed in silence. -/
theorem State.install_begin (s : State) (p : Nat) {e : PathEntry} {cr : Nat} (hc : e.contract = 0) :
    s.begin.install p e cr = (s.install p e cr).begin := by
  have hraise : ∀ (u : State) n a, u.raiseIf (e.contract != 0 && n) 60 a = u := fun u n a => by simp [State.raiseIf, hc]
  unfold State.install
  dsimp only
  rw [hraise, hraise]
  rfl

theorem pathAck_tells (ha : s.awake = true) {x : Setup} {cr q l : Nat} (hx : s.cable.setups = [x]) (hp : x.port = p) (hl : x.label = label)
    (hid : x.id = id) (hu : x.up = some (q, l)) (hc : x.entry.contract = 0) :
    Tells (.pathAck p id label cr) s ((s.withSetups []).install p x.entry cr) q ctlPathAck [id, l, x.credit] [] := by
  refine gives_of_run (execPathAck.eq_1 p id label cr s) ha ?_
  have hx' : s.begin.cable.setups = [x] := hx
  have hfind : [x].find? (fun y => y.port == p && y.label == label && y.id == id) = some x := by simp [hp, hl, hid]
  rw [hx', hfind]
  dsimp only
  rw [State.dropSetup_only hx', hu]
  have hb : s.begin.withSetups [] = (s.withSetups []).begin := rfl
  rw [hb, State.install_begin _ _ hc]
  exact tells_begin ..

theorem pathNack_tells (ha : s.awake = true) {x : Setup} {r q l : Nat} (hx : s.cable.setups = [x]) (hp : x.port = p) (hid : x.id = id)
    (hu : x.up = some (q, l)) : Tells (.pathNack p id r) s ((s.withSetups []).uninstall q l) q ctlPathNack [id, r] [] := by
  refine gives_of_run (execPathNack.eq_1 p id r s) ha ?_
  have hx' : s.begin.cable.setups = [x] := hx
  have hfind : [x].find? (fun y => y.port == p && y.id == id) = some x := by simp [hp, hid]
  rw [hx', hfind]
  dsimp only
  rw [State.failSetup, State.dropSetup_only hx', hu]
  dsimp only
  rw [hid]
  exact tells_begin ((s.withSetups []).uninstall q l) q ctlPathNack [id, r] []

theorem pathTeardown_gives (ha : s.awake = true) (hx : s.cable.setups = []) (hr : s.cable.paths = [])
    (hg : ∀ e, (s.link p).entry label = some e → e.egress < 2 ∧ e.egress ≠ p) :
    Gives (.pathTeardown p label) s fun t => (t.link p).entry label = none
      ∧ ∀ e, (s.link p).entry label = some e → Told t e.egress ctlTeardown [e.outLabel] [] := by
  refine gives_of_run (execPathTeardown.eq_1 p label s) ha ?_
  have hlink : s.begin.link p = s.link p := rfl
  cases he : (s.link p).entry label with
  | none =>
    rw [State.tearLabel_absent (s := s.begin) he hx hr, hlink]
    exact ⟨he, fun e h => nomatch h⟩
  | some e =>
    obtain ⟨hlt, hne⟩ := hg e he
    rw [State.tearLabel_onward (s := s.begin) he hlt hx hr]
    refine ⟨?_, fun e' h => ?_⟩
    · rw [State.ctl_entry, State.uninstall_entry_other hne, State.uninstall_entry]
    · cases h
      exact State.told_ctl ..

/-! ### The times -/

theorem pathHoldExpiry_leaves (ha : s.awake = true) (hp : p < 2) (hh : (s.link p).holding = true) (hup : s.linkUp p = false)
    (ht : (s.link p).table = []) (hw : s.passed (s.link p).closedAt (msTicks (s.link p).pathHoldMs) = true) :
    Leaves (.pathHoldExpiry p) s (s.setLink p fun l => { l with holding := false }) := by
  refine gives_of_run (execPathHoldExpiry.eq_1 p s) ha ?_
  have ht' : (s.begin.link p).table = [] := ht
  rw [if_neg (by simp [hh, hup, hw]; omega), ht']
  rfl

theorem pathHoldExpiry_early (ha : s.awake = true) (hw : s.passed (s.link p).closedAt (msTicks (s.link p).pathHoldMs) = false) :
    Leaves (.pathHoldExpiry p) s s := by
  refine gives_of_run (execPathHoldExpiry.eq_1 p s) ha ?_
  rw [if_pos (by simp [hw])]
  rfl

theorem pathSetupTimeout_tells (ha : s.awake = true) {x : Setup} (hx : s.cable.setups = [x]) (hp : x.port = p) (hl : x.label = label)
    (hu : x.up = none) (hr : s.cable.paths = []) (hw : s.passed x.since (msTicks (s.cv Fld.FORWARD_TIMEOUT_MS)) = true) :
    Tells (.pathSetupTimeout p label) s (s.withSetups []) p ctlTeardown [label] [] := by
  refine gives_of_run (execPathSetupTimeout.eq_1 p label s) ha ?_
  have hx' : s.begin.cable.setups = [x] := hx
  have hfind : [x].find? (fun y => y.port == p && y.label == label && y.up.isNone) = some x := by simp [hp, hl, hu]
  have hw' : s.begin.passed x.since (msTicks (s.begin.cv Fld.FORWARD_TIMEOUT_MS)) = true := by
    rw [State.cv_begin]
    exact hw
  rw [hx', hfind]
  dsimp only
  rw [hw', if_neg (by decide)]
  have hb : s.begin.withSetups [x] = s.begin := by
    rw [← hx]
    rfl
  have hdrop : (s.begin.ctl p ctlTeardown [label]).dropSetup x = (s.begin.withSetups []).ctl p ctlTeardown [label] := by
    rw [State.withSetups_ctl, State.dropSetup_only]
    have h := s.begin.withSetups_ctl [x] p ctlTeardown [label]
    rw [hb] at h
    rw [h]
    rfl
  have hpaths : ((s.begin.withSetups []).ctl p ctlTeardown [label]).cable.paths = [] := by
    rw [State.ctl, State.ctlSend_eq]
    exact (foldl_same (fun s c => State.sendOwn s p c) (fun w => w.cable.paths)
      (fun w c => by unfold State.sendOwn; dsimp only; split <;> rfl) _ _).trans hr
  rw [State.failSetup, hdrop, hu]
  simp only [State.pathAt, hpaths, List.find?_nil]
  exact tells_begin (s.withSetups []) p ctlTeardown [label] []

/-- Settles O16: a label that is not in the table is torn down already; every message is told as the model sends it. -/
theorem pathMessages : Obligations.PathMessages := by
  unfold Obligations.PathMessages
  refine fun s p id label ha hp => ⟨?_, ?_, ?_, ?_, ?_, ?_, ?_, ?_⟩
  · exact fun tc hops dst cut con cr hup he hx hr hh hd => pathSetup_refused ha hp hup he hx hr hh hd
  · exact fun hops dst cut cr own hup he hl hx hr hh h2 h11 hend hc => pathSetup_ends ha hp hup he hx hr hh h2 h11 hend hc
  · exact fun x cr q l hx hp hl hid hu hc => pathAck_tells ha hx hp hl hid hu hc
  · exact fun x r q l hx hp hid hu => pathNack_tells ha hx hp hid hu
  · exact fun hx hr hg => pathTeardown_gives ha hx hr hg
  · exact fun hh hup ht hw => pathHoldExpiry_leaves ha hp hh hup ht hw
  · exact fun hw => pathHoldExpiry_early ha hw
  · exact fun x hx hxp hl hu hr hw => pathSetupTimeout_tells ha hx hxp hl hu hr hw

end Sys2Proof.Machine

/-! Election, key agreement and key rotation (R18, R160, R161, R171). -/
namespace Sys2Proof.Machine

variable {s : State} {p : Nat}

/-! ### What the messages leave -/

/-- The state without its cables, its outputs and the entropy drawn. -/
def State.offLink (s : State) : State := { s with out := [], free := 0, cable := .init }

theorem State.offLink_sendOwn (s : State) (p : Nat) (c : Cell) : (s.sendOwn p c).offLink = s.offLink := by
  unfold State.sendOwn
  dsimp only
  split <;> rfl

theorem State.offLink_ctlSend (s : State) (p typ : Nat) (f : List Nat) (b : List Byte) : (s.ctlSend p typ f b).offLink = s.offLink := by
  rw [State.ctlSend_eq]
  exact foldl_same (fun s c => State.sendOwn s p c) State.offLink (fun s c => s.offLink_sendOwn p c) _ _

/-- What of a port's link its messages leave. -/
def LinkSt.talk (l : LinkSt) : Option PeerHello × Bool × Tick × List Byte × List Byte × List Byte × Tick × Bool × Nat × Nat :=
  (l.peer, l.elected, l.electTick, l.keyInit, l.keyResp, l.prk, l.keySince, l.gen1, l.keyFails, l.ownRand)

theorem State.ctlSend_talk (s : State) (p q typ : Nat) (f : List Nat) (b : List Byte) :
    ((s.ctlSend p typ f b).link q).talk = (s.link q).talk :=
  s.ctlSend_link_congr LinkSt.talk (by intro _ _; rfl) (by intro _ _; rfl) p q typ f b

theorem State.ctlSend_links (s : State) (p typ : Nat) (f : List Nat) (b : List Byte) :
    (s.ctlSend p typ f b).cable.links.length = s.cable.links.length := by
  rw [State.ctlSend_eq]
  refine (foldl_same (fun s c => State.sendOwn s p c) (fun w => w.cable.links.length) (fun w c => ?_) _ _).trans (List.length_modify ..)
  unfold State.sendOwn
  dsimp only
  split
  · exact List.length_modify ..
  · rfl

/-! ### Key agreement -/

theorem State.setLink_links (s : State) (p : Nat) (f : LinkSt → LinkSt) : (s.setLink p f).cable.links.length = s.cable.links.length :=
  List.length_modify ..

theorem fitBytes_length (n : Nat) (l : List Byte) : (fitBytes n l).length = n := by
  simp [fitBytes, zeros]
  omega

/-- KEY_INIT of the tick master. -/
def State.initMessage (s : State) (p : Nat) : List Byte :=
  let w := s.newEcdh p
  p384Public (w.link p).ecdhKey ++ (if (w.link p).gen1 then [] else fitBytes 1184 (Config.mlkemKey (w.entropy 64).1))
    ++ ((w.entropy 64).2.entropy 32).1

/-- What the tick master keeps of it. -/
def State.initKept (s : State) (p : Nat) : State :=
  let w := s.newEcdh p
  (((w.entropy 64).2.entropy 32).2.setLink p fun l => { l with
    kemSeed := (w.entropy 64).1, keyInit := s.initMessage p, keyResp := [] }).keyMark p

theorem State.keyStart_eq (s : State) (p : Nat) : s.keyStart p = (s.initKept p).ctlSend p ctlKeyInit [] (s.initMessage p) := rfl

theorem State.initMessage_ne (s : State) (p : Nat) : s.initMessage p ≠ [] := fun h => by
  have hl : (s.initMessage p).length = 0 := by rw [h]; rfl
  simp only [State.initMessage, List.length_append, State.entropy, fitBytes_length] at hl
  omega

theorem State.link_keyMark {s : State} (hp : p < s.cable.links.length) : (s.keyMark p).link p = { s.link p with keySince := s.time.tick } :=
  s.link_setLink _ p hp

theorem State.link_newEcdh {s : State} (hp : p < s.cable.links.length) : (s.newEcdh p).link p = { s.link p with ecdhKey := s.scalar.1 } :=
  s.scalar.2.link_setLink _ p hp

theorem State.link_initKept {s : State} (hp : p < s.cable.links.length) : (s.initKept p).link p = { s.link p with
    ecdhKey := s.scalar.1, kemSeed := ((s.newEcdh p).entropy 64).1, keyInit := s.initMessage p, keyResp := [], keySince := s.time.tick } := by
  have h1 : p < (s.newEcdh p).cable.links.length := by rw [State.newEcdh]; simpa [State.setLink, State.scalar, State.entropy] using hp
  have h2 := (((s.newEcdh p).entropy 64).2.entropy 32).2.link_setLink (fun l => { l with
    kemSeed := ((s.newEcdh p).entropy 64).1, keyInit := s.initMessage p, keyResp := [] }) p h1
  have h3 : (((s.newEcdh p).entropy 64).2.entropy 32).2.link p = (s.newEcdh p).link p := rfl
  rw [h3, State.link_newEcdh hp] at h2
  unfold State.initKept
  dsimp only
  rw [State.link_keyMark (by rw [State.setLink_links]; exact h1), h2]
  rfl

/-- The tick master starts an attempt: KEY_INIT is out, and kept for the transcript. -/
theorem State.keyStart_gives {s : State} (hp : p < s.cable.links.length) :
    Told (s.keyStart p) p ctlKeyInit [] ((s.keyStart p).link p).keyInit ∧ ((s.keyStart p).link p).keyInit ≠ []
      ∧ ((s.keyStart p).link p).peer = (s.link p).peer ∧ ((s.keyStart p).link p).elected = (s.link p).elected
      ∧ ((s.keyStart p).link p).electTick = (s.link p).electTick ∧ (s.keyStart p).topo = s.topo
      ∧ ∀ e ∈ s.out, e ∈ (s.keyStart p).out := by
  have hl := (s.initKept p).ctlSend_talk p p ctlKeyInit [] (s.initMessage p)
  rw [State.link_initKept hp, ← State.keyStart_eq] at hl
  simp only [LinkSt.talk, Prod.mk.injEq] at hl
  obtain ⟨hpeer, hel, het, hinit, -⟩ := hl
  have hoff := (s.initKept p).offLink_ctlSend p ctlKeyInit [] (s.initMessage p)
  obtain ⟨hout, htold⟩ := (s.initKept p).ctlSend_out p ctlKeyInit [] (s.initMessage p)
  rw [hinit]
  exact ⟨htold, s.initMessage_ne p, hpeer, hel, het, (congrArg State.topo hoff :), fun e he => hout e he⟩

/-- KEY_RESP of the peer, with the shared secret `z`. -/
def State.respMessage (s : State) (p : Nat) (init : List Byte) : List Byte :=
  let w := s.newEcdh p
  p384Public (w.link p).ecdhKey ++ (if (w.link p).gen1 then [] else fitBytes 1088 (Config.mlkemCipher (slice 97 1184 init) (w.entropy 32).1))
    ++ ((w.entropy 32).2.entropy 32).1

/-- What the peer keeps of it. -/
def State.respKept (s : State) (p : Nat) (init z : List Byte) : State :=
  let w := s.newEcdh p
  (((w.entropy 32).2.entropy 32).2.setLink p fun l => { l with
    keyInit := init
    keyResp := s.respMessage p init
    prk := prkOf init (s.respMessage p init) z
      (if (w.link p).gen1 then [] else fitBytes 32 (Config.mlkemShared (slice 97 1184 init) (w.entropy 32).1)) }).keyMark p

theorem State.keyAnswer_eq (s : State) (p : Nat) (init : List Byte) : s.keyAnswer p init = (ecdh ((s.newEcdh p).link p).ecdhKey (init.take 97)).map
    fun z => (s.respKept p init z).ctlSend p ctlKeyResp [] (s.respMessage p init) := rfl

theorem State.link_respKept {s : State} (hp : p < s.cable.links.length) (init z : List Byte) : (s.respKept p init z).link p = { s.link p with
    ecdhKey := s.scalar.1, keyInit := init, keyResp := s.respMessage p init, keySince := s.time.tick
    prk := prkOf init (s.respMessage p init) z
      (if (s.link p).gen1 then [] else fitBytes 32 (Config.mlkemShared (slice 97 1184 init) ((s.newEcdh p).entropy 32).1)) } := by
  have h1 : p < (s.newEcdh p).cable.links.length := by rw [State.newEcdh]; simpa [State.setLink, State.scalar, State.entropy] using hp
  have hg : ((s.newEcdh p).link p).gen1 = (s.link p).gen1 := by rw [State.link_newEcdh hp]
  unfold State.respKept
  dsimp only
  rw [hg]
  generalize prkOf init (s.respMessage p init) z
    (if (s.link p).gen1 then [] else fitBytes 32 (Config.mlkemShared (slice 97 1184 init) ((s.newEcdh p).entropy 32).1)) = prk
  have h2 := (((s.newEcdh p).entropy 32).2.entropy 32).2.link_setLink (fun l => { l with
    keyInit := init, keyResp := s.respMessage p init, prk := prk }) p h1
  have h3 : (((s.newEcdh p).entropy 32).2.entropy 32).2.link p = (s.newEcdh p).link p := rfl
  rw [h3, State.link_newEcdh hp] at h2
  rw [State.link_keyMark (by rw [State.setLink_links]; exact h1), h2]
  rfl

/-- KEY_FINISH over the transcript that an end keeps. -/
def State.FinishOf (s : State) (p : Nat) (bs : List Byte) : Prop :=
  (s.linkPub = none → bs = beBytes 4 0)
  ∧ ∀ k x, s.linkPub = some (k, x) → ∃ n, bs = beBytes 4 s.linkKeyid
      ++ ecdsaSign (deriveScalar (s.slot k).bytes (labelBytes "LINK")) n (sha384 ((s.link p).keyInit ++ (s.link p).keyResp))
      ++ (if (s.link p).gen1 then [] else fitBytes 3309
        (Config.mldsaSign (deriveSeed (s.slot k).bytes (labelBytes "LINK")) (sha384 ((s.link p).keyInit ++ (s.link p).keyResp))))

/-- An end sends its KEY_FINISH, and keeps what it has. -/
theorem State.keyFinish_gives (s : State) (p : Nat) : ∃ bs, s.FinishOf p bs ∧ Told (s.keyFinish p) p ctlKeyFinish [] bs
    ∧ ((s.keyFinish p).link p).talk = (s.link p).talk ∧ (s.keyFinish p).offLink = s.offLink ∧ ∀ e ∈ s.out, e ∈ (s.keyFinish p).out := by
  have hsent : ∀ (u : State) bs, u.link p = s.link p → u.offLink = s.offLink → u.out = s.out →
      Told (u.ctlSend p ctlKeyFinish [] bs) p ctlKeyFinish [] bs ∧ ((u.ctlSend p ctlKeyFinish [] bs).link p).talk = (s.link p).talk
        ∧ (u.ctlSend p ctlKeyFinish [] bs).offLink = s.offLink ∧ ∀ e ∈ s.out, e ∈ (u.ctlSend p ctlKeyFinish [] bs).out :=
    fun u bs hl ho hout => ⟨State.told_ctlSend .., by rw [State.ctlSend_talk, hl], by rw [State.offLink_ctlSend, ho],
      fun e he => (u.ctlSend_out p ctlKeyFinish [] bs).1 e (by rw [hout]; exact he)⟩
  unfold State.keyFinish
  dsimp only
  split
  · rename_i k x hk
    refine ⟨_, ⟨fun h => (nomatch hk.symm.trans h), fun k' x' h => ?_⟩, hsent s.scalar.2 _ rfl rfl rfl⟩
    cases hk.symm.trans h
    exact ⟨s.scalar.1, rfl⟩
  · rename_i hk
    exact ⟨_, ⟨fun _ => rfl, fun k x h => (nomatch hk.symm.trans h)⟩, hsent s _ rfl rfl rfl⟩

/-! ### Election -/

/-- A HOSTSIDE end offers depth 0. -/
theorem State.offeredDepth_host {s t : State} (ht : t.offLink = s.offLink) (hhost : s.topo.role = .hostside) : t.offeredDepth = 0 := by
  have htopo : t.topo = s.topo := (congrArg State.topo ht :)
  simp [State.offeredDepth, htopo, hhost]

theorem State.neverMaster_host {s t : State} (ht : t.offLink = s.offLink) (hhost : s.topo.role = .hostside) : t.neverMaster = s.neverMaster := by
  have htopo : t.topo = s.topo := (congrArg State.topo ht :)
  have hcv : t.cv Fld.MAX_HOPS = s.cv Fld.MAX_HOPS := (congrArg (fun u => State.cv u Fld.MAX_HOPS) ht :)
  simp only [State.neverMaster, htopo, hcv, State.offeredDepth_host ht hhost, State.offeredDepth_host (s := s) rfl hhost]

/-- A HOSTSIDE end's HELLO. -/
theorem State.sendHello_host {s v : State} (hv : v.offLink = s.offLink) (hhost : s.topo.role = .hostside) (hn : s.neverMaster = false) (p : Nat) :
    v.sendHello p = v.ctl p ctlHello [2, s.topo.role.code, 0, 0, (v.link p).ownRand, s.linkKeyid, beNat s.deviceId, nth s.topo.ends 4 0,
      nth s.topo.ends 5 0, nth s.topo.ends 6 0] := by
  have htopo : v.topo = s.topo := (congrArg State.topo hv :)
  have hkey : v.linkKeyid = s.linkKeyid := (congrArg State.linkKeyid hv :)
  have hdev : v.deviceId = s.deviceId := (congrArg State.deviceId hv :)
  rw [State.sendHello, htopo, hkey, hdev, State.offeredDepth_host hv hhost, State.neverMaster_host hv hhost, hn]
  rfl

/-- The master of a port: DOWN, its ELECT out, and the key agreement begun. -/
theorem State.becomesMaster_gives {s : State} {p : Nat} (hp : p < s.cable.links.length) (hroles : p < s.topo.portRole.length)
    (hid : s.identityMissing = false) (ho : s.offeredDepth = 0) :
    (s.becomesMaster p).role p = .down ∧ ((s.becomesMaster p).link p).peer = (s.link p).peer ∧ ((s.becomesMaster p).link p).elected = true
      ∧ ((s.becomesMaster p).link p).electTick = s.time.tick ∧ Told (s.becomesMaster p) p ctlElect [0, 1] []
      ∧ Told (s.becomesMaster p) p ctlKeyInit [] ((s.becomesMaster p).link p).keyInit ∧ ((s.becomesMaster p).link p).keyInit ≠ []
      ∧ ∀ e ∈ s.out, e ∈ (s.becomesMaster p).out := by
  generalize hw : (s.setRole p .down).setLink p (fun l => { l with elected := true, electTick := s.time.tick }) = w
  have heq : s.becomesMaster p = (w.ctl p ctlElect [0, 1]).keyStart p := by
    have hid' : (w.ctl p ctlElect [0, 1]).identityMissing = false := by
      have hoff := w.offLink_ctlSend p ctlElect [0, 1] []
      rw [← hw] at hoff
      rw [← hw]
      exact ((congrArg State.identityMissing hoff :)).trans hid
    unfold State.becomesMaster
    dsimp only
    rw [ho, hw, hid']
    rfl
  have hlink : w.link p = { s.link p with elected := true, electTick := s.time.tick } := by
    rw [← hw]
    exact (s.setRole p .down).link_setLink _ p hp
  have htalk := w.ctlSend_talk p p ctlElect [0, 1] []
  rw [hlink] at htalk
  simp only [LinkSt.talk, Prod.mk.injEq] at htalk
  obtain ⟨hpeer, hel, het, -⟩ := htalk
  have hlen : p < (w.ctl p ctlElect [0, 1]).cable.links.length := by
    rw [State.ctl, State.ctlSend_links, ← hw, State.setLink_links]
    exact hp
  obtain ⟨htold, hne, hpeer', hel', het', htopo, hout⟩ := State.keyStart_gives hlen
  rw [heq]
  refine ⟨?_, hpeer'.trans hpeer, hel'.trans hel, het'.trans het, (State.told_ctl ..).mono hout, htold, hne, fun e he => hout e ?_⟩
  · unfold State.role
    rw [htopo, State.ctl_topo, ← hw]
    exact nth_put_self hroles _ _
  · refine (w.ctlSend_out p ctlElect [0, 1] []).1 e ?_
    rw [← hw]
    exact he

/-- A HOSTSIDE end that is no NEVER_MASTER wins against one that is. -/
theorem hello_gives (ha : s.awake = true) (hp : p < 2) {h : PeerHello} (hst : (s.cpx p).step = 3) (hel : (s.link p).elected = false)
    (hr : s.role p = .none) (hgen : h.gen = 2) (hnever : h.never = true) (hdepth : h.depth ≠ 0) (hhost : s.topo.role = .hostside)
    (hn : s.neverMaster = false) (hid : s.identityMissing = false) (hlen : s.cable.links.length = 2) (hroles : s.topo.portRole.length = 2) :
    Gives (.hello p h) s fun t => t.role p = .down ∧ (t.link p).peer = some h ∧ (t.link p).elected = true
      ∧ (t.link p).electTick = s.time.tick ∧ Told t p ctlElect [0, 1] []
      ∧ Told t p ctlHello [2, s.topo.role.code, 0, 0, (s.link p).ownRand, s.linkKeyid, beNat s.deviceId, nth s.topo.ends 4 0, nth s.topo.ends 5 0,
          nth s.topo.ends 6 0] []
      ∧ Told t p ctlKeyInit [] (t.link p).keyInit ∧ (t.link p).keyInit ≠ [] := by
  refine gives_of_run (execHello.eq_1 p h s) ha ?_
  have hb : s.begin.bringupOver p = false := by
    have hr' : s.begin.role p = .none := hr
    simp [State.bringupOver, hr']
  have hg : ¬ (h.gen == 1 && !(s.begin.link p).gen1Allow) = true := by simp [hgen]
  rw [if_neg (by simp [hst, hel, hb]; omega), if_neg hg]
  generalize hv : s.begin.setLink p (fun l => { l with peer := some h, gen1 := h.gen == 1 }) = v
  have hvlink : v.link p = { s.link p with peer := some h, gen1 := h.gen == 1 } := by
    rw [← hv]
    exact s.begin.link_setLink _ p (by rw [State.begin_cable, hlen]; exact hp)
  have hvoff : v.offLink = s.offLink := by rw [← hv]; rfl
  have hvlen : p < v.cable.links.length := by rw [← hv, State.setLink_links, State.begin_cable, hlen]; exact hp
  have hhello := State.sendHello_host hvoff hhost hn p
  have hwoff : (v.sendHello p).offLink = s.offLink := (v.offLink_ctlSend ..).trans hvoff
  have hwtalk : ((v.sendHello p).link p).talk = (v.link p).talk := v.ctlSend_talk ..
  have hwlen : p < (v.sendHello p).cable.links.length := (v.ctlSend_links ..).symm ▸ hvlen
  have htold : Told (v.sendHello p) p ctlHello [2, s.topo.role.code, 0, 0, (s.link p).ownRand, s.linkKeyid, beNat s.deviceId,
      nth s.topo.ends 4 0, nth s.topo.ends 5 0, nth s.topo.ends 6 0] [] := by
    have hrand : (v.link p).ownRand = (s.link p).ownRand := by rw [hvlink]
    rw [hhello, hrand]
    exact State.told_ctl ..
  generalize v.sendHello p = w at hwoff hwtalk hwlen htold
  have htopo : w.topo = s.topo := (congrArg State.topo hwoff :)
  have htime : w.time = s.time := (congrArg State.time hwoff :)
  have hwid : w.identityMissing = false := ((congrArg State.identityMissing hwoff :)).trans hid
  have ho : w.offeredDepth = 0 := State.offeredDepth_host hwoff hhost
  have hnm : w.neverMaster = false := (State.neverMaster_host hwoff hhost).trans hn
  have hdecide : w.decide p h = w.becomesMaster p := by
    have hmay : w.mayBeDown p = true := by simp [State.mayBeDown, htopo, hhost]
    simp [State.decide, ho, hnm, hnever, hdepth, State.wins, hmay]
  rw [hdecide]
  obtain ⟨hdown, hpeer, hel', het, helect, hinit, hne, hout⟩ := State.becomesMaster_gives hwlen (by rw [htopo, hroles]; exact hp) hwid ho
  rw [hvlink] at hwtalk
  simp only [LinkSt.talk, Prod.mk.injEq] at hwtalk
  exact ⟨hdown, hpeer.trans hwtalk.1, hel', by rw [het, htime], helect, htold.mono hout, hinit, hne⟩

/-- A RELAY with no UP port takes an ELECT. -/
theorem elect_gives (ha : s.awake = true) (hp : p < 2) (d : Nat) (hst : (s.cpx p).step = 3) (hel : (s.link p).elected = false)
    (hrelay : s.topo.role = .relay) (hup : ∀ q, s.role q ≠ .up) (hg : (s.link p).gen1 = false) :
    Gives (.elect p d (d + 1)) s fun t =>
      t.hush = ({ ((s.setRole p .up).setLink p fun l => { l with
          elected := true, electTick := s.time.tick, keySince := s.time.tick }) with
        topo := { (s.setRole p .up).topo with depth := d + 1 }
        time := { s.time with reference := 1 + p, masterKnown := false } }
          |>.setAlign p fun _ => { AlignSt.init with align := .lost, stepDue := true }).hush
      ∧ Heard 1 s t 15 0 := by
  refine gives_of_run (execElect.eq_1 p d (d + 1) s) ha ?_
  have hrival : (p == 0 && s.begin.role 1 == .up && (s.begin.link 1).electTick == s.begin.time.tick && (s.begin.link 1).state == 1) = false := by
    have h1 : (s.begin.role 1 == .up) = false := beq_eq_false_iff_ne.mpr (hup 1)
    simp [h1]
  have hmay : s.begin.mayBeUp p = true := by
    have h : ∀ q, (s.begin.role q == .up) = false := fun q => beq_eq_false_iff_ne.mpr (hup q)
    simp [State.mayBeUp, State.upPort, h, hrelay]
  have hg' : (s.begin.link p).gen1 = false := hg
  rw [if_neg (by simp [hst, hel]; omega)]
  unfold State.becomesUp
  dsimp only
  rw [hrival]
  simp only [Bool.false_eq_true, if_false, hmay, Bool.not_true, hg']
  exact ⟨State.hush_raise .., heard_raise_mbx rfl rfl rfl⟩

/-! ### The attempt -/

/-- A first failure of the attempt at the peer of the tick master. -/
theorem State.keyFail_first {s : State} {p : Nat} (step : Nat) (hr : s.role p = .up) (hf : (s.link p).keyFails = 0) :
    s.keyFail p step = (s.linkEv p 31 step).setLink p fun l => { l with keyFails := 1, keyInit := [], keyResp := [], keySince := s.time.tick } := by
  have hf' : ((s.linkEv p 31 step).link p).keyFails = 0 := by
    rw [State.linkEv, State.raise_link]
    exact hf
  have hmark : ∀ u : State, (u.setLink p fun l => { l with keyFails := 1, keyInit := [], keyResp := [] }).keyMark p
      = u.setLink p fun l => { l with keyFails := 1, keyInit := [], keyResp := [], keySince := u.time.tick } := fun u => by
    rw [State.keyMark, State.setLink_setLink]
    rfl
  have hr' : ∀ f, (((s.linkEv p 31 step).setLink p f).role p == .down) = false := fun f => by
    have h : ((s.linkEv p 31 step).setLink p f).role p = .up := by
      rw [State.role, State.linkEv, State.setLink]
      simp only [State.raise_topo]
      exact hr
    rw [h]
    rfl
  unfold State.keyFail
  dsimp only
  rw [hf', if_neg (by omega), hmark, hr', State.linkEv, State.raise_time]
  rfl

theorem State.keyFail_hush {s : State} {p : Nat} (step : Nat) (hr : s.role p = .up) (hf : (s.link p).keyFails = 0) :
    (s.keyFail p step).hush
      = (s.setLink p fun l => { l with keyFails := 1, keyInit := [], keyResp := [], keySince := s.time.tick }).hush := by
  rw [State.keyFail_first step hr hf]
  exact Aside.hush_raise (f := fun u => u.setLink p fun l => { l with keyFails := 1, keyInit := [], keyResp := [], keySince := s.time.tick })
    (fun _ _ _ _ _ => rfl) ..

theorem State.keyFail_heard {s u : State} {p : Nat} (hp : p < 2) (step : Nat) (hr : u.role p = .up) (hf : (u.link p).keyFails = 0)
    (ht : u.time = s.time) (hm : u.mbx = s.mbx) : Heard 1 s (u.keyFail p step) (31 + 16 * p) step := by
  rw [State.keyFail_first step hr hf, State.linkEv, Nat.mod_eq_of_lt hp]
  exact (heard_raise_mbx (by rw [ht]) (by rw [ht]) hm).of_mbx rfl

theorem keyInit_gives (ha : s.awake = true) (hp : p < 2) (bs : List Byte) (hr : s.role p = .up) (hk : (s.link p).keysIn = false)
    (hst : (s.cpx p).step = 3) (hid : s.identityMissing = false) (hlen : s.cable.links.length = 2) (hf : (s.link p).keyFails = 0) :
    Gives (.keyInit p bs) s fun t => t.topo = s.topo ∧ t.plan = s.plan ∧ t.sw = s.sw ∧ (t.link p).keySince = s.time.tick
      ∧ (∀ z, ecdh ((s.newEcdh p).link p).ecdhKey (bs.take 97) = some z → (t.link p).keyInit = bs ∧ Told t p ctlKeyResp [] (t.link p).keyResp
        ∧ ∃ m, (t.link p).prk
          = prkOf bs (t.link p).keyResp z (if (s.link p).gen1 then [] else fitBytes 32 (Config.mlkemShared (slice 97 1184 bs) m)))
      ∧ (ecdh ((s.newEcdh p).link p).ecdhKey (bs.take 97) = none →
        (t.link p).keyFails = 1 ∧ (t.link p).keyResp = [] ∧ Heard 1 s t (31 + 16 * p) 0) := by
  refine gives_of_run (execKeyInit.eq_1 p bs s) ha ?_
  have hr' : s.begin.role p = .up := hr
  have hid' : s.begin.identityMissing = false := hid
  have hpl : p < s.begin.cable.links.length := by rw [State.begin_cable, hlen]; exact hp
  have hkey : ((s.begin.newEcdh p).link p).ecdhKey = ((s.newEcdh p).link p).ecdhKey := rfl
  rw [if_neg (by simp [hr', hk, hst]; omega), hid', State.keyAnswer_eq, hkey]
  simp only [Bool.false_eq_true, if_false]
  cases hz : ecdh ((s.newEcdh p).link p).ecdhKey (bs.take 97) with
  | some z =>
    simp only [Option.map_some]
    have hlink := State.link_respKept hpl bs z
    have htalk := (s.begin.respKept p bs z).ctlSend_talk p p ctlKeyResp [] (s.begin.respMessage p bs)
    have hoff : ((s.begin.respKept p bs z).ctlSend p ctlKeyResp [] (s.begin.respMessage p bs)).offLink = s.begin.offLink :=
      State.offLink_ctlSend ..
    have htold := (s.begin.respKept p bs z).told_ctlSend p ctlKeyResp [] (s.begin.respMessage p bs)
    rw [hlink] at htalk
    generalize (s.begin.respKept p bs z).ctlSend p ctlKeyResp [] (s.begin.respMessage p bs) = w at htalk hoff htold
    obtain ⟨fs, -, -, htalk', hoff', hout⟩ := w.keyFinish_gives p
    rw [htalk] at htalk'
    rw [hoff] at hoff'
    simp only [LinkSt.talk, Prod.mk.injEq] at htalk'
    obtain ⟨-, -, -, hinit, hresp, hprk, hsince, -⟩ := htalk'
    refine ⟨(congrArg State.topo hoff' :), (congrArg State.plan hoff' :), (congrArg State.sw hoff' :), hsince, fun z' h => ?_, fun h => ?_⟩
    on_goal 2 => cases h
    cases h
    rw [hresp]
    exact ⟨hinit, htold.mono hout, _, hprk⟩
  | none =>
    simp only [Option.map_none]
    have hf' : (s.begin.link p).keyFails = 0 := hf
    refine ⟨?_, ?_, ?_, ?_, fun z h => ?_, fun _ => ⟨?_, ?_, State.keyFail_heard hp 0 hr' hf' rfl rfl⟩⟩
    on_goal 5 => cases h
    all_goals rw [State.keyFail_first 0 hr' hf']
    · exact State.raise_topo ..
    · exact State.raise_plan ..
    · exact State.raise_sw ..
    · rw [State.link_setLink _ _ _ (by rw [State.linkEv, State.raise_cable]; exact hpl)]
      rfl
    · rw [State.link_setLink _ _ _ (by rw [State.linkEv, State.raise_cable]; exact hpl)]
    · rw [State.link_setLink _ _ _ (by rw [State.linkEv, State.raise_cable]; exact hpl)]

theorem keyResp_gives (ha : s.awake = true) (hp : p < 2) (bs z : List Byte) (hr : s.role p = .down) (hk : (s.link p).keysIn = false)
    (hi : (s.link p).keyInit ≠ []) (hresp : (s.link p).keyResp = []) (hlen : s.cable.links.length = 2)
    (hz : ecdh (s.link p).ecdhKey (bs.take 97) = some z) :
    Gives (.keyResp p bs) s fun t => (t.link p).keyResp = bs
      ∧ (t.link p).prk = prkOf (s.link p).keyInit bs z
        (if (s.link p).gen1 then [] else fitBytes 32 (Config.mlkemDecaps (s.link p).kemSeed (slice 97 1088 bs)))
      ∧ (t.link p).keySince = s.time.tick ∧ t.topo = s.topo ∧ t.plan = s.plan ∧ t.sw = s.sw
      ∧ (s.linkPub = none → Told t p ctlKeyFinish [] (beBytes 4 0))
      ∧ (∀ k x, s.linkPub = some (k, x) → ∃ n, Told t p ctlKeyFinish [] (beBytes 4 s.linkKeyid
          ++ ecdsaSign (deriveScalar (s.slot k).bytes (labelBytes "LINK")) n (sha384 ((s.link p).keyInit ++ bs))
          ++ (if (s.link p).gen1 then [] else fitBytes 3309
            (Config.mldsaSign (deriveSeed (s.slot k).bytes (labelBytes "LINK")) (sha384 ((s.link p).keyInit ++ bs)))))) := by
  refine gives_of_run (execKeyResp.eq_1 p bs s) ha ?_
  have hr' : s.begin.role p = .down := hr
  have hlink : s.begin.link p = s.link p := rfl
  dsimp only
  rw [hlink, if_neg (by simp [hr', hk, hi, hresp]; omega)]
  simp only [State.keyTake, hlink, hz, Option.map_some]
  rw [State.setLink_congr (s := s.begin) (p := p) (g := fun l => { l with
    keyResp := bs
    prk := prkOf (s.link p).keyInit bs z
      (if (s.link p).gen1 then [] else fitBytes 32 (Config.mlkemDecaps (s.link p).kemSeed (slice 97 1088 bs))) }) (by rw [hlink])]
  generalize hprk : prkOf (s.link p).keyInit bs z
    (if (s.link p).gen1 then [] else fitBytes 32 (Config.mlkemDecaps (s.link p).kemSeed (slice 97 1088 bs))) = prk
  generalize hw : (s.begin.setLink p fun l => { l with keyResp := bs, prk := prk }).keyMark p = w
  have hwlink : w.link p = { s.link p with keyResp := bs, prk := prk, keySince := s.time.tick } := by
    have hpl : p < s.begin.cable.links.length := by rw [State.begin_cable, hlen]; exact hp
    rw [← hw, State.link_keyMark (by rw [State.setLink_links]; exact hpl), s.begin.link_setLink _ p hpl]
    rfl
  have hwoff : w.offLink = s.offLink := by rw [← hw]; rfl
  obtain ⟨fs, ⟨hnone, hsome⟩, htold, htalk, hoff, -⟩ := w.keyFinish_gives p
  rw [hwlink] at htalk hsome
  rw [hwoff] at hoff
  have hpub : w.linkPub = s.linkPub := (congrArg State.linkPub hwoff :)
  have hkid : w.linkKeyid = s.linkKeyid := (congrArg State.linkKeyid hwoff :)
  have hslot : ∀ k, w.slot k = s.slot k := fun k => (congrArg (fun u => State.slot u k) hwoff :)
  simp only [LinkSt.talk, Prod.mk.injEq] at htalk
  obtain ⟨-, -, -, -, hresp', hprk', hsince, -⟩ := htalk
  refine ⟨hresp', hprk', hsince, (congrArg State.topo hoff :), (congrArg State.plan hoff :), (congrArg State.sw hoff :), fun h => ?_, fun k x h => ?_⟩
  · rw [← hnone (hpub.trans h)]
    exact htold
  · obtain ⟨n, hn⟩ := hsome k x (hpub.trans h)
    simp only [hkid, hslot] at hn
    exact ⟨n, hn ▸ htold⟩

theorem keyFinish_installs (ha : s.awake = true) (hp : p < 2) (bs : List Byte) (hk : (s.link p).keysIn = false) (hresp : (s.link p).keyResp ≠ [])
    (hok : s.finishOk p bs = true) :
    Leaves (.keyFinish p bs) s (s.setLink p fun l => { l with
      keysIn := true, keyFails := 0
      tx := { index := 0, counter := 0, key := l.keyFor (s.txDir p) 0, since := s.time.tick, next := none, old := none }
      rx := { index := 0, counter := 0, key := l.keyFor (1 - s.txDir p) 0, since := s.time.tick, next := none, old := none } }) := by
  refine gives_of_run (execKeyFinish.eq_1 p bs s) ha ?_
  have hlink : s.begin.link p = s.link p := rfl
  have hok' : s.begin.finishOk p bs = true := hok
  dsimp only
  rw [hlink, if_neg (by simp [hk, hresp]; omega), if_pos hok']
  exact (congrArg (fun u => State.keysInstall u p) (s.begin.hush_spore ..) :)

/-- A failure of the attempt after a command's start. -/
theorem keyFail_begin {u : State} (hp : p < 2) (step : Nat) (hu : u.hush = s.hush) (hm : u.mbx = s.mbx) (hr : s.role p = .up)
    (hf : (s.link p).keyFails = 0) :
    (u.keyFail p step).hush = (s.setLink p fun l => { l with keyFails := 1, keyInit := [], keyResp := [], keySince := s.time.tick }).hush
      ∧ Heard 1 s (u.keyFail p step) (31 + 16 * p) step := by
  have ht : u.time = s.time := (congrArg State.time hu :)
  have hr' : u.role p = .up := ((congrArg (fun w => State.role w p) hu :)).trans hr
  have hf' : (u.link p).keyFails = 0 := ((congrArg (fun w => (State.link w p).keyFails) hu :)).trans hf
  refine ⟨?_, State.keyFail_heard hp step hr' hf' ht hm⟩
  rw [State.keyFail_hush step hr' hf', ht]
  exact (congrArg (fun w => State.setLink w p fun l => { l with keyFails := 1, keyInit := [], keyResp := [], keySince := s.time.tick }) hu :)

theorem keyFinish_fails (ha : s.awake = true) (hp : p < 2) (bs : List Byte) (hk : (s.link p).keysIn = false) (hresp : (s.link p).keyResp ≠ [])
    (hok : s.finishOk p bs = false) (hr : s.role p = .up) (hf : (s.link p).keyFails = 0) :
    Gives (.keyFinish p bs) s fun t =>
      t.hush = (s.setLink p fun l => { l with keyFails := 1, keyInit := [], keyResp := [], keySince := s.time.tick }).hush
      ∧ Heard 1 s t (31 + 16 * p) 1 := by
  refine gives_of_run (execKeyFinish.eq_1 p bs s) ha ?_
  have hlink : s.begin.link p = s.link p := rfl
  have hok' : ¬ s.begin.finishOk p bs = true := Bool.eq_false_iff.mp hok
  dsimp only
  rw [hlink, if_neg (by simp [hk, hresp]; omega), if_neg hok']
  exact keyFail_begin hp 1 (s.begin.hush_spore ..) (s.begin.spore_mbx ..) hr hf

theorem keyAgreementTimeout_fails (ha : s.awake = true) (hp : p < 2) (hst : (s.cpx p).step = 3) (hel : (s.link p).elected = true)
    (hk : (s.link p).keysIn = false) (ht : s.passed (s.link p).keySince (msTicks 10) = true) (hr : s.role p = .up)
    (hf : (s.link p).keyFails = 0) :
    Gives (.keyAgreementTimeout p) s fun t =>
      t.hush = (s.setLink p fun l => { l with keyFails := 1, keyInit := [], keyResp := [], keySince := s.time.tick }).hush
      ∧ Heard 1 s t (31 + 16 * p) 2 := by
  refine gives_of_run (execKeyAgreementTimeout.eq_1 p s) ha ?_
  have hlink : s.begin.link p = s.link p := rfl
  dsimp only
  rw [hlink, if_neg (by simp [hst, hel, hk, ht]; omega)]
  exact keyFail_begin hp 2 rfl rfl hr hf

theorem keyAgreementTimeout_early (ha : s.awake = true) (ht : s.passed (s.link p).keySince (msTicks 10) = false) :
    Leaves (.keyAgreementTimeout p) s s := by
  refine gives_of_run (execKeyAgreementTimeout.eq_1 p s) ha ?_
  dsimp only
  rw [if_pos (by simp [ht])]
  rfl

/-! ### Rotation -/

/-- A rotation asked for at the start of a command. -/
theorem rotate_begin (s : State) (p : Nat) : (s.begin.rotate p).hush = ((s.keyAsked p).ctlSend p ctlKeyNext
      [s.txDir p, (s.link p).tx.index + 1, (s.time.tick + 4).toNat] []).hush
    ∧ Told (s.begin.rotate p) p ctlKeyNext [s.txDir p, (s.link p).tx.index + 1, (s.time.tick + 4).toNat] [] := by
  rw [State.rotate_eq]
  exact tells_begin (s.keyAsked p) p ctlKeyNext [s.txDir p, (s.link p).tx.index + 1, (s.time.tick + 4).toNat] []

theorem keyRotationStart_tells (ha : s.awake = true) (hp : p < 2) (hk : (s.link p).keysIn = true) (hc : (s.link p).tx.counter < 2 ^ 32)
    (hn : (s.link p).tx.next = none)
    (hd : s.passed (s.link p).tx.since (secTicks (s.rotateS p)) = true ∨ 2 ^ 32 - 2 ^ 20 ≤ (s.link p).tx.counter) :
    Tells (.keyRotationStart p) s (s.keyAsked p) p ctlKeyNext [s.txDir p, (s.link p).tx.index + 1, (s.time.tick + 4).toNat] [] := by
  refine gives_of_run (execKeyRotationStart.eq_1 p s) ha ?_
  have hlink : s.begin.link p = s.link p := rfl
  have hrot : s.begin.rotateS p = s.rotateS p := rfl
  dsimp only
  rw [hlink, hrot, if_neg (by simp [hk]; omega), if_neg (by omega), if_neg (by simpa [hn] using fun h => hd.resolve_left (by simp [h]))]
  exact rotate_begin s p

theorem keyRotationStart_early (ha : s.awake = true) (hc : (s.link p).tx.counter < 2 ^ 32)
    (hd : ¬(s.passed (s.link p).tx.since (secTicks (s.rotateS p)) = true ∨ 2 ^ 32 - 2 ^ 20 ≤ (s.link p).tx.counter)) :
    Leaves (.keyRotationStart p) s s := by
  refine gives_of_run (execKeyRotationStart.eq_1 p s) ha ?_
  have hlink : s.begin.link p = s.link p := rfl
  have hrot : s.begin.rotateS p = s.rotateS p := rfl
  obtain ⟨h1, h2⟩ := not_or.mp hd
  have hlate : ((s.link p).tx.next.isSome || !(s.begin.passed (s.link p).tx.since (secTicks (s.rotateS p))
      || Decidable.decide (2 ^ 32 - 2 ^ 20 ≤ (s.link p).tx.counter))) = true := by
    have h1' : s.begin.passed (s.link p).tx.since (secTicks (s.rotateS p)) = false := Bool.eq_false_iff.mpr h1
    rw [h1', decide_eq_false h2]
    simp
  dsimp only
  rw [hlink, hrot, if_neg (Nat.not_le.mpr hc), if_pos hlate, ite_self]
  rfl

theorem keyRotationStart_closes (ha : s.awake = true) (hp : p < 2) (hk : (s.link p).keysIn = true) (hc : 2 ^ 32 ≤ (s.link p).tx.counter)
    (ho : s.phyOut p = false) (hlen : s.cable.links.length = 2) :
    Gives (.keyRotationStart p) s fun t => (t.link p).state = 1 ∧ (t.link p).cause = 4 := by
  refine gives_of_run (execKeyRotationStart.eq_1 p s) ha ?_
  have hlink : s.begin.link p = s.link p := rfl
  dsimp only
  rw [hlink, if_neg (by simp [hk]; omega), if_pos hc]
  exact closes_begin hp (by decide) ho hlen

theorem keyNext_asks (ha : s.awake = true) (hp : p < 2) (i : Nat) (k : Tick) (hk : (s.link p).keysIn = true) (hn : (s.link p).tx.next = none) :
    Tells (.keyNext p (s.txDir p) i k) s (s.keyAsked p) p ctlKeyNext [s.txDir p, (s.link p).tx.index + 1, (s.time.tick + 4).toNat] [] := by
  refine gives_of_run (execKeyNext.eq_1 p (s.txDir p) i k s) ha ?_
  have hlink : s.begin.link p = s.link p := rfl
  have hdir : s.begin.txDir p = s.txDir p := rfl
  rw [hlink, hdir, if_neg (by simp [hk]; omega), if_pos (by simp), hn, if_neg (by decide)]
  exact rotate_begin s p

theorem keyNext_acknowledges (ha : s.awake = true) (hp : p < 2) (d i : Nat) (k : Tick) (hk : (s.link p).keysIn = true) (hd : d ≠ s.txDir p) :
    Tells (.keyNext p d i k) s (s.setLink p fun l => { l with rx := { l.rx with next := some (i, k, true) } }) p ctlKeyNextAck [d, i] [] := by
  refine gives_of_run (execKeyNext.eq_1 p d i k s) ha ?_
  have hlink : s.begin.link p = s.link p := rfl
  have hdir : s.begin.txDir p = s.txDir p := rfl
  rw [hlink, hdir, if_neg (by simp [hk]; omega), if_neg (by simpa using hd)]
  exact tells_begin (s.setLink p fun l => { l with rx := { l.rx with next := some (i, k, true) } }) p ctlKeyNextAck [d, i] []

theorem keyNextAck_leaves (ha : s.awake = true) (hp : p < 2) (i : Nat) :
    Leaves (.keyNextAck p (s.txDir p) i) s (s.setLink p fun l => { l with tx := { l.tx with
      next := l.tx.next.map fun n => if n.1 == i then (n.1, n.2.1, true) else n } }) := by
  refine gives_of_run (execKeyNextAck.eq_1 p (s.txDir p) i s) ha ?_
  have hdir : s.begin.txDir p = s.txDir p := rfl
  rw [hdir, if_neg (by simp; omega)]
  rfl

theorem keyEffectiveTick_tx (ha : s.awake = true) (hp : p < 2) {i : Nat} {k : Tick} (hrx : (s.link p).rx.next = none)
    (htx : (s.link p).tx.next = some (i, k, true)) (ht : (s.time.tick - k).toNat < 2 ^ 47) :
    Leaves (.keyEffectiveTick p) s (s.setLink p fun l => { l with tx := {
      index := i, counter := 0, key := l.keyFor (s.txDir p) i, since := k, next := none, old := none } }) := by
  refine gives_of_run (execKeyEffectiveTick.eq_1 p s) ha ?_
  have hrx' : (s.begin.link p).rx.next = none := hrx
  have htx' : (s.begin.link p).tx.next = some (i, k, true) := htx
  have ht' : reached s.begin.time.tick k = true := decide_eq_true ht
  rw [if_neg (by omega), State.keyTurns]
  simp only [hrx', htx', ht', Bool.not_true, Bool.false_eq_true, if_false, if_true]
  rfl

theorem keyEffectiveTick_rx (ha : s.awake = true) (hp : p < 2) {i : Nat} {k : Tick} {a : Bool} (hrx : (s.link p).rx.next = some (i, k, a))
    (htx : (s.link p).tx.next = none) (ht : (s.time.tick - k).toNat < 2 ^ 47) :
    Leaves (.keyEffectiveTick p) s (s.setLink p fun l => { l with rx := {
      index := i, counter := 0, key := l.keyFor (1 - s.txDir p) i, since := k, next := none, old := some (l.rx.key, k) } }) := by
  refine gives_of_run (execKeyEffectiveTick.eq_1 p s) ha ?_
  have hrx' : (s.begin.link p).rx.next = some (i, k, a) := hrx
  have ht' : reached s.begin.time.tick k = true := decide_eq_true ht
  have htx' : ((s.begin.setLink p fun l => { l with rx := {
      index := i, counter := 0, key := l.keyFor (1 - s.begin.txDir p) i, since := k, next := none, old := some (l.rx.key, k) } }).link p).tx.next
        = none := (s.begin.link_setLink_congr (fun l => l.tx.next) _ (by intro _; rfl) p p).trans htx
  rw [if_neg (by omega), State.keyTurns]
  simp only [hrx', ht', if_true, htx']
  rfl

theorem keyIndexRetire_leaves (ha : s.awake = true) (hp : p < 2) : Leaves (.keyIndexRetire p) s (s.setLink p fun l => { l with rx := { l.rx with
      old := l.rx.old.bind fun o => if (s.time.tick - (o.2 + 2)).toNat < 2 ^ 47 then none else some o } }) := by
  refine gives_of_run (execKeyIndexRetire.eq_1 p s) ha ?_
  have hset : ∀ o : List Byte × Tick, (if reached s.begin.time.tick (o.2 + 2) = true then none else some o)
      = if (s.time.tick - (o.2 + 2)).toNat < 2 ^ 47 then none else some o := fun o => by simp [reached]
  rw [if_neg (by omega), State.keyRetires]
  simp only [hset]
  rfl

/-- Settles O15: what a message of the agreement leaves is told of its state before; a rotation is asked for by one message. -/
theorem electionAndKeys : Obligations.ElectionAndKeys := by
  unfold Obligations.ElectionAndKeys
  refine ⟨fun s p ha hp => ⟨?_, ?_, ?_, ?_, ?_, ?_, ?_, ?_⟩, fun s p ha hp => ⟨?_, ?_, ?_, ?_, ?_, ?_, ?_, ?_, ?_⟩⟩
  · exact fun h hst hel hr hg hnv hd hh hn hid hlen hroles => hello_gives ha hp hst hel hr hg hnv hd hh hn hid hlen hroles
  · exact fun d hst hel hrelay hup hg => elect_gives ha hp d hst hel hrelay hup hg
  · exact fun bs hr hk hst hid hlen hf => keyInit_gives ha hp bs hr hk hst hid hlen hf
  · exact fun bs z hr hk hi hresp hlen hz => keyResp_gives ha hp bs z hr hk hi hresp hlen hz
  · exact fun bs hk hresp hok => keyFinish_installs ha hp bs hk hresp hok
  · exact fun bs hk hresp hok hr hf => keyFinish_fails ha hp bs hk hresp hok hr hf
  · exact fun hst hel hk ht hr hf => keyAgreementTimeout_fails ha hp hst hel hk ht hr hf
  · exact fun ht => keyAgreementTimeout_early ha ht
  · exact fun hk hc hn hd _ => keyRotationStart_tells ha hp hk hc hn hd
  · exact fun hc hd => keyRotationStart_early ha hc hd
  · exact fun hk hc ho hlen => keyRotationStart_closes ha hp hk hc ho hlen
  · exact fun i k hk hn _ => keyNext_asks ha hp i k hk hn
  · exact fun d i k hk hd => keyNext_acknowledges ha hp d i k hk hd
  · exact fun i k a _ => keyNextAck_leaves ha hp i
  · exact fun i k hrx htx ht => keyEffectiveTick_tx ha hp hrx htx ht
  · exact fun i k a hrx htx ht => keyEffectiveTick_rx ha hp hrx htx ht
  · exact keyIndexRetire_leaves ha hp

end Sys2Proof.Machine

/-! What Fiddlehead leaves of what a reset has left (R534, R538): all but the boot state, the running images, the key slots' fuses and the regions, and
where it halts at the service floor all but the cable power channels and the power path, too. -/
namespace Sys2Proof.Machine

/-- The state without what a boot that loads a management copy writes, but for the boot state. -/
def State.deck (s : State) : State :=
  { s with
    out := [], free := 0, mbx := .init, rcd := .init, svc := .init
    fault := { s.fault with counts := [], log := [], unreported := [], floor := 0 }
    trust := { s.trust with slots := [], acus := [], bootLc := 0 }
    upd := { s.upd with running := [], stopped := [], verdicts := [], octal := false, mgtHalf := 0, cleanSince := 0 } }

/-- The state without what a boot that halts at the service floor writes, either. -/
def State.hull (s : State) : State := { s.deck with plan := .init, pcie := .init, cc := [], ppath := .init }

theorem State.hull_of_deck {s t : State} (h : t.deck = s.deck) : t.hull = s.hull :=
  congrArg (fun u => ({ u with plan := .init, pcie := .init, cc := [], ppath := .init } : State)) h

theorem State.deck_of_still {s t : State} (h : t.still = s.still) (hc : t.cable = s.cable) : t.deck = s.deck := by
  have h1 : ({ t.still with cable := .init } : State).deck = ({ s.still with cable := .init } : State).deck := by rw [h]
  have h2 := congrArg (fun u => ({ u with cable := s.cable } : State)) h1
  have ht : ({ t.still with cable := s.cable } : State).deck = t.deck := by rw [← hc]; rfl
  exact ht.symm.trans h2

/-! ### A boot that loads a management copy -/

theorem State.deck_foldl {β : Type} {f : State → β → State} (h : ∀ s b, (f s b).deck = s.deck) (l : List β) (s : State) :
    (l.foldl f s).deck = s.deck := foldl_same f State.deck h l s

@[simp] theorem State.deck_ite (c : Prop) [Decidable c] (s t : State) : (if c then s else t).deck = if c then s.deck else t.deck :=
  apply_ite State.deck c s t

@[simp] theorem State.deck_raise (s : State) (n a : Nat) : (s.raise n a).deck = s.deck := (congrArg State.deck (s.hush_raise n a) :)

@[simp] theorem State.deck_raiseIf (s : State) (c : Bool) (n a : Nat) : (s.raiseIf c n a).deck = s.deck := (congrArg State.deck (s.hush_raiseIf c n a) :)

@[simp] theorem State.deck_emit (s : State) (e : Emit) : (s.emit e).deck = s.deck := rfl

@[simp] theorem State.deck_reportFaults (s : State) : s.reportFaults.deck = s.deck := by
  have h : ∀ l : List (Nat × Nat), (l.foldl (fun (s : State) x => s.raise 0 (x.1 + 256 * x.2 + 65536 * nth s.fault.counts x.1 0)) s).deck = s.deck :=
    fun l => State.deck_foldl (fun s x => s.deck_raise ..) l s
  exact h _

@[simp] theorem State.deck_destroySlot (s : State) (k : Nat) : (s.destroySlot k).deck = s.deck := by
  unfold State.destroySlot
  split
  · rfl
  · exact State.deck_raise ..

@[simp] theorem State.deck_completeDestructions (s : State) (lc : Nat) : (s.completeDestructions lc).deck = s.deck :=
  State.deck_foldl (fun s k => by simp) _ s

@[simp] theorem State.deck_writeSlot (s : State) (k c : Nat) (bs : List Byte) : (s.writeSlot k c bs).deck = s.deck := State.deck_raise ..

@[simp] theorem State.deck_fillDevice (s : State) : s.fillDevice.deck = s.deck := by
  have h : ∀ k, ((s.entropy 32).2.writeSlot k 3 (s.entropy 32).1).deck = s.deck := fun k => State.deck_writeSlot ..
  unfold State.fillDevice
  split
  · rfl
  · split
    · exact h 3
    · split
      · exact h 31
      · rfl

@[simp] theorem State.deck_loadBaseline (s : State) : s.loadBaseline.deck = s.deck := rfl

@[simp] theorem State.deck_flashRead (s : State) : s.flashRead.deck = s.deck := rfl

theorem State.deck_loadMgt (s : State) (c e : Nat) : ∃ b, (s.loadMgt c e).deck = { s.deck with boot := b } ∧ b.stage = 1 :=
  ⟨_, State.deck_raiseIf .., rfl⟩

@[simp] theorem State.deck_recTrigger (s : State) (n : Nat) : (s.recTrigger n).deck = s.deck := (congrArg State.deck (s.hush_recTrigger n) :)

@[simp] theorem State.deck_logFault (s : State) (code action unit : Nat) : (s.logFault code action unit).deck = s.deck := by
  unfold State.logFault
  dsimp only
  rw [State.deck_raiseIf, State.deck_recTrigger]
  split <;> rfl

/-! ### A halt -/

theorem State.hull_foldl {β : Type} {f : State → β → State} (h : ∀ s b, (f s b).hull = s.hull) (l : List β) (s : State) :
    (l.foldl f s).hull = s.hull := foldl_same f State.hull h l s

@[simp] theorem State.hull_ite (c : Prop) [Decidable c] (s t : State) : (if c then s else t).hull = if c then s.hull else t.hull :=
  apply_ite State.hull c s t

@[simp] theorem State.hull_raise (s : State) (n a : Nat) : (s.raise n a).hull = s.hull := State.hull_of_deck (s.deck_raise n a)
@[simp] theorem State.hull_raiseIf (s : State) (c : Bool) (n a : Nat) : (s.raiseIf c n a).hull = s.hull := State.hull_of_deck (s.deck_raiseIf c n a)
@[simp] theorem State.hull_emit (s : State) (e : Emit) : (s.emit e).hull = s.hull := rfl
@[simp] theorem State.hull_setChn (s : State) (k : Nat) (f : CcSt → CcSt) : (s.setChn k f).hull = s.hull := rfl
@[simp] theorem State.hull_ccStop (s : State) (k : Nat) (t : CcTimer) : (s.ccStop k t).hull = s.hull := rfl
@[simp] theorem State.hull_setBay (s : State) (k : Nat) (f : BaySt → BaySt) : (s.setBay k f).hull = s.hull := rfl
@[simp] theorem State.hull_setVsw (s : State) (k : Nat) (f : VbusSt → VbusSt) : (s.setVsw k f).hull = s.hull := rfl
@[simp] theorem State.hull_setFeed (s : State) (k : Nat) (f : FeedSt → FeedSt) : (s.setFeed k f).hull = s.hull := rfl
@[simp] theorem State.hull_drivePerst (s : State) (k : Nat) (on : Bool) : (s.drivePerst k on).hull = s.hull := rfl
@[simp] theorem State.hull_showPins (s : State) (k : Nat) : (s.showPins k).hull = s.hull := rfl

@[simp] theorem State.hull_modChan (s : State) (c : Chan) (f : ChanSt → ChanSt) : (s.modChan c f).hull = s.hull := by
  unfold State.modChan State.setChan
  cases c <;> rfl

@[simp] theorem State.hull_spore (s : State) (k c : Nat) (p : List Byte) : (s.spore k c p).hull = s.hull := (congrArg State.hull (s.hush_spore k c p) :)

@[simp] theorem State.hull_raiseOn (s : State) (c : Chan) (n a : Nat) : (s.raiseOn c n a).hull = s.hull := by simp [State.raiseOn]

@[simp] theorem State.hull_finish (s : State) (via : Via) (h rc : Nat) (data : List Byte) : (s.finish via h rc data).hull = s.hull := by
  unfold State.finish
  dsimp only
  split <;> simp

@[simp] theorem State.hull_finishRc (s : State) (via : Via) (h : Nat) (rc : Rc) (data : List Byte) : (s.finishRc via h rc data).hull = s.hull :=
  s.hull_finish ..

@[simp] theorem State.hull_requestDone (s : State) (k : Nat) (rc : Rc) : (s.requestDone k rc).hull = s.hull := by
  unfold State.requestDone
  split <;> simp

@[simp] theorem State.hull_modeDone (s : State) (k : Nat) (rc : Rc) : (s.modeDone k rc).hull = s.hull := by
  unfold State.modeDone
  split <;> simp

@[simp] theorem State.hull_sendFailed (s : State) (k : Nat) (o : PdOut) (n : Nat) : (s.sendFailed k o n).hull = s.hull := by
  unfold State.sendFailed
  split <;> simp

@[simp] theorem State.hull_dropAms (s : State) (k : Nat) : (s.dropAms k).hull = s.hull := by
  unfold State.dropAms
  have hq : (((s.chn k).queued.toList ++ (s.chn k).outq).foldl (fun (s : State) o => s.sendFailed k o 2) s).hull = s.hull :=
    State.hull_foldl (fun _ _ => State.hull_sendFailed ..) _ _
  simp only [State.hull_setChn, State.hull_modeDone, State.hull_requestDone]
  split
  · split
    · rw [State.hull_finish, hq]
    · exact hq
  · exact hq

@[simp] theorem State.hull_leaveEpr (s : State) (k : Nat) : (s.leaveEpr k).hull = s.hull := by simp [State.leaveEpr]

@[simp] theorem State.hull_pgFall (s : State) (b : Nat) : (s.pgFall b).hull = s.hull := by
  unfold State.pgFall
  split
  · dsimp only
    split <;> simp
  · rfl

@[simp] theorem State.hull_bayTo (s : State) (b : Nat) (st : BayState) : (s.bayTo b st).hull = s.hull := by simp [State.bayTo]

@[simp] theorem State.hull_bayRest (s : State) (b : Nat) : (s.bayRest b).hull = s.hull := by simp [State.bayRest]

@[simp] theorem State.hull_vbusOn (s : State) (k mv : Nat) : (s.vbusOn k mv).hull = s.hull := by simp [State.vbusOn]

@[simp] theorem State.hull_feedGone (s : State) (n mv : Nat) : (s.feedGone n mv).hull = s.hull := by simp [State.feedGone]

@[simp] theorem State.hull_feedsLapse (s : State) : s.feedsLapse.hull = s.hull := State.hull_foldl (fun s n => by simp) _ s

@[simp] theorem State.hull_budgetPd (s : State) (k : Nat) : (s.budgetPd k).hull = s.hull := by
  unfold State.budgetPd
  dsimp only
  exact (State.hull_raiseIf ..).trans s.hull_feedsLapse

@[simp] theorem State.hull_setContract (s : State) (k kind mv ma : Nat) : (s.setContract k kind mv ma).hull = s.hull := by simp [State.setContract]

@[simp] theorem State.hull_romChannel (s : State) (k : Nat) : (s.romChannel k).hull = s.hull := by simp [State.romChannel]

@[simp] theorem State.hull_enterRom (s : State) : s.enterRom.hull = s.hull := by
  unfold State.enterRom
  dsimp only
  rw [State.hull_foldl (fun s b => by simp), State.hull_foldl (fun s k => s.hull_romChannel k)]

theorem State.hull_halt (s : State) (err : Nat) : ∃ b, (s.halt err).hull = { s.hull with boot := b } ∧ b.stage = 4 :=
  ⟨_, State.hull_enterRom _, rfl⟩

/-! ### Fiddlehead -/

/-- Fiddlehead has loaded a management copy, or halted; all else is as its frame says. -/
def State.Booted (s t : State) : Prop :=
  (∃ b, t.deck = { s.deck with boot := b } ∧ b.stage = 1) ∨ ∃ b, t.hull = { s.hull with boot := b } ∧ b.stage = 4

theorem State.Booted.after {s u t : State} (h : u.Booted t) (hu : u.deck = s.deck) : s.Booted t := by
  rcases h with ⟨b, h, hb⟩ | ⟨b, h, hb⟩
  · exact .inl ⟨b, by rw [h, hu], hb⟩
  · exact .inr ⟨b, by rw [h, State.hull_of_deck hu], hb⟩

theorem State.loadMgt_booted (s : State) (c e : Nat) : s.Booted (s.loadMgt c e) := .inl (s.deck_loadMgt c e)

theorem State.halt_booted (s : State) (err : Nat) : s.Booted (s.halt err) := .inr (s.hull_halt err)

theorem State.fiddlehead_booted (s : State) (loop : Bool) : s.Booted (s.fiddlehead loop) := by
  unfold State.fiddlehead
  extract_lets u lc old tr v w x y z fl
  have hu : u.deck = s.deck := s.deck_reportFaults
  have hv : v.deck = s.deck := (State.deck_raiseIf _ _ _ _).trans hu
  have hw : w.deck = s.deck := (v.deck_raiseIf ..).trans hv
  have hx : x.deck = s.deck := (w.deck_completeDestructions lc).trans hw
  have hy : y.deck = s.deck := (State.deck_loadBaseline _).trans ((x.deck_fillDevice).trans hx)
  have hz : z.deck = s.deck := (y.deck_flashRead).trans hy
  clear_value x y z
  split
  · exact (x.halt_booted _).after hx
  · split
    · exact (x.halt_booted _).after hx
    · split
      · exact (y.halt_booted _).after hy
      · split
        · split
          · exact (State.loadMgt_booted _ _ _).after hz
          · exact (State.halt_booted _ _).after hz
        · split
          · exact (z.loadMgt_booted _ _).after hz
          · exact (z.halt_booted _).after hz

end Sys2Proof.Machine

/-! What a SYSTEM reset and a reset of the management core leave (Table 21.2, R534, R536 to R540, R543, R551). -/
namespace Sys2Proof.Machine

variable {s : State}

/-! ### The domains -/

theorem State.hush_foldl {β : Type} {f : State → β → State} (h : ∀ s b, (f s b).hush = s.hush) (l : List β) (s : State) :
    (l.foldl f s).hush = s.hush := foldl_same f State.hush h l s

theorem State.hush_ite (c : Prop) [Decidable c] {s t u : State} (hs : s.hush = u.hush) (ht : t.hush = u.hush) :
    (if c then s else t).hush = u.hush := by split <;> assumption

theorem State.hush_signalsLost (s : State) : s.signalsLost.hush = s.hush := by
  unfold State.signalsLost
  extract_lets u v
  have hu : u.hush = s.hush := by
    refine State.hush_foldl (fun w k => ?_) _ s
    dsimp only
    split <;> split <;> rfl
  have hv : v.hush = s.hush := by
    refine (State.hush_foldl (fun w k => ?_) _ u).trans hu
    split <;> rfl
  clear_value u v
  exact State.hush_ite _ hv hv

/-- The fuses of the life cycle and of the key slots. -/
def State.lifeFuses (s : State) : List (BitVec 3) × List SlotSt := (s.trust.lc, s.trust.slots)

theorem State.lifeFuses_emit (s : State) (e : Emit) : (s.emit e).lifeFuses = s.lifeFuses := rfl

theorem State.lifeFuses_blowRollback (s : State) (n : Nat) : (s.blowRollback n).lifeFuses = s.lifeFuses := by
  unfold State.blowRollback
  split
  · rfl
  · rw [State.lifeFuses, State.raise_trust]
    rfl

theorem State.lifeFuses_commitCut (s : State) : s.commitCut.lifeFuses = s.lifeFuses := by
  unfold State.commitCut
  split
  · rfl
  · dsimp only
    generalize hu : ({ s.draw.2 with upd := { s.draw.2.upd with commit := none } } : State) = u
    have h : u.lifeFuses = s.lifeFuses := by rw [← hu]; rfl
    have hflash : ∀ (w : State) g, (w.setFlash g).lifeFuses = w.lifeFuses := fun _ _ => rfl
    split
    · exact h
    · exact h
    · exact h
    · exact h
    · exact (State.lifeFuses_blowRollback _ _).trans h
    · exact (hflash _ _).trans ((State.lifeFuses_blowRollback _ _).trans h)
    · exact (hflash _ _).trans ((hflash _ _).trans ((hflash _ _).trans ((State.lifeFuses_blowRollback _ _).trans h)))

theorem State.commitCut_none (h : s.upd.commit = none) : s.commitCut = s := by
  unfold State.commitCut
  rw [h]

/-- What a reset of every domain but AON and PWR has left. -/
structure State.ResetOf (s t : State) : Prop where
  tick : t.time.tick = s.time.tick
  atInit : t.cfg = .init ∧ t.topo = .init ∧ t.cable = .init ∧ t.sw = .init ∧ t.disp = .init ∧ t.pcie = .init ∧ t.usb = .init ∧ t.net = .init
    ∧ t.sb = .init
  fault : t.fault = { s.fault with deferred := none, phyStopped := [false, false], thermal := false, planHold := false }
  pins : t.pins = { s.pins with coreVid := 50, halted := 0, mgtHalted := false }
  power : t.cc = s.cc.map CcSt.afterReset ∧ t.ppath = s.ppath
  fuses : t.lifeFuses = s.lifeFuses
  flash : s.upd.commit = none → t.upd.flash = s.upd.flash ∧ t.trust.rollback = s.trust.rollback

theorem State.domainsReset_of (s : State) : s.ResetOf s.domainsReset := by
  unfold State.domainsReset
  extract_lets frozen midway u v
  have hu : u.hush = s.hush := by
    refine State.hush_foldl (fun w k => ?_) _ s
    split <;> rfl
  have hl : u.signalsLost.hush = s.hush := (State.hush_signalsLost u).trans hu
  have hv : v = u.signalsLost.commitCut.emit .xspiReset := rfl
  clear_value v
  generalize u.signalsLost = w at hl hv
  have hwtrust : w.trust = s.trust := (congrArg State.trust hl :)
  have hwupd : w.upd = s.upd := (congrArg State.upd hl :)
  have hstance : v.stance = s.stance := by
    rw [hv, State.stance_of_footing (State.footing_emit _ _), State.stance_commitCut]
    exact State.stance_of_footing (State.footing_of_still (congrArg State.calm hl))
  have hfuse : v.lifeFuses = s.lifeFuses := by
    rw [hv, State.lifeFuses_emit, State.lifeFuses_commitCut, State.lifeFuses, hwtrust, State.lifeFuses]
  have hnone : s.upd.commit = none → v.upd = s.upd ∧ v.trust = s.trust := fun h => by
    rw [hv, State.commitCut_none (by rw [hwupd, h])]
    exact ⟨hwupd, hwtrust⟩
  have hvs : v.stance.1 = s.stance.1 := congrArg Prod.fst hstance
  have htime : v.time = s.time := (congrArg State.time hvs :)
  have hfault : v.fault = s.fault := (congrArg State.fault hvs :)
  have hpins : v.pins = s.pins := (congrArg State.pins hvs :)
  have hcc : v.cc = s.cc := (congrArg State.cc hvs :)
  have hpp : v.ppath = s.ppath := (congrArg State.ppath hvs :)
  refine ⟨?_, ⟨rfl, rfl, rfl, rfl, rfl, rfl, rfl, rfl, rfl⟩, ?_, ?_, ⟨?_, hpp⟩, hfuse, fun h => ?_⟩
  · exact (congrArg TimeSt.tick htime :)
  · exact (congrArg (fun f : FaultSt => ({ f with deferred := none, phyStopped := [false, false], thermal := false, planHold := false } : FaultSt)) hfault :)
  · exact (congrArg (fun f : PinSt => ({ f with coreVid := 50, halted := 0, mgtHalted := false } : PinSt)) hpins :)
  · exact (congrArg (List.map CcSt.afterReset) hcc :)
  · obtain ⟨h1, h2⟩ := hnone h
    exact ⟨(congrArg UpdSt.flash h1 :), (congrArg TrustSt.rollback h2 :)⟩

/-! ### A SYSTEM reset -/

theorem State.ResetOf.booted {r t : State} {cause : Nat} (h : s.ResetOf r) (hb : (r.noteReset 1 cause).Booted t) :
    s.AfterReset cause t ∧ t.fault.thermal = false ∧ t.pins = r.pins := by
  obtain ⟨htick, ⟨hcfg, htopo, hcable, hsw, hdisp, hpcie, husb, hnet, hsb⟩, hfault, -, ⟨hcc, hpp⟩, hfuse, hflash⟩ := h
  have hlc : r.trust.lc = s.trust.lc := congrArg Prod.fst hfuse
  have key : ∀ b, t.hull = { (r.noteReset 1 cause).hull with boot := b } →
      (t.boot.stage = 4 ∨ (t.boot.stage = 1 ∧ t.pcie = .init ∧ t.cc = s.cc.map CcSt.afterReset ∧ t.ppath = s.ppath)) →
      s.AfterReset cause t ∧ t.fault.thermal = false ∧ t.pins = r.pins := fun b hh hstage => by
    have hf : t.hull.fault = (r.noteReset 1 cause).hull.fault := (congrArg State.fault hh :)
    have htrust : t.hull.trust = (r.noteReset 1 cause).hull.trust := (congrArg State.trust hh :)
    have hupd : t.hull.upd = (r.noteReset 1 cause).hull.upd := (congrArg State.upd hh :)
    have hkind : t.fault.resetKind = 1 := (congrArg FaultSt.resetKind hf :)
    have hcause : t.fault.resetCause = cause := (congrArg FaultSt.resetCause hf :)
    have hwhen : t.fault.resetTick = r.time.tick := (congrArg FaultSt.resetTick hf :)
    have hcool : t.fault.thermal = r.fault.thermal := (congrArg FaultSt.thermal hf :)
    have hnow : t.time.tick = r.time.tick := (congrArg (fun u => (State.time u).tick) hh :)
    refine ⟨⟨hkind, hcause, hwhen.trans htick, hnow.trans htick, ?_, ?_, ?_, ?_, ?_, ?_, ?_, ?_, ?_, fun hc => ?_, hstage⟩,
      by rw [hcool, hfault], (congrArg State.pins hh :)⟩
    · exact ((congrArg State.cfg hh :)).trans hcfg
    · exact ((congrArg State.topo hh :)).trans htopo
    · exact ((congrArg State.cable hh :)).trans hcable
    · exact ((congrArg State.sw hh :)).trans hsw
    · exact ((congrArg State.disp hh :)).trans hdisp
    · exact ((congrArg State.usb hh :)).trans husb
    · exact ((congrArg State.net hh :)).trans hnet
    · exact ((congrArg State.sb hh :)).trans hsb
    · exact ((congrArg TrustSt.lc htrust :)).trans hlc
    · obtain ⟨h1, h2⟩ := hflash hc
      exact ⟨((congrArg UpdSt.flash hupd :)).trans h1, ((congrArg TrustSt.rollback htrust :)).trans h2⟩
  rcases hb with ⟨b, hd, hb⟩ | ⟨b, hh, hb⟩
  · refine key b ?_ (.inr ⟨?_, ?_, ?_, ?_⟩)
    · exact congrArg (fun u => ({ u with plan := .init, pcie := .init, cc := [], ppath := .init } : State)) hd
    · exact ((congrArg (fun u => (State.boot u).stage) hd :)).trans hb
    · exact ((congrArg State.pcie hd :)).trans hpcie
    · exact ((congrArg State.cc hd :)).trans hcc
    · exact ((congrArg State.ppath hd :)).trans hpp
  · exact key b hh (.inl (((congrArg (fun u => (State.boot u).stage) hh :)).trans hb))

/-- What a SYSTEM reset leaves; the sensors' shutdown is over, and the pins are the domains' own. -/
theorem State.systemReset_gives (s : State) (cause : Nat) :
    s.AfterReset cause (s.systemReset cause) ∧ (s.systemReset cause).fault.thermal = false
      ∧ (s.systemReset cause).pins = { s.pins with coreVid := 50, halted := 0, mgtHalted := false } := by
  have hr := s.domainsReset_of
  unfold State.systemReset
  dsimp only
  have hlog : (if s.resetLoop cause = true then (s.domainsReset.noteReset 1 cause).logFault 0x0E actFloor
      else s.domainsReset.noteReset 1 cause).deck = (s.domainsReset.noteReset 1 cause).deck := by simp
  obtain ⟨h1, h2, h3⟩ := hr.booted (cause := cause) ((State.fiddlehead_booted _ (s.resetLoop cause)).after hlog)
  exact ⟨h1, h2, h3.trans hr.pins⟩

/-- A command whose effect is none leaves the state, whether it runs or not. -/
theorem leaves_of_runIf {i : Instr} {b : Bool} {f : State → State} (hx : exec i s = runIf b s f) (h : (f s.begin).hush = s.hush) : Leaves i s s := by
  refine ⟨_, hx, ?_⟩
  cases b
  · rfl
  · exact h

theorem systemReset_after (hp : s.powered = true) (hb : s.boot.stage = 2) : Gives .systemReset s (s.AfterReset 0x31) := by
  refine gives_of_runIf (execSystemReset.eq_1 s) hp ?_
  rw [State.askSystemReset, if_neg (by simp [hb])]
  exact (s.begin.systemReset_gives 0x31).1

theorem systemReset_absorbed (hp : s.powered = true) (hb : s.boot.stage ≤ 1) (hr : s.boot.mgtReset = false) (hph : s.pwr.phase = 0)
    (ht : s.fault.thermal = false) : Leaves .systemReset s { s with fault := { s.fault with resetCause := 0x31 } } := by
  refine gives_of_runIf (execSystemReset.eq_1 s) hp ?_
  rw [State.askSystemReset, if_pos (by simp [hb, hr, hph, ht])]
  rfl

theorem deferredReset_system (ha : s.awake = true) (hb : s.boot.stage = 2) {cause : Nat} {due : Tick} (hd : s.fault.deferred = some (1, cause, due))
    (hdue : reached s.time.tick due = true) : Gives .deferredReset s (s.AfterReset cause) := by
  refine gives_of_run (execDeferredReset.eq_1 s) ha ?_
  have hd' : s.begin.fault.deferred = some (1, cause, due) := hd
  have hdue' : reached s.begin.time.tick due = true := hdue
  rw [hd']
  dsimp only
  rw [hdue', if_neg (by decide), if_pos (by decide), State.askSystemReset, if_neg (by simp [hb])]
  exact (State.systemReset_gives { s.begin with fault := { s.begin.fault with deferred := none } } cause).1

theorem deferredReset_core (ha : s.awake = true) (hb : s.boot.stage = 2) (hr : s.boot.mgtReset = false) {cause : Nat} {due : Tick}
    (hd : s.fault.deferred = some (2, cause, due)) (hc : cause ≠ 3) (hdue : reached s.time.tick due = true) :
    Gives .deferredReset s fun t => s.AfterCoreReset cause t ∧ t.fault.deferred = none := by
  refine gives_of_run (execDeferredReset.eq_1 s) ha ?_
  have hd' : s.begin.fault.deferred = some (2, cause, due) := hd
  have hdue' : reached s.begin.time.tick due = true := hdue
  rw [hd']
  dsimp only
  rw [hdue', if_neg (by decide), if_neg (by decide)]
  obtain ⟨hafter, -, hf⟩ := State.mgtCoreReset_gives (s := { s.begin with fault := { s.begin.fault with deferred := none } }) hb hr hc
  exact ⟨hafter, by rw [hf]⟩

theorem deferredReset_early {kind cause : Nat} {due : Tick} (hd : s.fault.deferred = some (kind, cause, due))
    (hdue : reached s.time.tick due = false) : Leaves .deferredReset s s := by
  refine leaves_of_runIf (execDeferredReset.eq_1 s) ?_
  have hd' : s.begin.fault.deferred = some (kind, cause, due) := hd
  have hdue' : reached s.begin.time.tick due = false := hdue
  rw [hd']
  dsimp only
  rw [hdue']
  rfl

theorem coreBrownout_after (ha : s.awake = true) : Gives .coreBrownout s (s.AfterReset 0x0C) := by
  refine gives_of_run (execCoreBrownout.eq_1 s) ha ?_
  have hdeck : (s.begin.logFault 0x0C actSystem).deck = s.begin.deck := State.deck_logFault ..
  have hafter := ((s.begin.logFault 0x0C actSystem).systemReset_gives 0x0C).1
  generalize s.begin.logFault 0x0C actSystem = u at hdeck hafter
  have htime : u.time = s.time := (congrArg State.time hdeck :)
  have hlc : u.trust.lc = s.trust.lc := (congrArg (fun w => (State.trust w).lc) hdeck :)
  have hroll : u.trust.rollback = s.trust.rollback := (congrArg (fun w => (State.trust w).rollback) hdeck :)
  have hflash : u.upd.flash = s.upd.flash := (congrArg (fun w => (State.upd w).flash) hdeck :)
  have hcommit : u.upd.commit = s.upd.commit := (congrArg (fun w => (State.upd w).commit) hdeck :)
  have hcc : u.cc = s.cc := (congrArg State.cc hdeck :)
  have hpp : u.ppath = s.ppath := (congrArg State.ppath hdeck :)
  unfold State.AfterReset at hafter ⊢
  rwa [htime, hlc, hroll, hflash, hcommit, hcc, hpp] at hafter

theorem thermalRecovery_after (hp : s.powered = true) (ht : s.fault.thermal = true) (hc : secTicks 1 ≤ s.fault.coolFor) :
    Gives .thermalRecovery s fun t => s.AfterReset 0x0D t ∧ t.fault.thermal = false ∧ t.pins.coreEn = true
      ∧ t.pins.anaEn = true ∧ t.pins.memEn = true := by
  refine gives_of_runIf (execThermalRecovery.eq_1 s) hp ?_
  rw [if_neg (by simpa [ht, secTicks] using hc)]
  obtain ⟨h1, h2, h3⟩ := State.systemReset_gives
    { s.begin with pins := { s.begin.pins with coreEn := true, anaEn := true, memEn := true } } 0x0D
  exact ⟨h1, h2, by rw [h3], by rw [h3], by rw [h3]⟩

theorem thermalRecovery_early (hc : s.fault.coolFor < secTicks 1) : Leaves .thermalRecovery s s := by
  refine leaves_of_runIf (execThermalRecovery.eq_1 s) ?_
  rw [if_pos (by simp [hc])]
  rfl

theorem State.logFault_trust (s : State) (code action unit : Nat) : (s.logFault code action unit).trust = s.trust := by
  unfold State.logFault
  dsimp only
  rw [State.raiseIf_trust, State.recTrigger_trust]
  split <;> rfl

/-- What a shutdown leaves but the outputs: the domains reset, the reset noted, and the rails off. -/
theorem thermalTrip_gives (hp : s.powered = true) (ht : s.fault.thermal = false) (hh : 2 ≤ s.fault.hotFor) :
    Gives .thermalTrip s fun t => t.fault.thermal = true ∧ t.fault.resetKind = 3 ∧ t.fault.resetCause = 0x0D ∧ t.pins.coreEn = false
      ∧ t.pins.anaEn = false ∧ t.pins.memEn = false ∧ t.ppath = s.ppath ∧ t.trust.slots = s.trust.slots := by
  refine gives_of_runIf (execThermalTrip.eq_1 s) hp ?_
  rw [if_neg (by simp [ht]; omega), State.thermalTrip]
  dsimp only
  have hpath : (s.begin.logFault 0x0D actThermal).ppath = s.ppath := (congrArg State.ppath (State.deck_logFault s.begin 0x0D actThermal 0) :)
  have hslots : (s.begin.logFault 0x0D actThermal).trust = s.trust := State.logFault_trust ..
  generalize s.begin.logFault 0x0D actThermal = u at hpath hslots
  have hof := u.domainsReset_of
  generalize u.domainsReset = r at hof
  have hw : (saveOrder.foldl (fun (s : State) d => s.emit (.domain d false)) (r.noteReset 3 0x0D)).hush = (r.noteReset 3 0x0D).hush := by
    refine State.hush_foldl (fun w d => ?_) _ _
    rfl
  generalize saveOrder.foldl (fun (s : State) d => s.emit (.domain d false)) (r.noteReset 3 0x0D) = w at hw
  have hkind : w.fault.resetKind = 3 ∧ w.fault.resetCause = 0x0D :=
    ⟨(congrArg (fun t => (State.fault t).resetKind) hw :), (congrArg (fun t => (State.fault t).resetCause) hw :)⟩
  have hwpath : w.ppath = r.ppath := (congrArg State.ppath hw :)
  have hwtrust : w.trust = r.trust := (congrArg State.trust hw :)
  refine ⟨rfl, hkind.1, hkind.2, rfl, rfl, rfl, hwpath.trans (hof.power.2.trans hpath), ?_⟩
  have hfuse : r.trust.slots = u.trust.slots := congrArg Prod.snd hof.fuses
  exact (congrArg TrustSt.slots hwtrust).trans (hfuse.trans (congrArg TrustSt.slots hslots))

theorem thermalTrip_early (hh : s.fault.hotFor < 2) : Leaves .thermalTrip s s := by
  refine leaves_of_runIf (execThermalTrip.eq_1 s) ?_
  rw [if_pos (by simp [hh])]
  rfl

/-! ### A reset of the management core -/

theorem managementCoreReset_after (hp : s.powered = true) (hb : s.boot.stage = 2) (hr : s.boot.mgtReset = false) :
    Gives (.managementCoreReset 0) s (s.AfterCoreReset 0x32) := by
  refine gives_of_runIf (execManagementCoreReset.eq_1 0 s) hp ?_
  rw [if_neg (by decide)]
  exact (State.mgtCoreReset_gives (s := s.begin) hb hr (by decide)).1

theorem managementCoreReset_absorbed (hp : s.powered = true) (hr : s.boot.mgtReset = true) :
    Leaves (.managementCoreReset 0) s { s with fault := { s.fault with resetCause := 0x32 } } := by
  refine gives_of_runIf (execManagementCoreReset.eq_1 0 s) hp ?_
  rw [if_neg (by decide), State.mgtCoreReset, if_pos (by simp [hr])]
  rfl

/-- What the first fault of the management core leaves. -/
theorem mgtFault_after (hb : s.boot.stage = 2) (hr : s.boot.mgtReset = false) (hlog : s.fault.log = []) {code : Nat} (hc : code ≠ 3) :
    s.AfterCoreReset code (s.begin.mgtFault code)
      ∧ (∃ e, (s.begin.mgtFault code).fault.log = [e] ∧ e.code = code ∧ e.action = 2 ∧ e.tick = s.time.tick)
      ∧ (s.begin.mgtFault code).fault.counts = put s.fault.counts code (min 255 (nth s.fault.counts code 0 + 1))
      ∧ Heard 1 s (s.begin.mgtFault code) 0 (code + 512 + 65536 * min 255 (nth s.fault.counts code 0 + 1)) := by
  obtain ⟨hafter, -, hlog', hcounts, -, hheard⟩ := State.mgtFault_gives (s := s.begin) hb hr hlog hc
  exact ⟨hafter, ⟨_, hlog', rfl, rfl, rfl⟩, hcounts, hheard⟩

theorem coreFault_after {i : Instr} {code : Nat} (hi : (i, code) ∈ [(Instr.lockstepFault, 1), (.mgtWatchdogTimeout, 2), (.mgtTrap, 6), (.managementCoreReset 5, 5)])
    (ha : s.awake = true) (hb : s.boot.stage = 2) (hr : s.boot.mgtReset = false) (hf : s.fwRuns = true) (hw : 32 ≤ s.boot.sinceWdt)
    (hlog : s.fault.log = []) :
    Gives i s fun t => s.AfterCoreReset code t ∧ (∃ e, t.fault.log = [e] ∧ e.code = code ∧ e.action = 2 ∧ e.tick = s.time.tick)
      ∧ t.fault.counts = put s.fault.counts code (min 255 (nth s.fault.counts code 0 + 1))
      ∧ Heard 1 s t 0 (code + 512 + 65536 * min 255 (nth s.fault.counts code 0 + 1)) := by
  have hf' : s.begin.fwRuns = true := hf
  simp only [List.mem_cons, Prod.mk.injEq, List.not_mem_nil, or_false] at hi
  rcases hi with ⟨rfl, rfl⟩ | ⟨rfl, rfl⟩ | ⟨rfl, rfl⟩ | ⟨rfl, rfl⟩
  · refine gives_of_run (execLockstepFault.eq_1 s) ha ?_
    rw [if_neg (by simp [hb])]
    exact mgtFault_after hb hr hlog (by decide)
  · refine gives_of_run (execMgtWatchdogTimeout.eq_1 s) ha ?_
    rw [if_pos (by simp [hf', hw])]
    exact mgtFault_after hb hr hlog (by decide)
  · refine gives_of_run (execMgtTrap.eq_1 s) ha ?_
    rw [if_pos hf']
    exact mgtFault_after hb hr hlog (by decide)
  · refine gives_of_runIf (execManagementCoreReset.eq_1 5 s) (State.powered_of_awake ha) ?_
    rw [if_pos (by decide)]
    exact mgtFault_after hb hr hlog (by decide)

theorem mgtWatchdogTimeout_early (hw : s.boot.sinceWdt < 32) : Leaves .mgtWatchdogTimeout s s := by
  refine leaves_of_runIf (execMgtWatchdogTimeout.eq_1 s) ?_
  have hno : ¬ (s.begin.fwRuns && Decidable.decide (32 ≤ s.begin.boot.sinceWdt)) = true := fun h =>
    Nat.not_le.mpr hw (of_decide_eq_true (Bool.and_eq_true_iff.mp h).2)
  rw [if_neg hno]
  rfl

/-- Settles O38: a SYSTEM reset is the domains' and Fiddlehead's; a reset of the core drops the handles, and its faults are logged first. -/
theorem resets : Obligations.Resets := by
  unfold Obligations.Resets
  refine ⟨fun s hp => ⟨?_, ?_, ?_, ?_, ?_, ?_, ?_, ?_, ?_⟩, fun s hp => ⟨?_, ?_, ?_, ?_, ?_⟩⟩
  · exact fun hb => systemReset_after hp hb
  · exact fun hb hr hph ht => systemReset_absorbed hp hb hr hph ht
  · exact fun cause due ha hb hd hdue => deferredReset_system ha hb hd hdue
  · exact fun kind cause due hd hdue => deferredReset_early hd hdue
  · exact fun ha => coreBrownout_after ha
  · exact fun ht hc => thermalRecovery_after hp ht hc
  · exact fun hc => thermalRecovery_early hc
  · exact fun ht hh => thermalTrip_gives hp ht hh
  · exact fun hh => thermalTrip_early hh
  · exact fun hb hr => managementCoreReset_after hp hb hr
  · exact fun hr => managementCoreReset_absorbed hp hr
  · exact fun cause due ha hb hr hd hc hdue => deferredReset_core ha hb hr hd hc hdue
  · exact fun i code hi ha hb hr hf hw hlog => coreFault_after hi ha hb hr hf hw hlog
  · exact fun hw => mgtWatchdogTimeout_early hw

end Sys2Proof.Machine

/-! What the start of the management firmware leaves alone after it has taken its places (R546): the boot state, the pins and the power state. One
lemma for each operation that the start uses, in the order of the model's files. -/
namespace Sys2Proof.Machine

-- The lemmas are many and short: checked one after the other they need one thread's memory.
set_option Elab.async false

/-- The boot state, the pins and the power state. -/
def State.crew (s : State) : BootSt × PinSt × PwrSt := (s.boot, s.pins, s.pwr)

@[simp] theorem State.crew_eq (s : State) : (s.boot, s.pins, s.pwr) = s.crew := rfl

@[simp] theorem State.crew_mk (pending out free grade time topo mbx cfg boot fault pins rcd trust upd cable sw plan disp pcie usb net sb mem svc
    cc ppath pwr) :
    State.crew ⟨pending, out, free, grade, time, topo, mbx, cfg, boot, fault, pins, rcd, trust, upd, cable, sw, plan, disp, pcie, usb, net, sb,
      mem, svc, cc, ppath, pwr⟩ = (boot, pins, pwr) := rfl

theorem State.crew_congr {s t : State} (hb : t.boot = s.boot) (hp : t.pins = s.pins) (hw : t.pwr = s.pwr) : t.crew = s.crew :=
  Prod.ext hb (Prod.ext hp hw)

@[simp] theorem State.crew_ite (c : Prop) [Decidable c] (s t : State) : (if c then s else t).crew = if c then s.crew else t.crew :=
  apply_ite State.crew c s t

@[simp] theorem State.crew_foldl {β : Type} {f : State → β → State} (h : ∀ s b, (f s b).crew = s.crew) (l : List β) (s : State) :
    (l.foldl f s).crew = s.crew := foldl_same f State.crew h l s

/-- A fold whose accumulator holds the state. -/
theorem foldl_crew {α β : Type} (φ : α → State) {f : α → β → α} (h : ∀ a b, (φ (f a b)).crew = (φ a).crew) (l : List β) (a : α) :
    (φ (l.foldl f a)).crew = (φ a).crew := foldl_same f (fun a => (φ a).crew) h l a

@[simp] theorem crew_foldl_snd {α β : Type} {f : α × State → β → α × State} (h : ∀ a b, (f a b).2.crew = a.2.crew) (l : List β)
    (a : α × State) : (l.foldl f a).2.crew = a.2.crew := foldl_crew Prod.snd h l a

@[simp] theorem State.emit_crew (s : State) (e : Emit) : (s.emit e).crew = s.crew := rfl
@[simp] theorem State.spore1_crew (s : State) (k c f : Nat) (p : List Byte) : (s.spore1 k c f p).crew = s.crew :=
  State.crew_congr (by simp) (by simp) (by simp)
@[simp] theorem State.spore_crew (s : State) (k c : Nat) (p : List Byte) : (s.spore k c p).crew = s.crew :=
  State.crew_congr (by simp) (by simp) (by simp)
@[simp] theorem State.recTrigger_crew (s : State) (c : Nat) : (s.recTrigger c).crew = s.crew :=
  State.crew_congr (by simp) (by simp) (by simp)
@[simp] theorem State.raise_crew (s : State) (n a : Nat) : (s.raise n a).crew = s.crew := State.crew_congr (by simp) (by simp) (by simp)
@[simp] theorem State.takeForce_crew (s : State) (w : When) : (s.takeForce w).crew = s.crew := rfl
@[simp] theorem State.setChan_crew (s : State) (c : Chan) (x : ChanSt) : (s.setChan c x).crew = s.crew := by
  unfold State.setChan
  split <;> simp
@[simp] theorem State.modChan_crew (s : State) (c : Chan) (f : ChanSt → ChanSt) : (s.modChan c f).crew = s.crew := by simp [State.modChan]
@[simp] theorem State.raiseOn_crew (s : State) (c : Chan) (n : Nat) (arg : Nat) :
    (s.raiseOn c n arg).crew = s.crew := by simp [State.raiseOn]
@[simp] theorem State.raiseIf_crew (s : State) (c : Bool) (n : Nat) (arg : Nat) :
    (s.raiseIf c n arg).crew = s.crew := by simp [State.raiseIf]
@[simp] theorem State.finish_crew (s : State) (via : Via) (h : Nat) (rc : Nat) (data : List Byte) :
    (s.finish via h rc data).crew = s.crew := by
  unfold State.finish
  dsimp only
  split <;> simp
@[simp] theorem State.wordWritten_crew (s : State) (w : Nat) : (s.wordWritten w).crew = s.crew := by
  unfold State.wordWritten
  split <;> simp
@[simp] theorem State.swCount_crew (s : State) (i c : Nat) (f : SwCnt → SwCnt) : (s.swCount i c f).crew = s.crew := rfl
@[simp] theorem State.swEvent_crew (s : State) (k arg : Nat) : (s.swEvent k arg).crew = s.crew := by simp [State.swEvent]
@[simp] theorem State.poolWatch_crew (s : State) (before : Nat) : (s.poolWatch before).crew = s.crew := by simp [State.poolWatch]
@[simp] theorem State.store_crew (s : State) (q : QCell) : (s.store q).crew = s.crew := by simp [State.store]
@[simp] theorem State.setLink_crew (s : State) (p : Nat) (f : LinkSt → LinkSt) : (s.setLink p f).crew = s.crew := rfl
@[simp] theorem State.setCpx_crew (s : State) (p : Nat) (f : CpxSt → CpxSt) : (s.setCpx p f).crew = s.crew := rfl
@[simp] theorem State.setPcLink_crew (s : State) (l : Nat) (f : PciLink → PciLink) :
    (s.setPcLink l f).crew = s.crew := rfl
@[simp] theorem State.setLane_crew (s : State) (p k : Nat) (f : LaneSt → LaneSt) :
    (s.setLane p k f).crew = s.crew := rfl
@[simp] theorem State.laneEv_crew (s : State) (p n arg : Nat) : (s.laneEv p n arg).crew = s.crew := by simp [State.laneEv]
@[simp] theorem State.sendOwn_crew (s : State) (p : Nat) (c : Cell) : (s.sendOwn p c).crew = s.crew := by simp [State.sendOwn]
@[simp] theorem State.ctlSend_crew (s : State) (p typ : Nat) (fields : List Nat) (blob : List Byte) :
    (s.ctlSend p typ fields blob).crew = s.crew := by simp [State.ctlSend]
@[simp] theorem State.ctl_crew (s : State) (p typ : Nat) (fields : List Nat) : (s.ctl p typ fields).crew = s.crew := by simp [State.ctl]
@[simp] theorem State.setChn_crew (s : State) (k : Nat) (f : CcSt → CcSt) : (s.setChn k f).crew = s.crew := rfl
@[simp] theorem State.floorCheck_crew (s : State) (p : Nat) : (s.floorCheck p).crew = s.crew := by simp [State.floorCheck]
@[simp] theorem State.endRecal_crew (s : State) (p k outcome : Nat) : (s.endRecal p k outcome).crew = s.crew := by
  unfold State.endRecal
  split <;> simp
@[simp] theorem State.endTest_crew (s : State) (p k rc : Nat) (data : List Byte) : (s.endTest p k rc data).crew = s.crew := by
  unfold State.endTest
  split
  · rfl
  · rw [State.crew_foldl fun _ _ => State.finish_crew _ _ _ _ _]
    simp
@[simp] theorem State.queueRecal_crew (s : State) (p k trig : Nat) (force restore : Bool) (job : Option (Via × Nat)) :
    (s.queueRecal p k trig force restore job).crew = s.crew := by
  unfold State.queueRecal
  split <;> simp
@[simp] theorem State.retrainDue_crew (s : State) (p : Nat) : (s.retrainDue p).crew = s.crew := rfl
@[simp] theorem State.retire_crew (s : State) (p k what cause : Nat) (tell : Bool) :
    (s.retire p k what cause tell).crew = s.crew := by simp [State.retire]
@[simp] theorem State.restoreLane_crew (s : State) (p k trig : Nat) (job : Option (Via × Nat)) :
    (s.restoreLane p k trig job).crew = s.crew := by simp [State.restoreLane]
@[simp] theorem State.maskLanes_crew (s : State) (p : Nat) : (s.maskLanes p).crew = s.crew := by simp [State.maskLanes]
@[simp] theorem State.noteTested_crew (s : State) : (s.noteTested).crew = s.crew := by simp [State.noteTested]
@[simp] theorem State.writeField_crew (s : State) (layer port ty id v : Nat) :
    (s.writeField layer port ty id v).crew = s.crew := by simp [State.writeField]
@[simp] theorem State.resolveField_crew (s : State) (layer port : Nat) (sealOk : Bool) (ty id v : Nat) :
    (s.resolveField layer port sealOk ty id v).2.crew = s.crew := by
  unfold State.resolveField
  repeat' split
  all_goals simp
@[simp] theorem State.checkRecord_crew (s : State) (layer port base : Nat) (sealOk : Bool) (r : CfgRec) :
    (s.checkRecord layer port base sealOk r).2.crew = s.crew := by simp [State.checkRecord]
@[simp] theorem State.applySet_crew (s : State) (layer port : Nat) (set : List Byte) : (s.applySet layer port set).st.crew = s.crew := by
  unfold State.applySet
  refine foldl_crew (fun a : List Given × State × Nat => a.2.1) (fun a b => ?_) _ _
  simp

@[simp] theorem State.bootStore_crew (s : State) : (s.bootStore).crew = s.crew := by
  unfold State.bootStore
  split <;> simp
@[simp] theorem State.takeRole_crew (s : State) (role : Role) : (s.takeRole role).crew = s.crew := by simp [State.takeRole]
@[simp] theorem State.applyRole_crew (s : State) : (s.applyRole).crew = s.crew := by simp [State.applyRole]
@[simp] theorem State.sendFrame_crew (s : State) (e typ fc : Nat) (body : List Byte) :
    (s.sendFrame e typ fc body).crew = s.crew := by simp [State.sendFrame]
@[simp] theorem State.sendPortState_crew (s : State) (k : Nat) : (s.sendPortState k).crew = s.crew := by simp [State.sendPortState]
@[simp] theorem State.trainLink_crew (s : State) (l : Nat) : (s.trainLink l).crew = s.crew := by simp [State.trainLink]
@[simp] theorem State.drivePerst_crew (s : State) (k : Nat) (on : Bool) : (s.drivePerst k on).crew = s.crew := rfl
@[simp] theorem State.setBay_crew (s : State) (b : Nat) (f : BaySt → BaySt) : (s.setBay b f).crew = s.crew := rfl
@[simp] theorem State.pgFall_crew (s : State) (b : Nat) : (s.pgFall b).crew = s.crew := by
  unfold State.pgFall
  dsimp only
  repeat' split
  all_goals simp
@[simp] theorem State.bayTo_crew (s : State) (b : Nat) (st : BayState) : (s.bayTo b st).crew = s.crew := by simp [State.bayTo]
@[simp] theorem State.bayRest_crew (s : State) (b : Nat) : (s.bayRest b).crew = s.crew := by simp [State.bayRest]
@[simp] theorem State.bayTry_crew (s : State) (b : Nat) : (s.bayTry b).crew = s.crew := by simp [State.bayTry]
@[simp] theorem State.releasePerst_crew (s : State) : (s.releasePerst).crew = s.crew := by simp [State.releasePerst]
@[simp] theorem State.setFeed_crew (s : State) (n : Nat) (f : FeedSt → FeedSt) : (s.setFeed n f).crew = s.crew := rfl
@[simp] theorem State.feedGone_crew (s : State) (n mv : Nat) : (s.feedGone n mv).crew = s.crew := by simp [State.feedGone]
@[simp] theorem State.feedsLapse_crew (s : State) : (s.feedsLapse).crew = s.crew := by simp [State.feedsLapse]
@[simp] theorem State.budgetPd_crew (s : State) (k : Nat) : (s.budgetPd k).crew = s.crew := by simp [State.budgetPd]
@[simp] theorem State.setContract_crew (s : State) (k kind mv ma : Nat) :
    (s.setContract k kind mv ma).crew = s.crew := by simp [State.setContract]
@[simp] theorem State.showPins_crew (s : State) (k : Nat) : (s.showPins k).crew = s.crew := rfl
@[simp] theorem State.leaveRom_crew (s : State) : (s.leaveRom).crew = s.crew := by simp [State.leaveRom]
@[simp] theorem State.setInst_crew (s : State) (id : Nat) (f : InstSt → InstSt) : (s.setInst id f).crew = s.crew := rfl
@[simp] theorem State.beginInst_crew (s : State) (id core cls : Nat) (p : SvcPkg) : (s.beginInst id core cls p).crew = s.crew := by
  unfold State.beginInst
  split <;> simp
@[simp] theorem State.startInst_crew (s : State) (id : Nat) : (s.startInst id).crew = s.crew := by
  unfold State.startInst
  repeat' split
  all_goals simp
@[simp] theorem State.clusterStart_crew (s : State) : (s.clusterStart).crew = s.crew := by simp [State.clusterStart]
@[simp] theorem State.blowRollback_crew (s : State) (target : Nat) : (s.blowRollback target).crew = s.crew := by simp [State.blowRollback]
@[simp] theorem State.setFlash_crew (s : State) (g : FlashSt → FlashSt) : (s.setFlash g).crew = s.crew := rfl
@[simp] theorem State.journalNext_crew (s : State) (phase : Nat) : (s.journalNext phase).crew = s.crew := rfl
@[simp] theorem State.commitClose_crew (s : State) : (s.commitClose).crew = s.crew := rfl
@[simp] theorem State.commitEnd_crew (s : State) (d : Dir) : (s.commitEnd d).crew = s.crew := by simp [State.commitEnd]
@[simp] theorem State.journalRecovery_crew (s : State) : (s.journalRecovery).crew = s.crew := by
  unfold State.journalRecovery
  repeat' split
  all_goals simp
@[simp] theorem State.setVerdict_crew (s : State) (engine copy : Nat) (v : Option Nat) :
    (s.setVerdict engine copy v).crew = s.crew := rfl
@[simp] theorem State.startEngine_crew (s : State) (i : Nat) : (s.startEngine i).crew = s.crew := by simp [State.startEngine]
@[simp] theorem State.loadBaseline_crew (s : State) : (s.loadBaseline).crew = s.crew := rfl
/-- The firmware has started: BOOT_STAGE 2, in the state ACTIVE, with the pins as they were. -/
theorem State.firmwareReady_crew (s : State) : ∃ b w, s.firmwareReady.crew = (b, s.pins, w) ∧ b.stage = 2 ∧ w.state = 0 ∧ w.target = 0 := by
  unfold State.firmwareReady
  extract_lets hib bt pl u v w us nt x engines y old latched up pw z a b
  have hv : v.crew = u.crew := by simp [v]
  have hw : w.crew = u.crew := by simp [w, hv]
  have hx : x.crew = w.crew := rfl
  have hy : y.crew = u.crew := by simp [y, hx, hw]
  clear_value y
  have hboot : y.boot = u.boot := congrArg Prod.fst hy
  have hpins : y.pins = u.pins := congrArg (fun c => c.2.1) hy
  have hz : z.crew = (y.boot, y.pins, { pw with state := 0, goal := 0, phase := 0, target := 0, latched := false }) := rfl
  rw [hboot, hpins] at hz
  have ha : a.crew = z.crew := by simp [a]
  have hb : b.crew = z.crew := by simp [b, ha]
  refine ⟨u.boot, { pw with state := 0, goal := 0, phase := 0, target := 0, latched := false }, ?_, rfl, ?_, ?_⟩
  · rw [State.crew_ite, State.clusterStart_crew, ite_self, hb]
    exact hz
  · rfl
  · rfl

end Sys2Proof.Machine

/-! Supplies, boot and the sequencers' faults (R368, R369, R534, R535, R546, R567, R572, R573). -/
namespace Sys2Proof.Machine

variable {s : State}

/-! ### Supplies -/

theorem powerOn_gives (sel : Bool) (a : Nat) :
    (s.powerOn sel a).trust.lc = s.trust.lc ∧ (s.powerOn sel a).trust.slots = s.trust.slots
      ∧ (s.upd.commit = none → (s.powerOn sel a).trust.rollback = s.trust.rollback ∧ (s.powerOn sel a).upd.flash = s.upd.flash) := by
  have hfuse := s.lifeFuses_commitCut
  have hlc : (s.powerOn sel a).trust.lc = s.commitCut.trust.lc := rfl
  have hslots : (s.powerOn sel a).trust.slots = s.commitCut.trust.slots := rfl
  have hroll : (s.powerOn sel a).trust.rollback = s.commitCut.trust.rollback := rfl
  have hflash : (s.powerOn sel a).upd.flash = s.commitCut.upd.flash := rfl
  refine ⟨hlc.trans (congrArg Prod.fst hfuse), hslots.trans (congrArg Prod.snd hfuse), fun h => ?_⟩
  rw [hroll, hflash, State.commitCut_none h]
  exact ⟨rfl, rfl⟩

theorem powerOnReset_gives (sel : Bool) (a : Nat) :
    Gives (.powerOnReset sel a) s fun t => t.time = State.reset.time ∧ t.topo = State.reset.topo ∧ t.mbx = State.reset.mbx
      ∧ t.cfg = State.reset.cfg ∧ t.cable = State.reset.cable ∧ t.plan = State.reset.plan ∧ t.cc = State.reset.cc
      ∧ t.ppath = State.reset.ppath ∧ t.pins.phase = 1 ∧ t.pins.mbxSel = sel ∧ t.trust.lc = s.trust.lc ∧ t.trust.slots = s.trust.slots
      ∧ (s.upd.commit = none → t.trust.rollback = s.trust.rollback ∧ t.upd.flash = s.upd.flash) := by
  refine gives_of_always (execPowerOnReset.eq_1 sel a s) ?_
  obtain ⟨hlc, hslots, hflash⟩ := powerOn_gives (s := s.begin) sel a
  exact ⟨rfl, rfl, rfl, rfl, rfl, rfl, rfl, rfl, rfl, rfl, hlc, hslots, hflash⟩

theorem porstFall_gives : Gives .porstFall s fun t => t.pins.phase = 0 ∧ t.pins.coreEn = false ∧ t.pins.anaEn = false ∧ t.pins.memEn = false
      ∧ t.pins.refReqN = true ∧ t.trust.slots = s.trust.slots ∧ t.powered = false := by
  refine gives_of_always (execPorstFall.eq_1 s) ?_
  obtain ⟨-, hslots, -⟩ := powerOn_gives (s := s.begin) s.begin.pins.mbxSel s.begin.pins.i3cAddr
  exact ⟨rfl, rfl, rfl, rfl, rfl, hslots, rfl⟩

theorem railDeadlineMiss_leaves (hp : s.pins.phase = 1) : Leaves .railDeadlineMiss s { s with pins := { s.pins with
      coreEn := false, anaEn := false, memEn := false, refReqN := true, attempts := s.pins.attempts + 1
      phase := if 3 ≤ s.pins.attempts + 1 then 4 else 3 } } := by
  refine gives_of_always (execRailDeadlineMiss.eq_1 s) ?_
  rw [if_neg (by simp [hp])]
  rfl

theorem railRestart_leaves (hp : s.pins.phase = 3) : Leaves .railRestart s { s with pins := { s.pins with
      coreEn := true, anaEn := true, memEn := true, refReqN := false, coreVid := 50, phase := 1 } } := by
  refine gives_of_always (execRailRestart.eq_1 s) ?_
  rw [if_neg (by simp [hp])]
  rfl

/-! ### The firmware -/

theorem mgmtFirmwareReady_again (hp : s.powered = true) (ht : s.fault.thermal = false) (ha : s.asleep = false) (hr : s.boot.mgtReset = true) :
    Leaves .mgmtFirmwareReady s { s with
      boot := { s.boot with stage := 2, mgtReset := false }, plan := { s.plan with silent := 0, autonomy := 0 }
      fault := { s.fault with planHold := false } } := by
  refine gives_of_runIf (execMgmtFirmwareReady.eq_1 s) hp ?_
  have ha' : s.begin.asleep = false := ha
  rw [if_neg (by simp [ht, ha']), if_pos (by simp [hr])]
  rfl

theorem mgmtFirmwareReady_first (hp : s.powered = true) (ht : s.fault.thermal = false) (ha : s.asleep = false) (hr : s.boot.mgtReset = false)
    (hb : s.boot.stage = 1) : Gives .mgmtFirmwareReady s fun t => t.boot.stage = 2 ∧ t.pwr.state = 0 ∧ t.pwr.target = 0 ∧ t.pins.phase = 2 := by
  refine gives_of_runIf (execMgmtFirmwareReady.eq_1 s) hp ?_
  have ha' : s.begin.asleep = false := ha
  rw [if_neg (by simp [ht, ha']), if_neg (by simp [hr])]
  generalize hu : ({ s.begin with pins := { s.begin.pins with phase := 2 } } : State) = u
  have hub : u.boot.stage = 1 := by rw [← hu]; exact hb
  have hup : u.pins.phase = 2 := by rw [← hu]
  have hbooted : (if u.boot.stage == 0 then u.fiddlehead false else u) = u := if_neg (by simp [hub])
  dsimp only
  rw [hbooted, if_pos (by simp [hub])]
  obtain ⟨b, w, hcrew, hstage, hstate, htarget⟩ := u.firmwareReady_crew
  have hboot : u.firmwareReady.boot = b := congrArg Prod.fst hcrew
  have hpins : u.firmwareReady.pins = u.pins := congrArg (fun c => c.2.1) hcrew
  have hpwr : u.firmwareReady.pwr = w := congrArg (fun c => c.2.2) hcrew
  exact ⟨by rw [hboot, hstage], by rw [hpwr, hstate], by rw [hpwr, htarget], by rw [hpins, hup]⟩

/-! ### LPDDR training -/

theorem State.fwRuns_raise (s : State) (n a : Nat) : (s.raise n a).fwRuns = s.fwRuns := by simp [State.fwRuns]

theorem lpddrTrainingDone_ok (ha : s.awake = true) (hl : s.mem.lpddr = .training) (hf : s.fwRuns = false) (rate gib mask : Nat) :
    Gives (.lpddrTrainingDone true rate gib mask) s fun t => t.mem.lpddr = .active ∧ t.mem.trained = true ∧ t.mem.rate = s.trainedRate rate
      ∧ Heard 1 s t 128 (s.trainedRate rate % 16) := by
  refine gives_of_run (execLpddrTrainingDone.eq_1 true rate gib mask s) ha ?_
  have hrate : s.begin.trainedRate rate = s.trainedRate rate := by rw [State.trainedRate, State.cv_begin, State.trainedRate]
  rw [if_neg (by simp [hl]), if_pos rfl, hrate]
  extract_lets r old me u v
  have hmem : u.mem.lpddr = .active ∧ u.mem.trained = true ∧ u.mem.rate = r := ⟨rfl, rfl, rfl⟩
  have hfw : u.fwRuns = false := hf
  have htime : u.time = s.time := rfl
  have hmbx : u.mbx = s.mbx := rfl
  have hsame : ∀ c : Bool, (if c then u else u.loadBaseline).mem = u.mem ∧ (if c then u else u.loadBaseline).fwRuns = u.fwRuns
      ∧ (if c then u else u.loadBaseline).time = u.time ∧ (if c then u else u.loadBaseline).mbx = u.mbx := fun c => by
    cases c
    · exact ⟨rfl, rfl, rfl, rfl⟩
    · exact ⟨rfl, rfl, rfl, rfl⟩
  obtain ⟨hwm, hwb, hwt, hwx⟩ := hsame (gib == old)
  clear_value u
  have hidle : v.mayStartWoeri = false := by
    have hv : v.fwRuns = false := (State.fwRuns_raise ..).trans (hwb.trans hfw)
    simp [State.mayStartWoeri, hv]
  rw [hidle, if_neg (by decide)]
  have hvm : v.mem = u.mem := (State.raise_mem ..).trans hwm
  rw [hvm]
  exact ⟨hmem.1, hmem.2.1, hmem.2.2, heard_raise_mbx (by rw [hwt, htime]) (by rw [hwt, htime]) (hwx.trans hmbx)⟩

theorem lpddrTrainingDone_failed (ha : s.awake = true) (hl : s.mem.lpddr = .training) (rate gib mask : Nat) :
    Gives (.lpddrTrainingDone false rate gib mask) s fun t =>
      t.hush = ({ s with mem := { s.mem with lpddr := .failed, trained := false } } : State).hush ∧ Heard 1 s t 129 (mask % 16) := by
  refine gives_of_run (execLpddrTrainingDone.eq_1 false rate gib mask s) ha ?_
  rw [if_neg (by simp [hl]), if_neg (by decide)]
  exact ⟨State.hush_raise .., heard_raise_mbx rfl rfl rfl⟩

/-! ### The sequencers -/

/-- The log entry of a fault of a unit, and what the fault leaves beside it. -/
theorem State.logFault_entry (s : State) {code action : Nat} (unit : Nat) (ha : action ≤ 2) :
    (s.logFault code action unit).time = s.time
      ∧ (s.logFault code action unit).fault = { s.fault with
          counts := put s.fault.counts code (min 255 (nth s.fault.counts code 0 + 1))
          log := (s.faultEntry code action unit :: s.fault.log).take 16 }
      ∧ Heard 1 s (s.logFault code action unit) 0 (code + 256 * action + 65536 * min 255 (nth s.fault.counts code 0 + 1)) := by
  unfold State.logFault
  simp only [decide_eq_true ha, if_true, State.raiseIf]
  have hd : s.draw = (s.draw.1, s.draw.2) := rfl
  rw [hd]
  dsimp only
  refine ⟨?_, ?_, heard_raise_mbx ?_ ?_ ?_⟩
  all_goals simp only [State.raise_time, State.raise_fault, State.recTrigger_time, State.recTrigger_fault, State.recTrigger_mbx]
  all_goals split <;> rfl

/-- An entry of this instant counts among the recent ones. -/
theorem State.recentFaults_cons (s : State) (code ticks : Nat) {e : FaultEntry} {l : List FaultEntry} (hl : s.fault.log = (e :: l).take 16)
    (hlen : l.length < 16) (hc : e.code = code) (ht : e.tick = s.time.tick) :
    s.recentFaults code ticks (fun _ => true)
      = (l.filter fun e => (code == 0 || e.code == code) && true && Decidable.decide (tickDiff s.time.tick e.tick ≤ ticks)).length + 1 := by
  have hnow : tickDiff s.time.tick s.time.tick = 0 := by simp [tickDiff]
  rw [State.recentFaults, hl, List.take_of_length_le (by simp; omega)]
  simp [hc, ht, hnow]

theorem pwrseqFault_first (hp : s.pwrLive = true) (hlog : s.fault.log = []) :
    Gives .pwrseqFault s fun t => t.fault.romMode = s.fault.romMode
      ∧ t.fault.counts = put s.fault.counts 0x0A (min 255 (nth s.fault.counts 0x0A 0 + 1))
      ∧ Heard 1 s t 0 (0x0A + 256 + 65536 * min 255 (nth s.fault.counts 0x0A 0 + 1)) := by
  refine gives_of_runIf (execPwrseqFault.eq_1 s) hp ?_
  obtain ⟨htime, hfault, hheard⟩ := s.begin.logFault_entry (code := 0x0A) (action := actEngine) 0 (by decide)
  dsimp only
  generalize s.begin.logFault 0x0A actEngine = u at htime hfault hheard
  have hone : u.recentFaults 0x0A 32000 (fun _ => true) = 1 := by
    rw [State.recentFaults_cons u 0x0A 32000 (l := []) (e := s.begin.faultEntry 0x0A actEngine 0) (by rw [hfault]; simp [hlog]) (by simp) rfl
      (by rw [htime]; rfl)]
    rfl
  rw [hone, if_neg (by decide)]
  exact ⟨by rw [hfault]; rfl, by rw [hfault]; rfl, hheard⟩

theorem pwrseqFault_third (hp : s.pwrLive = true) (hlen : s.fault.log.length < 16) (hn : 2 ≤ s.recentFaults 0x0A 32000 (fun _ => true)) :
    Gives .pwrseqFault s fun t => t.fault.romMode = true := by
  refine gives_of_runIf (execPwrseqFault.eq_1 s) hp ?_
  obtain ⟨htime, hfault, -⟩ := s.begin.logFault_entry (code := 0x0A) (action := actEngine) 0 (by decide)
  dsimp only
  generalize s.begin.logFault 0x0A actEngine = u at htime hfault
  have hthree : 3 ≤ u.recentFaults 0x0A 32000 (fun _ => true) := by
    rw [State.recentFaults_cons u 0x0A 32000 (l := s.fault.log) (e := s.begin.faultEntry 0x0A actEngine 0) (by rw [hfault]; rfl) hlen rfl
      (by rw [htime]; rfl), htime]
    exact Nat.succ_le_succ hn
  rw [if_pos hthree]
  have hh := State.hull_enterRom ({ u with fault := { u.fault with romMode := true } } : State)
  have hrom : ({ u with fault := { u.fault with romMode := true } } : State).fault.romMode = true := rfl
  generalize ({ u with fault := { u.fault with romMode := true } } : State) = w at hh hrom
  generalize w.enterRom = v at hh
  exact ((congrArg (fun w => (State.fault w).romMode) hh :)).trans hrom

/-! ### A step of a lane's training that fails -/

/-- The faults are as they were, and no queued event is gone. -/
structure State.Stays (s t : State) : Prop where
  fault : t.fault = s.fault
  holds : s.Holds t

namespace State.Stays

variable {t : State}

theorem refl (s : State) : s.Stays s := ⟨rfl, .refl s⟩

theorem trans {u : State} (h : s.Stays t) (h' : t.Stays u) : s.Stays u := ⟨h'.fault.trans h.fault, h.holds.trans h'.holds⟩

theorem of_rides (h : s.Rides t) : s.Stays t := ⟨h.fault, h.holds⟩

theorem setLink (h : s.Stays t) (p : Nat) (f : LinkSt → LinkSt) : s.Stays (t.setLink p f) := h.trans ⟨rfl, .of_mbx rfl⟩

theorem setCpx (h : s.Stays t) (p : Nat) (f : CpxSt → CpxSt) : s.Stays (t.setCpx p f) := h.trans ⟨rfl, .of_mbx rfl⟩

theorem setLane (h : s.Stays t) (p k : Nat) (f : LaneSt → LaneSt) : s.Stays (t.setLane p k f) := h.trans ⟨rfl, .of_mbx rfl⟩

theorem roleEnds (h : s.Stays t) (p : Nat) : s.Stays (t.roleEnds p) := h.trans ⟨rfl, .of_mbx rfl⟩

theorem ite {c : Prop} [Decidable c] {u : State} (h : s.Stays t) (h' : s.Stays u) : s.Stays (if c then t else u) := by
  split_ifs <;> assumption

theorem foldl {β : Type} {f : State → β → State} (h : s.Stays t) (l : List β) (hf : ∀ u b, s.Stays u → s.Stays (f u b)) :
    s.Stays (l.foldl f t) := by
  induction l generalizing t with
  | nil => exact h
  | cons b l ih => exact ih (hf _ _ h)

theorem raise (h : s.Stays t) (n a : Nat) : s.Stays (t.raise n a) := h.trans ⟨State.raise_fault .., .raise ..⟩

theorem laneEv (h : s.Stays t) (p n a : Nat) : s.Stays (t.laneEv p n a) := h.raise ..

theorem trainFail (h : s.Stays t) (p k step cause : Nat) : s.Stays (t.trainFail p k step cause) := (h.setLane ..).laneEv ..

theorem retire (h : s.Stays t) (p k what cause : Nat) (tell : Bool) : s.Stays (t.retire p k what cause tell) :=
  h.trans (of_rides (State.Rides.retire (.refl t)))

theorem lanesOff (h : s.Stays t) (p : Nat) : s.Stays (t.lanesOff p) := h.trans (of_rides (State.Rides.lanesOff (.refl t)))

theorem floorCheck (h : s.Stays t) (p : Nat) : s.Stays (t.floorCheck p) := h.trans (of_rides (State.Rides.floorCheck (.refl t)))

theorem endRecal (h : s.Stays t) (p k o : Nat) : s.Stays (t.endRecal p k o) := h.trans (of_rides (State.Rides.endRecal (.refl t)))

theorem ctl (h : s.Stays t) (p typ : Nat) (f : List Nat) : s.Stays (t.ctl p typ f) := h.trans (of_rides (State.Rides.ctl (.refl t)))

theorem finishRc (h : s.Stays t) (via : Via) (n : Nat) (rc : Rc) : s.Stays (t.finishRc via n rc) :=
  h.trans (of_rides (State.Rides.finishRc (.refl t)))

theorem resetDone (h : s.Stays t) (p : Nat) (rc : Rc) : s.Stays (t.resetDone p rc) := by
  unfold State.resetDone
  split
  · exact (h.setLink ..).finishRc ..
  · exact h

theorem waitRestart (h : s.Stays t) (p : Nat) : s.Stays (t.waitRestart p) := (((h.lanesOff p).setCpx ..).setLink ..).roleEnds p

theorem step2Fail (h : s.Stays t) (p : Nat) : s.Stays (t.step2Fail p) := by
  unfold State.step2Fail
  split
  · exact (((((h.trainFail ..).lanesOff p).setLink ..).setCpx ..).roleEnds p).resetDone p .hwFault
  · exact (h.setCpx ..).waitRestart p

theorem failDirs (h : s.Stays t) (p k : Nat) (r : LaneRes) (step cause : Nat) : s.Stays (t.failDirs p k r step cause) := by
  unfold State.failDirs
  dsimp only
  split
  · exact (h.trainFail ..).retire ..
  · exact h

theorem handover (h : s.Stays t) (p : Nat) : s.Stays (t.handover p) := by
  unfold State.handover
  dsimp only
  refine ((h.foldl _ fun u k hu => ?_).setCpx ..).floorCheck p
  split
  · exact (hu.setLane ..).laneEv ..
  · exact hu

theorem settleEq (h : s.Stays t) (p k idx : Nat) (e : EqRes) : s.Stays (t.settleEq p k idx e) := h.setLane ..

theorem settled (h : s.Stays t) (p k idx : Nat) (r : LaneRes) : s.Stays (t.settled p k idx r) := by
  unfold State.settled
  split
  · exact h.settleEq ..
  · exact h

theorem settleStep (h : s.Stays t) (p k dir : Nat) (r : Recal) (res : LaneRes) : s.Stays (t.settleStep p k dir r res) := by
  unfold State.settleStep State.settleDir
  dsimp only
  split
  · split
    · split
      · exact (h.settleEq ..).settleEq ..
      · exact h.settleEq ..
    · exact h.settleEq ..
  · split
    · split
      · exact h.settleEq ..
      · exact h
    · exact h

theorem recalPassed (h : s.Stays t) (p k : Nat) (r : Recal) : s.Stays (t.recalPassed p k r) := by
  unfold State.recalPassed
  extract_lets l one use rate fell keepsF ready temp u v w x
  have hu : s.Stays u := h.setLane ..
  have hv : s.Stays v := .ite (hu.laneEv ..) hu
  have hw : s.Stays w := hv.endRecal ..
  have hx : s.Stays x := .ite (hw.laneEv ..) (.ite (hw.laneEv ..) hw)
  exact .ite (hx.ctl ..) hx

theorem recalOn (h : s.Stays t) (p k : Nat) : s.Stays (t.recalOn p k) := by
  unfold State.recalOn
  split
  · exact h
  · exact .ite (h.setLane ..) (h.recalPassed ..)

theorem recalFails (h : s.Stays t) (p k : Nat) (r : Recal) (f v : Bool) (why : Nat) : s.Stays (t.recalFails p k r f v why) := by
  unfold State.recalFails
  dsimp only
  split
  · exact h.setLane ..
  · split
    · exact ((((((h.setLane ..).endRecal ..).setLane ..).laneEv ..).ctl ..)).floorCheck p
    · exact (h.setLane ..).recalOn ..

theorem recalStep (h : s.Stays t) (p k : Nat) (res : LaneRes) : s.Stays (t.recalStep p k res) := by
  unfold State.recalStep
  extract_lets l u
  have hu : s.Stays u := h.setLane ..
  split
  · exact h
  · refine .ite h ?_
    extract_lets r v w
    have hv : s.Stays v := .ite (hu.settleStep ..) hu
    have hw : s.Stays w := hv.setLane ..
    clear_value v w
    dsimp only
    exact .ite (.ite (hw.recalFails ..) (hw.recalOn ..)) (.ite (hv.recalFails ..) (hv.recalOn ..))

end State.Stays

/-! ### A retired lane -/

/-- A change of one lane leaves the others. -/
theorem State.lane_setLane_other (s : State) (p : Nat) {k j : Nat} (h : j ≠ k) (f : LaneSt → LaneSt) : (s.setLane p k f).lane p j = s.lane p j := by
  have hl : ∀ c : CpxSt, nth (c.lanes.modify k f) j LaneSt.init = nth c.lanes j .init := fun c => nth_modify_ne f c.lanes _ _ _ (Ne.symm h)
  exact s.cpx_setCpx_congr (fun c => nth c.lanes j LaneSt.init) _ hl p p

theorem nth_modify_or {α : Type} (f : α → α) (l : List α) (i : Nat) (d : α) : nth (l.modify i f) i d = f (nth l i d) ∨ nth (l.modify i f) i d = d := by
  by_cases h : i < l.length
  · exact .inl (nth_modify_same f l i d h)
  · exact .inr (by simp [nth, List.getElem?_eq_none (Nat.le_of_not_lt h)])

/-- A lane after a change of it: changed, or none. -/
theorem State.lane_setLane_or (s : State) (p k : Nat) (f : LaneSt → LaneSt) :
    (s.setLane p k f).lane p k = f (s.lane p k) ∨ (s.setLane p k f).lane p k = .init := by
  have hlane : ∀ u : State, u.lane p k = nth (u.cpx p).lanes k .init := fun _ => rfl
  rcases nth_modify_or (fun c : CpxSt => { c with lanes := c.lanes.modify k f }) s.cable.cpx p .init with h | h
  · rw [hlane, show (s.setLane p k f).cpx p = _ from h]
    exact nth_modify_or f (s.cpx p).lanes k .init
  · rw [hlane, show (s.setLane p k f).cpx p = _ from h]
    exact .inr (CpxSt.init_lane k)

theorem State.lane_finishAll (l : List (Via × Nat)) (s : State) (rc : Nat) (data : List Byte) (p j : Nat) :
    (l.foldl (fun s j => s.finish j.1 j.2 rc data) s).lane p j = s.lane p j := by
  induction l generalizing s with
  | nil => rfl
  | cons x l ih =>
    rw [List.foldl_cons, ih, State.lane, State.cpx, State.finish_cable]
    rfl

theorem State.endRecal_lane_state (s : State) (p k o j : Nat) : ((s.endRecal p k o).lane p j).state = (s.lane p j).state := by
  unfold State.endRecal
  split
  · rfl
  · extract_lets u l data
    rw [State.laneEv, State.raise_lane, State.lane_finishAll]
    refine s.cpx_setCpx_congr (fun c => (nth c.lanes j LaneSt.init).state) _ (fun c => ?_) p p
    exact nth_modify_congr LaneSt.state _ (by intro _; rfl) c.lanes k j .init

theorem State.endTest_lane_state (s : State) (p k rc j : Nat) (data : List Byte) :
    ((s.endTest p k rc data).lane p j).state = (s.lane p j).state := by
  unfold State.endTest
  split
  · rfl
  · dsimp only
    rw [State.lane_finishAll]
    exact s.lane_setLane_congr LaneSt.state _ (by intro _; rfl) p k p j

/-- Below Link Up a lane that is retired trains no longer, and no other lane begins to. -/
theorem State.retire_train {u : State} {p k j c : Nat} (hup : (u.link p).state < 2)
    (h : ((u.retire p k 0 c false).lane p j).state = .train) : (u.lane p j).state = .train ∧ j ≠ k := by
  unfold State.retire at h
  dsimp only at h
  split at h
  · rename_i hret
    have hst : (u.lane p j).state = .train := (u.lane_setLane_congr LaneSt.state (fun l => { l with cause := c }) (by intro _; rfl) p k p j).symm.trans h
    refine ⟨hst, fun hjk => ?_⟩
    rw [beq_iff_eq, ← hjk, hst] at hret
    cases hret
  · rename_i hret
    generalize hv : (if (u.lane p k).recal.isSome then u.endRecal p k 4 else u) = v at h
    generalize hw : (if (u.lane p k).test.isSome then v.endTest p k Rc.badState.code [] else v) = w at h
    have hv' : (v.lane p j).state = (u.lane p j).state := by
      rw [← hv]
      split
      · exact u.endRecal_lane_state ..
      · rfl
    have hw' : (w.lane p j).state = (v.lane p j).state := by
      rw [← hw]
      split
      · exact v.endTest_lane_state ..
      · rfl
    have hride : u.Rides w := by
      rw [← hw, ← hv]
      exact .endTestIf (.endRecalIf (.refl u))
    have hlow : ∀ (x : State), ((x.link p).state = (u.link p).state) → ¬ 2 ≤ (x.link p).state := fun x hx => by rw [hx]; omega
    simp only [Bool.false_and, Bool.false_eq_true, if_false] at h
    rw [if_neg (hlow _ (by rw [State.laneEv, State.raise_link]; exact hride.setLane.link_state p)), State.laneEv, State.raise_lane] at h
    have hjk : j ≠ k := fun hjk => by
      subst hjk
      rcases w.lane_setLane_or p j (fun l => if useLeft (u.lane p j).use 0 == 3 then { l.gone u.time.tick with cause := c }
        else { l with use := useLeft (u.lane p j).use 0, cause := c, turnHold := false }) with hg | hg
      · rw [hg, if_pos (by simp [useLeft])] at h
        cases h
      · rw [hg] at h
        cases h
    rw [State.lane_setLane_other _ _ hjk, hw', hv'] at h
    exact ⟨h, hjk⟩

/-- A lane whose training has failed for good. -/
def State.lostLane (s : State) (p step cause k : Nat) : State := (s.trainFail p k step cause).retire p k 0 cause false

theorem State.Stays.lostLane {t : State} (h : s.Stays t) (p step cause k : Nat) : s.Stays (t.lostLane p step cause k) :=
  (h.trainFail ..).retire ..

theorem State.lostLane_low {u : State} {p : Nat} (hup : (u.link p).state < 2) (step cause k : Nat) :
    ((u.lostLane p step cause k).link p).state < 2 := by
  have h : u.Rides (u.lostLane p step cause k) := .retire (.laneEv (.setLane (.refl u)))
  rw [h.link_state]
  exact hup

/-- Below Link Up no lane trains any more that has failed for good. -/
theorem State.lostLane_train {u : State} {p step cause k j : Nat} (hup : (u.link p).state < 2)
    (h : ((u.lostLane p step cause k).lane p j).state = .train) : (u.lane p j).state = .train ∧ j ≠ k := by
  have hlow : ((u.trainFail p k step cause).link p).state < 2 := by
    have hride : u.Rides (u.trainFail p k step cause) := .laneEv (.setLane (.refl u))
    rw [hride.link_state]
    exact hup
  obtain ⟨hst, hne⟩ := State.retire_train hlow h
  rw [State.trainFail, State.laneEv, State.raise_lane, u.lane_setLane_congr LaneSt.state _ (by intro _; rfl)] at hst
  exact ⟨hst, hne⟩

theorem State.lostLanes_train (ks : List Nat) {u : State} {p step cause j : Nat} (hup : (u.link p).state < 2)
    (h : ((ks.foldl (fun s k => s.lostLane p step cause k) u).lane p j).state = .train) : (u.lane p j).state = .train ∧ j ∉ ks := by
  induction ks generalizing u with
  | nil => exact ⟨h, List.not_mem_nil⟩
  | cons k ks ih =>
    obtain ⟨hst, hks⟩ := ih (State.lostLane_low hup ..) h
    obtain ⟨hst', hk⟩ := State.lostLane_train hup hst
    exact ⟨hst', by simp [hk, hks]⟩

/-! ### A step in which every lane fails -/

/-- The results of a step in which every lane fails. -/
def allFailed : List LaneRes := List.replicate 4 failedRes

theorem inTraining_failed {p : Nat} {x : Nat × LaneRes} (h : x ∈ s.inTraining p allFailed) : x.2 = failedRes :=
  List.eq_of_mem_replicate (State.mem_inTraining h).1

/-- Every lane that trains is among them. -/
theorem mem_inTraining_failed {p k : Nat} (hk : k < 4) (h : (s.lane p k).state = .train) : k ∈ (s.inTraining p allFailed).map (·.1) := by
  refine List.mem_map.mpr ⟨(k, failedRes), List.mem_filterMap.mpr ⟨(failedRes, k), ?_, ?_⟩, rfl⟩
  · rw [List.mem_zipIdx_iff_getElem?]
    show (List.replicate 4 failedRes)[k]? = some failedRes
    rw [List.getElem?_replicate, if_pos hk]
  · simp [hk, h]

theorem foldl_congr_mem {α β : Type} {f g : α → β → α} (l : List β) (h : ∀ b ∈ l, ∀ a, f a b = g a b) (a : α) : l.foldl f a = l.foldl g a := by
  induction l generalizing a with
  | nil => rfl
  | cons b l ih =>
    rw [List.foldl_cons, List.foldl_cons, h b List.mem_cons_self a]
    exact ih (fun b' hb => h b' (List.mem_cons_of_mem _ hb)) _

namespace State.Stays

variable {t : State}

theorem stepDetect (h : s.Stays t) (p : Nat) : s.Stays (t.stepDetect p allFailed) := by
  unfold State.stepDetect
  refine foldl (h.setCpx ..) _ fun u x hu => .ite hu (hu.lostLane ..)

theorem stepTLock (h : s.Stays t) (p : Nat) (peer : PeerLane) : s.Stays (t.stepTLock p allFailed peer) := by
  unfold State.stepTLock
  extract_lets own u v ls locked
  have hv : s.Stays v := foldl (h.setCpx ..) _ fun u x hu => .ite hu (hu.retire ..)
  have hno : locked [0, 1] = false := by
    refine Bool.eq_false_iff.mpr fun hl => ?_
    obtain ⟨x, hx, hb⟩ := List.any_eq_true.mp hl
    rw [inTraining_failed hx] at hb
    simp [failedRes] at hb
  rw [hno, if_pos (by simp)]
  exact hv.step2Fail p

theorem stepLinkT (h : s.Stays t) (p : Nat) : s.Stays (t.stepLinkT p) := .ite (h.setCpx ..) h

theorem stepEqF (h : s.Stays t) (p : Nat) (res : List LaneRes) : s.Stays (t.stepEqF p res) := by
  unfold State.stepEqF
  exact setCpx (foldl h _ fun u x hu => .ite ((hu.settled ..).setLane ..) (((hu.settled ..).setLane ..).trainFail ..)) _ _

theorem stepEqH (h : s.Stays t) (p : Nat) (res : List LaneRes) : s.Stays (t.stepEqH p res) := by
  unfold State.stepEqH
  exact setCpx (foldl h _ fun u x hu => (((hu.settled ..).setLane ..).failDirs ..).setLane ..) _ _

theorem stepVerify (h : s.Stays t) (p : Nat) (res : List LaneRes) : s.Stays (t.stepVerify p res) := by
  unfold State.stepVerify
  exact setCpx (foldl h _ fun u x hu => .ite (.ite hu ((hu.trainFail ..).setLane ..)) (hu.failDirs ..)) _ _

theorem stepTurnCal (h : s.Stays t) (p : Nat) (res : List LaneRes) : s.Stays (t.stepTurnCal p res) := by
  unfold State.stepTurnCal
  exact handover (foldl h _ fun u x hu => .ite (((hu.setLane ..).trainFail ..).retire ..) (hu.setLane ..)) _

/-- With no lane left the port starts over. -/
theorem stepGen1 (h : s.Stays t) {p : Nat} (hup : (t.link p).state < 2) (step : Nat) : s.Stays (t.stepGen1 p allFailed step) := by
  unfold State.stepGen1
  extract_lets u left
  have hu : u = ((t.inTraining p allFailed).map (·.1)).foldl
      (fun s k => s.lostLane p step (if step == 14 then causeEq else causeVerify) k) t := by
    rw [List.foldl_map]
    refine foldl_congr_mem _ (fun x hx a => ?_) t
    have hr := inTraining_failed hx
    obtain ⟨k, r⟩ := x
    subst hr
    have hset : (if step == 14 then a.settled p k 2 failedRes else a) = a := by split <;> rfl
    dsimp only
    rw [hset, if_neg (by simp [failedRes])]
    rfl
  have hs : s.Stays u := by
    rw [hu]
    exact foldl h _ fun u k hu => hu.lostLane ..
  have hnone : left [0, 1] = false := by
    refine Bool.eq_false_iff.mpr fun hl => ?_
    obtain ⟨k, hk, hb⟩ := List.any_eq_true.mp hl
    have hst : (u.lane p k).state = .train := beq_iff_eq.mp hb
    rw [hu] at hst
    obtain ⟨hst', hno⟩ := State.lostLanes_train _ hup hst
    have hk4 : k < 4 := by
      simp only [List.mem_cons, List.not_mem_nil, or_false] at hk
      omega
    exact hno (mem_inTraining_failed hk4 hst')
  rw [hnone, if_pos (by simp)]
  exact hs.step2Fail p

theorem trainStep (h : s.Stays t) (p : Nat) (peer : PeerLane) : s.Stays (t.trainStep p allFailed peer) := by
  unfold State.trainStep
  split
  · exact h
  · rename_i hup
    have hlow : (t.link p).state < 2 := by
      by_contra hc
      exact hup (Bool.or_eq_true_iff.mpr (.inr (decide_eq_true (Nat.not_lt.mp hc))))
    split
    · exact h.stepDetect p
    · exact h.stepTLock p peer
    · exact h.stepLinkT p
    · exact h.stepEqF p _
    · exact h.stepEqH p _
    · exact h.stepVerify p _
    · exact h.stepTurnCal p _
    · exact h.stepGen1 hlow 14
    · exact h.stepGen1 hlow 15
    · exact h

theorem phyStepFails (h : s.Stays t) (p : Nat) : s.Stays (t.phyStepFails p) := by
  unfold State.phyStepFails
  exact foldl (h.trainStep ..) _ fun u k hu => .ite (hu.recalStep ..) hu

end State.Stays

theorem physeqFault_gives {p : Nat} (hp : p ≤ 1) (ha : s.awake = true) :
    Gives (.physeqFault p) s fun t => t.fault.counts = put s.fault.counts 0x0B (min 255 (nth s.fault.counts 0x0B 0 + 1))
      ∧ Heard 1 s t 0 (0x0B + 256 + 65536 * min 255 (nth s.fault.counts 0x0B 0 + 1)) := by
  refine gives_of_run (execPhyseqFault.eq_1 p s) ha ?_
  obtain ⟨-, hfault, hheard⟩ := s.begin.logFault_entry (code := 0x0B) (action := actEngine) p (by decide)
  rw [if_neg (by omega)]
  generalize s.begin.logFault 0x0B actEngine p = u at hfault hheard
  have hu := (State.Stays.refl u).phyStepFails p
  have key : ∀ t : State, t.fault.counts = u.fault.counts → u.Holds t →
      t.fault.counts = put s.fault.counts 0x0B (min 255 (nth s.fault.counts 0x0B 0 + 1))
        ∧ Heard 1 s t 0 (0x0B + 256 + 65536 * min 255 (nth s.fault.counts 0x0B 0 + 1)) := fun t hc hh =>
    ⟨by rw [hc, hfault]; rfl, hheard.holds hh⟩
  dsimp only
  generalize u.phyStepFails p = v at hu
  generalize hw : ({ v with fault := { v.fault with phyStopped := put v.fault.phyStopped p true } } : State) = w
  have hwc : w.fault.counts = u.fault.counts := by
    rw [← hw, ← hu.fault]
  have hwh : u.Holds w := by
    rw [← hw]
    exact hu.holds.trans (.of_mbx rfl)
  split
  · exact key v (by rw [hu.fault]) hu.holds
  · split
    · exact key w hwc hwh
    · have hoff := (((((State.Stays.refl w).lanesOff p).setCpx p fun c => { c with step := 0 }).setLink p fun l => { l.down with state := 0 })).roleEnds p
      exact key _ (by rw [hoff.fault, hwc]) (hwh.trans hoff.holds)

/-- Settles O39: power comes and goes with the fuses kept; the firmware's start and the faults of the sequencers keep what their frames say. -/
theorem suppliesAndBoot : Obligations.SuppliesAndBoot := by
  unfold Obligations.SuppliesAndBoot
  refine fun s => ⟨?_, ?_, ?_, ?_, ?_, ?_, ?_, ?_, ?_, ?_, ?_, ?_⟩
  · exact fun sel a => powerOnReset_gives sel a
  · exact porstFall_gives
  · intro hp hn
    have h := railDeadlineMiss_leaves hp
    rwa [hn] at h
  · intro hp hn
    have h := railDeadlineMiss_leaves hp
    rwa [if_neg (by omega)] at h
  · exact fun hp => railRestart_leaves hp
  · exact fun hp ht ha hr => mgmtFirmwareReady_again hp ht ha hr
  · exact fun hp ht ha hr hb => mgmtFirmwareReady_first hp ht ha hr hb
  · exact fun rate gib mask ha hl hf => lpddrTrainingDone_ok ha hl hf rate gib mask
  · exact fun rate gib mask ha hl => lpddrTrainingDone_failed ha hl rate gib mask
  · exact fun hp hlog => pwrseqFault_first hp hlog
  · exact fun hp hlen hn => pwrseqFault_third hp hlen hn
  · exact fun p hp ha => physeqFault_gives hp ha

end Sys2Proof.Machine

/-! What the quiescing of the hub and its undoing leave of the power state (R461 to R464), and the power state commands (Tables 18.9 and 18.10). -/
namespace Sys2Proof.Machine

variable {s t : State}

/-! ### The power state -/

theorem State.Rides.pwr (h : s.Rides t) : t.pwr = s.pwr := (congrArg (·.2.2.2.2.1) h.keel :)

theorem State.pwr_of_crew (h : t.crew = s.crew) : t.pwr = s.pwr := congrArg (fun c => c.2.2) h

theorem State.pwr_ite (c : Prop) [Decidable c] {s t : State} {w : PwrSt} (hs : s.pwr = w) (ht : t.pwr = w) :
    (if c then s else t).pwr = w := by
  split <;> assumption

theorem State.pwr_closeLink (s : State) (p cause : Nat) : (s.closeLink p cause).pwr = s.pwr := by
  obtain ⟨v, f, hv, -, hr⟩ := s.closeLink_rides p cause
  exact hr.pwr.trans hv.pwr

theorem State.pwr_closeRegen (s : State) (x : StreamSt) (cause : Nat) : (s.closeRegen x cause).pwr = s.pwr := by
  unfold State.closeRegen State.dispEv
  rw [State.raise_pwr]
  exact State.pwr_ite _ rfl (State.Rides.dropStream (.refl s)).pwr

theorem State.pwr_lostHere (s : State) (p label : Nat) : (s.lostHere p label).pwr = s.pwr := by
  have hd : (s.dispLost p label).pwr = s.pwr := by
    unfold State.dispLost
    split
    · exact State.pwr_closeRegen ..
    · rfl
  have hp : ∀ u : State, (u.pcieLost p label).pwr = u.pwr := fun u => by
    unfold State.pcieLost
    split
    · exact (State.Rides.setEnd (.surpriseDown (.refl u))).pwr
    · rfl
  have hu : ∀ u : State, (u.usbLost p label).pwr = u.pwr := fun u => by
    unfold State.usbLost
    refine State.pwr_ite _ ?_ (State.pwr_ite _ rfl rfl)
    exact (State.Rides.hostAbsent (.refl _)).pwr
  have hn : ∀ u : State, (u.netLost p label).pwr = u.pwr := fun u => by
    unfold State.netLost
    split
    · rfl
    · refine State.pwr_ite _ ?_ rfl
      exact (State.Rides.bindEvent (.refl _)).pwr
  exact (hn _).trans ((hu _).trans ((hp _).trans hd))

theorem State.pwr_tearEntry (s : State) (p label : Nat) : (s.tearEntry p label).pwr = s.pwr := by
  have hb : (s.tearBeyond p label).2.pwr = s.pwr := by
    unfold State.tearBeyond
    split
    · rfl
    · dsimp only
      split
      · exact (State.Rides.ctl (.uninstall (.uninstall (.refl s)))).pwr
      · exact (State.Rides.uninstall (.refl s)).pwr
  unfold State.tearEntry
  dsimp only
  split
  · exact State.pwr_ite _ hb ((State.Rides.ownerGone (.dropPathRec (.refl _))).pwr.trans hb)
  · exact (State.foldl_pwr (fun u g => u.pwr_lostHere ..) _ _).trans hb

/-! ### Quiescing -/

theorem State.pwr_quiesceLink (s : State) (p : Nat) : (s.quiesceLink p).pwr = s.pwr := by
  unfold State.quiesceLink
  extract_lets own u labels v w
  have hu : u.pwr = s.pwr := (State.Rides.foldl (.refl s) _ fun _ _ h => .closePath h).pwr
  clear_value u
  have hv : v.pwr = u.pwr := by
    refine State.foldl_pwr (fun x l => ?_) _ u
    exact (State.pwr_tearEntry _ _ _).trans (State.Rides.ctl (.refl x)).pwr
  replace hv := hv.trans hu
  clear_value v
  have hw : w.pwr = s.pwr := State.pwr_ite _ ((State.pwr_closeLink ..).trans hv) hv
  clear_value w
  exact hw

theorem State.pwr_drivePerst (s : State) (k : Nat) (on : Bool) : (s.drivePerst k on).pwr = s.pwr := rfl

theorem State.pwr_quiescePanel (s : State) (k : Nat) : (s.quiescePanel k).pwr = s.pwr := by
  unfold State.quiescePanel
  exact State.pwr_ite _ rfl (State.pwr_ite _ rfl rfl)

theorem State.pwr_quiesceUsb (s : State) : s.quiesceUsb.pwr = s.pwr := by
  unfold State.quiesceUsb
  refine State.foldl_pwr (fun u k => ?_) _ s
  split <;> rfl

theorem State.pwr_leaveEpr (s : State) (k : Nat) : (s.leaveEpr k).pwr = s.pwr := by
  unfold State.leaveEpr
  refine State.pwr_ite _ ?_ rfl
  exact State.raise_pwr ..

theorem State.pwr_quiescePower (s : State) : s.quiescePower.pwr = s.pwr := by
  unfold State.quiescePower
  refine (State.foldl_pwr (fun u b => State.pwr_ite _ (State.pwr_of_crew (u.bayRest_crew b)) rfl) _ _).trans
    ((State.foldl_pwr (fun u k => State.pwr_ite _ ?_ rfl) _ _).trans (State.foldl_pwr (fun u k => State.pwr_ite _ ?_ rfl) _ _))
  · unfold State.vbusOff
    exact State.pwr_ite _ rfl rfl
  · exact (State.pwr_leaveEpr _ _).trans (State.Rides.pdSend (.refl u)).pwr

/-- What the beginning of an entry leaves of the power state. -/
theorem State.beginEntry_pwr (s : State) (goal : Nat) (via : Via) (job : Option (Via × Nat)) : (s.beginEntry goal via job).pwr = { s.pwr with
    phase := 1, since := s.time.tick, cause := chanNum (viaChan via), goal := goal, left := s.pwr.state, target := goal, next := none
    planned := none, job := job, latched := false
    mask := s.applied Fld.WAKE_MASK, nex := s.applied Fld.NEX_IN_RETAIN == 1 && goal == 3, timer := s.applied Fld.WAKE_TIMER_S } := by
  unfold State.beginEntry
  extract_lets old u v w x
  generalize hp : ({ s.pwr with
    phase := 1, since := s.time.tick, cause := chanNum (viaChan via), goal := goal, left := s.pwr.state, target := goal, next := none
    planned := none, job := job, latched := false
    mask := s.applied Fld.WAKE_MASK, nex := s.applied Fld.NEX_IN_RETAIN == 1 && goal == 3, timer := s.applied Fld.WAKE_TIMER_S } : PwrSt) = pw
  have hu : u.pwr = pw := hp
  clear_value u
  have hv : v.pwr = pw := ((State.pwr_quiesceLink _ _).trans (u.pwr_quiesceLink 0)).trans hu
  clear_value v
  have hw : w.pwr = pw := (State.foldl_pwr (fun y k => y.pwr_quiescePanel k) _ v).trans hv
  clear_value w
  have hx : x.pwr = pw := (State.pwr_quiesceUsb _).trans ((State.foldl_pwr (fun y k => y.pwr_drivePerst k true) _ w).trans hw)
  clear_value x
  exact State.pwr_ite _ ((State.pwr_quiescePower x).trans hx) hx

/-! ### The undoing of the quiescing (R464) -/

theorem State.pwr_startTraining (s : State) (p : Nat) : (s.startTraining p).pwr = s.pwr := by
  unfold State.startTraining
  refine State.pwr_ite _ rfl (State.pwr_ite _ rfl ?_)
  exact (State.Rides.roleEnds (.refl _)).pwr

theorem State.pwr_trainPanel (s : State) (k : Nat) : (s.trainPanel k).pwr = s.pwr := by
  unfold State.trainPanel State.dispEv
  split
  · exact State.raise_pwr ..
  · dsimp only
    split <;> exact State.raise_pwr ..

theorem State.pwr_startResume (s : State) (k : Nat) : (s.startResume k).pwr = s.pwr := by
  unfold State.startResume
  exact State.pwr_ite _ rfl rfl

theorem State.pwr_vbusOn (s : State) (k mv : Nat) : (s.vbusOn k mv).pwr = s.pwr := by
  unfold State.vbusOn
  exact State.pwr_ite _ rfl rfl

theorem State.pwr_undoQuiesce (s : State) : s.undoQuiesce.pwr = s.pwr := by
  unfold State.undoQuiesce
  extract_lets t u v w pp x y
  have ht : t.pwr = s.pwr := State.foldl_pwr (fun x p => State.pwr_ite _ (x.pwr_startTraining p) rfl) _ s
  clear_value t
  have hu : u.pwr = s.pwr := (State.pwr_of_crew t.releasePerst_crew).trans ht
  clear_value u
  have hv : v.pwr = s.pwr := (State.foldl_pwr (fun x p => State.pwr_ite _ (x.pwr_trainPanel p) rfl) _ u).trans hu
  clear_value v
  have hw : w.pwr = s.pwr := (State.foldl_pwr (fun x p => x.pwr_startResume p) _ v).trans hv
  clear_value w
  have hx : x.pwr = s.pwr := hw
  clear_value x
  have hy : y.pwr = s.pwr := (State.foldl_pwr (fun x p => State.pwr_ite _ (x.pwr_vbusOn p _) rfl) _ x).trans hx
  clear_value y
  exact (State.foldl_pwr (fun x p => State.pwr_of_crew (x.bayTry_crew p)) _ y).trans hy

/-- What the end of an entry that did not succeed leaves of the power state. -/
theorem State.abortEntry_pwr (s : State) (source : Nat) (timeout : Bool) : (s.abortEntry source timeout).pwr = { s.pwr with
    phase := 0, goal := 0, target := s.pwr.left, job := none, aborts := satAdd 32 s.pwr.aborts 1
    valid := if s.pwr.phase - 1 == 1 then false else s.pwr.valid, resume := false
    wake := if timeout then s.pwr.wake else source } := by
  generalize hp : ({ s.pwr with
    phase := 0, goal := 0, target := s.pwr.left, job := none, aborts := satAdd 32 s.pwr.aborts 1
    valid := if s.pwr.phase - 1 == 1 then false else s.pwr.valid, resume := false
    wake := if timeout then s.pwr.wake else source } : PwrSt) = pw
  unfold State.abortEntry
  extract_lets phase job old t mem u v w
  have ht : t.pwr = pw := hp
  clear_value t
  have hu : u.pwr = pw := State.pwr_ite _ ht ht
  clear_value u
  have hv : v.pwr = pw := (State.raise_pwr ..).trans hu
  clear_value v
  have hw : w.pwr = pw := v.pwr_undoQuiesce.trans hv
  clear_value w job
  split
  · exact (State.finishRc_pwr ..).trans hw
  · exact hw

/-! ### The commands -/

variable {rq : Req}

theorem entryRefusal_heard (row : CmdRow) (rq : Req) (s : State) (goal : Nat) : (s.heard row rq).entryRefusal goal = s.entryRefusal goal :=
  Deaf.heard (φ := fun u => u.entryRefusal goal) (fun _ _ _ _ _ => rfl) row rq s

theorem setTarget_low {s : State} {k : Nat} (hk : k ≤ 1) : s.setTarget k = { s with pwr := { s.pwr with
    target := k, idleCount := 0, next := if s.pwr.state ≤ 2 ∧ s.pwr.state ≠ k then some k else none } } := by
  simp [State.setTarget, hk]

theorem aborted_target (v : State) {n : Nat} (hn : v.pwr.aborts = n) (source k : Nat) (timeout : Bool) :
    ((v.abortEntry source timeout).setTarget k).pwr.phase = 0 ∧ ((v.abortEntry source timeout).setTarget k).pwr.target = k
      ∧ ((v.abortEntry source timeout).setTarget k).pwr.aborts = satAdd 32 n 1 :=
  ⟨congrArg PwrSt.phase (v.abortEntry_pwr source timeout), rfl, hn ▸ congrArg PwrSt.aborts (v.abortEntry_pwr source timeout)⟩

theorem began_entry {v : State} {l m w : Nat} (hl : v.pwr.state = l) (hm : v.applied Fld.WAKE_MASK = m) (hw : v.applied Fld.WAKE_TIMER_S = w)
    (goal : Nat) (via : Via) (job : Option (Via × Nat)) :
    let p := (v.beginEntry goal via job).pwr
    p.phase = 1 ∧ p.goal = goal ∧ p.left = l ∧ p.mask = m ∧ p.timer = w := by
  intro p
  have hp : p = _ := v.beginEntry_pwr goal via job
  clear_value p
  subst hp
  exact ⟨rfl, rfl, hl, hm, hw⟩

theorem pstateSet_aborts (ha : Admitted Cmd.pstateSet 4 rq s) (h : arg rq 0 1 ≤ 2) (hp : s.pwr.phase = 1) :
    ∃ t, exec (.pstateSet rq) s = .next t ∧ t.Replied rq .ok 0 [] ∧ t.pwr.phase = 0 ∧ t.pwr.target = arg rq 0 1
      ∧ t.pwr.aborts = satAdd 32 s.pwr.aborts 1 := by
  have hp' := State.heard_pwr Cmd.pstateSet rq s
  obtain ⟨u, hx, hu⟩ := exec_answered_with (P := fun u => u.pwr.phase = 0 ∧ u.pwr.target = arg rq 0 1 ∧ u.pwr.aborts = satAdd 32 s.pwr.aborts 1)
    (i := .pstateSet rq) (data := []) (p := none) (f := none) (nj := false) rfl ha Rc.bad_ok Rc.ok_ne_accepted <| by
    dsimp only
    rw [if_neg (by omega), if_pos h, hp', if_pos (by rw [hp]; rfl)]
    refine ⟨_, _, rfl, ?_⟩
    generalize State.heard Cmd.pstateSet rq s = v at hp'
    exact aborted_target v.draw.2 (congrArg PwrSt.aborts hp') ..
  exact ⟨_, hx, State.fwReply_replied .., by rw [State.fwReply_pwr]; exact hu⟩

/-- Settles O46, clause by clause. -/
theorem powerStateCommands : Obligations.PowerStateCommands := by
  refine ⟨shows_plain (fun _ _ => rfl) (fun _ _ _ _ _ _ => rfl) (fun _ _ _ _ _ _ => rfl) fun rq s h _ => rfl,
    does_plain (fun _ _ => rfl) (fun _ _ _ _ _ _ => rfl) (fun _ _ _ _ _ _ => rfl) (fun _ _ _ _ _ _ => rfl) fun rq s h hok => ?_,
    does_plain (fun _ _ => rfl) (fun _ _ _ _ _ _ => rfl) (fun _ _ _ _ _ _ => rfl) (fun _ _ _ _ _ _ => rfl) fun rq s h hok => ?_,
    fun rq s => pstateSet_aborts, fails_plain (fun _ _ => rfl) (fun _ _ _ _ _ _ => rfl) rfl fun rq s h hok => if_pos hok,
    fun rq s ha ht he => ?_,
    fails_plain (fun _ _ => rfl) (fun _ _ _ _ _ _ => rfl) rfl fun rq s h hok => ?_,
    fun rq s ha hr ht he hp => ?_⟩
  · obtain ⟨h1, h2⟩ := hok
    dsimp only
    rw [if_neg (by omega), if_pos (by omega), if_neg (by simpa using h2), setTarget_low h1]
    rfl
  · obtain ⟨h1, h2⟩ := hok
    dsimp only
    rw [if_neg (by omega), if_pos (by omega), if_neg (by simpa using h2), h1]
    rfl
  · have he' := entryRefusal_heard Cmd.pstateSet rq s (arg rq 0 1)
    refine ⟨_, exec_failed (i := .pstateSet rq) rfl ha rfl (rc := .badState) (u := s.heard Cmd.pstateSet rq)
      (data := [BitVec.ofNat 8 (s.entryRefusal (arg rq 0 1))]) (p := none) (nj := false) (v := none) (f :=
      some ((s.heard Cmd.pstateSet rq).raise 169 (s.entryRefusal (arg rq 0 1)))) ?_, ?_, State.fwReply_replied ..⟩
    · dsimp only
      rw [if_neg (by omega), if_neg (by omega), he', if_pos (by simpa using he)]
    · rw [State.still_fwReply, Option.getD_some, State.still_raise, State.still_heard]
  · obtain ⟨h1, h2, h3⟩ := hok
    dsimp only
    rw [if_neg (by omega), if_neg (by omega), if_neg (by simpa using h2), if_pos (by simpa using h3)]
  · have he' := entryRefusal_heard Cmd.pstateSet rq s (arg rq 0 1)
    have hp' := State.heard_pwr Cmd.pstateSet rq s
    obtain ⟨u, hx, hu⟩ := exec_accepted_with (P := fun u => u.pwr.phase = 1 ∧ u.pwr.goal = arg rq 0 1 ∧ u.pwr.left = s.pwr.state
      ∧ u.pwr.mask = s.applied Fld.WAKE_MASK ∧ u.pwr.timer = s.applied Fld.WAKE_TIMER_S) (i := .pstateSet rq) rfl ha hr <| by
      dsimp only
      rw [if_neg (by omega), if_neg (by omega), he', if_neg (by simpa using he), hp', if_neg (by simpa using hp)]
      refine ⟨_, rfl, ?_⟩
      exact began_entry (congrArg PwrSt.state hp') (applied_heard ..) (applied_heard ..) ..
    exact ⟨_, hx, State.fwReply_replied .., by rw [State.fwReply_pwr, State.addJob_pwr]; exact hu⟩

end Sys2Proof.Machine

/-! The exit of the LPDDR from self-refresh and the start of Woeri (R369, R470). -/
namespace Sys2Proof.Machine

theorem State.svc_on_raise (s : State) (n a : Nat) : (s.raise n a).svc.on = s.svc.on := svc_on_of_still (s.still_raise n a)

theorem State.svc_on_startInst (s : State) (id : Nat) : (s.startInst id).svc.on = s.svc.on := by
  unfold State.startInst
  split
  · rfl
  · split
    · unfold State.beginInst
      rw [State.svc_on_raise]
      split <;> rfl
    · rfl

/-- A start of the cluster leaves it on. -/
theorem State.clusterStart_on (s : State) : s.clusterStart.svc.on = true := by
  unfold State.clusterStart
  exact (foldl_same _ (fun s : State => s.svc.on) (fun s id => s.svc_on_startInst id) _ _).trans
    (foldl_same _ (fun s : State => s.svc.on) (fun s k => s.svc_on_startInst (k + 1)) _ _)

/-- The reset state with the management firmware running, Woeri off and the LPDDR in self-refresh. -/
def refreshing : State := { State.reset with
  boot := { State.reset.boot with stage := 2 }
  mem := { State.reset.mem with lpddr := .selfRefresh } }

/-- Refutes O45: the LPDDR of `refreshing` leaves self-refresh, and Woeri, which could not start while it was in self-refresh, starts on it. The clause
asks whether Woeri may start before the LPDDR is active, where it never may. -/
theorem not_boundariesAndPowerStates : ¬ Obligations.BoundariesAndPowerStates := by
  intro h
  obtain ⟨-, -, -, -, -, -, -, -, -, -, -, -, -, -, -, -, hrefresh⟩ := h refreshing (by decide)
  obtain ⟨t, hx, ht⟩ := (hrefresh rfl (.inl rfl)).1 rfl
  have hoff : t.svc.on = false := congrArg (fun u => u.svc.on) ht
  have hon : exec (.selfRefreshExitCheckDone true) refreshing
      = .next ({ refreshing.begin with mem := { refreshing.begin.mem with lpddr := .active } } : State).clusterStart := rfl
  rw [hon] at hx
  injection hx with hx
  rw [← hx, State.clusterStart_on] at hoff
  exact absurd hoff (by decide)

end Sys2Proof.Machine

/-! The transports of LOCAL, DEBUG and TUNNEL (R49, R72 to R80, R472): the buffers of function 7, a request that is submitted, and the frames. -/
namespace Sys2Proof.Machine

/-! ### What a changed configuration leaves of function 7's registers (R79) -/

/-- The request bytes of function 7, whether a request is under way, its reply, and UNATT. -/
def State.bar (s : State) : List Byte × Bool × Option Reply × Bool := (s.mbx.bar0Req, s.mbx.bar0Busy, s.mbx.bar0Reply, s.mbx.unatt)

theorem State.bar_of_hush {s t : State} (h : t.hush = s.hush) : t.bar = s.bar := (congrArg State.bar h :)

theorem State.bar_of_mbx {s t : State} (h : t.mbx = s.mbx) : t.bar = s.bar := by simp only [State.bar, h]

@[simp] theorem State.bar_ite (c : Prop) [Decidable c] (s t : State) : (if c then s else t).bar = if c then s.bar else t.bar :=
  apply_ite State.bar c s t

@[simp] theorem State.bar_foldl {β : Type} {f : State → β → State} (h : ∀ s b, (f s b).bar = s.bar) (l : List β) (s : State) :
    (l.foldl f s).bar = s.bar := foldl_same f State.bar h l s

@[simp] theorem State.bar_mk (pending out free grade time topo mbx cfg boot fault pins rcd trust upd cable sw plan disp pcie usb net sb mem svc
    cc ppath pwr) :
    State.bar ⟨pending, out, free, grade, time, topo, mbx, cfg, boot, fault, pins, rcd, trust, upd, cable, sw, plan, disp, pcie, usb, net, sb,
      mem, svc, cc, ppath, pwr⟩ = (mbx.bar0Req, mbx.bar0Busy, mbx.bar0Reply, mbx.unatt) := rfl

@[simp] theorem State.bar_eq (s : State) : (s.mbx.bar0Req, s.mbx.bar0Busy, s.mbx.bar0Reply, s.mbx.unatt) = s.bar := rfl

@[simp] theorem State.emit_bar (s : State) (e : Emit) : (s.emit e).bar = s.bar := State.bar_of_mbx rfl
@[simp] theorem State.spore1_bar (s : State) (k c f : Nat) (p : List Byte) : (s.spore1 k c f p).bar = s.bar :=
  State.bar_of_hush (s.hush_spore1 k c f p)
@[simp] theorem State.spore_bar (s : State) (k c : Nat) (p : List Byte) : (s.spore k c p).bar = s.bar :=
  State.bar_of_hush (s.hush_spore k c p)
@[simp] theorem State.recTrigger_bar (s : State) (c : Nat) : (s.recTrigger c).bar = s.bar :=
  State.bar_of_hush (s.hush_recTrigger c)
@[simp] theorem State.raise_bar (s : State) (n a : Nat) : (s.raise n a).bar = s.bar := State.bar_of_hush (s.hush_raise n a)
@[simp] theorem State.setChan_bar (s : State) (c : Chan) (x : ChanSt) : (s.setChan c x).bar = s.bar := by
  unfold State.setChan
  split <;> simp
@[simp] theorem State.modChan_bar (s : State) (c : Chan) (f : ChanSt → ChanSt) : (s.modChan c f).bar = s.bar := by simp [State.modChan]
@[simp] theorem State.raiseOn_bar (s : State) (c : Chan) (n : Nat) (arg : Nat) :
    (s.raiseOn c n arg).bar = s.bar := by simp [State.raiseOn]
@[simp] theorem State.finish_bar (s : State) (via : Via) (h : Nat) (rc : Nat) (data : List Byte) :
    (s.finish via h rc data).bar = s.bar := by
  unfold State.finish
  dsimp only
  split <;> simp
@[simp] theorem State.setLink_bar (s : State) (p : Nat) (f : LinkSt → LinkSt) : (s.setLink p f).bar = s.bar := State.bar_of_mbx rfl
@[simp] theorem State.setCpx_bar (s : State) (p : Nat) (f : CpxSt → CpxSt) : (s.setCpx p f).bar = s.bar := State.bar_of_mbx rfl
@[simp] theorem State.setLane_bar (s : State) (p k : Nat) (f : LaneSt → LaneSt) :
    (s.setLane p k f).bar = s.bar := State.bar_of_mbx rfl
@[simp] theorem State.laneEv_bar (s : State) (p n arg : Nat) : (s.laneEv p n arg).bar = s.bar := by simp [State.laneEv]
@[simp] theorem State.sendOwn_bar (s : State) (p : Nat) (c : Cell) : (s.sendOwn p c).bar = s.bar := by simp [State.sendOwn]
@[simp] theorem State.ctlSend_bar (s : State) (p typ : Nat) (fields : List Nat) (blob : List Byte) :
    (s.ctlSend p typ fields blob).bar = s.bar := by simp [State.ctlSend]
@[simp] theorem State.ctl_bar (s : State) (p typ : Nat) (fields : List Nat) : (s.ctl p typ fields).bar = s.bar := by simp [State.ctl]
@[simp] theorem State.setDpx_bar (s : State) (k : Nat) (f : DpxSt → DpxSt) : (s.setDpx k f).bar = s.bar := State.bar_of_mbx rfl
@[simp] theorem State.floorCheck_bar (s : State) (p : Nat) : (s.floorCheck p).bar = s.bar := by simp [State.floorCheck]
@[simp] theorem State.endRecal_bar (s : State) (p k outcome : Nat) : (s.endRecal p k outcome).bar = s.bar := by
  unfold State.endRecal
  split <;> simp
@[simp] theorem State.endTest_bar (s : State) (p k rc : Nat) (data : List Byte) : (s.endTest p k rc data).bar = s.bar := by
  unfold State.endTest
  split
  · rfl
  · rw [State.bar_foldl fun _ _ => State.finish_bar _ _ _ _ _]
    simp
@[simp] theorem State.queueRecal_bar (s : State) (p k trig : Nat) (force restore : Bool) (job : Option (Via × Nat)) :
    (s.queueRecal p k trig force restore job).bar = s.bar := by
  unfold State.queueRecal
  split <;> simp
@[simp] theorem State.retrainDue_bar (s : State) (p : Nat) : (s.retrainDue p).bar = s.bar := State.bar_of_mbx rfl
@[simp] theorem State.retire_bar (s : State) (p k what cause : Nat) (tell : Bool) :
    (s.retire p k what cause tell).bar = s.bar := by simp [State.retire]
@[simp] theorem State.restoreLane_bar (s : State) (p k trig : Nat) (job : Option (Via × Nat)) :
    (s.restoreLane p k trig job).bar = s.bar := by simp [State.restoreLane]
@[simp] theorem State.maskLanes_bar (s : State) (p : Nat) : (s.maskLanes p).bar = s.bar := by simp [State.maskLanes]
@[simp] theorem State.setEndTo_bar (s : State) (k v : Nat) : (s.setEndTo k v).bar = s.bar := by simp [State.setEndTo]
@[simp] theorem State.takeEnds_bar (s : State) : (s.takeEnds).bar = s.bar := by
  unfold State.takeEnds
  refine State.bar_foldl (fun s k => ?_) _ _
  split
  · rfl
  · simp
@[simp] theorem State.cfgEffects_bar (s : State) : (s.cfgEffects).bar = s.bar := by simp [State.cfgEffects]

/-! ### A request that is submitted (R49, R60) -/

/-- What counting a request on LOCAL leaves. -/
theorem State.countLocal_hush (s : State) (via : Via) : ∃ a b c,
    (s.countLocal via).hush = ({ s with mbx := { s.mbx with sinceAttn := a, firstLocal := b, unatt := c } } : State).hush := by
  unfold State.countLocal
  split
  · dsimp only
    split
    · exact ⟨0, true, false, State.hush_raise ..⟩
    · exact ⟨0, true, s.mbx.unatt, rfl⟩
  · exact ⟨_, _, _, rfl⟩

theorem State.chan_of_hush {γ : Type} (φ : ChanSt → γ) (hφ : ∀ x : ChanSt, φ x.hush = φ x) {s t : State} (h : t.hush = s.hush) (c : Chan) :
    φ (t.chan c) = φ (s.chan c) := by
  have hc : ∀ u : State, u.hush.chan c = (u.chan c).hush := fun u => by cases c <;> rfl
  rw [← hφ (t.chan c), ← hc t, h, hc s, hφ]

/-- A new request of a listed command, whole and for this hub's firmware, waits in its place; nothing else of the mailboxes changes but what
counting it writes. -/
theorem State.submit_waits {s : State} {m : Msg} (hnew : (s.chan (viaChan m.rq.via)).stored = none) (hfw : s.fwRuns = true)
    (hdbg : (viaChan m.rq.via == .dbg) = false) (hlen : m.len ≤ 1024) (hrow : (cmdRow? m.opcode).isSome = true) :
    ∃ a b c, (s.submit m true).hush = ({ s with mbx := { s.mbx with
        sinceAttn := a, firstLocal := b, unatt := c, waiting := enterWait ⟨m, s.time.tick, s.time.slot, none⟩ s.mbx.waiting } } : State).hush
      ∧ (s.submit m true).out = s.out := by
  obtain ⟨a, b, c, hc⟩ := s.countLocal_hush m.rq.via
  refine ⟨a, b, c, ?_⟩
  unfold State.submit
  dsimp only
  have hu := (State.hush_spore (s.countLocal m.rq.via) 1 (chanNum (viaChan m.rq.via)) (reqBytes m.opcode m.rq)).trans hc
  have ho : ((s.countLocal m.rq.via).spore 1 (chanNum (viaChan m.rq.via)) (reqBytes m.opcode m.rq)).out = s.out := by simp
  generalize (s.countLocal m.rq.via).spore 1 (chanNum (viaChan m.rq.via)) (reqBytes m.opcode m.rq) = u at hu ho
  have hst : (u.chan (viaChan m.rq.via)).stored = none := by
    rw [State.chan_of_hush ChanSt.stored (fun _ => rfl) hu]
    refine Eq.trans ?_ hnew
    cases viaChan m.rq.via <;> rfl
  have hfw' : u.fwRuns = true := (congrArg State.fwRuns hu :).trans hfw
  rw [hst, ite_self]
  dsimp only
  rw [hfw', hdbg, if_neg (by decide), if_neg (by simp), if_neg (by simpa using hlen), if_pos hrow]
  refine ⟨?_, ho⟩
  exact (congrArg (fun w : State => w.enqueue m) hu :)

end Sys2Proof.Machine

/-! The transports (R49, R72 to R80, R472), clause by clause: frames on LOCAL and DEBUG, RESET_CTL, function 7, and the USB vendor interface. -/
namespace Sys2Proof.Machine

variable {s : State}

/-! ### Bytes of a frame -/

theorem slice_slice {a n off N : Nat} (h : a + n ≤ N) (b : List Byte) : slice a n (slice off N b) = slice (off + a) n b := by
  unfold slice
  rw [List.drop_take, List.take_take, List.drop_drop, min_eq_left (by omega)]

theorem leAt_slice {a n off N : Nat} (h : a + n ≤ N) (b : List Byte) : leAt a n (slice off N b) = leAt (off + a) n b :=
  congrArg leNat (slice_slice h b)

theorem leAt_take {a n N : Nat} (h : a + n ≤ N) (b : List Byte) : leAt a n (b.take N) = leAt a n b := by
  have := leAt_slice (off := 0) h b
  rwa [Nat.zero_add] at this

/-! ### Frames -/

theorem State.takeFrame_request {via : Via} {b : List Byte} (h1 : leAt 0 1 b = 1) (hok : requestFrameOk b = true) :
    s.takeFrame via b = (s.discardHeld via false).submit (parseReq via (slice 4 (leAt 2 2 b) b)) (parseReq via (slice 4 (leAt 2 2 b) b)).whole := by
  unfold State.takeFrame
  simp only [h1, hok, if_true]

theorem State.takeFrame_rejected {via : Via} {b : List Byte} (h1 : leAt 0 1 b = 1) (hok : requestFrameOk b = false) :
    s.takeFrame via b = (s.discardHeld via true).raise 5 (chanNum (viaChan via)) := by
  unfold State.takeFrame
  simp only [h1, hok, Bool.false_eq_true, if_false]

theorem State.takeFrame_selection {via : Via} {b : List Byte} (h : leAt 0 1 b = 3) : s.takeFrame via b = s := by
  unfold State.takeFrame
  simp only [h]

/-- A request frame that passes its check, of a new request whose length is its frame's. -/
theorem spiWriteRequestFrame_waits {b : List Byte} (hp : s.powered = true) (hon : s.spiOn = true) (h1 : leAt 0 1 b = 1) (hok : requestFrameOk b = true)
    (hst : s.mbx.loc.stored = none) (hfw : s.fwRuns = true) (hlen : leAt 8 2 b + 16 = leAt 2 2 b) (hrow : (cmdRow? (leAt 4 2 b)).isSome = true) :
    Gives (.spiWriteRequestFrame b) s fun t =>
      t.mbx.waiting = enterWait ⟨parseReq .spi (slice 4 (leAt 2 2 b) b), s.time.tick, s.time.slot, none⟩ s.mbx.waiting
      ∧ t.mbx.spiHeld = none ∧ t.mbx.spiReject = false
      ∧ Emit.bytes .spi (leBytes 4 (s.status .loc).toNat) ∈ t.out ∧ Emit.rest 0xFF ∈ t.out := by
  refine gives_of_runIf (execSpiWriteRequestFrame.eq_1 b s) hp ?_
  have hon' : s.begin.spiOn = true := hon
  rw [hon', if_neg (by decide)]
  rw [State.takeFrame_request h1 hok]
  obtain ⟨⟨⟨h16, h1040⟩, hfit⟩, -⟩ : ((16 ≤ leAt 2 2 b ∧ leAt 2 2 b ≤ 1040) ∧ 6 + leAt 2 2 b ≤ b.length) ∧ leAt (4 + leAt 2 2 b) 2 b = crc16 (b.take (4 + leAt 2 2 b)) := by
    simpa [requestFrameOk] using hok
  generalize hm : parseReq .spi (slice 4 (leAt 2 2 b) b) = m
  have hop : m.opcode = leAt 4 2 b := hm ▸ leAt_slice (by omega) b
  have hml : m.len = leAt 8 2 b := hm ▸ leAt_slice (by omega) b
  have hwhole : m.whole = true := by
    have hpl : m.rq.payload.length = leAt 2 2 b - 16 := by
      rw [← hm]
      show ((slice 4 (leAt 2 2 b) b).drop 16).length = _
      simp only [slice, List.length_drop, List.length_take]
      omega
    simp only [Msg.whole, hpl, hml, beq_iff_eq]
    omega
  have hvia : m.rq.via = .spi := hm ▸ rfl
  rw [hwhole]
  obtain ⟨a, c, d, hh, ho⟩ := State.submit_waits (s := (s.begin.miso (leBytes 4 (s.begin.status .loc).toNat)).discardHeld .spi false) (m := m)
    (by rw [hvia]; exact hst) hfw (by rw [hvia]; rfl) (by omega) (by rw [hop]; exact hrow)
  refine ⟨(congrArg (fun w : State => w.mbx.waiting) hh :), (congrArg (fun w : State => w.mbx.spiHeld) hh :), (congrArg (fun w : State => w.mbx.spiReject) hh :), ?_, ?_⟩
  · rw [ho]
    exact .head _
  · rw [ho]
    exact .tail _ (.head _)

/-- A request frame that does not pass its check. -/
theorem spiWriteRequestFrame_rejected {b : List Byte} (hp : s.powered = true) (hon : s.spiOn = true) (h1 : leAt 0 1 b = 1) (hok : requestFrameOk b = false) :
    Gives (.spiWriteRequestFrame b) s fun t =>
      t.hush = ({ s with mbx := { s.mbx with spiHeld := none, spiReject := true } } : State).hush ∧ Heard 1 s t 5 0 := by
  refine gives_of_runIf (execSpiWriteRequestFrame.eq_1 b s) hp ?_
  have hon' : s.begin.spiOn = true := hon
  rw [hon', if_neg (by decide), State.takeFrame_rejected h1 hok]
  refine ⟨State.hush_raise .., heard_raise_of rfl rfl fun c => ?_⟩
  cases c <;> exact ⟨rfl, le_refl _⟩

/-- The words of the hardware window do not depend on what the command has sent. -/
theorem State.windowWords_begin (s : State) (c : Chan) (n k : Nat) :
    s.begin.windowWords c n k = ((s.windowWords c n k).1, (s.windowWords c n k).2.begin) := by
  induction n generalizing s k with
  | zero => rfl
  | succ n ih =>
    have hl : s.begin.latchTick k = (s.latchTick k).begin := by
      unfold State.latchTick
      split <;> rfl
    have hw : (s.latchTick k).begin.windowWord c k = (s.latchTick k).windowWord c k := by
      unfold State.windowWord
      rfl
    simp only [State.windowWords, hl, ih, hw]

theorem State.windowFrame_begin (s : State) (via : Via) (off n : Nat) :
    s.begin.windowFrame via off n = ((s.windowFrame via off n).1, (s.windowFrame via off n).2.begin) := by
  unfold State.windowFrame
  simp only [State.windowWords_begin]
  rfl

/-! ### RESET_CTL (R80) -/

theorem State.windowWrite_systemReset (h : s.mbx.arm = true) : s.windowWrite .spi 0x1C 0xC0A70001 = s.askSystemReset 0x32 := by
  simp [State.windowWrite, State.windowLevel, viaChan, h]

theorem State.windowWrite_coreReset (h : s.mbx.arm = true) : s.windowWrite .spi 0x1C 0xC0A70002 = s.mgtCoreReset 0x32 := by
  simp [State.windowWrite, State.windowLevel, viaChan, h]

theorem State.windowWrite_unarmed (h : s.mbx.arm = false) (off v : Nat) : s.windowWrite .spi off v = s := by
  simp [State.windowWrite, State.windowLevel, viaChan, h]

theorem State.windowWrite_usb (s : State) (off v : Nat) : s.windowWrite .usb off v = s := by
  simp [State.windowWrite, State.windowLevel, viaChan]

theorem resetCtl_system (hp : s.powered = true) (hh : s.hibernates = false) (ha : s.mbx.arm = true) (hb : s.boot.stage = 2) :
    Gives (.resetCtlSystemReset .spi) s (s.AfterReset 0x32) := by
  refine gives_of_runIf (execResetCtlSystemReset.eq_1 .spi s) hp ?_
  have hh' : s.begin.hibernates = false := hh
  rw [hh', if_neg (by decide), State.windowWrite_systemReset (s := s.begin) ha, State.askSystemReset, if_neg (by simp [hb])]
  exact (s.begin.systemReset_gives 0x32).1

theorem resetCtl_absorbed (hp : s.powered = true) (hh : s.hibernates = false) (ha : s.mbx.arm = true) (hb : s.boot.stage ≤ 1)
    (hr : s.boot.mgtReset = false) (hq : s.pwr.phase = 0) (ht : s.fault.thermal = false) :
    Leaves (.resetCtlSystemReset .spi) s { s with fault := { s.fault with resetCause := 0x32 } } := by
  refine gives_of_runIf (execResetCtlSystemReset.eq_1 .spi s) hp ?_
  have hh' : s.begin.hibernates = false := hh
  rw [hh', if_neg (by decide), State.windowWrite_systemReset (s := s.begin) ha, State.askSystemReset, if_pos (by simp [hb, hr, hq, ht])]
  rfl

theorem resetCtl_unarmed (ha : s.mbx.arm = false) : Leaves (.resetCtlSystemReset .spi) s s := by
  refine leaves_of_runIf (execResetCtlSystemReset.eq_1 .spi s) ?_
  rw [State.windowWrite_unarmed (s := s.begin) ha, ite_self]
  rfl

theorem resetCtl_core (hp : s.powered = true) (hh : s.hibernates = false) (ha : s.mbx.arm = true) (hb : s.boot.stage = 2) (hr : s.boot.mgtReset = false) :
    Gives (.resetCtlMgmtCoreReset .spi) s (s.AfterCoreReset 0x32) := by
  refine gives_of_runIf (execResetCtlMgmtCoreReset.eq_1 .spi s) hp ?_
  have hh' : s.begin.hibernates = false := hh
  rw [hh', if_neg (by decide), State.windowWrite_coreReset (s := s.begin) ha]
  exact (State.mgtCoreReset_gives (s := s.begin) hb hr (by decide)).1

theorem resetCtl_usb (s : State) : Leaves (.resetCtlMgmtCoreReset .usb) s s := by
  refine leaves_of_runIf (execResetCtlMgmtCoreReset.eq_1 .usb s) ?_
  rw [State.windowWrite_usb, ite_self]
  rfl

/-! ### I3C and JTAG (R74, R76) -/

theorem i3cPrivateWrite_selects {off n : Byte} (hp : s.powered = true) (hon : s.i3cOn = true) :
    Leaves (.i3cPrivateWrite [3, off, n]) s { s with mbx := { s.mbx with i3cSel := some (off.toNat, n.toNat) } } := by
  refine gives_of_runIf (execI3cPrivateWrite.eq_1 _ s) hp ?_
  have hon' : s.begin.i3cOn = true := hon
  have h3 : leAt 0 1 [3, off, n] = 3 := rfl
  have hoff : leAt 1 1 [3, off, n] = off.toNat := by simp [leAt, slice, leNat]
  have hn : leAt 2 1 [3, off, n] = n.toNat := by simp [leAt, slice, leNat]
  rw [hon', if_neg (by decide), State.takeFrame_selection h3, h3, hoff, hn]
  rfl

theorem i3cPrivateRead_replies (hp : s.powered = true) (hon : s.i3cOn = true) (hsel : s.mbx.i3cSel = none) :
    Says .i3cPrivateRead s s [.bytes .spi (s.replyFrame .spi)] := by
  refine gives_of_runIf (execI3cPrivateRead.eq_1 s) hp ?_
  have hon' : s.begin.i3cOn = true := hon
  have hsel' : s.begin.mbx.i3cSel = none := hsel
  rw [hon', if_neg (by decide), hsel']
  exact ⟨rfl, rfl⟩

theorem jtagDbgMbx_replies (hp : s.powered = true) (hh : s.hibernates = false) :
    Says (.jtagDbgMbx [2]) s { s with pins := { s.pins with ir := 0x20, extest := false } } [.bytes .jtag (s.replyFrame .jtag)] := by
  refine gives_of_runIf (execJtagDbgMbx.eq_1 _ s) hp ?_
  extract_lets pins u
  have hh' : u.hibernates = false := hh
  have h2 : (leAt 0 1 [2] == 2) = true := rfl
  rw [hh', if_neg (by decide), if_pos h2]
  exact ⟨rfl, rfl⟩

/-! ### Function 7 (R77, R79) -/

theorem registerWrite_request {off v : Nat} (ha : s.awake = true) (hf : s.function7 = true) (hb : s.mbx.bar0Busy = false) (hlo : 0x1000 ≤ off)
    (hhi : off < 0x1410) :
    let k := (off - 0x1000) / 4 * 4
    Leaves (.registerWrite 1 off v) s { s with mbx := { s.mbx with
      bar0Req := (fitBytes 1040 s.mbx.bar0Req).take k ++ leBytes 4 v ++ (fitBytes 1040 s.mbx.bar0Req).drop (k + 4) } } := by
  refine gives_of_run (execRegisterWrite.eq_1 1 off v s) ha ?_
  have hf' : s.begin.function7 = true := hf
  rw [if_pos (beq_self_eq_true (1 : Nat))]
  unfold State.bar0Write
  rw [if_neg (by simp; omega), if_neg (by simp; omega), if_pos (by simp [hf', hb, hlo, hhi])]
  rfl

theorem submit_waits {b : List Byte} (ha : s.awake = true) (hb : b = fitBytes 1040 s.mbx.bar0Req) (hf : s.function7 = true)
    (hbusy : s.mbx.bar0Busy = false) (hst : s.mbx.tun.stored = none) (hfw : s.fwRuns = true) (hlen : leAt 4 2 b ≤ 1024)
    (hrow : (cmdRow? (leAt 0 2 b)).isSome = true) :
    Gives .submit s fun t =>
      t.mbx.waiting = enterWait ⟨parseReq .pcie (b.take (16 + leAt 4 2 b)), s.time.tick, s.time.slot, none⟩ s.mbx.waiting
      ∧ t.mbx.bar0Busy = true ∧ t.mbx.bar0Reply = none := by
  refine gives_of_run (execSubmit.eq_1 s) ha ?_
  have hf' : s.begin.function7 = true := hf
  have hbusy' : s.begin.mbx.bar0Busy = false := hbusy
  have hb' : fitBytes 1040 s.begin.mbx.bar0Req = b := hb.symm
  unfold State.bar0Submit
  rw [hf', hbusy', if_neg (by decide), hb']
  obtain ⟨a, c, d, hh, -⟩ := State.submit_waits (s := ({ s.begin with mbx := { s.begin.mbx with bar0Busy := true, bar0Reply := none } } : State))
    (m := parseReq .pcie (b.take (16 + leAt 4 2 b))) hst hfw rfl
    (by show leAt 4 2 _ ≤ 1024; rw [leAt_take (by omega)]; exact hlen) (by show (cmdRow? (leAt 0 2 _)).isSome = true; rw [leAt_take (by omega)]; exact hrow)
  exact ⟨(congrArg (fun w : State => w.mbx.waiting) hh :), (congrArg (fun w : State => w.mbx.bar0Busy) hh :),
    (congrArg (fun w : State => w.mbx.bar0Reply) hh :)⟩

theorem submit_busy (hb : s.mbx.bar0Busy = true) : Leaves .submit s s := by
  refine leaves_of_runIf (execSubmit.eq_1 s) ?_
  have hb' : s.begin.mbx.bar0Busy = true := hb
  unfold State.bar0Submit
  rw [hb', Bool.or_true, if_pos rfl]
  rfl

theorem release_drops (ha : s.awake = true) (hf : s.function7 = true) : Leaves .release s { s with mbx := { s.mbx with bar0Reply := none } } := by
  refine gives_of_run (execRelease.eq_1 s) ha ?_
  have hf' : s.begin.function7 = true := hf
  unfold State.bar0Release
  rw [hf', if_pos rfl]
  rfl

/-! ### The USB vendor interface (R78) -/

theorem usbMbxBulkOut_waits {bs : List Byte} (ha : s.awake = true) (hf : s.usbFnUp = true) (he : s.epHeld 0 = false) (h16 : 16 ≤ bs.length)
    (hlen : bs.length = 16 + leAt 4 2 bs) (hmax : bs.length ≤ 1040) (hst : s.mbx.tun.stored = none) (hfw : s.fwRuns = true)
    (hrow : (cmdRow? (leAt 0 2 bs)).isSome = true) :
    Gives (.usbMbxBulkOut 1 bs) s fun t =>
      t.mbx.waiting = enterWait ⟨parseReq .usb bs, s.time.tick, s.time.slot, none⟩ s.mbx.waiting ∧ t.mbx.usbReply = none := by
  refine gives_of_run (execUsbMbxBulkOut.eq_1 1 bs s) ha ?_
  have hf' : s.begin.usbFnUp = true := hf
  have he' : s.begin.epHeld 0 = false := he
  have hwhole : (parseReq .usb bs).whole = true := by
    simp only [Msg.whole, parseReq, List.length_drop, beq_iff_eq]
    omega
  rw [hf', if_neg (by decide), if_pos (beq_self_eq_true (1 : Nat)), he', if_neg (by decide)]
  dsimp only
  rw [hwhole, Bool.and_true, decide_eq_true h16]
  obtain ⟨a, c, d, hh, -⟩ := State.submit_waits (s := ({ s.begin with mbx := { s.begin.mbx with usbReply := none } } : State))
    (m := parseReq .usb bs) hst hfw rfl (by show leAt 4 2 bs ≤ 1024; omega) hrow
  exact ⟨(congrArg (fun w : State => w.mbx.waiting) hh :), (congrArg (fun w : State => w.mbx.usbReply) hh :)⟩

theorem usbMbxBulkIn_replies {r : Reply} (ha : s.awake = true) (hf : s.usbFnUp = true) (hr : s.mbx.usbReply = some r) :
    Says (.usbMbxBulkIn 1) s { s with mbx := { s.mbx with usbReply := none } } [.bytes .usb (replyBytes r)] := by
  refine gives_of_run (execUsbMbxBulkIn.eq_1 1 s) ha ?_
  have hf' : s.begin.usbFnUp = true := hf
  have hr' : s.begin.mbx.usbReply = some r := hr
  rw [hf', if_neg (by decide), if_pos (beq_self_eq_true (1 : Nat)), hr']
  exact ⟨rfl, rfl⟩

theorem usbVendorStatus_says (ha : s.awake = true) (hf : s.usbFnUp = true) :
    Says .usbVendorStatus s s [.bytes .usb (leBytes 4 (s.status .tun).toNat)] := by
  refine gives_of_run (execUsbVendorStatus.eq_1 s) ha ?_
  have hf' : s.begin.usbFnUp = true := hf
  rw [hf', if_pos rfl]
  exact ⟨rfl, rfl⟩

theorem usbVendorWindowRead_says {i n : Nat} (ha : s.awake = true) (hf : s.usbFnUp = true) :
    let w := s.windowWords .tun ((min n 64 + 3) / 4) (i / 4)
    Says (.usbVendorWindowRead i n) s w.2 [.bytes .usb ((w.1.flatMap (leBytes 4)).take (min n 64))] := by
  refine gives_of_run (execUsbVendorWindowRead.eq_1 i n s) ha ?_
  have hf' : s.begin.usbFnUp = true := hf
  rw [hf', if_neg (by decide)]
  dsimp only
  rw [State.windowWords_begin]
  exact ⟨rfl, rfl⟩

theorem function7Reset_gives {usb : Bool} (ha : s.awake = true) : Gives (.function7Reset usb) s fun t =>
    t.cfg.ovr = (s.cfg.ovr.filter fun o => o.layer != 1) ∧ (usb = false → t.mbx.bar0Req = [] ∧ t.mbx.bar0Busy = false ∧ t.mbx.bar0Reply = none) := by
  have hovr : (s.cfg.ovr.filter fun o => !(o.layer == 1 && true)) = s.cfg.ovr.filter fun o => o.layer != 1 := by simp [bne]
  refine gives_of_run (execFunction7Reset.eq_1 usb s) ha ?_
  cases usb
  · rw [if_neg (by decide)]
    unfold State.function7Reset State.withdraw
    refine ⟨by rw [State.cfgEffects_cfg]; exact hovr, fun _ => ?_⟩
    have hbar := State.cfgEffects_bar ({ s.begin with
      mbx := { s.begin.mbx with bar0Req := [], bar0Busy := false, bar0Reply := none }
      cfg := { s.begin.cfg with ovr := s.begin.cfg.ovr.filter fun o => !(o.layer == 1 && true) } } : State)
    exact ⟨congrArg Prod.fst hbar, congrArg (fun b => b.2.1) hbar, congrArg (fun b => b.2.2.1) hbar⟩
  · rw [if_pos rfl]
    unfold State.withdraw
    exact ⟨by rw [State.cfgEffects_cfg]; exact hovr, fun h => absurd h (by decide)⟩

/-- Settles O36, clause by clause. -/
theorem transports : Obligations.Transports := by
  refine ⟨fun s hp => ⟨fun b => spiWriteRequestFrame_waits hp, fun b => spiWriteRequestFrame_rejected hp, fun hon => ?_, fun off n hon => ?_,
      resetCtl_system hp, resetCtl_absorbed hp, resetCtl_unarmed, resetCtl_core hp, resetCtl_usb s, fun off n => i3cPrivateWrite_selects hp,
      i3cPrivateRead_replies hp, jtagDbgMbx_replies hp⟩,
    fun s ha => ⟨fun off v => registerWrite_request ha, fun off v => gives_of_run (execRegisterWrite.eq_1 0 off v s) ha rfl, fun b => submit_waits ha,
      submit_busy, release_drops ha, fun bs => usbMbxBulkOut_waits ha, fun r => usbMbxBulkIn_replies ha, usbVendorStatus_says ha,
      fun i n => usbVendorWindowRead_says ha, fun i v => ?_, fun usb => function7Reset_gives ha⟩⟩
  · refine gives_of_runIf (execSpiReadReplyFrame.eq_1 s) hp ?_
    have hon' : s.begin.spiOn = true := hon
    rw [hon', if_pos rfl]
    exact ⟨rfl, rfl⟩
  · refine gives_of_runIf (execSpiWindowReadFrame.eq_1 off n s) hp ?_
    have hon' : s.begin.spiOn = true := hon
    rw [hon', if_neg (by decide), State.windowFrame_begin]
    exact ⟨rfl, rfl⟩
  · refine leaves_of_runIf (execUsbVendorWindowWrite.eq_1 i v s) ?_
    rw [State.windowWrite_usb, ite_self]
    rfl

end Sys2Proof.Machine

/-! A wait call (R390, R392) of an instance that shares its number with another. -/
namespace Sys2Proof.Machine

/-- The first of the two: running, ready, waiting for no event. -/
def firstTwin : InstSt := { InstSt.fresh 1 0 0 (parsePkg []) 0 with state := 1, ready := true }

/-- The second, with the same number, which waits for the event 0. -/
def secondTwin : InstSt := { firstTwin with mask := 1 }

/-- A hub whose service runtime lists both, and whose core 0 has a slot. -/
def twins : State := { State.reset with
  plan.inForce := { State.reset.plan.inForce with slices := [(1, 1)] }
  svc.insts := [firstTwin, secondTwin] }

/-- The wait call writes the mask of the first into both. -/
theorem woeriWait_twins : ∃ t, exec (.woeriWait 1 none none) twins = .next t ∧ t.svc.insts.map (·.mask) = [0, 0] :=
  ⟨_, rfl, by decide⟩

/-- Refutes O42: nothing in the statement says that the instances of a state have different numbers. On `twins`, whose two instances have one number, a wait
call gives both of them the mask of the one that made it, where its clause leaves the mask of the other as it was. -/
theorem not_woeriCalls : ¬ Obligations.WoeriCalls := by
  intro h
  obtain ⟨-, -, hwait, -⟩ := h twins 1 firstTwin (by decide) (by decide) (by decide) (by decide) (by decide) (by decide)
  obtain ⟨t, hx, ht, -⟩ := hwait (by decide)
  obtain ⟨u, hx', hu⟩ := woeriWait_twins
  obtain rfl : t = u := by
    rw [hx] at hx'
    injection hx'
  have hmask : t.svc.insts.map (·.mask) = [0, 1] := by
    have hi : t.svc.insts.map InstSt.hush = _ := congrArg (fun w : State => w.svc.insts) ht
    have hm := congrArg (List.map InstSt.mask) hi
    rw [List.map_map] at hm
    exact hm
  rw [hu] at hmask
  exact absurd hmask (by decide)

end Sys2Proof.Machine

/-! Restarts, lost cores and the shipped services (R396, R398, R400 to R403), clause by clause. -/
namespace Sys2Proof.Machine

variable {s : State}

/-! ### One instance -/

/-- What an event's delivery leaves of an instance. -/
theorem inst_map_of_hush {γ : Type} {φ : InstSt → γ} (hφ : ∀ x : InstSt, φ x.hush = φ x) {s u : State} (h : u.hush = s.hush) (i : Nat) :
    (u.inst i).map φ = (s.inst i).map φ := by
  have key : ∀ w : State, (w.inst i).map φ = ((w.svc.insts.map InstSt.hush).find? fun x => x.id == i).map φ := fun w => by
    rw [List.find?_map, Option.map_map]
    exact congrArg (fun g : InstSt → γ => (w.inst i).map g) (funext fun x => (hφ x).symm)
  have hm : u.svc.insts.map InstSt.hush = s.svc.insts.map InstSt.hush := congrArg (fun w : State => w.svc.insts) h
  rw [key, key, hm]

/-- What is done to an instance, where the number stays. -/
theorem State.inst_setInst {f : InstSt → InstSt} (s : State) (i : Nat) (hf : ∀ x : InstSt, x.id = i → (f x).id = i) :
    (s.setInst i f).inst i = (s.inst i).map f := by
  have hp : ((fun x : InstSt => x.id == i) ∘ fun x => if x.id == i then f x else x) = fun x => x.id == i := by
    funext x
    by_cases hx : x.id = i
    · simp [hx, hf x hx]
    · simp [hx]
  unfold State.inst State.setInst
  dsimp only
  rw [List.find?_map, hp]
  cases h : s.svc.insts.find? fun x => x.id == i with
  | none => rfl
  | some x =>
    have hx : (x.id == i) = true := List.find?_some (p := fun x : InstSt => x.id == i) h
    exact congrArg some (if_pos hx)

theorem State.inst_begin (s : State) (i : Nat) : s.begin.inst i = s.inst i := rfl

theorem inst_id {i : Nat} {x : InstSt} (h : s.inst i = some x) : x.id = i := by
  have := List.find?_some h
  simpa using this

/-! ### Restarts (R398) -/

/-- A change of an instance that leaves its number, state, core, slots and point leaves the room on the cores. -/
theorem hasRoom_setInst {f : InstSt → InstSt} (s : State) (i : Nat)
    (hf : ∀ x, ((f x).id, (f x).state, (f x).core, (f x).slots, (f x).opp) = (x.id, x.state, x.core, x.slots, x.opp)) (k slots opp : Nat) :
    (s.setInst i f).hasRoom k slots opp = s.hasRoom k slots opp := by
  have hg : ∀ x : InstSt, ((if x.id == i then f x else x).id, (if x.id == i then f x else x).state, (if x.id == i then f x else x).core,
      (if x.id == i then f x else x).slots, (if x.id == i then f x else x).opp) = (x.id, x.state, x.core, x.slots, x.opp) := fun x => by
    split
    · exact hf x
    · rfl
  simp only [Prod.mk.injEq] at hg
  have hplaced : ∀ x : InstSt, (s.setInst i f).placedOn (if x.id == i then f x else x) = s.placedOn x := fun x => by
    obtain ⟨hid, -, hcore, -, -⟩ := hg x
    simp only [State.placedOn, hid, hcore]
    rfl
  have hworks : (s.setInst i f).coreWorks k = s.coreWorks k := by
    have hp : ((fun x : InstSt => (x.state == 1 || x.state == 3) && (s.setInst i f).placedOn x == k) ∘ fun x => if x.id == i then f x else x)
        = fun x => (x.state == 1 || x.state == 3) && s.placedOn x == k := by
      funext x
      obtain ⟨-, hstate, -, -, -⟩ := hg x
      simp only [Function.comp_apply, hplaced, hstate]
    have hw : ((fun x : InstSt => (x.slots, x.opp)) ∘ fun x => if x.id == i then f x else x) = fun x => (x.slots, x.opp) := by
      funext x
      obtain ⟨-, -, -, hslots, hopp⟩ := hg x
      simp only [Function.comp_apply, hslots, hopp]
    have hinsts : (s.setInst i f).svc.insts = s.svc.insts.map fun x => if x.id == i then f x else x := rfl
    unfold State.coreWorks State.instsOn
    rw [hinsts, List.filter_map, List.map_map, hp, hw]
  simp only [State.hasRoom, hworks]

/-- What a new run of an instance leaves of it: the number, the core and the state of one that runs, and its history. -/
theorem State.beginInst_gives {i core cls : Nat} {p : SvcPkg} {o : InstSt} {s : State} (h : s.inst i = some o) :
    let t := s.beginInst i core cls p
    (t.inst i).map (·.state) = some 1 ∧ (t.inst i).map (·.core) = some core ∧ (t.inst i).map (·.restartDue) = some none
      ∧ (t.inst i).map (·.restarts) = some o.restarts ∧ Heard 1 s t 136 (i % 65536 + 65536 * (core % 8)) := by
  intro t
  have ht : t = (s.setInst i fun _ => { InstSt.fresh i core cls p (s.startCaps i p) with
      persist := o.persist, restarts := o.restarts, faults := o.faults, lastFault := o.lastFault }).raise 136 (i % 65536 + 65536 * (core % 8)) := by
    show s.beginInst i core cls p = _
    unfold State.beginInst
    rw [h]
  clear_value t
  subst ht
  have hi := s.inst_setInst (f := fun _ => { InstSt.fresh i core cls p (s.startCaps i p) with
      persist := o.persist, restarts := o.restarts, faults := o.faults, lastFault := o.lastFault }) i fun _ _ => rfl
  rw [h] at hi
  have hm {γ : Type} {φ : InstSt → γ} (hφ : ∀ x : InstSt, φ x.hush = φ x) := inst_map_of_hush hφ (State.hush_raise (s.setInst i fun _ => { InstSt.fresh i core cls p (s.startCaps i p) with
      persist := o.persist, restarts := o.restarts, faults := o.faults, lastFault := o.lastFault }) 136 (i % 65536 + 65536 * (core % 8))) i
  rw [hi] at hm
  exact ⟨hm fun _ => rfl, hm fun _ => rfl, hm fun _ => rfl, hm fun _ => rfl, heard_raise_mbx rfl rfl rfl⟩

theorem State.cv_setInst (s : State) (i : Nat) (f : InstSt → InstSt) (x : FieldDef) : (s.setInst i f).cv x = s.cv x := rfl

theorem State.pkg_setInst (s : State) (i : Nat) (f : InstSt → InstSt) (j : Nat) : (s.setInst i f).pkg j = s.pkg j := rfl

theorem State.coreEnabled_setInst (s : State) (i : Nat) (f : InstSt → InstSt) (k : Nat) : (s.setInst i f).coreEnabled k = s.coreEnabled k := rfl

theorem instanceRestart_begins {i : Nat} {x : InstSt} {p : SvcPkg} {t0 : Tick} (ha : s.awake = true) (hi : s.inst i = some x) (hd : x.restartDue = some t0)
    (hp : s.passed t0 1 = true) (hl : (s.recentRestarts x).length < s.cv Fld.SVC_RESTART_LIMIT) (hk : s.pkg i = some p)
    (he : s.coreEnabled x.core = true) (hr : s.hasRoom x.core p.slots p.opp = true) :
    Gives (.instanceRestart i) s fun t => (t.inst i).map (·.state) = some 1 ∧ (t.inst i).map (·.core) = some x.core
      ∧ (t.inst i).map (·.restartDue) = some none ∧ (t.inst i).map (·.restarts) = some (s.recentRestarts x ++ [s.time.tick])
      ∧ Heard 1 s t 136 (i % 65536 + 65536 * (x.core % 8)) := by
  refine gives_of_run (execInstanceRestart.eq_1 i s) ha ?_
  have hi' : s.begin.inst i = some x := hi
  have hdue : (x.restartDue.any fun t => s.begin.passed t 1) = true := by rw [hd]; exact hp
  have hlim : ¬ s.begin.cv Fld.SVC_RESTART_LIMIT ≤ (s.begin.recentRestarts x).length := Nat.not_le.mpr hl
  rw [hi']
  dsimp only
  rw [hdue, if_neg (by decide)]
  have hu := s.begin.inst_setInst (f := fun y => { y with restartDue := none, restarts := s.begin.recentRestarts x }) i fun _ h => h
  have hw := (s.begin.setInst i fun y => { y with restartDue := none, restarts := s.begin.recentRestarts x }).inst_setInst
    (f := fun y => { y with restarts := y.restarts ++ [s.time.tick] }) i fun _ h => h
  rw [hu, hi'] at hw
  have hk' : s.begin.pkg i = some p := hk
  have he' : s.begin.coreEnabled x.core = true := he
  have hr' : s.begin.hasRoom x.core p.slots p.opp = true := hr
  rw [State.cv_setInst, if_neg hlim, State.pkg_setInst, State.pkg_setInst, hk']
  dsimp only
  rw [State.coreEnabled_setInst, State.coreEnabled_setInst, hasRoom_setInst _ _ ?_, hasRoom_setInst _ _ ?_, he', hr',
    Bool.and_self, if_pos rfl]
  · exact State.beginInst_gives (core := x.core) (cls := x.cls) (p := p) hw
  · exact fun _ => rfl
  · exact fun _ => rfl

theorem instanceRestart_stops {i : Nat} {x : InstSt} {t0 : Tick} (ha : s.awake = true) (hi : s.inst i = some x) (hd : x.restartDue = some t0)
    (hp : s.passed t0 1 = true) (hl : s.cv Fld.SVC_RESTART_LIMIT ≤ (s.recentRestarts x).length) :
    Gives (.instanceRestart i) s fun t => (t.inst i).map (·.restartDue) = some none ∧ Heard 1 s t 137 (i % 65536 + 131072) := by
  refine gives_of_run (execInstanceRestart.eq_1 i s) ha ?_
  have hi' : s.begin.inst i = some x := hi
  have hdue : (x.restartDue.any fun t => s.begin.passed t 1) = true := by rw [hd]; exact hp
  have hlim : s.begin.cv Fld.SVC_RESTART_LIMIT ≤ (s.begin.recentRestarts x).length := hl
  rw [hi']
  dsimp only
  have hu := s.begin.inst_setInst (f := fun y => { y with restartDue := none, restarts := s.begin.recentRestarts x }) i fun _ h => h
  rw [hdue, if_neg (by decide), State.cv_setInst, if_pos hlim, inst_map_of_hush (fun _ => rfl) (State.hush_raise ..), hu, hi']
  exact ⟨rfl, heard_raise_mbx rfl rfl rfl⟩

theorem instanceRestart_early {i : Nat} {x : InstSt} {t0 : Tick} (hi : s.inst i = some x) (hd : x.restartDue = some t0) (hp : s.passed t0 1 = false) :
    Leaves (.instanceRestart i) s s := by
  refine leaves_of_runIf (execInstanceRestart.eq_1 i s) ?_
  have hi' : s.begin.inst i = some x := hi
  have hdue : (x.restartDue.any fun t => s.begin.passed t 1) = false := by rw [hd]; simpa using hp
  rw [hi']
  dsimp only
  rw [hdue, Bool.not_false, if_pos rfl]
  rfl

/-! ### A lost core (R396) -/

theorem coreHeartbeatLoss_loses {k j : Nat} (ha : s.awake = true) (hk : k ≤ 7) (hj : j ≤ 7) (hjk : j ≠ k) (hs : (s.core k).state = 1)
    (hm : 8 ≤ (s.core k).mute) (he : s.coreEnabled j = true) (hi : s.svc.insts = []) :
    Gives (.coreHeartbeatLoss k) s fun t =>
      t.hush = (s.setCore k fun c => { c with state := 4, cur := 0, left := 0 }).hush ∧ Heard 1 s t 140 (k + 32) := by
  refine gives_of_run (execCoreHeartbeatLoss.eq_1 k s) ha ?_
  have hs' : (s.begin.core k).state = 1 := hs
  have hi' : s.begin.svc.insts = [] := hi
  rw [if_pos (show 8 ≤ (s.begin.core k).mute from hm)]
  unfold State.loseCore
  rw [hs', hi', if_neg (by simpa using hk)]
  have hen : ((s.begin.setCore k fun c => { c with state := 4, cur := 0, left := 0 }).raise 140 (k + 16 * 2)).coreEnabled j = true := by
    rw [coreEnabled_of_still (State.still_raise ..)]
    have hcore : (s.begin.setCore k fun c => { c with state := 4, cur := 0, left := 0 }).core j = s.core j := nth_modify_ne _ _ _ _ _ hjk.symm
    simp only [State.coreEnabled, hcore]
    exact he
  have hany : ((upTo 8).any fun j => ((s.begin.setCore k fun c => { c with state := 4, cur := 0, left := 0 }).raise 140 (k + 16 * 2)).coreEnabled j) = true :=
    List.any_eq_true.mpr ⟨j, by simpa [upTo] using (by omega : j < 8), hen⟩
  dsimp only
  rw [hany, if_pos rfl]
  exact ⟨State.hush_raise .., heard_raise_mbx rfl rfl rfl⟩

theorem coreHeartbeatLoss_beats {k : Nat} (hm : (s.core k).mute < 8) : Leaves (.coreHeartbeatLoss k) s s := by
  refine leaves_of_runIf (execCoreHeartbeatLoss.eq_1 k s) ?_
  rw [if_neg (show ¬ 8 ≤ (s.begin.core k).mute from Nat.not_le.mpr hm)]
  rfl

end Sys2Proof.Machine

/-! The shipped services (R400 to R403), clause by clause: the overlay and the status line, the rules of presence and the renewal of leases, the wake on
a key, and the report to the fleet's server. -/
namespace Sys2Proof.Machine

variable {s : State}

/-! ### The overlay of a held display (R400) -/

theorem displayHoldOverlayOn_shows {k src x y w h : Nat} {v : StreamSt} (ha : s.awake = true) (hr : s.svcRuns 1 = true) (hk : k ≤ 3)
    (hsrc : s.isSource k = true) (hv : s.disp.streams = [v]) (hcap : v.capture = false) (hdpx : v.dpx = k) (hst : v.state = 3)
    (hdsc : v.desc.map (·.dsc) ≠ some true) (hw : 0 < w) (hw' : w ≤ 3840) (hh : 0 < h) (hh' : h ≤ 2160) (hmib : s.cv Fld.HOLD_REGION_MIB ≠ 0) :
    Leaves (.displayHoldOverlayOn k true src x y w h none) s
      ((s.copyMem (lpddrBase + s.svcBase + s.dataBase 1 + src) (lpddrBase + s.holdBase + overlaySlot k) (4 * w * h)).setDpx k
        fun d => { d with overlay := (true, x, y, w, h, overlaySlot k) }) := by
  refine gives_of_run (execDisplayHoldOverlayOn.eq_1 k true src x y w h none s) ha ?_
  have hr' : s.begin.svcRuns 1 = true := hr
  have hsrc' : s.begin.isSource k = true := hsrc
  have hv' : s.begin.disp.streams = [v] := hv
  have hmib' : s.begin.cv Fld.HOLD_REGION_MIB ≠ 0 := hmib
  have hheld : [v].filter (fun x => !x.capture && x.dpx == k && x.state == 3) = [v] := by simp [hcap, hdpx, hst]
  have hplain : ((v.desc.map (·.dsc)).getD false) = false := by
    cases hd : v.desc.map (·.dsc) with
    | none => rfl
    | some b =>
      cases b
      · rfl
      · exact absurd hd hdsc
  have hnone : [v].filter (fun x => (x.desc.map (·.dsc)).getD false) = [] := by simp [hplain]
  dsimp only
  rw [hr', hsrc', if_neg (by simp; omega), if_neg (by decide), hv', hheld, hnone, if_neg (by simp; omega)]
  rfl

theorem displayHoldOverlayOn_hides {k src x y w h : Nat} {r : Option (Nat × Nat × Nat × List Byte)} (ha : s.awake = true) (hr : s.svcRuns 1 = true)
    (hk : k ≤ 3) (hsrc : s.isSource k = true) :
    Leaves (.displayHoldOverlayOn k false src x y w h r) s (s.setDpx k fun d => { d with overlay := (false, d.overlay.2) }) := by
  refine gives_of_run (execDisplayHoldOverlayOn.eq_1 k false src x y w h r s) ha ?_
  have hr' : s.begin.svcRuns 1 = true := hr
  have hsrc' : s.begin.isSource k = true := hsrc
  rw [hr', hsrc', if_neg (by simp; omega), if_pos (by decide)]
  rfl

theorem dhStatusRedraw_draws {k x y w h off : Nat} {px : List Byte} (ha : s.awake = true) (hr : s.svcRuns 1 = true) (hl : s.cv Fld.DH_STATUS_LINE ≠ 0)
    (hk : k ≤ 3) (ho : (s.dpx k).overlay = (true, x, y, w, h, off)) (hn : nth s.svc.redrawAt k none = none) :
    Leaves (.dhStatusRedraw k px) s
      (({ s with svc := { s.svc with redrawAt := put s.svc.redrawAt k (some s.time.tick) } } : State).storeMem
        (lpddrBase + s.holdBase + off + 4 * w * (h - min 32 h)) (px.take (4 * w * min 32 h))) := by
  refine gives_of_run (execDhStatusRedraw.eq_1 k px s) ha ?_
  have hr' : s.begin.svcRuns 1 = true := hr
  have hl' : s.begin.cv Fld.DH_STATUS_LINE ≠ 0 := hl
  have ho' : (s.begin.dpx k).overlay = (true, x, y, w, h, off) := ho
  have hn' : nth s.begin.svc.redrawAt k none = none := hn
  rw [ho', hn']
  dsimp only
  rw [hr', if_neg (by simp; exact ⟨hl, hk⟩)]
  rfl

theorem dhStatusRedraw_early {k : Nat} {px : List Byte} {t0 : Tick} (hn : nth s.svc.redrawAt k none = some t0) (hp : s.passed t0 (secTicks 1) = false) :
    Leaves (.dhStatusRedraw k px) s s := by
  refine leaves_of_runIf (execDhStatusRedraw.eq_1 k px s) ?_
  have hn' : nth s.begin.svc.redrawAt k none = some t0 := hn
  have hp' : s.begin.passed t0 (secTicks 1) = false := hp
  rw [hn']
  generalize (s.begin.dpx k).overlay = o
  obtain ⟨on, x, y, w, h, off⟩ := o
  dsimp only
  rw [Option.any_some, hp', if_pos (by simp)]
  rfl

/-! ### The network while the host is away (R401) -/

theorem netPresenceRules_adds {absent : Bool} (ha : s.awake = true) (hr : s.svcRuns 2 = true) (hn : s.netPort = true) (hab : s.net.absent = absent) :
    Gives (.netPresenceRules absent) s fun t => ∃ a b, t.net.ruleNext = s.net.ruleNext ++ [a, b] ∧ a.index = 254 ∧ b.index = 255
      ∧ a.isSet = absent ∧ b.isSet = absent ∧ a.act = ⟨0, 0, 3, 0, false⟩ ∧ b.act = ⟨0, 0, 3, 0, false⟩
      ∧ a.value = keyWith [(5, 17), (40, 68)] ∧ b.value = keyWith [(5, 58)] := by
  refine gives_of_run (execNetPresenceRules.eq_1 absent s) ha ?_
  have hr' : s.begin.svcRuns 2 = true := hr
  have hn' : s.begin.netPort = true := hn
  have hab' : s.begin.net.absent = absent := hab
  rw [hr', hn', hab', if_neg (by simp)]
  exact ⟨_, _, rfl, rfl, rfl, rfl, rfl, rfl, rfl, rfl, rfl⟩

theorem macSend_net (s : State) (m : Nat) (f : List Byte) : ∃ n o, s.macSend m f = { s with net := n, out := o } ∧ n.v4 = s.net.v4 := by
  unfold State.macSend
  split
  · exact ⟨_, _, rfl, rfl⟩
  · split
    · exact ⟨_, _, rfl, rfl⟩
    · exact ⟨_, _, rfl, rfl⟩

theorem dhcpRenewal_sends {k : Nat} {rn : List Byte} (ha : s.awake = true) (hr : s.svcRuns 2 = true) (hn : s.netPort = true)
    (hnp : s.cv Fld.NP_DHCP_RENEW = 1) (hex : ∃ e ∈ s.net.v4, e.1 = k) (hpath : s.svcPath = true) :
    Leaves (.dhcpRenewal k rn [] []) s (s.macSend s.net.boundMac rn) := by
  refine gives_of_run (execDhcpRenewal.eq_1 k rn [] [] s) ha ?_
  have hr' : s.begin.svcRuns 2 = true := hr
  have hn' : s.begin.netPort = true := hn
  have hnp' : s.begin.cv Fld.NP_DHCP_RENEW = 1 := hnp
  have hpath' : s.begin.svcPath = true := hpath
  obtain ⟨e, he, hek⟩ := hex
  have hany : (s.begin.net.v4.any fun e => e.1 == k) = true := List.any_eq_true.mpr ⟨e, he, by simpa using hek⟩
  rw [hr', hn', if_neg (by decide), hnp', hany, hpath', if_pos (by decide)]
  refine (State.hush_raiseIf ..).trans ?_
  have hu : (s.begin.macSend (s.begin.svcMac 2) rn).hush = (s.macSend s.net.boundMac rn).hush := by
    unfold State.macSend
    have h2 : s.begin.svcMac 2 = s.net.boundMac := rfl
    rw [h2, apply_ite State.hush, apply_ite State.hush, apply_ite State.hush, apply_ite State.hush]
    rfl
  generalize s.begin.macSend (s.begin.svcMac 2) rn = u at hu
  rw [← hu]
  have hall {α β : Type} [BEq β] (g : α → β) (l : List α) : l.filter (fun e => !([] : List β).contains (g e)) = l :=
    List.filter_eq_self.mpr fun _ _ => rfl
  rw [hall Prod.fst, hall Prod.fst]

theorem dhcpRenewal_lost {rn : List Byte} (ha : s.awake = true) (hr : s.svcRuns 2 = true) (hn : s.netPort = true) (hv : s.net.v4 = [(0, 1, false)])
    (hw : s.cv Fld.NP_WAKE_ON_LOSS = 1) : Gives (.dhcpRenewal 0 rn [0] []) s fun t => t.net.v4 = [] ∧ Heard 1 s t 142 2 := by
  refine gives_of_run (execDhcpRenewal.eq_1 0 rn [0] [] s) ha ?_
  have hr' : s.begin.svcRuns 2 = true := hr
  have hn' : s.begin.netPort = true := hn
  rw [hr', hn', if_neg (by decide)]
  extract_lets u lost old v
  have hu : ∃ n o, u = { s with net := n, out := o } ∧ n.v4 = s.net.v4 := by
    dsimp only [u]
    split
    · exact macSend_net s.begin _ _
    · exact ⟨s.net, [], rfl, rfl⟩
  obtain ⟨n, o, hu, hn4⟩ := hu
  clear_value u
  subst hu
  have hc : (lost && v.cv Fld.NP_WAKE_ON_LOSS == 1) = true := by
    have hlost : lost = true := by simp [lost, hn4, hv]
    have hcv : v.cv Fld.NP_WAKE_ON_LOSS = 1 := hw
    rw [hlost, hcv]
    rfl
  clear_value lost
  rw [State.raiseIf, if_pos hc]
  refine ⟨?_, heard_raise_mbx rfl rfl rfl⟩
  have hv4 : v.net.v4 = [] := by simp [v, hn4, hv]
  rw [State.raise_net]
  exact hv4

/-! ### The wake on a key (R402) -/

theorem kaWake_raises {u : State} (hk : u.cv Fld.KA_WAKE_ON_HID = 1) (hr : u.svcRuns 3 = true) (reason : Nat) :
    u.kaWake reason = u.raise 142 (3 + 65536 * reason) := by
  unfold State.kaWake
  rw [hk]
  exact if_pos hr

theorem keepaliveHidWake_overflows (ha : s.awake = true) (hk : s.cv Fld.KA_WAKE_ON_HID = 1) (hr : s.svcRuns 3 = true) :
    Gives (.keepaliveHidWake true) s fun t => t.hush = s.hush ∧ Heard 1 s t 142 131075 := by
  refine gives_of_run (execKeepaliveHidWake.eq_1 true s) ha ?_
  rw [if_pos rfl, kaWake_raises (u := s.begin) hk hr]
  exact ⟨State.hush_raise .., heard_raise_mbx rfl rfl rfl⟩

theorem keepaliveHidWake_wakes {r : HidReport} (ha : s.awake = true) (hk : s.cv Fld.KA_WAKE_ON_HID = 1) (hr : s.svcRuns 3 = true)
    (hab : s.usb.absent = true) (hno : s.svc.hidWoke = false) (hmem : r ∈ s.usb.hid) (hb : ∃ b ∈ r.bytes, b ≠ 0) :
    Gives (.keepaliveHidWake false) s fun t => t.hush = ({ s with svc := { s.svc with hidWoke := true } } : State).hush
      ∧ Heard 1 s t 142 65539 := by
  refine gives_of_run (execKeepaliveHidWake.eq_1 false s) ha ?_
  have hab' : s.begin.usb.absent = true := hab
  have hno' : s.begin.svc.hidWoke = false := hno
  obtain ⟨b, hb, hb0⟩ := hb
  have hany : (s.begin.usb.hid.any fun r => r.bytes.any (· != 0)) = true :=
    List.any_eq_true.mpr ⟨r, hmem, List.any_eq_true.mpr ⟨b, hb, by simpa using hb0⟩⟩
  rw [if_neg (by decide), hab', hno', hany, if_pos (by decide),
    kaWake_raises (u := ({ s.begin with svc := { s.begin.svc with hidWoke := true } } : State)) hk hr]
  exact ⟨State.hush_raise .., heard_raise_mbx rfl rfl rfl⟩

/-! ### The report to the fleet's server (R403) -/

/-- What the report leaves alone, and what it sends. -/
theorem fleetReport_sends {u : State} (hen : u.cv Fld.FLEET_ENABLE = 1) (hr : u.svcRuns 4 = true) :
    u.fleetReport.mbx = u.mbx ∧ u.fleetReport.time = u.time ∧ u.fleetReport.svc.fleetMiss = u.svc.fleetMiss
      ∧ (∀ f, u.fleetReport.cv f = u.cv f)
      ∧ (u.svcPath = true → Emit.fleetReport (u.cv Fld.FLEET_SERVER) (u.cv Fld.FLEET_PORT) (u.cv Fld.FLEET_MAC)
          (mailboxes.map fun c => u.status c) (((u.inst 4).map (·.events)).getD []) ∈ u.fleetReport.out) := by
  unfold State.fleetReport
  rw [hen, hr, if_pos (by decide)]
  dsimp only
  split
  · exact ⟨rfl, rfl, rfl, fun _ => rfl, fun _ => List.mem_append_right _ (.head _)⟩
  next hno => exact ⟨rfl, rfl, rfl, fun _ => rfl, fun hp => absurd hp hno⟩

theorem fleetReport_early {a : Option Nat} {t0 : Tick} (hat : s.svc.fleetAt = some t0)
    (hp : s.passed t0 (secTicks (s.cv Fld.FLEET_PERIOD_S)) = false) : Leaves (.fleetReport a) s s := by
  refine leaves_of_runIf (execFleetReport.eq_1 a s) ?_
  have hat' : s.begin.svc.fleetAt = some t0 := hat
  have hp' : s.begin.passed t0 (secTicks (s.begin.cv Fld.FLEET_PERIOD_S)) = false := hp
  dsimp only
  rw [hat', Option.any_some, hp', if_pos (by simp)]
  rfl

theorem fleetReport_missed (ha : s.awake = true) (hen : s.cv Fld.FLEET_ENABLE = 1) (hr : s.svcRuns 4 = true) (hat : s.svc.fleetAt = none)
    (hm : s.svc.fleetMiss = 2) :
    Gives (.fleetReport none) s fun t => t.svc.fleetMiss = 3 ∧ t.svc.fleetAt = some s.time.tick ∧ Heard 1 s t 143 4
      ∧ (s.svcPath = true → Emit.fleetReport (s.cv Fld.FLEET_SERVER) (s.cv Fld.FLEET_PORT) (s.cv Fld.FLEET_MAC)
          (mailboxes.map fun c => s.status c) (((s.inst 4).map (·.events)).getD []) ∈ t.out) := by
  refine gives_of_run (execFleetReport.eq_1 none s) ha ?_
  have hen' : s.begin.cv Fld.FLEET_ENABLE = 1 := hen
  have hr' : s.begin.svcRuns 4 = true := hr
  have hat' : s.begin.svc.fleetAt = none := hat
  obtain ⟨hmbx, htime, hmiss, -, hout⟩ := fleetReport_sends hen' hr'
  dsimp only
  rw [hen', hr', hat', if_neg (by simp)]
  generalize s.begin.fleetReport = u at hmbx htime hmiss hout ⊢
  have h2 : u.svc.fleetMiss = 2 := hmiss.trans hm
  rw [if_neg (by simp), h2, State.raiseIf, if_pos (beq_self_eq_true (2 : Nat))]
  refine ⟨by rw [State.raise_svc_fleetMiss]; rfl, ?_, heard_raise_mbx (congrArg (·.tick) htime) (congrArg (·.slot) htime) hmbx, fun hp => ?_⟩
  · rw [State.raise_svc]
    exact congrArg (fun x : TimeSt => some x.tick) htime
  · rw [State.raise_out]
    exact hout hp

theorem fleetReport_returns (ha : s.awake = true) (hen : s.cv Fld.FLEET_ENABLE = 1) (hr : s.svcRuns 4 = true) (hat : s.svc.fleetAt = none)
    (hm : 3 ≤ s.svc.fleetMiss) :
    Gives (.fleetReport (some (s.cv Fld.FLEET_KEYID))) s fun t => t.svc.fleetMiss = 0 ∧ Heard 1 s t 143 65540 := by
  refine gives_of_run (execFleetReport.eq_1 _ s) ha ?_
  have hen' : s.begin.cv Fld.FLEET_ENABLE = 1 := hen
  have hr' : s.begin.svcRuns 4 = true := hr
  have hat' : s.begin.svc.fleetAt = none := hat
  obtain ⟨hmbx, htime, hmiss, hcv, -⟩ := fleetReport_sends hen' hr'
  dsimp only
  rw [hen', hr', hat', if_neg (by simp)]
  generalize s.begin.fleetReport = u at hmbx htime hmiss hcv ⊢
  have h3 : Decidable.decide (3 ≤ u.svc.fleetMiss) = true := decide_eq_true (hmiss ▸ hm)
  have hkey (v : SvcSt) : ({ u with svc := v } : State).cv Fld.FLEET_KEYID = s.cv Fld.FLEET_KEYID := (hcv Fld.FLEET_KEYID :)
  rw [hkey, if_pos (beq_self_eq_true (some (s.cv Fld.FLEET_KEYID))), h3, State.raiseIf, if_pos rfl]
  exact ⟨by rw [State.raise_svc_fleetMiss], heard_raise_mbx (congrArg (·.tick) htime) (congrArg (·.slot) htime) hmbx⟩

/-- Settles O43, clause by clause. -/
theorem servicesAndFaults : Obligations.ServicesAndFaults := fun _ ha =>
  ⟨fun _ _ _ _ => instanceRestart_begins ha, fun _ _ _ => instanceRestart_stops ha, fun _ _ _ => instanceRestart_early,
    fun _ _ => coreHeartbeatLoss_loses ha, fun _ => coreHeartbeatLoss_beats, fun _ _ _ _ _ _ _ => displayHoldOverlayOn_shows ha,
    fun _ _ _ _ _ _ _ => displayHoldOverlayOn_hides ha, fun _ _ _ _ _ _ _ => dhStatusRedraw_draws ha, fun _ _ _ => dhStatusRedraw_early,
    fun _ => netPresenceRules_adds ha, fun _ _ => dhcpRenewal_sends ha, fun _ => dhcpRenewal_lost ha,
    fun hk hr => keepaliveHidWake_overflows ha hk hr, fun _ => keepaliveHidWake_wakes ha, fleetReport_missed ha, fleetReport_returns ha,
    fun _ _ => fleetReport_early⟩

end Sys2Proof.Machine

/-! PEER, forwarding, long commands, credentials and UNATT (R14, R49, R59 to R71), clause by clause. -/
namespace Sys2Proof.Machine

variable {s : State}

/-! ### PEER messages -/

theorem peerMessage_short {p : Nat} {bs : List Byte} (ha : s.awake = true) (hp : p ≤ 1) (hu : s.linkUp p = true) (hl : bs.length < 16) :
    Gives (.peerMessage p bs) s fun t => t.hush = s.hush ∧ Heard 1 s t 5 2 := by
  refine gives_of_run (execPeerMessage.eq_1 p bs s) ha ?_
  have hu' : s.begin.linkUp p = true := hu
  rw [hu', if_neg (by simp; omega), if_pos (by simp; omega)]
  exact ⟨State.hush_raise .., heard_raise_mbx rfl rfl rfl⟩

theorem peerMessage_waits {p : Nat} {bs : List Byte} (ha : s.awake = true) (hp : p ≤ 1) (hu : s.linkUp p = true) (h16 : 16 ≤ bs.length)
    (hmax : bs.length ≤ 1040) (hlen : bs.length = 16 + leAt 4 2 bs) (hst : s.mbx.peer.stored = none) (hfw : s.fwRuns = true)
    (hop : leAt 0 2 bs < 0x0A80 ∨ 0x0A86 < leAt 0 2 bs) (hrow : (cmdRow? (leAt 0 2 bs)).isSome = true) :
    Gives (.peerMessage p bs) s fun t =>
      t.mbx.waiting = enterWait ⟨parseReq (.peer p) bs, s.time.tick, s.time.slot, none⟩ s.mbx.waiting := by
  refine gives_of_run (execPeerMessage.eq_1 p bs s) ha ?_
  have hu' : s.begin.linkUp p = true := hu
  have hwhole : (parseReq (.peer p) bs).whole = true := by
    simp only [Msg.whole, parseReq, List.length_drop, beq_iff_eq]
    omega
  rw [hu', if_neg (by simp; omega), if_neg (by simp; omega)]
  dsimp only
  have hcable : ¬ (Decidable.decide (0x0A80 ≤ (parseReq (.peer p) bs).opcode) && Decidable.decide ((parseReq (.peer p) bs).opcode ≤ 0x0A86)) = true := by
    rw [Bool.and_eq_true, decide_eq_true_iff, decide_eq_true_iff]
    show ¬ (0x0A80 ≤ leAt 0 2 bs ∧ leAt 0 2 bs ≤ 0x0A86)
    omega
  rw [if_neg hcable, hwhole]
  obtain ⟨a, c, d, hh, -⟩ := State.submit_waits (s := s.begin) (m := parseReq (.peer p) bs) hst hfw rfl (by show leAt 4 2 bs ≤ 1024; omega) hrow
  exact (congrArg (fun w : State => w.mbx.waiting) hh :)

/-! ### Forwarded requests (R70, R71) -/

/-- The only forwarded request is the one that its port and tag name. -/
theorem forwardOf_only {f : Fwd} (hf : s.mbx.forwards = [f]) (hs : f.sent = true) : s.forwardOf f.port f.msg.rq.tag = some f := by
  simp [State.forwardOf, hf, hs]

theorem dropForward_only {f : Fwd} (hf : s.mbx.forwards = [f]) : s.dropForward f = { s with mbx := { s.mbx with forwards := [] } } := by
  unfold State.dropForward
  rw [hf, List.erase_cons_head]
  rfl

theorem forwardedReply_relays {f : Fwd} {up : Nat} {bs : List Byte} (ha : s.awake = true) (hf : s.mbx.forwards = [f]) (hs : f.sent = true)
    (ho : f.origin = .relay up) (hl : 16 ≤ bs.length) (ht : BitVec.ofNat 16 (leAt 4 2 bs) = f.msg.rq.tag) :
    Leaves (.forwardedReply f.port bs) s ({ s with mbx := { s.mbx with forwards := [] } } |>.peerSend up bs) := by
  refine gives_of_run (execForwardedReply.eq_1 f.port bs s) ha ?_
  have hf' : s.begin.mbx.forwards = [f] := hf
  rw [if_neg (by omega), ht, forwardOf_only hf' hs]
  dsimp only [State.forwardDone]
  rw [dropForward_only hf', ho]
  rfl

/-- What a completion leaves on its channel (R67): the result on its handle, and CMD_COMPLETE. -/
theorem State.finish_gives {via : Via} {h rc : Nat} {data : List Byte} {j : Job} {s : State}
    (hj : ((s.chan (viaChan via)).jobs.find? fun j => j.handle == h && j.result == none) = some j) :
    let t := s.finish via h rc data
    (t.chan (viaChan via)).jobs = ((s.chan (viaChan via)).jobs.map fun k =>
        if k.handle == h then { k with result := some (rc, data), since := s.time.tick } else k)
      ∧ t.mbx.forwards = s.mbx.forwards
      ∧ ((s.chan (viaChan via)).mask.getLsbD 4 = true → (s.chan (viaChan via)).queue.length < 255 →
          s.event 4 (h + 65536 * rc) ∈ (t.chan (viaChan via)).queue) := by
  intro t
  have ht : t = (s.modChan (viaChan via) fun x => { x with
      jobs := x.jobs.map fun j => if j.handle == h then { j with result := some (rc, data), since := s.time.tick } else j }).raiseOn (viaChan via) 4
        (h + 65536 * rc) := by
    show s.finish via h rc data = _
    unfold State.finish
    dsimp only
    rw [hj]
  clear_value t
  subst ht
  generalize viaChan via = c
  have hchan : ∀ (u : State) (k : Nat) (bs : List Byte), (u.spore 2 k bs).chan c = u.chan c := fun u k bs => by
    cases c <;> simp only [State.chan, State.spore_mbx]
  unfold State.raiseOn
  dsimp only
  rw [hchan, State.modChan, State.setChan_chan_self, State.modChan, State.setChan_chan_self]
  refine ⟨ChanSt.enter_jobs .., ?_, fun hm hl => ?_⟩
  · rw [State.spore_mbx]
    cases c <;> rfl
  · unfold ChanSt.enter
    rw [if_pos hm, if_pos hl]
    exact (mem_enterEvent ..).mpr (.inl (by cases c <;> rfl))

theorem forwardTimeout_fails {f : Fwd} {c : Chan} {h : Nat} (ha : s.awake = true) (hf : s.mbx.forwards = [f]) (hs : f.sent = true) (ho : f.origin = .own c h)
    (hp : s.passed f.since (msTicks (s.cv Fld.FORWARD_TIMEOUT_MS)) = true)
    (hj : ((s.chan (viaChan f.msg.rq.via)).jobs.find? fun j => j.handle == h && j.result == none).isSome = true) :
    Gives (.forwardTimeout f.port f.msg.rq.tag) s fun t => t.mbx.forwards = []
      ∧ (t.chan (viaChan f.msg.rq.via)).jobs = (s.chan (viaChan f.msg.rq.via)).jobs.map fun j =>
          if j.handle == h then { j with result := some (0x0101, []), since := s.time.tick } else j := by
  refine gives_of_run (execForwardTimeout.eq_1 f.port f.msg.rq.tag s) ha ?_
  have hf' : s.begin.mbx.forwards = [f] := hf
  rw [forwardOf_only hf' hs]
  dsimp only [State.forwardLost]
  rw [if_pos (show s.begin.passed f.since (msTicks (s.begin.cv Fld.FORWARD_TIMEOUT_MS)) = true from hp), dropForward_only hf', ho]
  dsimp only
  obtain ⟨j, hj⟩ := Option.isSome_iff_exists.mp hj
  have hchan : ∀ c, (({ s.begin with mbx := { s.begin.mbx with forwards := [] } } : State).chan c) = s.chan c := fun c => by cases c <;> rfl
  generalize hu : ({ s.begin with mbx := { s.begin.mbx with forwards := [] } } : State) = u at hchan
  have hj' : ((u.chan (viaChan f.msg.rq.via)).jobs.find? fun j => j.handle == h && j.result == none) = some j := by rw [hchan]; exact hj
  obtain ⟨hjobs, hfw, -⟩ := State.finish_gives (rc := Rc.retryLater.code) (data := []) hj'
  rw [hchan] at hjobs
  subst hu
  exact ⟨hfw, hjobs⟩

theorem forwardTimeout_early {f : Fwd} (hf : s.mbx.forwards = [f]) (hp : s.passed f.since (msTicks (s.cv Fld.FORWARD_TIMEOUT_MS)) = false) :
    Leaves (.forwardTimeout f.port f.msg.rq.tag) s s := by
  refine leaves_of_runIf (execForwardTimeout.eq_1 f.port f.msg.rq.tag s) ?_
  have hp' : s.begin.passed f.since (msTicks (s.begin.cv Fld.FORWARD_TIMEOUT_MS)) = false := hp
  split
  next g hg =>
    have hmem : g ∈ s.mbx.forwards := List.mem_of_find?_eq_some hg
    rw [hf, List.mem_singleton] at hmem
    rw [hmem, hp', if_neg (by decide)]
    rfl
  · rfl

theorem fwReply_answers (s : State) (m : Msg) (rc : Rc) (h : Nat) (d : List Byte) : (s.fwReply m rc h d).Replied m.rq rc h d := by
  refine ⟨(s.reply m.rq.via m.rq.tag rc.code h d).1, ?_, ?_, rfl, rfl, rfl, rfl⟩
  · simp [State.fwReply]
  · simp [State.fwReply, State.reply]

/-! ### Requests that wait too long, and long commands (R49, R61, R65, R67) -/

theorem mbxReplyBackstop_accepts {i : Nat} {w : Wait} (ha : s.awake = true) (hw : s.mbx.waiting[i]? = some w) (hfw : s.fwRuns = true)
    (hl : w.late = none) (hp : s.passed w.tick (usTicks 900) = true) :
    let h := (s.chan (viaChan w.msg.rq.via)).freeHandle
    Gives (.mbxReplyBackstop i) s fun t => t.mbx.waiting = put s.mbx.waiting i { w with late := some h }
      ∧ t.Replied w.msg.rq .accepted h [] := by
  refine gives_of_run (execMbxReplyBackstop.eq_1 i s) ha ?_
  have hw' : s.begin.mbx.waiting[i]? = some w := hw
  have hfw' : s.begin.fwRuns = true := hfw
  have hp' : s.begin.passed w.tick (usTicks 900) = true := hp
  rw [hw']
  dsimp only
  rw [hfw', hl, hp', if_neg (by decide), State.begin_chan]
  exact ⟨by rw [State.fwReply_mbx_waiting, State.addJob, State.modChan_mbx_waiting]; rfl, fwReply_answers ..⟩

theorem mbxReplyBackstop_idle {i : Nat} {w : Wait} (hw : s.mbx.waiting[i]? = some w)
    (h : w.late.isSome = true ∨ s.passed w.tick (usTicks 900) = false) : Leaves (.mbxReplyBackstop i) s s := by
  refine leaves_of_runIf (execMbxReplyBackstop.eq_1 i s) ?_
  have hw' : s.begin.mbx.waiting[i]? = some w := hw
  have hidle : (!s.begin.fwRuns || w.late.isSome || !s.begin.passed w.tick (usTicks 900)) = true := by
    obtain h | h := h
    · rw [h, Bool.or_true, Bool.true_or]
    · have h' : s.begin.passed w.tick (usTicks 900) = false := h
      rw [h', Bool.not_false, Bool.or_true]
  rw [hw']
  dsimp only
  rw [if_pos hidle]
  rfl

theorem longCommandFinish_plan {via : Via} {h : Nat} {ok : Bool} {j : Job} {rc : Nat} {data : List Byte} (ha : s.awake = true)
    (hj : ((s.chan (viaChan via)).jobs.find? fun j => j.handle == h && j.result == none) = some j) (hop : j.opcode < 0x1003 ∨ 0x1006 < j.opcode)
    (hv : j.opcode ≠ 0x1103) (hc : j.opcode ≠ 0x1106) (hplan : j.plan = some (rc, data)) :
    Gives (.longCommandFinish via h ok) s fun t =>
      (t.chan (viaChan via)).jobs = ((s.chan (viaChan via)).jobs.map fun k =>
        if k.handle == h then { k with result := some (rc, data), since := s.time.tick } else k)
      ∧ ((s.chan (viaChan via)).mask.getLsbD 4 = true → (s.chan (viaChan via)).queue.length < 255 →
          s.event 4 (h + 65536 * rc) ∈ (t.chan (viaChan via)).queue) := by
  refine gives_of_run (execLongCommandFinish.eq_1 via h ok s) ha ?_
  have hb : (s.begin.chan (viaChan via)).jobs.find? (fun j => j.handle == h && j.result == none) = some j := by rwa [State.begin_chan]
  rw [hb]
  dsimp only
  rw [if_neg (by simp; omega), if_neg (by simpa using hv), if_neg (by simpa using hc), hplan]
  obtain ⟨h1, -, h3⟩ := State.finish_gives (rc := rc) (data := data) hb
  rw [State.begin_chan] at h1 h3
  exact ⟨h1, h3⟩

/-! ### Handles and credentials that lapse (R59, R68) -/

theorem completionHandleLapse_drops (ha : s.awake = true) (c : Chan) (h : Nat) : Leaves (.completionHandleLapse c h) s
    (s.modChan c fun x => { x with
      jobs := x.jobs.filter fun j => !(j.handle == h && j.result.isSome && s.passed j.since (secTicks (s.cv Fld.CRED_IDLE_S))) }) := by
  refine gives_of_run (execCompletionHandleLapse.eq_1 c h s) ha ?_
  cases c <;> rfl

theorem credIdleLapse_closes {c : Chan} {h : Nat} {k : Cred} (ha : s.awake = true) (hk : ((s.chan c).creds.find? fun k => k.handle == h) = some k)
    (hc : c ≠ .loc) (hage : s.sbAge (chanNum c) h = none) (hp : s.passed ((s.chan c).lastUse k) (secTicks (s.cv Fld.CRED_IDLE_S)) = true) :
    Leaves (.credIdleLapse c h) s (s.modChan c fun x => { x with creds := x.creds.filter fun k => k.handle != h }) := by
  refine gives_of_run (execCredIdleLapse.eq_1 c h s) ha ?_
  have hk' : ((s.begin.chan c).creds.find? fun k => k.handle == h) = some k := by rwa [State.begin_chan]
  rw [hk']
  dsimp only
  rw [if_pos (show s.begin.passed ((s.begin.chan c).lastUse k) (secTicks (s.begin.cv Fld.CRED_IDLE_S)) = true by rw [State.begin_chan]; exact hp)]
  unfold State.credClosed
  dsimp only
  have hloc : (c == .loc) = false := by simpa using hc
  rw [hloc, Bool.false_and, Bool.false_and, if_neg (by decide)]
  unfold State.sbCredGone
  have hage' : (s.begin.modChan c fun x => { x with creds := x.creds.filter fun k => k.handle != h }).sbAge (chanNum c) h = none := by
    rw [← hage]
    cases c <;> rfl
  rw [hage']
  cases c <;> rfl

theorem credIdleLapse_early {c : Chan} {h : Nat} {k : Cred} (hk : ((s.chan c).creds.find? fun k => k.handle == h) = some k)
    (hp : s.passed ((s.chan c).lastUse k) (secTicks (s.cv Fld.CRED_IDLE_S)) = false) : Leaves (.credIdleLapse c h) s s := by
  refine leaves_of_runIf (execCredIdleLapse.eq_1 c h s) ?_
  have hk' : ((s.begin.chan c).creds.find? fun k => k.handle == h) = some k := by rwa [State.begin_chan]
  have hp' : s.begin.passed ((s.begin.chan c).lastUse k) (secTicks (s.begin.cv Fld.CRED_IDLE_S)) = false := by rw [State.begin_chan]; exact hp
  rw [hk']
  dsimp only
  rw [hp', if_neg (by decide)]
  rfl

/-! ### UNATT, and adapter ends (R14, R77) -/

/-- What the report to the fleet's server leaves alone whether it is sent or not. -/
theorem fleetReport_eq (u : State) : ∃ o v, u.fleetReport = { u with out := o, svc := v } := by
  unfold State.fleetReport
  split
  · dsimp only
    split
    · exact ⟨_, _, rfl⟩
    · exact ⟨_, _, rfl⟩
  · exact ⟨_, _, rfl⟩

theorem fansUnattended_eq (u : State) : ∃ o b, u.fansUnattended = { u with out := o, sb := b } := by
  unfold State.fansUnattended
  have key (d : Nat) : ∀ (l : List Nat) (v : State), ∃ o b, l.foldl (fun (s : State) k =>
      ({ s with sb := { s.sb with duty := put s.sb.duty k d } } : State).emit (.fan k d)) v = { v with out := o, sb := b } := fun l => by
    induction l with
    | nil => exact fun v => ⟨v.out, v.sb, rfl⟩
    | cons k l ih =>
      intro v
      obtain ⟨o, b, h⟩ := ih (({ v with sb := { v.sb with duty := put v.sb.duty k d } } : State).emit (.fan k d))
      exact ⟨o, b, h⟩
  exact key _ _ _

theorem watchdogExpiry_unattends (ha : s.awake = true) (hu : s.mbx.unatt = false) (hs : s.asleep = false)
    (hw : s.cv Fld.WATCHDOG_MULT * usTicks (s.cv Fld.ATTN_INTERVAL_US) ≤ s.mbx.sinceAttn) :
    Gives .watchdogExpiry s fun t => t.mbx.unatt = true ∧ t.cfg.ovr = (s.cfg.ovr.filter fun o => o.layer != 0)
      ∧ (∀ c ∈ t.cc, c.armed = 0) ∧ t.pwr.target = t.cv Fld.PSTATE_UNATT_TARGET ∧ Heard 1 s t 6 1 := by
  refine gives_of_run (execWatchdogExpiry.eq_1 s) ha ?_
  have hu' : s.begin.mbx.unatt = false := hu
  have hs' : s.begin.asleep = false := hs
  have hw' : Decidable.decide (s.begin.mbx.sinceAttn < s.begin.watchdogTicks) = false := decide_eq_false (Nat.not_lt.mpr hw)
  rw [hu', hs', hw', if_neg (by decide)]
  extract_lets mbx u v w
  obtain ⟨o, b, hfans⟩ := fansUnattended_eq (w.setTarget (w.cv Fld.PSTATE_UNATT_TARGET))
  obtain ⟨o', x, hfleet⟩ := fleetReport_eq ({ w.setTarget (w.cv Fld.PSTATE_UNATT_TARGET) with out := o, sb := b })
  rw [hfans, hfleet]
  have huatt : u.bar.2.2.2 = true := congrArg (fun b => b.2.2.2) (State.raise_bar ..)
  have hheard : Heard 1 s u 6 1 := heard_raise_of rfl rfl fun c => by cases c <;> exact ⟨rfl, le_refl _⟩
  have hcfg : u.cfg = s.cfg := State.raise_cfg ..
  clear_value u
  have hv : v.bar = u.bar := (State.cfgEffects_bar _).trans rfl
  have hovr : v.cfg.ovr = s.cfg.ovr.filter fun o => o.layer != 0 := by
    show (State.cfgEffects _).cfg.ovr = _
    rw [State.cfgEffects_cfg]
    show (u.cfg.ovr.filter fun o => !(o.layer == 0 && true)) = _
    rw [hcfg]
    simp [bne]
  have hholds : u.Holds v := (State.Rides.withdraw (.refl u)).holds
  clear_value v
  have hatt : v.mbx.unatt = true := (congrArg (fun b => b.2.2.2) hv :).trans huatt
  refine ⟨hatt, hovr, fun c hc => ?_, rfl, (hheard.holds hholds).of_mbx rfl⟩
  obtain ⟨c', -, rfl⟩ := List.mem_map.mp hc
  rfl

theorem watchdogExpiry_idle (h : s.mbx.unatt = true ∨ s.mbx.sinceAttn < s.cv Fld.WATCHDOG_MULT * usTicks (s.cv Fld.ATTN_INTERVAL_US)) :
    Leaves .watchdogExpiry s s := by
  refine leaves_of_runIf (execWatchdogExpiry.eq_1 s) ?_
  have hidle : (s.begin.mbx.unatt || s.begin.asleep || Decidable.decide (s.begin.mbx.sinceAttn < s.begin.watchdogTicks)) = true := by
    obtain h | h := h
    · have h' : s.begin.mbx.unatt = true := h
      rw [h', Bool.true_or, Bool.true_or]
    · have h' : Decidable.decide (s.begin.mbx.sinceAttn < s.begin.watchdogTicks) = true := decide_eq_true h
      rw [h', Bool.or_true]
  rw [if_pos hidle]
  rfl

theorem adapterEndDeferredApply_takes {k v : Nat} (ha : s.awake = true) (hd : nth s.topo.deferred k none = some v) (hb : s.endBusy k = false) :
    Gives (.adapterEndDeferredApply k) s fun t => t.hush = (s.setEndTo k v).hush ∧ Heard 1 s t 8 0 := by
  refine gives_of_run (execAdapterEndDeferredApply.eq_1 k s) ha ?_
  have hd' : nth s.begin.topo.deferred k none = some v := hd
  have hb' : s.begin.endBusy k = false := hb
  have hset : s.begin.setEndTo k v = (s.setEndTo k v).begin := by
    unfold State.setEndTo
    dsimp only
    split
    · rfl
    · split <;> rfl
  have hmbx : (s.begin.setEndTo k v).mbx = s.mbx ∧ (s.begin.setEndTo k v).time = s.time := by
    unfold State.setEndTo
    dsimp only
    split
    · exact ⟨rfl, rfl⟩
    · split <;> exact ⟨rfl, rfl⟩
  obtain ⟨hm, ht⟩ := hmbx
  rw [hd']
  dsimp only
  rw [hb', if_neg (by decide)]
  refine ⟨(State.hush_raise ..).trans (by rw [hset]; rfl), heard_raise_mbx (congrArg (·.tick) ht) (congrArg (·.slot) ht) hm⟩

theorem adapterEndDeferredApply_busy {k : Nat} (hb : s.endBusy k = true) : Leaves (.adapterEndDeferredApply k) s s := by
  refine leaves_of_runIf (execAdapterEndDeferredApply.eq_1 k s) ?_
  have hb' : s.begin.endBusy k = true := hb
  split
  · rw [hb', if_pos rfl]
    rfl
  · rfl

/-- Settles O37, clause by clause. -/
theorem forwardingAndLapses : Obligations.ForwardingAndLapses := fun _ ha =>
  ⟨fun _ _ => peerMessage_short ha, fun _ _ => peerMessage_waits ha, fun _ _ _ => forwardedReply_relays ha, fun _ _ _ => forwardTimeout_fails ha,
    fun _ => forwardTimeout_early, fun _ _ => mbxReplyBackstop_accepts ha, fun _ _ => mbxReplyBackstop_idle,
    fun _ _ _ _ _ _ => longCommandFinish_plan ha, completionHandleLapse_drops ha, fun _ _ _ => credIdleLapse_closes ha,
    fun _ _ _ => credIdleLapse_early, watchdogExpiry_unattends ha, watchdogExpiry_idle, fun _ _ => adapterEndDeferredApply_takes ha,
    fun _ => adapterEndDeferredApply_busy⟩

end Sys2Proof.Machine

/-! The buffer that a cell from a local port is stored in (R190, log entry 59) when the next in turn still holds a cell. -/
namespace Sys2Proof.Machine

/-- The cell that waits from port 3 to port 4 in buffer 0. -/
def waitingCell : QCell :=
  { buf := 0, len := 1, label := 1, tc := 0, inp := 3, outp := 4, pending := false, shared := true, first := true, last := true, ecn := false, cut := false,
    held := false, coach := 0, payload := [] }

/-- A hub with a local path from port 8 to port 11, whose buffers' turn has come round to buffer 0 while a cell still waits in it. -/
def cameRound : State := { State.reset with
  topo.ends := [0, 0, 0, 0, 0, 2, 0]
  cable.paths := [⟨16, 8, none, 0, 0, 0, 11, 2, false, 0, false, 1, .command, none⟩]
  sw.voqs := [⟨3, 4, 0, [waitingCell], 0, false, 0, 0⟩]
  sw.nextBuf := 0 }

/-- The cell that port 8 offers. -/
def offered : Cell := ⟨16, 2, 0, 10, 5, 1, false, false, false, false, 0, [1, 2, 3]⟩

/-- It is stored in buffer 1. -/
theorem localCellOffer_cameRound : ∃ t, exec (.localCellOffer 8 8 offered) cameRound = .next t ∧ (t.sw.voq 8 11 2).cells.map (·.buf) = [1] :=
  ⟨_, rfl, by decide +kernel⟩

/-- Refutes O19: on `cameRound` the next buffer in turn, 0, still holds a cell of another queue, and the cell from port 8 is stored in buffer 1. -/
theorem not_switchCore : ¬ Obligations.SwitchCore := by
  intro h
  obtain ⟨hoffer, -, -⟩ := h.1 cameRound (by decide)
  obtain ⟨t, hx, q, hq, hbuf, -⟩ := hoffer 8 8 offered ⟨11, 16, 2, 0⟩ (by decide) (by decide) (by decide) rfl (by decide +kernel)
  obtain ⟨u, hx', hu⟩ := localCellOffer_cameRound
  obtain rfl : t = u := by
    rw [hx] at hx'
    injection hx'
  have hmem := List.mem_map_of_mem (f := QCell.buf) hq
  rw [hu, hbuf] at hmem
  exact absurd hmem (by decide)

end Sys2Proof.Machine

/-! Bay channels (R444 to R453), clause by clause: seating, ramp, limit, faults, power good, retries, the release of PERST# and the FET's temperature. -/
namespace Sys2Proof.Machine

section Bays
variable {s u : State} {b : Nat} {x : BaySt}

/-! ### A bay whose record changes with nothing said to the mailboxes -/

/-- The state `u` has come from `s` without an event, in the same tick, and its bay `b` holds `x`. -/
structure State.Bears (s : State) (b : Nat) (x : BaySt) (u : State) : Prop where
  here : b < u.ppath.bays.length
  bay : u.bay b = x
  time : u.time = s.time
  mbx : u.mbx = s.mbx
  map : u.dpOfBay b = s.dpOfBay b

theorem State.bears_begin (hb : b < s.ppath.bays.length) : s.Bears b (s.bay b) s.begin := ⟨hb, rfl, rfl, rfl, rfl⟩

theorem State.Bears.setBay (h : s.Bears b x u) (f : BaySt → BaySt) : s.Bears b (f x) (u.setBay b f) :=
  ⟨by rw [State.setBay_bays_length]; exact h.here, (State.bay_setBay h.here f).trans (congrArg f h.bay), h.time, h.mbx, h.map⟩

theorem pgFall_dark (h : (s.bay b).pg = false) : s.pgFall b = s := if_neg (by simp [h])

theorem dpOfBay_raise (s : State) (n a b : Nat) : (s.raise n a).dpOfBay b = s.dpOfBay b :=
  (congrArg (fun w : State => w.dpOfBay b) (s.hush_raise n a) :)

/-- The fall of PG at a bay that carries no downstream port. -/
theorem pgFall_lit (h : (s.bay b).pg = true) (hd : s.dpOfBay b = none) :
    s.pgFall b = ((s.setBay b fun x => { x with pg := false }).emit (.bayGate b (s.bay b).state.gate false)).raise 163 b := by
  have hnone : (((s.setBay b fun x => { x with pg := false }).emit (.bayGate b (s.bay b).state.gate false)).raise 163 b).dpOfBay b = none :=
    (dpOfBay_raise ..).trans hd
  unfold State.pgFall
  rw [if_pos h]
  dsimp only
  rw [hnone]

/-- A bay whose PG is down, or stays up, enters a state with no event. -/
theorem State.Bears.bayTo {st : BayState} (h : s.Bears b x u) (hx : x.pg = false ∨ (st == .on || st == .limit) = true) :
    s.Bears b (x.entered st s.time.tick) (u.bayTo b st) := by
  have hquiet : u.bayTo b st = (u.setBay b fun x => { x with
      state := st, count := if st == .ramp && x.state != .limit then 0 else x.count, ma := if st.conducts then x.ma else 0
      rampTick := if st == .ramp && x.state != .limit then u.time.tick else x.rampTick }).emit
        (.bayGate b st.gate ((u.setBay b fun x => { x with
      state := st, count := if st == .ramp && x.state != .limit then 0 else x.count, ma := if st.conducts then x.ma else 0
      rampTick := if st == .ramp && x.state != .limit then u.time.tick else x.rampTick }).bay b).pg) := by
    unfold State.bayTo
    obtain hx | hx := hx
    · rw [pgFall_dark (by rw [h.bay]; exact hx), ite_self]
    · rw [if_pos hx]
  have hbay := State.bay_bayTo h.here st
  rw [h.bay, h.time] at hbay
  refine ⟨?_, hbay, ?_, ?_, ?_⟩ <;> rw [hquiet]
  · show b < (u.setBay b _).ppath.bays.length
    rw [State.setBay_bays_length]
    exact h.here
  · exact h.time
  · exact h.mbx
  · exact h.map

theorem bayTo_says (s : State) (b : Nat) (st : BayState) : Emit.bayGate b st.gate ((s.bayTo b st).bay b).pg ∈ (s.bayTo b st).out :=
  List.mem_append_right _ (.head _)

theorem State.Bears.heard (h : s.Bears b x u) (n a : Nat) : Heard 1 s (u.raise n a) n a :=
  heard_raise_mbx (congrArg (·.tick) h.time) (congrArg (·.slot) h.time) h.mbx

/-- What a fault leaves of a bay (R450). -/
def BaySt.faulted (x : BaySt) (cause : Nat) (now : Tick) : BaySt :=
  ({ x with retries := x.retries - 1, retry := true, retryTick := now, faults := satAdd 32 x.faults 1, cause := cause } : BaySt).entered .faultWait now

/-- A fault of a bay whose PG is down is the entry of FAULT_WAIT with EV164. -/
theorem State.Bears.bayFault (h : s.Bears b x u) (hx : x.pg = false) (cause : Nat) :
    ∃ w, s.Bears b (x.faulted cause s.time.tick) w ∧ u.bayFault b cause = w.raise 164 (b + 16 * cause + 256 * (x.retries - 1)) := by
  refine ⟨_, (h.setBay fun y => { y with
    retries := x.retries - 1, retry := true, retryTick := s.time.tick, faults := satAdd 32 y.faults 1, cause := cause }).bayTo
      (st := .faultWait) (.inl hx), ?_⟩
  unfold State.bayFault
  dsimp only
  rw [h.bay, h.time]

/-- A fault declared on a bay whose PG is down: the whole of what the clauses of breaker, ramp and fault ask. -/
theorem State.Bears.declares (h : s.Bears b x u) (hx : x.pg = false) (cause : Nat) :
    ((u.bayFault b cause).bay b).state = .faultWait ∧ ((u.bayFault b cause).bay b).cause = cause ∧ ((u.bayFault b cause).bay b).retry = true
      ∧ Heard 1 s (u.bayFault b cause) 164 (b + 16 * cause + 256 * (x.retries - 1)) := by
  obtain ⟨w, hw, heq⟩ := h.bayFault hx cause
  rw [heq, State.bay_raise, hw.bay]
  exact ⟨rfl, rfl, rfl, hw.heard _ _⟩

/-! ### Seating (R444, R452) -/

theorem bayPresence_local (h : s.dpOfBay b = none) : s.bayPresence b = s := by
  unfold State.bayPresence
  rw [h]

theorem State.Bears.presence (h : s.Bears b x u) (hd : s.dpOfBay b = none) (n a : Nat) : (u.raise n a).bayPresence b = u.raise n a :=
  bayPresence_local ((dpOfBay_raise u n a b).trans (h.map.trans hd))

section Clauses
variable (hp : s.pwrLive = true) (h3 : b ≤ 3) (hl : s.ppath.bays.length = 4)
include hp h3 hl

theorem bayShortPinClose_gives (hs : (s.bay b).state = .unseated) (hpg : (s.bay b).pg = false) :
    Gives (.bayShortPinClose b) s fun t => (t.bay b).state = .seating ∧ (t.bay b).closeTick = s.time.tick
      ∧ (t.bay b).removed = ((s.bay b).removed || decide (msTicks (s.cv Fld.SEAT_DEBOUNCE_MS) ≤ tickDiff s.time.tick (s.bay b).openTick)) := by
  refine gives_of_runIf (execBayShortPinClose.eq_1 b s) hp ?_
  have hstart : s.Bears b (s.bay b) s.begin := State.bears_begin (by omega)
  rw [if_neg (by simp [hs])]
  dsimp only
  rw [((hstart.setBay _).bayTo (.inl hpg)).bay]
  exact ⟨rfl, rfl, rfl⟩

theorem bayShortPinOpen_gives (hs : (s.bay b).state = .off) (hpg : (s.bay b).pg = false) (hd : s.dpOfBay b = none) :
    Gives (.bayShortPinOpen b) s fun t => (t.bay b).state = .unseated ∧ (t.bay b).before = .off ∧ (t.bay b).openTick = s.time.tick
      ∧ (t.bay b).mv = 0 ∧ (t.bay b).request = (s.bay b).request ∧ (t.bay b).retry = (s.bay b).retry ∧ Heard 1 s t 162 b := by
  refine gives_of_runIf (execBayShortPinOpen.eq_1 b s) hp ?_
  have hs' : (s.begin.bay b).state = .off := hs
  have hseat : (s.begin.bay b).seated = true := by simp [BaySt.seated, hs]
  have hstart : s.Bears b (s.bay b) s.begin := State.bears_begin (by omega)
  dsimp only
  rw [hs', hseat, if_neg (by simp; omega), if_pos rfl]
  have hgone := (hstart.bayTo (st := .unseated) (.inl hpg))
  generalize s.begin.bayTo b .unseated = u at hgone ⊢
  rw [(hgone.setBay _).presence hd, State.bay_raise, (hgone.setBay _).bay]
  exact ⟨rfl, rfl, congrArg (·.tick) hgone.time, rfl, rfl, rfl, (hgone.setBay _).heard _ _⟩

theorem baySeatDebounce_gives (hs : (s.bay b).state = .seating) (hr : (s.bay b).retry = true) (hpg : (s.bay b).pg = false) (hd : s.dpOfBay b = none)
    (ht : s.passed (s.bay b).closeTick (msTicks (s.cv Fld.SEAT_DEBOUNCE_MS)) = true) :
    Gives (.baySeatDebounce b) s fun t => (t.bay b).state = .faultWait ∧ (t.bay b).removed = false ∧ Heard 1 s t 162 (b + 4) := by
  refine gives_of_runIf (execBaySeatDebounce.eq_1 b s) hp ?_
  have hs' : (s.begin.bay b).state = .seating := hs
  have hr' : (s.begin.bay b).retry = true := hr
  have ht' : s.begin.passed (s.begin.bay b).closeTick (msTicks (s.begin.cv Fld.SEAT_DEBOUNCE_MS)) = true := ht
  dsimp only
  rw [hs', hr', ht', if_neg (by simp; omega), if_pos rfl]
  have hstart : s.Bears b (s.bay b) s.begin := State.bears_begin (by omega)
  have hwait := (hstart.setBay fun y => { y with
    request := y.request || (s.begin.applied (nth (bayFields b) 10 Fld.BAY0_AUTO) == 1 && (s.begin.dpOfBay b).isNone)
    shed := y.shed && !(s.begin.applied (nth (bayFields b) 10 Fld.BAY0_AUTO) == 1 && (s.begin.dpOfBay b).isNone)
    retries := if y.removed then s.begin.applied (nth (bayFields b) 4 Fld.BAY0_RETRIES) else y.retries, removed := false }).bayTo
      (st := .faultWait) (.inl hpg)
  rw [hwait.presence hd, State.bay_raise, hwait.bay]
  exact ⟨rfl, rfl, hwait.heard _ _⟩

/-! ### Limit, fault timer and breaker (R446, R447, R450) -/

theorem bayCurrentLimit_gives (n mv ma : Nat) (hs : (s.bay b).state = .on) :
    Gives (.bayCurrentLimit b true n mv ma) s fun t => (t.bay b).state = .limit ∧ (t.bay b).back = .on ∧ (t.bay b).mv = mv
      ∧ (t.bay b).count = min ((s.bay b).count - n / 8) ((s.bay b).faultMs * 1000) ∧ Emit.bayGate b 3 (s.bay b).pg ∈ t.out := by
  have hs' : (s.begin.bay b).state = .on := hs
  refine ⟨_, exec_bayCurrentLimit hp h3 (by rw [hs]; rfl), ?_⟩
  have hlim : s.begin.limitSample b true n mv ma = ((s.begin.sampled b n mv ma).setBay b fun y => { y with back := .on }).bayTo b .limit := by
    unfold State.limitSample
    dsimp only
    rw [hs', if_neg (by decide), if_pos rfl]
  have hstart : s.Bears b (s.bay b) s.begin := State.bears_begin (by omega)
  have hend := ((hstart.setBay fun y => { y with
    count := min (countAfter (s.bay b).count n ((s.bay b).state == .limit)) ((s.bay b).faultMs * 1000), mv := mv, ma := ma }).setBay
      fun y => { y with back := .on }).bayTo (st := .limit) (.inr rfl)
  rw [hlim]
  have hsays := bayTo_says ((s.begin.sampled b n mv ma).setBay b fun y => { y with back := .on }) b .limit
  change s.Bears b _ (((s.begin.sampled b n mv ma).setBay b fun y => { y with back := .on }).bayTo b .limit) at hend
  generalize ((s.begin.sampled b n mv ma).setBay b fun y => { y with back := .on }).bayTo b .limit = t at hend hsays
  rw [hend.bay] at hsays
  refine ⟨by rw [hend.bay]; rfl, by rw [hend.bay]; rfl, by rw [hend.bay]; rfl, ?_, ?_⟩
  · rw [hend.bay, hs]
    rfl
  · have hpg : ((s.bay b).pg && (BayState.limit == .on || BayState.limit == .limit)) = (s.bay b).pg := Bool.and_true _
    exact hpg ▸ hsays

theorem bayFaultTimer_gives (n : Nat) (hs : (s.bay b).state = .limit) (hpg : (s.bay b).pg = false)
    (hn : (s.bay b).faultMs * 1000 ≤ (s.bay b).count + n) :
    Gives (.bayFaultTimer b n) s fun t => (t.bay b).state = .faultWait ∧ (t.bay b).cause = 1 ∧ (t.bay b).retry = true
      ∧ (t.bay b).retryTick = s.time.tick ∧ (t.bay b).retries = (s.bay b).retries - 1 ∧ (t.bay b).faults = satAdd 32 (s.bay b).faults 1
      ∧ Heard 1 s t 164 (b + 16 + 256 * ((s.bay b).retries - 1)) := by
  refine gives_of_runIf (execBayFaultTimer.eq_1 b n s) hp ?_
  have hs' : (s.begin.bay b).state = .limit := hs
  have hstart : s.Bears b (s.bay b) s.begin := State.bears_begin (by omega)
  dsimp only
  rw [hs', if_neg (by simp; omega), if_neg (by exact Nat.not_lt.mpr hn)]
  have hcount := hstart.setBay fun x => { x with count := min (x.count + n) (x.faultMs * 1000) }
  obtain ⟨w, hw, heq⟩ := hcount.bayFault hpg 1
  unfold State.bayTimer
  rw [pgFall_dark (by rw [hcount.bay]; exact hpg), heq, State.bay_raise, hw.bay]
  exact ⟨rfl, rfl, rfl, rfl, rfl, rfl, hw.heard _ _⟩

theorem bayBreaker_gives (ma : Nat) (hs : (s.bay b).state = .on) (hpg : (s.bay b).pg = false) (hma : 2 * (s.bay b).ilim < ma) :
    Gives (.bayBreaker b ma) s fun t => (t.bay b).state = .faultWait ∧ (t.bay b).cause = 2 ∧ (t.bay b).retry = true
      ∧ Heard 1 s t 164 (b + 32 + 256 * ((s.bay b).retries - 1)) := by
  refine gives_of_runIf (execBayBreaker.eq_1 b ma s) hp ?_
  rw [if_pos (by simp [hs, hma, h3, BayState.conducts])]
  exact (State.bears_begin (by omega)).declares hpg 2

/-! ### Ramp and power good (R445, R448) -/

theorem bayRampTimeout_gives (vin : Nat) (hs : (s.bay b).state = .ramp) (hpg : (s.bay b).pg = false)
    (ht : s.passed (s.bay b).rampTick ((s.bay b).rampLimit vin) = true) :
    Gives (.bayRampTimeout b vin) s fun t => (t.bay b).state = .faultWait ∧ (t.bay b).cause = 4 ∧ (t.bay b).retry = true
      ∧ Heard 1 s t 164 (b + 64 + 256 * ((s.bay b).retries - 1)) := by
  refine gives_of_runIf (execBayRampTimeout.eq_1 b vin s) hp ?_
  have hs' : (s.begin.bay b).state = .ramp := hs
  have ht' : s.begin.passed (s.begin.bay b).rampTick ((s.begin.bay b).rampLimit vin) = true := ht
  dsimp only
  rw [hs', ht', if_pos (by rfl)]
  exact (State.bears_begin (by omega)).declares hpg 4

theorem bayPgRise_gives (vin mv ma us : Nat) (hs : (s.bay b).state = .ramp) (hpg : (s.bay b).pg = false)
    (hmv : vin * s.cv Fld.PG_PCT ≤ mv * 100) (hma : ma < (s.bay b).ilim) (hus : s.cv Fld.PG_DEBOUNCE_US ≤ us) :
    Gives (.bayPgRise b vin mv ma us true) s fun t => (t.bay b).state = .on ∧ (t.bay b).pg = true ∧ (t.bay b).mv = mv ∧ (t.bay b).ma = ma
      ∧ (t.bay b).pgTick = s.time.tick ∧ Emit.bayGate b 2 true ∈ t.out ∧ Heard 1 s t 163 (b + 4) := by
  refine gives_of_runIf (execBayPgRise.eq_1 b vin mv ma us true s) hp ?_
  have hs' : (s.begin.bay b).state = .ramp := hs
  have hpg' : (s.begin.bay b).pg = false := hpg
  have hlevel : s.begin.pgLevel vin mv = true := decide_eq_true hmv
  dsimp only
  rw [hs', hpg', hlevel, if_neg (by simp [not_lt.mpr h3]; exact ⟨decide_eq_false (not_le.mpr hma), hus⟩)]
  have hstart : s.Bears b (s.bay b) s.begin := State.bears_begin (by omega)
  have hon := (hstart.setBay fun x => { x with pg := true, mv := mv, ma := ma, pgTick := s.begin.time.tick }).bayTo (st := .on) (.inr rfl)
  have hsays := bayTo_says (s.begin.setBay b fun x => { x with pg := true, mv := mv, ma := ma, pgTick := s.begin.time.tick }) b .on
  generalize (s.begin.setBay b fun x => { x with pg := true, mv := mv, ma := ma, pgTick := s.begin.time.tick }).bayTo b .on = u at hon hsays ⊢
  rw [hon.bay] at hsays
  rw [State.bay_raise, hon.bay, State.raise_out]
  exact ⟨rfl, rfl, rfl, rfl, rfl, hsays, hon.heard _ _⟩

theorem bayPgFall_gives (vin mv : Nat) (hmv : mv * 100 < vin * s.cv Fld.PG_PCT) (hpg : (s.bay b).pg = true) (hd : s.dpOfBay b = none) :
    Gives (.bayPgFall b vin mv) s fun t => t.hush = ((s.setBay b fun x => { x with mv := mv }).setBay b fun x => { x with pg := false }).hush
      ∧ Emit.bayGate b (s.bay b).state.gate false ∈ t.out ∧ Heard 1 s t 163 b := by
  refine gives_of_runIf (execBayPgFall.eq_1 b vin mv s) hp ?_
  have hmeas := (State.bears_begin (s := s) (b := b) (by omega)).setBay fun x => { x with mv := mv }
  have hlevel : (s.begin.setBay b fun x => { x with mv := mv }).pgLevel vin mv = false := decide_eq_false (by exact Nat.not_le.mpr hmv)
  dsimp only
  rw [hlevel, if_neg Bool.false_ne_true]
  rw [pgFall_lit (by rw [hmeas.bay]; exact hpg) (hmeas.map.trans hd)]
  refine ⟨(State.hush_raise ..).trans rfl, ?_, heard_raise_mbx rfl rfl rfl⟩
  rw [State.raise_out, hmeas.bay]
  exact .head _

/-! ### Retries (R450) -/

theorem bayRetryExpiry_gives (hr : (s.bay b).retry = true) (hs : (s.bay b).state = .faultWait) (h0 : (s.bay b).retries = 0)
    (hpg : (s.bay b).pg = false) (hrom : s.romNow = false) (ht : s.passed (s.bay b).retryTick (msTicks (s.bay b).retryMs) = true) :
    Gives (.bayRetryExpiry b) s fun t => (t.bay b).state = .lockout ∧ (t.bay b).retry = false := by
  refine gives_of_runIf (execBayRetryExpiry.eq_1 b s) hp ?_
  have hr' : (s.begin.bay b).retry = true := hr
  have ht' : s.begin.passed (s.begin.bay b).retryTick (msTicks (s.begin.bay b).retryMs) = true := ht
  have hlast := (State.bears_begin (s := s) (b := b) (by omega)).setBay fun x => { x with retry := false }
  dsimp only
  rw [hr', ht', if_pos (by rfl)]
  unfold State.bayTry
  dsimp only
  rw [hlast.bay, if_neg (by rw [show (s.begin.setBay b _).romNow = s.romNow from rfl, hrom]; decide), if_neg (by simp [hs]), if_pos (by simp [hs]),
    if_pos (by simp [h0]), (hlast.bayTo (.inl hpg)).bay]
  exact ⟨rfl, rfl⟩

end Clauses

/-! ### What changes nothing, and what changes the record alone -/

section Leaves
variable (hp : s.pwrLive = true)
include hp

theorem bayFaultTimer_counts (h3 : b ≤ 3) (n : Nat) (hs : (s.bay b).state = .limit) (hn : (s.bay b).count + n < (s.bay b).faultMs * 1000) :
    Leaves (.bayFaultTimer b n) s (s.setBay b fun x => { x with count := x.count + n }) := by
  refine gives_of_runIf (execBayFaultTimer.eq_1 b n s) hp ?_
  have hs' : (s.begin.bay b).state = .limit := hs
  dsimp only
  rw [hs', if_neg (by simp; omega), if_pos (by exact hn)]
  have hset : s.ppath.bays.modify b (fun x => { x with count := min (x.count + n) (x.faultMs * 1000) })
      = s.ppath.bays.modify b fun x => { x with count := x.count + n } :=
    modify_congr_nth (d := BaySt.init) (congrArg (fun n => ({ s.bay b with count := n } : BaySt)) (Nat.min_eq_left hn.le) :)
  exact (congrArg (fun l => ({ s with ppath := { s.ppath with bays := l } } : State).hush) hset :)

theorem bayBreaker_leaves (ma : Nat) (hma : ma ≤ 2 * (s.bay b).ilim) : Leaves (.bayBreaker b ma) s s := by
  refine gives_of_runIf (execBayBreaker.eq_1 b ma s) hp ?_
  have hma' : ma ≤ 2 * (s.begin.bay b).ilim := hma
  rw [if_neg (by simp only [Bool.and_eq_true, decide_eq_true_eq]; omega)]
  exact s.hush_begin

theorem bayRampTimeout_early (vin : Nat) (ht : s.passed (s.bay b).rampTick ((s.bay b).rampLimit vin) = false) :
    Leaves (.bayRampTimeout b vin) s s := by
  refine gives_of_runIf (execBayRampTimeout.eq_1 b vin s) hp ?_
  have ht' : s.begin.passed (s.begin.bay b).rampTick ((s.begin.bay b).rampLimit vin) = false := ht
  dsimp only
  rw [ht', Bool.and_false, if_neg (by decide)]
  exact s.hush_begin

theorem bayPgRise_leaves (vin mv ma us : Nat) (en : Bool)
    (hno : en = false ∨ mv * 100 < vin * s.cv Fld.PG_PCT ∨ (s.bay b).ilim ≤ ma ∨ us < s.cv Fld.PG_DEBOUNCE_US) :
    Leaves (.bayPgRise b vin mv ma us en) s s := by
  refine gives_of_runIf (execBayPgRise.eq_1 b vin mv ma us en s) hp ?_
  dsimp only
  rw [if_pos ?_]
  · exact s.hush_begin
  · simp only [Bool.or_eq_true, Bool.not_eq_true', State.pgLevel, decide_eq_false_iff_not, decide_eq_true_eq, not_le]
    obtain h | h | h | h := hno
    · exact .inl (.inl (.inl (.inr h)))
    · exact .inl (.inl (.inr h))
    · exact .inl (.inr h)
    · exact .inr h

theorem bayPgFall_leaves (vin mv : Nat) (hmv : vin * s.cv Fld.PG_PCT ≤ mv * 100) :
    Leaves (.bayPgFall b vin mv) s (s.setBay b fun x => { x with mv := mv }) := by
  refine gives_of_runIf (execBayPgFall.eq_1 b vin mv s) hp ?_
  have hlevel : (s.begin.setBay b fun x => { x with mv := mv }).pgLevel vin mv = true := decide_eq_true (by exact hmv)
  dsimp only
  rw [hlevel, if_pos rfl]
  rfl

theorem bayRetryExpiry_early (ht : s.passed (s.bay b).retryTick (msTicks (s.bay b).retryMs) = false) : Leaves (.bayRetryExpiry b) s s := by
  refine gives_of_runIf (execBayRetryExpiry.eq_1 b s) hp ?_
  have ht' : s.begin.passed (s.begin.bay b).retryTick (msTicks (s.begin.bay b).retryMs) = false := ht
  dsimp only
  rw [ht', Bool.and_false, if_neg Bool.false_ne_true]
  exact s.hush_begin

theorem bayRetriesRestore_leaves (hpg : (s.bay b).pg = true) (ht : s.passed (s.bay b).pgTick (secTicks 1) = true) :
    Leaves (.bayRetriesRestore b) s (s.setBay b fun x => { x with retries := x.allRetries }) := by
  refine gives_of_runIf (execBayRetriesRestore.eq_1 b s) hp ?_
  have hpg' : (s.begin.bay b).pg = true := hpg
  have ht' : s.begin.passed (s.begin.bay b).pgTick (secTicks 1) = true := ht
  rw [hpg', ht', if_pos (by rfl)]
  rfl

theorem bayRetriesRestore_early (ht : s.passed (s.bay b).pgTick (secTicks 1) = false) : Leaves (.bayRetriesRestore b) s s := by
  refine gives_of_runIf (execBayRetriesRestore.eq_1 b s) hp ?_
  have ht' : s.begin.passed (s.begin.bay b).pgTick (secTicks 1) = false := ht
  rw [ht', Bool.and_false, if_neg Bool.false_ne_true]
  exact s.hush_begin

theorem baySeatDebounce_early (ht : s.passed (s.bay b).closeTick (msTicks (s.cv Fld.SEAT_DEBOUNCE_MS)) = false) :
    Leaves (.baySeatDebounce b) s s := by
  refine gives_of_runIf (execBaySeatDebounce.eq_1 b s) hp ?_
  have ht' : s.begin.passed (s.begin.bay b).closeTick (msTicks (s.begin.cv Fld.SEAT_DEBOUNCE_MS)) = false := ht
  dsimp only
  rw [ht', Bool.not_false, Bool.or_true, if_pos rfl]
  exact s.hush_begin

end Leaves

end Bays

end Sys2Proof.Machine

/-! The temperature of a bay's FET (R449, R453) and the release of PERST# (R448). -/
namespace Sys2Proof.Machine

theorem State.pgFall_plan (s : State) (b : Nat) : (s.pgFall b).plan = s.plan := by
  unfold State.pgFall
  split
  · dsimp only
    split <;> exact State.raise_plan ..
  · rfl

theorem State.bayTo_plan (s : State) (b : Nat) (st : BayState) : (s.bayTo b st).plan = s.plan := by
  have hfall : (if st == .on || st == .limit then s else s.pgFall b).plan = s.plan := by
    split
    · rfl
    · exact s.pgFall_plan b
  exact hfall

theorem State.bayFault_plan (s : State) (b cause : Nat) : (s.bayFault b cause).plan = s.plan :=
  (State.raise_plan ..).trans (State.bayTo_plan ..)

section FetTemperature
variable {s : State} {b : Nat} (hp : s.pwrLive = true) (h3 : b ≤ 3) (hl : s.ppath.bays.length = 4)

section Unread
include hp h3

theorem fetTempUpdate_none (diode tref : Int) (vin mv ma : Nat) (hsense : (s.bay b).tsense = 2) :
    Leaves (.fetTempUpdate b diode tref vin mv ma) s (s.setBay b fun y => { y with mv := mv, ma := if y.state.conducts then ma else 0 }) := by
  refine gives_of_runIf (execFetTempUpdate.eq_1 b diode tref vin mv ma s) hp ?_
  dsimp only
  rw [if_neg (by omega), if_pos (by rw [State.bay_begin, hsense]; rfl)]
  rfl

theorem fetTempUpdate_bad (diode tref : Int) (vin mv ma : Nat) (hsense : (s.bay b).tsense = 0) (hgood : (s.bay b).diodeBad = false)
    (hd : 17500 < diode) :
    Gives (.fetTempUpdate b diode tref vin mv ma) s fun t =>
      t.hush = ((s.setBay b fun y => { y with mv := mv, ma := if y.state.conducts then ma else 0 }).setBay b fun y => { y with
        diodeBad := true }).hush ∧ Heard 1 s t 167 b := by
  refine gives_of_runIf (execFetTempUpdate.eq_1 b diode tref vin mv ma s) hp ?_
  dsimp only
  rw [if_neg (by omega), if_neg (by rw [State.bay_begin, hsense]; decide),
    if_pos (by simp only [State.bay_begin, hsense, hgood, decide_eq_true hd]; simp)]
  exact ⟨(State.hush_raise ..).trans rfl, heard_raise_mbx rfl rfl rfl⟩

end Unread

/-- A conducting bay at its limit, not yet warned of, tells of its heat and fails (R453). -/
theorem fetActs_hot {s u : State} {x : BaySt} {t : Int} (h : s.Bears b x u) (ht : x.temp = some t) (hot : x.hotTick = none)
    (hc : x.state.conducts = true) (hpg : x.pg = false) (hlim : (x.tlim : Int) * 1000000 ≤ t) :
    ((u.fetActs b).bay b).temp = some t ∧ ((u.fetActs b).bay b).state = .faultWait ∧ ((u.fetActs b).bay b).cause = 3
      ∧ (u.fetActs b).plan = u.plan ∧ Heard 2 s (u.fetActs b) 166 (b + 65536 * leNat (leInt 2 (t / 100000)))
      ∧ Heard 2 s (u.fetActs b) 164 (b + 48 + 256 * (x.retries - 1)) := by
  have hacts : u.fetActs b = ((u.setBay b fun x => { x with hotTick := some u.time.tick }).raise 166
      (b + 65536 * leNat (leInt 2 (t / 100000)))).bayFault b 3 := by
    unfold State.fetActs
    dsimp only
    rw [h.bay, ht]
    dsimp only
    rw [hot, if_pos (by simp [hlim, hc]), if_pos (by simp; omega)]
  have hwarn := h.setBay fun x => { x with hotTick := some u.time.tick }
  rw [hacts]
  have htold := hwarn.heard 166 (b + 65536 * leNat (leInt 2 (t / 100000)))
  have hplan := (State.bayFault_plan ((u.setBay b fun x => { x with hotTick := some u.time.tick }).raise 166
      (b + 65536 * leNat (leInt 2 (t / 100000)))) b 3).trans (State.raise_plan ..)
  have hone : s.OneMore ((u.setBay b fun x => { x with hotTick := some u.time.tick }).raise 166 (b + 65536 * leNat (leInt 2 (t / 100000)))) :=
    (State.OneMore.raise ..).after_mbx hwarn.time hwarn.mbx
  have hbay : ((u.setBay b fun x => { x with hotTick := some u.time.tick }).raise 166 (b + 65536 * leNat (leInt 2 (t / 100000)))).bay b
      = { x with hotTick := some u.time.tick } := (State.bay_raise ..).trans hwarn.bay
  have hhere : b < ((u.setBay b fun x => { x with hotTick := some u.time.tick }).raise 166
      (b + 65536 * leNat (leInt 2 (t / 100000)))).ppath.bays.length := by
    rw [State.raise_ppath]
    exact hwarn.here
  generalize (u.setBay b fun x => { x with hotTick := some u.time.tick }).raise 166 (b + 65536 * leNat (leInt 2 (t / 100000))) = w
    at htold hone hbay hhere hplan ⊢
  have hself : w.Bears b { x with hotTick := some u.time.tick } w := ⟨hhere, hbay, rfl, rfl, rfl⟩
  obtain ⟨v, hv, heq⟩ := hself.bayFault hpg 3
  have hmore : s.OneMore v := hone.then_mbx hv.time hv.mbx
  have htold' := (htold.mono (k' := 2) (by omega)).of_mbx hv.mbx
  rw [heq] at hplan ⊢
  rw [State.bay_raise, hv.bay]
  exact ⟨ht, rfl, rfl, hplan, htold'.raise _ _, hmore.heard _ _⟩

include hp h3 hl in
theorem fetTempUpdate_hot (diode tref : Int) (vin mv ma : Nat) (hsense : (s.bay b).tsense = 0) (hgood : (s.bay b).diodeBad = false)
    (hlow : -4000 ≤ diode) (hhigh : diode ≤ 17500) (hc : (s.bay b).state.conducts = true) (hlim : ((s.bay b).tlim : Int) * 100 ≤ diode)
    (hot : (s.bay b).hotTick = none) (hpg : (s.bay b).pg = false) (hnow : s.plan.fetNow.length = 4) (hlims : s.plan.fetLimNow.length = 4) :
    Gives (.fetTempUpdate b diode tref vin mv ma) s fun t => (t.bay b).temp = some (diode * 10000) ∧ (t.bay b).state = .faultWait
      ∧ (t.bay b).cause = 3 ∧ nth t.plan.fetNow b 0 = diode ∧ nth t.plan.fetLimNow b 0 = ((s.bay b).tlim : Int) * 100
      ∧ Heard 2 s t 166 (b + 65536 * leNat (leInt 2 (diode / 10))) ∧ Heard 2 s t 164 (b + 48 + 256 * ((s.bay b).retries - 1)) := by
  refine gives_of_runIf (execFetTempUpdate.eq_1 b diode tref vin mv ma s) hp ?_
  dsimp only
  rw [if_neg (by omega), if_neg (by rw [State.bay_begin, hsense]; decide),
    if_neg (by simp only [State.bay_begin, hsense, hgood, decide_eq_false (not_lt.mpr hlow), decide_eq_false (not_lt.mpr hhigh)]; simp),
    if_pos (by rw [State.bay_begin, hsense, hgood]; rfl)]
  have hread := ((State.bears_begin (s := s) (b := b) (by omega)).setBay fun y => { y with
    mv := mv, ma := if y.state.conducts then ma else 0 }).setBay fun y => { y with temp := some (diode * 10000) }
  have hdiv : diode * 10000 / 10000 = diode := by omega
  have htenth : diode * 10000 / 100000 = diode / 10 := by omega
  obtain ⟨htemp, hstate, hcause, hplan, hwarn, hfault⟩ := fetActs_hot (u := { (s.begin.setBay b fun y => { y with
      mv := mv, ma := if y.state.conducts then ma else 0 }).setBay b fun y => { y with temp := some (diode * 10000) } with
    plan := { s.plan with fetNow := put s.plan.fetNow b (diode * 10000 / 10000), fetLimNow := put s.plan.fetLimNow b (((s.bay b).tlim : Int) * 100) } })
    ⟨hread.here, hread.bay, hread.time, hread.mbx, hread.map⟩ rfl hot hc hpg (by show ((s.bay b).tlim : Int) * 1000000 ≤ _; omega)
  rw [htenth] at hwarn
  refine ⟨htemp, hstate, hcause, ?_, ?_, hwarn, hfault⟩
  · exact (congrArg (fun p : PlanSt => nth p.fetNow b 0) hplan).trans ((nth_put_self (by omega) _ _).trans hdiv)
  · exact (congrArg (fun p : PlanSt => nth p.fetLimNow b 0) hplan).trans (nth_put_self (by omega) _ _)

end FetTemperature

/-! ### The release of PERST# -/

section Perst
variable {s u : State} {b k : Nat}

/-- The state `t` has come from `s` with the bays, the configuration and the instant kept, no output taken back, and PERST# of the
downstream port of physical link `l` as it was. -/
structure State.Steers (l : Nat) (s t : State) : Prop where
  path : t.ppath = s.ppath
  cv : ∀ f, t.cv f = s.cv f
  time : t.time = s.time
  links : t.pcie.links.length = s.pcie.links.length
  out : s.out ⊆ t.out
  perst : (t.pcLink l).perst = (s.pcLink l).perst

namespace State.Steers
variable {l : Nat} {s t : State}

theorem refl (s : State) : s.Steers l s := ⟨rfl, fun _ => State.cv_congr rfl rfl rfl _, rfl, rfl, fun _ => id, rfl⟩

theorem trans {u : State} (h : s.Steers l t) (h' : t.Steers l u) : s.Steers l u :=
  ⟨h'.path.trans h.path, fun f => (h'.cv f).trans (h.cv f), h'.time.trans h.time, h'.links.trans h.links, fun _ he => h'.out (h.out he), h'.perst.trans h.perst⟩

theorem ite {u : State} {c : Prop} [Decidable c] (h : s.Steers l t) (h' : s.Steers l u) : s.Steers l (if c then t else u) := by
  split
  · exact h
  · exact h'

theorem emit (h : s.Steers l t) (e : Emit) : s.Steers l (t.emit e) :=
  h.trans ⟨rfl, fun _ => State.cv_congr rfl rfl rfl _, rfl, rfl, fun _ he => List.mem_append_left _ he, rfl⟩

theorem setPcLink (h : s.Steers l t) (j : Nat) (f : PciLink → PciLink) (hf : ∀ x, (f x).perst = x.perst) : s.Steers l (t.setPcLink j f) :=
  h.trans ⟨rfl, fun _ => State.cv_congr rfl rfl rfl _, rfl, List.length_modify .., fun _ => id, nth_modify_congr PciLink.perst f hf _ _ _ _⟩

theorem sendFrame (h : s.Steers l t) (e typ fc : Nat) (body : List Byte) : s.Steers l (t.sendFrame e typ fc body) := by
  unfold State.sendFrame
  dsimp only
  exact .ite (h.emit _) h

theorem sendPortState (h : s.Steers l t) (k : Nat) : s.Steers l (t.sendPortState k) := by
  unfold State.sendPortState
  dsimp only
  split_ifs
  · exact h
  · exact (h.sendFrame ..).setPcLink _ _ fun _ => rfl

theorem trainLink (h : s.Steers l t) (j : Nat) : s.Steers l (t.trainLink j) := by
  unfold State.trainLink
  dsimp only
  have hstart := ((h.trans (u := { t with pcie := { t.pcie with
    bifur := if j == 0 then t.pcie.bifur else t.cv Fld.PCIE_BIFURCATION, upWidth := if j == 0 then t.cv Fld.PCIE_UP_WIDTH else t.pcie.upWidth } })
      ⟨rfl, fun _ => State.cv_congr rfl rfl rfl _, rfl, rfl, fun _ => id, rfl⟩).setPcLink j (fun k => { k with state := 1, maxSpeed := t.cv Fld.PCIE_MAX_SPEED }) fun _ => rfl).emit
        (.pcieTrain j)
  exact .ite hstart (hstart.sendPortState _)

theorem drivePerst (h : s.Steers l t) {k : Nat} (hk : k + 1 ≠ l) (on : Bool) : s.Steers l (t.drivePerst k on) :=
  (h.trans (u := t.setPcLink (k + 1) fun l => { l with perst := on, state := if on then 0 else l.state })
    ⟨rfl, fun _ => State.cv_congr rfl rfl rfl _, rfl, List.length_modify .., fun _ => id, congrArg PciLink.perst (nth_modify_ne _ _ _ _ _ hk)⟩).emit _

end State.Steers

/-- What RELEASE does for one downstream port (R448). -/
def State.steer (s : State) (k : Nat) : State :=
  let on := match s.bayOfDp k with
    | some b => !((s.bay b).pg && s.passed (s.bay b).pgTick (msTicks 100))
    | none => false
  if (s.pcLink (k + 1)).perst == on then s
  else if on then s.drivePerst k true
  else (s.drivePerst k false).trainLink (k + 1)

theorem releasePerst_eq (s : State) : s.releasePerst = [0, 1, 2, 3].foldl State.steer s := rfl

theorem State.Steers.steer_other {l j : Nat} (hj : j + 1 ≠ l) (s : State) : s.Steers l (s.steer j) := by
  unfold State.steer
  dsimp only
  exact .ite (.refl s) (.ite ((State.Steers.refl s).drivePerst hj _) (((State.Steers.refl s).drivePerst hj _).trainLink _))

/-- A port whose bay's power has been good for 100 ms. -/
structure State.MayRun (s : State) (b k : Nat) : Prop where
  bay : s.bayOfDp k = some b
  good : (s.bay b).pg = true
  held : s.passed (s.bay b).pgTick (msTicks 100) = true
  here : k + 1 < s.pcie.links.length

theorem State.MayRun.steered {l : Nat} (h : s.MayRun b k) (hu : s.Steers l u) : u.MayRun b k := by
  have hbay : u.bay b = s.bay b := State.bay_congr hu.path
  refine ⟨?_, ?_, ?_, hu.links ▸ h.here⟩
  · rw [State.bayOfDp, hu.cv]
    exact h.bay
  · rw [hbay]
    exact h.good
  · rw [hbay, State.passed, hu.time]
    exact h.held

/-- PERST# of the port is up, and the hub has said so. -/
def State.Runs (s : State) (k : Nat) : Prop := (s.pcLink (k + 1)).perst = false ∧ Emit.perst k false ∈ s.out

theorem State.Runs.steered (h : s.Runs k) (hu : s.Steers (k + 1) u) : u.Runs k := ⟨hu.perst.trans h.1, hu.out h.2⟩

theorem State.MayRun.steer (h : s.MayRun b k) (hp : (s.pcLink (k + 1)).perst = true) : (s.steer k).Runs k := by
  have hon : s.steer k = (s.drivePerst k false).trainLink (k + 1) := by
    unfold State.steer
    rw [h.bay]
    dsimp only
    rw [h.good, h.held, hp]
    rfl
  have hdriven : (s.drivePerst k false).Runs k :=
    ⟨congrArg PciLink.perst (nth_modify_same _ _ _ _ h.here), List.mem_append_right _ (.head _)⟩
  rw [hon]
  exact hdriven.steered ((State.Steers.refl _).trainLink _)

theorem steers_others (l : List Nat) (hk : k ∉ l) (s : State) : s.Steers (k + 1) (l.foldl State.steer s) := by
  induction l generalizing s with
  | nil => exact .refl s
  | cons j l ih =>
    obtain ⟨hj, hl⟩ := not_or.mp (List.mem_cons.not.mp hk)
    exact (State.Steers.steer_other (by omega) s).trans (ih hl _)

/-- RELEASE lifts PERST# of a port that may run. -/
theorem State.MayRun.released (h : s.MayRun b k) (h3 : k ≤ 3) (hp : (s.pcLink (k + 1)).perst = true) : s.releasePerst.Runs k := by
  obtain ⟨l₁, l₂, hl, h₁, h₂⟩ : ∃ l₁ l₂, [0, 1, 2, 3] = l₁ ++ k :: l₂ ∧ k ∉ l₁ ∧ k ∉ l₂ := by
    refine ⟨List.range k, List.range' (k + 1) (3 - k), ?_, ?_, ?_⟩
    · interval_cases k <;> rfl
    · simp
    · simp [List.mem_range']; omega
  rw [releasePerst_eq, hl, List.foldl_append, List.foldl_cons]
  have hbefore := steers_others l₁ h₁ s
  exact ((h.steered hbefore).steer (hbefore.perst.trans hp)).steered (steers_others l₂ h₂ _)

theorem bayPerstRelease_gives (hp : s.pwrLive = true) (h3 : k ≤ 3) (hdp : s.dpOfBay b = some k) (hbay : s.bayOfDp k = some b)
    (hpg : (s.bay b).pg = true) (ht : s.passed (s.bay b).pgTick (msTicks 100) = true) (hperst : (s.pcLink (k + 1)).perst = true)
    (hl : s.pcie.links.length = 5) :
    Gives (.bayPerstRelease b) s fun t => (t.pcLink (k + 1)).perst = false ∧ Emit.perst k false ∈ t.out := by
  refine gives_of_runIf (execBayPerstRelease.eq_1 b s) hp ?_
  rw [if_pos (by rw [show s.begin.dpOfBay b = s.dpOfBay b from rfl, hdp]; rfl)]
  exact State.MayRun.released (s := s.begin) ⟨hbay, hpg, ht, by show k + 1 < s.pcie.links.length; omega⟩ h3 hperst

theorem bayPerstRelease_none (hp : s.pwrLive = true) (hdp : s.dpOfBay b = none) : Leaves (.bayPerstRelease b) s s := by
  refine gives_of_runIf (execBayPerstRelease.eq_1 b s) hp ?_
  rw [if_neg (by rw [show s.begin.dpOfBay b = s.dpOfBay b from rfl, hdp]; decide)]
  exact s.hush_begin

end Perst

end Sys2Proof.Machine

/-! Feeds and VBUS switches (R437 to R440, R442, R443), and with the bays the power path's statement. -/
namespace Sys2Proof.Machine

section Feeds
variable {s : State} {n : Nat}

theorem State.feed_setFeed_congr {β : Type} (φ : FeedSt → β) (f : FeedSt → FeedSt) (h : ∀ x, φ (f x) = φ x) (s : State) (k j : Nat) :
    φ ((s.setFeed k f).feed j) = φ (s.feed j) := nth_modify_congr φ f h _ _ _ _

theorem State.vsw_setVsw_congr {β : Type} (φ : VbusSt → β) (f : VbusSt → VbusSt) (h : ∀ x, φ (f x) = φ x) (s : State) (k j : Nat) :
    φ ((s.setVsw k f).vsw j) = φ (s.vsw j) := nth_modify_congr φ f h _ _ _ _

theorem State.vbusOff_eq (s : State) (k : Nat) : ∃ o, s.vbusOff k = { s.vswOff k with out := o } := by
  unfold State.vbusOff
  dsimp only
  split
  · exact ⟨_, rfl⟩
  · exact ⟨_, rfl⟩

theorem feedPresent_gives (mv ma ms : Nat) (hp : s.powered = true) (hn : n ≤ 1) (habs : (s.feed n).present = false) (hcan : s.feedCan n = true)
    (hmv : s.pathCv Fld.FEED_UV_MV * 105 ≤ mv * 100) (hms : 10 ≤ ms) :
    Gives (.feedPresent n mv ma ms) s fun t =>
      t.hush = ({ s.setFeed n fun f => { f with present := true, gate := f.gate || s.pwrLive, mv := mv, ma := ma } with
        ppath := { (s.setFeed n fun f => { f with present := true, gate := f.gate || s.pwrLive, mv := mv, ma := ma }).ppath with
          fed := true } } : State).hush ∧ Heard 1 s t 160 (n + 2) := by
  refine gives_of_runIf (execFeedPresent.eq_1 n mv ma ms s) hp ?_
  rw [if_neg ?_]
  · exact ⟨(State.hush_raise ..).trans rfl, heard_raise_mbx rfl rfl rfl⟩
  · have h1 : (s.begin.feed n).present = false := habs
    have h2 : s.begin.feedCan n = true := hcan
    have h3 : s.begin.pathCv Fld.FEED_UV_MV * 105 ≤ mv * 100 := hmv
    simp only [h1, h2, Bool.or_eq_true, decide_eq_true_eq, Bool.not_true, Bool.false_eq_true, or_false]
    omega

theorem feedPresent_leaves (mv ma ms : Nat) (hp : s.powered = true) (hno : 1 < n ∨ mv * 100 < s.pathCv Fld.FEED_UV_MV * 105 ∨ ms < 10) :
    Leaves (.feedPresent n mv ma ms) s s := by
  refine gives_of_runIf (execFeedPresent.eq_1 n mv ma ms s) hp ?_
  rw [if_pos ?_]
  · exact s.hush_begin
  · simp only [Bool.or_eq_true, decide_eq_true_eq]
    obtain h | h | h := hno
    · exact .inl (.inl (.inl (.inl h)))
    · exact .inl (.inr h)
    · exact .inr h

theorem feedAbsent_gives (mv us : Nat) (rev : Bool) (hp : s.powered = true) (hn : n ≤ 1)
    (hlow : rev = true ∨ (mv < s.pathCv Fld.FEED_UV_MV ∧ 10 ≤ us)) (hpres : (s.feed n).present = true)
    (hother : (s.feed (1 - n)).present = true) (hl : s.ppath.feeds.length = 2) :
    Gives (.feedAbsent n mv us rev) s fun t =>
      t.hush = (s.setFeed n fun f => { f with present := false, gate := false, mv := mv, ma := 0 }).hush
        ∧ Emit.orGates (if n == 0 then 0 else 1000) ∈ t.out ∧ Heard 1 s t 160 n := by
  refine gives_of_runIf (execFeedAbsent.eq_1 n mv us rev s) hp ?_
  have hpres' : (s.begin.feed n).present = true := hpres
  have hgone : (rev || (decide (mv < s.begin.pathCv Fld.FEED_UV_MV) && decide (10 ≤ us))) = true := by
    rw [Bool.or_eq_true, Bool.and_eq_true, decide_eq_true_eq, decide_eq_true_eq]
    exact hlow
  rw [if_neg (by rw [hgone]; simp [hn]), if_pos hpres']
  have hkept : (s.begin.feedGone n mv).railsCheck = s.begin.feedGone n mv := by
    refine if_neg ?_
    have hany : (s.begin.feedGone n mv).ppath.feeds.any (fun f => f.present) = true := by
      have hstill : nth (s.begin.feedGone n mv).ppath.feeds (1 - n) .init = s.feed (1 - n) := by
        rw [State.feedGone, State.raise_ppath]
        exact nth_modify_ne _ _ _ _ _ (by omega)
      have hlen : (s.begin.feedGone n mv).ppath.feeds.length = 2 := by
        rw [State.feedGone, State.raise_ppath]
        exact (List.length_modify ..).trans hl
      obtain h | h := nth_eq_or_mem (s.begin.feedGone n mv).ppath.feeds (1 - n) .init
      · exact absurd hother (by rw [← hstill, h]; decide)
      · exact List.any_eq_true.mpr ⟨_, h, by rw [hstill]; exact hother⟩
    rw [hany]
    simp
  rw [hkept]
  exact ⟨(State.hush_raise ..).trans rfl, (by rw [State.feedGone, State.raise_out]; exact .head _ : _ ∈ ((s.begin.feedGone n mv)).out), heard_raise_mbx rfl rfl rfl⟩

theorem feedShareUpdate_says (mv0 ma0 mv1 ma1 : Nat) (hp : s.pwrLive = true) (hl : s.ppath.feeds.length = 2)
    (h0 : (s.feed 0).present = true) (h1 : (s.feed 1).present = true) :
    let u := (s.setFeed 0 fun f => { f with mv := mv0, ma := ma0 }).setFeed 1 fun f => { f with mv := mv1, ma := ma1 }
    Says (.feedShareUpdate mv0 ma0 mv1 ma1) s u [.orGates (u.feedLimit 0 * 1000 / max 1 (u.feedLimit 0 + u.feedLimit 1))] := by
  intro u
  refine gives_of_runIf (execFeedShareUpdate.eq_1 mv0 ma0 mv1 ma1 s) hp ?_
  have hp0 : (u.feed 0).present = true :=
    (congrArg FeedSt.present ((nth_modify_ne _ _ 1 0 _ (by decide)).trans (nth_modify_same _ _ 0 _ (by show 0 < s.ppath.feeds.length; omega))) :).trans h0
  have hp1 : (u.feed 1).present = true := by
    refine (State.feed_setFeed_congr FeedSt.present _ ?_ _ 1 1).trans ((State.feed_setFeed_congr FeedSt.present _ ?_ s 0 1).trans h1)
    · exact fun _ => rfl
    · exact fun _ => rfl
  dsimp only
  rw [if_pos (by rw [Bool.and_eq_true]; exact ⟨hp0, hp1⟩)]
  exact ⟨rfl, rfl⟩

theorem feedOverload_leaves (ma ms : Nat) (hp : s.pwrLive = true) (hno : ma * 10 ≤ s.feedLimit n * 11 ∨ s.shedAgain = false) :
    Leaves (.feedOverload n ma ms) s s := by
  refine gives_of_runIf (execFeedOverload.eq_1 n ma ms s) hp ?_
  rw [if_pos ?_]
  · exact s.hush_begin
  · simp only [Bool.or_eq_true, Bool.not_eq_true', decide_eq_true_eq]
    obtain h | h := hno
    · exact .inl (.inl (.inr h))
    · exact .inr h

/-- The first output to be shed is VBUS of the last port (R440). -/
theorem feedOverload_gives (ma ms : Nat) (hp : s.pwrLive = true) (hn : n ≤ 1) (hpres : (s.feed n).present = true)
    (hma : s.feedLimit n * 11 < ma * 10) (hms : s.cv Fld.FEED_OC_MS ≤ ms) (hrom : s.romNow = false) (hagain : s.shedAgain = true)
    (hon : s.outputOn 5 = true) (hhub : s.isUsbHub = false) :
    Gives (.feedOverload n ma ms) s fun t => (t.vsw 5).state ≠ 1 ∧ (t.feed n).ma = ma ∧ t.ppath.sheds = satAdd 32 s.ppath.sheds 1
      ∧ t.ppath.shedTick = some s.time.tick ∧ Heard 1 s t 161 (n + 80) := by
  refine gives_of_runIf (execFeedOverload.eq_1 n ma ms s) hp ?_
  have hcv : s.begin.pathCv Fld.FEED_OC_MS = s.cv Fld.FEED_OC_MS := if_neg (Bool.eq_false_iff.mp hrom)
  have hpres' : (s.begin.feed n).present = true := hpres
  have hagain' : s.begin.shedAgain = true := hagain
  have hlimit : ¬ ma * 10 ≤ s.begin.feedLimit n * 11 := not_le.mpr hma
  rw [if_neg (by rw [hpres', hagain', hcv]; simp [hlimit]; omega)]
  obtain ⟨u, hu⟩ : ∃ u, u = s.begin.setFeed n fun f => { f with ma := ma } := ⟨_, rfl⟩
  have hfind : shedOrder.find? u.outputOn = some 5 := by
    have h5 : u.outputOn 5 = true := by rw [hu]; exact hon
    rw [shedOrder, List.find?_cons_of_pos h5]
  have hshed : u.shedOutput 5 = u.vbusOff 5 := by
    have hhub' : (u.vbusOff 5).isUsbHub = false := by
      obtain ⟨o, ho⟩ := u.vbusOff_eq 5
      rw [ho, hu]
      exact hhub
    show (if (u.vbusOff 5).isUsbHub then _ else _) = _
    rw [hhub', if_neg Bool.false_ne_true]
  dsimp only
  rw [← hu, hfind]
  dsimp only
  rw [hshed]
  obtain ⟨o, ho⟩ := u.vbusOff_eq 5
  have h5 : (s.vsw 5).state = 1 := beq_iff_eq.mp hon
  have hlen : 5 < s.ppath.vbus.length := lt_of_nth_ne (d := VbusSt.init) fun h => absurd ((congrArg VbusSt.state h).symm.trans h5) (by decide)
  have hhere : n < s.ppath.feeds.length := lt_of_nth_ne (d := FeedSt.init) fun h => absurd ((congrArg FeedSt.present h).symm.trans hpres) (by decide)
  have hvsw : ({ u.vswOff 5 with out := o } : State).vsw 5 = { s.vsw 5 with
      state := if (s.vsw 5).state == 3 then 3 else 0, target := 0, settled := (s.vsw 5).mv < 800, wants := none
      bleed := !((s.vsw 5).mv < 800) } := by
    rw [hu]
    exact nth_modify_same _ _ _ _ hlen
  have hfeed : (({ u.vswOff 5 with out := o } : State).feed n).ma = ma := by
    rw [hu]
    exact congrArg FeedSt.ma (nth_modify_same _ _ _ _ hhere)
  rw [ho]
  refine ⟨?_, ?_, ?_, ?_, by rw [hu]; exact heard_raise_mbx rfl rfl rfl⟩
  · rw [State.vsw, State.raise_ppath]
    have hoff : (({ u.vswOff 5 with out := o } : State).vsw 5).state = if (s.vsw 5).state == 3 then 3 else 0 := congrArg VbusSt.state hvsw
    rw [h5] at hoff
    exact fun h => absurd (hoff.symm.trans h) (by decide)
  · rw [State.feed, State.raise_ppath]
    exact hfeed
  · rw [State.raise_ppath, hu]
    rfl
  · rw [State.raise_ppath, hu]
    rfl

/-! ### VBUS switches -/

theorem vbusSettled_unsettled (k mv ma ms : Nat) (hp : s.pwrLive = true) (ht : (s.vsw k).target ≠ 0) (hno : ms = 0 ∨ mv * 100 < (s.vsw k).target * 95) :
    Leaves (.vbusSettled k mv ma ms) s (s.setVsw k fun v => { v with mv := mv, ma := ma, settled := false }) := by
  refine gives_of_runIf (execVbusSettled.eq_1 k mv ma ms s) hp ?_
  have hok : (decide (0 < ms) && (if (s.begin.vsw k).target == 0 then decide (mv < 800)
      else decide ((s.begin.vsw k).target * 95 ≤ mv * 100) && decide (mv * 100 ≤ (s.begin.vsw k).target * 105))) = false := by
    obtain h | h := hno
    · simp [h]
    · have h' : ¬ (s.begin.vsw k).target * 95 ≤ mv * 100 := not_le.mpr h
      have ht' : (s.begin.vsw k).target ≠ 0 := ht
      simp [h', ht']
  dsimp only
  rw [hok, Bool.not_false, Bool.or_true, if_pos rfl]
  simp only [Bool.and_true]
  rfl

theorem vbusSwitchFault_gives (k ms : Nat) (trip : Bool) (hp : s.pwrLive = true) (h2 : 2 ≤ k) (h5 : k ≤ 5) (hs : (s.vsw k).state = 1)
    (hhub : s.isUsbHub = false) (ht : trip = true ∨ s.cv Fld.VBUS_FAULT_MS ≤ ms) :
    Gives (.vbusSwitchFault k ms trip) s fun t =>
      t.hush = (s.setVsw k fun v => { v with
        state := 3, target := 0, settled := false, wants := none, bleed := true, faults := satAdd 32 v.faults 1
        faultAt := s.time.tick }).hush
      ∧ Emit.vbus k (s.vsw k).rail 0 0 true ∈ t.out ∧ Heard 1 s t 165 k := by
  refine gives_of_runIf (execVbusSwitchFault.eq_1 k ms trip s) hp ?_
  have hs' : (s.begin.vsw k).state = 1 := hs
  have ht' : (trip || decide (s.begin.cv Fld.VBUS_FAULT_MS ≤ ms)) = true := by
    rw [Bool.or_eq_true, decide_eq_true_eq]
    exact ht
  dsimp only
  rw [hs', ht', if_neg (by simp; omega), if_neg (by omega), if_neg (by
    rw [State.isUsbHub, State.raise_topo]
    exact Bool.eq_false_iff.mp hhub)]
  refine ⟨(State.hush_raise ..).trans rfl, ?_, heard_raise_mbx rfl rfl rfl⟩
  rw [State.raise_out]
  refine List.mem_cons.mpr (.inl (congrArg (fun r => Emit.vbus k r 0 0 true) (State.vsw_setVsw_congr VbusSt.rail _ ?_ s.begin k k).symm))
  exact fun _ => rfl

theorem vbusRetryExpiry_gives (k : Nat) (hp : s.pwrLive = true) (hs : (s.vsw k).state = 3) (hw : (s.vsw k).wants = none)
    (hhub : s.isUsbHub = false) (ht : s.passed (s.vsw k).faultAt (msTicks (s.cv Fld.VBUS_RETRY_MS)) = true) :
    Leaves (.vbusRetryExpiry k) s (s.setVsw k fun v => { v with state := 0, wants := none }) := by
  refine gives_of_runIf (execVbusRetryExpiry.eq_1 k s) hp ?_
  have hs' : (s.begin.vsw k).state = 3 := hs
  have hw' : (s.begin.vsw k).wants = none := hw
  have ht' : s.begin.passed (s.begin.vsw k).faultAt (msTicks (s.begin.cv Fld.VBUS_RETRY_MS)) = true := ht
  have hhub' : (s.begin.setVsw k fun v => { v with state := 0, wants := none }).isUsbHub = false := hhub
  dsimp only
  rw [hs', ht', if_neg (by decide), hw', hhub', Bool.and_false, if_neg Bool.false_ne_true]
  rfl

theorem vbusRetryExpiry_early (k : Nat) (hp : s.pwrLive = true) (ht : s.passed (s.vsw k).faultAt (msTicks (s.cv Fld.VBUS_RETRY_MS)) = false) :
    Leaves (.vbusRetryExpiry k) s s := by
  refine gives_of_runIf (execVbusRetryExpiry.eq_1 k s) hp ?_
  have ht' : s.begin.passed (s.begin.vsw k).faultAt (msTicks (s.begin.cv Fld.VBUS_RETRY_MS)) = false := ht
  dsimp only
  rw [ht', Bool.not_false, Bool.or_true, if_pos rfl]
  exact s.hush_begin

end Feeds

/-- Settles O26: each sampled value against its limit, each timer past its time and before it, and the records of the feeds, the switches and
the bays as the shared operations leave them. -/
theorem powerPath : Obligations.PowerPath := by
  refine ⟨fun s => ⟨?_, ?_, ?_, ?_, ?_, ?_, ?_, ?_, ?_, ?_⟩, fun s b hp h3 hl =>
    ⟨?_, ?_, ?_, ?_, ?_, ?_, ?_, ?_, ?_, ?_, ?_, ?_, ?_, ?_, ?_, ?_, ?_, ?_, ?_, ?_, ?_, ?_, ?_, ?_⟩⟩
  · exact fun n mv ma ms hp hn habs hcan hmv hms => feedPresent_gives mv ma ms hp hn habs hcan hmv hms
  · exact fun n mv ma ms hp hno => feedPresent_leaves mv ma ms hp hno
  · exact fun n mv us rev hp hn hlow hpres hother hl => feedAbsent_gives mv us rev hp hn hlow hpres hother hl
  · exact fun mv0 ma0 mv1 ma1 hp hl h0 h1 => feedShareUpdate_says mv0 ma0 mv1 ma1 hp hl h0 h1
  · exact fun n ma ms hp hn hpres hma hms hrom hagain hon hhub => feedOverload_gives ma ms hp hn hpres hma hms hrom hagain hon hhub
  · exact fun n ma ms hp hno => feedOverload_leaves ma ms hp hno
  · exact fun k mv ma ms hp ht hno => vbusSettled_unsettled k mv ma ms hp ht hno
  · exact fun k ms trip hp h2 h5 hs hhub ht => vbusSwitchFault_gives k ms trip hp h2 h5 hs hhub ht
  · exact fun k hp hs hw hhub ht => vbusRetryExpiry_gives k hp hs hw hhub ht
  · exact fun k hp ht => vbusRetryExpiry_early k hp ht
  · exact bayShortPinClose_gives hp h3 hl
  · exact bayShortPinOpen_gives hp h3 hl
  · exact baySeatDebounce_gives hp h3 hl
  · exact baySeatDebounce_early hp
  · exact bayCurrentLimit_gives hp h3 hl
  · exact bayFaultTimer_gives hp h3 hl
  · exact bayFaultTimer_counts hp h3
  · exact bayBreaker_gives hp h3 hl
  · exact bayBreaker_leaves hp
  · exact bayRampTimeout_gives hp h3 hl
  · exact bayRampTimeout_early hp
  · exact bayPgRise_gives hp h3 hl
  · exact bayPgRise_leaves hp
  · exact bayPgFall_gives hp h3 hl
  · exact bayPgFall_leaves hp
  · exact bayRetryExpiry_gives hp h3 hl
  · exact bayRetryExpiry_early hp
  · exact bayRetriesRestore_leaves hp
  · exact bayRetriesRestore_early hp
  · exact fun k => bayPerstRelease_gives hp
  · exact bayPerstRelease_none hp
  · exact fetTempUpdate_none hp h3
  · exact fetTempUpdate_bad hp h3
  · exact fetTempUpdate_hot hp h3 hl

end Sys2Proof.Machine

/-! The sideband bridge (R349 to R354), clause by clause: transactions and locks between hubs, on the buses and from the target interfaces. -/
namespace Sys2Proof.Machine

section Bridge
variable {s : State}

/-! ### A bridge with nothing to start -/

theorem State.sbSettle_idle {u : State} (h : u.sb.txs = []) : u.sbSettle = u := by
  rw [State.sbSettle, State.sbGo_idle h]
  rfl

/-- A transaction on the bus keeps the others from starting while it runs. -/
theorem State.sbSettle_running {u : State} {x : SbTx} (h : u.sb.txs = [x]) (hr : x.running = true) : u.sbSettle = u := by
  simp [State.sbSettle, State.sbGo, sbRun, State.sbStale, State.sbStartable, h, hr]

theorem sbPump_idle {u : State} (p : Nat) (hx : u.sb.txs = []) (hw : u.sb.waits = []) : sbPump p 8 u = u := by
  simp [sbPump, State.sbOutstanding, State.sbNextTx, State.sbNextWait, hx, hw]

theorem State.sbGrant_alone {u : State} (hw : u.sb.waits = []) (kind intf : Nat) : u.sbGrant kind intf = u := by
  unfold State.sbGrant
  split
  · rfl
  · simp [hw, oldestWait]

theorem State.sbRelease_eq {u : State} (hw : u.sb.waits = []) (l : SbLock) :
    u.sbRelease l = ({ u with sb := { u.sb with locks := u.sb.locks.filter fun k => k.handle != l.handle } } : State).sbForget
      fun h => h.handle == l.handle && h.port.isNone := by
  unfold State.sbRelease
  exact State.sbGrant_alone (by exact hw) _ _

theorem State.sbDeliver_frame {u : State} {d : SbDone} {p n : Nat} (h : d.tx.origin = .frame p n) :
    u.sbDeliver d = u.sbSend p sbXferRepOp n (xferReply d.result d.data) := by
  rw [State.sbDeliver, h]

/-! ### Frames from a cable port -/

/-- The state once a fan has been written (R358). -/
def State.fanWritten (u : State) (t : SbTx) (b : Byte) : State :=
  (({ u.emit (.sbBus 5 t.route.dstIf t.route.dstId t.xfer.reads t.xfer.repeatedStart [b]) with
    sb := { u.sb with duty := put u.sb.duty (t.route.dstId % 4) b.toNat } } : State).emit (.fan (t.route.dstId % 4) b.toNat)).sbDrop t

/-- A write to a fan, alone in the bridge, ends at once. -/
theorem State.sbGo_fanWrite {u : State} {t : SbTx} {b : Byte} (h : u.sb.txs = [t]) (hr : t.running = false) (hs : t.sentOn = none)
    (hl : t.xfer.lock = 0) (hk : t.route.dstKind = 5) (hd : t.xfer.data = [b]) (hlock : u.sbLockOn 5 t.route.dstIf = none) :
    u.sbGo = ([⟨t, 0, (leBytes 2 (nth u.sb.rpm (t.route.dstId % 4) 0)).take t.xfer.reads⟩], u.fanWritten t b) := by
  have hbyte : leAt 0 1 [b] = b.toNat := by simp [leAt, slice, leNat]
  have hstale : u.sbStale = none := by simp [State.sbStale, h, hl]
  have hstart : u.sbStartable = some t := by simp [State.sbStartable, State.sbRunning, h, hr, hs, hk, hlock]
  have hgo : u.sbStart t = (some (0, (leBytes 2 (nth u.sb.rpm (t.route.dstId % 4) 0)).take t.xfer.reads),
      ({ u.emit (.sbBus 5 t.route.dstIf t.route.dstId t.xfer.reads t.xfer.repeatedStart [b]) with
        sb := { u.sb with duty := put u.sb.duty (t.route.dstId % 4) b.toNat } } : State).emit (.fan (t.route.dstId % 4) b.toNat)) := by
    simp [State.sbStart, State.sbController, hk, hd, State.emit, hbyte]
  have hdone : (u.fanWritten t b).sb.txs = [] := by simp [State.fanWritten, State.sbDrop, State.emit, h]
  unfold State.sbGo
  rw [h, show 2 * [t].length + 2 = 3 + 1 from rfl, sbRun, hstale, hstart]
  dsimp only
  rw [hgo]
  dsimp only
  rw [sbRun, show State.sbDrop _ t = u.fanWritten t b from rfl]
  simp [State.sbStale, State.sbStartable, hdone]

variable (ha : s.awake = true)
include ha

theorem sbXferFrame_fan (port num : Nat) (r : SbRoute) (x : SbXfer) (htx : s.sb.txs = []) (hh : r.hops = 0) (hk : r.dstKind = 5) (hd : x.data = [])
    (hr : x.reads = 2) (hl : x.lock = 0) (hfree : s.sbLockOn 5 r.dstIf = none) :
    Gives (.sbXferFrame port num r x) s fun t => t.sb.txs = [] ∧ t.out = [.sbBus 5 r.dstIf r.dstId 2 x.repeatedStart []]
      ∧ t.cable = (s.peerSend port (reqBytes sbXferRepOp
          ⟨.peer port, BitVec.ofNat 16 num, 0, 0, 0, leBytes 1 0 ++ zeros 3 ++ leBytes 2 (nth s.sb.rpm (r.dstId % 4) 0)⟩)).cable := by
  refine gives_of_run (execSbXferFrame.eq_1 port num r x s) ha ?_
  obtain ⟨m, hm⟩ := s.begin.sbModes_eq
  rw [hm]
  have hsub : ({ s.begin with sb := { s.begin.sb with modes := m } } : State).sbSubmit (.frame port num) r x
      = (s.sb.nextNum, [], { s.begin with sb := { s.sb with
          modes := m, nextNum := s.sb.nextNum + 1, txs := [⟨s.sb.nextNum, .frame port num, r, x, none, false, 0⟩] } }) := by
    simp [State.sbSubmit, hh, htx, State.begin]
  have hgo := State.sbGo_fan (u := { s.begin with sb := { s.sb with
      modes := m, nextNum := s.sb.nextNum + 1, txs := [⟨s.sb.nextNum, .frame port num, r, x, none, false, 0⟩] } })
    (t := ⟨s.sb.nextNum, .frame port num, r, x, none, false, 0⟩) rfl rfl rfl hl hk hd hfree
  dsimp only
  rw [hsub]
  dsimp only
  rw [List.foldl_nil, State.sbSettle, hgo]
  dsimp only
  rw [List.foldl_cons, List.foldl_nil, State.sbDeliver_frame rfl]
  refine ⟨?_, ?_, ?_⟩
  · simp [State.sbSend, State.peerSend, State.sbDrop, State.emit]
  · show [Emit.sbBus 5 r.dstIf r.dstId x.reads x.repeatedStart []] = _
    rw [hr]
  · rw [hr]
    rfl

theorem sbXferRep_passes (port : Nat) (x : SbTx) (up n : Nat) (reply : List Byte) (htx : s.sb.txs = [x]) (hw : s.sb.waits = [])
    (hs : x.sentOn = some port) (ho : x.origin = .frame up n) (hne : reply ≠ []) (h7 : leAt 0 1 reply ≠ 7) :
    Leaves (.sbXferRep port x.num reply) s (({ s with sb := { s.sb with txs := [] } } : State).peerSend up (reqBytes sbXferRepOp
      ⟨.peer up, BitVec.ofNat 16 n, 0, 0, 0, leBytes 1 (leAt 0 1 reply) ++ zeros 3 ++ reply.drop 4⟩)) := by
  refine gives_of_run (execSbXferRep.eq_1 port x.num reply s) ha ?_
  have hfind : (s.begin.sb.txs.find? fun t => t.sentOn == some port && t.num % 65536 == x.num % 65536) = some x := by
    show s.sb.txs.find? _ = _
    rw [htx]
    simp [hs]
  have hdrop : s.begin.sbDrop x = { s.begin with sb := { s.sb with txs := [] } } := by
    simp [State.sbDrop, htx, State.begin]
  rw [hfind]
  dsimp only
  rw [hdrop, List.isEmpty_eq_false_iff.mpr hne, State.sbDeliver_frame ho, sbPump_idle port (by rfl) (by exact hw)]
  dsimp only
  rw [if_neg Bool.false_ne_true, xferReply, if_neg (by simpa using h7)]
  rfl

theorem sbLockFrame_grants (port num : Nat) (r : SbRoute) (h : SbHolder) (htx : s.sb.txs = []) (hh : r.hops = 0)
    (hfree : s.sbLockOn r.dstKind r.dstIf = none) :
    let k := s.sb.nextLock + 65536 * (s.topo.depth % 16)
    Leaves (.sbLockFrame port num r h) s (({ s with sb := { s.sb with
        nextLock := if s.sb.nextLock == 65535 then 1 else s.sb.nextLock + 1
        locks := s.sb.locks ++ [⟨k, r.dstKind, r.dstIf, s.sbHolder port h, .frame port num, false, s.time.tick⟩] } } : State).peerSend port
      (reqBytes sbLockRepOp ⟨.peer port, BitVec.ofNat 16 num, 0, 0, 0, leBytes 1 0 ++ leBytes 4 k⟩)) := by
  refine gives_of_run (execSbLockFrame.eq_1 port num r h s) ha ?_
  dsimp only
  rw [if_pos (by rw [hh]; rfl), State.sbLockHere_free (s := s.begin) hfree]
  dsimp only
  rw [State.sbSettle_idle (by exact htx)]
  rfl

theorem sbLockFrame_waits (port num : Nat) (r : SbRoute) (h : SbHolder) (l : SbLock) (htx : s.sb.txs = []) (hh : r.hops = 0)
    (hheld : s.sbLockOn r.dstKind r.dstIf = some l) (hage : sbOlder (s.sbHolder port h) l.holder = false) :
    Leaves (.sbLockFrame port num r h) s { s with sb := { s.sb with
        waits := s.sb.waits ++ [⟨num, .frame port num, r, s.sbHolder port h, none, false, s.time.tick⟩] } } := by
  refine gives_of_run (execSbLockFrame.eq_1 port num r h s) ha ?_
  have hheld' : s.begin.sbLockOn r.dstKind r.dstIf = some l := hheld
  have hage' : sbOlder (s.begin.sbHolder port h) l.holder = false := hage
  dsimp only
  rw [if_pos (by rw [hh]; rfl), State.sbLockHere, hheld']
  dsimp only
  rw [hage', if_neg Bool.false_ne_true]
  dsimp only
  rw [State.sbSettle_idle (by exact htx)]
  rfl

theorem sbLockRep_expired (port : Nat) (w : SbWait) (up n handle : Nat) (hw : s.sb.waits = [w]) (htx : s.sb.txs = []) (hs : w.sentOn = some port)
    (ho : w.origin = .frame up n) :
    Leaves (.sbLockRep port w.num 1 handle) s (({ s with sb := { s.sb with waits := [] } } : State).peerSend up
      (reqBytes sbLockRepOp ⟨.peer up, BitVec.ofNat 16 n, 0, 0, 0, leBytes 1 1 ++ leBytes 4 handle⟩)) := by
  refine gives_of_run (execSbLockRep.eq_1 port w.num 1 handle s) ha ?_
  have hfind : (s.begin.sb.waits.find? fun x => x.sentOn == some port && x.num % 65536 == w.num % 65536) = some w := by
    show s.sb.waits.find? _ = _
    rw [hw]
    simp [hs]
  have herase : s.begin.sb.waits.erase w = [] := by
    show s.sb.waits.erase w = []
    rw [hw]
    simp
  rw [hfind]
  dsimp only
  rw [herase, ho]
  dsimp only
  rw [if_neg (by decide), State.sbLockReply, sbPump_idle port (by exact htx) (by rfl)]
  rfl

theorem sbUnlockFrame_releases (port : Nat) (l : SbLock) (lapsed : Bool) (hp : s.sb.passed = [])
    (hl : (s.sb.locks.find? fun x => x.handle == l.handle) = some l) (hw : s.sb.waits = []) (htx : s.sb.txs = []) :
    Gives (.sbUnlockFrame port l.handle lapsed) s fun t => t.sb.locks = s.sb.locks.filter (fun x => x.handle != l.handle)
      ∧ (lapsed = true → Heard 1 s t 124 (l.intf % 16)) := by
  refine gives_of_run (execSbUnlockFrame.eq_1 port l.handle lapsed s) ha ?_
  have hpass : (s.begin.sb.passed.find? fun x => x.1 == l.handle && x.2.1 == port) = none := by
    show s.sb.passed.find? _ = none
    rw [hp]
    rfl
  have hfind : (s.begin.sb.locks.find? fun x => x.handle == l.handle) = some l := hl
  have hsb : (s.begin.raiseIf lapsed 124 (l.intf % 16)).sb = s.sb := by
    cases lapsed
    · rfl
    · exact State.raise_sb ..
  rw [hpass]
  dsimp only
  rw [hfind]
  dsimp only
  rw [State.sbRelease_eq (by rw [hsb]; exact hw), State.sbSettle_idle (by show (s.begin.raiseIf lapsed 124 (l.intf % 16)).sb.txs = []; rw [hsb]; exact htx)]
  refine ⟨?_, fun hlap => ?_⟩
  · show (s.begin.raiseIf lapsed 124 (l.intf % 16)).sb.locks.filter _ = _
    rw [hsb]
  · subst hlap
    exact heard_raise_mbx rfl rfl rfl

theorem sbUnlockFrame_passes (port other handle : Nat) (lapsed : Bool) (hp : s.sb.passed = [(handle, port, other)]) (hup : s.linkUp other = true) :
    Leaves (.sbUnlockFrame port handle lapsed) s (({ s with sb := { s.sb with passed := [] } } : State).peerSend other
      (reqBytes sbUnlockOp ⟨.peer other, BitVec.ofNat 16 (b2n lapsed), 0, 0, 0, leBytes 4 handle⟩)) := by
  refine gives_of_run (execSbUnlockFrame.eq_1 port handle lapsed s) ha ?_
  have hfind : (s.begin.sb.passed.find? fun x => x.1 == handle && x.2.1 == port) = some (handle, port, other) := by
    show s.sb.passed.find? _ = _
    rw [hp]
    simp
  have herase : s.begin.sb.passed.erase (handle, port, other) = [] := by
    show s.sb.passed.erase _ = []
    rw [hp]
    simp
  rw [hfind]
  dsimp only
  rw [herase, if_pos (by exact hup)]
  rfl

theorem sbWound_releases (port : Nat) (h : SbHolder) (hw : s.sb.waits = []) (htx : s.sb.txs = []) (hrole : s.topo.role = .hostside)
    (hd : h.depth ≠ s.topo.depth) :
    Gives (.sbWound port h) s fun t => t.sb.locks = s.sb.locks.filter fun l => !sbSame l.holder { h with chain := port } := by
  refine gives_of_run (execSbWound.eq_1 port h s) ha ?_
  have hchain : s.begin.sbHolder port h = { h with chain := port } := if_pos (by rw [show s.begin.topo = s.topo from rfl, hrole]; rfl)
  have hown : (h.depth == s.topo.depth) = false := beq_eq_false_iff_ne.mpr hd
  rw [hchain]
  unfold State.sbWound
  extract_lets own h0 mine waits src u v w
  have hown' : own = false := by
    show ((h.depth == s.topo.depth) && _) = false
    rw [hown, Bool.false_and]
  have hh0 : h0 = { h with chain := port } := if_neg (by rw [hown']; exact Bool.false_ne_true)
  have hwaits : waits = [] := by
    show s.sb.waits.filter _ = []
    rw [hw]
    rfl
  have hu : u.sb.locks = s.sb.locks.filter (fun l => !sbSame l.holder { h with chain := port }) ∧ u.sb.waits = [] ∧ u.sb.txs = [] := by
    refine ⟨?_, ?_, htx⟩
    · show s.sb.locks.filter (fun l => !sbSame l.holder h0) = _
      rw [hh0]
    · show s.sb.waits.filter _ = []
      rw [hw]
      rfl
  have hv : v.sb = u.sb := foldl_same (fun s p => s.sbSend p sbWoundOp 0 (holderId { h with chain := port })) State.sb (fun _ _ => rfl) _ _
  have hwv : w = v := by
    show waits.foldl _ v = v
    rw [hwaits]
    rfl
  have hgrants : mine.foldl (fun s l => s.sbGrant l.kind l.intf) w = w := by
    rw [hwv]
    have hnone : v.sb.waits = [] := by rw [hv, hu.2.1]
    generalize mine = l
    induction l with
    | nil => rfl
    | cons x l ih => rw [List.foldl_cons, State.sbGrant_alone hnone, ih]
  rw [hgrants, State.sbSettle_idle (by rw [hwv, hv, hu.2.2]), hwv, hv]
  exact hu.1

/-! ### The target interfaces (R352) -/

theorem i2cTarget_posts (intf addr : Nat) (r : SbRoute) (b : Byte) (hm : nth s.sbModes.sb.modes intf 0 = 4) (htx : s.sb.txs = [])
    (hr : s.sbRoute 1 intf addr = some r) (hh : r.hops = 0) (hk : r.dstKind = 5) (hok : r.writeOk = true) (hfree : s.sbLockOn 5 r.dstIf = none) :
    Gives (.i2cTargetTransaction intf addr 0 [b]) s fun t => t.sb.duty = put s.sb.duty (r.dstId % 4) b.toNat
      ∧ t.out = [.sbTarget intf 1 [], .sbBus 5 r.dstIf r.dstId 0 false [b], .fan (r.dstId % 4) b.toNat] := by
  refine gives_of_run (execI2cTargetTransaction.eq_1 intf addr 0 [b] s) ha ?_
  have hm' : nth s.begin.sbModes.sb.modes intf 0 = 4 := hm
  have hr' : s.begin.sbModes.sbRoute 1 intf addr = some r := hr
  dsimp only
  have hpermit : routePermits r ⟨0, false, 0, [b]⟩ = true := by simp [routePermits, hok]
  obtain ⟨m, hmodes⟩ := s.begin.sbModes_eq
  have hsub : (s.begin.sbModes.emit (.sbTarget intf 1 [])).sbSubmit (.posted intf) r ⟨0, false, 0, [b]⟩
      = (s.sb.nextNum, [], { s.begin.emit (.sbTarget intf 1 []) with sb := { s.sb with
          modes := m, nextNum := s.sb.nextNum + 1, txs := [⟨s.sb.nextNum, .posted intf, r, ⟨0, false, 0, [b]⟩, none, false, 0⟩] } }) := by
    rw [hmodes]
    simp [State.sbSubmit, hh, htx, State.begin, State.emit]
  have hgo := State.sbGo_fanWrite (u := { s.begin.emit (.sbTarget intf 1 []) with sb := { s.sb with
      modes := m, nextNum := s.sb.nextNum + 1, txs := [⟨s.sb.nextNum, .posted intf, r, ⟨0, false, 0, [b]⟩, none, false, 0⟩] } })
    (t := ⟨s.sb.nextNum, .posted intf, r, ⟨0, false, 0, [b]⟩, none, false, 0⟩) rfl rfl rfl rfl hk rfl hfree
  rw [hm', if_neg (by decide), hr']
  dsimp only
  rw [if_pos (by rfl), show List.take 64 [b] = [b] from rfl, if_neg (by simp), hpermit, if_neg (by decide),
    show (if 0 < 0 then 0 else 1 : Nat) = 1 from rfl, hsub]
  dsimp only
  rw [List.foldl_nil, State.sbSettle, hgo]
  exact ⟨rfl, rfl⟩

theorem i2cTarget_misses (intf addr : Nat) (hm : nth s.sbModes.sb.modes intf 0 = 4) (hr : s.sbRoute 1 intf addr = none) :
    Gives (.i2cTargetTransaction intf addr 0 []) s fun t => t.out = [.sbTarget intf 0 []] ∧ Heard 1 s t 127 (addr % 1024 + 1024) := by
  refine gives_of_run (execI2cTargetTransaction.eq_1 intf addr 0 [] s) ha ?_
  have hm' : nth s.begin.sbModes.sb.modes intf 0 = 4 := hm
  have hr' : s.begin.sbModes.sbRoute 1 intf addr = none := hr
  dsimp only
  rw [hm', if_neg (by decide), hr']
  dsimp only
  refine ⟨?_, (heard_raise_mbx rfl rfl rfl : Heard 1 s (s.begin.sbModes.raise 127 (addr % 1024 + 1024 * 1)) 127 _).of_mbx rfl⟩
  show (s.begin.sbModes.raise 127 _).out ++ _ = _
  rw [State.raise_out]
  rfl

theorem sbHoldExpiry_gives (intf addr : Nat) (h : SbHold) (hf : (s.sb.holds.find? fun h => h.intf == intf && h.addr == addr) = some h)
    (ht : h.since + 8 * s.cv Fld.SB_HOLD_US ≤ s.slotCount) :
    Gives (.sbHoldExpiry intf addr) s fun t =>
      t.hush = ({ s with sb := { s.sb with holds := s.sb.holds.erase h, holdTimeouts := satAdd 32 s.sb.holdTimeouts 1 } } : State).hush
      ∧ Emit.sbTarget intf 2 (List.replicate h.reads 0xFF) ∈ t.out ∧ Heard 1 s t 121 (intf % 4 + 4 * (addr % 1024)) := by
  refine gives_of_run (execSbHoldExpiry.eq_1 intf addr s) ha ?_
  have hf' : (s.begin.sb.holds.find? fun h => h.intf == intf && h.addr == addr) = some h := hf
  have ht' : h.since + 8 * s.begin.cv Fld.SB_HOLD_US ≤ s.begin.slotCount := ht
  rw [hf']
  dsimp only
  rw [if_neg (Nat.not_lt.mpr ht')]
  refine ⟨(State.hush_raise ..).trans rfl, ?_, heard_raise_mbx rfl rfl rfl⟩
  rw [State.raise_out]
  exact .head _

theorem sbHoldExpiry_early (intf addr : Nat) (h : SbHold) (hf : (s.sb.holds.find? fun h => h.intf == intf && h.addr == addr) = some h)
    (ht : s.slotCount < h.since + 8 * s.cv Fld.SB_HOLD_US) : Leaves (.sbHoldExpiry intf addr) s s := by
  refine gives_of_run (execSbHoldExpiry.eq_1 intf addr s) ha ?_
  have hf' : (s.begin.sb.holds.find? fun h => h.intf == intf && h.addr == addr) = some h := hf
  have ht' : s.begin.slotCount < h.since + 8 * s.begin.cv Fld.SB_HOLD_US := ht
  rw [hf']
  dsimp only
  rw [if_pos ht']
  exact s.hush_begin

/-! ### The buses (R349, R351) -/

omit ha in
theorem State.sbRunning_only {x : SbTx} (htx : s.sb.txs = [x]) (hr : x.running = true) (hs : x.sentOn = none) :
    s.begin.sbRunning x.route.dstKind x.route.dstIf = some x := by
  show s.sb.txs.find? _ = _
  rw [htx]
  simp [hr, hs]

theorem sbArbitrationLost_says (x : SbTx) (htx : s.sb.txs = [x]) (hr : x.running = true) (hs : x.sentOn = none) (h3 : x.tries < 3) :
    Says (.sbArbitrationLost x.route.dstKind x.route.dstIf) s { s with sb := { s.sb with txs := [{ x with tries := x.tries + 1 }] } }
      [.sbBus x.route.dstKind x.route.dstIf x.route.dstId x.xfer.reads x.xfer.repeatedStart x.xfer.data] := by
  refine gives_of_run (execSbArbitrationLost.eq_1 x.route.dstKind x.route.dstIf s) ha ?_
  have hmap : (s.begin.sb.txs.map fun (u : SbTx) => if u.num == x.num then { u with tries := u.tries + 1 } else u)
      = [{ x with tries := x.tries + 1 }] := by
    show s.sb.txs.map _ = _
    rw [htx]
    simp
  rw [State.sbRunning_only htx hr hs]
  dsimp only
  rw [if_pos h3, hmap, State.sbSettle_running (x := { x with tries := x.tries + 1 }) rfl hr]
  exact ⟨rfl, rfl⟩

theorem busTransactionComplete_replies (x : SbTx) (res : Nat) (data : List Byte) (p n : Nat) (htx : s.sb.txs = [x]) (hr : x.running = true)
    (hs : x.sentOn = none) (hl : s.sb.locks = []) (ho : x.origin = .frame p n) :
    Leaves (.busTransactionComplete x.route.dstKind x.route.dstIf res data) s
      (({ s with sb := { s.sb with txs := [] } } : State).peerSend p (reqBytes sbXferRepOp
        ⟨.peer p, BitVec.ofNat 16 n, 0, 0, 0, leBytes 1 (res % 5) ++ zeros 3 ++ data.take x.xfer.reads⟩)) := by
  refine gives_of_run (execBusTransactionComplete.eq_1 x.route.dstKind x.route.dstIf res data s) ha ?_
  have hend : s.begin.sbEnd x = { s.begin with sb := { s.sb with txs := [] } } := by
    simp [State.sbEnd, State.sbDrop, State.sbLockOn, htx, hl, State.begin]
  rw [State.sbRunning_only htx hr hs]
  dsimp only
  rw [hend, State.sbDeliver_frame ho, State.sbSettle_idle (by rfl), xferReply, if_neg (by simp; omega)]
  rfl

theorem sbSdaStuck_gives (kind intf : Nat) (htx : s.sb.txs = []) :
    Gives (.sbSdaStuck kind intf) s fun t =>
      t.hush = ({ s with sb := { s.sb with busErrs := satAdd 32 s.sb.busErrs 1 } } : State).hush
      ∧ Emit.sbClocks intf ∈ t.out ∧ Heard 1 s t 122 (intf % 16 + 64) := by
  refine gives_of_run (execSbSdaStuck.eq_1 kind intf s) ha ?_
  have hsb : ((s.begin.emit (.sbClocks intf)).raise 122 (intf % 16 + 16 * 4)).sb = s.sb := State.raise_sb ..
  have hush : ((s.begin.emit (.sbClocks intf)).raise 122 (intf % 16 + 16 * 4)).hush = s.hush := State.hush_raise ..
  have hout : Emit.sbClocks intf ∈ ((s.begin.emit (.sbClocks intf)).raise 122 (intf % 16 + 16 * 4)).out := by
    rw [State.raise_out]
    exact .head _
  have hheard : Heard 1 s ((s.begin.emit (.sbClocks intf)).raise 122 (intf % 16 + 16 * 4)) 122 (intf % 16 + 64) := heard_raise_mbx rfl rfl rfl
  dsimp only
  generalize (s.begin.emit (.sbClocks intf)).raise 122 (intf % 16 + 16 * 4) = u at hsb hush hout hheard ⊢
  have hidle : ({ u with sb := { u.sb with busErrs := satAdd 32 u.sb.busErrs 1 } } : State).sbRunning kind intf = none := by
    show u.sb.txs.find? _ = none
    rw [hsb, htx]
    rfl
  rw [hidle]
  refine ⟨?_, hout, hheard.of_mbx rfl⟩
  rw [hsb]
  exact (congrArg (fun w : State => { w with sb := { s.sb with busErrs := satAdd 32 s.sb.busErrs 1 } }) hush :)

/-! ### Leases and waits (R353, R354) -/

theorem sbLockLeaseExpiry_gives (l : SbLock) (hl : (s.sb.locks.find? fun x => x.handle == l.handle) = some l) (hw : s.sb.waits = [])
    (htx : s.sb.txs = []) (ht : s.passed l.since (msTicks (s.cv Fld.SB_LOCK_MS)) = true) :
    Gives (.sbLockLeaseExpiry l.handle) s fun t =>
      t.sb.locks = (s.sb.locks.filter fun x => x.handle != l.handle) ∧ Heard 1 s t 124 (l.intf % 16) := by
  refine gives_of_run (execSbLockLeaseExpiry.eq_1 l.handle s) ha ?_
  have hfind : (s.begin.sb.locks.find? fun x => x.handle == l.handle) = some l := hl
  have ht' : s.begin.passed l.since (msTicks (s.begin.cv Fld.SB_LOCK_MS)) = true := ht
  have hsb : (s.begin.raise 124 (l.intf % 16)).sb = s.sb := State.raise_sb ..
  rw [hfind]
  dsimp only
  rw [if_pos ht', State.sbRelease_eq (by rw [hsb]; exact hw),
    State.sbSettle_idle (by show (s.begin.raise 124 (l.intf % 16)).sb.txs = []; rw [hsb]; exact htx)]
  refine ⟨?_, (heard_raise_mbx rfl rfl rfl : Heard 1 s (s.begin.raise 124 (l.intf % 16)) 124 (l.intf % 16)).of_mbx rfl⟩
  show (s.begin.raise 124 (l.intf % 16)).sb.locks.filter _ = _
  rw [hsb]

theorem sbLockLeaseExpiry_early (l : SbLock) (hl : (s.sb.locks.find? fun x => x.handle == l.handle) = some l)
    (ht : s.passed l.since (msTicks (s.cv Fld.SB_LOCK_MS)) = false) : Leaves (.sbLockLeaseExpiry l.handle) s s := by
  refine gives_of_run (execSbLockLeaseExpiry.eq_1 l.handle s) ha ?_
  have hfind : (s.begin.sb.locks.find? fun x => x.handle == l.handle) = some l := hl
  have ht' : s.begin.passed l.since (msTicks (s.begin.cv Fld.SB_LOCK_MS)) = false := ht
  rw [hfind]
  dsimp only
  rw [ht', if_neg Bool.false_ne_true]
  exact s.hush_begin

theorem sbLockWaitExpiry_replies (i : Nat) (w : SbWait) (p n : Nat) (hi : s.sb.waits[i]? = some w) (hs : w.sentOn = none)
    (ho : w.origin = .frame p n) (ht : s.passed w.since (msTicks (s.cv Fld.SB_LOCK_WAIT_MS)) = true) :
    Leaves (.sbLockWaitExpiry i) s (({ s with sb := { s.sb with waits := s.sb.waits.eraseIdx i } } : State).peerSend p
      (reqBytes sbLockRepOp ⟨.peer p, BitVec.ofNat 16 n, 0, 0, 0, leBytes 1 1 ++ leBytes 4 0⟩)) := by
  refine gives_of_run (execSbLockWaitExpiry.eq_1 i s) ha ?_
  have hi' : s.begin.sb.waits[i]? = some w := hi
  have ht' : s.begin.passed w.since (msTicks (s.begin.cv Fld.SB_LOCK_WAIT_MS)) = true := ht
  rw [hi']
  dsimp only
  rw [ht', hs, if_neg (by decide), ho]
  rfl

theorem sbLockWaitExpiry_early (i : Nat) (w : SbWait) (hi : s.sb.waits[i]? = some w)
    (ht : s.passed w.since (msTicks (s.cv Fld.SB_LOCK_WAIT_MS)) = false) : Leaves (.sbLockWaitExpiry i) s s := by
  refine gives_of_run (execSbLockWaitExpiry.eq_1 i s) ha ?_
  have hi' : s.begin.sb.waits[i]? = some w := hi
  have ht' : s.begin.passed w.since (msTicks (s.begin.cv Fld.SB_LOCK_WAIT_MS)) = false := ht
  rw [hi']
  dsimp only
  rw [ht', Bool.not_false, Bool.or_true, if_pos rfl]
  exact s.hush_begin

end Bridge

end Sys2Proof.Machine

/-! The sideband's interrupt sources, fans and UARTs (R355, R357, R358, Table 13.1), and with the bridge the statement of chapter 13. -/
namespace Sys2Proof.Machine

section Sources
variable {s u : State}

/-! ### The export of changes (R357) -/

/-- An export changes the cable links alone. -/
theorem State.sbExport_cable (u : State) (bits : Word) (level : Nat) : ∃ c, u.sbExport bits level = { u with cable := c } := by
  have hsame (w : State) (l : List Nat) (p : Nat) (h : ∃ c, w = { u with cable := c }) :
      ∃ c, l.foldl (fun s k => s.sbSend p sbIrqOp 0 (leBytes 1 (k % 8) ++ leBytes 1 level)) w = { u with cable := c } := by
    induction l generalizing w with
    | nil => exact h
    | cons k l ih =>
      obtain ⟨c, rfl⟩ := h
      exact ih _ ⟨_, rfl⟩
  unfold State.sbExport
  dsimp only
  generalize u.gen1Ports = ps
  have hall (w : State) (h : ∃ c, w = { u with cable := c }) : ∃ c, ps.foldl (fun s p =>
      ((upTo 32).filter fun k => (bits &&& BitVec.ofNat 32 (u.cv Fld.SB_IRQ_EXPORT)).getLsbD k).foldl
        (fun s k => s.sbSend p sbIrqOp 0 (leBytes 1 (k % 8) ++ leBytes 1 level)) s) w = { u with cable := c } := by
    induction ps generalizing w with
    | nil => exact h
    | cons p ps ih => exact ih _ (hsame w _ p h)
  exact hall u ⟨u.cable, rfl⟩

theorem State.sbExport_alone (h : u.gen1Ports = []) (bits : Word) (level : Nat) : u.sbExport bits level = u := by
  unfold State.sbExport
  rw [h]
  rfl

theorem State.sbExport_none (h : u.cv Fld.SB_IRQ_EXPORT = 0) (bits : Word) (level : Nat) : u.sbExport bits level = u := by
  unfold State.sbExport
  rw [h]
  dsimp only
  rw [show (bits &&& BitVec.ofNat 32 0) = 0 from BitVec.and_zero, show ((upTo 32).filter fun k => (0 : Word).getLsbD k) = [] from by decide]
  exact foldl_same _ (fun w : State => w) (fun _ _ => rfl) _ _

/-- One exported bit goes to one generation-1 port. -/
theorem State.sbExport_one {p k : Nat} (hp : u.gen1Ports = [p]) (hk : k < 32) (hx : u.cv Fld.SB_IRQ_EXPORT = 2 ^ k) (level : Nat) :
    u.sbExport (BitVec.ofNat 32 (2 ^ k)) level = u.sbSend p sbIrqOp 0 (leBytes 1 (k % 8) ++ leBytes 1 level) := by
  have hbits : ((upTo 32).filter fun j => (BitVec.ofNat 32 (2 ^ k) &&& BitVec.ofNat 32 (2 ^ k)).getLsbD j) = [k] := by
    interval_cases k <;> decide
  unfold State.sbExport
  rw [hp, hx]
  dsimp only
  rw [hbits]
  rfl

/-! ### Bits set on their sources' edges (R355) -/

/-- Where nothing pends, every bit set is new. -/
theorem bits_new {p : Word} (h : p = 0) (m : Word) : m &&& ~~~p = m ∧ p ||| m = m := by
  subst h
  exact ⟨BitVec.and_allOnes, BitVec.zero_or⟩

/-- No mask enables the bits: they pend, and what is exported of them goes out. -/
theorem State.sbIrq_masked (bits : Word) (hm : ∀ m ∈ u.sb.irqMask, m &&& bits = 0) :
    u.sbIrq bits = ({ u with sb := { u.sb with pending := u.sb.pending ||| bits } } : State).sbExport (bits &&& ~~~u.sb.pending) 1 := by
  have hnone (m : Word) (h : m ∈ u.sb.irqMask) : m &&& (bits &&& ~~~u.sb.pending) = 0 := by
    rw [← BitVec.and_assoc, hm m h]
    exact BitVec.zero_and
  unfold State.sbIrq
  dsimp only
  obtain ⟨c, hc⟩ := State.sbExport_cable ({ u with sb := { u.sb with pending := u.sb.pending ||| bits } }) (bits &&& ~~~u.sb.pending) 1
  rw [hc]
  dsimp only
  rw [show (u.sb.irqMask.filter fun m => m &&& (bits &&& ~~~u.sb.pending) != 0) = [] from
    List.filter_eq_nil_iff.mpr fun m h => by rw [hnone m h]; decide]
  rfl

/-- Bits set pend, and at most one event is told. -/
theorem State.sbIrq_pends (u : State) (bits : Word) : (u.sbIrq bits).sb.pending = u.sb.pending ||| bits ∧ u.OneMore (u.sbIrq bits)
    ∧ (u.sbIrq bits).sb.rpm = u.sb.rpm ∧ (u.sbIrq bits).sb.fanLow = u.sb.fanLow ∧ (u.sbIrq bits).sb.uartRx = u.sb.uartRx := by
  unfold State.sbIrq
  dsimp only
  obtain ⟨c, hc⟩ := State.sbExport_cable ({ u with sb := { u.sb with pending := u.sb.pending ||| bits } }) (bits &&& ~~~u.sb.pending) 1
  rw [hc]
  split
  · rw [State.raise_sb]
    exact ⟨rfl, (State.OneMore.raise ..).after_mbx rfl rfl, rfl, rfl, rfl⟩
  · exact ⟨rfl, .of_mbx rfl rfl, rfl, rfl, rfl⟩

variable (ha : s.awake = true)
include ha

theorem sbIrq_clears (port line : Nat) (hp : s.gen1Ports.contains port = true) (hl : line < 8) (hx : s.cv Fld.SB_IRQ_EXPORT = 0) :
    Leaves (.sbIrq port line 0) s { s with sb := { s.sb with pending := s.sb.pending &&& ~~~(BitVec.ofNat 32 (2 ^ (24 + line))) } } := by
  refine gives_of_run (execSbIrq.eq_1 port line 0 s) ha ?_
  have hp' : s.begin.gen1Ports.contains port = true := hp
  rw [if_pos (by rw [hp', decide_eq_true hl]; rfl)]
  dsimp only
  rw [if_neg (by decide), State.sbExport_none (by exact hx)]
  rfl

theorem sbIrq_stranger (port line lv : Nat) (hp : s.gen1Ports.contains port = false) : Leaves (.sbIrq port line lv) s s := by
  refine gives_of_run (execSbIrq.eq_1 port line lv s) ha ?_
  have hp' : s.begin.gen1Ports.contains port = false := hp
  rw [hp', Bool.false_and, if_neg Bool.false_ne_true]
  exact s.hush_begin

omit ha in
/-- Neither a GPIO driven as an output nor an interface in another mode. -/
theorem sourceOn {source : Nat} (hs : source < 16) (hd : s.sb.gpioDir.getLsbD source = false) :
    (decide (24 ≤ source) || ((decide (source < 16) && s.sb.gpioDir.getLsbD source)
      || ((source == 22 || source == 23) && nth s.sb.modes (source - 20) 0 != 5))) = false := by
  have h22 : (source == 22 || source == 23) = false := by simp; omega
  rw [hd, h22]
  simp
  omega

theorem sbIrqSourceEdge_pends (source : Nat) (hs : source < 16) (hd : s.sb.gpioDir.getLsbD source = false) (hp : s.gen1Ports = [])
    (hm : ∀ m ∈ s.sb.irqMask, m &&& BitVec.ofNat 32 (2 ^ source) = 0) :
    Leaves (.sbIrqSourceEdge source) s { s with sb := { s.sb with pending := s.sb.pending ||| BitVec.ofNat 32 (2 ^ source) } } := by
  refine gives_of_run (execSbIrqSourceEdge.eq_1 source s) ha ?_
  dsimp only
  rw [if_neg (by rw [show s.begin.sb = s.sb from rfl, sourceOn hs hd]; decide), if_neg (by simp; omega), State.sbIrq_masked _ (by exact hm),
    State.sbExport_alone (by exact hp)]
  rfl

theorem sbIrqSourceEdge_output (source : Nat) (hs : source < 16) (hd : s.sb.gpioDir.getLsbD source = true) :
    Leaves (.sbIrqSourceEdge source) s s := by
  refine gives_of_run (execSbIrqSourceEdge.eq_1 source s) ha ?_
  dsimp only
  rw [if_pos (by rw [show s.begin.sb = s.sb from rfl, hd]; simp [hs])]
  exact s.hush_begin

theorem sbIrqSourceEdge_exports (source p : Nat) (hs : source < 16) (hd : s.sb.gpioDir.getLsbD source = false) (hp : s.gen1Ports = [p])
    (hx : s.cv Fld.SB_IRQ_EXPORT = 2 ^ source) (h0 : s.sb.pending = 0) (hm : ∀ m ∈ s.sb.irqMask, m &&& BitVec.ofNat 32 (2 ^ source) = 0) :
    Leaves (.sbIrqSourceEdge source) s (({ s with sb := { s.sb with pending := BitVec.ofNat 32 (2 ^ source) } } : State).peerSend p
      (reqBytes sbIrqOp ⟨.peer p, 0, 0, 0, 0, leBytes 1 (source % 8) ++ leBytes 1 1⟩)) := by
  refine gives_of_run (execSbIrqSourceEdge.eq_1 source s) ha ?_
  dsimp only
  rw [if_neg (by rw [show s.begin.sb = s.sb from rfl, sourceOn hs hd]; decide), if_neg (by simp; omega), State.sbIrq_masked _ (by exact hm),
    show s.begin.sb = s.sb from rfl, (bits_new h0 _).1, (bits_new h0 _).2, State.sbExport_one (by exact hp) (by omega) (by exact hx)]
  rfl

theorem sbIrqSourceEdge_fan (fan : Nat) (hf : fan < 4) (hp : s.gen1Ports = [])
    (hm : ∀ m ∈ s.sb.irqMask, m &&& BitVec.ofNat 32 (2 ^ (16 + fan)) = 0) :
    Leaves (.sbIrqSourceEdge (16 + fan)) s { s with sb := { s.sb with
      pending := s.sb.pending ||| BitVec.ofNat 32 (2 ^ (16 + fan)), fanLow := put s.sb.fanLow fan true } } := by
  refine gives_of_run (execSbIrqSourceEdge.eq_1 (16 + fan) s) ha ?_
  have hoff : (decide (24 ≤ 16 + fan) || ((decide (16 + fan < 16) && s.sb.gpioDir.getLsbD (16 + fan))
      || ((16 + fan == 22 || 16 + fan == 23) && nth s.sb.modes (16 + fan - 20) 0 != 5))) = false := by
    simp
    omega
  dsimp only
  rw [if_neg (by rw [show s.begin.sb = s.sb from rfl, hoff]; decide), if_pos (by simp; omega), State.sbIrq_masked _ (by exact hm),
    State.sbExport_alone (by exact hp), Nat.add_sub_cancel_left]
  rfl

theorem sbIrqSourceEdge_tells (source : Nat) (m : Word) (hs : source < 16) (hd : s.sb.gpioDir.getLsbD source = false) (hm : s.sb.irqMask = [m])
    (hbit : m = BitVec.ofNat 32 (2 ^ source)) (h0 : s.sb.pending = 0) (ht : s.sb.irqTick ≠ some s.time.tick) :
    Gives (.sbIrqSourceEdge source) s fun t => t.sb.pending = m ∧ t.sb.irqTick = some s.time.tick ∧ Heard 1 s t 120 m.toNat := by
  refine gives_of_run (execSbIrqSourceEdge.eq_1 source s) ha ?_
  dsimp only
  rw [if_neg (by rw [show s.begin.sb = s.sb from rfl, sourceOn hs hd]; decide), if_neg (by simp; omega), ← hbit]
  have hne : m ≠ 0 := by
    rw [hbit]
    interval_cases source <;> decide
  obtain ⟨hnew, hall⟩ := bits_new h0 m
  unfold State.sbIrq
  dsimp only
  rw [show s.begin.sb = s.sb from rfl, hnew]
  obtain ⟨c, hc⟩ := State.sbExport_cable ({ s.begin with sb := { s.sb with pending := s.sb.pending ||| m } }) m 1
  have hen : ((s.sb.irqMask.filter fun x => x &&& m != 0).foldl (· ||| ·) 0 : Word) = m := by
    rw [hm, List.filter_cons_of_pos (by rw [BitVec.and_self]; simpa using hne)]
    simp
  rw [hc]
  dsimp only
  rw [hen, if_pos (by simp only [Bool.and_eq_true, bne_iff_ne]; exact ⟨hne, ht⟩), hall, BitVec.and_self]
  refine ⟨?_, ?_, heard_raise_mbx rfl rfl rfl⟩
  · rw [State.raise_sb]
  · rw [State.raise_sb]
    rfl

/-! ### Fans and UARTs -/

theorem fanTachFault_tells (fan pulses : Nat) (hf : fan < 4) (hlow : nth s.sb.fanLow fan false = false) :
    Gives (.fanTachFault fan pulses) s fun t => t.sb.rpm = put s.sb.rpm fan (min 30000 (pulses * 60 / max 1 (s.cv Fld.FAN_PULSES)))
      ∧ t.sb.pending = s.sb.pending ||| BitVec.ofNat 32 (2 ^ (16 + fan)) ∧ Heard 2 s t 125 fan := by
  refine gives_of_run (execFanTachFault.eq_1 fan pulses s) ha ?_
  have hlow' : nth s.begin.sb.fanLow fan false = false := hlow
  dsimp only
  rw [if_pos hf, hlow', if_neg Bool.false_ne_true]
  obtain ⟨hpend, hone, hrpm, _, _⟩ := State.sbIrq_pends ({ s.begin with sb := { s.begin.sb with
    rpm := put s.begin.sb.rpm fan (s.begin.fanRpm pulses), fanLow := put s.begin.sb.fanLow fan false } }) (BitVec.ofNat 32 (2 ^ (16 + fan)))
  refine ⟨?_, ?_, (hone.after_mbx rfl rfl : s.OneMore _).heard _ _⟩
  · rw [State.raise_sb, hrpm]
    rfl
  · rw [State.raise_sb, hpend]
    rfl

theorem fanTachFault_told (fan pulses : Nat) (hf : fan < 4) (hlow : nth s.sb.fanLow fan false = true) :
    Gives (.fanTachFault fan pulses) s fun t => t.sb.pending = s.sb.pending ∧ t.sb.fanLow = put s.sb.fanLow fan false ∧ Heard 1 s t 125 fan := by
  refine gives_of_run (execFanTachFault.eq_1 fan pulses s) ha ?_
  have hlow' : nth s.begin.sb.fanLow fan false = true := hlow
  dsimp only
  rw [if_pos hf, hlow', if_pos rfl, State.raise_sb]
  exact ⟨rfl, rfl, heard_raise_mbx rfl rfl rfl⟩

theorem uartReceive_gives (i : Nat) (bytes : List Byte) (hi : i < 2) (hne : bytes ≠ []) :
    Gives (.uartReceive i bytes) s fun t => t.sb.uartRx = put s.sb.uartRx i ((nth s.sb.uartRx i [] ++ bytes).take 2048)
      ∧ t.sb.pending = s.sb.pending ||| BitVec.ofNat 32 (2 ^ (20 + i))
      ∧ (2048 < (nth s.sb.uartRx i [] ++ bytes).length → Heard 2 s t 126 i) := by
  refine gives_of_run (execUartReceive.eq_1 i bytes s) ha ?_
  dsimp only
  rw [if_pos (by rw [decide_eq_true hi, List.isEmpty_eq_false_iff.mpr hne]; rfl)]
  obtain ⟨hpend, hone, _, _, hrx⟩ := State.sbIrq_pends ({ s.begin with sb := { s.begin.sb with
    uartRx := put s.begin.sb.uartRx i ((nth s.begin.sb.uartRx i [] ++ bytes).take 2048) } }) (BitVec.ofNat 32 (2 ^ (20 + i)))
  generalize ({ s.begin with sb := { s.begin.sb with
    uartRx := put s.begin.sb.uartRx i ((nth s.begin.sb.uartRx i [] ++ bytes).take 2048) } } : State).sbIrq (BitVec.ofNat 32 (2 ^ (20 + i))) = u
    at hpend hone hrx ⊢
  have hsb (b : Bool) : (u.raiseIf b 126 i).sb = u.sb := by
    cases b
    · rfl
    · exact State.raise_sb ..
  refine ⟨?_, ?_, fun hlong => ?_⟩
  · rw [hsb, hrx]
    rfl
  · rw [hsb, hpend]
    rfl
  · rw [State.raiseIf, if_pos (by exact decide_eq_true hlong)]
    exact (hone.after_mbx rfl rfl : s.OneMore u).heard _ _

end Sources

/-- Settles O32: the bridge with one transaction, one lock or none of either, and the pending word bit by bit. -/
theorem sidebandBridge : Obligations.SidebandBridge := by
  refine ⟨fun s ha => ⟨?_, ?_, ?_, ?_, ?_, ?_, ?_, ?_, ?_, ?_, ?_, ?_, ?_, ?_, ?_, ?_, ?_, ?_, ?_⟩,
    fun s ha => ⟨?_, ?_, ?_, ?_, ?_, ?_, ?_, ?_, ?_, ?_⟩⟩
  · exact sbXferFrame_fan ha
  · exact sbXferRep_passes ha
  · exact sbLockFrame_grants ha
  · exact sbLockFrame_waits ha
  · exact sbLockRep_expired ha
  · exact sbUnlockFrame_releases ha
  · exact sbUnlockFrame_passes ha
  · exact sbWound_releases ha
  · exact i2cTarget_posts ha
  · exact i2cTarget_misses ha
  · exact sbHoldExpiry_gives ha
  · exact sbHoldExpiry_early ha
  · exact sbArbitrationLost_says ha
  · exact busTransactionComplete_replies ha
  · exact sbSdaStuck_gives ha
  · exact sbLockLeaseExpiry_gives ha
  · exact sbLockLeaseExpiry_early ha
  · exact sbLockWaitExpiry_replies ha
  · exact sbLockWaitExpiry_early ha
  · exact sbIrq_clears ha
  · exact sbIrq_stranger ha
  · exact sbIrqSourceEdge_pends ha
  · exact sbIrqSourceEdge_output ha
  · exact sbIrqSourceEdge_exports ha
  · exact sbIrqSourceEdge_fan ha
  · exact sbIrqSourceEdge_tells ha
  · exact fanTachFault_tells ha
  · exact fanTachFault_told ha
  · exact uartReceive_gives ha

end Sys2Proof.Machine

/-! Network frames and rings (R322 to R324, R327 to R329, R331, R334), and presence, wakes, link state and ageing (R325, R329, R337, R340, R343,
R344). -/
namespace Sys2Proof.Machine

section Macs
variable {s : State} {mac : Nat}

theorem State.mac_setMac_congr {β : Type} (φ : MacSt → β) (f : MacSt → MacSt) (h : ∀ x, φ (f x) = φ x) (s : State) (m j : Nat) :
    φ ((s.setMac m f).mac j) = φ (s.mac j) := nth_modify_congr φ f h _ _ _ _

/-- A message of the network tunnel is an output alone. -/
theorem State.hush_netSend (s : State) (typ mac group : Nat) (held : Bool) (hash par : Nat) (bs : List Byte) :
    (s.netSend typ mac group held hash par bs).hush = s.hush := by
  unfold State.netSend
  split <;> rfl

theorem State.hush_sendPresence (s : State) : s.sendPresence.hush = s.hush := by
  unfold State.sendPresence
  split
  · exact State.hush_netSend ..
  · rfl

theorem State.netSend_mbx (s : State) (typ mac group : Nat) (held : Bool) (hash par : Nat) (bs : List Byte) :
    (s.netSend typ mac group held hash par bs).mbx = s.mbx := by
  unfold State.netSend
  split <;> rfl

theorem fcsBytes_length (frame : List Byte) : (fcsBytes frame).length = 4 := by simp [fcsBytes, leBytes]

/-- A frame with its check sequence is read as the frame and the sequence. -/
theorem withFcs (frame : List Byte) : (frame ++ fcsBytes frame).length = frame.length + 4
    ∧ (frame ++ fcsBytes frame).take ((frame ++ fcsBytes frame).length - 4) = frame
    ∧ (frame ++ fcsBytes frame).drop ((frame ++ fcsBytes frame).length - 4) = fcsBytes frame := by
  have hlen : (frame ++ fcsBytes frame).length = frame.length + 4 := by rw [List.length_append, fcsBytes_length]
  rw [hlen, Nat.add_sub_cancel]
  exact ⟨rfl, List.take_left, List.drop_left⟩

/-! ### What the MACs receive (R322 to R324, R334) -/

/-- With no flow, no rule and no meter a frame from the bound MAC goes to group 0 (R334). -/
theorem State.netProcess_plain {u : State} (frame : List Byte) (hbind : mac = u.net.boundMac) (hb : u.net.bound = true) (hsus : u.net.suspended = false)
    (habs : u.net.absent = false) (hflows : u.net.flows = []) (hrules : u.net.rules = []) (hmeters : u.net.meters = [])
    (hlabels : u.net.labels = []) (hport : u.netPort = true) :
    u.netProcess mac frame = u.emit (.netMsg 0 (u.netCells 0 mac 0 false (flowHash (flowKey mac false frame)) 0 frame)) := by
  have hclass : u.classify (flowKey mac false frame) = (u.defaultAct, u) := by
    simp [State.classify, hflows, State.classifyRules, State.firstRule, hrules]
  have hmeter : u.metered u.defaultAct.meter frame.length = (true, u) := by simp [State.metered, hmeters]
  have hfn : u.netFunction = false := by
    rw [State.netFunction, beq_iff_eq.mp (show (nth u.topo.ends 6 0 == 2) = true from hport)]
    rfl
  have hgroup : u.openGroup 0 = 0 := by simp [State.openGroup, hfn, hlabels]
  unfold State.netProcess
  dsimp only
  rw [hclass]
  dsimp only
  rw [hmeter]
  dsimp only
  rw [if_neg (by decide), ← hbind, if_neg (by simp), habs, if_neg Bool.false_ne_true]
  show u.netSend 0 mac (u.openGroup 0) false _ 0 frame = _
  rw [hgroup, State.netSend, if_pos (by rw [State.netUp, hb, hsus]; rfl)]

theorem State.drainMac_one {u : State} {f : List Byte} (hrx : (u.mac mac).rxBuf = [f]) (hready : u.classReady 9 2 = true)
    (hpause : ∀ w : State, w.cfg = u.cfg → w.topo = u.topo → w.grade = u.grade → w.cv Fld.NET_PAUSE = 0) {w : State}
    (hw : (u.setMac mac fun m => { m with rxBuf := [] }).netProcess mac f = w) (hc : w.cfg = u.cfg) (ht : w.topo = u.topo)
    (hg : w.grade = u.grade) : u.drainMac mac = w := by
  unfold State.drainMac
  rw [hrx, hready]
  dsimp only
  rw [if_neg (by simp), List.foldl_cons, List.foldl_nil, hw, State.pauseCheck, hpause w hc ht hg]
  rfl

section Receive
variable (hn : s.netLive = true) (h1 : mac ≤ 1) (hup : (s.mac mac).up = true) (hport : s.netPort = true)
include hn h1 hup hport

omit hn in
theorem macTakes : ¬ (decide (1 < mac) || !(s.begin.mac mac).up || !s.begin.netPort) = true := by
  rw [show (s.begin.mac mac).up = true from hup, show s.begin.netPort = true from hport]
  simp [h1]

theorem macFrameReceive_short (wire : List Byte) (hw : wire.length < 64) :
    Leaves (.macFrameReceive mac wire) s (s.setMac mac fun m => { m with short := satAdd 32 m.short 1 }) := by
  refine gives_of_runIf (execMacFrameReceive.eq_1 mac wire s) hn ?_
  dsimp only
  rw [if_neg (macTakes h1 hup hport), if_pos hw]
  rfl

theorem macFrameReceive_long (wire : List Byte) (hw : 64 ≤ wire.length) (hl : (s.mac mac).maxFrame < wire.length) :
    Leaves (.macFrameReceive mac wire) s (s.setMac mac fun m => { m with long := satAdd 32 m.long 1 }) := by
  refine gives_of_runIf (execMacFrameReceive.eq_1 mac wire s) hn ?_
  dsimp only
  rw [if_neg (macTakes h1 hup hport), if_neg (Nat.not_lt.mpr hw), if_pos (by exact hl)]
  rfl

theorem macFrameReceive_fcs (wire : List Byte) (hw : 64 ≤ wire.length) (hl : wire.length ≤ (s.mac mac).maxFrame)
    (hf : wire.drop (wire.length - 4) ≠ fcsBytes (wire.take (wire.length - 4))) :
    Leaves (.macFrameReceive mac wire) s (s.setMac mac fun m => { m with fcs := satAdd 32 m.fcs 1 }) := by
  refine gives_of_runIf (execMacFrameReceive.eq_1 mac wire s) hn ?_
  dsimp only
  rw [if_neg (macTakes h1 hup hport), if_neg (Nat.not_lt.mpr hw), if_neg (by exact Nat.not_lt.mpr hl), if_pos (bne_iff_ne.mpr hf)]
  rfl

theorem macFrameReceive_pause (frame : List Byte) (hlen : 60 ≤ frame.length) (hl : frame.length + 4 ≤ (s.mac mac).maxFrame)
    (hty : beAt 12 2 frame = 0x8808) (hop : beAt 14 2 frame = 1) (hq : beAt 16 2 frame ≠ 0) :
    Leaves (.macFrameReceive mac (frame ++ fcsBytes frame)) s ((s.setMac mac fun m => { m with framesIn := satAdd 64 m.framesIn 1 }).setMac mac
      fun m => { m with pauseEnd := some (s.time.tick + BitVec.ofNat 48
        (ceilDiv (beAt 16 2 frame * 512 * 32) (max 1 (speedMbps (s.mac mac).speed) * 1000))) }) := by
  refine gives_of_runIf (execMacFrameReceive.eq_1 mac (frame ++ fcsBytes frame) s) hn ?_
  obtain ⟨hwire, htake, hdrop⟩ := withFcs frame
  have hspeed : ((s.begin.setMac mac fun m => { m with framesIn := satAdd 64 m.framesIn 1 }).mac mac).speed = (s.mac mac).speed :=
    State.mac_setMac_congr MacSt.speed (fun m => { m with framesIn := satAdd 64 m.framesIn 1 }) (fun _ => rfl) s.begin mac mac
  dsimp only
  rw [htake, hdrop, hwire, if_neg (macTakes h1 hup hport), if_neg (by omega), if_neg (by exact Nat.not_lt.mpr hl), if_neg (by simp),
    if_pos (by rw [hty]; rfl), if_pos (by rw [hop]; rfl), State.macPaused, if_neg (by simpa using hq)]
  dsimp only
  rw [hspeed]
  rfl

theorem macFrameReceive_forwards (frame : List Byte) (hbind : mac = s.net.boundMac) (hlen : 60 ≤ frame.length)
    (hl : frame.length + 4 ≤ (s.mac mac).maxFrame) (hroom : frame.length ≤ 262144) (hty : beAt 12 2 frame ≠ 0x8808)
    (hrx : (s.mac mac).rxBuf = []) (hb : s.net.bound = true) (hsus : s.net.suspended = false) (habs : s.net.absent = false)
    (hflows : s.net.flows = []) (hrules : s.net.rules = []) (hmeters : s.net.meters = []) (hlabels : s.net.labels = [])
    (hpause : s.cv Fld.NET_PAUSE = 0) (hready : s.classReady 9 2 = true) (hmacs : s.net.macs.length = 2) :
    Gives (.macFrameReceive mac (frame ++ fcsBytes frame)) s fun t =>
      (t.mac mac).framesIn = satAdd 64 (s.mac mac).framesIn 1 ∧ (t.mac mac).rxBuf = []
      ∧ t.out = [.netMsg 0 (s.netCells 0 mac 0 false (flowHash (flowKey mac false frame)) 0 frame)] := by
  refine gives_of_runIf (execMacFrameReceive.eq_1 mac (frame ++ fcsBytes frame) s) hn ?_
  obtain ⟨hwire, htake, hdrop⟩ := withFcs frame
  dsimp only
  rw [htake, hdrop, hwire, if_neg (macTakes h1 hup hport), if_neg (by omega), if_neg (by exact Nat.not_lt.mpr hl), if_neg (by simp),
    if_neg (by simpa using hty)]
  have hin : mac < s.begin.net.macs.length := by show mac < s.net.macs.length; omega
  have hmac (f : MacSt → MacSt) : (s.begin.setMac mac f).mac mac = f (s.mac mac) := nth_modify_same _ _ _ _ hin
  have hlen2 (f : MacSt → MacSt) : mac < (s.begin.setMac mac f).net.macs.length := by
    show mac < (s.net.macs.modify mac f).length
    rwa [List.length_modify]
  rw [show (s.begin.mac mac).rxBuf = [] from hrx, if_neg (by simp [total]; omega)]
  have hmac2 (f g : MacSt → MacSt) : ((s.begin.setMac mac f).setMac mac g).mac mac = g (f (s.mac mac)) :=
    (nth_modify_same _ _ _ _ (hlen2 f)).trans (congrArg g (hmac f))
  have hlen3 (f g : MacSt → MacSt) : mac < ((s.begin.setMac mac f).setMac mac g).net.macs.length := by
    show mac < (((s.begin.setMac mac f).net.macs).modify mac g).length
    rw [List.length_modify]
    exact hlen2 f
  have hbuf : (((s.begin.setMac mac fun m => { m with framesIn := satAdd 64 m.framesIn 1 }).setMac mac fun m => { m with
      rxBuf := m.rxBuf ++ [frame] }).mac mac).rxBuf = [frame] := by
    rw [hmac2]
    show (s.mac mac).rxBuf ++ [frame] = [frame]
    rw [hrx]
    rfl
  rw [State.drainMac_one hbuf (by exact hready) (fun w hc ht hg => (State.cv_congr hc ht hg _).trans hpause)
    (State.netProcess_plain frame (by exact hbind) (by exact hb) (by exact hsus) (by exact habs) (by exact hflows) (by exact hrules)
      (by exact hmeters) (by exact hlabels) (by exact hport)) rfl rfl rfl]
  have hend := nth_modify_same (fun m : MacSt => { m with rxBuf := [] }) _ mac .init (hlen3 (fun m => { m with framesIn := satAdd 64 m.framesIn 1 })
    fun m => { m with rxBuf := m.rxBuf ++ [frame] })
  refine ⟨?_, ?_, rfl⟩
  · refine (congrArg MacSt.framesIn hend).trans ?_
    exact congrArg MacSt.framesIn (hmac2 _ _)
  · exact congrArg MacSt.rxBuf hend

end Receive

end Macs

end Sys2Proof.Machine

/-! Links of the MACs, rings and registers of the network function, tunnel frames, presence and wakes, and with the MACs the statement of
network traffic. -/
namespace Sys2Proof.Machine

section Rings
variable {s : State} {mac : Nat}

theorem macLinkChange_down (sp : Nat) (hn : s.netLive = true) (h1 : mac ≤ 1) (hup : (s.mac mac).up = true) :
    Gives (.macLinkChange mac false sp) s fun t =>
      t.hush = (s.setMac mac fun m => { m with
        up := false, speed := 0, pauseEnd := none, txBuf := [], txDrops := satAdd 32 m.txDrops m.txBuf.length }).hush ∧ Heard 1 s t 112 mac := by
  refine gives_of_runIf (execMacLinkChange.eq_1 mac false sp s) hn ?_
  have hup' : (s.begin.mac mac).up = true := hup
  dsimp only
  rw [hup', if_neg (by simp; omega)]
  simp only [Bool.false_eq_true, if_false]
  have hush := State.hush_raise (s.begin.setMac mac fun m => { m with
    up := false, speed := 0, pauseEnd := none, txBuf := [], txDrops := satAdd 32 m.txDrops m.txBuf.length }) 112 (mac + 2 * b2n false + 16 * 0)
  have hheard : Heard 1 s ((s.begin.setMac mac fun m => { m with
    up := false, speed := 0, pauseEnd := none, txBuf := [], txDrops := satAdd 32 m.txDrops m.txBuf.length }).raise 112
      (mac + 2 * b2n false + 16 * 0)) 112 mac := heard_raise_mbx rfl rfl rfl
  split
  · exact ⟨(State.hush_netSend ..).trans hush, hheard.of_mbx (State.netSend_mbx ..)⟩
  · exact ⟨hush, hheard⟩

/-! ### The transmit rings and the registers (R331) -/

section Awake
variable (ha : s.awake = true)
include ha

theorem netTxFetch_unbound (q n : Nat) (frame : List Byte) (hfn : s.netFunction = true) (hen : s.net.enable = true) (hd3 : s.net.d3hot = false)
    (hq : q < s.net.queues) (hn : n ≠ 0) (hfill : n ≤ (s.txRing q).filled) (hb : s.net.bound = false) (hready : s.classReady 9 2 = true) :
    Leaves (.netTxFetch q n frame) s { s with net := { s.net with
      tx := s.net.tx.modify q fun r => { r with head := (r.head + n) % r.size }, fetchDrops := satAdd 32 s.net.fetchDrops 1 } } := by
  refine gives_of_run (execNetTxFetch.eq_1 q n frame s) ha ?_
  have hfn' : s.begin.netFunction = true := hfn
  have hready' : s.begin.classReady 9 2 = true := hready
  have hfill' : n ≤ (s.begin.txRing q).filled := hfill
  dsimp only
  rw [hfn', hready', show s.begin.net = s.net from rfl, hen, hd3, hb, if_neg (by simp [hn, hq, hfill']), if_pos (by rfl)]
  rfl

theorem netTxFetch_leaves (q n : Nat) (frame : List Byte)
    (hno : s.net.enable = false ∨ s.net.d3hot = true ∨ (s.txRing q).filled < n ∨ s.classReady 9 2 = false) :
    Leaves (.netTxFetch q n frame) s s := by
  refine gives_of_run (execNetTxFetch.eq_1 q n frame s) ha ?_
  dsimp only
  rw [if_pos ?_]
  · exact s.hush_begin
  · simp only [Bool.or_eq_true, Bool.not_eq_true', decide_eq_true_eq]
    obtain h | h | h | h := hno
    · exact .inl (.inl (.inl (.inl (.inl (.inl (.inr h))))))
    · exact .inl (.inl (.inl (.inl (.inl (.inr h)))))
    · exact .inl (.inl (.inr h))
    · exact .inl (.inr h)

theorem netTailWrite_sets (q v : Nat) (hq : q < 8) (hfn : s.netFunction = true) :
    Leaves (.netTailWrite (0x1000 + 64 * q + 12) v) s { s with net := { s.net with
      tx := s.net.tx.modify q fun r => { r with tail := v % 4096 } } } := by
  refine gives_of_run (execNetTailWrite.eq_1 (0x1000 + 64 * q + 12) v s) ha ?_
  have hfn' : s.begin.netFunction = true := hfn
  have hqueue : (0x1000 + 64 * q + 12 - 0x1000) / 64 = q := by omega
  have hreg : (0x1000 + 64 * q + 12) % 64 = 12 := by omega
  unfold State.netRegWrite
  rw [hfn', if_neg (by decide), if_neg (by simp), if_neg (by simp), if_neg (by simp), if_neg (by simp; omega), if_neg (by simp; omega),
    if_pos (by simp; omega)]
  dsimp only
  rw [hqueue, hreg, if_pos (by decide)]
  rfl

omit ha in
theorem State.sendPresence_out (u : State) : ∃ o, u.sendPresence = { u with out := o } := by
  unfold State.sendPresence State.netSend
  split
  · split
    · exact ⟨_, rfl⟩
    · exact ⟨u.out, rfl⟩
  · exact ⟨u.out, rfl⟩

omit ha in
/-- A change of power is told, and leaves the two bits. -/
theorem State.netPower_out (u : State) (d3hot pmeEn : Bool) :
    ∃ o, u.netPower d3hot pmeEn = { u with out := o, net := { u.net with d3hot := d3hot, pmeEn := pmeEn } } := by
  unfold State.netPower
  dsimp only
  split
  · obtain ⟨o, ho⟩ := State.sendPresence_out ({ u with net := { u.net with d3hot := d3hot, pmeEn := pmeEn } })
    exact ⟨o, ho⟩
  · exact ⟨u.out, rfl⟩

omit ha in
theorem State.hush_netCtrl (u : State) (v : Nat) : (u.netCtrl v).hush = ({ u with net := { u.net with
    enable := bitAt v 0, promisc := bitAt v 1
    queues := if 1 ≤ fieldAt v 8 4 && fieldAt v 8 4 ≤ 8 then fieldAt v 8 4 else u.net.queues } } : State).hush := by
  unfold State.netCtrl
  dsimp only
  generalize ((u.net.enable && !u.net.d3hot) != (bitAt v 0 && !u.net.d3hot)) = c
  cases c
  · rfl
  · exact State.hush_sendPresence _

theorem netEnableWrite_sets (pme : Bool) (hfn : s.netFunction = true) :
    Leaves (.netEnableWrite 1 false pme) s { s with net := { s.net with
      enable := true, promisc := false, d3hot := false, pmeEn := pme, pmeStatus := false } } := by
  refine gives_of_run (execNetEnableWrite.eq_1 1 false pme s) ha ?_
  have hfn' : s.begin.netFunction = true := hfn
  rw [hfn', if_neg (by decide), Bool.and_false]
  obtain ⟨o, ho⟩ := State.netPower_out ({ s.begin with net := { s.begin.net with pmeStatus := false } }) false pme
  rw [ho, State.hush_netCtrl]
  rfl

/-! ### The write-back of the heads (R331) -/

omit ha in
/-- What the write-back does for one queue. -/
def State.headsBack (u : State) (q : Nat) : State :=
  let u := u.emit (.hostWrite (u.net.wb + 8 * q) (leBytes 4 (u.txRing q).head ++ leBytes 4 (u.rxRing q).head))
  { u with net := { u.net with
    tx := u.net.tx.modify q fun r => { r with back := r.head }, rx := u.net.rx.modify q fun r => { r with back := r.head } } }

omit ha in
/-- The heads stay, what has been written stays written, and the queues of the list are written. -/
theorem headsBack_fold (l : List Nat) (u : State) (q : Nat) (ht : q < u.net.tx.length) (hr : q < u.net.rx.length) :
    let t := l.foldl State.headsBack u
    (t.txRing q).head = (u.txRing q).head ∧ (t.rxRing q).head = (u.rxRing q).head ∧ t.net.wb = u.net.wb ∧ u.out ⊆ t.out
      ∧ (q ∈ l ∨ (u.txRing q).back = (u.txRing q).head → (t.txRing q).back = (u.txRing q).head)
      ∧ (q ∈ l ∨ (u.rxRing q).back = (u.rxRing q).head → (t.rxRing q).back = (u.rxRing q).head)
      ∧ (q ∈ l → Emit.hostWrite (u.net.wb + 8 * q) (leBytes 4 (u.txRing q).head ++ leBytes 4 (u.rxRing q).head) ∈ t.out) := by
  induction l generalizing u with
  | nil =>
    exact ⟨rfl, rfl, rfl, fun _ => id, fun h => h.resolve_left (List.not_mem_nil), fun h => h.resolve_left (List.not_mem_nil),
      fun h => absurd h List.not_mem_nil⟩
  | cons k l ih =>
    have hth : ((u.headsBack k).txRing q).head = (u.txRing q).head :=
      nth_modify_congr NetRing.head (fun r => { r with back := r.head }) (fun _ => rfl) u.net.tx k q .init
    have hrh : ((u.headsBack k).rxRing q).head = (u.rxRing q).head :=
      nth_modify_congr NetRing.head (fun r => { r with back := r.head }) (fun _ => rfl) u.net.rx k q .init
    have hsub : u.out ⊆ (u.headsBack k).out := fun _ he => List.mem_append_left _ he
    obtain ⟨h1, h2, h3, h4, h5, h6, h7⟩ := ih (u.headsBack k) (by show q < (u.net.tx.modify k _).length; rwa [List.length_modify])
      (by show q < (u.net.rx.modify k _).length; rwa [List.length_modify])
    rw [hth] at h5
    rw [hrh] at h6
    rw [hth, hrh] at h7
    refine ⟨h1.trans hth, h2.trans hrh, h3, fun _ he => h4 (hsub he), fun h => h5 ?_, fun h => h6 ?_, fun h => ?_⟩
    · by_cases hk : k = q
      · subst hk
        exact .inr (congrArg NetRing.back (nth_modify_same _ _ _ _ ht))
      · exact h.imp (fun h => (List.mem_cons.mp h).resolve_left (Ne.symm hk)) fun h =>
          (congrArg NetRing.back (nth_modify_ne _ _ _ _ _ hk)).trans h
    · by_cases hk : k = q
      · subst hk
        exact .inr (congrArg NetRing.back (nth_modify_same _ _ _ _ hr))
      · exact h.imp (fun h => (List.mem_cons.mp h).resolve_left (Ne.symm hk)) fun h =>
          (congrArg NetRing.back (nth_modify_ne _ _ _ _ _ hk)).trans h
    · by_cases hk : k = q
      · subst hk
        exact h4 (List.mem_append_right _ (.head _))
      · exact h7 ((List.mem_cons.mp h).resolve_left (Ne.symm hk))

theorem netWriteBack_gives (hfn : s.netFunction = true) (hen : s.net.enable = true)
    (hwb : s.net.wbAt = 0 ∨ s.net.wbAt + 8 * s.cv Fld.NET_WB_US ≤ s.slotCount) (htx : s.net.tx.length = 8) (hrx : s.net.rx.length = 8) :
    Gives .netWriteBack s fun t => ∀ q, q < 8 → (t.txRing q).back = (s.txRing q).head ∧ (t.rxRing q).back = (s.rxRing q).head
      ∧ ((s.txRing q).head ≠ (s.txRing q).back →
          Emit.hostWrite (s.net.wb + 8 * q) (leBytes 4 (s.txRing q).head ++ leBytes 4 (s.rxRing q).head) ∈ t.out) := by
  refine gives_of_run (execNetWriteBack.eq_1 s) ha ?_
  have hdue : (!s.begin.netFunction || !s.begin.net.enable
      || (s.begin.net.wbAt != 0 && decide (s.begin.slotCount < s.begin.net.wbAt + 8 * s.begin.cv Fld.NET_WB_US))) = false := by
    rw [show s.begin.netFunction = true from hfn, show s.begin.net.enable = true from hen]
    obtain h | h := hwb
    · rw [show s.begin.net.wbAt = 0 from h]
      rfl
    · rw [decide_eq_false (by exact Nat.not_lt.mpr h), Bool.and_false]
      rfl
  rw [hdue, if_neg Bool.false_ne_true]
  dsimp only
  intro q hq
  obtain ⟨l, hl⟩ : ∃ l, l = (upTo 8).filter fun q => (s.begin.txRing q).head != (s.begin.txRing q).back
      || (s.begin.rxRing q).head != (s.begin.rxRing q).back := ⟨_, rfl⟩
  rw [← hl]
  have hmem : q ∈ l ↔ (s.txRing q).head ≠ (s.txRing q).back ∨ (s.rxRing q).head ≠ (s.rxRing q).back := by
    rw [hl, List.mem_filter]
    have hup : q ∈ upTo 8 := by interval_cases q <;> decide
    simp only [hup, true_and, Bool.or_eq_true, bne_iff_ne]
    rfl
  obtain ⟨n, hn⟩ : ∃ n, (if l.isEmpty then s.begin else { s.begin with net := { s.begin.net with wbAt := s.begin.slotCount } })
      = { s.begin with net := { s.begin.net with wbAt := n } } := by
    split
    · exact ⟨s.begin.net.wbAt, rfl⟩
    · exact ⟨_, rfl⟩
  rw [hn]
  obtain ⟨_, _, _, _, htback, hrback, hsaid⟩ := headsBack_fold l ({ s.begin with net := { s.begin.net with wbAt := n } }) q
    (by show q < s.net.tx.length; omega) (by show q < s.net.rx.length; omega)
  refine ⟨htback ?_, hrback ?_, fun hne => hsaid (hmem.mpr (.inl hne))⟩
  · by_cases hne : (s.txRing q).head = (s.txRing q).back
    · exact .inr hne.symm
    · exact .inl (hmem.mpr (.inl hne))
  · by_cases hne : (s.rxRing q).head = (s.rxRing q).back
    · exact .inr hne.symm
    · exact .inl (hmem.mpr (.inr hne))

theorem netWriteBack_early (hwb : s.net.wbAt ≠ 0) (ht : s.slotCount < s.net.wbAt + 8 * s.cv Fld.NET_WB_US) : Leaves .netWriteBack s s := by
  refine gives_of_run (execNetWriteBack.eq_1 s) ha ?_
  have ht' : s.begin.slotCount < s.net.wbAt + 8 * s.begin.cv Fld.NET_WB_US := ht
  rw [if_pos (by rw [show s.begin.net = s.net from rfl, decide_eq_true ht', bne_iff_ne.mpr hwb]; simp)]
  exact s.hush_begin

/-! ### Frames out of the tunnel -/

omit ha in
/-- No label waits for its group: the labels stay. -/
theorem labels_known {l g : Nat} {xs : List (Nat × Nat)} (h : ∀ x ∈ xs, x.2 ≠ 8) :
    xs.map (fun x => if x.1 == l && x.2 == 8 then (l, g % 8) else x) = xs :=
  (List.map_congr_left fun x hx => if_neg (by simp [h x hx])).trans (List.map_id _)

/-- A frame for the port goes to its MAC. -/
theorem netTunnelFrame_port {P : State → Prop} (l g : Nat) (held : Bool) (hash : Nat) (bufs : List NetDesc) (frame : List Byte)
    (hb : s.net.bound = true) (hport : s.netPort = true) (hlab : ∀ x ∈ s.net.labels, x.2 ≠ 8) (h : P (s.begin.macSend (mac % 2) frame)) :
    Gives (.netTunnelFrame l mac g held false hash bufs frame) s P := by
  refine gives_of_run (execNetTunnelFrame.eq_1 l mac g held false hash bufs frame s) ha ?_
  have hport' : s.begin.netPort = true := hport
  have hb' : s.begin.net.bound = true := hb
  have hlab' : s.begin.net.labels.map (fun x => if x.1 == l && x.2 == 8 then (l, g % 8) else x) = s.begin.net.labels := labels_known hlab
  rw [hb', hport', if_neg (by decide), if_pos rfl, if_neg Bool.false_ne_true, hlab']
  exact h

theorem netTunnelFrame_sends (l g : Nat) (held : Bool) (hash : Nat) (bufs : List NetDesc) (frame : List Byte) (hb : s.net.bound = true)
    (hport : s.netPort = true) (hup : (s.mac (mac % 2)).up = true) (hlab : ∀ x ∈ s.net.labels, x.2 ≠ 8) (hheld : s.macHeld (mac % 2) = false)
    (htx : (s.mac (mac % 2)).txBuf = []) :
    Says (.netTunnelFrame l mac g held false hash bufs frame) s (s.setMac (mac % 2) fun x => { x with framesOut := satAdd 64 x.framesOut 1 })
      [.ethFrame (mac % 2) (frame ++ zeros (60 - frame.length) ++ fcsBytes (frame ++ zeros (60 - frame.length)))] := by
  refine netTunnelFrame_port ha l g held hash bufs frame hb hport hlab ?_
  have hup' : (s.begin.mac (mac % 2)).up = true := hup
  have hheld' : s.begin.macHeld (mac % 2) = false := hheld
  have htx' : (s.begin.mac (mac % 2)).txBuf = [] := htx
  rw [State.macSend, hup', hheld', htx', if_neg (by decide), if_neg (by decide)]
  exact ⟨rfl, rfl⟩

theorem netTunnelFrame_queues (l g : Nat) (held : Bool) (hash : Nat) (bufs : List NetDesc) (frame : List Byte) (hb : s.net.bound = true)
    (hport : s.netPort = true) (hup : (s.mac (mac % 2)).up = true) (hlab : ∀ x ∈ s.net.labels, x.2 ≠ 8) (hheld : s.macHeld (mac % 2) = true) :
    Says (.netTunnelFrame l mac g held false hash bufs frame) s (s.setMac (mac % 2) fun x => { x with txBuf := x.txBuf ++ [frame] }) [] := by
  refine netTunnelFrame_port ha l g held hash bufs frame hb hport hlab ?_
  have hup' : (s.begin.mac (mac % 2)).up = true := hup
  have hheld' : s.begin.macHeld (mac % 2) = true := hheld
  rw [State.macSend, hup', hheld', if_neg (by decide), if_pos (by rfl)]
  exact ⟨rfl, rfl⟩

/-! ### Presence, wakes, link state and ageing (R325, R337, R340, R343, R344) -/

theorem presence_sets (present : Bool) (m addr : Nat) (hport : s.netPort = true) (hb : s.net.bound = true) :
    Leaves (.presence present m addr) s { s with net := { s.net with saidAbsent := !present, boundMac := m % 2, hostMac := addr % 2 ^ 48 } } := by
  refine gives_of_run (execPresence.eq_1 present m addr s) ha ?_
  have hport' : s.begin.netPort = true := hport
  rw [hport', show s.begin.net = s.net from rfl, hb, if_pos (by rfl)]
  dsimp only
  split
  · exact State.hush_netSend ..
  · rfl

theorem wake_gives (source : Nat) (hfn : s.netFunction = true) (hpme : s.net.pmeStatus = false) (hen : s.net.pmeEn = true)
    (hl : (s.pcLink 0).state = 2) :
    Gives (.wake source) s fun t =>
      t.hush = ({ s with net := { s.net with pmeStatus := true, wakes := satAdd 32 s.net.wakes 1 } } : State).hush
      ∧ Emit.pmPme ∈ t.out ∧ Heard 1 s t 118 (source % 32) := by
  refine gives_of_run (execWake.eq_1 source s) ha ?_
  have hfn' : s.begin.netFunction = true := hfn
  dsimp only
  have hpm : (s.net.pmeEn && ((s.pcLink 0).state == 2 || (s.pcLink 0).state == 3)) = true := by
    rw [hen, hl]
    rfl
  have hidle : (!s.begin.netFunction || s.begin.net.pmeStatus) = false := by
    rw [hfn', show s.begin.net.pmeStatus = false from hpme]
    rfl
  rw [hidle, if_neg Bool.false_ne_true, if_pos (by exact hpm)]
  refine ⟨(State.hush_raise ..).trans rfl, ?_, heard_raise_mbx rfl rfl rfl⟩
  rw [State.raise_out]
  exact .head _

theorem wake_again (source : Nat) (hpme : s.net.pmeStatus = true) : Leaves (.wake source) s s := by
  refine gives_of_run (execWake.eq_1 source s) ha ?_
  rw [show s.begin.net = s.net from rfl, hpme, Bool.or_true, if_pos rfl]
  exact s.hush_begin

theorem linkState_sets (m : Nat) (up : Bool) (speed mx : Nat) (hfn : s.netFunction = true) (hb : s.net.bound = true) :
    Leaves (.linkState m up speed mx) s { s with net := { s.net with
      farLink := up, farSpeed := if up then speed else 0, farMax := mx, boundMac := if s.net.macKnown then s.net.boundMac else m % 2
      macKnown := true } } := by
  refine gives_of_run (execLinkState.eq_1 m up speed mx s) ha ?_
  have hfn' : s.begin.netFunction = true := hfn
  rw [hfn', show s.begin.net = s.net from rfl, hb, if_pos (by rfl)]
  dsimp only
  cases s.net.macKnown with
  | true =>
    rw [if_pos rfl, if_pos rfl]
    rfl
  | false =>
    rw [if_neg Bool.false_ne_true, if_neg Bool.false_ne_true]
    exact State.hush_sendPresence _

theorem flowAgeSweep_keeps (b : Nat) : Leaves (.flowAgeSweep b) s { s with net := { s.net with flows := s.net.flows.filter fun e =>
      !(e.bucket == b && !e.static && decide (s.cv Fld.FLOW_AGE_S * 32000 ≤ (s.tick32 - e.last).toNat)) } } :=
  gives_of_run (execFlowAgeSweep.eq_1 b s) ha rfl

theorem wakeBufferTimeout_drops (hw : s.net.wakePending = true) (ht : msTicks (s.cv Fld.NET_WAKE_BUFFER_MS) ≤ tickDiff s.time.tick s.net.wakeAt) :
    Leaves .wakeBufferTimeout s { s with net := { s.net with
      wakePending := false, bufDrops := satAdd 32 s.net.bufDrops s.net.wakeBuf.length, wakeBuf := [] } } := by
  refine gives_of_run (execWakeBufferTimeout.eq_1 s) ha ?_
  have ht' : msTicks (s.begin.cv Fld.NET_WAKE_BUFFER_MS) ≤ tickDiff s.begin.time.tick s.net.wakeAt := ht
  rw [show s.begin.net = s.net from rfl, hw, decide_eq_true ht', if_pos (by rfl)]
  rfl

theorem wakeBufferTimeout_early (ht : tickDiff s.time.tick s.net.wakeAt < msTicks (s.cv Fld.NET_WAKE_BUFFER_MS)) :
    Leaves .wakeBufferTimeout s s := by
  refine gives_of_run (execWakeBufferTimeout.eq_1 s) ha ?_
  have ht' : ¬ msTicks (s.begin.cv Fld.NET_WAKE_BUFFER_MS) ≤ tickDiff s.begin.time.tick s.begin.net.wakeAt := Nat.not_le.mpr ht
  rw [decide_eq_false ht', Bool.and_false, if_neg Bool.false_ne_true]
  exact s.hush_begin

end Awake

end Rings

/-- Settles O30: what each MAC takes and sends, the rings and registers, and the presence of the host. -/
theorem networkTraffic : Obligations.NetworkTraffic := by
  refine ⟨fun s mac => ⟨?_, ?_, ?_, ?_, ?_, ?_, ?_, ?_, ?_, ?_, ?_, ?_, ?_, ?_⟩, fun s ha => ⟨?_, ?_, ?_, ?_, ?_, ?_, ?_⟩⟩
  · exact fun wire hn h1 hup hport => macFrameReceive_short hn h1 hup hport wire
  · exact fun wire hn h1 hup hport => macFrameReceive_long hn h1 hup hport wire
  · exact fun wire hn h1 hup hport => macFrameReceive_fcs hn h1 hup hport wire
  · exact fun frame hn h1 hup hport => macFrameReceive_pause hn h1 hup hport frame
  · exact fun frame hn hbind h1 hup hport hlen hl hroom hty hrx hb hsus habs hflows hrules hmeters hlabels hpause hready hmacs =>
      macFrameReceive_forwards hn h1 hup hport frame hbind hlen hl hroom hty hrx hb hsus habs hflows hrules hmeters hlabels hpause hready hmacs
  · exact macLinkChange_down
  · exact fun q n frame ha => netTxFetch_unbound ha q n frame
  · exact fun q n frame ha => netTxFetch_leaves ha q n frame
  · exact fun q v ha => netTailWrite_sets ha q v
  · exact fun pme ha => netEnableWrite_sets ha pme
  · exact netWriteBack_gives
  · exact netWriteBack_early
  · exact fun l g held hash bufs frame ha => netTunnelFrame_sends ha l g held hash bufs frame
  · exact fun l g held hash bufs frame ha => netTunnelFrame_queues ha l g held hash bufs frame
  · exact presence_sets ha
  · exact wake_gives ha
  · exact wake_again ha
  · exact linkState_sets ha
  · exact flowAgeSweep_keeps ha
  · exact wakeBufferTimeout_drops ha
  · exact wakeBufferTimeout_early ha

end Sys2Proof.Machine

/-! USB transactions and their frames (R295 to R301, R306, R308, R309, R315): the HOSTSIDE's stages and the remote end. -/
namespace Sys2Proof.Machine

section Frames
variable {s : State}

/-! ### A frame sent up -/

/-- The paths of the remote hub stand and are not suspended. -/
def State.UpOpen (s : State) : Prop := ∃ l e, s.usb.inLabel = some l ∧ (s.link s.usb.inPort).entry l = some e ∧ e.suspended = false

theorem State.usbUpFrame_open (h : s.UpOpen) (f : UsbFrame) : s.usbUpFrame f = s.usbSend 0 f := by
  obtain ⟨l, e, hl, he, hs⟩ := h
  unfold State.usbUpFrame
  rw [hl]
  dsimp only [Option.bind_some]
  rw [he]
  dsimp only
  rw [hs, if_neg Bool.false_ne_true]

/-- A frame up is an output alone. -/
theorem State.usbUpFrame_out (s : State) (f : UsbFrame) : ∃ o, s.usbUpFrame f = { s with out := o } := by
  unfold State.usbUpFrame
  split
  · split
    · exact ⟨s.out, rfl⟩
    · exact ⟨_, rfl⟩
  · exact ⟨s.out, rfl⟩

theorem State.usbPort_setUsbPort_congr {β : Type} (φ : UsbPort → β) (f : UsbPort → UsbPort) (h : ∀ x, φ (f x) = φ x) (s : State) (k j : Nat) :
    φ ((s.setUsbPort k f).usbPort j) = φ (s.usbPort j) := nth_modify_congr φ f h _ _ _ _

/-- A frame of the device's EPOCH is taken, and the port's traffic noted. -/
theorem State.epochOk_same {f : UsbFrame} (h : f.epoch = epochOf s.usb.epochs f.port f.addr) :
    s.epochOk f = (true, ({ s with usb := { s.usb with epochs := setEpoch s.usb.epochs f.port f.addr f.epoch } } : State).setUsbPort f.port
      fun x => { x with trafficAt := s.time.tick }) := by
  unfold State.epochOk
  dsimp only
  rw [← h, Nat.add_sub_cancel_left]
  rfl

/-- The state once a frame of the device's EPOCH has been taken. -/
def State.epochTaken (s : State) (f : UsbFrame) : State :=
  ({ s with usb := { s.usb with epochs := setEpoch s.usb.epochs f.port f.addr f.epoch } } : State).setUsbPort f.port
    fun x => { x with trafficAt := s.time.tick }

theorem State.epochTaken_port {β : Type} (φ : UsbPort → β) (h : ∀ x t, φ { x with trafficAt := t } = φ x) (f : UsbFrame) (j : Nat) :
    φ ((s.epochTaken f).usbPort j) = φ (s.usbPort j) :=
  nth_modify_congr φ (fun x : UsbPort => { x with trafficAt := s.time.tick }) (fun x => h x _) s.usb.ports _ _ _

/-! ### The host's transactions (R296 to R298) -/

/-- What a stage keeps once `n` of its packets have gone to the host. -/
def UsbStage.told (n : Nat) (y : UsbStage) : UsbStage := { y with
  inPkts := y.inPkts.drop n, seq := (y.seq + n) % 32, deferred := false
  done := if y.inPkts.length ≤ n && (y.done == some 0 || y.done == some 1) then none else y.done }

/-- A bulk IN transaction of a stage with one packet gives it to the host. -/
theorem State.hostIn_one {u : State} {tx : UsbTx} {x : UsbStage} {p : List Byte} (hx : u.usb.stages = [x])
    (his : stageIs tx.root tx.port tx.addr tx.ep tx.stream tx.dirIn x = true) (hstall : x.stall = false) (hk : tx.kind = 1)
    (hst : (u.remote tx.root).state = 2) (hsp : tx.split = 0) (hp : x.inPkts = [p]) :
    u.hostIn tx = ((u.usbSay tx 0 p).setStage x (UsbStage.told 1)).readAhead x := by
  have hfor : u.stageFor tx = (x, u) := by
    unfold State.stageFor
    rw [hx, List.find?_cons_of_pos his]
  have hnew : (!(u.usb.stages.any (stageIs tx.root tx.port tx.addr tx.ep tx.stream tx.dirIn))) = false := by
    rw [hx, List.any_cons, his]
    rfl
  have hn : min (max 1 tx.nump) [p].length = 1 := by simp
  unfold State.hostIn
  dsimp only
  rw [hfor, hnew, Bool.false_and, Bool.false_and, if_neg Bool.false_ne_true]
  dsimp only
  rw [hstall, if_neg Bool.false_ne_true, hk, if_neg (by decide), hst, if_neg (by decide), hsp, if_neg (by decide), hp, if_pos (by rfl), hn,
    if_neg (by decide)]
  rfl

theorem State.readAhead_off {u : State} (h : u.cv Fld.USB_READAHEAD = 0) (x : UsbStage) : u.readAhead x = u := by
  unfold State.readAhead
  rw [h]
  rfl

section Awake
variable (ha : s.awake = true)
include ha

theorem hostUsbTransaction_staged (tx : UsbTx) (x : UsbStage) (p : List Byte) (hhub : s.isUsbHub = false) (hup : s.isUsbUp = true) (hroot : 2 ≤ tx.root)
    (hst : (s.remote tx.root).state = 2) (hreq : tx.req = .other) (hset : tx.setup = false) (hin : tx.dirIn = true) (hk : tx.kind = 1)
    (hsp : tx.split = 0) (hx : s.usb.stages = [x]) (his : stageIs tx.root tx.port tx.addr tx.ep tx.stream true x = true)
    (hstall : x.stall = false) (hp : x.inPkts = [p]) (hd : x.done = none) (hra : s.cv Fld.USB_READAHEAD = 0) :
    Says (.hostUsbTransaction tx) s { s with usb := { s.usb with stages := [{ x with inPkts := [], seq := (x.seq + 1) % 32, deferred := false }] } }
      [.usbAnswer tx.root tx.addr tx.ep 0 p] := by
  refine gives_of_run (execHostUsbTransaction.eq_1 tx s) ha ?_
  have hhub' : s.begin.isUsbHub = false := hhub
  have hup' : s.begin.isUsbUp = true := hup
  have hst' : (s.begin.remote tx.root).state = 2 := hst
  have hx' : s.begin.usb.stages = [x] := hx
  rw [hhub', if_neg Bool.false_ne_true, hup', if_neg (by decide), if_neg (by simp; omega), if_neg (by simp; omega), if_neg (by omega)]
  have hrem : s.begin.hostRemote tx = s.begin.hostIn tx := by
    unfold State.hostRemote
    rw [hreq]
    dsimp only
    rw [hset, if_neg Bool.false_ne_true, hin, if_pos rfl]
  have hself : stageIs x.root x.port x.addr x.ep x.stream x.dirIn x = true := by simp [stageIs]
  have htold : UsbStage.told 1 x = { x with inPkts := [], seq := (x.seq + 1) % 32, deferred := false } := by simp [UsbStage.told, hp, hd]
  have hset : (s.begin.usbSay tx 0 p).setStage x (UsbStage.told 1) = { s.begin.usbSay tx 0 p with usb := { s.usb with
      stages := [{ x with inPkts := [], seq := (x.seq + 1) % 32, deferred := false }] } } := by
    have hmap : (s.usb.stages.map fun y => if stageIs x.root x.port x.addr x.ep x.stream x.dirIn y then UsbStage.told 1 y else y)
        = [{ x with inPkts := [], seq := (x.seq + 1) % 32, deferred := false }] := by
      rw [hx, List.map_singleton, hself, if_pos rfl, htold]
    exact congrArg (fun l => ({ s.begin.usbSay tx 0 p with usb := { s.usb with stages := l } } : State)) hmap
  rw [hrem, State.hostIn_one hx' (by rw [hin]; exact his) hstall hk hst' hsp hp, hset,
    State.readAhead_off (by exact (State.cv_congr rfl rfl rfl _).trans hra)]
  exact ⟨rfl, rfl⟩

/-! ### Frames at the remote end (R296, R308, R309) -/

theorem usbXferReq_answers (f : UsbFrame) (p : List Byte) (hhub : s.isUsbHub = true) (h1 : 1 ≤ f.port) (h4 : f.port ≤ 4)
    (hpow : (s.usbPort f.port).power = true) (hres : (s.usbPort f.port).resetting = false) (hkept : (s.usbPort f.port).kept = false)
    (hep : f.epoch = epochOf s.usb.epochs f.port f.addr) (hhid : s.usb.hid = []) (hup : s.UpOpen) :
    Gives (.usbXferReq f false [p] none) s fun t => t.out =
      [.usbDevice f.port f.addr f.ep true false [], .usbFrame 0 (s.usbCells 0 (replyFrame f usbXferData 0 p))] := by
  refine gives_of_run (execUsbXferReq.eq_1 f false [p] none s) ha ?_
  have hhub' : s.begin.isUsbHub = true := hhub
  have hok : s.begin.epochOk f = (true, s.begin.epochTaken f) := State.epochOk_same hep
  have hpow' : ((s.begin.epochTaken f).usbPort f.port).power = true := (State.epochTaken_port UsbPort.power (fun _ _ => rfl) f _).trans hpow
  have hres' : ((s.begin.epochTaken f).usbPort f.port).resetting = false :=
    (State.epochTaken_port UsbPort.resetting (fun _ _ => rfl) f _).trans hres
  have hkept' : ((s.begin.epochTaken f).usbPort f.port).kept = false := (State.epochTaken_port UsbPort.kept (fun _ _ => rfl) f _).trans hkept
  have hreplay : ∃ n a r, (s.begin.epochTaken f).replayReports f
      = (n, { s.begin.epochTaken f with usb := { (s.begin.epochTaken f).usb with hid := [], aged := a, replayed := r } }) := by
    have hnone : (s.begin.epochTaken f).usb.hid = [] := hhid
    unfold State.replayReports
    rw [hnone]
    simp only [List.filter_nil, List.take_nil, List.drop_nil, List.append_nil, List.foldl_nil]
    exact ⟨_, _, _, rfl⟩
  obtain ⟨n, a, r, hreplay⟩ := hreplay
  rw [hhub', if_neg (by decide), hok]
  dsimp only
  rw [if_neg (by decide), if_neg (by simp; omega), hres', hpow', if_neg (by simp), hreplay]
  dsimp only
  rw [if_neg Bool.false_ne_true, List.foldl_cons, List.foldl_nil, if_neg (by simp), State.usbUpFrame_open (by exact hup)]
  have haddr : (if ((s.begin.epochTaken f).usbPort f.port).kept then ((s.begin.epochTaken f).usbPort f.port).keptAddr else f.addr) = f.addr :=
    if_neg (by rw [hkept']; exact Bool.false_ne_true)
  show [Emit.usbDevice f.port (if ((s.begin.epochTaken f).usbPort f.port).kept then ((s.begin.epochTaken f).usbPort f.port).keptAddr
    else f.addr) f.ep true false [], _] = _
  rw [haddr]
  rfl

theorem usbXferData_answers (f : UsbFrame) (c : Nat) (hhub : s.isUsbHub = true) (h1 : 1 ≤ f.port) (h4 : f.port ≤ 4)
    (hkept : (s.usbPort f.port).kept = false) (hep : f.epoch = epochOf s.usb.epochs f.port f.addr) (h0 : f.count = 0) (hup : s.UpOpen) :
    Gives (.usbXferData 0 f (some c)) s fun t => t.out =
      [.usbDevice f.port f.addr f.ep false false f.data, .usbFrame 0 (s.usbCells 0 (replyFrame f usbXferDone c []))] := by
  refine gives_of_run (execUsbXferData.eq_1 0 f (some c) s) ha ?_
  have hhub' : s.begin.isUsbHub = true := hhub
  have hok : s.begin.epochOk f = (true, s.begin.epochTaken f) := State.epochOk_same hep
  have hkept' : ((s.begin.epochTaken f).usbPort f.port).kept = false := (State.epochTaken_port UsbPort.kept (fun _ _ => rfl) f _).trans hkept
  have hsetup : (s.begin.epochTaken f).keptSetup f = (false, s.begin.epochTaken f) := by
    unfold State.keptSetup
    rw [h0]
    rfl
  have hext : (s.begin.epochTaken f).extReset f = s.begin.epochTaken f := by
    unfold State.extReset
    rw [h0]
    rfl
  rw [hhub', if_pos rfl, hok]
  dsimp only
  rw [if_neg (by decide), hsetup]
  dsimp only
  rw [if_neg Bool.false_ne_true, if_neg (by simp; omega), hext, hkept', if_neg Bool.false_ne_true, h0, State.usbUpFrame_open (by exact hup)]
  rfl

theorem usbXferData_old (root : Nat) (f : UsbFrame) (c : Option Nat) (hhub : s.isUsbHub = false) (hup : s.isUsbUp = true)
    (hold : s.oldFrame root f = true) :
    Leaves (.usbXferData root f c) s (s.setRemote root fun r => { r with oldFrames := satAdd 32 r.oldFrames 1 }) := by
  refine gives_of_run (execUsbXferData.eq_1 root f c s) ha ?_
  have hhub' : s.begin.isUsbHub = false := hhub
  have hup' : s.begin.isUsbUp = true := hup
  have hold' : s.begin.oldFrame root f = true := hold
  rw [hhub', if_neg Bool.false_ne_true, hup', if_neg (by decide), if_pos hold']
  rfl

theorem usbXferDone_stalls (root : Nat) (f : UsbFrame) (x : UsbStage) (hup : s.isUsbUp = true) (hold : s.oldFrame root f = false)
    (hx : s.stageOf root f = some x) (hd : x.deferred = false) (hin : f.dirIn = false) (h2 : f.count = 2) :
    Leaves (.usbXferDone root f) s (s.setStage x fun y => { y with stall := true, outPkts := [] }) := by
  refine gives_of_run (execUsbXferDone.eq_1 root f s) ha ?_
  have hup' : s.begin.isUsbUp = true := hup
  have hold' : s.begin.oldFrame root f = false := hold
  have hx' : s.begin.stageOf root f = some x := hx
  have hready : s.begin.tellReady root f x = s.begin := by
    unfold State.tellReady
    rw [hd]
    rfl
  rw [hup', if_neg (by decide), hold', if_neg Bool.false_ne_true, hx']
  dsimp only
  rw [hready, hin, if_neg Bool.false_ne_true, hd, if_neg Bool.false_ne_true, h2, if_pos (by rfl)]
  rfl

/-! ### Isochronous data, reports and the bus (R300, R315) -/

theorem usbIsoData_waits (root : Nat) (f : UsbFrame) (iv : Nat) (hhub : s.isUsbHub = true)
    (hep : f.epoch = epochOf s.usb.epochs f.port f.addr) (hlag : s.lagged iv = false)
    (hroom : total (s.usb.isoOut.map fun x => x.1.data.length) + f.data.length ≤ 65536) :
    Gives (.usbIsoData root f iv) s fun t => t.usb.isoOut = s.usb.isoOut ++ [(f, iv)] ∧ t.out = [] := by
  refine gives_of_run (execUsbIsoData.eq_1 root f iv s) ha ?_
  have hhub' : s.begin.isUsbHub = true := hhub
  have hok : s.begin.epochOk f = (true, s.begin.epochTaken f) := State.epochOk_same hep
  have hlag' : (s.begin.epochTaken f).lagged iv = false := hlag
  rw [hhub', if_pos rfl, hok]
  dsimp only
  rw [if_neg (by decide), hlag', if_neg (by simp), if_neg (by exact Nat.not_lt.mpr hroom)]
  exact ⟨rfl, rfl⟩

theorem usbPeriodicPoll_isoOut (port addr ep : Nat) (f : UsbFrame) (iv : Nat) (data : Option (List Byte)) (hhub : s.isUsbHub = true)
    (h1 : 1 ≤ port) (h4 : port ≤ 4) (hpow : (s.usbPort port).power = true) (hiso : s.usb.isoOut = [(f, iv)]) (hfp : f.port = port)
    (hfa : f.addr = addr) (hfe : f.ep = ep) (hlag : s.lagged iv = true) :
    Gives (.usbPeriodicPoll port addr ep false true false data) s fun t =>
      t.usb.isoOut = [] ∧ t.out = [.usbDevice port addr ep false false f.data] := by
  refine gives_of_run (execUsbPeriodicPoll.eq_1 port addr ep false true false data s) ha ?_
  have hhub' : s.begin.isUsbHub = true := hhub
  have hpow' : (s.begin.usbPort port).power = true := hpow
  rw [hhub', hpow', if_neg (by simp; omega)]
  dsimp only
  rw [if_pos (by decide), if_pos rfl]
  generalize hu : (s.begin.setUsbPort port _) = u
  have hisou : u.usb.isoOut = [(f, iv)] := by rw [← hu]; exact hiso
  have hlagu : u.lagged iv = true := by rw [← hu]; exact hlag
  have houtu : u.out = [] := by rw [← hu]; rfl
  have hfind : (u.usb.isoOut.find? fun x => (x.1.port == port && x.1.addr == addr && x.1.ep == ep) && u.lagged x.2) = some (f, iv) := by
    rw [hisou]
    simp [hfp, hfa, hfe, hlagu]
  unfold State.isoOutDue
  dsimp only
  rw [hfind]
  dsimp only
  rw [hisou, List.erase_cons_head]
  refine ⟨rfl, ?_⟩
  show u.out ++ _ = _
  rw [houtu]
  rfl

omit ha in
/-- The state in which a HID endpoint's port is known while the host is absent. -/
theorem hidPort (habs : s.usb.absent = true) (port : Nat) :
    (s.begin.setUsbPort port fun x => { x with hid := x.hid || true, trafficAt := if s.begin.usb.absent then x.trafficAt else s.begin.time.tick })
      = s.begin.setUsbPort port fun x => { x with hid := true } := by
  rw [show s.begin.usb.absent = true from habs]
  simp only [Bool.or_true, if_true]

theorem usbPeriodicPoll_buffers (port addr ep : Nat) (d : List Byte) (hhub : s.isUsbHub = true) (h1 : 1 ≤ port) (h4 : port ≤ 4)
    (hpow : (s.usbPort port).power = true) (habs : s.usb.absent = true) (hroom : s.usb.hid.length < s.cv Fld.HID_BUFFER_REPORTS) :
    Says (.usbPeriodicPoll port addr ep true false true (some d)) s
      { s.setUsbPort port (fun x => { x with hid := true }) with usb := { (s.setUsbPort port fun x => { x with hid := true }).usb with
        hid := s.usb.hid ++ [⟨port, addr, ep, s.time.tick, d.take 64⟩] } }
      [.usbDevice port addr ep true false []] := by
  refine gives_of_run (execUsbPeriodicPoll.eq_1 port addr ep true false true (some d) s) ha ?_
  have hhub' : s.begin.isUsbHub = true := hhub
  have hpow' : (s.begin.usbPort port).power = true := hpow
  rw [hhub', hpow', if_neg (by simp; omega), hidPort habs]
  dsimp only
  rw [if_neg (by decide), if_pos (by exact habs), if_pos (by rfl), State.bufferReport, if_pos (by exact hroom)]
  exact ⟨rfl, rfl⟩

theorem usbPeriodicPoll_full (port addr ep : Nat) (d : List Byte) (hhub : s.isUsbHub = true) (h1 : 1 ≤ port) (h4 : port ≤ 4)
    (hpow : (s.usbPort port).power = true) (habs : s.usb.absent = true) (hfull : s.cv Fld.HID_BUFFER_REPORTS ≤ s.usb.hid.length) :
    Gives (.usbPeriodicPoll port addr ep true false true (some d)) s fun t => t.usb.hid = s.usb.hid ∧ Heard 1 s t 107 port := by
  refine gives_of_run (execUsbPeriodicPoll.eq_1 port addr ep true false true (some d) s) ha ?_
  have hhub' : s.begin.isUsbHub = true := hhub
  have hpow' : (s.begin.usbPort port).power = true := hpow
  rw [hhub', hpow', if_neg (by simp; omega), hidPort habs]
  dsimp only
  rw [if_neg (by decide), if_pos (by exact habs), if_pos (by rfl), State.bufferReport, if_neg (by exact Nat.not_lt.mpr hfull), State.raise_usb]
  exact ⟨rfl, heard_raise_mbx rfl rfl rfl⟩

theorem deviceFunctionBusReset_leaves : Leaves .deviceFunctionBusReset s { s with
      mbx := { s.mbx with usbReply := none, usbWait := [], usbMute := (s.mbx.waiting.filter fun w => w.msg.rq.via == .usb).length }
      rcd := { s.rcd with ep2 := [] }, usb := { s.usb with fnSetup := [] } } :=
  gives_of_run (execDeviceFunctionBusReset.eq_1 s) ha rfl

end Awake

end Frames

end Sys2Proof.Machine

/-! USB ports, suspend, resume and wake, and the keepalive (R303, R308, R310 to R318), and with the transactions the statement of the USB tunnels. -/
namespace Sys2Proof.Machine

section Ports
variable {s : State} {k : Nat}

theorem State.hush_usbUpFrame (u : State) (f : UsbFrame) : (u.usbUpFrame f).hush = u.hush := by
  obtain ⟨o, ho⟩ := u.usbUpFrame_out f
  rw [ho]
  rfl

theorem State.hush_sendUsbPort (u : State) (j changes : Nat) : (u.sendUsbPort j changes).hush = u.hush := State.hush_usbUpFrame ..

/-- The answers to queued requests are outputs alone. -/
theorem usbUpFrames_out (l : List UsbFrame) (g : UsbFrame → UsbFrame) (u : State) :
    ∃ o, l.foldl (fun s f => s.usbUpFrame (g f)) u = { u with out := o } := by
  induction l generalizing u with
  | nil => exact ⟨u.out, rfl⟩
  | cons f l ih =>
    obtain ⟨o, ho⟩ := u.usbUpFrame_out (g f)
    obtain ⟨o', ho'⟩ := ih (u.usbUpFrame (g f))
    exact ⟨o', by rw [List.foldl_cons, ho', ho]⟩

/-- The state once the requests queued for a port have been given up and answered (R308). -/
def State.portCleared (s : State) (k : Nat) (o : List Emit) : State := { s with
  out := o
  usb := { s.usb with
    queue := s.usb.queue.filter (fun f => f.port != k), polls := s.usb.polls.filter (fun p => p.1 != k)
    isoOut := s.usb.isoOut.filter fun x => x.1.port != k } }

/-- The first reset of a kept device is absorbed; any other is driven (R316). -/
theorem State.remoteReset_eq (s : State) (k : Nat) : ∃ o, s.remoteReset k =
    if (s.usbPort k).absorb && (s.usbPort k).kept then
      (((s.portCleared k o).setUsbPort k fun x => { x with absorb := false, enabled := true }).raise 106 k).sendUsbPort k 8
    else (({ s.portCleared k o with usb := { (s.portCleared k o).usb with hid := s.usb.hid.filter fun r => r.port != k } } : State).setUsbPort k
      fun x => { x with resetting := true, enabled := false, kept := false, absorb := false, suspended := false, resuming := none }).emit
        (.usbBus k 3) := by
  obtain ⟨o, ho⟩ := usbUpFrames_out (s.usb.queue.filter fun f => f.port == k) (fun f => Machine.replyFrame f usbXferDone 4 []) { s with usb := { s.usb with
    queue := s.usb.queue.filter (fun f => f.port != k), polls := s.usb.polls.filter (fun p => p.1 != k)
    isoOut := s.usb.isoOut.filter fun x => x.1.port != k } }
  refine ⟨o, ?_⟩
  unfold State.remoteReset
  dsimp only
  rw [ho]
  rfl

/-- The host becomes absent at a hub that keeps alive (R315). -/
theorem State.hostAbsent_gone {u : State} (hhub : u.isUsbHub = true) (hen : u.cv Fld.KEEPALIVE_ENABLE = 1) (habs : u.usb.absent = false)
    (hexp : u.usb.expired = false) :
    u.hostAbsent.usb.absent = true ∧ u.hostAbsent.usb.absentAt = u.time.tick ∧ u.hostAbsent.usb.busState = u.usb.busState := by
  unfold State.hostAbsent
  rw [if_pos (by rw [hhub, hen, habs, hexp]; rfl)]
  dsimp only
  rw [State.raise_usb]
  exact ⟨rfl, rfl, rfl⟩

/-- The keepalive has ended (R318): no report is kept, and the mailboxes and the instant are those of `s`. -/
structure State.Expired (s u : State) : Prop where
  hid : u.usb.hid = []
  absent : u.usb.absent = false
  expired : u.usb.expired = true
  mbx : u.mbx = s.mbx
  time : u.time = s.time

theorem State.Expired.reset {u : State} (h : s.Expired u) (k : Nat) :
    s.Expired ((u.setUsbPort k fun x => { x with kept := false, absorb := false }).remoteReset k) := by
  have habsorb : ((u.setUsbPort k fun x => { x with kept := false, absorb := false }).usbPort k).absorb = false := by
    by_cases hk : k - 1 < u.usb.ports.length
    · exact congrArg UsbPort.absorb (nth_modify_same _ _ _ _ hk)
    · exact congrArg UsbPort.absorb (List.getD_eq_default _ _ (by
        show (u.usb.ports.modify (k - 1) _).length ≤ k - 1
        rw [List.length_modify]
        exact Nat.not_lt.mp hk))
  obtain ⟨o, ho⟩ := State.remoteReset_eq (u.setUsbPort k fun x => { x with kept := false, absorb := false }) k
  rw [ho, if_neg (by rw [habsorb]; exact Bool.false_ne_true)]
  refine ⟨?_, h.absent, h.expired, h.mbx, h.time⟩
  show u.usb.hid.filter _ = []
  rw [h.hid]
  rfl

section Awake
variable (ha : s.awake = true)
include ha

/-! ### Actions of the host on a port (R303, R308, R312, R313) -/

theorem usbPortCtrlFrame_suspends (f : UsbFrame) (hhub : s.isUsbHub = true) (hk : f.port = k) (h1 : 1 ≤ k) (h4 : k ≤ 4) (hd : f.data = [ctlSuspend]) :
    Leaves (.usbPortCtrlFrame f) s (s.setUsbPort k fun x => { x with suspended := true }) := by
  refine gives_of_run (execUsbPortCtrlFrame.eq_1 f s) ha ?_
  have hhub' : s.begin.isUsbHub = true := hhub
  dsimp only
  rw [hhub', hk, hd, if_neg (by simp; omega), if_neg (by simp; omega), if_neg (by decide), if_neg (by decide), if_neg (by decide),
    if_pos (by decide)]
  exact (State.hush_sendUsbPort ..).trans rfl

theorem usbPortCtrlFrame_absorbs (f : UsbFrame) (hhub : s.isUsbHub = true) (hk : f.port = k) (h1 : 1 ≤ k) (h4 : k ≤ 4) (hd : f.data = [ctlReset])
    (habs : (s.usbPort k).absorb = true) (hkept : (s.usbPort k).kept = true) (hl : s.usb.ports.length = 4) :
    Gives (.usbPortCtrlFrame f) s fun t => (t.usbPort k).absorb = false ∧ (t.usbPort k).enabled = true ∧ Heard 1 s t 106 k := by
  refine gives_of_run (execUsbPortCtrlFrame.eq_1 f s) ha ?_
  have hhub' : s.begin.isUsbHub = true := hhub
  dsimp only
  rw [hhub', hk, hd, if_neg (by simp; omega), if_neg (by simp; omega), if_pos (by decide)]
  obtain ⟨o, ho⟩ := State.remoteReset_eq s.begin k
  have hboth : ((s.begin.usbPort k).absorb && (s.begin.usbPort k).kept) = true := by
    rw [show (s.begin.usbPort k).absorb = true from habs, show (s.begin.usbPort k).kept = true from hkept]
    rfl
  rw [ho, if_pos hboth]
  have hport : (((s.begin.portCleared k o).setUsbPort k fun x => { x with absorb := false, enabled := true }).raise 106 k).usbPort k
      = { s.usbPort k with absorb := false, enabled := true } := by
    rw [State.usbPort, State.raise_usb]
    exact nth_modify_same _ _ _ _ (by show k - 1 < s.usb.ports.length; omega)
  have hheard : Heard 1 s (((s.begin.portCleared k o).setUsbPort k fun x => { x with absorb := false, enabled := true }).raise 106 k) 106 k :=
    heard_raise_mbx rfl rfl rfl
  generalize ((s.begin.portCleared k o).setUsbPort k fun x => { x with absorb := false, enabled := true }).raise 106 k = u at hport hheard ⊢
  obtain ⟨o', ho'⟩ := u.usbUpFrame_out (plainFrame usbPortState k 0
    [BitVec.ofNat 8 (u.usbPort k).code, BitVec.ofNat 8 8, BitVec.ofNat 8 (u.usbPort k).speed])
  rw [State.sendUsbPort, ho']
  exact ⟨congrArg UsbPort.absorb hport, congrArg UsbPort.enabled hport, hheard.of_mbx rfl⟩

theorem remotePortResetEnd_leaves (speed : Nat) (h1 : 1 ≤ k) (h4 : k ≤ 4) (hr : (s.usbPort k).resetting = true)
    (h3 : k ≠ 3 ∨ s.port3Taken = false) :
    Leaves (.remotePortResetEnd k speed) s (s.setUsbPort k fun x => { x with resetting := false, enabled := x.connected, speed := speed }) := by
  refine gives_of_run (execRemotePortResetEnd.eq_1 k speed s) ha ?_
  have hr' : (s.begin.usbPort k).resetting = true := hr
  have hfull : (k == 3 && s.begin.port3Taken) = false := by
    obtain h | h := h3
    · rw [beq_eq_false_iff_ne.mpr h, Bool.false_and]
    · rw [show s.begin.port3Taken = false from h, Bool.and_false]
  rw [hr', if_neg (by simp; omega)]
  dsimp only
  rw [hfull, if_neg Bool.false_ne_true]
  exact (State.hush_sendUsbPort ..).trans rfl

theorem usbPortStateFrame_connects (root : Nat) (f : UsbFrame) (hup : s.isUsbUp = true) (hst : 2 ≤ (s.remote root).state) (hk : f.port = k)
    (h1 : 1 ≤ k) (h4 : k ≤ 4) (hd : f.data = [3, 1, 2]) (hwas : (nth (s.remote root).ports (k - 1) (0, 0, 0)).1 = 1) :
    Gives (.usbPortStateFrame root f) s fun t =>
      t.hush = (s.setRemote root fun r => { r with
        ports := put r.ports (k - 1) (3, (nth (s.remote root).ports (k - 1) (0, 0, 0)).2.1 ||| 1, 2) }).hush ∧ Heard 1 s t 99 (root + 16) := by
  refine gives_of_run (execUsbPortStateFrame.eq_1 root f s) ha ?_
  have hup' : s.begin.isUsbUp = true := hup
  have hst' : 2 ≤ (s.begin.remote root).state := hst
  have hwas' : (nth (s.begin.remote root).ports (k - 1) (0, 0, 0)).1 = 1 := hwas
  have hcode : leAt 0 1 f.data = 3 ∧ leAt 1 1 f.data % 16 = 1 ∧ leAt 2 1 f.data = 2 := by
    rw [hd]
    exact ⟨by decide, by decide, by decide⟩
  obtain ⟨hc0, hc1, hc2⟩ := hcode
  dsimp only
  rw [hup', hk, if_neg (by simp; omega), hc0, hc1, hc2, hwas']
  exact ⟨(State.hush_raise ..).trans rfl, heard_raise_mbx rfl rfl rfl⟩

theorem usbBusStateFrame_absent (hhub : s.isUsbHub = true) (hen : s.cv Fld.KEEPALIVE_ENABLE = 1) (habs : s.usb.absent = false)
    (hexp : s.usb.expired = false) :
    Gives (.usbBusStateFrame 3) s fun t => t.usb.absent = true ∧ t.usb.absentAt = s.time.tick ∧ t.usb.busState = 3 := by
  refine gives_of_run (execUsbBusStateFrame.eq_1 3 s) ha ?_
  have hhub' : s.begin.isUsbHub = true := hhub
  rw [if_pos hhub']
  exact State.hostAbsent_gone (by exact hhub) (by exact (State.cv_congr rfl rfl rfl _).trans hen) (by exact habs) (by exact hexp)

/-! ### Resume and wake (R312 to R314) -/

theorem usbWakeFrame_signals (root port : Nat) (hup : s.isUsbUp = true) (hp : port ≠ 0) (h4 : s.usb.upstream = 4) (hres : s.usb.hostResume = false)
    (hw : s.usb.waking = false) :
    Gives (.usbWakeFrame root port) s fun t => t.hush = ({ s with usb := { s.usb with waking := true } } : State).hush
      ∧ Emit.usbBus 255 1 ∈ t.out ∧ Heard 1 s t 103 root := by
  refine gives_of_run (execUsbWakeFrame.eq_1 root port s) ha ?_
  have hup' : s.begin.isUsbUp = true := hup
  rw [hup', if_neg (by simp [hp]), if_pos (by
    rw [show s.begin.usb.upstream = 4 from h4, show s.begin.usb.hostResume = false from hres, show s.begin.usb.waking = false from hw]; rfl)]
  refine ⟨(State.hush_raise ..).trans rfl, ?_, heard_raise_mbx rfl rfl rfl⟩
  rw [State.raise_out]
  exact .head _

theorem deviceRemoteWake_resumes (hhub : s.isUsbHub = true) (hon : s.usb.wakeOn = true) (h1 : 1 ≤ k) (h4 : k ≤ 4)
    (hsus : (s.usbPort k).suspended = true) (hres : (s.usbPort k).resuming = none) (hbus : s.usb.busState ≠ 0) :
    Leaves (.deviceRemoteWake k) s ((s.setUsbPort k fun x => { x with resuming := some s.time.tick }).setUsbPort k fun x => { x with
      cSuspend := true }) := by
  refine gives_of_run (execDeviceRemoteWake.eq_1 k s) ha ?_
  have hhub' : s.begin.isUsbHub = true := hhub
  have hon' : s.begin.usb.wakeOn = true := hon
  have hsus' : (s.begin.usbPort k).suspended = true := hsus
  have hres' : (s.begin.usbPort k).resuming = none := hres
  have hbus' : (s.begin.usb.busState == 0) = false := beq_eq_false_iff_ne.mpr hbus
  have hstart : s.begin.startResume k = (s.begin.setUsbPort k fun x => { x with resuming := some s.begin.time.tick }).emit (.usbBus k 1) := by
    unfold State.startResume
    dsimp only
    rw [hsus', hres']
    rfl
  rw [hhub', hon', hsus', if_neg (by simp; omega), hbus', if_neg Bool.false_ne_true, hstart, State.hush_usbUpFrame]
  rfl

theorem remoteResumeEnd_ends (t0 : Tick) (h1 : 1 ≤ k) (h4 : k ≤ 4) (hres : (s.usbPort k).resuming = some t0)
    (ht : s.passed t0 (msTicks 20) = true) (hrun : s.usb.running = true) :
    Leaves (.remoteResumeEnd k) s (s.setUsbPort k fun x => { x with resuming := none, suspended := false }) := by
  refine gives_of_run (execRemoteResumeEnd.eq_1 k s) ha ?_
  have hres' : (s.begin.usbPort k).resuming = some t0 := hres
  have ht' : s.begin.passed t0 resumeTicks = true := ht
  have hrun' : s.begin.usb.running = true := hrun
  dsimp only
  rw [hres']
  dsimp only
  rw [ht', if_neg (by simp; omega), hrun', if_pos (by rfl)]
  exact (State.hush_sendUsbPort ..).trans rfl

theorem remoteResumeEnd_early (t0 : Tick) (hres : (s.usbPort k).resuming = some t0) (ht : s.passed t0 (msTicks 20) = false) :
    Leaves (.remoteResumeEnd k) s s := by
  refine gives_of_run (execRemoteResumeEnd.eq_1 k s) ha ?_
  have hres' : (s.begin.usbPort k).resuming = some t0 := hres
  have ht' : s.begin.passed t0 resumeTicks = false := ht
  dsimp only
  rw [hres']
  dsimp only
  rw [ht', Bool.not_false, Bool.or_true, if_pos rfl]
  exact s.hush_begin

theorem usbUpstreamLinkChange_suspends (speed : Nat) (hup : s.isUsbUp = false) (hhub : s.isUsbHub = false) (h4 : s.usb.upstream ≠ 4) :
    Gives (.usbUpstreamLinkChange 2 speed) s fun t =>
      t.hush = ({ s with usb := { s.usb with upstream := 4, hostResume := false, waking := false } } : State).hush ∧ Heard 1 s t 96 64 := by
  refine gives_of_run (execUsbUpstreamLinkChange.eq_1 2 speed s) ha ?_
  extract_lets was now src v w tell
  have hw : w = v.raise 96 64 := if_pos (by exact bne_iff_ne.mpr h4)
  have htopo : w.topo = s.topo := by rw [hw, State.raise_topo]; rfl
  have hup' : w.isUsbUp = false := by rw [State.isUsbUp, htopo]; exact hup
  have hhub' : w.isUsbHub = false := by rw [State.isUsbHub, htopo]; exact hhub
  have htell : tell 0 w = w := by
    show (if w.isUsbUp then w.sendBusState 0 else if w.isUsbHub && w.usb.inLabel.isNone then w.busStateTo 0 else w) = w
    rw [hup', hhub']
    rfl
  have hush : w.hush = ({ s with usb := { s.usb with upstream := 4, hostResume := false, waking := false } } : State).hush := by
    rw [hw]
    exact (State.hush_raise ..).trans rfl
  have hheard : Heard 1 s w 96 64 := by
    rw [hw]
    exact heard_raise_mbx rfl rfl rfl
  rw [hup', if_pos (by rfl)]
  show (tell 0 w).hush = _ ∧ Heard 1 s (tell 0 w) 96 64
  rw [htell]
  exact ⟨hush, hheard⟩

/-! ### Keepalive (R315, R318) -/

theorem keepaliveIdleSuspend_says (habs : s.usb.absent = true) (h1 : 1 ≤ k) (h4 : k ≤ 4) (hhid : (s.usbPort k).hid = false)
    (hpow : (s.usbPort k).power = true) (hsus : (s.usbPort k).suspended = false) (hms : s.cv Fld.KEEPALIVE_IDLE_SUSPEND_MS ≠ 0)
    (ht : s.passed (s.usbPort k).trafficAt (msTicks (s.cv Fld.KEEPALIVE_IDLE_SUSPEND_MS)) = true) :
    Says (.keepaliveIdleSuspend k) s (s.setUsbPort k fun x => { x with suspended := true }) [.usbBus k 0] := by
  refine gives_of_run (execKeepaliveIdleSuspend.eq_1 k s) ha ?_
  have hgo : (s.begin.usb.absent && decide (1 ≤ k) && decide (k ≤ 4) && !(s.begin.usbPort k).hid && (s.begin.usbPort k).power
      && !(s.begin.usbPort k).suspended && s.begin.cv Fld.KEEPALIVE_IDLE_SUSPEND_MS != 0
      && s.begin.passed (s.begin.usbPort k).trafficAt (msTicks (s.begin.cv Fld.KEEPALIVE_IDLE_SUSPEND_MS))) = true := by
    rw [show s.begin.usb.absent = true from habs, show (s.begin.usbPort k).hid = false from hhid, show (s.begin.usbPort k).power = true from hpow,
      show (s.begin.usbPort k).suspended = false from hsus,
      show s.begin.passed (s.begin.usbPort k).trafficAt (msTicks (s.begin.cv Fld.KEEPALIVE_IDLE_SUSPEND_MS)) = true from ht,
      bne_iff_ne.mpr (by exact hms), decide_eq_true h1, decide_eq_true h4]
    rfl
  dsimp only
  rw [if_pos hgo]
  exact ⟨rfl, rfl⟩

theorem keepaliveIdleSuspend_early (ht : s.passed (s.usbPort k).trafficAt (msTicks (s.cv Fld.KEEPALIVE_IDLE_SUSPEND_MS)) = false) :
    Leaves (.keepaliveIdleSuspend k) s s := by
  refine gives_of_run (execKeepaliveIdleSuspend.eq_1 k s) ha ?_
  have ht' : s.begin.passed (s.begin.usbPort k).trafficAt (msTicks (s.begin.cv Fld.KEEPALIVE_IDLE_SUSPEND_MS)) = false := ht
  dsimp only
  rw [ht', Bool.and_false, if_neg Bool.false_ne_true]
  exact s.hush_begin

theorem keepaliveTimeout_ends (habs : s.usb.absent = true) (hs : s.cv Fld.KEEPALIVE_S ≠ 0)
    (ht : s.passed s.usb.absentAt (secTicks (s.cv Fld.KEEPALIVE_S)) = true) :
    Gives .keepaliveTimeout s fun t => t.usb.hid = [] ∧ t.usb.absent = false ∧ t.usb.expired = true ∧ Heard 1 s t 105 16 := by
  refine gives_of_run (execKeepaliveTimeout.eq_1 s) ha ?_
  have habs' : s.begin.usb.absent = true := habs
  have hs' : (s.begin.cv Fld.KEEPALIVE_S == 0) = false := beq_eq_false_iff_ne.mpr hs
  have ht' : s.begin.passed s.begin.usb.absentAt (secTicks (s.begin.cv Fld.KEEPALIVE_S)) = true := ht
  rw [habs', hs', ht', if_neg (by decide)]
  dsimp only
  generalize hv : ({ s.begin with usb := { s.begin.usb with hid := [], absent := false, expired := true } } : State) = v
  have hstart : s.Expired v := hv ▸ ⟨rfl, rfl, rfl, rfl, rfl⟩
  have hend := (((hstart.reset 1).reset 2).reset 3).reset 4
  simp only [List.foldl_cons, List.foldl_nil]
  generalize ((State.setUsbPort _ 4 _).remoteReset 4) = w at hend ⊢
  rw [State.raise_usb]
  exact ⟨hend.hid, hend.absent, hend.expired, heard_raise_mbx (congrArg (·.tick) hend.time) (congrArg (·.slot) hend.time) hend.mbx⟩

theorem keepaliveTimeout_early (ht : s.passed s.usb.absentAt (secTicks (s.cv Fld.KEEPALIVE_S)) = false) : Leaves .keepaliveTimeout s s := by
  refine gives_of_run (execKeepaliveTimeout.eq_1 s) ha ?_
  have ht' : s.begin.passed s.begin.usb.absentAt (secTicks (s.begin.cv Fld.KEEPALIVE_S)) = false := ht
  rw [ht', Bool.not_false, Bool.or_true, if_pos rfl]
  exact s.hush_begin

end Awake

end Ports

/-- Settles O29: one transaction of a stage, one frame at the remote end, one port, and the keepalive's timers. -/
theorem usbTunnels : Obligations.UsbTunnels := by
  refine ⟨fun s ha => ⟨?_, ?_, ?_, ?_, ?_, ?_, ?_, ?_, ?_, ?_⟩, fun s k ha => ⟨?_, ?_, ?_, ?_, ?_, ?_, ?_, ?_, ?_, ?_, ?_, ?_, ?_, ?_⟩⟩
  · exact hostUsbTransaction_staged ha
  · exact usbXferReq_answers ha
  · exact usbXferData_answers ha
  · exact usbXferData_old ha
  · exact usbXferDone_stalls ha
  · exact usbIsoData_waits ha
  · exact usbPeriodicPoll_isoOut ha
  · exact usbPeriodicPoll_buffers ha
  · exact usbPeriodicPoll_full ha
  · exact deviceFunctionBusReset_leaves ha
  · exact usbPortCtrlFrame_suspends ha
  · exact usbPortCtrlFrame_absorbs ha
  · exact remotePortResetEnd_leaves ha
  · exact usbPortStateFrame_connects ha
  · exact usbBusStateFrame_absent ha
  · exact usbWakeFrame_signals ha
  · exact deviceRemoteWake_resumes ha
  · exact remoteResumeEnd_ends ha
  · exact remoteResumeEnd_early ha
  · exact usbUpstreamLinkChange_suspends ha
  · exact keepaliveIdleSuspend_says ha
  · exact keepaliveIdleSuspend_early ha
  · exact keepaliveTimeout_ends ha
  · exact keepaliveTimeout_early ha

end Sys2Proof.Machine

/-! Configuration channels (R410 to R432): messages on the wire, their acknowledgement and their resending, and what time answers. -/
namespace Sys2Proof.Machine

section Wire
variable {s : State} {k : Nat}

/-- A message of SOP on an idle channel goes on the wire at once. -/
theorem State.pdSend_idle (hrom : s.romNow = false) (hsent : (s.chn k).sent = none) (kind : PdKind) (objs : List Word) (what : PdFor) :
    s.pdSend k kind objs what = (s.onWire k kind objs what).emit (.pd k 0 kind (nth (s.chn k).txIds 0 0) objs) := by
  unfold State.pdSend
  rw [if_neg (Bool.eq_false_iff.mp hrom), hsent]
  rfl

/-- What a step leaves when it ends by sending a message of SOP on an idle channel. -/
theorem State.pdSend_says {w u : State} {id : Nat} {l : List Emit} (hrom : w.romNow = false) (hsent : (w.chn k).sent = none)
    (hid : nth (w.chn k).txIds 0 0 = id) (hout : w.out = l) (hu : w.hush = u.hush) (kind : PdKind) (objs : List Word) (what : PdFor) :
    (w.pdSend k kind objs what).hush = (u.onWire k kind objs what).hush
      ∧ (w.pdSend k kind objs what).out = l ++ [.pd k 0 kind id objs] := by
  rw [State.pdSend_idle hrom hsent, hid]
  exact ⟨congrArg (State.onWire · k kind objs what) hu, by rw [← hout]; rfl⟩

theorem State.chn_setStop (hk : k < s.cc.length) (f : CcSt → CcSt) (t : CcTimer) : ((s.setChn k f).ccStop k t).chn k = (f (s.chn k)).stop t := by
  rw [State.ccStop, State.chn_setChn (hk.trans_eq (List.length_modify ..).symm), State.chn_setChn hk]

variable (hp : s.pwrLive = true)
include hp

theorem ccAttach_open (a ms : Nat) (h5 : k ≤ 5) (hst : (s.chn k).state = 1) : Leaves (.ccAttach k a a ms true) s s := by
  refine gives_of_runIf (execCcAttach.eq_1 k a a ms true s) hp ?_
  have hst' : (s.begin.chn k).state = 1 := hst
  have hsees : ccSees a a = none := by
    unfold ccSees
    rw [if_neg (by simp; omega), if_neg (by simp; omega), if_neg (by simp; omega), if_neg (by simp; omega)]
  dsimp only
  rw [hst', hsees, if_neg (by simp; omega)]
  exact s.hush_begin

theorem ccDetach_held (ms : Nat) (vb : Bool) (hst : (s.chn k).state = 4) (hsrc : (s.chn k).src = true) (hms : ms < s.cv Fld.PD_DEBOUNCE_MS) :
    Leaves (.ccDetach k ms vb) s s := by
  refine gives_of_runIf (execCcDetach.eq_1 k ms vb s) hp ?_
  have hst' : (s.begin.chn k).state = 4 := hst
  dsimp only
  split
  · exact s.hush_begin
  · rw [if_neg (by simp [hst']), if_pos]
    · exact s.hush_begin
    · rw [Bool.or_eq_true, Bool.not_eq_true', Bool.not_eq_true', decide_eq_false_iff_not, if_pos (by exact hsrc)]
      exact .inr (not_le.mpr hms)

theorem drpToggle_says (h1 : k ≤ 1) (hst : (s.chn k).state = 1) (hrole : 2 ≤ s.ccRole k) (hruns : (s.chn k).runs .drp = false)
    (hl : s.cc.length = 6) :
    Says (.drpToggle k false) s ((s.setChn k fun c => { c with state := 1, drpSrc := !c.drpSrc }).ccStart k .drp
        (msTicks (s.cv Fld.DRP_PERIOD_MS) * (if (s.chn k).drpSrc then 100 - s.cv Fld.DRP_DUTY_PCT else s.cv Fld.DRP_DUTY_PCT) / 100))
      [.ccPins k (b2n (s.chn k).drpSrc) (s.chn k).rp (s.chn k).vconnOn] := by
  refine gives_of_runIf (execDrpToggle.eq_1 k false s) hp ?_
  have hst' : (s.begin.chn k).state = 1 := hst
  have hatt : (s.begin.chn k).attached = false := by rw [CcSt.attached, hst']; rfl
  have hrole' : 2 ≤ s.begin.ccRole k := hrole
  have hruns' : (s.begin.chn k).runs .drp = false := hruns
  dsimp only
  rw [if_neg (by simp [hatt, hst']; omega), if_neg Bool.false_ne_true, if_neg (by simp [hst', hruns'])]
  have hk : k < s.begin.cc.length := by show k < s.cc.length; omega
  have hflip : (s.begin.setChn k fun c => { c with state := 1, drpSrc := !(s.begin.chn k).drpSrc })
      = s.begin.setChn k fun c => { c with state := 1, drpSrc := !c.drpSrc } := State.setChn_congr rfl
  have hticks : (if !(s.begin.chn k).drpSrc then s.begin.cv Fld.DRP_DUTY_PCT else 100 - s.begin.cv Fld.DRP_DUTY_PCT)
      = if (s.chn k).drpSrc then 100 - s.cv Fld.DRP_DUTY_PCT else s.cv Fld.DRP_DUTY_PCT := by
    show (if !(s.chn k).drpSrc then _ else _) = _
    cases (s.chn k).drpSrc <;> rfl
  rw [hticks, hflip]
  refine ⟨rfl, ?_⟩
  unfold State.showPins State.ccStart
  rw [State.chn_setChn (hk.trans_eq (List.length_modify ..).symm), State.chn_setChn hk]
  show [Emit.ccPins k (if !(s.chn k).drpSrc then 0 else 1) (s.chn k).rp (s.chn k).vconnOn] = _
  cases (s.chn k).drpSrc <;> rfl

theorem drpToggle_early (hruns : (s.chn k).runs .drp = true) (hdue : s.ccDue k .drp = false) : Leaves (.drpToggle k false) s s := by
  refine gives_of_runIf (execDrpToggle.eq_1 k false s) hp ?_
  have hruns' : (s.begin.chn k).runs .drp = true := hruns
  have hdue' : s.begin.ccDue k .drp = false := hdue
  dsimp only
  rw [if_neg Bool.false_ne_true, hruns', hdue', if_pos (by simp : (_ || (true && !false)) = true), ite_self]
  exact s.hush_begin

/-! ### Messages received (R413, R415, R417) -/

omit hp in
theorem CcSt.attached_of_source {c : CcSt} (h : c.state = 4) : c.attached = true := by rw [CcSt.attached, h]; rfl

omit hp in
theorem CcSt.attached_of_sink {c : CcSt} (h : c.state = 5) : c.attached = true := by rw [CcSt.attached, h]; rfl

omit hp in
theorem State.dropQueued_none (h : (s.chn k).queued = none) (m : PdMsg) : s.dropQueued k m = s := by
  unfold State.dropQueued
  rw [h]

omit hp in
theorem State.restRp_rests (h : (s.chn k).src = false ∨ (s.chn k).rp = (s.chn k).idleRp) : s.restRp k = s := by
  unfold State.restRp
  obtain h | h := h
  · rw [if_neg (by simp [h])]
  · rw [if_neg (by simp [h])]

/-- The channel once it has taken a message of SOP' (R413). -/
def State.took (s : State) (k : Nat) (m : PdMsg) : State :=
  s.setChn k fun c => { c with pd := true, rxIds := put c.rxIds 1 (some (pdId m)) }

omit hp in
theorem State.chn_took (hk : k < s.cc.length) (m : PdMsg) :
    (s.took k m).chn k = { s.chn k with pd := true, rxIds := put (s.chn k).rxIds 1 (some (pdId m)) } := State.chn_setChn hk _

omit hp in
theorem State.pdNext_empty (h : (s.chn k).outq = []) : s.pdNext k = s := by
  unfold State.pdNext
  rw [h]
  cases (s.chn k).sent <;> rfl

omit hp in
theorem State.sendCaps_says {w u : State} {id : Nat} {l : List Emit} {objs : List Word} (hrom : w.romNow = false) (hsent : (w.chn k).sent = none)
    (hepr : (w.chn k).epr = false) (hobjs : w.offered k = objs) (hid : nth (w.chn k).txIds 0 0 = id) (hout : w.out = l) (hu : w.hush = u.hush) :
    (w.sendCaps k).hush = (u.onWire k .sourceCaps (objs.take 7) .none).hush
      ∧ (w.sendCaps k).out = l ++ [.pd k 0 .sourceCaps id (objs.take 7)] := by
  unfold State.sendCaps
  rw [hepr, if_neg Bool.false_ne_true, hobjs]
  exact State.pdSend_says hrom hsent hid hout hu ..

section Received
variable {m : PdMsg} (h5 : k ≤ 5) (hl : s.cc.length = 6) (hrom : s.romNow = false)
include h5 hrom

theorem pdMessageReceive_repeated (hatt : (s.chn k).attached = true) (hack : m.kind ≠ .goodCrc) (hsoft : m.kind ≠ .softReset)
    (hsame : nth (s.chn k).rxIds m.sop none = some (pdId m)) :
    Says (.pdMessageReceive k m) s s [.pd k m.sop .goodCrc (pdId m) []] := by
  refine gives_of_runIf (execPdMessageReceive.eq_1 k m s) hp ?_
  have hatt' : (s.begin.chn k).attached = true := hatt
  have hrom' : s.begin.romNow = false := hrom
  have hrep : (s.begin.chn k).repeated m = true := by
    show (m.kind != .softReset && nth (s.chn k).rxIds m.sop none == some (pdId m)) = true
    simp [hsoft, hsame]
  dsimp only
  rw [if_neg (by simp [hatt', hrom']; omega), if_neg (by simp [hack]), if_pos hrep]
  exact ⟨rfl, rfl⟩

theorem pdMessageReceive_acked (o : PdOut) (hatt : (s.chn k).attached = true) (hack : m.kind = .goodCrc) (hsent : (s.chn k).sent = some o)
    (hwhat : o.what = .none) (hq : (s.chn k).outq = []) (hk : k < s.cc.length) :
    Says (.pdMessageReceive k m) s ((s.setChn k fun c => { c with sent := none, pd := true }).ccStop k .goodCrc) [] := by
  refine gives_of_runIf (execPdMessageReceive.eq_1 k m s) hp ?_
  have hatt' : (s.begin.chn k).attached = true := hatt
  have hrom' : s.begin.romNow = false := hrom
  have hsent' : (s.begin.chn k).sent = some o := hsent
  dsimp only
  rw [if_neg (by simp [hatt', hrom']; omega), if_pos (by simp [hack])]
  unfold State.acked'
  rw [hsent']
  dsimp only
  unfold State.ackedFor
  rw [hwhat]
  dsimp only
  rw [State.pdNext_empty]
  · exact ⟨rfl, rfl⟩
  · rw [State.chn_setStop (by exact hk)]
    exact hq

theorem pdMessageReceive_getSourceCap (hst : (s.chn k).state = 4) (hkind : m.kind = .getSourceCap) (hsop : m.sop = 1)
    (hq : (s.chn k).queued = none) (hsrc : (s.chn k).src = true) (hrp : (s.chn k).rp = 2) (hbase : (s.chn k).rpBase = 2)
    (hsent : (s.chn k).sent = none) (hepr : (s.chn k).epr = false) (hnew : nth (s.chn k).rxIds 1 none ≠ some (pdId m)) (hl : s.cc.length = 6) :
    Says (.pdMessageReceive k m) s ((s.took k m).onWire k .sourceCaps ((s.offered k).take 7) .none)
      [.pd k 1 .goodCrc (pdId m) [], .pd k 0 .sourceCaps (nth (s.chn k).txIds 0 0) ((s.offered k).take 7)] := by
  refine gives_of_runIf (execPdMessageReceive.eq_1 k m s) hp ?_
  obtain ⟨sop, kind, header, objs, needs⟩ := m
  dsimp only at hkind hsop hnew
  subst hkind hsop
  have hatt' : (s.begin.chn k).attached = true := CcSt.attached_of_source hst
  have hrom' : s.begin.romNow = false := hrom
  have hrep : (s.begin.chn k).repeated ⟨1, .getSourceCap, header, objs, needs⟩ = false := by
    simp only [CcSt.repeated, Bool.and_eq_false_iff]
    exact .inr (beq_eq_false_iff_ne.mpr hnew)
  have hk : k < s.begin.cc.length := by show k < s.cc.length; omega
  dsimp only
  rw [if_neg (by simp [hatt', hrom']; omega), if_neg (by decide), if_neg (by simp [hrep]), State.dropQueued_none (by exact hq),
    State.restRp_rests ?_, if_pos ?_]
  · refine State.sendCaps_says (u := s.took k _) (l := [_]) hrom ?_ ?_ ?_ ?_ rfl rfl
    · rw [State.chn_setChn (by exact hk)]
      exact hsent
    · rw [State.chn_setChn (by exact hk)]
      exact hepr
    · unfold State.offered
      rw [State.chn_setChn (by exact hk)]
      rfl
    · rw [State.chn_setChn (by exact hk)]
      rfl
  · rw [show (s.begin.chn k).src = true from hsrc]
    rfl
  · rw [State.chn_setChn (by exact hk)]
    right
    show (s.chn k).rp = (if (s.chn k).src && true && (s.chn k).rev == 1 then 2 else (s.chn k).rpBase)
    rw [hrp, hbase, ite_self]

/-- A message that the hub does not answer itself is queued for the local controller (R417). -/
theorem pdMessageReceive_queued (hatt : (s.chn k).attached = true) (hkind : m.kind = .other) (hsop : m.sop = 1)
    (hq : (s.chn k).queued = none) (hsrc : (s.chn k).src = false) (hroom : (s.chn k).queue.length < 16)
    (hnew : nth (s.chn k).rxIds 1 none ≠ some (pdId m)) (hl : s.cc.length = 6) :
    Gives (.pdMessageReceive k m) s fun t =>
      t.hush = ((s.took k m).setChn k fun c => { c with queue := c.queue ++ [⟨m.sop, m.header, s.time.tick, m.objs, m.needs⟩] }).hush
      ∧ Emit.pd k 1 .goodCrc (pdId m) [] ∈ t.out ∧ Heard 1 s t 151 (k + 16 * ((s.chn k).queue.length + 1)) := by
  refine gives_of_runIf (execPdMessageReceive.eq_1 k m s) hp ?_
  obtain ⟨sop, kind, header, objs, needs⟩ := m
  dsimp only at hkind hsop hnew
  subst hkind hsop
  have hatt' : (s.begin.chn k).attached = true := hatt
  have hrom' : s.begin.romNow = false := hrom
  have hrep : (s.begin.chn k).repeated ⟨1, .other, header, objs, needs⟩ = false := by
    simp only [CcSt.repeated, Bool.and_eq_false_iff]
    exact .inr (beq_eq_false_iff_ne.mpr hnew)
  have hk : k < s.begin.cc.length := by show k < s.cc.length; omega
  dsimp only
  rw [if_neg (by simp [hatt', hrom']; omega), if_neg (by decide), if_neg (by simp [hrep]), State.dropQueued_none (by exact hq),
    State.restRp_rests ?_]
  · unfold State.queueMsg
    rw [State.chn_setChn (by exact hk), if_neg (by exact not_le.mpr hroom)]
    refine ⟨(State.hush_raise ..).trans rfl, ?_, heard_raise_mbx rfl rfl rfl⟩
    rw [State.raise_out]
    exact .head _
  · rw [State.chn_setChn (by exact hk)]
    exact .inl hsrc

end Received

/-! ### What the channels' timers do (R413, R414, R416, R417) -/

theorem goodcrcTimeout_resends (o : PdOut) (hsent : (s.chn k).sent = some o) (hres : o.resends < 2) (hdue : s.ccDue k .goodCrc = true) :
    Says (.goodcrcTimeout k) s
      ((s.setChn k fun c => { c with sent := some { o with resends := o.resends + 1 } }).ccStart k .goodCrc (msTicks 1))
      [.pd k o.sop o.kind ((nth (s.chn k).txIds o.sop 0 + 7) % 8) o.objs] := by
  refine gives_of_runIf (execGoodcrcTimeout.eq_1 k s) hp ?_
  have hsent' : (s.begin.chn k).sent = some o := hsent
  have hdue' : s.begin.ccDue k .goodCrc = true := hdue
  rw [hsent']
  dsimp only
  rw [if_neg (by simp [hdue']), if_pos hres]
  exact ⟨rfl, rfl⟩

theorem goodcrcTimeout_early (hdue : s.ccDue k .goodCrc = false) : Leaves (.goodcrcTimeout k) s s := by
  refine gives_of_runIf (execGoodcrcTimeout.eq_1 k s) hp ?_
  have hdue' : s.begin.ccDue k .goodCrc = false := hdue
  split
  · exact s.hush_begin
  · rw [if_pos (by simp [hdue'])]
    exact s.hush_begin

theorem queuedResponseTimeout_answers (hdue : (s.chn k).queue.any (fun q => q.needs && s.passed q.tick (msTicks 10)) = true)
    (hrom : s.romNow = false) (hsent : (s.chn k).sent = none) (hk : k < s.cc.length) :
    Says (.queuedResponseTimeout k) s
      ((s.setChn k fun c => { c with
        queue := c.queue.map fun q => if q.needs && s.passed q.tick (msTicks 10) then { q with needs := false } else q }).onWire k
          .notSupported [] .none)
      [.pd k 0 .notSupported (nth (s.chn k).txIds 0 0) []] := by
  refine gives_of_runIf (execQueuedResponseTimeout.eq_1 k s) hp ?_
  dsimp only
  rw [if_pos (by exact hdue)]
  refine State.pdSend_says (l := []) (by exact hrom) ?_ ?_ rfl rfl ..
  · rw [State.chn_setChn (by exact hk)]
    exact hsent
  · rw [State.chn_setChn (by exact hk)]
    rfl

theorem queuedResponseTimeout_early (hdue : (s.chn k).queue.any (fun q => q.needs && s.passed q.tick (msTicks 10)) = false) :
    Leaves (.queuedResponseTimeout k) s s := by
  refine gives_of_runIf (execQueuedResponseTimeout.eq_1 k s) hp ?_
  dsimp only
  rw [if_neg (Bool.eq_false_iff.mp (by exact hdue))]
  exact s.hush_begin

theorem sinkTxExpiry_sends (o : PdOut) (hq : (s.chn k).queued = some o) (hwhat : o.what = .none) (hsop : o.sop = 0) (hrom : s.romNow = false)
    (hsent : (s.chn k).sent = none) (hdue : s.ccDue k .sinkTx = true) (hk : k < s.cc.length) :
    Says (.sinkTxExpiry k) s (((s.setChn k fun c => { c with queued := none }).ccStop k .sinkTx).onWire k o.kind o.objs .none)
      [.pd k 0 o.kind (nth (s.chn k).txIds 0 0) o.objs] := by
  refine gives_of_runIf (execSinkTxExpiry.eq_1 k s) hp ?_
  rw [if_pos (by exact hdue)]
  unfold State.sendQueued
  rw [show (s.begin.chn k).queued = some o from hq]
  dsimp only
  rw [hwhat, hsop]
  refine State.pdSend_says (l := []) (by exact hrom) ?_ ?_ rfl rfl ..
  · rw [State.chn_setStop (by exact hk)]
    exact hsent
  · rw [State.chn_setStop (by exact hk)]
    rfl

theorem sinkTxExpiry_early (hdue : s.ccDue k .sinkTx = false) : Leaves (.sinkTxExpiry k) s s := by
  refine gives_of_runIf (execSinkTxExpiry.eq_1 k s) hp ?_
  rw [if_neg (Bool.eq_false_iff.mp (by exact hdue))]
  exact s.hush_begin

theorem askTimeout_rejects (hask : (s.chn k).asked = some 2) (hlc : s.lcSilent = true) (hrom : s.romNow = false) (hsent : (s.chn k).sent = none)
    (hk : k < s.cc.length) :
    Says (.askTimeout k) s (((s.setChn k fun c => { c with asked := none }).ccStop k .ask).onWire k .reject [] .none)
      [.pd k 0 .reject (nth (s.chn k).txIds 0 0) []] := by
  refine gives_of_runIf (execAskTimeout.eq_1 k s) hp ?_
  have hlc' : s.begin.lcSilent = true := hlc
  rw [if_neg (by simp [hlc']), show (s.begin.chn k).asked = some 2 from hask]
  show (s.begin.answerSwap k 1 (if s.begin.lcSilent then 0 else 2)).hush = _ ∧ (s.begin.answerSwap k 1 (if s.begin.lcSilent then 0 else 2)).out = _
  unfold State.answerSwap
  dsimp only
  rw [hlc', if_pos (rfl : true = true), if_neg (by decide : ¬ ((0 : Nat) == 1) = true), if_neg (by decide : ¬ ((0 : Nat) == 2) = true)]
  refine State.pdSend_says (l := []) (by exact hrom) ?_ ?_ rfl rfl ..
  · rw [State.chn_setStop (by exact hk)]
    exact hsent
  · rw [State.chn_setStop (by exact hk)]
    rfl

theorem askTimeout_early (hdue : s.ccDue k .ask = false) (hlc : s.lcSilent = false) : Leaves (.askTimeout k) s s := by
  refine gives_of_runIf (execAskTimeout.eq_1 k s) hp ?_
  have hlc' : s.begin.lcSilent = false := hlc
  have hdue' : s.begin.ccDue k .ask = false := hdue
  rw [if_pos (by simp [hlc', hdue'])]
  exact s.hush_begin

theorem srcTransitionExpiry_turnsOn (hswap : (s.chn k).swap = none) (hsrc : (s.chn k).src = true) (hmov : (s.chn k).moving = true)
    (hv : (s.vsw k).state ≠ 3) (hdue : s.ccDue k .srcTransition = true) :
    Leaves (.srcTransitionExpiry k) s ((s.ccStop k .srcTransition).setVsw k fun v => { v with
      state := 1, rail := (s.railFor k (s.chn k).nextMv).getD 0, target := (s.chn k).nextMv, settled := false
      bleed := decide ((s.chn k).nextMv < (s.vsw k).mv) }) := by
  refine gives_of_runIf (execSrcTransitionExpiry.eq_1 k s) hp ?_
  have hsrc' : (s.begin.chn k).src = true := hsrc
  have hmov' : (s.begin.chn k).moving = true := hmov
  have hdue' : s.begin.ccDue k .srcTransition = true := hdue
  dsimp only
  rw [if_neg (by simp [hdue']), show (s.begin.chn k).swap = none from hswap]
  dsimp only
  rw [if_pos (by simp [hsrc', hmov'])]
  unfold State.vbusOn
  rw [if_neg (by exact fun h => hv (beq_iff_eq.mp h))]
  rfl

theorem srcTransitionExpiry_early (hdue : s.ccDue k .srcTransition = false) : Leaves (.srcTransitionExpiry k) s s := by
  refine gives_of_runIf (execSrcTransitionExpiry.eq_1 k s) hp ?_
  have hdue' : s.begin.ccDue k .srcTransition = false := hdue
  dsimp only
  rw [if_pos (by simp [hdue'])]
  exact s.hush_begin

theorem snkRequestWaitExpiry_requests (p : Word) (l : List Word) (hst : (s.chn k).state = 5) (hwait : (s.chn k).waiting = .none)
    (hmov : (s.chn k).moving = false) (hcaps : (s.chn k).farCaps = p :: l) (hrom : s.romNow = false) (hsent : (s.chn k).sent = none)
    (hruns : (s.chn k).runs .snkRequestWait = true) (hdue : s.ccDue k .snkRequestWait = true ∨ s.lcSilent = true) (hk : k < s.cc.length) :
    let ma := min (pdoMa p) (s.cv Fld.DEFAULT_SNK_MA)
    Says (.snkRequestWaitExpiry k) s
      (((s.setChn k fun c => { c with nextMv := pdoMv p, nextMa := ma, waiting := .request }).ccStop k .snkRequestWait).onWire k .request
        [mkRdo 1 ma] .request)
      [.pd k 0 .request (nth (s.chn k).txIds 0 0) [mkRdo 1 ma]] := by
  intro ma
  refine gives_of_runIf (execSnkRequestWaitExpiry.eq_1 k s) hp ?_
  have hst' : (s.begin.chn k).state = 5 := hst
  have hwait' : (s.begin.chn k).waiting = .none := hwait
  have hmov' : (s.begin.chn k).moving = false := hmov
  have hruns' : (s.begin.chn k).runs .snkRequestWait = true := hruns
  have hdue' : (s.begin.ccDue k .snkRequestWait || s.begin.lcSilent) = true := (Bool.or_eq_true ..).mpr hdue
  dsimp only
  rw [if_pos (by rw [hst', hwait', hmov', hruns', hdue']; rfl)]
  unfold State.defaultRequest
  rw [show (s.begin.chn k).farCaps = p :: l from hcaps]
  dsimp only
  refine State.pdSend_says (l := []) (by exact hrom) ?_ ?_ rfl rfl ..
  · rw [State.chn_setStop (by exact hk)]
    exact hsent
  · rw [State.chn_setStop (by exact hk)]
    rfl

theorem snkRequestWaitExpiry_early (hdue : s.ccDue k .snkRequestWait = false) (hlc : s.lcSilent = false) :
    Leaves (.snkRequestWaitExpiry k) s s := by
  refine gives_of_runIf (execSnkRequestWaitExpiry.eq_1 k s) hp ?_
  have hdue' : (s.begin.ccDue k .snkRequestWait || s.begin.lcSilent) = false := Bool.or_eq_false_iff.mpr ⟨hdue, hlc⟩
  dsimp only
  rw [hdue', Bool.and_false, if_neg Bool.false_ne_true]
  exact s.hush_begin

theorem errorRecoveryEnd_says (hst : (s.chn k).state = 6) (hrole : s.ccRole k = 1) (hdue : s.ccDue k .errorRecovery = true) (hk : k < s.cc.length) :
    Says (.errorRecoveryEnd k) s (s.setChn k fun c => { c with
      state := 1, drpSrc := false, src := false, vconnSrc := false, vconnFault := false, timers := [] })
      [.ccPins k 1 (s.chn k).rp (s.chn k).vconnOn] := by
  refine gives_of_runIf (execErrorRecoveryEnd.eq_1 k s) hp ?_
  have hst' : (s.begin.chn k).state = 6 := hst
  have hdue' : s.begin.ccDue k .errorRecovery = true := hdue
  rw [if_pos (by rw [hst', hdue']; rfl), show s.begin.ccRole k = 1 from hrole]
  refine ⟨rfl, ?_⟩
  unfold State.showPins
  rw [State.chn_setChn (by exact hk)]
  rfl

theorem errorRecoveryEnd_early (hdue : s.ccDue k .errorRecovery = false) : Leaves (.errorRecoveryEnd k) s s := by
  refine gives_of_runIf (execErrorRecoveryEnd.eq_1 k s) hp ?_
  rw [show s.begin.ccDue k .errorRecovery = false from hdue, Bool.and_false, if_neg Bool.false_ne_true]
  exact s.hush_begin

theorem vconnOvercurrent_gives (hon : (s.chn k).vconnOn = true) :
    Gives (.vconnOvercurrent k) s fun t =>
      t.hush = (s.setChn k fun c => { c with vconnOn := false, vconnFault := true }).hush ∧ Heard 1 s t 154 k := by
  refine gives_of_runIf (execVconnOvercurrent.eq_1 k s) hp ?_
  rw [if_pos (by exact hon)]
  exact ⟨(State.hush_raise ..).trans rfl, heard_raise_mbx rfl rfl rfl⟩

end Wire

end Sys2Proof.Machine

/-! Configuration channels: attach, detach, Hard Reset, EPR and modes, and with them the channels' statement. -/
namespace Sys2Proof.Machine

/-! ### What a channel has agreed, apart from what its wire, pins and timers show -/

/-- A channel without its Rp and VCONN, its timers, its contribution and the message on its wire. -/
def CcSt.deal (c : CcSt) : CcSt := { c with rp := 0, vconnOn := false, timers := [], contrib := 0, sent := none, outq := [], txIds := [] }

def State.deal (s : State) (k : Nat) : CcSt := (s.chn k).deal

namespace State
variable {s : State} {k : Nat}

theorem deal_of_cc {t : State} (h : t.cc = s.cc) (k : Nat) : t.deal k = s.deal k := by rw [deal, chn, h]; rfl

theorem deal_setChn_same (s : State) (j k : Nat) {f : CcSt → CcSt} (h : ∀ c, (f c).deal = c.deal) : (s.setChn j f).deal k = s.deal k :=
  chn_setChn_congr CcSt.deal f h s j k

theorem deal_setChn (hk : k < s.cc.length) (f : CcSt → CcSt) : (s.setChn k f).deal k = (f (s.chn k)).deal :=
  congrArg CcSt.deal (chn_setChn hk f)

@[simp] theorem deal_emit (s : State) (e : Emit) (k : Nat) : (s.emit e).deal k = s.deal k := rfl

@[simp] theorem deal_raise (s : State) (n a k : Nat) : (s.raise n a).deal k = s.deal k := deal_of_cc (raise_cc ..) k

@[simp] theorem deal_raiseIf (s : State) (b : Bool) (n a k : Nat) : (s.raiseIf b n a).deal k = s.deal k := by
  unfold raiseIf
  split_ifs
  · exact deal_raise ..
  · rfl

@[simp] theorem deal_ccStart (s : State) (j : Nat) (t : CcTimer) (n k : Nat) : (s.ccStart j t n).deal k = s.deal k :=
  deal_setChn_same s j k fun _ => rfl

@[simp] theorem deal_ccStop (s : State) (j : Nat) (t : CcTimer) (k : Nat) : (s.ccStop j t).deal k = s.deal k :=
  deal_setChn_same s j k fun _ => rfl

@[simp] theorem deal_showPins (s : State) (j k : Nat) : (s.showPins j).deal k = s.deal k := rfl

@[simp] theorem deal_vconn (s : State) (j k : Nat) : (s.vconn j).deal k = s.deal k := deal_setChn_same s j k fun _ => rfl

@[simp] theorem deal_restRp (s : State) (j k : Nat) : (s.restRp j).deal k = s.deal k := by
  unfold restRp
  dsimp only
  split_ifs
  · exact deal_setChn_same s j k fun _ => rfl
  · rfl

@[simp] theorem deal_vbusOff (s : State) (j k : Nat) : (s.vbusOff j).deal k = s.deal k := by
  obtain ⟨o, ho⟩ := s.vbusOff_eq j
  rw [ho]
  rfl

@[simp] theorem deal_vbusOn (s : State) (j mv k : Nat) : (s.vbusOn j mv).deal k = s.deal k := by
  unfold vbusOn
  dsimp only
  split
  · rfl
  · rfl

@[simp] theorem deal_vbusSink (s : State) (j k : Nat) : (s.vbusSink j).deal k = s.deal k := rfl

@[simp] theorem deal_recoverWait (s : State) (j k : Nat) : (s.recoverWait j).deal k = s.deal k := by
  unfold recoverWait
  split_ifs
  · exact deal_ccStart ..
  · rfl

@[simp] theorem deal_pdOut (s : State) (j : Nat) (o : PdOut) (k : Nat) : (s.pdOut j o).deal k = s.deal k := by
  unfold pdOut
  rw [deal_emit, deal_ccStart]
  exact deal_setChn_same s j k fun _ => rfl

@[simp] theorem deal_pdSend (s : State) (j : Nat) (kind : PdKind) (objs : List Word) (what : PdFor) (sop k : Nat) :
    (s.pdSend j kind objs what sop).deal k = s.deal k := by
  unfold pdSend
  dsimp only
  split_ifs
  · rfl
  · exact deal_setChn_same s j k fun _ => rfl
  · exact deal_pdOut ..

@[simp] theorem deal_sendCaps (s : State) (j k : Nat) : (s.sendCaps j).deal k = s.deal k := deal_pdSend ..

theorem cc_vbusOn (s : State) (k mv : Nat) : (s.vbusOn k mv).cc = s.cc := by
  unfold vbusOn
  dsimp only
  split
  · rfl
  · rfl

theorem cc_feedsLapse (s : State) : s.feedsLapse.cc = s.cc := by
  unfold feedsLapse
  have hstep : ∀ (u : State) n, (if (u.feed n).present && !u.feedCan n then u.feedGone n (u.feed n).mv else u).cc = u.cc := fun u n => by
    split_ifs
    · exact raise_cc ..
    · rfl
  exact (hstep _ 1).trans (hstep _ 0)

theorem vbus_feedsLapse (s : State) : s.feedsLapse.ppath.vbus = s.ppath.vbus := by
  unfold feedsLapse
  have hstep : ∀ (u : State) n, (if (u.feed n).present && !u.feedCan n then u.feedGone n (u.feed n).mv else u).ppath.vbus = u.ppath.vbus :=
    fun u n => by
      split_ifs
      · rw [feedGone, raise_ppath]
        rfl
      · rfl
  exact (hstep _ 1).trans (hstep _ 0)

/-- A new budget changes of a channel its contribution alone. -/
theorem chn_budgetPd_congr {γ : Type} (φ : CcSt → γ) (hφ : ∀ c n, φ { c with contrib := n } = φ c) (s : State) (j k : Nat) :
    φ ((s.budgetPd j).chn k) = φ (s.chn k) := by
  unfold budgetPd raiseIf
  have hcc := s.cc_feedsLapse
  generalize s.feedsLapse = u at hcc ⊢
  dsimp only
  rw [chn, apply_ite State.cc, raise_cc, ite_self, chn, ← hcc]
  simp only [nth, List.getD_eq_getElem?_getD, List.getElem?_map]
  cases u.cc[k]? with
  | none => rfl
  | some c => exact hφ ..

@[simp] theorem deal_budgetPd (s : State) (j k : Nat) : (s.budgetPd j).deal k = s.deal k :=
  chn_budgetPd_congr CcSt.deal (fun _ _ => rfl) s j k

theorem vsw_budgetPd (s : State) (j k : Nat) : (s.budgetPd j).vsw k = s.vsw k := by
  unfold budgetPd raiseIf
  have hv := s.vbus_feedsLapse
  generalize s.feedsLapse = u at hv ⊢
  dsimp only
  rw [vsw, apply_ite State.ppath, raise_ppath, ite_self, vsw, ← hv]

theorem cc_vbusOff (s : State) (k : Nat) : (s.vbusOff k).cc = s.cc := by
  obtain ⟨o, ho⟩ := s.vbusOff_eq k
  rw [ho]
  rfl

theorem mbx_vbusOff (s : State) (k : Nat) : (s.vbusOff k).mbx = s.mbx := by
  obtain ⟨o, ho⟩ := s.vbusOff_eq k
  rw [ho]
  rfl

theorem time_vbusOff (s : State) (k : Nat) : (s.vbusOff k).time = s.time := by
  obtain ⟨o, ho⟩ := s.vbusOff_eq k
  rw [ho]
  rfl

theorem vbusOff_wants (s : State) (k : Nat) : ((s.vbusOff k).vsw k).wants = none := by
  obtain ⟨o, ho⟩ := s.vbusOff_eq k
  rw [ho]
  show (nth (s.ppath.vbus.modify k _) k VbusSt.init).wants = none
  simp only [nth, List.getD_eq_getElem?_getD, List.getElem?_modify_eq]
  cases s.ppath.vbus[k]? with
  | none => rfl
  | some v => rfl

theorem deal_setContract (hk : k < s.cc.length) (kind mv ma : Nat) : (s.setContract k kind mv ma).deal k =
    { s.deal k with contract := kind, mv := mv, ma := ma, moving := false, hadContract := (s.deal k).hadContract || 2 ≤ kind } := by
  unfold setContract
  rw [deal_budgetPd, deal_raiseIf, deal_setChn hk]
  rfl

/-! ### Hard Reset (R418, R424) and EPR (R419) -/

theorem leaveEpr_left (hk : k < s.cc.length) : ((s.leaveEpr k).deal k).epr = false := by
  unfold leaveEpr
  split_ifs with h
  · rw [deal_raise, deal_ccStop, deal_ccStop, deal_setChn hk]
    rfl
  · exact Bool.eq_false_iff.mpr h

theorem resetChannel_deal (hk : k < s.cc.length) : ((s.resetChannel k).deal k).contract = 1 ∧ ((s.resetChannel k).deal k).moving = false
    ∧ ((s.resetChannel k).deal k).epr = false := by
  have hset : s.Settles k (((s.dropAms k).quietMux k).leaveEpr k) :=
    .next (.leaveEpr ..) (.next (.quietMux ..) (.dropAms ..))
  have hlen : k < (((s.dropAms k).quietMux k).leaveEpr k).cc.length := hk.trans_eq hset.length.symm
  have hepr := leaveEpr_left (s := (s.dropAms k).quietMux k) (k := k) (by
    rw [(Settles.next (k := k) (.quietMux (s.dropAms k) k) (.dropAms s k)).length]
    exact hk)
  unfold resetChannel
  generalize ((s.dropAms k).quietMux k).leaveEpr k = u at hlen hepr ⊢
  have htail : ∀ (b : Bool) (w : State),
      (if b then (w.vbusOff k).recoverWait k else w.ccStart k .srcRecover (msTicks 1925)).deal k = w.deal k := fun b w => by
    cases b <;> simp
  dsimp only
  rw [htail, deal_vconn, deal_restRp, deal_setContract (hlen.trans_eq (List.length_modify ..).symm), deal_setChn hlen]
  exact ⟨rfl, rfl, hepr⟩

theorem errorRecovery_epr (hk : k < s.cc.length) (cause : Nat) : ((s.errorRecovery k cause).deal k).epr = false := by
  unfold errorRecovery
  dsimp only
  rw [deal_budgetPd, deal_raise]
  refine leaveEpr_left ?_
  rw [(Settles.quietMux (k := k) _ k).length, (Settles.showPins (k := k) _ k).length, (Settles.vbusOff (k := k) _ k).length,
    (Settles.ccStart (k := k) _ k _ _).length, (Settles.ccStop (k := k) _ k _).length]
  exact hk.trans_eq ((List.length_modify ..).trans (Settles.dropAms (k := k) s k).length).symm

theorem hardResetSent_cc_length (s : State) (k : Nat) (own : Bool) : (s.hardResetSent k own).cc.length = s.cc.length := by
  rw [hardResetSent, raise_cc]
  cases own <;> exact List.length_modify ..

theorem hardReset_holds (s : State) (k : Nat) (own : Bool) : s.Holds (s.hardReset k own) := by
  refine Holds.trans ?_ (s.hardReset_settles k own).holds
  unfold hardResetSent
  cases own <;> exact Holds.next (.raise ..) (.of_mbx rfl)

theorem hardReset_epr (hk : k < s.cc.length) (own : Bool) : ((s.hardReset k own).deal k).epr = false := by
  obtain ⟨w, hset, hcase⟩ := s.hardReset_cases k own
  have hk' : k < w.cc.length := by rw [hset.length, s.hardResetSent_cc_length]; exact hk
  obtain h | h | h := hcase
  · rw [h]
    exact errorRecovery_epr hk' 0
  · rw [h]
    exact (resetChannel_deal hk').2.2
  · rw [h, deal_showPins, deal_setChn_same _ _ _ (by exact fun _ => rfl)]
    exact (resetChannel_deal hk').2.2

/-- A Hard Reset outside a swap is the reset of the channel (R418). -/
theorem hardReset_of_no_swap (h : (s.chn k).swap = none) (own : Bool) : s.hardReset k own = (s.hardResetSent k own).resetChannel k := by
  unfold hardReset hardResetSent
  rw [h]
  rfl

/-! ### Attach (R410, R412) -/

theorem Settles.vbusSink (s : State) (j : Nat) : s.Settles k (s.vbusSink j) := .of_eq rfl rfl (.of_mbx rfl)

/-- A channel attached as a sink has what Type-C gives. -/
theorem attach_sink (hk : k < s.cc.length) (pinB5 ra : Bool) (far : Nat) :
    let d := (s.attach k false pinB5 ra far).deal k
    d.state = 5 ∧ d.src = false ∧ d.dfp = false ∧ d.contract = 1 ∧ d.mv = 5000 ∧ d.ma = rpMa far 500 ∧ d.pinB5 = pinB5 := by
  dsimp only
  unfold attach
  dsimp only
  rw [if_neg Bool.false_ne_true, deal_setContract, deal_vbusSink, deal_raise, deal_vconn, deal_ccStop, deal_setChn hk]
  · exact ⟨rfl, rfl, rfl, rfl, rfl, rfl, rfl⟩
  · rw [(Settles.vbusSink (k := k) _ k).length, raise_cc, (Settles.vconn (k := k) _ k).length, (Settles.ccStop (k := k) _ k _).length]
    exact hk.trans_eq (List.length_modify ..).symm

theorem attach_heard (s : State) (k : Nat) (pinB5 ra : Bool) (far : Nat) :
    Heard 1 s (s.attach k false pinB5 ra far) 144 (k + 8 + 32 * b2n pinB5) := by
  unfold attach
  dsimp only
  rw [if_neg Bool.false_ne_true]
  refine Heard.holds ?_ (Settles.trans (k := k) (.vbusSink _ k) (.setContract ..)).holds
  exact heard_raise_mbx rfl rfl rfl

/-! ### Detach (R410) -/

/-- The channel after what waits on it is dropped, where nothing waits. -/
def dropped (s : State) (k : Nat) : State :=
  (s.setChn k fun c => { c with entering := none }).setChn k fun c => { c with
    queued := none, sent := none, outq := [], waiting := .none, asked := none, moving := false
    timers := c.timers.filter fun x => x.1 == .eprKeepalive || x.1 == .eprTimeout || x.1 == .drp }

theorem dropAms_idle (hq : (s.chn k).queued = none) (hsent : (s.chn k).sent = none) (hout : (s.chn k).outq = [])
    (hreq : (s.chn k).reqJob = none) (hent : (s.chn k).entering = none) : s.dropAms k = s.dropped k := by
  unfold dropAms requestDone
  dsimp only
  rw [hq, hsent, hout]
  dsimp only [Option.toList_none, List.nil_append, List.foldl_nil]
  rw [hreq]
  dsimp only
  unfold modeDone
  rw [hent]
  rfl

/-- A source without a transaction in progress is detached: with no message, its VBUS off and EV144 raised. -/
theorem detach_idle (hk : k < s.cc.length) (h2 : 2 ≤ k) (hq : (s.chn k).queued = none) (hsent : (s.chn k).sent = none)
    (hout : (s.chn k).outq = []) (hreq : (s.chn k).reqJob = none) (hent : (s.chn k).entering = none) (hepr : (s.chn k).epr = false)
    (hswap : (s.chn k).swap = none) (hhub : s.isUsbHub = false) :
    ((s.detach k).chn k).state = 1 ∧ ((s.detach k).chn k).contract = 0 ∧ ((s.detach k).chn k).mv = 0 ∧ ((s.detach k).chn k).vconnOn = false
      ∧ ((s.detach k).vsw k).wants = none
      ∧ Heard 1 s (s.detach k) 144 (k + 16 * b2n (s.chn k).src + 32 * b2n (s.chn k).pinB5) := by
  have hdrop : k < (s.setChn k fun c => { c with entering := none }).cc.length := hk.trans_eq (List.length_modify ..).symm
  have hlen : k < (s.dropped k).cc.length := hdrop.trans_eq (List.length_modify ..).symm
  have hleft : (s.dropped k).leaveEpr k = s.dropped k := by
    unfold leaveEpr dropped
    rw [chn_setChn hdrop, chn_setChn hk, if_neg (by simp [hepr])]
  unfold detach
  dsimp only
  rw [dropAms_idle hq hsent hout hreq hent, hleft, hswap]
  dsimp only
  obtain ⟨u, hu⟩ : ∃ u, u = (s.dropped k).setChn k fun c => { c with
      state := 1, contract := 0, mv := 0, ma := 0, moving := false, vconnOn := false, vconnSrc := false, pd := false, recovering := false,
      drpSrc := true, timers := [] } := ⟨_, rfl⟩
  have hchn : u.chn k = _ := (congrArg (·.chn k) hu).trans (chn_setChn hlen _)
  have hhub' : (u.vbusOff k).isUsbHub = false := by
    obtain ⟨o, ho⟩ := u.vbusOff_eq k
    rw [ho, hu]
    exact hhub
  have hwants := u.vbusOff_wants k
  have hcc := u.cc_vbusOff k
  have hmbx : (u.vbusOff k).mbx = s.mbx := (mbx_vbusOff ..).trans ((congrArg State.mbx hu).trans rfl)
  have htime : (u.vbusOff k).time = s.time := (time_vbusOff ..).trans ((congrArg State.time hu).trans rfl)
  rw [← hu]
  generalize u.vbusOff k = v at hhub' hwants hcc hmbx htime ⊢
  have hv : v.chn k = u.chn k := by rw [chn, hcc]; rfl
  have hquiet : (v.showPins k).quietMux k = v.showPins k := if_neg (by simp; omega)
  rw [hquiet, if_neg (by rw [show (v.showPins k).isUsbHub = false from hhub', Bool.and_false]; exact Bool.false_ne_true)]
  have hraise : ∀ n a, ((v.showPins k).raise n a).chn k = u.chn k := fun n a => by rw [chn, raise_cc]; exact hv
  refine ⟨?_, ?_, ?_, ?_, ?_, ?_⟩
  · rw [chn_budgetPd_congr CcSt.state (fun _ _ => rfl), hraise, hchn]
  · rw [chn_budgetPd_congr CcSt.contract (fun _ _ => rfl), hraise, hchn]
  · rw [chn_budgetPd_congr CcSt.mv (fun _ _ => rfl), hraise, hchn]
  · rw [chn_budgetPd_congr CcSt.vconnOn (fun _ _ => rfl), hraise, hchn]
  · rw [vsw_budgetPd, vsw, raise_ppath]
    exact hwants
  · refine Heard.holds ?_ (Settles.budgetPd (k := k) _ k).holds
    exact heard_raise_mbx (congrArg (·.tick) htime) (congrArg (·.slot) htime) hmbx

/-- What a source has agreed once its VBUS is on again after a Hard Reset (R418). -/
theorem offersAnew {u : State} (hk : k < ((u.vbusOn k 5000).vconn k).cc.length) (ma : Nat) :
    let t := (((u.vbusOn k 5000).vconn k).setContract k 1 5000 ma).sendCaps k
    (t.deal k).recovering = (u.deal k).recovering ∧ (t.deal k).contract = 1 ∧ (t.deal k).mv = 5000 ∧ (t.deal k).ma = ma := by
  dsimp only
  rw [deal_sendCaps, deal_setContract hk, deal_vconn, deal_vbusOn]
  exact ⟨rfl, rfl, rfl, rfl⟩

end State

section Channels
variable {s : State} {k : Nat} (hp : s.pwrLive = true)
include hp

/-! ### Attach and detach (R410, R412) -/

theorem ccAttach_attaches (far ms : Nat) (h1 : k ≤ 1) (hst : (s.chn k).state = 1) (hrole : s.ccRole k ≠ 0) (hfar : far ≤ 2)
    (hms : s.cv Fld.CC_DEBOUNCE_MS ≤ ms) (hk : k < s.cc.length) :
    Gives (.ccAttach k 0 (3 + far) ms true) s fun t => (t.chn k).state = 5 ∧ (t.chn k).src = false ∧ (t.chn k).dfp = false
      ∧ (t.chn k).contract = 1 ∧ (t.chn k).mv = 5000 ∧ (t.chn k).ma = rpMa far 500 ∧ (t.chn k).pinB5 = true
      ∧ Heard 1 s t 144 (k + 8 + 32) := by
  refine gives_of_runIf (execCcAttach.eq_1 k 0 (3 + far) ms true s) hp ?_
  have hst' : (s.begin.chn k).state = 1 := hst
  have hatt : (s.begin.chn k).attached = false := by rw [CcSt.attached, hst']; rfl
  have hrole' : s.begin.ccRole k ≠ 0 := hrole
  have hms' : s.begin.cv Fld.CC_DEBOUNCE_MS ≤ ms := hms
  have hsees : ccSees 0 (3 + far) = some (false, true, false, far) := by
    unfold ccSees
    rw [if_neg (by simp), if_neg (by simp; omega), if_neg (by simp), if_pos (by simp)]
    simp [hfar]
  dsimp only
  rw [hst', hsees, if_neg (by simp; omega)]
  dsimp only
  rw [hatt, if_neg Bool.false_ne_true, if_neg (by simp [hrole']), if_neg (by simpa using hms')]
  obtain ⟨hstate, hsrc, hdfp, hcon, hmv, hma, hpin⟩ := State.attach_sink (s := s.begin) hk true false far
  have hheard : Heard 1 s (s.begin.attach k false true false far) 144 (k + 8 + 32) := s.begin.attach_heard k true false far
  generalize s.begin.attach k false true false far = t at *
  exact ⟨hstate, hsrc, hdfp, hcon, hmv, hma, hpin, hheard⟩

theorem ccDetach_detaches (ms : Nat) (vb : Bool) (h2 : 2 ≤ k) (h5 : k ≤ 5) (hst : (s.chn k).state = 4) (hsrc : (s.chn k).src = true)
    (hq : (s.chn k).queued = none) (hsent : (s.chn k).sent = none) (hout : (s.chn k).outq = []) (hreq : (s.chn k).reqJob = none)
    (hent : (s.chn k).entering = none) (hepr : (s.chn k).epr = false) (hswap : (s.chn k).swap = none) (hhub : s.isUsbHub = false)
    (hms : s.cv Fld.PD_DEBOUNCE_MS ≤ ms) (hk : k < s.cc.length) :
    Gives (.ccDetach k ms vb) s fun t => (t.chn k).state = 1 ∧ (t.chn k).contract = 0 ∧ (t.chn k).mv = 0 ∧ (t.chn k).vconnOn = false
      ∧ (t.vsw k).wants = none ∧ Heard 1 s t 144 (k + 16 + 32 * b2n (s.chn k).pinB5) := by
  refine gives_of_runIf (execCcDetach.eq_1 k ms vb s) hp ?_
  have hst' : (s.begin.chn k).state = 4 := hst
  have hatt : (s.begin.chn k).attached = true := by rw [CcSt.attached, hst']; rfl
  have hdet := State.detach_idle (s := s.begin) hk h2 hq hsent hout hreq hent hepr hswap hhub
  rw [show (s.begin.chn k).src = true from hsrc] at hdet
  dsimp only
  rw [if_neg (by omega), if_neg (by simp [hst']), if_neg]
  · exact hdet
  · rw [hatt, Bool.not_true, Bool.false_or, Bool.not_eq_true', decide_eq_false_iff_not, if_pos (by exact hsrc)]
    exact not_not.mpr hms

/-! ### Hard Reset, EPR and modes (R417 to R419, R424, R427) -/

theorem pdTransitionTimeout_resets (hst : (s.chn k).state = 5) (hsrc : (s.chn k).src = false) (hswap : (s.chn k).swap = none)
    (hmov : (s.chn k).moving = true) (hdue : s.ccDue k .psTransition = true) (hk : k < s.cc.length) :
    Gives (.pdTransitionTimeout k 0) s fun t =>
      Emit.hardReset k 0 ∈ t.out ∧ (t.chn k).hardResets = satAdd 32 (s.chn k).hardResets 1 ∧ (t.chn k).moving = false
      ∧ (t.chn k).contract = 1 ∧ Heard 1 s t 156 k := by
  refine gives_of_runIf (execPdTransitionTimeout.eq_1 k 0 s) hp ?_
  have hst' : (s.begin.chn k).state = 5 := hst
  have hatt : (s.begin.chn k).attached = true := by rw [CcSt.attached, hst']; rfl
  have hsrc' : (s.begin.chn k).src = false := hsrc
  have hmov' : (s.begin.chn k).moving = true := hmov
  have hdue' : s.begin.ccDue k .psTransition = true := hdue
  dsimp only
  rw [show (s.begin.chn k).swap = none from hswap]
  dsimp only
  rw [hatt, hsrc', hmov', hdue', if_pos (by rfl)]
  have hchn : (s.begin.raise 156 (k + 16 * 0)).chn k = s.chn k := by rw [State.chn, State.raise_cc]; rfl
  have hlen : k < (s.begin.raise 156 (k + 16 * 0)).cc.length := by rw [State.raise_cc]; exact hk
  have hheard : Heard 1 s (s.begin.raise 156 (k + 16 * 0)) 156 k := heard_raise_mbx rfl rfl rfl
  generalize s.begin.raise 156 (k + 16 * 0) = u at hchn hlen hheard ⊢
  have hdeal := State.resetChannel_deal (s := u.hardResetSent k true) (k := k) (by rw [u.hardResetSent_cc_length]; exact hlen)
  rw [← State.hardReset_of_no_swap (by rw [hchn, hswap])] at hdeal
  refine ⟨u.hardReset_out k, ?_, hdeal.2.1, hdeal.1, ?_⟩
  · rw [State.hardReset_count hlen, hchn]
  · exact hheard.holds (u.hardReset_holds k true)

theorem pdTransitionTimeout_early (hdue : s.ccDue k .psTransition = false) : Leaves (.pdTransitionTimeout k 0) s s := by
  refine gives_of_runIf (execPdTransitionTimeout.eq_1 k 0 s) hp ?_
  have hdue' : s.begin.ccDue k .psTransition = false := hdue
  dsimp only
  rw [if_neg]
  · exact s.hush_begin
  · rw [hdue']
    cases (s.begin.chn k).swap <;> simp

theorem hardResetReceived_resets (hst : (s.chn k).state = 4 ∨ (s.chn k).state = 5) (hk : k < s.cc.length) :
    Gives (.hardResetReceived k) s fun t => (t.chn k).hardResets = satAdd 32 (s.chn k).hardResets 1
      ∧ Heard 1 s t 149 (k + 16 * swapRow (s.chn k).swap) := by
  refine gives_of_runIf (execHardResetReceived.eq_1 k s) hp ?_
  have hatt : (s.begin.chn k).attached = true := hst.elim CcSt.attached_of_source CcSt.attached_of_sink
  rw [if_pos hatt]
  exact ⟨State.hardReset_count (s := s.begin) hk false, s.begin.hardReset_heard k false⟩

theorem srcRecoverExpiry_recovers (hrec : (s.chn k).recovering = true) (hsrc : (s.chn k).src = true) (hdue : s.ccDue k .srcRecover = true)
    (hk : k < s.cc.length) :
    Gives (.srcRecoverExpiry k) s fun t => (t.chn k).recovering = false ∧ (t.chn k).contract = 1 ∧ (t.chn k).mv = 5000
      ∧ (t.chn k).ma = rpMa (s.chn k).rpBase 900 := by
  refine gives_of_runIf (execSrcRecoverExpiry.eq_1 k s) hp ?_
  have hrec' : (s.begin.chn k).recovering = true := hrec
  have hdue' : s.begin.ccDue k .srcRecover = true := hdue
  dsimp only
  rw [if_pos (by rw [hrec', hdue']; rfl), if_pos (by exact hsrc)]
  obtain ⟨u, hu⟩ : ∃ u, u = (s.begin.setChn k fun c => { c with recovering := false }).ccStop k .srcRecover := ⟨_, rfl⟩
  have hlen : u.cc.length = s.cc.length := by
    rw [hu]
    exact (List.length_modify ..).trans (List.length_modify ..)
  rw [← hu]
  have hvconn : k < ((u.vbusOn k 5000).vconn k).cc.length := by
    rw [(State.Settles.vconn (k := k) _ k).length, State.cc_vbusOn, hlen]
    exact hk
  have hdeal : u.deal k = { s.deal k with recovering := false } := by
    rw [hu, State.deal_ccStop, State.deal_setChn (by exact hk)]
    rfl
  rw [show s.begin.chn k = s.chn k from rfl]
  obtain ⟨hrec', hcon, hmv, hma⟩ := State.offersAnew hvconn (rpMa (s.chn k).rpBase 900)
  generalize (((u.vbusOn k 5000).vconn k).setContract k 1 5000 (rpMa (s.chn k).rpBase 900)).sendCaps k = t at *
  exact ⟨hrec'.trans (congrArg CcSt.recovering hdeal), hcon, hmv, hma⟩

theorem srcRecoverExpiry_early (hdue : s.ccDue k .srcRecover = false) : Leaves (.srcRecoverExpiry k) s s := by
  refine gives_of_runIf (execSrcRecoverExpiry.eq_1 k s) hp ?_
  rw [show s.begin.ccDue k .srcRecover = false from hdue]
  dsimp only
  rw [Bool.and_false, if_neg Bool.false_ne_true]
  exact s.hush_begin

theorem eprKeepaliveTimer_sends (hepr : (s.chn k).epr = true) (hst : (s.chn k).state = 5) (hrom : s.romNow = false)
    (hdue : s.ccDue k .eprKeepalive = true) (hsent : (s.chn k).sent = none) (hk : k < s.cc.length) :
    Says (.eprKeepaliveTimer k) s
      ((s.ccStart k .eprKeepalive (msTicks (s.cv Fld.EPR_KEEPALIVE_MS))).onWire k .eprKeepAlive [] .none)
      [.pd k 0 .eprKeepAlive (nth (s.chn k).txIds 0 0) []] := by
  refine gives_of_runIf (execEprKeepaliveTimer.eq_1 k s) hp ?_
  have hepr' : (s.begin.chn k).epr = true := hepr
  have hst' : (s.begin.chn k).state = 5 := hst
  have hdue' : s.begin.ccDue k .eprKeepalive = true := hdue
  rw [if_pos (by rw [hepr', hst', hdue']; rfl)]
  refine State.pdSend_says (l := []) (by exact hrom) ?_ ?_ rfl rfl ..
  · rw [State.ccStart, State.chn_setChn (by exact hk)]
    exact hsent
  · rw [State.ccStart, State.chn_setChn (by exact hk)]
    rfl

theorem eprKeepaliveTimer_early (hdue : s.ccDue k .eprKeepalive = false) : Leaves (.eprKeepaliveTimer k) s s := by
  refine gives_of_runIf (execEprKeepaliveTimer.eq_1 k s) hp ?_
  rw [show s.begin.ccDue k .eprKeepalive = false from hdue, Bool.and_false, if_neg Bool.false_ne_true]
  exact s.hush_begin

theorem eprKeepaliveTimeout_resets (hepr : (s.chn k).epr = true) (hst : (s.chn k).state = 4) (hdue : s.ccDue k .eprTimeout = true)
    (hk : k < s.cc.length) :
    Gives (.eprKeepaliveTimeout k) s fun t => (t.chn k).epr = false ∧ Emit.hardReset k 0 ∈ t.out ∧ Heard 1 s t 156 (k + 48) := by
  refine gives_of_runIf (execEprKeepaliveTimeout.eq_1 k s) hp ?_
  have hepr' : (s.begin.chn k).epr = true := hepr
  have hst' : (s.begin.chn k).state = 4 := hst
  have hdue' : s.begin.ccDue k .eprTimeout = true := hdue
  rw [if_pos (by rw [hepr', hst', hdue']; rfl)]
  have hlen : k < (s.begin.raise 156 (k + 16 * 3)).cc.length := by rw [State.raise_cc]; exact hk
  have hheard : Heard 1 s (s.begin.raise 156 (k + 16 * 3)) 156 (k + 48) := heard_raise_mbx rfl rfl rfl
  exact ⟨State.hardReset_epr hlen true, State.hardReset_out .., hheard.holds (State.hardReset_holds ..)⟩

theorem eprKeepaliveTimeout_early (hdue : s.ccDue k .eprTimeout = false) : Leaves (.eprKeepaliveTimeout k) s s := by
  refine gives_of_runIf (execEprKeepaliveTimeout.eq_1 k s) hp ?_
  rw [show s.begin.ccDue k .eprTimeout = false from hdue, Bool.and_false, if_neg Bool.false_ne_true]
  exact s.hush_begin

theorem senderResponseTimeout_resets (hwait : (s.chn k).waiting = .request) (hdue : s.ccDue k .senderResponse = true) (hk : k < s.cc.length) :
    Gives (.senderResponseTimeout k) s fun t => Emit.hardReset k 0 ∈ t.out ∧ Heard 1 s t 149 (k + 8 + 16 * swapRow (s.chn k).swap) := by
  refine gives_of_runIf (execSenderResponseTimeout.eq_1 k s) hp ?_
  have hchn : (s.begin.ccStop k .senderResponse).chn k = (s.chn k).stop .senderResponse := State.chn_setChn (s := s.begin) hk _
  have hheard := (s.begin.ccStop k .senderResponse).hardReset_heard k true
  rw [hchn] at hheard
  rw [if_neg (by rw [show s.begin.ccDue k .senderResponse = true from hdue]; decide)]
  dsimp only
  rw [hchn, show ((s.chn k).stop .senderResponse).waiting = .request from hwait]
  exact ⟨State.hardReset_out .., hheard⟩

theorem senderResponseTimeout_early (hdue : s.ccDue k .senderResponse = false) : Leaves (.senderResponseTimeout k) s s := by
  refine gives_of_runIf (execSenderResponseTimeout.eq_1 k s) hp ?_
  rw [show s.begin.ccDue k .senderResponse = false from hdue, if_pos (by rfl)]
  exact s.hush_begin

theorem enterModeRetry_retries (mode : Nat) (since : Tick) (job : Option (Via × Nat)) (hent : (s.chn k).entering = some (mode, since, job))
    (hdue : s.ccDue k .enterRetry = true) (hpast : s.passed since (msTicks 2000) = false) (hams : (s.chn k).amsWaits = false)
    (hsent : (s.chn k).sent = none) (hrom : s.romNow = false) (hk : k < s.cc.length) :
    Says (.enterModeRetry k) s
      (((s.ccStop k .enterRetry).setChn k fun c => { c with waiting := .mode }).onWire k (.vdm (modeSvid mode) 4 0) [] .mode)
      [.pd k 0 (.vdm (modeSvid mode) 4 0) (nth (s.chn k).txIds 0 0) []] := by
  refine gives_of_runIf (execEnterModeRetry.eq_1 k s) hp ?_
  have hchn : ((s.begin.ccStop k .enterRetry).setChn k fun c => { c with waiting := .mode }).chn k
      = { (s.chn k).stop .enterRetry with waiting := .mode } := by
    rw [State.ccStop, State.chn_setChn (by exact hk.trans_eq (List.length_modify ..).symm), State.chn_setChn (by exact hk)]
    rfl
  rw [show (s.begin.chn k).entering = some (mode, since, job) from hent]
  dsimp only
  rw [if_neg (by rw [show s.begin.ccDue k .enterRetry = true from hdue]; decide),
    if_neg (Bool.eq_false_iff.mp (by exact hpast))]
  unfold State.sendEnter
  rw [State.startAms_idle (by rw [hchn]; exact hams)]
  refine State.pdSend_says (l := []) (by exact hrom) ?_ ?_ rfl rfl ..
  · rw [hchn]
    exact hsent
  · rw [hchn]
    rfl

theorem enterModeRetry_gives_up (mode : Nat) (since : Tick) (hent : (s.chn k).entering = some (mode, since, none))
    (hdue : s.ccDue k .enterRetry = true) (hpast : s.passed since (msTicks 2000) = true) (hk : k < s.cc.length) :
    Gives (.enterModeRetry k) s fun t => (t.chn k).entering = none ∧ (t.chn k).waiting = .none := by
  refine gives_of_runIf (execEnterModeRetry.eq_1 k s) hp ?_
  have hchn : (s.begin.ccStop k .enterRetry).chn k = (s.chn k).stop .enterRetry := State.chn_setChn (s := s.begin) hk _
  rw [show (s.begin.chn k).entering = some (mode, since, none) from hent]
  dsimp only
  rw [if_neg (by rw [show s.begin.ccDue k .enterRetry = true from hdue]; decide), if_pos (by exact hpast)]
  unfold State.modeDone
  rw [hchn, show ((s.chn k).stop .enterRetry).entering = some (mode, since, none) from hent]
  dsimp only
  have hdeal : ((((s.begin.ccStop k .enterRetry).setChn k fun c => { c with entering := none }).endAms k).deal k)
      = { (s.chn k).deal with entering := none, waiting := .none } := by
    unfold State.endAms
    rw [State.deal_restRp, State.deal_ccStop, State.deal_setChn, State.chn_setChn, hchn]
    · rfl
    · exact hk.trans_eq (List.length_modify ..).symm
    · exact hk.trans_eq ((List.length_modify ..).trans (List.length_modify ..)).symm
  exact ⟨congrArg CcSt.entering hdeal, congrArg CcSt.waiting hdeal⟩

theorem enterModeRetry_early (hdue : s.ccDue k .enterRetry = false) : Leaves (.enterModeRetry k) s s := by
  refine gives_of_runIf (execEnterModeRetry.eq_1 k s) hp ?_
  rw [show s.begin.ccDue k .enterRetry = false from hdue]
  split
  · exact s.hush_begin
  · rw [if_pos (by rfl)]
    exact s.hush_begin

end Channels

/-- Settles O28, clause by clause. -/
theorem cableChannels : Obligations.CableChannels := by
  refine ⟨fun s k hp hl => ?_, fun s k hp hl => ?_⟩
  · have hk : k ≤ 5 → k < s.cc.length := fun h => by omega
    have hin : ∀ {γ : Type} {φ : CcSt → γ} {x : γ}, φ (s.chn k) = x → φ CcSt.init ≠ x → k < s.cc.length := fun h hno =>
      lt_of_nth_ne (d := CcSt.init) fun he => hno ((congrArg _ he).symm.trans h)
    refine ⟨?_, ?_, ?_, ?_, ?_, ?_, ?_, ?_, ?_, ?_, ?_, ?_, ?_, ?_, ?_, ?_, ?_, ?_, ?_, ?_, ?_, ?_, ?_, ?_, ?_⟩
    · exact fun far ms h1 hst hrole hfar hms => ccAttach_attaches hp far ms h1 hst hrole hfar hms (hk (by omega))
    · rintro a _ ms h5 hst rfl
      exact ccAttach_open hp a ms h5 hst
    · exact fun ms vb h2 h5 hst hsrc hq hsent hout hreq hent hepr hswap hhub hms =>
        ccDetach_detaches hp ms vb h2 h5 hst hsrc hq hsent hout hreq hent hepr hswap hhub hms (hk h5)
    · exact fun ms vb hst hsrc hms => ccDetach_held hp ms vb hst hsrc hms
    · exact fun h1 hst hrole hruns => drpToggle_says hp h1 hst hrole hruns hl
    · exact fun h1 hruns hdue => drpToggle_early hp hruns hdue
    · exact fun m h5 hst hrom hkind hsop hq hsrc hrp hbase hsent hepr hnew =>
        pdMessageReceive_getSourceCap hp h5 hrom hst hkind hsop hq hsrc hrp hbase hsent hepr hnew hl
    · exact fun m h5 hatt hrom hkind hsop hq hsrc hroom hnew => pdMessageReceive_queued hp h5 hrom hatt hkind hsop hq hsrc hroom hnew hl
    · exact fun m h5 hatt hrom hack hsoft hsame => pdMessageReceive_repeated hp h5 hrom hatt hack hsoft hsame
    · exact fun m o h5 hatt hrom hack hsent hwhat hq => pdMessageReceive_acked hp h5 hrom o hatt hack hsent hwhat hq (hk h5)
    · exact fun o hsent hres hdue => goodcrcTimeout_resends hp o hsent hres hdue
    · exact goodcrcTimeout_early hp
    · exact fun hdue hrom hsent => queuedResponseTimeout_answers hp hdue hrom hsent
        (hin (φ := fun c => c.queue.any fun q => q.needs && s.passed q.tick (msTicks 10)) hdue (by simp [CcSt.init]))
    · exact queuedResponseTimeout_early hp
    · exact fun o hq hwhat hsop hrom hsent hdue => sinkTxExpiry_sends hp o hq hwhat hsop hrom hsent hdue (hin (φ := CcSt.queued) hq (by simp [CcSt.init]))
    · exact sinkTxExpiry_early hp
    · exact fun hask hlc hrom hsent => askTimeout_rejects hp hask hlc hrom hsent (hin (φ := CcSt.asked) hask (by simp [CcSt.init]))
    · exact askTimeout_early hp
    · exact srcTransitionExpiry_turnsOn hp
    · exact srcTransitionExpiry_early hp
    · exact fun p l hst hwait hmov hcaps hrom hsent hruns hdue =>
        snkRequestWaitExpiry_requests hp p l hst hwait hmov hcaps hrom hsent hruns hdue (hin (φ := CcSt.state) hst (by decide))
    · exact snkRequestWaitExpiry_early hp
    · exact fun hst hrole hdue => errorRecoveryEnd_says hp hst hrole hdue (hin (φ := CcSt.state) hst (by decide))
    · exact errorRecoveryEnd_early hp
    · exact vconnOvercurrent_gives hp
  · have hin : ∀ {γ : Type} {φ : CcSt → γ} {x : γ}, φ (s.chn k) = x → φ CcSt.init ≠ x → k < s.cc.length := fun h hno =>
      lt_of_nth_ne (d := CcSt.init) fun he => hno ((congrArg _ he).symm.trans h)
    refine ⟨?_, ?_, ?_, ?_, ?_, ?_, ?_, ?_, ?_, ?_, ?_, ?_, ?_, ?_⟩
    · exact fun hst hsrc hswap hmov hdue => pdTransitionTimeout_resets hp hst hsrc hswap hmov hdue (hin (φ := CcSt.state) hst (by decide))
    · exact pdTransitionTimeout_early hp
    · exact fun hst => hardResetReceived_resets hp hst (hst.elim (fun h => hin (φ := CcSt.state) h (by decide))
        fun h => hin (φ := CcSt.state) h (by decide))
    · exact fun hrec hsrc hdue => srcRecoverExpiry_recovers hp hrec hsrc hdue (hin (φ := CcSt.recovering) hrec (by decide))
    · exact srcRecoverExpiry_early hp
    · exact fun hepr hst hrom hdue hsent => eprKeepaliveTimer_sends hp hepr hst hrom hdue hsent (hin (φ := CcSt.epr) hepr (by decide))
    · exact eprKeepaliveTimer_early hp
    · exact fun hepr hst hdue => eprKeepaliveTimeout_resets hp hepr hst hdue (hin (φ := CcSt.epr) hepr (by decide))
    · exact eprKeepaliveTimeout_early hp
    · exact fun hwait hdue => senderResponseTimeout_resets hp hwait hdue (hin (φ := CcSt.waiting) hwait (by decide))
    · exact senderResponseTimeout_early hp
    · exact fun mode since job hent hdue hpast hams hsent hrom =>
        enterModeRetry_retries hp mode since job hent hdue hpast hams hsent hrom (hin (φ := CcSt.entering) hent (by simp [CcSt.init]))
    · exact fun mode since hent hdue hpast => enterModeRetry_gives_up hp mode since hent hdue hpast (hin (φ := CcSt.entering) hent (by simp [CcSt.init]))
    · exact enterModeRetry_early hp

end Sys2Proof.Machine

/-! AUX transactions and display control messages (R251 to R254). -/
namespace Sys2Proof.Machine

/-! ### A control message received (R252) -/

/-- The DPX that has noted the number of a control message. -/
def State.noted (s : State) (k q : Nat) : State := s.setDpx k fun d => { d with rxSeen := (q :: d.rxSeen).take 128 }

/-- The acknowledgement of a control message. -/
def State.ctrlAck (s : State) (k q : Nat) : Emit := .control k (s.controlBytes ⟨q, 6, 0, 0, 0, [], s.time.tick, 0⟩)

theorem State.gotControl_fresh {s : State} {k q : Nat} (h : (s.dpx k).rxSeen.contains q = false) :
    s.gotControl k q = (true, (s.noted k q).emit (s.ctrlAck k q)) := by
  unfold State.gotControl
  rw [h]
  rfl

theorem State.gotControl_again {s : State} {k q : Nat} (h : (s.dpx k).rxSeen.contains q = true) :
    s.gotControl k q = (false, s.emit (s.ctrlAck k q)) := by
  unfold State.gotControl
  rw [h]
  rfl

theorem State.setDpx_setDpx (s : State) (k : Nat) (f g : DpxSt → DpxSt) : (s.setDpx k f).setDpx k g = s.setDpx k (g ∘ f) := by
  unfold State.setDpx
  dsimp only
  rw [List.modify_modify_eq]

theorem State.setDpx_congr {s : State} {k : Nat} {f g : DpxSt → DpxSt} (h : f (s.dpx k) = g (s.dpx k)) : s.setDpx k f = s.setDpx k g := by
  unfold State.setDpx
  rw [modify_congr_nth (d := DpxSt.init) h]

/-- HPD of a DPX that is no sink does not rise. -/
theorem State.hpdUp_unsunk {s : State} {k : Nat} (h : s.isSink k = false) : s.hpdUp k = s := by
  unfold State.hpdUp
  dsimp only
  rw [h, Bool.false_and, Bool.false_and, Bool.false_and, Bool.false_and, if_neg Bool.false_ne_true]

/-- No Attention is sent for a DPX that no multiplexer has taken. -/
theorem State.hpdAttention_free {s : State} {k : Nat} (h : s.dpxTaken k = none) (level irq : Bool) : s.hpdAttention k level irq = s := by
  unfold State.hpdAttention
  rw [h]

section Aux
variable {s : State} {k q : Nat} (ha : s.awake = true)
include ha

/-! ### What the GPU asks (R251) -/

theorem auxTransaction_edid (len vs : Nat) (data : List Byte) (hs : s.isSink k = true) :
    Says (.auxTransaction k 1 0x50 len vs data) s (s.setDpx k fun d => { d with i2cOff := (d.i2cOff + len) % 256 })
      [.auxAnswer k 0 (s.mirrored k (edidBase + (2 * (s.dpx k).i2cSeg + (s.dpx k).i2cOff / 128)) ((s.dpx k).i2cOff % 128) len)] := by
  refine gives_of_run (execAuxTransaction.eq_1 k 1 0x50 len vs data s) ha ?_
  have hs' : s.begin.isSink k = true := hs
  dsimp only
  rw [if_neg (by simp [hs']), if_pos (by decide), if_pos (by decide)]
  exact ⟨rfl, rfl⟩

theorem auxTransaction_refused (addr len vs : Nat) (data : List Byte) (hs : s.isSink k = true) (hlo : 0x68000 ≤ addr) (hhi : addr ≤ 0x69FFF) :
    Says (.auxTransaction k 9 addr len vs data) s s [.auxAnswer k 1 []] := by
  refine gives_of_run (execAuxTransaction.eq_1 k 9 addr len vs data s) ha ?_
  have hs' : s.begin.isSink k = true := hs
  dsimp only
  rw [if_neg (by simp [hs']), if_neg (by decide), if_pos (by simp [hlo, hhi])]
  exact ⟨rfl, rfl⟩

/-- A read of the panel's own registers is forwarded (R251). -/
theorem auxTransaction_forwards (addr len vs : Nat) (data : List Byte) (hs : s.isSink k = true) (hown : dpcdLocal addr = false)
    (hfar : addr < 0x68000 ∨ 0x69FFF < addr) {u : State} {l : List Emit}
    (h : (s.begin.auxForward k 9 addr vs data false).hush = u.hush ∧ (s.begin.auxForward k 9 addr vs data false).out = l) :
    Says (.auxTransaction k 9 addr len vs data) s u l := by
  refine gives_of_run (execAuxTransaction.eq_1 k 9 addr len vs data s) ha ?_
  have hs' : s.begin.isSink k = true := hs
  dsimp only
  rw [if_neg (by simp [hs']), if_neg (by decide), if_neg (by simp; omega), if_neg (by simp [hown])]
  exact h

theorem auxTransaction_answered (addr len vs : Nat) (data : List Byte) (w : AuxWait) (r : Nat) (bs : List Byte) (hs : s.isSink k = true)
    (hown : dpcdLocal addr = false) (hfar : addr < 0x68000 ∨ 0x69FFF < addr) (hw : (s.dpx k).deferred = some w) (hcmd : w.cmd = 9)
    (haddr : w.addr = addr) (hans : w.answer = some (r, bs)) :
    Says (.auxTransaction k 9 addr len vs data) s (s.setDpx k fun d => { d with deferred := none }) [.auxAnswer k r bs] := by
  refine auxTransaction_forwards ha addr len vs data hs hown hfar ?_
  unfold State.auxForward
  dsimp only
  rw [if_neg Bool.false_ne_true, show (s.begin.dpx k).deferred = some w from hw]
  dsimp only
  rw [if_pos (by simp [hcmd, haddr]), hans]
  exact ⟨rfl, rfl⟩

theorem auxTransaction_deferred (addr len vs : Nat) (data : List Byte) (hs : s.isSink k = true) (hown : dpcdLocal addr = false)
    (hfar : addr < 0x68000 ∨ 0x69FFF < addr) (hw : (s.dpx k).deferred = none) (hp : s.paired k = false) :
    Says (.auxTransaction k 9 addr len vs data) s (s.setDpx k fun d => { d with deferred := some ⟨9, addr, s.time.tick, none⟩ })
      [.auxAnswer k 3 []] := by
  refine auxTransaction_forwards ha addr len vs data hs hown hfar ?_
  unfold State.auxForward
  dsimp only
  rw [if_neg Bool.false_ne_true, show (s.begin.dpx k).deferred = none from hw]
  dsimp only
  rw [if_neg (Bool.eq_false_iff.mp (by exact hp))]
  exact ⟨rfl, rfl⟩

/-! ### What the other end asks and answers (R252, R253) -/

theorem auxReq_performs (cmd addr vs : Nat) (data : List Byte) (hnew : (s.dpx k).rxSeen.contains q = false) (hs : s.isSource k = true) :
    Says (.auxReq k q cmd addr vs data) s ((s.noted k q).setDpx k fun d => { d with auxOut := d.auxOut ++ [⟨addr, vs, cmd == 8, none⟩] })
      [s.ctrlAck k q, .panelAux k cmd addr data] := by
  refine gives_of_run (execAuxReq.eq_1 k q cmd addr vs data s) ha ?_
  rw [State.gotControl_fresh (by exact hnew)]
  dsimp only
  rw [if_pos (by rw [Bool.true_and]; exact hs)]
  exact ⟨rfl, rfl⟩

theorem auxReq_again (cmd addr vs : Nat) (data : List Byte) (hold : (s.dpx k).rxSeen.contains q = true) :
    Says (.auxReq k q cmd addr vs data) s s [s.ctrlAck k q] := by
  refine gives_of_run (execAuxReq.eq_1 k q cmd addr vs data s) ha ?_
  rw [State.gotControl_again (by exact hold)]
  dsimp only
  rw [Bool.false_and, if_neg Bool.false_ne_true]
  exact ⟨rfl, rfl⟩

theorem panelAuxReply_posted (x : PanelAux) (rest : List PanelAux) (r : Nat) (data : List Byte) (hx : (s.dpx k).auxOut = x :: rest)
    (hjob : x.job = none) (hposted : x.posted = true) :
    Leaves (.panelAuxReply k r data) s (s.setDpx k fun d => { d with auxOut := rest }) := by
  refine gives_of_run (execPanelAuxReply.eq_1 k r data s) ha ?_
  rw [show (s.begin.dpx k).auxOut = x :: rest from hx]
  dsimp only
  rw [hjob]
  dsimp only
  rw [if_pos hposted]
  rfl

theorem auxRep_keeps (r : Nat) (data : List Byte) (hnew : (s.dpx k).rxSeen.contains q = false) :
    Says (.auxRep k q r data) s ((s.noted k q).setDpx k fun d => { d with
      deferred := d.deferred.map fun w => { w with answer := w.answer.or (some (r, data)) } }) [s.ctrlAck k q] := by
  refine gives_of_run (execAuxRep.eq_1 k q r data s) ha ?_
  rw [State.gotControl_fresh (by exact hnew)]
  exact ⟨rfl, rfl⟩

theorem mirror_keeps (addr : Nat) (data : List Byte) (hnew : (s.dpx k).rxSeen.contains q = false) (hs : s.isSink k = false) :
    Says (.mirror k q addr data) s ((s.noted k q).setDpx k fun d => d.setBlock addr data) [s.ctrlAck k q] := by
  refine gives_of_run (execMirror.eq_1 k q addr data s) ha ?_
  rw [State.gotControl_fresh (by exact hnew)]
  dsimp only
  rw [if_pos rfl, State.hpdUp_unsunk (by exact hs)]
  exact ⟨rfl, rfl⟩

theorem hpd_falls (hnew : (s.dpx k).rxSeen.contains q = false) (hh : (s.dpx k).hpd = true) (ht : s.dpxTaken k = none) :
    Gives (.hpd k q false false) s fun t =>
      t.hush = ((s.noted k q).setDpx k fun d => { d with farHpd := false, hpd := false, hpdFell := some s.time.tick }).hush
      ∧ Heard 1 s t 64 (k % 4) := by
  refine gives_of_run (execHpd.eq_1 k q false false s) ha ?_
  rw [State.gotControl_fresh (by exact hnew)]
  dsimp only
  rw [if_neg (by decide), if_pos (by rfl)]
  have hlit : ((((s.begin.noted k q).emit (s.begin.ctrlAck k q)).setDpx k fun d => { d with farHpd := false }).dpx k).hpd = true :=
    (State.setDpx_dpx_congr DpxSt.hpd _ (by intro _; rfl) ..).trans ((State.setDpx_dpx_congr DpxSt.hpd _ (by intro _; rfl) s ..).trans hh)
  unfold State.hpdDown
  rw [if_pos hlit, State.hpdAttention_free (by exact ht)]
  refine ⟨(State.hush_raise ..).trans ?_, heard_raise_mbx rfl rfl rfl⟩
  exact Eq.trans (b := State.hush (((s.noted k q).setDpx k _).setDpx k _)) rfl
    (congrArg State.hush (State.setDpx_setDpx (s.noted k q) k (fun d => { d with farHpd := false })
      fun d => { d with hpd := false, hpdFell := some s.time.tick }))

theorem controlAck_clears : Leaves (.controlAck k q) s (s.setDpx k fun d => { d with unacked := d.unacked.filter fun m => m.cseq != q }) :=
  gives_of_run (execControlAck.eq_1 k q s) ha rfl

/-! ### What is sent again, and what is not answered (R252, R253) -/

section Resend
variable (m : CtrlOut) (hm : ((s.dpx k).unacked.find? fun m => m.cseq == q) = some m)
include hm

theorem controlResendTimeout_resends (hp : s.passed m.tick 2 = true) (h8 : m.resends < 8) :
    Says (.controlResendTimeout k q) s (s.setDpx k fun d => { d with unacked := d.unacked.map fun x =>
        if x.cseq == q then { x with resends := x.resends + 1, tick := s.time.tick } else x })
      [.control k (s.controlBytes m)] := by
  refine gives_of_run (execControlResendTimeout.eq_1 k q s) ha ?_
  rw [show ((s.begin.dpx k).unacked.find? fun m => m.cseq == q) = some m from hm]
  dsimp only
  rw [if_neg (by rw [show s.begin.passed m.tick 2 = true from hp]; decide), if_pos h8]
  exact ⟨rfl, rfl⟩

theorem controlResendTimeout_gives_up (hp : s.passed m.tick 2 = true) (h8 : 8 ≤ m.resends) :
    Gives (.controlResendTimeout k q) s fun t =>
      t.hush = (s.setDpx k fun d => { d with unacked := d.unacked.filter fun x => x.cseq != q }).hush ∧ Heard 1 s t 75 (k % 4) := by
  refine gives_of_run (execControlResendTimeout.eq_1 k q s) ha ?_
  rw [show ((s.begin.dpx k).unacked.find? fun m => m.cseq == q) = some m from hm]
  dsimp only
  rw [if_neg (by rw [show s.begin.passed m.tick 2 = true from hp]; decide), if_neg (not_lt.mpr h8)]
  exact ⟨(State.hush_raise ..).trans rfl, heard_raise_mbx rfl rfl rfl⟩

theorem controlResendTimeout_early (hp : s.passed m.tick 2 = false) : Leaves (.controlResendTimeout k q) s s := by
  refine gives_of_run (execControlResendTimeout.eq_1 k q s) ha ?_
  rw [show ((s.begin.dpx k).unacked.find? fun m => m.cseq == q) = some m from hm]
  dsimp only
  rw [if_pos (by rw [show s.begin.passed m.tick 2 = false from hp]; rfl)]
  exact s.hush_begin

end Resend

section Forwarded
variable (w : AuxWait) (hw : (s.dpx k).deferred = some w)
include hw

theorem auxFwdTimeout_fails (hans : w.answer = none) (hp : s.passed w.tick (usTicks (s.cv Fld.AUX_FWD_TIMEOUT_US)) = true) :
    Gives (.auxFwdTimeout k) s fun t =>
      t.hush = (s.setDpx k fun d => { d with deferred := some { w with answer := some (1, []) } }).hush ∧ Heard 1 s t 75 (k % 4) := by
  refine gives_of_run (execAuxFwdTimeout.eq_1 k s) ha ?_
  have hw' : (s.begin.dpx k).deferred = some w := hw
  have hp' : s.begin.passed w.tick (usTicks (s.begin.cv Fld.AUX_FWD_TIMEOUT_US)) = true := hp
  rw [if_pos (by rw [hw', Option.any_some, hans, hp']; rfl)]
  refine ⟨(State.hush_raise ..).trans ?_, heard_raise_mbx rfl rfl rfl⟩
  refine Eq.trans (b := (s.setDpx k _).hush) rfl (congrArg State.hush (State.setDpx_congr ?_))
  rw [hw]
  rfl

theorem auxFwdTimeout_early (hp : s.passed w.tick (usTicks (s.cv Fld.AUX_FWD_TIMEOUT_US)) = false) : Leaves (.auxFwdTimeout k) s s := by
  refine gives_of_run (execAuxFwdTimeout.eq_1 k s) ha ?_
  have hw' : (s.begin.dpx k).deferred = some w := hw
  have hp' : s.begin.passed w.tick (usTicks (s.begin.cv Fld.AUX_FWD_TIMEOUT_US)) = false := hp
  rw [if_neg (by rw [hw', Option.any_some, hp', Bool.and_false]; exact Bool.false_ne_true)]
  exact s.hush_begin

end Forwarded

end Aux

/-- Settles O22, clause by clause. -/
theorem auxAndControl : Obligations.AuxAndControl := by
  intro s k q ha got fresh ack
  refine ⟨?_, ?_, ?_, ?_, ?_, ?_, ?_, ?_, ?_, ?_, ?_, ?_, ?_, ?_, ?_, ?_⟩
  · exact fun len vs data hs => auxTransaction_edid ha len vs data hs
  · exact fun addr len vs data hs hlo hhi => auxTransaction_refused ha addr len vs data hs hlo hhi
  · exact fun addr len vs data w r bs hs hown hfar hw hcmd haddr hans => auxTransaction_answered ha addr len vs data w r bs hs hown hfar hw hcmd haddr hans
  · exact fun addr len vs data hs hown hfar hw hp => auxTransaction_deferred ha addr len vs data hs hown hfar hw hp
  · exact fun cmd addr vs data hnew hs => auxReq_performs ha cmd addr vs data hnew hs
  · exact fun cmd addr vs data hold => auxReq_again ha cmd addr vs data (Bool.not_eq_false _ ▸ hold)
  · exact fun x rest r data hx hjob hposted => panelAuxReply_posted ha x rest r data hx hjob hposted
  · exact fun r data hnew => auxRep_keeps ha r data hnew
  · exact fun addr data hnew hs => mirror_keeps ha addr data hnew hs
  · exact fun hnew hh ht => hpd_falls ha hnew hh ht
  · exact controlAck_clears ha
  · exact fun m hm hp h8 => controlResendTimeout_resends ha m hm hp h8
  · exact fun m hm hp h8 => controlResendTimeout_gives_up ha m hm hp h8
  · exact fun m hm hp => controlResendTimeout_early ha m hm hp
  · exact fun w hw hans hp => auxFwdTimeout_fails ha w hw hans hp
  · exact fun w hw hp => auxFwdTimeout_early ha w hw hp

end Sys2Proof.Machine

/-! A live line under the hold overlay (R258, R259): the overlay is blended into a line from the frame store, not into a live one. -/
namespace Sys2Proof.Machine

/-- A frame of one line of one pixel. -/
def onePixel : FrameDesc :=
  { frame := 0, htotal := 1, hactive := 1, hstart := 0, hsync := 0, vtotal := 1, vactive := 1, vstart := 0, vsync := 0, misc := 0, dsc := false
    adaptive := false, clock := 1, bpp := 0 }

/-- The one chunk of its line 0. -/
def onePixelChunk : Chunk := ⟨0, 0, 0, 0, [1, 2, 3]⟩

/-- A live stream that holds that chunk. -/
def liveStream : StreamSt :=
  { id := 1, dpx := 0, index := 0, capture := false, state := 2, dest := (0, 0, 0, 0), audio := false, cut := false, video := none
    audioPath := none, inPort := 0, inLabel := 16, contract := 0, along := 0, delay := 0, share := 0, desc := some onePixel, locked := true
    lockLines := 0, badLines := 0, dco := 0, k := 8, cleanFrames := 0, chunks := [onePixelChunk], late := 0, concealed := 0, skipped := 0
    highWater := 0, frameChunks := 0, frameConc := 0, badFrames := 0, stored := false, goodFrames := 0, storeBuf := 0, holdNext := none
    lastChunk := 0, concEv := 0, concTick := none, skipTick := none, holdAt := 0, step := 0, origin := none, interval := 0, start := none
    shift := 0, frameNo := 0, away := false, above := [], firstLine := [], audioIn := [], job := none }

/-- A hub that shows it on DPX 0, whose hold overlay covers line 0. -/
def overlaidHub : State := { State.reset with
  disp.streams := [liveStream]
  disp.dpx := [{ DpxSt.init with overlay := (true, 0, 0, 1, 1, 0) }] }

/-- Line 0 goes out live, without the overlay. -/
theorem lineDue_overlaidHub : ∃ t, exec (.lineDue 1 0 0 0 0) overlaidHub = .next t ∧ t.out = [.panelLine 0 1 0 0 [1, 2, 3] false] :=
  ⟨_, rfl, by decide +kernel⟩

/-- Refutes O21: on `overlaidHub` the hold overlay of DPX 0 covers line 0, and the live line goes out without it, where the statement has it
with the overlay. -/
theorem not_displayStreams : ¬ Obligations.DisplayStreams := by
  intro h
  obtain ⟨-, hregen⟩ := h
  obtain ⟨-, -, -, -, -, -, -, -, -, -, -, hlive, -⟩ := hregen overlaidHub 0 1 (by decide +kernel)
  obtain ⟨t, hx, hout⟩ := lineDue_overlaidHub
  obtain ⟨t', hx', hout', -⟩ := hlive liveStream onePixel onePixelChunk 0 0 0 rfl rfl rfl rfl rfl rfl rfl rfl rfl rfl (by decide) (by decide +kernel)
    (by decide) (by decide) rfl
  rw [hx] at hx'
  injection hx' with ht
  rw [← ht, hout] at hout'
  exact absurd hout' (by decide +kernel)

end Sys2Proof.Machine

/-! Surprise Down (R282) at a bridge whose own request waits to go back into its path. -/
namespace Sys2Proof.Machine

/-- A memory request of 4 bytes. -/
def request : Tlp := { cplTlp 0 0 0 0 with fc := 1, route := 0, target := 0, len := 4 }

/-- A hub whose bridge 1 is suspended, its hold over, and holds a request that came from its own path. -/
def turnedBack : State := { State.reset with
  pcie.bridges := [.init, { PciEnd.init with state := 2, suspAt := 1, held := [⟨request, some 1⟩] }] ++ List.replicate 14 .init }

/-- The request's answer is held in its place. -/
theorem pcieHoldExpiry_turnedBack : ∃ t, exec (.pcieHoldExpiry 1) turnedBack = .next t ∧ ((t.pcEnd 1).held == []) = false :=
  ⟨_, rfl, by decide +kernel⟩

/-- Refutes O24: on `turnedBack` bridge 1 holds a request that came out of its own path; Surprise Down answers it with a completion that goes
to that path, and so the bridge still holds something, where the statement has nothing held. -/
theorem not_pcieTunnels : ¬ Obligations.PcieTunnels := by
  intro h
  obtain ⟨-, -, -, -, -, -, -, -, -, -, -, -, hhold, -⟩ := h.1 turnedBack (by decide +kernel)
  obtain ⟨t, hx, hheld⟩ := pcieHoldExpiry_turnedBack
  obtain ⟨t', hx', -, -, -, -, hempty, -⟩ := hhold 1 (by decide) rfl (by decide +kernel) (by decide)
  rw [hx] at hx'
  injection hx' with ht
  rw [← ht] at hempty
  rw [hempty] at hheld
  exact absurd hheld (by decide)

end Sys2Proof.Machine

/-! A cell ahead of its path's SEQ (R152) at a port that lists the path's flow twice. -/
namespace Sys2Proof.Machine

/-- A cell of label 2 with SEQ 1. -/
def aheadCell : Cell := withHcrc ⟨2, 7, 0, 0, 1, 0, false, false, false, false, 0, []⟩

/-- A hub in whose port 0 two flows have label 2: the first holds no cell, the second one since slot 7. -/
def listedTwice : State := { State.reset with
  cable.links := [{ LinkSt.init with
    keysIn := true, encrypt := false, hunt := [], coach := []
    flows := [.fresh 2 7 32 32, { FlowSt.fresh 2 7 32 32 with rxHeld := [aheadCell], heldAt := 7 }] }, .init] }

/-- The cell is kept with both, and the second flow's wait goes on from slot 7. -/
theorem cellReceive_listedTwice : ∃ t, exec (.cellReceive 0 0 aheadCell [] 0 false []) listedTwice = .next t
    ∧ (t.link 0).flows.map (·.heldAt) = [0, 7] :=
  ⟨_, rfl, by decide +kernel⟩

/-- Refutes O14: on `listedTwice` the first flow of label 2 holds no cell and so its wait begins in this slot; the second flow's wait began
before and goes on, where the statement lets it begin anew. -/
theorem not_cellsReceived : ¬ Obligations.CellsReceived := by
  intro h
  obtain ⟨-, -, -, -, -, -, hahead, -⟩ := h listedTwice 0 0 aheadCell [] 0 false [] (by decide +kernel) (by decide) (by decide)
  obtain ⟨t, hx, hheld⟩ := cellReceive_listedTwice
  obtain ⟨t', hx', hhush⟩ := hahead (.fresh 2 7 32 32) ⟨⟨by decide +kernel, by decide +kernel, by simp⟩, by decide +kernel⟩
    ⟨by decide +kernel, by decide +kernel, by decide +kernel, by decide +kernel, by decide +kernel⟩ (by decide +kernel) (by decide +kernel)
    (by decide +kernel) ⟨by decide +kernel, by decide +kernel⟩
  rw [hx] at hx'
  injection hx' with ht
  rw [← ht] at hhush
  have hflows := congrArg (fun u : State => (u.link 0).flows.map (·.heldAt)) hhush
  exact absurd (hheld.symm.trans hflows) (by decide +kernel)

end Sys2Proof.Machine
